-- ==== Sys2Proof/Word.lean ====
section
/-!
DEFINITION. The word and byte types of the TW6472 and the two container shapes the state uses: all registers are
32 bits wide (R7…R10); memories are sparse tables in one canonical form.
-/

namespace Sys2Proof

/-- A register word: all registers are 32 bits wide. -/
abbrev Word := BitVec 32

/-- The smallest addressable unit of every memory of the device. -/
abbrev Byte := BitVec 8

/-- A sparse table: (key, value) pairs, keys strictly rising, no value equal to what an unlisted key reads as. -/
abbrev Tab (α : Type) := List (Nat × α)

end Sys2Proof
end

