-- ==== Sys2Proof/Syntax.lean ====
section
/-!
DEFINITION. The operands of the commands, and the commands: one constructor per row of the table, with the rule that states it.
Operands that the environment of the device decides (a measurement, a frame received, samples) come with the command.
-/

namespace Sys2Proof

/-- A complex sample or weight. -/
abbrev Cplx := Int × Int

/-- A source sample of a capture stream (R336, R339): its TB3 time in units of 2^−16/3 ns, and the source samples since filling started
that come before it. -/
structure Grid where
  time : Nat
  before : Nat
  deriving DecidableEq, Repr, Inhabited

/-- Samples that a level trigger watches (R337), in Q1.23: the TB3 time of the first one, and the samples. -/
structure Watch where
  first : Nat
  samples : List Cplx
  deriving DecidableEq, Repr, Inhabited

/-- A queue whose limit can pass (R29): of flock admission, of an observation receiver, of a capture stream. -/
inductive LimitQueue where
  | admission
  | receiver (o : Fin 8)
  | stream (st : Fin 4)
  deriving DecidableEq, Repr, Inhabited

/-- What the capture engine saw while a segment filled (Table 13-4), and how many entries the buffer took before it filled. -/
structure SegMarks where
  loInvalid : Bool
  gap : Bool
  dcFrozen : Bool
  stored : Option Nat
  deriving DecidableEq, Repr, Inhabited

/-- A banked coefficient set (R172): the slot of a layer, or the predistorter of a path. -/
inductive BankedSet where
  | layer (ul : Bool) (l : Fin 32)
  | path (p : Fin 64)
  deriving DecidableEq, Repr, Inhabited

/-- A block that a predistortion visit captures (R191): the TX chain was LIVE for all of it, the TB0 time of its first sample, the
predistorter's input and output, the observed signal, and the predistorter inputs of the two neighbours, all in Q1.23. -/
structure ObsBlock where
  live : Bool
  first : Nat
  x : List Cplx
  y : List Cplx
  v : List Cplx
  ua : List Cplx
  ub : List Cplx
  deriving DecidableEq, Repr, Inhabited

/-- What a calibration measured on a path (R427…R431): the direction, for those that have two; whether the RX input lies below
−70 dBFS (RX_DC); and its values. RX_DC, TX_LOL: I and Q in LSB, the residual in 0.01 dB. RX_IQ, TX_IQ: gain and phase in 2^−15,
the image in 0.01 dBc. FILTER: six codes, then the six corners they give in kHz. ARRAY: lateness in 2^−10 ps, gain I and Q in
any common scale, the residual spread of the direction in 0.01 ps. RECIP: I and Q in Q2.14. STACK: the phase in 2^−16 turn. -/
structure CalMeas where
  path : Fin 64
  tx : Bool
  quiet : Bool
  v : List Int
  deriving DecidableEq, Repr, Inhabited

/-- Why the drover requests calibrations (R435). -/
inductive CalWhy where
  | zone (z : Fin 8)
  | hourly
  | loChange (r : Fin 2)
  deriving DecidableEq, Repr, Inhabited

/-- A loop that declares lock (R131, R136); an RF unit in the VCO band that it uses. -/
inductive LockLoop where
  | converter
  | unit (u : Fin 3) (band : Fin 64)
  | timeBase
  deriving DecidableEq, Repr, Inhabited

/-- What is latched 10 ms after a loss (R141, R142). -/
inductive LatchOf where
  | role (r : Fin 2)
  | converter
  deriving DecidableEq, Repr, Inhabited

/-- What fails in power-up calibration (R119, R432): sub-converters in their self-test, positions of ADCs in the spare round, segments of
DACs in the segment round; by path and Q converter. -/
structure PowerUpFails where
  self : List (Fin 64 × Bool × Fin 9)
  adc : List (Fin 64 × Bool × Fin 8)
  dac : List (Fin 64 × Bool × Fin 63)
  deriving DecidableEq, Repr, Inhabited

/-- What bring-up found on a position (Table 9-3, R238, R242): the lane that serves it, its polarity, its skew in ps, the eye height
in mV and CTLE setting, and the taps that training left. -/
structure LaneFound where
  lane : Fin 29
  rxInv : Bool
  skew : Nat
  eye : BitVec 16
  ctle : BitVec 8
  taps : Word
  deriving DecidableEq, Repr, Inhabited

/-- What a second of TB1 counted on a lane (R246, R248): FEC symbol errors, or PRBS errors and lock of a lane in TEST. -/
structure LaneErrors where
  lane : Fin 29
  errors : Nat
  prbsLock : Bool
  deriving DecidableEq, Repr, Inhabited

/-- What a second of TB1 counted on a port (R252): corrected and uncorrectable codewords. -/
structure PortErrors where
  port : Fin 5
  corrected : Nat
  uncorrectable : Nat
  deriving DecidableEq, Repr, Inhabited

/-- What the discovery of a fold-link reserve found (R247): the port and the neighbour's reserve it is wired to, or no signal. -/
inductive WiredTo where
  | fl0 (far : Fin 2)
  | fl1 (far : Fin 2)
  | nothing
  deriving DecidableEq, Repr, Inhabited

/-- How an attempt of a rail request fails (R49, Table 2-6). -/
inductive PmbWhy where
  | nak | pec | timeout | fault
  deriving DecidableEq, Repr

/-- What is marked of uplink samples (Table 10-2): the RX role was invalid, a cadence slip, fall-back, a faulted RX chain; and, of a
stack's sums, a saturated part (Table 12-3). -/
structure UlMarks where
  loInvalid : Bool := false
  slip : Bool := false
  fallback : Bool := false
  fault : Bool := false
  sat : Bool := false
  deriving DecidableEq, Repr, Inhabited

/-- A pair that has not arrived by its hop time (R325): a downlink one by layer and the ball air time of a needed sample of it; an
uplink one by carrier and the ball time of its first sample, with the ADC samples of the device over the interval and
what they are marked with. -/
inductive MissedPair where
  | dl (l : Fin 32) (air : Nat)
  | ul (c : Fin 4) (start : Nat) (adc : List (List Cplx)) (m : UlMarks)
  deriving DecidableEq, Repr, Inhabited


/-- The commands of the TW6472: what comes from outside the block or from its own sequencers, one at a time. The rows with operands come
first, each part in the order of the table (Lean runs no constructor with operands past the 244th). -/
inductive Instr where
  /-- POWER_FAIL_WARNING (R418). VSEN falls through 2.55 V, or VCORE loses power-good. No new store write starts, and a write
  in progress finishes or stops. `vsen` names VSEN, otherwise VCORE; `remaining` is the bytes left of the write in progress.
  -/
  | powerFailWarning (vsen : Bool) (remaining : Nat)
  /-- SHIELING_FRAME (R67). A recognised Shieling wake frame arrives. It wakes the device or is counted as rejected. -/
  | shielingFrame (site : BitVec 24) (cmd crc : BitVec 8)
  /-- FRONTHAUL_SIGNAL_DETECT (R245). Signal is detected on the lane serving position 0 of FH0 or FH1, which wakes the device
  from Doze. Port `q`. -/
  | fronthaulSignalDetect (q : Fin 2)
  /-- PMBUS_TRANSACTION_DONE (R54). A PMBus request completes with power-good and a clean STATUS_WORD. The rail is
  acknowledged, and the next rail or group is requested. Rail `n`; `mode` is the VOUT_MODE byte of a first request. -/
  | pmbusTransactionDone (n : Fin 8) (mode : BitVec 8)
  /-- PMBUS_ATTEMPT_FAILED (R49). A rail request is NAKed, fails PEC, times out after 2 ms or reads a fault bit. It is retried
  after 1 ms. Rail `n`. -/
  | pmbusAttemptFailed (n : Fin 8) (why : PmbWhy)
  /-- RAIL_RETRY (R49). The 1 ms retry spacing expires, and the failed rail request is sent again after CLEAR_FAULTS. -/
  | railRetry (n : Fin 8)
  /-- SMBALERT (R55). SMBALERT_N asserts. The device reads STATUS_WORD of every page and acts only on a fault it reads.
  STATUS_WORD of the eight rails. -/
  | smbalert (words : List (BitVec 16))
  /-- RAIL_FAULT (R51). An acknowledged rail reports a fault or loses PGOOD. The device rolls back with cause RAIL_FAULT. -/
  | railFault (n : Fin 8)
  /-- PMBUS_TELEMETRY_POLL (R53). Every 10 ms the device reads READ_VOUT and READ_IOUT for the housekeeping record. READ_VOUT
  and READ_IOUT of the eight rails. -/
  | pmbusTelemetryPoll (r : List (BitVec 16 × BitVec 16))
  /-- REF_CHECK_WINDOW_DONE (R43). A 488.28 µs edge-count window ends. The reference is compared with the supply record, and
  PLL lock is awaited. `edges` is the count. -/
  | refCheckWindowDone (edges : Nat)
  /-- RELEASE (R47). A write of PWR_STAGE_CTRL.RELEASE sets or clears permission for stage 4. Clearing it starts the exit from
  stage 4. -/
  | release (on : Bool)
  /-- PWR_LEVEL_REQ (R58). A write of PWR_LEVEL_REQ requests a performance-level change, tested in the order of R58. -/
  | pwrLevelReq (l : BitVec 2)
  /-- CADENCE_REPORT (R57). A cadence monitor reports every 8 µs. The margin is updated, and VCORE may step up or MARGIN_LOW
  may set. Per monitor, whether its region holds spindles in service, and its margin in 0.1 %. -/
  | cadenceReport (r : List (Bool × Option Int))
  /-- SLEEP_STEP_DONE (R61). A sleep step that waited, such as finishing a job, a solve or a record write, completes, and the
  next step runs. `late` says that the step reached its limit (Table 2-9). -/
  | sleepStepDone (late : Bool)
  /-- DOZE_EXIT_DONE (R60). After a wake in Doze, relocking, lanes and memory are restored and the device reaches Idle within
  8 ms. MR4 as read, none when it cannot be, and the DQS drift in 1/64 UI. -/
  | dozeExitDone (mr4 : Option (Fin 8)) (drift : Int)
  /-- PWR_AON_SHL_CFG_WRITE (R70). A write of the Shieling configuration takes effect, or is ignored and logged when it
  changes SITE while EN = 1. -/
  | pwrAonShlCfgWrite (w : Word)
  /-- WRP_DATA_WRITE (R443). A word is staged into the 4,096-word warp buffer. A word written to a full buffer is logged as an
  overflow. -/
  | wrpDataWrite (w : Word)
  /-- SPINDLE_SELF_TEST_FAIL (R96). A spindle fails its power-up self-test and is retired before weaving. Spindle `i`. -/
  | spindleSelfTestFail (i : Fin 576)
  /-- TEST_VECTOR_FAIL (R96). A fibre fails an in-service test vector, and a reserve handover or an exhaustion action is
  queued. Spindle `i` and the layers with work on it. -/
  | testVectorFail (i : Fin 576) (layers : List (Bool × Fin 32))
  /-- SHADOW_COMPARE_DONE (R96). 64 samples of shadow comparison end. On a match the work moves at the next slot boundary; on
  a miscompare the next reserve is tried. -/
  | shadowCompareDone (matched : Bool)
  /-- GROUP_BOUNDARY (R104). A slot boundary of a path group applies pending attenuation, trim, mute, swap, fault and resume
  changes. -/
  | groupBoundary (g : Fin 8)
  /-- PTH_TX_ATTEN_WRITE (R105). A write of transmit attenuation applies at the next group boundary in TX, or within 1 µs
  otherwise. -/
  | pthTxAttenWrite (p : Fin 64) (w : Word)
  /-- PTH_RX_ATTEN_WRITE (R105). A write of receive attenuation applies at the next group boundary in RX, or within 1 µs
  otherwise. -/
  | pthRxAttenWrite (p : Fin 64) (w : Word)
  /-- PTH_TRIM_USER_WRITE (R112). A user delay trim write applies like attenuation, and TRIM_SAT is set on saturation. -/
  | pthTrimUserWrite (p : Fin 64) (tx : Bool) (w : Word)
  /-- TX_MUTE (R126). PTH_CTRL.TX_MUTE mutes or unmutes the chain at the group boundary, or within 100 ns with MUTE_NOW. -/
  | txMute (p : Fin 64) (mute now : Bool)
  /-- RX_ZERO (R124). PTH_CTRL.RX_ZERO zeroes received samples from the next group boundary. -/
  | rxZero (p : Fin 64) (zero : Bool)
  /-- INV_SINC_OFF (R108). PTH_CTRL.INV_SINC_OFF bypasses or restores the equaliser with a delay-matched path. -/
  | invSincOff (p : Fin 64) (off : Bool)
  /-- CLEAR_OCP (R127). PTH_CTRL.CLEAR_OCP clears an OCP fault at the next group boundary while the group is not in TX. -/
  | clearOcp (p : Fin 64)
  /-- SHADOW_BLOCK_DONE (R115). A 4,096-sample shadow comparison block of an ADC position ends and is judged. `q` names the Q
  converter; `rms` is the difference in 1/16 LSB. -/
  | shadowBlockDone (p : Fin 64) (q : Bool) (rms : Nat)
  /-- SHADOW_PASS_DONE (R114). The spare finishes a pass of one position and moves to the next, becoming ready after a full
  round. -/
  | shadowPassDone (p : Fin 64) (q : Bool)
  /-- ADC_STUCK_DETECT (R115). A position holds one code for 4,096 samples, a gross failure that starts filling. -/
  | adcStuckDetect (p : Fin 64) (q : Bool) (pos : Fin 8)
  /-- DAC_SEGMENT_MEASURED (R120). The 2 ms measurement of a unary segment ends, and the segment is judged. `ok` says that the
  segment passes. -/
  | dacSegmentMeasured (p : Fin 64) (q : Bool) (seg : Fin 63) (ok : Bool)
  /-- DAC_BINARY_FAIL (R123). A binary cell cannot be trimmed, and the TX faults with DAC_BINARY. -/
  | dacBinaryFail (p : Fin 64)
  /-- OCP_TRIP (R127). Output-stage current exceeds 95 mA. The chain is muted, counted, and latched on a third trip. -/
  | ocpTrip (p : Fin 64)
  /-- OVERLOAD_MS (R128). Each TB1 millisecond, clipped samples are compared with THRESH, and OVERLOAD asserts when exceeded.
  Samples clipped in I, in Q, and in both. -/
  | overloadMs (p : Fin 64) (i q both : Nat)
  /-- STANDBY_REF_CHECK (R133). Each 1 ms the standby reference is measured for validity. `b` names REF_B; `ok` says that it
  passes. -/
  | standbyRefCheck (b ok : Bool)
  /-- SYN_REF_SEL_WRITE (R134). A write of SEL switches the reference, or is refused with REF_REFUSED if that reference is not
  valid. -/
  | synRefSelWrite (w : Word)
  /-- LOCK_DECLARED (R136). A loop's phase error stays within WINDOW for N cycles, so it declares lock and its role may become
  valid. -/
  | lockDeclared (loop : LockLoop)
  /-- LOSS_OF_LOCK (R139). An RF unit loses lock. Its output is gated, TX muted, RX zeroed and observation suspended. -/
  | lossOfLock (u : Fin 3)
  /-- BAND_SEARCH_START (R141). 500 µs without relock, and the unit starts searching VCO bands. -/
  | bandSearchStart (u : Fin 3)
  /-- LO_LATCHED (R141). 10 ms after a loss without recovery the role is latched, and its paths stay muted. -/
  | loLatched (x : LatchOf)
  /-- RF_UNIT_FAILED (R143). No relock within 2 ms, or a third loss in 1 s. The unit fails and the reserve swap starts. -/
  | rfUnitFailed (u : Fin 3)
  /-- SYNTH_SWAP_DONE (R144). The reserve locks at the role's frequency, the LO distribution switches, and SWAP_DONE asserts.
  -/
  | synthSwapDone (r : Fin 2)
  /-- RESERVE_PROVING (R145). Every 10 s the reserve synthesiser locks to each in-service frequency to prove itself. Whether
  the reserve locked at each frequency, and the bands found. -/
  | reserveProving (ok : Bool) (bandA bandB : Fin 64)
  /-- VCO_CAL_GAP_START (R146). A gap of 250 µs (400 µs for a swap) opens, and a waiting VCO calibration or planned swap
  starts. -/
  | vcoCalGapStart (r : Fin 2)
  /-- VCO_CAL_DONE (R146). A 220 µs VCO calibration ends, and the role may become valid. The band found, if any. -/
  | vcoCalDone (u : Fin 3) (band : Option (Fin 64))
  /-- SYN_CAL_WAIT_LONG (R146). A calibration or swap has waited 10 s. CAL_WAIT_LONG asserts, and the wait continues. -/
  | synCalWaitLong (r : Fin 2)
  /-- RESUME (R141). SYN_CTRL RESUME_A or RESUME_B arms resumption of a latched role. -/
  | resume (b : Bool)
  /-- VCOCAL (R147). SYN_CTRL VCOCAL_A or VCOCAL_B requests a calibration for a role, at once with FORCE. -/
  | vcocal (b force : Bool)
  /-- SWAP (R147). SYN_CTRL SWAP_A or SWAP_B requests a planned swap of a role to the reserve, at once with FORCE. -/
  | swap (b force : Bool)
  /-- SYN_PHASE_WRITE (R149). A new fold rotator target applies at the group boundary or within 1 µs, and the rotator slews.
  -/
  | synPhaseWrite (f : Fin 8) (w : Word)
  /-- SKEIN_MEMORY_WRITE (R153). Host software writes skein memory words, which are atomic within one frame for snapshots. `a`
  is the word offset from 0x0100_0000. -/
  | skeinMemoryWrite (a : BitVec 22) (w : Word)
  /-- SKN_SWITCH_CTRL_GO (R163). A host swap request is tested against Table 6-5 and becomes pending or is refused. -/
  | sknSwitchCtrlGo (w : Word)
  /-- SWAP_START (R170). A pending swap reaches its start sample. The inactive bank is loaded from a snapshot and made active,
  hard or by ply. -/
  | swapStart (b : BankedSet)
  /-- PLY_END (R169). The ply's sample count ends, and the entered bank is active alone. -/
  | plyEnd (b : BankedSet)
  /-- FFT_JOB_SUBMIT (R177). An FFT job is submitted to engine f, queued with a tag, or refused. The engine, and whether the
  drover asks. -/
  | fftJobSubmit (f : Fin 8 × Bool)
  /-- FFT_JOB_START (R176). An engine takes its next queued job once input is gathered and any memory wait ends. The input
  samples of a source that is not capture memory, and the TB3 time of the first. -/
  | fftJobStart (f : Fin 8) (samples : List Cplx) (first : Nat)
  /-- FFT_JOB_DONE (R175). An FFT job completes. It writes outputs and trailer, sets EXP and raises DONE. -/
  | fftJobDone (f : Fin 8)
  /-- DPD_SWITCH_CTRL_GO (R187). A host predistortion page swap request is tested and becomes pending or is refused. -/
  | dpdSwitchCtrlGo (w : Word)
  /-- DPD_PATH_CFG_WRITE (R188). A write of ADAPT, M or C. Clearing ADAPT aborts solves; M and C may change only while the
  chain is not LIVE. -/
  | dpdPathCfgWrite (p : Fin 64) (w : Word)
  /-- DPD_COEFF_MEMORY_WRITE (R188). A host write to coefficient memory is applied, or ignored and logged while ADAPT = 1. `a`
  is the word offset from 0x0400_0000. -/
  | dpdCoeffMemoryWrite (a : BitVec 18) (w : Word)
  /-- DPD_PATH_DUE (R194). A path's period passes, and it starts collecting observation blocks. -/
  | dpdPathDue (p : Fin 64)
  /-- OBS_VISIT_DONE (R191). A predistortion visit captures a block, which is checked against Table 7-3. Receiver `o`, member
  `m` and the block. -/
  | obsVisitDone (o m : Fin 8) (k : ObsBlock)
  /-- OBS_HOLDER_GRANT (R190). The observation receiver is granted to a capture, survey or calibration holder after any visit
  ends. -/
  | obsHolderGrant (o : Fin 8)
  /-- SOLVE_DONE (R196). A solve completes and is checked. A passing solution is written and its swap requested. The path, and
  the time the solve took, in units of TB1. -/
  | solveDone (p : Fin 64) (took : Nat)
  /-- DPD_VERIFICATION_DONE (R197). The verification block after a swap is judged UPDATED or REVERTED. -/
  | dpdVerificationDone (p : Fin 64) (k : ObsBlock)
  /-- DPD_STALE (R194). A path has not completed a solve within twice its period, so STALE is set. -/
  | dpdStale (p : Fin 64)
  /-- DPD_SURVEY_CTRL_GO (R199). Host software starts a feeder survey of a path, or it is refused. -/
  | dpdSurveyCtrlGo (w : Word)
  /-- SURVEY_DONE (R201). A survey sweep ends. The profile, peaks and lengths are reported, and the role is restored. The
  receiver, and of each step the reflected and the forward coupler output. -/
  | surveyDone (m : Fin 8 × List (Cplx × Cplx))
  /-- RAD_GROUP_CMD (R206). Host software commands a group to OFF, STANDBY, RX or GUARD, or the command is refused. -/
  | radGroupCmd (w : Word)
  /-- RAD_BURST_CTRL_GO (R209). A host burst request is tested against Table 8-3 and R210 and is accepted or refused. -/
  | radBurstCtrlGo (w : Word)
  /-- BURST_PREPARATION (R205). The device starts a group transition early enough to reach the burst's state at its start. -/
  | burstPreparation (g : Fin 8)
  /-- GROUP_TRANSITION_DONE (R205). A group reaches its new state after the time of Table 8-2. -/
  | groupTransitionDone (g : Fin 8)
  /-- BURST_START (R212). At a burst's start, TX checks run, and the burst starts or is dropped. -/
  | burstStart (g : Fin 8)
  /-- BURST_END (R211). A burst ends, and the group enters its return state or continues into the next burst. -/
  | burstEnd (g : Fin 8)
  /-- RAD_LINE_CFG_WRITE (R215). A timed-line configuration change takes effect at the next boundary of the line group. -/
  | radLineCfgWrite (f : Fin 8) (n : Fin 4) (w : Word)
  /-- RFFE_IMMEDIATE_CMD (R219). An immediate RFFE command goes on the bus when it is next idle. -/
  | rffeImmediateCmd (f : Fin 8) (w : Word)
  /-- RFFE_TIMED_CMD (R219). A timed RFFE command is queued by air time or refused. -/
  | rffeTimedCmd (f : Fin 8) (w : Word)
  /-- RFFE_TIMED_FRAME_SEND (R219). A queued timed frame is placed so that its last SCLK edge falls at its air time, or late
  after a busy bus. -/
  | rffeTimedFrameSend (f : Fin 8)
  /-- RFFE_FRAME_DONE (R218). An RFFE frame completes. Read data is stored, or a parity error is counted. The bytes a read
  returned, first byte in [7:0], and whether their parity is wrong. -/
  | rffeFrameDone (f : Fin 8) (data : Word) (parity : Bool)
  /-- NVS_PAST_DATA_WRITE (R443). A word is staged into the 75-word pasture buffer. -/
  | nvsPastDataWrite (w : Word)
  /-- LICENCE_POWER_WINDOW (R225). Each 100 µs window the conducted power of each chain and the aggregate are estimated, and
  LIC_ATTEN or AGG_ATTEN rises. Mean output of each path over its LIVE samples of the window, in 0.01 dBFS, none for a chain
  that was never LIVE. -/
  | licencePowerWindow (levels : List (Option Int))
  /-- LICENCE_ATTEN_RELAX (R227). After a full second well below the limit, LIC_ATTEN or AGG_ATTEN falls one step. Path, or
  none for the aggregate. -/
  | licenceAttenRelax (p : Option (Fin 64))
  /-- PORT_STEP_TIMEOUT (R239). A bring-up step fails its limit, and the port restarts from step 1 after 10 ms. The step that
  failed, and the highest step that every position has reached. -/
  | portStepTimeout (q : Fin 5) (step : Fin 8 × Fin 8)
  /-- PORT_BRINGUP_RESTART (R239). The 10 ms pause ends, and bring-up starts again from step 1. -/
  | portBringupRestart (q : Fin 5)
  /-- PORT_L0 (R239). Every position passes step 5 with alignment lock, so the port is in L0. What bring-up found on each
  position. -/
  | portL0 (q : Fin 5) (found : List LaneFound)
  /-- SUSPECT_LANE (R241). A lane fails step 1 or 2 within 100 ms while the others pass, and it is handled as a lane failure.
  The lane, and whether the step is 2. -/
  | suspectLane (n : Fin 29 × Bool)
  /-- LNE_PORT_STATE (R244). LNE_PORT_CTRL.STATE moves a port among L0, L1 and L2, or is refused. -/
  | lnePortState (q : Fin 5) (st : Fin 4)
  /-- HOLD (R244). LNE_PORT_CTRL.HOLD keeps a port out of service in L0. -/
  | hold (q : Fin 5)
  /-- HOLD_CLEAR (R244). LNE_PORT_CTRL.HOLD_CLEAR releases a held port. -/
  | holdClear (q : Fin 5)
  /-- RETRAIN (R244). LNE_PORT_CTRL.RETRAIN runs bring-up again from step 1. -/
  | retrain (q : Fin 5)
  /-- LNE_TX_EQ_WRITE (R238). A TX equaliser write applies within 10 µs, sets the next training preset, or is rejected. -/
  | lneTxEqWrite (n : Fin 29) (w : Word)
  /-- LNE_TEST_CTRL_WRITE (R246). A PRBS test is enabled on an eligible lane, or the write is ignored and logged. -/
  | lneTestCtrlWrite (n : Fin 29) (w : Word)
  /-- LANE_ERROR_WINDOW (R248). Each second of TB1, lane symbol errors and port uncorrectable codewords are compared with
  their thresholds. What the second counted by lane and by port. -/
  | laneErrorWindow (ls : List LaneErrors) (ps : List PortErrors)
  /-- CDR_LOSS (R248). A lane's CDR loses lock. Repeated or prolonged loss fails the lane. `long` says that it has lasted past
  the limit. -/
  | cdrLoss (n : Fin 29) (long : Bool)
  /-- SWAP_LANE (R248). LNE_LANE_CTRL.SWAP declares a lane failed, or is ignored and logged. -/
  | swapLane (n : Fin 29)
  /-- LANE_SWAP_DONE (R249). The reserve lane is trained and the port realigned in L0. The failed lane is retired. What the
  swap found on each position. -/
  | laneSwapDone (q : Fin 5) (found : List LaneFound)
  /-- LANE_LOOPBACK_DONE (R251). The 2 ms near-end loopback ends. The lane is retired, or EXTERNAL is set. -/
  | laneLoopbackDone (q : Fin 5) (pass : Bool)
  /-- PORT_RETRY_TIMER (R251). Every 1 s a down port with an external fault, or MG, retries bring-up. -/
  | portRetryTimer (q : Fin 5)
  /-- FOLD_RESERVE_DISCOVERY (R247). An enabled fold-link reserve trains once, learns its far end, then parks in L2. Reserve
  `i` (lane 26 + i) and what it found. -/
  | foldReserveDiscovery (i : Fin 2) (w : WiredTo)
  /-- QUAR_RELEASE (R253). A quarantined port is clean for a second, and frames pass again. -/
  | quarRelease (q : Fin 5)
  /-- ETHERNET_FRAME_RX (R255). A frame received on FH0 or FH1 is checked and sorted to PTP, a flock, or dropped. Port `q` (2
  MG), the sixteenth of a tick of its arrival, the frame after its preamble without its FCS, whether the FCS is right, and
  whether a codeword under it was uncorrectable. -/
  | ethernetFrameRx (q : Fin 3) (fine : Fin 16) (b : List Byte) (fcsOk uncorr : Bool)
  /-- IQ_SECTION_RX (R265). A downlink eCPRI IQ section is checked, then held, dropped or discarded by its deadline. Flock,
  port, PC_ID and the section after its eCPRI header. -/
  | iqSectionRx (k : Fin 8) (q : Fin 2) (pcid : BitVec 16) (body : List Byte)
  /-- LATE_SUBSTITUTION (R266). A needed sample has no on-time section, so the layer outputs zero to the end of the symbol. -/
  | lateSubstitution (l : Fin 32)
  /-- UL_SECTION_SEND (R264). An uplink section's last block completes, and the section is compressed, flagged and sent.
  Layer, ball time of the first sample, block count, the ADC samples of the 64 paths in order (their first 480 before the
  first sample, their last 32 after the last), and what they are marked with. -/
  | ulSectionSend (l : Fin 32) (start count : Nat) (adc : List (List Cplx)) (m : UlMarks)
  /-- ECPRI_DELAY_MEASUREMENT (R258). An eCPRI type 5 message is handled in either role with TB0 timestamps. Flock, port with
  the sixteenth of a tick of the arrival, and the message after its header. -/
  | ecpriDelayMeasurement (k : Fin 8) (q : Fin 2 × Fin 16) (body : List Byte)
  /-- ADMIT_REQ (R272). A flock asks for layer slots. The request is tested against Table 10-6 and decided in its epoch.
  Flock, port, tag and body of the message. -/
  | admitReq (k : Fin 8) (q : Fin 2) (tag : BitVec 16) (body : List Byte)
  /-- RELEASE_SLOTS (R277). A flock releases slots it holds, answered with ACK, or is NAKed for NOT_HOLDER. -/
  | releaseSlots (k : Fin 8) (q : Fin 2) (tag : BitVec 16) (body : List Byte)
  /-- WITHDRAW (R277). A flock withdraws a queued or deferred ADMIT_REQ. -/
  | withdraw (k : Fin 8) (q : Fin 2) (tag : BitVec 16) (body : List Byte)
  /-- SKEIN_WRITE (R154). A flock writes weights into a skein within its partitions, atomically. -/
  | skeinWrite (k : Fin 8) (q : Fin 2) (tag : BitVec 16) (body : List Byte)
  /-- SWAP_REQ (R163). A flock requests a bank swap on a slot it holds. -/
  | swapReq (k : Fin 8) (q : Fin 2) (tag : BitVec 16) (body : List Byte)
  /-- BURST_REQ (R209). A flock requests a TX or RX burst on a group. -/
  | burstReq (k : Fin 8) (q : Fin 2) (tag : BitVec 16) (body : List Byte)
  /-- CAPS_REQ (R271). A flock states its uplink formats and block limit and receives CAPS. -/
  | capsReq (k : Fin 8) (q : Fin 2) (tag : BitVec 16) (body : List Byte)
  /-- QUEUE_LIMIT_EXPIRY (R29). A queued request's queue limit passes, and it is refused. The queue. -/
  | queueLimitExpiry (q : LimitQueue)
  /-- FLOCK_QUARANTINE_ON (R281). A flock's violations reach QUAR within 1 s. It is quarantined at the next slot boundary. -/
  | flockQuarantineOn (k : Fin 8)
  /-- FLOCK_QUARANTINE_OFF (R282). 1,000 ms pass without a violation, and quarantine ends at the next slot boundary. -/
  | flockQuarantineOff (k : Fin 8)
  /-- RELEASE_ALL (R278). FHP_FLOCK_CTRL.RELEASE_ALL ends every allocation of a flock with reason HOST. The word written to
  FHP_FLOCK_CTRL. -/
  | releaseAll (w : Word)
  /-- PTP_ANNOUNCE_RX (R295). An Announce is checked, foreign masters are qualified, and the BMCA runs. -/
  | ptpAnnounceRx (q : Fin 2) (m : List Byte)
  /-- PTP_SYNC_RX (R293). A Sync from a peer is timestamped and checked. Port, sixteenth of a tick of the ingress time, and
  the message. -/
  | ptpSyncRx (q : Fin 2) (fine : Fin 16) (m : List Byte)
  /-- PTP_FOLLOW_UP_RX (R293). A Follow_Up supplies the precise origin time of a two-step Sync. -/
  | ptpFollowUpRx (q : Fin 2) (m : List Byte)
  /-- DELAY_REQ_SEND (R293). Delay_Req is sent 16 times per second and its timestamp enters the TX queue. -/
  | delayReqSend (q : Fin 2) (fine : Fin 16)
  /-- DELAY_RESP_RX (R300). A Delay_Resp completes an exchange. Offset and delay are computed, and the servo runs. -/
  | delayRespRx (q : Fin 2) (m : List Byte)
  /-- FOLLOW_UP_TIMEOUT (R296). A two-step Sync lacks its Follow_Up within one interval, a NO_FOLLOW_UP violation. -/
  | followUpTimeout (q : Fin 2) (id : BitVec 64) (num : BitVec 16)
  /-- PEER_QUAR_RELEASE (R298). A quarantined PTP peer goes 10 s without a violation and is released. -/
  | peerQuarRelease (q : Fin 2) (id : BitVec 64) (num : BitVec 16)
  /-- TXTS_POP (R301). A write removes the head of a port's TX timestamp queue. -/
  | txtsPop (q : Fin 2)
  /-- CLEAR_OVF (R301). A write clears a TX timestamp queue's OVF bit. -/
  | clearOvf (q : Fin 2)
  /-- PPS_IN_EDGE (R306). A PPS_IN rising edge is stamped in TB0, and its offset from the second is stored. -/
  | ppsInEdge (fine : Fin 16)
  /-- HELLO (R310). A HELLO frame from a neighbour is evaluated for joining the stack. `side` is 0 for the upstream port FL0
  and 1 for the downstream port FL1; `b` is the frame after its sync with its check word. -/
  | hello (side : Fin 2) (b : List Byte)
  /-- HELLO_SEND (R310). Every 100 µs (1 s once joined) the device sends HELLO on each fold-link port. -/
  | helloSend (side : Fin 2)
  /-- TIME (R317). A TIME frame from upstream drives the TB2 exchange and lock, and may announce a step. `fine` and `mis` are
  sixteenths of a tick of the arrival and of the misalignment the port measured. -/
  | time (side : Fin 2) (fine mis : Fin 16) (b : List Byte)
  /-- ECHO (R317). An ECHO frame answers a TIME frame and gives the receive time T4. -/
  | echo (side : Fin 2) (fine : Fin 16) (b : List Byte)
  /-- DL_BLOCKS (R320). A downlink block-pair frame is weighted locally and passed downstream. -/
  | dlBlocks (side : Fin 2) (b : List Byte)
  /-- UL_SUMS (R321). An uplink partial-sum frame is added to the local sum, then sent upward or to the fronthaul. `adc` is
  the ADC samples of the interval as UL_SECTION_SEND has them, `m` what they are marked with. -/
  | ulSums (side : Fin 2) (b : List Byte) (adc : List (List Cplx)) (m : UlMarks)
  /-- STATUS (R324). A STATUS frame updates the bellwether's view of a member and is relayed upward. -/
  | status (side : Fin 2) (b : List Byte)
  /-- LANE (R248). A LANE frame reports a lane failure or coordinates a fold-link reserve engagement. -/
  | lane (side : Fin 2) (b : List Byte)
  /-- CONTROL_SKEIN (R324). A CONTROL SKEIN subtype writes a skein on the named device. -/
  | controlSkein (side : Fin 2) (b : List Byte)
  /-- CONTROL_SWAP (R324). A CONTROL SWAP subtype applies a swap at its start ball time under R170. -/
  | controlSwap (side : Fin 2) (b : List Byte)
  /-- CONTROL_BURST (R324). A CONTROL BURST subtype schedules a burst from the bellwether's schedule. -/
  | controlBurst (side : Fin 2) (b : List Byte)
  /-- CONTROL_SLOT (R324). A CONTROL SLOT subtype serves or ends a slot at its effective time. -/
  | controlSlot (side : Fin 2) (b : List Byte)
  /-- CONTROL_WARP (R324). A CONTROL WARP subtype stages words of a partial warp. -/
  | controlWarp (side : Fin 2) (b : List Byte)
  /-- CONTROL_COMMIT (R324). A CONTROL COMMIT subtype loads or abandons the staged partial warp. -/
  | controlCommit (side : Fin 2) (b : List Byte)
  /-- CONTROL_VOTE (R324). A CONTROL VOTE subtype carries a member's vote on a level change or reweave. -/
  | controlVote (side : Fin 2) (b : List Byte)
  /-- CONTROL_REPORT (R324). A CONTROL REPORT subtype reports a member's burst drop to the bellwether. -/
  | controlReport (side : Fin 2) (b : List Byte)
  /-- CONTROL_LEVEL (R324). A CONTROL LEVEL subtype relays a level change for a common boundary. -/
  | controlLevel (side : Fin 2) (b : List Byte)
  /-- CONTROL_ISOLATE (R326). A CONTROL ISOLATE subtype tells upstream devices of an isolation or detachment. -/
  | controlIsolate (side : Fin 2) (b : List Byte)
  /-- ARM (R334). ACQ_STREAM_CTRL.ARM tests a stream's configuration and arms, queues or refuses it. The stream, and whether
  the drover asks. -/
  | arm (st : Fin 4 × Bool)
  /-- DISARM (R343). ACQ_STREAM_CTRL.DISARM makes the stream IDLE, ending any open segment. Operand as ARM. -/
  | disarm (st : Fin 4 × Bool)
  /-- FORCE (R336). ACQ_STREAM_CTRL.FORCE triggers the stream at its next source sample. The next source sample. -/
  | force (st : Fin 4) (g : Grid)
  /-- TRIG_IN_EDGE (R336). A TRIG_IN edge is stamped and triggers the streams that select it. The edge, its TB3 time, and per
  stream a source sample of it. -/
  | trigInEdge (rising : Bool) (e : Nat × List Grid)
  /-- CAPTURE_TRIGGER (R339). A stream accepts a trigger. PRE_ACT is fixed, and post-trigger filling starts. A source sample
  of the stream, and the samples a level trigger watches. -/
  | captureTrigger (st : Fin 4) (h : Grid × Watch)
  /-- SEGMENT_END (R340). A segment's last post-trigger entry is written, its header follows, and hold-off starts. The source
  samples that filled the segment, and its marks. -/
  | segmentEnd (st : Fin 4) (samples : List Cplx) (k : SegMarks)
  /-- HOLDOFF_END (R340). Hold-off ends, and the stream re-arms within 320 ns. -/
  | holdoffEnd (st : Fin 4)
  /-- ACQ_MON_CFG_WRITE (R347). A monitor chain change restarts its stages, or is refused while the chain is in use. -/
  | acqMonCfgWrite (f : Fin 8) (w : Word)
  /-- DRAM_TRAINING_STEP_DONE (R359). A training step completes or fails. It is retried, or the memory becomes READY or
  FAILED. Whether the step passed. -/
  | dramTrainingStepDone (ok : Bool)
  /-- DQS_CHECK (R360). Every 100 ms the DQS oscillator is read and write delay corrected, and retraining may be flagged. The
  drift in 1/64 UI. -/
  | dqsCheck (drift : Int)
  /-- MR4_READ (R357). Every 1 ms the DRC reads MR4 and sets the refresh rate. MR4 as read, none when the read fails. -/
  | mr4Read (v : Option (Fin 8))
  /-- REFRESH_DUE (R356). tREFI expires, and a refresh is issued or owed. Whether an access waits that defers the refresh. -/
  | refreshDue (waiting : Bool)
  /-- NEIGHBOUR_REFRESH (R358). A selected activate's page closes, and neighbour rows are refreshed. Eight times the rank plus
  the bank, and the row. -/
  | neighbourRefresh (row : Fin 16 × Nat)
  /-- HOST_TRAIN_LOCK (R361). DRC_TRAIN_LOCK.HOST takes or releases the host training lock, or is refused. -/
  | hostTrainLock (on : Bool)
  /-- DRC_PAT_GO (R362). DRC_PAT_CTRL.GO runs a pattern write and compare under the host lock. -/
  | drcPatGo (w : Word)
  /-- PATTERN_DONE (R362). A pattern helper run ends with its error counts. The bits that the memory returns wrong, by byte of
  the run from `from_` on. -/
  | patternDone (noise : List Byte) (from_ : Nat)
  /-- DRC_FREQ_REQ (R363). A write of DRC_FREQ_REQ requests a DRAM rate change, accepted or refused. -/
  | drcFreqReq (rate : Fin 8)
  /-- FREQ_CHANGE_DONE (R364). The change through self-refresh completes, and FREQ_DONE asserts. MR4 as read, none when the
  read fails. -/
  | freqChangeDone (mr4 : Option (Fin 8))
  /-- START (R377). DMA_CH_CTRL.START clears offsets, counters and events and runs the channel from DMA_CH_START. -/
  | start (c : Fin 16)
  /-- ABORT (R377). DMA_CH_CTRL.ABORT drains reads in flight and makes the channel IDLE. -/
  | abort (c : Fin 16)
  /-- PAUSE (R376). DMA_CH_CTRL.PAUSE stops new reads and pauses the channel; clearing it resumes. -/
  | pause (c : Fin 16) (on : Bool)
  /-- DOORBELL (R375). A doorbell on an ENDED channel fetches its END slot again. -/
  | doorbell (c : Fin 16)
  /-- DMA_PROGRAM_WRITE (R375). Host software writes a program slot, applied after any fetch in progress. -/
  | dmaProgramWrite (n : Fin 512) (i : Fin 8) (w : Word)
  /-- MOVE (R370). A MOVE instruction is checked and copies rows through the funnel. -/
  | move (c : Fin 16)
  /-- LOOP (R373). A LOOP instruction counts, advances offsets and jumps. -/
  | loop (c : Fin 16)
  /-- WAIT (R373). A WAIT instruction delays, waits for an event or polls a register. -/
  | wait (c : Fin 16)
  /-- WAIT_TIMEOUT (R373). An EVENT or POLL wait reaches TIMEOUT, and the channel faults. -/
  | waitTimeout (c : Fin 16)
  /-- SIGNAL (R374). A SIGNAL instruction verifies writes, then writes CODE, raises IRQ or posts its event. `noise` is the
  bits that the read-back returns wrong. -/
  | signal (c : Fin 16) (noise : Word)
  /-- END (R374). An END instruction verifies writes, and the channel becomes ENDED with DONE. `noise` is the bits that the
  read-back returns wrong. -/
  | end_ (c : Fin 16) (noise : Word)
  /-- HKA_CONVERSION_DONE (R380). A housekeeping conversion completes. Its result is stored, maybe queued, and supervised. The
  code and whether the input is over range. -/
  | hkaConversionDone (code : BitVec 16) (past : Bool)
  /-- HKA_URGENT (R383). An urgent conversion request aborts the running conversion and converts its channel. -/
  | hkaUrgent (w : Word)
  /-- BDA_LOAD (R388). BDA_LOAD.GO loads groups immediately, or arms a timed load. -/
  | bdaLoad (w : Word)
  /-- TIMED_BIAS_LOAD (R388). At its air time a pending timed load copies the input registers of its groups. -/
  | timedBiasLoad (g : Fin 9)
  /-- BDA_CODE_WRITE (R388). A write of BDA_CODE updates the input register, and loads it when WRITE_THROUGH is set. -/
  | bdaCodeWrite (n : Fin 72) (code : BitVec 16)
  /-- BDA_OUT_CLEAR (R392). BDA_OUT_CTRL.CLEAR clears one output's fault latch. -/
  | bdaOutClear (n : Fin 72)
  /-- THERMAL_SAMPLE (R400). A zone sample is taken at 1 or 16 kHz. Sensors are checked and voted, and stages and shutdown are
  judged. Zone and the raw codes of its sensors, none for one that does not answer. -/
  | thermalSample (z : Fin 12) (raws : List (Option Int))
  /-- THROTTLE_STAGE_FALL (R403). A zone has been 5 °C below its threshold for 1 s and falls one stage. -/
  | throttleStageFall (z : Fin 12)
  /-- STORE_WRITE_DONE (R417). A store record write completes with its SEQ written last, or fails with STORE. The rows that
  failed verification, each with the reserve rows that failed after it. -/
  | storeWriteDone (fails : List (Fin 4096 × Fin 65))
  /-- NVS_REC_DATA_WRITE (R443). A word is staged into the 512-word record buffer. -/
  | nvsRecDataWrite (w : Word)
  /-- NVS_REC_WRITE (R423). NVS_REC_CTRL.WRITE checks and writes a system record, or refuses it. TYPE of NVS_REC_CTRL. -/
  | nvsRecWrite (type : Byte)
  /-- NVS_DATA_ACCESS (R415). An access to NVS_DATA reads or writes a store word and increments NVS_ADDR. A write of a word or
  a read; for a write the failing of its row, with the reserve rows that failed after it. -/
  | nvsDataAccess (write : Option Word) (fails : Option Nat)
  /-- NVS_CAL_REQ (R433). Host software requests a calibration for groups, which is queued, merged or refused. -/
  | nvsCalReq (w : Word)
  /-- CAL_DONE (R428). A calibration ends. Results are kept or discarded, and path records are written. What was measured on
  each path. -/
  | calDone (ms : List CalMeas)
  /-- DROVER_CAL_REQUEST (R435). The drover requests calibrations after a 10 °C move, every 3,600 s, or after an LO change. -/
  | droverCalRequest (why : CalWhy)
  /-- DPD_RECORD_WRITE (R436). After UPDATED, at most once per 60 s, the drover writes a path's predistortion record. -/
  | dpdRecordWrite (p : Fin 64)
  /-- POWERUP_CALIBRATION (R432). At stage 3 entry, power-up calibration runs every calibration in the order of Table 16-10.
  What fails in it, and the measurements of each calibration. -/
  | powerupCalibration (fails : PowerUpFails) (ms : List (Nat × List CalMeas))
  /-- WRITE_INCR (R439). An SPI WRITE_INCR frame writes words at ascending addresses, applied after SPI_CS_N rises. `b` is
  MOSI after the OPCODE; `badOp` is an OPCODE Table 17-1 does not have. -/
  | writeIncr (badOp : Option Byte) (b : List Byte)
  /-- WRITE_FIXED (R439). An SPI WRITE_FIXED frame writes every word to one address. `b` is MOSI after the OPCODE. -/
  | writeFixed (b : List Byte)
  /-- READ_INCR (R439). An SPI READ_INCR frame reads words at ascending addresses after the dummy bytes. `b` is the address
  bytes, `n` the bytes clocked after them, `late` the words not ready by their first bit. -/
  | readIncr (b : List Byte) (n : Nat) (late : List Nat)
  /-- READ_FIXED (R439). An SPI READ_FIXED frame reads one address repeatedly. Operands as READ_INCR. -/
  | readFixed (b : List Byte) (n : Nat) (late : List Nat)
  /-- REGISTER_WRITE (R10). A write to a register with no row of its own stores, clears W1C bits or is ignored under its
  access code. -/
  | registerWrite (a : BitVec 32) (w : Word)
  /-- RC_REGISTER_READ (R10). A read of an RC register returns its value and then clears it. -/
  | rcRegisterRead (a : BitVec 32)
  /-- FLASH_VERIFY (R448). GLB_FLASH_CTRL VERIFY checks an image slot without running it. -/
  | flashVerify (slot : Fin 2)
  /-- GLB_DBG_DATA_WRITE (R443). A word is staged into the 36-word debug unlock buffer. -/
  | glbDbgDataWrite (w : Word)
  /-- ADC_CORRECTION_ESTIMATE (R115). The background interleave estimator completes its estimate over 2^20 ADC samples and
  updates offset, gain and skew corrections; a correction beyond ±96 LSB, ±4 % or ±3.5 ps fails the sub-converter.
  Sub-converter, offset in LSB, gain in 0.01 %, skew in steps of 0.05 ps. -/
  | adcCorrectionEstimate (p : Fin 64) (q : Bool) (sub : Fin 9) (offset gain skew : Int)
  /-- TUNING_VOLTAGE_LIMIT (R146). An RF unit's tuning voltage drifts past ±80 % of range, which sets NEED_CAL and queues a
  VCO calibration, or past ±90 % in every band, which fails the unit. Unit, tuning voltage in % of range, and whether every
  band has reached 90 %. -/
  | tuningVoltageLimit (u : Fin 3) (v : Int) (everyBand : Bool)
  /-- WAIT_DELAY_EXPIRY (R373). A DMA WAIT with COND DELAY reaches its count of TB1 microseconds, and the channel continues at
  the next slot. -/
  | waitDelayExpiry (c : Fin 16)
  /-- WAIT_POLL_READ (R373). Every 1 µs a channel in a POLL wait reads its register and resumes when the value under MASK
  equals VALUE. -/
  | waitPollRead (c : Fin 16)
  /-- UL_PAIR_SEND (R321). On the last joined device of a stack, an uplink block pair interval completes, and its own sum is
  compressed and sent upward as UL_SUMS. Carrier, ball time of the first sample, the ADC samples as UL_SECTION_SEND has them,
  and their marks. -/
  | ulPairSend (c : Fin 4) (start : Nat) (adc : List (List Cplx)) (m : UlMarks)
  /-- HOP_TIME_MISSED (R325). A needed DL_BLOCKS pair or a UL_SUMS pair has not arrived by its hop time, so it is substituted
  and counted as LATE_DL or LATE_SUM. The pair, and whether a frame of it was dropped under another class. -/
  | hopTimeMissed (x : MissedPair) (dropped : Bool)
  /-- VSEN_RISE (R35). VSEN rises through 2.6 V. The device enters Sentinel, applies safe bias, copies the Sentinel states and
  rebuilds the store remapping. -/
  | vsenRise
  /-- VSEN_FALL (R40). VSEN falls below 2.5 V. The device becomes Off, and the always-on registers and the shutdown latch are
  lost. -/
  | vsenFall
  /-- XTAL_OK (R40). The 32.768 kHz crystal oscillates stably within 500 ms. The always-on domain changes to it without a
  glitch and sets XTAL_OK. -/
  | xtalOk
  /-- RST_N_ASSERT (R41). RST_N held low for at least 1 µs takes the device to stage 0 by rollback, without a WAKE_FAIL
  record. -/
  | rstNAssert
  /-- RST_N_RELEASE (R41). RST_N rises, and wake sources are latched again. -/
  | rstNRelease
  /-- WAKE_N_LOW (R65). WAKE_N has been low for 10 µs, which is an enabled wake source. -/
  | wakeNLow
  /-- AON_TIMER_ALARM (R65). PWR_AON_TIMER reaches PWR_AON_ALARM, which is a wake source. -/
  | aonTimerAlarm
  /-- SPI_CHIP_SELECT_WAKE (R65). A chip-select assertion on the SPI port wakes the device from Doze or Sentinel. -/
  | spiChipSelectWake
  /-- THERMAL_WAKE_CROSSING (R65). The coarse junction comparator crosses the LOW or HIGH wake threshold. -/
  | thermalWakeCrossing
  /-- REF_CHECK_TIMEOUT (R43). REF_A is not verified within 20 ms, so REF_B is checked. If neither is verified, start fails
  with NO_REF. -/
  | refCheckTimeout
  /-- FIRMWARE_IMAGE_VERIFIED (R44). The boot ROM finishes reading and verifying an image slot. It starts the firmware or
  tries the next slot. -/
  | firmwareImageVerified
  /-- LINK_WAIT_EXPIRY (R44). LINK_WAIT passes after the signature check without a fronthaul port in L0, and start fails with
  NO_LINK. -/
  | linkWaitExpiry
  /-- STAGE_CLIMB (R35). The conditions of the next stage are met. The device enters that stage, unless HOLD_STAGE holds it.
  -/
  | stageClimb
  /-- STAGE4_ENTRY (R47). TB0 is locked and RELEASE = 1 with no full warp load running, so the device enters Service-capable
  stage 4. -/
  | stage4Entry
  /-- CLIMB (R46). A write of PWR_STAGE_CTRL.CLIMB = 1 resumes a held climb. -/
  | climb
  /-- GOTO_SAFE (R48). A write of PWR_STAGE_CTRL.GOTO_SAFE in Idle runs the sleep sequence through step 12 and holds the
  device at stage 1. In any other state it is refused. -/
  | gotoSafe
  /-- STAGE4_EXIT_COMPLETE (R47). The last TX chain is muted after RELEASE was cleared, and the device enters stage 3. -/
  | stage4ExitComplete
  /-- LEVEL_CHANGE_POINT (R58). At the next whole millisecond the new cadence takes effect, or a refused change restores the
  old one. -/
  | levelChangePoint
  /-- VTRIM_STEP_DOWN (R57). The margin has stayed at or above 12 % for 100 ms with trim above zero, so VCORE is requested one
  step down. -/
  | vtrimStepDown
  /-- CADENCE_SLIP (R20). A sample has not reached its output buffer by its release time. A zero is substituted and the slip
  is counted, logged and raised. -/
  | cadenceSlip
  /-- PWR_STATE_REQ_DOZE (R61). A request for Doze runs sleep steps 1 to 10, or is answered at once under R482. -/
  | pwrStateReqDoze
  /-- PWR_STATE_REQ_SENTINEL (R61). A request for Sentinel runs sleep steps 1 to 13, or 11 to 13 from Doze or below stage 3.
  -/
  | pwrStateReqSentinel
  /-- AUTO_DOZE (R64). IDLE_S seconds pass in Idle with no flock allocation, and the drover requests Doze. -/
  | autoDoze
  /-- PWR_AON_WAKE_FAIL_CLEAR (R52). Writing VALID = 1 clears the failure record, CONSEC and ALERT_N. -/
  | pwrAonWakeFailClear
  /-- WRP_LOAD (R88). WRP_CTRL.LOAD starts a full or partial warp load through verify, licence and place, or refuses it. -/
  | wrpLoad
  /-- WRP_ABORT (R91). WRP_CTRL.ABORT refuses a load with ABORTED before its commit phase, freeing any placed fibres. -/
  | wrpAbort
  /-- WRP_CLEAR (R481). WRP_CTRL.CLEAR empties the warp staging buffer. -/
  | wrpClear
  /-- QSPI_WARP_LOAD (R45). At stage 2 with WARP_SRC = 0 the device reads the warp from QSPI and loads it. -/
  | qspiWarpLoad
  /-- SPINDLES_LOADED (R91). New work items finish loading into their spindles, the end of PHASE 5. A full warp commits, or a
  partial warp awaits its switch. -/
  | spindlesLoaded
  /-- REWEAVE_SWITCH (R94). At the first slot boundary two slots after loading, a partial reweave switches layer slots. -/
  | reweaveSwitch
  /-- WEAVER_JOB_START (R95). The weaver starts its next queued job once the running one ends. -/
  | weaverJobStart
  /-- RESERVE_HANDOVER (R96). At a slot boundary the work moves to the reserve spindle, and the failed spindle is retired. -/
  | reserveHandover
  /-- FALLBACK_CONVERSION (R97). With no reserve left, a layer item converts to fall-back at a slot boundary, freeing 42
  fibres. -/
  | fallbackConversion
  /-- REF_LOST (R134). No edge of the active reference arrives for 64 ns. The PLL enters holdover and may switch over. -/
  | refLost
  /-- HOLDOVER_EXPIRY (R142). HOLD_MS passes in holdover, and the converter clock is declared lost. -/
  | holdoverExpiry
  /-- CNV_LOSS_OF_LOCK (R142). The converter-clock PLL loses lock, and both LO roles become invalid. -/
  | cnvLossOfLock
  /-- RESUME_CNV (R142). SYN_CTRL.RESUME_CNV arms resumption of a latched converter clock. -/
  | resumeCnv
  /-- SKN_REPORT_POP (R173). A write removes the head of the host swap report queue. -/
  | sknReportPop
  /-- SOLVE_START (R194). The solver takes the next due path from its queue. -/
  | solveStart
  /-- SURVEY_ABORT (R200). A wake, T2, loss of lock or fall below stage 4 aborts the survey. -/
  | surveyAbort
  /-- RAD_REPORT_POP (R213). A write removes the head of the host burst report queue. -/
  | radReportPop
  /-- PASTURE_WRITE (R222). NVS_PAST_CTRL.WRITE checks the staged pasture record and commits it to the store, or refuses it.
  -/
  | pastureWrite
  /-- PASTURE_CLEAR (R481). NVS_PAST_CTRL.CLEAR empties the pasture staging buffer. -/
  | pastureClear
  /-- ARBITRATION_EPOCH_END (R26). An epoch of 62.5 µs ends, and all its requests are decided together. -/
  | arbitrationEpochEnd
  /-- SLOT_EFFECTIVE_TIME (R276). At a slot boundary served slots start and preempted or released slots end. -/
  | slotEffectiveTime
  /-- DEFER_WINDOW_EXPIRY (R275). A deferred request's window passes, and it is refused for CAPACITY. -/
  | deferWindowExpiry
  /-- SYNC_TIMEOUT (R286). No Sync from the parent for 250 ms, and TB0 leaves LOCKED. -/
  | syncTimeout
  /-- ANNOUNCE_TIMEOUT (R286). No Announce from the parent for 375 ms, and TB0 leaves LOCKED. -/
  | announceTimeout
  /-- HOLD_S_EXPIRY (R286). HOLD_S seconds in HOLDOVER pass, and TB0 enters FREERUN. -/
  | holdSExpiry
  /-- REARM (R291). TIM_CTRL.REARM takes TB0 to ACQUIRING, drops and cuts bursts, and permits one step. -/
  | rearm
  /-- SNAPSHOT (R285). TIM_CTRL.SNAPSHOT latches all four time bases at one tick. -/
  | snapshot
  /-- TB3_DECOUPLE (R305). TB3 stops absorbing TB0 steps. -/
  | tb3Decouple
  /-- TB3_RECOUPLE (R305). TB3 is set to TB0 at one tick, and TB3_JUMP asserts. -/
  | tb3Recouple
  /-- TIME_SEND (R312). At each TB2 epoch boundary the upstream device sends TIME downstream. -/
  | timeSend
  /-- VOTE_TIMEOUT (R324). A vote is missing after 20 ms, and the stacked change is abandoned. -/
  | voteTimeout
  /-- TB2_TIMEOUT (R317). 250 µs (5 ms during a lane swap) pass without a TIME frame, so TB2 is lost and the device detaches.
  -/
  | tb2Timeout
  /-- STACK_STEP (R318). At STEP_AT the bellwether and joined members step TB0 and TB2 at one tick. -/
  | stackStep
  /-- ISOLATE_DOWN (R326). CAS_CTRL.ISOLATE_DOWN isolates the downstream neighbour. -/
  | isolateDown
  /-- REJOIN (R327). CAS_CTRL.REJOIN permits isolated devices to join again. -/
  | rejoin
  /-- DRAM_TRAINING_START (R359). The drover starts training the memory after the firmware starts at stage 2. -/
  | dramTrainingStart
  /-- DRC_RETRAIN (R359). DRC_TRAIN_LOCK.RETRAIN retrains a FAILED memory. -/
  | drcRetrain
  /-- SCAN (R381). HKA_TRIG.SCAN starts a host-list pass or holds it pending. -/
  | scan
  /-- HKA_TIMER_TICK (R381). The HKA timer triggers a host-list pass every PERIOD_US. -/
  | hkaTimerTick
  /-- HKA_QUEUE_POP (R384). A write removes the head of the housekeeping result queue. -/
  | hkaQueuePop
  /-- RELEASE_SAFE (R393). BDA_CTRL.RELEASE_SAFE releases global safe bias, loading every enabled non-faulted output. -/
  | releaseSafe
  /-- CLEAR_ALL_FAULTS (R392). BDA_CTRL.CLEAR_ALL_FAULTS clears every bias fault latch. -/
  | clearAllFaults
  /-- TL_UPDATE (R405). Each second at T2, TL rises or falls and THROTTLE notices are sent. -/
  | tlUpdate
  /-- COARSE_COMPARATOR_135 (R406). The always-on coarse comparator passes 135 °C, which triggers shutdown. -/
  | coarseComparator135
  /-- NVS_REC_CLEAR (R481). NVS_REC_CTRL.CLEAR empties the record staging buffer. -/
  | nvsRecClear
  /-- CAL_INTERVAL_START (R434). A gap, or FORCE within 100 µs, starts a calibration interval with its groups in CAL. -/
  | calIntervalStart
  /-- NVS_CAL_WAIT_LONG (R434). A calibration request has waited 10 s, so CAL_WAIT_LONG asserts. -/
  | nvsCalWaitLong
  /-- FLASH_READ (R448). GLB_FLASH_CTRL READ copies 256 flash bytes to the buffer. -/
  | flashRead
  /-- FLASH_PROGRAM (R448). GLB_FLASH_CTRL PROGRAM writes the buffer to one flash page. -/
  | flashProgram
  /-- FLASH_ERASE (R448). GLB_FLASH_CTRL ERASE clears one 64 KiB flash sector. -/
  | flashErase
  /-- FLASH_OP_DONE (R448). A flash operation ends, and FLASH_DONE asserts. -/
  | flashOpDone
  /-- UNLOCK (R456). GLB_DBG_CTRL.UNLOCK checks the signed challenge and unlocks JTAG, or refuses. -/
  | unlock
  /-- DBG_CLEAR (R481). GLB_DBG_CTRL.CLEAR empties the debug staging buffer. -/
  | dbgClear
  /-- WATCHDOG_EXPIRY (R452). The drover watchdog expires. Safe bias is applied, RELEASE cleared, WDOG raised and the drover
  restarted. -/
  | watchdogExpiry
  /-- FREQ_LOCK_TIMEOUT (R364). An accepted DRAM frequency change has not been granted the training lock within 10 ms and is
  refused with LOCK_TIMEOUT. -/
  | freqLockTimeout
  /-- PPS_OUT (R306). At each whole second of TB0, while PPS_EN = 1 and TB0 is locked, PPS_OUT rises and is held high for
  PPS_WIDTH µs. -/
  | ppsOut
  /-- TICK_OUT (R306). At each boundary selected by TICK_DIV, while TICK_EN = 1 and TB0 is locked, TICK_OUT rises for 1 µs. -/
  | tickOut
  /-- SECTION_RELEASE (R265). At its deadline an on-time downlink section held in the ingress store is released into the
  fabric, and on a bellwether its blocks go out as DL_BLOCKS. -/
  | sectionRelease
  deriving DecidableEq, Repr, Inhabited

end Sys2Proof
end

