-- ==== Sys2Proof/Machine/Arith.lean ====
section
/-!
DEFINITION. Bit fields, signed ranges, rounding, saturation, byte order, check words and the fixed-point
functions the rules of the spec are stated with.
-/

namespace Sys2Proof.Machine

/-! ### Fields of words (R6) -/

/-- The field [hi:lo] of a word, as a number. -/
def fld (w : Word) (hi lo : Nat) : Nat := (w.toNat / 2 ^ lo) % 2 ^ (hi + 1 - lo)

/-- Bit `i` of a word. -/
def bitOf (w : Word) (i : Nat) : Bool := w.getLsbD i

/-- The word `w` with the field [hi:lo] replaced by `v`, cut to the field's width. -/
def put (w : Word) (hi lo v : Nat) : Word :=
  BitVec.ofNat 32 (w.toNat - fld w hi lo * 2 ^ lo + (v % 2 ^ (hi + 1 - lo)) * 2 ^ lo)

/-- A word from (low bit, value) pairs; the values must not overlap. -/
def pk (l : List (Nat × Nat)) : Word := BitVec.ofNat 32 (l.foldl (fun a x => a + x.2 * 2 ^ x.1) 0)

/-- A flag as a bit. -/
def b2n (b : Bool) : Nat := if b then 1 else 0

/-- A number from flags: bit `i` is `f i`, for `i < n`. -/
def bitsOf (n : Nat) (f : Nat → Bool) : Nat :=
  match n with
  | 0 => 0
  | n + 1 => bitsOf n f + (if f n then 2 ^ n else 0)

/-- Bit `i` of a number. -/
def nbit (n i : Nat) : Bool := n / 2 ^ i % 2 == 1

/-- A number of `b` bits read as two's complement. -/
def toS (b : Nat) (n : Nat) : Int := if n % 2 ^ b < 2 ^ (b - 1) then (n % 2 ^ b : Nat) else (n % 2 ^ b : Nat) - (2 ^ b : Nat)

/-- An integer as `b` bits of two's complement. -/
def ofS (b : Nat) (x : Int) : Nat := (x % (2 ^ b : Nat)).toNat

/-- Saturate to the range of `b` bits of two's complement. -/
def satS (b : Nat) (x : Int) : Int :=
  if x > (2 ^ (b - 1) : Nat) - 1 then (2 ^ (b - 1) : Nat) - 1
  else if x < -((2 ^ (b - 1) : Nat) : Int) then -((2 ^ (b - 1) : Nat) : Int) else x

/-- The value does not fit `b` bits of two's complement. -/
def overS (b : Nat) (x : Int) : Bool := decide (satS b x ≠ x)

/-- Clamp an integer to a range. -/
def clampI (lo hi x : Int) : Int := if x < lo then lo else if x > hi then hi else x

/-- Clamp a number to a range. -/
def clampN (lo hi x : Nat) : Nat := if x < lo then lo else if x > hi then hi else x

/-- Add with saturation at `m`: a counter saturates and does not wrap (R7). -/
def satAdd (m x n : Nat) : Nat := min m (x + n)

/-! ### Rounding -/

/-- Divide by a positive number, ties to even (convergent rounding). -/
def divEven (x : Int) (d : Nat) : Int :=
  let q := x / (d : Int)
  let r := x % (d : Int)
  if 2 * r > d then q + 1 else if 2 * r = d then (if q % 2 = 0 then q else q + 1) else q

/-- Divide by 2^n, ties to even. -/
def shrEven (x : Int) (n : Nat) : Int := divEven x (2 ^ n)

/-- Divide a number, rounded to nearest with halves up. -/
def divNear (x d : Nat) : Nat := (2 * x + d) / (2 * d)

/-- Divide a number, rounded up. -/
def divUp (x d : Nat) : Nat := (x + d - 1) / d

/-- Multiply by a power of two of either sign, ties to even. -/
def scaleEven (x : Int) (n : Int) : Int :=
  if n ≥ 0 then x * (2 ^ n.toNat : Nat) else shrEven x (-n).toNat

/-- Floor of the square root, by bisection from bit `n` down. -/
def isqrtAux : Nat → Nat → Nat → Nat
  | 0, _, r => r
  | n + 1, x, r => let c := r + 2 ^ n; isqrtAux n x (if c * c ≤ x then c else r)

/-- Floor of the square root of a number below 2^256. -/
def isqrt (x : Nat) : Nat := isqrtAux 128 x 0

/-- The magnitude of a sample: |x| in units of 2^−23, rounded convergently and saturated (R183). -/
def magIndex (x : Int × Int) : Nat :=
  let y := (x.1 * x.1 + x.2 * x.2).toNat
  let r := isqrt y
  min (2 ^ 23) (if 4 * y > (2 * r + 1) ^ 2 then r + 1 else r)

/-! ### Byte order (R6) -/

/-- A number from bytes, least significant first. -/
def leNat : List Byte → Nat
  | [] => 0
  | b :: bs => b.toNat + 256 * leNat bs

/-- A number from bytes, most significant first. -/
def beNat (bs : List Byte) : Nat := leNat bs.reverse

/-- `n` bytes of a number, least significant first. -/
def leBytes : Nat → Nat → List Byte
  | 0, _ => []
  | n + 1, x => BitVec.ofNat 8 x :: leBytes n (x / 256)

/-- `n` bytes of a number, most significant first. -/
def beBytes (n x : Nat) : List Byte := (leBytes n x).reverse

/-- `n` bytes of a byte list from offset `o`; bytes past the end read 0. -/
def slice (bs : List Byte) (o n : Nat) : List Byte := ((bs.drop o).take n) ++ List.replicate (n - ((bs.drop o).take n).length) 0

/-- Little-endian field of a byte list. -/
def le (bs : List Byte) (o n : Nat) : Nat := leNat (slice bs o n)

/-- Big-endian field of a byte list. -/
def be (bs : List Byte) (o n : Nat) : Nat := beNat (slice bs o n)

/-- Byte `o` of a byte list, as a number. -/
def byteAt (bs : List Byte) (o : Nat) : Nat := ((bs[o]?).getD 0).toNat

/-- The bytes of words, each least significant byte first. -/
def wordBytes (ws : List Word) : List Byte := ws.flatMap (fun w => leBytes 4 w.toNat)

/-- Every byte of the range is 0. -/
def zeros (bs : List Byte) (o n : Nat) : Bool := (slice bs o n).all (· == 0)

/-! ### Check words -/

/-- One bit of a reflected 32-bit CRC. -/
def crc32Bit (poly : BitVec 32) (c : BitVec 32) : BitVec 32 :=
  if c.getLsbD 0 then (c >>> 1) ^^^ poly else c >>> 1

/-- Repeat a function. -/
def iter {α : Type} (f : α → α) : Nat → α → α
  | 0, x => x
  | n + 1, x => iter f n (f x)

/-- CRC-32C of a byte string: Castagnoli polynomial 0x1EDC_6F41, reflected, initial value and final XOR all
ones (R71). -/
def crc32c (bs : List Byte) : Nat :=
  ((bs.foldl (fun c b => iter (crc32Bit 0x82F63B78) 8 (c ^^^ b.zeroExtend 32)) (0xFFFFFFFF : BitVec 32))
    ^^^ 0xFFFFFFFF).toNat

/-- CRC-8 with polynomial 0x07 and initial value 0x00 (R67). -/
def crc8 (bs : List Byte) : Nat :=
  (bs.foldl (fun c b => iter (fun (x : Byte) => if x.getLsbD 7 then (x <<< 1) ^^^ 7 else x <<< 1) 8 (c ^^^ b)) (0 : Byte)).toNat

/-! ### Fixed-point functions, scaled by 2^96 -/

/-- The scale of the fixed-point functions. -/
def fxOne : Int := (2 ^ 96 : Nat)

/-- The sum of the exponential series of `x`, from the term `t` of index `k` on. -/
def expSeries : Nat → Nat → Int → Int → Int
  | 0, _, _, _ => 0
  | n + 1, k, x, t => t + expSeries n (k + 1) x (t * x / ((k + 1 : Nat) * fxOne))

/-- e^x of a fixed-point number of magnitude up to about 20. -/
def expFx (x : Int) : Int := expSeries 120 0 x fxOne

/-- 10^(n/d) of integers, fixed-point. -/
def pow10Fx (n : Int) (d : Nat) : Int := expFx (n * 182429585950654714090129938606 / (d : Int))

/-- The cosine series of `x` with `y` = x², from the term `t` of index `k` on. -/
def cosSeries : Nat → Nat → Int → Int → Int
  | 0, _, _, _ => 0
  | n + 1, k, y, t => t + cosSeries n (k + 2) y (-(t * y / fxOne) / ((k + 1 : Nat) * (k + 2 : Nat) : Int))

/-- cos(π·n/d) of integers with |n| ≤ 2d, fixed-point. -/
def cosPiFx (n : Int) (d : Nat) : Int :=
  let x := n * 248902613312231085230521944622 / (d : Int)
  cosSeries 40 0 (x * x / fxOne) fxOne

/-- The digits of a base-2 logarithm of `x` in [1, 2), fixed-point. -/
def log2Digits : Nat → Int → Int → Int
  | 0, _, a => a
  | n + 1, x, a =>
    let y := x * x / fxOne
    if y ≥ 2 * fxOne then log2Digits n (y / 2) (a + (2 ^ n : Nat)) else log2Digits n y a

/-- log2(x) of a positive number, in units of 2^−64. -/
def log2Fx (x : Nat) : Int :=
  let k := Nat.log2 x
  (k : Int) * (2 ^ 64 : Nat) + log2Digits 64 ((x : Int) * fxOne / (2 ^ k : Nat)) 0

/-- 1,000·log10(x) of a positive number rounded to nearest: decibels in units of 0.01 dB of a power ratio. -/
def centiBel (x : Nat) : Int :=
  divEven (log2Fx x * 1000 * 23850053418134191015272426710) (2 ^ 160)

/-- 1,000·log10(n/d) of positive numbers rounded to nearest: a power ratio in 0.01 dB. -/
def centiBelRatio (n d : Nat) : Int :=
  divEven ((log2Fx n - log2Fx d) * 1000 * 23850053418134191015272426710) (2 ^ 160)

end Sys2Proof.Machine
end

