-- ==== Sys2Proof/Machine/Crypto.lean ====
section
/-!
DEFINITION. SHA-256 and ECDSA P-256 verification, which R73 names for warps, firmware images, pasture records
and the debug unlock. PRESUMED: the two algorithms and the curve are those of FIPS 180-4 and FIPS 186-4, which the
spec names and does not restate (log entry 6).
-/

namespace Sys2Proof.Machine

/-- The greatest number whose `e`-th power is at most `x`, by bisection from bit `n` down. -/
def rootFloor (e x : Nat) : Nat → Nat → Nat
  | 0, r => r
  | n + 1, r => rootFloor e x n (if (r + 2 ^ n) ^ e ≤ x then r + 2 ^ n else r)

/-- The primes from 2 on: the numbers below 312 without a proper divisor. -/
def smallPrimes : List Nat :=
  (List.range 312).filter (fun p => decide (2 ≤ p) && (List.range (isqrt p + 1)).all (fun d => decide (d < 2) || p % d != 0))

/-- The first 32 bits of the fraction of the `e`-th root of a prime, the source of every constant of SHA-256. -/
def rootFraction (e p : Nat) : BitVec 32 := BitVec.ofNat 32 (rootFloor e (p * 2 ^ (32 * e)) 40 0)

/-- The round constants of SHA-256: the cube roots of the first 64 primes. -/
def shaConstants : List (BitVec 32) := smallPrimes.map (rootFraction 3)

/-- The initial hash value of SHA-256: the square roots of the first 8 primes. -/
def shaStart : List (BitVec 32) := (smallPrimes.take 8).map (rootFraction 2)

/-- Extend the message schedule by `n` words; the newest word stands first. -/
def shaExtend : Nat → List (BitVec 32) → List (BitVec 32)
  | 0, w => w
  | n + 1, w =>
    let g := fun (i : Nat) => (w[i]?).getD (0 : BitVec 32)
    let a := g 14
    let b := g 1
    let s0 := a.rotateRight 7 ^^^ a.rotateRight 18 ^^^ (a >>> 3)
    let s1 := b.rotateRight 17 ^^^ b.rotateRight 19 ^^^ (b >>> 10)
    shaExtend n ((g 15 + s0 + g 6 + s1) :: w)

/-- One round of the compression function on the eight working words. -/
def shaRound (v : List (BitVec 32)) (kw : BitVec 32 × BitVec 32) : List (BitVec 32) :=
  match v with
  | [a, b, c, d, e, f, g, h] =>
    let s1 := e.rotateRight 6 ^^^ e.rotateRight 11 ^^^ e.rotateRight 25
    let ch := (e &&& f) ^^^ (~~~e &&& g)
    let t1 := h + s1 + ch + kw.1 + kw.2
    let s0 := a.rotateRight 2 ^^^ a.rotateRight 13 ^^^ a.rotateRight 22
    let mj := (a &&& b) ^^^ (a &&& c) ^^^ (b &&& c)
    [t1 + s0 + mj, a, b, c, d + t1, e, f, g]
  | v => v

/-- Compress one 64-byte block into the hash value. -/
def shaBlock (h : List (BitVec 32)) (blk : List Byte) : List (BitVec 32) :=
  let w0 := (List.range 16).map (fun i => BitVec.ofNat 32 (be blk (4 * i) 4))
  let w := (shaExtend 48 w0.reverse).reverse
  List.zipWith (· + ·) h ((shaConstants.zip w).foldl shaRound h)

/-- Hash `n` blocks. -/
def shaBlocks : Nat → List (BitVec 32) → List Byte → List (BitVec 32)
  | 0, h, _ => h
  | n + 1, h, bs => shaBlocks n (shaBlock h (bs.take 64)) (bs.drop 64)

/-- The SHA-256 digest of a byte string, 32 bytes. -/
def sha256 (msg : List Byte) : List Byte :=
  let l := msg.length
  let padded := msg ++ (0x80 : Byte) :: List.replicate ((119 - l % 64) % 64) 0 ++ beBytes 8 (8 * l)
  (shaBlocks (padded.length / 64) shaStart padded).flatMap (fun w => beBytes 4 w.toNat)

/-! ### The curve P-256 -/

/-- The field prime. -/
def p256P : Nat := 0xffffffff00000001000000000000000000000000ffffffffffffffffffffffff
/-- The group order. -/
def p256N : Nat := 0xffffffff00000000ffffffffffffffffbce6faada7179e84f3b9cac2fc632551
/-- The coefficient b of the curve. -/
def p256B : Nat := 0x5ac635d8aa3a93e7b3ebbd55769886bc651d06b0cc53b0f63bce3c3e27d2604b
/-- The base point. -/
def p256G : Nat × Nat :=
  (0x6b17d1f2e12c4247f8bce6e563a440f277037d812deb33a0f4a13945d898c296,
   0x4fe342e2fe1a7f9b8ee7eb4a7c0f9e162bce33576b315ececbb6406837bf51f5)

/-- b^e mod m, with the low `n` bits of e. -/
def powMod (m : Nat) : Nat → Nat → Nat → Nat
  | 0, _, _ => 1 % m
  | n + 1, b, e => (if e % 2 = 1 then b else 1) * powMod m n (b * b % m) (e / 2) % m

/-- Inverse modulo a prime. -/
def invMod (m a : Nat) : Nat := powMod m 256 (a % m) (m - 2)

/-- Add two points of the curve; none is the point at infinity. -/
def ecAdd (p q : Option (Nat × Nat)) : Option (Nat × Nat) :=
  match p, q with
  | none, q => q
  | p, none => p
  | some (x1, y1), some (x2, y2) =>
    if x1 = x2 ∧ (y1 + y2) % p256P = 0 then none
    else
      let l := if x1 = x2 then (3 * x1 * x1 + p256P - 3) * invMod p256P (2 * y1) % p256P
        else (y2 + p256P - y1) * invMod p256P (x2 + p256P - x1) % p256P
      let x3 := (l * l + 2 * p256P - x1 - x2) % p256P
      some (x3, (l * (x1 + p256P - x3) + p256P - y1) % p256P)

/-- Multiply a point by the low `n` bits of k. -/
def ecMul : Nat → Nat → Option (Nat × Nat) → Option (Nat × Nat)
  | 0, _, _ => none
  | n + 1, k, p => ecAdd (if k % 2 = 1 then p else none) (ecMul n (k / 2) (ecAdd p p))

/-- The point lies on the curve and its coordinates are reduced. -/
def onCurve (x y : Nat) : Bool :=
  decide (x < p256P) && decide (y < p256P) &&
    decide (y * y % p256P = (x * x * x + (p256P - 3) * x + p256B) % p256P)

/-- ECDSA P-256: the signature (r, s) of a 32-byte digest verifies under the key (x, y). -/
def ecdsaOk (digest : List Byte) (x y r s : Nat) : Bool :=
  if 1 ≤ r ∧ r < p256N ∧ 1 ≤ s ∧ s < p256N ∧ onCurve x y then
    let w := invMod p256N s
    let u1 := beNat digest * w % p256N
    let u2 := r * w % p256N
    match ecAdd (ecMul 256 u1 (some p256G)) (ecMul 256 u2 (some (x, y))) with
    | none => false
    | some (vx, _) => decide (vx % p256N = r)
  else false

/-- The digest of the 64 key bytes of a 128-byte signature block equals a fused hash (R73). -/
def sigKeyOk (blk hash : List Byte) : Bool := sha256 (slice blk 0 64) == hash

/-- The signature of a 128-byte signature block verifies over a byte string: key X, Y, then r, s, 32 bytes each,
big-endian (R73). -/
def sigOk (blk msg : List Byte) : Bool :=
  ecdsaOk (sha256 msg) (be blk 0 32) (be blk 32 32) (be blk 64 32) (be blk 96 32)

end Sys2Proof.Machine
end

