-- ==== Sys2Proof/Machine/Regs.lean ====
section
/-!
DEFINITION. The register index of the device (R459, Table 17-8): the address of every register under the
name its chapter gives it, and one row per register with its access code (R10), its reset value (R12) and the
mask of the bits a write can store (R9). Written from the register tables of spec/.
-/

namespace Sys2Proof.Machine


/-! ### PWR registers (R68) -/

def Reg.PWR_STAGE : Nat := 0x00010000
def Reg.PWR_STAGE_CTRL : Nat := 0x00010004
def Reg.PWR_STATE_REQ : Nat := 0x00010008
def Reg.PWR_STATE_RESULT : Nat := 0x0001000C
def Reg.PWR_LAST_REFUSAL : Nat := 0x00010010
def Reg.PWR_LAST_REFUSAL_TIME : Nat := 0x00010014
def Reg.PWR_LEVEL_REQ : Nat := 0x00010020
def Reg.PWR_LEVEL_STATUS : Nat := 0x00010024
def Reg.PWR_MARGIN : Nat := 0x00010028
def Reg.PWR_AUTO_DOZE : Nat := 0x0001002C
def Reg.PWR_INT_STATUS : Nat := 0x00010030
def Reg.PWR_INT_EN : Nat := 0x00010034
def Reg.PWR_PMB_STATUS : Nat := 0x00010040
def Reg.PWR_PMB_ERR_COUNT : Nat := 0x00010044
def Reg.PWR_RAIL_CFG (n : Nat) : Nat := 0x00010050 + 4 * n
def Reg.PWR_AON_WAKE_EN : Nat := 0x00010100
def Reg.PWR_AON_LAST_WAKE : Nat := 0x00010104
def Reg.PWR_AON_LAST_WAKE_TIME : Nat := 0x00010108
def Reg.PWR_AON_WAKE_FAIL : Nat := 0x0001010C
def Reg.PWR_AON_TIMER : Nat := 0x00010110
def Reg.PWR_AON_ALARM : Nat := 0x00010114
def Reg.PWR_AON_START_CFG : Nat := 0x00010118
def Reg.PWR_AON_SHL_CFG : Nat := 0x0001011C
def Reg.PWR_AON_SHL_COUNT : Nat := 0x00010120
def Reg.PWR_AON_THERM_WAKE : Nat := 0x00010124

/-! ### WRP registers (R100) -/

def Reg.WRP_CTRL : Nat := 0x00020000
def Reg.WRP_CFG : Nat := 0x00020004
def Reg.WRP_STAGE_LEN : Nat := 0x00020008
def Reg.WRP_DATA : Nat := 0x0002000C
def Reg.WRP_STATUS : Nat := 0x00020010
def Reg.WRP_ERR_LOC : Nat := 0x00020014
def Reg.WRP_ACTIVE_ID : Nat := 0x00020018
def Reg.WRP_ACTIVE_REV : Nat := 0x0002001C
def Reg.WRP_FIBRES : Nat := 0x00020020
def Reg.WRP_SPINDLES : Nat := 0x00020024
def Reg.WRP_FALLBACK_DL : Nat := 0x00020028
def Reg.WRP_FALLBACK_UL : Nat := 0x0002002C
def Reg.WRP_SWITCH_TIME_S : Nat := 0x00020030
def Reg.WRP_SWITCH_TIME_NS : Nat := 0x00020034
def Reg.WRP_INT_STATUS : Nat := 0x00020038
def Reg.WRP_INT_EN : Nat := 0x0002003C
def Reg.WRP_WEAVER : Nat := 0x00020040

/-! ### PTH registers (R129) -/

def Reg.PTH_STATUS (p : Nat) : Nat := 0x02000000 + 0x10000 * p
def Reg.PTH_CTRL (p : Nat) : Nat := 0x02000004 + 0x10000 * p
def Reg.PTH_TX_ATTEN (p : Nat) : Nat := 0x02000008 + 0x10000 * p
def Reg.PTH_RX_ATTEN (p : Nat) : Nat := 0x0200000C + 0x10000 * p
def Reg.PTH_TX_TRIM_USER (p : Nat) : Nat := 0x02000010 + 0x10000 * p
def Reg.PTH_RX_TRIM_USER (p : Nat) : Nat := 0x02000014 + 0x10000 * p
def Reg.PTH_TX_TRIM_CAL (p : Nat) : Nat := 0x02000018 + 0x10000 * p
def Reg.PTH_RX_TRIM_CAL (p : Nat) : Nat := 0x0200001C + 0x10000 * p
def Reg.PTH_ADC_POS_I (p : Nat) : Nat := 0x02000020 + 0x10000 * p
def Reg.PTH_ADC_POS_Q (p : Nat) : Nat := 0x02000024 + 0x10000 * p
def Reg.PTH_ADC_SPARE (p : Nat) : Nat := 0x02000028 + 0x10000 * p
def Reg.PTH_DAC_SEG (p : Nat) : Nat := 0x0200002C + 0x10000 * p
def Reg.PTH_FAULT (p : Nat) : Nat := 0x02000030 + 0x10000 * p
def Reg.PTH_INT_STATUS (p : Nat) : Nat := 0x02000034 + 0x10000 * p
def Reg.PTH_INT_EN (p : Nat) : Nat := 0x02000038 + 0x10000 * p
def Reg.PTH_OVLD_CFG (p : Nat) : Nat := 0x0200003C + 0x10000 * p
def Reg.PTH_OVLD_COUNT (p : Nat) : Nat := 0x02000040 + 0x10000 * p
def Reg.PTH_OCP_COUNT (p : Nat) : Nat := 0x02000044 + 0x10000 * p

/-! ### SYN registers (R150) -/

def Reg.SYN_REF_CFG : Nat := 0x00070000
def Reg.SYN_REF_STATUS : Nat := 0x00070004
def Reg.SYN_LOCK_CFG_RF : Nat := 0x00070008
def Reg.SYN_LOCK_CFG_CNV : Nat := 0x0007000C
def Reg.SYN_MAP : Nat := 0x00070010
def Reg.SYN_UNIT_STATUS (u : Nat) : Nat := 0x00070020 + 4 * u
def Reg.SYN_LO_FREQ (n : Nat) : Nat := 0x00070030 + 4 * n
def Reg.SYN_LO_WORD (n : Nat) : Nat := 0x00070038 + 4 * n
def Reg.SYN_CTRL : Nat := 0x00070040
def Reg.SYN_LO_STATUS : Nat := 0x00070044
def Reg.SYN_EVENT_COUNT : Nat := 0x00070048
def Reg.SYN_INT_STATUS : Nat := 0x0007004C
def Reg.SYN_INT_EN : Nat := 0x00070050
def Reg.SYN_PHASE (f : Nat) : Nat := 0x00070060 + 4 * f

/-! ### SKN registers (R179) -/

def Reg.SKN_CFG : Nat := 0x00090000
def Reg.SKN_SWITCH_TIME_S : Nat := 0x00090004
def Reg.SKN_SWITCH_TIME_NS : Nat := 0x00090008
def Reg.SKN_SWITCH_CTRL : Nat := 0x0009000C
def Reg.SKN_SWITCH_RESULT : Nat := 0x00090010
def Reg.SKN_SUPERSEDED : Nat := 0x00090014
def Reg.SKN_REPORT_LEVEL : Nat := 0x00090018
def Reg.SKN_REPORT_POP : Nat := 0x0009001C
def Reg.SKN_REPORT (i : Nat) : Nat := 0x00090020 + 4 * i
def Reg.SKN_REPORT_DROPPED : Nat := 0x00090030
def Reg.SKN_INT_STATUS : Nat := 0x00090034
def Reg.SKN_INT_EN : Nat := 0x00090038
def Reg.SKN_LAYER_DL (l : Nat) : Nat := 0x00090100 + 4 * l
def Reg.SKN_LAYER_UL (l : Nat) : Nat := 0x00090180 + 4 * l
def Reg.SKN_DL_SAT (p : Nat) : Nat := 0x00090200 + 4 * p
def Reg.SKN_UL_SAT (l : Nat) : Nat := 0x00090300 + 4 * l

/-! ### FFT registers (R180) -/

def Reg.FFT_JOB_CFG (f : Nat) : Nat := 0x000A0000 + 0x20 * f
def Reg.FFT_JOB_SRC (f : Nat) : Nat := 0x000A0004 + 0x20 * f
def Reg.FFT_JOB_DST (f : Nat) : Nat := 0x000A0008 + 0x20 * f
def Reg.FFT_JOB_SUBMIT (f : Nat) : Nat := 0x000A000C + 0x20 * f
def Reg.FFT_STATUS (f : Nat) : Nat := 0x000A0010 + 0x20 * f
def Reg.FFT_RESULT (f : Nat) : Nat := 0x000A0014 + 0x20 * f
def Reg.FFT_TIME_S (f : Nat) : Nat := 0x000A0018 + 0x20 * f
def Reg.FFT_TIME_NS (f : Nat) : Nat := 0x000A001C + 0x20 * f
def Reg.FFT_INT_STATUS : Nat := 0x000A0100
def Reg.FFT_INT_EN : Nat := 0x000A0104

/-! ### DPD registers (R202) -/

def Reg.DPD_CFG : Nat := 0x000B0000
def Reg.DPD_SWITCH_CTRL : Nat := 0x000B0004
def Reg.DPD_SWITCH_RESULT : Nat := 0x000B0008
def Reg.DPD_SUPERSEDED : Nat := 0x000B000C
def Reg.DPD_INT_STATUS : Nat := 0x000B0010
def Reg.DPD_INT_EN : Nat := 0x000B0014
def Reg.DPD_SOLVER : Nat := 0x000B0018
def Reg.DPD_SURVEY_CFG : Nat := 0x000B0020
def Reg.DPD_SURVEY_BAND : Nat := 0x000B0024
def Reg.DPD_SURVEY_CTRL : Nat := 0x000B0028
def Reg.DPD_SURVEY_STATUS : Nat := 0x000B002C
def Reg.DPD_SURVEY_LENGTH : Nat := 0x000B0030
def Reg.DPD_SURVEY_RL : Nat := 0x000B0034
def Reg.DPD_SURVEY_PEAK (i : Nat) : Nat := 0x000B0038 + 4 * i
def Reg.DPD_OBS_CFG (f : Nat) : Nat := 0x000B0100 + 0x10 * f
def Reg.DPD_OBS_STATUS (f : Nat) : Nat := 0x000B0104 + 0x10 * f
def Reg.DPD_PATH_CFG (p : Nat) : Nat := 0x000B1000 + 0x20 * p
def Reg.DPD_PERIOD (p : Nat) : Nat := 0x000B1004 + 0x20 * p
def Reg.DPD_STATUS (p : Nat) : Nat := 0x000B1008 + 0x20 * p
def Reg.DPD_NMSE (p : Nat) : Nat := 0x000B100C + 0x20 * p
def Reg.DPD_SAT (p : Nat) : Nat := 0x000B1010 + 0x20 * p
def Reg.DPD_LAST_S (p : Nat) : Nat := 0x000B1014 + 0x20 * p
def Reg.DPD_LAST_NS (p : Nat) : Nat := 0x000B1018 + 0x20 * p

/-! ### RAD registers (R230) -/

def Reg.RAD_GROUP_CMD : Nat := 0x00080000
def Reg.RAD_GROUP_RESULT : Nat := 0x00080004
def Reg.RAD_BURST_TIME_S : Nat := 0x00080008
def Reg.RAD_BURST_TIME_NS : Nat := 0x0008000C
def Reg.RAD_BURST_LEN : Nat := 0x00080010
def Reg.RAD_BURST_CTRL : Nat := 0x00080014
def Reg.RAD_BURST_RESULT : Nat := 0x00080018
def Reg.RAD_REPORT_LEVEL : Nat := 0x0008001C
def Reg.RAD_REPORT_POP : Nat := 0x00080020
def Reg.RAD_REPORT (i : Nat) : Nat := 0x00080024 + 4 * i
def Reg.RAD_REPORT_DROPPED : Nat := 0x00080030
def Reg.RAD_INT_STATUS : Nat := 0x00080034
def Reg.RAD_INT_EN : Nat := 0x00080038
def Reg.RAD_GROUP_STATUS (g : Nat) : Nat := 0x00080040 + 4 * g
def Reg.RAD_DUTY : Nat := 0x00080060
def Reg.RAD_LIC_STATUS : Nat := 0x00080064
def Reg.RAD_LIC_AGG : Nat := 0x00080068
def Reg.RAD_LINE_CLIP : Nat := 0x0008006C
def Reg.RAD_LIC_PATH (p : Nat) : Nat := 0x00080100 + 4 * p
def Reg.RAD_GEXT (p : Nat) : Nat := 0x00080200 + 4 * p
def Reg.RAD_LINE_CFG (f : Nat) (n : Nat) : Nat := 0x00080400 + 0x10 * f + 4 * n
def Reg.RAD_RFFE_CFG (f : Nat) : Nat := 0x00080600 + 0x20 * f
def Reg.RAD_RFFE_CMD (f : Nat) : Nat := 0x00080604 + 0x20 * f
def Reg.RAD_RFFE_WDATA (f : Nat) : Nat := 0x00080608 + 0x20 * f
def Reg.RAD_RFFE_TIME_S (f : Nat) : Nat := 0x0008060C + 0x20 * f
def Reg.RAD_RFFE_TIME_NS (f : Nat) : Nat := 0x00080610 + 0x20 * f
def Reg.RAD_RFFE_STATUS (f : Nat) : Nat := 0x00080614 + 0x20 * f
def Reg.RAD_RFFE_RDATA (f : Nat) : Nat := 0x00080618 + 0x20 * f
def Reg.RAD_RFFE_COUNT (f : Nat) : Nat := 0x0008061C + 0x20 * f

/-! ### NVS registers (R231) -/

def Reg.NVS_PAST_NONCE (i : Nat) : Nat := 0x00030800 + 4 * i
def Reg.NVS_PAST_CTRL : Nat := 0x00030810
def Reg.NVS_PAST_DATA : Nat := 0x00030814
def Reg.NVS_PAST_STATUS : Nat := 0x00030818
def Reg.NVS_PAST_KEY_HASH (i : Nat) : Nat := 0x00030820 + 4 * i

/-! ### LNE registers (R254) -/

def Reg.LNE_CFG : Nat := 0x000D0000
def Reg.LNE_ERR_THRESH : Nat := 0x000D0004
def Reg.LNE_QUAR_THRESH : Nat := 0x000D0008
def Reg.LNE_RESERVE : Nat := 0x000D000C
def Reg.LNE_INT_STATUS : Nat := 0x000D0010
def Reg.LNE_INT_EN : Nat := 0x000D0014
def Reg.LNE_PORT_CFG (q : Nat) : Nat := 0x000D0100 + 0x40 * q
def Reg.LNE_PORT_CTRL (q : Nat) : Nat := 0x000D0104 + 0x40 * q
def Reg.LNE_PORT_STATUS (q : Nat) : Nat := 0x000D0108 + 0x40 * q
def Reg.LNE_PORT_MAP0 (q : Nat) : Nat := 0x000D010C + 0x40 * q
def Reg.LNE_PORT_MAP1 (q : Nat) : Nat := 0x000D0110 + 0x40 * q
def Reg.LNE_CW_CORR (q : Nat) : Nat := 0x000D0114 + 0x40 * q
def Reg.LNE_CW_UNCORR (q : Nat) : Nat := 0x000D0118 + 0x40 * q
def Reg.LNE_FRAME_ERR (q : Nat) : Nat := 0x000D011C + 0x40 * q
def Reg.LNE_PORT_EVENT (q : Nat) : Nat := 0x000D0120 + 0x40 * q
def Reg.LNE_LANE_STATUS (n : Nat) : Nat := 0x000D0400 + 0x40 * n
def Reg.LNE_LANE_CFG (n : Nat) : Nat := 0x000D0404 + 0x40 * n
def Reg.LNE_TX_EQ (n : Nat) : Nat := 0x000D0408 + 0x40 * n
def Reg.LNE_RX_EQ (n : Nat) : Nat := 0x000D040C + 0x40 * n
def Reg.LNE_SYM_ERR (n : Nat) : Nat := 0x000D0410 + 0x40 * n
def Reg.LNE_SKEW (n : Nat) : Nat := 0x000D0414 + 0x40 * n
def Reg.LNE_TEST_CTRL (n : Nat) : Nat := 0x000D0418 + 0x40 * n
def Reg.LNE_PRBS_ERR (n : Nat) : Nat := 0x000D041C + 0x40 * n
def Reg.LNE_LANE_CTRL (n : Nat) : Nat := 0x000D0420 + 0x40 * n

/-! ### FHP registers (R283) -/

def Reg.FHP_CFG : Nat := 0x000C0000
def Reg.FHP_UL_BLOCKS : Nat := 0x000C0004
def Reg.FHP_INT_STATUS : Nat := 0x000C0008
def Reg.FHP_INT_EN : Nat := 0x000C000C
def Reg.FHP_FLOCK_CTRL : Nat := 0x000C0010
def Reg.FHP_MAC_LO (q : Nat) : Nat := 0x000C0020 + 8 * q
def Reg.FHP_MAC_HI (q : Nat) : Nat := 0x000C0024 + 8 * q
def Reg.FHP_FLOCK_STATUS (k : Nat) : Nat := 0x000C0100 + 0x20 * k
def Reg.FHP_FLOCK_DL (k : Nat) : Nat := 0x000C0104 + 0x20 * k
def Reg.FHP_FLOCK_UL (k : Nat) : Nat := 0x000C0108 + 0x20 * k
def Reg.FHP_FLOCK_VIOL (k : Nat) : Nat := 0x000C010C + 0x20 * k
def Reg.FHP_FLOCK_LATE (k : Nat) : Nat := 0x000C0110 + 0x20 * k
def Reg.FHP_FLOCK_MSG (k : Nat) : Nat := 0x000C0114 + 0x20 * k
def Reg.FHP_FLOCK_CTRL_LOST (k : Nat) : Nat := 0x000C0118 + 0x20 * k
def Reg.FHP_PORT_IQ_RX (q : Nat) : Nat := 0x000C0300 + 0x10 * q
def Reg.FHP_PORT_IQ_TX (q : Nat) : Nat := 0x000C0304 + 0x10 * q
def Reg.FHP_PORT_UNKNOWN (q : Nat) : Nat := 0x000C0308 + 0x10 * q
def Reg.FHP_PORT_SEQ_GAP (q : Nat) : Nat := 0x000C030C + 0x10 * q

/-! ### TIM registers (R307) -/

def Reg.TIM_CTRL : Nat := 0x000E0000
def Reg.TIM_STATUS : Nat := 0x000E0004
def Reg.TIM_PTP_CFG : Nat := 0x000E0008
def Reg.TIM_LOCK_CFG : Nat := 0x000E000C
def Reg.TIM_HOLD_CFG : Nat := 0x000E0010
def Reg.TIM_OFFSET : Nat := 0x000E0014
def Reg.TIM_RATE_LO : Nat := 0x000E0018
def Reg.TIM_RATE_HI : Nat := 0x000E001C
def Reg.TIM_MPD : Nat := 0x000E0020
def Reg.TIM_PARENT_ID_HI : Nat := 0x000E0024
def Reg.TIM_PARENT_ID_LO : Nat := 0x000E0028
def Reg.TIM_PARENT_PORT : Nat := 0x000E002C
def Reg.TIM_INT_STATUS : Nat := 0x000E0030
def Reg.TIM_INT_EN : Nat := 0x000E0034
def Reg.TIM_PORT_CFG (q : Nat) : Nat := 0x000E0100 + 0x40 * q
def Reg.TIM_ASYM (q : Nat) : Nat := 0x000E0104 + 0x40 * q
def Reg.TIM_FH_FIXED (q : Nat) : Nat := 0x000E0108 + 0x40 * q
def Reg.TIM_FH_LEN (q : Nat) : Nat := 0x000E010C + 0x40 * q
def Reg.TIM_PORT_STATUS (q : Nat) : Nat := 0x000E0110 + 0x40 * q
def Reg.TIM_PTP_COUNT (q : Nat) : Nat := 0x000E0114 + 0x40 * q
def Reg.TIM_PTP_VIOL (q : Nat) : Nat := 0x000E0118 + 0x40 * q
def Reg.TIM_TXTS_LEVEL (q : Nat) : Nat := 0x000E011C + 0x40 * q
def Reg.TIM_TXTS_POP (q : Nat) : Nat := 0x000E0120 + 0x40 * q
def Reg.TIM_TXTS (q : Nat) (i : Nat) : Nat := 0x000E0124 + 0x40 * q + 4 * i
def Reg.TIM_TXTS_DROPPED (q : Nat) : Nat := 0x000E0134 + 0x40 * q
def Reg.TIM_SNAP_S_HI (b : Nat) : Nat := 0x000E0200 + 0x10 * b
def Reg.TIM_SNAP_S_LO (b : Nat) : Nat := 0x000E0204 + 0x10 * b
def Reg.TIM_SNAP_NS (b : Nat) : Nat := 0x000E0208 + 0x10 * b
def Reg.TIM_SNAP_FRAC (b : Nat) : Nat := 0x000E020C + 0x10 * b
def Reg.TIM_PPS_CFG : Nat := 0x000E0280
def Reg.TIM_PPS_IN_S : Nat := 0x000E0284
def Reg.TIM_PPS_IN_NS : Nat := 0x000E0288
def Reg.TIM_PPS_IN_ERR : Nat := 0x000E028C
def Reg.TIM_FIBRE_N : Nat := 0x000E0290
def Reg.TIM_PTP_QUAR : Nat := 0x000E0294

/-! ### CAS registers (R328) -/

def Reg.CAS_STATUS : Nat := 0x000F0000
def Reg.CAS_CTRL : Nat := 0x000F0004
def Reg.CAS_STRAP : Nat := 0x000F0008
def Reg.CAS_STACK_ID : Nat := 0x000F000C
def Reg.CAS_JOINED : Nat := 0x000F0010
def Reg.CAS_DIGEST : Nat := 0x000F0014
def Reg.CAS_VIOL_THRESH : Nat := 0x000F0018
def Reg.CAS_ASYM : Nat := 0x000F001C
def Reg.CAS_TB2_OFFSET : Nat := 0x000F0020
def Reg.CAS_HOP_DELAY : Nat := 0x000F0024
def Reg.CAS_SUM_SAT : Nat := 0x000F0028
def Reg.CAS_LAST_REFUSAL : Nat := 0x000F002C
def Reg.CAS_INT_STATUS : Nat := 0x000F0030
def Reg.CAS_INT_EN : Nat := 0x000F0034
def Reg.CAS_NBR_STATUS (s : Nat) : Nat := 0x000F0100 + 0x10 * s
def Reg.CAS_NBR_VIOL (s : Nat) : Nat := 0x000F0104 + 0x10 * s
def Reg.CAS_LATE (s : Nat) : Nat := 0x000F0108 + 0x10 * s
def Reg.CAS_FRAMES (s : Nat) : Nat := 0x000F010C + 0x10 * s

/-! ### ACQ registers (R350) -/

def Reg.ACQ_STATUS : Nat := 0x00100000
def Reg.ACQ_BUDGET : Nat := 0x00100004
def Reg.ACQ_TRIG_IN_CFG : Nat := 0x00100008
def Reg.ACQ_INT_STATUS : Nat := 0x0010000C
def Reg.ACQ_INT_EN : Nat := 0x00100010
def Reg.ACQ_STREAM_CTRL (s : Nat) : Nat := 0x00100100 + 0x40 * s
def Reg.ACQ_STREAM_STATUS (s : Nat) : Nat := 0x00100104 + 0x40 * s
def Reg.ACQ_STREAM_SRC (s : Nat) : Nat := 0x00100108 + 0x40 * s
def Reg.ACQ_STREAM_BASE (s : Nat) : Nat := 0x0010010C + 0x40 * s
def Reg.ACQ_STREAM_SEG_BYTES (s : Nat) : Nat := 0x00100110 + 0x40 * s
def Reg.ACQ_STREAM_CAP (s : Nat) : Nat := 0x00100114 + 0x40 * s
def Reg.ACQ_STREAM_COUNT (s : Nat) : Nat := 0x00100118 + 0x40 * s
def Reg.ACQ_STREAM_PRE (s : Nat) : Nat := 0x0010011C + 0x40 * s
def Reg.ACQ_STREAM_POST (s : Nat) : Nat := 0x00100120 + 0x40 * s
def Reg.ACQ_STREAM_REDUCE (s : Nat) : Nat := 0x00100124 + 0x40 * s
def Reg.ACQ_STREAM_TRIG (s : Nat) : Nat := 0x00100128 + 0x40 * s
def Reg.ACQ_STREAM_THRESH (s : Nat) : Nat := 0x0010012C + 0x40 * s
def Reg.ACQ_STREAM_HYST (s : Nat) : Nat := 0x00100130 + 0x40 * s
def Reg.ACQ_STREAM_HOLD (s : Nat) : Nat := 0x00100134 + 0x40 * s
def Reg.ACQ_STREAM_TIME_S (s : Nat) : Nat := 0x00100138 + 0x40 * s
def Reg.ACQ_STREAM_TIME_NS (s : Nat) : Nat := 0x0010013C + 0x40 * s
def Reg.ACQ_MISSED (s : Nat) : Nat := 0x00100200 + 0x10 * s
def Reg.ACQ_MISS_S (s : Nat) : Nat := 0x00100204 + 0x10 * s
def Reg.ACQ_MISS_NS (s : Nat) : Nat := 0x00100208 + 0x10 * s
def Reg.ACQ_SEG_DONE (s : Nat) : Nat := 0x0010020C + 0x10 * s
def Reg.ACQ_MON_CFG (f : Nat) : Nat := 0x00100300 + 0x20 * f
def Reg.ACQ_MON_SHIFT (f : Nat) : Nat := 0x00100304 + 0x20 * f
def Reg.ACQ_MON_STATUS (f : Nat) : Nat := 0x00100308 + 0x20 * f
def Reg.ACQ_MON_DC (f : Nat) : Nat := 0x0010030C + 0x20 * f
def Reg.ACQ_MON_SAT (f : Nat) : Nat := 0x00100310 + 0x20 * f

/-! ### DRC registers (R367) -/

def Reg.DRC_CFG : Nat := 0x00120000
def Reg.DRC_STATUS : Nat := 0x00120004
def Reg.DRC_FREQ_REQ : Nat := 0x00120008
def Reg.DRC_FREQ_RESULT : Nat := 0x0012000C
def Reg.DRC_SET (i : Nat) : Nat := 0x00120010 + 4 * i
def Reg.DRC_REF_CFG : Nat := 0x00120018
def Reg.DRC_REF_STATUS : Nat := 0x0012001C
def Reg.DRC_NR_COUNT : Nat := 0x00120020
def Reg.DRC_TRAIN_LOCK : Nat := 0x00120024
def Reg.DRC_TRAIN_STATUS : Nat := 0x00120028
def Reg.DRC_PAT_CTRL : Nat := 0x0012002C
def Reg.DRC_PAT_BASE : Nat := 0x00120030
def Reg.DRC_PAT_LEN : Nat := 0x00120034
def Reg.DRC_PAT_SEED : Nat := 0x00120038
def Reg.DRC_PAT_STATUS : Nat := 0x0012003C
def Reg.DRC_PAT_ERR (i : Nat) : Nat := 0x00120040 + 4 * i
def Reg.DRC_PAT_FIRST_ERR : Nat := 0x00120050
def Reg.DRC_VIOL : Nat := 0x00120054
def Reg.DRC_INT_STATUS : Nat := 0x00120058
def Reg.DRC_INT_EN : Nat := 0x0012005C

/-! ### DMA registers (R378) -/

def Reg.DMA_INT_STATUS : Nat := 0x00110000
def Reg.DMA_INT_EN : Nat := 0x00110004
def Reg.DMA_INT_FAULT : Nat := 0x00110008
def Reg.DMA_INT_FAULT_EN : Nat := 0x0011000C
def Reg.DMA_CH_CTRL (c : Nat) : Nat := 0x00110100 + 0x40 * c
def Reg.DMA_CH_START (c : Nat) : Nat := 0x00110104 + 0x40 * c
def Reg.DMA_CH_STATUS (c : Nat) : Nat := 0x00110108 + 0x40 * c
def Reg.DMA_CH_SRC (c : Nat) : Nat := 0x0011010C + 0x40 * c
def Reg.DMA_CH_DST (c : Nat) : Nat := 0x00110110 + 0x40 * c
def Reg.DMA_CH_ADDR_HI (c : Nat) : Nat := 0x00110114 + 0x40 * c
def Reg.DMA_CH_REMAIN (c : Nat) : Nat := 0x00110118 + 0x40 * c
def Reg.DMA_CH_ROWS (c : Nat) : Nat := 0x0011011C + 0x40 * c
def Reg.DMA_CH_LOOP (c : Nat) : Nat := 0x00110120 + 0x40 * c
def Reg.DMA_CH_SOFF (c : Nat) : Nat := 0x00110124 + 0x40 * c
def Reg.DMA_CH_DOFF (c : Nat) : Nat := 0x00110128 + 0x40 * c
def Reg.DMA_CH_EVENTS (c : Nat) : Nat := 0x0011012C + 0x40 * c
def Reg.DMA_CH_SIGNAL (c : Nat) : Nat := 0x00110130 + 0x40 * c
def Reg.DMA_CH_BYTES (c : Nat) : Nat := 0x00110134 + 0x40 * c

/-! ### HKA registers (R408) -/

def Reg.HKA_CFG : Nat := 0x00050000
def Reg.HKA_SCAN_LEN : Nat := 0x00050004
def Reg.HKA_TRIG : Nat := 0x00050008
def Reg.HKA_URGENT : Nat := 0x0005000C
def Reg.HKA_URGENT_RESULT : Nat := 0x00050010
def Reg.HKA_QUEUE_LEVEL : Nat := 0x00050014
def Reg.HKA_QUEUE_HEAD : Nat := 0x00050018
def Reg.HKA_QUEUE_POP : Nat := 0x0005001C
def Reg.HKA_COUNT : Nat := 0x00050020
def Reg.HKA_STATUS : Nat := 0x00050024
def Reg.HKA_INT_STATUS : Nat := 0x00050028
def Reg.HKA_INT_EN : Nat := 0x0005002C
def Reg.HKA_QUEUE_MASK (i : Nat) : Nat := 0x00050040 + 4 * i
def Reg.HKA_SCAN (i : Nat) : Nat := 0x00050080 + 4 * i
def Reg.HKA_RESULT (ch : Nat) : Nat := 0x00050400 + 4 * ch

/-! ### BDA registers (R409) -/

def Reg.BDA_CFG : Nat := 0x00060000
def Reg.BDA_LOAD : Nat := 0x00060004
def Reg.BDA_LOAD_TIME_S : Nat := 0x00060008
def Reg.BDA_LOAD_TIME_NS : Nat := 0x0006000C
def Reg.BDA_STATUS : Nat := 0x00060010
def Reg.BDA_CTRL : Nat := 0x00060014
def Reg.BDA_INT_STATUS : Nat := 0x00060018
def Reg.BDA_INT_EN : Nat := 0x0006001C
def Reg.BDA_FAULT_SUM (i : Nat) : Nat := 0x00060020 + 4 * i
def Reg.BDA_CODE (n : Nat) : Nat := 0x00060100 + 0x20 * n
def Reg.BDA_ACTIVE (n : Nat) : Nat := 0x00060104 + 0x20 * n
def Reg.BDA_OUT_CFG (n : Nat) : Nat := 0x00060108 + 0x20 * n
def Reg.BDA_OUT_STATUS (n : Nat) : Nat := 0x0006010C + 0x20 * n
def Reg.BDA_VLIM (n : Nat) : Nat := 0x00060110 + 0x20 * n
def Reg.BDA_ILIM (n : Nat) : Nat := 0x00060114 + 0x20 * n
def Reg.BDA_OUT_CTRL (n : Nat) : Nat := 0x00060118 + 0x20 * n

/-! ### THM registers (R410) -/

def Reg.THM_CFG : Nat := 0x00040000
def Reg.THM_STATUS : Nat := 0x00040004
def Reg.THM_INT_STATUS : Nat := 0x00040008
def Reg.THM_INT_EN : Nat := 0x0004000C
def Reg.THM_RESERVE : Nat := 0x00040010
def Reg.THM_THROTTLE : Nat := 0x00040014
def Reg.THM_LAST_SD : Nat := 0x00040018
def Reg.THM_LAST_SD_S : Nat := 0x0004001C
def Reg.THM_ZONE (z : Nat) : Nat := 0x00040040 + 4 * z
def Reg.THM_SENSOR (i : Nat) : Nat := 0x00040100 + 4 * i

/-! ### NVS registers (R437) -/

def Reg.NVS_STATUS : Nat := 0x00030000
def Reg.NVS_VERIFY_FAIL : Nat := 0x00030004
def Reg.NVS_INT_STATUS : Nat := 0x00030008
def Reg.NVS_INT_EN : Nat := 0x0003000C
def Reg.NVS_REC_CTRL : Nat := 0x00030010
def Reg.NVS_REC_DATA : Nat := 0x00030014
def Reg.NVS_REC_STATUS : Nat := 0x00030018
def Reg.NVS_ADDR : Nat := 0x00030020
def Reg.NVS_DATA : Nat := 0x00030024
def Reg.NVS_CAL_REQ : Nat := 0x00030100
def Reg.NVS_CAL_RESULT : Nat := 0x00030104
def Reg.NVS_CAL_QUEUE : Nat := 0x00030108
def Reg.NVS_STACK_PHASE : Nat := 0x0003010C
def Reg.NVS_CAL_STATUS (p : Nat) : Nat := 0x00030200 + 4 * p
def Reg.NVS_ARR_TX (p : Nat) : Nat := 0x00030300 + 0x10 * p
def Reg.NVS_ARR_RX (p : Nat) : Nat := 0x00030304 + 0x10 * p
def Reg.NVS_RECIP (p : Nat) : Nat := 0x00030308 + 0x10 * p

/-! ### GLB registers (R457) -/

def Reg.GLB_ID : Nat := 0x00000000
def Reg.GLB_UNITS : Nat := 0x00000004
def Reg.GLB_SERIAL_LO : Nat := 0x00000008
def Reg.GLB_SERIAL_HI : Nat := 0x0000000C
def Reg.GLB_FW_VERSION : Nat := 0x00000010
def Reg.GLB_BOOT : Nat := 0x00000014
def Reg.GLB_STAGE : Nat := 0x00000018
def Reg.GLB_INT_SUMMARY : Nat := 0x00000020
def Reg.GLB_INT_EN : Nat := 0x00000024
def Reg.GLB_ALERT_EN : Nat := 0x00000028
def Reg.GLB_INT_PTH_LO : Nat := 0x0000002C
def Reg.GLB_INT_PTH_HI : Nat := 0x00000030
def Reg.GLB_INT_STATUS : Nat := 0x00000034
def Reg.GLB_INT_OWN_EN : Nat := 0x00000038
def Reg.GLB_WDOG : Nat := 0x00000040
def Reg.GLB_CADENCE_SLIP : Nat := 0x00000044
def Reg.GLB_RES_THRESH : Nat := 0x00000048
def Reg.GLB_SPI_CFG : Nat := 0x00000050
def Reg.GLB_SPI_STATUS : Nat := 0x00000054
def Reg.GLB_FLASH_CTRL : Nat := 0x00000060
def Reg.GLB_FLASH_ADDR : Nat := 0x00000064
def Reg.GLB_FLASH_STATUS : Nat := 0x00000068
def Reg.GLB_FLASH_VERSION : Nat := 0x0000006C
def Reg.GLB_DBG_CTRL : Nat := 0x00000080
def Reg.GLB_DBG_STATUS : Nat := 0x00000084
def Reg.GLB_DBG_DATA : Nat := 0x00000088
def Reg.GLB_DBG_NONCE (i : Nat) : Nat := 0x00000090 + 4 * i
def Reg.GLB_RES_A (r : Nat) : Nat := 0x00000100 + 8 * r
def Reg.GLB_RES_B (r : Nat) : Nat := 0x00000104 + 8 * r
def Reg.GLB_VIOL (kind : Nat) (j : Nat) : Nat := 0x00000400 + 0x20 * (kind - 1) + 4 * j
def Reg.GLB_LOG_STATUS : Nat := 0x00000500
def Reg.GLB_LOG_LOST : Nat := 0x00000504

/-! ### FLD registers (R458) -/

def Reg.FLD_STATUS (f : Nat) : Nat := 0x03000000 + 0x10000 * f

/-- Access codes of registers, Table 0-3 (R10). -/
inductive Access where
  | rw | ro | wo | w1c | rc | rwl
  deriving DecidableEq, Repr

/-- One row of a register table: `count1` registers `stride1` apart, each of `count2` registers `stride2`
apart, from `base`; the bits of `mask` are those a host write can store. -/
structure RegRow where
  name : String
  base : Nat
  count1 : Nat
  stride1 : Nat
  count2 : Nat
  stride2 : Nat
  access : Access
  reset : Nat
  mask : Nat
  deriving DecidableEq, Repr

/-- The address lies in the row. -/
def RegRow.holds (r : RegRow) (a : Nat) : Bool :=
  let d := a - r.base
  let i := if r.count1 ≤ 1 then 0 else min (d / r.stride1) (r.count1 - 1)
  let e := d - i * r.stride1
  let j := if r.count2 ≤ 1 then 0 else min (e / r.stride2) (r.count2 - 1)
  decide (r.base ≤ a) && decide (r.base + i * r.stride1 + j * r.stride2 = a)

/-- Register rows of PWR. -/
def regRowsPWR : List RegRow := [
  ⟨"PWR_STAGE", 0x00010000, 1, 0x0, 1, 0x0, .ro, 0x00000009, 0x00000000⟩,
  ⟨"PWR_STAGE_CTRL", 0x00010004, 1, 0x0, 1, 0x0, .rw, 0x00000000, 0x00000001⟩,
  ⟨"PWR_STATE_REQ", 0x00010008, 1, 0x0, 1, 0x0, .wo, 0x00000000, 0x00000000⟩,
  ⟨"PWR_STATE_RESULT", 0x0001000C, 1, 0x0, 1, 0x0, .ro, 0x00000000, 0x00000000⟩,
  ⟨"PWR_LAST_REFUSAL", 0x00010010, 1, 0x0, 1, 0x0, .ro, 0x00000000, 0x00000000⟩,
  ⟨"PWR_LAST_REFUSAL_TIME", 0x00010014, 1, 0x0, 1, 0x0, .ro, 0x00000000, 0x00000000⟩,
  ⟨"PWR_LEVEL_REQ", 0x00010020, 1, 0x0, 1, 0x0, .rw, 0x00000000, 0x00000003⟩,
  ⟨"PWR_LEVEL_STATUS", 0x00010024, 1, 0x0, 1, 0x0, .ro, 0x03200000, 0x00000000⟩,
  ⟨"PWR_MARGIN", 0x00010028, 1, 0x0, 1, 0x0, .rc, 0x00000000, 0x00000000⟩,
  ⟨"PWR_AUTO_DOZE", 0x0001002C, 1, 0x0, 1, 0x0, .rw, 0x00000000, 0x8000FFFF⟩,
  ⟨"PWR_INT_STATUS", 0x00010030, 1, 0x0, 1, 0x0, .w1c, 0x00000000, 0x00000000⟩,
  ⟨"PWR_INT_EN", 0x00010034, 1, 0x0, 1, 0x0, .rw, 0x00000000, 0x000001FF⟩,
  ⟨"PWR_PMB_STATUS", 0x00010040, 1, 0x0, 1, 0x0, .ro, 0x00000000, 0x00000000⟩,
  ⟨"PWR_PMB_ERR_COUNT", 0x00010044, 1, 0x0, 1, 0x0, .rc, 0x00000000, 0x00000000⟩,
  ⟨"PWR_RAIL_CFG", 0x00010050, 8, 0x4, 1, 0x0, .ro, 0x00000000, 0x00000000⟩,
  ⟨"PWR_AON_WAKE_EN", 0x00010100, 1, 0x0, 1, 0x0, .rw, 0x0000000A, 0x0000003F⟩,
  ⟨"PWR_AON_LAST_WAKE", 0x00010104, 1, 0x0, 1, 0x0, .ro, 0x00000000, 0x00000000⟩,
  ⟨"PWR_AON_LAST_WAKE_TIME", 0x00010108, 1, 0x0, 1, 0x0, .ro, 0x00000000, 0x00000000⟩,
  ⟨"PWR_AON_WAKE_FAIL", 0x0001010C, 1, 0x0, 1, 0x0, .w1c, 0x00000000, 0x00000000⟩,
  ⟨"PWR_AON_TIMER", 0x00010110, 1, 0x0, 1, 0x0, .ro, 0x00000000, 0x00000000⟩,
  ⟨"PWR_AON_ALARM", 0x00010114, 1, 0x0, 1, 0x0, .rw, 0xFFFFFFFF, 0xFFFFFFFF⟩,
  ⟨"PWR_AON_START_CFG", 0x00010118, 1, 0x0, 1, 0x0, .rw, 0x0001E848, 0x071FFFFF⟩,
  ⟨"PWR_AON_SHL_CFG", 0x0001011C, 1, 0x0, 1, 0x0, .rw, 0x00000000, 0x80FFFFFF⟩,
  ⟨"PWR_AON_SHL_COUNT", 0x00010120, 1, 0x0, 1, 0x0, .rc, 0x00000000, 0x00000000⟩,
  ⟨"PWR_AON_THERM_WAKE", 0x00010124, 1, 0x0, 1, 0x0, .rw, 0x00007FD8, 0x0000FFFF⟩]

/-- Register rows of WRP. -/
def regRowsWRP : List RegRow := [
  ⟨"WRP_CTRL", 0x00020000, 1, 0x0, 1, 0x0, .wo, 0x00000000, 0x00000000⟩,
  ⟨"WRP_CFG", 0x00020004, 1, 0x0, 1, 0x0, .rwl, 0x00000000, 0x00000001⟩,
  ⟨"WRP_STAGE_LEN", 0x00020008, 1, 0x0, 1, 0x0, .rw, 0x00000000, 0x00007FFC⟩,
  ⟨"WRP_DATA", 0x0002000C, 1, 0x0, 1, 0x0, .wo, 0x00000000, 0x00000000⟩,
  ⟨"WRP_STATUS", 0x00020010, 1, 0x0, 1, 0x0, .ro, 0x00000000, 0x00000000⟩,
  ⟨"WRP_ERR_LOC", 0x00020014, 1, 0x0, 1, 0x0, .ro, 0x00000000, 0x00000000⟩,
  ⟨"WRP_ACTIVE_ID", 0x00020018, 1, 0x0, 1, 0x0, .ro, 0x00000000, 0x00000000⟩,
  ⟨"WRP_ACTIVE_REV", 0x0002001C, 1, 0x0, 1, 0x0, .ro, 0x00000000, 0x00000000⟩,
  ⟨"WRP_FIBRES", 0x00020020, 1, 0x0, 1, 0x0, .ro, 0x00000000, 0x00000000⟩,
  ⟨"WRP_SPINDLES", 0x00020024, 1, 0x0, 1, 0x0, .ro, 0x00000000, 0x00000000⟩,
  ⟨"WRP_FALLBACK_DL", 0x00020028, 1, 0x0, 1, 0x0, .ro, 0x00000000, 0x00000000⟩,
  ⟨"WRP_FALLBACK_UL", 0x0002002C, 1, 0x0, 1, 0x0, .ro, 0x00000000, 0x00000000⟩,
  ⟨"WRP_SWITCH_TIME_S", 0x00020030, 1, 0x0, 1, 0x0, .ro, 0x00000000, 0x00000000⟩,
  ⟨"WRP_SWITCH_TIME_NS", 0x00020034, 1, 0x0, 1, 0x0, .ro, 0x00000000, 0x00000000⟩,
  ⟨"WRP_INT_STATUS", 0x00020038, 1, 0x0, 1, 0x0, .w1c, 0x00000000, 0x00000000⟩,
  ⟨"WRP_INT_EN", 0x0002003C, 1, 0x0, 1, 0x0, .rw, 0x00000000, 0x0000003F⟩,
  ⟨"WRP_WEAVER", 0x00020040, 1, 0x0, 1, 0x0, .ro, 0x00000000, 0x00000000⟩]

/-- Register rows of PTH. -/
def regRowsPTH : List RegRow := [
  ⟨"PTH_STATUS", 0x02000000, 64, 0x10000, 1, 0x0, .ro, 0x00000000, 0x00000000⟩,
  ⟨"PTH_CTRL", 0x02000004, 64, 0x10000, 1, 0x0, .rw, 0x00000000, 0x00000017⟩,
  ⟨"PTH_TX_ATTEN", 0x02000008, 64, 0x10000, 1, 0x0, .rw, 0x00007F7F, 0x0000007F⟩,
  ⟨"PTH_RX_ATTEN", 0x0200000C, 64, 0x10000, 1, 0x0, .rw, 0x00001E1E, 0x0000001F⟩,
  ⟨"PTH_TX_TRIM_USER", 0x02000010, 64, 0x10000, 1, 0x0, .rw, 0x00000000, 0x0003FFFF⟩,
  ⟨"PTH_RX_TRIM_USER", 0x02000014, 64, 0x10000, 1, 0x0, .rw, 0x00000000, 0x0003FFFF⟩,
  ⟨"PTH_TX_TRIM_CAL", 0x02000018, 64, 0x10000, 1, 0x0, .ro, 0x00000000, 0x00000000⟩,
  ⟨"PTH_RX_TRIM_CAL", 0x0200001C, 64, 0x10000, 1, 0x0, .ro, 0x00000000, 0x00000000⟩,
  ⟨"PTH_ADC_POS_I", 0x02000020, 64, 0x10000, 1, 0x0, .ro, 0x76543210, 0x00000000⟩,
  ⟨"PTH_ADC_POS_Q", 0x02000024, 64, 0x10000, 1, 0x0, .ro, 0x76543210, 0x00000000⟩,
  ⟨"PTH_ADC_SPARE", 0x02000028, 64, 0x10000, 1, 0x0, .ro, 0x20002000, 0x00000000⟩,
  ⟨"PTH_DAC_SEG", 0x0200002C, 64, 0x10000, 1, 0x0, .ro, 0x00040004, 0x00000000⟩,
  ⟨"PTH_FAULT", 0x02000030, 64, 0x10000, 1, 0x0, .ro, 0x00000000, 0x00000000⟩,
  ⟨"PTH_INT_STATUS", 0x02000034, 64, 0x10000, 1, 0x0, .w1c, 0x00000000, 0x00000000⟩,
  ⟨"PTH_INT_EN", 0x02000038, 64, 0x10000, 1, 0x0, .rw, 0x00000000, 0x000000FF⟩,
  ⟨"PTH_OVLD_CFG", 0x0200003C, 64, 0x10000, 1, 0x0, .rw, 0x00000040, 0x0000FFFF⟩,
  ⟨"PTH_OVLD_COUNT", 0x02000040, 64, 0x10000, 1, 0x0, .rc, 0x00000000, 0x00000000⟩,
  ⟨"PTH_OCP_COUNT", 0x02000044, 64, 0x10000, 1, 0x0, .rc, 0x00000000, 0x00000000⟩]

/-- Register rows of SYN. -/
def regRowsSYN : List RegRow := [
  ⟨"SYN_REF_CFG", 0x00070000, 1, 0x0, 1, 0x0, .rw, 0x00640002, 0xFFFF0003⟩,
  ⟨"SYN_REF_STATUS", 0x00070004, 1, 0x0, 1, 0x0, .ro, 0x00000000, 0x00000000⟩,
  ⟨"SYN_LOCK_CFG_RF", 0x00070008, 1, 0x0, 1, 0x0, .rw, 0x01000028, 0x1FFF00FF⟩,
  ⟨"SYN_LOCK_CFG_CNV", 0x0007000C, 1, 0x0, 1, 0x0, .rw, 0x04000014, 0x1FFF00FF⟩,
  ⟨"SYN_MAP", 0x00070010, 1, 0x0, 1, 0x0, .ro, 0x00000210, 0x00000000⟩,
  ⟨"SYN_UNIT_STATUS", 0x00070020, 3, 0x4, 1, 0x0, .ro, 0x0C000000, 0x00000000⟩,
  ⟨"SYN_LO_FREQ", 0x00070030, 2, 0x4, 1, 0x0, .ro, 0x00000000, 0x00000000⟩,
  ⟨"SYN_LO_WORD", 0x00070038, 2, 0x4, 1, 0x0, .ro, 0x00000000, 0x00000000⟩,
  ⟨"SYN_CTRL", 0x00070040, 1, 0x0, 1, 0x0, .wo, 0x00000000, 0x00000000⟩,
  ⟨"SYN_LO_STATUS", 0x00070044, 1, 0x0, 1, 0x0, .ro, 0x00000000, 0x00000000⟩,
  ⟨"SYN_EVENT_COUNT", 0x00070048, 1, 0x0, 1, 0x0, .rc, 0x00000000, 0x00000000⟩,
  ⟨"SYN_INT_STATUS", 0x0007004C, 1, 0x0, 1, 0x0, .w1c, 0x00000000, 0x00000000⟩,
  ⟨"SYN_INT_EN", 0x00070050, 1, 0x0, 1, 0x0, .rw, 0x00000000, 0x000003FF⟩,
  ⟨"SYN_PHASE", 0x00070060, 8, 0x4, 1, 0x0, .rw, 0x00000000, 0x03FF03FF⟩]

/-- Register rows of SKN. -/
def regRowsSKN : List RegRow := [
  ⟨"SKN_CFG", 0x00090000, 1, 0x0, 1, 0x0, .rwl, 0x00000000, 0x800F000F⟩,
  ⟨"SKN_SWITCH_TIME_S", 0x00090004, 1, 0x0, 1, 0x0, .rw, 0x00000000, 0xFFFFFFFF⟩,
  ⟨"SKN_SWITCH_TIME_NS", 0x00090008, 1, 0x0, 1, 0x0, .rw, 0x00000000, 0xFFFFFFFF⟩,
  ⟨"SKN_SWITCH_CTRL", 0x0009000C, 1, 0x0, 1, 0x0, .wo, 0x00000000, 0x00000000⟩,
  ⟨"SKN_SWITCH_RESULT", 0x00090010, 1, 0x0, 1, 0x0, .ro, 0x00000000, 0x00000000⟩,
  ⟨"SKN_SUPERSEDED", 0x00090014, 1, 0x0, 1, 0x0, .rc, 0x00000000, 0x00000000⟩,
  ⟨"SKN_REPORT_LEVEL", 0x00090018, 1, 0x0, 1, 0x0, .ro, 0x00000000, 0x00000000⟩,
  ⟨"SKN_REPORT_POP", 0x0009001C, 1, 0x0, 1, 0x0, .wo, 0x00000000, 0x00000000⟩,
  ⟨"SKN_REPORT", 0x00090020, 4, 0x4, 1, 0x0, .ro, 0x00000000, 0x00000000⟩,
  ⟨"SKN_REPORT_DROPPED", 0x00090030, 1, 0x0, 1, 0x0, .rc, 0x00000000, 0x00000000⟩,
  ⟨"SKN_INT_STATUS", 0x00090034, 1, 0x0, 1, 0x0, .w1c, 0x00000000, 0x00000000⟩,
  ⟨"SKN_INT_EN", 0x00090038, 1, 0x0, 1, 0x0, .rw, 0x00000000, 0x0000007F⟩,
  ⟨"SKN_LAYER_DL", 0x00090100, 32, 0x4, 1, 0x0, .ro, 0x00000000, 0x00000000⟩,
  ⟨"SKN_LAYER_UL", 0x00090180, 32, 0x4, 1, 0x0, .ro, 0x00000000, 0x00000000⟩,
  ⟨"SKN_DL_SAT", 0x00090200, 64, 0x4, 1, 0x0, .rc, 0x00000000, 0x00000000⟩,
  ⟨"SKN_UL_SAT", 0x00090300, 32, 0x4, 1, 0x0, .rc, 0x00000000, 0x00000000⟩]

/-- Register rows of FFT. -/
def regRowsFFT : List RegRow := [
  ⟨"FFT_JOB_CFG", 0x000A0000, 8, 0x20, 1, 0x0, .rw, 0x00000006, 0xF330000F⟩,
  ⟨"FFT_JOB_SRC", 0x000A0004, 8, 0x20, 1, 0x0, .rw, 0x00000000, 0xFFFFFFFF⟩,
  ⟨"FFT_JOB_DST", 0x000A0008, 8, 0x20, 1, 0x0, .rw, 0x00000000, 0xFFFFFFFF⟩,
  ⟨"FFT_JOB_SUBMIT", 0x000A000C, 8, 0x20, 1, 0x0, .wo, 0x00000000, 0x00000000⟩,
  ⟨"FFT_STATUS", 0x000A0010, 8, 0x20, 1, 0x0, .ro, 0x00000000, 0x00000000⟩,
  ⟨"FFT_RESULT", 0x000A0014, 8, 0x20, 1, 0x0, .ro, 0x00000000, 0x00000000⟩,
  ⟨"FFT_TIME_S", 0x000A0018, 8, 0x20, 1, 0x0, .ro, 0x00000000, 0x00000000⟩,
  ⟨"FFT_TIME_NS", 0x000A001C, 8, 0x20, 1, 0x0, .ro, 0x00000000, 0x00000000⟩,
  ⟨"FFT_INT_STATUS", 0x000A0100, 1, 0x0, 1, 0x0, .w1c, 0x00000000, 0x00000000⟩,
  ⟨"FFT_INT_EN", 0x000A0104, 1, 0x0, 1, 0x0, .rw, 0x00000000, 0x0000FFFF⟩]

/-- Register rows of DPD. -/
def regRowsDPD : List RegRow := [
  ⟨"DPD_CFG", 0x000B0000, 1, 0x0, 1, 0x0, .rw, 0x04C44106, 0x0FFCF90F⟩,
  ⟨"DPD_SWITCH_CTRL", 0x000B0004, 1, 0x0, 1, 0x0, .wo, 0x00000000, 0x00000000⟩,
  ⟨"DPD_SWITCH_RESULT", 0x000B0008, 1, 0x0, 1, 0x0, .ro, 0x00000000, 0x00000000⟩,
  ⟨"DPD_SUPERSEDED", 0x000B000C, 1, 0x0, 1, 0x0, .rc, 0x00000000, 0x00000000⟩,
  ⟨"DPD_INT_STATUS", 0x000B0010, 1, 0x0, 1, 0x0, .w1c, 0x00000000, 0x00000000⟩,
  ⟨"DPD_INT_EN", 0x000B0014, 1, 0x0, 1, 0x0, .rw, 0x00000000, 0x000000FF⟩,
  ⟨"DPD_SOLVER", 0x000B0018, 1, 0x0, 1, 0x0, .ro, 0x00000000, 0x00000000⟩,
  ⟨"DPD_SURVEY_CFG", 0x000B0020, 1, 0x0, 1, 0x0, .rw, 0xE1700000, 0xFFF80000⟩,
  ⟨"DPD_SURVEY_BAND", 0x000B0024, 1, 0x0, 1, 0x0, .rw, 0x1C200258, 0xFFFFFFFF⟩,
  ⟨"DPD_SURVEY_CTRL", 0x000B0028, 1, 0x0, 1, 0x0, .wo, 0x00000000, 0x00000000⟩,
  ⟨"DPD_SURVEY_STATUS", 0x000B002C, 1, 0x0, 1, 0x0, .ro, 0x00000000, 0x00000000⟩,
  ⟨"DPD_SURVEY_LENGTH", 0x000B0030, 1, 0x0, 1, 0x0, .ro, 0x00000000, 0x00000000⟩,
  ⟨"DPD_SURVEY_RL", 0x000B0034, 1, 0x0, 1, 0x0, .ro, 0x00000000, 0x00000000⟩,
  ⟨"DPD_SURVEY_PEAK", 0x000B0038, 4, 0x4, 1, 0x0, .ro, 0x00000000, 0x00000000⟩,
  ⟨"DPD_OBS_CFG", 0x000B0100, 8, 0x10, 1, 0x0, .rw, 0x00000000, 0x0000001F⟩,
  ⟨"DPD_OBS_STATUS", 0x000B0104, 8, 0x10, 1, 0x0, .ro, 0x00000040, 0x00000000⟩,
  ⟨"DPD_PATH_CFG", 0x000B1000, 64, 0x20, 1, 0x0, .rw, 0x80000020, 0x800000F3⟩,
  ⟨"DPD_PERIOD", 0x000B1004, 64, 0x20, 1, 0x0, .rw, 0x00000028, 0x000000FF⟩,
  ⟨"DPD_STATUS", 0x000B1008, 64, 0x20, 1, 0x0, .ro, 0x00000000, 0x00000000⟩,
  ⟨"DPD_NMSE", 0x000B100C, 64, 0x20, 1, 0x0, .ro, 0x00000000, 0x00000000⟩,
  ⟨"DPD_SAT", 0x000B1010, 64, 0x20, 1, 0x0, .rc, 0x00000000, 0x00000000⟩,
  ⟨"DPD_LAST_S", 0x000B1014, 64, 0x20, 1, 0x0, .ro, 0x00000000, 0x00000000⟩,
  ⟨"DPD_LAST_NS", 0x000B1018, 64, 0x20, 1, 0x0, .ro, 0x00000000, 0x00000000⟩]

/-- Register rows of RAD. -/
def regRowsRAD : List RegRow := [
  ⟨"RAD_GROUP_CMD", 0x00080000, 1, 0x0, 1, 0x0, .wo, 0x00000000, 0x00000000⟩,
  ⟨"RAD_GROUP_RESULT", 0x00080004, 1, 0x0, 1, 0x0, .ro, 0x00000000, 0x00000000⟩,
  ⟨"RAD_BURST_TIME_S", 0x00080008, 1, 0x0, 1, 0x0, .rw, 0x00000000, 0xFFFFFFFF⟩,
  ⟨"RAD_BURST_TIME_NS", 0x0008000C, 1, 0x0, 1, 0x0, .rw, 0x00000000, 0xFFFFFFFF⟩,
  ⟨"RAD_BURST_LEN", 0x00080010, 1, 0x0, 1, 0x0, .rw, 0x00000001, 0x007FFFFF⟩,
  ⟨"RAD_BURST_CTRL", 0x00080014, 1, 0x0, 1, 0x0, .wo, 0x00000000, 0x00000000⟩,
  ⟨"RAD_BURST_RESULT", 0x00080018, 1, 0x0, 1, 0x0, .ro, 0x00000000, 0x00000000⟩,
  ⟨"RAD_REPORT_LEVEL", 0x0008001C, 1, 0x0, 1, 0x0, .ro, 0x00000000, 0x00000000⟩,
  ⟨"RAD_REPORT_POP", 0x00080020, 1, 0x0, 1, 0x0, .wo, 0x00000000, 0x00000000⟩,
  ⟨"RAD_REPORT", 0x00080024, 3, 0x4, 1, 0x0, .ro, 0x00000000, 0x00000000⟩,
  ⟨"RAD_REPORT_DROPPED", 0x00080030, 1, 0x0, 1, 0x0, .rc, 0x00000000, 0x00000000⟩,
  ⟨"RAD_INT_STATUS", 0x00080034, 1, 0x0, 1, 0x0, .w1c, 0x00000000, 0x00000000⟩,
  ⟨"RAD_INT_EN", 0x00080038, 1, 0x0, 1, 0x0, .rw, 0x00000000, 0x00000FFF⟩,
  ⟨"RAD_GROUP_STATUS", 0x00080040, 8, 0x4, 1, 0x0, .ro, 0x00000000, 0x00000000⟩,
  ⟨"RAD_DUTY", 0x00080060, 1, 0x0, 1, 0x0, .ro, 0x00000000, 0x00000000⟩,
  ⟨"RAD_LIC_STATUS", 0x00080064, 1, 0x0, 1, 0x0, .ro, 0x00000000, 0x00000000⟩,
  ⟨"RAD_LIC_AGG", 0x00080068, 1, 0x0, 1, 0x0, .ro, 0x00000000, 0x00000000⟩,
  ⟨"RAD_LINE_CLIP", 0x0008006C, 1, 0x0, 1, 0x0, .rc, 0x00000000, 0x00000000⟩,
  ⟨"RAD_LIC_PATH", 0x00080100, 64, 0x4, 1, 0x0, .ro, 0x00000000, 0x00000000⟩,
  ⟨"RAD_GEXT", 0x00080200, 64, 0x4, 1, 0x0, .ro, 0x00000000, 0x00000000⟩,
  ⟨"RAD_LINE_CFG", 0x00080400, 8, 0x10, 4, 0x4, .rw, 0x30000000, 0x73FF03FF⟩,
  ⟨"RAD_RFFE_CFG", 0x00080600, 8, 0x20, 1, 0x0, .rw, 0x00000000, 0x80000007⟩,
  ⟨"RAD_RFFE_CMD", 0x00080604, 8, 0x20, 1, 0x0, .wo, 0x00000000, 0x00000000⟩,
  ⟨"RAD_RFFE_WDATA", 0x00080608, 8, 0x20, 1, 0x0, .rw, 0x00000000, 0xFFFFFFFF⟩,
  ⟨"RAD_RFFE_TIME_S", 0x0008060C, 8, 0x20, 1, 0x0, .rw, 0x00000000, 0xFFFFFFFF⟩,
  ⟨"RAD_RFFE_TIME_NS", 0x00080610, 8, 0x20, 1, 0x0, .rw, 0x00000000, 0xFFFFFFFF⟩,
  ⟨"RAD_RFFE_STATUS", 0x00080614, 8, 0x20, 1, 0x0, .ro, 0x00000000, 0x00000000⟩,
  ⟨"RAD_RFFE_RDATA", 0x00080618, 8, 0x20, 1, 0x0, .ro, 0x00000000, 0x00000000⟩,
  ⟨"RAD_RFFE_COUNT", 0x0008061C, 8, 0x20, 1, 0x0, .rc, 0x00000000, 0x00000000⟩]

/-- Register rows of NVS. -/
def regRowsNVS : List RegRow := [
  ⟨"NVS_PAST_NONCE", 0x00030800, 4, 0x4, 1, 0x0, .ro, 0x00000000, 0x00000000⟩,
  ⟨"NVS_PAST_CTRL", 0x00030810, 1, 0x0, 1, 0x0, .wo, 0x00000000, 0x00000000⟩,
  ⟨"NVS_PAST_DATA", 0x00030814, 1, 0x0, 1, 0x0, .wo, 0x00000000, 0x00000000⟩,
  ⟨"NVS_PAST_STATUS", 0x00030818, 1, 0x0, 1, 0x0, .ro, 0x00000000, 0x00000000⟩,
  ⟨"NVS_PAST_KEY_HASH", 0x00030820, 8, 0x4, 1, 0x0, .ro, 0x00000000, 0x00000000⟩,
  ⟨"NVS_STATUS", 0x00030000, 1, 0x0, 1, 0x0, .ro, 0x00000000, 0x00000000⟩,
  ⟨"NVS_VERIFY_FAIL", 0x00030004, 1, 0x0, 1, 0x0, .rc, 0x00000000, 0x00000000⟩,
  ⟨"NVS_INT_STATUS", 0x00030008, 1, 0x0, 1, 0x0, .w1c, 0x00000000, 0x00000000⟩,
  ⟨"NVS_INT_EN", 0x0003000C, 1, 0x0, 1, 0x0, .rw, 0x00000000, 0x000001F7⟩,
  ⟨"NVS_REC_CTRL", 0x00030010, 1, 0x0, 1, 0x0, .wo, 0x00000000, 0x00000000⟩,
  ⟨"NVS_REC_DATA", 0x00030014, 1, 0x0, 1, 0x0, .wo, 0x00000000, 0x00000000⟩,
  ⟨"NVS_REC_STATUS", 0x00030018, 1, 0x0, 1, 0x0, .ro, 0x00000000, 0x00000000⟩,
  ⟨"NVS_ADDR", 0x00030020, 1, 0x0, 1, 0x0, .rw, 0x00000000, 0x001FFFFC⟩,
  ⟨"NVS_DATA", 0x00030024, 1, 0x0, 1, 0x0, .rw, 0x00000000, 0xFFFFFFFF⟩,
  ⟨"NVS_CAL_REQ", 0x00030100, 1, 0x0, 1, 0x0, .wo, 0x00000000, 0x00000000⟩,
  ⟨"NVS_CAL_RESULT", 0x00030104, 1, 0x0, 1, 0x0, .ro, 0x00000000, 0x00000000⟩,
  ⟨"NVS_CAL_QUEUE", 0x00030108, 1, 0x0, 1, 0x0, .ro, 0x00000000, 0x00000000⟩,
  ⟨"NVS_STACK_PHASE", 0x0003010C, 1, 0x0, 1, 0x0, .ro, 0x00000000, 0x00000000⟩,
  ⟨"NVS_CAL_STATUS", 0x00030200, 64, 0x4, 1, 0x0, .ro, 0x00000000, 0x00000000⟩,
  ⟨"NVS_ARR_TX", 0x00030300, 64, 0x10, 1, 0x0, .ro, 0x40000000, 0x00000000⟩,
  ⟨"NVS_ARR_RX", 0x00030304, 64, 0x10, 1, 0x0, .ro, 0x40000000, 0x00000000⟩,
  ⟨"NVS_RECIP", 0x00030308, 64, 0x10, 1, 0x0, .ro, 0x40000000, 0x00000000⟩]

/-- Register rows of LNE. -/
def regRowsLNE : List RegRow := [
  ⟨"LNE_CFG", 0x000D0000, 1, 0x0, 1, 0x0, .rwl, 0x00000000, 0x00000003⟩,
  ⟨"LNE_ERR_THRESH", 0x000D0004, 1, 0x0, 1, 0x0, .rw, 0x00080000, 0x00FFFFFF⟩,
  ⟨"LNE_QUAR_THRESH", 0x000D0008, 1, 0x0, 1, 0x0, .rw, 0x00001000, 0x0000FFFF⟩,
  ⟨"LNE_RESERVE", 0x000D000C, 1, 0x0, 1, 0x0, .ro, 0x00000000, 0x00000000⟩,
  ⟨"LNE_INT_STATUS", 0x000D0010, 1, 0x0, 1, 0x0, .w1c, 0x00000000, 0x00000000⟩,
  ⟨"LNE_INT_EN", 0x000D0014, 1, 0x0, 1, 0x0, .rw, 0x00000000, 0x000001FF⟩,
  ⟨"LNE_PORT_CFG", 0x000D0100, 5, 0x40, 1, 0x0, .rwl, 0x00000000, 0x00000003⟩,
  ⟨"LNE_PORT_CTRL", 0x000D0104, 5, 0x40, 1, 0x0, .wo, 0x00000000, 0x00000000⟩,
  ⟨"LNE_PORT_STATUS", 0x000D0108, 5, 0x40, 1, 0x0, .ro, 0x00000000, 0x00000000⟩,
  ⟨"LNE_PORT_MAP0", 0x000D010C, 5, 0x40, 1, 0x0, .ro, 0x1F1F1F1F, 0x00000000⟩,
  ⟨"LNE_PORT_MAP1", 0x000D0110, 5, 0x40, 1, 0x0, .ro, 0x1F1F1F1F, 0x00000000⟩,
  ⟨"LNE_CW_CORR", 0x000D0114, 5, 0x40, 1, 0x0, .rc, 0x00000000, 0x00000000⟩,
  ⟨"LNE_CW_UNCORR", 0x000D0118, 5, 0x40, 1, 0x0, .rc, 0x00000000, 0x00000000⟩,
  ⟨"LNE_FRAME_ERR", 0x000D011C, 5, 0x40, 1, 0x0, .rc, 0x00000000, 0x00000000⟩,
  ⟨"LNE_PORT_EVENT", 0x000D0120, 5, 0x40, 1, 0x0, .rc, 0x00000000, 0x00000000⟩,
  ⟨"LNE_LANE_STATUS", 0x000D0400, 29, 0x40, 1, 0x0, .ro, 0x00000000, 0x00000000⟩,
  ⟨"LNE_LANE_CFG", 0x000D0404, 29, 0x40, 1, 0x0, .rwl, 0x00000000, 0x00000001⟩,
  ⟨"LNE_TX_EQ", 0x000D0408, 29, 0x40, 1, 0x0, .rw, 0x00007E00, 0x00FFFFF0⟩,
  ⟨"LNE_RX_EQ", 0x000D040C, 29, 0x40, 1, 0x0, .ro, 0x00000000, 0x00000000⟩,
  ⟨"LNE_SYM_ERR", 0x000D0410, 29, 0x40, 1, 0x0, .rc, 0x00000000, 0x00000000⟩,
  ⟨"LNE_SKEW", 0x000D0414, 29, 0x40, 1, 0x0, .ro, 0x00000000, 0x00000000⟩,
  ⟨"LNE_TEST_CTRL", 0x000D0418, 29, 0x40, 1, 0x0, .rw, 0x00000000, 0x80000003⟩,
  ⟨"LNE_PRBS_ERR", 0x000D041C, 29, 0x40, 1, 0x0, .rc, 0x00000000, 0x00000000⟩,
  ⟨"LNE_LANE_CTRL", 0x000D0420, 29, 0x40, 1, 0x0, .wo, 0x00000000, 0x00000000⟩]

/-- Register rows of FHP. -/
def regRowsFHP : List RegRow := [
  ⟨"FHP_CFG", 0x000C0000, 1, 0x0, 1, 0x0, .rwl, 0x00203270, 0x00FFFF70⟩,
  ⟨"FHP_UL_BLOCKS", 0x000C0004, 1, 0x0, 1, 0x0, .rwl, 0x001C2430, 0x00FFFFFF⟩,
  ⟨"FHP_INT_STATUS", 0x000C0008, 1, 0x0, 1, 0x0, .w1c, 0x00000000, 0x00000000⟩,
  ⟨"FHP_INT_EN", 0x000C000C, 1, 0x0, 1, 0x0, .rw, 0x00000000, 0x000001FF⟩,
  ⟨"FHP_FLOCK_CTRL", 0x000C0010, 1, 0x0, 1, 0x0, .wo, 0x00000000, 0x00000000⟩,
  ⟨"FHP_MAC_LO", 0x000C0020, 2, 0x8, 1, 0x0, .rwl, 0x00000000, 0xFFFFFFFF⟩,
  ⟨"FHP_MAC_HI", 0x000C0024, 2, 0x8, 1, 0x0, .rwl, 0x00000000, 0x0000FFFF⟩,
  ⟨"FHP_FLOCK_STATUS", 0x000C0100, 8, 0x20, 1, 0x0, .ro, 0x00000007, 0x00000000⟩,
  ⟨"FHP_FLOCK_DL", 0x000C0104, 8, 0x20, 1, 0x0, .ro, 0x00000000, 0x00000000⟩,
  ⟨"FHP_FLOCK_UL", 0x000C0108, 8, 0x20, 1, 0x0, .ro, 0x00000000, 0x00000000⟩,
  ⟨"FHP_FLOCK_VIOL", 0x000C010C, 8, 0x20, 1, 0x0, .ro, 0x00000000, 0x00000000⟩,
  ⟨"FHP_FLOCK_LATE", 0x000C0110, 8, 0x20, 1, 0x0, .rc, 0x00000000, 0x00000000⟩,
  ⟨"FHP_FLOCK_MSG", 0x000C0114, 8, 0x20, 1, 0x0, .rc, 0x00000000, 0x00000000⟩,
  ⟨"FHP_FLOCK_CTRL_LOST", 0x000C0118, 8, 0x20, 1, 0x0, .rc, 0x00000000, 0x00000000⟩,
  ⟨"FHP_PORT_IQ_RX", 0x000C0300, 2, 0x10, 1, 0x0, .rc, 0x00000000, 0x00000000⟩,
  ⟨"FHP_PORT_IQ_TX", 0x000C0304, 2, 0x10, 1, 0x0, .rc, 0x00000000, 0x00000000⟩,
  ⟨"FHP_PORT_UNKNOWN", 0x000C0308, 2, 0x10, 1, 0x0, .rc, 0x00000000, 0x00000000⟩,
  ⟨"FHP_PORT_SEQ_GAP", 0x000C030C, 2, 0x10, 1, 0x0, .rc, 0x00000000, 0x00000000⟩]

/-- Register rows of TIM. -/
def regRowsTIM : List RegRow := [
  ⟨"TIM_CTRL", 0x000E0000, 1, 0x0, 1, 0x0, .wo, 0x00000000, 0x00000000⟩,
  ⟨"TIM_STATUS", 0x000E0004, 1, 0x0, 1, 0x0, .ro, 0x00000003, 0x00000000⟩,
  ⟨"TIM_PTP_CFG", 0x000E0008, 1, 0x0, 1, 0x0, .rwl, 0x18000003, 0xFF000033⟩,
  ⟨"TIM_LOCK_CFG", 0x000E000C, 1, 0x0, 1, 0x0, .rw, 0x10044032, 0xFFFFFFFF⟩,
  ⟨"TIM_HOLD_CFG", 0x000E0010, 1, 0x0, 1, 0x0, .rw, 0x003C03E8, 0xFFFFFFFF⟩,
  ⟨"TIM_OFFSET", 0x000E0014, 1, 0x0, 1, 0x0, .ro, 0x00000000, 0x00000000⟩,
  ⟨"TIM_RATE_LO", 0x000E0018, 1, 0x0, 1, 0x0, .ro, 0x00000000, 0x00000000⟩,
  ⟨"TIM_RATE_HI", 0x000E001C, 1, 0x0, 1, 0x0, .ro, 0x00000000, 0x00000000⟩,
  ⟨"TIM_MPD", 0x000E0020, 1, 0x0, 1, 0x0, .ro, 0x00000000, 0x00000000⟩,
  ⟨"TIM_PARENT_ID_HI", 0x000E0024, 1, 0x0, 1, 0x0, .ro, 0x00000000, 0x00000000⟩,
  ⟨"TIM_PARENT_ID_LO", 0x000E0028, 1, 0x0, 1, 0x0, .ro, 0x00000000, 0x00000000⟩,
  ⟨"TIM_PARENT_PORT", 0x000E002C, 1, 0x0, 1, 0x0, .ro, 0x00000000, 0x00000000⟩,
  ⟨"TIM_INT_STATUS", 0x000E0030, 1, 0x0, 1, 0x0, .w1c, 0x00000000, 0x00000000⟩,
  ⟨"TIM_INT_EN", 0x000E0034, 1, 0x0, 1, 0x0, .rw, 0x00000000, 0x000003FF⟩,
  ⟨"TIM_PORT_CFG", 0x000E0100, 2, 0x40, 1, 0x0, .rwl, 0x00000080, 0x000000FF⟩,
  ⟨"TIM_ASYM", 0x000E0104, 2, 0x40, 1, 0x0, .rw, 0x00000000, 0xFFFFFFFF⟩,
  ⟨"TIM_FH_FIXED", 0x000E0108, 2, 0x40, 1, 0x0, .rw, 0x00000000, 0x000FFFFF⟩,
  ⟨"TIM_FH_LEN", 0x000E010C, 2, 0x40, 1, 0x0, .ro, 0x00000000, 0x00000000⟩,
  ⟨"TIM_PORT_STATUS", 0x000E0110, 2, 0x40, 1, 0x0, .ro, 0x00000000, 0x00000000⟩,
  ⟨"TIM_PTP_COUNT", 0x000E0114, 2, 0x40, 1, 0x0, .rc, 0x00000000, 0x00000000⟩,
  ⟨"TIM_PTP_VIOL", 0x000E0118, 2, 0x40, 1, 0x0, .rc, 0x00000000, 0x00000000⟩,
  ⟨"TIM_TXTS_LEVEL", 0x000E011C, 2, 0x40, 1, 0x0, .ro, 0x00000000, 0x00000000⟩,
  ⟨"TIM_TXTS_POP", 0x000E0120, 2, 0x40, 1, 0x0, .wo, 0x00000000, 0x00000000⟩,
  ⟨"TIM_TXTS", 0x000E0124, 2, 0x40, 4, 0x4, .ro, 0x00000000, 0x00000000⟩,
  ⟨"TIM_TXTS_DROPPED", 0x000E0134, 2, 0x40, 1, 0x0, .rc, 0x00000000, 0x00000000⟩,
  ⟨"TIM_SNAP_S_HI", 0x000E0200, 4, 0x10, 1, 0x0, .ro, 0x00000000, 0x00000000⟩,
  ⟨"TIM_SNAP_S_LO", 0x000E0204, 4, 0x10, 1, 0x0, .ro, 0x00000000, 0x00000000⟩,
  ⟨"TIM_SNAP_NS", 0x000E0208, 4, 0x10, 1, 0x0, .ro, 0x00000000, 0x00000000⟩,
  ⟨"TIM_SNAP_FRAC", 0x000E020C, 4, 0x10, 1, 0x0, .ro, 0x00000000, 0x00000000⟩,
  ⟨"TIM_PPS_CFG", 0x000E0280, 1, 0x0, 1, 0x0, .rw, 0x00000064, 0xF000FFFF⟩,
  ⟨"TIM_PPS_IN_S", 0x000E0284, 1, 0x0, 1, 0x0, .ro, 0x00000000, 0x00000000⟩,
  ⟨"TIM_PPS_IN_NS", 0x000E0288, 1, 0x0, 1, 0x0, .ro, 0x00000000, 0x00000000⟩,
  ⟨"TIM_PPS_IN_ERR", 0x000E028C, 1, 0x0, 1, 0x0, .ro, 0x00000000, 0x00000000⟩,
  ⟨"TIM_FIBRE_N", 0x000E0290, 1, 0x0, 1, 0x0, .rw, 0x000177CF, 0x000FFFFF⟩,
  ⟨"TIM_PTP_QUAR", 0x000E0294, 1, 0x0, 1, 0x0, .rw, 0x00000040, 0x0000FFFF⟩]

/-- Register rows of CAS. -/
def regRowsCAS : List RegRow := [
  ⟨"CAS_STATUS", 0x000F0000, 1, 0x0, 1, 0x0, .ro, 0x00000000, 0x00000000⟩,
  ⟨"CAS_CTRL", 0x000F0004, 1, 0x0, 1, 0x0, .wo, 0x00000000, 0x00000000⟩,
  ⟨"CAS_STRAP", 0x000F0008, 1, 0x0, 1, 0x0, .ro, 0x00000000, 0x00000000⟩,
  ⟨"CAS_STACK_ID", 0x000F000C, 1, 0x0, 1, 0x0, .ro, 0x00000000, 0x00000000⟩,
  ⟨"CAS_JOINED", 0x000F0010, 1, 0x0, 1, 0x0, .ro, 0x00000000, 0x00000000⟩,
  ⟨"CAS_DIGEST", 0x000F0014, 1, 0x0, 1, 0x0, .ro, 0x00000000, 0x00000000⟩,
  ⟨"CAS_VIOL_THRESH", 0x000F0018, 1, 0x0, 1, 0x0, .rw, 0x00000040, 0x0000FFFF⟩,
  ⟨"CAS_ASYM", 0x000F001C, 1, 0x0, 1, 0x0, .rw, 0x00000000, 0xFFFFFFFF⟩,
  ⟨"CAS_TB2_OFFSET", 0x000F0020, 1, 0x0, 1, 0x0, .ro, 0x00000000, 0x00000000⟩,
  ⟨"CAS_HOP_DELAY", 0x000F0024, 1, 0x0, 1, 0x0, .ro, 0x00000000, 0x00000000⟩,
  ⟨"CAS_SUM_SAT", 0x000F0028, 1, 0x0, 1, 0x0, .rc, 0x00000000, 0x00000000⟩,
  ⟨"CAS_LAST_REFUSAL", 0x000F002C, 1, 0x0, 1, 0x0, .ro, 0x00000000, 0x00000000⟩,
  ⟨"CAS_INT_STATUS", 0x000F0030, 1, 0x0, 1, 0x0, .w1c, 0x00000000, 0x00000000⟩,
  ⟨"CAS_INT_EN", 0x000F0034, 1, 0x0, 1, 0x0, .rw, 0x00000000, 0x000003FF⟩,
  ⟨"CAS_NBR_STATUS", 0x000F0100, 2, 0x10, 1, 0x0, .ro, 0x00000000, 0x00000000⟩,
  ⟨"CAS_NBR_VIOL", 0x000F0104, 2, 0x10, 1, 0x0, .rc, 0x00000000, 0x00000000⟩,
  ⟨"CAS_LATE", 0x000F0108, 2, 0x10, 1, 0x0, .rc, 0x00000000, 0x00000000⟩,
  ⟨"CAS_FRAMES", 0x000F010C, 2, 0x10, 1, 0x0, .rc, 0x00000000, 0x00000000⟩]

/-- Register rows of ACQ. -/
def regRowsACQ : List RegRow := [
  ⟨"ACQ_STATUS", 0x00100000, 1, 0x0, 1, 0x0, .ro, 0x00000000, 0x00000000⟩,
  ⟨"ACQ_BUDGET", 0x00100004, 1, 0x0, 1, 0x0, .ro, 0x00000000, 0x00000000⟩,
  ⟨"ACQ_TRIG_IN_CFG", 0x00100008, 1, 0x0, 1, 0x0, .rw, 0x00000000, 0x00000003⟩,
  ⟨"ACQ_INT_STATUS", 0x0010000C, 1, 0x0, 1, 0x0, .w1c, 0x00000000, 0x00000000⟩,
  ⟨"ACQ_INT_EN", 0x00100010, 1, 0x0, 1, 0x0, .rw, 0x00000000, 0x000000FF⟩,
  ⟨"ACQ_STREAM_CTRL", 0x00100100, 4, 0x40, 1, 0x0, .wo, 0x00000000, 0x00000000⟩,
  ⟨"ACQ_STREAM_STATUS", 0x00100104, 4, 0x40, 1, 0x0, .ro, 0x00000000, 0x00000000⟩,
  ⟨"ACQ_STREAM_SRC", 0x00100108, 4, 0x40, 1, 0x0, .rw, 0x00000000, 0xFFFF8000⟩,
  ⟨"ACQ_STREAM_BASE", 0x0010010C, 4, 0x40, 1, 0x0, .rw, 0x00000000, 0x07FFFFFF⟩,
  ⟨"ACQ_STREAM_SEG_BYTES", 0x00100110, 4, 0x40, 1, 0x0, .rw, 0x00010040, 0xFFFFFFC0⟩,
  ⟨"ACQ_STREAM_CAP", 0x00100114, 4, 0x40, 1, 0x0, .ro, 0x00004000, 0x00000000⟩,
  ⟨"ACQ_STREAM_COUNT", 0x00100118, 4, 0x40, 1, 0x0, .rw, 0x00000001, 0x0000FFFF⟩,
  ⟨"ACQ_STREAM_PRE", 0x0010011C, 4, 0x40, 1, 0x0, .rw, 0x00001000, 0xFFFFFFFF⟩,
  ⟨"ACQ_STREAM_POST", 0x00100120, 4, 0x40, 1, 0x0, .rw, 0x00003000, 0xFFFFFFFF⟩,
  ⟨"ACQ_STREAM_REDUCE", 0x00100124, 4, 0x40, 1, 0x0, .rw, 0x00000001, 0x0000FFFF⟩,
  ⟨"ACQ_STREAM_TRIG", 0x00100128, 4, 0x40, 1, 0x0, .rw, 0x00000000, 0xFFFF0000⟩,
  ⟨"ACQ_STREAM_THRESH", 0x0010012C, 4, 0x40, 1, 0x0, .rw, 0x00000000, 0x00FFFFFF⟩,
  ⟨"ACQ_STREAM_HYST", 0x00100130, 4, 0x40, 1, 0x0, .rw, 0x00000000, 0x007FFFFF⟩,
  ⟨"ACQ_STREAM_HOLD", 0x00100134, 4, 0x40, 1, 0x0, .rw, 0x00000000, 0xFFFFFFFF⟩,
  ⟨"ACQ_STREAM_TIME_S", 0x00100138, 4, 0x40, 1, 0x0, .rw, 0x00000000, 0xFFFFFFFF⟩,
  ⟨"ACQ_STREAM_TIME_NS", 0x0010013C, 4, 0x40, 1, 0x0, .rw, 0x00000000, 0xFFFFFFFF⟩,
  ⟨"ACQ_MISSED", 0x00100200, 4, 0x10, 1, 0x0, .rc, 0x00000000, 0x00000000⟩,
  ⟨"ACQ_MISS_S", 0x00100204, 4, 0x10, 1, 0x0, .ro, 0x00000000, 0x00000000⟩,
  ⟨"ACQ_MISS_NS", 0x00100208, 4, 0x10, 1, 0x0, .ro, 0x00000000, 0x00000000⟩,
  ⟨"ACQ_SEG_DONE", 0x0010020C, 4, 0x10, 1, 0x0, .ro, 0x00000000, 0x00000000⟩,
  ⟨"ACQ_MON_CFG", 0x00100300, 8, 0x20, 1, 0x0, .rw, 0x44A00000, 0xFFE00007⟩,
  ⟨"ACQ_MON_SHIFT", 0x00100304, 8, 0x20, 1, 0x0, .rw, 0x00000000, 0x000FFFFF⟩,
  ⟨"ACQ_MON_STATUS", 0x00100308, 8, 0x20, 1, 0x0, .ro, 0x00000000, 0x00000000⟩,
  ⟨"ACQ_MON_DC", 0x0010030C, 8, 0x20, 1, 0x0, .ro, 0x00000000, 0x00000000⟩,
  ⟨"ACQ_MON_SAT", 0x00100310, 8, 0x20, 1, 0x0, .rc, 0x00000000, 0x00000000⟩]

/-- Register rows of DRC. -/
def regRowsDRC : List RegRow := [
  ⟨"DRC_CFG", 0x00120000, 1, 0x0, 1, 0x0, .rwl, 0x00000000, 0xFFFFFFF7⟩,
  ⟨"DRC_STATUS", 0x00120004, 1, 0x0, 1, 0x0, .ro, 0x00000000, 0x00000000⟩,
  ⟨"DRC_FREQ_REQ", 0x00120008, 1, 0x0, 1, 0x0, .rw, 0x00000004, 0x00000007⟩,
  ⟨"DRC_FREQ_RESULT", 0x0012000C, 1, 0x0, 1, 0x0, .ro, 0x00000000, 0x00000000⟩,
  ⟨"DRC_SET", 0x00120010, 2, 0x4, 1, 0x0, .ro, 0x00000000, 0x00000000⟩,
  ⟨"DRC_REF_CFG", 0x00120018, 1, 0x0, 1, 0x0, .rw, 0x00000008, 0x0000010F⟩,
  ⟨"DRC_REF_STATUS", 0x0012001C, 1, 0x0, 1, 0x0, .ro, 0x00000003, 0x00000000⟩,
  ⟨"DRC_NR_COUNT", 0x00120020, 1, 0x0, 1, 0x0, .rc, 0x00000000, 0x00000000⟩,
  ⟨"DRC_TRAIN_LOCK", 0x00120024, 1, 0x0, 1, 0x0, .rw, 0x00000000, 0x00000001⟩,
  ⟨"DRC_TRAIN_STATUS", 0x00120028, 1, 0x0, 1, 0x0, .ro, 0x00000000, 0x00000000⟩,
  ⟨"DRC_PAT_CTRL", 0x0012002C, 1, 0x0, 1, 0x0, .wo, 0x00000000, 0x00000000⟩,
  ⟨"DRC_PAT_BASE", 0x00120030, 1, 0x0, 1, 0x0, .rw, 0x00000000, 0x07FFFFFF⟩,
  ⟨"DRC_PAT_LEN", 0x00120034, 1, 0x0, 1, 0x0, .rw, 0x00000001, 0x07FFFFFF⟩,
  ⟨"DRC_PAT_SEED", 0x00120038, 1, 0x0, 1, 0x0, .rw, 0x00000001, 0xFFFFFFFF⟩,
  ⟨"DRC_PAT_STATUS", 0x0012003C, 1, 0x0, 1, 0x0, .ro, 0x00000000, 0x00000000⟩,
  ⟨"DRC_PAT_ERR", 0x00120040, 4, 0x4, 1, 0x0, .rc, 0x00000000, 0x00000000⟩,
  ⟨"DRC_PAT_FIRST_ERR", 0x00120050, 1, 0x0, 1, 0x0, .ro, 0x00000000, 0x00000000⟩,
  ⟨"DRC_VIOL", 0x00120054, 1, 0x0, 1, 0x0, .rc, 0x00000000, 0x00000000⟩,
  ⟨"DRC_INT_STATUS", 0x00120058, 1, 0x0, 1, 0x0, .w1c, 0x00000000, 0x00000000⟩,
  ⟨"DRC_INT_EN", 0x0012005C, 1, 0x0, 1, 0x0, .rw, 0x00000000, 0x0000007F⟩]

/-- Register rows of DMA. -/
def regRowsDMA : List RegRow := [
  ⟨"DMA_INT_STATUS", 0x00110000, 1, 0x0, 1, 0x0, .w1c, 0x00000000, 0x00000000⟩,
  ⟨"DMA_INT_EN", 0x00110004, 1, 0x0, 1, 0x0, .rw, 0x00000000, 0xFFFFFFFF⟩,
  ⟨"DMA_INT_FAULT", 0x00110008, 1, 0x0, 1, 0x0, .w1c, 0x00000000, 0x00000000⟩,
  ⟨"DMA_INT_FAULT_EN", 0x0011000C, 1, 0x0, 1, 0x0, .rw, 0x00000000, 0x0000FFFF⟩,
  ⟨"DMA_CH_CTRL", 0x00110100, 16, 0x40, 1, 0x0, .rw, 0x00000000, 0x80000000⟩,
  ⟨"DMA_CH_START", 0x00110104, 16, 0x40, 1, 0x0, .rw, 0x00000000, 0x000001FF⟩,
  ⟨"DMA_CH_STATUS", 0x00110108, 16, 0x40, 1, 0x0, .ro, 0x00000000, 0x00000000⟩,
  ⟨"DMA_CH_SRC", 0x0011010C, 16, 0x40, 1, 0x0, .ro, 0x00000000, 0x00000000⟩,
  ⟨"DMA_CH_DST", 0x00110110, 16, 0x40, 1, 0x0, .ro, 0x00000000, 0x00000000⟩,
  ⟨"DMA_CH_ADDR_HI", 0x00110114, 16, 0x40, 1, 0x0, .ro, 0x00000000, 0x00000000⟩,
  ⟨"DMA_CH_REMAIN", 0x00110118, 16, 0x40, 1, 0x0, .ro, 0x00000000, 0x00000000⟩,
  ⟨"DMA_CH_ROWS", 0x0011011C, 16, 0x40, 1, 0x0, .ro, 0x00000000, 0x00000000⟩,
  ⟨"DMA_CH_LOOP", 0x00110120, 16, 0x40, 1, 0x0, .ro, 0x00000000, 0x00000000⟩,
  ⟨"DMA_CH_SOFF", 0x00110124, 16, 0x40, 1, 0x0, .ro, 0x00000000, 0x00000000⟩,
  ⟨"DMA_CH_DOFF", 0x00110128, 16, 0x40, 1, 0x0, .ro, 0x00000000, 0x00000000⟩,
  ⟨"DMA_CH_EVENTS", 0x0011012C, 16, 0x40, 1, 0x0, .w1c, 0x00000000, 0x00000000⟩,
  ⟨"DMA_CH_SIGNAL", 0x00110130, 16, 0x40, 1, 0x0, .ro, 0x00000000, 0x00000000⟩,
  ⟨"DMA_CH_BYTES", 0x00110134, 16, 0x40, 1, 0x0, .rc, 0x00000000, 0x00000000⟩]

/-- Register rows of HKA. -/
def regRowsHKA : List RegRow := [
  ⟨"HKA_CFG", 0x00050000, 1, 0x0, 1, 0x0, .rw, 0x000003E8, 0xC000FFFF⟩,
  ⟨"HKA_SCAN_LEN", 0x00050004, 1, 0x0, 1, 0x0, .rw, 0x00000000, 0x0000007F⟩,
  ⟨"HKA_TRIG", 0x00050008, 1, 0x0, 1, 0x0, .wo, 0x00000000, 0x00000000⟩,
  ⟨"HKA_URGENT", 0x0005000C, 1, 0x0, 1, 0x0, .wo, 0x00000000, 0x00000000⟩,
  ⟨"HKA_URGENT_RESULT", 0x00050010, 1, 0x0, 1, 0x0, .ro, 0x00000000, 0x00000000⟩,
  ⟨"HKA_QUEUE_LEVEL", 0x00050014, 1, 0x0, 1, 0x0, .ro, 0x00000000, 0x00000000⟩,
  ⟨"HKA_QUEUE_HEAD", 0x00050018, 1, 0x0, 1, 0x0, .ro, 0xFFFFFFFF, 0x00000000⟩,
  ⟨"HKA_QUEUE_POP", 0x0005001C, 1, 0x0, 1, 0x0, .wo, 0x00000000, 0x00000000⟩,
  ⟨"HKA_COUNT", 0x00050020, 1, 0x0, 1, 0x0, .rc, 0x00000000, 0x00000000⟩,
  ⟨"HKA_STATUS", 0x00050024, 1, 0x0, 1, 0x0, .ro, 0x00000000, 0x00000000⟩,
  ⟨"HKA_INT_STATUS", 0x00050028, 1, 0x0, 1, 0x0, .w1c, 0x00000000, 0x00000000⟩,
  ⟨"HKA_INT_EN", 0x0005002C, 1, 0x0, 1, 0x0, .rw, 0x00000000, 0x0000003F⟩,
  ⟨"HKA_QUEUE_MASK", 0x00050040, 5, 0x4, 1, 0x0, .rw, 0x00000000, 0xFFFFFFFF⟩,
  ⟨"HKA_SCAN", 0x00050080, 16, 0x4, 1, 0x0, .rw, 0x00000000, 0xFFFFFFFF⟩,
  ⟨"HKA_RESULT", 0x00050400, 160, 0x4, 1, 0x0, .ro, 0x00000000, 0x00000000⟩]

/-- Register rows of BDA. -/
def regRowsBDA : List RegRow := [
  ⟨"BDA_CFG", 0x00060000, 1, 0x0, 1, 0x0, .rw, 0x00004004, 0x30FFFF0F⟩,
  ⟨"BDA_LOAD", 0x00060004, 1, 0x0, 1, 0x0, .wo, 0x00000000, 0x00000000⟩,
  ⟨"BDA_LOAD_TIME_S", 0x00060008, 1, 0x0, 1, 0x0, .rw, 0x00000000, 0xFFFFFFFF⟩,
  ⟨"BDA_LOAD_TIME_NS", 0x0006000C, 1, 0x0, 1, 0x0, .rw, 0x00000000, 0xFFFFFFFF⟩,
  ⟨"BDA_STATUS", 0x00060010, 1, 0x0, 1, 0x0, .ro, 0x81000000, 0x00000000⟩,
  ⟨"BDA_CTRL", 0x00060014, 1, 0x0, 1, 0x0, .wo, 0x00000000, 0x00000000⟩,
  ⟨"BDA_INT_STATUS", 0x00060018, 1, 0x0, 1, 0x0, .w1c, 0x00000000, 0x00000000⟩,
  ⟨"BDA_INT_EN", 0x0006001C, 1, 0x0, 1, 0x0, .rw, 0x00000000, 0x0000003F⟩,
  ⟨"BDA_FAULT_SUM", 0x00060020, 3, 0x4, 1, 0x0, .ro, 0x00000000, 0x00000000⟩,
  ⟨"BDA_CODE", 0x00060100, 72, 0x20, 1, 0x0, .rw, 0x00000000, 0x0000FFFF⟩,
  ⟨"BDA_ACTIVE", 0x00060104, 72, 0x20, 1, 0x0, .ro, 0x80000000, 0x00000000⟩,
  ⟨"BDA_OUT_CFG", 0x00060108, 72, 0x20, 1, 0x0, .rw, 0x00000001, 0x00000013⟩,
  ⟨"BDA_OUT_STATUS", 0x0006010C, 72, 0x20, 1, 0x0, .ro, 0x00000000, 0x00000000⟩,
  ⟨"BDA_VLIM", 0x00060110, 72, 0x20, 1, 0x0, .ro, 0x00000000, 0x00000000⟩,
  ⟨"BDA_ILIM", 0x00060114, 72, 0x20, 1, 0x0, .ro, 0x00000000, 0x00000000⟩,
  ⟨"BDA_OUT_CTRL", 0x00060118, 72, 0x20, 1, 0x0, .wo, 0x00000000, 0x00000000⟩]

/-- Register rows of THM. -/
def regRowsTHM : List RegRow := [
  ⟨"THM_CFG", 0x00040000, 1, 0x0, 1, 0x0, .rwl, 0x646C0204, 0xFFFF070F⟩,
  ⟨"THM_STATUS", 0x00040004, 1, 0x0, 1, 0x0, .ro, 0x00000000, 0x00000000⟩,
  ⟨"THM_INT_STATUS", 0x00040008, 1, 0x0, 1, 0x0, .w1c, 0x00000000, 0x00000000⟩,
  ⟨"THM_INT_EN", 0x0004000C, 1, 0x0, 1, 0x0, .rw, 0x00000000, 0x0000003F⟩,
  ⟨"THM_RESERVE", 0x00040010, 1, 0x0, 1, 0x0, .ro, 0x00000000, 0x00000000⟩,
  ⟨"THM_THROTTLE", 0x00040014, 1, 0x0, 1, 0x0, .rc, 0x00000000, 0x00000000⟩,
  ⟨"THM_LAST_SD", 0x00040018, 1, 0x0, 1, 0x0, .ro, 0x00000000, 0x00000000⟩,
  ⟨"THM_LAST_SD_S", 0x0004001C, 1, 0x0, 1, 0x0, .ro, 0x00000000, 0x00000000⟩,
  ⟨"THM_ZONE", 0x00040040, 12, 0x4, 1, 0x0, .ro, 0x00000000, 0x00000000⟩,
  ⟨"THM_SENSOR", 0x00040100, 40, 0x4, 1, 0x0, .ro, 0x00000000, 0x00000000⟩]

/-- Register rows of GLB. -/
def regRowsGLB : List RegRow := [
  ⟨"GLB_ID", 0x00000000, 1, 0x0, 1, 0x0, .ro, 0x64720001, 0x00000000⟩,
  ⟨"GLB_UNITS", 0x00000004, 1, 0x0, 1, 0x0, .ro, 0x00000000, 0x00000000⟩,
  ⟨"GLB_SERIAL_LO", 0x00000008, 1, 0x0, 1, 0x0, .ro, 0x00000000, 0x00000000⟩,
  ⟨"GLB_SERIAL_HI", 0x0000000C, 1, 0x0, 1, 0x0, .ro, 0x00000000, 0x00000000⟩,
  ⟨"GLB_FW_VERSION", 0x00000010, 1, 0x0, 1, 0x0, .ro, 0x00000000, 0x00000000⟩,
  ⟨"GLB_BOOT", 0x00000014, 1, 0x0, 1, 0x0, .ro, 0x00000000, 0x00000000⟩,
  ⟨"GLB_STAGE", 0x00000018, 1, 0x0, 1, 0x0, .ro, 0x00000009, 0x00000000⟩,
  ⟨"GLB_INT_SUMMARY", 0x00000020, 1, 0x0, 1, 0x0, .ro, 0x00000000, 0x00000000⟩,
  ⟨"GLB_INT_EN", 0x00000024, 1, 0x0, 1, 0x0, .rw, 0x00000000, 0x0107FFFF⟩,
  ⟨"GLB_ALERT_EN", 0x00000028, 1, 0x0, 1, 0x0, .rw, 0x00000000, 0x0107FFFF⟩,
  ⟨"GLB_INT_PTH_LO", 0x0000002C, 1, 0x0, 1, 0x0, .ro, 0x00000000, 0x00000000⟩,
  ⟨"GLB_INT_PTH_HI", 0x00000030, 1, 0x0, 1, 0x0, .ro, 0x00000000, 0x00000000⟩,
  ⟨"GLB_INT_STATUS", 0x00000034, 1, 0x0, 1, 0x0, .w1c, 0x00000000, 0x00000000⟩,
  ⟨"GLB_INT_OWN_EN", 0x00000038, 1, 0x0, 1, 0x0, .rw, 0x00000000, 0x0000007F⟩,
  ⟨"GLB_WDOG", 0x00000040, 1, 0x0, 1, 0x0, .ro, 0x00000000, 0x00000000⟩,
  ⟨"GLB_CADENCE_SLIP", 0x00000044, 1, 0x0, 1, 0x0, .rc, 0x00000000, 0x00000000⟩,
  ⟨"GLB_RES_THRESH", 0x00000048, 1, 0x0, 1, 0x0, .rw, 0x00000010, 0x0000007F⟩,
  ⟨"GLB_SPI_CFG", 0x00000050, 1, 0x0, 1, 0x0, .rw, 0x00000002, 0x0000000F⟩,
  ⟨"GLB_SPI_STATUS", 0x00000054, 1, 0x0, 1, 0x0, .rc, 0x00000000, 0x00000000⟩,
  ⟨"GLB_FLASH_CTRL", 0x00000060, 1, 0x0, 1, 0x0, .wo, 0x00000000, 0x00000000⟩,
  ⟨"GLB_FLASH_ADDR", 0x00000064, 1, 0x0, 1, 0x0, .rw, 0x00000000, 0xFFFFFFFF⟩,
  ⟨"GLB_FLASH_STATUS", 0x00000068, 1, 0x0, 1, 0x0, .ro, 0x00000000, 0x00000000⟩,
  ⟨"GLB_FLASH_VERSION", 0x0000006C, 1, 0x0, 1, 0x0, .ro, 0x00000000, 0x00000000⟩,
  ⟨"GLB_DBG_CTRL", 0x00000080, 1, 0x0, 1, 0x0, .wo, 0x00000000, 0x00000000⟩,
  ⟨"GLB_DBG_STATUS", 0x00000084, 1, 0x0, 1, 0x0, .ro, 0x00000000, 0x00000000⟩,
  ⟨"GLB_DBG_DATA", 0x00000088, 1, 0x0, 1, 0x0, .wo, 0x00000000, 0x00000000⟩,
  ⟨"GLB_DBG_NONCE", 0x00000090, 4, 0x4, 1, 0x0, .ro, 0x00000000, 0x00000000⟩,
  ⟨"GLB_RES_A", 0x00000100, 8, 0x8, 1, 0x0, .ro, 0x00000000, 0x00000000⟩,
  ⟨"GLB_RES_B", 0x00000104, 8, 0x8, 1, 0x0, .ro, 0x00000000, 0x00000000⟩,
  ⟨"GLB_VIOL", 0x00000400, 7, 0x20, 8, 0x4, .rc, 0x00000000, 0x00000000⟩,
  ⟨"GLB_LOG_STATUS", 0x00000500, 1, 0x0, 1, 0x0, .ro, 0x00000000, 0x00000000⟩,
  ⟨"GLB_LOG_LOST", 0x00000504, 1, 0x0, 1, 0x0, .rc, 0x00000000, 0x00000000⟩]

/-- Register rows of FLD. -/
def regRowsFLD : List RegRow := [
  ⟨"FLD_STATUS", 0x03000000, 8, 0x10000, 1, 0x0, .ro, 0x00000000, 0x00000000⟩]

/-- The rows of the block an address lies in (R459). -/
def regRowsAt (a : Nat) : List RegRow :=
  match a / 0x10000 with
  | 0x01 => regRowsPWR
  | 0x02 => regRowsWRP
  | 0x07 => regRowsSYN
  | 0x09 => regRowsSKN
  | 0x0A => regRowsFFT
  | 0x0B => regRowsDPD
  | 0x08 => regRowsRAD
  | 0x03 => regRowsNVS
  | 0x0D => regRowsLNE
  | 0x0C => regRowsFHP
  | 0x0E => regRowsTIM
  | 0x0F => regRowsCAS
  | 0x10 => regRowsACQ
  | 0x12 => regRowsDRC
  | 0x11 => regRowsDMA
  | 0x05 => regRowsHKA
  | 0x06 => regRowsBDA
  | 0x04 => regRowsTHM
  | 0x00 => regRowsGLB
  | n =>
    if 0x200 ≤ n ∧ n < 0x240 then regRowsPTH
    else if 0x300 ≤ n ∧ n < 0x308 then regRowsFLD
    else []

/-- The register row of an address, none at a reserved address (R9). -/
def findRow (a : Nat) : Option RegRow := (regRowsAt a).find? (·.holds a)

/-- The value the Reset column gives the register at an address (R12); ACQ_STREAM_BASE[s] has a value per stream. -/
def regReset (a : Nat) : Word :=
  if a / 0x10000 = 0x10 ∧ 0x10C ≤ a % 0x10000 ∧ a % 0x10000 < 0x200 ∧ (a - 0x10C) % 0x40 = 0 then
    BitVec.ofNat 32 ((a % 0x10000 - 0x10C) / 0x40 * 0x01000000)
  else
    match findRow a with
    | some r => BitVec.ofNat 32 r.reset
    | none => 0

/-- An always-on register (R68): it keeps its value through stage 1 entry and Sentinel. -/
def isAlwaysOn (a : Nat) : Bool := decide (0x00010100 ≤ a) && decide (a < 0x00010200)

end Sys2Proof.Machine
end

