-- ==== Sys2Proof/Config.lean ====
section
/-!
DEFINITION. The values the spec leaves open, as opaque constants: nothing can be proved of any of them, so a statement holds
whatever they are. Each is named in the assumption log.
-/

namespace Sys2Proof

/-- The byte that pattern 0, 1 or 2 of R362 puts at an address, for a pattern, a seed and the base address. -/
opaque Config.patternByte : Nat → Nat → Nat → Nat → BitVec 8

/-- The source samples stored of a segment that ends early, by the draw counter (R343). -/
opaque Config.abortedSamples : Nat → List Cplx

/-- The output of the half-band stages of a monitor chain for `n` stages, a SHIFT word and the DC-blocked input, with the
number of saturated samples; R346 gives their response, not their taps. -/
opaque Config.monitorFilter : Nat → BitVec 32 → List Cplx → List Cplx × Nat

/-- The flat-top window of the FFT engines, Q1.23, for a size and an index; R175 names it and gives no coefficients. -/
opaque Config.flatTop : Nat → Nat → Int

/-- The code of a stacked command that a missing vote abandons, for the block that asked; R324 gives one for WRP only. -/
opaque Config.noVoteCode : Nat → BitVec 8

/-- The SCLK cycles of an RFFE frame of a type and byte count, up to the last edge before bus park; R218 names MIPI RFFE v2.1 and
gives no frame. -/
opaque Config.rffeCycles : Nat → Nat → Nat

/-- Where a cadence slip falls, by the draw counter: on the uplink side, and the path, or the layer modulo 32 (R20 tells of one without
saying whose; the command has no operand for it). -/
opaque Config.slipped : Nat → Bool × Fin 64

/-- A challenge of the device's random source, by the draw counter (R222, R456). -/
opaque Config.challenge : Nat → BitVec 128

/-- The path-rate samples of a downlink layer, shifted, filtered and resampled, for the carrier (bandwidth and centre), the LO word,
the level, the carrier-rate samples before these and these; R151 and R259 give the response, not the filter. -/
opaque Config.fronthaulDl : List Nat → List Cplx → List Cplx → List Cplx

/-- The carrier-rate samples of an uplink layer, with the same arguments, from its path-rate samples. -/
opaque Config.fronthaulUl : List Nat → List Cplx → List Cplx → List Cplx

/-- The fixed filters of Table 4-3 (R107). -/
inductive Fir where
  | interp1
  | interp2
  | invSinc
  | txDelay
  | decim
  | rxDelay
  deriving DecidableEq, Repr, Inhabited

/-- One output sample of a fixed filter, for what sets its coefficients and its window of samples, newest first; Table 4-3 gives the
responses, not the coefficients or the arithmetic. -/
opaque Config.fir : Fir → List Int → List Cplx → Cplx

/-- The rate correction that a servo takes for an offset, by the draw counter; R289 and R317 bound it and give no law. -/
opaque Config.servoRate : Nat → Int → Int

/-- The margin in 0.1 % that a level would have once VCORE is at its ceiling, from the margin and VCORE now, the level now and the
new one; R58 names the prediction and gives no law. -/
opaque Config.marginAtCeiling : Int → Nat → Nat → Nat → Int

/-- The words of GLB_SERIAL from the identity area of the store, high or low; Table 16-1 names the serial number and gives it no
offset. -/
opaque Config.serialWord : Bool → List (BitVec 8) → BitVec 32

/-- The address logged for a frame whose address bytes are not complete, by the draw counter (R440, R455). -/
opaque Config.partialAddress : Nat → BitVec 32

/-- The next source sample after a FORCE that comes by register: its distance from now in time units, and the source samples since
filling started, by the draw counter (R336). -/
opaque Config.forceHit : Nat → Nat × Nat

/-- The observed signal of a block aligned to the predistorter's output, in integer samples and a fraction to 1/64 sample, from both
(R196 names the alignment and gives neither its search nor its filter). -/
opaque Config.obsAlign : List Cplx → List Cplx → List Cplx

/-- NMSE of a block whose gain estimate or whose input is zero, for which R197's formula gives no value. -/
opaque Config.openNmse : ObsBlock → Int

/-- What the solver finds (R196) from the rows of its blocks, each with its gain as a fraction, M, C, the presence of the two
neighbours, LAMBDA and the old coefficients: the minimiser, and the least and the greatest diagonal magnitude of the triangular factor.
R196 says what is minimised and gives no arithmetic. -/
opaque Config.leastSquares : List (ObsBlock × Cplx × Nat) → Nat → Nat → Bool → Bool → Nat → List Cplx → List Cplx × Nat × Nat

/-- The reflection coefficient of a survey step whose denominator is zero, in Q1.23 (R199 gives none). -/
opaque Config.openGamma : Cplx → Cplx

/-- The floor of a survey's profile, as a squared magnitude, from those of its bins (R201 names it and does not define it). -/
opaque Config.profileFloor : List Nat → Nat

/-- How far a bring-up has come (R239), from its TB1 start and the TB1 time of the reading: no event tells of the steps between the first
and the last. -/
opaque Config.stepReached : Nat → Nat → Nat

/-- LNE_SKEW for a skew in ps that its 16 bits cannot hold (R242). -/
opaque Config.skewOver : Nat → BitVec 16

end Sys2Proof
end

