-- ==== Sys2Proof/Machine/State.lean ====
section
/-!
DEFINITION. The state of the device: every register, buffer, queue, mode and pin the spec gives it, as plain data, and the
queue of commands that wait. Structures are grouped by the chapters of the spec; a structure's default field values are
its values at reset.
-/

namespace Sys2Proof.Machine

/-! ### Fuses, pins and time -/

/-- Ordering codes of Table 0-1 (R1, R5). -/
inductive Order where
  | sb | sc | xf
  deriving DecidableEq, Repr, Inhabited

/-- What is fused at manufacture: the ordering code (R5), the integrator key hash (R73) and the Birelo firmware key
hash (R447), 32 bytes each. -/
structure Fuse where
  order : Order := .xf
  keyHash : List Byte := List.replicate 32 0
  fwKeyHash : List Byte := List.replicate 32 0
  deriving DecidableEq, Repr, Inhabited

/-- What stands outside the blocks: RST_N low (R41), the straps CASC_ID (R308), and whether JTAG is unlocked (R456). -/
structure Pins where
  rstLow : Bool := false
  cascId : Nat := 0
  jtagUnlocked : Bool := false
  deriving DecidableEq, Repr, Inhabited

/-- The time bases (R284…R287), all counted in units of 2^−16/3 ns: one tick is 400,000 units. `aon` is the
always-on timer since VSEN rose; TB2 equals TB0 (R284) and is stored with it; TB3 is TB0 plus `tb3off` while decoupled. -/
structure Time where
  aon : Nat := 0
  tb1 : Nat := 0
  tb0 : Nat := 0
  tb0frac : Int := 0
  tb3off : Int := 0
  tb3coupled : Bool := true
  stepped : Bool := false
  deriving DecidableEq, Repr, Inhabited

/-! ### Staging buffers, log, store -/

/-- A staging buffer of R443: the words staged, oldest first, and the overflow mark. -/
structure Staging where
  words : List Word := []
  overflow : Bool := false
  deriving DecidableEq, Repr, Inhabited

/-- One entry of the shared log (Table 17-3), with the mark that a read has returned a word of it (R34). -/
structure LogEntry where
  tu : Nat
  timeS : Nat
  timeNs : Nat
  kind : Nat
  index : Nat
  cls : Nat
  event : Bool
  tb1 : Bool
  rep : Nat
  seq : Nat
  detail : Word
  read : Bool
  deriving DecidableEq, Repr, Inhabited

/-- An operation on the boot flash (R448). -/
inductive FlashOp where
  | read | program | erase | verify
  deriving DecidableEq, Repr, Inhabited

/-- The flash operation that runs. -/
structure FlashRun where
  op : FlashOp
  slot : Nat
  deriving DecidableEq, Repr, Inhabited

/-- State of the management block: the shared log (R34, R453), newest entry first; the staging buffer of the debug
unlock and its challenge (R456); the flash and its page buffer (R446, R448); the failures of parts detected so far, which order the
engagements (R25); and of the SPI port whether the previous frame broke R440 or R441 (R444), and the bytes it sent on MISO. -/
structure Glb where
  log : List LogEntry := []
  logHead : Nat := 127
  logSeq : Nat := 0
  dbg : Staging := {}
  dbgNonce : Nat := 0
  flash : Tab Byte := []
  flashBuf : Tab Byte := []
  flashRun : Option FlashRun := none
  engagements : Vector Nat 8 := Vector.replicate 8 0
  detected : Nat := 0
  spiBroke : Bool := false
  spiOut : List Byte := []
  deriving DecidableEq, Repr, Inhabited

/-- What a reserve row of the store does (R412, R413). -/
inductive RowUse where
  | free
  | serves (row : Nat)
  | retired
  deriving DecidableEq, Repr, Inhabited

/-- Who asked for a record write (R417, R423, R222, R421, R422, R428, R436); a reserve-map write carries the reserve kinds whose
RESERVE_ENGAGED waits for it (R421). -/
inductive WriteFrom where
  | recPort | pastPort | reserveMap (kinds : List Nat) | shutdown | path (p : Nat) | dpd (p r : Nat)
  deriving DecidableEq, Repr, Inhabited

/-- A record write that waits or runs: the record's base address, slot pitch, TYPE and body (R417). -/
structure StoreWrite where
  origin : WriteFrom
  base : Nat
  pitch : Nat
  type : Nat
  body : List Byte := []
  deriving DecidableEq, Repr, Inhabited

/-- A calibration request (R433). -/
structure CalReq where
  id : Nat
  groups : Nat
  force : Bool
  tag : Nat
  drover : Bool := false
  longSaid : Bool := false
  deriving DecidableEq, Repr, Inhabited

/-- State of the calibration store and of calibration. The store's bytes are held by store address, wherever a row
remap puts them (R412). `calRun` is the request whose interval is booked, and `calOn` says that it runs, since `calBegan` in TB1; before `calRest` the pause of
R404 lasts; `arrayAt` is the TB1
time of the last ARRAY (R435). `mapTaken` says that power-up calibration has set the converters from the reserve map (R119), and
`changed` marks the path records a calibration changed (R428). -/
structure Nvs where
  store : Tab Byte := []
  rows : Vector RowUse 64 := Vector.replicate 64 .free
  rowRetired : Nat := 0
  writes : List StoreWrite := []
  running : Bool := false
  powerFail : Bool := false
  recStage : Staging := {}
  recBusy : Bool := false
  pastStage : Staging := {}
  pastBusy : Bool := false
  pastNonce : Nat := 0
  calQueue : List CalReq := []
  calRun : Option CalReq := none
  calOn : Bool := false
  calBegan : Nat := 0
  calRest : Nat := 0
  arrayAt : Nat := 0
  calTag : Nat := 0
  mapTaken : Bool := false
  powerUpDone : Bool := false
  changed : List Nat := []
  deriving DecidableEq, Repr, Inhabited

/-! ### Staged start and power -/

/-- The power states of Table 2-8 from stage 3 on. -/
inductive PState where
  | idle | service | doze
  deriving DecidableEq, Repr, Inhabited

/-- Why a rail was asked for a voltage (R42, R46, R57, R58, R61, R62, R60). -/
inductive RailWhy where
  | climb | pl0 | trim | levelUp | levelDown | levelBack | sleepVcore | sleepBack | dozeExit
  deriving DecidableEq, Repr, Inhabited

/-- An outstanding rail request (R49): voltage, attempts made, whether an attempt read a fault bit, whether the 1 ms
retry spacing runs. -/
structure RailReq where
  mv : Nat
  why : RailWhy
  attempts : Nat := 1
  sawFault : Bool := false
  waiting : Bool := false
  deriving DecidableEq, Repr, Inhabited

/-- A supply rail: its request, whether it is acknowledged, the VOUT_MODE exponent read at its first request (R53), the LINEAR16
mantissa last commanded and the last telemetry (READ_VOUT, READ_IOUT). DESIGN CHOICE, log entry 4: at reset the exponent has been read as
−12, the value of R53's example. -/
structure Rail where
  req : Option RailReq := none
  acked : Bool := true
  modeRead : Bool := true
  exp : Int := -12
  mantissa : Nat := 0
  vout : Nat := 0
  iout : Nat := 0
  deriving DecidableEq, Repr, Inhabited

/-- Where the climb from stage 0 to stage 1 stands (R42, R43). -/
inductive Climb where
  | none
  | rails (group : Nat)
  | refCount (b : Bool)
  | refLock (b : Bool)
  | refOk
  deriving DecidableEq, Repr, Inhabited

/-- What a sleep sequence was asked for (R61, R48). -/
inductive SleepReq where
  | doze | sentinel | safe
  deriving DecidableEq, Repr, Inhabited

/-- A running sleep sequence: its request, its first step (11 from Doze and below stage 3), the step of Table 2-9 that runs or waits,
VCORE when it began, and the BLOCK and CODE of a refusal whose rollback waits for VCORE (R62). -/
structure Sleep where
  req : SleepReq
  first : Nat
  step : Nat
  mv : Nat
  refusing : Option (Nat × Nat) := .none
  deriving DecidableEq, Repr, Inhabited

/-- Where a level change stands (R58): VCORE rising before the change point, waiting for a change point, VCORE falling after it,
waiting for the change point that restores the old cadence, or VCORE on its way back before the refusal. -/
inductive LevelPhase where
  | raise | point | lower | restore | back
  deriving DecidableEq, Repr, Inhabited

/-- A level change in progress: the new level, the old level and VCORE that a refusal restores, and the refusal's code. -/
structure LevelChange where
  new : Nat
  old : Nat
  oldMv : Nat
  phase : LevelPhase
  code : Nat := 0
  deriving DecidableEq, Repr, Inhabited

/-- State of the PWR block beside its registers: stage 0…4 (R35), Off (R40), climb, rails, sleep
sequence, level change and cadence margin (R21, R57). `target` is TARGET below stage 3, `resumed` the highest stage whose hold CLIMB has
ended and `shlHold` the hold at stage 1 (R46, R48); `least` is the least margin since PWR_MARGIN was read. -/
structure Pwr where
  off : Bool := false
  stage : Nat := 1
  target : Nat := 1
  resumed : Nat := 0
  shlHold : Bool := false
  climb : Climb := .none
  fwOk : Bool := false
  level : Nat := 0
  vcore : Nat := 800
  marginLow : Bool := false
  waitReports : Nat := 0
  monitors : Vector (Option Int) 32 := Vector.replicate 32 none
  monInService : Vector Bool 32 := Vector.replicate 32 false
  margin : Option Int := none
  least : Option Int := none
  change : Option LevelChange := none
  sleep : Option Sleep := none
  leavingDoze : Bool := false
  leaving4 : Bool := false
  rails : Vector Rail 8 := Vector.replicate 8 {}
  wakeAt : Option Nat := none
  deriving DecidableEq, Repr, Inhabited

/-! ### The warp -/

/-- FOLD entry (R76). -/
structure FoldCfg where
  enable : Bool := false
  txLo : Nat := 0
  rxLo : Nat := 0
  lines : Nat := 0
  deriving DecidableEq, Repr, Inhabited

/-- PATH entry (R77); neighbours as written. -/
structure PathCfg where
  txEn : Bool := false
  rxEn : Bool := false
  dpdEn : Bool := false
  group : Nat := 0
  nbrA : Nat := 0xFF
  nbrB : Nat := 0xFF
  deriving DecidableEq, Repr, Inhabited

/-- CARRIER entry (Table 3-3): bandwidth in 10 kHz, centre in kHz, BACKOFF in 0.01 dB. -/
structure Carrier where
  format : Nat
  bw : Nat
  centre : Nat
  scs : Nat
  cp : Nat
  groups : Nat
  lo : Nat
  backoff : Int
  deriving DecidableEq, Repr, Inhabited

/-- LAYER entry (R79). -/
structure LayerCfg where
  carrier : Nat
  port : Nat
  eaxc : Nat
  deriving DecidableEq, Repr, Inhabited

/-- FLOCK entry (Table 3-4). -/
structure FlockCfg where
  cls : Nat
  guarDl : Nat
  guarUl : Nat
  carriers : Nat
  guarBw : Nat
  defer : Nat
  quar : Nat
  mac : Nat
  vlan : Nat
  ports : Nat
  deriving DecidableEq, Repr, Inhabited

/-- SKEIN_PARTITION entry (R81). -/
structure Partition where
  ul : Bool
  index : Nat
  owner : Nat
  first : Nat
  count : Nat
  deriving DecidableEq, Repr, Inhabited

/-- MONITOR entry (R82). -/
structure MonCfg where
  n : Nat := 4
  dcOn : Bool := true
  dcFreeze : Bool := false
  member : Nat := 0xFF
  deriving DecidableEq, Repr, Inhabited

/-- CAPTURE entry (R83). -/
structure CaptureCfg where
  count : Nat
  segLen : Nat
  pre : Nat
  streams : Nat
  minMax : Bool
  deriving DecidableEq, Repr, Inhabited

/-- CASCADE entry (R84). -/
structure CascadeCfg where
  role : Nat
  index : Nat
  size : Nat
  mode : Nat
  stackId : Nat
  deriving DecidableEq, Repr, Inhabited

/-- BIAS entry (R85). -/
structure BiasCfg where
  span : Nat := 0
  enable : Bool := false
  vmin : Nat := 0
  vmax : Nat := 0
  imin : Nat := 0
  imax : Nat := 0
  deriving DecidableEq, Repr, Inhabited

/-- A whole structure, as the records of a warp give it (R75), with the bytes of each record by TYPE (R315). -/
structure Structure where
  id : Nat := 0
  rev : Nat := 0
  region : Nat := 0
  pmaxPath : Int := 0
  pmaxAgg : Int := 0
  folds : Vector FoldCfg 8 := Vector.replicate 8 {}
  paths : Vector PathCfg 64 := Vector.replicate 64 {}
  carDl : Vector (Option Carrier) 4 := Vector.replicate 4 none
  carUl : Vector (Option Carrier) 4 := Vector.replicate 4 none
  layDl : Vector (Option LayerCfg) 32 := Vector.replicate 32 none
  layUl : Vector (Option LayerCfg) 32 := Vector.replicate 32 none
  flocks : Vector (Option FlockCfg) 8 := Vector.replicate 8 none
  parts : List Partition := []
  monitors : Option (Vector MonCfg 8) := none
  capture : Option CaptureCfg := none
  cascade : Option CascadeCfg := none
  bias : Vector BiasCfg 72 := Vector.replicate 72 {}
  records : List (Nat × List Byte) := []
  deriving DecidableEq, Repr, Inhabited

/-- A load in progress (R86): the structure it places, whether it is partial, the fibres placed for it, and its PHASE (Table 3-7). -/
structure Load where
  new : Structure
  partialLoad : Bool
  placed : Nat
  phase : Nat
  deriving DecidableEq, Repr, Inhabited

/-- Where a handover stands (R96, R97). -/
inductive HandPhase where
  | queued | shadow | moving | converting
  deriving DecidableEq, Repr, Inhabited

/-- A weaver job (R95): a load, a reweave, or the handover of a failed spindle and the layers with work on it; `onto` is the reserve
it shadows on, none for free fibres (R97). -/
inductive Job where
  | load
  | reweave
  | handover (spindle : Nat) (layers : List (Bool × Nat)) (phase : HandPhase) (onto : Option Nat)
  deriving DecidableEq, Repr, Inhabited

/-- State of the WRP block: staging buffer (R443), load in progress, committed structure, weaver jobs (the head runs),
layers in fall-back (R99), retired spindles by index (R96, Table 16-7). -/
structure Wrp where
  stage : Staging := {}
  load : Option Load := none
  active : Option Structure := none
  jobs : List Job := []
  fallDl : Nat := 0
  fallUl : Nat := 0
  withdrawnDl : Nat := 0
  withdrawnUl : Nat := 0
  spRetired : Nat := 0
  miscompares : Nat := 0
  deriving DecidableEq, Repr, Inhabited

/-! ### Paths -/

/-- A converter part that has failed and waits (R116, R121): its position or segment, whether the failure is gross, and its number in the
order in which the device detected the failures (R25). -/
structure ConvFail where
  pos : Nat
  gross : Bool := false
  seq : Nat := 0
  deriving DecidableEq, Repr, Inhabited

/-- One ADC of a path (R113…R118): physical sub-converter per position, the spare, shadowing, the positions being filled, failed positions
waiting for a swap in order of detection (R25), the corrections that the spare has learned of each position (R116), and the corrections
of the nine sub-converters. `pos` holds one nibble per position, `filling` one bit. -/
structure Adc where
  pos : Nat := 0x76543210
  spare : Nat := 8
  retired : Nat := 0
  ready : Bool := false
  shadow : Nat := 0
  passes : Nat := 0
  bad : Nat := 0
  filling : Nat := 0
  failed : List ConvFail := []
  learned : Tab (Int × Int × Int) := []
  corr : Tab (Int × Int × Int) := []
  deriving DecidableEq, Repr, Inhabited

/-- One DAC of a path (R120…R123): the unary positions in which the reserves stand (0x3F free), reserves left,
segments retired, and failed segments waiting for their swap. -/
structure Dac where
  stands : Vector Nat 4 := Vector.replicate 4 0x3F
  left : Nat := 4
  retired : Nat := 0
  failed : List ConvFail := []
  deriving DecidableEq, Repr, Inhabited

/-- State of a path beside its registers (chapter "Transmit and receive paths"): attenuations and trims in force,
host mute and receive zero in force, the mutes that hold until the next group boundary (R126), over-current recovery
(R127), latched faults (R125) and the weight masks they leave (R159), converters, licence attenuation (R225…R227), and what
calibration leaves (R424, R429, R435): IQ gain, IQ phase and DC of each direction, filter codes, whether a trim came from a seed,
the zone temperature of the last run, and the TB1 time of the last path record written. -/
structure PathSt where
  txAtten : Nat := 0x7F
  rxAtten : Nat := 0x1E
  txTrim : Int := 0
  rxTrim : Int := 0
  satTx : Bool := false
  satRx : Bool := false
  hostMute : Bool := false
  rxZero : Bool := false
  stageMute : Bool := true
  muted : Bool := true
  zeroed : Bool := false
  ocp : Bool := false
  ocpTimes : List Nat := []
  clearOcp : Bool := false
  txFault : Nat := 0
  rxFault : Nat := 0
  txFaultNext : Nat := 0
  rxFaultNext : Nat := 0
  overload : Bool := false
  adcI : Adc := {}
  adcQ : Adc := {}
  dacI : Dac := {}
  dacQ : Dac := {}
  dacBinary : Bool := false
  licAtten : Nat := 0
  maskTx : Bool := false
  maskRx : Bool := false
  licEst : Int := 0
  calTx : List Int := [0, 0, 0, 0]
  calRx : List Int := [0, 0, 0, 0]
  filter : List Int := [0, 0, 0, 0, 0, 0]
  seedTx : Bool := true
  seedRx : Bool := true
  calTemp : Int := 0
  recAt : Option Nat := none
  licQuietSince : Nat := 0
  deriving DecidableEq, Repr, Inhabited

/-! ### Synthesisers -/

/-- An RF synthesiser unit (R131, R135…R146): power, lock, retirement, calibration, tuning, and the TB1 times of its
losses of lock. `bands` is the VCO band stored for a frequency word (R145), `calTemp` the synthesis zone's temperature at the last
calibration (R146). -/
structure SynUnit where
  on : Bool := false
  locked : Bool := false
  retired : Bool := false
  cal : Bool := false
  needCal : Bool := false
  vtune : Int := 0
  div : Nat := 0
  n : Nat := 0
  f : Nat := 0
  band : Nat := 0
  search : Bool := false
  losses : List Nat := []
  bands : List ((Nat × Nat × Nat) × Nat) := []
  calTemp : Int := 0
  deriving DecidableEq, Repr, Inhabited

/-- An LO role (R138…R147): the unit that holds it, whether carriers use it, its frequency word, loss, latch, and the
calibration and swap that wait or run. `resume` names the groups that resume at their next boundary. -/
structure SynRole where
  unit : Nat
  used : Bool := false
  div : Nat := 0
  n : Nat := 0
  f : Nat := 0
  lost : Bool := false
  latched : Bool := false
  arm : Bool := false
  resume : Nat := 0
  calWait : Bool := false
  calForce : Bool := false
  swapWait : Bool := false
  swapForce : Bool := false
  swapRun : Bool := false
  swapUnit : Nat := 0
  waitLong : Bool := false
  survey : Bool := false
  deriving DecidableEq, Repr, Inhabited

/-- State of the SYN block beside its registers: `active` is 0 REF_A, 1 REF_B or 2 none; `rotTx` and `rotRx` are the
present rotator words and `tgtTx`, `tgtRx` those they slew to (R149). -/
structure Syn where
  units : Vector SynUnit 3 := Vector.replicate 3 {}
  roles : Vector SynRole 2 := #v[{ unit := 0 }, { unit := 1 }]
  reserve : Nat := 2
  active : Nat := 0
  cnvLock : Bool := false
  holdover : Bool := false
  refGone : Bool := false
  cnvInvalid : Bool := false
  cnvLatched : Bool := false
  cnvArm : Bool := false
  cnvResume : Nat := 0
  aValid : Bool := false
  bValid : Bool := false
  tbLock : Bool := false
  rotTx : Vector Nat 8 := Vector.replicate 8 0
  rotRx : Vector Nat 8 := Vector.replicate 8 0
  tgtTx : Vector Nat 8 := Vector.replicate 8 0
  tgtRx : Vector Nat 8 := Vector.replicate 8 0
  failedFirst : List Nat := []
  deriving DecidableEq, Repr, Inhabited

/-! ### Arbiters (R26…R30) -/

/-- A resource that has an arbiter (R30): a carrier or a layer slot of a direction, a skein pool partition by its place in the warp, the
time slots of an observation receiver, an FFT engine, a capture stream, and the pool of free spindles. -/
inductive Resource where
  | carrier (ul : Bool) (c : Nat)
  | slot (ul : Bool) (l : Nat)
  | obs (o : Nat)
  | fft (e : Nat)
  | stream (st : Nat)
  | spindles
  | pool (i : Nat)
  deriving DecidableEq, Repr, Inhabited

/-- Holders of an observation receiver (R190). -/
inductive ObsHolder where
  | capture (s : Nat)
  | survey (p : Nat)
  | cal
  deriving DecidableEq, Repr, Inhabited

/-- A request for a receiver or a stream: its requester identity (Table 1-6), the epoch in which it was complete, whether it lost a tie
and stands in the queue of 4 with its limit in TB1 (R29), and for a receiver who will hold it. -/
structure Ask where
  id : Nat
  epoch : Nat
  tied : Bool := false
  until_ : Nat := 0
  who : ObsHolder := .cal
  deriving DecidableEq, Repr, Inhabited

/-! ### Beamformer -/

/-- Who makes a request that flocks and host software can both make. -/
inductive Requester where
  | host
  | flock (k : Nat)
  | solver
  | bellwether
  deriving DecidableEq, Repr, Inhabited

/-- A swap request of a banked set (R163, R187): who asked through which port, its tag, the skein or page to load, the ply
exponent (0 hard), the profile, the alignment, the ball time aimed at (none for an immediate request), the TB0 time at which it
was complete, the zero-trim port times of the start sample aimed at and of the one it will start at, whether it starts at the samples it
aimed at, and the offsets of the paths' start samples that a ply it waited for leaves it (R170). -/
structure SwapReq where
  who : Requester
  port : Nat := 0
  tag : Nat
  source : Nat
  ply : Nat
  raised : Bool
  aim : Option Int
  doneAt : Nat
  aimAt : Int
  start : Int
  onTime : Bool := true
  behind : List Int := []
  deriving DecidableEq, Repr, Inhabited

/-- A swap under way on the paths (R169): the length of its ply (0 for a hard swap), its profile, the zero-trim port time of its start
sample, and per path the offset of the path's own start sample from it, in samples. -/
structure PlyRun where
  len : Nat
  raised : Bool
  start : Int
  offs : List Int
  deriving DecidableEq, Repr, Inhabited

/-- A bank of a layer slot: its pointer and the weights of its last load; a path beyond the list has weight 0 (R156). -/
structure Bank where
  ptr : Nat := 0
  w : List Cplx := []
  deriving DecidableEq, Repr, Inhabited

/-- A layer slot (R156, R157, R170): its holder while served, its banks, the active bank (B when true), the last swap while it is under
way on some path, and the one pending request. -/
structure Slot where
  holder : Option Nat := none
  a : Bank := {}
  b : Bank := {}
  activeB : Bool := false
  ply : Option PlyRun := none
  pend : Option SwapReq := none
  deriving DecidableEq, Repr, Inhabited

/-- A swap report (R173). -/
structure SwapReport where
  outcome : Nat
  ul : Bool
  layer : Nat
  flock : Option Nat
  tag : Nat
  start : Int
  late : Nat
  byTag : Nat
  deriving DecidableEq, Repr, Inhabited

/-- A write to a banked memory within the last 64 ns of TB1: its time, window, offset and the bytes it replaced (R155). -/
structure RecentWrite where
  at_ : Nat
  ul : Bool
  off : Nat
  old : List Byte
  deriving DecidableEq, Repr, Inhabited

/-- State of the SKN block: skein memories by offset in their window (R152) with their newest writes, the layer slots, the host
tag counter and the host report queue. -/
structure Skn where
  dl : Tab Byte := []
  ul : Tab Byte := []
  recent : List RecentWrite := []
  slotsDl : Vector Slot 32 := Vector.replicate 32 {}
  slotsUl : Vector Slot 32 := Vector.replicate 32 {}
  tag : Nat := 0
  reports : List SwapReport := []
  deriving DecidableEq, Repr, Inhabited

/-- An FFT job: its registers at submission and its tag (R177, R180), with its requester's identity and the epoch of its submission
(R28); once it runs, its input, the TB3 time of the first sample of a monitor-chain source, and whether it met FAILED capture memory
(R178). -/
structure FftJob where
  cfg : Word
  src : Word
  dst : Word
  tag : Nat
  id : Nat := 8
  epoch : Nat := 0
  input : List Cplx := []
  first : Nat := 0
  dram : Bool := false
  deriving DecidableEq, Repr, Inhabited

/-- An FFT engine: queue of up to 4 jobs, the job running outside it, tag counter (R177), and in TB1 the start of its job and the end
of the pause after it (R404). -/
structure FftEngine where
  queue : List FftJob := []
  run : Option FftJob := none
  tag : Nat := 0
  began : Nat := 0
  rest : Nat := 0
  deriving DecidableEq, Repr, Inhabited

/-! ### Predistortion -/

/-- A predistorter bank (R187): the page it was loaded from and its 396 entries, none for identity. -/
structure DBank where
  page : Nat := 0
  coef : Option (List Cplx) := none
  deriving DecidableEq, Repr, Inhabited

/-- Where the adaptation of a path stands (R194…R198): blocks collected, and blocks discarded in a row. -/
inductive Adapt where
  | idle
  | collecting (good bad : Nat)
  | queued
  | solving
  | swapping
  | verifying (bad : Nat)
  deriving DecidableEq, Repr, Inhabited

/-- State of a path's predistorter (R187) and of its adaptation: the TB1 times at which it became due, from which its period counts
(R194), at which its last solve started and was completed and its record was last written, DPD_CFG as the attempt took it, the blocks it
has collected, whether an UPDATED result waits for its record (R436), and the NMSE of the last block before the swap. -/
structure DpdPath where
  a : DBank := {}
  b : DBank := { page := 1 }
  activeB : Bool := false
  ply : Option PlyRun := none
  pend : Option SwapReq := none
  adapt : Adapt := .idle
  due : Nat := 0
  solveAt : Nat := 0
  dueFrom : Nat := 0
  doneAt : Nat := 0
  cfg : Word := 0
  blocks : List ObsBlock := []
  lastNmse : Int := 0
  recordAt : Option Nat := none
  fresh : Bool := false
  deriving DecidableEq, Repr, Inhabited

/-- An observation receiver (R190…R193): holder, the request that has won it and waits for a visit to end, last member visited, and
the requests that wait. -/
structure Obs where
  holder : Option ObsHolder := none
  won : Option Ask := none
  last : Nat := 7
  wait : List Ask := []
  deriving DecidableEq, Repr, Inhabited

/-- A feeder survey in progress (R199, R200): its path, the role it retunes, DPD_SURVEY_BAND and DPD_SURVEY_CFG when it was asked for, and
whether the receiver has been granted. -/
structure Survey where
  path : Nat
  role : Nat
  band : Word
  cfg : Word
  granted : Bool := false
  deriving DecidableEq, Repr, Inhabited

/-- State of the DPD block: coefficient memory by offset from 0x0400_0000 (R186) with its newest writes, predistorters,
observation receivers, solver with the TB1 time before which it pauses (R404), and surveys in order of acceptance. -/
structure Dpd where
  coef : Tab Byte := []
  recent : List RecentWrite := []
  paths : Vector DpdPath 64 := Vector.replicate 64 {}
  obs : Vector Obs 8 := Vector.replicate 8 {}
  solver : Option Nat := none
  queue : List Nat := []
  solves : List Nat := []
  rest : Nat := 0
  tag : Nat := 0
  surveys : List Survey := []
  deriving DecidableEq, Repr, Inhabited

/-! ### Radio control -/

/-- Group states of Table 8-1. -/
inductive GState where
  | off | standby | rx | tx | guard | cal
  deriving DecidableEq, Repr, Inhabited

/-- A burst accepted and not yet ended (R208): who asked through which port, its tag, direction, start in TB0, length in time
units, return state and order of acceptance; whether its preparation has begun and whether it runs; the time at which it is cut
and the code of the cut (R210, R212), whether that has been reported, and the TB0 time at which its request was complete. -/
structure Burst where
  who : Requester
  port : Nat := 0
  tag : Nat
  tx : Bool
  start : Nat
  len : Nat
  ret : GState
  seq : Nat
  prep : Bool := false
  started : Bool := false
  cut : Option Nat := none
  code : Nat := 0
  said : Bool := false
  doneAt : Nat := 0
  deriving DecidableEq, Repr, Inhabited

/-- A path group (R203…R211): its state, a transition in progress with the TB0 times at which it is complete and at which it has
passed STANDBY, the state that follows when it passes STANDBY (R205), the state it returns to while no burst holds it, a command that waits for the end of CAL (R434), its bursts in
order of acceptance, whether it is FDD, whether it goes to OFF at its next boundary (R207), the TB1 time since which it is in TX,
the TB0 times at which its last TX, RX and CAL windows ended (R215), the TB0 time since which it is in RX and the times it lately was
(R264), and whether a carrier of it is not permitted (R224). -/
structure Group where
  state : GState := .off
  trans : Option GState := none
  transAt : Nat := 0
  readyAt : Nat := 0
  then_ : Option GState := none
  ret : GState := .off
  cmd : Option GState := none
  bursts : List Burst := []
  fdd : Bool := false
  toOff : Bool := false
  txSince : Option Nat := none
  txEnd : Option Nat := none
  rxEnd : Option Nat := none
  rxSince : Option Nat := none
  rxSpans : List (Nat × Nat) := []
  calEnd : Option Nat := none
  licRange : Bool := false
  deriving DecidableEq, Repr, Inhabited

/-- An RFFE command (R218, R219): the command word, its write bytes, its air time when timed. -/
structure RffeCmd where
  cmd : Word
  wdata : Word
  air : Option Nat
  deriving DecidableEq, Repr, Inhabited

/-- An RFFE bus: the frame on it, the immediate commands that wait, the timed queue by air time, and whether the head of the
queue is late (R219). -/
structure Rffe where
  run : Option RffeCmd := none
  imm : List RffeCmd := []
  queue : List RffeCmd := []
  late : Bool := false
  deriving DecidableEq, Repr, Inhabited

/-- A burst report (R213). -/
structure BurstReport where
  outcome : Nat
  tx : Bool
  group : Nat
  code : Nat
  tag : Nat
  start : Nat
  deriving DecidableEq, Repr, Inhabited

/-- The pasture record in force (Table 8-5). -/
structure Pasture where
  seq : Nat
  region : Nat
  surveyAllow : Bool
  pmaxPath : Int
  pmaxAgg : Int
  dutyMax : Nat
  gext : Int
  ranges : List (Nat × Nat)
  bytes : List Byte
  deriving DecidableEq, Repr, Inhabited

/-- State of the RAD block beside its registers: groups, tags, host reports, TX time done in TB1 (R228), CAL intervals
booked on groups (R434), licence enforcement, timed lines (active lines by fold, a line held under R216, the settings in force by
fold and line, R215) and RFFE buses. -/
structure Rad where
  groups : Vector Group 8 := Vector.replicate 8 {}
  hostTag : Nat := 0
  seq : Nat := 0
  reports : List BurstReport := []
  txDone : List (Nat × Nat) := []
  calBook : List (Nat × Nat × Nat) := []
  pasture : Option Pasture := none
  aggAtten : Nat := 0
  aggEst : Int := 0
  aggQuietSince : Nat := 0
  dutySaid : Option Nat := none
  lineOn : Vector Nat 8 := Vector.replicate 8 0
  lineHeld : Vector Bool 8 := Vector.replicate 8 false
  lineCfg : Tab Word := []
  rffe : Vector Rffe 8 := Vector.replicate 8 {}
  deriving DecidableEq, Repr, Inhabited

/-! ### Lanes -/

/-- Lane states of Table 9-4. -/
inductive LaneState where
  | off | l2 | l1 | train | l0 | test | retired
  deriving DecidableEq, Repr, Inhabited

/-- A physical lane (R243): state, the port it belongs to (7 none) and its position, receiver flags, TB1 times of CDR losses (R248), and
the taps that the next training starts from (R238); with no lane record the preset is MAIN 63 (R420). -/
structure Lane where
  state : LaneState := .off
  port : Nat := 7
  pos : Nat := 0
  sig : Bool := false
  cdr : Bool := false
  rxInv : Bool := false
  prbsLock : Bool := false
  suspect : Bool := false
  losses : List Nat := []
  preset : Nat := 2016
  deriving DecidableEq, Repr, Inhabited

/-- The lanes at reset (R232): lanes 0 to 7 serve FH0 and FH1, 10 to 25 FL0 and FL1, 28 MG; 8, 9, 26 and 27 are reserves. -/
def homeLanes : Vector Lane 29 := Vector.ofFn (fun n =>
  let k := n.val
  if k < 8 then { port := k / 4, pos := k % 4 }
  else if k < 10 then {}
  else if k < 26 then { port := 2 + (k - 10) / 8, pos := (k - 10) % 8 }
  else if k < 28 then {}
  else { port := 4 })

/-- Port states of LNE_PORT_STATUS. -/
inductive PortState where
  | off | training | l0 | l1 | l2 | held | quarantined | downFault
  deriving DecidableEq, Repr, Inhabited

/-- The technology ability of a Clause 73 base page, by the clause of the interface (Table 9-2). -/
inductive Ability where
  | clause136 | clause137 | clause72
  deriving DecidableEq, Repr, Inhabited

/-- A Clause 73 base page (R234): the technology ability, the FEC request, the two PAUSE bits, and whether next pages beyond the null page
follow. -/
structure BasePage where
  ability : Ability
  fec : Bool
  pause : Bool × Bool
  nextPages : Bool
  deriving DecidableEq, Repr, Inhabited

/-- A port (R239…R253): state, bring-up step, hold and quarantine, the lane serving each position as bring-up found it (0x1F none), the
running lane swap (failed lane, reserve), the lane under loopback, the pause of 10 ms before a restart, the TB0 time it left L0 (R267),
the TB1 time its bring-up or swap began, whether quarantine met an error (R253), the state it had before Doze (R245), the base page it
sends in auto-negotiation (R234), the TB1 time of its last lane failure (R250), and the reserves that the neighbour has refused for the
failure in hand (R249). -/
structure Port where
  state : PortState := .off
  step : Nat := 0
  external : Bool := false
  reversed : Bool := false
  held : Bool := false
  quar : Bool := false
  map : Vector Nat 8 := Vector.replicate 8 0x1F
  swap : Option (Nat × Nat) := none
  loopback : Option Nat := none
  paused : Bool := false
  downAt : Option Nat := none
  trainAt : Nat := 0
  dirty : Bool := false
  beforeDoze : Option PortState := none
  page : Option BasePage := none
  failAt : Option Nat := none
  refused : List Nat := []
  deriving DecidableEq, Repr, Inhabited

/-- A reserve lane as a byte of LNE_RESERVE: state 0 free, 1 engaged, 2 testing, 3 retired; and the neighbour's reserve at the far
end of a fold-link reserve (R247). -/
structure ReserveLane where
  state : Nat := 0
  wired : Nat := 0
  far : Nat := 0
  port : Nat := 0
  pos : Nat := 0
  deriving DecidableEq, Repr, Inhabited

/-- State of the LNE block beside its registers; `reserves` are lanes 8, 9, 26, 27 in order; `lsw` the steering codes
on LSW_A and LSW_B (R247); `waiting` the lanes whose failure waits to be acted on, in the order of detection (R25, R250). -/
structure Lne where
  lanes : Vector Lane 29 := homeLanes
  ports : Vector Port 5 := Vector.replicate 5 {}
  reserves : Vector ReserveLane 4 := Vector.replicate 4 {}
  lsw : Vector Nat 2 := Vector.replicate 2 0xF
  waiting : List Nat := []
  deriving DecidableEq, Repr, Inhabited

/-! ### Fronthaul and flocks -/

/-- An admission request (R272): the flock, its tag, direction, carrier, count, named slot, the epoch number of its
arrival (its age, R27) and the port its reply goes to. -/
structure AdmReq where
  k : Nat
  tag : Nat
  ul : Bool
  c : Nat
  count : Nat
  slot : Option Nat
  epoch : Nat
  port : Nat
  until_ : Nat := 0
  deriving DecidableEq, Repr, Inhabited

/-- A slot change that takes effect at a slot boundary (R276): the slot is served to `to`, or ends. -/
structure SlotChange where
  at_ : Nat
  ul : Bool
  l : Nat
  to_ : Option Nat
  deriving DecidableEq, Repr, Inhabited

/-- What admission knows of a slot: the flock it is promised to or held by, the epoch it was served in (R274), and the time of a
scheduled end. -/
structure Holding where
  k : Nat
  serial : Nat
  ending : Option Nat := none
  deriving DecidableEq, Repr, Inhabited

/-- A flock table entry (R268…R282): formats and block limit in force, sequence numbers by PC_ID, outgoing queue of
(port, message bytes), messages in this epoch, violation times, quarantine and the TB0 time of its last change. -/
structure FlockSt where
  formats : Nat := 7
  ulBlocks : Nat := 0
  capsDone : Bool := false
  rxSeq : List (Nat × Nat) := []
  txSeq : List (Nat × Nat) := []
  noticeTag : Nat := 0
  out : List (Nat × List Byte) := []
  lost : Nat := 0
  msgs : Nat := 0
  policed : Bool := false
  viols : List Nat := []
  quar : Bool := false
  quarNext : Bool := false
  quarAt : Nat := 0
  quarCount : Nat := 0
  deferred : List AdmReq := []
  deriving DecidableEq, Repr, Inhabited

/-- A downlink section in the ingress store (R265): its flock, layer, port, air time of its first sample in TB0, deadline, and its
blocks, each with its exponent and its 24 mantissas, a part being m·2^e in units of 2^−23. -/
structure Section where
  k : Nat
  l : Nat
  q : Nat
  start : Nat
  deadline : Nat
  blocks : List (Nat × List Int)
  deriving DecidableEq, Repr, Inhabited

/-- Uplink blocks of a layer that wait to fill a section (R264, R321): ball time of the first one, and each block's samples with what they
are marked with. -/
structure UlPart where
  start : Nat := 0
  blocks : List (List Cplx × UlMarks) := []
  deriving DecidableEq, Repr, Inhabited

/-- State of the FHP block beside its registers: flocks, requests of this epoch, tie queues and arbiter pointers by
resource number (R28, R29), what admission holds, scheduled slot changes, ingress store, coverage and substitution by
layer (TB0 intervals), the sums of a stack that wait for their sections, frames sent per port, released layer samples at the path
rate by path sample and layer, the path samples last formed from them (R160), and by layer the first block of a pair whose second one
is still to be released (R320). Of the signal path it holds the carrier-rate and path-rate samples that the filters of R259 still reach by
layer, rows of 64 samples that the fixed filters still reach, newest first (path samples, predistorter inputs, predistorter outputs), the
predistorter outputs that wait for the converters in elastic buffer E2 by path sample (R108), the DAC codes of the last path sample by
path, and the uplink samples that slips zeroed, by layer and sample number (R20). -/
structure Fhp where
  flocks : Vector FlockSt 8 := Vector.replicate 8 {}
  reqs : List AdmReq := []
  ptrs : Tab Nat := []
  tie : List (Nat × AdmReq) := []
  holdDl : Vector (Option Holding) 32 := Vector.replicate 32 none
  holdUl : Vector (Option Holding) 32 := Vector.replicate 32 none
  changes : List SlotChange := []
  epoch : Nat := 0
  ingress : List Section := []
  covered : List (Nat × Nat × Nat) := []
  subst : List (Nat × Nat × Nat) := []
  ulPart : Vector UlPart 32 := Vector.replicate 32 {}
  sent : List (Nat × List Byte) := []
  dlIn : List (Nat × Nat × Cplx) := []
  dlOut : List Cplx := []
  halves : List (Nat × Nat × (Nat × List Int)) := []
  dlTail : Vector (List Cplx) 32 := Vector.replicate 32 []
  ulTail : Vector (List Cplx) 32 := Vector.replicate 32 []
  pathRows : List (List Cplx) := []
  pdRows : List (List Cplx) := []
  e2 : List (Nat × List (List Cplx)) := []
  outRows : List (List Cplx) := []
  dac : List (List (Int × Int)) := []
  ulSlips : List (Nat × Nat) := []
  deriving DecidableEq, Repr, Inhabited

/-! ### Time -/

/-- States of TB0 (Table 11-2), in the order of their codes. -/
inductive Tb0State where
  | unset | acquiring | locked | holdover | freerun | timeErr
  deriving DecidableEq, Repr, Inhabited

/-- What an Announce gives of a master (R295, G.8275.1): the fields the alternate BMCA compares. -/
structure AnnounceData where
  prio1 : Nat := 0
  clockClass : Nat := 0
  accuracy : Nat := 0
  variance : Nat := 0
  prio2 : Nat := 0
  gm : Nat := 0
  steps : Nat := 0
  deriving DecidableEq, Repr, Inhabited

/-- A PTP peer of a port (R293…R298, R483): its identity, TB1 times of its Announces, Syncs and violations in the
last second, the sequence number of its last Sync, the two-step Sync that waits for its Follow_Up (number, correction, ingress time),
one dropped for rate, the second of its last RATE violation, and its quarantine. -/
structure Peer where
  id : Nat
  portNum : Nat
  ann : AnnounceData := {}
  syncs : List Nat := []
  annTimes : List Nat := []
  syncSeq : Option Nat := none
  waitFollow : Option (Nat × Int × Int) := none
  dropFollow : Option Nat := none
  rateSec : Option Nat := none
  viols : List Nat := []
  quar : Bool := false
  deriving DecidableEq, Repr, Inhabited

/-- A TX timestamp queue entry (R301). -/
structure TxTs where
  id : Nat
  kind : Nat
  at_ : Nat
  deriving DecidableEq, Repr, Inhabited

/-- A PTP port (R293, R301): peers, the TX timestamp queue, the next Delay_Req sequenceId and the outstanding
Delay_Req with its egress timestamp, and LISTENING since the port reached L0. -/
structure PtpPort where
  peers : List Peer := []
  txts : List TxTs := []
  ovf : Bool := false
  reqSeq : Nat := 0
  req : Option (Nat × Int) := none
  listening : Bool := false
  deriving DecidableEq, Repr, Inhabited

/-- State of the TIM block beside its registers (R286…R306): TB0's state, the parent as port, clockIdentity and
portNumber, the offsets before the step and whether this acquisition has stepped, the consecutive counts of R286, the guard of R295
with its count, the rate correction in units of 2^−48, the durations and values it had in LOCKED, newest first, and since when it
stands, the last Sync of the parent (its time and ours), whether the parent's port is SLAVE, and the pins. -/
structure Tim where
  state : Tb0State := .unset
  acqCount : Nat := 0
  parent : Option (Nat × Nat × Nat) := none
  offsets : List Int := []
  stepDone : Bool := false
  inLock : Nat := 0
  outUnlock : Nat := 0
  beyond : Nat := 0
  guard : Bool := false
  chgBeyond : Nat := 0
  rate : Int := 0
  rates : List (Nat × Int) := []
  rateSince : Nat := 0
  sync : Option (Int × Int) := none
  slave : Bool := false
  ports : Vector PtpPort 2 := Vector.replicate 2 {}
  ppsUntil : Option Nat := none
  tickUntil : Option Nat := none
  deriving DecidableEq, Repr, Inhabited

/-! ### Cascade -/

/-- A cascade neighbour (R310, R325, R326): its state in CAS_NBR_STATUS, index, TB1 times of its violations, a lane
swap announced by LANE frames, and its last HELLO (role, d, size, mode, digest, order, flags, STACK_ID). -/
structure Nbr where
  state : Nat := 0
  d : Nat := 0
  viols : List Nat := []
  swap : Bool := false
  hello : Option (List Nat) := none
  isolated : Bool := false
  l0Since : Nat := 0
  deriving DecidableEq, Repr, Inhabited

/-- What a vote decides (R324). -/
inductive VoteOn where
  | level (l : Nat)
  | warp
  | group (cmd : Word)
  deriving DecidableEq, Repr, Inhabited

/-- State of the CAS block beside its registers (R308…R327): role, index, size, mode and STACK_ID in force, the joined
set, formation, neighbours by side (0 FL0 upstream, 1 FL1 downstream), the TB2 servo (`timeRx` is T1, T2 and T3 of the exchange
that waits for its T4, and `echoT4` the receive time of the last ECHO), sequence numbers of the frames
sent, the frames that wait per side, staged partial warp, votes, the rejoin permission, and whether the converter-clock dividers are aligned (R317). -/
structure Cas where
  role : Nat := 0
  d : Nat := 0
  size : Nat := 0
  mode : Nat := 0
  stackId : Nat := 0
  joined : Nat := 0
  selfJoined : Bool := false
  form : Nat := 0
  code : Nat := 0
  nbrs : Vector Nbr 2 := Vector.replicate 2 {}
  out : List (Nat × List Byte) := []
  seqs : List (Nat × Nat) := []
  timeRx : Option (Int × Int × Int) := none
  echoT4 : Nat := 0
  exch : List Int := []
  tb2Set : Bool := false
  tb2Lock : Bool := false
  inLock : Nat := 0
  outLock : Nat := 0
  upLocked : Bool := false
  stepAt : Option (Nat × Nat) := none
  detached : Bool := false
  mayRejoin : Bool := false
  vote : Option (VoteOn × List Nat) := none
  warpBytes : List Byte := []
  warpOver : Bool := false
  statuses : List (Nat × List Byte) := []
  dozing : Bool := false
  aligned : Bool := false
  deriving DecidableEq, Repr, Inhabited

/-! ### Capture engine and monitor chains -/

/-- States of a capture stream (Table 13-11), in the order of their codes. -/
inductive StreamState where
  | idle | queued | armed | capturing | holdoff | rearm | done
  deriving DecidableEq, Repr, Inhabited

/-- A capture stream (R334…R343): its state and last arm outcome, the current segment and the segments completed since
the arm, the accepted trigger (TB3 point, fraction, trigger code, FORCED, pre-trigger entries, ring index of the trigger
entry), whether its TB0 trigger fired, whether TB3 stepped since the segment began, the triggers consumed in event hold-off,
those missed since the last segment with the TB3 time of the first, and whether ACQ_MISSED has been read since (R341). `asks` are the
arms that wait for the end of their epoch or in the queue of the stream's arbiter (R335). Of its samples as a level trigger sees them
(R337), `last` is the quantity of the newest one, and `low` and `high` say that the hysteresis of a rising and of a falling crossing
is met. `points` are the trigger points that events have given and no sample has placed yet (Table 13-6). Before the TB1 time `rest`
the pause of R404 extends its hold-off, and time mode holds off until the TB3 time `holdEnd` (R340); `stepAt` is the TB1 time of the
step that `tbStepped` notes. -/
structure Stream where
  state : StreamState := .idle
  asks : List Ask := []
  last : Option Int := none
  low : Bool := false
  high : Bool := false
  points : List Nat := []
  outcome : Nat := 0
  code : Nat := 0
  seg : Nat := 0
  seq : Nat := 0
  point : Nat := 0
  frac : Nat := 0
  trigCode : Nat := 0
  forced : Bool := false
  preAct : Nat := 0
  trigIdx : Nat := 0
  tbFired : Bool := false
  tbStepped : Bool := false
  skipped : Nat := 0
  missed : Nat := 0
  missAt : Nat := 0
  missRead : Bool := true
  rest : Nat := 0
  holdEnd : Nat := 0
  stepAt : Nat := 0
  deriving DecidableEq, Repr, Inhabited

/-- State of the capture engine: its four streams. -/
structure Acq where
  streams : Vector Stream 4 := Vector.replicate 4 {}
  deriving DecidableEq, Repr, Inhabited

/-- A monitor chain (R345…R348): running, its DC estimates in Q1.23 units, and the input samples still to come before its
filters are filled again. -/
structure MonChain where
  running : Bool := false
  muI : Int := 0
  muQ : Int := 0
  gap : Nat := 0
  deriving DecidableEq, Repr, Inhabited

/-! ### Capture memory -/

/-- States of the memory (Table 14-8), in the order of their codes. -/
inductive DramState where
  | untrained | training | ready | selfRefresh | freqChange | failed
  deriving DecidableEq, Repr, Inhabited

/-- Holders of the training lock (R361, R364), in the order of their codes. -/
inductive LockHolder where
  | free | drover | host | freq
  deriving DecidableEq, Repr, Inhabited

/-- A frequency change: the rate, and whether the lock has been granted to it (R364). -/
structure FreqRun where
  rate : Nat
  granted : Bool
  set : Nat := 0
  deriving DecidableEq, Repr, Inhabited

/-- A pattern run (R362): base unit, units, pattern, seed, compare only. -/
structure PatRun where
  base : Nat
  len : Nat
  pattern : Nat
  seed : Nat
  compareOnly : Bool
  deriving DecidableEq, Repr, Inhabited

/-- State of the DRC block beside its registers: memory state, shadow sets, lock, training step and its tries, the steps
still to run, frequency change, refresh debt and rate, MR4, the write DQS-DQ correction in 1/64 UI, and the pattern run.
`flush` says that owed refreshes go before any activate (R357), `pages` holds by 8·rank + bank the open row plus 1 (R355). `mem` holds the
bytes of capture memory. -/
structure Drc where
  state : DramState := .untrained
  activeSet : Nat := 0
  rate : Nat := 0
  setTrained : Vector Bool 2 := Vector.replicate 2 false
  setRate : Vector Nat 2 := Vector.replicate 2 0
  retrainNeeded : Bool := false
  lock : LockHolder := .free
  step : Nat := 0
  tries : Nat := 0
  failed : Nat := 0
  trainSet : Nat := 0
  asked : Bool := false
  freq : Option FreqRun := none
  pat : Option PatRun := none
  patDone : Bool := false
  owed : Nat := 0
  factor : Nat := 0
  derate : Bool := false
  flush : Bool := false
  dqs : Int := 0
  mr4 : Nat := 3
  mrBad : Nat := 0
  pages : Tab Nat := []
  mem : Tab Byte := []
  deriving DecidableEq, Repr, Inhabited

/-! ### DMA -/

/-- States of a DMA channel (Table 14-13), in the order of their codes. -/
inductive ChState where
  | idle | running | waiting | paused | ended | faulted
  deriving DecidableEq, Repr, Inhabited

/-- A DMA channel (R368…R378): the registers that describe it, the last word its MOVEs wrote since the last read-back as
(space, address, word), the state to resume when PAUSE is cleared, and the condition of the WAIT in progress: COND, its
argument, MASK, VALUE and TIMEOUT; and in TB1 the start of its MOVE and the end of the pause after it (R404). -/
structure DmaCh where
  state : ChState := .idle
  pc : Nat := 0
  fault : Nat := 0
  src : Nat := 0
  dst : Nat := 0
  remain : Nat := 0
  rows : Nat := 0
  ctr0 : Option Nat := none
  ctr1 : Option Nat := none
  soff : Int := 0
  doff : Int := 0
  events : Nat := 0
  signal : Nat := 0
  wrote : Option (Nat × Nat × Word) := none
  resume : ChState := .running
  cond : Nat := 0
  arg : Nat := 0
  mask : Word := 0
  value : Word := 0
  timeout : Nat := 0
  began : Nat := 0
  rest : Nat := 0
  deriving DecidableEq, Repr, Inhabited

/-- State of the DMA block: channels, program memory by word number, transfer window (R368). -/
structure Dma where
  chans : Vector DmaCh 16 := Vector.replicate 16 {}
  prog : Tab Word := []
  window : Tab Byte := []
  deriving DecidableEq, Repr, Inhabited

/-! ### Housekeeping converter, bias outputs, thermal -/

/-- Where a conversion comes from (R381, R383). -/
inductive ConvFrom where
  | supervision | list | urgent
  deriving DecidableEq, Repr, Inhabited

/-- A conversion: its channel, source, and whether it was restarted (R383). -/
structure Conv where
  ch : Nat
  from_ : ConvFrom
  restarted : Bool := false
  deriving DecidableEq, Repr, Inhabited

/-- State of the housekeeping converter: the conversion that runs (none: the one R381 selects), one aborted by an urgent
request, the urgent FIFO, the result queue oldest first, sequence number, host-list position and pass state, the last
supervision channel, and the reference checks' counts. -/
structure Hka where
  run : Option Conv := none
  aborted : Option Conv := none
  urgent : List Nat := []
  queue : List Word := []
  seq : Nat := 0
  pos : Nat := 0
  passActive : Bool := false
  passPending : Bool := false
  lastSup : Nat := 159
  supLast : Bool := false
  refBad : Vector Nat 4 := Vector.replicate 4 0
  refGood : Vector Nat 4 := Vector.replicate 4 0
  refFail : Bool := false
  deriving DecidableEq, Repr, Inhabited

/-- A bias output (R386…R397): at safe bias, freed by a cleared fault to leave it at its next load, its code in force, latched fault cause (0 none), CLAMPED, the TB1 time its
settling ends, last read-back, and the consecutive failures of its compliance, open, short and supply checks. -/
structure BOut where
  safe : Bool := true
  freed : Bool := false
  code : Nat := 0
  cause : Nat := 0
  clamped : Bool := false
  settle : Nat := 0
  readback : Nat := 0
  badV : Nat := 0
  badLo : Nat := 0
  badHi : Nat := 0
  badSup : Nat := 0
  deriving DecidableEq, Repr, Inhabited

/-- State of the bias outputs: global safe bias and its cause (R393), the safe-bias record read at stage 1 entry (R396),
the Sentinel fields the always-on domain copied (R394), and the pending timed loads by group as TB0 times (R388). -/
structure Bda where
  outs : Vector BOut 72 := Vector.replicate 72 {}
  safe : Bool := true
  cause : Nat := 1
  recordOk : Bool := false
  record : List Byte := []
  sentinel : List Nat := []
  timed : Vector (Option Nat) 9 := Vector.replicate 9 none
  deriving DecidableEq, Repr, Inhabited

/-- States of a temperature sensor (Table 15-13), in the order of their codes. -/
inductive SensorState where
  | valid | excluded | retired | spare
  deriving DecidableEq, Repr, Inhabited

/-- A temperature sensor (R398…R400): state, zone, last sample with offset, consecutive exclusions, last raw code with the
TB1 time since which it stands, and the range of each other sensor of the zone since then. -/
structure Sensor where
  state : SensorState := .valid
  zone : Nat := 0
  temp : Int := 0
  bad : Nat := 0
  raw : Int := 0
  rawSince : Nat := 0
  rawRef : List (Nat × Int × Int) := []
  deriving DecidableEq, Repr, Inhabited

/-- A thermal zone (R401…R406): stage, blind, voted temperature or estimate, the sensors valid at its last
sample (none before the first), the stage held when it became blind, the TB1
time since which it stays 5 °C below its stage's threshold, and the consecutive samples at 125 °C. -/
structure Zone where
  stage : Nat := 0
  blind : Bool := false
  temp : Int := 0
  valid : Nat := 0
  held : Nat := 0
  coolSince : Option Nat := none
  hot : Nat := 0
  deriving DecidableEq, Repr, Inhabited

/-- The sensors at their zones (R398): sensor 3z…3z + 2 in zone z, 36…39 reserves. -/
def Sensor.home (i : Nat) : Sensor :=
  if i < 36 then { zone := i / 3 } else { state := .spare }

/-- State of the thermal unit: sensors, zones, TL, the hottest temperature's extremes in the running second and whether it
fell by 1 °C (R405), the latched shutdown (R406), which survives reset, and whether a zone has been sampled since stage 1 entry: until then
the sensors' registers stand at reset (R12). -/
structure Thm where
  sensors : List Sensor := (List.range 40).map Sensor.home
  zones : Vector Zone 12 := Vector.replicate 12 {}
  tl : Nat := 0
  secMin : Option Int := none
  secMax : Option Int := none
  secDrop : Bool := false
  shutdown : Bool := false
  sampled : Bool := false
  deriving DecidableEq, Repr, Inhabited

/-! ### The machine -/

/-- The state of a TW6472. `pending` is the queue of commands that wait, first in, first out. `regs` holds by address every
register that stores what it was given and differs from its reset value; the registers that show state held elsewhere are
computed from it. `aonRegs` holds the always-on registers in the same way (R12). `rnd` counts the free values drawn: it is
the model's own field, not the spec's. -/
structure State where
  pending : List Instr := []
  fuse : Fuse := {}
  pins : Pins := {}
  time : Time := {}
  regs : Tab Word := []
  aonRegs : Tab Word := []
  glb : Glb := {}
  nvs : Nvs := {}
  pwr : Pwr := {}
  pstate : PState := .idle
  wrp : Wrp := {}
  paths : Vector PathSt 64 := Vector.replicate 64 {}
  syn : Syn := {}
  skn : Skn := {}
  fft : Vector FftEngine 8 := Vector.replicate 8 {}
  dpd : Dpd := {}
  rad : Rad := {}
  lne : Lne := {}
  fhp : Fhp := {}
  tim : Tim := {}
  cas : Cas := {}
  acq : Acq := {}
  mon : Vector MonChain 8 := Vector.replicate 8 {}
  drc : Drc := {}
  dma : Dma := {}
  hka : Hka := {}
  bda : Bda := {}
  thm : Thm := {}
  rnd : Nat := 0
  deriving DecidableEq, Repr, Inhabited

/-- The machine right after reset: the device as it enters stage 1 (R12, Tables 2-14 and 2-15), its rails acknowledged and
a reference verified, with an erased store and flash (log entry 4); the challenges of R222 and R456 are the first two draws. -/
def State.reset : State :=
  { nvs := { pastNonce := (Config.challenge 0).toNat }, glb := { dbgNonce := (Config.challenge 1).toNat }, rnd := 2 }

/-- Why the machine stops with a fault. No command of this block has that effect: every row of the table has an effect the
spec gives, and a command that meets nothing to act on leaves the state as it is. -/
inductive Fault where
  /-- Raised by nothing: kept so that the type is inhabited. Safe: no state reaches it. -/
  | none
  deriving DecidableEq, Repr

/-- Why a command is refused. -/
inductive Refusal where
  /-- Raised by an arm of the dispatch whose command has no meaning yet, by its mnemonic. Safe: nothing is proved of it. -/
  | notModelled (mnemonic : String)
  deriving DecidableEq, Repr, Inhabited

end Sys2Proof.Machine
end

