-- ==== Sys2Proof/Machine/Tab.lean ====
section
/-!
DEFINITION. Sparse tables in canonical form: what a table reads as at a key it does not list is an argument
`d`, a write of that value removes the entry, and keys rise strictly, so equal tables are equal data. Memories are
tables of bytes.
-/

namespace Sys2Proof.Machine

/-- Read a table; `d k` is what an unlisted key `k` reads as. -/
def tget {α : Type} (d : Nat → α) : Tab α → Nat → α
  | [], k => d k
  | (k', v) :: t, k => if k' = k then v else tget d t k

/-- Remove a key. -/
def tdel {α : Type} : Tab α → Nat → Tab α
  | [], _ => []
  | (k', v) :: t, k => if k' = k then tdel t k else (k', v) :: tdel t k

/-- Insert a key and value in order, replacing an entry of that key. -/
def tins {α : Type} : Tab α → Nat → α → Tab α
  | [], k, v => [(k, v)]
  | (k', v') :: t, k, v =>
    if k < k' then (k, v) :: (k', v') :: t
    else if k = k' then (k, v) :: t
    else (k', v') :: tins t k v

/-- Write a table: the default value removes the entry, so the canonical form is kept. -/
def tset {α : Type} [DecidableEq α] (d : Nat → α) (t : Tab α) (k : Nat) (v : α) : Tab α :=
  if v = d k then tdel t k else tins t k v

/-- Every key of the table is above `b`, rising, and no value is the default. -/
def twfFrom {α : Type} [DecidableEq α] (d : Nat → α) : Option Nat → Tab α → Bool
  | _, [] => true
  | b, (k, v) :: t =>
    (match b with | none => true | some b => decide (b < k)) && decide (v ≠ d k) && twfFrom d (some k) t

/-- The canonical form of a table. -/
def twf {α : Type} [DecidableEq α] (d : Nat → α) (t : Tab α) : Bool := twfFrom d none t

/-- What a byte of a memory that nothing has written reads as (DESIGN CHOICE, log entry 3). -/
def blank : Nat → Byte := fun _ => 0

/-- What a byte of the erased flash reads as (PRESUMED, log entry 3). -/
def erased : Nat → Byte := fun _ => 0xFF

/-- The values at `n` keys from `a` up, of a table in canonical form that lists no key below `a`. -/
def readRun {α : Type} (d : Nat → α) : Tab α → Nat → Nat → List α
  | _, _, 0 => []
  | [], a, n + 1 => d a :: readRun d [] (a + 1) n
  | (k, v) :: t, a, n + 1 => if k = a then v :: readRun d t (a + 1) n else d a :: readRun d ((k, v) :: t) (a + 1) n

/-- The `n` bytes of a memory from address `a` up. -/
def mread (d : Nat → Byte) (m : Tab Byte) (a n : Nat) : List Byte := readRun d (m.filter (fun x => decide (a ≤ x.1))) a n

/-- The entries of values at consecutive keys from `a` up: a default value has none. -/
def runOf {α : Type} [DecidableEq α] (d : Nat → α) : Nat → List α → Tab α
  | _, [] => []
  | a, v :: vs => if v = d a then runOf d (a + 1) vs else (a, v) :: runOf d (a + 1) vs

/-- Write bytes to a memory from address `a` up: the entries below and above them stay. -/
def mwrite (d : Nat → Byte) (m : Tab Byte) (a : Nat) (bs : List Byte) : Tab Byte :=
  m.filter (fun x => decide (x.1 < a)) ++ (runOf d a bs ++ m.filter (fun x => decide (a + bs.length ≤ x.1)))

end Sys2Proof.Machine
end

