-- ==== Sys2Proof/Machine/Ops.lean ====
section
/-!
DEFINITION. The named operations over the state: indexed access, registers by address, interrupt flags and counters
(R7, R10), time (R284), the shared log and the violation counts (R34, R453…R455), the engagement of reserves (R24),
messages to flocks (R269, R270), and what the committed warp says of paths, groups and carriers.
-/

namespace Sys2Proof.Machine

/-! ### Indexed access -/

/-- Element `i` of a fixed row of things. -/
def vget {α : Type} {n : Nat} [Inhabited α] (v : Vector α n) (i : Nat) : α := v.toArray.getD i default

/-- A fixed row of things with element `i` changed; nothing changes past the end. -/
def vmod {α : Type} {n : Nat} (v : Vector α n) (i : Nat) (f : α → α) : Vector α n :=
  if h : i < n then v.set i (f v[i]) h else v

/-- A fixed row of things with element `i` replaced. -/
def vset {α : Type} {n : Nat} (v : Vector α n) (i : Nat) (x : α) : Vector α n := vmod v i (fun _ => x)

/-- A fixed row of things, each changed by a function of its index. -/
def vall {α : Type} {n : Nat} (v : Vector α n) (f : Nat → α → α) : Vector α n :=
  (List.range n).foldl (fun v i => vmod v i (f i)) v

/-- A list with element `i` changed. -/
def lmod {α : Type} : List α → Nat → (α → α) → List α
  | [], _, _ => []
  | x :: xs, 0, f => f x :: xs
  | x :: xs, i + 1, f => x :: lmod xs i f

/-- Element `i` of a list, or the default. -/
def lget {α : Type} [Inhabited α] (l : List α) (i : Nat) : α := l.getD i default

/-- Insert into an ordered list, after its equals. -/
def insertBy {α : Type} (le : α → α → Bool) (x : α) : List α → List α
  | [] => [x]
  | y :: ys => if le y x then y :: insertBy le x ys else x :: y :: ys

/-- A list in order; equals keep their order. -/
def sortBy {α : Type} (le : α → α → Bool) (l : List α) : List α := l.foldl (fun acc x => insertBy le x acc) []

/-- Fold a change of the state over a list. -/
def forAll {α : Type} (l : List α) (f : α → State → State) (s : State) : State := l.foldl (fun s x => f x s) s

/-- Apply a change when a condition holds. -/
def whenB (b : Bool) (f : State → State) (s : State) : State := if b then f s else s

/-! ### Changing one part of the state -/

def State.modPins (f : Pins → Pins) (s : State) : State := { s with pins := f s.pins }
def State.modTime (f : Time → Time) (s : State) : State := { s with time := f s.time }
def State.modGlb (f : Glb → Glb) (s : State) : State := { s with glb := f s.glb }
def State.modNvs (f : Nvs → Nvs) (s : State) : State := { s with nvs := f s.nvs }
def State.modPwr (f : Pwr → Pwr) (s : State) : State := { s with pwr := f s.pwr }
def State.modPState (f : PState → PState) (s : State) : State := { s with pstate := f s.pstate }
def State.modRail (n : Nat) (f : Rail → Rail) (s : State) : State :=
  { s with pwr := { s.pwr with rails := vmod s.pwr.rails n f } }
def State.modWrp (f : Wrp → Wrp) (s : State) : State := { s with wrp := f s.wrp }
def State.modPath (p : Nat) (f : PathSt → PathSt) (s : State) : State := { s with paths := vmod s.paths p f }
def State.modSyn (f : Syn → Syn) (s : State) : State := { s with syn := f s.syn }
def State.modUnit (u : Nat) (f : SynUnit → SynUnit) (s : State) : State :=
  { s with syn := { s.syn with units := vmod s.syn.units u f } }
def State.modRole (r : Nat) (f : SynRole → SynRole) (s : State) : State :=
  { s with syn := { s.syn with roles := vmod s.syn.roles r f } }
def State.modSkn (f : Skn → Skn) (s : State) : State := { s with skn := f s.skn }
def State.modFft (e : Nat) (f : FftEngine → FftEngine) (s : State) : State := { s with fft := vmod s.fft e f }
def State.modDpd (f : Dpd → Dpd) (s : State) : State := { s with dpd := f s.dpd }
def State.modDpdPath (p : Nat) (f : DpdPath → DpdPath) (s : State) : State :=
  { s with dpd := { s.dpd with paths := vmod s.dpd.paths p f } }
def State.modObs (o : Nat) (f : Obs → Obs) (s : State) : State :=
  { s with dpd := { s.dpd with obs := vmod s.dpd.obs o f } }
def State.modRad (f : Rad → Rad) (s : State) : State := { s with rad := f s.rad }
def State.modGroup (g : Nat) (f : Group → Group) (s : State) : State :=
  { s with rad := { s.rad with groups := vmod s.rad.groups g f } }
def State.modLne (f : Lne → Lne) (s : State) : State := { s with lne := f s.lne }
def State.modLane (n : Nat) (f : Lane → Lane) (s : State) : State :=
  { s with lne := { s.lne with lanes := vmod s.lne.lanes n f } }
def State.modPort (q : Nat) (f : Port → Port) (s : State) : State :=
  { s with lne := { s.lne with ports := vmod s.lne.ports q f } }
def State.modFhp (f : Fhp → Fhp) (s : State) : State := { s with fhp := f s.fhp }
def State.modFlock (k : Nat) (f : FlockSt → FlockSt) (s : State) : State :=
  { s with fhp := { s.fhp with flocks := vmod s.fhp.flocks k f } }
def State.modTim (f : Tim → Tim) (s : State) : State := { s with tim := f s.tim }
def State.modCas (f : Cas → Cas) (s : State) : State := { s with cas := f s.cas }
def State.modNbr (n : Nat) (f : Nbr → Nbr) (s : State) : State :=
  { s with cas := { s.cas with nbrs := vmod s.cas.nbrs n f } }
def State.modAcq (f : Acq → Acq) (s : State) : State := { s with acq := f s.acq }
def State.modStream (n : Nat) (f : Stream → Stream) (s : State) : State :=
  { s with acq := { s.acq with streams := vmod s.acq.streams n f } }
def State.modMon (n : Nat) (f : MonChain → MonChain) (s : State) : State := { s with mon := vmod s.mon n f }
def State.modMons (f : Vector MonChain 8 → Vector MonChain 8) (s : State) : State := { s with mon := f s.mon }
def State.modDrc (f : Drc → Drc) (s : State) : State := { s with drc := f s.drc }
def State.modDma (f : Dma → Dma) (s : State) : State := { s with dma := f s.dma }
def State.modCh (c : Nat) (f : DmaCh → DmaCh) (s : State) : State :=
  { s with dma := { s.dma with chans := vmod s.dma.chans c f } }
def State.modHka (f : Hka → Hka) (s : State) : State := { s with hka := f s.hka }
def State.modBda (f : Bda → Bda) (s : State) : State := { s with bda := f s.bda }
def State.modOut (n : Nat) (f : BOut → BOut) (s : State) : State :=
  { s with bda := { s.bda with outs := vmod s.bda.outs n f } }
def State.modThm (f : Thm → Thm) (s : State) : State := { s with thm := f s.thm }
def State.modZone (z : Nat) (f : Zone → Zone) (s : State) : State :=
  { s with thm := { s.thm with zones := vmod s.thm.zones z f } }
def State.modSensor (i : Nat) (f : Sensor → Sensor) (s : State) : State :=
  { s with thm := { s.thm with sensors := lmod s.thm.sensors i f } }

/-- Take the next index of the opaque functions that stand for values the spec leaves open. -/
def State.draw (s : State) : Nat × State := (s.rnd, { s with rnd := s.rnd + 1 })

/-! ### Registers by address (R10, R12) -/

/-- The stored value of a register. -/
def State.reg (s : State) (a : Nat) : Word :=
  if isAlwaysOn a then tget regReset s.aonRegs a else tget regReset s.regs a

/-- Store a register. -/
def State.setReg (a : Nat) (w : Word) (s : State) : State :=
  if isAlwaysOn a then { s with aonRegs := tset regReset s.aonRegs a w } else { s with regs := tset regReset s.regs a w }

/-- Replace a field of a stored register. -/
def State.setFld (a hi lo v : Nat) (s : State) : State := s.setReg a (put (s.reg a) hi lo v)

/-- A field of a stored register. -/
def State.fld (s : State) (a hi lo : Nat) : Nat := Sys2Proof.Machine.fld (s.reg a) hi lo

/-- A bit of a stored register. -/
def State.bit (s : State) (a i : Nat) : Bool := bitOf (s.reg a) i

/-- A register of a unit absent from the device's ordering code (R1, R2): CAS, DRC, the capture engine, and the fold-link
lane registers. DESIGN CHOICE, log entry 51: of ACQ the registers of the streams and of their budget and trigger inputs are the capture
engine's, and the interrupt registers stay with the monitor chains; the port registers of FL0 and FL1 are no lane registers. -/
def absentReg (o : Order) (a : Nat) : Bool :=
  let b := a / 0x10000
  let off := a % 0x10000
  match o with
  | .xf => false
  | .sc => b == 0x12 || (b == 0x10 && (off < 0xC || (off ≥ 0x100 && off < 0x300)))
  | .sb => b == 0x12 || (b == 0x10 && (off < 0xC || (off ≥ 0x100 && off < 0x300))) || b == 0xF ||
      (b == 0xD && decide (0x400 + 0x40 * 10 ≤ off) && decide (off < 0x400 + 0x40 * 28))

/-- Host software reaches the register: every register at stage 1 and above, the always-on ones at stage 0, none in Off (R37,
R39), and none of an absent unit (R2). -/
def State.served (s : State) (a : Nat) : Bool :=
  !s.pwr.off && (isAlwaysOn a || decide (s.pwr.stage ≥ 1)) && !absentReg s.fuse.order a

/-- What a write of host software to a register does; nothing where the port does not serve the register. -/
def State.hosted (a : Nat) (f : State → State) (s : State) : State := if s.served a then f s else s

/-- Assert an interrupt flag: bit `b` of a W1C register. Sources of an absent unit never assert (R2). -/
def State.raise (a b : Nat) (s : State) : State :=
  if absentReg s.fuse.order a then s else s.setReg a (s.reg a ||| BitVec.ofNat 32 (2 ^ b))

/-- Count in the field [31:16] of a register, saturating (R7). -/
def State.addHi (a n : Nat) (s : State) : State := s.setFld a 31 16 (satAdd 0xFFFF (s.fld a 31 16) n)

/-- Count in the field [15:0] of a register, saturating (R7). -/
def State.addLo (a n : Nat) (s : State) : State := s.setFld a 15 0 (satAdd 0xFFFF (s.fld a 15 0) n)

/-- Count in a whole register, saturating (R7). -/
def State.addReg (a n : Nat) (s : State) : State :=
  s.setReg a (BitVec.ofNat 32 (satAdd 0xFFFFFFFF (s.reg a).toNat n))

/-- Count in a byte of a register from bit `lo`, saturating (R7). -/
def State.addByte (a lo n : Nat) (s : State) : State := s.setFld a (lo + 7) lo (satAdd 0xFF (s.fld a (lo + 7) lo) n)

/-! ### Time (R284, R286, R319) -/

/-- One tick of the counter clock, 1/491.52 MHz, in time units of 2^−16/3 ns. -/
def tickTu : Nat := 400000
/-- One nanosecond in time units. -/
def nsTu : Nat := 196608
/-- One microsecond in time units. -/
def usTu : Nat := 196608000
/-- One millisecond in time units. -/
def msTu : Nat := 196608000000
/-- One second in time units. -/
def secTu : Nat := 196608000000000
/-- An arbitration epoch of 62.5 µs in time units (R26). -/
def epochTu : Nat := 12288000000

/-- Whole seconds of a time. -/
def secOf (t : Nat) : Nat := t / secTu
/-- Nanoseconds within the second of a time. -/
def nsOf (t : Nat) : Nat := t % secTu / nsTu
/-- Fraction of a nanosecond of a time, in 2^−16 ns. -/
def fracOf (t : Nat) : Nat := t % nsTu / 3
/-- A time from seconds and nanoseconds. -/
def timeOf (sec ns : Nat) : Nat := sec * secTu + ns * nsTu

/-- A time in the 12-byte format of Table 13-3, least significant byte first. -/
def timeLe (t : Nat) : List Byte := leBytes 6 (secOf t) ++ leBytes 4 (nsOf t) ++ leBytes 2 (fracOf t)

/-- A time in the 12-octet format of R315, most significant byte first. -/
def timeBe (t : Nat) : List Byte := beBytes 6 (secOf t) ++ beBytes 4 (nsOf t) ++ beBytes 2 (fracOf t)

/-- A 12-octet time field. -/
def timeOfBe (bs : List Byte) (o : Nat) : Nat := be bs o 6 * secTu + be bs (o + 6) 4 * nsTu + be bs (o + 10) 2 * 3

/-- A time in the 8-octet form of flock messages (R269). -/
def time8 (t : Nat) : List Byte := beBytes 4 (secOf t % 2 ^ 32) ++ beBytes 4 (nsOf t)

/-- The whole time that seconds modulo 2^32 and nanoseconds name, nearest to `now`. -/
def timeNear (now sec32 ns : Nat) : Nat :=
  let base := secOf now / 2 ^ 32 * 2 ^ 32
  let c := fun b => timeOf (b + sec32) ns
  if c base + 2 ^ 31 * secTu ≤ now then c (base + 2 ^ 32)
  else if now + 2 ^ 31 * secTu < c base ∧ 2 ^ 32 ≤ base then c (base - 2 ^ 32)
  else c base

/-- The device is a member of a stack (R304, R308). -/
def State.isMember (s : State) : Bool := s.cas.role == 2

/-- The device is part of a stack in stacked mode (R311). -/
def State.stacked (s : State) : Bool := s.cas.role != 0 && s.cas.mode == 0

/-- TB0 is locked (R286, R319). -/
def State.locked (s : State) : Bool :=
  if s.isMember then s.cas.selfJoined && s.cas.tb2Lock && s.cas.upLocked
  else s.tim.state == .locked || s.tim.state == .holdover

/-- TB3 (R305). -/
def State.tb3 (s : State) : Nat := if s.time.tb3coupled then s.time.tb0 else ((s.time.tb0 : Int) + s.time.tb3off).toNat

/-- The base that names slot boundaries, milliseconds and log times: TB0 while it is locked, otherwise TB1 (R104, R454). -/
def State.base (s : State) : Nat := if s.locked then s.time.tb0 else s.time.tb1

/-- Advance a base by `n` ticks at a rate correction in 2^−48, with its remainder (R284). -/
def advance (n : Nat) (rate : Int) (t : Nat) (frac : Int) : Nat × Int :=
  let x := (tickTu * n : Nat) * rate + frac
  (((t + tickTu * n : Nat) + x / (2 ^ 48 : Nat)).toNat, x % (2 ^ 48 : Nat))

/-- The period of a path sample at a performance level, in time units (Table 2-7). -/
def pathPeriod (level : Nat) : Nat := tickTu * 2 ^ level

/-- Bandwidth in 10 kHz units that a level offers; PL3 has none (Table 2-7). -/
def levelBw (l : Nat) : Nat := if l = 0 then 40000 else if l = 1 then 20000 else if l = 2 then 10000 else 0

/-! ### The shared log and the violations (R34, R453…R455) -/

/-- The newest entry of the log. -/
def State.newest (s : State) : Option LogEntry := s.glb.log.head?

/-- Put an entry at the head of the log: a full log loses its oldest entry, and a lost unread entry is counted (R34). -/
def State.logEnter (fresh : LogEntry) (s : State) : State :=
  let full := decide (s.glb.log.length ≥ 128)
  let lost := full && (match s.glb.log.getLast? with
    | some e => !e.read
    | none => false)
  let s := s.modGlb (fun g => { g with
    log := fresh :: (if full then g.log.dropLast else g.log)
    logHead := (g.logHead + 1) % 128
    logSeq := (g.logSeq + 1) % 65536 })
  let s := s.raise Reg.GLB_INT_STATUS 5
  if lost then (s.addReg Reg.GLB_LOG_LOST 1).raise Reg.GLB_INT_STATUS 6 else s

/-- Enter an event or a violation in the log: a repeat of the newest entry within 1 ms counts in it (R34). The log does not run below
stage 1 (R39). -/
def State.logPut (kind index cls : Nat) (event : Bool) (detail : Word) (s : State) : State :=
  let fresh : LogEntry :=
    { tu := s.time.tb1, timeS := secOf s.base % 2 ^ 32, timeNs := nsOf s.base, kind := kind, index := index, cls := cls
      event := event, tb1 := !s.locked, rep := 0, seq := s.glb.logSeq, detail := detail, read := false }
  if s.pwr.stage = 0 then s
  else
    match s.newest with
    | some e =>
      if e.kind = kind ∧ e.index = index ∧ e.cls = cls ∧ e.event = event ∧ s.time.tb1 ≤ e.tu + msTu then
        s.modGlb (fun g => { g with log := { e with rep := satAdd 0xFFFF e.rep 1 } :: g.log.drop 1 })
      else s.logEnter fresh
    | none => s.logEnter fresh

/-- Count a violation by partner kind and class (R455). -/
def State.countViol (kind cls : Nat) (s : State) : State :=
  if s.pwr.stage = 0 then s
  else if cls % 2 = 0 then s.addLo (Reg.GLB_VIOL kind (cls / 2)) 1 else s.addHi (Reg.GLB_VIOL kind (cls / 2)) 1

/-- A violation of a partner: counted and logged (R34). -/
def State.viol (kind index cls : Nat) (detail : Word) (s : State) : State :=
  (s.countViol kind cls).logPut kind index cls false detail

/-- A violation by the SPI host: KIND 0x07, DETAIL the address (R455). -/
def State.violSpi (cls addr : Nat) (s : State) : State := s.viol 7 0 cls (BitVec.ofNat 32 addr)

/-- A write another chapter says is ignored and logged (class REFUSED_WRITE). -/
def State.refusedWrite (addr : Nat) (s : State) : State := s.violSpi 5 addr

/-- Raise an interrupt and log its event: the KIND is 0x80 + the block's base bits [23:16] (R454). -/
def State.event (a b index : Nat) (detail : Word) (s : State) : State :=
  (s.raise a b).logPut (0x80 + a / 0x10000 % 256) index b true detail

/-- Raise an interrupt of a path and log its event with KIND 0xC0 (Table 17-4). -/
def State.pathEvent (p b : Nat) (detail : Word) (s : State) : State :=
  (s.raise (Reg.PTH_INT_STATUS p) b).logPut 0xC0 p b true detail

/-! ### Staging buffers (R443) -/

/-- Stage a word in a buffer of `cap` words; a word for a full buffer is remembered as an overflow. -/
def Staging.push (cap : Nat) (w : Word) (b : Staging) : Staging :=
  if b.words.length ≥ cap then { b with overflow := true } else { b with words := b.words ++ [w] }

/-- The buffer holds exactly the words an operation needs (R443). -/
def Staging.fits (n : Nat) (b : Staging) : Bool := !b.overflow && b.words.length == n

/-- The bytes staged. -/
def Staging.bytes (b : Staging) : List Byte := wordBytes b.words

/-! ### What the committed warp says -/

/-- The committed structure; an empty one before a warp commits. -/
def State.warp (s : State) : Structure := s.wrp.active.getD {}

/-- The PATH entry of a path. -/
def State.pathCfg (s : State) (p : Nat) : PathCfg := vget s.warp.paths p

/-- The group of a path (R77). -/
def State.groupOf (s : State) (p : Nat) : Nat := (s.pathCfg p).group

/-- The paths of a group that the warp enables in some direction. -/
def State.groupPaths (s : State) (g : Nat) : List Nat :=
  (List.range 64).filter (fun p => (s.pathCfg p).group == g && ((s.pathCfg p).txEn || (s.pathCfg p).rxEn))

/-- A layer slot exists in the warp. -/
def State.layer (s : State) (ul : Bool) (l : Nat) : Option LayerCfg :=
  if ul then vget s.warp.layUl l else vget s.warp.layDl l

/-- A carrier of the warp. -/
def State.carrier (s : State) (ul : Bool) (c : Nat) : Option Carrier :=
  if c ≥ 4 then none else if ul then vget s.warp.carUl c else vget s.warp.carDl c

/-- A flock of the warp. -/
def State.flockCfg (s : State) (k : Nat) : Option FlockCfg := if k ≥ 8 then none else vget s.warp.flocks k

/-- The LO role of a path in a direction (R138): 0 LO_A, 1 LO_B. -/
def State.loRole (s : State) (tx : Bool) (p : Nat) : Nat :=
  let f := vget s.warp.folds (p / 8)
  if tx then f.txLo else f.rxLo

/-- The slot of a layer. -/
def State.slot (s : State) (ul : Bool) (l : Nat) : Slot :=
  if ul then vget s.skn.slotsUl l else vget s.skn.slotsDl l

/-- Change the slot of a layer. -/
def State.modSlot (ul : Bool) (l : Nat) (f : Slot → Slot) (s : State) : State :=
  if ul then s.modSkn (fun k => { k with slotsUl := vmod k.slotsUl l f })
  else s.modSkn (fun k => { k with slotsDl := vmod k.slotsDl l f })

/-! ### Messages to flocks (R269, R270) -/

/-- The body length of control message bodies the device sends is taken from the body. -/
def flockMsg (msg tag : Nat) (body : List Byte) : List Byte :=
  beBytes 1 msg ++ beBytes 1 0 ++ beBytes 2 tag ++ beBytes 2 body.length ++ beBytes 2 0 ++ body

/-- Enter a message in a flock's outgoing queue of 32: a full queue drops its oldest entry (R270). -/
def State.post (k port msg tag : Nat) (body : List Byte) (s : State) : State :=
  let full := (vget s.fhp.flocks k).out.length ≥ 32
  let s := s.modFlock k (fun f => { f with
    out := (if full then f.out.drop 1 else f.out) ++ [(port, flockMsg msg tag body)]
    lost := if full then f.lost + 1 else f.lost })
  if full then (s.addLo (Reg.FHP_FLOCK_CTRL_LOST k) 1).raise Reg.FHP_INT_STATUS 7 else s

/-- The entry for a notice in an outgoing queue names no port: it takes the lowest-numbered port of PORTS that is in L0 when it
leaves (R270). -/
def anyPort : Nat := 2

/-- The body of a NOTICE (Table 10-5). -/
def noticeBody (event detail param at_ : Nat) : List Byte :=
  beBytes 1 event ++ beBytes 1 detail ++ beBytes 2 0 ++ beBytes 4 param ++ time8 at_

/-- Send a notice to a flock of the warp, with the flock's next notice tag (R269, Table 10-7); a member of a stack terminates no
flocks (R324). -/
def State.notice (k event detail param : Nat) (s : State) : State :=
  match s.flockCfg k with
  | none => s
  | some _ =>
    if s.cas.role = 2 ∧ s.cas.mode = 0 then s else
    let tag := (vget s.fhp.flocks k).noticeTag
    let s := s.modFlock k (fun f => { f with noticeTag := (tag + 1) % 65536 })
    s.post k anyPort 0xC0 tag (noticeBody event detail param s.time.tb0)

/-- Send a notice to every flock of the warp. -/
def State.noticeAll (event detail param : Nat) (s : State) : State :=
  forAll (List.range 8) (fun k s => s.notice k event detail param) s

/-- The flock that holds a served slot. -/
def State.holder (s : State) (ul : Bool) (l : Nat) : Option Nat := (s.slot ul l).holder

/-- The flock holds a served slot in a direction. -/
def State.holdsAny (s : State) (ul : Bool) (k : Nat) : Bool :=
  (List.range 32).any (fun l => s.holder ul l == some k)

/-! ### Reserves (R22…R25, R480) -/

/-- Count an engagement of reserve kind `r` (R24). -/
def State.countEngaged (r : Nat) (s : State) : State :=
  s.modGlb (fun g => { g with engagements := vmod g.engagements r (fun n => satAdd 0xFFFF n 1) })

/-- Assert RESERVE_LOW (R24). -/
def State.reserveLow (s : State) : State := s.raise Reg.GLB_INT_STATUS 1

/-! ### Arbiters (R26…R30) -/

/-- The number of a resource among the arbiters. -/
def Resource.num : Resource → Nat
  | .carrier ul c => 4 * b2n ul + c
  | .slot ul l => 8 + 32 * b2n ul + l
  | .obs o => 72 + o
  | .fft e => 80 + e
  | .stream st => 88 + st
  | .spindles => 92
  | .pool i => 93 + i

/-- The pointer of an arbiter (R28). -/
def arbPtr (s : State) (x : Resource) : Nat := tget (fun _ => 0) s.fhp.ptrs x.num

/-- The pointer moves to the winner's identity plus 1, modulo 12 (R28). -/
def arbMove (x : Resource) (winner : Nat) (s : State) : State :=
  s.modFhp (fun f => { f with ptrs := tset (fun _ => 0) f.ptrs x.num ((winner + 1) % 12) })

/-- Where an identity comes in a scan upward from a pointer, wrapping from 11 to 0 (R28). -/
def scanPlace (ptr id : Nat) : Nat := (id + 12 - ptr % 12) % 12

/-- Requests of equal rank in the order of the arbiter's scan; those of one identity keep their order. -/
def scanOrder {α : Type} (ptr : Nat) (id : α → Nat) (l : List α) : List α :=
  sortBy (fun a b => decide (scanPlace ptr (id a) ≤ scanPlace ptr (id b))) l

/-- The requests of the oldest epoch (R27). -/
def oldestAsks (l : List Ask) : List Ask :=
  l.filter (fun a => l.all (fun b => decide (a.epoch ≤ b.epoch)))

/-- How a receiver or a stream decides the requests that wait for it: the winner, those that stay, and those that a full queue
refuses. -/
structure ArbOut where
  win : Option Ask
  left : List Ask
  refused : List Ask

/-- A loser of a tie stands in the queue of 4 with the limit of identities 8…11, 10 s; a full queue refuses it (R29). -/
def arbLose (now : Nat) (o : ArbOut) (a : Ask) : ArbOut :=
  if a.tied then { o with left := o.left ++ [a] }
  else if (o.left.filter (·.tied)).length ≥ 4 then { o with refused := o.refused ++ [a] }
  else { o with left := o.left ++ [{ a with tied := true, until_ := now + 10 * secTu }] }

/-- Decide: the oldest first, and a tie by the arbiter's scan, whose losers are queued in its order (R27…R29). -/
def arbDecide (ptr now : Nat) (l : List Ask) : ArbOut :=
  let tied := oldestAsks l
  match scanOrder ptr (·.id) tied with
  | [] => { win := none, left := l, refused := [] }
  | w :: losers =>
    let o := losers.foldl (arbLose now) { win := none, left := l.filter (fun a => !tied.contains a), refused := [] }
    { o with win := some w }

/-- The pointer after a decision: it moves only where more than one request was tied. -/
def arbTied (x : Resource) (l : List Ask) (s : State) : State :=
  match scanOrder (arbPtr s x) (·.id) (oldestAsks l) with
  | w :: _ :: _ => arbMove x w.id s
  | _ => s

/-- Requests of equal rank in the order in which an arbiter serves them all, one scan after the other, and the pointer after it (R28);
the pointer moves while more than one is left. -/
def arbSeq {α : Type} (id : α → Nat) : Nat → Nat → List α → List α × Nat
  | 0, ptr, l => (l, ptr)
  | n + 1, ptr, l =>
    match scanOrder ptr id l with
    | x :: y :: rest =>
      let r := arbSeq id n ((id x + 1) % 12) (y :: rest)
      (x :: r.1, r.2)
    | l => (l, ptr)

/-! ### Background jobs (R403, R404) -/

/-- The device's stage: the highest of any zone (R403). -/
def thermStage (s : State) : Nat := s.thm.zones.toList.foldl (fun m z => max m z.stage) 0

/-- T1_RATIO (R404). -/
def t1Ratio (s : State) : Nat := max 1 (s.fld Reg.THM_CFG 3 0)

/-- The TB1 time before which the next job of a kind may not start, after a job that took `took`: at T1 and T2 the job is followed by a
pause of its own duration × T1_RATIO / 4 (R404). -/
def restAfter (s : State) (took : Nat) : Nat :=
  if thermStage s = 0 then 0 else s.time.tb1 + took * t1Ratio s / 4

/-! ### Canonical memories -/

/-- Every memory of the device is held in canonical form: addresses strictly rising, and no entry equal to what an unlisted address
reads as. -/
def Memory.wf (s : State) : Bool :=
  twf regReset s.regs && twf regReset s.aonRegs && twf blank s.nvs.store && twf erased s.glb.flash && twf blank s.glb.flashBuf &&
    twf blank s.skn.dl && twf blank s.skn.ul && twf blank s.dpd.coef && twf blank s.drc.mem && twf blank s.dma.window &&
    twf (fun _ => 0) s.dma.prog

end Sys2Proof.Machine
end

