-- ==== Sys2Proof/Machine/Store.lean ====
section
/-!
DEFINITION. The calibration store: its map, its records in A/B slots, the factory blocks, row remapping, the queue of record
writes, and the reserve map (R411…R426).
-/

namespace Sys2Proof.Machine

/-! ### The store and its map (R411, R415, Table 16-1) -/

/-- `n` bytes of the store from an address. -/
def State.storeAt (s : State) (a n : Nat) : List Byte := mread blank s.nvs.store a n

/-- Put bytes in the store. -/
def State.storePut (a : Nat) (bs : List Byte) (s : State) : State :=
  s.modNvs (fun v => { v with store := mwrite blank v.store a bs })

/-- Address of the A slot of system record TYPE. -/
def sysBase (type : Nat) : Nat := 0x40000 + (type - 1) * 0x1000
/-- Address of the A slot of a path record. -/
def pathRecBase (p : Nat) : Nat := 0x50000 + p * 0x400
/-- Address of the A slot of predistortion record `r` of a path. -/
def dpdRecBase (p r : Nat) : Nat := 0x60000 + p * 0x3C00 + r * 0x1400

/-- LEN of each system record (Table 16-3). -/
def sysLen (type : Nat) : Nat :=
  match type with
  | 1 => 36 | 2 => 136 | 3 => 8 | 4 => 304 | 5 => 300 | 6 => 1632 | 7 => 12 | 8 => 784
  | _ => 0

/-! ### Slots (R416) -/

/-- The bytes of a slot's wrapper that its CHECK covers. -/
def slotBytes (seq type : Nat) (body : List Byte) : List Byte :=
  leBytes 4 seq ++ leBytes 2 type ++ leBytes 2 body.length ++ body

/-- SEQ and body of a valid slot (R416). -/
def readSlot (s : State) (a pitch type : Nat) : Option (Nat × List Byte) :=
  let h := s.storeAt a 8
  let seq := le h 0 4
  let len := le h 6 2
  if seq = 0 ∨ seq = 0xFFFFFFFF ∨ le h 4 2 ≠ type ∨ len + 12 > pitch then none
  else
    let body := s.storeAt (a + 8) len
    if leNat (s.storeAt (a + 8 + len) 4) = crc32c (slotBytes seq type body) then some (seq, body) else none

/-- The record in force: its slot, SEQ and body; none when missing (R416). -/
def inForce (s : State) (base pitch type : Nat) : Option (Nat × Nat × List Byte) :=
  match readSlot s base pitch type, readSlot s (base + pitch) pitch type with
  | some (q0, b0), some (q1, b1) => if q1 > q0 then some (1, q1, b1) else some (0, q0, b0)
  | some (q0, b0), none => some (0, q0, b0)
  | none, some (q1, b1) => some (1, q1, b1)
  | none, none => none

/-- The body of a system record in force. -/
def sysRec (s : State) (type : Nat) : Option (List Byte) :=
  match inForce s (sysBase type) 0x800 type with
  | some (_, _, b) => if b.length = sysLen type then some b else none
  | none => none

/-- The body of the path record in force. -/
def pathRec (s : State) (p : Nat) : Option (List Byte) := (inForce s (pathRecBase p) 0x200 0x10).map (fun x => x.2.2)

/-- SEQ and body of predistortion record `r` of a path in force. -/
def dpdRec (s : State) (p r : Nat) : Option (Nat × List Byte) := (inForce s (dpdRecBase p r) 0xA00 0x11).map (fun x => x.2)

/-! ### Factory blocks (R424…R426) -/

/-- A factory block of `n` bytes whose CHECK is its last word. -/
def factoryOk (s : State) (a n : Nat) : Bool :=
  let b := s.storeAt a n
  leNat (b.drop (n - 4)) == crc32c (b.take (n - 4))

/-- A TW3216-layout record is valid (Table 16-8). -/
def tw3216Ok (s : State) (a first : Nat) : Bool :=
  let h := s.storeAt a 32
  let len := le h 12 4
  leNat (h.take 4) == 0x36313233 && le h 4 2 == 2 && byteAt h 6 == 32 && decide (1 ≤ byteAt h 7) && decide (byteAt h 7 ≤ 8)
    && byteAt h 8 == first && len == 36 + 1032 * byteAt h 7 && factoryOk s a len

/-- Both TW3216-layout records are valid. -/
def tw3216AllOk (s : State) : Bool := tw3216Ok s 0x1000 0 && tw3216Ok s 0x4000 32

/-- Every step-correction block is valid. -/
def stepsOk (s : State) : Bool := (List.range 8).all (fun b => factoryOk s (0x10000 + b * 0x5100) (64 * 320 + 4))

/-- The network offsets are valid. -/
def networkOk (s : State) : Bool := factoryOk s 0x39000 0x2000

/-- The sensor offsets are valid. -/
def sensorsOk (s : State) : Bool := factoryOk s 0x3B000 0x100

/-- Offset of a sensor in a zone, in 1/16 °C (R425, R426). -/
def sensorOffset (s : State) (i z : Nat) : Int :=
  if ¬ sensorsOk s then 0
  else if i < 36 then toS 16 (leNat (s.storeAt (0x3B000 + 2 * i) 2))
  else toS 16 (leNat (s.storeAt (0x3B048 + 24 * (i - 36) + 2 * z) 2))

/-- Distance in MHz of a frequency in kHz from a band; 0 inside it. -/
def bandGap (khz lo hi : Nat) : Nat :=
  if khz < lo * 1000 then lo * 1000 - khz else if khz > hi * 1000 then khz - hi * 1000 else 0

/-- The band of a path's TW3216-layout record for an LO frequency (R424): the first of the nearest. -/
def tw3216Band (s : State) (p khz : Nat) : Nat :=
  let a := if p < 32 then 0x1000 else 0x4000
  let n := byteAt (s.storeAt a 32) 7
  let gap := fun b => bandGap khz (leNat (s.storeAt (a + 32 + 1032 * b) 2)) (leNat (s.storeAt (a + 34 + 1032 * b) 2))
  (List.range n).foldl (fun best b => if gap b < gap best then b else best) 0

/-- The TW3216-layout entry of a path for an LO frequency (Table 16-8): its twelve signed values; none without seeds. -/
def tw3216Entry (s : State) (p khz : Nat) : Option (List Int) :=
  if ¬ tw3216AllOk s then none
  else
    let a := if p < 32 then 0x1000 else 0x4000
    let e := s.storeAt (a + 40 + 1032 * tw3216Band s p khz + 32 * (p % 32)) 24
    some ((List.range 12).map (fun i => toS 16 (le e (2 * i) 2)))

/-- The attenuation step correction of a path (R103, R425): amplitude in 0.01 dB and phase in 0.05°; zero when absent. -/
def stepCorrection (s : State) (tx : Bool) (p band step : Nat) : Int × Int :=
  if ¬ factoryOk s (0x10000 + band * 0x5100) (64 * 320 + 4) then (0, 0)
  else
    let e := s.storeAt (0x10000 + band * 0x5100 + 320 * p + 2 * (if tx then step else 128 + step)) 2
    (toS 8 (byteAt e 0), toS 8 (byteAt e 1))

/-! ### Rows (R412…R414) -/

/-- Free reserve rows. -/
def reserveRowsFree (v : Nvs) : Nat := (v.rows.toList.filter (· == .free)).length

/-- The lowest-numbered free reserve row. -/
def firstFreeRow (v : Nvs) : Option Nat := (List.range 64).find? (fun i => vget v.rows i == .free)

/-- Retire `n` reserve rows from the lowest free one, each failing its own verification. -/
def retireReserves : Nat → State → State
  | 0, s => s
  | n + 1, s =>
    match firstFreeRow s.nvs with
    | none => s
    | some i => retireReserves n ((s.modNvs (fun v => { v with rows := vset v.rows i .retired })).addLo Reg.NVS_VERIFY_FAIL 1)

/-- A row fails verification: it is remapped to a reserve row after `bad` reserve rows fail themselves (R412); false when no
reserve row is free (R414). -/
def rowFail (row bad : Nat) (s : State) : State × Bool :=
  let s := retireReserves bad (s.addLo Reg.NVS_VERIFY_FAIL 1)
  match firstFreeRow s.nvs with
  | none => (s.raise Reg.NVS_INT_STATUS 6, false)
  | some i =>
    let old := (List.range 64).find? (fun j => vget s.nvs.rows j == .serves row)
    let s := s.modNvs (fun v => { v with
      rows := vset (match old with
        | some j => vset v.rows j .retired
        | none => v.rows) i (.serves row)
      rowRetired := v.rowRetired + (if old.isSome then 0 else 1) })
    (((s.raise Reg.NVS_INT_STATUS 5).countEngaged 6).event Reg.GLB_INT_STATUS 0 0 0, true)

/-- Rows that fail during one write, in order; false once a row cannot be replaced. -/
def rowFails : List (Nat × Nat) → State → State × Bool
  | [], s => (s, true)
  | (row, bad) :: rest, s =>
    let (s, ok) := rowFail row bad s
    if ok then rowFails rest s else (s, false)

/-! ### Record writes (R417, R418) -/

/-- Bytes of a whole record write: wrapper, body and CHECK. -/
def writeSize (w : StoreWrite) : Nat := w.body.length + 12

/-- The slot a write goes to and its SEQ (R417). -/
def writeSlot (s : State) (w : StoreWrite) : Nat × Nat :=
  match inForce s w.base w.pitch w.type with
  | none => (0, 1)
  | some (i, q, _) => (1 - i, q + 1)

/-- The write would need SEQ 0xFFFF_FFFF (R417). -/
def seqSpent (s : State) (w : StoreWrite) : Bool := decide ((writeSlot s w).2 ≥ 0xFFFFFFFF)

/-- The bytes of the slot in the order they are written: TYPE, LEN, body and CHECK from offset 4, then SEQ (R417). -/
def writeBytes (s : State) (w : StoreWrite) : List Byte × List Byte :=
  let q := (writeSlot s w).2
  let b := slotBytes q w.type w.body
  (b.drop 4 ++ leBytes 4 (crc32c b), leBytes 4 q)

/-- Put a whole record in its slot. -/
def commitWrite (w : StoreWrite) (s : State) : State :=
  let a := w.base + w.pitch * (writeSlot s w).1
  let b := writeBytes s w
  (s.storePut (a + 4) b.1).storePut a b.2

/-- A write that stops leaves what it wrote so far in its slot (R418). -/
def tornWrite (written : Nat) (w : StoreWrite) (s : State) : State :=
  let a := w.base + w.pitch * (writeSlot s w).1
  s.storePut (a + 4) ((writeBytes s w).1.take written)

/-- Queue a record write: writes are carried out one at a time, in order of request (R417). -/
def queueWrite (w : StoreWrite) (s : State) : State := s.modNvs (fun v => { v with writes := v.writes ++ [w] })

/-! ### The reserve map (R421, Table 16-7) -/

/-- PTH_ADC_SPARE half of an ADC (Table 4-8). -/
def adcSpareHalf (a : Adc) : Nat :=
  (pk [(15, b2n a.ready), (14, b2n (decide (a.filling ≠ 0))), (10, a.spare), (0, a.retired)]).toNat

/-- A reserve lane that serves no port: free or under test (R247). -/
def ReserveLane.spare (r : ReserveLane) : Bool := r.state == 0 || r.state == 2

/-- LNE_RESERVE (R254). -/
def reserveLaneByte (r : ReserveLane) : Nat := r.state * 64 + r.wired * 16 + r.port * 8 + r.pos

/-- LNE_RESERVE (R254). -/
def lneReserveWord (s : State) : Nat :=
  leNat (s.lne.reserves.toList.map (fun r => BitVec.ofNat 8 (reserveLaneByte r)))

/-- SYN_MAP (R150). -/
def synMapWord (s : State) : Nat :=
  (if s.syn.reserve < 3 then s.syn.reserve else 0xF) * 256 + (vget s.syn.roles 1).unit * 16 + (vget s.syn.roles 0).unit

/-- Byte `i` of THM_RESERVE (R410). -/
def thmReserveByte (x : Sensor) : Nat :=
  match x.state with
  | .spare => 0
  | .retired => 0xC0 + x.zone
  | _ => 0x40 + x.zone

/-- THM_RESERVE (R410). -/
def thmReserveWord (s : State) : Nat :=
  leNat ((s.thm.sensors.drop 36).map (fun x => BitVec.ofNat 8 (thmReserveByte x)))

/-- The DAC word of the reserve map: four reserve positions and the segments retired. -/
def dacWord (d : Dac) : Nat :=
  (pk [(0, vget d.stands 0), (6, vget d.stands 1), (12, vget d.stands 2), (18, vget d.stands 3), (24, d.retired)]).toNat

/-- The 24 bytes of a path in the reserve map. -/
def reserveMapPath (x : PathSt) : List Byte :=
  leBytes 4 x.adcI.pos ++ leBytes 4 x.adcQ.pos ++ leBytes 2 x.adcI.retired ++ leBytes 2 x.adcQ.retired ++
  leBytes 4 (dacWord x.dacI) ++ leBytes 4 (dacWord x.dacQ) ++ leBytes 4 (b2n x.dacBinary)

/-- The reserve map body (Table 16-7). -/
def reserveMapBody (s : State) : List Byte :=
  leBytes 72 s.wrp.spRetired ++
  leBytes 4 (bitsOf 29 (fun n => (vget s.lne.lanes n).state == .retired)) ++
  leBytes 4 (lneReserveWord s) ++
  leBytes 2 (synMapWord s) ++
  leBytes 1 (bitsOf 3 (fun u => (vget s.syn.units u).retired)) ++ leBytes 1 0 ++
  leBytes 5 (bitsOf 40 (fun i => (lget s.thm.sensors i).state == .retired)) ++ leBytes 3 0 ++
  leBytes 4 (thmReserveWord s) ++
  s.paths.toList.flatMap reserveMapPath

/-- Write the reserve map after a retirement; the kinds name the engagements it records (R421). It holds every retirement of the
device's life: what stage 1 entry loaded from it, and what has been retired since (R23). -/
def writeReserveMap (kinds : List Nat) (s : State) : State :=
  queueWrite { origin := .reserveMap kinds, base := sysBase 6, pitch := 0x800, type := 6, body := reserveMapBody s } s

/-- An engagement of reserve kind `r`: counted at once, recorded in the reserve map, and asserted when that write has
committed or failed (R24, R421). -/
def engageReserve (r : Nat) (s : State) : State := writeReserveMap [r] (s.countEngaged r)

/-! ### Counts of reserves (R24, R480) -/

/-- Parts retired, in service and in reserve of kind `r` (R480). -/
def reserveCounts (s : State) (r : Nat) : Nat × Nat × Nat :=
  let sum := fun (f : PathSt → Nat) => s.paths.toList.foldl (fun n p => n + f p) 0
  let bits := fun (n w : Nat) => ((List.range n).filter (fun i => nbit w i)).length
  let lanes := fun (l : List Nat) => (l.filter (fun n => (vget s.lne.lanes n).state == .retired)).length
  match r with
  | 0 =>
    let d := bits 576 s.wrp.spRetired
    (min 512 (576 - d), 576 - d - min 512 (576 - d), d)
  | 1 =>
    let d := sum (fun p => bits 9 p.adcI.retired + bits 9 p.adcQ.retired)
    let left := sum (fun p => b2n (decide (p.adcI.spare < 9)) + b2n (decide (p.adcQ.spare < 9)))
    (1152 - d - left, left, d)
  | 2 =>
    let d := sum (fun p => p.dacI.retired + p.dacQ.retired)
    let left := sum (fun p => p.dacI.left + p.dacQ.left)
    (8576 - d - left, left, d)
  | 3 =>
    let d := lanes [0, 1, 2, 3, 4, 5, 6, 7, 8, 9]
    let free := ((List.range 2).filter (fun i => (vget s.lne.reserves i).spare)).length
    (10 - d - free, free, d)
  | 4 =>
    if s.fuse.order = .sb then (0, 0, 0)
    else
      let d := lanes ((List.range 18).map (· + 10))
      let free := ((List.range 2).filter (fun i => (vget s.lne.reserves (i + 2)).spare)).length
      (18 - d - free, free, d)
  | 5 =>
    let d := (s.syn.units.toList.filter (·.retired)).length
    let left := if s.syn.reserve < 3 then 1 else 0
    (3 - d - left, left, d)
  | 6 => (4096, reserveRowsFree s.nvs, s.nvs.rowRetired + (s.nvs.rows.toList.filter (· == .retired)).length)
  | 7 =>
    let d := (s.thm.sensors.filter (·.state == .retired)).length
    let left := (s.thm.sensors.filter (·.state == .spare)).length
    (40 - d - left, left, d)
  | _ => (0, 0, 0)

end Sys2Proof.Machine
end

