-- ==== Sys2Proof/Machine/Bda.lean ====
section
/-!
DEFINITION. Bias outputs (R386…R397, R409): safe bias, loads, clamps, the supervision of outputs, and the commands of the BDA
block.
-/

namespace Sys2Proof.Machine

/-! ### The safe-bias record (R395, R396) -/

/-- A safe-bias body has its MAGIC, FORMAT, LEN and CHECK (R395). -/
def safeRecordOk (b : List Byte) : Bool :=
  b.length == 304 && leNat (b.take 4) == 0x45464153 && le b 4 2 == 1 && le b 6 2 == 304 &&
  le b 0x12C 4 == crc32c (b.take 0x12C)

/-- SAFE_CODE of an output. -/
def safeCode (b : List Byte) (n : Nat) : Nat := le b (8 + 4 * n) 2
/-- SAFE_SPAN of an output. -/
def safeSpan (b : List Byte) (n : Nat) : Nat := byteAt b (0xA + 4 * n) % 4
/-- SENTINEL of an output. -/
def safeSentinel (b : List Byte) (n : Nat) : Nat := byteAt b (0xA + 4 * n) / 4 % 4
/-- The levels of the timed lines under safe bias: bit 4f + i (R395). -/
def safeLines (b : List Byte) : Nat := le b 0x128 4

/-- The safe-bias record in force, when valid. -/
def safeRecord (s : State) : Option (List Byte) :=
  match sysRec s 4 with
  | some b => if safeRecordOk b then some b else none
  | none => none

/-- Copy the SENTINEL fields to the always-on domain: at a rise of VSEN and at a valid write of the record (R394). -/
def copySentinel (s : State) : State :=
  match safeRecord s with
  | some b => s.modBda (fun d => { d with sentinel := (List.range 72).map (safeSentinel b) })
  | none => s

/-! ### What an output drives (R386, R394, R397) -/

/-- Latest result code of a housekeeping channel. -/
def hkaCode (s : State) (ch : Nat) : Nat := s.fld (Reg.HKA_RESULT ch) 15 0

/-- A bias supply measures below 5.3 V, at 15 V full scale (R397). -/
def supplyBelow (code : Nat) : Bool := decide (code * 150 < 53 * 65536)

/-- The supply a span needs is missing (R397). -/
def spanStarved (s : State) (span : Nat) : Bool :=
  if span = 1 then supplyBelow (hkaCode s 145) else if span ≥ 2 then supplyBelow (hkaCode s 146) else false

/-- What a bias output drives: a SENTINEL state (0 high impedance, 1 ground clamp, 2 VBN clamp), or a code in a span. -/
inductive BiasDrive where
  | sentinel (state : Nat)
  | code (span code : Nat)
  deriving DecidableEq, Repr

/-- What output `n` drives (R387, R394, R396). -/
def biasDrive (s : State) (n : Nat) : BiasDrive :=
  let o := vget s.bda.outs n
  let sent := BiasDrive.sentinel (s.bda.sentinel.getD n 0)
  if s.pwr.stage = 0 then sent
  else if ¬ s.bda.recordOk then .sentinel 0
  else if s.bda.safe ∨ o.safe then
    let span := safeSpan s.bda.record n
    if spanStarved s span then sent else .code span (safeCode s.bda.record n)
  else .code (vget s.warp.bias n).span o.code

/-! ### Loads (R387…R389) -/

/-- Put an output at safe bias. -/
def BOut.toSafe (o : BOut) : BOut := { o with safe := true, freed := false, badV := 0, badLo := 0, badHi := 0, badSup := 0 }

/-- Make an output's input register its code in force, within its limits (R389). -/
def loadCode (n : Nat) (s : State) : State :=
  let b := vget s.warp.bias n
  let k := s.fld (Reg.BDA_CODE n) 15 0
  let c := clampN b.vmin b.vmax k
  let s := s.modOut n (fun o => { o with
    safe := false, freed := false, code := c, clamped := c != k
    settle := if o.safe || o.code != c then s.time.tb1 + 10 * usTu else o.settle })
  if c ≠ k then s.raise Reg.BDA_INT_STATUS 3 else s

/-- An output whose loads are not ignored (R387, R392, R393). -/
def loadable (s : State) (n : Nat) : Bool :=
  let o := vget s.bda.outs n
  decide (s.pwr.stage ≥ 3) && (vget s.warp.bias n).enable && !s.bda.safe && o.cause == 0 && (!o.safe || o.freed)

/-- A load of one output. -/
def biasLoad (n : Nat) (s : State) : State := if loadable s n then loadCode n s else s

/-- The outputs of load group `g` (R388). -/
def loadGroup (g : Nat) : List Nat := (List.range 8).map (fun i => 8 * g + i)

/-- A write of BDA_LOAD (R388). -/
def bdaLoadWrite (w : Word) (s : State) : State :=
  if ¬ bitOf w 31 then s
  else
    let groups := (List.range 9).filter (fun g => bitOf w 9 || bitOf w g)
    if ¬ bitOf w 30 then forAll (groups.flatMap loadGroup) biasLoad s
    else
      let aim := timeNear s.time.tb0 (s.reg Reg.BDA_LOAD_TIME_S).toNat (s.reg Reg.BDA_LOAD_TIME_NS).toNat
      if ¬ s.locked ∨ aim ≤ s.time.tb0 ∨ aim > s.time.tb0 + 2 * secTu then s.raise Reg.BDA_INT_STATUS 5
      else s.modBda (fun d => { d with timed := groups.foldl (fun t g => vset t g (some aim)) d.timed })

/-- BDA_LOAD (R388). -/
def execBdaLoad (w : Word) (s : State) : Host.Outcome State Fault Refusal := .next (s.hosted Reg.BDA_LOAD (bdaLoadWrite w))

/-- TIMED_BIAS_LOAD: the air time of a group's pending timed load (R388). -/
def timedBiasLoad (g : Nat) (s : State) : State :=
  match vget s.bda.timed g with
  | none => s
  | some _ =>
    (forAll (loadGroup g) biasLoad (s.modBda (fun d => { d with timed := vset d.timed g none }))).raise Reg.BDA_INT_STATUS 1

/-- TIMED_BIAS_LOAD (R388). -/
def execTimedBiasLoad (g : Fin 9) (s : State) : Host.Outcome State Fault Refusal := .next (timedBiasLoad g s)

/-- A write of BDA_CODE[n]: the input register, and a load when WRITE_THROUGH is set (R388). -/
def bdaCodeWrite (n : Nat) (code : Nat) (s : State) : State :=
  let s := s.setReg (Reg.BDA_CODE n) (BitVec.ofNat 32 (code % 65536))
  if s.bit (Reg.BDA_OUT_CFG n) 4 then biasLoad n s else s

/-- BDA_CODE_WRITE (R388). -/
def execBdaCodeWrite (n : Fin 72) (code : BitVec 16) (s : State) : Host.Outcome State Fault Refusal :=
  .next (s.hosted (Reg.BDA_CODE n) (bdaCodeWrite n code.toNat))

/-! ### Global safe bias (R393) -/

/-- Put every output at safe bias with a cause of Table 15-3. -/
def globalSafe (cause : Nat) (s : State) : State :=
  (s.modBda (fun d => { d with safe := true, cause := cause, outs := vall d.outs (fun _ o => o.toSafe) })).raise
    Reg.BDA_INT_STATUS 2

/-- A cause of global safe bias is present (Table 15-3). -/
def safeCausePresent (s : State) : Bool := decide (s.pwr.stage < 3) || s.thm.shutdown || s.hka.refFail

/-- BDA_CTRL.RELEASE_SAFE (R393, R396): a load of every enabled output that is not faulted. -/
def releaseSafe (s : State) : State :=
  if safeCausePresent s ∨ ¬ s.bda.recordOk then s
  else
    forAll (List.range 72)
      (fun n s => if (vget s.warp.bias n).enable && (vget s.bda.outs n).cause == 0 then loadCode n s else s)
      (s.modBda (fun d => { d with safe := false }))

/-- RELEASE_SAFE (R393). -/
def execReleaseSafe (s : State) : Host.Outcome State Fault Refusal := .next (s.hosted Reg.BDA_CTRL releaseSafe)

/-! ### Faults (R392) -/

/-- Clear the fault latch of an output; it stays at safe bias until its next load. -/
def clearFault (n : Nat) (s : State) : State :=
  s.modOut n (fun o => if o.cause = 0 then o else { o with cause := 0, freed := true })

/-- CLEAR_ALL_FAULTS (R392). -/
def execClearAllFaults (s : State) : Host.Outcome State Fault Refusal :=
  .next (s.hosted Reg.BDA_CTRL (forAll (List.range 72) clearFault))

/-- BDA_OUT_CLEAR (R392). -/
def execBdaOutClear (n : Fin 72) (s : State) : Host.Outcome State Fault Refusal :=
  .next (s.hosted (Reg.BDA_OUT_CTRL n) (clearFault n))

/-- The outputs FAULT_SCOPE names for a fault of output `n` (R392). -/
def faultScope (s : State) (n : Nat) : List Nat :=
  let scope := s.fld Reg.BDA_CFG 29 28
  if scope = 0 then [n] else if scope = 1 then loadGroup (n / 8) else List.range 72

/-- A confirmed fault of output `n` (R392): 1 OPEN, 2 SHORT, 3 COMPLIANCE. -/
def biasFault (n cause : Nat) (s : State) : State :=
  let s := forAll (faultScope s n)
    (fun m s => s.modOut m (fun o => { o.toSafe with cause := if m = n then cause else if o.cause = 0 then 4 else o.cause })) s
  s.event Reg.BDA_INT_STATUS 0 0 (BitVec.ofNat 32 (cause * 256 + n))

/-- A confirmed loss of the supply of output `n`: FAULT_SCOPE does not widen it (R397). -/
def supplyFault (n : Nat) (s : State) : State :=
  (s.modOut n (fun o => { o.toSafe with cause := 5 })).raise Reg.BDA_INT_STATUS 4

/-! ### Supervision (R390, R391, R397) -/

/-- DEBOUNCE. -/
def debounce (s : State) : Nat := max 1 (s.fld Reg.BDA_CFG 3 0)

/-- An output that supervision checks now (R390). -/
def supervised (s : State) (n : Nat) : Bool :=
  let o := vget s.bda.outs n
  (vget s.warp.bias n).enable && !s.bda.safe && !o.safe && decide (s.pwr.stage ≥ 3)

/-- The output is past its settling interval (R390). -/
def settled (s : State) (n : Nat) : Bool := decide ((vget s.bda.outs n).settle ≤ s.time.tb1)

/-- Line PA_EN of a fold is active. -/
def paEnActive (s : State) (f : Nat) : Bool := nbit (vget s.rad.lineOn f) 1

/-- The current check applies to an output now (R391). -/
def currentChecked (s : State) (n : Nat) : Bool :=
  match s.fld (Reg.BDA_OUT_CFG n) 1 0 with
  | 0 => false
  | 1 => true
  | 2 => paEnActive s (n / 8)
  | _ => (vget s.rad.groups (s.groupOf n)).state == .tx

/-- A read-back result of output `n` (R391). -/
def checkReadback (n code : Nat) (s : State) : State :=
  let s := s.modOut n (fun o => { o with readback := code })
  if ¬ (supervised s n ∧ settled s n) then s
  else
    let o := vget s.bda.outs n
    let tol := s.fld Reg.BDA_CFG 23 8
    let bad := decide (o.code + tol < code) || decide (code + tol < o.code)
    let s := s.modOut n (fun o => { o with badV := if bad then o.badV + 1 else 0 })
    if bad ∧ o.badV + 1 ≥ debounce s then biasFault n 3 s else s

/-- A current result of output `n` (R391). -/
def checkCurrent (n code : Nat) (s : State) : State :=
  if ¬ (supervised s n ∧ settled s n ∧ currentChecked s n) then s
  else
    let o := vget s.bda.outs n
    let b := vget s.warp.bias n
    let lo := decide (code < b.imin)
    let hi := decide (code > b.imax)
    let s := s.modOut n (fun o => { o with badLo := if lo then o.badLo + 1 else 0, badHi := if hi then o.badHi + 1 else 0 })
    if lo ∧ o.badLo + 1 ≥ debounce s then biasFault n 1 s
    else if hi ∧ o.badHi + 1 ≥ debounce s then biasFault n 2 s
    else s

/-- A result of a bias supply: the outputs in force that need it count a failure (R397). -/
def checkSupply (spans : List Nat) (code : Nat) (s : State) : State :=
  forAll ((List.range 72).filter (fun n => supervised s n && spans.contains (vget s.warp.bias n).span))
    (fun n s =>
      let bad := supplyBelow code
      let k := (vget s.bda.outs n).badSup + 1
      let s := s.modOut n (fun o => { o with badSup := if bad then k else 0 })
      if bad ∧ k ≥ debounce s then supplyFault n s else s) s

/-- Supervision of a housekeeping result (R391, R397). -/
def superviseResult (ch code : Nat) (s : State) : State :=
  if ch < 72 then checkReadback ch code s
  else if ch < 136 then checkCurrent (ch - 72) code s
  else if ch = 145 then checkSupply [1] code s
  else if ch = 146 then checkSupply [2, 3] code s
  else s

/-! ### Commit and stage entry (R387, R396) -/

/-- A full commit: every enabled output takes the span of its BIAS entry and its input register the safe code or VMIN; an
output the new warp does not enable is at safe bias (R387). -/
def bdaCommit (s : State) : State :=
  forAll (List.range 72) (fun n s =>
    let b := vget s.warp.bias n
    if b.enable then
      let k := if safeSpan s.bda.record n = b.span then safeCode s.bda.record n else b.vmin
      s.setReg (Reg.BDA_CODE n) (BitVec.ofNat 32 k)
    else s.modOut n BOut.toSafe) s

/-- Read the safe-bias record at stage 1 entry (R396). -/
def bdaReadRecord (s : State) : State :=
  s.modBda (fun d => match safeRecord s with
    | some b => { d with recordOk := true, record := b }
    | none => { d with recordOk := false, record := [] })

/-! ### Registers computed from the state (R409) -/

/-- BDA_STATUS. -/
def bdaStatus (s : State) : Word :=
  pk [(31, b2n s.bda.safe), (30, b2n s.bda.recordOk), (24, s.bda.cause), (0, bitsOf 9 (fun g => (vget s.bda.timed g).isSome))]

/-- BDA_ACTIVE[n]. -/
def bdaActive (s : State) (n : Nat) : Word :=
  let o := vget s.bda.outs n
  pk [(31, b2n (s.bda.safe || o.safe)), (28, (vget s.warp.bias n).span), (0, o.code)]

/-- BDA_OUT_STATUS[n]. -/
def bdaOutStatus (s : State) (n : Nat) : Word :=
  let o := vget s.bda.outs n
  pk [(31, b2n (o.cause != 0)), (28, o.cause), (27, b2n o.clamped), (26, b2n (decide (s.time.tb1 < o.settle))), (0, o.readback)]

/-- BDA_FAULT_SUM[i]. -/
def bdaFaultSum (s : State) (i : Nat) : Word :=
  BitVec.ofNat 32 (bitsOf 32 (fun j => decide (32 * i + j < 72) && (vget s.bda.outs (32 * i + j)).cause != 0))

/-- BDA_VLIM[n]. -/
def bdaVlim (s : State) (n : Nat) : Word := pk [(16, (vget s.warp.bias n).vmax), (0, (vget s.warp.bias n).vmin)]
/-- BDA_ILIM[n]. -/
def bdaIlim (s : State) (n : Nat) : Word := pk [(16, (vget s.warp.bias n).imax), (0, (vget s.warp.bias n).imin)]

end Sys2Proof.Machine
end

