-- ==== Sys2Proof/Machine/NvsRec.lean ====
section
/-!
DEFINITION. The record interface and the data port of the calibration store (R415, R423, R437, R443, R481), and a power-fail
warning (R418).
-/

namespace Sys2Proof.Machine

/-! ### Contents of system records (R238, R420, R423) -/

/-- Sum of the magnitudes of the taps of an LNE_TX_EQ word (R238). -/
def tapSum (w : Word) : Nat :=
  (toS 4 (fld w 23 20)).natAbs + (toS 5 (fld w 19 15)).natAbs + fld w 14 9 + (toS 5 (fld w 8 4)).natAbs

/-- A system record body breaks none of its tables (R423). -/
def contentOk (type : Nat) (b : List Byte) : Bool :=
  match type with
  | 1 => le b 0 2 == 1 && decide (byteAt b 2 ≤ 2) && decide (byteAt b 3 ≤ 2) &&
      (List.range 8).all (fun n => decide (byteAt b (4 + 4 * n) < 128))
  | 2 => decide (byteAt b 0 ≤ 2) && decide (byteAt b 1 ≤ 2) && byteAt b 2 == 0 && byteAt b 3 == 0 && decide (byteAt b 4 ≤ 1) &&
      decide (byteAt b 5 < 4) && zeros b 6 2 &&
      (List.range 29).all (fun n => decide (tapSum (BitVec.ofNat 32 (le b (8 + 4 * n) 4)) ≤ 63))
  | 3 => decide (byteAt b 0 % 4 ≤ 1) && decide (byteAt b 0 / 16 % 8 ≤ 4) && zeros b 4 4
  | 4 => safeRecordOk b
  | 8 => (List.range 7).all (fun i => decide (le b (2 * i) 2 < le b (2 * i + 2) 2))
  | _ => false

/-! ### Record writes of host software (R423, R443, R481) -/

/-- NVS_REC_STATUS: 1 DONE, 2 REFUSED with a code, 3 IN_PROGRESS. -/
def recStatus (outcome code : Nat) (s : State) : State :=
  let s := s.setReg Reg.NVS_REC_STATUS (pk [(30, outcome), (16, code)])
  if outcome = 3 then s else s.raise Reg.NVS_INT_STATUS 4

/-- The record operation ends: its buffer is emptied (R443). -/
def recEnd (outcome code : Nat) (s : State) : State :=
  recStatus outcome code (s.modNvs (fun v => { v with recStage := {}, recBusy := false }))

/-- The first code of R423 that refuses a write; 0 when none does. -/
def recCode (s : State) (type : Nat) : Nat :=
  if s.nvs.recBusy then 6
  else if type ≠ 1 ∧ type ≠ 2 ∧ type ≠ 3 ∧ type ≠ 4 ∧ type ≠ 8 then 2
  else if type ≤ 4 ∧ s.pwr.stage ≥ 3 then 3
  else if ¬ s.nvs.recStage.fits (sysLen type / 4) then 1
  else if ¬ contentOk type s.nvs.recStage.bytes then 4
  else if (match inForce s (sysBase type) 0x800 type with
      | some (_, q, _) => decide (q + 1 ≥ 0xFFFFFFFF)
      | none => false) then 7
  else 0

/-- NVS_REC_CTRL.WRITE (R423): a refusal for BUSY leaves the operation that runs. -/
def recWrite (type : Nat) (s : State) : State :=
  let c := recCode s type
  if c = 6 then recStatus 2 6 s
  else if c ≠ 0 then recEnd 2 c s
  else
    let s := queueWrite { origin := .recPort, base := sysBase type, pitch := 0x800, type := type, body := s.nvs.recStage.bytes } s
    recStatus 3 0 (s.modNvs (fun v => { v with recBusy := true }))

/-- Stage a word in NVS_REC_DATA (R443). -/
def recData (w : Word) (s : State) : State :=
  let past := s.nvs.recStage.words.length ≥ 512
  let s := s.modNvs (fun v => { v with recStage := v.recStage.push 512 w })
  if past then s.refusedWrite Reg.NVS_REC_DATA else s

/-- Empty the record staging buffer. -/
def recClear (s : State) : State := s.modNvs (fun v => { v with recStage := {} })

/-- NVS_REC_DATA_WRITE (R443). -/
def execNvsRecDataWrite (w : Word) (s : State) : Host.Outcome State Fault Refusal :=
  .next (s.hosted Reg.NVS_REC_DATA (recData w))

/-- NVS_REC_WRITE (R423). -/
def execNvsRecWrite (type : Byte) (s : State) : Host.Outcome State Fault Refusal :=
  .next (s.hosted Reg.NVS_REC_CTRL (recWrite type.toNat))

/-- NVS_REC_CLEAR (R481). -/
def execNvsRecClear (s : State) : Host.Outcome State Fault Refusal := .next (s.hosted Reg.NVS_REC_CTRL recClear)

/-- A write of NVS_REC_CTRL: CLEAR, then WRITE (R481). -/
def recCtrlWrite (w : Word) (s : State) : State :=
  let s := if bitOf w 1 then recClear s else s
  if bitOf w 0 then recWrite (fld w 15 8) s else s

/-! ### The data port (R415) -/

/-- The store word address. -/
def nvsAddr (s : State) : Nat := s.fld Reg.NVS_ADDR 20 2 * 4

/-- The word at NVS_ADDR. -/
def nvsData (s : State) : Word := BitVec.ofNat 32 (leNat (s.storeAt (nvsAddr s) 4))

/-- NVS_ADDR advances after each access. -/
def nvsAdvance (s : State) : State := s.setReg Reg.NVS_ADDR (BitVec.ofNat 32 ((nvsAddr s + 4) % 2 ^ 21))

/-- A write of NVS_DATA: only the host area is written, and no write starts from a power-fail warning on (R415, R418);
`fails` tells that the row failed verification, and how many reserve rows failed after it (R412, R414). -/
def nvsDataWrite (w : Word) (fails : Option Nat) (s : State) : State :=
  let a := nvsAddr s
  if a < 0x180000 then nvsAdvance (s.refusedWrite Reg.NVS_DATA)
  else if s.nvs.powerFail then nvsAdvance s
  else
    let r := match fails with
      | some bad => rowFail (a / 512) bad s
      | none => (s, true)
    nvsAdvance (if r.2 then r.1.storePut a (leBytes 4 w.toNat) else r.1)

/-- NVS_DATA_ACCESS (R415): a read, or a write of a word. -/
def execNvsDataAccess (write : Option Word) (fails : Option Nat) (s : State) : Host.Outcome State Fault Refusal :=
  .next (s.hosted Reg.NVS_DATA (fun s => match write with
    | some w => nvsDataWrite w fails s
    | none => nvsAdvance s))

/-! ### Power-fail warning (R418) -/

/-- A power-fail warning: no new write starts; on a VSEN warning a write with more bytes left than 40 µs of writing stops at
once, and leaves its slot invalid. `remaining` is the bytes of the write that are left. -/
def powerFailWarning (vsen : Bool) (remaining : Nat) (s : State) : State :=
  let s := (s.modNvs (fun v => { v with running := v.running || (!v.powerFail && !v.writes.isEmpty), powerFail := true })).raise
    Reg.NVS_INT_STATUS 8
  match s.nvs.writes with
  | [] => s
  | w :: rest =>
    if s.nvs.running ∧ vsen ∧ remaining > 40 * 32 then
      (tornWrite (writeSize w - remaining) w s).modNvs (fun v => { v with writes := rest, running := false })
    else s

/-- POWER_FAIL_WARNING (R418). -/
def execPowerFailWarning (vsen : Bool) (remaining : Nat) (s : State) : Host.Outcome State Fault Refusal :=
  .next (if s.pwr.off then s else powerFailWarning vsen remaining s)

/-- A record write is in progress. -/
def storeWriting (s : State) : Bool := !s.nvs.writes.isEmpty && (!s.nvs.powerFail || s.nvs.running)

/-- NVS_STATUS (R437). -/
def nvsStatus (s : State) : Word :=
  pk [(31, b2n (tw3216AllOk s)), (30, b2n (stepsOk s)), (29, b2n (networkOk s)), (28, b2n (sensorsOk s)),
      (27, b2n s.nvs.powerFail), (26, b2n (storeWriting s)),
      (8, bitsOf 8 (fun i => (sysRec s (i + 1)).isSome)), (0, reserveRowsFree s.nvs)]

end Sys2Proof.Machine
end

