-- ==== Sys2Proof/Machine/Drc.lean ====
section
/-!
DEFINITION. The capture memory controller (R351…R367): training, the training lock, refresh, frequency changes, pattern
helpers, the violations of the memory device, the capture write budget of R331, and the commands of the DRC block.
-/

namespace Sys2Proof.Machine

/-! ### The write budget (R331) -/

/-- Source rate of a stream in 10 kS/s (Table 13-1). -/
def sourceRate (s : State) (st : Nat) : Nat :=
  let path := 49152 / 2 ^ s.pwr.level
  match s.fld (Reg.ACQ_STREAM_SRC st) 31 28 with
  | 0 => path | 1 => 2 * path | 2 => 98304
  | 3 => 98304 / 2 ^ s.fld (Reg.ACQ_MON_CFG (s.fld (Reg.ACQ_STREAM_SRC st) 27 22)) 31 28
  | 4 => path | 5 => path
  | _ => 0

/-- Entry size of a stream in bytes (R330). -/
def entrySize (s : State) (st : Nat) : Nat :=
  (if s.bit (Reg.ACQ_STREAM_SRC st) 17 then 8 else 4) * (if s.bit (Reg.ACQ_STREAM_SRC st) 16 then 2 else 1)

/-- Reduction interval of a stream; 1 without reduction. -/
def reduceOf (s : State) (st : Nat) : Nat :=
  if s.bit (Reg.ACQ_STREAM_SRC st) 16 then s.fld (Reg.ACQ_STREAM_REDUCE st) 15 0 + 1 else 1

/-- A stream is neither IDLE nor DONE. -/
def streamActive (s : State) (st : Nat) : Bool :=
  match (vget s.acq.streams st).state with
  | .idle | .done => false
  | _ => true

/-- Every capture stream is IDLE or DONE. -/
def streamsQuiet (s : State) : Bool := (List.range 4).all (fun st => !streamActive s st)

/-- The write rate of some streams as a fraction, in 10^4 bytes per second. -/
def writeRateOf (s : State) (l : List Nat) : Nat × Nat :=
  l.foldl (fun q st => (q.1 * reduceOf s st + sourceRate s st * entrySize s st * q.2, q.2 * reduceOf s st)) (0, 1)

/-- The budget of a data-rate code, in 10^4 bytes per second (Table 13-2). -/
def budgetOf (rate : Nat) : Nat :=
  match rate with
  | 0 => 196608 | 1 => 393216 | 2 => 589824 | 3 => 589824 | 4 => 786432
  | _ => 0

/-- The streams that use the budget. -/
def activeStreams (s : State) : List Nat := (List.range 4).filter (streamActive s)

/-- The memory runs at some rate. -/
def dramRuns (s : State) : Bool :=
  match s.drc.state with
  | .ready | .selfRefresh | .freqChange => true
  | .training => s.drc.retrainNeeded
  | _ => false

/-- ACQ_BUDGET (R350). -/
def acqBudget (s : State) : Word :=
  let w := writeRateOf s (activeStreams s)
  pk [(16, if dramRuns s then divUp (budgetOf s.drc.rate) 100 else 0), (0, divUp w.1 (100 * w.2) % 65536)]

/-! ### Size and violations -/

/-- Capture memory size in GiB (Tables 14-1 and 14-8): 0 for an unsupported configuration. -/
def dramGiB (s : State) : Nat :=
  match s.fld Reg.DRC_CFG 1 0, s.bit Reg.DRC_CFG 2 with
  | 0, true => 4
  | 1, false => 4
  | 1, true => 8
  | _, _ => 0

/-- Capture memory size in bytes. -/
def dramSize (s : State) : Nat := dramGiB s * 2 ^ 30

/-- The device has a capture memory controller and runs at stage 1 or above. -/
def hasDrc (s : State) : Bool := s.fuse.order == .xf && decide (s.pwr.stage ≥ 1)

/-- A violation of the memory device (R366): class 1 MR_INVALID, 2 TEMP_HIGH, 3 TRAIN_FAIL, 4 DQS_DRIFT, 5 VERIFY. -/
def dramViol (cls : Nat) (s : State) : State :=
  let s := match cls with
    | 1 => s.addByte Reg.DRC_VIOL 16 1
    | 2 => s.addByte Reg.DRC_VIOL 24 1
    | 3 => s.addByte Reg.DRC_VIOL 8 1
    | 4 => s.addByte Reg.DRC_VIOL 0 1
    | _ => s
  (s.raise Reg.DRC_INT_STATUS 0).viol 6 0 cls 0

/-! ### Pages (R353, R355) -/

/-- Rows of a bank: 2^16 for 8 Gb dies, 2^17 for 16 Gb dies (Table 14-2). -/
def dramRows (s : State) : Nat := if s.fld Reg.DRC_CFG 1 0 = 0 then 2 ^ 16 else 2 ^ 17

/-- The last 4 KiB block of a rank's bank among the blocks `lo…hi`, whose row an access of them leaves open (Table 14-2). -/
def lastBlock (rows lo hi key : Nat) : Option Nat :=
  let start := key / 8 * (8 * rows)
  let top := min hi (start + 8 * rows - 1)
  let k := top - (top + 8 - key % 8) % 8
  if start ≤ top ∧ lo ≤ k ∧ start ≤ k then some k else none

/-- An access to the bytes [a, a + n) leaves the pages it used open, and has closed the other pages of their banks (R355). -/
def dramTouch (a n : Nat) (s : State) : State :=
  if n = 0 then s
  else
    let rows := dramRows s
    s.modDrc (fun d => { d with
      pages := (List.range 16).foldl (fun m key =>
        match lastBlock rows (a / 4096) ((a + n - 1) / 4096) key with
        | some k => tset (fun _ => 0) m key (k / 8 % rows + 1)
        | none => m) d.pages })

/-- Every page closes: before a refresh, at self-refresh entry, a frequency change, a training step and a mode-register write
(R355). -/
def Drc.closed (d : Drc) : Drc := { d with pages := [] }

/-! ### Refresh (R356, R357) -/

/-- The tREFI factor exponent that an MR4 value sets (Table 14-3). -/
def mr4Factor (v : Nat) : Nat := if v < 4 then 0 else if v = 4 then 1 else 2

/-- An MR4 value takes effect: a shorter tREFI multiplies the owed refreshes, which then go first (R357). -/
def applyMr4 (v : Nat) (s : State) : State :=
  let f := mr4Factor v
  let s := s.modDrc (fun d => { d with
    owed := if f > d.factor then d.owed * 2 ^ (f - d.factor) else d.owed
    flush := d.flush || (decide (f > d.factor) && decide (d.owed > 0))
    factor := f, mr4 := v, mrBad := 0, derate := decide (v ≥ 6) })
  if v = 7 then (dramViol 2 s).raise Reg.DRC_INT_STATUS 4 else s

/-- A read of MR4 (R357, R366): none is a reserved value; after three in a row MR4 is taken as 0b110. -/
def readMr4 (v : Option Nat) (s : State) : State :=
  match v with
  | some v => applyMr4 v s
  | none =>
    let s := dramViol 1 (s.modDrc (fun d => { d with mrBad := d.mrBad + 1 }))
    if s.drc.mrBad ≥ 3 then applyMr4 6 s else s

/-- The memory answers mode-register reads. -/
def dramAnswers (s : State) : Bool :=
  hasDrc s && (match s.drc.state with
    | .ready | .freqChange | .training => true
    | _ => false)

/-- MR4_READ (R357). -/
def execMr4Read (v : Option (Fin 8)) (s : State) : Host.Outcome State Fault Refusal :=
  .next (if dramAnswers s then readMr4 (v.map (·.val)) s else s)

/-- A refresh falls due (R356): postponed while requests wait and fewer than 8 are owed; otherwise issued, with every owed
one when no request waits or the debt goes first. -/
def refreshDue (waiting : Bool) (s : State) : State :=
  s.modDrc (fun d =>
    if d.flush then { d.closed with owed := 0, flush := false }
    else if !waiting then { d.closed with owed := 0 }
    else if d.owed < 8 then { d with owed := d.owed + 1 } else d.closed)

/-- REFRESH_DUE (R356). -/
def execRefreshDue (waiting : Bool) (s : State) : Host.Outcome State Fault Refusal :=
  .next (if hasDrc s ∧ s.drc.state = .ready then refreshDue waiting s else s)

/-- The neighbour rows of a selected activate that exist (R358). -/
def neighbourRows (s : State) (row : Nat) : List Nat :=
  let near : List Int := [(row : Int) - 1, row + 1] ++ (if s.bit Reg.DRC_REF_CFG 8 then [(row : Int) - 2, row + 2] else [])
  (near.filter (fun (r : Int) => decide (0 ≤ r) && decide (r < (dramRows s : Nat)))).map Int.toNat

/-- The page of a selected activate of `row` in a bank (8·rank + bank) closes, and its neighbours are refreshed (R358). -/
def neighbourRefresh (bank row : Nat) (s : State) : State :=
  (s.modDrc (fun d => if tget (fun _ => 0) d.pages bank = row + 1 then { d with pages := tset (fun _ => 0) d.pages bank 0 } else d)).addReg
    Reg.DRC_NR_COUNT (neighbourRows s row).length

/-- NEIGHBOUR_REFRESH (R358). -/
def execNeighbourRefresh (row : Fin 16 × Nat) (s : State) : Host.Outcome State Fault Refusal :=
  .next (if hasDrc s ∧ s.drc.state = .ready ∧ s.fld Reg.DRC_REF_CFG 3 0 ≠ 0 ∧ row.2 < dramRows s then
    neighbourRefresh row.1 row.2 s else s)

/-! ### Training (R359…R361) -/

/-- Start training shadow set `set` at a rate, from a step, under the drover's lock. -/
def startTraining (set rate first : Nat) (s : State) : State :=
  s.modDrc (fun d => { d.closed with
    state := .training, trainSet := set, step := first, tries := 0, lock := .drover
    setRate := vset d.setRate set rate, setTrained := vset d.setTrained set false })

/-- BOOT_RATE. -/
def bootRate (s : State) : Nat := s.fld Reg.DRC_CFG 6 4

/-- A retraining under R360 may start now. -/
def mayRetrain (s : State) : Bool :=
  s.drc.retrainNeeded && s.drc.state == .ready && s.drc.lock == .free && s.drc.freq.isNone && streamsQuiet s

/-- DRAM_TRAINING_START (R359, R360): the drover trains an untrained memory after the firmware starts, or repeats steps 3
to 6 of a drifted one. -/
def trainingStart (s : State) : State :=
  if mayRetrain s then startTraining s.drc.activeSet s.drc.rate 3 s
  else if s.pwr.fwOk ∧ dramGiB s ≠ 0 ∧ s.drc.lock = .free ∧ (s.drc.state = .untrained ∨ (s.drc.state = .failed ∧ ¬ s.drc.asked)) then
    startTraining 0 (bootRate s) 1 (s.modDrc (fun d => { d with asked := true }))
  else s

/-- DRAM_TRAINING_START (R359). -/
def execDramTrainingStart (s : State) : Host.Outcome State Fault Refusal := .next (if hasDrc s then trainingStart s else s)

/-- Training completes: the set is trained and in force, and the memory is READY. -/
def trainingDone (s : State) : State :=
  (s.modDrc (fun d => { d with
    state := .ready, step := 0, tries := 0, lock := .free, retrainNeeded := false
    setTrained := vset d.setTrained d.trainSet true
    activeSet := d.trainSet, rate := vget d.setRate d.trainSet })).raise Reg.DRC_INT_STATUS 3

/-- A training step completes or fails (R359): retried twice, FAILED at the third failure. A frequency change trains its set
before it completes (R364). -/
def trainingStepDone (ok : Bool) (s : State) : State :=
  if s.drc.step = 0 then s
  else if ok then
    if s.drc.step < 6 then s.modDrc (fun d => { d with step := d.step + 1, tries := 0 })
    else if s.drc.state = .freqChange then
      s.modDrc (fun d => { d with step := 0, tries := 0, setTrained := vset d.setTrained d.trainSet true })
    else trainingDone s
  else
    let s := s.modDrc (fun d => { d with tries := d.tries + 1, failed := satAdd 0xFF d.failed 1 })
    if s.drc.tries < 3 then s
    else (dramViol 3 (s.modDrc (fun d => { d with state := .failed, step := 0, tries := 0, lock := .free, freq := none }))).raise
      Reg.DRC_INT_STATUS 5

/-- DRAM_TRAINING_STEP_DONE (R359). -/
def execDramTrainingStepDone (ok : Bool) (s : State) : Host.Outcome State Fault Refusal :=
  .next (if hasDrc s then trainingStepDone ok s else s)

/-- DQS_CHECK (R360): the drift since the baseline, in 1/64 UI. -/
def dqsCheck (drift : Int) (s : State) : State :=
  let s := s.modDrc (fun d => { d with dqs := drift })
  if drift.natAbs > 16 then
    let s := dramViol 4 (s.modDrc (fun d => { d with retrainNeeded := true }))
    if mayRetrain s then startTraining s.drc.activeSet s.drc.rate 3 s else s
  else s

/-- DQS_CHECK (R360). -/
def execDqsCheck (drift : Int) (s : State) : Host.Outcome State Fault Refusal :=
  .next (if hasDrc s ∧ s.drc.state = .ready then dqsCheck drift s else s)

/-- Grant the lock to a frequency change: the inactive set is loaded and the memory leaves service (R364). -/
def grantFreq (s : State) : State :=
  match s.drc.freq with
  | none => s
  | some q =>
    let set := 1 - s.drc.activeSet
    let trained := vget s.drc.setTrained set && vget s.drc.setRate set == q.rate
    s.modDrc (fun d => { d.closed with
      lock := .freq, state := .freqChange, owed := 0, flush := false
      freq := some { q with granted := true, set := set }
      trainSet := set, step := if trained then 0 else 1, tries := 0
      setRate := vset d.setRate set q.rate, setTrained := vset d.setTrained set trained })

/-- The outcome of a host lock request, in DRC_TRAIN_LOCK. -/
def lockOutcome (outcome code : Nat) (s : State) : State :=
  s.setReg Reg.DRC_TRAIN_LOCK (pk [(30, outcome), (16, code)])

/-- DRC_TRAIN_LOCK.HOST (R361): takes the lock, or releases it to a waiting frequency change. -/
def hostLock (on : Bool) (s : State) : State :=
  if on then
    if s.drc.lock = .drover then lockOutcome 2 1 s
    else if ¬ streamsQuiet s then lockOutcome 2 2 s
    else if s.drc.state ≠ .ready ∧ s.drc.state ≠ .failed then lockOutcome 2 3 s
    else lockOutcome 1 0 (s.modDrc (fun d => { d with lock := .host }))
  else if s.drc.lock = .host then
    let s := s.modDrc (fun d => { d with lock := .free })
    if s.drc.freq.isSome then grantFreq s else s
  else s

/-- HOST_TRAIN_LOCK (R361). -/
def execHostTrainLock (on : Bool) (s : State) : Host.Outcome State Fault Refusal :=
  .next (s.hosted Reg.DRC_TRAIN_LOCK (hostLock on))

/-- DRC_TRAIN_LOCK.RETRAIN (R359): retrains a FAILED memory while no lock is held. -/
def retrainFailed (s : State) : State :=
  if s.drc.state = .failed ∧ s.drc.lock = .free ∧ dramGiB s ≠ 0 then startTraining 0 (bootRate s) 1 s else s

/-- DRC_RETRAIN (R359). -/
def execDrcRetrain (s : State) : Host.Outcome State Fault Refusal := .next (s.hosted Reg.DRC_TRAIN_LOCK retrainFailed)

/-! ### Frequency changes (R363, R364) -/

/-- DRC_FREQ_RESULT: 1 DONE, 2 REFUSED with a code, 3 IN_PROGRESS. -/
def freqResult (outcome code : Nat) (s : State) : State :=
  let s := s.setReg Reg.DRC_FREQ_RESULT (pk [(30, outcome), (16, code)])
  if outcome = 1 then s.raise Reg.DRC_INT_STATUS 1 else if outcome = 2 then s.raise Reg.DRC_INT_STATUS 2 else s

/-- The capture budget at a rate is below the write rate in use (R363). -/
def overBudget (s : State) (rate : Nat) : Bool :=
  let w := writeRateOf s (activeStreams s)
  decide (budgetOf rate * w.2 < w.1)

/-- Neither shadow set is trained at a rate. -/
def rateUntrained (s : State) (rate : Nat) : Bool :=
  (List.range 2).all (fun i => !(vget s.drc.setTrained i && vget s.drc.setRate i == rate))

/-- A write of DRC_FREQ_REQ (R363). -/
def freqReq (rate : Nat) (s : State) : State :=
  let s := s.setReg Reg.DRC_FREQ_REQ (BitVec.ofNat 32 rate)
  if rate > 4 ∨ (dramRuns s ∧ rate = s.drc.rate) then freqResult 2 1 s
  else if s.drc.state ≠ .ready then freqResult 2 2 s
  else if s.drc.freq.isSome then freqResult 2 3 s
  else if overBudget s rate then freqResult 2 4 s
  else if rateUntrained s rate ∧ ¬ streamsQuiet s then freqResult 2 5 s
  else
    let s := freqResult 3 0 (s.modDrc (fun d => { d with freq := some { rate := rate, granted := false } }))
    if s.drc.lock = .free then grantFreq s else s

/-- DRC_FREQ_REQ (R363). -/
def execDrcFreqReq (rate : Fin 8) (s : State) : Host.Outcome State Fault Refusal :=
  .next (s.hosted Reg.DRC_FREQ_REQ (freqReq rate))

/-- FREQ_CHANGE_DONE: the memory has left self-refresh at the new rate, and MR4 is read (R364). -/
def freqChangeDone (mr4 : Option Nat) (s : State) : State :=
  match s.drc.freq with
  | none => s
  | some q =>
    if ¬ q.granted ∨ s.drc.step ≠ 0 then s
    else
      freqResult 1 0 (readMr4 mr4 (s.modDrc (fun d => { d with
        state := .ready, lock := .free, activeSet := q.set, rate := q.rate, freq := none })))

/-- FREQ_CHANGE_DONE (R364). -/
def execFreqChangeDone (mr4 : Option (Fin 8)) (s : State) : Host.Outcome State Fault Refusal :=
  .next (if hasDrc s then freqChangeDone (mr4.map (·.val)) s else s)

/-- FREQ_LOCK_TIMEOUT (R364): the lock was not granted within 10 ms. -/
def freqLockTimeout (s : State) : State :=
  match s.drc.freq with
  | none => s
  | some q => if q.granted then s else freqResult 2 6 (s.modDrc (fun d => { d with freq := none }))

/-- FREQ_LOCK_TIMEOUT (R364). -/
def execFreqLockTimeout (s : State) : Host.Outcome State Fault Refusal := .next (if hasDrc s then freqLockTimeout s else s)

/-! ### Pattern helpers (R362) -/

/-- A write of DRC_PAT_CTRL (R362). -/
def patGo (w : Word) (s : State) : State :=
  if ¬ bitOf w 0 then s
  else if s.drc.lock ≠ .host then s.refusedWrite Reg.DRC_PAT_CTRL
  else if s.drc.pat.isSome then s
  else s.modDrc (fun d => { d with
    patDone := false
    pat := some { base := s.fld Reg.DRC_PAT_BASE 26 0, len := s.fld Reg.DRC_PAT_LEN 26 0, pattern := fld w 2 1
                  seed := (s.reg Reg.DRC_PAT_SEED).toNat, compareOnly := bitOf w 3 } })

/-- DRC_PAT_GO (R362). -/
def execDrcPatGo (w : Word) (s : State) : Host.Outcome State Fault Refusal := .next (s.hosted Reg.DRC_PAT_CTRL (patGo w))

/-- The bytes of a pattern over its range, past the end of the memory left out (R362). -/
def patBytes (s : State) (q : PatRun) : List Byte :=
  let a := q.base * 64
  (List.range (min (q.len * 64) (dramSize s - a))).map (fun i =>
    if q.pattern = 3 then BitVec.ofNat 8 ((a + i) / 4 * 4 / 2 ^ (8 * ((a + i) % 4)))
    else Config.patternByte q.pattern q.seed a (a + i))

/-- The byte lane of a byte address: 0 A low, 1 A high, 2 B low, 3 B high (Tables 14-2 and 14-7). -/
def byteLane (a : Nat) : Nat := a / 32 % 2 * 2 + a % 2

/-- The number of ones of a byte. -/
def onesOf (b : Byte) : Nat := ((List.range 8).filter (fun i => b.getLsbD i)).length

/-- The bits of a range that read back wrong, by address: what stands in memory, with the bits that the memory returns wrong, against the
pattern (R362). -/
def patDiffs (noise : List Byte) (from_ a : Nat) (want got : List Byte) : List (Nat × Byte) :=
  ((List.range want.length).zipWith (fun i x => (a + i, x.1 ^^^ x.2 ^^^ (if i < from_ then 0 else noise.getD (i - from_) 0))) (want.zip got)).filter (fun x => x.2 != 0)

/-- Bytes of capture memory: zero while the memory is FAILED (R354). -/
def dramBytes (s : State) (a n : Nat) : List Byte :=
  if s.drc.state = .failed then List.replicate n 0 else mread blank s.drc.mem a n

/-- Bytes are written to capture memory: none reaches a FAILED memory (R354). -/
def dramStore (a : Nat) (bs : List Byte) (s : State) : State :=
  if s.drc.state = .failed then s else s.modDrc (fun d => { d with mem := mwrite blank d.mem a bs })

/-- PATTERN_DONE: the pattern is written, unless the run only compares, and read back; `noise` is the bits that come back wrong, from byte `from_`
of the run on. Bit
errors are counted by byte lane, and the first failing unit is kept (R362). -/
def patternDone (noise : List Byte) (from_ : Nat) (s : State) : State :=
  match s.drc.pat with
  | none => s
  | some q =>
    let a := q.base * 64
    let want := patBytes s q
    let s := s.modDrc (fun d => { d with pat := none, patDone := true })
    let s := if q.compareOnly then s else dramStore a want s
    let bad := patDiffs noise from_ a want (dramBytes s a want.length)
    let s := forAll (List.range 4) (fun i s =>
      s.addReg (Reg.DRC_PAT_ERR i) (((bad.filter (fun x => byteLane x.1 == i)).map (fun x => onesOf x.2)).foldl (· + ·) 0)) s
    let s := s.setReg Reg.DRC_PAT_FIRST_ERR (match bad with
      | x :: _ => pk [(31, 1), (0, x.1 / 64 % 2 ^ 27)]
      | [] => 0)
    (dramTouch a want.length s).raise Reg.DRC_INT_STATUS 6

/-- PATTERN_DONE (R362). -/
def execPatternDone (noise : List Byte) (from_ : Nat) (s : State) : Host.Outcome State Fault Refusal :=
  .next (if hasDrc s then patternDone noise from_ s else s)

/-! ### Stage entry, sleep and Doze (R352, R361, R365) -/

/-- Stage 1 entry: DRC_CFG from the memory record; the memory is UNTRAINED and its contents are gone (R352). -/
def drcStage1 (s : State) : State :=
  let s := s.modDrc (fun _ => {})
  match sysRec s 3 with
  | some b => s.setReg Reg.DRC_CFG (BitVec.ofNat 32 (le b 0 4))
  | none => s

/-- The memory may enter self-refresh now (R365). -/
def drcMaySleep (s : State) : Bool := s.drc.lock == .free

/-- Self-refresh after the owed refreshes (R365). -/
def drcSleep (s : State) : State :=
  s.modDrc (fun d => if d.state = .ready then { d.closed with state := .selfRefresh, owed := 0, flush := false } else d)

/-- Leaving self-refresh (R365). -/
def drcWake (s : State) : State := s.modDrc (fun d => if d.state = .selfRefresh then { d with state := .ready } else d)

/-! ### Registers computed from the state (R367) -/

/-- DRC_STATUS. -/
def drcStatus (s : State) : Word :=
  let d := s.drc
  let st := match d.state with
    | .untrained => 0 | .training => 1 | .ready => 2 | .selfRefresh => 3 | .freqChange => 4 | .failed => 5
  let lk := match d.lock with
    | .free => 0 | .drover => 1 | .host => 2 | .freq => 3
  pk [(29, st), (28, d.activeSet), (25, d.rate), (24, b2n d.retrainNeeded), (22, lk), (0, dramGiB s)]

/-- DRC_SET[i]. -/
def drcSet (s : State) (i : Nat) : Word := pk [(31, b2n (vget s.drc.setTrained i)), (0, vget s.drc.setRate i)]

/-- DRC_REF_STATUS. -/
def drcRefStatus (s : State) : Word := pk [(16, s.drc.owed % 256), (8, s.drc.factor), (0, s.drc.mr4)]

/-- DRC_TRAIN_LOCK. -/
def drcTrainLock (s : State) : Word := put (s.reg Reg.DRC_TRAIN_LOCK) 0 0 (b2n (s.drc.lock == .host))

/-- DRC_TRAIN_STATUS. -/
def drcTrainStatus (s : State) : Word := pk [(28, s.drc.step), (24, s.drc.trainSet), (0, s.drc.failed)]

/-- DRC_PAT_STATUS. -/
def drcPatStatus (s : State) : Word := pk [(31, b2n s.drc.pat.isSome), (30, b2n s.drc.patDone)]

end Sys2Proof.Machine
end

