-- ==== Sys2Proof/Machine/Windows.lean ====
section
/-!
DEFINITION. The memories that lie in the register space: skein memory (R152, R153), predistortion coefficient memory (R186,
R188), DMA program memory and transfer window (R368), the flash page buffer (R457); as host software and DMA reach them.
-/

namespace Sys2Proof.Machine

/-- A byte of a skein window that holds a weight: the first 384 bytes of each 512-byte stride of 1,024 skeins (R152). -/
def skeinByte (off : Nat) : Bool := decide (off < 0x80000) && decide (off % 0x200 < 0x180)

/-- A byte of coefficient memory that holds an entry (R186). -/
def coefByte (off : Nat) : Bool :=
  decide (off < 0x100000) && decide (off % 0x2000 < 0xC00) && decide (off % 0x100 < 0xC6)

/-- Bytes from a memory window: a reserved byte reads 0 (R9). -/
def windowRead (ok : Nat → Bool) (m : Tab Byte) (off n : Nat) : List Byte :=
  (List.range n).zipWith (fun i b => if ok (off + i) then b else 0) (mread blank m off n)

/-- What a write of bytes from offset `off` up stores, `old` being what stands there: a reserved byte is left out (R9). -/
def windowBytes (ok : Nat → Bool) (old : List Byte) (off : Nat) (bs : List Byte) : List Byte :=
  (List.range bs.length).zipWith (fun i x => if ok (off + i) then x.2 else x.1) (old.zip bs)

/-- Bytes to a memory window: a reserved byte is left out (R9). -/
def windowWrite (ok : Nat → Bool) (m : Tab Byte) (off : Nat) (bs : List Byte) : Tab Byte :=
  mwrite blank m off (windowBytes ok (mread blank m off bs.length) off bs)

/-- Address of downlink skein memory. -/
def skeinDlBase : Nat := 0x01000000
/-- Address of uplink skein memory. -/
def skeinUlBase : Nat := 0x01800000
/-- Address of coefficient memory. -/
def coefBase : Nat := 0x04000000

/-- An address lies in a skein window. -/
def isSkein (a : Nat) : Bool := decide (skeinDlBase ≤ a) && decide (a < 0x02000000)
/-- An address lies in the coefficient memory window. -/
def isCoef (a : Nat) : Bool := decide (coefBase ≤ a) && decide (a < 0x04100000)
/-- An address lies in the DMA program memory. -/
def isDmaProg (a : Nat) : Bool := decide (0x00112000 ≤ a) && decide (a < 0x00116000)
/-- An address lies in the DMA transfer window. -/
def isDmaWindow (a : Nat) : Bool := decide (0x00118000 ≤ a) && decide (a < 0x00120000)
/-- An address lies in the flash page buffer. -/
def isFlashBuf (a : Nat) : Bool := decide (0x00000200 ≤ a) && decide (a < 0x00000300)

/-- Read bytes of the skein windows. -/
def skeinRead (s : State) (a n : Nat) : List Byte :=
  if a < skeinUlBase then windowRead skeinByte s.skn.dl (a - skeinDlBase) n
  else windowRead skeinByte s.skn.ul (a - skeinUlBase) n

/-- The newest writes of a banked memory with one more; those older than 64 ns of TB1 are forgotten (R155). -/
def keepRecent (now : Nat) (r : RecentWrite) (l : List RecentWrite) : List RecentWrite :=
  r :: l.filter (fun x => decide (now ≤ x.at_ + 64 * nsTu))

/-- Write bytes of the skein windows. -/
def skeinWrite (a : Nat) (bs : List Byte) (s : State) : State :=
  let old := skeinRead s a bs.length
  if a < skeinUlBase then
    s.modSkn (fun k => { k with
      dl := windowWrite skeinByte k.dl (a - skeinDlBase) bs
      recent := keepRecent s.time.tb1 { at_ := s.time.tb1, ul := false, off := a - skeinDlBase, old := old } k.recent })
  else
    s.modSkn (fun k => { k with
      ul := windowWrite skeinByte k.ul (a - skeinUlBase) bs
      recent := keepRecent s.time.tb1 { at_ := s.time.tb1, ul := true, off := a - skeinUlBase, old := old } k.recent })

/-- Read bytes of coefficient memory. -/
def coefRead (s : State) (a n : Nat) : List Byte := windowRead coefByte s.dpd.coef (a - coefBase) n

/-- Write bytes of coefficient memory. -/
def coefWrite (a : Nat) (bs : List Byte) (s : State) : State :=
  let old := coefRead s a bs.length
  s.modDpd (fun d => { d with
    coef := windowWrite coefByte d.coef (a - coefBase) bs
    recent := keepRecent s.time.tb1 { at_ := s.time.tb1, ul := false, off := a - coefBase, old := old } d.recent })

/-- A banked memory as the writes left it that completed before an instant of TB1: the later ones are undone, newest first
(R155). -/
def snapshotMem (ok : Nat → Bool) (ul : Bool) (before : Int) (l : List RecentWrite) (m : Tab Byte) : Tab Byte :=
  l.foldl (fun m x => if x.ul = ul ∧ (x.at_ : Int) > before then windowWrite ok m x.off x.old else m) m

/-- DPD_PATH_CFG.ADAPT of a path (R188). -/
def adaptOn (s : State) (p : Nat) : Bool := s.bit (Reg.DPD_PATH_CFG p) 31

/-- The path whose coefficient memory holds an address. -/
def coefPath (a : Nat) : Nat := (a - coefBase) / 0x4000

/-- A host write to coefficient memory: ignored and logged while the path's ADAPT = 1 (R188). -/
def coefHostWrite (a : Nat) (w : Word) (s : State) : State :=
  if adaptOn s (coefPath a) then s.refusedWrite a else coefWrite a (leBytes 4 w.toNat) s

/-- A word of DMA program memory (R368). -/
def dmaProgWord (s : State) (i : Nat) : Word := tget (fun _ => 0) s.dma.prog i

/-- Write a word of DMA program memory. -/
def dmaProgPut (i : Nat) (w : Word) (s : State) : State :=
  s.modDma (fun d => { d with prog := tset (fun _ => 0) d.prog i w })

/-- Read bytes of the transfer window. -/
def dmaWindowRead (s : State) (off n : Nat) : List Byte := mread blank s.dma.window off n

/-- Write bytes of the transfer window. -/
def dmaWindowWrite (off : Nat) (bs : List Byte) (s : State) : State :=
  s.modDma (fun d => { d with window := mwrite blank d.window off bs })

/-- A word of a window as host software reads it; none outside the windows. -/
def windowWord (s : State) (a : Nat) : Option Word :=
  if isSkein a then some (BitVec.ofNat 32 (leNat (skeinRead s a 4)))
  else if isCoef a then some (BitVec.ofNat 32 (leNat (coefRead s a 4)))
  else if isDmaProg a then some (dmaProgWord s ((a - 0x00112000) / 4))
  else if isDmaWindow a then some (BitVec.ofNat 32 (leNat (dmaWindowRead s (a - 0x00118000) 4)))
  else if isFlashBuf a then some (BitVec.ofNat 32 (leNat (mread blank s.glb.flashBuf (a - 0x200) 4)))
  else none

/-- The slot after `n` (R369). -/
def nextSlot (n : Nat) : Nat := (n + 1) % 512

/-- A channel whose WAIT EVENT finds its bit pending takes it and goes on at the next slot (R373). -/
def DmaCh.takeEvent (now : Nat) (c : DmaCh) : DmaCh :=
  if c.state = .waiting ∧ c.cond = 1 ∧ nbit c.events c.arg then
    { c with state := .running, pc := nextSlot c.pc, events := c.events - 2 ^ c.arg, began := now }
  else c

/-- Set a DMA event pending on every channel, where a WAIT may take it (R373). -/
def dmaEvent (n : Nat) (s : State) : State :=
  s.modDma (fun d => { d with chans := vall d.chans (fun _ c =>
    ({ c with events := if nbit c.events n then c.events else c.events + 2 ^ n } : DmaCh).takeEvent s.time.tb1) })

end Sys2Proof.Machine
end

