-- ==== Sys2Proof/Machine/Dma.lean ====
section
/-!
DEFINITION. DMA channels (R368…R378): fetch, the five instructions with their checks and faults, waits, and the channel
commands.
-/

namespace Sys2Proof.Machine

/-! ### Slots (R369) -/

/-- Word `i` of slot `n` of the program memory. -/
def slotWord (s : State) (n i : Nat) : Word := dmaProgWord s (8 * n + i)

/-- OP of a slot: 0 END, 1 MOVE, 2 LOOP, 3 WAIT, 4 SIGNAL. -/
def slotOp (s : State) (n : Nat) : Nat := fld (slotWord s n 0) 31 28

/-- The words of a slot from `i` on are zero. -/
def tailZero (s : State) (n i : Nat) : Bool := ((List.range 8).filter (i ≤ ·)).all (fun j => slotWord s n j == 0)

/-- A slot's unused bits and words are zero and its fields lie in their ranges (Table 14-10). -/
def slotGood (s : State) (n : Nat) : Bool :=
  let w := slotWord s n 0
  match slotOp s n with
  | 1 => fld w 20 16 == 0 && fld w 27 26 != 3 && fld w 25 24 != 3 && (bitOf w 23 || fld w 15 0 == 0)
      && slotWord s n 1 != 0 && tailZero s n 6
  | 2 => fld w 27 17 == 0 && fld w 15 15 == 0 && fld w 14 0 != 0 && fld (slotWord s n 1) 31 9 == 0 && tailZero s n 4
  | 3 => fld w 27 26 == 0 && fld w 23 0 == 0 &&
      (match fld w 25 24 with
        | 0 => tailZero s n 2
        | 1 => fld (slotWord s n 1) 31 5 == 0 && slotWord s n 2 == 0 && slotWord s n 3 == 0 && tailZero s n 5
        | 2 => tailZero s n 5
        | _ => false)
  | 4 => fld w 27 18 == 0 && tailZero s n 1
  | 0 => true
  | _ => false

/-! ### Faults (R377) -/

/-- A channel faults with a code, at its PC. -/
def chFault (c code : Nat) (s : State) : State :=
  (s.modCh c (fun x => { x with state := .faulted, fault := code })).raise Reg.DMA_INT_FAULT c

/-- Run an instruction of a running channel: the slot at its PC must hold operation `op`; an undefined OP or a slot that
breaks Table 14-10 faults BAD_OP. During the pause after a MOVE at T1 the channel holds before its next fetch (R404). -/
def dmaStep (c op : Nat) (f : State → State) (s : State) : State :=
  let x := vget s.dma.chans c
  if x.state ≠ .running ∨ s.time.tb1 < x.rest then s
  else if slotOp s x.pc ≥ 5 then chFault c 1 s
  else if slotOp s x.pc ≠ op then s
  else if ¬ slotGood s x.pc then chFault c 1 s
  else f s

/-- A channel goes on at the next slot, which it fetches now. -/
def chNext (c : Nat) (s : State) : State := s.modCh c (fun x => { x with pc := nextSlot x.pc, began := s.time.tb1 })

/-! ### MOVE (R370…R372) -/

/-- The operands of a MOVE with the channel's offsets applied: spaces, rows, bytes per row, starts and strides. -/
structure MoveArgs where
  ssp : Nat
  dsp : Nat
  strided : Bool
  rows : Nat
  len : Nat
  src : Int
  dst : Int
  sstride : Int
  dstride : Int
  deriving DecidableEq, Repr

/-- The MOVE in a channel's slot (Table 14-10, R370). -/
def moveArgs (s : State) (c : Nat) : MoveArgs :=
  let x := vget s.dma.chans c
  let w := fun i => slotWord s x.pc i
  let strided := bitOf (w 0) 23
  { ssp := fld (w 0) 27 26, dsp := fld (w 0) 25 24, strided := strided
    rows := if strided then fld (w 0) 15 0 + 1 else 1, len := (w 1).toNat
    src := ((w 2).toNat + 2 ^ 32 * fld (w 0) 22 22 : Nat) + x.soff
    dst := ((w 3).toNat + 2 ^ 32 * fld (w 0) 21 21 : Nat) + x.doff
    sstride := if strided then toS 32 (w 4).toNat else 0, dstride := if strided then toS 32 (w 5).toNat else 0 }

/-- Start of row `i` at the source. -/
def MoveArgs.srcRow (m : MoveArgs) (i : Nat) : Int := m.src + i * m.sstride
/-- Start of row `i` at the destination. -/
def MoveArgs.dstRow (m : MoveArgs) (i : Nat) : Int := m.dst + i * m.dstride

/-- The bytes [a, a + n) lie in a space (Table 14-9). -/
def inSpace (s : State) (sp : Nat) (a : Int) (n : Nat) : Bool :=
  match sp with
  | 0 => decide (0 ≤ a) && decide (a + n ≤ (dramSize s : Nat))
  | 1 => (decide ((0x01000000 : Int) ≤ a) && decide (a + n ≤ (0x02000000 : Int))) ||
         (decide ((0x04000000 : Int) ≤ a) && decide (a + n ≤ (0x04100000 : Int)))
  | 2 => decide (0 ≤ a) && decide (a + n ≤ (0x8000 : Int))
  | _ => false

/-- Every row of a MOVE satisfies a test. -/
def MoveArgs.allRows (m : MoveArgs) (f : Nat → Bool) : Bool := (List.range m.rows).all f

/-- A multiple of 4. -/
def by4 (x : Int) : Bool := x % 4 == 0

/-- Lowest and one past the highest byte of the rows from a start with a stride. -/
def spanOf (start stride : Int) (rows len : Nat) : Int × Int :=
  let last := start + ((rows - 1 : Nat) : Int) * stride
  (min start last, max start last + len)

/-- A strided MOVE whose intervals intersect in one space (R372). -/
def moveOverlaps (m : MoveArgs) : Bool :=
  let a := spanOf m.src m.sstride m.rows m.len
  let b := spanOf m.dst m.dstride m.rows m.len
  m.strided && m.ssp == m.dsp && decide (a.1 < b.2) && decide (b.1 < a.2)

/-- A destination byte lies in the coefficient memory of a path whose ADAPT = 1 (R368). -/
def moveDenied (s : State) (m : MoveArgs) : Bool :=
  m.dsp == 1 && !m.allRows (fun i =>
    let a := (m.dstRow i).toNat
    !(isCoef a) || ((List.range 64).filter (fun p => decide (coefPath a ≤ p) && decide (p ≤ coefPath (a + m.len - 1)))).all
      (fun p => !adaptOn s p))

/-- The first check of R370 that a MOVE fails, after BAD_OP; 0 when none does. -/
def moveFault (s : State) (m : MoveArgs) : Nat :=
  if !m.allRows (fun i => inSpace s m.ssp (m.srcRow i) m.len && inSpace s m.dsp (m.dstRow i) m.len) then 2
  else if (m.ssp == 1 && !(by4 m.src && by4 m.sstride && by4 m.len)) || (m.dsp == 1 && !(by4 m.dst && by4 m.dstride && by4 m.len)) then 3
  else if moveOverlaps m then 4
  else if moveDenied s m then 5
  else if (m.ssp == 0 || m.dsp == 0) && (s.drc.state == .failed || s.drc.state == .untrained) then 7
  else 0

/-- Read bytes of a DMA space. -/
def spaceRead (s : State) (sp a n : Nat) : List Byte :=
  match sp with
  | 0 => dramBytes s a n
  | 1 => if isCoef a then coefRead s a n else skeinRead s a n
  | _ => dmaWindowRead s a n

/-- Write bytes of a DMA space. -/
def spaceWrite (sp a : Nat) (bs : List Byte) (s : State) : State :=
  match sp with
  | 0 => dramStore a bs s
  | 1 => if isCoef a then coefWrite a bs s else skeinWrite a bs s
  | _ => dmaWindowWrite a bs s

/-- The pages of capture memory that an access to a space uses (R355). -/
def spaceTouch (sp a n : Nat) (s : State) : State := if sp = 0 then dramTouch a n s else s

/-- Copy the rows of a MOVE in order (R370, R372). -/
def moveRows (m : MoveArgs) (s : State) : State :=
  forAll (List.range m.rows) (fun i s =>
    let src := (m.srcRow i).toNat
    let dst := (m.dstRow i).toNat
    spaceTouch m.dsp dst m.len (spaceTouch m.ssp src m.len (spaceWrite m.dsp dst (spaceRead s m.ssp src m.len) s))) s

/-- The aligned word that a MOVE writes last: the lowest of a copy made downward, otherwise the highest of the last row
(R372, R374). -/
def lastWordAt (m : MoveArgs) : Nat :=
  let down := !m.strided && m.ssp == m.dsp && decide (m.src < m.dst) && decide (m.dst < m.src + m.len)
  (if down then m.dst.toNat else (m.dstRow (m.rows - 1)).toNat + m.len - 1) / 4 * 4

/-- Client traffic to capture memory waits (R354, R359, R361). -/
def dramWaits (s : State) : Bool :=
  s.drc.state == .training || s.drc.state == .freqChange || s.drc.state == .selfRefresh || s.drc.lock == .host ||
  s.drc.lock == .drover

/-- A MOVE of a running channel (R370…R372): its checks, then the copy; it waits while capture memory does not serve. -/
def dmaMove (c : Nat) (s : State) : State :=
  let m := moveArgs s c
  let f := moveFault s m
  if f ≠ 0 then chFault c f s
  else if (m.ssp = 0 ∨ m.dsp = 0) ∧ dramWaits s then s
  else
    let s := moveRows m s
    let a := lastWordAt m
    let w : Word := BitVec.ofNat 32 (leNat (spaceRead s m.dsp a 4))
    let s := s.modCh c (fun x => { x with
      src := ((m.srcRow (m.rows - 1) + m.len) % 2 ^ 33).toNat, dst := ((m.dstRow (m.rows - 1) + m.len) % 2 ^ 33).toNat
      remain := 0, rows := 0, wrote := some (m.dsp, a, w), rest := restAfter s (s.time.tb1 - x.began) })
    chNext c (s.addReg (Reg.DMA_CH_BYTES c) (m.rows * m.len))

/-- MOVE (R370). -/
def execMove (c : Fin 16) (s : State) : Host.Outcome State Fault Refusal := .next (dmaStep c 1 (dmaMove c) s)

/-! ### LOOP, WAIT, SIGNAL and END (R373, R374) -/

/-- Add a signed amount to an offset, in 32 bits. -/
def addOff (x : Int) (w : Word) : Int := toS 32 (ofS 32 (x + toS 32 w.toNat))

/-- LOOP (R373). -/
def dmaLoop (c : Nat) (s : State) : State :=
  s.modCh c (fun x =>
    let w := slotWord s x.pc 0
    let one := bitOf w 16
    let n := (if one then x.ctr1 else x.ctr0).getD (fld w 14 0)
    let put := fun (x : DmaCh) (v : Option Nat) => if one then { x with ctr1 := v } else { x with ctr0 := v }
    if n > 0 then
      let x := put x (some (n - 1))
      { x with soff := addOff x.soff (slotWord s x.pc 2), doff := addOff x.doff (slotWord s x.pc 3)
               pc := fld (slotWord s x.pc 1) 8 0, began := s.time.tb1 }
    else
      let x := put x none
      { x with pc := nextSlot x.pc, began := s.time.tb1 })

/-- LOOP (R373). -/
def execLoop (c : Fin 16) (s : State) : Host.Outcome State Fault Refusal := .next (dmaStep c 2 (dmaLoop c) s)

/-- A register a POLL may name: any but RC and WO ones (R373). -/
def pollable (a : Nat) : Bool :=
  match findRow a with
  | some r => r.access != .rc && r.access != .wo
  | none => false

/-- WAIT (R373): the channel waits, or takes an event that is pending. -/
def dmaWait (c : Nat) (s : State) : State :=
  let x := vget s.dma.chans c
  let w := fun i => slotWord s x.pc i
  let cond := fld (w 0) 25 24
  if cond = 2 ∧ ¬ pollable (w 1).toNat then chFault c 2 s
  else s.modCh c (fun x => ({ x with
    state := .waiting, cond := cond, arg := (w 1).toNat, mask := w 2, value := w 3, timeout := (w 4).toNat } : DmaCh).takeEvent s.time.tb1)

/-- WAIT (R373). -/
def execWait (c : Fin 16) (s : State) : Host.Outcome State Fault Refusal := .next (dmaStep c 3 (dmaWait c) s)

/-- A waiting channel goes on at the next slot. -/
def waitOver (c : Nat) (s : State) : State :=
  s.modCh c (fun x => { x with state := .running, pc := nextSlot x.pc, began := s.time.tb1 })

/-- WAIT_TIMEOUT: an EVENT or POLL wait with a limit reaches it (R373). -/
def waitTimeout (c : Nat) (s : State) : State :=
  let x := vget s.dma.chans c
  if x.state = .waiting ∧ x.cond ≠ 0 ∧ x.timeout ≠ 0 then chFault c 6 s else s

/-- WAIT_TIMEOUT (R373). -/
def execWaitTimeout (c : Fin 16) (s : State) : Host.Outcome State Fault Refusal := .next (waitTimeout c s)

/-- WAIT_DELAY_EXPIRY (R373). -/
def waitDelayExpiry (c : Nat) (s : State) : State :=
  let x := vget s.dma.chans c
  if x.state = .waiting ∧ x.cond = 0 then waitOver c s else s

/-- WAIT_DELAY_EXPIRY (R373). -/
def execWaitDelayExpiry (c : Fin 16) (s : State) : Host.Outcome State Fault Refusal := .next (waitDelayExpiry c s)

/-- One read of a POLL: the channel goes on when the value under MASK equals VALUE (R373). -/
def pollRead (c : Nat) (v : Word) (s : State) : State :=
  let x := vget s.dma.chans c
  if x.state = .waiting ∧ x.cond = 2 ∧ v &&& x.mask = x.value then waitOver c s else s

/-- The read-back of a SIGNAL or END: the last word the MOVEs wrote, with the bits a memory returns wrong; none when no
read-back is due, otherwise whether it matches (R374). -/
def readBack (c : Nat) (noise : Word) (s : State) : Bool :=
  match (vget s.dma.chans c).wrote with
  | none => true
  | some (sp, a, w) => BitVec.ofNat 32 (leNat (spaceRead s sp a 4)) ^^^ noise == w

/-- The space of the read-back is capture memory. -/
def backInDram (c : Nat) (s : State) : Bool :=
  match (vget s.dma.chans c).wrote with
  | some (sp, _, _) => sp == 0
  | none => false

/-- Verify the writes of a channel, then go on; a mismatch faults VERIFY, and in capture memory it is a violation of the
memory device (R366, R374). -/
def verified (c : Nat) (noise : Word) (f : State → State) (s : State) : State :=
  if backInDram c s ∧ dramWaits s then s
  else
    let ok := readBack c noise s
    let dram := backInDram c s
    let s := match (vget s.dma.chans c).wrote with
      | some (sp, a, _) => spaceTouch sp a 4 s
      | none => s
    if ok then f (s.modCh c (fun x => { x with wrote := none }))
    else chFault c 8 (if dram then dramViol 5 s else s)

/-- SIGNAL after a clean read-back (R374). -/
def dmaSignal (c : Nat) (s : State) : State :=
  let w := slotWord s (vget s.dma.chans c).pc 0
  let s := s.modCh c (fun x => { x with signal := fld w 15 0, pc := nextSlot x.pc, began := s.time.tb1 })
  let s := if bitOf w 16 then s.raise Reg.DMA_INT_STATUS (16 + c) else s
  if bitOf w 17 then dmaEvent (16 + c) s else s

/-- SIGNAL (R374). -/
def execSignal (c : Fin 16) (noise : Word) (s : State) : Host.Outcome State Fault Refusal :=
  .next (dmaStep c 4 (verified c noise (dmaSignal c)) s)

/-- END after a clean read-back (R374). -/
def dmaEnd (c : Nat) (s : State) : State := (s.modCh c (fun x => { x with state := .ended })).raise Reg.DMA_INT_STATUS c

/-- END (R374). -/
def execEnd (c : Fin 16) (noise : Word) (s : State) : Host.Outcome State Fault Refusal :=
  .next (dmaStep c 0 (verified c noise (dmaEnd c)) s)

/-! ### Channel commands (R375…R377) -/

/-- START (R377). -/
def chStart (c : Nat) (s : State) : State :=
  match (vget s.dma.chans c).state with
  | .running | .waiting | .paused => s.refusedWrite (Reg.DMA_CH_CTRL c)
  | _ => s.modCh c (fun x => { x with
      state := .running, pc := s.fld (Reg.DMA_CH_START c) 8 0, fault := 0, soff := 0, doff := 0, ctr0 := none, ctr1 := none
      events := 0, wrote := none, began := s.time.tb1 })

/-- START (R377). -/
def execStart (c : Fin 16) (s : State) : Host.Outcome State Fault Refusal :=
  .next (s.hosted (Reg.DMA_CH_CTRL c) (chStart c))

/-- ABORT (R377). -/
def chAbort (c : Nat) (s : State) : State := s.modCh c (fun x => { x with state := .idle })

/-- ABORT (R377). -/
def execAbort (c : Fin 16) (s : State) : Host.Outcome State Fault Refusal :=
  .next (s.hosted (Reg.DMA_CH_CTRL c) (chAbort c))

/-- Setting PAUSE (R376). -/
def chPause (c : Nat) (s : State) : State :=
  s.modCh c (fun x => if x.state = .running ∨ x.state = .waiting then { x with state := .paused, resume := x.state } else x)

/-- Clearing PAUSE: the channel continues from where it stopped (R376). -/
def chResume (c : Nat) (s : State) : State :=
  s.modCh c (fun x => if x.state = .paused then ({ x with state := x.resume } : DmaCh).takeEvent s.time.tb1 else x)

/-- A write of the PAUSE bit (R376). -/
def pauseWrite (c : Nat) (on : Bool) (s : State) : State :=
  let s := s.setFld (Reg.DMA_CH_CTRL c) 31 31 (b2n on)
  if on then chPause c s else chResume c s

/-- PAUSE (R376). -/
def execPause (c : Fin 16) (on : Bool) (s : State) : Host.Outcome State Fault Refusal :=
  .next (s.hosted (Reg.DMA_CH_CTRL c) (pauseWrite c on))

/-- DOORBELL: an ENDED channel fetches the slot at its PC again (R375). -/
def chDoorbell (c : Nat) (s : State) : State :=
  let x := vget s.dma.chans c
  if x.state = .ended ∧ slotOp s x.pc ≠ 0 then s.modCh c (fun x => { x with state := .running, began := s.time.tb1 }) else s

/-- DOORBELL (R375). -/
def execDoorbell (c : Fin 16) (s : State) : Host.Outcome State Fault Refusal :=
  .next (s.hosted (Reg.DMA_CH_CTRL c) (chDoorbell c))

/-- DMA_PROGRAM_WRITE (R375): word `i` of slot `n`. -/
def execDmaProgramWrite (n : Fin 512) (i : Fin 8) (w : Word) (s : State) : Host.Outcome State Fault Refusal :=
  .next (s.hosted (0x00112000 + 32 * n + 4 * i) (dmaProgPut (8 * n + i) w))

/-- A write of DMA_CH_CTRL[c]: ABORT wins over PAUSE (R377). -/
def chCtrlWrite (c : Nat) (w : Word) (s : State) : State :=
  let s := if bitOf w 0 then chStart c s else s
  let s := if bitOf w 4 then chDoorbell c s else s
  if bitOf w 3 then chAbort c (s.setFld (Reg.DMA_CH_CTRL c) 31 31 (b2n (bitOf w 31)))
  else pauseWrite c (bitOf w 31) s

/-- A DMA channel runs or waits and is not paused (Table 2-9). -/
def dmaActive (s : State) : Bool :=
  (List.range 16).any (fun c => (vget s.dma.chans c).state == .running || (vget s.dma.chans c).state == .waiting)

/-! ### Registers computed from the state (R378) -/

/-- DMA_CH_STATUS[c]. -/
def dmaChStatus (s : State) (c : Nat) : Word :=
  let x := vget s.dma.chans c
  let st := match x.state with
    | .idle => 0 | .running => 1 | .waiting => 2 | .paused => 3 | .ended => 4 | .faulted => 5
  pk [(29, st), (16, x.fault), (0, x.pc)]

/-- DMA_CH_LOOP[c]. -/
def dmaChLoop (s : State) (c : Nat) : Word :=
  let x := vget s.dma.chans c
  pk [(31, b2n x.ctr1.isSome), (16, x.ctr1.getD 0), (15, b2n x.ctr0.isSome), (0, x.ctr0.getD 0)]

end Sys2Proof.Machine
end

