-- ==== Sys2Proof/Machine/Acq.lean ====
section
/-!
DEFINITION. The arbiter of the observation receivers (R28, R190), the capture engine's streams (R329…R344) and the monitor
chains (R345…R348), with the commands of the ACQ block.
-/

namespace Sys2Proof.Machine

/-! ### Observation receivers (R26…R30, R190) -/

/-- A request for a receiver, decided when its epoch ends (R26). -/
def obsRequest (o id : Nat) (h : ObsHolder) (s : State) : State :=
  s.modObs o (fun x => { x with wait := x.wait ++ [{ id := id, epoch := s.fhp.epoch, who := h }] })

/-- Withdraw the request of a holder, won or waiting. -/
def obsWithdraw (o : Nat) (h : ObsHolder) (s : State) : State :=
  s.modObs o (fun x => { x with
    wait := x.wait.filter (fun a => a.who != h)
    won := x.won.filter (fun a => a.who != h) })

/-- A holder lets the receiver go. -/
def obsRelease (o : Nat) (h : ObsHolder) (s : State) : State :=
  s.modObs o (fun x => if x.holder = some h then { x with holder := none } else x)

/-- The arbiter of a receiver decides at an epoch's end, while nobody holds it and nobody has won it: the state, and the requests that
a full queue refuses (R28, R29). -/
def obsDecide (o : Nat) (s : State) : State × List Ask :=
  let x := vget s.dpd.obs o
  if x.holder.isSome ∨ x.won.isSome then (s, [])
  else
    let d := arbDecide (arbPtr s (.obs o)) s.time.tb1 x.wait
    ((arbTied (.obs o) x.wait s).modObs o (fun x => { x with won := d.win, wait := d.left }), d.refused)

/-- Grant a receiver to the request that has won it, once any visit has ended (R190): the new holder. -/
def obsGrant (o : Nat) (s : State) : State × Option ObsHolder :=
  let x := vget s.dpd.obs o
  match x.holder, x.won with
  | none, some w => (s.modObs o (fun x => { x with holder := some w.who, won := none }), some w.who)
  | _, _ => (s, none)

/-! ### Stream settings (R329, R330, R332) -/

/-- SOURCE of a stream. -/
def srcCode (s : State) (st : Nat) : Nat := s.fld (Reg.ACQ_STREAM_SRC st) 31 28
/-- INDEX of a stream. -/
def srcIndex (s : State) (st : Nat) : Nat := s.fld (Reg.ACQ_STREAM_SRC st) 27 22
/-- TSRC of a stream. -/
def trigSrc (s : State) (st : Nat) : Nat := s.fld (Reg.ACQ_STREAM_TRIG st) 31 28
/-- J of a stream. -/
def trigJ (s : State) (st : Nat) : Nat := s.fld (Reg.ACQ_STREAM_TRIG st) 23 22
/-- FORMAT 1. -/
def formatOne (s : State) (st : Nat) : Bool := s.bit (Reg.ACQ_STREAM_SRC st) 17
/-- MINMAX. -/
def minMax (s : State) (st : Nat) : Bool := s.bit (Reg.ACQ_STREAM_SRC st) 16
/-- SEG_BYTES of a stream. -/
def segBytes (s : State) (st : Nat) : Nat := s.fld (Reg.ACQ_STREAM_SEG_BYTES st) 31 6 * 64
/-- BASE of a stream in bytes. -/
def streamBase (s : State) (st : Nat) : Nat := s.fld (Reg.ACQ_STREAM_BASE st) 26 0 * 64
/-- COUNT of a stream; 0 means 65,536. -/
def segCount (s : State) (st : Nat) : Nat :=
  let n := s.fld (Reg.ACQ_STREAM_COUNT st) 15 0
  if n = 0 then 65536 else n
/-- Capacity C in entries (R332). -/
def capacity (s : State) (st : Nat) : Nat := (segBytes s st - 64) / entrySize s st
/-- PRE in entries. -/
def preOf (s : State) (st : Nat) : Nat := (s.reg (Reg.ACQ_STREAM_PRE st)).toNat
/-- POST in entries. -/
def postOf (s : State) (st : Nat) : Nat := (s.reg (Reg.ACQ_STREAM_POST st)).toNat

/-- The source sample period of a stream in time units. -/
def samplePeriod (s : State) (st : Nat) : Nat :=
  match srcCode s st with
  | 1 => pathPeriod s.pwr.level / 2
  | 2 => tickTu / 2
  | 3 => tickTu / 2 * 2 ^ s.fld (Reg.ACQ_MON_CFG (srcIndex s st)) 31 28
  | _ => pathPeriod s.pwr.level

/-! ### Arming (R334, R335) -/

/-- A fold that the warp enables. -/
def foldOn (s : State) (f : Nat) : Bool := decide (f < 8) && (vget s.warp.folds f).enable

/-- The source named is undefined or not enabled (BAD_SOURCE). -/
def badSource (s : State) (st : Nat) : Bool :=
  let i := srcIndex s st
  match srcCode s st with
  | 0 => !(s.pathCfg i).rxEn
  | 1 => !(s.pathCfg i).txEn
  | 2 => !foldOn s i
  | 3 => !foldOn s i
  | 4 => i ≥ 32 || (s.layer true i).isNone
  | 5 => i ≥ 32 || (s.layer false i).isNone
  | _ => true

/-- The TB0 aim of a stream. -/
def streamAim (s : State) (st : Nat) : Nat :=
  timeNear s.time.tb0 (s.reg (Reg.ACQ_STREAM_TIME_S st)).toNat (s.reg (Reg.ACQ_STREAM_TIME_NS st)).toNat

/-- The trigger selection cannot fire (BAD_TRIGGER). -/
def badTrigger (s : State) (st : Nat) : Bool :=
  let j := trigJ s st
  let badJ := j == st || (vget s.acq.streams j).state == .idle
  match trigSrc s st with
  | 0 | 1 | 4 => false
  | 2 => badJ
  | 3 => !s.locked || decide (streamAim s st ≤ s.time.tb0)
  | 5 => (s.flockCfg (s.fld (Reg.ACQ_STREAM_TRIG st) 21 19)).isNone || decide (s.fld (Reg.ACQ_STREAM_TRIG st) 18 16 > 4)
  | 6 => badJ
  | _ => true

/-- The region of a stream: its first byte and one past its last. -/
def streamRegion (s : State) (st : Nat) : Nat × Nat := (streamBase s st, streamBase s st + segCount s st * segBytes s st)

/-- The region passes the end of the memory or overlaps an active stream's (MEM_RANGE). -/
def badRegion (s : State) (st : Nat) : Bool :=
  let r := streamRegion s st
  decide (r.2 > dramSize s) || (List.range 4).any (fun j =>
    j != st && streamActive s j && decide (r.1 < (streamRegion s j).2) && decide ((streamRegion s j).1 < r.2))

/-- The memory cannot take captures (NO_DRAM): not trained, in self-refresh, or under the host lock (R361). -/
def noDram (s : State) : Bool :=
  (match s.drc.state with
    | .ready | .freqChange => false
    | _ => true) || s.drc.lock == .host

/-- The first test of Table 13-5 that refuses an arm, up to BANDWIDTH; 0 when none does. -/
def armCode (s : State) (st : Nat) : Nat :=
  let w := writeRateOf s (st :: activeStreams s)
  if streamActive s st then 1
  else if s.wrp.active.isNone then 2
  else if noDram s then 3
  else if s.pwr.level = 3 ∧ [0, 1, 4, 5].contains (srcCode s st) then 4
  else if badSource s st then 5
  else if badTrigger s st then 6
  else if minMax s st ∧ s.fld (Reg.ACQ_STREAM_REDUCE st) 15 0 = 0 then 7
  else if postOf s st = 0 ∨ postOf s st > capacity s st then 8
  else if preOf s st + postOf s st > capacity s st then 9
  else if badRegion s st then 0xA
  else if budgetOf s.drc.rate * w.2 < w.1 then 0xB
  else 0

/-- The state of a stream that has just been armed; its waiting arms and what host software has not read stay. -/
def freshStream (state : StreamState) (outcome : Nat) (x : Stream) : Stream :=
  { state := state, outcome := outcome, asks := x.asks, missRead := x.missRead }

/-- Refuse an arm: nothing else changes. -/
def armRefuse (st code : Nat) (s : State) : State :=
  (s.modStream st (fun x => { x with outcome := 2, code := code })).raise Reg.ACQ_INT_STATUS 2

/-- An arm that the stream's arbiter has chosen: the tests of R334, and the request for an observation source's receiver (R335). -/
def armStream (st : Nat) (s : State) : State :=
  let code := armCode s st
  if code ≠ 0 then armRefuse st code s
  else
    let s := s.setReg (Reg.ACQ_SEG_DONE st) 0
    if srcCode s st = 2 then
      obsRequest (srcIndex s st) 10 (.capture st) (s.modStream st (freshStream .queued 3))
    else s.modStream st (freshStream .armed 1)

/-- ARM by a requester (R334): a configuration that fails a test of Table 13-5 is refused; any other waits for the end of its epoch
(R26, R335; DEDUCED, log entry 54). -/
def streamArm (st id : Nat) (s : State) : State :=
  let code := armCode s st
  if code ≠ 0 then armRefuse st code s
  else s.modStream st (fun x => { x with asks := x.asks ++ [{ id := id, epoch := s.fhp.epoch }] })

/-- The identity of host software or of the drover (Table 1-6). -/
def whoId (drover : Bool) : Nat := if drover then 9 else 8

/-- A command that host software gives through a register, or the drover by itself. -/
def State.asked (drover : Bool) (a : Nat) (f : State → State) (s : State) : State := if drover then f s else s.hosted a f

/-- ARM (R334). -/
def execArm (st : Fin 4 × Bool) (s : State) : Host.Outcome State Fault Refusal :=
  .next (s.asked st.2 (Reg.ACQ_STREAM_CTRL st.1) (streamArm st.1 (whoId st.2)))

/-- The arms of an active stream at an epoch's end: those that have not lost a tie fail the first test of Table 13-5. -/
def refuseArms (st : Nat) (s : State) : State :=
  let fresh := (vget s.acq.streams st).asks.filter (fun a => !a.tied)
  forAll fresh (fun _ s => armRefuse st 1 s) (s.modStream st (fun x => { x with asks := x.asks.filter (·.tied) }))

/-- The arbiter of a stream decides its arms at an epoch's end (R335): the winner is armed, a queued loser shows QUEUED, and one that a
full queue refuses gets the stream's busy code. -/
def streamEpoch (st : Nat) (s : State) : State :=
  let asks := (vget s.acq.streams st).asks
  if streamActive s st then refuseArms st s
  else
    let d := arbDecide (arbPtr s (.stream st)) s.time.tb1 asks
    let s := (arbTied (.stream st) asks s).modStream st (fun x => { x with asks := d.left })
    let s := if d.win.isSome then armStream st s else s
    let s := if d.left.any (fun a => !asks.contains a) then s.modStream st (fun x => { x with outcome := 3 }) else s
    forAll d.refused (fun _ s => armRefuse st 1 s) s

/-- Withdraw the waiting arms of a requester (R29). -/
def armWithdraw (st id : Nat) (s : State) : State :=
  s.modStream st (fun x => { x with asks := x.asks.filter (fun a => a.id != id) })

/-- The queue limit of the oldest queued arm of a stream passes (R29): it is refused with the stream's busy code. -/
def armLimit (st : Nat) (s : State) : State :=
  match (vget s.acq.streams st).asks.find? (·.tied) with
  | none => s
  | some a => armRefuse st 1 (s.modStream st (fun x => { x with asks := x.asks.erase a }))

/-- The receiver of a queued stream is granted: filling starts (R335). -/
def streamGranted (st : Nat) (s : State) : State :=
  s.modStream st (fun x => if x.state = .queued then { x with state := .armed, outcome := 1 } else x)

/-! ### Triggers (R336…R341) -/

/-- A trigger that finds its stream in hold-off or re-arm is missed (R341); event hold-off consumes it, and ends with the pause of
R404 at the earliest. -/
def triggerMissed (st point : Nat) (s : State) : State :=
  let x := vget s.acq.streams st
  let s := s.addReg (Reg.ACQ_MISSED st) 1
  let s := if x.missRead then
      (s.setReg (Reg.ACQ_MISS_S st) (BitVec.ofNat 32 (secOf point))).setReg (Reg.ACQ_MISS_NS st) (BitVec.ofNat 32 (nsOf point))
    else s
  let hold := s.reg (Reg.ACQ_STREAM_HOLD st)
  let now := s.time.tb1
  let s := s.modStream st (fun x => { x with
    missRead := false
    missAt := if x.missed = 0 then point else x.missAt
    missed := satAdd 0xFFFFFFFF x.missed 1
    skipped := x.skipped + 1
    state := if x.state = .holdoff ∧ bitOf hold 31 ∧ x.skipped + 1 ≥ fld hold 30 0 ∧ x.rest ≤ now then .rearm else x.state })
  s.raise Reg.ACQ_INT_STATUS 3

/-- A trigger placed on a stream's samples (R336): the trigger point in TB3, the source samples since filling started that come before
the trigger sample, and TRIG_FRAC before a gap of 64 moves the sample back. -/
structure TrigHit where
  point : Nat
  before : Nat
  frac : Nat

/-- Place a trigger point on a stream's samples (R336): the trigger sample is the first at or after it, and TRIG_FRAC is 64 times the
gap in sample periods, ties to even. -/
def placePoint (s : State) (st : Nat) (g : Grid) (point : Nat) : TrigHit :=
  let t := samplePeriod s st
  let k : Int := -(((g.time : Int) - point) / (t : Int))
  { point := point, before := ((g.before : Int) + k).toNat
    frac := (divEven (64 * ((g.time : Int) + k * t - point)) t).toNat }

/-- A stream accepts a trigger (R336, R339): the fraction, the pre-trigger entries kept and the ring index of the trigger
entry. -/
def triggerAccept (st : Nat) (forced : Bool) (h : TrigHit) (s : State) : State :=
  let before := if h.frac ≥ 64 then h.before - 1 else h.before
  let entries := before / reduceOf s st
  s.modStream st (fun x => { x with
    state := .capturing, point := h.point, frac := if h.frac ≥ 64 then 0 else h.frac
    forced := forced, trigCode := if forced then 0 else trigSrc s st
    tbStepped := x.tbStepped && decide (s.time.tb1 ≤ x.stepAt + (min (preOf s st) entries * reduceOf s st + 1) * samplePeriod s st)
    preAct := min (preOf s st) entries, trigIdx := entries % capacity s st, points := []
    tbFired := x.tbFired || (!forced && trigSrc s st == 3) })

/-- A trigger point occurs on a stream, by an event: it waits for the stream's samples while the stream is ARMED, is missed in
hold-off and re-arm, and is without effect otherwise. -/
def postPoint (point st : Nat) (s : State) : State :=
  match (vget s.acq.streams st).state with
  | .armed => s.modStream st (fun x => { x with points := x.points ++ [point] })
  | .holdoff | .rearm => triggerMissed st point s
  | _ => s

/-- The streams that take the trigger of stream `j` get its trigger point (code 6). -/
def shareTrigger (j : Nat) (point : Nat) (s : State) : State :=
  forAll ((List.range 4).filter (fun st => trigSrc s st == 6 && trigJ s st == j && st != j)) (postPoint point) s

/-- A trigger occurs on a stream: accepted while ARMED, missed in hold-off and re-arm, and otherwise without effect. -/
def trigger (st : Nat) (forced : Bool) (h : TrigHit) (s : State) : State :=
  match (vget s.acq.streams st).state with
  | .armed => shareTrigger st h.point (triggerAccept st forced h s)
  | .holdoff | .rearm => triggerMissed st h.point s
  | _ => s

/-- The earliest trigger point that waits for a stream's samples (R338). -/
def firstPoint (x : Stream) : Option Nat :=
  match x.points with
  | [] => none
  | p :: ps => some (ps.foldl min p)

/-- An ARMED stream accepts the earliest point that waits, placed on its samples. -/
def takePoint (st : Nat) (g : Grid) (s : State) : State :=
  let x := vget s.acq.streams st
  match x.state, firstPoint x with
  | .armed, some p => trigger st false (placePoint s st g p) s
  | _, _ => s

/-- FORCE (R336): the trigger point is the time of the next source sample; a point of the configured source that is no later goes first
(R338). -/
def forceTrigger (st : Nat) (g : Grid) (s : State) : State :=
  match firstPoint (vget s.acq.streams st) with
  | some p => if p ≤ g.time then takePoint st g s else trigger st true { point := g.time, before := g.before, frac := 0 } s
  | none => trigger st true { point := g.time, before := g.before, frac := 0 } s

/-- FORCE (R336). -/
def execForce (st : Fin 4) (g : Grid) (s : State) : Host.Outcome State Fault Refusal :=
  .next (s.hosted (Reg.ACQ_STREAM_CTRL st) (forceTrigger st g))

/-- A TB0 time in TB3. -/
def toTb3 (s : State) (t : Nat) : Nat := ((t : Int) - s.time.tb0 + s.tb3).toNat

/-! ### Level triggers (R337) -/

/-- THRESH of a stream, in 2^−23. -/
def threshOf (s : State) (st : Nat) : Int := toS 24 (s.fld (Reg.ACQ_STREAM_THRESH st) 23 0)
/-- HYST of a stream, in 2^−23. -/
def hystOf (s : State) (st : Nat) : Int := (s.fld (Reg.ACQ_STREAM_HYST st) 22 0 : Nat)
/-- SLOPE of a stream: 0 rising, 1 falling, 2 either. -/
def slopeOf (s : State) (st : Nat) : Nat := s.fld (Reg.ACQ_STREAM_TRIG st) 25 24

/-- The quantity of a sample that QTY selects (R337): I, Q or the magnitude of step 1 of R183. -/
def trigQty (s : State) (st : Nat) (c : Cplx) : Int :=
  match s.fld (Reg.ACQ_STREAM_TRIG st) 27 26 with
  | 0 => c.1
  | 1 => c.2
  | _ => (magIndex c : Nat)

/-- The quantity crosses THRESH between two samples, from the side that the hysteresis has met (R337). -/
def crosses (slope : Nat) (th : Int) (x : Stream) (v : Int) : Bool :=
  match x.last with
  | none => false
  | some u => (slope != 1 && x.low && decide (u < th) && decide (th ≤ v)) || (slope != 0 && x.high && decide (th < u) && decide (v ≤ th))

/-- What a stream keeps of a sample: the quantity, and on which sides of THRESH the hysteresis is met (R337). -/
def watched (th hyst v : Int) (x : Stream) : Stream :=
  let up := match x.last with
    | none => false
    | some u => decide (u < th) && decide (th ≤ v)
  let down := match x.last with
    | none => false
    | some u => decide (th < u) && decide (v ≤ th)
  { x with
    last := some v
    low := decide (v ≤ th - hyst) || (x.low && !up)
    high := decide (v ≥ th + hyst) || (x.high && !down) }

/-- The gap between a crossing and the sample after it, as a part of a sample period (R337): its numerator and denominator. -/
def crossingGap (th u v : Int) : Nat × Nat := ((v - th).natAbs, max 1 (v - u).natAbs)

/-- A crossing before the sample of time `time`, on the stream's own samples: exact to the 64th of a sample; another stream's crossing
is placed by its time (R337, Table 13-6). -/
def crossingHit (s : State) (st : Nat) (own : Bool) (g : Grid) (time period : Nat) (u v : Int) : TrigHit :=
  let q := crossingGap (threshOf s st) u v
  let point := time - (divEven ((period * q.1 : Nat) : Int) q.2).toNat
  if own then { placePoint s st g time with point := point, frac := (divEven ((64 * q.1 : Nat) : Int) q.2).toNat }
  else placePoint s st g point

/-- One watched sample of a level trigger (R337): a crossing is a trigger of the stream. -/
def watchSample (st : Nat) (own : Bool) (g : Grid) (time period : Nat) (c : Cplx) (s : State) : State :=
  let x := vget s.acq.streams st
  let v := trigQty s st c
  let th := threshOf s st
  let t := s.modStream st (watched th (hystOf s st) v)
  if crosses (slopeOf s st) th x v then trigger st false (crossingHit s st own g time period (x.last.getD v) v) t else t

/-- Watch samples from a time on. -/
def watchSamples (st : Nat) (own : Bool) (g : Grid) (period : Nat) : Nat → List Cplx → State → State
  | _, [], s => s
  | time, c :: cs, s => watchSamples st own g period (time + period) cs (watchSample st own g time period c s)

/-- A TB0 trigger (Table 13-6): it fires once per arm, when TB0 has reached the aim; an aim that a step has passed over fires at the
first sample after the step (R338). -/
def aimTrigger (st : Nat) (g : Grid) (s : State) : State :=
  let x := vget s.acq.streams st
  let point := toTb3 s (streamAim s st)
  if x.tbFired ∨ s.time.tb0 < streamAim s st then s
  else if x.tbStepped ∧ point + samplePeriod s st ≤ g.time then
    (trigger st false { point := g.time, before := g.before, frac := 0 } s).modStream st (fun x => { x with tbStepped := true })
  else trigger st false (placePoint s st g point) s

/-- CAPTURE_TRIGGER (R336…R339): the trigger that a stream's samples bring about. `g` is a source sample of the stream, and `w` are
samples that a level trigger watches, the stream's own or those of stream `j`. -/
def captureTrigger (st : Nat) (g : Grid) (w : Watch) (s : State) : State :=
  match trigSrc s st with
  | 1 => watchSamples st true g (samplePeriod s st) w.first w.samples s
  | 2 => watchSamples st false g (samplePeriod s (trigJ s st)) w.first w.samples s
  | 3 => aimTrigger st g s
  | 4 | 5 | 6 => takePoint st g s
  | _ => s

/-- CAPTURE_TRIGGER (R339). -/
def execCaptureTrigger (st : Fin 4) (h : Grid × Watch) (s : State) : Host.Outcome State Fault Refusal :=
  .next (captureTrigger st h.1 h.2 s)

/-! ### Events that trigger (Tables 13-6, 13-7) -/

/-- The edge is one that ACQ_TRIG_IN_CFG selects. -/
def edgeSelected (s : State) (rising : Bool) : Bool :=
  match s.fld Reg.ACQ_TRIG_IN_CFG 1 0 with
  | 0 => rising
  | 1 => !rising
  | _ => true

/-- TRIG_IN_EDGE: the edge, stamped at a TB3 time, triggers the streams that select it, each on its own samples (R336). -/
def trigInEdge (rising : Bool) (at_ : Nat) (grids : List Grid) (s : State) : State :=
  if ¬ edgeSelected s rising then s
  else forAll (List.range 4) (fun st s =>
    if trigSrc s st = 4 then takePoint st (grids.getD st default) (postPoint at_ st s) else s) s

/-- TRIG_IN_EDGE (R336). -/
def execTrigInEdge (rising : Bool) (e : Nat × List Grid) (s : State) : Host.Outcome State Fault Refusal :=
  .next (trigInEdge rising e.1 e.2 s)

/-- An event of a flock, as the EVENT field names it: the streams that select it get its trigger point, a TB3 time (Table 13-7). -/
def flockEvent (k event point : Nat) (s : State) : State :=
  forAll ((List.range 4).filter (fun st => trigSrc s st == 5 && s.fld (Reg.ACQ_STREAM_TRIG st) 21 19 == k &&
    s.fld (Reg.ACQ_STREAM_TRIG st) 18 16 == event)) (postPoint point) s

/-! ### Entries and headers (R330, R333, R342) -/

/-- A part in the stream's format: 16 bits after convergent rounding, or 24 bits sign-extended (R330). -/
def partBytes (one : Bool) (x : Int) : List Byte :=
  if one then leBytes 4 (ofS 32 x) else leBytes 2 (ofS 16 (satS 16 (shrEven x 8)))

/-- A part saturates in FORMAT 0. -/
def partSat (one : Bool) (x : Int) : Bool := !one && overS 16 (shrEven x 8)

/-- Least and greatest of a part over samples. -/
def extremes (f : Cplx → Int) (l : List Cplx) : Int × Int :=
  match l with
  | [] => (0, 0)
  | c :: cs => (cs.foldl (fun m x => min m (f x)) (f c), cs.foldl (fun m x => max m (f x)) (f c))

/-- An entry over its source samples (R330, R342). -/
def entryBytes (one mm : Bool) (l : List Cplx) : List Byte :=
  if mm then
    let i := extremes (·.1) l
    let q := extremes (·.2) l
    partBytes one i.1 ++ partBytes one i.2 ++ partBytes one q.1 ++ partBytes one q.2
  else
    let c := l.headD (0, 0)
    partBytes one c.1 ++ partBytes one c.2

/-- Cut samples in entries of `r` samples; a part interval at the end is left out. -/
def entriesOf (r : Nat) : Nat → List Cplx → List (List Cplx)
  | 0, _ => []
  | n + 1, l => if l.length < r ∨ r = 0 then [] else l.take r :: entriesOf r n (l.drop r)

/-- Write entries into the ring of a segment from an entry index on (R332, R333). -/
def writeRing (base cap size : Nat) : Nat → List (List Byte) → Tab Byte → Tab Byte
  | _, [], m => m
  | i, e :: es, m => writeRing base cap size (i + 1) es (mwrite blank m (base + (i % cap) * size) e)

/-- The FLAGS of a segment (Table 13-4). -/
def segFlags (s : State) (st : Nat) (k : SegMarks) (sat aborted : Bool) : Nat :=
  let x := vget s.acq.streams st
  let mon := srcCode s st == 3
  (pk [(12, if srcCode s st = 3 then s.fld (Reg.ACQ_MON_CFG (srcIndex s st)) 31 28 else 0), (10, b2n sat), (9, b2n (minMax s st)),
    (8, b2n (formatOne s st)), (7, b2n aborted), (6, b2n x.tbStepped), (5, b2n (mon && k.dcFrozen)), (4, b2n x.forced),
    (3, b2n k.loInvalid), (2, b2n (mon && k.gap)), (1, b2n k.stored.isSome), (0, b2n (decide (x.preAct < preOf s st)))]).toNat

/-- The header of a segment (Table 13-3). -/
def segHeader (s : State) (st : Nat) (flags written : Nat) : List Byte :=
  let x := vget s.acq.streams st
  let cap := capacity s st
  let h := leBytes 4 x.seq ++ leBytes 1 (srcCode s st * 16 + st) ++ leBytes 1 (srcIndex s st) ++ leBytes 2 flags ++
    timeLe x.point ++ leBytes 4 ((x.trigIdx + cap - x.preAct % cap) % cap) ++ leBytes 4 x.preAct ++ leBytes 4 written ++
    leBytes 1 x.frac ++ leBytes 1 x.trigCode ++ leBytes 2 (reduceOf s st - 1) ++ leBytes 4 x.missed ++
    (if x.missed = 0 then List.replicate 12 0 else timeLe x.missAt) ++ List.replicate 8 0
  h ++ leBytes 4 (crc32c h)

/-- Address of segment `i` of a stream. -/
def segAddr (s : State) (st i : Nat) : Nat := streamBase s st + i * segBytes s st

/-- Put a segment's entries in its ring from an entry index on, then its header (R333). -/
def segPut (st a first : Nat) (es : List (List Byte)) (header : List Byte) (s : State) : State :=
  let cap := capacity s st
  let size := entrySize s st
  let s := dramTouch a (segBytes s st) s
  dramStore a header (if s.drc.state = .failed then s else s.modDrc (fun d => { d with mem := writeRing (a + 64) cap size first es d.mem }))

/-- Store a segment's entries, then its header, check word last (R333). -/
def storeSegment (st : Nat) (samples : List Cplx) (k : SegMarks) (aborted : Bool) (s : State) : State :=
  let x := vget s.acq.streams st
  let cap := capacity s st
  let one := formatOne s st
  let es := (entriesOf (reduceOf s st) (x.preAct + postOf s st) samples)
  let es := match k.stored with
    | some n => es.take n
    | none => es
  let sat := es.any (fun e => e.any (fun c => partSat one c.1 || partSat one c.2))
  let a := segAddr s st x.seg
  let first := (x.trigIdx + cap - x.preAct % cap) % cap
  let header := segHeader s st (segFlags s st k sat aborted) es.length
  let s := segPut st a first (es.map (entryBytes one (minMax s st))) header s
  let s := s.modStream st (fun x => { x with
    seq := satAdd 0xFFFFFFFF x.seq 1, missed := 0, missAt := 0, tbStepped := false, skipped := 0 })
  let s := s.addReg (Reg.ACQ_SEG_DONE st) 1
  let s := if k.stored.isSome then s.raise Reg.ACQ_INT_STATUS 4 else s
  dmaEvent st (s.raise Reg.ACQ_INT_STATUS 0)

/-! ### Ends (R340, R343) -/

/-- A stream ends: a segment that is open has its header written ABORTED, the receiver is let go, and the stream is IDLE. -/
def streamStop (st : Nat) (s : State) : State :=
  let x := vget s.acq.streams st
  if ¬ streamActive s st then s
  else
    let s := if x.state = .capturing then
        let (n, s) := s.draw
        (storeSegment st (Config.abortedSamples n)
          { loInvalid := false, gap := false, dcFrozen := false, stored := none } true s).raise Reg.ACQ_INT_STATUS 5
      else s
    let s := if srcCode s st = 2 then obsRelease (srcIndex s st) (.capture st) (obsWithdraw (srcIndex s st) (.capture st) s) else s
    s.modStream st (fun x => { x with state := .idle })

/-- A stream whose trigger is on stream `j` (codes 2 and 6). -/
def followsStream (s : State) (st j : Nat) : Bool := [2, 6].contains (trigSrc s st) && trigJ s st == j

/-- Stop streams, and with them, in turn, the streams that take their trigger from one that becomes IDLE (R343). -/
def stopStreams : Nat → List Nat → State → State
  | 0, _, s => s
  | n + 1, l, s =>
    let hit := l.filter (streamActive s)
    if hit.isEmpty then s
    else
      let s := forAll hit streamStop s
      stopStreams n ((List.range 4).filter (fun st => hit.any (followsStream s st))) s

/-- Stop every stream that satisfies a test (R343). -/
def stopStreamsIf (f : Nat → Bool) (s : State) : State := stopStreams 5 ((List.range 4).filter f) s

/-- DISARM by a requester (R343): the stream ends, and the requester's waiting arms are withdrawn (R29). -/
def disarm (st id : Nat) (s : State) : State := stopStreams 5 [st] (armWithdraw st id s)

/-- DISARM (R343). -/
def execDisarm (st : Fin 4 × Bool) (s : State) : Host.Outcome State Fault Refusal :=
  .next (s.asked st.2 (Reg.ACQ_STREAM_CTRL st.1) (disarm st.1 (whoId st.2)))

/-- The time a segment took: its entries at the source's rate. -/
def segmentTu (s : State) (st : Nat) : Nat :=
  ((vget s.acq.streams st).preAct + postOf s st) * reduceOf s st * samplePeriod s st

/-- The TB3 time at which the hold-off of time mode ends: HOLD nanoseconds after the last sample of the segment's last entry, or after
the step that the segment carries (R340). -/
def holdEndOf (s : State) (st : Nat) (x : Stream) : Nat :=
  let t := samplePeriod s st
  (if x.tbStepped then s.tb3 else x.point + x.frac * t / 64 + (postOf s st * reduceOf s st - 1) * t) +
    fld (s.reg (Reg.ACQ_STREAM_HOLD st)) 30 0 * nsTu

/-- A segment ends with its last post-trigger entry (R340): the header, then DONE, or the next segment with its hold-off, which the pause
of R404 extends. -/
def segmentEnd (st : Nat) (samples : List Cplx) (k : SegMarks) (s : State) : State :=
  if (vget s.acq.streams st).state ≠ .capturing then s
  else
    let rest := restAfter s (segmentTu s st)
    let to_ := holdEndOf s st (vget s.acq.streams st)
    let s := storeSegment st samples k false s
    let x := vget s.acq.streams st
    let count := segCount s st
    if x.seg + 1 ≥ count ∧ ¬ s.bit (Reg.ACQ_STREAM_SRC st) 15 then
      let s := if srcCode s st = 2 then obsRelease (srcIndex s st) (.capture st) s else s
      dmaEvent (4 + st) ((s.modStream st (fun x => { x with state := .done })).raise Reg.ACQ_INT_STATUS 1)
    else
      let next := (x.seg + 1) % count
      let hold := fld (s.reg (Reg.ACQ_STREAM_HOLD st)) 30 0
      let s := if x.seq ≥ count then
          dramStore (segAddr s st next) (List.replicate 64 0) (dramTouch (segAddr s st next) 64 s)
        else s
      s.modStream st (fun x => { x with seg := next, rest := rest, holdEnd := to_, state := if hold = 0 ∧ rest = 0 then .rearm else .holdoff })

/-- SEGMENT_END (R340). -/
def execSegmentEnd (st : Fin 4) (samples : List Cplx) (k : SegMarks) (s : State) : Host.Outcome State Fault Refusal :=
  .next (segmentEnd st samples k s)

/-- Hold-off can end: the pause of R404 has passed, and so has the time of time mode, or event hold-off has had its last trigger
(R340). -/
def holdoffOver (s : State) (st : Nat) (x : Stream) : Bool :=
  decide (x.rest ≤ s.time.tb1) &&
    (if s.bit (Reg.ACQ_STREAM_HOLD st) 31 then decide (fld (s.reg (Reg.ACQ_STREAM_HOLD st)) 30 0 ≤ x.skipped)
      else decide (x.holdEnd ≤ s.tb3))

/-- HOLDOFF_END (R340): hold-off ends and the stream re-arms. -/
def holdoffEnd (st : Nat) (s : State) : State :=
  s.modStream st (fun x =>
    if x.state = .rearm ∨ (x.state = .holdoff ∧ holdoffOver s st x) then { x with state := .armed } else x)

/-- HOLDOFF_END (R340). -/
def execHoldoffEnd (st : Fin 4) (s : State) : Host.Outcome State Fault Refusal := .next (holdoffEnd st s)

/-- A write to a stream's settings while it is not IDLE or DONE is ignored and logged (R334). -/
def streamRegWrite (st a : Nat) (w : Word) (s : State) : State :=
  if streamActive s st then s.refusedWrite a else s.setReg a w

/-- The defaults a full commit with a CAPTURE record gives its streams (R344). -/
def acqCommit (s : State) : State :=
  let s := stopStreamsIf (fun _ => true) s
  match s.warp.capture with
  | none => s
  | some c =>
    forAll (List.range (min 4 c.streams)) (fun st s =>
      let s := s.setReg (Reg.ACQ_STREAM_COUNT st) (BitVec.ofNat 32 (c.count % 65536))
      let s := s.setReg (Reg.ACQ_STREAM_PRE st) (BitVec.ofNat 32 c.pre)
      let s := s.setReg (Reg.ACQ_STREAM_POST st) (BitVec.ofNat 32 (c.segLen - c.pre))
      let s := (s.setFld (Reg.ACQ_STREAM_SRC st) 16 16 (b2n c.minMax)).setFld (Reg.ACQ_STREAM_SRC st) 17 17 0
      s.setReg (Reg.ACQ_STREAM_SEG_BYTES st) (BitVec.ofNat 32 (divUp (64 + c.segLen * entrySize s st) 64 * 64))) s

/-- The streams have seen a step of a base: all of them where TB3 follows it, which marks the segments in progress with TB3_STEP, and
else those whose aim a step of TB0 passes over (R338). -/
def markStep (f : Nat → Bool) (s : State) : State :=
  s.modAcq (fun a => { a with streams := vall a.streams (fun i x =>
    if f i then { x with tbStepped := true, stepAt := s.time.tb1 } else x) })

/-- A step of a base that TB3 follows: the segments in progress carry TB3_STEP. -/
def markTb3Step (s : State) : State := markStep (fun _ => true) s

/-- A step that takes TB0 from `t` passes over the aim of an ARMED stream's TB0 trigger (R338). -/
def aimPassed (t : Nat) (s : State) (st : Nat) : Bool :=
  let x := vget s.acq.streams st
  x.state == .armed && trigSrc s st == 3 && !x.tbFired && decide (t < streamAim s st) && decide (streamAim s st ≤ s.time.tb0)

/-! ### Monitor chains (R345…R348) -/

/-- N of a chain. -/
def monN (s : State) (f : Nat) : Nat := s.fld (Reg.ACQ_MON_CFG f) 31 28

/-- A stream, or a job queued or running on FFT engine f, names the chain (R347). -/
def monInUse (s : State) (f : Nat) : Bool :=
  (List.range 4).any (fun st => streamActive s st && srcCode s st == 3 && srcIndex s st == f) ||
  ((vget s.fft f).queue ++ (vget s.fft f).run.toList).any (fun j => fld j.cfg 25 24 == 0)

/-- Input samples until the filters are filled again (R347). -/
def monFill (n : Nat) : Nat := 2 * 11 * (2 ^ n - 1)

/-- Restart the stages of a chain; μ is kept (R347). -/
def monRestart (f : Nat) (s : State) : State :=
  s.modMon f (fun m => { m with running := true, gap := monFill (monN s f) })

/-- A write of ACQ_MON_CFG[f] (R347). -/
def monCfgWrite (f : Nat) (w : Word) (s : State) : State :=
  let old := s.reg (Reg.ACQ_MON_CFG f)
  let n := clampN 1 10 (fld w 31 28)
  let w := put (put w 31 28 n) 20 3 0
  let moved := fld old 31 28 ≠ n ∨ fld old 2 0 ≠ fld w 2 0
  if moved ∧ monInUse s f then
    (s.setReg (Reg.ACQ_MON_CFG f) (put (put w 31 28 (fld old 31 28)) 2 0 (fld old 2 0))).raise Reg.ACQ_INT_STATUS 6
  else
    let s := s.setReg (Reg.ACQ_MON_CFG f) w
    if moved then monRestart f s else s

/-- ACQ_MON_CFG_WRITE (R347). -/
def execAcqMonCfgWrite (f : Fin 8) (w : Word) (s : State) : Host.Outcome State Fault Refusal :=
  .next (s.hosted (Reg.ACQ_MON_CFG f) (monCfgWrite f w))

/-- A write of ACQ_MON_SHIFT[f] (R347). -/
def monShiftWrite (f : Nat) (w : Word) (s : State) : State :=
  let w := put w 31 20 0
  if w = s.reg (Reg.ACQ_MON_SHIFT f) then s
  else if monInUse s f then s.raise Reg.ACQ_INT_STATUS 6
  else monRestart f (s.setReg (Reg.ACQ_MON_SHIFT f) w)

/-- One step of a DC estimate: the output and the estimate after it (R345). -/
def dcStep (on freeze : Bool) (tc : Nat) (mu x : Int) : Int × Int :=
  if ¬ on then (x, mu) else (x - mu, if freeze then mu else mu + shrEven (x - mu) (12 + tc))

/-- Feed samples to the DC block of a chain (R345): its outputs and the estimates after them. -/
def dcBlock (on freeze : Bool) (tc : Nat) : Int → Int → List Cplx → List Cplx × Int × Int
  | i, q, [] => ([], i, q)
  | i, q, c :: cs =>
    let a := dcStep on freeze tc i c.1
    let b := dcStep on freeze tc q c.2
    let r := dcBlock on freeze tc a.2 b.2 cs
    ((a.1, b.1) :: r.1, r.2)

/-- The MONITOR entries of a committed warp take effect, those of R75 where it has no MONITOR record, and every chain sets its phase (R82, R347). -/
def monCommit (s : State) : State :=
  let ms := s.warp.monitors.getD (Vector.replicate 8 {})
  let s := forAll (List.range 8) (fun f s =>
    let m := vget ms f
    let w := put (s.reg (Reg.ACQ_MON_CFG f)) 31 28 m.n
    let w := put (put w 23 23 (b2n m.dcOn)) 22 22 (b2n m.dcFreeze)
    let w := put (put w 21 21 (b2n (m.member == 0xFF))) 2 0 (if m.member = 0xFF then 0 else m.member)
    s.setReg (Reg.ACQ_MON_CFG f) w) s
  forAll ((List.range 8).filter (foldOn s)) monRestart s

/-- Monitor chains stop (step 1 of Table 2-9). -/
def monStop (s : State) : State := s.modMons (fun v => vall v (fun _ m => { m with running := false }))

/-! ### Registers computed from the state (R350) -/

/-- Code of a stream's state. -/
def streamCode (x : StreamState) : Nat :=
  match x with
  | .idle => 0 | .queued => 1 | .armed => 2 | .capturing => 3 | .holdoff => 4 | .rearm => 5 | .done => 6

/-- ACQ_STATUS. -/
def acqStatus (s : State) : Word := pk ((List.range 4).map (fun st => (4 * st, streamCode (vget s.acq.streams st).state)))

/-- ACQ_STREAM_STATUS[s]. -/
def streamStatus (s : State) (st : Nat) : Word :=
  let x := vget s.acq.streams st
  pk [(28, streamCode x.state), (26, x.outcome), (16, if x.outcome = 2 then x.code else 0)]

/-- ACQ_MON_DC[f]. -/
def monDc (s : State) (f : Nat) : Word :=
  let m := vget s.mon f
  pk [(16, ofS 16 (m.muI / 256)), (0, ofS 16 (m.muQ / 256))]

end Sys2Proof.Machine
end

