-- ==== Sys2Proof/Machine/Hka.lean ====
section
/-!
DEFINITION. The housekeeping converter (R379…R385, R408): its two sources of conversions, urgent requests, the result queue,
the reference checks and the commands of the HKA block.
-/

namespace Sys2Proof.Machine

/-! ### What converts next (R381, R383) -/

/-- A channel of the supervision sequence now: read-backs and currents that R391 checks, the supply taps and the reference
checks (R381). -/
def inSupervision (s : State) (ch : Nat) : Bool :=
  if ch < 72 then supervised s ch
  else if ch < 136 then supervised s (ch - 72) && currentChecked s (ch - 72)
  else decide (ch < 160 ∧ (ch < 148 ∨ ch ≥ 156))

/-- The supervision channel after `ch`, in ascending order and around (R381). -/
def nextSupervised (s : State) (ch : Nat) : Nat :=
  match ((List.range 160).map (fun i => (ch + 1 + i) % 160)).find? (inSupervision s) with
  | some c => c
  | none => 156

/-- Entries of the host list. -/
def scanLen (s : State) : Nat := min 64 (s.fld Reg.HKA_SCAN_LEN 6 0)

/-- Channel of host-list entry `i`. -/
def scanEntry (s : State) (i : Nat) : Nat := s.fld (Reg.HKA_SCAN (i / 4)) (8 * (i % 4) + 7) (8 * (i % 4))

/-- The first host-list entry from `i` on that names a channel (R381). -/
def scanFrom (s : State) (i : Nat) : Option Nat :=
  ((List.range (scanLen s)).filter (fun j => j ≥ i ∧ scanEntry s j < 160)).head?

/-- MODE is triggered. -/
def hkaTriggered (s : State) : Bool := s.bit Reg.HKA_CFG 31

/-- The host-list position that converts next, when the list has work (R381). -/
def listNext (s : State) : Option Nat :=
  if hkaTriggered s then
    if s.hka.passActive ∨ s.hka.passPending then scanFrom s s.hka.pos else none
  else
    match scanFrom s s.hka.pos with
    | some i => some i
    | none => scanFrom s 0

/-- The conversion that R381 and R383 select: urgent requests first, then the aborted one, then the two sources in turn. -/
def selectConv (s : State) : Conv :=
  match s.hka.urgent with
  | ch :: _ => { ch := ch, from_ := .urgent }
  | [] =>
    match s.hka.aborted with
    | some c => { c with restarted := true }
    | none =>
      match listNext s with
      | some i => if s.hka.supLast then { ch := scanEntry s i, from_ := .list }
                  else { ch := nextSupervised s s.hka.lastSup, from_ := .supervision }
      | none => { ch := nextSupervised s s.hka.lastSup, from_ := .supervision }

/-- The conversion in progress. -/
def running (s : State) : Conv := s.hka.run.getD (selectConv s)

/-! ### Results (R380, R384, R385) -/

/-- Offer an entry to the result queue of 64; the sequence number advances for dropped entries too (R380, R384). -/
def hkaQueue (w : Word) (s : State) : State :=
  let s := s.modHka (fun h => { h with seq := (h.seq + 1) % 32 })
  if s.hka.queue.length ≥ 64 then (s.addLo Reg.HKA_COUNT 1).raise Reg.HKA_INT_STATUS 2
  else (s.modHka (fun h => { h with queue := h.queue ++ [w] })).raise Reg.HKA_INT_STATUS 0

/-- Expected code of a reference check (Table 15-1). -/
def refExpected (i : Nat) : Nat := if i = 1 then 0 else if i = 3 then 0xFF00 else 0x8000

/-- A reference check passes within ±0x0040. -/
def refPass (i code : Nat) : Bool := decide (code ≤ refExpected i + 0x40) && decide (refExpected i ≤ code + 0x40)

/-- Judge a reference check (R385). -/
def judgeRef (i code : Nat) (s : State) : State :=
  let s := s.modHka (fun h => { h with
    refBad := vmod h.refBad i (fun n => if refPass i code then 0 else n + 1)
    refGood := vmod h.refGood i (fun n => if refPass i code then n + 1 else 0) })
  if ¬ s.hka.refFail ∧ vget s.hka.refBad i ≥ 3 then
    globalSafe 5 ((s.modHka (fun h => { h with refFail := true })).raise Reg.HKA_INT_STATUS 5)
  else if s.hka.refFail ∧ (List.range 4).all (fun j => decide (vget s.hka.refGood j ≥ 3)) then
    s.modHka (fun h => { h with refFail := false })
  else s

/-- A channel whose supervision results are queued (R384). -/
def queuedChannel (s : State) (ch : Nat) : Bool := decide (ch < 160) && s.bit (Reg.HKA_QUEUE_MASK (ch / 32)) (ch % 32)

/-- A host-list pass begins. -/
def startPass (s : State) : State := s.modHka (fun h => { h with passActive := true, pos := 0 })

/-- The pending pass starts with its first host-list conversion (R382); a list that names no channel any more has none. -/
def startPending (s : State) : State :=
  if ¬ s.hka.passPending ∨ s.hka.passActive then s
  else if hkaTriggered s = false ∨ scanFrom s 0 = none then s.modHka (fun h => { h with passPending := false })
  else if (selectConv s).from_ = .list then startPass (s.modHka (fun h => { h with passPending := false }))
  else s

/-- After a host-list conversion: the next position, and the end of a pass (R382). -/
def listAdvance (s : State) : State :=
  let i := match listNext s with
    | some i => i + 1
    | none => 0
  if hkaTriggered s then
    match scanFrom s i with
    | some _ => s.modHka (fun h => { h with pos := i })
    | none =>
      (s.modHka (fun h => { h with passActive := false, pos := 0 })).raise Reg.HKA_INT_STATUS 1
  else
    match scanFrom s i with
    | some _ => s.modHka (fun h => { h with pos := i })
    | none => (s.modHka (fun h => { h with pos := 0 })).raise Reg.HKA_INT_STATUS 1

/-- A conversion completes with a code and an over-range mark (R380…R385). -/
def conversionDone (code : Nat) (past : Bool) (s : State) : State :=
  if s.pwr.stage = 0 ∨ s.pwr.off then s
  else
    let c := running s
    let past := past || s.hka.refFail
    let entry := pk [(24, c.ch), (23, b2n (c.from_ == .urgent)), (22, b2n c.restarted), (21, b2n past), (16, s.hka.seq), (0, code)]
    let s := if c.ch < 160 then s.setReg (Reg.HKA_RESULT c.ch) entry else s
    let s := match c.from_ with
      | .urgent => ((hkaQueue entry (s.setReg Reg.HKA_URGENT_RESULT entry)).raise Reg.HKA_INT_STATUS 4).modHka
          (fun h => { h with urgent := h.urgent.drop 1 })
      | .list => listAdvance (hkaQueue entry (s.modHka (fun h => { h with supLast := false })))
      | .supervision =>
        let s := s.modHka (fun h => { h with supLast := true, lastSup := c.ch })
        if queuedChannel s c.ch ∨ s.hka.refFail then hkaQueue entry s else s
    let s := s.modHka (fun h => { h with aborted := if c.restarted then none else h.aborted })
    let s := if c.ch ≥ 160 then s else if c.ch ≥ 156 then judgeRef (c.ch - 156) code s else superviseResult c.ch code s
    startPending (s.modHka (fun h => { h with run := none }))

/-- HKA_CONVERSION_DONE (R380). -/
def execHkaConversionDone (code : BitVec 16) (past : Bool) (s : State) : Host.Outcome State Fault Refusal :=
  .next (conversionDone code.toNat past s)

/-! ### Triggers and requests (R381…R384) -/

/-- A trigger of the host list: a pass, the one pending trigger, or an overrun (R382). -/
def scanTrigger (s : State) : State :=
  if ¬ hkaTriggered s then s
  else if s.hka.passPending then (s.addHi Reg.HKA_COUNT 1).raise Reg.HKA_INT_STATUS 3
  else if s.hka.passActive then s.modHka (fun h => { h with passPending := true })
  else
    match scanFrom s 0 with
    | some _ => startPass s
    | none => s

/-- SCAN (R381). -/
def execScan (s : State) : Host.Outcome State Fault Refusal := .next (s.hosted Reg.HKA_TRIG scanTrigger)

/-- HKA_TIMER_TICK (R381): the timer triggers while TIMER_EN = 1. -/
def execHkaTimerTick (s : State) : Host.Outcome State Fault Refusal :=
  .next (if s.pwr.stage ≥ 1 ∧ s.bit Reg.HKA_CFG 30 then scanTrigger s else s)

/-- A write of HKA_URGENT (R383): the request enters the FIFO of 4 and aborts a conversion that is not urgent. -/
def urgentRequest (w : Word) (s : State) : State :=
  if ¬ bitOf w 31 then s
  else if s.hka.urgent.length ≥ 4 then s.refusedWrite Reg.HKA_URGENT
  else
    let c := running s
    let s := s.modHka (fun h => { h with urgent := h.urgent ++ [fld w 7 0] })
    if c.from_ = .urgent then s
    else s.modHka (fun h => { h with aborted := some c, run := none })

/-- HKA_URGENT (R383). -/
def execHkaUrgent (w : Word) (s : State) : Host.Outcome State Fault Refusal :=
  .next (s.hosted Reg.HKA_URGENT (urgentRequest w))

/-- HKA_QUEUE_POP (R384): the head leaves the queue. -/
def execHkaQueuePop (s : State) : Host.Outcome State Fault Refusal :=
  .next (s.hosted Reg.HKA_QUEUE_POP (fun s => s.modHka (fun h => { h with queue := h.queue.drop 1 })))

/-! ### Registers computed from the state (R408) -/

/-- HKA_QUEUE_HEAD. -/
def hkaQueueHead (s : State) : Word := s.hka.queue.headD 0xFFFFFFFF

/-- HKA_STATUS. -/
def hkaStatus (s : State) : Word :=
  pk [(31, b2n s.hka.refFail), (30, b2n (s.hka.passActive || (!hkaTriggered s && (scanFrom s 0).isSome))),
      (29, b2n s.hka.passPending), (0, s.hka.urgent.length)]

end Sys2Proof.Machine
end

