-- ==== Sys2Proof/Machine/Thm.lean ====
section
/-!
DEFINITION. Temperature sensors, zones and throttling (R398…R406, R410): the judging of samples, votes, stages and TL. What a
shutdown and the entry to T2 do to the rest of the device is in Machine/Power.lean.
-/

namespace Sys2Proof.Machine

/-! ### Thresholds (R403, R410) -/

/-- T1 in 1/16 °C. -/
def thmT1 (s : State) : Int := 16 * (s.fld Reg.THM_CFG 31 24 : Nat)
/-- T2 in 1/16 °C. -/
def thmT2 (s : State) : Int := 16 * (s.fld Reg.THM_CFG 23 16 : Nat)
/-- TL_START. -/
def tlStart (s : State) : Nat := max 1 (s.fld Reg.THM_CFG 10 8)
/-- The stage a temperature implies. -/
def impliedStage (s : State) (t : Int) : Nat := if t ≥ thmT2 s then 2 else if t ≥ thmT1 s then 1 else 0

/-- The threshold at which a stage is entered. -/
def stageThreshold (s : State) (stage : Nat) : Int := if stage = 2 then thmT2 s else thmT1 s

/-- The hottest zone: the lowest-numbered of the hottest. -/
def hottestZone (s : State) : Nat :=
  (List.range 12).foldl (fun h z => if (vget s.thm.zones z).temp > (vget s.thm.zones h).temp then z else h) 0

/-- The hottest voted or estimated temperature. -/
def hottestTemp (s : State) : Int := (vget s.thm.zones (hottestZone s)).temp

/-- The neighbours of a zone (Table 15-6). -/
def zoneNeighbours (z : Nat) : List Nat :=
  match z with
  | 0 => [1, 8] | 1 => [0, 2, 8] | 2 => [1, 3, 8] | 3 => [2, 8, 10] | 4 => [5, 8, 10] | 5 => [4, 6, 8]
  | 6 => [5, 7, 8] | 7 => [6, 8, 9] | 9 => [7, 8, 11] | 10 => [3, 4, 8] | 11 => [8, 9]
  | _ => [0, 1, 2, 3, 4, 5, 6, 7, 9, 10, 11]

/-- The sensors that serve a zone, in ascending order. -/
def zoneSensors (s : State) (z : Nat) : List Nat :=
  (List.range 40).filter (fun i =>
    let x := lget s.thm.sensors i
    x.zone == z && x.state != .retired && x.state != .spare)

/-- The zone's sensors whose last sample is valid. -/
def validSensors (s : State) (z : Nat) : List Nat :=
  (zoneSensors s z).filter (fun i => (lget s.thm.sensors i).state == .valid)

/-! ### Samples (R400) -/

/-- A sample in range: −55…+150 °C. -/
def sampleInRange (t : Int) : Bool := decide (-880 ≤ t) && decide (t ≤ 2400)

/-- A sample is excluded (R400): no answer, out of range, or far from the two others, which agree. -/
def sampleExcluded (ts : List (Option Int)) (i : Nat) : Bool :=
  match (ts.getD i none) with
  | none => true
  | some t =>
    if ¬ sampleInRange t then true
    else
      match ((List.range ts.length).filter (· ≠ i)).map (fun j => ts.getD j none) with
      | [some a, some b] =>
        sampleInRange a && sampleInRange b && decide ((a - b).natAbs ≤ 48) && decide ((2 * t - (a + b)).natAbs > 256)
      | _ => false

/-- Record one sensor's sample: raw code, temperature with offset, exclusion, and the time its raw code stands (R400). -/
def recordSample (others : List (Nat × Int)) (raw : Option Int) (t : Int) (excl : Bool) (now : Nat) (x : Sensor) : Sensor :=
  let same := raw == some x.raw
  let widen := fun (o : Nat × Int) =>
    match x.rawRef.find? (fun r => r.1 == o.1) with
    | some (_, lo, hi) => (o.1, min lo o.2, max hi o.2)
    | none => (o.1, o.2, o.2)
  { x with
    state := if excl then .excluded else .valid
    bad := if excl then x.bad + 1 else 0
    temp := if raw.isSome then t else x.temp
    raw := raw.getD x.raw
    rawSince := if same then x.rawSince else now
    rawRef := if same then others.map widen else others.map (fun o => (o.1, o.2, o.2)) }

/-- A sensor fails (R400): 64 exclusions in a row, or a code unchanged for 1 s while another sensor of its zone moves by
0.5 °C. -/
def sensorFails (now : Nat) (x : Sensor) : Bool :=
  decide (x.bad ≥ 64) || (decide (x.rawSince + secTu ≤ now) && x.rawRef.any (fun r => decide (r.2.2 - r.2.1 ≥ 8)))

/-- Retire a sensor and map the lowest-numbered free reserve into its zone (R400, R23). -/
def sensorFail (i z : Nat) (s : State) : State :=
  let s := (s.modSensor i (fun x => { x with state := .retired })).event Reg.THM_INT_STATUS 4 0 0
  match ([36, 37, 38, 39].find? (fun j => (lget s.thm.sensors j).state == .spare)) with
  | some j => engageReserve 7 (s.modSensor j (fun _ => { state := .excluded, zone := z, rawSince := s.time.tb1 }))
  | none => writeReserveMap [] s

/-! ### Votes and stages (R401…R403) -/

/-- The median of three. -/
def median3 (a b c : Int) : Int := max (min a b) (min (max a b) c)

/-- The voted temperature of valid sensors; none when fewer than two (R401). -/
def vote : List Int → Option Int
  | [a, b, c] => some (median3 a b c)
  | [a, b] => some (max a b)
  | _ => none

/-- Estimate of a blind zone; none when every neighbour is blind (R401). -/
def blindEstimate (s : State) (z : Nat) (rest : List Int) : Option Int :=
  let ns := (zoneNeighbours z).filter (fun n => !(vget s.thm.zones n).blind)
  match ns.map (fun n => (vget s.thm.zones n).temp) with
  | [] => none
  | t :: ts => some (rest.foldl max (ts.foldl max t + 80))

/-- The time since which a zone stays 5 °C or more below the threshold of its stage. -/
def coolMark (s : State) (old : Option Nat) (stage : Nat) (t : Int) : Option Nat :=
  if stage = 0 then none
  else if t + 80 ≤ stageThreshold s stage then some (old.getD s.time.tb1) else none

/-- Vote a zone and move its stage up (R401…R403). -/
def voteZone (z : Nat) (s : State) : State :=
  let temps := (validSensors s z).map (fun i => (lget s.thm.sensors i).temp)
  let old := vget s.thm.zones z
  match vote temps with
  | some t =>
    let stage := max old.stage (impliedStage s t)
    s.modZone z (fun x => { x with
      blind := false, temp := t, valid := temps.length, stage := stage
      coolSince := coolMark s (if stage = old.stage then old.coolSince else none) stage t
      hot := if t ≥ 2000 then (if old.blind then 1 else old.hot + 1) else 0 })
  | none =>
    let held := if old.blind then old.held else old.stage
    let s := if old.blind then s else s.raise Reg.THM_INT_STATUS 5
    match blindEstimate s z temps with
    | some t => s.modZone z (fun x => { x with
        blind := true, temp := t, valid := temps.length, held := held, stage := max old.stage (max held (impliedStage s t))
        coolSince := none, hot := 0 })
    | none => s.modZone z (fun x => { x with
        blind := true, valid := temps.length, held := held, stage := 2, coolSince := none, hot := 0 })

/-- Follow the hottest temperature through the running second (R405). -/
def followHottest (s : State) : State :=
  let t := hottestTemp s
  s.modThm (fun m => { m with
    secMin := some (min t (m.secMin.getD t))
    secMax := some (max t (m.secMax.getD t))
    secDrop := m.secDrop || decide ((max t (m.secMax.getD t)) - t ≥ 16) })

/-- The interrupts of a change of the device's stage (R403, Table 15-13), and TL at the entry to T2 (R405). -/
def stageMoved (old : Nat) (s : State) : State :=
  let new := thermStage s
  let s := if old < 1 ∧ new ≥ 1 then s.raise Reg.THM_INT_STATUS 1 else s
  let s := if old < 2 ∧ new = 2 then
      ((s.modThm (fun m => { m with tl := tlStart s, secMin := none, secMax := none, secDrop := false })).raise
        Reg.THM_INT_STATUS 2).raise Reg.THM_INT_STATUS 3
    else s
  if new < old then s.raise Reg.THM_INT_STATUS 0 else s

/-- A sample of a zone's sensors (R400…R403): the raw codes in 1/16 °C, in ascending order of the sensors that serve it. -/
def sampleZone (z : Nat) (raws : List (Option Int)) (s : State) : State :=
  let ids := zoneSensors s z
  let ts := (List.range ids.length).map (fun j => (raws.getD j none).map (fun r => r + sensorOffset s (ids.getD j 0) z))
  let s := forAll (List.range ids.length) (fun j s =>
    let others := ((List.range ids.length).filter (fun m => m ≠ j ∧ !sampleExcluded ts m)).map
      (fun m => (ids.getD m 0, (ts.getD m none).getD 0))
    s.modSensor (ids.getD j 0) (recordSample others (raws.getD j none) ((ts.getD j none).getD 0) (sampleExcluded ts j) s.time.tb1)) s
  let s := forAll ids (fun i s => if sensorFails s.time.tb1 (lget s.thm.sensors i) then sensorFail i z s else s) s
  let old := thermStage s
  stageMoved old (followHottest (voteZone z (s.modThm (fun m => { m with sampled := true }))))

/-- A zone that is not blind has reached 125 °C in two consecutive samples (R406). -/
def zoneShutdown (s : State) (z : Nat) : Bool := !(vget s.thm.zones z).blind && decide ((vget s.thm.zones z).hot ≥ 2)

/-- THROTTLE_STAGE_FALL: a zone has stayed 5 °C below the threshold of its stage for 1 s and falls one stage; from T2 only
once TL is 0 (R403). -/
def stageFall (z : Nat) (s : State) : State :=
  let x := vget s.thm.zones z
  if x.blind ∨ x.stage = 0 ∨ x.coolSince.isNone ∨ (x.stage = 2 ∧ s.thm.tl ≠ 0) then s
  else
    let old := thermStage s
    stageMoved old (s.modZone z (fun x => { x with stage := x.stage - 1, coolSince := coolMark s none (x.stage - 1) x.temp }))

/-- THROTTLE_STAGE_FALL (R403). -/
def execThrottleStageFall (z : Fin 12) (s : State) : Host.Outcome State Fault Refusal := .next (stageFall z s)

/-- Set TL; a change asserts TL_CHANGE. -/
def setTl (n : Nat) (s : State) : State :=
  if n = s.thm.tl then s else (s.modThm (fun m => { m with tl := n })).raise Reg.THM_INT_STATUS 3

/-- TL_UPDATE: a second at T2 ends (R405). The notice tells the share of slots throttled in that second. -/
def tlUpdate (s : State) : State :=
  if thermStage s ≠ 2 then s
  else
    let tl := s.thm.tl
    let up := match s.thm.secMin with
      | some t => decide (t ≥ thmT2 s) && !s.thm.secDrop
      | none => false
    let down := match s.thm.secMax with
      | some t => decide (t + 80 ≤ thmT2 s)
      | none => false
    let s := forAll ((List.range 8).filter (s.holdsAny false)) (fun k s => s.notice k 0x07 0 (tl * 125)) s
    let s := s.modThm (fun m => { m with secMin := none, secMax := none, secDrop := false })
    setTl (if up then min 7 (tl + 1) else if down then tl - 1 else tl) s

/-- TL_UPDATE (R405). -/
def execTlUpdate (s : State) : Host.Outcome State Fault Refusal := .next (tlUpdate s)

/-- A slot of a group is throttled: slot `n` counted from the whole second of TB0 (R405). -/
def slotThrottled (s : State) (n : Nat) : Bool := thermStage s == 2 && decide (n * s.thm.tl % 8 < s.thm.tl)

/-! ### Registers computed from the state (R410) -/

/-- THM_STATUS. -/
def thmStatus (s : State) : Word :=
  pk [(30, thermStage s), (26, hottestZone s), (16, s.thm.tl), (0, ofS 16 (hottestTemp s))]

/-- Within 5 °C of T1, T2 or 125 °C (R399). -/
def nearThreshold (s : State) (t : Int) : Bool :=
  [thmT1 s, thmT2 s, 2000].any (fun x => decide ((t - x).natAbs ≤ 80))

/-- THM_ZONE[z]. -/
def thmZone (s : State) (z : Nat) : Word :=
  let x := vget s.thm.zones z
  let v := validSensors s z
  pk [(30, x.stage), (29, b2n x.blind), (28, b2n x.blind), (26, x.valid),
      (25, b2n (nearThreshold s x.temp || v.any (fun i => nearThreshold s (lget s.thm.sensors i).temp))), (0, ofS 16 x.temp)]

/-- THM_SENSOR[i]. -/
def thmSensor (s : State) (i : Nat) : Word :=
  let x := lget s.thm.sensors i
  let st := match x.state with
    | .valid => 0 | .excluded => 1 | .retired => 2 | .spare => 3
  if s.thm.sampled then pk [(30, st), (26, x.zone), (0, ofS 16 x.temp)] else 0

end Sys2Proof.Machine
end

