-- ==== Sys2Proof/Machine/Live.lean ====
section
/-!
DEFINITION. What a group, a role and a chain are doing: the carriers, slots and symbols of a group (R104, R167), role validity
(R138), group states (R203, R204), the mute sources and chain states (R124, R126), and the attenuation and trim in force
(R105, R109).
-/

namespace Sys2Proof.Machine

/-! ### Carriers, slots and symbols -/

/-- The slot length of a subcarrier spacing code (Table 3-3). -/
def slotTu (scs : Nat) : Nat := msTu / 2 ^ scs

/-- The carriers of a direction that a group carries. -/
def groupCarriers (s : State) (ul : Bool) (g : Nat) : List Carrier :=
  (List.range 4).filterMap (fun c => (s.carrier ul c).filter (fun k => nbit k.groups g))

/-- The slot length of a group: the longest of its carriers, 1 ms for a group that carries none (R104). -/
def groupSlotTu (s : State) (g : Nat) : Nat :=
  match (groupCarriers s false g ++ groupCarriers s true g).map (fun k => slotTu k.scs) with
  | [] => msTu
  | l => l.foldl max 0

/-- The first slot boundary of a slot length at or after a time. -/
def boundaryFrom (slot t : Nat) : Nat := divUp t slot * slot

/-- The first boundary of a group after a time. -/
def boundaryAfter (s : State) (g t : Nat) : Nat := (t / groupSlotTu s g + 1) * groupSlotTu s g

/-- The number of a group's slot at a time, counted from the whole second (R405). -/
def slotNumber (s : State) (g t : Nat) : Nat := t % secTu / groupSlotTu s g

/-- A time lies in a slot of the group that is throttled at T2 (R405). -/
def throttledAt (s : State) (g t : Nat) : Bool :=
  thermStage s == 2 && decide (slotNumber s g t * s.thm.tl % 8 < s.thm.tl)

/-- The start of symbol `j` of a millisecond in ticks, under 3GPP TS 38.211, for a spacing and cyclic prefix (R167). -/
def symbolTicks (scs cp j : Nat) : Nat :=
  if cp = 1 then j * (2560 * 16) / 2 ^ scs
  else j * (2192 * 16) / 2 ^ scs + (if j > 0 then 256 else 0) + (if j > 7 * 2 ^ scs then 256 else 0)

/-- The symbols of a millisecond. -/
def symbolsPerMs (scs cp : Nat) : Nat := (if cp = 1 then 12 else 14) * 2 ^ scs

/-- The first symbol boundary of a carrier at or after a time (R167). -/
def symbolFrom (k : Carrier) (t : Nat) : Nat :=
  let ms := t / msTu * msTu
  match (List.range (symbolsPerMs k.scs k.cp)).find? (fun j => decide (t ≤ ms + symbolTicks k.scs k.cp j * tickTu)) with
  | some j => ms + symbolTicks k.scs k.cp j * tickTu
  | none => ms + msTu

/-- The first symbol boundary of a carrier after a time. -/
def symbolAfter (k : Carrier) (t : Nat) : Nat := symbolFrom k (t + 1)

/-- The centre of a carrier's band, and half its bandwidth, in kHz. -/
def carrierBand (k : Carrier) : Int × Int := ((k.centre : Int) - 5 * k.bw, (k.centre : Int) + 5 * k.bw)

/-! ### Roles (R138) -/

/-- The unit holding a role. -/
def roleUnit (s : State) (r : Nat) : SynUnit := vget s.syn.units (vget s.syn.roles r).unit

/-- The converter clock runs for the roles: locked or in holdover, and not latched (R138, R142). -/
def cnvValid (s : State) : Bool := (s.syn.cnvLock || s.syn.holdover) && !s.syn.cnvInvalid && !s.syn.cnvLatched

/-- The unit of a role has lock and is doing neither a calibration, a swap nor a survey (R138, R200). -/
def roleReady (s : State) (r : Nat) : Bool :=
  let x := vget s.syn.roles r
  x.used && (roleUnit s r).locked && !(roleUnit s r).cal && !x.swapRun && !x.survey

/-- A role is valid (R138). -/
def roleValid (s : State) (r : Nat) : Bool := roleReady s r && cnvValid s && !(vget s.syn.roles r).latched

/-- The role of a group in a direction: the LO of its carriers (R203). -/
def groupRole (s : State) (ul : Bool) (g : Nat) : Option Nat := (groupCarriers s ul g).head?.map (·.lo)

/-- The group's role in a direction is valid. -/
def groupRoleValid (s : State) (ul : Bool) (g : Nat) : Bool :=
  match groupRole s ul g with
  | some r => roleValid s r
  | none => false

/-- The groups that a role feeds. -/
def roleGroups (s : State) (r : Nat) : List Nat :=
  (List.range 8).filter (fun g => groupRole s false g == some r || groupRole s true g == some r)

/-! ### Groups (R203, R204) -/

/-- The group is in TX. -/
def groupTx (s : State) (g : Nat) : Bool := (vget s.rad.groups g).state == .tx

/-- The group is in RX: its state is RX, or it is an FDD group in TX (R204). -/
def groupRx (s : State) (g : Nat) : Bool :=
  let x := vget s.rad.groups g
  x.state == .rx || (x.fdd && x.state == .tx)

/-- The path's group is in TX. -/
def pathInTx (s : State) (p : Nat) : Bool := groupTx s (s.groupOf p)
/-- The path's group is in RX. -/
def pathInRx (s : State) (p : Nat) : Bool := groupRx s (s.groupOf p)

/-- A path of the array. -/
def pathOf (s : State) (p : Nat) : PathSt := vget s.paths p

/-! ### Licence (R220, R224) -/

/-- A downlink carrier lies wholly within one range of a pasture record (R224). -/
def carrierPermitted (r : Pasture) (k : Carrier) : Bool :=
  r.ranges.any (fun x => decide ((x.1 : Int) ≤ (carrierBand k).1) && decide ((carrierBand k).2 ≤ (x.2 : Int)))

/-- Some downlink carrier of a group is not permitted (R224). -/
def groupOutOfRange (s : State) (g : Nat) : Bool :=
  match s.rad.pasture with
  | none => false
  | some r => (groupCarriers s false g).any (fun k => !carrierPermitted r k)

/-- Recheck the carriers of every group against the pasture record (R223, R224). -/
def recheckRange (s : State) : State :=
  forAll (List.range 8) (fun g s =>
    let now := groupOutOfRange s g
    let s := if now ∧ ¬ (vget s.rad.groups g).licRange then s.raise Reg.RAD_INT_STATUS 7 else s
    s.modGroup g (fun x => { x with licRange := now })) s

/-! ### Attenuation and trim (R105, R109, R225) -/

/-- The sum of host, licence and aggregate attenuation of a transmit chain, in 0.25 dB. -/
def attenSum (s : State) (p : Nat) : Nat := (pathOf s p).txAtten + (pathOf s p).licAtten + s.rad.aggAtten

/-- The transmit attenuation in force: APPLIED (R225). -/
def appliedTx (s : State) (p : Nat) : Nat := min 127 (attenSum s p)

/-- Take the transmit attenuation of the register (R105). -/
def applyTxAtten (p : Nat) (s : State) : State := s.modPath p (fun x => { x with txAtten := s.fld (Reg.PTH_TX_ATTEN p) 6 0 })

/-- Take the receive attenuation of the register (R105). -/
def applyRxAtten (p : Nat) (s : State) : State := s.modPath p (fun x => { x with rxAtten := s.fld (Reg.PTH_RX_ATTEN p) 4 0 })

/-- The sum of the two trim registers of a chain in 0.25 ps (R109). -/
def trimSum (s : State) (tx : Bool) (p : Nat) : Int :=
  let f := fun a => toS 18 (s.fld a 17 0)
  if tx then f (Reg.PTH_TX_TRIM_CAL p) + f (Reg.PTH_TX_TRIM_USER p)
  else f (Reg.PTH_RX_TRIM_CAL p) + f (Reg.PTH_RX_TRIM_USER p)

/-- Take the trim of a chain's registers, saturated (R109, R112). -/
def applyTrim (tx : Bool) (p : Nat) (s : State) : State :=
  let d := clampI (-65536) 65535 (trimSum s tx p)
  let sat := decide (d ≠ trimSum s tx p)
  let s := s.modPath p (fun x =>
    if tx then { x with txTrim := d, satTx := sat } else { x with rxTrim := d, satRx := sat })
  if sat then s.raise (Reg.PTH_INT_STATUS p) 7 else s

/-- The trim in force of a chain, in 0.25 ps. -/
def trimOf (s : State) (tx : Bool) (p : Nat) : Int := if tx then (pathOf s p).txTrim else (pathOf s p).rxTrim

/-! ### Mute sources and chain states (R124, R126) -/

/-- The mute sources of a TX chain, as the bits of MUTE_SRC (R126). -/
def muteSrc (s : State) (p : Nat) : Nat :=
  let x := pathOf s p
  bitsOf 6 (fun i =>
    match i with
    | 0 => decide (s.pwr.stage < 4) || x.stageMute
    | 1 => x.hostMute
    | 2 => !roleValid s (s.loRole true p)
    | 3 => x.ocp
    | 4 => s.rad.pasture.isNone || (vget s.rad.groups (s.groupOf p)).licRange || decide (attenSum s p > 127)
    | _ => decide (x.txFault ≠ 0))

/-- Why an RX chain is ZEROED (Table 4-4): RX_ZERO in force, or LO_INVALID substitution. -/
def rxZeroed (s : State) (p : Nat) : Bool := (pathOf s p).rxZero || !roleValid s (s.loRole false p)

/-- Mute and zero at once the chains of a path that have a source; a chain without one waits for its group boundary
(R126, R141). -/
def refreshPath (p : Nat) (s : State) : State :=
  let m := decide (muteSrc s p ≠ 0)
  let z := rxZeroed s p
  s.modPath p (fun x => { x with muted := x.muted || m, zeroed := x.zeroed || z })

/-- Mute and zero at once every chain that has a source. -/
def refreshMutes (s : State) : State := forAll (List.range 64) refreshPath s

/-- Every TX burst that runs on a group has lost its role: its remaining samples stay muted (R140). -/
def groupSilent (s : State) (g : Nat) : Bool :=
  let l := (vget s.rad.groups g).bursts.filter (fun b => b.started && b.tx)
  !l.isEmpty && l.all (fun b => b.said && b.code == 0x21)

/-- Chain state code of a transmit chain (Table 4-4). -/
def txState (s : State) (p : Nat) : Nat :=
  if (pathOf s p).txFault ≠ 0 then 4
  else if s.wrp.active.isNone ∨ ¬ (s.pathCfg p).txEn then 0
  else if ¬ pathInTx s p then 1
  else if muteSrc s p ≠ 0 ∨ (pathOf s p).muted ∨ groupSilent s (s.groupOf p) then 2
  else 3

/-- Chain state code of a receive chain (Table 4-4). -/
def rxState (s : State) (p : Nat) : Nat :=
  if (pathOf s p).rxFault ≠ 0 then 4
  else if s.wrp.active.isNone ∨ ¬ (s.pathCfg p).rxEn then 0
  else if ¬ pathInRx s p then 1
  else if rxZeroed s p ∨ (pathOf s p).zeroed then 2
  else 3

/-- The transmit chain is LIVE. -/
def txLive (s : State) (p : Nat) : Bool := txState s p == 3
/-- The receive chain is LIVE. -/
def rxLive (s : State) (p : Nat) : Bool := rxState s p == 3

/-! ### Visits of the observation receivers (R191…R195) -/

/-- Predistorter of a path. -/
def dpdOf (s : State) (p : Nat) : DpdPath := vget s.dpd.paths p

/-- Log an attempt that ended REJECTED or REVERTED, with the path and code in the detail word. -/
def attemptLog (p bit code : Nat) (s : State) : State :=
  s.logPut 0x8B 0 bit true (BitVec.ofNat 32 (p * 256 + code))

/-- Show the result and code of an attempt. -/
def attemptStatus (p result code : Nat) (s : State) : State :=
  (s.setFld (Reg.DPD_STATUS p) 31 30 result).setFld (Reg.DPD_STATUS p) 23 16 code

/-- An attempt ends REJECTED by a precondition or a check, and the path becomes due again after its period (R195, R196). -/
def attemptReject (p code : Nat) (s : State) : State :=
  attemptLog p 1 code ((attemptStatus p 2 code
    (s.modDpdPath p (fun x => { x with adapt := .idle, dueFrom := s.time.tb1 }))).raise Reg.DPD_INT_STATUS 1)

/-- A block is discarded with a code (R195): a replacement is taken, and 16 discarded in a row end the attempt. -/
def discardBlock (p code : Nat) (s : State) : State :=
  match (dpdOf s p).adapt with
  | .collecting good bad =>
    if bad + 1 ≥ 16 then attemptReject p code s
    else (s.setFld (Reg.DPD_STATUS p) 23 16 code).modDpdPath p (fun x => { x with adapt := .collecting good (bad + 1) })
  | .verifying bad =>
    if bad + 1 ≥ 16 then attemptReject p code s
    else (s.setFld (Reg.DPD_STATUS p) 23 16 code).modDpdPath p (fun x => { x with adapt := .verifying (bad + 1) })
  | _ => s

/-- A member of a fold has a block due (R191). -/
def blockDue (s : State) (p : Nat) : Bool :=
  match (dpdOf s p).adapt with
  | .collecting _ _ | .verifying _ => true
  | _ => false

/-- The next member a visit takes: ascending from the one after the last visited (R191). -/
def nextMember (s : State) (o : Nat) : Option Nat :=
  ((List.range 8).map (fun i => ((vget s.dpd.obs o).last + 1 + i) % 8)).find? (fun m => blockDue s (8 * o + m))

/-- The member being visited: visits use every interval that no holder claims (R190), and wait while the fold's TX LO role is not valid
(R193). -/
def visitMember (s : State) (o : Nat) : Option Nat :=
  if (vget s.dpd.obs o).holder.isSome || !roleValid s (s.loRole true (8 * o)) then none else nextMember s o

/-- The member pinned to the monitor chain of a fold (R82, R192). -/
def pinnedMember (s : State) (o : Nat) : Option Nat :=
  if s.bit (Reg.ACQ_MON_CFG o) 21 then none else some (s.fld (Reg.ACQ_MON_CFG o) 2 0)

/-- The member a receiver at rest observes: the pinned one, or member 0 (R192). -/
def restMember (s : State) (o : Nat) : Nat := (pinnedMember s o).getD 0

/-- The member that a receiver observes (R190…R192): a survey's or a capture's, the one visited, or the one at rest. -/
def observed (s : State) (o : Nat) : Nat :=
  match (vget s.dpd.obs o).holder with
  | some (.survey p) => p % 8
  | some (.capture st) => s.fld (Reg.ACQ_STREAM_SRC st) 21 19
  | some .cal => restMember s o
  | none => (visitMember s o).getD (restMember s o)

/-- The visit in progress of a receiver has its block discarded (R193). -/
def dropBlock (o : Nat) (s : State) : State :=
  match visitMember s o with
  | some m => discardBlock (8 * o + m) 5 (s.modObs o (fun x => { x with last := m }))
  | none => s

/-- The blocks in progress on the folds whose TX LO a role is are discarded. -/
def dropBlocks (r : Nat) (s : State) : State :=
  forAll ((List.range 8).filter (fun o => s.loRole true (8 * o) == r)) dropBlock s

/-! ### Changes of role validity (R138, R139, Table 10-7) -/

/-- The carriers of a role as LO_INVALID and LO_VALID name them: [3:0] downlink, [7:4] uplink. -/
def roleCarriers (s : State) (r : Nat) : Nat :=
  let has := fun (ul : Bool) (c : Nat) => match s.carrier ul c with
    | some k => k.lo == r
    | none => false
  bitsOf 4 (has false) + 16 * bitsOf 4 (has true)

/-- The flock holds a slot on a carrier of the role. -/
def holdsRole (s : State) (r k : Nat) : Bool :=
  [false, true].any (fun ul => (List.range 32).any (fun l => s.holder ul l == some k && (match s.layer ul l with
    | some y => (match s.carrier ul y.carrier with
      | some c => c.lo == r
      | none => false)
    | none => false)))

/-- The holders of slots on a role's carriers are told of a change of its validity. -/
def noticeRole (r : Nat) (valid : Bool) (s : State) : State :=
  forAll ((List.range 8).filter (holdsRole s r)) (fun k s => s.notice k (if valid then 6 else 5) 0 (roleCarriers s r)) s

/-- Make a change that can move the validity of the roles: for a role that becomes invalid, blocks in progress on its receivers are
discarded (R193), its chains are muted and zeroed at once, and the holders are told. -/
def watchRoles (f : State → State) (s : State) : State :=
  let t := f s
  let lost := (List.range 2).filter (fun r => roleValid s r && !roleValid t r)
  let t := refreshMutes (f (forAll lost dropBlocks s))
  forAll (List.range 2) (fun r t =>
    let was := roleValid s r
    let is := roleValid t r
    if was == is then t else noticeRole r is t) t

/-! ### Sample times (R165, R167) -/

/-- A trim in 0.25 ps as 1/125 of a time unit. -/
def trim125 (d : Int) : Int := d * 6144

/-- Periods by which the ball time leads the port time: 1,023 in the downlink, −160 in the uplink (R165), twice as many of the
predistorter's half periods (R187). -/
def ballLead (ul half : Bool) : Int := (if ul then -160 else 1023) * (if half then 2 else 1)

/-- The sample whose ball time lies nearest an aim, ties to the earlier one, for a sample period and a trim (R167): its number,
which is its port time divided by the period. -/
def startIndex (ul half : Bool) (period : Nat) (aim d : Int) : Int :=
  let b : Int := (125 * period : Nat)
  let a := if ul then 125 * aim + trim125 d else 125 * aim - trim125 d
  let k := -((b - 2 * a) / (2 * b))
  k - ballLead ul half

/-- Ball time at zero trim of a port time (R165). -/
def ballTime (ul half : Bool) (period : Nat) (port : Int) : Int := port + ballLead ul half * period

/-- The first sample number whose port time is at least 87 ns after a time (R166). -/
def immediateIndex (period now : Nat) : Int := (divUp (now + 87 * nsTu) period : Nat)

end Sys2Proof.Machine
end

