-- ==== Sys2Proof/Machine/CasOut.lean ====
section
/-!
DEFINITION. Frames on the fold links (R312, R316): the header, the check word and the queue of frames that wait; and what a stack
adds to times (R323, R324).
-/

namespace Sys2Proof.Machine

/-- The device is the bellwether of a stack in stacked mode. -/
def isBellwether (s : State) : Bool := s.cas.role == 1 && s.cas.mode == 0

/-- The device is a member of a stack in stacked mode. -/
def isStackMember (s : State) : Bool := s.cas.role == 2 && s.cas.mode == 0

/-- What the fold links add for the bellwether's own schedule: (N − 1) × 410 ns (R323, R324). -/
def stackDelay (s : State) : Nat := if isBellwether s then (s.cas.size - 1) * 410 * nsTu else 0

/-- The port of a side: FL0 upstream is port 2, FL1 downstream is port 3. -/
def sidePort (side : Nat) : Nat := 2 + side

/-- The stack has a neighbour on a side: upstream of a member, downstream of every device but the last. -/
def hasSide (s : State) (side : Nat) : Bool :=
  if side = 0 then s.cas.role == 2 else s.cas.role != 0 && decide (s.cas.d + 1 < s.cas.size)

/-- The next SEQ of a type and side. -/
def nextSeq (key : Nat) (l : List (Nat × Nat)) : Nat :=
  match l.find? (fun x => x.1 == key) with
  | some (_, n) => (n + 1) % 65536
  | none => 0

/-- The header and payload of a fold-link frame with its check word (R312, Table 12-1). -/
def foldFrame (type src dst : Nat) (bcast : Bool) (stackId seq : Nat) (payload : List Byte) : List Byte :=
  let b := beBytes 1 type ++ beBytes 1 (src * 32 + dst * 4 + b2n bcast * 2) ++ beBytes 2 payload.length ++
    beBytes 4 stackId ++ beBytes 2 seq ++ beBytes 2 0 ++ payload
  b ++ beBytes 4 (crc32c b)

/-- A port on which only HELLO and LANE frames pass (R326). -/
def sideIsolated (s : State) (side : Nat) : Bool := (vget s.cas.nbrs side).isolated

/-- Queue bytes on a side. -/
def foldOut (side : Nat) (b : List Byte) (s : State) : State := s.modCas (fun c => { c with out := c.out ++ [(side, b)] })

/-- A LANE frame crosses a port that is not in L0 for want of one lane: the news of a failure, and the answers to a swap (R249). -/
def laneCrosses (s : State) (side : Nat) : Bool :=
  let st := (vget s.lne.ports (sidePort side)).state
  hasSide s side && (st == .training || st == .downFault)

/-- The stack has a neighbour on a side, and the port is in L0: no frame passes a port out of service (R244, R310). -/
def sideUp (s : State) (side : Nat) : Bool := hasSide s side && (vget s.lne.ports (sidePort side)).state == .l0

/-- Send a frame on a side (R312): only HELLO and LANE across an isolation (R326). -/
def casSend (type side dst : Nat) (bcast : Bool) (payload : List Byte) (s : State) : State :=
  if (¬ sideUp s side ∧ ¬ (type = 0x08 ∧ laneCrosses s side)) ∨ (sideIsolated s side ∧ type ≠ 0x01 ∧ type ≠ 0x08) then s
  else
    let key := type * 2 + side
    let seq := nextSeq key s.cas.seqs
    let s := s.modCas (fun c => { c with seqs := (key, seq) :: c.seqs.filter (fun x => x.1 != key) })
    foldOut side (foldFrame type s.cas.d dst bcast s.cas.stackId seq payload) s

/-- A CONTROL payload (R316). -/
def controlBody (sub tag : Nat) (body : List Byte) : List Byte := beBytes 1 sub ++ beBytes 1 0 ++ beBytes 2 tag ++ body

/-- The bellwether sends a CONTROL frame to every device. -/
def relayControl (sub tag : Nat) (body : List Byte) (s : State) : State :=
  if isBellwether s then casSend 0x06 1 0 true (controlBody sub tag body) s else s

/-- A member sends a CONTROL frame upward. -/
def reportUp (sub tag : Nat) (body : List Byte) (s : State) : State :=
  if isStackMember s then casSend 0x06 0 0 false (controlBody sub tag body) s else s

/-- The other devices of the joined set. -/
def joinedOthers (s : State) : List Nat := (List.range 8).filter (fun d => d != s.cas.d && nbit s.cas.joined d)

end Sys2Proof.Machine
end

