-- ==== Sys2Proof/Machine/Skn.lean ====
section
/-!
DEFINITION. The beamformer: skeins, banks, swap requests, plies and reports (R152…R173), and the commands of the SKN block.
-/

namespace Sys2Proof.Machine

/-! ### Weights and arithmetic (R152, R158, R160…R162, R169) -/

/-- A complex value of six bytes: I then Q, 24 bits each, least significant byte first (Table 6-3). -/
def cplxLe (bs : List Byte) (o : Nat) : Cplx := (toS 24 (le bs o 3), toS 24 (le bs (o + 3) 3))

/-- The six bytes of a complex value. -/
def cplxBytes (z : Cplx) : List Byte := leBytes 3 (ofS 24 z.1) ++ leBytes 3 (ofS 24 z.2)

/-- The 64 weights in the 384 bytes of a skein. -/
def skeinWeights (bs : List Byte) : List Cplx := (List.range 64).map (fun p => cplxLe bs (6 * p))

/-- The gain of a BACKOFF in 0.01 dB, Q1.23 (R158). -/
def backoffGain (b : Int) : Int := divEven (pow10Fx b 2000 * (2 ^ 23 : Nat)) (2 ^ 96)

/-- A weight as a bank loads it under a BACKOFF (R158). -/
def scaleWeight (b : Int) (w : Cplx) : Cplx :=
  if b = 0 then w else (shrEven (w.1 * backoffGain b) 23, shrEven (w.2 * backoffGain b) 23)

/-- The exact product of a weight and a sample, Q2.46 (R160). -/
def cmul (w x : Cplx) : Cplx := (w.1 * x.1 - w.2 * x.2, w.1 * x.2 + w.2 * x.1)

/-- Sum of complex values. -/
def cadd (a b : Cplx) : Cplx := (a.1 + b.1, a.2 + b.2)

/-- A part narrowed from Q1.23 to Q1.17 (R98). -/
def narrow17 (x : Int) : Int := satS 18 (shrEven x 6)

/-- The product of a layer in fall-back, aligned to Q10.46 (R98). -/
def cmulFallback (w x : Cplx) : Cplx :=
  let z := cmul (narrow17 w.1, narrow17 w.2) (narrow17 x.1, narrow17 x.2)
  (shrEven z.1 12 * (2 ^ 24 : Nat), shrEven z.2 12 * (2 ^ 24 : Nat))

/-- Narrow an accumulator to a sample: the value, and whether a part saturated (R162). -/
def narrowSum (shift : Nat) (a : Cplx) : Cplx × Bool :=
  let i := shrEven a.1 (23 + shift)
  let q := shrEven a.2 (23 + shift)
  ((satS 24 i, satS 24 q), overS 24 i || overS 24 q)

/-- The ply profile at sample `i` of `n`, Q1.23 (R169). -/
def plyProfile (raised : Bool) (n i : Nat) : Int :=
  if raised then divEven ((fxOne - cosPiFx (2 * i + 1 : Nat) (2 * n)) * (2 ^ 23 : Nat)) (2 ^ 97)
  else divEven ((2 * i + 1 : Nat) * (2 ^ 23 : Nat) : Int) (2 * n)

/-- One part of a weight during a ply (R169). -/
def plyPart (a f t : Int) : Int := shrEven (f * (2 ^ 23 : Nat) + a * (t - f)) 23

/-- A weight during a ply, from the bank being left to the one entered (R169). -/
def plyWeight (raised : Bool) (n i : Nat) (f t : Cplx) : Cplx :=
  let a := plyProfile raised n i
  (plyPart a f.1 t.1, plyPart a f.2 t.2)

/-! ### Banks and slots (R156…R158) -/

/-- The active bank of a slot. -/
def Slot.act (x : Slot) : Bank := if x.activeB then x.b else x.a
/-- The inactive bank of a slot. -/
def Slot.inact (x : Slot) : Bank := if x.activeB then x.a else x.b

/-- The carrier of a layer slot. -/
def layerCarrier (s : State) (ul : Bool) (l : Nat) : Option Carrier :=
  match s.layer ul l with
  | some y => s.carrier ul y.carrier
  | none => none

/-- BACKOFF of a layer's carrier; 0 in the uplink. -/
def layerBackoff (s : State) (ul : Bool) (l : Nat) : Int :=
  if ul then 0
  else match layerCarrier s false l with
    | some k => k.backoff
    | none => 0

/-- The 384 bytes of a skein in a memory. -/
def skeinBytes (m : Tab Byte) (n : Nat) : List Byte := mread blank m (512 * n) 384

/-- A bank loaded from a skein of a skein memory (R156, R158). -/
def loadBank (s : State) (m : Tab Byte) (ul : Bool) (l n : Nat) : Bank :=
  { ptr := n, w := (skeinWeights (skeinBytes m n)).map (scaleWeight (layerBackoff s ul l)) }

/-- The skein memory of a direction. -/
def skeinMem (s : State) (ul : Bool) : Tab Byte := if ul then s.skn.ul else s.skn.dl

/-- The skein memory as a swap's snapshot sees it: 64 ns before the port time of its start sample (R155). -/
def skeinSnapshot (s : State) (ul : Bool) (start : Int) : Tab Byte :=
  snapshotMem skeinByte ul ((s.time.tb1 : Int) - ((s.time.tb0 : Int) - (start - (64 * nsTu : Nat)))) s.skn.recent (skeinMem s ul)

/-- The index of a sample within a swap, on a path, for a sample period and a port time (R169); negative before the path's own start
sample. -/
def PlyRun.index (y : PlyRun) (t p : Nat) (port : Int) : Int := (port - y.start) / (t : Int) - y.offs.getD p 0

/-- A ply runs on a slot or a predistorter; a hard swap is none (R169, R170). -/
def plyRuns (y : Option PlyRun) : Bool := y.any (fun y => decide (y.len > 0))

/-- A swap goes on from a change of the sample period at a port time: the samples it has counted stay (R169). -/
def PlyRun.rebase (old new : Nat) (at_ : Int) (y : PlyRun) : PlyRun :=
  { y with start := at_ - (at_ - y.start) / (old : Int) * new }

/-- The weight in force of a slot for a path at a port time (R156, R169), before the mask of R159. -/
def slotWeight (s : State) (ul : Bool) (l p : Nat) (port : Int) : Cplx :=
  let x := s.slot ul l
  let w := x.act.w.getD p (0, 0)
  match x.ply with
  | none => w
  | some y =>
    let i := y.index (pathPeriod s.pwr.level) p port
    if i < 0 then x.inact.w.getD p (0, 0)
    else if i < y.len then plyWeight y.raised y.len i.toNat (x.inact.w.getD p (0, 0)) w
    else w

/-- The chain's weights are masked by a fault (R159). -/
def masked (s : State) (ul : Bool) (p : Nat) : Bool := if ul then (pathOf s p).maskRx else (pathOf s p).maskTx

/-- The weight in force of a slot for a path, masked to zero for a faulted chain (R159). -/
def maskedWeight (s : State) (ul : Bool) (l p : Nat) (port : Int) : Cplx :=
  if masked s ul p then (0, 0) else slotWeight s ul l p port

/-! ### Reports (R173) -/

/-- The start ball time of a report as 8 octets; 0 unless started. -/
def reportTime (start : Int) : List Byte := if start ≤ 0 then List.replicate 8 0 else time8 start.toNat

/-- A report enters the host queue of 64, or is dropped (R173). -/
def hostSwapReport (r : SwapReport) (s : State) : State :=
  if s.skn.reports.length ≥ 64 then (s.addLo Reg.SKN_REPORT_DROPPED 1).raise Reg.SKN_INT_STATUS 1
  else (s.modSkn (fun k => { k with reports := k.reports ++ [r] })).raise Reg.SKN_INT_STATUS 0

/-- SWAP_REPORT to a flock (Table 10-5). -/
def flockSwapReport (k port tag outcome code : Nat) (ul : Bool) (l : Nat) (start : Int) (late byTag : Nat) (s : State) : State :=
  s.post k port 0x91 tag
    (beBytes 1 outcome ++ beBytes 1 code ++ beBytes 1 (b2n ul * 128 + l) ++ beBytes 1 0 ++ reportTime start ++
      beBytes 2 late ++ beBytes 2 byTag)

/-- Report the outcome of a request to its requester; a flock's report is also mirrored (R173). -/
def swapReport (ul : Bool) (l : Nat) (r : SwapReq) (outcome : Nat) (start : Int) (late byTag : Nat) (s : State) : State :=
  let rep := fun k => ({ outcome := outcome, ul := ul, layer := l, flock := k, tag := r.tag, start := start, late := late,
                         byTag := byTag } : SwapReport)
  match r.who with
  | .host => hostSwapReport (rep none) s
  | .flock k =>
    let s := flockSwapReport k r.port r.tag outcome 0 ul l start late byTag s
    if s.bit Reg.SKN_CFG 31 then hostSwapReport (rep (some k)) s else s
  | _ => s

/-- Count and report a supersession (R170). -/
def superseded (ul : Bool) (l : Nat) (r : SwapReq) (byTag : Nat) (s : State) : State :=
  let s := if ul then s.addHi Reg.SKN_SUPERSEDED 1 else s.addLo Reg.SKN_SUPERSEDED 1
  swapReport ul l r 3 0 0 byTag (s.raise Reg.SKN_INT_STATUS 3)

/-- Discard the pending request of a slot (R157, R91, R94): outcome 4 by structure, 5 by release. -/
def discardPend (outcome : Nat) (ul : Bool) (l : Nat) (s : State) : State :=
  match (s.slot ul l).pend with
  | none => s
  | some r =>
    swapReport ul l r outcome 0 0 0
      ((s.modSlot ul l (fun x => { x with pend := none })).raise Reg.SKN_INT_STATUS 6)

/-- A slot is served to a flock, released or removed (R157): zero banks, bank A active, no ply, no request. -/
def resetSlot (outcome : Nat) (ul : Bool) (l : Nat) (holder : Option Nat) (s : State) : State :=
  (discardPend outcome ul l s).modSlot ul l (fun _ => { holder := holder })

/-! ### Requests (R163…R171) -/

/-- A partition of a flock in a direction holds a skein (R81). -/
def inPartition (s : State) (ul : Bool) (k n : Nat) : Bool :=
  s.warp.parts.any (fun q => q.ul == ul && q.owner == k && decide (q.first ≤ n) && decide (n < q.first + q.count))

/-- The tag order of two requests complete in the same path sample: the host's is the later (R171). -/
def hostLater (period : Nat) (old new : SwapReq) : Bool :=
  old.who == .host && new.who != .host && old.doneAt / period == new.doneAt / period

/-- An accepted request takes the slot's room; the other one is superseded (R170, R171). -/
def swapAccept (ul : Bool) (l : Nat) (r : SwapReq) (s : State) : State :=
  let take := s.modSlot ul l (fun x => { x with pend := some r })
  match (s.slot ul l).pend with
  | none => take
  | some old =>
    if hostLater (pathPeriod s.pwr.level) old r then superseded ul l r old.tag s
    else superseded ul l old r.tag take

/-- The first sample of an immediate request that is complete now (R166); in a stack, of every device (R324). -/
def immediateNow (s : State) : Int :=
  let t := pathPeriod s.pwr.level
  if isBellwether s then ((divUp (s.time.tb0 + 96 * nsTu + stackDelay s) t : Nat) : Int) else immediateIndex t s.time.tb0

/-- A request for an aim is on time (R168): complete at least 87 ns before the port time of every path's start sample. -/
def aimOnTime (s : State) (ul : Bool) (aim : Int) : Bool :=
  let t := pathPeriod s.pwr.level
  (List.range 64).all (fun p =>
    decide (((s.time.tb0 + 87 * nsTu + stackDelay s : Nat) : Int) ≤ startIndex ul false t aim (trimOf s (!ul) p) * t))

/-- The zero-trim port times of the sample aimed at and of the one the request will start at when complete now (R166…R168). -/
def planStart (s : State) (ul : Bool) (aim : Int) : Int × Int :=
  let t := pathPeriod s.pwr.level
  let want := startIndex ul false t aim 0
  (want * t, (if aimOnTime s ul aim then want else immediateNow s) * t)

/-- The refusal code of a swap request (Table 6-5); 0 when accepted. -/
def swapCode (s : State) (ul : Bool) (l skein ply : Nat) (imm symbol : Bool) (who : Requester) (at_ : Nat) : Nat :=
  let notHolder := match who with
    | .flock k => s.holder ul l != some k
    | _ => false
  let notOwned := match who with
    | .flock k => !inPartition s ul k skein
    | _ => false
  if s.wrp.active.isNone then 0x01
  else if s.pwr.level = 3 then 0x02
  else if (s.layer ul l).isNone then 0x03
  else if (s.holder ul l).isNone then 0x04
  else if notHolder then 0x05
  else if notOwned then 0x06
  else if ply = 1 ∨ ply > 8 ∨ (symbol ∧ imm) then 0x07
  else if ¬ imm ∧ ¬ s.locked then 0x08
  else if ¬ imm ∧ at_ > s.time.tb0 + 2 * secTu then 0x09
  else 0

/-- The request of accepted fields, complete now (R163, R166…R168). -/
def swapMake (s : State) (ul : Bool) (l : Nat) (who : Requester) (port tag skein ply : Nat) (raised imm symbol : Bool)
    (at_ : Nat) : SwapReq :=
  let t := pathPeriod s.pwr.level
  let aim : Int := match symbol, layerCarrier s ul l with
    | true, some k => (symbolFrom k at_ : Nat)
    | _, _ => at_
  let plan := if imm then (immediateNow s * t, immediateNow s * t) else planStart s ul aim
  { who := who, port := port, tag := tag, source := skein, ply := ply, raised := raised
    aim := if imm then none else some aim, doneAt := s.time.tb0, aimAt := plan.1, start := plan.2
    onTime := imm || aimOnTime s ul aim }

/-- The bellwether relays an accepted request with its start ball time (R324, Table 12-5). -/
def relaySwap (ul : Bool) (l : Nat) (r : SwapReq) (s : State) : State :=
  let at_ := (ballTime ul false (pathPeriod s.pwr.level) r.start).toNat
  relayControl 0x02 r.tag
    (beBytes 1 (b2n ul * 128 + l) ++ beBytes 1 (b2n r.raised * 32 + r.ply) ++ beBytes 2 r.source ++ timeBe at_) s

/-- A CONTROL SWAP body on a member: the swap is taken under R170 at its start ball time (R324). -/
def controlSwap (tag : Nat) (b : List Byte) (s : State) : State :=
  let ul := nbit (byteAt b 0) 7
  let l := byteAt b 0 % 32
  let t := pathPeriod s.pwr.level
  let aim : Int := (timeOfBe b 4 : Nat)
  if (s.holder ul l).isNone then s
  else swapAccept ul l
    { who := .bellwether, tag := tag, source := be b 2 2, ply := byteAt b 1 % 16, raised := nbit (byteAt b 1) 5
      aim := some aim, doneAt := s.time.tb0, aimAt := startIndex ul false t aim 0 * t
      onTime := decide (immediateIndex t s.time.tb0 ≤ startIndex ul false t aim 0)
      start := max (startIndex ul false t aim 0) (immediateIndex t s.time.tb0) * t } s

/-- SKN_SWITCH_CTRL with GO (R163, R164, Table 6-10). -/
def sknSwitchWrite (w : Word) (s : State) : State :=
  if ¬ bitOf w 31 then s
  else
    let ul := bitOf w 30
    let imm := bitOf w 29
    let symbol := bitOf w 28
    let ply := fld w 26 23
    let l := fld w 20 16
    let skein := fld w 9 0
    let at_ := timeNear s.time.tb0 (s.reg Reg.SKN_SWITCH_TIME_S).toNat (s.reg Reg.SKN_SWITCH_TIME_NS).toNat
    let code := swapCode s ul l skein ply imm symbol .host at_
    if code ≠ 0 then s.setReg Reg.SKN_SWITCH_RESULT (put (put (s.reg Reg.SKN_SWITCH_RESULT) 31 30 2) 23 16 code)
    else
      let tag := (s.skn.tag + 1) % 65536
      let r := swapMake s ul l .host 0 tag skein ply (bitOf w 27) imm symbol at_
      let s := (s.modSkn (fun k => { k with tag := tag })).setReg Reg.SKN_SWITCH_RESULT (pk [(30, 1), (0, tag)])
      relaySwap ul l r (swapAccept ul l r s)

/-- SKN_SWITCH_CTRL_GO. -/
def execSknSwitchCtrlGo (w : Word) (s : State) : Host.Outcome State Fault Refusal :=
  .next (s.hosted Reg.SKN_SWITCH_CTRL (sknSwitchWrite w))

/-- The refusal code of a flock's SWAP_REQ body (Table 10-5); 0 when accepted. -/
def flockSwapCode (s : State) (k : Nat) (b : List Byte) : Nat :=
  swapCode s (nbit (byteAt b 0) 7) (byteAt b 0 % 32) (be b 2 2) (byteAt b 1 % 16) (nbit (byteAt b 1) 7) (nbit (byteAt b 1) 6)
    (.flock k) (timeNear s.time.tb0 (be b 4 4) (be b 8 4))

/-- A SWAP_REQ body of a flock: the report says ACCEPTED or REFUSED with the code. -/
def flockSwap (k port tag : Nat) (b : List Byte) (s : State) : State :=
  let ul := nbit (byteAt b 0) 7
  let l := byteAt b 0 % 32
  let imm := nbit (byteAt b 1) 7
  let symbol := nbit (byteAt b 1) 6
  let skein := be b 2 2
  let at_ := timeNear s.time.tb0 (be b 4 4) (be b 8 4)
  let ply := byteAt b 1 % 16
  let code := flockSwapCode s k b
  if code ≠ 0 then flockSwapReport k port tag 7 code ul l 0 0 0 s
  else
    let r := swapMake s ul l (.flock k) port tag skein ply (nbit (byteAt b 1) 5) imm symbol at_
    relaySwap ul l r (swapAccept ul l r (flockSwapReport k port tag 6 0 ul l 0 0 0 s))

/-! ### Starts and ends (R155, R169, R170) -/

/-- The offsets of each path's start sample from the zero-trim start, in samples: those of R167 for a request that starts on time, those
of the ply it waited for (R170), and none when it starts as an immediate request does. -/
def startOffs (s : State) (ul : Bool) (period : Nat) (r : SwapReq) : List Int :=
  match r.onTime, r.aim with
  | true, some aim =>
    (List.range 64).map (fun p => startIndex ul false period aim (trimOf s (!ul) p) - startIndex ul false period aim 0)
  | _, _ => r.behind

/-- The swap of a started request on the paths; a hard swap for which every path starts at one sample is over at once. -/
def swapRun (r : SwapReq) (offs : List Int) : Option PlyRun :=
  if r.ply = 0 ∧ offs.all (· == 0) then none
  else some { len := if r.ply = 0 then 0 else 2 ^ r.ply, raised := r.raised, start := r.start, offs := offs }

/-- The first path's start sample of a pending swap arrives, while no ply of the slot is running (R155, R169, R170). -/
def swapStart (ul : Bool) (l : Nat) (s : State) : State :=
  let x := s.slot ul l
  match x.pend, plyRuns x.ply with
  | some r, false =>
    let t := pathPeriod s.pwr.level
    let bank := loadBank s (skeinSnapshot s ul r.start) ul l r.source
    let late := ((r.start - r.aimAt) / (t : Int)).toNat
    let s := s.modSlot ul l (fun x => { x with
      a := if x.activeB then bank else x.a
      b := if x.activeB then x.b else bank
      activeB := !x.activeB
      ply := swapRun r (startOffs s ul t r)
      pend := none })
    let s := if r.onTime then s else s.raise Reg.SKN_INT_STATUS 2
    swapReport ul l r (if r.onTime then 1 else 2) (ballTime ul false t r.start) (min 0xFFFF late) 0 s
  | _, _ => s

/-- Some path's start sample of a request lies within a ply; the paths are compared by their own samples (R170). -/
def fallsWithin (t : Nat) (y : PlyRun) (r : SwapReq) (offs : List Int) : Bool :=
  (List.range 64).any (fun p =>
    decide (r.start + offs.getD p 0 * t < y.start + (y.len * t : Nat) + y.offs.getD p 0 * t))

/-- A request that waited for a ply starts at the first sample after it on every path, and is late (R170). -/
def waitFor (t : Nat) (y : PlyRun) (offs : List Int) (r : SwapReq) : SwapReq :=
  if fallsWithin t y r offs then { r with start := y.start + (y.len * t : Nat), onTime := false, behind := y.offs } else r

/-- A ply has ended on every path: the entered bank is active alone, and a request whose start sample fell within it starts now (R169,
R170). -/
def plyEnd (ul : Bool) (l : Nat) (s : State) : State :=
  match (s.slot ul l).ply with
  | none => s
  | some y =>
    let t := pathPeriod s.pwr.level
    s.modSlot ul l (fun x => { x with
      ply := none
      pend := x.pend.map (fun r => waitFor t y (startOffs s ul t r) r) })

/-- SKN_REPORT_POP (R173). -/
def execSknReportPop (s : State) : Host.Outcome State Fault Refusal :=
  .next (s.hosted Reg.SKN_REPORT_POP (fun s => s.modSkn (fun k => { k with reports := k.reports.drop 1 })))

/-- SKEIN_MEMORY_WRITE: host software writes an aligned word of skein memory (R153). -/
def execSkeinMemoryWrite (a : BitVec 22) (w : Word) (s : State) : Host.Outcome State Fault Refusal :=
  let addr := skeinDlBase + 4 * a.toNat
  .next (s.hosted addr (skeinWrite addr (leBytes 4 w.toNat)))

/-- A SKEIN_WRITE body of a flock, within its own partition (R154): the weights from path FIRST, most significant byte first. -/
def flockSkeinBytes (b : List Byte) : List Byte :=
  (List.range (byteAt b 5)).flatMap (fun i => (slice b (8 + 6 * i) 3).reverse ++ (slice b (11 + 6 * i) 3).reverse)

/-- Write a SKEIN_WRITE body into its skein, as one write (R155). -/
def skeinWriteBody (ul : Bool) (b : List Byte) (s : State) : State :=
  skeinWrite ((if ul then skeinUlBase else skeinDlBase) + 512 * be b 2 2 + 6 * byteAt b 4) (flockSkeinBytes b) s

/-- Reload the banks that weight a layer with the gain in force, each from its own pointer (R158). -/
def reloadBanks (l : Nat) (s : State) : State :=
  s.modSlot false l (fun x =>
    let again := fun (b : Bank) => loadBank s s.skn.dl false l b.ptr
    if plyRuns x.ply then { x with a := again x.a, b := again x.b }
    else if x.activeB then { x with b := again x.b } else { x with a := again x.a })

/-- Every skein and bank zeroed at a full commit, every pending request discarded (R91). -/
def sknCommit (s : State) : State :=
  let s := forAll (List.range 32) (fun l s => discardPend 4 true l (discardPend 4 false l s)) s
  s.modSkn (fun k => { k with
    dl := [], ul := [], recent := [], slotsDl := Vector.replicate 32 {}, slotsUl := Vector.replicate 32 {} })

/-! ### Registers computed from the state (R179) -/

/-- SKN_LAYER_DL, SKN_LAYER_UL. -/
def sknLayer (s : State) (ul : Bool) (l : Nat) : Word :=
  let x := s.slot ul l
  pk [(31, b2n x.holder.isSome), (30, b2n (plyRuns x.ply)), (29, b2n x.pend.isSome), (28, b2n x.activeB),
      (25, x.holder.getD 0), (10, x.b.ptr), (0, x.a.ptr)]

/-- Word `i` of the head report. -/
def sknReport (s : State) (i : Nat) : Word :=
  match s.skn.reports.head? with
  | none => 0
  | some r =>
    match i with
    | 0 => pk [(28, r.outcome), (27, b2n r.ul), (22, r.layer), (21, b2n r.flock.isSome), (16, r.flock.getD 0), (0, r.tag)]
    | 1 => BitVec.ofNat 32 (secOf r.start.toNat)
    | 2 => BitVec.ofNat 32 (nsOf r.start.toNat)
    | _ => pk [(16, r.late), (0, r.byTag)]

end Sys2Proof.Machine
end

