-- ==== Sys2Proof/Machine/Fft.lean ====
section
/-!
DEFINITION. The FFT engines (R174…R178, R180): the transform with its block exponent, the jobs and their queue, and the commands
of the FFT block.
-/

namespace Sys2Proof.Machine

/-! ### The transform (R175) -/

/-- A fixed-point number scaled by 2^96 as a Q1.23 coefficient, saturated at 1 − 2^−23. -/
def coefQ23 (x : Int) : Int := satS 24 (divEven x (2 ^ 73))

/-- A window coefficient (R175). The 4-term Blackman-Harris coefficients 0.35875, 0.48829, 0.14128 and 0.01168 are PRESUMED. -/
def windowCoef (w n i : Nat) : Int :=
  let c := fun k => cosPiFx ((2 * k * i % (2 * n) : Nat) : Int) n
  match w with
  | 1 => coefQ23 ((fxOne - c 1) / 2)
  | 2 => coefQ23 ((35875 * fxOne - 48829 * c 1 + 14128 * c 2 - 1168 * c 3) / 100000)
  | _ => Config.flatTop n i

/-- Apply a window to the input (R175). -/
def applyWindow (w : Nat) (xs : List Cplx) : List Cplx :=
  if w = 0 then xs
  else (List.range xs.length).zipWith (fun i (x : Cplx) =>
    let h := windowCoef w xs.length i
    (shrEven (x.1 * h) 23, shrEven (x.2 * h) 23)) xs

/-- The twiddle e^(∓j2πk/n), Q1.23; none stands for the exact 1 (R175). -/
def twiddle (inv : Bool) (n k : Nat) : Option Cplx :=
  let m := k % n
  if m = 0 then none
  else
    let re := cosPiFx (2 * m : Nat) n
    let im := cosPiFx ((2 * m : Nat) - ((n / 2 : Nat) : Int)) n
    some (coefQ23 re, coefQ23 (if inv then im else -im))

/-- An exact butterfly sum times a twiddle, scaled by 2^−s and rounded once (R175). -/
def twiddleOut (s : Nat) (t : Option Cplx) (x : Cplx) : Cplx :=
  match t with
  | none => (satS 24 (shrEven x.1 s), satS 24 (shrEven x.2 s))
  | some w =>
    let z := cmul w x
    (satS 24 (shrEven z.1 (23 + s)), satS 24 (shrEven z.2 (23 + s)))

/-- Multiply by −j forward, by j inverse. -/
def turn (inv : Bool) (x : Cplx) : Cplx := if inv then (-x.2, x.1) else (x.2, -x.1)

/-- Difference of complex values. -/
def csub (a b : Cplx) : Cplx := (a.1 - b.1, a.2 - b.2)

/-- A radix-4 stage on one block: four blocks of a quarter of its length (R175). -/
def radix4 (inv : Bool) (s : Nat) (xs : List Cplx) : List (List Cplx) :=
  let m := xs.length / 4
  let q := fun i => (xs.drop (i * m)).take m
  let ac := (q 0).zipWith cadd (q 2)
  let bd := (q 1).zipWith cadd (q 3)
  let am := (q 0).zipWith csub (q 2)
  let bm := ((q 1).zipWith csub (q 3)).map (turn inv)
  let out := fun (r : Nat) (ys : List Cplx) =>
    (List.range m).zipWith (fun k y => twiddleOut s (twiddle inv xs.length (r * k)) y) ys
  [out 0 (ac.zipWith cadd bd), out 1 (am.zipWith cadd bm), out 2 (ac.zipWith csub bd), out 3 (am.zipWith csub bm)]

/-- The closing radix-2 stage on one block of two points. -/
def radix2 (s : Nat) (xs : List Cplx) : List (List Cplx) :=
  match xs with
  | [a, b] => [[twiddleOut s none (cadd a b)], [twiddleOut s none (csub a b)]]
  | _ => [xs]

/-- The largest magnitude among the parts of a stage's input. -/
def blockMax (bs : List (List Cplx)) : Nat :=
  bs.foldl (fun m b => b.foldl (fun m x => max m (max x.1.natAbs x.2.natAbs)) m) 0

/-- The shift of a stage (Table 6-8). -/
def stageShift (four : Bool) (m : Nat) : Nat :=
  let base := if m < 2 ^ 20 then 0 else if m < 2 ^ 21 then 1 else if m < 2 ^ 22 then 2 else 3
  if four then base else base - 1

/-- Run the stages of some radices on the blocks: the blocks left and the exponent. -/
def runStages (inv : Bool) : List Bool → List (List Cplx) → List (List Cplx) × Nat
  | [], bs => (bs, 0)
  | four :: rest, bs =>
    let s := stageShift four (blockMax bs)
    let (out, e) := runStages inv rest (bs.flatMap (fun b => if four then radix4 inv s b else radix2 s b))
    (out, e + s)

/-- Interleave lists of one length. -/
def interleave (l : List (List Cplx)) : Nat → List Cplx
  | 0 => []
  | n + 1 => l.filterMap (·.head?) ++ interleave (l.map (·.drop 1)) n

/-- Put the outputs of the stages into natural order. -/
def naturalOrder : List Bool → List Cplx → List Cplx
  | [], l => l
  | four :: rest, l =>
    let r := if four then 4 else 2
    let m := l.length / r
    interleave ((List.range r).map (fun i => naturalOrder rest ((l.drop (i * m)).take m))) m

/-- The radices of a transform of 2^s points: radix-4 stages and one closing radix-2 stage when `s` is odd (R175). -/
def radices (s : Nat) : List Bool := List.replicate (s / 2) true ++ (if s % 2 = 1 then [false] else [])

/-- The transform of 2^s points with its window: outputs in natural order and EXP (R175). -/
def fft (s : Nat) (inv : Bool) (w : Nat) (xs : List Cplx) : List Cplx × Nat :=
  let (bs, e) := runStages inv (radices s) [applyWindow w xs]
  (naturalOrder (radices s) bs.flatten, e)

/-! ### Feeding the monitor chains (R192, R345, R346) -/

/-- The receiver feeds the monitor chain of its fold (R192): always without a pinned member; with one, while the receiver rests on it
or visits it. -/
def monFed (s : State) (f : Nat) : Bool :=
  match pinnedMember s f with
  | none => true
  | some m => (vget s.dpd.obs f).holder.isNone && (match visitMember s f with
    | some v => v == m
    | none => true)

/-- The samples that a monitor chain takes of those its receiver observes: zero samples while the receiver does not feed it (R192). -/
def monInput (s : State) (f : Nat) (xs : List Cplx) : List Cplx := if monFed s f then xs else xs.map (fun _ => (0, 0))

/-- The input samples until the outputs of a chain lose the gap flag, after `n` more: zero samples fed start the count anew (R192,
R348). -/
def monGap (s : State) (f n : Nat) : Nat := if monFed s f then (vget s.mon f).gap - n else monFill (monN s f)

/-- Feed a monitor chain with samples of its receiver (R192, R345, R346): its output samples, with μ, the gap count and saturations
moved on. -/
def monFeed (f : Nat) (obs : List Cplx) (s : State) : List Cplx × State :=
  let w := s.reg (Reg.ACQ_MON_CFG f)
  let m := vget s.mon f
  let xs := monInput s f obs
  let gap := monGap s f xs.length
  let r := dcBlock (bitOf w 23) (bitOf w 22) (fld w 27 24) m.muI m.muQ xs
  let o := Config.monitorFilter (monN s f) (s.reg (Reg.ACQ_MON_SHIFT f)) r.1
  let s := s.modMon f (fun m => { m with muI := r.2.1, muQ := r.2.2, gap := gap })
  let s := s.addReg (Reg.ACQ_MON_SAT f) o.2
  (o.1, if o.2 > 0 then s.raise Reg.ACQ_INT_STATUS 7 else s)

/-- ACQ_MON_STATUS[f]. -/
def monStatus (s : State) (f : Nat) : Word :=
  let m := vget s.mon f
  let w := s.reg (Reg.ACQ_MON_CFG f)
  pk [(31, b2n m.running), (30, b2n (decide (m.gap > 0))), (29, b2n (bitOf w 22)),
      (26, observed s f), (25, b2n (monInUse s f))]

/-! ### Jobs (R174, R176…R178) -/

/-- LOG2N of a job. -/
def jobLog (cfg : Word) : Nat := fld cfg 3 0
/-- SRC of a job. -/
def jobSrc (cfg : Word) : Nat := fld cfg 25 24
/-- DST of a job. -/
def jobDst (cfg : Word) : Nat := fld cfg 21 20

/-- A submission names capture memory (R178). -/
def namesDram (cfg : Word) : Bool := decide (jobSrc cfg ≤ 1)

/-- The pair is one of Table 6-7: a monitor chain goes to capture memory, capture memory anywhere, a skein to a skein. -/
def routeOk (cfg : Word) : Bool :=
  match jobSrc cfg with
  | 0 => jobDst cfg == 0
  | 1 => decide (jobDst cfg ≤ 2)
  | _ => jobDst cfg == 1 || jobDst cfg == 2

/-- The refusal code of a submission (Table 6-12); 0 when accepted. -/
def fftCode (s : State) (f : Nat) : Nat :=
  let cfg := s.reg (Reg.FFT_JOB_CFG f)
  let n := jobLog cfg
  let skein := decide (jobSrc cfg ≥ 2) || decide (jobDst cfg ≥ 1)
  if n < 6 ∨ n > 13 ∨ (skein ∧ n ≠ 6) then 0x01
  else if ¬ routeOk cfg then 0x02
  else if (vget s.fft f).queue.length ≥ 4 then 0x03
  else if namesDram cfg ∧ (¬ hasDrc s ∨ s.drc.state = .untrained ∨ s.drc.state = .failed) then 0x04
  else 0

/-- FFT_JOB_SUBMIT by a requester (R177). -/
def fftSubmit (f id : Nat) (s : State) : State :=
  let code := fftCode s f
  if code ≠ 0 then
    (s.setReg (Reg.FFT_STATUS f) (put (put (s.reg (Reg.FFT_STATUS f)) 27 26 2) 23 16 code)).raise Reg.FFT_INT_STATUS (8 + f)
  else
    let tag := ((vget s.fft f).tag + 1) % 65536
    let job : FftJob := { cfg := s.reg (Reg.FFT_JOB_CFG f), src := s.reg (Reg.FFT_JOB_SRC f), dst := s.reg (Reg.FFT_JOB_DST f)
                          tag := tag, id := id, epoch := s.fhp.epoch }
    (s.modFft f (fun e => { e with queue := e.queue ++ [job], tag := tag })).setReg (Reg.FFT_STATUS f) (pk [(26, 1), (0, tag)])

/-- FFT_JOB_SUBMIT. -/
def execFftJobSubmit (f : Fin 8 × Bool) (s : State) : Host.Outcome State Fault Refusal :=
  .next (s.asked f.2 (Reg.FFT_JOB_SUBMIT f.1) (fftSubmit f.1 (whoId f.2)))

/-- The engine's arbiter orders the submissions of the epoch that ends (R28, R177). -/
def fftEpoch (f : Nat) (s : State) : State :=
  let x := vget s.fft f
  let mine := x.queue.filter (fun j => j.epoch == s.fhp.epoch)
  let o := arbSeq FftJob.id 4 (arbPtr s (.fft f)) mine
  let s := s.modFhp (fun h => { h with ptrs := tset (fun _ => 0) h.ptrs (Resource.fft f).num o.2 })
  s.modFft f (fun x => { x with queue := x.queue.filter (fun j => j.epoch != s.fhp.epoch) ++ o.1 })

/-- A complex point of eight bytes in capture memory (R174). -/
def pointAt (bs : List Byte) (o : Nat) : Cplx := (toS 24 (le bs o 3), toS 24 (le bs (o + 4) 3))

/-- The eight bytes of a point. -/
def pointBytes (z : Cplx) : List Byte := leBytes 4 (ofS 32 z.1) ++ leBytes 4 (ofS 32 z.2)

/-- Write bytes to capture memory; bytes past its end and writes to a FAILED memory are discarded (R354). -/
def dramPut (a : Nat) (bs : List Byte) (s : State) : State :=
  if s.drc.state = .failed then s
  else dramStore a (bs.take (dramSize s - a)) (dramTouch a (min bs.length (dramSize s - a)) s)

/-- The input of a job that starts: `2^s` points of its source (Table 6-7); the monitor chain's are what it makes of the receiver
samples. -/
def jobInput (f : Nat) (j : FftJob) (samples : List Cplx) (s : State) : List Cplx × State :=
  let n := 2 ^ jobLog j.cfg
  match jobSrc j.cfg with
  | 0 =>
    let (ys, s) := monFeed f samples s
    (ys.take n ++ List.replicate (n - (ys.take n).length) (0, 0), s)
  | 1 =>
    let bs := dramBytes s (j.src.toNat * 8) (8 * n)
    ((List.range n).map (fun i => pointAt bs (8 * i)), dramTouch (j.src.toNat * 8) (8 * n) s)
  | 2 => (skeinWeights (skeinBytes s.skn.dl (fld j.src 9 0)), s)
  | _ => (skeinWeights (skeinBytes s.skn.ul (fld j.src 9 0)), s)

/-- The job's next access to capture memory waits with the memory: the read of its input when it starts, and the write of its output
when it is done (R178). -/
def jobWaits (s : State) (j : FftJob) (ending : Bool) : Bool :=
  dramWaits s && (if ending then jobSrc j.cfg == 0 else jobSrc j.cfg == 1)

/-- An idle engine can start a job: its epoch has ended (R26), the pause after the last job has passed (R404), and its input can be
read (R178). -/
def jobReady (s : State) (e : FftEngine) (j : FftJob) : Bool :=
  e.run.isNone && decide (j.epoch < s.fhp.epoch) && decide (e.rest ≤ s.time.tb1) && !jobWaits s j false

/-- FFT_JOB_START: an idle engine takes its next job; `samples` are the receiver samples that gather a monitor-chain input, the
first at TB3 time `first` (R174, R176). -/
def fftStart (f : Nat) (samples : List Cplx) (first : Nat) (s : State) : State :=
  let e := vget s.fft f
  match e.queue with
  | [] => s
  | j :: rest =>
    if ¬ jobReady s e j then s
    else
      let (xs, s) := jobInput f j samples s
      let j := { j with
        input := xs, first := if jobSrc j.cfg = 0 then first else 0
        dram := namesDram j.cfg && s.drc.state == .failed }
      s.modFft f (fun e => { e with queue := rest, run := some j, began := s.time.tb1 })

/-- FFT_JOB_START. -/
def execFftJobStart (f : Fin 8) (samples : List Cplx) (first : Nat) (s : State) : Host.Outcome State Fault Refusal :=
  .next (fftStart f samples first s)

/-- The trailer after the last output point in capture memory (R174). -/
def jobTrailer (j : FftJob) (e : Nat) : List Byte :=
  let t := fun (f : Nat → Nat) => if jobSrc j.cfg = 0 then leBytes 4 (f j.first) else leBytes 4 0
  leBytes 4 e ++ leBytes 4 j.tag ++ t secOf ++ t nsOf

/-- Write the outputs of a job to its destination. -/
def jobOutput (j : FftJob) (out : List Cplx) (e : Nat) (failed : Bool) (s : State) : State :=
  match jobDst j.cfg with
  | 0 =>
    let a := j.dst.toNat * 8
    if failed then s else dramPut a (out.flatMap pointBytes ++ jobTrailer j e) s
  | 1 => skeinWrite (skeinDlBase + 512 * fld j.dst 9 0) (out.flatMap cplxBytes) s
  | _ => skeinWrite (skeinUlBase + 512 * fld j.dst 9 0) (out.flatMap cplxBytes) s

/-- FFT_JOB_DONE: the outputs, the trailer, EXP and DONE (R175, R178). -/
def fftDone (f : Nat) (s : State) : State :=
  match (vget s.fft f).run with
  | none => s
  | some j =>
    if jobWaits s j true then s
    else
      let (out, e) := fft (jobLog j.cfg) (bitOf j.cfg 31) (fld j.cfg 30 28) j.input
      let failed := j.dram || (namesDram j.cfg && s.drc.state == .failed)
      let s := jobOutput j out e failed s
      let s := s.setReg (Reg.FFT_RESULT f) (pk [(16, j.tag), (15, b2n failed), (0, e)])
      let s := s.setReg (Reg.FFT_TIME_S f) (BitVec.ofNat 32 (secOf j.first))
      let s := s.setReg (Reg.FFT_TIME_NS f) (BitVec.ofNat 32 (nsOf j.first))
      (s.modFft f (fun x => { x with run := none, rest := restAfter s (s.time.tb1 - x.began) })).raise Reg.FFT_INT_STATUS f

/-- FFT_JOB_DONE. -/
def execFftJobDone (f : Fin 8) (s : State) : Host.Outcome State Fault Refusal := .next (fftDone f s)

/-- An engine has no job running or queued (R61). -/
def fftIdle (s : State) : Bool := s.fft.toList.all (fun e => e.run.isNone && e.queue.isEmpty)

/-- FFT_STATUS. -/
def fftStatus (s : State) (f : Nat) : Word :=
  let e := vget s.fft f
  put (put (s.reg (Reg.FFT_STATUS f)) 31 31 (b2n e.run.isSome)) 30 28 e.queue.length

end Sys2Proof.Machine
end

