-- ==== Sys2Proof/Machine/Dpd.lean ====
section
/-!
DEFINITION. Predistortion: pages, banks and swaps (R186…R189), the observation receivers' visits and grants (R190…R193), the
adaptation (R194…R198), the feeder survey (R199…R201), and the commands of the DPD block.
-/

namespace Sys2Proof.Machine

/-! ### Pages and banks (R181…R189) -/

/-- 1.0 in Q2.22. -/
def oneQ22 : Int := 4194304

/-- The identity coefficients: every LM_0 entry 1.0, every other entry 0 (R184). -/
def identityCoef : List Cplx := List.replicate 33 (oneQ22, 0) ++ List.replicate 363 (0, 0)

/-- The 396 entries of a bank. -/
def DBank.entries (b : DBank) : List Cplx := b.coef.getD identityCoef

/-- Offset of a page of a path in coefficient memory (Table 7-2). -/
def pageOff (p g : Nat) : Nat := p * 0x4000 + g * 0x2000

/-- The 396 entries of a page in a coefficient memory. -/
def pageEntries (m : Tab Byte) (p g : Nat) : List Cplx :=
  (List.range 12).flatMap (fun t =>
    let b := mread blank m (pageOff p g + 0x100 * t) 198
    (List.range 33).map (fun e => cplxLe b (6 * e)))

/-- The bytes of the tables of a page from its first entry up, `n` tables of 256 bytes each (R186). -/
def pageBytes : Nat → List Cplx → List Byte
  | 0, _ => []
  | n + 1, es => (es.take 33).flatMap cplxBytes ++ (List.replicate (256 - 6 * (es.take 33).length) 0 ++ pageBytes n (es.drop 33))

/-- Write all entries of a page, as one transaction (R188). -/
def writePage (p g : Nat) (es : List Cplx) (s : State) : State := coefWrite (coefBase + pageOff p g) (pageBytes 12 es) s

/-- The active bank of a predistorter. -/
def DpdPath.act (x : DpdPath) : DBank := if x.activeB then x.b else x.a

/-- A neighbour value as a path, with the default neighbours of R77; none outside the array or the fold. -/
def neighbour (s : State) (second : Bool) (p : Nat) : Option Nat :=
  let n := if second then (s.pathCfg p).nbrB else (s.pathCfg p).nbrA
  if n < 64 then some n
  else if n = 0xFF then none
  else if second then (if p % 8 = 7 then none else some (p + 1))
  else (if p % 8 = 0 then none else some (p - 1))

/-- The frequency of a role in kHz, rounded to nearest (R135). -/
def roleKhz (s : State) (r : Nat) : Nat :=
  let x := vget s.syn.roles r
  if x.used then divNear ((x.n * 2 ^ 24 + x.f) * 245760) (2 ^ 24 * 2 ^ x.div) else 0

/-- The predistortion records of a path that a TX LO may use, as (distance in kHz, record, body) (R189, R436). -/
def dpdRecordsNear (s : State) (p : Nat) : List (Nat × Nat × List Byte) :=
  let f := roleKhz s (s.loRole true p)
  (List.range 3).filterMap (fun r =>
    match dpdRec s p r with
    | some (_, b) =>
      let d := ((le b 0 4 : Int) - (f : Int)).natAbs
      if d ≤ 100000 then some (d, r, b) else none
    | none => none)

/-- The record with the nearest LO. -/
def nearestRecord (s : State) (p : Nat) : Option (List Byte) :=
  match dpdRecordsNear s p with
  | [] => none
  | x :: xs => some (xs.foldl (fun best y => if y.1 < best.1 then y else best) x).2.2

/-- The path leaves the solver and its queue. -/
def leaveSolver (p : Nat) (s : State) : State :=
  s.modDpd (fun d => { d with solver := if d.solver = some p then none else d.solver, queue := d.queue.erase p })

/-- Set both pages and banks of a path to identity, or page 0 and bank A from its record, with bank A active on page 0 (R189,
R436); an attempt in progress ends with what it was for. -/
def dpdInit (p : Nat) (s : State) : State :=
  let s := writePage p 1 identityCoef (writePage p 0 identityCoef s)
  let s := (leaveSolver p s).modDpdPath p (fun x => { x with
    a := {}, b := { page := 1 }, activeB := false, ply := none, pend := none, adapt := .idle, blocks := [] })
  match nearestRecord s p with
  | none => s
  | some b =>
    let es := (List.range 396).map (fun i => cplxLe b (12 + 198 * (i / 33) + 6 * (i % 33)))
    let s := writePage p 0 es s
    let s := s.modDpdPath p (fun x => { x with a := { page := 0, coef := some es } })
    (s.setFld (Reg.DPD_PATH_CFG p) 7 4 (byteAt b 6 / 16)).setFld (Reg.DPD_PATH_CFG p) 1 0 (byteAt b 6 % 4)

/-- Initialise every predistorter (R189). -/
def dpdInitAll (s : State) : State := forAll (List.range 64) dpdInit s

/-- At stage 3 entry every predistorter is initialised, and the periods of adaptation count from it (R189, R194). -/
def dpdStage3 (s : State) : State :=
  forAll (List.range 64) (fun p s => s.modDpdPath p (fun x => { x with
    dueFrom := s.time.tb1, solveAt := s.time.tb1, doneAt := s.time.tb1 })) (dpdInitAll s)

/-! ### The predistorter's arithmetic (R183, R184) -/

/-- The interpolated value of a table of 33 entries at a magnitude index (R183). -/
def tableAt (lut : List Cplx) (r : Nat) : Cplx :=
  let e := min (r / 2 ^ 18) 31
  let phi : Int := ((r - e * 2 ^ 18 : Nat) : Int)
  let lo := lut.getD e (0, 0)
  let hi := lut.getD (e + 1) (0, 0)
  let part := fun (a b : Int) => shrEven (a * (2 ^ 18 : Nat) + phi * (b - a)) 18
  (part lo.1 hi.1, part lo.2 hi.2)

/-- Table `t` of a coefficient set. -/
def tableOf (es : List Cplx) (t : Nat) : List Cplx := (es.drop (33 * t)).take 33

/-- The output of the predistorter for sample functions of the path and of its neighbours at lags from now (R181, R184): the
narrowed value, and whether it saturated. -/
def predistort (es : List Cplx) (m c : Nat) (x ua ub : Nat → Cplx) : Cplx × Bool :=
  let term := fun (t : Nat) (z : Cplx) (lag : Nat) => cmul (tableAt (tableOf es t) (magIndex (x lag))) z
  let main := (List.range 4).map (fun q => term q (x (q * m)) (q * m))
  let cross := (List.range 4).map (fun q => term (4 + q) (x (q * m)) (q * m + c))
  let nb := fun (t : Nat) (u : Nat → Cplx) => (List.range 2).map (fun j => term (t + j) (u (j * m)) (j * m))
  let a := (main ++ cross ++ nb 8 ua ++ nb 10 ub).foldl cadd (0, 0)
  narrowSum 0 (a.1 * 2, a.2 * 2)

/-- The inactive bank of a predistorter. -/
def DpdPath.inact (x : DpdPath) : DBank := if x.activeB then x.a else x.b

/-- The coefficients in force at a port time, for a predistorter sample period (R172, R187): during a ply every entry of every table is
interpolated under R169. -/
def coefAt (x : DpdPath) (t : Nat) (port : Int) : List Cplx :=
  match x.ply with
  | none => x.act.entries
  | some y =>
    let i := y.index t 0 port
    if i < 0 then x.inact.entries
    else if i < y.len then x.inact.entries.zipWith (plyWeight y.raised y.len i.toNat) x.act.entries
    else x.act.entries

/-- Memory spacing M of a path, in predistorter samples. -/
def pathM (s : State) (p : Nat) : Nat := s.fld (Reg.DPD_PATH_CFG p) 1 0 + 1
/-- Cross lag C of a path, in predistorter samples. -/
def pathC (s : State) (p : Nat) : Nat := clampN 1 8 (s.fld (Reg.DPD_PATH_CFG p) 7 4)

/-! ### Attempts (R194…R198) -/

/-- An attempt in progress ends with 0x0D SUPERSEDED or 0x0E ABORTED, the coefficients in force left as they are (R198). -/
def attemptEnd (p code : Nat) (s : State) : State :=
  if (dpdOf s p).adapt = .idle then s
  else attemptLog p 1 code (attemptStatus p 2 code (leaveSolver p (s.modDpdPath p (fun x => { x with adapt := .idle, blocks := [] }))))

/-- End every attempt that satisfies a test with ABORTED (R198). -/
def abortAttempts (f : Nat → Bool) (s : State) : State := forAll ((List.range 64).filter f) (fun p => attemptEnd p 0x0E) s

/-- The path's predistorter is in the warp. -/
def dpdEnabled (s : State) (p : Nat) : Bool := (s.pathCfg p).dpdEn

/-! ### Swaps (R187) -/

/-- Half a path sample period: the period of a predistorter sample. -/
def halfPeriod (s : State) : Nat := pathPeriod s.pwr.level / 2

/-- An accepted request takes the path's room (R170, R171): a host request over the solver's ends its attempt (R198). -/
def dpdAccept (p : Nat) (r : SwapReq) (s : State) : State :=
  let past := fun (s : State) => attemptEnd p 0x0D ((s.addLo Reg.DPD_SUPERSEDED 1).raise Reg.DPD_INT_STATUS 7)
  let take := s.modDpdPath p (fun x => { x with pend := some r })
  match (dpdOf s p).pend with
  | none => take
  | some old =>
    if hostLater (halfPeriod s) old r then past s
    else if r.who == .host && old.who == .solver then past take
    else take.raise Reg.DPD_INT_STATUS 7

/-- The request of a page, aimed at a ball time or immediate (R187): the start sample is the one of R167 for the trim in force on the
path's chain, unless the request is late (R168). -/
def dpdMake (s : State) (p : Nat) (who : Requester) (tag page ply : Nat) (raised : Bool) (aim : Option Int) : SwapReq :=
  let t := halfPeriod s
  let now := immediateIndex t s.time.tb0
  let want := match aim with
    | none => now
    | some a => startIndex false true t a (trimOf s true p)
  let onTime := aim.isNone || decide (((s.time.tb0 + 87 * nsTu : Nat) : Int) ≤ want * t)
  { who := who, tag := tag, source := page, ply := ply, raised := raised, aim := aim, doneAt := s.time.tb0
    aimAt := want * t, start := (if onTime then want else now) * t, onTime := onTime }

/-- The aim of a request at the path's next group boundary (R104, R187). -/
def boundaryAim (s : State) (p : Nat) : Int :=
  let g := s.groupOf p
  if s.locked then (boundaryAfter s g s.time.tb0 : Nat)
  else (boundaryAfter s g s.time.tb1 : Nat) + ((s.time.tb0 : Int) - (s.time.tb1 : Int))

/-- DPD_SWITCH_CTRL with GO (R187, Table 7-7). -/
def dpdSwitchWrite (w : Word) (s : State) : State :=
  if ¬ bitOf w 31 then s
  else
    let p := fld w 21 16
    let ply := fld w 26 23
    let code :=
      if s.wrp.active.isNone then 0x01
      else if s.pwr.level = 3 then 0x02
      else if ¬ dpdEnabled s p then 0x03
      else if ply = 1 ∨ ply > 8 then 0x07
      else 0
    if code ≠ 0 then s.setReg Reg.DPD_SWITCH_RESULT (put (put (s.reg Reg.DPD_SWITCH_RESULT) 31 30 2) 23 16 code)
    else
      let tag := (s.dpd.tag + 1) % 65536
      let aim := if bitOf w 29 then none else some (boundaryAim s p)
      dpdAccept p (dpdMake s p .host tag (fld w 0 0) ply (bitOf w 27) aim)
        ((s.modDpd (fun d => { d with tag := tag })).setReg Reg.DPD_SWITCH_RESULT (pk [(30, 1), (0, tag)]))

/-- DPD_SWITCH_CTRL_GO (R187). -/
def execDpdSwitchCtrlGo (w : Word) (s : State) : Host.Outcome State Fault Refusal :=
  .next (s.hosted Reg.DPD_SWITCH_CTRL (dpdSwitchWrite w))

/-- DPD_CFG.PLY as the solver uses it: 0, 2…8, other values 8. -/
def dpdPly (cfg : Word) : Nat :=
  let n := fld cfg 3 0
  if n = 1 ∨ n > 8 then 8 else n

/-- The solver requests a swap to a page at the next group boundary, with the PLY and PROFILE that its attempt took (R197, R202). -/
def solverSwap (p page : Nat) (s : State) : State :=
  let cfg := (dpdOf s p).cfg
  dpdAccept p (dpdMake s p .solver 0 page (dpdPly cfg) (bitOf cfg 8) (some (boundaryAim s p))) s

/-- The swap of a path's attempt is over: its verification block is due (R197). -/
def verifyDue (p : Nat) (s : State) : State :=
  s.modDpdPath p (fun x => if x.adapt = .swapping then { x with adapt := .verifying 0 } else x)

/-- The ball time of a port time of a path's predistorter, with the trim in force (R165, R187). -/
def dpdBall (s : State) (p : Nat) (port : Int) : Nat :=
  ((125 * ballTime false true (halfPeriod s) port + trim125 (trimOf s true p)) / 125).toNat

/-- A pending predistortion swap reaches its start sample (R187): the page's snapshot becomes the active bank. A host swap that
starts during a verification ends it (R198). -/
def dpdSwapStart (p : Nat) (s : State) : State :=
  let x := dpdOf s p
  match x.pend, plyRuns x.ply with
  | some r, false =>
    let m := snapshotMem coefByte false ((s.time.tb1 : Int) - ((s.time.tb0 : Int) - (r.start - (64 * nsTu : Nat))))
      s.dpd.recent s.dpd.coef
    let bank : DBank := { page := r.source, coef := some (pageEntries m p r.source) }
    let s := if r.who = .host then
        (match x.adapt with
          | .verifying _ => attemptEnd p 0x0D s
          | _ => s)
      else s
    let s := s.modDpdPath p (fun x => { x with
      a := if x.activeB then bank else x.a
      b := if x.activeB then x.b else bank
      activeB := !x.activeB
      ply := swapRun r []
      pend := none })
    let at_ := dpdBall s p r.start
    let s := (s.setReg (Reg.DPD_LAST_S p) (BitVec.ofNat 32 (secOf at_))).setReg (Reg.DPD_LAST_NS p) (BitVec.ofNat 32 (nsOf at_))
    if r.who = .solver ∧ r.ply = 0 then verifyDue p s else s
  | _, _ => s

/-- The ply of a predistorter ends (R169, R170, R197). -/
def dpdPlyEnd (p : Nat) (s : State) : State :=
  match (dpdOf s p).ply with
  | none => s
  | some y =>
    let solver : Bool := match (dpdOf s p).pend with
      | some r => r.who == .solver
      | none => false
    let s := s.modDpdPath p (fun x => { x with
      ply := none
      pend := x.pend.map (waitFor (halfPeriod s) y []) })
    if solver then s else verifyDue p s

/-- SWAP_START of a layer slot or of a predistorter (R170, R172, R187). -/
def execSwapStart (b : BankedSet) (s : State) : Host.Outcome State Fault Refusal :=
  match b with
  | .layer ul l => .next (swapStart ul l s)
  | .path p => .next (dpdSwapStart p s)

/-- PLY_END of a layer slot or of a predistorter (R169). -/
def execPlyEnd (b : BankedSet) (s : State) : Host.Outcome State Fault Refusal :=
  match b with
  | .layer ul l => .next (plyEnd ul l s)
  | .path p => .next (dpdPlyEnd p s)

/-! ### Host settings (R185, R188) -/

/-- The stored form of a DPD_PATH_CFG word: C in 1…8. -/
def pathCfgForm (w : Word) : Word :=
  pk [(31, fld w 31 31), (4, clampN 1 8 (fld w 7 4)), (0, fld w 1 0)]

/-- Clear ADAPT: the attempt ends ABORTED and a solver swap that has not started is discarded (R188). -/
def adaptOff (p : Nat) (s : State) : State :=
  (attemptEnd p 0x0E s).modDpdPath p (fun x => { x with pend := x.pend.filter (fun r => r.who != .solver) })

/-- DPD_PATH_CFG_WRITE (R185, R188). -/
def dpdPathCfgWrite (p : Nat) (w : Word) (s : State) : State :=
  let a := Reg.DPD_PATH_CFG p
  let new := pathCfgForm w
  let moves := decide (fld new 7 0 ≠ s.fld a 7 0)
  let s := if adaptOn s p ∧ ¬ bitOf w 31 then adaptOff p s else s
  if moves ∧ txLive s p then (s.setFld a 31 31 (fld w 31 31)).refusedWrite a else s.setReg a new

/-- DPD_PATH_CFG_WRITE. -/
def execDpdPathCfgWrite (p : Fin 64) (w : Word) (s : State) : Host.Outcome State Fault Refusal :=
  .next (s.hosted (Reg.DPD_PATH_CFG p) (dpdPathCfgWrite p w))

/-- DPD_COEFF_MEMORY_WRITE: an aligned word of coefficient memory (R186, R188). -/
def execDpdCoeffMemoryWrite (a : BitVec 18) (w : Word) (s : State) : Host.Outcome State Fault Refusal :=
  let addr := coefBase + 4 * a.toNat
  .next (s.hosted addr (coefHostWrite addr w))

/-! ### Visits, grants and solves (R190…R197) -/

/-- DPD_PERIOD of a path in time units, 10…200 ms. -/
def dpdPeriod (s : State) (p : Nat) : Nat := clampN 10 200 (s.fld (Reg.DPD_PERIOD p) 7 0) * msTu

/-- DPD_PATH_DUE: the period has passed and the path starts collecting blocks, with the settings of DPD_CFG at this time (R194,
R202). -/
def pathDue (p : Nat) (s : State) : State :=
  if dpdEnabled s p ∧ adaptOn s p ∧ s.pwr.level ≠ 3 ∧ s.pwr.stage ≥ 3 ∧ (dpdOf s p).adapt = .idle ∧
      (dpdOf s p).dueFrom + dpdPeriod s p ≤ s.time.tb1 then
    s.modDpdPath p (fun x => { x with
      adapt := .collecting 0 0, due := s.time.tb1, cfg := s.reg Reg.DPD_CFG, blocks := [] })
  else s

/-- DPD_PATH_DUE (R194). -/
def execDpdPathDue (p : Fin 64) (s : State) : Host.Outcome State Fault Refusal := .next (pathDue p s)

/-- The samples of a block: 8,192, or 4,096 with BLEN (R191). -/
def blockLen (cfg : Word) : Nat := if bitOf cfg 11 then 4096 else 8192

/-- A block cut to its length. -/
def blockOf (cfg : Word) (k : ObsBlock) : ObsBlock :=
  let n := blockLen cfg
  { k with x := k.x.take n, y := k.y.take n, v := k.v.take n, ua := k.ua.take n, ub := k.ub.take n }

/-- The squared magnitude of a value. -/
def normSq (z : Cplx) : Nat := (z.1 * z.1 + z.2 * z.2).toNat

/-- The energy of samples. -/
def energy (l : List Cplx) : Nat := l.foldl (fun a z => a + normSq z) 0

/-- The correlation of two signals, the first conjugated. -/
def correlate (a b : List Cplx) : Cplx := (a.zipWith (fun x y => cmul (x.1, -x.2) y) b).foldl cadd (0, 0)

/-- RMS of `x` over the block lies below −30 dBFS (Table 7-3). -/
def lowLevel (x : List Cplx) : Bool := decide (energy x * 1000 < x.length * 2 ^ 46)

/-- A sample at a clipping code of an observation ADC: codes stand in [23:10] (R329). -/
def obsClipped (z : Cplx) : Bool :=
  let clip := fun (c : Int) => decide (c ≥ 8191 * 1024) || decide (c ≤ -8192 * 1024)
  clip z.1 || clip z.2

/-- The observed signal of a block, aligned to `y` (R196). -/
def alignedObs (k : ObsBlock) : List Cplx := Config.obsAlign k.y k.v

/-- The normalised correlation peak between `x` and the observed signal lies below 0.9 (Table 7-3). -/
def notAligned (k : ObsBlock) : Bool :=
  let v := alignedObs k
  decide (100 * normSq (correlate k.x v) < 81 * energy k.x * energy v)

/-- The first precondition of Table 7-3 that a block fails; 0 when it passes. LO_INVALID is the code of a block that R193 discards. -/
def blockCode (s : State) (p : Nat) (k : ObsBlock) : Nat :=
  if ¬ k.live ∨ ¬ txLive s p then 1
  else if lowLevel k.x then 2
  else if (k.v.filter obsClipped).length > 4 then 3
  else if notAligned k then 4
  else 0

/-- The gain estimate of a block as a fraction (R196): least squares over the samples whose |x| lies below the block RMS. -/
def gainOf (k : ObsBlock) : Cplx × Nat :=
  let e := energy k.x
  let low := (k.x.zip (alignedObs k)).filter (fun q => decide (normSq q.1 * k.x.length < e))
  (correlate (low.map (·.1)) (low.map (·.2)), energy (low.map (·.1)))

/-- NMSE of a block in 0.01 dB (R197): 10·log10(Σ|v/G − x|² / Σ|x|²). -/
def blockNmse (k : ObsBlock) : Int :=
  let g := gainOf k
  let n := normSq g.1
  if n = 0 ∨ energy k.x = 0 then Config.openNmse k
  else
    let err := (k.x.zip (alignedObs k)).map (fun q =>
      let z := cmul (g.1.1, -g.1.2) q.2
      csub (z.1 * g.2, z.2 * g.2) (q.1.1 * n, q.1.2 * n))
    clampI (-32768) 32767 (centiBelRatio (energy err) (n * n * energy k.x))

/-- BLOCKS of an attempt, 1…8. -/
def blocksPerSolve (cfg : Word) : Nat := clampN 1 8 (fld cfg 15 12)

/-- Enter a path in the solver queue, in order of due time, ties to the lower path (R194). -/
def enqueueSolve (p : Nat) (s : State) : State :=
  let before := fun q => decide ((dpdOf s q).due < (dpdOf s p).due) || (decide ((dpdOf s q).due = (dpdOf s p).due) && decide (q < p))
  s.modDpd (fun d => { d with queue := d.queue.filter before ++ [p] ++ d.queue.filter (fun q => !before q) })

/-- The page a solve writes: the one the active bank does not hold (R197). -/
def targetPage (s : State) (p : Nat) : Nat := 1 - (dpdOf s p).act.page

/-- The verification block has passed its preconditions: UPDATED, or REVERTED when it is worse by more than DEGRADE × 0.25 dB
(R197). -/
def verdict (p : Nat) (new : Int) (s : State) : State :=
  let old := (dpdOf s p).lastNmse
  let s := s.modDpdPath p (fun x => { x with adapt := .idle, blocks := [] })
  if new - old > 25 * (fld (dpdOf s p).cfg 27 24 : Nat) then
    let s := attemptLog p 2 0x0C ((attemptStatus p 3 0x0C s).raise Reg.DPD_INT_STATUS 2)
    solverSwap p (targetPage s p) s
  else
    let s := s.modDpdPath p (fun x => { x with fresh := true })
    ((attemptStatus p 1 0 s).setReg (Reg.DPD_NMSE p) (pk [(16, ofS 16 old), (0, ofS 16 new)])).raise Reg.DPD_INT_STATUS 0

/-- The mean power of samples in 0.01 dBFS (R101). -/
def meanPower (l : List Cplx) : Int := centiBelRatio (energy l) (l.length * 2 ^ 46)

/-- The external gain that a block measures in 0.01 dB, TXO to coupler (R225): what the observation receiver sees, with its full scale of
−10 dBm at attenuation 0, over what the chain sends, with +8 dBm at 0 dBFS and attenuation 0. -/
def blockGain (s : State) (p : Nat) (k : ObsBlock) : Int :=
  (meanPower k.v - 1000 + 100 * (min 30 (s.fld (Reg.DPD_OBS_CFG (p / 8)) 4 0) : Nat)) -
    (meanPower k.y + 800 - 25 * (appliedTx s p : Nat))

/-- The drover writes the external gain that a block measured (R225; DEDUCED, log entry 55). -/
def noteGain (p : Nat) (k : ObsBlock) (s : State) : State :=
  s.setReg (Reg.RAD_GEXT p) (pk [(31, 1), (0, ofS 16 (clampI (-32768) 32767 (blockGain s p k)))])

/-- A block of a path is judged (R195, R197): one that passes counts for the solve or decides the verification, and one that fails is
discarded. -/
def judgeBlock (p : Nat) (k : ObsBlock) (s : State) : State :=
  let k := blockOf (dpdOf s p).cfg k
  let code := blockCode s p k
  match (dpdOf s p).adapt with
  | .collecting good _ =>
    if code ≠ 0 then discardBlock p code s
    else
      let s := (noteGain p k s).modDpdPath p (fun x => { x with lastNmse := blockNmse k, blocks := x.blocks ++ [k] })
      if good + 1 ≥ blocksPerSolve (dpdOf s p).cfg then enqueueSolve p (s.modDpdPath p (fun x => { x with adapt := .queued }))
      else s.modDpdPath p (fun x => { x with adapt := .collecting (good + 1) 0 })
  | .verifying _ => if code ≠ 0 then discardBlock p code s else verdict p (blockNmse k) (noteGain p k s)
  | _ => s

/-- OBS_VISIT_DONE: the visit of member `m` in progress ends with its block (R190, R191); none is in progress while a holder has the receiver, and none
while the fold's TX LO role is not valid (R193). -/
def obsVisit (o m : Nat) (k : ObsBlock) (s : State) : State :=
  if visitMember s o = some m then judgeBlock (8 * o + m) k (s.modObs o (fun x => { x with last := m })) else s

/-- OBS_VISIT_DONE (R191). -/
def execObsVisitDone (o m : Fin 8) (k : ObsBlock) (s : State) : Host.Outcome State Fault Refusal := .next (obsVisit o m k s)

/-- SOLVE_START: the solver, its pause after the last solve over (R404), takes the next path of its queue (R194). -/
def solveStart (s : State) : State :=
  match s.dpd.solver, s.dpd.queue with
  | none, p :: rest =>
    if s.time.tb1 < s.dpd.rest then s
    else
      let ms := (s.time.tb1 - (dpdOf s p).solveAt) / msTu
      let s := s.modDpd (fun d => { d with solver := some p, queue := rest })
      let s := s.setFld (Reg.DPD_STATUS p) 15 0 (min 0xFFFF ms)
      s.modDpdPath p (fun x => { x with adapt := .solving, solveAt := s.time.tb1, dueFrom := s.time.tb1 })
  | _, _ => s

/-- SOLVE_START (R194). -/
def execSolveStart (s : State) : Host.Outcome State Fault Refusal := .next (solveStart s)

/-- New coefficients: the old ones moved by 2^−MU of the way to the solution, entry by entry (R196). -/
def newCoef (mu : Nat) (old sol : List Cplx) : List Cplx :=
  old.zipWith (fun (o c : Cplx) => (o.1 + shrEven (c.1 - o.1) mu, o.2 + shrEven (c.2 - o.2) mu)) sol

/-- The solution with the tables of absent neighbours left at the old coefficients (R196). -/
def keepAbsent (s : State) (p : Nat) (old sol : List Cplx) : List Cplx :=
  (List.range 396).map (fun i =>
    let t := i / 33
    let absent := (t ≥ 8 ∧ t < 10 ∧ (neighbour s false p).isNone) ∨ (t ≥ 10 ∧ (neighbour s true p).isNone)
    if absent then old.getD i (0, 0) else sol.getD i (old.getD i (0, 0)))

/-- LM_0 entry 0 departs from 1.0 by more than ±3 dB or ±30° (Table 7-4). -/
def gainOff (z : Cplx) : Bool :=
  let m := z.1 * z.1 + z.2 * z.2
  let one := oneQ22 * oneQ22
  decide (m * fxOne > one * pow10Fx 3 10) || decide (m * pow10Fx 3 10 < one * fxOne) || decide (z.1 ≤ 0) ||
    decide (3 * (z.2 * z.2) > z.1 * z.1)

/-- The first check of Table 7-4 that new coefficients fail; 0 when they pass. -/
def solutionCode (ill : Bool) (c : List Cplx) : Nat :=
  if ill then 0x08
  else if c.any (fun z => overS 24 z.1 || overS 24 z.2) then 0x09
  else if gainOff (c.getD 0 (0, 0)) then 0x0A
  else if (c.drop 264).any (fun z => decide (z.1 * z.1 + z.2 * z.2 > (2 ^ 42 : Nat))) then 0x0B
  else 0

/-- The block as the solver takes it: with the observed signal aligned, and with the gain by which its rows divide it (R196). -/
def solveRows (k : ObsBlock) : ObsBlock × Cplx × Nat :=
  let g := gainOf k
  ({ k with v := alignedObs k }, g.1, g.2)

/-- What the solver finds for a path (R196): the minimiser for the rows of its blocks, with LAMBDA, the spacings, the neighbours present
and the coefficients of the active bank; and the least and the greatest diagonal magnitude of the triangular factor. -/
def solution (s : State) (p : Nat) : List Cplx × Nat × Nat :=
  let x := dpdOf s p
  Config.leastSquares (x.blocks.map solveRows) (pathM s p) (pathC s p) (neighbour s false p).isSome (neighbour s true p).isSome
    (fld x.cfg 23 20) x.act.entries

/-- SOLVE_DONE: the solver has its solution for path `p`, after `took` units of TB1; the new coefficients are checked, and a passing solution is written and its swap requested
(R196, R197). -/
def solveDone (p took : Nat) (s : State) : State :=
  if s.dpd.solver ≠ some p then s
  else
    let x := dpdOf s p
    let z := solution s p
    let c := newCoef (fld x.cfg 19 18) x.act.entries (keepAbsent s p x.act.entries z.1)
    let s := s.modDpd (fun d => { d with
      solver := none, solves := s.time.tb1 :: d.solves.filter (fun t => decide (s.time.tb1 < t + secTu))
      rest := restAfter s took })
    let s := (s.setFld (Reg.DPD_STATUS p) 29 29 0).modDpdPath p (fun x => { x with doneAt := s.time.tb1 })
    let code := solutionCode (decide (z.2.1 * 2 ^ 20 < z.2.2)) c
    if code ≠ 0 then attemptReject p code s
    else
      let g := targetPage s p
      solverSwap p g ((writePage p g c s).modDpdPath p (fun x => { x with adapt := .swapping }))

/-- SOLVE_DONE (R196). -/
def execSolveDone (p : Fin 64) (took : Nat) (s : State) : Host.Outcome State Fault Refusal := .next (solveDone p took s)

/-- DPD_VERIFICATION_DONE: the visit in progress ends with the verification block of its member (R197). -/
def verificationDone (p : Nat) (k : ObsBlock) (s : State) : State :=
  match (dpdOf s p).adapt with
  | .verifying _ => obsVisit (p / 8) (p % 8) k s
  | _ => s

/-- DPD_VERIFICATION_DONE (R197). -/
def execDpdVerificationDone (p : Fin 64) (k : ObsBlock) (s : State) : Host.Outcome State Fault Refusal :=
  .next (verificationDone p k s)

/-- DPD_STALE: no solve completed within twice the period (R194). -/
def dpdStale (p : Nat) (s : State) : State :=
  if dpdEnabled s p ∧ adaptOn s p ∧ (dpdOf s p).doneAt + 2 * dpdPeriod s p ≤ s.time.tb1 then
    (s.setFld (Reg.DPD_STATUS p) 29 29 1).raise Reg.DPD_INT_STATUS 3
  else s

/-- DPD_STALE (R194). -/
def execDpdStale (p : Fin 64) (s : State) : Host.Outcome State Fault Refusal := .next (dpdStale p s)

/-! ### Feeder survey (R199…R201) -/

/-- START in MHz. -/
def Survey.start (v : Survey) : Nat := fld v.band 15 0
/-- STOP in MHz. -/
def Survey.stop (v : Survey) : Nat := fld v.band 31 16
/-- The base-2 logarithm of the number of points. -/
def Survey.log (v : Survey) : Nat := 8 + fld v.cfg 21 20
/-- The number of points. -/
def Survey.points (v : Survey) : Nat := 2 ^ v.log

/-- Some group fed by a role is not OFF, or has a burst scheduled within 0.6 s (R199). -/
def roleBusy (s : State) (r : Nat) : Bool :=
  (roleGroups s r).any (fun g =>
    let x := vget s.rad.groups g
    x.state != .off || x.trans.isSome || x.bursts.any (fun b => decide (b.start ≤ s.time.tb0 + 600 * msTu)))

/-- The first condition of R199, up to PATHS_ACTIVE, that refuses a survey; 0 when none does. -/
def surveyCode (s : State) (v : Survey) : Nat :=
  if s.wrp.active.isNone then 0x01
  else if s.pwr.stage < 4 then 0x07
  else if v.stop ≤ v.start ∨ v.start < 600 ∨ v.stop > 7200 then 0x04
  else if ¬ (s.pathCfg v.path).txEn ∨ (pathOf s v.path).txFault ≠ 0 then 0x05
  else if roleBusy s v.role then 0x02
  else 0

/-- Show the outcome of a survey. -/
def surveyStatus (outcome code p skipped : Nat) (s : State) : State :=
  s.setReg Reg.DPD_SURVEY_STATUS (pk [(30, outcome), (16, code), (8, p), (0, min 255 skipped)])

/-- A survey is refused or aborted with a code (R199, R200). -/
def surveyRefuse (code p : Nat) (s : State) : State := (surveyStatus 2 code p 0 s).raise Reg.DPD_INT_STATUS 6

/-- The survey that the registers and a path ask for. -/
def surveyOf (s : State) (p : Nat) : Survey :=
  { path := p, role := s.loRole true p, band := s.reg Reg.DPD_SURVEY_BAND, cfg := s.reg Reg.DPD_SURVEY_CFG }

/-- DPD_SURVEY_CTRL with GO (R199): an accepted survey waits for its receiver. -/
def surveyGo (w : Word) (s : State) : State :=
  if ¬ bitOf w 31 then s
  else
    let v := surveyOf s (fld w 5 0)
    let code := surveyCode s v
    if code ≠ 0 then surveyRefuse code v.path s
    else
      let s := obsRequest (v.path / 8) 8 (.survey v.path) s
      surveyStatus 3 0 v.path 0 (s.modDpd (fun d => { d with surveys := d.surveys ++ [v] }))

/-- DPD_SURVEY_CTRL_GO (R199). -/
def execDpdSurveyCtrlGo (w : Word) (s : State) : Host.Outcome State Fault Refusal :=
  .next (s.hosted Reg.DPD_SURVEY_CTRL (surveyGo w))

/-- The first survey of a path. -/
def surveyFor (s : State) (p : Nat) : Option Survey := s.dpd.surveys.find? (fun v => v.path == p)

/-- The receiver is granted to the survey of a path: the role is retuned and invalid throughout (R200). -/
def surveyGranted (p : Nat) (s : State) : State :=
  match surveyFor s p with
  | none => s
  | some v =>
    watchRoles (·.modRole v.role (fun r => { r with survey := true }))
      (s.modDpd (fun d => { d with surveys := { v with granted := true } :: d.surveys.erase v }))

/-- A survey lets its receiver and its role go; the role is retuned and recalibrated (R200). -/
def surveyRelease (v : Survey) (s : State) : State :=
  let o := v.path / 8
  let s := s.modDpd (fun d => { d with surveys := d.surveys.erase v })
  if v.granted then
    ((obsRelease o (.survey v.path) s).modRole v.role (fun r => { r with survey := false })).modUnit (vget s.syn.roles v.role).unit
      (fun u => { u with locked := false, cal := true })
  else obsWithdraw o (.survey v.path) s

/-- The surveys that satisfy a test are aborted (R200). -/
def surveyAbortIf (f : Survey → Bool) (s : State) : State :=
  forAll (s.dpd.surveys.filter f) (fun v s => surveyRefuse 0x06 v.path (surveyRelease v s)) s

/-- Every survey is aborted (R200). -/
def surveyAbort (s : State) : State := surveyAbortIf (fun _ => true) s

/-- SURVEY_ABORT (R200). -/
def execSurveyAbort (s : State) : Host.Outcome State Fault Refusal := .next (surveyAbort s)

/-- The queue limit of a survey's request passes, or its queue is full: OBS_BUSY (R29, R199). -/
def surveyBusy (p : Nat) (s : State) : State :=
  match surveyFor s p with
  | some v => surveyRefuse 0x03 p (surveyRelease v s)
  | none => s

/-- The frequency of step `i` in kHz times POINTS − 1, which is a whole number. -/
def Survey.scaled (v : Survey) (i : Nat) : Nat := v.start * 1000 * (v.points - 1) + i * (v.stop - v.start) * 1000

/-- A step lies between two frequencies in kHz. -/
def Survey.inside (v : Survey) (i : Nat) (lo hi : Int) : Bool :=
  decide (lo * (v.points - 1 : Nat) ≤ v.scaled i) && decide ((v.scaled i : Int) ≤ hi * (v.points - 1 : Nat))

/-- A step is skipped: it lies outside every range of the pasture record and SURVEY_ALLOW is 0 (R200, R229). -/
def stepSkipped (s : State) (v : Survey) (i : Nat) : Bool :=
  match s.rad.pasture with
  | none => true
  | some r => !r.surveyAllow && !r.ranges.any (fun x => v.inside i x.1 x.2)

/-- The distance in mm of a position in 1/16 bin (R201): VF·c/(2·POINTS·Δf) per bin. -/
def Survey.mm (v : Survey) (pos16 : Nat) : Nat :=
  divNear (pos16 * fld v.cfg 31 22 * 299792458 * (v.points - 1)) (16 * 1024 * 2 * v.points * (v.stop - v.start) * 1000)

/-- A step lies in a committed downlink carrier of a path. -/
def stepInCarrier (s : State) (v : Survey) (i : Nat) : Bool :=
  (groupCarriers s false (s.groupOf v.path)).any (fun k => v.inside i (carrierBand k).1 (carrierBand k).2)

/-- The least of some numbers, 0 when there are none. -/
def least (l : List Nat) : Nat :=
  match l with
  | [] => 0
  | x :: xs => xs.foldl min x

/-- A term of the coupler record: I and Q of term `t` of fold `f` at frequency point `i`, in 2^−15 (Table 16-3). -/
def couplerTerm (b : List Byte) (f t i : Nat) : Cplx :=
  let o := 16 + 96 * f + 12 * i + 4 * t
  (toS 16 (le b o 2), toS 16 (le b (o + 2) 2))

/-- The last frequency point of the coupler record that is not above a step; none before the first. -/
def pointBelow (b : List Byte) (v : Survey) (i : Nat) : Option Nat :=
  (List.range 8).foldl (fun a j => if le b (2 * j) 2 * 1000 * (v.points - 1) ≤ v.scaled i then some j else a) none

/-- A coupler term at a step, and the scale beyond 2^15 that it is in: linear between frequency points, constant beyond the end
points (R420). -/
def couplerAt (b : List Byte) (v : Survey) (i : Nat) : (Nat → Cplx) × Nat :=
  let f := v.path / 8
  let hz := fun j => le b (2 * j) 2 * 1000 * (v.points - 1)
  match pointBelow b v i with
  | none => (fun t => couplerTerm b f t 0, 1)
  | some j =>
    let d := hz (j + 1) - hz j
    if j ≥ 7 ∨ d = 0 then (fun t => couplerTerm b f t j, 1)
    else
      let mix := fun (x y : Int) => x * d + ((v.scaled i - hz j : Nat) : Int) * (y - x)
      (fun t => (mix (couplerTerm b f t j).1 (couplerTerm b f t (j + 1)).1, mix (couplerTerm b f t j).2 (couplerTerm b f t (j + 1)).2), d)

/-- A value times a number. -/
def cscale (k : Int) (z : Cplx) : Cplx := (z.1 * k, z.2 * k)

/-- The reflection coefficient of a step as a fraction (R199, R420): V/F, corrected with the fold's coupler terms where they exist,
Γ = (Γ_m − e_D) / (e_R + e_S·(Γ_m − e_D)). -/
def stepGamma (rec : Option (List Byte)) (v : Survey) (i : Nat) (m : Cplx × Cplx) : Cplx × Cplx :=
  match rec with
  | none => m
  | some b =>
    let e := couplerAt b v i
    let k : Int := (2 ^ 15 * e.2 : Nat)
    let u := csub (cscale k m.1) (cmul (e.1 0) m.2)
    (cscale k u, cadd (cscale k (cmul (e.1 2) m.2)) (cmul (e.1 1) u))

/-- A fraction as Q1.23. -/
def gammaQ23 (g : Cplx × Cplx) : Cplx :=
  let n := normSq g.2
  if n = 0 then Config.openGamma g.1
  else
    let z := cmul (g.2.1, -g.2.2) g.1
    (satS 24 (divEven (z.1 * (2 ^ 23 : Nat)) n), satS 24 (divEven (z.2 * (2 ^ 23 : Nat)) n))

/-- Return loss of a fraction in 0.01 dB: −20·log10 of its magnitude. -/
def returnLoss (num den : Nat) : Nat := min 0xFFFF (centiBelRatio den num).toNat

/-- A skipped step is filled by interpolation between its nearest steps that were sent, or with the nearest one at an end (R200). -/
def fillStep (sent : Nat → Bool) (n : Nat) (g : Nat → Cplx) (i : Nat) : Cplx :=
  if sent i then g i
  else
    match ((List.range i).reverse.find? sent), ((List.range n).find? (fun j => decide (i < j) && sent j)) with
    | some a, some b =>
      let mix := fun (x y : Int) => x + divEven ((y - x) * ((i - a : Nat) : Int)) (b - a)
      (mix (g a).1 (g b).1, mix (g a).2 (g b).2)
    | some a, none => g a
    | none, some b => g b
    | none, none => (0, 0)

/-- A peak of the profile: its position in 1/16 bin and the squared magnitude of its bin. -/
structure Peak where
  pos : Nat
  pow : Nat

/-- The peaks of a profile (R201): the bins that stand above both neighbours, each located by the parabola through the three
magnitudes. -/
def peaksOf (x : List Cplx) : List Peak :=
  let m := x.map (fun z => (isqrt (normSq z) : Int))
  let at_ := fun (i : Nat) => m.getD i 0
  (List.range x.length).filterMap (fun i =>
    let a := if i = 0 then 0 else at_ (i - 1)
    let b := at_ i
    let c := at_ (i + 1)
    if a < b ∧ c ≤ b then
      some { pos := (16 * (i : Int) + divEven (8 * (c - a)) (2 * b - a - c).toNat).toNat, pow := normSq (x.getD i (0, 0)) }
    else none)

/-- The profile of a sweep and its exponent (R201): the inverse FFT of the POINTS values with a Hann window. -/
def profileOf (v : Survey) (g : List Cplx) : List Cplx × Nat := fft v.log true 1 g

/-- The return loss of a peak (R201): the transform has no 1/N factor, and a Hann window halves a component. -/
def Peak.loss (v : Survey) (e : Nat) (x : Peak) : Nat := returnLoss (4 * x.pow * 2 ^ (2 * e)) (v.points ^ 2 * 2 ^ 46)

/-- Peaks, largest first. -/
def largestFirst (l : List Peak) : List Peak := sortBy (fun a b => decide (b.pow ≤ a.pow)) l

/-- The feeder length as DPD_SURVEY_LENGTH shows it (R201): the largest peak beyond 0.5 m, if it stands 10 dB above the floor. -/
def feederLength (v : Survey) (profile : List Cplx) (l : List Peak) : Word :=
  match (largestFirst l).find? (fun x => decide (v.mm x.pos > 500)) with
  | some x =>
    if 10 * Config.profileFloor (profile.map normSq) ≤ x.pow then pk [(31, 1), (0, min 0xFFFF (v.mm x.pos))] else 0
  | none => 0

/-- What a completed sweep reports (R201), for the fractions Γ of its steps. -/
def surveyReport (old : State) (v : Survey) (g : Nat → Cplx × Cplx) (s : State) : State :=
  let n := v.points
  let sent := fun i => !stepSkipped old v i
  let x := profileOf v ((List.range n).map (fillStep sent n (fun i => gammaQ23 (g i))))
  let peaks := peaksOf x.1
  let rl := fun i => returnLoss (normSq (g i).1) (normSq (g i).2)
  let on := (List.range n).filter sent
  let s := s.setReg Reg.DPD_SURVEY_LENGTH (feederLength v x.1 peaks)
  let s := s.setReg Reg.DPD_SURVEY_RL (pk [(16, least ((on.filter (stepInCarrier old v)).map rl)), (0, least (on.map rl))])
  forAll (List.range 4) (fun i s =>
    match ((largestFirst peaks)[i]?) with
    | some k => s.setReg (Reg.DPD_SURVEY_PEAK i) (pk [(16, min 0xFFFF (v.mm k.pos)), (0, k.loss v x.2)])
    | none => s.setReg (Reg.DPD_SURVEY_PEAK i) 0) s

/-- SURVEY_DONE: the sweep that a receiver's survey holds ends with what it measured, the reflected and the forward output of each step
(R201). -/
def surveyDone (o : Nat) (steps : List (Cplx × Cplx)) (s : State) : State :=
  match s.dpd.surveys.find? (fun v => v.path / 8 == o && v.granted) with
  | none => s
  | some v =>
    let g := fun i => stepGamma (sysRec s 8) v i (steps.getD i ((0, 0), (1, 0)))
    let skipped := ((List.range v.points).filter (stepSkipped s v)).length
    (surveyStatus 1 0 v.path skipped (surveyReport s v g (surveyRelease v s))).raise Reg.DPD_INT_STATUS 5

/-- SURVEY_DONE (R201). -/
def execSurveyDone (m : Fin 8 × List (Cplx × Cplx)) (s : State) : Host.Outcome State Fault Refusal := .next (surveyDone m.1 m.2 s)

/-- OBS_HOLDER_GRANT: the receiver, free of visits, goes to the request that wins it (R190). -/
def obsHolderGrant (o : Nat) (s : State) : State :=
  match obsGrant o s with
  | (s, some (.capture st)) => streamGranted st s
  | (s, some (.survey p)) => surveyGranted p s
  | (s, _) => s

/-- OBS_HOLDER_GRANT (R190). -/
def execObsHolderGrant (o : Fin 8) (s : State) : Host.Outcome State Fault Refusal := .next (obsHolderGrant o s)

/-! ### Registers computed from the state (R202) -/

/-- DPD_SOLVER. -/
def dpdSolver (s : State) : Word :=
  pk [(31, b2n s.dpd.solver.isSome), (24, s.dpd.solver.getD 0), (16, s.dpd.queue.length),
      (0, (s.dpd.solves.filter (fun t => decide (s.time.tb1 < t + secTu))).length)]

/-- The observation holder code of a fold (Table 7-7); 0 before a warp commits, as the reset value has it (DEDUCED). -/
def obsHolderCode (s : State) (o : Nat) : Nat :=
  match (vget s.dpd.obs o).holder with
  | some (.capture _) => 1
  | some (.survey _) => 2
  | some .cal => 3
  | none => if (visitMember s o).isSome || s.wrp.active.isNone then 0 else 4

/-- DPD_OBS_STATUS. -/
def dpdObsStatus (s : State) (o : Nat) : Word :=
  let busy := (vget s.dpd.obs o).holder.isSome || (visitMember s o).isSome
  pk [(31, b2n busy), (28, obsHolderCode s o), (24, observed s o), (6, b2n (!busy))]

/-- DPD_STATUS. -/
def dpdStatus (s : State) (p : Nat) : Word :=
  put (put (s.reg (Reg.DPD_STATUS p)) 28 28 (b2n (dpdOf s p).activeB)) 27 27 (dpdOf s p).act.page

end Sys2Proof.Machine
end

