-- ==== Sys2Proof/Machine/Paths.lean ====
section
/-!
DEFINITION. Transmit and receive paths: attenuation, trim and mute writes (R105, R112, R126), the interleaved ADCs and their
spare (R113…R119), the DACs and their reserves (R120…R123), faults (R125), over-current and overload (R127, R128), and the
commands of the PTH blocks.
-/

namespace Sys2Proof.Machine

/-! ### Host settings (R105, R108, R112, R124, R126) -/

/-- PTH_TX_ATTEN_WRITE (R105). -/
def txAttenWrite (p : Nat) (w : Word) (s : State) : State :=
  let s := s.setFld (Reg.PTH_TX_ATTEN p) 6 0 (fld w 6 0)
  if pathInTx s p then s else refreshPath p (applyTxAtten p s)

/-- PTH_TX_ATTEN_WRITE. -/
def execPthTxAttenWrite (p : Fin 64) (w : Word) (s : State) : Host.Outcome State Fault Refusal :=
  .next (s.hosted (Reg.PTH_TX_ATTEN p) (txAttenWrite p w))

/-- PTH_RX_ATTEN_WRITE (R105): values above 30 are stored as 30. -/
def rxAttenWrite (p : Nat) (w : Word) (s : State) : State :=
  let s := s.setFld (Reg.PTH_RX_ATTEN p) 4 0 (min 30 (fld w 4 0))
  if pathInRx s p then s else applyRxAtten p s

/-- PTH_RX_ATTEN_WRITE. -/
def execPthRxAttenWrite (p : Fin 64) (w : Word) (s : State) : Host.Outcome State Fault Refusal :=
  .next (s.hosted (Reg.PTH_RX_ATTEN p) (rxAttenWrite p w))

/-- A change of a chain's trim registers applies in the same way as attenuation (R112). -/
def trimChanged (tx : Bool) (p : Nat) (s : State) : State :=
  if (if tx then pathInTx s p else pathInRx s p) then s else applyTrim tx p s

/-- The user trim register of a chain. -/
def trimUserReg (tx : Bool) (p : Nat) : Nat := if tx then Reg.PTH_TX_TRIM_USER p else Reg.PTH_RX_TRIM_USER p

/-- PTH_TRIM_USER_WRITE (R112). -/
def trimUserWrite (tx : Bool) (p : Nat) (w : Word) (s : State) : State :=
  trimChanged tx p (s.setFld (trimUserReg tx p) 17 0 (fld w 17 0))

/-- PTH_TRIM_USER_WRITE. -/
def execPthTrimUserWrite (p : Fin 64) (tx : Bool) (w : Word) (s : State) : Host.Outcome State Fault Refusal :=
  .next (s.hosted (trimUserReg tx p) (trimUserWrite tx p w))

/-- PTH_CTRL.TX_MUTE and MUTE_NOW: a mute waits for the group boundary unless MUTE_NOW is set; clearing it ends the source, and
the chain unmutes at the boundary (R126). -/
def txMuteWrite (p : Nat) (mute now : Bool) (s : State) : State :=
  let s := (s.setFld (Reg.PTH_CTRL p) 0 0 (b2n mute)).setFld (Reg.PTH_CTRL p) 1 1 (b2n now)
  refreshPath p (s.modPath p (fun x => { x with hostMute := if mute then x.hostMute || now else false }))

/-- TX_MUTE (R126). -/
def execTxMute (p : Fin 64) (mute now : Bool) (s : State) : Host.Outcome State Fault Refusal :=
  .next (s.hosted (Reg.PTH_CTRL p) (txMuteWrite p mute now))

/-- RX_ZERO (R124): it acts from the next group boundary. -/
def execRxZero (p : Fin 64) (zero : Bool) (s : State) : Host.Outcome State Fault Refusal :=
  .next (s.hosted (Reg.PTH_CTRL p) (fun s => s.setFld (Reg.PTH_CTRL p) 2 2 (b2n zero)))

/-- INV_SINC_OFF: the equaliser is bypassed or restored with the same delay (R108). -/
def execInvSincOff (p : Fin 64) (off : Bool) (s : State) : Host.Outcome State Fault Refusal :=
  .next (s.hosted (Reg.PTH_CTRL p) (fun s => s.setFld (Reg.PTH_CTRL p) 4 4 (b2n off)))

/-- CLEAR_OCP: an OCP fault is cleared at the next group boundary, while the group is not in TX; otherwise the write is ignored
(R127). -/
def clearOcp (p : Nat) (s : State) : State :=
  if (pathOf s p).txFault = 3 ∧ ¬ pathInTx s p then s.modPath p (fun x => { x with clearOcp := true }) else s

/-- CLEAR_OCP (R127). -/
def execClearOcp (p : Fin 64) (s : State) : Host.Outcome State Fault Refusal := .next (s.hosted (Reg.PTH_CTRL p) (clearOcp p))

/-- A write of PTH_CTRL: every field. -/
def pthCtrlWrite (p : Nat) (w : Word) (s : State) : State :=
  let s := txMuteWrite p (bitOf w 0) (bitOf w 1) s
  let s := (s.setFld (Reg.PTH_CTRL p) 2 2 (fld w 2 2)).setFld (Reg.PTH_CTRL p) 4 4 (fld w 4 4)
  if bitOf w 3 then clearOcp p s else s

/-! ### Faults (R125) -/

/-- The number of a path in its stack: P = 64·d + p (Table 12-10). -/
def stackPath (s : State) (p : Nat) : Nat := if s.cas.role = 0 then p else 64 * s.cas.d + p

/-- Every holder of a served slot of a direction is told of a path fault (Table 10-7). -/
def noticePathFault (tx : Bool) (p : Nat) (s : State) : State :=
  forAll ((List.range 8).filter (s.holdsAny (!tx))) (fun k s => s.notice k 0x03 (if tx then 0x80 else 0) (stackPath s p)) s

/-- A TX chain becomes FAULTED (R125): its weights are masked, its adaptation ends, the captures of it stop, and the flocks are
told. -/
def chainFaultTx (p : Nat) (s : State) : State :=
  let x := pathOf s p
  if x.txFaultNext = 0 ∨ (x.txFault ≠ 0 ∧ x.txFault ≠ 3) then s
  else
    let cause := x.txFaultNext
    let s := s.modPath p (fun x => { x with
      txFault := cause, txFaultNext := 0, maskTx := true, ocp := false, clearOcp := false, dacBinary := x.dacBinary || cause == 2 })
    let s := (refreshPath p s).pathEvent p 0 0
    let s := noticePathFault true p (attemptEnd p 0x0E s)
    stopStreamsIf (fun st => srcCode s st == 1 && srcIndex s st == p) s

/-- An RX chain becomes FAULTED (R125); its filling ends. A failure of the other ADC goes on waiting for that ADC's own spare (R118). -/
def chainFaultRx (p : Nat) (s : State) : State :=
  let x := pathOf s p
  if x.rxFaultNext = 0 ∨ x.rxFault ≠ 0 then s
  else
    let cause := x.rxFaultNext
    let quiet := fun (a : Adc) => { a with filling := 0 }
    let s := s.modPath p (fun x => { x with
      rxFault := cause, rxFaultNext := 0, maskRx := true, adcI := quiet x.adcI, adcQ := quiet x.adcQ })
    let s := noticePathFault false p (s.pathEvent p 1 0)
    stopStreamsIf (fun st => srcCode s st == 0 && srcIndex s st == p) s

/-- A TX fault that waits takes effect: a part that is retired is recorded in the reserve map. -/
def faultTx (p : Nat) (s : State) : State :=
  let x := pathOf s p
  if x.txFaultNext = 0 ∨ (x.txFault ≠ 0 ∧ x.txFault ≠ 3) then s
  else if x.txFaultNext = 3 then chainFaultTx p s else writeReserveMap [] (chainFaultTx p s)

/-- An RX fault that waits takes effect, and its retired part is recorded in the reserve map. -/
def faultRx (p : Nat) (s : State) : State :=
  let x := pathOf s p
  if x.rxFaultNext = 0 ∨ x.rxFault ≠ 0 then s else writeReserveMap [] (chainFaultRx p s)

/-- A fault that waits takes effect within 10 µs when the group is in neither TX nor RX (R125). -/
def faultSoon (p : Nat) (s : State) : State :=
  if pathInTx s p ∨ pathInRx s p then s else faultRx p (faultTx p s)

/-! ### The ADCs and their spares (R113…R118) -/

/-- One of the two ADCs of a path. -/
def adcOf (s : State) (p : Nat) (q : Bool) : Adc := if q then (pathOf s p).adcQ else (pathOf s p).adcI

/-- Change one of the two ADCs of a path. -/
def modAdc (p : Nat) (q : Bool) (f : Adc → Adc) (s : State) : State :=
  s.modPath p (fun x => if q then { x with adcQ := f x.adcQ } else { x with adcI := f x.adcI })

/-- The physical sub-converter in a position. -/
def subAt (a : Adc) (pos : Nat) : Nat := a.pos / 16 ^ pos % 16

/-- The position of a physical sub-converter. -/
def positionOf (a : Adc) (sub : Nat) : Option Nat := (List.range 8).find? (fun i => subAt a i == sub)

/-- A sample of the position being filled: the mean of its two neighbours, rounded convergently (R117). -/
def fillSample (before after : Int) : Int := shrEven (before + after) 1

/-- No correction of a sub-converter. -/
def noCorr : Nat → Int × Int × Int := fun _ => (0, 0, 0)

/-- A number with bit `i` set. -/
def withBit (n i : Nat) : Nat := if nbit n i then n else n + 2 ^ i

/-- A number with bit `i` clear. -/
def noBit (n i : Nat) : Nat := if nbit n i then n - 2 ^ i else n

/-- The ADC after its spare takes the failed position, with the corrections it learned while it shadowed it (R116): the failed
sub-converter is retired, and the position is no longer filled. -/
def Adc.swapIn (a : Adc) (pos : Nat) : Adc :=
  let old := subAt a pos
  { a with
    pos := a.pos - old * 16 ^ pos + a.spare * 16 ^ pos
    spare := 0xF
    retired := withBit a.retired old
    corr := tset noCorr a.corr a.spare (tget noCorr a.learned pos)
    ready := false, filling := noBit a.filling pos, failed := a.failed.filter (·.pos != pos), bad := 0 }

/-- Filling of a position begins, with its interrupt (R117); a faulted path fills no more. -/
def fillBegin (p : Nat) (q : Bool) (pos : Nat) (s : State) : State :=
  if nbit (adcOf s p q).filling pos ∨ (pathOf s p).rxFault ≠ 0 then s
  else (modAdc p q (fun a => { a with filling := withBit a.filling pos }) s).pathEvent p 4 0

/-- A sub-converter fails where no spare is left: it is retired, and RX faults at the next group boundary (R118, R125); a chain that
is FAULTED already stays so, and the retirement is recorded. -/
def adcExhausted (p : Nat) (q : Bool) (pos : Nat) (s : State) : State :=
  let s := modAdc p q (fun a => { a with
    retired := withBit a.retired (subAt a pos), failed := a.failed.filter (·.pos != pos) }) s
  if (pathOf s p).rxFault ≠ 0 then writeReserveMap [] s
  else s.modPath p (fun x => { x with rxFaultNext := if x.rxFaultNext = 0 then (if q then 2 else 1) else x.rxFaultNext })

/-- The spare takes the position that failed first (R116); each further failure of the ADC then counts against a spent spare
(R118). -/
def adcSwap (p : Nat) (q : Bool) (s : State) : State :=
  let a := adcOf s p q
  match a.failed with
  | [] => s
  | f :: rest =>
    if a.spare ≥ 9 ∨ ¬ a.ready then s
    else
      let s := (modAdc p q (fun a => a.swapIn f.pos) s).pathEvent p 2 0
      forAll rest (fun f s => adcExhausted p q f.pos s) (engageReserve 1 s).reserveLow

/-- The swap happens within 10 µs when the group is not in RX (R116). -/
def adcSwapSoon (p : Nat) (q : Bool) (s : State) : State := if pathInRx s p then s else adcSwap p q s

/-- The device counts a failure it has detected: its number orders the engagements of its kind (R25). -/
def failNumber (s : State) : Nat × State :=
  (s.glb.detected, s.modGlb (fun g => { g with detected := g.detected + 1 }))

/-- A failure of a position enters the list of those that wait for the spare (R116). -/
def adcWaits (p : Nat) (q gross : Bool) (pos : Nat) (s : State) : State :=
  let (n, s) := failNumber s
  modAdc p q (fun a => { a with failed := a.failed ++ [{ pos := pos, gross := gross, seq := n }] }) s

/-- A sub-converter in a position has failed (R115…R118); one that has failed already and turns out gross is filled from then on. -/
def adcFailed (p : Nat) (q gross : Bool) (pos : Nat) (s : State) : State :=
  let a := adcOf s p q
  let fill := fun s => if gross then fillBegin p q pos s else s
  if nbit a.retired (subAt a pos) ∨ a.failed.any (fun f => f.pos == pos) then fill s
  else if a.spare ≥ 9 then faultSoon p (adcExhausted p q pos (fill s))
  else faultSoon p (adcSwapSoon p q (adcWaits p q gross pos (fill s)))

/-- The converters of the paths run: at PL3 they are powered down (R106). -/
def convertersOn (s : State) : Bool := s.pwr.level != 3

/-- SHADOW_BLOCK_DONE: a block of the position being shadowed ends, its difference in 1/16 LSB RMS (R115). -/
def shadowBlock (p : Nat) (q : Bool) (rms : Nat) (s : State) : State :=
  let a := adcOf s p q
  if a.spare ≥ 9 ∨ ¬ convertersOn s then s
  else
    let bad := if rms > 4 * 16 then a.bad + 1 else 0
    let s := modAdc p q (fun a => { a with bad := bad }) s
    if bad ≥ 3 then adcFailed p q (rms > 64 * 16) a.shadow s else s

/-- SHADOW_BLOCK_DONE (R115). -/
def execShadowBlockDone (p : Fin 64) (q : Bool) (rms : Nat) (s : State) : Host.Outcome State Fault Refusal :=
  .next (shadowBlock p q rms s)

/-- SHADOW_PASS_DONE: the spare moves to the next position, and is ready after a full round (R114, R116). -/
def shadowPass (p : Nat) (q : Bool) (s : State) : State :=
  let a := adcOf s p q
  if a.spare ≥ 9 ∨ ¬ convertersOn s then s
  else
    let s := modAdc p q (fun a => { a with
      shadow := (a.shadow + 1) % 8, passes := min 8 (a.passes + 1), bad := 0, ready := a.ready || decide (a.passes + 1 ≥ 8) }) s
    faultSoon p (adcSwapSoon p q s)

/-- SHADOW_PASS_DONE (R114). -/
def execShadowPassDone (p : Fin 64) (q : Bool) (s : State) : Host.Outcome State Fault Refusal := .next (shadowPass p q s)

/-- ADC_STUCK_DETECT: a gross failure (R115, R117). -/
def execAdcStuckDetect (p : Fin 64) (q : Bool) (pos : Fin 8) (s : State) : Host.Outcome State Fault Refusal :=
  .next (whenB (convertersOn s) (adcFailed p q true pos) s)

/-- ADC_CORRECTION_ESTIMATE: the corrections of a physical sub-converter, offset in LSB, gain in 0.01 %, skew in steps of
0.05 ps; past ±96 LSB, ±4 % or ±3.5 ps the sub-converter in a position fails (R113, R115). The spare learns those of the position it
shadows (R116). -/
def adcEstimate (p : Nat) (q : Bool) (sub : Nat) (offset gain skew : Int) (s : State) : State :=
  let c := (clampI (-96) 96 offset, clampI (-400) 400 gain, clampI (-70) 70 skew)
  let s := modAdc p q (fun a => { a with
    corr := tset noCorr a.corr sub c, learned := if sub = a.spare then tset noCorr a.learned a.shadow c else a.learned }) s
  match positionOf (adcOf s p q) sub with
  | some pos => if c ≠ (offset, gain, skew) then adcFailed p q false pos s else s
  | none => s

/-- ADC_CORRECTION_ESTIMATE (R113, R115). -/
def execAdcCorrectionEstimate (p : Fin 64) (q : Bool) (sub : Fin 9) (offset gain skew : Int) (s : State) :
    Host.Outcome State Fault Refusal := .next (whenB (convertersOn s) (adcEstimate p q sub offset gain skew) s)

/-! ### The DACs and their reserves (R120…R123) -/

/-- One of the two DACs of a path. -/
def dacOf (s : State) (p : Nat) (q : Bool) : Dac := if q then (pathOf s p).dacQ else (pathOf s p).dacI

/-- Change one of the two DACs of a path. -/
def modDac (p : Nat) (q : Bool) (f : Dac → Dac) (s : State) : State :=
  s.modPath p (fun x => if q then { x with dacQ := f x.dacQ } else { x with dacI := f x.dacI })

/-- The first reserve that stands nowhere. -/
def freeReserve (d : Dac) : Nat := ((List.range 4).find? (fun i => vget d.stands i == 0x3F)).getD 4

/-- The reserve that stood in for a failed segment keeps its place (R121). -/
def Dac.swapIn (d : Dac) (seg : Nat) : Dac :=
  { d with stands := vset d.stands (freeReserve d) seg, left := d.left - 1, retired := d.retired + 1 }

/-- A part of the TX chain that nothing replaces has failed: the fault waits, and stands before an over-current fault, which ends where
this one stays (R122, R123, R125, R127). -/
def txPartFails (cause p : Nat) (s : State) : State :=
  s.modPath p (fun x => { x with txFaultNext := if x.txFaultNext = 0 ∨ x.txFaultNext = 3 then cause else x.txFaultNext })

/-- A further segment failed with no reserve left: TX faults with cause DAC_SEG (R122). -/
def dacExhausted (p : Nat) (q : Bool) (s : State) : State :=
  txPartFails 1 p (modDac p q (fun d => { d with retired := min 5 (d.retired + 1) }) s)

/-- A failed segment is replaced by the reserve that stood in for it (R121). -/
def dacReplace (p : Nat) (q : Bool) (seg : Nat) (s : State) : State :=
  let s := modDac p q (fun d => { d with failed := d.failed.filter (·.pos != seg) }) s
  if (dacOf s p q).left = 0 then dacExhausted p q s
  else
    let s := engageReserve 2 ((modDac p q (fun d => d.swapIn seg) s).pathEvent p 3 0)
    if (dacOf s p q).left = 0 then s.reserveLow else s

/-- The failed segments of a DAC are replaced in the order of their failures (R121, R25). -/
def dacSwap (p : Nat) (q : Bool) (s : State) : State :=
  forAll ((dacOf s p q).failed.map (·.pos)) (dacReplace p q) s

/-- DAC_SEGMENT_MEASURED: the measurement of a unary segment ends; one that cannot be trimmed has failed (R120…R122). With no
reserve left a segment is measured only while the group is not in TX. -/
def segmentMeasured (p : Nat) (q : Bool) (seg : Nat) (ok : Bool) (s : State) : State :=
  let d := dacOf s p q
  if ok ∨ (pathOf s p).txFault ≠ 0 ∨ (d.left = 0 ∧ pathInTx s p) ∨ d.failed.any (·.pos == seg) ∨ ¬ convertersOn s then s
  else
    let (n, s) := failNumber s
    let s := modDac p q (fun d => { d with failed := d.failed ++ [{ pos := seg, seq := n }] }) s
    if pathInTx s p then s else faultSoon p (dacSwap p q s)

/-- DAC_SEGMENT_MEASURED (R120). -/
def execDacSegmentMeasured (p : Fin 64) (q : Bool) (seg : Fin 63) (ok : Bool) (s : State) : Host.Outcome State Fault Refusal :=
  .next (segmentMeasured p q seg ok s)

/-- DAC_BINARY_FAIL: TX faults with cause DAC_BINARY (R123, R125). -/
def dacBinaryFail (p : Nat) (s : State) : State :=
  faultSoon p (txPartFails 2 p s)

/-- DAC_BINARY_FAIL (R123). -/
def execDacBinaryFail (p : Fin 64) (s : State) : Host.Outcome State Fault Refusal := .next (dacBinaryFail p s)

/-! ### Over-current and overload (R127, R128) -/

/-- OCP_TRIP: the chain is muted until the next group boundary; a third trip within 1 s of TB1 latches a fault (R127). -/
def ocpTrip (p : Nat) (s : State) : State :=
  if (pathOf s p).txFault ≠ 0 then s
  else
    let times := s.time.tb1 :: (pathOf s p).ocpTimes.filter (fun t => decide (s.time.tb1 < t + secTu))
    let s := s.modPath p (fun x => { x with
      ocp := true, ocpTimes := times
      txFaultNext := if times.length ≥ 3 ∧ x.txFaultNext = 0 then 3 else x.txFaultNext })
    let s := (s.addByte (Reg.PTH_OCP_COUNT p) 0 1).raise (Reg.PTH_INT_STATUS p) 5
    faultSoon p (refreshPath p s)

/-- OCP_TRIP (R127). -/
def execOcpTrip (p : Fin 64) (s : State) : Host.Outcome State Fault Refusal := .next (ocpTrip p s)

/-- OVERLOAD_MS: a millisecond of TB1 ends with `i` and `q` samples clipped at the ADCs, `both` of them at both (R128). -/
def overloadMs (p i q both : Nat) (s : State) : State :=
  let s := (s.addHi (Reg.PTH_OVLD_COUNT p) i).addLo (Reg.PTH_OVLD_COUNT p) q
  let past := decide (i + q - both > s.fld (Reg.PTH_OVLD_CFG p) 15 0)
  let s := s.modPath p (fun x => { x with overload := past })
  if past then s.raise (Reg.PTH_INT_STATUS p) 6 else s

/-- OVERLOAD_MS (R128). -/
def execOverloadMs (p : Fin 64) (i q both : Nat) (s : State) : Host.Outcome State Fault Refusal := .next (overloadMs p i q both s)

/-! ### A group boundary on one path (R104, R105, R112, R116, R121, R125…R127) -/

/-- Clear an over-current fault that CLEAR_OCP asked for (R127). -/
def clearOcpDue (p : Nat) (s : State) : State :=
  s.modPath p (fun x => if x.clearOcp then { x with txFault := 0, clearOcp := false, ocpTimes := [] } else x)

/-- The engagements of converter reserves that are due at a boundary of some paths, each with the number of its failure, the path, whether
it is a DAC's and which, and the position (R116, R121). -/
def convDue (s : State) (ps : List Nat) : List (Nat × Nat × Bool × Bool × Nat) :=
  ps.flatMap (fun p => [false, true].flatMap (fun q =>
    (match (adcOf s p q).failed with
      | f :: _ => if (adcOf s p q).ready && decide ((adcOf s p q).spare < 9) then [(f.seq, p, false, q, f.pos)] else []
      | [] => []) ++
    (dacOf s p q).failed.map (fun f => (f.seq, p, true, q, f.pos))))

/-- The engagements at a boundary happen one at a time, in the order in which the failures were detected (R25). -/
def convSwaps (ps : List Nat) (s : State) : State :=
  forAll (sortBy (fun a b => decide (a.1 ≤ b.1)) (convDue s ps))
    (fun x s => if x.2.2.1 then dacReplace x.2.1 x.2.2.2.1 x.2.2.2.2 s else adcSwap x.2.1 x.2.2.2.1 s) s

/-- What the group boundary of a path applies, in order, after its swaps: faults cleared, faults, attenuation and trims, host settings,
and the chains whose last source has gone. -/
def pathBoundary (p : Nat) (s : State) : State :=
  let s := faultRx p (faultTx p (clearOcpDue p s))
  let s := applyRxAtten p (applyTxAtten p s)
  let s := applyTrim false p (applyTrim true p s)
  let s := s.modPath p (fun x => { x with
    hostMute := s.bit (Reg.PTH_CTRL p) 0, rxZero := s.bit (Reg.PTH_CTRL p) 2, ocp := false
    stageMute := s.pwr.leaving4 || decide (s.pwr.stage < 4) })
  s.modPath p (fun x => { x with muted := decide (muteSrc s p ≠ 0), zeroed := rxZeroed s p })

/-! ### The reserve map at power-up (R119, R125) -/

/-- An ADC from its part of the reserve map. -/
def adcFromMap (pos retired : Nat) : Adc :=
  let stands := fun (i : Nat) => (List.range 8).any (fun n => pos / 16 ^ n % 16 == i)
  { pos := pos, retired := retired
    spare := ((List.range 9).find? (fun i => !stands i && !nbit retired i)).getD 0xF }

/-- A DAC from its word of the reserve map. -/
def dacFromMap (w : Nat) : Dac :=
  let at_ := fun i => w / 2 ^ (6 * i) % 64
  { stands := #v[at_ 0, at_ 1, at_ 2, at_ 3], left := ((List.range 4).filter (fun i => at_ i == 0x3F)).length
    retired := min 5 (w / 2 ^ 24) }

/-- More sub-converters are retired than the spare replaces: the RX fault persists (R125). -/
def adcSpent (a : Adc) : Bool := decide (((List.range 9).filter (fun i => nbit a.retired i)).length ≥ 2)

/-- Set the converters of a path from the reserve map body `b` (R119). -/
def pathFromMap (b : List Byte) (p : Nat) (s : State) : State :=
  let o := 96 + 24 * p
  s.modPath p (fun x => { x with
    adcI := adcFromMap (le b o 4) (le b (o + 8) 2), adcQ := adcFromMap (le b (o + 4) 4) (le b (o + 10) 2)
    dacI := dacFromMap (le b (o + 12) 4), dacQ := dacFromMap (le b (o + 16) 4), dacBinary := le b (o + 20) 4 % 2 == 1 })

/-- The persisting faults of a path, which apply again from stage 3 (R125). -/
def persistFaults (p : Nat) (s : State) : State :=
  s.modPath p (fun x => { x with
    rxFaultNext := if adcSpent x.adcI then 1 else if adcSpent x.adcQ then 2 else 0
    txFaultNext := if x.dacI.retired ≥ 5 ∨ x.dacQ.retired ≥ 5 then 1 else if x.dacBinary then 2 else 0 })

/-- A sub-converter fails its power-up self-test: it is retired before the positions are assigned, and the spare, if there is one,
stands in its position (R119). -/
def adcSelfTestFail (p : Nat) (q : Bool) (sub : Nat) (s : State) : State :=
  let a := adcOf s p q
  if nbit a.retired sub then s
  else if a.spare = sub then
    writeReserveMap [] (modAdc p q (fun a => { a with spare := 0xF, retired := a.retired + 2 ^ sub }) s)
  else
    match positionOf a sub with
    | none => s
    | some pos =>
      if a.spare < 9 then (engageReserve 1 (modAdc p q (fun a => a.swapIn pos) s)).reserveLow
      else writeReserveMap [] (modAdc p q (fun a => { a with retired := a.retired + 2 ^ sub }) s)

/-! ### Registers computed from the state (R129) -/

/-- PTH_STATUS. DESIGN CHOICE, log entry 5: MUTE_SRC shows the sources from stage 3 on, where R37 and R38 let a path be enabled and muted;
below it the register reads its reset value. -/
def pthStatus (s : State) (p : Nat) : Word :=
  let x := pathOf s p
  pk [(16, if s.pwr.stage < 3 then 0 else muteSrc s p), (11, b2n x.satRx), (10, b2n x.satTx),
      (9, b2n (decide (x.adcI.filling ≠ 0) || decide (x.adcQ.filling ≠ 0))), (8, b2n x.overload), (4, rxState s p), (0, txState s p)]

/-- PTH_TX_ATTEN. -/
def pthTxAtten (s : State) (p : Nat) : Word := pk [(8, appliedTx s p), (0, s.fld (Reg.PTH_TX_ATTEN p) 6 0)]
/-- PTH_RX_ATTEN. -/
def pthRxAtten (s : State) (p : Nat) : Word := pk [(8, (pathOf s p).rxAtten), (0, s.fld (Reg.PTH_RX_ATTEN p) 4 0)]
/-- The ADC as its registers show it: at reset values until power-up calibration sets them from the reserve map (R119). -/
def shownAdc (s : State) (p : Nat) (q : Bool) : Adc := if s.nvs.mapTaken then adcOf s p q else {}

/-- PTH_ADC_POS_I and PTH_ADC_POS_Q. -/
def pthAdcPos (s : State) (q : Bool) (p : Nat) : Word := BitVec.ofNat 32 (shownAdc s p q).pos
/-- PTH_ADC_SPARE. -/
def pthAdcSpare (s : State) (p : Nat) : Word := pk [(16, adcSpareHalf (shownAdc s p false)), (0, adcSpareHalf (shownAdc s p true))]
/-- PTH_DAC_SEG. -/
def pthDacSeg (s : State) (p : Nat) : Word :=
  let h := fun (d : Dac) => d.retired * 256 + d.left
  let d := fun q => if s.nvs.mapTaken then dacOf s p q else {}
  pk [(16, h (d false)), (0, h (d true))]
/-- PTH_FAULT. -/
def pthFault (s : State) (p : Nat) : Word :=
  let x := pathOf s p
  pk [(31, b2n (decide (x.txFault ≠ 0))), (30, b2n (decide (x.rxFault ≠ 0))), (20, x.txFault), (16, x.rxFault)]

end Sys2Proof.Machine
end

