-- ==== Sys2Proof/Machine/Rad.lean ====
section
/-!
DEFINITION. The radio state machine (R203…R217): group states and transitions, group commands, bursts, reports and the timed lines;
and the commands of the RAD block.
-/

namespace Sys2Proof.Machine

/-! ### Groups (R203…R205) -/

/-- Code of a group state (Table 8-1). -/
def gcode : GState → Nat
  | .off => 0 | .standby => 1 | .rx => 2 | .tx => 3 | .guard => 4 | .cal => 5

/-- The state a command or a return may name: OFF, STANDBY, RX or GUARD. -/
def gstateOf : Nat → Option GState
  | 0 => some .off | 1 => some .standby | 2 => some .rx | 4 => some .guard | _ => none

/-- A path group. -/
def grp (s : State) (g : Nat) : Group := vget s.rad.groups g

/-- A group without an enabled path (R203). -/
def groupEmpty (s : State) (g : Nat) : Bool := (s.groupPaths g).isEmpty

/-- Transition times (Table 8-2). -/
def transTu (a b : GState) : Nat :=
  if b = .off then 10 * usTu
  else if a = .off then (if b = .standby then 300 else 302) * usTu
  else if b = .standby then usTu
  else if a = .standby then 2 * usTu
  else 160 * nsTu

/-- At stage 4 the power state follows the groups: Service while one is out of OFF (R207). -/
def syncPState (s : State) : State :=
  if s.pstate = .doze then s
  else s.modPState (fun _ =>
    if s.pwr.stage = 4 ∧ (List.range 8).any (fun g => (grp s g).state != .off) then .service else .idle)

/-- Keep the intervals of TX that a window of 1,000 bins of 1 ms can still reach. -/
def keepTx (now : Nat) (l : List (Nat × Nat)) : List (Nat × Nat) := l.filter (fun x => decide (now ≤ x.2 + secTu + msTu))

/-- A group enters a state: the windows that end are noted (R215), and TX time is counted (R228). -/
def enterGroup (g : Nat) (st : GState) (s : State) : State :=
  let x := grp s g
  let rxWas := groupRx s g
  let leavesTx := decide (x.state = .tx ∧ st ≠ .tx)
  let s := if leavesTx then
      match x.txSince with
      | some t => s.modRad (fun r => { r with txDone := keepTx s.time.tb1 (r.txDone ++ [(t, s.time.tb1)]) })
      | none => s
    else s
  let now := s.time.tb0
  let s := s.modGroup g (fun y => { y with
    state := st
    txSince := if st = .tx then (if y.state = .tx then y.txSince else some s.time.tb1) else none
    txEnd := if leavesTx then some now else y.txEnd
    calEnd := if y.state = .cal ∧ st ≠ .cal then some now else y.calEnd })
  let s := if rxWas ∧ ¬ groupRx s g then
      s.modGroup g (fun y => { y with
        rxEnd := some now, rxSince := none
        rxSpans := y.rxSpans.filter (fun x => decide (now < x.2 + 10 * msTu)) ++ [(y.rxSince.getD now, now)] })
    else if ¬ rxWas ∧ groupRx s g then s.modGroup g (fun y => { y with rxSince := some now })
    else s
  syncPState s

/-- Leave OFF (R205): through STANDBY, which a transition that already leaves OFF reaches when it would have. -/
def leaveOff (g : Nat) (st : GState) (now : Nat) (s : State) : State :=
  s.modGroup g (fun y =>
    let at_ := if y.trans = some .standby then y.readyAt else now + transTu .off .standby
    { y with trans := some .standby, transAt := at_, readyAt := at_, then_ := if st = .standby then none else some st })

/-- A group goes into CAL, and out of it, through STANDBY (R205). -/
def throughStandby (a b : GState) : Bool :=
  (b == .cal && a != .standby) || (a == .cal && b != .standby && b != .off)

/-- A group that is in CAL or on its way into it. -/
def Group.calNow (x : Group) : Bool := x.state == .cal || x.trans == some .cal || x.then_ == some .cal

/-- Begin a transition to a state: chains of RX and TX stop at once, and the group passes GUARD, or STANDBY from OFF and into or out of
CAL (R205, R214). -/
def goTo (g : Nat) (st : GState) (s : State) : State :=
  let x := grp s g
  let now := s.time.tb0
  let s := s.modGroup g (fun y => { y with ret := if st = .cal ∨ st = .tx then y.ret else st })
  if x.state = st then s.modGroup g (fun y => { y with trans := none, then_ := none })
  else if x.state = .off then leaveOff g st now s
  else
    let s := if x.state = .rx ∨ x.state = .tx then enterGroup g .guard s else s
    if (grp s g).state = st then s.modGroup g (fun y => { y with trans := none, then_ := none })
    else if throughStandby (grp s g).state st then
      s.modGroup g (fun y => { y with trans := some .standby, transAt := now + transTu x.state .standby, then_ := some st })
    else s.modGroup g (fun y => { y with trans := some st, transAt := now + transTu x.state st, then_ := none })

/-- A transition in progress ends, and one that passed STANDBY goes on from it (R205). -/
def transitionDone (g : Nat) (s : State) : State :=
  match (grp s g).trans with
  | none => s
  | some st =>
    if st = .tx ∨ st = .rx ∧ (grp s g).bursts.any (fun b => b.prep && !b.started) then s
    else
      let next := (grp s g).then_
      enterGroup g st (s.modGroup g (fun y => { y with
        trans := next, then_ := none, transAt := match next with
          | some n => s.time.tb0 + transTu st n
          | none => y.transAt }))

/-- GROUP_TRANSITION_DONE (R205). -/
def execGroupTransitionDone (g : Fin 8) (s : State) : Host.Outcome State Fault Refusal := .next (transitionDone g s)

/-! ### Reports (R213) -/

/-- The ball time at zero trim of the sample that an air time chooses (R167). -/
def startBall (s : State) (tx : Bool) (at_ : Nat) : Nat :=
  let t := pathPeriod s.pwr.level
  (ballTime (!tx) false t (startIndex (!tx) false t at_ 0 * t)).toNat

/-- The ball time at zero trim of the sample a burst's start chooses (R167, R208). -/
def burstBall (s : State) (b : Burst) : Nat := startBall s b.tx b.start

/-- A burst covers a sample of a path, by its number (R208): from the sample that R167 chooses for its start with the chain's trim, up to
the one before the sample chosen for its end. -/
def burstCovers (s : State) (p : Nat) (b : Burst) (i : Int) : Bool :=
  let t := pathPeriod s.pwr.level
  let at_ := fun (x : Nat) => startIndex (!b.tx) false t x (trimOf s b.tx p)
  decide (at_ b.start ≤ i) && decide (i < at_ (b.cut.getD (b.start + b.len)))

/-- A path's chain sends a sample by its number: its group is in TX and a burst of the group covers the sample (R204, R208). -/
def txCovered (s : State) (p : Nat) (i : Int) : Bool :=
  (grp s (s.groupOf p)).bursts.any (fun b => b.tx && burstCovers s p b i)

/-- A report enters the host queue of 32, or is dropped. -/
def hostBurstReport (r : BurstReport) (s : State) : State :=
  if s.rad.reports.length ≥ 32 then (s.addLo Reg.RAD_REPORT_DROPPED 1).raise Reg.RAD_INT_STATUS 3
  else (s.modRad (fun x => { x with reports := x.reports ++ [r] })).raise Reg.RAD_INT_STATUS 2

/-- BURST_REPORT to a flock (Table 10-5). -/
def flockBurstReport (k port tag outcome code : Nat) (tx : Bool) (g start : Nat) (s : State) : State :=
  s.post k port 0xA1 tag
    (beBytes 1 outcome ++ beBytes 1 code ++ beBytes 1 (b2n tx * 128 + g) ++ beBytes 1 0 ++ time8 start)

/-- Report a burst to its requester: 1 STARTED, 2 ENDED, 3 DROPPED, 4 CUT. Drops and cuts are logged, and a member's go up to the
bellwether (R213, R324). -/
def burstReport (g : Nat) (b : Burst) (outcome code : Nat) (s : State) : State :=
  let at_ := burstBall s b
  let s := if outcome ≥ 3 then s.event Reg.RAD_INT_STATUS 0 g (BitVec.ofNat 32 (code * 65536 + b.tag)) else s
  let s := if code = 0x22 then (if outcome = 3 then s.addHi Reg.THM_THROTTLE 1 else s.addLo Reg.THM_THROTTLE 1) else s
  match b.who with
  | .host => hostBurstReport { outcome := outcome, tx := b.tx, group := g, code := code, tag := b.tag, start := at_ } s
  | .flock k => flockBurstReport k b.port b.tag outcome code b.tx g at_ s
  | _ => if outcome ≥ 3 then reportUp 0x08 b.tag (beBytes 1 s.cas.d ++ beBytes 1 code ++ beBytes 2 b.tag) s else s

/-! ### Bursts that end (R211) -/

/-- The time a burst ends: its cut, or its length. -/
def burstStop (b : Burst) : Nat := b.cut.getD (b.start + b.len)

/-- The earliest burst of a group that holds of a test, by a time of it; of equals the one accepted first. -/
def firstBurst (time : Burst → Nat) (l : List Burst) : Option Burst :=
  l.foldl (fun best b => match best with
    | none => some b
    | some x => if time b < time x ∨ (time b = time x ∧ b.seq < x.seq) then some b else some x) none

/-- Change a burst of a group by its order of acceptance. -/
def modBurst (g seq : Nat) (f : Burst → Burst) (s : State) : State :=
  s.modGroup g (fun x => { x with bursts := x.bursts.map (fun b => if b.seq = seq then f b else b) })

/-- Remove a burst from its group. -/
def removeBurst (g seq : Nat) (s : State) : State :=
  s.modGroup g (fun x => { x with bursts := x.bursts.filter (fun b => b.seq != seq) })

/-- The next burst of a group that has not started, if it starts within 4 µs (R211). -/
def nextSoon (s : State) (g : Nat) : Option Burst :=
  (firstBurst (·.start) ((grp s g).bursts.filter (fun b => !b.started))).filter
    (fun b => decide (b.start ≤ s.time.tb0 + 4 * usTu))

/-- A group that no burst holds takes its return state (R211). -/
def settle (g : Nat) (s : State) : State :=
  let x := grp s g
  if x.bursts.any (·.started) ∨ (nextSoon s g).isSome ∨ x.calNow then s
  else if x.state = .off ∧ x.trans ≠ some .tx then s
  else if x.trans = some x.ret ∨ x.then_ = some x.ret then s
  else goTo g x.ret s

/-- A running burst has ended: what its group does (R211). -/
def afterBurst (g : Nat) (b : Burst) (s : State) : State :=
  let run := (grp s g).bursts.filter (·.started)
  if run.any (fun x => x.tx == b.tx) then s
  else if ¬ run.isEmpty then
    if b.tx then enterGroup g .rx s else s
  else
    let s := s.modGroup g (fun x => { x with ret := b.ret })
    match nextSoon s g with
    | some n => if n.tx = b.tx then s else goTo g .guard s |>.modGroup g (fun x => { x with ret := b.ret })
    | none => settle g s

/-- A burst leaves its group and is reported: a running one ENDED or CUT, another one DROPPED. -/
def burstOut (g : Nat) (b : Burst) (code : Nat) (s : State) : State :=
  let s := removeBurst g b.seq s
  if b.started then
    let s := if b.said then s else burstReport g b (if code = 0 then 2 else 4) code s
    afterBurst g b s
  else
    let s := burstReport g b 3 code s
    let s := if b.prep ∧ ¬ (grp s g).bursts.any (·.prep) then s.modGroup g (fun x => { x with
        trans := if x.trans = some .tx ∨ x.trans = some .rx then none else x.trans }) else s
    settle g s

/-- Drop or cut the bursts of a group that hold of a test. -/
def burstsOut (g code : Nat) (p : Burst → Bool) (s : State) : State :=
  forAll ((grp s g).bursts.filter p) (fun b s => burstOut g b code s) s

/-- Drop or cut bursts of every group. -/
def allBurstsOut (code : Nat) (p : Burst → Bool) (s : State) : State :=
  forAll (List.range 8) (fun g s => burstsOut g code p s) s

/-- TB0 stops being locked at stage 4: running TX bursts are cut (R290). -/
def timeLost (s : State) : State := if s.pwr.stage = 4 then allBurstsOut 0x24 (fun b => b.started && b.tx) s else s

/-- A role is lost: running TX bursts on it are reported CUT, and their schedule goes on (R140, R212). -/
def cutLost (r : Nat) (s : State) : State :=
  forAll (List.range 8) (fun g s =>
    if groupRole s false g = some r then
      forAll ((grp s g).bursts.filter (fun b => b.started && b.tx && !b.said)) (fun b s =>
        burstReport g b 4 0x21 (modBurst g b.seq (fun b => { b with said := true, code := 0x21 }) s)) s
    else s) s

/-! ### Group commands (R206) -/

/-- The state a command names without a check of it. -/
def cmdState (w : Word) : Nat := fld w 2 0

/-- The refusal code of a group command (R206, R324); 0 when accepted. -/
def groupCmdCode (s : State) (g st : Nat) : Nat :=
  if s.wrp.active.isNone then 0x01
  else if st ≠ 0 ∧ s.pwr.stage < 4 then 0x02
  else if st = 2 ∧ s.pwr.level = 3 then 0x03
  else if groupEmpty s g ∨ (st = 2 ∧ (groupCarriers s true g).isEmpty) then 0x04
  else if (gstateOf st).isNone then 0x11
  else if isStackMember s then 0x12
  else if st ≠ 0 ∧ (s.pstate = .doze ∨ s.pwr.leavingDoze) then 0x13
  else 0

/-- A command takes effect (R206): it replaces the return state of a burst that runs or is prepared, waits in CAL (R434), and
otherwise starts a transition. -/
def groupCommand (g : Nat) (st : GState) (s : State) : State :=
  let s := if st = .off then burstsOut g 0x25 (fun b => !b.started && !b.prep) s else s
  let x := grp s g
  if x.bursts.any (fun b => b.started || b.prep) then
    s.modGroup g (fun x => { x with
      ret := st, bursts := x.bursts.map (fun b => if b.started ∨ b.prep then { b with ret := st } else b) })
  else if x.calNow then s.modGroup g (fun x => { x with cmd := some st })
  else goTo g st s

/-- RAD_GROUP_RESULT. -/
def groupResult (code : Nat) (s : State) : State :=
  s.setReg Reg.RAD_GROUP_RESULT (pk [(30, if code = 0 then 1 else 2), (16, code)])

/-- RAD_GROUP_CMD: on a bellwether with joined devices it waits for their votes (R324). -/
def groupCmdWrite (w : Word) (s : State) : State :=
  if ¬ bitOf w 31 then s
  else
    let g := fld w 18 16
    let code := groupCmdCode s g (cmdState w)
    if code ≠ 0 then groupResult code s
    else if isBellwether s ∧ ¬ (joinedOthers s).isEmpty then
      s.modCas (fun c => { c with vote := some (.group w, joinedOthers s) })
    else
      match gstateOf (cmdState w) with
      | some st => groupResult 0 (groupCommand g st s)
      | none => s

/-- RAD_GROUP_CMD (R206). -/
def execRadGroupCmd (w : Word) (s : State) : Host.Outcome State Fault Refusal := .next (s.hosted Reg.RAD_GROUP_CMD (groupCmdWrite w))

/-! ### TX time (R228) -/

/-- The length of the union of intervals in order of their starts, from a point on. -/
def unionFrom : Int → List (Int × Int) → Int
  | _, [] => 0
  | from_, (a, b) :: l =>
    let lo := max a from_
    (if b > lo then b - lo else 0) + unionFrom (max from_ b) l

/-- The part of the time from `from_` to `to` that the intervals cover. -/
def covered (l : List (Int × Int)) (from_ to_ : Int) : Int :=
  unionFrom from_ (sortBy (fun a b => decide (a.1 ≤ b.1)) (l.map (fun x => (max x.1 from_, min x.2 to_))))

/-- The TX time of TB1 done and accepted, as intervals. -/
def txIntervals (s : State) : List (Int × Int) :=
  let shift : Int := (s.time.tb1 : Int) - s.time.tb0
  s.rad.txDone.map (fun x => ((x.1 : Int), (x.2 : Int))) ++
  s.rad.groups.toList.filterMap (fun x => x.txSince.map (fun t => ((t : Int), (s.time.tb1 : Int)))) ++
  s.rad.groups.toList.flatMap (fun x => (x.bursts.filter (·.tx)).map (fun b => (b.start + shift, burstStop b + shift)))

/-- A TX burst keeps within DUTY_MAX in the 1,000 bins of 1 ms of TB1 whose last one holds its end (R228). -/
def dutyOk (s : State) (start stop : Nat) : Bool :=
  match s.rad.pasture with
  | none => false
  | some r =>
    let shift : Int := (s.time.tb1 : Int) - s.time.tb0
    let e : Int := stop + shift
    let last : Int := (e - 1) / (msTu : Int)
    decide (covered ((start + shift, e) :: txIntervals s) ((last - 999) * msTu) ((last + 1) * msTu) ≤ (r.dutyMax * msTu : Nat))

/-- A burst is refused or dropped for duty: LIC_DUTY and DUTY_LIMIT. -/
def dutyHit (s : State) : State :=
  (s.modRad (fun r => { r with dutySaid := some s.time.tb1 })).raise Reg.RAD_INT_STATUS 6

/-! ### Burst requests (R208…R210) -/

/-- Two intervals, each extended by 160 ns, intersect (R210). -/
def overlap (a0 a1 b0 b1 : Nat) : Bool := decide (a0 < b1 + 160 * nsTu) && decide (b0 < a1 + 160 * nsTu)

/-- The bursts of the opposite direction that a request overlaps in a TDD group (R210). -/
def opposed (s : State) (g : Nat) (tx : Bool) (start stop : Nat) : List Burst :=
  if (grp s g).fdd then []
  else (grp s g).bursts.filter (fun b => b.tx != tx && overlap start stop b.start (burstStop b))

/-- The flock holds a served layer of a direction on a carrier of the group. -/
def holdsGroup (s : State) (k : Nat) (ul : Bool) (g : Nat) : Bool :=
  (List.range 32).any (fun l => s.holder ul l == some k && (match layerCarrier s ul l with
    | some c => nbit c.groups g
    | none => false))

/-- The group is OFF and no command brings it to STANDBY 2 µs before the start (Table 8-3). -/
def notReady (s : State) (g start : Nat) : Bool :=
  let x := grp s g
  x.trans == some .off || (x.state == .off && (x.trans.isNone || decide (x.readyAt + 2 * usTu > start)))

/-- The refusal code of a burst request (Table 8-3); 0 when accepted. -/
def burstCode (s : State) (who : Requester) (g : Nat) (tx : Bool) (start ticks ret : Nat) : Nat :=
  let stop := start + ticks * tickTu
  let holds : Bool := match who with
    | .flock k => holdsGroup s k (!tx) g
    | _ => true
  let opp := opposed s g tx start stop
  if s.wrp.active.isNone then 0x01
  else if s.pwr.stage < 4 ∨ s.pwr.leaving4 then 0x02
  else if s.pwr.level = 3 then 0x03
  else if groupEmpty s g ∨ (groupCarriers s (!tx) g).isEmpty then 0x04
  else if ¬ holds then 0x05
  else if ticks = 0 ∨ ticks > 4915200 ∨ (gstateOf ret).isNone then 0x06
  else if ¬ s.locked then 0x07
  else if start > s.time.tb0 + 2 * secTu then 0x08
  else if start < s.time.tb0 + 4 * usTu + stackDelay s then 0x09
  else if notReady s g start then 0x0A
  else if ¬ opp.isEmpty ∧ (who ≠ .host ∨ opp.any (·.who == .host)) then 0x0B
  else if (grp s g).bursts.length ≥ 32 then 0x0C
  else if s.rad.calBook.any (fun c => c.1 == g && decide (start < c.2.2) && decide (c.2.1 < stop)) then 0x0D
  else if tx ∧ (s.rad.pasture.isNone ∨ groupOutOfRange s g ∨ ¬ dutyOk s start stop) then 0x0E
  else if tx ∧ throttledAt s g start then 0x0F
  else 0

/-- What a refusal of a burst leaves beside its report: the duty limit and the count of throttled bursts. -/
def burstRefused (s0 : State) (g start ticks code : Nat) (s : State) : State :=
  let s := if code = 0x0E ∧ s0.rad.pasture.isSome ∧ ¬ groupOutOfRange s0 g ∧ ¬ dutyOk s0 start (start + ticks * tickTu) then dutyHit s
    else s
  if code = 0x0F then s.addHi Reg.THM_THROTTLE 1 else s

/-- A flock burst whose request was complete in the same path sample as a host burst that it opposes: it is decided after the host's, so
that its acceptance, which still waits to be sent, becomes a refusal with CONFLICT (R210). -/
def conflictAfter (g k : Nat) (b : Burst) (s : State) : State :=
  let accepted := (b.port, flockMsg 0xA1 b.tag (beBytes 1 6 ++ beBytes 1 0 ++ beBytes 1 (b2n b.tx * 128 + g) ++ beBytes 1 0 ++
    time8 (burstBall s b)))
  flockBurstReport k b.port b.tag 7 0x0B b.tx g b.start
    ((removeBurst g b.seq s).modFlock k (fun f => { f with out := f.out.erase accepted }))

/-- A flock burst that a host burst overlaps: dropped, or cut 160 ns before the host burst; one of the same path sample was never
accepted (R210). -/
def hostClears (g start : Nat) (b : Burst) (s : State) : State :=
  let t := pathPeriod s.pwr.level
  if b.started then modBurst g b.seq (fun b => { b with cut := some (min (burstStop b) (start - 160 * nsTu)), code := 0x27 }) s
  else
    match b.who with
    | .flock k => if b.doneAt / t = s.time.tb0 / t ∧ ¬ b.prep then conflictAfter g k b s else burstOut g b 0x27 s
    | _ => burstOut g b 0x27 s

/-- Enter an accepted burst (R208, R210). -/
def burstAccept (who : Requester) (port tag g : Nat) (tx : Bool) (start ticks : Nat) (ret : GState) (s : State) : State :=
  let s := forAll (opposed s g tx start (start + ticks * tickTu)) (hostClears g start) s
  let seq := s.rad.seq + 1
  let s := s.modRad (fun r => { r with seq := seq })
  s.modGroup g (fun x => { x with
    bursts := x.bursts ++ [{ who := who, port := port, tag := tag, tx := tx, start := start, len := ticks * tickTu, ret := ret
                             seq := seq, doneAt := s.time.tb0 }] })

/-- The bellwether relays an accepted burst (R324, Table 12-5). -/
def relayBurst (tag g : Nat) (tx : Bool) (start ticks ret : Nat) (s : State) : State :=
  relayControl 0x03 tag
    (beBytes 1 (b2n tx * 128 + ret * 16 + g) ++ beBytes 3 0 ++ beBytes 4 ticks ++ timeBe start) s

/-- RAD_BURST_CTRL with GO (R208, R209). -/
def burstCtrlWrite (w : Word) (s : State) : State :=
  if ¬ bitOf w 31 then s
  else
    let tx := bitOf w 30
    let ret := fld w 29 27
    let g := fld w 18 16
    let ticks := s.fld Reg.RAD_BURST_LEN 22 0
    let start := timeNear s.time.tb0 (s.reg Reg.RAD_BURST_TIME_S).toNat (s.reg Reg.RAD_BURST_TIME_NS).toNat
    match burstCode s .host g tx start ticks ret, gstateOf ret with
    | 0, some st =>
      let tag := (s.rad.hostTag + 1) % 65536
      let s := (s.modRad (fun r => { r with hostTag := tag })).setReg Reg.RAD_BURST_RESULT (pk [(30, 1), (0, tag)])
      relayBurst tag g tx start ticks ret (burstAccept .host 0 tag g tx start ticks st s)
    | code, _ =>
      let s' := (s.setReg Reg.RAD_BURST_RESULT (pk [(30, 2), (16, code)])).raise Reg.RAD_INT_STATUS 1
      burstRefused s g start ticks code s'

/-- RAD_BURST_CTRL_GO (R209). -/
def execRadBurstCtrlGo (w : Word) (s : State) : Host.Outcome State Fault Refusal :=
  .next (s.hosted Reg.RAD_BURST_CTRL (burstCtrlWrite w))

/-- The refusal code of a flock's BURST_REQ body (Table 10-5); 0 when accepted. -/
def flockBurstCode (s : State) (k : Nat) (b : List Byte) : Nat :=
  burstCode s (.flock k) (byteAt b 0 % 8) (nbit (byteAt b 0) 7) (timeNear s.time.tb0 (be b 8 4) (be b 12 4)) (be b 4 4)
    (byteAt b 0 / 16 % 8)

/-- A BURST_REQ body of a flock. -/
def flockBurst (k port tag : Nat) (b : List Byte) (s : State) : State :=
  let tx := nbit (byteAt b 0) 7
  let ret := byteAt b 0 / 16 % 8
  let g := byteAt b 0 % 8
  let ticks := be b 4 4
  let start := timeNear s.time.tb0 (be b 8 4) (be b 12 4)
  match flockBurstCode s k b, gstateOf ret with
  | 0, some st =>
    relayBurst tag g tx start ticks ret
      (burstAccept (.flock k) port tag g tx start ticks st (flockBurstReport k port tag 6 0 tx g (startBall s tx start) s))
  | code, _ => burstRefused s g start ticks code (flockBurstReport k port tag 7 code tx g start s)

/-- A CONTROL BURST body on a member: the burst enters the schedule its bellwether accepted it in (R324). -/
def controlBurst (tag : Nat) (b : List Byte) (s : State) : State :=
  match gstateOf (byteAt b 0 / 16 % 8) with
  | some st => burstAccept .bellwether 0 tag (byteAt b 0 % 8) (nbit (byteAt b 0) 7) (timeOfBe b 8) (be b 4 4) st s
  | none => s

/-! ### Preparation, start and end (R205, R211, R212) -/

/-- The device starts the transition to a burst's state (R205): a TDD group leaves RX for it. -/
def burstPrepare (g : Nat) (s : State) : State :=
  match firstBurst (·.start) ((grp s g).bursts.filter (fun b => !b.prep && !b.started)) with
  | none => s
  | some b =>
    let s := modBurst g b.seq (fun b => { b with prep := true }) s
    let x := grp s g
    let to_ : GState := if b.tx then .tx else .rx
    if x.state = to_ ∨ x.state = .off ∨ x.calNow ∨ (x.fdd ∧ x.state = .tx) ∨ x.bursts.any (·.started) then s
    else
      let s := if x.state = .rx ∧ ¬ x.fdd then enterGroup g .guard s else s
      s.modGroup g (fun x => { x with trans := some to_, transAt := b.start, then_ := none })

/-- BURST_PREPARATION (R205). -/
def execBurstPreparation (g : Fin 8) (s : State) : Host.Outcome State Fault Refusal := .next (burstPrepare g s)

/-- The code that drops a TX burst at its start (R47, R212, R290); 0 when it starts. -/
def startCode (s : State) (g : Nat) (b : Burst) : Nat :=
  if ¬ b.tx then 0
  else if ¬ s.locked then 0x24
  else if s.pwr.leaving4 ∨ s.pwr.stage < 4 then 0x25
  else if ¬ groupRoleValid s false g then 0x20
  else if throttledAt s g b.start then 0x22
  else if s.rad.pasture.isNone ∨ groupOutOfRange s g ∨ ¬ dutyOk s b.start (b.start + b.len) then 0x23
  else 0

/-- A forced calibration or swap runs on the TX role of a group (R147). -/
def forcedJob (s : State) (g : Nat) : Bool :=
  match groupRole s false g with
  | some r =>
    let x := vget s.syn.roles r
    (x.calForce && (roleUnit s r).cal) || (x.swapForce && x.swapRun)
  | none => false

/-- A burst STARTED is an event of its flock, at its start ball time at zero trim (Table 13-7). -/
def flockStarted (b : Burst) (s : State) : State :=
  match b.who with
  | .flock k => flockEvent k (if b.tx then 2 else 3) (toTb3 s (burstBall s b)) s
  | _ => s

/-- A burst reaches its start (R212). -/
def burstStart (g : Nat) (s : State) : State :=
  match firstBurst (·.start) ((grp s g).bursts.filter (fun b => !b.started)) with
  | none => s
  | some b =>
    let code := startCode s g b
    if code ≠ 0 then
      let s := if code = 0x23 ∧ s.rad.pasture.isSome ∧ ¬ groupOutOfRange s g then dutyHit s else s
      let s := if code = 0x20 ∧ forcedJob s g then s.raise Reg.SYN_INT_STATUS 5 else s
      burstOut g b code s
    else
      let s := modBurst g b.seq (fun b => { b with prep := true, started := true }) s
      let s := s.modGroup g (fun x => { x with trans := none, then_ := none })
      let s := if b.tx then enterGroup g .tx s else if (grp s g).fdd ∧ (grp s g).state = .tx then s else enterGroup g .rx s
      flockStarted b (burstReport g b 1 0 s)

/-- BURST_START (R212). -/
def execBurstStart (g : Fin 8) (s : State) : Host.Outcome State Fault Refusal := .next (burstStart g s)

/-- The running burst that ends first reaches its end or its cut (R211). -/
def burstEnd (g : Nat) (s : State) : State :=
  match firstBurst burstStop ((grp s g).bursts.filter (·.started)) with
  | none => s
  | some b => burstOut g b (if b.cut.isSome then b.code else 0) s

/-- BURST_END (R211). -/
def execBurstEnd (g : Fin 8) (s : State) : Host.Outcome State Fault Refusal := .next (burstEnd g s)

/-- RAD_REPORT_POP (R213). -/
def execRadReportPop (s : State) : Host.Outcome State Fault Refusal :=
  .next (s.hosted Reg.RAD_REPORT_POP (fun s => s.modRad (fun r => { r with reports := r.reports.drop 1 })))

/-- After a reweave switch, the bursts of a group that carries no carrier of their direction are discarded (R212). -/
def uncarriedOut (s : State) : State :=
  forAll (List.range 8) (fun g s => burstsOut g 0x25 (fun b => (groupCarriers s (!b.tx) g).isEmpty) s) s

/-! ### Timed lines (R215…R217) -/

/-- The line group of a fold: the group of its lowest-numbered enabled path. -/
def lineGroup (s : State) (f : Nat) : Option Nat :=
  ((List.range 8).find? (fun i => (s.pathCfg (8 * f + i)).txEn || (s.pathCfg (8 * f + i)).rxEn)).map (fun i => s.groupOf (8 * f + i))

/-- The settings in force of a line. -/
def lineSet (s : State) (f n : Nat) : Word := tget (fun _ => 0x30000000) s.rad.lineCfg (4 * f + n)

/-- RAD_LINE_CFG: it takes effect at the next boundary of the line group. -/
def lineCfgWrite (f n : Nat) (w : Word) (s : State) : State := s.setReg (Reg.RAD_LINE_CFG f n) (w &&& 0x73FF03FF)

/-- RAD_LINE_CFG_WRITE (R215). -/
def execRadLineCfgWrite (f : Fin 8) (n : Fin 4) (w : Word) (s : State) : Host.Outcome State Fault Refusal :=
  .next (s.hosted (Reg.RAD_LINE_CFG f n) (lineCfgWrite f n w))

/-- At a boundary of a group, the lines of its folds take their settings. -/
def lineBoundary (g : Nat) (s : State) : State :=
  forAll ((List.range 8).filter (fun f => lineGroup s f == some g)) (fun f s =>
    forAll (List.range 4) (fun n s =>
      let w := s.reg (Reg.RAD_LINE_CFG f n)
      s.modRad (fun r => { r with lineCfg := tset (fun _ => 0x30000000) r.lineCfg (4 * f + n) w })) s) s

/-- The windows a line can follow: TX, RX and CAL (R215). -/
inductive LineWin where
  | tx | rx | cal
  deriving DecidableEq, Repr

/-- The group is in a window now. -/
def inWindow (s : State) (g : Nat) : LineWin → Bool
  | .tx => groupTx s g
  | .rx => groupRx s g
  | .cal => (grp s g).state == .cal

/-- A window of the group starts within `adv` time units (R215). -/
def windowSoon (s : State) (g adv : Nat) (w : LineWin) : Bool :=
  let x := grp s g
  let t := s.time.tb0 + adv
  let soon := fun (tx : Bool) => x.bursts.any (fun b => !b.started && b.tx == tx && decide (burstBall s b ≤ t))
  match w with
  | .tx => soon true
  | .rx => soon false || (x.fdd && soon true) || (x.trans == some .rx && decide (x.transAt ≤ t))
  | .cal => s.rad.calBook.any (fun c => c.1 == g && decide (c.2.1 ≤ t) && decide (s.time.tb0 < c.2.2))

/-- A window of the group ended less than `hold` time units ago. -/
def windowHeld (s : State) (g hold : Nat) (w : LineWin) : Bool :=
  let x := grp s g
  match (match w with | .tx => x.txEnd | .rx => x.rxEnd | .cal => x.calEnd) with
  | some e => decide (s.time.tb0 < e + hold)
  | none => false

/-- The line would be active by its window. -/
def lineWants (s : State) (g f n : Nat) (w : LineWin) : Bool :=
  let c := lineSet s f n
  inWindow s g w || windowSoon s g (fld c 9 0 * tickTu) w || windowHeld s g (fld c 25 16 * tickTu) w

/-- A survey of a path of the fold asks for its AUX line (R200). -/
def surveyAux (s : State) (f : Nat) : Bool := s.dpd.surveys.any (fun v => v.granted && v.path / 8 == f && bitOf v.cfg 19)

/-- AUX follows its SRC; DPD_SURVEY_CFG.AUX overrides it during a survey (R200, R215). -/
def auxWants (s : State) (g f : Nat) : Bool :=
  if surveyAux s f then true else
  match fld (lineSet s f 3) 30 28 with
  | 0 => lineWants s g f 3 .tx
  | 1 => lineWants s g f 3 .rx
  | 2 => lineWants s g f 3 .cal
  | 4 => true
  | _ => false

/-- The lines of a fold at a tick: in a TDD group PA_EN and LNA_EN are never active together, and the second waits for one tick
after the first (R216). -/
def lineTickFold (f : Nat) (s : State) : State :=
  match lineGroup s f with
  | none => s.modRad (fun r => { r with lineOn := vset r.lineOn f 0, lineHeld := vset r.lineHeld f false })
  | some g =>
    let old := vget s.rad.lineOn f
    let pa := lineWants s g f 1 .tx
    let lna := lineWants s g f 2 .rx
    let tdd := !(grp s g).fdd
    let paHeld := tdd && pa && !nbit old 1 && nbit old 2
    let pa' := pa && !paHeld
    let lnaHeld := tdd && lna && !nbit old 2 && (nbit old 1 || pa')
    let lna' := lna && !lnaHeld && !(tdd && nbit old 2 && pa')
    let held := paHeld || lnaHeld
    let s := if held ∧ ¬ vget s.rad.lineHeld f then (s.addLo Reg.RAD_LINE_CLIP 1).raise Reg.RAD_INT_STATUS 9 else s
    let on := bitsOf 4 (fun n => match n with
      | 0 => lineWants s g f 0 .tx
      | 1 => pa'
      | 2 => lna'
      | _ => auxWants s g f)
    s.modRad (fun r => { r with lineOn := vset r.lineOn f on, lineHeld := vset r.lineHeld f held })

/-- The lines at a tick. -/
def lineTick (s : State) : State := forAll (List.range 8) lineTickFold s

/-- The level at a line's pin (R217): the safe-bias record's until a warp commits and while safe bias is applied; otherwise active
or inactive as FOLD entry byte 1 says (R76). -/
def lineLevel (s : State) (f n : Nat) : Bool :=
  if s.wrp.active.isNone ∨ s.bda.safe then s.bda.recordOk && nbit (safeLines s.bda.record) (4 * f + n)
  else nbit (vget s.rad.lineOn f) n == nbit (vget s.warp.folds f).lines n

end Sys2Proof.Machine
end

