-- ==== Sys2Proof/Machine/Rffe.lean ====
section
/-!
DEFINITION. The RFFE buses (R218, R219), and what the RAD registers show (R230).
-/

namespace Sys2Proof.Machine

/-! ### Commands and frames -/

/-- TYPE of a command. -/
def rffeType (w : Word) : Nat := fld w 30 28
/-- The byte count of a command. -/
def rffeCount (w : Word) : Nat := fld w 25 24 + 1
/-- A command is a read. -/
def rffeIsRead (w : Word) : Bool := rffeType w == 2 || rffeType w == 4 || rffeType w == 6

/-- A frame's duration in time units: SCLK at 13 or 26 MHz, reads at half rate with HALF_READ (R218). -/
def rffeTu (cfg w : Word) : Nat :=
  let half := if bitOf cfg 2 ∧ rffeIsRead w then 2 else 1
  divUp (Config.rffeCycles (rffeType w) (rffeCount w) * half * usTu) (if fld cfg 1 0 = 0 then 13 else 26)

/-- The bus that `f` names. -/
def rffe (s : State) (f : Nat) : Rffe := vget s.rad.rffe f

/-- Change a bus. -/
def modRffe (f : Nat) (g : Rffe → Rffe) (s : State) : State := s.modRad (fun r => { r with rffe := vmod r.rffe f g })

/-- The outcome of a GO in RAD_RFFE_STATUS: 0 accepted, or a refusal code. -/
def rffeOutcome (f code : Nat) (s : State) : State :=
  let w := s.reg (Reg.RAD_RFFE_STATUS f)
  s.setReg (Reg.RAD_RFFE_STATUS f) (put (put w 30 29 (if code = 0 then 1 else 2)) 23 16 code)

/-- A TYPE is undefined, or a one-byte sequence has another byte count (R219). -/
def rffeBadType (w : Word) : Bool := rffeType w == 7 || (decide (rffeType w ≤ 2) && rffeCount w != 1)

/-- A frame goes on the bus: a read clears RDATA_VALID until it has its data (R218). -/
def rffeSend (f : Nat) (c : RffeCmd) (s : State) : State :=
  let s := if rffeIsRead c.cmd then s.setFld (Reg.RAD_RFFE_STATUS f) 0 0 0 else s
  modRffe f (fun b => { b with run := some c }) s

/-- A frame that starts now would overlap a queued timed frame (R219). -/
def rffeOverlaps (s : State) (f : Nat) (w : Word) : Bool :=
  let cfg := s.reg (Reg.RAD_RFFE_CFG f)
  (rffe s f).queue.any (fun c => decide (c.air.getD 0 < s.time.tb0 + rffeTu cfg w + rffeTu cfg c.cmd))

/-- An idle bus takes a late timed frame, or the first immediate command that overlaps none (R219). -/
def rffeNext (f : Nat) (s : State) : State :=
  let b := rffe s f
  if b.run.isSome then s
  else
    match b.late, b.queue, b.imm with
    | true, c :: rest, _ => rffeSend f c (modRffe f (fun b => { b with queue := rest, late := false }) s)
    | _, _, c :: rest =>
      if rffeOverlaps s f c.cmd then s else rffeSend f c (modRffe f (fun b => { b with imm := rest }) s)
    | _, _, _ => s

/-- An immediate command (R219): it goes on the bus when it is next idle. -/
def rffeImmediate (f : Nat) (w : Word) (s : State) : State :=
  if ¬ bitOf w 31 then s
  else if rffeBadType w then rffeOutcome f 2 s
  else if ¬ s.bit (Reg.RAD_RFFE_CFG f) 31 then rffeOutcome f 4 s
  else
    let c : RffeCmd := { cmd := w, wdata := s.reg (Reg.RAD_RFFE_WDATA f), air := none }
    rffeNext f (modRffe f (fun b => { b with imm := b.imm ++ [c] }) (rffeOutcome f 0 s))

/-- RFFE_IMMEDIATE_CMD (R219). -/
def execRffeImmediateCmd (f : Fin 8) (w : Word) (s : State) : Host.Outcome State Fault Refusal :=
  .next (s.hosted (Reg.RAD_RFFE_CMD f) (rffeImmediate f w))

/-- A timed command (R219). -/
def rffeTimed (f : Nat) (w : Word) (s : State) : State :=
  if ¬ bitOf w 31 then s
  else
    let air := timeNear s.time.tb0 (s.reg (Reg.RAD_RFFE_TIME_S f)).toNat (s.reg (Reg.RAD_RFFE_TIME_NS f)).toNat
    let code :=
      if (rffe s f).queue.length ≥ 16 then 1
      else if ¬ s.locked then 3
      else if rffeBadType w then 2
      else if ¬ s.bit (Reg.RAD_RFFE_CFG f) 31 then 4
      else if air < s.time.tb0 + rffeTu (s.reg (Reg.RAD_RFFE_CFG f)) w + usTu then 5
      else 0
    let s := rffeOutcome f code s
    if code ≠ 0 then s
    else
      let c : RffeCmd := { cmd := w, wdata := s.reg (Reg.RAD_RFFE_WDATA f), air := some air }
      modRffe f (fun b => { b with queue := insertBy (fun a b => decide (a.air.getD 0 ≤ b.air.getD 0)) c b.queue }) s

/-- RFFE_TIMED_CMD (R219). -/
def execRffeTimedCmd (f : Fin 8) (w : Word) (s : State) : Host.Outcome State Fault Refusal :=
  .next (s.hosted (Reg.RAD_RFFE_CMD f) (rffeTimed f w))

/-- A write of RAD_RFFE_CMD: TIMED selects which. -/
def rffeCmdWrite (f : Nat) (w : Word) (s : State) : State := if bitOf w 27 then rffeTimed f w s else rffeImmediate f w s

/-- The head of the timed queue is due: it goes on the bus, or is late behind the frame that holds it (R219). -/
def rffeDue (f : Nat) (s : State) : State :=
  let b := rffe s f
  match b.queue with
  | [] => s
  | c :: rest =>
    if b.run.isNone then rffeSend f c (modRffe f (fun b => { b with queue := rest, late := false }) s)
    else if b.late then s
    else ((modRffe f (fun b => { b with late := true }) s).addHi (Reg.RAD_RFFE_COUNT f) 1).raise Reg.RAD_INT_STATUS 10

/-- RFFE_TIMED_FRAME_SEND (R219). -/
def execRffeTimedFrameSend (f : Fin 8) (s : State) : Host.Outcome State Fault Refusal := .next (rffeDue f s)

/-- A frame ends (R218): `data` are the bytes a read returned, first byte in [7:0], and `parity` tells a parity error in them. -/
def rffeDone (f : Nat) (data : Word) (parity : Bool) (s : State) : State :=
  match (rffe s f).run with
  | none => s
  | some c =>
    let s := modRffe f (fun b => { b with run := none }) s
    let s :=
      if ¬ rffeIsRead c.cmd then s
      else if parity then (s.addLo (Reg.RAD_RFFE_COUNT f) 1).raise Reg.RAD_INT_STATUS 11
      else
        (s.setReg (Reg.RAD_RFFE_RDATA f) (BitVec.ofNat 32 (data.toNat % 2 ^ (8 * rffeCount c.cmd)))).setFld
          (Reg.RAD_RFFE_STATUS f) 0 0 1
    rffeNext f s

/-- RFFE_FRAME_DONE (R218). -/
def execRffeFrameDone (f : Fin 8) (data : Word) (parity : Bool) (s : State) : Host.Outcome State Fault Refusal :=
  .next (rffeDone f data parity s)

/-! ### What the registers show (Table 8-8) -/

/-- RAD_RFFE_STATUS. -/
def radRffeStatus (s : State) (f : Nat) : Word :=
  put (put (s.reg (Reg.RAD_RFFE_STATUS f)) 31 31 (b2n (rffe s f).run.isSome)) 28 24 (rffe s f).queue.length

/-- The return state in force of a group: that of the running or prepared burst that ends last, or the one it goes back to. -/
def returnState (s : State) (g : Nat) : GState :=
  let l := (grp s g).bursts.filter (fun b => b.started || b.prep)
  match l.foldl (fun best b => match best with
      | none => some b
      | some x => if burstStop x ≤ burstStop b then some b else some x) none with
  | some b => b.ret
  | none => (grp s g).ret

/-- RAD_GROUP_STATUS; without a warp there are no groups, so EMPTY reads 0 (DEDUCED from its reset value). -/
def radGroupStatus (s : State) (g : Nat) : Word :=
  let x := grp s g
  pk [(29, gcode x.state), (28, b2n x.fdd), (27, b2n (s.wrp.active.isSome && groupEmpty s g)), (26, b2n x.trans.isSome),
      (23, gcode (returnState s g)), (22, b2n (groupRoleValid s false g)), (21, b2n (groupRoleValid s true g)),
      (8, bitsOf 8 (fun f => lineGroup s f == some g)), (0, x.bursts.length)]

/-- RAD_REPORT: word `i` of the head report; zero when empty. -/
def radReport (s : State) (i : Nat) : Word :=
  match s.rad.reports with
  | [] => 0
  | r :: _ =>
    if i = 0 then pk [(28, r.outcome), (27, b2n r.tx), (24, r.group), (16, r.code), (0, r.tag)]
    else if i = 1 then BitVec.ofNat 32 (secOf r.start)
    else BitVec.ofNat 32 (nsOf r.start)

/-- TX milliseconds of the last 1,000 ms, rounded up. -/
def txMs (s : State) : Nat :=
  let now : Int := s.time.tb1
  let done := s.rad.txDone.map (fun x => ((x.1 : Int), (x.2 : Int)))
  let run := s.rad.groups.toList.filterMap (fun x => x.txSince.map (fun t => ((t : Int), now)))
  divUp (covered (done ++ run) (now - secTu) now).toNat msTu

/-- RAD_DUTY. -/
def radDuty (s : State) : Word :=
  pk [(16, match s.rad.pasture with | some r => r.dutyMax | none => 0), (0, txMs s)]

/-- Some group has a carrier that is not permitted (R224). -/
def rangeMute (s : State) : Bool := s.rad.groups.toList.any (·.licRange)

/-- RAD_LIC_STATUS. -/
def radLicStatus (s : State) : Word :=
  pk [(31, b2n s.rad.pasture.isSome), (30, b2n (match s.rad.pasture with | some r => r.surveyAllow | none => false)),
      (7, b2n (match s.rad.dutySaid with | some t => decide (s.time.tb1 ≤ t + secTu) | none => false)),
      (6, b2n (decide (s.rad.aggAtten > 0))), (5, b2n (s.paths.toList.any (fun p => decide (p.licAtten > 0)))),
      (4, b2n (rangeMute s))]

/-- RAD_LIC_AGG. -/
def radLicAgg (s : State) : Word := pk [(16, min 255 s.rad.aggAtten), (0, ofS 16 s.rad.aggEst)]

/-- RAD_LIC_PATH. -/
def radLicPath (s : State) (p : Nat) : Word := pk [(24, min 255 (pathOf s p).licAtten), (0, ofS 16 (pathOf s p).licEst)]

end Sys2Proof.Machine
end

