-- ==== Sys2Proof/Machine/Licence.lean ====
section
/-!
DEFINITION. The pasture record and its enforcement (R220…R229): its fields, the window it is written through, and the power limits.
-/

namespace Sys2Proof.Machine

/-! ### The record (R221) -/

/-- The 172 bytes of Table 8-5 as a record in force. -/
def pastureOf (b : List Byte) : Pasture :=
  { seq := le b 8 4, region := le b 0xC 2, surveyAllow := nbit (byteAt b 0xF) 0
    pmaxPath := toS 16 (le b 0x10 2), pmaxAgg := toS 16 (le b 0x12 2), dutyMax := le b 0x14 2, gext := toS 16 (le b 0x16 2)
    ranges := (List.range (min 16 (byteAt b 0xE))).map (fun i => (le b (0x28 + 8 * i) 4, le b (0x2C + 8 * i) 4))
    bytes := b.take 172 }

/-- MAGIC, FORMAT, LEN and the reserved bits of a record are right. -/
def pastureForm (b : List Byte) : Bool :=
  b.take 4 == [0x50, 0x41, 0x53, 0x54] && le b 4 2 == 1 && le b 6 2 == 172 && decide (byteAt b 0xF < 2)

/-- COUNT, the ranges, DUTY_MAX and the unused entries keep to Table 8-5. -/
def pastureContent (b : List Byte) : Bool :=
  let n := byteAt b 0xE
  decide (1 ≤ n) && decide (n ≤ 16) && decide (1 ≤ le b 0x14 2) && decide (le b 0x14 2 ≤ 1000) &&
  (List.range 16).all (fun i =>
    let lo := le b (0x28 + 8 * i) 4
    let hi := le b (0x2C + 8 * i) 4
    if i < n then decide (lo < hi) && decide (600000 ≤ lo) && decide (hi ≤ 7200000) else lo == 0 && hi == 0)

/-- A record of 172 bytes with its signature block verifies under the integrator key (R73, R221). -/
def pastureSigned (s : State) (b : List Byte) : Bool :=
  sigKeyOk (b.drop 172) s.fuse.keyHash && sigOk (b.drop 172) (b.take 172)

/-- A stored record is valid: its form, check word, key, signature and content (R221). -/
def pastureValid (s : State) (b : List Byte) : Bool :=
  pastureForm b && le b 0xA8 4 == crc32c (b.take 0xA8) && pastureSigned s b && pastureContent b

/-- Put a record in force, or none: carriers are rechecked at once, and the chains it mutes are muted (R220, R223, R224). -/
def pastureForce (r : Option Pasture) (s : State) : State :=
  refreshMutes (recheckRange (s.modRad (fun x => { x with pasture := r })))

/-! ### Writing it (R222) -/

/-- The bytes of the challenge. -/
def pastNonce (s : State) : List Byte := leBytes 16 s.nvs.pastNonce

/-- Draw a new challenge. -/
def pastDraw (s : State) : State :=
  let (n, s) := s.draw
  s.modNvs (fun v => { v with pastNonce := (Config.challenge n).toNat })

/-- The first code of Table 8-6 that refuses a write; 0 when none does. -/
def pastCode (s : State) : Nat :=
  let b := s.nvs.pastStage.bytes
  if s.nvs.pastBusy then 9
  else if ¬ s.nvs.pastStage.fits 75 ∨ ¬ pastureForm b then 1
  else if le b 0xA8 4 ≠ crc32c (b.take 0xA8) then 2
  else if ¬ sigKeyOk (b.drop 172) s.fuse.keyHash then 3
  else if ¬ sigOk (b.drop 172) (b.take 172) then 4
  else if slice b 0x18 16 ≠ pastNonce s then 5
  else if (match s.rad.pasture with | some r => decide (le b 8 4 ≤ r.seq) | none => false) then 6
  else if ¬ pastureContent b then 7
  else 0

/-- NVS_PAST_STATUS: 1 DONE, 2 REFUSED, 3 IN_PROGRESS. -/
def pastStatus (outcome code : Nat) (s : State) : State :=
  let s := s.setReg Reg.NVS_PAST_STATUS (pk [(30, outcome), (16, code)])
  if outcome = 3 then s else s.raise Reg.RAD_INT_STATUS 8

/-- The write ends: its buffer is emptied (R443). -/
def pastEnd (outcome code : Nat) (s : State) : State :=
  pastStatus outcome code (s.modNvs (fun v => { v with pastStage := {}, pastBusy := false }))

/-- NVS_PAST_CTRL.WRITE (R222). -/
def pastWrite (s : State) : State :=
  let c := pastCode s
  let s :=
    if c = 9 then pastStatus 2 9 s
    else if c ≠ 0 then pastEnd 2 c s
    else
      let s := queueWrite { origin := .pastPort, base := sysBase 5, pitch := 0x800, type := 5, body := s.nvs.pastStage.bytes } s
      pastStatus 3 0 (s.modNvs (fun v => { v with pastBusy := true }))
  pastDraw s

/-- PASTURE_WRITE (R222). -/
def execPastureWrite (s : State) : Host.Outcome State Fault Refusal := .next (s.hosted Reg.NVS_PAST_CTRL pastWrite)

/-- Empty the pasture staging buffer. -/
def pastClear (s : State) : State := s.modNvs (fun v => { v with pastStage := {} })

/-- PASTURE_CLEAR (R481). -/
def execPastureClear (s : State) : Host.Outcome State Fault Refusal := .next (s.hosted Reg.NVS_PAST_CTRL pastClear)

/-- A write of NVS_PAST_CTRL: CLEAR, then WRITE (R481). -/
def pastCtrlWrite (w : Word) (s : State) : State :=
  let s := if bitOf w 1 then pastClear s else s
  if bitOf w 0 then pastWrite s else s

/-- Stage a word in NVS_PAST_DATA (R443). -/
def pastData (w : Word) (s : State) : State :=
  let past := s.nvs.pastStage.words.length ≥ 75
  let s := s.modNvs (fun v => { v with pastStage := v.pastStage.push 75 w })
  if past then s.refusedWrite Reg.NVS_PAST_DATA else s

/-- NVS_PAST_DATA_WRITE (R443). -/
def execNvsPastDataWrite (w : Word) (s : State) : Host.Outcome State Fault Refusal :=
  .next (s.hosted Reg.NVS_PAST_DATA (pastData w))

/-- NVS_PAST_STATUS with the words staged. -/
def nvsPastStatus (s : State) : Word := put (s.reg Reg.NVS_PAST_STATUS) 6 0 s.nvs.pastStage.words.length

/-- NVS_PAST_NONCE. -/
def nvsPastNonce (s : State) (i : Nat) : Word := BitVec.ofNat 32 (le (pastNonce s) (4 * i) 4)

/-- NVS_PAST_RECORD: word `i` of the record in force. -/
def nvsPastRecord (s : State) (i : Nat) : Word :=
  match s.rad.pasture with
  | some r => BitVec.ofNat 32 (le r.bytes (4 * i) 4)
  | none => 0

/-! ### Power limits (R225…R227) -/

/-- The external gain of the estimate: G_meas while VALID, at least GEXT (R225). -/
def extGain (s : State) (r : Pasture) (p : Nat) : Int :=
  let w := s.reg (Reg.RAD_GEXT p)
  if bitOf w 31 then max (toS 16 (fld w 15 0)) r.gext else r.gext

/-- The conducted power of a chain in 0.01 dBm, for its mean level in 0.01 dBFS (R225). -/
def pathPower (s : State) (r : Pasture) (p : Nat) (level : Int) : Int :=
  level + 800 - 25 * (appliedTx s p : Nat) + extGain s r p

/-- Steps of 0.25 dB that an excess in 0.01 dB needs, rounded up. -/
def excessSteps (x : Int) : Nat := if x > 0 then divUp x.toNat 25 else 0

/-- One chain's part of a window (R225, R227). -/
def pathWindow (r : Pasture) (p : Nat) (level : Int) (s : State) : State :=
  let e := pathPower s r p level
  let up := excessSteps (e - r.pmaxPath)
  let s := s.modPath p (fun x => { x with
    licEst := e, licAtten := x.licAtten + up
    licQuietSince := if e + 25 ≤ r.pmaxPath - 100 then x.licQuietSince else s.time.tb1 })
  if up > 0 then refreshPath p (s.raise Reg.RAD_INT_STATUS 4) else s

/-- The power sum in 0.01 dBm of powers in 0.01 dBm (R226). -/
def powerSum (l : List Int) : Int :=
  centiBel (l.foldl (fun a x => a + pow10Fx x 1000) 0).toNat - centiBel (2 ^ 96)

/-- A 100 µs window ends (R225, R226): `levels` gives the mean level of each path's predistorter output over the samples of the window in
which its chain was LIVE, in 0.01 dBFS, and none for a chain that was LIVE in none of them. -/
def powerWindow (levels : List (Option Int)) (s : State) : State :=
  match s.rad.pasture with
  | none => s
  | some r =>
    let live := (List.range 64).filterMap (fun p => (levels.getD p none).map (fun x => (p, x)))
    let ps := live.map (fun q => pathPower s r q.1 q.2)
    let agg := powerSum ps
    let s := forAll live (fun q s => pathWindow r q.1 q.2 s) s
    if live.isEmpty then s
    else
      let up := excessSteps (agg - r.pmaxAgg)
      let s := s.modRad (fun x => { x with
        aggEst := agg, aggAtten := x.aggAtten + up
        aggQuietSince := if agg + 25 ≤ r.pmaxAgg - 100 then x.aggQuietSince else s.time.tb1 })
      if up > 0 then refreshMutes (s.raise Reg.RAD_INT_STATUS 5) else s

/-- LICENCE_POWER_WINDOW (R225, R226). -/
def execLicencePowerWindow (levels : List (Option Int)) (s : State) : Host.Outcome State Fault Refusal := .next (powerWindow levels s)

/-- LIC_ATTEN of a path, or AGG_ATTEN, falls one step after a full second well below the limit (R227). -/
def attenRelax (p : Option Nat) (s : State) : State :=
  match p with
  | some p =>
    let x := pathOf s p
    if x.licAtten > 0 ∧ x.licQuietSince + secTu ≤ s.time.tb1 then
      s.modPath p (fun x => { x with licAtten := x.licAtten - 1, licQuietSince := s.time.tb1 })
    else s
  | none =>
    if s.rad.aggAtten > 0 ∧ s.rad.aggQuietSince + secTu ≤ s.time.tb1 then
      s.modRad (fun r => { r with aggAtten := r.aggAtten - 1, aggQuietSince := s.time.tb1 })
    else s

/-- LICENCE_ATTEN_RELAX (R227): at a group boundary, for a path or for the aggregate. -/
def execLicenceAttenRelax (p : Option (Fin 64)) (s : State) : Host.Outcome State Fault Refusal :=
  .next (attenRelax (p.map (·.val)) s)

end Sys2Proof.Machine
end

