-- ==== Sys2Proof/Machine/Cal.lean ====
section
/-!
DEFINITION. Calibrations (R427…R436): seeds, requests, intervals, results, and the records they leave.
-/

namespace Sys2Proof.Machine

/-! ### What a calibration needs and takes (Table 16-9) -/

/-- CAL time of a calibration. -/
def calTu (id : Nat) : Nat :=
  match id with
  | 1 => 200 * usTu | 2 => 300 * usTu | 3 => 500 * usTu | 4 => 500 * usTu | 5 => 400 * usTu
  | 8 => 2000 * usTu | 9 => 1000 * usTu | 10 => 5000 * usTu
  | _ => 0

/-- An ID that a request may name: OSC runs through SYN (R433). -/
def calIdOk (id : Nat) : Bool := id == 1 || id == 2 || id == 3 || id == 4 || id == 5 || id == 8 || id == 9 || id == 10

/-- The LO of a path's direction is valid. -/
def pathLoValid (s : State) (tx : Bool) (p : Nat) : Bool := roleValid s (s.loRole tx p)

/-- The non-empty groups of a mask. -/
def maskGroups (s : State) (m : Nat) : List Nat := (List.range 8).filter (fun g => nbit m g && !groupEmpty s g)

/-- The roles of the groups named. -/
def maskRoles (s : State) (m : Nat) : List Nat :=
  (List.range 2).filter (fun r => (maskGroups s m).any (fun g => groupRole s false g == some r || groupRole s true g == some r))

/-- The array reference: the lowest-numbered enabled path on the roles of the groups with neither chain FAULTED (R429). -/
def arrayRef (s : State) (m : Nat) : Option Nat :=
  (List.range 64).find? (fun p =>
    let c := s.pathCfg p
    (c.txEn || c.rxEn) && (pathOf s p).txFault == 0 && (pathOf s p).rxFault == 0 &&
      ((maskRoles s m).contains (s.loRole true p) || (maskRoles s m).contains (s.loRole false p)))

/-- The code of the first precondition that fails on a path (Table 16-9); 0 when none does. -/
def calPre (s : State) (id m : Nat) (k : CalMeas) : Nat :=
  let p := k.path.val
  let x := pathOf s p
  match id with
  | 1 =>
    if x.rxFault ≠ 0 then 0x23 else if ¬ pathLoValid s false p then 0x22
    else if nbit (vget s.rad.lineOn (p / 8)) 2 then 0x20 else if ¬ k.quiet then 0x21 else 0
  | 2 => if x.txFault ≠ 0 then 0x23 else if ¬ pathLoValid s true p then 0x22 else 0
  | 3 => if x.rxFault ≠ 0 then 0x23 else if ¬ pathLoValid s false p then 0x22 else 0
  | 4 => if x.txFault ≠ 0 then 0x23 else if ¬ pathLoValid s true p then 0x22 else 0
  | 5 =>
    if ((s.pathCfg p).txEn ∧ ¬ pathLoValid s true p) ∨ ((s.pathCfg p).rxEn ∧ ¬ pathLoValid s false p) then 0x22 else 0
  | 8 =>
    if ¬ pathLoValid s k.tx p then 0x22 else if ¬ (networkOk s ∧ tw3216AllOk s) then 0x26
    else if (arrayRef s m).isNone then 0x24 else 0
  | 9 =>
    if ¬ (pathLoValid s true p ∧ pathLoValid s false p) then 0x22 else if ¬ (networkOk s ∧ tw3216AllOk s) then 0x26
    else if (arrayRef s m).isNone then 0x24 else if (grp s (s.groupOf p)).fdd then 0x25 else 0
  | _ => 0

/-- Value `i` of a measurement. -/
def calVal (k : CalMeas) (i : Nat) : Int := k.v.getD i 0

/-- The corner of the analogue filters at a level, in kHz (Table 4-2). -/
def filterCorner (level : Nat) : Int := if level = 0 then 230000 else if level = 1 then 120000 else 65000

/-- The corners that FILTER measured, TX at PL0, PL1 and PL2 and then RX, all lie within ±15 % of target (Table 16-9). -/
def cornersOk (k : CalMeas) : Bool :=
  (List.range 6).all (fun i => decide (100 * (calVal k (6 + i) - filterCorner (i % 3)).natAbs ≤ 15 * (filterCorner (i % 3)).natAbs))

/-- The result of a calibration of one path is plausible (Table 16-9): ±1 dB is −3,563…+3,998 of 2^−15, ±6° is ±3,431 of
2^−15 rad. -/
def calPlausible (id : Nat) (k : CalMeas) : Bool :=
  let within := fun (x lim : Int) => decide (-lim ≤ x) && decide (x ≤ lim)
  let v := calVal k
  match id with
  | 1 => within (v 0) 512 && within (v 1) 512 && decide (v 2 ≤ -8000)
  | 2 => within (v 0) 1024 && within (v 1) 1024 && decide (v 2 ≤ -7000)
  | 3 => decide (-3563 ≤ v 0) && decide (v 0 ≤ 3998) && within (v 1) 3431 && decide (v 2 ≥ 6000)
  | 4 => decide (-3563 ≤ v 0) && decide (v 0 ≤ 3998) && within (v 1) 3431 && decide (v 2 ≥ 6000)
  | 5 => cornersOk k
  | 9 =>
    let q := v 0 * v 0 + v 1 * v 1
    decide (2 ^ 26 ≤ q) && decide (q ≤ 2 ^ 30)
  | _ => true

/-! ### Outcomes (R428, Table 16-12) -/

/-- The place of a calibration's outcome in NVS_CAL_STATUS; none for STACK. -/
def calSlot (id : Nat) (tx : Bool) : Option Nat :=
  match id with
  | 1 => some 0 | 2 => some 1 | 3 => some 2 | 4 => some 3 | 5 => some 4
  | 8 => some (if tx then 5 else 6)
  | 9 => some 7
  | _ => none

/-- Record an outcome of a path: 1 kept, 2 aborted, 3 discarded; a failure asserts CAL_FAILED and is logged. -/
def calOutcome (id : Nat) (tx : Bool) (p outcome code : Nat) (s : State) : State :=
  let a := Reg.NVS_CAL_STATUS p
  let s := match calSlot id tx with
    | some i => s.setFld a (2 * i + 1) (2 * i) outcome
    | none => s
  if outcome = 1 then s
  else (s.setFld a 31 24 code).event Reg.NVS_INT_STATUS 2 p 0

/-- The path record of a path has changed. -/
def calChanged (p : Nat) (s : State) : State :=
  s.modNvs (fun v => { v with changed := if v.changed.contains p then v.changed else v.changed ++ [p] })

/-- The temperature of a path's zone, in 1/16 °C: its fold's zone. -/
def pathTemp (s : State) (p : Nat) : Int := (vget s.thm.zones (p / 8)).temp

/-- A list of values with two of them replaced from place `i`. -/
def put2 (l : List Int) (i : Nat) (a b : Int) : List Int := lmod (lmod l i (fun _ => a)) (i + 1) (fun _ => b)

/-- Keep a result of one path. -/
def calKeep (id : Nat) (k : CalMeas) (s : State) : State :=
  let p := k.path.val
  let v := calVal k
  let t := pathTemp s p
  let s := match id with
    | 1 => s.modPath p (fun x => { x with calRx := put2 x.calRx 2 (v 0) (v 1), calTemp := t })
    | 2 => s.modPath p (fun x => { x with calTx := put2 x.calTx 2 (v 0) (v 1), calTemp := t })
    | 3 => s.modPath p (fun x => { x with calRx := put2 x.calRx 0 (v 0) (v 1) })
    | 4 => s.modPath p (fun x => { x with calTx := put2 x.calTx 0 (v 0) (v 1) })
    | 5 => s.modPath p (fun x => { x with filter := (List.range 6).map v })
    | 9 => s.setReg (Reg.NVS_RECIP p) (pk [(16, ofS 16 (v 0)), (0, ofS 16 (v 1))])
    | 10 => if s.cas.role = 2 then s.setReg Reg.NVS_STACK_PHASE (pk [(31, 1), (0, ofS 16 (v 0))]) else s
    | _ => s
  if id = 10 then s else calChanged p s

/-- One path's calibration other than ARRAY (R428). -/
def calOne (id m : Nat) (k : CalMeas) (s : State) : State :=
  let p := k.path.val
  let pre := calPre s id m k
  if pre ≠ 0 then calOutcome id k.tx p 2 pre s
  else if ¬ calPlausible id k then calOutcome id k.tx p 3 0x11 s
  else calOutcome id k.tx p 1 0 (calKeep id k s)

/-! ### Array alignment (R429) -/

/-- The trim register of a chain from array calibration. -/
def trimCalReg (tx : Bool) (p : Nat) : Nat := if tx then Reg.PTH_TX_TRIM_CAL p else Reg.PTH_RX_TRIM_CAL p

/-- The new trim: the negated lateness rounded to 0.25 ps, ties to even. -/
def arrayTrim (k : CalMeas) : Int := divEven (-(calVal k 0)) 256

/-- The squared magnitude of a measured chain gain. -/
def gain2 (k : CalMeas) : Nat := (calVal k 1 * calVal k 1 + calVal k 2 * calVal k 2).toNat

/-- A part of a chain gain normalised to a largest squared magnitude, Q2.14. -/
def gainPart (max2 : Nat) (x : Int) : Int := divEven (x * (2 ^ 46 : Nat)) (max 1 (isqrt (max2 * 2 ^ 64)))

/-- The median of powers in 0.01 dB, doubled. -/
def median2 (l : List Int) : Int :=
  let s := sortBy (fun a b => decide (a ≤ b)) l
  s.getD ((s.length - 1) / 2) 0 + s.getD (s.length / 2) 0

/-- The trim in force came from a seed. -/
def trimSeeded (s : State) (tx : Bool) (p : Nat) : Bool := if tx then (pathOf s p).seedTx else (pathOf s p).seedRx

/-- A direction's result is kept: trims within ±4,000 ps, moves within 40 ps of trims that came from no seed, gains within 3 dB of
the median, residual spread of 2 ps or less. -/
def arrayPlausible (s : State) (tx : Bool) (ms : List CalMeas) : Bool :=
  let db := fun k => centiBel (gain2 k)
  let med := median2 (ms.map db)
  ms.all (fun k =>
    let p := k.path.val
    let t := arrayTrim k
    decide (-16000 ≤ t) && decide (t ≤ 16000) &&
    (trimSeeded s tx p || decide ((t - toS 18 (s.fld (trimCalReg tx p) 17 0)).natAbs ≤ 160)) &&
    decide (gain2 k > 0) && decide ((2 * db k - med).natAbs ≤ 600) && decide (calVal k 3 ≤ 200))

/-- Keep a chain's array result: trim and gain. -/
def arrayKeep (tx : Bool) (max2 : Nat) (k : CalMeas) (s : State) : State :=
  let p := k.path.val
  let g := pk [(16, ofS 16 (gainPart max2 (calVal k 1))), (0, ofS 16 (gainPart max2 (calVal k 2)))]
  let s := s.setFld (trimCalReg tx p) 17 0 (ofS 18 (arrayTrim k))
  let s := s.setReg (if tx then Reg.NVS_ARR_TX p else Reg.NVS_ARR_RX p) g
  let t := pathTemp s p
  let s := s.modPath p (fun x => if tx then { x with seedTx := false, calTemp := t } else { x with seedRx := false, calTemp := t })
  calOutcome 8 tx p 1 0 (calChanged p (trimChanged tx p s))

/-- One direction of ARRAY. -/
def arrayDirection (m : Nat) (tx : Bool) (all : List CalMeas) (s : State) : State :=
  let ms := all.filter (fun k => k.tx == tx)
  let s0 := s
  let s := forAll (ms.filter (fun k => calPre s0 8 m k != 0)) (fun k s => calOutcome 8 tx k.path.val 2 (calPre s0 8 m k) s) s
  let ok := ms.filter (fun k => calPre s0 8 m k == 0)
  if arrayPlausible s0 tx ok then
    let max2 := ok.foldl (fun a k => max a (gain2 k)) 0
    forAll ok (arrayKeep tx max2) s
  else forAll ok (fun k s => calOutcome 8 tx k.path.val 3 0x11 s) s

/-- The paths a calibration covers: enabled paths of the groups; for ARRAY those on the roles of the groups (R429). -/
def calCovers (s : State) (id m : Nat) (k : CalMeas) : Bool :=
  let p := k.path.val
  let c := s.pathCfg p
  match id with
  | 8 => (if k.tx then c.txEn else c.rxEn) && (maskRoles s m).contains (s.loRole k.tx p)
  | 1 => c.rxEn && nbit m c.group
  | 3 => c.rxEn && nbit m c.group
  | 2 => c.txEn && nbit m c.group
  | 4 => c.txEn && nbit m c.group
  | _ => (c.txEn || c.rxEn) && nbit m c.group

/-- A calibration covers a path in a direction. -/
def coversPath (s : State) (id m p : Nat) : Bool :=
  [false, true].any (fun tx => calCovers s id m { path := Fin.ofNat 64 p, tx := tx, quiet := true, v := [] })

/-- Take the results of a calibration. -/
def calApply (id m : Nat) (ms : List CalMeas) (s : State) : State :=
  let ms := ms.filter (calCovers s id m)
  if id = 8 then
    (arrayDirection m false ms (arrayDirection m true ms s)).modNvs (fun v => { v with arrayAt := s.time.tb1 })
  else forAll ms (calOne id m) s

/-! ### Path records (R428, Table 16-5) -/

/-- The body of a path record. -/
def pathRecBody (s : State) (p : Nat) : List Byte :=
  let x := pathOf s p
  let h := fun (v : Int) => leBytes 2 (ofS 16 v)
  leBytes 4 (roleKhz s (s.loRole true p)) ++ leBytes 4 (roleKhz s (s.loRole false p)) ++ h (pathTemp s p) ++ leBytes 2 0 ++
  x.calTx.flatMap h ++ x.calRx.flatMap h ++ x.filter.map (fun v => BitVec.ofInt 8 v) ++ leBytes 2 0 ++
  leBytes 4 (ofS 32 (toS 18 (s.fld (Reg.PTH_TX_TRIM_CAL p) 17 0))) ++ leBytes 4 (ofS 32 (toS 18 (s.fld (Reg.PTH_RX_TRIM_CAL p) 17 0))) ++
  leBytes 4 (s.reg (Reg.NVS_ARR_TX p)).toNat ++ leBytes 4 (s.reg (Reg.NVS_ARR_RX p)).toNat ++ leBytes 4 (s.reg (Reg.NVS_RECIP p)).toNat

/-- Write the path records that changed, each at most once per second (R428). -/
def flushChanged (s : State) : State :=
  let due := fun p => match (pathOf s p).recAt with
    | some t => decide (t + secTu ≤ s.time.tb1)
    | none => true
  if s.nvs.calOn then s
  else
    let s' := forAll (s.nvs.changed.filter due) (fun p s =>
      queueWrite { origin := .path p, base := pathRecBase p, pitch := 0x200, type := 0x10, body := pathRecBody s p }
        (s.modPath p (fun x => { x with recAt := some s.time.tb1 }))) s
    s'.modNvs (fun v => { v with changed := v.changed.filter (fun p => !due p) })

/-- Load the seeds of a path (R427): the path record within 100 MHz of the present LOs, the TW3216-layout entries, or nominal
values. -/
def seedPath (p : Nat) (s : State) : State :=
  let ftx := roleKhz s (s.loRole true p)
  let frx := roleKhz s (s.loRole false p)
  let near := fun (a b : Nat) => decide (((a : Int) - b).natAbs ≤ 100000)
  let vals := fun (b : List Byte) (o : Nat) => (List.range 4).map (fun i => toS 16 (le b (o + 2 * i) 2))
  let s := s.modPath p (fun x => { x with seedTx := true, seedRx := true })
  match (pathRec s p).filter (fun b => near (le b 0 4) ftx && near (le b 4 4) frx) with
  | some b =>
    let s := s.modPath p (fun x => { x with
      calTx := vals b 12, calRx := vals b 20, calTemp := toS 16 (le b 8 2)
      filter := (List.range 6).map (fun i => toS 8 (byteAt b (28 + i))) })
    let s := (s.setFld (Reg.PTH_TX_TRIM_CAL p) 17 0 (le b 36 4)).setFld (Reg.PTH_RX_TRIM_CAL p) 17 0 (le b 40 4)
    let s := (s.setReg (Reg.NVS_ARR_TX p) (BitVec.ofNat 32 (le b 44 4))).setReg (Reg.NVS_ARR_RX p) (BitVec.ofNat 32 (le b 48 4))
    trimChanged false p (trimChanged true p (s.setReg (Reg.NVS_RECIP p) (BitVec.ofNat 32 (le b 52 4))))
  | none =>
    let tx := (tw3216Entry s p ftx).getD []
    let rx := (tw3216Entry s p frx).getD []
    let four := fun (l : List Int) (o : Nat) => (List.range 4).map (fun i => l.getD (o + i) 0)
    s.modPath p (fun x => { x with calTx := four tx 0, calRx := four rx 4 })

/-! ### Intervals (R434) -/

/-- A burst of a group intersects an interval of TB0. -/
def burstIn (s : State) (from_ to_ g : Nat) : Bool :=
  (grp s g).bursts.any (fun b => b.started || (decide (b.start < to_) && decide (from_ < burstStop b)))

/-- An interval from a time on is a gap for a request (R434). -/
def calGap (s : State) (from_ : Nat) (r : CalReq) : Bool :=
  s.pwr.stage == 4 && !(maskGroups s r.groups).any (burstIn s from_ (from_ + calTu r.id + 10 * usTu))

/-- Book an interval from a time on for a waiting request. -/
def calBookAt (from_ : Nat) (r : CalReq) (s : State) : State :=
  let to_ := from_ + calTu r.id + 10 * usTu
  (s.modNvs (fun v => { v with calRun := some r, calOn := false, calQueue := v.calQueue.erase r })).modRad (fun x => { x with
    calBook := (maskGroups s r.groups).map (fun g => (g, from_, to_)) })

/-- The observation receivers of a calibration: those of the folds with an enabled path in its groups. -/
def calFolds (s : State) (m : Nat) : List Nat :=
  (List.range 8).filter (fun o => (maskGroups s m).any (fun g => (s.groupPaths g).any (fun p => p / 8 == o)))

/-- The requester identity of a calibration (R190, Table 1-6): 9 the drover's, 8 host software's. -/
def calWho (r : CalReq) : Nat := if r.drover then 9 else 8

/-- An interval is booked, and its calibration asks for the observation receivers (R190). -/
def calBook (from_ : Nat) (r : CalReq) (s : State) : State :=
  forAll (calFolds s r.groups) (fun o s => obsRequest o (calWho r) .cal s) (calBookAt from_ r s)

/-- A calibration may not begin: one is booked or runs, or it pauses after the last (R404). -/
def calHeld (s : State) : Bool := s.nvs.calRun.isSome || decide (s.time.tb1 < s.nvs.calRest)

/-- The drover books the interval of the oldest request that has a gap, 4 µs ahead; its TB0 must be locked. -/
def calBookTick (s : State) : State :=
  if calHeld s then s
  else
    match s.nvs.calQueue.find? (fun r => !r.force && calGap s (s.time.tb0 + 4 * usTu) r) with
    | some r => calBook (s.time.tb0 + 4 * usTu) r s
    | none => s

/-- An interval begins: with FORCE the bursts that overlap it go (R434), and the groups go to CAL (R205). -/
def calEnter (r : CalReq) (s : State) : State :=
  let now := s.time.tb0
  let to_ := now + calTu r.id + 10 * usTu
  let s := if r.force then
      forAll (maskGroups s r.groups) (fun g s =>
        burstsOut g 0x26 (fun b => b.started || (decide (b.start < to_) && decide (now < burstStop b))) s) s
    else s
  let s := forAll (maskGroups s r.groups) (fun g s => goTo g .cal s) s
  s.modNvs (fun v => { v with calOn := true, calBegan := s.time.tb1 })

/-- An interval starts: the booked one at its time, a forced request, or a request whose gap has begun (R434). Below stage 4 only
power-up calibration takes a group out of OFF (R207). -/
def calStart (s : State) : State :=
  match s.nvs.calRun with
  | some r =>
    if ¬ s.nvs.calOn ∧ s.rad.calBook.all (fun c => decide (c.2.1 ≤ s.time.tb0)) then calEnter r s else s
  | none =>
    if s.pwr.stage ≠ 4 ∨ calHeld s then s
    else
      match (s.nvs.calQueue.find? (·.force)).or (s.nvs.calQueue.find? (calGap s s.time.tb0)) with
      | some r => calEnter r (calBook s.time.tb0 r s)
      | none => s

/-- CAL_INTERVAL_START (R434). -/
def execCalIntervalStart (s : State) : Host.Outcome State Fault Refusal := .next (calStart s)

/-- The interval ends: each group takes the command that waited, or goes back (R434); the observation receivers are free again. -/
def calLeave (s : State) : State :=
  let s := forAll (List.range 8) (fun o s => obsRelease o .cal (obsWithdraw o .cal s)) s
  let gs := (List.range 8).filter (fun g => (grp s g).calNow)
  let s := forAll gs (fun g s =>
    let to_ := (grp s g).cmd.getD (grp s g).ret
    goTo g to_ (s.modGroup g (fun x => { x with cmd := none }))) s
  (s.modNvs (fun v => { v with calRun := none, calOn := false, calRest := restAfter s (s.time.tb1 - v.calBegan) })).modRad
    (fun r => { r with calBook := [] })

/-- A calibration ends with its results, once its groups are in CAL (R428, R433). -/
def calDone (ms : List CalMeas) (s : State) : State :=
  match s.nvs.calRun with
  | none => s
  | some r =>
    if ¬ s.nvs.calOn ∨ ¬ (maskGroups s r.groups).all (fun g => (grp s g).state == .cal) then s
    else flushChanged ((calLeave (calApply r.id r.groups ms s)).raise Reg.NVS_INT_STATUS 0)

/-- CAL_DONE (R428). -/
def execCalDone (ms : List CalMeas) (s : State) : Host.Outcome State Fault Refusal := .next (calDone ms s)

/-- The running calibration is aborted on its paths (R428, R434): 0x12 LO, 0x13 ABORTED. -/
def calAbort (code : Nat) (s : State) : State :=
  match s.nvs.calRun with
  | none => s
  | some r =>
    if ¬ s.nvs.calOn then calLeave s
    else
      let ps := (List.range 64).filter (coversPath s r.id r.groups)
      let s := forAll ps (fun p s => calOutcome r.id true p 2 code s) s
      let s := if r.id = 8 then forAll ps (fun p s => s.setFld (Reg.NVS_CAL_STATUS p) 13 12 2) s else s
      flushChanged ((calLeave s).raise Reg.NVS_INT_STATUS 0)

/-- A role is lost: a calibration that runs on it aborts (R428). -/
def calLoseRole (r : Nat) (s : State) : State :=
  match s.nvs.calRun with
  | some q => if s.nvs.calOn ∧ (maskRoles s q.groups).contains r then calAbort 0x12 s else s
  | none => s

/-! ### Requests (R433, R435) -/

/-- Enter a request, or merge it into a waiting one of the same ID whose groups it overlaps: the tag it has. -/
def calEnqueue (id m : Nat) (force drover : Bool) (s : State) : Nat × State :=
  match s.nvs.calQueue.find? (fun r => r.id == id && (List.range 8).any (fun g => nbit r.groups g && nbit m g)) with
  | some r =>
    let u := bitsOf 8 (fun g => nbit r.groups g || nbit m g)
    (r.tag, s.modNvs (fun v => { v with
      calQueue := v.calQueue.map (fun x => if x = r then { r with groups := u, force := r.force || force } else x) }))
  | none =>
    let tag := (s.nvs.calTag + 1) % 65536
    (tag, s.modNvs (fun v => { v with
      calTag := tag, calQueue := v.calQueue ++ [{ id := id, groups := m, force := force, tag := tag, drover := drover }] }))

/-- The first code of R433 that refuses a request; 0 when none does. -/
def calReqCode (s : State) (id m : Nat) : Nat :=
  if s.wrp.active.isNone then 0x01
  else if s.pwr.stage < 3 then 0x02
  else if ¬ calIdOk id then 0x03
  else if (maskGroups s m).isEmpty then 0x04
  else if id = 10 ∧ s.cas.role = 0 then 0x06
  else if s.nvs.calQueue.length ≥ 8 then 0x05
  else 0

/-- NVS_CAL_REQ with GO. -/
def calReqWrite (w : Word) (s : State) : State :=
  if ¬ bitOf w 31 then s
  else
    let c := calReqCode s (fld w 23 16) (fld w 7 0)
    if c ≠ 0 then (s.setReg Reg.NVS_CAL_RESULT (pk [(30, 2), (16, c)])).raise Reg.NVS_INT_STATUS 1
    else
      let (tag, s) := calEnqueue (fld w 23 16) (fld w 7 0) (bitOf w 30) false s
      s.setReg Reg.NVS_CAL_RESULT (pk [(30, 1), (0, tag)])

/-- NVS_CAL_REQ (R433). -/
def execNvsCalReq (w : Word) (s : State) : Host.Outcome State Fault Refusal := .next (s.hosted Reg.NVS_CAL_REQ (calReqWrite w))

/-- A request has waited 10 s (R434). -/
def calWaitLong (s : State) : State :=
  match s.nvs.calQueue.find? (fun r => !r.longSaid) with
  | none => s
  | some r => (s.modNvs (fun v => { v with calQueue := v.calQueue.map (fun x => if x = r then { r with longSaid := true } else x) })).raise
      Reg.NVS_INT_STATUS 7

/-- NVS_CAL_WAIT_LONG (R434). -/
def execNvsCalWaitLong (s : State) : Host.Outcome State Fault Refusal := .next (calWaitLong s)

/-- What the drover requests and on which groups (R435). -/
def droverWants (s : State) : CalWhy → List Nat × Nat
  | .zone z =>
    let ps := (List.range 8).map (fun i => 8 * z.val + i) |>.filter (fun p =>
      ((s.pathCfg p).txEn || (s.pathCfg p).rxEn) && decide ((pathTemp s p - (pathOf s p).calTemp).natAbs ≥ 160))
    ([8, 1, 2], bitsOf 8 (fun g => ps.any (fun p => s.groupOf p == g)))
  | .hourly =>
    (if s.nvs.arrayAt + 3600 * secTu ≤ s.time.tb1 then [8] else [], bitsOf 8 (fun g => !groupEmpty s g))
  | .loChange r => ([5, 1, 2, 3, 4, 8, 9], bitsOf 8 (fun g => (roleGroups s r).contains g))

/-- The drover's requests, without FORCE. -/
def droverRequest (why : CalWhy) (s : State) : State :=
  let (ids, m) := droverWants s why
  forAll ids (fun id s => if calReqCode s id m = 0 then (calEnqueue id m false true s).2 else s) s

/-- DROVER_CAL_REQUEST (R435). -/
def execDroverCalRequest (why : CalWhy) (s : State) : Host.Outcome State Fault Refusal := .next (droverRequest why s)

/-! ### Power-up calibration (R432) -/

/-- The converters of the paths as the reserve map and the self-test leave them, and the faults that persist (R119, R125). `self` names
the sub-converters that fail their self-test. -/
def convertersLoad (self : List (Fin 64 × Bool × Fin 9)) (s : State) : State :=
  let s := match sysRec s 6 with
    | some map => forAll (List.range 64) (pathFromMap map) s
    | none => s
  let s := s.modNvs (fun v => { v with mapTaken := true })
  let s := forAll self (fun x s => adcSelfTestFail x.1.val x.2.1 x.2.2.val s) s
  forAll (List.range 64) (fun p s => chainFaultRx p (chainFaultTx p (persistFaults p s))) s

/-- The spare of an ADC has made its round (R114): it is ready, and takes a position that failed in it (R116). -/
def spareRound (p : Nat) (q : Bool) (s : State) : State :=
  if (adcOf s p q).spare ≥ 9 then s
  else adcSwapSoon p q (modAdc p q (fun a => { a with passes := 8, ready := true }) s)

/-- The spare round of every ADC and the segment round of every DAC, with what fails in them (R114, R120, Table 16-10). -/
def powerUpRounds (adc : List (Fin 64 × Bool × Fin 8)) (dac : List (Fin 64 × Bool × Fin 63)) (s : State) : State :=
  let s := forAll adc (fun x s => adcFailed x.1.val x.2.1 false x.2.2.val s) s
  let s := forAll (List.range 64) (fun p s => spareRound p true (spareRound p false s)) s
  forAll dac (fun x s => segmentMeasured x.1.val x.2.1 x.2.2.val false s) s

/-- Power-up calibration of a committed warp, before stage 3: converters from the reserve map and the self-test (R119), seeds, every
calibration with every group in CAL, the rounds of the converters beside them, records and reserve map, and every group OFF. -/
def powerUpCal (self : List (Fin 64 × Bool × Fin 9)) (adc : List (Fin 64 × Bool × Fin 8)) (dac : List (Fin 64 × Bool × Fin 63))
    (ms : List (Nat × List CalMeas)) (s : State) : State :=
  if s.wrp.active.isNone ∨ s.pwr.stage ≠ 2 ∨ s.nvs.powerUpDone then s
  else
    let s := forAll (List.range 64) seedPath (convertersLoad self s)
    let gs := maskGroups s 0xFF
    let s := forAll gs (enterGroup · .cal) s
    let part := fun ids s =>
      forAll ids (fun id s => calApply id 0xFF ((ms.filter (fun x => x.1 == id)).flatMap (·.2)) s) s
    let s := part [8, 9] (powerUpRounds adc dac (part [5, 1, 2, 3, 4] s))
    let s := writeReserveMap [] (flushChanged s)
    (forAll gs (enterGroup · .off) s).modNvs (fun v => { v with powerUpDone := true })

/-- POWERUP_CALIBRATION (R432). -/
def execPowerupCalibration (fails : PowerUpFails) (ms : List (Nat × List CalMeas)) (s : State) : Host.Outcome State Fault Refusal :=
  .next (powerUpCal fails.self fails.adc fails.dac ms s)

/-! ### Predistortion records (R436) -/

/-- The LO of a path's predistortion record `r` lies within 100 MHz of a frequency in kHz. -/
def dpdRecNear (s : State) (p khz r : Nat) : Bool :=
  match dpdRec s p r with
  | some (_, b) => decide (((le b 0 4 : Nat) : Int) - (khz : Int) ≤ 100000) && decide ((khz : Int) - ((le b 0 4 : Nat) : Int) ≤ 100000)
  | none => false

/-- SEQ of a path's predistortion record `r`; 0 when missing. -/
def dpdRecSeq (s : State) (p r : Nat) : Nat :=
  match dpdRec s p r with
  | some (q, _) => q
  | none => 0

/-- The record a path's coefficients go to: one whose LO lies within 100 MHz of the TX LO, or that of the lowest SEQ. -/
def dpdRecordFor (s : State) (p : Nat) : Nat :=
  let lower := fun (a b : Nat) => if dpdRecSeq s p b < dpdRecSeq s p a then b else a
  ((List.range 3).find? (dpdRecNear s p (roleKhz s (s.loRole true p)))).getD (lower (lower 0 1) 2)

/-- The body of a predistortion record (Table 16-6). -/
def dpdRecBody (s : State) (p : Nat) : List Byte :=
  let x := dpdOf s p
  let b := if x.activeB then x.b else x.a
  let c := s.reg (Reg.DPD_PATH_CFG p)
  leBytes 4 (roleKhz s (s.loRole true p)) ++ leBytes 2 (ofS 16 (pathTemp s p)) ++
  leBytes 1 (fld c 7 4 * 16 + fld c 1 0) ++ leBytes 1 0 ++ leBytes 2 (s.fld (Reg.DPD_NMSE p) 15 0) ++ leBytes 2 0 ++
  (b.coef.getD identityCoef).flatMap cplxBytes

/-- The drover writes the record of a path after UPDATED, at most once per 60 s. -/
def dpdRecordWrite (p : Nat) (s : State) : State :=
  let x := dpdOf s p
  if ¬ x.fresh ∨ x.recordAt.any (fun t => decide (s.time.tb1 < t + 60 * secTu)) then s
  else
    let r := dpdRecordFor s p
    queueWrite { origin := .dpd p r, base := dpdRecBase p r, pitch := 0xA00, type := 0x11, body := dpdRecBody s p }
      (s.modDpdPath p (fun x => { x with fresh := false, recordAt := some s.time.tb1 }))

/-- DPD_RECORD_WRITE (R436). -/
def execDpdRecordWrite (p : Fin 64) (s : State) : Host.Outcome State Fault Refusal := .next (dpdRecordWrite p s)

/-! ### What the registers show -/

/-- NVS_CAL_QUEUE. -/
def nvsCalQueue (s : State) : Word :=
  pk [(16, bitsOf 8 (fun g => (grp s g).state == .cal)),
      (8, match s.nvs.calRun with | some r => if s.nvs.calOn then r.id else 0 | none => 0),
      (0, min 15 s.nvs.calQueue.length)]

end Sys2Proof.Machine
end

