-- ==== Sys2Proof/Machine/Syn.lean ====
section
/-!
DEFINITION. References, loops and LO roles (R131…R150), and the commands of the SYN block.
-/

namespace Sys2Proof.Machine

/-! ### Frequencies (R78, R135) -/

/-- The lowest and the highest edge, in kHz, of the carriers assigned to a role in both directions. -/
def roleEdges (w : Structure) (r : Nat) : Option (Int × Int) :=
  let cs := ((w.carDl.toList ++ w.carUl.toList).filterMap id).filter (fun k => k.lo == r)
  match cs.map carrierBand with
  | [] => none
  | x :: xs => some (xs.foldl (fun a b => (min a.1 b.1, max a.2 b.2)) x)

/-- The output divider as its exponent: the smallest that puts twice the LO frequency in kHz, times it, into 6…12 GHz. -/
def loDiv (x2 : Nat) : Nat := ((List.range 5).find? (fun d => decide (12000000 ≤ x2 * 2 ^ d))).getD 4

/-- The frequency word N·2^24 + F for twice an LO frequency in kHz, ties to even. -/
def loWord (x2 : Nat) : Nat := (divEven ((2 ^ 24 * x2 * 2 ^ loDiv x2 : Nat) : Int) (2 * 245760)).toNat

/-- Tune a role's unit for a committed structure (R78, R91, R146): without carriers it is left off; a new frequency calibrates at
once, or when the converter clock is valid again (R142). -/
def synTune (w : Structure) (r : Nat) (s : State) : State :=
  let u := (vget s.syn.roles r).unit
  match roleEdges w r with
  | none => (s.modRole r (fun x => { x with used := false })).modUnit u (fun y => { y with on := false, locked := false, cal := false })
  | some (lo, hi) =>
    let x2 := (lo + hi).toNat
    let d := loDiv x2
    let n := loWord x2 / 2 ^ 24
    let f := loWord x2 % 2 ^ 24
    let x := vget s.syn.roles r
    if x.used ∧ x.div = d ∧ x.n = n ∧ x.f = f then s
    else
      (s.modRole r (fun x => { x with used := true, div := d, n := n, f := f, calWait := !cnvValid s })).modUnit u (fun y => { y with
        on := true, locked := false, cal := cnvValid s, div := d, n := n, f := f, calTemp := (vget s.thm.zones 10).temp })

/-- Tune both roles; the reserve runs while a role is in use (R145, R150). -/
def synTuneAll (w : Structure) (s : State) : State :=
  let s := synTune w 1 (synTune w 0 s)
  if s.syn.reserve ≥ 3 then s
  else s.modUnit s.syn.reserve (fun y => { y with on := (vget s.syn.roles 0).used || (vget s.syn.roles 1).used })

/-! ### References (R132…R134) -/

/-- Reference `b` is valid. -/
def refValid (s : State) (b : Bool) : Bool := if b then s.syn.bValid else s.syn.aValid

/-- Set the validity of a reference. -/
def setRefValid (b v : Bool) (s : State) : State :=
  s.modSyn (fun y => if b then { y with bValid := v } else { y with aValid := v })

/-- The converter clock follows a reference from now on (R134). -/
def refSwitch (b : Bool) (s : State) : State :=
  let s := s.modSyn (fun y => { y with active := b2n b, holdover := false, cnvLock := true, refGone := false })
  (s.addByte Reg.SYN_EVENT_COUNT 24 1).raise Reg.SYN_INT_STATUS 7

/-- The active reference is lost: holdover, and a switch at once where AUTO and the other reference allow it (R133, R134). -/
def refLost (s : State) : State :=
  if s.syn.active ≥ 2 ∨ s.syn.refGone then s
  else
    let b := s.syn.active == 1
    let s := setRefValid b false (s.modSyn (fun y => { y with refGone := true, holdover := y.cnvLock, cnvLock := false }))
    let s := s.raise Reg.SYN_INT_STATUS 6
    if s.bit Reg.SYN_REF_CFG 1 ∧ refValid s (!b) ∧ s.syn.holdover then refSwitch (!b) s else s

/-- REF_LOST (R134). -/
def execRefLost (s : State) : Host.Outcome State Fault Refusal := .next (watchRoles refLost s)

/-- A reference other than the one followed is measured (R133): in holdover the other one is taken with AUTO, and the lost one when
it has returned (R134). -/
def refCheck (b ok : Bool) (s : State) : State :=
  let s := setRefValid b ok s
  if ¬ ok ∨ ¬ s.syn.holdover then s
  else if b2n b = s.syn.active then s.modSyn (fun y => { y with holdover := false, cnvLock := true, refGone := false })
  else if s.bit Reg.SYN_REF_CFG 1 then refSwitch b s
  else s

/-- STANDBY_REF_CHECK (R133): `b` names REF_B, `ok` tells that it passes. -/
def execStandbyRefCheck (b ok : Bool) (s : State) : Host.Outcome State Fault Refusal := .next (watchRoles (refCheck b ok) s)

/-- SYN_REF_CFG (R134): a SEL that names a reference which is not valid keeps its value. -/
def refCfgWrite (w : Word) (s : State) : State :=
  let s := (s.setFld Reg.SYN_REF_CFG 31 16 (max 1 (fld w 31 16))).setFld Reg.SYN_REF_CFG 1 1 (fld w 1 1)
  let b := bitOf w 0
  let other := s.syn.active != 1
  let s := if bitOf w 1 ∧ s.syn.holdover ∧ s.syn.active < 2 ∧ refValid s other then watchRoles (refSwitch other) s else s
  if ¬ refValid s b then s.raise Reg.SYN_INT_STATUS 9
  else
    let s := s.setFld Reg.SYN_REF_CFG 0 0 (b2n b)
    if s.syn.active = b2n b then s else watchRoles (refSwitch b) s

/-- SYN_REF_SEL_WRITE (R134). -/
def execSynRefSelWrite (w : Word) (s : State) : Host.Outcome State Fault Refusal := .next (s.hosted Reg.SYN_REF_CFG (refCfgWrite w))

/-! ### Calibrations and swaps (R142, R144…R147) -/

/-- The role an RF unit holds. -/
def unitRole (s : State) (u : Nat) : Option Nat :=
  (List.range 2).find? (fun r => (vget s.syn.roles r).used && (vget s.syn.roles r).unit == u)

/-- A role that has its lock back within 10 ms of a loss: its groups resume at their next boundaries (R141). -/
def markResume (r : Nat) (s : State) : State :=
  if (vget s.syn.roles r).lost ∧ roleReady s r then
    s.modRole r (fun x => { x with lost := false, resume := bitsOf 8 (fun g => (roleGroups s r).contains g) })
  else s

/-- The band a unit uses for its frequency is stored. -/
def storeBand (band : Nat) (y : SynUnit) : SynUnit :=
  { y with band := band, bands := ((y.div, y.n, y.f), band) :: y.bands.filter (fun x => x.1 != (y.div, y.n, y.f)) }

/-- The band a unit has stored for a frequency word, or the one it is in (R145). -/
def bandFor (y : SynUnit) (w : Nat × Nat × Nat) : Nat := ((y.bands.find? (fun x => x.1 == w)).map (·.2)).getD y.band

/-- A swap of a role starts: the reserve is tuned to the role's frequency with the band it has stored for it (R144). -/
def beginSwap (r : Nat) (s : State) : State :=
  let u := s.syn.reserve
  if u ≥ 3 then s
  else
    let x := vget s.syn.roles r
    ((s.modSyn (fun y => { y with reserve := 3 })).modRole r (fun x => { x with
      swapRun := true, swapUnit := u, swapWait := false, calWait := false, waitLong := false })).modUnit u (fun y => { y with
      on := true, div := x.div, n := x.n, f := x.f, band := bandFor y (x.div, x.n, x.f) })

/-- Calibrations and swaps may start: the converter clock is valid (R142), and no survey holds the role. -/
def jobMayStart (s : State) (r : Nat) : Bool := cnvValid s && !(vget s.syn.roles r).survey

/-- A calibration of a role's unit starts (R146). -/
def calBegin (r : Nat) (force : Bool) (s : State) : State :=
  cutLost r (watchRoles (fun s => (s.modRole r (fun x => { x with calWait := false, calForce := force, waitLong := false })).modUnit
    (vget s.syn.roles r).unit (fun y => { y with cal := true, calTemp := (vget s.thm.zones 10).temp })) s)

/-- A swap of a role starts (R144). -/
def swapBegin (r : Nat) (force : Bool) (s : State) : State :=
  cutLost r (watchRoles (fun s => (beginSwap r s).modRole r (fun x => { x with swapForce := force })) s)

/-- A group's state at some time within `len` from now is TX, RX or CAL: its state, or the transition it has begun (R146). -/
def groupSoonBusy (s : State) (g len : Nat) : Bool :=
  let x := grp s g
  let busy := fun (y : GState) => y == .tx || y == .rx || y == .cal
  busy x.state || (decide (x.transAt < s.time.tb0 + len) && (x.trans.any busy || x.then_.any busy)) ||
    s.rad.calBook.any (fun c => c.1 == g && decide (c.2.1 < s.time.tb0 + len))

/-- The groups of a role have a gap of a length from now on (R146). -/
def roleGap (s : State) (r len : Nat) : Bool :=
  (roleGroups s r).all (fun g =>
    !groupSoonBusy s g len && (grp s g).bursts.all (fun b => !b.started && decide (s.time.tb0 + len ≤ b.start)))

/-- A swap that does not wait for a gap: a forced one, and that of a unit that has failed without lock (R144, R147). -/
def swapUrgent (s : State) (r : Nat) : Bool :=
  (vget s.syn.roles r).swapForce || ((roleUnit s r).retired && !(roleUnit s r).locked)

/-- A gap opens, a forced job can start, or the converter clock is valid again: the swap or the calibration that waits for it starts
(R142, R146, R147). -/
def gapStart (r : Nat) (s : State) : State :=
  let x := vget s.syn.roles r
  if ¬ jobMayStart s r ∨ x.swapRun ∨ (roleUnit s r).cal then s
  else if x.swapWait ∧ s.syn.reserve < 3 ∧ (swapUrgent s r ∨ roleGap s r (400 * usTu)) then swapBegin r x.swapForce s
  else if x.calWait ∧ (x.calForce ∨ roleGap s r (250 * usTu)) then calBegin r x.calForce s
  else s

/-- The jobs that waited for the converter clock start (R142). -/
def jobsResume (s : State) : State := if cnvValid s then gapStart 1 (gapStart 0 s) else s

/-! ### Losses (R137, R139…R142) -/

/-- What the loss of a role does besides muting (R139, R140, R200, R428). -/
def roleLost (r : Nat) (s : State) : State :=
  surveyAbortIf (fun v => v.role == r) (calLoseRole r (cutLost r s))

/-- The role of a unit that has failed waits for its swap, which starts at once when the unit has no lock and the converter clock is
valid (R142, R144). -/
def failedSwap (r u : Nat) (s : State) : State :=
  let s := s.modRole r (fun x => { x with swapWait := true, calWait := false })
  if (vget s.syn.units u).locked then s
  else
    let s := s.modUnit u (fun y => { y with retired := true })
    if jobMayStart s r then watchRoles (beginSwap r) s else s

/-- An in-service unit has failed (R143…R145): with a reserve that no earlier failure has claimed (R25) its role moves to it; without
one the failure is logged and the unit goes on. -/
def unitFailed (u : Nat) (s : State) : State :=
  match unitRole s u with
  | none => s
  | some r =>
    if (vget s.syn.roles r).swapRun then s
    else if s.syn.failedFirst.contains u then failedSwap r u s
    else if s.syn.reserve ≥ 3 ∨ ¬ s.syn.failedFirst.isEmpty then s.logPut 0x87 r 0 true 0
    else failedSwap r u (s.modSyn (fun y => { y with failedFirst := y.failedFirst ++ [u] }))

/-- RF_UNIT_FAILED (R143). -/
def execRfUnitFailed (u : Fin 3) (s : State) : Host.Outcome State Fault Refusal := .next (unitFailed u s)

/-- An RF unit declares loss of lock (R137, R139, R143). -/
def lossOfLock (u : Nat) (s : State) : State :=
  if ¬ (vget s.syn.units u).locked then s
  else
    let now := s.time.tb1
    let recent := (vget s.syn.units u).losses.filter (fun t => decide (now < t + secTu))
    let s' := s.modUnit u (fun y => { y with locked := false, losses := recent ++ [now] })
    match unitRole s u with
    | none => s'
    | some r =>
      let t := watchRoles (fun s => (s.modUnit u (fun y => { y with locked := false, losses := recent ++ [now] })).modRole r
        (fun x => { x with lost := true })) s
      let t := (t.addByte Reg.SYN_EVENT_COUNT (8 * r) 1).event Reg.SYN_INT_STATUS 0 r 0
      let t := roleLost r t
      if recent.length ≥ 2 ∨ s.syn.failedFirst.contains u then unitFailed u t else t

/-- LOSS_OF_LOCK (R139). -/
def execLossOfLock (u : Fin 3) (s : State) : Host.Outcome State Fault Refusal := .next (lossOfLock u s)

/-- The converter clock is lost: both roles become invalid, with the effects of a loss on every path (R142). -/
def cnvLost (s : State) : State :=
  let s := watchRoles (fun s => s.modSyn (fun y => { y with cnvLock := false, holdover := false, cnvInvalid := true })) s
  let s := (s.addByte Reg.SYN_EVENT_COUNT 16 1).event Reg.SYN_INT_STATUS 8 0 0
  roleLost 1 (roleLost 0 s)

/-- CNV_LOSS_OF_LOCK (R142). -/
def execCnvLossOfLock (s : State) : Host.Outcome State Fault Refusal := .next (if s.syn.cnvLock then cnvLost s else s)

/-- HOLDOVER_EXPIRY (R134, R142). -/
def execHoldoverExpiry (s : State) : Host.Outcome State Fault Refusal := .next (if s.syn.holdover then cnvLost s else s)

/-- BAND_SEARCH_START (R141). -/
def execBandSearchStart (u : Fin 3) (s : State) : Host.Outcome State Fault Refusal :=
  .next (if (vget s.syn.units u).on ∧ ¬ (vget s.syn.units u).locked then s.modUnit u (fun y => { y with search := true }) else s)

/-- 10 ms after a loss without recovery: latched (R141, R142). -/
def latchLo (x : LatchOf) (s : State) : State :=
  match x with
  | .role r =>
    let y := vget s.syn.roles r
    if y.lost ∧ ¬ roleReady s r ∧ ¬ y.latched then
      (watchRoles (·.modRole r (fun y => { y with latched := true, lost := false })) s).event Reg.SYN_INT_STATUS 2 r 0
    else s
  | .converter =>
    if s.syn.cnvInvalid ∧ ¬ s.syn.cnvLatched then
      (watchRoles (·.modSyn (fun y => { y with cnvLatched := true })) s).event Reg.SYN_INT_STATUS 2 2 0
    else s

/-- LO_LATCHED (R141). -/
def execLoLatched (x : LatchOf) (s : State) : Host.Outcome State Fault Refusal := .next (latchLo x s)

/-- A loop declares lock (R136). -/
def lockDeclared (loop : LockLoop) (s : State) : State :=
  match loop with
  | .timeBase => s.modSyn (fun y => { y with tbLock := true })
  | .unit u band => watchRoles (fun s =>
      let s := s.modUnit u (fun y => if y.on then { storeBand band y with locked := true, search := false } else y)
      match unitRole s u with
      | some r => markResume r s
      | none => s) s
  | .converter =>
    let s := match s.pwr.climb with
      | .refLock b => (setRefValid b true (s.modSyn (fun y => { y with active := b2n b, refGone := false }))).modPwr
          (fun w => { w with climb := .refOk })
      | _ => s
    if s.syn.active ≥ 2 then s
    else jobsResume <| watchRoles (fun s => (setRefValid (s.syn.active == 1) true s).modSyn (fun y => { y with
      cnvLock := true, holdover := false, cnvInvalid := false, refGone := false
      cnvResume := if y.cnvInvalid ∧ ¬ y.cnvLatched then 0xFF else y.cnvResume })) s

/-- LOCK_DECLARED (R136). -/
def execLockDeclared (loop : LockLoop) (s : State) : Host.Outcome State Fault Refusal := .next (lockDeclared loop s)

/-! ### Host commands (R141, R142, R147) -/

/-- RESUME (R141): ignored for a role that is not latched. -/
def resumeRole (r : Nat) (s : State) : State := if (vget s.syn.roles r).latched then s.modRole r (fun x => { x with arm := true }) else s

/-- RESUME: `b` names LO_B. -/
def execResume (b : Bool) (s : State) : Host.Outcome State Fault Refusal := .next (s.hosted Reg.SYN_CTRL (resumeRole (b2n b)))

/-- RESUME_CNV (R142). -/
def resumeCnv (s : State) : State := if s.syn.cnvLatched then s.modSyn (fun y => { y with cnvArm := true }) else s

/-- RESUME_CNV. -/
def execResumeCnv (s : State) : Host.Outcome State Fault Refusal := .next (s.hosted Reg.SYN_CTRL resumeCnv)

/-- VCOCAL (R146, R147): one that waits gives way to a swap that waits. -/
def vcocal (r : Nat) (force : Bool) (s : State) : State :=
  let x := vget s.syn.roles r
  if ¬ x.used ∨ (roleUnit s r).cal ∨ (x.swapWait ∧ ¬ force) then s
  else if force ∧ ¬ x.swapRun ∧ jobMayStart s r then calBegin r true s
  else s.modRole r (fun x => { x with calWait := true, calForce := x.calForce || force })

/-- VCOCAL: `b` names LO_B. -/
def execVcocal (b force : Bool) (s : State) : Host.Outcome State Fault Refusal :=
  .next (s.hosted Reg.SYN_CTRL (vcocal (b2n b) force))

/-- SWAP (R147): it supersedes a calibration that waits, and needs a unit in reserve. -/
def swapRole (r : Nat) (force : Bool) (s : State) : State :=
  let x := vget s.syn.roles r
  if ¬ x.used ∨ x.swapRun ∨ s.syn.reserve ≥ 3 then s
  else
    let s := s.modRole r (fun x => { x with calWait := false, calForce := false })
    if force ∧ ¬ (roleUnit s r).cal ∧ jobMayStart s r then swapBegin r true s
    else s.modRole r (fun x => { x with swapWait := true, swapForce := x.swapForce || force })

/-- SWAP: `b` names LO_B. -/
def execSwap (b force : Bool) (s : State) : Host.Outcome State Fault Refusal := .next (s.hosted Reg.SYN_CTRL (swapRole (b2n b) force))

/-- A write of SYN_CTRL: every bit of it. -/
def synCtrlWrite (w : Word) (s : State) : State :=
  let s := whenB (bitOf w 0) (resumeRole 0) s
  let s := whenB (bitOf w 1) (resumeRole 1) s
  let s := whenB (bitOf w 2) resumeCnv s
  let force := bitOf w 8
  let s := whenB (bitOf w 11) (swapRole 0 force) s
  let s := whenB (bitOf w 12) (swapRole 1 force) s
  let s := whenB (bitOf w 9) (vcocal 0 force) s
  whenB (bitOf w 10) (vcocal 1 force) s

/-! ### Gaps, calibrations and swaps (R144…R147) -/

/-- VCO_CAL_GAP_START (R146). -/
def execVcoCalGapStart (r : Fin 2) (s : State) : Host.Outcome State Fault Refusal := .next (gapStart r s)

/-- A VCO calibration ends with the band it found; without one the unit has failed (R143, R146). -/
def vcoCalDone (u : Nat) (band : Option Nat) (s : State) : State :=
  if ¬ (vget s.syn.units u).cal then s
  else
    let s := watchRoles (fun s =>
      let s := s.modUnit u (fun y => { (match band with | some b => storeBand b y | none => { y with locked := false }) with
        cal := false, needCal := false })
      let s := whenB (s.pwr.leavingDoze && band.isSome) (fun s => s.modUnit u (fun y => { y with locked := true })) s
      match unitRole s u with
      | some r => markResume r (s.modRole r (fun x => { x with calForce := false, lost := x.lost || band.isNone }))
      | none => s) s
    match band with
    | some _ => s
    | none => unitFailed u s

/-- VCO_CAL_DONE (R146). -/
def execVcoCalDone (u : Fin 3) (band : Option (Fin 64)) (s : State) : Host.Outcome State Fault Refusal :=
  .next (vcoCalDone u (band.map (·.val)) s)

/-- A swap is done: the role is on its new unit (R144). A failed unit is retired and the reserve engaged; after a planned swap the
old unit is the reserve. -/
def swapDone (r : Nat) (s : State) : State :=
  let x := vget s.syn.roles r
  if ¬ x.swapRun then s
  else
    let old := x.unit
    let failed := s.syn.failedFirst.contains old
    let t := watchRoles (fun s =>
      let s := s.modUnit x.swapUnit (fun y => { y with
        locked := true, search := false, cal := false, calTemp := (vget s.thm.zones 10).temp })
      let s := s.modUnit old (fun y => { y with retired := y.retired || failed, on := !failed && y.on, locked := !failed && y.locked })
      let s := s.modSyn (fun y => { y with
        reserve := if failed then 3 else old, failedFirst := y.failedFirst.filter (fun u => u != old) })
      markResume r (s.modRole r (fun x => { x with unit := x.swapUnit, swapRun := false, swapForce := false, swapUnit := 0 }))) s
    let t := t.event Reg.SYN_INT_STATUS 3 r 0
    let t := engageReserve 5 t
    if failed then t.reserveLow else t

/-- SYNTH_SWAP_DONE (R144). -/
def execSynthSwapDone (r : Fin 2) (s : State) : Host.Outcome State Fault Refusal := .next (swapDone r s)

/-- The reserve proves itself at the in-service frequencies, or is retired (R145). -/
def reserveProving (ok : Bool) (bandA bandB : Nat) (s : State) : State :=
  let u := s.syn.reserve
  if u ≥ 3 then s
  else if ok then
    forAll (List.range 2) (fun r s =>
      let x := vget s.syn.roles r
      if x.used then s.modUnit u (fun y => { y with
        bands := ((x.div, x.n, x.f), if r = 0 then bandA else bandB) :: y.bands.filter (fun z => z.1 != (x.div, x.n, x.f)) })
      else s) s
  else
    let s := (s.modUnit u (fun y => { y with retired := true, on := false, locked := false })).modSyn
      (fun y => { y with reserve := 3, failedFirst := [] })
    let s := forAll (List.range 2) (fun r s => s.modRole r (fun x => { x with
      swapWait := false, swapForce := false, calWait := x.calWait || (x.swapWait && (roleUnit s r).needCal) })) s
    writeReserveMap [] s.reserveLow

/-- RESERVE_PROVING (R145). -/
def execReserveProving (ok : Bool) (bandA bandB : Fin 64) (s : State) : Host.Outcome State Fault Refusal :=
  .next (reserveProving ok bandA bandB s)

/-- SYN_CAL_WAIT_LONG (R146). -/
def execSynCalWaitLong (r : Fin 2) (s : State) : Host.Outcome State Fault Refusal :=
  let x := vget s.syn.roles r
  .next (if (x.calWait ∨ x.swapWait) ∧ ¬ x.waitLong then
    (s.modRole r (fun x => { x with waitLong := true })).raise Reg.SYN_INT_STATUS 4 else s)

/-- A tuning voltage in percent of range passes ±80 %: a calibration is needed; past ±90 % in every band the unit has failed
(R143, R146). -/
def tuningLimit (u : Nat) (v : Int) (everyBand : Bool) (s : State) : State :=
  let s := s.modUnit u (fun y => { y with vtune := v, needCal := y.needCal || decide (v.natAbs > 80) })
  let s := if v.natAbs > 90 ∧ everyBand then unitFailed u s else s
  if v.natAbs > 80 then
    match unitRole s u with
    | some r => if (vget s.syn.roles r).swapRun then s else vcocal r false s
    | none => s
  else s

/-- TUNING_VOLTAGE_LIMIT (R146). -/
def execTuningVoltageLimit (u : Fin 3) (v : Int) (everyBand : Bool) (s : State) : Host.Outcome State Fault Refusal :=
  .next (tuningLimit u v everyBand s)

/-- The synthesis zone has moved 25 °C since the last calibration of a unit in service (R146). -/
def synZoneMoved (s : State) : State :=
  forAll (List.range 2) (fun r s =>
    if (vget s.syn.roles r).used ∧ ((vget s.thm.zones 10).temp - (roleUnit s r).calTemp).natAbs ≥ 400 then vcocal r false s else s) s

/-! ### Resumption at group boundaries (R141) -/

/-- At a boundary of a group: a latched role that is armed and ready resumes, and so do the groups of a role that came back. -/
def resumeAt (g : Nat) (s : State) : State :=
  let s := if s.syn.cnvLatched ∧ s.syn.cnvArm ∧ ¬ s.syn.cnvInvalid then
      jobsResume (watchRoles (fun s => s.modSyn (fun y => { y with cnvLatched := false, cnvArm := false, cnvResume := 0xFF })) s)
    else s
  let s := forAll (List.range 2) (fun r s =>
    let x := vget s.syn.roles r
    if x.latched ∧ x.arm ∧ roleReady s r ∧ cnvValid s ∧ (roleGroups s r).contains g then
      watchRoles (·.modRole r (fun x => { x with latched := false, arm := false, resume := bitsOf 8 (fun g => (roleGroups s r).contains g) })) s
    else s) s
  let s := forAll (List.range 2) (fun r s =>
    if nbit (vget s.syn.roles r).resume g ∧ roleValid s r then
      (s.modRole r (fun x => { x with resume := x.resume - 2 ^ g })).event Reg.SYN_INT_STATUS 1 r 0
    else s) s
  if nbit s.syn.cnvResume g ∧ cnvValid s then
    (s.modSyn (fun y => { y with cnvResume := y.cnvResume - 2 ^ g })).event Reg.SYN_INT_STATUS 1 2 0
  else s

/-! ### Fold rotators (R149) -/

/-- A rotator word moves one step to its target along the shorter direction. -/
def rotStep (cur tgt : Nat) : Nat :=
  if cur = tgt then cur
  else if (tgt + 1024 - cur) % 1024 ≤ 512 then (cur + 1) % 1024
  else (cur + 1023) % 1024

/-- The rotators at a tick: one step per comparison cycle, which is two ticks. -/
def rotTick (s : State) : State :=
  if s.time.tb1 / tickTu % 2 = 0 then
    s.modSyn (fun y => { y with
      rotTx := vall y.rotTx (fun f c => rotStep c (vget y.tgtTx f)), rotRx := vall y.rotRx (fun f c => rotStep c (vget y.tgtRx f)) })
  else s

/-- A fold's rotator takes its target of the register. -/
def rotTake (tx : Bool) (f : Nat) (s : State) : State :=
  let w := s.reg (Reg.SYN_PHASE f)
  s.modSyn (fun y => if tx then { y with tgtTx := vset y.tgtTx f (fld w 9 0) } else { y with tgtRx := vset y.tgtRx f (fld w 25 16) })

/-- SYN_PHASE: a target applies at the group boundary in TX or RX, otherwise at once (R149). -/
def phaseWrite (f : Nat) (w : Word) (s : State) : State :=
  let s := s.setReg (Reg.SYN_PHASE f) (w &&& 0x03FF03FF)
  let held := fun (tx : Bool) => match lineGroup s f with
    | some g => if tx then groupTx s g else groupRx s g
    | none => false
  let s := if held true then s else rotTake true f s
  if held false then s else rotTake false f s

/-- SYN_PHASE_WRITE (R149). -/
def execSynPhaseWrite (f : Fin 8) (w : Word) (s : State) : Host.Outcome State Fault Refusal :=
  .next (s.hosted (Reg.SYN_PHASE f) (phaseWrite f w))

/-- At a boundary of a group, the rotators of its folds take their targets. -/
def rotBoundary (g : Nat) (s : State) : State :=
  forAll ((List.range 8).filter (fun f => lineGroup s f == some g)) (fun f s => rotTake false f (rotTake true f s)) s

/-! ### What the registers show (Table 5-4) -/

/-- SYN_REF_CFG: the frequency fields come from the supply record. -/
def synRefCfg (s : State) : Word :=
  let b := (sysRec s 1).getD []
  put (put (s.reg Reg.SYN_REF_CFG) 11 10 (byteAt b 3)) 9 8 (byteAt b 2)

/-- SYN_REF_STATUS. -/
def synRefStatus (s : State) : Word :=
  pk [(8, b2n s.syn.tbLock), (7, b2n s.syn.cnvLatched), (6, b2n s.syn.cnvLock), (5, b2n s.syn.holdover), (4, b2n s.syn.bValid),
      (3, b2n s.syn.aValid), (0, s.syn.active)]

/-- SYN_MAP. -/
def synMap (s : State) : Word := BitVec.ofNat 32 (synMapWord s)

/-- ROLE of a unit. -/
def unitRoleCode (s : State) (u : Nat) : Nat :=
  match unitRole s u with
  | some r => r
  | none => if s.syn.reserve = u ∨ s.syn.roles.toList.any (fun x => x.swapRun && x.swapUnit == u) then 2 else 3

/-- SYN_UNIT_STATUS. -/
def synUnitStatus (s : State) (u : Nat) : Word :=
  let y := vget s.syn.units u
  pk [(31, b2n y.retired), (30, b2n y.locked), (29, b2n y.cal), (28, b2n y.needCal), (26, if y.on then unitRoleCode s u else 3),
      (16, ofS 8 y.vtune), (8, y.div), (0, y.band)]

/-- SYN_LO_FREQ. -/
def synLoFreq (s : State) (r : Nat) : Word := BitVec.ofNat 32 (roleKhz s r)

/-- SYN_LO_WORD. -/
def synLoWord (s : State) (r : Nat) : Word :=
  let x := vget s.syn.roles r
  if x.used then pk [(24, x.n), (0, x.f)] else 0

/-- SYN_LO_STATUS. -/
def synLoStatus (s : State) : Word :=
  let one := fun r =>
    let x := vget s.syn.roles r
    b2n (roleUnit s r).cal * 32 + b2n x.swapRun * 16 + b2n x.swapWait * 8 + b2n x.calWait * 4 + b2n x.latched * 2 + b2n (roleValid s r)
  pk [(0, one 0), (8, one 1)]

/-- SYN_PHASE. -/
def synPhase (s : State) (f : Nat) : Word :=
  put (put (s.reg (Reg.SYN_PHASE f)) 31 31 (b2n (vget s.syn.rotTx f != vget s.syn.tgtTx f))) 30 30
    (b2n (vget s.syn.rotRx f != vget s.syn.tgtRx f))

end Sys2Proof.Machine
end

