-- ==== Sys2Proof/Machine/Lne.lean ====
section
/-!
DEFINITION. Serial lanes (R232…R254): bring-up, port and lane states, reserve lanes, quarantine; and the commands of the LNE block.
-/

namespace Sys2Proof.Machine

/-! ### Lanes and ports -/

/-- A port. -/
def port (s : State) (q : Nat) : Port := vget s.lne.ports q
/-- A lane. -/
def lane (s : State) (n : Nat) : Lane := vget s.lne.lanes n
/-- A reserve lane. -/
def reserveLane (s : State) (i : Nat) : ReserveLane := vget s.lne.reserves i
/-- Change a reserve lane. -/
def modReserve (i : Nat) (f : ReserveLane → ReserveLane) (s : State) : State :=
  s.modLne (fun l => { l with reserves := vmod l.reserves i f })

/-- The lane of reserve `i`: 8, 9, 26, 27. -/
def reserveNumber (i : Nat) : Nat := if i = 0 then 8 else if i = 1 then 9 else if i = 2 then 26 else 27

/-- The reserve a lane is. -/
def reserveOf (n : Nat) : Option Nat := if n = 8 then some 0 else if n = 9 then some 1 else if n = 26 then some 2 else if n = 27 then some 3 else none

/-- Positions of a port (Table 9-1). -/
def positions (q : Nat) : Nat := if q ≤ 1 then 4 else if q ≤ 3 then 8 else 1

/-- The reserve that a running swap trains. -/
def Port.newcomer (p : Port) : Nat := (p.swap.map (·.2)).getD 0x1F

/-- The lane belongs to the port and is in service: not retired, and not the reserve of a swap that runs (R25). -/
def lanesOf (s : State) (q n : Nat) : Bool :=
  (lane s n).port == q && (lane s n).state != .retired && n != (port s q).newcomer

/-- The lanes in service of a port. -/
def portLanes (s : State) (q : Nat) : List Nat := (List.range 29).filter (lanesOf s q)

/-- The lane that serves a position; 0x1F for none. -/
def servingLane (s : State) (q i : Nat) : Nat := ((portLanes s q).find? (fun n => (lane s n).pos == i)).getD 0x1F

/-- The positions of a port that no lane serves. -/
def deadPositions (s : State) (q : Nat) : List Nat := (List.range (positions q)).filter (fun i => servingLane s q i == 0x1F)

/-- Signal is still looked for: in L1, and in L2 on position 0 of the fronthaul ports (Table 9-4). -/
def keepsSignal (st : LaneState) (l : Lane) : Bool := st == .l1 || (st == .l2 && decide (l.port < 2) && l.pos == 0)

/-- A lane takes a state (Table 9-4): signal and lock are there in L0, a lock found before stays in L1, and nothing is locked elsewhere. -/
def Lane.goes (l : Lane) (st : LaneState) : Lane :=
  { l with state := st, sig := st == .l0 || (l.sig && keepsSignal st l), cdr := st == .l0 || (l.cdr && st == .l1)
           suspect := l.suspect && st == .l0 }

/-- Put a lane in a state. -/
def laneTo (n : Nat) (st : LaneState) (s : State) : State := s.modLane n (·.goes st)

/-- Put the lanes of a port in a state. -/
def lanesTo (q : Nat) (st : LaneState) (s : State) : State := forAll (portLanes s q) (fun n => laneTo n st) s

/-- The state that a port in a state has its lanes in. -/
def lanesIn : PortState → LaneState
  | .l0 | .held | .quarantined => .l0
  | .l1 => .l1
  | .l2 => .l2
  | .training | .downFault => .train
  | .off => .off

/-- A test on a lane ends because the lane is needed (R245, R246): a reserve is free again. -/
def abortTest (n : Nat) (s : State) : State :=
  if (lane s n).state = .test then
    let s := (s.setFld (Reg.LNE_TEST_CTRL n) 31 31 0).raise Reg.LNE_INT_STATUS 7
    match reserveOf n with
    | some i =>
      if (reserveLane s i).state = 2 then laneTo n .l2 (modReserve i (fun r => { r with state := 0 }) s)
      else laneTo n (lanesIn (port s (lane s n).port).state) s
    | none => laneTo n (lanesIn (port s (lane s n).port).state) s
  else s

/-- The tests on a port's lanes end. -/
def endTests (q : Nat) (s : State) : State := forAll (portLanes s q) abortTest s

/-- A port leaves L0 (R254): PORT_DOWN, a link-down event, and the start of a gap (R267). -/
def leaveL0 (q : Nat) (s : State) : State :=
  let st := (port s q).state
  if st = .l0 ∨ st = .held ∨ st = .quarantined then
    (((endTests q s).modPort q (fun p => { p with downAt := p.downAt.or (some s.time.tb0) })).addHi (Reg.LNE_PORT_EVENT q) 1).raise
      Reg.LNE_INT_STATUS 1
  else s

/-- The base page that a port sends where its mode has Clause 73 auto-negotiation (R234, Table 9-2): the ability of its mode alone, the
FEC request, no PAUSE bit, and no next page beyond the null page. -/
def basePage (s : State) (q : Nat) : Option BasePage :=
  let page := fun (a : Ability) => some { ability := a, fec := true, pause := (false, false), nextPages := false }
  let mode := s.fld (Reg.LNE_PORT_CFG q) 1 0
  if q < 2 then (if mode = 1 then page .clause137 else if mode = 2 then page .clause136 else none)
  else if q = 4 ∧ mode = 1 then page .clause72
  else none

/-! ### Gaps (R267) -/

/-- A port that is back in L0 tells its flocks of the interval. -/
def endGap (q : Nat) (s : State) : State :=
  match (port s q).downAt with
  | none => s
  | some t =>
    let s := s.modPort q (fun p => { p with downAt := none })
    if q ≥ 2 then s
    else
      let us := (s.time.tb0 - t) / usTu
      let s := s.raise Reg.FHP_INT_STATUS 8
      forAll ((List.range 8).filter (fun k => match s.flockCfg k with
        | some f => nbit f.ports q
        | none => false)) (fun k s =>
          let tag := (vget s.fhp.flocks k).noticeTag
          (s.modFlock k (fun f => { f with noticeTag := (tag + 1) % 65536 })).post k anyPort 0xC0 tag
            (noticeBody 0x0A q (min us 0xFFFFFFFF) t)) s

/-! ### Reserves (R247…R251) -/

/-- A reserve can take a failed lane of a port. -/
def eligible (s : State) (q i : Nat) : Bool :=
  let r := reserveLane s i
  r.spare && decide ((i < 2) = (q < 2)) && !(port s q).refused.contains i &&
    (if i < 2 then s.bit Reg.LNE_CFG 0 else s.bit Reg.LNE_CFG 1 && decide (r.wired + 1 = q))

/-- The lowest-numbered eligible reserve of a port. -/
def firstReserve (s : State) (q : Nat) : Option Nat := if q ≥ 4 then none else (List.range 4).find? (eligible s q)

/-- The payload of a LANE frame (Table 12-4). -/
def laneBody (event position reserve : Nat) : List Byte :=
  beBytes 1 event ++ beBytes 1 position ++ beBytes 1 reserve ++ beBytes 1 0

/-- Send a LANE frame on the side of a fold-link port. -/
def laneFrame (q event position reserve : Nat) (s : State) : State := casSend 0x08 (q - 2) 0 false (laneBody event position reserve) s

/-- The steering code of a fronthaul reserve (R247): 0xF for an unused lane. -/
def steer (i code : Nat) (s : State) : State := if i < 2 then s.modLne (fun l => { l with lsw := vset l.lsw i code }) else s

/-- The neighbour is asked for its reserve, traffic stops, and a reserve comes out of L2 for a position (R249): it goes through steps 2 to
5. `n` is the failed lane. -/
def startSwap (q n pos i : Nat) (ask : Bool) (s : State) : State :=
  let rn := reserveNumber i
  let fold := decide (q = 2 ∨ q = 3)
  let s := if fold ∧ ask then laneFrame q 2 pos (i - 2) s else s
  let up := decide ((port s q).state = .l0 ∨ (port s q).state = .held ∨ (port s q).state = .quarantined)
  let s := leaveL0 q (abortTest rn s)
  let s := s.modPort q (fun p => { p with
    state := .training, step := if up then 2 else p.step, paused := false, swap := some (n, rn), trainAt := s.time.tb1 })
  let s := modReserve i (fun r => { r with state := 1, port := q % 2, pos := pos }) s
  let s := steer i (4 * q + pos) (s.modLane rn (fun l => { l.goes .train with port := q, pos := pos }))
  if fold then s.modNbr (q - 2) (fun b => { b with swap := true }) else s

/-- A lane is powered down for good (R23): a reserve reads retired, and its steering code names no lane. -/
def retireLane (n : Nat) (s : State) : State :=
  let s := s.modLane n (fun l => { l.goes .retired with port := if (reserveOf n).isSome then 7 else l.port })
  match reserveOf n with
  | some i => steer i 0xF (modReserve i (fun r => { r with state := 3 }) s)
  | none => s

/-- A port is down and waits for a reserve (R251). -/
def portDown (q : Nat) (s : State) : State :=
  let s := (leaveL0 q s).modPort q (fun p => { p with
    state := .downFault, loopback := none, external := false, swap := none, paused := false, refused := [] })
  s.event Reg.LNE_INT_STATUS 4 q 0

/-- A lane has failed and no reserve can take it: the port goes down, and the lane is looped back (R251). -/
def portFault (q n : Nat) (s : State) : State :=
  let pos := (lane s n).pos
  let s := if q = 2 ∨ q = 3 then laneFrame q 1 pos 0 s else s
  (portDown q s).modPort q (fun p => { p with loopback := some n })

/-- A lane swap runs on a port of the kind: fronthaul, or fold link. -/
def swapRuns (s : State) (fh : Bool) : Bool :=
  ((if fh then [0, 1] else [2, 3]).any (fun q => (port s q).swap.isSome))

/-- A failure no longer waits. -/
def failureDone (n : Nat) (s : State) : State := s.modLne (fun l => { l with waiting := l.waiting.filter (· != n) })

/-- A failure that waits is acted on (R25, R249…R251): not in a port that is held, in L1, in L2 or down, nor while a swap runs on its
port; a reserve takes it unless a swap of the same kind runs, and with no reserve the port goes down. -/
def tryFailure (n : Nat) (s : State) : State :=
  let q := (lane s n).port
  let p := port s q
  if q ≥ 4 ∨ (lane s n).state = .retired then failureDone n s
  else if (p.state ≠ .l0 ∧ p.state ≠ .training ∧ p.state ≠ .quarantined) ∨ p.swap.isSome then s
  else
    match firstReserve s q with
    | none => portFault q n (failureDone n s)
    | some i => if swapRuns s (decide (q < 2)) then s else startSwap q n (lane s n).pos i true (failureDone n s)

/-- The failures that wait, in the order of detection (R25, R250). -/
def runFailures (s : State) : State := forAll s.lne.waiting tryFailure s

/-- A lane has failed (R248, R250). -/
def laneFail (n : Nat) (s : State) : State :=
  let q := (lane s n).port
  let p := port s q
  if q > 4 ∨ p.state = .downFault ∨ p.state = .off then s
  else if q = 4 then (leaveL0 4 s).modPort 4 (fun p => { p with state := .downFault })
  else
    let s := s.modPort q (fun p => { p with dirty := p.dirty || p.quar, failAt := some s.time.tb1 })
    runFailures (s.modLne (fun l => { l with waiting := if l.waiting.contains n then l.waiting else l.waiting ++ [n] }))

/-- CDR_LOSS (R248): a CDR loses lock; `long` tells that it stays unlocked for 1 ms while the others hold it, and without it the lock is
back. -/
def cdrLoss (n : Nat) (long : Bool) (s : State) : State :=
  let now := s.time.tb1
  let recent := (lane s n).losses.filter (fun t => decide (now < t + secTu))
  let st := (lane s n).state
  let s := s.modLane n (fun l => { l with cdr := l.cdr && !long, losses := recent ++ [now] })
  if st = .l0 ∧ (long ∨ recent.length ≥ 2) then laneFail n s else s

/-- CDR_LOSS (R248). -/
def execCdrLoss (n : Fin 29) (long : Bool) (s : State) : Host.Outcome State Fault Refusal := .next (cdrLoss n long s)

/-- LNE_LANE_CTRL.SWAP (R248, R249). -/
def swapLane (n : Nat) (s : State) : State :=
  let q := (lane s n).port
  if (lane s n).state = .l0 ∧ q < 4 ∧ (firstReserve s q).isSome then laneFail n s else s.refusedWrite (Reg.LNE_LANE_CTRL n)

/-- SWAP_LANE (R248). -/
def execSwapLane (n : Fin 29) (s : State) : Host.Outcome State Fault Refusal :=
  .next (s.hosted (Reg.LNE_LANE_CTRL n) (swapLane n))

/-! ### Bring-up (R239) -/

/-- A position that no lane serves gets a reserve, or the port stays down (R251). -/
def fillDead (q pos : Nat) (s : State) : State :=
  match firstReserve s q with
  | none => portDown q s
  | some i => if swapRuns s (decide (q < 2)) then s else startSwap q 0x1F pos i true s

/-- Bring-up from step 1 (R239): the failures that waited for it are acted on (R250). A port one of whose positions no lane serves needs a
reserve first (R251). -/
def bringUp (q : Nat) (s : State) : State :=
  let s := leaveL0 q s
  let s := (lanesTo q .train s).modPort q (fun p => { p with
    state := .training, step := 1, paused := false, trainAt := s.time.tb1, page := basePage s q })
  match deadPositions s q with
  | pos :: _ => fillDead q pos s
  | [] => runFailures s

/-- A running swap is given up: its reserve is free again, and its failure waits. -/
def dropSwap (q : Nat) (s : State) : State :=
  match (port s q).swap with
  | none => s
  | some (n, rn) =>
    let i := (reserveOf rn).getD 0
    let s := steer i 0xF (modReserve i (fun r => { r with state := 0 }) (s.modLane rn (fun l => { l.goes .l2 with port := 7 })))
    (s.modPort q (fun p => { p with swap := none })).modLne (fun l => { l with
      waiting := if n < 29 then n :: l.waiting.filter (· != n) else l.waiting })

/-- Take a port to OFF. -/
def portOff (q : Nat) (s : State) : State :=
  let s := leaveL0 q (dropSwap q s)
  (lanesTo q .off s).modPort q (fun p => { p with
    state := .off, step := 0, paused := false, loopback := none, external := false })

/-- The lane's mode has link training (Table 9-2): a fold-link lane, and any other by the mode of the port it serves. -/
def lineTrains (s : State) (n : Nat) : Bool :=
  let q := (lane s n).port
  if q < 2 then decide (s.fld (Reg.LNE_PORT_CFG q) 1 0 ≠ 0)
  else if q = 4 then s.fld (Reg.LNE_PORT_CFG 4) 1 0 == 1
  else decide (10 ≤ n ∧ n < 28)

/-- What bring-up found on a lane; training leaves its own taps in force (R238). -/
def laneUp (q i : Nat) (k : LaneFound) (s : State) : State :=
  let n := k.lane.val
  let s := s.modLane n (fun l => { l.goes .l0 with port := q, pos := i, rxInv := k.rxInv, suspect := false })
  let s := s.setReg (Reg.LNE_SKEW n) (pk [(0, if k.skew < 65536 then k.skew else (Config.skewOver k.skew).toNat)])
  let s := s.setReg (Reg.LNE_RX_EQ n) (pk [(16, k.eye.toNat), (0, k.ctle.toNat)])
  whenB (lineTrains s n) (fun s => s.setFld (Reg.LNE_TX_EQ n) 23 4 (fld k.taps 23 4)) s

/-- The lanes of a port are up on positions, with the map of what serves each. -/
def lanesUp (q : Nat) (found : List (Nat × LaneFound)) (s : State) : State :=
  let s := forAll found (fun x => laneUp q x.1 x.2) s
  s.modPort q (fun p => { p with
    map := vall p.map (fun i _ => match found.find? (fun x => x.1 == i) with
      | some x => x.2.lane.val
      | none => 0x1F)
    reversed := decide (positions q > 1) && found.all (fun x => (reserveOf x.2.lane.val).isSome ||
      (vget homeLanes x.2.lane.val).pos + x.1 + 1 == positions q) })

/-- A port's state once it is in L0. -/
def l0State (p : Port) : PortState := if p.quar then .quarantined else if p.held then .held else .l0

/-- A port that is in L0 and in service tells its flocks (R267). -/
def backInService (q : Nat) (s : State) : State := if (port s q).state = .l0 then endGap q s else s

/-- The port is in L0 (R239): its duration; a quarantine begins its clean second (R253). -/
def reachL0 (q : Nat) (s : State) : State :=
  let us := min 0x3FFF ((s.time.tb1 - (port s q).trainAt) / usTu)
  let s := s.modPort q (fun p => { p with
    state := l0State p, step := 5, external := false, loopback := none, dirty := false, refused := [] })
  let s := (s.setFld (Reg.LNE_PORT_STATUS q) 13 0 us).raise Reg.LNE_INT_STATUS 0
  let s := if q = 2 ∨ q = 3 then s.modNbr (q - 2) (fun b => { b with l0Since := s.time.tb1 })
    else if q < 2 then s.modTim (fun t => { t with ports := vmod t.ports q (fun p => { p with listening := true }) })
    else s
  runFailures (backInService q s)

/-- The skew that a port tolerates between its lanes, in ps (R242). -/
def skewLimit (q : Nat) : Nat := if q < 2 then 200000 else 100000

/-- A skew is beyond the tolerance. -/
def skewBad (q : Nat) (found : List LaneFound) : Bool := found.any (fun k => decide (k.skew > skewLimit q))

/-- Bring-up found exactly these lanes. -/
def foundAll (want : List Nat) (found : List LaneFound) : Bool :=
  found.length == want.length && want.all ((found.map (·.lane.val)).contains ·)

/-- What a port's lanes have shown when its bring-up has reached a step: signal after step 1, a locked CDR after step 2. -/
def lanesReached (q reached : Nat) (s : State) : State :=
  forAll (portLanes s q) (fun n s => s.modLane n (fun l => { l with sig := l.sig || decide (reached ≥ 2), cdr := l.cdr || decide (reached ≥ 3) })) s

/-- A reserve that fails during its handover is retired, and the next one is tried (R25). -/
def reserveFails (q : Nat) (s : State) : State :=
  match (port s q).swap with
  | none => s
  | some (n, rn) =>
    let pos := (lane s rn).pos
    let s := writeReserveMap [] (retireLane rn (s.modPort q (fun p => { p with swap := none })))
    if n < 29 then runFailures (s.modLne (fun l => { l with waiting := n :: l.waiting.filter (· != n) })) else fillDead q pos s

/-- A bring-up step fails its limit (R239): step 1 has none; `reached` is the highest step that every position has reached. The port starts
again after 10 ms, or at its next retry when the fault lies outside (R251); a lane swap tries the next reserve (R25). -/
def stepTimeout (q step reached : Nat) (s : State) : State :=
  if (port s q).state ≠ .training ∨ (port s q).paused ∨ step < 2 ∨ step > 5 then s
  else if (port s q).swap.isSome then reserveFails q s
  else
    (lanesReached q (min reached step) s).modPort q (fun p => { p with
      step := min reached step, paused := !p.external, state := if p.external then .downFault else .training })

/-- PORT_STEP_TIMEOUT (R239). -/
def execPortStepTimeout (q : Fin 5) (step : Fin 8 × Fin 8) (s : State) : Host.Outcome State Fault Refusal :=
  .next (stepTimeout q step.1 step.2 s)

/-- PORT_L0: `found` gives the lane on each position. A skew beyond the tolerance fails step 5 (R242). -/
def portL0 (q : Nat) (found : List LaneFound) (s : State) : State :=
  let p := port s q
  let ok := p.state = .training ∨ (p.state = .off ∧ (q < 2 ∨ q = 4) ∧ s.pwr.stage ≥ 1)
  if ¬ ok ∨ p.swap.isSome ∨ p.paused ∨ ¬ foundAll (portLanes s q) found ∨ found.length ≠ positions q then s
  else if skewBad q found then stepTimeout q 5 5 s
  else reachL0 q (lanesUp q ((List.range (positions q)).zip found) s)

/-- PORT_L0 (R239). -/
def execPortL0 (q : Fin 5) (found : List LaneFound) (s : State) : Host.Outcome State Fault Refusal := .next (portL0 q found s)

/-- A suspect lane (R241): it fails step 1 or 2 while every other lane of its port passes that step. The reserve of a running swap fails
its handover. -/
def suspectLane (n step : Nat) (s : State) : State :=
  let q := (lane s n).port
  if (lane s n).state ≠ .train ∨ q ≥ 4 ∨ (port s q).state ≠ .training ∨ (port s q).paused then s
  else if (port s q).newcomer = n then reserveFails q s
  else
    let s := forAll ((portLanes s q).filter (· != n)) (fun k s => s.modLane k (fun l => { l with
      sig := true, cdr := l.cdr || decide (step ≥ 2) })) s
    laneFail n (s.modLane n (fun l => { l with suspect := true, sig := decide (step ≥ 2), cdr := false }))

/-- SUSPECT_LANE (R241). -/
def execSuspectLane (n : Fin 29 × Bool) (s : State) : Host.Outcome State Fault Refusal :=
  .next (suspectLane n.1 (if n.2 then 2 else 1) s)

/-- Bring-up begins again after its pause, or for the first time on FH0, FH1 and MG from stage 1 on (R237, R239, Table 2-3). -/
def bringUpStart (q : Nat) (s : State) : State :=
  if (port s q).paused ∨ ((port s q).state = .off ∧ (q < 2 ∨ q = 4) ∧ s.pwr.stage ≥ 1) then bringUp q s else s

/-- PORT_BRINGUP_RESTART (R239). -/
def execPortBringupRestart (q : Fin 5) (s : State) : Host.Outcome State Fault Refusal := .next (bringUpStart q s)

/-- The positions of a port once a swap has put its reserve on one. -/
def livePositions (s : State) (q pos : Nat) : List Nat := (List.range (positions q)).filter (fun i => i == pos || servingLane s q i != 0x1F)

/-- A lane swap ends (R249): the reserve has passed steps 2 to 5 and the port is aligned again, with what each position now shows; the
failed lane is retired, and the port is in L0. A skew beyond the tolerance fails the reserve's step 5. -/
def laneSwapDone (q : Nat) (found : List LaneFound) (s : State) : State :=
  match (port s q).swap with
  | none => s
  | some (n, rn) =>
    let i := (reserveOf rn).getD 0
    let at_ := (livePositions s q (lane s rn).pos).zip found
    if ¬ foundAll (rn :: (portLanes s q).filter (· != n)) found then s
    else if skewBad q found then reserveFails q s
    else
      let s := (lanesUp q at_ (retireLane n s)).modPort q (fun p => { p with swap := none })
      let s := modReserve i (fun r => { r with pos := (lane s rn).pos }) s
      let s := s.raise Reg.LNE_INT_STATUS 3
      let pool := if q < 2 then [0, 1] else [2, 3]
      let s := if pool.any (fun i => (reserveLane s i).spare) then s else s.reserveLow
      let s := engageReserve (if q < 2 then 3 else 4) s
      let s := if q = 2 ∨ q = 3 then s.modNbr (q - 2) (fun b => { b with swap := false }) else s
      match deadPositions s q with
      | [] => reachL0 q s
      | pos :: _ => fillDead q pos s

/-- LANE_SWAP_DONE (R249). -/
def execLaneSwapDone (q : Fin 5) (found : List LaneFound) (s : State) : Host.Outcome State Fault Refusal :=
  .next (laneSwapDone q found s)

/-- The loopback of a failed lane ends (R251). -/
def loopbackDone (q : Nat) (pass : Bool) (s : State) : State :=
  match (port s q).loopback with
  | none => s
  | some n =>
    let s := s.modPort q (fun p => { p with loopback := none, external := pass })
    if pass then s
    else writeReserveMap [] (retireLane n s)

/-- LANE_LOOPBACK_DONE (R251). -/
def execLaneLoopbackDone (q : Fin 5) (pass : Bool) (s : State) : Host.Outcome State Fault Refusal := .next (loopbackDone q pass s)

/-- PORT_RETRY_TIMER (R248, R251). -/
def execPortRetryTimer (q : Fin 5) (s : State) : Host.Outcome State Fault Refusal :=
  .next (if (port s q).state = .downFault ∧ ((port s q).external ∨ q.val = 4) then bringUp q s else s)

/-- A fold-link reserve has trained once and learnt its far end; a port that waits for a reserve takes it (R247, R251). -/
def discovery (i : Nat) (w : WiredTo) (s : State) : State :=
  if ¬ s.bit Reg.LNE_CFG 1 ∨ s.cas.role = 0 ∨ s.pwr.stage < 2 ∨ (reserveLane s i).state ≠ 0 then s
  else
    let (wired, far) := match w with
      | .fl0 f => (1, f.val)
      | .fl1 f => (2, f.val)
      | .nothing => (3, 0)
    let s := modReserve i (fun r => { r with wired := wired, far := far }) s
    let s := laneTo (reserveNumber i) .l2 s
    let q := wired + 1
    if wired = 3 ∨ (port s q).state ≠ .downFault ∨ (port s q).external then s
    else
      match deadPositions s q with
      | pos :: _ => fillDead q pos s
      | [] => s

/-- FOLD_RESERVE_DISCOVERY (R247): reserve 0 is lane 26, 1 lane 27. -/
def execFoldReserveDiscovery (i : Fin 2) (w : WiredTo) (s : State) : Host.Outcome State Fault Refusal := .next (discovery (i.val + 2) w s)

/-- The neighbour asks for the reserve at the far end of one of its own (R249): the swap that runs here for the same pair is the one it
asks for; otherwise one starts, unless another runs or the reserve cannot be had. -/
def laneEngage (q position reserve : Nat) (s : State) : State :=
  let n := servingLane s q position
  let mine := (List.range 4).find? (fun i => decide (i ≥ 2) && (reserveLane s i).wired + 1 == q && (reserveLane s i).far == reserve)
  match mine with
  | none => laneFrame q 4 position 0 s
  | some i =>
    if (port s q).newcomer = reserveNumber i ∧ (reserveLane s i).pos = position then laneFrame q 3 position (i - 2) s
    else if n < 29 ∧ eligible s q i ∧ ¬ swapRuns s false then startSwap q n position i false (laneFrame q 3 position (i - 2) (failureDone n s))
    else laneFrame q 4 position (i - 2) s

/-- The neighbour refuses its reserve (R249): the next one is tried. -/
def laneRefused (q : Nat) (s : State) : State :=
  match (port s q).swap with
  | none => s
  | some (n, rn) =>
    let pos := (lane s rn).pos
    let s := (dropSwap q s).modPort q (fun p => { p with refused := p.refused ++ [(reserveOf rn).getD 2] })
    if n < 29 then runFailures s else fillDead q pos s

/-- A LANE frame of the neighbour on a fold-link port (R248, R249): 1 FAIL, 2 ENGAGE, 3 ENGAGED, 4 REFUSED. -/
def laneEvent (q event position reserve : Nat) (s : State) : State :=
  match event with
  | 1 =>
    let n := servingLane s q position
    if n < 29 ∧ (lane s n).state = .l0 then laneFail n s else s
  | 2 => laneEngage q position reserve s
  | 4 => laneRefused q s
  | _ => s

/-- What the reconciliation sublayer of a port sends (R234, R244): frames in L0, idles in a port out of service, and while there is no
alignment the remote fault of Clause 117's link fault signalling. -/
inductive RsOut where
  | frames | idles | remoteFault | nothing
  deriving DecidableEq, Repr

/-- What a fronthaul port sends. -/
def rsOut (s : State) (q : Nat) : RsOut :=
  match (port s q).state with
  | .l0 => .frames
  | .held | .quarantined => .idles
  | .training | .downFault => .remoteFault
  | .off | .l1 | .l2 => .nothing

/-! ### Seconds of TB1 (R248, R252, R253) -/

/-- One lane's part of a second. -/
def laneSecond (k : LaneErrors) (s : State) : State :=
  let n := k.lane.val
  if (lane s n).state = .test then
    (s.addReg (Reg.LNE_PRBS_ERR n) k.errors).modLane n (fun l => { l with prbsLock := k.prbsLock })
  else
    let s := s.addReg (Reg.LNE_SYM_ERR n) k.errors
    if (lane s n).state = .l0 ∧ (lane s n).port < 4 ∧ k.errors > s.fld Reg.LNE_ERR_THRESH 23 0 then laneFail n s else s

/-- A lane of the port has failed in the second that ends. -/
def failedNow (s : State) (q : Nat) : Bool := (port s q).failAt.any (fun t => decide (s.time.tb1 < t + secTu))

/-- One port's part of a second: quarantine, unless a lane of it failed in the same second (R250, R252). -/
def portSecond (k : PortErrors) (s : State) : State :=
  let q := k.port.val
  if q = 4 then s
  else
    let s := (s.addReg (Reg.LNE_CW_CORR q) k.corrected).addReg (Reg.LNE_CW_UNCORR q) k.uncorrectable
    let p := port s q
    if p.state = .quarantined ∧ (k.uncorrectable > 0 ∨ p.dirty) then bringUp q (s.modPort q (fun p => { p with dirty := true }))
    else if q < 2 ∧ (p.state = .l0 ∨ p.state = .held) ∧ ¬ p.quar ∧ ¬ failedNow s q ∧ k.uncorrectable > s.fld Reg.LNE_QUAR_THRESH 15 0 then
      let s := (s.viol 3 q 5 0).raise Reg.LNE_INT_STATUS 5
      bringUp q (s.modPort q (fun p => { p with quar := true }))
    else s

/-- LANE_ERROR_WINDOW (R248, R252). -/
def execLaneErrorWindow (ls : List LaneErrors) (ps : List PortErrors) (s : State) : Host.Outcome State Fault Refusal :=
  .next (forAll ps portSecond (forAll ls laneSecond s))

/-- A quarantined port was clean for a second (R253). -/
def quarRelease (q : Nat) (s : State) : State :=
  if (port s q).state ≠ .quarantined ∨ (port s q).dirty ∨ (port s q).swap.isSome then s
  else
    let s := s.modPort q (fun p => { p with quar := false, state := if p.held then .held else .l0 })
    backInService q (s.raise Reg.LNE_INT_STATUS 6)

/-- QUAR_RELEASE (R253). -/
def execQuarRelease (q : Fin 5) (s : State) : Host.Outcome State Fault Refusal := .next (quarRelease q s)

/-! ### Host commands (R238, R244, R246) -/

/-- Some served layer slot of the warp names the port (R244). -/
def portInUse (s : State) (q : Nat) : Bool :=
  [false, true].any (fun ul => (List.range 32).any (fun l => (s.holder ul l).isSome && (match s.layer ul l with
    | some y => y.port == q
    | none => false)))

/-- The outcome of a port command; CODE keeps the last refusal. -/
def portOutcome (q code : Nat) (s : State) : State :=
  if code = 0 then s.setFld (Reg.LNE_PORT_STATUS q) 15 14 1
  else ((s.setFld (Reg.LNE_PORT_STATUS q) 15 14 2).setFld (Reg.LNE_PORT_STATUS q) 23 16 code).raise Reg.LNE_INT_STATUS 2

/-- LNE_PORT_CTRL.STATE: 0 L0, 1 L1, 2 L2 (R244). -/
def portState (q st : Nat) (s : State) : State :=
  let cur := (port s q).state
  if st ≥ 3 then s
  else if q = 2 ∨ q = 3 then portOutcome q 2 s
  else if st ≠ 0 ∧ q < 2 ∧ portInUse s q then portOutcome q 1 s
  else
    let s := portOutcome q 0 s
    if st = 0 then (if cur = .l1 ∨ cur = .l2 then bringUp q s else s)
    else if cur = .off ∨ cur = .downFault then s
    else
      (lanesTo q (if st = 1 then .l1 else .l2) (leaveL0 q (dropSwap q s))).modPort q (fun p => { p with
        state := if st = 1 then .l1 else .l2, step := 0, paused := false })

/-- LNE_PORT_STATE (R244). -/
def execLnePortState (q : Fin 5) (st : Fin 4) (s : State) : Host.Outcome State Fault Refusal :=
  .next (s.hosted (Reg.LNE_PORT_CTRL q) (portState q st))

/-- HOLD (R244): the port stays in L0 and passes no frames; its gap begins (R267). -/
def holdPort (q : Nat) (s : State) : State :=
  portOutcome q 0 (s.modPort q (fun p => { p with
    held := true, state := if p.state = .l0 then .held else p.state
    downAt := if p.state = .l0 then p.downAt.or (some s.time.tb0) else p.downAt }))

/-- HOLD (R244). -/
def execHold (q : Fin 5) (s : State) : Host.Outcome State Fault Refusal := .next (s.hosted (Reg.LNE_PORT_CTRL q) (holdPort q))

/-- HOLD_CLEAR (R244): tests of the port's lanes end, and a held port is in service again. -/
def holdClear (q : Nat) (s : State) : State :=
  let s := portOutcome q 0 ((endTests q s).modPort q (fun p => { p with held := false }))
  if (port s q).state = .held then backInService q (s.modPort q (fun p => { p with state := .l0 })) else s

/-- HOLD_CLEAR (R244). -/
def execHoldClear (q : Fin 5) (s : State) : Host.Outcome State Fault Refusal := .next (s.hosted (Reg.LNE_PORT_CTRL q) (holdClear q))

/-- RETRAIN (R244): a port that is OFF stays so, one that waits for a reserve stays down (R251), and a swap goes on. -/
def retrain (q : Nat) (s : State) : State :=
  let p := port s q
  let stays := p.state = .off ∨ p.swap.isSome ∨ (q < 4 ∧ p.state = .downFault ∧ ¬ p.external)
  let s := portOutcome q 0 s
  if stays then s else bringUp q s

/-- RETRAIN (R244). -/
def execRetrain (q : Fin 5) (s : State) : Host.Outcome State Fault Refusal := .next (s.hosted (Reg.LNE_PORT_CTRL q) (retrain q))

/-- A write of LNE_PORT_CTRL with GO: STATE, then the hold, then RETRAIN. -/
def portCtrlWrite (q : Nat) (w : Word) (s : State) : State :=
  if ¬ bitOf w 31 then s
  else
    let s := if bitOf w 5 ∨ bitOf w 4 ∨ bitOf w 3 then s else portState q (fld w 1 0) s
    let s := whenB (bitOf w 5) (holdClear q) s
    let s := whenB (bitOf w 4) (holdPort q) s
    whenB (bitOf w 3) (retrain q) s

/-- LNE_TX_EQ (R238): taps whose magnitudes sum to more than 63 are not applied; in a training mode a write sets the next preset. -/
def txEqWrite (n : Nat) (w : Word) (s : State) : State :=
  let a := Reg.LNE_TX_EQ n
  if tapSum w > 63 then (s.setFld a 31 31 1).raise Reg.LNE_INT_STATUS 8
  else
    let s := s.setFld a 31 31 0
    if lineTrains s n then s.modLane n (fun l => { l with preset := fld w 23 4 }) else s.setFld a 23 4 (fld w 23 4)

/-- LNE_TX_EQ_WRITE (R238). -/
def execLneTxEqWrite (n : Fin 29) (w : Word) (s : State) : Host.Outcome State Fault Refusal :=
  .next (s.hosted (Reg.LNE_TX_EQ n) (txEqWrite n w))

/-- A lane may run a test (R246): its port is held, or it is a reserve not engaged, or its port is MG. The fold-link reserves of a
standalone device stay OFF (R237). -/
def testable (s : State) (n : Nat) : Bool :=
  let held := (lane s n).port < 4 && (port s (lane s n).port).state == .held && lanesOf s (lane s n).port n
  match reserveOf n with
  | some i => held || ((reserveLane s i).spare && (decide (i < 2) || s.cas.role != 0))
  | none => held || n == 28

/-- A test ends on a write of EN = 0: the lane takes the state of its port, and a reserve is free again. -/
def testOff (n : Nat) (s : State) : State :=
  let s := s.modLane n (fun l => { l with prbsLock := false })
  if (lane s n).state ≠ .test then s
  else
    match reserveOf n with
    | some i =>
      if (reserveLane s i).state = 2 then laneTo n .l2 (modReserve i (fun r => { r with state := 0 }) s)
      else laneTo n (lanesIn (port s (lane s n).port).state) s
    | none => laneTo n (lanesIn (port s (lane s n).port).state) s

/-- A test begins. -/
def testOn (n : Nat) (s : State) : State :=
  let s := s.modLane n (fun l => { l with state := .test, prbsLock := false })
  match reserveOf n with
  | some i => if (reserveLane s i).spare then modReserve i (fun r => { r with state := 2 }) s else s
  | none => s

/-- LNE_TEST_CTRL (R246): PATTERN and EN are stored, and a test begins or ends; a test that may not run is ignored and logged. -/
def testWrite (n : Nat) (w : Word) (s : State) : State :=
  if bitOf w 31 ∧ ¬ testable s n then s.refusedWrite (Reg.LNE_TEST_CTRL n)
  else
    let s := s.setReg (Reg.LNE_TEST_CTRL n) (w &&& 0x80000003)
    if bitOf w 31 then testOn n s else testOff n s

/-- LNE_TEST_CTRL_WRITE (R246). -/
def execLneTestCtrlWrite (n : Fin 29) (w : Word) (s : State) : Host.Outcome State Fault Refusal :=
  .next (s.hosted (Reg.LNE_TEST_CTRL n) (testWrite n w))

/-! ### Power states (R245) -/

/-- A port remembers the state that Doze takes it from. -/
def Port.remember (p : Port) (st : PortState) : Port := { p with beforeDoze := some p.state, state := st, paused := false }

/-- Step 9 of the sleep sequence for Doze: lanes in L0, L1 and TEST go to L2, and those of a port in bring-up with them. -/
def lanesToL2 (s : State) : State :=
  let s := forAll (List.range 5) (fun q s =>
    let s := leaveL0 q s
    if (port s q).state = .off ∨ (port s q).state = .downFault then s else s.modPort q (·.remember .l2)) s
  forAll (List.range 29) (fun n s =>
    let s := abortTest n s
    let st := (lane s n).state
    if st = .l0 ∨ st = .l1 ∨ st = .train then laneTo n .l2 s else s) s

/-- A Sentinel request that runs through step 9: every lane goes to OFF. -/
def lanesOff (s : State) : State :=
  let s := forAll (List.range 5) (fun q s => ((leaveL0 q s).modPort q (·.remember .off)).modPort q (fun p => { p with step := 0 })) s
  forAll (List.range 29) (fun n s => if (lane s n).state = .retired then s else laneTo n .off (abortTest n s)) s

/-- On the way out of Doze, or on rollback from step 9, a port that was in L0 returns to it, one that was in L1 or L2 keeps that state, and
one in bring-up starts again (R245). -/
def portBack (q : Nat) (s : State) : State :=
  match (port s q).beforeDoze with
  | none => s
  | some st =>
    let s := s.modPort q (fun p => { p with beforeDoze := none })
    match st with
    | .l0 | .held | .quarantined =>
      backInService q (((lanesTo q .l0 s).modPort q (fun p => { p with state := l0State p })).raise Reg.LNE_INT_STATUS 0)
    | .l1 => (lanesTo q .l1 s).modPort q (fun p => { p with state := .l1 })
    | .l2 => (lanesTo q .l2 s).modPort q (fun p => { p with state := .l2 })
    | .training => bringUp q s
    | .downFault | .off => s.modPort q (fun p => { p with state := st })

/-- Every port as it was before Doze (R245). -/
def lanesBack (s : State) : State := forAll (List.range 5) portBack s

/-- A reserve-lane retraining is running (step 9 of Table 2-9). -/
def laneRetraining (s : State) : Bool := s.lne.ports.toList.any (·.swap.isSome)

/-- A reserve that serves nothing goes to OFF. -/
def reserveOff (n : Nat) (s : State) : State := if (lane s n).port = 7 ∧ (lane s n).state ≠ .retired then laneTo n .off (abortTest n s) else s

/-- The fold-link ports that the role of a committed warp uses start bring-up, and the others stay OFF, with the reserves of a standalone
device (R237). -/
def foldPorts (s : State) : State :=
  let use := fun q => if q = 2 then s.cas.role == 2 else s.cas.role != 0 && decide (s.cas.d + 1 < s.cas.size)
  let s := if s.cas.role = 0 then reserveOff 27 (reserveOff 26 s) else s
  forAll [2, 3] (fun q s =>
    if use q then (if (port s q).state = .off then bringUp q s else s)
    else portOff q s) s

/-- The lane record's settings, taken at stage 1 entry (R233, R420); what stands in the registers and the lanes without one is their
reset. -/
def laneRecord (s : State) : State :=
  match sysRec s 2 with
  | none => s
  | some b =>
    let s := forAll (List.range 5) (fun q s => s.setReg (Reg.LNE_PORT_CFG q) (BitVec.ofNat 32 (byteAt b q % 4))) s
    let s := s.setReg Reg.LNE_CFG (BitVec.ofNat 32 (byteAt b 5 % 4))
    let s := forAll (List.range 2) (fun q s =>
      (s.setReg (Reg.FHP_MAC_HI q) (BitVec.ofNat 32 (be b (124 + 6 * q) 2))).setReg (Reg.FHP_MAC_LO q)
        (BitVec.ofNat 32 (be b (126 + 6 * q) 4))) s
    forAll (List.range 29) (fun n s =>
      let w := le b (8 + 4 * n) 4
      ((s.setReg (Reg.LNE_LANE_CFG n) (BitVec.ofNat 32 (w % 2))).setFld (Reg.LNE_TX_EQ n) 23 4 (w / 16 % 2 ^ 20)).modLane n
        (fun l => { l with preset := w / 16 % 2 ^ 20 })) s

/-! ### What the registers show (Table 9-8) -/

/-- Code of a port state. -/
def portCode : PortState → Nat
  | .off => 0 | .training => 1 | .l0 => 2 | .l1 => 3 | .l2 => 4 | .held => 5 | .quarantined => 6 | .downFault => 7

/-- Code of a lane state (Table 9-4). -/
def laneCode : LaneState → Nat
  | .off => 0 | .l2 => 1 | .l1 => 2 | .train => 3 | .l0 => 4 | .test => 5 | .retired => 7

/-- STEP: the highest step that every position has reached (R239); free while bring-up runs, from where it began. -/
def portStep (s : State) (p : Port) : Nat :=
  if p.state = .training ∧ ¬ p.paused then max p.step (1 + Config.stepReached p.trainAt s.time.tb1 % 5) else p.step

/-- LNE_PORT_STATUS. -/
def lnePortStatus (s : State) (q : Nat) : Word :=
  let p := port s q
  put (put (put (put (s.reg (Reg.LNE_PORT_STATUS q)) 31 29 (portCode p.state)) 28 26 (portStep s p)) 25 25 (b2n p.external)) 24 24 (b2n p.reversed)

/-- LNE_PORT_MAP0 and LNE_PORT_MAP1. -/
def lnePortMap (s : State) (q half : Nat) : Word :=
  BitVec.ofNat 32 (leNat ((List.range 4).map (fun i =>
    let n := vget (port s q).map (4 * half + i)
    BitVec.ofNat 8 (n + 128 * b2n (decide (n < 29) && (lane s n).rxInv)))))

/-- LNE_LANE_STATUS. -/
def lneLaneStatus (s : State) (n : Nat) : Word :=
  let l := lane s n
  if l.state = .off then 0
  else pk [(29, laneCode l.state), (26, l.port), (23, l.pos), (22, b2n l.sig), (21, b2n l.cdr), (20, b2n l.rxInv),
    (19, b2n l.prbsLock), (18, b2n l.suspect)]

/-- LNE_RESERVE. -/
def lneReserve (s : State) : Word := BitVec.ofNat 32 (lneReserveWord s)

/-- The codes on LSW_A and LSW_B: 0xF below stage 2 (R247). -/
def lswPins (s : State) (i : Nat) : Nat := if s.pwr.stage < 2 then 0xF else vget s.lne.lsw i

end Sys2Proof.Machine
end

