-- ==== Sys2Proof/Machine/FhMsg.lean ====
section
/-!
DEFINITION. What travels on the fronthaul ports, byte by byte: Ethernet frames and eCPRI (R255, R256), IQ blocks (R261…R263),
control messages and their checks (R268, R269); the violations of flocks (R279, R281) and their outgoing queues (R270).
-/

namespace Sys2Proof.Machine

/-! ### Bit streams and IQ blocks (R261…R263, R313) -/

/-- Numbers of `b` bits of two's complement from a bit stream, most significant bit first. -/
def unpackBits (b n : Nat) (bs : List Byte) : List Int :=
  let x := beNat bs
  (List.range n).map (fun i => toS b (x / 2 ^ (8 * bs.length - b * (i + 1))))

/-- Numbers as `b` bits of two's complement each in a bit stream, most significant bit first, of whole bytes. -/
def packBits (b : Nat) (l : List Int) : List Byte :=
  beBytes (b * l.length / 8) (l.foldl (fun a x => a * 2 ^ b + ofS b x) 0)

/-- Mantissa bits of a FORMAT (Table 10-3). -/
def formatBits (f : Nat) : Nat := if f = 0 then 16 else if f = 1 then 9 else 12

/-- Bytes of a block of a FORMAT. -/
def blockBytes (f : Nat) : Nat := if f = 0 then 48 else if f = 1 then 28 else 37

/-- The largest exponent of a block-floating-point FORMAT. -/
def formatExp (f : Nat) : Nat := 24 - formatBits f

/-- A block that breaks R262: a 12-bit block with an exponent above 12. -/
def badExponent (f : Nat) (bs : List Byte) : Bool := f == 2 && decide (byteAt bs 0 % 16 > 12)

/-- The block of a FORMAT as an exponent and 24 mantissas, a part being m·2^e in units of 2^−23; a block that breaks R262 is zero. -/
def decodeBlock (f : Nat) (bs : List Byte) : Nat × List Int :=
  if f = 0 then (8, unpackBits 16 24 bs)
  else if badExponent f bs then (0, List.replicate 24 0)
  else (formatExp f - byteAt bs 0 % 16, unpackBits (formatBits f) 24 (bs.drop 1))

/-- Pairs of parts as samples. -/
def pairUp : List Int → List Cplx
  | i :: q :: l => (i, q) :: pairUp l
  | _ => []

/-- The parts of samples. -/
def parts (l : List Cplx) : List Int := l.flatMap (fun z => [z.1, z.2])

/-- The 12 samples of a block. -/
def blockSamples (b : Nat × List Int) : List Cplx := pairUp (b.2.map (· * (2 ^ b.1 : Nat)))

/-- Every part of a block, divided by 2^n, fits `b` bits (R263, R313). -/
def fitsShift (b n : Nat) (l : List Int) : Bool := l.all (fun x => !overS b (shrEven x n))

/-- Compress an uplink block to a FORMAT (R263): the largest exponent without saturation, otherwise 0. -/
def compressBlock (f : Nat) (l : List Cplx) : List Byte :=
  let x := parts l
  if f = 0 then packBits 16 (x.map (fun v => satS 16 (shrEven v 8)))
  else
    let b := formatBits f
    let e := (((List.range (formatExp f + 1)).reverse).find? (fun e => fitsShift b (formatExp f - e) x)).getD 0
    BitVec.ofNat 8 e :: packBits b (x.map (fun v => satS b (shrEven v (formatExp f - e))))

/-- Compress a block to a fold-link block: the smallest exponent that fits, otherwise 15 with saturation; with the number of
saturated parts (R313). -/
def foldBlock (l : List Cplx) : (Nat × List Int) × Nat :=
  let x := parts l
  let e := ((List.range 16).find? (fun e => fitsShift 12 e x)).getD 15
  ((e, x.map (fun v => satS 12 (shrEven v e))), (x.filter (fun v => overS 12 (shrEven v e))).length)

/-- A pair of fold-link blocks as its 73 bytes (R313). -/
def pairBytes (a b : Nat × List Int) : List Byte := BitVec.ofNat 8 (a.1 * 16 + b.1) :: packBits 12 (a.2 ++ b.2)

/-- The two fold-link blocks of 73 bytes. -/
def pairOf (bs : List Byte) : (Nat × List Int) × (Nat × List Int) :=
  let m := unpackBits 12 48 (slice bs 1 72)
  ((byteAt bs 0 / 16, m.take 24), (byteAt bs 0 % 16, m.drop 24))

/-! ### Carrier rate (R259, R260) -/

/-- The exponent j of the carrier rate 491.52/2^j MS/s, for a bandwidth in 10 kHz (R259). -/
def rateExp (bw : Nat) : Nat := (((List.range 6).reverse).find? (fun j => decide (bw * 2 ^ j ≤ 40000))).getD 0

/-- The sample spacing of a carrier, in time units. -/
def carrierTu (k : Carrier) : Nat := tickTu * 2 ^ rateExp k.bw

/-- The length of a block of 12 samples. -/
def blockTu (k : Carrier) : Nat := 12 * carrierTu k

/-- The blocks of a 10 ms frame. -/
def frameBlocks (k : Carrier) : Nat := 409600 / 2 ^ rateExp k.bw

/-- A 10 ms frame in time units. -/
def frameTu : Nat := 10 * msTu

/-- The whole second nearest `now` that is `sec` modulo 256 (Table 10-2). -/
def nearSec (now sec : Nat) : Nat :=
  let s := secOf now
  let d := (sec + 256 - s % 256) % 256
  if d < 128 then s + d else if s + d < 256 then s + d else s + d - 256

/-- The path-sample periods from the fronthaul to the antenna (R16, R265). -/
def downlinkLead : Nat := 1283

/-- The deadline of a sample by its ball air time (R265), raised in a stack (R320). -/
def deadlineOf (s : State) (air : Nat) : Int := (air : Int) - (downlinkLead * pathPeriod s.pwr.level + stackDelay s : Nat)

/-- The words that the shift and filters of R151 and R259 depend on. -/
def streamArgs (s : State) (k : Carrier) : List Nat :=
  let r := vget s.syn.roles k.lo
  [k.bw, k.centre, r.div, r.n, r.f, s.pwr.level]

/-! ### Ethernet and eCPRI (R255, R256) -/

/-- The address of a fronthaul port as a number of six octets. -/
def portMac (s : State) (q : Nat) : Nat := s.fld (Reg.FHP_MAC_HI q) 15 0 * 2 ^ 32 + (s.reg (Reg.FHP_MAC_LO q)).toNat

/-- Where the EtherType of a frame stands: after a single 802.1Q tag, if it has one. -/
def etherAt (b : List Byte) : Nat := if be b 12 2 = 0x8100 then 16 else 12

/-- The EtherType of a frame. -/
def etherType (b : List Byte) : Nat := be b (etherAt b) 2

/-- What follows the EtherType. -/
def etherBody (b : List Byte) : List Byte := b.drop (etherAt b + 2)

/-- A frame's VLAN identifier; 0 when it is untagged. -/
def etherVlan (b : List Byte) : Nat := if be b 12 2 = 0x8100 then be b 14 2 % 4096 else 0

/-- The flock that an eCPRI frame received on a port belongs to (R255). A tagged frame has a VLAN identifier that is not 0 in a
flock's entry. -/
def frameFlock (s : State) (q : Nat) (b : List Byte) : Option Nat :=
  (List.range 8).find? (fun k => match s.flockCfg k with
    | some f => be b 6 6 == f.mac && etherVlan b == f.vlan && nbit f.ports q && be b 0 6 == portMac s q
    | none => false)

/-- A frame to a flock on a port (R255), padded to 60 octets. -/
def flockFrame (s : State) (f : FlockCfg) (q : Nat) (payload : List Byte) : List Byte :=
  let tag := if f.vlan = 0 then [] else beBytes 2 0x8100 ++ beBytes 2 (s.fld Reg.FHP_CFG 6 4 * 8192 + f.vlan)
  let b := beBytes 6 f.mac ++ beBytes 6 (portMac s q) ++ tag ++ beBytes 2 0xAEFE ++ payload
  b ++ List.replicate (60 - b.length) 0

/-- An eCPRI message of type 0 or 2 (Table 10-1). -/
def ecpri (type id seq : Nat) (body : List Byte) : List Byte :=
  beBytes 1 0x10 ++ beBytes 1 type ++ beBytes 2 (body.length + 4) ++ beBytes 2 id ++ beBytes 1 seq ++ beBytes 1 0x80 ++ body

/-- The fronthaul port is in L0. -/
def portUp (s : State) (q : Nat) : Bool := (vget s.lne.ports q).state == .l0

/-- Put a frame on a port. -/
def wireOut (q : Nat) (b : List Byte) (s : State) : State := s.modFhp (fun f => { f with sent := f.sent ++ [(q, b)] })

/-- A frame enters the TX timestamp queue of its port, or is dropped (R301). -/
def txtsPush (q kind id at_ : Nat) (s : State) : State :=
  let p := vget s.tim.ports q
  if p.txts.length ≥ 16 then
    ((s.modTim (fun t => { t with ports := vmod t.ports q (fun p => { p with ovf := true }) })).addLo (Reg.TIM_TXTS_DROPPED q) 1).raise
      Reg.TIM_INT_STATUS 6
  else s.modTim (fun t => { t with ports := vmod t.ports q (fun p => { p with txts := p.txts ++ [{ id := id, kind := kind, at_ := at_ }] }) })

/-- The next sequence number of a flock's stream, as sent (R257). -/
def takeSeq (k id : Nat) (s : State) : Nat × State :=
  let l := (vget s.fhp.flocks k).txSeq
  let n := match l.find? (fun x => x.1 == id) with
    | some (_, n) => n
    | none => 0
  (n, s.modFlock k (fun f => { f with txSeq := (id, (n + 1) % 256) :: l.filter (fun x => x.1 != id) }))

/-- The key of a flock's control messages among its sequence numbers. -/
def ctrlKey : Nat := 0x10000

/-- Send a control message of a flock's queue on a port. -/
def sendCtrl (k q : Nat) (f : FlockCfg) (msg : List Byte) (s : State) : State :=
  let (n, s) := takeSeq k ctrlKey s
  wireOut q (flockFrame s f q (ecpri 0x02 (0xF000 + k) n msg)) s

/-- The port an entry of a flock's queue leaves on: the one it names, or for a notice the lowest-numbered one of PORTS in L0. -/
def entryPort (s : State) (f : FlockCfg) (q : Nat) : Option Nat :=
  if q = anyPort then (List.range 2).find? (fun q => nbit f.ports q && portUp s q) else if portUp s q then some q else none

/-- The head of a flock's outgoing queue leaves; a CTRL_LOST notice goes first when entries were dropped (R267, R270). -/
def flushOne (k : Nat) (f : FlockCfg) (s : State) : State :=
  let x := vget s.fhp.flocks k
  match x.out with
  | [] => s
  | (q, m) :: rest =>
    match entryPort s f q with
    | none => s
    | some q =>
      let s := if x.lost = 0 then s else
        sendCtrl k ((entryPort s f anyPort).getD q) f (flockMsg 0xC0 x.noticeTag (noticeBody 0x0B 0 x.lost s.time.tb0))
          (s.modFlock k (fun y => { y with lost := 0, noticeTag := (x.noticeTag + 1) % 65536 }))
      sendCtrl k q f m (s.modFlock k (fun y => { y with out := rest }))

/-- A flock's outgoing queue empties through the ports that are up. -/
def flushFlock (k : Nat) (s : State) : State :=
  match s.flockCfg k with
  | none => s
  | some f => iter (flushOne k f) (vget s.fhp.flocks k).out.length s

/-! ### Violations (R279, R281) -/

/-- The violations of a flock within the last 1,000 ms of TB1, in bins of 1 ms. -/
def recentViols (s : State) (k : Nat) : List Nat :=
  (vget s.fhp.flocks k).viols.filter (fun t => decide (s.time.tb1 / msTu < t / msTu + 1000))

/-- QUAR of a flock; 0 selects 256 (Table 3-4). -/
def quarLimit (s : State) (k : Nat) : Nat :=
  match s.flockCfg k with
  | some f => if f.quar = 0 then 256 else f.quar
  | none => 256

/-- A violation of a flock: counted, logged, and weighed for its quarantine (R279, R281). -/
def flockViol (k cls : Nat) (s : State) : State :=
  let s := s.viol 1 k cls 0
  let l := recentViols s k ++ [s.time.tb1]
  flockEvent k 0 s.tb3
    (s.modFlock k (fun f => { f with viols := l, quarNext := f.quarNext || (!f.quar && decide (l.length ≥ quarLimit s k)) }))

/-- Answer a flock with a NAK (Table 10-5). -/
def flockNak (k q tag cls msg pcid : Nat) (s : State) : State :=
  s.post k q 0xFF tag (beBytes 1 cls ++ beBytes 1 msg ++ beBytes 2 pcid)

/-- The NAK of a class and then its count. -/
def nakViol (k q tag cls msg pcid : Nat) (s : State) : State := flockViol k cls (flockNak k q tag cls msg pcid s)

/-! ### Control messages (R268, R269) -/

/-- The nanoseconds of a time of 8 octets are within their range. -/
def nsOk (b : List Byte) (o : Nat) : Bool := decide (be b (o + 4) 4 < 1000000000)

/-- Bits of a byte that must be 0. -/
def bitsZero (b : List Byte) (o mask : Nat) : Bool := (byteAt b o).land mask == 0

/-- The body of a message has the layout of Table 10-5, and its fields their ranges. -/
def bodyOk (msg : Nat) (b : List Byte) : Bool :=
  match msg with
  | 0x01 => b.length == 4 && bitsZero b 0 0x7C && zeros b 3 1 && decide (1 ≤ byteAt b 1) && decide (byteAt b 1 ≤ 32) &&
      (byteAt b 2 == 0xFF || (decide (byteAt b 2 < 32) && byteAt b 1 == 1))
  | 0x02 => b.length == 16 && bitsZero b 0 0x3F && zeros b 1 3 && nsOk b 8
  | 0x03 => b.length == 4 && zeros b 2 2
  | 0x10 => decide (b.length ≥ 8) && b.length == 8 + 6 * byteAt b 5 && bitsZero b 0 0x7F && decide (be b 2 2 < 1024) &&
      decide (1 ≤ byteAt b 5) && decide (byteAt b 4 + byteAt b 5 ≤ 64) && zeros b 6 2
  | 0x11 => b.length == 12 && bitsZero b 0 0x60 && bitsZero b 1 0x10 && decide (be b 2 2 < 1024) && nsOk b 4
  | 0x20 => b.length == 16 && bitsZero b 0 0x08 && zeros b 1 3 && nsOk b 8
  | 0x30 => b.length == 4
  | _ => false

/-- The header of a message has the layout of Table 10-4. -/
def headerOk (m : List Byte) : Bool := decide (m.length ≥ 8) && zeros m 1 1 && zeros m 6 2 && be m 4 2 == m.length - 8

/-- A type 5 message that asks for a measurement: Request and Remote Request, with and without Follow_Up. -/
def asksMeasurement (action : Nat) : Bool := action == 0 || action == 1 || action == 3 || action == 4

/-- Police a message of a flock (R270): whether it is taken. -/
def police (k : Nat) (s : State) : State × Bool :=
  let s := s.addHi (Reg.FHP_FLOCK_MSG k) 1
  let x := vget s.fhp.flocks k
  if x.msgs < s.fld Reg.FHP_CFG 23 16 then (s.modFlock k (fun f => { f with msgs := f.msgs + 1 }), true)
  else
    let s := s.addLo (Reg.FHP_FLOCK_MSG k) 1
    if x.policed then (s, false) else (flockViol k 0x0B (s.modFlock k (fun f => { f with policed := true })), false)

/-- The received sequence number of a flock's stream is checked (R257). -/
def checkSeq (q k id seq : Nat) (s : State) : State :=
  let l := (vget s.fhp.flocks k).rxSeq
  let gap := match l.find? (fun x => x.1 == id) with
    | some (_, n) => decide ((n + 1) % 256 ≠ seq)
    | none => false
  let s := s.modFlock k (fun f => { f with rxSeq := (id, seq) :: l.filter (fun x => x.1 != id) })
  if gap then (s.addReg (Reg.FHP_PORT_SEQ_GAP q) 1).raise Reg.FHP_INT_STATUS 6 else s

end Sys2Proof.Machine
end

