-- ==== Sys2Proof/Machine/Admit.lean ====
section
/-!
DEFINITION. Admission of flocks to layer slots (R26…R29, R272…R278): tests, ranking, preemption, tie queues, deferral, effective
times and endings, and the commands of its clock.
-/

namespace Sys2Proof.Machine

/-! ### Epochs and effective times (R26, R276) -/

/-- The base that epochs are aligned to: TB1 until TB0 has stepped, then TB0 (R26). -/
def epochClock (s : State) : Nat := if s.time.stepped then s.time.tb0 else s.time.tb1

/-- A time of the epochs' base in the base of the slot boundaries (R104). -/
def toBase (s : State) (t : Nat) : Nat := ((t : Int) - epochClock s + s.base).toNat

/-- The end of the epoch that ends now: the nearest epoch boundary. -/
def epochNow (s : State) : Nat := toBase s (divNear (epochClock s) epochTu * epochTu)

/-- The end of the epoch in progress. -/
def epochNext (s : State) : Nat := toBase s ((epochClock s / epochTu + 1) * epochTu)

/-- A time of the slot boundaries' base in TB0, as messages give it. -/
def toAir (s : State) (t : Nat) : Nat := ((t : Int) - s.base + s.time.tb0).toNat

/-- The slot length of a carrier; 1 ms for none. -/
def carrierSlot (s : State) (ul : Bool) (c : Nat) : Nat :=
  match s.carrier ul c with
  | some k => slotTu k.scs
  | none => msTu

/-- The effective time of a decision at the end `te` of its epoch (R276). -/
def effective (s : State) (ul : Bool) (c te : Nat) : Nat :=
  boundaryFrom (carrierSlot s ul c) (te + epochTu + 2 * carrierSlot s ul c)

/-! ### Holdings (R272…R274) -/

/-- What admission knows of a slot. -/
def holding (s : State) (ul : Bool) (l : Nat) : Option Holding := if ul then vget s.fhp.holdUl l else vget s.fhp.holdDl l

/-- Change what admission knows of a slot. -/
def setHolding (ul : Bool) (l : Nat) (h : Option Holding) (s : State) : State :=
  s.modFhp (fun f => if ul then { f with holdUl := vset f.holdUl l h } else { f with holdDl := vset f.holdDl l h })

/-- The slots a flock holds or has been served, in a direction. -/
def heldSlots (s : State) (k : Nat) (ul : Bool) : List Nat :=
  (List.range 32).filter (fun l => match holding s ul l with
    | some h => h.k == k
    | none => false)

/-- The slot was withdrawn by the weaver (R97). -/
def withdrawn (s : State) (ul : Bool) (l : Nat) : Bool := nbit (if ul then s.wrp.withdrawnUl else s.wrp.withdrawnDl) l

/-- The slots of a carrier that a request can be served with (R272): those whose LAYER port is in the flock's PORTS, or the named one. -/
def usable (s : State) (r : AdmReq) : List Nat :=
  match s.flockCfg r.k with
  | none => []
  | some f => (List.range 32).filter (fun l => (match s.layer r.ul l with
      | some y => y.carrier == r.c && nbit f.ports y.port && !withdrawn s r.ul l
      | none => false) && (match r.slot with
      | some n => n == l
      | none => true))

/-- Nobody holds the slot and nobody is promised it. -/
def slotFree (s : State) (ul : Bool) (l : Nat) : Bool :=
  (holding s ul l).isNone && (s.holder ul l).isNone && !s.fhp.changes.any (fun x => x.ul == ul && x.l == l)

/-- The free slots a request can take. -/
def freeFor (s : State) (r : AdmReq) : List Nat := (usable s r).filter (slotFree s r.ul)

/-- GUAR_DL or GUAR_UL of a flock. -/
def guarantee (s : State) (k : Nat) (ul : Bool) : Nat :=
  match s.flockCfg k with
  | some f => if ul then f.guarUl else f.guarDl
  | none => 0

/-- The bandwidth of a flock in a direction with a carrier added, in 10 kHz: the carriers on which it holds a slot. -/
def bandwidthWith (s : State) (k : Nat) (ul : Bool) (c : Nat) : Nat :=
  let on := (heldSlots s k ul).filterMap (fun l => (s.layer ul l).map (·.carrier))
  ((List.range 4).filter (fun i => i == c || on.contains i)).foldl (fun a i => match s.carrier ul i with
    | some x => a + x.bw
    | none => a) 0

/-- The request is within the guarantee of its flock. -/
def within (s : State) (r : AdmReq) : Bool :=
  decide ((heldSlots s r.k r.ul).length + r.count ≤ guarantee s r.k r.ul) &&
    (match s.flockCfg r.k with
    | some f => decide (bandwidthWith s r.k r.ul r.c ≤ 100 * f.guarBw)
    | none => false)

/-- Lexicographic order of keys. -/
def lexLe : List Nat → List Nat → Bool
  | [], _ => true
  | _ :: _, [] => false
  | a :: as, b :: bs => decide (a < b) || (a == b && lexLe as bs)

/-- The excess slots of a flock in a direction: those served most recently beyond its guarantee, the highest `l` first among those of
one epoch. -/
def excessOf (s : State) (k : Nat) (ul : Bool) : List Nat :=
  let held := heldSlots s k ul
  let key := fun l => match holding s ul l with
    | some h => [h.serial, l]
    | none => [0, l]
  ((sortBy (fun a b => lexLe (key b) (key a)) held)).take (held.length - guarantee s k ul)

/-- The class of a flock. -/
def classOf (s : State) (k : Nat) : Nat :=
  match s.flockCfg k with
  | some f => f.cls
  | none => 9

/-- The excess slots of other flocks that a guaranteed request can take, in the order of R274, each with its flock. -/
def victims (s : State) (r : AdmReq) : List (Nat × Nat) :=
  let all := ((List.range 8).filter (· != r.k)).flatMap (fun k => ((excessOf s k r.ul).filter ((usable s r).contains ·)).map (fun l => (k, l)))
  let key := fun (x : Nat × Nat) => match holding s r.ul x.2 with
    | some h => [classOf s x.1, h.serial, x.2]
    | none => [classOf s x.1, 0, x.2]
  sortBy (fun a b => lexLe (key b) (key a)) all

/-! ### Replies (Table 10-5) -/

/-- ADMIT_REPLY to a request. -/
def admitReply (r : AdmReq) (outcome reason slots air : Nat) (s : State) : State :=
  let s := s.post r.k r.port 0x81 r.tag
    (beBytes 1 outcome ++ beBytes 1 reason ++ beBytes 1 (b2n r.ul * 128 + r.c) ++ beBytes 1 0 ++ beBytes 4 slots ++
      (if outcome = 1 ∨ outcome = 2 then time8 air else List.replicate 8 0))
  if outcome = 1 then s.raise Reg.FHP_INT_STATUS 0
  else if outcome = 3 ∨ outcome = 5 then s.raise Reg.FHP_INT_STATUS 1 else s

/-- PREEMPTED to a flock, with the device's own tag. -/
def preempted (k reason : Nat) (ul : Bool) (slots air : Nat) (s : State) : State :=
  if slots = 0 ∨ (s.flockCfg k).isNone then s
  else
    let tag := (vget s.fhp.flocks k).noticeTag
    ((s.modFlock k (fun f => { f with noticeTag := (tag + 1) % 65536 })).post k anyPort 0x82 tag
      (beBytes 1 reason ++ beBytes 1 0 ++ beBytes 1 (b2n ul * 128) ++ beBytes 1 0 ++ beBytes 4 slots ++ time8 air)).raise
        Reg.FHP_INT_STATUS 2

/-- A mask of slots. -/
def maskOf (l : List Nat) : Nat := bitsOf 32 (fun i => l.contains i)

/-! ### Slot changes (R276, R324) -/

/-- Enter a change of a slot at a time; it replaces what would happen to the slot then or later. -/
def planChange (ul : Bool) (l at_ : Nat) (to_ : Option Nat) (s : State) : State :=
  let s := s.modFhp (fun f => { f with
    changes := f.changes.filter (fun x => !(x.ul == ul && x.l == l && decide (at_ ≤ x.at_))) ++ [{ at_ := at_, ul := ul, l := l, to_ := to_ }] })
  relayControl 0x04 0
    (beBytes 1 (b2n ul * 128 + l) ++ beBytes 1 (to_.getD 0xFF) ++ beBytes 2 0 ++ timeBe (toAir s at_)) s

/-- Serve slots to a flock from an effective time. -/
def planServe (ul : Bool) (k at_ : Nat) (ls : List Nat) (s : State) : State :=
  forAll ls (fun l s => planChange ul l at_ (some k) (setHolding ul l (some { k := k, serial := s.fhp.epoch }) s)) s

/-- End a slot of a flock at a time, or at the time already planned when that is earlier. -/
def planEnd (ul : Bool) (l at_ : Nat) (s : State) : State :=
  match holding s ul l with
  | none => s
  | some h =>
    let at_ := match s.fhp.changes.find? (fun x => x.ul == ul && x.l == l && x.to_ == some h.k) with
      | some x => max at_ x.at_
      | none => at_
    match h.ending with
    | some e => if e ≤ at_ then s else planChange ul l at_ none (setHolding ul l (some { h with ending := some at_ }) s)
    | none => planChange ul l at_ none (setHolding ul l (some { h with ending := some at_ }) s)

/-! ### Tests (Table 10-6) -/

/-- The latest STATUS of some other joined device holds of a test (R324). -/
def anyMember (s : State) (p : List Byte → Bool) : Bool :=
  isBellwether s && s.cas.statuses.any (fun x => (joinedOthers s).contains x.1 && p x.2)

/-- A role is invalid or latched, on this device or on a joined one. -/
def loRefused (s : State) (r : Nat) : Bool :=
  !roleValid s r || (vget s.syn.roles r).latched ||
    anyMember s (fun b => !nbit (byteAt b 3) r || nbit (byteAt b 3) (2 + r))

/-- Some zone is at T2, on this device or on a joined one. -/
def atT2 (s : State) : Bool := decide (thermStage s ≥ 2) || anyMember s (fun b => decide (byteAt b 2 ≥ 2))

/-- The reason that refuses a request before ranking; 0 when none does. -/
def admitReason (s : State) (r : AdmReq) : Nat :=
  match s.flockCfg r.k, s.carrier r.ul r.c with
  | some f, some k =>
    let licensed := s.rad.pasture.any (fun p => carrierPermitted p k)
    if s.wrp.active.isNone ∨ s.pwr.level = 3 then 4
    else if ¬ nbit f.carriers (r.c + 4 * b2n r.ul) then 4
    else if ¬ nbit (vget s.fhp.flocks r.k).formats k.format then 4
    else if (usable s r).length < r.count then 4
    else if ¬ r.ul ∧ ¬ licensed then 3
    else if loRefused s k.lo then 5
    else if ¬ r.ul ∧ ¬ within s r ∧ atT2 s then 2
    else 0
  | _, _ => 4

/-! ### The decision of an epoch (R273…R275) -/

/-- A request under decision: whether it waits already, whether it waits for slots that are not free and is not ranked (R273), and
whether it lost an exact tie. -/
structure Cand where
  r : AdmReq
  waiting : Bool
  within : Bool
  blocked : Bool := false
  lost : Bool := false

/-- The arbiter of a request: its named slot, or its carrier (R273). -/
def resourceOf (r : AdmReq) : Resource :=
  match r.slot with
  | none => .carrier r.ul r.c
  | some l => .slot r.ul l

/-- The rank of a request: guarantee, class, age, and the arbiter that decides exact ties. -/
def rankKey (s : State) (x : Cand) : List Nat := [b2n (!x.within), classOf s x.r.k, x.r.epoch, (resourceOf x.r).num]

/-- The request fits in free slots, or with what its guarantee claims. -/
def hasRoom (s : State) (x : Cand) : Bool :=
  decide (x.r.count ≤ (freeFor s x.r).length) ||
    (x.within && decide (x.r.count ≤ (freeFor s x.r).length + (victims s x.r).length))

/-- The requests that wait: the tie queues and the deferred. -/
def waitingReqs (s : State) : List AdmReq :=
  s.fhp.tie.map (·.2) ++ (List.range 8).flatMap (fun k => (vget s.fhp.flocks k).deferred)

/-- Ranked requests in groups that the rank leaves exactly equal. -/
def tieGroups (s : State) (l : List Cand) : List (List Cand) :=
  l.foldr (fun x gs => match gs with
    | (y :: g) :: rest => if rankKey s x == rankKey s y then (x :: y :: g) :: rest else [x] :: (y :: g) :: rest
    | gs => [x] :: gs) []

/-- The arbiter of an exact tie scans it, from where the ties before have left its pointer: the winner, then the losers (R28). -/
def scanTie (g : List Cand) (a : State × List Cand) : State × List Cand :=
  match g with
  | x :: _ :: _ =>
    match scanOrder (arbPtr a.1 (resourceOf x.r)) (·.r.k) g with
    | w :: losers =>
      (arbMove (resourceOf x.r) w.r.k a.1, a.2 ++ w :: losers.map (fun y => { y with lost := true }))
    | [] => a
  | g => (a.1, a.2 ++ g)

/-- A request leaves the queues. -/
def dropReq (r : AdmReq) (s : State) : State :=
  (s.modFhp (fun f => { f with tie := f.tie.erase ((resourceOf r).num, r) })).modFlock r.k
    (fun f => { f with deferred := f.deferred.erase r })

/-- Serve a request: free slots first, then excess slots of other flocks, which are told (R273, R274). -/
def serveReq (r : AdmReq) (te : Nat) (s : State) : State :=
  let eff := effective s r.ul r.c te
  let free := (freeFor s r).take r.count
  let taken := (victims s r).take (r.count - free.length)
  let s := forAll (List.range 8) (fun k s =>
    preempted k 6 r.ul (maskOf ((taken.filter (·.1 == k)).map (·.2))) (toAir s eff) s) s
  let all := free ++ taken.map (·.2)
  admitReply r 1 0 (maskOf all) (toAir s eff) (planServe r.ul r.k eff all (dropReq r s))

/-- The times at which planned releases free slots a request can use, in order; slots free already count as `te`. -/
def freeTimes (s : State) (r : AdmReq) (te : Nat) : List Nat :=
  sortBy (fun a b => decide (a ≤ b)) (((freeFor s r).map (fun _ => te)) ++
    (usable s r).filterMap (fun l => match holding s r.ul l with
      | some h => h.ending
      | none => none))

/-- The effective time that the planned releases give a request behind those ahead of it (R275). -/
def estimate (s : State) (r : AdmReq) (te : Nat) (ahead : List AdmReq) : Option Nat :=
  let before := (ahead.filter (fun a => a.ul == r.ul && a.c == r.c && (r.slot.isNone || a.slot.isNone || a.slot == r.slot))).foldl
    (fun n a => n + a.count) 0
  match (freeTimes s r te)[before + r.count - 1]? with
  | none => none
  | some t =>
    let next := fun (x : Nat) => toBase s ((((x : Int) - s.base + epochClock s).toNat / epochTu + 1) * epochTu)
    some (effective s r.ul r.c (if t = te then te else next t))

/-- DEFER of a flock, in time units. -/
def deferTu (s : State) (k : Nat) : Nat :=
  match s.flockCfg k with
  | some f => f.defer * msTu
  | none => 0

/-- The estimate with which a request is deferred; none when it cannot be (R275). -/
def deferrable (s : State) (r : AdmReq) (te : Nat) (ahead : List AdmReq) : Option Nat :=
  if deferTu s r.k = 0 ∨ (vget s.fhp.flocks r.k).deferred.length ≥ 4 then none
  else (estimate s r te ahead).filter (fun e => decide (e ≤ te + deferTu s r.k))

/-- The queue of 4 of a request's resource is full (R29). -/
def tieFull (s : State) (r : AdmReq) : Bool := decide ((s.fhp.tie.filter (·.1 == (resourceOf r).num)).length ≥ 4)

/-- A loser of a tie enters its resource's queue (R29). -/
def tieQueue (r : AdmReq) (te : Nat) (s : State) : State :=
  let limit := if deferTu s r.k = 0 then msTu else deferTu s r.k
  admitReply r 4 0 0 0 (s.modFhp (fun f => { f with tie := f.tie ++ [((resourceOf r).num, { r with until_ := te + limit })] }))

/-- Decide one request, behind those `ahead` that still wait (R273). -/
def decideReq (te : Nat) (x : Cand) (a : State × List AdmReq) : State × List AdmReq :=
  let (s, ahead) := a
  let r := x.r
  let guar := within s r
  if x.blocked then (s, ahead ++ [r])
  else if hasRoom s { x with within := guar } then (serveReq r te s, ahead)
  else if x.waiting then (s, ahead ++ [r])
  else if x.lost ∧ tieFull s r then (admitReply r 5 0 0 0 s, ahead)
  else if x.lost then (tieQueue r te s, ahead ++ [r])
  else
    match deferrable s r te ahead with
    | some e =>
      (admitReply r 2 0 0 (toAir s e) (s.modFlock r.k (fun f => { f with deferred := f.deferred ++ [{ r with until_ := te + deferTu s r.k }] })),
        ahead ++ [r])
    | none => (admitReply r 3 1 0 0 s, ahead)

/-- The requests of an epoch in rank order, with the losers of ties marked, and the arbiters' pointers moved (R28, R273): fresh ones and
waiting ones whose slots are free are ranked, and waiting ones whose slots are not stand among them as they would rank. -/
def rankAll (fresh : List AdmReq) (s : State) : State × List Cand :=
  let mk := fun w (r : AdmReq) =>
    ({ r := r, waiting := w, within := within s r, blocked := w && decide ((freeFor s r).length < r.count) } : Cand)
  let order := fun (a b : Cand) => lexLe (rankKey s a) (rankKey s b)
  let all := sortBy order (fresh.map (mk false) ++ (waitingReqs s).map (mk true))
  let r := (tieGroups s (all.filter (fun x => !x.blocked))).foldl (fun a g => scanTie g a) (s, [])
  (r.1, sortBy order (r.2 ++ all.filter (·.blocked)))

/-- Decide the requests of the epoch that ends at `te` (R26, R272, R273). -/
def decideEpoch (te : Nat) (s : State) : State :=
  let reqs := s.fhp.reqs
  let s := s.modFhp (fun f => { f with reqs := [] })
  let s := forAll (reqs.filter (fun r => decide (admitReason s r ≠ 0))) (fun r t => admitReply r 3 (admitReason s r) 0 0 t) s
  let (s, l) := rankAll (reqs.filter (fun r => admitReason s r == 0)) s
  (l.foldl (fun a x => decideReq te x a) (s, [])).1

/-- A request for an observation receiver is refused, and its requester is told with its own busy code (R29, R199, R335): a calibration
without its receiver is aborted. -/
def obsRefuse (o : Nat) (h : ObsHolder) (s : State) : State :=
  match h with
  | .capture st => (armRefuse st 0xC (obsWithdraw o h s)).modStream st (fun x => { x with state := .idle })
  | .survey p => surveyBusy p (obsWithdraw o h s)
  | .cal => calAbort 0x13 (obsWithdraw o h s)

/-- The arbiter of an observation receiver decides, and tells those that its full queue refuses. -/
def obsEpoch (o : Nat) (s : State) : State :=
  let d := obsDecide o s
  forAll d.2 (fun a s => obsRefuse o a.who s) d.1

/-- An epoch ends at a time: the requests for every resource are decided (R26, R30), and the limits of R270 start anew. -/
def epochEndAt (te : Nat) (s : State) : State :=
  let s := decideEpoch te s
  let s := forAll (List.range 4) streamEpoch s
  let s := forAll (List.range 8) obsEpoch s
  let s := forAll (List.range 8) fftEpoch s
  s.modFhp (fun f => { f with
    epoch := f.epoch + 1
    flocks := vall f.flocks (fun _ x => { x with msgs := 0, policed := false }) })

/-- The epoch in progress ends now. -/
def epochEnd (s : State) : State := epochEndAt (epochNow s) s

/-! ### Effective times and limits (R276, R29, R275) -/

/-- Serve or end a slot now (R157). -/
def applyChange (x : SlotChange) (s : State) : State :=
  let s := resetSlot 5 x.ul x.l x.to_ s
  let s := if x.ul then s else s.modFhp (fun f => { f with covered := f.covered.filter (fun c => c.1 != x.l) })
  match x.to_ with
  | some _ => s
  | none => setHolding x.ul x.l none s

/-- The changes of the earliest time take effect. -/
def slotEffective (s : State) : State :=
  match s.fhp.changes.map (·.at_) with
  | [] => s
  | t :: ts =>
    let at_ := ts.foldl min t
    let due := s.fhp.changes.filter (fun x => x.at_ == at_)
    forAll due applyChange (s.modFhp (fun f => { f with changes := f.changes.filter (fun x => x.at_ != at_) }))

/-- SLOT_EFFECTIVE_TIME (R276). -/
def execSlotEffectiveTime (s : State) : Host.Outcome State Fault Refusal := .next (slotEffective s)

/-- The request whose limit passes first. -/
def firstLimit (l : List AdmReq) : Option AdmReq :=
  l.foldl (fun m r => match m with
    | none => some r
    | some x => if r.until_ < x.until_ then some r else m) none

/-- A request's limit passes: it is refused for CAPACITY (R29, R275). -/
def limitPassed (r : Option AdmReq) (s : State) : State :=
  match r with
  | none => s
  | some r => admitReply r 3 1 0 0 (dropReq r s)

/-- The queue limit of the request that was queued first for an observation receiver passes (R29). -/
def obsLimit (o : Nat) (s : State) : State :=
  match (vget s.dpd.obs o).wait.find? (·.tied) with
  | none => s
  | some a => obsRefuse o a.who s

/-- QUEUE_LIMIT_EXPIRY (R29): of the tie queues of admission, of an observation receiver, or of a capture stream. -/
def execQueueLimitExpiry (q : LimitQueue) (s : State) : Host.Outcome State Fault Refusal :=
  .next (match q with
    | .admission => limitPassed (firstLimit (s.fhp.tie.map (·.2))) s
    | .receiver o => obsLimit o s
    | .stream st => armLimit st s)

/-- DEFER_WINDOW_EXPIRY (R275). -/
def execDeferWindowExpiry (s : State) : Host.Outcome State Fault Refusal :=
  .next (limitPassed (firstLimit ((List.range 8).flatMap (fun k => (vget s.fhp.flocks k).deferred))) s)

/-! ### Requests, releases and endings (R272, R277, R278) -/

/-- An ADMIT_REQ body enters the requests of its epoch (R272). -/
def admitReq (k q tag : Nat) (b : List Byte) (s : State) : State :=
  s.modFhp (fun f => { f with reqs := f.reqs ++ [{
    k := k, tag := tag, ul := nbit (byteAt b 0) 7, c := byteAt b 0 % 4, count := byteAt b 1
    slot := if byteAt b 2 = 0xFF then none else some (byteAt b 2), epoch := f.epoch, port := q }] })

/-- ACK to a flock (Table 10-5). -/
def flockAck (k q tag outcome code : Nat) (s : State) : State :=
  s.post k q 0x83 tag (beBytes 1 outcome ++ beBytes 1 code ++ beBytes 2 0)

/-- The carrier of a slot. -/
def slotCarrier (s : State) (ul : Bool) (l : Nat) : Nat :=
  match s.layer ul l with
  | some y => y.carrier
  | none => 0

/-- A RELEASE body (R277): all the slots it names are held by the flock, or nothing is released. -/
def releaseReq (k q tag : Nat) (b : List Byte) (s : State) : State :=
  let ul := nbit (byteAt b 0) 7
  let ls := (List.range 32).filter (nbit (be b 4 4))
  if ls.any (fun l => s.holder ul l != some k) then nakViol k q tag 3 0x02 0 s
  else
    let asked := ((timeNear s.time.tb0 (be b 8 4) (be b 12 4) : Int) - s.time.tb0 + s.base).toNat
    forAll ls (fun l s =>
      let c := slotCarrier s ul l
      let eff := effective s ul c (epochNext s)
      if holding s ul l |>.any (fun h => h.k == k) then
        planEnd ul l (if nbit (byteAt b 0) 6 then max eff (boundaryFrom (carrierSlot s ul c) asked) else eff) s
      else s) (flockAck k q tag 1 0 s)

/-- A WITHDRAW body (R277). -/
def withdrawReq (k q tag : Nat) (b : List Byte) (s : State) : State :=
  match (waitingReqs s).find? (fun r => r.k == k && r.tag == be b 0 2) with
  | some r => admitReply r 6 0 0 0 (dropReq r s)
  | none => flockAck k q tag 2 1 s

/-- RELEASE_ALL (R278): every allocation of a flock ends under R276. -/
def releaseAll (k : Nat) (s : State) : State :=
  forAll [false, true] (fun ul s => forAll (List.range 4) (fun c s =>
    let ls := (heldSlots s k ul).filter (fun l => slotCarrier s ul l == c)
    let eff := effective s ul c (epochNext s)
    let s' := forAll ls (planEnd ul · eff) s
    preempted k 7 ul (maskOf ls) (toAir s eff) s') s) s

/-- FHP_FLOCK_CTRL: GO with RELEASE_ALL. -/
def flockCtrlWrite (w : Word) (s : State) : State := if bitOf w 31 ∧ bitOf w 8 then releaseAll (fld w 2 0) s else s

/-- RELEASE_ALL (R278). -/
def execReleaseAll (w : Word) (s : State) : Host.Outcome State Fault Refusal := .next (s.hosted Reg.FHP_FLOCK_CTRL (flockCtrlWrite w))

/-- Refuse waiting requests for STRUCTURE (R278). -/
def refuseWaiting (p : AdmReq → Bool) (s : State) : State :=
  forAll ((waitingReqs s).filter p) (fun r s => admitReply r 3 4 0 0 (dropReq r s)) s

/-- The flocks that hold or are promised a slot. -/
def slotFlocks (s : State) (ul : Bool) (l : Nat) : List Nat :=
  (List.range 8).filter (fun k => s.holder ul l == some k || (holding s ul l).any (fun h => h.k == k))

/-- Every flock with one of some slots is told that they end (R94, R97, R278). -/
def tellEnd (ul : Bool) (ls : List Nat) (air : Nat) (s : State) : State :=
  forAll (List.range 8) (fun k s => preempted k 4 ul (maskOf (ls.filter (fun l => (slotFlocks s ul l).contains k))) air s) s

/-- Forget what admission knows of some slots. -/
def forgetSlots (ul : Bool) (ls : List Nat) (s : State) : State :=
  forAll ls (fun l s => setHolding ul l none s)
    (s.modFhp (fun f => { f with changes := f.changes.filter (fun x => !(x.ul == ul && ls.contains x.l)) }))

/-- A full commit ends every allocation and every request (R278). -/
def fhpCommit (s : State) : State :=
  let s := tellEnd true (List.range 32) s.time.tb0 (tellEnd false (List.range 32) s.time.tb0 s)
  let s := refuseWaiting (fun _ => true) s
  forgetSlots true (List.range 32) (forgetSlots false (List.range 32) s)

/-- What the flocks of the old warp are told leaves under it, and the exchanges with them begin anew (R91, R271). -/
def fhpRestart (s : State) : State :=
  let s := forAll (List.range 8) flushFlock s
  s.modFhp (fun f => { f with
    ingress := [], covered := [], subst := [], halves := [], dlIn := [], ulPart := Vector.replicate 32 {}, pathRows := [], pdRows := []
    e2 := [], outRows := [], dac := [], ulSlips := [], dlTail := Vector.replicate 32 [], ulTail := Vector.replicate 32 []
    flocks := vall f.flocks (fun _ x => { x with formats := 7, ulBlocks := 0, capsDone := false }) })

/-- The queues after a reweave: requests whose carrier or slot is gone are refused (R278). -/
def fhpSwitch (s : State) : State :=
  refuseWaiting (fun r => (s.carrier r.ul r.c).isNone || r.slot.any (fun l => (s.layer r.ul l).isNone)) s

end Sys2Proof.Machine
end

