-- ==== Sys2Proof/Machine/Signal.lean ====
section
/-!
DEFINITION. The signal path of the 64 paths: the fixed filters (R106…R108), the predistorter's samples (R181…R184), the DAC codes
(R126), the ADC samples (R117) and the path samples of the uplink (R124), with the gain, trim and step corrections of a chain (R103,
R111, R429).
-/

namespace Sys2Proof.Machine

/-! ### Fixed filters (R107, Table 4-3) -/

/-- The taps of a fixed filter. -/
def firTaps : Fir → Nat
  | .interp1 => 63
  | .interp2 => 23
  | .invSinc => 9
  | .txDelay => 15
  | .decim => 63
  | .rxDelay => 15

/-- Output sample `i` of a filter, counted back from the newest, over a stream given newest first. -/
def firAt (f : Fir) (args : List Int) (h : List Cplx) (i : Nat) : Cplx := Config.fir f args ((h.drop i).take (firTaps f))

/-- A filter over a stream, newest first. -/
def firRun (f : Fir) (args : List Int) (h : List Cplx) : List Cplx := (List.range h.length).map (firAt f args h)

/-- A stream at twice its rate, with zeros between its samples. -/
def stuff (h : List Cplx) : List Cplx := h.flatMap (fun x => [(0, 0), x])

/-- Every other sample of a stream, from the newest on. -/
def everyOther : List Cplx → List Cplx
  | x :: _ :: r => x :: everyOther r
  | l => l

/-- An interpolation stage of the clocked section; stages 1A and 1B have the coefficients of stage 2 (R107). -/
def interpolate (h : List Cplx) : List Cplx := firRun .interp2 [] (stuff h)

/-- A decimation stage; D0 and D00 have the coefficients of D1 (R107). -/
def decimate (h : List Cplx) : List Cplx := everyOther (firRun .decim [] h)

/-- A change of a stream made `n` times. -/
def stages (f : List Cplx → List Cplx) : Nat → List Cplx → List Cplx
  | 0, h => h
  | n + 1, h => stages f n (f h)

/-- The stages of interpolation and of decimation of the clocked sections at a level (Table 4-2). -/
def clockedStages (level : Nat) : Nat := level + 1

/-- The clocked interpolation and decimation factor of a level (Table 4-2). -/
def clockedFactor (level : Nat) : Nat := 2 ^ clockedStages level

/-- A part within Q1.23. -/
def satQ23 (x : Cplx) : Cplx := (satS 24 x.1, satS 24 x.2)

/-- One path of rows of 64 samples. -/
def column (rows : List (List Cplx)) (p : Nat) : List Cplx := rows.map (fun r => r.getD p (0, 0))

/-! ### What sets a chain's fractional-delay filter (R103, R108, R111, R429) -/

/-- The attenuation step correction of a chain in force (R103, R425). -/
def chainStep (s : State) (tx : Bool) (p : Nat) : Int × Int :=
  stepCorrection s tx p (tw3216Band s p (roleKhz s (s.loRole tx p))) (if tx then appliedTx s p else (pathOf s p).rxAtten)

/-- A trim as whole samples of a converter period and a fraction in 1/125 of a time unit. -/
def trimSplit (d : Int) (period : Nat) : Int × Int := (trim125 d / (125 * period : Nat), trim125 d % (125 * period : Nat))

/-- What sets the coefficients: the fraction of the trim, the chain gain, and the step correction in 0.01 dB and 0.05°. -/
def chainArgs (s : State) (tx : Bool) (p period : Nat) : List Int :=
  let g := s.reg (if tx then Reg.NVS_ARR_TX p else Reg.NVS_ARR_RX p)
  let c := chainStep s tx p
  [(trimSplit (trimOf s tx p) period).2, toS 16 (fld g 31 16), toS 16 (fld g 15 0), c.1, c.2]

/-! ### Downlink: interpolation stage 1 and the predistorter (R181…R184) -/

/-- The two predistorter inputs of a path for the newest path sample, the earlier first. -/
def stage1 (rows : List (List Cplx)) (p : Nat) : Cplx × Cplx :=
  let h := stuff (column rows p)
  (satQ23 (firAt .interp1 [] h 1), satQ23 (firAt .interp1 [] h 0))

/-- The sample of a path at a lag, in rows newest first. -/
def lagged (rows : List (List Cplx)) (p lag : Nat) : Cplx := (rows.getD lag []).getD p (0, 0)

/-- A path's TX chain is LIVE when a sample of it reaches the ball, as far as its state and its bursts now tell (R182, R208). -/
def txSends (s : State) (p : Nat) (i : Int) : Bool :=
  let x := pathOf s p
  x.txFault == 0 && s.wrp.active.isSome && (s.pathCfg p).txEn && muteSrc s p == 0 && !x.muted && txCovered s p i

/-- The predistorter input of a neighbour at a lag of sample `k`, numbered at the predistorter's rate (R182). -/
def nbrSample (s : State) (rows : List (List Cplx)) (second : Bool) (p : Nat) (k : Int) (lag : Nat) : Cplx :=
  match neighbour s second p with
  | some n => if txSends s n ((k - lag) / 2) then lagged rows n lag else (0, 0)
  | none => (0, 0)

/-- Predistorter output `k` of a path, and whether it saturated (R181, R184): a path without DPD_EN passes its input on, and that of a
FAULTED chain stops (R125). -/
def predistorted (s : State) (rows : List (List Cplx)) (p : Nat) (k : Int) : Cplx × Bool :=
  if ¬ dpdEnabled s p then (lagged rows p 0, false)
  else if (pathOf s p).txFault ≠ 0 then ((0, 0), false)
  else
    predistort (coefAt (dpdOf s p) (halfPeriod s) (k * (halfPeriod s : Nat))) (pathM s p) (pathC s p) (lagged rows p)
      (nbrSample s rows false p k) (nbrSample s rows true p k)

/-- The outputs of the 64 predistorters for sample `k`. -/
def pdRow (s : State) (rows : List (List Cplx)) (k : Int) : List (Cplx × Bool) := (List.range 64).map (fun p => predistorted s rows p k)

/-- Count saturated predistorter outputs (R184). -/
def dpdSatCount (row : List (Cplx × Bool)) (s : State) : State :=
  let sat := (List.range 64).filter (fun p => (row.getD p ((0, 0), false)).2)
  if sat.isEmpty then s
  else (forAll sat (fun p s => s.addReg (Reg.DPD_SAT p) 1) s).raise Reg.DPD_INT_STATUS 4

/-- Path sample `n` goes through interpolation stage 1 and the predistorters into elastic buffer E2. -/
def pathSampleOn (n : Nat) (y : List Cplx) (s : State) : State :=
  let rows := (y :: s.fhp.pathRows).take 32
  let u := (List.range 64).map (stage1 rows)
  let in1 := (u.map (·.1) :: s.fhp.pdRows).take 32
  let in2 := (u.map (·.2) :: in1).take 32
  let out1 := pdRow s in1 (2 * n : Nat)
  let out2 := pdRow s in2 (2 * n + 1 : Nat)
  (dpdSatCount out2 (dpdSatCount out1 s)).modFhp (fun f => { f with
    pathRows := rows, pdRows := in2, e2 := f.e2 ++ [(n, [out1.map (·.1), out2.map (·.1)])] })

/-! ### Downlink: the clocked section (R106…R108, R126) -/

/-- DAC samples by which the read point of E2 can lie ahead of a trim of zero. -/
def trimReach : Nat := 40

/-- The DAC codes of a path for the newest predistorter outputs, in order: interpolation, equaliser, fractional delay. -/
def dacCodes (s : State) (p : Nat) (rows : List (List Cplx)) : List (Int × Int) :=
  let up := stages interpolate (clockedStages s.pwr.level) (column rows p)
  let eq := if s.bit (Reg.PTH_CTRL p) 4 then up.drop (firTaps .invSinc / 2) else firRun .invSinc [] up
  let fd := firRun .txDelay (chainArgs s true p (tickTu / 4)) eq
  let at_ := ((trimReach : Int) + (trimSplit (trimOf s true p) (tickTu / 4)).1).toNat
  let n := 2 * clockedFactor s.pwr.level
  ((fd.drop at_).take n).reverse.map (fun x => (satS 16 x.1, satS 16 x.2))

/-- The codes of a chain that sends nothing are zero (R126). -/
def dacOut (s : State) (n p : Nat) (rows : List (List Cplx)) : List (Int × Int) :=
  if txLive s p && txCovered s p (n : Int) then dacCodes s p rows else List.replicate (2 * clockedFactor s.pwr.level) (0, 0)

/-- Path sample `n` leaves elastic buffer E2 for the converters. -/
def converterSample (n : Nat) (rows : List (List Cplx)) (s : State) : State :=
  let out := (rows.reverse ++ s.fhp.outRows).take 96
  let codes := (List.range 64).map (fun p => dacOut s n p out)
  s.modFhp (fun f => { f with outRows := out, dac := codes })

/-- The path samples whose ball time has come, oldest first (R165). -/
def converterTick (s : State) : State :=
  let due := s.fhp.e2.filter (fun x => decide ((x.1 + 1023) * pathPeriod s.pwr.level ≤ s.time.tb0))
  if due.isEmpty then s
  else forAll due (fun x s => converterSample x.1 x.2 s)
    (s.modFhp (fun f => { f with e2 := f.e2.filter (fun x => !due.contains x) }))

/-! ### Cadence slips (R19, R20) -/

/-- The number of the path sample whose release time is now, `A` after its acceptance (R19). -/
def releasedNow (s : State) : Nat := s.time.tb0 / pathPeriod s.pwr.level - 832

/-- The boundary substitutes a zero (R20): on the transmit side in the path's stream to its DACs, on the receive side in a layer. -/
def slipZero (ul : Bool) (i : Nat) (s : State) : State :=
  let n := releasedNow s
  if ul then s.modFhp (fun f => { f with ulSlips := f.ulSlips.filter (fun x => decide (n < x.2 + 491520)) ++ [(i % 32, n)] })
  else s.modFhp (fun f => { f with
    e2 := f.e2.map (fun x => if x.1 = n then (n, x.2.map (fun r => lmod r i (fun _ => (0, 0)))) else x) })

/-- A sample misses its release time (R20): a zero stands for it, and the slip is counted, logged and raised. -/
def cadenceSlip (ul : Bool) (i : Nat) (s : State) : State :=
  ((slipZero ul i s).addReg Reg.GLB_CADENCE_SLIP 1).event Reg.GLB_INT_STATUS 2 0 0

/-- CADENCE_SLIP (R20). -/
def execCadenceSlip (s : State) : Host.Outcome State Fault Refusal :=
  .next (if s.pwr.stage ≥ 3 then cadenceSlip (Config.slipped s.draw.1).1 (Config.slipped s.draw.1).2 s.draw.2 else s)

/-! ### Uplink: ADC samples to path samples (R106, R107, R117, R124) -/

/-- ADC samples before the first path sample of an interval that its filters reach, and after the last one. -/
def adcLead : Nat := 480

/-- See `adcLead`. -/
def adcTrail : Nat := 32

/-- The period of an ADC sample. -/
def adcTu : Nat := tickTu / 2

/-- One part of an ADC's samples with the positions in `mask` filled; the first sample has number `k` (R117). -/
def fillPart (mask k : Nat) (l : List Int) : List Int :=
  (List.range l.length).map (fun j =>
    if nbit mask ((k + j) % 8) then fillSample (l.getD (j - 1) 0) (l.getD (j + 1) 0) else l.getD j 0)

/-- The path samples of a path whose first one entered the ball at `start`, from ADC samples in order that begin `adcLead` before it. -/
def rxColumn (s : State) (p start n : Nat) (adc : List (List Cplx)) : List Cplx :=
  let k := start / adcTu + 7 * adcLead
  let x := column adc p
  let i := fillPart (pathOf s p).adcI.filling k (x.map (·.1))
  let q := fillPart (pathOf s p).adcQ.filling k (x.map (·.2))
  let at_ := ((adcTrail : Int) + (trimSplit (trimOf s false p) adcTu).1).toNat
  let fd := firRun .rxDelay (chainArgs s false p adcTu) ((List.zip i q).reverse.drop at_)
  ((stages decimate (clockedStages s.pwr.level) fd).take n).reverse.map satQ23

/-- A group was in RX at some time of an interval of TB0 (R264). -/
def groupRxIn (s : State) (g a b : Nat) : Bool :=
  (grp s g).rxSince.any (fun t => decide (t < b)) || (grp s g).rxSpans.any (fun x => decide (x.1 < b) && decide (a < x.2))

/-- A path's RX chain delivered samples to the beamformer at a ball time: it is LIVE but for its group, which was in RX then (R124). -/
def rxOpen (s : State) (p t : Nat) : Bool :=
  let x := pathOf s p
  x.rxFault == 0 && s.wrp.active.isSome && (s.pathCfg p).rxEn && !rxZeroed s p && !x.zeroed && groupRxIn s (s.groupOf p) t (t + 1)

/-- The path samples in a run of ADC samples. -/
def rxCount (s : State) (adc : List (List Cplx)) : Nat := (adc.length - adcLead - adcTrail) / clockedFactor s.pwr.level

/-- The 64 path samples at each port time of an interval whose first one entered the ball at `start`; those of a chain that is not LIVE
are zero. -/
def rxRows (s : State) (start : Nat) (adc : List (List Cplx)) : List (List Cplx) :=
  let n := rxCount s adc
  let cols := (List.range 64).map (fun p => rxColumn s p start n adc)
  (List.range n).map (fun i => (List.range 64).map (fun p =>
    if rxOpen s p (start + i * pathPeriod s.pwr.level) then (cols.getD p []).getD i (0, 0) else (0, 0)))

end Sys2Proof.Machine
end

