-- ==== Sys2Proof/Machine/Fhp.lean ====
section
/-!
DEFINITION. The fronthaul: eCPRI messages (R256…R258), downlink sections and their deadlines (R260, R265, R266), what the
released layers add up to on the paths (R160, R162), uplink sections (R264), control messages of flocks (R268…R271), quarantine
(R281, R282), and the registers of the FHP block (R283).
-/

namespace Sys2Proof.Machine

/-! ### Downlink sections (R260…R262, R265, R266) -/

/-- The downlink slot a flock holds whose EAXC is a PC_ID. -/
def sectionLayer (s : State) (k pcid : Nat) : Option Nat :=
  (List.range 32).find? (fun l => s.holder false l == some k && (s.layer false l).any (fun y => y.eaxc == pcid))

/-- A section's header is outside Table 10-2, or its COUNT does not match its payload. -/
def badSection (b : List Byte) : Bool :=
  decide (b.length < 8) || decide (byteAt b 1 > 99) || byteAt b 5 == 0 || byteAt b 6 % 4 == 3 || !zeros b 7 1 ||
    b.length != 8 + byteAt b 5 * blockBytes (byteAt b 6 % 4)

/-- The blocks of a section, as bytes. -/
def sectionBlocks (f n : Nat) (b : List Byte) : List (List Byte) :=
  (List.range n).map (fun i => slice b (8 + i * blockBytes f) (blockBytes f))

/-- An interval of a layer meets one of a list. -/
def meets (l : List (Nat × Nat × Nat)) (n a b : Nat) : Bool :=
  l.any (fun x => x.1 == n && decide (a < x.2.2) && decide (x.2.1 < b))

/-- An interval of a layer lies within one of a list. -/
def insideOf (l : List (Nat × Nat × Nat)) (n a b : Nat) : Bool :=
  l.any (fun x => x.1 == n && decide (x.2.1 ≤ a) && decide (b ≤ x.2.2))

/-- Add an interval of a layer, and forget those that ended more than a second ago. -/
def addSpan (now n a b : Nat) (l : List (Nat × Nat × Nat)) : List (Nat × Nat × Nat) :=
  l.filter (fun x => decide (now < x.2.2 + secTu)) ++ [(n, a, b)]

/-- An on-time section is held in the ingress store; a quarantined flock's is checked and discarded (R262, R265, R266, R282). -/
def sectionAccept (k q l first stop fmt n : Nat) (b : List Byte) (s : State) : State :=
  let raw := sectionBlocks fmt n b
  let dead := (deadlineOf s first).toNat
  let s := if insideOf s.fhp.subst l first stop then s
    else
      let s := (s.addReg (Reg.FHP_PORT_IQ_RX q) 1).modFhp (fun f => { f with covered := addSpan s.time.tb0 l first stop f.covered })
      if (vget s.fhp.flocks k).quar then s
      else s.modFhp (fun f => { f with ingress := f.ingress ++ [{
        k := k, l := l, q := q, start := first, deadline := dead, blocks := raw.map (decodeBlock fmt) }] })
  forAll (raw.filter (badExponent fmt)) (fun _ s => flockViol k 8 s) s

/-- A downlink section of a flock is checked, then held, dropped or discarded by its deadline (R260, R265, R266, Table 10-9). -/
def iqSection (k q pcid : Nat) (b : List Byte) (s : State) : State :=
  let fmt := byteAt b 6 % 4
  let n := byteAt b 5
  let blk := be b 2 3
  if badSection b then nakViol k q 0 4 0 pcid s
  else
    match sectionLayer s k pcid with
    | none => nakViol k q 0 3 0 pcid s
    | some l =>
      match layerCarrier s false l with
      | none => nakViol k q 0 3 0 pcid s
      | some c =>
        let first := nearSec s.time.tb0 (byteAt b 0) * secTu + byteAt b 1 * frameTu + blk * blockTu c
        let stop := first + n * blockTu c
        let dead := deadlineOf s first
        let now : Int := (s.time.tb0 : Nat)
        if fmt ≠ c.format ∨ blk + n > frameBlocks c then nakViol k q 0 4 0 pcid s
        else if now < dead - (s.fld Reg.FHP_CFG 15 8 * usTu : Nat) then flockViol k 5 s
        else if dead < now then s.addHi (Reg.FHP_FLOCK_LATE k) 1
        else if meets s.fhp.covered l first stop then flockViol k 7 s
        else sectionAccept k q l first stop fmt n b s

/-- The flock is one of the warp, and the device terminates flocks (R324). -/
def flockServed (s : State) (k : Nat) : Bool := (s.flockCfg k).isSome && !isStackMember s

/-- IQ_SECTION_RX (R265). -/
def execIqSectionRx (k : Fin 8) (q : Fin 2) (pcid : BitVec 16) (body : List Byte) (s : State) : Host.Outcome State Fault Refusal :=
  .next (if flockServed s k then iqSection k q pcid.toNat body s else s)

/-! ### Needed samples and substitution (R266, R267) -/

/-- An air time lies within a TX burst of a group that carries a carrier (R266). -/
def neededAt (s : State) (c : Carrier) (air : Nat) : Bool :=
  (List.range 8).any (fun g => nbit c.groups g &&
    (vget s.rad.groups g).bursts.any (fun b => b.tx && decide (b.start ≤ air) && decide (air < burstStop b)))

/-- The sample of a layer whose deadline passes now is needed and has no on-time section: the layer is zero to the end of the symbol
(R266), without a violation while its port is out of L0 (R267). -/
def lateSubst (l : Nat) (s : State) : State :=
  let air := s.time.tb0 + downlinkLead * pathPeriod s.pwr.level + stackDelay s
  match s.holder false l, layerCarrier s false l, s.layer false l with
  | some k, some c, some y =>
    if ¬ neededAt s c air ∨ insideOf s.fhp.covered l air (air + 1) ∨ insideOf s.fhp.subst l air (air + 1) then s
    else
      let s := s.modFhp (fun f => { f with subst := addSpan s.time.tb0 l air (symbolAfter c air) f.subst })
      let s := flockEvent k 1 (toTb3 s air) ((s.addLo (Reg.FHP_FLOCK_LATE k) 1).raise Reg.FHP_INT_STATUS 5)
      if portUp s y.port then flockViol k 6 s else s
  | _, _, _ => s

/-- LATE_SUBSTITUTION (R266). -/
def execLateSubstitution (l : Fin 32) (s : State) : Host.Outcome State Fault Refusal :=
  .next (if isStackMember s then s else lateSubst l s)

/-! ### Release into the fabric (R265, R320, R160…R162) -/

/-- The sample of an air time as the layer contributes it (R266): one that is not needed is discarded, and one of a substituted symbol is
zero. -/
def layerInput (s : State) (c : Carrier) (l air : Nat) (x : Cplx) : Cplx :=
  if ¬ neededAt s c air ∨ insideOf s.fhp.subst l air (air + 1) then (0, 0) else x

/-- The last samples of a stream that a filter still reaches. -/
def tailOf (old new : List Cplx) : List Cplx := ((old ++ new).reverse.take 64).reverse

/-- Layer samples at the carrier rate enter the fabric at the path rate: each path sample by its port time over the period (R151,
R165). -/
def enterFabric (l start : Nat) (c : Carrier) (x : List Cplx) (s : State) : State :=
  let t := pathPeriod s.pwr.level
  let n0 := divUp start t - 1023
  let y := Config.fronthaulDl (streamArgs s c) (vget s.fhp.dlTail l) x
  let m := x.length * carrierTu c / t
  s.modFhp (fun f => { f with
    dlIn := f.dlIn ++ (List.range m).map (fun i => (n0 + i, l, y.getD i (0, 0))), dlTail := vmod f.dlTail l (tailOf · x) })

/-- Samples of a carrier from an air time on, as the layer contributes them. -/
def layerInputs (s : State) (c : Carrier) (l start : Nat) (y : List Cplx) : List Cplx :=
  (List.range y.length).map (fun i => layerInput s c l (start + i * carrierTu c) (y.getD i (0, 0)))

/-- The samples of a section as its layer contributes them. -/
def sectionSamples (s : State) (c : Carrier) (x : Section) : List Cplx := layerInputs s c x.l x.start (x.blocks.flatMap blockSamples)

/-- A section holds a needed sample; the samples of any other are discarded (R266). -/
def sectionNeeded (s : State) (x : Section) : Bool :=
  match layerCarrier s false x.l with
  | some c => (List.range (12 * x.blocks.length)).any (fun i => neededAt s c (x.start + i * carrierTu c))
  | none => false

/-- The blocks of a section as the fold links carry them: those of the block-floating-point formats as they stand, those of the 16-bit
format compressed, with the saturated parts counted (R313, R320). -/
def foldSection (fmt : Nat) (x : Section) : Section × Nat :=
  if fmt ≠ 0 then (x, 0)
  else
    let l := x.blocks.map (fun b => foldBlock (blockSamples b))
    ({ x with blocks := l.map (·.1) }, (l.map (·.2)).foldl (· + ·) 0)

/-- The subheader of a data frame (Table 12-3). -/
def dataHeader (ul : Bool) (c start blk count flags layers fallback : Nat) : List Byte :=
  beBytes 1 (b2n ul * 128 + c) ++ beBytes 1 (secOf start) ++ beBytes 1 (start % secTu / frameTu) ++ beBytes 3 blk ++
    beBytes 1 count ++ beBytes 1 flags ++ beBytes 4 layers ++ beBytes 4 fallback

/-- The number of a block in its frame. -/
def blockNo (k : Carrier) (start : Nat) : Nat := start % frameTu / blockTu k

/-- A block of zeros. -/
def zeroBlock : Nat × List Int := (0, List.replicate 24 0)

/-- A block by its layer and air time. -/
def blockAt (l : List (Nat × Nat × (Nat × List Int))) (n start : Nat) : Option (Nat × List Int) :=
  (l.find? (fun x => x.1 == n && x.2.1 == start)).map (·.2.2)

/-- Send the pairs of a carrier whose second blocks are released; their first blocks are among `all` (R314, R320). -/
def sendPairs (ci : Nat) (c : Carrier) (all new : List (Nat × Nat × (Nat × List Int))) (s : State) : State :=
  let seconds := new.filter (fun x => blockNo c x.2.1 % 2 == 1 && (s.layer false x.1).any (fun y => y.carrier == ci))
  forAll (sortBy (fun a b => decide (a ≤ b)) (seconds.map (fun x => x.2.1))).eraseDups (fun u s =>
    let t := u - blockTu c
    let ls := (List.range 32).filter (fun l => (blockAt seconds l u).isSome)
    casSend 0x04 1 0 true (dataHeader false ci t (blockNo c t) ls.length 0 (maskOf ls) 0 ++
      ls.flatMap (fun l => pairBytes ((blockAt all l t).getD zeroBlock) ((blockAt seconds l u).getD zeroBlock))) s) s

/-- The blocks of a section by layer and air time. -/
def spreadBlocks (c : Carrier) (x : Section) : List (Nat × Nat × (Nat × List Int)) :=
  (List.range x.blocks.length).map (fun i => (x.l, x.start + i * blockTu c, x.blocks.getD i zeroBlock))

/-- The bellwether sends the blocks of released sections down; a first block whose second one is still to be released waits (R320). -/
def sendSections (xs : List Section) (s : State) : State :=
  if ¬ isBellwether s then s
  else
    let new := xs.flatMap (fun x => match layerCarrier s false x.l with
      | some c => spreadBlocks c x
      | none => [])
    let all := s.fhp.halves ++ new
    let s := forAll (List.range 4) (fun ci s => match s.carrier false ci with
      | some c => sendPairs ci c all new s
      | none => s) s
    s.modFhp (fun f => { f with halves := all.filter (fun x => decide (s.time.tb0 ≤ x.2.1) && (match layerCarrier s false x.1 with
      | some c => blockNo c x.2.1 % 2 == 0 && (blockAt new x.1 (x.2.1 + blockTu c)).isNone
      | none => false)) })

/-- A section leaves the ingress store for the fabric; what its slot no longer holds for its flock is dropped. -/
def releaseOne (x : Section) (s : State) : State :=
  match layerCarrier s false x.l with
  | some c => if s.holder false x.l = some x.k then enterFabric x.l x.start c (sectionSamples s c x) s else s
  | none => s

/-- The sections of the earliest deadline are released (R265, R320). -/
def sectionRelease (s : State) : State :=
  match s.fhp.ingress.map (·.deadline) with
  | [] => s
  | d :: ds =>
    let due := s.fhp.ingress.filter (fun x => x.deadline == ds.foldl min d)
    let s := s.modFhp (fun f => { f with ingress := f.ingress.filter (fun x => x.deadline != ds.foldl min d) })
    let folded := (due.filter (sectionNeeded s)).map (fun x => if isBellwether s then
        foldSection (match layerCarrier s false x.l with
          | some c => c.format
          | none => 1) x
      else (x, 0))
    let sat := (folded.map (·.2)).foldl (· + ·) 0
    let s := if sat = 0 then s else (s.addReg Reg.CAS_SUM_SAT sat).raise Reg.CAS_INT_STATUS 7
    sendSections (folded.map (·.1)) (forAll (folded.map (·.1)) releaseOne s)

/-- SECTION_RELEASE (R265). -/
def execSectionRelease (s : State) : Host.Outcome State Fault Refusal := .next (sectionRelease s)

/-- A flock's quarantine is in effect on a downlink carrier at a ball time: it begins and ends at the carrier's next slot boundary
(R281, R282). -/
def quarantined (s : State) (k c ball : Nat) : Bool :=
  let f := vget s.fhp.flocks k
  f.quar == decide (boundaryFrom (carrierSlot s false c) f.quarAt ≤ ball)

/-- A layer weights the paths at a ball time: it is served, its flock is not quarantined (R157, R282), and a device of a stack is joined
(R326). -/
def layerOut (s : State) (ball l : Nat) : Bool :=
  match s.holder false l with
  | some k => !quarantined s k (slotCarrier s false l) ball && (!isStackMember s || s.cas.selfJoined)
  | none => false

/-- The product of a layer sample and a weight, in fall-back or at full precision (R98, R160). -/
def layerProduct (fall : Bool) (w x : Cplx) : Cplx := if fall then cmulFallback w x else cmul w x

/-- The sum of a path over the layer samples of one path sample (R160). -/
def pathSum (s : State) (n p : Nat) (xs : List (Nat × Cplx)) : Cplx :=
  xs.foldl (fun a x => cadd a (layerProduct (nbit s.wrp.fallDl x.1)
    (maskedWeight s false x.1 p ((n * pathPeriod s.pwr.level : Nat) : Int)) x.2)) (0, 0)

/-- Count saturated path outputs (R162, R179). -/
def dlSatCount (out : List (Cplx × Bool)) (s : State) : State :=
  let sat := (List.range 64).filter (fun p => (out.getD p ((0, 0), false)).2)
  if sat.isEmpty then s
  else (forAll sat (fun p s => s.addReg (Reg.SKN_DL_SAT p) 1) s).raise Reg.SKN_INT_STATUS 4

/-- The beamformer forms the path samples of one port time (R160, R162), and they go on to the predistorters. -/
def mixSample (n : Nat) (s : State) : State :=
  let xs := ((s.fhp.dlIn.filter (fun x => x.1 == n)).map (·.2)).filter (fun x => layerOut s ((n + 1023) * pathPeriod s.pwr.level) x.1)
  let out := (List.range 64).map (fun p => narrowSum (min 9 (s.fld Reg.SKN_CFG 3 0)) (pathSum s n p xs))
  let s := (dlSatCount out s).modFhp (fun f => { f with dlIn := f.dlIn.filter (fun x => x.1 != n), dlOut := out.map (·.1) })
  pathSampleOn n (out.map (·.1)) s

/-- The signal path at a tick: the path samples whose port time has come, oldest first, and those whose ball time has. At PL3 the
converters are powered down and the paths carry no traffic (R106). -/
def mixTick (s : State) : State :=
  if ¬ convertersOn s then s
  else
    let due := (s.fhp.dlIn.map (·.1)).filter (fun n => decide (n * pathPeriod s.pwr.level ≤ s.time.tb0))
    converterTick (forAll (sortBy (fun a b => decide (a ≤ b)) due).eraseDups mixSample s)

/-! ### Uplink sections (R161, R162, R263, R264) -/

/-- The accumulator of an uplink layer over the 64 path samples taken at one port time (R161). -/
def layerSum (s : State) (l : Nat) (port : Int) (x : List Cplx) : Cplx :=
  (List.range 64).foldl (fun a p => cadd a (layerProduct (nbit s.wrp.fallUl l) (maskedWeight s true l p port) (x.getD p (0, 0)))) (0, 0)

/-- The port times of `n` uplink path samples, the first of which enters the ball at `start` (R165). -/
def uplinkPorts (s : State) (start n : Nat) : List Int :=
  (List.range n).map (fun i => ((start + (i + 160) * pathPeriod s.pwr.level : Nat) : Int))

/-- The number of the path sample of an uplink port time. -/
def portNumber (s : State) (port : Int) : Nat := port.toNat / pathPeriod s.pwr.level

/-- A cadence slip zeroed a layer's sample of a port time (R20). -/
def slipped (s : State) (l : Nat) (port : Int) : Bool := s.fhp.ulSlips.contains (l, portNumber s port)

/-- The sums of a layer over the path samples of an interval, narrowed by `f`; a sample that slipped is zero. -/
def layerSamples {α : Type} (f : Cplx → α) (s : State) (l start : Nat) (rx : List (List Cplx)) : List α :=
  (List.zip (uplinkPorts s start rx.length) rx).map (fun x => f (if slipped s l x.1 then (0, 0) else layerSum s l x.1 x.2))

/-- The carrier-rate samples of an uplink layer from the path samples of an interval, with the number of samples that saturate, and the
path-rate samples that the filter reaches next. -/
def uplinkSamples (s : State) (l : Nat) (c : Carrier) (start : Nat) (rx : List (List Cplx)) : List Cplx × Nat × List Cplx :=
  let y := layerSamples (narrowSum (min 9 (s.fld Reg.SKN_CFG 19 16))) s l start rx
  let old := vget s.fhp.ulTail l
  (Config.fronthaulUl (streamArgs s c) old (y.map (·.1)), (y.filter (·.2)).length, tailOf old (y.map (·.1)))

/-- A layer's samples of an interval of ball times hold one that slipped (R20). -/
def slippedIn (s : State) (l a b : Nat) : Bool :=
  s.fhp.ulSlips.any (fun x => x.1 == l && decide (a ≤ (x.2 - 160) * pathPeriod s.pwr.level) &&
    decide ((x.2 - 160) * pathPeriod s.pwr.level < b))

/-- A block of a carrier holds a sample that entered the ball while a group with the carrier was in RX (R264). -/
def blockInRx (s : State) (c : Carrier) (start : Nat) : Bool :=
  (List.range 8).any (fun g => nbit c.groups g && groupRxIn s g start (start + blockTu c))

/-- The blocks a section of a flock carries for a FORMAT (R264, R271). -/
def sectionLimit (s : State) (k fmt : Nat) : Nat :=
  let b := if fmt = 0 then s.fld Reg.FHP_UL_BLOCKS 23 16 else if fmt = 1 then s.fld Reg.FHP_UL_BLOCKS 7 0 else s.fld Reg.FHP_UL_BLOCKS 15 8
  let m := (vget s.fhp.flocks k).ulBlocks
  if m = 0 then b else min b m

/-- Some RX chain is FAULTED (R264). -/
def anyRxFault (s : State) : Bool := (List.range 64).any (fun p => decide ((pathOf s p).rxFault ≠ 0))

/-- What the state marks the uplink samples of a layer with. -/
def ulMarks (s : State) (l : Nat) (c : Carrier) (m : UlMarks) : UlMarks :=
  { m with loInvalid := m.loInvalid || !roleValid s c.lo, fallback := m.fallback || nbit s.wrp.fallUl l, fault := m.fault || anyRxFault s }

/-- FLAGS of a section (Table 10-2). -/
def sectionFlags (m : UlMarks) (fmt : Nat) : Nat :=
  b2n m.loInvalid * 128 + b2n m.slip * 64 + b2n m.fallback * 32 + b2n m.fault * 16 + fmt

/-- Send a section of uplink samples on the layer's port; it is discarded while the port is out of L0 (R264, R267). -/
def sendSection (k : Nat) (f : FlockCfg) (y : LayerCfg) (c : Carrier) (start n : Nat) (x : List Cplx) (m : UlMarks) (s : State) :
    State :=
  if ¬ portUp s y.port then s
  else
    let body := beBytes 1 (secOf start) ++ beBytes 1 (start % secTu / frameTu) ++ beBytes 3 (blockNo c start) ++ beBytes 1 n ++
      beBytes 1 (sectionFlags m c.format) ++ beBytes 1 0 ++
      (List.range n).flatMap (fun i => compressBlock c.format ((List.range 12).map (fun j => x.getD (12 * i + j) (0, 0))))
    let (seq, s) := takeSeq k y.eaxc s
    wireOut y.port (flockFrame s f y.port (ecpri 0x00 y.eaxc seq body)) (s.addReg (Reg.FHP_PORT_IQ_TX y.port) 1)

/-- What either of two runs of samples is marked with. -/
def marksOr (a b : UlMarks) : UlMarks :=
  { loInvalid := a.loInvalid || b.loInvalid, slip := a.slip || b.slip, fallback := a.fallback || b.fallback
    fault := a.fault || b.fault, sat := a.sat || b.sat }

/-- The first `n` blocks that wait leave as a section. -/
def sendBlocks (k l : Nat) (f : FlockCfg) (y : LayerCfg) (c : Carrier) (n : Nat) (s : State) : State :=
  let u := vget s.fhp.ulPart l
  let out := u.blocks.take n
  let m := out.foldl (fun m b => marksOr m b.2) {}
  sendSection k f y c u.start n (out.flatMap (·.1)) m (s.modFhp (fun h => { h with
    ulPart := vset h.ulPart l (if u.blocks.length ≤ n then {} else
      { start := u.start + n * blockTu c, blocks := u.blocks.drop n }) }))

/-- The sections that the waiting blocks of a layer complete leave (R264): one of the flock's size, the remainder of a frame, and what
stands before the end of RX; a block without a sample in RX is discarded. `last` tells that no block follows on the last one. -/
def sectionsOut (k l : Nat) (f : FlockCfg) (y : LayerCfg) (c : Carrier) (last : Bool) : Nat → State → State
  | 0, s => s
  | fuel + 1, s =>
    let u := vget s.fhp.ulPart l
    let n := u.blocks.length
    let open_ := ((List.range n).takeWhile (fun i => blockInRx s c (u.start + i * blockTu c))).length
    let full := min (sectionLimit s k c.format) (frameBlocks c - blockNo c u.start)
    if n = 0 then s
    else if open_ = 0 then
      sectionsOut k l f y c last fuel (s.modFhp (fun h => { h with
        ulPart := vset h.ulPart l (if n = 1 then {} else { start := u.start + blockTu c, blocks := u.blocks.drop 1 }) }))
    else if full ≤ open_ then sectionsOut k l f y c last fuel (sendBlocks k l f y c (max 1 full) s)
    else if open_ < n ∨ last ∨ ¬ blockInRx s c (u.start + n * blockTu c) then
      sectionsOut k l f y c last fuel (sendBlocks k l f y c open_ s)
    else s

/-- Complete blocks join those that wait for their section; what waits and does not lead up to them leaves first. -/
def pushBlocks (k l start : Nat) (f : FlockCfg) (y : LayerCfg) (c : Carrier) (bs : List (List Cplx × UlMarks)) (s : State) : State :=
  let u := vget s.fhp.ulPart l
  let s := if u.blocks.isEmpty ∨ u.start + u.blocks.length * blockTu c = start then s
    else sectionsOut k l f y c true (u.blocks.length + 1) s
  s.modFhp (fun h => { h with ulPart := vmod h.ulPart l (fun u =>
    if u.blocks.isEmpty then { start := start, blocks := bs } else { u with blocks := u.blocks ++ bs }) })

/-- Blocks of samples with what they are marked with. -/
def markedBlocks (s : State) (l start count : Nat) (c : Carrier) (x : List Cplx) (m : UlMarks) : List (List Cplx × UlMarks) :=
  (List.range count).map (fun i => ((List.range 12).map (fun j => x.getD (12 * i + j) (0, 0)),
    { m with slip := m.slip || slippedIn s l (start + i * blockTu c) (start + (i + 1) * blockTu c) }))

/-- The uplink samples of a layer saturate (R162, R179). -/
def ulSatCount (l sat : Nat) (s : State) : State :=
  if sat = 0 then s else (s.addReg (Reg.SKN_UL_SAT l) sat).raise Reg.SKN_INT_STATUS 5

/-- Uplink blocks of a served slot are complete, and so are the sections they fill; at the bellwether of joined devices the stack's sums
wait for them (R264, R321). -/
def ulSectionSend (l start count : Nat) (adc : List (List Cplx)) (m : UlMarks) (s : State) : State :=
  match s.holder true l, s.layer true l, layerCarrier s true l with
  | some k, some y, some c =>
    match s.flockCfg k with
    | none => s
    | some f =>
      let s := if isBellwether s ∧ ¬ (joinedOthers s).isEmpty then s
        else
          let (x, sat, next) := uplinkSamples s l c start (rxRows s start adc)
          let s := (ulSatCount l sat s).modFhp (fun h => { h with ulTail := vset h.ulTail l next })
          pushBlocks k l start f y c (markedBlocks s l start count c x (ulMarks s l c m)) s
      sectionsOut k l f y c false ((vget s.fhp.ulPart l).blocks.length + 1) s
  | _, _, _ => s

/-- UL_SECTION_SEND (R264): the ball time of the first sample, the blocks, the ADC samples of the 64 paths, and what happened
meanwhile. -/
def execUlSectionSend (l : Fin 32) (start count : Nat) (adc : List (List Cplx)) (m : UlMarks) (s : State) :
    Host.Outcome State Fault Refusal :=
  .next (if isStackMember s then s else ulSectionSend l start count adc m s)

/-! ### One-way delay measurement (R258) -/

/-- A type 5 message: identifier, action, timestamp, compensation 0. -/
def measureMsg (id action : Nat) (t : Option Nat) : List Byte :=
  beBytes 1 0x10 ++ beBytes 1 5 ++ beBytes 2 20 ++ beBytes 1 id ++ beBytes 1 action ++
    (match t with
    | some t => beBytes 6 (secOf t) ++ beBytes 4 (nsOf t)
    | none => List.replicate 10 0) ++ List.replicate 8 0

/-- A type 5 message from a flock that arrives at `at_`: a request is answered, a remote request starts a measurement (R258). Responses
and follow-ups end one. -/
def measurement (k q at_ : Nat) (b : List Byte) (s : State) : State :=
  match s.flockCfg k with
  | none => s
  | some f =>
    let id := byteAt b 0
    let out := fun (a : Nat) (t : Option Nat) (s : State) =>
      if portUp s q then txtsPush q 1 (a * 256 + id) s.time.tb0 (wireOut q (flockFrame s f q (measureMsg id a t)) s) else s
    let t := some at_
    if ¬ asksMeasurement (byteAt b 1) then s
    else
      match police k s with
      | (s, false) => s
      | (s, true) =>
        match byteAt b 1 with
        | 0 | 1 => out 2 t s
        | 3 => out 0 t s
        | _ => out 5 t (out 1 none s)

/-- The TB0 time at which a frame arrives, `fine` sixteenths of a tick into the present one (R299). -/
def ingressAt (s : State) (fine : Nat) : Nat := s.time.tb0 + fine * (tickTu / 16)

/-- ECPRI_DELAY_MEASUREMENT (R258). -/
def execEcpriDelayMeasurement (k : Fin 8) (q : Fin 2 × Fin 16) (body : List Byte) (s : State) : Host.Outcome State Fault Refusal :=
  .next (if flockServed s k then (if body.length < 20 then flockViol k 1 s else measurement k q.1 (ingressAt s q.2) body s) else s)

/-! ### Control messages (R154, R268…R271, R279…R282) -/

/-- The devices a stack may have: SKEIN_WRITE names one below this (R324). -/
def stackSize (s : State) : Nat := if isBellwether s then s.cas.size else 1

/-- A SKEIN_WRITE body: outside the flock's partitions nothing changes (R154, R282, R324). -/
def skeinWriteReq (k q tag : Nat) (b : List Byte) (s : State) : State :=
  let ul := nbit (byteAt b 0) 7
  let d := byteAt b 1
  if d ≥ stackSize s then nakViol k q tag 0xA 0x10 0 s
  else if ¬ ul ∧ (vget s.fhp.flocks k).quar then flockNak k q tag 0xC 0x10 0 s
  else if ¬ inPartition s ul k (be b 2 2) then nakViol k q tag 9 0x10 0 s
  else if d = 0 then skeinWriteBody ul b s
  else if nbit s.cas.joined d then casSend 0x06 1 d false (controlBody 0x01 tag b) s
  else s

/-- A SWAP_REQ body: of its refusals, NOT_HOLDER and PARTITION count as violations (R280, R282). -/
def swapReq (k q tag : Nat) (b : List Byte) (s : State) : State :=
  if ¬ nbit (byteAt b 0) 7 ∧ (vget s.fhp.flocks k).quar then flockNak k q tag 0xC 0x11 0 s
  else
    let code := flockSwapCode s k b
    let s := flockSwap k q tag b s
    if code = 5 then flockViol k 3 s else if code = 6 then flockViol k 9 s else s

/-- A BURST_REQ body: of its refusals, NOT_HOLDER counts as a violation (R280, R282). -/
def burstReq (k q tag : Nat) (b : List Byte) (s : State) : State :=
  if nbit (byteAt b 0) 7 ∧ (vget s.fhp.flocks k).quar then flockNak k q tag 0xC 0x20 0 s
  else
    let code := flockBurstCode s k b
    let s := flockBurst k q tag b s
    if code = 5 then flockViol k 3 s else s

/-- The ordering code as CAPS gives it. -/
def orderCode : Order → Nat
  | .sb => 1
  | .sc => 2
  | .xf => 3

/-- The FAULTED chains of a direction, bit `p`. -/
def faultMask (s : State) (tx : Bool) : Nat :=
  bitsOf 64 (fun p => decide ((if tx then (pathOf s p).txFault else (pathOf s p).rxFault) ≠ 0))

/-- The deadline offset of R265 in ns, rounded up, raised in a stack (R320). -/
def deadlineNs (s : State) : Nat := divUp (downlinkLead * pathPeriod s.pwr.level + stackDelay s) nsTu

/-- The body of CAPS (Table 10-5). -/
def capsBody (s : State) (k : Nat) (f : FlockCfg) : List Byte :=
  beBytes 2 0x6472 ++ beBytes 1 (orderCode s.fuse.order) ++ beBytes 1 k ++ beBytes 4 (s.reg Reg.GLB_FW_VERSION).toNat ++
    beBytes 4 s.warp.id ++ beBytes 4 s.warp.rev ++ beBytes 1 f.cls ++ beBytes 1 f.guarDl ++ beBytes 1 f.guarUl ++
    beBytes 1 f.carriers ++ beBytes 2 f.guarBw ++ beBytes 2 f.defer ++ beBytes 2 (s.fld Reg.FHP_CFG 15 8) ++
    beBytes 2 (deadlineNs s) ++ beBytes 1 (s.fld Reg.FHP_CFG 23 16) ++ beBytes 1 s.pwr.level ++ beBytes 2 0 ++
    beBytes 8 (faultMask s true) ++ beBytes 8 (faultMask s false)

/-- A CAPS_REQ body (R271). -/
def capsReq (k q tag : Nat) (b : List Byte) (s : State) : State :=
  match s.flockCfg k with
  | none => s
  | some f =>
    let s := s.modFlock k (fun x => { x with formats := byteAt b 0 % 8, ulBlocks := byteAt b 1, capsDone := true })
    s.post k q 0xB0 tag (capsBody s k f)

/-- A body of a known message. -/
def ctrlBody (msg k q tag : Nat) (b : List Byte) (s : State) : State :=
  match msg with
  | 0x01 => admitReq k q tag b s
  | 0x02 => releaseReq k q tag b s
  | 0x03 => withdrawReq k q tag b s
  | 0x10 => skeinWriteReq k q tag b s
  | 0x11 => swapReq k q tag b s
  | 0x20 => burstReq k q tag b s
  | _ => capsReq k q tag b s

/-- A control message of a flock: policed, then checked, then done (R268…R270). -/
def ctrlMsg (hdr : Bool) (msg k q tag : Nat) (b : List Byte) (s : State) : State :=
  match police k s with
  | (s, false) => s
  | (s, true) => if ¬ hdr ∨ ¬ bodyOk msg b then nakViol k q tag 0xA msg 0 s else ctrlBody msg k q tag b s

/-- A control message as a row gives it. -/
def ctrlRow (msg k q : Nat) (tag : BitVec 16) (b : List Byte) (s : State) : Host.Outcome State Fault Refusal :=
  .next (if flockServed s k then ctrlMsg true msg k q tag.toNat b s else s)

/-- ADMIT_REQ (R272). -/
def execAdmitReq (k : Fin 8) (q : Fin 2) (tag : BitVec 16) (body : List Byte) (s : State) : Host.Outcome State Fault Refusal :=
  ctrlRow 0x01 k q tag body s

/-- RELEASE_SLOTS (R277). -/
def execReleaseSlots (k : Fin 8) (q : Fin 2) (tag : BitVec 16) (body : List Byte) (s : State) : Host.Outcome State Fault Refusal :=
  ctrlRow 0x02 k q tag body s

/-- WITHDRAW (R277). -/
def execWithdraw (k : Fin 8) (q : Fin 2) (tag : BitVec 16) (body : List Byte) (s : State) : Host.Outcome State Fault Refusal :=
  ctrlRow 0x03 k q tag body s

/-- SKEIN_WRITE (R154). -/
def execSkeinWrite (k : Fin 8) (q : Fin 2) (tag : BitVec 16) (body : List Byte) (s : State) : Host.Outcome State Fault Refusal :=
  ctrlRow 0x10 k q tag body s

/-- SWAP_REQ (R163). -/
def execSwapReq (k : Fin 8) (q : Fin 2) (tag : BitVec 16) (body : List Byte) (s : State) : Host.Outcome State Fault Refusal :=
  ctrlRow 0x11 k q tag body s

/-- BURST_REQ (R209). -/
def execBurstReq (k : Fin 8) (q : Fin 2) (tag : BitVec 16) (body : List Byte) (s : State) : Host.Outcome State Fault Refusal :=
  ctrlRow 0x20 k q tag body s

/-- CAPS_REQ (R271). -/
def execCapsReq (k : Fin 8) (q : Fin 2) (tag : BitVec 16) (body : List Byte) (s : State) : Host.Outcome State Fault Refusal :=
  ctrlRow 0x30 k q tag body s

/-- An eCPRI message of a flock that arrives at `at_` (R256, R257, Table 10-1). -/
def ecpriRx (q k at_ : Nat) (p : List Byte) (s : State) : State :=
  let type := byteAt p 1
  let size := be p 2 2
  if byteAt p 0 ≠ 0x10 ∨ p.length < 4 + size ∨ p.length < 4 ∨ ¬ (type = 0 ∨ type = 2 ∨ type = 5) then flockViol k 1 s
  else if type = 5 then
    if size < 20 then flockViol k 1 s else measurement k q at_ (slice p 4 size) s
  else if size < 4 ∨ byteAt p 7 ≠ 0x80 then flockViol k 1 s
  else
    let id := be p 4 2
    let b := slice p 8 (size - 4)
    if type = 0 then iqSection k q id b (checkSeq q k id (byteAt p 6) s)
    else if id ≠ 0xF000 + k then flockViol k 2 s
    else ctrlMsg (headerOk b) (byteAt b 0) k q (be b 2 2) (b.drop 8) (checkSeq q k ctrlKey (byteAt p 6) s)

/-! ### Quarantine (R281, R282) -/

/-- FLOCK_QUARANTINE_ON (R281). -/
def quarantineOn (k : Nat) (s : State) : State :=
  let x := vget s.fhp.flocks k
  if x.quar ∨ ¬ x.quarNext then s
  else
    let s := s.modFlock k (fun f => { f with quar := true, quarNext := false, quarAt := s.time.tb0, quarCount := satAdd 0xFFFF f.quarCount 1 })
    flockEvent k 4 s.tb3 ((s.notice k 8 0 (recentViols s k).length).raise Reg.FHP_INT_STATUS 3)

/-- FLOCK_QUARANTINE_ON (R281). -/
def execFlockQuarantineOn (k : Fin 8) (s : State) : Host.Outcome State Fault Refusal := .next (quarantineOn k s)

/-- FLOCK_QUARANTINE_OFF: 1,000 ms of TB1 have passed without a violation (R282). -/
def quarantineOff (k : Nat) (s : State) : State :=
  let x := vget s.fhp.flocks k
  if ¬ x.quar ∨ x.viols.any (fun t => decide (s.time.tb1 < t + secTu)) then s
  else
    let s := s.modFlock k (fun f => { f with quar := false, quarNext := false, quarAt := s.time.tb0 })
    (s.notice k 9 0 (recentViols s k).length).raise Reg.FHP_INT_STATUS 4

/-- FLOCK_QUARANTINE_OFF (R282). -/
def execFlockQuarantineOff (k : Fin 8) (s : State) : Host.Outcome State Fault Refusal := .next (quarantineOff k s)

/-- What flocks are sent leaves through the ports that are up. -/
def flushTick (s : State) : State := forAll (List.range 8) flushFlock s

/-- At stage 3 entry the arbiters' pointers and the quarantine counts start anew (R28, R283). -/
def fhpStage3 (s : State) : State :=
  s.modFhp (fun f => { f with ptrs := [], flocks := vall f.flocks (fun _ x => { x with quarCount := 0 }) })

/-! ### Registers computed from the state (R283) -/

/-- FHP_FLOCK_STATUS. -/
def fhpFlockStatus (s : State) (k : Nat) : Word :=
  let x := vget s.fhp.flocks k
  pk [(31, b2n (s.flockCfg k).isSome), (30, b2n x.quar), (29, b2n x.capsDone),
      (24, min 15 (s.fhp.tie.filter (fun r => r.2.k == k)).length), (20, x.deferred.length), (8, x.out.length), (0, x.formats)]

/-- FHP_FLOCK_DL and FHP_FLOCK_UL: the slots served to the flock. -/
def fhpFlockSlots (s : State) (ul : Bool) (k : Nat) : Word := BitVec.ofNat 32 (bitsOf 32 (fun l => s.holder ul l == some k))

/-- FHP_FLOCK_VIOL. -/
def fhpFlockViol (s : State) (k : Nat) : Word :=
  pk [(16, (vget s.fhp.flocks k).quarCount), (0, min 0xFFFF (recentViols s k).length)]

end Sys2Proof.Machine
end

