-- ==== Sys2Proof/Machine/Tim.lean ====
section
/-!
DEFINITION. Time: the states of TB0 and its step (R286…R292), PTP messages and peers (R293…R300, R483), cable lengths (R302),
snapshots and TB3 (R285, R305), the timing pins (R306), and the registers of the TIM block (R307).
-/

namespace Sys2Proof.Machine

/-! ### The states of TB0 (R286, R290) -/

/-- A change that can end the lock of TB0: if it does, at stage 4 running TX bursts are cut (R290). -/
def watchLock (f : State → State) (s : State) : State :=
  let t := f s
  if s.locked ∧ ¬ t.locked then timeLost t else t

/-- The sum of the durations and the weighted sum of the rates of the newest `left` time units. -/
def rateSums : Nat → List (Nat × Int) → Nat × Int
  | _, [] => (0, 0)
  | left, (d, r) :: l =>
    let w := min d left
    let (n, x) := rateSums (left - w) l
    (n + w, x + r * (w : Nat))

/-- The rate correction's mean over the last 64 s in LOCKED (R286). -/
def meanRate (t : Tim) : Int :=
  let (n, x) := rateSums (64 * secTu) t.rates
  if n = 0 then t.rate else divEven x n

/-- Close the present duration of the rate correction in LOCKED. -/
def closeRate (now : Nat) (t : Tim) : Tim := { t with rates := ((now - t.rateSince, t.rate) :: t.rates).take 2048, rateSince := now }

/-- HOLD_S seconds. -/
def holdS (s : State) : Nat := s.fld Reg.TIM_HOLD_CFG 31 16

/-- TB0 enters a state (Table 11-2): HOLDOVER with HOLD_S = 0 passes at once to FREERUN. -/
def goTime (new : Tb0State) (s : State) : State :=
  let old := s.tim.state
  if new = old then s
  else watchLock (fun s =>
    let s := s.modTim (fun t =>
      let t := { t with inLock := 0, outUnlock := 0, beyond := 0 }
      let t := if old = .locked then closeRate s.time.tb1 t else t
      match new with
      | .locked => { t with state := .locked, rateSince := s.time.tb1, slave := t.parent.isSome }
      | .holdover => { t with rate := meanRate t, state := if holdS s = 0 then .freerun else .holdover }
      | _ => { t with state := new })
    let s := if old = .locked then s.raise Reg.TIM_INT_STATUS 1 else s
    match new with
    | .locked => s.raise Reg.TIM_INT_STATUS 0
    | .holdover => if holdS s = 0 then s.raise Reg.TIM_INT_STATUS 2 else s
    | .freerun => if old = .holdover then s.raise Reg.TIM_INT_STATUS 2 else s
    | .timeErr => s.raise Reg.TIM_INT_STATUS 4
    | _ => s) s

/-- A step that a bellwether has announced is not made: the acquisition that it ends is over (R291, R292, R318). -/
def dropStep (s : State) : State := s.modCas (fun c => { c with stepAt := none })

/-- A new acquisition begins: it permits one step (R286, R291, R292). -/
def acquire (s : State) : State :=
  (goTime .acquiring (dropStep s)).modTim (fun t => { t with
    offsets := [], stepDone := false, inLock := 0, outUnlock := 0, beyond := 0, chgBeyond := 0, guard := false, sync := none
    slave := false, acqCount := satAdd 255 t.acqCount 1 })

/-- TB0 at stage 2 entry and at Doze exit; a member's TB0 is its TB2 (R286, R292, R304). -/
def timStart (s : State) : State := if s.isMember then s else if s.tim.state = .unset then acquire s else s

/-- TB0 at Doze entry (R292). -/
def timDoze (s : State) : State := if s.isMember then s else goTime .unset (dropStep s)

/-! ### The step (R288, R318) -/

/-- The median of 8 offsets: the mean of the 4th and 5th smallest, rounded to 2^−16 ns, ties to even (R288). -/
def medianOf8 (l : List Int) : Int :=
  let o := sortBy (fun a b => decide (a ≤ b)) l
  3 * divEven (o.getD 3 0 + o.getD 4 0) 6

/-- A request after a step of TB0: an aim is read on the new TB0 under R168, an immediate one keeps its instant. -/
def stepSwap (s : State) (ul : Bool) (d : Int) (r : SwapReq) : SwapReq :=
  match r.aim with
  | none => { r with aimAt := r.aimAt + d, start := r.start + d }
  | some a =>
    let p := planStart s ul a
    { r with aimAt := p.1, start := p.2 }

/-- Plies and requests of the banked sets after a step by `d`. -/
def stepSwaps (d : Int) (s : State) : State :=
  let ply := fun (y : PlyRun) => { y with start := y.start + d }
  let slot := fun (ul : Bool) (x : Slot) => { x with ply := x.ply.map ply, pend := x.pend.map (stepSwap s ul d) }
  let s' := s.modSkn (fun k => { k with
    slotsDl := vall k.slotsDl (fun _ => slot false), slotsUl := vall k.slotsUl (fun _ => slot true) })
  s'.modDpd (fun k => { k with paths := vall k.paths (fun _ x => { x with
    ply := x.ply.map ply
    pend := x.pend.map (fun r => { r with aimAt := r.aimAt + d, start := r.start + d, aim := r.aim.map (· + d) }) }) })

/-- What the groups note of TB0 keeps its instants in a step by `d`. -/
def stepGroups (d : Int) (s : State) : State :=
  let at_ := fun (t : Nat) => ((t : Int) + d).toNat
  s.modRad (fun r => { r with groups := vall r.groups (fun _ x => { x with
    transAt := at_ x.transAt, readyAt := at_ x.readyAt, txEnd := x.txEnd.map at_, rxEnd := x.rxEnd.map at_
    calEnd := x.calEnd.map at_, rxSince := x.rxSince.map at_, rxSpans := x.rxSpans.map (fun y => (at_ y.1, at_ y.2)) }) })

/-- TB0, and TB3 while it is coupled, move by `d`: the epoch in progress ends, and epochs follow TB0 from now on (R26, R288, R305). -/
def stepTime (d : Int) (s : State) : State :=
  let from_ := s.time.tb0
  let s := stepGroups d (epochEndAt s.base s)
  let s := s.modTime (fun t => { t with
    tb0 := ((t.tb0 : Int) + d).toNat, stepped := true, tb3off := if t.tb3coupled then 0 else t.tb3off - d })
  let s := markStep (fun st => s.time.tb3coupled || aimPassed from_ s st) s
  stepSwaps d s

/-- The acquisition's step by the median of its offsets: at once, or on a bellwether of members at an epoch boundary (R288, R318). -/
def takeStep (s : State) : State :=
  let d := -(medianOf8 s.tim.offsets)
  if isBellwether s then
    let at_ := boundaryFrom epochTu (s.time.tb0 + msTu)
    s.modCas (fun c => { c with stepAt := some (at_, ((at_ : Int) + d).toNat) })
  else
    (stepTime d (s.modTim (fun t => { t with stepDone := true, offsets := [] }))).raise Reg.TIM_INT_STATUS 3

/-! ### The servo (R286, R287, R289, R295) -/

/-- The limit of a rate correction, 200 ppm in units of 2^−48. -/
def rateMax : Int := 56294995342

/-- Correct TB0 by rate (R289): the law is open, its limit is not. -/
def correctRate (o : Int) (s : State) : State :=
  let (n, s) := s.draw
  let r := clampI (-rateMax) rateMax (Config.servoRate n o)
  s.modTim (fun t => { (if t.state = .locked then closeRate s.time.tb1 t else t) with rate := r })

/-- STEP_NS, LOCK_WIN and UNLOCK_WIN in time units. -/
def stepWin (s : State) : Int := (s.fld Reg.TIM_HOLD_CFG 15 0 * nsTu : Nat)
def lockWin (s : State) : Int := (s.fld Reg.TIM_LOCK_CFG 7 0 * nsTu : Nat)
def unlockWin (s : State) : Int := (s.fld Reg.TIM_LOCK_CFG 15 8 * 4 * nsTu : Nat)

/-- An offset lies beyond a window. -/
def beyondWin (w o : Int) : Bool := decide (o < -w) || decide (w < o)

/-- An offset beyond STEP_NS that R295 guards: neither a violation nor a correction. -/
def guardedOffset (s : State) : State :=
  let s := s.modTim (fun t => { t with inLock := 0, chgBeyond := t.chgBeyond + 1, outUnlock := t.outUnlock + 1 })
  let s := if s.tim.state = .locked ∧ s.tim.outUnlock ≥ s.fld Reg.TIM_LOCK_CFG 23 16 then goTime .holdover s else s
  if s.tim.chgBeyond ≥ 32 then goTime .timeErr s else s

/-- An offset that is applied, and what it counts toward (Table 11-2). -/
def appliedOffset (o : Int) (s : State) : State :=
  let s := correctRate o s
  if s.tim.state = .locked then
    let s := s.modTim (fun t => { t with outUnlock := if beyondWin (unlockWin s) o then t.outUnlock + 1 else 0 })
    if s.tim.outUnlock ≥ s.fld Reg.TIM_LOCK_CFG 23 16 then goTime .holdover s else s
  else
    let s := s.modTim (fun t => { t with inLock := if beyondWin (lockWin s) o then 0 else t.inLock + 1 })
    if s.tim.inLock ≥ s.fld Reg.TIM_LOCK_CFG 31 24 then goTime .locked s else s

/-- One offset of the parent, after the step; `jump` is what a TIME_JUMP does (R287). -/
def servoAfter (jump : State → State) (o : Int) (s : State) : State :=
  let big := beyondWin (stepWin s) o
  if s.tim.guard ∧ big then guardedOffset s
  else
    let s := s.modTim (fun t => { t with guard := false })
    if s.tim.state = .locked ∧ big then jump s
    else if big then
      let s := s.modTim (fun t => { t with inLock := 0, beyond := t.beyond + 1 })
      if s.tim.beyond ≥ 32 then goTime .timeErr s else s
    else
      let s := s.modTim (fun t => { t with beyond := 0 })
      if (s.tim.state = .holdover ∨ s.tim.state = .freerun) ∧ beyondWin (unlockWin s) o then
        s.modTim (fun t => { t with inLock := 0 })
      else appliedOffset o s

/-- One offset of the parent (R287, R288). -/
def servo (jump : State → State) (o : Int) (s : State) : State :=
  if s.tim.state = .unset ∨ s.tim.state = .timeErr then s
  else if s.tim.state = .acquiring ∧ ¬ s.tim.stepDone then
    if s.cas.stepAt.isSome ∧ isBellwether s then s
    else
      let s := s.modTim (fun t => { t with offsets := t.offsets ++ [o] })
      if s.tim.offsets.length ≥ 8 then takeStep s else s
  else servoAfter jump o s

/-! ### Peers and the parent (R293, R295, R298) -/

/-- The peers of a port. -/
def peersOf (s : State) (q : Nat) : List Peer := (vget s.tim.ports q).peers

/-- Change a port. -/
def modPtp (q : Nat) (f : PtpPort → PtpPort) (s : State) : State := s.modTim (fun t => { t with ports := vmod t.ports q f })

/-- A peer of a port by its identity. -/
def findPeer (s : State) (q id num : Nat) : Option Peer := (peersOf s q).find? (fun x => x.id == id && x.portNum == num)

/-- Change a peer, which enters the port's list with its first message. -/
def modPeer (q id num : Nat) (f : Peer → Peer) (s : State) : State :=
  modPtp q (fun p =>
    if p.peers.any (fun x => x.id == id && x.portNum == num) then
      { p with peers := p.peers.map (fun x => if x.id == id && x.portNum == num then f x else x) }
    else { p with peers := p.peers ++ [f { id := id, portNum := num }] }) s

/-- A PTP port is enabled (R293). -/
def ptpEnabled (s : State) (q : Nat) : Bool := s.bit Reg.TIM_PTP_CFG q && decide (s.pwr.stage ≥ 2) && !s.isMember

/-- A PTP port hears and speaks: it is enabled and not FAULTY. -/
def ptpHears (s : State) (q : Nat) : Bool := decide (q < 2) && ptpEnabled s q && portUp s q

/-- The peer is the parent. -/
def isParent (s : State) (q id num : Nat) : Bool := s.tim.parent == some (q, id, num)

/-- The peer is a qualified foreign master: 2 Announces within 4 intervals of 125 ms (R295). -/
def qualifiedPeer (s : State) (x : Peer) : Bool :=
  !x.quar && decide (2 ≤ (x.annTimes.filter (fun t => decide (s.time.tb1 < t + 500 * msTu))).length)

/-- The keys by which the alternate BMCA of G.8275.1 compares a master on a port. -/
def bmcaKey (s : State) (q : Nat) (x : Peer) : List Nat :=
  [x.ann.clockClass, x.ann.accuracy, x.ann.variance, x.ann.prio2, s.fld (Reg.TIM_PORT_CFG q) 7 0,
   if x.ann.clockClass > 127 then x.ann.gm else 0, x.ann.steps, x.id, x.portNum, q]

/-- The best qualified master of the ports that hear. -/
def bestMaster (s : State) : Option (Nat × Peer) :=
  ((List.range 2).flatMap (fun q => if ptpHears s q then ((peersOf s q).filter (qualifiedPeer s)).map (fun x => (q, x)) else [])).foldl
    (fun m x => match m with
      | none => some x
      | some y => if lexLe (bmcaKey s y.1 y.2) (bmcaKey s x.1 x.2) then m else some x) none

/-- The cable lengths of ports without a parent are not valid (R302). -/
def lengthsOff (s : State) : State :=
  forAll (List.range 2) (fun q s => match s.tim.parent with
    | some (p, _, _) => if p = q then s else s.setFld (Reg.TIM_FH_LEN q) 31 31 0
    | none => s.setFld (Reg.TIM_FH_LEN q) 31 31 0) s

/-- The BMCA runs; a new parent is followed under R295, and its exchanges count anew before the step. The parent is kept while TB0 is
UNSET (R292). -/
def bmca (s : State) : State :=
  if s.tim.state = .unset then s
  else
    let best := (bestMaster s).map (fun x => (x.1, x.2.id, x.2.portNum))
    if best = s.tim.parent then s
    else
      let s := (s.modTim (fun t => { t with
        parent := best, sync := none, slave := t.state == .locked && best.isSome
        offsets := if t.stepDone then t.offsets else []
        guard := t.stepDone && best.isSome, chgBeyond := 0 })).raise Reg.TIM_INT_STATUS 5
      let s := if best.isNone ∧ s.tim.state = .locked then goTime .holdover s else s
      lengthsOff s

/-- A peer is quarantined (R298): TB0 leaves LOCKED when it was the parent. -/
def quarantinePeer (q id num : Nat) (s : State) : State :=
  let s := (modPeer q id num (fun x => { x with quar := true }) s).raise Reg.TIM_INT_STATUS 7
  bmca (if isParent s q id num ∧ s.tim.state = .locked then goTime .holdover s else s)

/-- A violation of a peer (R296, Table 11-3): TIME_JUMP and a count of TIM_PTP_QUAR within a second quarantine it. -/
def ptpViol (q id num cls : Nat) (s : State) : State :=
  let s := (s.viol 2 q cls 0).addLo (Reg.TIM_PTP_VIOL q) 1
  let old := match findPeer s q id num with
    | some x => x
    | none => { id := id, portNum := num }
  let recent := old.viols.filter (fun t => decide (s.time.tb1 < t + secTu)) ++ [s.time.tb1]
  let s := modPeer q id num (fun x => { x with viols := recent }) s
  if old.quar then s
  else if cls = 6 then quarantinePeer q id num s
  else if recent.length ≥ max 1 (s.fld Reg.TIM_PTP_QUAR 15 0) then quarantinePeer q id num (s.viol 2 q 7 0)
  else s

/-- A message at its rate limit is discarded: one violation for each second of TB1 (R483). -/
def ptpPolice (q id num : Nat) (x : Peer) (s : State) : State :=
  if x.rateSec = some (secOf s.time.tb1) then s
  else ptpViol q id num 5 (modPeer q id num (fun y => { y with rateSec := some (secOf s.time.tb1) }) s)

/-- The times of a list within the last 1,000 ms of TB1, in bins of 1 ms (R483). -/
def lastSecond (s : State) (l : List Nat) : List Nat := l.filter (fun t => decide (s.time.tb1 / msTu < t / msTu + 1000))

/-! ### PTP messages (IEEE 1588-2019) -/

/-- The fields of a message's header. -/
def ptpType (m : List Byte) : Nat := byteAt m 0 % 16
def ptpSource (m : List Byte) : Nat := be m 20 8
def ptpPortNum (m : List Byte) : Nat := be m 28 2
def ptpSeq (m : List Byte) : Nat := be m 30 2
def ptpTwoStep (m : List Byte) : Bool := nbit (byteAt m 6) 1

/-- correctionField in time units. -/
def ptpCorr (m : List Byte) : Int := 3 * toS 64 (be m 8 8)

/-- The timestamp of a message body, in time units. -/
def ptpStamp (m : List Byte) : Int := (timeOf (be m 34 6) (be m 40 4) : Nat)

/-- The length of a message of a type that a port takes; 0 for the others. -/
def ptpLength (type : Nat) : Nat :=
  match type with
  | 0x0 | 0x8 => 44
  | 0x9 => 54
  | 0xB => 64
  | _ => 0

/-- A message is MALFORMED (Table 11-3). -/
def ptpMalformed (m : List Byte) : Bool :=
  byteAt m 1 % 16 != 2 || decide (byteAt m 1 / 16 > 1) || decide (be m 2 2 > m.length) || decide (be m 2 2 < ptpLength (ptpType m)) ||
    (decide (m.length > 46) && be m 2 2 != m.length) || decide (be m 40 4 ≥ 1000000000)

/-- The device's clockIdentity: the EUI-64 of the address of FH0. -/
def ownIdentity (s : State) : Nat :=
  let a := portMac s 0
  a / 2 ^ 24 * 2 ^ 40 + 0xFFFE * 2 ^ 24 + a % 2 ^ 24

/-- An Announce (R295): policed, entered, and the BMCA runs. -/
def announceRx (q : Nat) (m : List Byte) (s : State) : State :=
  let id := ptpSource m
  let num := ptpPortNum m
  match findPeer s q id num with
  | none => s
  | some x =>
    if (lastSecond s x.annTimes).length ≥ 32 then ptpPolice q id num x s
    else
      let a : AnnounceData := {
        prio1 := byteAt m 47, clockClass := byteAt m 48, accuracy := byteAt m 49, variance := be m 50 2, prio2 := byteAt m 52
        gm := be m 53 8, steps := be m 61 2 }
      let s := s.modTim (fun t => { t with ports := vmod t.ports q (fun p => { p with listening := false }) })
      bmca (modPeer q id num (fun y => { y with ann := a, annTimes := lastSecond s y.annTimes ++ [s.time.tb1] }) s)

/-- The parent's Sync time is known: the exchange takes it with the next Delay_Resp (R300). -/
def syncReady (q id num : Nat) (t1 t2 : Int) (s : State) : State :=
  if isParent s q id num then s.modTim (fun t => { t with sync := some (t1, t2) }) else s

/-- A Sync received at TB0 time `t2` (R293, R296, R483). -/
def syncRx (q : Nat) (t2 : Int) (m : List Byte) (s : State) : State :=
  let id := ptpSource m
  let num := ptpPortNum m
  let n := ptpSeq m
  match findPeer s q id num with
  | none => s
  | some x =>
    if (lastSecond s x.syncs).length ≥ 64 then
      ptpPolice q id num x (modPeer q id num (fun y => { y with syncSeq := some n, dropFollow := some n }) s)
    else
      let s := s.addHi (Reg.TIM_PTP_COUNT q) 1
      let s := modPeer q id num (fun y => { y with syncSeq := some n }) s
      if x.syncSeq.any (fun l => decide ((l + 1) % 65536 ≠ n)) then ptpViol q id num 4 s
      else
        let s := modPeer q id num (fun y => { y with syncs := lastSecond s y.syncs ++ [s.time.tb1] }) s
        if ptpTwoStep m then modPeer q id num (fun y => { y with waitFollow := some (n, ptpCorr m, t2) }) s
        else syncReady q id num (ptpStamp m + ptpCorr m) t2 (modPeer q id num (fun y => { y with waitFollow := none }) s)

/-- A Follow_Up (R293, R296). -/
def followUpRx (q : Nat) (m : List Byte) (s : State) : State :=
  let id := ptpSource m
  let num := ptpPortNum m
  match findPeer s q id num with
  | none => s
  | some x =>
    match x.waitFollow with
    | some (n, corr, t2) =>
      if n = ptpSeq m then
        syncReady q id num (ptpStamp m + ptpCorr m + corr) t2 (modPeer q id num (fun y => { y with waitFollow := none }) s)
      else if x.dropFollow = some (ptpSeq m) then s
      else ptpViol q id num 4 s
    | none => if x.dropFollow = some (ptpSeq m) then s else ptpViol q id num 4 s

/-- A time in ps, in 32 bits of two's complement, saturated. -/
def psWord (x : Int) : Word := BitVec.ofNat 32 (ofS 32 (satS 32 (divEven (x * 1000) nsTu)))

/-- A signed value in ps as a time. -/
def psTime (w : Word) : Int := divEven (toS 32 w.toNat * (nsTu : Nat)) 1000

/-- The cable length of a mean path delay on a port (R302). -/
def setLength (q : Nat) (d : Int) (s : State) : State :=
  let n := s.fld Reg.TIM_FIBRE_N 19 0
  let x := d - (s.fld (Reg.TIM_FH_FIXED q) 19 0 * nsTu : Nat)
  if x < 0 ∨ n = 0 then s.setFld (Reg.TIM_FH_LEN q) 31 31 0
  else s.setReg (Reg.TIM_FH_LEN q)
    (pk [(31, 1), (0, min 0xFFFFFF (divNear (x.toNat * 299792458 * 10 * 65536) (nsTu * 1000000000 * n)))])

/-- An exchange is complete (R300, R302): its offset goes to the servo. -/
def exchange (q id num : Nat) (t1 t2 t3 t4 : Int) (s : State) : State :=
  let d := divEven ((t2 - t1) + (t4 - t3)) 2
  let o := (t2 - t1) - (d + psTime (s.reg (Reg.TIM_ASYM q)))
  let mpd := divEven (d * 1000) nsTu
  let s := s.setReg Reg.TIM_OFFSET (psWord o)
  let s := s.setReg Reg.TIM_MPD (BitVec.ofNat 32 (clampI 0 0xFFFFFFFF mpd).toNat)
  servo (ptpViol q id num 6) o (setLength q d (s.modTim (fun t => { t with sync := none })))

/-- A Delay_Resp (R297, R300). One that names another port's identity is not the device's. -/
def delayRespRx (q : Nat) (m : List Byte) (s : State) : State :=
  let id := ptpSource m
  let num := ptpPortNum m
  if be m 44 8 ≠ ownIdentity s ∨ be m 52 2 ≠ q + 1 then s
  else
    match (vget s.tim.ports q).req with
    | some (n, t3) =>
      if n ≠ ptpSeq m then ptpViol q id num 4 s
      else if ¬ isParent s q id num then s
      else
        let s := modPtp q (fun p => { p with req := none }) s
        match s.tim.sync with
        | some (t1, t2) => exchange q id num t1 t2 t3 (ptpStamp m - ptpCorr m) s
        | none => s
    | none => ptpViol q id num 4 s

/-- A PTP message received on a port, `fine` sixteenths of a tick into the present one (R293, R294, R296, R299). Messages of kinds a
port does not take are discarded. -/
def ptpRx (q : Nat) (fine : Fin 16) (m : List Byte) (s : State) : State :=
  let type := ptpType m
  if ¬ ptpHears s q ∨ ptpLength type = 0 then s
  else
    let id := ptpSource m
    let num := ptpPortNum m
    let t2 : Int := (s.time.tb0 + fine.val * (tickTu / 16) : Nat)
    if m.length < 34 then (s.viol 2 q 1 0).addLo (Reg.TIM_PTP_VIOL q) 1
    else if ptpMalformed m then ptpViol q id num 1 s
    else if byteAt m 4 ≠ s.fld Reg.TIM_PTP_CFG 31 24 then ptpViol q id num 2 s
    else
      let s := modPeer q id num (fun x => x) s
      match type with
      | 0x0 => syncRx q t2 m s
      | 0x8 => followUpRx q m s
      | 0x9 => delayRespRx q m s
      | _ => announceRx q m s

/-- A row that is about a message of one type. -/
def ptpRow (type q : Nat) (fine : Fin 16) (m : List Byte) (s : State) : Host.Outcome State Fault Refusal :=
  .next (if ptpType m = type then ptpRx q fine m s else s)

/-- PTP_ANNOUNCE_RX (R295). -/
def execPtpAnnounceRx (q : Fin 2) (m : List Byte) (s : State) : Host.Outcome State Fault Refusal := ptpRow 0xB q 0 m s

/-- PTP_SYNC_RX (R293). -/
def execPtpSyncRx (q : Fin 2) (fine : Fin 16) (m : List Byte) (s : State) : Host.Outcome State Fault Refusal := ptpRow 0x0 q fine m s

/-- PTP_FOLLOW_UP_RX (R293). -/
def execPtpFollowUpRx (q : Fin 2) (m : List Byte) (s : State) : Host.Outcome State Fault Refusal := ptpRow 0x8 q 0 m s

/-- DELAY_RESP_RX (R300). -/
def execDelayRespRx (q : Fin 2) (m : List Byte) (s : State) : Host.Outcome State Fault Refusal := ptpRow 0x9 q 0 m s

/-- The multicast address of a PTP port (R293). -/
def ptpAddress (s : State) (q : Nat) : Nat := if s.bit Reg.TIM_PTP_CFG (4 + q) then 0x0180C200000E else 0x011B19000000

/-- A Delay_Req message. -/
def delayReqMsg (s : State) (q seq : Nat) : List Byte :=
  beBytes 1 0x01 ++ beBytes 1 0x12 ++ beBytes 2 44 ++ beBytes 1 (s.fld Reg.TIM_PTP_CFG 31 24) ++ beBytes 1 0 ++ beBytes 2 0 ++
    List.replicate 12 0 ++ beBytes 8 (ownIdentity s) ++ beBytes 2 (q + 1) ++ beBytes 2 seq ++ beBytes 1 1 ++ beBytes 1 0x7F ++
    List.replicate 10 0

/-- Delay_Req is sent on the parent's port; its timestamp enters the TX queue and is kept for its answer (R293, R301). -/
def delayReqSend (q : Nat) (fine : Fin 16) (s : State) : State :=
  if ¬ ptpHears s q ∨ ¬ s.tim.parent.any (fun p => p.1 == q) then s
  else
    let n := (vget s.tim.ports q).reqSeq
    let at_ := s.time.tb0 + fine.val * (tickTu / 16)
    let s := modPtp q (fun p => { p with reqSeq := (n + 1) % 65536, req := some (n, ((at_ : Nat) : Int)) }) s
    let b := beBytes 6 (ptpAddress s q) ++ beBytes 6 (portMac s q) ++ beBytes 2 0x88F7 ++ delayReqMsg s q n
    txtsPush q 0 n at_ (wireOut q (b ++ List.replicate (60 - b.length) 0) (s.addLo (Reg.TIM_PTP_COUNT q) 1))

/-- DELAY_REQ_SEND (R293). -/
def execDelayReqSend (q : Fin 2) (fine : Fin 16) (s : State) : Host.Outcome State Fault Refusal := .next (delayReqSend q fine s)

/-! ### Timeouts (R286, R296, R298) -/

/-- SYNC_TIMEOUT (R286). -/
def execSyncTimeout (s : State) : Host.Outcome State Fault Refusal :=
  .next (if s.tim.state = .locked ∧ ¬ s.isMember then goTime .holdover s else s)

/-- No Announce from the parent for 375 ms: TB0 leaves LOCKED, and the parent is no candidate until it announces itself again. -/
def announceTimeout (s : State) : State :=
  match s.tim.parent with
  | none => s
  | some (q, id, num) =>
    if s.isMember ∨ s.tim.state = .unset then s
    else
      let s := if s.tim.state = .locked then goTime .holdover s else s
      bmca (modPeer q id num (fun x => { x with annTimes := [] }) s)

/-- ANNOUNCE_TIMEOUT (R286). -/
def execAnnounceTimeout (s : State) : Host.Outcome State Fault Refusal := .next (announceTimeout s)

/-- HOLD_S_EXPIRY (R286). -/
def execHoldSExpiry (s : State) : Host.Outcome State Fault Refusal :=
  .next (if s.tim.state = .holdover then goTime .freerun s else s)

/-- A two-step Sync of a peer has no Follow_Up within one interval (R296). -/
def followUpTimeout (q id num : Nat) (s : State) : State :=
  match findPeer s q id num with
  | some x =>
    match x.waitFollow with
    | some (n, _, _) => ptpViol q id num 3 (modPeer q id num (fun y => { y with waitFollow := none, dropFollow := some n }) s)
    | none => s
  | none => s

/-- FOLLOW_UP_TIMEOUT (R296). -/
def execFollowUpTimeout (q : Fin 2) (id : BitVec 64) (num : BitVec 16) (s : State) : Host.Outcome State Fault Refusal :=
  .next (followUpTimeout q id.toNat num.toNat s)

/-- A quarantined peer has gone 10 s without a violation: it competes again (R298). -/
def peerRelease (q id num : Nat) (s : State) : State :=
  match findPeer s q id num with
  | some x =>
    if ¬ x.quar ∨ x.viols.any (fun t => decide (s.time.tb1 < t + 10 * secTu)) then s
    else bmca (modPeer q id num (fun y => { y with quar := false }) s)
  | none => s

/-- PEER_QUAR_RELEASE (R298). -/
def execPeerQuarRelease (q : Fin 2) (id : BitVec 64) (num : BitVec 16) (s : State) : Host.Outcome State Fault Refusal :=
  .next (peerRelease q id.toNat num.toNat s)

/-! ### Host actions (R285, R291, R301, R305) -/

/-- REARM (R291). -/
def rearm (s : State) : State :=
  if s.pwr.stage < 2 ∨ s.isMember then s.refusedWrite Reg.TIM_CTRL
  else acquire (allBurstsOut 0x24 (fun b => !b.started || b.tx) s)

/-- Store a base in its snapshot registers. -/
def snapBase (b t : Nat) (s : State) : State :=
  let s := s.setReg (Reg.TIM_SNAP_S_HI b) (BitVec.ofNat 32 (secOf t / 2 ^ 32 % 65536))
  let s := s.setReg (Reg.TIM_SNAP_S_LO b) (BitVec.ofNat 32 (secOf t))
  let s := s.setReg (Reg.TIM_SNAP_NS b) (BitVec.ofNat 32 (nsOf t))
  s.setReg (Reg.TIM_SNAP_FRAC b) (BitVec.ofNat 32 (fracOf t))

/-- SNAPSHOT (R285). -/
def snapshot (s : State) : State := snapBase 3 s.tb3 (snapBase 2 s.time.tb0 (snapBase 1 s.time.tb1 (snapBase 0 s.time.tb0 s)))

/-- TB3_DECOUPLE (R305). -/
def tb3Decouple (s : State) : State :=
  if s.time.tb3coupled then s.modTime (fun t => { t with tb3coupled := false, tb3off := 0 }) else s

/-- TB3_RECOUPLE (R305). -/
def tb3Recouple (s : State) : State :=
  (markTb3Step (s.modTime (fun t => { t with tb3coupled := true, tb3off := 0 }))).raise Reg.TIM_INT_STATUS 9

/-- TIM_CTRL (R307): a write that sets both TB3 bits leaves TB3 alone. -/
def timCtrlWrite (w : Word) (s : State) : State :=
  let s := whenB (bitOf w 0) rearm s
  let s := whenB (bitOf w 1) snapshot s
  let s := whenB (bitOf w 2 && !bitOf w 3) tb3Decouple s
  whenB (bitOf w 3 && !bitOf w 2) tb3Recouple s

/-- REARM (R291). -/
def execRearm (s : State) : Host.Outcome State Fault Refusal := .next (s.hosted Reg.TIM_CTRL rearm)

/-- SNAPSHOT (R285). -/
def execSnapshot (s : State) : Host.Outcome State Fault Refusal := .next (s.hosted Reg.TIM_CTRL snapshot)

/-- TB3_DECOUPLE (R305). -/
def execTb3Decouple (s : State) : Host.Outcome State Fault Refusal := .next (s.hosted Reg.TIM_CTRL tb3Decouple)

/-- TB3_RECOUPLE (R305). -/
def execTb3Recouple (s : State) : Host.Outcome State Fault Refusal := .next (s.hosted Reg.TIM_CTRL tb3Recouple)

/-- POP of a TX timestamp queue. -/
def txtsPop (q : Nat) (s : State) : State := modPtp q (fun p => { p with txts := p.txts.drop 1 }) s

/-- CLEAR_OVF of a TX timestamp queue. -/
def txtsClear (q : Nat) (s : State) : State := modPtp q (fun p => { p with ovf := false }) s

/-- TIM_TXTS_POP. -/
def txtsPopWrite (q : Nat) (w : Word) (s : State) : State := whenB (bitOf w 0) (txtsPop q) (whenB (bitOf w 1) (txtsClear q) s)

/-- TXTS_POP (R301). -/
def execTxtsPop (q : Fin 2) (s : State) : Host.Outcome State Fault Refusal := .next (s.hosted (Reg.TIM_TXTS_POP q) (txtsPop q))

/-- CLEAR_OVF (R301). -/
def execClearOvf (q : Fin 2) (s : State) : Host.Outcome State Fault Refusal := .next (s.hosted (Reg.TIM_TXTS_POP q) (txtsClear q))

/-- TIM_ASYM: a change on the parent's port is followed as a new parent is (R289, R295). -/
def timAsymWrite (q : Nat) (w : Word) (s : State) : State :=
  let change : Bool := s.reg (Reg.TIM_ASYM q) != w && s.tim.stepDone && s.tim.parent.any (fun p => p.1 == q)
  let s := s.setReg (Reg.TIM_ASYM q) w
  if change then s.modTim (fun t => { t with guard := true, chgBeyond := 0 }) else s

/-- TIM_PTP_CFG: a domain outside 24…43 is stored as 24. -/
def timPtpCfgWrite (w : Word) (s : State) : State :=
  let d := fld w 31 24
  bmca (s.setReg Reg.TIM_PTP_CFG (put (w &&& 0xFF000033) 31 24 (if d < 24 ∨ d > 43 then 24 else d)))

/-! ### The timing pins (R306) -/

/-- PPS_IN_EDGE (R306): the signed offset from the nearest whole second saturates at 32 bits of ps. -/
def ppsInEdge (fine : Fin 16) (s : State) : State :=
  if s.pwr.stage < 1 then s
  else
    let t := s.time.tb0 + fine.val * (tickTu / 16)
    let near := (2 * t + secTu) / (2 * secTu) * secTu
    let s := s.setReg Reg.TIM_PPS_IN_S (BitVec.ofNat 32 (secOf t))
    let s := s.setReg Reg.TIM_PPS_IN_NS (BitVec.ofNat 32 (nsOf t))
    (s.setReg Reg.TIM_PPS_IN_ERR (psWord ((t : Int) - near))).raise Reg.TIM_INT_STATUS 8

/-- PPS_IN_EDGE (R306). -/
def execPpsInEdge (fine : Fin 16) (s : State) : Host.Outcome State Fault Refusal := .next (ppsInEdge fine s)

/-- PPS_OUT rises at a whole second of TB0 (R306). -/
def execPpsOut (s : State) : Host.Outcome State Fault Refusal :=
  .next (if s.bit Reg.TIM_PPS_CFG 31 ∧ s.locked then
    s.modTim (fun t => { t with ppsUntil := some (s.time.tb0 + s.fld Reg.TIM_PPS_CFG 15 0 * usTu) }) else s)

/-- TICK_OUT rises at a boundary that TICK_DIV selects (R306). -/
def execTickOut (s : State) : Host.Outcome State Fault Refusal :=
  .next (if s.bit Reg.TIM_PPS_CFG 30 ∧ s.locked then s.modTim (fun t => { t with tickUntil := some (s.time.tb0 + usTu) }) else s)

/-- The level at PPS_OUT. -/
def ppsOut (s : State) : Bool := s.bit Reg.TIM_PPS_CFG 31 && s.locked && s.tim.ppsUntil.any (fun t => decide (s.time.tb0 < t))

/-- The level at TICK_OUT. -/
def tickOut (s : State) : Bool := s.bit Reg.TIM_PPS_CFG 30 && s.locked && s.tim.tickUntil.any (fun t => decide (s.time.tb0 < t))

/-! ### Registers computed from the state (R307) -/

/-- The code of a state of TB0. -/
def tb0Code : Tb0State → Nat
  | .unset => 0
  | .acquiring => 1
  | .locked => 2
  | .holdover => 3
  | .freerun => 4
  | .timeErr => 5

/-- TIM_STATUS. -/
def timStatus (s : State) : Word :=
  let parent := if s.isMember then 2 else match s.tim.parent with
    | some p => p.1
    | none => 3
  pk [(29, tb0Code s.tim.state), (28, b2n s.locked), (27, b2n s.tim.stepDone), (26, b2n (!s.time.tb3coupled)), (16, s.tim.acqCount), (0, parent)]

/-- The rate correction as 40 bits. -/
def rateBits (s : State) : Nat := ofS 40 s.tim.rate

/-- TIM_PARENT_ID_HI, TIM_PARENT_ID_LO. -/
def timParentId (s : State) (hi : Bool) : Word :=
  match s.tim.parent with
  | some (_, id, _) => BitVec.ofNat 32 (if hi then id / 2 ^ 32 else id)
  | none => 0

/-- TIM_PARENT_PORT. -/
def timParentPort (s : State) : Word :=
  match s.tim.parent with
  | some (q, id, num) => pk [(16, match findPeer s q id num with
      | some x => x.ann.clockClass
      | none => 0), (0, num)]
  | none => 0

/-- The state of a PTP port (R293). -/
def ptpState (s : State) (q : Nat) : Nat :=
  if ¬ ptpEnabled s q then 0
  else if ¬ portUp s q then 5
  else if (vget s.tim.ports q).listening then 1
  else if s.tim.parent.any (fun p => p.1 == q) then (if s.tim.slave then 3 else 2)
  else if (peersOf s q).any (qualifiedPeer s) then 4
  else 1

/-- TIM_PORT_STATUS. -/
def timPortStatus (s : State) (q : Nat) : Word := pk [(29, ptpState s q), (28, b2n ((peersOf s q).any (·.quar)))]

/-- TIM_TXTS_LEVEL. -/
def timTxtsLevel (s : State) (q : Nat) : Word :=
  let p := vget s.tim.ports q
  pk [(31, b2n p.ovf), (0, p.txts.length)]

/-- Word `i` of the head of a TX timestamp queue. -/
def timTxts (s : State) (q i : Nat) : Word :=
  match (vget s.tim.ports q).txts.head? with
  | none => 0
  | some x =>
    match i with
    | 0 => pk [(16, x.id), (0, secOf x.at_ / 2 ^ 32 % 65536)]
    | 1 => BitVec.ofNat 32 (secOf x.at_)
    | 2 => BitVec.ofNat 32 (nsOf x.at_)
    | _ => pk [(16, fracOf x.at_), (12, x.kind)]

end Sys2Proof.Machine
end

