-- ==== Sys2Proof/Machine/CasForm.lean ====
section
/-!
DEFINITION. How a stack forms and shrinks: role and index at a commit (R308), HELLO and joining (R310, R311), the joined set,
violations of neighbours and isolation (R325…R327), and the votes of stacked commands (R324).
-/

namespace Sys2Proof.Machine

/-! ### Fibres and spindles (R90) -/

/-- Spindles in service. -/
def spindlesIn (s : State) : Nat := (reserveCounts s 0).1

/-- Fibres of the layers of one direction: 84 each, 42 in fall-back, none once withdrawn. -/
def layerFibres (lay : Vector (Option LayerCfg) 32) (fall gone : Nat) : Nat :=
  (List.range 32).foldl (fun n l =>
    if (vget lay l).isNone ∨ nbit gone l then n else n + (if nbit fall l then 42 else 84)) 0

/-- The demand of a structure with no layer in fall-back. -/
def structFibres (w : Structure) : Nat :=
  layerFibres w.layDl 0 0 + layerFibres w.layUl 0 0 + 32 * ((w.paths.toList.filter (·.dpdEn)).length) + 336

/-- Fibres claimed: by the committed structure, and by a reweave placed beside it; none before a warp commits (Table 3-6). -/
def fibresClaimed (s : State) : Nat :=
  match s.wrp.active with
  | none => 0
  | some w =>
    layerFibres w.layDl s.wrp.fallDl s.wrp.withdrawnDl + layerFibres w.layUl s.wrp.fallUl s.wrp.withdrawnUl +
      32 * ((w.paths.toList.filter (·.dpdEn)).length) + 336 +
      (match s.wrp.load with
      | some x => if x.partialLoad ∧ x.phase ≥ 5 then x.placed else 0
      | none => 0)

/-- Fibres free on the spindles in service. -/
def fibresFree (s : State) : Nat := 16 * spindlesIn s - fibresClaimed s

/-! ### The joined set (R310, R324) -/

/-- The bellwether's joined set changes: every flock is told in stacked mode. -/
def setJoined (m : Nat) (s : State) : State :=
  if m = s.cas.joined then s
  else
    let s := (s.modCas (fun c => { c with joined := m, statuses := c.statuses.filter (fun x => nbit m x.1) })).raise Reg.CAS_INT_STATUS 4
    if s.cas.mode = 0 then s.noticeAll 0x0C ((List.range 8).filter (nbit m)).length m else s

/-- The devices from `d` on leave the bellwether's joined set. -/
def dropFrom (d : Nat) (s : State) : State := setJoined (s.cas.joined % 2 ^ d) s

/-- A device leaves the joined set, with those beyond it: the bellwether drops them, a member sends ISOLATE upward (R326). `kind` is
1 for the downstream side and 2 for the device itself. -/
def tellIsolate (cls kind : Nat) (s : State) : State :=
  if s.cas.role = 1 then dropFrom (s.cas.d + 1) s
  else reportUp 0x0A 0 (beBytes 1 s.cas.d ++ beBytes 1 cls ++ beBytes 1 kind ++ beBytes 1 0) s

/-- The device isolates its downstream neighbour (R326). -/
def isolateDown (cls : Nat) (s : State) : State :=
  if ¬ hasSide s 1 ∨ sideIsolated s 1 then s
  else tellIsolate cls 1 ((s.modNbr 1 (fun n => { n with isolated := true, state := 3 })).raise Reg.CAS_INT_STATUS 2)

/-- A member is no longer joined. -/
def unjoin (form : Nat) (s : State) : State :=
  watchLock (fun s => s.modCas (fun c => { c with selfJoined := false, form := form })) s

/-- A member detaches itself (R326). -/
def detach (cls : Nat) (s : State) : State :=
  if s.cas.role ≠ 2 ∨ s.cas.detached then s
  else
    let s := tellIsolate cls 2 s
    let s := s.modNbr 0 (fun n => { n with isolated := true, state := 3 })
    (unjoin 4 (s.modCas (fun c => { c with detached := true, mayRejoin := false }))).raise Reg.CAS_INT_STATUS 3

/-- Quarantine of the neighbour of a side. -/
def quarSide (side cls : Nat) (s : State) : State := if side = 0 then detach cls s else isolateDown cls s

/-- Quarantine of a neighbour by count, which has a class of its own (Tables 12-9 and 17-5). -/
def quarCounted (side cls : Nat) (s : State) : State :=
  if ¬ hasSide s side ∨ (vget s.cas.nbrs side).isolated then s else quarSide side cls (s.viol 4 side 7 0)

/-! ### Violations of neighbours (R325) -/

/-- CAS_VIOL_THRESH. -/
def casThresh (s : State) : Nat := max 1 (s.fld Reg.CAS_VIOL_THRESH 15 0)

/-- A violation by a neighbour: counted, logged, and judged over 1 s of TB1. -/
def casViol (side cls : Nat) (s : State) : State :=
  let s := if cls = 1 then s.addHi (Reg.CAS_NBR_VIOL side) 1 else s.addLo (Reg.CAS_NBR_VIOL side) 1
  let s := s.viol 4 side cls 0
  let now := s.time.tb1
  let l := now :: (vget s.cas.nbrs side).viols.filter (fun t => decide (now < t + secTu))
  let s := s.modNbr side (fun n => { n with viols := l })
  if l.length ≥ casThresh s then quarCounted side cls s else s

/-! ### Roles (R308) -/

/-- The role and index that a CASCADE record gives on a board: none where it breaks R308. -/
def cascadeRole (strap : Nat) (c : CascadeCfg) : Option (Nat × Nat) :=
  match c.role with
  | 0 => some (0, 0)
  | 1 => if c.index = 0 then some (1, 0) else none
  | 2 => if 1 ≤ c.index ∧ c.index < c.size then some (2, c.index) else none
  | 3 => if c.index = strap then some (if strap = 0 then 1 else 2, strap) else none
  | _ => none

/-- The CAS state that a commit leaves, from the CASCADE record, the role and the index (R308, R318). -/
def casFresh (c : CascadeCfg) (role d : Nat) (old : Cas) : Cas :=
  let keep := decide (role ≠ 0)
  { role := role, d := d, size := if role = 0 then 0 else c.size, mode := if role = 0 then 0 else c.mode
    stackId := if role = 0 then 0 else c.stackId, joined := if role = 1 then 1 else 0, selfJoined := role == 1
    form := if role = 1 then 3 else if role = 2 ∧ keep ∧ old.detached then 4 else 0
    detached := keep && role == 2 && old.detached, mayRejoin := keep && old.mayRejoin, seqs := old.seqs, out := old.out
    nbrs := if keep then vall (Vector.replicate 2 {}) (fun i _ =>
        { isolated := (vget old.nbrs i).isolated, state := if (vget old.nbrs i).isolated then 3 else 0
          viols := (vget old.nbrs i).viols, l0Since := (vget old.nbrs i).l0Since })
      else Vector.replicate 2 {} }

/-- The role that a commit gives takes the place of the one before. -/
def casSwap (c : CascadeCfg) (role d : Nat) (s : State) : State :=
  let wasMember := s.isMember
  let old := s.cas
  let s := if role = 2 ∧ ¬ wasMember then goTime .unset s else s
  let s := watchLock (fun s => s.modCas (fun _ => casFresh c role d old)) s
  let s := if wasMember ∧ role ≠ 2 ∧ s.pwr.stage ≥ 2 then timStart s else s
  let s := if role ≠ 1 ∧ old.role = 1 ∧ old.joined ≠ 0 then s.raise Reg.CAS_INT_STATUS 4 else s
  foldPorts s

/-- The role of a device in its stack after a full commit: it leaves the stack and joins again (R308, R324); an isolation or a
detachment stays until REJOIN (R327). -/
def casCommit (s : State) : State :=
  let c := s.warp.cascade.getD { role := 0, index := 0, size := 0, mode := 0, stackId := 0 }
  let r := (cascadeRole (s.fld Reg.CAS_STRAP 2 0) c).getD (0, 0)
  casSwap c r.1 r.2 s

/-! ### HELLO (R310, R315) -/

/-- DIGEST: the check word over the CARRIER, LAYER, FLOCK and SKEIN_PARTITION records of the committed warp; 0 with no warp. -/
def casDigest (s : State) : Nat :=
  match s.wrp.active with
  | none => 0
  | some w => crc32c ([3, 4, 5, 6].flatMap (fun t => (w.records.filter (fun r => r.1 == t)).flatMap (·.2)))

/-- UL_SHIFT of SKN_CFG, at most 9. -/
def ulShift (s : State) : Nat := min 9 (s.fld Reg.SKN_CFG 19 16)

/-- A HELLO payload. -/
def helloPayload (s : State) : List Byte :=
  beBytes 1 s.cas.role ++ beBytes 1 s.cas.d ++ beBytes 1 s.cas.size ++ beBytes 1 s.cas.mode ++ beBytes 4 (casDigest s) ++
    beBytes 1 (orderCode s.fuse.order) ++
    beBytes 1 (b2n s.cas.dozing * 4 + b2n (s.cas.role == 1 || s.cas.tb2Lock) * 2 + b2n s.cas.selfJoined) ++
    beBytes 1 (if s.cas.role = 1 then ulShift s else 0) ++ beBytes 5 0

/-- Send HELLO on a side. -/
def helloSend (side : Nat) (s : State) : State := casSend 0x01 side 0 false (helloPayload s) s

/-- Fields of the last HELLO of a neighbour: 0 role, 1 *d*, 2 size, 3 mode, 4 digest, 5 order, 6 flags, 7 UL_SHIFT, 8 STACK_ID. -/
def helloField (n : Nbr) (i : Nat) : Nat := (n.hello.getD []).getD i 0

/-- The first condition of R310 that the upstream HELLO fails, as its FORM code; 0 when none does. -/
def formCode (s : State) : Nat :=
  let n := vget s.cas.nbrs 0
  let f := helloField n
  if f 8 ≠ s.cas.stackId then 1
  else if f 1 + 1 ≠ s.cas.d then 2
  else if f 2 ≠ s.cas.size ∨ f 3 ≠ s.cas.mode then 3
  else if s.cas.mode = 0 ∧ (f 4 ≠ casDigest s ∨ s.wrp.active.isNone) then 4
  else if toS 32 (s.reg Reg.CAS_HOP_DELAY).toNat > 20000 then 5
  else if ¬ (f 0 = 1 ∨ nbit (f 6) 0) then 6
  else 0

/-- On joining, both banks of every served slot are zeroed (R327). -/
def zeroServed (s : State) : State :=
  forAll [false, true] (fun ul s => forAll (List.range 32) (fun l s =>
    match s.holder ul l with
    | some k => resetSlot 5 ul l (some k) s
    | none => s) s) s

/-- A detached device may join again (R327): REJOIN, and 1 s in L0 without a violation. -/
def rejoinReady (s : State) : Bool :=
  let n := vget s.cas.nbrs 0
  !s.cas.detached || (s.cas.mayRejoin && decide (n.l0Since + secTu ≤ s.time.tb1) &&
    n.viols.all (fun t => decide (t + secTu ≤ s.time.tb1)))

/-- A member judges its place in the stack after a HELLO or a TIME frame from upstream (R310). -/
def formJudge (s : State) : State :=
  if s.cas.role ≠ 2 ∨ (vget s.cas.nbrs 0).hello.isNone ∨ s.cas.dozing then s
  else
    let code := formCode s
    if ¬ rejoinReady s then s
    else if code ≠ 0 then
      let new := s.cas.form != 5 || s.cas.code != code
      let s := (unjoin 5 s).modCas (fun c => { c with code := code })
      if new then s.raise Reg.CAS_INT_STATUS 1 else s
    else if s.cas.selfJoined then s
    else if s.cas.tb2Set ∧ s.cas.tb2Lock then
      let s := s.modCas (fun c => { c with selfJoined := true, form := 3, code := 0, detached := false, mayRejoin := false })
      let s := s.modNbr 0 (fun n => { n with isolated := false, state := 2 })
      (zeroServed s).raise Reg.CAS_INT_STATUS 0
    else s.modCas (fun c => { c with form := 2, code := 0 })

/-- What a neighbour's HELLO makes of its state in CAS_NBR_STATUS. -/
def nbrState (s : State) (side : Nat) (n : Nbr) : Nat :=
  let f := helloField n
  let fits := f 8 == s.cas.stackId && f 2 == s.cas.size && f 3 == s.cas.mode &&
    (if side = 0 then f 1 + 1 == s.cas.d else f 1 == s.cas.d + 1)
  if n.isolated then 3
  else if ¬ fits then 4
  else if nbit (f 6) 2 then 5
  else if nbit (f 6) 0 ∨ (side = 0 ∧ f 0 = 1) then 2
  else 1

/-- REJOIN (R327): the downstream neighbour is no longer isolated, and a detached device may join again. -/
def casRejoin (s : State) : State :=
  let s := s.modNbr 1 (fun n => if n.isolated then { n with isolated := false, state := 1, viols := [] } else n)
  s.modCas (fun c => { c with mayRejoin := c.detached })

/-- A HELLO that passed its checks (R310). -/
def helloTake (side stackId : Nat) (p : List Byte) (s : State) : State :=
  let old := vget s.cas.nbrs side
  let h := [byteAt p 0, byteAt p 1, byteAt p 2, byteAt p 3, be p 4 4, byteAt p 8, byteAt p 9, byteAt p 10 % 16, stackId]
  let s := s.modNbr side (fun n => { n with hello := some h, d := byteAt p 1 % 8 })
  let st := nbrState s side (vget s.cas.nbrs side)
  let s := s.modNbr side (fun n => { n with state := st })
  if side = 0 then formJudge (if s.cas.role = 2 ∧ s.cas.form = 0 then s.modCas (fun c => { c with form := 1 }) else s)
  else if s.cas.role = 1 then
    if st = 2 then setJoined (s.cas.joined ||| 2) s else dropFrom 1 s
  else if old.state = 2 ∧ st ≠ 2 then tellIsolate 0 1 s
  else s

/-! ### STATUS and the stack's own events -/

/-- A STATUS payload (Table 12-4). -/
def statusPayload (s : State) : List Byte :=
  let st := match s.pstate with | .idle => 0 | .service => 1 | .doze => 2
  beBytes 1 s.cas.d ++ beBytes 1 ((if s.pwr.stage < 3 then 0 else st) * 8 + s.pwr.stage) ++ beBytes 1 (thermStage s) ++
    beBytes 1 (b2n (vget s.syn.roles 1).latched * 8 + b2n (vget s.syn.roles 0).latched * 4 + b2n (roleValid s 1) * 2 +
      b2n (roleValid s 0)) ++
    beBytes 8 (bitsOf 64 (fun p => decide ((pathOf s p).txFault ≠ 0))) ++
    beBytes 8 (bitsOf 64 (fun p => decide ((pathOf s p).rxFault ≠ 0))) ++
    beBytes 2 (spindlesIn s) ++ beBytes 2 (fibresFree s) ++ beBytes 2 (fld (radDuty s) 9 0) ++
    beBytes 1 (b2n s.rad.pasture.isSome * 128 + s.pwr.level) ++ beBytes 1 0

/-- Member `d`'s latest STATUS at the bellwether: it is joined once the device before it is (R310, R324); PATH_FAULT notices carry
its global paths. -/
def statusTake (d : Nat) (p : List Byte) (s : State) : State :=
  let old := ((s.cas.statuses.find? (fun x => x.1 == d)).map (·.2)).getD (List.replicate 28 0)
  let s := if nbit s.cas.joined (d - 1) then setJoined (s.cas.joined ||| 2 ^ d) s else s
  if ¬ nbit s.cas.joined d then s
  else
    let s := s.modCas (fun c => { c with statuses := (d, p) :: c.statuses.filter (fun x => x.1 != d) })
    if s.cas.mode ≠ 0 then s
    else
      let new := fun (o : Nat) => (List.range 64).filter (fun q => nbit (be p o 8) q && !nbit (be old o 8) q)
      let tell := fun (tx : Bool) (q : Nat) (s : State) =>
        forAll ((List.range 8).filter (s.holdsAny (!tx))) (fun k s => s.notice k 0x03 (if tx then 0x80 else 0) (64 * d + q)) s
      forAll (new 12) (tell false) (forAll (new 4) (tell true) s)

/-- What the fold links do at the end of an epoch: a joined member sends STATUS, and a port that has gone down acts as an isolation
without a violation (R324, R326). -/
def casEpoch (s : State) : State :=
  if s.cas.role = 0 then s
  else
    let down := fun (s : State) (side : Nat) =>
      hasSide s side && (port s (sidePort side)).state == .downFault && (vget s.cas.nbrs side).state != 0
    let s := if down s 1 then
        (isolateDown 0 s).modNbr 1 (fun n => { n with state := 0, hello := none })
      else s
    let s := if down s 0 then
        (detach 0 s).modNbr 0 (fun n => { n with state := 0, hello := none })
      else s
    if s.cas.role = 2 ∧ s.cas.selfJoined then casSend 0x07 0 0 false (statusPayload s) s else s

/-! ### Votes (R324) -/

/-- The block a vote is of (Table 12-5). -/
def voteBlock : VoteOn → Nat
  | .level _ => 0x01
  | .warp => 0x02
  | .group _ => 0x08

/-- A member's vote. -/
def castVote (block code : Nat) (s : State) : State :=
  reportUp 0x07 0 (beBytes 1 s.cas.d ++ beBytes 1 block ++ beBytes 1 code ++ beBytes 1 0) s

/-- Open a vote among the other joined devices. -/
def openVote (on : VoteOn) (s : State) : State := s.modCas (fun c => { c with vote := some (on, joinedOthers s) })

/-- A stacked command was refused by member `d` (R324). -/
def voteRefused (d block code : Nat) (s : State) : State :=
  ((s.modCas (fun c => { c with vote := none })).setReg Reg.CAS_LAST_REFUSAL (pk [(24, d), (16, block), (8, code)])).raise
    Reg.CAS_INT_STATUS 8

end Sys2Proof.Machine
end

