-- ==== Sys2Proof/Machine/WrpLoad.lean ====
section
/-!
DEFINITION. The warp as bytes (R71…R85) and the checks of a load in the order of Table 3-5 (R86…R93).
-/

namespace Sys2Proof.Machine

/-! ### Records (R74, R75) -/

/-- A record of a warp: its index, byte offset, TYPE, VERSION, and its bytes with the header. -/
structure WarpRec where
  idx : Nat
  off : Nat
  type : Nat
  ver : Nat
  bytes : List Byte
  deriving DecidableEq, Repr, Inhabited

/-- A failed check: its code, the record index (0xFFFF for the header) and the byte offset of the fault. -/
abbrev LoadErr := Nat × Nat × Nat

/-- The first failure of checks in order. -/
def firstErr (l : List (Option LoadErr)) : Option LoadErr := l.findSome? id

/-- A check of the header. -/
def headErr (bad : Bool) (code off : Nat) : Option LoadErr := if bad then some (code, 0xFFFF, off) else none

/-- Entry size, smallest and largest number of entries of a record type (Table 3-2). -/
def recSpec (type : Nat) : Option (Nat × Nat × Nat) :=
  match type with
  | 1 => some (4, 8, 8) | 2 => some (4, 64, 64) | 3 => some (16, 1, 8) | 4 => some (8, 1, 64) | 5 => some (24, 1, 8)
  | 6 => some (8, 1, 16) | 7 => some (4, 8, 8) | 8 => some (16, 1, 1) | 9 => some (8, 1, 1) | 0xA => some (12, 72, 72)
  | _ => none

/-- Entry size of a record type. -/
def entryBytesOf (type : Nat) : Nat := ((recSpec type).getD (4, 0, 0)).1

/-- The entries of a record. -/
def WarpRec.entries (r : WarpRec) : List (List Byte) :=
  let n := entryBytesOf r.type
  (List.range ((r.bytes.length - 4) / n)).map (fun i => slice r.bytes (4 + n * i) n)

/-- Walk `n` records from an offset: the records, or where a header or length breaks R74. -/
def walkRecords : Nat → Nat → Nat → Nat → List Byte → List WarpRec → List WarpRec × Option LoadErr
  | 0, idx, off, stop, _, acc => (acc.reverse, if off = stop then none else some (7, idx, off))
  | n + 1, idx, off, stop, bs, acc =>
    let len := le bs 2 2
    let type := byteAt bs 0
    if off + 4 > stop ∨ len < 4 ∨ len % 4 ≠ 0 ∨ off + len > stop then (acc.reverse, some (7, idx, off + 2))
    else if type < 0x80 ∧ (recSpec type).isNone then (acc.reverse, some (7, idx, off))
    else walkRecords n (idx + 1) (off + len) stop (bs.drop len) ({ idx, off, type, ver := byteAt bs 1, bytes := bs.take len } :: acc)

/-- The number of entries is whole and within the type's range. -/
def badCount (r : WarpRec) : Option LoadErr :=
  match recSpec r.type with
  | none => none
  | some (n, lo, hi) =>
    let b := r.bytes.length - 4
    if b % n ≠ 0 ∨ b / n < lo ∨ b / n > hi then some (7, r.idx, r.off + 2) else none

/-- A record type a full warp must have, or a partial warp may have (Table 3-2). -/
def requiredTypes : List Nat := [1, 2, 3, 4, 5, 6, 0xA]

/-- Presence under R75. -/
def badPresence (isPartial : Bool) (count stop : Nat) (rs : List WarpRec) : Option LoadErr :=
  let rs := rs.filter (fun r => decide (r.type < 0x80))
  let again := rs.find? (fun r => rs.any (fun q => q.type == r.type && decide (q.idx < r.idx)))
  let has := fun t => rs.any (fun r => r.type == t)
  let lost := if isPartial then !(has 3 || has 4) else requiredTypes.any (fun t => !has t)
  let stray := if isPartial then rs.find? (fun r => !([3, 4].contains r.type)) else none
  match again, stray with
  | some r, _ => some (7, r.idx, r.off)
  | none, some r => some (7, r.idx, r.off)
  | none, none => if lost then some (7, count, stop) else none

/-- The bits of an entry that its layout states as 0, as (byte, mask). -/
def zeroBits (type : Nat) : List (Nat × Nat) :=
  match type with
  | 1 => [(0, 0xF8), (1, 0xF0), (2, 0xFF), (3, 0xFF)]
  | 2 => [(0, 0xF8), (1, 0xF8)]
  | 3 => [(0, 0x7C), (14, 0xFF), (15, 0xFF)]
  | 4 => [(2, 0xFE), (3, 0xFF), (6, 0xFF), (7, 0xFF)]
  | 5 => [(5, 0xFF), (21, 0xFF), (22, 0xFF), (23, 0xFF)]
  | 7 => [(3, 0xFF)]
  | 8 => [(2, 0xFF), (3, 0xFF), (14, 0xFF), (15, 0xFF)]
  | 0xA => [(10, 0xFF), (11, 0xFF)]
  | _ => []

/-- The first byte of a record with a bit set that must be 0. -/
def badZero (r : WarpRec) : Option LoadErr :=
  let n := entryBytesOf r.type
  ((List.range r.entries.length).flatMap (fun i => (zeroBits r.type).map (fun z => (i, z)))).findSome? (fun x =>
    if (byteAt (r.entries.getD x.1 []) x.2.1).land x.2.2 ≠ 0 then some (7, r.idx, r.off + 4 + n * x.1 + x.2.1) else none)

/-! ### Header, check word and signature (R71…R73) -/

/-- Bytes of a warp of TOTAL_LEN and FLAGS, signature included. -/
def warpLength (b : List Byte) : Nat := le b 8 4 + (if nbit (byteAt b 0xE) 0 then 128 else 0)

/-- The header's checks. -/
def badHeader (b : List Byte) : Option LoadErr :=
  firstErr [headErr (b.take 4 != [0x57, 0x41, 0x52, 0x50]) 1 0, headErr (le b 4 2 != 1) 1 4, headErr (le b 6 2 != 64) 1 6,
    headErr (!zeros b 0x1A 2) 1 0x1A, headErr (!zeros b 0x20 32) 1 0x20, headErr (decide (le b 0xE 2 ≥ 4)) 1 0xE,
    headErr (le b 0x14 4 == 0) 1 0x14, headErr (warpLength b != b.length) 1 8, headErr (decide (b.length > 16384)) 0xF 8]

/-- Check word, key and signature. -/
def badSigned (s : State) (b : List Byte) : Option LoadErr :=
  let n := le b 8 4
  let signed := nbit (byteAt b 0xE) 0
  if leNat (slice b (n - 4) 4) ≠ crc32c (b.take (n - 4)) then some (2, 0xFFFF, n - 4)
  else if ¬ signed then headErr (s.bit Reg.WRP_CFG 0) 5 0xE
  else if ¬ sigKeyOk (b.drop n) s.fuse.keyHash then some (4, 0xFFFF, n)
  else if ¬ sigOk (b.drop n) (b.take n) then some (3, 0xFFFF, n + 64)
  else none

/-! ### Entries (R76…R85) -/

/-- FOLD. -/
def foldOf (e : List Byte) : FoldCfg :=
  let b := byteAt e 0
  { enable := nbit b 0, txLo := b / 2 % 2, rxLo := b / 4 % 2, lines := byteAt e 1 % 16 }

/-- PATH. -/
def pathEntry (e : List Byte) : PathCfg :=
  let b := byteAt e 0
  { txEn := nbit b 0, rxEn := nbit b 1, dpdEn := nbit b 2, group := byteAt e 1 % 8, nbrA := byteAt e 2, nbrB := byteAt e 3 }

/-- CARRIER. -/
def carrierOf (e : List Byte) : Carrier :=
  { format := byteAt e 1, bw := le e 2 2, centre := le e 4 4, scs := byteAt e 8, cp := byteAt e 9, groups := byteAt e 10
    lo := byteAt e 11, backoff := toS 16 (le e 12 2) }

/-- LAYER. -/
def layerOf (e : List Byte) : LayerCfg := { carrier := byteAt e 1 % 4, port := byteAt e 2 % 2, eaxc := le e 4 2 }

/-- FLOCK; MAC as a number of its octets in order. -/
def flockOf (e : List Byte) : FlockCfg :=
  { cls := byteAt e 1, guarDl := byteAt e 2, guarUl := byteAt e 3, carriers := byteAt e 4, guarBw := le e 6 2, defer := le e 8 2
    quar := le e 10 2, mac := be e 12 6, vlan := le e 18 2, ports := byteAt e 20 % 4 }

/-- SKEIN_PARTITION. -/
def partitionOf (e : List Byte) : Partition :=
  { ul := nbit (byteAt e 0) 7, index := byteAt e 0 % 16, owner := byteAt e 1, first := le e 2 2, count := le e 4 2 }

/-- MONITOR. -/
def monitorOf (e : List Byte) : MonCfg :=
  { n := byteAt e 0, dcOn := nbit (byteAt e 1) 0, dcFreeze := nbit (byteAt e 1) 1, member := byteAt e 2 }

/-- CAPTURE. -/
def captureOf (e : List Byte) : CaptureCfg :=
  { count := if le e 0 2 = 0 then 65536 else le e 0 2, segLen := le e 4 4, pre := le e 8 4, streams := byteAt e 12
    minMax := nbit (byteAt e 13) 0 }

/-- CASCADE. -/
def cascadeOf (e : List Byte) : CascadeCfg :=
  { role := byteAt e 0, index := byteAt e 1, size := byteAt e 2, mode := byteAt e 3, stackId := le e 4 4 }

/-- BIAS. -/
def biasOf (e : List Byte) : BiasCfg :=
  { span := byteAt e 0, enable := nbit (byteAt e 1) 0, vmin := le e 2 2, vmax := le e 4 2, imin := le e 6 2, imax := le e 8 2 }

/-- The entries of a record type among raw records. -/
def entriesIn (recs : List (Nat × List Byte)) (type : Nat) : List (List Byte) :=
  match recs.find? (fun r => r.1 == type) with
  | some (_, b) => WarpRec.entries { idx := 0, off := 0, type := type, ver := 1, bytes := b }
  | none => []

/-- Direction of a CARRIER, LAYER or SKEIN_PARTITION entry: true is uplink. -/
def entryUl (e : List Byte) : Bool := nbit (byteAt e 0) 7

/-- The carriers of a direction by `c`. -/
def carriersOf (es : List (List Byte)) (ul : Bool) : Vector (Option Carrier) 4 :=
  es.foldr (fun e v => if entryUl e == ul then vset v (byteAt e 0 % 4) (some (carrierOf e)) else v) (Vector.replicate 4 none)

/-- The layer slots of a direction by `l`. -/
def layersOf (es : List (List Byte)) (ul : Bool) : Vector (Option LayerCfg) 32 :=
  es.foldr (fun e v => if entryUl e == ul then vset v (byteAt e 0 % 32) (some (layerOf e)) else v) (Vector.replicate 32 none)

/-- The structure that raw records give with a header (R75). -/
def structureOf (h : List Byte) (recs : List (Nat × List Byte)) : Structure :=
  let es := entriesIn recs
  { id := le h 0x10 4, rev := le h 0x14 4, region := le h 0x18 2, pmaxPath := toS 16 (le h 0x1C 2), pmaxAgg := toS 16 (le h 0x1E 2)
    folds := vall (Vector.replicate 8 {}) (fun i _ => foldOf ((es 1).getD i []))
    paths := vall (Vector.replicate 64 {}) (fun i _ => pathEntry ((es 2).getD i []))
    carDl := carriersOf (es 3) false, carUl := carriersOf (es 3) true
    layDl := layersOf (es 4) false, layUl := layersOf (es 4) true
    flocks := (es 5).foldr (fun e v => vset v (byteAt e 0) (some (flockOf e))) (Vector.replicate 8 none)
    parts := (es 6).map partitionOf
    monitors := if (es 7).isEmpty then none else some (vall (Vector.replicate 8 {}) (fun i _ => monitorOf ((es 7).getD i [])))
    capture := (es 8).head?.map captureOf
    cascade := (es 9).head?.map cascadeOf
    bias := vall (Vector.replicate 72 {}) (fun i _ => biasOf ((es 0xA).getD i []))
    records := recs }

/-- The records of a warp that has been walked, annotations left out. -/
def rawRecords (rs : List WarpRec) : List (Nat × List Byte) :=
  (rs.filter (fun r => decide (r.type < 0x80))).map (fun r => (r.type, r.bytes))

/-- The records in force after a partial warp: its records replace the committed ones of their types (R92). -/
def mergeRecords (old new : List (Nat × List Byte)) : List (Nat × List Byte) :=
  old.map (fun r => (new.find? (fun q => q.1 == r.1)).getD r)

/-! ### Structure rules (R87) -/

/-- A fault in entry `e` of a record type, at byte `o` of the entry; in the header's name where the warp does not hold the record. -/
def entryErr (rs : List WarpRec) (code type e o : Nat) : LoadErr :=
  match rs.find? (fun r => r.type == type) with
  | some r => (code, r.idx, r.off + 4 + entryBytesOf type * e + o)
  | none => (code, 0xFFFF, 0)

/-- The first entry of a type that fails a test, and the byte of it that is named. -/
def findEntry (rs : List WarpRec) (type : Nat) (es : List (List Byte)) (bad : Nat → List Byte → Option Nat) : Option LoadErr :=
  (List.range es.length).findSome? (fun i => (bad i (es.getD i [])).map (entryErr rs 8 type i ·))

/-- An earlier entry agrees under a key. -/
def repeats (es : List (List Byte)) (key : List Byte → Nat) (i : Nat) : Bool :=
  (es.take i).any (fun e => key e == key (es.getD i []))

/-- A test that names byte `o`. -/
def atByte (bad : Bool) (o : Nat) : Option Nat := if bad then some o else none

/-- PATH entries: an enabled path in a disabled fold, a neighbour value, DPD_EN without TX_EN. -/
def badPath (w : Structure) (p : Nat) (_ : List Byte) : Option Nat :=
  let x := vget w.paths p
  let nbr := fun (v : Nat) => !((decide (v < 64) && v != p) || v == 0xFE || v == 0xFF)
  if (x.txEn ∨ x.rxEn) ∧ ¬ (vget w.folds (p / 8)).enable then some 0
  else if x.dpdEn ∧ ¬ x.txEn then some 0
  else if nbr x.nbrA then some 2
  else if nbr x.nbrB then some 3
  else none

/-- CARRIER entries against the level's bandwidth, the band, and one another. -/
def badCarrier (maxBw : Nat) (es : List (List Byte)) (i : Nat) (e : List Byte) : Option Nat :=
  let k := carrierOf e
  let b := carrierBand k
  if repeats es (fun e => byteAt e 0 / 128 * 4 + byteAt e 0 % 4) i then some 0
  else if k.bw = 0 ∨ k.bw > maxBw then some 2
  else if b.1 < 600000 ∨ b.2 > 7200000 then some 4
  else if k.groups = 0 then some 10
  else none

/-- A carrier's LO must be that of every enabled fold holding an enabled path of its groups. -/
def badCarrierLo (w : Structure) (e : List Byte) : Bool :=
  let k := carrierOf e
  (List.range 64).any (fun p =>
    let x := vget w.paths p
    let f := vget w.folds (p / 8)
    f.enable && (x.txEn || x.rxEn) && nbit k.groups x.group && (if entryUl e then f.rxLo else f.txLo) != k.lo)

/-- The carriers on a synthesiser span more than 400 MHz. -/
def wideSpan (w : Structure) (r : Nat) : Bool :=
  match roleEdges w r with
  | some (lo, hi) => decide (hi - lo > 400000)
  | none => false

/-- A carrier exists. -/
def hasCarrier (w : Structure) (ul : Bool) (c : Nat) : Bool := (if ul then vget w.carUl c else vget w.carDl c).isSome

/-- Layer slots of a direction on carriers of a mask. -/
def layersOn (w : Structure) (ul : Bool) (mask : Nat) : Nat :=
  ((List.range 32).filter (fun l => match (if ul then vget w.layUl l else vget w.layDl l) with
    | some y => nbit mask y.carrier
    | none => false)).length

/-- FLOCK entries: a repeated or absent *k*, CLASS, CARRIERS. -/
def badFlock (w : Structure) (es : List (List Byte)) (i : Nat) (e : List Byte) : Option Nat :=
  let f := flockOf e
  if byteAt e 0 > 7 ∨ repeats es (fun e => byteAt e 0) i then some 0
  else if f.cls > 3 then some 1
  else atByte ((List.range 4).any (fun c => (nbit f.carriers c && !hasCarrier w false c) ||
    (nbit f.carriers (4 + c) && !hasCarrier w true c))) 4

/-- FLOCK guarantees against the layers of the flock's carriers. -/
def badGuarantee (w : Structure) (_ : Nat) (e : List Byte) : Option Nat :=
  let f := flockOf e
  if f.guarDl > layersOn w false (f.carriers % 16) then some 2
  else atByte (decide (f.guarUl > layersOn w true (f.carriers / 16))) 3

/-- The guarantees of all flocks in a direction exceed its layers. -/
def guaranteesExceed (w : Structure) (ul : Bool) : Bool :=
  decide ((w.flocks.toList.filterMap id).foldl (fun n f => n + (if ul then f.guarUl else f.guarDl)) 0 > layersOn w ul 15)

/-- SKEIN_PARTITION entries: range, overlap, owner. -/
def badPartition (w : Structure) (i : Nat) (e : List Byte) : Option Nat :=
  let x := partitionOf e
  let past := fun (y : Partition) => y.ul == x.ul && decide (y.first < x.first + x.count) && decide (x.first < y.first + y.count)
  if (w.parts.take i).any past then some 2
  else if x.count = 0 ∨ x.count > 1024 ∨ x.first + x.count > 1024 then some 4
  else atByte (x.owner != 0xFF && (x.owner ≥ 8 || (vget w.flocks x.owner).isNone)) 1

/-- A flock with carriers in a direction has no partition there. -/
def unpartitioned (w : Structure) (k : Nat) : Bool :=
  match vget w.flocks k with
  | none => false
  | some f => [false, true].any (fun ul =>
      decide ((if ul then f.carriers / 16 else f.carriers % 16) ≠ 0) && !w.parts.any (fun x => x.ul == ul && x.owner == k))

/-- BIAS entries whose supply is missing. -/
def badSupply (s : State) (_ : Nat) (e : List Byte) : Option Nat := atByte ((biasOf e).enable && spanStarved s (biasOf e).span) 0

/-- BIAS limits in the wrong order. -/
def badLimits (n : Nat) (e : List Byte) : Option Nat :=
  let b := biasOf e
  if b.vmin > b.vmax then some 2 else atByte (decide (n < 64) && decide (b.imin > b.imax)) 6

/-- Values outside the sets and ranges of R76…R85, by record type. -/
def badValue (strap type _i : Nat) (e : List Byte) : Option Nat :=
  match type with
  | 3 =>
    let k := carrierOf e
    if k.format > 2 then some 1
    else if k.scs > 3 then some 8
    else if k.cp > 1 ∨ (k.cp = 1 ∧ k.scs ≠ 2) then some 9
    else if k.lo > 1 then some 11
    else atByte (if entryUl e then decide (k.backoff ≠ 0) else decide (k.backoff < -4000) || decide (k.backoff > 0)) 12
  | 5 => if (flockOf e).quar > 4095 then some 10 else atByte (decide ((flockOf e).vlan > 4094)) 18
  | 7 =>
    let m := monitorOf e
    if m.n < 1 ∨ m.n > 10 then some 0 else atByte (decide (m.member > 7) && m.member != 0xFF) 2
  | 8 =>
    let c := captureOf e
    if c.pre > c.segLen then some 8 else atByte (c.streams == 0 || decide (c.streams > 4)) 12
  | 9 =>
    let c := cascadeOf e
    if c.role > 3 then some 0
    else if c.size < 1 ∨ c.size > 8 then some 2
    else if c.index ≥ c.size then some 1
    else if c.mode > 1 then some 3
    else atByte (cascadeRole strap c).isNone 1
  | 0xA => atByte (decide ((biasOf e).span > 3)) 0
  | _ => none

/-- The structure rules in the order of R87. -/
def badStructure (s : State) (rs : List WarpRec) (w : Structure) : Option LoadErr :=
  let es := entriesIn w.records
  let maxBw := levelBw (if s.pwr.stage ≥ 3 then s.pwr.level else 0)
  let head := fun (bad : Bool) (type : Nat) => if bad then some (entryErr rs 8 type 0 0) else none
  firstErr ([findEntry rs 2 (es 2) (badPath w), findEntry rs 3 (es 3) (badCarrier maxBw (es 3)),
    head (wideSpan w 0 || wideSpan w 1) 3,
    findEntry rs 3 (es 3) (fun _ e => atByte (decide ((carrierOf e).lo < 2) && badCarrierLo w e) 11),
    findEntry rs 4 (es 4) (fun i e => if repeats (es 4) (fun e => byteAt e 0 / 128 * 32 + byteAt e 0 % 32) i then some 0
      else atByte (!hasCarrier w (entryUl e) (byteAt e 1 % 4)) 1),
    findEntry rs 5 (es 5) (badFlock w (es 5)), findEntry rs 5 (es 5) (badGuarantee w),
    head (guaranteesExceed w false || guaranteesExceed w true) 5,
    findEntry rs 6 (es 6) (badPartition w), head ((List.range 8).any (unpartitioned w)) 6,
    findEntry rs 0xA (es 0xA) (badSupply s), findEntry rs 0xA (es 0xA) badLimits] ++
    [3, 5, 7, 8, 9, 0xA].map (fun t => findEntry rs t (es t) (badValue (s.fld Reg.CAS_STRAP 2 0) t)))

/-! ### LO movement and licence (R89, R93) -/

/-- The frequency a structure gives a role, as twice the midpoint in kHz. -/
def roleTarget (w : Structure) (r : Nat) : Option Int := (roleEdges w r).map (fun e => e.1 + e.2)

/-- The LO assignments of the carriers of a structure that a role takes part in: (direction, c). -/
def roleAssigned (w : Structure) (r : Nat) : List (Bool × Nat) :=
  [false, true].flatMap (fun ul => ((List.range 4).filter (fun c => match (if ul then vget w.carUl c else vget w.carDl c) with
    | some k => k.lo == r
    | none => false)).map (fun c => (ul, c)))

/-- A carrier present in both structures changes its LO to or from a role. -/
def reassigned (old new : Structure) (r : Nat) : Bool :=
  let other := fun (w : Structure) (x : Bool × Nat) => (roleAssigned w (1 - r)).contains x
  (roleAssigned old r).any (other new) || (roleAssigned new r).any (other old)

/-- A role moves while it feeds a group that is not in OFF (R93). -/
def loMoves (s : State) (new : Structure) (r : Nat) : Bool :=
  let old := s.warp
  let groups := ((old.carDl.toList ++ old.carUl.toList ++ new.carDl.toList ++ new.carUl.toList).filterMap id).filter (fun k => k.lo == r)
  (roleTarget old r != roleTarget new r || reassigned old new r) &&
    (List.range 8).any (fun g => groups.any (fun k => nbit k.groups g) && (vget s.rad.groups g).state != .off)

/-- The licence phase (R89); without a pasture record nothing is permitted (R220). -/
def badLicence (s : State) (rs : List WarpRec) (w : Structure) : Option LoadErr :=
  match s.rad.pasture with
  | none => some (9, 0xFFFF, 0)
  | some p =>
    if w.region ≠ p.region then some (9, 0xFFFF, 0x18)
    else
      firstErr [(findEntry rs 3 (entriesIn w.records 3) (fun _ e => atByte (!entryUl e && !carrierPermitted p (carrierOf e)) 4)).map
          (fun x => (9, x.2)),
        headErr (decide (w.pmaxPath > p.pmaxPath)) 9 0x1C, headErr (decide (w.pmaxAgg > p.pmaxAgg)) 9 0x1E]

/-! ### Verify and licence as a whole (Table 3-5) -/

/-- A warp taken through the verify and licence phases: the structure it makes, or the first failing check. -/
def verifyWarp (s : State) (b : List Byte) : LoadErr ⊕ Structure :=
  match badHeader b with
  | some e => .inl e
  | none =>
  match badSigned s b with
  | some e => .inl e
  | none =>
  let stop := le b 8 4 - 4
  let isPartial := nbit (byteAt b 0xE) 1
  let (rs, walk) := walkRecords (le b 0xC 2) 0 64 stop (b.drop 64) []
  let vers := fun (r : WarpRec) => if r.type < 0x80 ∧ r.ver ≠ 1 then some (7, r.idx, r.off + 1) else none
  let absent := fun (r : WarpRec) =>
    if (r.type = 8 ∧ s.fuse.order ≠ .xf) ∨ (r.type = 9 ∧ s.fuse.order = .sb) then some (6, r.idx, r.off) else none
  match firstErr [walk, rs.findSome? badCount, rs.findSome? vers, badPresence isPartial (le b 0xC 2) stop rs,
      rs.findSome? badZero, rs.findSome? absent] with
  | some e => .inl e
  | none =>
  let old := s.warp
  if isPartial ∧ (s.wrp.active.isNone ∨ le b 0x10 4 ≠ old.id ∨ le b 0x14 4 ≤ old.rev) then
    .inl (0xC, 0xFFFF, if s.wrp.active.isNone ∨ le b 0x10 4 ≠ old.id then 0x10 else 0x14)
  else
    let w := structureOf b (if isPartial then mergeRecords old.records (rawRecords rs) else rawRecords rs)
    match firstErr [badStructure s rs w,
        if isPartial ∧ (loMoves s w 0 ∨ loMoves s w 1) then some (entryErr rs 0x10 3 0 0) else none, badLicence s rs w] with
    | some e => .inl e
    | none => .inr w

end Sys2Proof.Machine
end

