-- ==== Sys2Proof/Machine/Wrp.lean ====
section
/-!
DEFINITION. The weaver and the loader (R86…R99), and the commands of the WRP block: staging, loads and reweaves, reserve spindles
in service, fall-back.
-/

namespace Sys2Proof.Machine

/-! ### Status (R100) -/

/-- WRP_STATUS: OUTCOME 1 DONE, 2 REFUSED, 3 IN_PROGRESS, with ERROR. -/
def wrpStatus (outcome error : Nat) (s : State) : State :=
  (s.setFld Reg.WRP_STATUS 1 0 outcome).setFld Reg.WRP_STATUS 31 24 error

/-- A load or reweave is refused: nothing else changes (R86). -/
def wrpRefuse (e : LoadErr) (s : State) : State :=
  ((wrpStatus 2 e.1 s).setReg Reg.WRP_ERR_LOC (pk [(16, e.2.1), (0, e.2.2)])).raise Reg.WRP_INT_STATUS 1

/-- The load or reweave ends: its buffer is emptied (R443), and its job leaves the queue. -/
def loadEnd (s : State) : State :=
  s.modWrp (fun w => { w with
    stage := {}, load := none
    jobs := w.jobs.filter (fun j => match j with
      | .handover .. => true
      | _ => false) })

/-- The load that runs or waits is refused. -/
def loadFail (e : LoadErr) (s : State) : State := wrpRefuse e (loadEnd s)

/-- The time of the commit or the switch. -/
def stampSwitch (s : State) : State :=
  (s.setReg Reg.WRP_SWITCH_TIME_S (BitVec.ofNat 32 (secOf s.time.tb0))).setReg Reg.WRP_SWITCH_TIME_NS
    (BitVec.ofNat 32 (nsOf s.time.tb0))

/-! ### Placing (R90, R93, R99) -/

/-- A slot of a structure that has fibres. -/
def hasSlot (w : Structure) (ul : Bool) (l : Nat) : Bool := (if ul then vget w.layUl l else vget w.layDl l).isSome

/-- Every layer slot, uplink before downlink and lowest *l* first: the reverse of the order of R97. -/
def slotsUp : List (Bool × Nat) := [true, false].flatMap (fun ul => (List.range 32).map (fun l => (ul, l)))

/-- Slots that a reweave adds: those without fibres now. -/
def addedSlots (s : State) (new : Structure) : List (Bool × Nat) :=
  slotsUp.filter (fun x => hasSlot new x.1 x.2 && (!hasSlot s.warp x.1 x.2 || withdrawn s x.1 x.2))

/-- Slots that a reweave removes. -/
def removedSlots (s : State) (new : Structure) : List (Bool × Nat) :=
  slotsUp.filter (fun x => hasSlot s.warp x.1 x.2 && !hasSlot new x.1 x.2)

/-- Layers in fall-back that a reweave keeps. -/
def keptFallback (s : State) (new : Structure) : List (Bool × Nat) :=
  slotsUp.filter (fun x => hasSlot new x.1 x.2 && hasSlot s.warp x.1 x.2 && nbit (if x.1 then s.wrp.fallUl else s.wrp.fallDl) x.2)

/-- Fibres a load claims on top of what is claimed, or none where they do not fit: a full warp replaces everything; a reweave's added
slots need full precision, and kept layers in fall-back return to it while fibres allow. -/
def placement (s : State) (new : Structure) (isPartial : Bool) : Option Nat :=
  if isPartial then
    let need := 84 * (addedSlots s new).length
    if need > fibresFree s then none
    else some (need + 42 * min (keptFallback s new).length ((fibresFree s - need) / 42))
  else if structFibres new > 16 * spindlesIn s then none
  else some (structFibres new)

/-- The head of the job queue places its structure: PHASE 5, or CAPACITY. -/
def placeLoad (s : State) : State :=
  match s.wrp.load with
  | none => s
  | some x =>
    match placement s x.new x.partialLoad with
    | none => loadFail (0xA, 0xFFFF, 0) s
    | some n => s.modWrp (fun w => { w with load := some { x with placed := n, phase := 5 } })

/-! ### Reserve spindles (R96, R97) -/

/-- Spindles of the array that are not retired, in order. -/
def goodSpindles (s : State) : List Nat := (List.range 576).filter (fun i => !nbit s.wrp.spRetired i)

/-- The reserve that a handover takes. -/
def nextReserveSpindle (s : State) : Option Nat := (goodSpindles s)[512]?

/-- A spindle is retired: RESERVE_LOW when the reserve falls to the threshold (R24). -/
def retireSpindle (i : Nat) (s : State) : State :=
  let was := (reserveCounts s 0).2.1
  let s := s.modWrp (fun w => { w with spRetired := if nbit w.spRetired i then w.spRetired else w.spRetired + 2 ^ i })
  let left := (reserveCounts s 0).2.1
  let t := s.fld Reg.GLB_RES_THRESH 6 0
  if left ≤ t ∧ t < was then s.reserveLow else s

/-- The work of a retired spindle fits the spindles in service. -/
def workFits (s : State) : Bool := decide (fibresClaimed s ≤ 16 * spindlesIn s)

/-- A failed spindle with no reserve left (R97): it is retired, and its work moves to free fibres or waits for conversions. -/
def exhaust (i : Nat) (layers : List (Bool × Nat)) (s : State) : State :=
  let s := writeReserveMap [] (retireSpindle i s)
  s.modWrp (fun w => { w with
    jobs := .handover i layers (if workFits s then .shadow else .converting) none :: w.jobs.drop 1 })

/-- The weaver starts the job at the head of its queue, unless it runs already (R95, R96). -/
def weaverStart (s : State) : State :=
  match s.wrp.jobs with
  | [] => s
  | .handover i layers .queued _ :: rest =>
    match nextReserveSpindle s with
    | some r => s.modWrp (fun w => { w with jobs := .handover i layers .shadow (some r) :: rest })
    | none => exhaust i layers s
  | .handover .. :: _ => s
  | _ :: _ => match s.wrp.load with
    | some x => if x.phase < 5 then placeLoad s else s
    | none => s

/-- A job enters the queue, and starts where nothing waits before it. -/
def weaverQueue (j : Job) (s : State) : State :=
  let alone := s.wrp.jobs.isEmpty
  let s := s.modWrp (fun w => { w with jobs := w.jobs ++ [j] })
  if alone then weaverStart s else s

/-- WEAVER_JOB_START (R95). -/
def execWeaverJobStart (s : State) : Host.Outcome State Fault Refusal := .next (weaverStart s)

/-- SPINDLE_SELF_TEST_FAIL (R96): a spindle is retired before weaving. DESIGN CHOICE, log entry 52: no engagement is counted, since the
spindle served nothing. -/
def spindleSelfTestFail (i : Nat) (s : State) : State :=
  if nbit s.wrp.spRetired i ∨ s.wrp.active.isSome ∨ s.pwr.stage < 2 then s else writeReserveMap [] (retireSpindle i s)

/-- SPINDLE_SELF_TEST_FAIL (R96). -/
def execSpindleSelfTestFail (i : Fin 576) (s : State) : Host.Outcome State Fault Refusal := .next (spindleSelfTestFail i s)

/-- A fibre of a spindle in service fails a test vector; `layers` have work on the spindle (R96). -/
def testVectorFail (i : Nat) (layers : List (Bool × Nat)) (s : State) : State :=
  let queued := s.wrp.jobs.any (fun j => match j with
    | .handover k .. => k == i
    | _ => false)
  if queued ∨ s.wrp.active.isNone ∨ ¬ ((goodSpindles s).take 512).contains i then s
  else weaverQueue (.handover i layers .queued none) s

/-- TEST_VECTOR_FAIL (R96). -/
def execTestVectorFail (i : Fin 576) (layers : List (Bool × Fin 32)) (s : State) : Host.Outcome State Fault Refusal :=
  .next (testVectorFail i (layers.map (fun x => (x.1, x.2.val))) s)

/-- 64 samples of shadow comparison end; on a miscompare the reserve is retired and the next one tried (R25, R96). -/
def shadowCompareDone (matched : Bool) (s : State) : State :=
  match s.wrp.jobs with
  | .handover i layers .shadow onto :: rest =>
    if matched then s.modWrp (fun w => { w with jobs := .handover i layers .moving onto :: rest })
    else
      let s := s.modWrp (fun w => { w with miscompares := satAdd 0xFFFF w.miscompares 1 })
      match onto with
      | some r =>
        weaverStart ((writeReserveMap [] (retireSpindle r s)).modWrp (fun w => { w with jobs := .handover i layers .queued none :: rest }))
      | none => s
  | _ => s

/-- SHADOW_COMPARE_DONE (R96). -/
def execShadowCompareDone (matched : Bool) (s : State) : Host.Outcome State Fault Refusal := .next (shadowCompareDone matched s)

/-- The work moves at a slot boundary (R96, R97). -/
def reserveHandover (s : State) : State :=
  match s.wrp.jobs with
  | .handover i _ .moving onto :: rest =>
    let s := s.modWrp (fun w => { w with jobs := rest })
    match onto with
    | some _ => (engageReserve 0 (retireSpindle i s)).raise Reg.WRP_INT_STATUS 3
    | none => s
  | _ => s

/-- RESERVE_HANDOVER (R96). -/
def execReserveHandover (s : State) : Host.Outcome State Fault Refusal := .next (reserveHandover s)

/-! ### Fall-back (R97…R99) -/

/-- The order of conversion: layers with work on the failed spindle first, then downlink before uplink, highest *l* first. -/
def convertOrder (layers : List (Bool × Nat)) : List (Bool × Nat) :=
  let all := slotsUp.reverse
  all.filter layers.contains ++ all.filter (fun x => !layers.contains x)

/-- A layer slot that has fibres now. -/
def liveSlot (s : State) (x : Bool × Nat) : Bool := hasSlot s.warp x.1 x.2 && !withdrawn s x.1 x.2

/-- The layer is in fall-back. -/
def inFallback (s : State) (x : Bool × Nat) : Bool := nbit (if x.1 then s.wrp.fallUl else s.wrp.fallDl) x.2

/-- A layer enters fall-back: its holder is told (R99, Table 10-7). -/
def toFallback (x : Bool × Nat) (s : State) : State :=
  let s := s.modWrp (fun w => if x.1 then { w with fallUl := w.fallUl + 2 ^ x.2 } else { w with fallDl := w.fallDl + 2 ^ x.2 })
  let s := match s.holder x.1 x.2 with
    | some k => s.notice k 0x04 (b2n x.1 * 128 + x.2) (ofS 32 (-8900))
    | none => s
  s.raise Reg.WRP_INT_STATUS 4

/-- A whole layer slot is withdrawn, and its holder told (R97). -/
def withdraw (x : Bool × Nat) (s : State) : State :=
  let s := tellEnd x.1 [x.2] s.time.tb0 s
  let s := resetSlot 4 x.1 x.2 none (forgetSlots x.1 [x.2] s)
  let s := s.modWrp (fun w =>
    let drop := fun (m : Nat) => if nbit m x.2 then m - 2 ^ x.2 else m
    if x.1 then { w with withdrawnUl := w.withdrawnUl + 2 ^ x.2, fallUl := drop w.fallUl }
    else { w with withdrawnDl := w.withdrawnDl + 2 ^ x.2, fallDl := drop w.fallDl })
  s.raise Reg.WRP_INT_STATUS 5

/-- One conversion, at a slot boundary; the work moves once it fits (R97). -/
def fallbackConversion (s : State) : State :=
  match s.wrp.jobs with
  | .handover i layers .converting onto :: rest =>
    let order := (convertOrder layers).filter (liveSlot s)
    let s := match order.find? (fun x => !inFallback s x) with
      | some x => toFallback x s
      | none => match order.head? with
        | some x => withdraw x s
        | none => s
    s.modWrp (fun w => { w with jobs := .handover i layers (if workFits s then .shadow else .converting) onto :: rest })
  | _ => s

/-- FALLBACK_CONVERSION (R97). -/
def execFallbackConversion (s : State) : Host.Outcome State Fault Refusal := .next (fallbackConversion s)

/-! ### Staging and LOAD (R88, R443) -/

/-- Stage a word: nothing is staged while a load is in progress. -/
def wrpData (w : Word) (s : State) : State :=
  if s.wrp.load.isSome ∨ s.wrp.stage.words.length ≥ 4096 then
    (if s.wrp.load.isSome then s else s.modWrp (fun x => { x with stage := x.stage.push 4096 w })).refusedWrite Reg.WRP_DATA
  else s.modWrp (fun x => { x with stage := x.stage.push 4096 w })

/-- WRP_DATA_WRITE (R443). -/
def execWrpDataWrite (w : Word) (s : State) : Host.Outcome State Fault Refusal := .next (s.hosted Reg.WRP_DATA (wrpData w))

/-- WRP_STAGE_LEN. -/
def wrpStageLenWrite (w : Word) (s : State) : State :=
  if s.wrp.load.isSome then s.refusedWrite Reg.WRP_STAGE_LEN else s.setReg Reg.WRP_STAGE_LEN (w &&& 0x7FFF)

/-- A load is refused with STAGE (R88). -/
def badStage (s : State) (isPartial : Bool) : Bool :=
  if isPartial then decide (s.pwr.stage < 3) || s.pstate == .doze
  else !(s.pwr.stage == 2 || (s.pwr.stage == 3 && s.pstate == .idle))

/-- The bellwether relays a partial warp to its stack, in frames of up to 256 words (Table 12-5). -/
def relayWarp (b : List Byte) (s : State) : State :=
  forAll (List.range (divUp b.length 1024)) (fun i s =>
    let part := (b.drop (1024 * i)).take 1024
    relayControl 0x05 0 (beBytes 2 (256 * i) ++ beBytes 2 (part.length / 4) ++ part) s) s

/-- The checked structure becomes the load in progress. -/
def loadAccept (b : List Byte) (isPartial : Bool) (w : Structure) (s : State) : State :=
  let s := wrpStatus 3 0 (s.modWrp (fun x => { x with load := some { new := w, partialLoad := isPartial, placed := 0, phase := 4 } }))
  if isPartial ∧ isBellwether s ∧ ¬ (joinedOthers s).isEmpty then
    match placement s w true with
    | none => loadFail (0xA, 0xFFFF, 0) s
    | some _ => openVote .warp (relayWarp b s)
  else weaverQueue (if isPartial then .reweave else .load) s

/-- A load of bytes: STAGE, then the phases of Table 3-5; on a member of a stack a partial warp is refused (R324). -/
def loadBytes (b : List Byte) (s : State) : State :=
  let isPartial := nbit (byteAt b 0xE) 1
  let s := s.setFld Reg.WRP_STATUS 4 4 (b2n isPartial)
  if isPartial ∧ isStackMember s then loadFail (0x11, 0xFFFF, 0) s
  else if badStage s isPartial then loadFail (0xB, 0xFFFF, 0) s
  else match verifyWarp s b with
    | .inl e => loadFail e s
    | .inr w => loadAccept b isPartial w s

/-- A staged warp is partial, as far as its header is staged. -/
def stagedPartial (s : State) : Bool := nbit (byteAt s.wrp.stage.bytes 0xE) 1

/-- WRP_CTRL.LOAD (R88). -/
def wrpLoad (s : State) : State :=
  if s.wrp.load.isSome then wrpRefuse (0xD, 0xFFFF, 0) s
  else if stagedPartial s ∧ s.pwr.change.isSome then loadFail (0xD, 0xFFFF, 0) (s.setFld Reg.WRP_STATUS 4 4 1)
  else
    let n := s.fld Reg.WRP_STAGE_LEN 14 0
    if n % 4 ≠ 0 ∨ ¬ s.wrp.stage.fits (n / 4) then loadFail (1, 0xFFFF, 0) (s.setFld Reg.WRP_STATUS 4 4 (b2n (stagedPartial s)))
    else loadBytes s.wrp.stage.bytes s

/-- WRP_LOAD (R88). -/
def execWrpLoad (s : State) : Host.Outcome State Fault Refusal := .next (s.hosted Reg.WRP_CTRL wrpLoad)

/-- WRP_CTRL.ABORT: honoured until the commit phase (R91); an abandoned vote frees the members. -/
def wrpAbort (s : State) : State :=
  match s.wrp.load with
  | none => s
  | some x =>
    if x.phase ≥ 6 then s
    else
      let s := match s.cas.vote with
        | some (.warp, _) => relayControl 0x06 0 (beBytes 1 2) (s.modCas (fun c => { c with vote := none }))
        | _ => s
      loadFail (0xE, 0xFFFF, 0) s

/-- WRP_ABORT (R91). -/
def execWrpAbort (s : State) : Host.Outcome State Fault Refusal := .next (s.hosted Reg.WRP_CTRL wrpAbort)

/-- Empty the staging buffer. -/
def wrpClear (s : State) : State := s.modWrp (fun w => { w with stage := {} })

/-- WRP_CLEAR (R481). -/
def execWrpClear (s : State) : Host.Outcome State Fault Refusal := .next (s.hosted Reg.WRP_CTRL wrpClear)

/-- A write of WRP_CTRL: CLEAR, ABORT, LOAD (R481). -/
def wrpCtrlWrite (w : Word) (s : State) : State :=
  whenB (bitOf w 0) wrpLoad (whenB (bitOf w 1) wrpAbort (whenB (bitOf w 2) wrpClear s))

/-- The warp area of the flash (R446). -/
def qspiWarp (s : State) : List Byte :=
  let h := mread erased s.glb.flash 0x1010000 16
  mread erased s.glb.flash 0x1010000 (min 65536 (warpLength h))

/-- QSPI_WARP_LOAD (R45): the warp of the flash is loaded at stage 2 with WARP_SRC = 0. -/
def qspiWarpLoad (s : State) : State :=
  if s.pwr.stage ≠ 2 ∨ s.bit Reg.PWR_AON_START_CFG 20 ∨ s.wrp.load.isSome ∨ s.wrp.active.isSome then s
  else
    let keep := s.wrp.stage
    let s := loadBytes (qspiWarp s) s
    s.modWrp (fun w => { w with stage := keep })

/-- QSPI_WARP_LOAD (R45). -/
def execQspiWarpLoad (s : State) : Host.Outcome State Fault Refusal := .next (qspiWarpLoad s)

/-! ### Commit and switch (R91, R94) -/

/-- The bands of two carriers overlap. -/
def bandsMeet (a b : Carrier) : Bool :=
  decide ((carrierBand a).1 < (carrierBand b).2) && decide ((carrierBand b).1 < (carrierBand a).2)

/-- Groups are FDD or TDD as the carriers decide (R203). -/
def setFdd (s : State) : State :=
  forAll (List.range 8) (fun g s =>
    let dl := groupCarriers s false g
    let ul := groupCarriers s true g
    s.modGroup g (fun x => { x with fdd := !dl.isEmpty && !ul.isEmpty && !dl.any (fun d => ul.any (bandsMeet d)) })) s

/-- A full load lifts the mask of every chain that carries no fault (R159). -/
def liftMasks (s : State) : State :=
  forAll (List.range 64) (fun p s => s.modPath p (fun x => { x with maskTx := x.txFault != 0, maskRx := x.rxFault != 0 })) s

/-- A full warp commits: the whole structure is replaced at once (R91). -/
def fullCommit (new : Structure) (s : State) : State :=
  let s := fhpRestart (sknCommit (fhpCommit s))
  let s := (loadEnd s).modWrp (fun w => { w with
    active := some new, fallDl := 0, fallUl := 0, withdrawnDl := 0, withdrawnUl := 0 })
  let s := (s.setReg Reg.WRP_ACTIVE_ID (BitVec.ofNat 32 new.id)).setReg Reg.WRP_ACTIVE_REV (BitVec.ofNat 32 new.rev)
  let s := watchRoles (fun s => recheckRange (setFdd (synTuneAll new s))) s
  let s := monCommit (acqCommit (bdaCommit (dpdInitAll s)))
  let s := if s.pwr.stage = 2 then s.modNvs (fun v => { v with powerUpDone := false }) else s
  let s := casCommit (liftMasks s)
  (wrpStatus 1 0 (stampSwitch s)).raise Reg.WRP_INT_STATUS 0

/-- Carriers that a reweave affects: those that change, and those of slots that are added, removed or changed (R94). -/
def affectedCarriers (s : State) (new : Structure) : List Carrier :=
  let old := s.warp
  let car := fun (w : Structure) (ul : Bool) (c : Nat) => if ul then vget w.carUl c else vget w.carDl c
  let lay := fun (w : Structure) (ul : Bool) (l : Nat) => if ul then vget w.layUl l else vget w.layDl l
  let changed := [false, true].flatMap (fun ul => (List.range 4).flatMap (fun c =>
    if car old ul c = car new ul c then [] else [car old ul c, car new ul c]))
  let slots := slotsUp.flatMap (fun x =>
    if lay old x.1 x.2 = lay new x.1 x.2 then []
    else [(lay old x.1 x.2).bind (fun y => car old x.1 y.carrier), (lay new x.1 x.2).bind (fun y => car new x.1 y.carrier)])
  (changed ++ slots).filterMap id

/-- The slot in which the two slots before the switch are counted: the longest of the affected carriers. -/
def switchSlot (s : State) (new : Structure) : Nat :=
  match (affectedCarriers s new).map (fun k => slotTu k.scs) with
  | [] => msTu
  | l => l.foldl max 0

/-- The air time of the switch of a reweave whose loading completes now (R94). -/
def switchTime (s : State) (new : Structure) : Nat :=
  let t := switchSlot s new
  toAir s (boundaryFrom t (s.base + 2 * t))

/-- PHASE 5 ends: a full warp commits, and the holders of slots that a reweave removes are told of its switch (R91, R94). -/
def spindlesLoaded (s : State) : State :=
  match s.wrp.load, s.wrp.jobs with
  | some x, j :: _ =>
    let other : Bool := match j with
      | .handover .. => true
      | _ => false
    if other ∨ x.phase ≠ 5 then s
    else if ¬ x.partialLoad then fullCommit x.new s
    else
      let gone := removedSlots s x.new
      let at_ := switchTime s x.new
      let of := fun (ul : Bool) => (gone.filter (fun y => y.1 == ul)).map (·.2)
      tellEnd true (of true) at_ (tellEnd false (of false) at_ (s.modWrp (fun w => { w with load := some { x with phase := 6 } })))
  | _, _ => s

/-- SPINDLES_LOADED (R91). -/
def execSpindlesLoaded (s : State) : Host.Outcome State Fault Refusal := .next (spindlesLoaded s)

/-- Downlink carriers kept with another BACKOFF (R158). -/
def backoffChanged (old new : Structure) : List Nat :=
  (List.range 4).filter (fun c => match vget old.carDl c, vget new.carDl c with
    | some a, some b => a.backoff != b.backoff
    | _, _ => false)

/-- The reweave switches (R94). -/
def reweaveSwitch (s : State) : State :=
  match s.wrp.load with
  | none => s
  | some x =>
    if x.phase ≠ 6 then s
    else
      let new := { x.new with id := s.warp.id }
      let old := s.warp
      let added := addedSlots s new
      let gone := removedSlots s new
      let up := (keptFallback s new).take ((x.placed - 84 * added.length) / 42)
      let full := gone ++ added ++ up
      let clear := fun (m : Nat) (ul : Bool) (l : List (Bool × Nat)) => bitsOf 32 (fun i => nbit m i && !l.contains (ul, i))
      let s := forAll gone (fun y s => resetSlot 4 y.1 y.2 none (forgetSlots y.1 [y.2] s)) s
      let s := forAll added (fun y s => s.modSlot y.1 y.2 (fun _ => {})) s
      let s := (loadEnd s).modWrp (fun w => { w with
        active := some new
        fallDl := clear w.fallDl false full, fallUl := clear w.fallUl true full
        withdrawnDl := clear w.withdrawnDl false full, withdrawnUl := clear w.withdrawnUl true full })
      let s := s.setReg Reg.WRP_ACTIVE_REV (BitVec.ofNat 32 new.rev)
      let s := watchRoles (fun s => recheckRange (setFdd (synTuneAll new s))) s
      let cs := backoffChanged old new
      let s := forAll ((List.range 32).filter (fun l => match s.layer false l with
        | some y => cs.contains y.carrier && !added.contains (false, l)
        | none => false)) reloadBanks s
      (wrpStatus 1 0 (stampSwitch (fhpSwitch (uncarriedOut s)))).raise Reg.WRP_INT_STATUS 2

/-- REWEAVE_SWITCH (R94). -/
def execReweaveSwitch (s : State) : Host.Outcome State Fault Refusal := .next (reweaveSwitch s)

/-! ### A stacked reweave (R324) -/

/-- Every device has accepted the bellwether's partial warp. -/
def warpAgreed (s : State) : State :=
  match s.wrp.load with
  | none => s
  | some _ => weaverQueue .reweave (relayControl 0x06 0 (beBytes 1 1) s)

/-- A device has refused it, or has not voted. -/
def warpAbandoned (code : Nat) (s : State) : State := loadFail (code, 0xFFFF, 0) (relayControl 0x06 0 (beBytes 1 2) s)

/-- A member's vote on the partial warp it has staged: the code of its own first failing test, 0 to accept. -/
def warpVote (s : State) : Nat :=
  if s.wrp.load.isSome ∨ s.pwr.change.isSome then 0xD
  else if s.cas.warpOver then 1
  else if badStage s true then 0xB
  else match verifyWarp s s.cas.warpBytes with
    | .inl e => e.1
    | .inr w => if (placement s w true).isNone then 0xA else 0

/-- CONTROL WARP on a member: words are staged, and a whole warp is voted on. -/
def warpFrame (b : List Byte) (s : State) : State :=
  let off := 4 * be b 0 2
  let part := slice b 4 (4 * be b 2 2)
  let have_ := s.cas.warpBytes
  let s := s.modCas (fun c => { c with
    warpBytes := (if off = 0 then part else have_.take off ++ List.replicate (off - have_.length) 0 ++ part ++ have_.drop (off + part.length)).take 16384
    warpOver := if off = 0 then false else c.warpOver || decide (off > have_.length) || decide (off + part.length > 16384) })
  let n := s.cas.warpBytes.length
  if n ≥ 64 ∧ n ≥ warpLength s.cas.warpBytes then castVote 0x02 (warpVote s) s else s

/-- CONTROL COMMIT on a member: load the staged partial warp, or drop it. -/
def warpCommit (b : List Byte) (s : State) : State :=
  let bytes := s.cas.warpBytes
  let s := s.modCas (fun c => { c with warpBytes := [], warpOver := false })
  if byteAt b 0 ≠ 1 ∨ s.wrp.load.isSome then s
  else match verifyWarp s bytes with
    | .inl e => wrpRefuse e s
    | .inr w => loadAccept bytes true w (s.setFld Reg.WRP_STATUS 4 4 1)

/-! ### Registers computed from the state (R100) -/

/-- WRP_STATUS with its PHASE: 1 while words are staged for no load yet. -/
def wrpStatusView (s : State) : Word :=
  put (s.reg Reg.WRP_STATUS) 19 16 (match s.wrp.load with
    | some x => x.phase
    | none => if s.wrp.stage.words.isEmpty then 0 else 1)

/-- WRP_FIBRES. -/
def wrpFibres (s : State) : Word :=
  if s.wrp.active.isNone then 0 else pk [(16, fibresClaimed s), (0, fibresFree s)]

/-- WRP_SPINDLES. -/
def wrpSpindles (s : State) : Word :=
  if s.wrp.active.isNone then 0 else pk [(16, divUp (fibresClaimed s) 16), (0, spindlesIn s)]

/-- WRP_WEAVER. -/
def wrpWeaver (s : State) : Word :=
  let job := match s.wrp.jobs with
    | [] => 0
    | .load :: _ => 1
    | .reweave :: _ => 2
    | .handover _ _ .converting _ :: _ => 4
    | .handover .. :: _ => 3
  pk [(31, b2n (job != 0)), (28, job), (16, s.wrp.jobs.length - 1), (0, s.wrp.miscompares)]

end Sys2Proof.Machine
end

