-- ==== Sys2Proof/Machine/Stage.lean ====
section
/-!
DEFINITION. Rails, failures and stages: PMBus requests (R49, R53), the rollback to stage 0 (R50), stage 1 entry (R12, R42, R419),
shutdown (R406), and the fuses, records and pins a stage entry takes.
-/

namespace Sys2Proof.Machine

/-! ### Rails (R42, R49, R53, R57) -/

/-- Nominal VCORE of a performance level in mV (Table 2-7). -/
def vcoreNominal (l : Nat) : Nat := if l = 0 then 880 else if l = 1 then 800 else if l = 2 then 720 else 660

/-- VCORE ceiling of a performance level in mV (Table 2-7). -/
def vcoreCeiling (l : Nat) : Nat := vcoreNominal l + 40

/-- TRIM: steps of 10 mV above nominal. -/
def vcoreTrim (s : State) : Nat := min 4 ((s.pwr.vcore - vcoreNominal s.pwr.level) / 10)

/-- A rail. -/
def rail (s : State) (n : Nat) : Rail := vget s.pwr.rails n

/-- The rails of a group of Table 2-3, by their indexes in PWR_RAIL_CFG. -/
def railGroup (g : Nat) : List Nat :=
  if g = 1 then [0] else if g = 2 then [1, 2] else if g = 3 then [3, 4, 5] else if g = 4 then [6, 7] else []

/-- The supply record in force, with its FORMAT. -/
def supplyRecord (s : State) : Option (List Byte) :=
  match sysRec s 1 with
  | some b => if le b 0 2 = 1 then some b else none
  | none => none

/-- A field of the supply record: 0 without one. -/
def supplyField (s : State) (o n : Nat) : Nat := le ((supplyRecord s).getD []) o n

/-- The voltage the supply record gives a rail, in mV. -/
def supplyMv (s : State) (n : Nat) : Nat := supplyField s (6 + 4 * n) 2

/-- Note a PMBus command to a rail in PWR_PMB_STATUS. -/
def pmbNote (n cmd : Nat) (s : State) : State := (s.setFld Reg.PWR_PMB_STATUS 26 24 n).setFld Reg.PWR_PMB_STATUS 23 16 cmd

/-- The LINEAR16 mantissa of a voltage: the voltage times 2^−exponent, rounded half to even (R53). -/
def mantissaOf (exp : Int) (mv : Nat) : Nat :=
  (if exp < 0 then divEven (mv * 2 ^ (-exp).toNat : Nat) 1000 else divEven (mv : Nat) (1000 * 2 ^ exp.toNat)).toNat

/-- Request a voltage of a rail (R49, R53). -/
def railRequest (n mv : Nat) (why : RailWhy) (s : State) : State :=
  pmbNote n 0x21 (s.modRail n (fun r => { r with req := some { mv := mv, why := why }, mantissa := mantissaOf r.exp mv }))

/-- Request the rails of a group of Table 2-3; VDDQ waits for VDD2 (R42). -/
def requestGroup (g : Nat) (s : State) : State :=
  let s := s.modPwr (fun p => { p with climb := .rails g })
  forAll ((railGroup g).filter (· ≠ 7)) (fun n s => railRequest n (supplyMv s n) .climb s) s

/-- Every rail of a group is acknowledged. -/
def groupAcked (s : State) (g : Nat) : Bool := (railGroup g).all (fun n => (rail s n).acked)

/-! ### Back to stage 0 (R41, R50) -/

/-- A store write goes on across a loss of the core, with nobody left to tell. -/
def StoreWrite.orphan (w : StoreWrite) : StoreWrite := { w with origin := .shutdown }

/-- Everything above the always-on domain halts, the rails are off and safe bias is applied: stage 0 (R50). What the device keeps is
the always-on domain (R12, R41), its fuses and pins, the store with its writes (R411), the flash and the shutdown latch (R406). -/
def coreOff (s : State) : State :=
  { pending := s.pending, fuse := s.fuse, pins := s.pins, time := { aon := s.time.aon }
    aonRegs := s.aonRegs, glb := { flash := s.glb.flash }
    nvs := { store := s.nvs.store, rows := s.nvs.rows, rowRetired := s.nvs.rowRetired, running := s.nvs.running
             writes := s.nvs.writes.map StoreWrite.orphan, powerFail := s.nvs.powerFail }
    pwr := { stage := 0, rails := Vector.replicate 8 { acked := false, modeRead := false } }
    syn := { active := 2 }, bda := { sentinel := s.bda.sentinel }, thm := { shutdown := s.thm.shutdown }, rnd := s.rnd }

/-- A final failure (R50, R52, Table 2-4): the rollback, and its record. -/
def finalFailure (stage cause n : Nat) (s : State) : State :=
  let consec := min 15 (s.fld Reg.PWR_AON_WAKE_FAIL 15 12 + 1)
  let s := (coreOff s).modBda (fun d => { d with cause := if cause = 2 then 3 else if cause = 8 then 4 else 1 })
  s.setReg Reg.PWR_AON_WAKE_FAIL (pk [(31, 1), (12, consec), (8, n), (4, cause), (0, stage)])

/-- The stage that a failure of a rail or a reference names: the one being climbed to, or the present one (R50, R51). -/
def heldStage (s : State) : Nat := if s.pwr.stage = 0 then 1 else s.pwr.stage

/-- An acknowledged rail faults or loses power-good (R51). -/
def railFault (n : Nat) (s : State) : State := finalFailure (heldStage s) 2 n s

/-- The shutdown record's body, with the count increased by 1 (R422, Table 16-3). -/
def shutdownBody (s : State) (z stage : Nat) (t : Int) : List Byte :=
  let count := match sysRec s 7 with
    | some b => le b 8 4
    | none => 0
  leBytes 1 z ++ leBytes 1 stage ++ leBytes 2 (ofS 16 t) ++ leBytes 4 (secOf s.time.tb1) ++ leBytes 4 (satAdd 0xFFFFFFFF count 1)

/-- REQ of a state request (Table 2-15). -/
def reqCode : SleepReq → Nat
  | .doze => 1
  | .sentinel => 2
  | .safe => 3

/-- A thermal shutdown (R406, R407): the rollback with cause THERM_LATCH, and the shutdown record. -/
def shutdown (z : Nat) (t : Int) (s : State) : State :=
  let stage := heldStage s
  let body := shutdownBody s z stage t
  let slept := s.pwr.sleep
  let s := (finalFailure stage 8 0 s).modThm (fun x => { x with shutdown := true })
  let s := queueWrite { origin := .shutdown, base := sysBase 7, pitch := 0x800, type := 7, body := body } s
  match slept with
  | some x => s.setReg Reg.PWR_STATE_RESULT (pk [(24, 4), (16, 0x1D), (8, reqCode x.req), (0, 2)])
  | none => s

/-! ### Stage 1 entry (R12, R419, Table 16-3) -/

/-- The reserve map's parts (Table 16-7); the converters' registers show theirs from power-up calibration on (R119). -/
def reserveMapLoad (s : State) : State :=
  match sysRec s 6 with
  | none => s
  | some b =>
    let s := forAll (List.range 64) (pathFromMap b) (s.modWrp (fun w => { w with spRetired := le b 0 72 }))
    let s := forAll ((List.range 29).filter (nbit (le b 72 4))) (fun n s => s.modLane n (fun l => { l with state := .retired })) s
    let of := fun (i x : Nat) => (if i < 2 then 0 else 2) + x / 8 % 2
    let s := forAll (List.range 4) (fun i s =>
      let x := byteAt b (76 + i)
      let s := modReserve i (fun r => { r with state := x / 64, wired := x / 16 % 4, port := x / 8 % 2, pos := x % 8 }) s
      if x / 64 = 1 then
        steer i (4 * (x / 8 % 2) + x % 8) (s.modLane (reserveNumber i) (fun l => { l with port := of i x, pos := x % 8 }))
      else s) s
    let m := le b 80 2
    let s := s.modSyn (fun y => { y with
      reserve := min 3 (m / 256 % 16)
      roles := vall y.roles (fun r x => { x with unit := m / 16 ^ r % 16 })
      units := vall y.units (fun u x => { x with retired := nbit (byteAt b 82) u }) })
    let s := forAll ((List.range 36).filter (nbit (le b 84 5))) (fun i s =>
      s.modSensor i (fun x => { x with state := .retired })) s
    forAll (List.range 4) (fun i s =>
      let x := byteAt b (92 + i)
      s.modSensor (36 + i) (fun y => { y with
        state := if x / 64 = 0 then .spare else if x / 64 = 3 then .retired else .excluded, zone := x % 16 })) s

/-- The shutdown record is copied to THM_LAST_SD and THM_LAST_SD_S (R422). -/
def shutdownLoad (s : State) : State :=
  match sysRec s 7 with
  | none => s
  | some b =>
    (s.setReg Reg.THM_LAST_SD (pk [(31, 1), (24, byteAt b 0 % 16), (0, le b 2 2)])).setReg Reg.THM_LAST_SD_S
      (BitVec.ofNat 32 (le b 4 4))

/-- The pasture record that the device holds is in force if it is valid (R220, R221). -/
def pastureLoad (s : State) : State :=
  match sysRec s 5 with
  | some b => if pastureValid s b then pastureForce (some (pastureOf b)) s else s
  | none => s

/-- A new challenge of the debug unlock (R456). -/
def dbgDraw (s : State) : State :=
  let (n, s) := s.draw
  s.modGlb (fun g => { g with dbgNonce := (Config.challenge n).toNat })

/-- PWR_RAIL_CFG[n] from the supply record. -/
def railCfg (s : State) (n : Nat) : Word :=
  pk [(16, supplyMv s n), (8, supplyField s (5 + 4 * n) 1), (0, supplyField s (4 + 4 * n) 1 % 128)]

/-- Every record is read at stage 1 entry (R419). -/
def recordsLoad (s : State) : State :=
  let s := forAll (List.range 8) (fun n s => s.setReg (Reg.PWR_RAIL_CFG n) (railCfg s n)) s
  let s := (s.setReg Reg.CAS_STRAP (BitVec.ofNat 32 s.pins.cascId)).modNvs (fun v => { v with powerFail := false })
  shutdownLoad (pastureLoad (bdaReadRecord (drcStage1 (laneRecord (reserveMapLoad s)))))

/-- The core as it enters stage 1: every register at its reset value, the rails as they stand, all RF off (R12, Table 2-2). DESIGN CHOICE,
log entry 52: PWR_INT_STATUS is among the registers at reset, so the entry itself leaves STAGE_CHANGE clear. -/
def enterStage1 (s : State) : State :=
  let c := coreOff s
  let p := s.pwr
  let c := ((c.modPins (fun x => { x with jtagUnlocked := false })).modSyn (fun _ => { active := s.syn.active })).modPwr (fun _ =>
    { stage := 1, shlHold := p.shlHold, vcore := p.vcore
      rails := vall p.rails (fun _ r => { r with req := none }), wakeAt := p.wakeAt })
  dbgDraw (pastDraw (recordsLoad c))

end Sys2Proof.Machine
end

