-- ==== Sys2Proof/Machine/Level.lean ====
section
/-!
DEFINITION. Performance levels and the cadence margin: the trim of VCORE (R57), level changes and their refusals (R58, R69), and
cadence slips (R20).
-/

namespace Sys2Proof.Machine

/-! ### The margin (R21, R57) -/

/-- The margin in 0.1 % at the cadence of level `new` from the margin `m` at level `cur` (R21): *t*_a doubles per level. -/
def marginFor (m : Int) (cur new : Nat) : Int := 1000 - divEven ((1000 - m) * (2 ^ cur : Nat)) (2 ^ new)

/-- The margin reported last is below 6 % at a level; true without one. -/
def marginShort (s : State) (l : Nat) : Bool :=
  match s.pwr.margin with
  | some m => decide (marginFor m s.pwr.level l < 60)
  | none => true

/-- A request to VCORE is outstanding. -/
def vcoreBusy (s : State) : Bool := (rail s 1).req.isSome

/-- MARGIN_LOW sets, with its interrupt and its event (R57). -/
def marginLow (s : State) : State :=
  if s.pwr.marginLow then s
  else (s.modPwr (fun p => { p with marginLow := true })).event Reg.PWR_INT_STATUS 4 0 0

/-- The trim after a report (R57): one step up below 6 %, then a wait of 8 reports before a further step; at the ceiling MARGIN_LOW,
without a wait. DESIGN CHOICE, log entry 53: the ninth report after the acknowledgement is the first that may ask for a step. -/
def trimAfter (s : State) : State :=
  if vcoreBusy s ∨ s.pwr.change.isSome ∨ s.pwr.sleep.isSome ∨ s.pstate = .doze ∨ s.pwr.stage < 3 then s
  else
    let wait := decide (s.pwr.waitReports > 0)
    let s := s.modPwr (fun p => { p with waitReports := p.waitReports - 1 })
    match s.pwr.margin with
    | none => s
    | some m =>
      if m ≥ 60 then s
      else if s.pwr.vcore ≥ vcoreCeiling s.pwr.level then marginLow s
      else if wait then s
      else railRequest 1 (s.pwr.vcore + 10) .trim s

/-- VTRIM_STEP_DOWN (R57). -/
def trimDown (s : State) : State :=
  let high : Bool := match s.pwr.margin with
    | some m => decide (m ≥ 120)
    | none => false
  if ¬ high ∨ vcoreTrim s = 0 ∨ vcoreBusy s ∨ s.pwr.change.isSome ∨ s.pwr.sleep.isSome ∨ s.pstate = .doze ∨ s.pwr.stage < 3 then s
  else railRequest 1 (s.pwr.vcore - 10) .trim s

/-- VTRIM_STEP_DOWN (R57). -/
def execVtrimStepDown (s : State) : Host.Outcome State Fault Refusal := .next (trimDown s)

/-! ### Level changes (R58, R69) -/

/-- Post the outcome of a level change (R69): 1 DONE, 2 REFUSED with a code, 3 IN_PROGRESS. -/
def levelOutcome (outcome code : Nat) (s : State) : State :=
  let s := s.setFld Reg.PWR_LEVEL_STATUS 5 4 outcome
  if outcome = 1 then s.raise Reg.PWR_INT_STATUS 2
  else if outcome = 2 then (s.setFld Reg.PWR_LEVEL_STATUS 15 8 code).raise Reg.PWR_INT_STATUS 3
  else s

/-- A running change is refused: VCORE goes back to its old value, and the refusal follows (R58). -/
def levelRefuse (code : Nat) (s : State) : State :=
  match s.pwr.change with
  | none => s
  | some c => railRequest 1 c.oldMv .levelBack (s.modPwr (fun p => { p with change := some { c with phase := .back, code := code } }))

/-- A change or its rollback has ended. -/
def levelEnd (outcome code : Nat) (s : State) : State := levelOutcome outcome code (s.modPwr (fun p => { p with change := none }))

/-- VCORE of a faster level is acknowledged and a report has come: one step more, the change point, or MARGIN (R58). -/
def levelRaise (s : State) : State :=
  match s.pwr.change with
  | none => s
  | some c =>
    if c.phase ≠ .raise ∨ vcoreBusy s then s
    else if ¬ marginShort s c.new then s.modPwr (fun p => { p with change := some { c with phase := .point } })
    else if s.pwr.vcore < vcoreCeiling c.new then railRequest 1 (s.pwr.vcore + 10) .levelUp s
    else levelRefuse 0x03 s

/-- Swaps in progress go on in samples of the new period (R169). -/
def rebasePlies (old new : Nat) (s : State) : State :=
  let at_ : Int := (s.time.tb0 : Nat)
  let slot := fun (x : Slot) => { x with ply := x.ply.map (·.rebase old new at_) }
  let s := s.modSkn (fun k => { k with
    slotsDl := vall k.slotsDl (fun _ x => slot x), slotsUl := vall k.slotsUl (fun _ x => slot x) })
  s.modDpd (fun k => { k with paths := vall k.paths (fun _ x => { x with ply := x.ply.map (·.rebase (old / 2) (new / 2) at_) }) })

/-- The cadence changes: path-rate streams and predistortion start anew, plies go on in samples, and pending swaps keep their instants
(R58, R169). -/
def setLevel (l : Nat) (s : State) : State :=
  let s := rebasePlies (pathPeriod s.pwr.level) (pathPeriod l) s
  let s := (s.modPwr (fun p => { p with level := l })).modFhp (fun f => { f with
    dlIn := [], pathRows := [], pdRows := [], e2 := [], outRows := [], dac := [], ulSlips := [] })
  let s := stopStreamsIf (fun st => [0, 1, 4, 5].contains (srcCode s st)) s
  stepSwaps 0 (abortAttempts (fun _ => true) s)

/-- LEVEL_CHANGE_POINT (R58): the new cadence, or the old one back. -/
def levelPoint (s : State) : State :=
  match s.pwr.change with
  | none => s
  | some c =>
    match c.phase with
    | .point =>
      let s := setLevel c.new s
      if c.new < c.old then levelEnd 1 0 s
      else railRequest 1 (vcoreNominal c.new) .levelDown (s.modPwr (fun p => { p with change := some { c with phase := .lower } }))
    | .restore => levelRefuse c.code (setLevel c.old s)
    | .raise | .lower | .back => s

/-- LEVEL_CHANGE_POINT (R58). -/
def execLevelChangePoint (s : State) : Host.Outcome State Fault Refusal := .next (levelPoint s)

/-- A carrier of the committed warp is wider than a level's bandwidth (R58, Table 2-7). -/
def carrierTooWide (s : State) (l : Nat) : Bool :=
  (s.warp.carDl.toList ++ s.warp.carUl.toList).any (fun c => match c with
    | some c => decide (levelBw l < c.bw)
    | none => false)

/-- A monitor that covers an in-service region has no valid reading (R58). -/
def monitorMissing (s : State) : Bool :=
  (List.range 32).any (fun i => vget s.pwr.monInService i && (vget s.pwr.monitors i).isNone)

/-- A weaver load or reweave runs or is queued (R95). -/
def loadQueued (s : State) : Bool :=
  s.wrp.load.isSome || s.wrp.jobs.any (fun j => match j with
    | .handover .. => false
    | _ => true)

/-- A vote on a level is open (R324). -/
def levelVote (s : State) : Bool :=
  match s.cas.vote with
  | some (.level _, _) => true
  | _ => false

/-- The first refusal code of a change to level `l` (R58); 0 when none holds. A change to the level in force has none after BUSY. -/
def levelCode (s : State) (l : Nat) : Nat :=
  if s.pwr.stage < 3 then 2
  else if s.pstate ≠ .idle ∧ ¬ s.pwr.leavingDoze then 1
  else if s.pwr.change.isSome ∨ s.pwr.sleep.isSome ∨ s.pwr.leavingDoze ∨ loadQueued s ∨ levelVote s then 6
  else if l = s.pwr.level then 0
  else if l < 3 ∧ carrierTooWide s l then 5
  else if monitorMissing s ∨ s.pwr.margin.isNone then 4
  else if Config.marginAtCeiling (s.pwr.margin.getD 0) s.pwr.level l s.pwr.vcore < 60 then 3
  else 0

/-- A change begins (R58). -/
def levelBegin (l : Nat) (s : State) : State :=
  let up := decide (l < s.pwr.level)
  let c : LevelChange := { new := l, old := s.pwr.level, oldMv := s.pwr.vcore, phase := if up then .raise else .point }
  let s := (levelOutcome 3 0 s).modPwr (fun p => { p with change := some c, marginLow := false })
  if up then railRequest 1 (vcoreNominal l) .levelUp s else s

/-- The body of a LEVEL frame (Table 12-5): the change is at the first epoch boundary at least 25 ms ahead. -/
def levelBody (s : State) (l : Nat) : List Byte :=
  beBytes 1 l ++ beBytes 3 0 ++ timeBe (boundaryFrom epochTu (s.time.tb0 + 25 * msTu))

/-- PWR_LEVEL_REQ (R58): a member refuses it, and a bellwether puts it to the vote of its members (R324). -/
def levelReq (l : Nat) (s : State) : State :=
  if isStackMember s then levelOutcome 2 8 s
  else
    let code := levelCode s l
    if code ≠ 0 then levelOutcome 2 code s
    else if l = s.pwr.level then levelOutcome 1 0 s
    else if isBellwether s ∧ joinedOthers s ≠ [] then
      relayControl 0x09 0 (levelBody s l) (openVote (.level l) (levelOutcome 3 0 s))
    else levelBegin l s

/-- PWR_LEVEL_REQ: the register keeps the level. -/
def levelReqWrite (w : Word) (s : State) : State := levelReq (fld w 1 0) (s.setReg Reg.PWR_LEVEL_REQ (BitVec.ofNat 32 (fld w 1 0)))

/-- PWR_LEVEL_REQ (R58). -/
def execPwrLevelReq (l : BitVec 2) (s : State) : Host.Outcome State Fault Refusal :=
  .next (s.hosted Reg.PWR_LEVEL_REQ (levelReqWrite (l.setWidth 32)))

/-- Every member has accepted a level (R324). -/
def levelAgreed (l : Nat) (s : State) : State := levelBegin l s

/-- A vote on a level is lost: the members keep the level in force (R324). -/
def levelAbandoned (code : Nat) (s : State) : State := relayControl 0x09 0 (levelBody s s.pwr.level) (levelOutcome 2 code s)

/-- A LEVEL frame at a member (R324): it votes and begins its change; one that names the level in force ends a change begun. -/
def levelFrame (b : List Byte) (s : State) : State :=
  let l := byteAt b 0 % 4
  if l = s.pwr.level then
    match s.pwr.change with
    | some _ => levelRefuse 0 s
    | none => s
  else
    let code := levelCode s l
    let s := castVote 1 code s
    if code = 0 then levelBegin l s else s

/-! ### Reports and slips (R20, R57) -/

/-- A report of the monitors: by region, whether it holds spindles in service, and its margin in 0.1 %. -/
def cadenceReport (r : List (Bool × Option Int)) (s : State) : State :=
  let at_ := fun i => r.getD i (false, none)
  let valid := (List.range 32).filterMap (fun i => if (at_ i).1 then (at_ i).2 else none)
  let m := match valid with
    | [] => none
    | x :: xs => some (xs.foldl min x)
  let s := s.modPwr (fun p => { p with
    monitors := vall p.monitors (fun i _ => (at_ i).2), monInService := vall p.monInService (fun i _ => (at_ i).1), margin := m
    least := match p.least, m with
      | some a, some b => some (min a b)
      | none, m => m
      | a, none => a
    marginLow := p.marginLow && (match m with
      | some x => decide (x < 60)
      | none => true) })
  let s := s.setReg Reg.PWR_MARGIN (pk [(16, ofS 16 (s.pwr.least.getD 0)), (0, ofS 16 (m.getD 0))])
  trimAfter (levelRaise s)

/-- CADENCE_REPORT (R57). -/
def execCadenceReport (r : List (Bool × Option Int)) (s : State) : Host.Outcome State Fault Refusal :=
  .next (if s.pwr.stage ≥ 3 then cadenceReport r s else s)

end Sys2Proof.Machine
end

