-- ==== Sys2Proof/Machine/Sleep.lean ====
section
/-!
DEFINITION. The sleep sequence (R61…R64, R482), the way out of Doze (R60) and the wake sources (R65…R67).
-/

namespace Sys2Proof.Machine

/-! ### Results (R62, Table 2-15) -/

/-- Post the result of a state request: 1 DONE, 2 REFUSED, 3 IN_PROGRESS; a refusal is copied into the last-refusal record. -/
def stateResult (outcome : Nat) (req : SleepReq) (block code : Nat) (s : State) : State :=
  let w := pk [(24, block), (16, code), (8, reqCode req), (0, outcome)]
  let s := s.setReg Reg.PWR_STATE_RESULT w
  if outcome = 1 then s.raise Reg.PWR_INT_STATUS 0
  else if outcome = 2 then
    ((s.setReg Reg.PWR_LAST_REFUSAL w).setReg Reg.PWR_LAST_REFUSAL_TIME (BitVec.ofNat 32 (s.time.tb1 / usTu))).raise Reg.PWR_INT_STATUS 1
  else s

/-! ### The steps of Table 2-9 -/

/-- BLOCK and CODE of the refusal of a step; `late` tells that its time has passed. -/
def stepRefusal (s : State) (step : Nat) (late : Bool) : Option (Nat × Nat) :=
  let no := fun (b : Bool) (block code : Nat) => if b then some (block, code) else none
  match step with
  | 1 => no (!streamsQuiet s) 0x10 0x11
  | 2 => no (dmaActive s) 0x11 0x12
  | 3 => no (s.fft.toList.any (fun e => !e.queue.isEmpty)) 0x0A 0x13
  | 4 => no (!s.dpd.surveys.isEmpty) 0x0B 0x14
  | 5 => no (s.rad.groups.toList.any (fun g => g.state != .off || g.trans.isSome || !g.bursts.isEmpty)) 0x08 0x15
  | 6 => no (s.fhp.flocks.toList.any (fun f => !f.deferred.isEmpty)) 0x0C 0x16
  | 8 => no (late && !drcMaySleep s) 0x12 0x17
  | 9 => no (laneRetraining s) 0x0D 0x18
  | 10 => no (!s.wrp.jobs.isEmpty) 0x02 0x19
  | _ => none

/-- A step waits: for the running jobs, the solver step, the training lock, a level change or the store. -/
def stepWaits (s : State) (step : Nat) : Bool :=
  match step with
  | 3 => !fftIdle s
  | 4 => s.dpd.solver.isSome
  | 8 => !drcMaySleep s
  | 10 => s.pwr.change.isSome
  | 11 => storeWriting s
  | _ => false

/-- The synthesisers and the converter-clock PLL are off (step 7). -/
def loopsOff (s : State) : State :=
  refreshMutes (s.modSyn (fun y => { y with cnvLock := false, holdover := false, units := vall y.units (fun _ u => { u with locked := false }) }))

/-- The converter-clock PLL has relocked; a role lost before is valid again where its unit has lock. -/
def clockBack (s : State) : State :=
  let s := s.modSyn (fun y => { y with cnvLock := decide (y.active < 2) && !y.refGone, holdover := y.refGone })
  let back := (List.range 2).filter (fun r => (vget s.syn.roles r).lost)
  refreshMutes (forAll back (fun r s => noticeRole r true (markResume r s)) s)

/-- The loops that step 7 stopped have relocked. -/
def loopsBack (s : State) : State :=
  clockBack (s.modSyn (fun y => { y with
    units := vall y.units (fun _ u => { u with locked := u.on && !u.retired && !u.cal, search := false }) }))

/-- The lanes at step 9: parked for Doze and Safe, off for Sentinel. A dozing device says so to its neighbours, and a member leaves
the stack until it wakes (R324). -/
def lanesPark (req : SleepReq) (s : State) : State :=
  match req with
  | .doze =>
    let s := s.modCas (fun c => { c with dozing := true })
    let s := if s.cas.role = 0 then s else helloSend 1 (helloSend 0 s)
    lanesToL2 (if s.cas.role = 2 then unjoin 0 s else s)
  | .safe => lanesToL2 s
  | .sentinel => lanesOff s

/-- Step 4 ends every attempt but that of a running solve (R198). -/
def adaptEnd (s : State) : State := abortAttempts (fun p => s.dpd.solver != some p) s

/-- What a step does at once when it has to wait: attempts other than the running solve's end (R198). -/
def stepHold (step : Nat) (s : State) : State := if step = 4 then adaptEnd s else s

/-- What a step does. -/
def stepAction (req : SleepReq) (step : Nat) (s : State) : State :=
  match step with
  | 1 => monStop s
  | 4 => adaptEnd s
  | 6 => flushTick (s.noticeAll 0x01 0 0)
  | 7 => loopsOff s
  | 8 => drcSleep s
  | 9 => lanesPark req s
  | 10 => railRequest 1 620 .sleepVcore s
  | 12 => globalSafe 1 s
  | _ => s

/-- A step is undone (R62). -/
def stepUndo (step : Nat) (s : State) : State :=
  match step with
  | 9 => lanesBack (s.modCas (fun c => { c with dozing := false }))
  | 8 => drcWake s
  | 7 => loopsBack s
  | 6 => s.noticeAll 0x02 0 0
  | 1 => forAll ((List.range 8).filter (foldOn s)) monRestart s
  | _ => s

/-- The blocks already stopped restart in reverse order, and the request is REFUSED (R62). -/
def sleepRollback (block code : Nat) (s : State) : State :=
  match s.pwr.sleep with
  | none => s
  | some x =>
    let steps := ((List.range 14).filter (fun k => decide (x.first ≤ k) && decide (k < x.step))).reverse
    stateResult 2 x.req block code ((forAll steps stepUndo s).modPwr (fun p => { p with sleep := none }))

/-- VCORE has been asked down by the running sequence. -/
def sleepLow (s : State) : Bool :=
  match s.pwr.sleep with
  | none => false
  | some x => x.first == 1 && (decide (x.step > 10) || (x.step == 10 && (match (rail s 1).req with
    | some q => q.why == .sleepVcore
    | none => false)))

/-- A step refuses: VCORE goes back first where it was asked down (R62). -/
def sleepRefuse (low : Bool) (block code : Nat) (s : State) : State :=
  match s.pwr.sleep with
  | none => s
  | some x =>
    if x.refusing.isSome then s
    else if low then railRequest 1 x.mv .sleepBack (s.modPwr (fun p => { p with sleep := some { x with refusing := some (block, code) } }))
    else sleepRollback block code s

/-- The last step of a request. -/
def lastStep : SleepReq → Nat
  | .doze => 10
  | .safe => 12
  | .sentinel => 13

/-- The sequence is complete: Doze, stage 1 held (R48), or Sentinel. -/
def sleepDone (req : SleepReq) (s : State) : State :=
  let s := s.modPwr (fun p => { p with sleep := none })
  match req with
  | .doze => stateResult 1 .doze 0 0 (timDoze ((s.modPwr (fun p => { p with marginLow := false })).modPState (fun _ => .doze)))
  | .safe => stateResult 1 .safe 0 0 (enterStage1 (s.modPwr (fun p => { p with shlHold := true, vcore := 800 })))
  | .sentinel => coreOff s

/-- Run the steps from the present one until one waits or refuses. -/
def sleepRun (late : Bool) : Nat → State → State
  | 0, s => s
  | n + 1, s =>
    match s.pwr.sleep with
    | none => s
    | some x =>
      match stepRefusal s x.step late with
      | some (b, c) => sleepRefuse (sleepLow s) b c s
      | none =>
        if stepWaits s x.step then stepHold x.step s
        else
          let s := stepAction x.req x.step s
          if x.step = 10 then s
          else if x.step = lastStep x.req then sleepDone x.req s
          else sleepRun false n (s.modPwr (fun p => { p with sleep := some { x with step := x.step + 1 } }))

/-- VCORE is at 0.62 V: step 10 is complete. -/
def sleepGoOn (s : State) : State :=
  match s.pwr.sleep with
  | none => s
  | some x =>
    if x.req = .doze then sleepDone .doze s
    else sleepRun false 14 (s.modPwr (fun p => { p with sleep := some { x with step := 11 } }))

/-- SLEEP_STEP_DONE (R61): what the step waited for is over, or its time is (`late`). -/
def sleepStepDone (late : Bool) (s : State) : State :=
  match s.pwr.sleep with
  | none => s
  | some x =>
    if x.refusing.isSome ∨ sleepLow s ∧ x.step = 10 then s
    else
      -- a solve that step 4 let finish goes on with its swap (R198)
      let s := if x.step = 4 ∧ s.dpd.surveys.isEmpty ∧ ¬ stepWaits s 4 then
          s.modPwr (fun p => { p with sleep := some { x with step := 5 } })
        else s
      sleepRun late 14 s

/-- SLEEP_STEP_DONE (R61). -/
def execSleepStepDone (late : Bool) (s : State) : Host.Outcome State Fault Refusal := .next (sleepStepDone late s)

/-! ### Requests (R61, R63, R482, R324) -/

/-- Begin a sequence at a step. -/
def sleepBegin (req : SleepReq) (first : Nat) (s : State) : State :=
  let s := (stateResult 3 req 0 0 s).modPwr (fun p => { p with
    sleep := some { req := req, first := first, step := first, mv := p.vcore }, climb := .none })
  sleepRun false 14 s

/-- The downstream neighbour of a device in stacked mode is joined and awake (R324). -/
def stackAwake (s : State) : Bool := s.stacked && (vget s.cas.nbrs 1).state == 2

/-- A state request. -/
def stateRequest (req : SleepReq) (s : State) : State :=
  let p := s.pwr
  if p.sleep.isSome ∨ p.leavingDoze then stateResult 2 req 1 0x1A s
  else
    match req with
    | .doze =>
      if p.stage < 3 then stateResult 2 .doze 1 0x1E s
      else if s.pstate = .doze then stateResult 1 .doze 0 0 s
      else if stackAwake s then stateResult 2 .doze 0x0F 0x1C s
      else sleepBegin .doze 1 s
    | .sentinel => sleepBegin .sentinel (if p.stage < 3 ∨ s.pstate = .doze then 11 else 1) s
    | .safe =>
      if p.stage < 3 ∨ s.pstate = .doze then stateResult 2 .safe 1 0x1E s
      else if s.pstate = .service then stateResult 2 .safe 8 0x15 s
      else sleepBegin .safe 1 s

/-- PWR_STATE_REQ_DOZE (R61). -/
def execPwrStateReqDoze (s : State) : Host.Outcome State Fault Refusal := .next (s.hosted Reg.PWR_STATE_REQ (stateRequest .doze))

/-- PWR_STATE_REQ_SENTINEL (R61). -/
def execPwrStateReqSentinel (s : State) : Host.Outcome State Fault Refusal :=
  .next (s.hosted Reg.PWR_STATE_REQ (stateRequest .sentinel))

/-- GOTO_SAFE (R48). -/
def execGotoSafe (s : State) : Host.Outcome State Fault Refusal := .next (s.hosted Reg.PWR_STAGE_CTRL (stateRequest .safe))

/-- A write of PWR_STATE_REQ: STATE 1 or 2; others are ignored. -/
def stateReqWrite (w : Word) (s : State) : State :=
  match fld w 1 0 with
  | 1 => stateRequest .doze s
  | 2 => stateRequest .sentinel s
  | _ => s

/-- No flock holds an allocation. -/
def noAllocation (s : State) : Bool := (List.range 8).all (fun k => !s.holdsAny true k && !s.holdsAny false k)

/-- AUTO_DOZE (R64). -/
def autoDoze (s : State) : State :=
  if s.bit Reg.PWR_AUTO_DOZE 31 ∧ s.pwr.stage ≥ 3 ∧ s.pstate = .idle ∧ s.pwr.sleep.isNone ∧ noAllocation s then stateRequest .doze s
  else s

/-- AUTO_DOZE (R64). -/
def execAutoDoze (s : State) : Host.Outcome State Fault Refusal := .next (autoDoze s)

/-! ### Leaving Doze (R60, R148, R245, R292, R357) -/

/-- Every unit in service begins its VCO calibration as it relocks (R148). -/
def relockBegin (s : State) : State :=
  let t := (vget s.thm.zones 10).temp
  s.modSyn (fun y => { y with
    units := vall y.units (fun u x => if x.on && (unitRole s u).isSome then { x with cal := true, calTemp := t, search := false } else x) })

/-- A unit in service still calibrates. -/
def relocking (s : State) : Bool := (List.range 2).any (fun r => (vget s.syn.roles r).used && (roleUnit s r).cal)

/-- DOZE_EXIT_DONE (R60): the calibrations of R148 have ended, and the device is in Idle. A device that was at stage 4 waits at stage 3
for TB0 (R47). `mr4` is read and the DQS drift measured as the memory leaves self-refresh. -/
def dozeExitDone (mr4 : Option Nat) (drift : Int) (s : State) : State :=
  if ¬ s.pwr.leavingDoze ∨ vcoreBusy s ∨ relocking s then s
  else
    let refreshed := s.drc.state == .selfRefresh
    let s := lanesBack ((jobsResume (clockBack s)).modCas (fun c => { c with dozing := false }))
    let s := if refreshed then dqsCheck drift (readMr4 mr4 (drcWake s)) else s
    let s := forAll ((List.range 8).filter (foldOn s)) monRestart s
    let s := timStart (s.noticeAll 0x02 0 0)
    if s.pwr.stage = 4 then
      ((s.modPwr (fun p => { p with leavingDoze := false, stage := 3 })).modPState (fun _ => .idle)).raise Reg.PWR_INT_STATUS 8
    else (s.modPwr (fun p => { p with leavingDoze := false })).modPState (fun _ => .idle)

/-- DOZE_EXIT_DONE (R60). -/
def execDozeExitDone (mr4 : Option (Fin 8)) (drift : Int) (s : State) : Host.Outcome State Fault Refusal :=
  .next (dozeExitDone (mr4.map (·.val)) drift s)

/-! ### Wake sources (R52, R65, R66) -/

/-- A source is enabled, and not masked after 8 failures (R52). -/
def wakeEnabled (s : State) (src : Nat) : Bool :=
  s.bit Reg.PWR_AON_WAKE_EN src &&
    !(decide (s.fld Reg.PWR_AON_WAKE_FAIL 15 12 ≥ 8) && [0, 2, 4, 5].contains src)

/-- Record a wake (R66): sources of the same tick are one wake, with the lowest as SOURCE. -/
def recordWake (src cmd : Nat) (s : State) : State :=
  if s.pwr.wakeAt = some s.time.aon then
    let w := s.reg Reg.PWR_AON_LAST_WAKE
    let low := fld w 2 0
    s.setReg Reg.PWR_AON_LAST_WAKE (pk [(8, if src < low then cmd else fld w 15 8), (3, min 7 (fld w 5 3 + 1)), (0, min low src)])
  else
    let s := s.modPwr (fun p => { p with wakeAt := some s.time.aon })
    (s.setReg Reg.PWR_AON_LAST_WAKE (pk [(8, cmd), (0, src)])).setReg Reg.PWR_AON_LAST_WAKE_TIME (BitVec.ofNat 32 (secOf s.time.aon))

/-- A climb begins in Sentinel: it fails at once on a latched shutdown or a bad supply record; else group 1 is requested (R42, R49). -/
def climbBegin (hold : Bool) (s : State) : State :=
  if s.thm.shutdown then finalFailure 1 8 0 s
  else if (supplyRecord s).isNone then finalFailure 1 3 0 s
  else requestGroup 1 (s.modPwr (fun p => { p with shlHold := hold, vcore := supplyMv s 1 }))

/-- A sleep or a rest that a wake source can end. -/
inductive Resting where
  | sentinel | doze | sequence | other
  deriving DecidableEq, Repr

/-- Where the device stands for a wake source: in Sentinel with no climb, in Doze, in a sleep sequence, or awake. -/
def resting (s : State) : Resting :=
  if s.pwr.off then .other
  else if s.pwr.sleep.isSome then .sequence
  else if s.pwr.stage = 0 then (if s.pwr.climb = .none then .sentinel else .other)
  else if s.pstate = .doze ∧ s.pwr.stage ≥ 3 ∧ ¬ s.pwr.leavingDoze then .doze
  else .other

/-- A wake source asserts (R41, R63, R65, R66): a climb from Sentinel, the way to Idle from Doze, or the end of a running sequence; a wake
event ends every survey (R200), of which Sentinel and Doze have none.
A source that asserts with the one that has just woken the device is counted. -/
def wake (src cmd : Nat) (s : State) : State :=
  if s.pins.rstLow ∨ ¬ wakeEnabled s src ∨ s.pwr.off then s
  else
    match resting s with
    | .sentinel => climbBegin (cmd == 2) (recordWake src cmd s)
    | .doze =>
      railRequest 1 (vcoreNominal s.pwr.level) .dozeExit
        ((relockBegin (recordWake src cmd s)).modPwr (fun p => { p with leavingDoze := true }))
    | .sequence =>
      let s := recordWake src cmd (surveyAbort s)
      sleepRefuse (sleepLow s) 0xFF 0x1B s
    | .other => surveyAbort (if s.pwr.wakeAt = some s.time.aon then recordWake src cmd s else s)

/-- A frame wakes the device now, or together with the source that has just woken it (R65…R67). -/
def wakesNow (s : State) : Bool := !s.pwr.off && (decide (resting s ≠ .other) || s.pwr.wakeAt == some s.time.aon)

/-- SHIELING_FRAME (R67): a recognised frame of the receiver. -/
def shieling (site cmd : Nat) (crcOk : Bool) (s : State) : State :=
  if ¬ s.bit Reg.PWR_AON_SHL_CFG 31 ∨ s.pins.rstLow ∨ s.pwr.off then s
  else
    let good := crcOk && site == s.fld Reg.PWR_AON_SHL_CFG 23 0 && (cmd == 1 || cmd == 2)
    if good ∧ wakeEnabled s 0 ∧ wakesNow s then wake 0 cmd (s.addLo Reg.PWR_AON_SHL_COUNT 1)
    else s.addHi Reg.PWR_AON_SHL_COUNT 1

/-- SHIELING_FRAME (R67): its site code, its command, and its check word. -/
def execShielingFrame (site : BitVec 24) (cmd crc : BitVec 8) (s : State) : Host.Outcome State Fault Refusal :=
  .next (shieling site.toNat cmd.toNat (crc.toNat == crc8 (beBytes 3 site.toNat ++ beBytes 1 cmd.toNat)) s)

/-- WAKE_N_LOW (R65). -/
def execWakeNLow (s : State) : Host.Outcome State Fault Refusal := .next (wake 1 0 s)

/-- AON_TIMER_ALARM (R65). -/
def execAonTimerAlarm (s : State) : Host.Outcome State Fault Refusal := .next (wake 2 0 s)

/-- SPI_CHIP_SELECT_WAKE (R65). -/
def execSpiChipSelectWake (s : State) : Host.Outcome State Fault Refusal := .next (wake 3 0 s)

/-- FRONTHAUL_SIGNAL_DETECT (R65, R245): the lane that serves position 0 sees signal, a wake source in Doze alone. -/
def execFronthaulSignalDetect (q : Fin 2) (s : State) : Host.Outcome State Fault Refusal :=
  .next (if s.pwr.stage ≥ 3 ∧ s.pstate = .doze then
    wake 4 0 (s.modLane (servingLane s q 0) (fun l => { l with sig := l.sig || l.state == .l2 }))
    else s)

/-- THERMAL_WAKE_CROSSING (R65). -/
def execThermalWakeCrossing (s : State) : Host.Outcome State Fault Refusal := .next (wake 5 0 s)

end Sys2Proof.Machine
end

