-- ==== Sys2Proof/Machine/Power.lean ====
section
/-!
DEFINITION. The start of the device: its supply pins and reset (R35, R40, R41), the answers of the regulator (R49…R55), the references
(R43), the firmware image (R44, R447), the climb from stage to stage (R35, R44…R47), and the samples of the thermal unit (R400, R406).
-/

namespace Sys2Proof.Machine

/-! ### Supply and reset pins (R35, R40, R41, R413) -/

/-- VSEN_RISE (R35, R413): Sentinel, with the always-on registers at reset; the store's remapping is that of its tags. -/
def vsenRise (s : State) : State :=
  copySentinel
    { pending := s.pending, fuse := s.fuse, pins := s.pins, glb := { flash := s.glb.flash }
      nvs := { store := s.nvs.store, rows := s.nvs.rows, rowRetired := s.nvs.rowRetired }
      pwr := { stage := 0, rails := Vector.replicate 8 { acked := false, modeRead := false } }
      syn := { active := 2 }, rnd := s.rnd }

/-- VSEN_RISE (R35). -/
def execVsenRise (s : State) : Host.Outcome State Fault Refusal := .next (if s.pwr.off then vsenRise s else s)

/-- VSEN_FALL (R40): Off. A store write that its warning let run has ended (R418). -/
def vsenFall (s : State) : State :=
  let s := match s.nvs.writes with
    | w :: _ => if s.nvs.running then commitWrite w s else s
    | [] => s
  ((vsenRise s).modPwr (fun p => { p with off := true })).modBda (fun b => { b with sentinel := [] })

/-- VSEN_FALL (R40). -/
def execVsenFall (s : State) : Host.Outcome State Fault Refusal := .next (if s.pwr.off then s else vsenFall s)

/-- XTAL_OK (R40). -/
def execXtalOk (s : State) : Host.Outcome State Fault Refusal :=
  .next (if s.pwr.off then s else s.setFld Reg.PWR_AON_START_CFG 31 31 1)

/-- RST_N_ASSERT (R41): the rollback, without a record. -/
def execRstNAssert (s : State) : Host.Outcome State Fault Refusal :=
  let t := if s.pwr.off then s else coreOff s
  .next (t.modPins (fun p => { p with rstLow := true }))

/-- RST_N_RELEASE (R41). -/
def execRstNRelease (s : State) : Host.Outcome State Fault Refusal := .next (s.modPins (fun p => { p with rstLow := false }))

/-! ### Requests of rails (R49, R51, R54, R55) -/

/-- What goes on once a rail is acknowledged (R54). -/
def railAcked (n : Nat) (q : RailReq) (s : State) : State :=
  match q.why with
  | .climb =>
    match s.pwr.climb with
    | .rails g =>
      if n = 6 then railRequest 7 (supplyMv s 7) .climb s
      else if ¬ groupAcked s g then s
      else if g < 4 then requestGroup (g + 1) s
      else s.modPwr (fun p => { p with climb := .refCount false })
    | _ => s
  | .trim => s.raise Reg.PWR_INT_STATUS 5
  | .levelDown => levelEnd 1 0 s
  | .levelBack => levelEnd 2 ((s.pwr.change.map (·.code)).getD 0) s
  | .sleepVcore => sleepGoOn s
  | .sleepBack =>
    match s.pwr.sleep with
    | some x => sleepRollback ((x.refusing.map (·.1)).getD 0) ((x.refusing.map (·.2)).getD 0) s
    | none => s
  | .pl0 | .levelUp | .dozeExit => s

/-- A rail is acknowledged; VCORE has its new voltage, and a step up of the trim waits 8 reports (R54, R57). -/
def railUp (n : Nat) (q : RailReq) (s : State) : State :=
  let up := decide (q.mv > s.pwr.vcore)
  let s := pmbNote n 0x79 (s.modRail n (fun r => { r with req := none, acked := true }))
  if n = 1 then s.modPwr (fun p => { p with
      vcore := q.mv, waitReports := if q.why = .trim ∧ up then 8 else p.waitReports }) else s

/-- A rail is acknowledged: power-good and a clean STATUS_WORD (R54). -/
def railDone (n : Nat) (q : RailReq) (s : State) : State := railAcked n q (railUp n q s)

/-- The request of a rail succeeds (R49, R53): at the first one VOUT_MODE has been read, which must be linear. -/
def pmbusDone (n : Nat) (mode : Nat) (s : State) : State :=
  match (rail s n).req with
  | none => s
  | some q =>
    if q.waiting then s
    else if ¬ (rail s n).modeRead ∧ mode / 32 ≠ 0 then finalFailure (heldStage s) 4 n s
    else
      let s := if (rail s n).modeRead then s else
        s.modRail n (fun r => { r with modeRead := true, exp := toS 5 mode, mantissa := mantissaOf (toS 5 mode) q.mv })
      railDone n q s

/-- PMBUS_TRANSACTION_DONE (R54): `mode` is the VOUT_MODE byte read at the rail's first request. -/
def execPmbusTransactionDone (n : Fin 8) (mode : BitVec 8) (s : State) : Host.Outcome State Fault Refusal :=
  .next (pmbusDone n mode.toNat s)

/-- A rail request has failed its four attempts (R49, R57, R58, R62). DESIGN CHOICE, log entry 53: a step of the trim that fails is
dropped, and a request of the old VCORE that fails ends the change REFUSED with its earlier code. -/
def railGaveUp (n : Nat) (q : RailReq) (s : State) : State :=
  let cause := if q.sawFault then 2 else 1
  let s := (s.modRail n (fun r => { r with req := none })).setFld Reg.PWR_PMB_STATUS 7 0 cause
  match q.why with
  | .climb | .pl0 => finalFailure (s.pwr.stage + 1) cause n s
  | .trim => s
  | .levelUp => levelRefuse 7 s
  | .levelDown =>
    s.modPwr (fun p => { p with change := p.change.map (fun c => { c with phase := .restore, code := 7 }) })
  | .levelBack => levelEnd 2 ((s.pwr.change.map (·.code)).getD 0) s
  | .sleepVcore => sleepRefuse true 0x02 0x1F s
  | .sleepBack => finalFailure s.pwr.stage 2 n s
  | .dozeExit => finalFailure s.pwr.stage cause n s

/-- A failed attempt (R49, R55): counted, logged, and tried again after 1 ms or given up after the fourth. -/
def attemptFailed (n : Nat) (why : PmbWhy) (s : State) : State :=
  match (rail s n).req with
  | none => s
  | some q =>
    if q.waiting then s
    else
      let s := s.raise Reg.PWR_INT_STATUS 6
      let s := match why with
        | .nak => (s.addHi Reg.PWR_PMB_ERR_COUNT 1).viol 5 n 1 0
        | .pec => (s.addHi Reg.PWR_PMB_ERR_COUNT 1).viol 5 n 2 0
        | .timeout => (s.addLo Reg.PWR_PMB_ERR_COUNT 1).viol 5 n 3 0
        | .fault => s.viol 5 n 4 0
      let q := { q with sawFault := q.sawFault || why == .fault }
      if q.attempts ≥ 4 then railGaveUp n q s
      else s.modRail n (fun r => { r with req := some { q with waiting := true } })

/-- PMBUS_ATTEMPT_FAILED (R49). -/
def execPmbusAttemptFailed (n : Fin 8) (why : PmbWhy) (s : State) : Host.Outcome State Fault Refusal := .next (attemptFailed n why s)

/-- RAIL_RETRY (R49): CLEAR_FAULTS goes before the first retry. -/
def railRetry (n : Nat) (s : State) : State :=
  match (rail s n).req with
  | none => s
  | some q =>
    if ¬ q.waiting then s
    else pmbNote n 0x21 (s.modRail n (fun r => { r with req := some { q with waiting := false, attempts := q.attempts + 1 } }))

/-- RAIL_RETRY (R49). -/
def execRailRetry (n : Fin 8) (s : State) : Host.Outcome State Fault Refusal := .next (railRetry n s)

/-- A fault bit read in the 1 ms after a failed attempt is one that this attempt has read (R49, R51, R55; DEDUCED, log entry 10). -/
def faultSeen (n : Nat) (q : RailReq) (s : State) : State :=
  ((s.raise Reg.PWR_INT_STATUS 6).viol 5 n 4 0).modRail n (fun r => { r with req := some { q with sawFault := true } })

/-- A rail reports a fault or loses power-good (R51): while a request of it is outstanding that is a failed attempt, otherwise the
rollback of an acknowledged rail. -/
def railBad (n : Nat) (s : State) : State :=
  match (rail s n).req with
  | some q => if q.waiting then faultSeen n q s else attemptFailed n .fault s
  | none => if (rail s n).acked then railFault n (s.viol 5 n 4 0) else s

/-- RAIL_FAULT (R51). -/
def execRailFault (n : Fin 8) (s : State) : Host.Outcome State Fault Refusal := .next (railBad n s)

/-- A STATUS_WORD reports a fault: any bit but POWER_GOOD# (Table 2-5). -/
def statusFault (w : BitVec 16) : Bool := w.toNat / 4096 != 0 || w.toNat % 2048 != 0

/-- SMBALERT (R55): every STATUS_WORD is read, and only a fault is acted on. -/
def smbAlert (words : List (BitVec 16)) (s : State) : State :=
  let bad := (List.range 8).filter (fun n => statusFault (words.getD n 0))
  forAll bad railBad (pmbNote 7 0x79 (s.viol 5 0 5 0))

/-- The bus is served: from the first request of a climb on. -/
def pmbusRuns (s : State) : Bool := !s.pwr.off && (decide (s.pwr.stage ≥ 1) || decide (s.pwr.climb ≠ .none))

/-- SMBALERT (R55): STATUS_WORD of the eight rails. -/
def execSmbalert (words : List (BitVec 16)) (s : State) : Host.Outcome State Fault Refusal :=
  .next (if pmbusRuns s then smbAlert words s else s)

/-- PMBUS_TELEMETRY_POLL (R53): READ_VOUT and READ_IOUT of every rail. -/
def telemetry (r : List (BitVec 16 × BitVec 16)) (s : State) : State :=
  pmbNote 7 0x8C (forAll (List.range 8) (fun n s => s.modRail n (fun x => { x with
    vout := (r.getD n (0, 0)).1.toNat, iout := (r.getD n (0, 0)).2.toNat })) s)

/-- PMBUS_TELEMETRY_POLL (R53). -/
def execPmbusTelemetryPoll (r : List (BitVec 16 × BitVec 16)) (s : State) : Host.Outcome State Fault Refusal :=
  .next (if s.pwr.off ∨ s.pwr.stage = 0 then s else telemetry r s)

/-! ### References (R43) -/

/-- Edges expected of a reference in the window: 60,000 at 122.88 MHz. -/
def edgesExpected (s : State) (b : Bool) : Nat := 60000 * 2 ^ supplyField s (if b then 3 else 2) 1

/-- The count agrees: within 0.5 % on the crystal, 4 % on the RC oscillator. -/
def edgesAgree (s : State) (b : Bool) (edges : Nat) : Bool :=
  decide (((edges : Int) - edgesExpected s b).natAbs * (if s.bit Reg.PWR_AON_START_CFG 31 then 200 else 25) ≤ edgesExpected s b)

/-- A counting window ends: a count that agrees starts the wait for lock. -/
def refWindow (edges : Nat) (s : State) : State :=
  match s.pwr.climb with
  | .refCount b => if edgesAgree s b edges then s.modPwr (fun p => { p with climb := .refLock b }) else s
  | _ => s

/-- REF_CHECK_WINDOW_DONE (R43). -/
def execRefCheckWindowDone (edges : Nat) (s : State) : Host.Outcome State Fault Refusal := .next (refWindow edges s)

/-- 20 ms without a verified reference: REF_B is checked, or the start fails. -/
def refTimeout (s : State) : State :=
  match s.pwr.climb with
  | .refCount false | .refLock false => s.modPwr (fun p => { p with climb := .refCount true })
  | .refCount true | .refLock true => finalFailure 1 5 0 s
  | _ => s

/-- REF_CHECK_TIMEOUT (R43). -/
def execRefCheckTimeout (s : State) : Host.Outcome State Fault Refusal := .next (refTimeout s)

/-! ### The firmware image (R44, R446, R447) -/

/-- Bytes of the flash. -/
def flashBytes (s : State) (a n : Nat) : List Byte := mread erased s.glb.flash a n

/-- Flash address of an image slot. -/
def slotBase (slot : Nat) : Nat := if slot = 0 then 0x10000 else 0x810000

/-- VERSION of the image in a slot that passes: its header, its key and its signature (R447). -/
def imageVersion (s : State) (slot : Nat) : Option Nat :=
  let a := slotBase slot
  let h := flashBytes s a 64
  let len := le h 12 4
  if h.take 4 ≠ [0x42, 0x46, 0x57, 0x31] ∨ le h 4 2 ≠ 1 ∨ ¬ zeros h 6 2 ∨ ¬ zeros h 16 48 ∨ len > 8388416 then none
  else
    let sig := flashBytes s (a + 64 + len) 128
    if sigKeyOk sig s.fuse.fwKeyHash ∧ sigOk sig (h ++ flashBytes s (a + 64) len) then some (le h 8 4) else none

/-- The stage at which the climb next stops: after a Shieling command 0x02 or GOTO_SAFE at 1, at HOLD_STAGE, or at 3 (R46, R48).
DESIGN CHOICE, log entry 52: a HOLD_STAGE of 4…7, which Table 2-19 does not name, is as 0; 3 is the last stage of a climb. -/
def climbGoal (s : State) : Nat :=
  if s.pwr.shlHold ∧ s.pwr.resumed < 1 then 1
  else
    let h := s.fld Reg.PWR_AON_START_CFG 26 24
    if (h = 1 ∨ h = 2) ∧ s.pwr.resumed < h then h else 3

/-- The boot ROM has read and checked an image slot: it starts the firmware, tries slot 1, or the start fails (R44). DESIGN CHOICE, log
entry 52: while the climb is held at stage 1 no image is checked. -/
def firmware (s : State) : State :=
  if s.pwr.stage ≠ 1 ∨ s.pwr.fwOk ∨ climbGoal s ≤ 1 then s
  else
    let slot := min 1 (s.fld Reg.GLB_BOOT 3 0)
    match imageVersion s slot with
    | some v =>
      ((s.setReg Reg.GLB_FW_VERSION (BitVec.ofNat 32 v)).setReg Reg.GLB_BOOT (pk [(31, 1), (8, slot), (0, slot)])).modPwr
        (fun p => { p with fwOk := true })
    | none => if slot = 0 then s.setFld Reg.GLB_BOOT 3 0 1 else finalFailure 2 6 0 s

/-- FIRMWARE_IMAGE_VERIFIED (R44). -/
def execFirmwareImageVerified (s : State) : Host.Outcome State Fault Refusal := .next (firmware s)

/-! ### Climbing (R35, R44…R48) -/

/-- A fronthaul port has reached L0. -/
def fronthaulUp (s : State) : Bool :=
  [0, 1].any (fun q => (port s q).state == .l0 || (port s q).state == .held || (port s q).state == .quarantined)

/-- LINK_WAIT_EXPIRY (R44). -/
def linkWait (s : State) : State :=
  if s.pwr.stage = 1 ∧ s.pwr.fwOk ∧ ¬ fronthaulUp s ∧ s.fld Reg.PWR_AON_START_CFG 19 0 ≠ 0 ∧ 1 < climbGoal s then finalFailure 2 7 0 s
  else s

/-- LINK_WAIT_EXPIRY (R44). -/
def execLinkWaitExpiry (s : State) : Host.Outcome State Fault Refusal := .next (linkWait s)

/-- VCORE is raised for PL0 on the way to stage 3 (Table 2-3). -/
def pl0Request (s : State) : State := if climbGoal s > 2 then railRequest 1 (vcoreNominal 0) .pl0 s else s

/-- Stage 2: PTP acquisition starts (Table 2-1). -/
def enterStage2 (s : State) : State :=
  let s := s.modPwr (fun p => { p with stage := 2, target := climbGoal s })
  pl0Request (timStart (s.raise Reg.PWR_INT_STATUS 8))

/-- Stage 3: PL0, the paths enabled and muted with their persisting faults, and a new count of failures (R46, R52, R119, R125). -/
def enterStage3 (s : State) : State :=
  let s := (s.modPwr (fun p => { p with stage := 3, target := 3, level := 0, change := none, marginLow := false })).modPState
    (fun _ => .idle)
  let s := (s.setFld Reg.PWR_AON_WAKE_FAIL 15 12 0).raise Reg.PWR_INT_STATUS 8
  let s := fhpStage3 (dpdStage3 s)
  refreshMutes (forAll (List.range 64) (fun p s => chainFaultRx p (chainFaultTx p s)) s)

/-- The conditions of the next stage are met (R35): it is entered, unless the climb is held. -/
def stageClimb (s : State) : State :=
  if s.pwr.off ∨ s.pwr.sleep.isSome then s
  else if s.pwr.stage = 0 ∧ s.pwr.climb = .refOk then enterStage1 s
  else if s.pwr.stage = 1 ∧ 1 < climbGoal s ∧ s.pwr.fwOk ∧ fronthaulUp s then enterStage2 s
  else if s.pwr.stage = 2 ∧ 2 < climbGoal s ∧ s.wrp.active.isSome ∧ s.nvs.powerUpDone ∧ ¬ vcoreBusy s ∧ s.pwr.vcore ≥ vcoreNominal 0 then
    enterStage3 s
  else s

/-- STAGE_CLIMB (R35). -/
def execStageClimb (s : State) : Host.Outcome State Fault Refusal := .next (stageClimb s)

/-- VCORE is neither at PL0 nor asked for it. -/
def pl0Missing (s : State) : Bool :=
  decide (s.pwr.vcore < vcoreNominal 0) && (match (rail s 1).req with
    | some q => q.why != .pl0
    | none => true)

/-- CLIMB = 1 (R46): a climb held at this stage goes on, also one whose HOLD_STAGE has been written since it stopped. -/
def climbOn (s : State) : State :=
  if s.pwr.stage ≥ 1 ∧ s.pwr.stage < 3 ∧ s.pwr.sleep.isNone then
    let s := s.modPwr (fun p => { p with resumed := p.stage, shlHold := p.shlHold && p.stage != 1 })
    let s := s.modPwr (fun p => { p with target := climbGoal s })
    if s.pwr.stage = 2 ∧ pl0Missing s then pl0Request s else s
  else s

/-- CLIMB (R46). -/
def execClimb (s : State) : Host.Outcome State Fault Refusal := .next (s.hosted Reg.PWR_STAGE_CTRL climbOn)

/-- RELEASE is written or cleared by the watchdog (R47, R452): clearing it at stage 4 begins the exit. DESIGN CHOICE, log entry 52: RELEASE
written 1 again does not call the exit off. -/
def release (on : Bool) (s : State) : State :=
  let s := s.setFld Reg.PWR_STAGE_CTRL 0 0 (b2n on)
  if on ∨ s.pwr.stage ≠ 4 ∨ s.pwr.leaving4 then s
  else allBurstsOut 0x25 (fun b => b.tx && !b.started) (s.modPwr (fun p => { p with leaving4 := true }))

/-- RELEASE (R47). -/
def execRelease (on : Bool) (s : State) : Host.Outcome State Fault Refusal := .next (s.hosted Reg.PWR_STAGE_CTRL (release on))

/-- A write of PWR_STAGE_CTRL: RELEASE, then CLIMB, then GOTO_SAFE. -/
def stageCtrlWrite (w : Word) (s : State) : State :=
  let s := release (bitOf w 0) s
  let s := if bitOf w 1 then climbOn s else s
  if bitOf w 2 then stateRequest .safe s else s

/-- A full warp load is in progress. -/
def fullLoad (s : State) : Bool :=
  match s.wrp.load with
  | some x => !x.partialLoad
  | none => false

/-- STAGE4_ENTRY (R47, R456). -/
def stage4Entry (s : State) : State :=
  if s.pwr.stage = 3 ∧ s.pstate = .idle ∧ ¬ s.pwr.leavingDoze ∧ s.pwr.sleep.isNone ∧ s.locked ∧ s.bit Reg.PWR_STAGE_CTRL 0 ∧
      ¬ fullLoad s ∧ ¬ s.pins.jtagUnlocked then
    let s := (s.modPwr (fun p => { p with stage := 4, leaving4 := false })).raise Reg.PWR_INT_STATUS 8
    syncPState (forAll (List.range 64) (fun p s => s.modPath p (fun x => { x with stageMute := false })) s)
  else s

/-- STAGE4_ENTRY (R47). -/
def execStage4Entry (s : State) : Host.Outcome State Fault Refusal := .next (stage4Entry s)

/-- STAGE4_EXIT_COMPLETE (R47): every TX chain is muted. DESIGN CHOICE, log entry 52: the arbiters of R28 keep their pointers, the return
from stage 4 not being an entry of the climb. -/
def stage4Exit (s : State) : State :=
  if s.pwr.leaving4 ∧ (List.range 64).all (fun p => !(s.pathCfg p).txEn || (pathOf s p).stageMute) then
    let s := (s.modPwr (fun p => { p with stage := 3, leaving4 := false })).raise Reg.PWR_INT_STATUS 8
    let s := calAbort 0x13 (surveyAbort (allBurstsOut 0x25 (fun b => !b.started) s))
    let s := forAll (List.range 8) (fun g s => s.modGroup g (fun x => { x with toOff := x.state != .off })) s
    syncPState (refreshMutes s)
  else s

/-- STAGE4_EXIT_COMPLETE (R47). -/
def execStage4ExitComplete (s : State) : Host.Outcome State Fault Refusal := .next (stage4Exit s)

/-! ### Always-on registers (R52, R70) -/

/-- VALID = 1 clears the failure record, CONSEC and ALERT_N (R52). -/
def wakeFailClear (s : State) : State := s.setReg Reg.PWR_AON_WAKE_FAIL 0

/-- PWR_AON_WAKE_FAIL_CLEAR (R52). -/
def execPwrAonWakeFailClear (s : State) : Host.Outcome State Fault Refusal := .next (s.hosted Reg.PWR_AON_WAKE_FAIL wakeFailClear)

/-- PWR_AON_SHL_CFG (R70): a write that changes SITE while EN = 1 is ignored and logged. -/
def shlCfgWrite (w : Word) (s : State) : State :=
  if s.bit Reg.PWR_AON_SHL_CFG 31 ∧ fld w 23 0 ≠ s.fld Reg.PWR_AON_SHL_CFG 23 0 then s.refusedWrite Reg.PWR_AON_SHL_CFG
  else s.setReg Reg.PWR_AON_SHL_CFG (w &&& 0x80FFFFFF)

/-- PWR_AON_SHL_CFG_WRITE (R70). -/
def execPwrAonShlCfgWrite (w : Word) (s : State) : Host.Outcome State Fault Refusal := .next (s.hosted Reg.PWR_AON_SHL_CFG (shlCfgWrite w))

/-! ### The thermal unit (R400, R406) -/

/-- A zone is sampled, and a shutdown follows two samples at 125 °C (R400, R406). -/
def thermalSample (z : Nat) (raws : List (Option Int)) (s : State) : State :=
  if s.pwr.off ∨ s.pwr.stage = 0 then s
  else
    let old := thermStage s
    let s := sampleZone z raws s
    let s := if old < 2 ∧ thermStage s = 2 then surveyAbort s else s
    let s := if z = 10 then synZoneMoved s else s
    if zoneShutdown s z then shutdown z (vget s.thm.zones z).temp s else s

/-- THERMAL_SAMPLE (R400): the raw codes of the zone's sensors, none where one does not answer. -/
def execThermalSample (z : Fin 12) (raws : List (Option Int)) (s : State) : Host.Outcome State Fault Refusal :=
  .next (thermalSample z raws s)

/-- COARSE_COMPARATOR_135 (R406): the record names the hottest zone. -/
def execCoarseComparator135 (s : State) : Host.Outcome State Fault Refusal :=
  .next (if s.pwr.off ∨ s.thm.shutdown then s else shutdown (hottestZone s) (hottestTemp s) s)

/-! ### Registers computed from the state (R68, R69) -/

/-- PWR_STAGE. -/
def pwrStage (s : State) : Word :=
  let p := s.pwr
  let rel := b2n (s.bit Reg.PWR_STAGE_CTRL 0)
  let st := match s.pstate with
    | .idle => 0
    | .service => 1
    | .doze => 2
  pk [(10, if p.stage ≥ 3 then p.level else 0), (7, if p.stage < 3 then 0 else st), (6, rel),
      (3, if p.stage ≥ 3 then 3 + rel else p.target), (0, p.stage)]

/-- VCORE as last commanded: that of the request outstanding, or the one acknowledged (Table 2-16). -/
def vcoreCommanded (s : State) : Nat :=
  match (rail s 1).req with
  | some q => q.mv
  | none => s.pwr.vcore

/-- PWR_LEVEL_STATUS: OUTCOME and CODE stored, the rest from the state. -/
def pwrLevelStatus (s : State) : Word :=
  let w := s.reg Reg.PWR_LEVEL_STATUS
  pk [(16, vcoreCommanded s % 1024), (8, fld w 15 8), (6, s.pwr.level), (4, fld w 5 4), (3, b2n s.pwr.marginLow),
      (0, if s.pwr.stage ≥ 3 then vcoreTrim s else 0)]

/-- PWR_AON_TIMER. -/
def pwrAonTimer (s : State) : Word := BitVec.ofNat 32 (secOf s.time.aon)

end Sys2Proof.Machine
end

