-- ==== Sys2Proof/Machine/Cas.lean ====
section
/-!
DEFINITION. The fold links of a stack: the checks of a received frame (R312, R325), stack time (R317…R319), layer data (R313, R314,
R320, R321), CONTROL frames and votes (R316, R324), and isolation (R326, R327).
-/

namespace Sys2Proof.Machine

/-! ### The checks of a frame (R312, R325, Tables 12-1…12-5, 12-9) -/

/-- Fields of the header. -/
def foldType (b : List Byte) : Nat := byteAt b 0
def foldSrc (b : List Byte) : Nat := byteAt b 1 / 32
def foldDst (b : List Byte) : Nat := byteAt b 1 / 4 % 8
def foldLen (b : List Byte) : Nat := be b 2 2
def foldStack (b : List Byte) : Nat := be b 4 4
def foldSeq (b : List Byte) : Nat := be b 8 2
def foldPayload (b : List Byte) : List Byte := slice b 12 (foldLen b)

/-- A TYPE that exists and may arrive on a side: downstream ones from FL0, upstream ones from FL1. -/
def typeFits (s : State) (side type : Nat) : Bool :=
  match type with
  | 0x01 | 0x08 => true
  | 0x02 => side == 0
  | 0x03 | 0x07 => side == 1
  | 0x04 => side == 0 && s.cas.mode == 0
  | 0x05 => side == 1 && s.cas.mode == 0
  | 0x06 => s.cas.mode == 0
  | _ => false

/-- The source index fits: the neighbour itself, or any device beyond it for a frame that is relayed. -/
def sourceFits (s : State) (side type src : Nat) : Bool :=
  let d := s.cas.d
  if type = 0x04 ∨ type = 0x06 ∨ type = 0x07 then
    if side = 0 then decide (src < d) else decide (d < src) && decide (src < s.cas.size)
  else if side = 0 then src + 1 == d else src == d + 1

/-- A frame of another stack, source or TYPE (class FOREIGN); a HELLO is judged by R310 instead. -/
def foldForeign (s : State) (side : Nat) (b : List Byte) : Bool :=
  !typeFits s side (foldType b) ||
    (foldType b != 0x01 && (foldStack b != s.cas.stackId || !sourceFits s side (foldType b) (foldSrc b)))

/-- Set bits of a mask of 32 layers. -/
def maskBits (m : Nat) : List Nat := (List.range 32).filter (nbit m)

/-- A data frame keeps to Table 12-3. -/
def dataOk (s : State) (ul : Bool) (p : List Byte) : Bool :=
  let n := byteAt p 6
  match s.carrier ul (byteAt p 0 % 4) with
  | none => false
  | some c =>
    byteAt p 0 / 4 == b2n ul * 32 && decide (byteAt p 2 < 100) && be p 3 3 % 2 == 0 && decide (be p 3 3 < frameBlocks c) &&
      decide (1 ≤ n) && decide (n ≤ 32) && n == (maskBits (be p 8 4)).length && p.length == 16 + 73 * n &&
      (if ul then bitsZero p 7 0x27 else byteAt p 7 == 0 && be p 12 4 == 0)

/-- The body of a CONTROL frame, from byte 4. -/
def controlPart (p : List Byte) : List Byte := p.drop 4

/-- A CONTROL payload keeps to Table 12-5 on a side. -/
def controlOk (side : Nat) (p : List Byte) : Bool :=
  let b := controlPart p
  decide (p.length ≥ 4) && byteAt p 1 == 0 &&
    match byteAt p 0 with
    | 0x01 => side == 0 && bodyOk 0x10 (b.set 1 0)
    | 0x02 => side == 0 && b.length == 16 && bitsZero b 0 0x60 && bitsZero b 1 0xD0 && decide (be b 2 2 < 1024) && nsOk b 6
    | 0x03 => side == 0 && b.length == 20 && bitsZero b 0 0x08 && zeros b 1 3 && nsOk b 10
    | 0x04 => side == 0 && b.length == 16 && bitsZero b 0 0x60 && (decide (byteAt b 1 < 8) || byteAt b 1 == 0xFF) && zeros b 2 2 && nsOk b 6
    | 0x05 => side == 0 && decide (1 ≤ be b 2 2) && decide (be b 2 2 ≤ 256) && b.length == 4 + 4 * be b 2 2
    | 0x06 => side == 0 && b.length == 1 && (byteAt b 0 == 1 || byteAt b 0 == 2)
    | 0x07 => side == 1 && b.length == 4 && byteAt b 3 == 0
    | 0x08 => side == 1 && b.length == 4
    | 0x09 => side == 0 && b.length == 16 && decide (byteAt b 0 < 4) && zeros b 1 3 && nsOk b 6
    | 0x0A => side == 1 && b.length == 4 && byteAt b 3 == 0 && (byteAt b 2 == 1 || byteAt b 2 == 2)
    | _ => false

/-- A payload outside its layout (class MALFORMED). -/
def payloadOk (s : State) (side : Nat) (b : List Byte) : Bool :=
  let p := foldPayload b
  zeros b 10 2 && bitsZero b 1 0x01 &&
    match foldType b with
    | 0x01 => p.length == 16 && zeros p 11 5 && bitsZero p 9 0xF8 && bitsZero p 10 0xF0
    | 0x02 => p.length == 52 && zeros p 49 3 && bitsZero p 48 0x1F && nsOk p 2 && nsOk p 14 && nsOk p 26 && nsOk p 38
    | 0x03 => p.length == 4 && zeros p 2 2
    | 0x04 => dataOk s false p
    | 0x05 => dataOk s true p
    | 0x06 => controlOk side p
    | 0x07 => p.length == 28 && byteAt p 0 == foldSrc b && byteAt p 27 == 0
    | 0x08 => p.length == 4 && decide (1 ≤ byteAt p 0) && decide (byteAt p 0 ≤ 4) && decide (byteAt p 1 < 8) && decide (byteAt p 2 < 2) &&
        byteAt p 3 == 0
    | _ => false

/-- A frame that arrives on a fold-link port in L0 is counted and checked; what passes is taken. An isolated side takes only HELLO and
LANE (R326). -/
def foldRx (side : Nat) (b : List Byte) (take_ : State → State) (s : State) : State :=
  if ¬ sideUp s side ∧ ¬ (foldType b = 0x08 ∧ laneCrosses s side) then s
  else
    let s := s.addReg (Reg.CAS_FRAMES side) 1
    if sideIsolated s side ∧ foldType b ≠ 0x01 ∧ foldType b ≠ 0x08 then s
    else if b.length ≠ foldLen b + 16 ∨ be b (b.length - 4) 4 ≠ crc32c (b.take (b.length - 4)) then casViol side 1 s
    else if foldForeign s side b then casViol side 2 s
    else if ¬ payloadOk s side b then casViol side 3 s
    else take_ s

/-- A frame goes on beyond the device as it came (R316, R320, R324). -/
def passOn (side : Nat) (b : List Byte) (s : State) : State :=
  if sideUp s (1 - side) ∧ ¬ sideIsolated s (1 - side) then foldOut (1 - side) b s else s

/-! ### HELLO and LANE (R248, R310) -/

/-- HELLO (R310). A frame of an undefined TYPE comes in with this command. -/
def execHello (side : Fin 2) (b : List Byte) (s : State) : Host.Outcome State Fault Refusal :=
  .next (if 2 ≤ foldType b ∧ foldType b ≤ 8 then s else foldRx side b (helloTake side (foldStack b) (foldPayload b)) s)

/-- HELLO_SEND (R310). -/
def execHelloSend (side : Fin 2) (s : State) : Host.Outcome State Fault Refusal := .next (helloSend side s)

/-- LANE (R248). -/
def execLane (side : Fin 2) (b : List Byte) (s : State) : Host.Outcome State Fault Refusal :=
  .next (if foldType b ≠ 0x08 then s
    else foldRx side b (fun s =>
      let p := foldPayload b
      laneEvent (sidePort side) (byteAt p 0) (byteAt p 1) (byteAt p 2) s) s)

/-! ### Stack time (R317…R319) -/

/-- The device's time at an arrival: the tick, and sixteenths of it. -/
def arrival (s : State) (fine : Nat) : Int := ((s.time.tb0 + fine * 25000 : Nat) : Int)

/-- The TIME payload a device sends down. -/
def timePayload (s : State) : List Byte :=
  let locked := if s.cas.role = 1 then s.locked else s.cas.upLocked
  let step := s.cas.stepAt.getD (0, 0)
  timeBe s.time.tb0 ++ timeBe s.cas.echoT4 ++ timeBe step.1 ++ timeBe step.2 ++
    beBytes 1 (b2n locked * 128 + b2n s.cas.stepAt.isSome * 64 + b2n (decide (s.time.tb0 % secTu < epochTu)) * 32) ++ beBytes 3 0

/-- TIME goes down at an epoch boundary of TB2. -/
def timeSend (s : State) : State :=
  if sideUp s 1 ∧ (s.cas.role = 1 ∨ s.cas.tb2Set) then
    (casSend 0x02 1 0 false (timePayload s) s).modCas (fun c => { c with echoT4 := 0 })
  else s

/-- TIME_SEND (R312, R317). -/
def execTimeSend (s : State) : Host.Outcome State Fault Refusal := .next (timeSend s)

/-- SEQ of the last TIME frame sent. -/
def lastTimeSeq (s : State) : Option Nat := (s.cas.seqs.find? (fun x => x.1 == 5)).map (·.2)

/-- ECHO (R317): the receive time of the answer to the last TIME frame. -/
def execEcho (side : Fin 2) (fine : Fin 16) (b : List Byte) (s : State) : Host.Outcome State Fault Refusal :=
  .next (if foldType b ≠ 0x03 then s
    else foldRx side b (fun s =>
      if lastTimeSeq s = some (be (foldPayload b) 0 2) then s.modCas (fun c => { c with echoT4 := (arrival s fine).toNat }) else s) s)

/-- TB2 is lost (R317, R325): a joined device detaches with TIME_LOSS, another one acquires again. -/
def tb2Lost (s : State) : State :=
  let joined := s.cas.selfJoined
  let s := watchLock (fun s => s.modCas (fun c => { c with
    tb2Set := false, tb2Lock := false, exch := [], timeRx := none, inLock := 0, outLock := 0 })) s
  let s := s.raise Reg.CAS_INT_STATUS 5
  if joined then detach 6 (casViol 0 6 s) else s

/-- One offset of TB2: its own step after 8 of them, and rate alone afterwards (R317). -/
def tb2Offset (o : Int) (s : State) : State :=
  if ¬ s.cas.tb2Set then
    let l := s.cas.exch ++ [o]
    if l.length < 8 then s.modCas (fun c => { c with exch := l })
    else (stepTime (-(medianOf8 l)) s).modCas (fun c => { c with
      exch := [], tb2Set := true, timeRx := none, inLock := 0, outLock := 0 })
  else
    let s := correctRate o s
    let far := decide (o.natAbs * 1000 > 2000 * nsTu)
    let near := decide (o.natAbs * 1000 ≤ 500 * nsTu)
    let s := s.modCas (fun c => { c with
      inLock := if near then min 64 (c.inLock + 1) else 0, outLock := if far then c.outLock + 1 else 0 })
    if s.cas.outLock ≥ 8 then tb2Lost s
    else if s.cas.inLock ≥ 64 ∧ ¬ s.cas.tb2Lock then watchLock (fun s => s.modCas (fun c => { c with tb2Lock := true })) s
    else s

/-- The exchange that waits is complete (R317): *D* and the offset. -/
def tb2Exchange (t4 : Nat) (s : State) : State :=
  match s.cas.timeRx with
  | none => s
  | some (t1, t2, t3) =>
    if t4 = 0 then s
    else
      let d := divEven ((t2 - t1) + (t4 - t3)) 2 - divEven (psTime (s.reg Reg.CAS_ASYM)) 2
      let o := (t2 - t1) - d
      tb2Offset o ((s.setReg Reg.CAS_HOP_DELAY (psWord d)).setReg Reg.CAS_TB2_OFFSET (psWord o))

/-- A TICK at a member whose TB2 is locked (R317): at formation, with every group OFF, it aligns the converter-clock dividers; from then
on a misalignment, in sixteenths of a tick, is only measured. -/
def tickMeasured (mis : Nat) (s : State) : State :=
  if ¬ s.cas.aligned ∧ (List.range 8).all (fun g => (grp s g).state == .off) then s.modCas (fun c => { c with aligned := true })
  else if mis > 2 then s.raise Reg.CAS_INT_STATUS 6
  else s

/-- A TIME frame at a member (R317…R319). `mis` is the misalignment of the tick in sixteenths. -/
def timeTake (fine mis : Nat) (b : List Byte) (s : State) : State :=
  let p := foldPayload b
  let flags := byteAt p 48
  let t2 := arrival s fine
  let s := tb2Exchange (timeOfBe p 12) s
  -- a step that the exchange has just made moves the times of the next one with it
  let t2 := t2 + ((s.time.tb0 : Int) - (t2 - fine * 25000))
  let s := watchLock (fun s => s.modCas (fun c => { c with
    upLocked := nbit flags 7, timeRx := some ((timeOfBe p 0 : Nat), t2, t2)
    stepAt := if c.selfJoined ∧ nbit flags 6 then some (timeOfBe p 24, timeOfBe p 36) else none })) s
  let s := whenB (nbit flags 5 && s.cas.tb2Lock) (tickMeasured mis) s
  formJudge (casSend 0x03 0 0 false (beBytes 2 (foldSeq b) ++ beBytes 2 0) s)

/-- TIME (R317). -/
def execTime (side : Fin 2) (fine mis : Fin 16) (b : List Byte) (s : State) : Host.Outcome State Fault Refusal :=
  .next (if foldType b ≠ 0x02 then s else foldRx side b (timeTake fine mis b) s)

/-- TB2_TIMEOUT (R317). -/
def execTb2Timeout (s : State) : Host.Outcome State Fault Refusal :=
  .next (if s.cas.role = 2 ∧ (s.cas.tb2Set ∨ s.cas.selfJoined) then tb2Lost s else s)

/-- At STEP_AT the bellwether and the joined members step (R318). -/
def stackStep (s : State) : State :=
  match s.cas.stepAt with
  | none => s
  | some (at_, to_) =>
    let s := stepTime ((to_ : Int) - at_) (s.modCas (fun c => { c with stepAt := none, timeRx := none, echoT4 := 0 }))
    if s.cas.role = 1 then (s.modTim (fun t => { t with stepDone := true, offsets := [] })).raise Reg.TIM_INT_STATUS 3 else s

/-- STACK_STEP (R318). -/
def execStackStep (s : State) : Host.Outcome State Fault Refusal := .next (stackStep s)

/-! ### Layer data (R313, R314, R320, R321) -/

/-- The ball time of the first sample of a data frame's pair. -/
def pairStart (s : State) (c : Carrier) (p : List Byte) : Nat :=
  nearSec s.time.tb0 (byteAt p 1) * secTu + byteAt p 2 * frameTu + be p 3 3 * blockTu c

/-- The samples of the pair of one layer in a data frame, by its place among the layers present. -/
def pairSamples (p : List Byte) (i : Nat) : List Cplx :=
  let q := pairOf (slice p (16 + 73 * i) 73)
  blockSamples q.1 ++ blockSamples q.2

/-- The pairs of a data frame by layer. -/
def pairsOf (p : List Byte) : List (Nat × List Cplx) :=
  let ls := maskBits (be p 8 4)
  (List.range ls.length).map (fun i => (ls.getD i 0, pairSamples p i))

/-- DL_BLOCKS at a member (R320): passed downstream unchanged, and taken into its own fabric. -/
def dlTake (b : List Byte) (s : State) : State :=
  let p := foldPayload b
  let s := passOn 0 b s
  match s.carrier false (byteAt p 0 % 4) with
  | none => s
  | some c =>
    let start := pairStart s c p
    forAll (pairsOf p) (fun x s =>
      if (s.holder false x.1).isNone then s
      else
        let s := s.modFhp (fun f => { f with covered := addSpan s.time.tb0 x.1 start (start + 2 * blockTu c) f.covered })
        enterFabric x.1 start c (layerInputs s c x.1 start x.2) s) s

/-- DL_BLOCKS (R320). -/
def execDlBlocks (side : Fin 2) (b : List Byte) (s : State) : Host.Outcome State Fault Refusal :=
  .next (if foldType b ≠ 0x04 then s else foldRx side b (dlTake b) s)

/-- Saturation to ±2^26 (R321). -/
def sat26 (x : Cplx) : Cplx := (clampI (-67108864) 67108864 x.1, clampI (-67108864) 67108864 x.2)

/-- UL_SHIFT of the stack: the bellwether's own, or that of the upstream HELLO. -/
def stackShift (s : State) : Nat := if s.cas.role = 1 then ulShift s else helloField (vget s.cas.nbrs 0) 7

/-- A device's sums of a layer over the path samples of a pair, narrowed to the stack's shift (R321). -/
def ownSums (s : State) (l start : Nat) (rx : List (List Cplx)) : List Cplx :=
  layerSamples (fun a => sat26 (shrEven a.1 (23 + stackShift s), shrEven a.2 (23 + stackShift s))) s l start rx

/-- A device's own part of an uplink pair, at the carrier rate (R321). -/
def ownSamples (s : State) (l : Nat) (c : Carrier) (start : Nat) (rx : List (List Cplx)) : List Cplx :=
  let z := Config.fronthaulUl (streamArgs s c) (vget s.fhp.ulTail l) (ownSums s l start rx)
  (List.range 24).map (fun i => sat26 (z.getD i (0, 0)))

/-- The streams of a carrier's layers go on behind the samples of a pair. -/
def tailsOn (ls : List Nat) (start : Nat) (rx : List (List Cplx)) (s : State) : State :=
  s.modFhp (fun h => { h with ulTail := vall h.ulTail (fun l t => if ls.contains l then tailOf t (ownSums s l start rx) else t) })

/-- The served uplink layers on a carrier. -/
def layersUp (s : State) (ci : Nat) : List Nat :=
  (List.range 32).filter (fun l => (s.holder true l).isSome && (match s.layer true l with
    | some y => y.carrier == ci
    | none => false))

/-- A part beyond Q1.23. -/
def overQ23 (x : Cplx) : Bool := overS 24 x.1 || overS 24 x.2

/-- The bellwether takes the stack's sum of a layer for its section, saturated to Q1.23 (R321). -/
def takeSum (l start : Nat) (x : List Cplx) (m : UlMarks) (s : State) : State :=
  let s' := ulSatCount l (x.filter overQ23).length s
  match (s.holder true l).bind (fun k => (s.flockCfg k).map (fun f => (k, f))), s.layer true l, layerCarrier s true l with
  | some (k, f), some y, some c => pushBlocks k l start f y c (markedBlocks s l start 2 c (x.map satQ23) m) s'
  | _, _, _ => s'

/-- FLAGS of a data frame as marks. -/
def marksOf (flags : Nat) (fallback : Bool) : UlMarks :=
  { loInvalid := nbit flags 7, slip := nbit flags 6, fault := nbit flags 4, sat := nbit flags 3, fallback := fallback }

/-- An uplink block pair interval of a carrier on one device (R321): its own sums and those from below, sent upward, or taken for the
fronthaul at the bellwether. -/
def ulPair (ci start : Nat) (below : List (Nat × List Cplx)) (flags fallback : Nat) (adc : List (List Cplx)) (m : UlMarks) (s : State) :
    State :=
  match s.carrier true ci with
  | none => s
  | some c =>
    let ls := layersUp s ci
    let rx := rxRows s start adc
    let sum := fun (l : Nat) =>
      let own := ownSamples s l c start rx
      let y := ((below.find? (fun x => x.1 == l)).map (·.2)).getD []
      (List.range 24).map (fun i => sat26 (cadd (own.getD i (0, 0)) (y.getD i (0, 0))))
    let mark := fun (l : Nat) =>
      let o := ulMarks s l c m
      marksOr { o with slip := o.slip || slippedIn s l start (start + 2 * blockTu c) } (marksOf flags (nbit fallback l))
    let next := tailsOn ls start rx
    if isBellwether s then forAll ls (fun l s => takeSum l start (sum l) (mark l) s) (next s)
    else if ¬ isStackMember s ∨ ¬ s.cas.selfJoined ∨ ls.isEmpty then s
    else
      let pairs := ls.map (fun l => (foldBlock ((sum l).take 12), foldBlock ((sum l).drop 12)))
      let sat := (pairs.map (fun q => q.1.2 + q.2.2)).foldl (· + ·) 0
      let s := next (if sat = 0 then s else (s.addReg Reg.CAS_SUM_SAT sat).raise Reg.CAS_INT_STATUS 7)
      let any := fun (f : UlMarks → Bool) => b2n (ls.any (fun l => f (mark l)))
      let fl := any (·.loInvalid) * 128 + any (·.slip) * 64 + any (·.fault) * 16 + (if sat = 0 then any (·.sat) else 1) * 8
      casSend 0x05 0 0 false (dataHeader true ci start (blockNo c start) ls.length fl (maskOf ls)
          (bitsOf 32 (fun l => ls.contains l && (mark l).fallback)) ++ pairs.flatMap (fun q => pairBytes q.1.1 q.2.1)) s

/-- UL_SUMS (R321): `adc` gives the ADC samples of the device's 64 paths over the interval. -/
def execUlSums (side : Fin 2) (b : List Byte) (adc : List (List Cplx)) (m : UlMarks) (s : State) : Host.Outcome State Fault Refusal :=
  .next (if foldType b ≠ 0x05 then s
    else foldRx side b (fun s =>
      let p := foldPayload b
      let ci := byteAt p 0 % 4
      match s.carrier true ci with
      | some c => ulPair ci (pairStart s c p) (pairsOf p) (byteAt p 7) (be p 12 4) adc m s
      | none => s) s)

/-- The device is the last of the joined set: no joined neighbour sends it sums. -/
def lastJoined (s : State) : Bool := (vget s.cas.nbrs 1).state != 2

/-- UL_PAIR_SEND (R321). -/
def execUlPairSend (c : Fin 4) (start : Nat) (adc : List (List Cplx)) (m : UlMarks) (s : State) : Host.Outcome State Fault Refusal :=
  .next (if lastJoined s then ulPair c start [] 0 0 adc m s else s)

/-- A pair missed its hop time (R320, R321, R325, R326): `dropped` tells that a frame dropped under another class caused it. -/
def hopMissed (x : MissedPair) (dropped : Bool) (s : State) : State :=
  let late := fun (side cls : Nat) (s : State) =>
    let n := vget s.cas.nbrs side
    let s := s.raise Reg.CAS_INT_STATUS 9
    if dropped ∨ n.swap ∨ n.isolated then s else casViol side cls s
  match x with
  | .dl l air =>
    match layerCarrier s false l with
    | none => s
    | some c =>
      if ¬ isStackMember s ∨ ¬ s.cas.selfJoined ∨ ¬ neededAt s c air ∨ insideOf s.fhp.covered l air (air + 1) ∨
          insideOf s.fhp.subst l air (air + 1) then s
      else
        let s := s.modFhp (fun f => { f with subst := addSpan s.time.tb0 l air (symbolAfter c air) f.subst })
        late 0 4 (if dropped ∨ (vget s.cas.nbrs 0).swap then s else s.addLo (Reg.CAS_LATE 0) 1)
  | .ul c start adc m =>
    let n := vget s.cas.nbrs 1
    if s.cas.role = 0 ∨ s.cas.mode ≠ 0 ∨ ¬ hasSide s 1 then s
    else if n.isolated then ulPair c start [] 0 0 adc m s
    else ulPair c start [] 0 0 adc m (late 1 5 (if dropped ∨ n.swap then s else s.addHi (Reg.CAS_LATE 1) 1))

/-- HOP_TIME_MISSED (R325). -/
def execHopTimeMissed (x : MissedPair) (dropped : Bool) (s : State) : Host.Outcome State Fault Refusal := .next (hopMissed x dropped s)

/-! ### STATUS (R324) -/

/-- STATUS (R324): relayed upward unchanged, and taken at the bellwether. -/
def execStatus (side : Fin 2) (b : List Byte) (s : State) : Host.Outcome State Fault Refusal :=
  .next (if foldType b ≠ 0x07 then s
    else foldRx side b (fun s => if s.cas.role = 1 then statusTake (foldSrc b) (foldPayload b) s else passOn 1 b s) s)

/-! ### CONTROL (R316, R324) -/

/-- A CONTROL frame of a SUB: relayed onward in order of arrival, then taken. -/
def controlRx (sub side : Nat) (b : List Byte) (take_ : Nat → List Byte → State → State) (s : State) : State :=
  if foldType b ≠ 0x06 ∨ byteAt (foldPayload b) 0 ≠ sub then s
  else foldRx side b (fun s =>
    let p := foldPayload b
    let s := if side = 1 ∧ s.cas.role = 1 then s else passOn side b s
    take_ (be p 2 2) (controlPart p) s) s

/-- A SUB that Table 12-5 gives. -/
def knownSub (n : Nat) : Bool := decide (1 ≤ n) && decide (n ≤ 10)

/-- CONTROL_SKEIN (R324): for the device it names. A CONTROL frame of an undefined SUB comes in with this command. -/
def execControlSkein (side : Fin 2) (b : List Byte) (s : State) : Host.Outcome State Fault Refusal :=
  .next (if foldType b = 0x06 ∧ ¬ knownSub (byteAt (foldPayload b) 0) then foldRx side b id s
    else controlRx 0x01 side b (fun _ x s => if foldDst b = s.cas.d then skeinWriteBody (nbit (byteAt x 0) 7) x s else s) s)

/-- CONTROL_SWAP (R324). -/
def execControlSwap (side : Fin 2) (b : List Byte) (s : State) : Host.Outcome State Fault Refusal :=
  .next (controlRx 0x02 side b controlSwap s)

/-- CONTROL_BURST (R324). -/
def execControlBurst (side : Fin 2) (b : List Byte) (s : State) : Host.Outcome State Fault Refusal :=
  .next (controlRx 0x03 side b controlBurst s)

/-- CONTROL_SLOT (R276, R324). -/
def execControlSlot (side : Fin 2) (b : List Byte) (s : State) : Host.Outcome State Fault Refusal :=
  .next (controlRx 0x04 side b (fun _ x s =>
    planChange (nbit (byteAt x 0) 7) (byteAt x 0 % 32) (timeOfBe x 4) (if byteAt x 1 = 0xFF then none else some (byteAt x 1)) s) s)

/-- CONTROL_WARP (R324). -/
def execControlWarp (side : Fin 2) (b : List Byte) (s : State) : Host.Outcome State Fault Refusal :=
  .next (controlRx 0x05 side b (fun _ x s => warpFrame x s) s)

/-- CONTROL_COMMIT (R324). -/
def execControlCommit (side : Fin 2) (b : List Byte) (s : State) : Host.Outcome State Fault Refusal :=
  .next (controlRx 0x06 side b (fun _ x s => warpCommit x s) s)

/-- The bellwether abandons a stacked command (R324). -/
def abandon (on : VoteOn) (d code : Nat) (s : State) : State :=
  let s := voteRefused d (voteBlock on) code s
  match on with
  | .level _ => levelAbandoned code s
  | .warp => warpAbandoned code s
  | .group _ => groupResult code s

/-- Every device has accepted a stacked command. -/
def agreed (on : VoteOn) (s : State) : State :=
  let s := s.modCas (fun c => { c with vote := none })
  match on with
  | .level l => levelAgreed l s
  | .warp => warpAgreed s
  | .group w =>
    match gstateOf (cmdState w) with
    | some st => groupResult 0 (groupCommand (fld w 18 16) st s)
    | none => s

/-- A vote at the bellwether. -/
def voteTake (x : List Byte) (s : State) : State :=
  match s.cas.vote with
  | none => s
  | some (on, waiting) =>
    let d := byteAt x 0
    if s.cas.role ≠ 1 ∨ byteAt x 1 ≠ voteBlock on ∨ ¬ waiting.contains d then s
    else if byteAt x 2 ≠ 0 then abandon on d (byteAt x 2) s
    else if waiting.erase d = [] then agreed on s
    else s.modCas (fun c => { c with vote := some (on, waiting.erase d) })

/-- CONTROL_VOTE (R324). -/
def execControlVote (side : Fin 2) (b : List Byte) (s : State) : Host.Outcome State Fault Refusal :=
  .next (controlRx 0x07 side b (fun _ x s => voteTake x s) s)

/-- The code of a missing vote: NO_VOTE for a warp; the spec gives none for the others (R324). -/
def noVote : VoteOn → Nat
  | .warp => 0x12
  | on => (Config.noVoteCode (voteBlock on)).toNat

/-- A vote is missing after 20 ms (R324). -/
def voteTimeout (s : State) : State :=
  match s.cas.vote with
  | some (on, d :: _) => abandon on d (noVote on) s
  | _ => s

/-- VOTE_TIMEOUT (R324). -/
def execVoteTimeout (s : State) : Host.Outcome State Fault Refusal := .next (voteTimeout s)

/-- A member's REPORT at the bellwether (R324): the requester of the burst of that tag gets a CUT report with the member's code. -/
def reportTake (x : List Byte) (s : State) : State :=
  if s.cas.role ≠ 1 then s
  else
    match (List.range 8).findSome? (fun g => ((grp s g).bursts.find? (fun b => b.tag == be x 2 2)).map (fun b => (g, b))) with
    | some (g, b) =>
      match b.who with
      | .host => hostBurstReport
          { outcome := 4, tx := b.tx, group := g, code := byteAt x 1, tag := b.tag, start := burstBall s b } s
      | .flock k => flockBurstReport k b.port b.tag 4 (byteAt x 1) b.tx g (burstBall s b) s
      | _ => s
    | none => s

/-- CONTROL_REPORT (R324). -/
def execControlReport (side : Fin 2) (b : List Byte) (s : State) : Host.Outcome State Fault Refusal :=
  .next (controlRx 0x08 side b (fun _ x s => reportTake x s) s)

/-- CONTROL_LEVEL (R324). -/
def execControlLevel (side : Fin 2) (b : List Byte) (s : State) : Host.Outcome State Fault Refusal :=
  .next (controlRx 0x09 side b (fun _ x s => levelFrame x s) s)

/-- ISOLATE at the bellwether (R326): the devices beyond the isolation leave the joined set. -/
def isolateTake (x : List Byte) (s : State) : State :=
  if s.cas.role ≠ 1 then s else dropFrom (if byteAt x 2 = 1 then byteAt x 0 + 1 else byteAt x 0) s

/-- CONTROL_ISOLATE (R326). -/
def execControlIsolate (side : Fin 2) (b : List Byte) (s : State) : Host.Outcome State Fault Refusal :=
  .next (controlRx 0x0A side b (fun _ x s => isolateTake x s) s)

/-! ### Host commands and the epoch (R26, R326, R327) -/

/-- ISOLATE_DOWN (R326). -/
def execIsolateDown (s : State) : Host.Outcome State Fault Refusal := .next (s.hosted Reg.CAS_CTRL (isolateDown 0))

/-- REJOIN (R327). -/
def execRejoin (s : State) : Host.Outcome State Fault Refusal := .next (s.hosted Reg.CAS_CTRL casRejoin)

/-- CAS_CTRL: ISOLATE_DOWN, then REJOIN. -/
def casCtrlWrite (w : Word) (s : State) : State :=
  let s := if bitOf w 0 then isolateDown 0 s else s
  if bitOf w 1 then casRejoin s else s

/-- ARBITRATION_EPOCH_END (R26, R324). -/
def execArbitrationEpochEnd (s : State) : Host.Outcome State Fault Refusal := .next (casEpoch (epochEnd s))

/-! ### Registers computed from the state (R328) -/

/-- CAS_STATUS. -/
def casStatus (s : State) : Word :=
  let c := s.cas
  pk [(30, c.role), (29, c.mode), (26, c.d), (22, c.size), (18, ((List.range 8).filter (nbit (if c.role = 2 then b2n c.selfJoined else c.joined))).length),
      (15, c.form), (14, b2n c.tb2Lock), (0, c.code)]

/-- CAS_JOINED. -/
def casJoined (s : State) : Word :=
  BitVec.ofNat 32 (if s.cas.role = 2 then (if s.cas.selfJoined then 2 ^ s.cas.d else 0) else s.cas.joined)

/-- CAS_NBR_STATUS[s]. -/
def casNbrStatus (s : State) (side : Nat) : Word :=
  let n := vget s.cas.nbrs side
  pk [(29, n.state), (26, n.d), (25, b2n n.swap)]

end Sys2Proof.Machine
end

