-- ==== Sys2Proof/Machine/Frames.lean ====
section
/-!
DEFINITION. Ethernet frames received on FH0, FH1 and MG: the checks of R252 and the sorting of R255.
-/

namespace Sys2Proof.Machine

/-- The port of a frame: FH0, FH1, or MG. -/
def framePort (q : Nat) : Nat := if q = 2 then 4 else q

/-- A frame that passed the checks of R252, sorted (R255); those of MG go to the firmware. -/
def frameSort (q : Nat) (fine : Fin 16) (b : List Byte) (s : State) : State :=
  let unknown := fun (s : State) => (s.addReg (Reg.FHP_PORT_UNKNOWN q) 1).viol 3 q 6 0
  if q ≥ 2 then s
  else if etherType b = 0x88F7 then ptpRx q fine (etherBody b) s
  else if etherType b = 0xAEFE ∧ ¬ isStackMember s then
    match frameFlock s q b with
    | some k => ecpriRx q k (ingressAt s fine) (etherBody b) s
    | none => unknown s
  else unknown s

/-- A received frame (R252, R255): its bytes without the FCS, whether the FCS is right, and whether it holds an uncorrectable codeword,
which LANE_ERROR_WINDOW counts. -/
def frameRx (q : Nat) (fine : Fin 16) (b : List Byte) (fcsOk uncorr : Bool) (s : State) : State :=
  let p := framePort q
  if (port s p).state ≠ .l0 then s
  else if uncorr then s.viol 3 p 4 0
  else if ¬ fcsOk then (s.addHi (Reg.LNE_FRAME_ERR p) 1).viol 3 p 1 0
  else if b.length + 4 < 64 ∨ b.length + 4 > 9216 then (s.addLo (Reg.LNE_FRAME_ERR p) 1).viol 3 p 2 0
  else if etherType b = 0x8808 then (s.addLo (Reg.LNE_PORT_EVENT p) 1).viol 3 p 3 0
  else frameSort q fine b s

/-- ETHERNET_FRAME_RX (R255): `q` is FH0, FH1 or MG. -/
def execEthernetFrameRx (q : Fin 3) (fine : Fin 16) (b : List Byte) (fcsOk uncorr : Bool) (s : State) :
    Host.Outcome State Fault Refusal :=
  .next (frameRx q fine b fcsOk uncorr s)

end Sys2Proof.Machine
end

