-- ==== Sys2Proof/Machine/Boundary.lean ====
section
/-!
DEFINITION. A slot boundary of a path group (R104): what waits for it takes effect.
-/

namespace Sys2Proof.Machine

/-- TX bursts that run in a slot that T2 throttles are cut at its start (R405). -/
def throttleCut (g : Nat) (s : State) : State :=
  if throttledAt s g s.base then burstsOut g 0x22 (fun b => b.started && b.tx) s else s

/-- The fall below stage 4 at this boundary (R47, R207): running bursts are cut, and the group goes to OFF. -/
def stageCut (g : Nat) (s : State) : State :=
  let s := if s.pwr.leaving4 then burstsOut g 0x25 (fun b => b.started && b.tx) s else s
  if (grp s g).toOff then goTo g .off (burstsOut g 0x25 (fun _ => true) (s.modGroup g (fun x => { x with toOff := false }))) else s

/-- The paths of a group, those out of use too. -/
def pathsOfGroup (s : State) (g : Nat) : List Nat := (List.range 64).filter (fun p => s.groupOf p == g)

/-- A boundary of a group (R25, R104, R119, R125, R126, R141, R149, R215). -/
def groupBoundary (g : Nat) (s : State) : State :=
  let s := stageCut g (throttleCut g s)
  let s := resumeAt g (rotBoundary g (lineBoundary g s))
  forAll (pathsOfGroup s g) pathBoundary (convSwaps (pathsOfGroup s g) s)

/-- GROUP_BOUNDARY (R104). -/
def execGroupBoundary (g : Fin 8) (s : State) : Host.Outcome State Fault Refusal := .next (groupBoundary g s)

end Sys2Proof.Machine
end

