-- ==== Sys2Proof/Machine/StoreDone.lean ====
section
/-!
DEFINITION. The end of a record write of the store, and what waited for it (R24, R222, R394, R412, R414, R417, R421, R423).
-/

namespace Sys2Proof.Machine

/-- What waited for a record write: 0 when it committed, otherwise the code STORE or SEQUENCE of R423. -/
def storeWriteEnds (w : StoreWrite) (code : Nat) (s : State) : State :=
  match w.origin with
  | .recPort => recEnd (if code = 0 then 1 else 2) code (if code = 0 ∧ w.type = 4 then copySentinel s else s)
  | .pastPort =>
    if code = 0 then pastEnd 1 0 (pastureForce (some (pastureOf w.body)) s) else pastEnd 2 8 s
  | .reserveMap kinds =>
    forAll kinds (fun _ => State.event Reg.GLB_INT_STATUS 0 0 0)
      (if code = 0 then s else s.logPut 0x83 0 6 true 0)
  | .shutdown | .path _ | .dpd _ _ => s

/-- The write at the head of the queue ends. `fails` lists the rows that failed verification, each with the reserve rows that
failed after it. -/
def storeWriteDone (fails : List (Nat × Nat)) (s : State) : State :=
  match s.nvs.writes with
  | [] => s
  | w :: rest =>
    if ¬ storeWriting s then s
    else
      let spent := seqSpent s w
      let (s, ok) := if spent then (s, false) else rowFails fails s
      let s := if ok then commitWrite w s else s
      let s := s.modNvs (fun v => { v with writes := rest, running := false })
      storeWriteEnds w (if ok then 0 else if spent then 7 else 5) s

/-- STORE_WRITE_DONE (R417). -/
def execStoreWriteDone (fails : List (Fin 4096 × Fin 65)) (s : State) : Host.Outcome State Fault Refusal :=
  .next (storeWriteDone (fails.map (fun x => (x.1.val, x.2.val))) s)

end Sys2Proof.Machine
end

