-- ==== Sys2Proof/Machine/ReadReg.lean ====
section
/-!
DEFINITION. What a read of a register or a window returns (R2, R9, R10, R39, R441, R449, R453, R457, R458, R480), and what a
completed read leaves (R10, R34, R341, R415). A view computes the registers that show state held outside the stored registers.
-/

namespace Sys2Proof.Machine

/-! ### The interrupt summary and the pins (R449…R451) -/

/-- INT_STATUS and INT_EN of the block at base bits [23:16] = `b`, by pairs. -/
def intPairs (b : Nat) : List (Nat × Nat) :=
  match b with
  | 0x00 => [(Reg.GLB_INT_STATUS, Reg.GLB_INT_OWN_EN)]
  | 0x01 => [(Reg.PWR_INT_STATUS, Reg.PWR_INT_EN)]
  | 0x02 => [(Reg.WRP_INT_STATUS, Reg.WRP_INT_EN)]
  | 0x03 => [(Reg.NVS_INT_STATUS, Reg.NVS_INT_EN)]
  | 0x04 => [(Reg.THM_INT_STATUS, Reg.THM_INT_EN)]
  | 0x05 => [(Reg.HKA_INT_STATUS, Reg.HKA_INT_EN)]
  | 0x06 => [(Reg.BDA_INT_STATUS, Reg.BDA_INT_EN)]
  | 0x07 => [(Reg.SYN_INT_STATUS, Reg.SYN_INT_EN)]
  | 0x08 => [(Reg.RAD_INT_STATUS, Reg.RAD_INT_EN)]
  | 0x09 => [(Reg.SKN_INT_STATUS, Reg.SKN_INT_EN)]
  | 0x0A => [(Reg.FFT_INT_STATUS, Reg.FFT_INT_EN)]
  | 0x0B => [(Reg.DPD_INT_STATUS, Reg.DPD_INT_EN)]
  | 0x0C => [(Reg.FHP_INT_STATUS, Reg.FHP_INT_EN)]
  | 0x0D => [(Reg.LNE_INT_STATUS, Reg.LNE_INT_EN)]
  | 0x0E => [(Reg.TIM_INT_STATUS, Reg.TIM_INT_EN)]
  | 0x0F => [(Reg.CAS_INT_STATUS, Reg.CAS_INT_EN)]
  | 0x10 => [(Reg.ACQ_INT_STATUS, Reg.ACQ_INT_EN)]
  | 0x11 => [(Reg.DMA_INT_STATUS, Reg.DMA_INT_EN), (Reg.DMA_INT_FAULT, Reg.DMA_INT_FAULT_EN)]
  | 0x12 => [(Reg.DRC_INT_STATUS, Reg.DRC_INT_EN)]
  | _ => []

/-- An enabled flag of a pair stands. -/
def intOn (s : State) (x : Nat × Nat) : Bool := (s.reg x.1 &&& s.reg x.2) != 0

/-- The path's interrupt stands. -/
def pathInt (s : State) (p : Nat) : Bool := intOn s (Reg.PTH_INT_STATUS p, Reg.PTH_INT_EN p)

/-- GLB_INT_SUMMARY (R449). -/
def intSummary (s : State) : Word :=
  BitVec.ofNat 32 (bitsOf 19 (fun b => (intPairs b).any (intOn s)) + (if (List.range 64).any (pathInt s) then 2 ^ 24 else 0))

/-- GLB_INT_PTH_LO and GLB_INT_PTH_HI. -/
def intPaths (s : State) (first : Nat) : Word := BitVec.ofNat 32 (bitsOf 32 (fun i => pathInt s (first + i)))

/-- INT_N is low (R450). -/
def intLow (s : State) : Bool := decide (s.pwr.stage ≥ 1) && !s.pwr.off && (intSummary s &&& s.reg Reg.GLB_INT_EN) != 0

/-- ALERT_N is low (R451). -/
def alertLow (s : State) : Bool :=
  !s.pwr.off && (s.bit Reg.PWR_AON_WAKE_FAIL 31 || s.thm.shutdown ||
    (decide (s.pwr.stage ≥ 1) && (s.bit Reg.GLB_INT_STATUS 4 || (intSummary s &&& s.reg Reg.GLB_ALERT_EN) != 0)))

/-! ### The log in the register space (R453) -/

/-- The entry at index `i` of GLB_LOG: entries age backwards from HEAD, modulo 128. -/
def logAge (s : State) (i : Nat) : Nat := (s.glb.logHead + 128 - i) % 128

/-- Word `w` of an entry (Table 17-3). -/
def logWord (e : LogEntry) (w : Nat) : Word :=
  match w with
  | 0 => BitVec.ofNat 32 e.timeS
  | 1 => BitVec.ofNat 32 e.timeNs
  | 2 => pk [(24, e.kind), (16, e.index), (8, e.cls), (7, b2n e.event), (6, b2n e.tb1)]
  | 3 => pk [(16, e.rep), (0, e.seq)]
  | 4 => e.detail
  | _ => 0

/-- An address lies in GLB_LOG. -/
def isLog (a : Nat) : Bool := decide (0x1000 ≤ a) && decide (a < 0x2000)

/-- A word of GLB_LOG. -/
def logRead (s : State) (a : Nat) : Word :=
  match s.glb.log[logAge s ((a - 0x1000) / 32)]? with
  | some e => logWord e (a % 32 / 4)
  | none => 0

/-- GLB_LOG_STATUS. -/
def logStatus (s : State) : Word :=
  match s.glb.log with
  | [] => 0
  | e :: _ => pk [(24, s.glb.logHead), (16, s.glb.log.length), (0, e.seq)]

/-- An entry is marked as read once a read has returned any of its words (R34). -/
def logMark (a : Nat) (s : State) : State :=
  s.modGlb (fun g => { g with log := lmod g.log (logAge s ((a - 0x1000) / 32)) (fun e => { e with read := true }) })

/-! ### GLB and FLD registers (Tables 17-6 and 17-7, R458, R480) -/

/-- GLB_UNITS (R5). -/
def glbUnits (o : Order) : Word :=
  match o with
  | .sb => pk [(8, 1)]
  | .sc => pk [(8, 2), (1, 1)]
  | .xf => pk [(8, 3), (1, 1), (0, 1)]

/-- GLB_SERIAL_LO and GLB_SERIAL_HI: the serial number stands in the identity area of the store (Table 16-1). -/
def glbSerial (s : State) (hi : Bool) : Word := Config.serialWord hi (s.storeAt 0 0x1000)

/-- GLB_RES_A[r]. -/
def glbResA (s : State) (r : Nat) : Word :=
  let c := reserveCounts s r
  pk [(16, c.1), (0, c.2.1)]

/-- GLB_RES_B[r]. -/
def glbResB (s : State) (r : Nat) : Word := pk [(16, min 0xFFFF (reserveCounts s r).2.2), (0, vget s.glb.engagements r)]

/-- GLB_DBG_STATUS. -/
def glbDbgStatus (s : State) : Word := put (s.reg Reg.GLB_DBG_STATUS) 31 31 (b2n s.pins.jtagUnlocked)

/-- FLD_STATUS[f] (R458). -/
def fldStatus (s : State) (f : Nat) : Word :=
  let c := vget s.warp.folds f
  if s.wrp.active.isNone then pk [(28, (vget s.thm.zones f).stage)]
  else
    pk [(31, b2n (roleValid s c.txLo)), (30, b2n (roleValid s c.rxLo)), (28, (vget s.thm.zones f).stage),
        (25, obsHolderCode s f), (22, (lineGroup s f).getD 0),
        (8, bitsOf 8 (fun m => (pathOf s (8 * f + m)).txFault != 0)), (0, bitsOf 8 (fun m => (pathOf s (8 * f + m)).rxFault != 0))]

/-! ### The views -/

/-- The registers `stride` apart from `base` that a function of the state shows. -/
structure View where
  base : Nat
  count : Nat
  stride : Nat
  show_ : State → Nat → Word

/-- The view of one register. -/
def one (a : Nat) (f : State → Word) : View := ⟨a, 1, 4, fun s _ => f s⟩

/-- The index of the register of a view at an address. -/
def View.index (v : View) (a : Nat) : Option Nat :=
  if v.base ≤ a ∧ (a - v.base) % v.stride = 0 ∧ (a - v.base) / v.stride < v.count then some ((a - v.base) / v.stride) else none

/-- A field of a DMA channel as a register. -/
def chWord (f : DmaCh → Nat) (s : State) (c : Nat) : Word := BitVec.ofNat 32 (f (vget s.dma.chans c))

def viewsGLB : List View := [
  one Reg.GLB_UNITS (fun s => glbUnits s.fuse.order), one Reg.GLB_SERIAL_LO (fun s => glbSerial s false),
  one Reg.GLB_SERIAL_HI (fun s => glbSerial s true), one Reg.GLB_STAGE (fun s => BitVec.ofNat 32 (fld (pwrStage s) 11 0)),
  one Reg.GLB_INT_SUMMARY intSummary, one Reg.GLB_INT_PTH_LO (fun s => intPaths s 0), one Reg.GLB_INT_PTH_HI (fun s => intPaths s 32),
  one Reg.GLB_DBG_STATUS glbDbgStatus, ⟨Reg.GLB_DBG_NONCE 0, 4, 4, fun s i => BitVec.ofNat 32 (s.glb.dbgNonce / 2 ^ (32 * i))⟩,
  ⟨Reg.GLB_RES_A 0, 8, 8, glbResA⟩, ⟨Reg.GLB_RES_B 0, 8, 8, glbResB⟩, one Reg.GLB_LOG_STATUS logStatus]

def viewsPWR : List View := [
  one Reg.PWR_STAGE pwrStage, one Reg.PWR_LEVEL_STATUS pwrLevelStatus, one Reg.PWR_AON_TIMER pwrAonTimer]

def viewsWRP : List View := [
  one Reg.WRP_STATUS wrpStatusView, one Reg.WRP_FIBRES wrpFibres, one Reg.WRP_SPINDLES wrpSpindles,
  one Reg.WRP_FALLBACK_DL (fun s => BitVec.ofNat 32 s.wrp.fallDl), one Reg.WRP_FALLBACK_UL (fun s => BitVec.ofNat 32 s.wrp.fallUl),
  one Reg.WRP_WEAVER wrpWeaver]

def viewsNVS : List View := [
  one Reg.NVS_STATUS nvsStatus, one Reg.NVS_DATA nvsData, one Reg.NVS_CAL_QUEUE nvsCalQueue, one Reg.NVS_PAST_STATUS nvsPastStatus,
  ⟨Reg.NVS_PAST_NONCE 0, 4, 4, nvsPastNonce⟩,
  ⟨Reg.NVS_PAST_KEY_HASH 0, 8, 4, fun s i => BitVec.ofNat 32 (le s.fuse.keyHash (4 * i) 4)⟩,
  ⟨0x00030900, 43, 4, nvsPastRecord⟩]

def viewsTHM : List View := [
  one Reg.THM_STATUS thmStatus, one Reg.THM_RESERVE (fun s => BitVec.ofNat 32 (thmReserveWord s)), ⟨Reg.THM_ZONE 0, 12, 4, thmZone⟩,
  ⟨Reg.THM_SENSOR 0, 40, 4, thmSensor⟩]

def viewsHKA : List View := [
  one Reg.HKA_QUEUE_LEVEL (fun s => BitVec.ofNat 32 s.hka.queue.length), one Reg.HKA_QUEUE_HEAD hkaQueueHead, one Reg.HKA_STATUS hkaStatus]

def viewsBDA : List View := [
  one Reg.BDA_STATUS bdaStatus, ⟨Reg.BDA_FAULT_SUM 0, 3, 4, bdaFaultSum⟩, ⟨Reg.BDA_ACTIVE 0, 72, 32, bdaActive⟩,
  ⟨Reg.BDA_OUT_STATUS 0, 72, 32, bdaOutStatus⟩, ⟨Reg.BDA_VLIM 0, 72, 32, bdaVlim⟩, ⟨Reg.BDA_ILIM 0, 72, 32, bdaIlim⟩]

def viewsSYN : List View := [
  one Reg.SYN_REF_CFG synRefCfg, one Reg.SYN_REF_STATUS synRefStatus, one Reg.SYN_MAP synMap, ⟨Reg.SYN_UNIT_STATUS 0, 3, 4, synUnitStatus⟩,
  ⟨Reg.SYN_LO_FREQ 0, 2, 4, synLoFreq⟩, ⟨Reg.SYN_LO_WORD 0, 2, 4, synLoWord⟩, one Reg.SYN_LO_STATUS synLoStatus,
  ⟨Reg.SYN_PHASE 0, 8, 4, synPhase⟩]

def viewsRAD : List View := [
  one Reg.RAD_REPORT_LEVEL (fun s => BitVec.ofNat 32 s.rad.reports.length), ⟨Reg.RAD_REPORT 0, 3, 4, radReport⟩,
  ⟨Reg.RAD_GROUP_STATUS 0, 8, 4, radGroupStatus⟩, one Reg.RAD_DUTY radDuty, one Reg.RAD_LIC_STATUS radLicStatus,
  one Reg.RAD_LIC_AGG radLicAgg, ⟨Reg.RAD_LIC_PATH 0, 64, 4, radLicPath⟩, ⟨Reg.RAD_RFFE_STATUS 0, 8, 32, radRffeStatus⟩]

def viewsSKN : List View := [
  one Reg.SKN_REPORT_LEVEL (fun s => BitVec.ofNat 32 s.skn.reports.length), ⟨Reg.SKN_REPORT 0, 4, 4, sknReport⟩,
  ⟨Reg.SKN_LAYER_DL 0, 32, 4, fun s l => sknLayer s false l⟩, ⟨Reg.SKN_LAYER_UL 0, 32, 4, fun s l => sknLayer s true l⟩]

def viewsFFT : List View := [⟨Reg.FFT_STATUS 0, 8, 32, fftStatus⟩]

def viewsDPD : List View := [
  one Reg.DPD_SOLVER dpdSolver, ⟨Reg.DPD_OBS_STATUS 0, 8, 16, dpdObsStatus⟩, ⟨Reg.DPD_STATUS 0, 64, 32, dpdStatus⟩]

def viewsFHP : List View := [
  ⟨Reg.FHP_FLOCK_STATUS 0, 8, 32, fhpFlockStatus⟩, ⟨Reg.FHP_FLOCK_DL 0, 8, 32, fun s k => fhpFlockSlots s false k⟩,
  ⟨Reg.FHP_FLOCK_UL 0, 8, 32, fun s k => fhpFlockSlots s true k⟩, ⟨Reg.FHP_FLOCK_VIOL 0, 8, 32, fhpFlockViol⟩]

def viewsLNE : List View := [
  one Reg.LNE_RESERVE lneReserve, ⟨Reg.LNE_PORT_STATUS 0, 5, 64, lnePortStatus⟩, ⟨Reg.LNE_PORT_MAP0 0, 5, 64, fun s q => lnePortMap s q 0⟩,
  ⟨Reg.LNE_PORT_MAP1 0, 5, 64, fun s q => lnePortMap s q 1⟩, ⟨Reg.LNE_LANE_STATUS 0, 29, 64, lneLaneStatus⟩]

def viewsTIM : List View := [
  one Reg.TIM_STATUS timStatus, one Reg.TIM_RATE_LO (fun s => BitVec.ofNat 32 (rateBits s)),
  one Reg.TIM_RATE_HI (fun s => BitVec.ofNat 32 (rateBits s / 2 ^ 32)), one Reg.TIM_PARENT_ID_HI (fun s => timParentId s true),
  one Reg.TIM_PARENT_ID_LO (fun s => timParentId s false), one Reg.TIM_PARENT_PORT timParentPort,
  ⟨Reg.TIM_PORT_STATUS 0, 2, 64, timPortStatus⟩, ⟨Reg.TIM_TXTS_LEVEL 0, 2, 64, timTxtsLevel⟩,
  ⟨Reg.TIM_TXTS 0 0, 4, 4, fun s i => timTxts s 0 i⟩, ⟨Reg.TIM_TXTS 1 0, 4, 4, fun s i => timTxts s 1 i⟩]

def viewsCAS : List View := [
  one Reg.CAS_STATUS casStatus, one Reg.CAS_STACK_ID (fun s => BitVec.ofNat 32 s.cas.stackId), one Reg.CAS_JOINED casJoined,
  one Reg.CAS_DIGEST (fun s => BitVec.ofNat 32 (casDigest s)), ⟨Reg.CAS_NBR_STATUS 0, 2, 16, casNbrStatus⟩]

def viewsACQ : List View := [
  one Reg.ACQ_STATUS acqStatus, one Reg.ACQ_BUDGET acqBudget, ⟨Reg.ACQ_STREAM_STATUS 0, 4, 64, streamStatus⟩,
  ⟨Reg.ACQ_STREAM_CAP 0, 4, 64, fun s st => BitVec.ofNat 32 (capacity s st)⟩, ⟨Reg.ACQ_MON_STATUS 0, 8, 32, monStatus⟩,
  ⟨Reg.ACQ_MON_DC 0, 8, 32, monDc⟩]

def viewsDMA : List View := [
  ⟨Reg.DMA_CH_STATUS 0, 16, 64, dmaChStatus⟩, ⟨Reg.DMA_CH_SRC 0, 16, 64, chWord (·.src)⟩, ⟨Reg.DMA_CH_DST 0, 16, 64, chWord (·.dst)⟩,
  ⟨Reg.DMA_CH_ADDR_HI 0, 16, 64, chWord (fun c => c.src / 2 ^ 32 % 2 * 2 + c.dst / 2 ^ 32 % 2)⟩,
  ⟨Reg.DMA_CH_REMAIN 0, 16, 64, chWord (·.remain)⟩, ⟨Reg.DMA_CH_ROWS 0, 16, 64, chWord (·.rows)⟩, ⟨Reg.DMA_CH_LOOP 0, 16, 64, dmaChLoop⟩,
  ⟨Reg.DMA_CH_SOFF 0, 16, 64, chWord (fun c => ofS 32 c.soff)⟩, ⟨Reg.DMA_CH_DOFF 0, 16, 64, chWord (fun c => ofS 32 c.doff)⟩,
  ⟨Reg.DMA_CH_EVENTS 0, 16, 64, chWord (·.events)⟩, ⟨Reg.DMA_CH_SIGNAL 0, 16, 64, chWord (·.signal)⟩]

def viewsDRC : List View := [
  one Reg.DRC_STATUS drcStatus, ⟨Reg.DRC_SET 0, 2, 4, drcSet⟩, one Reg.DRC_REF_STATUS drcRefStatus, one Reg.DRC_TRAIN_LOCK drcTrainLock,
  one Reg.DRC_TRAIN_STATUS drcTrainStatus, one Reg.DRC_PAT_STATUS drcPatStatus]

/-- The registers of a path that are views, by their offset. -/
def pathView (s : State) (p off : Nat) : Option Word :=
  match off with
  | 0x00 => some (pthStatus s p)
  | 0x08 => some (pthTxAtten s p)
  | 0x0C => some (pthRxAtten s p)
  | 0x20 => some (pthAdcPos s false p)
  | 0x24 => some (pthAdcPos s true p)
  | 0x28 => some (pthAdcSpare s p)
  | 0x2C => some (pthDacSeg s p)
  | 0x30 => some (pthFault s p)
  | _ => none

/-- The views of the block at address bits [31:16]. -/
def viewsAt (b : Nat) : List View :=
  match b with
  | 0x00 => viewsGLB
  | 0x01 => viewsPWR
  | 0x02 => viewsWRP
  | 0x03 => viewsNVS
  | 0x04 => viewsTHM
  | 0x05 => viewsHKA
  | 0x06 => viewsBDA
  | 0x07 => viewsSYN
  | 0x08 => viewsRAD
  | 0x09 => viewsSKN
  | 0x0A => viewsFFT
  | 0x0B => viewsDPD
  | 0x0C => viewsFHP
  | 0x0D => viewsLNE
  | 0x0E => viewsTIM
  | 0x0F => viewsCAS
  | 0x10 => viewsACQ
  | 0x11 => viewsDMA
  | 0x12 => viewsDRC
  | _ => []

/-- The view of an address, if it has one. -/
def viewWord (s : State) (a : Nat) : Option Word :=
  let b := a / 0x10000
  if 0x200 ≤ b ∧ b < 0x240 then pathView s (b - 0x200) (a % 0x10000)
  else if 0x300 ≤ b ∧ b < 0x308 then (if a % 0x10000 = 0 then some (fldStatus s (b - 0x300)) else none)
  else (viewsAt b).findSome? (fun v => (v.index a).map (v.show_ s))

/-! ### Reads -/

/-- What a register or window word holds for a reader, with no regard to the stage and to the units present. -/
def plainRead (s : State) (a : Nat) : Word :=
  match windowWord s a with
  | some w => w
  | none =>
    if isLog a then logRead s a
    else match viewWord s a with
      | some w => w
      | none =>
        match findRow a with
        | some r => if r.access = .wo then 0 else s.reg a
        | none => 0

/-- What a read of an address by host software returns (R2, R9, R10, R39). -/
def readReg (s : State) (a : Nat) : Word := if s.served a then plainRead s a else 0

/-- What a completed read of an RC register leaves: its reset value (R10), with the least margin forgotten (R57) and the time of the
first missed trigger free for the next (R341). -/
def rcClear (a : Nat) (s : State) : State :=
  let s := s.setReg a (regReset a)
  if a = Reg.PWR_MARGIN then s.modPwr (fun p => { p with least := none })
  else
    match (⟨Reg.ACQ_MISSED 0, 4, 16, fun _ _ => 0⟩ : View).index a with
    | some st => s.modStream st (fun x => { x with missRead := true })
    | none => s

/-- What the last bit of a read word leaves (R10, R34, R415, R441). -/
def afterRead (a : Nat) (s : State) : State :=
  if ¬ s.served a then s
  else if isLog a then logMark a s
  else if a = Reg.NVS_DATA then nvsAdvance s
  else
    match findRow a with
    | some r => if r.access = .rc then rcClear a s else s
    | none => s

/-- RC_REGISTER_READ (R10): a read of an RC register that completes; other addresses are left as they are. -/
def execRcRegisterRead (a : BitVec 32) (s : State) : Host.Outcome State Fault Refusal :=
  .next (match findRow a.toNat with
    | some r => if r.access = .rc then afterRead a.toNat s else s
    | none => s)

end Sys2Proof.Machine
end

