-- ==== Sys2Proof/Machine/Glb.lean ====
section
/-!
DEFINITION. The boot flash operations of host software (R445…R448), debug access (R443, R456, R481) and the drover watchdog
(R452).
-/

namespace Sys2Proof.Machine

/-! ### The flash (R446, R448) -/

/-- A valid directory (Table 17-2). -/
def directoryOk (s : State) : Bool :=
  let d := flashBytes s 0 0x1000
  d.take 4 == [0x42, 0x46, 0x44, 0x31] && le d 4 2 == 1 && le d 4092 4 == crc32c (d.take 4092)

/-- Bytes of the flash by its directory; the least size of R445 where the directory is not valid. -/
def flashSize (s : State) : Nat := if directoryOk s then leNat (flashBytes s 12 4) else 0x2000000

/-- The boot ROM is reading: at stage 1, before an image has passed, unless the climb is held there (R44). -/
def bootReading (s : State) : Bool := decide (s.pwr.stage = 1) && !s.pwr.fwOk && decide (climbGoal s > 1)

/-- The alignment of an operation: a page or a sector. -/
def flashAlign (op : FlashOp) : Nat :=
  match op with
  | .program => 256
  | .erase => 65536
  | .read | .verify => 1

/-- The first code of R448 that refuses an operation; 0 when none does. -/
def flashCode (s : State) (op : FlashOp) (a : Nat) : Nat :=
  if s.glb.flashRun.isSome ∨ bootReading s then 1
  else if op ≠ .verify ∧ (a ≥ flashSize s ∨ a % flashAlign op ≠ 0) then 2
  else if s.pwr.stage < 1 then 3
  else 0

/-- What an operation does to the flash and to the page buffer. -/
def flashEffect (op : FlashOp) (a : Nat) (s : State) : State :=
  match op with
  | .read => s.modGlb (fun g => { g with flashBuf := mwrite blank g.flashBuf 0 (flashBytes s a 256) })
  | .program => s.modGlb (fun g => { g with flash := mwrite erased g.flash a (mread blank g.flashBuf 0 256) })
  | .erase => s.modGlb (fun g => { g with flash := g.flash.filter (fun x => decide (x.1 < a) || decide (a + 65536 ≤ x.1)) })
  | .verify => s

/-- GLB_FLASH_CTRL.GO with an operation (R448). -/
def flashGo (op : FlashOp) (slot : Nat) (s : State) : State :=
  let a := (s.reg Reg.GLB_FLASH_ADDR).toNat
  let c := flashCode s op a
  if c = 1 then s.setReg Reg.GLB_FLASH_STATUS (put (put (s.reg Reg.GLB_FLASH_STATUS) 31 30 2) 23 16 1)
  else if c ≠ 0 then s.setReg Reg.GLB_FLASH_STATUS (pk [(30, 2), (16, c)])
  else
    ((flashEffect op a s).modGlb (fun g => { g with flashRun := some { op := op, slot := slot } })).setReg
      Reg.GLB_FLASH_STATUS (pk [(30, 3)])

/-- FLASH_READ (R448). -/
def execFlashRead (s : State) : Host.Outcome State Fault Refusal := .next (s.hosted Reg.GLB_FLASH_CTRL (flashGo .read 0))

/-- FLASH_PROGRAM (R448). -/
def execFlashProgram (s : State) : Host.Outcome State Fault Refusal := .next (s.hosted Reg.GLB_FLASH_CTRL (flashGo .program 0))

/-- FLASH_ERASE (R448). -/
def execFlashErase (s : State) : Host.Outcome State Fault Refusal := .next (s.hosted Reg.GLB_FLASH_CTRL (flashGo .erase 0))

/-- FLASH_VERIFY (R447, R448). -/
def execFlashVerify (slot : Fin 2) (s : State) : Host.Outcome State Fault Refusal :=
  .next (s.hosted Reg.GLB_FLASH_CTRL (flashGo .verify slot))

/-- The operation that runs ends: DONE, and for VERIFY what it found. -/
def flashOpDone (s : State) : State :=
  match s.glb.flashRun with
  | none => s
  | some r =>
    let found := if r.op = .verify then imageVersion s r.slot else none
    let s := s.modGlb (fun g => { g with flashRun := none })
    let s := s.setReg Reg.GLB_FLASH_STATUS (pk [(30, 1), (0, b2n found.isSome)])
    let s := match found with
      | some v => s.setReg Reg.GLB_FLASH_VERSION (BitVec.ofNat 32 v)
      | none => s
    s.raise Reg.GLB_INT_STATUS 3

/-- FLASH_OP_DONE (R448). -/
def execFlashOpDone (s : State) : Host.Outcome State Fault Refusal := .next (flashOpDone s)

/-- A write of GLB_FLASH_CTRL; an undefined OP has no effect. -/
def flashCtrlWrite (w : Word) (s : State) : State :=
  if ¬ bitOf w 31 then s
  else
    match fld w 2 0 with
    | 0 => flashGo .read 0 s
    | 1 => flashGo .program 0 s
    | 2 => flashGo .erase 0 s
    | 3 => flashGo .verify (fld w 8 8) s
    | _ => s

/-! ### Debug access (R456) -/

/-- The bytes of the challenge. -/
def dbgNonce (s : State) : List Byte := leBytes 16 s.glb.dbgNonce

/-- The first code of R456 that refuses an unlock; 0 when none does. -/
def unlockCode (s : State) : Nat :=
  let b := s.glb.dbg.bytes
  if s.pwr.stage ≥ 4 then 1
  else if ¬ s.glb.dbg.fits 36 then 5
  else if ¬ sigKeyOk (b.drop 16) s.fuse.keyHash then 2
  else if ¬ sigOk (b.drop 16) (b.take 16) then 3
  else if b.take 16 ≠ dbgNonce s then 4
  else 0

/-- GLB_DBG_CTRL.UNLOCK (R443, R456): every attempt empties the buffer and draws a new challenge. -/
def unlock (s : State) : State :=
  let c := unlockCode s
  let s := s.setReg Reg.GLB_DBG_STATUS (pk [(16, c)])
  let s := if c = 0 then s.modPins (fun p => { p with jtagUnlocked := true }) else s
  dbgDraw (s.modGlb (fun g => { g with dbg := {} }))

/-- UNLOCK (R456). -/
def execUnlock (s : State) : Host.Outcome State Fault Refusal := .next (s.hosted Reg.GLB_DBG_CTRL unlock)

/-- Empty the debug staging buffer. -/
def dbgClear (s : State) : State := s.modGlb (fun g => { g with dbg := {} })

/-- DBG_CLEAR (R481). -/
def execDbgClear (s : State) : Host.Outcome State Fault Refusal := .next (s.hosted Reg.GLB_DBG_CTRL dbgClear)

/-- A write of GLB_DBG_CTRL: CLEAR, then UNLOCK (R481). -/
def dbgCtrlWrite (w : Word) (s : State) : State :=
  let s := if bitOf w 1 then dbgClear s else s
  if bitOf w 0 then unlock s else s

/-- Stage a word in GLB_DBG_DATA (R443). -/
def dbgData (w : Word) (s : State) : State :=
  let past := s.glb.dbg.words.length ≥ 36
  let s := s.modGlb (fun g => { g with dbg := g.dbg.push 36 w })
  if past then s.refusedWrite Reg.GLB_DBG_DATA else s

/-- GLB_DBG_DATA_WRITE (R443). -/
def execGlbDbgDataWrite (w : Word) (s : State) : Host.Outcome State Fault Refusal :=
  .next (s.hosted Reg.GLB_DBG_DATA (dbgData w))

/-! ### The watchdog (R452) -/

/-- The drover watchdog expires: safe bias, RELEASE cleared, the expiry counted and logged; the drover restarts from its image in
memory. -/
def watchdogExpiry (s : State) : State :=
  ((release false (globalSafe 2 s)).addLo Reg.GLB_WDOG 1).event Reg.GLB_INT_STATUS 4 0 0

/-- WATCHDOG_EXPIRY (R452): it runs from the start of the firmware at stage 2. -/
def execWatchdogExpiry (s : State) : Host.Outcome State Fault Refusal :=
  .next (if s.pwr.off ∨ s.pwr.stage < 2 then s else watchdogExpiry s)

end Sys2Proof.Machine
end

