-- ==== Sys2Proof/Machine/WriteReg.lean ====
section
/-!
DEFINITION. What a write of host software to an address does: the windows, the registers with an action of their own, and for the
others their access code (R2, R9, R10, R11, R39).
-/

namespace Sys2Proof.Machine

/-- The registers `stride` apart from `base` whose write acts on the device; the word is as written. -/
structure Act where
  base : Nat
  count : Nat
  stride : Nat
  act : Nat → Word → State → State

/-- The action of one register. -/
def act1 (a : Nat) (f : Word → State → State) : Act := ⟨a, 1, 4, fun _ w => f w⟩

/-- The index of the register of an action at an address. -/
def Act.index (v : Act) (a : Nat) : Option Nat :=
  if v.base ≤ a ∧ (a - v.base) % v.stride = 0 ∧ (a - v.base) / v.stride < v.count then some ((a - v.base) / v.stride) else none

/-- An action that bit 0 of the word asks for. -/
def onBit0 (f : State → State) (w : Word) (s : State) : State := whenB (bitOf w 0) f s

/-- The trigger of a FORCE that comes by register: the next source sample, whose time the writer does not give. -/
def forceGrid (s : State) : Grid × State :=
  let (n, s) := s.draw
  let d := Config.forceHit n
  ({ time := s.tb3 + d.1, before := d.2 }, s)

/-- A write of ACQ_STREAM_CTRL: DISARM, then ARM, then FORCE. -/
def streamCtrlWrite (st : Nat) (w : Word) (s : State) : State :=
  let s := whenB (bitOf w 1) (disarm st (whoId false)) s
  let s := whenB (bitOf w 0) (streamArm st (whoId false)) s
  if bitOf w 2 then
    let (g, s) := forceGrid s
    forceTrigger st g s
  else s

/-- A write of BDA_CTRL: CLEAR_ALL_FAULTS, then RELEASE_SAFE. -/
def bdaCtrlWrite (w : Word) (s : State) : State :=
  whenB (bitOf w 1) releaseSafe (whenB (bitOf w 0) (forAll (List.range 72) clearFault) s)

/-- A write of DRC_TRAIN_LOCK: HOST, then RETRAIN. -/
def trainLockWrite (w : Word) (s : State) : State := whenB (bitOf w 1) retrainFailed (hostLock (bitOf w 0) s)

/-- A write of PWR_AON_WAKE_FAIL: VALID = 1 clears the record (R52). -/
def wakeFailWrite (w : Word) (s : State) : State := whenB (bitOf w 31) wakeFailClear s

/-- A write of DMA_CH_EVENTS: the bits written 1 are no longer pending. -/
def chEventsWrite (c : Nat) (w : Word) (s : State) : State :=
  s.modCh c (fun x => { x with events := (BitVec.ofNat 32 x.events &&& ~~~w).toNat })

/-- A write of TIM_PORT_CFG: LOCAL_PRIO enters the choice of the parent (R295). -/
def timPortCfgWrite (q : Nat) (w : Word) (s : State) : State := bmca (s.setReg (Reg.TIM_PORT_CFG q) (w &&& 0xFF))

/-- The settings of a stream (R334), each with the bits a write can store. -/
def streamAct (a : Nat) (mask : Word) : Act := ⟨a, 4, 64, fun st w => streamRegWrite st (a + 64 * st) (w &&& mask)⟩

def actsGLB : List Act := [
  act1 Reg.GLB_FLASH_CTRL flashCtrlWrite, act1 Reg.GLB_DBG_CTRL dbgCtrlWrite, act1 Reg.GLB_DBG_DATA dbgData]

def actsPWR : List Act := [
  act1 Reg.PWR_STAGE_CTRL stageCtrlWrite, act1 Reg.PWR_STATE_REQ stateReqWrite, act1 Reg.PWR_LEVEL_REQ levelReqWrite,
  act1 Reg.PWR_AON_WAKE_FAIL wakeFailWrite, act1 Reg.PWR_AON_SHL_CFG shlCfgWrite]

def actsWRP : List Act := [
  act1 Reg.WRP_CTRL wrpCtrlWrite, act1 Reg.WRP_STAGE_LEN wrpStageLenWrite, act1 Reg.WRP_DATA wrpData]

def actsNVS : List Act := [
  act1 Reg.NVS_PAST_CTRL pastCtrlWrite, act1 Reg.NVS_PAST_DATA pastData, act1 Reg.NVS_REC_CTRL recCtrlWrite, act1 Reg.NVS_REC_DATA recData,
  act1 Reg.NVS_DATA (fun w => nvsDataWrite w none), act1 Reg.NVS_CAL_REQ calReqWrite]

def actsHKA : List Act := [
  act1 Reg.HKA_TRIG (onBit0 scanTrigger), act1 Reg.HKA_URGENT urgentRequest,
  act1 Reg.HKA_QUEUE_POP (onBit0 (fun s => s.modHka (fun h => { h with queue := h.queue.drop 1 })))]

def actsBDA : List Act := [
  act1 Reg.BDA_LOAD bdaLoadWrite, act1 Reg.BDA_CTRL bdaCtrlWrite, ⟨Reg.BDA_CODE 0, 72, 32, fun n w => bdaCodeWrite n w.toNat⟩,
  ⟨Reg.BDA_OUT_CTRL 0, 72, 32, fun n => onBit0 (clearFault n)⟩]

def actsSYN : List Act := [
  act1 Reg.SYN_REF_CFG refCfgWrite, act1 Reg.SYN_CTRL synCtrlWrite, ⟨Reg.SYN_PHASE 0, 8, 4, phaseWrite⟩]

def actsRAD : List Act := [
  act1 Reg.RAD_GROUP_CMD groupCmdWrite, act1 Reg.RAD_BURST_CTRL burstCtrlWrite,
  act1 Reg.RAD_REPORT_POP (onBit0 (fun s => s.modRad (fun r => { r with reports := r.reports.drop 1 }))),
  ⟨Reg.RAD_RFFE_CMD 0, 8, 32, rffeCmdWrite⟩]

def actsSKN : List Act := [
  act1 Reg.SKN_SWITCH_CTRL sknSwitchWrite,
  act1 Reg.SKN_REPORT_POP (onBit0 (fun s => s.modSkn (fun k => { k with reports := k.reports.drop 1 })))]

def actsFFT : List Act := [⟨Reg.FFT_JOB_SUBMIT 0, 8, 32, fun f => onBit0 (fftSubmit f (whoId false))⟩]

def actsDPD : List Act := [
  act1 Reg.DPD_SWITCH_CTRL dpdSwitchWrite, act1 Reg.DPD_SURVEY_CTRL surveyGo, ⟨Reg.DPD_PATH_CFG 0, 64, 32, dpdPathCfgWrite⟩]

def actsFHP : List Act := [act1 Reg.FHP_FLOCK_CTRL flockCtrlWrite]

def actsLNE : List Act := [
  ⟨Reg.LNE_PORT_CTRL 0, 5, 64, portCtrlWrite⟩, ⟨Reg.LNE_TX_EQ 0, 29, 64, txEqWrite⟩, ⟨Reg.LNE_TEST_CTRL 0, 29, 64, testWrite⟩,
  ⟨Reg.LNE_LANE_CTRL 0, 29, 64, fun n => onBit0 (swapLane n)⟩]

def actsTIM : List Act := [
  act1 Reg.TIM_CTRL timCtrlWrite, act1 Reg.TIM_PTP_CFG timPtpCfgWrite, ⟨Reg.TIM_PORT_CFG 0, 2, 64, timPortCfgWrite⟩,
  ⟨Reg.TIM_ASYM 0, 2, 64, timAsymWrite⟩, ⟨Reg.TIM_TXTS_POP 0, 2, 64, txtsPopWrite⟩]

def actsCAS : List Act := [act1 Reg.CAS_CTRL casCtrlWrite]

def actsACQ : List Act := [
  ⟨Reg.ACQ_STREAM_CTRL 0, 4, 64, streamCtrlWrite⟩, streamAct (Reg.ACQ_STREAM_SRC 0) 0xFFFF8000,
  streamAct (Reg.ACQ_STREAM_BASE 0) 0x07FFFFFF, streamAct (Reg.ACQ_STREAM_SEG_BYTES 0) 0xFFFFFFC0,
  streamAct (Reg.ACQ_STREAM_COUNT 0) 0xFFFF, streamAct (Reg.ACQ_STREAM_PRE 0) 0xFFFFFFFF,
  streamAct (Reg.ACQ_STREAM_POST 0) 0xFFFFFFFF, streamAct (Reg.ACQ_STREAM_REDUCE 0) 0xFFFF,
  streamAct (Reg.ACQ_STREAM_TRIG 0) 0xFFFF0000, streamAct (Reg.ACQ_STREAM_THRESH 0) 0x00FFFFFF,
  streamAct (Reg.ACQ_STREAM_HYST 0) 0x007FFFFF, streamAct (Reg.ACQ_STREAM_HOLD 0) 0xFFFFFFFF,
  streamAct (Reg.ACQ_STREAM_TIME_S 0) 0xFFFFFFFF, streamAct (Reg.ACQ_STREAM_TIME_NS 0) 0xFFFFFFFF,
  ⟨Reg.ACQ_MON_CFG 0, 8, 32, monCfgWrite⟩, ⟨Reg.ACQ_MON_SHIFT 0, 8, 32, monShiftWrite⟩]

def actsDMA : List Act := [⟨Reg.DMA_CH_CTRL 0, 16, 64, chCtrlWrite⟩, ⟨Reg.DMA_CH_EVENTS 0, 16, 64, chEventsWrite⟩]

def actsDRC : List Act := [
  act1 Reg.DRC_FREQ_REQ (fun w => freqReq (fld w 2 0)), act1 Reg.DRC_TRAIN_LOCK trainLockWrite, act1 Reg.DRC_PAT_CTRL patGo]

/-- The registers of a path whose write acts, by their offset. -/
def pathAct (p off : Nat) : Option (Word → State → State) :=
  match off with
  | 0x04 => some (pthCtrlWrite p)
  | 0x08 => some (txAttenWrite p)
  | 0x0C => some (rxAttenWrite p)
  | 0x10 => some (trimUserWrite true p)
  | 0x14 => some (trimUserWrite false p)
  | _ => none

/-- The actions of the block at address bits [31:16]. -/
def actsAt (b : Nat) : List Act :=
  match b with
  | 0x00 => actsGLB
  | 0x01 => actsPWR
  | 0x02 => actsWRP
  | 0x03 => actsNVS
  | 0x05 => actsHKA
  | 0x06 => actsBDA
  | 0x07 => actsSYN
  | 0x08 => actsRAD
  | 0x09 => actsSKN
  | 0x0A => actsFFT
  | 0x0B => actsDPD
  | 0x0C => actsFHP
  | 0x0D => actsLNE
  | 0x0E => actsTIM
  | 0x0F => actsCAS
  | 0x10 => actsACQ
  | 0x11 => actsDMA
  | 0x12 => actsDRC
  | _ => []

/-- The action of an address, if it has one. -/
def actOf (a : Nat) : Option (Word → State → State) :=
  let b := a / 0x10000
  if 0x200 ≤ b ∧ b < 0x240 then pathAct (b - 0x200) (a % 0x10000)
  else (actsAt b).findSome? (fun v => (v.index a).map v.act)

/-- A write to a window (R153, R188, R368, R457); none outside the windows. -/
def windowAct (a : Nat) (w : Word) : Option (State → State) :=
  let bs := leBytes 4 w.toNat
  if isSkein a then some (skeinWrite a bs)
  else if isCoef a then some (coefHostWrite a w)
  else if isDmaProg a then some (dmaProgPut ((a - 0x00112000) / 4) w)
  else if isDmaWindow a then some (dmaWindowWrite (a - 0x00118000) bs)
  else if isFlashBuf a then some (fun s => s.modGlb (fun g => { g with flashBuf := mwrite blank g.flashBuf (a - 0x200) bs }))
  else none

/-- The field [hi:lo] of a word brought into a range. -/
def clampFld (w : Word) (hi lo least most : Nat) : Word := put w hi lo (clampN least most (fld w hi lo))

/-- The form in which a register stores a word: each field that its chapter limits is brought into its range. -/
def storedForm (a : Nat) (w : Word) : Word :=
  let in_ := fun (base count stride : Nat) => ((⟨base, count, stride, fun _ _ => 0⟩ : View).index a).isSome
  if a = Reg.GLB_SPI_CFG then (if w = 1 then 2 else w)
  else if a = Reg.SYN_LOCK_CFG_RF ∨ a = Reg.SYN_LOCK_CFG_CNV then clampFld (clampFld w 28 16 16 4096) 7 0 1 255
  else if a = Reg.SKN_CFG then clampFld (clampFld w 19 16 0 9) 3 0 0 9
  else if a = Reg.DPD_CFG then
    let w := clampFld w 15 12 1 8
    if fld w 3 0 = 1 ∨ fld w 3 0 > 8 then put w 3 0 8 else w
  else if a = Reg.DPD_SURVEY_CFG then clampFld w 31 22 512 1023
  else if in_ (Reg.DPD_OBS_CFG 0) 8 16 then clampFld w 4 0 0 30
  else if in_ (Reg.DPD_PERIOD 0) 64 32 then clampFld w 7 0 10 200
  else if in_ (Reg.RAD_RFFE_CFG 0) 8 32 then (if fld w 1 0 > 1 then put w 1 0 1 else w)
  else if a = Reg.LNE_QUAR_THRESH ∨ a = Reg.TIM_PTP_QUAR ∨ a = Reg.CAS_VIOL_THRESH then clampFld w 15 0 1 65535
  else if a = Reg.FHP_CFG then clampFld (clampFld w 23 16 1 255) 15 8 10 100
  else if a = Reg.FHP_UL_BLOCKS then clampFld (clampFld (clampFld w 23 16 1 191) 15 8 1 248) 7 0 1 255
  else if a = Reg.TIM_LOCK_CFG then clampFld (clampFld (clampFld w 31 24 1 255) 23 16 1 255) 7 0 1 255
  else if a = Reg.TIM_HOLD_CFG then clampFld w 15 0 1 65535
  else if a = Reg.TIM_PPS_CFG then clampFld (clampFld w 29 28 0 2) 15 0 1 65535
  else if a = Reg.ACQ_TRIG_IN_CFG then clampFld w 1 0 0 2
  else if a = Reg.DRC_PAT_LEN ∨ a = Reg.DRC_PAT_SEED then (if w = 0 then 1 else w)
  else if a = Reg.HKA_SCAN_LEN then clampFld w 6 0 0 64
  else if a = Reg.HKA_CFG then clampFld w 15 0 1 65535
  else if a = Reg.BDA_CFG then clampFld (clampFld w 29 28 0 2) 3 0 1 15
  else if a = Reg.THM_CFG then
    let w := clampFld w 31 24 60 100
    clampFld (clampFld (clampFld w 23 16 (fld w 31 24 + 3) 108) 10 8 1 7) 3 0 1 15
  else w

/-- A write to a register with no action of its own, by its access code (R10): the bits it can store, in their stored form; the
bits written 1 cleared; or nothing. -/
def storeWrite (r : RegRow) (a : Nat) (w : Word) (s : State) : State :=
  let m := BitVec.ofNat 32 r.mask
  match r.access with
  | .rw | .rwl => s.setReg a (storedForm a ((s.reg a &&& ~~~m) ||| (w &&& m)))
  | .w1c => s.setReg a (s.reg a &&& ~~~w)
  | .ro | .wo | .rc => s

/-- A write to a register: an RWL register is locked from stage 3 on (R11). -/
def regWrite (a : Nat) (w : Word) (s : State) : State :=
  match findRow a with
  | none => s
  | some r =>
    if r.access = .rwl ∧ s.pwr.stage ≥ 3 then s.violSpi 4 a
    else
      match actOf a with
      | some f => f w s
      | none => storeWrite r a w s

/-- A write of host software to an address: nothing where the port does not serve it or the unit is absent (R2, R39). -/
def hostWrite (a : Nat) (w : Word) (s : State) : State :=
  s.hosted a (match windowAct a w with
    | some f => f
    | none => regWrite a w)

/-- REGISTER_WRITE (R10). -/
def execRegisterWrite (a : BitVec 32) (w : Word) (s : State) : Host.Outcome State Fault Refusal := .next (hostWrite a.toNat w s)

/-- WAIT_POLL_READ (R373): a channel in a POLL wait reads its register. -/
def execWaitPollRead (c : Fin 16) (s : State) : Host.Outcome State Fault Refusal :=
  let x := vget s.dma.chans c
  .next (if x.state = .waiting ∧ x.cond = 2 then pollRead c (readReg s x.arg) (afterRead x.arg s) else s)

end Sys2Proof.Machine
end

