-- ==== Sys2Proof/Machine/Spi.lean ====
section
/-!
DEFINITION. The management SPI port: its frames, what they break, and the STATUS byte (R438…R444).
-/

namespace Sys2Proof.Machine

/-! ### The STATUS byte and the frame's address (R439, R440, R444) -/

/-- The STATUS byte (R444): below stage 1 only the stage and ALERT fields. -/
def spiStatus (s : State) : Byte :=
  BitVec.ofNat 8 (b2n (alertLow s) * 128 + b2n (intLow s) * 64 + s.pwr.stage * 8 +
    (if s.pwr.stage ≥ 1 then b2n s.glb.spiBroke * 4 else 0))

/-- A frame that breaks R440: counted and logged from stage 1 on (R39). -/
def spiViolation (cls : Nat) (addr : Word) (s : State) : State :=
  if s.pwr.stage = 0 then s else (s.addLo Reg.GLB_SPI_STATUS 1).viol 7 0 cls addr

/-- What the next STATUS byte says of this frame. -/
def spiEnd (broke : Bool) (out : List Byte) (s : State) : State :=
  s.modGlb (fun g => { g with spiBroke := broke && decide (s.pwr.stage ≥ 1), spiOut := out })

/-- A frame discarded whole: the OPCODE or the address is faulty (R440). -/
def spiDiscard (cls : Nat) (addr : Word) (out : List Byte) (s : State) : State := spiEnd true out (spiViolation cls addr s)

/-- The address of a frame, or the address logged for one that is not complete. -/
def spiAddress (b : List Byte) (s : State) : Word × State :=
  if b.length ≥ 4 then (BitVec.ofNat 32 (leNat (b.take 4)), s)
  else
    let (n, s) := s.draw
    (Config.partialAddress n, s)

/-- The codes of Table 17-1 (R440). -/
def spiOpcodes : List Byte := [0x20, 0x21, 0x30, 0x31]

/-- A frame from the bytes after its OPCODE (R440): a faulty OPCODE or address discards it, and `go` does the rest. -/
def spiFrame (badOp : Option Byte) (b : List Byte) (out : List Byte) (go : Nat → State → State) (s : State) : State :=
  if s.pwr.off then s
  else
    let (a, s) := spiAddress b s
    if badOp.any (fun o => !spiOpcodes.contains o) then spiDiscard 1 a out s
    else if b.length < 4 then spiDiscard 3 a out s
    else if a.toNat % 4 ≠ 0 then spiDiscard 2 a out s
    else go a.toNat s

/-- The address of word `i` of a frame. -/
def wordAddr (incr : Bool) (a i : Nat) : Nat := if incr then (a + 4 * i) % 2 ^ 32 else a

/-! ### Write frames (R439, R440, R442) -/

/-- The whole words of a write frame, in order, each written to its address. -/
def spiWords (incr : Bool) (a : Nat) : Nat → List Byte → State → State
  | i, b0 :: b1 :: b2 :: b3 :: rest, s =>
    spiWords incr a (i + 1) rest (hostWrite (wordAddr incr a i) (BitVec.ofNat 32 (leNat [b0, b1, b2, b3])) s)
  | _, _, s => s

/-- A write frame: `b` is what follows the OPCODE on MOSI. -/
def spiWrite (incr : Bool) (badOp : Option Byte) (b : List Byte) (s : State) : State :=
  let out := spiStatus s :: List.replicate b.length 0
  spiFrame badOp b out (fun a s =>
    let data := b.drop 4
    let s := spiWords incr a 0 data s
    let short := data.length % 4 ≠ 0
    let s := if short then spiViolation 3 (BitVec.ofNat 32 (wordAddr incr a (data.length / 4))) s else s
    spiEnd short out s) s

/-- WRITE_INCR (R439). An OPCODE that Table 17-1 does not have comes as `badOp`. -/
def execWriteIncr (badOp : Option Byte) (b : List Byte) (s : State) : Host.Outcome State Fault Refusal := .next (spiWrite true badOp b s)

/-- WRITE_FIXED (R439). -/
def execWriteFixed (b : List Byte) (s : State) : Host.Outcome State Fault Refusal := .next (spiWrite false none b s)

/-! ### Read frames (R439, R441) -/

/-- Dummy bytes of a read frame. -/
def spiDummy (s : State) : Nat := if s.fld Reg.GLB_SPI_CFG 3 0 = 0 then 16 else s.fld Reg.GLB_SPI_CFG 3 0

/-- A word of a read frame is one of a window or of the log: it comes from the copy taken with the first word. -/
def fromCopy (a : Nat) : Bool :=
  isSkein a || isCoef a || isDmaProg a || isDmaWindow a || isFlashBuf a || isLog a ||
    (decide (0x00030900 ≤ a) && decide (a < 0x000309AC))

/-- The words of a read frame from the `i`-th on, `n` bytes of MISO being left: a word that is not ready reads as zero and is
counted, and a word that leaves whole has its effect (R441). `copy` is the state as the first word was fetched. -/
def spiReadWords (incr : Bool) (a : Nat) (late : List Nat) (copy : State) : Nat → Nat → Nat → State → List Byte × State
  | 0, _, _, s => ([], s)
  | k + 1, i, n, s =>
    if n = 0 then ([], s)
    else
      let x := wordAddr incr a i
      let missed := late.contains i
      let w := if missed then 0 else readReg (if fromCopy x then copy else s) x
      let s := if missed then (if s.pwr.stage = 0 then s else s.addHi Reg.GLB_SPI_STATUS 1)
        else if n ≥ 4 then afterRead x s else s
      let r := spiReadWords incr a late copy k (i + 1) (n - 4) s
      ((leBytes 4 w.toNat).take n ++ r.1, r.2)

/-- A read frame: `b` is the address bytes after the OPCODE, `n` the bytes clocked after them, and `late` the words that were not
ready by their first bit. -/
def spiRead (incr : Bool) (b : List Byte) (n : Nat) (late : List Nat) (s : State) : State :=
  let head := spiStatus s :: List.replicate (min 4 b.length) 0
  let d := spiDummy s
  spiFrame none (b.take 4) head (fun a s =>
    let words := divUp (n - d) 4
    let r := spiReadWords incr a late s words 0 (n - d) s
    spiEnd (late.any (fun i => decide (i < words))) (head ++ List.replicate (min d n) 0 ++ r.1) r.2) s

/-- READ_INCR (R439). -/
def execReadIncr (b : List Byte) (n : Nat) (late : List Nat) (s : State) : Host.Outcome State Fault Refusal := .next (spiRead true b n late s)

/-- READ_FIXED (R439). -/
def execReadFixed (b : List Byte) (n : Nat) (late : List Nat) (s : State) : Host.Outcome State Fault Refusal := .next (spiRead false b n late s)

end Sys2Proof.Machine
end

