-- ==== Sys2Proof/Machine/Dispatch.lean ====
section
/-!
DEFINITION. What each command does: one arm per constructor.
-/

namespace Sys2Proof.Machine

def exec (i : Instr) (s : State) : Host.Outcome State Fault Refusal :=
  match i with
  | .vsenRise => Sys2Proof.Machine.execVsenRise s
  | .vsenFall => Sys2Proof.Machine.execVsenFall s
  | .powerFailWarning vsen remaining => Sys2Proof.Machine.execPowerFailWarning vsen remaining s
  | .xtalOk => Sys2Proof.Machine.execXtalOk s
  | .rstNAssert => Sys2Proof.Machine.execRstNAssert s
  | .rstNRelease => Sys2Proof.Machine.execRstNRelease s
  | .shielingFrame site cmd crc => Sys2Proof.Machine.execShielingFrame site cmd crc s
  | .wakeNLow => Sys2Proof.Machine.execWakeNLow s
  | .aonTimerAlarm => Sys2Proof.Machine.execAonTimerAlarm s
  | .spiChipSelectWake => Sys2Proof.Machine.execSpiChipSelectWake s
  | .fronthaulSignalDetect q => Sys2Proof.Machine.execFronthaulSignalDetect q s
  | .thermalWakeCrossing => Sys2Proof.Machine.execThermalWakeCrossing s
  | .pmbusTransactionDone n mode => Sys2Proof.Machine.execPmbusTransactionDone n mode s
  | .pmbusAttemptFailed n why => Sys2Proof.Machine.execPmbusAttemptFailed n why s
  | .railRetry n => Sys2Proof.Machine.execRailRetry n s
  | .smbalert words => Sys2Proof.Machine.execSmbalert words s
  | .railFault n => Sys2Proof.Machine.execRailFault n s
  | .pmbusTelemetryPoll r => Sys2Proof.Machine.execPmbusTelemetryPoll r s
  | .refCheckWindowDone edges => Sys2Proof.Machine.execRefCheckWindowDone edges s
  | .refCheckTimeout => Sys2Proof.Machine.execRefCheckTimeout s
  | .firmwareImageVerified => Sys2Proof.Machine.execFirmwareImageVerified s
  | .linkWaitExpiry => Sys2Proof.Machine.execLinkWaitExpiry s
  | .stageClimb => Sys2Proof.Machine.execStageClimb s
  | .stage4Entry => Sys2Proof.Machine.execStage4Entry s
  | .release on => Sys2Proof.Machine.execRelease on s
  | .climb => Sys2Proof.Machine.execClimb s
  | .gotoSafe => Sys2Proof.Machine.execGotoSafe s
  | .stage4ExitComplete => Sys2Proof.Machine.execStage4ExitComplete s
  | .pwrLevelReq l => Sys2Proof.Machine.execPwrLevelReq l s
  | .levelChangePoint => Sys2Proof.Machine.execLevelChangePoint s
  | .cadenceReport r => Sys2Proof.Machine.execCadenceReport r s
  | .vtrimStepDown => Sys2Proof.Machine.execVtrimStepDown s
  | .cadenceSlip => Sys2Proof.Machine.execCadenceSlip s
  | .pwrStateReqDoze => Sys2Proof.Machine.execPwrStateReqDoze s
  | .pwrStateReqSentinel => Sys2Proof.Machine.execPwrStateReqSentinel s
  | .sleepStepDone late => Sys2Proof.Machine.execSleepStepDone late s
  | .autoDoze => Sys2Proof.Machine.execAutoDoze s
  | .dozeExitDone mr4 drift => Sys2Proof.Machine.execDozeExitDone mr4 drift s
  | .pwrAonWakeFailClear => Sys2Proof.Machine.execPwrAonWakeFailClear s
  | .pwrAonShlCfgWrite w => Sys2Proof.Machine.execPwrAonShlCfgWrite w s
  | .wrpDataWrite w => Sys2Proof.Machine.execWrpDataWrite w s
  | .wrpLoad => Sys2Proof.Machine.execWrpLoad s
  | .wrpAbort => Sys2Proof.Machine.execWrpAbort s
  | .wrpClear => Sys2Proof.Machine.execWrpClear s
  | .qspiWarpLoad => Sys2Proof.Machine.execQspiWarpLoad s
  | .spindlesLoaded => Sys2Proof.Machine.execSpindlesLoaded s
  | .reweaveSwitch => Sys2Proof.Machine.execReweaveSwitch s
  | .spindleSelfTestFail idx => Sys2Proof.Machine.execSpindleSelfTestFail idx s
  | .testVectorFail idx layers => Sys2Proof.Machine.execTestVectorFail idx layers s
  | .weaverJobStart => Sys2Proof.Machine.execWeaverJobStart s
  | .shadowCompareDone matched => Sys2Proof.Machine.execShadowCompareDone matched s
  | .reserveHandover => Sys2Proof.Machine.execReserveHandover s
  | .fallbackConversion => Sys2Proof.Machine.execFallbackConversion s
  | .groupBoundary g => Sys2Proof.Machine.execGroupBoundary g s
  | .pthTxAttenWrite p w => Sys2Proof.Machine.execPthTxAttenWrite p w s
  | .pthRxAttenWrite p w => Sys2Proof.Machine.execPthRxAttenWrite p w s
  | .pthTrimUserWrite p tx w => Sys2Proof.Machine.execPthTrimUserWrite p tx w s
  | .txMute p mute now => Sys2Proof.Machine.execTxMute p mute now s
  | .rxZero p zero => Sys2Proof.Machine.execRxZero p zero s
  | .invSincOff p off => Sys2Proof.Machine.execInvSincOff p off s
  | .clearOcp p => Sys2Proof.Machine.execClearOcp p s
  | .shadowBlockDone p q rms => Sys2Proof.Machine.execShadowBlockDone p q rms s
  | .shadowPassDone p q => Sys2Proof.Machine.execShadowPassDone p q s
  | .adcStuckDetect p q pos => Sys2Proof.Machine.execAdcStuckDetect p q pos s
  | .dacSegmentMeasured p q seg ok => Sys2Proof.Machine.execDacSegmentMeasured p q seg ok s
  | .dacBinaryFail p => Sys2Proof.Machine.execDacBinaryFail p s
  | .ocpTrip p => Sys2Proof.Machine.execOcpTrip p s
  | .overloadMs p idx q both => Sys2Proof.Machine.execOverloadMs p idx q both s
  | .refLost => Sys2Proof.Machine.execRefLost s
  | .standbyRefCheck b ok => Sys2Proof.Machine.execStandbyRefCheck b ok s
  | .holdoverExpiry => Sys2Proof.Machine.execHoldoverExpiry s
  | .synRefSelWrite w => Sys2Proof.Machine.execSynRefSelWrite w s
  | .lockDeclared loop => Sys2Proof.Machine.execLockDeclared loop s
  | .lossOfLock u => Sys2Proof.Machine.execLossOfLock u s
  | .cnvLossOfLock => Sys2Proof.Machine.execCnvLossOfLock s
  | .bandSearchStart u => Sys2Proof.Machine.execBandSearchStart u s
  | .loLatched x => Sys2Proof.Machine.execLoLatched x s
  | .rfUnitFailed u => Sys2Proof.Machine.execRfUnitFailed u s
  | .synthSwapDone r => Sys2Proof.Machine.execSynthSwapDone r s
  | .reserveProving ok bandA bandB => Sys2Proof.Machine.execReserveProving ok bandA bandB s
  | .vcoCalGapStart r => Sys2Proof.Machine.execVcoCalGapStart r s
  | .vcoCalDone u band => Sys2Proof.Machine.execVcoCalDone u band s
  | .synCalWaitLong r => Sys2Proof.Machine.execSynCalWaitLong r s
  | .resume b => Sys2Proof.Machine.execResume b s
  | .resumeCnv => Sys2Proof.Machine.execResumeCnv s
  | .vcocal b force => Sys2Proof.Machine.execVcocal b force s
  | .swap b force => Sys2Proof.Machine.execSwap b force s
  | .synPhaseWrite f w => Sys2Proof.Machine.execSynPhaseWrite f w s
  | .skeinMemoryWrite a w => Sys2Proof.Machine.execSkeinMemoryWrite a w s
  | .sknSwitchCtrlGo w => Sys2Proof.Machine.execSknSwitchCtrlGo w s
  | .swapStart b => Sys2Proof.Machine.execSwapStart b s
  | .plyEnd b => Sys2Proof.Machine.execPlyEnd b s
  | .sknReportPop => Sys2Proof.Machine.execSknReportPop s
  | .fftJobSubmit f => Sys2Proof.Machine.execFftJobSubmit f s
  | .fftJobStart f samples first => Sys2Proof.Machine.execFftJobStart f samples first s
  | .fftJobDone f => Sys2Proof.Machine.execFftJobDone f s
  | .dpdSwitchCtrlGo w => Sys2Proof.Machine.execDpdSwitchCtrlGo w s
  | .dpdPathCfgWrite p w => Sys2Proof.Machine.execDpdPathCfgWrite p w s
  | .dpdCoeffMemoryWrite a w => Sys2Proof.Machine.execDpdCoeffMemoryWrite a w s
  | .dpdPathDue p => Sys2Proof.Machine.execDpdPathDue p s
  | .obsVisitDone o m k => Sys2Proof.Machine.execObsVisitDone o m k s
  | .obsHolderGrant o => Sys2Proof.Machine.execObsHolderGrant o s
  | .solveStart => Sys2Proof.Machine.execSolveStart s
  | .solveDone p took => Sys2Proof.Machine.execSolveDone p took s
  | .dpdVerificationDone p k => Sys2Proof.Machine.execDpdVerificationDone p k s
  | .dpdStale p => Sys2Proof.Machine.execDpdStale p s
  | .dpdSurveyCtrlGo w => Sys2Proof.Machine.execDpdSurveyCtrlGo w s
  | .surveyDone m => Sys2Proof.Machine.execSurveyDone m s
  | .surveyAbort => Sys2Proof.Machine.execSurveyAbort s
  | .radGroupCmd w => Sys2Proof.Machine.execRadGroupCmd w s
  | .radBurstCtrlGo w => Sys2Proof.Machine.execRadBurstCtrlGo w s
  | .burstPreparation g => Sys2Proof.Machine.execBurstPreparation g s
  | .groupTransitionDone g => Sys2Proof.Machine.execGroupTransitionDone g s
  | .burstStart g => Sys2Proof.Machine.execBurstStart g s
  | .burstEnd g => Sys2Proof.Machine.execBurstEnd g s
  | .radReportPop => Sys2Proof.Machine.execRadReportPop s
  | .radLineCfgWrite f n w => Sys2Proof.Machine.execRadLineCfgWrite f n w s
  | .rffeImmediateCmd f w => Sys2Proof.Machine.execRffeImmediateCmd f w s
  | .rffeTimedCmd f w => Sys2Proof.Machine.execRffeTimedCmd f w s
  | .rffeTimedFrameSend f => Sys2Proof.Machine.execRffeTimedFrameSend f s
  | .rffeFrameDone f data parity => Sys2Proof.Machine.execRffeFrameDone f data parity s
  | .nvsPastDataWrite w => Sys2Proof.Machine.execNvsPastDataWrite w s
  | .pastureWrite => Sys2Proof.Machine.execPastureWrite s
  | .pastureClear => Sys2Proof.Machine.execPastureClear s
  | .licencePowerWindow levels => Sys2Proof.Machine.execLicencePowerWindow levels s
  | .licenceAttenRelax p => Sys2Proof.Machine.execLicenceAttenRelax p s
  | .portStepTimeout q step => Sys2Proof.Machine.execPortStepTimeout q step s
  | .portBringupRestart q => Sys2Proof.Machine.execPortBringupRestart q s
  | .portL0 q found => Sys2Proof.Machine.execPortL0 q found s
  | .suspectLane n => Sys2Proof.Machine.execSuspectLane n s
  | .lnePortState q st => Sys2Proof.Machine.execLnePortState q st s
  | .hold q => Sys2Proof.Machine.execHold q s
  | .holdClear q => Sys2Proof.Machine.execHoldClear q s
  | .retrain q => Sys2Proof.Machine.execRetrain q s
  | .lneTxEqWrite n w => Sys2Proof.Machine.execLneTxEqWrite n w s
  | .lneTestCtrlWrite n w => Sys2Proof.Machine.execLneTestCtrlWrite n w s
  | .laneErrorWindow ls ps => Sys2Proof.Machine.execLaneErrorWindow ls ps s
  | .cdrLoss n long => Sys2Proof.Machine.execCdrLoss n long s
  | .swapLane n => Sys2Proof.Machine.execSwapLane n s
  | .laneSwapDone q found => Sys2Proof.Machine.execLaneSwapDone q found s
  | .laneLoopbackDone q pass => Sys2Proof.Machine.execLaneLoopbackDone q pass s
  | .portRetryTimer q => Sys2Proof.Machine.execPortRetryTimer q s
  | .foldReserveDiscovery idx w => Sys2Proof.Machine.execFoldReserveDiscovery idx w s
  | .quarRelease q => Sys2Proof.Machine.execQuarRelease q s
  | .ethernetFrameRx q fine b fcsOk uncorr => Sys2Proof.Machine.execEthernetFrameRx q fine b fcsOk uncorr s
  | .iqSectionRx k q pcid body => Sys2Proof.Machine.execIqSectionRx k q pcid body s
  | .lateSubstitution l => Sys2Proof.Machine.execLateSubstitution l s
  | .ulSectionSend l start count adc m => Sys2Proof.Machine.execUlSectionSend l start count adc m s
  | .ecpriDelayMeasurement k q body => Sys2Proof.Machine.execEcpriDelayMeasurement k q body s
  | .admitReq k q tag body => Sys2Proof.Machine.execAdmitReq k q tag body s
  | .releaseSlots k q tag body => Sys2Proof.Machine.execReleaseSlots k q tag body s
  | .withdraw k q tag body => Sys2Proof.Machine.execWithdraw k q tag body s
  | .skeinWrite k q tag body => Sys2Proof.Machine.execSkeinWrite k q tag body s
  | .swapReq k q tag body => Sys2Proof.Machine.execSwapReq k q tag body s
  | .burstReq k q tag body => Sys2Proof.Machine.execBurstReq k q tag body s
  | .capsReq k q tag body => Sys2Proof.Machine.execCapsReq k q tag body s
  | .arbitrationEpochEnd => Sys2Proof.Machine.execArbitrationEpochEnd s
  | .slotEffectiveTime => Sys2Proof.Machine.execSlotEffectiveTime s
  | .queueLimitExpiry q => Sys2Proof.Machine.execQueueLimitExpiry q s
  | .deferWindowExpiry => Sys2Proof.Machine.execDeferWindowExpiry s
  | .flockQuarantineOn k => Sys2Proof.Machine.execFlockQuarantineOn k s
  | .flockQuarantineOff k => Sys2Proof.Machine.execFlockQuarantineOff k s
  | .releaseAll w => Sys2Proof.Machine.execReleaseAll w s
  | .ptpAnnounceRx q m => Sys2Proof.Machine.execPtpAnnounceRx q m s
  | .ptpSyncRx q fine m => Sys2Proof.Machine.execPtpSyncRx q fine m s
  | .ptpFollowUpRx q m => Sys2Proof.Machine.execPtpFollowUpRx q m s
  | .delayReqSend q fine => Sys2Proof.Machine.execDelayReqSend q fine s
  | .delayRespRx q m => Sys2Proof.Machine.execDelayRespRx q m s
  | .syncTimeout => Sys2Proof.Machine.execSyncTimeout s
  | .announceTimeout => Sys2Proof.Machine.execAnnounceTimeout s
  | .holdSExpiry => Sys2Proof.Machine.execHoldSExpiry s
  | .followUpTimeout q id num => Sys2Proof.Machine.execFollowUpTimeout q id num s
  | .peerQuarRelease q id num => Sys2Proof.Machine.execPeerQuarRelease q id num s
  | .rearm => Sys2Proof.Machine.execRearm s
  | .snapshot => Sys2Proof.Machine.execSnapshot s
  | .tb3Decouple => Sys2Proof.Machine.execTb3Decouple s
  | .tb3Recouple => Sys2Proof.Machine.execTb3Recouple s
  | .txtsPop q => Sys2Proof.Machine.execTxtsPop q s
  | .clearOvf q => Sys2Proof.Machine.execClearOvf q s
  | .ppsInEdge fine => Sys2Proof.Machine.execPpsInEdge fine s
  | .hello side b => Sys2Proof.Machine.execHello side b s
  | .helloSend side => Sys2Proof.Machine.execHelloSend side s
  | .time side fine mis b => Sys2Proof.Machine.execTime side fine mis b s
  | .timeSend => Sys2Proof.Machine.execTimeSend s
  | .echo side fine b => Sys2Proof.Machine.execEcho side fine b s
  | .dlBlocks side b => Sys2Proof.Machine.execDlBlocks side b s
  | .ulSums side b adc m => Sys2Proof.Machine.execUlSums side b adc m s
  | .status side b => Sys2Proof.Machine.execStatus side b s
  | .lane side b => Sys2Proof.Machine.execLane side b s
  | .controlSkein side b => Sys2Proof.Machine.execControlSkein side b s
  | .controlSwap side b => Sys2Proof.Machine.execControlSwap side b s
  | .controlBurst side b => Sys2Proof.Machine.execControlBurst side b s
  | .controlSlot side b => Sys2Proof.Machine.execControlSlot side b s
  | .controlWarp side b => Sys2Proof.Machine.execControlWarp side b s
  | .controlCommit side b => Sys2Proof.Machine.execControlCommit side b s
  | .controlVote side b => Sys2Proof.Machine.execControlVote side b s
  | .controlReport side b => Sys2Proof.Machine.execControlReport side b s
  | .controlLevel side b => Sys2Proof.Machine.execControlLevel side b s
  | .controlIsolate side b => Sys2Proof.Machine.execControlIsolate side b s
  | .voteTimeout => Sys2Proof.Machine.execVoteTimeout s
  | .tb2Timeout => Sys2Proof.Machine.execTb2Timeout s
  | .stackStep => Sys2Proof.Machine.execStackStep s
  | .isolateDown => Sys2Proof.Machine.execIsolateDown s
  | .rejoin => Sys2Proof.Machine.execRejoin s
  | .arm st => Sys2Proof.Machine.execArm st s
  | .disarm st => Sys2Proof.Machine.execDisarm st s
  | .force st g => Sys2Proof.Machine.execForce st g s
  | .trigInEdge rising e => Sys2Proof.Machine.execTrigInEdge rising e s
  | .captureTrigger st h => Sys2Proof.Machine.execCaptureTrigger st h s
  | .segmentEnd st samples k => Sys2Proof.Machine.execSegmentEnd st samples k s
  | .holdoffEnd st => Sys2Proof.Machine.execHoldoffEnd st s
  | .acqMonCfgWrite f w => Sys2Proof.Machine.execAcqMonCfgWrite f w s
  | .dramTrainingStepDone ok => Sys2Proof.Machine.execDramTrainingStepDone ok s
  | .dramTrainingStart => Sys2Proof.Machine.execDramTrainingStart s
  | .dqsCheck drift => Sys2Proof.Machine.execDqsCheck drift s
  | .mr4Read v => Sys2Proof.Machine.execMr4Read v s
  | .refreshDue waiting => Sys2Proof.Machine.execRefreshDue waiting s
  | .neighbourRefresh row => Sys2Proof.Machine.execNeighbourRefresh row s
  | .hostTrainLock on => Sys2Proof.Machine.execHostTrainLock on s
  | .drcRetrain => Sys2Proof.Machine.execDrcRetrain s
  | .drcPatGo w => Sys2Proof.Machine.execDrcPatGo w s
  | .patternDone noise from_ => Sys2Proof.Machine.execPatternDone noise from_ s
  | .drcFreqReq rate => Sys2Proof.Machine.execDrcFreqReq rate s
  | .freqChangeDone mr4 => Sys2Proof.Machine.execFreqChangeDone mr4 s
  | .start c => Sys2Proof.Machine.execStart c s
  | .abort c => Sys2Proof.Machine.execAbort c s
  | .pause c on => Sys2Proof.Machine.execPause c on s
  | .doorbell c => Sys2Proof.Machine.execDoorbell c s
  | .dmaProgramWrite n idx w => Sys2Proof.Machine.execDmaProgramWrite n idx w s
  | .move c => Sys2Proof.Machine.execMove c s
  | .loop c => Sys2Proof.Machine.execLoop c s
  | .wait c => Sys2Proof.Machine.execWait c s
  | .waitTimeout c => Sys2Proof.Machine.execWaitTimeout c s
  | .signal c noise => Sys2Proof.Machine.execSignal c noise s
  | .end_ c noise => Sys2Proof.Machine.execEnd c noise s
  | .hkaConversionDone code past => Sys2Proof.Machine.execHkaConversionDone code past s
  | .scan => Sys2Proof.Machine.execScan s
  | .hkaTimerTick => Sys2Proof.Machine.execHkaTimerTick s
  | .hkaUrgent w => Sys2Proof.Machine.execHkaUrgent w s
  | .hkaQueuePop => Sys2Proof.Machine.execHkaQueuePop s
  | .bdaLoad w => Sys2Proof.Machine.execBdaLoad w s
  | .timedBiasLoad g => Sys2Proof.Machine.execTimedBiasLoad g s
  | .bdaCodeWrite n code => Sys2Proof.Machine.execBdaCodeWrite n code s
  | .releaseSafe => Sys2Proof.Machine.execReleaseSafe s
  | .clearAllFaults => Sys2Proof.Machine.execClearAllFaults s
  | .bdaOutClear n => Sys2Proof.Machine.execBdaOutClear n s
  | .thermalSample z raws => Sys2Proof.Machine.execThermalSample z raws s
  | .throttleStageFall z => Sys2Proof.Machine.execThrottleStageFall z s
  | .tlUpdate => Sys2Proof.Machine.execTlUpdate s
  | .coarseComparator135 => Sys2Proof.Machine.execCoarseComparator135 s
  | .storeWriteDone fails => Sys2Proof.Machine.execStoreWriteDone fails s
  | .nvsRecDataWrite w => Sys2Proof.Machine.execNvsRecDataWrite w s
  | .nvsRecWrite type => Sys2Proof.Machine.execNvsRecWrite type s
  | .nvsRecClear => Sys2Proof.Machine.execNvsRecClear s
  | .nvsDataAccess write fails => Sys2Proof.Machine.execNvsDataAccess write fails s
  | .nvsCalReq w => Sys2Proof.Machine.execNvsCalReq w s
  | .calIntervalStart => Sys2Proof.Machine.execCalIntervalStart s
  | .calDone ms => Sys2Proof.Machine.execCalDone ms s
  | .nvsCalWaitLong => Sys2Proof.Machine.execNvsCalWaitLong s
  | .droverCalRequest why => Sys2Proof.Machine.execDroverCalRequest why s
  | .dpdRecordWrite p => Sys2Proof.Machine.execDpdRecordWrite p s
  | .powerupCalibration fails ms => Sys2Proof.Machine.execPowerupCalibration fails ms s
  | .writeIncr badOp b => Sys2Proof.Machine.execWriteIncr badOp b s
  | .writeFixed b => Sys2Proof.Machine.execWriteFixed b s
  | .readIncr b n late => Sys2Proof.Machine.execReadIncr b n late s
  | .readFixed b n late => Sys2Proof.Machine.execReadFixed b n late s
  | .registerWrite a w => Sys2Proof.Machine.execRegisterWrite a w s
  | .rcRegisterRead a => Sys2Proof.Machine.execRcRegisterRead a s
  | .flashRead => Sys2Proof.Machine.execFlashRead s
  | .flashProgram => Sys2Proof.Machine.execFlashProgram s
  | .flashErase => Sys2Proof.Machine.execFlashErase s
  | .flashVerify slot => Sys2Proof.Machine.execFlashVerify slot s
  | .flashOpDone => Sys2Proof.Machine.execFlashOpDone s
  | .glbDbgDataWrite w => Sys2Proof.Machine.execGlbDbgDataWrite w s
  | .unlock => Sys2Proof.Machine.execUnlock s
  | .dbgClear => Sys2Proof.Machine.execDbgClear s
  | .watchdogExpiry => Sys2Proof.Machine.execWatchdogExpiry s
  | .adcCorrectionEstimate p q sub offset gain skew => Sys2Proof.Machine.execAdcCorrectionEstimate p q sub offset gain skew s
  | .tuningVoltageLimit u v everyBand => Sys2Proof.Machine.execTuningVoltageLimit u v everyBand s
  | .freqLockTimeout => Sys2Proof.Machine.execFreqLockTimeout s
  | .waitDelayExpiry c => Sys2Proof.Machine.execWaitDelayExpiry c s
  | .waitPollRead c => Sys2Proof.Machine.execWaitPollRead c s
  | .ppsOut => Sys2Proof.Machine.execPpsOut s
  | .tickOut => Sys2Proof.Machine.execTickOut s
  | .sectionRelease => Sys2Proof.Machine.execSectionRelease s
  | .ulPairSend c start adc m => Sys2Proof.Machine.execUlPairSend c start adc m s
  | .hopTimeMissed x dropped => Sys2Proof.Machine.execHopTimeMissed x dropped s

end Sys2Proof.Machine
end

