-- ==== Sys2Proof/Machine/Tick.lean ====
section
/-!
DEFINITION. What passes while no command waits: one tick of the counter clock (R284). The time bases advance, what was sent has
left, and what the device does at a tick happens (log entry 1).
-/

namespace Sys2Proof.Machine

/-- The time bases advance by one tick: the always-on timer in Sentinel and above, TB1 and TB0 at stage 1 and above; TB0 follows its
rate correction (R284, R289). -/
def timeTick (s : State) : State :=
  let s := s.modTime (fun t => { t with aon := t.aon + tickTu })
  if s.pwr.stage = 0 then s
  else
    let r := advance 1 s.tim.rate s.time.tb0 s.time.tb0frac
    s.modTime (fun t => { t with tb1 := t.tb1 + tickTu, tb0 := r.1, tb0frac := r.2 })

/-- The frames sent since the last tick have left the device. -/
def wiresTick (s : State) : State := (s.modFhp (fun f => { f with sent := [] })).modCas (fun c => { c with out := [] })

/-- One tick of the counter clock; in Off nothing runs (R40). -/
def tick (s : State) : State :=
  if s.pwr.off then s
  else
    let s := timeTick s
    if s.pwr.stage = 0 then s
    else flushTick (mixTick (flushChanged (calBookTick (rotTick (lineTick (wiresTick s))))))

end Sys2Proof.Machine
end

