-- ==== Sys2Proof/WellFormed.lean ====
section
/-!
DEFINITION. Well-formed commands: the lists a command carries have the lengths that the spec gives what they stand for. The meanings
do not rely on it.
-/

namespace Sys2Proof

/-- A byte string of `n` to `m` bytes. -/
def sized (n m : Nat) (b : List Byte) : Bool := decide (n ≤ b.length) && decide (b.length ≤ m)

/-- The rails of PWR_RAIL_CFG (R42). -/
def railCount : Nat := 8
/-- The cadence monitors (R20). -/
def monitorCount : Nat := 32
/-- The paths (R13). -/
def pathCount : Nat := 64
/-- The sensors of a zone (R398). -/
def sensorsPerZone : Nat := 3

/-- Whether the parts of a command have the sizes the spec gives them. -/
def Instr.wf : Instr → Bool
  | .smbalert words => words.length == railCount
  | .pmbusTelemetryPoll r => r.length == railCount
  | .cadenceReport r => r.length == monitorCount
  | .licencePowerWindow levels => levels.length == pathCount
  | .thermalSample _ raws => decide (raws.length ≤ sensorsPerZone + 4)
  | .trigInEdge _ e => e.2.length == 4
  | .portL0 q found => found.length == (if q.val < 2 then 4 else if q.val < 4 then 8 else 1)
  | .ulSectionSend _ _ count _ _ => decide (1 ≤ count) && decide (count ≤ 255)
  | .powerFailWarning _ remaining => decide (remaining ≤ 4096)
  | .readIncr b _ _ => decide (b.length ≤ 4)
  | .readFixed b _ _ => decide (b.length ≤ 4)
  | .writeIncr badOp _ => badOp.all (fun o => !(List.contains [(0x20 : Byte), 0x21, 0x30, 0x31] o))
  | .overloadMs _ i q both => decide (both ≤ i) && decide (both ≤ q)
  | .admitReq _ _ _ b | .releaseSlots _ _ _ b | .withdraw _ _ _ b | .skeinWrite _ _ _ b | .swapReq _ _ _ b | .burstReq _ _ _ b
  | .capsReq _ _ _ b => sized 0 65535 b
  | _ => true

end Sys2Proof
end

