-- ==== Sys2Proof/Safety.lean ====
section
/-!
DEFINITION. What counts as a safe run of the block, the parts of its state, which parts each command may change, and the words in which
the statements say what a command does.
-/

namespace Sys2Proof.Safety

open Sys2Proof.Machine

/-- An outcome that goes on. -/
def goesOn (o : Host.Outcome State Fault Refusal) : Bool :=
  match o with
  | .next _ => true
  | .fault _ | .refused _ => false

/-- A safe run: `n` steps, none of which stops. -/
def Safe (n : Nat) (s : State) : Prop := goesOn (Host.Core.run Sys2Proof.core n s) = true

end Sys2Proof.Safety

namespace Sys2Proof.Machine

/-- The command answers a next state, and that state has the property. -/
def completes (c : Instr) (s : State) (p : State → Prop) : Prop := ∃ t, exec c s = .next t ∧ p t

/-- The parts of the state beside the queue and the fuses: the pins, the time bases, the registers, the blocks, and the count of the free
values drawn. -/
inductive Part where
  | pins | time | regs | glb | nvs | pwr | pstate | wrp | paths | syn | skn | fft | dpd | rad | lne | fhp | tim | cas | acq | mon | drc | dma | hka | bda | thm | rnd
  deriving DecidableEq, Repr

/-- A part of the state is the same in two states. -/
def Part.same (p : Part) (s t : State) : Prop :=
  match p with
  | .pins => t.pins = s.pins
  | .time => t.time = s.time
  | .regs => t.regs = s.regs ∧ t.aonRegs = s.aonRegs
  | .glb => t.glb = s.glb
  | .nvs => t.nvs = s.nvs
  | .pwr => t.pwr = s.pwr
  | .pstate => t.pstate = s.pstate
  | .wrp => t.wrp = s.wrp
  | .paths => t.paths = s.paths
  | .syn => t.syn = s.syn
  | .skn => t.skn = s.skn
  | .fft => t.fft = s.fft
  | .dpd => t.dpd = s.dpd
  | .rad => t.rad = s.rad
  | .lne => t.lne = s.lne
  | .fhp => t.fhp = s.fhp
  | .tim => t.tim = s.tim
  | .cas => t.cas = s.cas
  | .acq => t.acq = s.acq
  | .mon => t.mon = s.mon
  | .drc => t.drc = s.drc
  | .dma => t.dma = s.dma
  | .hka => t.hka = s.hka
  | .bda => t.bda = s.bda
  | .thm => t.thm = s.thm
  | .rnd => t.rnd = s.rnd

/-- Only the parts listed changed: what waits, the fuses and every other part are the same. -/
def changedOnly (l : List Part) (s t : State) : Prop :=
  t.pending = s.pending ∧ t.fuse = s.fuse ∧ ∀ p : Part, p ∉ l → p.same s t

/-- Every register but those listed has the value it had. -/
def regsBut (l : List Nat) (s t : State) : Prop := ∀ a, a ∉ l → t.reg a = s.reg a

/-- The registers that an entry of the shared log changes: the interrupt flags of block 0x00 and the count of lost entries. -/
def logRegs : List Nat := [Reg.GLB_INT_STATUS, Reg.GLB_LOG_LOST]

/-- The parts of the state that a command may change. A command that host software, a frame or a stage transition carries into other blocks
may change them all. -/
def touched : Instr → List Part
  | .vsenRise | .vsenFall | .rstNAssert | .shielingFrame .. | .wakeNLow | .aonTimerAlarm | .spiChipSelectWake
  | .fronthaulSignalDetect .. | .thermalWakeCrossing | .pmbusTransactionDone .. | .pmbusAttemptFailed .. | .smbalert .. | .railFault ..
  | .refCheckTimeout | .firmwareImageVerified | .linkWaitExpiry | .stageClimb | .gotoSafe | .pwrStateReqDoze | .pwrStateReqSentinel
  | .sleepStepDone .. | .autoDoze | .thermalSample .. | .coarseComparator135 | .writeIncr .. | .writeFixed .. | .registerWrite .. =>
    [.pins, .time, .regs, .glb, .nvs, .pwr, .pstate, .wrp, .paths, .syn, .skn, .fft, .dpd, .rad, .lne, .fhp, .tim, .cas, .acq, .mon, .drc, .dma, .hka, .bda, .thm, .rnd]
  | .powerFailWarning .. | .nvsRecWrite .. | .nvsCalReq .. | .nvsCalWaitLong =>
    [.regs, .nvs]
  | .xtalOk | .pwrAonWakeFailClear | .rxZero .. | .invSincOff .. | .dpdStale .. | .radLineCfgWrite .. | .snapshot | .ppsInEdge .. =>
    [.regs]
  | .rstNRelease =>
    [.pins]
  | .railRetry .. | .pmbusTelemetryPoll .. | .climb | .vtrimStepDown =>
    [.regs, .pwr]
  | .refCheckWindowDone .. =>
    [.pwr]
  | .stage4Entry =>
    [.regs, .pwr, .pstate, .paths]
  | .release .. | .controlLevel .. =>
    [.regs, .glb, .pwr, .pstate, .rad, .fhp, .cas]
  | .stage4ExitComplete =>
    [.regs, .glb, .nvs, .pwr, .pstate, .paths, .syn, .dpd, .rad, .fhp, .cas]
  | .pwrLevelReq .. =>
    [.regs, .glb, .pwr, .cas]
  | .levelChangePoint =>
    [.regs, .glb, .pwr, .skn, .dpd, .fhp, .acq, .drc, .dma, .rnd]
  | .cadenceReport .. =>
    [.regs, .glb, .pwr]
  | .cadenceSlip =>
    [.regs, .glb, .fhp, .rnd]
  | .dozeExitDone .. =>
    [.regs, .glb, .pwr, .pstate, .paths, .syn, .dpd, .rad, .lne, .fhp, .tim, .cas, .mon, .drc]
  | .pwrAonShlCfgWrite .. | .flashRead | .flashProgram | .flashErase | .flashVerify .. | .flashOpDone | .glbDbgDataWrite .. =>
    [.regs, .glb]
  | .wrpDataWrite .. =>
    [.regs, .glb, .wrp]
  | .wrpLoad | .qspiWarpLoad =>
    [.regs, .nvs, .wrp, .cas]
  | .wrpAbort | .voteTimeout =>
    [.regs, .wrp, .cas]
  | .wrpClear =>
    [.wrp]
  | .spindlesLoaded =>
    [.regs, .glb, .nvs, .pstate, .wrp, .paths, .syn, .skn, .dpd, .rad, .lne, .fhp, .tim, .cas, .acq, .mon, .drc, .dma, .bda, .rnd]
  | .reweaveSwitch =>
    [.regs, .glb, .pstate, .wrp, .paths, .syn, .skn, .dpd, .rad, .fhp, .cas]
  | .spindleSelfTestFail .. | .testVectorFail .. | .weaverJobStart | .shadowCompareDone .. =>
    [.regs, .nvs, .wrp]
  | .reserveHandover =>
    [.regs, .glb, .nvs, .wrp]
  | .fallbackConversion =>
    [.regs, .wrp, .skn, .fhp]
  | .groupBoundary .. =>
    [.regs, .glb, .nvs, .pstate, .paths, .syn, .dpd, .rad, .fhp, .cas, .acq, .drc, .dma, .rnd]
  | .pthTxAttenWrite .. | .pthRxAttenWrite .. | .pthTrimUserWrite .. | .txMute .. | .overloadMs .. =>
    [.regs, .paths]
  | .clearOcp .. =>
    [.paths]
  | .shadowBlockDone .. | .shadowPassDone .. | .adcStuckDetect .. | .dacSegmentMeasured .. | .dacBinaryFail .. | .ocpTrip ..
  | .adcCorrectionEstimate .. =>
    [.regs, .glb, .nvs, .paths, .dpd, .fhp, .acq, .drc, .dma, .rnd]
  | .refLost | .standbyRefCheck .. | .synRefSelWrite .. | .loLatched .. | .rfUnitFailed .. | .vcoCalDone .. =>
    [.regs, .glb, .paths, .syn, .dpd, .fhp]
  | .holdoverExpiry | .lossOfLock .. | .cnvLossOfLock =>
    [.regs, .glb, .nvs, .pstate, .paths, .syn, .dpd, .rad, .fhp, .cas]
  | .lockDeclared .. =>
    [.regs, .glb, .pwr, .paths, .syn, .dpd, .rad, .fhp, .cas]
  | .bandSearchStart .. | .resume .. | .resumeCnv =>
    [.syn]
  | .synthSwapDone .. =>
    [.regs, .glb, .nvs, .paths, .syn, .dpd, .fhp]
  | .reserveProving .. =>
    [.regs, .nvs, .syn]
  | .vcoCalGapStart .. | .vcocal .. | .swap .. | .tuningVoltageLimit .. =>
    [.regs, .glb, .paths, .syn, .dpd, .rad, .fhp, .cas]
  | .synCalWaitLong .. | .synPhaseWrite .. =>
    [.regs, .syn]
  | .skeinMemoryWrite .. | .sknReportPop =>
    [.skn]
  | .sknSwitchCtrlGo .. =>
    [.regs, .skn, .fhp, .cas]
  | .swapStart .. =>
    [.regs, .glb, .skn, .dpd, .fhp]
  | .plyEnd .. =>
    [.skn, .dpd]
  | .fftJobSubmit .. =>
    [.regs, .fft]
  | .fftJobStart .. =>
    [.regs, .fft, .mon, .drc]
  | .fftJobDone .. =>
    [.regs, .skn, .fft, .drc]
  | .dpdSwitchCtrlGo .. | .dpdPathCfgWrite .. | .dpdCoeffMemoryWrite .. | .obsVisitDone .. | .solveDone .. | .dpdVerificationDone .. =>
    [.regs, .glb, .dpd]
  | .dpdPathDue .. =>
    [.dpd]
  | .obsHolderGrant .. =>
    [.regs, .glb, .paths, .syn, .dpd, .fhp, .acq]
  | .solveStart | .dpdSurveyCtrlGo .. =>
    [.regs, .dpd]
  | .surveyDone .. | .surveyAbort =>
    [.regs, .syn, .dpd]
  | .radGroupCmd .. | .radBurstCtrlGo .. | .burstEnd .. | .echo .. | .dlBlocks .. | .ulSums .. | .status .. | .controlBurst ..
  | .controlSlot .. | .controlWarp .. | .controlReport .. | .controlIsolate .. | .tb2Timeout | .hopTimeMissed .. =>
    [.regs, .glb, .pstate, .rad, .fhp, .cas]
  | .burstPreparation .. | .groupTransitionDone .. =>
    [.pstate, .rad]
  | .burstStart .. =>
    [.regs, .glb, .pstate, .rad, .fhp, .cas, .acq]
  | .radReportPop =>
    [.rad]
  | .rffeImmediateCmd .. | .rffeTimedCmd .. | .rffeTimedFrameSend .. | .rffeFrameDone .. =>
    [.regs, .rad]
  | .nvsPastDataWrite .. | .nvsRecDataWrite .. | .nvsDataAccess .. =>
    [.regs, .glb, .nvs]
  | .pastureWrite =>
    [.regs, .nvs, .rnd]
  | .pastureClear | .nvsRecClear | .droverCalRequest .. =>
    [.nvs]
  | .licencePowerWindow .. =>
    [.regs, .paths, .rad]
  | .licenceAttenRelax .. =>
    [.paths, .rad]
  | .portStepTimeout .. | .suspectLane .. =>
    [.regs, .glb, .nvs, .lne, .cas]
  | .portBringupRestart .. | .lnePortState .. | .retrain .. | .laneErrorWindow .. | .cdrLoss .. | .swapLane .. | .portRetryTimer ..
  | .foldReserveDiscovery .. =>
    [.regs, .glb, .lne, .cas]
  | .portL0 .. | .laneSwapDone .. =>
    [.regs, .glb, .nvs, .lne, .fhp, .tim, .cas]
  | .hold .. | .lneTxEqWrite .. =>
    [.regs, .lne]
  | .holdClear .. | .quarRelease .. =>
    [.regs, .lne, .fhp]
  | .lneTestCtrlWrite .. =>
    [.regs, .glb, .lne]
  | .laneLoopbackDone .. =>
    [.nvs, .lne]
  | .ethernetFrameRx .. | .ptpAnnounceRx .. | .ptpSyncRx .. | .ptpFollowUpRx .. | .delayRespRx .. | .time .. =>
    [.time, .regs, .glb, .nvs, .pstate, .paths, .syn, .skn, .fft, .dpd, .rad, .fhp, .tim, .cas, .acq, .rnd]
  | .iqSectionRx .. | .lateSubstitution .. =>
    [.regs, .glb, .fhp, .acq]
  | .ulSectionSend .. | .deferWindowExpiry | .flockQuarantineOff .. =>
    [.regs, .fhp]
  | .ecpriDelayMeasurement .. =>
    [.regs, .glb, .fhp, .tim, .acq]
  | .admitReq .. | .releaseSlots .. | .withdraw .. | .skeinWrite .. | .swapReq .. | .burstReq .. | .capsReq .. =>
    [.regs, .glb, .pstate, .skn, .rad, .fhp, .cas, .acq]
  | .arbitrationEpochEnd =>
    [.regs, .glb, .nvs, .pstate, .paths, .syn, .fft, .dpd, .rad, .fhp, .cas, .acq]
  | .slotEffectiveTime =>
    [.regs, .skn, .fhp]
  | .queueLimitExpiry .. =>
    [.regs, .glb, .nvs, .pstate, .paths, .syn, .dpd, .rad, .fhp, .acq]
  | .flockQuarantineOn .. =>
    [.regs, .fhp, .acq]
  | .releaseAll .. | .isolateDown | .sectionRelease | .ulPairSend .. =>
    [.regs, .fhp, .cas]
  | .delayReqSend .. =>
    [.regs, .fhp, .tim]
  | .syncTimeout | .announceTimeout | .holdSExpiry | .followUpTimeout .. | .peerQuarRelease .. | .rearm =>
    [.regs, .glb, .pstate, .rad, .fhp, .tim, .cas]
  | .tb3Decouple =>
    [.time]
  | .tb3Recouple =>
    [.time, .regs, .acq]
  | .txtsPop .. | .clearOvf .. | .ppsOut | .tickOut =>
    [.tim]
  | .hello .. | .controlSkein .. | .controlSwap .. =>
    [.regs, .glb, .pstate, .skn, .rad, .fhp, .cas]
  | .helloSend .. | .timeSend | .rejoin =>
    [.cas]
  | .lane .. =>
    [.regs, .glb, .pstate, .rad, .lne, .fhp, .cas]
  | .controlCommit .. =>
    [.regs, .glb, .nvs, .pstate, .wrp, .rad, .fhp, .cas]
  | .controlVote .. =>
    [.regs, .glb, .nvs, .pwr, .pstate, .wrp, .rad, .fhp, .cas]
  | .stackStep =>
    [.time, .regs, .glb, .nvs, .pstate, .paths, .syn, .skn, .fft, .dpd, .rad, .fhp, .tim, .cas, .acq]
  | .arm .. | .force .. | .trigInEdge .. | .captureTrigger .. =>
    [.regs, .acq]
  | .disarm .. =>
    [.regs, .dpd, .acq, .drc, .dma, .rnd]
  | .segmentEnd .. =>
    [.regs, .dpd, .acq, .drc, .dma]
  | .holdoffEnd .. =>
    [.acq]
  | .acqMonCfgWrite .. =>
    [.regs, .mon]
  | .dramTrainingStepDone .. | .dqsCheck .. | .mr4Read .. | .drcPatGo .. | .freqChangeDone .. =>
    [.regs, .glb, .drc]
  | .dramTrainingStart | .refreshDue .. | .drcRetrain =>
    [.drc]
  | .neighbourRefresh .. | .hostTrainLock .. | .patternDone .. | .drcFreqReq .. | .freqLockTimeout =>
    [.regs, .drc]
  | .start .. =>
    [.regs, .glb, .dma]
  | .abort .. | .doorbell .. | .dmaProgramWrite .. | .waitDelayExpiry .. =>
    [.dma]
  | .pause .. | .loop .. | .wait .. | .waitTimeout .. =>
    [.regs, .dma]
  | .move .. =>
    [.regs, .skn, .dpd, .drc, .dma]
  | .signal .. | .end_ .. =>
    [.regs, .glb, .drc, .dma]
  | .hkaConversionDone .. =>
    [.regs, .glb, .hka, .bda]
  | .scan | .hkaTimerTick =>
    [.regs, .hka]
  | .hkaUrgent .. =>
    [.regs, .glb, .hka]
  | .hkaQueuePop =>
    [.hka]
  | .bdaLoad .. | .timedBiasLoad .. | .bdaCodeWrite .. | .releaseSafe =>
    [.regs, .bda]
  | .clearAllFaults | .bdaOutClear .. =>
    [.bda]
  | .throttleStageFall .. =>
    [.regs, .thm]
  | .tlUpdate =>
    [.regs, .fhp, .thm]
  | .storeWriteDone .. =>
    [.regs, .glb, .nvs, .paths, .rad, .bda]
  | .calIntervalStart =>
    [.regs, .glb, .nvs, .pstate, .dpd, .rad, .fhp, .cas]
  | .calDone .. =>
    [.regs, .glb, .nvs, .pstate, .paths, .dpd, .rad]
  | .dpdRecordWrite .. =>
    [.nvs, .dpd]
  | .powerupCalibration .. =>
    [.regs, .glb, .nvs, .pstate, .paths, .dpd, .rad, .fhp, .acq, .drc, .dma, .rnd]
  | .readIncr .. | .readFixed .. =>
    [.regs, .glb, .pwr, .acq, .rnd]
  | .rcRegisterRead .. =>
    [.regs, .glb, .pwr, .acq]
  | .unlock =>
    [.pins, .regs, .glb, .rnd]
  | .dbgClear =>
    [.glb]
  | .watchdogExpiry =>
    [.regs, .glb, .pwr, .pstate, .rad, .fhp, .cas, .bda]
  | .waitPollRead .. =>
    [.regs, .glb, .pwr, .acq, .dma]

/-- A state request is refused at once (R62, R482): the result and the last refusal name it, and nothing else but the refusal's time and
interrupt changes. -/
def refusedRequest (s t : State) (req : SleepReq) (block code : Nat) : Prop :=
  t.reg Reg.PWR_STATE_RESULT = pk [(24, block), (16, code), (8, reqCode req), (0, 2)] ∧
  t.reg Reg.PWR_LAST_REFUSAL = pk [(24, block), (16, code), (8, reqCode req), (0, 2)] ∧ t.bit Reg.PWR_INT_STATUS 1 = true ∧
  regsBut [Reg.PWR_STATE_RESULT, Reg.PWR_LAST_REFUSAL, Reg.PWR_LAST_REFUSAL_TIME, Reg.PWR_INT_STATUS] s t ∧ changedOnly [.regs] s t

/-- A stand-alone device in which no step of the sleep sequence refuses or waits (Table 2-9). -/
def quiet (s : State) : Prop := s.cas.role = 0 ∧ ∀ k < 11, stepRefusal s k false = none ∧ stepWaits s k = false

/-- The way to Doze has reached step 10: VCORE is asked down to 620 mV. -/
def dozing (s t : State) : Prop :=
  t.pwr.sleep = some { req := .doze, first := 1, step := 10, mv := s.pwr.vcore } ∧ t.pwr.stage = s.pwr.stage ∧
  (rail t 1).req = some { mv := 620, why := .sleepVcore }

/-- A load has been refused (R86): OUTCOME, ERROR and WRP_ERR_LOC say so, with the interrupt, and no load is in progress. -/
def loadRefused (t : State) (e : LoadErr) : Prop :=
  t.fld Reg.WRP_STATUS 1 0 = 2 ∧ t.fld Reg.WRP_STATUS 31 24 = e.1 % 256 ∧ t.reg Reg.WRP_ERR_LOC = pk [(16, e.2.1), (0, e.2.2)] ∧
  t.bit Reg.WRP_INT_STATUS 1 = true

/-- The sub-converter in a position of an ADC is known to have failed: it is retired, or its failure waits for the spare (R116, R118). -/
def adcKnown (a : Adc) (pos : Nat) : Bool := nbit a.retired (subAt a pos) || a.failed.any (fun f => f.pos == pos)

/-- Bring-up of a port from step 1 meets nothing that needs a reserve: a lane serves every position, and no failure waits (R250, R251). -/
def plainBringUp (s : State) (q : Nat) : Prop := deadPositions s q = [] ∧ s.lne.waiting = []
/-- A failure of a lane is acted on at once (R25, R250, R251): its port is up, training or quarantined, nothing waits, and no swap runs. -/
def failsNow (s : State) (n : Nat) : Prop :=
  (lane s n).port < 4 ∧ (lane s n).state ≠ .retired ∧ s.lne.waiting = [] ∧ (port s (lane s n).port).swap = none ∧
  swapRuns s (decide ((lane s n).port < 2)) = false ∧
  ((port s (lane s n).port).state = .l0 ∨ (port s (lane s n).port).state = .training ∨ (port s (lane s n).port).state = .quarantined)
/-- What becomes of a failed lane (R250, R251): the first reserve that can take it trains in a swap, or the port is down and the lane is
looped back. -/
def laneTaken (s t : State) (n : Nat) : Prop :=
  match firstReserve s (lane s n).port with
  | some i => (port t (lane s n).port).state = .training ∧ (port t (lane s n).port).swap = some (n, reserveNumber i)
  | none => (port t (lane s n).port).state = .downFault ∧ (port t (lane s n).port).loopback = some n

/-- The control message of a flock with its code of Table 10-5. -/
def flockCommands (k : Fin 8) (q : Fin 2) (tag : BitVec 16) (b : List Byte) : List (Nat × Instr) :=
  [(0x01, .admitReq k q tag b), (0x02, .releaseSlots k q tag b), (0x03, .withdraw k q tag b), (0x10, .skeinWrite k q tag b),
    (0x11, .swapReq k q tag b), (0x20, .burstReq k q tag b), (0x30, .capsReq k q tag b)]

/-- The flock is served, its epoch has room for a message, and the body has the layout of its code. -/
def messageTaken (s : State) (k msg : Nat) (b : List Byte) : Prop :=
  flockServed s k = true ∧ (vget s.fhp.flocks k).msgs < s.fld Reg.FHP_CFG 23 16 ∧ bodyOk msg b = true

/-- The state in which a message taken is done: it is counted. -/
def messageCounted (k : Nat) (s : State) : State := (police k s).1

/-- The commands of received PTP messages by type. -/
def ptpCommands (q : Fin 2) (fine : Fin 16) (m : List Byte) : List (Nat × Instr) :=
  [(0x0, .ptpSyncRx q fine m), (0x8, .ptpFollowUpRx q m), (0x9, .delayRespRx q m), (0xB, .ptpAnnounceRx q m)]

/-- A received PTP message of a type that the port takes into account. -/
def ptpTaken (s : State) (q type : Nat) (m : List Byte) : Prop :=
  ptpType m = type ∧ ptpHears s q = true ∧ 34 ≤ m.length ∧ ptpMalformed m = false ∧ byteAt m 4 = s.fld Reg.TIM_PTP_CFG 31 24

/-- The peer of a message on a port. -/
def peerOf (s : State) (q : Nat) (m : List Byte) : Option Peer := findPeer s q (ptpSource m) (ptpPortNum m)

/-- The commands of received fold-link frames by TYPE and, of CONTROL, SUB. -/
def foldCommands (side : Fin 2) (fine mis : Fin 16) (b : List Byte) (rx : List (List Cplx)) (m : UlMarks) : List (Nat × Nat × Instr) :=
  [(1, 0, .hello side b), (2, 0, .time side fine mis b), (3, 0, .echo side fine b), (4, 0, .dlBlocks side b), (5, 0, .ulSums side b rx m),
    (7, 0, .status side b), (8, 0, .lane side b), (6, 1, .controlSkein side b), (6, 2, .controlSwap side b), (6, 3, .controlBurst side b),
    (6, 4, .controlSlot side b), (6, 5, .controlWarp side b), (6, 6, .controlCommit side b), (6, 7, .controlVote side b),
    (6, 8, .controlReport side b), (6, 9, .controlLevel side b), (6, 10, .controlIsolate side b)]

/-- The state in which a received fold-link frame is checked: it is counted. -/
def foldCounted (side : Nat) (s : State) : State := s.addReg (Reg.CAS_FRAMES side) 1

/-- A received fold-link frame has its length and its check word. -/
def foldWhole (b : List Byte) : Prop := b.length = foldLen b + 16 ∧ be b (b.length - 4) 4 = crc32c (b.take (b.length - 4))

/-- A received fold-link frame of a TYPE passes every check. -/
def foldPasses (s : State) (side type : Nat) (b : List Byte) : Prop :=
  foldType b = type ∧ (sideUp s side = true ∨ (type = 8 ∧ laneCrosses s side = true)) ∧ (sideIsolated s side = false ∨ type = 1 ∨ type = 8) ∧ foldWhole b ∧
    foldForeign s side b = false ∧ payloadOk s side b = true

/-- A received CONTROL frame of a SUB passes every check. -/
def controlPasses (s : State) (side sub : Nat) (b : List Byte) : Prop := foldPasses s side 6 b ∧ byteAt (foldPayload b) 0 = sub

/-- A DMA channel. -/
def channel (s : State) (c : Nat) : DmaCh := vget s.dma.chans c
/-- A channel runs, and the pause after its last MOVE at T1 is over (R404): it fetches its instruction. -/
def fetches (s : State) (c : Nat) : Prop := (channel s c).state = .running ∧ (channel s c).rest ≤ s.time.tb1

/-- The output is at its input register, within its limits, and out of safe bias. -/
def loadedOut (s t : State) (n : Nat) : Prop :=
  (vget t.bda.outs n).code = clampN (vget s.warp.bias n).vmin (vget s.warp.bias n).vmax (s.fld (Reg.BDA_CODE n) 15 0) ∧
    (vget t.bda.outs n).safe = false ∧ (vget t.bda.outs n).cause = (vget s.bda.outs n).cause

/-- A flash operation was refused, or it runs with the effect `p` (R448). -/
def flashAnswered (s t : State) (op : FlashOp) (slot : Nat) (p : Prop) : Prop :=
  (s.served Reg.GLB_FLASH_CTRL = false → t = s) ∧
  (s.served Reg.GLB_FLASH_CTRL = true → changedOnly [.regs, .glb] s t ∧ regsBut [Reg.GLB_FLASH_STATUS] s t ∧
    (flashCode s op (s.reg Reg.GLB_FLASH_ADDR).toNat ≠ 0 → t.glb = s.glb ∧ t.fld Reg.GLB_FLASH_STATUS 31 30 = 2 ∧
      t.fld Reg.GLB_FLASH_STATUS 23 16 = flashCode s op (s.reg Reg.GLB_FLASH_ADDR).toNat) ∧
    (s.glb.flashRun ≠ none → t.fld Reg.GLB_FLASH_STATUS 31 30 = 2 ∧ t.fld Reg.GLB_FLASH_STATUS 23 16 = 1) ∧
    (s.glb.flashRun = none → bootReading s = false → op ≠ .verify →
      flashSize s ≤ (s.reg Reg.GLB_FLASH_ADDR).toNat ∨ (s.reg Reg.GLB_FLASH_ADDR).toNat % flashAlign op ≠ 0 →
      t.fld Reg.GLB_FLASH_STATUS 31 30 = 2 ∧ t.fld Reg.GLB_FLASH_STATUS 23 16 = 2) ∧
    (flashCode s op (s.reg Reg.GLB_FLASH_ADDR).toNat = 0 → t.glb.flashRun = some { op := op, slot := slot } ∧
      t.fld Reg.GLB_FLASH_STATUS 31 30 = 3 ∧ p))

/-- A frame was discarded whole under a violation class, with these bytes on MISO (R440). -/
def frameDiscarded (s t : State) (cls : Nat) (out : List Byte) : Prop :=
  changedOnly [.regs, .glb, .rnd] s t ∧ t.glb.spiOut = out ∧ t.glb.spiBroke = decide (1 ≤ s.pwr.stage) ∧
  (s.pwr.stage = 0 → regsBut [] s t ∧ t.glb.log = s.glb.log) ∧
  (1 ≤ s.pwr.stage → regsBut (Reg.GLB_SPI_STATUS :: Reg.GLB_VIOL 7 (cls / 2) :: logRegs) s t ∧
    t.fld Reg.GLB_SPI_STATUS 15 0 = min 65535 (s.fld Reg.GLB_SPI_STATUS 15 0 + 1) ∧
    ∃ e, t.newest = some e ∧ e.kind = 7 ∧ e.index = 0 ∧ e.cls = cls ∧ e.event = false)

/-- The state after the writes of a frame's words, the first of them the `i`-th (R439). -/
def wordsWritten (incr : Bool) (a : Nat) : Nat → List Word → State → State
  | _, [], s => s
  | i, w :: ws, s => wordsWritten incr a (i + 1) ws (hostWrite (if incr then (a + 4 * i) % 2 ^ 32 else a) w s)

/-- What a write frame does, whose bytes after the OPCODE are `b` (R439, R440). -/
def frameWritten (incr : Bool) (badOp : Option Byte) (b : List Byte) (s t : State) : Prop :=
  (s.pwr.off = true → t = s) ∧
  (s.pwr.off = false →
    (∀ o, badOp = some o → o ∉ spiOpcodes → frameDiscarded s t 1 (spiStatus s :: List.replicate b.length 0)) ∧
    (badOp = none → b.length < 4 → frameDiscarded s t 3 (spiStatus s :: List.replicate b.length 0)) ∧
    (badOp = none → 4 ≤ b.length → leNat (b.take 4) % 4 ≠ 0 → frameDiscarded s t 2 (spiStatus s :: List.replicate b.length 0)) ∧
    (∀ (a : Word) (ws : List Word) (rest : List Byte), badOp = none → a.toNat % 4 = 0 → rest.length < 4 →
      b = leBytes 4 a.toNat ++ wordBytes ws ++ rest →
      (rest = [] → t = { wordsWritten incr a.toNat 0 ws s with
        glb := { (wordsWritten incr a.toNat 0 ws s).glb with spiBroke := false
                                                             spiOut := spiStatus s :: List.replicate b.length 0 } }) ∧
      (rest ≠ [] → frameDiscarded (wordsWritten incr a.toNat 0 ws s) t 3 (spiStatus s :: List.replicate b.length 0))))

/-- What a read frame does, with `n` bytes clocked after the address and the words `late` not ready (R439, R440, R441). -/
def frameRead (incr : Bool) (b : List Byte) (n : Nat) (late : List Nat) (s t : State) : Prop :=
  let a := leNat (b.take 4)
  let head := spiStatus s :: List.replicate (4 + min (spiDummy s) n) 0
  let next := if incr then (a + 4) % 2 ^ 32 else a
  let first := leBytes 4 (readReg s a).toNat
  (s.pwr.off = true → t = s) ∧
  (s.pwr.off = false →
    (b.length < 4 → frameDiscarded s t 3 (spiStatus s :: List.replicate b.length 0)) ∧
    (4 ≤ b.length → a % 4 ≠ 0 → frameDiscarded s t 2 (spiStatus s :: List.replicate 4 0)) ∧
    (4 ≤ b.length → a % 4 = 0 →
      (n ≤ spiDummy s → t = { s with glb := { s.glb with spiBroke := false
                                                         spiOut := head } }) ∧
      (spiDummy s < n → n < spiDummy s + 4 → late = [] →
        t = { s with glb := { s.glb with spiBroke := false
                                         spiOut := head ++ first.take (n - spiDummy s) } }) ∧
      (n = spiDummy s + 4 → late = [] →
        t = { afterRead a s with glb := { (afterRead a s).glb with spiBroke := false
                                                                   spiOut := head ++ first } }) ∧
      (n = spiDummy s + 4 → late = [0] → changedOnly [.regs, .glb] s t ∧ t.glb.spiOut = head ++ [0, 0, 0, 0] ∧
        t.glb.spiBroke = decide (1 ≤ s.pwr.stage) ∧ regsBut [Reg.GLB_SPI_STATUS] s t ∧
        (1 ≤ s.pwr.stage → t.fld Reg.GLB_SPI_STATUS 31 16 = min 65535 (s.fld Reg.GLB_SPI_STATUS 31 16 + 1))) ∧
      (n = spiDummy s + 8 → late = [] →
        t.glb.spiOut = head ++ first ++ leBytes 4 (readReg (if fromCopy next then s else afterRead a s) next).toNat ∧
        t.glb.spiBroke = false)))

/-- A command after an outcome, where it is asked for. -/
def thenDo (on : Bool) (c : Instr) (o : Host.Outcome State Fault Refusal) : Host.Outcome State Fault Refusal :=
  match o with
  | .next s => if on then exec c s else .next s
  | .fault f => .fault f
  | .refused r => .refused r

end Sys2Proof.Machine
end

