-- ==== Sys2Proof/Certificates/Slice0/Obligations.lean ====
section
/-!
DEFINITION. The statements: what each command does, what it leaves, what every step keeps, and what reset leaves.
-/

set_option linter.all false
set_option Elab.async false

open Sys2Proof Sys2Proof.Machine

/-- For every command c and state s with c at the front of its queue, the step of s is exec of c on s with the rest of the queue; log entry
1 describes the queue, which is the model's own. -/
def Obligations.StepTakesTheFront : Prop :=
  ∀ (c : Instr) (s : State) (rest : List Instr), s.pending = c :: rest →
    step s = exec c { s with pending := rest }

/-- With an empty queue the step answers a next state. In Off nothing changes. Above Off the always-on counter is one tick of 1/491.52 MHz
later, and TB1 too at stage 1 and above; TB0 is later by the tick as its rate correction stretches it. The queue and the fuses stay, and
no part changes but the time bases, the registers, the calibration store's block, the paths, the synthesisers, predistortion, the radio
groups, and the frames of the front-haul and cascade links; at stage 1 and above the cascade frames sent before have left. That an empty
queue ticks is the model's choice (log entry 1). -/
def Obligations.EmptyQueueTicks : Prop :=
  ∀ s : State, s.pending = [] → ∃ t, step s = .next t ∧
    (s.pwr.off = true → t = s) ∧
    (s.pwr.off = false → t.time.aon = s.time.aon + tickTu) ∧
    (s.pwr.off = false → s.pwr.stage ≠ 0 → t.time.tb1 = s.time.tb1 + tickTu ∧
      t.time.tb0 = (advance 1 s.tim.rate s.time.tb0 s.time.tb0frac).1 ∧ t.cas.out = []) ∧
    changedOnly [.time, .regs, .nvs, .paths, .syn, .dpd, .rad, .fhp, .cas] s t

/-- From every state, reachable or not, a step answers a next state (it never stops): the queue is the rest of the queue, the fused identity
(ordering code and key hashes) is the same, and where every register table, the calibration store, the flash, the page buffer, the skein
buffers, the coefficient memory, the DRAM, the DMA window and the DMA program memory were in canonical form (addresses strictly rising,
no entry equal to what an unlisted address reads as), they still are. -/
def Obligations.StepKeepsQueueFusesMemory : Prop :=
  ∀ s : State, ∃ t, step s = .next t ∧ t.pending = s.pending.tail ∧ t.fuse = s.fuse ∧
    (Memory.wf s = true → Memory.wf t = true)

/-- For every command c and every state s, reachable or not, exec answers a next state; the queue and the fuses are unchanged, and so is
every part of the state (pins, time bases, registers, log, calibration store, power, warp, paths, synthesisers, skein buffers, FFT
engines, DPD, radio groups, lanes, front haul, timing, cascade, captures, monitor chains, DRAM, DMA, housekeeping converter, bias
outputs, temperature zones, count of free values drawn) that the list 'touched c' does not name: no path, group, lane, buffer or memory
byte there changes. -/
def Obligations.CommandsChangeOnlyTheirParts : Prop :=
  ∀ (c : Instr) (s : State), completes c s (changedOnly (touched c) s)

/-- VSEN rising in Off enters Sentinel (stage 0) with every register, also the always-on ones, at its reset value and nothing running, the
store and the flash kept; VSEN falling enters Off and the always-on registers are lost. A stable crystal sets PWR_AON_START_CFG.XTAL_OK
and changes no other register. RST_N low takes a powered device to stage 0 with every other register at reset: the always-on registers
(so no WAKE_FAIL record is written), the always-on counter, the store's bytes, the flash and a latched thermal shutdown survive; RST_N
high again changes only the pin. -/
def Obligations.SupplyPinsAndReset : Prop :=
  ∀ s : State,
    completes .vsenRise s (fun t => if s.pwr.off then
      t.pwr.off = false ∧ t.pwr.stage = 0 ∧ t.pwr.climb = .none ∧ (∀ a, t.reg a = regReset a) ∧
      t.time = {} ∧ t.glb.log = [] ∧ t.glb.flash = s.glb.flash ∧ t.nvs.store = s.nvs.store ∧ t.nvs.rows = s.nvs.rows ∧
      t.thm.shutdown = false ∧ t.wrp.active = none else t = s) ∧
    completes .vsenFall s (fun t => if s.pwr.off then t = s else
      t.pwr.off = true ∧ t.pwr.stage = 0 ∧ (∀ a, t.reg a = regReset a) ∧ t.time = {} ∧ t.glb.flash = s.glb.flash ∧
      t.thm.shutdown = false ∧ t.bda.sentinel = [] ∧ (s.nvs.running = false → t.nvs.store = s.nvs.store)) ∧
    completes .xtalOk s (fun t => if s.pwr.off then t = s else
      t.bit Reg.PWR_AON_START_CFG 31 = true ∧ regsBut [Reg.PWR_AON_START_CFG] s t ∧ changedOnly [.regs] s t) ∧
    completes .rstNAssert s (fun t => t.pins.rstLow = true ∧ (s.pwr.off = true → changedOnly [.pins] s t) ∧
      (s.pwr.off = false → t.pwr.off = false ∧ t.pwr.stage = 0 ∧ t.pwr.climb = .none ∧ t.aonRegs = s.aonRegs ∧ t.regs = [] ∧
        t.time = { aon := s.time.aon } ∧ t.glb.flash = s.glb.flash ∧ t.nvs.store = s.nvs.store ∧ t.nvs.rows = s.nvs.rows ∧
        t.thm.shutdown = s.thm.shutdown ∧ t.bda.sentinel = s.bda.sentinel ∧ t.wrp.active = none ∧ t.glb.log = [])) ∧
    completes .rstNRelease s (fun t => t.pins.rstLow = false ∧ t.pins.cascId = s.pins.cascId ∧
      t.pins.jtagUnlocked = s.pins.jtagUnlocked ∧ changedOnly [.pins] s t)

/-- For WAKE_N, the always-on timer, the SPI chip select and the thermal crossing (sources 1, 2, 3 and 5): with RST_N low, in Off, or where
the source is disabled or masked after 8 failures, nothing changes. In Sentinel with no climb the wake is recorded in PWR_AON_LAST_WAKE
(SOURCE, COUNT and CMD as the record gives) and its second, and then: a latched shutdown fails the start with cause 8, a bad supply
record with cause 3, and otherwise the rail of group 1 is requested at the voltage of the supply record. From Doze the device starts to
leave Doze and asks VCORE of the level in force; beside its own registers only the synthesisers change, whose units calibrate as they
relock. A front-haul signal (source 4) does so in Doze alone, where its lane shows it. A Shieling frame that is recognised while EN = 1
counts in the low half of PWR_AON_SHL_COUNT and wakes, command 2 holding the climb at stage 1; a frame of the tick of another wake is
counted with it; any other frame counts in the high half and wakes nothing. -/
def Obligations.WakeSources : Prop :=
  ∀ s : State,
    (∀ x ∈ [(Instr.wakeNLow, 1), (.aonTimerAlarm, 2), (.spiChipSelectWake, 3), (.thermalWakeCrossing, 5)],
      completes x.1 s (fun t =>
        (s.pins.rstLow ∨ s.pwr.off ∨ wakeEnabled s x.2 = false → t = s) ∧
        (s.pins.rstLow = false → wakeEnabled s x.2 = true → resting s = .sentinel → s.pwr.wakeAt ≠ some s.time.aon →
          t.pwr.stage = 0 ∧ t.reg Reg.PWR_AON_LAST_WAKE = pk [(8, 0), (0, x.2)] ∧
          t.reg Reg.PWR_AON_LAST_WAKE_TIME = BitVec.ofNat 32 (secOf s.time.aon) ∧
          (if s.thm.shutdown = true then t.pwr.climb = .none ∧ t.fld Reg.PWR_AON_WAKE_FAIL 31 31 = 1 ∧ t.fld Reg.PWR_AON_WAKE_FAIL 7 4 = 8
           else if supplyRecord s = none then t.pwr.climb = .none ∧ t.fld Reg.PWR_AON_WAKE_FAIL 31 31 = 1 ∧ t.fld Reg.PWR_AON_WAKE_FAIL 7 4 = 3
           else t.pwr.climb = .rails 1 ∧ (rail t 0).req = some { mv := supplyMv s 0, why := .climb })) ∧
        (s.pins.rstLow = false → wakeEnabled s x.2 = true → resting s = .doze →
          t.pwr.leavingDoze = true ∧ t.pwr.stage = s.pwr.stage ∧
          (rail t 1).req = some { mv := vcoreNominal s.pwr.level, why := .dozeExit } ∧ changedOnly [.pwr, .regs, .syn] s t))) ∧
    (∀ q : Fin 2, completes (.fronthaulSignalDetect q) s (fun t =>
      (s.pwr.stage < 3 ∨ s.pstate ≠ .doze → t = s) ∧
      (s.pins.rstLow = false → wakeEnabled s 4 = true → resting s = .doze →
        t.pwr.leavingDoze = true ∧ (rail t 1).req = some { mv := vcoreNominal s.pwr.level, why := .dozeExit } ∧
        changedOnly [.pwr, .regs, .syn, .lne] s t))) ∧
    (∀ (site : BitVec 24) (cmd crc : BitVec 8), completes (.shielingFrame site cmd crc) s (fun t =>
      (s.bit Reg.PWR_AON_SHL_CFG 31 = false ∨ s.pins.rstLow ∨ s.pwr.off → t = s) ∧
      (s.bit Reg.PWR_AON_SHL_CFG 31 = true → s.pins.rstLow = false → s.pwr.off = false →
        crc.toNat ≠ crc8 (beBytes 3 site.toNat ++ beBytes 1 cmd.toNat) ∨ site.toNat ≠ s.fld Reg.PWR_AON_SHL_CFG 23 0 ∨
          (cmd ≠ 1 ∧ cmd ≠ 2) ∨ wakeEnabled s 0 = false ∨ (resting s = .other ∧ s.pwr.wakeAt ≠ some s.time.aon) →
        t.fld Reg.PWR_AON_SHL_COUNT 31 16 = satAdd 0xFFFF (s.fld Reg.PWR_AON_SHL_COUNT 31 16) 1 ∧
        t.fld Reg.PWR_AON_SHL_COUNT 15 0 = s.fld Reg.PWR_AON_SHL_COUNT 15 0 ∧
        regsBut [Reg.PWR_AON_SHL_COUNT] s t ∧ changedOnly [.regs] s t) ∧
      (s.bit Reg.PWR_AON_SHL_CFG 31 = true → s.pins.rstLow = false → resting s = .sentinel →
        crc.toNat = crc8 (beBytes 3 site.toNat ++ beBytes 1 cmd.toNat) → site.toNat = s.fld Reg.PWR_AON_SHL_CFG 23 0 →
        cmd = 1 ∨ cmd = 2 → wakeEnabled s 0 = true → s.thm.shutdown = false → supplyRecord s ≠ none →
        t.fld Reg.PWR_AON_SHL_COUNT 15 0 = satAdd 0xFFFF (s.fld Reg.PWR_AON_SHL_COUNT 15 0) 1 ∧
        t.pwr.climb = .rails 1 ∧ t.pwr.shlHold = decide (cmd = 2))))

/-- Without a request of the rail, or while its 1 ms retry spacing runs, an answer of the regulator changes nothing. A request that succeeds
acknowledges the rail and ends the request: a VCORE trim sets its interrupt and the voltage; in a climb VDD2 asks for VDDQ, the last
rail of a group asks for the next group and the last group starts the reference check. A first answer whose VOUT_MODE is not linear is a
final failure with cause 4. A failed attempt sets its interrupt and waits for its retry, remembering a read fault bit; the fourth
failure of a climb's request is a final failure of cause 2 if an attempt read a fault bit, else 1. A retry counts an attempt. A fault of
an acknowledged rail with no request is a final failure of cause 2 that names the rail, and of a rail not acknowledged nothing. An
SMBALERT whose STATUS_WORDs hold no fault touches no rail. Telemetry stores READ_VOUT and READ_IOUT of every rail. The 1 ms and the
climb's groups are those of the spec; that a fault during a request is a failed attempt follows R51's text. -/
def Obligations.RailRequestsAndFaults : Prop :=
  ∀ (s : State) (n : Fin 8),
    (∀ mode : BitVec 8, completes (.pmbusTransactionDone n mode) s (fun t =>
      ((rail s n).req = none → t = s) ∧
      (∀ q, (rail s n).req = some q → q.waiting = true → t = s) ∧
      (∀ q, (rail s n).req = some q → q.waiting = false → (rail s n).modeRead = false → mode.toNat / 32 ≠ 0 →
        t.pwr.stage = 0 ∧ t.reg Reg.PWR_AON_WAKE_FAIL =
          pk [(31, 1), (12, min 15 (s.fld Reg.PWR_AON_WAKE_FAIL 15 12 + 1)), (8, n), (4, 4), (0, heldStage s)]) ∧
      (∀ q, (rail s n).req = some q → q.waiting = false → (rail s n).modeRead = true → q.why = .trim →
        (rail t n).req = none ∧ (rail t n).acked = true ∧ t.bit Reg.PWR_INT_STATUS 5 = true ∧ (n = 1 → t.pwr.vcore = q.mv)) ∧
      (∀ q g, (rail s n).req = some q → q.waiting = false → (rail s n).modeRead = true → q.why = .climb → s.pwr.climb = .rails g →
        (rail t n).acked = true ∧
        (n = 6 → (rail t 7).req = some { mv := supplyMv s 7, why := .climb }) ∧
        (n ≠ 6 → g = 4 → (∀ m ∈ railGroup 4, m ≠ n.val → (rail s m).acked = true) → t.pwr.climb = .refCount false) ∧
        (n ≠ 6 → g < 4 → (∀ m ∈ railGroup g, m ≠ n.val → (rail s m).acked = true) → t.pwr.climb = .rails (g + 1))))) ∧
    (∀ why : PmbWhy, completes (.pmbusAttemptFailed n why) s (fun t =>
      ((rail s n).req = none → t = s) ∧
      (∀ q, (rail s n).req = some q → q.waiting = true → t = s) ∧
      (∀ q, (rail s n).req = some q → q.waiting = false → q.attempts < 4 →
        (rail t n).req = some { q with sawFault := q.sawFault || why == .fault, waiting := true } ∧
        t.bit Reg.PWR_INT_STATUS 6 = true ∧ t.pwr.stage = s.pwr.stage ∧ changedOnly [.pwr, .regs, .glb] s t) ∧
      (∀ q, (rail s n).req = some q → q.waiting = false → 4 ≤ q.attempts → q.why = .climb →
        t.pwr.stage = 0 ∧ t.reg Reg.PWR_AON_WAKE_FAIL = pk [(31, 1), (12, min 15 (s.fld Reg.PWR_AON_WAKE_FAIL 15 12 + 1)), (8, n),
          (4, if q.sawFault || why == .fault then 2 else 1), (0, s.pwr.stage + 1)]))) ∧
    completes (.railRetry n) s (fun t =>
      (∀ q, (rail s n).req = some q → q.waiting = true →
        (rail t n).req = some { q with waiting := false, attempts := q.attempts + 1 } ∧ changedOnly [.pwr, .regs] s t) ∧
      (∀ q, (rail s n).req = some q → q.waiting = false → t = s) ∧ ((rail s n).req = none → t = s)) ∧
    completes (.railFault n) s (fun t =>
      ((rail s n).req = none → (rail s n).acked = true → t.pwr.stage = 0 ∧ t.reg Reg.PWR_AON_WAKE_FAIL =
        pk [(31, 1), (12, min 15 (s.fld Reg.PWR_AON_WAKE_FAIL 15 12 + 1)), (8, n), (4, 2), (0, heldStage s)]) ∧
      ((rail s n).req = none → (rail s n).acked = false → t = s)) ∧
    (∀ words : List (BitVec 16), completes (.smbalert words) s (fun t =>
      (pmbusRuns s = false → t = s) ∧
      (pmbusRuns s = true → (∀ m < 8, statusFault (words.getD m 0) = false) →
        t.pwr = s.pwr ∧ changedOnly [.regs, .glb] s t ∧
        (s.pwr.stage ≠ 0 → t.fld (Reg.GLB_VIOL 5 2) 31 16 = satAdd 0xFFFF (s.fld (Reg.GLB_VIOL 5 2) 31 16) 1)))) ∧
    (∀ r : List (BitVec 16 × BitVec 16), completes (.pmbusTelemetryPoll r) s (fun t =>
      (s.pwr.off ∨ s.pwr.stage = 0 → t = s) ∧
      (s.pwr.off = false → s.pwr.stage ≠ 0 → changedOnly [.pwr, .regs] s t ∧ ∀ m < 8,
        rail t m = { rail s m with vout := (r.getD m (0, 0)).1.toNat, iout := (r.getD m (0, 0)).2.toNat })))

/-- A counting window whose edges agree with the reference of the supply record (0.5 % on the crystal, 4 % on the RC oscillator) starts the
wait for lock, and one that does not agree changes nothing. Without a verified reference in time REF_B follows REF_A, and then the start
fails with cause 5. At stage 1, above which the climb goes on, the boot ROM starts the first image that passes and stores its VERSION
and slot; slot 0 failing, slot 1 is tried; no image is the final failure 6. At the link wait's end with an image, no front-haul port up
and a wait that is not endless, the start fails with cause 7. The climb enters stage 1 once the reference is verified, and stage 2 once
the image runs and a front-haul port is up, with its interrupt, unless the climb is held; it does nothing in Off and in a sleep
sequence. -/
def Obligations.ReferencesImageAndClimb : Prop :=
  ∀ s : State,
    (∀ edges : Nat, completes (.refCheckWindowDone edges) s (fun t =>
      (∀ b, s.pwr.climb = .refCount b →
        if edgesAgree s b edges then t.pwr.climb = .refLock b ∧ changedOnly [.pwr] s t else t = s) ∧
      ((∀ b, s.pwr.climb ≠ .refCount b) → t = s))) ∧
    completes .refCheckTimeout s (fun t =>
      (s.pwr.climb = .refCount false ∨ s.pwr.climb = .refLock false → t.pwr.climb = .refCount true ∧ changedOnly [.pwr] s t) ∧
      (s.pwr.climb = .refCount true ∨ s.pwr.climb = .refLock true → t.pwr.stage = 0 ∧ t.pwr.climb = .none ∧
        t.reg Reg.PWR_AON_WAKE_FAIL = pk [(31, 1), (12, min 15 (s.fld Reg.PWR_AON_WAKE_FAIL 15 12 + 1)), (8, 0), (4, 5), (0, 1)]) ∧
      (s.pwr.climb = .none → t = s)) ∧
    completes .firmwareImageVerified s (fun t =>
      if s.pwr.stage ≠ 1 ∨ s.pwr.fwOk ∨ climbGoal s ≤ 1 then t = s
      else match imageVersion s (min 1 (s.fld Reg.GLB_BOOT 3 0)) with
      | some v => t.pwr.fwOk = true ∧ t.reg Reg.GLB_FW_VERSION = BitVec.ofNat 32 v ∧
          t.reg Reg.GLB_BOOT = pk [(31, 1), (8, min 1 (s.fld Reg.GLB_BOOT 3 0)), (0, min 1 (s.fld Reg.GLB_BOOT 3 0))] ∧
          regsBut [Reg.GLB_FW_VERSION, Reg.GLB_BOOT] s t ∧ changedOnly [.pwr, .regs] s t
      | none => if s.fld Reg.GLB_BOOT 3 0 = 0 then t.fld Reg.GLB_BOOT 3 0 = 1 ∧ regsBut [Reg.GLB_BOOT] s t ∧ changedOnly [.regs] s t
          else t.pwr.stage = 0 ∧ t.reg Reg.PWR_AON_WAKE_FAIL =
            pk [(31, 1), (12, min 15 (s.fld Reg.PWR_AON_WAKE_FAIL 15 12 + 1)), (8, 0), (4, 6), (0, 2)]) ∧
    completes .linkWaitExpiry s (fun t =>
      if s.pwr.stage = 1 ∧ s.pwr.fwOk ∧ ¬ fronthaulUp s ∧ s.fld Reg.PWR_AON_START_CFG 19 0 ≠ 0 ∧ 1 < climbGoal s then
        t.pwr.stage = 0 ∧ t.reg Reg.PWR_AON_WAKE_FAIL =
          pk [(31, 1), (12, min 15 (s.fld Reg.PWR_AON_WAKE_FAIL 15 12 + 1)), (8, 0), (4, 7), (0, 2)]
      else t = s) ∧
    completes .stageClimb s (fun t =>
      (s.pwr.off ∨ s.pwr.sleep.isSome → t = s) ∧
      (s.pwr.off = false → s.pwr.sleep = none → s.pwr.stage = 0 → s.pwr.climb ≠ .refOk → t = s) ∧
      (s.pwr.off = false → s.pwr.sleep = none → s.pwr.stage = 0 → s.pwr.climb = .refOk →
        t.pwr.stage = 1 ∧ t.pwr.shlHold = s.pwr.shlHold ∧ t.pwr.fwOk = false ∧ t.glb.log = [] ∧ t.glb.flash = s.glb.flash ∧
        t.pins.jtagUnlocked = false ∧ t.time = { aon := s.time.aon }) ∧
      (s.pwr.off = false → s.pwr.sleep = none → s.pwr.stage = 1 → 1 < climbGoal s → s.pwr.fwOk = true → fronthaulUp s = true →
        t.pwr.stage = 2 ∧ t.bit Reg.PWR_INT_STATUS 8 = true) ∧
      (s.pwr.off = false → s.pwr.sleep = none → s.pwr.stage = 1 → climbGoal s ≤ 1 ∨ s.pwr.fwOk = false ∨ fronthaulUp s = false → t = s))

/-- Stage 4 is entered from stage 3 in Idle, with TB0 locked, RELEASE = 1, no full warp load, no unlocked JTAG and no sleep in progress: the
stage mutes end and the interrupt is set; otherwise nothing changes. Once stage 4 is being left and every TX chain is muted, the device
is at stage 3; otherwise nothing changes. Writing RELEASE = 1 only sets the bit; RELEASE = 0 at stage 4 begins the exit and at another
stage only clears the bit. CLIMB resumes a climb held at stage 1 or 2 outside a sleep sequence, whatever HOLD_STAGE has become, and does
nothing elsewhere. Clearing PWR_AON_WAKE_FAIL makes the register 0. A write of PWR_AON_SHL_CFG that changes SITE while EN = 1 is ignored
as a whole and counted as a refused write of the SPI host; any other takes effect in EN and SITE. A register the port does not serve at
this stage takes no write. -/
def Obligations.StageFourAndHeldClimb : Prop :=
  ∀ s : State,
    completes .stage4Entry s (fun t =>
      if s.pwr.stage = 3 ∧ s.pstate = .idle ∧ ¬ s.pwr.leavingDoze ∧ s.pwr.sleep = none ∧ s.locked ∧ s.bit Reg.PWR_STAGE_CTRL 0 ∧
          fullLoad s = false ∧ s.pins.jtagUnlocked = false then
        t.pwr.stage = 4 ∧ t.bit Reg.PWR_INT_STATUS 8 = true ∧ regsBut [Reg.PWR_INT_STATUS] s t ∧
        (∀ p < 64, (vget t.paths p).stageMute = false) ∧ changedOnly [.pwr, .pstate, .regs, .paths] s t
      else t = s) ∧
    completes .stage4ExitComplete s (fun t =>
      (s.pwr.leaving4 = true → (∀ p < 64, (s.pathCfg p).txEn → (pathOf s p).stageMute) →
        t.pwr.stage = 3 ∧ t.pwr.leaving4 = false) ∧
      (s.pwr.leaving4 = false ∨ (∃ p < 64, (s.pathCfg p).txEn = true ∧ (pathOf s p).stageMute = false) → t = s)) ∧
    (∀ on : Bool, completes (.release on) s (fun t =>
      (s.served Reg.PWR_STAGE_CTRL = false → t = s) ∧
      (s.served Reg.PWR_STAGE_CTRL = true → (on = true ∨ s.pwr.stage ≠ 4) →
        t.bit Reg.PWR_STAGE_CTRL 0 = on ∧ regsBut [Reg.PWR_STAGE_CTRL] s t ∧ changedOnly [.regs] s t) ∧
      (s.served Reg.PWR_STAGE_CTRL = true → on = false → s.pwr.stage = 4 → t.pwr.leaving4 = true ∧ t.pwr.stage = 4))) ∧
    completes .climb s (fun t =>
      if s.served Reg.PWR_STAGE_CTRL = true ∧ s.pwr.stage ≥ 1 ∧ s.pwr.stage < 3 ∧ s.pwr.sleep = none then
        t.pwr.resumed = s.pwr.stage ∧ t.pwr.stage = s.pwr.stage ∧ changedOnly [.pwr, .regs] s t
      else t = s) ∧
    completes .pwrAonWakeFailClear s (fun t =>
      if s.pwr.off then t = s else t.reg Reg.PWR_AON_WAKE_FAIL = 0 ∧ regsBut [Reg.PWR_AON_WAKE_FAIL] s t ∧ changedOnly [.regs] s t) ∧
    (∀ w : BitVec 32, completes (.pwrAonShlCfgWrite w) s (fun t =>
      (s.pwr.off = true → t = s) ∧
      (s.pwr.off = false → s.bit Reg.PWR_AON_SHL_CFG 31 = true → fld w 23 0 ≠ s.fld Reg.PWR_AON_SHL_CFG 23 0 →
        t.reg Reg.PWR_AON_SHL_CFG = s.reg Reg.PWR_AON_SHL_CFG ∧ changedOnly [.regs, .glb] s t ∧
        (s.pwr.stage = 0 → t.glb.log = s.glb.log) ∧
        (s.pwr.stage ≠ 0 → t.fld (Reg.GLB_VIOL 7 2) 31 16 = satAdd 0xFFFF (s.fld (Reg.GLB_VIOL 7 2) 31 16) 1)) ∧
      (s.pwr.off = false → s.bit Reg.PWR_AON_SHL_CFG 31 = false ∨ fld w 23 0 = s.fld Reg.PWR_AON_SHL_CFG 23 0 →
        t.reg Reg.PWR_AON_SHL_CFG = w &&& 0x80FFFFFF ∧ regsBut [Reg.PWR_AON_SHL_CFG] s t ∧ changedOnly [.regs] s t)))

/-- A request of Doze, Sentinel or GOTO_SAFE that the port serves while a sequence runs or the device leaves Doze is refused with BLOCK 1,
CODE 0x1A, in PWR_STATE_RESULT and PWR_LAST_REFUSAL, with no other effect but the time of the refusal and its interrupt. Doze below
stage 3 and GOTO_SAFE below stage 3 or in Doze are refused with 0x1E, Doze with a downstream neighbour awake in stacked mode with block
0x0F code 0x1C, GOTO_SAFE in Service with block 8 code 0x15. A Doze request in a quiet stand-alone device runs steps 1 to 9 and waits at
step 10 for VCORE at 620 mV, IN_PROGRESS; AUTO_DOZE does the same when it is enabled in Idle with no allocation, and nothing otherwise.
Sentinel asked below stage 3 with no store write running takes the device to stage 0 with the always-on registers kept. A step's end
changes nothing without a sequence or while VCORE is awaited, and carries the Sentinel sequence on to stage 0 once the store is done.
Leaving Doze ends in Idle at stage 3 once VCORE is acknowledged and the units in service have calibrated, and is nothing otherwise. -/
def Obligations.SleepRequests : Prop :=
  ∀ s : State,
    (∀ x ∈ [(Instr.pwrStateReqDoze, SleepReq.doze, Reg.PWR_STATE_REQ), (.pwrStateReqSentinel, .sentinel, Reg.PWR_STATE_REQ),
        (.gotoSafe, .safe, Reg.PWR_STAGE_CTRL)], completes x.1 s (fun t =>
      (s.served x.2.2 = false → t = s) ∧
      (s.served x.2.2 = true → s.pwr.sleep.isSome ∨ s.pwr.leavingDoze → refusedRequest s t x.2.1 1 0x1A))) ∧
    completes .pwrStateReqDoze s (fun t => s.served Reg.PWR_STATE_REQ = true → s.pwr.sleep = none → s.pwr.leavingDoze = false →
      (s.pwr.stage < 3 → refusedRequest s t .doze 1 0x1E) ∧
      (s.pwr.stage ≥ 3 → s.pstate ≠ .doze → stackAwake s = true → refusedRequest s t .doze 0x0F 0x1C) ∧
      (s.pwr.stage ≥ 3 → s.pstate ≠ .doze → quiet s → dozing s t)) ∧
    completes .gotoSafe s (fun t => s.served Reg.PWR_STAGE_CTRL = true → s.pwr.sleep = none → s.pwr.leavingDoze = false →
      (s.pwr.stage < 3 ∨ s.pstate = .doze → refusedRequest s t .safe 1 0x1E) ∧
      (s.pwr.stage ≥ 3 → s.pstate = .service → refusedRequest s t .safe 8 0x15)) ∧
    completes .pwrStateReqSentinel s (fun t => s.served Reg.PWR_STATE_REQ = true → s.pwr.sleep = none → s.pwr.leavingDoze = false →
      s.pwr.stage < 3 → storeWriting s = false → t.pwr.stage = 0 ∧ t.pwr.off = false ∧ t.regs = [] ∧ t.nvs.store = s.nvs.store) ∧
    completes .autoDoze s (fun t =>
      (s.bit Reg.PWR_AUTO_DOZE 31 = false ∨ s.pwr.stage < 3 ∨ s.pstate ≠ .idle ∨ s.pwr.sleep.isSome ∨ noAllocation s = false → t = s) ∧
      (s.bit Reg.PWR_AUTO_DOZE 31 = true → s.pwr.stage ≥ 3 → s.pstate = .idle → s.pwr.sleep = none → noAllocation s = true →
        s.pwr.leavingDoze = false → quiet s → dozing s t)) ∧
    (∀ late : Bool, completes (.sleepStepDone late) s (fun t =>
      (s.pwr.sleep = none → t = s) ∧
      (∀ x, s.pwr.sleep = some x → x.refusing.isSome ∨ (sleepLow s ∧ x.step = 10) → t = s) ∧
      (∀ x, s.pwr.sleep = some x → x.refusing = none → x.req = .sentinel → x.step = 11 → storeWriting s = true → t = s) ∧
      (∀ x, s.pwr.sleep = some x → x.refusing = none → x.req = .sentinel → x.step = 11 → storeWriting s = false →
        t.pwr.stage = 0 ∧ t.pwr.off = false ∧ t.regs = [] ∧ t.nvs.store = s.nvs.store))) ∧
    (∀ (mr4 : Option (Fin 8)) (drift : Int), completes (.dozeExitDone mr4 drift) s (fun t =>
      (s.pwr.leavingDoze = false ∨ vcoreBusy s = true ∨ relocking s = true → t = s) ∧
      (s.pwr.leavingDoze = true → vcoreBusy s = false → relocking s = false →
        t.pwr.leavingDoze = false ∧ t.pstate = .idle ∧ t.pwr.stage = (if s.pwr.stage = 4 then 3 else s.pwr.stage))))

/-- A level request that the port serves keeps the level in PWR_LEVEL_REQ; a stack member refuses it with code 8, and another device with
the first code of the list that applies, in OUTCOME and CODE, with the interrupt. A request of the level in force is DONE at once; a
faster level asks its VCORE first, a slower one waits for its change point, IN_PROGRESS (with members joined it goes to their vote). At
the change point the new level is in force and a slower one is done; a faster one asks its nominal VCORE; a change that is restored has
its old level and asks its old VCORE. A report at stage 3 or above sets the margin to the least of its in-service regions. A trim step
down asks 10 mV less where the margin is at least 12 %, and is nothing without a trim. A cadence slip at stage 3 or above is counted and
sets its interrupt; a zero stands for the sample, in the path's stream to its DACs or, on the receive side, in the layer whose sections
the slip marks. A power-fail warning holds new store writes; on VSEN a write with more than 40 microseconds left (1,280 bytes) stops,
and another runs on. -/
def Obligations.PerformanceLevels : Prop :=
  ∀ s : State,
    (∀ l : BitVec 2, completes (.pwrLevelReq l) s (fun t =>
      (s.served Reg.PWR_LEVEL_REQ = false → t = s) ∧
      (s.served Reg.PWR_LEVEL_REQ = true → isStackMember s = true → t.reg Reg.PWR_LEVEL_REQ = BitVec.ofNat 32 l.toNat ∧
        t.fld Reg.PWR_LEVEL_STATUS 5 4 = 2 ∧ t.fld Reg.PWR_LEVEL_STATUS 15 8 = 8 ∧ t.bit Reg.PWR_INT_STATUS 3 = true ∧ changedOnly [.regs] s t) ∧
      (s.served Reg.PWR_LEVEL_REQ = true → isStackMember s = false → levelCode s l.toNat ≠ 0 → t.reg Reg.PWR_LEVEL_REQ = BitVec.ofNat 32 l.toNat ∧
        t.fld Reg.PWR_LEVEL_STATUS 5 4 = 2 ∧ t.fld Reg.PWR_LEVEL_STATUS 15 8 = levelCode s l.toNat ∧ t.bit Reg.PWR_INT_STATUS 3 = true ∧
        changedOnly [.regs] s t) ∧
      (s.served Reg.PWR_LEVEL_REQ = true → isStackMember s = false → levelCode s l.toNat = 0 → l.toNat = s.pwr.level →
        t.fld Reg.PWR_LEVEL_STATUS 5 4 = 1 ∧ t.bit Reg.PWR_INT_STATUS 2 = true ∧ changedOnly [.regs] s t) ∧
      (s.served Reg.PWR_LEVEL_REQ = true → isStackMember s = false → levelCode s l.toNat = 0 → l.toNat ≠ s.pwr.level → isBellwether s = false →
        t.fld Reg.PWR_LEVEL_STATUS 5 4 = 3 ∧ t.pwr.level = s.pwr.level ∧ changedOnly [.regs, .pwr] s t ∧
        t.pwr.change = some { new := l.toNat, old := s.pwr.level, oldMv := s.pwr.vcore, phase := if l.toNat < s.pwr.level then .raise else .point } ∧
        (l.toNat < s.pwr.level → (rail t 1).req = some { mv := vcoreNominal l.toNat, why := .levelUp })))) ∧
    completes .levelChangePoint s (fun t =>
      (s.pwr.change = none → t = s) ∧
      (∀ c, s.pwr.change = some c → c.phase = .raise ∨ c.phase = .lower ∨ c.phase = .back → t = s) ∧
      (∀ c, s.pwr.change = some c → c.phase = .point → t.pwr.level = c.new ∧
        (c.new < c.old → t.pwr.change = none ∧ t.fld Reg.PWR_LEVEL_STATUS 5 4 = 1 ∧ t.bit Reg.PWR_INT_STATUS 2 = true) ∧
        (c.old ≤ c.new → t.pwr.change = some { c with phase := .lower } ∧ (rail t 1).req = some { mv := vcoreNominal c.new, why := .levelDown })) ∧
      (∀ c, s.pwr.change = some c → c.phase = .restore → t.pwr.level = c.old ∧ (rail t 1).req = some { mv := c.oldMv, why := .levelBack })) ∧
    (∀ r : List (Bool × Option Int), completes (.cadenceReport r) s (fun t =>
      (s.pwr.stage < 3 → t = s) ∧
      (s.pwr.stage ≥ 3 → t.pwr.level = s.pwr.level ∧
        t.pwr.margin = (match (List.range 32).filterMap (fun i => if (r.getD i (false, none)).1 then (r.getD i (false, none)).2 else none) with
          | [] => none
          | x :: xs => some (xs.foldl min x))))) ∧
    completes .vtrimStepDown s (fun t =>
      (∀ m, s.pwr.margin = some m → 120 ≤ m → vcoreTrim s ≠ 0 → vcoreBusy s = false → s.pwr.change = none → s.pwr.sleep = none →
        s.pstate ≠ .doze → 3 ≤ s.pwr.stage → (rail t 1).req = some { mv := s.pwr.vcore - 10, why := .trim } ∧ changedOnly [.pwr, .regs] s t) ∧
      (s.pwr.margin = none ∨ vcoreTrim s = 0 ∨ vcoreBusy s = true ∨ s.pwr.change.isSome ∨ s.pwr.sleep.isSome ∨ s.pstate = .doze ∨ s.pwr.stage < 3 → t = s)) ∧
    completes .cadenceSlip s (fun t =>
      (s.pwr.stage < 3 → t = s) ∧
      (s.pwr.stage ≥ 3 → t.reg Reg.GLB_CADENCE_SLIP = BitVec.ofNat 32 (satAdd 0xFFFFFFFF (s.reg Reg.GLB_CADENCE_SLIP).toNat 1) ∧
        regsBut (Reg.GLB_CADENCE_SLIP :: logRegs) s t ∧ changedOnly [.regs, .glb, .fhp, .rnd] s t ∧
        ((Config.slipped s.rnd).1 = true → ((Config.slipped s.rnd).2.val % 32, releasedNow s) ∈ t.fhp.ulSlips) ∧
        ((Config.slipped s.rnd).1 = false → ∀ x ∈ t.fhp.e2, x.1 = releasedNow s →
          ∀ row ∈ x.2, row.getD (Config.slipped s.rnd).2 (0, 0) = (0, 0)))) ∧
    (∀ (vsen : Bool) (remaining : Nat), completes (.powerFailWarning vsen remaining) s (fun t =>
      (s.pwr.off = true → t = s) ∧
      (s.pwr.off = false → t.nvs.powerFail = true ∧ t.bit Reg.NVS_INT_STATUS 8 = true ∧ regsBut [Reg.NVS_INT_STATUS] s t ∧
        changedOnly [.regs, .nvs] s t ∧
        (vsen = false ∨ remaining ≤ 1280 ∨ s.nvs.writes = [] → t.nvs.writes = s.nvs.writes ∧ t.nvs.store = s.nvs.store) ∧
        (∀ w rest, s.nvs.writes = w :: rest → vsen = true → 1280 < remaining → s.nvs.powerFail = false → t.nvs.writes = rest ∧ t.nvs.running = false))))

/-- A word written to WRP_DATA is staged after the words before it; while a load is in progress it is refused and nothing is staged, and a
word past the 4,096th is refused and remembered as an overflow. CLEAR empties the buffer. LOAD during a load is refused BUSY and leaves
the load; a length that is not a multiple of 4 or not that of the buffer is FORMAT, an unfit stage STAGE, and a warp that fails its
checks is refused with the code and place of the first failing check: each leaves no load, an empty buffer and the active structure as
it was. A full warp that passes, with no job before it, is placed and waits for its spindles, or is refused CAPACITY. ABORT before the
commit phase refuses the load as ABORTED, and is nothing otherwise. A warp of the flash is loaded in the same way at stage 2 with
WARP_SRC = 0, and the buffer stays. Once its spindles are loaded a full warp is the active structure, DONE, with nothing in fall-back; a
partial one waits for its switch, and at the switch is the active structure under the old identity. -/
def Obligations.WarpLoads : Prop :=
  ∀ s : State,
    (∀ w : BitVec 32, completes (.wrpDataWrite w) s (fun t =>
      (s.served Reg.WRP_DATA = false → t = s) ∧
      (s.served Reg.WRP_DATA = true → s.wrp.load = none → s.wrp.stage.words.length < 4096 →
        t.wrp.stage.words = s.wrp.stage.words ++ [w] ∧ t.wrp.stage.overflow = s.wrp.stage.overflow ∧ changedOnly [.wrp] s t) ∧
      (s.served Reg.WRP_DATA = true → s.wrp.load = none → 4096 ≤ s.wrp.stage.words.length →
        t.wrp.stage.words = s.wrp.stage.words ∧ t.wrp.stage.overflow = true) ∧
      (s.served Reg.WRP_DATA = true → s.wrp.load.isSome → t.wrp = s.wrp ∧ changedOnly [.regs, .glb] s t))) ∧
    completes .wrpClear s (fun t => if s.served Reg.WRP_CTRL then t.wrp = { s.wrp with stage := {} } ∧ changedOnly [.wrp] s t else t = s) ∧
    completes .wrpLoad s (fun t =>
      (s.served Reg.WRP_CTRL = false → t = s) ∧
      (s.served Reg.WRP_CTRL = true → s.wrp.load.isSome → t.wrp = s.wrp ∧ loadRefused t (0xD, 0xFFFF, 0) ∧ changedOnly [.regs] s t) ∧
      (s.served Reg.WRP_CTRL = true → s.wrp.load = none → s.pwr.change = none →
        s.fld Reg.WRP_STAGE_LEN 14 0 % 4 ≠ 0 ∨ s.wrp.stage.fits (s.fld Reg.WRP_STAGE_LEN 14 0 / 4) = false →
        t.wrp.load = none ∧ t.wrp.stage = {} ∧ t.wrp.active = s.wrp.active ∧ loadRefused t (1, 0xFFFF, 0) ∧ t.fld Reg.WRP_STATUS 4 4 = b2n (stagedPartial s) ∧
        changedOnly [.wrp, .regs] s t) ∧
      (s.served Reg.WRP_CTRL = true → s.wrp.load = none → s.pwr.change = none → s.fld Reg.WRP_STAGE_LEN 14 0 % 4 = 0 →
        s.wrp.stage.fits (s.fld Reg.WRP_STAGE_LEN 14 0 / 4) = true → stagedPartial s = false →
        if badStage s false then loadRefused t (0xB, 0xFFFF, 0) ∧ t.wrp.load = none ∧ t.wrp.active = s.wrp.active
        else match verifyWarp (s.setFld Reg.WRP_STATUS 4 4 0) s.wrp.stage.bytes with
        | .inl e => loadRefused t e ∧ t.wrp.load = none ∧ t.wrp.stage = {} ∧ t.wrp.active = s.wrp.active ∧ changedOnly [.wrp, .regs] s t
        | .inr w => s.wrp.jobs = [] →
            if structFibres w ≤ 16 * spindlesIn s then
              t.wrp.load = some { new := w, partialLoad := false, placed := structFibres w, phase := 5 } ∧ t.wrp.active = s.wrp.active ∧
              t.fld Reg.WRP_STATUS 1 0 = 3
            else loadRefused t (0xA, 0xFFFF, 0) ∧ t.wrp.load = none ∧ t.wrp.active = s.wrp.active)) ∧
    completes .wrpAbort s (fun t =>
      (s.served Reg.WRP_CTRL = false ∨ s.wrp.load = none → t = s) ∧
      (∀ x, s.wrp.load = some x → 6 ≤ x.phase → t = s) ∧
      (∀ x, s.served Reg.WRP_CTRL = true → s.wrp.load = some x → x.phase < 6 →
        t.wrp.load = none ∧ t.wrp.stage = {} ∧ t.wrp.active = s.wrp.active ∧ loadRefused t (0xE, 0xFFFF, 0))) ∧
    completes .qspiWarpLoad s (fun t =>
      (s.pwr.stage ≠ 2 ∨ s.bit Reg.PWR_AON_START_CFG 20 = true ∨ s.wrp.load.isSome ∨ s.wrp.active.isSome → t = s) ∧
      (s.pwr.stage = 2 → s.bit Reg.PWR_AON_START_CFG 20 = false → s.wrp.load = none → s.wrp.active = none → t.wrp.stage = s.wrp.stage ∧
        (nbit (byteAt (qspiWarp s) 0xE) 1 = false → ∀ e, verifyWarp (s.setFld Reg.WRP_STATUS 4 4 0) (qspiWarp s) = .inl e →
          loadRefused t e ∧ t.wrp.load = none))) ∧
    completes .spindlesLoaded s (fun t => ∀ x j rest, s.wrp.load = some x → s.wrp.jobs = j :: rest → j = .load ∨ j = .reweave →
      (x.phase ≠ 5 → t = s) ∧
      (x.phase = 5 → x.partialLoad = false → t.wrp.active = some x.new ∧ t.wrp.load = none ∧ t.wrp.stage = {} ∧ t.wrp.fallDl = 0 ∧
        t.wrp.fallUl = 0 ∧ t.fld Reg.WRP_STATUS 1 0 = 1 ∧ t.fld Reg.WRP_STATUS 31 24 = 0 ∧ t.bit Reg.WRP_INT_STATUS 0 = true) ∧
      (x.phase = 5 → x.partialLoad = true → t.wrp.load = some { x with phase := 6 } ∧ t.wrp.active = s.wrp.active)) ∧
    completes .reweaveSwitch s (fun t =>
      (s.wrp.load = none → t = s) ∧
      (∀ x, s.wrp.load = some x → x.phase ≠ 6 → t = s) ∧
      (∀ x, s.wrp.load = some x → x.phase = 6 → t.wrp.active = some { x.new with id := s.warp.id } ∧ t.wrp.load = none ∧
        t.fld Reg.WRP_STATUS 1 0 = 1 ∧ t.fld Reg.WRP_STATUS 31 24 = 0 ∧ t.bit Reg.WRP_INT_STATUS 2 = true))

/-- A job start with an empty queue is nothing; a failed spindle at the head takes the next reserve and is shadowed; a load that waits is
placed (PHASE 5) or refused CAPACITY. A self-test failure before weaving, at stage 2 or above, retires the spindle, once. A failed test
vector of a spindle in service with a warp enters the queue behind what waits, and starts a shadow at once where nothing waits and a
reserve is left; it is nothing for a spindle that is queued already, is not in service, or with no warp. A comparison that matches lets
the work move; a miscompare is counted. The handover takes the job from the queue, retires the failed spindle and asserts the handover's
interrupt. A conversion takes the first live layer in the order of R97 that is not in fall-back into fall-back with its interrupt, and
with all in fall-back withdraws the first with its interrupt; the job stays at the head until the work fits. -/
def Obligations.WeaverAndReserves : Prop :=
  ∀ s : State,
    completes .weaverJobStart s (fun t =>
      (s.wrp.jobs = [] → t = s) ∧
      (∀ i layers onto rest r, s.wrp.jobs = .handover i layers .queued onto :: rest → nextReserveSpindle s = some r →
        t.wrp = { s.wrp with jobs := .handover i layers .shadow (some r) :: rest } ∧ changedOnly [.wrp] s t) ∧
      (∀ j rest x, s.wrp.jobs = j :: rest → j = .load ∨ j = .reweave → s.wrp.load = some x → x.phase < 5 →
        match placement s x.new x.partialLoad with
        | some n => t.wrp = { s.wrp with load := some { x with placed := n, phase := 5 } } ∧ changedOnly [.wrp] s t
        | none => loadRefused t (0xA, 0xFFFF, 0) ∧ t.wrp.load = none ∧ t.wrp.active = s.wrp.active)) ∧
    (∀ i : Fin 576, completes (.spindleSelfTestFail i) s (fun t =>
      (nbit s.wrp.spRetired i = true ∨ s.wrp.active.isSome ∨ s.pwr.stage < 2 → t = s) ∧
      (nbit s.wrp.spRetired i = false → s.wrp.active = none → 2 ≤ s.pwr.stage →
        t.wrp = { s.wrp with spRetired := s.wrp.spRetired + 2 ^ i.val }))) ∧
    (∀ (i : Fin 576) (layers : List (Bool × Fin 32)), completes (.testVectorFail i layers) s (fun t =>
      (s.wrp.active = none ∨ ((goodSpindles s).take 512).contains i.val = false → t = s) ∧
      (∀ l ph o, .handover i.val l ph o ∈ s.wrp.jobs → t = s) ∧
      ((∀ l ph o, .handover i.val l ph o ∉ s.wrp.jobs) → s.wrp.active.isSome → ((goodSpindles s).take 512).contains i.val = true →
        (s.wrp.jobs ≠ [] → t.wrp.jobs = s.wrp.jobs ++ [.handover i (layers.map (fun x => (x.1, x.2.val))) .queued none] ∧ changedOnly [.wrp] s t) ∧
        (∀ r, s.wrp.jobs = [] → nextReserveSpindle s = some r →
          t.wrp.jobs = [.handover i (layers.map (fun x => (x.1, x.2.val))) .shadow (some r)] ∧ changedOnly [.wrp] s t)))) ∧
    (∀ matched : Bool, completes (.shadowCompareDone matched) s (fun t => ∀ i layers onto rest, s.wrp.jobs = .handover i layers .shadow onto :: rest →
      (matched = true → t.wrp = { s.wrp with jobs := .handover i layers .moving onto :: rest } ∧ changedOnly [.wrp] s t) ∧
      (matched = false → t.wrp.miscompares = satAdd 0xFFFF s.wrp.miscompares 1))) ∧
    completes .reserveHandover s (fun t => ∀ i layers r rest, s.wrp.jobs = .handover i layers .moving (some r) :: rest →
      t.wrp = { s.wrp with jobs := rest, spRetired := if nbit s.wrp.spRetired i then s.wrp.spRetired else s.wrp.spRetired + 2 ^ i } ∧
      t.bit Reg.WRP_INT_STATUS 3 = true) ∧
    completes .fallbackConversion s (fun t => ∀ i layers onto rest, s.wrp.jobs = .handover i layers .converting onto :: rest →
      t.wrp.jobs.tail = rest ∧
      (∀ x, ((convertOrder layers).filter (liveSlot s)).find? (fun x => !inFallback s x) = some x →
        t.bit Reg.WRP_INT_STATUS 4 = true ∧ t.wrp.withdrawnDl = s.wrp.withdrawnDl ∧ t.wrp.withdrawnUl = s.wrp.withdrawnUl ∧
        (if x.1 then t.wrp.fallUl = s.wrp.fallUl + 2 ^ x.2 ∧ t.wrp.fallDl = s.wrp.fallDl
         else t.wrp.fallDl = s.wrp.fallDl + 2 ^ x.2 ∧ t.wrp.fallUl = s.wrp.fallUl)) ∧
      (∀ x l, ((convertOrder layers).filter (liveSlot s)).find? (fun x => !inFallback s x) = none →
        (convertOrder layers).filter (liveSlot s) = x :: l → t.bit Reg.WRP_INT_STATUS 5 = true ∧
        (if x.1 then t.wrp.withdrawnUl = s.wrp.withdrawnUl + 2 ^ x.2 else t.wrp.withdrawnDl = s.wrp.withdrawnDl + 2 ^ x.2)))

/-- A write of the transmit or receive attenuation stores the value (a receive value above 30 as 30); with the group in TX or RX it waits
for the boundary and nothing else changes, otherwise it is in force at once. A user trim is stored in its 18 bits, and waits in the same
way. TX_MUTE with MUTE_NOW mutes the chain at once as host source, without it the source is as it was, and clearing it ends the source.
RX_ZERO and INV_SINC_OFF change one bit of PTH_CTRL. CLEAR_OCP is kept for the boundary when the fault is an over-current fault and the
group is not in TX, and is otherwise nothing. A millisecond of overload counts the clipped samples of I and Q; OVERLOAD and its
interrupt follow the threshold. No write acts where the port does not serve the register. -/
def Obligations.PathSettings : Prop :=
  ∀ (s : State) (p : Fin 64),
    (∀ w : Word, completes (.pthTxAttenWrite p w) s (fun t =>
      (s.served (Reg.PTH_TX_ATTEN p) = false → t = s) ∧
      (s.served (Reg.PTH_TX_ATTEN p) = true → t.fld (Reg.PTH_TX_ATTEN p) 6 0 = fld w 6 0 ∧ regsBut [Reg.PTH_TX_ATTEN p] s t ∧
        (pathInTx s p = true → changedOnly [.regs] s t) ∧
        (pathInTx s p = false → (pathOf t p).txAtten = fld w 6 0 ∧ changedOnly [.regs, .paths] s t)))) ∧
    (∀ w : Word, completes (.pthRxAttenWrite p w) s (fun t =>
      (s.served (Reg.PTH_RX_ATTEN p) = false → t = s) ∧
      (s.served (Reg.PTH_RX_ATTEN p) = true → t.fld (Reg.PTH_RX_ATTEN p) 4 0 = min 30 (fld w 4 0) ∧ regsBut [Reg.PTH_RX_ATTEN p] s t ∧
        (pathInRx s p = true → changedOnly [.regs] s t) ∧
        (pathInRx s p = false → (pathOf t p).rxAtten = min 30 (fld w 4 0) ∧ changedOnly [.regs, .paths] s t)))) ∧
    (∀ (tx : Bool) (w : Word), completes (.pthTrimUserWrite p tx w) s (fun t =>
      (s.served (trimUserReg tx p) = false → t = s) ∧
      (s.served (trimUserReg tx p) = true → (if tx then pathInTx s p else pathInRx s p) = true →
        t.fld (trimUserReg tx p) 17 0 = fld w 17 0 ∧ regsBut [trimUserReg tx p] s t ∧ changedOnly [.regs] s t) ∧
      (s.served (trimUserReg tx p) = true → (if tx then pathInTx s p else pathInRx s p) = false →
        trimOf t tx p = clampI (-65536) 65535 (trimSum (s.setFld (trimUserReg tx p) 17 0 (fld w 17 0)) tx p)))) ∧
    (∀ mute now : Bool, completes (.txMute p mute now) s (fun t =>
      (s.served (Reg.PTH_CTRL p) = false → t = s) ∧
      (s.served (Reg.PTH_CTRL p) = true → t.bit (Reg.PTH_CTRL p) 0 = mute ∧ regsBut [Reg.PTH_CTRL p] s t ∧
        (pathOf t p).hostMute = (mute && ((pathOf s p).hostMute || now))))) ∧
    (∀ zero : Bool, completes (.rxZero p zero) s (fun t =>
      (s.served (Reg.PTH_CTRL p) = false → t = s) ∧
      (s.served (Reg.PTH_CTRL p) = true → t.bit (Reg.PTH_CTRL p) 2 = zero ∧ regsBut [Reg.PTH_CTRL p] s t ∧ changedOnly [.regs] s t))) ∧
    (∀ off : Bool, completes (.invSincOff p off) s (fun t =>
      (s.served (Reg.PTH_CTRL p) = false → t = s) ∧
      (s.served (Reg.PTH_CTRL p) = true → t.bit (Reg.PTH_CTRL p) 4 = off ∧ regsBut [Reg.PTH_CTRL p] s t ∧ changedOnly [.regs] s t))) ∧
    completes (.clearOcp p) s (fun t =>
      if s.served (Reg.PTH_CTRL p) = true ∧ (pathOf s p).txFault = 3 ∧ pathInTx s p = false then
        pathOf t p = { pathOf s p with clearOcp := true } ∧ changedOnly [.paths] s t
      else t = s) ∧
    (∀ i q both : Nat, completes (.overloadMs p i q both) s (fun t =>
      t.fld (Reg.PTH_OVLD_COUNT p) 31 16 = satAdd 0xFFFF (s.fld (Reg.PTH_OVLD_COUNT p) 31 16) i ∧
      t.fld (Reg.PTH_OVLD_COUNT p) 15 0 = satAdd 0xFFFF (s.fld (Reg.PTH_OVLD_COUNT p) 15 0) q ∧
      pathOf t p = { pathOf s p with overload := decide (i + q - both > s.fld (Reg.PTH_OVLD_CFG p) 15 0) } ∧
      regsBut [Reg.PTH_OVLD_COUNT p, Reg.PTH_INT_STATUS p] s t))

/-- A binary cell of a DAC of a path whose TX is not faulted, and waits for no fault or for an over-current fault, cannot be trimmed: the
binary cells have no reserve, so the TX is faulted with cause DAC_BINARY (2), its weight masked, at once when the group is in neither TX
nor RX; in TX or RX the fault waits for the group boundary with that cause, and nothing but the path changes. -/
def Obligations.BinaryCellFault : Prop :=
  ∀ (s : State) (p : Fin 64), completes (.dacBinaryFail p) s (fun t =>
    (pathOf s p).txFault = 0 → (pathOf s p).txFaultNext = 0 ∨ (pathOf s p).txFaultNext = 3 →
      (if pathInTx s p || pathInRx s p then
        pathOf t p = { pathOf s p with txFaultNext := 2 } ∧ changedOnly [.paths] s t
      else
        (pathOf t p).txFault = 2 ∧ (pathOf t p).txFaultNext = 0 ∧ (pathOf t p).dacBinary = true ∧ (pathOf t p).maskTx = true ∧
          (pathOf t p).dacI = (pathOf s p).dacI ∧ (pathOf t p).dacQ = (pathOf s p).dacQ))

/-- At PL3 the converters are powered down and no self-check does anything; nor does a shadow block or pass of an ADC with no spare. A block
above 4 LSB counts, and one at or below it starts the count anew; while the group is in RX a third in a row adds the shadowed position,
where it has not failed, to the failures that wait, with the number of its detection. A pass moves the spare to the next position, and
after 8 it is ready. A stuck sub-converter in RX is filled; a new one waits for the spare, or with none is retired and the RX chain is
to fault with cause 1 or 2; one known to have failed is nothing more. A correction is kept within its limits; one within them changes
nothing else, one past them in RX is a failure. A segment that trims, that failed already, of a FAULTED TX chain, or with no reserve
left in TX, is nothing; in TX one that does not trim waits. An over-current trip of a FAULTED chain is nothing; else it is counted with
its interrupt, in TX or RX it mutes the chain to the boundary, and a third within a second waits as fault 3. At a boundary of its group
a path takes up the host's settings and is no longer muted by a trip. -/
def Obligations.ConverterFaults : Prop :=
  ∀ (s : State) (p : Fin 64),
    (∀ (q : Bool) (rms : Nat), completes (.shadowBlockDone p q rms) s (fun t =>
      (9 ≤ (adcOf s p q).spare ∨ s.pwr.level = 3 → t = s) ∧
      ((adcOf s p q).spare < 9 → s.pwr.level ≠ 3 → rms ≤ 64 → adcOf t p q = { adcOf s p q with bad := 0 } ∧ changedOnly [.paths] s t) ∧
      ((adcOf s p q).spare < 9 → s.pwr.level ≠ 3 → 64 < rms → (adcOf s p q).bad + 1 < 3 →
        adcOf t p q = { adcOf s p q with bad := (adcOf s p q).bad + 1 } ∧ changedOnly [.paths] s t) ∧
      ((adcOf s p q).spare < 9 → s.pwr.level ≠ 3 → 64 < rms → 3 ≤ (adcOf s p q).bad + 1 → pathInRx s p = true →
        adcKnown (adcOf s p q) (adcOf s p q).shadow = false →
        (adcOf t p q).failed = (adcOf s p q).failed ++ [{ pos := (adcOf s p q).shadow, gross := decide (1024 < rms), seq := s.glb.detected }]))) ∧
    (∀ q : Bool, completes (.shadowPassDone p q) s (fun t =>
      (9 ≤ (adcOf s p q).spare ∨ s.pwr.level = 3 → t = s) ∧
      ((adcOf s p q).spare < 9 → s.pwr.level ≠ 3 → pathInRx s p = true → adcOf t p q = { adcOf s p q with
        shadow := ((adcOf s p q).shadow + 1) % 8
        passes := min 8 ((adcOf s p q).passes + 1)
        bad := 0
        ready := (adcOf s p q).ready || decide (8 ≤ (adcOf s p q).passes + 1) } ∧ changedOnly [.paths] s t))) ∧
    (∀ (q : Bool) (pos : Fin 8), completes (.adcStuckDetect p q pos) s (fun t =>
      (s.pwr.level = 3 ∨ (adcKnown (adcOf s p q) pos = true ∧ ((pathOf s p).rxFault ≠ 0 ∨ nbit (adcOf s p q).filling pos = true)) → t = s) ∧
      (s.pwr.level ≠ 3 → pathInRx s p = true → (pathOf s p).rxFault = 0 → nbit (adcOf t p q).filling pos = true) ∧
      (s.pwr.level ≠ 3 → pathInRx s p = true → adcKnown (adcOf s p q) pos = false → (adcOf s p q).spare < 9 →
        (adcOf t p q).failed = (adcOf s p q).failed ++ [{ pos := pos.val, gross := true, seq := s.glb.detected }] ∧
        (pathOf t p).rxFaultNext = (pathOf s p).rxFaultNext) ∧
      (s.pwr.level ≠ 3 → pathInRx s p = true → adcKnown (adcOf s p q) pos = false → 9 ≤ (adcOf s p q).spare → (pathOf s p).rxFault = 0 →
        (adcOf t p q).retired = withBit (adcOf s p q).retired (subAt (adcOf s p q) pos) ∧ (pathOf t p).rxFaultNext =
          (if (pathOf s p).rxFaultNext = 0 then (if q then 2 else 1) else (pathOf s p).rxFaultNext)))) ∧
    (∀ (q : Bool) (sub : Fin 9) (offset gain skew : Int), completes (.adcCorrectionEstimate p q sub offset gain skew) s (fun t =>
      (s.pwr.level = 3 → t = s) ∧
      (s.pwr.level ≠ 3 → -96 ≤ offset → offset ≤ 96 → -400 ≤ gain → gain ≤ 400 → -70 ≤ skew → skew ≤ 70 → changedOnly [.paths] s t ∧
        tget (fun _ => (0, 0, 0)) (adcOf t p q).corr sub = (offset, gain, skew) ∧
        (adcOf t p q).failed = (adcOf s p q).failed ∧ adcOf t p (!q) = adcOf s p (!q)) ∧
      (s.pwr.level ≠ 3 → 96 < offset → pathInRx s p = true → (adcOf s p q).spare < 9 →
        ∀ pos, positionOf (adcOf s p q) sub = some pos → adcKnown (adcOf s p q) pos = false →
          (adcOf t p q).failed = (adcOf s p q).failed ++ [{ pos := pos, gross := false, seq := s.glb.detected }]))) ∧
    (∀ (q : Bool) (seg : Fin 63) (ok : Bool), completes (.dacSegmentMeasured p q seg ok) s (fun t =>
      (ok = true ∨ (pathOf s p).txFault ≠ 0 ∨ (dacOf s p q).failed.any (·.pos == seg.val) = true ∨
        ((dacOf s p q).left = 0 ∧ pathInTx s p = true) ∨ s.pwr.level = 3 → t = s) ∧
      (ok = false → (pathOf s p).txFault = 0 → (dacOf s p q).failed.any (·.pos == seg.val) = false → (dacOf s p q).left ≠ 0 →
        pathInTx s p = true → s.pwr.level ≠ 3 →
        dacOf t p q = { dacOf s p q with failed := (dacOf s p q).failed ++ [{ pos := seg.val, seq := s.glb.detected }] } ∧
        changedOnly [.paths, .glb] s t))) ∧
    completes (.ocpTrip p) s (fun t =>
      ((pathOf s p).txFault ≠ 0 → t = s) ∧
      ((pathOf s p).txFault = 0 → t.bit (Reg.PTH_INT_STATUS p) 5 = true ∧
        (pathInTx s p = true ∨ pathInRx s p = true → (pathOf t p).ocp = true ∧ changedOnly [.regs, .paths] s t ∧
          (2 ≤ ((pathOf s p).ocpTimes.filter (fun u => decide (s.time.tb1 < u + secTu))).length → (pathOf s p).txFaultNext = 0 →
            (pathOf t p).txFaultNext = 3) ∧
          (((pathOf s p).ocpTimes.filter (fun u => decide (s.time.tb1 < u + secTu))).length < 2 →
            (pathOf t p).txFaultNext = (pathOf s p).txFaultNext)))) ∧
    (∀ g : Fin 8, completes (.groupBoundary g) s (fun t => s.groupOf p = g.val →
      (pathOf t p).ocp = false ∧ (pathOf t p).clearOcp = false ∧ (pathOf t p).hostMute = s.bit (Reg.PTH_CTRL p) 0 ∧
      (pathOf t p).rxZero = s.bit (Reg.PTH_CTRL p) 2 ∧
      (pathOf t p).stageMute = (s.pwr.leaving4 || decide (s.pwr.stage < 4))))

/-- Losing the active reference puts a locked converter clock in holdover with the interrupt, or moves it at once to the other reference
where AUTO is set, that one is valid and the clock was locked; a loss while none is active or the active one is gone already is nothing.
A check sets the validity of the reference it is about; in holdover the active one that has returned ends the holdover, and with AUTO
the other one that passes is taken. A write of SYN_REF_CFG stores AUTO and the timeout (at least 1), and AUTO set in holdover takes the
other reference at once where it is valid; a SEL that names a reference that is not valid is refused with the interrupt, and a valid one
is followed. A lock of the TB PLL shows in TBLOCK; one of an RF unit that is on sets its lock and band; of the converter clock, with an
active reference, ends holdover and invalidity and makes the reference valid. A loss of lock of the converter clock that is locked, or
the end of a holdover, makes it invalid, counts it and asserts CNV_LOST; otherwise each is nothing. -/
def Obligations.References : Prop :=
  ∀ s : State,
    completes .refLost s (fun t =>
      (2 ≤ s.syn.active ∨ s.syn.refGone = true → t.syn = s.syn ∧ t.regs = s.regs) ∧
      (s.syn.active < 2 → s.syn.refGone = false → t.bit Reg.SYN_INT_STATUS 6 = true ∧ refValid t (s.syn.active == 1) = false ∧
        (if s.bit Reg.SYN_REF_CFG 1 = true ∧ refValid s (!(s.syn.active == 1)) = true ∧ s.syn.cnvLock = true then
          t.syn.active = 1 - s.syn.active ∧ t.syn.cnvLock = true ∧ t.syn.holdover = false ∧ t.bit Reg.SYN_INT_STATUS 7 = true
        else t.syn.active = s.syn.active ∧ t.syn.refGone = true ∧ t.syn.holdover = s.syn.cnvLock ∧ t.syn.cnvLock = false))) ∧
    (∀ b ok : Bool, completes (.standbyRefCheck b ok) s (fun t =>
      refValid t b = ok ∧ refValid t (!b) = refValid s (!b) ∧
      (ok = false ∨ s.syn.holdover = false → t.syn.active = s.syn.active ∧ t.syn.holdover = s.syn.holdover ∧ t.syn.cnvLock = s.syn.cnvLock) ∧
      (ok = true → s.syn.holdover = true → b2n b = s.syn.active ∨ s.bit Reg.SYN_REF_CFG 1 = true →
        t.syn.active = b2n b ∧ t.syn.holdover = false ∧ t.syn.cnvLock = true ∧ t.syn.refGone = false))) ∧
    (∀ w : Word, completes (.synRefSelWrite w) s (fun t =>
      (s.served Reg.SYN_REF_CFG = false → t = s) ∧
      (s.served Reg.SYN_REF_CFG = true → t.fld Reg.SYN_REF_CFG 31 16 = max 1 (fld w 31 16) ∧ t.bit Reg.SYN_REF_CFG 1 = bitOf w 1 ∧
        (refValid s (bitOf w 0) = false → bitOf w 1 = true → s.syn.holdover = true → s.syn.active < 2 → refValid s (s.syn.active != 1) = true →
          t.syn.active = b2n (s.syn.active != 1) ∧ t.syn.holdover = false ∧ t.syn.cnvLock = true) ∧
        (refValid s (bitOf w 0) = false → bitOf w 1 = false ∨ s.syn.holdover = false ∨ refValid s (s.syn.active != 1) = false → t.syn = s.syn ∧ t.bit Reg.SYN_INT_STATUS 9 = true ∧ t.bit Reg.SYN_REF_CFG 0 = s.bit Reg.SYN_REF_CFG 0 ∧
          regsBut [Reg.SYN_REF_CFG, Reg.SYN_INT_STATUS] s t ∧ changedOnly [.regs] s t) ∧
        (refValid s (bitOf w 0) = true → t.bit Reg.SYN_REF_CFG 0 = bitOf w 0 ∧ t.syn.active = b2n (bitOf w 0))))) ∧
    completes (.lockDeclared .timeBase) s (fun t => t.syn = { s.syn with tbLock := true } ∧ changedOnly [.syn] s t) ∧
    (∀ (u : Fin 3) (band : Fin 64), completes (.lockDeclared (.unit u band)) s (fun t =>
      (vget t.syn.units u).locked = ((vget s.syn.units u).locked || (vget s.syn.units u).on) ∧
      ((vget s.syn.units u).on = true → (vget t.syn.units u).band = band))) ∧
    completes (.lockDeclared .converter) s (fun t =>
      (2 ≤ s.syn.active → (∀ b, s.pwr.climb ≠ .refLock b) → t = s) ∧
      (s.syn.active < 2 → (∀ b, s.pwr.climb ≠ .refLock b) → t.syn.cnvLock = true ∧ t.syn.holdover = false ∧ t.syn.cnvInvalid = false ∧
        t.syn.refGone = false ∧ t.syn.active = s.syn.active ∧ refValid t (s.syn.active == 1) = true)) ∧
    completes .cnvLossOfLock s (fun t =>
      (s.syn.cnvLock = false → t = s) ∧
      (s.syn.cnvLock = true → t.syn.cnvLock = false ∧ t.syn.holdover = false ∧ t.syn.cnvInvalid = true ∧ t.bit Reg.SYN_INT_STATUS 8 = true)) ∧
    completes .holdoverExpiry s (fun t =>
      (s.syn.holdover = false → t = s) ∧
      (s.syn.holdover = true → t.syn.cnvLock = false ∧ t.syn.holdover = false ∧ t.syn.cnvInvalid = true ∧ t.bit Reg.SYN_INT_STATUS 8 = true))

/-- A loss of lock of a unit that is not locked is nothing; otherwise the unit is unlocked, and the role it holds is lost, counted and
reported by the interrupt. Band search starts on a unit that is on and unlocked. 10 ms after, a role that is lost and not ready, and not
latched yet, is latched with the interrupt, and so is the converter clock that is invalid; otherwise the row is nothing. RESUME arms a
latched role, RESUME_CNV a latched converter clock, and is nothing for one that is not. A unit with a role fails: with a reserve unit
left that no earlier failure has claimed it is the failed unit, and its role waits for the swap, which starts at once where the unit has
no lock, the converter clock is valid and no survey holds the role; with none the failure is logged and the unit goes on; a unit without
a role or in a swap is left alone. -/
def Obligations.LossAndResume : Prop :=
  ∀ s : State,
    (∀ u : Fin 3, completes (.lossOfLock u) s (fun t =>
      ((vget s.syn.units u).locked = false → t = s) ∧
      ((vget s.syn.units u).locked = true → unitRole s u = none → (vget t.syn.units u).locked = false ∧ changedOnly [.syn] s t) ∧
      (∀ r, (vget s.syn.units u).locked = true → unitRole s u = some r → t.bit Reg.SYN_INT_STATUS 0 = true))) ∧
    (∀ u : Fin 3, completes (.bandSearchStart u) s (fun t =>
      if (vget s.syn.units u).on = true ∧ (vget s.syn.units u).locked = false then
        vget t.syn.units u = { vget s.syn.units u with search := true } ∧ changedOnly [.syn] s t
      else t = s)) ∧
    (∀ r : Fin 2, completes (.loLatched (.role r)) s (fun t =>
      if (vget s.syn.roles r).lost = true ∧ roleReady s r = false ∧ (vget s.syn.roles r).latched = false then
        vget t.syn.roles r = { vget s.syn.roles r with latched := true, lost := false } ∧ t.bit Reg.SYN_INT_STATUS 2 = true
      else t = s)) ∧
    completes (.loLatched .converter) s (fun t =>
      if s.syn.cnvInvalid = true ∧ s.syn.cnvLatched = false then
        t.syn = { s.syn with cnvLatched := true } ∧ t.bit Reg.SYN_INT_STATUS 2 = true
      else t = s) ∧
    (∀ b : Bool, completes (.resume b) s (fun t =>
      if s.served Reg.SYN_CTRL = true ∧ (vget s.syn.roles (b2n b)).latched = true then
        vget t.syn.roles (b2n b) = { vget s.syn.roles (b2n b) with arm := true } ∧ changedOnly [.syn] s t
      else t = s)) ∧
    completes .resumeCnv s (fun t =>
      if s.served Reg.SYN_CTRL = true ∧ s.syn.cnvLatched = true then t.syn = { s.syn with cnvArm := true } ∧ changedOnly [.syn] s t
      else t = s) ∧
    (∀ u : Fin 3, completes (.rfUnitFailed u) s (fun t =>
      (unitRole s u = none → t = s) ∧
      (∀ r, unitRole s u = some r → (vget s.syn.roles r).swapRun = true → t = s) ∧
      (∀ r, unitRole s u = some r → (vget s.syn.roles r).swapRun = false → s.syn.failedFirst.contains u.val = false →
        (3 ≤ s.syn.reserve ∨ s.syn.failedFirst.isEmpty = false → t.syn = s.syn ∧ t = s.logPut 0x87 r 0 true 0) ∧
        (s.syn.reserve < 3 → s.syn.failedFirst = [] → t.syn.failedFirst = [u.val] ∧
          ((vget s.syn.units u).locked = true → t.syn.reserve = s.syn.reserve) ∧
          ((vget s.syn.units u).locked = false → jobMayStart s r = true → t.syn.reserve = 3)))))

/-- VCOCAL and SWAP of a role that is not used, VCOCAL while one runs or without FORCE while a swap waits, and SWAP while one runs or with
no reserve, are nothing; without FORCE they wait for a gap, a SWAP in place of a calibration. A long wait is reported once. When a
calibration of a unit ends with a band, the unit is out of calibration with that band; a row for a unit that is not calibrating is
nothing. When a swap ends, the role is on the new unit, which is locked; a failed old unit is retired and there is no reserve, and after
a planned swap the old unit is the reserve. The proving of the reserve stores its bands or retires it, and is nothing without a reserve.
The tuning voltage of a unit is kept, and past 80 % of range it needs a calibration. A write of SYN_PHASE is stored in its two fields,
and is the rotators' target at once where the fold's group is neither in TX nor in RX. -/
def Obligations.CalibrationsAndSwaps : Prop :=
  ∀ s : State,
    (∀ b force : Bool, completes (.vcocal b force) s (fun t =>
      (s.served Reg.SYN_CTRL = false ∨ (vget s.syn.roles (b2n b)).used = false ∨ ((vget s.syn.roles (b2n b)).swapWait = true ∧ force = false) ∨
        (roleUnit s (b2n b)).cal = true → t = s) ∧
      (s.served Reg.SYN_CTRL = true → (vget s.syn.roles (b2n b)).used = true → (vget s.syn.roles (b2n b)).swapWait = false →
        (roleUnit s (b2n b)).cal = false → force = false →
        vget t.syn.roles (b2n b) = { vget s.syn.roles (b2n b) with calWait := true } ∧ changedOnly [.syn] s t))) ∧
    (∀ b force : Bool, completes (.swap b force) s (fun t =>
      (s.served Reg.SYN_CTRL = false ∨ (vget s.syn.roles (b2n b)).used = false ∨ (vget s.syn.roles (b2n b)).swapRun = true ∨
        3 ≤ s.syn.reserve → t = s) ∧
      (s.served Reg.SYN_CTRL = true → (vget s.syn.roles (b2n b)).used = true → (vget s.syn.roles (b2n b)).swapRun = false →
        s.syn.reserve < 3 → force = false →
        vget t.syn.roles (b2n b) = { vget s.syn.roles (b2n b) with calWait := false, calForce := false, swapWait := true } ∧
        changedOnly [.syn] s t))) ∧
    (∀ r : Fin 2, completes (.vcoCalGapStart r) s (fun t =>
      jobMayStart s r = false ∨ (vget s.syn.roles r).swapRun = true ∨ (roleUnit s r).cal = true ∨
        ((vget s.syn.roles r).swapWait = false ∧ (vget s.syn.roles r).calWait = false) → t = s)) ∧
    (∀ (u : Fin 3) (band : Option (Fin 64)), completes (.vcoCalDone u band) s (fun t =>
      ((vget s.syn.units u).cal = false → t = s) ∧
      (∀ n, (vget s.syn.units u).cal = true → band = some n → (vget t.syn.units u).cal = false ∧ (vget t.syn.units u).needCal = false ∧
        (vget t.syn.units u).band = n.val))) ∧
    (∀ r : Fin 2, completes (.synthSwapDone r) s (fun t =>
      ((vget s.syn.roles r).swapRun = false → t = s) ∧
      ((vget s.syn.roles r).swapRun = true → (vget t.syn.roles r).unit = (vget s.syn.roles r).swapUnit ∧ (vget t.syn.roles r).swapRun = false ∧
        t.syn.reserve = (if s.syn.failedFirst.contains (vget s.syn.roles r).unit then 3 else (vget s.syn.roles r).unit)))) ∧
    (∀ (ok : Bool) (a b : Fin 64), completes (.reserveProving ok a b) s (fun t =>
      (3 ≤ s.syn.reserve → t = s) ∧
      (s.syn.reserve < 3 → ok = true → t.syn.reserve = s.syn.reserve ∧ changedOnly [.syn] s t) ∧
      (s.syn.reserve < 3 → ok = false → t.syn.reserve = 3 ∧ (vget t.syn.units s.syn.reserve).retired = true))) ∧
    (∀ r : Fin 2, completes (.synCalWaitLong r) s (fun t =>
      if ((vget s.syn.roles r).calWait = true ∨ (vget s.syn.roles r).swapWait = true) ∧ (vget s.syn.roles r).waitLong = false then
        vget t.syn.roles r = { vget s.syn.roles r with waitLong := true } ∧ t.bit Reg.SYN_INT_STATUS 4 = true ∧ regsBut [Reg.SYN_INT_STATUS] s t
      else t = s)) ∧
    (∀ (u : Fin 3) (v : Int) (e : Bool), completes (.tuningVoltageLimit u v e) s (fun t =>
      v.natAbs ≤ 80 → vget t.syn.units u = { vget s.syn.units u with vtune := v } ∧ changedOnly [.syn] s t)) ∧
    (∀ (f : Fin 8) (w : Word), completes (.synPhaseWrite f w) s (fun t =>
      (s.served (Reg.SYN_PHASE f) = false → t = s) ∧
      (s.served (Reg.SYN_PHASE f) = true → t.reg (Reg.SYN_PHASE f) = w &&& 0x03FF03FF ∧ regsBut [Reg.SYN_PHASE f] s t ∧
        (∀ g, lineGroup s f = some g → groupTx s g = false → vget t.syn.tgtTx f = fld w 9 0) ∧
        (∀ g, lineGroup s f = some g → groupTx s g = true → vget t.syn.tgtTx f = vget s.syn.tgtTx f) ∧
        (∀ g, lineGroup s f = some g → groupRx s g = false → vget t.syn.tgtRx f = fld w 25 16) ∧
        (∀ g, lineGroup s f = some g → groupRx s g = true → vget t.syn.tgtRx f = vget s.syn.tgtRx f))))

/-- A word of skein memory is written as its four bytes, least significant first, and every other command of these leaves the skein
memories. SKN_SWITCH_CTRL without GO is nothing. With GO, a request that the first test of Table 6-5 refuses leaves the slots and shows
outcome 2 and the code; an accepted one shows outcome 1 and its tag, and is pending in its slot if none was. At its start sample, with
no ply running, the entered bank is the other one, holding the skein's number, and the slot holds no request; a ply of 2^PLY samples
runs unless PLY is 0. Without a request, or during a ply, the start is nothing. At the end of a ply the slot has no ply, and its banks
are as they were. A pop of the report queue removes the oldest report. -/
def Obligations.SkeinsAndSwaps : Prop :=
  ∀ s : State,
    (∀ (a : BitVec 22) (w : Word), completes (.skeinMemoryWrite a w) s (fun t =>
      (s.served (skeinDlBase + 4 * a.toNat) = false → t = s) ∧
      (s.served (skeinDlBase + 4 * a.toNat) = true → t = skeinWrite (skeinDlBase + 4 * a.toNat) (leBytes 4 w.toNat) s))) ∧
    (∀ w : Word, completes (.sknSwitchCtrlGo w) s (fun t =>
      (s.served Reg.SKN_SWITCH_CTRL = false ∨ bitOf w 31 = false → t = s) ∧
      (s.served Reg.SKN_SWITCH_CTRL = true → bitOf w 31 = true →
        let ul := bitOf w 30
        let at_ := timeNear s.time.tb0 (s.reg Reg.SKN_SWITCH_TIME_S).toNat (s.reg Reg.SKN_SWITCH_TIME_NS).toNat
        let code := swapCode s ul (fld w 20 16) (fld w 9 0) (fld w 26 23) (bitOf w 29) (bitOf w 28) .host at_
        if code ≠ 0 then
          t.fld Reg.SKN_SWITCH_RESULT 31 30 = 2 ∧ t.fld Reg.SKN_SWITCH_RESULT 23 16 = code % 256 ∧
            regsBut [Reg.SKN_SWITCH_RESULT] s t ∧ changedOnly [.regs] s t
        else
          t.fld Reg.SKN_SWITCH_RESULT 31 30 = 1 ∧ t.skn.tag = (s.skn.tag + 1) % 65536 ∧ t.skn.dl = s.skn.dl ∧ t.skn.ul = s.skn.ul ∧
            ((s.slot ul (fld w 20 16)).pend = none → (t.slot ul (fld w 20 16)).pend =
              some (swapMake s ul (fld w 20 16) .host 0 ((s.skn.tag + 1) % 65536) (fld w 9 0) (fld w 26 23) (bitOf w 27) (bitOf w 29)
                (bitOf w 28) at_))))) ∧
    (∀ (ul : Bool) (l : Fin 32), completes (.swapStart (.layer ul l)) s (fun t =>
      ((s.slot ul l).pend = none ∨ plyRuns (s.slot ul l).ply = true → t = s) ∧
      (∀ r, (s.slot ul l).pend = some r → plyRuns (s.slot ul l).ply = false →
        (t.slot ul l).pend = none ∧ (t.slot ul l).activeB = !(s.slot ul l).activeB ∧ (t.slot ul l).act.ptr = r.source ∧
        (t.slot ul l).inact = (s.slot ul l).act ∧ (t.slot ul l).holder = (s.slot ul l).holder ∧
        (r.ply = 0 → plyRuns (t.slot ul l).ply = false) ∧
        (r.ply ≠ 0 → ∃ y, (t.slot ul l).ply = some y ∧ y.len = 2 ^ r.ply ∧ y.raised = r.raised ∧ y.start = r.start) ∧
        t.skn.dl = s.skn.dl ∧ t.skn.ul = s.skn.ul))) ∧
    (∀ (ul : Bool) (l : Fin 32), completes (.plyEnd (.layer ul l)) s (fun t =>
      ((s.slot ul l).ply = none → t = s) ∧
      ((s.slot ul l).ply.isSome → (t.slot ul l).ply = none ∧ (t.slot ul l).a = (s.slot ul l).a ∧ (t.slot ul l).b = (s.slot ul l).b ∧
        (t.slot ul l).activeB = (s.slot ul l).activeB ∧ (t.slot ul l).holder = (s.slot ul l).holder ∧ changedOnly [.skn] s t))) ∧
    completes .sknReportPop s (fun t =>
      (s.served Reg.SKN_REPORT_POP = false → t = s) ∧
      (s.served Reg.SKN_REPORT_POP = true → t.skn = { s.skn with reports := s.skn.reports.drop 1 } ∧ changedOnly [.skn] s t))

/-- A submission by host software through its register, or by the drover, that the first test of Table 6-12 refuses shows outcome 2 with its
code and raises the refusal's interrupt, and no queue changes. An accepted one joins the end of the engine's queue with the next tag,
the job's three registers, who asked and the arbitration epoch, and shows outcome 1. An engine whose first job is ready (the engine idle
and past its pause, the job's epoch over, its capture memory not held) takes it; otherwise the start is nothing, and no other engine
changes. The end of a job that runs leaves the engine idle, writes tag and EXP to FFT_RESULT and raises DONE; with none running, or
while the capture memory that takes its output is held, it is nothing. -/
def Obligations.FftJobs : Prop :=
  ∀ (s : State) (f : Fin 8),
    (∀ drover : Bool, completes (.fftJobSubmit (f, drover)) s (fun t =>
      (drover = false → s.served (Reg.FFT_JOB_SUBMIT f) = false → t = s) ∧
      (drover = true ∨ s.served (Reg.FFT_JOB_SUBMIT f) = true →
        if fftCode s f ≠ 0 then
          t.fld (Reg.FFT_STATUS f) 27 26 = 2 ∧ t.fld (Reg.FFT_STATUS f) 23 16 = fftCode s f ∧ t.bit Reg.FFT_INT_STATUS (8 + f) = true ∧
            regsBut [Reg.FFT_STATUS f, Reg.FFT_INT_STATUS] s t ∧ changedOnly [.regs] s t
        else
          (vget t.fft f).queue = (vget s.fft f).queue ++ [(
              { cfg := s.reg (Reg.FFT_JOB_CFG f)
                src := s.reg (Reg.FFT_JOB_SRC f)
                dst := s.reg (Reg.FFT_JOB_DST f)
                tag := ((vget s.fft f).tag + 1) % 65536
                id := whoId drover
                epoch := s.fhp.epoch } : FftJob)] ∧
            (vget t.fft f).tag = ((vget s.fft f).tag + 1) % 65536 ∧ (vget t.fft f).run = (vget s.fft f).run ∧
            t.fld (Reg.FFT_STATUS f) 27 26 = 1 ∧ regsBut [Reg.FFT_STATUS f] s t ∧ changedOnly [.regs, .fft] s t))) ∧
    (∀ (samples : List Cplx) (first : Nat), completes (.fftJobStart f samples first) s (fun t =>
      ((vget s.fft f).queue = [] → t = s) ∧
      (∀ j rest, (vget s.fft f).queue = j :: rest → jobReady s (vget s.fft f) j = false → t = s) ∧
      (∀ j rest, (vget s.fft f).queue = j :: rest → jobReady s (vget s.fft f) j = true →
        (vget t.fft f).queue = rest ∧ (∃ k, (vget t.fft f).run = some k ∧ k.cfg = j.cfg ∧ k.src = j.src ∧ k.dst = j.dst ∧ k.tag = j.tag) ∧
        ∀ g : Fin 8, g ≠ f → vget t.fft g = vget s.fft g))) ∧
    completes (.fftJobDone f) s (fun t =>
      ((vget s.fft f).run = none → t = s) ∧
      (∀ j, (vget s.fft f).run = some j → jobWaits s j true = true → t = s) ∧
      (∀ j, (vget s.fft f).run = some j → jobWaits s j true = false →
        (vget t.fft f).run = none ∧ (vget t.fft f).queue = (vget s.fft f).queue ∧ t.bit Reg.FFT_INT_STATUS f = true ∧
        t.reg (Reg.FFT_RESULT f) = pk [(16, j.tag), (15, b2n (j.dram || (namesDram j.cfg && s.drc.state == .failed))),
          (0, (fft (jobLog j.cfg) (bitOf j.cfg 31) (fld j.cfg 30 28) j.input).2)]))

/-- DPD_SWITCH_CTRL without GO is nothing; with GO it is refused with the first code of its list, with no warp, at PL3, for a path without
predistortion or for an undefined ply length, leaving the predistorters, or it is accepted with its tag and is pending where nothing
was. A pending request starts in the same way as a skein swap: with no ply running, the entered bank is the other one, holds the page
asked for, and nothing is pending; without a request, or in a ply, the start is nothing. A ply's end leaves the banks. A write of
coefficient memory while ADAPT is set for its path is refused and leaves the memory; otherwise the word is written. A write of
DPD_PATH_CFG of a path that is not LIVE is stored with C in 1 to 8. -/
def Obligations.PredistorterSwaps : Prop :=
  ∀ s : State,
    (∀ w : Word, completes (.dpdSwitchCtrlGo w) s (fun t =>
      (s.served Reg.DPD_SWITCH_CTRL = false ∨ bitOf w 31 = false → t = s) ∧
      (s.served Reg.DPD_SWITCH_CTRL = true → bitOf w 31 = true →
        let p := fld w 21 16
        let code := if s.wrp.active.isNone then 1 else if s.pwr.level = 3 then 2 else if dpdEnabled s p = false then 3
          else if fld w 26 23 = 1 ∨ fld w 26 23 > 8 then 7 else 0
        if code ≠ 0 then
          t.fld Reg.DPD_SWITCH_RESULT 31 30 = 2 ∧ t.fld Reg.DPD_SWITCH_RESULT 23 16 = code ∧ regsBut [Reg.DPD_SWITCH_RESULT] s t ∧
            changedOnly [.regs] s t
        else
          t.fld Reg.DPD_SWITCH_RESULT 31 30 = 1 ∧ t.dpd.tag = (s.dpd.tag + 1) % 65536 ∧ t.dpd.coef = s.dpd.coef ∧
            ((dpdOf s p).pend = none → ∃ r, (dpdOf t p).pend = some r ∧ r.who = .host ∧ r.source = fld w 0 0 ∧ r.ply = fld w 26 23 ∧
              r.raised = bitOf w 27 ∧ r.tag = (s.dpd.tag + 1) % 65536)))) ∧
    (∀ p : Fin 64, completes (.swapStart (.path p)) s (fun t =>
      ((dpdOf s p).pend = none ∨ plyRuns (dpdOf s p).ply = true → t = s) ∧
      (∀ r, (dpdOf s p).pend = some r → plyRuns (dpdOf s p).ply = false →
        (dpdOf t p).pend = none ∧ (dpdOf t p).activeB = !(dpdOf s p).activeB ∧ (dpdOf t p).act.page = r.source ∧
        t.dpd.coef = s.dpd.coef ∧ (r.ply = 0 → (dpdOf t p).ply = none) ∧
        (r.ply ≠ 0 → (dpdOf t p).ply = some { len := 2 ^ r.ply, raised := r.raised, start := r.start, offs := [] })))) ∧
    (∀ p : Fin 64, completes (.plyEnd (.path p)) s (fun t =>
      ((dpdOf s p).ply = none → t = s) ∧
      ((dpdOf s p).ply.isSome → (dpdOf t p).ply = none ∧ (dpdOf t p).a = (dpdOf s p).a ∧ (dpdOf t p).b = (dpdOf s p).b ∧
        (dpdOf t p).activeB = (dpdOf s p).activeB ∧ changedOnly [.dpd] s t))) ∧
    (∀ (a : BitVec 18) (w : Word), completes (.dpdCoeffMemoryWrite a w) s (fun t =>
      (s.served (coefBase + 4 * a.toNat) = false → t = s) ∧
      (s.served (coefBase + 4 * a.toNat) = true → adaptOn s (coefPath (coefBase + 4 * a.toNat)) = true → t.dpd = s.dpd ∧
        t = s.refusedWrite (coefBase + 4 * a.toNat)) ∧
      (s.served (coefBase + 4 * a.toNat) = true → adaptOn s (coefPath (coefBase + 4 * a.toNat)) = false →
        t = coefWrite (coefBase + 4 * a.toNat) (leBytes 4 w.toNat) s ∧ changedOnly [.dpd] s t))) ∧
    (∀ (p : Fin 64) (w : Word), completes (.dpdPathCfgWrite p w) s (fun t =>
      (s.served (Reg.DPD_PATH_CFG p) = false → t = s) ∧
      (s.served (Reg.DPD_PATH_CFG p) = true → txLive s p = false → adaptOn s p = false →
        t.reg (Reg.DPD_PATH_CFG p) = pk [(31, fld w 31 31), (4, clampN 1 8 (fld w 7 4)), (0, fld w 1 0)] ∧
        regsBut [Reg.DPD_PATH_CFG p] s t ∧ changedOnly [.regs] s t)))

/-- A path whose period is over starts collecting, with the settings of DPD_CFG of that time, when its predistorter is enabled, ADAPT is
set, the level is not PL3, the stage is 3 or 4 and no attempt runs; otherwise the row is nothing. A block of the member visited, for a
path that collects, that passes the tests of Table 7-3 counts, and at BLOCKS the path waits for the solver; without a visit the row is
nothing. The free solver, past its pause, takes the first path of its queue. An ill-conditioned solution ends the attempt as rejected
with code 8, the banks as they are. A verification block of the member visited that passes and does not worsen NMSE by more than the
limit ends the attempt as updated, with its interrupt; one that does ends it as reverted. STALE is shown and raised for an enabled path
with ADAPT set and no solve completed within twice its period. -/
def Obligations.Adaptation : Prop :=
  ∀ s : State,
    (∀ p : Fin 64, completes (.dpdPathDue p) s (fun t =>
      if dpdEnabled s p = true ∧ adaptOn s p = true ∧ s.pwr.level ≠ 3 ∧ 3 ≤ s.pwr.stage ∧ (dpdOf s p).adapt = .idle ∧
          (dpdOf s p).dueFrom + dpdPeriod s p ≤ s.time.tb1 then
        dpdOf t p = { dpdOf s p with
          adapt := .collecting 0 0
          due := s.time.tb1
          cfg := s.reg Reg.DPD_CFG
          blocks := [] } ∧ changedOnly [.dpd] s t
      else t = s)) ∧
    (∀ (o m : Fin 8) (k : ObsBlock), completes (.obsVisitDone o m k) s (fun t =>
      (visitMember s o ≠ some m.val → t = s) ∧
      (∀ good bad, visitMember s o = some m.val → (dpdOf s (8 * o.val + m.val)).adapt = .collecting good bad →
        blockCode s (8 * o.val + m.val) (blockOf (dpdOf s (8 * o.val + m.val)).cfg k) = 0 →
        (vget t.dpd.obs o).last = m ∧
        (dpdOf t (8 * o.val + m.val)).lastNmse = blockNmse (blockOf (dpdOf s (8 * o.val + m.val)).cfg k) ∧
        (dpdOf t (8 * o.val + m.val)).adapt = (if blocksPerSolve (dpdOf s (8 * o.val + m.val)).cfg ≤ good + 1 then .queued
          else .collecting (good + 1) 0) ∧
        (blocksPerSolve (dpdOf s (8 * o.val + m.val)).cfg ≤ good + 1 → (8 * o.val + m.val) ∈ t.dpd.queue) ∧
        regsBut [Reg.RAD_GEXT (8 * o.val + m.val)] s t ∧ changedOnly [.dpd, .regs] s t))) ∧
    completes .solveStart s (fun t =>
      (s.dpd.solver.isSome ∨ s.dpd.queue = [] ∨ s.time.tb1 < s.dpd.rest → t = s) ∧
      (∀ p rest, s.dpd.solver = none → s.dpd.queue = p :: rest → s.dpd.rest ≤ s.time.tb1 → t.dpd.solver = some p ∧ t.dpd.queue = rest ∧
        (p < 64 → (dpdOf t p).adapt = .solving) ∧ regsBut [Reg.DPD_STATUS p] s t ∧ changedOnly [.dpd, .regs] s t)) ∧
    (∀ (p : Fin 64) (took : Nat), completes (.solveDone p took) s (fun t =>
      (s.dpd.solver ≠ some p.val → t = s) ∧
      (s.dpd.solver = some p.val → t.dpd.solver = none ∧ t.dpd.solves.head? = some s.time.tb1) ∧
      (s.dpd.solver = some p.val → (solution s p).2.1 * 2 ^ 20 < (solution s p).2.2 → (dpdOf t p).adapt = .idle ∧
        (dpdOf t p).a = (dpdOf s p).a ∧ (dpdOf t p).b = (dpdOf s p).b ∧ t.dpd.coef = s.dpd.coef ∧ t.fld (Reg.DPD_STATUS p) 31 30 = 2 ∧
        t.fld (Reg.DPD_STATUS p) 23 16 = 8 ∧ t.bit Reg.DPD_INT_STATUS 1 = true))) ∧
    (∀ (p : Fin 64) (k : ObsBlock), completes (.dpdVerificationDone p k) s (fun t =>
      ((∀ b, (dpdOf s p).adapt ≠ .verifying b) ∨ visitMember s (p / 8) ≠ some (p % 8) → t = s) ∧
      (∀ b, (dpdOf s p).adapt = .verifying b → visitMember s (p / 8) = some (p % 8) → blockCode s p (blockOf (dpdOf s p).cfg k) = 0 →
        (dpdOf t p).adapt = .idle ∧
        (if blockNmse (blockOf (dpdOf s p).cfg k) - (dpdOf s p).lastNmse > 25 * (fld (dpdOf s p).cfg 27 24 : Nat) then
          t.fld (Reg.DPD_STATUS p) 31 30 = 3 ∧ t.fld (Reg.DPD_STATUS p) 23 16 = 0x0C ∧ t.bit Reg.DPD_INT_STATUS 2 = true
        else (dpdOf t p).fresh = true ∧ t.fld (Reg.DPD_STATUS p) 31 30 = 1 ∧ t.bit Reg.DPD_INT_STATUS 0 = true)))) ∧
    (∀ p : Fin 64, completes (.dpdStale p) s (fun t =>
      if dpdEnabled s p = true ∧ adaptOn s p = true ∧ (dpdOf s p).doneAt + 2 * dpdPeriod s p ≤ s.time.tb1 then
        t.fld (Reg.DPD_STATUS p) 29 29 = 1 ∧ t.bit Reg.DPD_INT_STATUS 3 = true ∧ regsBut [Reg.DPD_STATUS p, Reg.DPD_INT_STATUS] s t ∧
          changedOnly [.regs] s t
      else t = s))

/-- DPD_SURVEY_CTRL without GO is nothing. A refused survey raises the interrupt and shows outcome 2 with the first code of R199, and the
surveys in progress stay. An accepted one is in progress for the path, asks for its receiver as host software in this epoch, and shows
outcome 3. The row that ends a receiver's survey is nothing without a granted one; after it that survey is over and DONE is raised, with
outcome 1. An abortion ends every survey in progress, granted or not, with its interrupt, a single one with outcome 2 and code 6, and is
nothing without one. A grant of a receiver to a survey marks it granted. -/
def Obligations.FeederSurvey : Prop :=
  ∀ s : State,
    (∀ w : Word, completes (.dpdSurveyCtrlGo w) s (fun t =>
      (s.served Reg.DPD_SURVEY_CTRL = false ∨ bitOf w 31 = false → t = s) ∧
      (s.served Reg.DPD_SURVEY_CTRL = true → bitOf w 31 = true →
        if surveyCode s (surveyOf s (fld w 5 0)) ≠ 0 then
          t.dpd = s.dpd ∧ t.bit Reg.DPD_INT_STATUS 6 = true ∧ t.fld Reg.DPD_SURVEY_STATUS 31 30 = 2 ∧
            t.fld Reg.DPD_SURVEY_STATUS 23 16 = surveyCode s (surveyOf s (fld w 5 0)) ∧
            regsBut [Reg.DPD_SURVEY_STATUS, Reg.DPD_INT_STATUS] s t ∧ changedOnly [.regs] s t
        else
          t.dpd.surveys = s.dpd.surveys ++ [surveyOf s (fld w 5 0)] ∧
            (vget t.dpd.obs (fld w 5 0 / 8)).wait = (vget s.dpd.obs (fld w 5 0 / 8)).wait ++
              [{ id := 8, epoch := s.fhp.epoch, who := .survey (fld w 5 0) }] ∧
            t.fld Reg.DPD_SURVEY_STATUS 31 30 = 3 ∧ t.fld Reg.DPD_SURVEY_STATUS 13 8 = fld w 5 0 ∧
            regsBut [Reg.DPD_SURVEY_STATUS] s t ∧ changedOnly [.regs, .dpd] s t))) ∧
    (∀ (o : Fin 8) (steps : List (Cplx × Cplx)), completes (.surveyDone (o, steps)) s (fun t =>
      (s.dpd.surveys.find? (fun v => v.path / 8 == o.val && v.granted) = none → t = s) ∧
      (∀ v, s.dpd.surveys.find? (fun v => v.path / 8 == o.val && v.granted) = some v →
        t.dpd.surveys = s.dpd.surveys.erase v ∧ t.bit Reg.DPD_INT_STATUS 5 = true ∧
        (v.path < 64 → t.fld Reg.DPD_SURVEY_STATUS 31 30 = 1 ∧ t.fld Reg.DPD_SURVEY_STATUS 23 16 = 0)))) ∧
    completes .surveyAbort s (fun t =>
      (s.dpd.surveys = [] → t = s) ∧
      (s.dpd.surveys ≠ [] → t.dpd.surveys = [] ∧ t.bit Reg.DPD_INT_STATUS 6 = true) ∧
      (∀ v, s.dpd.surveys = [v] → v.path < 64 → t.fld Reg.DPD_SURVEY_STATUS 31 30 = 2 ∧ t.fld Reg.DPD_SURVEY_STATUS 23 16 = 6)) ∧
    (∀ o : Fin 8, completes (.obsHolderGrant o) s (fun t =>
      ((obsGrant o s).2 = none → t = s) ∧
      (∀ v, (obsGrant o s).2 = some (.survey v.path) → surveyFor s v.path = some v →
        t.dpd.surveys.head? = some { v with granted := true })))

/-- RAD_GROUP_CMD without its GO bit is nothing. A command that a test of R206 refuses shows outcome 2 and the code, and no group changes;
with members joined an accepted one waits for their votes. An accepted one shows outcome 1, and a group with no burst running or
prepared, outside CAL, RX and TX, has the state as its return state, and starts the transition to it, through STANDBY from OFF, unless
it is in it. The end of a transition puts the group in its state, and one through STANDBY goes on; it is nothing without one, for TX,
and for RX while a burst is prepared. A pop removes the oldest report; a write of RAD_LINE_CFG is stored in its fields and waits for the
boundary. After a tick, PA_EN and LNA_EN of a fold of a TDD line group are not both active. -/
def Obligations.RadioGroups : Prop :=
  ∀ s : State,
    (∀ w : Word, completes (.radGroupCmd w) s (fun t =>
      (s.served Reg.RAD_GROUP_CMD = false ∨ bitOf w 31 = false → t = s) ∧
      (s.served Reg.RAD_GROUP_CMD = true → bitOf w 31 = true → groupCmdCode s (fld w 18 16) (fld w 2 0) ≠ 0 →
        t = s.setReg Reg.RAD_GROUP_RESULT (pk [(30, 2), (16, groupCmdCode s (fld w 18 16) (fld w 2 0))])) ∧
      (s.served Reg.RAD_GROUP_CMD = true → bitOf w 31 = true → groupCmdCode s (fld w 18 16) (fld w 2 0) = 0 →
        (isBellwether s = true → joinedOthers s ≠ [] → t.cas.vote = some (.group w, joinedOthers s) ∧ changedOnly [.cas] s t) ∧
        (isBellwether s = false → t.fld Reg.RAD_GROUP_RESULT 31 30 = 1 ∧
          ∀ st, gstateOf (fld w 2 0) = some st → (grp s (fld w 18 16)).bursts = [] → (grp s (fld w 18 16)).calNow = false →
            (grp s (fld w 18 16)).state ≠ .rx → (grp s (fld w 18 16)).state ≠ .tx →
            (grp t (fld w 18 16)).ret = st ∧ (grp t (fld w 18 16)).state = (grp s (fld w 18 16)).state ∧
            (if (grp s (fld w 18 16)).state = st then (grp t (fld w 18 16)).trans = none
             else if (grp s (fld w 18 16)).state = .off then (grp t (fld w 18 16)).trans = some .standby ∧
               (grp t (fld w 18 16)).then_ = (if st = .standby then none else some st)
             else (grp t (fld w 18 16)).trans = some st ∧ (grp t (fld w 18 16)).then_ = none))))) ∧
    (∀ g : Fin 8, completes (.groupTransitionDone g) s (fun t =>
      ((grp s g).trans = none ∨ (grp s g).trans = some .tx → t = s) ∧
      (∀ b ∈ (grp s g).bursts, (grp s g).trans = some .rx → b.prep = true → b.started = false → t = s) ∧
      (∀ st, (grp s g).trans = some st → st ≠ .tx → st ≠ .rx ∨ (grp s g).bursts = [] →
        (grp t g).state = st ∧ (grp t g).trans = (grp s g).then_ ∧ (grp t g).then_ = none ∧ (grp t g).bursts = (grp s g).bursts))) ∧
    completes .radReportPop s (fun t =>
      (s.served Reg.RAD_REPORT_POP = false → t = s) ∧
      (s.served Reg.RAD_REPORT_POP = true → t.rad = { s.rad with reports := s.rad.reports.drop 1 } ∧ changedOnly [.rad] s t)) ∧
    (∀ (f : Fin 8) (n : Fin 4) (w : Word), completes (.radLineCfgWrite f n w) s (fun t =>
      (s.served (Reg.RAD_LINE_CFG f n) = false → t = s) ∧
      (s.served (Reg.RAD_LINE_CFG f n) = true → t.reg (Reg.RAD_LINE_CFG f n) = w &&& 0x73FF03FF ∧ regsBut [Reg.RAD_LINE_CFG f n] s t ∧
        changedOnly [.regs] s t))) ∧
    (s.pending = [] → s.pwr.off = false → s.pwr.stage ≠ 0 → ∃ t, step s = .next t ∧
      ∀ (f : Fin 8) (g : Nat), lineGroup t f = some g → (grp t g).fdd = false →
        ¬ (nbit (vget t.rad.lineOn f) 1 = true ∧ nbit (vget t.rad.lineOn f) 2 = true))

/-- RAD_BURST_CTRL without GO is nothing. A request refused by the first test of Table 8-3 shows outcome 2 and its code with the interrupt,
and no group changes. An accepted one shows outcome 1 and the next tag, and is the last burst of its group, with its start, length,
direction and return state. Preparation marks the earliest burst that is neither prepared nor started; with none it is nothing. At a
start the earliest burst that has not started is started, the group in TX for a transmit burst, with no transition; if a rule drops it,
it has left its group. At an end the running burst that ends first has left its group, and the others stay. Start and end are nothing
without such a burst. -/
def Obligations.Bursts : Prop :=
  ∀ s : State,
    (∀ w : Word, completes (.radBurstCtrlGo w) s (fun t =>
      (s.served Reg.RAD_BURST_CTRL = false ∨ bitOf w 31 = false → t = s) ∧
      (s.served Reg.RAD_BURST_CTRL = true → bitOf w 31 = true →
        let g := fld w 18 16
        let ticks := s.fld Reg.RAD_BURST_LEN 22 0
        let start := timeNear s.time.tb0 (s.reg Reg.RAD_BURST_TIME_S).toNat (s.reg Reg.RAD_BURST_TIME_NS).toNat
        let code := burstCode s .host g (bitOf w 30) start ticks (fld w 29 27)
        (code ≠ 0 → t.reg Reg.RAD_BURST_RESULT = pk [(30, 2), (16, code)] ∧ t.bit Reg.RAD_INT_STATUS 1 = true ∧
          t.rad.groups = s.rad.groups) ∧
        (code = 0 → t.reg Reg.RAD_BURST_RESULT = pk [(30, 1), (0, (s.rad.hostTag + 1) % 65536)] ∧
          ∃ b, (grp t g).bursts.getLast? = some b ∧ b.who = .host ∧ b.tag = (s.rad.hostTag + 1) % 65536 ∧ b.tx = bitOf w 30 ∧
            b.start = start ∧ b.len = ticks * tickTu ∧ some b.ret = gstateOf (fld w 29 27) ∧ b.started = false))) ) ∧
    (∀ g : Fin 8, completes (.burstPreparation g) s (fun t =>
      (firstBurst (·.start) ((grp s g).bursts.filter (fun b => !b.prep && !b.started)) = none → t = s) ∧
      (∀ b, firstBurst (·.start) ((grp s g).bursts.filter (fun b => !b.prep && !b.started)) = some b →
        (grp t g).bursts = (grp s g).bursts.map (fun x => if x.seq = b.seq then { x with prep := true } else x)))) ∧
    (∀ g : Fin 8, completes (.burstStart g) s (fun t =>
      (firstBurst (·.start) ((grp s g).bursts.filter (fun b => !b.started)) = none → t = s) ∧
      (∀ b, firstBurst (·.start) ((grp s g).bursts.filter (fun b => !b.started)) = some b →
        if startCode s g b ≠ 0 then (grp t g).bursts = (grp s g).bursts.filter (fun x => x.seq != b.seq)
        else
          (grp t g).bursts = (grp s g).bursts.map (fun x => if x.seq = b.seq then { x with prep := true, started := true } else x) ∧
          (grp t g).trans = none ∧ (b.tx = true → (grp t g).state = .tx) ∧ (b.tx = false → (grp s g).fdd = false → (grp t g).state = .rx)))) ∧
    (∀ g : Fin 8, completes (.burstEnd g) s (fun t =>
      (firstBurst burstStop ((grp s g).bursts.filter (·.started)) = none → t = s) ∧
      (∀ b, firstBurst burstStop ((grp s g).bursts.filter (·.started)) = some b →
        (grp t g).bursts = (grp s g).bursts.filter (fun x => x.seq != b.seq))))

/-- RAD_RFFE_CMD without GO is nothing. An immediate command of an undefined type, or on a bus that is not enabled, is refused with code 2
or 4 and leaves the buses; otherwise it is accepted, and an idle bus with nothing waiting takes it. A timed command is refused with the
first of the codes 1 (queue of 16 full), 3 (TB0 not locked), 2, 4 and 5 (too late), which leaves the buses, or joins the queue. A timed
frame that is due goes on the idle bus; behind a frame that runs it is marked late, once, counted and reported; with an empty queue the
row is nothing. The end of a frame is nothing with none running; a read without a parity error puts its bytes in RDATA, and one with a
parity error is counted and reported. -/
def Obligations.RffeBuses : Prop :=
  ∀ (s : State) (f : Fin 8),
    (∀ w : Word, completes (.rffeImmediateCmd f w) s (fun t =>
      (s.served (Reg.RAD_RFFE_CMD f) = false ∨ bitOf w 31 = false → t = s) ∧
      (s.served (Reg.RAD_RFFE_CMD f) = true → bitOf w 31 = true →
        (rffeBadType w = true → t = rffeOutcome f 2 s) ∧
        (rffeBadType w = false → s.bit (Reg.RAD_RFFE_CFG f) 31 = false → t = rffeOutcome f 4 s) ∧
        (rffeBadType w = false → s.bit (Reg.RAD_RFFE_CFG f) 31 = true → t.fld (Reg.RAD_RFFE_STATUS f) 30 29 = 1 ∧
          ((rffe s f).run = none → (rffe s f).queue = [] → (rffe s f).imm = [] →
            (rffe t f).run = some { cmd := w, wdata := s.reg (Reg.RAD_RFFE_WDATA f), air := none } ∧ (rffe t f).imm = [] ∧
            (rffe t f).queue = []) ∧
          ((rffe s f).run.isSome → (rffe t f).run = (rffe s f).run ∧
            (rffe t f).imm = (rffe s f).imm ++ [{ cmd := w, wdata := s.reg (Reg.RAD_RFFE_WDATA f), air := none }]))))) ∧
    (∀ w : Word, completes (.rffeTimedCmd f w) s (fun t =>
      (s.served (Reg.RAD_RFFE_CMD f) = false ∨ bitOf w 31 = false → t = s) ∧
      (s.served (Reg.RAD_RFFE_CMD f) = true → bitOf w 31 = true →
        let air := timeNear s.time.tb0 (s.reg (Reg.RAD_RFFE_TIME_S f)).toNat (s.reg (Reg.RAD_RFFE_TIME_NS f)).toNat
        let code := if (rffe s f).queue.length ≥ 16 then 1 else if s.locked = false then 3 else if rffeBadType w = true then 2
          else if s.bit (Reg.RAD_RFFE_CFG f) 31 = false then 4
          else if air < s.time.tb0 + rffeTu (s.reg (Reg.RAD_RFFE_CFG f)) w + usTu then 5 else 0
        (code ≠ 0 → t = rffeOutcome f code s) ∧
        (code = 0 → t.fld (Reg.RAD_RFFE_STATUS f) 30 29 = 1 ∧ (rffe t f).run = (rffe s f).run ∧
          (rffe t f).queue.length = (rffe s f).queue.length + 1 ∧
          { cmd := w, wdata := s.reg (Reg.RAD_RFFE_WDATA f), air := some air } ∈ (rffe t f).queue)))) ∧
    completes (.rffeTimedFrameSend f) s (fun t =>
      ((rffe s f).queue = [] → t = s) ∧
      (∀ c rest, (rffe s f).queue = c :: rest →
        ((rffe s f).run = none → (rffe t f).run = some c ∧ (rffe t f).queue = rest ∧ (rffe t f).late = false) ∧
        ((rffe s f).run.isSome → (rffe s f).late = true → t = s) ∧
        ((rffe s f).run.isSome → (rffe s f).late = false → (rffe t f).late = true ∧ (rffe t f).queue = c :: rest ∧
          t.bit Reg.RAD_INT_STATUS 10 = true ∧
          t.fld (Reg.RAD_RFFE_COUNT f) 31 16 = satAdd 0xFFFF (s.fld (Reg.RAD_RFFE_COUNT f) 31 16) 1))) ∧
    (∀ (data : Word) (parity : Bool), completes (.rffeFrameDone f data parity) s (fun t =>
      ((rffe s f).run = none → t = s) ∧
      (∀ c, (rffe s f).run = some c → (rffe s f).queue = [] → (rffe s f).imm = [] → (rffe t f).run = none ∧
        (rffeIsRead c.cmd = true → parity = false →
          t.reg (Reg.RAD_RFFE_RDATA f) = BitVec.ofNat 32 (data.toNat % 2 ^ (8 * rffeCount c.cmd)) ∧ t.fld (Reg.RAD_RFFE_STATUS f) 0 0 = 1) ∧
        (rffeIsRead c.cmd = true → parity = true → t.bit Reg.RAD_INT_STATUS 11 = true))))

/-- A word of the pasture record is staged behind those before it; the 76th is refused and remembered as an overflow. CLEAR empties the
buffer. WRITE shows outcome 2 and the first code of Table 8-6 that refuses, with its interrupt, and every attempt but one during a write
empties the buffer; an accepted one shows IN_PROGRESS and its write is in progress; every attempt draws a new challenge. A power window
with no pasture record is nothing; otherwise each chain that was LIVE in it has the estimate of its conducted power. LIC_ATTEN of a
path, and AGG_ATTEN, falls by one step after a full quiet second while it is above 0, and otherwise stays. -/
def Obligations.LicenceEnforcement : Prop :=
  ∀ s : State,
    (∀ w : Word, completes (.nvsPastDataWrite w) s (fun t =>
      (s.served Reg.NVS_PAST_DATA = false → t = s) ∧
      (s.served Reg.NVS_PAST_DATA = true → s.nvs.pastStage.words.length < 75 →
        t.nvs = { s.nvs with pastStage := { s.nvs.pastStage with words := s.nvs.pastStage.words ++ [w] } } ∧ changedOnly [.nvs] s t) ∧
      (s.served Reg.NVS_PAST_DATA = true → 75 ≤ s.nvs.pastStage.words.length →
        t.nvs = { s.nvs with pastStage := { s.nvs.pastStage with overflow := true } }))) ∧
    completes .pastureClear s (fun t =>
      (s.served Reg.NVS_PAST_CTRL = false → t = s) ∧
      (s.served Reg.NVS_PAST_CTRL = true → t.nvs = { s.nvs with pastStage := {} } ∧ changedOnly [.nvs] s t)) ∧
    completes .pastureWrite s (fun t =>
      (s.served Reg.NVS_PAST_CTRL = false → t = s) ∧
      (s.served Reg.NVS_PAST_CTRL = true →
        t.nvs.pastNonce = (Config.challenge s.rnd).toNat ∧
        (pastCode s ≠ 0 → t.reg Reg.NVS_PAST_STATUS = pk [(30, 2), (16, pastCode s)] ∧ t.bit Reg.RAD_INT_STATUS 8 = true ∧
          t.nvs.pastBusy = decide (pastCode s = 9) ∧ t.rad = s.rad ∧ (pastCode s ≠ 9 → t.nvs.pastStage = {}) ∧
          (pastCode s = 9 → t.nvs.pastStage = s.nvs.pastStage)) ∧
        (pastCode s = 0 → t.reg Reg.NVS_PAST_STATUS = pk [(30, 3), (16, 0)] ∧ t.nvs.pastBusy = true ∧ t.rad = s.rad))) ∧
    (∀ l : List (Option Int), completes (.licencePowerWindow l) s (fun t => (s.rad.pasture = none → t = s) ∧
      (∀ r (p : Fin 64) (x : Int), s.rad.pasture = some r → l.getD p none = some x → (pathOf t p).licEst = pathPower s r p x))) ∧
    (∀ p : Fin 64, completes (.licenceAttenRelax (some p)) s (fun t =>
      if 0 < (pathOf s p).licAtten ∧ (pathOf s p).licQuietSince + secTu ≤ s.time.tb1 then
        pathOf t p = { pathOf s p with licAtten := (pathOf s p).licAtten - 1, licQuietSince := s.time.tb1 } ∧ changedOnly [.paths] s t
      else t = s)) ∧
    completes (.licenceAttenRelax none) s (fun t =>
      if 0 < s.rad.aggAtten ∧ s.rad.aggQuietSince + secTu ≤ s.time.tb1 then
        t.rad = { s.rad with aggAtten := s.rad.aggAtten - 1, aggQuietSince := s.time.tb1 } ∧ changedOnly [.rad] s t
      else t = s)

/-- A failed limit of steps 2 to 5 pauses the bring-up of a training port that runs no swap, with the step reached shown, or puts it down
again where the fault lies outside; otherwise the row is nothing. A paused port, or one of FH0, FH1 and MG that is OFF from stage 1 on,
begins training at step 1, where every position has its lane and no failure waits; otherwise the restart is nothing. A training port
whose lanes are all found, within the skew tolerated, is in L0 (held or quarantined if it was), with the interrupt; a skew beyond it
fails step 5; a port that is paused or swapping, or in another state, is left. A state request of a fold-link port is refused with code
2, one of a port that a served layer names with code 1; L0 asked of a port in L1 or L2 starts training, L1 and L2 put a port that is
neither OFF nor at fault there. HOLD and HOLD_CLEAR set and end the hold. RETRAIN starts training unless the port is OFF, runs a swap,
or waits for a reserve. The retry of a port at fault starts training only where its loopback passed, or it is MG. A clean second ends a
quarantine, with its interrupt. -/
def Obligations.PortsAndBringUp : Prop :=
  ∀ (s : State) (q : Fin 5),
    (∀ step reached : Fin 8, completes (.portStepTimeout q (step, reached)) s (fun t =>
      ((port s q).state ≠ .training ∨ (port s q).paused = true ∨ step.val < 2 ∨ 5 < step.val → t = s) ∧
      ((port s q).state = .training → (port s q).paused = false → 2 ≤ step.val → step.val ≤ 5 → (port s q).swap = none →
        (port t q).step = min reached.val step.val ∧ (port t q).paused = !(port s q).external ∧
        (port t q).state = (if (port s q).external then .downFault else .training) ∧ changedOnly [.lne] s t))) ∧
    completes (.portBringupRestart q) s (fun t =>
      if (port s q).paused = true ∨ ((port s q).state = .off ∧ (q.val < 2 ∨ q.val = 4) ∧ 1 ≤ s.pwr.stage) then
        plainBringUp s q → (port t q).state = .training ∧ (port t q).step = 1 ∧ (port t q).paused = false ∧ (port t q).trainAt = s.time.tb1
      else t = s) ∧
    (∀ found : List LaneFound, completes (.portL0 q found) s (fun t =>
      ((port s q).swap.isSome ∨ (port s q).paused = true ∨ found.length ≠ positions q ∨ foundAll (portLanes s q) found = false → t = s) ∧
      ((port s q).state ≠ .training → (port s q).state ≠ .off → t = s) ∧
      ((port s q).state = .training → (port s q).swap = none → (port s q).paused = false → found.length = positions q →
        foundAll (portLanes s q) found = true →
        (skewBad q found = false → s.lne.waiting = [] →
          (port t q).state = l0State (port s q) ∧ (port t q).step = 5 ∧ t.bit Reg.LNE_INT_STATUS 0 = true) ∧
        (skewBad q found = true → (port s q).external = false → (port t q).step = 5 ∧ (port t q).paused = true)))) ∧
    (∀ st : Fin 4, completes (.lnePortState q st) s (fun t =>
      (s.served (Reg.LNE_PORT_CTRL q) = false ∨ st.val = 3 → t = s) ∧
      (s.served (Reg.LNE_PORT_CTRL q) = true → st.val < 3 → q.val = 2 ∨ q.val = 3 → t = portOutcome q 2 s) ∧
      (s.served (Reg.LNE_PORT_CTRL q) = true → st.val = 1 ∨ st.val = 2 → q.val < 2 → portInUse s q = true → t = portOutcome q 1 s) ∧
      (s.served (Reg.LNE_PORT_CTRL q) = true → q.val < 2 ∨ q.val = 4 → st.val = 0 → (port s q).state = .l1 ∨ (port s q).state = .l2 →
        plainBringUp s q → (port t q).state = .training) ∧
      (s.served (Reg.LNE_PORT_CTRL q) = true → q.val < 2 ∨ q.val = 4 → st.val = 1 ∨ st.val = 2 → portInUse s q = false →
        (port s q).state ≠ .off → (port s q).state ≠ .downFault → (port t q).state = (if st.val = 1 then .l1 else .l2)))) ∧
    completes (.hold q) s (fun t =>
      (s.served (Reg.LNE_PORT_CTRL q) = false → t = s) ∧
      (s.served (Reg.LNE_PORT_CTRL q) = true → t.fld (Reg.LNE_PORT_STATUS q) 15 14 = 1 ∧ (port t q).held = true ∧
        (port t q).state = (if (port s q).state = .l0 then .held else (port s q).state) ∧ changedOnly [.lne, .regs] s t)) ∧
    completes (.holdClear q) s (fun t =>
      (s.served (Reg.LNE_PORT_CTRL q) = false → t = s) ∧
      (s.served (Reg.LNE_PORT_CTRL q) = true → t.fld (Reg.LNE_PORT_STATUS q) 15 14 = 1 ∧ (port t q).held = false ∧
        (port t q).state = (if (port s q).state = .held then .l0 else (port s q).state))) ∧
    completes (.retrain q) s (fun t =>
      (s.served (Reg.LNE_PORT_CTRL q) = false → t = s) ∧
      (s.served (Reg.LNE_PORT_CTRL q) = true →
        if (port s q).state = .off ∨ (port s q).swap.isSome ∨ (q.val < 4 ∧ (port s q).state = .downFault ∧ (port s q).external = false) then
          port t q = port s q
        else plainBringUp s q → (port t q).state = .training)) ∧
    completes (.portRetryTimer q) s (fun t =>
      if (port s q).state = .downFault ∧ ((port s q).external = true ∨ q.val = 4) then
        plainBringUp s q → (port t q).state = .training ∧ (port t q).step = 1
      else t = s) ∧
    completes (.quarRelease q) s (fun t =>
      if (port s q).state ≠ .quarantined ∨ (port s q).dirty = true ∨ (port s q).swap.isSome then t = s
      else (port t q).quar = false ∧ (port t q).state = (if (port s q).held then .held else .l0) ∧ t.bit Reg.LNE_INT_STATUS 6 = true)

/-- A lane in training that fails step 1 or 2 alone is a failed one, and so is a lane in L0 whose CDR stays unlocked, and one that SWAP
names, for which a reserve can be had; SWAP of another is refused. A failure that is acted on at once puts the first reserve that can
take the lane into a swap, or the port down with the lane looped back. A CDR that loses lock is noted with its time. The end of a lane
swap, with exactly its lanes found within the skew tolerated, retires the failed lane and raises its interrupt, and the port is in L0
where every position has its lane and no failure waits. The end of a loopback shows whether the fault is external, and retires the lane
if it is not. A second of a lane adds its errors, in PRBS_ERR while it tests, else in SYM_ERR; a second of a port adds its corrected and
uncorrectable codewords. A fold reserve that has trained shows where it is wired. A write of LNE_TX_EQ whose taps sum above 63 is marked
and raised and changes no tap; otherwise the taps are stored, or the preset of a lane with link training. LNE_TEST_CTRL is stored, and
with EN the lane tests where it may, without EN it does not; EN for another lane is refused. -/
def Obligations.LanesAndReserves : Prop :=
  ∀ s : State,
    (∀ (n : Fin 29) (step2 : Bool), completes (.suspectLane (n, step2)) s (fun t =>
      ((lane s n).state ≠ .train ∨ 4 ≤ (lane s n).port ∨ (port s (lane s n).port).state ≠ .training ∨
        (port s (lane s n).port).paused = true → t = s) ∧
      ((lane s n).state = .train → (port s (lane s n).port).state = .training → (port s (lane s n).port).paused = false → failsNow s n →
        laneTaken s t n))) ∧
    (∀ (n : Fin 29) (long : Bool), completes (.cdrLoss n long) s (fun t =>
      ((lane s n).state ≠ .l0 → (lane t n).cdr = ((lane s n).cdr && !long) ∧ (lane t n).losses.getLast? = some s.time.tb1 ∧
        changedOnly [.lne] s t) ∧
      ((lane s n).state = .l0 → long = true → failsNow s n → laneTaken s t n))) ∧
    (∀ n : Fin 29, completes (.swapLane n) s (fun t =>
      (s.served (Reg.LNE_LANE_CTRL n) = false → t = s) ∧
      (s.served (Reg.LNE_LANE_CTRL n) = true →
        (lane s n).state ≠ .l0 ∨ 4 ≤ (lane s n).port ∨ firstReserve s (lane s n).port = none → t = s.refusedWrite (Reg.LNE_LANE_CTRL n)) ∧
      (s.served (Reg.LNE_LANE_CTRL n) = true → (lane s n).state = .l0 → (firstReserve s (lane s n).port).isSome → failsNow s n →
        laneTaken s t n))) ∧
    (∀ (q : Fin 5) (found : List LaneFound), completes (.laneSwapDone q found) s (fun t =>
      ((port s q).swap = none → t = s) ∧
      (∀ n rn, (port s q).swap = some (n, rn) →
        (foundAll (rn :: (portLanes s q).filter (· != n)) found = false → t = s) ∧
        (foundAll (rn :: (portLanes s q).filter (· != n)) found = true → skewBad q found = false →
          t.bit Reg.LNE_INT_STATUS 3 = true ∧ (n < 29 → n ≠ rn → (lane t n).state = .retired) ∧
          (found.length = positions q → (livePositions s q (lane s rn).pos).length = positions q → s.lne.waiting = [] → rn < 29 →
            (port t q).swap = none ∧ (port t q).state = l0State (port s q)))))) ∧
    (∀ (q : Fin 5) (pass : Bool), completes (.laneLoopbackDone q pass) s (fun t =>
      ((port s q).loopback = none → t = s) ∧
      (∀ n, (port s q).loopback = some n → port t q = { port s q with loopback := none, external := pass } ∧
        (pass = true → changedOnly [.lne] s t) ∧ (pass = false → n < 29 → (lane t n).state = .retired)))) ∧
    (∀ k : LaneErrors, completes (.laneErrorWindow [k] []) s (fun t =>
      if (lane s k.lane).state = .test then
        t.reg (Reg.LNE_PRBS_ERR k.lane) = BitVec.ofNat 32 (satAdd 0xFFFFFFFF (s.reg (Reg.LNE_PRBS_ERR k.lane)).toNat k.errors) ∧
          (lane t k.lane).prbsLock = k.prbsLock
      else t.reg (Reg.LNE_SYM_ERR k.lane) = BitVec.ofNat 32 (satAdd 0xFFFFFFFF (s.reg (Reg.LNE_SYM_ERR k.lane)).toNat k.errors))) ∧
    (∀ k : PortErrors, completes (.laneErrorWindow [] [k]) s (fun t => k.port.val < 4 →
      t.reg (Reg.LNE_CW_CORR k.port) = BitVec.ofNat 32 (satAdd 0xFFFFFFFF (s.reg (Reg.LNE_CW_CORR k.port)).toNat k.corrected) ∧
      t.reg (Reg.LNE_CW_UNCORR k.port) = BitVec.ofNat 32 (satAdd 0xFFFFFFFF (s.reg (Reg.LNE_CW_UNCORR k.port)).toNat k.uncorrectable))) ∧
    (∀ (i : Fin 2) (w : WiredTo), completes (.foldReserveDiscovery i w) s (fun t =>
      if s.bit Reg.LNE_CFG 1 = false ∨ s.cas.role = 0 ∨ s.pwr.stage < 2 ∨ (reserveLane s (i.val + 2)).state ≠ 0 then t = s
      else (reserveLane t (i.val + 2)).wired = (match w with | .fl0 _ => 1 | .fl1 _ => 2 | .nothing => 3))) ∧
    (∀ (n : Fin 29) (w : Word), completes (.lneTxEqWrite n w) s (fun t =>
      (s.served (Reg.LNE_TX_EQ n) = false → t = s) ∧
      (s.served (Reg.LNE_TX_EQ n) = true → tapSum w > 63 → t.fld (Reg.LNE_TX_EQ n) 31 31 = 1 ∧
        t.fld (Reg.LNE_TX_EQ n) 23 4 = s.fld (Reg.LNE_TX_EQ n) 23 4 ∧ t.bit Reg.LNE_INT_STATUS 8 = true ∧ t.lne = s.lne) ∧
      (s.served (Reg.LNE_TX_EQ n) = true → tapSum w ≤ 63 → t.fld (Reg.LNE_TX_EQ n) 31 31 = 0 ∧
        (if lineTrains s n then (lane t n).preset = fld w 23 4 else t.fld (Reg.LNE_TX_EQ n) 23 4 = fld w 23 4)))) ∧
    (∀ (n : Fin 29) (w : Word), completes (.lneTestCtrlWrite n w) s (fun t =>
      (s.served (Reg.LNE_TEST_CTRL n) = false → t = s) ∧
      (s.served (Reg.LNE_TEST_CTRL n) = true → bitOf w 31 = true → testable s n = false → t = s.refusedWrite (Reg.LNE_TEST_CTRL n)) ∧
      (s.served (Reg.LNE_TEST_CTRL n) = true → bitOf w 31 = false ∨ testable s n = true → t.reg (Reg.LNE_TEST_CTRL n) = w &&& 0x80000003 ∧
        (lane t n).prbsLock = false ∧ ((lane t n).state = .test ↔ bitOf w 31 = true) ∧ regsBut [Reg.LNE_TEST_CTRL n] s t ∧
        changedOnly [.regs, .lne] s t)))

/-- A control message to a flock that is not in the warp, or to a member of a stack, is nothing. One past CTRL_RATE of the epoch is counted
as received and as policed and does nothing else to the schedules. A body outside its layout or ranges is answered with a NAK of class
0xA. Otherwise ADMIT_REQ adds its request to those of its epoch; RELEASE answers with a NAK of class 3 unless the flock holds every slot
it names, and else with ACK DONE, and every such slot has a planned end; WITHDRAW takes the waiting request of its tag out, or is
answered REFUSED with code 1; SKEIN_WRITE of the device's own skeins writes it within the flock's partitions, and is answered with a NAK
of class 9 outside them; SWAP_REQ and BURST_REQ are refused with the first code that applies, with the violations of codes 5 and 6;
CAPS_REQ keeps FORMATS and UL_BLOCKS and is answered with CAPS. A quarantined flock's downlink skein writes, downlink swaps and TX
bursts are answered with a NAK of class 0xC. -/
def Obligations.FlockMessages : Prop :=
  ∀ (s : State) (k : Fin 8) (q : Fin 2) (tag : BitVec 16) (b : List Byte),
    (∀ c ∈ flockCommands k q tag b, completes c.2 s (fun t =>
      (flockServed s k = false → t = s) ∧
      (flockServed s k = true → s.fld Reg.FHP_CFG 23 16 ≤ (vget s.fhp.flocks k).msgs →
        t.fld (Reg.FHP_FLOCK_MSG k) 31 16 = satAdd 0xFFFF (s.fld (Reg.FHP_FLOCK_MSG k) 31 16) 1 ∧
        t.fld (Reg.FHP_FLOCK_MSG k) 15 0 = satAdd 0xFFFF (s.fld (Reg.FHP_FLOCK_MSG k) 15 0) 1 ∧
        (vget t.fhp.flocks k).policed = true ∧ t.fhp.reqs = s.fhp.reqs ∧ t.fhp.changes = s.fhp.changes ∧
        changedOnly [.regs, .glb, .fhp, .acq] s t) ∧
      (flockServed s k = true → (vget s.fhp.flocks k).msgs < s.fld Reg.FHP_CFG 23 16 → bodyOk c.1 b = false →
        t = nakViol k q tag.toNat 0xA c.1 0 (messageCounted k s)))) ∧
    completes (.admitReq k q tag b) s (fun t => messageTaken s k 0x01 b →
      t.fhp.reqs = s.fhp.reqs ++ [{
        k := k, tag := tag.toNat, ul := nbit (byteAt b 0) 7, c := byteAt b 0 % 4, count := byteAt b 1
        slot := if byteAt b 2 = 0xFF then none else some (byteAt b 2), epoch := s.fhp.epoch, port := q }] ∧
      t.fld (Reg.FHP_FLOCK_MSG k) 31 16 = satAdd 0xFFFF (s.fld (Reg.FHP_FLOCK_MSG k) 31 16) 1 ∧
      (vget t.fhp.flocks k).msgs = (vget s.fhp.flocks k).msgs + 1 ∧ changedOnly [.regs, .fhp] s t) ∧
    completes (.releaseSlots k q tag b) s (fun t => messageTaken s k 0x02 b →
      (∀ l : Fin 32, nbit (be b 4 4) l = true → s.holder (nbit (byteAt b 0) 7) l ≠ some k.val →
        t = nakViol k q tag.toNat 3 0x02 0 (messageCounted k s)) ∧
      ((∀ l : Fin 32, nbit (be b 4 4) l = true → s.holder (nbit (byteAt b 0) 7) l = some k.val) →
        (vget t.fhp.flocks k).out.getLast? = some (q.val, flockMsg 0x83 tag.toNat [1, 0, 0, 0]) ∧
        ∀ (l : Fin 32) (h : Holding), nbit (be b 4 4) l = true → holding s (nbit (byteAt b 0) 7) l = some h → h.k = k.val →
          (holding t (nbit (byteAt b 0) 7) l).any (·.ending.isSome) = true)) ∧
    completes (.withdraw k q tag b) s (fun t => messageTaken s k 0x03 b →
      ((∀ r ∈ waitingReqs s, r.k = k.val → r.tag ≠ be b 0 2) → t = flockAck k q tag.toNat 2 1 (messageCounted k s)) ∧
      (∀ r, (waitingReqs s).find? (fun r => r.k == k.val && r.tag == be b 0 2) = some r →
        t = admitReply r 6 0 0 0 (dropReq r (messageCounted k s)))) ∧
    completes (.skeinWrite k q tag b) s (fun t => messageTaken s k 0x10 b →
      (stackSize s ≤ byteAt b 1 → t = nakViol k q tag.toNat 0xA 0x10 0 (messageCounted k s)) ∧
      (byteAt b 1 < stackSize s → nbit (byteAt b 0) 7 = false → (vget s.fhp.flocks k).quar = true →
        t = flockNak k q tag.toNat 0xC 0x10 0 (messageCounted k s)) ∧
      (byteAt b 1 < stackSize s → nbit (byteAt b 0) 7 = true ∨ (vget s.fhp.flocks k).quar = false →
        (inPartition s (nbit (byteAt b 0) 7) k (be b 2 2) = false → t = nakViol k q tag.toNat 9 0x10 0 (messageCounted k s)) ∧
        (inPartition s (nbit (byteAt b 0) 7) k (be b 2 2) = true → byteAt b 1 = 0 →
          t = skeinWriteBody (nbit (byteAt b 0) 7) b (messageCounted k s)))) ∧
    completes (.swapReq k q tag b) s (fun t => messageTaken s k 0x11 b →
      (nbit (byteAt b 0) 7 = false → (vget s.fhp.flocks k).quar = true → t = flockNak k q tag.toNat 0xC 0x11 0 (messageCounted k s)) ∧
      (nbit (byteAt b 0) 7 = true ∨ (vget s.fhp.flocks k).quar = false → ∀ code, flockSwapCode (messageCounted k s) k b = code → code ≠ 0 →
        t = (if code = 5 then flockViol k 3 else if code = 6 then flockViol k 9 else fun x => x)
          (flockSwapReport k q tag.toNat 7 code (nbit (byteAt b 0) 7) (byteAt b 0 % 32) 0 0 0 (messageCounted k s)))) ∧
    completes (.burstReq k q tag b) s (fun t => messageTaken s k 0x20 b →
      (nbit (byteAt b 0) 7 = true → (vget s.fhp.flocks k).quar = true → t = flockNak k q tag.toNat 0xC 0x20 0 (messageCounted k s)) ∧
      (nbit (byteAt b 0) 7 = false ∨ (vget s.fhp.flocks k).quar = false → ∀ code, flockBurstCode (messageCounted k s) k b = code → code ≠ 0 →
        (vget t.fhp.flocks k).out.getLast? = some (q.val, flockMsg 0xA1 tag.toNat
          (beBytes 1 7 ++ beBytes 1 code ++ beBytes 1 (b2n (nbit (byteAt b 0) 7) * 128 + byteAt b 0 % 8) ++ beBytes 1 0 ++
            time8 (timeNear s.time.tb0 (be b 8 4) (be b 12 4)))) ∧
        t.rad.groups = s.rad.groups)) ∧
    completes (.capsReq k q tag b) s (fun t => messageTaken s k 0x30 b → ∀ f, s.flockCfg k = some f →
      (vget t.fhp.flocks k).formats = byteAt b 0 % 8 ∧ (vget t.fhp.flocks k).ulBlocks = byteAt b 1 ∧
      (vget t.fhp.flocks k).capsDone = true ∧
      (vget t.fhp.flocks k).out.getLast? = some (q.val, flockMsg 0xB0 tag.toNat (capsBody (messageCounted k s) k f)) ∧
      changedOnly [.regs, .fhp] s t)

/-- A frame on a port out of L0 is nothing; one with an uncorrectable codeword, a wrong FCS, a length outside 64 to 9,216 octets, or a pause
frame is a violation of the port's peer of class 4, 1, 2 or 3, and is counted. A downlink section outside its header, or of no slot the
flock holds, is answered with a NAK of class 4 or 3 and changes no store. The sections of the earliest deadline, and no others, leave
the ingress store at a release; with none it is nothing. A late substitution is nothing for a layer without a holder, on a member of a
stack, or where the sample is not needed or is covered or substituted already; else it counts the flock's substitution and raises its
interrupt, with a violation of class 6 only while the port is up. An uplink section of a slot without a holder, or on a member of a
stack, is nothing; nothing leaves a port out of L0. A delay measurement of a served flock with a body below 20 octets is a violation of
class 1; one that asks nothing is nothing. -/
def Obligations.FlockSections : Prop :=
  ∀ s : State,
    (∀ (q : Fin 3) (fine : Fin 16) (b : List Byte) (fcsOk uncorr : Bool), completes (.ethernetFrameRx q fine b fcsOk uncorr) s (fun t =>
      ((port s (framePort q)).state ≠ .l0 → t = s) ∧
      ((port s (framePort q)).state = .l0 → uncorr = true → t = s.viol 3 (framePort q) 4 0) ∧
      ((port s (framePort q)).state = .l0 → uncorr = false → fcsOk = false →
        t = (s.addHi (Reg.LNE_FRAME_ERR (framePort q)) 1).viol 3 (framePort q) 1 0) ∧
      ((port s (framePort q)).state = .l0 → uncorr = false → fcsOk = true → b.length < 60 ∨ 9212 < b.length →
        t = (s.addLo (Reg.LNE_FRAME_ERR (framePort q)) 1).viol 3 (framePort q) 2 0) ∧
      ((port s (framePort q)).state = .l0 → uncorr = false → fcsOk = true → 60 ≤ b.length → b.length ≤ 9212 → etherType b = 0x8808 →
        t = (s.addLo (Reg.LNE_PORT_EVENT (framePort q)) 1).viol 3 (framePort q) 3 0) ∧
      (q.val = 2 → (port s 4).state = .l0 → uncorr = false → fcsOk = true → 60 ≤ b.length → b.length ≤ 9212 → etherType b ≠ 0x8808 →
        t = s) ∧
      (q.val < 2 → (port s q).state = .l0 → uncorr = false → fcsOk = true → 60 ≤ b.length → b.length ≤ 9212 → etherType b ≠ 0x8808 →
        etherType b ≠ 0x88F7 → etherType b ≠ 0xAEFE ∨ frameFlock s q b = none →
        t = (s.addReg (Reg.FHP_PORT_UNKNOWN q) 1).viol 3 q 6 0))) ∧
    (∀ (k : Fin 8) (q : Fin 2) (id : BitVec 16) (b : List Byte), completes (.iqSectionRx k q id b) s (fun t =>
      (flockServed s k = false → t = s) ∧
      (flockServed s k = true → badSection b = true → t = nakViol k q 0 4 0 id.toNat s) ∧
      (flockServed s k = true → badSection b = false → sectionLayer s k id.toNat = none → t = nakViol k q 0 3 0 id.toNat s) ∧
      (badSection b = true ∨ sectionLayer s k id.toNat = none → t.fhp.ingress = s.fhp.ingress ∧ t.fhp.covered = s.fhp.covered))) ∧
    completes .sectionRelease s (fun t =>
      (s.fhp.ingress = [] → t = s) ∧
      (∀ x ∈ s.fhp.ingress, x ∈ t.fhp.ingress ↔ ∃ y ∈ s.fhp.ingress, y.deadline < x.deadline) ∧
      (∀ x ∈ t.fhp.ingress, x ∈ s.fhp.ingress)) ∧
    (∀ l : Fin 32, completes (.lateSubstitution l) s (fun t =>
      (isStackMember s = true ∨ s.holder false l = none → t = s) ∧
      (∀ (k : Nat) (c : Carrier) (y : LayerCfg) (air : Nat), s.holder false l = some k → layerCarrier s false l = some c →
        s.layer false l = some y → air = s.time.tb0 + downlinkLead * pathPeriod s.pwr.level + stackDelay s →
        (neededAt s c air = false ∨ insideOf s.fhp.covered l air (air + 1) = true ∨ insideOf s.fhp.subst l air (air + 1) = true → t = s) ∧
        (isStackMember s = false → neededAt s c air = true → insideOf s.fhp.covered l air (air + 1) = false →
          insideOf s.fhp.subst l air (air + 1) = false → k < 8 →
          t.bit Reg.FHP_INT_STATUS 5 = true ∧ t.fld (Reg.FHP_FLOCK_LATE k) 15 0 = satAdd 0xFFFF (s.fld (Reg.FHP_FLOCK_LATE k) 15 0) 1 ∧
          t.fhp.subst = addSpan s.time.tb0 l air (symbolAfter c air) s.fhp.subst ∧
          (portUp s y.port = false → changedOnly [.regs, .fhp, .acq] s t ∧ t.fhp.flocks = s.fhp.flocks))))) ∧
    (∀ (l : Fin 32) (start count : Nat) (rx : List (List Cplx)) (m : UlMarks), completes (.ulSectionSend l start count rx m) s (fun t =>
      (isStackMember s = true ∨ s.holder true l = none ∨ s.layer true l = none → t = s) ∧
      (∀ y, s.layer true l = some y → portUp s y.port = false → t.fhp.sent = s.fhp.sent) ∧ changedOnly [.regs, .fhp] s t)) ∧
    (∀ (k : Fin 8) (q : Fin 2) (fine : Fin 16) (b : List Byte), completes (.ecpriDelayMeasurement k (q, fine) b) s (fun t =>
      (flockServed s k = false → t = s) ∧
      (flockServed s k = true → b.length < 20 → t = flockViol k 1 s) ∧
      (20 ≤ b.length → asksMeasurement (byteAt b 1) = false → t = s) ∧
      (portUp s q = false → t.fhp.sent = s.fhp.sent ∧ t.tim = s.tim)))

/-- At the end of an epoch its requests leave, the next epoch is numbered one more, and every flock's message count starts anew. At an
effective time the changes of the earliest time, and no others, leave the plan; with none it is nothing. The limit of the admission's
tie queue and the window of a deferral refuse the request with the earliest limit with reason 1, that of a receiver ends the request
queued first, and its stream is idle where a capture asked, and that of a stream drops the ARM queued first; with none queued they are
nothing. FLOCK_QUARANTINE_ON quarantines a flock whose violations reached QUAR and counts it, with the interrupt, and is nothing for
another; FLOCK_QUARANTINE_OFF ends a quarantine without a violation in the last second, with the interrupt, and is nothing otherwise.
RELEASE_ALL that the port serves, with GO, plans the end of every slot that the flock holds, and changes no other flock's holding;
without GO or RELEASE it is nothing. -/
def Obligations.FlockSchedules : Prop :=
  ∀ s : State,
    completes .arbitrationEpochEnd s (fun t =>
      t.fhp.epoch = s.fhp.epoch + 1 ∧ t.fhp.reqs = [] ∧
      ∀ k : Fin 8, (vget t.fhp.flocks k).msgs = 0 ∧ (vget t.fhp.flocks k).policed = false) ∧
    completes .slotEffectiveTime s (fun t =>
      (s.fhp.changes = [] → t = s) ∧
      (∀ x, x ∈ t.fhp.changes ↔ x ∈ s.fhp.changes ∧ ∃ y ∈ s.fhp.changes, y.at_ < x.at_)) ∧
    completes (.queueLimitExpiry .admission) s (fun t =>
      (s.fhp.tie = [] → t = s) ∧
      (∀ n r, s.fhp.tie = [(n, r)] → t = admitReply r 3 1 0 0 (dropReq r s))) ∧
    (∀ u : Fin 8, completes (.queueLimitExpiry (.receiver u)) s (fun t =>
      ((vget s.dpd.obs u).wait.any (·.tied) = false → t = s) ∧
      (∀ a st, (vget s.dpd.obs u).wait.find? (·.tied) = some a → a.who = .capture st → st < 4 →
        (vget t.acq.streams st).state = .idle ∧ ∀ b ∈ (vget t.dpd.obs u).wait, b.who ≠ .capture st))) ∧
    (∀ st : Fin 4, completes (.queueLimitExpiry (.stream st)) s (fun t =>
      ((vget s.acq.streams st).asks.any (·.tied) = false → t = s) ∧
      (∀ a, (vget s.acq.streams st).asks.find? (·.tied) = some a →
        (vget t.acq.streams st).asks = (vget s.acq.streams st).asks.erase a ∧ changedOnly [.regs, .acq] s t))) ∧
    completes .deferWindowExpiry s (fun t =>
      ((∀ k : Fin 8, (vget s.fhp.flocks k).deferred = []) → t = s) ∧
      (∀ r, firstLimit ((List.range 8).flatMap (fun k => (vget s.fhp.flocks k).deferred)) = some r →
        t = admitReply r 3 1 0 0 (dropReq r s) ∧ t.bit Reg.FHP_INT_STATUS 1 = true)) ∧
    (∀ k : Fin 8, completes (.flockQuarantineOn k) s (fun t =>
      ((vget s.fhp.flocks k).quar = true ∨ (vget s.fhp.flocks k).quarNext = false → t = s) ∧
      ((vget s.fhp.flocks k).quar = false → (vget s.fhp.flocks k).quarNext = true →
        (vget t.fhp.flocks k).quar = true ∧ (vget t.fhp.flocks k).quarNext = false ∧
        (vget t.fhp.flocks k).quarCount = satAdd 0xFFFF (vget s.fhp.flocks k).quarCount 1 ∧ t.bit Reg.FHP_INT_STATUS 3 = true ∧
        (∀ j : Fin 8, j ≠ k → vget t.fhp.flocks j = vget s.fhp.flocks j) ∧ changedOnly [.regs, .fhp, .acq] s t))) ∧
    (∀ k : Fin 8, completes (.flockQuarantineOff k) s (fun t =>
      ((vget s.fhp.flocks k).quar = false → t = s) ∧
      (∀ v ∈ (vget s.fhp.flocks k).viols, s.time.tb1 < v + secTu → t = s) ∧
      ((vget s.fhp.flocks k).quar = true → (∀ v ∈ (vget s.fhp.flocks k).viols, v + secTu ≤ s.time.tb1) →
        (vget t.fhp.flocks k).quar = false ∧ t.bit Reg.FHP_INT_STATUS 4 = true ∧
        (vget t.fhp.flocks k).quarCount = (vget s.fhp.flocks k).quarCount ∧
        (∀ j : Fin 8, j ≠ k → vget t.fhp.flocks j = vget s.fhp.flocks j) ∧ changedOnly [.regs, .fhp] s t))) ∧
    (∀ w : Word, completes (.releaseAll w) s (fun t =>
      (s.served Reg.FHP_FLOCK_CTRL = false ∨ bitOf w 31 = false ∨ bitOf w 8 = false → t = s) ∧
      (s.served Reg.FHP_FLOCK_CTRL = true → bitOf w 31 = true → bitOf w 8 = true → ∀ (ul : Bool) (l : Fin 32),
        (∀ h, holding s ul l = some h → h.k = fld w 2 0 → slotCarrier s ul l < 4 → (holding t ul l).any (·.ending.isSome) = true) ∧
        (∀ h, holding s ul l = some h → h.k ≠ fld w 2 0 → holding t ul l = some h) ∧
        (holding s ul l = none → holding t ul l = none))))

/-- A PTP row whose message has another type, or that comes to a port that does not hear, is nothing. A message below a header is counted
and logged as MALFORMED without a peer; a malformed one is a violation of class 1 of its peer, one of another domain of class 2. A Sync
of a known peer within its rate and in sequence is counted; a one-step Sync of the parent gives the exchange its first two times, and a
two-step Sync waits for its Follow_Up. An Announce within its rate is entered with its clock class, and adds to the peer's times. A
Follow_Up that answers the waiting Sync of the parent gives the exchange its times; one that answers none, and was not dropped for rate,
is a violation of class 4. A Delay_Req leaves only a port that hears and holds the parent; it takes the next sequence number, keeps its
time for the answer, and one frame is sent. -/
def Obligations.PtpMessages : Prop :=
  ∀ (s : State) (q : Fin 2) (fine : Fin 16) (m : List Byte),
    (∀ c ∈ ptpCommands q fine m, completes c.2 s (fun t =>
      (ptpType m ≠ c.1 ∨ ptpHears s q = false → t = s) ∧
      (ptpType m = c.1 → ptpHears s q = true →
        (m.length < 34 → t = (s.viol 2 q 1 0).addLo (Reg.TIM_PTP_VIOL q) 1) ∧
        (34 ≤ m.length → ptpMalformed m = true → t = ptpViol q (ptpSource m) (ptpPortNum m) 1 s) ∧
        (34 ≤ m.length → ptpMalformed m = false → byteAt m 4 ≠ s.fld Reg.TIM_PTP_CFG 31 24 →
          t = ptpViol q (ptpSource m) (ptpPortNum m) 2 s)))) ∧
    completes (.ptpSyncRx q fine m) s (fun t => ptpTaken s q 0x0 m → ∀ x, peerOf s q m = some x → (lastSecond s x.syncs).length < 64 →
      (∀ n, x.syncSeq = some n → (n + 1) % 65536 = ptpSeq m) →
      t.fld (Reg.TIM_PTP_COUNT q) 31 16 = satAdd 0xFFFF (s.fld (Reg.TIM_PTP_COUNT q) 31 16) 1 ∧ changedOnly [.regs, .tim] s t ∧
      (ptpTwoStep m = false → isParent s q (ptpSource m) (ptpPortNum m) = true →
        t.tim.sync = some (ptpStamp m + ptpCorr m, ((s.time.tb0 + fine.val * 25000 : Nat) : Int))) ∧
      (ptpTwoStep m = true → t.tim.sync = s.tim.sync ∧
        (peerOf t q m).map (·.waitFollow) = some (some (ptpSeq m, ptpCorr m, ((s.time.tb0 + fine.val * 25000 : Nat) : Int))))) ∧
    completes (.ptpAnnounceRx q m) s (fun t => ptpTaken s q 0xB m → ∀ x, peerOf s q m = some x → (lastSecond s x.annTimes).length < 32 →
      (peerOf t q m).map (·.annTimes) = some (lastSecond s x.annTimes ++ [s.time.tb1]) ∧
      (peerOf t q m).map (·.ann.clockClass) = some (byteAt m 48)) ∧
    completes (.ptpFollowUpRx q m) s (fun t => ptpTaken s q 0x8 m → ∀ x, peerOf s q m = some x →
      (∀ n corr t2, x.waitFollow = some (n, corr, t2) → n = ptpSeq m → isParent s q (ptpSource m) (ptpPortNum m) = true →
        t.tim.sync = some (ptpStamp m + ptpCorr m + corr, t2) ∧ (peerOf t q m).map (·.waitFollow) = some none) ∧
      ((∀ y, x.waitFollow = some y → y.1 ≠ ptpSeq m) → x.dropFollow ≠ some (ptpSeq m) →
        t = ptpViol q (ptpSource m) (ptpPortNum m) 4 (modPeer q (ptpSource m) (ptpPortNum m) (fun y => y) s))) ∧
    completes (.delayReqSend q fine) s (fun t =>
      (ptpHears s q = false ∨ (∀ p, s.tim.parent = some p → p.1 ≠ q.val) → t = s) ∧
      (∀ id num, ptpHears s q = true → s.tim.parent = some (q.val, id, num) →
        (vget t.tim.ports q).reqSeq = ((vget s.tim.ports q).reqSeq + 1) % 65536 ∧
        (vget t.tim.ports q).req = some ((vget s.tim.ports q).reqSeq, ((s.time.tb0 + fine.val * 25000 : Nat) : Int)) ∧
        t.fhp.sent.length = s.fhp.sent.length + 1 ∧ changedOnly [.regs, .fhp, .tim] s t))

/-- SYNC_TIMEOUT takes a locked TB0 that is not a member's to HOLDOVER, or to FREERUN with HOLD_S of 0, with the interrupt; HOLD_S_EXPIRY
takes HOLDOVER to FREERUN with the interrupt; otherwise both are nothing. An Announce timeout leaves LOCKED and takes the parent away. A
two-step Sync without its Follow_Up is a violation of class 3, and it is nothing for a peer that waits for none. A quarantined peer with
10 s without a violation is released, and another is left. REARM below stage 2 or on a member is a refused write; else a new acquisition
begins. SNAPSHOT stores TB0, TB1 and TB3 in their registers. TB3_DECOUPLE holds TB3 where it is; TB3_RECOUPLE couples it with the
interrupt. A pop removes the oldest timestamp, CLEAR_OVF the overflow. An edge of PPS_IN is stored with its time and the interrupt, from
stage 1 on. PPS_OUT and TICK_OUT rise only when they are enabled and TB0 is locked. Host commands that the port does not serve are
nothing. -/
def Obligations.TimeEvents : Prop :=
  ∀ s : State,
    completes .syncTimeout s (fun t =>
      (s.tim.state ≠ .locked ∨ s.isMember = true → t = s) ∧
      (s.tim.state = .locked → s.isMember = false → t.tim.state = (if holdS s = 0 then .freerun else .holdover) ∧
        t.bit Reg.TIM_INT_STATUS 1 = true ∧ t.time = s.time)) ∧
    completes .holdSExpiry s (fun t =>
      (s.tim.state ≠ .holdover → t = s) ∧
      (s.tim.state = .holdover → t.tim.state = .freerun ∧ t.bit Reg.TIM_INT_STATUS 2 = true ∧ t.time = s.time)) ∧
    completes .announceTimeout s (fun t =>
      (s.tim.parent = none ∨ s.isMember = true ∨ s.tim.state = .unset → t = s) ∧
      (s.tim.parent ≠ none → s.isMember = false → s.tim.state ≠ .unset → t.tim.state ≠ .locked ∧ t.tim.parent ≠ s.tim.parent ∧
        t.time = s.time)) ∧
    (∀ (q : Fin 2) (id : BitVec 64) (num : BitVec 16),
      completes (.followUpTimeout q id num) s (fun t =>
        ((findPeer s q id.toNat num.toNat).bind (·.waitFollow) = none → t = s) ∧
        (∀ x n c u, findPeer s q id.toNat num.toNat = some x → x.waitFollow = some (n, c, u) →
          t = ptpViol q id.toNat num.toNat 3
            (modPeer q id.toNat num.toNat (fun y => { y with waitFollow := none, dropFollow := some n }) s))) ∧
      completes (.peerQuarRelease q id num) s (fun t =>
        (findPeer s q id.toNat num.toNat = none → t = s) ∧
        (∀ x, findPeer s q id.toNat num.toNat = some x →
          (x.quar = false ∨ (∃ v ∈ x.viols, s.time.tb1 < v + 10 * secTu) → t = s) ∧
          (x.quar = true → (∀ v ∈ x.viols, v + 10 * secTu ≤ s.time.tb1) →
            (findPeer t q id.toNat num.toNat).map (·.quar) = some false)))) ∧
    completes .rearm s (fun t =>
      (s.served Reg.TIM_CTRL = false → t = s) ∧
      (s.served Reg.TIM_CTRL = true → s.pwr.stage < 2 ∨ s.isMember = true → t = s.refusedWrite Reg.TIM_CTRL) ∧
      (s.served Reg.TIM_CTRL = true → 2 ≤ s.pwr.stage → s.isMember = false →
        t.tim.state = .acquiring ∧ t.tim.offsets = [] ∧ t.tim.stepDone = false ∧ t.tim.sync = none ∧
        t.tim.acqCount = satAdd 255 s.tim.acqCount 1 ∧ t.time = s.time)) ∧
    completes .snapshot s (fun t =>
      (s.served Reg.TIM_CTRL = false → t = s) ∧
      (s.served Reg.TIM_CTRL = true → t.reg (Reg.TIM_SNAP_S_HI 0) = BitVec.ofNat 32 (secOf s.time.tb0 / 2 ^ 32 % 65536) ∧
        t.reg (Reg.TIM_SNAP_S_LO 0) = BitVec.ofNat 32 (secOf s.time.tb0) ∧
        t.reg (Reg.TIM_SNAP_NS 0) = BitVec.ofNat 32 (nsOf s.time.tb0) ∧
        t.reg (Reg.TIM_SNAP_FRAC 0) = BitVec.ofNat 32 (fracOf s.time.tb0) ∧
        t.reg (Reg.TIM_SNAP_S_LO 1) = BitVec.ofNat 32 (secOf s.time.tb1) ∧ t.reg (Reg.TIM_SNAP_NS 1) = BitVec.ofNat 32 (nsOf s.time.tb1) ∧
        t.reg (Reg.TIM_SNAP_S_LO 3) = BitVec.ofNat 32 (secOf s.tb3) ∧ changedOnly [.regs] s t)) ∧
    completes .tb3Decouple s (fun t =>
      (s.served Reg.TIM_CTRL = false ∨ s.time.tb3coupled = false → t = s) ∧
      (s.served Reg.TIM_CTRL = true → t.time.tb3coupled = false ∧ t.time.tb0 = s.time.tb0 ∧ t.time.tb1 = s.time.tb1 ∧
        (s.time.tb3coupled = true → t.time.tb3off = 0) ∧ changedOnly [.time] s t)) ∧
    completes .tb3Recouple s (fun t =>
      (s.served Reg.TIM_CTRL = false → t = s) ∧
      (s.served Reg.TIM_CTRL = true → t.time = { s.time with tb3coupled := true, tb3off := 0 } ∧ t.bit Reg.TIM_INT_STATUS 9 = true ∧
        changedOnly [.time, .regs, .acq] s t)) ∧
    (∀ q : Fin 2,
      completes (.txtsPop q) s (fun t =>
        (s.served (Reg.TIM_TXTS_POP q) = false → t = s) ∧
        (s.served (Reg.TIM_TXTS_POP q) = true → (vget t.tim.ports q).txts = (vget s.tim.ports q).txts.drop 1 ∧
          (vget t.tim.ports q).ovf = (vget s.tim.ports q).ovf ∧ (vget t.tim.ports q).peers = (vget s.tim.ports q).peers ∧
          changedOnly [.tim] s t)) ∧
      completes (.clearOvf q) s (fun t =>
        (s.served (Reg.TIM_TXTS_POP q) = false → t = s) ∧
        (s.served (Reg.TIM_TXTS_POP q) = true → (vget t.tim.ports q).ovf = false ∧
          (vget t.tim.ports q).txts = (vget s.tim.ports q).txts ∧ (vget t.tim.ports q).peers = (vget s.tim.ports q).peers ∧
          changedOnly [.tim] s t))) ∧
    (∀ fine : Fin 16, completes (.ppsInEdge fine) s (fun t =>
      (s.pwr.stage = 0 → t = s) ∧
      (s.pwr.stage ≠ 0 → t.reg Reg.TIM_PPS_IN_S = BitVec.ofNat 32 (secOf (s.time.tb0 + fine.val * 25000)) ∧
        t.reg Reg.TIM_PPS_IN_NS = BitVec.ofNat 32 (nsOf (s.time.tb0 + fine.val * 25000)) ∧ t.bit Reg.TIM_INT_STATUS 8 = true ∧
        regsBut [Reg.TIM_PPS_IN_S, Reg.TIM_PPS_IN_NS, Reg.TIM_PPS_IN_ERR, Reg.TIM_INT_STATUS] s t ∧ changedOnly [.regs] s t))) ∧
    completes .ppsOut s (fun t =>
      (s.bit Reg.TIM_PPS_CFG 31 = false ∨ s.locked = false → t = s) ∧
      (s.bit Reg.TIM_PPS_CFG 31 = true → s.locked = true →
        t.tim = { s.tim with ppsUntil := some (s.time.tb0 + s.fld Reg.TIM_PPS_CFG 15 0 * usTu) } ∧ changedOnly [.tim] s t)) ∧
    completes .tickOut s (fun t =>
      (s.bit Reg.TIM_PPS_CFG 30 = false ∨ s.locked = false → t = s) ∧
      (s.bit Reg.TIM_PPS_CFG 30 = true → s.locked = true →
        t.tim = { s.tim with tickUntil := some (s.time.tb0 + usTu) } ∧ changedOnly [.tim] s t))

/-- A well-formed Delay_Resp of the device's domain, addressed to this port of the device, whose sequenceId is not that of the Delay_Req
that is outstanding (or with none outstanding) is counted and logged as a SEQUENCE violation (class 4) of the peer it names; the
Delay_Req that is outstanding stays. -/
def Obligations.DelayRespSequence : Prop :=
  ∀ (s : State) (q : Fin 2) (m : List Byte), ptpType m = 0x9 → ptpHears s q = true → 34 ≤ m.length → ptpMalformed m = false →
    byteAt m 4 = s.fld Reg.TIM_PTP_CFG 31 24 → be m 44 8 = ownIdentity s → be m 52 2 = q.val + 1 →
    (∀ x, (vget s.tim.ports q).req = some x → x.1 ≠ ptpSeq m) →
    completes (.delayRespRx q m) s (fun t =>
      t = ptpViol q (ptpSource m) (ptpPortNum m) 4 (modPeer q (ptpSource m) (ptpPortNum m) (fun x => x) s))

/-- A fold-link command whose frame has another TYPE or SUB is nothing, and so is a frame on a side out of L0, but for LANE on a port in
training or at fault. Every other frame is counted; on an isolated side one that is neither HELLO nor LANE does no more; a wrong length
or check word is a violation of class 1, a foreign one of class 2, and a payload outside its layout of class 3. A HELLO is kept as the
neighbour's. LANE has its lane event. TIME gives the lock flag of upstream and is answered with an ECHO; an ECHO that answers the last
TIME keeps its receive time, and another is only counted. DL_BLOCKS goes on downstream unchanged, and layers that nobody holds are left.
UL_SUMS adds its pairs to the device's own. STATUS goes on upstream, and at the bellwether is kept for a joined device. UL_PAIR_SEND is
nothing but on the last joined device; at a bellwether every served layer of the carrier with no block waiting gets two, the other
layers none, and a joined member sends one frame upstream. A pair that missed its hop time is substituted where it is needed and was not
covered, and one of a device outside a stack is nothing. -/
def Obligations.StackFrames : Prop :=
  ∀ (s : State) (side : Fin 2) (fine mis : Fin 16) (b : List Byte) (rx : List (List Cplx)) (m : UlMarks),
    (∀ c ∈ foldCommands side fine mis b rx m, completes c.2.2 s (fun t =>
      (c.1 ≠ 1 → foldType b ≠ c.1 → t = s) ∧
      (c.1 = 1 → 2 ≤ foldType b → foldType b ≤ 8 → t = s) ∧
      (c.1 = 6 → c.2.1 ≠ 1 → byteAt (foldPayload b) 0 ≠ c.2.1 → t = s) ∧
      (sideUp s side = false → c.1 ≠ 8 ∨ laneCrosses s side = false → t = s) ∧
      (foldType b = c.1 → (c.1 = 6 → byteAt (foldPayload b) 0 = c.2.1) → sideUp s side = true → sideIsolated s side = true →
        c.1 ≠ 1 → c.1 ≠ 8 → t = foldCounted side s) ∧
      (foldType b = c.1 → (c.1 = 6 → byteAt (foldPayload b) 0 = c.2.1) → sideUp s side = true →
        sideIsolated s side = false ∨ c.1 = 1 ∨ c.1 = 8 →
        (¬ foldWhole b → t = casViol side 1 (foldCounted side s)) ∧
        (foldWhole b → foldForeign s side b = true → t = casViol side 2 (foldCounted side s)) ∧
        (foldWhole b → foldForeign s side b = false → payloadOk s side b = false → t = casViol side 3 (foldCounted side s))))) ∧
    completes (.hello side b) s (fun t => foldPasses s side 1 b →
      (vget t.cas.nbrs side).hello = some [byteAt (foldPayload b) 0, byteAt (foldPayload b) 1, byteAt (foldPayload b) 2, byteAt (foldPayload b) 3,
        be (foldPayload b) 4 4, byteAt (foldPayload b) 8, byteAt (foldPayload b) 9, byteAt (foldPayload b) 10 % 16, foldStack b] ∧
      (vget t.cas.nbrs side).d = byteAt (foldPayload b) 1 % 8) ∧
    completes (.lane side b) s (fun t => foldPasses s side 8 b →
      t = laneEvent (sidePort side) (byteAt (foldPayload b) 0) (byteAt (foldPayload b) 1) (byteAt (foldPayload b) 2) (foldCounted side s)) ∧
    completes (.time side fine mis b) s (fun t => foldPasses s side 2 b →
      t.cas.upLocked = nbit (byteAt (foldPayload b) 48) 7 ∧ t.cas.timeRx.isSome = true ∧
      (nbit (byteAt (foldPayload b) 48) 6 = false → t.cas.stepAt = none)) ∧
    completes (.echo side fine b) s (fun t => foldPasses s side 3 b →
      (lastTimeSeq s = some (be (foldPayload b) 0 2) →
        t = (foldCounted side s).modCas (fun c => { c with echoT4 := s.time.tb0 + fine.val * 25000 })) ∧
      (lastTimeSeq s ≠ some (be (foldPayload b) 0 2) → t = foldCounted side s)) ∧
    completes (.dlBlocks side b) s (fun t => foldPasses s side 4 b →
      (sideUp s 1 = true → sideIsolated s 1 = false → side.val = 0 → t.cas.out = s.cas.out ++ [(1, b)]) ∧
      ((∀ l : Fin 32, s.holder false l = none) → t.fhp = s.fhp)) ∧
    completes (.ulSums side b rx m) s (fun t => foldPasses s side 5 b → ∀ c, s.carrier true (byteAt (foldPayload b) 0 % 4) = some c →
      t = ulPair (byteAt (foldPayload b) 0 % 4) (pairStart s c (foldPayload b)) (pairsOf (foldPayload b)) (byteAt (foldPayload b) 7)
        (be (foldPayload b) 12 4) rx m (foldCounted side s)) ∧
    completes (.status side b) s (fun t => foldPasses s side 7 b →
      (s.cas.role ≠ 1 → t = passOn 1 b (foldCounted side s)) ∧
      (s.cas.role = 1 → nbit s.cas.joined (foldSrc b) = true → nbit s.cas.joined (foldSrc b - 1) = true →
        t.cas.joined = s.cas.joined ∧ t.cas.statuses.head? = some (foldSrc b, foldPayload b))) ∧
    (∀ (ci : Fin 4) (start : Nat), completes (.ulPairSend ci start rx m) s (fun t =>
      (lastJoined s = false ∨ s.carrier true ci = none → t = s) ∧
      (isBellwether s = false → isStackMember s = false ∨ s.cas.selfJoined = false ∨ layersUp s ci = [] → t = s) ∧
      (lastJoined s = true → s.carrier true ci ≠ none → isBellwether s = true → t.cas = s.cas ∧
        ∀ l : Fin 32, (l.val ∉ layersUp s ci → vget t.fhp.ulPart l = vget s.fhp.ulPart l) ∧
          ∀ k f y c, l.val ∈ layersUp s ci → s.holder true l = some k → s.flockCfg k = some f → s.layer true l = some y →
            layerCarrier s true l = some c → (vget s.fhp.ulPart l).blocks = [] →
            (vget t.fhp.ulPart l).blocks.length = 2 ∧ (vget t.fhp.ulPart l).start = start) ∧
      (lastJoined s = true → s.carrier true ci ≠ none → isStackMember s = true → s.cas.selfJoined = true → layersUp s ci ≠ [] →
        sideUp s 0 = true → sideIsolated s 0 = false → t.cas.out.length = s.cas.out.length + 1 ∧ changedOnly [.regs, .fhp, .cas] s t))) ∧
    (∀ (x : MissedPair) (dropped : Bool), completes (.hopTimeMissed x dropped) s (fun t =>
      (s.cas.role = 0 → t = s) ∧
      (∀ (l : Fin 32) (air : Nat) (c : Carrier), x = .dl l air → layerCarrier s false l = some c →
        (isStackMember s = false ∨ s.cas.selfJoined = false ∨ neededAt s c air = false ∨ insideOf s.fhp.covered l air (air + 1) = true ∨
          insideOf s.fhp.subst l air (air + 1) = true → t = s) ∧
        (isStackMember s = true → s.cas.selfJoined = true → neededAt s c air = true → insideOf s.fhp.covered l air (air + 1) = false →
          insideOf s.fhp.subst l air (air + 1) = false →
          t.fhp.subst = addSpan s.time.tb0 l air (symbolAfter c air) s.fhp.subst ∧
          (absentReg s.fuse.order Reg.CAS_INT_STATUS = false → t.bit Reg.CAS_INT_STATUS 9 = true)))))

/-- A CONTROL frame goes on, and then: a SKEIN frame writes its skein on the device it names only; a SWAP of a slot that is not served is
nothing, and another leaves the slot with a pending request; BURST enters its schedule; SLOT enters its change; WARP stages its words;
COMMIT empties the staged words, and loads none unless it says so; VOTE counts only at the bellwether for the command that waits and a
device that has not voted, ends it when refused, and waits for the rest otherwise; REPORT counts only at the bellwether; LEVEL of the
level in force with no change is nothing; ISOLATE drops the devices beyond. A missing vote ends its command. TB2 is lost at its timeout.
A step of the stack happens once. ISOLATE_DOWN isolates a neighbour that is not isolated and drops what is beyond; REJOIN lifts it and
lets a detached device join. HELLO and TIME leave only through sides in L0. -/
def Obligations.StackCommands : Prop :=
  ∀ (s : State),
    (∀ (side : Fin 2) (b : List Byte),
      completes (.controlSkein side b) s (fun t => controlPasses s side 1 b →
        (foldDst b ≠ s.cas.d → t = passOn side b (foldCounted side s)) ∧
        (foldDst b = s.cas.d → t = skeinWriteBody (nbit (byteAt (controlPart (foldPayload b)) 0) 7) (controlPart (foldPayload b))
          (passOn side b (foldCounted side s)))) ∧
      completes (.controlSwap side b) s (fun t => controlPasses s side 2 b →
        ∀ (ul : Bool) (l : Fin 32), nbit (byteAt (controlPart (foldPayload b)) 0) 7 = ul → byteAt (controlPart (foldPayload b)) 0 % 32 = l.val →
          (s.holder ul l = none → t = passOn side b (foldCounted side s)) ∧
          (s.holder ul l ≠ none → (t.slot ul l).pend.isSome = true)) ∧
      completes (.controlBurst side b) s (fun t => controlPasses s side 3 b →
        t = controlBurst (be (foldPayload b) 2 2) (controlPart (foldPayload b)) (passOn side b (foldCounted side s))) ∧
      completes (.controlSlot side b) s (fun t => controlPasses s side 4 b →
        t.fhp.changes.getLast? = some { at_ := timeOfBe (controlPart (foldPayload b)) 4
                                        ul := nbit (byteAt (controlPart (foldPayload b)) 0) 7
                                        l := byteAt (controlPart (foldPayload b)) 0 % 32
                                        to_ := if byteAt (controlPart (foldPayload b)) 1 = 0xFF then none
                                          else some (byteAt (controlPart (foldPayload b)) 1) }) ∧
      completes (.controlWarp side b) s (fun t => controlPasses s side 5 b → be (controlPart (foldPayload b)) 0 2 = 0 →
        t.cas.warpBytes = (slice (controlPart (foldPayload b)) 4 (4 * be (controlPart (foldPayload b)) 2 2)).take 16384 ∧
        t.cas.warpOver = false ∧ t.wrp = s.wrp) ∧
      completes (.controlCommit side b) s (fun t => controlPasses s side 6 b → byteAt (controlPart (foldPayload b)) 0 ≠ 1 ∨ s.wrp.load.isSome →
        t.cas.warpBytes = [] ∧ t.cas.warpOver = false ∧ t.wrp = s.wrp) ∧
      completes (.controlVote side b) s (fun t => controlPasses s side 7 b →
        (s.cas.vote = none → s.cas.role = 1 → t = foldCounted side s) ∧
        (∀ on waiting, s.cas.vote = some (on, waiting) → s.cas.role = 1 →
          (byteAt (controlPart (foldPayload b)) 1 ≠ voteBlock on ∨ byteAt (controlPart (foldPayload b)) 0 ∉ waiting → t = foldCounted side s) ∧
          (byteAt (controlPart (foldPayload b)) 1 = voteBlock on → byteAt (controlPart (foldPayload b)) 0 ∈ waiting →
            (byteAt (controlPart (foldPayload b)) 2 = 0 → waiting.erase (byteAt (controlPart (foldPayload b)) 0) ≠ [] →
              t.cas.vote = some (on, waiting.erase (byteAt (controlPart (foldPayload b)) 0)) ∧ changedOnly [.regs, .cas] s t) ∧
            (∀ w, on = .group w → byteAt (controlPart (foldPayload b)) 2 ≠ 0 → t.cas.vote = none ∧ t.rad = s.rad ∧
              t.reg Reg.CAS_LAST_REFUSAL = pk [(24, byteAt (controlPart (foldPayload b)) 0), (16, 8), (8, byteAt (controlPart (foldPayload b)) 2)] ∧
              t.reg Reg.RAD_GROUP_RESULT = pk [(30, 2), (16, byteAt (controlPart (foldPayload b)) 2)])))) ∧
      completes (.controlReport side b) s (fun t => controlPasses s side 8 b →
        (s.cas.role ≠ 1 → t = passOn side b (foldCounted side s)) ∧ t.rad.groups = s.rad.groups) ∧
      completes (.controlLevel side b) s (fun t => controlPasses s side 9 b →
        byteAt (controlPart (foldPayload b)) 0 % 4 = s.pwr.level → s.pwr.change = none → t = passOn side b (foldCounted side s)) ∧
      completes (.controlIsolate side b) s (fun t => controlPasses s side 10 b →
        (s.cas.role ≠ 1 → t = passOn side b (foldCounted side s)) ∧
        (s.cas.role = 1 → t.cas.joined = s.cas.joined % 2 ^ (if byteAt (controlPart (foldPayload b)) 2 = 1
          then byteAt (controlPart (foldPayload b)) 0 + 1 else byteAt (controlPart (foldPayload b)) 0)))) ∧
    completes .voteTimeout s (fun t =>
      (s.cas.vote = none → t = s) ∧
      (∀ w d ds, s.cas.vote = some (.group w, d :: ds) → t.cas.vote = none ∧ t.rad = s.rad ∧
        t.reg Reg.CAS_LAST_REFUSAL = pk [(24, d), (16, 8), (8, noVote (.group w))] ∧ changedOnly [.regs, .cas] s t)) ∧
    completes .tb2Timeout s (fun t =>
      (s.cas.role ≠ 2 ∨ s.cas.tb2Set = false ∧ s.cas.selfJoined = false → t = s) ∧
      (s.cas.role = 2 → s.cas.tb2Set = true ∨ s.cas.selfJoined = true →
        t.cas.tb2Set = false ∧ t.cas.tb2Lock = false ∧ t.cas.timeRx = none ∧ t.cas.exch = [])) ∧
    completes .stackStep s (fun t =>
      (s.cas.stepAt = none → t = s) ∧
      (∀ a b, s.cas.stepAt = some (a, b) → t.cas.stepAt = none ∧ t.time.tb0 = ((s.time.tb0 : Int) + ((b : Int) - a)).toNat ∧
        t.time.tb1 = s.time.tb1 ∧ t.time.stepped = true ∧
        (s.cas.role = 1 → t.tim.stepDone = true ∧ t.tim.offsets = [] ∧ t.bit Reg.TIM_INT_STATUS 3 = true))) ∧
    completes .isolateDown s (fun t =>
      (s.served Reg.CAS_CTRL = false ∨ hasSide s 1 = false ∨ sideIsolated s 1 = true → t = s) ∧
      (s.served Reg.CAS_CTRL = true → hasSide s 1 = true → sideIsolated s 1 = false →
        (vget t.cas.nbrs 1).isolated = true ∧ (vget t.cas.nbrs 1).state = 3 ∧ vget t.cas.nbrs 0 = vget s.cas.nbrs 0 ∧
        (s.cas.role = 1 → t.cas.joined = s.cas.joined % 2 ^ (s.cas.d + 1)))) ∧
    completes .rejoin s (fun t =>
      (s.served Reg.CAS_CTRL = false → t = s) ∧
      (s.served Reg.CAS_CTRL = true → t.cas.mayRejoin = s.cas.detached ∧ changedOnly [.cas] s t ∧
        ((vget s.cas.nbrs 1).isolated = false → vget t.cas.nbrs 1 = vget s.cas.nbrs 1)) ∧
      (s.served Reg.CAS_CTRL = true → (vget s.cas.nbrs 1).isolated = true → (vget t.cas.nbrs 1).isolated = false ∧
        (vget t.cas.nbrs 1).state = 1 ∧ (vget t.cas.nbrs 1).viols = [])) ∧
    (∀ side : Fin 2, completes (.helloSend side) s (fun t =>
      (sideUp s side = false → t = s) ∧
      (sideUp s side = true → t.cas.out.length = s.cas.out.length + 1 ∧ changedOnly [.cas] s t))) ∧
    completes .timeSend s (fun t =>
      (sideUp s 1 = false ∨ s.cas.role ≠ 1 ∧ s.cas.tb2Set = false → t = s) ∧
      (sideUp s 1 = true → s.cas.role = 1 ∨ s.cas.tb2Set = true → t.cas.echoT4 = 0 ∧ changedOnly [.cas] s t ∧
        (sideIsolated s 1 = false → t.cas.out.length = s.cas.out.length + 1)))

/-- ARM, by host software through its register or by the drover, is refused with the first code of Table 13-5 that applies, with the
interrupt, and the stream goes on as it was; otherwise it waits for the end of its epoch behind the stream's other arms. FORCE of an
ARMED stream with no trigger point waiting captures from the next source sample, forced, with the pre-trigger entries there are up to
PRE. A trigger of an ARMED stream captures under its code: a waiting point of an event, the TB0 aim once it is reached, once per arm,
and a crossing of a watched sample; a crossing in hold-off or re-arm is missed, counted and flagged; in the other states it is nothing.
An edge of TRIG_IN that is not selected is nothing, and leaves every stream that follows neither it nor another stream. A segment ends
only while capturing: the sequence and SEG_DONE count, and the stream is DONE after its last one, and in hold-off or re-arm before.
Hold-off ends ARMED, event hold-off only after its events, and neither before the pause of R404. DISARM makes an active stream IDLE,
lets its receiver go and withdraws the requester's arms. A write of ACQ_MON_CFG that moves N of a chain in use keeps it and sets the
interrupt; one of a chain not in use is stored with N from 1 to 10, and restarts the chain when it moves N. -/
def Obligations.CaptureStreams : Prop :=
  ∀ s : State,
    (∀ (st : Fin 4) (drover : Bool), completes (.arm (st, drover)) s (fun t =>
      (drover = false → s.served (Reg.ACQ_STREAM_CTRL st) = false → t = s) ∧
      (drover = true ∨ s.served (Reg.ACQ_STREAM_CTRL st) = true → armCode s st ≠ 0 → t.bit Reg.ACQ_INT_STATUS 2 = true ∧
        changedOnly [.regs, .acq] s t ∧ vget t.acq.streams st = { vget s.acq.streams st with outcome := 2, code := armCode s st }) ∧
      (drover = true ∨ s.served (Reg.ACQ_STREAM_CTRL st) = true → armCode s st = 0 → changedOnly [.acq] s t ∧
        vget t.acq.streams st = { vget s.acq.streams st with
          asks := (vget s.acq.streams st).asks ++ [{ id := whoId drover, epoch := s.fhp.epoch }] }))) ∧
    (∀ (st : Fin 4) (g : Grid), completes (.force st g) s (fun t =>
      (s.served (Reg.ACQ_STREAM_CTRL st) = false → t = s) ∧
      ((vget s.acq.streams st).state ∉ [.armed, .holdoff, .rearm] → t = s) ∧
      (s.served (Reg.ACQ_STREAM_CTRL st) = true → (vget s.acq.streams st).state = .armed → (vget s.acq.streams st).points = [] →
        (vget t.acq.streams st).state = .capturing ∧ (vget t.acq.streams st).forced = true ∧ (vget t.acq.streams st).trigCode = 0 ∧
        (vget t.acq.streams st).point = g.time ∧ (vget t.acq.streams st).frac = 0 ∧
        (vget t.acq.streams st).preAct = min (preOf s st) (g.before / reduceOf s st) ∧ changedOnly [.regs, .acq] s t))) ∧
    (∀ (st : Fin 4) (g : Grid) (w : Watch), completes (.captureTrigger st (g, w)) s (fun t =>
      (trigSrc s st = 0 ∨ (trigSrc s st = 3 ∧ ((vget s.acq.streams st).tbFired = true ∨ s.time.tb0 < streamAim s st)) ∨
        (trigSrc s st ∈ [4, 5, 6] ∧ ((vget s.acq.streams st).state ≠ .armed ∨ (vget s.acq.streams st).points = [])) → t = s) ∧
      (∀ p, trigSrc s st ∈ [4, 5, 6] → (vget s.acq.streams st).state = .armed → firstPoint (vget s.acq.streams st) = some p →
        (vget t.acq.streams st).state = .capturing ∧ (vget t.acq.streams st).forced = false ∧
        (vget t.acq.streams st).trigCode = trigSrc s st ∧ (vget t.acq.streams st).point = p ∧ changedOnly [.regs, .acq] s t) ∧
      (trigSrc s st = 3 → (vget s.acq.streams st).state = .armed → (vget s.acq.streams st).tbFired = false →
        (vget s.acq.streams st).tbStepped = false → streamAim s st ≤ s.time.tb0 →
        (vget t.acq.streams st).state = .capturing ∧ (vget t.acq.streams st).trigCode = 3 ∧
        (vget t.acq.streams st).point = toTb3 s (streamAim s st) ∧ (vget t.acq.streams st).tbFired = true) ∧
      (∀ c, trigSrc s st = 1 → w.samples = [c] →
        (crosses (slopeOf s st) (threshOf s st) (vget s.acq.streams st) (trigQty s st c) = false →
          vget t.acq.streams st = watched (threshOf s st) (hystOf s st) (trigQty s st c) (vget s.acq.streams st) ∧ changedOnly [.acq] s t) ∧
        (crosses (slopeOf s st) (threshOf s st) (vget s.acq.streams st) (trigQty s st c) = true →
          ((vget s.acq.streams st).state = .armed → (vget t.acq.streams st).state = .capturing ∧ (vget t.acq.streams st).forced = false ∧
            (vget t.acq.streams st).trigCode = 1) ∧
          ((vget s.acq.streams st).state = .holdoff ∨ (vget s.acq.streams st).state = .rearm →
            (vget t.acq.streams st).missed = satAdd 0xFFFFFFFF (vget s.acq.streams st).missed 1 ∧
            (vget t.acq.streams st).state ≠ .capturing ∧ t.bit Reg.ACQ_INT_STATUS 3 = true ∧
            (t.reg (Reg.ACQ_MISSED st)).toNat = satAdd 0xFFFFFFFF (s.reg (Reg.ACQ_MISSED st)).toNat 1))))) ∧
    (∀ (rising : Bool) (at_ : Nat) (grids : List Grid), completes (.trigInEdge rising (at_, grids)) s (fun t =>
      (edgeSelected s rising = false → t = s) ∧
      (∀ st : Fin 4, trigSrc s st ≠ 4 → trigSrc s st ≠ 6 → vget t.acq.streams st = vget s.acq.streams st) ∧
      (∀ st : Fin 4, edgeSelected s rising = true → trigSrc s st = 4 → (vget s.acq.streams st).state = .armed →
        (vget t.acq.streams st).state = .capturing ∧ (vget t.acq.streams st).trigCode = 4))) ∧
    (∀ (st : Fin 4) (x : List Cplx) (k : SegMarks), completes (.segmentEnd st x k) s (fun t =>
      ((vget s.acq.streams st).state ≠ .capturing → t = s) ∧
      ((vget s.acq.streams st).state = .capturing → (vget t.acq.streams st).seq = satAdd 0xFFFFFFFF (vget s.acq.streams st).seq 1 ∧
        t.bit Reg.ACQ_INT_STATUS 0 = true ∧
        ((vget s.acq.streams st).seg + 1 < segCount s st ∨ s.bit (Reg.ACQ_STREAM_SRC st) 15 = true →
          (vget t.acq.streams st).seg = ((vget s.acq.streams st).seg + 1) % segCount s st ∧
          (vget t.acq.streams st).rest = restAfter s (segmentTu s st) ∧
          (vget t.acq.streams st).state = (if fld (s.reg (Reg.ACQ_STREAM_HOLD st)) 30 0 = 0 ∧ restAfter s (segmentTu s st) = 0 then .rearm
            else .holdoff)) ∧
        (segCount s st ≤ (vget s.acq.streams st).seg + 1 → s.bit (Reg.ACQ_STREAM_SRC st) 15 = false →
          (vget t.acq.streams st).state = .done ∧ t.bit Reg.ACQ_INT_STATUS 1 = true)))) ∧
    (∀ st : Fin 4, completes (.holdoffEnd st) s (fun t =>
      (vget t.acq.streams st).state = (if (vget s.acq.streams st).state = .rearm ∨
        ((vget s.acq.streams st).state = .holdoff ∧ holdoffOver s st (vget s.acq.streams st) = true) then .armed
        else (vget s.acq.streams st).state) ∧
      (∀ j : Fin 4, j ≠ st → vget t.acq.streams j = vget s.acq.streams j) ∧ changedOnly [.acq] s t)) ∧
    (∀ (st : Fin 4) (drover : Bool), completes (.disarm (st, drover)) s (fun t =>
      (drover = false → s.served (Reg.ACQ_STREAM_CTRL st) = false → t = s) ∧
      (drover = true ∨ s.served (Reg.ACQ_STREAM_CTRL st) = true → (∀ a ∈ (vget t.acq.streams st).asks, a.id ≠ whoId drover) ∧
        (streamActive s st = false → (vget t.acq.streams st).state = (vget s.acq.streams st).state ∧ changedOnly [.acq] s t) ∧
        (streamActive s st = true → (vget t.acq.streams st).state = .idle ∧
          (srcCode s st = 2 → srcIndex s st < 8 → (vget t.dpd.obs (srcIndex s st)).holder ≠ some (.capture st.val)))))) ∧
    (∀ (f : Fin 8) (w : Word), completes (.acqMonCfgWrite f w) s (fun t =>
      (s.served (Reg.ACQ_MON_CFG f) = false → t = s) ∧
      (s.served (Reg.ACQ_MON_CFG f) = true → changedOnly [.regs, .mon] s t ∧
        (monInUse s f = true → fld (s.reg (Reg.ACQ_MON_CFG f)) 31 28 ≠ clampN 1 10 (fld w 31 28) →
          t.mon = s.mon ∧ t.bit Reg.ACQ_INT_STATUS 6 = true ∧ monN t f = monN s f ∧
          t.fld (Reg.ACQ_MON_CFG f) 2 0 = s.fld (Reg.ACQ_MON_CFG f) 2 0 ∧ t.fld (Reg.ACQ_MON_CFG f) 27 21 = fld w 27 21) ∧
        (monInUse s f = false → monN t f = clampN 1 10 (fld w 31 28) ∧ t.fld (Reg.ACQ_MON_CFG f) 2 0 = fld w 2 0 ∧
          t.fld (Reg.ACQ_MON_CFG f) 27 21 = fld w 27 21 ∧ t.fld (Reg.ACQ_MON_CFG f) 20 3 = 0 ∧
          (fld (s.reg (Reg.ACQ_MON_CFG f)) 31 28 ≠ clampN 1 10 (fld w 31 28) →
            (vget t.mon f).running = true ∧ (vget t.mon f).gap = monFill (clampN 1 10 (fld w 31 28)) ∧
            (vget t.mon f).muI = (vget s.mon f).muI)))))

/-- Commands of the memory are nothing on a device without it or below stage 1. A training step that completes leads to the next; the last
one makes the memory READY with its lock free and the interrupt; a failed step is tried 3 times, and the third failure makes it FAILED
with a TRAIN_FAIL violation and the interrupt. Training closes every page; it starts from step 3 for a drifted memory that may retrain,
from step 1 for an untrained one after the firmware, and otherwise not. A drift of more than 16/64 UI asks for retraining as a
violation; less is kept only. MR4 sets its factor and, from 6, the derating; 7 sets its interrupt; the third reserved value in a row
acts as 6. A due refresh is postponed while requests wait, up to 8; one that is issued closes every page. A selected activate closes the
page of its bank and counts the neighbours that exist. The host lock is refused with the first code that applies, else taken; released
it frees the memory. RETRAIN starts training only for a FAILED memory with no lock. A rate request is kept and refused with the first
code that applies, or begins. A frequency change in place ends READY at its rate; one not granted in time is refused with code 6.
Patterns run only under the host lock, one at a time, and end with their errors; the pattern is written unless the run only compares or
the memory is FAILED. -/
def Obligations.CaptureMemory : Prop :=
  ∀ s : State,
    (hasDrc s = false → ∀ c ∈ [Instr.dramTrainingStepDone true, .dramTrainingStepDone false, .dqsCheck 0, .dramTrainingStart,
      .refreshDue true, .neighbourRefresh (0, 0), .mr4Read none, .patternDone [] 0, .freqChangeDone none, .freqLockTimeout],
      completes c s (fun t => t = s)) ∧
    (∀ ok : Bool, completes (.dramTrainingStepDone ok) s (fun t =>
      (hasDrc s = false ∨ s.drc.step = 0 → t = s) ∧
      (hasDrc s = true → s.drc.step ≠ 0 → ok = true →
        (s.drc.step < 6 → t = s.modDrc (fun d => { d with step := d.step + 1, tries := 0 })) ∧
        (6 ≤ s.drc.step → s.drc.state ≠ .freqChange → t.drc.state = .ready ∧ t.drc.step = 0 ∧ t.drc.lock = .free ∧
          t.drc.retrainNeeded = false ∧ t.drc.activeSet = s.drc.trainSet ∧ t.bit Reg.DRC_INT_STATUS 3 = true)) ∧
      (hasDrc s = true → s.drc.step ≠ 0 → ok = false → t.drc.failed = satAdd 0xFF s.drc.failed 1 ∧
        (s.drc.tries + 1 < 3 → t.drc.tries = s.drc.tries + 1 ∧ t.drc.state = s.drc.state ∧ t.drc.step = s.drc.step ∧ changedOnly [.drc] s t) ∧
        (3 ≤ s.drc.tries + 1 → t.drc.state = .failed ∧ t.drc.step = 0 ∧ t.drc.lock = .free ∧ t.drc.freq = none ∧
          t.bit Reg.DRC_INT_STATUS 5 = true ∧ t.bit Reg.DRC_INT_STATUS 0 = true)))) ∧
    completes .dramTrainingStart s (fun t =>
      (hasDrc s = true → mayRetrain s = true → t.drc.state = .training ∧ t.drc.step = 3 ∧ t.drc.trainSet = s.drc.activeSet ∧
        t.drc.lock = .drover ∧ t.drc.pages = [] ∧ changedOnly [.drc] s t) ∧
      (hasDrc s = true → mayRetrain s = false → s.pwr.fwOk = true → dramGiB s ≠ 0 → s.drc.lock = .free → s.drc.state = .untrained →
        t.drc.state = .training ∧ t.drc.step = 1 ∧ t.drc.trainSet = 0 ∧ vget t.drc.setRate 0 = bootRate s ∧ t.drc.asked = true) ∧
      (mayRetrain s = false → s.pwr.fwOk = false ∨ dramGiB s = 0 ∨ s.drc.lock ≠ .free ∨
        (s.drc.state ≠ .untrained ∧ s.drc.state ≠ .failed) → t = s)) ∧
    (∀ d : Int, completes (.dqsCheck d) s (fun t =>
      (hasDrc s = false ∨ s.drc.state ≠ .ready → t = s) ∧
      (hasDrc s = true → s.drc.state = .ready → t.drc.dqs = d ∧
        (d.natAbs ≤ 16 → t.drc = { s.drc with dqs := d } ∧ changedOnly [.drc] s t) ∧
        (16 < d.natAbs → t.drc.retrainNeeded = true ∧ t.bit Reg.DRC_INT_STATUS 0 = true ∧
          (s.drc.lock ≠ .free → t.drc.state = .ready))))) ∧
    (∀ v : Option (Fin 8), completes (.mr4Read v) s (fun t =>
      (dramAnswers s = false → t = s) ∧
      (∀ x, v = some x → dramAnswers s = true → t.drc.mr4 = x.val ∧ t.drc.factor = mr4Factor x.val ∧ t.drc.mrBad = 0 ∧
        t.drc.derate = decide (6 ≤ x.val) ∧ (x.val = 7 → t.bit Reg.DRC_INT_STATUS 4 = true) ∧ t.drc.state = s.drc.state) ∧
      (v = none → dramAnswers s = true → t.bit Reg.DRC_INT_STATUS 0 = true ∧
        (s.drc.mrBad + 1 < 3 → t.drc = { s.drc with mrBad := s.drc.mrBad + 1 }) ∧
        (3 ≤ s.drc.mrBad + 1 → t.drc.mr4 = 6 ∧ t.drc.factor = 2 ∧ t.drc.mrBad = 0 ∧ t.drc.derate = true)))) ∧
    (∀ waiting : Bool, completes (.refreshDue waiting) s (fun t =>
      (hasDrc s = false ∨ s.drc.state ≠ .ready → t = s) ∧
      (hasDrc s = true → s.drc.state = .ready → changedOnly [.drc] s t ∧ t.drc.owed =
        (if s.drc.flush = true ∨ waiting = false then 0 else if s.drc.owed < 8 then s.drc.owed + 1 else s.drc.owed) ∧
        t.drc.pages = (if s.drc.flush = false ∧ waiting = true ∧ s.drc.owed < 8 then s.drc.pages else [])))) ∧
    (∀ (bank : Fin 16) (row : Nat), completes (.neighbourRefresh (bank, row)) s (fun t =>
      (hasDrc s = false ∨ s.drc.state ≠ .ready ∨ s.fld Reg.DRC_REF_CFG 3 0 = 0 ∨ dramRows s ≤ row → t = s) ∧
      (hasDrc s = true → s.drc.state = .ready → s.fld Reg.DRC_REF_CFG 3 0 ≠ 0 → 2 ≤ row → row + 2 < dramRows s →
        (t.reg Reg.DRC_NR_COUNT).toNat =
          satAdd 0xFFFFFFFF (s.reg Reg.DRC_NR_COUNT).toNat (if s.bit Reg.DRC_REF_CFG 8 then 4 else 2) ∧
        tget (fun _ => 0) t.drc.pages bank ≠ row + 1 ∧ regsBut [Reg.DRC_NR_COUNT] s t ∧ changedOnly [.regs, .drc] s t))) ∧
    (∀ on : Bool, completes (.hostTrainLock on) s (fun t =>
      (s.served Reg.DRC_TRAIN_LOCK = false → t = s) ∧
      (s.served Reg.DRC_TRAIN_LOCK = true → on = true →
        (s.drc.lock = .drover → t = lockOutcome 2 1 s) ∧
        (s.drc.lock ≠ .drover → streamsQuiet s = false → t = lockOutcome 2 2 s) ∧
        (s.drc.lock ≠ .drover → streamsQuiet s = true → s.drc.state ≠ .ready → s.drc.state ≠ .failed → t = lockOutcome 2 3 s) ∧
        (s.drc.lock ≠ .drover → streamsQuiet s = true → s.drc.state = .ready ∨ s.drc.state = .failed →
          t.drc = { s.drc with lock := .host } ∧ t.fld Reg.DRC_TRAIN_LOCK 31 30 = 1)) ∧
      (s.served Reg.DRC_TRAIN_LOCK = true → on = false →
        (s.drc.lock ≠ .host → t = s) ∧
        (s.drc.lock = .host → s.drc.freq = none → t.drc = { s.drc with lock := .free }) ∧
        (s.drc.lock = .host → s.drc.freq ≠ none → t.drc.lock = .freq ∧ t.drc.state = .freqChange ∧ t.drc.owed = 0)))) ∧
    completes .drcRetrain s (fun t =>
      (s.served Reg.DRC_TRAIN_LOCK = false ∨ s.drc.state ≠ .failed ∨ s.drc.lock ≠ .free ∨ dramGiB s = 0 → t = s) ∧
      (s.served Reg.DRC_TRAIN_LOCK = true → s.drc.state = .failed → s.drc.lock = .free → dramGiB s ≠ 0 →
        t.drc.state = .training ∧ t.drc.step = 1 ∧ t.drc.trainSet = 0 ∧ t.drc.lock = .drover ∧ changedOnly [.drc] s t)) ∧
    (∀ r : Fin 8, completes (.drcFreqReq r) s (fun t =>
      (s.served Reg.DRC_FREQ_REQ = false → t = s) ∧
      (s.served Reg.DRC_FREQ_REQ = true → t.reg Reg.DRC_FREQ_REQ = BitVec.ofNat 32 r.val ∧
        (4 < r.val ∨ (dramRuns s = true ∧ r.val = s.drc.rate) → t.fld Reg.DRC_FREQ_RESULT 31 30 = 2 ∧ t.fld Reg.DRC_FREQ_RESULT 23 16 = 1 ∧
          t.drc = s.drc) ∧
        (r.val ≤ 4 → r.val ≠ s.drc.rate → s.drc.state ≠ .ready → t.fld Reg.DRC_FREQ_RESULT 31 30 = 2 ∧
          t.fld Reg.DRC_FREQ_RESULT 23 16 = 2 ∧ t.drc = s.drc) ∧
        (r.val ≤ 4 → r.val ≠ s.drc.rate → s.drc.state = .ready → s.drc.freq = none → overBudget s r = false →
          rateUntrained s r = false ∨ streamsQuiet s = true → t.fld Reg.DRC_FREQ_RESULT 31 30 = 3 ∧ (t.drc.freq.map (·.rate)) = some r.val ∧
          (s.drc.lock = .free → t.drc.lock = .freq ∧ t.drc.state = .freqChange) ∧
          (s.drc.lock ≠ .free → t.drc.lock = s.drc.lock ∧ t.drc.state = .ready))))) ∧
    (∀ v : Option (Fin 8), completes (.freqChangeDone v) s (fun t =>
      (hasDrc s = false ∨ s.drc.freq = none ∨ s.drc.step ≠ 0 → t = s) ∧
      (∀ q, hasDrc s = true → s.drc.freq = some q → q.granted = true → s.drc.step = 0 →
        t.drc.state = .ready ∧ t.drc.lock = .free ∧ t.drc.rate = q.rate ∧ t.drc.activeSet = q.set ∧ t.drc.freq = none ∧
        t.fld Reg.DRC_FREQ_RESULT 31 30 = 1 ∧ t.bit Reg.DRC_INT_STATUS 1 = true))) ∧
    completes .freqLockTimeout s (fun t =>
      (hasDrc s = false ∨ s.drc.freq = none ∨ (∀ q, s.drc.freq = some q → q.granted = true) → t = s) ∧
      (∀ q, hasDrc s = true → s.drc.freq = some q → q.granted = false → t.drc = { s.drc with freq := none } ∧
        t.fld Reg.DRC_FREQ_RESULT 31 30 = 2 ∧ t.fld Reg.DRC_FREQ_RESULT 23 16 = 6 ∧ t.bit Reg.DRC_INT_STATUS 2 = true)) ∧
    (∀ w : Word, completes (.drcPatGo w) s (fun t =>
      (s.served Reg.DRC_PAT_CTRL = false ∨ bitOf w 0 = false → t = s) ∧
      (s.served Reg.DRC_PAT_CTRL = true → bitOf w 0 = true →
        (s.drc.lock ≠ .host → t = s.refusedWrite Reg.DRC_PAT_CTRL) ∧
        (s.drc.lock = .host → s.drc.pat.isSome → t = s) ∧
        (s.drc.lock = .host → s.drc.pat = none → t.drc.pat.isSome = true ∧ t.drc.patDone = false ∧ changedOnly [.drc] s t)))) ∧
    (∀ (noise : List Byte) (from_ : Nat), completes (.patternDone noise from_) s (fun t =>
      (hasDrc s = false ∨ s.drc.pat = none → t = s) ∧
      (∀ q, hasDrc s = true → s.drc.pat = some q → t.drc.pat = none ∧ t.drc.patDone = true ∧ t.bit Reg.DRC_INT_STATUS 6 = true ∧
        (q.compareOnly = true → t.drc.mem = s.drc.mem) ∧
        (s.drc.state = .failed → t.drc.mem = s.drc.mem) ∧
        (q.compareOnly = false → s.drc.state ≠ .failed → t.drc.mem = mwrite blank s.drc.mem (q.base * 64) (patBytes s q)) ∧
        (patDiffs noise from_ (q.base * 64) (patBytes s q) (dramBytes t (q.base * 64) (patBytes s q).length) = [] →
          t.reg Reg.DRC_PAT_FIRST_ERR = 0))))

/-- An instruction of a channel that does not run, or that pauses after a MOVE at T1, is nothing; an undefined OP faults BAD_OP whatever
instruction comes, another OP is nothing, and a slot outside its layout faults BAD_OP. A MOVE that fails a check faults with the first
code; it waits while capture memory does not serve; otherwise it counts its bytes and the channel goes on, and a contiguous MOVE within
capture memory leaves at its destination what stood at its source. LOOP counts down and jumps with its offsets, or goes on with its
counter empty. WAIT makes the channel wait unless its event is pending; a POLL of a register that may not be polled faults 2. A delay's
expiry ends a delay, a limit's expiry faults 6, a POLL ends when the value fits. SIGNAL and END verify the last write: they wait for
capture memory, fault VERIFY on a mismatch, or set SIGNAL and go on, or end the channel with its interrupt. START of an active channel
is a refused write; else the channel runs from its start slot. ABORT makes it IDLE. PAUSE stops it and its clearing resumes it. DOORBELL
runs an ended channel whose slot is no longer END. A program word is stored. -/
def Obligations.DmaChannels : Prop :=
  ∀ (s : State) (c : Fin 16),
    (∀ noise : Word, ∀ x ∈ [(1, Instr.move c), (2, .loop c), (3, .wait c), (4, .signal c noise), (0, .end_ c noise)], completes x.2 s (fun t =>
      (¬ fetches s c → t = s) ∧
      (fetches s c →
        (5 ≤ slotOp s (channel s c).pc → t = chFault c 1 s) ∧
        (slotOp s (channel s c).pc < 5 → slotOp s (channel s c).pc ≠ x.1 → t = s) ∧
        (slotOp s (channel s c).pc = x.1 → slotGood s (channel s c).pc = false →
          channel t c = { channel s c with state := .faulted, fault := 1 } ∧ t.bit Reg.DMA_INT_FAULT c = true)))) ∧
    completes (.move c) s (fun t => fetches s c → slotOp s (channel s c).pc = 1 → slotGood s (channel s c).pc = true →
      (moveFault s (moveArgs s c) ≠ 0 → t = chFault c (moveFault s (moveArgs s c)) s) ∧
      (moveFault s (moveArgs s c) = 0 →
        ((moveArgs s c).ssp = 0 ∨ (moveArgs s c).dsp = 0 → dramWaits s = true → t = s) ∧
        ((moveArgs s c).ssp ≠ 0 ∧ (moveArgs s c).dsp ≠ 0 ∨ dramWaits s = false →
          (channel t c).pc = nextSlot (channel s c).pc ∧ (channel t c).state = .running ∧ (channel t c).remain = 0 ∧
          (channel t c).rest = restAfter s (s.time.tb1 - (channel s c).began) ∧
          (t.reg (Reg.DMA_CH_BYTES c)).toNat =
            satAdd 0xFFFFFFFF (s.reg (Reg.DMA_CH_BYTES c)).toNat ((moveArgs s c).rows * (moveArgs s c).len) ∧
          ((moveArgs s c).ssp = 0 → (moveArgs s c).dsp = 0 → (moveArgs s c).strided = false →
            mread blank t.drc.mem (moveArgs s c).dst.toNat (moveArgs s c).len =
              mread blank s.drc.mem (moveArgs s c).src.toNat (moveArgs s c).len)))) ∧
    completes (.loop c) s (fun t => fetches s c → slotOp s (channel s c).pc = 2 → slotGood s (channel s c).pc = true →
      ∀ n, (if bitOf (slotWord s (channel s c).pc 0) 16 then (channel s c).ctr1 else (channel s c).ctr0).getD
        (fld (slotWord s (channel s c).pc 0) 14 0) = n →
        (channel t c).pc = (if n = 0 then nextSlot (channel s c).pc else fld (slotWord s (channel s c).pc 1) 8 0) ∧
        (channel t c).soff = (if n = 0 then (channel s c).soff else addOff (channel s c).soff (slotWord s (channel s c).pc 2)) ∧
        (channel t c).doff = (if n = 0 then (channel s c).doff else addOff (channel s c).doff (slotWord s (channel s c).pc 3)) ∧
        (if bitOf (slotWord s (channel s c).pc 0) 16 then (channel t c).ctr1 else (channel t c).ctr0) =
          (if n = 0 then none else some (n - 1)) ∧ changedOnly [.dma] s t) ∧
    completes (.wait c) s (fun t => fetches s c → slotOp s (channel s c).pc = 3 → slotGood s (channel s c).pc = true →
      (fld (slotWord s (channel s c).pc 0) 25 24 = 2 → pollable (slotWord s (channel s c).pc 1).toNat = false → t = chFault c 2 s) ∧
      (fld (slotWord s (channel s c).pc 0) 25 24 = 0 ∨
        (fld (slotWord s (channel s c).pc 0) 25 24 = 2 ∧ pollable (slotWord s (channel s c).pc 1).toNat = true) →
        (channel t c).state = .waiting ∧ (channel t c).pc = (channel s c).pc ∧ (channel t c).cond = fld (slotWord s (channel s c).pc 0) 25 24) ∧
      (fld (slotWord s (channel s c).pc 0) 25 24 = 1 →
        (nbit (channel s c).events (slotWord s (channel s c).pc 1).toNat = false →
          (channel t c).state = .waiting ∧ (channel t c).arg = (slotWord s (channel s c).pc 1).toNat) ∧
        (nbit (channel s c).events (slotWord s (channel s c).pc 1).toNat = true →
          (channel t c).state = .running ∧ (channel t c).pc = nextSlot (channel s c).pc ∧
          (channel t c).events = (channel s c).events - 2 ^ (slotWord s (channel s c).pc 1).toNat))) ∧
    completes (.waitTimeout c) s (fun t => if (channel s c).state = .waiting ∧ (channel s c).cond ≠ 0 ∧ (channel s c).timeout ≠ 0
      then channel t c = { channel s c with state := .faulted, fault := 6 } ∧ t.bit Reg.DMA_INT_FAULT c = true else t = s) ∧
    completes (.waitDelayExpiry c) s (fun t => if (channel s c).state = .waiting ∧ (channel s c).cond = 0
      then channel t c = { channel s c with state := .running, pc := nextSlot (channel s c).pc, began := s.time.tb1 } ∧ changedOnly [.dma] s t else t = s) ∧
    completes (.waitPollRead c) s (fun t =>
      ((channel s c).state ≠ .waiting ∨ (channel s c).cond ≠ 2 → t = s) ∧
      ((channel s c).state = .waiting → (channel s c).cond = 2 → channel t c =
        (if readReg s (channel s c).arg &&& (channel s c).mask = (channel s c).value
          then { channel s c with state := .running, pc := nextSlot (channel s c).pc, began := s.time.tb1 } else channel s c))) ∧
    (∀ noise : Word, completes (.signal c noise) s (fun t =>
      fetches s c → slotOp s (channel s c).pc = 4 → slotGood s (channel s c).pc = true →
      (backInDram c s = true → dramWaits s = true → t = s) ∧
      (backInDram c s = false ∨ dramWaits s = false →
        (readBack c noise s = false → (channel t c).state = .faulted ∧ (channel t c).fault = 8) ∧
        (readBack c noise s = true → (channel t c).state = .running ∧ (channel t c).pc = nextSlot (channel s c).pc ∧
          (channel t c).wrote = none ∧ (channel t c).signal = fld (slotWord s (channel s c).pc 0) 15 0 ∧
          (bitOf (slotWord s (channel s c).pc 0) 16 = true → t.bit Reg.DMA_INT_STATUS (16 + c.val) = true))))) ∧
    (∀ noise : Word, completes (.end_ c noise) s (fun t =>
      fetches s c → slotOp s (channel s c).pc = 0 →
      (backInDram c s = true → dramWaits s = true → t = s) ∧
      (backInDram c s = false ∨ dramWaits s = false →
        (readBack c noise s = false → (channel t c).state = .faulted ∧ (channel t c).fault = 8 ∧ t.bit Reg.DMA_INT_FAULT c = true) ∧
        (readBack c noise s = true → channel t c = { channel s c with state := .ended, wrote := none } ∧
          t.bit Reg.DMA_INT_STATUS c = true ∧ changedOnly [.regs, .dma, .drc] s t ∧
          (backInDram c s = false → changedOnly [.regs, .dma] s t))))) ∧
    completes (.start c) s (fun t =>
      (s.served (Reg.DMA_CH_CTRL c) = false → t = s) ∧
      (s.served (Reg.DMA_CH_CTRL c) = true →
        ((channel s c).state ∈ [.running, .waiting, .paused] → t = s.refusedWrite (Reg.DMA_CH_CTRL c)) ∧
        ((channel s c).state ∉ [.running, .waiting, .paused] → (channel t c).state = .running ∧
          (channel t c).pc = s.fld (Reg.DMA_CH_START c) 8 0 ∧ (channel t c).fault = 0 ∧ (channel t c).soff = 0 ∧ (channel t c).doff = 0 ∧
          (channel t c).ctr0 = none ∧ (channel t c).ctr1 = none ∧ (channel t c).events = 0 ∧ (channel t c).wrote = none ∧
          changedOnly [.dma] s t))) ∧
    completes (.abort c) s (fun t => if s.served (Reg.DMA_CH_CTRL c) = true
      then channel t c = { channel s c with state := .idle } ∧ changedOnly [.dma] s t else t = s) ∧
    (∀ on : Bool, completes (.pause c on) s (fun t =>
      (s.served (Reg.DMA_CH_CTRL c) = false → t = s) ∧
      (s.served (Reg.DMA_CH_CTRL c) = true → t.bit (Reg.DMA_CH_CTRL c) 31 = on ∧ changedOnly [.regs, .dma] s t ∧
        (on = true → channel t c = (if (channel s c).state = .running ∨ (channel s c).state = .waiting
          then { channel s c with state := .paused, resume := (channel s c).state } else channel s c)) ∧
        (on = false → (channel s c).state ≠ .paused → channel t c = channel s c) ∧
        (on = false → (channel s c).state = .paused → (channel s c).resume = .running →
          channel t c = { channel s c with state := .running })))) ∧
    completes (.doorbell c) s (fun t => if s.served (Reg.DMA_CH_CTRL c) = true ∧ (channel s c).state = .ended ∧ slotOp s (channel s c).pc ≠ 0
      then channel t c = { channel s c with state := .running, began := s.time.tb1 } ∧ changedOnly [.dma] s t else t = s) ∧
    (∀ (n : Fin 512) (i : Fin 8) (w : Word), completes (.dmaProgramWrite n i w) s (fun t =>
      (s.served (0x00112000 + 32 * n + 4 * i) = false → t = s) ∧
      (s.served (0x00112000 + 32 * n + 4 * i) = true → slotWord t n i = w ∧ t.dma.chans = s.dma.chans ∧ t.dma.window = s.dma.window ∧
        (∀ (m : Fin 512) (j : Fin 8), m ≠ n ∨ j ≠ i → slotWord t m j = slotWord s m j) ∧ changedOnly [.dma] s t)))

/-- A conversion at stage 0 or in Off is nothing. Otherwise the running conversion of a channel below 160 leaves its code in HKA_RESULT of
its channel, and none runs then; an urgent one leaves its request and its code in HKA_URGENT_RESULT, with the interrupt; a supervision
one whose channel is not queued, with the references good, enters no queue and is the last of the sequence. A trigger of the list is
nothing out of triggered mode, begins a pass when none runs or waits and the list names a channel, waits when one runs, and is counted
as an overrun when one waits already. The timer triggers only from stage 1 on with TIMER_EN. HKA_URGENT without GO is nothing, on a full
FIFO a refused write, and else the last of its FIFO; it aborts a conversion that is not urgent. A pop removes the oldest result. -/
def Obligations.HousekeepingConverter : Prop :=
  ∀ s : State,
    (∀ (code : BitVec 16) (past : Bool), completes (.hkaConversionDone code past) s (fun t =>
      (s.pwr.stage = 0 ∨ s.pwr.off = true → t = s) ∧
      (s.pwr.stage ≠ 0 → s.pwr.off = false → t.hka.run = none ∧
        ((running s).ch < 160 → t.fld (Reg.HKA_RESULT (running s).ch) 15 0 = code.toNat) ∧
        ((running s).from_ = .urgent → t.hka.urgent = s.hka.urgent.drop 1 ∧ t.fld Reg.HKA_URGENT_RESULT 15 0 = code.toNat ∧
          t.bit Reg.HKA_INT_STATUS 4 = true ∧ t.hka.seq = (s.hka.seq + 1) % 32) ∧
        ((running s).from_ = .supervision → t.hka.lastSup = (running s).ch ∧ t.hka.supLast = true ∧
          (queuedChannel s (running s).ch = false → s.hka.refFail = false →
            t.hka.queue = s.hka.queue ∧ t.hka.seq = s.hka.seq))))) ∧
    completes .scan s (fun t =>
      (s.served Reg.HKA_TRIG = false ∨ hkaTriggered s = false → t = s) ∧
      (s.served Reg.HKA_TRIG = true → hkaTriggered s = true →
        (s.hka.passActive = false → s.hka.passPending = false → scanFrom s 0 = none → t = s) ∧
        (s.hka.passActive = false → s.hka.passPending = false → scanFrom s 0 ≠ none →
          t.hka = { s.hka with passActive := true, pos := 0 } ∧ changedOnly [.hka] s t) ∧
        (s.hka.passActive = true → s.hka.passPending = false → t.hka = { s.hka with passPending := true } ∧ changedOnly [.hka] s t) ∧
        (s.hka.passPending = true → t.hka = s.hka ∧ t.bit Reg.HKA_INT_STATUS 3 = true ∧
          t.fld Reg.HKA_COUNT 31 16 = satAdd 0xFFFF (s.fld Reg.HKA_COUNT 31 16) 1))) ∧
    completes .hkaTimerTick s (fun t =>
      (s.pwr.stage = 0 ∨ s.bit Reg.HKA_CFG 30 = false → t = s) ∧
      (s.pwr.stage ≠ 0 → s.bit Reg.HKA_CFG 30 = true → t = scanTrigger s)) ∧
    (∀ w : Word, completes (.hkaUrgent w) s (fun t =>
      (s.served Reg.HKA_URGENT = false ∨ bitOf w 31 = false → t = s) ∧
      (s.served Reg.HKA_URGENT = true → bitOf w 31 = true →
        (4 ≤ s.hka.urgent.length → t = s.refusedWrite Reg.HKA_URGENT) ∧
        (s.hka.urgent.length < 4 → t.hka.urgent = s.hka.urgent ++ [fld w 7 0] ∧ changedOnly [.hka] s t ∧
          ((running s).from_ ≠ .urgent → t.hka.aborted = some (running s) ∧ t.hka.run = none) ∧
          ((running s).from_ = .urgent → t.hka.aborted = s.hka.aborted ∧ t.hka.run = s.hka.run))))) ∧
    completes .hkaQueuePop s (fun t =>
      (s.served Reg.HKA_QUEUE_POP = false → t = s) ∧
      (s.served Reg.HKA_QUEUE_POP = true → t.hka = { s.hka with queue := s.hka.queue.drop 1 } ∧ changedOnly [.hka] s t))

/-- A load puts every loadable output of its groups at its input register within its limits and out of safe bias, and leaves every other
output. A write of BDA_LOAD without GO is nothing; a timed one is refused with the interrupt unless TB0 is locked and its time lies
within 2 s ahead, and else waits for its groups. The air time of a group with no timed load is nothing; with one it loads the group,
with the interrupt. A write of BDA_CODE keeps the code, and loads the output only with WRITE_THROUGH. RELEASE_SAFE is nothing while a
cause is present or without a valid record; else it ends safe bias and loads every enabled output that is not faulted. The clear of a
fault takes the cause of its output only, which stays at safe bias until its next load; CLEAR_ALL_FAULTS does so for every output. -/
def Obligations.BiasOutputs : Prop :=
  ∀ s : State,
    (∀ w : Word, completes (.bdaLoad w) s (fun t =>
      (s.served Reg.BDA_LOAD = false ∨ bitOf w 31 = false → t = s) ∧
      (s.served Reg.BDA_LOAD = true → bitOf w 31 = true → bitOf w 30 = false → ∀ n : Fin 72,
        (loadable s n = true → bitOf w 9 = true ∨ bitOf w (n.val / 8) = true → loadedOut s t n) ∧
        (loadable s n = false ∨ (bitOf w 9 = false ∧ bitOf w (n.val / 8) = false) → vget t.bda.outs n = vget s.bda.outs n)) ∧
      (s.served Reg.BDA_LOAD = true → bitOf w 31 = true → bitOf w 30 = true → ∀ aim,
        aim = timeNear s.time.tb0 (s.reg Reg.BDA_LOAD_TIME_S).toNat (s.reg Reg.BDA_LOAD_TIME_NS).toNat →
        t.bda.outs = s.bda.outs ∧
        (s.locked = false ∨ aim ≤ s.time.tb0 ∨ s.time.tb0 + 2 * secTu < aim → t = s.raise Reg.BDA_INT_STATUS 5) ∧
        (s.locked = true → s.time.tb0 < aim → aim ≤ s.time.tb0 + 2 * secTu → changedOnly [.bda] s t ∧ ∀ g : Fin 9,
          vget t.bda.timed g = (if bitOf w 9 = true ∨ bitOf w g = true then some aim else vget s.bda.timed g))))) ∧
    (∀ g : Fin 9, completes (.timedBiasLoad g) s (fun t =>
      (vget s.bda.timed g = none → t = s) ∧
      (vget s.bda.timed g ≠ none → vget t.bda.timed g = none ∧ t.bit Reg.BDA_INT_STATUS 1 = true ∧ changedOnly [.regs, .bda] s t ∧
        ∀ n : Fin 72, (n.val / 8 = g.val → loadable s n = true → loadedOut s t n) ∧
          (n.val / 8 ≠ g.val ∨ loadable s n = false → vget t.bda.outs n = vget s.bda.outs n)))) ∧
    (∀ (n : Fin 72) (code : BitVec 16), completes (.bdaCodeWrite n code) s (fun t =>
      (s.served (Reg.BDA_CODE n) = false → t = s) ∧
      (s.served (Reg.BDA_CODE n) = true → t.reg (Reg.BDA_CODE n) = code.setWidth 32 ∧ changedOnly [.regs, .bda] s t ∧
        (∀ m : Fin 72, m ≠ n → vget t.bda.outs m = vget s.bda.outs m) ∧
        (s.bit (Reg.BDA_OUT_CFG n) 4 = false ∨ loadable s n = false → t.bda = s.bda) ∧
        (s.bit (Reg.BDA_OUT_CFG n) 4 = true → loadable s n = true →
          (vget t.bda.outs n).code = clampN (vget s.warp.bias n).vmin (vget s.warp.bias n).vmax code.toNat ∧
          (vget t.bda.outs n).safe = false)))) ∧
    completes .releaseSafe s (fun t =>
      (s.served Reg.BDA_CTRL = false ∨ safeCausePresent s = true ∨ s.bda.recordOk = false → t = s) ∧
      (s.served Reg.BDA_CTRL = true → safeCausePresent s = false → s.bda.recordOk = true → t.bda.safe = false ∧
        changedOnly [.regs, .bda] s t ∧ ∀ n : Fin 72,
          ((vget s.warp.bias n).enable = true → (vget s.bda.outs n).cause = 0 → loadedOut s t n) ∧
          ((vget s.warp.bias n).enable = false ∨ (vget s.bda.outs n).cause ≠ 0 → vget t.bda.outs n = vget s.bda.outs n))) ∧
    (∀ n : Fin 72, completes (.bdaOutClear n) s (fun t =>
      (s.served (Reg.BDA_OUT_CTRL n) = false → t = s) ∧
      (s.served (Reg.BDA_OUT_CTRL n) = true → (vget t.bda.outs n).cause = 0 ∧ (vget t.bda.outs n).safe = (vget s.bda.outs n).safe ∧
        ((vget s.bda.outs n).cause ≠ 0 → (vget t.bda.outs n).freed = true) ∧
        (∀ m : Fin 72, m ≠ n → vget t.bda.outs m = vget s.bda.outs m) ∧ changedOnly [.bda] s t))) ∧
    completes .clearAllFaults s (fun t =>
      (s.served Reg.BDA_CTRL = false → t = s) ∧
      (s.served Reg.BDA_CTRL = true → changedOnly [.bda] s t ∧ ∀ n : Fin 72, (vget t.bda.outs n).cause = 0 ∧
        (vget t.bda.outs n).safe = (vget s.bda.outs n).safe ∧ (vget t.bda.outs n).code = (vget s.bda.outs n).code ∧
        ((vget s.bda.outs n).cause ≠ 0 → (vget t.bda.outs n).freed = true)))

/-- A sample at stage 0 or in Off is nothing; with no shutdown following, no zone but the sampled one changes, and its stage never falls by
a sample. A zone falls one stage only when it is not blind, has a stage, has been cool, and, from T2, TL is 0; otherwise
THROTTLE_STAGE_FALL is nothing, and every other zone is left. TL_UPDATE is nothing unless the device is at T2; then the extremes of the
second start anew, and TL moves by at most one and stays at most 7. The coarse comparator is nothing in Off or after a shutdown; else it
is a shutdown: the device is at stage 0 with its wake-failure record valid with cause 8, and every output at safe bias with cause 4. -/
def Obligations.ThermalUnit : Prop :=
  ∀ s : State,
    (∀ (z : Fin 12) (raws : List (Option Int)), completes (.thermalSample z raws) s (fun t =>
      (s.pwr.off = true ∨ s.pwr.stage = 0 → t = s) ∧
      (s.pwr.off = false → s.pwr.stage ≠ 0 → t.thm.shutdown = false → min 2 (vget s.thm.zones z).stage ≤ (vget t.thm.zones z).stage ∧
        ∀ y : Fin 12, y ≠ z → vget t.thm.zones y = vget s.thm.zones y))) ∧
    (∀ z : Fin 12, completes (.throttleStageFall z) s (fun t =>
      ((vget s.thm.zones z).blind = true ∨ (vget s.thm.zones z).stage = 0 ∨ (vget s.thm.zones z).coolSince = none ∨
        ((vget s.thm.zones z).stage = 2 ∧ s.thm.tl ≠ 0) → t = s) ∧
      ((vget s.thm.zones z).blind = false → (vget s.thm.zones z).stage ≠ 0 → (vget s.thm.zones z).coolSince ≠ none →
        (vget s.thm.zones z).stage ≠ 2 ∨ s.thm.tl = 0 → (vget t.thm.zones z).stage = (vget s.thm.zones z).stage - 1 ∧
        (vget t.thm.zones z).temp = (vget s.thm.zones z).temp ∧
        (∀ y : Fin 12, y ≠ z → vget t.thm.zones y = vget s.thm.zones y) ∧ changedOnly [.regs, .thm] s t))) ∧
    completes .tlUpdate s (fun t =>
      (thermStage s ≠ 2 → t = s) ∧
      (thermStage s = 2 → t.thm.secMin = none ∧ t.thm.secMax = none ∧ t.thm.secDrop = false ∧
        t.thm.tl ≤ max (s.thm.tl) 7 ∧ t.thm.tl ≤ s.thm.tl + 1 ∧ min 7 s.thm.tl ≤ t.thm.tl + 1 ∧
        (t.thm.tl ≠ s.thm.tl → t.bit Reg.THM_INT_STATUS 3 = true) ∧ t.thm.zones = s.thm.zones)) ∧
    completes .coarseComparator135 s (fun t =>
      (s.pwr.off = true ∨ s.thm.shutdown = true → t = s) ∧
      (s.pwr.off = false → s.thm.shutdown = false → t.thm.shutdown = true ∧ t.pwr.stage = 0 ∧ t.bda.safe = true ∧ t.bda.cause = 4 ∧
        (s.pwr.stage ≤ 4 → t.bit Reg.PWR_AON_WAKE_FAIL 31 = true ∧ t.fld Reg.PWR_AON_WAKE_FAIL 7 4 = 8)))

/-- The end of a store write is nothing while none is carried out; a write of the record port that verifies leaves its queue and ends DONE
with the interrupt and an empty buffer; one whose sequence is spent leaves the store and ends refused with code 7. A word of
NVS_REC_DATA is staged; one past 512 is remembered and is a refused write. NVS_REC_WRITE while one runs is refused BUSY and leaves the
buffer; another refusal shows its code and empties the buffer; an accepted one is queued with the body staged, IN_PROGRESS. CLEAR
empties the buffer. Each access of NVS_DATA advances NVS_ADDR by one word; a write outside the host area is a refused write, one after a
power-fail warning writes nothing, and another one is stored. Commands that the port does not serve are nothing. -/
def Obligations.StoreAndRecords : Prop :=
  ∀ s : State,
    (∀ fails : List (Fin 4096 × Fin 65), completes (.storeWriteDone fails) s (fun t =>
      (s.nvs.writes = [] ∨ storeWriting s = false → t = s) ∧
      (∀ w rest, s.nvs.writes = w :: rest → storeWriting s = true → t.nvs.running = false ∧
        (w.origin = .recPort → seqSpent s w = false → fails = [] → t.nvs.writes = rest ∧ t.nvs.recBusy = false ∧
          t.nvs.recStage.words = [] ∧ t.fld Reg.NVS_REC_STATUS 31 30 = 1 ∧ t.bit Reg.NVS_INT_STATUS 4 = true) ∧
        (w.origin = .recPort → seqSpent s w = true → t.nvs.store = s.nvs.store ∧ t.nvs.writes = rest ∧ t.nvs.recBusy = false ∧
          t.fld Reg.NVS_REC_STATUS 31 30 = 2 ∧ t.fld Reg.NVS_REC_STATUS 23 16 = 7)))) ∧
    (∀ w : Word, completes (.nvsRecDataWrite w) s (fun t =>
      (s.served Reg.NVS_REC_DATA = false → t = s) ∧
      (s.served Reg.NVS_REC_DATA = true → s.nvs.recStage.words.length < 512 → t.nvs.recStage.words = s.nvs.recStage.words ++ [w] ∧
        t.nvs.recStage.overflow = s.nvs.recStage.overflow ∧ changedOnly [.nvs] s t) ∧
      (s.served Reg.NVS_REC_DATA = true → 512 ≤ s.nvs.recStage.words.length → t.nvs.recStage.words = s.nvs.recStage.words ∧
        t.nvs.recStage.overflow = true))) ∧
    (∀ type : Byte, completes (.nvsRecWrite type) s (fun t =>
      (s.served Reg.NVS_REC_CTRL = false → t = s) ∧
      (s.served Reg.NVS_REC_CTRL = true → changedOnly [.regs, .nvs] s t ∧
        (recCode s type.toNat = 6 → t.nvs = s.nvs ∧ t.fld Reg.NVS_REC_STATUS 31 30 = 2 ∧ t.fld Reg.NVS_REC_STATUS 23 16 = 6) ∧
        (recCode s type.toNat ≠ 6 → recCode s type.toNat ≠ 0 → t.nvs = { s.nvs with recStage := {}, recBusy := false } ∧
          t.fld Reg.NVS_REC_STATUS 31 30 = 2 ∧ t.fld Reg.NVS_REC_STATUS 23 16 = recCode s type.toNat ∧ t.bit Reg.NVS_INT_STATUS 4 = true) ∧
        (recCode s type.toNat = 0 → t.nvs.recBusy = true ∧ t.fld Reg.NVS_REC_STATUS 31 30 = 3 ∧ t.nvs.store = s.nvs.store ∧
          t.nvs.writes = s.nvs.writes ++ [{ origin := .recPort
                                            base := sysBase type.toNat
                                            pitch := 0x800
                                            type := type.toNat
                                            body := s.nvs.recStage.bytes }])))) ∧
    completes .nvsRecClear s (fun t =>
      (s.served Reg.NVS_REC_CTRL = false → t = s) ∧
      (s.served Reg.NVS_REC_CTRL = true → t.nvs = { s.nvs with recStage := {} } ∧ changedOnly [.nvs] s t)) ∧
    (∀ (w : Option Word) (fails : Option Nat), completes (.nvsDataAccess w fails) s (fun t =>
      (s.served Reg.NVS_DATA = false → t = s) ∧
      (s.served Reg.NVS_DATA = true → t.reg Reg.NVS_ADDR = BitVec.ofNat 32 ((nvsAddr s + 4) % 2 ^ 21) ∧
        (w = none → t.nvs = s.nvs ∧ regsBut [Reg.NVS_ADDR] s t ∧ changedOnly [.regs] s t) ∧
        (nvsAddr s < 0x180000 ∨ s.nvs.powerFail = true → t.nvs = s.nvs) ∧
        (∀ x, w = some x → fails = none → 0x180000 ≤ nvsAddr s → s.nvs.powerFail = false →
          t.storeAt (nvsAddr s) 4 = leBytes 4 x.toNat ∧
          (∀ a, a < nvsAddr s ∨ nvsAddr s + 4 ≤ a → tget blank t.nvs.store a = tget blank s.nvs.store a) ∧
          regsBut [Reg.NVS_ADDR] s t))))

/-- A request without GO is nothing; a refused one shows the first code with the interrupt and changes no queue; an accepted one that
overlaps no waiting request of its ID joins the queue under the next tag, which the result shows. An interval starts only with a
request: a booked one whose time has come, or at stage 4, after the pause of the last, one that waits. The end of a calibration that
runs, once its groups are in CAL, leaves none running and no interval booked, with the interrupt; with none in an interval, or before
its groups are in CAL, it is nothing. A request that has waited 10 s is told once, with the interrupt. The drover's hourly request is
nothing before its hour, and none of its requests enters without a committed warp. A path's predistortion record is written after
UPDATED and at most once in 60 s. Power-up calibration runs once, at stage 2 with a committed warp, and leaves every group that is not
empty OFF. -/
def Obligations.Calibrations : Prop :=
  ∀ s : State,
    (∀ w : Word, completes (.nvsCalReq w) s (fun t =>
      (s.served Reg.NVS_CAL_REQ = false ∨ bitOf w 31 = false → t = s) ∧
      (s.served Reg.NVS_CAL_REQ = true → bitOf w 31 = true → changedOnly [.regs, .nvs] s t ∧
        (calReqCode s (fld w 23 16) (fld w 7 0) ≠ 0 → t.nvs = s.nvs ∧ t.fld Reg.NVS_CAL_RESULT 31 30 = 2 ∧
          t.fld Reg.NVS_CAL_RESULT 23 16 = calReqCode s (fld w 23 16) (fld w 7 0) ∧ t.bit Reg.NVS_INT_STATUS 1 = true) ∧
        (calReqCode s (fld w 23 16) (fld w 7 0) = 0 →
          (∀ r ∈ s.nvs.calQueue, r.id ≠ fld w 23 16) →
          t.fld Reg.NVS_CAL_RESULT 31 30 = 1 ∧ t.fld Reg.NVS_CAL_RESULT 15 0 = (s.nvs.calTag + 1) % 65536 ∧
          t.nvs.calQueue = s.nvs.calQueue ++ [{ id := fld w 23 16
                                                groups := fld w 7 0
                                                force := bitOf w 30
                                                tag := (s.nvs.calTag + 1) % 65536
                                                drover := false }])))) ∧
    completes .calIntervalStart s (fun t =>
      (s.nvs.calRun = none → s.pwr.stage ≠ 4 ∨ s.time.tb1 < s.nvs.calRest ∨ s.nvs.calQueue = [] → t = s) ∧
      (∀ r, s.nvs.calRun = some r → (s.nvs.calOn = true ∨ (∃ c ∈ s.rad.calBook, s.time.tb0 < c.2.1) → t = s) ∧
        (s.nvs.calOn = false → (∀ c ∈ s.rad.calBook, c.2.1 ≤ s.time.tb0) → t.nvs.calOn = true ∧ t.nvs.calRun = some r)) ∧
      (∀ r, s.nvs.calRun = none → s.pwr.stage = 4 → s.nvs.calRest ≤ s.time.tb1 → s.nvs.calQueue = [r] → r.force = true → t.nvs.calOn = true ∧
        t.nvs.calRun = some r ∧ t.nvs.calQueue = [])) ∧
    (∀ ms : List CalMeas, completes (.calDone ms) s (fun t =>
      (s.nvs.calRun = none ∨ s.nvs.calOn = false → t = s) ∧
      (∀ r, s.nvs.calRun = some r → s.nvs.calOn = true → (maskGroups s r.groups).all (fun g => (grp s g).state == .cal) = false → t = s) ∧
      (∀ r, s.nvs.calRun = some r → s.nvs.calOn = true → (maskGroups s r.groups).all (fun g => (grp s g).state == .cal) = true → t.nvs.calRun = none ∧ t.nvs.calOn = false ∧ t.rad.calBook = [] ∧
        t.bit Reg.NVS_INT_STATUS 0 = true))) ∧
    completes .nvsCalWaitLong s (fun t =>
      ((∀ r ∈ s.nvs.calQueue, r.longSaid = true) → t = s) ∧
      ((∃ r ∈ s.nvs.calQueue, r.longSaid = false) → t.bit Reg.NVS_INT_STATUS 7 = true ∧
        t.nvs.calQueue.length = s.nvs.calQueue.length ∧ t.nvs.calQueue.map (·.tag) = s.nvs.calQueue.map (·.tag) ∧
        changedOnly [.regs, .nvs] s t)) ∧
    (∀ why : CalWhy, completes (.droverCalRequest why) s (fun t =>
      (s.wrp.active = none ∨ s.pwr.stage < 3 → t = s) ∧
      (why = .hourly → s.time.tb1 < s.nvs.arrayAt + 3600 * secTu → t = s) ∧
      (s.nvs.calQueue.length ≤ t.nvs.calQueue.length ∧ t.nvs.calRun = s.nvs.calRun ∧ changedOnly [.nvs] s t))) ∧
    (∀ p : Fin 64, completes (.dpdRecordWrite p) s (fun t =>
      ((dpdOf s p).fresh = false ∨ (∃ u, (dpdOf s p).recordAt = some u ∧ s.time.tb1 < u + 60 * secTu) → t = s) ∧
      ((dpdOf s p).fresh = true → (∀ u, (dpdOf s p).recordAt = some u → u + 60 * secTu ≤ s.time.tb1) →
        (dpdOf t p).fresh = false ∧ (dpdOf t p).recordAt = some s.time.tb1 ∧
        t.nvs.writes = s.nvs.writes ++ [{ origin := .dpd p.val (dpdRecordFor s p)
                                          base := dpdRecBase p (dpdRecordFor s p)
                                          pitch := 0xA00
                                          type := 0x11
                                          body := dpdRecBody s p }]))) ∧
    (∀ (fails : PowerUpFails) (ms : List (Nat × List CalMeas)), completes (.powerupCalibration fails ms) s (fun t =>
      (s.wrp.active = none ∨ s.pwr.stage ≠ 2 ∨ s.nvs.powerUpDone = true → t = s) ∧
      (s.wrp.active ≠ none → s.pwr.stage = 2 → s.nvs.powerUpDone = false → t.nvs.powerUpDone = true ∧
        ∀ g ∈ maskGroups s 0xFF, (grp t g).state = .off)))

/-- An operation that the port does not serve is nothing. One that is refused changes only GLB_FLASH_STATUS, which shows the refusal and the
first code that applies: BUSY while an operation runs, then RANGE for an address beyond the flash or not aligned. One that is accepted
runs, and GLB_FLASH_STATUS shows it: READ leaves 256 bytes of the flash in the page buffer and the flash as it was; PROGRAM leaves the
buffer in its page and every other byte as it was; ERASE leaves its sector of 64 KiB erased and every other byte as it was; VERIFY
changes neither. The end of an operation is nothing while none runs; otherwise none runs, DONE stands with the interrupt, and VERIFY
shows whether the image passes and its VERSION. -/
def Obligations.BootFlash : Prop :=
  ∀ s : State,
    completes .flashRead s (fun t => flashAnswered s t .read 0
      (mread blank t.glb.flashBuf 0 256 = flashBytes s (s.reg Reg.GLB_FLASH_ADDR).toNat 256 ∧ t.glb.flash = s.glb.flash)) ∧
    completes .flashProgram s (fun t => flashAnswered s t .program 0
      (flashBytes t (s.reg Reg.GLB_FLASH_ADDR).toNat 256 = mread blank s.glb.flashBuf 0 256 ∧ t.glb.flashBuf = s.glb.flashBuf ∧
        ∀ a, a < (s.reg Reg.GLB_FLASH_ADDR).toNat ∨ (s.reg Reg.GLB_FLASH_ADDR).toNat + 256 ≤ a →
          tget erased t.glb.flash a = tget erased s.glb.flash a)) ∧
    completes .flashErase s (fun t => flashAnswered s t .erase 0
      (t.glb.flashBuf = s.glb.flashBuf ∧
        ∀ a, (((s.reg Reg.GLB_FLASH_ADDR).toNat ≤ a ∧ a < (s.reg Reg.GLB_FLASH_ADDR).toNat + 65536) → tget erased t.glb.flash a = 0xFF) ∧
          (a < (s.reg Reg.GLB_FLASH_ADDR).toNat ∨ (s.reg Reg.GLB_FLASH_ADDR).toNat + 65536 ≤ a →
            tget erased t.glb.flash a = tget erased s.glb.flash a))) ∧
    (∀ slot : Fin 2, completes (.flashVerify slot) s (fun t => flashAnswered s t .verify slot.val
      (t.glb.flash = s.glb.flash ∧ t.glb.flashBuf = s.glb.flashBuf))) ∧
    completes .flashOpDone s (fun t =>
      (s.glb.flashRun = none → t = s) ∧
      (∀ r, s.glb.flashRun = some r → changedOnly [.regs, .glb] s t ∧ t.glb = { s.glb with flashRun := none } ∧
        regsBut [Reg.GLB_FLASH_STATUS, Reg.GLB_FLASH_VERSION, Reg.GLB_INT_STATUS] s t ∧
        t.fld Reg.GLB_FLASH_STATUS 31 30 = 1 ∧ t.bit Reg.GLB_INT_STATUS 3 = true ∧
        (r.op = .verify → t.bit Reg.GLB_FLASH_STATUS 0 = (imageVersion s r.slot).isSome ∧
          ∀ v, imageVersion s r.slot = some v → t.reg Reg.GLB_FLASH_VERSION = BitVec.ofNat 32 v) ∧
        (r.op ≠ .verify → t.reg Reg.GLB_FLASH_VERSION = s.reg Reg.GLB_FLASH_VERSION)))

/-- A word of GLB_DBG_DATA is staged; one past 36 is remembered as an overflow and is a refused write. CLEAR empties the buffer. UNLOCK
shows the first code that applies (STAGE at stage 4, then FORMAT for a buffer that has overflowed or does not hold 36 words), empties
the buffer and draws a new challenge; the port is unlocked only with code 0, and otherwise the pins stay. Commands that the port does
not serve are nothing. An expiry of the watchdog below stage 2 is nothing; otherwise safe bias is applied with cause WATCHDOG, RELEASE
is cleared, the expiry is counted, the interrupt stands, the stage is unchanged, and a device at stage 4 begins to leave it. -/
def Obligations.DebugAccessAndWatchdog : Prop :=
  ∀ s : State,
    (∀ w : Word, completes (.glbDbgDataWrite w) s (fun t =>
      (s.served Reg.GLB_DBG_DATA = false → t = s) ∧
      (s.served Reg.GLB_DBG_DATA = true → s.glb.dbg.words.length < 36 → changedOnly [.glb] s t ∧
        t.glb = { s.glb with dbg := { s.glb.dbg with words := s.glb.dbg.words ++ [w] } }) ∧
      (s.served Reg.GLB_DBG_DATA = true → 36 ≤ s.glb.dbg.words.length → changedOnly [.regs, .glb] s t ∧
        t.glb.dbg = { s.glb.dbg with overflow := true } ∧ regsBut (Reg.GLB_VIOL 7 2 :: logRegs) s t ∧
        ∃ e, t.newest = some e ∧ e.kind = 7 ∧ e.index = 0 ∧ e.cls = 5 ∧ e.event = false))) ∧
    completes .dbgClear s (fun t =>
      (s.served Reg.GLB_DBG_CTRL = false → t = s) ∧
      (s.served Reg.GLB_DBG_CTRL = true → changedOnly [.glb] s t ∧ t.glb = { s.glb with dbg := {} })) ∧
    completes .unlock s (fun t =>
      (s.served Reg.GLB_DBG_CTRL = false → t = s) ∧
      (s.served Reg.GLB_DBG_CTRL = true → changedOnly [.pins, .regs, .glb, .rnd] s t ∧ regsBut [Reg.GLB_DBG_STATUS] s t ∧
        t.glb = { s.glb with dbg := {}
                             dbgNonce := (Config.challenge s.rnd).toNat } ∧
        t.fld Reg.GLB_DBG_STATUS 23 16 = unlockCode s ∧
        (4 ≤ s.pwr.stage → t.fld Reg.GLB_DBG_STATUS 23 16 = 1 ∧ t.pins = s.pins) ∧
        (s.pwr.stage < 4 → s.glb.dbg.overflow = true ∨ s.glb.dbg.words.length ≠ 36 →
          t.fld Reg.GLB_DBG_STATUS 23 16 = 5 ∧ t.pins = s.pins) ∧
        (unlockCode s ≠ 0 → t.pins = s.pins) ∧
        (unlockCode s = 0 → t.pins = { s.pins with jtagUnlocked := true }))) ∧
    completes .watchdogExpiry s (fun t =>
      (s.pwr.off = true ∨ s.pwr.stage < 2 → t = s) ∧
      (s.pwr.off = false → 2 ≤ s.pwr.stage → t.bda.safe = true ∧ t.bda.cause = 2 ∧ t.bit Reg.PWR_STAGE_CTRL 0 = false ∧
        t.fld Reg.GLB_WDOG 15 0 = min 65535 (s.fld Reg.GLB_WDOG 15 0 + 1) ∧ t.bit Reg.GLB_INT_STATUS 4 = true ∧
        t.pwr.stage = s.pwr.stage ∧ (s.pwr.stage = 4 → t.pwr.leaving4 = true)))

/-- A write that the port does not serve, and one of a reserved address, is nothing. A write of an RWL register from stage 3 on leaves the
register as it was and is logged as a LOCKED violation of the SPI host. A write of another register that has no action stores, under RW
and RWL, the bits a write can store, each limited field in its range; clears the bits written 1 under W1C; and is nothing under RO, WO
and RC; no other register and no other part of the state changes. A read of an RC register that the port serves leaves it at its reset
value and every other register as it was; a read of a register of another code through this command, and one that is not served, is
nothing. -/
def Obligations.RegisterAccess : Prop :=
  ∀ (s : State) (a : BitVec 32),
    (∀ w : Word, completes (.registerWrite a w) s (fun t =>
      (s.served a.toNat = false → t = s) ∧
      (windowAct a.toNat w = none → findRow a.toNat = none → t = s) ∧
      (∀ r, s.served a.toNat = true → windowAct a.toNat w = none → findRow a.toNat = some r →
        (r.access = .rwl → 3 ≤ s.pwr.stage → changedOnly [.regs, .glb] s t ∧ regsBut (Reg.GLB_VIOL 7 2 :: logRegs) s t ∧
          t.reg a.toNat = s.reg a.toNat ∧ ∃ e, t.newest = some e ∧ e.kind = 7 ∧ e.index = 0 ∧ e.cls = 4 ∧ e.event = false) ∧
        (r.access ≠ .rwl ∨ s.pwr.stage < 3 → (actOf a.toNat).isNone = true → changedOnly [.regs] s t ∧ regsBut [a.toNat] s t ∧
          (r.access = .rw ∨ r.access = .rwl → t.reg a.toNat =
            storedForm a.toNat ((s.reg a.toNat &&& ~~~BitVec.ofNat 32 r.mask) ||| (w &&& BitVec.ofNat 32 r.mask))) ∧
          (r.access = .w1c → t.reg a.toNat = s.reg a.toNat &&& ~~~w) ∧
          (r.access = .ro ∨ r.access = .wo ∨ r.access = .rc → t = s))))) ∧
    completes (.rcRegisterRead a) s (fun t =>
      (s.served a.toNat = false ∨ findRow a.toNat = none → t = s) ∧
      (∀ r, findRow a.toNat = some r →
        (r.access ≠ .rc → t = s) ∧
        (r.access = .rc → s.served a.toNat = true → changedOnly [.regs, .pwr, .acq] s t ∧ regsBut [a.toNat] s t ∧
          t.reg a.toNat = regReset a.toNat)))

/-- With the device off a write frame is nothing. A frame with a faulty OPCODE, an incomplete address or an address that is not a multiple
of 4 is discarded whole: it writes nothing, it is counted and logged from stage 1 on as BAD_OPCODE, SHORT_WORD or UNALIGNED, and the
next STATUS byte says so. Any other frame writes its whole words in order, each as host software's write of it does, at addresses that
rise by 4 for WRITE_INCR and at one address for WRITE_FIXED, and beyond those writes changes only what the port keeps of the frame; an
incomplete last word is dropped and is a SHORT_WORD violation. -/
def Obligations.WriteFrames : Prop :=
  ∀ (s : State) (b : List Byte),
    (∀ badOp : Option Byte, completes (.writeIncr badOp b) s (frameWritten true badOp b s)) ∧
    completes (.writeFixed b) s (frameWritten false none b s)

/-- With the device off a read frame is nothing. One whose address is incomplete or not a multiple of 4 is discarded as SHORT_WORD or
UNALIGNED. Otherwise MISO carries the STATUS byte, zeros for the address and the dummy bytes, and then the data, and registers do not
change while no data word leaves whole. A frame of one word carries the register's value, least significant byte first, and then has
what a completed read leaves; a second word comes from the address 4 higher for READ_INCR and from the same address for READ_FIXED,
after what the first left, or, for a window or the log, from the copy taken at the first word. A word that is not ready reads as zero,
has no effect, and is counted. -/
def Obligations.ReadFrames : Prop :=
  ∀ (s : State) (b : List Byte) (n : Nat) (late : List Nat),
    completes (.readIncr b n late) s (frameRead true b n late s) ∧
    completes (.readFixed b n late) s (frameRead false b n late s)

/-- At stage 3 and above a write of an RWL register that the port serves answers a next state in which that register is unchanged, the stage
is unchanged, and the newest log entry is a violation of the SPI host (KIND 0x07, class LOCKED); so is every register but the count of
that class and the log's own two, and every part of the state but the registers and the log. No step from stage 3 or above, whatever the
command at the front of the queue, leaves the device at stage 2: it is at stage 3 or above, where the register is still locked, or at
stage 1 or below. -/
def Obligations.LockedRegisters : Prop :=
  (∀ (s : State) (a : BitVec 32) (w : Word) (r : RegRow), findRow a.toNat = some r → r.access = .rwl → 3 ≤ s.pwr.stage →
    s.served a.toNat = true → completes (.registerWrite a w) s (fun t =>
      t.reg a.toNat = s.reg a.toNat ∧ t.pwr.stage = s.pwr.stage ∧ changedOnly [.regs, .glb] s t ∧
      regsBut (Reg.GLB_VIOL 7 2 :: logRegs) s t ∧
      ∃ e, t.newest = some e ∧ e.kind = 7 ∧ e.index = 0 ∧ e.cls = 4 ∧ e.event = false)) ∧
  (∀ s : State, 3 ≤ s.pwr.stage → ∃ t, step s = .next t ∧ (t.pwr.stage ≤ 1 ∨ 3 ≤ t.pwr.stage))

/-- A write of WRP_CTRL, NVS_REC_CTRL or GLB_DBG_CTRL, whatever action bits it sets, does what the commands of the bits set do one after
another, each as if written alone, in the order CLEAR, ABORT, then the operation (LOAD, WRITE with its type, or UNLOCK); with no action
bit set it is nothing. -/
def Obligations.ActionBitOrder : Prop :=
  ∀ (s : State) (w : Word),
    exec (.registerWrite (BitVec.ofNat 32 Reg.WRP_CTRL) w) s =
      thenDo (bitOf w 0) .wrpLoad (thenDo (bitOf w 1) .wrpAbort (thenDo (bitOf w 2) .wrpClear (.next s))) ∧
    exec (.registerWrite (BitVec.ofNat 32 Reg.NVS_REC_CTRL) w) s =
      thenDo (bitOf w 0) (.nvsRecWrite (BitVec.ofNat 8 (fld w 15 8))) (thenDo (bitOf w 1) .nvsRecClear (.next s)) ∧
    exec (.registerWrite (BitVec.ofNat 32 Reg.GLB_DBG_CTRL) w) s =
      thenDo (bitOf w 0) .unlock (thenDo (bitOf w 1) .dbgClear (.next s))

/-- The state right after reset is the device as it enters stage 1 with power on, with an empty queue: every register holds the value of the
Reset column, no warp is committed, nothing is loaded, the log is empty, and every table of the state is in canonical form, which every
step keeps (StepKeepsQueueFusesMemory). That the model starts at stage 1 entry is its own choice (log entry 4). -/
def Obligations.ResetState : Prop :=
  State.reset.pending = [] ∧ State.reset.pwr.stage = 1 ∧ State.reset.pwr.off = false ∧ (∀ a, State.reset.reg a = regReset a) ∧
  State.reset.wrp.active = none ∧ State.reset.wrp.load = none ∧ State.reset.glb.log = [] ∧ Memory.wf State.reset = true

/-- Each of these commands answers a next state with its own effect, under conditions on the state and the operands alone. VSEN: rise from
no supply, fall, the warnings, XTAL, both edges of RST_N. Every wake source wakes a resting device it is enabled on: from Sentinel to
the supplies, from Doze to VCORE. A rail request is acknowledged, fails an attempt, is sent again; a fault or lost PGOOD of an
acknowledged rail rolls back; SMBALERT without a fault is counted; telemetry is kept. A reference window in agreement leads to its lock;
without it in time the other reference, then none; the image starts the firmware; the link wait ends the start; the stages climb, stage
4 is entered, released and left. A level request is refused or begins, and takes effect at its point; a cadence report gives the margin,
a trim steps down, a slip is counted. Doze, Safe and Sentinel are entered, by request or by themselves, step by step, and Doze is left.
The registers of the always-on domain are cleared and written. -/
def Obligations.SupplyStageAndLevelCommandsComplete : Prop :=
  ∀ s : State,
    (s.pwr.off = true → ∃ t, exec .vsenRise s = .next t ∧ t.pwr.off = false ∧ t.pwr.stage = 0 ∧ ∀ a, t.reg a = regReset a) ∧
    (s.pwr.off = false → ∃ t, exec .vsenFall s = .next t ∧ t.pwr.off = true ∧ t.pwr.stage = 0 ∧ t.glb.flash = s.glb.flash) ∧
    (∀ (vsen : Bool) (n : Nat), s.pwr.off = false →
      ∃ t, exec (.powerFailWarning vsen n) s = .next t ∧ t.nvs.powerFail = true ∧ t.bit Reg.NVS_INT_STATUS 8 = true) ∧
    (s.pwr.off = false → ∃ t, exec .xtalOk s = .next t ∧ t.bit Reg.PWR_AON_START_CFG 31 = true) ∧
    (s.pwr.off = false → ∃ t, exec .rstNAssert s = .next t ∧ t.pins.rstLow = true ∧ t.pwr.stage = 0 ∧ t.aonRegs = s.aonRegs) ∧
    (∃ t, exec .rstNRelease s = .next t ∧ t.pins.rstLow = false ∧ changedOnly [.pins] s t) ∧
    (∀ (site : BitVec 24) (cmd crc : BitVec 8), s.bit Reg.PWR_AON_SHL_CFG 31 = true → s.pins.rstLow = false → resting s = .sentinel →
      crc.toNat = crc8 (beBytes 3 site.toNat ++ beBytes 1 cmd.toNat) → site.toNat = s.fld Reg.PWR_AON_SHL_CFG 23 0 → cmd = 1 ∨ cmd = 2 →
      wakeEnabled s 0 = true → s.thm.shutdown = false → supplyRecord s ≠ none →
      ∃ t, exec (.shielingFrame site cmd crc) s = .next t ∧ t.pwr.climb = .rails 1 ∧ t.pwr.shlHold = decide (cmd = 2)) ∧
    (∀ x ∈ [(Instr.wakeNLow, 1), (.aonTimerAlarm, 2), (.spiChipSelectWake, 3), (.thermalWakeCrossing, 5)],
      s.pins.rstLow = false → wakeEnabled s x.2 = true →
      (resting s = .sentinel → s.pwr.wakeAt ≠ some s.time.aon → s.thm.shutdown = false → supplyRecord s ≠ none →
        ∃ t, exec x.1 s = .next t ∧ t.pwr.climb = .rails 1 ∧ t.reg Reg.PWR_AON_LAST_WAKE = pk [(8, 0), (0, x.2)]) ∧
      (resting s = .doze → ∃ t, exec x.1 s = .next t ∧ t.pwr.leavingDoze = true)) ∧
    (∀ q : Fin 2, s.pins.rstLow = false → wakeEnabled s 4 = true → resting s = .doze →
      ∃ t, exec (.fronthaulSignalDetect q) s = .next t ∧ t.pwr.leavingDoze = true) ∧
    (∀ (n : Fin 8) (q : RailReq), (rail s n).req = some q →
      (q.waiting = false → (rail s n).modeRead = true → q.why = .trim →
        ∀ mode : BitVec 8, ∃ t, exec (.pmbusTransactionDone n mode) s = .next t ∧ (rail t n).req = none ∧ (rail t n).acked = true ∧
          (n = 1 → t.pwr.vcore = q.mv)) ∧
      (q.waiting = false → (rail s n).modeRead = true → q.why = .climb → ∀ (g : Nat) (mode : BitVec 8), s.pwr.climb = .rails g →
        ∃ t, exec (.pmbusTransactionDone n mode) s = .next t ∧ (rail t n).acked = true) ∧
      (q.waiting = false → q.attempts < 4 → ∀ why : PmbWhy, ∃ t, exec (.pmbusAttemptFailed n why) s = .next t ∧
        (rail t n).req = some { q with sawFault := q.sawFault || why == .fault, waiting := true } ∧ t.bit Reg.PWR_INT_STATUS 6 = true) ∧
      (q.waiting = true → ∃ t, exec (.railRetry n) s = .next t ∧
        (rail t n).req = some { q with waiting := false, attempts := q.attempts + 1 })) ∧
    (∀ n : Fin 8, (rail s n).req = none → (rail s n).acked = true → ∃ t, exec (.railFault n) s = .next t ∧ t.pwr.stage = 0 ∧
      t.reg Reg.PWR_AON_WAKE_FAIL = pk [(31, 1), (12, min 15 (s.fld Reg.PWR_AON_WAKE_FAIL 15 12 + 1)), (8, n), (4, 2), (0, heldStage s)]) ∧
    (∀ words : List (BitVec 16), pmbusRuns s = true → s.pwr.stage ≠ 0 → (∀ m < 8, statusFault (words.getD m 0) = false) →
      ∃ t, exec (.smbalert words) s = .next t ∧ t.pwr = s.pwr ∧
        t.fld (Reg.GLB_VIOL 5 2) 31 16 = satAdd 0xFFFF (s.fld (Reg.GLB_VIOL 5 2) 31 16) 1) ∧
    (∀ r : List (BitVec 16 × BitVec 16), s.pwr.off = false → s.pwr.stage ≠ 0 → ∃ t, exec (.pmbusTelemetryPoll r) s = .next t ∧
      ∀ m < 8, rail t m = { rail s m with vout := (r.getD m (0, 0)).1.toNat, iout := (r.getD m (0, 0)).2.toNat }) ∧
    (∀ (edges : Nat) (b : Bool), s.pwr.climb = .refCount b → edgesAgree s b edges = true →
      ∃ t, exec (.refCheckWindowDone edges) s = .next t ∧ t.pwr.climb = .refLock b) ∧
    (s.pwr.climb = .refCount false → ∃ t, exec .refCheckTimeout s = .next t ∧ t.pwr.climb = .refCount true) ∧
    (∀ v, s.pwr.stage = 1 → s.pwr.fwOk = false → 1 < climbGoal s → imageVersion s (min 1 (s.fld Reg.GLB_BOOT 3 0)) = some v →
      ∃ t, exec .firmwareImageVerified s = .next t ∧ t.pwr.fwOk = true ∧ t.reg Reg.GLB_FW_VERSION = BitVec.ofNat 32 v) ∧
    (s.pwr.stage = 1 → s.pwr.fwOk = true → fronthaulUp s = false → s.fld Reg.PWR_AON_START_CFG 19 0 ≠ 0 → 1 < climbGoal s →
      ∃ t, exec .linkWaitExpiry s = .next t ∧ t.pwr.stage = 0) ∧
    (s.pwr.off = false → s.pwr.sleep = none → (s.pwr.stage = 0 → s.pwr.climb = .refOk → ∃ t, exec .stageClimb s = .next t ∧ t.pwr.stage = 1) ∧
      (s.pwr.stage = 1 → 1 < climbGoal s → s.pwr.fwOk = true → fronthaulUp s = true → ∃ t, exec .stageClimb s = .next t ∧ t.pwr.stage = 2)) ∧
    (s.pwr.stage = 3 → s.pstate = .idle → s.pwr.leavingDoze = false → s.pwr.sleep = none → s.locked = true →
      s.bit Reg.PWR_STAGE_CTRL 0 = true → fullLoad s = false → s.pins.jtagUnlocked = false →
      ∃ t, exec .stage4Entry s = .next t ∧ t.pwr.stage = 4 ∧ t.bit Reg.PWR_INT_STATUS 8 = true) ∧
    (s.pwr.leaving4 = true → (∀ p < 64, (s.pathCfg p).txEn → (pathOf s p).stageMute) →
      ∃ t, exec .stage4ExitComplete s = .next t ∧ t.pwr.stage = 3 ∧ t.pwr.leaving4 = false) ∧
    (∀ on : Bool, s.served Reg.PWR_STAGE_CTRL = true → on = true ∨ s.pwr.stage ≠ 4 →
      ∃ t, exec (.release on) s = .next t ∧ t.bit Reg.PWR_STAGE_CTRL 0 = on) ∧
    (s.served Reg.PWR_STAGE_CTRL = true → 1 ≤ s.pwr.stage → s.pwr.stage < 3 → s.pwr.sleep = none →
      ∃ t, exec .climb s = .next t ∧ t.pwr.resumed = s.pwr.stage ∧ t.pwr.stage = s.pwr.stage) ∧
    (s.served Reg.PWR_STAGE_CTRL = true → s.pwr.sleep = none → s.pwr.leavingDoze = false → 3 ≤ s.pwr.stage → s.pstate = .idle → quiet s →
      ∃ t, exec .gotoSafe s = .next t ∧ t.pwr.sleep = some { req := .safe, first := 1, step := 10, mv := s.pwr.vcore } ∧
        (rail t 1).req = some { mv := 620, why := .sleepVcore }) ∧
    (∀ l : BitVec 2, s.served Reg.PWR_LEVEL_REQ = true → isStackMember s = false → levelCode s l.toNat = 0 → l.toNat < s.pwr.level →
      isBellwether s = false → ∃ t, exec (.pwrLevelReq l) s = .next t ∧ t.fld Reg.PWR_LEVEL_STATUS 5 4 = 3 ∧
        (rail t 1).req = some { mv := vcoreNominal l.toNat, why := .levelUp }) ∧
    (∀ c, s.pwr.change = some c → c.phase = .point → ∃ t, exec .levelChangePoint s = .next t ∧ t.pwr.level = c.new) ∧
    (∀ r : List (Bool × Option Int), 3 ≤ s.pwr.stage → ∃ t, exec (.cadenceReport r) s = .next t ∧ t.pwr.margin =
      (match (List.range 32).filterMap (fun i => if (r.getD i (false, none)).1 then (r.getD i (false, none)).2 else none) with
        | [] => none
        | x :: xs => some (xs.foldl min x))) ∧
    (∀ m, s.pwr.margin = some m → 120 ≤ m → vcoreTrim s ≠ 0 → vcoreBusy s = false → s.pwr.change = none → s.pwr.sleep = none →
      s.pstate ≠ .doze → 3 ≤ s.pwr.stage → ∃ t, exec .vtrimStepDown s = .next t ∧ (rail t 1).req = some { mv := s.pwr.vcore - 10, why := .trim }) ∧
    (3 ≤ s.pwr.stage → ∃ t, exec .cadenceSlip s = .next t ∧
      t.reg Reg.GLB_CADENCE_SLIP = BitVec.ofNat 32 (satAdd 0xFFFFFFFF (s.reg Reg.GLB_CADENCE_SLIP).toNat 1)) ∧
    (s.served Reg.PWR_STATE_REQ = true → s.pwr.sleep = none → s.pwr.leavingDoze = false →
      (3 ≤ s.pwr.stage → s.pstate ≠ .doze → quiet s → ∃ t, exec .pwrStateReqDoze s = .next t ∧ dozing s t) ∧
      (s.pwr.stage < 3 → storeWriting s = false →
        ∃ t, exec .pwrStateReqSentinel s = .next t ∧ t.pwr.stage = 0 ∧ t.pwr.off = false ∧ t.nvs.store = s.nvs.store)) ∧
    (s.bit Reg.PWR_AUTO_DOZE 31 = true → 3 ≤ s.pwr.stage → s.pstate = .idle → s.pwr.sleep = none → noAllocation s = true →
      s.pwr.leavingDoze = false → quiet s → ∃ t, exec .autoDoze s = .next t ∧ dozing s t) ∧
    (∀ (late : Bool) (x : Sleep), s.pwr.sleep = some x → x.refusing = none → x.req = .sentinel → x.step = 11 → storeWriting s = false →
      ∃ t, exec (.sleepStepDone late) s = .next t ∧ t.pwr.stage = 0 ∧ t.nvs.store = s.nvs.store) ∧
    (∀ (mr4 : Option (Fin 8)) (drift : Int), s.pwr.leavingDoze = true → vcoreBusy s = false → relocking s = false →
      ∃ t, exec (.dozeExitDone mr4 drift) s = .next t ∧ t.pwr.leavingDoze = false ∧ t.pstate = .idle) ∧
    (s.pwr.off = false → ∃ t, exec .pwrAonWakeFailClear s = .next t ∧ t.reg Reg.PWR_AON_WAKE_FAIL = 0) ∧
    (∀ w : BitVec 32, s.pwr.off = false → s.bit Reg.PWR_AON_SHL_CFG 31 = false ∨ fld w 23 0 = s.fld Reg.PWR_AON_SHL_CFG 23 0 →
      ∃ t, exec (.pwrAonShlCfgWrite w) s = .next t ∧ t.reg Reg.PWR_AON_SHL_CFG = w &&& 0x80FFFFFF)

/-- Each of these commands answers a next state with its own effect, under conditions on the state and the operands alone. Words are staged,
staging is cleared, a load is refused or placed, aborted, committed once its spindles are loaded, and switched at its boundary; spindles
that fail are retired, their work is queued, compared, handed over or converted. A boundary applies what waits for it. Attenuators,
trims, mute, zero and filter controls are written; a protected chain is cleared at its boundary; blocks and passes of the spare,
corrections, stuck positions, segments, binary cells, overcurrent and overload are noted and count. A reference is lost, checked,
chosen; loops lock, lose lock and search; the converter clock is lost and holds over no longer; a lost role is latched and armed to
resume; a unit fails, calibrates in its gap, swaps, is proven; waits are told; a tuning voltage is kept and phases are written. -/
def Obligations.WarpPathAndSynthesisCommandsComplete : Prop :=
  ∀ s : State,
    (∀ w : Word, s.served Reg.WRP_DATA = true → s.wrp.load = none → s.wrp.stage.words.length < 4096 →
      ∃ t, exec (.wrpDataWrite w) s = .next t ∧ t.wrp.stage.words = s.wrp.stage.words ++ [w]) ∧
    (s.served Reg.WRP_CTRL = true → ∃ t, exec .wrpClear s = .next t ∧ t.wrp = { s.wrp with stage := {} }) ∧
    (∀ w, s.served Reg.WRP_CTRL = true → s.wrp.load = none → s.pwr.change = none → s.fld Reg.WRP_STAGE_LEN 14 0 % 4 = 0 →
      s.wrp.stage.fits (s.fld Reg.WRP_STAGE_LEN 14 0 / 4) = true → stagedPartial s = false → badStage s false = false →
      verifyWarp (s.setFld Reg.WRP_STATUS 4 4 0) s.wrp.stage.bytes = .inr w → s.wrp.jobs = [] → structFibres w ≤ 16 * spindlesIn s →
      ∃ t, exec .wrpLoad s = .next t ∧ t.wrp.load = some { new := w, partialLoad := false, placed := structFibres w, phase := 5 }) ∧
    (∀ x, s.wrp.load = some x →
      (s.served Reg.WRP_CTRL = true → x.phase < 6 → ∃ t, exec .wrpAbort s = .next t ∧ t.wrp.load = none ∧ loadRefused t (0xE, 0xFFFF, 0)) ∧
      (∀ rest, s.wrp.jobs = .load :: rest → x.phase = 5 → x.partialLoad = false →
        ∃ t, exec .spindlesLoaded s = .next t ∧ t.wrp.active = some x.new ∧ t.wrp.load = none) ∧
      (x.phase = 6 → ∃ t, exec .reweaveSwitch s = .next t ∧ t.wrp.active = some { x.new with id := s.warp.id } ∧ t.wrp.load = none)) ∧
    (∀ e, s.pwr.stage = 2 → s.bit Reg.PWR_AON_START_CFG 20 = false → s.wrp.load = none → s.wrp.active = none →
      nbit (byteAt (qspiWarp s) 0xE) 1 = false → verifyWarp (s.setFld Reg.WRP_STATUS 4 4 0) (qspiWarp s) = .inl e →
      ∃ t, exec .qspiWarpLoad s = .next t ∧ loadRefused t e ∧ t.wrp.load = none) ∧
    (∀ w, s.pwr.stage = 2 → s.bit Reg.PWR_AON_START_CFG 20 = false → s.wrp.load = none → s.wrp.active = none →
      nbit (byteAt (qspiWarp s) 0xE) 1 = false → verifyWarp (s.setFld Reg.WRP_STATUS 4 4 0) (qspiWarp s) = .inr w → s.wrp.jobs = [] →
      structFibres w ≤ 16 * spindlesIn s → ∃ t, exec .qspiWarpLoad s = .next t ∧
        t.wrp.load = some { new := w, partialLoad := false, placed := structFibres w, phase := 5 }) ∧
    (∀ i : Fin 576, nbit s.wrp.spRetired i = false → s.wrp.active = none → 2 ≤ s.pwr.stage →
      ∃ t, exec (.spindleSelfTestFail i) s = .next t ∧ t.wrp = { s.wrp with spRetired := s.wrp.spRetired + 2 ^ i.val }) ∧
    (∀ (i : Fin 576) (layers : List (Bool × Fin 32)), s.wrp.active.isSome → ((goodSpindles s).take 512).contains i.val = true →
      s.wrp.jobs ≠ [] → (∀ l ph o, .handover i.val l ph o ∉ s.wrp.jobs) → ∃ t, exec (.testVectorFail i layers) s = .next t ∧
        t.wrp.jobs = s.wrp.jobs ++ [.handover i (layers.map (fun x => (x.1, x.2.val))) .queued none]) ∧
    (∀ i layers onto rest, (∀ r, s.wrp.jobs = .handover i layers .queued onto :: rest → nextReserveSpindle s = some r →
        ∃ t, exec .weaverJobStart s = .next t ∧ t.wrp = { s.wrp with jobs := .handover i layers .shadow (some r) :: rest }) ∧
      (s.wrp.jobs = .handover i layers .shadow onto :: rest →
        ∃ t, exec (.shadowCompareDone true) s = .next t ∧ t.wrp = { s.wrp with jobs := .handover i layers .moving onto :: rest }) ∧
      (∀ r, s.wrp.jobs = .handover i layers .moving (some r) :: rest → ∃ t, exec .reserveHandover s = .next t ∧ t.wrp.jobs = rest ∧
        t.bit Reg.WRP_INT_STATUS 3 = true) ∧
      (∀ x, s.wrp.jobs = .handover i layers .converting onto :: rest →
        ((convertOrder layers).filter (liveSlot s)).find? (fun x => !inFallback s x) = some x →
        ∃ t, exec .fallbackConversion s = .next t ∧ t.bit Reg.WRP_INT_STATUS 4 = true)) ∧
    (∀ p : Fin 64,
      (∀ g : Fin 8, s.groupOf p = g.val → ∃ t, exec (.groupBoundary g) s = .next t ∧ (pathOf t p).ocp = false ∧
        (pathOf t p).hostMute = s.bit (Reg.PTH_CTRL p) 0) ∧
      (∀ w : Word, s.served (Reg.PTH_TX_ATTEN p) = true → ∃ t, exec (.pthTxAttenWrite p w) s = .next t ∧ t.fld (Reg.PTH_TX_ATTEN p) 6 0 = fld w 6 0) ∧
      (∀ w : Word, s.served (Reg.PTH_RX_ATTEN p) = true → ∃ t, exec (.pthRxAttenWrite p w) s = .next t ∧
        t.fld (Reg.PTH_RX_ATTEN p) 4 0 = min 30 (fld w 4 0)) ∧
      (∀ (tx : Bool) (w : Word), s.served (trimUserReg tx p) = true → (if tx then pathInTx s p else pathInRx s p) = true →
        ∃ t, exec (.pthTrimUserWrite p tx w) s = .next t ∧ t.fld (trimUserReg tx p) 17 0 = fld w 17 0) ∧
      (s.served (Reg.PTH_CTRL p) = true →
        (∀ mute now : Bool, ∃ t, exec (.txMute p mute now) s = .next t ∧ t.bit (Reg.PTH_CTRL p) 0 = mute) ∧
        (∀ zero : Bool, ∃ t, exec (.rxZero p zero) s = .next t ∧ t.bit (Reg.PTH_CTRL p) 2 = zero) ∧
        (∀ off : Bool, ∃ t, exec (.invSincOff p off) s = .next t ∧ t.bit (Reg.PTH_CTRL p) 4 = off) ∧
        ((pathOf s p).txFault = 3 → pathInTx s p = false → ∃ t, exec (.clearOcp p) s = .next t ∧ (pathOf t p).clearOcp = true)) ∧
      (s.pwr.level ≠ 3 → ∀ q : Bool,
        ((adcOf s p q).spare < 9 → pathInRx s p = true →
          (∀ rms ≤ 64, ∃ t, exec (.shadowBlockDone p q rms) s = .next t ∧ (adcOf t p q).bad = 0) ∧
          (∃ t, exec (.shadowPassDone p q) s = .next t ∧ (adcOf t p q).shadow = ((adcOf s p q).shadow + 1) % 8)) ∧
        (∀ pos : Fin 8, pathInRx s p = true → (pathOf s p).rxFault = 0 →
          ∃ t, exec (.adcStuckDetect p q pos) s = .next t ∧ nbit (adcOf t p q).filling pos = true) ∧
        (∀ (sub : Fin 9) (o g k : Int), -96 ≤ o → o ≤ 96 → -400 ≤ g → g ≤ 400 → -70 ≤ k → k ≤ 70 →
          ∃ t, exec (.adcCorrectionEstimate p q sub o g k) s = .next t ∧ tget (fun _ => (0, 0, 0)) (adcOf t p q).corr sub = (o, g, k)) ∧
        (∀ seg : Fin 63, (pathOf s p).txFault = 0 → (dacOf s p q).failed.any (·.pos == seg.val) = false → (dacOf s p q).left ≠ 0 →
          pathInTx s p = true → ∃ t, exec (.dacSegmentMeasured p q seg false) s = .next t ∧
            (dacOf t p q).failed = (dacOf s p q).failed ++ [{ pos := seg.val, seq := s.glb.detected }])) ∧
      ((pathOf s p).txFault = 0 → (pathOf s p).txFaultNext = 0 → pathInTx s p = true →
        ∃ t, exec (.dacBinaryFail p) s = .next t ∧ (pathOf t p).txFaultNext = 2) ∧
      ((pathOf s p).txFault = 0 → ∃ t, exec (.ocpTrip p) s = .next t ∧ t.bit (Reg.PTH_INT_STATUS p) 5 = true) ∧
      (∀ i q both : Nat, ∃ t, exec (.overloadMs p i q both) s = .next t ∧
        t.fld (Reg.PTH_OVLD_COUNT p) 31 16 = satAdd 0xFFFF (s.fld (Reg.PTH_OVLD_COUNT p) 31 16) i)) ∧
    (s.syn.active < 2 → s.syn.refGone = false → ∃ t, exec .refLost s = .next t ∧ refValid t (s.syn.active == 1) = false) ∧
    (∀ b ok : Bool, ∃ t, exec (.standbyRefCheck b ok) s = .next t ∧ refValid t b = ok) ∧
    (s.syn.holdover = true → ∃ t, exec .holdoverExpiry s = .next t ∧ t.syn.holdover = false ∧ t.syn.cnvInvalid = true) ∧
    (∀ w : Word, s.served Reg.SYN_REF_CFG = true → refValid s (bitOf w 0) = true →
      ∃ t, exec (.synRefSelWrite w) s = .next t ∧ t.syn.active = b2n (bitOf w 0)) ∧
    (∃ t, exec (.lockDeclared .timeBase) s = .next t ∧ t.syn = { s.syn with tbLock := true }) ∧
    (s.syn.cnvLock = true → ∃ t, exec .cnvLossOfLock s = .next t ∧ t.syn.cnvLock = false ∧ t.syn.cnvInvalid = true) ∧
    (∀ u : Fin 3,
      ((vget s.syn.units u).locked = true → unitRole s u = none → ∃ t, exec (.lossOfLock u) s = .next t ∧ (vget t.syn.units u).locked = false) ∧
      ((vget s.syn.units u).on = true → (vget s.syn.units u).locked = false →
        ∃ t, exec (.bandSearchStart u) s = .next t ∧ (vget t.syn.units u).search = true) ∧
      (∀ r, unitRole s u = some r → (vget s.syn.roles r).swapRun = false → s.syn.reserve < 3 → s.syn.failedFirst = [] →
        ∃ t, exec (.rfUnitFailed u) s = .next t ∧ t.syn.failedFirst = [u.val]) ∧
      (∀ n : Fin 64, (vget s.syn.units u).cal = true →
        ∃ t, exec (.vcoCalDone u (some n)) s = .next t ∧ (vget t.syn.units u).cal = false ∧ (vget t.syn.units u).band = n.val) ∧
      (∀ (v : Int) (e : Bool), v.natAbs ≤ 80 → ∃ t, exec (.tuningVoltageLimit u v e) s = .next t ∧ (vget t.syn.units u).vtune = v)) ∧
    (∀ r : Fin 2,
      ((vget s.syn.roles r).lost = true → roleReady s r = false → (vget s.syn.roles r).latched = false →
        ∃ t, exec (.loLatched (.role r)) s = .next t ∧ (vget t.syn.roles r).latched = true) ∧
      ((vget s.syn.roles r).swapRun = true →
        ∃ t, exec (.synthSwapDone r) s = .next t ∧ (vget t.syn.roles r).unit = (vget s.syn.roles r).swapUnit ∧ (vget t.syn.roles r).swapRun = false) ∧
      (jobMayStart s r = true → (vget s.syn.roles r).swapRun = false → (vget s.syn.roles r).swapWait = false → (roleUnit s r).cal = false →
        (vget s.syn.roles r).calWait = true → (vget s.syn.roles r).calForce = true → (vget s.syn.roles r).unit < 3 →
        ∃ t, exec (.vcoCalGapStart r) s = .next t ∧ (vget t.syn.units (vget s.syn.roles r).unit).cal = true) ∧
      ((vget s.syn.roles r).calWait = true → (vget s.syn.roles r).waitLong = false →
        ∃ t, exec (.synCalWaitLong r) s = .next t ∧ (vget t.syn.roles r).waitLong = true ∧ t.bit Reg.SYN_INT_STATUS 4 = true)) ∧
    (∀ a b : Fin 64, s.syn.reserve < 3 → ∃ t, exec (.reserveProving false a b) s = .next t ∧ t.syn.reserve = 3) ∧
    (s.served Reg.SYN_CTRL = true → (s.syn.cnvLatched = true → ∃ t, exec .resumeCnv s = .next t ∧ t.syn.cnvArm = true) ∧ ∀ b : Bool,
      ((vget s.syn.roles (b2n b)).latched = true → ∃ t, exec (.resume b) s = .next t ∧ (vget t.syn.roles (b2n b)).arm = true) ∧
      ((vget s.syn.roles (b2n b)).used = true → (vget s.syn.roles (b2n b)).swapWait = false → (roleUnit s (b2n b)).cal = false →
        ∃ t, exec (.vcocal b false) s = .next t ∧ (vget t.syn.roles (b2n b)).calWait = true) ∧
      ((vget s.syn.roles (b2n b)).used = true → (vget s.syn.roles (b2n b)).swapRun = false → s.syn.reserve < 3 →
        ∃ t, exec (.swap b false) s = .next t ∧ (vget t.syn.roles (b2n b)).swapWait = true)) ∧
    (∀ (f : Fin 8) (w : Word), s.served (Reg.SYN_PHASE f) = true →
      ∃ t, exec (.synPhaseWrite f w) s = .next t ∧ t.reg (Reg.SYN_PHASE f) = w &&& 0x03FF03FF)

/-- Each of these commands answers a next state with its own effect, under conditions on the state and the operands alone. A skein word is
written; a swap of a layer or of a predistorter is accepted under its tag, starts with its bank flipped, and its ply ends; reports are
removed. An FFT job is queued, runs, and ends with its result. Coefficients and path settings are written. A due path collects, its
block counts, the solver takes it and ends; a verification decides, a late path is STALE; a survey begins, is granted, ends or is
aborted. A group takes a command and ends a transition; a burst is accepted, prepared, started and ended; reports are removed, a line is
set. An RFFE frame is sent at once, queued for its time, sent and ended. A licence record is staged, cleared and written; a power window
gives the estimate of a LIVE chain, and its attenuation falls after a quiet second. -/
def Obligations.BeamPredistortionAndRadioCommandsComplete : Prop :=
  ∀ s : State,
    (∀ (a : BitVec 22) (w : Word), s.served (skeinDlBase + 4 * a.toNat) = true →
      ∃ t, exec (.skeinMemoryWrite a w) s = .next t ∧ t = skeinWrite (skeinDlBase + 4 * a.toNat) (leBytes 4 w.toNat) s) ∧
    (∀ w : Word, s.served Reg.SKN_SWITCH_CTRL = true → bitOf w 31 = true →
      swapCode s (bitOf w 30) (fld w 20 16) (fld w 9 0) (fld w 26 23) (bitOf w 29) (bitOf w 28) .host
        (timeNear s.time.tb0 (s.reg Reg.SKN_SWITCH_TIME_S).toNat (s.reg Reg.SKN_SWITCH_TIME_NS).toNat) = 0 →
      ∃ t, exec (.sknSwitchCtrlGo w) s = .next t ∧ t.fld Reg.SKN_SWITCH_RESULT 31 30 = 1 ∧ t.skn.tag = (s.skn.tag + 1) % 65536) ∧
    (∀ (ul : Bool) (l : Fin 32) r, (s.slot ul l).pend = some r → plyRuns (s.slot ul l).ply = false →
      ∃ t, exec (.swapStart (.layer ul l)) s = .next t ∧ (t.slot ul l).pend = none ∧ (t.slot ul l).activeB = !(s.slot ul l).activeB) ∧
    (∀ (ul : Bool) (l : Fin 32), (s.slot ul l).ply.isSome → ∃ t, exec (.plyEnd (.layer ul l)) s = .next t ∧ (t.slot ul l).ply = none) ∧
    (s.served Reg.SKN_REPORT_POP = true →
      ∃ t, exec .sknReportPop s = .next t ∧ t.skn = { s.skn with reports := s.skn.reports.drop 1 }) ∧
    (∀ f : Fin 8,
      (s.served (Reg.FFT_JOB_SUBMIT f) = true → fftCode s f = 0 → ∃ t, exec (.fftJobSubmit (f, false)) s = .next t ∧
        (vget t.fft f).queue.length = (vget s.fft f).queue.length + 1 ∧ t.fld (Reg.FFT_STATUS f) 27 26 = 1) ∧
      (∀ (x : List Cplx) (first : Nat) j rest, (vget s.fft f).queue = j :: rest → jobReady s (vget s.fft f) j = true →
        ∃ t, exec (.fftJobStart f x first) s = .next t ∧ (vget t.fft f).queue = rest ∧ (vget t.fft f).run.map (·.tag) = some j.tag) ∧
      (∀ j, (vget s.fft f).run = some j → jobWaits s j true = false →
        ∃ t, exec (.fftJobDone f) s = .next t ∧ (vget t.fft f).run = none ∧ t.bit Reg.FFT_INT_STATUS f = true)) ∧
    (∀ w : Word, s.served Reg.DPD_SWITCH_CTRL = true → bitOf w 31 = true → s.wrp.active.isSome → s.pwr.level ≠ 3 →
      dpdEnabled s (fld w 21 16) = true → fld w 26 23 ≠ 1 → fld w 26 23 ≤ 8 →
      ∃ t, exec (.dpdSwitchCtrlGo w) s = .next t ∧ t.fld Reg.DPD_SWITCH_RESULT 31 30 = 1 ∧ t.dpd.tag = (s.dpd.tag + 1) % 65536) ∧
    (∀ (a : BitVec 18) (w : Word), s.served (coefBase + 4 * a.toNat) = true → adaptOn s (coefPath (coefBase + 4 * a.toNat)) = false →
      ∃ t, exec (.dpdCoeffMemoryWrite a w) s = .next t ∧ t = coefWrite (coefBase + 4 * a.toNat) (leBytes 4 w.toNat) s) ∧
    (∀ p : Fin 64,
      (∀ w : Word, s.served (Reg.DPD_PATH_CFG p) = true → txLive s p = false → adaptOn s p = false →
        ∃ t, exec (.dpdPathCfgWrite p w) s = .next t ∧
          t.reg (Reg.DPD_PATH_CFG p) = pk [(31, fld w 31 31), (4, clampN 1 8 (fld w 7 4)), (0, fld w 1 0)]) ∧
      (dpdEnabled s p = true → adaptOn s p = true →
        (s.pwr.level ≠ 3 → 3 ≤ s.pwr.stage → (dpdOf s p).adapt = .idle → (dpdOf s p).dueFrom + dpdPeriod s p ≤ s.time.tb1 →
          ∃ t, exec (.dpdPathDue p) s = .next t ∧ (dpdOf t p).adapt = .collecting 0 0) ∧
        ((dpdOf s p).doneAt + 2 * dpdPeriod s p ≤ s.time.tb1 →
          ∃ t, exec (.dpdStale p) s = .next t ∧ t.fld (Reg.DPD_STATUS p) 29 29 = 1)) ∧
      (∀ rest, s.dpd.solver = none → s.dpd.queue = p.val :: rest → s.dpd.rest ≤ s.time.tb1 →
        ∃ t, exec .solveStart s = .next t ∧ t.dpd.solver = some p.val ∧ (dpdOf t p).adapt = .solving) ∧
      (∀ took : Nat, s.dpd.solver = some p.val → ∃ t, exec (.solveDone p took) s = .next t ∧ t.dpd.solver = none) ∧
      (∀ (k : ObsBlock) b, (dpdOf s p).adapt = .verifying b → visitMember s (p / 8) = some (p % 8) →
        blockCode s p (blockOf (dpdOf s p).cfg k) = 0 →
        ∃ t, exec (.dpdVerificationDone p k) s = .next t ∧ (dpdOf t p).adapt = .idle)) ∧
    (∀ (o m : Fin 8) (k : ObsBlock) good bad, visitMember s o = some m.val → (dpdOf s (8 * o.val + m.val)).adapt = .collecting good bad →
      blockCode s (8 * o.val + m.val) (blockOf (dpdOf s (8 * o.val + m.val)).cfg k) = 0 →
      ∃ t, exec (.obsVisitDone o m k) s = .next t ∧ (vget t.dpd.obs o).last = m) ∧
    (∀ w : Word, s.served Reg.DPD_SURVEY_CTRL = true → bitOf w 31 = true → surveyCode s (surveyOf s (fld w 5 0)) = 0 →
      ∃ t, exec (.dpdSurveyCtrlGo w) s = .next t ∧ t.dpd.surveys = s.dpd.surveys ++ [surveyOf s (fld w 5 0)]) ∧
    (∀ (o : Fin 8) v,
      ((obsGrant o s).2 = some (.survey v.path) → surveyFor s v.path = some v →
        ∃ t, exec (.obsHolderGrant o) s = .next t ∧ t.dpd.surveys.head? = some { v with granted := true }) ∧
      (∀ steps : List (Cplx × Cplx), s.dpd.surveys.find? (fun v => v.path / 8 == o.val && v.granted) = some v →
        ∃ t, exec (.surveyDone (o, steps)) s = .next t ∧ t.dpd.surveys = s.dpd.surveys.erase v ∧ t.bit Reg.DPD_INT_STATUS 5 = true)) ∧
    (s.dpd.surveys ≠ [] → ∃ t, exec .surveyAbort s = .next t ∧ t.dpd.surveys = [] ∧ t.bit Reg.DPD_INT_STATUS 6 = true) ∧
    (∀ w : Word, s.served Reg.RAD_GROUP_CMD = true → bitOf w 31 = true → groupCmdCode s (fld w 18 16) (fld w 2 0) = 0 →
      isBellwether s = false → ∃ t, exec (.radGroupCmd w) s = .next t ∧ t.fld Reg.RAD_GROUP_RESULT 31 30 = 1) ∧
    (∀ w : Word, s.served Reg.RAD_BURST_CTRL = true → bitOf w 31 = true → burstCode s .host (fld w 18 16) (bitOf w 30)
        (timeNear s.time.tb0 (s.reg Reg.RAD_BURST_TIME_S).toNat (s.reg Reg.RAD_BURST_TIME_NS).toNat) (s.fld Reg.RAD_BURST_LEN 22 0)
        (fld w 29 27) = 0 →
      ∃ t, exec (.radBurstCtrlGo w) s = .next t ∧ t.reg Reg.RAD_BURST_RESULT = pk [(30, 1), (0, (s.rad.hostTag + 1) % 65536)] ∧
        ((grp t (fld w 18 16)).bursts.getLast?.map (·.tag)) = some ((s.rad.hostTag + 1) % 65536)) ∧
    (∀ g : Fin 8,
      (∀ st, (grp s g).trans = some st → st ≠ .tx → st ≠ .rx ∨ (grp s g).bursts = [] →
        ∃ t, exec (.groupTransitionDone g) s = .next t ∧ (grp t g).state = st) ∧
      (∀ b, firstBurst (·.start) ((grp s g).bursts.filter (fun b => !b.prep && !b.started)) = some b →
        ∃ t, exec (.burstPreparation g) s = .next t ∧
          (grp t g).bursts = (grp s g).bursts.map (fun x => if x.seq = b.seq then { x with prep := true } else x)) ∧
      (∀ b, firstBurst (·.start) ((grp s g).bursts.filter (fun b => !b.started)) = some b → startCode s g b = 0 → b.tx = true →
        ∃ t, exec (.burstStart g) s = .next t ∧ (grp t g).state = .tx) ∧
      (∀ b, firstBurst burstStop ((grp s g).bursts.filter (·.started)) = some b →
        ∃ t, exec (.burstEnd g) s = .next t ∧ (grp t g).bursts = (grp s g).bursts.filter (fun x => x.seq != b.seq))) ∧
    (s.served Reg.RAD_REPORT_POP = true →
      ∃ t, exec .radReportPop s = .next t ∧ t.rad = { s.rad with reports := s.rad.reports.drop 1 }) ∧
    (∀ (f : Fin 8) (n : Fin 4) (w : Word), s.served (Reg.RAD_LINE_CFG f n) = true →
      ∃ t, exec (.radLineCfgWrite f n w) s = .next t ∧ t.reg (Reg.RAD_LINE_CFG f n) = w &&& 0x73FF03FF) ∧
    (∀ (f : Fin 8) (w : Word), s.served (Reg.RAD_RFFE_CMD f) = true → bitOf w 31 = true → rffeBadType w = false →
      s.bit (Reg.RAD_RFFE_CFG f) 31 = true →
      ((rffe s f).run.isSome → ∃ t, exec (.rffeImmediateCmd f w) s = .next t ∧
        (rffe t f).imm = (rffe s f).imm ++ [{ cmd := w, wdata := s.reg (Reg.RAD_RFFE_WDATA f), air := none }]) ∧
      ((rffe s f).queue.length < 16 → s.locked = true →
        s.time.tb0 + rffeTu (s.reg (Reg.RAD_RFFE_CFG f)) w + usTu ≤
          timeNear s.time.tb0 (s.reg (Reg.RAD_RFFE_TIME_S f)).toNat (s.reg (Reg.RAD_RFFE_TIME_NS f)).toNat →
        ∃ t, exec (.rffeTimedCmd f w) s = .next t ∧ t.fld (Reg.RAD_RFFE_STATUS f) 30 29 = 1 ∧
          (rffe t f).queue.length = (rffe s f).queue.length + 1)) ∧
    (∀ f : Fin 8,
      (∀ c rest, (rffe s f).queue = c :: rest → (rffe s f).run = none →
        ∃ t, exec (.rffeTimedFrameSend f) s = .next t ∧ (rffe t f).run = some c ∧ (rffe t f).queue = rest) ∧
      (∀ (d : Word) (e : Bool), (rffe s f).run.isSome → (rffe s f).queue = [] → (rffe s f).imm = [] →
        ∃ t, exec (.rffeFrameDone f d e) s = .next t ∧ (rffe t f).run = none)) ∧
    (∀ w : Word, s.served Reg.NVS_PAST_DATA = true → s.nvs.pastStage.words.length < 75 →
      ∃ t, exec (.nvsPastDataWrite w) s = .next t ∧ t.nvs.pastStage.words = s.nvs.pastStage.words ++ [w]) ∧
    (s.served Reg.NVS_PAST_CTRL = true →
      (∃ t, exec .pastureClear s = .next t ∧ t.nvs = { s.nvs with pastStage := {} }) ∧
      (pastCode s = 0 → ∃ t, exec .pastureWrite s = .next t ∧ t.reg Reg.NVS_PAST_STATUS = pk [(30, 3), (16, 0)] ∧ t.nvs.pastBusy = true)) ∧
    (∀ (l : List (Option Int)) r (p : Fin 64) (x : Int), s.rad.pasture = some r → l.getD p none = some x →
      ∃ t, exec (.licencePowerWindow l) s = .next t ∧ (pathOf t p).licEst = pathPower s r p x) ∧
    (∀ p : Fin 64, 0 < (pathOf s p).licAtten → (pathOf s p).licQuietSince + secTu ≤ s.time.tb1 →
      ∃ t, exec (.licenceAttenRelax (some p)) s = .next t ∧ (pathOf t p).licAtten = (pathOf s p).licAtten - 1)

/-- Each of these commands answers a next state with its own effect, under conditions on the state and the operands alone. A bring-up
pauses, restarts and reaches L0; a port takes a state request, a hold and its end, a retrain, a retry, and leaves quarantine. A suspect
lane, one whose CDR stays unlocked and one that SWAP names are taken into a swap or looped back; a swap and a loopback end; errors are
counted; a fold reserve is found; taps and a test are stored. A good frame of a flock reaches eCPRI, one of PTP the clock, and one of
nobody is counted. An on-time section is covered and held in the ingress store; the sections of the earliest deadline leave it; a needed
sample without one is substituted; full blocks in RX leave as a section; a delay request is answered. A flock's messages enter the
requests, plan the ends of slots, take a waiting request out, write a skein, enter a swap or a burst in the schedule, and are answered
with CAPS. An epoch ends; the changes of the earliest time take effect; a limit and a window refuse; a quarantine begins and ends;
RELEASE_ALL plans the end of every slot of the flock. -/
def Obligations.LaneAndFronthaulCommandsComplete : Prop :=
  ∀ s : State,
    (∀ q : Fin 5,
      (∀ step reached : Fin 8, (port s q).state = .training → (port s q).paused = false → 2 ≤ step.val → step.val ≤ 5 → (port s q).swap = none →
        ∃ t, exec (.portStepTimeout q (step, reached)) s = .next t ∧ (port t q).step = min reached.val step.val ∧
          (port t q).paused = !(port s q).external) ∧
      ((port s q).paused = true → plainBringUp s q →
        ∃ t, exec (.portBringupRestart q) s = .next t ∧ (port t q).state = .training ∧ (port t q).step = 1 ∧ (port t q).paused = false) ∧
      (∀ found : List LaneFound, (port s q).state = .training → (port s q).swap = none → (port s q).paused = false →
        found.length = positions q → foundAll (portLanes s q) found = true → skewBad q found = false → s.lne.waiting = [] →
        ∃ t, exec (.portL0 q found) s = .next t ∧ (port t q).state = l0State (port s q) ∧ t.bit Reg.LNE_INT_STATUS 0 = true) ∧
      (s.served (Reg.LNE_PORT_CTRL q) = true →
        (∀ st : Fin 4, q.val < 2 ∨ q.val = 4 → st.val = 1 ∨ st.val = 2 → portInUse s q = false → (port s q).state ≠ .off →
          (port s q).state ≠ .downFault → ∃ t, exec (.lnePortState q st) s = .next t ∧ (port t q).state = (if st.val = 1 then .l1 else .l2)) ∧
        (∃ t, exec (.hold q) s = .next t ∧ (port t q).held = true) ∧
        (∃ t, exec (.holdClear q) s = .next t ∧ (port t q).held = false) ∧
        ((port s q).state = .l0 → (port s q).swap = none → plainBringUp s q →
          ∃ t, exec (.retrain q) s = .next t ∧ (port t q).state = .training)) ∧
      ((port s q).state = .downFault → (port s q).external = true ∨ q.val = 4 → plainBringUp s q →
        ∃ t, exec (.portRetryTimer q) s = .next t ∧ (port t q).state = .training) ∧
      ((port s q).state = .quarantined → (port s q).dirty = false → (port s q).swap = none →
        ∃ t, exec (.quarRelease q) s = .next t ∧ (port t q).quar = false ∧ (port t q).state ≠ .quarantined) ∧
      (∀ (found : List LaneFound) n rn, (port s q).swap = some (n, rn) → foundAll (rn :: (portLanes s q).filter (· != n)) found = true →
        skewBad q found = false → found.length = positions q → (livePositions s q (lane s rn).pos).length = positions q →
        s.lne.waiting = [] → rn < 29 →
        ∃ t, exec (.laneSwapDone q found) s = .next t ∧ (port t q).swap = none ∧ (port t q).state = l0State (port s q)) ∧
      (∀ (pass : Bool) n, (port s q).loopback = some n →
        ∃ t, exec (.laneLoopbackDone q pass) s = .next t ∧ (port t q).loopback = none ∧ (port t q).external = pass)) ∧
    (∀ n : Fin 29, failsNow s n →
      (∀ step2 : Bool, (lane s n).state = .train → (port s (lane s n).port).state = .training → (port s (lane s n).port).paused = false →
        ∃ t, exec (.suspectLane (n, step2)) s = .next t ∧ laneTaken s t n) ∧
      ((lane s n).state = .l0 → ∃ t, exec (.cdrLoss n true) s = .next t ∧ laneTaken s t n) ∧
      (s.served (Reg.LNE_LANE_CTRL n) = true → (lane s n).state = .l0 → (firstReserve s (lane s n).port).isSome →
        ∃ t, exec (.swapLane n) s = .next t ∧ laneTaken s t n)) ∧
    (∀ k : LaneErrors, (lane s k.lane).state ≠ .test → ∃ t, exec (.laneErrorWindow [k] []) s = .next t ∧
      t.reg (Reg.LNE_SYM_ERR k.lane) = BitVec.ofNat 32 (satAdd 0xFFFFFFFF (s.reg (Reg.LNE_SYM_ERR k.lane)).toNat k.errors)) ∧
    (∀ (i : Fin 2) (w : WiredTo), s.bit Reg.LNE_CFG 1 = true → s.cas.role ≠ 0 → 2 ≤ s.pwr.stage → (reserveLane s (i.val + 2)).state = 0 →
      ∃ t, exec (.foldReserveDiscovery i w) s = .next t ∧
        (reserveLane t (i.val + 2)).wired = (match w with | .fl0 _ => 1 | .fl1 _ => 2 | .nothing => 3)) ∧
    (∀ (n : Fin 29) (w : Word),
      (s.served (Reg.LNE_TX_EQ n) = true → tapSum w ≤ 63 → lineTrains s n = false →
        ∃ t, exec (.lneTxEqWrite n w) s = .next t ∧ t.fld (Reg.LNE_TX_EQ n) 23 4 = fld w 23 4) ∧
      (s.served (Reg.LNE_TEST_CTRL n) = true → testable s n = true → bitOf w 31 = true →
        ∃ t, exec (.lneTestCtrlWrite n w) s = .next t ∧ (lane t n).state = .test ∧ t.reg (Reg.LNE_TEST_CTRL n) = w &&& 0x80000003)) ∧
    (∀ (q : Fin 3) (fine : Fin 16) (b : List Byte), q.val < 2 → (port s q).state = .l0 → 60 ≤ b.length → b.length ≤ 9212 →
      (etherType b = 0x88F7 → ∃ t, exec (.ethernetFrameRx q fine b true false) s = .next t ∧ t = ptpRx q fine (etherBody b) s) ∧
      (∀ k, etherType b = 0xAEFE → isStackMember s = false → frameFlock s q b = some k →
        ∃ t, exec (.ethernetFrameRx q fine b true false) s = .next t ∧ t = ecpriRx q k (ingressAt s fine) (etherBody b) s)) ∧
    (∀ (k : Fin 8) (q : Fin 2) (id : BitVec 16) (b : List Byte) l c first, flockServed s k = true → badSection b = false →
      sectionLayer s k id.toNat = some l → layerCarrier s false l = some c → byteAt b 6 % 4 = c.format →
      be b 2 3 + byteAt b 5 ≤ frameBlocks c →
      first = nearSec s.time.tb0 (byteAt b 0) * secTu + byteAt b 1 * frameTu + be b 2 3 * blockTu c →
      deadlineOf s first - (s.fld Reg.FHP_CFG 15 8 * usTu : Nat) ≤ (s.time.tb0 : Nat) → ((s.time.tb0 : Nat) : Int) ≤ deadlineOf s first →
      meets s.fhp.covered l first (first + byteAt b 5 * blockTu c) = false →
      insideOf s.fhp.subst l first (first + byteAt b 5 * blockTu c) = false →
      ∃ t, exec (.iqSectionRx k q id b) s = .next t ∧ (l, first, first + byteAt b 5 * blockTu c) ∈ t.fhp.covered ∧
        ((vget s.fhp.flocks k).quar = false → t.fhp.ingress.length = s.fhp.ingress.length + 1)) ∧
    (∀ x ∈ s.fhp.ingress, (∀ y ∈ s.fhp.ingress, x.deadline ≤ y.deadline) → ∃ t, exec .sectionRelease s = .next t ∧ x ∉ t.fhp.ingress) ∧
    (∀ (l : Fin 32) (k : Nat) (c : Carrier) (y : LayerCfg) (air : Nat), s.holder false l = some k → layerCarrier s false l = some c →
      s.layer false l = some y → air = s.time.tb0 + downlinkLead * pathPeriod s.pwr.level + stackDelay s → isStackMember s = false →
      neededAt s c air = true → insideOf s.fhp.covered l air (air + 1) = false → insideOf s.fhp.subst l air (air + 1) = false →
      ∃ t, exec (.lateSubstitution l) s = .next t ∧ t.fhp.subst = addSpan s.time.tb0 l air (symbolAfter c air) s.fhp.subst ∧
        t.bit Reg.FHP_INT_STATUS 5 = true) ∧
    (∀ (l : Fin 32) (start count : Nat) (rx : List (List Cplx)) (m : UlMarks) k y c f, isStackMember s = false → isBellwether s = false →
      s.holder true l = some k → s.layer true l = some y → layerCarrier s true l = some c → s.flockCfg k = some f →
      portUp s y.port = true → (vget s.fhp.ulPart l).blocks = [] → 1 ≤ count →
      count = min (sectionLimit s k c.format) (frameBlocks c - blockNo c start) →
      (∀ i, i < count → blockInRx s c (start + i * blockTu c) = true) →
      ∃ t, exec (.ulSectionSend l start count rx m) s = .next t ∧ t.fhp.sent.length = s.fhp.sent.length + 1) ∧
    (∀ (k : Fin 8) (q : Fin 2) (fine : Fin 16) (b : List Byte), flockServed s k = true → portUp s q = true → 20 ≤ b.length →
      byteAt b 1 = 0 → (vget s.fhp.flocks k).msgs < s.fld Reg.FHP_CFG 23 16 →
      ∃ t, exec (.ecpriDelayMeasurement k (q, fine) b) s = .next t ∧ t.fhp.sent.length = s.fhp.sent.length + 1) ∧
    (∀ (k : Fin 8) (q : Fin 2) (tag : BitVec 16) (b : List Byte),
      (messageTaken s k 0x01 b → ∃ t, exec (.admitReq k q tag b) s = .next t ∧ t.fhp.reqs.length = s.fhp.reqs.length + 1) ∧
      (∀ (l : Fin 32) h, messageTaken s k 0x02 b →
        (∀ l : Fin 32, nbit (be b 4 4) l = true → s.holder (nbit (byteAt b 0) 7) l = some k.val) → nbit (be b 4 4) l = true →
        holding s (nbit (byteAt b 0) 7) l = some h → h.k = k.val →
        ∃ t, exec (.releaseSlots k q tag b) s = .next t ∧ (holding t (nbit (byteAt b 0) 7) l).any (·.ending.isSome) = true) ∧
      (∀ r, messageTaken s k 0x03 b → (waitingReqs s).find? (fun r => r.k == k.val && r.tag == be b 0 2) = some r →
        ∃ t, exec (.withdraw k q tag b) s = .next t ∧ t = admitReply r 6 0 0 0 (dropReq r (messageCounted k s))) ∧
      (messageTaken s k 0x10 b → byteAt b 1 = 0 → nbit (byteAt b 0) 7 = true → inPartition s true k (be b 2 2) = true → 1 ≤ stackSize s →
        ∃ t, exec (.skeinWrite k q tag b) s = .next t ∧ t = skeinWriteBody true b (messageCounted k s)) ∧
      (messageTaken s k 0x11 b → nbit (byteAt b 0) 7 = true → flockSwapCode (messageCounted k s) k b = 0 →
        (s.slot true (byteAt b 0 % 32)).pend = none →
        ∃ t, exec (.swapReq k q tag b) s = .next t ∧
          (t.slot true (byteAt b 0 % 32)).pend.any (fun r => decide (r.who = .flock k) && r.tag == tag.toNat) = true) ∧
      (∀ st, messageTaken s k 0x20 b → nbit (byteAt b 0) 7 = false → flockBurstCode (messageCounted k s) k b = 0 →
        gstateOf (byteAt b 0 / 16 % 8) = some st →
        ∃ t, exec (.burstReq k q tag b) s = .next t ∧
          (grp t (byteAt b 0 % 8)).bursts.any (fun x => decide (x.who = .flock k) && x.tag == tag.toNat && !x.tx) = true) ∧
      (messageTaken s k 0x30 b → ∃ t, exec (.capsReq k q tag b) s = .next t ∧ (vget t.fhp.flocks k).formats = byteAt b 0 % 8 ∧
        (vget t.fhp.flocks k).capsDone = true)) ∧
    (∃ t, exec .arbitrationEpochEnd s = .next t ∧ t.fhp.epoch = s.fhp.epoch + 1 ∧ t.fhp.reqs = []) ∧
    (∀ x ∈ s.fhp.changes, (∀ y ∈ s.fhp.changes, x.at_ ≤ y.at_) → ∃ t, exec .slotEffectiveTime s = .next t ∧ x ∉ t.fhp.changes) ∧
    (∀ n r, s.fhp.tie = [(n, r)] →
      ∃ t, exec (.queueLimitExpiry .admission) s = .next t ∧ t = admitReply r 3 1 0 0 (dropReq r s)) ∧
    (∀ r, firstLimit ((List.range 8).flatMap (fun k => (vget s.fhp.flocks k).deferred)) = some r →
      ∃ t, exec .deferWindowExpiry s = .next t ∧ t = admitReply r 3 1 0 0 (dropReq r s) ∧ t.bit Reg.FHP_INT_STATUS 1 = true) ∧
    (∀ k : Fin 8,
      ((vget s.fhp.flocks k).quar = false → (vget s.fhp.flocks k).quarNext = true →
        ∃ t, exec (.flockQuarantineOn k) s = .next t ∧ (vget t.fhp.flocks k).quar = true ∧ t.bit Reg.FHP_INT_STATUS 3 = true) ∧
      ((vget s.fhp.flocks k).quar = true → (∀ v ∈ (vget s.fhp.flocks k).viols, v + secTu ≤ s.time.tb1) →
        ∃ t, exec (.flockQuarantineOff k) s = .next t ∧ (vget t.fhp.flocks k).quar = false ∧ t.bit Reg.FHP_INT_STATUS 4 = true)) ∧
    (∀ (w : Word) (ul : Bool) (l : Fin 32) h, s.served Reg.FHP_FLOCK_CTRL = true → bitOf w 31 = true → bitOf w 8 = true →
      holding s ul l = some h → h.k = fld w 2 0 → slotCarrier s ul l < 4 →
      ∃ t, exec (.releaseAll w) s = .next t ∧ (holding t ul l).any (·.ending.isSome) = true)

/-- Each of these commands answers a next state with its own effect, under conditions on the state and the operands alone. A Sync of a peer
is counted, an Announce entered, a Follow_Up of the parent gives the exchange its times, a Delay_Req is sent, and a Delay_Resp that
answers it completes the exchange. The losses and expiries of TB0 lead to their states, a missing Follow_Up is a violation, a peer is
released. REARM begins an acquisition, SNAPSHOT stores the bases, TB3 is decoupled and coupled, timestamps are popped, an edge is
stored, and the pins rise. A fold-link frame that passes its checks is taken: HELLO is kept, LANE has its event, TIME gives the lock
flag, ECHO its receive time, DL_BLOCKS covers the held layers, UL_SUMS joins the device's sums, STATUS is kept, and each CONTROL frame
writes a skein, enters a swap, a burst or a slot's change, stages words, loads them, votes, reports, begins a level change or drops the
devices beyond. HELLO, TIME and sums are sent; a missed pair is substituted. A missing vote ends its command, TB2 is lost, the stack
steps, a neighbour is isolated and let in again. -/
def Obligations.TimeAndCascadeCommandsComplete : Prop :=
  ∀ s : State,
    (∀ (q : Fin 2) (fine : Fin 16) (m : List Byte),
      (∀ x, ptpTaken s q 0x0 m → peerOf s q m = some x → (lastSecond s x.syncs).length < 64 →
        (∀ n, x.syncSeq = some n → (n + 1) % 65536 = ptpSeq m) →
        ∃ t, exec (.ptpSyncRx q fine m) s = .next t ∧
          t.fld (Reg.TIM_PTP_COUNT q) 31 16 = satAdd 0xFFFF (s.fld (Reg.TIM_PTP_COUNT q) 31 16) 1) ∧
      (∀ x, ptpTaken s q 0xB m → peerOf s q m = some x → (lastSecond s x.annTimes).length < 32 →
        ∃ t, exec (.ptpAnnounceRx q m) s = .next t ∧
          (peerOf t q m).map (·.annTimes) = some (lastSecond s x.annTimes ++ [s.time.tb1])) ∧
      (∀ x n corr t2, ptpTaken s q 0x8 m → peerOf s q m = some x → x.waitFollow = some (n, corr, t2) → n = ptpSeq m →
        isParent s q (ptpSource m) (ptpPortNum m) = true →
        ∃ t, exec (.ptpFollowUpRx q m) s = .next t ∧ t.tim.sync = some (ptpStamp m + ptpCorr m + corr, t2)) ∧
      (∀ id num, ptpHears s q = true → s.tim.parent = some (q.val, id, num) →
        ∃ t, exec (.delayReqSend q fine) s = .next t ∧
          (vget t.tim.ports q).req = some ((vget s.tim.ports q).reqSeq, ((s.time.tb0 + fine.val * 25000 : Nat) : Int)) ∧
          t.fhp.sent.length = s.fhp.sent.length + 1) ∧
      (∀ t1 t2 t3, ptpTaken s q 0x9 m → be m 44 8 = ownIdentity s → be m 52 2 = q.val + 1 →
        (vget s.tim.ports q).req = some (ptpSeq m, t3) → isParent s q (ptpSource m) (ptpPortNum m) = true →
        s.tim.sync = some (t1, t2) →
        ∃ t, exec (.delayRespRx q m) s = .next t ∧
          t = exchange q (ptpSource m) (ptpPortNum m) t1 t2 t3 (ptpStamp m - ptpCorr m)
            (modPtp q (fun p => { p with req := none }) (modPeer q (ptpSource m) (ptpPortNum m) (fun x => x) s)))) ∧
    (s.tim.state = .locked → s.isMember = false → ∃ t, exec .syncTimeout s = .next t ∧
      t.tim.state = (if holdS s = 0 then .freerun else .holdover) ∧ t.bit Reg.TIM_INT_STATUS 1 = true) ∧
    (s.tim.state = .holdover → ∃ t, exec .holdSExpiry s = .next t ∧ t.tim.state = .freerun) ∧
    (s.tim.parent ≠ none → s.isMember = false → s.tim.state ≠ .unset →
      ∃ t, exec .announceTimeout s = .next t ∧ t.tim.state ≠ .locked ∧ t.tim.parent ≠ s.tim.parent) ∧
    (∀ (q : Fin 2) (id : BitVec 64) (num : BitVec 16) x, findPeer s q id.toNat num.toNat = some x →
      (∀ n c u, x.waitFollow = some (n, c, u) → ∃ t, exec (.followUpTimeout q id num) s = .next t ∧
        t = ptpViol q id.toNat num.toNat 3
          (modPeer q id.toNat num.toNat (fun y => { y with waitFollow := none, dropFollow := some n }) s)) ∧
      (x.quar = true → (∀ v ∈ x.viols, v + 10 * secTu ≤ s.time.tb1) →
        ∃ t, exec (.peerQuarRelease q id num) s = .next t ∧ (findPeer t q id.toNat num.toNat).map (·.quar) = some false)) ∧
    (s.served Reg.TIM_CTRL = true →
      (2 ≤ s.pwr.stage → s.isMember = false → ∃ t, exec .rearm s = .next t ∧ t.tim.state = .acquiring ∧
        t.tim.acqCount = satAdd 255 s.tim.acqCount 1) ∧
      (∃ t, exec .snapshot s = .next t ∧ t.reg (Reg.TIM_SNAP_S_LO 0) = BitVec.ofNat 32 (secOf s.time.tb0) ∧
        t.reg (Reg.TIM_SNAP_NS 1) = BitVec.ofNat 32 (nsOf s.time.tb1)) ∧
      (∃ t, exec .tb3Decouple s = .next t ∧ t.time.tb3coupled = false) ∧
      (∃ t, exec .tb3Recouple s = .next t ∧ t.time.tb3coupled = true ∧ t.bit Reg.TIM_INT_STATUS 9 = true)) ∧
    (∀ q : Fin 2, s.served (Reg.TIM_TXTS_POP q) = true →
      (∃ t, exec (.txtsPop q) s = .next t ∧ (vget t.tim.ports q).txts = (vget s.tim.ports q).txts.drop 1) ∧
      (∃ t, exec (.clearOvf q) s = .next t ∧ (vget t.tim.ports q).ovf = false)) ∧
    (∀ fine : Fin 16, s.pwr.stage ≠ 0 → ∃ t, exec (.ppsInEdge fine) s = .next t ∧
      t.reg Reg.TIM_PPS_IN_S = BitVec.ofNat 32 (secOf (s.time.tb0 + fine.val * 25000)) ∧ t.bit Reg.TIM_INT_STATUS 8 = true) ∧
    (s.locked = true →
      (s.bit Reg.TIM_PPS_CFG 31 = true → ∃ t, exec .ppsOut s = .next t ∧
        t.tim.ppsUntil = some (s.time.tb0 + s.fld Reg.TIM_PPS_CFG 15 0 * usTu)) ∧
      (s.bit Reg.TIM_PPS_CFG 30 = true → ∃ t, exec .tickOut s = .next t ∧ t.tim.tickUntil = some (s.time.tb0 + usTu))) ∧
    (∀ (side : Fin 2) (b : List Byte) (fine mis : Fin 16) (rx : List (List Cplx)) (k : UlMarks),
      (foldPasses s side 1 b → ∃ t, exec (.hello side b) s = .next t ∧ (vget t.cas.nbrs side).d = byteAt (foldPayload b) 1 % 8 ∧
        (vget t.cas.nbrs side).hello.isSome = true) ∧
      (foldPasses s side 8 b → ∃ t, exec (.lane side b) s = .next t ∧
        t = laneEvent (sidePort side) (byteAt (foldPayload b) 0) (byteAt (foldPayload b) 1) (byteAt (foldPayload b) 2) (foldCounted side s)) ∧
      (foldPasses s side 2 b → ∃ t, exec (.time side fine mis b) s = .next t ∧ t.cas.upLocked = nbit (byteAt (foldPayload b) 48) 7 ∧
        t.cas.timeRx.isSome = true) ∧
      (foldPasses s side 3 b → lastTimeSeq s = some (be (foldPayload b) 0 2) →
        ∃ t, exec (.echo side fine b) s = .next t ∧ t.cas.echoT4 = s.time.tb0 + fine.val * 25000) ∧
      (∀ (l : Fin 32) c, foldPasses s side 4 b → s.carrier false (byteAt (foldPayload b) 0 % 4) = some c →
        l.val ∈ maskBits (be (foldPayload b) 8 4) → (s.holder false l).isSome = true →
        s.time.tb0 < pairStart s c (foldPayload b) + 2 * blockTu c + secTu →
        ∃ t, exec (.dlBlocks side b) s = .next t ∧
          (l.val, pairStart s c (foldPayload b), pairStart s c (foldPayload b) + 2 * blockTu c) ∈ t.fhp.covered) ∧
      (∀ c, foldPasses s side 5 b → s.carrier true (byteAt (foldPayload b) 0 % 4) = some c →
        ∃ t, exec (.ulSums side b rx k) s = .next t ∧
          t = ulPair (byteAt (foldPayload b) 0 % 4) (pairStart s c (foldPayload b)) (pairsOf (foldPayload b)) (byteAt (foldPayload b) 7)
            (be (foldPayload b) 12 4) rx k (foldCounted side s)) ∧
      (foldPasses s side 7 b → s.cas.role = 1 → nbit s.cas.joined (foldSrc b) = true → nbit s.cas.joined (foldSrc b - 1) = true →
        ∃ t, exec (.status side b) s = .next t ∧ t.cas.statuses.head? = some (foldSrc b, foldPayload b)) ∧
      (∀ u x, u = passOn side b (foldCounted side s) → x = controlPart (foldPayload b) →
        (controlPasses s side 1 b → foldDst b = s.cas.d → ∃ t, exec (.controlSkein side b) s = .next t ∧
          t = skeinWriteBody (nbit (byteAt x 0) 7) x u) ∧
        (controlPasses s side 2 b → (s.holder (nbit (byteAt x 0) 7) (byteAt x 0 % 32)).isSome = true →
          ∃ t, exec (.controlSwap side b) s = .next t ∧ (t.slot (nbit (byteAt x 0) 7) (byteAt x 0 % 32)).pend.isSome = true) ∧
        (controlPasses s side 3 b → ∃ t, exec (.controlBurst side b) s = .next t ∧ t = controlBurst (be (foldPayload b) 2 2) x u) ∧
        (controlPasses s side 4 b → ∃ t, exec (.controlSlot side b) s = .next t ∧ t.fhp.changes.getLast? =
          some { at_ := timeOfBe x 4, ul := nbit (byteAt x 0) 7, l := byteAt x 0 % 32
                 to_ := if byteAt x 1 = 0xFF then none else some (byteAt x 1) }) ∧
        (controlPasses s side 5 b → be x 0 2 = 0 → ∃ t, exec (.controlWarp side b) s = .next t ∧
          t.cas.warpBytes = (slice x 4 (4 * be x 2 2)).take 16384) ∧
        (∀ v w, controlPasses s side 6 b → byteAt x 0 = 1 → s.wrp.load = none →
          v = u.modCas (fun c => { c with warpBytes := [], warpOver := false }) → verifyWarp v s.cas.warpBytes = .inr w →
          ∃ t, exec (.controlCommit side b) s = .next t ∧ t = loadAccept s.cas.warpBytes true w (v.setFld Reg.WRP_STATUS 4 4 1)) ∧
        (∀ on waiting, controlPasses s side 7 b → s.cas.role = 1 → s.cas.vote = some (on, waiting) → byteAt x 1 = voteBlock on →
          byteAt x 0 ∈ waiting → byteAt x 2 = 0 → waiting.erase (byteAt x 0) ≠ [] →
          ∃ t, exec (.controlVote side b) s = .next t ∧ t.cas.vote = some (on, waiting.erase (byteAt x 0))) ∧
        (∀ g y, controlPasses s side 8 b → side.val = 1 → s.cas.role = 1 → y.who = .host →
          (List.range 8).findSome? (fun g => ((grp s g).bursts.find? (fun b => b.tag == be x 2 2)).map (fun b => (g, b))) = some (g, y) →
          ∃ t, exec (.controlReport side b) s = .next t ∧ t = hostBurstReport
            { outcome := 4, tx := y.tx, group := g, code := byteAt x 1, tag := y.tag, start := burstBall s y } (foldCounted side s)) ∧
        (controlPasses s side 9 b → byteAt x 0 % 4 ≠ s.pwr.level → levelCode u (byteAt x 0 % 4) = 0 →
          ∃ t, exec (.controlLevel side b) s = .next t ∧ t = levelBegin (byteAt x 0 % 4) (castVote 1 0 u)) ∧
        (controlPasses s side 10 b → s.cas.role = 1 → byteAt x 2 = 1 →
          ∃ t, exec (.controlIsolate side b) s = .next t ∧ t.cas.joined = s.cas.joined % 2 ^ (byteAt x 0 + 1)))) ∧
    (∀ side : Fin 2, sideUp s side = true → ∃ t, exec (.helloSend side) s = .next t ∧ t.cas.out.length = s.cas.out.length + 1) ∧
    (sideUp s 1 = true → s.cas.role = 1 ∨ s.cas.tb2Set = true → sideIsolated s 1 = false →
      ∃ t, exec .timeSend s = .next t ∧ t.cas.out.length = s.cas.out.length + 1) ∧
    (∀ (ci : Fin 4) (start : Nat) (rx : List (List Cplx)) (k : UlMarks), lastJoined s = true → s.carrier true ci ≠ none →
      isStackMember s = true → s.cas.selfJoined = true → layersUp s ci ≠ [] → sideUp s 0 = true → sideIsolated s 0 = false →
      ∃ t, exec (.ulPairSend ci start rx k) s = .next t ∧ t.cas.out.length = s.cas.out.length + 1) ∧
    (∀ (l : Fin 32) (air : Nat) (dropped : Bool) c, layerCarrier s false l = some c → isStackMember s = true → s.cas.selfJoined = true →
      neededAt s c air = true → insideOf s.fhp.covered l air (air + 1) = false → insideOf s.fhp.subst l air (air + 1) = false →
      ∃ t, exec (.hopTimeMissed (.dl l air) dropped) s = .next t ∧
        t.fhp.subst = addSpan s.time.tb0 l air (symbolAfter c air) s.fhp.subst) ∧
    (∀ w d ds, s.cas.vote = some (.group w, d :: ds) → ∃ t, exec .voteTimeout s = .next t ∧ t.cas.vote = none ∧
      t.reg Reg.CAS_LAST_REFUSAL = pk [(24, d), (16, 8), (8, noVote (.group w))]) ∧
    (s.cas.role = 2 → s.cas.tb2Set = true ∨ s.cas.selfJoined = true →
      ∃ t, exec .tb2Timeout s = .next t ∧ t.cas.tb2Set = false ∧ t.cas.tb2Lock = false) ∧
    (∀ a b, s.cas.stepAt = some (a, b) → ∃ t, exec .stackStep s = .next t ∧ t.cas.stepAt = none ∧
      t.time.tb0 = ((s.time.tb0 : Int) + ((b : Int) - a)).toNat ∧ t.time.stepped = true) ∧
    (s.served Reg.CAS_CTRL = true →
      (hasSide s 1 = true → sideIsolated s 1 = false → ∃ t, exec .isolateDown s = .next t ∧ (vget t.cas.nbrs 1).isolated = true) ∧
      ((vget s.cas.nbrs 1).isolated = true → ∃ t, exec .rejoin s = .next t ∧ (vget t.cas.nbrs 1).isolated = false))

/-- Each of these commands answers a next state with its own effect, under conditions on the state and the operands alone. A stream is
armed, forced, triggered, ends its segment and its hold-off, and is disarmed; a monitor is set. Training starts and steps on; drift, MR4
and refresh are kept, neighbours are counted; the lock, a retraining, a rate and a pattern begin and end. A DMA channel starts, moves,
loops, waits and goes on, signals, ends, is stopped, aborted and rung, and its program is written. A conversion leaves its code; a list
pass, an urgent request and a pop do theirs. Outputs are loaded at once and at a time, written through, released and cleared. A zone is
sampled, a stage falls, TL starts a new second, the coarse comparator shuts down. Records are staged, cleared, written and committed;
calibrations are requested, start and end; the drover's request and a path's record enter. SPI frames write and read registers; a
register and an RC register are reached by themselves; the flash is read, programmed, erased and verified; the debug port is unlocked;
the watchdog applies safe bias. -/
def Obligations.CaptureMemoryAndHostCommandsComplete : Prop :=
  ∀ s : State,
    (∀ st : Fin 4,
      (armCode s st = 0 → ∃ t, exec (.arm (st, true)) s = .next t ∧
        (vget t.acq.streams st).asks.length = (vget s.acq.streams st).asks.length + 1) ∧
      (∀ g : Grid, s.served (Reg.ACQ_STREAM_CTRL st) = true → (vget s.acq.streams st).state = .armed → (vget s.acq.streams st).points = [] →
        ∃ t, exec (.force st g) s = .next t ∧ (vget t.acq.streams st).state = .capturing ∧ (vget t.acq.streams st).forced = true) ∧
      (∀ (g : Grid) (w : Watch) p, trigSrc s st ∈ [4, 5, 6] → (vget s.acq.streams st).state = .armed →
        firstPoint (vget s.acq.streams st) = some p →
        ∃ t, exec (.captureTrigger st (g, w)) s = .next t ∧ (vget t.acq.streams st).state = .capturing ∧ (vget t.acq.streams st).point = p) ∧
      (∀ (rising : Bool) (at_ : Nat) (gs : List Grid), edgeSelected s rising = true → trigSrc s st = 4 →
        (vget s.acq.streams st).state = .armed →
        ∃ t, exec (.trigInEdge rising (at_, gs)) s = .next t ∧ (vget t.acq.streams st).state = .capturing) ∧
      (∀ (x : List Cplx) (k : SegMarks), (vget s.acq.streams st).state = .capturing →
        ∃ t, exec (.segmentEnd st x k) s = .next t ∧ t.bit Reg.ACQ_INT_STATUS 0 = true ∧
          (vget t.acq.streams st).seq = satAdd 0xFFFFFFFF (vget s.acq.streams st).seq 1) ∧
      ((vget s.acq.streams st).state = .holdoff → holdoffOver s st (vget s.acq.streams st) = true →
        ∃ t, exec (.holdoffEnd st) s = .next t ∧ (vget t.acq.streams st).state = .armed) ∧
      (streamActive s st = true → ∃ t, exec (.disarm (st, true)) s = .next t ∧ (vget t.acq.streams st).state = .idle)) ∧
    (∀ (f : Fin 8) (w : Word), s.served (Reg.ACQ_MON_CFG f) = true → monInUse s f = false →
      ∃ t, exec (.acqMonCfgWrite f w) s = .next t ∧ monN t f = clampN 1 10 (fld w 31 28) ∧ t.fld (Reg.ACQ_MON_CFG f) 2 0 = fld w 2 0) ∧
    (hasDrc s = true →
      (1 ≤ s.drc.step → s.drc.step < 6 → ∃ t, exec (.dramTrainingStepDone true) s = .next t ∧ t.drc.step = s.drc.step + 1) ∧
      (mayRetrain s = true → ∃ t, exec .dramTrainingStart s = .next t ∧ t.drc.state = .training ∧ t.drc.step = 3 ∧ t.drc.pages = []) ∧
      (∀ d : Int, s.drc.state = .ready → ∃ t, exec (.dqsCheck d) s = .next t ∧ t.drc.dqs = d) ∧
      (∀ w : Bool, s.drc.state = .ready → ∃ t, exec (.refreshDue w) s = .next t ∧ t.drc.owed =
        (if s.drc.flush = true ∨ w = false then 0 else if s.drc.owed < 8 then s.drc.owed + 1 else s.drc.owed)) ∧
      (∀ (bank : Fin 16) (row : Nat), s.drc.state = .ready → s.fld Reg.DRC_REF_CFG 3 0 ≠ 0 → 2 ≤ row → row + 2 < dramRows s →
        ∃ t, exec (.neighbourRefresh (bank, row)) s = .next t ∧ (t.reg Reg.DRC_NR_COUNT).toNat =
          satAdd 0xFFFFFFFF (s.reg Reg.DRC_NR_COUNT).toNat (if s.bit Reg.DRC_REF_CFG 8 then 4 else 2)) ∧
      (∀ (v : Option (Fin 8)) q, s.drc.freq = some q → q.granted = true → s.drc.step = 0 →
        ∃ t, exec (.freqChangeDone v) s = .next t ∧ t.drc.state = .ready ∧ t.drc.rate = q.rate) ∧
      (∀ q, s.drc.freq = some q → q.granted = false → ∃ t, exec .freqLockTimeout s = .next t ∧ t.drc.freq = none ∧
        t.fld Reg.DRC_FREQ_RESULT 23 16 = 6) ∧
      (∀ (noise : List Byte) (from_ : Nat) q, s.drc.pat = some q →
        ∃ t, exec (.patternDone noise from_) s = .next t ∧ t.drc.pat = none ∧ t.drc.patDone = true)) ∧
    (∀ x : Fin 8, dramAnswers s = true → ∃ t, exec (.mr4Read (some x)) s = .next t ∧ t.drc.mr4 = x.val ∧ t.drc.factor = mr4Factor x.val) ∧
    (s.served Reg.DRC_TRAIN_LOCK = true → s.drc.lock ≠ .drover → streamsQuiet s = true → s.drc.state = .ready →
      ∃ t, exec (.hostTrainLock true) s = .next t ∧ t.drc.lock = .host) ∧
    (s.served Reg.DRC_TRAIN_LOCK = true → s.drc.state = .failed → s.drc.lock = .free → dramGiB s ≠ 0 →
      ∃ t, exec .drcRetrain s = .next t ∧ t.drc.state = .training) ∧
    (∀ r : Fin 8, s.served Reg.DRC_FREQ_REQ = true → r.val ≤ 4 → r.val ≠ s.drc.rate → s.drc.state = .ready → s.drc.freq = none →
      overBudget s r = false → rateUntrained s r = false ∨ streamsQuiet s = true →
      ∃ t, exec (.drcFreqReq r) s = .next t ∧ (t.drc.freq.map (·.rate)) = some r.val) ∧
    (∀ w : Word, s.served Reg.DRC_PAT_CTRL = true → bitOf w 0 = true → s.drc.lock = .host → s.drc.pat = none →
      ∃ t, exec (.drcPatGo w) s = .next t ∧ t.drc.pat.isSome = true) ∧
    (∀ c : Fin 16,
      (s.served (Reg.DMA_CH_CTRL c) = true →
        ((channel s c).state = .idle → ∃ t, exec (.start c) s = .next t ∧ (channel t c).state = .running ∧
          (channel t c).pc = s.fld (Reg.DMA_CH_START c) 8 0) ∧
        (∃ t, exec (.abort c) s = .next t ∧ (channel t c).state = .idle) ∧
        ((channel s c).state = .running → ∃ t, exec (.pause c true) s = .next t ∧ (channel t c).state = .paused) ∧
        ((channel s c).state = .ended → slotOp s (channel s c).pc ≠ 0 → ∃ t, exec (.doorbell c) s = .next t ∧
          (channel t c).state = .running)) ∧
      (fetches s c → slotGood s (channel s c).pc = true →
        (slotOp s (channel s c).pc = 1 → moveFault s (moveArgs s c) = 0 → dramWaits s = false →
          ∃ t, exec (.move c) s = .next t ∧ (channel t c).pc = nextSlot (channel s c).pc ∧ (t.reg (Reg.DMA_CH_BYTES c)).toNat =
            satAdd 0xFFFFFFFF (s.reg (Reg.DMA_CH_BYTES c)).toNat ((moveArgs s c).rows * (moveArgs s c).len)) ∧
        (slotOp s (channel s c).pc = 2 → bitOf (slotWord s (channel s c).pc 0) 16 = false → (channel s c).ctr0 = some 0 →
          ∃ t, exec (.loop c) s = .next t ∧ (channel t c).pc = nextSlot (channel s c).pc ∧ (channel t c).ctr0 = none) ∧
        (slotOp s (channel s c).pc = 3 → fld (slotWord s (channel s c).pc 0) 25 24 = 0 →
          ∃ t, exec (.wait c) s = .next t ∧ (channel t c).state = .waiting) ∧
        (∀ noise : Word, readBack c noise s = true → backInDram c s = false ∨ dramWaits s = false →
          (slotOp s (channel s c).pc = 4 → ∃ t, exec (.signal c noise) s = .next t ∧
            (channel t c).signal = fld (slotWord s (channel s c).pc 0) 15 0 ∧ (channel t c).pc = nextSlot (channel s c).pc) ∧
          (slotOp s (channel s c).pc = 0 → ∃ t, exec (.end_ c noise) s = .next t ∧ (channel t c).state = .ended))) ∧
      ((channel s c).state = .waiting →
        ((channel s c).cond = 0 → ∃ t, exec (.waitDelayExpiry c) s = .next t ∧ (channel t c).state = .running) ∧
        ((channel s c).cond ≠ 0 → (channel s c).timeout ≠ 0 → ∃ t, exec (.waitTimeout c) s = .next t ∧ (channel t c).fault = 6) ∧
        ((channel s c).cond = 2 → readReg s (channel s c).arg &&& (channel s c).mask = (channel s c).value →
          ∃ t, exec (.waitPollRead c) s = .next t ∧ (channel t c).state = .running))) ∧
    (∀ (n : Fin 512) (i : Fin 8) (w : Word), s.served (0x00112000 + 32 * n + 4 * i) = true →
      ∃ t, exec (.dmaProgramWrite n i w) s = .next t ∧ slotWord t n i = w) ∧
    (∀ (code : BitVec 16) (past : Bool), s.pwr.stage ≠ 0 → s.pwr.off = false → (running s).ch < 160 →
      ∃ t, exec (.hkaConversionDone code past) s = .next t ∧ t.fld (Reg.HKA_RESULT (running s).ch) 15 0 = code.toNat ∧ t.hka.run = none) ∧
    (hkaTriggered s = true → s.hka.passActive = false → s.hka.passPending = false → scanFrom s 0 ≠ none →
      (s.served Reg.HKA_TRIG = true → ∃ t, exec .scan s = .next t ∧ t.hka.passActive = true) ∧
      (s.pwr.stage ≠ 0 → s.bit Reg.HKA_CFG 30 = true → ∃ t, exec .hkaTimerTick s = .next t ∧ t.hka.passActive = true)) ∧
    (∀ w : Word, s.served Reg.HKA_URGENT = true → bitOf w 31 = true → s.hka.urgent.length < 4 →
      ∃ t, exec (.hkaUrgent w) s = .next t ∧ t.hka.urgent = s.hka.urgent ++ [fld w 7 0]) ∧
    (s.served Reg.HKA_QUEUE_POP = true → ∃ t, exec .hkaQueuePop s = .next t ∧ t.hka.queue = s.hka.queue.drop 1) ∧
    (∀ (n : Fin 72),
      (∀ w : Word, s.served Reg.BDA_LOAD = true → bitOf w 31 = true → bitOf w 30 = false → bitOf w 9 = true → loadable s n = true →
        ∃ t, exec (.bdaLoad w) s = .next t ∧ loadedOut s t n) ∧
      (∀ g : Fin 9, vget s.bda.timed g ≠ none → n.val / 8 = g.val → loadable s n = true →
        ∃ t, exec (.timedBiasLoad g) s = .next t ∧ loadedOut s t n) ∧
      (∀ code : BitVec 16, s.served (Reg.BDA_CODE n) = true →
        ∃ t, exec (.bdaCodeWrite n code) s = .next t ∧ t.reg (Reg.BDA_CODE n) = code.setWidth 32) ∧
      (s.served (Reg.BDA_OUT_CTRL n) = true → ∃ t, exec (.bdaOutClear n) s = .next t ∧ (vget t.bda.outs n).cause = 0) ∧
      (s.served Reg.BDA_CTRL = true →
        (safeCausePresent s = false → s.bda.recordOk = true → ∃ t, exec .releaseSafe s = .next t ∧ t.bda.safe = false) ∧
        (∃ t, exec .clearAllFaults s = .next t ∧ (vget t.bda.outs n).cause = 0))) ∧
    (∀ (z : Fin 12) (raws : List (Option Int)),
      (s.pwr.off = false → s.pwr.stage ≠ 0 → (vget s.thm.zones z).hot = 0 →
        ∃ t, exec (.thermalSample z raws) s = .next t ∧ t.thm.sampled = true ∧
          (vget t.thm.zones z).valid = (validSensors t z).length) ∧
      ((vget s.thm.zones z).blind = false → (vget s.thm.zones z).stage ≠ 0 → (vget s.thm.zones z).coolSince ≠ none →
        (vget s.thm.zones z).stage ≠ 2 ∨ s.thm.tl = 0 →
        ∃ t, exec (.throttleStageFall z) s = .next t ∧ (vget t.thm.zones z).stage = (vget s.thm.zones z).stage - 1)) ∧
    (thermStage s = 2 → ∃ t, exec .tlUpdate s = .next t ∧ t.thm.secMin = none ∧ t.thm.secMax = none) ∧
    (s.pwr.off = false → s.thm.shutdown = false → ∃ t, exec .coarseComparator135 s = .next t ∧ t.thm.shutdown = true ∧ t.pwr.stage = 0) ∧
    (∀ w rest, s.nvs.writes = w :: rest → storeWriting s = true → w.origin = .recPort → seqSpent s w = false →
      ∃ t, exec (.storeWriteDone []) s = .next t ∧ t.nvs.writes = rest ∧ t.fld Reg.NVS_REC_STATUS 31 30 = 1) ∧
    (∀ w : Word, s.served Reg.NVS_REC_DATA = true → s.nvs.recStage.words.length < 512 →
      ∃ t, exec (.nvsRecDataWrite w) s = .next t ∧ t.nvs.recStage.words = s.nvs.recStage.words ++ [w]) ∧
    (s.served Reg.NVS_REC_CTRL = true →
      (∀ type : Byte, recCode s type.toNat = 0 → ∃ t, exec (.nvsRecWrite type) s = .next t ∧ t.nvs.recBusy = true ∧
        t.nvs.writes.length = s.nvs.writes.length + 1) ∧
      (∃ t, exec .nvsRecClear s = .next t ∧ t.nvs.recStage = {})) ∧
    (∀ x : Word, s.served Reg.NVS_DATA = true → 0x180000 ≤ nvsAddr s → s.nvs.powerFail = false →
      ∃ t, exec (.nvsDataAccess (some x) none) s = .next t ∧ t.storeAt (nvsAddr s) 4 = leBytes 4 x.toNat) ∧
    (∀ w : Word, s.served Reg.NVS_CAL_REQ = true → bitOf w 31 = true → calReqCode s (fld w 23 16) (fld w 7 0) = 0 → s.nvs.calQueue = [] →
      ∃ t, exec (.nvsCalReq w) s = .next t ∧ t.nvs.calQueue.map (·.id) = [fld w 23 16] ∧ t.fld Reg.NVS_CAL_RESULT 31 30 = 1) ∧
    (∀ r, s.nvs.calRun = none → s.pwr.stage = 4 → s.nvs.calRest ≤ s.time.tb1 → s.nvs.calQueue = [r] → r.force = true →
      ∃ t, exec .calIntervalStart s = .next t ∧ t.nvs.calOn = true ∧ t.nvs.calRun = some r) ∧
    (∀ (ms : List CalMeas) r, s.nvs.calRun = some r → s.nvs.calOn = true →
      (maskGroups s r.groups).all (fun g => (grp s g).state == .cal) = true →
      ∃ t, exec (.calDone ms) s = .next t ∧ t.nvs.calRun = none ∧ t.nvs.calOn = false ∧ t.bit Reg.NVS_INT_STATUS 0 = true) ∧
    ((∃ r ∈ s.nvs.calQueue, r.longSaid = false) → ∃ t, exec .nvsCalWaitLong s = .next t ∧ t.bit Reg.NVS_INT_STATUS 7 = true) ∧
    (s.nvs.arrayAt + 3600 * secTu ≤ s.time.tb1 → s.nvs.calQueue = [] → calReqCode s 8 (droverWants s .hourly).2 = 0 →
      ∃ t, exec (.droverCalRequest .hourly) s = .next t ∧ t.nvs.calQueue.map (·.id) = [8]) ∧
    (∀ p : Fin 64, (dpdOf s p).fresh = true → (dpdOf s p).recordAt = none →
      ∃ t, exec (.dpdRecordWrite p) s = .next t ∧ (dpdOf t p).fresh = false ∧ t.nvs.writes.length = s.nvs.writes.length + 1) ∧
    (∀ (fails : PowerUpFails) (ms : List (Nat × List CalMeas)), s.wrp.active ≠ none → s.pwr.stage = 2 → s.nvs.powerUpDone = false →
      ∃ t, exec (.powerupCalibration fails ms) s = .next t ∧ t.nvs.powerUpDone = true) ∧
    (∀ (a : Word) (ws : List Word) (b : List Byte), s.pwr.off = false → a.toNat % 4 = 0 → b = leBytes 4 a.toNat ++ wordBytes ws →
      (∃ t, exec (.writeIncr none b) s = .next t ∧ t.regs = (wordsWritten true a.toNat 0 ws s).regs) ∧
      (∃ t, exec (.writeFixed b) s = .next t ∧ t.regs = (wordsWritten false a.toNat 0 ws s).regs) ∧
      (ws = [] →
        (∃ t, exec (.readIncr b (spiDummy s + 4) []) s = .next t ∧ t.glb.spiOut =
          spiStatus s :: List.replicate (4 + spiDummy s) 0 ++ leBytes 4 (readReg s a.toNat).toNat) ∧
        (∃ t, exec (.readFixed b (spiDummy s + 4) []) s = .next t ∧ t.glb.spiOut =
          spiStatus s :: List.replicate (4 + spiDummy s) 0 ++ leBytes 4 (readReg s a.toNat).toNat))) ∧
    (∀ (a : BitVec 32) r, s.served a.toNat = true → findRow a.toNat = some r →
      (∀ w : Word, windowAct a.toNat w = none → (actOf a.toNat).isNone = true → r.access = .rw →
        ∃ t, exec (.registerWrite a w) s = .next t ∧ t.reg a.toNat =
          storedForm a.toNat ((s.reg a.toNat &&& ~~~BitVec.ofNat 32 r.mask) ||| (w &&& BitVec.ofNat 32 r.mask))) ∧
      (r.access = .rc → ∃ t, exec (.rcRegisterRead a) s = .next t ∧ t.reg a.toNat = regReset a.toNat)) ∧
    (s.served Reg.GLB_FLASH_CTRL = true →
      (flashCode s .read (s.reg Reg.GLB_FLASH_ADDR).toNat = 0 → ∃ t, exec .flashRead s = .next t ∧
        mread blank t.glb.flashBuf 0 256 = flashBytes s (s.reg Reg.GLB_FLASH_ADDR).toNat 256) ∧
      (flashCode s .program (s.reg Reg.GLB_FLASH_ADDR).toNat = 0 → ∃ t, exec .flashProgram s = .next t ∧
        flashBytes t (s.reg Reg.GLB_FLASH_ADDR).toNat 256 = mread blank s.glb.flashBuf 0 256) ∧
      (flashCode s .erase (s.reg Reg.GLB_FLASH_ADDR).toNat = 0 → ∃ t, exec .flashErase s = .next t ∧
        tget erased t.glb.flash (s.reg Reg.GLB_FLASH_ADDR).toNat = 0xFF) ∧
      (∀ slot : Fin 2, flashCode s .verify (s.reg Reg.GLB_FLASH_ADDR).toNat = 0 → ∃ t, exec (.flashVerify slot) s = .next t ∧
        t.glb.flashRun = some { op := .verify, slot := slot.val })) ∧
    (∀ r, s.glb.flashRun = some r → ∃ t, exec .flashOpDone s = .next t ∧ t.glb.flashRun = none ∧ t.fld Reg.GLB_FLASH_STATUS 31 30 = 1) ∧
    (∀ w : Word, s.served Reg.GLB_DBG_DATA = true → s.glb.dbg.words.length < 36 →
      ∃ t, exec (.glbDbgDataWrite w) s = .next t ∧ t.glb.dbg.words = s.glb.dbg.words ++ [w]) ∧
    (s.served Reg.GLB_DBG_CTRL = true →
      (∃ t, exec .dbgClear s = .next t ∧ t.glb.dbg = {}) ∧
      (unlockCode s = 0 → ∃ t, exec .unlock s = .next t ∧ t.pins = { s.pins with jtagUnlocked := true })) ∧
    (s.pwr.off = false → 2 ≤ s.pwr.stage → ∃ t, exec .watchdogExpiry s = .next t ∧ t.bda.safe = true ∧ t.bda.cause = 2)
end

