-- ==== Sys2Proof/Laws/Tab.lean ====
section
/-!
SUPPORT. Sparse tables: reading what was written, and the canonical form, which every operation keeps.
-/

set_option Elab.async false

namespace Sys2Proof.Machine

variable {α : Type}

theorem tget_tdel (d : Nat → α) (t : Tab α) (k j : Nat) : tget d (tdel t k) j = if j = k then d j else tget d t j := by
  induction t with
  | nil => simp [tdel, tget]
  | cons x t ih =>
    obtain ⟨k', v⟩ := x
    by_cases h : k' = k
    · subst h; rw [tdel, if_pos rfl, ih]
      by_cases hj : j = k'
      · simp [hj]
      · simp [hj, tget, Ne.symm hj]
    · rw [tdel, if_neg h]; simp only [tget]; rw [ih]
      by_cases hj : k' = j
      · subst hj; simp [h]
      · simp [hj]

theorem tget_tins (d : Nat → α) (t : Tab α) (k j : Nat) (v : α) : tget d (tins t k v) j = if j = k then v else tget d t j := by
  induction t with
  | nil => by_cases h : k = j <;> simp [tins, tget, h, eq_comm]
  | cons x t ih =>
    obtain ⟨k', v'⟩ := x
    simp only [tins]
    split
    · by_cases h : k = j <;> simp [tget, h, eq_comm]
    · split
      · rename_i h; subst h; by_cases h : k = j <;> simp [tget, h, eq_comm]
      · rename_i h; simp only [tget, ih]
        by_cases hj : k' = j
        · subst hj; simp [Ne.symm h]
        · simp [hj]

/-- Reading a table after a write of one key. -/
theorem tget_tset [DecidableEq α] (d : Nat → α) (t : Tab α) (k j : Nat) (v : α) :
    tget d (tset d t k v) j = if j = k then v else tget d t j := by
  unfold tset
  split
  · rename_i h; rw [tget_tdel]; split <;> simp_all
  · rw [tget_tins]

/-! ### The canonical form -/

/-- A key lies above a bound, when there is one. -/
def aboveKey (b : Option Nat) (k : Nat) : Prop := ∀ x, b = some x → x < k

theorem twfFrom_cons [DecidableEq α] (d : Nat → α) (b : Option Nat) (k : Nat) (v : α) (t : Tab α) :
    twfFrom d b ((k, v) :: t) = true ↔ aboveKey b k ∧ v ≠ d k ∧ twfFrom d (some k) t = true := by
  cases b <;> simp [twfFrom, aboveKey, and_assoc]

theorem twfFrom_weaken [DecidableEq α] {d : Nat → α} {k : Nat} {t : Tab α} {b : Option Nat} (h : twfFrom d (some k) t = true)
    (hb : aboveKey b k) : twfFrom d b t = true := by
  cases t with
  | nil => simp [twfFrom]
  | cons x t =>
    obtain ⟨k', v⟩ := x
    rw [twfFrom_cons] at h ⊢
    exact ⟨fun x hx => lt_trans (hb x hx) (h.1 k rfl), h.2⟩

theorem twfFrom_tdel [DecidableEq α] {d : Nat → α} {b : Option Nat} {t : Tab α} (k : Nat) (h : twfFrom d b t = true) :
    twfFrom d b (tdel t k) = true := by
  induction t generalizing b with
  | nil => simpa [tdel] using h
  | cons x t ih =>
    obtain ⟨k', v⟩ := x
    rw [twfFrom_cons] at h
    simp only [tdel]; split
    · exact ih (twfFrom_weaken h.2.2 h.1)
    · rw [twfFrom_cons]; exact ⟨h.1, h.2.1, ih h.2.2⟩

theorem twfFrom_tins [DecidableEq α] {d : Nat → α} {b : Option Nat} {t : Tab α} {k : Nat} {v : α} (hb : aboveKey b k)
    (hv : v ≠ d k) (h : twfFrom d b t = true) : twfFrom d b (tins t k v) = true := by
  induction t generalizing b with
  | nil => rw [tins, twfFrom_cons]; exact ⟨hb, hv, rfl⟩
  | cons x t ih =>
    obtain ⟨k', v'⟩ := x
    rw [twfFrom_cons] at h
    simp only [tins]; split
    · rename_i hlt
      rw [twfFrom_cons, twfFrom_cons]
      exact ⟨hb, hv, fun x hx => by cases hx; exact hlt, h.2⟩
    · split
      · rename_i he; subst he; rw [twfFrom_cons]; exact ⟨hb, hv, h.2.2⟩
      · rw [twfFrom_cons]
        exact ⟨h.1, h.2.1, ih (fun x hx => by cases hx; omega) h.2.2⟩

/-- A write of one key keeps the canonical form. -/
theorem twf_tset [DecidableEq α] {d : Nat → α} {t : Tab α} (k : Nat) (v : α) (h : twf d t = true) : twf d (tset d t k v) = true := by
  unfold tset; split
  · exact twfFrom_tdel k h
  · rename_i hv; exact twfFrom_tins (fun x hx => by cases hx) hv h

/-! ### Writing and reading bytes -/

theorem tget_append_left {d : Nat → α} {p q : Tab α} {j : Nat} (h : ∀ x ∈ p, x.1 ≠ j) : tget d (p ++ q) j = tget d q j := by
  induction p with
  | nil => rfl
  | cons x p ih =>
    obtain ⟨k, v⟩ := x
    have hk : k ≠ j := h (k, v) (by simp)
    simp only [List.cons_append, tget, hk, if_false]
    exact ih (fun y hy => h y (by simp [hy]))

theorem tget_append_right {d : Nat → α} {p q : Tab α} {j : Nat} (h : ∀ x ∈ q, x.1 ≠ j) : tget d (p ++ q) j = tget d p j := by
  induction p with
  | nil => simpa using tget_append_left (q := []) h
  | cons x p ih =>
    obtain ⟨k, v⟩ := x
    simp only [List.cons_append, tget]; rw [ih]

theorem tget_filter {d : Nat → α} {t : Tab α} {f : Nat × α → Bool} {j : Nat} (h : ∀ v, f (j, v) = true) :
    tget d (t.filter f) j = tget d t j := by
  induction t with
  | nil => rfl
  | cons x t ih =>
    obtain ⟨k, v⟩ := x
    by_cases hk : k = j
    · subst hk; simp [h v, tget]
    · by_cases hf : f (k, v) = true <;> simp [hf, tget, hk, ih]

theorem runOf_keys [DecidableEq α] {d : Nat → α} {a : Nat} {vs : List α} {x : Nat × α} (h : x ∈ runOf d a vs) :
    a ≤ x.1 ∧ x.1 < a + vs.length := by
  induction vs generalizing a with
  | nil => simp [runOf] at h
  | cons v vs ih =>
    simp only [runOf] at h
    split at h
    · have := ih h; simp only [List.length_cons]; omega
    · rcases List.mem_cons.mp h with rfl | h
      · simp
      · have := ih h; simp only [List.length_cons]; omega

theorem tget_runOf [DecidableEq α] (d : Nat → α) (a : Nat) (vs : List α) (j : Nat) :
    tget d (runOf d a vs) j = if a ≤ j ∧ j < a + vs.length then vs.getD (j - a) (d j) else d j := by
  induction vs generalizing a with
  | nil => simp [runOf, tget]
  | cons v vs ih =>
    have step : (if a ≤ j ∧ j < a + (v :: vs).length then (v :: vs).getD (j - a) (d j) else d j) =
        if a = j then v else (if a + 1 ≤ j ∧ j < a + 1 + vs.length then vs.getD (j - (a + 1)) (d j) else d j) := by
      by_cases h : a = j
      · subst h; simp
      · rw [if_neg h]
        by_cases h2 : a + 1 ≤ j ∧ j < a + 1 + vs.length
        · have e : j - a = (j - (a + 1)) + 1 := by omega
          rw [if_pos h2, if_pos (by simp only [List.length_cons]; omega), e, List.getD_cons_succ]
        · rw [if_neg h2, if_neg (by simp only [List.length_cons]; omega)]
    rw [step]; simp only [runOf]
    split
    · rename_i hv; rw [ih]
      by_cases h : a = j
      · subst h; rw [if_pos rfl, if_neg (by omega), hv]
      · rw [if_neg h]
    · simp only [tget]; rw [ih]

/-- Reading a memory after a write of bytes. -/
theorem tget_mwrite (d : Nat → Byte) (m : Tab Byte) (a : Nat) (bs : List Byte) (j : Nat) :
    tget d (mwrite d m a bs) j = if a ≤ j ∧ j < a + bs.length then bs.getD (j - a) (d j) else tget d m j := by
  unfold mwrite
  by_cases h1 : j < a
  · rw [if_neg (by omega), tget_append_right, tget_filter (by intro _; simpa using h1)]
    intro x hx
    rcases List.mem_append.mp hx with h | h
    · have := runOf_keys h; omega
    · have := List.mem_filter.mp h; simp at this; omega
  · rw [tget_append_left (by intro x hx; have := (List.mem_filter.mp hx).2; simp at this; omega)]
    by_cases h2 : j < a + bs.length
    · rw [if_pos ⟨by omega, h2⟩, tget_append_right, tget_runOf, if_pos ⟨by omega, h2⟩]
      intro x hx; have := (List.mem_filter.mp hx).2; simp at this; omega
    · rw [if_neg (by omega), tget_append_left, tget_filter (by intro _; simpa using h2)]
      intro x hx; have := runOf_keys hx; omega

theorem twfFrom_append [DecidableEq α] {d : Nat → α} {b : Option Nat} {p q : Tab α} (hp : twfFrom d b p = true)
    (hq : twf d q = true) (hb : ∀ y ∈ q, aboveKey b y.1) (h : ∀ x ∈ p, ∀ y ∈ q, x.1 < y.1) : twfFrom d b (p ++ q) = true := by
  induction p generalizing b with
  | nil =>
    cases q with
    | nil => rfl
    | cons y q =>
      obtain ⟨k, v⟩ := y
      have hq := (twfFrom_cons d none k v q).mp hq
      exact (twfFrom_cons d b k v q).mpr ⟨hb (k, v) (by simp), hq.2⟩
  | cons x p ih =>
    obtain ⟨k, v⟩ := x
    have hp := (twfFrom_cons d b k v p).mp hp
    refine (twfFrom_cons d b k v (p ++ q)).mpr ⟨hp.1, hp.2.1, ih hp.2.2 ?_ (fun x hx => h x (by simp [hx]))⟩
    exact fun y hy z hz => by cases hz; exact h (k, v) (by simp) y hy

theorem twfFrom_filter [DecidableEq α] {d : Nat → α} {b : Option Nat} {t : Tab α} (f : Nat × α → Bool) (h : twfFrom d b t = true) :
    twfFrom d b (t.filter f) = true := by
  induction t generalizing b with
  | nil => rfl
  | cons x t ih =>
    obtain ⟨k, v⟩ := x
    have h := (twfFrom_cons d b k v t).mp h
    by_cases hf : f (k, v) = true
    · rw [List.filter_cons_of_pos hf]; exact (twfFrom_cons ..).mpr ⟨h.1, h.2.1, ih h.2.2⟩
    · rw [List.filter_cons_of_neg hf]; exact ih (twfFrom_weaken h.2.2 h.1)

theorem twf_runOf [DecidableEq α] (d : Nat → α) (a : Nat) (vs : List α) (b : Option Nat) (hb : aboveKey b a) :
    twfFrom d b (runOf d a vs) = true := by
  induction vs generalizing a b with
  | nil => rfl
  | cons v vs ih =>
    simp only [runOf]; split
    · exact ih (a + 1) b (fun x hx => Nat.lt_succ_of_lt (hb x hx))
    · rename_i hv
      exact (twfFrom_cons ..).mpr ⟨hb, hv, ih (a + 1) (some a) (fun x hx => by cases hx; omega)⟩

/-- A write of bytes keeps the canonical form. -/
theorem twf_mwrite {d : Nat → Byte} {m : Tab Byte} (a : Nat) (bs : List Byte) (h : twf d m = true) : twf d (mwrite d m a bs) = true := by
  refine twfFrom_append (twfFrom_filter _ h) (twfFrom_append (twf_runOf d a bs none (by intro x hx; cases hx))
    (twfFrom_filter _ h) (by intro y _ x hx; cases hx) ?_) (by intro y _ x hx; cases hx) ?_
  · intro x hx y hy
    have h1 := runOf_keys hx; have h2 := (List.mem_filter.mp hy).2; simp at h2; omega
  · intro x hx y hy
    have h1 := (List.mem_filter.mp hx).2; simp at h1
    rcases List.mem_append.mp hy with h | h
    · have := runOf_keys h; omega
    · have h2 := (List.mem_filter.mp h).2; simp at h2; omega

@[simp] theorem readRun_length (d : Nat → α) (t : Tab α) (a n : Nat) : (readRun d t a n).length = n := by
  induction n generalizing t a with
  | zero => cases t <;> rfl
  | succ n ih =>
    cases t with
    | nil => simp [readRun, ih]
    | cons x t => obtain ⟨k, v⟩ := x; simp only [readRun]; split <;> simp [ih]

@[simp] theorem mread_length (d : Nat → Byte) (m : Tab Byte) (a n : Nat) : (mread d m a n).length = n := readRun_length ..

theorem readRun_runOf [DecidableEq α] (d : Nat → α) (a : Nat) (vs : List α) (q : Tab α) (h : ∀ x ∈ q, a + vs.length ≤ x.1) :
    readRun d (runOf d a vs ++ q) a vs.length = vs := by
  have skip : ∀ (n : Nat) (v : α) (t : Tab α), v = d a → (∀ x ∈ t, a < x.1) → readRun d t a (n + 1) = v :: readRun d t (a + 1) n := by
    intro n v t hv ht
    cases t with
    | nil => simp [readRun, hv]
    | cons x t =>
      obtain ⟨k, w⟩ := x
      have : k ≠ a := by have := ht (k, w) (by simp); simp at this; omega
      simp [readRun, this, hv]
  induction vs generalizing a with
  | nil => cases q <;> simp [readRun, runOf]
  | cons v vs ih =>
    simp only [List.length_cons] at h ⊢
    simp only [runOf]; split
    · rename_i hv
      rw [skip vs.length v _ hv, ih (a + 1) (by intro x hx; have := h x hx; omega)]
      · intro n w t hw ht
        cases t with
        | nil => simp [readRun, hw]
        | cons x t =>
          obtain ⟨k, u⟩ := x
          have : k ≠ a + 1 := by have := ht (k, u) (by simp); simp at this; omega
          simp [readRun, this, hw]
      · intro x hx
        rcases List.mem_append.mp hx with h1 | h1
        · have := runOf_keys h1; omega
        · have := h x h1; omega
    · simp only [List.cons_append, readRun, if_true]
      rw [ih (a + 1) (by intro x hx; have := h x hx; omega)]
      intro n w t hw ht
      cases t with
      | nil => simp [readRun, hw]
      | cons x t =>
        obtain ⟨k, u⟩ := x
        have : k ≠ a + 1 := by have := ht (k, u) (by simp); simp at this; omega
        simp [readRun, this, hw]

/-- The bytes written are read back. -/
theorem mread_mwrite (d : Nat → Byte) (m : Tab Byte) (a : Nat) (bs : List Byte) : mread d (mwrite d m a bs) a bs.length = bs := by
  unfold mread mwrite
  rw [List.filter_append, List.filter_append]
  have e1 : (m.filter (fun x => decide (x.1 < a))).filter (fun x => decide (a ≤ x.1)) = [] := by
    rw [List.filter_eq_nil_iff]; intro x hx; have := (List.mem_filter.mp hx).2; simp at this ⊢; omega
  have e2 : (runOf d a bs).filter (fun x => decide (a ≤ x.1)) = runOf d a bs := by
    rw [List.filter_eq_self]; intro x hx; have := runOf_keys hx; simp; omega
  rw [e1, e2, List.nil_append]
  apply readRun_runOf
  intro x hx
  have := (List.mem_filter.mp (List.mem_filter.mp hx).1).2
  simpa using this

theorem keys_above [DecidableEq α] {d : Nat → α} {t : Tab α} {k : Nat} (h : twfFrom d (some k) t = true) : ∀ y ∈ t, k < y.1 := by
  induction t generalizing k with
  | nil => simp
  | cons x t ih =>
    obtain ⟨k', v⟩ := x
    have h := (twfFrom_cons ..).mp h
    have c : k < k' := h.1 k rfl
    intro y hy
    rcases List.mem_cons.mp hy with rfl | hy
    · exact c
    · exact lt_trans c (ih h.2.2 y hy)

/-- A byte of a memory in canonical form, as part of a run. -/
theorem readRun_getD [DecidableEq α] {d : Nat → α} {t : Tab α} {a n i : Nat} {b : Option Nat} (z : α) (h : twfFrom d b t = true)
    (ha : ∀ x ∈ t, a ≤ x.1) (hi : i < n) : (readRun d t a n).getD i z = tget d t (a + i) := by
  induction n generalizing t a i b with
  | zero => omega
  | succ n ih =>
    cases t with
    | nil =>
      cases i with
      | zero => simp [readRun, tget]
      | succ i =>
        have := ih (t := []) (a := a + 1) (i := i) (b := b) (by simp [twfFrom]) (by simp) (by omega)
        simp only [readRun, List.getD_cons_succ, this, tget]; congr 1; omega
    | cons x t =>
      obtain ⟨k, v⟩ := x
      have h' := (twfFrom_cons ..).mp h
      have above := keys_above h'.2.2
      by_cases hk : k = a
      · subst hk
        simp only [readRun, if_true]
        cases i with
        | zero => simp [tget]
        | succ i =>
          rw [List.getD_cons_succ, ih h'.2.2 (fun y hy => above y hy) (by omega)]
          have : k ≠ k + (i + 1) := by omega
          simp only [tget, this, if_false]; congr 1; omega
      · have hak : a < k := lt_of_le_of_ne (ha (k, v) (by simp)) (Ne.symm hk)
        simp only [readRun, hk, if_false]
        cases i with
        | zero =>
          rw [List.getD_cons_zero, Nat.add_zero]
          have : ∀ y ∈ (k, v) :: t, y.1 ≠ a := by
            intro y hy; rcases List.mem_cons.mp hy with rfl | hy
            · exact hk
            · have := above y hy; omega
          have e := tget_append_left (d := d) (q := []) this
          rw [List.append_nil] at e; rw [e]; rfl
        | succ i =>
          rw [List.getD_cons_succ, ih h (by
            intro y hy; rcases List.mem_cons.mp hy with rfl | hy
            · exact hak
            · have := above y hy; omega) (by omega)]
          congr 1; omega

end Sys2Proof.Machine
end

