-- ==== Sys2Proof/Laws/State.lean ====
section
/-!
SUPPORT. What each update of the state leaves as it was and what it changes, one lemma per field per update.
-/

set_option Elab.async false

namespace Sys2Proof.Machine

variable (s : State)

@[simp] theorem State.modPins_pending (f : Pins → Pins) : (s.modPins f).pending = s.pending := rfl
@[simp] theorem State.modPins_fuse (f : Pins → Pins) : (s.modPins f).fuse = s.fuse := rfl
@[simp] theorem State.modPins_pins (f : Pins → Pins) : (s.modPins f).pins = f s.pins := rfl
@[simp] theorem State.modPins_time (f : Pins → Pins) : (s.modPins f).time = s.time := rfl
@[simp] theorem State.modPins_regs (f : Pins → Pins) : (s.modPins f).regs = s.regs := rfl
@[simp] theorem State.modPins_aonRegs (f : Pins → Pins) : (s.modPins f).aonRegs = s.aonRegs := rfl
@[simp] theorem State.modPins_glb (f : Pins → Pins) : (s.modPins f).glb = s.glb := rfl
@[simp] theorem State.modPins_nvs (f : Pins → Pins) : (s.modPins f).nvs = s.nvs := rfl
@[simp] theorem State.modPins_pwr (f : Pins → Pins) : (s.modPins f).pwr = s.pwr := rfl
@[simp] theorem State.modPins_pstate (f : Pins → Pins) : (s.modPins f).pstate = s.pstate := rfl
@[simp] theorem State.modPins_wrp (f : Pins → Pins) : (s.modPins f).wrp = s.wrp := rfl
@[simp] theorem State.modPins_paths (f : Pins → Pins) : (s.modPins f).paths = s.paths := rfl
@[simp] theorem State.modPins_syn (f : Pins → Pins) : (s.modPins f).syn = s.syn := rfl
@[simp] theorem State.modPins_skn (f : Pins → Pins) : (s.modPins f).skn = s.skn := rfl
@[simp] theorem State.modPins_fft (f : Pins → Pins) : (s.modPins f).fft = s.fft := rfl
@[simp] theorem State.modPins_dpd (f : Pins → Pins) : (s.modPins f).dpd = s.dpd := rfl
@[simp] theorem State.modPins_rad (f : Pins → Pins) : (s.modPins f).rad = s.rad := rfl
@[simp] theorem State.modPins_lne (f : Pins → Pins) : (s.modPins f).lne = s.lne := rfl
@[simp] theorem State.modPins_fhp (f : Pins → Pins) : (s.modPins f).fhp = s.fhp := rfl
@[simp] theorem State.modPins_tim (f : Pins → Pins) : (s.modPins f).tim = s.tim := rfl
@[simp] theorem State.modPins_cas (f : Pins → Pins) : (s.modPins f).cas = s.cas := rfl
@[simp] theorem State.modPins_acq (f : Pins → Pins) : (s.modPins f).acq = s.acq := rfl
@[simp] theorem State.modPins_mon (f : Pins → Pins) : (s.modPins f).mon = s.mon := rfl
@[simp] theorem State.modPins_drc (f : Pins → Pins) : (s.modPins f).drc = s.drc := rfl
@[simp] theorem State.modPins_dma (f : Pins → Pins) : (s.modPins f).dma = s.dma := rfl
@[simp] theorem State.modPins_hka (f : Pins → Pins) : (s.modPins f).hka = s.hka := rfl
@[simp] theorem State.modPins_bda (f : Pins → Pins) : (s.modPins f).bda = s.bda := rfl
@[simp] theorem State.modPins_thm (f : Pins → Pins) : (s.modPins f).thm = s.thm := rfl
@[simp] theorem State.modPins_rnd (f : Pins → Pins) : (s.modPins f).rnd = s.rnd := rfl
@[simp] theorem State.modTime_pending (f : Time → Time) : (s.modTime f).pending = s.pending := rfl
@[simp] theorem State.modTime_fuse (f : Time → Time) : (s.modTime f).fuse = s.fuse := rfl
@[simp] theorem State.modTime_pins (f : Time → Time) : (s.modTime f).pins = s.pins := rfl
@[simp] theorem State.modTime_time (f : Time → Time) : (s.modTime f).time = f s.time := rfl
@[simp] theorem State.modTime_regs (f : Time → Time) : (s.modTime f).regs = s.regs := rfl
@[simp] theorem State.modTime_aonRegs (f : Time → Time) : (s.modTime f).aonRegs = s.aonRegs := rfl
@[simp] theorem State.modTime_glb (f : Time → Time) : (s.modTime f).glb = s.glb := rfl
@[simp] theorem State.modTime_nvs (f : Time → Time) : (s.modTime f).nvs = s.nvs := rfl
@[simp] theorem State.modTime_pwr (f : Time → Time) : (s.modTime f).pwr = s.pwr := rfl
@[simp] theorem State.modTime_pstate (f : Time → Time) : (s.modTime f).pstate = s.pstate := rfl
@[simp] theorem State.modTime_wrp (f : Time → Time) : (s.modTime f).wrp = s.wrp := rfl
@[simp] theorem State.modTime_paths (f : Time → Time) : (s.modTime f).paths = s.paths := rfl
@[simp] theorem State.modTime_syn (f : Time → Time) : (s.modTime f).syn = s.syn := rfl
@[simp] theorem State.modTime_skn (f : Time → Time) : (s.modTime f).skn = s.skn := rfl
@[simp] theorem State.modTime_fft (f : Time → Time) : (s.modTime f).fft = s.fft := rfl
@[simp] theorem State.modTime_dpd (f : Time → Time) : (s.modTime f).dpd = s.dpd := rfl
@[simp] theorem State.modTime_rad (f : Time → Time) : (s.modTime f).rad = s.rad := rfl
@[simp] theorem State.modTime_lne (f : Time → Time) : (s.modTime f).lne = s.lne := rfl
@[simp] theorem State.modTime_fhp (f : Time → Time) : (s.modTime f).fhp = s.fhp := rfl
@[simp] theorem State.modTime_tim (f : Time → Time) : (s.modTime f).tim = s.tim := rfl
@[simp] theorem State.modTime_cas (f : Time → Time) : (s.modTime f).cas = s.cas := rfl
@[simp] theorem State.modTime_acq (f : Time → Time) : (s.modTime f).acq = s.acq := rfl
@[simp] theorem State.modTime_mon (f : Time → Time) : (s.modTime f).mon = s.mon := rfl
@[simp] theorem State.modTime_drc (f : Time → Time) : (s.modTime f).drc = s.drc := rfl
@[simp] theorem State.modTime_dma (f : Time → Time) : (s.modTime f).dma = s.dma := rfl
@[simp] theorem State.modTime_hka (f : Time → Time) : (s.modTime f).hka = s.hka := rfl
@[simp] theorem State.modTime_bda (f : Time → Time) : (s.modTime f).bda = s.bda := rfl
@[simp] theorem State.modTime_thm (f : Time → Time) : (s.modTime f).thm = s.thm := rfl
@[simp] theorem State.modTime_rnd (f : Time → Time) : (s.modTime f).rnd = s.rnd := rfl
@[simp] theorem State.modGlb_pending (f : Glb → Glb) : (s.modGlb f).pending = s.pending := rfl
@[simp] theorem State.modGlb_fuse (f : Glb → Glb) : (s.modGlb f).fuse = s.fuse := rfl
@[simp] theorem State.modGlb_pins (f : Glb → Glb) : (s.modGlb f).pins = s.pins := rfl
@[simp] theorem State.modGlb_time (f : Glb → Glb) : (s.modGlb f).time = s.time := rfl
@[simp] theorem State.modGlb_regs (f : Glb → Glb) : (s.modGlb f).regs = s.regs := rfl
@[simp] theorem State.modGlb_aonRegs (f : Glb → Glb) : (s.modGlb f).aonRegs = s.aonRegs := rfl
@[simp] theorem State.modGlb_glb (f : Glb → Glb) : (s.modGlb f).glb = f s.glb := rfl
@[simp] theorem State.modGlb_nvs (f : Glb → Glb) : (s.modGlb f).nvs = s.nvs := rfl
@[simp] theorem State.modGlb_pwr (f : Glb → Glb) : (s.modGlb f).pwr = s.pwr := rfl
@[simp] theorem State.modGlb_pstate (f : Glb → Glb) : (s.modGlb f).pstate = s.pstate := rfl
@[simp] theorem State.modGlb_wrp (f : Glb → Glb) : (s.modGlb f).wrp = s.wrp := rfl
@[simp] theorem State.modGlb_paths (f : Glb → Glb) : (s.modGlb f).paths = s.paths := rfl
@[simp] theorem State.modGlb_syn (f : Glb → Glb) : (s.modGlb f).syn = s.syn := rfl
@[simp] theorem State.modGlb_skn (f : Glb → Glb) : (s.modGlb f).skn = s.skn := rfl
@[simp] theorem State.modGlb_fft (f : Glb → Glb) : (s.modGlb f).fft = s.fft := rfl
@[simp] theorem State.modGlb_dpd (f : Glb → Glb) : (s.modGlb f).dpd = s.dpd := rfl
@[simp] theorem State.modGlb_rad (f : Glb → Glb) : (s.modGlb f).rad = s.rad := rfl
@[simp] theorem State.modGlb_lne (f : Glb → Glb) : (s.modGlb f).lne = s.lne := rfl
@[simp] theorem State.modGlb_fhp (f : Glb → Glb) : (s.modGlb f).fhp = s.fhp := rfl
@[simp] theorem State.modGlb_tim (f : Glb → Glb) : (s.modGlb f).tim = s.tim := rfl
@[simp] theorem State.modGlb_cas (f : Glb → Glb) : (s.modGlb f).cas = s.cas := rfl
@[simp] theorem State.modGlb_acq (f : Glb → Glb) : (s.modGlb f).acq = s.acq := rfl
@[simp] theorem State.modGlb_mon (f : Glb → Glb) : (s.modGlb f).mon = s.mon := rfl
@[simp] theorem State.modGlb_drc (f : Glb → Glb) : (s.modGlb f).drc = s.drc := rfl
@[simp] theorem State.modGlb_dma (f : Glb → Glb) : (s.modGlb f).dma = s.dma := rfl
@[simp] theorem State.modGlb_hka (f : Glb → Glb) : (s.modGlb f).hka = s.hka := rfl
@[simp] theorem State.modGlb_bda (f : Glb → Glb) : (s.modGlb f).bda = s.bda := rfl
@[simp] theorem State.modGlb_thm (f : Glb → Glb) : (s.modGlb f).thm = s.thm := rfl
@[simp] theorem State.modGlb_rnd (f : Glb → Glb) : (s.modGlb f).rnd = s.rnd := rfl
@[simp] theorem State.modNvs_pending (f : Nvs → Nvs) : (s.modNvs f).pending = s.pending := rfl
@[simp] theorem State.modNvs_fuse (f : Nvs → Nvs) : (s.modNvs f).fuse = s.fuse := rfl
@[simp] theorem State.modNvs_pins (f : Nvs → Nvs) : (s.modNvs f).pins = s.pins := rfl
@[simp] theorem State.modNvs_time (f : Nvs → Nvs) : (s.modNvs f).time = s.time := rfl
@[simp] theorem State.modNvs_regs (f : Nvs → Nvs) : (s.modNvs f).regs = s.regs := rfl
@[simp] theorem State.modNvs_aonRegs (f : Nvs → Nvs) : (s.modNvs f).aonRegs = s.aonRegs := rfl
@[simp] theorem State.modNvs_glb (f : Nvs → Nvs) : (s.modNvs f).glb = s.glb := rfl
@[simp] theorem State.modNvs_nvs (f : Nvs → Nvs) : (s.modNvs f).nvs = f s.nvs := rfl
@[simp] theorem State.modNvs_pwr (f : Nvs → Nvs) : (s.modNvs f).pwr = s.pwr := rfl
@[simp] theorem State.modNvs_pstate (f : Nvs → Nvs) : (s.modNvs f).pstate = s.pstate := rfl
@[simp] theorem State.modNvs_wrp (f : Nvs → Nvs) : (s.modNvs f).wrp = s.wrp := rfl
@[simp] theorem State.modNvs_paths (f : Nvs → Nvs) : (s.modNvs f).paths = s.paths := rfl
@[simp] theorem State.modNvs_syn (f : Nvs → Nvs) : (s.modNvs f).syn = s.syn := rfl
@[simp] theorem State.modNvs_skn (f : Nvs → Nvs) : (s.modNvs f).skn = s.skn := rfl
@[simp] theorem State.modNvs_fft (f : Nvs → Nvs) : (s.modNvs f).fft = s.fft := rfl
@[simp] theorem State.modNvs_dpd (f : Nvs → Nvs) : (s.modNvs f).dpd = s.dpd := rfl
@[simp] theorem State.modNvs_rad (f : Nvs → Nvs) : (s.modNvs f).rad = s.rad := rfl
@[simp] theorem State.modNvs_lne (f : Nvs → Nvs) : (s.modNvs f).lne = s.lne := rfl
@[simp] theorem State.modNvs_fhp (f : Nvs → Nvs) : (s.modNvs f).fhp = s.fhp := rfl
@[simp] theorem State.modNvs_tim (f : Nvs → Nvs) : (s.modNvs f).tim = s.tim := rfl
@[simp] theorem State.modNvs_cas (f : Nvs → Nvs) : (s.modNvs f).cas = s.cas := rfl
@[simp] theorem State.modNvs_acq (f : Nvs → Nvs) : (s.modNvs f).acq = s.acq := rfl
@[simp] theorem State.modNvs_mon (f : Nvs → Nvs) : (s.modNvs f).mon = s.mon := rfl
@[simp] theorem State.modNvs_drc (f : Nvs → Nvs) : (s.modNvs f).drc = s.drc := rfl
@[simp] theorem State.modNvs_dma (f : Nvs → Nvs) : (s.modNvs f).dma = s.dma := rfl
@[simp] theorem State.modNvs_hka (f : Nvs → Nvs) : (s.modNvs f).hka = s.hka := rfl
@[simp] theorem State.modNvs_bda (f : Nvs → Nvs) : (s.modNvs f).bda = s.bda := rfl
@[simp] theorem State.modNvs_thm (f : Nvs → Nvs) : (s.modNvs f).thm = s.thm := rfl
@[simp] theorem State.modNvs_rnd (f : Nvs → Nvs) : (s.modNvs f).rnd = s.rnd := rfl
@[simp] theorem State.modPwr_pending (f : Pwr → Pwr) : (s.modPwr f).pending = s.pending := rfl
@[simp] theorem State.modPwr_fuse (f : Pwr → Pwr) : (s.modPwr f).fuse = s.fuse := rfl
@[simp] theorem State.modPwr_pins (f : Pwr → Pwr) : (s.modPwr f).pins = s.pins := rfl
@[simp] theorem State.modPwr_time (f : Pwr → Pwr) : (s.modPwr f).time = s.time := rfl
@[simp] theorem State.modPwr_regs (f : Pwr → Pwr) : (s.modPwr f).regs = s.regs := rfl
@[simp] theorem State.modPwr_aonRegs (f : Pwr → Pwr) : (s.modPwr f).aonRegs = s.aonRegs := rfl
@[simp] theorem State.modPwr_glb (f : Pwr → Pwr) : (s.modPwr f).glb = s.glb := rfl
@[simp] theorem State.modPwr_nvs (f : Pwr → Pwr) : (s.modPwr f).nvs = s.nvs := rfl
@[simp] theorem State.modPwr_pwr (f : Pwr → Pwr) : (s.modPwr f).pwr = f s.pwr := rfl
@[simp] theorem State.modPwr_pstate (f : Pwr → Pwr) : (s.modPwr f).pstate = s.pstate := rfl
@[simp] theorem State.modPwr_wrp (f : Pwr → Pwr) : (s.modPwr f).wrp = s.wrp := rfl
@[simp] theorem State.modPwr_paths (f : Pwr → Pwr) : (s.modPwr f).paths = s.paths := rfl
@[simp] theorem State.modPwr_syn (f : Pwr → Pwr) : (s.modPwr f).syn = s.syn := rfl
@[simp] theorem State.modPwr_skn (f : Pwr → Pwr) : (s.modPwr f).skn = s.skn := rfl
@[simp] theorem State.modPwr_fft (f : Pwr → Pwr) : (s.modPwr f).fft = s.fft := rfl
@[simp] theorem State.modPwr_dpd (f : Pwr → Pwr) : (s.modPwr f).dpd = s.dpd := rfl
@[simp] theorem State.modPwr_rad (f : Pwr → Pwr) : (s.modPwr f).rad = s.rad := rfl
@[simp] theorem State.modPwr_lne (f : Pwr → Pwr) : (s.modPwr f).lne = s.lne := rfl
@[simp] theorem State.modPwr_fhp (f : Pwr → Pwr) : (s.modPwr f).fhp = s.fhp := rfl
@[simp] theorem State.modPwr_tim (f : Pwr → Pwr) : (s.modPwr f).tim = s.tim := rfl
@[simp] theorem State.modPwr_cas (f : Pwr → Pwr) : (s.modPwr f).cas = s.cas := rfl
@[simp] theorem State.modPwr_acq (f : Pwr → Pwr) : (s.modPwr f).acq = s.acq := rfl
@[simp] theorem State.modPwr_mon (f : Pwr → Pwr) : (s.modPwr f).mon = s.mon := rfl
@[simp] theorem State.modPwr_drc (f : Pwr → Pwr) : (s.modPwr f).drc = s.drc := rfl
@[simp] theorem State.modPwr_dma (f : Pwr → Pwr) : (s.modPwr f).dma = s.dma := rfl
@[simp] theorem State.modPwr_hka (f : Pwr → Pwr) : (s.modPwr f).hka = s.hka := rfl
@[simp] theorem State.modPwr_bda (f : Pwr → Pwr) : (s.modPwr f).bda = s.bda := rfl
@[simp] theorem State.modPwr_thm (f : Pwr → Pwr) : (s.modPwr f).thm = s.thm := rfl
@[simp] theorem State.modPwr_rnd (f : Pwr → Pwr) : (s.modPwr f).rnd = s.rnd := rfl
@[simp] theorem State.modPState_pending (f : PState → PState) : (s.modPState f).pending = s.pending := rfl
@[simp] theorem State.modPState_fuse (f : PState → PState) : (s.modPState f).fuse = s.fuse := rfl
@[simp] theorem State.modPState_pins (f : PState → PState) : (s.modPState f).pins = s.pins := rfl
@[simp] theorem State.modPState_time (f : PState → PState) : (s.modPState f).time = s.time := rfl
@[simp] theorem State.modPState_regs (f : PState → PState) : (s.modPState f).regs = s.regs := rfl
@[simp] theorem State.modPState_aonRegs (f : PState → PState) : (s.modPState f).aonRegs = s.aonRegs := rfl
@[simp] theorem State.modPState_glb (f : PState → PState) : (s.modPState f).glb = s.glb := rfl
@[simp] theorem State.modPState_nvs (f : PState → PState) : (s.modPState f).nvs = s.nvs := rfl
@[simp] theorem State.modPState_pwr (f : PState → PState) : (s.modPState f).pwr = s.pwr := rfl
@[simp] theorem State.modPState_pstate (f : PState → PState) : (s.modPState f).pstate = f s.pstate := rfl
@[simp] theorem State.modPState_wrp (f : PState → PState) : (s.modPState f).wrp = s.wrp := rfl
@[simp] theorem State.modPState_paths (f : PState → PState) : (s.modPState f).paths = s.paths := rfl
@[simp] theorem State.modPState_syn (f : PState → PState) : (s.modPState f).syn = s.syn := rfl
@[simp] theorem State.modPState_skn (f : PState → PState) : (s.modPState f).skn = s.skn := rfl
@[simp] theorem State.modPState_fft (f : PState → PState) : (s.modPState f).fft = s.fft := rfl
@[simp] theorem State.modPState_dpd (f : PState → PState) : (s.modPState f).dpd = s.dpd := rfl
@[simp] theorem State.modPState_rad (f : PState → PState) : (s.modPState f).rad = s.rad := rfl
@[simp] theorem State.modPState_lne (f : PState → PState) : (s.modPState f).lne = s.lne := rfl
@[simp] theorem State.modPState_fhp (f : PState → PState) : (s.modPState f).fhp = s.fhp := rfl
@[simp] theorem State.modPState_tim (f : PState → PState) : (s.modPState f).tim = s.tim := rfl
@[simp] theorem State.modPState_cas (f : PState → PState) : (s.modPState f).cas = s.cas := rfl
@[simp] theorem State.modPState_acq (f : PState → PState) : (s.modPState f).acq = s.acq := rfl
@[simp] theorem State.modPState_mon (f : PState → PState) : (s.modPState f).mon = s.mon := rfl
@[simp] theorem State.modPState_drc (f : PState → PState) : (s.modPState f).drc = s.drc := rfl
@[simp] theorem State.modPState_dma (f : PState → PState) : (s.modPState f).dma = s.dma := rfl
@[simp] theorem State.modPState_hka (f : PState → PState) : (s.modPState f).hka = s.hka := rfl
@[simp] theorem State.modPState_bda (f : PState → PState) : (s.modPState f).bda = s.bda := rfl
@[simp] theorem State.modPState_thm (f : PState → PState) : (s.modPState f).thm = s.thm := rfl
@[simp] theorem State.modPState_rnd (f : PState → PState) : (s.modPState f).rnd = s.rnd := rfl
@[simp] theorem State.modRail_pending (n : Nat) (f : Rail → Rail) : (s.modRail n f).pending = s.pending := rfl
@[simp] theorem State.modRail_fuse (n : Nat) (f : Rail → Rail) : (s.modRail n f).fuse = s.fuse := rfl
@[simp] theorem State.modRail_pins (n : Nat) (f : Rail → Rail) : (s.modRail n f).pins = s.pins := rfl
@[simp] theorem State.modRail_time (n : Nat) (f : Rail → Rail) : (s.modRail n f).time = s.time := rfl
@[simp] theorem State.modRail_regs (n : Nat) (f : Rail → Rail) : (s.modRail n f).regs = s.regs := rfl
@[simp] theorem State.modRail_aonRegs (n : Nat) (f : Rail → Rail) : (s.modRail n f).aonRegs = s.aonRegs := rfl
@[simp] theorem State.modRail_glb (n : Nat) (f : Rail → Rail) : (s.modRail n f).glb = s.glb := rfl
@[simp] theorem State.modRail_nvs (n : Nat) (f : Rail → Rail) : (s.modRail n f).nvs = s.nvs := rfl
@[simp] theorem State.modRail_pwr (n : Nat) (f : Rail → Rail) : (s.modRail n f).pwr = { s.pwr with rails := vmod s.pwr.rails n f } := rfl
@[simp] theorem State.modRail_pstate (n : Nat) (f : Rail → Rail) : (s.modRail n f).pstate = s.pstate := rfl
@[simp] theorem State.modRail_wrp (n : Nat) (f : Rail → Rail) : (s.modRail n f).wrp = s.wrp := rfl
@[simp] theorem State.modRail_paths (n : Nat) (f : Rail → Rail) : (s.modRail n f).paths = s.paths := rfl
@[simp] theorem State.modRail_syn (n : Nat) (f : Rail → Rail) : (s.modRail n f).syn = s.syn := rfl
@[simp] theorem State.modRail_skn (n : Nat) (f : Rail → Rail) : (s.modRail n f).skn = s.skn := rfl
@[simp] theorem State.modRail_fft (n : Nat) (f : Rail → Rail) : (s.modRail n f).fft = s.fft := rfl
@[simp] theorem State.modRail_dpd (n : Nat) (f : Rail → Rail) : (s.modRail n f).dpd = s.dpd := rfl
@[simp] theorem State.modRail_rad (n : Nat) (f : Rail → Rail) : (s.modRail n f).rad = s.rad := rfl
@[simp] theorem State.modRail_lne (n : Nat) (f : Rail → Rail) : (s.modRail n f).lne = s.lne := rfl
@[simp] theorem State.modRail_fhp (n : Nat) (f : Rail → Rail) : (s.modRail n f).fhp = s.fhp := rfl
@[simp] theorem State.modRail_tim (n : Nat) (f : Rail → Rail) : (s.modRail n f).tim = s.tim := rfl
@[simp] theorem State.modRail_cas (n : Nat) (f : Rail → Rail) : (s.modRail n f).cas = s.cas := rfl
@[simp] theorem State.modRail_acq (n : Nat) (f : Rail → Rail) : (s.modRail n f).acq = s.acq := rfl
@[simp] theorem State.modRail_mon (n : Nat) (f : Rail → Rail) : (s.modRail n f).mon = s.mon := rfl
@[simp] theorem State.modRail_drc (n : Nat) (f : Rail → Rail) : (s.modRail n f).drc = s.drc := rfl
@[simp] theorem State.modRail_dma (n : Nat) (f : Rail → Rail) : (s.modRail n f).dma = s.dma := rfl
@[simp] theorem State.modRail_hka (n : Nat) (f : Rail → Rail) : (s.modRail n f).hka = s.hka := rfl
@[simp] theorem State.modRail_bda (n : Nat) (f : Rail → Rail) : (s.modRail n f).bda = s.bda := rfl
@[simp] theorem State.modRail_thm (n : Nat) (f : Rail → Rail) : (s.modRail n f).thm = s.thm := rfl
@[simp] theorem State.modRail_rnd (n : Nat) (f : Rail → Rail) : (s.modRail n f).rnd = s.rnd := rfl
@[simp] theorem State.modWrp_pending (f : Wrp → Wrp) : (s.modWrp f).pending = s.pending := rfl
@[simp] theorem State.modWrp_fuse (f : Wrp → Wrp) : (s.modWrp f).fuse = s.fuse := rfl
@[simp] theorem State.modWrp_pins (f : Wrp → Wrp) : (s.modWrp f).pins = s.pins := rfl
@[simp] theorem State.modWrp_time (f : Wrp → Wrp) : (s.modWrp f).time = s.time := rfl
@[simp] theorem State.modWrp_regs (f : Wrp → Wrp) : (s.modWrp f).regs = s.regs := rfl
@[simp] theorem State.modWrp_aonRegs (f : Wrp → Wrp) : (s.modWrp f).aonRegs = s.aonRegs := rfl
@[simp] theorem State.modWrp_glb (f : Wrp → Wrp) : (s.modWrp f).glb = s.glb := rfl
@[simp] theorem State.modWrp_nvs (f : Wrp → Wrp) : (s.modWrp f).nvs = s.nvs := rfl
@[simp] theorem State.modWrp_pwr (f : Wrp → Wrp) : (s.modWrp f).pwr = s.pwr := rfl
@[simp] theorem State.modWrp_pstate (f : Wrp → Wrp) : (s.modWrp f).pstate = s.pstate := rfl
@[simp] theorem State.modWrp_wrp (f : Wrp → Wrp) : (s.modWrp f).wrp = f s.wrp := rfl
@[simp] theorem State.modWrp_paths (f : Wrp → Wrp) : (s.modWrp f).paths = s.paths := rfl
@[simp] theorem State.modWrp_syn (f : Wrp → Wrp) : (s.modWrp f).syn = s.syn := rfl
@[simp] theorem State.modWrp_skn (f : Wrp → Wrp) : (s.modWrp f).skn = s.skn := rfl
@[simp] theorem State.modWrp_fft (f : Wrp → Wrp) : (s.modWrp f).fft = s.fft := rfl
@[simp] theorem State.modWrp_dpd (f : Wrp → Wrp) : (s.modWrp f).dpd = s.dpd := rfl
@[simp] theorem State.modWrp_rad (f : Wrp → Wrp) : (s.modWrp f).rad = s.rad := rfl
@[simp] theorem State.modWrp_lne (f : Wrp → Wrp) : (s.modWrp f).lne = s.lne := rfl
@[simp] theorem State.modWrp_fhp (f : Wrp → Wrp) : (s.modWrp f).fhp = s.fhp := rfl
@[simp] theorem State.modWrp_tim (f : Wrp → Wrp) : (s.modWrp f).tim = s.tim := rfl
@[simp] theorem State.modWrp_cas (f : Wrp → Wrp) : (s.modWrp f).cas = s.cas := rfl
@[simp] theorem State.modWrp_acq (f : Wrp → Wrp) : (s.modWrp f).acq = s.acq := rfl
@[simp] theorem State.modWrp_mon (f : Wrp → Wrp) : (s.modWrp f).mon = s.mon := rfl
@[simp] theorem State.modWrp_drc (f : Wrp → Wrp) : (s.modWrp f).drc = s.drc := rfl
@[simp] theorem State.modWrp_dma (f : Wrp → Wrp) : (s.modWrp f).dma = s.dma := rfl
@[simp] theorem State.modWrp_hka (f : Wrp → Wrp) : (s.modWrp f).hka = s.hka := rfl
@[simp] theorem State.modWrp_bda (f : Wrp → Wrp) : (s.modWrp f).bda = s.bda := rfl
@[simp] theorem State.modWrp_thm (f : Wrp → Wrp) : (s.modWrp f).thm = s.thm := rfl
@[simp] theorem State.modWrp_rnd (f : Wrp → Wrp) : (s.modWrp f).rnd = s.rnd := rfl
@[simp] theorem State.modPath_pending (p : Nat) (f : PathSt → PathSt) : (s.modPath p f).pending = s.pending := rfl
@[simp] theorem State.modPath_fuse (p : Nat) (f : PathSt → PathSt) : (s.modPath p f).fuse = s.fuse := rfl
@[simp] theorem State.modPath_pins (p : Nat) (f : PathSt → PathSt) : (s.modPath p f).pins = s.pins := rfl
@[simp] theorem State.modPath_time (p : Nat) (f : PathSt → PathSt) : (s.modPath p f).time = s.time := rfl
@[simp] theorem State.modPath_regs (p : Nat) (f : PathSt → PathSt) : (s.modPath p f).regs = s.regs := rfl
@[simp] theorem State.modPath_aonRegs (p : Nat) (f : PathSt → PathSt) : (s.modPath p f).aonRegs = s.aonRegs := rfl
@[simp] theorem State.modPath_glb (p : Nat) (f : PathSt → PathSt) : (s.modPath p f).glb = s.glb := rfl
@[simp] theorem State.modPath_nvs (p : Nat) (f : PathSt → PathSt) : (s.modPath p f).nvs = s.nvs := rfl
@[simp] theorem State.modPath_pwr (p : Nat) (f : PathSt → PathSt) : (s.modPath p f).pwr = s.pwr := rfl
@[simp] theorem State.modPath_pstate (p : Nat) (f : PathSt → PathSt) : (s.modPath p f).pstate = s.pstate := rfl
@[simp] theorem State.modPath_wrp (p : Nat) (f : PathSt → PathSt) : (s.modPath p f).wrp = s.wrp := rfl
@[simp] theorem State.modPath_paths (p : Nat) (f : PathSt → PathSt) : (s.modPath p f).paths = vmod s.paths p f := rfl
@[simp] theorem State.modPath_syn (p : Nat) (f : PathSt → PathSt) : (s.modPath p f).syn = s.syn := rfl
@[simp] theorem State.modPath_skn (p : Nat) (f : PathSt → PathSt) : (s.modPath p f).skn = s.skn := rfl
@[simp] theorem State.modPath_fft (p : Nat) (f : PathSt → PathSt) : (s.modPath p f).fft = s.fft := rfl
@[simp] theorem State.modPath_dpd (p : Nat) (f : PathSt → PathSt) : (s.modPath p f).dpd = s.dpd := rfl
@[simp] theorem State.modPath_rad (p : Nat) (f : PathSt → PathSt) : (s.modPath p f).rad = s.rad := rfl
@[simp] theorem State.modPath_lne (p : Nat) (f : PathSt → PathSt) : (s.modPath p f).lne = s.lne := rfl
@[simp] theorem State.modPath_fhp (p : Nat) (f : PathSt → PathSt) : (s.modPath p f).fhp = s.fhp := rfl
@[simp] theorem State.modPath_tim (p : Nat) (f : PathSt → PathSt) : (s.modPath p f).tim = s.tim := rfl
@[simp] theorem State.modPath_cas (p : Nat) (f : PathSt → PathSt) : (s.modPath p f).cas = s.cas := rfl
@[simp] theorem State.modPath_acq (p : Nat) (f : PathSt → PathSt) : (s.modPath p f).acq = s.acq := rfl
@[simp] theorem State.modPath_mon (p : Nat) (f : PathSt → PathSt) : (s.modPath p f).mon = s.mon := rfl
@[simp] theorem State.modPath_drc (p : Nat) (f : PathSt → PathSt) : (s.modPath p f).drc = s.drc := rfl
@[simp] theorem State.modPath_dma (p : Nat) (f : PathSt → PathSt) : (s.modPath p f).dma = s.dma := rfl
@[simp] theorem State.modPath_hka (p : Nat) (f : PathSt → PathSt) : (s.modPath p f).hka = s.hka := rfl
@[simp] theorem State.modPath_bda (p : Nat) (f : PathSt → PathSt) : (s.modPath p f).bda = s.bda := rfl
@[simp] theorem State.modPath_thm (p : Nat) (f : PathSt → PathSt) : (s.modPath p f).thm = s.thm := rfl
@[simp] theorem State.modPath_rnd (p : Nat) (f : PathSt → PathSt) : (s.modPath p f).rnd = s.rnd := rfl
@[simp] theorem State.modSyn_pending (f : Syn → Syn) : (s.modSyn f).pending = s.pending := rfl
@[simp] theorem State.modSyn_fuse (f : Syn → Syn) : (s.modSyn f).fuse = s.fuse := rfl
@[simp] theorem State.modSyn_pins (f : Syn → Syn) : (s.modSyn f).pins = s.pins := rfl
@[simp] theorem State.modSyn_time (f : Syn → Syn) : (s.modSyn f).time = s.time := rfl
@[simp] theorem State.modSyn_regs (f : Syn → Syn) : (s.modSyn f).regs = s.regs := rfl
@[simp] theorem State.modSyn_aonRegs (f : Syn → Syn) : (s.modSyn f).aonRegs = s.aonRegs := rfl
@[simp] theorem State.modSyn_glb (f : Syn → Syn) : (s.modSyn f).glb = s.glb := rfl
@[simp] theorem State.modSyn_nvs (f : Syn → Syn) : (s.modSyn f).nvs = s.nvs := rfl
@[simp] theorem State.modSyn_pwr (f : Syn → Syn) : (s.modSyn f).pwr = s.pwr := rfl
@[simp] theorem State.modSyn_pstate (f : Syn → Syn) : (s.modSyn f).pstate = s.pstate := rfl
@[simp] theorem State.modSyn_wrp (f : Syn → Syn) : (s.modSyn f).wrp = s.wrp := rfl
@[simp] theorem State.modSyn_paths (f : Syn → Syn) : (s.modSyn f).paths = s.paths := rfl
@[simp] theorem State.modSyn_syn (f : Syn → Syn) : (s.modSyn f).syn = f s.syn := rfl
@[simp] theorem State.modSyn_skn (f : Syn → Syn) : (s.modSyn f).skn = s.skn := rfl
@[simp] theorem State.modSyn_fft (f : Syn → Syn) : (s.modSyn f).fft = s.fft := rfl
@[simp] theorem State.modSyn_dpd (f : Syn → Syn) : (s.modSyn f).dpd = s.dpd := rfl
@[simp] theorem State.modSyn_rad (f : Syn → Syn) : (s.modSyn f).rad = s.rad := rfl
@[simp] theorem State.modSyn_lne (f : Syn → Syn) : (s.modSyn f).lne = s.lne := rfl
@[simp] theorem State.modSyn_fhp (f : Syn → Syn) : (s.modSyn f).fhp = s.fhp := rfl
@[simp] theorem State.modSyn_tim (f : Syn → Syn) : (s.modSyn f).tim = s.tim := rfl
@[simp] theorem State.modSyn_cas (f : Syn → Syn) : (s.modSyn f).cas = s.cas := rfl
@[simp] theorem State.modSyn_acq (f : Syn → Syn) : (s.modSyn f).acq = s.acq := rfl
@[simp] theorem State.modSyn_mon (f : Syn → Syn) : (s.modSyn f).mon = s.mon := rfl
@[simp] theorem State.modSyn_drc (f : Syn → Syn) : (s.modSyn f).drc = s.drc := rfl
@[simp] theorem State.modSyn_dma (f : Syn → Syn) : (s.modSyn f).dma = s.dma := rfl
@[simp] theorem State.modSyn_hka (f : Syn → Syn) : (s.modSyn f).hka = s.hka := rfl
@[simp] theorem State.modSyn_bda (f : Syn → Syn) : (s.modSyn f).bda = s.bda := rfl
@[simp] theorem State.modSyn_thm (f : Syn → Syn) : (s.modSyn f).thm = s.thm := rfl
@[simp] theorem State.modSyn_rnd (f : Syn → Syn) : (s.modSyn f).rnd = s.rnd := rfl
@[simp] theorem State.modUnit_pending (u : Nat) (f : SynUnit → SynUnit) : (s.modUnit u f).pending = s.pending := rfl
@[simp] theorem State.modUnit_fuse (u : Nat) (f : SynUnit → SynUnit) : (s.modUnit u f).fuse = s.fuse := rfl
@[simp] theorem State.modUnit_pins (u : Nat) (f : SynUnit → SynUnit) : (s.modUnit u f).pins = s.pins := rfl
@[simp] theorem State.modUnit_time (u : Nat) (f : SynUnit → SynUnit) : (s.modUnit u f).time = s.time := rfl
@[simp] theorem State.modUnit_regs (u : Nat) (f : SynUnit → SynUnit) : (s.modUnit u f).regs = s.regs := rfl
@[simp] theorem State.modUnit_aonRegs (u : Nat) (f : SynUnit → SynUnit) : (s.modUnit u f).aonRegs = s.aonRegs := rfl
@[simp] theorem State.modUnit_glb (u : Nat) (f : SynUnit → SynUnit) : (s.modUnit u f).glb = s.glb := rfl
@[simp] theorem State.modUnit_nvs (u : Nat) (f : SynUnit → SynUnit) : (s.modUnit u f).nvs = s.nvs := rfl
@[simp] theorem State.modUnit_pwr (u : Nat) (f : SynUnit → SynUnit) : (s.modUnit u f).pwr = s.pwr := rfl
@[simp] theorem State.modUnit_pstate (u : Nat) (f : SynUnit → SynUnit) : (s.modUnit u f).pstate = s.pstate := rfl
@[simp] theorem State.modUnit_wrp (u : Nat) (f : SynUnit → SynUnit) : (s.modUnit u f).wrp = s.wrp := rfl
@[simp] theorem State.modUnit_paths (u : Nat) (f : SynUnit → SynUnit) : (s.modUnit u f).paths = s.paths := rfl
@[simp] theorem State.modUnit_syn (u : Nat) (f : SynUnit → SynUnit) : (s.modUnit u f).syn = { s.syn with units := vmod s.syn.units u f } := rfl
@[simp] theorem State.modUnit_skn (u : Nat) (f : SynUnit → SynUnit) : (s.modUnit u f).skn = s.skn := rfl
@[simp] theorem State.modUnit_fft (u : Nat) (f : SynUnit → SynUnit) : (s.modUnit u f).fft = s.fft := rfl
@[simp] theorem State.modUnit_dpd (u : Nat) (f : SynUnit → SynUnit) : (s.modUnit u f).dpd = s.dpd := rfl
@[simp] theorem State.modUnit_rad (u : Nat) (f : SynUnit → SynUnit) : (s.modUnit u f).rad = s.rad := rfl
@[simp] theorem State.modUnit_lne (u : Nat) (f : SynUnit → SynUnit) : (s.modUnit u f).lne = s.lne := rfl
@[simp] theorem State.modUnit_fhp (u : Nat) (f : SynUnit → SynUnit) : (s.modUnit u f).fhp = s.fhp := rfl
@[simp] theorem State.modUnit_tim (u : Nat) (f : SynUnit → SynUnit) : (s.modUnit u f).tim = s.tim := rfl
@[simp] theorem State.modUnit_cas (u : Nat) (f : SynUnit → SynUnit) : (s.modUnit u f).cas = s.cas := rfl
@[simp] theorem State.modUnit_acq (u : Nat) (f : SynUnit → SynUnit) : (s.modUnit u f).acq = s.acq := rfl
@[simp] theorem State.modUnit_mon (u : Nat) (f : SynUnit → SynUnit) : (s.modUnit u f).mon = s.mon := rfl
@[simp] theorem State.modUnit_drc (u : Nat) (f : SynUnit → SynUnit) : (s.modUnit u f).drc = s.drc := rfl
@[simp] theorem State.modUnit_dma (u : Nat) (f : SynUnit → SynUnit) : (s.modUnit u f).dma = s.dma := rfl
@[simp] theorem State.modUnit_hka (u : Nat) (f : SynUnit → SynUnit) : (s.modUnit u f).hka = s.hka := rfl
@[simp] theorem State.modUnit_bda (u : Nat) (f : SynUnit → SynUnit) : (s.modUnit u f).bda = s.bda := rfl
@[simp] theorem State.modUnit_thm (u : Nat) (f : SynUnit → SynUnit) : (s.modUnit u f).thm = s.thm := rfl
@[simp] theorem State.modUnit_rnd (u : Nat) (f : SynUnit → SynUnit) : (s.modUnit u f).rnd = s.rnd := rfl
@[simp] theorem State.modRole_pending (r : Nat) (f : SynRole → SynRole) : (s.modRole r f).pending = s.pending := rfl
@[simp] theorem State.modRole_fuse (r : Nat) (f : SynRole → SynRole) : (s.modRole r f).fuse = s.fuse := rfl
@[simp] theorem State.modRole_pins (r : Nat) (f : SynRole → SynRole) : (s.modRole r f).pins = s.pins := rfl
@[simp] theorem State.modRole_time (r : Nat) (f : SynRole → SynRole) : (s.modRole r f).time = s.time := rfl
@[simp] theorem State.modRole_regs (r : Nat) (f : SynRole → SynRole) : (s.modRole r f).regs = s.regs := rfl
@[simp] theorem State.modRole_aonRegs (r : Nat) (f : SynRole → SynRole) : (s.modRole r f).aonRegs = s.aonRegs := rfl
@[simp] theorem State.modRole_glb (r : Nat) (f : SynRole → SynRole) : (s.modRole r f).glb = s.glb := rfl
@[simp] theorem State.modRole_nvs (r : Nat) (f : SynRole → SynRole) : (s.modRole r f).nvs = s.nvs := rfl
@[simp] theorem State.modRole_pwr (r : Nat) (f : SynRole → SynRole) : (s.modRole r f).pwr = s.pwr := rfl
@[simp] theorem State.modRole_pstate (r : Nat) (f : SynRole → SynRole) : (s.modRole r f).pstate = s.pstate := rfl
@[simp] theorem State.modRole_wrp (r : Nat) (f : SynRole → SynRole) : (s.modRole r f).wrp = s.wrp := rfl
@[simp] theorem State.modRole_paths (r : Nat) (f : SynRole → SynRole) : (s.modRole r f).paths = s.paths := rfl
@[simp] theorem State.modRole_syn (r : Nat) (f : SynRole → SynRole) : (s.modRole r f).syn = { s.syn with roles := vmod s.syn.roles r f } := rfl
@[simp] theorem State.modRole_skn (r : Nat) (f : SynRole → SynRole) : (s.modRole r f).skn = s.skn := rfl
@[simp] theorem State.modRole_fft (r : Nat) (f : SynRole → SynRole) : (s.modRole r f).fft = s.fft := rfl
@[simp] theorem State.modRole_dpd (r : Nat) (f : SynRole → SynRole) : (s.modRole r f).dpd = s.dpd := rfl
@[simp] theorem State.modRole_rad (r : Nat) (f : SynRole → SynRole) : (s.modRole r f).rad = s.rad := rfl
@[simp] theorem State.modRole_lne (r : Nat) (f : SynRole → SynRole) : (s.modRole r f).lne = s.lne := rfl
@[simp] theorem State.modRole_fhp (r : Nat) (f : SynRole → SynRole) : (s.modRole r f).fhp = s.fhp := rfl
@[simp] theorem State.modRole_tim (r : Nat) (f : SynRole → SynRole) : (s.modRole r f).tim = s.tim := rfl
@[simp] theorem State.modRole_cas (r : Nat) (f : SynRole → SynRole) : (s.modRole r f).cas = s.cas := rfl
@[simp] theorem State.modRole_acq (r : Nat) (f : SynRole → SynRole) : (s.modRole r f).acq = s.acq := rfl
@[simp] theorem State.modRole_mon (r : Nat) (f : SynRole → SynRole) : (s.modRole r f).mon = s.mon := rfl
@[simp] theorem State.modRole_drc (r : Nat) (f : SynRole → SynRole) : (s.modRole r f).drc = s.drc := rfl
@[simp] theorem State.modRole_dma (r : Nat) (f : SynRole → SynRole) : (s.modRole r f).dma = s.dma := rfl
@[simp] theorem State.modRole_hka (r : Nat) (f : SynRole → SynRole) : (s.modRole r f).hka = s.hka := rfl
@[simp] theorem State.modRole_bda (r : Nat) (f : SynRole → SynRole) : (s.modRole r f).bda = s.bda := rfl
@[simp] theorem State.modRole_thm (r : Nat) (f : SynRole → SynRole) : (s.modRole r f).thm = s.thm := rfl
@[simp] theorem State.modRole_rnd (r : Nat) (f : SynRole → SynRole) : (s.modRole r f).rnd = s.rnd := rfl
@[simp] theorem State.modSkn_pending (f : Skn → Skn) : (s.modSkn f).pending = s.pending := rfl
@[simp] theorem State.modSkn_fuse (f : Skn → Skn) : (s.modSkn f).fuse = s.fuse := rfl
@[simp] theorem State.modSkn_pins (f : Skn → Skn) : (s.modSkn f).pins = s.pins := rfl
@[simp] theorem State.modSkn_time (f : Skn → Skn) : (s.modSkn f).time = s.time := rfl
@[simp] theorem State.modSkn_regs (f : Skn → Skn) : (s.modSkn f).regs = s.regs := rfl
@[simp] theorem State.modSkn_aonRegs (f : Skn → Skn) : (s.modSkn f).aonRegs = s.aonRegs := rfl
@[simp] theorem State.modSkn_glb (f : Skn → Skn) : (s.modSkn f).glb = s.glb := rfl
@[simp] theorem State.modSkn_nvs (f : Skn → Skn) : (s.modSkn f).nvs = s.nvs := rfl
@[simp] theorem State.modSkn_pwr (f : Skn → Skn) : (s.modSkn f).pwr = s.pwr := rfl
@[simp] theorem State.modSkn_pstate (f : Skn → Skn) : (s.modSkn f).pstate = s.pstate := rfl
@[simp] theorem State.modSkn_wrp (f : Skn → Skn) : (s.modSkn f).wrp = s.wrp := rfl
@[simp] theorem State.modSkn_paths (f : Skn → Skn) : (s.modSkn f).paths = s.paths := rfl
@[simp] theorem State.modSkn_syn (f : Skn → Skn) : (s.modSkn f).syn = s.syn := rfl
@[simp] theorem State.modSkn_skn (f : Skn → Skn) : (s.modSkn f).skn = f s.skn := rfl
@[simp] theorem State.modSkn_fft (f : Skn → Skn) : (s.modSkn f).fft = s.fft := rfl
@[simp] theorem State.modSkn_dpd (f : Skn → Skn) : (s.modSkn f).dpd = s.dpd := rfl
@[simp] theorem State.modSkn_rad (f : Skn → Skn) : (s.modSkn f).rad = s.rad := rfl
@[simp] theorem State.modSkn_lne (f : Skn → Skn) : (s.modSkn f).lne = s.lne := rfl
@[simp] theorem State.modSkn_fhp (f : Skn → Skn) : (s.modSkn f).fhp = s.fhp := rfl
@[simp] theorem State.modSkn_tim (f : Skn → Skn) : (s.modSkn f).tim = s.tim := rfl
@[simp] theorem State.modSkn_cas (f : Skn → Skn) : (s.modSkn f).cas = s.cas := rfl
@[simp] theorem State.modSkn_acq (f : Skn → Skn) : (s.modSkn f).acq = s.acq := rfl
@[simp] theorem State.modSkn_mon (f : Skn → Skn) : (s.modSkn f).mon = s.mon := rfl
@[simp] theorem State.modSkn_drc (f : Skn → Skn) : (s.modSkn f).drc = s.drc := rfl
@[simp] theorem State.modSkn_dma (f : Skn → Skn) : (s.modSkn f).dma = s.dma := rfl
@[simp] theorem State.modSkn_hka (f : Skn → Skn) : (s.modSkn f).hka = s.hka := rfl
@[simp] theorem State.modSkn_bda (f : Skn → Skn) : (s.modSkn f).bda = s.bda := rfl
@[simp] theorem State.modSkn_thm (f : Skn → Skn) : (s.modSkn f).thm = s.thm := rfl
@[simp] theorem State.modSkn_rnd (f : Skn → Skn) : (s.modSkn f).rnd = s.rnd := rfl
@[simp] theorem State.modFft_pending (e : Nat) (f : FftEngine → FftEngine) : (s.modFft e f).pending = s.pending := rfl
@[simp] theorem State.modFft_fuse (e : Nat) (f : FftEngine → FftEngine) : (s.modFft e f).fuse = s.fuse := rfl
@[simp] theorem State.modFft_pins (e : Nat) (f : FftEngine → FftEngine) : (s.modFft e f).pins = s.pins := rfl
@[simp] theorem State.modFft_time (e : Nat) (f : FftEngine → FftEngine) : (s.modFft e f).time = s.time := rfl
@[simp] theorem State.modFft_regs (e : Nat) (f : FftEngine → FftEngine) : (s.modFft e f).regs = s.regs := rfl
@[simp] theorem State.modFft_aonRegs (e : Nat) (f : FftEngine → FftEngine) : (s.modFft e f).aonRegs = s.aonRegs := rfl
@[simp] theorem State.modFft_glb (e : Nat) (f : FftEngine → FftEngine) : (s.modFft e f).glb = s.glb := rfl
@[simp] theorem State.modFft_nvs (e : Nat) (f : FftEngine → FftEngine) : (s.modFft e f).nvs = s.nvs := rfl
@[simp] theorem State.modFft_pwr (e : Nat) (f : FftEngine → FftEngine) : (s.modFft e f).pwr = s.pwr := rfl
@[simp] theorem State.modFft_pstate (e : Nat) (f : FftEngine → FftEngine) : (s.modFft e f).pstate = s.pstate := rfl
@[simp] theorem State.modFft_wrp (e : Nat) (f : FftEngine → FftEngine) : (s.modFft e f).wrp = s.wrp := rfl
@[simp] theorem State.modFft_paths (e : Nat) (f : FftEngine → FftEngine) : (s.modFft e f).paths = s.paths := rfl
@[simp] theorem State.modFft_syn (e : Nat) (f : FftEngine → FftEngine) : (s.modFft e f).syn = s.syn := rfl
@[simp] theorem State.modFft_skn (e : Nat) (f : FftEngine → FftEngine) : (s.modFft e f).skn = s.skn := rfl
@[simp] theorem State.modFft_fft (e : Nat) (f : FftEngine → FftEngine) : (s.modFft e f).fft = vmod s.fft e f := rfl
@[simp] theorem State.modFft_dpd (e : Nat) (f : FftEngine → FftEngine) : (s.modFft e f).dpd = s.dpd := rfl
@[simp] theorem State.modFft_rad (e : Nat) (f : FftEngine → FftEngine) : (s.modFft e f).rad = s.rad := rfl
@[simp] theorem State.modFft_lne (e : Nat) (f : FftEngine → FftEngine) : (s.modFft e f).lne = s.lne := rfl
@[simp] theorem State.modFft_fhp (e : Nat) (f : FftEngine → FftEngine) : (s.modFft e f).fhp = s.fhp := rfl
@[simp] theorem State.modFft_tim (e : Nat) (f : FftEngine → FftEngine) : (s.modFft e f).tim = s.tim := rfl
@[simp] theorem State.modFft_cas (e : Nat) (f : FftEngine → FftEngine) : (s.modFft e f).cas = s.cas := rfl
@[simp] theorem State.modFft_acq (e : Nat) (f : FftEngine → FftEngine) : (s.modFft e f).acq = s.acq := rfl
@[simp] theorem State.modFft_mon (e : Nat) (f : FftEngine → FftEngine) : (s.modFft e f).mon = s.mon := rfl
@[simp] theorem State.modFft_drc (e : Nat) (f : FftEngine → FftEngine) : (s.modFft e f).drc = s.drc := rfl
@[simp] theorem State.modFft_dma (e : Nat) (f : FftEngine → FftEngine) : (s.modFft e f).dma = s.dma := rfl
@[simp] theorem State.modFft_hka (e : Nat) (f : FftEngine → FftEngine) : (s.modFft e f).hka = s.hka := rfl
@[simp] theorem State.modFft_bda (e : Nat) (f : FftEngine → FftEngine) : (s.modFft e f).bda = s.bda := rfl
@[simp] theorem State.modFft_thm (e : Nat) (f : FftEngine → FftEngine) : (s.modFft e f).thm = s.thm := rfl
@[simp] theorem State.modFft_rnd (e : Nat) (f : FftEngine → FftEngine) : (s.modFft e f).rnd = s.rnd := rfl
@[simp] theorem State.modDpd_pending (f : Dpd → Dpd) : (s.modDpd f).pending = s.pending := rfl
@[simp] theorem State.modDpd_fuse (f : Dpd → Dpd) : (s.modDpd f).fuse = s.fuse := rfl
@[simp] theorem State.modDpd_pins (f : Dpd → Dpd) : (s.modDpd f).pins = s.pins := rfl
@[simp] theorem State.modDpd_time (f : Dpd → Dpd) : (s.modDpd f).time = s.time := rfl
@[simp] theorem State.modDpd_regs (f : Dpd → Dpd) : (s.modDpd f).regs = s.regs := rfl
@[simp] theorem State.modDpd_aonRegs (f : Dpd → Dpd) : (s.modDpd f).aonRegs = s.aonRegs := rfl
@[simp] theorem State.modDpd_glb (f : Dpd → Dpd) : (s.modDpd f).glb = s.glb := rfl
@[simp] theorem State.modDpd_nvs (f : Dpd → Dpd) : (s.modDpd f).nvs = s.nvs := rfl
@[simp] theorem State.modDpd_pwr (f : Dpd → Dpd) : (s.modDpd f).pwr = s.pwr := rfl
@[simp] theorem State.modDpd_pstate (f : Dpd → Dpd) : (s.modDpd f).pstate = s.pstate := rfl
@[simp] theorem State.modDpd_wrp (f : Dpd → Dpd) : (s.modDpd f).wrp = s.wrp := rfl
@[simp] theorem State.modDpd_paths (f : Dpd → Dpd) : (s.modDpd f).paths = s.paths := rfl
@[simp] theorem State.modDpd_syn (f : Dpd → Dpd) : (s.modDpd f).syn = s.syn := rfl
@[simp] theorem State.modDpd_skn (f : Dpd → Dpd) : (s.modDpd f).skn = s.skn := rfl
@[simp] theorem State.modDpd_fft (f : Dpd → Dpd) : (s.modDpd f).fft = s.fft := rfl
@[simp] theorem State.modDpd_dpd (f : Dpd → Dpd) : (s.modDpd f).dpd = f s.dpd := rfl
@[simp] theorem State.modDpd_rad (f : Dpd → Dpd) : (s.modDpd f).rad = s.rad := rfl
@[simp] theorem State.modDpd_lne (f : Dpd → Dpd) : (s.modDpd f).lne = s.lne := rfl
@[simp] theorem State.modDpd_fhp (f : Dpd → Dpd) : (s.modDpd f).fhp = s.fhp := rfl
@[simp] theorem State.modDpd_tim (f : Dpd → Dpd) : (s.modDpd f).tim = s.tim := rfl
@[simp] theorem State.modDpd_cas (f : Dpd → Dpd) : (s.modDpd f).cas = s.cas := rfl
@[simp] theorem State.modDpd_acq (f : Dpd → Dpd) : (s.modDpd f).acq = s.acq := rfl
@[simp] theorem State.modDpd_mon (f : Dpd → Dpd) : (s.modDpd f).mon = s.mon := rfl
@[simp] theorem State.modDpd_drc (f : Dpd → Dpd) : (s.modDpd f).drc = s.drc := rfl
@[simp] theorem State.modDpd_dma (f : Dpd → Dpd) : (s.modDpd f).dma = s.dma := rfl
@[simp] theorem State.modDpd_hka (f : Dpd → Dpd) : (s.modDpd f).hka = s.hka := rfl
@[simp] theorem State.modDpd_bda (f : Dpd → Dpd) : (s.modDpd f).bda = s.bda := rfl
@[simp] theorem State.modDpd_thm (f : Dpd → Dpd) : (s.modDpd f).thm = s.thm := rfl
@[simp] theorem State.modDpd_rnd (f : Dpd → Dpd) : (s.modDpd f).rnd = s.rnd := rfl
@[simp] theorem State.modDpdPath_pending (p : Nat) (f : DpdPath → DpdPath) : (s.modDpdPath p f).pending = s.pending := rfl
@[simp] theorem State.modDpdPath_fuse (p : Nat) (f : DpdPath → DpdPath) : (s.modDpdPath p f).fuse = s.fuse := rfl
@[simp] theorem State.modDpdPath_pins (p : Nat) (f : DpdPath → DpdPath) : (s.modDpdPath p f).pins = s.pins := rfl
@[simp] theorem State.modDpdPath_time (p : Nat) (f : DpdPath → DpdPath) : (s.modDpdPath p f).time = s.time := rfl
@[simp] theorem State.modDpdPath_regs (p : Nat) (f : DpdPath → DpdPath) : (s.modDpdPath p f).regs = s.regs := rfl
@[simp] theorem State.modDpdPath_aonRegs (p : Nat) (f : DpdPath → DpdPath) : (s.modDpdPath p f).aonRegs = s.aonRegs := rfl
@[simp] theorem State.modDpdPath_glb (p : Nat) (f : DpdPath → DpdPath) : (s.modDpdPath p f).glb = s.glb := rfl
@[simp] theorem State.modDpdPath_nvs (p : Nat) (f : DpdPath → DpdPath) : (s.modDpdPath p f).nvs = s.nvs := rfl
@[simp] theorem State.modDpdPath_pwr (p : Nat) (f : DpdPath → DpdPath) : (s.modDpdPath p f).pwr = s.pwr := rfl
@[simp] theorem State.modDpdPath_pstate (p : Nat) (f : DpdPath → DpdPath) : (s.modDpdPath p f).pstate = s.pstate := rfl
@[simp] theorem State.modDpdPath_wrp (p : Nat) (f : DpdPath → DpdPath) : (s.modDpdPath p f).wrp = s.wrp := rfl
@[simp] theorem State.modDpdPath_paths (p : Nat) (f : DpdPath → DpdPath) : (s.modDpdPath p f).paths = s.paths := rfl
@[simp] theorem State.modDpdPath_syn (p : Nat) (f : DpdPath → DpdPath) : (s.modDpdPath p f).syn = s.syn := rfl
@[simp] theorem State.modDpdPath_skn (p : Nat) (f : DpdPath → DpdPath) : (s.modDpdPath p f).skn = s.skn := rfl
@[simp] theorem State.modDpdPath_fft (p : Nat) (f : DpdPath → DpdPath) : (s.modDpdPath p f).fft = s.fft := rfl
@[simp] theorem State.modDpdPath_dpd (p : Nat) (f : DpdPath → DpdPath) : (s.modDpdPath p f).dpd = { s.dpd with paths := vmod s.dpd.paths p f } := rfl
@[simp] theorem State.modDpdPath_rad (p : Nat) (f : DpdPath → DpdPath) : (s.modDpdPath p f).rad = s.rad := rfl
@[simp] theorem State.modDpdPath_lne (p : Nat) (f : DpdPath → DpdPath) : (s.modDpdPath p f).lne = s.lne := rfl
@[simp] theorem State.modDpdPath_fhp (p : Nat) (f : DpdPath → DpdPath) : (s.modDpdPath p f).fhp = s.fhp := rfl
@[simp] theorem State.modDpdPath_tim (p : Nat) (f : DpdPath → DpdPath) : (s.modDpdPath p f).tim = s.tim := rfl
@[simp] theorem State.modDpdPath_cas (p : Nat) (f : DpdPath → DpdPath) : (s.modDpdPath p f).cas = s.cas := rfl
@[simp] theorem State.modDpdPath_acq (p : Nat) (f : DpdPath → DpdPath) : (s.modDpdPath p f).acq = s.acq := rfl
@[simp] theorem State.modDpdPath_mon (p : Nat) (f : DpdPath → DpdPath) : (s.modDpdPath p f).mon = s.mon := rfl
@[simp] theorem State.modDpdPath_drc (p : Nat) (f : DpdPath → DpdPath) : (s.modDpdPath p f).drc = s.drc := rfl
@[simp] theorem State.modDpdPath_dma (p : Nat) (f : DpdPath → DpdPath) : (s.modDpdPath p f).dma = s.dma := rfl
@[simp] theorem State.modDpdPath_hka (p : Nat) (f : DpdPath → DpdPath) : (s.modDpdPath p f).hka = s.hka := rfl
@[simp] theorem State.modDpdPath_bda (p : Nat) (f : DpdPath → DpdPath) : (s.modDpdPath p f).bda = s.bda := rfl
@[simp] theorem State.modDpdPath_thm (p : Nat) (f : DpdPath → DpdPath) : (s.modDpdPath p f).thm = s.thm := rfl
@[simp] theorem State.modDpdPath_rnd (p : Nat) (f : DpdPath → DpdPath) : (s.modDpdPath p f).rnd = s.rnd := rfl
@[simp] theorem State.modObs_pending (o : Nat) (f : Obs → Obs) : (s.modObs o f).pending = s.pending := rfl
@[simp] theorem State.modObs_fuse (o : Nat) (f : Obs → Obs) : (s.modObs o f).fuse = s.fuse := rfl
@[simp] theorem State.modObs_pins (o : Nat) (f : Obs → Obs) : (s.modObs o f).pins = s.pins := rfl
@[simp] theorem State.modObs_time (o : Nat) (f : Obs → Obs) : (s.modObs o f).time = s.time := rfl
@[simp] theorem State.modObs_regs (o : Nat) (f : Obs → Obs) : (s.modObs o f).regs = s.regs := rfl
@[simp] theorem State.modObs_aonRegs (o : Nat) (f : Obs → Obs) : (s.modObs o f).aonRegs = s.aonRegs := rfl
@[simp] theorem State.modObs_glb (o : Nat) (f : Obs → Obs) : (s.modObs o f).glb = s.glb := rfl
@[simp] theorem State.modObs_nvs (o : Nat) (f : Obs → Obs) : (s.modObs o f).nvs = s.nvs := rfl
@[simp] theorem State.modObs_pwr (o : Nat) (f : Obs → Obs) : (s.modObs o f).pwr = s.pwr := rfl
@[simp] theorem State.modObs_pstate (o : Nat) (f : Obs → Obs) : (s.modObs o f).pstate = s.pstate := rfl
@[simp] theorem State.modObs_wrp (o : Nat) (f : Obs → Obs) : (s.modObs o f).wrp = s.wrp := rfl
@[simp] theorem State.modObs_paths (o : Nat) (f : Obs → Obs) : (s.modObs o f).paths = s.paths := rfl
@[simp] theorem State.modObs_syn (o : Nat) (f : Obs → Obs) : (s.modObs o f).syn = s.syn := rfl
@[simp] theorem State.modObs_skn (o : Nat) (f : Obs → Obs) : (s.modObs o f).skn = s.skn := rfl
@[simp] theorem State.modObs_fft (o : Nat) (f : Obs → Obs) : (s.modObs o f).fft = s.fft := rfl
@[simp] theorem State.modObs_dpd (o : Nat) (f : Obs → Obs) : (s.modObs o f).dpd = { s.dpd with obs := vmod s.dpd.obs o f } := rfl
@[simp] theorem State.modObs_rad (o : Nat) (f : Obs → Obs) : (s.modObs o f).rad = s.rad := rfl
@[simp] theorem State.modObs_lne (o : Nat) (f : Obs → Obs) : (s.modObs o f).lne = s.lne := rfl
@[simp] theorem State.modObs_fhp (o : Nat) (f : Obs → Obs) : (s.modObs o f).fhp = s.fhp := rfl
@[simp] theorem State.modObs_tim (o : Nat) (f : Obs → Obs) : (s.modObs o f).tim = s.tim := rfl
@[simp] theorem State.modObs_cas (o : Nat) (f : Obs → Obs) : (s.modObs o f).cas = s.cas := rfl
@[simp] theorem State.modObs_acq (o : Nat) (f : Obs → Obs) : (s.modObs o f).acq = s.acq := rfl
@[simp] theorem State.modObs_mon (o : Nat) (f : Obs → Obs) : (s.modObs o f).mon = s.mon := rfl
@[simp] theorem State.modObs_drc (o : Nat) (f : Obs → Obs) : (s.modObs o f).drc = s.drc := rfl
@[simp] theorem State.modObs_dma (o : Nat) (f : Obs → Obs) : (s.modObs o f).dma = s.dma := rfl
@[simp] theorem State.modObs_hka (o : Nat) (f : Obs → Obs) : (s.modObs o f).hka = s.hka := rfl
@[simp] theorem State.modObs_bda (o : Nat) (f : Obs → Obs) : (s.modObs o f).bda = s.bda := rfl
@[simp] theorem State.modObs_thm (o : Nat) (f : Obs → Obs) : (s.modObs o f).thm = s.thm := rfl
@[simp] theorem State.modObs_rnd (o : Nat) (f : Obs → Obs) : (s.modObs o f).rnd = s.rnd := rfl
@[simp] theorem State.modRad_pending (f : Rad → Rad) : (s.modRad f).pending = s.pending := rfl
@[simp] theorem State.modRad_fuse (f : Rad → Rad) : (s.modRad f).fuse = s.fuse := rfl
@[simp] theorem State.modRad_pins (f : Rad → Rad) : (s.modRad f).pins = s.pins := rfl
@[simp] theorem State.modRad_time (f : Rad → Rad) : (s.modRad f).time = s.time := rfl
@[simp] theorem State.modRad_regs (f : Rad → Rad) : (s.modRad f).regs = s.regs := rfl
@[simp] theorem State.modRad_aonRegs (f : Rad → Rad) : (s.modRad f).aonRegs = s.aonRegs := rfl
@[simp] theorem State.modRad_glb (f : Rad → Rad) : (s.modRad f).glb = s.glb := rfl
@[simp] theorem State.modRad_nvs (f : Rad → Rad) : (s.modRad f).nvs = s.nvs := rfl
@[simp] theorem State.modRad_pwr (f : Rad → Rad) : (s.modRad f).pwr = s.pwr := rfl
@[simp] theorem State.modRad_pstate (f : Rad → Rad) : (s.modRad f).pstate = s.pstate := rfl
@[simp] theorem State.modRad_wrp (f : Rad → Rad) : (s.modRad f).wrp = s.wrp := rfl
@[simp] theorem State.modRad_paths (f : Rad → Rad) : (s.modRad f).paths = s.paths := rfl
@[simp] theorem State.modRad_syn (f : Rad → Rad) : (s.modRad f).syn = s.syn := rfl
@[simp] theorem State.modRad_skn (f : Rad → Rad) : (s.modRad f).skn = s.skn := rfl
@[simp] theorem State.modRad_fft (f : Rad → Rad) : (s.modRad f).fft = s.fft := rfl
@[simp] theorem State.modRad_dpd (f : Rad → Rad) : (s.modRad f).dpd = s.dpd := rfl
@[simp] theorem State.modRad_rad (f : Rad → Rad) : (s.modRad f).rad = f s.rad := rfl
@[simp] theorem State.modRad_lne (f : Rad → Rad) : (s.modRad f).lne = s.lne := rfl
@[simp] theorem State.modRad_fhp (f : Rad → Rad) : (s.modRad f).fhp = s.fhp := rfl
@[simp] theorem State.modRad_tim (f : Rad → Rad) : (s.modRad f).tim = s.tim := rfl
@[simp] theorem State.modRad_cas (f : Rad → Rad) : (s.modRad f).cas = s.cas := rfl
@[simp] theorem State.modRad_acq (f : Rad → Rad) : (s.modRad f).acq = s.acq := rfl
@[simp] theorem State.modRad_mon (f : Rad → Rad) : (s.modRad f).mon = s.mon := rfl
@[simp] theorem State.modRad_drc (f : Rad → Rad) : (s.modRad f).drc = s.drc := rfl
@[simp] theorem State.modRad_dma (f : Rad → Rad) : (s.modRad f).dma = s.dma := rfl
@[simp] theorem State.modRad_hka (f : Rad → Rad) : (s.modRad f).hka = s.hka := rfl
@[simp] theorem State.modRad_bda (f : Rad → Rad) : (s.modRad f).bda = s.bda := rfl
@[simp] theorem State.modRad_thm (f : Rad → Rad) : (s.modRad f).thm = s.thm := rfl
@[simp] theorem State.modRad_rnd (f : Rad → Rad) : (s.modRad f).rnd = s.rnd := rfl
@[simp] theorem State.modGroup_pending (g : Nat) (f : Group → Group) : (s.modGroup g f).pending = s.pending := rfl
@[simp] theorem State.modGroup_fuse (g : Nat) (f : Group → Group) : (s.modGroup g f).fuse = s.fuse := rfl
@[simp] theorem State.modGroup_pins (g : Nat) (f : Group → Group) : (s.modGroup g f).pins = s.pins := rfl
@[simp] theorem State.modGroup_time (g : Nat) (f : Group → Group) : (s.modGroup g f).time = s.time := rfl
@[simp] theorem State.modGroup_regs (g : Nat) (f : Group → Group) : (s.modGroup g f).regs = s.regs := rfl
@[simp] theorem State.modGroup_aonRegs (g : Nat) (f : Group → Group) : (s.modGroup g f).aonRegs = s.aonRegs := rfl
@[simp] theorem State.modGroup_glb (g : Nat) (f : Group → Group) : (s.modGroup g f).glb = s.glb := rfl
@[simp] theorem State.modGroup_nvs (g : Nat) (f : Group → Group) : (s.modGroup g f).nvs = s.nvs := rfl
@[simp] theorem State.modGroup_pwr (g : Nat) (f : Group → Group) : (s.modGroup g f).pwr = s.pwr := rfl
@[simp] theorem State.modGroup_pstate (g : Nat) (f : Group → Group) : (s.modGroup g f).pstate = s.pstate := rfl
@[simp] theorem State.modGroup_wrp (g : Nat) (f : Group → Group) : (s.modGroup g f).wrp = s.wrp := rfl
@[simp] theorem State.modGroup_paths (g : Nat) (f : Group → Group) : (s.modGroup g f).paths = s.paths := rfl
@[simp] theorem State.modGroup_syn (g : Nat) (f : Group → Group) : (s.modGroup g f).syn = s.syn := rfl
@[simp] theorem State.modGroup_skn (g : Nat) (f : Group → Group) : (s.modGroup g f).skn = s.skn := rfl
@[simp] theorem State.modGroup_fft (g : Nat) (f : Group → Group) : (s.modGroup g f).fft = s.fft := rfl
@[simp] theorem State.modGroup_dpd (g : Nat) (f : Group → Group) : (s.modGroup g f).dpd = s.dpd := rfl
@[simp] theorem State.modGroup_rad (g : Nat) (f : Group → Group) : (s.modGroup g f).rad = { s.rad with groups := vmod s.rad.groups g f } := rfl
@[simp] theorem State.modGroup_lne (g : Nat) (f : Group → Group) : (s.modGroup g f).lne = s.lne := rfl
@[simp] theorem State.modGroup_fhp (g : Nat) (f : Group → Group) : (s.modGroup g f).fhp = s.fhp := rfl
@[simp] theorem State.modGroup_tim (g : Nat) (f : Group → Group) : (s.modGroup g f).tim = s.tim := rfl
@[simp] theorem State.modGroup_cas (g : Nat) (f : Group → Group) : (s.modGroup g f).cas = s.cas := rfl
@[simp] theorem State.modGroup_acq (g : Nat) (f : Group → Group) : (s.modGroup g f).acq = s.acq := rfl
@[simp] theorem State.modGroup_mon (g : Nat) (f : Group → Group) : (s.modGroup g f).mon = s.mon := rfl
@[simp] theorem State.modGroup_drc (g : Nat) (f : Group → Group) : (s.modGroup g f).drc = s.drc := rfl
@[simp] theorem State.modGroup_dma (g : Nat) (f : Group → Group) : (s.modGroup g f).dma = s.dma := rfl
@[simp] theorem State.modGroup_hka (g : Nat) (f : Group → Group) : (s.modGroup g f).hka = s.hka := rfl
@[simp] theorem State.modGroup_bda (g : Nat) (f : Group → Group) : (s.modGroup g f).bda = s.bda := rfl
@[simp] theorem State.modGroup_thm (g : Nat) (f : Group → Group) : (s.modGroup g f).thm = s.thm := rfl
@[simp] theorem State.modGroup_rnd (g : Nat) (f : Group → Group) : (s.modGroup g f).rnd = s.rnd := rfl
@[simp] theorem State.modLne_pending (f : Lne → Lne) : (s.modLne f).pending = s.pending := rfl
@[simp] theorem State.modLne_fuse (f : Lne → Lne) : (s.modLne f).fuse = s.fuse := rfl
@[simp] theorem State.modLne_pins (f : Lne → Lne) : (s.modLne f).pins = s.pins := rfl
@[simp] theorem State.modLne_time (f : Lne → Lne) : (s.modLne f).time = s.time := rfl
@[simp] theorem State.modLne_regs (f : Lne → Lne) : (s.modLne f).regs = s.regs := rfl
@[simp] theorem State.modLne_aonRegs (f : Lne → Lne) : (s.modLne f).aonRegs = s.aonRegs := rfl
@[simp] theorem State.modLne_glb (f : Lne → Lne) : (s.modLne f).glb = s.glb := rfl
@[simp] theorem State.modLne_nvs (f : Lne → Lne) : (s.modLne f).nvs = s.nvs := rfl
@[simp] theorem State.modLne_pwr (f : Lne → Lne) : (s.modLne f).pwr = s.pwr := rfl
@[simp] theorem State.modLne_pstate (f : Lne → Lne) : (s.modLne f).pstate = s.pstate := rfl
@[simp] theorem State.modLne_wrp (f : Lne → Lne) : (s.modLne f).wrp = s.wrp := rfl
@[simp] theorem State.modLne_paths (f : Lne → Lne) : (s.modLne f).paths = s.paths := rfl
@[simp] theorem State.modLne_syn (f : Lne → Lne) : (s.modLne f).syn = s.syn := rfl
@[simp] theorem State.modLne_skn (f : Lne → Lne) : (s.modLne f).skn = s.skn := rfl
@[simp] theorem State.modLne_fft (f : Lne → Lne) : (s.modLne f).fft = s.fft := rfl
@[simp] theorem State.modLne_dpd (f : Lne → Lne) : (s.modLne f).dpd = s.dpd := rfl
@[simp] theorem State.modLne_rad (f : Lne → Lne) : (s.modLne f).rad = s.rad := rfl
@[simp] theorem State.modLne_lne (f : Lne → Lne) : (s.modLne f).lne = f s.lne := rfl
@[simp] theorem State.modLne_fhp (f : Lne → Lne) : (s.modLne f).fhp = s.fhp := rfl
@[simp] theorem State.modLne_tim (f : Lne → Lne) : (s.modLne f).tim = s.tim := rfl
@[simp] theorem State.modLne_cas (f : Lne → Lne) : (s.modLne f).cas = s.cas := rfl
@[simp] theorem State.modLne_acq (f : Lne → Lne) : (s.modLne f).acq = s.acq := rfl
@[simp] theorem State.modLne_mon (f : Lne → Lne) : (s.modLne f).mon = s.mon := rfl
@[simp] theorem State.modLne_drc (f : Lne → Lne) : (s.modLne f).drc = s.drc := rfl
@[simp] theorem State.modLne_dma (f : Lne → Lne) : (s.modLne f).dma = s.dma := rfl
@[simp] theorem State.modLne_hka (f : Lne → Lne) : (s.modLne f).hka = s.hka := rfl
@[simp] theorem State.modLne_bda (f : Lne → Lne) : (s.modLne f).bda = s.bda := rfl
@[simp] theorem State.modLne_thm (f : Lne → Lne) : (s.modLne f).thm = s.thm := rfl
@[simp] theorem State.modLne_rnd (f : Lne → Lne) : (s.modLne f).rnd = s.rnd := rfl
@[simp] theorem State.modLane_pending (n : Nat) (f : Lane → Lane) : (s.modLane n f).pending = s.pending := rfl
@[simp] theorem State.modLane_fuse (n : Nat) (f : Lane → Lane) : (s.modLane n f).fuse = s.fuse := rfl
@[simp] theorem State.modLane_pins (n : Nat) (f : Lane → Lane) : (s.modLane n f).pins = s.pins := rfl
@[simp] theorem State.modLane_time (n : Nat) (f : Lane → Lane) : (s.modLane n f).time = s.time := rfl
@[simp] theorem State.modLane_regs (n : Nat) (f : Lane → Lane) : (s.modLane n f).regs = s.regs := rfl
@[simp] theorem State.modLane_aonRegs (n : Nat) (f : Lane → Lane) : (s.modLane n f).aonRegs = s.aonRegs := rfl
@[simp] theorem State.modLane_glb (n : Nat) (f : Lane → Lane) : (s.modLane n f).glb = s.glb := rfl
@[simp] theorem State.modLane_nvs (n : Nat) (f : Lane → Lane) : (s.modLane n f).nvs = s.nvs := rfl
@[simp] theorem State.modLane_pwr (n : Nat) (f : Lane → Lane) : (s.modLane n f).pwr = s.pwr := rfl
@[simp] theorem State.modLane_pstate (n : Nat) (f : Lane → Lane) : (s.modLane n f).pstate = s.pstate := rfl
@[simp] theorem State.modLane_wrp (n : Nat) (f : Lane → Lane) : (s.modLane n f).wrp = s.wrp := rfl
@[simp] theorem State.modLane_paths (n : Nat) (f : Lane → Lane) : (s.modLane n f).paths = s.paths := rfl
@[simp] theorem State.modLane_syn (n : Nat) (f : Lane → Lane) : (s.modLane n f).syn = s.syn := rfl
@[simp] theorem State.modLane_skn (n : Nat) (f : Lane → Lane) : (s.modLane n f).skn = s.skn := rfl
@[simp] theorem State.modLane_fft (n : Nat) (f : Lane → Lane) : (s.modLane n f).fft = s.fft := rfl
@[simp] theorem State.modLane_dpd (n : Nat) (f : Lane → Lane) : (s.modLane n f).dpd = s.dpd := rfl
@[simp] theorem State.modLane_rad (n : Nat) (f : Lane → Lane) : (s.modLane n f).rad = s.rad := rfl
@[simp] theorem State.modLane_lne (n : Nat) (f : Lane → Lane) : (s.modLane n f).lne = { s.lne with lanes := vmod s.lne.lanes n f } := rfl
@[simp] theorem State.modLane_fhp (n : Nat) (f : Lane → Lane) : (s.modLane n f).fhp = s.fhp := rfl
@[simp] theorem State.modLane_tim (n : Nat) (f : Lane → Lane) : (s.modLane n f).tim = s.tim := rfl
@[simp] theorem State.modLane_cas (n : Nat) (f : Lane → Lane) : (s.modLane n f).cas = s.cas := rfl
@[simp] theorem State.modLane_acq (n : Nat) (f : Lane → Lane) : (s.modLane n f).acq = s.acq := rfl
@[simp] theorem State.modLane_mon (n : Nat) (f : Lane → Lane) : (s.modLane n f).mon = s.mon := rfl
@[simp] theorem State.modLane_drc (n : Nat) (f : Lane → Lane) : (s.modLane n f).drc = s.drc := rfl
@[simp] theorem State.modLane_dma (n : Nat) (f : Lane → Lane) : (s.modLane n f).dma = s.dma := rfl
@[simp] theorem State.modLane_hka (n : Nat) (f : Lane → Lane) : (s.modLane n f).hka = s.hka := rfl
@[simp] theorem State.modLane_bda (n : Nat) (f : Lane → Lane) : (s.modLane n f).bda = s.bda := rfl
@[simp] theorem State.modLane_thm (n : Nat) (f : Lane → Lane) : (s.modLane n f).thm = s.thm := rfl
@[simp] theorem State.modLane_rnd (n : Nat) (f : Lane → Lane) : (s.modLane n f).rnd = s.rnd := rfl
@[simp] theorem State.modPort_pending (q : Nat) (f : Port → Port) : (s.modPort q f).pending = s.pending := rfl
@[simp] theorem State.modPort_fuse (q : Nat) (f : Port → Port) : (s.modPort q f).fuse = s.fuse := rfl
@[simp] theorem State.modPort_pins (q : Nat) (f : Port → Port) : (s.modPort q f).pins = s.pins := rfl
@[simp] theorem State.modPort_time (q : Nat) (f : Port → Port) : (s.modPort q f).time = s.time := rfl
@[simp] theorem State.modPort_regs (q : Nat) (f : Port → Port) : (s.modPort q f).regs = s.regs := rfl
@[simp] theorem State.modPort_aonRegs (q : Nat) (f : Port → Port) : (s.modPort q f).aonRegs = s.aonRegs := rfl
@[simp] theorem State.modPort_glb (q : Nat) (f : Port → Port) : (s.modPort q f).glb = s.glb := rfl
@[simp] theorem State.modPort_nvs (q : Nat) (f : Port → Port) : (s.modPort q f).nvs = s.nvs := rfl
@[simp] theorem State.modPort_pwr (q : Nat) (f : Port → Port) : (s.modPort q f).pwr = s.pwr := rfl
@[simp] theorem State.modPort_pstate (q : Nat) (f : Port → Port) : (s.modPort q f).pstate = s.pstate := rfl
@[simp] theorem State.modPort_wrp (q : Nat) (f : Port → Port) : (s.modPort q f).wrp = s.wrp := rfl
@[simp] theorem State.modPort_paths (q : Nat) (f : Port → Port) : (s.modPort q f).paths = s.paths := rfl
@[simp] theorem State.modPort_syn (q : Nat) (f : Port → Port) : (s.modPort q f).syn = s.syn := rfl
@[simp] theorem State.modPort_skn (q : Nat) (f : Port → Port) : (s.modPort q f).skn = s.skn := rfl
@[simp] theorem State.modPort_fft (q : Nat) (f : Port → Port) : (s.modPort q f).fft = s.fft := rfl
@[simp] theorem State.modPort_dpd (q : Nat) (f : Port → Port) : (s.modPort q f).dpd = s.dpd := rfl
@[simp] theorem State.modPort_rad (q : Nat) (f : Port → Port) : (s.modPort q f).rad = s.rad := rfl
@[simp] theorem State.modPort_lne (q : Nat) (f : Port → Port) : (s.modPort q f).lne = { s.lne with ports := vmod s.lne.ports q f } := rfl
@[simp] theorem State.modPort_fhp (q : Nat) (f : Port → Port) : (s.modPort q f).fhp = s.fhp := rfl
@[simp] theorem State.modPort_tim (q : Nat) (f : Port → Port) : (s.modPort q f).tim = s.tim := rfl
@[simp] theorem State.modPort_cas (q : Nat) (f : Port → Port) : (s.modPort q f).cas = s.cas := rfl
@[simp] theorem State.modPort_acq (q : Nat) (f : Port → Port) : (s.modPort q f).acq = s.acq := rfl
@[simp] theorem State.modPort_mon (q : Nat) (f : Port → Port) : (s.modPort q f).mon = s.mon := rfl
@[simp] theorem State.modPort_drc (q : Nat) (f : Port → Port) : (s.modPort q f).drc = s.drc := rfl
@[simp] theorem State.modPort_dma (q : Nat) (f : Port → Port) : (s.modPort q f).dma = s.dma := rfl
@[simp] theorem State.modPort_hka (q : Nat) (f : Port → Port) : (s.modPort q f).hka = s.hka := rfl
@[simp] theorem State.modPort_bda (q : Nat) (f : Port → Port) : (s.modPort q f).bda = s.bda := rfl
@[simp] theorem State.modPort_thm (q : Nat) (f : Port → Port) : (s.modPort q f).thm = s.thm := rfl
@[simp] theorem State.modPort_rnd (q : Nat) (f : Port → Port) : (s.modPort q f).rnd = s.rnd := rfl
@[simp] theorem State.modFhp_pending (f : Fhp → Fhp) : (s.modFhp f).pending = s.pending := rfl
@[simp] theorem State.modFhp_fuse (f : Fhp → Fhp) : (s.modFhp f).fuse = s.fuse := rfl
@[simp] theorem State.modFhp_pins (f : Fhp → Fhp) : (s.modFhp f).pins = s.pins := rfl
@[simp] theorem State.modFhp_time (f : Fhp → Fhp) : (s.modFhp f).time = s.time := rfl
@[simp] theorem State.modFhp_regs (f : Fhp → Fhp) : (s.modFhp f).regs = s.regs := rfl
@[simp] theorem State.modFhp_aonRegs (f : Fhp → Fhp) : (s.modFhp f).aonRegs = s.aonRegs := rfl
@[simp] theorem State.modFhp_glb (f : Fhp → Fhp) : (s.modFhp f).glb = s.glb := rfl
@[simp] theorem State.modFhp_nvs (f : Fhp → Fhp) : (s.modFhp f).nvs = s.nvs := rfl
@[simp] theorem State.modFhp_pwr (f : Fhp → Fhp) : (s.modFhp f).pwr = s.pwr := rfl
@[simp] theorem State.modFhp_pstate (f : Fhp → Fhp) : (s.modFhp f).pstate = s.pstate := rfl
@[simp] theorem State.modFhp_wrp (f : Fhp → Fhp) : (s.modFhp f).wrp = s.wrp := rfl
@[simp] theorem State.modFhp_paths (f : Fhp → Fhp) : (s.modFhp f).paths = s.paths := rfl
@[simp] theorem State.modFhp_syn (f : Fhp → Fhp) : (s.modFhp f).syn = s.syn := rfl
@[simp] theorem State.modFhp_skn (f : Fhp → Fhp) : (s.modFhp f).skn = s.skn := rfl
@[simp] theorem State.modFhp_fft (f : Fhp → Fhp) : (s.modFhp f).fft = s.fft := rfl
@[simp] theorem State.modFhp_dpd (f : Fhp → Fhp) : (s.modFhp f).dpd = s.dpd := rfl
@[simp] theorem State.modFhp_rad (f : Fhp → Fhp) : (s.modFhp f).rad = s.rad := rfl
@[simp] theorem State.modFhp_lne (f : Fhp → Fhp) : (s.modFhp f).lne = s.lne := rfl
@[simp] theorem State.modFhp_fhp (f : Fhp → Fhp) : (s.modFhp f).fhp = f s.fhp := rfl
@[simp] theorem State.modFhp_tim (f : Fhp → Fhp) : (s.modFhp f).tim = s.tim := rfl
@[simp] theorem State.modFhp_cas (f : Fhp → Fhp) : (s.modFhp f).cas = s.cas := rfl
@[simp] theorem State.modFhp_acq (f : Fhp → Fhp) : (s.modFhp f).acq = s.acq := rfl
@[simp] theorem State.modFhp_mon (f : Fhp → Fhp) : (s.modFhp f).mon = s.mon := rfl
@[simp] theorem State.modFhp_drc (f : Fhp → Fhp) : (s.modFhp f).drc = s.drc := rfl
@[simp] theorem State.modFhp_dma (f : Fhp → Fhp) : (s.modFhp f).dma = s.dma := rfl
@[simp] theorem State.modFhp_hka (f : Fhp → Fhp) : (s.modFhp f).hka = s.hka := rfl
@[simp] theorem State.modFhp_bda (f : Fhp → Fhp) : (s.modFhp f).bda = s.bda := rfl
@[simp] theorem State.modFhp_thm (f : Fhp → Fhp) : (s.modFhp f).thm = s.thm := rfl
@[simp] theorem State.modFhp_rnd (f : Fhp → Fhp) : (s.modFhp f).rnd = s.rnd := rfl
@[simp] theorem State.modFlock_pending (k : Nat) (f : FlockSt → FlockSt) : (s.modFlock k f).pending = s.pending := rfl
@[simp] theorem State.modFlock_fuse (k : Nat) (f : FlockSt → FlockSt) : (s.modFlock k f).fuse = s.fuse := rfl
@[simp] theorem State.modFlock_pins (k : Nat) (f : FlockSt → FlockSt) : (s.modFlock k f).pins = s.pins := rfl
@[simp] theorem State.modFlock_time (k : Nat) (f : FlockSt → FlockSt) : (s.modFlock k f).time = s.time := rfl
@[simp] theorem State.modFlock_regs (k : Nat) (f : FlockSt → FlockSt) : (s.modFlock k f).regs = s.regs := rfl
@[simp] theorem State.modFlock_aonRegs (k : Nat) (f : FlockSt → FlockSt) : (s.modFlock k f).aonRegs = s.aonRegs := rfl
@[simp] theorem State.modFlock_glb (k : Nat) (f : FlockSt → FlockSt) : (s.modFlock k f).glb = s.glb := rfl
@[simp] theorem State.modFlock_nvs (k : Nat) (f : FlockSt → FlockSt) : (s.modFlock k f).nvs = s.nvs := rfl
@[simp] theorem State.modFlock_pwr (k : Nat) (f : FlockSt → FlockSt) : (s.modFlock k f).pwr = s.pwr := rfl
@[simp] theorem State.modFlock_pstate (k : Nat) (f : FlockSt → FlockSt) : (s.modFlock k f).pstate = s.pstate := rfl
@[simp] theorem State.modFlock_wrp (k : Nat) (f : FlockSt → FlockSt) : (s.modFlock k f).wrp = s.wrp := rfl
@[simp] theorem State.modFlock_paths (k : Nat) (f : FlockSt → FlockSt) : (s.modFlock k f).paths = s.paths := rfl
@[simp] theorem State.modFlock_syn (k : Nat) (f : FlockSt → FlockSt) : (s.modFlock k f).syn = s.syn := rfl
@[simp] theorem State.modFlock_skn (k : Nat) (f : FlockSt → FlockSt) : (s.modFlock k f).skn = s.skn := rfl
@[simp] theorem State.modFlock_fft (k : Nat) (f : FlockSt → FlockSt) : (s.modFlock k f).fft = s.fft := rfl
@[simp] theorem State.modFlock_dpd (k : Nat) (f : FlockSt → FlockSt) : (s.modFlock k f).dpd = s.dpd := rfl
@[simp] theorem State.modFlock_rad (k : Nat) (f : FlockSt → FlockSt) : (s.modFlock k f).rad = s.rad := rfl
@[simp] theorem State.modFlock_lne (k : Nat) (f : FlockSt → FlockSt) : (s.modFlock k f).lne = s.lne := rfl
@[simp] theorem State.modFlock_fhp (k : Nat) (f : FlockSt → FlockSt) : (s.modFlock k f).fhp = { s.fhp with flocks := vmod s.fhp.flocks k f } := rfl
@[simp] theorem State.modFlock_tim (k : Nat) (f : FlockSt → FlockSt) : (s.modFlock k f).tim = s.tim := rfl
@[simp] theorem State.modFlock_cas (k : Nat) (f : FlockSt → FlockSt) : (s.modFlock k f).cas = s.cas := rfl
@[simp] theorem State.modFlock_acq (k : Nat) (f : FlockSt → FlockSt) : (s.modFlock k f).acq = s.acq := rfl
@[simp] theorem State.modFlock_mon (k : Nat) (f : FlockSt → FlockSt) : (s.modFlock k f).mon = s.mon := rfl
@[simp] theorem State.modFlock_drc (k : Nat) (f : FlockSt → FlockSt) : (s.modFlock k f).drc = s.drc := rfl
@[simp] theorem State.modFlock_dma (k : Nat) (f : FlockSt → FlockSt) : (s.modFlock k f).dma = s.dma := rfl
@[simp] theorem State.modFlock_hka (k : Nat) (f : FlockSt → FlockSt) : (s.modFlock k f).hka = s.hka := rfl
@[simp] theorem State.modFlock_bda (k : Nat) (f : FlockSt → FlockSt) : (s.modFlock k f).bda = s.bda := rfl
@[simp] theorem State.modFlock_thm (k : Nat) (f : FlockSt → FlockSt) : (s.modFlock k f).thm = s.thm := rfl
@[simp] theorem State.modFlock_rnd (k : Nat) (f : FlockSt → FlockSt) : (s.modFlock k f).rnd = s.rnd := rfl
@[simp] theorem State.modTim_pending (f : Tim → Tim) : (s.modTim f).pending = s.pending := rfl
@[simp] theorem State.modTim_fuse (f : Tim → Tim) : (s.modTim f).fuse = s.fuse := rfl
@[simp] theorem State.modTim_pins (f : Tim → Tim) : (s.modTim f).pins = s.pins := rfl
@[simp] theorem State.modTim_time (f : Tim → Tim) : (s.modTim f).time = s.time := rfl
@[simp] theorem State.modTim_regs (f : Tim → Tim) : (s.modTim f).regs = s.regs := rfl
@[simp] theorem State.modTim_aonRegs (f : Tim → Tim) : (s.modTim f).aonRegs = s.aonRegs := rfl
@[simp] theorem State.modTim_glb (f : Tim → Tim) : (s.modTim f).glb = s.glb := rfl
@[simp] theorem State.modTim_nvs (f : Tim → Tim) : (s.modTim f).nvs = s.nvs := rfl
@[simp] theorem State.modTim_pwr (f : Tim → Tim) : (s.modTim f).pwr = s.pwr := rfl
@[simp] theorem State.modTim_pstate (f : Tim → Tim) : (s.modTim f).pstate = s.pstate := rfl
@[simp] theorem State.modTim_wrp (f : Tim → Tim) : (s.modTim f).wrp = s.wrp := rfl
@[simp] theorem State.modTim_paths (f : Tim → Tim) : (s.modTim f).paths = s.paths := rfl
@[simp] theorem State.modTim_syn (f : Tim → Tim) : (s.modTim f).syn = s.syn := rfl
@[simp] theorem State.modTim_skn (f : Tim → Tim) : (s.modTim f).skn = s.skn := rfl
@[simp] theorem State.modTim_fft (f : Tim → Tim) : (s.modTim f).fft = s.fft := rfl
@[simp] theorem State.modTim_dpd (f : Tim → Tim) : (s.modTim f).dpd = s.dpd := rfl
@[simp] theorem State.modTim_rad (f : Tim → Tim) : (s.modTim f).rad = s.rad := rfl
@[simp] theorem State.modTim_lne (f : Tim → Tim) : (s.modTim f).lne = s.lne := rfl
@[simp] theorem State.modTim_fhp (f : Tim → Tim) : (s.modTim f).fhp = s.fhp := rfl
@[simp] theorem State.modTim_tim (f : Tim → Tim) : (s.modTim f).tim = f s.tim := rfl
@[simp] theorem State.modTim_cas (f : Tim → Tim) : (s.modTim f).cas = s.cas := rfl
@[simp] theorem State.modTim_acq (f : Tim → Tim) : (s.modTim f).acq = s.acq := rfl
@[simp] theorem State.modTim_mon (f : Tim → Tim) : (s.modTim f).mon = s.mon := rfl
@[simp] theorem State.modTim_drc (f : Tim → Tim) : (s.modTim f).drc = s.drc := rfl
@[simp] theorem State.modTim_dma (f : Tim → Tim) : (s.modTim f).dma = s.dma := rfl
@[simp] theorem State.modTim_hka (f : Tim → Tim) : (s.modTim f).hka = s.hka := rfl
@[simp] theorem State.modTim_bda (f : Tim → Tim) : (s.modTim f).bda = s.bda := rfl
@[simp] theorem State.modTim_thm (f : Tim → Tim) : (s.modTim f).thm = s.thm := rfl
@[simp] theorem State.modTim_rnd (f : Tim → Tim) : (s.modTim f).rnd = s.rnd := rfl
@[simp] theorem State.modCas_pending (f : Cas → Cas) : (s.modCas f).pending = s.pending := rfl
@[simp] theorem State.modCas_fuse (f : Cas → Cas) : (s.modCas f).fuse = s.fuse := rfl
@[simp] theorem State.modCas_pins (f : Cas → Cas) : (s.modCas f).pins = s.pins := rfl
@[simp] theorem State.modCas_time (f : Cas → Cas) : (s.modCas f).time = s.time := rfl
@[simp] theorem State.modCas_regs (f : Cas → Cas) : (s.modCas f).regs = s.regs := rfl
@[simp] theorem State.modCas_aonRegs (f : Cas → Cas) : (s.modCas f).aonRegs = s.aonRegs := rfl
@[simp] theorem State.modCas_glb (f : Cas → Cas) : (s.modCas f).glb = s.glb := rfl
@[simp] theorem State.modCas_nvs (f : Cas → Cas) : (s.modCas f).nvs = s.nvs := rfl
@[simp] theorem State.modCas_pwr (f : Cas → Cas) : (s.modCas f).pwr = s.pwr := rfl
@[simp] theorem State.modCas_pstate (f : Cas → Cas) : (s.modCas f).pstate = s.pstate := rfl
@[simp] theorem State.modCas_wrp (f : Cas → Cas) : (s.modCas f).wrp = s.wrp := rfl
@[simp] theorem State.modCas_paths (f : Cas → Cas) : (s.modCas f).paths = s.paths := rfl
@[simp] theorem State.modCas_syn (f : Cas → Cas) : (s.modCas f).syn = s.syn := rfl
@[simp] theorem State.modCas_skn (f : Cas → Cas) : (s.modCas f).skn = s.skn := rfl
@[simp] theorem State.modCas_fft (f : Cas → Cas) : (s.modCas f).fft = s.fft := rfl
@[simp] theorem State.modCas_dpd (f : Cas → Cas) : (s.modCas f).dpd = s.dpd := rfl
@[simp] theorem State.modCas_rad (f : Cas → Cas) : (s.modCas f).rad = s.rad := rfl
@[simp] theorem State.modCas_lne (f : Cas → Cas) : (s.modCas f).lne = s.lne := rfl
@[simp] theorem State.modCas_fhp (f : Cas → Cas) : (s.modCas f).fhp = s.fhp := rfl
@[simp] theorem State.modCas_tim (f : Cas → Cas) : (s.modCas f).tim = s.tim := rfl
@[simp] theorem State.modCas_cas (f : Cas → Cas) : (s.modCas f).cas = f s.cas := rfl
@[simp] theorem State.modCas_acq (f : Cas → Cas) : (s.modCas f).acq = s.acq := rfl
@[simp] theorem State.modCas_mon (f : Cas → Cas) : (s.modCas f).mon = s.mon := rfl
@[simp] theorem State.modCas_drc (f : Cas → Cas) : (s.modCas f).drc = s.drc := rfl
@[simp] theorem State.modCas_dma (f : Cas → Cas) : (s.modCas f).dma = s.dma := rfl
@[simp] theorem State.modCas_hka (f : Cas → Cas) : (s.modCas f).hka = s.hka := rfl
@[simp] theorem State.modCas_bda (f : Cas → Cas) : (s.modCas f).bda = s.bda := rfl
@[simp] theorem State.modCas_thm (f : Cas → Cas) : (s.modCas f).thm = s.thm := rfl
@[simp] theorem State.modCas_rnd (f : Cas → Cas) : (s.modCas f).rnd = s.rnd := rfl
@[simp] theorem State.modNbr_pending (n : Nat) (f : Nbr → Nbr) : (s.modNbr n f).pending = s.pending := rfl
@[simp] theorem State.modNbr_fuse (n : Nat) (f : Nbr → Nbr) : (s.modNbr n f).fuse = s.fuse := rfl
@[simp] theorem State.modNbr_pins (n : Nat) (f : Nbr → Nbr) : (s.modNbr n f).pins = s.pins := rfl
@[simp] theorem State.modNbr_time (n : Nat) (f : Nbr → Nbr) : (s.modNbr n f).time = s.time := rfl
@[simp] theorem State.modNbr_regs (n : Nat) (f : Nbr → Nbr) : (s.modNbr n f).regs = s.regs := rfl
@[simp] theorem State.modNbr_aonRegs (n : Nat) (f : Nbr → Nbr) : (s.modNbr n f).aonRegs = s.aonRegs := rfl
@[simp] theorem State.modNbr_glb (n : Nat) (f : Nbr → Nbr) : (s.modNbr n f).glb = s.glb := rfl
@[simp] theorem State.modNbr_nvs (n : Nat) (f : Nbr → Nbr) : (s.modNbr n f).nvs = s.nvs := rfl
@[simp] theorem State.modNbr_pwr (n : Nat) (f : Nbr → Nbr) : (s.modNbr n f).pwr = s.pwr := rfl
@[simp] theorem State.modNbr_pstate (n : Nat) (f : Nbr → Nbr) : (s.modNbr n f).pstate = s.pstate := rfl
@[simp] theorem State.modNbr_wrp (n : Nat) (f : Nbr → Nbr) : (s.modNbr n f).wrp = s.wrp := rfl
@[simp] theorem State.modNbr_paths (n : Nat) (f : Nbr → Nbr) : (s.modNbr n f).paths = s.paths := rfl
@[simp] theorem State.modNbr_syn (n : Nat) (f : Nbr → Nbr) : (s.modNbr n f).syn = s.syn := rfl
@[simp] theorem State.modNbr_skn (n : Nat) (f : Nbr → Nbr) : (s.modNbr n f).skn = s.skn := rfl
@[simp] theorem State.modNbr_fft (n : Nat) (f : Nbr → Nbr) : (s.modNbr n f).fft = s.fft := rfl
@[simp] theorem State.modNbr_dpd (n : Nat) (f : Nbr → Nbr) : (s.modNbr n f).dpd = s.dpd := rfl
@[simp] theorem State.modNbr_rad (n : Nat) (f : Nbr → Nbr) : (s.modNbr n f).rad = s.rad := rfl
@[simp] theorem State.modNbr_lne (n : Nat) (f : Nbr → Nbr) : (s.modNbr n f).lne = s.lne := rfl
@[simp] theorem State.modNbr_fhp (n : Nat) (f : Nbr → Nbr) : (s.modNbr n f).fhp = s.fhp := rfl
@[simp] theorem State.modNbr_tim (n : Nat) (f : Nbr → Nbr) : (s.modNbr n f).tim = s.tim := rfl
@[simp] theorem State.modNbr_cas (n : Nat) (f : Nbr → Nbr) : (s.modNbr n f).cas = { s.cas with nbrs := vmod s.cas.nbrs n f } := rfl
@[simp] theorem State.modNbr_acq (n : Nat) (f : Nbr → Nbr) : (s.modNbr n f).acq = s.acq := rfl
@[simp] theorem State.modNbr_mon (n : Nat) (f : Nbr → Nbr) : (s.modNbr n f).mon = s.mon := rfl
@[simp] theorem State.modNbr_drc (n : Nat) (f : Nbr → Nbr) : (s.modNbr n f).drc = s.drc := rfl
@[simp] theorem State.modNbr_dma (n : Nat) (f : Nbr → Nbr) : (s.modNbr n f).dma = s.dma := rfl
@[simp] theorem State.modNbr_hka (n : Nat) (f : Nbr → Nbr) : (s.modNbr n f).hka = s.hka := rfl
@[simp] theorem State.modNbr_bda (n : Nat) (f : Nbr → Nbr) : (s.modNbr n f).bda = s.bda := rfl
@[simp] theorem State.modNbr_thm (n : Nat) (f : Nbr → Nbr) : (s.modNbr n f).thm = s.thm := rfl
@[simp] theorem State.modNbr_rnd (n : Nat) (f : Nbr → Nbr) : (s.modNbr n f).rnd = s.rnd := rfl
@[simp] theorem State.modAcq_pending (f : Acq → Acq) : (s.modAcq f).pending = s.pending := rfl
@[simp] theorem State.modAcq_fuse (f : Acq → Acq) : (s.modAcq f).fuse = s.fuse := rfl
@[simp] theorem State.modAcq_pins (f : Acq → Acq) : (s.modAcq f).pins = s.pins := rfl
@[simp] theorem State.modAcq_time (f : Acq → Acq) : (s.modAcq f).time = s.time := rfl
@[simp] theorem State.modAcq_regs (f : Acq → Acq) : (s.modAcq f).regs = s.regs := rfl
@[simp] theorem State.modAcq_aonRegs (f : Acq → Acq) : (s.modAcq f).aonRegs = s.aonRegs := rfl
@[simp] theorem State.modAcq_glb (f : Acq → Acq) : (s.modAcq f).glb = s.glb := rfl
@[simp] theorem State.modAcq_nvs (f : Acq → Acq) : (s.modAcq f).nvs = s.nvs := rfl
@[simp] theorem State.modAcq_pwr (f : Acq → Acq) : (s.modAcq f).pwr = s.pwr := rfl
@[simp] theorem State.modAcq_pstate (f : Acq → Acq) : (s.modAcq f).pstate = s.pstate := rfl
@[simp] theorem State.modAcq_wrp (f : Acq → Acq) : (s.modAcq f).wrp = s.wrp := rfl
@[simp] theorem State.modAcq_paths (f : Acq → Acq) : (s.modAcq f).paths = s.paths := rfl
@[simp] theorem State.modAcq_syn (f : Acq → Acq) : (s.modAcq f).syn = s.syn := rfl
@[simp] theorem State.modAcq_skn (f : Acq → Acq) : (s.modAcq f).skn = s.skn := rfl
@[simp] theorem State.modAcq_fft (f : Acq → Acq) : (s.modAcq f).fft = s.fft := rfl
@[simp] theorem State.modAcq_dpd (f : Acq → Acq) : (s.modAcq f).dpd = s.dpd := rfl
@[simp] theorem State.modAcq_rad (f : Acq → Acq) : (s.modAcq f).rad = s.rad := rfl
@[simp] theorem State.modAcq_lne (f : Acq → Acq) : (s.modAcq f).lne = s.lne := rfl
@[simp] theorem State.modAcq_fhp (f : Acq → Acq) : (s.modAcq f).fhp = s.fhp := rfl
@[simp] theorem State.modAcq_tim (f : Acq → Acq) : (s.modAcq f).tim = s.tim := rfl
@[simp] theorem State.modAcq_cas (f : Acq → Acq) : (s.modAcq f).cas = s.cas := rfl
@[simp] theorem State.modAcq_acq (f : Acq → Acq) : (s.modAcq f).acq = f s.acq := rfl
@[simp] theorem State.modAcq_mon (f : Acq → Acq) : (s.modAcq f).mon = s.mon := rfl
@[simp] theorem State.modAcq_drc (f : Acq → Acq) : (s.modAcq f).drc = s.drc := rfl
@[simp] theorem State.modAcq_dma (f : Acq → Acq) : (s.modAcq f).dma = s.dma := rfl
@[simp] theorem State.modAcq_hka (f : Acq → Acq) : (s.modAcq f).hka = s.hka := rfl
@[simp] theorem State.modAcq_bda (f : Acq → Acq) : (s.modAcq f).bda = s.bda := rfl
@[simp] theorem State.modAcq_thm (f : Acq → Acq) : (s.modAcq f).thm = s.thm := rfl
@[simp] theorem State.modAcq_rnd (f : Acq → Acq) : (s.modAcq f).rnd = s.rnd := rfl
@[simp] theorem State.modStream_pending (n : Nat) (f : Stream → Stream) : (s.modStream n f).pending = s.pending := rfl
@[simp] theorem State.modStream_fuse (n : Nat) (f : Stream → Stream) : (s.modStream n f).fuse = s.fuse := rfl
@[simp] theorem State.modStream_pins (n : Nat) (f : Stream → Stream) : (s.modStream n f).pins = s.pins := rfl
@[simp] theorem State.modStream_time (n : Nat) (f : Stream → Stream) : (s.modStream n f).time = s.time := rfl
@[simp] theorem State.modStream_regs (n : Nat) (f : Stream → Stream) : (s.modStream n f).regs = s.regs := rfl
@[simp] theorem State.modStream_aonRegs (n : Nat) (f : Stream → Stream) : (s.modStream n f).aonRegs = s.aonRegs := rfl
@[simp] theorem State.modStream_glb (n : Nat) (f : Stream → Stream) : (s.modStream n f).glb = s.glb := rfl
@[simp] theorem State.modStream_nvs (n : Nat) (f : Stream → Stream) : (s.modStream n f).nvs = s.nvs := rfl
@[simp] theorem State.modStream_pwr (n : Nat) (f : Stream → Stream) : (s.modStream n f).pwr = s.pwr := rfl
@[simp] theorem State.modStream_pstate (n : Nat) (f : Stream → Stream) : (s.modStream n f).pstate = s.pstate := rfl
@[simp] theorem State.modStream_wrp (n : Nat) (f : Stream → Stream) : (s.modStream n f).wrp = s.wrp := rfl
@[simp] theorem State.modStream_paths (n : Nat) (f : Stream → Stream) : (s.modStream n f).paths = s.paths := rfl
@[simp] theorem State.modStream_syn (n : Nat) (f : Stream → Stream) : (s.modStream n f).syn = s.syn := rfl
@[simp] theorem State.modStream_skn (n : Nat) (f : Stream → Stream) : (s.modStream n f).skn = s.skn := rfl
@[simp] theorem State.modStream_fft (n : Nat) (f : Stream → Stream) : (s.modStream n f).fft = s.fft := rfl
@[simp] theorem State.modStream_dpd (n : Nat) (f : Stream → Stream) : (s.modStream n f).dpd = s.dpd := rfl
@[simp] theorem State.modStream_rad (n : Nat) (f : Stream → Stream) : (s.modStream n f).rad = s.rad := rfl
@[simp] theorem State.modStream_lne (n : Nat) (f : Stream → Stream) : (s.modStream n f).lne = s.lne := rfl
@[simp] theorem State.modStream_fhp (n : Nat) (f : Stream → Stream) : (s.modStream n f).fhp = s.fhp := rfl
@[simp] theorem State.modStream_tim (n : Nat) (f : Stream → Stream) : (s.modStream n f).tim = s.tim := rfl
@[simp] theorem State.modStream_cas (n : Nat) (f : Stream → Stream) : (s.modStream n f).cas = s.cas := rfl
@[simp] theorem State.modStream_acq (n : Nat) (f : Stream → Stream) : (s.modStream n f).acq = { s.acq with streams := vmod s.acq.streams n f } := rfl
@[simp] theorem State.modStream_mon (n : Nat) (f : Stream → Stream) : (s.modStream n f).mon = s.mon := rfl
@[simp] theorem State.modStream_drc (n : Nat) (f : Stream → Stream) : (s.modStream n f).drc = s.drc := rfl
@[simp] theorem State.modStream_dma (n : Nat) (f : Stream → Stream) : (s.modStream n f).dma = s.dma := rfl
@[simp] theorem State.modStream_hka (n : Nat) (f : Stream → Stream) : (s.modStream n f).hka = s.hka := rfl
@[simp] theorem State.modStream_bda (n : Nat) (f : Stream → Stream) : (s.modStream n f).bda = s.bda := rfl
@[simp] theorem State.modStream_thm (n : Nat) (f : Stream → Stream) : (s.modStream n f).thm = s.thm := rfl
@[simp] theorem State.modStream_rnd (n : Nat) (f : Stream → Stream) : (s.modStream n f).rnd = s.rnd := rfl
@[simp] theorem State.modMon_pending (n : Nat) (f : MonChain → MonChain) : (s.modMon n f).pending = s.pending := rfl
@[simp] theorem State.modMon_fuse (n : Nat) (f : MonChain → MonChain) : (s.modMon n f).fuse = s.fuse := rfl
@[simp] theorem State.modMon_pins (n : Nat) (f : MonChain → MonChain) : (s.modMon n f).pins = s.pins := rfl
@[simp] theorem State.modMon_time (n : Nat) (f : MonChain → MonChain) : (s.modMon n f).time = s.time := rfl
@[simp] theorem State.modMon_regs (n : Nat) (f : MonChain → MonChain) : (s.modMon n f).regs = s.regs := rfl
@[simp] theorem State.modMon_aonRegs (n : Nat) (f : MonChain → MonChain) : (s.modMon n f).aonRegs = s.aonRegs := rfl
@[simp] theorem State.modMon_glb (n : Nat) (f : MonChain → MonChain) : (s.modMon n f).glb = s.glb := rfl
@[simp] theorem State.modMon_nvs (n : Nat) (f : MonChain → MonChain) : (s.modMon n f).nvs = s.nvs := rfl
@[simp] theorem State.modMon_pwr (n : Nat) (f : MonChain → MonChain) : (s.modMon n f).pwr = s.pwr := rfl
@[simp] theorem State.modMon_pstate (n : Nat) (f : MonChain → MonChain) : (s.modMon n f).pstate = s.pstate := rfl
@[simp] theorem State.modMon_wrp (n : Nat) (f : MonChain → MonChain) : (s.modMon n f).wrp = s.wrp := rfl
@[simp] theorem State.modMon_paths (n : Nat) (f : MonChain → MonChain) : (s.modMon n f).paths = s.paths := rfl
@[simp] theorem State.modMon_syn (n : Nat) (f : MonChain → MonChain) : (s.modMon n f).syn = s.syn := rfl
@[simp] theorem State.modMon_skn (n : Nat) (f : MonChain → MonChain) : (s.modMon n f).skn = s.skn := rfl
@[simp] theorem State.modMon_fft (n : Nat) (f : MonChain → MonChain) : (s.modMon n f).fft = s.fft := rfl
@[simp] theorem State.modMon_dpd (n : Nat) (f : MonChain → MonChain) : (s.modMon n f).dpd = s.dpd := rfl
@[simp] theorem State.modMon_rad (n : Nat) (f : MonChain → MonChain) : (s.modMon n f).rad = s.rad := rfl
@[simp] theorem State.modMon_lne (n : Nat) (f : MonChain → MonChain) : (s.modMon n f).lne = s.lne := rfl
@[simp] theorem State.modMon_fhp (n : Nat) (f : MonChain → MonChain) : (s.modMon n f).fhp = s.fhp := rfl
@[simp] theorem State.modMon_tim (n : Nat) (f : MonChain → MonChain) : (s.modMon n f).tim = s.tim := rfl
@[simp] theorem State.modMon_cas (n : Nat) (f : MonChain → MonChain) : (s.modMon n f).cas = s.cas := rfl
@[simp] theorem State.modMon_acq (n : Nat) (f : MonChain → MonChain) : (s.modMon n f).acq = s.acq := rfl
@[simp] theorem State.modMon_mon (n : Nat) (f : MonChain → MonChain) : (s.modMon n f).mon = vmod s.mon n f := rfl
@[simp] theorem State.modMon_drc (n : Nat) (f : MonChain → MonChain) : (s.modMon n f).drc = s.drc := rfl
@[simp] theorem State.modMon_dma (n : Nat) (f : MonChain → MonChain) : (s.modMon n f).dma = s.dma := rfl
@[simp] theorem State.modMon_hka (n : Nat) (f : MonChain → MonChain) : (s.modMon n f).hka = s.hka := rfl
@[simp] theorem State.modMon_bda (n : Nat) (f : MonChain → MonChain) : (s.modMon n f).bda = s.bda := rfl
@[simp] theorem State.modMon_thm (n : Nat) (f : MonChain → MonChain) : (s.modMon n f).thm = s.thm := rfl
@[simp] theorem State.modMon_rnd (n : Nat) (f : MonChain → MonChain) : (s.modMon n f).rnd = s.rnd := rfl
@[simp] theorem State.modMons_pending (f : Vector MonChain 8 → Vector MonChain 8) : (s.modMons f).pending = s.pending := rfl
@[simp] theorem State.modMons_fuse (f : Vector MonChain 8 → Vector MonChain 8) : (s.modMons f).fuse = s.fuse := rfl
@[simp] theorem State.modMons_pins (f : Vector MonChain 8 → Vector MonChain 8) : (s.modMons f).pins = s.pins := rfl
@[simp] theorem State.modMons_time (f : Vector MonChain 8 → Vector MonChain 8) : (s.modMons f).time = s.time := rfl
@[simp] theorem State.modMons_regs (f : Vector MonChain 8 → Vector MonChain 8) : (s.modMons f).regs = s.regs := rfl
@[simp] theorem State.modMons_aonRegs (f : Vector MonChain 8 → Vector MonChain 8) : (s.modMons f).aonRegs = s.aonRegs := rfl
@[simp] theorem State.modMons_glb (f : Vector MonChain 8 → Vector MonChain 8) : (s.modMons f).glb = s.glb := rfl
@[simp] theorem State.modMons_nvs (f : Vector MonChain 8 → Vector MonChain 8) : (s.modMons f).nvs = s.nvs := rfl
@[simp] theorem State.modMons_pwr (f : Vector MonChain 8 → Vector MonChain 8) : (s.modMons f).pwr = s.pwr := rfl
@[simp] theorem State.modMons_pstate (f : Vector MonChain 8 → Vector MonChain 8) : (s.modMons f).pstate = s.pstate := rfl
@[simp] theorem State.modMons_wrp (f : Vector MonChain 8 → Vector MonChain 8) : (s.modMons f).wrp = s.wrp := rfl
@[simp] theorem State.modMons_paths (f : Vector MonChain 8 → Vector MonChain 8) : (s.modMons f).paths = s.paths := rfl
@[simp] theorem State.modMons_syn (f : Vector MonChain 8 → Vector MonChain 8) : (s.modMons f).syn = s.syn := rfl
@[simp] theorem State.modMons_skn (f : Vector MonChain 8 → Vector MonChain 8) : (s.modMons f).skn = s.skn := rfl
@[simp] theorem State.modMons_fft (f : Vector MonChain 8 → Vector MonChain 8) : (s.modMons f).fft = s.fft := rfl
@[simp] theorem State.modMons_dpd (f : Vector MonChain 8 → Vector MonChain 8) : (s.modMons f).dpd = s.dpd := rfl
@[simp] theorem State.modMons_rad (f : Vector MonChain 8 → Vector MonChain 8) : (s.modMons f).rad = s.rad := rfl
@[simp] theorem State.modMons_lne (f : Vector MonChain 8 → Vector MonChain 8) : (s.modMons f).lne = s.lne := rfl
@[simp] theorem State.modMons_fhp (f : Vector MonChain 8 → Vector MonChain 8) : (s.modMons f).fhp = s.fhp := rfl
@[simp] theorem State.modMons_tim (f : Vector MonChain 8 → Vector MonChain 8) : (s.modMons f).tim = s.tim := rfl
@[simp] theorem State.modMons_cas (f : Vector MonChain 8 → Vector MonChain 8) : (s.modMons f).cas = s.cas := rfl
@[simp] theorem State.modMons_acq (f : Vector MonChain 8 → Vector MonChain 8) : (s.modMons f).acq = s.acq := rfl
@[simp] theorem State.modMons_mon (f : Vector MonChain 8 → Vector MonChain 8) : (s.modMons f).mon = f s.mon := rfl
@[simp] theorem State.modMons_drc (f : Vector MonChain 8 → Vector MonChain 8) : (s.modMons f).drc = s.drc := rfl
@[simp] theorem State.modMons_dma (f : Vector MonChain 8 → Vector MonChain 8) : (s.modMons f).dma = s.dma := rfl
@[simp] theorem State.modMons_hka (f : Vector MonChain 8 → Vector MonChain 8) : (s.modMons f).hka = s.hka := rfl
@[simp] theorem State.modMons_bda (f : Vector MonChain 8 → Vector MonChain 8) : (s.modMons f).bda = s.bda := rfl
@[simp] theorem State.modMons_thm (f : Vector MonChain 8 → Vector MonChain 8) : (s.modMons f).thm = s.thm := rfl
@[simp] theorem State.modMons_rnd (f : Vector MonChain 8 → Vector MonChain 8) : (s.modMons f).rnd = s.rnd := rfl
@[simp] theorem State.modDrc_pending (f : Drc → Drc) : (s.modDrc f).pending = s.pending := rfl
@[simp] theorem State.modDrc_fuse (f : Drc → Drc) : (s.modDrc f).fuse = s.fuse := rfl
@[simp] theorem State.modDrc_pins (f : Drc → Drc) : (s.modDrc f).pins = s.pins := rfl
@[simp] theorem State.modDrc_time (f : Drc → Drc) : (s.modDrc f).time = s.time := rfl
@[simp] theorem State.modDrc_regs (f : Drc → Drc) : (s.modDrc f).regs = s.regs := rfl
@[simp] theorem State.modDrc_aonRegs (f : Drc → Drc) : (s.modDrc f).aonRegs = s.aonRegs := rfl
@[simp] theorem State.modDrc_glb (f : Drc → Drc) : (s.modDrc f).glb = s.glb := rfl
@[simp] theorem State.modDrc_nvs (f : Drc → Drc) : (s.modDrc f).nvs = s.nvs := rfl
@[simp] theorem State.modDrc_pwr (f : Drc → Drc) : (s.modDrc f).pwr = s.pwr := rfl
@[simp] theorem State.modDrc_pstate (f : Drc → Drc) : (s.modDrc f).pstate = s.pstate := rfl
@[simp] theorem State.modDrc_wrp (f : Drc → Drc) : (s.modDrc f).wrp = s.wrp := rfl
@[simp] theorem State.modDrc_paths (f : Drc → Drc) : (s.modDrc f).paths = s.paths := rfl
@[simp] theorem State.modDrc_syn (f : Drc → Drc) : (s.modDrc f).syn = s.syn := rfl
@[simp] theorem State.modDrc_skn (f : Drc → Drc) : (s.modDrc f).skn = s.skn := rfl
@[simp] theorem State.modDrc_fft (f : Drc → Drc) : (s.modDrc f).fft = s.fft := rfl
@[simp] theorem State.modDrc_dpd (f : Drc → Drc) : (s.modDrc f).dpd = s.dpd := rfl
@[simp] theorem State.modDrc_rad (f : Drc → Drc) : (s.modDrc f).rad = s.rad := rfl
@[simp] theorem State.modDrc_lne (f : Drc → Drc) : (s.modDrc f).lne = s.lne := rfl
@[simp] theorem State.modDrc_fhp (f : Drc → Drc) : (s.modDrc f).fhp = s.fhp := rfl
@[simp] theorem State.modDrc_tim (f : Drc → Drc) : (s.modDrc f).tim = s.tim := rfl
@[simp] theorem State.modDrc_cas (f : Drc → Drc) : (s.modDrc f).cas = s.cas := rfl
@[simp] theorem State.modDrc_acq (f : Drc → Drc) : (s.modDrc f).acq = s.acq := rfl
@[simp] theorem State.modDrc_mon (f : Drc → Drc) : (s.modDrc f).mon = s.mon := rfl
@[simp] theorem State.modDrc_drc (f : Drc → Drc) : (s.modDrc f).drc = f s.drc := rfl
@[simp] theorem State.modDrc_dma (f : Drc → Drc) : (s.modDrc f).dma = s.dma := rfl
@[simp] theorem State.modDrc_hka (f : Drc → Drc) : (s.modDrc f).hka = s.hka := rfl
@[simp] theorem State.modDrc_bda (f : Drc → Drc) : (s.modDrc f).bda = s.bda := rfl
@[simp] theorem State.modDrc_thm (f : Drc → Drc) : (s.modDrc f).thm = s.thm := rfl
@[simp] theorem State.modDrc_rnd (f : Drc → Drc) : (s.modDrc f).rnd = s.rnd := rfl
@[simp] theorem State.modDma_pending (f : Dma → Dma) : (s.modDma f).pending = s.pending := rfl
@[simp] theorem State.modDma_fuse (f : Dma → Dma) : (s.modDma f).fuse = s.fuse := rfl
@[simp] theorem State.modDma_pins (f : Dma → Dma) : (s.modDma f).pins = s.pins := rfl
@[simp] theorem State.modDma_time (f : Dma → Dma) : (s.modDma f).time = s.time := rfl
@[simp] theorem State.modDma_regs (f : Dma → Dma) : (s.modDma f).regs = s.regs := rfl
@[simp] theorem State.modDma_aonRegs (f : Dma → Dma) : (s.modDma f).aonRegs = s.aonRegs := rfl
@[simp] theorem State.modDma_glb (f : Dma → Dma) : (s.modDma f).glb = s.glb := rfl
@[simp] theorem State.modDma_nvs (f : Dma → Dma) : (s.modDma f).nvs = s.nvs := rfl
@[simp] theorem State.modDma_pwr (f : Dma → Dma) : (s.modDma f).pwr = s.pwr := rfl
@[simp] theorem State.modDma_pstate (f : Dma → Dma) : (s.modDma f).pstate = s.pstate := rfl
@[simp] theorem State.modDma_wrp (f : Dma → Dma) : (s.modDma f).wrp = s.wrp := rfl
@[simp] theorem State.modDma_paths (f : Dma → Dma) : (s.modDma f).paths = s.paths := rfl
@[simp] theorem State.modDma_syn (f : Dma → Dma) : (s.modDma f).syn = s.syn := rfl
@[simp] theorem State.modDma_skn (f : Dma → Dma) : (s.modDma f).skn = s.skn := rfl
@[simp] theorem State.modDma_fft (f : Dma → Dma) : (s.modDma f).fft = s.fft := rfl
@[simp] theorem State.modDma_dpd (f : Dma → Dma) : (s.modDma f).dpd = s.dpd := rfl
@[simp] theorem State.modDma_rad (f : Dma → Dma) : (s.modDma f).rad = s.rad := rfl
@[simp] theorem State.modDma_lne (f : Dma → Dma) : (s.modDma f).lne = s.lne := rfl
@[simp] theorem State.modDma_fhp (f : Dma → Dma) : (s.modDma f).fhp = s.fhp := rfl
@[simp] theorem State.modDma_tim (f : Dma → Dma) : (s.modDma f).tim = s.tim := rfl
@[simp] theorem State.modDma_cas (f : Dma → Dma) : (s.modDma f).cas = s.cas := rfl
@[simp] theorem State.modDma_acq (f : Dma → Dma) : (s.modDma f).acq = s.acq := rfl
@[simp] theorem State.modDma_mon (f : Dma → Dma) : (s.modDma f).mon = s.mon := rfl
@[simp] theorem State.modDma_drc (f : Dma → Dma) : (s.modDma f).drc = s.drc := rfl
@[simp] theorem State.modDma_dma (f : Dma → Dma) : (s.modDma f).dma = f s.dma := rfl
@[simp] theorem State.modDma_hka (f : Dma → Dma) : (s.modDma f).hka = s.hka := rfl
@[simp] theorem State.modDma_bda (f : Dma → Dma) : (s.modDma f).bda = s.bda := rfl
@[simp] theorem State.modDma_thm (f : Dma → Dma) : (s.modDma f).thm = s.thm := rfl
@[simp] theorem State.modDma_rnd (f : Dma → Dma) : (s.modDma f).rnd = s.rnd := rfl
@[simp] theorem State.modCh_pending (c : Nat) (f : DmaCh → DmaCh) : (s.modCh c f).pending = s.pending := rfl
@[simp] theorem State.modCh_fuse (c : Nat) (f : DmaCh → DmaCh) : (s.modCh c f).fuse = s.fuse := rfl
@[simp] theorem State.modCh_pins (c : Nat) (f : DmaCh → DmaCh) : (s.modCh c f).pins = s.pins := rfl
@[simp] theorem State.modCh_time (c : Nat) (f : DmaCh → DmaCh) : (s.modCh c f).time = s.time := rfl
@[simp] theorem State.modCh_regs (c : Nat) (f : DmaCh → DmaCh) : (s.modCh c f).regs = s.regs := rfl
@[simp] theorem State.modCh_aonRegs (c : Nat) (f : DmaCh → DmaCh) : (s.modCh c f).aonRegs = s.aonRegs := rfl
@[simp] theorem State.modCh_glb (c : Nat) (f : DmaCh → DmaCh) : (s.modCh c f).glb = s.glb := rfl
@[simp] theorem State.modCh_nvs (c : Nat) (f : DmaCh → DmaCh) : (s.modCh c f).nvs = s.nvs := rfl
@[simp] theorem State.modCh_pwr (c : Nat) (f : DmaCh → DmaCh) : (s.modCh c f).pwr = s.pwr := rfl
@[simp] theorem State.modCh_pstate (c : Nat) (f : DmaCh → DmaCh) : (s.modCh c f).pstate = s.pstate := rfl
@[simp] theorem State.modCh_wrp (c : Nat) (f : DmaCh → DmaCh) : (s.modCh c f).wrp = s.wrp := rfl
@[simp] theorem State.modCh_paths (c : Nat) (f : DmaCh → DmaCh) : (s.modCh c f).paths = s.paths := rfl
@[simp] theorem State.modCh_syn (c : Nat) (f : DmaCh → DmaCh) : (s.modCh c f).syn = s.syn := rfl
@[simp] theorem State.modCh_skn (c : Nat) (f : DmaCh → DmaCh) : (s.modCh c f).skn = s.skn := rfl
@[simp] theorem State.modCh_fft (c : Nat) (f : DmaCh → DmaCh) : (s.modCh c f).fft = s.fft := rfl
@[simp] theorem State.modCh_dpd (c : Nat) (f : DmaCh → DmaCh) : (s.modCh c f).dpd = s.dpd := rfl
@[simp] theorem State.modCh_rad (c : Nat) (f : DmaCh → DmaCh) : (s.modCh c f).rad = s.rad := rfl
@[simp] theorem State.modCh_lne (c : Nat) (f : DmaCh → DmaCh) : (s.modCh c f).lne = s.lne := rfl
@[simp] theorem State.modCh_fhp (c : Nat) (f : DmaCh → DmaCh) : (s.modCh c f).fhp = s.fhp := rfl
@[simp] theorem State.modCh_tim (c : Nat) (f : DmaCh → DmaCh) : (s.modCh c f).tim = s.tim := rfl
@[simp] theorem State.modCh_cas (c : Nat) (f : DmaCh → DmaCh) : (s.modCh c f).cas = s.cas := rfl
@[simp] theorem State.modCh_acq (c : Nat) (f : DmaCh → DmaCh) : (s.modCh c f).acq = s.acq := rfl
@[simp] theorem State.modCh_mon (c : Nat) (f : DmaCh → DmaCh) : (s.modCh c f).mon = s.mon := rfl
@[simp] theorem State.modCh_drc (c : Nat) (f : DmaCh → DmaCh) : (s.modCh c f).drc = s.drc := rfl
@[simp] theorem State.modCh_dma (c : Nat) (f : DmaCh → DmaCh) : (s.modCh c f).dma = { s.dma with chans := vmod s.dma.chans c f } := rfl
@[simp] theorem State.modCh_hka (c : Nat) (f : DmaCh → DmaCh) : (s.modCh c f).hka = s.hka := rfl
@[simp] theorem State.modCh_bda (c : Nat) (f : DmaCh → DmaCh) : (s.modCh c f).bda = s.bda := rfl
@[simp] theorem State.modCh_thm (c : Nat) (f : DmaCh → DmaCh) : (s.modCh c f).thm = s.thm := rfl
@[simp] theorem State.modCh_rnd (c : Nat) (f : DmaCh → DmaCh) : (s.modCh c f).rnd = s.rnd := rfl
@[simp] theorem State.modHka_pending (f : Hka → Hka) : (s.modHka f).pending = s.pending := rfl
@[simp] theorem State.modHka_fuse (f : Hka → Hka) : (s.modHka f).fuse = s.fuse := rfl
@[simp] theorem State.modHka_pins (f : Hka → Hka) : (s.modHka f).pins = s.pins := rfl
@[simp] theorem State.modHka_time (f : Hka → Hka) : (s.modHka f).time = s.time := rfl
@[simp] theorem State.modHka_regs (f : Hka → Hka) : (s.modHka f).regs = s.regs := rfl
@[simp] theorem State.modHka_aonRegs (f : Hka → Hka) : (s.modHka f).aonRegs = s.aonRegs := rfl
@[simp] theorem State.modHka_glb (f : Hka → Hka) : (s.modHka f).glb = s.glb := rfl
@[simp] theorem State.modHka_nvs (f : Hka → Hka) : (s.modHka f).nvs = s.nvs := rfl
@[simp] theorem State.modHka_pwr (f : Hka → Hka) : (s.modHka f).pwr = s.pwr := rfl
@[simp] theorem State.modHka_pstate (f : Hka → Hka) : (s.modHka f).pstate = s.pstate := rfl
@[simp] theorem State.modHka_wrp (f : Hka → Hka) : (s.modHka f).wrp = s.wrp := rfl
@[simp] theorem State.modHka_paths (f : Hka → Hka) : (s.modHka f).paths = s.paths := rfl
@[simp] theorem State.modHka_syn (f : Hka → Hka) : (s.modHka f).syn = s.syn := rfl
@[simp] theorem State.modHka_skn (f : Hka → Hka) : (s.modHka f).skn = s.skn := rfl
@[simp] theorem State.modHka_fft (f : Hka → Hka) : (s.modHka f).fft = s.fft := rfl
@[simp] theorem State.modHka_dpd (f : Hka → Hka) : (s.modHka f).dpd = s.dpd := rfl
@[simp] theorem State.modHka_rad (f : Hka → Hka) : (s.modHka f).rad = s.rad := rfl
@[simp] theorem State.modHka_lne (f : Hka → Hka) : (s.modHka f).lne = s.lne := rfl
@[simp] theorem State.modHka_fhp (f : Hka → Hka) : (s.modHka f).fhp = s.fhp := rfl
@[simp] theorem State.modHka_tim (f : Hka → Hka) : (s.modHka f).tim = s.tim := rfl
@[simp] theorem State.modHka_cas (f : Hka → Hka) : (s.modHka f).cas = s.cas := rfl
@[simp] theorem State.modHka_acq (f : Hka → Hka) : (s.modHka f).acq = s.acq := rfl
@[simp] theorem State.modHka_mon (f : Hka → Hka) : (s.modHka f).mon = s.mon := rfl
@[simp] theorem State.modHka_drc (f : Hka → Hka) : (s.modHka f).drc = s.drc := rfl
@[simp] theorem State.modHka_dma (f : Hka → Hka) : (s.modHka f).dma = s.dma := rfl
@[simp] theorem State.modHka_hka (f : Hka → Hka) : (s.modHka f).hka = f s.hka := rfl
@[simp] theorem State.modHka_bda (f : Hka → Hka) : (s.modHka f).bda = s.bda := rfl
@[simp] theorem State.modHka_thm (f : Hka → Hka) : (s.modHka f).thm = s.thm := rfl
@[simp] theorem State.modHka_rnd (f : Hka → Hka) : (s.modHka f).rnd = s.rnd := rfl
@[simp] theorem State.modBda_pending (f : Bda → Bda) : (s.modBda f).pending = s.pending := rfl
@[simp] theorem State.modBda_fuse (f : Bda → Bda) : (s.modBda f).fuse = s.fuse := rfl
@[simp] theorem State.modBda_pins (f : Bda → Bda) : (s.modBda f).pins = s.pins := rfl
@[simp] theorem State.modBda_time (f : Bda → Bda) : (s.modBda f).time = s.time := rfl
@[simp] theorem State.modBda_regs (f : Bda → Bda) : (s.modBda f).regs = s.regs := rfl
@[simp] theorem State.modBda_aonRegs (f : Bda → Bda) : (s.modBda f).aonRegs = s.aonRegs := rfl
@[simp] theorem State.modBda_glb (f : Bda → Bda) : (s.modBda f).glb = s.glb := rfl
@[simp] theorem State.modBda_nvs (f : Bda → Bda) : (s.modBda f).nvs = s.nvs := rfl
@[simp] theorem State.modBda_pwr (f : Bda → Bda) : (s.modBda f).pwr = s.pwr := rfl
@[simp] theorem State.modBda_pstate (f : Bda → Bda) : (s.modBda f).pstate = s.pstate := rfl
@[simp] theorem State.modBda_wrp (f : Bda → Bda) : (s.modBda f).wrp = s.wrp := rfl
@[simp] theorem State.modBda_paths (f : Bda → Bda) : (s.modBda f).paths = s.paths := rfl
@[simp] theorem State.modBda_syn (f : Bda → Bda) : (s.modBda f).syn = s.syn := rfl
@[simp] theorem State.modBda_skn (f : Bda → Bda) : (s.modBda f).skn = s.skn := rfl
@[simp] theorem State.modBda_fft (f : Bda → Bda) : (s.modBda f).fft = s.fft := rfl
@[simp] theorem State.modBda_dpd (f : Bda → Bda) : (s.modBda f).dpd = s.dpd := rfl
@[simp] theorem State.modBda_rad (f : Bda → Bda) : (s.modBda f).rad = s.rad := rfl
@[simp] theorem State.modBda_lne (f : Bda → Bda) : (s.modBda f).lne = s.lne := rfl
@[simp] theorem State.modBda_fhp (f : Bda → Bda) : (s.modBda f).fhp = s.fhp := rfl
@[simp] theorem State.modBda_tim (f : Bda → Bda) : (s.modBda f).tim = s.tim := rfl
@[simp] theorem State.modBda_cas (f : Bda → Bda) : (s.modBda f).cas = s.cas := rfl
@[simp] theorem State.modBda_acq (f : Bda → Bda) : (s.modBda f).acq = s.acq := rfl
@[simp] theorem State.modBda_mon (f : Bda → Bda) : (s.modBda f).mon = s.mon := rfl
@[simp] theorem State.modBda_drc (f : Bda → Bda) : (s.modBda f).drc = s.drc := rfl
@[simp] theorem State.modBda_dma (f : Bda → Bda) : (s.modBda f).dma = s.dma := rfl
@[simp] theorem State.modBda_hka (f : Bda → Bda) : (s.modBda f).hka = s.hka := rfl
@[simp] theorem State.modBda_bda (f : Bda → Bda) : (s.modBda f).bda = f s.bda := rfl
@[simp] theorem State.modBda_thm (f : Bda → Bda) : (s.modBda f).thm = s.thm := rfl
@[simp] theorem State.modBda_rnd (f : Bda → Bda) : (s.modBda f).rnd = s.rnd := rfl
@[simp] theorem State.modOut_pending (n : Nat) (f : BOut → BOut) : (s.modOut n f).pending = s.pending := rfl
@[simp] theorem State.modOut_fuse (n : Nat) (f : BOut → BOut) : (s.modOut n f).fuse = s.fuse := rfl
@[simp] theorem State.modOut_pins (n : Nat) (f : BOut → BOut) : (s.modOut n f).pins = s.pins := rfl
@[simp] theorem State.modOut_time (n : Nat) (f : BOut → BOut) : (s.modOut n f).time = s.time := rfl
@[simp] theorem State.modOut_regs (n : Nat) (f : BOut → BOut) : (s.modOut n f).regs = s.regs := rfl
@[simp] theorem State.modOut_aonRegs (n : Nat) (f : BOut → BOut) : (s.modOut n f).aonRegs = s.aonRegs := rfl
@[simp] theorem State.modOut_glb (n : Nat) (f : BOut → BOut) : (s.modOut n f).glb = s.glb := rfl
@[simp] theorem State.modOut_nvs (n : Nat) (f : BOut → BOut) : (s.modOut n f).nvs = s.nvs := rfl
@[simp] theorem State.modOut_pwr (n : Nat) (f : BOut → BOut) : (s.modOut n f).pwr = s.pwr := rfl
@[simp] theorem State.modOut_pstate (n : Nat) (f : BOut → BOut) : (s.modOut n f).pstate = s.pstate := rfl
@[simp] theorem State.modOut_wrp (n : Nat) (f : BOut → BOut) : (s.modOut n f).wrp = s.wrp := rfl
@[simp] theorem State.modOut_paths (n : Nat) (f : BOut → BOut) : (s.modOut n f).paths = s.paths := rfl
@[simp] theorem State.modOut_syn (n : Nat) (f : BOut → BOut) : (s.modOut n f).syn = s.syn := rfl
@[simp] theorem State.modOut_skn (n : Nat) (f : BOut → BOut) : (s.modOut n f).skn = s.skn := rfl
@[simp] theorem State.modOut_fft (n : Nat) (f : BOut → BOut) : (s.modOut n f).fft = s.fft := rfl
@[simp] theorem State.modOut_dpd (n : Nat) (f : BOut → BOut) : (s.modOut n f).dpd = s.dpd := rfl
@[simp] theorem State.modOut_rad (n : Nat) (f : BOut → BOut) : (s.modOut n f).rad = s.rad := rfl
@[simp] theorem State.modOut_lne (n : Nat) (f : BOut → BOut) : (s.modOut n f).lne = s.lne := rfl
@[simp] theorem State.modOut_fhp (n : Nat) (f : BOut → BOut) : (s.modOut n f).fhp = s.fhp := rfl
@[simp] theorem State.modOut_tim (n : Nat) (f : BOut → BOut) : (s.modOut n f).tim = s.tim := rfl
@[simp] theorem State.modOut_cas (n : Nat) (f : BOut → BOut) : (s.modOut n f).cas = s.cas := rfl
@[simp] theorem State.modOut_acq (n : Nat) (f : BOut → BOut) : (s.modOut n f).acq = s.acq := rfl
@[simp] theorem State.modOut_mon (n : Nat) (f : BOut → BOut) : (s.modOut n f).mon = s.mon := rfl
@[simp] theorem State.modOut_drc (n : Nat) (f : BOut → BOut) : (s.modOut n f).drc = s.drc := rfl
@[simp] theorem State.modOut_dma (n : Nat) (f : BOut → BOut) : (s.modOut n f).dma = s.dma := rfl
@[simp] theorem State.modOut_hka (n : Nat) (f : BOut → BOut) : (s.modOut n f).hka = s.hka := rfl
@[simp] theorem State.modOut_bda (n : Nat) (f : BOut → BOut) : (s.modOut n f).bda = { s.bda with outs := vmod s.bda.outs n f } := rfl
@[simp] theorem State.modOut_thm (n : Nat) (f : BOut → BOut) : (s.modOut n f).thm = s.thm := rfl
@[simp] theorem State.modOut_rnd (n : Nat) (f : BOut → BOut) : (s.modOut n f).rnd = s.rnd := rfl
@[simp] theorem State.modThm_pending (f : Thm → Thm) : (s.modThm f).pending = s.pending := rfl
@[simp] theorem State.modThm_fuse (f : Thm → Thm) : (s.modThm f).fuse = s.fuse := rfl
@[simp] theorem State.modThm_pins (f : Thm → Thm) : (s.modThm f).pins = s.pins := rfl
@[simp] theorem State.modThm_time (f : Thm → Thm) : (s.modThm f).time = s.time := rfl
@[simp] theorem State.modThm_regs (f : Thm → Thm) : (s.modThm f).regs = s.regs := rfl
@[simp] theorem State.modThm_aonRegs (f : Thm → Thm) : (s.modThm f).aonRegs = s.aonRegs := rfl
@[simp] theorem State.modThm_glb (f : Thm → Thm) : (s.modThm f).glb = s.glb := rfl
@[simp] theorem State.modThm_nvs (f : Thm → Thm) : (s.modThm f).nvs = s.nvs := rfl
@[simp] theorem State.modThm_pwr (f : Thm → Thm) : (s.modThm f).pwr = s.pwr := rfl
@[simp] theorem State.modThm_pstate (f : Thm → Thm) : (s.modThm f).pstate = s.pstate := rfl
@[simp] theorem State.modThm_wrp (f : Thm → Thm) : (s.modThm f).wrp = s.wrp := rfl
@[simp] theorem State.modThm_paths (f : Thm → Thm) : (s.modThm f).paths = s.paths := rfl
@[simp] theorem State.modThm_syn (f : Thm → Thm) : (s.modThm f).syn = s.syn := rfl
@[simp] theorem State.modThm_skn (f : Thm → Thm) : (s.modThm f).skn = s.skn := rfl
@[simp] theorem State.modThm_fft (f : Thm → Thm) : (s.modThm f).fft = s.fft := rfl
@[simp] theorem State.modThm_dpd (f : Thm → Thm) : (s.modThm f).dpd = s.dpd := rfl
@[simp] theorem State.modThm_rad (f : Thm → Thm) : (s.modThm f).rad = s.rad := rfl
@[simp] theorem State.modThm_lne (f : Thm → Thm) : (s.modThm f).lne = s.lne := rfl
@[simp] theorem State.modThm_fhp (f : Thm → Thm) : (s.modThm f).fhp = s.fhp := rfl
@[simp] theorem State.modThm_tim (f : Thm → Thm) : (s.modThm f).tim = s.tim := rfl
@[simp] theorem State.modThm_cas (f : Thm → Thm) : (s.modThm f).cas = s.cas := rfl
@[simp] theorem State.modThm_acq (f : Thm → Thm) : (s.modThm f).acq = s.acq := rfl
@[simp] theorem State.modThm_mon (f : Thm → Thm) : (s.modThm f).mon = s.mon := rfl
@[simp] theorem State.modThm_drc (f : Thm → Thm) : (s.modThm f).drc = s.drc := rfl
@[simp] theorem State.modThm_dma (f : Thm → Thm) : (s.modThm f).dma = s.dma := rfl
@[simp] theorem State.modThm_hka (f : Thm → Thm) : (s.modThm f).hka = s.hka := rfl
@[simp] theorem State.modThm_bda (f : Thm → Thm) : (s.modThm f).bda = s.bda := rfl
@[simp] theorem State.modThm_thm (f : Thm → Thm) : (s.modThm f).thm = f s.thm := rfl
@[simp] theorem State.modThm_rnd (f : Thm → Thm) : (s.modThm f).rnd = s.rnd := rfl
@[simp] theorem State.modZone_pending (z : Nat) (f : Zone → Zone) : (s.modZone z f).pending = s.pending := rfl
@[simp] theorem State.modZone_fuse (z : Nat) (f : Zone → Zone) : (s.modZone z f).fuse = s.fuse := rfl
@[simp] theorem State.modZone_pins (z : Nat) (f : Zone → Zone) : (s.modZone z f).pins = s.pins := rfl
@[simp] theorem State.modZone_time (z : Nat) (f : Zone → Zone) : (s.modZone z f).time = s.time := rfl
@[simp] theorem State.modZone_regs (z : Nat) (f : Zone → Zone) : (s.modZone z f).regs = s.regs := rfl
@[simp] theorem State.modZone_aonRegs (z : Nat) (f : Zone → Zone) : (s.modZone z f).aonRegs = s.aonRegs := rfl
@[simp] theorem State.modZone_glb (z : Nat) (f : Zone → Zone) : (s.modZone z f).glb = s.glb := rfl
@[simp] theorem State.modZone_nvs (z : Nat) (f : Zone → Zone) : (s.modZone z f).nvs = s.nvs := rfl
@[simp] theorem State.modZone_pwr (z : Nat) (f : Zone → Zone) : (s.modZone z f).pwr = s.pwr := rfl
@[simp] theorem State.modZone_pstate (z : Nat) (f : Zone → Zone) : (s.modZone z f).pstate = s.pstate := rfl
@[simp] theorem State.modZone_wrp (z : Nat) (f : Zone → Zone) : (s.modZone z f).wrp = s.wrp := rfl
@[simp] theorem State.modZone_paths (z : Nat) (f : Zone → Zone) : (s.modZone z f).paths = s.paths := rfl
@[simp] theorem State.modZone_syn (z : Nat) (f : Zone → Zone) : (s.modZone z f).syn = s.syn := rfl
@[simp] theorem State.modZone_skn (z : Nat) (f : Zone → Zone) : (s.modZone z f).skn = s.skn := rfl
@[simp] theorem State.modZone_fft (z : Nat) (f : Zone → Zone) : (s.modZone z f).fft = s.fft := rfl
@[simp] theorem State.modZone_dpd (z : Nat) (f : Zone → Zone) : (s.modZone z f).dpd = s.dpd := rfl
@[simp] theorem State.modZone_rad (z : Nat) (f : Zone → Zone) : (s.modZone z f).rad = s.rad := rfl
@[simp] theorem State.modZone_lne (z : Nat) (f : Zone → Zone) : (s.modZone z f).lne = s.lne := rfl
@[simp] theorem State.modZone_fhp (z : Nat) (f : Zone → Zone) : (s.modZone z f).fhp = s.fhp := rfl
@[simp] theorem State.modZone_tim (z : Nat) (f : Zone → Zone) : (s.modZone z f).tim = s.tim := rfl
@[simp] theorem State.modZone_cas (z : Nat) (f : Zone → Zone) : (s.modZone z f).cas = s.cas := rfl
@[simp] theorem State.modZone_acq (z : Nat) (f : Zone → Zone) : (s.modZone z f).acq = s.acq := rfl
@[simp] theorem State.modZone_mon (z : Nat) (f : Zone → Zone) : (s.modZone z f).mon = s.mon := rfl
@[simp] theorem State.modZone_drc (z : Nat) (f : Zone → Zone) : (s.modZone z f).drc = s.drc := rfl
@[simp] theorem State.modZone_dma (z : Nat) (f : Zone → Zone) : (s.modZone z f).dma = s.dma := rfl
@[simp] theorem State.modZone_hka (z : Nat) (f : Zone → Zone) : (s.modZone z f).hka = s.hka := rfl
@[simp] theorem State.modZone_bda (z : Nat) (f : Zone → Zone) : (s.modZone z f).bda = s.bda := rfl
@[simp] theorem State.modZone_thm (z : Nat) (f : Zone → Zone) : (s.modZone z f).thm = { s.thm with zones := vmod s.thm.zones z f } := rfl
@[simp] theorem State.modZone_rnd (z : Nat) (f : Zone → Zone) : (s.modZone z f).rnd = s.rnd := rfl
@[simp] theorem State.modSensor_pending (i : Nat) (f : Sensor → Sensor) : (s.modSensor i f).pending = s.pending := rfl
@[simp] theorem State.modSensor_fuse (i : Nat) (f : Sensor → Sensor) : (s.modSensor i f).fuse = s.fuse := rfl
@[simp] theorem State.modSensor_pins (i : Nat) (f : Sensor → Sensor) : (s.modSensor i f).pins = s.pins := rfl
@[simp] theorem State.modSensor_time (i : Nat) (f : Sensor → Sensor) : (s.modSensor i f).time = s.time := rfl
@[simp] theorem State.modSensor_regs (i : Nat) (f : Sensor → Sensor) : (s.modSensor i f).regs = s.regs := rfl
@[simp] theorem State.modSensor_aonRegs (i : Nat) (f : Sensor → Sensor) : (s.modSensor i f).aonRegs = s.aonRegs := rfl
@[simp] theorem State.modSensor_glb (i : Nat) (f : Sensor → Sensor) : (s.modSensor i f).glb = s.glb := rfl
@[simp] theorem State.modSensor_nvs (i : Nat) (f : Sensor → Sensor) : (s.modSensor i f).nvs = s.nvs := rfl
@[simp] theorem State.modSensor_pwr (i : Nat) (f : Sensor → Sensor) : (s.modSensor i f).pwr = s.pwr := rfl
@[simp] theorem State.modSensor_pstate (i : Nat) (f : Sensor → Sensor) : (s.modSensor i f).pstate = s.pstate := rfl
@[simp] theorem State.modSensor_wrp (i : Nat) (f : Sensor → Sensor) : (s.modSensor i f).wrp = s.wrp := rfl
@[simp] theorem State.modSensor_paths (i : Nat) (f : Sensor → Sensor) : (s.modSensor i f).paths = s.paths := rfl
@[simp] theorem State.modSensor_syn (i : Nat) (f : Sensor → Sensor) : (s.modSensor i f).syn = s.syn := rfl
@[simp] theorem State.modSensor_skn (i : Nat) (f : Sensor → Sensor) : (s.modSensor i f).skn = s.skn := rfl
@[simp] theorem State.modSensor_fft (i : Nat) (f : Sensor → Sensor) : (s.modSensor i f).fft = s.fft := rfl
@[simp] theorem State.modSensor_dpd (i : Nat) (f : Sensor → Sensor) : (s.modSensor i f).dpd = s.dpd := rfl
@[simp] theorem State.modSensor_rad (i : Nat) (f : Sensor → Sensor) : (s.modSensor i f).rad = s.rad := rfl
@[simp] theorem State.modSensor_lne (i : Nat) (f : Sensor → Sensor) : (s.modSensor i f).lne = s.lne := rfl
@[simp] theorem State.modSensor_fhp (i : Nat) (f : Sensor → Sensor) : (s.modSensor i f).fhp = s.fhp := rfl
@[simp] theorem State.modSensor_tim (i : Nat) (f : Sensor → Sensor) : (s.modSensor i f).tim = s.tim := rfl
@[simp] theorem State.modSensor_cas (i : Nat) (f : Sensor → Sensor) : (s.modSensor i f).cas = s.cas := rfl
@[simp] theorem State.modSensor_acq (i : Nat) (f : Sensor → Sensor) : (s.modSensor i f).acq = s.acq := rfl
@[simp] theorem State.modSensor_mon (i : Nat) (f : Sensor → Sensor) : (s.modSensor i f).mon = s.mon := rfl
@[simp] theorem State.modSensor_drc (i : Nat) (f : Sensor → Sensor) : (s.modSensor i f).drc = s.drc := rfl
@[simp] theorem State.modSensor_dma (i : Nat) (f : Sensor → Sensor) : (s.modSensor i f).dma = s.dma := rfl
@[simp] theorem State.modSensor_hka (i : Nat) (f : Sensor → Sensor) : (s.modSensor i f).hka = s.hka := rfl
@[simp] theorem State.modSensor_bda (i : Nat) (f : Sensor → Sensor) : (s.modSensor i f).bda = s.bda := rfl
@[simp] theorem State.modSensor_thm (i : Nat) (f : Sensor → Sensor) : (s.modSensor i f).thm = { s.thm with sensors := lmod s.thm.sensors i f } := rfl
@[simp] theorem State.modSensor_rnd (i : Nat) (f : Sensor → Sensor) : (s.modSensor i f).rnd = s.rnd := rfl
@[simp] theorem State.modPins_reg (f : Pins → Pins) (a : Nat) : (s.modPins f).reg a = s.reg a := rfl
@[simp] theorem State.modPins_fld (f : Pins → Pins) (a hi lo : Nat) : (s.modPins f).fld a hi lo = s.fld a hi lo := rfl
@[simp] theorem State.modPins_bit (f : Pins → Pins) (a i : Nat) : (s.modPins f).bit a i = s.bit a i := rfl
@[simp] theorem State.modTime_reg (f : Time → Time) (a : Nat) : (s.modTime f).reg a = s.reg a := rfl
@[simp] theorem State.modTime_fld (f : Time → Time) (a hi lo : Nat) : (s.modTime f).fld a hi lo = s.fld a hi lo := rfl
@[simp] theorem State.modTime_bit (f : Time → Time) (a i : Nat) : (s.modTime f).bit a i = s.bit a i := rfl
@[simp] theorem State.modGlb_reg (f : Glb → Glb) (a : Nat) : (s.modGlb f).reg a = s.reg a := rfl
@[simp] theorem State.modGlb_fld (f : Glb → Glb) (a hi lo : Nat) : (s.modGlb f).fld a hi lo = s.fld a hi lo := rfl
@[simp] theorem State.modGlb_bit (f : Glb → Glb) (a i : Nat) : (s.modGlb f).bit a i = s.bit a i := rfl
@[simp] theorem State.modNvs_reg (f : Nvs → Nvs) (a : Nat) : (s.modNvs f).reg a = s.reg a := rfl
@[simp] theorem State.modNvs_fld (f : Nvs → Nvs) (a hi lo : Nat) : (s.modNvs f).fld a hi lo = s.fld a hi lo := rfl
@[simp] theorem State.modNvs_bit (f : Nvs → Nvs) (a i : Nat) : (s.modNvs f).bit a i = s.bit a i := rfl
@[simp] theorem State.modPwr_reg (f : Pwr → Pwr) (a : Nat) : (s.modPwr f).reg a = s.reg a := rfl
@[simp] theorem State.modPwr_fld (f : Pwr → Pwr) (a hi lo : Nat) : (s.modPwr f).fld a hi lo = s.fld a hi lo := rfl
@[simp] theorem State.modPwr_bit (f : Pwr → Pwr) (a i : Nat) : (s.modPwr f).bit a i = s.bit a i := rfl
@[simp] theorem State.modPState_reg (f : PState → PState) (a : Nat) : (s.modPState f).reg a = s.reg a := rfl
@[simp] theorem State.modPState_fld (f : PState → PState) (a hi lo : Nat) : (s.modPState f).fld a hi lo = s.fld a hi lo := rfl
@[simp] theorem State.modPState_bit (f : PState → PState) (a i : Nat) : (s.modPState f).bit a i = s.bit a i := rfl
@[simp] theorem State.modRail_reg (n : Nat) (f : Rail → Rail) (a : Nat) : (s.modRail n f).reg a = s.reg a := rfl
@[simp] theorem State.modRail_fld (n : Nat) (f : Rail → Rail) (a hi lo : Nat) : (s.modRail n f).fld a hi lo = s.fld a hi lo := rfl
@[simp] theorem State.modRail_bit (n : Nat) (f : Rail → Rail) (a i : Nat) : (s.modRail n f).bit a i = s.bit a i := rfl
@[simp] theorem State.modWrp_reg (f : Wrp → Wrp) (a : Nat) : (s.modWrp f).reg a = s.reg a := rfl
@[simp] theorem State.modWrp_fld (f : Wrp → Wrp) (a hi lo : Nat) : (s.modWrp f).fld a hi lo = s.fld a hi lo := rfl
@[simp] theorem State.modWrp_bit (f : Wrp → Wrp) (a i : Nat) : (s.modWrp f).bit a i = s.bit a i := rfl
@[simp] theorem State.modPath_reg (p : Nat) (f : PathSt → PathSt) (a : Nat) : (s.modPath p f).reg a = s.reg a := rfl
@[simp] theorem State.modPath_fld (p : Nat) (f : PathSt → PathSt) (a hi lo : Nat) : (s.modPath p f).fld a hi lo = s.fld a hi lo := rfl
@[simp] theorem State.modPath_bit (p : Nat) (f : PathSt → PathSt) (a i : Nat) : (s.modPath p f).bit a i = s.bit a i := rfl
@[simp] theorem State.modSyn_reg (f : Syn → Syn) (a : Nat) : (s.modSyn f).reg a = s.reg a := rfl
@[simp] theorem State.modSyn_fld (f : Syn → Syn) (a hi lo : Nat) : (s.modSyn f).fld a hi lo = s.fld a hi lo := rfl
@[simp] theorem State.modSyn_bit (f : Syn → Syn) (a i : Nat) : (s.modSyn f).bit a i = s.bit a i := rfl
@[simp] theorem State.modUnit_reg (u : Nat) (f : SynUnit → SynUnit) (a : Nat) : (s.modUnit u f).reg a = s.reg a := rfl
@[simp] theorem State.modUnit_fld (u : Nat) (f : SynUnit → SynUnit) (a hi lo : Nat) : (s.modUnit u f).fld a hi lo = s.fld a hi lo := rfl
@[simp] theorem State.modUnit_bit (u : Nat) (f : SynUnit → SynUnit) (a i : Nat) : (s.modUnit u f).bit a i = s.bit a i := rfl
@[simp] theorem State.modRole_reg (r : Nat) (f : SynRole → SynRole) (a : Nat) : (s.modRole r f).reg a = s.reg a := rfl
@[simp] theorem State.modRole_fld (r : Nat) (f : SynRole → SynRole) (a hi lo : Nat) : (s.modRole r f).fld a hi lo = s.fld a hi lo := rfl
@[simp] theorem State.modRole_bit (r : Nat) (f : SynRole → SynRole) (a i : Nat) : (s.modRole r f).bit a i = s.bit a i := rfl
@[simp] theorem State.modSkn_reg (f : Skn → Skn) (a : Nat) : (s.modSkn f).reg a = s.reg a := rfl
@[simp] theorem State.modSkn_fld (f : Skn → Skn) (a hi lo : Nat) : (s.modSkn f).fld a hi lo = s.fld a hi lo := rfl
@[simp] theorem State.modSkn_bit (f : Skn → Skn) (a i : Nat) : (s.modSkn f).bit a i = s.bit a i := rfl
@[simp] theorem State.modFft_reg (e : Nat) (f : FftEngine → FftEngine) (a : Nat) : (s.modFft e f).reg a = s.reg a := rfl
@[simp] theorem State.modFft_fld (e : Nat) (f : FftEngine → FftEngine) (a hi lo : Nat) : (s.modFft e f).fld a hi lo = s.fld a hi lo := rfl
@[simp] theorem State.modFft_bit (e : Nat) (f : FftEngine → FftEngine) (a i : Nat) : (s.modFft e f).bit a i = s.bit a i := rfl
@[simp] theorem State.modDpd_reg (f : Dpd → Dpd) (a : Nat) : (s.modDpd f).reg a = s.reg a := rfl
@[simp] theorem State.modDpd_fld (f : Dpd → Dpd) (a hi lo : Nat) : (s.modDpd f).fld a hi lo = s.fld a hi lo := rfl
@[simp] theorem State.modDpd_bit (f : Dpd → Dpd) (a i : Nat) : (s.modDpd f).bit a i = s.bit a i := rfl
@[simp] theorem State.modDpdPath_reg (p : Nat) (f : DpdPath → DpdPath) (a : Nat) : (s.modDpdPath p f).reg a = s.reg a := rfl
@[simp] theorem State.modDpdPath_fld (p : Nat) (f : DpdPath → DpdPath) (a hi lo : Nat) : (s.modDpdPath p f).fld a hi lo = s.fld a hi lo := rfl
@[simp] theorem State.modDpdPath_bit (p : Nat) (f : DpdPath → DpdPath) (a i : Nat) : (s.modDpdPath p f).bit a i = s.bit a i := rfl
@[simp] theorem State.modObs_reg (o : Nat) (f : Obs → Obs) (a : Nat) : (s.modObs o f).reg a = s.reg a := rfl
@[simp] theorem State.modObs_fld (o : Nat) (f : Obs → Obs) (a hi lo : Nat) : (s.modObs o f).fld a hi lo = s.fld a hi lo := rfl
@[simp] theorem State.modObs_bit (o : Nat) (f : Obs → Obs) (a i : Nat) : (s.modObs o f).bit a i = s.bit a i := rfl
@[simp] theorem State.modRad_reg (f : Rad → Rad) (a : Nat) : (s.modRad f).reg a = s.reg a := rfl
@[simp] theorem State.modRad_fld (f : Rad → Rad) (a hi lo : Nat) : (s.modRad f).fld a hi lo = s.fld a hi lo := rfl
@[simp] theorem State.modRad_bit (f : Rad → Rad) (a i : Nat) : (s.modRad f).bit a i = s.bit a i := rfl
@[simp] theorem State.modGroup_reg (g : Nat) (f : Group → Group) (a : Nat) : (s.modGroup g f).reg a = s.reg a := rfl
@[simp] theorem State.modGroup_fld (g : Nat) (f : Group → Group) (a hi lo : Nat) : (s.modGroup g f).fld a hi lo = s.fld a hi lo := rfl
@[simp] theorem State.modGroup_bit (g : Nat) (f : Group → Group) (a i : Nat) : (s.modGroup g f).bit a i = s.bit a i := rfl
@[simp] theorem State.modLne_reg (f : Lne → Lne) (a : Nat) : (s.modLne f).reg a = s.reg a := rfl
@[simp] theorem State.modLne_fld (f : Lne → Lne) (a hi lo : Nat) : (s.modLne f).fld a hi lo = s.fld a hi lo := rfl
@[simp] theorem State.modLne_bit (f : Lne → Lne) (a i : Nat) : (s.modLne f).bit a i = s.bit a i := rfl
@[simp] theorem State.modLane_reg (n : Nat) (f : Lane → Lane) (a : Nat) : (s.modLane n f).reg a = s.reg a := rfl
@[simp] theorem State.modLane_fld (n : Nat) (f : Lane → Lane) (a hi lo : Nat) : (s.modLane n f).fld a hi lo = s.fld a hi lo := rfl
@[simp] theorem State.modLane_bit (n : Nat) (f : Lane → Lane) (a i : Nat) : (s.modLane n f).bit a i = s.bit a i := rfl
@[simp] theorem State.modPort_reg (q : Nat) (f : Port → Port) (a : Nat) : (s.modPort q f).reg a = s.reg a := rfl
@[simp] theorem State.modPort_fld (q : Nat) (f : Port → Port) (a hi lo : Nat) : (s.modPort q f).fld a hi lo = s.fld a hi lo := rfl
@[simp] theorem State.modPort_bit (q : Nat) (f : Port → Port) (a i : Nat) : (s.modPort q f).bit a i = s.bit a i := rfl
@[simp] theorem State.modFhp_reg (f : Fhp → Fhp) (a : Nat) : (s.modFhp f).reg a = s.reg a := rfl
@[simp] theorem State.modFhp_fld (f : Fhp → Fhp) (a hi lo : Nat) : (s.modFhp f).fld a hi lo = s.fld a hi lo := rfl
@[simp] theorem State.modFhp_bit (f : Fhp → Fhp) (a i : Nat) : (s.modFhp f).bit a i = s.bit a i := rfl
@[simp] theorem State.modFlock_reg (k : Nat) (f : FlockSt → FlockSt) (a : Nat) : (s.modFlock k f).reg a = s.reg a := rfl
@[simp] theorem State.modFlock_fld (k : Nat) (f : FlockSt → FlockSt) (a hi lo : Nat) : (s.modFlock k f).fld a hi lo = s.fld a hi lo := rfl
@[simp] theorem State.modFlock_bit (k : Nat) (f : FlockSt → FlockSt) (a i : Nat) : (s.modFlock k f).bit a i = s.bit a i := rfl
@[simp] theorem State.modTim_reg (f : Tim → Tim) (a : Nat) : (s.modTim f).reg a = s.reg a := rfl
@[simp] theorem State.modTim_fld (f : Tim → Tim) (a hi lo : Nat) : (s.modTim f).fld a hi lo = s.fld a hi lo := rfl
@[simp] theorem State.modTim_bit (f : Tim → Tim) (a i : Nat) : (s.modTim f).bit a i = s.bit a i := rfl
@[simp] theorem State.modCas_reg (f : Cas → Cas) (a : Nat) : (s.modCas f).reg a = s.reg a := rfl
@[simp] theorem State.modCas_fld (f : Cas → Cas) (a hi lo : Nat) : (s.modCas f).fld a hi lo = s.fld a hi lo := rfl
@[simp] theorem State.modCas_bit (f : Cas → Cas) (a i : Nat) : (s.modCas f).bit a i = s.bit a i := rfl
@[simp] theorem State.modNbr_reg (n : Nat) (f : Nbr → Nbr) (a : Nat) : (s.modNbr n f).reg a = s.reg a := rfl
@[simp] theorem State.modNbr_fld (n : Nat) (f : Nbr → Nbr) (a hi lo : Nat) : (s.modNbr n f).fld a hi lo = s.fld a hi lo := rfl
@[simp] theorem State.modNbr_bit (n : Nat) (f : Nbr → Nbr) (a i : Nat) : (s.modNbr n f).bit a i = s.bit a i := rfl
@[simp] theorem State.modAcq_reg (f : Acq → Acq) (a : Nat) : (s.modAcq f).reg a = s.reg a := rfl
@[simp] theorem State.modAcq_fld (f : Acq → Acq) (a hi lo : Nat) : (s.modAcq f).fld a hi lo = s.fld a hi lo := rfl
@[simp] theorem State.modAcq_bit (f : Acq → Acq) (a i : Nat) : (s.modAcq f).bit a i = s.bit a i := rfl
@[simp] theorem State.modStream_reg (n : Nat) (f : Stream → Stream) (a : Nat) : (s.modStream n f).reg a = s.reg a := rfl
@[simp] theorem State.modStream_fld (n : Nat) (f : Stream → Stream) (a hi lo : Nat) : (s.modStream n f).fld a hi lo = s.fld a hi lo := rfl
@[simp] theorem State.modStream_bit (n : Nat) (f : Stream → Stream) (a i : Nat) : (s.modStream n f).bit a i = s.bit a i := rfl
@[simp] theorem State.modMon_reg (n : Nat) (f : MonChain → MonChain) (a : Nat) : (s.modMon n f).reg a = s.reg a := rfl
@[simp] theorem State.modMon_fld (n : Nat) (f : MonChain → MonChain) (a hi lo : Nat) : (s.modMon n f).fld a hi lo = s.fld a hi lo := rfl
@[simp] theorem State.modMon_bit (n : Nat) (f : MonChain → MonChain) (a i : Nat) : (s.modMon n f).bit a i = s.bit a i := rfl
@[simp] theorem State.modMons_reg (f : Vector MonChain 8 → Vector MonChain 8) (a : Nat) : (s.modMons f).reg a = s.reg a := rfl
@[simp] theorem State.modMons_fld (f : Vector MonChain 8 → Vector MonChain 8) (a hi lo : Nat) : (s.modMons f).fld a hi lo = s.fld a hi lo := rfl
@[simp] theorem State.modMons_bit (f : Vector MonChain 8 → Vector MonChain 8) (a i : Nat) : (s.modMons f).bit a i = s.bit a i := rfl
@[simp] theorem State.modDrc_reg (f : Drc → Drc) (a : Nat) : (s.modDrc f).reg a = s.reg a := rfl
@[simp] theorem State.modDrc_fld (f : Drc → Drc) (a hi lo : Nat) : (s.modDrc f).fld a hi lo = s.fld a hi lo := rfl
@[simp] theorem State.modDrc_bit (f : Drc → Drc) (a i : Nat) : (s.modDrc f).bit a i = s.bit a i := rfl
@[simp] theorem State.modDma_reg (f : Dma → Dma) (a : Nat) : (s.modDma f).reg a = s.reg a := rfl
@[simp] theorem State.modDma_fld (f : Dma → Dma) (a hi lo : Nat) : (s.modDma f).fld a hi lo = s.fld a hi lo := rfl
@[simp] theorem State.modDma_bit (f : Dma → Dma) (a i : Nat) : (s.modDma f).bit a i = s.bit a i := rfl
@[simp] theorem State.modCh_reg (c : Nat) (f : DmaCh → DmaCh) (a : Nat) : (s.modCh c f).reg a = s.reg a := rfl
@[simp] theorem State.modCh_fld (c : Nat) (f : DmaCh → DmaCh) (a hi lo : Nat) : (s.modCh c f).fld a hi lo = s.fld a hi lo := rfl
@[simp] theorem State.modCh_bit (c : Nat) (f : DmaCh → DmaCh) (a i : Nat) : (s.modCh c f).bit a i = s.bit a i := rfl
@[simp] theorem State.modHka_reg (f : Hka → Hka) (a : Nat) : (s.modHka f).reg a = s.reg a := rfl
@[simp] theorem State.modHka_fld (f : Hka → Hka) (a hi lo : Nat) : (s.modHka f).fld a hi lo = s.fld a hi lo := rfl
@[simp] theorem State.modHka_bit (f : Hka → Hka) (a i : Nat) : (s.modHka f).bit a i = s.bit a i := rfl
@[simp] theorem State.modBda_reg (f : Bda → Bda) (a : Nat) : (s.modBda f).reg a = s.reg a := rfl
@[simp] theorem State.modBda_fld (f : Bda → Bda) (a hi lo : Nat) : (s.modBda f).fld a hi lo = s.fld a hi lo := rfl
@[simp] theorem State.modBda_bit (f : Bda → Bda) (a i : Nat) : (s.modBda f).bit a i = s.bit a i := rfl
@[simp] theorem State.modOut_reg (n : Nat) (f : BOut → BOut) (a : Nat) : (s.modOut n f).reg a = s.reg a := rfl
@[simp] theorem State.modOut_fld (n : Nat) (f : BOut → BOut) (a hi lo : Nat) : (s.modOut n f).fld a hi lo = s.fld a hi lo := rfl
@[simp] theorem State.modOut_bit (n : Nat) (f : BOut → BOut) (a i : Nat) : (s.modOut n f).bit a i = s.bit a i := rfl
@[simp] theorem State.modThm_reg (f : Thm → Thm) (a : Nat) : (s.modThm f).reg a = s.reg a := rfl
@[simp] theorem State.modThm_fld (f : Thm → Thm) (a hi lo : Nat) : (s.modThm f).fld a hi lo = s.fld a hi lo := rfl
@[simp] theorem State.modThm_bit (f : Thm → Thm) (a i : Nat) : (s.modThm f).bit a i = s.bit a i := rfl
@[simp] theorem State.modZone_reg (z : Nat) (f : Zone → Zone) (a : Nat) : (s.modZone z f).reg a = s.reg a := rfl
@[simp] theorem State.modZone_fld (z : Nat) (f : Zone → Zone) (a hi lo : Nat) : (s.modZone z f).fld a hi lo = s.fld a hi lo := rfl
@[simp] theorem State.modZone_bit (z : Nat) (f : Zone → Zone) (a i : Nat) : (s.modZone z f).bit a i = s.bit a i := rfl
@[simp] theorem State.modSensor_reg (i : Nat) (f : Sensor → Sensor) (a : Nat) : (s.modSensor i f).reg a = s.reg a := rfl
@[simp] theorem State.modSensor_fld (i : Nat) (f : Sensor → Sensor) (a hi lo : Nat) : (s.modSensor i f).fld a hi lo = s.fld a hi lo := rfl
@[simp] theorem State.modSensor_bit (i : Nat) (f : Sensor → Sensor) (a i : Nat) : (s.modSensor i f).bit a i = s.bit a i := rfl
@[simp] theorem State.modSlot_reg (ul : Bool) (l : Nat) (f : Slot → Slot) (a : Nat) : (s.modSlot ul l f).reg a = s.reg a := by
  cases ul <;> rfl
@[simp] theorem State.modSlot_pending (ul : Bool) (l : Nat) (f : Slot → Slot) : (s.modSlot ul l f).pending = s.pending := by
  cases ul <;> rfl
@[simp] theorem State.modSlot_fuse (ul : Bool) (l : Nat) (f : Slot → Slot) : (s.modSlot ul l f).fuse = s.fuse := by
  cases ul <;> rfl
@[simp] theorem State.modSlot_pins (ul : Bool) (l : Nat) (f : Slot → Slot) : (s.modSlot ul l f).pins = s.pins := by
  cases ul <;> rfl
@[simp] theorem State.modSlot_time (ul : Bool) (l : Nat) (f : Slot → Slot) : (s.modSlot ul l f).time = s.time := by
  cases ul <;> rfl
@[simp] theorem State.modSlot_regs (ul : Bool) (l : Nat) (f : Slot → Slot) : (s.modSlot ul l f).regs = s.regs := by
  cases ul <;> rfl
@[simp] theorem State.modSlot_aonRegs (ul : Bool) (l : Nat) (f : Slot → Slot) : (s.modSlot ul l f).aonRegs = s.aonRegs := by
  cases ul <;> rfl
@[simp] theorem State.modSlot_glb (ul : Bool) (l : Nat) (f : Slot → Slot) : (s.modSlot ul l f).glb = s.glb := by
  cases ul <;> rfl
@[simp] theorem State.modSlot_nvs (ul : Bool) (l : Nat) (f : Slot → Slot) : (s.modSlot ul l f).nvs = s.nvs := by
  cases ul <;> rfl
@[simp] theorem State.modSlot_pwr (ul : Bool) (l : Nat) (f : Slot → Slot) : (s.modSlot ul l f).pwr = s.pwr := by
  cases ul <;> rfl
@[simp] theorem State.modSlot_pstate (ul : Bool) (l : Nat) (f : Slot → Slot) : (s.modSlot ul l f).pstate = s.pstate := by
  cases ul <;> rfl
@[simp] theorem State.modSlot_wrp (ul : Bool) (l : Nat) (f : Slot → Slot) : (s.modSlot ul l f).wrp = s.wrp := by
  cases ul <;> rfl
@[simp] theorem State.modSlot_paths (ul : Bool) (l : Nat) (f : Slot → Slot) : (s.modSlot ul l f).paths = s.paths := by
  cases ul <;> rfl
@[simp] theorem State.modSlot_syn (ul : Bool) (l : Nat) (f : Slot → Slot) : (s.modSlot ul l f).syn = s.syn := by
  cases ul <;> rfl
@[simp] theorem State.modSlot_fft (ul : Bool) (l : Nat) (f : Slot → Slot) : (s.modSlot ul l f).fft = s.fft := by
  cases ul <;> rfl
@[simp] theorem State.modSlot_dpd (ul : Bool) (l : Nat) (f : Slot → Slot) : (s.modSlot ul l f).dpd = s.dpd := by
  cases ul <;> rfl
@[simp] theorem State.modSlot_rad (ul : Bool) (l : Nat) (f : Slot → Slot) : (s.modSlot ul l f).rad = s.rad := by
  cases ul <;> rfl
@[simp] theorem State.modSlot_lne (ul : Bool) (l : Nat) (f : Slot → Slot) : (s.modSlot ul l f).lne = s.lne := by
  cases ul <;> rfl
@[simp] theorem State.modSlot_fhp (ul : Bool) (l : Nat) (f : Slot → Slot) : (s.modSlot ul l f).fhp = s.fhp := by
  cases ul <;> rfl
@[simp] theorem State.modSlot_tim (ul : Bool) (l : Nat) (f : Slot → Slot) : (s.modSlot ul l f).tim = s.tim := by
  cases ul <;> rfl
@[simp] theorem State.modSlot_cas (ul : Bool) (l : Nat) (f : Slot → Slot) : (s.modSlot ul l f).cas = s.cas := by
  cases ul <;> rfl
@[simp] theorem State.modSlot_acq (ul : Bool) (l : Nat) (f : Slot → Slot) : (s.modSlot ul l f).acq = s.acq := by
  cases ul <;> rfl
@[simp] theorem State.modSlot_mon (ul : Bool) (l : Nat) (f : Slot → Slot) : (s.modSlot ul l f).mon = s.mon := by
  cases ul <;> rfl
@[simp] theorem State.modSlot_drc (ul : Bool) (l : Nat) (f : Slot → Slot) : (s.modSlot ul l f).drc = s.drc := by
  cases ul <;> rfl
@[simp] theorem State.modSlot_dma (ul : Bool) (l : Nat) (f : Slot → Slot) : (s.modSlot ul l f).dma = s.dma := by
  cases ul <;> rfl
@[simp] theorem State.modSlot_hka (ul : Bool) (l : Nat) (f : Slot → Slot) : (s.modSlot ul l f).hka = s.hka := by
  cases ul <;> rfl
@[simp] theorem State.modSlot_bda (ul : Bool) (l : Nat) (f : Slot → Slot) : (s.modSlot ul l f).bda = s.bda := by
  cases ul <;> rfl
@[simp] theorem State.modSlot_thm (ul : Bool) (l : Nat) (f : Slot → Slot) : (s.modSlot ul l f).thm = s.thm := by
  cases ul <;> rfl
@[simp] theorem State.modSlot_rnd (ul : Bool) (l : Nat) (f : Slot → Slot) : (s.modSlot ul l f).rnd = s.rnd := by
  cases ul <;> rfl

/-! ### Registers -/

@[simp] theorem State.setReg_pending (a : Nat) (w : Word) : (s.setReg a w).pending = s.pending := by
  unfold State.setReg; split <;> rfl
@[simp] theorem State.setReg_fuse (a : Nat) (w : Word) : (s.setReg a w).fuse = s.fuse := by
  unfold State.setReg; split <;> rfl
@[simp] theorem State.setReg_pins (a : Nat) (w : Word) : (s.setReg a w).pins = s.pins := by
  unfold State.setReg; split <;> rfl
@[simp] theorem State.setReg_time (a : Nat) (w : Word) : (s.setReg a w).time = s.time := by
  unfold State.setReg; split <;> rfl
@[simp] theorem State.setReg_glb (a : Nat) (w : Word) : (s.setReg a w).glb = s.glb := by
  unfold State.setReg; split <;> rfl
@[simp] theorem State.setReg_nvs (a : Nat) (w : Word) : (s.setReg a w).nvs = s.nvs := by
  unfold State.setReg; split <;> rfl
@[simp] theorem State.setReg_pwr (a : Nat) (w : Word) : (s.setReg a w).pwr = s.pwr := by
  unfold State.setReg; split <;> rfl
@[simp] theorem State.setReg_pstate (a : Nat) (w : Word) : (s.setReg a w).pstate = s.pstate := by
  unfold State.setReg; split <;> rfl
@[simp] theorem State.setReg_wrp (a : Nat) (w : Word) : (s.setReg a w).wrp = s.wrp := by
  unfold State.setReg; split <;> rfl
@[simp] theorem State.setReg_paths (a : Nat) (w : Word) : (s.setReg a w).paths = s.paths := by
  unfold State.setReg; split <;> rfl
@[simp] theorem State.setReg_syn (a : Nat) (w : Word) : (s.setReg a w).syn = s.syn := by
  unfold State.setReg; split <;> rfl
@[simp] theorem State.setReg_skn (a : Nat) (w : Word) : (s.setReg a w).skn = s.skn := by
  unfold State.setReg; split <;> rfl
@[simp] theorem State.setReg_fft (a : Nat) (w : Word) : (s.setReg a w).fft = s.fft := by
  unfold State.setReg; split <;> rfl
@[simp] theorem State.setReg_dpd (a : Nat) (w : Word) : (s.setReg a w).dpd = s.dpd := by
  unfold State.setReg; split <;> rfl
@[simp] theorem State.setReg_rad (a : Nat) (w : Word) : (s.setReg a w).rad = s.rad := by
  unfold State.setReg; split <;> rfl
@[simp] theorem State.setReg_lne (a : Nat) (w : Word) : (s.setReg a w).lne = s.lne := by
  unfold State.setReg; split <;> rfl
@[simp] theorem State.setReg_fhp (a : Nat) (w : Word) : (s.setReg a w).fhp = s.fhp := by
  unfold State.setReg; split <;> rfl
@[simp] theorem State.setReg_tim (a : Nat) (w : Word) : (s.setReg a w).tim = s.tim := by
  unfold State.setReg; split <;> rfl
@[simp] theorem State.setReg_cas (a : Nat) (w : Word) : (s.setReg a w).cas = s.cas := by
  unfold State.setReg; split <;> rfl
@[simp] theorem State.setReg_acq (a : Nat) (w : Word) : (s.setReg a w).acq = s.acq := by
  unfold State.setReg; split <;> rfl
@[simp] theorem State.setReg_mon (a : Nat) (w : Word) : (s.setReg a w).mon = s.mon := by
  unfold State.setReg; split <;> rfl
@[simp] theorem State.setReg_drc (a : Nat) (w : Word) : (s.setReg a w).drc = s.drc := by
  unfold State.setReg; split <;> rfl
@[simp] theorem State.setReg_dma (a : Nat) (w : Word) : (s.setReg a w).dma = s.dma := by
  unfold State.setReg; split <;> rfl
@[simp] theorem State.setReg_hka (a : Nat) (w : Word) : (s.setReg a w).hka = s.hka := by
  unfold State.setReg; split <;> rfl
@[simp] theorem State.setReg_bda (a : Nat) (w : Word) : (s.setReg a w).bda = s.bda := by
  unfold State.setReg; split <;> rfl
@[simp] theorem State.setReg_thm (a : Nat) (w : Word) : (s.setReg a w).thm = s.thm := by
  unfold State.setReg; split <;> rfl
@[simp] theorem State.setReg_rnd (a : Nat) (w : Word) : (s.setReg a w).rnd = s.rnd := by
  unfold State.setReg; split <;> rfl
@[simp] theorem State.setFld_pending (a hi lo v : Nat) : (s.setFld a hi lo v).pending = s.pending := State.setReg_pending ..
@[simp] theorem State.setFld_fuse (a hi lo v : Nat) : (s.setFld a hi lo v).fuse = s.fuse := State.setReg_fuse ..
@[simp] theorem State.setFld_pins (a hi lo v : Nat) : (s.setFld a hi lo v).pins = s.pins := State.setReg_pins ..
@[simp] theorem State.setFld_time (a hi lo v : Nat) : (s.setFld a hi lo v).time = s.time := State.setReg_time ..
@[simp] theorem State.setFld_glb (a hi lo v : Nat) : (s.setFld a hi lo v).glb = s.glb := State.setReg_glb ..
@[simp] theorem State.setFld_nvs (a hi lo v : Nat) : (s.setFld a hi lo v).nvs = s.nvs := State.setReg_nvs ..
@[simp] theorem State.setFld_pwr (a hi lo v : Nat) : (s.setFld a hi lo v).pwr = s.pwr := State.setReg_pwr ..
@[simp] theorem State.setFld_pstate (a hi lo v : Nat) : (s.setFld a hi lo v).pstate = s.pstate := State.setReg_pstate ..
@[simp] theorem State.setFld_wrp (a hi lo v : Nat) : (s.setFld a hi lo v).wrp = s.wrp := State.setReg_wrp ..
@[simp] theorem State.setFld_paths (a hi lo v : Nat) : (s.setFld a hi lo v).paths = s.paths := State.setReg_paths ..
@[simp] theorem State.setFld_syn (a hi lo v : Nat) : (s.setFld a hi lo v).syn = s.syn := State.setReg_syn ..
@[simp] theorem State.setFld_skn (a hi lo v : Nat) : (s.setFld a hi lo v).skn = s.skn := State.setReg_skn ..
@[simp] theorem State.setFld_fft (a hi lo v : Nat) : (s.setFld a hi lo v).fft = s.fft := State.setReg_fft ..
@[simp] theorem State.setFld_dpd (a hi lo v : Nat) : (s.setFld a hi lo v).dpd = s.dpd := State.setReg_dpd ..
@[simp] theorem State.setFld_rad (a hi lo v : Nat) : (s.setFld a hi lo v).rad = s.rad := State.setReg_rad ..
@[simp] theorem State.setFld_lne (a hi lo v : Nat) : (s.setFld a hi lo v).lne = s.lne := State.setReg_lne ..
@[simp] theorem State.setFld_fhp (a hi lo v : Nat) : (s.setFld a hi lo v).fhp = s.fhp := State.setReg_fhp ..
@[simp] theorem State.setFld_tim (a hi lo v : Nat) : (s.setFld a hi lo v).tim = s.tim := State.setReg_tim ..
@[simp] theorem State.setFld_cas (a hi lo v : Nat) : (s.setFld a hi lo v).cas = s.cas := State.setReg_cas ..
@[simp] theorem State.setFld_acq (a hi lo v : Nat) : (s.setFld a hi lo v).acq = s.acq := State.setReg_acq ..
@[simp] theorem State.setFld_mon (a hi lo v : Nat) : (s.setFld a hi lo v).mon = s.mon := State.setReg_mon ..
@[simp] theorem State.setFld_drc (a hi lo v : Nat) : (s.setFld a hi lo v).drc = s.drc := State.setReg_drc ..
@[simp] theorem State.setFld_dma (a hi lo v : Nat) : (s.setFld a hi lo v).dma = s.dma := State.setReg_dma ..
@[simp] theorem State.setFld_hka (a hi lo v : Nat) : (s.setFld a hi lo v).hka = s.hka := State.setReg_hka ..
@[simp] theorem State.setFld_bda (a hi lo v : Nat) : (s.setFld a hi lo v).bda = s.bda := State.setReg_bda ..
@[simp] theorem State.setFld_thm (a hi lo v : Nat) : (s.setFld a hi lo v).thm = s.thm := State.setReg_thm ..
@[simp] theorem State.setFld_rnd (a hi lo v : Nat) : (s.setFld a hi lo v).rnd = s.rnd := State.setReg_rnd ..
@[simp] theorem State.raise_pending (a b : Nat) : (s.raise a b).pending = s.pending := by
  unfold State.raise; split
  · rfl
  · exact State.setReg_pending ..
@[simp] theorem State.raise_fuse (a b : Nat) : (s.raise a b).fuse = s.fuse := by
  unfold State.raise; split
  · rfl
  · exact State.setReg_fuse ..
@[simp] theorem State.raise_pins (a b : Nat) : (s.raise a b).pins = s.pins := by
  unfold State.raise; split
  · rfl
  · exact State.setReg_pins ..
@[simp] theorem State.raise_time (a b : Nat) : (s.raise a b).time = s.time := by
  unfold State.raise; split
  · rfl
  · exact State.setReg_time ..
@[simp] theorem State.raise_glb (a b : Nat) : (s.raise a b).glb = s.glb := by
  unfold State.raise; split
  · rfl
  · exact State.setReg_glb ..
@[simp] theorem State.raise_nvs (a b : Nat) : (s.raise a b).nvs = s.nvs := by
  unfold State.raise; split
  · rfl
  · exact State.setReg_nvs ..
@[simp] theorem State.raise_pwr (a b : Nat) : (s.raise a b).pwr = s.pwr := by
  unfold State.raise; split
  · rfl
  · exact State.setReg_pwr ..
@[simp] theorem State.raise_pstate (a b : Nat) : (s.raise a b).pstate = s.pstate := by
  unfold State.raise; split
  · rfl
  · exact State.setReg_pstate ..
@[simp] theorem State.raise_wrp (a b : Nat) : (s.raise a b).wrp = s.wrp := by
  unfold State.raise; split
  · rfl
  · exact State.setReg_wrp ..
@[simp] theorem State.raise_paths (a b : Nat) : (s.raise a b).paths = s.paths := by
  unfold State.raise; split
  · rfl
  · exact State.setReg_paths ..
@[simp] theorem State.raise_syn (a b : Nat) : (s.raise a b).syn = s.syn := by
  unfold State.raise; split
  · rfl
  · exact State.setReg_syn ..
@[simp] theorem State.raise_skn (a b : Nat) : (s.raise a b).skn = s.skn := by
  unfold State.raise; split
  · rfl
  · exact State.setReg_skn ..
@[simp] theorem State.raise_fft (a b : Nat) : (s.raise a b).fft = s.fft := by
  unfold State.raise; split
  · rfl
  · exact State.setReg_fft ..
@[simp] theorem State.raise_dpd (a b : Nat) : (s.raise a b).dpd = s.dpd := by
  unfold State.raise; split
  · rfl
  · exact State.setReg_dpd ..
@[simp] theorem State.raise_rad (a b : Nat) : (s.raise a b).rad = s.rad := by
  unfold State.raise; split
  · rfl
  · exact State.setReg_rad ..
@[simp] theorem State.raise_lne (a b : Nat) : (s.raise a b).lne = s.lne := by
  unfold State.raise; split
  · rfl
  · exact State.setReg_lne ..
@[simp] theorem State.raise_fhp (a b : Nat) : (s.raise a b).fhp = s.fhp := by
  unfold State.raise; split
  · rfl
  · exact State.setReg_fhp ..
@[simp] theorem State.raise_tim (a b : Nat) : (s.raise a b).tim = s.tim := by
  unfold State.raise; split
  · rfl
  · exact State.setReg_tim ..
@[simp] theorem State.raise_cas (a b : Nat) : (s.raise a b).cas = s.cas := by
  unfold State.raise; split
  · rfl
  · exact State.setReg_cas ..
@[simp] theorem State.raise_acq (a b : Nat) : (s.raise a b).acq = s.acq := by
  unfold State.raise; split
  · rfl
  · exact State.setReg_acq ..
@[simp] theorem State.raise_mon (a b : Nat) : (s.raise a b).mon = s.mon := by
  unfold State.raise; split
  · rfl
  · exact State.setReg_mon ..
@[simp] theorem State.raise_drc (a b : Nat) : (s.raise a b).drc = s.drc := by
  unfold State.raise; split
  · rfl
  · exact State.setReg_drc ..
@[simp] theorem State.raise_dma (a b : Nat) : (s.raise a b).dma = s.dma := by
  unfold State.raise; split
  · rfl
  · exact State.setReg_dma ..
@[simp] theorem State.raise_hka (a b : Nat) : (s.raise a b).hka = s.hka := by
  unfold State.raise; split
  · rfl
  · exact State.setReg_hka ..
@[simp] theorem State.raise_bda (a b : Nat) : (s.raise a b).bda = s.bda := by
  unfold State.raise; split
  · rfl
  · exact State.setReg_bda ..
@[simp] theorem State.raise_thm (a b : Nat) : (s.raise a b).thm = s.thm := by
  unfold State.raise; split
  · rfl
  · exact State.setReg_thm ..
@[simp] theorem State.raise_rnd (a b : Nat) : (s.raise a b).rnd = s.rnd := by
  unfold State.raise; split
  · rfl
  · exact State.setReg_rnd ..
@[simp] theorem State.addHi_pending (a n : Nat) : (s.addHi a n).pending = s.pending := State.setFld_pending ..
@[simp] theorem State.addHi_fuse (a n : Nat) : (s.addHi a n).fuse = s.fuse := State.setFld_fuse ..
@[simp] theorem State.addHi_pins (a n : Nat) : (s.addHi a n).pins = s.pins := State.setFld_pins ..
@[simp] theorem State.addHi_time (a n : Nat) : (s.addHi a n).time = s.time := State.setFld_time ..
@[simp] theorem State.addHi_glb (a n : Nat) : (s.addHi a n).glb = s.glb := State.setFld_glb ..
@[simp] theorem State.addHi_nvs (a n : Nat) : (s.addHi a n).nvs = s.nvs := State.setFld_nvs ..
@[simp] theorem State.addHi_pwr (a n : Nat) : (s.addHi a n).pwr = s.pwr := State.setFld_pwr ..
@[simp] theorem State.addHi_pstate (a n : Nat) : (s.addHi a n).pstate = s.pstate := State.setFld_pstate ..
@[simp] theorem State.addHi_wrp (a n : Nat) : (s.addHi a n).wrp = s.wrp := State.setFld_wrp ..
@[simp] theorem State.addHi_paths (a n : Nat) : (s.addHi a n).paths = s.paths := State.setFld_paths ..
@[simp] theorem State.addHi_syn (a n : Nat) : (s.addHi a n).syn = s.syn := State.setFld_syn ..
@[simp] theorem State.addHi_skn (a n : Nat) : (s.addHi a n).skn = s.skn := State.setFld_skn ..
@[simp] theorem State.addHi_fft (a n : Nat) : (s.addHi a n).fft = s.fft := State.setFld_fft ..
@[simp] theorem State.addHi_dpd (a n : Nat) : (s.addHi a n).dpd = s.dpd := State.setFld_dpd ..
@[simp] theorem State.addHi_rad (a n : Nat) : (s.addHi a n).rad = s.rad := State.setFld_rad ..
@[simp] theorem State.addHi_lne (a n : Nat) : (s.addHi a n).lne = s.lne := State.setFld_lne ..
@[simp] theorem State.addHi_fhp (a n : Nat) : (s.addHi a n).fhp = s.fhp := State.setFld_fhp ..
@[simp] theorem State.addHi_tim (a n : Nat) : (s.addHi a n).tim = s.tim := State.setFld_tim ..
@[simp] theorem State.addHi_cas (a n : Nat) : (s.addHi a n).cas = s.cas := State.setFld_cas ..
@[simp] theorem State.addHi_acq (a n : Nat) : (s.addHi a n).acq = s.acq := State.setFld_acq ..
@[simp] theorem State.addHi_mon (a n : Nat) : (s.addHi a n).mon = s.mon := State.setFld_mon ..
@[simp] theorem State.addHi_drc (a n : Nat) : (s.addHi a n).drc = s.drc := State.setFld_drc ..
@[simp] theorem State.addHi_dma (a n : Nat) : (s.addHi a n).dma = s.dma := State.setFld_dma ..
@[simp] theorem State.addHi_hka (a n : Nat) : (s.addHi a n).hka = s.hka := State.setFld_hka ..
@[simp] theorem State.addHi_bda (a n : Nat) : (s.addHi a n).bda = s.bda := State.setFld_bda ..
@[simp] theorem State.addHi_thm (a n : Nat) : (s.addHi a n).thm = s.thm := State.setFld_thm ..
@[simp] theorem State.addHi_rnd (a n : Nat) : (s.addHi a n).rnd = s.rnd := State.setFld_rnd ..
@[simp] theorem State.addLo_pending (a n : Nat) : (s.addLo a n).pending = s.pending := State.setFld_pending ..
@[simp] theorem State.addLo_fuse (a n : Nat) : (s.addLo a n).fuse = s.fuse := State.setFld_fuse ..
@[simp] theorem State.addLo_pins (a n : Nat) : (s.addLo a n).pins = s.pins := State.setFld_pins ..
@[simp] theorem State.addLo_time (a n : Nat) : (s.addLo a n).time = s.time := State.setFld_time ..
@[simp] theorem State.addLo_glb (a n : Nat) : (s.addLo a n).glb = s.glb := State.setFld_glb ..
@[simp] theorem State.addLo_nvs (a n : Nat) : (s.addLo a n).nvs = s.nvs := State.setFld_nvs ..
@[simp] theorem State.addLo_pwr (a n : Nat) : (s.addLo a n).pwr = s.pwr := State.setFld_pwr ..
@[simp] theorem State.addLo_pstate (a n : Nat) : (s.addLo a n).pstate = s.pstate := State.setFld_pstate ..
@[simp] theorem State.addLo_wrp (a n : Nat) : (s.addLo a n).wrp = s.wrp := State.setFld_wrp ..
@[simp] theorem State.addLo_paths (a n : Nat) : (s.addLo a n).paths = s.paths := State.setFld_paths ..
@[simp] theorem State.addLo_syn (a n : Nat) : (s.addLo a n).syn = s.syn := State.setFld_syn ..
@[simp] theorem State.addLo_skn (a n : Nat) : (s.addLo a n).skn = s.skn := State.setFld_skn ..
@[simp] theorem State.addLo_fft (a n : Nat) : (s.addLo a n).fft = s.fft := State.setFld_fft ..
@[simp] theorem State.addLo_dpd (a n : Nat) : (s.addLo a n).dpd = s.dpd := State.setFld_dpd ..
@[simp] theorem State.addLo_rad (a n : Nat) : (s.addLo a n).rad = s.rad := State.setFld_rad ..
@[simp] theorem State.addLo_lne (a n : Nat) : (s.addLo a n).lne = s.lne := State.setFld_lne ..
@[simp] theorem State.addLo_fhp (a n : Nat) : (s.addLo a n).fhp = s.fhp := State.setFld_fhp ..
@[simp] theorem State.addLo_tim (a n : Nat) : (s.addLo a n).tim = s.tim := State.setFld_tim ..
@[simp] theorem State.addLo_cas (a n : Nat) : (s.addLo a n).cas = s.cas := State.setFld_cas ..
@[simp] theorem State.addLo_acq (a n : Nat) : (s.addLo a n).acq = s.acq := State.setFld_acq ..
@[simp] theorem State.addLo_mon (a n : Nat) : (s.addLo a n).mon = s.mon := State.setFld_mon ..
@[simp] theorem State.addLo_drc (a n : Nat) : (s.addLo a n).drc = s.drc := State.setFld_drc ..
@[simp] theorem State.addLo_dma (a n : Nat) : (s.addLo a n).dma = s.dma := State.setFld_dma ..
@[simp] theorem State.addLo_hka (a n : Nat) : (s.addLo a n).hka = s.hka := State.setFld_hka ..
@[simp] theorem State.addLo_bda (a n : Nat) : (s.addLo a n).bda = s.bda := State.setFld_bda ..
@[simp] theorem State.addLo_thm (a n : Nat) : (s.addLo a n).thm = s.thm := State.setFld_thm ..
@[simp] theorem State.addLo_rnd (a n : Nat) : (s.addLo a n).rnd = s.rnd := State.setFld_rnd ..
@[simp] theorem State.addReg_pending (a n : Nat) : (s.addReg a n).pending = s.pending := State.setReg_pending ..
@[simp] theorem State.addReg_fuse (a n : Nat) : (s.addReg a n).fuse = s.fuse := State.setReg_fuse ..
@[simp] theorem State.addReg_pins (a n : Nat) : (s.addReg a n).pins = s.pins := State.setReg_pins ..
@[simp] theorem State.addReg_time (a n : Nat) : (s.addReg a n).time = s.time := State.setReg_time ..
@[simp] theorem State.addReg_glb (a n : Nat) : (s.addReg a n).glb = s.glb := State.setReg_glb ..
@[simp] theorem State.addReg_nvs (a n : Nat) : (s.addReg a n).nvs = s.nvs := State.setReg_nvs ..
@[simp] theorem State.addReg_pwr (a n : Nat) : (s.addReg a n).pwr = s.pwr := State.setReg_pwr ..
@[simp] theorem State.addReg_pstate (a n : Nat) : (s.addReg a n).pstate = s.pstate := State.setReg_pstate ..
@[simp] theorem State.addReg_wrp (a n : Nat) : (s.addReg a n).wrp = s.wrp := State.setReg_wrp ..
@[simp] theorem State.addReg_paths (a n : Nat) : (s.addReg a n).paths = s.paths := State.setReg_paths ..
@[simp] theorem State.addReg_syn (a n : Nat) : (s.addReg a n).syn = s.syn := State.setReg_syn ..
@[simp] theorem State.addReg_skn (a n : Nat) : (s.addReg a n).skn = s.skn := State.setReg_skn ..
@[simp] theorem State.addReg_fft (a n : Nat) : (s.addReg a n).fft = s.fft := State.setReg_fft ..
@[simp] theorem State.addReg_dpd (a n : Nat) : (s.addReg a n).dpd = s.dpd := State.setReg_dpd ..
@[simp] theorem State.addReg_rad (a n : Nat) : (s.addReg a n).rad = s.rad := State.setReg_rad ..
@[simp] theorem State.addReg_lne (a n : Nat) : (s.addReg a n).lne = s.lne := State.setReg_lne ..
@[simp] theorem State.addReg_fhp (a n : Nat) : (s.addReg a n).fhp = s.fhp := State.setReg_fhp ..
@[simp] theorem State.addReg_tim (a n : Nat) : (s.addReg a n).tim = s.tim := State.setReg_tim ..
@[simp] theorem State.addReg_cas (a n : Nat) : (s.addReg a n).cas = s.cas := State.setReg_cas ..
@[simp] theorem State.addReg_acq (a n : Nat) : (s.addReg a n).acq = s.acq := State.setReg_acq ..
@[simp] theorem State.addReg_mon (a n : Nat) : (s.addReg a n).mon = s.mon := State.setReg_mon ..
@[simp] theorem State.addReg_drc (a n : Nat) : (s.addReg a n).drc = s.drc := State.setReg_drc ..
@[simp] theorem State.addReg_dma (a n : Nat) : (s.addReg a n).dma = s.dma := State.setReg_dma ..
@[simp] theorem State.addReg_hka (a n : Nat) : (s.addReg a n).hka = s.hka := State.setReg_hka ..
@[simp] theorem State.addReg_bda (a n : Nat) : (s.addReg a n).bda = s.bda := State.setReg_bda ..
@[simp] theorem State.addReg_thm (a n : Nat) : (s.addReg a n).thm = s.thm := State.setReg_thm ..
@[simp] theorem State.addReg_rnd (a n : Nat) : (s.addReg a n).rnd = s.rnd := State.setReg_rnd ..
@[simp] theorem State.addByte_pending (a lo n : Nat) : (s.addByte a lo n).pending = s.pending := State.setFld_pending ..
@[simp] theorem State.addByte_fuse (a lo n : Nat) : (s.addByte a lo n).fuse = s.fuse := State.setFld_fuse ..
@[simp] theorem State.addByte_pins (a lo n : Nat) : (s.addByte a lo n).pins = s.pins := State.setFld_pins ..
@[simp] theorem State.addByte_time (a lo n : Nat) : (s.addByte a lo n).time = s.time := State.setFld_time ..
@[simp] theorem State.addByte_glb (a lo n : Nat) : (s.addByte a lo n).glb = s.glb := State.setFld_glb ..
@[simp] theorem State.addByte_nvs (a lo n : Nat) : (s.addByte a lo n).nvs = s.nvs := State.setFld_nvs ..
@[simp] theorem State.addByte_pwr (a lo n : Nat) : (s.addByte a lo n).pwr = s.pwr := State.setFld_pwr ..
@[simp] theorem State.addByte_pstate (a lo n : Nat) : (s.addByte a lo n).pstate = s.pstate := State.setFld_pstate ..
@[simp] theorem State.addByte_wrp (a lo n : Nat) : (s.addByte a lo n).wrp = s.wrp := State.setFld_wrp ..
@[simp] theorem State.addByte_paths (a lo n : Nat) : (s.addByte a lo n).paths = s.paths := State.setFld_paths ..
@[simp] theorem State.addByte_syn (a lo n : Nat) : (s.addByte a lo n).syn = s.syn := State.setFld_syn ..
@[simp] theorem State.addByte_skn (a lo n : Nat) : (s.addByte a lo n).skn = s.skn := State.setFld_skn ..
@[simp] theorem State.addByte_fft (a lo n : Nat) : (s.addByte a lo n).fft = s.fft := State.setFld_fft ..
@[simp] theorem State.addByte_dpd (a lo n : Nat) : (s.addByte a lo n).dpd = s.dpd := State.setFld_dpd ..
@[simp] theorem State.addByte_rad (a lo n : Nat) : (s.addByte a lo n).rad = s.rad := State.setFld_rad ..
@[simp] theorem State.addByte_lne (a lo n : Nat) : (s.addByte a lo n).lne = s.lne := State.setFld_lne ..
@[simp] theorem State.addByte_fhp (a lo n : Nat) : (s.addByte a lo n).fhp = s.fhp := State.setFld_fhp ..
@[simp] theorem State.addByte_tim (a lo n : Nat) : (s.addByte a lo n).tim = s.tim := State.setFld_tim ..
@[simp] theorem State.addByte_cas (a lo n : Nat) : (s.addByte a lo n).cas = s.cas := State.setFld_cas ..
@[simp] theorem State.addByte_acq (a lo n : Nat) : (s.addByte a lo n).acq = s.acq := State.setFld_acq ..
@[simp] theorem State.addByte_mon (a lo n : Nat) : (s.addByte a lo n).mon = s.mon := State.setFld_mon ..
@[simp] theorem State.addByte_drc (a lo n : Nat) : (s.addByte a lo n).drc = s.drc := State.setFld_drc ..
@[simp] theorem State.addByte_dma (a lo n : Nat) : (s.addByte a lo n).dma = s.dma := State.setFld_dma ..
@[simp] theorem State.addByte_hka (a lo n : Nat) : (s.addByte a lo n).hka = s.hka := State.setFld_hka ..
@[simp] theorem State.addByte_bda (a lo n : Nat) : (s.addByte a lo n).bda = s.bda := State.setFld_bda ..
@[simp] theorem State.addByte_thm (a lo n : Nat) : (s.addByte a lo n).thm = s.thm := State.setFld_thm ..
@[simp] theorem State.addByte_rnd (a lo n : Nat) : (s.addByte a lo n).rnd = s.rnd := State.setFld_rnd ..

/-- Reading a register after a register is stored. -/
@[simp] theorem State.reg_setReg (a b : Nat) (w : Word) : (s.setReg a w).reg b = if b = a then w else s.reg b := by
  unfold State.setReg State.reg
  by_cases hba : b = a
  · subst hba
    cases hb : isAlwaysOn b <;> simp [tget_tset]
  · cases ha : isAlwaysOn a <;> cases hb : isAlwaysOn b <;> simp [tget_tset, hba]

theorem State.reg_setReg_ne {a b : Nat} (w : Word) (h : b ≠ a) : (s.setReg a w).reg b = s.reg b := by simp [h]

@[simp] theorem State.reg_setFld (a b hi lo v : Nat) : (s.setFld a hi lo v).reg b = if b = a then put (s.reg a) hi lo v else s.reg b :=
  State.reg_setReg ..

@[simp] theorem State.reg_raise (a b c : Nat) : (s.raise a b).reg c =
    if c = a ∧ absentReg s.fuse.order a = false then s.reg a ||| BitVec.ofNat 32 (2 ^ b) else s.reg c := by
  unfold State.raise
  split
  · rename_i h; simp [h]
  · rename_i h; simp [h]


theorem State.raise_reg_ne {a b c : Nat} (h : c ≠ a) : (s.raise a b).reg c = s.reg c := by simp [h]
theorem State.setFld_reg_ne {a hi lo v c : Nat} (h : c ≠ a) : (s.setFld a hi lo v).reg c = s.reg c := by simp [h]
theorem State.addHi_reg_ne {a n c : Nat} (h : c ≠ a) : (s.addHi a n).reg c = s.reg c := State.setFld_reg_ne s h
theorem State.addLo_reg_ne {a n c : Nat} (h : c ≠ a) : (s.addLo a n).reg c = s.reg c := State.setFld_reg_ne s h
theorem State.addByte_reg_ne {a lo n c : Nat} (h : c ≠ a) : (s.addByte a lo n).reg c = s.reg c := State.setFld_reg_ne s h
theorem State.addReg_reg_ne {a n c : Nat} (h : c ≠ a) : (s.addReg a n).reg c = s.reg c := State.reg_setReg_ne s _ h


/-! ### The log and the violations -/

/-- An entry of the log changes two registers alone. -/
theorem State.logEnter_reg {fresh : LogEntry} {c : Nat} (h1 : c ≠ Reg.GLB_INT_STATUS) (h2 : c ≠ Reg.GLB_LOG_LOST) :
    (s.logEnter fresh).reg c = s.reg c := by
  unfold State.logEnter; dsimp only
  generalize (decide (s.glb.log.length ≥ 128) && _) = b
  cases b
  · rw [if_neg (by decide), State.raise_reg_ne _ h1]; rfl
  · rw [if_pos rfl, State.raise_reg_ne _ h1, State.addReg_reg_ne _ h2, State.raise_reg_ne _ h1]; rfl

theorem State.logPut_reg {kind index cls : Nat} {ev : Bool} {detail : Word} {c : Nat} (h1 : c ≠ Reg.GLB_INT_STATUS) (h2 : c ≠ Reg.GLB_LOG_LOST) :
    (s.logPut kind index cls ev detail).reg c = s.reg c := by
  unfold State.logPut; dsimp only; split
  · rfl
  · split
    · split
      · rfl
      · exact State.logEnter_reg s h1 h2
    · exact State.logEnter_reg s h1 h2

theorem State.countViol_reg {kind cls c : Nat} (h : c ≠ Reg.GLB_VIOL kind (cls / 2)) : (s.countViol kind cls).reg c = s.reg c := by
  unfold State.countViol; split
  · rfl
  · split
    · exact State.addLo_reg_ne s h
    · exact State.addHi_reg_ne s h

/-- A violation changes its count and what its log entry changes. -/
theorem State.viol_reg {kind index cls : Nat} {detail : Word} {c : Nat} (h1 : c ≠ Reg.GLB_INT_STATUS) (h2 : c ≠ Reg.GLB_LOG_LOST)
    (h : c ≠ Reg.GLB_VIOL kind (cls / 2)) : (s.viol kind index cls detail).reg c = s.reg c := by
  unfold State.viol; rw [State.logPut_reg _ h1 h2, State.countViol_reg _ h]

theorem State.violSpi_reg {cls addr : Nat} {c : Nat} (h1 : c ≠ Reg.GLB_INT_STATUS) (h2 : c ≠ Reg.GLB_LOG_LOST)
    (h : c ≠ Reg.GLB_VIOL 7 (cls / 2)) : (s.violSpi cls addr).reg c = s.reg c := State.viol_reg s h1 h2 h

theorem State.refusedWrite_reg {addr : Nat} {c : Nat} (h1 : c ≠ Reg.GLB_INT_STATUS) (h2 : c ≠ Reg.GLB_LOG_LOST)
    (h : c ≠ Reg.GLB_VIOL 7 2) : (s.refusedWrite addr).reg c = s.reg c := State.viol_reg s h1 h2 h

/-- An event asserts its flag and is logged. -/
theorem State.event_reg {a b index : Nat} {detail : Word} {c : Nat} (h1 : c ≠ Reg.GLB_INT_STATUS) (h2 : c ≠ Reg.GLB_LOG_LOST) :
    (s.event a b index detail).reg c = (s.raise a b).reg c := State.logPut_reg _ h1 h2

theorem State.pathEvent_reg {p b : Nat} {detail : Word} {c : Nat} (h1 : c ≠ Reg.GLB_INT_STATUS) (h2 : c ≠ Reg.GLB_LOG_LOST) :
    (s.pathEvent p b detail).reg c = (s.raise (Reg.PTH_INT_STATUS p) b).reg c := State.logPut_reg _ h1 h2

/-- A message changes the counts of lost messages alone. -/
theorem State.post_reg {k port msg tag : Nat} {body : List Byte} {c : Nat} (h : c ≠ Reg.FHP_FLOCK_CTRL_LOST k) (h2 : c ≠ Reg.FHP_INT_STATUS) :
    (s.post k port msg tag body).reg c = s.reg c := by
  unfold State.post; dsimp only; split
  · rw [State.raise_reg_ne _ h2, State.addLo_reg_ne _ h]; rfl
  · rfl

theorem State.notice_reg {k ev detail param c : Nat} (h : c ≠ Reg.FHP_FLOCK_CTRL_LOST k) (h2 : c ≠ Reg.FHP_INT_STATUS) :
    (s.notice k ev detail param).reg c = s.reg c := by
  unfold State.notice; split
  · rfl
  · split
    · rfl
    · rw [State.post_reg _ h h2]; rfl

theorem State.noticeAll_reg {ev detail param c : Nat} (h : ∀ k, c ≠ Reg.FHP_FLOCK_CTRL_LOST k) (h2 : c ≠ Reg.FHP_INT_STATUS) :
    (s.noticeAll ev detail param).reg c = s.reg c := by
  unfold State.noticeAll forAll
  have : ∀ (l : List Nat) (t : State), (l.foldl (fun s k => s.notice k ev detail param) t).reg c = t.reg c := by
    intro l; induction l with
    | nil => intro t; rfl
    | cons k l ih => intro t; rw [List.foldl_cons, ih, State.notice_reg _ (h k) h2]
  exact this _ _

@[simp] theorem State.logEnter_pending (fresh : LogEntry) : (s.logEnter fresh).pending = s.pending := by
  unfold State.logEnter; dsimp only
  generalize (decide (s.glb.log.length ≥ 128) && _) = b
  cases b <;> simp
@[simp] theorem State.logEnter_fuse (fresh : LogEntry) : (s.logEnter fresh).fuse = s.fuse := by
  unfold State.logEnter; dsimp only
  generalize (decide (s.glb.log.length ≥ 128) && _) = b
  cases b <;> simp
@[simp] theorem State.logEnter_pins (fresh : LogEntry) : (s.logEnter fresh).pins = s.pins := by
  unfold State.logEnter; dsimp only
  generalize (decide (s.glb.log.length ≥ 128) && _) = b
  cases b <;> simp
@[simp] theorem State.logEnter_time (fresh : LogEntry) : (s.logEnter fresh).time = s.time := by
  unfold State.logEnter; dsimp only
  generalize (decide (s.glb.log.length ≥ 128) && _) = b
  cases b <;> simp
@[simp] theorem State.logEnter_nvs (fresh : LogEntry) : (s.logEnter fresh).nvs = s.nvs := by
  unfold State.logEnter; dsimp only
  generalize (decide (s.glb.log.length ≥ 128) && _) = b
  cases b <;> simp
@[simp] theorem State.logEnter_pwr (fresh : LogEntry) : (s.logEnter fresh).pwr = s.pwr := by
  unfold State.logEnter; dsimp only
  generalize (decide (s.glb.log.length ≥ 128) && _) = b
  cases b <;> simp
@[simp] theorem State.logEnter_pstate (fresh : LogEntry) : (s.logEnter fresh).pstate = s.pstate := by
  unfold State.logEnter; dsimp only
  generalize (decide (s.glb.log.length ≥ 128) && _) = b
  cases b <;> simp
@[simp] theorem State.logEnter_wrp (fresh : LogEntry) : (s.logEnter fresh).wrp = s.wrp := by
  unfold State.logEnter; dsimp only
  generalize (decide (s.glb.log.length ≥ 128) && _) = b
  cases b <;> simp
@[simp] theorem State.logEnter_paths (fresh : LogEntry) : (s.logEnter fresh).paths = s.paths := by
  unfold State.logEnter; dsimp only
  generalize (decide (s.glb.log.length ≥ 128) && _) = b
  cases b <;> simp
@[simp] theorem State.logEnter_syn (fresh : LogEntry) : (s.logEnter fresh).syn = s.syn := by
  unfold State.logEnter; dsimp only
  generalize (decide (s.glb.log.length ≥ 128) && _) = b
  cases b <;> simp
@[simp] theorem State.logEnter_skn (fresh : LogEntry) : (s.logEnter fresh).skn = s.skn := by
  unfold State.logEnter; dsimp only
  generalize (decide (s.glb.log.length ≥ 128) && _) = b
  cases b <;> simp
@[simp] theorem State.logEnter_fft (fresh : LogEntry) : (s.logEnter fresh).fft = s.fft := by
  unfold State.logEnter; dsimp only
  generalize (decide (s.glb.log.length ≥ 128) && _) = b
  cases b <;> simp
@[simp] theorem State.logEnter_dpd (fresh : LogEntry) : (s.logEnter fresh).dpd = s.dpd := by
  unfold State.logEnter; dsimp only
  generalize (decide (s.glb.log.length ≥ 128) && _) = b
  cases b <;> simp
@[simp] theorem State.logEnter_rad (fresh : LogEntry) : (s.logEnter fresh).rad = s.rad := by
  unfold State.logEnter; dsimp only
  generalize (decide (s.glb.log.length ≥ 128) && _) = b
  cases b <;> simp
@[simp] theorem State.logEnter_lne (fresh : LogEntry) : (s.logEnter fresh).lne = s.lne := by
  unfold State.logEnter; dsimp only
  generalize (decide (s.glb.log.length ≥ 128) && _) = b
  cases b <;> simp
@[simp] theorem State.logEnter_fhp (fresh : LogEntry) : (s.logEnter fresh).fhp = s.fhp := by
  unfold State.logEnter; dsimp only
  generalize (decide (s.glb.log.length ≥ 128) && _) = b
  cases b <;> simp
@[simp] theorem State.logEnter_tim (fresh : LogEntry) : (s.logEnter fresh).tim = s.tim := by
  unfold State.logEnter; dsimp only
  generalize (decide (s.glb.log.length ≥ 128) && _) = b
  cases b <;> simp
@[simp] theorem State.logEnter_cas (fresh : LogEntry) : (s.logEnter fresh).cas = s.cas := by
  unfold State.logEnter; dsimp only
  generalize (decide (s.glb.log.length ≥ 128) && _) = b
  cases b <;> simp
@[simp] theorem State.logEnter_acq (fresh : LogEntry) : (s.logEnter fresh).acq = s.acq := by
  unfold State.logEnter; dsimp only
  generalize (decide (s.glb.log.length ≥ 128) && _) = b
  cases b <;> simp
@[simp] theorem State.logEnter_mon (fresh : LogEntry) : (s.logEnter fresh).mon = s.mon := by
  unfold State.logEnter; dsimp only
  generalize (decide (s.glb.log.length ≥ 128) && _) = b
  cases b <;> simp
@[simp] theorem State.logEnter_drc (fresh : LogEntry) : (s.logEnter fresh).drc = s.drc := by
  unfold State.logEnter; dsimp only
  generalize (decide (s.glb.log.length ≥ 128) && _) = b
  cases b <;> simp
@[simp] theorem State.logEnter_dma (fresh : LogEntry) : (s.logEnter fresh).dma = s.dma := by
  unfold State.logEnter; dsimp only
  generalize (decide (s.glb.log.length ≥ 128) && _) = b
  cases b <;> simp
@[simp] theorem State.logEnter_hka (fresh : LogEntry) : (s.logEnter fresh).hka = s.hka := by
  unfold State.logEnter; dsimp only
  generalize (decide (s.glb.log.length ≥ 128) && _) = b
  cases b <;> simp
@[simp] theorem State.logEnter_bda (fresh : LogEntry) : (s.logEnter fresh).bda = s.bda := by
  unfold State.logEnter; dsimp only
  generalize (decide (s.glb.log.length ≥ 128) && _) = b
  cases b <;> simp
@[simp] theorem State.logEnter_thm (fresh : LogEntry) : (s.logEnter fresh).thm = s.thm := by
  unfold State.logEnter; dsimp only
  generalize (decide (s.glb.log.length ≥ 128) && _) = b
  cases b <;> simp
@[simp] theorem State.logEnter_rnd (fresh : LogEntry) : (s.logEnter fresh).rnd = s.rnd := by
  unfold State.logEnter; dsimp only
  generalize (decide (s.glb.log.length ≥ 128) && _) = b
  cases b <;> simp
@[simp] theorem State.logEnter_glb_dbg (fresh : LogEntry) : (s.logEnter fresh).glb.dbg = s.glb.dbg := by
  unfold State.logEnter; dsimp only
  generalize (decide (s.glb.log.length ≥ 128) && _) = b
  cases b <;> simp
@[simp] theorem State.logEnter_glb_dbgNonce (fresh : LogEntry) : (s.logEnter fresh).glb.dbgNonce = s.glb.dbgNonce := by
  unfold State.logEnter; dsimp only
  generalize (decide (s.glb.log.length ≥ 128) && _) = b
  cases b <;> simp
@[simp] theorem State.logEnter_glb_flash (fresh : LogEntry) : (s.logEnter fresh).glb.flash = s.glb.flash := by
  unfold State.logEnter; dsimp only
  generalize (decide (s.glb.log.length ≥ 128) && _) = b
  cases b <;> simp
@[simp] theorem State.logEnter_glb_flashBuf (fresh : LogEntry) : (s.logEnter fresh).glb.flashBuf = s.glb.flashBuf := by
  unfold State.logEnter; dsimp only
  generalize (decide (s.glb.log.length ≥ 128) && _) = b
  cases b <;> simp
@[simp] theorem State.logEnter_glb_flashRun (fresh : LogEntry) : (s.logEnter fresh).glb.flashRun = s.glb.flashRun := by
  unfold State.logEnter; dsimp only
  generalize (decide (s.glb.log.length ≥ 128) && _) = b
  cases b <;> simp
@[simp] theorem State.logEnter_glb_engagements (fresh : LogEntry) : (s.logEnter fresh).glb.engagements = s.glb.engagements := by
  unfold State.logEnter; dsimp only
  generalize (decide (s.glb.log.length ≥ 128) && _) = b
  cases b <;> simp
@[simp] theorem State.logEnter_glb_spiBroke (fresh : LogEntry) : (s.logEnter fresh).glb.spiBroke = s.glb.spiBroke := by
  unfold State.logEnter; dsimp only
  generalize (decide (s.glb.log.length ≥ 128) && _) = b
  cases b <;> simp
@[simp] theorem State.logEnter_glb_spiOut (fresh : LogEntry) : (s.logEnter fresh).glb.spiOut = s.glb.spiOut := by
  unfold State.logEnter; dsimp only
  generalize (decide (s.glb.log.length ≥ 128) && _) = b
  cases b <;> simp
@[simp] theorem State.logPut_pending (kind index cls : Nat) (ev : Bool) (detail : Word) : (s.logPut kind index cls ev detail).pending = s.pending := by
  unfold State.logPut; dsimp only; split
  · rfl
  · split
    · split <;> simp
    · simp
@[simp] theorem State.logPut_fuse (kind index cls : Nat) (ev : Bool) (detail : Word) : (s.logPut kind index cls ev detail).fuse = s.fuse := by
  unfold State.logPut; dsimp only; split
  · rfl
  · split
    · split <;> simp
    · simp
@[simp] theorem State.logPut_pins (kind index cls : Nat) (ev : Bool) (detail : Word) : (s.logPut kind index cls ev detail).pins = s.pins := by
  unfold State.logPut; dsimp only; split
  · rfl
  · split
    · split <;> simp
    · simp
@[simp] theorem State.logPut_time (kind index cls : Nat) (ev : Bool) (detail : Word) : (s.logPut kind index cls ev detail).time = s.time := by
  unfold State.logPut; dsimp only; split
  · rfl
  · split
    · split <;> simp
    · simp
@[simp] theorem State.logPut_nvs (kind index cls : Nat) (ev : Bool) (detail : Word) : (s.logPut kind index cls ev detail).nvs = s.nvs := by
  unfold State.logPut; dsimp only; split
  · rfl
  · split
    · split <;> simp
    · simp
@[simp] theorem State.logPut_pwr (kind index cls : Nat) (ev : Bool) (detail : Word) : (s.logPut kind index cls ev detail).pwr = s.pwr := by
  unfold State.logPut; dsimp only; split
  · rfl
  · split
    · split <;> simp
    · simp
@[simp] theorem State.logPut_pstate (kind index cls : Nat) (ev : Bool) (detail : Word) : (s.logPut kind index cls ev detail).pstate = s.pstate := by
  unfold State.logPut; dsimp only; split
  · rfl
  · split
    · split <;> simp
    · simp
@[simp] theorem State.logPut_wrp (kind index cls : Nat) (ev : Bool) (detail : Word) : (s.logPut kind index cls ev detail).wrp = s.wrp := by
  unfold State.logPut; dsimp only; split
  · rfl
  · split
    · split <;> simp
    · simp
@[simp] theorem State.logPut_paths (kind index cls : Nat) (ev : Bool) (detail : Word) : (s.logPut kind index cls ev detail).paths = s.paths := by
  unfold State.logPut; dsimp only; split
  · rfl
  · split
    · split <;> simp
    · simp
@[simp] theorem State.logPut_syn (kind index cls : Nat) (ev : Bool) (detail : Word) : (s.logPut kind index cls ev detail).syn = s.syn := by
  unfold State.logPut; dsimp only; split
  · rfl
  · split
    · split <;> simp
    · simp
@[simp] theorem State.logPut_skn (kind index cls : Nat) (ev : Bool) (detail : Word) : (s.logPut kind index cls ev detail).skn = s.skn := by
  unfold State.logPut; dsimp only; split
  · rfl
  · split
    · split <;> simp
    · simp
@[simp] theorem State.logPut_fft (kind index cls : Nat) (ev : Bool) (detail : Word) : (s.logPut kind index cls ev detail).fft = s.fft := by
  unfold State.logPut; dsimp only; split
  · rfl
  · split
    · split <;> simp
    · simp
@[simp] theorem State.logPut_dpd (kind index cls : Nat) (ev : Bool) (detail : Word) : (s.logPut kind index cls ev detail).dpd = s.dpd := by
  unfold State.logPut; dsimp only; split
  · rfl
  · split
    · split <;> simp
    · simp
@[simp] theorem State.logPut_rad (kind index cls : Nat) (ev : Bool) (detail : Word) : (s.logPut kind index cls ev detail).rad = s.rad := by
  unfold State.logPut; dsimp only; split
  · rfl
  · split
    · split <;> simp
    · simp
@[simp] theorem State.logPut_lne (kind index cls : Nat) (ev : Bool) (detail : Word) : (s.logPut kind index cls ev detail).lne = s.lne := by
  unfold State.logPut; dsimp only; split
  · rfl
  · split
    · split <;> simp
    · simp
@[simp] theorem State.logPut_fhp (kind index cls : Nat) (ev : Bool) (detail : Word) : (s.logPut kind index cls ev detail).fhp = s.fhp := by
  unfold State.logPut; dsimp only; split
  · rfl
  · split
    · split <;> simp
    · simp
@[simp] theorem State.logPut_tim (kind index cls : Nat) (ev : Bool) (detail : Word) : (s.logPut kind index cls ev detail).tim = s.tim := by
  unfold State.logPut; dsimp only; split
  · rfl
  · split
    · split <;> simp
    · simp
@[simp] theorem State.logPut_cas (kind index cls : Nat) (ev : Bool) (detail : Word) : (s.logPut kind index cls ev detail).cas = s.cas := by
  unfold State.logPut; dsimp only; split
  · rfl
  · split
    · split <;> simp
    · simp
@[simp] theorem State.logPut_acq (kind index cls : Nat) (ev : Bool) (detail : Word) : (s.logPut kind index cls ev detail).acq = s.acq := by
  unfold State.logPut; dsimp only; split
  · rfl
  · split
    · split <;> simp
    · simp
@[simp] theorem State.logPut_mon (kind index cls : Nat) (ev : Bool) (detail : Word) : (s.logPut kind index cls ev detail).mon = s.mon := by
  unfold State.logPut; dsimp only; split
  · rfl
  · split
    · split <;> simp
    · simp
@[simp] theorem State.logPut_drc (kind index cls : Nat) (ev : Bool) (detail : Word) : (s.logPut kind index cls ev detail).drc = s.drc := by
  unfold State.logPut; dsimp only; split
  · rfl
  · split
    · split <;> simp
    · simp
@[simp] theorem State.logPut_dma (kind index cls : Nat) (ev : Bool) (detail : Word) : (s.logPut kind index cls ev detail).dma = s.dma := by
  unfold State.logPut; dsimp only; split
  · rfl
  · split
    · split <;> simp
    · simp
@[simp] theorem State.logPut_hka (kind index cls : Nat) (ev : Bool) (detail : Word) : (s.logPut kind index cls ev detail).hka = s.hka := by
  unfold State.logPut; dsimp only; split
  · rfl
  · split
    · split <;> simp
    · simp
@[simp] theorem State.logPut_bda (kind index cls : Nat) (ev : Bool) (detail : Word) : (s.logPut kind index cls ev detail).bda = s.bda := by
  unfold State.logPut; dsimp only; split
  · rfl
  · split
    · split <;> simp
    · simp
@[simp] theorem State.logPut_thm (kind index cls : Nat) (ev : Bool) (detail : Word) : (s.logPut kind index cls ev detail).thm = s.thm := by
  unfold State.logPut; dsimp only; split
  · rfl
  · split
    · split <;> simp
    · simp
@[simp] theorem State.logPut_rnd (kind index cls : Nat) (ev : Bool) (detail : Word) : (s.logPut kind index cls ev detail).rnd = s.rnd := by
  unfold State.logPut; dsimp only; split
  · rfl
  · split
    · split <;> simp
    · simp
@[simp] theorem State.logPut_glb_dbg (kind index cls : Nat) (ev : Bool) (detail : Word) : (s.logPut kind index cls ev detail).glb.dbg = s.glb.dbg := by
  unfold State.logPut; dsimp only; split
  · rfl
  · split
    · split <;> simp
    · simp
@[simp] theorem State.logPut_glb_dbgNonce (kind index cls : Nat) (ev : Bool) (detail : Word) : (s.logPut kind index cls ev detail).glb.dbgNonce = s.glb.dbgNonce := by
  unfold State.logPut; dsimp only; split
  · rfl
  · split
    · split <;> simp
    · simp
@[simp] theorem State.logPut_glb_flash (kind index cls : Nat) (ev : Bool) (detail : Word) : (s.logPut kind index cls ev detail).glb.flash = s.glb.flash := by
  unfold State.logPut; dsimp only; split
  · rfl
  · split
    · split <;> simp
    · simp
@[simp] theorem State.logPut_glb_flashBuf (kind index cls : Nat) (ev : Bool) (detail : Word) : (s.logPut kind index cls ev detail).glb.flashBuf = s.glb.flashBuf := by
  unfold State.logPut; dsimp only; split
  · rfl
  · split
    · split <;> simp
    · simp
@[simp] theorem State.logPut_glb_flashRun (kind index cls : Nat) (ev : Bool) (detail : Word) : (s.logPut kind index cls ev detail).glb.flashRun = s.glb.flashRun := by
  unfold State.logPut; dsimp only; split
  · rfl
  · split
    · split <;> simp
    · simp
@[simp] theorem State.logPut_glb_engagements (kind index cls : Nat) (ev : Bool) (detail : Word) : (s.logPut kind index cls ev detail).glb.engagements = s.glb.engagements := by
  unfold State.logPut; dsimp only; split
  · rfl
  · split
    · split <;> simp
    · simp
@[simp] theorem State.logPut_glb_spiBroke (kind index cls : Nat) (ev : Bool) (detail : Word) : (s.logPut kind index cls ev detail).glb.spiBroke = s.glb.spiBroke := by
  unfold State.logPut; dsimp only; split
  · rfl
  · split
    · split <;> simp
    · simp
@[simp] theorem State.logPut_glb_spiOut (kind index cls : Nat) (ev : Bool) (detail : Word) : (s.logPut kind index cls ev detail).glb.spiOut = s.glb.spiOut := by
  unfold State.logPut; dsimp only; split
  · rfl
  · split
    · split <;> simp
    · simp
@[simp] theorem State.countViol_pending (kind cls : Nat) : (s.countViol kind cls).pending = s.pending := by
  unfold State.countViol; split <;> (try split) <;> simp
@[simp] theorem State.countViol_fuse (kind cls : Nat) : (s.countViol kind cls).fuse = s.fuse := by
  unfold State.countViol; split <;> (try split) <;> simp
@[simp] theorem State.countViol_pins (kind cls : Nat) : (s.countViol kind cls).pins = s.pins := by
  unfold State.countViol; split <;> (try split) <;> simp
@[simp] theorem State.countViol_time (kind cls : Nat) : (s.countViol kind cls).time = s.time := by
  unfold State.countViol; split <;> (try split) <;> simp
@[simp] theorem State.countViol_nvs (kind cls : Nat) : (s.countViol kind cls).nvs = s.nvs := by
  unfold State.countViol; split <;> (try split) <;> simp
@[simp] theorem State.countViol_pwr (kind cls : Nat) : (s.countViol kind cls).pwr = s.pwr := by
  unfold State.countViol; split <;> (try split) <;> simp
@[simp] theorem State.countViol_pstate (kind cls : Nat) : (s.countViol kind cls).pstate = s.pstate := by
  unfold State.countViol; split <;> (try split) <;> simp
@[simp] theorem State.countViol_wrp (kind cls : Nat) : (s.countViol kind cls).wrp = s.wrp := by
  unfold State.countViol; split <;> (try split) <;> simp
@[simp] theorem State.countViol_paths (kind cls : Nat) : (s.countViol kind cls).paths = s.paths := by
  unfold State.countViol; split <;> (try split) <;> simp
@[simp] theorem State.countViol_syn (kind cls : Nat) : (s.countViol kind cls).syn = s.syn := by
  unfold State.countViol; split <;> (try split) <;> simp
@[simp] theorem State.countViol_skn (kind cls : Nat) : (s.countViol kind cls).skn = s.skn := by
  unfold State.countViol; split <;> (try split) <;> simp
@[simp] theorem State.countViol_fft (kind cls : Nat) : (s.countViol kind cls).fft = s.fft := by
  unfold State.countViol; split <;> (try split) <;> simp
@[simp] theorem State.countViol_dpd (kind cls : Nat) : (s.countViol kind cls).dpd = s.dpd := by
  unfold State.countViol; split <;> (try split) <;> simp
@[simp] theorem State.countViol_rad (kind cls : Nat) : (s.countViol kind cls).rad = s.rad := by
  unfold State.countViol; split <;> (try split) <;> simp
@[simp] theorem State.countViol_lne (kind cls : Nat) : (s.countViol kind cls).lne = s.lne := by
  unfold State.countViol; split <;> (try split) <;> simp
@[simp] theorem State.countViol_fhp (kind cls : Nat) : (s.countViol kind cls).fhp = s.fhp := by
  unfold State.countViol; split <;> (try split) <;> simp
@[simp] theorem State.countViol_tim (kind cls : Nat) : (s.countViol kind cls).tim = s.tim := by
  unfold State.countViol; split <;> (try split) <;> simp
@[simp] theorem State.countViol_cas (kind cls : Nat) : (s.countViol kind cls).cas = s.cas := by
  unfold State.countViol; split <;> (try split) <;> simp
@[simp] theorem State.countViol_acq (kind cls : Nat) : (s.countViol kind cls).acq = s.acq := by
  unfold State.countViol; split <;> (try split) <;> simp
@[simp] theorem State.countViol_mon (kind cls : Nat) : (s.countViol kind cls).mon = s.mon := by
  unfold State.countViol; split <;> (try split) <;> simp
@[simp] theorem State.countViol_drc (kind cls : Nat) : (s.countViol kind cls).drc = s.drc := by
  unfold State.countViol; split <;> (try split) <;> simp
@[simp] theorem State.countViol_dma (kind cls : Nat) : (s.countViol kind cls).dma = s.dma := by
  unfold State.countViol; split <;> (try split) <;> simp
@[simp] theorem State.countViol_hka (kind cls : Nat) : (s.countViol kind cls).hka = s.hka := by
  unfold State.countViol; split <;> (try split) <;> simp
@[simp] theorem State.countViol_bda (kind cls : Nat) : (s.countViol kind cls).bda = s.bda := by
  unfold State.countViol; split <;> (try split) <;> simp
@[simp] theorem State.countViol_thm (kind cls : Nat) : (s.countViol kind cls).thm = s.thm := by
  unfold State.countViol; split <;> (try split) <;> simp
@[simp] theorem State.countViol_rnd (kind cls : Nat) : (s.countViol kind cls).rnd = s.rnd := by
  unfold State.countViol; split <;> (try split) <;> simp
@[simp] theorem State.countViol_glb_dbg (kind cls : Nat) : (s.countViol kind cls).glb.dbg = s.glb.dbg := by
  unfold State.countViol; split <;> (try split) <;> simp
@[simp] theorem State.countViol_glb_dbgNonce (kind cls : Nat) : (s.countViol kind cls).glb.dbgNonce = s.glb.dbgNonce := by
  unfold State.countViol; split <;> (try split) <;> simp
@[simp] theorem State.countViol_glb_flash (kind cls : Nat) : (s.countViol kind cls).glb.flash = s.glb.flash := by
  unfold State.countViol; split <;> (try split) <;> simp
@[simp] theorem State.countViol_glb_flashBuf (kind cls : Nat) : (s.countViol kind cls).glb.flashBuf = s.glb.flashBuf := by
  unfold State.countViol; split <;> (try split) <;> simp
@[simp] theorem State.countViol_glb_flashRun (kind cls : Nat) : (s.countViol kind cls).glb.flashRun = s.glb.flashRun := by
  unfold State.countViol; split <;> (try split) <;> simp
@[simp] theorem State.countViol_glb_engagements (kind cls : Nat) : (s.countViol kind cls).glb.engagements = s.glb.engagements := by
  unfold State.countViol; split <;> (try split) <;> simp
@[simp] theorem State.countViol_glb_spiBroke (kind cls : Nat) : (s.countViol kind cls).glb.spiBroke = s.glb.spiBroke := by
  unfold State.countViol; split <;> (try split) <;> simp
@[simp] theorem State.countViol_glb_spiOut (kind cls : Nat) : (s.countViol kind cls).glb.spiOut = s.glb.spiOut := by
  unfold State.countViol; split <;> (try split) <;> simp
@[simp] theorem State.viol_pending (kind index cls : Nat) (detail : Word) : (s.viol kind index cls detail).pending = s.pending := by
  simp [State.viol]
@[simp] theorem State.viol_fuse (kind index cls : Nat) (detail : Word) : (s.viol kind index cls detail).fuse = s.fuse := by
  simp [State.viol]
@[simp] theorem State.viol_pins (kind index cls : Nat) (detail : Word) : (s.viol kind index cls detail).pins = s.pins := by
  simp [State.viol]
@[simp] theorem State.viol_time (kind index cls : Nat) (detail : Word) : (s.viol kind index cls detail).time = s.time := by
  simp [State.viol]
@[simp] theorem State.viol_nvs (kind index cls : Nat) (detail : Word) : (s.viol kind index cls detail).nvs = s.nvs := by
  simp [State.viol]
@[simp] theorem State.viol_pwr (kind index cls : Nat) (detail : Word) : (s.viol kind index cls detail).pwr = s.pwr := by
  simp [State.viol]
@[simp] theorem State.viol_pstate (kind index cls : Nat) (detail : Word) : (s.viol kind index cls detail).pstate = s.pstate := by
  simp [State.viol]
@[simp] theorem State.viol_wrp (kind index cls : Nat) (detail : Word) : (s.viol kind index cls detail).wrp = s.wrp := by
  simp [State.viol]
@[simp] theorem State.viol_paths (kind index cls : Nat) (detail : Word) : (s.viol kind index cls detail).paths = s.paths := by
  simp [State.viol]
@[simp] theorem State.viol_syn (kind index cls : Nat) (detail : Word) : (s.viol kind index cls detail).syn = s.syn := by
  simp [State.viol]
@[simp] theorem State.viol_skn (kind index cls : Nat) (detail : Word) : (s.viol kind index cls detail).skn = s.skn := by
  simp [State.viol]
@[simp] theorem State.viol_fft (kind index cls : Nat) (detail : Word) : (s.viol kind index cls detail).fft = s.fft := by
  simp [State.viol]
@[simp] theorem State.viol_dpd (kind index cls : Nat) (detail : Word) : (s.viol kind index cls detail).dpd = s.dpd := by
  simp [State.viol]
@[simp] theorem State.viol_rad (kind index cls : Nat) (detail : Word) : (s.viol kind index cls detail).rad = s.rad := by
  simp [State.viol]
@[simp] theorem State.viol_lne (kind index cls : Nat) (detail : Word) : (s.viol kind index cls detail).lne = s.lne := by
  simp [State.viol]
@[simp] theorem State.viol_fhp (kind index cls : Nat) (detail : Word) : (s.viol kind index cls detail).fhp = s.fhp := by
  simp [State.viol]
@[simp] theorem State.viol_tim (kind index cls : Nat) (detail : Word) : (s.viol kind index cls detail).tim = s.tim := by
  simp [State.viol]
@[simp] theorem State.viol_cas (kind index cls : Nat) (detail : Word) : (s.viol kind index cls detail).cas = s.cas := by
  simp [State.viol]
@[simp] theorem State.viol_acq (kind index cls : Nat) (detail : Word) : (s.viol kind index cls detail).acq = s.acq := by
  simp [State.viol]
@[simp] theorem State.viol_mon (kind index cls : Nat) (detail : Word) : (s.viol kind index cls detail).mon = s.mon := by
  simp [State.viol]
@[simp] theorem State.viol_drc (kind index cls : Nat) (detail : Word) : (s.viol kind index cls detail).drc = s.drc := by
  simp [State.viol]
@[simp] theorem State.viol_dma (kind index cls : Nat) (detail : Word) : (s.viol kind index cls detail).dma = s.dma := by
  simp [State.viol]
@[simp] theorem State.viol_hka (kind index cls : Nat) (detail : Word) : (s.viol kind index cls detail).hka = s.hka := by
  simp [State.viol]
@[simp] theorem State.viol_bda (kind index cls : Nat) (detail : Word) : (s.viol kind index cls detail).bda = s.bda := by
  simp [State.viol]
@[simp] theorem State.viol_thm (kind index cls : Nat) (detail : Word) : (s.viol kind index cls detail).thm = s.thm := by
  simp [State.viol]
@[simp] theorem State.viol_rnd (kind index cls : Nat) (detail : Word) : (s.viol kind index cls detail).rnd = s.rnd := by
  simp [State.viol]
@[simp] theorem State.viol_glb_dbg (kind index cls : Nat) (detail : Word) : (s.viol kind index cls detail).glb.dbg = s.glb.dbg := by
  simp [State.viol]
@[simp] theorem State.viol_glb_dbgNonce (kind index cls : Nat) (detail : Word) : (s.viol kind index cls detail).glb.dbgNonce = s.glb.dbgNonce := by
  simp [State.viol]
@[simp] theorem State.viol_glb_flash (kind index cls : Nat) (detail : Word) : (s.viol kind index cls detail).glb.flash = s.glb.flash := by
  simp [State.viol]
@[simp] theorem State.viol_glb_flashBuf (kind index cls : Nat) (detail : Word) : (s.viol kind index cls detail).glb.flashBuf = s.glb.flashBuf := by
  simp [State.viol]
@[simp] theorem State.viol_glb_flashRun (kind index cls : Nat) (detail : Word) : (s.viol kind index cls detail).glb.flashRun = s.glb.flashRun := by
  simp [State.viol]
@[simp] theorem State.viol_glb_engagements (kind index cls : Nat) (detail : Word) : (s.viol kind index cls detail).glb.engagements = s.glb.engagements := by
  simp [State.viol]
@[simp] theorem State.viol_glb_spiBroke (kind index cls : Nat) (detail : Word) : (s.viol kind index cls detail).glb.spiBroke = s.glb.spiBroke := by
  simp [State.viol]
@[simp] theorem State.viol_glb_spiOut (kind index cls : Nat) (detail : Word) : (s.viol kind index cls detail).glb.spiOut = s.glb.spiOut := by
  simp [State.viol]
@[simp] theorem State.violSpi_pending (cls addr : Nat) : (s.violSpi cls addr).pending = s.pending := State.viol_pending ..
@[simp] theorem State.violSpi_fuse (cls addr : Nat) : (s.violSpi cls addr).fuse = s.fuse := State.viol_fuse ..
@[simp] theorem State.violSpi_pins (cls addr : Nat) : (s.violSpi cls addr).pins = s.pins := State.viol_pins ..
@[simp] theorem State.violSpi_time (cls addr : Nat) : (s.violSpi cls addr).time = s.time := State.viol_time ..
@[simp] theorem State.violSpi_nvs (cls addr : Nat) : (s.violSpi cls addr).nvs = s.nvs := State.viol_nvs ..
@[simp] theorem State.violSpi_pwr (cls addr : Nat) : (s.violSpi cls addr).pwr = s.pwr := State.viol_pwr ..
@[simp] theorem State.violSpi_pstate (cls addr : Nat) : (s.violSpi cls addr).pstate = s.pstate := State.viol_pstate ..
@[simp] theorem State.violSpi_wrp (cls addr : Nat) : (s.violSpi cls addr).wrp = s.wrp := State.viol_wrp ..
@[simp] theorem State.violSpi_paths (cls addr : Nat) : (s.violSpi cls addr).paths = s.paths := State.viol_paths ..
@[simp] theorem State.violSpi_syn (cls addr : Nat) : (s.violSpi cls addr).syn = s.syn := State.viol_syn ..
@[simp] theorem State.violSpi_skn (cls addr : Nat) : (s.violSpi cls addr).skn = s.skn := State.viol_skn ..
@[simp] theorem State.violSpi_fft (cls addr : Nat) : (s.violSpi cls addr).fft = s.fft := State.viol_fft ..
@[simp] theorem State.violSpi_dpd (cls addr : Nat) : (s.violSpi cls addr).dpd = s.dpd := State.viol_dpd ..
@[simp] theorem State.violSpi_rad (cls addr : Nat) : (s.violSpi cls addr).rad = s.rad := State.viol_rad ..
@[simp] theorem State.violSpi_lne (cls addr : Nat) : (s.violSpi cls addr).lne = s.lne := State.viol_lne ..
@[simp] theorem State.violSpi_fhp (cls addr : Nat) : (s.violSpi cls addr).fhp = s.fhp := State.viol_fhp ..
@[simp] theorem State.violSpi_tim (cls addr : Nat) : (s.violSpi cls addr).tim = s.tim := State.viol_tim ..
@[simp] theorem State.violSpi_cas (cls addr : Nat) : (s.violSpi cls addr).cas = s.cas := State.viol_cas ..
@[simp] theorem State.violSpi_acq (cls addr : Nat) : (s.violSpi cls addr).acq = s.acq := State.viol_acq ..
@[simp] theorem State.violSpi_mon (cls addr : Nat) : (s.violSpi cls addr).mon = s.mon := State.viol_mon ..
@[simp] theorem State.violSpi_drc (cls addr : Nat) : (s.violSpi cls addr).drc = s.drc := State.viol_drc ..
@[simp] theorem State.violSpi_dma (cls addr : Nat) : (s.violSpi cls addr).dma = s.dma := State.viol_dma ..
@[simp] theorem State.violSpi_hka (cls addr : Nat) : (s.violSpi cls addr).hka = s.hka := State.viol_hka ..
@[simp] theorem State.violSpi_bda (cls addr : Nat) : (s.violSpi cls addr).bda = s.bda := State.viol_bda ..
@[simp] theorem State.violSpi_thm (cls addr : Nat) : (s.violSpi cls addr).thm = s.thm := State.viol_thm ..
@[simp] theorem State.violSpi_rnd (cls addr : Nat) : (s.violSpi cls addr).rnd = s.rnd := State.viol_rnd ..
@[simp] theorem State.violSpi_glb_dbg (cls addr : Nat) : (s.violSpi cls addr).glb.dbg = s.glb.dbg := State.viol_glb_dbg ..
@[simp] theorem State.violSpi_glb_dbgNonce (cls addr : Nat) : (s.violSpi cls addr).glb.dbgNonce = s.glb.dbgNonce := State.viol_glb_dbgNonce ..
@[simp] theorem State.violSpi_glb_flash (cls addr : Nat) : (s.violSpi cls addr).glb.flash = s.glb.flash := State.viol_glb_flash ..
@[simp] theorem State.violSpi_glb_flashBuf (cls addr : Nat) : (s.violSpi cls addr).glb.flashBuf = s.glb.flashBuf := State.viol_glb_flashBuf ..
@[simp] theorem State.violSpi_glb_flashRun (cls addr : Nat) : (s.violSpi cls addr).glb.flashRun = s.glb.flashRun := State.viol_glb_flashRun ..
@[simp] theorem State.violSpi_glb_engagements (cls addr : Nat) : (s.violSpi cls addr).glb.engagements = s.glb.engagements := State.viol_glb_engagements ..
@[simp] theorem State.violSpi_glb_spiBroke (cls addr : Nat) : (s.violSpi cls addr).glb.spiBroke = s.glb.spiBroke := State.viol_glb_spiBroke ..
@[simp] theorem State.violSpi_glb_spiOut (cls addr : Nat) : (s.violSpi cls addr).glb.spiOut = s.glb.spiOut := State.viol_glb_spiOut ..
@[simp] theorem State.refusedWrite_pending (addr : Nat) : (s.refusedWrite addr).pending = s.pending := State.violSpi_pending ..
@[simp] theorem State.refusedWrite_fuse (addr : Nat) : (s.refusedWrite addr).fuse = s.fuse := State.violSpi_fuse ..
@[simp] theorem State.refusedWrite_pins (addr : Nat) : (s.refusedWrite addr).pins = s.pins := State.violSpi_pins ..
@[simp] theorem State.refusedWrite_time (addr : Nat) : (s.refusedWrite addr).time = s.time := State.violSpi_time ..
@[simp] theorem State.refusedWrite_nvs (addr : Nat) : (s.refusedWrite addr).nvs = s.nvs := State.violSpi_nvs ..
@[simp] theorem State.refusedWrite_pwr (addr : Nat) : (s.refusedWrite addr).pwr = s.pwr := State.violSpi_pwr ..
@[simp] theorem State.refusedWrite_pstate (addr : Nat) : (s.refusedWrite addr).pstate = s.pstate := State.violSpi_pstate ..
@[simp] theorem State.refusedWrite_wrp (addr : Nat) : (s.refusedWrite addr).wrp = s.wrp := State.violSpi_wrp ..
@[simp] theorem State.refusedWrite_paths (addr : Nat) : (s.refusedWrite addr).paths = s.paths := State.violSpi_paths ..
@[simp] theorem State.refusedWrite_syn (addr : Nat) : (s.refusedWrite addr).syn = s.syn := State.violSpi_syn ..
@[simp] theorem State.refusedWrite_skn (addr : Nat) : (s.refusedWrite addr).skn = s.skn := State.violSpi_skn ..
@[simp] theorem State.refusedWrite_fft (addr : Nat) : (s.refusedWrite addr).fft = s.fft := State.violSpi_fft ..
@[simp] theorem State.refusedWrite_dpd (addr : Nat) : (s.refusedWrite addr).dpd = s.dpd := State.violSpi_dpd ..
@[simp] theorem State.refusedWrite_rad (addr : Nat) : (s.refusedWrite addr).rad = s.rad := State.violSpi_rad ..
@[simp] theorem State.refusedWrite_lne (addr : Nat) : (s.refusedWrite addr).lne = s.lne := State.violSpi_lne ..
@[simp] theorem State.refusedWrite_fhp (addr : Nat) : (s.refusedWrite addr).fhp = s.fhp := State.violSpi_fhp ..
@[simp] theorem State.refusedWrite_tim (addr : Nat) : (s.refusedWrite addr).tim = s.tim := State.violSpi_tim ..
@[simp] theorem State.refusedWrite_cas (addr : Nat) : (s.refusedWrite addr).cas = s.cas := State.violSpi_cas ..
@[simp] theorem State.refusedWrite_acq (addr : Nat) : (s.refusedWrite addr).acq = s.acq := State.violSpi_acq ..
@[simp] theorem State.refusedWrite_mon (addr : Nat) : (s.refusedWrite addr).mon = s.mon := State.violSpi_mon ..
@[simp] theorem State.refusedWrite_drc (addr : Nat) : (s.refusedWrite addr).drc = s.drc := State.violSpi_drc ..
@[simp] theorem State.refusedWrite_dma (addr : Nat) : (s.refusedWrite addr).dma = s.dma := State.violSpi_dma ..
@[simp] theorem State.refusedWrite_hka (addr : Nat) : (s.refusedWrite addr).hka = s.hka := State.violSpi_hka ..
@[simp] theorem State.refusedWrite_bda (addr : Nat) : (s.refusedWrite addr).bda = s.bda := State.violSpi_bda ..
@[simp] theorem State.refusedWrite_thm (addr : Nat) : (s.refusedWrite addr).thm = s.thm := State.violSpi_thm ..
@[simp] theorem State.refusedWrite_rnd (addr : Nat) : (s.refusedWrite addr).rnd = s.rnd := State.violSpi_rnd ..
@[simp] theorem State.refusedWrite_glb_dbg (addr : Nat) : (s.refusedWrite addr).glb.dbg = s.glb.dbg := State.violSpi_glb_dbg ..
@[simp] theorem State.refusedWrite_glb_dbgNonce (addr : Nat) : (s.refusedWrite addr).glb.dbgNonce = s.glb.dbgNonce := State.violSpi_glb_dbgNonce ..
@[simp] theorem State.refusedWrite_glb_flash (addr : Nat) : (s.refusedWrite addr).glb.flash = s.glb.flash := State.violSpi_glb_flash ..
@[simp] theorem State.refusedWrite_glb_flashBuf (addr : Nat) : (s.refusedWrite addr).glb.flashBuf = s.glb.flashBuf := State.violSpi_glb_flashBuf ..
@[simp] theorem State.refusedWrite_glb_flashRun (addr : Nat) : (s.refusedWrite addr).glb.flashRun = s.glb.flashRun := State.violSpi_glb_flashRun ..
@[simp] theorem State.refusedWrite_glb_engagements (addr : Nat) : (s.refusedWrite addr).glb.engagements = s.glb.engagements := State.violSpi_glb_engagements ..
@[simp] theorem State.refusedWrite_glb_spiBroke (addr : Nat) : (s.refusedWrite addr).glb.spiBroke = s.glb.spiBroke := State.violSpi_glb_spiBroke ..
@[simp] theorem State.refusedWrite_glb_spiOut (addr : Nat) : (s.refusedWrite addr).glb.spiOut = s.glb.spiOut := State.violSpi_glb_spiOut ..
@[simp] theorem State.event_pending (a b index : Nat) (detail : Word) : (s.event a b index detail).pending = s.pending := by
  simp [State.event]
@[simp] theorem State.event_fuse (a b index : Nat) (detail : Word) : (s.event a b index detail).fuse = s.fuse := by
  simp [State.event]
@[simp] theorem State.event_pins (a b index : Nat) (detail : Word) : (s.event a b index detail).pins = s.pins := by
  simp [State.event]
@[simp] theorem State.event_time (a b index : Nat) (detail : Word) : (s.event a b index detail).time = s.time := by
  simp [State.event]
@[simp] theorem State.event_nvs (a b index : Nat) (detail : Word) : (s.event a b index detail).nvs = s.nvs := by
  simp [State.event]
@[simp] theorem State.event_pwr (a b index : Nat) (detail : Word) : (s.event a b index detail).pwr = s.pwr := by
  simp [State.event]
@[simp] theorem State.event_pstate (a b index : Nat) (detail : Word) : (s.event a b index detail).pstate = s.pstate := by
  simp [State.event]
@[simp] theorem State.event_wrp (a b index : Nat) (detail : Word) : (s.event a b index detail).wrp = s.wrp := by
  simp [State.event]
@[simp] theorem State.event_paths (a b index : Nat) (detail : Word) : (s.event a b index detail).paths = s.paths := by
  simp [State.event]
@[simp] theorem State.event_syn (a b index : Nat) (detail : Word) : (s.event a b index detail).syn = s.syn := by
  simp [State.event]
@[simp] theorem State.event_skn (a b index : Nat) (detail : Word) : (s.event a b index detail).skn = s.skn := by
  simp [State.event]
@[simp] theorem State.event_fft (a b index : Nat) (detail : Word) : (s.event a b index detail).fft = s.fft := by
  simp [State.event]
@[simp] theorem State.event_dpd (a b index : Nat) (detail : Word) : (s.event a b index detail).dpd = s.dpd := by
  simp [State.event]
@[simp] theorem State.event_rad (a b index : Nat) (detail : Word) : (s.event a b index detail).rad = s.rad := by
  simp [State.event]
@[simp] theorem State.event_lne (a b index : Nat) (detail : Word) : (s.event a b index detail).lne = s.lne := by
  simp [State.event]
@[simp] theorem State.event_fhp (a b index : Nat) (detail : Word) : (s.event a b index detail).fhp = s.fhp := by
  simp [State.event]
@[simp] theorem State.event_tim (a b index : Nat) (detail : Word) : (s.event a b index detail).tim = s.tim := by
  simp [State.event]
@[simp] theorem State.event_cas (a b index : Nat) (detail : Word) : (s.event a b index detail).cas = s.cas := by
  simp [State.event]
@[simp] theorem State.event_acq (a b index : Nat) (detail : Word) : (s.event a b index detail).acq = s.acq := by
  simp [State.event]
@[simp] theorem State.event_mon (a b index : Nat) (detail : Word) : (s.event a b index detail).mon = s.mon := by
  simp [State.event]
@[simp] theorem State.event_drc (a b index : Nat) (detail : Word) : (s.event a b index detail).drc = s.drc := by
  simp [State.event]
@[simp] theorem State.event_dma (a b index : Nat) (detail : Word) : (s.event a b index detail).dma = s.dma := by
  simp [State.event]
@[simp] theorem State.event_hka (a b index : Nat) (detail : Word) : (s.event a b index detail).hka = s.hka := by
  simp [State.event]
@[simp] theorem State.event_bda (a b index : Nat) (detail : Word) : (s.event a b index detail).bda = s.bda := by
  simp [State.event]
@[simp] theorem State.event_thm (a b index : Nat) (detail : Word) : (s.event a b index detail).thm = s.thm := by
  simp [State.event]
@[simp] theorem State.event_rnd (a b index : Nat) (detail : Word) : (s.event a b index detail).rnd = s.rnd := by
  simp [State.event]
@[simp] theorem State.event_glb_dbg (a b index : Nat) (detail : Word) : (s.event a b index detail).glb.dbg = s.glb.dbg := by
  simp [State.event]
@[simp] theorem State.event_glb_dbgNonce (a b index : Nat) (detail : Word) : (s.event a b index detail).glb.dbgNonce = s.glb.dbgNonce := by
  simp [State.event]
@[simp] theorem State.event_glb_flash (a b index : Nat) (detail : Word) : (s.event a b index detail).glb.flash = s.glb.flash := by
  simp [State.event]
@[simp] theorem State.event_glb_flashBuf (a b index : Nat) (detail : Word) : (s.event a b index detail).glb.flashBuf = s.glb.flashBuf := by
  simp [State.event]
@[simp] theorem State.event_glb_flashRun (a b index : Nat) (detail : Word) : (s.event a b index detail).glb.flashRun = s.glb.flashRun := by
  simp [State.event]
@[simp] theorem State.event_glb_engagements (a b index : Nat) (detail : Word) : (s.event a b index detail).glb.engagements = s.glb.engagements := by
  simp [State.event]
@[simp] theorem State.event_glb_spiBroke (a b index : Nat) (detail : Word) : (s.event a b index detail).glb.spiBroke = s.glb.spiBroke := by
  simp [State.event]
@[simp] theorem State.event_glb_spiOut (a b index : Nat) (detail : Word) : (s.event a b index detail).glb.spiOut = s.glb.spiOut := by
  simp [State.event]
@[simp] theorem State.pathEvent_pending (p b : Nat) (detail : Word) : (s.pathEvent p b detail).pending = s.pending := by
  simp [State.pathEvent]
@[simp] theorem State.pathEvent_fuse (p b : Nat) (detail : Word) : (s.pathEvent p b detail).fuse = s.fuse := by
  simp [State.pathEvent]
@[simp] theorem State.pathEvent_pins (p b : Nat) (detail : Word) : (s.pathEvent p b detail).pins = s.pins := by
  simp [State.pathEvent]
@[simp] theorem State.pathEvent_time (p b : Nat) (detail : Word) : (s.pathEvent p b detail).time = s.time := by
  simp [State.pathEvent]
@[simp] theorem State.pathEvent_nvs (p b : Nat) (detail : Word) : (s.pathEvent p b detail).nvs = s.nvs := by
  simp [State.pathEvent]
@[simp] theorem State.pathEvent_pwr (p b : Nat) (detail : Word) : (s.pathEvent p b detail).pwr = s.pwr := by
  simp [State.pathEvent]
@[simp] theorem State.pathEvent_pstate (p b : Nat) (detail : Word) : (s.pathEvent p b detail).pstate = s.pstate := by
  simp [State.pathEvent]
@[simp] theorem State.pathEvent_wrp (p b : Nat) (detail : Word) : (s.pathEvent p b detail).wrp = s.wrp := by
  simp [State.pathEvent]
@[simp] theorem State.pathEvent_paths (p b : Nat) (detail : Word) : (s.pathEvent p b detail).paths = s.paths := by
  simp [State.pathEvent]
@[simp] theorem State.pathEvent_syn (p b : Nat) (detail : Word) : (s.pathEvent p b detail).syn = s.syn := by
  simp [State.pathEvent]
@[simp] theorem State.pathEvent_skn (p b : Nat) (detail : Word) : (s.pathEvent p b detail).skn = s.skn := by
  simp [State.pathEvent]
@[simp] theorem State.pathEvent_fft (p b : Nat) (detail : Word) : (s.pathEvent p b detail).fft = s.fft := by
  simp [State.pathEvent]
@[simp] theorem State.pathEvent_dpd (p b : Nat) (detail : Word) : (s.pathEvent p b detail).dpd = s.dpd := by
  simp [State.pathEvent]
@[simp] theorem State.pathEvent_rad (p b : Nat) (detail : Word) : (s.pathEvent p b detail).rad = s.rad := by
  simp [State.pathEvent]
@[simp] theorem State.pathEvent_lne (p b : Nat) (detail : Word) : (s.pathEvent p b detail).lne = s.lne := by
  simp [State.pathEvent]
@[simp] theorem State.pathEvent_fhp (p b : Nat) (detail : Word) : (s.pathEvent p b detail).fhp = s.fhp := by
  simp [State.pathEvent]
@[simp] theorem State.pathEvent_tim (p b : Nat) (detail : Word) : (s.pathEvent p b detail).tim = s.tim := by
  simp [State.pathEvent]
@[simp] theorem State.pathEvent_cas (p b : Nat) (detail : Word) : (s.pathEvent p b detail).cas = s.cas := by
  simp [State.pathEvent]
@[simp] theorem State.pathEvent_acq (p b : Nat) (detail : Word) : (s.pathEvent p b detail).acq = s.acq := by
  simp [State.pathEvent]
@[simp] theorem State.pathEvent_mon (p b : Nat) (detail : Word) : (s.pathEvent p b detail).mon = s.mon := by
  simp [State.pathEvent]
@[simp] theorem State.pathEvent_drc (p b : Nat) (detail : Word) : (s.pathEvent p b detail).drc = s.drc := by
  simp [State.pathEvent]
@[simp] theorem State.pathEvent_dma (p b : Nat) (detail : Word) : (s.pathEvent p b detail).dma = s.dma := by
  simp [State.pathEvent]
@[simp] theorem State.pathEvent_hka (p b : Nat) (detail : Word) : (s.pathEvent p b detail).hka = s.hka := by
  simp [State.pathEvent]
@[simp] theorem State.pathEvent_bda (p b : Nat) (detail : Word) : (s.pathEvent p b detail).bda = s.bda := by
  simp [State.pathEvent]
@[simp] theorem State.pathEvent_thm (p b : Nat) (detail : Word) : (s.pathEvent p b detail).thm = s.thm := by
  simp [State.pathEvent]
@[simp] theorem State.pathEvent_rnd (p b : Nat) (detail : Word) : (s.pathEvent p b detail).rnd = s.rnd := by
  simp [State.pathEvent]
@[simp] theorem State.pathEvent_glb_dbg (p b : Nat) (detail : Word) : (s.pathEvent p b detail).glb.dbg = s.glb.dbg := by
  simp [State.pathEvent]
@[simp] theorem State.pathEvent_glb_dbgNonce (p b : Nat) (detail : Word) : (s.pathEvent p b detail).glb.dbgNonce = s.glb.dbgNonce := by
  simp [State.pathEvent]
@[simp] theorem State.pathEvent_glb_flash (p b : Nat) (detail : Word) : (s.pathEvent p b detail).glb.flash = s.glb.flash := by
  simp [State.pathEvent]
@[simp] theorem State.pathEvent_glb_flashBuf (p b : Nat) (detail : Word) : (s.pathEvent p b detail).glb.flashBuf = s.glb.flashBuf := by
  simp [State.pathEvent]
@[simp] theorem State.pathEvent_glb_flashRun (p b : Nat) (detail : Word) : (s.pathEvent p b detail).glb.flashRun = s.glb.flashRun := by
  simp [State.pathEvent]
@[simp] theorem State.pathEvent_glb_engagements (p b : Nat) (detail : Word) : (s.pathEvent p b detail).glb.engagements = s.glb.engagements := by
  simp [State.pathEvent]
@[simp] theorem State.pathEvent_glb_spiBroke (p b : Nat) (detail : Word) : (s.pathEvent p b detail).glb.spiBroke = s.glb.spiBroke := by
  simp [State.pathEvent]
@[simp] theorem State.pathEvent_glb_spiOut (p b : Nat) (detail : Word) : (s.pathEvent p b detail).glb.spiOut = s.glb.spiOut := by
  simp [State.pathEvent]

/-! ### Messages to flocks -/

@[simp] theorem State.post_pending (k port msg tag : Nat) (body : List Byte) : (s.post k port msg tag body).pending = s.pending := by
  unfold State.post; dsimp only; split <;> simp
@[simp] theorem State.post_fuse (k port msg tag : Nat) (body : List Byte) : (s.post k port msg tag body).fuse = s.fuse := by
  unfold State.post; dsimp only; split <;> simp
@[simp] theorem State.post_pins (k port msg tag : Nat) (body : List Byte) : (s.post k port msg tag body).pins = s.pins := by
  unfold State.post; dsimp only; split <;> simp
@[simp] theorem State.post_time (k port msg tag : Nat) (body : List Byte) : (s.post k port msg tag body).time = s.time := by
  unfold State.post; dsimp only; split <;> simp
@[simp] theorem State.post_glb (k port msg tag : Nat) (body : List Byte) : (s.post k port msg tag body).glb = s.glb := by
  unfold State.post; dsimp only; split <;> simp
@[simp] theorem State.post_nvs (k port msg tag : Nat) (body : List Byte) : (s.post k port msg tag body).nvs = s.nvs := by
  unfold State.post; dsimp only; split <;> simp
@[simp] theorem State.post_pwr (k port msg tag : Nat) (body : List Byte) : (s.post k port msg tag body).pwr = s.pwr := by
  unfold State.post; dsimp only; split <;> simp
@[simp] theorem State.post_pstate (k port msg tag : Nat) (body : List Byte) : (s.post k port msg tag body).pstate = s.pstate := by
  unfold State.post; dsimp only; split <;> simp
@[simp] theorem State.post_wrp (k port msg tag : Nat) (body : List Byte) : (s.post k port msg tag body).wrp = s.wrp := by
  unfold State.post; dsimp only; split <;> simp
@[simp] theorem State.post_paths (k port msg tag : Nat) (body : List Byte) : (s.post k port msg tag body).paths = s.paths := by
  unfold State.post; dsimp only; split <;> simp
@[simp] theorem State.post_syn (k port msg tag : Nat) (body : List Byte) : (s.post k port msg tag body).syn = s.syn := by
  unfold State.post; dsimp only; split <;> simp
@[simp] theorem State.post_skn (k port msg tag : Nat) (body : List Byte) : (s.post k port msg tag body).skn = s.skn := by
  unfold State.post; dsimp only; split <;> simp
@[simp] theorem State.post_fft (k port msg tag : Nat) (body : List Byte) : (s.post k port msg tag body).fft = s.fft := by
  unfold State.post; dsimp only; split <;> simp
@[simp] theorem State.post_dpd (k port msg tag : Nat) (body : List Byte) : (s.post k port msg tag body).dpd = s.dpd := by
  unfold State.post; dsimp only; split <;> simp
@[simp] theorem State.post_rad (k port msg tag : Nat) (body : List Byte) : (s.post k port msg tag body).rad = s.rad := by
  unfold State.post; dsimp only; split <;> simp
@[simp] theorem State.post_lne (k port msg tag : Nat) (body : List Byte) : (s.post k port msg tag body).lne = s.lne := by
  unfold State.post; dsimp only; split <;> simp
@[simp] theorem State.post_tim (k port msg tag : Nat) (body : List Byte) : (s.post k port msg tag body).tim = s.tim := by
  unfold State.post; dsimp only; split <;> simp
@[simp] theorem State.post_cas (k port msg tag : Nat) (body : List Byte) : (s.post k port msg tag body).cas = s.cas := by
  unfold State.post; dsimp only; split <;> simp
@[simp] theorem State.post_acq (k port msg tag : Nat) (body : List Byte) : (s.post k port msg tag body).acq = s.acq := by
  unfold State.post; dsimp only; split <;> simp
@[simp] theorem State.post_mon (k port msg tag : Nat) (body : List Byte) : (s.post k port msg tag body).mon = s.mon := by
  unfold State.post; dsimp only; split <;> simp
@[simp] theorem State.post_drc (k port msg tag : Nat) (body : List Byte) : (s.post k port msg tag body).drc = s.drc := by
  unfold State.post; dsimp only; split <;> simp
@[simp] theorem State.post_dma (k port msg tag : Nat) (body : List Byte) : (s.post k port msg tag body).dma = s.dma := by
  unfold State.post; dsimp only; split <;> simp
@[simp] theorem State.post_hka (k port msg tag : Nat) (body : List Byte) : (s.post k port msg tag body).hka = s.hka := by
  unfold State.post; dsimp only; split <;> simp
@[simp] theorem State.post_bda (k port msg tag : Nat) (body : List Byte) : (s.post k port msg tag body).bda = s.bda := by
  unfold State.post; dsimp only; split <;> simp
@[simp] theorem State.post_thm (k port msg tag : Nat) (body : List Byte) : (s.post k port msg tag body).thm = s.thm := by
  unfold State.post; dsimp only; split <;> simp
@[simp] theorem State.post_rnd (k port msg tag : Nat) (body : List Byte) : (s.post k port msg tag body).rnd = s.rnd := by
  unfold State.post; dsimp only; split <;> simp
@[simp] theorem State.notice_pending (k ev detail param : Nat) : (s.notice k ev detail param).pending = s.pending := by
  unfold State.notice; split
  · rfl
  · split
    · rfl
    · simp
@[simp] theorem State.notice_fuse (k ev detail param : Nat) : (s.notice k ev detail param).fuse = s.fuse := by
  unfold State.notice; split
  · rfl
  · split
    · rfl
    · simp
@[simp] theorem State.notice_pins (k ev detail param : Nat) : (s.notice k ev detail param).pins = s.pins := by
  unfold State.notice; split
  · rfl
  · split
    · rfl
    · simp
@[simp] theorem State.notice_time (k ev detail param : Nat) : (s.notice k ev detail param).time = s.time := by
  unfold State.notice; split
  · rfl
  · split
    · rfl
    · simp
@[simp] theorem State.notice_glb (k ev detail param : Nat) : (s.notice k ev detail param).glb = s.glb := by
  unfold State.notice; split
  · rfl
  · split
    · rfl
    · simp
@[simp] theorem State.notice_nvs (k ev detail param : Nat) : (s.notice k ev detail param).nvs = s.nvs := by
  unfold State.notice; split
  · rfl
  · split
    · rfl
    · simp
@[simp] theorem State.notice_pwr (k ev detail param : Nat) : (s.notice k ev detail param).pwr = s.pwr := by
  unfold State.notice; split
  · rfl
  · split
    · rfl
    · simp
@[simp] theorem State.notice_pstate (k ev detail param : Nat) : (s.notice k ev detail param).pstate = s.pstate := by
  unfold State.notice; split
  · rfl
  · split
    · rfl
    · simp
@[simp] theorem State.notice_wrp (k ev detail param : Nat) : (s.notice k ev detail param).wrp = s.wrp := by
  unfold State.notice; split
  · rfl
  · split
    · rfl
    · simp
@[simp] theorem State.notice_paths (k ev detail param : Nat) : (s.notice k ev detail param).paths = s.paths := by
  unfold State.notice; split
  · rfl
  · split
    · rfl
    · simp
@[simp] theorem State.notice_syn (k ev detail param : Nat) : (s.notice k ev detail param).syn = s.syn := by
  unfold State.notice; split
  · rfl
  · split
    · rfl
    · simp
@[simp] theorem State.notice_skn (k ev detail param : Nat) : (s.notice k ev detail param).skn = s.skn := by
  unfold State.notice; split
  · rfl
  · split
    · rfl
    · simp
@[simp] theorem State.notice_fft (k ev detail param : Nat) : (s.notice k ev detail param).fft = s.fft := by
  unfold State.notice; split
  · rfl
  · split
    · rfl
    · simp
@[simp] theorem State.notice_dpd (k ev detail param : Nat) : (s.notice k ev detail param).dpd = s.dpd := by
  unfold State.notice; split
  · rfl
  · split
    · rfl
    · simp
@[simp] theorem State.notice_rad (k ev detail param : Nat) : (s.notice k ev detail param).rad = s.rad := by
  unfold State.notice; split
  · rfl
  · split
    · rfl
    · simp
@[simp] theorem State.notice_lne (k ev detail param : Nat) : (s.notice k ev detail param).lne = s.lne := by
  unfold State.notice; split
  · rfl
  · split
    · rfl
    · simp
@[simp] theorem State.notice_tim (k ev detail param : Nat) : (s.notice k ev detail param).tim = s.tim := by
  unfold State.notice; split
  · rfl
  · split
    · rfl
    · simp
@[simp] theorem State.notice_cas (k ev detail param : Nat) : (s.notice k ev detail param).cas = s.cas := by
  unfold State.notice; split
  · rfl
  · split
    · rfl
    · simp
@[simp] theorem State.notice_acq (k ev detail param : Nat) : (s.notice k ev detail param).acq = s.acq := by
  unfold State.notice; split
  · rfl
  · split
    · rfl
    · simp
@[simp] theorem State.notice_mon (k ev detail param : Nat) : (s.notice k ev detail param).mon = s.mon := by
  unfold State.notice; split
  · rfl
  · split
    · rfl
    · simp
@[simp] theorem State.notice_drc (k ev detail param : Nat) : (s.notice k ev detail param).drc = s.drc := by
  unfold State.notice; split
  · rfl
  · split
    · rfl
    · simp
@[simp] theorem State.notice_dma (k ev detail param : Nat) : (s.notice k ev detail param).dma = s.dma := by
  unfold State.notice; split
  · rfl
  · split
    · rfl
    · simp
@[simp] theorem State.notice_hka (k ev detail param : Nat) : (s.notice k ev detail param).hka = s.hka := by
  unfold State.notice; split
  · rfl
  · split
    · rfl
    · simp
@[simp] theorem State.notice_bda (k ev detail param : Nat) : (s.notice k ev detail param).bda = s.bda := by
  unfold State.notice; split
  · rfl
  · split
    · rfl
    · simp
@[simp] theorem State.notice_thm (k ev detail param : Nat) : (s.notice k ev detail param).thm = s.thm := by
  unfold State.notice; split
  · rfl
  · split
    · rfl
    · simp
@[simp] theorem State.notice_rnd (k ev detail param : Nat) : (s.notice k ev detail param).rnd = s.rnd := by
  unfold State.notice; split
  · rfl
  · split
    · rfl
    · simp
@[simp] theorem State.noticeAll_pending (ev detail param : Nat) : (s.noticeAll ev detail param).pending = s.pending := by
  simp [State.noticeAll, forAll, List.range_succ]
@[simp] theorem State.noticeAll_fuse (ev detail param : Nat) : (s.noticeAll ev detail param).fuse = s.fuse := by
  simp [State.noticeAll, forAll, List.range_succ]
@[simp] theorem State.noticeAll_pins (ev detail param : Nat) : (s.noticeAll ev detail param).pins = s.pins := by
  simp [State.noticeAll, forAll, List.range_succ]
@[simp] theorem State.noticeAll_time (ev detail param : Nat) : (s.noticeAll ev detail param).time = s.time := by
  simp [State.noticeAll, forAll, List.range_succ]
@[simp] theorem State.noticeAll_glb (ev detail param : Nat) : (s.noticeAll ev detail param).glb = s.glb := by
  simp [State.noticeAll, forAll, List.range_succ]
@[simp] theorem State.noticeAll_nvs (ev detail param : Nat) : (s.noticeAll ev detail param).nvs = s.nvs := by
  simp [State.noticeAll, forAll, List.range_succ]
@[simp] theorem State.noticeAll_pwr (ev detail param : Nat) : (s.noticeAll ev detail param).pwr = s.pwr := by
  simp [State.noticeAll, forAll, List.range_succ]
@[simp] theorem State.noticeAll_pstate (ev detail param : Nat) : (s.noticeAll ev detail param).pstate = s.pstate := by
  simp [State.noticeAll, forAll, List.range_succ]
@[simp] theorem State.noticeAll_wrp (ev detail param : Nat) : (s.noticeAll ev detail param).wrp = s.wrp := by
  simp [State.noticeAll, forAll, List.range_succ]
@[simp] theorem State.noticeAll_paths (ev detail param : Nat) : (s.noticeAll ev detail param).paths = s.paths := by
  simp [State.noticeAll, forAll, List.range_succ]
@[simp] theorem State.noticeAll_syn (ev detail param : Nat) : (s.noticeAll ev detail param).syn = s.syn := by
  simp [State.noticeAll, forAll, List.range_succ]
@[simp] theorem State.noticeAll_skn (ev detail param : Nat) : (s.noticeAll ev detail param).skn = s.skn := by
  simp [State.noticeAll, forAll, List.range_succ]
@[simp] theorem State.noticeAll_fft (ev detail param : Nat) : (s.noticeAll ev detail param).fft = s.fft := by
  simp [State.noticeAll, forAll, List.range_succ]
@[simp] theorem State.noticeAll_dpd (ev detail param : Nat) : (s.noticeAll ev detail param).dpd = s.dpd := by
  simp [State.noticeAll, forAll, List.range_succ]
@[simp] theorem State.noticeAll_rad (ev detail param : Nat) : (s.noticeAll ev detail param).rad = s.rad := by
  simp [State.noticeAll, forAll, List.range_succ]
@[simp] theorem State.noticeAll_lne (ev detail param : Nat) : (s.noticeAll ev detail param).lne = s.lne := by
  simp [State.noticeAll, forAll, List.range_succ]
@[simp] theorem State.noticeAll_tim (ev detail param : Nat) : (s.noticeAll ev detail param).tim = s.tim := by
  simp [State.noticeAll, forAll, List.range_succ]
@[simp] theorem State.noticeAll_cas (ev detail param : Nat) : (s.noticeAll ev detail param).cas = s.cas := by
  simp [State.noticeAll, forAll, List.range_succ]
@[simp] theorem State.noticeAll_acq (ev detail param : Nat) : (s.noticeAll ev detail param).acq = s.acq := by
  simp [State.noticeAll, forAll, List.range_succ]
@[simp] theorem State.noticeAll_mon (ev detail param : Nat) : (s.noticeAll ev detail param).mon = s.mon := by
  simp [State.noticeAll, forAll, List.range_succ]
@[simp] theorem State.noticeAll_drc (ev detail param : Nat) : (s.noticeAll ev detail param).drc = s.drc := by
  simp [State.noticeAll, forAll, List.range_succ]
@[simp] theorem State.noticeAll_dma (ev detail param : Nat) : (s.noticeAll ev detail param).dma = s.dma := by
  simp [State.noticeAll, forAll, List.range_succ]
@[simp] theorem State.noticeAll_hka (ev detail param : Nat) : (s.noticeAll ev detail param).hka = s.hka := by
  simp [State.noticeAll, forAll, List.range_succ]
@[simp] theorem State.noticeAll_bda (ev detail param : Nat) : (s.noticeAll ev detail param).bda = s.bda := by
  simp [State.noticeAll, forAll, List.range_succ]
@[simp] theorem State.noticeAll_thm (ev detail param : Nat) : (s.noticeAll ev detail param).thm = s.thm := by
  simp [State.noticeAll, forAll, List.range_succ]
@[simp] theorem State.noticeAll_rnd (ev detail param : Nat) : (s.noticeAll ev detail param).rnd = s.rnd := by
  simp [State.noticeAll, forAll, List.range_succ]

end Sys2Proof.Machine
end

