-- ==== Sys2Proof/Laws/Bits.lean ====
section
/-!
SUPPORT. Fields of words: reading a field that was put, and the fields beside it.
-/

set_option Elab.async false

namespace Sys2Proof.Machine

/-- A word whose field [hi:lo] was put is the word's part above the field, the new value, and the part below. -/
theorem put_toNat (w : Word) {hi lo : Nat} (v : Nat) (h : lo ≤ hi) (h32 : hi < 32) :
    (put w hi lo v).toNat = w.toNat / 2 ^ (hi + 1) * 2 ^ (hi + 1) + v % 2 ^ (hi + 1 - lo) * 2 ^ lo + w.toNat % 2 ^ lo := by
  have hk : 2 ^ (hi + 1) = 2 ^ lo * 2 ^ (hi + 1 - lo) := by rw [← pow_add]; congr 1; omega
  have e1 := Nat.div_add_mod w.toNat (2 ^ lo)
  have e2 := Nat.div_add_mod (w.toNat / 2 ^ lo) (2 ^ (hi + 1 - lo))
  have e3 : w.toNat / 2 ^ lo / 2 ^ (hi + 1 - lo) = w.toNat / 2 ^ (hi + 1) := by rw [Nat.div_div_eq_div_mul, ← hk]
  have hv : v % 2 ^ (hi + 1 - lo) < 2 ^ (hi + 1 - lo) := Nat.mod_lt _ (by positivity)
  have hc : w.toNat % 2 ^ lo < 2 ^ lo := Nat.mod_lt _ (by positivity)
  rw [e3] at e2
  have key : w.toNat = w.toNat / 2 ^ (hi + 1) * 2 ^ (hi + 1) + fld w hi lo * 2 ^ lo + w.toNat % 2 ^ lo := by
    unfold fld
    have : w.toNat = 2 ^ lo * (2 ^ (hi + 1 - lo) * (w.toNat / 2 ^ (hi + 1)) + w.toNat / 2 ^ lo % 2 ^ (hi + 1 - lo)) + w.toNat % 2 ^ lo := by
      rw [e2]; exact e1.symm
    conv_lhs => rw [this]
    rw [hk]; ring
  have hpow : 2 ^ (hi + 1) * 2 ^ (32 - (hi + 1)) = 2 ^ 32 := by rw [← pow_add]; congr 1; omega
  have hw : w.toNat < 2 ^ 32 := w.isLt
  have ha : w.toNat / 2 ^ (hi + 1) < 2 ^ (32 - (hi + 1)) := by
    rw [Nat.div_lt_iff_lt_mul (by positivity)]; rw [mul_comm, hpow]; exact hw
  have hlt : v % 2 ^ (hi + 1 - lo) * 2 ^ lo + w.toNat % 2 ^ lo < 2 ^ (hi + 1) := by
    rw [hk]
    calc v % 2 ^ (hi + 1 - lo) * 2 ^ lo + w.toNat % 2 ^ lo < v % 2 ^ (hi + 1 - lo) * 2 ^ lo + 2 ^ lo := by omega
      _ = (v % 2 ^ (hi + 1 - lo) + 1) * 2 ^ lo := by ring
      _ ≤ 2 ^ (hi + 1 - lo) * 2 ^ lo := Nat.mul_le_mul_right _ hv
      _ = 2 ^ lo * 2 ^ (hi + 1 - lo) := by ring
  have htot : w.toNat / 2 ^ (hi + 1) * 2 ^ (hi + 1) + v % 2 ^ (hi + 1 - lo) * 2 ^ lo + w.toNat % 2 ^ lo < 2 ^ 32 := by
    calc w.toNat / 2 ^ (hi + 1) * 2 ^ (hi + 1) + v % 2 ^ (hi + 1 - lo) * 2 ^ lo + w.toNat % 2 ^ lo
        < w.toNat / 2 ^ (hi + 1) * 2 ^ (hi + 1) + 2 ^ (hi + 1) := by omega
      _ = (w.toNat / 2 ^ (hi + 1) + 1) * 2 ^ (hi + 1) := by ring
      _ ≤ 2 ^ (32 - (hi + 1)) * 2 ^ (hi + 1) := Nat.mul_le_mul_right _ ha
      _ = 2 ^ 32 := by rw [mul_comm, hpow]
  unfold put
  rw [BitVec.toNat_ofNat]
  have : w.toNat - fld w hi lo * 2 ^ lo + v % 2 ^ (hi + 1 - lo) * 2 ^ lo =
      w.toNat / 2 ^ (hi + 1) * 2 ^ (hi + 1) + v % 2 ^ (hi + 1 - lo) * 2 ^ lo + w.toNat % 2 ^ lo := by omega
  rw [this, Nat.mod_eq_of_lt htot]

/-- The field that was put. -/
theorem fld_put (w : Word) {hi lo : Nat} (v : Nat) (h : lo ≤ hi) (h32 : hi < 32) : fld (put w hi lo v) hi lo = v % 2 ^ (hi + 1 - lo) := by
  have hk : 2 ^ (hi + 1) = 2 ^ (hi + 1 - lo) * 2 ^ lo := by rw [← pow_add]; congr 1; omega
  have hc : w.toNat % 2 ^ lo < 2 ^ lo := Nat.mod_lt _ (by positivity)
  unfold fld
  rw [put_toNat w v h h32, hk]
  have : (w.toNat / (2 ^ (hi + 1 - lo) * 2 ^ lo) * (2 ^ (hi + 1 - lo) * 2 ^ lo) + v % 2 ^ (hi + 1 - lo) * 2 ^ lo + w.toNat % 2 ^ lo) =
      w.toNat % 2 ^ lo + 2 ^ lo * (w.toNat / (2 ^ (hi + 1 - lo) * 2 ^ lo) * 2 ^ (hi + 1 - lo) + v % 2 ^ (hi + 1 - lo)) := by ring
  rw [this, Nat.add_mul_div_left _ _ (by positivity), Nat.div_eq_of_lt hc, zero_add, Nat.add_comm, Nat.add_mul_mod_self_right, Nat.mod_mod]

/-- A field above the one that was put. -/
theorem fld_put_above (w : Word) {hi lo hi' lo' : Nat} (v : Nat) (h : lo ≤ hi) (h32 : hi < 32) (ha : hi < lo') :
    fld (put w hi lo v) hi' lo' = fld w hi' lo' := by
  have hk : 2 ^ (hi + 1) = 2 ^ (hi + 1 - lo) * 2 ^ lo := by rw [← pow_add]; congr 1; omega
  have hv : v % 2 ^ (hi + 1 - lo) < 2 ^ (hi + 1 - lo) := Nat.mod_lt _ (by positivity)
  have hc : w.toNat % 2 ^ lo < 2 ^ lo := Nat.mod_lt _ (by positivity)
  have hlt : v % 2 ^ (hi + 1 - lo) * 2 ^ lo + w.toNat % 2 ^ lo < 2 ^ (hi + 1) := by
    rw [hk]
    calc v % 2 ^ (hi + 1 - lo) * 2 ^ lo + w.toNat % 2 ^ lo < v % 2 ^ (hi + 1 - lo) * 2 ^ lo + 2 ^ lo := by omega
      _ = (v % 2 ^ (hi + 1 - lo) + 1) * 2 ^ lo := by ring
      _ ≤ 2 ^ (hi + 1 - lo) * 2 ^ lo := Nat.mul_le_mul_right _ hv
  have e : (put w hi lo v).toNat / 2 ^ (hi + 1) = w.toNat / 2 ^ (hi + 1) := by
    rw [put_toNat w v h h32, Nat.add_assoc, Nat.add_comm, Nat.add_mul_div_right _ _ (by positivity), Nat.div_eq_of_lt hlt, zero_add]
  have hl : 2 ^ lo' = 2 ^ (hi + 1) * 2 ^ (lo' - (hi + 1)) := by rw [← pow_add]; congr 1; omega
  unfold fld
  rw [hl, ← Nat.div_div_eq_div_mul, ← Nat.div_div_eq_div_mul, e]

/-- A field below the one that was put. -/
theorem fld_put_below (w : Word) {hi lo hi' lo' : Nat} (v : Nat) (h : lo ≤ hi) (h32 : hi < 32) (hb : hi' < lo) (hl : lo' ≤ hi') :
    fld (put w hi lo v) hi' lo' = fld w hi' lo' := by
  have hk : 2 ^ (hi + 1) = 2 ^ (hi + 1 - lo) * 2 ^ lo := by rw [← pow_add]; congr 1; omega
  have e : (put w hi lo v).toNat % 2 ^ lo = w.toNat % 2 ^ lo := by
    rw [put_toNat w v h h32, hk]
    have : (w.toNat / (2 ^ (hi + 1 - lo) * 2 ^ lo) * (2 ^ (hi + 1 - lo) * 2 ^ lo) + v % 2 ^ (hi + 1 - lo) * 2 ^ lo + w.toNat % 2 ^ lo) =
        w.toNat % 2 ^ lo + 2 ^ lo * (w.toNat / (2 ^ (hi + 1 - lo) * 2 ^ lo) * 2 ^ (hi + 1 - lo) + v % 2 ^ (hi + 1 - lo)) := by ring
    rw [this, Nat.add_mul_mod_self_left, Nat.mod_mod]
  have key : ∀ n : Nat, n / 2 ^ lo' % 2 ^ (hi' + 1 - lo') = n % 2 ^ lo % 2 ^ (hi' + 1) / 2 ^ lo' := by
    intro n
    rw [Nat.mod_mod_of_dvd _ (pow_dvd_pow 2 (by omega)), Nat.mod_eq_sub_mul_div, Nat.div_div_eq_div_mul, ← pow_add]
    have h1 : lo' + (hi' + 1 - lo') = hi' + 1 := by omega
    have h2 : 2 ^ (hi' + 1) = 2 ^ lo' * 2 ^ (hi' + 1 - lo') := by rw [← pow_add]; congr 1; omega
    rw [h1]
    conv_rhs => rw [Nat.mod_eq_sub_mul_div, h2, Nat.mul_assoc, Nat.sub_mul_div]
    rw [← h2]
  unfold fld
  rw [key, e, ← key]

/-- A bit is a field of one bit. -/
theorem bitOf_eq (w : Word) (i : Nat) : bitOf w i = decide (fld w i i = 1) := by
  have : i + 1 - i = 1 := by omega
  simp only [bitOf, fld, BitVec.getLsbD, Nat.testBit_eq_decide_div_mod_eq, this, pow_one]

/-- A bit that was put. -/
theorem bitOf_put (w : Word) {i : Nat} (b : Bool) (h32 : i < 32) : bitOf (put w i i (b2n b)) i = b := by
  have : i + 1 - i = 1 := by omega
  rw [bitOf_eq, fld_put w _ le_rfl h32, this]; cases b <;> rfl

/-- A bit of a word in which one bit was set. -/
theorem bitOf_set (w : Word) {i b : Nat} (h : i < 32) : bitOf (w ||| BitVec.ofNat 32 (2 ^ b)) i = (bitOf w i || decide (i = b)) := by
  simp only [bitOf, BitVec.getLsbD_or, BitVec.getLsbD_ofNat, h, decide_true, Bool.true_and, Nat.testBit_two_pow, eq_comm]

/-- An interrupt flag that is asserted reads as set, where its unit is present. -/
theorem State.bit_raise (s : State) {a b : Nat} (h : absentReg s.fuse.order a = false) (hb : b < 32) : (s.raise a b).bit a b = true := by
  simp only [State.bit, State.raise, h, Bool.false_eq_true, if_false, State.reg_setReg, if_true, bitOf_set _ hb, decide_true, Bool.or_true]

/-- The other flags stay. -/
theorem State.bit_raise_ne (s : State) {a b a' i : Nat} (hi : i < 32) (h : a' ≠ a ∨ i ≠ b) : (s.raise a b).bit a' i = s.bit a' i := by
  by_cases ha : a' = a
  · subst ha
    have hb : i ≠ b := by tauto
    unfold State.bit State.raise
    split
    · rfl
    · simp only [State.reg_setReg, if_true, bitOf_set _ hi, hb, decide_false, Bool.or_false]
  · unfold State.bit State.raise
    split
    · rfl
    · simp [ha]

theorem State.fld_setFld (s : State) (a v : Nat) {hi lo : Nat} (h : lo ≤ hi) (h32 : hi < 32) :
    (s.setFld a hi lo v).fld a hi lo = v % 2 ^ (hi + 1 - lo) := by
  simp [State.fld, fld_put _ _ h h32]

theorem State.bit_setFld (s : State) (a : Nat) (b : Bool) {i : Nat} (h32 : i < 32) : (s.setFld a i i (b2n b)).bit a i = b := by
  simp [State.bit, bitOf_put _ _ h32]

theorem State.fld_setFld_above (s : State) (a v : Nat) {hi lo hi' lo' : Nat} (h : lo ≤ hi) (h32 : hi < 32) (ha : hi < lo') :
    (s.setFld a hi lo v).fld a hi' lo' = s.fld a hi' lo' := by
  simp [State.fld, fld_put_above _ _ h h32 ha]

theorem State.fld_setFld_below (s : State) (a v : Nat) {hi lo hi' lo' : Nat} (h : lo ≤ hi) (h32 : hi < 32) (hb : hi' < lo) (hl : lo' ≤ hi') :
    (s.setFld a hi lo v).fld a hi' lo' = s.fld a hi' lo' := by
  simp [State.fld, fld_put_below _ _ h h32 hb hl]

theorem State.fld_setFld_ne (s : State) {a b : Nat} (v hi lo hi' lo' : Nat) (h : b ≠ a) : (s.setFld a hi lo v).fld b hi' lo' = s.fld b hi' lo' := by
  simp [State.fld, h]

end Sys2Proof.Machine
end

