-- ==== Sys2Proof/Laws/Keep.lean ====
section
/-!
SUPPORT. What the updates of the state can do: the commands that wait and the fuses stay, every memory keeps its canonical form, and
only the parts that an operation works on change. One lemma per operation, cited by the next.
-/

set_option linter.all false
set_option Elab.async false

namespace Sys2Proof.Machine

/-- `s` came from `s₀` by changes of the parts in `L` alone: what waits and what is fused is the same, and every memory is still in
canonical form. -/
structure Kept (L : Part → Bool) (s₀ s : State) : Prop where
  pend : s.pending = s₀.pending
  fuse : s.fuse = s₀.fuse
  mem : Memory.wf s₀ = true → Memory.wf s = true
  pins : L .pins = false → s.pins = s₀.pins
  time : L .time = false → s.time = s₀.time
  regs : L .regs = false → s.regs = s₀.regs ∧ s.aonRegs = s₀.aonRegs
  glb : L .glb = false → s.glb = s₀.glb
  nvs : L .nvs = false → s.nvs = s₀.nvs
  pwr : L .pwr = false → s.pwr = s₀.pwr
  pstate : L .pstate = false → s.pstate = s₀.pstate
  wrp : L .wrp = false → s.wrp = s₀.wrp
  paths : L .paths = false → s.paths = s₀.paths
  syn : L .syn = false → s.syn = s₀.syn
  skn : L .skn = false → s.skn = s₀.skn
  fft : L .fft = false → s.fft = s₀.fft
  dpd : L .dpd = false → s.dpd = s₀.dpd
  rad : L .rad = false → s.rad = s₀.rad
  lne : L .lne = false → s.lne = s₀.lne
  fhp : L .fhp = false → s.fhp = s₀.fhp
  tim : L .tim = false → s.tim = s₀.tim
  cas : L .cas = false → s.cas = s₀.cas
  acq : L .acq = false → s.acq = s₀.acq
  mon : L .mon = false → s.mon = s₀.mon
  drc : L .drc = false → s.drc = s₀.drc
  dma : L .dma = false → s.dma = s₀.dma
  hka : L .hka = false → s.hka = s₀.hka
  bda : L .bda = false → s.bda = s₀.bda
  thm : L .thm = false → s.thm = s₀.thm
  rnd : L .rnd = false → s.rnd = s₀.rnd

variable {L : Part → Bool} {s₀ s : State}

theorem Kept.refl (L : Part → Bool) (s₀ : State) : Kept L s₀ s₀ :=
  ⟨rfl, rfl, fun h => h, fun _ => rfl, fun _ => rfl, fun _ => ⟨rfl, rfl⟩, fun _ => rfl, fun _ => rfl, fun _ => rfl, fun _ => rfl, fun _ => rfl, fun _ => rfl, fun _ => rfl, fun _ => rfl, fun _ => rfl, fun _ => rfl, fun _ => rfl, fun _ => rfl, fun _ => rfl, fun _ => rfl, fun _ => rfl, fun _ => rfl, fun _ => rfl, fun _ => rfl, fun _ => rfl, fun _ => rfl, fun _ => rfl, fun _ => rfl, fun _ => rfl⟩

theorem wf_iff : Memory.wf s = true ↔ twf regReset s.regs = true ∧ twf regReset s.aonRegs = true ∧ twf blank s.nvs.store = true ∧
    twf erased s.glb.flash = true ∧ twf blank s.glb.flashBuf = true ∧ twf blank s.skn.dl = true ∧ twf blank s.skn.ul = true ∧
    twf blank s.dpd.coef = true ∧ twf blank s.drc.mem = true ∧ twf blank s.dma.window = true ∧ twf (fun _ => 0) s.dma.prog = true := by
  simp only [Memory.wf, Bool.and_eq_true, and_assoc]

theorem twf_nil {α : Type} [DecidableEq α] {d : Nat → α} : twf d [] = true := rfl

theorem twf_windowWrite {ok : Nat → Bool} {m : Tab Byte} (off : Nat) (bs : List Byte) (h : twf blank m = true) :
    twf blank (windowWrite ok m off bs) = true := twf_mwrite _ _ h

theorem modPins_keeps {f : Pins → Pins} (hp : L .pins = true) (h : Kept L s₀ s) : Kept L s₀ (s.modPins f) :=
  ⟨h.pend, h.fuse, h.mem, (fun e => Bool.noConfusion (hp.symm.trans e)), h.time, h.regs, h.glb, h.nvs, h.pwr, h.pstate, h.wrp, h.paths, h.syn, h.skn, h.fft, h.dpd, h.rad, h.lne, h.fhp, h.tim, h.cas, h.acq, h.mon, h.drc, h.dma, h.hka, h.bda, h.thm, h.rnd⟩
theorem modTime_keeps {f : Time → Time} (hp : L .time = true) (h : Kept L s₀ s) : Kept L s₀ (s.modTime f) :=
  ⟨h.pend, h.fuse, h.mem, h.pins, (fun e => Bool.noConfusion (hp.symm.trans e)), h.regs, h.glb, h.nvs, h.pwr, h.pstate, h.wrp, h.paths, h.syn, h.skn, h.fft, h.dpd, h.rad, h.lne, h.fhp, h.tim, h.cas, h.acq, h.mon, h.drc, h.dma, h.hka, h.bda, h.thm, h.rnd⟩
theorem modGlb_keeps {f : Glb → Glb} (hp : L .glb = true) (h1 : twf erased s.glb.flash = true → twf erased (f s.glb).flash = true) (h2 : twf blank s.glb.flashBuf = true → twf blank (f s.glb).flashBuf = true) (h : Kept L s₀ s) : Kept L s₀ (s.modGlb f) :=
  ⟨h.pend, h.fuse, fun e => wf_iff.mpr (by
    have w := wf_iff.mp (h.mem e)
    exact ⟨w.1, w.2.1, w.2.2.1, h1 (w.2.2.2.1), h2 (w.2.2.2.2.1), w.2.2.2.2.2.1, w.2.2.2.2.2.2.1, w.2.2.2.2.2.2.2.1, w.2.2.2.2.2.2.2.2.1, w.2.2.2.2.2.2.2.2.2.1, w.2.2.2.2.2.2.2.2.2.2⟩), h.pins, h.time, h.regs, (fun e => Bool.noConfusion (hp.symm.trans e)), h.nvs, h.pwr, h.pstate, h.wrp, h.paths, h.syn, h.skn, h.fft, h.dpd, h.rad, h.lne, h.fhp, h.tim, h.cas, h.acq, h.mon, h.drc, h.dma, h.hka, h.bda, h.thm, h.rnd⟩
theorem modNvs_keeps {f : Nvs → Nvs} (hp : L .nvs = true) (h1 : twf blank s.nvs.store = true → twf blank (f s.nvs).store = true) (h : Kept L s₀ s) : Kept L s₀ (s.modNvs f) :=
  ⟨h.pend, h.fuse, fun e => wf_iff.mpr (by
    have w := wf_iff.mp (h.mem e)
    exact ⟨w.1, w.2.1, h1 (w.2.2.1), w.2.2.2.1, w.2.2.2.2.1, w.2.2.2.2.2.1, w.2.2.2.2.2.2.1, w.2.2.2.2.2.2.2.1, w.2.2.2.2.2.2.2.2.1, w.2.2.2.2.2.2.2.2.2.1, w.2.2.2.2.2.2.2.2.2.2⟩), h.pins, h.time, h.regs, h.glb, (fun e => Bool.noConfusion (hp.symm.trans e)), h.pwr, h.pstate, h.wrp, h.paths, h.syn, h.skn, h.fft, h.dpd, h.rad, h.lne, h.fhp, h.tim, h.cas, h.acq, h.mon, h.drc, h.dma, h.hka, h.bda, h.thm, h.rnd⟩
theorem modPwr_keeps {f : Pwr → Pwr} (hp : L .pwr = true) (h : Kept L s₀ s) : Kept L s₀ (s.modPwr f) :=
  ⟨h.pend, h.fuse, h.mem, h.pins, h.time, h.regs, h.glb, h.nvs, (fun e => Bool.noConfusion (hp.symm.trans e)), h.pstate, h.wrp, h.paths, h.syn, h.skn, h.fft, h.dpd, h.rad, h.lne, h.fhp, h.tim, h.cas, h.acq, h.mon, h.drc, h.dma, h.hka, h.bda, h.thm, h.rnd⟩
theorem modPState_keeps {f : PState → PState} (hp : L .pstate = true) (h : Kept L s₀ s) : Kept L s₀ (s.modPState f) :=
  ⟨h.pend, h.fuse, h.mem, h.pins, h.time, h.regs, h.glb, h.nvs, h.pwr, (fun e => Bool.noConfusion (hp.symm.trans e)), h.wrp, h.paths, h.syn, h.skn, h.fft, h.dpd, h.rad, h.lne, h.fhp, h.tim, h.cas, h.acq, h.mon, h.drc, h.dma, h.hka, h.bda, h.thm, h.rnd⟩
theorem modRail_keeps {n : Nat} {f : Rail → Rail} (hp : L .pwr = true) (h : Kept L s₀ s) : Kept L s₀ (s.modRail n f) :=
  ⟨h.pend, h.fuse, h.mem, h.pins, h.time, h.regs, h.glb, h.nvs, (fun e => Bool.noConfusion (hp.symm.trans e)), h.pstate, h.wrp, h.paths, h.syn, h.skn, h.fft, h.dpd, h.rad, h.lne, h.fhp, h.tim, h.cas, h.acq, h.mon, h.drc, h.dma, h.hka, h.bda, h.thm, h.rnd⟩
theorem modWrp_keeps {f : Wrp → Wrp} (hp : L .wrp = true) (h : Kept L s₀ s) : Kept L s₀ (s.modWrp f) :=
  ⟨h.pend, h.fuse, h.mem, h.pins, h.time, h.regs, h.glb, h.nvs, h.pwr, h.pstate, (fun e => Bool.noConfusion (hp.symm.trans e)), h.paths, h.syn, h.skn, h.fft, h.dpd, h.rad, h.lne, h.fhp, h.tim, h.cas, h.acq, h.mon, h.drc, h.dma, h.hka, h.bda, h.thm, h.rnd⟩
theorem modPath_keeps {p : Nat} {f : PathSt → PathSt} (hp : L .paths = true) (h : Kept L s₀ s) : Kept L s₀ (s.modPath p f) :=
  ⟨h.pend, h.fuse, h.mem, h.pins, h.time, h.regs, h.glb, h.nvs, h.pwr, h.pstate, h.wrp, (fun e => Bool.noConfusion (hp.symm.trans e)), h.syn, h.skn, h.fft, h.dpd, h.rad, h.lne, h.fhp, h.tim, h.cas, h.acq, h.mon, h.drc, h.dma, h.hka, h.bda, h.thm, h.rnd⟩
theorem modSyn_keeps {f : Syn → Syn} (hp : L .syn = true) (h : Kept L s₀ s) : Kept L s₀ (s.modSyn f) :=
  ⟨h.pend, h.fuse, h.mem, h.pins, h.time, h.regs, h.glb, h.nvs, h.pwr, h.pstate, h.wrp, h.paths, (fun e => Bool.noConfusion (hp.symm.trans e)), h.skn, h.fft, h.dpd, h.rad, h.lne, h.fhp, h.tim, h.cas, h.acq, h.mon, h.drc, h.dma, h.hka, h.bda, h.thm, h.rnd⟩
theorem modUnit_keeps {u : Nat} {f : SynUnit → SynUnit} (hp : L .syn = true) (h : Kept L s₀ s) : Kept L s₀ (s.modUnit u f) :=
  ⟨h.pend, h.fuse, h.mem, h.pins, h.time, h.regs, h.glb, h.nvs, h.pwr, h.pstate, h.wrp, h.paths, (fun e => Bool.noConfusion (hp.symm.trans e)), h.skn, h.fft, h.dpd, h.rad, h.lne, h.fhp, h.tim, h.cas, h.acq, h.mon, h.drc, h.dma, h.hka, h.bda, h.thm, h.rnd⟩
theorem modRole_keeps {r : Nat} {f : SynRole → SynRole} (hp : L .syn = true) (h : Kept L s₀ s) : Kept L s₀ (s.modRole r f) :=
  ⟨h.pend, h.fuse, h.mem, h.pins, h.time, h.regs, h.glb, h.nvs, h.pwr, h.pstate, h.wrp, h.paths, (fun e => Bool.noConfusion (hp.symm.trans e)), h.skn, h.fft, h.dpd, h.rad, h.lne, h.fhp, h.tim, h.cas, h.acq, h.mon, h.drc, h.dma, h.hka, h.bda, h.thm, h.rnd⟩
theorem modSkn_keeps {f : Skn → Skn} (hp : L .skn = true) (h1 : twf blank s.skn.dl = true → twf blank (f s.skn).dl = true) (h2 : twf blank s.skn.ul = true → twf blank (f s.skn).ul = true) (h : Kept L s₀ s) : Kept L s₀ (s.modSkn f) :=
  ⟨h.pend, h.fuse, fun e => wf_iff.mpr (by
    have w := wf_iff.mp (h.mem e)
    exact ⟨w.1, w.2.1, w.2.2.1, w.2.2.2.1, w.2.2.2.2.1, h1 (w.2.2.2.2.2.1), h2 (w.2.2.2.2.2.2.1), w.2.2.2.2.2.2.2.1, w.2.2.2.2.2.2.2.2.1, w.2.2.2.2.2.2.2.2.2.1, w.2.2.2.2.2.2.2.2.2.2⟩), h.pins, h.time, h.regs, h.glb, h.nvs, h.pwr, h.pstate, h.wrp, h.paths, h.syn, (fun e => Bool.noConfusion (hp.symm.trans e)), h.fft, h.dpd, h.rad, h.lne, h.fhp, h.tim, h.cas, h.acq, h.mon, h.drc, h.dma, h.hka, h.bda, h.thm, h.rnd⟩
theorem modFft_keeps {e : Nat} {f : FftEngine → FftEngine} (hp : L .fft = true) (h : Kept L s₀ s) : Kept L s₀ (s.modFft e f) :=
  ⟨h.pend, h.fuse, h.mem, h.pins, h.time, h.regs, h.glb, h.nvs, h.pwr, h.pstate, h.wrp, h.paths, h.syn, h.skn, (fun e => Bool.noConfusion (hp.symm.trans e)), h.dpd, h.rad, h.lne, h.fhp, h.tim, h.cas, h.acq, h.mon, h.drc, h.dma, h.hka, h.bda, h.thm, h.rnd⟩
theorem modDpd_keeps {f : Dpd → Dpd} (hp : L .dpd = true) (h1 : twf blank s.dpd.coef = true → twf blank (f s.dpd).coef = true) (h : Kept L s₀ s) : Kept L s₀ (s.modDpd f) :=
  ⟨h.pend, h.fuse, fun e => wf_iff.mpr (by
    have w := wf_iff.mp (h.mem e)
    exact ⟨w.1, w.2.1, w.2.2.1, w.2.2.2.1, w.2.2.2.2.1, w.2.2.2.2.2.1, w.2.2.2.2.2.2.1, h1 (w.2.2.2.2.2.2.2.1), w.2.2.2.2.2.2.2.2.1, w.2.2.2.2.2.2.2.2.2.1, w.2.2.2.2.2.2.2.2.2.2⟩), h.pins, h.time, h.regs, h.glb, h.nvs, h.pwr, h.pstate, h.wrp, h.paths, h.syn, h.skn, h.fft, (fun e => Bool.noConfusion (hp.symm.trans e)), h.rad, h.lne, h.fhp, h.tim, h.cas, h.acq, h.mon, h.drc, h.dma, h.hka, h.bda, h.thm, h.rnd⟩
theorem modDpdPath_keeps {p : Nat} {f : DpdPath → DpdPath} (hp : L .dpd = true) (h : Kept L s₀ s) : Kept L s₀ (s.modDpdPath p f) :=
  ⟨h.pend, h.fuse, h.mem, h.pins, h.time, h.regs, h.glb, h.nvs, h.pwr, h.pstate, h.wrp, h.paths, h.syn, h.skn, h.fft, (fun e => Bool.noConfusion (hp.symm.trans e)), h.rad, h.lne, h.fhp, h.tim, h.cas, h.acq, h.mon, h.drc, h.dma, h.hka, h.bda, h.thm, h.rnd⟩
theorem modObs_keeps {o : Nat} {f : Obs → Obs} (hp : L .dpd = true) (h : Kept L s₀ s) : Kept L s₀ (s.modObs o f) :=
  ⟨h.pend, h.fuse, h.mem, h.pins, h.time, h.regs, h.glb, h.nvs, h.pwr, h.pstate, h.wrp, h.paths, h.syn, h.skn, h.fft, (fun e => Bool.noConfusion (hp.symm.trans e)), h.rad, h.lne, h.fhp, h.tim, h.cas, h.acq, h.mon, h.drc, h.dma, h.hka, h.bda, h.thm, h.rnd⟩
theorem modRad_keeps {f : Rad → Rad} (hp : L .rad = true) (h : Kept L s₀ s) : Kept L s₀ (s.modRad f) :=
  ⟨h.pend, h.fuse, h.mem, h.pins, h.time, h.regs, h.glb, h.nvs, h.pwr, h.pstate, h.wrp, h.paths, h.syn, h.skn, h.fft, h.dpd, (fun e => Bool.noConfusion (hp.symm.trans e)), h.lne, h.fhp, h.tim, h.cas, h.acq, h.mon, h.drc, h.dma, h.hka, h.bda, h.thm, h.rnd⟩
theorem modGroup_keeps {g : Nat} {f : Group → Group} (hp : L .rad = true) (h : Kept L s₀ s) : Kept L s₀ (s.modGroup g f) :=
  ⟨h.pend, h.fuse, h.mem, h.pins, h.time, h.regs, h.glb, h.nvs, h.pwr, h.pstate, h.wrp, h.paths, h.syn, h.skn, h.fft, h.dpd, (fun e => Bool.noConfusion (hp.symm.trans e)), h.lne, h.fhp, h.tim, h.cas, h.acq, h.mon, h.drc, h.dma, h.hka, h.bda, h.thm, h.rnd⟩
theorem modLne_keeps {f : Lne → Lne} (hp : L .lne = true) (h : Kept L s₀ s) : Kept L s₀ (s.modLne f) :=
  ⟨h.pend, h.fuse, h.mem, h.pins, h.time, h.regs, h.glb, h.nvs, h.pwr, h.pstate, h.wrp, h.paths, h.syn, h.skn, h.fft, h.dpd, h.rad, (fun e => Bool.noConfusion (hp.symm.trans e)), h.fhp, h.tim, h.cas, h.acq, h.mon, h.drc, h.dma, h.hka, h.bda, h.thm, h.rnd⟩
theorem modLane_keeps {n : Nat} {f : Lane → Lane} (hp : L .lne = true) (h : Kept L s₀ s) : Kept L s₀ (s.modLane n f) :=
  ⟨h.pend, h.fuse, h.mem, h.pins, h.time, h.regs, h.glb, h.nvs, h.pwr, h.pstate, h.wrp, h.paths, h.syn, h.skn, h.fft, h.dpd, h.rad, (fun e => Bool.noConfusion (hp.symm.trans e)), h.fhp, h.tim, h.cas, h.acq, h.mon, h.drc, h.dma, h.hka, h.bda, h.thm, h.rnd⟩
theorem modPort_keeps {q : Nat} {f : Port → Port} (hp : L .lne = true) (h : Kept L s₀ s) : Kept L s₀ (s.modPort q f) :=
  ⟨h.pend, h.fuse, h.mem, h.pins, h.time, h.regs, h.glb, h.nvs, h.pwr, h.pstate, h.wrp, h.paths, h.syn, h.skn, h.fft, h.dpd, h.rad, (fun e => Bool.noConfusion (hp.symm.trans e)), h.fhp, h.tim, h.cas, h.acq, h.mon, h.drc, h.dma, h.hka, h.bda, h.thm, h.rnd⟩
theorem modFhp_keeps {f : Fhp → Fhp} (hp : L .fhp = true) (h : Kept L s₀ s) : Kept L s₀ (s.modFhp f) :=
  ⟨h.pend, h.fuse, h.mem, h.pins, h.time, h.regs, h.glb, h.nvs, h.pwr, h.pstate, h.wrp, h.paths, h.syn, h.skn, h.fft, h.dpd, h.rad, h.lne, (fun e => Bool.noConfusion (hp.symm.trans e)), h.tim, h.cas, h.acq, h.mon, h.drc, h.dma, h.hka, h.bda, h.thm, h.rnd⟩
theorem modFlock_keeps {k : Nat} {f : FlockSt → FlockSt} (hp : L .fhp = true) (h : Kept L s₀ s) : Kept L s₀ (s.modFlock k f) :=
  ⟨h.pend, h.fuse, h.mem, h.pins, h.time, h.regs, h.glb, h.nvs, h.pwr, h.pstate, h.wrp, h.paths, h.syn, h.skn, h.fft, h.dpd, h.rad, h.lne, (fun e => Bool.noConfusion (hp.symm.trans e)), h.tim, h.cas, h.acq, h.mon, h.drc, h.dma, h.hka, h.bda, h.thm, h.rnd⟩
theorem modTim_keeps {f : Tim → Tim} (hp : L .tim = true) (h : Kept L s₀ s) : Kept L s₀ (s.modTim f) :=
  ⟨h.pend, h.fuse, h.mem, h.pins, h.time, h.regs, h.glb, h.nvs, h.pwr, h.pstate, h.wrp, h.paths, h.syn, h.skn, h.fft, h.dpd, h.rad, h.lne, h.fhp, (fun e => Bool.noConfusion (hp.symm.trans e)), h.cas, h.acq, h.mon, h.drc, h.dma, h.hka, h.bda, h.thm, h.rnd⟩
theorem modCas_keeps {f : Cas → Cas} (hp : L .cas = true) (h : Kept L s₀ s) : Kept L s₀ (s.modCas f) :=
  ⟨h.pend, h.fuse, h.mem, h.pins, h.time, h.regs, h.glb, h.nvs, h.pwr, h.pstate, h.wrp, h.paths, h.syn, h.skn, h.fft, h.dpd, h.rad, h.lne, h.fhp, h.tim, (fun e => Bool.noConfusion (hp.symm.trans e)), h.acq, h.mon, h.drc, h.dma, h.hka, h.bda, h.thm, h.rnd⟩
theorem modNbr_keeps {n : Nat} {f : Nbr → Nbr} (hp : L .cas = true) (h : Kept L s₀ s) : Kept L s₀ (s.modNbr n f) :=
  ⟨h.pend, h.fuse, h.mem, h.pins, h.time, h.regs, h.glb, h.nvs, h.pwr, h.pstate, h.wrp, h.paths, h.syn, h.skn, h.fft, h.dpd, h.rad, h.lne, h.fhp, h.tim, (fun e => Bool.noConfusion (hp.symm.trans e)), h.acq, h.mon, h.drc, h.dma, h.hka, h.bda, h.thm, h.rnd⟩
theorem modAcq_keeps {f : Acq → Acq} (hp : L .acq = true) (h : Kept L s₀ s) : Kept L s₀ (s.modAcq f) :=
  ⟨h.pend, h.fuse, h.mem, h.pins, h.time, h.regs, h.glb, h.nvs, h.pwr, h.pstate, h.wrp, h.paths, h.syn, h.skn, h.fft, h.dpd, h.rad, h.lne, h.fhp, h.tim, h.cas, (fun e => Bool.noConfusion (hp.symm.trans e)), h.mon, h.drc, h.dma, h.hka, h.bda, h.thm, h.rnd⟩
theorem modStream_keeps {n : Nat} {f : Stream → Stream} (hp : L .acq = true) (h : Kept L s₀ s) : Kept L s₀ (s.modStream n f) :=
  ⟨h.pend, h.fuse, h.mem, h.pins, h.time, h.regs, h.glb, h.nvs, h.pwr, h.pstate, h.wrp, h.paths, h.syn, h.skn, h.fft, h.dpd, h.rad, h.lne, h.fhp, h.tim, h.cas, (fun e => Bool.noConfusion (hp.symm.trans e)), h.mon, h.drc, h.dma, h.hka, h.bda, h.thm, h.rnd⟩
theorem modMon_keeps {n : Nat} {f : MonChain → MonChain} (hp : L .mon = true) (h : Kept L s₀ s) : Kept L s₀ (s.modMon n f) :=
  ⟨h.pend, h.fuse, h.mem, h.pins, h.time, h.regs, h.glb, h.nvs, h.pwr, h.pstate, h.wrp, h.paths, h.syn, h.skn, h.fft, h.dpd, h.rad, h.lne, h.fhp, h.tim, h.cas, h.acq, (fun e => Bool.noConfusion (hp.symm.trans e)), h.drc, h.dma, h.hka, h.bda, h.thm, h.rnd⟩
theorem modMons_keeps {f : Vector MonChain 8 → Vector MonChain 8} (hp : L .mon = true) (h : Kept L s₀ s) : Kept L s₀ (s.modMons f) :=
  ⟨h.pend, h.fuse, h.mem, h.pins, h.time, h.regs, h.glb, h.nvs, h.pwr, h.pstate, h.wrp, h.paths, h.syn, h.skn, h.fft, h.dpd, h.rad, h.lne, h.fhp, h.tim, h.cas, h.acq, (fun e => Bool.noConfusion (hp.symm.trans e)), h.drc, h.dma, h.hka, h.bda, h.thm, h.rnd⟩
theorem modDrc_keeps {f : Drc → Drc} (hp : L .drc = true) (h1 : twf blank s.drc.mem = true → twf blank (f s.drc).mem = true) (h : Kept L s₀ s) : Kept L s₀ (s.modDrc f) :=
  ⟨h.pend, h.fuse, fun e => wf_iff.mpr (by
    have w := wf_iff.mp (h.mem e)
    exact ⟨w.1, w.2.1, w.2.2.1, w.2.2.2.1, w.2.2.2.2.1, w.2.2.2.2.2.1, w.2.2.2.2.2.2.1, w.2.2.2.2.2.2.2.1, h1 (w.2.2.2.2.2.2.2.2.1), w.2.2.2.2.2.2.2.2.2.1, w.2.2.2.2.2.2.2.2.2.2⟩), h.pins, h.time, h.regs, h.glb, h.nvs, h.pwr, h.pstate, h.wrp, h.paths, h.syn, h.skn, h.fft, h.dpd, h.rad, h.lne, h.fhp, h.tim, h.cas, h.acq, h.mon, (fun e => Bool.noConfusion (hp.symm.trans e)), h.dma, h.hka, h.bda, h.thm, h.rnd⟩
theorem modDma_keeps {f : Dma → Dma} (hp : L .dma = true) (h1 : twf blank s.dma.window = true → twf blank (f s.dma).window = true) (h2 : twf (fun _ => 0) s.dma.prog = true → twf (fun _ => 0) (f s.dma).prog = true) (h : Kept L s₀ s) : Kept L s₀ (s.modDma f) :=
  ⟨h.pend, h.fuse, fun e => wf_iff.mpr (by
    have w := wf_iff.mp (h.mem e)
    exact ⟨w.1, w.2.1, w.2.2.1, w.2.2.2.1, w.2.2.2.2.1, w.2.2.2.2.2.1, w.2.2.2.2.2.2.1, w.2.2.2.2.2.2.2.1, w.2.2.2.2.2.2.2.2.1, h1 (w.2.2.2.2.2.2.2.2.2.1), h2 (w.2.2.2.2.2.2.2.2.2.2)⟩), h.pins, h.time, h.regs, h.glb, h.nvs, h.pwr, h.pstate, h.wrp, h.paths, h.syn, h.skn, h.fft, h.dpd, h.rad, h.lne, h.fhp, h.tim, h.cas, h.acq, h.mon, h.drc, (fun e => Bool.noConfusion (hp.symm.trans e)), h.hka, h.bda, h.thm, h.rnd⟩
theorem modCh_keeps {c : Nat} {f : DmaCh → DmaCh} (hp : L .dma = true) (h : Kept L s₀ s) : Kept L s₀ (s.modCh c f) :=
  ⟨h.pend, h.fuse, h.mem, h.pins, h.time, h.regs, h.glb, h.nvs, h.pwr, h.pstate, h.wrp, h.paths, h.syn, h.skn, h.fft, h.dpd, h.rad, h.lne, h.fhp, h.tim, h.cas, h.acq, h.mon, h.drc, (fun e => Bool.noConfusion (hp.symm.trans e)), h.hka, h.bda, h.thm, h.rnd⟩
theorem modHka_keeps {f : Hka → Hka} (hp : L .hka = true) (h : Kept L s₀ s) : Kept L s₀ (s.modHka f) :=
  ⟨h.pend, h.fuse, h.mem, h.pins, h.time, h.regs, h.glb, h.nvs, h.pwr, h.pstate, h.wrp, h.paths, h.syn, h.skn, h.fft, h.dpd, h.rad, h.lne, h.fhp, h.tim, h.cas, h.acq, h.mon, h.drc, h.dma, (fun e => Bool.noConfusion (hp.symm.trans e)), h.bda, h.thm, h.rnd⟩
theorem modBda_keeps {f : Bda → Bda} (hp : L .bda = true) (h : Kept L s₀ s) : Kept L s₀ (s.modBda f) :=
  ⟨h.pend, h.fuse, h.mem, h.pins, h.time, h.regs, h.glb, h.nvs, h.pwr, h.pstate, h.wrp, h.paths, h.syn, h.skn, h.fft, h.dpd, h.rad, h.lne, h.fhp, h.tim, h.cas, h.acq, h.mon, h.drc, h.dma, h.hka, (fun e => Bool.noConfusion (hp.symm.trans e)), h.thm, h.rnd⟩
theorem modOut_keeps {n : Nat} {f : BOut → BOut} (hp : L .bda = true) (h : Kept L s₀ s) : Kept L s₀ (s.modOut n f) :=
  ⟨h.pend, h.fuse, h.mem, h.pins, h.time, h.regs, h.glb, h.nvs, h.pwr, h.pstate, h.wrp, h.paths, h.syn, h.skn, h.fft, h.dpd, h.rad, h.lne, h.fhp, h.tim, h.cas, h.acq, h.mon, h.drc, h.dma, h.hka, (fun e => Bool.noConfusion (hp.symm.trans e)), h.thm, h.rnd⟩
theorem modThm_keeps {f : Thm → Thm} (hp : L .thm = true) (h : Kept L s₀ s) : Kept L s₀ (s.modThm f) :=
  ⟨h.pend, h.fuse, h.mem, h.pins, h.time, h.regs, h.glb, h.nvs, h.pwr, h.pstate, h.wrp, h.paths, h.syn, h.skn, h.fft, h.dpd, h.rad, h.lne, h.fhp, h.tim, h.cas, h.acq, h.mon, h.drc, h.dma, h.hka, h.bda, (fun e => Bool.noConfusion (hp.symm.trans e)), h.rnd⟩
theorem modZone_keeps {z : Nat} {f : Zone → Zone} (hp : L .thm = true) (h : Kept L s₀ s) : Kept L s₀ (s.modZone z f) :=
  ⟨h.pend, h.fuse, h.mem, h.pins, h.time, h.regs, h.glb, h.nvs, h.pwr, h.pstate, h.wrp, h.paths, h.syn, h.skn, h.fft, h.dpd, h.rad, h.lne, h.fhp, h.tim, h.cas, h.acq, h.mon, h.drc, h.dma, h.hka, h.bda, (fun e => Bool.noConfusion (hp.symm.trans e)), h.rnd⟩
theorem modSensor_keeps {i : Nat} {f : Sensor → Sensor} (hp : L .thm = true) (h : Kept L s₀ s) : Kept L s₀ (s.modSensor i f) :=
  ⟨h.pend, h.fuse, h.mem, h.pins, h.time, h.regs, h.glb, h.nvs, h.pwr, h.pstate, h.wrp, h.paths, h.syn, h.skn, h.fft, h.dpd, h.rad, h.lne, h.fhp, h.tim, h.cas, h.acq, h.mon, h.drc, h.dma, h.hka, h.bda, (fun e => Bool.noConfusion (hp.symm.trans e)), h.rnd⟩
theorem modSlot_keeps {ul : Bool} {l : Nat} {f : Slot → Slot} (hp : L .skn = true) (h : Kept L s₀ s) : Kept L s₀ (s.modSlot ul l f) := by
  cases ul <;> exact ⟨h.pend, h.fuse, h.mem, h.pins, h.time, h.regs, h.glb, h.nvs, h.pwr, h.pstate, h.wrp, h.paths, h.syn, (fun e => Bool.noConfusion (hp.symm.trans e)), h.fft, h.dpd, h.rad, h.lne, h.fhp, h.tim, h.cas, h.acq, h.mon, h.drc, h.dma, h.hka, h.bda, h.thm, h.rnd⟩



theorem forAll_keeps {α : Type} {l : List α} {f : α → State → State} (hf : ∀ x t, Kept L s₀ t → Kept L s₀ (f x t)) (h : Kept L s₀ s) :
    Kept L s₀ (forAll l f s) := by
  unfold forAll
  induction l generalizing s with
  | nil => exact h
  | cons x l ih => exact ih (hf x s h)

theorem foldl_keeps {α : Type} {l : List α} {f : State → α → State} (hf : ∀ t x, Kept L s₀ t → Kept L s₀ (f t x)) (h : Kept L s₀ s) :
    Kept L s₀ (l.foldl f s) := by
  induction l generalizing s with
  | nil => exact h
  | cons x l ih => exact ih (hf s x h)

theorem iter_keeps {f : State → State} {n : Nat} (hf : ∀ t, Kept L s₀ t → Kept L s₀ (f t)) (K : Kept L s₀ s) : Kept L s₀ (iter f n s) := by
  induction n generalizing s with
  | zero => exact K
  | succ n ih => exact ih (hf s K)

theorem whenB_keeps {b : Bool} {f : State → State} (hf : ∀ t, Kept L s₀ t → Kept L s₀ (f t)) (h : Kept L s₀ s) : Kept L s₀ (whenB b f s) := by
  unfold whenB; split
  · exact hf s h
  · exact h

theorem hosted_keeps {a : Nat} {f : State → State} (hf : ∀ t, Kept L s₀ t → Kept L s₀ (f t)) (h : Kept L s₀ s) :
    Kept L s₀ (s.hosted a f) := by
  unfold State.hosted; split
  · exact hf s h
  · exact h

theorem draw_keeps (hp : L .rnd = true) (h : Kept L s₀ s) : Kept L s₀ s.draw.2 :=
  ⟨h.pend, h.fuse, h.mem, h.pins, h.time, h.regs, h.glb, h.nvs, h.pwr, h.pstate, h.wrp, h.paths, h.syn, h.skn, h.fft, h.dpd, h.rad, h.lne, h.fhp, h.tim, h.cas, h.acq, h.mon, h.drc, h.dma, h.hka, h.bda, h.thm, (fun e => Bool.noConfusion (hp.symm.trans e))⟩

theorem setReg_keeps {a : Nat} {v : Word} (hp : L .regs = true) (h : Kept L s₀ s) : Kept L s₀ (s.setReg a v) := by
  unfold State.setReg; split
  · exact ⟨h.pend, h.fuse, fun e => wf_iff.mpr (by
      have w := wf_iff.mp (h.mem e)
      exact ⟨w.1, twf_tset a v (w.2.1), w.2.2.1, w.2.2.2.1, w.2.2.2.2.1, w.2.2.2.2.2.1, w.2.2.2.2.2.2.1, w.2.2.2.2.2.2.2.1, w.2.2.2.2.2.2.2.2.1, w.2.2.2.2.2.2.2.2.2.1, w.2.2.2.2.2.2.2.2.2.2⟩), h.pins, h.time, (fun e => Bool.noConfusion (hp.symm.trans e)), h.glb, h.nvs, h.pwr, h.pstate, h.wrp, h.paths, h.syn, h.skn, h.fft, h.dpd, h.rad, h.lne, h.fhp, h.tim, h.cas, h.acq, h.mon, h.drc, h.dma, h.hka, h.bda, h.thm, h.rnd⟩
  · exact ⟨h.pend, h.fuse, fun e => wf_iff.mpr (by
      have w := wf_iff.mp (h.mem e)
      exact ⟨twf_tset a v (w.1), w.2.1, w.2.2.1, w.2.2.2.1, w.2.2.2.2.1, w.2.2.2.2.2.1, w.2.2.2.2.2.2.1, w.2.2.2.2.2.2.2.1, w.2.2.2.2.2.2.2.2.1, w.2.2.2.2.2.2.2.2.2.1, w.2.2.2.2.2.2.2.2.2.2⟩), h.pins, h.time, (fun e => Bool.noConfusion (hp.symm.trans e)), h.glb, h.nvs, h.pwr, h.pstate, h.wrp, h.paths, h.syn, h.skn, h.fft, h.dpd, h.rad, h.lne, h.fhp, h.tim, h.cas, h.acq, h.mon, h.drc, h.dma, h.hka, h.bda, h.thm, h.rnd⟩

theorem setFld_keeps {a hi lo v : Nat} (hp : L .regs = true) (h : Kept L s₀ s) : Kept L s₀ (s.setFld a hi lo v) := setReg_keeps hp h
theorem raise_keeps {a b : Nat} (hp : L .regs = true) (h : Kept L s₀ s) : Kept L s₀ (s.raise a b) := by
  unfold State.raise; split
  · exact h
  · exact setReg_keeps hp h
theorem addHi_keeps {a n : Nat} (hp : L .regs = true) (h : Kept L s₀ s) : Kept L s₀ (s.addHi a n) := setReg_keeps hp h
theorem addLo_keeps {a n : Nat} (hp : L .regs = true) (h : Kept L s₀ s) : Kept L s₀ (s.addLo a n) := setReg_keeps hp h
theorem addReg_keeps {a n : Nat} (hp : L .regs = true) (h : Kept L s₀ s) : Kept L s₀ (s.addReg a n) := setReg_keeps hp h
theorem addByte_keeps {a lo n : Nat} (hp : L .regs = true) (h : Kept L s₀ s) : Kept L s₀ (s.addByte a lo n) := setReg_keeps hp h

theorem Kept.pair2 {α : Type} {p : α × State} {x : α} {t : State} (e : p = (x, t)) (h : Kept L s₀ p.2) : Kept L s₀ t := by
  rw [e] at h; exact h
theorem Kept.pair1 {α : Type} {p : State × α} {x : α} {t : State} (e : p = (t, x)) (h : Kept L s₀ p.1) : Kept L s₀ t := by
  rw [e] at h; exact h

/-- A state built anew from what waits, what is fused, and memories that are kept or empty. -/
theorem Kept.anew {t : State} (hL : ∀ p, L p = true) (h : Kept L s₀ s) (h0 : t.pending = s.pending) (h1 : t.fuse = s.fuse)
    (hm : Memory.wf s = true → Memory.wf t = true) : Kept L s₀ t :=
  ⟨h0.trans h.pend, h1.trans h.fuse, fun e => hm (h.mem e), fun e => Bool.noConfusion ((hL .pins).symm.trans e), fun e => Bool.noConfusion ((hL .time).symm.trans e), fun e => Bool.noConfusion ((hL .regs).symm.trans e), fun e => Bool.noConfusion ((hL .glb).symm.trans e), fun e => Bool.noConfusion ((hL .nvs).symm.trans e), fun e => Bool.noConfusion ((hL .pwr).symm.trans e), fun e => Bool.noConfusion ((hL .pstate).symm.trans e), fun e => Bool.noConfusion ((hL .wrp).symm.trans e), fun e => Bool.noConfusion ((hL .paths).symm.trans e), fun e => Bool.noConfusion ((hL .syn).symm.trans e), fun e => Bool.noConfusion ((hL .skn).symm.trans e), fun e => Bool.noConfusion ((hL .fft).symm.trans e), fun e => Bool.noConfusion ((hL .dpd).symm.trans e), fun e => Bool.noConfusion ((hL .rad).symm.trans e), fun e => Bool.noConfusion ((hL .lne).symm.trans e), fun e => Bool.noConfusion ((hL .fhp).symm.trans e), fun e => Bool.noConfusion ((hL .tim).symm.trans e), fun e => Bool.noConfusion ((hL .cas).symm.trans e), fun e => Bool.noConfusion ((hL .acq).symm.trans e), fun e => Bool.noConfusion ((hL .mon).symm.trans e), fun e => Bool.noConfusion ((hL .drc).symm.trans e), fun e => Bool.noConfusion ((hL .dma).symm.trans e), fun e => Bool.noConfusion ((hL .hka).symm.trans e), fun e => Bool.noConfusion ((hL .bda).symm.trans e), fun e => Bool.noConfusion ((hL .thm).symm.trans e), fun e => Bool.noConfusion ((hL .rnd).symm.trans e)⟩

theorem Kept.mono {M : Part → Bool} (hL : ∀ p, L p = true → M p = true) (h : Kept L s₀ s) : Kept M s₀ s := by
  have key : ∀ p, M p = false → L p = false := fun p e => by
    cases hp : L p
    · rfl
    · rw [hL p hp] at e; exact e
  exact ⟨h.pend, h.fuse, h.mem, fun e => h.pins (key _ e), fun e => h.time (key _ e), fun e => h.regs (key _ e), fun e => h.glb (key _ e), fun e => h.nvs (key _ e), fun e => h.pwr (key _ e), fun e => h.pstate (key _ e), fun e => h.wrp (key _ e), fun e => h.paths (key _ e), fun e => h.syn (key _ e), fun e => h.skn (key _ e), fun e => h.fft (key _ e), fun e => h.dpd (key _ e), fun e => h.rad (key _ e), fun e => h.lne (key _ e), fun e => h.fhp (key _ e), fun e => h.tim (key _ e), fun e => h.cas (key _ e), fun e => h.acq (key _ e), fun e => h.mon (key _ e), fun e => h.drc (key _ e), fun e => h.dma (key _ e), fun e => h.hka (key _ e), fun e => h.bda (key _ e), fun e => h.thm (key _ e), fun e => h.rnd (key _ e)⟩

theorem Kept.trans {a b c : State} (h : Kept L a b) (k : Kept L b c) : Kept L a c :=
  ⟨k.pend.trans h.pend, k.fuse.trans h.fuse, fun e => k.mem (h.mem e), fun e => (k.pins e).trans (h.pins e), fun e => (k.time e).trans (h.time e), fun e => ⟨(k.regs e).1.trans (h.regs e).1, (k.regs e).2.trans (h.regs e).2⟩, fun e => (k.glb e).trans (h.glb e), fun e => (k.nvs e).trans (h.nvs e), fun e => (k.pwr e).trans (h.pwr e), fun e => (k.pstate e).trans (h.pstate e), fun e => (k.wrp e).trans (h.wrp e), fun e => (k.paths e).trans (h.paths e), fun e => (k.syn e).trans (h.syn e), fun e => (k.skn e).trans (h.skn e), fun e => (k.fft e).trans (h.fft e), fun e => (k.dpd e).trans (h.dpd e), fun e => (k.rad e).trans (h.rad e), fun e => (k.lne e).trans (h.lne e), fun e => (k.fhp e).trans (h.fhp e), fun e => (k.tim e).trans (h.tim e), fun e => (k.cas e).trans (h.cas e), fun e => (k.acq e).trans (h.acq e), fun e => (k.mon e).trans (h.mon e), fun e => (k.drc e).trans (h.drc e), fun e => (k.dma e).trans (h.dma e), fun e => (k.hka e).trans (h.hka e), fun e => (k.bda e).trans (h.bda e), fun e => (k.thm e).trans (h.thm e), fun e => (k.rnd e).trans (h.rnd e)⟩

/-- What is kept outside a list of parts, in the words of the statements. -/
theorem Kept.changedOnly {l : List Part} {s t : State} (K : Kept (fun p => decide (p ∈ l)) s t) : changedOnly l s t := by
  refine ⟨K.pend, K.fuse, fun p hp => ?_⟩
  have hq : decide (p ∈ l) = false := by simpa using hp
  cases p
  · exact K.pins hq
  · exact K.time hq
  · exact K.regs hq
  · exact K.glb hq
  · exact K.nvs hq
  · exact K.pwr hq
  · exact K.pstate hq
  · exact K.wrp hq
  · exact K.paths hq
  · exact K.syn hq
  · exact K.skn hq
  · exact K.fft hq
  · exact K.dpd hq
  · exact K.rad hq
  · exact K.lne hq
  · exact K.fhp hq
  · exact K.tim hq
  · exact K.cas hq
  · exact K.acq hq
  · exact K.mon hq
  · exact K.drc hq
  · exact K.dma hq
  · exact K.hka hq
  · exact K.bda hq
  · exact K.thm hq
  · exact K.rnd hq

end Sys2Proof.Machine
end

