-- ==== Sys2Proof/Laws/KeepUnits.lean ====
section
/-!
SUPPORT. What the operations of the device keep, file by file: Ops, Store, Drc, Windows, Dma, Acq, Bda, Hka, Thm, Live, CasOut, Skn, Fft, Dpd, Paths, NvsRec.
-/

set_option linter.all false
set_option Elab.async false

namespace Sys2Proof.Machine

variable {L : Part → Bool} {s₀ s : State}

/-! ### Machine/Ops.lean -/

theorem logEnter_keeps {fresh : LogEntry} (pregs : L .regs = true) (pglb : L .glb = true) (K : Kept L s₀ s) : Kept L s₀ (State.logEnter fresh s) := by
  unfold State.logEnter; try dsimp only
  repeat' first | with_reducible assumption | (with_reducible exact fun h => h) | exact fun _ => twf_nil | with_reducible apply addReg_keeps | with_reducible apply raise_keeps | with_reducible apply modGlb_keeps | split | intro
theorem logPut_keeps {kind : Nat} {index : Nat} {cls : Nat} {event : Bool} {detail : Word} (pregs : L .regs = true) (pglb : L .glb = true) (K : Kept L s₀ s) : Kept L s₀ (State.logPut kind index cls event detail s) := by
  unfold State.logPut; try dsimp only
  repeat' first | with_reducible assumption | (with_reducible exact fun h => h) | exact fun _ => twf_nil | with_reducible apply logEnter_keeps | with_reducible apply modGlb_keeps | split | intro
theorem countViol_keeps {kind : Nat} {cls : Nat} (pregs : L .regs = true) (K : Kept L s₀ s) : Kept L s₀ (State.countViol kind cls s) := by
  unfold State.countViol; try dsimp only
  repeat' first | with_reducible assumption | with_reducible apply addLo_keeps | with_reducible apply addHi_keeps | split | intro
theorem viol_keeps {kind : Nat} {index : Nat} {cls : Nat} {detail : Word} (pregs : L .regs = true) (pglb : L .glb = true) (K : Kept L s₀ s) : Kept L s₀ (State.viol kind index cls detail s) := by
  unfold State.viol; try dsimp only
  repeat' first | with_reducible assumption | with_reducible apply countViol_keeps | with_reducible apply logPut_keeps | split | intro
theorem violSpi_keeps {cls : Nat} {addr : Nat} (pregs : L .regs = true) (pglb : L .glb = true) (K : Kept L s₀ s) : Kept L s₀ (State.violSpi cls addr s) := by
  unfold State.violSpi; try dsimp only
  repeat' first | with_reducible assumption | with_reducible apply viol_keeps | split | intro
theorem refusedWrite_keeps {addr : Nat} (pregs : L .regs = true) (pglb : L .glb = true) (K : Kept L s₀ s) : Kept L s₀ (State.refusedWrite addr s) := by
  unfold State.refusedWrite; try dsimp only
  repeat' first | with_reducible assumption | with_reducible apply violSpi_keeps | split | intro
theorem event_keeps {a : Nat} {b : Nat} {index : Nat} {detail : Word} (pregs : L .regs = true) (pglb : L .glb = true) (K : Kept L s₀ s) : Kept L s₀ (State.event a b index detail s) := by
  unfold State.event; try dsimp only
  repeat' first | with_reducible assumption | with_reducible apply logPut_keeps | with_reducible apply raise_keeps | split | intro
theorem pathEvent_keeps {p : Nat} {b : Nat} {detail : Word} (pregs : L .regs = true) (pglb : L .glb = true) (K : Kept L s₀ s) : Kept L s₀ (State.pathEvent p b detail s) := by
  unfold State.pathEvent; try dsimp only
  repeat' first | with_reducible assumption | with_reducible apply logPut_keeps | with_reducible apply raise_keeps | split | intro
theorem post_keeps {k : Nat} {port : Nat} {msg : Nat} {tag : Nat} {body : List Byte} (pregs : L .regs = true) (pfhp : L .fhp = true) (K : Kept L s₀ s) : Kept L s₀ (State.post k port msg tag body s) := by
  unfold State.post; try dsimp only
  repeat' first | with_reducible assumption | with_reducible apply addLo_keeps | with_reducible apply raise_keeps | with_reducible apply modFlock_keeps | split | intro
theorem notice_keeps {k : Nat} {event : Nat} {detail : Nat} {param : Nat} (pregs : L .regs = true) (pfhp : L .fhp = true) (K : Kept L s₀ s) : Kept L s₀ (State.notice k event detail param s) := by
  unfold State.notice; try dsimp only
  repeat' first | with_reducible assumption | with_reducible apply post_keeps | with_reducible apply modFlock_keeps | split | intro
theorem noticeAll_keeps {event : Nat} {detail : Nat} {param : Nat} (pregs : L .regs = true) (pfhp : L .fhp = true) (K : Kept L s₀ s) : Kept L s₀ (State.noticeAll event detail param s) := by
  unfold State.noticeAll; try dsimp only
  repeat' first | with_reducible assumption | with_reducible apply notice_keeps | with_reducible apply forAll_keeps | split | intro
theorem countEngaged_keeps {r : Nat} (pglb : L .glb = true) (K : Kept L s₀ s) : Kept L s₀ (State.countEngaged r s) := by
  unfold State.countEngaged; try dsimp only
  repeat' first | with_reducible assumption | (with_reducible exact fun h => h) | exact fun _ => twf_nil | with_reducible apply modGlb_keeps | split | intro
theorem reserveLow_keeps  (pregs : L .regs = true) (K : Kept L s₀ s) : Kept L s₀ (State.reserveLow s) := by
  unfold State.reserveLow; try dsimp only
  repeat' first | with_reducible assumption | with_reducible apply raise_keeps | split | intro
theorem arbMove_keeps {x : Resource} {winner : Nat} (pfhp : L .fhp = true) (K : Kept L s₀ s) : Kept L s₀ (arbMove x winner s) := by
  unfold arbMove; try dsimp only
  repeat' first | with_reducible assumption | with_reducible apply modFhp_keeps | split | intro
theorem arbTied_keeps {x : Resource} {l : List Ask} (pfhp : L .fhp = true) (K : Kept L s₀ s) : Kept L s₀ (arbTied x l s) := by
  unfold arbTied; try dsimp only
  repeat' first | with_reducible assumption | with_reducible apply arbMove_keeps | split | intro

/-! ### Machine/Store.lean -/

theorem storePut_keeps {a : Nat} {bs : List Byte} (pnvs : L .nvs = true) (K : Kept L s₀ s) : Kept L s₀ (State.storePut a bs s) := by
  unfold State.storePut; try dsimp only
  repeat' first | with_reducible assumption | (with_reducible exact fun h => h) | exact fun h => twf_mwrite _ _ h | exact fun h => twf_tset _ _ h | exact fun h => twfFrom_filter _ h | exact fun h => twf_windowWrite _ _ h | exact fun _ => twf_nil | with_reducible apply modNvs_keeps | split | intro
theorem retireReserves_keeps {n : Nat} (pregs : L .regs = true) (pnvs : L .nvs = true) (h : Kept L s₀ s) : Kept L s₀ (retireReserves n s) := by
  induction n generalizing s with
  | zero => exact h
  | succ n ih =>
    unfold retireReserves; split
    · exact h
    · exact ih (addLo_keeps pregs (modNvs_keeps pnvs (fun h => h) h))
theorem rowFail_keeps {row : Nat} {bad : Nat} (pregs : L .regs = true) (pglb : L .glb = true) (pnvs : L .nvs = true) (K : Kept L s₀ s) : Kept L s₀ (rowFail row bad s).1 := by
  unfold rowFail; try dsimp only
  repeat' first | with_reducible assumption | (with_reducible exact fun h => h) | exact fun _ => twf_nil | with_reducible apply retireReserves_keeps | with_reducible apply countEngaged_keeps | with_reducible apply event_keeps | with_reducible apply addLo_keeps | with_reducible apply raise_keeps | with_reducible apply modNvs_keeps | split | intro
theorem rowFails_keeps {l : List (Nat × Nat)} (pregs : L .regs = true) (pglb : L .glb = true) (pnvs : L .nvs = true) (h : Kept L s₀ s) : Kept L s₀ (rowFails l s).1 := by
  induction l generalizing s with
  | nil => exact h
  | cons x l ih =>
    obtain ⟨row, bad⟩ := x
    have hr : Kept L s₀ (rowFail row bad s).1 := rowFail_keeps pregs pglb pnvs h
    unfold rowFails
    generalize rowFail row bad s = r at hr
    obtain ⟨t, ok⟩ := r
    dsimp only; split
    · exact ih hr
    · exact hr
theorem commitWrite_keeps {w : StoreWrite} (pnvs : L .nvs = true) (K : Kept L s₀ s) : Kept L s₀ (commitWrite w s) := by
  unfold commitWrite; try dsimp only
  repeat' first | with_reducible assumption | with_reducible apply storePut_keeps | split | intro
theorem tornWrite_keeps {written : Nat} {w : StoreWrite} (pnvs : L .nvs = true) (K : Kept L s₀ s) : Kept L s₀ (tornWrite written w s) := by
  unfold tornWrite; try dsimp only
  repeat' first | with_reducible assumption | with_reducible apply storePut_keeps | split | intro
theorem queueWrite_keeps {w : StoreWrite} (pnvs : L .nvs = true) (K : Kept L s₀ s) : Kept L s₀ (queueWrite w s) := by
  unfold queueWrite; try dsimp only
  repeat' first | with_reducible assumption | (with_reducible exact fun h => h) | exact fun _ => twf_nil | with_reducible apply modNvs_keeps | split | intro
theorem writeReserveMap_keeps {kinds : List Nat} (pnvs : L .nvs = true) (K : Kept L s₀ s) : Kept L s₀ (writeReserveMap kinds s) := by
  unfold writeReserveMap; try dsimp only
  repeat' first | with_reducible assumption | with_reducible apply queueWrite_keeps | split | intro
theorem engageReserve_keeps {r : Nat} (pglb : L .glb = true) (pnvs : L .nvs = true) (K : Kept L s₀ s) : Kept L s₀ (engageReserve r s) := by
  unfold engageReserve; try dsimp only
  repeat' first | with_reducible assumption | with_reducible apply writeReserveMap_keeps | with_reducible apply countEngaged_keeps | split | intro

/-! ### Machine/Drc.lean -/

theorem dramViol_keeps {cls : Nat} (pregs : L .regs = true) (pglb : L .glb = true) (K : Kept L s₀ s) : Kept L s₀ (dramViol cls s) := by
  unfold dramViol; try dsimp only
  repeat' first | with_reducible assumption | with_reducible apply viol_keeps | with_reducible apply addByte_keeps | with_reducible apply raise_keeps | split | intro
theorem dramTouch_keeps {a : Nat} {n : Nat} (pdrc : L .drc = true) (K : Kept L s₀ s) : Kept L s₀ (dramTouch a n s) := by
  unfold dramTouch; try dsimp only
  repeat' first | with_reducible assumption | (with_reducible exact fun h => h) | exact fun h => twf_mwrite _ _ h | exact fun h => twf_tset _ _ h | exact fun h => twfFrom_filter _ h | exact fun h => twf_windowWrite _ _ h | exact fun _ => twf_nil | with_reducible apply modDrc_keeps | with_reducible apply foldl_keeps | split | intro
theorem applyMr4_keeps {v : Nat} (pregs : L .regs = true) (pglb : L .glb = true) (pdrc : L .drc = true) (K : Kept L s₀ s) : Kept L s₀ (applyMr4 v s) := by
  unfold applyMr4; try dsimp only
  repeat' first | with_reducible assumption | (with_reducible exact fun h => h) | exact fun _ => twf_nil | with_reducible apply dramViol_keeps | with_reducible apply raise_keeps | with_reducible apply modDrc_keeps | split | intro
theorem readMr4_keeps {v : Option Nat} (pregs : L .regs = true) (pglb : L .glb = true) (pdrc : L .drc = true) (K : Kept L s₀ s) : Kept L s₀ (readMr4 v s) := by
  unfold readMr4; try dsimp only
  repeat' first | with_reducible assumption | (with_reducible exact fun h => h) | exact fun _ => twf_nil | with_reducible apply applyMr4_keeps | with_reducible apply dramViol_keeps | with_reducible apply modDrc_keeps | split | intro
theorem refreshDue_keeps {waiting : Bool} (pdrc : L .drc = true) (K : Kept L s₀ s) : Kept L s₀ (refreshDue waiting s) := by
  unfold refreshDue; try dsimp only
  repeat' first | with_reducible assumption | (with_reducible exact fun h => h) | exact fun h => h | exact fun _ => twf_nil | with_reducible apply modDrc_keeps | split | intro
theorem neighbourRefresh_keeps {bank : Nat} {row : Nat} (pregs : L .regs = true) (pdrc : L .drc = true) (K : Kept L s₀ s) : Kept L s₀ (neighbourRefresh bank row s) := by
  unfold neighbourRefresh; try dsimp only
  repeat' first | with_reducible assumption | (with_reducible exact fun h => h) | exact fun h => twf_mwrite _ _ h | exact fun h => twf_tset _ _ h | exact fun h => twfFrom_filter _ h | exact fun h => twf_windowWrite _ _ h | exact fun _ => twf_nil | with_reducible apply addReg_keeps | with_reducible apply modDrc_keeps | split | intro
theorem startTraining_keeps {set : Nat} {rate : Nat} {first : Nat} (pdrc : L .drc = true) (K : Kept L s₀ s) : Kept L s₀ (startTraining set rate first s) := by
  unfold startTraining; try dsimp only
  repeat' first | with_reducible assumption | (with_reducible exact fun h => h) | exact fun h => h | exact fun _ => twf_nil | with_reducible apply modDrc_keeps | split | intro
theorem trainingStart_keeps  (pdrc : L .drc = true) (K : Kept L s₀ s) : Kept L s₀ (trainingStart s) := by
  unfold trainingStart; try dsimp only
  repeat' first | with_reducible assumption | (with_reducible exact fun h => h) | exact fun _ => twf_nil | with_reducible apply startTraining_keeps | with_reducible apply modDrc_keeps | split | intro
theorem trainingDone_keeps  (pregs : L .regs = true) (pdrc : L .drc = true) (K : Kept L s₀ s) : Kept L s₀ (trainingDone s) := by
  unfold trainingDone; try dsimp only
  repeat' first | with_reducible assumption | (with_reducible exact fun h => h) | exact fun _ => twf_nil | with_reducible apply raise_keeps | with_reducible apply modDrc_keeps | split | intro
theorem trainingStepDone_keeps {ok : Bool} (pregs : L .regs = true) (pglb : L .glb = true) (pdrc : L .drc = true) (K : Kept L s₀ s) : Kept L s₀ (trainingStepDone ok s) := by
  unfold trainingStepDone; try dsimp only
  repeat' first | with_reducible assumption | (with_reducible exact fun h => h) | exact fun _ => twf_nil | with_reducible apply trainingDone_keeps | with_reducible apply dramViol_keeps | with_reducible apply raise_keeps | with_reducible apply modDrc_keeps | split | intro
theorem dqsCheck_keeps {drift : Int} (pregs : L .regs = true) (pglb : L .glb = true) (pdrc : L .drc = true) (K : Kept L s₀ s) : Kept L s₀ (dqsCheck drift s) := by
  unfold dqsCheck; try dsimp only
  repeat' first | with_reducible assumption | (with_reducible exact fun h => h) | exact fun _ => twf_nil | with_reducible apply startTraining_keeps | with_reducible apply dramViol_keeps | with_reducible apply modDrc_keeps | split | intro
theorem grantFreq_keeps  (pdrc : L .drc = true) (K : Kept L s₀ s) : Kept L s₀ (grantFreq s) := by
  unfold grantFreq; try dsimp only
  repeat' first | with_reducible assumption | (with_reducible exact fun h => h) | exact fun h => h | exact fun _ => twf_nil | with_reducible apply modDrc_keeps | split | intro
theorem lockOutcome_keeps {outcome : Nat} {code : Nat} (pregs : L .regs = true) (K : Kept L s₀ s) : Kept L s₀ (lockOutcome outcome code s) := by
  unfold lockOutcome; try dsimp only
  repeat' first | with_reducible assumption | with_reducible apply setReg_keeps | split | intro
theorem hostLock_keeps {on : Bool} (pregs : L .regs = true) (pdrc : L .drc = true) (K : Kept L s₀ s) : Kept L s₀ (hostLock on s) := by
  unfold hostLock; try dsimp only
  repeat' first | with_reducible assumption | (with_reducible exact fun h => h) | exact fun _ => twf_nil | with_reducible apply lockOutcome_keeps | with_reducible apply grantFreq_keeps | with_reducible apply modDrc_keeps | split | intro
theorem retrainFailed_keeps  (pdrc : L .drc = true) (K : Kept L s₀ s) : Kept L s₀ (retrainFailed s) := by
  unfold retrainFailed; try dsimp only
  repeat' first | with_reducible assumption | with_reducible apply startTraining_keeps | split | intro
theorem freqResult_keeps {outcome : Nat} {code : Nat} (pregs : L .regs = true) (K : Kept L s₀ s) : Kept L s₀ (freqResult outcome code s) := by
  unfold freqResult; try dsimp only
  repeat' first | with_reducible assumption | with_reducible apply raise_keeps | with_reducible apply setReg_keeps | split | intro
theorem freqReq_keeps {rate : Nat} (pregs : L .regs = true) (pdrc : L .drc = true) (K : Kept L s₀ s) : Kept L s₀ (freqReq rate s) := by
  unfold freqReq; try dsimp only
  repeat' first | with_reducible assumption | (with_reducible exact fun h => h) | exact fun _ => twf_nil | with_reducible apply freqResult_keeps | with_reducible apply grantFreq_keeps | with_reducible apply setReg_keeps | with_reducible apply modDrc_keeps | split | intro
theorem freqChangeDone_keeps {mr4 : Option Nat} (pregs : L .regs = true) (pglb : L .glb = true) (pdrc : L .drc = true) (K : Kept L s₀ s) : Kept L s₀ (freqChangeDone mr4 s) := by
  unfold freqChangeDone; try dsimp only
  repeat' first | with_reducible assumption | (with_reducible exact fun h => h) | exact fun _ => twf_nil | with_reducible apply freqResult_keeps | with_reducible apply readMr4_keeps | with_reducible apply modDrc_keeps | split | intro
theorem freqLockTimeout_keeps  (pregs : L .regs = true) (pdrc : L .drc = true) (K : Kept L s₀ s) : Kept L s₀ (freqLockTimeout s) := by
  unfold freqLockTimeout; try dsimp only
  repeat' first | with_reducible assumption | (with_reducible exact fun h => h) | exact fun _ => twf_nil | with_reducible apply freqResult_keeps | with_reducible apply modDrc_keeps | split | intro
theorem patGo_keeps {w : Word} (pregs : L .regs = true) (pglb : L .glb = true) (pdrc : L .drc = true) (K : Kept L s₀ s) : Kept L s₀ (patGo w s) := by
  unfold patGo; try dsimp only
  repeat' first | with_reducible assumption | (with_reducible exact fun h => h) | exact fun _ => twf_nil | with_reducible apply refusedWrite_keeps | with_reducible apply modDrc_keeps | split | intro
theorem dramStore_keeps {a : Nat} {bs : List Byte} (pdrc : L .drc = true) (K : Kept L s₀ s) : Kept L s₀ (dramStore a bs s) := by
  unfold dramStore; try dsimp only
  repeat' first | with_reducible assumption | (with_reducible exact fun h => h) | exact fun h => twf_mwrite _ _ h | exact fun h => twf_tset _ _ h | exact fun h => twfFrom_filter _ h | exact fun h => twf_windowWrite _ _ h | exact fun _ => twf_nil | with_reducible apply modDrc_keeps | split | intro
theorem patternDone_keeps {noise : List Byte} {from_ : Nat} (pregs : L .regs = true) (pdrc : L .drc = true) (K : Kept L s₀ s) : Kept L s₀ (patternDone noise from_ s) := by
  unfold patternDone; try dsimp only
  repeat' first | with_reducible assumption | (with_reducible exact fun h => h) | exact fun h => twf_mwrite _ _ h | exact fun h => twf_tset _ _ h | exact fun h => twfFrom_filter _ h | exact fun h => twf_windowWrite _ _ h | exact fun _ => twf_nil | with_reducible apply dramStore_keeps | with_reducible apply dramTouch_keeps | with_reducible apply addReg_keeps | with_reducible apply raise_keeps | with_reducible apply setReg_keeps | with_reducible apply modDrc_keeps | with_reducible apply forAll_keeps | with_reducible apply foldl_keeps | split | intro
theorem drcStage1_keeps  (pregs : L .regs = true) (pdrc : L .drc = true) (K : Kept L s₀ s) : Kept L s₀ (drcStage1 s) := by
  unfold drcStage1; try dsimp only
  repeat' first | with_reducible assumption | (with_reducible exact fun h => h) | exact fun _ => twf_nil | with_reducible apply setReg_keeps | with_reducible apply modDrc_keeps | split | intro
theorem drcSleep_keeps  (pdrc : L .drc = true) (K : Kept L s₀ s) : Kept L s₀ (drcSleep s) := by
  unfold drcSleep; try dsimp only
  repeat' first | with_reducible assumption | (with_reducible exact fun h => h) | exact fun h => h | exact fun _ => twf_nil | with_reducible apply modDrc_keeps | split | intro
theorem drcWake_keeps  (pdrc : L .drc = true) (K : Kept L s₀ s) : Kept L s₀ (drcWake s) := by
  unfold drcWake; try dsimp only
  repeat' first | with_reducible assumption | (with_reducible exact fun h => h) | exact fun _ => twf_nil | with_reducible apply modDrc_keeps | split | intro

/-! ### Machine/Windows.lean -/

theorem skeinWrite_keeps {a : Nat} {bs : List Byte} (pskn : L .skn = true) (K : Kept L s₀ s) : Kept L s₀ (skeinWrite a bs s) := by
  unfold skeinWrite; try dsimp only
  repeat' first | with_reducible assumption | (with_reducible exact fun h => h) | exact fun h => twf_mwrite _ _ h | exact fun h => twf_tset _ _ h | exact fun h => twfFrom_filter _ h | exact fun h => twf_windowWrite _ _ h | exact fun _ => twf_nil | with_reducible apply modSkn_keeps | split | intro
theorem coefWrite_keeps {a : Nat} {bs : List Byte} (pdpd : L .dpd = true) (K : Kept L s₀ s) : Kept L s₀ (coefWrite a bs s) := by
  unfold coefWrite; try dsimp only
  repeat' first | with_reducible assumption | (with_reducible exact fun h => h) | exact fun h => twf_mwrite _ _ h | exact fun h => twf_tset _ _ h | exact fun h => twfFrom_filter _ h | exact fun h => twf_windowWrite _ _ h | exact fun _ => twf_nil | with_reducible apply modDpd_keeps | split | intro
theorem coefHostWrite_keeps {a : Nat} {w : Word} (pregs : L .regs = true) (pglb : L .glb = true) (pdpd : L .dpd = true) (K : Kept L s₀ s) : Kept L s₀ (coefHostWrite a w s) := by
  unfold coefHostWrite; try dsimp only
  repeat' first | with_reducible assumption | with_reducible apply coefWrite_keeps | with_reducible apply refusedWrite_keeps | split | intro
theorem dmaProgPut_keeps {i : Nat} {w : Word} (pdma : L .dma = true) (K : Kept L s₀ s) : Kept L s₀ (dmaProgPut i w s) := by
  unfold dmaProgPut; try dsimp only
  repeat' first | with_reducible assumption | (with_reducible exact fun h => h) | exact fun h => twf_mwrite _ _ h | exact fun h => twf_tset _ _ h | exact fun h => twfFrom_filter _ h | exact fun h => twf_windowWrite _ _ h | exact fun _ => twf_nil | with_reducible apply modDma_keeps | split | intro
theorem dmaWindowWrite_keeps {off : Nat} {bs : List Byte} (pdma : L .dma = true) (K : Kept L s₀ s) : Kept L s₀ (dmaWindowWrite off bs s) := by
  unfold dmaWindowWrite; try dsimp only
  repeat' first | with_reducible assumption | (with_reducible exact fun h => h) | exact fun h => twf_mwrite _ _ h | exact fun h => twf_tset _ _ h | exact fun h => twfFrom_filter _ h | exact fun h => twf_windowWrite _ _ h | exact fun _ => twf_nil | with_reducible apply modDma_keeps | split | intro
theorem dmaEvent_keeps {n : Nat} (pdma : L .dma = true) (K : Kept L s₀ s) : Kept L s₀ (dmaEvent n s) := by
  unfold dmaEvent; try dsimp only
  repeat' first | with_reducible assumption | (with_reducible exact fun h => h) | exact fun _ => twf_nil | with_reducible apply modDma_keeps | split | intro

/-! ### Machine/Dma.lean -/

theorem chFault_keeps {c : Nat} {code : Nat} (pregs : L .regs = true) (pdma : L .dma = true) (K : Kept L s₀ s) : Kept L s₀ (chFault c code s) := by
  unfold chFault; try dsimp only
  repeat' first | with_reducible assumption | with_reducible apply raise_keeps | with_reducible apply modCh_keeps | split | intro
theorem dmaStep_keeps {c : Nat} {op : Nat} {f : State → State} (hf : ∀  t, Kept L s₀ t → Kept L s₀ (f  t)) (pregs : L .regs = true) (pdma : L .dma = true) (K : Kept L s₀ s) : Kept L s₀ (dmaStep c op f s) := by
  unfold dmaStep; try dsimp only
  repeat' first | with_reducible assumption | with_reducible apply hf | with_reducible apply chFault_keeps | split | intro
theorem chNext_keeps {c : Nat} (pdma : L .dma = true) (K : Kept L s₀ s) : Kept L s₀ (chNext c s) := by
  unfold chNext; try dsimp only
  repeat' first | with_reducible assumption | with_reducible apply modCh_keeps | split | intro
theorem spaceWrite_keeps {sp : Nat} {a : Nat} {bs : List Byte} (pskn : L .skn = true) (pdpd : L .dpd = true) (pdrc : L .drc = true) (pdma : L .dma = true) (K : Kept L s₀ s) : Kept L s₀ (spaceWrite sp a bs s) := by
  unfold spaceWrite; try dsimp only
  repeat' first | with_reducible assumption | with_reducible apply dmaWindowWrite_keeps | with_reducible apply coefWrite_keeps | with_reducible apply skeinWrite_keeps | with_reducible apply dramStore_keeps | split | intro
theorem spaceTouch_keeps {sp : Nat} {a : Nat} {n : Nat} (pdrc : L .drc = true) (K : Kept L s₀ s) : Kept L s₀ (spaceTouch sp a n s) := by
  unfold spaceTouch; try dsimp only
  repeat' first | with_reducible assumption | with_reducible apply dramTouch_keeps | split | intro
theorem moveRows_keeps {m : MoveArgs} (pskn : L .skn = true) (pdpd : L .dpd = true) (pdrc : L .drc = true) (pdma : L .dma = true) (K : Kept L s₀ s) : Kept L s₀ (moveRows m s) := by
  unfold moveRows; try dsimp only
  repeat' first | with_reducible assumption | with_reducible apply spaceTouch_keeps | with_reducible apply spaceWrite_keeps | with_reducible apply forAll_keeps | split | intro
theorem dmaMove_keeps {c : Nat} (pregs : L .regs = true) (pskn : L .skn = true) (pdpd : L .dpd = true) (pdrc : L .drc = true) (pdma : L .dma = true) (K : Kept L s₀ s) : Kept L s₀ (dmaMove c s) := by
  unfold dmaMove; try dsimp only
  repeat' first | with_reducible assumption | with_reducible apply moveRows_keeps | with_reducible apply chNext_keeps | with_reducible apply chFault_keeps | with_reducible apply addReg_keeps | with_reducible apply modCh_keeps | split | intro
theorem dmaLoop_keeps {c : Nat} (pdma : L .dma = true) (K : Kept L s₀ s) : Kept L s₀ (dmaLoop c s) := by
  unfold dmaLoop; try dsimp only
  repeat' first | with_reducible assumption | with_reducible apply modCh_keeps | split | intro
theorem dmaWait_keeps {c : Nat} (pregs : L .regs = true) (pdma : L .dma = true) (K : Kept L s₀ s) : Kept L s₀ (dmaWait c s) := by
  unfold dmaWait; try dsimp only
  repeat' first | with_reducible assumption | with_reducible apply chFault_keeps | with_reducible apply modCh_keeps | split | intro
theorem waitOver_keeps {c : Nat} (pdma : L .dma = true) (K : Kept L s₀ s) : Kept L s₀ (waitOver c s) := by
  unfold waitOver; try dsimp only
  repeat' first | with_reducible assumption | with_reducible apply modCh_keeps | split | intro
theorem waitTimeout_keeps {c : Nat} (pregs : L .regs = true) (pdma : L .dma = true) (K : Kept L s₀ s) : Kept L s₀ (waitTimeout c s) := by
  unfold waitTimeout; try dsimp only
  repeat' first | with_reducible assumption | with_reducible apply chFault_keeps | split | intro
theorem waitDelayExpiry_keeps {c : Nat} (pdma : L .dma = true) (K : Kept L s₀ s) : Kept L s₀ (waitDelayExpiry c s) := by
  unfold waitDelayExpiry; try dsimp only
  repeat' first | with_reducible assumption | with_reducible apply waitOver_keeps | split | intro
theorem pollRead_keeps {c : Nat} {v : Word} (pdma : L .dma = true) (K : Kept L s₀ s) : Kept L s₀ (pollRead c v s) := by
  unfold pollRead; try dsimp only
  repeat' first | with_reducible assumption | with_reducible apply waitOver_keeps | split | intro
theorem verified_keeps {c : Nat} {noise : Word} {f : State → State} (hf : ∀  t, Kept L s₀ t → Kept L s₀ (f  t)) (pregs : L .regs = true) (pglb : L .glb = true) (pdrc : L .drc = true) (pdma : L .dma = true) (K : Kept L s₀ s) : Kept L s₀ (verified c noise f s) := by
  unfold verified; try dsimp only
  repeat' first | with_reducible assumption | with_reducible apply hf | with_reducible apply spaceTouch_keeps | with_reducible apply chFault_keeps | with_reducible apply dramViol_keeps | with_reducible apply modCh_keeps | split | intro
theorem dmaSignal_keeps {c : Nat} (pregs : L .regs = true) (pdma : L .dma = true) (K : Kept L s₀ s) : Kept L s₀ (dmaSignal c s) := by
  unfold dmaSignal; try dsimp only
  repeat' first | with_reducible assumption | with_reducible apply dmaEvent_keeps | with_reducible apply raise_keeps | with_reducible apply modCh_keeps | split | intro
theorem dmaEnd_keeps {c : Nat} (pregs : L .regs = true) (pdma : L .dma = true) (K : Kept L s₀ s) : Kept L s₀ (dmaEnd c s) := by
  unfold dmaEnd; try dsimp only
  repeat' first | with_reducible assumption | with_reducible apply raise_keeps | with_reducible apply modCh_keeps | split | intro
theorem chStart_keeps {c : Nat} (pregs : L .regs = true) (pglb : L .glb = true) (pdma : L .dma = true) (K : Kept L s₀ s) : Kept L s₀ (chStart c s) := by
  unfold chStart; try dsimp only
  repeat' first | with_reducible assumption | with_reducible apply refusedWrite_keeps | with_reducible apply modCh_keeps | split | intro
theorem chAbort_keeps {c : Nat} (pdma : L .dma = true) (K : Kept L s₀ s) : Kept L s₀ (chAbort c s) := by
  unfold chAbort; try dsimp only
  repeat' first | with_reducible assumption | with_reducible apply modCh_keeps | split | intro
theorem chPause_keeps {c : Nat} (pdma : L .dma = true) (K : Kept L s₀ s) : Kept L s₀ (chPause c s) := by
  unfold chPause; try dsimp only
  repeat' first | with_reducible assumption | with_reducible apply modCh_keeps | split | intro
theorem chResume_keeps {c : Nat} (pdma : L .dma = true) (K : Kept L s₀ s) : Kept L s₀ (chResume c s) := by
  unfold chResume; try dsimp only
  repeat' first | with_reducible assumption | with_reducible apply modCh_keeps | split | intro
theorem pauseWrite_keeps {c : Nat} {on : Bool} (pregs : L .regs = true) (pdma : L .dma = true) (K : Kept L s₀ s) : Kept L s₀ (pauseWrite c on s) := by
  unfold pauseWrite; try dsimp only
  repeat' first | with_reducible assumption | with_reducible apply chResume_keeps | with_reducible apply chPause_keeps | with_reducible apply setFld_keeps | split | intro
theorem chDoorbell_keeps {c : Nat} (pdma : L .dma = true) (K : Kept L s₀ s) : Kept L s₀ (chDoorbell c s) := by
  unfold chDoorbell; try dsimp only
  repeat' first | with_reducible assumption | with_reducible apply modCh_keeps | split | intro
theorem chCtrlWrite_keeps {c : Nat} {w : Word} (pregs : L .regs = true) (pglb : L .glb = true) (pdma : L .dma = true) (K : Kept L s₀ s) : Kept L s₀ (chCtrlWrite c w s) := by
  unfold chCtrlWrite; try dsimp only
  repeat' first | with_reducible assumption | with_reducible apply chDoorbell_keeps | with_reducible apply pauseWrite_keeps | with_reducible apply chAbort_keeps | with_reducible apply chStart_keeps | with_reducible apply setFld_keeps | split | intro

/-! ### Machine/Acq.lean -/

theorem obsRequest_keeps {o : Nat} {id : Nat} {h : ObsHolder} (pdpd : L .dpd = true) (K : Kept L s₀ s) : Kept L s₀ (obsRequest o id h s) := by
  unfold obsRequest; try dsimp only
  repeat' first | with_reducible assumption | with_reducible apply modObs_keeps | split | intro
theorem obsWithdraw_keeps {o : Nat} {h : ObsHolder} (pdpd : L .dpd = true) (K : Kept L s₀ s) : Kept L s₀ (obsWithdraw o h s) := by
  unfold obsWithdraw; try dsimp only
  repeat' first | with_reducible assumption | with_reducible apply modObs_keeps | split | intro
theorem obsRelease_keeps {o : Nat} {h : ObsHolder} (pdpd : L .dpd = true) (K : Kept L s₀ s) : Kept L s₀ (obsRelease o h s) := by
  unfold obsRelease; try dsimp only
  repeat' first | with_reducible assumption | with_reducible apply modObs_keeps | split | intro
theorem obsDecide_keeps {o : Nat} (pdpd : L .dpd = true) (pfhp : L .fhp = true) (K : Kept L s₀ s) : Kept L s₀ (obsDecide o s).1 := by
  unfold obsDecide; try dsimp only
  repeat' first | with_reducible assumption | with_reducible apply arbTied_keeps | with_reducible apply modObs_keeps | split | intro
theorem obsGrant_keeps {o : Nat} (pdpd : L .dpd = true) (K : Kept L s₀ s) : Kept L s₀ (obsGrant o s).1 := by
  unfold obsGrant; try dsimp only
  repeat' first | with_reducible assumption | with_reducible apply modObs_keeps | split | intro
theorem armRefuse_keeps {st : Nat} {code : Nat} (pregs : L .regs = true) (pacq : L .acq = true) (K : Kept L s₀ s) : Kept L s₀ (armRefuse st code s) := by
  unfold armRefuse; try dsimp only
  repeat' first | with_reducible assumption | with_reducible apply raise_keeps | with_reducible apply modStream_keeps | split | intro
theorem armStream_keeps {st : Nat} (pregs : L .regs = true) (pdpd : L .dpd = true) (pacq : L .acq = true) (K : Kept L s₀ s) : Kept L s₀ (armStream st s) := by
  unfold armStream; try dsimp only
  repeat' first | with_reducible assumption | with_reducible apply armRefuse_keeps | with_reducible apply obsRequest_keeps | with_reducible apply setReg_keeps | with_reducible apply modStream_keeps | split | intro
theorem streamArm_keeps {st : Nat} {id : Nat} (pregs : L .regs = true) (pacq : L .acq = true) (K : Kept L s₀ s) : Kept L s₀ (streamArm st id s) := by
  unfold streamArm; try dsimp only
  repeat' first | with_reducible assumption | with_reducible apply armRefuse_keeps | with_reducible apply modStream_keeps | split | intro
theorem asked_keeps {drover : Bool} {a : Nat} {f : State → State} (hf : ∀  t, Kept L s₀ t → Kept L s₀ (f  t)) (K : Kept L s₀ s) : Kept L s₀ (State.asked drover a f s) := by
  unfold State.asked; try dsimp only
  repeat' first | with_reducible assumption | with_reducible apply hf | with_reducible apply hosted_keeps | split | intro
theorem refuseArms_keeps {st : Nat} (pregs : L .regs = true) (pacq : L .acq = true) (K : Kept L s₀ s) : Kept L s₀ (refuseArms st s) := by
  unfold refuseArms; try dsimp only
  repeat' first | with_reducible assumption | with_reducible apply armRefuse_keeps | with_reducible apply modStream_keeps | with_reducible apply forAll_keeps | split | intro
theorem streamEpoch_keeps {st : Nat} (pregs : L .regs = true) (pdpd : L .dpd = true) (pfhp : L .fhp = true) (pacq : L .acq = true) (K : Kept L s₀ s) : Kept L s₀ (streamEpoch st s) := by
  unfold streamEpoch; try dsimp only
  repeat' first | with_reducible assumption | with_reducible apply refuseArms_keeps | with_reducible apply armStream_keeps | with_reducible apply armRefuse_keeps | with_reducible apply arbTied_keeps | with_reducible apply modStream_keeps | with_reducible apply forAll_keeps | split | intro
theorem armWithdraw_keeps {st : Nat} {id : Nat} (pacq : L .acq = true) (K : Kept L s₀ s) : Kept L s₀ (armWithdraw st id s) := by
  unfold armWithdraw; try dsimp only
  repeat' first | with_reducible assumption | with_reducible apply modStream_keeps | split | intro
theorem armLimit_keeps {st : Nat} (pregs : L .regs = true) (pacq : L .acq = true) (K : Kept L s₀ s) : Kept L s₀ (armLimit st s) := by
  unfold armLimit; try dsimp only
  repeat' first | with_reducible assumption | with_reducible apply armRefuse_keeps | with_reducible apply modStream_keeps | split | intro
theorem streamGranted_keeps {st : Nat} (pacq : L .acq = true) (K : Kept L s₀ s) : Kept L s₀ (streamGranted st s) := by
  unfold streamGranted; try dsimp only
  repeat' first | with_reducible assumption | with_reducible apply modStream_keeps | split | intro
theorem triggerMissed_keeps {st : Nat} {point : Nat} (pregs : L .regs = true) (pacq : L .acq = true) (K : Kept L s₀ s) : Kept L s₀ (triggerMissed st point s) := by
  unfold triggerMissed; try dsimp only
  repeat' first | with_reducible assumption | with_reducible apply addReg_keeps | with_reducible apply raise_keeps | with_reducible apply setReg_keeps | with_reducible apply modStream_keeps | split | intro
theorem triggerAccept_keeps {st : Nat} {forced : Bool} {h : TrigHit} (pacq : L .acq = true) (K : Kept L s₀ s) : Kept L s₀ (triggerAccept st forced h s) := by
  unfold triggerAccept; try dsimp only
  repeat' first | with_reducible assumption | with_reducible apply modStream_keeps | split | intro
theorem postPoint_keeps {point : Nat} {st : Nat} (pregs : L .regs = true) (pacq : L .acq = true) (K : Kept L s₀ s) : Kept L s₀ (postPoint point st s) := by
  unfold postPoint; try dsimp only
  repeat' first | with_reducible assumption | with_reducible apply triggerMissed_keeps | with_reducible apply modStream_keeps | split | intro
theorem shareTrigger_keeps {j : Nat} {point : Nat} (pregs : L .regs = true) (pacq : L .acq = true) (K : Kept L s₀ s) : Kept L s₀ (shareTrigger j point s) := by
  unfold shareTrigger; try dsimp only
  repeat' first | with_reducible assumption | with_reducible apply postPoint_keeps | with_reducible apply forAll_keeps | split | intro
theorem trigger_keeps {st : Nat} {forced : Bool} {h : TrigHit} (pregs : L .regs = true) (pacq : L .acq = true) (K : Kept L s₀ s) : Kept L s₀ (trigger st forced h s) := by
  unfold trigger; try dsimp only
  repeat' first | with_reducible assumption | with_reducible apply shareTrigger_keeps | with_reducible apply triggerAccept_keeps | with_reducible apply triggerMissed_keeps | split | intro
theorem takePoint_keeps {st : Nat} {g : Grid} (pregs : L .regs = true) (pacq : L .acq = true) (K : Kept L s₀ s) : Kept L s₀ (takePoint st g s) := by
  unfold takePoint; try dsimp only
  repeat' first | with_reducible assumption | with_reducible apply trigger_keeps | split | intro
theorem forceTrigger_keeps {st : Nat} {g : Grid} (pregs : L .regs = true) (pacq : L .acq = true) (K : Kept L s₀ s) : Kept L s₀ (forceTrigger st g s) := by
  unfold forceTrigger; try dsimp only
  repeat' first | with_reducible assumption | with_reducible apply takePoint_keeps | with_reducible apply trigger_keeps | split | intro
theorem watchSample_keeps {st : Nat} {own : Bool} {g : Grid} {time : Nat} {period : Nat} {c : Cplx} (pregs : L .regs = true) (pacq : L .acq = true) (K : Kept L s₀ s) : Kept L s₀ (watchSample st own g time period c s) := by
  unfold watchSample; try dsimp only
  repeat' first | with_reducible assumption | with_reducible apply trigger_keeps | with_reducible apply modStream_keeps | split | intro
theorem watchSamples_keeps {st : Nat} {own : Bool} {g : Grid} {period time : Nat} {cs : List Cplx} (pregs : L .regs = true) (pacq : L .acq = true) (K : Kept L s₀ s) :
    Kept L s₀ (watchSamples st own g period time cs s) := by
  induction cs generalizing time s with
  | nil => exact K
  | cons c cs ih => exact ih (watchSample_keeps pregs pacq K)
theorem aimTrigger_keeps {st : Nat} {g : Grid} (pregs : L .regs = true) (pacq : L .acq = true) (K : Kept L s₀ s) : Kept L s₀ (aimTrigger st g s) := by
  unfold aimTrigger; try dsimp only
  repeat' first | with_reducible assumption | with_reducible apply trigger_keeps | with_reducible apply modStream_keeps | split | intro
theorem captureTrigger_keeps {st : Nat} {g : Grid} {w : Watch} (pregs : L .regs = true) (pacq : L .acq = true) (K : Kept L s₀ s) : Kept L s₀ (captureTrigger st g w s) := by
  unfold captureTrigger; try dsimp only
  repeat' first | with_reducible assumption | with_reducible apply aimTrigger_keeps | with_reducible apply watchSamples_keeps | with_reducible apply takePoint_keeps | split | intro
theorem trigInEdge_keeps {rising : Bool} {at_ : Nat} {grids : List Grid} (pregs : L .regs = true) (pacq : L .acq = true) (K : Kept L s₀ s) : Kept L s₀ (trigInEdge rising at_ grids s) := by
  unfold trigInEdge; try dsimp only
  repeat' first | with_reducible assumption | with_reducible apply takePoint_keeps | with_reducible apply postPoint_keeps | with_reducible apply forAll_keeps | split | intro
theorem flockEvent_keeps {k : Nat} {event : Nat} {point : Nat} (pregs : L .regs = true) (pacq : L .acq = true) (K : Kept L s₀ s) : Kept L s₀ (flockEvent k event point s) := by
  unfold flockEvent; try dsimp only
  repeat' first | with_reducible assumption | with_reducible apply postPoint_keeps | with_reducible apply forAll_keeps | split | intro
theorem twf_writeRing {base cap size i : Nat} {l : List (List Byte)} {m : Tab Byte} (h : twf blank m = true) :
    twf blank (writeRing base cap size i l m) = true := by
  induction l generalizing i m with
  | nil => exact h
  | cons e es ih => exact ih (twf_mwrite _ _ h)
theorem segPut_keeps {st a first : Nat} {es : List (List Byte)} {header : List Byte} (pdrc : L .drc = true) (K : Kept L s₀ s) :
    Kept L s₀ (segPut st a first es header s) := by
  unfold segPut; dsimp only
  refine dramStore_keeps pdrc ?_
  split
  · exact dramTouch_keeps pdrc K
  · exact modDrc_keeps pdrc (fun h => twf_writeRing h) (dramTouch_keeps pdrc K)
theorem storeSegment_keeps {st : Nat} {samples : List Cplx} {k : SegMarks} {aborted : Bool} (pregs : L .regs = true) (pacq : L .acq = true) (pdrc : L .drc = true) (pdma : L .dma = true) (K : Kept L s₀ s) : Kept L s₀ (storeSegment st samples k aborted s) := by
  unfold storeSegment; try dsimp only
  repeat' first | with_reducible assumption | with_reducible apply segPut_keeps | with_reducible apply dmaEvent_keeps | with_reducible apply addReg_keeps | with_reducible apply raise_keeps | with_reducible apply modStream_keeps | split | intro
theorem streamStop_keeps {st : Nat} (pregs : L .regs = true) (pdpd : L .dpd = true) (pacq : L .acq = true) (pdrc : L .drc = true) (pdma : L .dma = true) (prnd : L .rnd = true) (K : Kept L s₀ s) : Kept L s₀ (streamStop st s) := by
  unfold streamStop; try dsimp only
  repeat' first | with_reducible assumption | with_reducible apply storeSegment_keeps | with_reducible apply obsRelease_keeps | with_reducible apply obsWithdraw_keeps | with_reducible apply raise_keeps | with_reducible apply draw_keeps | with_reducible apply modStream_keeps | split | (with_reducible refine Kept.pair1 (by assumption) ?_) | (with_reducible refine Kept.pair2 (by assumption) ?_) | intro
theorem stopStreams_keeps {n : Nat} {l : List Nat} (pregs : L .regs = true) (pdpd : L .dpd = true) (pacq : L .acq = true) (pdrc : L .drc = true) (pdma : L .dma = true) (prnd : L .rnd = true) (h : Kept L s₀ s) : Kept L s₀ (stopStreams n l s) := by
  induction n generalizing s l with
  | zero => exact h
  | succ n ih =>
    unfold stopStreams; dsimp only; split
    · exact h
    · exact ih (forAll_keeps (fun _ _ => streamStop_keeps pregs pdpd pacq pdrc pdma prnd) h)
theorem stopStreamsIf_keeps {f : Nat → Bool} (pregs : L .regs = true) (pdpd : L .dpd = true) (pacq : L .acq = true) (pdrc : L .drc = true) (pdma : L .dma = true) (prnd : L .rnd = true) (K : Kept L s₀ s) : Kept L s₀ (stopStreamsIf f s) := by
  unfold stopStreamsIf; try dsimp only
  repeat' first | with_reducible assumption | with_reducible apply stopStreams_keeps | split | intro
theorem disarm_keeps {st : Nat} {id : Nat} (pregs : L .regs = true) (pdpd : L .dpd = true) (pacq : L .acq = true) (pdrc : L .drc = true) (pdma : L .dma = true) (prnd : L .rnd = true) (K : Kept L s₀ s) : Kept L s₀ (disarm st id s) := by
  unfold disarm; try dsimp only
  repeat' first | with_reducible assumption | with_reducible apply stopStreams_keeps | with_reducible apply armWithdraw_keeps | split | intro
theorem segmentEnd_keeps {st : Nat} {samples : List Cplx} {k : SegMarks} (pregs : L .regs = true) (pdpd : L .dpd = true) (pacq : L .acq = true) (pdrc : L .drc = true) (pdma : L .dma = true) (K : Kept L s₀ s) : Kept L s₀ (segmentEnd st samples k s) := by
  unfold segmentEnd; try dsimp only
  repeat' first | with_reducible assumption | with_reducible apply storeSegment_keeps | with_reducible apply obsRelease_keeps | with_reducible apply dmaEvent_keeps | with_reducible apply dramStore_keeps | with_reducible apply dramTouch_keeps | with_reducible apply raise_keeps | with_reducible apply modStream_keeps | split | intro
theorem holdoffEnd_keeps {st : Nat} (pacq : L .acq = true) (K : Kept L s₀ s) : Kept L s₀ (holdoffEnd st s) := by
  unfold holdoffEnd; try dsimp only
  repeat' first | with_reducible assumption | with_reducible apply modStream_keeps | split | intro
theorem streamRegWrite_keeps {st : Nat} {a : Nat} {w : Word} (pregs : L .regs = true) (pglb : L .glb = true) (K : Kept L s₀ s) : Kept L s₀ (streamRegWrite st a w s) := by
  unfold streamRegWrite; try dsimp only
  repeat' first | with_reducible assumption | with_reducible apply refusedWrite_keeps | with_reducible apply setReg_keeps | split | intro
theorem acqCommit_keeps  (pregs : L .regs = true) (pdpd : L .dpd = true) (pacq : L .acq = true) (pdrc : L .drc = true) (pdma : L .dma = true) (prnd : L .rnd = true) (K : Kept L s₀ s) : Kept L s₀ (acqCommit s) := by
  unfold acqCommit; try dsimp only
  repeat' first | with_reducible assumption | with_reducible apply stopStreamsIf_keeps | with_reducible apply setFld_keeps | with_reducible apply setReg_keeps | with_reducible apply forAll_keeps | split | intro
theorem markStep_keeps {f : Nat → Bool} (pacq : L .acq = true) (K : Kept L s₀ s) : Kept L s₀ (markStep f s) := by
  unfold markStep; try dsimp only
  repeat' first | with_reducible assumption | with_reducible apply modAcq_keeps | split | intro
theorem markTb3Step_keeps  (pacq : L .acq = true) (K : Kept L s₀ s) : Kept L s₀ (markTb3Step s) := by
  unfold markTb3Step; try dsimp only
  repeat' first | with_reducible assumption | with_reducible apply markStep_keeps | split | intro
theorem monRestart_keeps {f : Nat} (pmon : L .mon = true) (K : Kept L s₀ s) : Kept L s₀ (monRestart f s) := by
  unfold monRestart; try dsimp only
  repeat' first | with_reducible assumption | with_reducible apply modMon_keeps | split | intro
theorem monCfgWrite_keeps {f : Nat} {w : Word} (pregs : L .regs = true) (pmon : L .mon = true) (K : Kept L s₀ s) : Kept L s₀ (monCfgWrite f w s) := by
  unfold monCfgWrite; try dsimp only
  repeat' first | with_reducible assumption | with_reducible apply monRestart_keeps | with_reducible apply raise_keeps | with_reducible apply setReg_keeps | split | intro
theorem monShiftWrite_keeps {f : Nat} {w : Word} (pregs : L .regs = true) (pmon : L .mon = true) (K : Kept L s₀ s) : Kept L s₀ (monShiftWrite f w s) := by
  unfold monShiftWrite; try dsimp only
  repeat' first | with_reducible assumption | with_reducible apply monRestart_keeps | with_reducible apply raise_keeps | with_reducible apply setReg_keeps | split | intro
theorem monCommit_keeps  (pregs : L .regs = true) (pmon : L .mon = true) (K : Kept L s₀ s) : Kept L s₀ (monCommit s) := by
  unfold monCommit; try dsimp only
  repeat' first | with_reducible assumption | with_reducible apply monRestart_keeps | with_reducible apply setReg_keeps | with_reducible apply forAll_keeps | split | intro
theorem monStop_keeps  (pmon : L .mon = true) (K : Kept L s₀ s) : Kept L s₀ (monStop s) := by
  unfold monStop; try dsimp only
  repeat' first | with_reducible assumption | with_reducible apply modMons_keeps | split | intro

/-! ### Machine/Bda.lean -/

theorem copySentinel_keeps  (pbda : L .bda = true) (K : Kept L s₀ s) : Kept L s₀ (copySentinel s) := by
  unfold copySentinel; try dsimp only
  repeat' first | with_reducible assumption | with_reducible apply modBda_keeps | split | intro
theorem loadCode_keeps {n : Nat} (pregs : L .regs = true) (pbda : L .bda = true) (K : Kept L s₀ s) : Kept L s₀ (loadCode n s) := by
  unfold loadCode; try dsimp only
  repeat' first | with_reducible assumption | with_reducible apply raise_keeps | with_reducible apply modOut_keeps | split | intro
theorem biasLoad_keeps {n : Nat} (pregs : L .regs = true) (pbda : L .bda = true) (K : Kept L s₀ s) : Kept L s₀ (biasLoad n s) := by
  unfold biasLoad; try dsimp only
  repeat' first | with_reducible assumption | with_reducible apply loadCode_keeps | split | intro
theorem bdaLoadWrite_keeps {w : Word} (pregs : L .regs = true) (pbda : L .bda = true) (K : Kept L s₀ s) : Kept L s₀ (bdaLoadWrite w s) := by
  unfold bdaLoadWrite; try dsimp only
  repeat' first | with_reducible assumption | with_reducible apply biasLoad_keeps | with_reducible apply raise_keeps | with_reducible apply modBda_keeps | with_reducible apply forAll_keeps | with_reducible apply foldl_keeps | split | intro
theorem timedBiasLoad_keeps {g : Nat} (pregs : L .regs = true) (pbda : L .bda = true) (K : Kept L s₀ s) : Kept L s₀ (timedBiasLoad g s) := by
  unfold timedBiasLoad; try dsimp only
  repeat' first | with_reducible assumption | with_reducible apply biasLoad_keeps | with_reducible apply raise_keeps | with_reducible apply modBda_keeps | with_reducible apply forAll_keeps | split | intro
theorem bdaCodeWrite_keeps {n : Nat} {code : Nat} (pregs : L .regs = true) (pbda : L .bda = true) (K : Kept L s₀ s) : Kept L s₀ (bdaCodeWrite n code s) := by
  unfold bdaCodeWrite; try dsimp only
  repeat' first | with_reducible assumption | with_reducible apply biasLoad_keeps | with_reducible apply setReg_keeps | split | intro
theorem globalSafe_keeps {cause : Nat} (pregs : L .regs = true) (pbda : L .bda = true) (K : Kept L s₀ s) : Kept L s₀ (globalSafe cause s) := by
  unfold globalSafe; try dsimp only
  repeat' first | with_reducible assumption | with_reducible apply raise_keeps | with_reducible apply modBda_keeps | split | intro
theorem releaseSafe_keeps  (pregs : L .regs = true) (pbda : L .bda = true) (K : Kept L s₀ s) : Kept L s₀ (releaseSafe s) := by
  unfold releaseSafe; try dsimp only
  repeat' first | with_reducible assumption | with_reducible apply loadCode_keeps | with_reducible apply modBda_keeps | with_reducible apply forAll_keeps | split | intro
theorem clearFault_keeps {n : Nat} (pbda : L .bda = true) (K : Kept L s₀ s) : Kept L s₀ (clearFault n s) := by
  unfold clearFault; try dsimp only
  repeat' first | with_reducible assumption | with_reducible apply modOut_keeps | split | intro
theorem biasFault_keeps {n : Nat} {cause : Nat} (pregs : L .regs = true) (pglb : L .glb = true) (pbda : L .bda = true) (K : Kept L s₀ s) : Kept L s₀ (biasFault n cause s) := by
  unfold biasFault; try dsimp only
  repeat' first | with_reducible assumption | with_reducible apply event_keeps | with_reducible apply modOut_keeps | with_reducible apply forAll_keeps | split | intro
theorem supplyFault_keeps {n : Nat} (pregs : L .regs = true) (pbda : L .bda = true) (K : Kept L s₀ s) : Kept L s₀ (supplyFault n s) := by
  unfold supplyFault; try dsimp only
  repeat' first | with_reducible assumption | with_reducible apply raise_keeps | with_reducible apply modOut_keeps | split | intro
theorem checkReadback_keeps {n : Nat} {code : Nat} (pregs : L .regs = true) (pglb : L .glb = true) (pbda : L .bda = true) (K : Kept L s₀ s) : Kept L s₀ (checkReadback n code s) := by
  unfold checkReadback; try dsimp only
  repeat' first | with_reducible assumption | with_reducible apply biasFault_keeps | with_reducible apply modOut_keeps | split | intro
theorem checkCurrent_keeps {n : Nat} {code : Nat} (pregs : L .regs = true) (pglb : L .glb = true) (pbda : L .bda = true) (K : Kept L s₀ s) : Kept L s₀ (checkCurrent n code s) := by
  unfold checkCurrent; try dsimp only
  repeat' first | with_reducible assumption | with_reducible apply biasFault_keeps | with_reducible apply modOut_keeps | split | intro
theorem checkSupply_keeps {spans : List Nat} {code : Nat} (pregs : L .regs = true) (pbda : L .bda = true) (K : Kept L s₀ s) : Kept L s₀ (checkSupply spans code s) := by
  unfold checkSupply; try dsimp only
  repeat' first | with_reducible assumption | with_reducible apply supplyFault_keeps | with_reducible apply modOut_keeps | with_reducible apply forAll_keeps | split | intro
theorem superviseResult_keeps {ch : Nat} {code : Nat} (pregs : L .regs = true) (pglb : L .glb = true) (pbda : L .bda = true) (K : Kept L s₀ s) : Kept L s₀ (superviseResult ch code s) := by
  unfold superviseResult; try dsimp only
  repeat' first | with_reducible assumption | with_reducible apply checkSupply_keeps | with_reducible apply checkCurrent_keeps | with_reducible apply checkReadback_keeps | split | intro
theorem bdaCommit_keeps  (pregs : L .regs = true) (pbda : L .bda = true) (K : Kept L s₀ s) : Kept L s₀ (bdaCommit s) := by
  unfold bdaCommit; try dsimp only
  repeat' first | with_reducible assumption | with_reducible apply setReg_keeps | with_reducible apply modOut_keeps | with_reducible apply forAll_keeps | split | intro
theorem bdaReadRecord_keeps  (pbda : L .bda = true) (K : Kept L s₀ s) : Kept L s₀ (bdaReadRecord s) := by
  unfold bdaReadRecord; try dsimp only
  repeat' first | with_reducible assumption | with_reducible apply modBda_keeps | split | intro

/-! ### Machine/Hka.lean -/

theorem hkaQueue_keeps {w : Word} (pregs : L .regs = true) (phka : L .hka = true) (K : Kept L s₀ s) : Kept L s₀ (hkaQueue w s) := by
  unfold hkaQueue; try dsimp only
  repeat' first | with_reducible assumption | with_reducible apply addLo_keeps | with_reducible apply raise_keeps | with_reducible apply modHka_keeps | split | intro
theorem judgeRef_keeps {i : Nat} {code : Nat} (pregs : L .regs = true) (phka : L .hka = true) (pbda : L .bda = true) (K : Kept L s₀ s) : Kept L s₀ (judgeRef i code s) := by
  unfold judgeRef; try dsimp only
  repeat' first | with_reducible assumption | with_reducible apply globalSafe_keeps | with_reducible apply raise_keeps | with_reducible apply modHka_keeps | split | intro
theorem startPass_keeps  (phka : L .hka = true) (K : Kept L s₀ s) : Kept L s₀ (startPass s) := by
  unfold startPass; try dsimp only
  repeat' first | with_reducible assumption | with_reducible apply modHka_keeps | split | intro
theorem startPending_keeps  (phka : L .hka = true) (K : Kept L s₀ s) : Kept L s₀ (startPending s) := by
  unfold startPending; try dsimp only
  repeat' first | with_reducible assumption | with_reducible apply startPass_keeps | with_reducible apply modHka_keeps | split | intro
theorem listAdvance_keeps  (pregs : L .regs = true) (phka : L .hka = true) (K : Kept L s₀ s) : Kept L s₀ (listAdvance s) := by
  unfold listAdvance; try dsimp only
  repeat' first | with_reducible assumption | with_reducible apply raise_keeps | with_reducible apply modHka_keeps | split | intro
theorem conversionDone_keeps {code : Nat} {past : Bool} (pregs : L .regs = true) (pglb : L .glb = true) (phka : L .hka = true) (pbda : L .bda = true) (K : Kept L s₀ s) : Kept L s₀ (conversionDone code past s) := by
  unfold conversionDone; try dsimp only
  repeat' first | with_reducible assumption | with_reducible apply listAdvance_keeps | with_reducible apply startPending_keeps | with_reducible apply judgeRef_keeps | with_reducible apply hkaQueue_keeps | with_reducible apply superviseResult_keeps | with_reducible apply raise_keeps | with_reducible apply setReg_keeps | with_reducible apply modHka_keeps | split | intro
theorem scanTrigger_keeps  (pregs : L .regs = true) (phka : L .hka = true) (K : Kept L s₀ s) : Kept L s₀ (scanTrigger s) := by
  unfold scanTrigger; try dsimp only
  repeat' first | with_reducible assumption | with_reducible apply startPass_keeps | with_reducible apply addHi_keeps | with_reducible apply raise_keeps | with_reducible apply modHka_keeps | split | intro
theorem urgentRequest_keeps {w : Word} (pregs : L .regs = true) (pglb : L .glb = true) (phka : L .hka = true) (K : Kept L s₀ s) : Kept L s₀ (urgentRequest w s) := by
  unfold urgentRequest; try dsimp only
  repeat' first | with_reducible assumption | with_reducible apply refusedWrite_keeps | with_reducible apply modHka_keeps | split | intro

/-! ### Machine/Thm.lean -/

theorem sensorFail_keeps {i : Nat} {z : Nat} (pregs : L .regs = true) (pglb : L .glb = true) (pnvs : L .nvs = true) (pthm : L .thm = true) (K : Kept L s₀ s) : Kept L s₀ (sensorFail i z s) := by
  unfold sensorFail; try dsimp only
  repeat' first | with_reducible assumption | with_reducible apply engageReserve_keeps | with_reducible apply writeReserveMap_keeps | with_reducible apply event_keeps | with_reducible apply modSensor_keeps | split | intro
theorem voteZone_keeps {z : Nat} (pregs : L .regs = true) (pthm : L .thm = true) (K : Kept L s₀ s) : Kept L s₀ (voteZone z s) := by
  unfold voteZone; try dsimp only
  repeat' first | with_reducible assumption | with_reducible apply raise_keeps | with_reducible apply modZone_keeps | split | intro
theorem followHottest_keeps  (pthm : L .thm = true) (K : Kept L s₀ s) : Kept L s₀ (followHottest s) := by
  unfold followHottest; try dsimp only
  repeat' first | with_reducible assumption | with_reducible apply modThm_keeps | split | intro
theorem stageMoved_keeps {old : Nat} (pregs : L .regs = true) (pthm : L .thm = true) (K : Kept L s₀ s) : Kept L s₀ (stageMoved old s) := by
  unfold stageMoved; try dsimp only
  repeat' first | with_reducible assumption | with_reducible apply raise_keeps | with_reducible apply modThm_keeps | split | intro
theorem sampleZone_keeps {z : Nat} {raws : List (Option Int)} (pregs : L .regs = true) (pglb : L .glb = true) (pnvs : L .nvs = true) (pthm : L .thm = true) (K : Kept L s₀ s) : Kept L s₀ (sampleZone z raws s) := by
  unfold sampleZone; try dsimp only
  repeat' first | with_reducible assumption | with_reducible apply stageMoved_keeps | with_reducible apply followHottest_keeps | with_reducible apply voteZone_keeps | with_reducible apply sensorFail_keeps | with_reducible apply modSensor_keeps | with_reducible apply modThm_keeps | with_reducible apply forAll_keeps | split | intro
theorem stageFall_keeps {z : Nat} (pregs : L .regs = true) (pthm : L .thm = true) (K : Kept L s₀ s) : Kept L s₀ (stageFall z s) := by
  unfold stageFall; try dsimp only
  repeat' first | with_reducible assumption | with_reducible apply stageMoved_keeps | with_reducible apply modZone_keeps | split | intro
theorem setTl_keeps {n : Nat} (pregs : L .regs = true) (pthm : L .thm = true) (K : Kept L s₀ s) : Kept L s₀ (setTl n s) := by
  unfold setTl; try dsimp only
  repeat' first | with_reducible assumption | with_reducible apply raise_keeps | with_reducible apply modThm_keeps | split | intro
theorem tlUpdate_keeps  (pregs : L .regs = true) (pfhp : L .fhp = true) (pthm : L .thm = true) (K : Kept L s₀ s) : Kept L s₀ (tlUpdate s) := by
  unfold tlUpdate; try dsimp only
  repeat' first | with_reducible assumption | with_reducible apply setTl_keeps | with_reducible apply notice_keeps | with_reducible apply modThm_keeps | with_reducible apply forAll_keeps | split | intro

/-! ### Machine/Live.lean -/

theorem recheckRange_keeps  (pregs : L .regs = true) (prad : L .rad = true) (K : Kept L s₀ s) : Kept L s₀ (recheckRange s) := by
  unfold recheckRange; try dsimp only
  repeat' first | with_reducible assumption | with_reducible apply raise_keeps | with_reducible apply modGroup_keeps | with_reducible apply forAll_keeps | split | intro
theorem applyTxAtten_keeps {p : Nat} (ppaths : L .paths = true) (K : Kept L s₀ s) : Kept L s₀ (applyTxAtten p s) := by
  unfold applyTxAtten; try dsimp only
  repeat' first | with_reducible assumption | with_reducible apply modPath_keeps | split | intro
theorem applyRxAtten_keeps {p : Nat} (ppaths : L .paths = true) (K : Kept L s₀ s) : Kept L s₀ (applyRxAtten p s) := by
  unfold applyRxAtten; try dsimp only
  repeat' first | with_reducible assumption | with_reducible apply modPath_keeps | split | intro
theorem applyTrim_keeps {tx : Bool} {p : Nat} (pregs : L .regs = true) (ppaths : L .paths = true) (K : Kept L s₀ s) : Kept L s₀ (applyTrim tx p s) := by
  unfold applyTrim; try dsimp only
  repeat' first | with_reducible assumption | with_reducible apply raise_keeps | with_reducible apply modPath_keeps | split | intro
theorem refreshPath_keeps {p : Nat} (ppaths : L .paths = true) (K : Kept L s₀ s) : Kept L s₀ (refreshPath p s) := by
  unfold refreshPath; try dsimp only
  repeat' first | with_reducible assumption | with_reducible apply modPath_keeps | split | intro
theorem refreshMutes_keeps  (ppaths : L .paths = true) (K : Kept L s₀ s) : Kept L s₀ (refreshMutes s) := by
  unfold refreshMutes; try dsimp only
  repeat' first | with_reducible assumption | with_reducible apply refreshPath_keeps | with_reducible apply forAll_keeps | split | intro
theorem attemptLog_keeps {p : Nat} {bit : Nat} {code : Nat} (pregs : L .regs = true) (pglb : L .glb = true) (K : Kept L s₀ s) : Kept L s₀ (attemptLog p bit code s) := by
  unfold attemptLog; try dsimp only
  repeat' first | with_reducible assumption | with_reducible apply logPut_keeps | split | intro
theorem attemptStatus_keeps {p : Nat} {result : Nat} {code : Nat} (pregs : L .regs = true) (K : Kept L s₀ s) : Kept L s₀ (attemptStatus p result code s) := by
  unfold attemptStatus; try dsimp only
  repeat' first | with_reducible assumption | with_reducible apply setFld_keeps | split | intro
theorem attemptReject_keeps {p : Nat} {code : Nat} (pregs : L .regs = true) (pglb : L .glb = true) (pdpd : L .dpd = true) (K : Kept L s₀ s) : Kept L s₀ (attemptReject p code s) := by
  unfold attemptReject; try dsimp only
  repeat' first | with_reducible assumption | with_reducible apply attemptStatus_keeps | with_reducible apply attemptLog_keeps | with_reducible apply raise_keeps | with_reducible apply modDpdPath_keeps | split | intro
theorem discardBlock_keeps {p : Nat} {code : Nat} (pregs : L .regs = true) (pglb : L .glb = true) (pdpd : L .dpd = true) (K : Kept L s₀ s) : Kept L s₀ (discardBlock p code s) := by
  unfold discardBlock; try dsimp only
  repeat' first | with_reducible assumption | with_reducible apply attemptReject_keeps | with_reducible apply setFld_keeps | with_reducible apply modDpdPath_keeps | split | intro
theorem dropBlock_keeps {o : Nat} (pregs : L .regs = true) (pglb : L .glb = true) (pdpd : L .dpd = true) (K : Kept L s₀ s) : Kept L s₀ (dropBlock o s) := by
  unfold dropBlock; try dsimp only
  repeat' first | with_reducible assumption | with_reducible apply discardBlock_keeps | with_reducible apply modObs_keeps | split | intro
theorem dropBlocks_keeps {r : Nat} (pregs : L .regs = true) (pglb : L .glb = true) (pdpd : L .dpd = true) (K : Kept L s₀ s) : Kept L s₀ (dropBlocks r s) := by
  unfold dropBlocks; try dsimp only
  repeat' first | with_reducible assumption | with_reducible apply dropBlock_keeps | with_reducible apply forAll_keeps | split | intro
theorem noticeRole_keeps {r : Nat} {valid : Bool} (pregs : L .regs = true) (pfhp : L .fhp = true) (K : Kept L s₀ s) : Kept L s₀ (noticeRole r valid s) := by
  unfold noticeRole; try dsimp only
  repeat' first | with_reducible assumption | with_reducible apply notice_keeps | with_reducible apply forAll_keeps | split | intro
theorem watchRoles_keeps {f : State → State} (hf : ∀  t, Kept L s₀ t → Kept L s₀ (f  t)) (pregs : L .regs = true) (pglb : L .glb = true) (ppaths : L .paths = true) (pdpd : L .dpd = true) (pfhp : L .fhp = true) (K : Kept L s₀ s) : Kept L s₀ (watchRoles f s) := by
  unfold watchRoles; try dsimp only
  repeat' first | with_reducible assumption | with_reducible apply hf | with_reducible apply noticeRole_keeps | with_reducible apply dropBlocks_keeps | with_reducible apply refreshMutes_keeps | with_reducible apply forAll_keeps | split | intro

/-! ### Machine/CasOut.lean -/

theorem foldOut_keeps {side : Nat} {b : List Byte} (pcas : L .cas = true) (K : Kept L s₀ s) : Kept L s₀ (foldOut side b s) := by
  unfold foldOut; try dsimp only
  repeat' first | with_reducible assumption | with_reducible apply modCas_keeps | split | intro
theorem casSend_keeps {type : Nat} {side : Nat} {dst : Nat} {bcast : Bool} {payload : List Byte} (pcas : L .cas = true) (K : Kept L s₀ s) : Kept L s₀ (casSend type side dst bcast payload s) := by
  unfold casSend; try dsimp only
  repeat' first | with_reducible assumption | with_reducible apply foldOut_keeps | with_reducible apply modCas_keeps | split | intro
theorem relayControl_keeps {sub : Nat} {tag : Nat} {body : List Byte} (pcas : L .cas = true) (K : Kept L s₀ s) : Kept L s₀ (relayControl sub tag body s) := by
  unfold relayControl; try dsimp only
  repeat' first | with_reducible assumption | with_reducible apply casSend_keeps | split | intro
theorem reportUp_keeps {sub : Nat} {tag : Nat} {body : List Byte} (pcas : L .cas = true) (K : Kept L s₀ s) : Kept L s₀ (reportUp sub tag body s) := by
  unfold reportUp; try dsimp only
  repeat' first | with_reducible assumption | with_reducible apply casSend_keeps | split | intro

/-! ### Machine/Skn.lean -/

theorem hostSwapReport_keeps {r : SwapReport} (pregs : L .regs = true) (pskn : L .skn = true) (K : Kept L s₀ s) : Kept L s₀ (hostSwapReport r s) := by
  unfold hostSwapReport; try dsimp only
  repeat' first | with_reducible assumption | (with_reducible exact fun h => h) | exact fun _ => twf_nil | with_reducible apply addLo_keeps | with_reducible apply raise_keeps | with_reducible apply modSkn_keeps | split | intro
theorem flockSwapReport_keeps {k : Nat} {port : Nat} {tag : Nat} {outcome : Nat} {code : Nat} {ul : Bool} {l : Nat} {start : Int} {late : Nat} {byTag : Nat} (pregs : L .regs = true) (pfhp : L .fhp = true) (K : Kept L s₀ s) : Kept L s₀ (flockSwapReport k port tag outcome code ul l start late byTag s) := by
  unfold flockSwapReport; try dsimp only
  repeat' first | with_reducible assumption | with_reducible apply post_keeps | split | intro
theorem swapReport_keeps {ul : Bool} {l : Nat} {r : SwapReq} {outcome : Nat} {start : Int} {late : Nat} {byTag : Nat} (pregs : L .regs = true) (pskn : L .skn = true) (pfhp : L .fhp = true) (K : Kept L s₀ s) : Kept L s₀ (swapReport ul l r outcome start late byTag s) := by
  unfold swapReport; try dsimp only
  repeat' first | with_reducible assumption | with_reducible apply flockSwapReport_keeps | with_reducible apply hostSwapReport_keeps | split | intro
theorem superseded_keeps {ul : Bool} {l : Nat} {r : SwapReq} {byTag : Nat} (pregs : L .regs = true) (pskn : L .skn = true) (pfhp : L .fhp = true) (K : Kept L s₀ s) : Kept L s₀ (superseded ul l r byTag s) := by
  unfold superseded; try dsimp only
  repeat' first | with_reducible assumption | with_reducible apply swapReport_keeps | with_reducible apply addLo_keeps | with_reducible apply addHi_keeps | with_reducible apply raise_keeps | split | intro
theorem discardPend_keeps {outcome : Nat} {ul : Bool} {l : Nat} (pregs : L .regs = true) (pskn : L .skn = true) (pfhp : L .fhp = true) (K : Kept L s₀ s) : Kept L s₀ (discardPend outcome ul l s) := by
  unfold discardPend; try dsimp only
  repeat' first | with_reducible assumption | with_reducible apply swapReport_keeps | with_reducible apply modSlot_keeps | with_reducible apply raise_keeps | split | intro
theorem resetSlot_keeps {outcome : Nat} {ul : Bool} {l : Nat} {holder : Option Nat} (pregs : L .regs = true) (pskn : L .skn = true) (pfhp : L .fhp = true) (K : Kept L s₀ s) : Kept L s₀ (resetSlot outcome ul l holder s) := by
  unfold resetSlot; try dsimp only
  repeat' first | with_reducible assumption | with_reducible apply discardPend_keeps | with_reducible apply modSlot_keeps | split | intro
theorem swapAccept_keeps {ul : Bool} {l : Nat} {r : SwapReq} (pregs : L .regs = true) (pskn : L .skn = true) (pfhp : L .fhp = true) (K : Kept L s₀ s) : Kept L s₀ (swapAccept ul l r s) := by
  unfold swapAccept; try dsimp only
  repeat' first | with_reducible assumption | with_reducible apply superseded_keeps | with_reducible apply modSlot_keeps | split | intro
theorem relaySwap_keeps {ul : Bool} {l : Nat} {r : SwapReq} (pcas : L .cas = true) (K : Kept L s₀ s) : Kept L s₀ (relaySwap ul l r s) := by
  unfold relaySwap; try dsimp only
  repeat' first | with_reducible assumption | with_reducible apply relayControl_keeps | split | intro
theorem controlSwap_keeps {tag : Nat} {b : List Byte} (pregs : L .regs = true) (pskn : L .skn = true) (pfhp : L .fhp = true) (K : Kept L s₀ s) : Kept L s₀ (controlSwap tag b s) := by
  unfold controlSwap; try dsimp only
  repeat' first | with_reducible assumption | with_reducible apply swapAccept_keeps | split | intro
theorem sknSwitchWrite_keeps {w : Word} (pregs : L .regs = true) (pskn : L .skn = true) (pfhp : L .fhp = true) (pcas : L .cas = true) (K : Kept L s₀ s) : Kept L s₀ (sknSwitchWrite w s) := by
  unfold sknSwitchWrite; try dsimp only
  repeat' first | with_reducible assumption | (with_reducible exact fun h => h) | exact fun _ => twf_nil | with_reducible apply relaySwap_keeps | with_reducible apply swapAccept_keeps | with_reducible apply setReg_keeps | with_reducible apply modSkn_keeps | split | intro
theorem flockSwap_keeps {k : Nat} {port : Nat} {tag : Nat} {b : List Byte} (pregs : L .regs = true) (pskn : L .skn = true) (pfhp : L .fhp = true) (pcas : L .cas = true) (K : Kept L s₀ s) : Kept L s₀ (flockSwap k port tag b s) := by
  unfold flockSwap; try dsimp only
  repeat' first | with_reducible assumption | with_reducible apply relaySwap_keeps | with_reducible apply swapAccept_keeps | with_reducible apply flockSwapReport_keeps | split | intro
theorem swapStart_keeps {ul : Bool} {l : Nat} (pregs : L .regs = true) (pskn : L .skn = true) (pfhp : L .fhp = true) (K : Kept L s₀ s) : Kept L s₀ (swapStart ul l s) := by
  unfold swapStart; try dsimp only
  repeat' first | with_reducible assumption | with_reducible apply swapReport_keeps | with_reducible apply modSlot_keeps | with_reducible apply raise_keeps | split | intro
theorem plyEnd_keeps {ul : Bool} {l : Nat} (pskn : L .skn = true) (K : Kept L s₀ s) : Kept L s₀ (plyEnd ul l s) := by
  unfold plyEnd; try dsimp only
  repeat' first | with_reducible assumption | with_reducible apply modSlot_keeps | split | intro
theorem skeinWriteBody_keeps {ul : Bool} {b : List Byte} (pskn : L .skn = true) (K : Kept L s₀ s) : Kept L s₀ (skeinWriteBody ul b s) := by
  unfold skeinWriteBody; try dsimp only
  repeat' first | with_reducible assumption | with_reducible apply skeinWrite_keeps | split | intro
theorem reloadBanks_keeps {l : Nat} (pskn : L .skn = true) (K : Kept L s₀ s) : Kept L s₀ (reloadBanks l s) := by
  unfold reloadBanks; try dsimp only
  repeat' first | with_reducible assumption | with_reducible apply modSlot_keeps | split | intro
theorem sknCommit_keeps (pregs : L .regs = true) (pskn : L .skn = true) (pfhp : L .fhp = true) (K : Kept L s₀ s) : Kept L s₀ (sknCommit s) := by
  unfold sknCommit
  refine modSkn_keeps pskn (fun _ => twf_nil) (fun _ => twf_nil) (forAll_keeps (fun _ _ h => ?_) K)
  apply discardPend_keeps <;> first | assumption | (apply discardPend_keeps <;> assumption)

/-! ### Machine/Fft.lean -/

theorem monFeed_keeps {f : Nat} {obs : List Cplx} (pregs : L .regs = true) (pmon : L .mon = true) (K : Kept L s₀ s) : Kept L s₀ (monFeed f obs s).2 := by
  unfold monFeed; try dsimp only
  repeat' first | with_reducible assumption | with_reducible apply addReg_keeps | with_reducible apply raise_keeps | with_reducible apply modMon_keeps | split | intro
theorem fftSubmit_keeps {f : Nat} {id : Nat} (pregs : L .regs = true) (pfft : L .fft = true) (K : Kept L s₀ s) : Kept L s₀ (fftSubmit f id s) := by
  unfold fftSubmit; try dsimp only
  repeat' first | with_reducible assumption | with_reducible apply raise_keeps | with_reducible apply setReg_keeps | with_reducible apply modFft_keeps | split | intro
theorem fftEpoch_keeps {f : Nat} (pfft : L .fft = true) (pfhp : L .fhp = true) (K : Kept L s₀ s) : Kept L s₀ (fftEpoch f s) := by
  unfold fftEpoch; try dsimp only
  repeat' first | with_reducible assumption | with_reducible apply modFhp_keeps | with_reducible apply modFft_keeps | split | intro
theorem dramPut_keeps {a : Nat} {bs : List Byte} (pdrc : L .drc = true) (K : Kept L s₀ s) : Kept L s₀ (dramPut a bs s) := by
  unfold dramPut; try dsimp only
  repeat' first | with_reducible assumption | with_reducible apply dramStore_keeps | with_reducible apply dramTouch_keeps | split | intro
theorem jobInput_keeps {f : Nat} {j : FftJob} {samples : List Cplx} (pregs : L .regs = true) (pmon : L .mon = true) (pdrc : L .drc = true) (K : Kept L s₀ s) : Kept L s₀ (jobInput f j samples s).2 := by
  unfold jobInput; try dsimp only
  repeat' first | with_reducible assumption | with_reducible apply monFeed_keeps | with_reducible apply dramTouch_keeps | split | (with_reducible refine Kept.pair1 (by assumption) ?_) | (with_reducible refine Kept.pair2 (by assumption) ?_) | intro
theorem fftStart_keeps {f : Nat} {samples : List Cplx} {first : Nat} (pregs : L .regs = true) (pfft : L .fft = true) (pmon : L .mon = true) (pdrc : L .drc = true) (K : Kept L s₀ s) : Kept L s₀ (fftStart f samples first s) := by
  unfold fftStart; try dsimp only
  repeat' first | with_reducible assumption | with_reducible apply jobInput_keeps | with_reducible apply modFft_keeps | split | (with_reducible refine Kept.pair1 (by assumption) ?_) | (with_reducible refine Kept.pair2 (by assumption) ?_) | intro
theorem jobOutput_keeps {j : FftJob} {out : List Cplx} {e : Nat} {failed : Bool} (pskn : L .skn = true) (pdrc : L .drc = true) (K : Kept L s₀ s) : Kept L s₀ (jobOutput j out e failed s) := by
  unfold jobOutput; try dsimp only
  repeat' first | with_reducible assumption | with_reducible apply dramPut_keeps | with_reducible apply skeinWrite_keeps | split | intro
theorem fftDone_keeps {f : Nat} (pregs : L .regs = true) (pskn : L .skn = true) (pfft : L .fft = true) (pdrc : L .drc = true) (K : Kept L s₀ s) : Kept L s₀ (fftDone f s) := by
  unfold fftDone; try dsimp only
  repeat' first | with_reducible assumption | with_reducible apply jobOutput_keeps | with_reducible apply raise_keeps | with_reducible apply setReg_keeps | with_reducible apply modFft_keeps | split | intro

/-! ### Machine/Dpd.lean -/

theorem writePage_keeps {p : Nat} {g : Nat} {es : List Cplx} (pdpd : L .dpd = true) (K : Kept L s₀ s) : Kept L s₀ (writePage p g es s) := by
  unfold writePage; try dsimp only
  repeat' first | with_reducible assumption | with_reducible apply coefWrite_keeps | split | intro
theorem leaveSolver_keeps {p : Nat} (pdpd : L .dpd = true) (K : Kept L s₀ s) : Kept L s₀ (leaveSolver p s) := by
  unfold leaveSolver; try dsimp only
  repeat' first | with_reducible assumption | (with_reducible exact fun h => h) | exact fun _ => twf_nil | with_reducible apply modDpd_keeps | split | intro
theorem dpdInit_keeps {p : Nat} (pregs : L .regs = true) (pdpd : L .dpd = true) (K : Kept L s₀ s) : Kept L s₀ (dpdInit p s) := by
  unfold dpdInit; try dsimp only
  repeat' first | with_reducible assumption | with_reducible apply leaveSolver_keeps | with_reducible apply writePage_keeps | with_reducible apply setFld_keeps | with_reducible apply modDpdPath_keeps | split | intro
theorem dpdInitAll_keeps  (pregs : L .regs = true) (pdpd : L .dpd = true) (K : Kept L s₀ s) : Kept L s₀ (dpdInitAll s) := by
  unfold dpdInitAll; try dsimp only
  repeat' first | with_reducible assumption | with_reducible apply dpdInit_keeps | with_reducible apply forAll_keeps | split | intro
theorem dpdStage3_keeps  (pregs : L .regs = true) (pdpd : L .dpd = true) (K : Kept L s₀ s) : Kept L s₀ (dpdStage3 s) := by
  unfold dpdStage3; try dsimp only
  repeat' first | with_reducible assumption | with_reducible apply dpdInitAll_keeps | with_reducible apply modDpdPath_keeps | with_reducible apply forAll_keeps | split | intro
theorem attemptEnd_keeps {p : Nat} {code : Nat} (pregs : L .regs = true) (pglb : L .glb = true) (pdpd : L .dpd = true) (K : Kept L s₀ s) : Kept L s₀ (attemptEnd p code s) := by
  unfold attemptEnd; try dsimp only
  repeat' first | with_reducible assumption | with_reducible apply leaveSolver_keeps | with_reducible apply attemptStatus_keeps | with_reducible apply attemptLog_keeps | with_reducible apply modDpdPath_keeps | split | intro
theorem abortAttempts_keeps {f : Nat → Bool} (pregs : L .regs = true) (pglb : L .glb = true) (pdpd : L .dpd = true) (K : Kept L s₀ s) : Kept L s₀ (abortAttempts f s) := by
  unfold abortAttempts; try dsimp only
  repeat' first | with_reducible assumption | with_reducible apply attemptEnd_keeps | with_reducible apply forAll_keeps | split | intro
theorem dpdAccept_keeps {p : Nat} {r : SwapReq} (pregs : L .regs = true) (pglb : L .glb = true) (pdpd : L .dpd = true) (K : Kept L s₀ s) : Kept L s₀ (dpdAccept p r s) := by
  unfold dpdAccept; try dsimp only
  repeat' first | with_reducible assumption | with_reducible apply attemptEnd_keeps | with_reducible apply addLo_keeps | with_reducible apply raise_keeps | with_reducible apply modDpdPath_keeps | split | intro
theorem dpdSwitchWrite_keeps {w : Word} (pregs : L .regs = true) (pglb : L .glb = true) (pdpd : L .dpd = true) (K : Kept L s₀ s) : Kept L s₀ (dpdSwitchWrite w s) := by
  unfold dpdSwitchWrite; try dsimp only
  repeat' first | with_reducible assumption | (with_reducible exact fun h => h) | exact fun _ => twf_nil | with_reducible apply dpdAccept_keeps | with_reducible apply setReg_keeps | with_reducible apply modDpd_keeps | split | intro
theorem solverSwap_keeps {p : Nat} {page : Nat} (pregs : L .regs = true) (pglb : L .glb = true) (pdpd : L .dpd = true) (K : Kept L s₀ s) : Kept L s₀ (solverSwap p page s) := by
  unfold solverSwap; try dsimp only
  repeat' first | with_reducible assumption | with_reducible apply dpdAccept_keeps | split | intro
theorem verifyDue_keeps {p : Nat} (pdpd : L .dpd = true) (K : Kept L s₀ s) : Kept L s₀ (verifyDue p s) := by
  unfold verifyDue; try dsimp only
  repeat' first | with_reducible assumption | with_reducible apply modDpdPath_keeps | split | intro
theorem dpdSwapStart_keeps {p : Nat} (pregs : L .regs = true) (pglb : L .glb = true) (pdpd : L .dpd = true) (K : Kept L s₀ s) : Kept L s₀ (dpdSwapStart p s) := by
  unfold dpdSwapStart; try dsimp only
  repeat' first | with_reducible assumption | with_reducible apply verifyDue_keeps | with_reducible apply attemptEnd_keeps | with_reducible apply setReg_keeps | with_reducible apply modDpdPath_keeps | split | intro
theorem dpdPlyEnd_keeps {p : Nat} (pdpd : L .dpd = true) (K : Kept L s₀ s) : Kept L s₀ (dpdPlyEnd p s) := by
  unfold dpdPlyEnd; try dsimp only
  repeat' first | with_reducible assumption | with_reducible apply verifyDue_keeps | with_reducible apply modDpdPath_keeps | split | intro
theorem adaptOff_keeps {p : Nat} (pregs : L .regs = true) (pglb : L .glb = true) (pdpd : L .dpd = true) (K : Kept L s₀ s) : Kept L s₀ (adaptOff p s) := by
  unfold adaptOff; try dsimp only
  repeat' first | with_reducible assumption | with_reducible apply attemptEnd_keeps | with_reducible apply modDpdPath_keeps | split | intro
theorem dpdPathCfgWrite_keeps {p : Nat} {w : Word} (pregs : L .regs = true) (pglb : L .glb = true) (pdpd : L .dpd = true) (K : Kept L s₀ s) : Kept L s₀ (dpdPathCfgWrite p w s) := by
  unfold dpdPathCfgWrite; try dsimp only
  repeat' first | with_reducible assumption | with_reducible apply adaptOff_keeps | with_reducible apply refusedWrite_keeps | with_reducible apply setFld_keeps | with_reducible apply setReg_keeps | split | intro
theorem pathDue_keeps {p : Nat} (pdpd : L .dpd = true) (K : Kept L s₀ s) : Kept L s₀ (pathDue p s) := by
  unfold pathDue; try dsimp only
  repeat' first | with_reducible assumption | with_reducible apply modDpdPath_keeps | split | intro
theorem enqueueSolve_keeps {p : Nat} (pdpd : L .dpd = true) (K : Kept L s₀ s) : Kept L s₀ (enqueueSolve p s) := by
  unfold enqueueSolve; try dsimp only
  repeat' first | with_reducible assumption | (with_reducible exact fun h => h) | exact fun h => twf_mwrite _ _ h | exact fun h => twf_tset _ _ h | exact fun h => twfFrom_filter _ h | exact fun h => twf_windowWrite _ _ h | exact fun _ => twf_nil | with_reducible apply modDpd_keeps | split | intro
theorem verdict_keeps {p : Nat} {new : Int} (pregs : L .regs = true) (pglb : L .glb = true) (pdpd : L .dpd = true) (K : Kept L s₀ s) : Kept L s₀ (verdict p new s) := by
  unfold verdict; try dsimp only
  repeat' first | with_reducible assumption | with_reducible apply solverSwap_keeps | with_reducible apply attemptStatus_keeps | with_reducible apply attemptLog_keeps | with_reducible apply raise_keeps | with_reducible apply setReg_keeps | with_reducible apply modDpdPath_keeps | split | intro
theorem noteGain_keeps {p : Nat} {k : ObsBlock} (pregs : L .regs = true) (K : Kept L s₀ s) : Kept L s₀ (noteGain p k s) := by
  unfold noteGain; try dsimp only
  repeat' first | with_reducible assumption | with_reducible apply setReg_keeps | split | intro
theorem judgeBlock_keeps {p : Nat} {k : ObsBlock} (pregs : L .regs = true) (pglb : L .glb = true) (pdpd : L .dpd = true) (K : Kept L s₀ s) : Kept L s₀ (judgeBlock p k s) := by
  unfold judgeBlock; try dsimp only
  repeat' first | with_reducible assumption | with_reducible apply noteGain_keeps | with_reducible apply verdict_keeps | with_reducible apply enqueueSolve_keeps | with_reducible apply discardBlock_keeps | with_reducible apply modDpdPath_keeps | split | intro
theorem obsVisit_keeps {o : Nat} {m : Nat} {k : ObsBlock} (pregs : L .regs = true) (pglb : L .glb = true) (pdpd : L .dpd = true) (K : Kept L s₀ s) : Kept L s₀ (obsVisit o m k s) := by
  unfold obsVisit; try dsimp only
  repeat' first | with_reducible assumption | with_reducible apply judgeBlock_keeps | with_reducible apply modObs_keeps | split | intro
theorem solveStart_keeps  (pregs : L .regs = true) (pdpd : L .dpd = true) (K : Kept L s₀ s) : Kept L s₀ (solveStart s) := by
  unfold solveStart; try dsimp only
  repeat' first | with_reducible assumption | (with_reducible exact fun h => h) | exact fun _ => twf_nil | with_reducible apply setFld_keeps | with_reducible apply modDpdPath_keeps | with_reducible apply modDpd_keeps | split | intro
theorem solveDone_keeps {p : Nat} {took : Nat} (pregs : L .regs = true) (pglb : L .glb = true) (pdpd : L .dpd = true) (K : Kept L s₀ s) : Kept L s₀ (solveDone p took s) := by
  unfold solveDone; try dsimp only
  repeat' first | with_reducible assumption | (with_reducible exact fun h => h) | exact fun h => twf_mwrite _ _ h | exact fun h => twf_tset _ _ h | exact fun h => twfFrom_filter _ h | exact fun h => twf_windowWrite _ _ h | exact fun _ => twf_nil | with_reducible apply solverSwap_keeps | with_reducible apply writePage_keeps | with_reducible apply attemptReject_keeps | with_reducible apply setFld_keeps | with_reducible apply modDpdPath_keeps | with_reducible apply modDpd_keeps | split | intro
theorem verificationDone_keeps {p : Nat} {k : ObsBlock} (pregs : L .regs = true) (pglb : L .glb = true) (pdpd : L .dpd = true) (K : Kept L s₀ s) : Kept L s₀ (verificationDone p k s) := by
  unfold verificationDone; try dsimp only
  repeat' first | with_reducible assumption | with_reducible apply obsVisit_keeps | split | intro
theorem dpdStale_keeps {p : Nat} (pregs : L .regs = true) (K : Kept L s₀ s) : Kept L s₀ (dpdStale p s) := by
  unfold dpdStale; try dsimp only
  repeat' first | with_reducible assumption | with_reducible apply raise_keeps | with_reducible apply setFld_keeps | split | intro
theorem surveyStatus_keeps {outcome : Nat} {code : Nat} {p : Nat} {skipped : Nat} (pregs : L .regs = true) (K : Kept L s₀ s) : Kept L s₀ (surveyStatus outcome code p skipped s) := by
  unfold surveyStatus; try dsimp only
  repeat' first | with_reducible assumption | with_reducible apply setReg_keeps | split | intro
theorem surveyRefuse_keeps {code : Nat} {p : Nat} (pregs : L .regs = true) (K : Kept L s₀ s) : Kept L s₀ (surveyRefuse code p s) := by
  unfold surveyRefuse; try dsimp only
  repeat' first | with_reducible assumption | with_reducible apply surveyStatus_keeps | with_reducible apply raise_keeps | split | intro
theorem surveyGo_keeps {w : Word} (pregs : L .regs = true) (pdpd : L .dpd = true) (K : Kept L s₀ s) : Kept L s₀ (surveyGo w s) := by
  unfold surveyGo; try dsimp only
  repeat' first | with_reducible assumption | (with_reducible exact fun h => h) | exact fun _ => twf_nil | with_reducible apply surveyRefuse_keeps | with_reducible apply surveyStatus_keeps | with_reducible apply obsRequest_keeps | with_reducible apply modDpd_keeps | split | intro
theorem surveyGranted_keeps {p : Nat} (pregs : L .regs = true) (pglb : L .glb = true) (ppaths : L .paths = true) (psyn : L .syn = true) (pdpd : L .dpd = true) (pfhp : L .fhp = true) (K : Kept L s₀ s) : Kept L s₀ (surveyGranted p s) := by
  unfold surveyGranted; try dsimp only
  repeat' first | with_reducible assumption | (with_reducible exact fun h => h) | exact fun _ => twf_nil | with_reducible apply watchRoles_keeps | with_reducible apply modDpd_keeps | with_reducible apply modRole_keeps | split | intro
theorem surveyRelease_keeps {v : Survey} (psyn : L .syn = true) (pdpd : L .dpd = true) (K : Kept L s₀ s) : Kept L s₀ (surveyRelease v s) := by
  unfold surveyRelease; try dsimp only
  repeat' first | with_reducible assumption | (with_reducible exact fun h => h) | exact fun _ => twf_nil | with_reducible apply obsRelease_keeps | with_reducible apply obsWithdraw_keeps | with_reducible apply modDpd_keeps | with_reducible apply modRole_keeps | with_reducible apply modUnit_keeps | split | intro
theorem surveyAbortIf_keeps {f : Survey → Bool} (pregs : L .regs = true) (psyn : L .syn = true) (pdpd : L .dpd = true) (K : Kept L s₀ s) : Kept L s₀ (surveyAbortIf f s) := by
  unfold surveyAbortIf; try dsimp only
  repeat' first | with_reducible assumption | with_reducible apply surveyRelease_keeps | with_reducible apply surveyRefuse_keeps | with_reducible apply forAll_keeps | split | intro
theorem surveyAbort_keeps  (pregs : L .regs = true) (psyn : L .syn = true) (pdpd : L .dpd = true) (K : Kept L s₀ s) : Kept L s₀ (surveyAbort s) := by
  unfold surveyAbort; try dsimp only
  repeat' first | with_reducible assumption | with_reducible apply surveyAbortIf_keeps | split | intro
theorem surveyBusy_keeps {p : Nat} (pregs : L .regs = true) (psyn : L .syn = true) (pdpd : L .dpd = true) (K : Kept L s₀ s) : Kept L s₀ (surveyBusy p s) := by
  unfold surveyBusy; try dsimp only
  repeat' first | with_reducible assumption | with_reducible apply surveyRelease_keeps | with_reducible apply surveyRefuse_keeps | split | intro
theorem surveyReport_keeps {old : State} {v : Survey} {g : Nat → Cplx × Cplx} (pregs : L .regs = true) (K : Kept L s₀ s) : Kept L s₀ (surveyReport old v g s) := by
  unfold surveyReport; try dsimp only
  repeat' first | with_reducible assumption | with_reducible apply setReg_keeps | with_reducible apply forAll_keeps | split | intro
theorem surveyDone_keeps {o : Nat} {steps : List (Cplx × Cplx)} (pregs : L .regs = true) (psyn : L .syn = true) (pdpd : L .dpd = true) (K : Kept L s₀ s) : Kept L s₀ (surveyDone o steps s) := by
  unfold surveyDone; try dsimp only
  repeat' first | with_reducible assumption | with_reducible apply surveyReport_keeps | with_reducible apply surveyRelease_keeps | with_reducible apply surveyStatus_keeps | with_reducible apply raise_keeps | split | intro
theorem obsHolderGrant_keeps {o : Nat} (pregs : L .regs = true) (pglb : L .glb = true) (ppaths : L .paths = true) (psyn : L .syn = true) (pdpd : L .dpd = true) (pfhp : L .fhp = true) (pacq : L .acq = true) (K : Kept L s₀ s) : Kept L s₀ (obsHolderGrant o s) := by
  unfold obsHolderGrant; try dsimp only
  repeat' first | with_reducible assumption | with_reducible apply surveyGranted_keeps | with_reducible apply streamGranted_keeps | with_reducible apply obsGrant_keeps | split | (with_reducible refine Kept.pair1 (by assumption) ?_) | (with_reducible refine Kept.pair2 (by assumption) ?_) | intro

/-! ### Machine/Paths.lean -/

theorem txAttenWrite_keeps {p : Nat} {w : Word} (pregs : L .regs = true) (ppaths : L .paths = true) (K : Kept L s₀ s) : Kept L s₀ (txAttenWrite p w s) := by
  unfold txAttenWrite; try dsimp only
  repeat' first | with_reducible assumption | with_reducible apply refreshPath_keeps | with_reducible apply applyTxAtten_keeps | with_reducible apply setFld_keeps | split | intro
theorem rxAttenWrite_keeps {p : Nat} {w : Word} (pregs : L .regs = true) (ppaths : L .paths = true) (K : Kept L s₀ s) : Kept L s₀ (rxAttenWrite p w s) := by
  unfold rxAttenWrite; try dsimp only
  repeat' first | with_reducible assumption | with_reducible apply applyRxAtten_keeps | with_reducible apply setFld_keeps | split | intro
theorem trimChanged_keeps {tx : Bool} {p : Nat} (pregs : L .regs = true) (ppaths : L .paths = true) (K : Kept L s₀ s) : Kept L s₀ (trimChanged tx p s) := by
  unfold trimChanged; try dsimp only
  repeat' first | with_reducible assumption | with_reducible apply applyTrim_keeps | split | intro
theorem trimUserWrite_keeps {tx : Bool} {p : Nat} {w : Word} (pregs : L .regs = true) (ppaths : L .paths = true) (K : Kept L s₀ s) : Kept L s₀ (trimUserWrite tx p w s) := by
  unfold trimUserWrite; try dsimp only
  repeat' first | with_reducible assumption | with_reducible apply trimChanged_keeps | with_reducible apply setFld_keeps | split | intro
theorem txMuteWrite_keeps {p : Nat} {mute : Bool} {now : Bool} (pregs : L .regs = true) (ppaths : L .paths = true) (K : Kept L s₀ s) : Kept L s₀ (txMuteWrite p mute now s) := by
  unfold txMuteWrite; try dsimp only
  repeat' first | with_reducible assumption | with_reducible apply refreshPath_keeps | with_reducible apply setFld_keeps | with_reducible apply modPath_keeps | split | intro
theorem clearOcp_keeps {p : Nat} (ppaths : L .paths = true) (K : Kept L s₀ s) : Kept L s₀ (clearOcp p s) := by
  unfold clearOcp; try dsimp only
  repeat' first | with_reducible assumption | with_reducible apply modPath_keeps | split | intro
theorem pthCtrlWrite_keeps {p : Nat} {w : Word} (pregs : L .regs = true) (ppaths : L .paths = true) (K : Kept L s₀ s) : Kept L s₀ (pthCtrlWrite p w s) := by
  unfold pthCtrlWrite; try dsimp only
  repeat' first | with_reducible assumption | with_reducible apply clearOcp_keeps | with_reducible apply txMuteWrite_keeps | with_reducible apply setFld_keeps | split | intro
theorem noticePathFault_keeps {tx : Bool} {p : Nat} (pregs : L .regs = true) (pfhp : L .fhp = true) (K : Kept L s₀ s) : Kept L s₀ (noticePathFault tx p s) := by
  unfold noticePathFault; try dsimp only
  repeat' first | with_reducible assumption | with_reducible apply notice_keeps | with_reducible apply forAll_keeps | split | intro
theorem chainFaultTx_keeps {p : Nat} (pregs : L .regs = true) (pglb : L .glb = true) (ppaths : L .paths = true) (pdpd : L .dpd = true) (pfhp : L .fhp = true) (pacq : L .acq = true) (pdrc : L .drc = true) (pdma : L .dma = true) (prnd : L .rnd = true) (K : Kept L s₀ s) : Kept L s₀ (chainFaultTx p s) := by
  unfold chainFaultTx; try dsimp only
  repeat' first | with_reducible assumption | with_reducible apply noticePathFault_keeps | with_reducible apply clearOcp_keeps | with_reducible apply attemptEnd_keeps | with_reducible apply refreshPath_keeps | with_reducible apply stopStreamsIf_keeps | with_reducible apply pathEvent_keeps | with_reducible apply modPath_keeps | split | intro
theorem chainFaultRx_keeps {p : Nat} (pregs : L .regs = true) (pglb : L .glb = true) (ppaths : L .paths = true) (pdpd : L .dpd = true) (pfhp : L .fhp = true) (pacq : L .acq = true) (pdrc : L .drc = true) (pdma : L .dma = true) (prnd : L .rnd = true) (K : Kept L s₀ s) : Kept L s₀ (chainFaultRx p s) := by
  unfold chainFaultRx; try dsimp only
  repeat' first | with_reducible assumption | with_reducible apply noticePathFault_keeps | with_reducible apply stopStreamsIf_keeps | with_reducible apply pathEvent_keeps | with_reducible apply modPath_keeps | split | intro
theorem faultTx_keeps {p : Nat} (pregs : L .regs = true) (pglb : L .glb = true) (pnvs : L .nvs = true) (ppaths : L .paths = true) (pdpd : L .dpd = true) (pfhp : L .fhp = true) (pacq : L .acq = true) (pdrc : L .drc = true) (pdma : L .dma = true) (prnd : L .rnd = true) (K : Kept L s₀ s) : Kept L s₀ (faultTx p s) := by
  unfold faultTx; try dsimp only
  repeat' first | with_reducible assumption | with_reducible apply chainFaultTx_keeps | with_reducible apply writeReserveMap_keeps | split | intro
theorem faultRx_keeps {p : Nat} (pregs : L .regs = true) (pglb : L .glb = true) (pnvs : L .nvs = true) (ppaths : L .paths = true) (pdpd : L .dpd = true) (pfhp : L .fhp = true) (pacq : L .acq = true) (pdrc : L .drc = true) (pdma : L .dma = true) (prnd : L .rnd = true) (K : Kept L s₀ s) : Kept L s₀ (faultRx p s) := by
  unfold faultRx; try dsimp only
  repeat' first | with_reducible assumption | with_reducible apply chainFaultRx_keeps | with_reducible apply writeReserveMap_keeps | split | intro
theorem faultSoon_keeps {p : Nat} (pregs : L .regs = true) (pglb : L .glb = true) (pnvs : L .nvs = true) (ppaths : L .paths = true) (pdpd : L .dpd = true) (pfhp : L .fhp = true) (pacq : L .acq = true) (pdrc : L .drc = true) (pdma : L .dma = true) (prnd : L .rnd = true) (K : Kept L s₀ s) : Kept L s₀ (faultSoon p s) := by
  unfold faultSoon; try dsimp only
  repeat' first | with_reducible assumption | with_reducible apply faultRx_keeps | with_reducible apply faultTx_keeps | split | intro
theorem modAdc_keeps {p : Nat} {q : Bool} {f : Adc → Adc} (ppaths : L .paths = true) (K : Kept L s₀ s) : Kept L s₀ (modAdc p q f s) := by
  unfold modAdc; try dsimp only
  repeat' first | with_reducible assumption | with_reducible apply modPath_keeps | split | intro
theorem fillBegin_keeps {p : Nat} {q : Bool} {pos : Nat} (pregs : L .regs = true) (pglb : L .glb = true) (ppaths : L .paths = true) (K : Kept L s₀ s) : Kept L s₀ (fillBegin p q pos s) := by
  unfold fillBegin; try dsimp only
  repeat' first | with_reducible assumption | with_reducible apply modAdc_keeps | with_reducible apply pathEvent_keeps | split | intro
theorem adcExhausted_keeps {p : Nat} {q : Bool} {pos : Nat} (pnvs : L .nvs = true) (ppaths : L .paths = true) (K : Kept L s₀ s) : Kept L s₀ (adcExhausted p q pos s) := by
  unfold adcExhausted; try dsimp only
  repeat' first | with_reducible assumption | with_reducible apply modAdc_keeps | with_reducible apply writeReserveMap_keeps | with_reducible apply modPath_keeps | split | intro
theorem adcSwap_keeps {p : Nat} {q : Bool} (pregs : L .regs = true) (pglb : L .glb = true) (pnvs : L .nvs = true) (ppaths : L .paths = true) (K : Kept L s₀ s) : Kept L s₀ (adcSwap p q s) := by
  unfold adcSwap; try dsimp only
  repeat' first | with_reducible assumption | with_reducible apply adcExhausted_keeps | with_reducible apply modAdc_keeps | with_reducible apply engageReserve_keeps | with_reducible apply reserveLow_keeps | with_reducible apply pathEvent_keeps | with_reducible apply forAll_keeps | split | intro
theorem adcSwapSoon_keeps {p : Nat} {q : Bool} (pregs : L .regs = true) (pglb : L .glb = true) (pnvs : L .nvs = true) (ppaths : L .paths = true) (K : Kept L s₀ s) : Kept L s₀ (adcSwapSoon p q s) := by
  unfold adcSwapSoon; try dsimp only
  repeat' first | with_reducible assumption | with_reducible apply adcSwap_keeps | split | intro
theorem failNumber_keeps  (pglb : L .glb = true) (K : Kept L s₀ s) : Kept L s₀ (failNumber s).2 := by
  unfold failNumber; try dsimp only
  repeat' first | with_reducible assumption | (with_reducible exact fun h => h) | exact fun _ => twf_nil | with_reducible apply modGlb_keeps | split | intro
theorem adcWaits_keeps {p : Nat} {q : Bool} {gross : Bool} {pos : Nat} (pglb : L .glb = true) (ppaths : L .paths = true) (K : Kept L s₀ s) : Kept L s₀ (adcWaits p q gross pos s) := by
  unfold adcWaits; try dsimp only
  repeat' first | with_reducible assumption | with_reducible apply failNumber_keeps | with_reducible apply modAdc_keeps | split | (with_reducible refine Kept.pair1 (by assumption) ?_) | (with_reducible refine Kept.pair2 (by assumption) ?_) | intro
theorem adcFailed_keeps {p : Nat} {q : Bool} {gross : Bool} {pos : Nat} (pregs : L .regs = true) (pglb : L .glb = true) (pnvs : L .nvs = true) (ppaths : L .paths = true) (pdpd : L .dpd = true) (pfhp : L .fhp = true) (pacq : L .acq = true) (pdrc : L .drc = true) (pdma : L .dma = true) (prnd : L .rnd = true) (K : Kept L s₀ s) : Kept L s₀ (adcFailed p q gross pos s) := by
  unfold adcFailed; try dsimp only
  repeat' first | with_reducible assumption | with_reducible apply adcWaits_keeps | with_reducible apply adcSwapSoon_keeps | with_reducible apply adcExhausted_keeps | with_reducible apply fillBegin_keeps | with_reducible apply faultSoon_keeps | split | intro
theorem shadowBlock_keeps {p : Nat} {q : Bool} {rms : Nat} (pregs : L .regs = true) (pglb : L .glb = true) (pnvs : L .nvs = true) (ppaths : L .paths = true) (pdpd : L .dpd = true) (pfhp : L .fhp = true) (pacq : L .acq = true) (pdrc : L .drc = true) (pdma : L .dma = true) (prnd : L .rnd = true) (K : Kept L s₀ s) : Kept L s₀ (shadowBlock p q rms s) := by
  unfold shadowBlock; try dsimp only
  repeat' first | with_reducible assumption | with_reducible apply adcFailed_keeps | with_reducible apply modAdc_keeps | split | intro
theorem shadowPass_keeps {p : Nat} {q : Bool} (pregs : L .regs = true) (pglb : L .glb = true) (pnvs : L .nvs = true) (ppaths : L .paths = true) (pdpd : L .dpd = true) (pfhp : L .fhp = true) (pacq : L .acq = true) (pdrc : L .drc = true) (pdma : L .dma = true) (prnd : L .rnd = true) (K : Kept L s₀ s) : Kept L s₀ (shadowPass p q s) := by
  unfold shadowPass; try dsimp only
  repeat' first | with_reducible assumption | with_reducible apply adcSwapSoon_keeps | with_reducible apply modAdc_keeps | with_reducible apply faultSoon_keeps | split | intro
theorem adcEstimate_keeps {p : Nat} {q : Bool} {sub : Nat} {offset : Int} {gain : Int} {skew : Int} (pregs : L .regs = true) (pglb : L .glb = true) (pnvs : L .nvs = true) (ppaths : L .paths = true) (pdpd : L .dpd = true) (pfhp : L .fhp = true) (pacq : L .acq = true) (pdrc : L .drc = true) (pdma : L .dma = true) (prnd : L .rnd = true) (K : Kept L s₀ s) : Kept L s₀ (adcEstimate p q sub offset gain skew s) := by
  unfold adcEstimate; try dsimp only
  repeat' first | with_reducible assumption | with_reducible apply adcFailed_keeps | with_reducible apply modAdc_keeps | split | intro
theorem modDac_keeps {p : Nat} {q : Bool} {f : Dac → Dac} (ppaths : L .paths = true) (K : Kept L s₀ s) : Kept L s₀ (modDac p q f s) := by
  unfold modDac; try dsimp only
  repeat' first | with_reducible assumption | with_reducible apply modPath_keeps | split | intro
theorem txPartFails_keeps {cause : Nat} {p : Nat} (ppaths : L .paths = true) (K : Kept L s₀ s) : Kept L s₀ (txPartFails cause p s) := by
  unfold txPartFails; try dsimp only
  repeat' first | with_reducible assumption | with_reducible apply modPath_keeps | split | intro
theorem dacExhausted_keeps {p : Nat} {q : Bool} (ppaths : L .paths = true) (K : Kept L s₀ s) : Kept L s₀ (dacExhausted p q s) := by
  unfold dacExhausted; try dsimp only
  repeat' first | with_reducible assumption | with_reducible apply txPartFails_keeps | with_reducible apply modDac_keeps | split | intro
theorem dacReplace_keeps {p : Nat} {q : Bool} {seg : Nat} (pregs : L .regs = true) (pglb : L .glb = true) (pnvs : L .nvs = true) (ppaths : L .paths = true) (K : Kept L s₀ s) : Kept L s₀ (dacReplace p q seg s) := by
  unfold dacReplace; try dsimp only
  repeat' first | with_reducible assumption | with_reducible apply dacExhausted_keeps | with_reducible apply modDac_keeps | with_reducible apply engageReserve_keeps | with_reducible apply reserveLow_keeps | with_reducible apply pathEvent_keeps | split | intro
theorem dacSwap_keeps {p : Nat} {q : Bool} (pregs : L .regs = true) (pglb : L .glb = true) (pnvs : L .nvs = true) (ppaths : L .paths = true) (K : Kept L s₀ s) : Kept L s₀ (dacSwap p q s) := by
  unfold dacSwap; try dsimp only
  repeat' first | with_reducible assumption | with_reducible apply dacReplace_keeps | with_reducible apply forAll_keeps | split | intro
theorem segmentMeasured_keeps {p : Nat} {q : Bool} {seg : Nat} {ok : Bool} (pregs : L .regs = true) (pglb : L .glb = true) (pnvs : L .nvs = true) (ppaths : L .paths = true) (pdpd : L .dpd = true) (pfhp : L .fhp = true) (pacq : L .acq = true) (pdrc : L .drc = true) (pdma : L .dma = true) (prnd : L .rnd = true) (K : Kept L s₀ s) : Kept L s₀ (segmentMeasured p q seg ok s) := by
  unfold segmentMeasured; try dsimp only
  repeat' first | with_reducible assumption | with_reducible apply dacSwap_keeps | with_reducible apply modDac_keeps | with_reducible apply failNumber_keeps | with_reducible apply faultSoon_keeps | split | (with_reducible refine Kept.pair1 (by assumption) ?_) | (with_reducible refine Kept.pair2 (by assumption) ?_) | intro
theorem dacBinaryFail_keeps {p : Nat} (pregs : L .regs = true) (pglb : L .glb = true) (pnvs : L .nvs = true) (ppaths : L .paths = true) (pdpd : L .dpd = true) (pfhp : L .fhp = true) (pacq : L .acq = true) (pdrc : L .drc = true) (pdma : L .dma = true) (prnd : L .rnd = true) (K : Kept L s₀ s) : Kept L s₀ (dacBinaryFail p s) := by
  unfold dacBinaryFail; try dsimp only
  repeat' first | with_reducible assumption | with_reducible apply txPartFails_keeps | with_reducible apply faultSoon_keeps | split | intro
theorem ocpTrip_keeps {p : Nat} (pregs : L .regs = true) (pglb : L .glb = true) (pnvs : L .nvs = true) (ppaths : L .paths = true) (pdpd : L .dpd = true) (pfhp : L .fhp = true) (pacq : L .acq = true) (pdrc : L .drc = true) (pdma : L .dma = true) (prnd : L .rnd = true) (K : Kept L s₀ s) : Kept L s₀ (ocpTrip p s) := by
  unfold ocpTrip; try dsimp only
  repeat' first | with_reducible assumption | with_reducible apply faultSoon_keeps | with_reducible apply refreshPath_keeps | with_reducible apply addByte_keeps | with_reducible apply raise_keeps | with_reducible apply modPath_keeps | split | intro
theorem overloadMs_keeps {p : Nat} {i : Nat} {q : Nat} {both : Nat} (pregs : L .regs = true) (ppaths : L .paths = true) (K : Kept L s₀ s) : Kept L s₀ (overloadMs p i q both s) := by
  unfold overloadMs; try dsimp only
  repeat' first | with_reducible assumption | with_reducible apply addLo_keeps | with_reducible apply addHi_keeps | with_reducible apply raise_keeps | with_reducible apply modPath_keeps | split | intro
theorem clearOcpDue_keeps {p : Nat} (ppaths : L .paths = true) (K : Kept L s₀ s) : Kept L s₀ (clearOcpDue p s) := by
  unfold clearOcpDue; try dsimp only
  repeat' first | with_reducible assumption | with_reducible apply clearOcp_keeps | with_reducible apply modPath_keeps | split | intro
theorem convSwaps_keeps {ps : List Nat} (pregs : L .regs = true) (pglb : L .glb = true) (pnvs : L .nvs = true) (ppaths : L .paths = true) (K : Kept L s₀ s) : Kept L s₀ (convSwaps ps s) := by
  unfold convSwaps; try dsimp only
  repeat' first | with_reducible assumption | with_reducible apply dacReplace_keeps | with_reducible apply adcSwap_keeps | with_reducible apply forAll_keeps | split | intro
theorem pathBoundary_keeps {p : Nat} (pregs : L .regs = true) (pglb : L .glb = true) (pnvs : L .nvs = true) (ppaths : L .paths = true) (pdpd : L .dpd = true) (pfhp : L .fhp = true) (pacq : L .acq = true) (pdrc : L .drc = true) (pdma : L .dma = true) (prnd : L .rnd = true) (K : Kept L s₀ s) : Kept L s₀ (pathBoundary p s) := by
  unfold pathBoundary; try dsimp only
  repeat' first | with_reducible assumption | with_reducible apply clearOcpDue_keeps | with_reducible apply faultRx_keeps | with_reducible apply faultTx_keeps | with_reducible apply applyTrim_keeps | with_reducible apply applyRxAtten_keeps | with_reducible apply applyTxAtten_keeps | with_reducible apply modPath_keeps | split | intro
theorem pathFromMap_keeps {b : List Byte} {p : Nat} (ppaths : L .paths = true) (K : Kept L s₀ s) : Kept L s₀ (pathFromMap b p s) := by
  unfold pathFromMap; try dsimp only
  repeat' first | with_reducible assumption | with_reducible apply modPath_keeps | split | intro
theorem persistFaults_keeps {p : Nat} (ppaths : L .paths = true) (K : Kept L s₀ s) : Kept L s₀ (persistFaults p s) := by
  unfold persistFaults; try dsimp only
  repeat' first | with_reducible assumption | with_reducible apply modPath_keeps | split | intro
theorem adcSelfTestFail_keeps {p : Nat} {q : Bool} {sub : Nat} (pregs : L .regs = true) (pglb : L .glb = true) (pnvs : L .nvs = true) (ppaths : L .paths = true) (K : Kept L s₀ s) : Kept L s₀ (adcSelfTestFail p q sub s) := by
  unfold adcSelfTestFail; try dsimp only
  repeat' first | with_reducible assumption | with_reducible apply modAdc_keeps | with_reducible apply engageReserve_keeps | with_reducible apply writeReserveMap_keeps | with_reducible apply reserveLow_keeps | split | intro

/-! ### Machine/NvsRec.lean -/

theorem recStatus_keeps {outcome : Nat} {code : Nat} (pregs : L .regs = true) (K : Kept L s₀ s) : Kept L s₀ (recStatus outcome code s) := by
  unfold recStatus; try dsimp only
  repeat' first | with_reducible assumption | with_reducible apply raise_keeps | with_reducible apply setReg_keeps | split | intro
theorem recEnd_keeps {outcome : Nat} {code : Nat} (pregs : L .regs = true) (pnvs : L .nvs = true) (K : Kept L s₀ s) : Kept L s₀ (recEnd outcome code s) := by
  unfold recEnd; try dsimp only
  repeat' first | with_reducible assumption | (with_reducible exact fun h => h) | exact fun _ => twf_nil | with_reducible apply recStatus_keeps | with_reducible apply modNvs_keeps | split | intro
theorem recWrite_keeps {type : Nat} (pregs : L .regs = true) (pnvs : L .nvs = true) (K : Kept L s₀ s) : Kept L s₀ (recWrite type s) := by
  unfold recWrite; try dsimp only
  repeat' first | with_reducible assumption | (with_reducible exact fun h => h) | exact fun _ => twf_nil | with_reducible apply recEnd_keeps | with_reducible apply recStatus_keeps | with_reducible apply queueWrite_keeps | with_reducible apply modNvs_keeps | split | intro
theorem recData_keeps {w : Word} (pregs : L .regs = true) (pglb : L .glb = true) (pnvs : L .nvs = true) (K : Kept L s₀ s) : Kept L s₀ (recData w s) := by
  unfold recData; try dsimp only
  repeat' first | with_reducible assumption | (with_reducible exact fun h => h) | exact fun _ => twf_nil | with_reducible apply refusedWrite_keeps | with_reducible apply modNvs_keeps | split | intro
theorem recClear_keeps  (pnvs : L .nvs = true) (K : Kept L s₀ s) : Kept L s₀ (recClear s) := by
  unfold recClear; try dsimp only
  repeat' first | with_reducible assumption | (with_reducible exact fun h => h) | exact fun _ => twf_nil | with_reducible apply modNvs_keeps | split | intro
theorem recCtrlWrite_keeps {w : Word} (pregs : L .regs = true) (pnvs : L .nvs = true) (K : Kept L s₀ s) : Kept L s₀ (recCtrlWrite w s) := by
  unfold recCtrlWrite; try dsimp only
  repeat' first | with_reducible assumption | with_reducible apply recClear_keeps | with_reducible apply recWrite_keeps | split | intro
theorem nvsAdvance_keeps  (pregs : L .regs = true) (K : Kept L s₀ s) : Kept L s₀ (nvsAdvance s) := by
  unfold nvsAdvance; try dsimp only
  repeat' first | with_reducible assumption | with_reducible apply setReg_keeps | split | intro
theorem nvsDataWrite_keeps {w : Word} {fails : Option Nat} (pregs : L .regs = true) (pglb : L .glb = true) (pnvs : L .nvs = true) (K : Kept L s₀ s) : Kept L s₀ (nvsDataWrite w fails s) := by
  unfold nvsDataWrite; try dsimp only
  repeat' first | with_reducible assumption | with_reducible apply nvsAdvance_keeps | with_reducible apply rowFail_keeps | with_reducible apply storePut_keeps | with_reducible apply refusedWrite_keeps | split | (with_reducible refine Kept.pair1 (by assumption) ?_) | (with_reducible refine Kept.pair2 (by assumption) ?_) | intro
theorem powerFailWarning_keeps {vsen : Bool} {remaining : Nat} (pregs : L .regs = true) (pnvs : L .nvs = true) (K : Kept L s₀ s) : Kept L s₀ (powerFailWarning vsen remaining s) := by
  unfold powerFailWarning; try dsimp only
  repeat' first | with_reducible assumption | (with_reducible exact fun h => h) | exact fun _ => twf_nil | with_reducible apply tornWrite_keeps | with_reducible apply raise_keeps | with_reducible apply modNvs_keeps | split | intro

end Sys2Proof.Machine
end

