-- ==== Sys2Proof/Laws/KeepRadio.lean ====
section
/-!
SUPPORT. What the operations of the device keep, file by file: Rad, Rffe, Licence, Cal, FhMsg, Admit, Signal, Fhp, Tim, Syn, Lne.
-/

set_option linter.all false
set_option Elab.async false

namespace Sys2Proof.Machine

variable {L : Part → Bool} {s₀ s : State}

/-! ### Machine/Rad.lean -/

theorem syncPState_keeps  (ppstate : L .pstate = true) (K : Kept L s₀ s) : Kept L s₀ (syncPState s) := by
  unfold syncPState; try dsimp only
  repeat' first | with_reducible assumption | with_reducible apply modPState_keeps | split | intro
theorem enterGroup_keeps {g : Nat} {st : GState} (ppstate : L .pstate = true) (prad : L .rad = true) (K : Kept L s₀ s) : Kept L s₀ (enterGroup g st s) := by
  unfold enterGroup; try dsimp only
  repeat' first | with_reducible assumption | with_reducible apply syncPState_keeps | with_reducible apply modGroup_keeps | with_reducible apply modRad_keeps | split | intro
theorem leaveOff_keeps {g : Nat} {st : GState} {now : Nat} (prad : L .rad = true) (K : Kept L s₀ s) : Kept L s₀ (leaveOff g st now s) := by
  unfold leaveOff; try dsimp only
  repeat' first | with_reducible assumption | with_reducible apply modGroup_keeps | split | intro
theorem goTo_keeps {g : Nat} {st : GState} (ppstate : L .pstate = true) (prad : L .rad = true) (K : Kept L s₀ s) : Kept L s₀ (goTo g st s) := by
  unfold goTo; try dsimp only
  repeat' first | with_reducible assumption | with_reducible apply leaveOff_keeps | with_reducible apply enterGroup_keeps | with_reducible apply modGroup_keeps | split | intro
theorem transitionDone_keeps {g : Nat} (ppstate : L .pstate = true) (prad : L .rad = true) (K : Kept L s₀ s) : Kept L s₀ (transitionDone g s) := by
  unfold transitionDone; try dsimp only
  repeat' first | with_reducible assumption | with_reducible apply enterGroup_keeps | with_reducible apply modGroup_keeps | split | intro
theorem hostBurstReport_keeps {r : BurstReport} (pregs : L .regs = true) (prad : L .rad = true) (K : Kept L s₀ s) : Kept L s₀ (hostBurstReport r s) := by
  unfold hostBurstReport; try dsimp only
  repeat' first | with_reducible assumption | with_reducible apply addLo_keeps | with_reducible apply raise_keeps | with_reducible apply modRad_keeps | split | intro
theorem flockBurstReport_keeps {k : Nat} {port : Nat} {tag : Nat} {outcome : Nat} {code : Nat} {tx : Bool} {g : Nat} {start : Nat} (pregs : L .regs = true) (pfhp : L .fhp = true) (K : Kept L s₀ s) : Kept L s₀ (flockBurstReport k port tag outcome code tx g start s) := by
  unfold flockBurstReport; try dsimp only
  repeat' first | with_reducible assumption | with_reducible apply post_keeps | split | intro
theorem burstReport_keeps {g : Nat} {b : Burst} {outcome : Nat} {code : Nat} (pregs : L .regs = true) (pglb : L .glb = true) (prad : L .rad = true) (pfhp : L .fhp = true) (pcas : L .cas = true) (K : Kept L s₀ s) : Kept L s₀ (burstReport g b outcome code s) := by
  unfold burstReport; try dsimp only
  repeat' first | with_reducible assumption | with_reducible apply flockBurstReport_keeps | with_reducible apply hostBurstReport_keeps | with_reducible apply reportUp_keeps | with_reducible apply event_keeps | with_reducible apply addLo_keeps | with_reducible apply addHi_keeps | split | intro
theorem modBurst_keeps {g : Nat} {seq : Nat} {f : Burst → Burst} (prad : L .rad = true) (K : Kept L s₀ s) : Kept L s₀ (modBurst g seq f s) := by
  unfold modBurst; try dsimp only
  repeat' first | with_reducible assumption | with_reducible apply modGroup_keeps | split | intro
theorem removeBurst_keeps {g : Nat} {seq : Nat} (prad : L .rad = true) (K : Kept L s₀ s) : Kept L s₀ (removeBurst g seq s) := by
  unfold removeBurst; try dsimp only
  repeat' first | with_reducible assumption | with_reducible apply modGroup_keeps | split | intro
theorem settle_keeps {g : Nat} (ppstate : L .pstate = true) (prad : L .rad = true) (K : Kept L s₀ s) : Kept L s₀ (settle g s) := by
  unfold settle; try dsimp only
  repeat' first | with_reducible assumption | with_reducible apply goTo_keeps | split | intro
theorem afterBurst_keeps {g : Nat} {b : Burst} (ppstate : L .pstate = true) (prad : L .rad = true) (K : Kept L s₀ s) : Kept L s₀ (afterBurst g b s) := by
  unfold afterBurst; try dsimp only
  repeat' first | with_reducible assumption | with_reducible apply settle_keeps | with_reducible apply goTo_keeps | with_reducible apply enterGroup_keeps | with_reducible apply modGroup_keeps | split | intro
theorem burstOut_keeps {g : Nat} {b : Burst} {code : Nat} (pregs : L .regs = true) (pglb : L .glb = true) (ppstate : L .pstate = true) (prad : L .rad = true) (pfhp : L .fhp = true) (pcas : L .cas = true) (K : Kept L s₀ s) : Kept L s₀ (burstOut g b code s) := by
  unfold burstOut; try dsimp only
  repeat' first | with_reducible assumption | with_reducible apply afterBurst_keeps | with_reducible apply settle_keeps | with_reducible apply removeBurst_keeps | with_reducible apply burstReport_keeps | with_reducible apply modGroup_keeps | split | intro
theorem burstsOut_keeps {g : Nat} {code : Nat} {p : Burst → Bool} (pregs : L .regs = true) (pglb : L .glb = true) (ppstate : L .pstate = true) (prad : L .rad = true) (pfhp : L .fhp = true) (pcas : L .cas = true) (K : Kept L s₀ s) : Kept L s₀ (burstsOut g code p s) := by
  unfold burstsOut; try dsimp only
  repeat' first | with_reducible assumption | with_reducible apply burstOut_keeps | with_reducible apply forAll_keeps | split | intro
theorem allBurstsOut_keeps {code : Nat} {p : Burst → Bool} (pregs : L .regs = true) (pglb : L .glb = true) (ppstate : L .pstate = true) (prad : L .rad = true) (pfhp : L .fhp = true) (pcas : L .cas = true) (K : Kept L s₀ s) : Kept L s₀ (allBurstsOut code p s) := by
  unfold allBurstsOut; try dsimp only
  repeat' first | with_reducible assumption | with_reducible apply burstsOut_keeps | with_reducible apply forAll_keeps | split | intro
theorem timeLost_keeps  (pregs : L .regs = true) (pglb : L .glb = true) (ppstate : L .pstate = true) (prad : L .rad = true) (pfhp : L .fhp = true) (pcas : L .cas = true) (K : Kept L s₀ s) : Kept L s₀ (timeLost s) := by
  unfold timeLost; try dsimp only
  repeat' first | with_reducible assumption | with_reducible apply allBurstsOut_keeps | split | intro
theorem cutLost_keeps {r : Nat} (pregs : L .regs = true) (pglb : L .glb = true) (prad : L .rad = true) (pfhp : L .fhp = true) (pcas : L .cas = true) (K : Kept L s₀ s) : Kept L s₀ (cutLost r s) := by
  unfold cutLost; try dsimp only
  repeat' first | with_reducible assumption | with_reducible apply modBurst_keeps | with_reducible apply burstReport_keeps | with_reducible apply forAll_keeps | split | intro
theorem groupCommand_keeps {g : Nat} {st : GState} (pregs : L .regs = true) (pglb : L .glb = true) (ppstate : L .pstate = true) (prad : L .rad = true) (pfhp : L .fhp = true) (pcas : L .cas = true) (K : Kept L s₀ s) : Kept L s₀ (groupCommand g st s) := by
  unfold groupCommand; try dsimp only
  repeat' first | with_reducible assumption | with_reducible apply burstsOut_keeps | with_reducible apply goTo_keeps | with_reducible apply modGroup_keeps | split | intro
theorem groupResult_keeps {code : Nat} (pregs : L .regs = true) (K : Kept L s₀ s) : Kept L s₀ (groupResult code s) := by
  unfold groupResult; try dsimp only
  repeat' first | with_reducible assumption | with_reducible apply setReg_keeps | split | intro
theorem groupCmdWrite_keeps {w : Word} (pregs : L .regs = true) (pglb : L .glb = true) (ppstate : L .pstate = true) (prad : L .rad = true) (pfhp : L .fhp = true) (pcas : L .cas = true) (K : Kept L s₀ s) : Kept L s₀ (groupCmdWrite w s) := by
  unfold groupCmdWrite; try dsimp only
  repeat' first | with_reducible assumption | with_reducible apply groupResult_keeps | with_reducible apply groupCommand_keeps | with_reducible apply modCas_keeps | split | intro
theorem dutyHit_keeps  (pregs : L .regs = true) (prad : L .rad = true) (K : Kept L s₀ s) : Kept L s₀ (dutyHit s) := by
  unfold dutyHit; try dsimp only
  repeat' first | with_reducible assumption | with_reducible apply raise_keeps | with_reducible apply modRad_keeps | split | intro
theorem burstRefused_keeps {s0 : State} {g : Nat} {start : Nat} {ticks : Nat} {code : Nat} (pregs : L .regs = true) (prad : L .rad = true) (K : Kept L s₀ s) : Kept L s₀ (burstRefused s0 g start ticks code s) := by
  unfold burstRefused; try dsimp only
  repeat' first | with_reducible assumption | with_reducible apply dutyHit_keeps | with_reducible apply addHi_keeps | split | intro
theorem conflictAfter_keeps {g : Nat} {k : Nat} {b : Burst} (pregs : L .regs = true) (prad : L .rad = true) (pfhp : L .fhp = true) (K : Kept L s₀ s) : Kept L s₀ (conflictAfter g k b s) := by
  unfold conflictAfter; try dsimp only
  repeat' first | with_reducible assumption | with_reducible apply removeBurst_keeps | with_reducible apply flockBurstReport_keeps | with_reducible apply modFlock_keeps | split | intro
theorem hostClears_keeps {g : Nat} {start : Nat} {b : Burst} (pregs : L .regs = true) (pglb : L .glb = true) (ppstate : L .pstate = true) (prad : L .rad = true) (pfhp : L .fhp = true) (pcas : L .cas = true) (K : Kept L s₀ s) : Kept L s₀ (hostClears g start b s) := by
  unfold hostClears; try dsimp only
  repeat' first | with_reducible assumption | with_reducible apply conflictAfter_keeps | with_reducible apply burstOut_keeps | with_reducible apply modBurst_keeps | split | intro
theorem burstAccept_keeps {who : Requester} {port : Nat} {tag : Nat} {g : Nat} {tx : Bool} {start : Nat} {ticks : Nat} {ret : GState} (pregs : L .regs = true) (pglb : L .glb = true) (ppstate : L .pstate = true) (prad : L .rad = true) (pfhp : L .fhp = true) (pcas : L .cas = true) (K : Kept L s₀ s) : Kept L s₀ (burstAccept who port tag g tx start ticks ret s) := by
  unfold burstAccept; try dsimp only
  repeat' first | with_reducible assumption | with_reducible apply hostClears_keeps | with_reducible apply modGroup_keeps | with_reducible apply modRad_keeps | with_reducible apply forAll_keeps | split | intro
theorem relayBurst_keeps {tag : Nat} {g : Nat} {tx : Bool} {start : Nat} {ticks : Nat} {ret : Nat} (pcas : L .cas = true) (K : Kept L s₀ s) : Kept L s₀ (relayBurst tag g tx start ticks ret s) := by
  unfold relayBurst; try dsimp only
  repeat' first | with_reducible assumption | with_reducible apply relayControl_keeps | split | intro
theorem burstCtrlWrite_keeps {w : Word} (pregs : L .regs = true) (pglb : L .glb = true) (ppstate : L .pstate = true) (prad : L .rad = true) (pfhp : L .fhp = true) (pcas : L .cas = true) (K : Kept L s₀ s) : Kept L s₀ (burstCtrlWrite w s) := by
  unfold burstCtrlWrite; try dsimp only
  repeat' first | with_reducible assumption | with_reducible apply relayBurst_keeps | with_reducible apply burstAccept_keeps | with_reducible apply burstRefused_keeps | with_reducible apply raise_keeps | with_reducible apply setReg_keeps | with_reducible apply modRad_keeps | split | intro
theorem flockBurst_keeps {k : Nat} {port : Nat} {tag : Nat} {b : List Byte} (pregs : L .regs = true) (pglb : L .glb = true) (ppstate : L .pstate = true) (prad : L .rad = true) (pfhp : L .fhp = true) (pcas : L .cas = true) (K : Kept L s₀ s) : Kept L s₀ (flockBurst k port tag b s) := by
  unfold flockBurst; try dsimp only
  repeat' first | with_reducible assumption | with_reducible apply relayBurst_keeps | with_reducible apply burstAccept_keeps | with_reducible apply burstRefused_keeps | with_reducible apply flockBurstReport_keeps | split | intro
theorem controlBurst_keeps {tag : Nat} {b : List Byte} (pregs : L .regs = true) (pglb : L .glb = true) (ppstate : L .pstate = true) (prad : L .rad = true) (pfhp : L .fhp = true) (pcas : L .cas = true) (K : Kept L s₀ s) : Kept L s₀ (controlBurst tag b s) := by
  unfold controlBurst; try dsimp only
  repeat' first | with_reducible assumption | with_reducible apply burstAccept_keeps | split | intro
theorem burstPrepare_keeps {g : Nat} (ppstate : L .pstate = true) (prad : L .rad = true) (K : Kept L s₀ s) : Kept L s₀ (burstPrepare g s) := by
  unfold burstPrepare; try dsimp only
  repeat' first | with_reducible assumption | with_reducible apply modBurst_keeps | with_reducible apply enterGroup_keeps | with_reducible apply modGroup_keeps | split | intro
theorem flockStarted_keeps {b : Burst} (pregs : L .regs = true) (pacq : L .acq = true) (K : Kept L s₀ s) : Kept L s₀ (flockStarted b s) := by
  unfold flockStarted; try dsimp only
  repeat' first | with_reducible assumption | with_reducible apply flockEvent_keeps | split | intro
theorem burstStart_keeps {g : Nat} (pregs : L .regs = true) (pglb : L .glb = true) (ppstate : L .pstate = true) (prad : L .rad = true) (pfhp : L .fhp = true) (pcas : L .cas = true) (pacq : L .acq = true) (K : Kept L s₀ s) : Kept L s₀ (burstStart g s) := by
  unfold burstStart; try dsimp only
  repeat' first | with_reducible assumption | with_reducible apply flockStarted_keeps | with_reducible apply dutyHit_keeps | with_reducible apply burstOut_keeps | with_reducible apply modBurst_keeps | with_reducible apply burstReport_keeps | with_reducible apply enterGroup_keeps | with_reducible apply raise_keeps | with_reducible apply modGroup_keeps | split | intro
theorem burstEnd_keeps {g : Nat} (pregs : L .regs = true) (pglb : L .glb = true) (ppstate : L .pstate = true) (prad : L .rad = true) (pfhp : L .fhp = true) (pcas : L .cas = true) (K : Kept L s₀ s) : Kept L s₀ (burstEnd g s) := by
  unfold burstEnd; try dsimp only
  repeat' first | with_reducible assumption | with_reducible apply burstOut_keeps | split | intro
theorem uncarriedOut_keeps  (pregs : L .regs = true) (pglb : L .glb = true) (ppstate : L .pstate = true) (prad : L .rad = true) (pfhp : L .fhp = true) (pcas : L .cas = true) (K : Kept L s₀ s) : Kept L s₀ (uncarriedOut s) := by
  unfold uncarriedOut; try dsimp only
  repeat' first | with_reducible assumption | with_reducible apply burstsOut_keeps | with_reducible apply forAll_keeps | split | intro
theorem lineCfgWrite_keeps {f : Nat} {n : Nat} {w : Word} (pregs : L .regs = true) (K : Kept L s₀ s) : Kept L s₀ (lineCfgWrite f n w s) := by
  unfold lineCfgWrite; try dsimp only
  repeat' first | with_reducible assumption | with_reducible apply setReg_keeps | split | intro
theorem lineBoundary_keeps {g : Nat} (prad : L .rad = true) (K : Kept L s₀ s) : Kept L s₀ (lineBoundary g s) := by
  unfold lineBoundary; try dsimp only
  repeat' first | with_reducible assumption | with_reducible apply modRad_keeps | with_reducible apply forAll_keeps | split | intro
theorem lineTickFold_keeps {f : Nat} (pregs : L .regs = true) (prad : L .rad = true) (K : Kept L s₀ s) : Kept L s₀ (lineTickFold f s) := by
  unfold lineTickFold; try dsimp only
  repeat' first | with_reducible assumption | with_reducible apply addLo_keeps | with_reducible apply raise_keeps | with_reducible apply modRad_keeps | split | intro
theorem lineTick_keeps  (pregs : L .regs = true) (prad : L .rad = true) (K : Kept L s₀ s) : Kept L s₀ (lineTick s) := by
  unfold lineTick; try dsimp only
  repeat' first | with_reducible assumption | with_reducible apply lineTickFold_keeps | with_reducible apply forAll_keeps | split | intro

/-! ### Machine/Rffe.lean -/

theorem modRffe_keeps {f : Nat} {g : Rffe → Rffe} (prad : L .rad = true) (K : Kept L s₀ s) : Kept L s₀ (modRffe f g s) := by
  unfold modRffe; try dsimp only
  repeat' first | with_reducible assumption | with_reducible apply modRad_keeps | split | intro
theorem rffeOutcome_keeps {f : Nat} {code : Nat} (pregs : L .regs = true) (K : Kept L s₀ s) : Kept L s₀ (rffeOutcome f code s) := by
  unfold rffeOutcome; try dsimp only
  repeat' first | with_reducible assumption | with_reducible apply setReg_keeps | split | intro
theorem rffeSend_keeps {f : Nat} {c : RffeCmd} (pregs : L .regs = true) (prad : L .rad = true) (K : Kept L s₀ s) : Kept L s₀ (rffeSend f c s) := by
  unfold rffeSend; try dsimp only
  repeat' first | with_reducible assumption | with_reducible apply modRffe_keeps | with_reducible apply setFld_keeps | split | intro
theorem rffeNext_keeps {f : Nat} (pregs : L .regs = true) (prad : L .rad = true) (K : Kept L s₀ s) : Kept L s₀ (rffeNext f s) := by
  unfold rffeNext; try dsimp only
  repeat' first | with_reducible assumption | with_reducible apply rffeSend_keeps | with_reducible apply modRffe_keeps | split | intro
theorem rffeImmediate_keeps {f : Nat} {w : Word} (pregs : L .regs = true) (prad : L .rad = true) (K : Kept L s₀ s) : Kept L s₀ (rffeImmediate f w s) := by
  unfold rffeImmediate; try dsimp only
  repeat' first | with_reducible assumption | with_reducible apply rffeNext_keeps | with_reducible apply rffeOutcome_keeps | with_reducible apply modRffe_keeps | split | intro
theorem rffeTimed_keeps {f : Nat} {w : Word} (pregs : L .regs = true) (prad : L .rad = true) (K : Kept L s₀ s) : Kept L s₀ (rffeTimed f w s) := by
  unfold rffeTimed; try dsimp only
  repeat' first | with_reducible assumption | with_reducible apply rffeOutcome_keeps | with_reducible apply modRffe_keeps | split | intro
theorem rffeCmdWrite_keeps {f : Nat} {w : Word} (pregs : L .regs = true) (prad : L .rad = true) (K : Kept L s₀ s) : Kept L s₀ (rffeCmdWrite f w s) := by
  unfold rffeCmdWrite; try dsimp only
  repeat' first | with_reducible assumption | with_reducible apply rffeTimed_keeps | with_reducible apply rffeImmediate_keeps | split | intro
theorem rffeDue_keeps {f : Nat} (pregs : L .regs = true) (prad : L .rad = true) (K : Kept L s₀ s) : Kept L s₀ (rffeDue f s) := by
  unfold rffeDue; try dsimp only
  repeat' first | with_reducible assumption | with_reducible apply rffeSend_keeps | with_reducible apply modRffe_keeps | with_reducible apply addHi_keeps | with_reducible apply raise_keeps | split | intro
theorem rffeDone_keeps {f : Nat} {data : Word} {parity : Bool} (pregs : L .regs = true) (prad : L .rad = true) (K : Kept L s₀ s) : Kept L s₀ (rffeDone f data parity s) := by
  unfold rffeDone; try dsimp only
  repeat' first | with_reducible assumption | with_reducible apply rffeNext_keeps | with_reducible apply modRffe_keeps | with_reducible apply addLo_keeps | with_reducible apply raise_keeps | with_reducible apply setFld_keeps | with_reducible apply setReg_keeps | split | intro

/-! ### Machine/Licence.lean -/

theorem pastureForce_keeps {r : Option Pasture} (pregs : L .regs = true) (ppaths : L .paths = true) (prad : L .rad = true) (K : Kept L s₀ s) : Kept L s₀ (pastureForce r s) := by
  unfold pastureForce; try dsimp only
  repeat' first | with_reducible assumption | with_reducible apply refreshMutes_keeps | with_reducible apply recheckRange_keeps | with_reducible apply modRad_keeps | split | intro
theorem pastDraw_keeps  (pnvs : L .nvs = true) (prnd : L .rnd = true) (K : Kept L s₀ s) : Kept L s₀ (pastDraw s) := by
  unfold pastDraw; try dsimp only
  repeat' first | with_reducible assumption | (with_reducible exact fun h => h) | exact fun _ => twf_nil | with_reducible apply draw_keeps | with_reducible apply modNvs_keeps | split | (with_reducible refine Kept.pair1 (by assumption) ?_) | (with_reducible refine Kept.pair2 (by assumption) ?_) | intro
theorem pastStatus_keeps {outcome : Nat} {code : Nat} (pregs : L .regs = true) (K : Kept L s₀ s) : Kept L s₀ (pastStatus outcome code s) := by
  unfold pastStatus; try dsimp only
  repeat' first | with_reducible assumption | with_reducible apply raise_keeps | with_reducible apply setReg_keeps | split | intro
theorem pastEnd_keeps {outcome : Nat} {code : Nat} (pregs : L .regs = true) (pnvs : L .nvs = true) (K : Kept L s₀ s) : Kept L s₀ (pastEnd outcome code s) := by
  unfold pastEnd; try dsimp only
  repeat' first | with_reducible assumption | (with_reducible exact fun h => h) | exact fun _ => twf_nil | with_reducible apply pastStatus_keeps | with_reducible apply modNvs_keeps | split | intro
theorem pastWrite_keeps  (pregs : L .regs = true) (pnvs : L .nvs = true) (prnd : L .rnd = true) (K : Kept L s₀ s) : Kept L s₀ (pastWrite s) := by
  unfold pastWrite; try dsimp only
  repeat' first | with_reducible assumption | (with_reducible exact fun h => h) | exact fun _ => twf_nil | with_reducible apply pastEnd_keeps | with_reducible apply pastStatus_keeps | with_reducible apply pastDraw_keeps | with_reducible apply queueWrite_keeps | with_reducible apply modNvs_keeps | split | intro
theorem pastClear_keeps  (pnvs : L .nvs = true) (K : Kept L s₀ s) : Kept L s₀ (pastClear s) := by
  unfold pastClear; try dsimp only
  repeat' first | with_reducible assumption | (with_reducible exact fun h => h) | exact fun _ => twf_nil | with_reducible apply modNvs_keeps | split | intro
theorem pastCtrlWrite_keeps {w : Word} (pregs : L .regs = true) (pnvs : L .nvs = true) (prnd : L .rnd = true) (K : Kept L s₀ s) : Kept L s₀ (pastCtrlWrite w s) := by
  unfold pastCtrlWrite; try dsimp only
  repeat' first | with_reducible assumption | with_reducible apply pastClear_keeps | with_reducible apply pastWrite_keeps | split | intro
theorem pastData_keeps {w : Word} (pregs : L .regs = true) (pglb : L .glb = true) (pnvs : L .nvs = true) (K : Kept L s₀ s) : Kept L s₀ (pastData w s) := by
  unfold pastData; try dsimp only
  repeat' first | with_reducible assumption | (with_reducible exact fun h => h) | exact fun _ => twf_nil | with_reducible apply refusedWrite_keeps | with_reducible apply modNvs_keeps | split | intro
theorem pathWindow_keeps {r : Pasture} {p : Nat} {level : Int} (pregs : L .regs = true) (ppaths : L .paths = true) (K : Kept L s₀ s) : Kept L s₀ (pathWindow r p level s) := by
  unfold pathWindow; try dsimp only
  repeat' first | with_reducible assumption | with_reducible apply refreshPath_keeps | with_reducible apply raise_keeps | with_reducible apply modPath_keeps | split | intro
theorem powerWindow_keeps {levels : List (Option Int)} (pregs : L .regs = true) (ppaths : L .paths = true) (prad : L .rad = true) (K : Kept L s₀ s) : Kept L s₀ (powerWindow levels s) := by
  unfold powerWindow; try dsimp only
  repeat' first | with_reducible assumption | with_reducible apply pathWindow_keeps | with_reducible apply refreshMutes_keeps | with_reducible apply raise_keeps | with_reducible apply modRad_keeps | with_reducible apply forAll_keeps | split | intro
theorem attenRelax_keeps {p : Option Nat} (ppaths : L .paths = true) (prad : L .rad = true) (K : Kept L s₀ s) : Kept L s₀ (attenRelax p s) := by
  unfold attenRelax; try dsimp only
  repeat' first | with_reducible assumption | with_reducible apply modRad_keeps | with_reducible apply modPath_keeps | split | intro

/-! ### Machine/Cal.lean -/

theorem calOutcome_keeps {id : Nat} {tx : Bool} {p : Nat} {outcome : Nat} {code : Nat} (pregs : L .regs = true) (pglb : L .glb = true) (K : Kept L s₀ s) : Kept L s₀ (calOutcome id tx p outcome code s) := by
  unfold calOutcome; try dsimp only
  repeat' first | with_reducible assumption | with_reducible apply event_keeps | with_reducible apply setFld_keeps | split | intro
theorem calChanged_keeps {p : Nat} (pnvs : L .nvs = true) (K : Kept L s₀ s) : Kept L s₀ (calChanged p s) := by
  unfold calChanged; try dsimp only
  repeat' first | with_reducible assumption | (with_reducible exact fun h => h) | exact fun _ => twf_nil | with_reducible apply modNvs_keeps | split | intro
theorem calKeep_keeps {id : Nat} {k : CalMeas} (pregs : L .regs = true) (pnvs : L .nvs = true) (ppaths : L .paths = true) (K : Kept L s₀ s) : Kept L s₀ (calKeep id k s) := by
  unfold calKeep; try dsimp only
  repeat' first | with_reducible assumption | with_reducible apply calChanged_keeps | with_reducible apply setReg_keeps | with_reducible apply modPath_keeps | split | intro
theorem calOne_keeps {id : Nat} {m : Nat} {k : CalMeas} (pregs : L .regs = true) (pglb : L .glb = true) (pnvs : L .nvs = true) (ppaths : L .paths = true) (K : Kept L s₀ s) : Kept L s₀ (calOne id m k s) := by
  unfold calOne; try dsimp only
  repeat' first | with_reducible assumption | with_reducible apply calKeep_keeps | with_reducible apply calOutcome_keeps | split | intro
theorem arrayKeep_keeps {tx : Bool} {max2 : Nat} {k : CalMeas} (pregs : L .regs = true) (pglb : L .glb = true) (pnvs : L .nvs = true) (ppaths : L .paths = true) (K : Kept L s₀ s) : Kept L s₀ (arrayKeep tx max2 k s) := by
  unfold arrayKeep; try dsimp only
  repeat' first | with_reducible assumption | with_reducible apply calChanged_keeps | with_reducible apply calOutcome_keeps | with_reducible apply trimChanged_keeps | with_reducible apply setFld_keeps | with_reducible apply setReg_keeps | with_reducible apply modPath_keeps | split | intro
theorem arrayDirection_keeps {m : Nat} {tx : Bool} {all : List CalMeas} (pregs : L .regs = true) (pglb : L .glb = true) (pnvs : L .nvs = true) (ppaths : L .paths = true) (K : Kept L s₀ s) : Kept L s₀ (arrayDirection m tx all s) := by
  unfold arrayDirection; try dsimp only
  repeat' first | with_reducible assumption | with_reducible apply arrayKeep_keeps | with_reducible apply calOutcome_keeps | with_reducible apply forAll_keeps | with_reducible apply foldl_keeps | split | intro
theorem calApply_keeps {id : Nat} {m : Nat} {ms : List CalMeas} (pregs : L .regs = true) (pglb : L .glb = true) (pnvs : L .nvs = true) (ppaths : L .paths = true) (K : Kept L s₀ s) : Kept L s₀ (calApply id m ms s) := by
  unfold calApply; try dsimp only
  repeat' first | with_reducible assumption | (with_reducible exact fun h => h) | exact fun h => twf_mwrite _ _ h | exact fun h => twf_tset _ _ h | exact fun h => twfFrom_filter _ h | exact fun h => twf_windowWrite _ _ h | exact fun _ => twf_nil | with_reducible apply arrayDirection_keeps | with_reducible apply calOne_keeps | with_reducible apply modNvs_keeps | with_reducible apply forAll_keeps | split | intro
theorem flushChanged_keeps  (pnvs : L .nvs = true) (ppaths : L .paths = true) (K : Kept L s₀ s) : Kept L s₀ (flushChanged s) := by
  unfold flushChanged; try dsimp only
  repeat' first | with_reducible assumption | (with_reducible exact fun h => h) | exact fun h => twf_mwrite _ _ h | exact fun h => twf_tset _ _ h | exact fun h => twfFrom_filter _ h | exact fun h => twf_windowWrite _ _ h | exact fun _ => twf_nil | with_reducible apply queueWrite_keeps | with_reducible apply modPath_keeps | with_reducible apply modNvs_keeps | with_reducible apply forAll_keeps | split | intro
theorem seedPath_keeps {p : Nat} (pregs : L .regs = true) (ppaths : L .paths = true) (K : Kept L s₀ s) : Kept L s₀ (seedPath p s) := by
  unfold seedPath; try dsimp only
  repeat' first | with_reducible assumption | with_reducible apply trimChanged_keeps | with_reducible apply setFld_keeps | with_reducible apply setReg_keeps | with_reducible apply modPath_keeps | split | intro
theorem calBookAt_keeps {from_ : Nat} {r : CalReq} (pnvs : L .nvs = true) (prad : L .rad = true) (K : Kept L s₀ s) : Kept L s₀ (calBookAt from_ r s) := by
  unfold calBookAt; try dsimp only
  repeat' first | with_reducible assumption | (with_reducible exact fun h => h) | exact fun _ => twf_nil | with_reducible apply modRad_keeps | with_reducible apply modNvs_keeps | split | intro
theorem calBook_keeps {from_ : Nat} {r : CalReq} (pnvs : L .nvs = true) (pdpd : L .dpd = true) (prad : L .rad = true) (K : Kept L s₀ s) : Kept L s₀ (calBook from_ r s) := by
  unfold calBook; try dsimp only
  repeat' first | with_reducible assumption | with_reducible apply calBookAt_keeps | with_reducible apply obsRequest_keeps | with_reducible apply forAll_keeps | split | intro
theorem calBookTick_keeps  (pnvs : L .nvs = true) (pdpd : L .dpd = true) (prad : L .rad = true) (K : Kept L s₀ s) : Kept L s₀ (calBookTick s) := by
  unfold calBookTick; try dsimp only
  repeat' first | with_reducible assumption | with_reducible apply calBook_keeps | split | intro
theorem calEnter_keeps {r : CalReq} (pregs : L .regs = true) (pglb : L .glb = true) (pnvs : L .nvs = true) (ppstate : L .pstate = true) (prad : L .rad = true) (pfhp : L .fhp = true) (pcas : L .cas = true) (K : Kept L s₀ s) : Kept L s₀ (calEnter r s) := by
  unfold calEnter; try dsimp only
  repeat' first | with_reducible assumption | (with_reducible exact fun h => h) | exact fun _ => twf_nil | with_reducible apply burstsOut_keeps | with_reducible apply goTo_keeps | with_reducible apply modNvs_keeps | with_reducible apply forAll_keeps | split | intro
theorem calStart_keeps  (pregs : L .regs = true) (pglb : L .glb = true) (pnvs : L .nvs = true) (ppstate : L .pstate = true) (pdpd : L .dpd = true) (prad : L .rad = true) (pfhp : L .fhp = true) (pcas : L .cas = true) (K : Kept L s₀ s) : Kept L s₀ (calStart s) := by
  unfold calStart; try dsimp only
  repeat' first | with_reducible assumption | with_reducible apply calEnter_keeps | with_reducible apply calBook_keeps | split | intro
theorem calLeave_keeps  (pnvs : L .nvs = true) (ppstate : L .pstate = true) (pdpd : L .dpd = true) (prad : L .rad = true) (K : Kept L s₀ s) : Kept L s₀ (calLeave s) := by
  unfold calLeave; try dsimp only
  repeat' first | with_reducible assumption | (with_reducible exact fun h => h) | exact fun h => twf_mwrite _ _ h | exact fun h => twf_tset _ _ h | exact fun h => twfFrom_filter _ h | exact fun h => twf_windowWrite _ _ h | exact fun _ => twf_nil | with_reducible apply calBook_keeps | with_reducible apply goTo_keeps | with_reducible apply obsRelease_keeps | with_reducible apply obsWithdraw_keeps | with_reducible apply modGroup_keeps | with_reducible apply modRad_keeps | with_reducible apply modNvs_keeps | with_reducible apply forAll_keeps | split | intro
theorem calDone_keeps {ms : List CalMeas} (pregs : L .regs = true) (pglb : L .glb = true) (pnvs : L .nvs = true) (ppstate : L .pstate = true) (ppaths : L .paths = true) (pdpd : L .dpd = true) (prad : L .rad = true) (K : Kept L s₀ s) : Kept L s₀ (calDone ms s) := by
  unfold calDone; try dsimp only
  repeat' first | with_reducible assumption | with_reducible apply calLeave_keeps | with_reducible apply flushChanged_keeps | with_reducible apply calApply_keeps | with_reducible apply raise_keeps | split | intro
theorem calAbort_keeps {code : Nat} (pregs : L .regs = true) (pglb : L .glb = true) (pnvs : L .nvs = true) (ppstate : L .pstate = true) (ppaths : L .paths = true) (pdpd : L .dpd = true) (prad : L .rad = true) (K : Kept L s₀ s) : Kept L s₀ (calAbort code s) := by
  unfold calAbort; try dsimp only
  repeat' first | with_reducible assumption | with_reducible apply calLeave_keeps | with_reducible apply flushChanged_keeps | with_reducible apply calOutcome_keeps | with_reducible apply raise_keeps | with_reducible apply setFld_keeps | with_reducible apply forAll_keeps | split | intro
theorem calLoseRole_keeps {r : Nat} (pregs : L .regs = true) (pglb : L .glb = true) (pnvs : L .nvs = true) (ppstate : L .pstate = true) (ppaths : L .paths = true) (pdpd : L .dpd = true) (prad : L .rad = true) (K : Kept L s₀ s) : Kept L s₀ (calLoseRole r s) := by
  unfold calLoseRole; try dsimp only
  repeat' first | with_reducible assumption | with_reducible apply calAbort_keeps | split | intro
theorem calEnqueue_keeps {id : Nat} {m : Nat} {force : Bool} {drover : Bool} (pnvs : L .nvs = true) (K : Kept L s₀ s) : Kept L s₀ (calEnqueue id m force drover s).2 := by
  unfold calEnqueue; try dsimp only
  repeat' first | with_reducible assumption | (with_reducible exact fun h => h) | exact fun _ => twf_nil | with_reducible apply modNvs_keeps | split | intro
theorem calReqWrite_keeps {w : Word} (pregs : L .regs = true) (pnvs : L .nvs = true) (K : Kept L s₀ s) : Kept L s₀ (calReqWrite w s) := by
  unfold calReqWrite; try dsimp only
  repeat' first | with_reducible assumption | with_reducible apply calEnqueue_keeps | with_reducible apply raise_keeps | with_reducible apply setReg_keeps | split | (with_reducible refine Kept.pair1 (by assumption) ?_) | (with_reducible refine Kept.pair2 (by assumption) ?_) | intro
theorem calWaitLong_keeps  (pregs : L .regs = true) (pnvs : L .nvs = true) (K : Kept L s₀ s) : Kept L s₀ (calWaitLong s) := by
  unfold calWaitLong; try dsimp only
  repeat' first | with_reducible assumption | (with_reducible exact fun h => h) | exact fun _ => twf_nil | with_reducible apply raise_keeps | with_reducible apply modNvs_keeps | split | intro
theorem droverRequest_keeps {why : CalWhy} (pnvs : L .nvs = true) (K : Kept L s₀ s) : Kept L s₀ (droverRequest why s) := by
  unfold droverRequest; try dsimp only
  repeat' first | with_reducible assumption | with_reducible apply calEnqueue_keeps | with_reducible apply forAll_keeps | split | (with_reducible refine Kept.pair1 (by assumption) ?_) | (with_reducible refine Kept.pair2 (by assumption) ?_) | intro
theorem convertersLoad_keeps {self : List (Fin 64 × Bool × Fin 9)} (pregs : L .regs = true) (pglb : L .glb = true) (pnvs : L .nvs = true) (ppaths : L .paths = true) (pdpd : L .dpd = true) (pfhp : L .fhp = true) (pacq : L .acq = true) (pdrc : L .drc = true) (pdma : L .dma = true) (prnd : L .rnd = true) (K : Kept L s₀ s) : Kept L s₀ (convertersLoad self s) := by
  unfold convertersLoad; try dsimp only
  repeat' first | with_reducible assumption | (with_reducible exact fun h => h) | exact fun _ => twf_nil | with_reducible apply adcSelfTestFail_keeps | with_reducible apply persistFaults_keeps | with_reducible apply pathFromMap_keeps | with_reducible apply chainFaultRx_keeps | with_reducible apply chainFaultTx_keeps | with_reducible apply modNvs_keeps | with_reducible apply forAll_keeps | split | intro
theorem spareRound_keeps {p : Nat} {q : Bool} (pregs : L .regs = true) (pglb : L .glb = true) (pnvs : L .nvs = true) (ppaths : L .paths = true) (K : Kept L s₀ s) : Kept L s₀ (spareRound p q s) := by
  unfold spareRound; try dsimp only
  repeat' first | with_reducible assumption | with_reducible apply adcSwapSoon_keeps | with_reducible apply modAdc_keeps | split | intro
theorem powerUpRounds_keeps {adc : List (Fin 64 × Bool × Fin 8)} {dac : List (Fin 64 × Bool × Fin 63)} (pregs : L .regs = true) (pglb : L .glb = true) (pnvs : L .nvs = true) (ppaths : L .paths = true) (pdpd : L .dpd = true) (pfhp : L .fhp = true) (pacq : L .acq = true) (pdrc : L .drc = true) (pdma : L .dma = true) (prnd : L .rnd = true) (K : Kept L s₀ s) : Kept L s₀ (powerUpRounds adc dac s) := by
  unfold powerUpRounds; try dsimp only
  repeat' first | with_reducible assumption | with_reducible apply spareRound_keeps | with_reducible apply segmentMeasured_keeps | with_reducible apply adcFailed_keeps | with_reducible apply forAll_keeps | split | intro
theorem powerUpCal_keeps {self : List (Fin 64 × Bool × Fin 9)} {adc : List (Fin 64 × Bool × Fin 8)} {dac : List (Fin 64 × Bool × Fin 63)} {ms : List (Nat × List CalMeas)} (pregs : L .regs = true) (pglb : L .glb = true) (pnvs : L .nvs = true) (ppstate : L .pstate = true) (ppaths : L .paths = true) (pdpd : L .dpd = true) (prad : L .rad = true) (pfhp : L .fhp = true) (pacq : L .acq = true) (pdrc : L .drc = true) (pdma : L .dma = true) (prnd : L .rnd = true) (K : Kept L s₀ s) : Kept L s₀ (powerUpCal self adc dac ms s) := by
  unfold powerUpCal; try dsimp only
  repeat' first | with_reducible assumption | (with_reducible exact fun h => h) | exact fun h => twf_mwrite _ _ h | exact fun h => twf_tset _ _ h | exact fun h => twfFrom_filter _ h | exact fun h => twf_windowWrite _ _ h | exact fun _ => twf_nil | with_reducible apply powerUpRounds_keeps | with_reducible apply convertersLoad_keeps | with_reducible apply seedPath_keeps | with_reducible apply flushChanged_keeps | with_reducible apply calApply_keeps | with_reducible apply enterGroup_keeps | with_reducible apply writeReserveMap_keeps | with_reducible apply modNvs_keeps | with_reducible apply forAll_keeps | split | intro
theorem dpdRecordWrite_keeps {p : Nat} (pnvs : L .nvs = true) (pdpd : L .dpd = true) (K : Kept L s₀ s) : Kept L s₀ (dpdRecordWrite p s) := by
  unfold dpdRecordWrite; try dsimp only
  repeat' first | with_reducible assumption | with_reducible apply queueWrite_keeps | with_reducible apply modDpdPath_keeps | split | intro

/-! ### Machine/FhMsg.lean -/

theorem wireOut_keeps {q : Nat} {b : List Byte} (pfhp : L .fhp = true) (K : Kept L s₀ s) : Kept L s₀ (wireOut q b s) := by
  unfold wireOut; try dsimp only
  repeat' first | with_reducible assumption | with_reducible apply modFhp_keeps | split | intro
theorem txtsPush_keeps {q : Nat} {kind : Nat} {id : Nat} {at_ : Nat} (pregs : L .regs = true) (ptim : L .tim = true) (K : Kept L s₀ s) : Kept L s₀ (txtsPush q kind id at_ s) := by
  unfold txtsPush; try dsimp only
  repeat' first | with_reducible assumption | with_reducible apply addLo_keeps | with_reducible apply raise_keeps | with_reducible apply modTim_keeps | split | intro
theorem takeSeq_keeps {k : Nat} {id : Nat} (pfhp : L .fhp = true) (K : Kept L s₀ s) : Kept L s₀ (takeSeq k id s).2 := by
  unfold takeSeq; try dsimp only
  repeat' first | with_reducible assumption | with_reducible apply modFlock_keeps | split | intro
theorem sendCtrl_keeps {k : Nat} {q : Nat} {f : FlockCfg} {msg : List Byte} (pfhp : L .fhp = true) (K : Kept L s₀ s) : Kept L s₀ (sendCtrl k q f msg s) := by
  unfold sendCtrl; try dsimp only
  repeat' first | with_reducible assumption | with_reducible apply takeSeq_keeps | with_reducible apply wireOut_keeps | split | (with_reducible refine Kept.pair1 (by assumption) ?_) | (with_reducible refine Kept.pair2 (by assumption) ?_) | intro
theorem flushOne_keeps {k : Nat} {f : FlockCfg} (pfhp : L .fhp = true) (K : Kept L s₀ s) : Kept L s₀ (flushOne k f s) := by
  unfold flushOne; try dsimp only
  repeat' first | with_reducible assumption | with_reducible apply sendCtrl_keeps | with_reducible apply modFlock_keeps | split | intro
theorem flushFlock_keeps {k : Nat} (pfhp : L .fhp = true) (K : Kept L s₀ s) : Kept L s₀ (flushFlock k s) := by
  unfold flushFlock; try dsimp only
  repeat' first | with_reducible assumption | with_reducible apply flushOne_keeps | with_reducible apply iter_keeps | split | intro
theorem flockViol_keeps {k : Nat} {cls : Nat} (pregs : L .regs = true) (pglb : L .glb = true) (pfhp : L .fhp = true) (pacq : L .acq = true) (K : Kept L s₀ s) : Kept L s₀ (flockViol k cls s) := by
  unfold flockViol; try dsimp only
  repeat' first | with_reducible assumption | with_reducible apply flockEvent_keeps | with_reducible apply viol_keeps | with_reducible apply modFlock_keeps | split | intro
theorem flockNak_keeps {k : Nat} {q : Nat} {tag : Nat} {cls : Nat} {msg : Nat} {pcid : Nat} (pregs : L .regs = true) (pfhp : L .fhp = true) (K : Kept L s₀ s) : Kept L s₀ (flockNak k q tag cls msg pcid s) := by
  unfold flockNak; try dsimp only
  repeat' first | with_reducible assumption | with_reducible apply post_keeps | split | intro
theorem nakViol_keeps {k : Nat} {q : Nat} {tag : Nat} {cls : Nat} {msg : Nat} {pcid : Nat} (pregs : L .regs = true) (pglb : L .glb = true) (pfhp : L .fhp = true) (pacq : L .acq = true) (K : Kept L s₀ s) : Kept L s₀ (nakViol k q tag cls msg pcid s) := by
  unfold nakViol; try dsimp only
  repeat' first | with_reducible assumption | with_reducible apply flockNak_keeps | with_reducible apply flockViol_keeps | split | intro
theorem police_keeps {k : Nat} (pregs : L .regs = true) (pglb : L .glb = true) (pfhp : L .fhp = true) (pacq : L .acq = true) (K : Kept L s₀ s) : Kept L s₀ (police k s).1 := by
  unfold police; try dsimp only
  repeat' first | with_reducible assumption | with_reducible apply flockViol_keeps | with_reducible apply addLo_keeps | with_reducible apply addHi_keeps | with_reducible apply modFlock_keeps | split | intro
theorem checkSeq_keeps {q : Nat} {k : Nat} {id : Nat} {seq : Nat} (pregs : L .regs = true) (pfhp : L .fhp = true) (K : Kept L s₀ s) : Kept L s₀ (checkSeq q k id seq s) := by
  unfold checkSeq; try dsimp only
  repeat' first | with_reducible assumption | with_reducible apply addReg_keeps | with_reducible apply raise_keeps | with_reducible apply modFlock_keeps | split | intro

/-! ### Machine/Admit.lean -/

theorem setHolding_keeps {ul : Bool} {l : Nat} {h : Option Holding} (pfhp : L .fhp = true) (K : Kept L s₀ s) : Kept L s₀ (setHolding ul l h s) := by
  unfold setHolding; try dsimp only
  repeat' first | with_reducible assumption | with_reducible apply modFhp_keeps | split | intro
theorem admitReply_keeps {r : AdmReq} {outcome : Nat} {reason : Nat} {slots : Nat} {air : Nat} (pregs : L .regs = true) (pfhp : L .fhp = true) (K : Kept L s₀ s) : Kept L s₀ (admitReply r outcome reason slots air s) := by
  unfold admitReply; try dsimp only
  repeat' first | with_reducible assumption | with_reducible apply post_keeps | with_reducible apply raise_keeps | split | intro
theorem preempted_keeps {k : Nat} {reason : Nat} {ul : Bool} {slots : Nat} {air : Nat} (pregs : L .regs = true) (pfhp : L .fhp = true) (K : Kept L s₀ s) : Kept L s₀ (preempted k reason ul slots air s) := by
  unfold preempted; try dsimp only
  repeat' first | with_reducible assumption | with_reducible apply post_keeps | with_reducible apply raise_keeps | with_reducible apply modFlock_keeps | split | intro
theorem planChange_keeps {ul : Bool} {l : Nat} {at_ : Nat} {to_ : Option Nat} (pfhp : L .fhp = true) (pcas : L .cas = true) (K : Kept L s₀ s) : Kept L s₀ (planChange ul l at_ to_ s) := by
  unfold planChange; try dsimp only
  repeat' first | with_reducible assumption | with_reducible apply relayControl_keeps | with_reducible apply modFhp_keeps | split | intro
theorem planServe_keeps {ul : Bool} {k : Nat} {at_ : Nat} {ls : List Nat} (pfhp : L .fhp = true) (pcas : L .cas = true) (K : Kept L s₀ s) : Kept L s₀ (planServe ul k at_ ls s) := by
  unfold planServe; try dsimp only
  repeat' first | with_reducible assumption | with_reducible apply planChange_keeps | with_reducible apply setHolding_keeps | with_reducible apply forAll_keeps | split | intro
theorem planEnd_keeps {ul : Bool} {l : Nat} {at_ : Nat} (pfhp : L .fhp = true) (pcas : L .cas = true) (K : Kept L s₀ s) : Kept L s₀ (planEnd ul l at_ s) := by
  unfold planEnd; try dsimp only
  repeat' first | with_reducible assumption | with_reducible apply planChange_keeps | with_reducible apply setHolding_keeps | split | intro
theorem dropReq_keeps {r : AdmReq} (pfhp : L .fhp = true) (K : Kept L s₀ s) : Kept L s₀ (dropReq r s) := by
  unfold dropReq; try dsimp only
  repeat' first | with_reducible assumption | with_reducible apply modFlock_keeps | with_reducible apply modFhp_keeps | split | intro
theorem serveReq_keeps {r : AdmReq} {te : Nat} (pregs : L .regs = true) (pfhp : L .fhp = true) (pcas : L .cas = true) (K : Kept L s₀ s) : Kept L s₀ (serveReq r te s) := by
  unfold serveReq; try dsimp only
  repeat' first | with_reducible assumption | with_reducible apply dropReq_keeps | with_reducible apply planServe_keeps | with_reducible apply preempted_keeps | with_reducible apply admitReply_keeps | with_reducible apply forAll_keeps | split | intro
theorem tieQueue_keeps {r : AdmReq} {te : Nat} (pregs : L .regs = true) (pfhp : L .fhp = true) (K : Kept L s₀ s) : Kept L s₀ (tieQueue r te s) := by
  unfold tieQueue; try dsimp only
  repeat' first | with_reducible assumption | with_reducible apply admitReply_keeps | with_reducible apply modFhp_keeps | split | intro
theorem decideReq_keeps {te : Nat} {x : Cand} {a : State × List AdmReq} (pregs : L .regs = true) (pfhp : L .fhp = true) (pcas : L .cas = true) (h : Kept L s₀ a.1) : Kept L s₀ (decideReq te x a).1 := by
  obtain ⟨s, l⟩ := a
  have h : Kept L s₀ s := h
  unfold decideReq; dsimp only
  repeat' first | with_reducible assumption | with_reducible apply serveReq_keeps | with_reducible apply tieQueue_keeps | with_reducible apply admitReply_keeps | with_reducible apply modFlock_keeps | split
theorem scanTies_keeps {l : List (List Cand)} {a : State × List Cand} (pfhp : L .fhp = true) (h : Kept L s₀ a.1) :
    Kept L s₀ (l.foldl (fun a g => scanTie g a) a).1 := by
  induction l generalizing a with
  | nil => exact h
  | cons g l ih =>
    apply ih
    unfold scanTie
    dsimp only
    split
    · split
      · exact arbMove_keeps pfhp h
      · exact h
    · exact h
theorem rankAll_keeps {fresh : List AdmReq} (pfhp : L .fhp = true) (K : Kept L s₀ s) : Kept L s₀ (rankAll fresh s).1 := by
  unfold rankAll
  exact scanTies_keeps pfhp K
theorem decideReqs_keeps {te : Nat} {l : List Cand} {a : State × List AdmReq} (pregs : L .regs = true) (pfhp : L .fhp = true) (pcas : L .cas = true) (h : Kept L s₀ a.1) :
    Kept L s₀ (l.foldl (fun a x => decideReq te x a) a).1 := by
  induction l generalizing a with
  | nil => exact h
  | cons x l ih => exact ih (decideReq_keeps pregs pfhp pcas h)
theorem decideEpoch_keeps {te : Nat} (pregs : L .regs = true) (pfhp : L .fhp = true) (pcas : L .cas = true) (K : Kept L s₀ s) : Kept L s₀ (decideEpoch te s) := by
  unfold decideEpoch; dsimp only
  refine decideReqs_keeps pregs pfhp pcas (rankAll_keeps pfhp (forAll_keeps (fun _ _ h => ?_) (modFhp_keeps pfhp K)))
  apply admitReply_keeps <;> assumption
theorem obsRefuse_keeps {o : Nat} {h : ObsHolder} (pregs : L .regs = true) (pglb : L .glb = true) (pnvs : L .nvs = true) (ppstate : L .pstate = true) (ppaths : L .paths = true) (psyn : L .syn = true) (pdpd : L .dpd = true) (prad : L .rad = true) (pacq : L .acq = true) (K : Kept L s₀ s) : Kept L s₀ (obsRefuse o h s) := by
  unfold obsRefuse; try dsimp only
  repeat' first | with_reducible assumption | with_reducible apply calAbort_keeps | with_reducible apply surveyBusy_keeps | with_reducible apply armRefuse_keeps | with_reducible apply obsWithdraw_keeps | with_reducible apply modStream_keeps | split | intro
theorem obsEpoch_keeps {o : Nat} (pregs : L .regs = true) (pglb : L .glb = true) (pnvs : L .nvs = true) (ppstate : L .pstate = true) (ppaths : L .paths = true) (psyn : L .syn = true) (pdpd : L .dpd = true) (prad : L .rad = true) (pfhp : L .fhp = true) (pacq : L .acq = true) (K : Kept L s₀ s) : Kept L s₀ (obsEpoch o s) := by
  unfold obsEpoch; try dsimp only
  repeat' first | with_reducible assumption | with_reducible apply obsRefuse_keeps | with_reducible apply obsDecide_keeps | with_reducible apply forAll_keeps | split | (with_reducible refine Kept.pair1 (by assumption) ?_) | (with_reducible refine Kept.pair2 (by assumption) ?_) | intro
theorem epochEndAt_keeps {te : Nat} (pregs : L .regs = true) (pglb : L .glb = true) (pnvs : L .nvs = true) (ppstate : L .pstate = true) (ppaths : L .paths = true) (psyn : L .syn = true) (pfft : L .fft = true) (pdpd : L .dpd = true) (prad : L .rad = true) (pfhp : L .fhp = true) (pcas : L .cas = true) (pacq : L .acq = true) (K : Kept L s₀ s) : Kept L s₀ (epochEndAt te s) := by
  unfold epochEndAt; try dsimp only
  repeat' first | with_reducible assumption | with_reducible apply obsEpoch_keeps | with_reducible apply decideEpoch_keeps | with_reducible apply fftEpoch_keeps | with_reducible apply streamEpoch_keeps | with_reducible apply modFhp_keeps | with_reducible apply forAll_keeps | split | intro
theorem epochEnd_keeps  (pregs : L .regs = true) (pglb : L .glb = true) (pnvs : L .nvs = true) (ppstate : L .pstate = true) (ppaths : L .paths = true) (psyn : L .syn = true) (pfft : L .fft = true) (pdpd : L .dpd = true) (prad : L .rad = true) (pfhp : L .fhp = true) (pcas : L .cas = true) (pacq : L .acq = true) (K : Kept L s₀ s) : Kept L s₀ (epochEnd s) := by
  unfold epochEnd; try dsimp only
  repeat' first | with_reducible assumption | with_reducible apply epochEndAt_keeps | split | intro
theorem applyChange_keeps {x : SlotChange} (pregs : L .regs = true) (pskn : L .skn = true) (pfhp : L .fhp = true) (K : Kept L s₀ s) : Kept L s₀ (applyChange x s) := by
  unfold applyChange; try dsimp only
  repeat' first | with_reducible assumption | with_reducible apply setHolding_keeps | with_reducible apply resetSlot_keeps | with_reducible apply modFhp_keeps | split | intro
theorem slotEffective_keeps  (pregs : L .regs = true) (pskn : L .skn = true) (pfhp : L .fhp = true) (K : Kept L s₀ s) : Kept L s₀ (slotEffective s) := by
  unfold slotEffective; try dsimp only
  repeat' first | with_reducible assumption | with_reducible apply applyChange_keeps | with_reducible apply modFhp_keeps | with_reducible apply forAll_keeps | with_reducible apply foldl_keeps | split | intro
theorem limitPassed_keeps {r : Option AdmReq} (pregs : L .regs = true) (pfhp : L .fhp = true) (K : Kept L s₀ s) : Kept L s₀ (limitPassed r s) := by
  unfold limitPassed; try dsimp only
  repeat' first | with_reducible assumption | with_reducible apply dropReq_keeps | with_reducible apply admitReply_keeps | split | intro
theorem obsLimit_keeps {o : Nat} (pregs : L .regs = true) (pglb : L .glb = true) (pnvs : L .nvs = true) (ppstate : L .pstate = true) (ppaths : L .paths = true) (psyn : L .syn = true) (pdpd : L .dpd = true) (prad : L .rad = true) (pacq : L .acq = true) (K : Kept L s₀ s) : Kept L s₀ (obsLimit o s) := by
  unfold obsLimit; try dsimp only
  repeat' first | with_reducible assumption | with_reducible apply obsRefuse_keeps | split | intro
theorem admitReq_keeps {k : Nat} {q : Nat} {tag : Nat} {b : List Byte} (pfhp : L .fhp = true) (K : Kept L s₀ s) : Kept L s₀ (admitReq k q tag b s) := by
  unfold admitReq; try dsimp only
  repeat' first | with_reducible assumption | with_reducible apply modFhp_keeps | split | intro
theorem flockAck_keeps {k : Nat} {q : Nat} {tag : Nat} {outcome : Nat} {code : Nat} (pregs : L .regs = true) (pfhp : L .fhp = true) (K : Kept L s₀ s) : Kept L s₀ (flockAck k q tag outcome code s) := by
  unfold flockAck; try dsimp only
  repeat' first | with_reducible assumption | with_reducible apply post_keeps | split | intro
theorem releaseReq_keeps {k : Nat} {q : Nat} {tag : Nat} {b : List Byte} (pregs : L .regs = true) (pglb : L .glb = true) (pfhp : L .fhp = true) (pcas : L .cas = true) (pacq : L .acq = true) (K : Kept L s₀ s) : Kept L s₀ (releaseReq k q tag b s) := by
  unfold releaseReq; try dsimp only
  repeat' first | with_reducible assumption | with_reducible apply flockAck_keeps | with_reducible apply planEnd_keeps | with_reducible apply nakViol_keeps | with_reducible apply forAll_keeps | split | intro
theorem withdrawReq_keeps {k : Nat} {q : Nat} {tag : Nat} {b : List Byte} (pregs : L .regs = true) (pfhp : L .fhp = true) (K : Kept L s₀ s) : Kept L s₀ (withdrawReq k q tag b s) := by
  unfold withdrawReq; try dsimp only
  repeat' first | with_reducible assumption | with_reducible apply flockAck_keeps | with_reducible apply dropReq_keeps | with_reducible apply admitReply_keeps | split | intro
theorem releaseAll_keeps {k : Nat} (pregs : L .regs = true) (pfhp : L .fhp = true) (pcas : L .cas = true) (K : Kept L s₀ s) : Kept L s₀ (releaseAll k s) := by
  unfold releaseAll; try dsimp only
  repeat' first | with_reducible assumption | with_reducible apply planEnd_keeps | with_reducible apply preempted_keeps | with_reducible apply forAll_keeps | split | intro
theorem flockCtrlWrite_keeps {w : Word} (pregs : L .regs = true) (pfhp : L .fhp = true) (pcas : L .cas = true) (K : Kept L s₀ s) : Kept L s₀ (flockCtrlWrite w s) := by
  unfold flockCtrlWrite; try dsimp only
  repeat' first | with_reducible assumption | with_reducible apply releaseAll_keeps | split | intro
theorem refuseWaiting_keeps {p : AdmReq → Bool} (pregs : L .regs = true) (pfhp : L .fhp = true) (K : Kept L s₀ s) : Kept L s₀ (refuseWaiting p s) := by
  unfold refuseWaiting; try dsimp only
  repeat' first | with_reducible assumption | with_reducible apply dropReq_keeps | with_reducible apply admitReply_keeps | with_reducible apply forAll_keeps | split | intro
theorem tellEnd_keeps {ul : Bool} {ls : List Nat} {air : Nat} (pregs : L .regs = true) (pfhp : L .fhp = true) (K : Kept L s₀ s) : Kept L s₀ (tellEnd ul ls air s) := by
  unfold tellEnd; try dsimp only
  repeat' first | with_reducible assumption | with_reducible apply preempted_keeps | with_reducible apply forAll_keeps | split | intro
theorem forgetSlots_keeps {ul : Bool} {ls : List Nat} (pfhp : L .fhp = true) (K : Kept L s₀ s) : Kept L s₀ (forgetSlots ul ls s) := by
  unfold forgetSlots; try dsimp only
  repeat' first | with_reducible assumption | with_reducible apply setHolding_keeps | with_reducible apply modFhp_keeps | with_reducible apply forAll_keeps | split | intro
theorem fhpCommit_keeps  (pregs : L .regs = true) (pfhp : L .fhp = true) (K : Kept L s₀ s) : Kept L s₀ (fhpCommit s) := by
  unfold fhpCommit; try dsimp only
  repeat' first | with_reducible assumption | with_reducible apply forgetSlots_keeps | with_reducible apply tellEnd_keeps | with_reducible apply refuseWaiting_keeps | split | intro
theorem fhpRestart_keeps  (pfhp : L .fhp = true) (K : Kept L s₀ s) : Kept L s₀ (fhpRestart s) := by
  unfold fhpRestart; try dsimp only
  repeat' first | with_reducible assumption | with_reducible apply flushFlock_keeps | with_reducible apply modFhp_keeps | with_reducible apply forAll_keeps | split | intro
theorem fhpSwitch_keeps  (pregs : L .regs = true) (pfhp : L .fhp = true) (K : Kept L s₀ s) : Kept L s₀ (fhpSwitch s) := by
  unfold fhpSwitch; try dsimp only
  repeat' first | with_reducible assumption | with_reducible apply refuseWaiting_keeps | split | intro

/-! ### Machine/Signal.lean -/

theorem dpdSatCount_keeps {row : List (Cplx × Bool)} (pregs : L .regs = true) (K : Kept L s₀ s) : Kept L s₀ (dpdSatCount row s) := by
  unfold dpdSatCount; try dsimp only
  repeat' first | with_reducible assumption | with_reducible apply addReg_keeps | with_reducible apply raise_keeps | with_reducible apply forAll_keeps | split | intro
theorem pathSampleOn_keeps {n : Nat} {y : List Cplx} (pregs : L .regs = true) (pfhp : L .fhp = true) (K : Kept L s₀ s) : Kept L s₀ (pathSampleOn n y s) := by
  unfold pathSampleOn; try dsimp only
  repeat' first | with_reducible assumption | with_reducible apply dpdSatCount_keeps | with_reducible apply modFhp_keeps | split | intro
theorem converterSample_keeps {n : Nat} {rows : List (List Cplx)} (pfhp : L .fhp = true) (K : Kept L s₀ s) : Kept L s₀ (converterSample n rows s) := by
  unfold converterSample; try dsimp only
  repeat' first | with_reducible assumption | with_reducible apply modFhp_keeps | split | intro
theorem converterTick_keeps  (pfhp : L .fhp = true) (K : Kept L s₀ s) : Kept L s₀ (converterTick s) := by
  unfold converterTick; try dsimp only
  repeat' first | with_reducible assumption | with_reducible apply converterSample_keeps | with_reducible apply modFhp_keeps | with_reducible apply forAll_keeps | split | intro
theorem slipZero_keeps {ul : Bool} {i : Nat} (pfhp : L .fhp = true) (K : Kept L s₀ s) : Kept L s₀ (slipZero ul i s) := by
  unfold slipZero; try dsimp only
  repeat' first | with_reducible assumption | with_reducible apply modFhp_keeps | split | intro
theorem cadenceSlip_keeps {ul : Bool} {i : Nat} (pregs : L .regs = true) (pglb : L .glb = true) (pfhp : L .fhp = true) (K : Kept L s₀ s) : Kept L s₀ (cadenceSlip ul i s) := by
  unfold cadenceSlip; try dsimp only
  repeat' first | with_reducible assumption | with_reducible apply slipZero_keeps | with_reducible apply event_keeps | with_reducible apply addReg_keeps | split | intro

/-! ### Machine/Fhp.lean -/

theorem sectionAccept_keeps {k : Nat} {q : Nat} {l : Nat} {first : Nat} {stop : Nat} {fmt : Nat} {n : Nat} {b : List Byte} (pregs : L .regs = true) (pglb : L .glb = true) (pfhp : L .fhp = true) (pacq : L .acq = true) (K : Kept L s₀ s) : Kept L s₀ (sectionAccept k q l first stop fmt n b s) := by
  unfold sectionAccept; try dsimp only
  repeat' first | with_reducible assumption | with_reducible apply flockViol_keeps | with_reducible apply addReg_keeps | with_reducible apply modFhp_keeps | with_reducible apply forAll_keeps | split | intro
theorem iqSection_keeps {k : Nat} {q : Nat} {pcid : Nat} {b : List Byte} (pregs : L .regs = true) (pglb : L .glb = true) (pfhp : L .fhp = true) (pacq : L .acq = true) (K : Kept L s₀ s) : Kept L s₀ (iqSection k q pcid b s) := by
  unfold iqSection; try dsimp only
  repeat' first | with_reducible assumption | with_reducible apply sectionAccept_keeps | with_reducible apply nakViol_keeps | with_reducible apply flockViol_keeps | with_reducible apply addHi_keeps | split | intro
theorem lateSubst_keeps {l : Nat} (pregs : L .regs = true) (pglb : L .glb = true) (pfhp : L .fhp = true) (pacq : L .acq = true) (K : Kept L s₀ s) : Kept L s₀ (lateSubst l s) := by
  unfold lateSubst; try dsimp only
  repeat' first | with_reducible assumption | with_reducible apply flockViol_keeps | with_reducible apply flockEvent_keeps | with_reducible apply addLo_keeps | with_reducible apply raise_keeps | with_reducible apply modFhp_keeps | split | intro
theorem enterFabric_keeps {l : Nat} {start : Nat} {c : Carrier} {x : List Cplx} (pfhp : L .fhp = true) (K : Kept L s₀ s) : Kept L s₀ (enterFabric l start c x s) := by
  unfold enterFabric; try dsimp only
  repeat' first | with_reducible assumption | with_reducible apply modFhp_keeps | split | intro
theorem sendPairs_keeps {ci : Nat} {c : Carrier} {all : List (Nat × Nat × (Nat × List Int))} {new : List (Nat × Nat × (Nat × List Int))} (pcas : L .cas = true) (K : Kept L s₀ s) : Kept L s₀ (sendPairs ci c all new s) := by
  unfold sendPairs; try dsimp only
  repeat' first | with_reducible assumption | with_reducible apply casSend_keeps | with_reducible apply forAll_keeps | split | intro
theorem sendSections_keeps {xs : List Section} (pfhp : L .fhp = true) (pcas : L .cas = true) (K : Kept L s₀ s) : Kept L s₀ (sendSections xs s) := by
  unfold sendSections; try dsimp only
  repeat' first | with_reducible assumption | with_reducible apply sendPairs_keeps | with_reducible apply modFhp_keeps | with_reducible apply forAll_keeps | split | intro
theorem releaseOne_keeps {x : Section} (pfhp : L .fhp = true) (K : Kept L s₀ s) : Kept L s₀ (releaseOne x s) := by
  unfold releaseOne; try dsimp only
  repeat' first | with_reducible assumption | with_reducible apply enterFabric_keeps | split | intro
theorem sectionRelease_keeps  (pregs : L .regs = true) (pfhp : L .fhp = true) (pcas : L .cas = true) (K : Kept L s₀ s) : Kept L s₀ (sectionRelease s) := by
  unfold sectionRelease; try dsimp only
  repeat' first | with_reducible assumption | with_reducible apply releaseOne_keeps | with_reducible apply sendSections_keeps | with_reducible apply addReg_keeps | with_reducible apply raise_keeps | with_reducible apply modFhp_keeps | with_reducible apply forAll_keeps | with_reducible apply foldl_keeps | split | intro
theorem dlSatCount_keeps {out : List (Cplx × Bool)} (pregs : L .regs = true) (K : Kept L s₀ s) : Kept L s₀ (dlSatCount out s) := by
  unfold dlSatCount; try dsimp only
  repeat' first | with_reducible assumption | with_reducible apply addReg_keeps | with_reducible apply raise_keeps | with_reducible apply forAll_keeps | split | intro
theorem mixSample_keeps {n : Nat} (pregs : L .regs = true) (pfhp : L .fhp = true) (K : Kept L s₀ s) : Kept L s₀ (mixSample n s) := by
  unfold mixSample; try dsimp only
  repeat' first | with_reducible assumption | with_reducible apply dlSatCount_keeps | with_reducible apply pathSampleOn_keeps | with_reducible apply modFhp_keeps | split | intro
theorem mixTick_keeps  (pregs : L .regs = true) (pfhp : L .fhp = true) (K : Kept L s₀ s) : Kept L s₀ (mixTick s) := by
  unfold mixTick; try dsimp only
  repeat' first | with_reducible assumption | with_reducible apply mixSample_keeps | with_reducible apply converterTick_keeps | with_reducible apply forAll_keeps | split | intro
theorem sendSection_keeps {k : Nat} {f : FlockCfg} {y : LayerCfg} {c : Carrier} {start : Nat} {n : Nat} {x : List Cplx} {m : UlMarks} (pregs : L .regs = true) (pfhp : L .fhp = true) (K : Kept L s₀ s) : Kept L s₀ (sendSection k f y c start n x m s) := by
  unfold sendSection; try dsimp only
  repeat' first | with_reducible assumption | with_reducible apply takeSeq_keeps | with_reducible apply wireOut_keeps | with_reducible apply addReg_keeps | split | (with_reducible refine Kept.pair1 (by assumption) ?_) | (with_reducible refine Kept.pair2 (by assumption) ?_) | intro
theorem sendBlocks_keeps {k : Nat} {l : Nat} {f : FlockCfg} {y : LayerCfg} {c : Carrier} {n : Nat} (pregs : L .regs = true) (pfhp : L .fhp = true) (K : Kept L s₀ s) : Kept L s₀ (sendBlocks k l f y c n s) := by
  unfold sendBlocks; try dsimp only
  repeat' first | with_reducible assumption | with_reducible apply sendSection_keeps | with_reducible apply modFhp_keeps | with_reducible apply foldl_keeps | split | intro
theorem sectionsOut_keeps {k l : Nat} {f : FlockCfg} {y : LayerCfg} {c : Carrier} {last : Bool} {n : Nat} (pregs : L .regs = true) (pfhp : L .fhp = true) (K : Kept L s₀ s) :
    Kept L s₀ (sectionsOut k l f y c last n s) := by
  induction n generalizing s with
  | zero => exact K
  | succ n ih =>
    unfold sectionsOut; dsimp only
    repeat' first | with_reducible assumption | with_reducible apply ih | with_reducible apply sendBlocks_keeps | with_reducible apply modFhp_keeps | split
theorem pushBlocks_keeps {k : Nat} {l : Nat} {start : Nat} {f : FlockCfg} {y : LayerCfg} {c : Carrier} {bs : List (List Cplx × UlMarks)} (pregs : L .regs = true) (pfhp : L .fhp = true) (K : Kept L s₀ s) : Kept L s₀ (pushBlocks k l start f y c bs s) := by
  unfold pushBlocks; try dsimp only
  repeat' first | with_reducible assumption | with_reducible apply sectionsOut_keeps | with_reducible apply modFhp_keeps | split | intro
theorem ulSatCount_keeps {l : Nat} {sat : Nat} (pregs : L .regs = true) (K : Kept L s₀ s) : Kept L s₀ (ulSatCount l sat s) := by
  unfold ulSatCount; try dsimp only
  repeat' first | with_reducible assumption | with_reducible apply addReg_keeps | with_reducible apply raise_keeps | split | intro
theorem ulSectionSend_keeps {l : Nat} {start : Nat} {count : Nat} {adc : List (List Cplx)} {m : UlMarks} (pregs : L .regs = true) (pfhp : L .fhp = true) (K : Kept L s₀ s) : Kept L s₀ (ulSectionSend l start count adc m s) := by
  unfold ulSectionSend; try dsimp only
  repeat' first | with_reducible assumption | with_reducible apply ulSatCount_keeps | with_reducible apply pushBlocks_keeps | with_reducible apply sectionsOut_keeps | with_reducible apply modFhp_keeps | split | intro
theorem measurement_keeps {k : Nat} {q : Nat} {at_ : Nat} {b : List Byte} (pregs : L .regs = true) (pglb : L .glb = true) (pfhp : L .fhp = true) (ptim : L .tim = true) (pacq : L .acq = true) (K : Kept L s₀ s) : Kept L s₀ (measurement k q at_ b s) := by
  unfold measurement; try dsimp only
  repeat' first | with_reducible assumption | with_reducible apply police_keeps | with_reducible apply txtsPush_keeps | with_reducible apply wireOut_keeps | split | (with_reducible refine Kept.pair1 (by assumption) ?_) | (with_reducible refine Kept.pair2 (by assumption) ?_) | intro
theorem skeinWriteReq_keeps {k : Nat} {q : Nat} {tag : Nat} {b : List Byte} (pregs : L .regs = true) (pglb : L .glb = true) (pskn : L .skn = true) (pfhp : L .fhp = true) (pcas : L .cas = true) (pacq : L .acq = true) (K : Kept L s₀ s) : Kept L s₀ (skeinWriteReq k q tag b s) := by
  unfold skeinWriteReq; try dsimp only
  repeat' first | with_reducible assumption | with_reducible apply nakViol_keeps | with_reducible apply flockNak_keeps | with_reducible apply skeinWriteBody_keeps | with_reducible apply casSend_keeps | split | intro
theorem swapReq_keeps {k : Nat} {q : Nat} {tag : Nat} {b : List Byte} (pregs : L .regs = true) (pglb : L .glb = true) (pskn : L .skn = true) (pfhp : L .fhp = true) (pcas : L .cas = true) (pacq : L .acq = true) (K : Kept L s₀ s) : Kept L s₀ (swapReq k q tag b s) := by
  unfold swapReq; try dsimp only
  repeat' first | with_reducible assumption | with_reducible apply flockNak_keeps | with_reducible apply flockViol_keeps | with_reducible apply flockSwap_keeps | split | intro
theorem burstReq_keeps {k : Nat} {q : Nat} {tag : Nat} {b : List Byte} (pregs : L .regs = true) (pglb : L .glb = true) (ppstate : L .pstate = true) (prad : L .rad = true) (pfhp : L .fhp = true) (pcas : L .cas = true) (pacq : L .acq = true) (K : Kept L s₀ s) : Kept L s₀ (burstReq k q tag b s) := by
  unfold burstReq; try dsimp only
  repeat' first | with_reducible assumption | with_reducible apply flockNak_keeps | with_reducible apply flockViol_keeps | with_reducible apply flockBurst_keeps | split | intro
theorem capsReq_keeps {k : Nat} {q : Nat} {tag : Nat} {b : List Byte} (pregs : L .regs = true) (pfhp : L .fhp = true) (K : Kept L s₀ s) : Kept L s₀ (capsReq k q tag b s) := by
  unfold capsReq; try dsimp only
  repeat' first | with_reducible assumption | with_reducible apply post_keeps | with_reducible apply modFlock_keeps | split | intro
theorem ctrlBody_keeps {msg : Nat} {k : Nat} {q : Nat} {tag : Nat} {b : List Byte} (pregs : L .regs = true) (pglb : L .glb = true) (ppstate : L .pstate = true) (pskn : L .skn = true) (prad : L .rad = true) (pfhp : L .fhp = true) (pcas : L .cas = true) (pacq : L .acq = true) (K : Kept L s₀ s) : Kept L s₀ (ctrlBody msg k q tag b s) := by
  unfold ctrlBody; try dsimp only
  repeat' first | with_reducible assumption | with_reducible apply capsReq_keeps | with_reducible apply burstReq_keeps | with_reducible apply swapReq_keeps | with_reducible apply skeinWriteReq_keeps | with_reducible apply withdrawReq_keeps | with_reducible apply releaseReq_keeps | with_reducible apply admitReq_keeps | split | intro
theorem ctrlMsg_keeps {hdr : Bool} {msg : Nat} {k : Nat} {q : Nat} {tag : Nat} {b : List Byte} (pregs : L .regs = true) (pglb : L .glb = true) (ppstate : L .pstate = true) (pskn : L .skn = true) (prad : L .rad = true) (pfhp : L .fhp = true) (pcas : L .cas = true) (pacq : L .acq = true) (K : Kept L s₀ s) : Kept L s₀ (ctrlMsg hdr msg k q tag b s) := by
  unfold ctrlMsg; try dsimp only
  repeat' first | with_reducible assumption | with_reducible apply ctrlBody_keeps | with_reducible apply police_keeps | with_reducible apply nakViol_keeps | split | (with_reducible refine Kept.pair1 (by assumption) ?_) | (with_reducible refine Kept.pair2 (by assumption) ?_) | intro
theorem ecpriRx_keeps {q : Nat} {k : Nat} {at_ : Nat} {p : List Byte} (pregs : L .regs = true) (pglb : L .glb = true) (ppstate : L .pstate = true) (pskn : L .skn = true) (prad : L .rad = true) (pfhp : L .fhp = true) (ptim : L .tim = true) (pcas : L .cas = true) (pacq : L .acq = true) (K : Kept L s₀ s) : Kept L s₀ (ecpriRx q k at_ p s) := by
  unfold ecpriRx; try dsimp only
  repeat' first | with_reducible assumption | with_reducible apply ctrlMsg_keeps | with_reducible apply measurement_keeps | with_reducible apply iqSection_keeps | with_reducible apply checkSeq_keeps | with_reducible apply flockViol_keeps | split | intro
theorem quarantineOn_keeps {k : Nat} (pregs : L .regs = true) (pfhp : L .fhp = true) (pacq : L .acq = true) (K : Kept L s₀ s) : Kept L s₀ (quarantineOn k s) := by
  unfold quarantineOn; try dsimp only
  repeat' first | with_reducible assumption | with_reducible apply flockEvent_keeps | with_reducible apply notice_keeps | with_reducible apply raise_keeps | with_reducible apply modFlock_keeps | split | intro
theorem quarantineOff_keeps {k : Nat} (pregs : L .regs = true) (pfhp : L .fhp = true) (K : Kept L s₀ s) : Kept L s₀ (quarantineOff k s) := by
  unfold quarantineOff; try dsimp only
  repeat' first | with_reducible assumption | with_reducible apply notice_keeps | with_reducible apply raise_keeps | with_reducible apply modFlock_keeps | split | intro
theorem flushTick_keeps  (pfhp : L .fhp = true) (K : Kept L s₀ s) : Kept L s₀ (flushTick s) := by
  unfold flushTick; try dsimp only
  repeat' first | with_reducible assumption | with_reducible apply flushFlock_keeps | with_reducible apply forAll_keeps | split | intro
theorem fhpStage3_keeps  (pfhp : L .fhp = true) (K : Kept L s₀ s) : Kept L s₀ (fhpStage3 s) := by
  unfold fhpStage3; try dsimp only
  repeat' first | with_reducible assumption | with_reducible apply modFhp_keeps | split | intro

/-! ### Machine/Tim.lean -/

theorem watchLock_keeps {f : State → State} (hf : ∀  t, Kept L s₀ t → Kept L s₀ (f  t)) (pregs : L .regs = true) (pglb : L .glb = true) (ppstate : L .pstate = true) (prad : L .rad = true) (pfhp : L .fhp = true) (pcas : L .cas = true) (K : Kept L s₀ s) : Kept L s₀ (watchLock f s) := by
  unfold watchLock; try dsimp only
  repeat' first | with_reducible assumption | with_reducible apply hf | with_reducible apply timeLost_keeps | split | intro
theorem goTime_keeps {new : Tb0State} (pregs : L .regs = true) (pglb : L .glb = true) (ppstate : L .pstate = true) (prad : L .rad = true) (pfhp : L .fhp = true) (ptim : L .tim = true) (pcas : L .cas = true) (K : Kept L s₀ s) : Kept L s₀ (goTime new s) := by
  unfold goTime; try dsimp only
  repeat' first | with_reducible assumption | with_reducible apply watchLock_keeps | with_reducible apply raise_keeps | with_reducible apply modTim_keeps | split | intro
theorem dropStep_keeps  (pcas : L .cas = true) (K : Kept L s₀ s) : Kept L s₀ (dropStep s) := by
  unfold dropStep; try dsimp only
  repeat' first | with_reducible assumption | with_reducible apply modCas_keeps | split | intro
theorem acquire_keeps  (pregs : L .regs = true) (pglb : L .glb = true) (ppstate : L .pstate = true) (prad : L .rad = true) (pfhp : L .fhp = true) (ptim : L .tim = true) (pcas : L .cas = true) (K : Kept L s₀ s) : Kept L s₀ (acquire s) := by
  unfold acquire; try dsimp only
  repeat' first | with_reducible assumption | with_reducible apply dropStep_keeps | with_reducible apply goTime_keeps | with_reducible apply modTim_keeps | split | intro
theorem timStart_keeps  (pregs : L .regs = true) (pglb : L .glb = true) (ppstate : L .pstate = true) (prad : L .rad = true) (pfhp : L .fhp = true) (ptim : L .tim = true) (pcas : L .cas = true) (K : Kept L s₀ s) : Kept L s₀ (timStart s) := by
  unfold timStart; try dsimp only
  repeat' first | with_reducible assumption | with_reducible apply acquire_keeps | split | intro
theorem timDoze_keeps  (pregs : L .regs = true) (pglb : L .glb = true) (ppstate : L .pstate = true) (prad : L .rad = true) (pfhp : L .fhp = true) (ptim : L .tim = true) (pcas : L .cas = true) (K : Kept L s₀ s) : Kept L s₀ (timDoze s) := by
  unfold timDoze; try dsimp only
  repeat' first | with_reducible assumption | with_reducible apply dropStep_keeps | with_reducible apply goTime_keeps | split | intro
theorem stepSwaps_keeps {d : Int} (pskn : L .skn = true) (pdpd : L .dpd = true) (K : Kept L s₀ s) : Kept L s₀ (stepSwaps d s) := by
  unfold stepSwaps; try dsimp only
  repeat' first | with_reducible assumption | (with_reducible exact fun h => h) | exact fun _ => twf_nil | with_reducible apply modDpd_keeps | with_reducible apply modSkn_keeps | split | intro
theorem stepGroups_keeps {d : Int} (prad : L .rad = true) (K : Kept L s₀ s) : Kept L s₀ (stepGroups d s) := by
  unfold stepGroups; try dsimp only
  repeat' first | with_reducible assumption | with_reducible apply modRad_keeps | split | intro
theorem stepTime_keeps {d : Int} (ptime : L .time = true) (pregs : L .regs = true) (pglb : L .glb = true) (pnvs : L .nvs = true) (ppstate : L .pstate = true) (ppaths : L .paths = true) (psyn : L .syn = true) (pskn : L .skn = true) (pfft : L .fft = true) (pdpd : L .dpd = true) (prad : L .rad = true) (pfhp : L .fhp = true) (pcas : L .cas = true) (pacq : L .acq = true) (K : Kept L s₀ s) : Kept L s₀ (stepTime d s) := by
  unfold stepTime; try dsimp only
  repeat' first | with_reducible assumption | with_reducible apply stepGroups_keeps | with_reducible apply stepSwaps_keeps | with_reducible apply epochEndAt_keeps | with_reducible apply markStep_keeps | with_reducible apply modTime_keeps | split | intro
theorem takeStep_keeps  (ptime : L .time = true) (pregs : L .regs = true) (pglb : L .glb = true) (pnvs : L .nvs = true) (ppstate : L .pstate = true) (ppaths : L .paths = true) (psyn : L .syn = true) (pskn : L .skn = true) (pfft : L .fft = true) (pdpd : L .dpd = true) (prad : L .rad = true) (pfhp : L .fhp = true) (ptim : L .tim = true) (pcas : L .cas = true) (pacq : L .acq = true) (K : Kept L s₀ s) : Kept L s₀ (takeStep s) := by
  unfold takeStep; try dsimp only
  repeat' first | with_reducible assumption | with_reducible apply stepTime_keeps | with_reducible apply raise_keeps | with_reducible apply modCas_keeps | with_reducible apply modTim_keeps | split | intro
theorem correctRate_keeps {o : Int} (ptim : L .tim = true) (prnd : L .rnd = true) (K : Kept L s₀ s) : Kept L s₀ (correctRate o s) := by
  unfold correctRate; try dsimp only
  repeat' first | with_reducible assumption | with_reducible apply draw_keeps | with_reducible apply modTim_keeps | split | (with_reducible refine Kept.pair1 (by assumption) ?_) | (with_reducible refine Kept.pair2 (by assumption) ?_) | intro
theorem guardedOffset_keeps  (pregs : L .regs = true) (pglb : L .glb = true) (ppstate : L .pstate = true) (prad : L .rad = true) (pfhp : L .fhp = true) (ptim : L .tim = true) (pcas : L .cas = true) (K : Kept L s₀ s) : Kept L s₀ (guardedOffset s) := by
  unfold guardedOffset; try dsimp only
  repeat' first | with_reducible assumption | with_reducible apply goTime_keeps | with_reducible apply modTim_keeps | split | intro
theorem appliedOffset_keeps {o : Int} (pregs : L .regs = true) (pglb : L .glb = true) (ppstate : L .pstate = true) (prad : L .rad = true) (pfhp : L .fhp = true) (ptim : L .tim = true) (pcas : L .cas = true) (prnd : L .rnd = true) (K : Kept L s₀ s) : Kept L s₀ (appliedOffset o s) := by
  unfold appliedOffset; try dsimp only
  repeat' first | with_reducible assumption | with_reducible apply correctRate_keeps | with_reducible apply goTime_keeps | with_reducible apply modTim_keeps | split | intro
theorem servoAfter_keeps {jump : State → State} {o : Int} (hjump : ∀  t, Kept L s₀ t → Kept L s₀ (jump  t)) (pregs : L .regs = true) (pglb : L .glb = true) (ppstate : L .pstate = true) (prad : L .rad = true) (pfhp : L .fhp = true) (ptim : L .tim = true) (pcas : L .cas = true) (prnd : L .rnd = true) (K : Kept L s₀ s) : Kept L s₀ (servoAfter jump o s) := by
  unfold servoAfter; try dsimp only
  repeat' first | with_reducible assumption | with_reducible apply hjump | with_reducible apply appliedOffset_keeps | with_reducible apply guardedOffset_keeps | with_reducible apply goTime_keeps | with_reducible apply modTim_keeps | split | intro
theorem servo_keeps {jump : State → State} {o : Int} (hjump : ∀  t, Kept L s₀ t → Kept L s₀ (jump  t)) (ptime : L .time = true) (pregs : L .regs = true) (pglb : L .glb = true) (pnvs : L .nvs = true) (ppstate : L .pstate = true) (ppaths : L .paths = true) (psyn : L .syn = true) (pskn : L .skn = true) (pfft : L .fft = true) (pdpd : L .dpd = true) (prad : L .rad = true) (pfhp : L .fhp = true) (ptim : L .tim = true) (pcas : L .cas = true) (pacq : L .acq = true) (prnd : L .rnd = true) (K : Kept L s₀ s) : Kept L s₀ (servo jump o s) := by
  unfold servo; try dsimp only
  repeat' first | with_reducible assumption | with_reducible apply hjump | with_reducible apply servoAfter_keeps | with_reducible apply takeStep_keeps | with_reducible apply modTim_keeps | split | intro
theorem modPtp_keeps {q : Nat} {f : PtpPort → PtpPort} (ptim : L .tim = true) (K : Kept L s₀ s) : Kept L s₀ (modPtp q f s) := by
  unfold modPtp; try dsimp only
  repeat' first | with_reducible assumption | with_reducible apply modTim_keeps | split | intro
theorem modPeer_keeps {q : Nat} {id : Nat} {num : Nat} {f : Peer → Peer} (ptim : L .tim = true) (K : Kept L s₀ s) : Kept L s₀ (modPeer q id num f s) := by
  unfold modPeer; try dsimp only
  repeat' first | with_reducible assumption | with_reducible apply modPtp_keeps | split | intro
theorem lengthsOff_keeps  (pregs : L .regs = true) (K : Kept L s₀ s) : Kept L s₀ (lengthsOff s) := by
  unfold lengthsOff; try dsimp only
  repeat' first | with_reducible assumption | with_reducible apply setFld_keeps | with_reducible apply forAll_keeps | split | intro
theorem bmca_keeps  (pregs : L .regs = true) (pglb : L .glb = true) (ppstate : L .pstate = true) (prad : L .rad = true) (pfhp : L .fhp = true) (ptim : L .tim = true) (pcas : L .cas = true) (K : Kept L s₀ s) : Kept L s₀ (bmca s) := by
  unfold bmca; try dsimp only
  repeat' first | with_reducible assumption | with_reducible apply lengthsOff_keeps | with_reducible apply goTime_keeps | with_reducible apply raise_keeps | with_reducible apply modTim_keeps | split | intro
theorem quarantinePeer_keeps {q : Nat} {id : Nat} {num : Nat} (pregs : L .regs = true) (pglb : L .glb = true) (ppstate : L .pstate = true) (prad : L .rad = true) (pfhp : L .fhp = true) (ptim : L .tim = true) (pcas : L .cas = true) (K : Kept L s₀ s) : Kept L s₀ (quarantinePeer q id num s) := by
  unfold quarantinePeer; try dsimp only
  repeat' first | with_reducible assumption | with_reducible apply bmca_keeps | with_reducible apply modPeer_keeps | with_reducible apply goTime_keeps | with_reducible apply raise_keeps | split | intro
theorem ptpViol_keeps {q : Nat} {id : Nat} {num : Nat} {cls : Nat} (pregs : L .regs = true) (pglb : L .glb = true) (ppstate : L .pstate = true) (prad : L .rad = true) (pfhp : L .fhp = true) (ptim : L .tim = true) (pcas : L .cas = true) (K : Kept L s₀ s) : Kept L s₀ (ptpViol q id num cls s) := by
  unfold ptpViol; try dsimp only
  repeat' first | with_reducible assumption | with_reducible apply quarantinePeer_keeps | with_reducible apply modPeer_keeps | with_reducible apply viol_keeps | with_reducible apply addLo_keeps | split | intro
theorem ptpPolice_keeps {q : Nat} {id : Nat} {num : Nat} {x : Peer} (pregs : L .regs = true) (pglb : L .glb = true) (ppstate : L .pstate = true) (prad : L .rad = true) (pfhp : L .fhp = true) (ptim : L .tim = true) (pcas : L .cas = true) (K : Kept L s₀ s) : Kept L s₀ (ptpPolice q id num x s) := by
  unfold ptpPolice; try dsimp only
  repeat' first | with_reducible assumption | with_reducible apply ptpViol_keeps | with_reducible apply modPeer_keeps | split | intro
theorem announceRx_keeps {q : Nat} {m : List Byte} (pregs : L .regs = true) (pglb : L .glb = true) (ppstate : L .pstate = true) (prad : L .rad = true) (pfhp : L .fhp = true) (ptim : L .tim = true) (pcas : L .cas = true) (K : Kept L s₀ s) : Kept L s₀ (announceRx q m s) := by
  unfold announceRx; try dsimp only
  repeat' first | with_reducible assumption | with_reducible apply ptpPolice_keeps | with_reducible apply bmca_keeps | with_reducible apply modPeer_keeps | with_reducible apply modTim_keeps | split | intro
theorem syncReady_keeps {q : Nat} {id : Nat} {num : Nat} {t1 : Int} {t2 : Int} (ptim : L .tim = true) (K : Kept L s₀ s) : Kept L s₀ (syncReady q id num t1 t2 s) := by
  unfold syncReady; try dsimp only
  repeat' first | with_reducible assumption | with_reducible apply modTim_keeps | split | intro
theorem syncRx_keeps {q : Nat} {t2 : Int} {m : List Byte} (pregs : L .regs = true) (pglb : L .glb = true) (ppstate : L .pstate = true) (prad : L .rad = true) (pfhp : L .fhp = true) (ptim : L .tim = true) (pcas : L .cas = true) (K : Kept L s₀ s) : Kept L s₀ (syncRx q t2 m s) := by
  unfold syncRx; try dsimp only
  repeat' first | with_reducible assumption | with_reducible apply syncReady_keeps | with_reducible apply ptpPolice_keeps | with_reducible apply ptpViol_keeps | with_reducible apply modPeer_keeps | with_reducible apply addHi_keeps | split | intro
theorem followUpRx_keeps {q : Nat} {m : List Byte} (pregs : L .regs = true) (pglb : L .glb = true) (ppstate : L .pstate = true) (prad : L .rad = true) (pfhp : L .fhp = true) (ptim : L .tim = true) (pcas : L .cas = true) (K : Kept L s₀ s) : Kept L s₀ (followUpRx q m s) := by
  unfold followUpRx; try dsimp only
  repeat' first | with_reducible assumption | with_reducible apply syncReady_keeps | with_reducible apply ptpViol_keeps | with_reducible apply modPeer_keeps | split | intro
theorem setLength_keeps {q : Nat} {d : Int} (pregs : L .regs = true) (K : Kept L s₀ s) : Kept L s₀ (setLength q d s) := by
  unfold setLength; try dsimp only
  repeat' first | with_reducible assumption | with_reducible apply setFld_keeps | with_reducible apply setReg_keeps | split | intro
theorem exchange_keeps {q : Nat} {id : Nat} {num : Nat} {t1 : Int} {t2 : Int} {t3 : Int} {t4 : Int} (ptime : L .time = true) (pregs : L .regs = true) (pglb : L .glb = true) (pnvs : L .nvs = true) (ppstate : L .pstate = true) (ppaths : L .paths = true) (psyn : L .syn = true) (pskn : L .skn = true) (pfft : L .fft = true) (pdpd : L .dpd = true) (prad : L .rad = true) (pfhp : L .fhp = true) (ptim : L .tim = true) (pcas : L .cas = true) (pacq : L .acq = true) (prnd : L .rnd = true) (K : Kept L s₀ s) : Kept L s₀ (exchange q id num t1 t2 t3 t4 s) := by
  unfold exchange; try dsimp only
  repeat' first | with_reducible assumption | with_reducible apply setLength_keeps | with_reducible apply ptpViol_keeps | with_reducible apply servo_keeps | with_reducible apply setReg_keeps | with_reducible apply modTim_keeps | split | intro
theorem delayRespRx_keeps {q : Nat} {m : List Byte} (ptime : L .time = true) (pregs : L .regs = true) (pglb : L .glb = true) (pnvs : L .nvs = true) (ppstate : L .pstate = true) (ppaths : L .paths = true) (psyn : L .syn = true) (pskn : L .skn = true) (pfft : L .fft = true) (pdpd : L .dpd = true) (prad : L .rad = true) (pfhp : L .fhp = true) (ptim : L .tim = true) (pcas : L .cas = true) (pacq : L .acq = true) (prnd : L .rnd = true) (K : Kept L s₀ s) : Kept L s₀ (delayRespRx q m s) := by
  unfold delayRespRx; try dsimp only
  repeat' first | with_reducible assumption | with_reducible apply exchange_keeps | with_reducible apply ptpViol_keeps | with_reducible apply modPtp_keeps | split | intro
theorem ptpRx_keeps {q : Nat} {fine : Fin 16} {m : List Byte} (ptime : L .time = true) (pregs : L .regs = true) (pglb : L .glb = true) (pnvs : L .nvs = true) (ppstate : L .pstate = true) (ppaths : L .paths = true) (psyn : L .syn = true) (pskn : L .skn = true) (pfft : L .fft = true) (pdpd : L .dpd = true) (prad : L .rad = true) (pfhp : L .fhp = true) (ptim : L .tim = true) (pcas : L .cas = true) (pacq : L .acq = true) (prnd : L .rnd = true) (K : Kept L s₀ s) : Kept L s₀ (ptpRx q fine m s) := by
  unfold ptpRx; try dsimp only
  repeat' first | with_reducible assumption | with_reducible apply delayRespRx_keeps | with_reducible apply followUpRx_keeps | with_reducible apply syncRx_keeps | with_reducible apply announceRx_keeps | with_reducible apply ptpViol_keeps | with_reducible apply modPeer_keeps | with_reducible apply viol_keeps | with_reducible apply addLo_keeps | split | intro
theorem delayReqSend_keeps {q : Nat} {fine : Fin 16} (pregs : L .regs = true) (pfhp : L .fhp = true) (ptim : L .tim = true) (K : Kept L s₀ s) : Kept L s₀ (delayReqSend q fine s) := by
  unfold delayReqSend; try dsimp only
  repeat' first | with_reducible assumption | with_reducible apply modPtp_keeps | with_reducible apply txtsPush_keeps | with_reducible apply wireOut_keeps | with_reducible apply addLo_keeps | split | intro
theorem announceTimeout_keeps  (pregs : L .regs = true) (pglb : L .glb = true) (ppstate : L .pstate = true) (prad : L .rad = true) (pfhp : L .fhp = true) (ptim : L .tim = true) (pcas : L .cas = true) (K : Kept L s₀ s) : Kept L s₀ (announceTimeout s) := by
  unfold announceTimeout; try dsimp only
  repeat' first | with_reducible assumption | with_reducible apply bmca_keeps | with_reducible apply modPeer_keeps | with_reducible apply goTime_keeps | split | intro
theorem followUpTimeout_keeps {q : Nat} {id : Nat} {num : Nat} (pregs : L .regs = true) (pglb : L .glb = true) (ppstate : L .pstate = true) (prad : L .rad = true) (pfhp : L .fhp = true) (ptim : L .tim = true) (pcas : L .cas = true) (K : Kept L s₀ s) : Kept L s₀ (followUpTimeout q id num s) := by
  unfold followUpTimeout; try dsimp only
  repeat' first | with_reducible assumption | with_reducible apply ptpViol_keeps | with_reducible apply modPeer_keeps | split | intro
theorem peerRelease_keeps {q : Nat} {id : Nat} {num : Nat} (pregs : L .regs = true) (pglb : L .glb = true) (ppstate : L .pstate = true) (prad : L .rad = true) (pfhp : L .fhp = true) (ptim : L .tim = true) (pcas : L .cas = true) (K : Kept L s₀ s) : Kept L s₀ (peerRelease q id num s) := by
  unfold peerRelease; try dsimp only
  repeat' first | with_reducible assumption | with_reducible apply bmca_keeps | with_reducible apply modPeer_keeps | split | intro
theorem rearm_keeps  (pregs : L .regs = true) (pglb : L .glb = true) (ppstate : L .pstate = true) (prad : L .rad = true) (pfhp : L .fhp = true) (ptim : L .tim = true) (pcas : L .cas = true) (K : Kept L s₀ s) : Kept L s₀ (rearm s) := by
  unfold rearm; try dsimp only
  repeat' first | with_reducible assumption | with_reducible apply acquire_keeps | with_reducible apply allBurstsOut_keeps | with_reducible apply refusedWrite_keeps | split | intro
theorem snapBase_keeps {b : Nat} {t : Nat} (pregs : L .regs = true) (K : Kept L s₀ s) : Kept L s₀ (snapBase b t s) := by
  unfold snapBase; try dsimp only
  repeat' first | with_reducible assumption | with_reducible apply setReg_keeps | split | intro
theorem snapshot_keeps  (pregs : L .regs = true) (K : Kept L s₀ s) : Kept L s₀ (snapshot s) := by
  unfold snapshot; try dsimp only
  repeat' first | with_reducible assumption | with_reducible apply snapBase_keeps | split | intro
theorem tb3Decouple_keeps  (ptime : L .time = true) (K : Kept L s₀ s) : Kept L s₀ (tb3Decouple s) := by
  unfold tb3Decouple; try dsimp only
  repeat' first | with_reducible assumption | with_reducible apply modTime_keeps | split | intro
theorem tb3Recouple_keeps  (ptime : L .time = true) (pregs : L .regs = true) (pacq : L .acq = true) (K : Kept L s₀ s) : Kept L s₀ (tb3Recouple s) := by
  unfold tb3Recouple; try dsimp only
  repeat' first | with_reducible assumption | with_reducible apply markTb3Step_keeps | with_reducible apply raise_keeps | with_reducible apply modTime_keeps | split | intro
theorem timCtrlWrite_keeps {w : Word} (ptime : L .time = true) (pregs : L .regs = true) (pglb : L .glb = true) (ppstate : L .pstate = true) (prad : L .rad = true) (pfhp : L .fhp = true) (ptim : L .tim = true) (pcas : L .cas = true) (pacq : L .acq = true) (K : Kept L s₀ s) : Kept L s₀ (timCtrlWrite w s) := by
  unfold timCtrlWrite; try dsimp only
  repeat' first | with_reducible assumption | with_reducible apply tb3Recouple_keeps | with_reducible apply tb3Decouple_keeps | with_reducible apply snapshot_keeps | with_reducible apply rearm_keeps | with_reducible apply whenB_keeps | split | intro
theorem txtsPop_keeps {q : Nat} (ptim : L .tim = true) (K : Kept L s₀ s) : Kept L s₀ (txtsPop q s) := by
  unfold txtsPop; try dsimp only
  repeat' first | with_reducible assumption | with_reducible apply modPtp_keeps | split | intro
theorem txtsClear_keeps {q : Nat} (ptim : L .tim = true) (K : Kept L s₀ s) : Kept L s₀ (txtsClear q s) := by
  unfold txtsClear; try dsimp only
  repeat' first | with_reducible assumption | with_reducible apply modPtp_keeps | split | intro
theorem txtsPopWrite_keeps {q : Nat} {w : Word} (ptim : L .tim = true) (K : Kept L s₀ s) : Kept L s₀ (txtsPopWrite q w s) := by
  unfold txtsPopWrite; try dsimp only
  repeat' first | with_reducible assumption | with_reducible apply txtsClear_keeps | with_reducible apply txtsPop_keeps | with_reducible apply whenB_keeps | split | intro
theorem timAsymWrite_keeps {q : Nat} {w : Word} (pregs : L .regs = true) (ptim : L .tim = true) (K : Kept L s₀ s) : Kept L s₀ (timAsymWrite q w s) := by
  unfold timAsymWrite; try dsimp only
  repeat' first | with_reducible assumption | with_reducible apply setReg_keeps | with_reducible apply modTim_keeps | split | intro
theorem timPtpCfgWrite_keeps {w : Word} (pregs : L .regs = true) (pglb : L .glb = true) (ppstate : L .pstate = true) (prad : L .rad = true) (pfhp : L .fhp = true) (ptim : L .tim = true) (pcas : L .cas = true) (K : Kept L s₀ s) : Kept L s₀ (timPtpCfgWrite w s) := by
  unfold timPtpCfgWrite; try dsimp only
  repeat' first | with_reducible assumption | with_reducible apply bmca_keeps | with_reducible apply setReg_keeps | split | intro
theorem ppsInEdge_keeps {fine : Fin 16} (pregs : L .regs = true) (K : Kept L s₀ s) : Kept L s₀ (ppsInEdge fine s) := by
  unfold ppsInEdge; try dsimp only
  repeat' first | with_reducible assumption | with_reducible apply raise_keeps | with_reducible apply setReg_keeps | split | intro

/-! ### Machine/Syn.lean -/

theorem synTune_keeps {w : Structure} {r : Nat} (psyn : L .syn = true) (K : Kept L s₀ s) : Kept L s₀ (synTune w r s) := by
  unfold synTune; try dsimp only
  repeat' first | with_reducible assumption | with_reducible apply modRole_keeps | with_reducible apply modUnit_keeps | split | intro
theorem synTuneAll_keeps {w : Structure} (psyn : L .syn = true) (K : Kept L s₀ s) : Kept L s₀ (synTuneAll w s) := by
  unfold synTuneAll; try dsimp only
  repeat' first | with_reducible assumption | with_reducible apply synTune_keeps | with_reducible apply modUnit_keeps | split | intro
theorem setRefValid_keeps {b : Bool} {v : Bool} (psyn : L .syn = true) (K : Kept L s₀ s) : Kept L s₀ (setRefValid b v s) := by
  unfold setRefValid; try dsimp only
  repeat' first | with_reducible assumption | with_reducible apply modSyn_keeps | split | intro
theorem refSwitch_keeps {b : Bool} (pregs : L .regs = true) (psyn : L .syn = true) (K : Kept L s₀ s) : Kept L s₀ (refSwitch b s) := by
  unfold refSwitch; try dsimp only
  repeat' first | with_reducible assumption | with_reducible apply addByte_keeps | with_reducible apply raise_keeps | with_reducible apply modSyn_keeps | split | intro
theorem refLost_keeps  (pregs : L .regs = true) (psyn : L .syn = true) (K : Kept L s₀ s) : Kept L s₀ (refLost s) := by
  unfold refLost; try dsimp only
  repeat' first | with_reducible assumption | with_reducible apply refSwitch_keeps | with_reducible apply setRefValid_keeps | with_reducible apply raise_keeps | with_reducible apply modSyn_keeps | split | intro
theorem refCheck_keeps {b : Bool} {ok : Bool} (pregs : L .regs = true) (psyn : L .syn = true) (K : Kept L s₀ s) : Kept L s₀ (refCheck b ok s) := by
  unfold refCheck; try dsimp only
  repeat' first | with_reducible assumption | with_reducible apply refSwitch_keeps | with_reducible apply setRefValid_keeps | with_reducible apply modSyn_keeps | split | intro
theorem refCfgWrite_keeps {w : Word} (pregs : L .regs = true) (pglb : L .glb = true) (ppaths : L .paths = true) (psyn : L .syn = true) (pdpd : L .dpd = true) (pfhp : L .fhp = true) (K : Kept L s₀ s) : Kept L s₀ (refCfgWrite w s) := by
  unfold refCfgWrite; try dsimp only
  repeat' first | with_reducible assumption | with_reducible apply refSwitch_keeps | with_reducible apply watchRoles_keeps | with_reducible apply raise_keeps | with_reducible apply setFld_keeps | split | intro
theorem markResume_keeps {r : Nat} (psyn : L .syn = true) (K : Kept L s₀ s) : Kept L s₀ (markResume r s) := by
  unfold markResume; try dsimp only
  repeat' first | with_reducible assumption | with_reducible apply modRole_keeps | split | intro
theorem beginSwap_keeps {r : Nat} (psyn : L .syn = true) (K : Kept L s₀ s) : Kept L s₀ (beginSwap r s) := by
  unfold beginSwap; try dsimp only
  repeat' first | with_reducible assumption | with_reducible apply modRole_keeps | with_reducible apply modUnit_keeps | with_reducible apply modSyn_keeps | split | intro
theorem calBegin_keeps {r : Nat} {force : Bool} (pregs : L .regs = true) (pglb : L .glb = true) (ppaths : L .paths = true) (psyn : L .syn = true) (pdpd : L .dpd = true) (prad : L .rad = true) (pfhp : L .fhp = true) (pcas : L .cas = true) (K : Kept L s₀ s) : Kept L s₀ (calBegin r force s) := by
  unfold calBegin; try dsimp only
  repeat' first | with_reducible assumption | with_reducible apply cutLost_keeps | with_reducible apply watchRoles_keeps | with_reducible apply modRole_keeps | with_reducible apply modUnit_keeps | split | intro
theorem swapBegin_keeps {r : Nat} {force : Bool} (pregs : L .regs = true) (pglb : L .glb = true) (ppaths : L .paths = true) (psyn : L .syn = true) (pdpd : L .dpd = true) (prad : L .rad = true) (pfhp : L .fhp = true) (pcas : L .cas = true) (K : Kept L s₀ s) : Kept L s₀ (swapBegin r force s) := by
  unfold swapBegin; try dsimp only
  repeat' first | with_reducible assumption | with_reducible apply beginSwap_keeps | with_reducible apply cutLost_keeps | with_reducible apply watchRoles_keeps | with_reducible apply modRole_keeps | split | intro
theorem gapStart_keeps {r : Nat} (pregs : L .regs = true) (pglb : L .glb = true) (ppaths : L .paths = true) (psyn : L .syn = true) (pdpd : L .dpd = true) (prad : L .rad = true) (pfhp : L .fhp = true) (pcas : L .cas = true) (K : Kept L s₀ s) : Kept L s₀ (gapStart r s) := by
  unfold gapStart; try dsimp only
  repeat' first | with_reducible assumption | with_reducible apply swapBegin_keeps | with_reducible apply calBegin_keeps | split | intro
theorem jobsResume_keeps  (pregs : L .regs = true) (pglb : L .glb = true) (ppaths : L .paths = true) (psyn : L .syn = true) (pdpd : L .dpd = true) (prad : L .rad = true) (pfhp : L .fhp = true) (pcas : L .cas = true) (K : Kept L s₀ s) : Kept L s₀ (jobsResume s) := by
  unfold jobsResume; try dsimp only
  repeat' first | with_reducible assumption | with_reducible apply gapStart_keeps | split | intro
theorem roleLost_keeps {r : Nat} (pregs : L .regs = true) (pglb : L .glb = true) (pnvs : L .nvs = true) (ppstate : L .pstate = true) (ppaths : L .paths = true) (psyn : L .syn = true) (pdpd : L .dpd = true) (prad : L .rad = true) (pfhp : L .fhp = true) (pcas : L .cas = true) (K : Kept L s₀ s) : Kept L s₀ (roleLost r s) := by
  unfold roleLost; try dsimp only
  repeat' first | with_reducible assumption | with_reducible apply calLoseRole_keeps | with_reducible apply cutLost_keeps | with_reducible apply surveyAbortIf_keeps | split | intro
theorem failedSwap_keeps {r : Nat} {u : Nat} (pregs : L .regs = true) (pglb : L .glb = true) (ppaths : L .paths = true) (psyn : L .syn = true) (pdpd : L .dpd = true) (pfhp : L .fhp = true) (K : Kept L s₀ s) : Kept L s₀ (failedSwap r u s) := by
  unfold failedSwap; try dsimp only
  repeat' first | with_reducible assumption | with_reducible apply beginSwap_keeps | with_reducible apply watchRoles_keeps | with_reducible apply modRole_keeps | with_reducible apply modUnit_keeps | split | intro
theorem unitFailed_keeps {u : Nat} (pregs : L .regs = true) (pglb : L .glb = true) (ppaths : L .paths = true) (psyn : L .syn = true) (pdpd : L .dpd = true) (pfhp : L .fhp = true) (K : Kept L s₀ s) : Kept L s₀ (unitFailed u s) := by
  unfold unitFailed; try dsimp only
  repeat' first | with_reducible assumption | with_reducible apply failedSwap_keeps | with_reducible apply logPut_keeps | with_reducible apply modSyn_keeps | split | intro
theorem lossOfLock_keeps {u : Nat} (pregs : L .regs = true) (pglb : L .glb = true) (pnvs : L .nvs = true) (ppstate : L .pstate = true) (ppaths : L .paths = true) (psyn : L .syn = true) (pdpd : L .dpd = true) (prad : L .rad = true) (pfhp : L .fhp = true) (pcas : L .cas = true) (K : Kept L s₀ s) : Kept L s₀ (lossOfLock u s) := by
  unfold lossOfLock; try dsimp only
  repeat' first | with_reducible assumption | with_reducible apply unitFailed_keeps | with_reducible apply roleLost_keeps | with_reducible apply watchRoles_keeps | with_reducible apply event_keeps | with_reducible apply addByte_keeps | with_reducible apply modRole_keeps | with_reducible apply modUnit_keeps | split | intro
theorem cnvLost_keeps  (pregs : L .regs = true) (pglb : L .glb = true) (pnvs : L .nvs = true) (ppstate : L .pstate = true) (ppaths : L .paths = true) (psyn : L .syn = true) (pdpd : L .dpd = true) (prad : L .rad = true) (pfhp : L .fhp = true) (pcas : L .cas = true) (K : Kept L s₀ s) : Kept L s₀ (cnvLost s) := by
  unfold cnvLost; try dsimp only
  repeat' first | with_reducible assumption | with_reducible apply roleLost_keeps | with_reducible apply watchRoles_keeps | with_reducible apply event_keeps | with_reducible apply addByte_keeps | with_reducible apply modSyn_keeps | split | intro
theorem latchLo_keeps {x : LatchOf} (pregs : L .regs = true) (pglb : L .glb = true) (ppaths : L .paths = true) (psyn : L .syn = true) (pdpd : L .dpd = true) (pfhp : L .fhp = true) (K : Kept L s₀ s) : Kept L s₀ (latchLo x s) := by
  unfold latchLo; try dsimp only
  repeat' first | with_reducible assumption | with_reducible apply watchRoles_keeps | with_reducible apply event_keeps | with_reducible apply modRole_keeps | with_reducible apply modSyn_keeps | split | intro
theorem lockDeclared_keeps {loop : LockLoop} (pregs : L .regs = true) (pglb : L .glb = true) (ppwr : L .pwr = true) (ppaths : L .paths = true) (psyn : L .syn = true) (pdpd : L .dpd = true) (prad : L .rad = true) (pfhp : L .fhp = true) (pcas : L .cas = true) (K : Kept L s₀ s) : Kept L s₀ (lockDeclared loop s) := by
  unfold lockDeclared; try dsimp only
  repeat' first | with_reducible assumption | with_reducible apply jobsResume_keeps | with_reducible apply markResume_keeps | with_reducible apply setRefValid_keeps | with_reducible apply watchRoles_keeps | with_reducible apply modUnit_keeps | with_reducible apply modSyn_keeps | with_reducible apply modPwr_keeps | split | intro
theorem resumeRole_keeps {r : Nat} (psyn : L .syn = true) (K : Kept L s₀ s) : Kept L s₀ (resumeRole r s) := by
  unfold resumeRole; try dsimp only
  repeat' first | with_reducible assumption | with_reducible apply modRole_keeps | split | intro
theorem resumeCnv_keeps  (psyn : L .syn = true) (K : Kept L s₀ s) : Kept L s₀ (resumeCnv s) := by
  unfold resumeCnv; try dsimp only
  repeat' first | with_reducible assumption | with_reducible apply modSyn_keeps | split | intro
theorem vcocal_keeps {r : Nat} {force : Bool} (pregs : L .regs = true) (pglb : L .glb = true) (ppaths : L .paths = true) (psyn : L .syn = true) (pdpd : L .dpd = true) (prad : L .rad = true) (pfhp : L .fhp = true) (pcas : L .cas = true) (K : Kept L s₀ s) : Kept L s₀ (vcocal r force s) := by
  unfold vcocal; try dsimp only
  repeat' first | with_reducible assumption | with_reducible apply calBegin_keeps | with_reducible apply modRole_keeps | split | intro
theorem swapRole_keeps {r : Nat} {force : Bool} (pregs : L .regs = true) (pglb : L .glb = true) (ppaths : L .paths = true) (psyn : L .syn = true) (pdpd : L .dpd = true) (prad : L .rad = true) (pfhp : L .fhp = true) (pcas : L .cas = true) (K : Kept L s₀ s) : Kept L s₀ (swapRole r force s) := by
  unfold swapRole; try dsimp only
  repeat' first | with_reducible assumption | with_reducible apply swapBegin_keeps | with_reducible apply modRole_keeps | split | intro
theorem synCtrlWrite_keeps {w : Word} (pregs : L .regs = true) (pglb : L .glb = true) (ppaths : L .paths = true) (psyn : L .syn = true) (pdpd : L .dpd = true) (prad : L .rad = true) (pfhp : L .fhp = true) (pcas : L .cas = true) (K : Kept L s₀ s) : Kept L s₀ (synCtrlWrite w s) := by
  unfold synCtrlWrite; try dsimp only
  repeat' first | with_reducible assumption | with_reducible apply swapRole_keeps | with_reducible apply vcocal_keeps | with_reducible apply resumeCnv_keeps | with_reducible apply resumeRole_keeps | with_reducible apply whenB_keeps | split | intro
theorem vcoCalDone_keeps {u : Nat} {band : Option Nat} (pregs : L .regs = true) (pglb : L .glb = true) (ppaths : L .paths = true) (psyn : L .syn = true) (pdpd : L .dpd = true) (pfhp : L .fhp = true) (K : Kept L s₀ s) : Kept L s₀ (vcoCalDone u band s) := by
  unfold vcoCalDone; try dsimp only
  repeat' first | with_reducible assumption | with_reducible apply unitFailed_keeps | with_reducible apply markResume_keeps | with_reducible apply watchRoles_keeps | with_reducible apply modRole_keeps | with_reducible apply modUnit_keeps | with_reducible apply whenB_keeps | split | intro
theorem swapDone_keeps {r : Nat} (pregs : L .regs = true) (pglb : L .glb = true) (pnvs : L .nvs = true) (ppaths : L .paths = true) (psyn : L .syn = true) (pdpd : L .dpd = true) (pfhp : L .fhp = true) (K : Kept L s₀ s) : Kept L s₀ (swapDone r s) := by
  unfold swapDone; try dsimp only
  repeat' first | with_reducible assumption | with_reducible apply markResume_keeps | with_reducible apply watchRoles_keeps | with_reducible apply engageReserve_keeps | with_reducible apply reserveLow_keeps | with_reducible apply event_keeps | with_reducible apply modRole_keeps | with_reducible apply modUnit_keeps | with_reducible apply modSyn_keeps | split | intro
theorem reserveProving_keeps {ok : Bool} {bandA : Nat} {bandB : Nat} (pregs : L .regs = true) (pnvs : L .nvs = true) (psyn : L .syn = true) (K : Kept L s₀ s) : Kept L s₀ (reserveProving ok bandA bandB s) := by
  unfold reserveProving; try dsimp only
  repeat' first | with_reducible assumption | with_reducible apply writeReserveMap_keeps | with_reducible apply reserveLow_keeps | with_reducible apply modRole_keeps | with_reducible apply modUnit_keeps | with_reducible apply modSyn_keeps | with_reducible apply forAll_keeps | split | intro
theorem tuningLimit_keeps {u : Nat} {v : Int} {everyBand : Bool} (pregs : L .regs = true) (pglb : L .glb = true) (ppaths : L .paths = true) (psyn : L .syn = true) (pdpd : L .dpd = true) (prad : L .rad = true) (pfhp : L .fhp = true) (pcas : L .cas = true) (K : Kept L s₀ s) : Kept L s₀ (tuningLimit u v everyBand s) := by
  unfold tuningLimit; try dsimp only
  repeat' first | with_reducible assumption | with_reducible apply vcocal_keeps | with_reducible apply unitFailed_keeps | with_reducible apply modUnit_keeps | split | intro
theorem synZoneMoved_keeps  (pregs : L .regs = true) (pglb : L .glb = true) (ppaths : L .paths = true) (psyn : L .syn = true) (pdpd : L .dpd = true) (prad : L .rad = true) (pfhp : L .fhp = true) (pcas : L .cas = true) (K : Kept L s₀ s) : Kept L s₀ (synZoneMoved s) := by
  unfold synZoneMoved; try dsimp only
  repeat' first | with_reducible assumption | with_reducible apply vcocal_keeps | with_reducible apply forAll_keeps | split | intro
theorem resumeAt_keeps {g : Nat} (pregs : L .regs = true) (pglb : L .glb = true) (ppaths : L .paths = true) (psyn : L .syn = true) (pdpd : L .dpd = true) (prad : L .rad = true) (pfhp : L .fhp = true) (pcas : L .cas = true) (K : Kept L s₀ s) : Kept L s₀ (resumeAt g s) := by
  unfold resumeAt; try dsimp only
  repeat' first | with_reducible assumption | with_reducible apply jobsResume_keeps | with_reducible apply watchRoles_keeps | with_reducible apply event_keeps | with_reducible apply modRole_keeps | with_reducible apply modSyn_keeps | with_reducible apply forAll_keeps | split | intro
theorem rotTick_keeps  (psyn : L .syn = true) (K : Kept L s₀ s) : Kept L s₀ (rotTick s) := by
  unfold rotTick; try dsimp only
  repeat' first | with_reducible assumption | with_reducible apply modSyn_keeps | split | intro
theorem rotTake_keeps {tx : Bool} {f : Nat} (psyn : L .syn = true) (K : Kept L s₀ s) : Kept L s₀ (rotTake tx f s) := by
  unfold rotTake; try dsimp only
  repeat' first | with_reducible assumption | with_reducible apply modSyn_keeps | split | intro
theorem phaseWrite_keeps {f : Nat} {w : Word} (pregs : L .regs = true) (psyn : L .syn = true) (K : Kept L s₀ s) : Kept L s₀ (phaseWrite f w s) := by
  unfold phaseWrite; try dsimp only
  repeat' first | with_reducible assumption | with_reducible apply rotTake_keeps | with_reducible apply setReg_keeps | split | intro
theorem rotBoundary_keeps {g : Nat} (psyn : L .syn = true) (K : Kept L s₀ s) : Kept L s₀ (rotBoundary g s) := by
  unfold rotBoundary; try dsimp only
  repeat' first | with_reducible assumption | with_reducible apply rotTake_keeps | with_reducible apply forAll_keeps | split | intro

/-! ### Machine/Lne.lean -/

theorem modReserve_keeps {i : Nat} {f : ReserveLane → ReserveLane} (plne : L .lne = true) (K : Kept L s₀ s) : Kept L s₀ (modReserve i f s) := by
  unfold modReserve; try dsimp only
  repeat' first | with_reducible assumption | with_reducible apply modLne_keeps | split | intro
theorem laneTo_keeps {n : Nat} {st : LaneState} (plne : L .lne = true) (K : Kept L s₀ s) : Kept L s₀ (laneTo n st s) := by
  unfold laneTo; try dsimp only
  repeat' first | with_reducible assumption | with_reducible apply modLane_keeps | split | intro
theorem lanesTo_keeps {q : Nat} {st : LaneState} (plne : L .lne = true) (K : Kept L s₀ s) : Kept L s₀ (lanesTo q st s) := by
  unfold lanesTo; try dsimp only
  repeat' first | with_reducible assumption | with_reducible apply laneTo_keeps | with_reducible apply forAll_keeps | split | intro
theorem abortTest_keeps {n : Nat} (pregs : L .regs = true) (plne : L .lne = true) (K : Kept L s₀ s) : Kept L s₀ (abortTest n s) := by
  unfold abortTest; try dsimp only
  repeat' first | with_reducible assumption | with_reducible apply laneTo_keeps | with_reducible apply modReserve_keeps | with_reducible apply raise_keeps | with_reducible apply setFld_keeps | split | intro
theorem endTests_keeps {q : Nat} (pregs : L .regs = true) (plne : L .lne = true) (K : Kept L s₀ s) : Kept L s₀ (endTests q s) := by
  unfold endTests; try dsimp only
  repeat' first | with_reducible assumption | with_reducible apply abortTest_keeps | with_reducible apply forAll_keeps | split | intro
theorem leaveL0_keeps {q : Nat} (pregs : L .regs = true) (plne : L .lne = true) (K : Kept L s₀ s) : Kept L s₀ (leaveL0 q s) := by
  unfold leaveL0; try dsimp only
  repeat' first | with_reducible assumption | with_reducible apply endTests_keeps | with_reducible apply addHi_keeps | with_reducible apply raise_keeps | with_reducible apply modPort_keeps | split | intro
theorem endGap_keeps {q : Nat} (pregs : L .regs = true) (plne : L .lne = true) (pfhp : L .fhp = true) (K : Kept L s₀ s) : Kept L s₀ (endGap q s) := by
  unfold endGap; try dsimp only
  repeat' first | with_reducible assumption | with_reducible apply post_keeps | with_reducible apply raise_keeps | with_reducible apply modFlock_keeps | with_reducible apply modPort_keeps | with_reducible apply forAll_keeps | split | intro
theorem laneFrame_keeps {q : Nat} {event : Nat} {position : Nat} {reserve : Nat} (pcas : L .cas = true) (K : Kept L s₀ s) : Kept L s₀ (laneFrame q event position reserve s) := by
  unfold laneFrame; try dsimp only
  repeat' first | with_reducible assumption | with_reducible apply casSend_keeps | split | intro
theorem steer_keeps {i : Nat} {code : Nat} (plne : L .lne = true) (K : Kept L s₀ s) : Kept L s₀ (steer i code s) := by
  unfold steer; try dsimp only
  repeat' first | with_reducible assumption | with_reducible apply modLne_keeps | split | intro
theorem startSwap_keeps {q : Nat} {n : Nat} {pos : Nat} {i : Nat} {ask : Bool} (pregs : L .regs = true) (plne : L .lne = true) (pcas : L .cas = true) (K : Kept L s₀ s) : Kept L s₀ (startSwap q n pos i ask s) := by
  unfold startSwap; try dsimp only
  repeat' first | with_reducible assumption | with_reducible apply steer_keeps | with_reducible apply laneFrame_keeps | with_reducible apply leaveL0_keeps | with_reducible apply abortTest_keeps | with_reducible apply modReserve_keeps | with_reducible apply modNbr_keeps | with_reducible apply modPort_keeps | with_reducible apply modLane_keeps | split | intro
theorem retireLane_keeps {n : Nat} (plne : L .lne = true) (K : Kept L s₀ s) : Kept L s₀ (retireLane n s) := by
  unfold retireLane; try dsimp only
  repeat' first | with_reducible assumption | with_reducible apply steer_keeps | with_reducible apply modReserve_keeps | with_reducible apply modLane_keeps | split | intro
theorem portDown_keeps {q : Nat} (pregs : L .regs = true) (pglb : L .glb = true) (plne : L .lne = true) (K : Kept L s₀ s) : Kept L s₀ (portDown q s) := by
  unfold portDown; try dsimp only
  repeat' first | with_reducible assumption | with_reducible apply leaveL0_keeps | with_reducible apply event_keeps | with_reducible apply modPort_keeps | split | intro
theorem portFault_keeps {q : Nat} {n : Nat} (pregs : L .regs = true) (pglb : L .glb = true) (plne : L .lne = true) (pcas : L .cas = true) (K : Kept L s₀ s) : Kept L s₀ (portFault q n s) := by
  unfold portFault; try dsimp only
  repeat' first | with_reducible assumption | with_reducible apply portDown_keeps | with_reducible apply laneFrame_keeps | with_reducible apply modPort_keeps | split | intro
theorem failureDone_keeps {n : Nat} (plne : L .lne = true) (K : Kept L s₀ s) : Kept L s₀ (failureDone n s) := by
  unfold failureDone; try dsimp only
  repeat' first | with_reducible assumption | with_reducible apply modLne_keeps | split | intro
theorem tryFailure_keeps {n : Nat} (pregs : L .regs = true) (pglb : L .glb = true) (plne : L .lne = true) (pcas : L .cas = true) (K : Kept L s₀ s) : Kept L s₀ (tryFailure n s) := by
  unfold tryFailure; try dsimp only
  repeat' first | with_reducible assumption | with_reducible apply failureDone_keeps | with_reducible apply portFault_keeps | with_reducible apply startSwap_keeps | split | intro
theorem runFailures_keeps  (pregs : L .regs = true) (pglb : L .glb = true) (plne : L .lne = true) (pcas : L .cas = true) (K : Kept L s₀ s) : Kept L s₀ (runFailures s) := by
  unfold runFailures; try dsimp only
  repeat' first | with_reducible assumption | with_reducible apply tryFailure_keeps | with_reducible apply forAll_keeps | split | intro
theorem laneFail_keeps {n : Nat} (pregs : L .regs = true) (pglb : L .glb = true) (plne : L .lne = true) (pcas : L .cas = true) (K : Kept L s₀ s) : Kept L s₀ (laneFail n s) := by
  unfold laneFail; try dsimp only
  repeat' first | with_reducible assumption | with_reducible apply runFailures_keeps | with_reducible apply leaveL0_keeps | with_reducible apply modPort_keeps | with_reducible apply modLne_keeps | split | intro
theorem cdrLoss_keeps {n : Nat} {long : Bool} (pregs : L .regs = true) (pglb : L .glb = true) (plne : L .lne = true) (pcas : L .cas = true) (K : Kept L s₀ s) : Kept L s₀ (cdrLoss n long s) := by
  unfold cdrLoss; try dsimp only
  repeat' first | with_reducible assumption | with_reducible apply laneFail_keeps | with_reducible apply modLane_keeps | split | intro
theorem swapLane_keeps {n : Nat} (pregs : L .regs = true) (pglb : L .glb = true) (plne : L .lne = true) (pcas : L .cas = true) (K : Kept L s₀ s) : Kept L s₀ (swapLane n s) := by
  unfold swapLane; try dsimp only
  repeat' first | with_reducible assumption | with_reducible apply laneFail_keeps | with_reducible apply refusedWrite_keeps | split | intro
theorem fillDead_keeps {q : Nat} {pos : Nat} (pregs : L .regs = true) (pglb : L .glb = true) (plne : L .lne = true) (pcas : L .cas = true) (K : Kept L s₀ s) : Kept L s₀ (fillDead q pos s) := by
  unfold fillDead; try dsimp only
  repeat' first | with_reducible assumption | with_reducible apply portDown_keeps | with_reducible apply startSwap_keeps | split | intro
theorem bringUp_keeps {q : Nat} (pregs : L .regs = true) (pglb : L .glb = true) (plne : L .lne = true) (pcas : L .cas = true) (K : Kept L s₀ s) : Kept L s₀ (bringUp q s) := by
  unfold bringUp; try dsimp only
  repeat' first | with_reducible assumption | with_reducible apply fillDead_keeps | with_reducible apply runFailures_keeps | with_reducible apply leaveL0_keeps | with_reducible apply lanesTo_keeps | with_reducible apply modPort_keeps | split | intro
theorem dropSwap_keeps {q : Nat} (plne : L .lne = true) (K : Kept L s₀ s) : Kept L s₀ (dropSwap q s) := by
  unfold dropSwap; try dsimp only
  repeat' first | with_reducible assumption | with_reducible apply steer_keeps | with_reducible apply modReserve_keeps | with_reducible apply modPort_keeps | with_reducible apply modLane_keeps | with_reducible apply modLne_keeps | split | intro
theorem portOff_keeps {q : Nat} (pregs : L .regs = true) (plne : L .lne = true) (K : Kept L s₀ s) : Kept L s₀ (portOff q s) := by
  unfold portOff; try dsimp only
  repeat' first | with_reducible assumption | with_reducible apply dropSwap_keeps | with_reducible apply leaveL0_keeps | with_reducible apply lanesTo_keeps | with_reducible apply modPort_keeps | split | intro
theorem laneUp_keeps {q : Nat} {i : Nat} {k : LaneFound} (pregs : L .regs = true) (plne : L .lne = true) (K : Kept L s₀ s) : Kept L s₀ (laneUp q i k s) := by
  unfold laneUp; try dsimp only
  repeat' first | with_reducible assumption | with_reducible apply setFld_keeps | with_reducible apply setReg_keeps | with_reducible apply modLane_keeps | with_reducible apply whenB_keeps | split | intro
theorem lanesUp_keeps {q : Nat} {found : List (Nat × LaneFound)} (pregs : L .regs = true) (plne : L .lne = true) (K : Kept L s₀ s) : Kept L s₀ (lanesUp q found s) := by
  unfold lanesUp; try dsimp only
  repeat' first | with_reducible assumption | with_reducible apply laneUp_keeps | with_reducible apply modPort_keeps | with_reducible apply forAll_keeps | split | intro
theorem backInService_keeps {q : Nat} (pregs : L .regs = true) (plne : L .lne = true) (pfhp : L .fhp = true) (K : Kept L s₀ s) : Kept L s₀ (backInService q s) := by
  unfold backInService; try dsimp only
  repeat' first | with_reducible assumption | with_reducible apply endGap_keeps | split | intro
theorem reachL0_keeps {q : Nat} (pregs : L .regs = true) (pglb : L .glb = true) (plne : L .lne = true) (pfhp : L .fhp = true) (ptim : L .tim = true) (pcas : L .cas = true) (K : Kept L s₀ s) : Kept L s₀ (reachL0 q s) := by
  unfold reachL0; try dsimp only
  repeat' first | with_reducible assumption | with_reducible apply backInService_keeps | with_reducible apply runFailures_keeps | with_reducible apply raise_keeps | with_reducible apply setFld_keeps | with_reducible apply modNbr_keeps | with_reducible apply modTim_keeps | with_reducible apply modPort_keeps | split | intro
theorem lanesReached_keeps {q : Nat} {reached : Nat} (plne : L .lne = true) (K : Kept L s₀ s) : Kept L s₀ (lanesReached q reached s) := by
  unfold lanesReached; try dsimp only
  repeat' first | with_reducible assumption | with_reducible apply modLane_keeps | with_reducible apply forAll_keeps | split | intro
theorem reserveFails_keeps {q : Nat} (pregs : L .regs = true) (pglb : L .glb = true) (pnvs : L .nvs = true) (plne : L .lne = true) (pcas : L .cas = true) (K : Kept L s₀ s) : Kept L s₀ (reserveFails q s) := by
  unfold reserveFails; try dsimp only
  repeat' first | with_reducible assumption | with_reducible apply fillDead_keeps | with_reducible apply runFailures_keeps | with_reducible apply retireLane_keeps | with_reducible apply writeReserveMap_keeps | with_reducible apply modPort_keeps | with_reducible apply modLne_keeps | split | intro
theorem stepTimeout_keeps {q : Nat} {step : Nat} {reached : Nat} (pregs : L .regs = true) (pglb : L .glb = true) (pnvs : L .nvs = true) (plne : L .lne = true) (pcas : L .cas = true) (K : Kept L s₀ s) : Kept L s₀ (stepTimeout q step reached s) := by
  unfold stepTimeout; try dsimp only
  repeat' first | with_reducible assumption | with_reducible apply reserveFails_keeps | with_reducible apply lanesReached_keeps | with_reducible apply modPort_keeps | split | intro
theorem portL0_keeps {q : Nat} {found : List LaneFound} (pregs : L .regs = true) (pglb : L .glb = true) (pnvs : L .nvs = true) (plne : L .lne = true) (pfhp : L .fhp = true) (ptim : L .tim = true) (pcas : L .cas = true) (K : Kept L s₀ s) : Kept L s₀ (portL0 q found s) := by
  unfold portL0; try dsimp only
  repeat' first | with_reducible assumption | with_reducible apply stepTimeout_keeps | with_reducible apply reachL0_keeps | with_reducible apply lanesUp_keeps | split | intro
theorem suspectLane_keeps {n : Nat} {step : Nat} (pregs : L .regs = true) (pglb : L .glb = true) (pnvs : L .nvs = true) (plne : L .lne = true) (pcas : L .cas = true) (K : Kept L s₀ s) : Kept L s₀ (suspectLane n step s) := by
  unfold suspectLane; try dsimp only
  repeat' first | with_reducible assumption | with_reducible apply reserveFails_keeps | with_reducible apply laneFail_keeps | with_reducible apply modLane_keeps | with_reducible apply forAll_keeps | split | intro
theorem bringUpStart_keeps {q : Nat} (pregs : L .regs = true) (pglb : L .glb = true) (plne : L .lne = true) (pcas : L .cas = true) (K : Kept L s₀ s) : Kept L s₀ (bringUpStart q s) := by
  unfold bringUpStart; try dsimp only
  repeat' first | with_reducible assumption | with_reducible apply bringUp_keeps | split | intro
theorem laneSwapDone_keeps {q : Nat} {found : List LaneFound} (pregs : L .regs = true) (pglb : L .glb = true) (pnvs : L .nvs = true) (plne : L .lne = true) (pfhp : L .fhp = true) (ptim : L .tim = true) (pcas : L .cas = true) (K : Kept L s₀ s) : Kept L s₀ (laneSwapDone q found s) := by
  unfold laneSwapDone; try dsimp only
  repeat' first | with_reducible assumption | with_reducible apply reserveFails_keeps | with_reducible apply reachL0_keeps | with_reducible apply lanesUp_keeps | with_reducible apply fillDead_keeps | with_reducible apply retireLane_keeps | with_reducible apply modReserve_keeps | with_reducible apply engageReserve_keeps | with_reducible apply reserveLow_keeps | with_reducible apply raise_keeps | with_reducible apply modNbr_keeps | with_reducible apply modPort_keeps | split | intro
theorem loopbackDone_keeps {q : Nat} {pass : Bool} (pnvs : L .nvs = true) (plne : L .lne = true) (K : Kept L s₀ s) : Kept L s₀ (loopbackDone q pass s) := by
  unfold loopbackDone; try dsimp only
  repeat' first | with_reducible assumption | with_reducible apply retireLane_keeps | with_reducible apply writeReserveMap_keeps | with_reducible apply modPort_keeps | split | intro
theorem discovery_keeps {i : Nat} {w : WiredTo} (pregs : L .regs = true) (pglb : L .glb = true) (plne : L .lne = true) (pcas : L .cas = true) (K : Kept L s₀ s) : Kept L s₀ (discovery i w s) := by
  unfold discovery; try dsimp only
  repeat' first | with_reducible assumption | with_reducible apply fillDead_keeps | with_reducible apply laneTo_keeps | with_reducible apply modReserve_keeps | split | intro
theorem laneEngage_keeps {q : Nat} {position : Nat} {reserve : Nat} (pregs : L .regs = true) (plne : L .lne = true) (pcas : L .cas = true) (K : Kept L s₀ s) : Kept L s₀ (laneEngage q position reserve s) := by
  unfold laneEngage; try dsimp only
  repeat' first | with_reducible assumption | with_reducible apply failureDone_keeps | with_reducible apply startSwap_keeps | with_reducible apply laneFrame_keeps | split | intro
theorem laneRefused_keeps {q : Nat} (pregs : L .regs = true) (pglb : L .glb = true) (plne : L .lne = true) (pcas : L .cas = true) (K : Kept L s₀ s) : Kept L s₀ (laneRefused q s) := by
  unfold laneRefused; try dsimp only
  repeat' first | with_reducible assumption | with_reducible apply dropSwap_keeps | with_reducible apply fillDead_keeps | with_reducible apply runFailures_keeps | with_reducible apply modPort_keeps | split | intro
theorem laneEvent_keeps {q : Nat} {event : Nat} {position : Nat} {reserve : Nat} (pregs : L .regs = true) (pglb : L .glb = true) (plne : L .lne = true) (pcas : L .cas = true) (K : Kept L s₀ s) : Kept L s₀ (laneEvent q event position reserve s) := by
  unfold laneEvent; try dsimp only
  repeat' first | with_reducible assumption | with_reducible apply laneRefused_keeps | with_reducible apply laneEngage_keeps | with_reducible apply laneFail_keeps | split | intro
theorem laneSecond_keeps {k : LaneErrors} (pregs : L .regs = true) (pglb : L .glb = true) (plne : L .lne = true) (pcas : L .cas = true) (K : Kept L s₀ s) : Kept L s₀ (laneSecond k s) := by
  unfold laneSecond; try dsimp only
  repeat' first | with_reducible assumption | with_reducible apply laneFail_keeps | with_reducible apply addReg_keeps | with_reducible apply modLane_keeps | split | intro
theorem portSecond_keeps {k : PortErrors} (pregs : L .regs = true) (pglb : L .glb = true) (plne : L .lne = true) (pcas : L .cas = true) (K : Kept L s₀ s) : Kept L s₀ (portSecond k s) := by
  unfold portSecond; try dsimp only
  repeat' first | with_reducible assumption | with_reducible apply bringUp_keeps | with_reducible apply viol_keeps | with_reducible apply addReg_keeps | with_reducible apply raise_keeps | with_reducible apply modPort_keeps | split | intro
theorem quarRelease_keeps {q : Nat} (pregs : L .regs = true) (plne : L .lne = true) (pfhp : L .fhp = true) (K : Kept L s₀ s) : Kept L s₀ (quarRelease q s) := by
  unfold quarRelease; try dsimp only
  repeat' first | with_reducible assumption | with_reducible apply backInService_keeps | with_reducible apply raise_keeps | with_reducible apply modPort_keeps | split | intro
theorem portOutcome_keeps {q : Nat} {code : Nat} (pregs : L .regs = true) (K : Kept L s₀ s) : Kept L s₀ (portOutcome q code s) := by
  unfold portOutcome; try dsimp only
  repeat' first | with_reducible assumption | with_reducible apply raise_keeps | with_reducible apply setFld_keeps | split | intro
theorem portState_keeps {q : Nat} {st : Nat} (pregs : L .regs = true) (pglb : L .glb = true) (plne : L .lne = true) (pcas : L .cas = true) (K : Kept L s₀ s) : Kept L s₀ (portState q st s) := by
  unfold portState; try dsimp only
  repeat' first | with_reducible assumption | with_reducible apply portOutcome_keeps | with_reducible apply dropSwap_keeps | with_reducible apply bringUp_keeps | with_reducible apply leaveL0_keeps | with_reducible apply lanesTo_keeps | with_reducible apply modPort_keeps | split | intro
theorem holdPort_keeps {q : Nat} (pregs : L .regs = true) (plne : L .lne = true) (K : Kept L s₀ s) : Kept L s₀ (holdPort q s) := by
  unfold holdPort; try dsimp only
  repeat' first | with_reducible assumption | with_reducible apply portOutcome_keeps | with_reducible apply modPort_keeps | split | intro
theorem holdClear_keeps {q : Nat} (pregs : L .regs = true) (plne : L .lne = true) (pfhp : L .fhp = true) (K : Kept L s₀ s) : Kept L s₀ (holdClear q s) := by
  unfold holdClear; try dsimp only
  repeat' first | with_reducible assumption | with_reducible apply portOutcome_keeps | with_reducible apply backInService_keeps | with_reducible apply endTests_keeps | with_reducible apply modPort_keeps | split | intro
theorem retrain_keeps {q : Nat} (pregs : L .regs = true) (pglb : L .glb = true) (plne : L .lne = true) (pcas : L .cas = true) (K : Kept L s₀ s) : Kept L s₀ (retrain q s) := by
  unfold retrain; try dsimp only
  repeat' first | with_reducible assumption | with_reducible apply portOutcome_keeps | with_reducible apply bringUp_keeps | split | intro
theorem portCtrlWrite_keeps {q : Nat} {w : Word} (pregs : L .regs = true) (pglb : L .glb = true) (plne : L .lne = true) (pfhp : L .fhp = true) (pcas : L .cas = true) (K : Kept L s₀ s) : Kept L s₀ (portCtrlWrite q w s) := by
  unfold portCtrlWrite; try dsimp only
  repeat' first | with_reducible assumption | with_reducible apply retrain_keeps | with_reducible apply holdClear_keeps | with_reducible apply holdPort_keeps | with_reducible apply portState_keeps | with_reducible apply whenB_keeps | split | intro
theorem txEqWrite_keeps {n : Nat} {w : Word} (pregs : L .regs = true) (plne : L .lne = true) (K : Kept L s₀ s) : Kept L s₀ (txEqWrite n w s) := by
  unfold txEqWrite; try dsimp only
  repeat' first | with_reducible assumption | with_reducible apply raise_keeps | with_reducible apply setFld_keeps | with_reducible apply modLane_keeps | split | intro
theorem testOff_keeps {n : Nat} (plne : L .lne = true) (K : Kept L s₀ s) : Kept L s₀ (testOff n s) := by
  unfold testOff; try dsimp only
  repeat' first | with_reducible assumption | with_reducible apply laneTo_keeps | with_reducible apply modReserve_keeps | with_reducible apply modLane_keeps | split | intro
theorem testOn_keeps {n : Nat} (plne : L .lne = true) (K : Kept L s₀ s) : Kept L s₀ (testOn n s) := by
  unfold testOn; try dsimp only
  repeat' first | with_reducible assumption | with_reducible apply modReserve_keeps | with_reducible apply modLane_keeps | split | intro
theorem testWrite_keeps {n : Nat} {w : Word} (pregs : L .regs = true) (pglb : L .glb = true) (plne : L .lne = true) (K : Kept L s₀ s) : Kept L s₀ (testWrite n w s) := by
  unfold testWrite; try dsimp only
  repeat' first | with_reducible assumption | with_reducible apply testOn_keeps | with_reducible apply testOff_keeps | with_reducible apply refusedWrite_keeps | with_reducible apply setReg_keeps | split | intro
theorem lanesToL2_keeps  (pregs : L .regs = true) (plne : L .lne = true) (K : Kept L s₀ s) : Kept L s₀ (lanesToL2 s) := by
  unfold lanesToL2; try dsimp only
  repeat' first | with_reducible assumption | with_reducible apply leaveL0_keeps | with_reducible apply abortTest_keeps | with_reducible apply laneTo_keeps | with_reducible apply modPort_keeps | with_reducible apply forAll_keeps | split | intro
theorem lanesOff_keeps  (pregs : L .regs = true) (plne : L .lne = true) (K : Kept L s₀ s) : Kept L s₀ (lanesOff s) := by
  unfold lanesOff; try dsimp only
  repeat' first | with_reducible assumption | with_reducible apply leaveL0_keeps | with_reducible apply abortTest_keeps | with_reducible apply laneTo_keeps | with_reducible apply modPort_keeps | with_reducible apply forAll_keeps | split | intro
theorem portBack_keeps {q : Nat} (pregs : L .regs = true) (pglb : L .glb = true) (plne : L .lne = true) (pfhp : L .fhp = true) (pcas : L .cas = true) (K : Kept L s₀ s) : Kept L s₀ (portBack q s) := by
  unfold portBack; try dsimp only
  repeat' first | with_reducible assumption | with_reducible apply backInService_keeps | with_reducible apply bringUp_keeps | with_reducible apply lanesTo_keeps | with_reducible apply raise_keeps | with_reducible apply modPort_keeps | split | intro
theorem lanesBack_keeps  (pregs : L .regs = true) (pglb : L .glb = true) (plne : L .lne = true) (pfhp : L .fhp = true) (pcas : L .cas = true) (K : Kept L s₀ s) : Kept L s₀ (lanesBack s) := by
  unfold lanesBack; try dsimp only
  repeat' first | with_reducible assumption | with_reducible apply portBack_keeps | with_reducible apply forAll_keeps | split | intro
theorem reserveOff_keeps {n : Nat} (pregs : L .regs = true) (plne : L .lne = true) (K : Kept L s₀ s) : Kept L s₀ (reserveOff n s) := by
  unfold reserveOff; try dsimp only
  repeat' first | with_reducible assumption | with_reducible apply abortTest_keeps | with_reducible apply laneTo_keeps | split | intro
theorem foldPorts_keeps  (pregs : L .regs = true) (pglb : L .glb = true) (plne : L .lne = true) (pcas : L .cas = true) (K : Kept L s₀ s) : Kept L s₀ (foldPorts s) := by
  unfold foldPorts; try dsimp only
  repeat' first | with_reducible assumption | with_reducible apply reserveOff_keeps | with_reducible apply portOff_keeps | with_reducible apply bringUp_keeps | with_reducible apply forAll_keeps | split | intro
theorem laneRecord_keeps  (pregs : L .regs = true) (plne : L .lne = true) (K : Kept L s₀ s) : Kept L s₀ (laneRecord s) := by
  unfold laneRecord; try dsimp only
  repeat' first | with_reducible assumption | with_reducible apply setFld_keeps | with_reducible apply setReg_keeps | with_reducible apply modLane_keeps | with_reducible apply forAll_keeps | split | intro

end Sys2Proof.Machine
end

