-- ==== Sys2Proof/Laws/KeepDevice.lean ====
section
/-!
SUPPORT. What the operations of the device keep, file by file: CasForm, Wrp, Stage, Level, Sleep, Power, Cas, Frames, Boundary.
-/

set_option linter.all false
set_option Elab.async false

namespace Sys2Proof.Machine

variable {L : Part → Bool} {s₀ s : State}

/-! ### Machine/CasForm.lean -/

theorem setJoined_keeps {m : Nat} (pregs : L .regs = true) (pfhp : L .fhp = true) (pcas : L .cas = true) (K : Kept L s₀ s) : Kept L s₀ (setJoined m s) := by
  unfold setJoined; try dsimp only
  repeat' first | with_reducible assumption | with_reducible apply noticeAll_keeps | with_reducible apply raise_keeps | with_reducible apply modCas_keeps | split | intro
theorem dropFrom_keeps {d : Nat} (pregs : L .regs = true) (pfhp : L .fhp = true) (pcas : L .cas = true) (K : Kept L s₀ s) : Kept L s₀ (dropFrom d s) := by
  unfold dropFrom; try dsimp only
  repeat' first | with_reducible assumption | with_reducible apply setJoined_keeps | split | intro
theorem tellIsolate_keeps {cls : Nat} {kind : Nat} (pregs : L .regs = true) (pfhp : L .fhp = true) (pcas : L .cas = true) (K : Kept L s₀ s) : Kept L s₀ (tellIsolate cls kind s) := by
  unfold tellIsolate; try dsimp only
  repeat' first | with_reducible assumption | with_reducible apply dropFrom_keeps | with_reducible apply reportUp_keeps | split | intro
theorem isolateDown_keeps {cls : Nat} (pregs : L .regs = true) (pfhp : L .fhp = true) (pcas : L .cas = true) (K : Kept L s₀ s) : Kept L s₀ (isolateDown cls s) := by
  unfold isolateDown; try dsimp only
  repeat' first | with_reducible assumption | with_reducible apply tellIsolate_keeps | with_reducible apply raise_keeps | with_reducible apply modNbr_keeps | split | intro
theorem unjoin_keeps {form : Nat} (pregs : L .regs = true) (pglb : L .glb = true) (ppstate : L .pstate = true) (prad : L .rad = true) (pfhp : L .fhp = true) (pcas : L .cas = true) (K : Kept L s₀ s) : Kept L s₀ (unjoin form s) := by
  unfold unjoin; try dsimp only
  repeat' first | with_reducible assumption | with_reducible apply watchLock_keeps | with_reducible apply modCas_keeps | split | intro
theorem detach_keeps {cls : Nat} (pregs : L .regs = true) (pglb : L .glb = true) (ppstate : L .pstate = true) (prad : L .rad = true) (pfhp : L .fhp = true) (pcas : L .cas = true) (K : Kept L s₀ s) : Kept L s₀ (detach cls s) := by
  unfold detach; try dsimp only
  repeat' first | with_reducible assumption | with_reducible apply unjoin_keeps | with_reducible apply tellIsolate_keeps | with_reducible apply raise_keeps | with_reducible apply modNbr_keeps | with_reducible apply modCas_keeps | split | intro
theorem quarSide_keeps {side : Nat} {cls : Nat} (pregs : L .regs = true) (pglb : L .glb = true) (ppstate : L .pstate = true) (prad : L .rad = true) (pfhp : L .fhp = true) (pcas : L .cas = true) (K : Kept L s₀ s) : Kept L s₀ (quarSide side cls s) := by
  unfold quarSide; try dsimp only
  repeat' first | with_reducible assumption | with_reducible apply detach_keeps | with_reducible apply isolateDown_keeps | split | intro
theorem quarCounted_keeps {side : Nat} {cls : Nat} (pregs : L .regs = true) (pglb : L .glb = true) (ppstate : L .pstate = true) (prad : L .rad = true) (pfhp : L .fhp = true) (pcas : L .cas = true) (K : Kept L s₀ s) : Kept L s₀ (quarCounted side cls s) := by
  unfold quarCounted; try dsimp only
  repeat' first | with_reducible assumption | with_reducible apply quarSide_keeps | with_reducible apply viol_keeps | split | intro
theorem casViol_keeps {side : Nat} {cls : Nat} (pregs : L .regs = true) (pglb : L .glb = true) (ppstate : L .pstate = true) (prad : L .rad = true) (pfhp : L .fhp = true) (pcas : L .cas = true) (K : Kept L s₀ s) : Kept L s₀ (casViol side cls s) := by
  unfold casViol; try dsimp only
  repeat' first | with_reducible assumption | with_reducible apply quarCounted_keeps | with_reducible apply viol_keeps | with_reducible apply addLo_keeps | with_reducible apply addHi_keeps | with_reducible apply modNbr_keeps | split | intro
theorem casSwap_keeps {c : CascadeCfg} {role : Nat} {d : Nat} (pregs : L .regs = true) (pglb : L .glb = true) (ppstate : L .pstate = true) (prad : L .rad = true) (plne : L .lne = true) (pfhp : L .fhp = true) (ptim : L .tim = true) (pcas : L .cas = true) (K : Kept L s₀ s) : Kept L s₀ (casSwap c role d s) := by
  unfold casSwap; try dsimp only
  repeat' first | with_reducible assumption | with_reducible apply foldPorts_keeps | with_reducible apply timStart_keeps | with_reducible apply goTime_keeps | with_reducible apply watchLock_keeps | with_reducible apply raise_keeps | with_reducible apply modCas_keeps | split | intro
theorem casCommit_keeps  (pregs : L .regs = true) (pglb : L .glb = true) (ppstate : L .pstate = true) (prad : L .rad = true) (plne : L .lne = true) (pfhp : L .fhp = true) (ptim : L .tim = true) (pcas : L .cas = true) (K : Kept L s₀ s) : Kept L s₀ (casCommit s) := by
  unfold casCommit; try dsimp only
  repeat' first | with_reducible assumption | with_reducible apply casSwap_keeps | split | intro
theorem helloSend_keeps {side : Nat} (pcas : L .cas = true) (K : Kept L s₀ s) : Kept L s₀ (helloSend side s) := by
  unfold helloSend; try dsimp only
  repeat' first | with_reducible assumption | with_reducible apply casSend_keeps | split | intro
theorem zeroServed_keeps  (pregs : L .regs = true) (pskn : L .skn = true) (pfhp : L .fhp = true) (K : Kept L s₀ s) : Kept L s₀ (zeroServed s) := by
  unfold zeroServed; try dsimp only
  repeat' first | with_reducible assumption | with_reducible apply resetSlot_keeps | with_reducible apply forAll_keeps | split | intro
theorem formJudge_keeps  (pregs : L .regs = true) (pglb : L .glb = true) (ppstate : L .pstate = true) (pskn : L .skn = true) (prad : L .rad = true) (pfhp : L .fhp = true) (pcas : L .cas = true) (K : Kept L s₀ s) : Kept L s₀ (formJudge s) := by
  unfold formJudge; try dsimp only
  repeat' first | with_reducible assumption | with_reducible apply zeroServed_keeps | with_reducible apply unjoin_keeps | with_reducible apply raise_keeps | with_reducible apply modNbr_keeps | with_reducible apply modCas_keeps | split | intro
theorem casRejoin_keeps  (pcas : L .cas = true) (K : Kept L s₀ s) : Kept L s₀ (casRejoin s) := by
  unfold casRejoin; try dsimp only
  repeat' first | with_reducible assumption | with_reducible apply modNbr_keeps | with_reducible apply modCas_keeps | split | intro
theorem helloTake_keeps {side : Nat} {stackId : Nat} {p : List Byte} (pregs : L .regs = true) (pglb : L .glb = true) (ppstate : L .pstate = true) (pskn : L .skn = true) (prad : L .rad = true) (pfhp : L .fhp = true) (pcas : L .cas = true) (K : Kept L s₀ s) : Kept L s₀ (helloTake side stackId p s) := by
  unfold helloTake; try dsimp only
  repeat' first | with_reducible assumption | with_reducible apply formJudge_keeps | with_reducible apply tellIsolate_keeps | with_reducible apply dropFrom_keeps | with_reducible apply setJoined_keeps | with_reducible apply modNbr_keeps | with_reducible apply modCas_keeps | split | intro
theorem statusTake_keeps {d : Nat} {p : List Byte} (pregs : L .regs = true) (pfhp : L .fhp = true) (pcas : L .cas = true) (K : Kept L s₀ s) : Kept L s₀ (statusTake d p s) := by
  unfold statusTake; try dsimp only
  repeat' first | with_reducible assumption | with_reducible apply setJoined_keeps | with_reducible apply notice_keeps | with_reducible apply modCas_keeps | with_reducible apply forAll_keeps | split | intro
theorem casEpoch_keeps  (pregs : L .regs = true) (pglb : L .glb = true) (ppstate : L .pstate = true) (prad : L .rad = true) (pfhp : L .fhp = true) (pcas : L .cas = true) (K : Kept L s₀ s) : Kept L s₀ (casEpoch s) := by
  unfold casEpoch; try dsimp only
  repeat' first | with_reducible assumption | with_reducible apply detach_keeps | with_reducible apply isolateDown_keeps | with_reducible apply casSend_keeps | with_reducible apply modNbr_keeps | split | intro
theorem castVote_keeps {block : Nat} {code : Nat} (pcas : L .cas = true) (K : Kept L s₀ s) : Kept L s₀ (castVote block code s) := by
  unfold castVote; try dsimp only
  repeat' first | with_reducible assumption | with_reducible apply reportUp_keeps | split | intro
theorem openVote_keeps {on : VoteOn} (pcas : L .cas = true) (K : Kept L s₀ s) : Kept L s₀ (openVote on s) := by
  unfold openVote; try dsimp only
  repeat' first | with_reducible assumption | with_reducible apply modCas_keeps | split | intro
theorem voteRefused_keeps {d : Nat} {block : Nat} {code : Nat} (pregs : L .regs = true) (pcas : L .cas = true) (K : Kept L s₀ s) : Kept L s₀ (voteRefused d block code s) := by
  unfold voteRefused; try dsimp only
  repeat' first | with_reducible assumption | with_reducible apply raise_keeps | with_reducible apply setReg_keeps | with_reducible apply modCas_keeps | split | intro

/-! ### Machine/Wrp.lean -/

theorem wrpStatus_keeps {outcome : Nat} {error : Nat} (pregs : L .regs = true) (K : Kept L s₀ s) : Kept L s₀ (wrpStatus outcome error s) := by
  unfold wrpStatus; try dsimp only
  repeat' first | with_reducible assumption | with_reducible apply setFld_keeps | split | intro
theorem wrpRefuse_keeps {e : LoadErr} (pregs : L .regs = true) (K : Kept L s₀ s) : Kept L s₀ (wrpRefuse e s) := by
  unfold wrpRefuse; try dsimp only
  repeat' first | with_reducible assumption | with_reducible apply wrpStatus_keeps | with_reducible apply raise_keeps | with_reducible apply setReg_keeps | split | intro
theorem loadEnd_keeps  (pwrp : L .wrp = true) (K : Kept L s₀ s) : Kept L s₀ (loadEnd s) := by
  unfold loadEnd; try dsimp only
  repeat' first | with_reducible assumption | with_reducible apply modWrp_keeps | split | intro
theorem loadFail_keeps {e : LoadErr} (pregs : L .regs = true) (pwrp : L .wrp = true) (K : Kept L s₀ s) : Kept L s₀ (loadFail e s) := by
  unfold loadFail; try dsimp only
  repeat' first | with_reducible assumption | with_reducible apply loadEnd_keeps | with_reducible apply wrpRefuse_keeps | split | intro
theorem stampSwitch_keeps  (pregs : L .regs = true) (K : Kept L s₀ s) : Kept L s₀ (stampSwitch s) := by
  unfold stampSwitch; try dsimp only
  repeat' first | with_reducible assumption | with_reducible apply setReg_keeps | split | intro
theorem placeLoad_keeps  (pregs : L .regs = true) (pwrp : L .wrp = true) (K : Kept L s₀ s) : Kept L s₀ (placeLoad s) := by
  unfold placeLoad; try dsimp only
  repeat' first | with_reducible assumption | with_reducible apply loadFail_keeps | with_reducible apply modWrp_keeps | split | intro
theorem retireSpindle_keeps {i : Nat} (pregs : L .regs = true) (pwrp : L .wrp = true) (K : Kept L s₀ s) : Kept L s₀ (retireSpindle i s) := by
  unfold retireSpindle; try dsimp only
  repeat' first | with_reducible assumption | with_reducible apply reserveLow_keeps | with_reducible apply modWrp_keeps | split | intro
theorem exhaust_keeps {i : Nat} {layers : List (Bool × Nat)} (pregs : L .regs = true) (pnvs : L .nvs = true) (pwrp : L .wrp = true) (K : Kept L s₀ s) : Kept L s₀ (exhaust i layers s) := by
  unfold exhaust; try dsimp only
  repeat' first | with_reducible assumption | with_reducible apply retireSpindle_keeps | with_reducible apply writeReserveMap_keeps | with_reducible apply modWrp_keeps | split | intro
theorem weaverStart_keeps  (pregs : L .regs = true) (pnvs : L .nvs = true) (pwrp : L .wrp = true) (K : Kept L s₀ s) : Kept L s₀ (weaverStart s) := by
  unfold weaverStart; try dsimp only
  repeat' first | with_reducible assumption | with_reducible apply exhaust_keeps | with_reducible apply placeLoad_keeps | with_reducible apply modWrp_keeps | split | intro
theorem weaverQueue_keeps {j : Job} (pregs : L .regs = true) (pnvs : L .nvs = true) (pwrp : L .wrp = true) (K : Kept L s₀ s) : Kept L s₀ (weaverQueue j s) := by
  unfold weaverQueue; try dsimp only
  repeat' first | with_reducible assumption | with_reducible apply weaverStart_keeps | with_reducible apply modWrp_keeps | split | intro
theorem spindleSelfTestFail_keeps {i : Nat} (pregs : L .regs = true) (pnvs : L .nvs = true) (pwrp : L .wrp = true) (K : Kept L s₀ s) : Kept L s₀ (spindleSelfTestFail i s) := by
  unfold spindleSelfTestFail; try dsimp only
  repeat' first | with_reducible assumption | with_reducible apply retireSpindle_keeps | with_reducible apply writeReserveMap_keeps | split | intro
theorem testVectorFail_keeps {i : Nat} {layers : List (Bool × Nat)} (pregs : L .regs = true) (pnvs : L .nvs = true) (pwrp : L .wrp = true) (K : Kept L s₀ s) : Kept L s₀ (testVectorFail i layers s) := by
  unfold testVectorFail; try dsimp only
  repeat' first | with_reducible assumption | with_reducible apply weaverQueue_keeps | split | intro
theorem shadowCompareDone_keeps {matched : Bool} (pregs : L .regs = true) (pnvs : L .nvs = true) (pwrp : L .wrp = true) (K : Kept L s₀ s) : Kept L s₀ (shadowCompareDone matched s) := by
  unfold shadowCompareDone; try dsimp only
  repeat' first | with_reducible assumption | with_reducible apply weaverStart_keeps | with_reducible apply retireSpindle_keeps | with_reducible apply writeReserveMap_keeps | with_reducible apply modWrp_keeps | split | intro
theorem reserveHandover_keeps  (pregs : L .regs = true) (pglb : L .glb = true) (pnvs : L .nvs = true) (pwrp : L .wrp = true) (K : Kept L s₀ s) : Kept L s₀ (reserveHandover s) := by
  unfold reserveHandover; try dsimp only
  repeat' first | with_reducible assumption | with_reducible apply retireSpindle_keeps | with_reducible apply engageReserve_keeps | with_reducible apply raise_keeps | with_reducible apply modWrp_keeps | split | intro
theorem toFallback_keeps {x : Bool × Nat} (pregs : L .regs = true) (pwrp : L .wrp = true) (pfhp : L .fhp = true) (K : Kept L s₀ s) : Kept L s₀ (toFallback x s) := by
  unfold toFallback; try dsimp only
  repeat' first | with_reducible assumption | with_reducible apply notice_keeps | with_reducible apply raise_keeps | with_reducible apply modWrp_keeps | split | intro
theorem withdraw_keeps {x : Bool × Nat} (pregs : L .regs = true) (pwrp : L .wrp = true) (pskn : L .skn = true) (pfhp : L .fhp = true) (K : Kept L s₀ s) : Kept L s₀ (withdraw x s) := by
  unfold withdraw; try dsimp only
  repeat' first | with_reducible assumption | with_reducible apply forgetSlots_keeps | with_reducible apply tellEnd_keeps | with_reducible apply resetSlot_keeps | with_reducible apply raise_keeps | with_reducible apply modWrp_keeps | split | intro
theorem fallbackConversion_keeps  (pregs : L .regs = true) (pwrp : L .wrp = true) (pskn : L .skn = true) (pfhp : L .fhp = true) (K : Kept L s₀ s) : Kept L s₀ (fallbackConversion s) := by
  unfold fallbackConversion; try dsimp only
  repeat' first | with_reducible assumption | with_reducible apply withdraw_keeps | with_reducible apply toFallback_keeps | with_reducible apply modWrp_keeps | split | intro
theorem wrpData_keeps {w : Word} (pregs : L .regs = true) (pglb : L .glb = true) (pwrp : L .wrp = true) (K : Kept L s₀ s) : Kept L s₀ (wrpData w s) := by
  unfold wrpData; try dsimp only
  repeat' first | with_reducible assumption | with_reducible apply refusedWrite_keeps | with_reducible apply modWrp_keeps | split | intro
theorem wrpStageLenWrite_keeps {w : Word} (pregs : L .regs = true) (pglb : L .glb = true) (K : Kept L s₀ s) : Kept L s₀ (wrpStageLenWrite w s) := by
  unfold wrpStageLenWrite; try dsimp only
  repeat' first | with_reducible assumption | with_reducible apply refusedWrite_keeps | with_reducible apply setReg_keeps | split | intro
theorem relayWarp_keeps {b : List Byte} (pcas : L .cas = true) (K : Kept L s₀ s) : Kept L s₀ (relayWarp b s) := by
  unfold relayWarp; try dsimp only
  repeat' first | with_reducible assumption | with_reducible apply relayControl_keeps | with_reducible apply forAll_keeps | split | intro
theorem loadAccept_keeps {b : List Byte} {isPartial : Bool} {w : Structure} (pregs : L .regs = true) (pnvs : L .nvs = true) (pwrp : L .wrp = true) (pcas : L .cas = true) (K : Kept L s₀ s) : Kept L s₀ (loadAccept b isPartial w s) := by
  unfold loadAccept; try dsimp only
  repeat' first | with_reducible assumption | with_reducible apply relayWarp_keeps | with_reducible apply weaverQueue_keeps | with_reducible apply loadFail_keeps | with_reducible apply wrpStatus_keeps | with_reducible apply openVote_keeps | with_reducible apply modWrp_keeps | split | intro
theorem loadBytes_keeps {b : List Byte} (pregs : L .regs = true) (pnvs : L .nvs = true) (pwrp : L .wrp = true) (pcas : L .cas = true) (K : Kept L s₀ s) : Kept L s₀ (loadBytes b s) := by
  unfold loadBytes; try dsimp only
  repeat' first | with_reducible assumption | with_reducible apply loadAccept_keeps | with_reducible apply loadFail_keeps | with_reducible apply setFld_keeps | split | intro
theorem wrpLoad_keeps  (pregs : L .regs = true) (pnvs : L .nvs = true) (pwrp : L .wrp = true) (pcas : L .cas = true) (K : Kept L s₀ s) : Kept L s₀ (wrpLoad s) := by
  unfold wrpLoad; try dsimp only
  repeat' first | with_reducible assumption | with_reducible apply loadBytes_keeps | with_reducible apply loadFail_keeps | with_reducible apply wrpRefuse_keeps | with_reducible apply setFld_keeps | split | intro
theorem wrpAbort_keeps  (pregs : L .regs = true) (pwrp : L .wrp = true) (pcas : L .cas = true) (K : Kept L s₀ s) : Kept L s₀ (wrpAbort s) := by
  unfold wrpAbort; try dsimp only
  repeat' first | with_reducible assumption | with_reducible apply loadFail_keeps | with_reducible apply relayControl_keeps | with_reducible apply modCas_keeps | split | intro
theorem wrpClear_keeps  (pwrp : L .wrp = true) (K : Kept L s₀ s) : Kept L s₀ (wrpClear s) := by
  unfold wrpClear; try dsimp only
  repeat' first | with_reducible assumption | with_reducible apply modWrp_keeps | split | intro
theorem wrpCtrlWrite_keeps {w : Word} (pregs : L .regs = true) (pnvs : L .nvs = true) (pwrp : L .wrp = true) (pcas : L .cas = true) (K : Kept L s₀ s) : Kept L s₀ (wrpCtrlWrite w s) := by
  unfold wrpCtrlWrite; try dsimp only
  repeat' first | with_reducible assumption | with_reducible apply wrpClear_keeps | with_reducible apply wrpAbort_keeps | with_reducible apply wrpLoad_keeps | with_reducible apply whenB_keeps | split | intro
theorem qspiWarpLoad_keeps  (pregs : L .regs = true) (pnvs : L .nvs = true) (pwrp : L .wrp = true) (pcas : L .cas = true) (K : Kept L s₀ s) : Kept L s₀ (qspiWarpLoad s) := by
  unfold qspiWarpLoad; try dsimp only
  repeat' first | with_reducible assumption | with_reducible apply loadBytes_keeps | with_reducible apply modWrp_keeps | split | intro
theorem setFdd_keeps  (prad : L .rad = true) (K : Kept L s₀ s) : Kept L s₀ (setFdd s) := by
  unfold setFdd; try dsimp only
  repeat' first | with_reducible assumption | with_reducible apply modGroup_keeps | with_reducible apply forAll_keeps | split | intro
theorem liftMasks_keeps  (ppaths : L .paths = true) (K : Kept L s₀ s) : Kept L s₀ (liftMasks s) := by
  unfold liftMasks; try dsimp only
  repeat' first | with_reducible assumption | with_reducible apply modPath_keeps | with_reducible apply forAll_keeps | split | intro
theorem fullCommit_keeps {new : Structure} (pregs : L .regs = true) (pglb : L .glb = true) (pnvs : L .nvs = true) (ppstate : L .pstate = true) (pwrp : L .wrp = true) (ppaths : L .paths = true) (psyn : L .syn = true) (pskn : L .skn = true) (pdpd : L .dpd = true) (prad : L .rad = true) (plne : L .lne = true) (pfhp : L .fhp = true) (ptim : L .tim = true) (pcas : L .cas = true) (pacq : L .acq = true) (pmon : L .mon = true) (pdrc : L .drc = true) (pdma : L .dma = true) (pbda : L .bda = true) (prnd : L .rnd = true) (K : Kept L s₀ s) : Kept L s₀ (fullCommit new s) := by
  unfold fullCommit; try dsimp only
  repeat' first | with_reducible assumption | (with_reducible exact fun h => h) | exact fun _ => twf_nil | with_reducible apply liftMasks_keeps | with_reducible apply setFdd_keeps | with_reducible apply stampSwitch_keeps | with_reducible apply loadEnd_keeps | with_reducible apply wrpStatus_keeps | with_reducible apply casCommit_keeps | with_reducible apply synTuneAll_keeps | with_reducible apply fhpRestart_keeps | with_reducible apply fhpCommit_keeps | with_reducible apply dpdInitAll_keeps | with_reducible apply sknCommit_keeps | with_reducible apply watchRoles_keeps | with_reducible apply recheckRange_keeps | with_reducible apply bdaCommit_keeps | with_reducible apply monCommit_keeps | with_reducible apply acqCommit_keeps | with_reducible apply raise_keeps | with_reducible apply setReg_keeps | with_reducible apply modWrp_keeps | with_reducible apply modNvs_keeps | split | intro
theorem spindlesLoaded_keeps  (pregs : L .regs = true) (pglb : L .glb = true) (pnvs : L .nvs = true) (ppstate : L .pstate = true) (pwrp : L .wrp = true) (ppaths : L .paths = true) (psyn : L .syn = true) (pskn : L .skn = true) (pdpd : L .dpd = true) (prad : L .rad = true) (plne : L .lne = true) (pfhp : L .fhp = true) (ptim : L .tim = true) (pcas : L .cas = true) (pacq : L .acq = true) (pmon : L .mon = true) (pdrc : L .drc = true) (pdma : L .dma = true) (pbda : L .bda = true) (prnd : L .rnd = true) (K : Kept L s₀ s) : Kept L s₀ (spindlesLoaded s) := by
  unfold spindlesLoaded; try dsimp only
  repeat' first | with_reducible assumption | with_reducible apply fullCommit_keeps | with_reducible apply tellEnd_keeps | with_reducible apply modWrp_keeps | split | intro
theorem reweaveSwitch_keeps  (pregs : L .regs = true) (pglb : L .glb = true) (ppstate : L .pstate = true) (pwrp : L .wrp = true) (ppaths : L .paths = true) (psyn : L .syn = true) (pskn : L .skn = true) (pdpd : L .dpd = true) (prad : L .rad = true) (pfhp : L .fhp = true) (pcas : L .cas = true) (K : Kept L s₀ s) : Kept L s₀ (reweaveSwitch s) := by
  unfold reweaveSwitch; try dsimp only
  repeat' first | with_reducible assumption | with_reducible apply setFdd_keeps | with_reducible apply stampSwitch_keeps | with_reducible apply loadEnd_keeps | with_reducible apply wrpStatus_keeps | with_reducible apply synTuneAll_keeps | with_reducible apply fhpSwitch_keeps | with_reducible apply forgetSlots_keeps | with_reducible apply uncarriedOut_keeps | with_reducible apply reloadBanks_keeps | with_reducible apply resetSlot_keeps | with_reducible apply watchRoles_keeps | with_reducible apply recheckRange_keeps | with_reducible apply modSlot_keeps | with_reducible apply raise_keeps | with_reducible apply setReg_keeps | with_reducible apply modWrp_keeps | with_reducible apply forAll_keeps | split | intro
theorem warpAgreed_keeps  (pregs : L .regs = true) (pnvs : L .nvs = true) (pwrp : L .wrp = true) (pcas : L .cas = true) (K : Kept L s₀ s) : Kept L s₀ (warpAgreed s) := by
  unfold warpAgreed; try dsimp only
  repeat' first | with_reducible assumption | with_reducible apply weaverQueue_keeps | with_reducible apply relayControl_keeps | split | intro
theorem warpAbandoned_keeps {code : Nat} (pregs : L .regs = true) (pwrp : L .wrp = true) (pcas : L .cas = true) (K : Kept L s₀ s) : Kept L s₀ (warpAbandoned code s) := by
  unfold warpAbandoned; try dsimp only
  repeat' first | with_reducible assumption | with_reducible apply loadFail_keeps | with_reducible apply relayControl_keeps | split | intro
theorem warpFrame_keeps {b : List Byte} (pcas : L .cas = true) (K : Kept L s₀ s) : Kept L s₀ (warpFrame b s) := by
  unfold warpFrame; try dsimp only
  repeat' first | with_reducible assumption | with_reducible apply castVote_keeps | with_reducible apply modCas_keeps | split | intro
theorem warpCommit_keeps {b : List Byte} (pregs : L .regs = true) (pnvs : L .nvs = true) (pwrp : L .wrp = true) (pcas : L .cas = true) (K : Kept L s₀ s) : Kept L s₀ (warpCommit b s) := by
  unfold warpCommit; try dsimp only
  repeat' first | with_reducible assumption | with_reducible apply loadAccept_keeps | with_reducible apply wrpRefuse_keeps | with_reducible apply setFld_keeps | with_reducible apply modCas_keeps | split | intro

/-! ### Machine/Stage.lean -/

theorem pmbNote_keeps {n : Nat} {cmd : Nat} (pregs : L .regs = true) (K : Kept L s₀ s) : Kept L s₀ (pmbNote n cmd s) := by
  unfold pmbNote; try dsimp only
  repeat' first | with_reducible assumption | with_reducible apply setFld_keeps | split | intro
theorem railRequest_keeps {n : Nat} {mv : Nat} {why : RailWhy} (pregs : L .regs = true) (ppwr : L .pwr = true) (K : Kept L s₀ s) : Kept L s₀ (railRequest n mv why s) := by
  unfold railRequest; try dsimp only
  repeat' first | with_reducible assumption | with_reducible apply pmbNote_keeps | with_reducible apply modRail_keeps | split | intro
theorem requestGroup_keeps {g : Nat} (pregs : L .regs = true) (ppwr : L .pwr = true) (K : Kept L s₀ s) : Kept L s₀ (requestGroup g s) := by
  unfold requestGroup; try dsimp only
  repeat' first | with_reducible assumption | with_reducible apply railRequest_keeps | with_reducible apply modPwr_keeps | with_reducible apply forAll_keeps | split | intro
theorem coreOff_keeps (ppins : L .pins = true) (ptime : L .time = true) (pregs : L .regs = true) (pglb : L .glb = true) (pnvs : L .nvs = true) (ppwr : L .pwr = true) (ppstate : L .pstate = true) (pwrp : L .wrp = true) (ppaths : L .paths = true) (psyn : L .syn = true) (pskn : L .skn = true) (pfft : L .fft = true) (pdpd : L .dpd = true) (prad : L .rad = true) (plne : L .lne = true) (pfhp : L .fhp = true) (ptim : L .tim = true) (pcas : L .cas = true) (pacq : L .acq = true) (pmon : L .mon = true) (pdrc : L .drc = true) (pdma : L .dma = true) (phka : L .hka = true) (pbda : L .bda = true) (pthm : L .thm = true) (prnd : L .rnd = true) (K : Kept L s₀ s) : Kept L s₀ (coreOff s) :=
  Kept.anew (by intro p; cases p <;> assumption) K rfl rfl (fun h => wf_iff.mpr (by
    have w := wf_iff.mp h
    exact ⟨twf_nil, w.2.1, w.2.2.1, w.2.2.2.1, twf_nil, twf_nil, twf_nil, twf_nil, twf_nil, twf_nil, twf_nil⟩))
theorem finalFailure_keeps {stage : Nat} {cause : Nat} {n : Nat} (ppins : L .pins = true) (ptime : L .time = true) (pregs : L .regs = true) (pglb : L .glb = true) (pnvs : L .nvs = true) (ppwr : L .pwr = true) (ppstate : L .pstate = true) (pwrp : L .wrp = true) (ppaths : L .paths = true) (psyn : L .syn = true) (pskn : L .skn = true) (pfft : L .fft = true) (pdpd : L .dpd = true) (prad : L .rad = true) (plne : L .lne = true) (pfhp : L .fhp = true) (ptim : L .tim = true) (pcas : L .cas = true) (pacq : L .acq = true) (pmon : L .mon = true) (pdrc : L .drc = true) (pdma : L .dma = true) (phka : L .hka = true) (pbda : L .bda = true) (pthm : L .thm = true) (prnd : L .rnd = true) (K : Kept L s₀ s) : Kept L s₀ (finalFailure stage cause n s) := by
  unfold finalFailure; try dsimp only
  repeat' first | with_reducible assumption | with_reducible apply coreOff_keeps | with_reducible apply setReg_keeps | with_reducible apply modBda_keeps | split | intro
theorem railFault_keeps {n : Nat} (ppins : L .pins = true) (ptime : L .time = true) (pregs : L .regs = true) (pglb : L .glb = true) (pnvs : L .nvs = true) (ppwr : L .pwr = true) (ppstate : L .pstate = true) (pwrp : L .wrp = true) (ppaths : L .paths = true) (psyn : L .syn = true) (pskn : L .skn = true) (pfft : L .fft = true) (pdpd : L .dpd = true) (prad : L .rad = true) (plne : L .lne = true) (pfhp : L .fhp = true) (ptim : L .tim = true) (pcas : L .cas = true) (pacq : L .acq = true) (pmon : L .mon = true) (pdrc : L .drc = true) (pdma : L .dma = true) (phka : L .hka = true) (pbda : L .bda = true) (pthm : L .thm = true) (prnd : L .rnd = true) (K : Kept L s₀ s) : Kept L s₀ (railFault n s) := by
  unfold railFault; try dsimp only
  repeat' first | with_reducible assumption | with_reducible apply finalFailure_keeps | split | intro
theorem shutdown_keeps {z : Nat} {t : Int} (ppins : L .pins = true) (ptime : L .time = true) (pregs : L .regs = true) (pglb : L .glb = true) (pnvs : L .nvs = true) (ppwr : L .pwr = true) (ppstate : L .pstate = true) (pwrp : L .wrp = true) (ppaths : L .paths = true) (psyn : L .syn = true) (pskn : L .skn = true) (pfft : L .fft = true) (pdpd : L .dpd = true) (prad : L .rad = true) (plne : L .lne = true) (pfhp : L .fhp = true) (ptim : L .tim = true) (pcas : L .cas = true) (pacq : L .acq = true) (pmon : L .mon = true) (pdrc : L .drc = true) (pdma : L .dma = true) (phka : L .hka = true) (pbda : L .bda = true) (pthm : L .thm = true) (prnd : L .rnd = true) (K : Kept L s₀ s) : Kept L s₀ (shutdown z t s) := by
  unfold shutdown; try dsimp only
  repeat' first | with_reducible assumption | with_reducible apply finalFailure_keeps | with_reducible apply queueWrite_keeps | with_reducible apply setReg_keeps | with_reducible apply modThm_keeps | split | intro
theorem reserveMapLoad_keeps  (pwrp : L .wrp = true) (ppaths : L .paths = true) (psyn : L .syn = true) (plne : L .lne = true) (pthm : L .thm = true) (K : Kept L s₀ s) : Kept L s₀ (reserveMapLoad s) := by
  unfold reserveMapLoad; try dsimp only
  repeat' first | with_reducible assumption | with_reducible apply steer_keeps | with_reducible apply modReserve_keeps | with_reducible apply pathFromMap_keeps | with_reducible apply modSensor_keeps | with_reducible apply modLane_keeps | with_reducible apply modSyn_keeps | with_reducible apply modWrp_keeps | with_reducible apply forAll_keeps | split | intro
theorem shutdownLoad_keeps  (pregs : L .regs = true) (K : Kept L s₀ s) : Kept L s₀ (shutdownLoad s) := by
  unfold shutdownLoad; try dsimp only
  repeat' first | with_reducible assumption | with_reducible apply setReg_keeps | split | intro
theorem pastureLoad_keeps  (pregs : L .regs = true) (ppaths : L .paths = true) (prad : L .rad = true) (K : Kept L s₀ s) : Kept L s₀ (pastureLoad s) := by
  unfold pastureLoad; try dsimp only
  repeat' first | with_reducible assumption | with_reducible apply pastureForce_keeps | split | intro
theorem dbgDraw_keeps  (pglb : L .glb = true) (prnd : L .rnd = true) (K : Kept L s₀ s) : Kept L s₀ (dbgDraw s) := by
  unfold dbgDraw; try dsimp only
  repeat' first | with_reducible assumption | (with_reducible exact fun h => h) | exact fun _ => twf_nil | with_reducible apply draw_keeps | with_reducible apply modGlb_keeps | split | (with_reducible refine Kept.pair1 (by assumption) ?_) | (with_reducible refine Kept.pair2 (by assumption) ?_) | intro
theorem recordsLoad_keeps  (pregs : L .regs = true) (pnvs : L .nvs = true) (pwrp : L .wrp = true) (ppaths : L .paths = true) (psyn : L .syn = true) (prad : L .rad = true) (plne : L .lne = true) (pdrc : L .drc = true) (pbda : L .bda = true) (pthm : L .thm = true) (K : Kept L s₀ s) : Kept L s₀ (recordsLoad s) := by
  unfold recordsLoad; try dsimp only
  repeat' first | with_reducible assumption | (with_reducible exact fun h => h) | exact fun _ => twf_nil | with_reducible apply pastureLoad_keeps | with_reducible apply shutdownLoad_keeps | with_reducible apply reserveMapLoad_keeps | with_reducible apply laneRecord_keeps | with_reducible apply bdaReadRecord_keeps | with_reducible apply drcStage1_keeps | with_reducible apply setReg_keeps | with_reducible apply modNvs_keeps | with_reducible apply forAll_keeps | split | intro
theorem enterStage1_keeps  (ppins : L .pins = true) (ptime : L .time = true) (pregs : L .regs = true) (pglb : L .glb = true) (pnvs : L .nvs = true) (ppwr : L .pwr = true) (ppstate : L .pstate = true) (pwrp : L .wrp = true) (ppaths : L .paths = true) (psyn : L .syn = true) (pskn : L .skn = true) (pfft : L .fft = true) (pdpd : L .dpd = true) (prad : L .rad = true) (plne : L .lne = true) (pfhp : L .fhp = true) (ptim : L .tim = true) (pcas : L .cas = true) (pacq : L .acq = true) (pmon : L .mon = true) (pdrc : L .drc = true) (pdma : L .dma = true) (phka : L .hka = true) (pbda : L .bda = true) (pthm : L .thm = true) (prnd : L .rnd = true) (K : Kept L s₀ s) : Kept L s₀ (enterStage1 s) := by
  unfold enterStage1; try dsimp only
  repeat' first | with_reducible assumption | with_reducible apply recordsLoad_keeps | with_reducible apply dbgDraw_keeps | with_reducible apply coreOff_keeps | with_reducible apply pastDraw_keeps | with_reducible apply modSyn_keeps | with_reducible apply modPwr_keeps | with_reducible apply modPins_keeps | split | intro

/-! ### Machine/Level.lean -/

theorem marginLow_keeps  (pregs : L .regs = true) (pglb : L .glb = true) (ppwr : L .pwr = true) (K : Kept L s₀ s) : Kept L s₀ (marginLow s) := by
  unfold marginLow; try dsimp only
  repeat' first | with_reducible assumption | with_reducible apply event_keeps | with_reducible apply modPwr_keeps | split | intro
theorem trimAfter_keeps  (pregs : L .regs = true) (pglb : L .glb = true) (ppwr : L .pwr = true) (K : Kept L s₀ s) : Kept L s₀ (trimAfter s) := by
  unfold trimAfter; try dsimp only
  repeat' first | with_reducible assumption | with_reducible apply marginLow_keeps | with_reducible apply railRequest_keeps | with_reducible apply modPwr_keeps | split | intro
theorem trimDown_keeps  (pregs : L .regs = true) (ppwr : L .pwr = true) (K : Kept L s₀ s) : Kept L s₀ (trimDown s) := by
  unfold trimDown; try dsimp only
  repeat' first | with_reducible assumption | with_reducible apply railRequest_keeps | split | intro
theorem levelOutcome_keeps {outcome : Nat} {code : Nat} (pregs : L .regs = true) (K : Kept L s₀ s) : Kept L s₀ (levelOutcome outcome code s) := by
  unfold levelOutcome; try dsimp only
  repeat' first | with_reducible assumption | with_reducible apply raise_keeps | with_reducible apply setFld_keeps | split | intro
theorem levelRefuse_keeps {code : Nat} (pregs : L .regs = true) (ppwr : L .pwr = true) (K : Kept L s₀ s) : Kept L s₀ (levelRefuse code s) := by
  unfold levelRefuse; try dsimp only
  repeat' first | with_reducible assumption | with_reducible apply railRequest_keeps | with_reducible apply modPwr_keeps | split | intro
theorem levelEnd_keeps {outcome : Nat} {code : Nat} (pregs : L .regs = true) (ppwr : L .pwr = true) (K : Kept L s₀ s) : Kept L s₀ (levelEnd outcome code s) := by
  unfold levelEnd; try dsimp only
  repeat' first | with_reducible assumption | with_reducible apply levelOutcome_keeps | with_reducible apply modPwr_keeps | split | intro
theorem levelRaise_keeps  (pregs : L .regs = true) (ppwr : L .pwr = true) (K : Kept L s₀ s) : Kept L s₀ (levelRaise s) := by
  unfold levelRaise; try dsimp only
  repeat' first | with_reducible assumption | with_reducible apply levelRefuse_keeps | with_reducible apply railRequest_keeps | with_reducible apply raise_keeps | with_reducible apply modPwr_keeps | split | intro
theorem rebasePlies_keeps {old : Nat} {new : Nat} (pskn : L .skn = true) (pdpd : L .dpd = true) (K : Kept L s₀ s) : Kept L s₀ (rebasePlies old new s) := by
  unfold rebasePlies; try dsimp only
  repeat' first | with_reducible assumption | (with_reducible exact fun h => h) | exact fun _ => twf_nil | with_reducible apply modDpd_keeps | with_reducible apply modSkn_keeps | split | intro
theorem setLevel_keeps {l : Nat} (pregs : L .regs = true) (pglb : L .glb = true) (ppwr : L .pwr = true) (pskn : L .skn = true) (pdpd : L .dpd = true) (pfhp : L .fhp = true) (pacq : L .acq = true) (pdrc : L .drc = true) (pdma : L .dma = true) (prnd : L .rnd = true) (K : Kept L s₀ s) : Kept L s₀ (setLevel l s) := by
  unfold setLevel; try dsimp only
  repeat' first | with_reducible assumption | with_reducible apply rebasePlies_keeps | with_reducible apply stepSwaps_keeps | with_reducible apply abortAttempts_keeps | with_reducible apply stopStreamsIf_keeps | with_reducible apply modFhp_keeps | with_reducible apply modPwr_keeps | split | intro
theorem levelPoint_keeps  (pregs : L .regs = true) (pglb : L .glb = true) (ppwr : L .pwr = true) (pskn : L .skn = true) (pdpd : L .dpd = true) (pfhp : L .fhp = true) (pacq : L .acq = true) (pdrc : L .drc = true) (pdma : L .dma = true) (prnd : L .rnd = true) (K : Kept L s₀ s) : Kept L s₀ (levelPoint s) := by
  unfold levelPoint; try dsimp only
  repeat' first | with_reducible assumption | with_reducible apply setLevel_keeps | with_reducible apply levelEnd_keeps | with_reducible apply levelRefuse_keeps | with_reducible apply railRequest_keeps | with_reducible apply raise_keeps | with_reducible apply modPwr_keeps | split | intro
theorem levelBegin_keeps {l : Nat} (pregs : L .regs = true) (pglb : L .glb = true) (ppwr : L .pwr = true) (K : Kept L s₀ s) : Kept L s₀ (levelBegin l s) := by
  unfold levelBegin; try dsimp only
  repeat' first | with_reducible assumption | with_reducible apply levelOutcome_keeps | with_reducible apply marginLow_keeps | with_reducible apply railRequest_keeps | with_reducible apply raise_keeps | with_reducible apply modPwr_keeps | split | intro
theorem levelReq_keeps {l : Nat} (pregs : L .regs = true) (pglb : L .glb = true) (ppwr : L .pwr = true) (pcas : L .cas = true) (K : Kept L s₀ s) : Kept L s₀ (levelReq l s) := by
  unfold levelReq; try dsimp only
  repeat' first | with_reducible assumption | with_reducible apply levelBegin_keeps | with_reducible apply levelOutcome_keeps | with_reducible apply openVote_keeps | with_reducible apply relayControl_keeps | split | intro
theorem levelReqWrite_keeps {w : Word} (pregs : L .regs = true) (pglb : L .glb = true) (ppwr : L .pwr = true) (pcas : L .cas = true) (K : Kept L s₀ s) : Kept L s₀ (levelReqWrite w s) := by
  unfold levelReqWrite; try dsimp only
  repeat' first | with_reducible assumption | with_reducible apply levelReq_keeps | with_reducible apply setReg_keeps | split | intro
theorem levelAgreed_keeps {l : Nat} (pregs : L .regs = true) (pglb : L .glb = true) (ppwr : L .pwr = true) (K : Kept L s₀ s) : Kept L s₀ (levelAgreed l s) := by
  unfold levelAgreed; try dsimp only
  repeat' first | with_reducible assumption | with_reducible apply levelBegin_keeps | split | intro
theorem levelAbandoned_keeps {code : Nat} (pregs : L .regs = true) (pcas : L .cas = true) (K : Kept L s₀ s) : Kept L s₀ (levelAbandoned code s) := by
  unfold levelAbandoned; try dsimp only
  repeat' first | with_reducible assumption | with_reducible apply levelOutcome_keeps | with_reducible apply relayControl_keeps | split | intro
theorem levelFrame_keeps {b : List Byte} (pregs : L .regs = true) (pglb : L .glb = true) (ppwr : L .pwr = true) (pcas : L .cas = true) (K : Kept L s₀ s) : Kept L s₀ (levelFrame b s) := by
  unfold levelFrame; try dsimp only
  repeat' first | with_reducible assumption | with_reducible apply levelBegin_keeps | with_reducible apply levelRefuse_keeps | with_reducible apply castVote_keeps | split | intro
theorem cadenceReport_keeps {r : List (Bool × Option Int)} (pregs : L .regs = true) (pglb : L .glb = true) (ppwr : L .pwr = true) (K : Kept L s₀ s) : Kept L s₀ (cadenceReport r s) := by
  unfold cadenceReport; try dsimp only
  repeat' first | with_reducible assumption | with_reducible apply levelRaise_keeps | with_reducible apply trimAfter_keeps | with_reducible apply marginLow_keeps | with_reducible apply setReg_keeps | with_reducible apply modPwr_keeps | with_reducible apply foldl_keeps | split | intro

/-! ### Machine/Sleep.lean -/

theorem stateResult_keeps {outcome : Nat} {req : SleepReq} {block : Nat} {code : Nat} (pregs : L .regs = true) (K : Kept L s₀ s) : Kept L s₀ (stateResult outcome req block code s) := by
  unfold stateResult; try dsimp only
  repeat' first | with_reducible assumption | with_reducible apply raise_keeps | with_reducible apply setReg_keeps | split | intro
theorem loopsOff_keeps  (ppaths : L .paths = true) (psyn : L .syn = true) (K : Kept L s₀ s) : Kept L s₀ (loopsOff s) := by
  unfold loopsOff; try dsimp only
  repeat' first | with_reducible assumption | with_reducible apply refreshMutes_keeps | with_reducible apply modSyn_keeps | split | intro
theorem clockBack_keeps  (pregs : L .regs = true) (ppaths : L .paths = true) (psyn : L .syn = true) (pfhp : L .fhp = true) (K : Kept L s₀ s) : Kept L s₀ (clockBack s) := by
  unfold clockBack; try dsimp only
  repeat' first | with_reducible assumption | with_reducible apply markResume_keeps | with_reducible apply noticeRole_keeps | with_reducible apply refreshMutes_keeps | with_reducible apply modSyn_keeps | with_reducible apply forAll_keeps | split | intro
theorem loopsBack_keeps  (pregs : L .regs = true) (ppaths : L .paths = true) (psyn : L .syn = true) (pfhp : L .fhp = true) (K : Kept L s₀ s) : Kept L s₀ (loopsBack s) := by
  unfold loopsBack; try dsimp only
  repeat' first | with_reducible assumption | with_reducible apply clockBack_keeps | with_reducible apply modSyn_keeps | split | intro
theorem lanesPark_keeps {req : SleepReq} (pregs : L .regs = true) (pglb : L .glb = true) (ppstate : L .pstate = true) (prad : L .rad = true) (plne : L .lne = true) (pfhp : L .fhp = true) (pcas : L .cas = true) (K : Kept L s₀ s) : Kept L s₀ (lanesPark req s) := by
  unfold lanesPark; try dsimp only
  repeat' first | with_reducible assumption | with_reducible apply helloSend_keeps | with_reducible apply unjoin_keeps | with_reducible apply lanesOff_keeps | with_reducible apply lanesToL2_keeps | with_reducible apply modCas_keeps | split | intro
theorem adaptEnd_keeps  (pregs : L .regs = true) (pglb : L .glb = true) (pdpd : L .dpd = true) (K : Kept L s₀ s) : Kept L s₀ (adaptEnd s) := by
  unfold adaptEnd; try dsimp only
  repeat' first | with_reducible assumption | with_reducible apply abortAttempts_keeps | split | intro
theorem stepHold_keeps {step : Nat} (pregs : L .regs = true) (pglb : L .glb = true) (pdpd : L .dpd = true) (K : Kept L s₀ s) : Kept L s₀ (stepHold step s) := by
  unfold stepHold; try dsimp only
  repeat' first | with_reducible assumption | with_reducible apply adaptEnd_keeps | split | intro
theorem stepAction_keeps {req : SleepReq} {step : Nat} (pregs : L .regs = true) (pglb : L .glb = true) (ppwr : L .pwr = true) (ppstate : L .pstate = true) (ppaths : L .paths = true) (psyn : L .syn = true) (pdpd : L .dpd = true) (prad : L .rad = true) (plne : L .lne = true) (pfhp : L .fhp = true) (pcas : L .cas = true) (pmon : L .mon = true) (pdrc : L .drc = true) (pbda : L .bda = true) (K : Kept L s₀ s) : Kept L s₀ (stepAction req step s) := by
  unfold stepAction; try dsimp only
  repeat' first | with_reducible assumption | with_reducible apply adaptEnd_keeps | with_reducible apply lanesPark_keeps | with_reducible apply loopsOff_keeps | with_reducible apply railRequest_keeps | with_reducible apply flushTick_keeps | with_reducible apply globalSafe_keeps | with_reducible apply monStop_keeps | with_reducible apply drcSleep_keeps | with_reducible apply noticeAll_keeps | split | intro
theorem stepUndo_keeps {step : Nat} (pregs : L .regs = true) (pglb : L .glb = true) (ppaths : L .paths = true) (psyn : L .syn = true) (plne : L .lne = true) (pfhp : L .fhp = true) (pcas : L .cas = true) (pmon : L .mon = true) (pdrc : L .drc = true) (K : Kept L s₀ s) : Kept L s₀ (stepUndo step s) := by
  unfold stepUndo; try dsimp only
  repeat' first | with_reducible assumption | with_reducible apply loopsBack_keeps | with_reducible apply lanesBack_keeps | with_reducible apply monRestart_keeps | with_reducible apply drcWake_keeps | with_reducible apply noticeAll_keeps | with_reducible apply modCas_keeps | with_reducible apply forAll_keeps | split | intro
theorem sleepRollback_keeps {block : Nat} {code : Nat} (pregs : L .regs = true) (pglb : L .glb = true) (ppwr : L .pwr = true) (ppaths : L .paths = true) (psyn : L .syn = true) (plne : L .lne = true) (pfhp : L .fhp = true) (pcas : L .cas = true) (pmon : L .mon = true) (pdrc : L .drc = true) (K : Kept L s₀ s) : Kept L s₀ (sleepRollback block code s) := by
  unfold sleepRollback; try dsimp only
  repeat' first | with_reducible assumption | with_reducible apply stepUndo_keeps | with_reducible apply stateResult_keeps | with_reducible apply modPwr_keeps | with_reducible apply forAll_keeps | split | intro
theorem sleepRefuse_keeps {low : Bool} {block : Nat} {code : Nat} (pregs : L .regs = true) (pglb : L .glb = true) (ppwr : L .pwr = true) (ppaths : L .paths = true) (psyn : L .syn = true) (plne : L .lne = true) (pfhp : L .fhp = true) (pcas : L .cas = true) (pmon : L .mon = true) (pdrc : L .drc = true) (K : Kept L s₀ s) : Kept L s₀ (sleepRefuse low block code s) := by
  unfold sleepRefuse; try dsimp only
  repeat' first | with_reducible assumption | with_reducible apply sleepRollback_keeps | with_reducible apply railRequest_keeps | with_reducible apply modPwr_keeps | split | intro
theorem sleepDone_keeps {req : SleepReq} (ppins : L .pins = true) (ptime : L .time = true) (pregs : L .regs = true) (pglb : L .glb = true) (pnvs : L .nvs = true) (ppwr : L .pwr = true) (ppstate : L .pstate = true) (pwrp : L .wrp = true) (ppaths : L .paths = true) (psyn : L .syn = true) (pskn : L .skn = true) (pfft : L .fft = true) (pdpd : L .dpd = true) (prad : L .rad = true) (plne : L .lne = true) (pfhp : L .fhp = true) (ptim : L .tim = true) (pcas : L .cas = true) (pacq : L .acq = true) (pmon : L .mon = true) (pdrc : L .drc = true) (pdma : L .dma = true) (phka : L .hka = true) (pbda : L .bda = true) (pthm : L .thm = true) (prnd : L .rnd = true) (K : Kept L s₀ s) : Kept L s₀ (sleepDone req s) := by
  unfold sleepDone; try dsimp only
  repeat' first | with_reducible assumption | with_reducible apply stateResult_keeps | with_reducible apply marginLow_keeps | with_reducible apply enterStage1_keeps | with_reducible apply coreOff_keeps | with_reducible apply timDoze_keeps | with_reducible apply modPState_keeps | with_reducible apply modPwr_keeps | split | intro
theorem sleepRun_keeps {late : Bool} {n : Nat} (ppins : L .pins = true) (ptime : L .time = true) (pregs : L .regs = true) (pglb : L .glb = true) (pnvs : L .nvs = true) (ppwr : L .pwr = true) (ppstate : L .pstate = true) (pwrp : L .wrp = true) (ppaths : L .paths = true) (psyn : L .syn = true) (pskn : L .skn = true) (pfft : L .fft = true) (pdpd : L .dpd = true) (prad : L .rad = true) (plne : L .lne = true) (pfhp : L .fhp = true) (ptim : L .tim = true) (pcas : L .cas = true) (pacq : L .acq = true) (pmon : L .mon = true) (pdrc : L .drc = true) (pdma : L .dma = true) (phka : L .hka = true) (pbda : L .bda = true) (pthm : L .thm = true) (prnd : L .rnd = true) (K : Kept L s₀ s) : Kept L s₀ (sleepRun late n s) := by
  induction n generalizing s late with
  | zero => exact K
  | succ n ih =>
    unfold sleepRun; dsimp only
    repeat' first | with_reducible assumption | with_reducible apply ih | with_reducible apply sleepRefuse_keeps | with_reducible apply sleepDone_keeps | with_reducible apply stepAction_keeps | with_reducible apply stepHold_keeps | with_reducible apply modPwr_keeps | split
theorem sleepGoOn_keeps  (ppins : L .pins = true) (ptime : L .time = true) (pregs : L .regs = true) (pglb : L .glb = true) (pnvs : L .nvs = true) (ppwr : L .pwr = true) (ppstate : L .pstate = true) (pwrp : L .wrp = true) (ppaths : L .paths = true) (psyn : L .syn = true) (pskn : L .skn = true) (pfft : L .fft = true) (pdpd : L .dpd = true) (prad : L .rad = true) (plne : L .lne = true) (pfhp : L .fhp = true) (ptim : L .tim = true) (pcas : L .cas = true) (pacq : L .acq = true) (pmon : L .mon = true) (pdrc : L .drc = true) (pdma : L .dma = true) (phka : L .hka = true) (pbda : L .bda = true) (pthm : L .thm = true) (prnd : L .rnd = true) (K : Kept L s₀ s) : Kept L s₀ (sleepGoOn s) := by
  unfold sleepGoOn; try dsimp only
  repeat' first | with_reducible assumption | with_reducible apply sleepRun_keeps | with_reducible apply sleepDone_keeps | with_reducible apply modPwr_keeps | split | intro
theorem sleepStepDone_keeps {late : Bool} (ppins : L .pins = true) (ptime : L .time = true) (pregs : L .regs = true) (pglb : L .glb = true) (pnvs : L .nvs = true) (ppwr : L .pwr = true) (ppstate : L .pstate = true) (pwrp : L .wrp = true) (ppaths : L .paths = true) (psyn : L .syn = true) (pskn : L .skn = true) (pfft : L .fft = true) (pdpd : L .dpd = true) (prad : L .rad = true) (plne : L .lne = true) (pfhp : L .fhp = true) (ptim : L .tim = true) (pcas : L .cas = true) (pacq : L .acq = true) (pmon : L .mon = true) (pdrc : L .drc = true) (pdma : L .dma = true) (phka : L .hka = true) (pbda : L .bda = true) (pthm : L .thm = true) (prnd : L .rnd = true) (K : Kept L s₀ s) : Kept L s₀ (sleepStepDone late s) := by
  unfold sleepStepDone; try dsimp only
  repeat' first | with_reducible assumption | with_reducible apply sleepRun_keeps | with_reducible apply modPwr_keeps | split | intro
theorem sleepBegin_keeps {req : SleepReq} {first : Nat} (ppins : L .pins = true) (ptime : L .time = true) (pregs : L .regs = true) (pglb : L .glb = true) (pnvs : L .nvs = true) (ppwr : L .pwr = true) (ppstate : L .pstate = true) (pwrp : L .wrp = true) (ppaths : L .paths = true) (psyn : L .syn = true) (pskn : L .skn = true) (pfft : L .fft = true) (pdpd : L .dpd = true) (prad : L .rad = true) (plne : L .lne = true) (pfhp : L .fhp = true) (ptim : L .tim = true) (pcas : L .cas = true) (pacq : L .acq = true) (pmon : L .mon = true) (pdrc : L .drc = true) (pdma : L .dma = true) (phka : L .hka = true) (pbda : L .bda = true) (pthm : L .thm = true) (prnd : L .rnd = true) (K : Kept L s₀ s) : Kept L s₀ (sleepBegin req first s) := by
  unfold sleepBegin; try dsimp only
  repeat' first | with_reducible assumption | with_reducible apply sleepRun_keeps | with_reducible apply stateResult_keeps | with_reducible apply modPwr_keeps | split | intro
theorem stateRequest_keeps {req : SleepReq} (ppins : L .pins = true) (ptime : L .time = true) (pregs : L .regs = true) (pglb : L .glb = true) (pnvs : L .nvs = true) (ppwr : L .pwr = true) (ppstate : L .pstate = true) (pwrp : L .wrp = true) (ppaths : L .paths = true) (psyn : L .syn = true) (pskn : L .skn = true) (pfft : L .fft = true) (pdpd : L .dpd = true) (prad : L .rad = true) (plne : L .lne = true) (pfhp : L .fhp = true) (ptim : L .tim = true) (pcas : L .cas = true) (pacq : L .acq = true) (pmon : L .mon = true) (pdrc : L .drc = true) (pdma : L .dma = true) (phka : L .hka = true) (pbda : L .bda = true) (pthm : L .thm = true) (prnd : L .rnd = true) (K : Kept L s₀ s) : Kept L s₀ (stateRequest req s) := by
  unfold stateRequest; try dsimp only
  repeat' first | with_reducible assumption | with_reducible apply sleepBegin_keeps | with_reducible apply stateResult_keeps | split | intro
theorem stateReqWrite_keeps {w : Word} (ppins : L .pins = true) (ptime : L .time = true) (pregs : L .regs = true) (pglb : L .glb = true) (pnvs : L .nvs = true) (ppwr : L .pwr = true) (ppstate : L .pstate = true) (pwrp : L .wrp = true) (ppaths : L .paths = true) (psyn : L .syn = true) (pskn : L .skn = true) (pfft : L .fft = true) (pdpd : L .dpd = true) (prad : L .rad = true) (plne : L .lne = true) (pfhp : L .fhp = true) (ptim : L .tim = true) (pcas : L .cas = true) (pacq : L .acq = true) (pmon : L .mon = true) (pdrc : L .drc = true) (pdma : L .dma = true) (phka : L .hka = true) (pbda : L .bda = true) (pthm : L .thm = true) (prnd : L .rnd = true) (K : Kept L s₀ s) : Kept L s₀ (stateReqWrite w s) := by
  unfold stateReqWrite; try dsimp only
  repeat' first | with_reducible assumption | with_reducible apply stateRequest_keeps | split | intro
theorem autoDoze_keeps  (ppins : L .pins = true) (ptime : L .time = true) (pregs : L .regs = true) (pglb : L .glb = true) (pnvs : L .nvs = true) (ppwr : L .pwr = true) (ppstate : L .pstate = true) (pwrp : L .wrp = true) (ppaths : L .paths = true) (psyn : L .syn = true) (pskn : L .skn = true) (pfft : L .fft = true) (pdpd : L .dpd = true) (prad : L .rad = true) (plne : L .lne = true) (pfhp : L .fhp = true) (ptim : L .tim = true) (pcas : L .cas = true) (pacq : L .acq = true) (pmon : L .mon = true) (pdrc : L .drc = true) (pdma : L .dma = true) (phka : L .hka = true) (pbda : L .bda = true) (pthm : L .thm = true) (prnd : L .rnd = true) (K : Kept L s₀ s) : Kept L s₀ (autoDoze s) := by
  unfold autoDoze; try dsimp only
  repeat' first | with_reducible assumption | with_reducible apply stateRequest_keeps | split | intro
theorem relockBegin_keeps  (psyn : L .syn = true) (K : Kept L s₀ s) : Kept L s₀ (relockBegin s) := by
  unfold relockBegin; try dsimp only
  repeat' first | with_reducible assumption | with_reducible apply modSyn_keeps | split | intro
theorem dozeExitDone_keeps {mr4 : Option Nat} {drift : Int} (pregs : L .regs = true) (pglb : L .glb = true) (ppwr : L .pwr = true) (ppstate : L .pstate = true) (ppaths : L .paths = true) (psyn : L .syn = true) (pdpd : L .dpd = true) (prad : L .rad = true) (plne : L .lne = true) (pfhp : L .fhp = true) (ptim : L .tim = true) (pcas : L .cas = true) (pmon : L .mon = true) (pdrc : L .drc = true) (K : Kept L s₀ s) : Kept L s₀ (dozeExitDone mr4 drift s) := by
  unfold dozeExitDone; try dsimp only
  repeat' first | with_reducible assumption | with_reducible apply clockBack_keeps | with_reducible apply lanesBack_keeps | with_reducible apply jobsResume_keeps | with_reducible apply timStart_keeps | with_reducible apply monRestart_keeps | with_reducible apply drcWake_keeps | with_reducible apply dqsCheck_keeps | with_reducible apply readMr4_keeps | with_reducible apply noticeAll_keeps | with_reducible apply raise_keeps | with_reducible apply modCas_keeps | with_reducible apply modPState_keeps | with_reducible apply modPwr_keeps | with_reducible apply forAll_keeps | split | intro
theorem recordWake_keeps {src : Nat} {cmd : Nat} (pregs : L .regs = true) (ppwr : L .pwr = true) (K : Kept L s₀ s) : Kept L s₀ (recordWake src cmd s) := by
  unfold recordWake; try dsimp only
  repeat' first | with_reducible assumption | with_reducible apply setReg_keeps | with_reducible apply modPwr_keeps | split | intro
theorem climbBegin_keeps {hold : Bool} (ppins : L .pins = true) (ptime : L .time = true) (pregs : L .regs = true) (pglb : L .glb = true) (pnvs : L .nvs = true) (ppwr : L .pwr = true) (ppstate : L .pstate = true) (pwrp : L .wrp = true) (ppaths : L .paths = true) (psyn : L .syn = true) (pskn : L .skn = true) (pfft : L .fft = true) (pdpd : L .dpd = true) (prad : L .rad = true) (plne : L .lne = true) (pfhp : L .fhp = true) (ptim : L .tim = true) (pcas : L .cas = true) (pacq : L .acq = true) (pmon : L .mon = true) (pdrc : L .drc = true) (pdma : L .dma = true) (phka : L .hka = true) (pbda : L .bda = true) (pthm : L .thm = true) (prnd : L .rnd = true) (K : Kept L s₀ s) : Kept L s₀ (climbBegin hold s) := by
  unfold climbBegin; try dsimp only
  repeat' first | with_reducible assumption | with_reducible apply finalFailure_keeps | with_reducible apply requestGroup_keeps | with_reducible apply modPwr_keeps | split | intro
theorem wake_keeps {src : Nat} {cmd : Nat} (ppins : L .pins = true) (ptime : L .time = true) (pregs : L .regs = true) (pglb : L .glb = true) (pnvs : L .nvs = true) (ppwr : L .pwr = true) (ppstate : L .pstate = true) (pwrp : L .wrp = true) (ppaths : L .paths = true) (psyn : L .syn = true) (pskn : L .skn = true) (pfft : L .fft = true) (pdpd : L .dpd = true) (prad : L .rad = true) (plne : L .lne = true) (pfhp : L .fhp = true) (ptim : L .tim = true) (pcas : L .cas = true) (pacq : L .acq = true) (pmon : L .mon = true) (pdrc : L .drc = true) (pdma : L .dma = true) (phka : L .hka = true) (pbda : L .bda = true) (pthm : L .thm = true) (prnd : L .rnd = true) (K : Kept L s₀ s) : Kept L s₀ (wake src cmd s) := by
  unfold wake; try dsimp only
  repeat' first | with_reducible assumption | with_reducible apply climbBegin_keeps | with_reducible apply recordWake_keeps | with_reducible apply relockBegin_keeps | with_reducible apply sleepRefuse_keeps | with_reducible apply railRequest_keeps | with_reducible apply surveyAbort_keeps | with_reducible apply modPwr_keeps | split | intro
theorem shieling_keeps {site : Nat} {cmd : Nat} {crcOk : Bool} (ppins : L .pins = true) (ptime : L .time = true) (pregs : L .regs = true) (pglb : L .glb = true) (pnvs : L .nvs = true) (ppwr : L .pwr = true) (ppstate : L .pstate = true) (pwrp : L .wrp = true) (ppaths : L .paths = true) (psyn : L .syn = true) (pskn : L .skn = true) (pfft : L .fft = true) (pdpd : L .dpd = true) (prad : L .rad = true) (plne : L .lne = true) (pfhp : L .fhp = true) (ptim : L .tim = true) (pcas : L .cas = true) (pacq : L .acq = true) (pmon : L .mon = true) (pdrc : L .drc = true) (pdma : L .dma = true) (phka : L .hka = true) (pbda : L .bda = true) (pthm : L .thm = true) (prnd : L .rnd = true) (K : Kept L s₀ s) : Kept L s₀ (shieling site cmd crcOk s) := by
  unfold shieling; try dsimp only
  repeat' first | with_reducible assumption | with_reducible apply wake_keeps | with_reducible apply addLo_keeps | with_reducible apply addHi_keeps | split | intro

/-! ### Machine/Power.lean -/

theorem vsenRise_keeps (ppins : L .pins = true) (ptime : L .time = true) (pregs : L .regs = true) (pglb : L .glb = true) (pnvs : L .nvs = true) (ppwr : L .pwr = true) (ppstate : L .pstate = true) (pwrp : L .wrp = true) (ppaths : L .paths = true) (psyn : L .syn = true) (pskn : L .skn = true) (pfft : L .fft = true) (pdpd : L .dpd = true) (prad : L .rad = true) (plne : L .lne = true) (pfhp : L .fhp = true) (ptim : L .tim = true) (pcas : L .cas = true) (pacq : L .acq = true) (pmon : L .mon = true) (pdrc : L .drc = true) (pdma : L .dma = true) (phka : L .hka = true) (pbda : L .bda = true) (pthm : L .thm = true) (prnd : L .rnd = true) (K : Kept L s₀ s) : Kept L s₀ (vsenRise s) := by
  unfold vsenRise
  apply copySentinel_keeps
  all_goals first | assumption | skip
  exact Kept.anew (by intro p; cases p <;> assumption) K rfl rfl (fun h => wf_iff.mpr (by
    have w := wf_iff.mp h
    exact ⟨twf_nil, twf_nil, w.2.2.1, w.2.2.2.1, twf_nil, twf_nil, twf_nil, twf_nil, twf_nil, twf_nil, twf_nil⟩))
theorem vsenFall_keeps  (ppins : L .pins = true) (ptime : L .time = true) (pregs : L .regs = true) (pglb : L .glb = true) (pnvs : L .nvs = true) (ppwr : L .pwr = true) (ppstate : L .pstate = true) (pwrp : L .wrp = true) (ppaths : L .paths = true) (psyn : L .syn = true) (pskn : L .skn = true) (pfft : L .fft = true) (pdpd : L .dpd = true) (prad : L .rad = true) (plne : L .lne = true) (pfhp : L .fhp = true) (ptim : L .tim = true) (pcas : L .cas = true) (pacq : L .acq = true) (pmon : L .mon = true) (pdrc : L .drc = true) (pdma : L .dma = true) (phka : L .hka = true) (pbda : L .bda = true) (pthm : L .thm = true) (prnd : L .rnd = true) (K : Kept L s₀ s) : Kept L s₀ (vsenFall s) := by
  unfold vsenFall; try dsimp only
  repeat' first | with_reducible assumption | with_reducible apply vsenRise_keeps | with_reducible apply commitWrite_keeps | with_reducible apply modBda_keeps | with_reducible apply modPwr_keeps | split | intro
theorem railAcked_keeps {n : Nat} {q : RailReq} (ppins : L .pins = true) (ptime : L .time = true) (pregs : L .regs = true) (pglb : L .glb = true) (pnvs : L .nvs = true) (ppwr : L .pwr = true) (ppstate : L .pstate = true) (pwrp : L .wrp = true) (ppaths : L .paths = true) (psyn : L .syn = true) (pskn : L .skn = true) (pfft : L .fft = true) (pdpd : L .dpd = true) (prad : L .rad = true) (plne : L .lne = true) (pfhp : L .fhp = true) (ptim : L .tim = true) (pcas : L .cas = true) (pacq : L .acq = true) (pmon : L .mon = true) (pdrc : L .drc = true) (pdma : L .dma = true) (phka : L .hka = true) (pbda : L .bda = true) (pthm : L .thm = true) (prnd : L .rnd = true) (K : Kept L s₀ s) : Kept L s₀ (railAcked n q s) := by
  unfold railAcked; try dsimp only
  repeat' first | with_reducible assumption | with_reducible apply sleepGoOn_keeps | with_reducible apply sleepRollback_keeps | with_reducible apply levelEnd_keeps | with_reducible apply requestGroup_keeps | with_reducible apply railRequest_keeps | with_reducible apply raise_keeps | with_reducible apply modPwr_keeps | split | intro
theorem railUp_keeps {n : Nat} {q : RailReq} (pregs : L .regs = true) (ppwr : L .pwr = true) (K : Kept L s₀ s) : Kept L s₀ (railUp n q s) := by
  unfold railUp; try dsimp only
  repeat' first | with_reducible assumption | with_reducible apply pmbNote_keeps | with_reducible apply modRail_keeps | with_reducible apply modPwr_keeps | split | intro
theorem railDone_keeps {n : Nat} {q : RailReq} (ppins : L .pins = true) (ptime : L .time = true) (pregs : L .regs = true) (pglb : L .glb = true) (pnvs : L .nvs = true) (ppwr : L .pwr = true) (ppstate : L .pstate = true) (pwrp : L .wrp = true) (ppaths : L .paths = true) (psyn : L .syn = true) (pskn : L .skn = true) (pfft : L .fft = true) (pdpd : L .dpd = true) (prad : L .rad = true) (plne : L .lne = true) (pfhp : L .fhp = true) (ptim : L .tim = true) (pcas : L .cas = true) (pacq : L .acq = true) (pmon : L .mon = true) (pdrc : L .drc = true) (pdma : L .dma = true) (phka : L .hka = true) (pbda : L .bda = true) (pthm : L .thm = true) (prnd : L .rnd = true) (K : Kept L s₀ s) : Kept L s₀ (railDone n q s) := by
  unfold railDone; try dsimp only
  repeat' first | with_reducible assumption | with_reducible apply railUp_keeps | with_reducible apply railAcked_keeps | split | intro
theorem pmbusDone_keeps {n : Nat} {mode : Nat} (ppins : L .pins = true) (ptime : L .time = true) (pregs : L .regs = true) (pglb : L .glb = true) (pnvs : L .nvs = true) (ppwr : L .pwr = true) (ppstate : L .pstate = true) (pwrp : L .wrp = true) (ppaths : L .paths = true) (psyn : L .syn = true) (pskn : L .skn = true) (pfft : L .fft = true) (pdpd : L .dpd = true) (prad : L .rad = true) (plne : L .lne = true) (pfhp : L .fhp = true) (ptim : L .tim = true) (pcas : L .cas = true) (pacq : L .acq = true) (pmon : L .mon = true) (pdrc : L .drc = true) (pdma : L .dma = true) (phka : L .hka = true) (pbda : L .bda = true) (pthm : L .thm = true) (prnd : L .rnd = true) (K : Kept L s₀ s) : Kept L s₀ (pmbusDone n mode s) := by
  unfold pmbusDone; try dsimp only
  repeat' first | with_reducible assumption | with_reducible apply railDone_keeps | with_reducible apply finalFailure_keeps | with_reducible apply modRail_keeps | split | intro
theorem railGaveUp_keeps {n : Nat} {q : RailReq} (ppins : L .pins = true) (ptime : L .time = true) (pregs : L .regs = true) (pglb : L .glb = true) (pnvs : L .nvs = true) (ppwr : L .pwr = true) (ppstate : L .pstate = true) (pwrp : L .wrp = true) (ppaths : L .paths = true) (psyn : L .syn = true) (pskn : L .skn = true) (pfft : L .fft = true) (pdpd : L .dpd = true) (prad : L .rad = true) (plne : L .lne = true) (pfhp : L .fhp = true) (ptim : L .tim = true) (pcas : L .cas = true) (pacq : L .acq = true) (pmon : L .mon = true) (pdrc : L .drc = true) (pdma : L .dma = true) (phka : L .hka = true) (pbda : L .bda = true) (pthm : L .thm = true) (prnd : L .rnd = true) (K : Kept L s₀ s) : Kept L s₀ (railGaveUp n q s) := by
  unfold railGaveUp; try dsimp only
  repeat' first | with_reducible assumption | with_reducible apply sleepRefuse_keeps | with_reducible apply levelEnd_keeps | with_reducible apply levelRefuse_keeps | with_reducible apply finalFailure_keeps | with_reducible apply setFld_keeps | with_reducible apply modRail_keeps | with_reducible apply modPwr_keeps | split | intro
theorem attemptFailed_keeps {n : Nat} {why : PmbWhy} (ppins : L .pins = true) (ptime : L .time = true) (pregs : L .regs = true) (pglb : L .glb = true) (pnvs : L .nvs = true) (ppwr : L .pwr = true) (ppstate : L .pstate = true) (pwrp : L .wrp = true) (ppaths : L .paths = true) (psyn : L .syn = true) (pskn : L .skn = true) (pfft : L .fft = true) (pdpd : L .dpd = true) (prad : L .rad = true) (plne : L .lne = true) (pfhp : L .fhp = true) (ptim : L .tim = true) (pcas : L .cas = true) (pacq : L .acq = true) (pmon : L .mon = true) (pdrc : L .drc = true) (pdma : L .dma = true) (phka : L .hka = true) (pbda : L .bda = true) (pthm : L .thm = true) (prnd : L .rnd = true) (K : Kept L s₀ s) : Kept L s₀ (attemptFailed n why s) := by
  unfold attemptFailed; try dsimp only
  repeat' first | with_reducible assumption | with_reducible apply railGaveUp_keeps | with_reducible apply viol_keeps | with_reducible apply addLo_keeps | with_reducible apply addHi_keeps | with_reducible apply raise_keeps | with_reducible apply modRail_keeps | split | intro
theorem railRetry_keeps {n : Nat} (pregs : L .regs = true) (ppwr : L .pwr = true) (K : Kept L s₀ s) : Kept L s₀ (railRetry n s) := by
  unfold railRetry; try dsimp only
  repeat' first | with_reducible assumption | with_reducible apply pmbNote_keeps | with_reducible apply modRail_keeps | split | intro
theorem faultSeen_keeps {n : Nat} {q : RailReq} (pregs : L .regs = true) (pglb : L .glb = true) (ppwr : L .pwr = true) (K : Kept L s₀ s) : Kept L s₀ (faultSeen n q s) := by
  unfold faultSeen; try dsimp only
  repeat' first | with_reducible assumption | with_reducible apply viol_keeps | with_reducible apply raise_keeps | with_reducible apply modRail_keeps | split | intro
theorem railBad_keeps {n : Nat} (ppins : L .pins = true) (ptime : L .time = true) (pregs : L .regs = true) (pglb : L .glb = true) (pnvs : L .nvs = true) (ppwr : L .pwr = true) (ppstate : L .pstate = true) (pwrp : L .wrp = true) (ppaths : L .paths = true) (psyn : L .syn = true) (pskn : L .skn = true) (pfft : L .fft = true) (pdpd : L .dpd = true) (prad : L .rad = true) (plne : L .lne = true) (pfhp : L .fhp = true) (ptim : L .tim = true) (pcas : L .cas = true) (pacq : L .acq = true) (pmon : L .mon = true) (pdrc : L .drc = true) (pdma : L .dma = true) (phka : L .hka = true) (pbda : L .bda = true) (pthm : L .thm = true) (prnd : L .rnd = true) (K : Kept L s₀ s) : Kept L s₀ (railBad n s) := by
  unfold railBad; try dsimp only
  repeat' first | with_reducible assumption | with_reducible apply faultSeen_keeps | with_reducible apply attemptFailed_keeps | with_reducible apply railFault_keeps | with_reducible apply viol_keeps | split | intro
theorem smbAlert_keeps {words : List (BitVec 16)} (ppins : L .pins = true) (ptime : L .time = true) (pregs : L .regs = true) (pglb : L .glb = true) (pnvs : L .nvs = true) (ppwr : L .pwr = true) (ppstate : L .pstate = true) (pwrp : L .wrp = true) (ppaths : L .paths = true) (psyn : L .syn = true) (pskn : L .skn = true) (pfft : L .fft = true) (pdpd : L .dpd = true) (prad : L .rad = true) (plne : L .lne = true) (pfhp : L .fhp = true) (ptim : L .tim = true) (pcas : L .cas = true) (pacq : L .acq = true) (pmon : L .mon = true) (pdrc : L .drc = true) (pdma : L .dma = true) (phka : L .hka = true) (pbda : L .bda = true) (pthm : L .thm = true) (prnd : L .rnd = true) (K : Kept L s₀ s) : Kept L s₀ (smbAlert words s) := by
  unfold smbAlert; try dsimp only
  repeat' first | with_reducible assumption | with_reducible apply railBad_keeps | with_reducible apply pmbNote_keeps | with_reducible apply viol_keeps | with_reducible apply forAll_keeps | split | intro
theorem telemetry_keeps {r : List (BitVec 16 × BitVec 16)} (pregs : L .regs = true) (ppwr : L .pwr = true) (K : Kept L s₀ s) : Kept L s₀ (telemetry r s) := by
  unfold telemetry; try dsimp only
  repeat' first | with_reducible assumption | with_reducible apply pmbNote_keeps | with_reducible apply modRail_keeps | with_reducible apply forAll_keeps | split | intro
theorem refWindow_keeps {edges : Nat} (ppwr : L .pwr = true) (K : Kept L s₀ s) : Kept L s₀ (refWindow edges s) := by
  unfold refWindow; try dsimp only
  repeat' first | with_reducible assumption | with_reducible apply modPwr_keeps | split | intro
theorem refTimeout_keeps  (ppins : L .pins = true) (ptime : L .time = true) (pregs : L .regs = true) (pglb : L .glb = true) (pnvs : L .nvs = true) (ppwr : L .pwr = true) (ppstate : L .pstate = true) (pwrp : L .wrp = true) (ppaths : L .paths = true) (psyn : L .syn = true) (pskn : L .skn = true) (pfft : L .fft = true) (pdpd : L .dpd = true) (prad : L .rad = true) (plne : L .lne = true) (pfhp : L .fhp = true) (ptim : L .tim = true) (pcas : L .cas = true) (pacq : L .acq = true) (pmon : L .mon = true) (pdrc : L .drc = true) (pdma : L .dma = true) (phka : L .hka = true) (pbda : L .bda = true) (pthm : L .thm = true) (prnd : L .rnd = true) (K : Kept L s₀ s) : Kept L s₀ (refTimeout s) := by
  unfold refTimeout; try dsimp only
  repeat' first | with_reducible assumption | with_reducible apply finalFailure_keeps | with_reducible apply modPwr_keeps | split | intro
theorem firmware_keeps  (ppins : L .pins = true) (ptime : L .time = true) (pregs : L .regs = true) (pglb : L .glb = true) (pnvs : L .nvs = true) (ppwr : L .pwr = true) (ppstate : L .pstate = true) (pwrp : L .wrp = true) (ppaths : L .paths = true) (psyn : L .syn = true) (pskn : L .skn = true) (pfft : L .fft = true) (pdpd : L .dpd = true) (prad : L .rad = true) (plne : L .lne = true) (pfhp : L .fhp = true) (ptim : L .tim = true) (pcas : L .cas = true) (pacq : L .acq = true) (pmon : L .mon = true) (pdrc : L .drc = true) (pdma : L .dma = true) (phka : L .hka = true) (pbda : L .bda = true) (pthm : L .thm = true) (prnd : L .rnd = true) (K : Kept L s₀ s) : Kept L s₀ (firmware s) := by
  unfold firmware; try dsimp only
  repeat' first | with_reducible assumption | with_reducible apply finalFailure_keeps | with_reducible apply setFld_keeps | with_reducible apply setReg_keeps | with_reducible apply modPwr_keeps | split | intro
theorem linkWait_keeps  (ppins : L .pins = true) (ptime : L .time = true) (pregs : L .regs = true) (pglb : L .glb = true) (pnvs : L .nvs = true) (ppwr : L .pwr = true) (ppstate : L .pstate = true) (pwrp : L .wrp = true) (ppaths : L .paths = true) (psyn : L .syn = true) (pskn : L .skn = true) (pfft : L .fft = true) (pdpd : L .dpd = true) (prad : L .rad = true) (plne : L .lne = true) (pfhp : L .fhp = true) (ptim : L .tim = true) (pcas : L .cas = true) (pacq : L .acq = true) (pmon : L .mon = true) (pdrc : L .drc = true) (pdma : L .dma = true) (phka : L .hka = true) (pbda : L .bda = true) (pthm : L .thm = true) (prnd : L .rnd = true) (K : Kept L s₀ s) : Kept L s₀ (linkWait s) := by
  unfold linkWait; try dsimp only
  repeat' first | with_reducible assumption | with_reducible apply finalFailure_keeps | split | intro
theorem pl0Request_keeps  (pregs : L .regs = true) (ppwr : L .pwr = true) (K : Kept L s₀ s) : Kept L s₀ (pl0Request s) := by
  unfold pl0Request; try dsimp only
  repeat' first | with_reducible assumption | with_reducible apply railRequest_keeps | split | intro
theorem enterStage2_keeps  (pregs : L .regs = true) (pglb : L .glb = true) (ppwr : L .pwr = true) (ppstate : L .pstate = true) (prad : L .rad = true) (pfhp : L .fhp = true) (ptim : L .tim = true) (pcas : L .cas = true) (K : Kept L s₀ s) : Kept L s₀ (enterStage2 s) := by
  unfold enterStage2; try dsimp only
  repeat' first | with_reducible assumption | with_reducible apply pl0Request_keeps | with_reducible apply timStart_keeps | with_reducible apply raise_keeps | with_reducible apply modPwr_keeps | split | intro
theorem enterStage3_keeps  (pregs : L .regs = true) (pglb : L .glb = true) (ppwr : L .pwr = true) (ppstate : L .pstate = true) (ppaths : L .paths = true) (pdpd : L .dpd = true) (pfhp : L .fhp = true) (pacq : L .acq = true) (pdrc : L .drc = true) (pdma : L .dma = true) (prnd : L .rnd = true) (K : Kept L s₀ s) : Kept L s₀ (enterStage3 s) := by
  unfold enterStage3; try dsimp only
  repeat' first | with_reducible assumption | with_reducible apply marginLow_keeps | with_reducible apply fhpStage3_keeps | with_reducible apply chainFaultRx_keeps | with_reducible apply chainFaultTx_keeps | with_reducible apply dpdStage3_keeps | with_reducible apply refreshMutes_keeps | with_reducible apply raise_keeps | with_reducible apply setFld_keeps | with_reducible apply modPState_keeps | with_reducible apply modPwr_keeps | with_reducible apply forAll_keeps | split | intro
theorem stageClimb_keeps  (ppins : L .pins = true) (ptime : L .time = true) (pregs : L .regs = true) (pglb : L .glb = true) (pnvs : L .nvs = true) (ppwr : L .pwr = true) (ppstate : L .pstate = true) (pwrp : L .wrp = true) (ppaths : L .paths = true) (psyn : L .syn = true) (pskn : L .skn = true) (pfft : L .fft = true) (pdpd : L .dpd = true) (prad : L .rad = true) (plne : L .lne = true) (pfhp : L .fhp = true) (ptim : L .tim = true) (pcas : L .cas = true) (pacq : L .acq = true) (pmon : L .mon = true) (pdrc : L .drc = true) (pdma : L .dma = true) (phka : L .hka = true) (pbda : L .bda = true) (pthm : L .thm = true) (prnd : L .rnd = true) (K : Kept L s₀ s) : Kept L s₀ (stageClimb s) := by
  unfold stageClimb; try dsimp only
  repeat' first | with_reducible assumption | with_reducible apply enterStage3_keeps | with_reducible apply enterStage2_keeps | with_reducible apply enterStage1_keeps | split | intro
theorem climbOn_keeps  (pregs : L .regs = true) (ppwr : L .pwr = true) (K : Kept L s₀ s) : Kept L s₀ (climbOn s) := by
  unfold climbOn; try dsimp only
  repeat' first | with_reducible assumption | with_reducible apply pl0Request_keeps | with_reducible apply modPwr_keeps | split | intro
theorem release_keeps {on : Bool} (pregs : L .regs = true) (pglb : L .glb = true) (ppwr : L .pwr = true) (ppstate : L .pstate = true) (prad : L .rad = true) (pfhp : L .fhp = true) (pcas : L .cas = true) (K : Kept L s₀ s) : Kept L s₀ (release on s) := by
  unfold release; try dsimp only
  repeat' first | with_reducible assumption | with_reducible apply allBurstsOut_keeps | with_reducible apply setFld_keeps | with_reducible apply modPwr_keeps | split | intro
theorem stageCtrlWrite_keeps {w : Word} (ppins : L .pins = true) (ptime : L .time = true) (pregs : L .regs = true) (pglb : L .glb = true) (pnvs : L .nvs = true) (ppwr : L .pwr = true) (ppstate : L .pstate = true) (pwrp : L .wrp = true) (ppaths : L .paths = true) (psyn : L .syn = true) (pskn : L .skn = true) (pfft : L .fft = true) (pdpd : L .dpd = true) (prad : L .rad = true) (plne : L .lne = true) (pfhp : L .fhp = true) (ptim : L .tim = true) (pcas : L .cas = true) (pacq : L .acq = true) (pmon : L .mon = true) (pdrc : L .drc = true) (pdma : L .dma = true) (phka : L .hka = true) (pbda : L .bda = true) (pthm : L .thm = true) (prnd : L .rnd = true) (K : Kept L s₀ s) : Kept L s₀ (stageCtrlWrite w s) := by
  unfold stageCtrlWrite; try dsimp only
  repeat' first | with_reducible assumption | with_reducible apply release_keeps | with_reducible apply climbOn_keeps | with_reducible apply stateRequest_keeps | split | intro
theorem stage4Entry_keeps  (pregs : L .regs = true) (ppwr : L .pwr = true) (ppstate : L .pstate = true) (ppaths : L .paths = true) (K : Kept L s₀ s) : Kept L s₀ (stage4Entry s) := by
  unfold stage4Entry; try dsimp only
  repeat' first | with_reducible assumption | with_reducible apply syncPState_keeps | with_reducible apply raise_keeps | with_reducible apply modPath_keeps | with_reducible apply modPwr_keeps | with_reducible apply forAll_keeps | split | intro
theorem stage4Exit_keeps  (pregs : L .regs = true) (pglb : L .glb = true) (pnvs : L .nvs = true) (ppwr : L .pwr = true) (ppstate : L .pstate = true) (ppaths : L .paths = true) (psyn : L .syn = true) (pdpd : L .dpd = true) (prad : L .rad = true) (pfhp : L .fhp = true) (pcas : L .cas = true) (K : Kept L s₀ s) : Kept L s₀ (stage4Exit s) := by
  unfold stage4Exit; try dsimp only
  repeat' first | with_reducible assumption | with_reducible apply calAbort_keeps | with_reducible apply allBurstsOut_keeps | with_reducible apply syncPState_keeps | with_reducible apply surveyAbort_keeps | with_reducible apply refreshMutes_keeps | with_reducible apply raise_keeps | with_reducible apply modGroup_keeps | with_reducible apply modPwr_keeps | with_reducible apply forAll_keeps | split | intro
theorem wakeFailClear_keeps  (pregs : L .regs = true) (K : Kept L s₀ s) : Kept L s₀ (wakeFailClear s) := by
  unfold wakeFailClear; try dsimp only
  repeat' first | with_reducible assumption | with_reducible apply setReg_keeps | split | intro
theorem shlCfgWrite_keeps {w : Word} (pregs : L .regs = true) (pglb : L .glb = true) (K : Kept L s₀ s) : Kept L s₀ (shlCfgWrite w s) := by
  unfold shlCfgWrite; try dsimp only
  repeat' first | with_reducible assumption | with_reducible apply refusedWrite_keeps | with_reducible apply setReg_keeps | split | intro
theorem thermalSample_keeps {z : Nat} {raws : List (Option Int)} (ppins : L .pins = true) (ptime : L .time = true) (pregs : L .regs = true) (pglb : L .glb = true) (pnvs : L .nvs = true) (ppwr : L .pwr = true) (ppstate : L .pstate = true) (pwrp : L .wrp = true) (ppaths : L .paths = true) (psyn : L .syn = true) (pskn : L .skn = true) (pfft : L .fft = true) (pdpd : L .dpd = true) (prad : L .rad = true) (plne : L .lne = true) (pfhp : L .fhp = true) (ptim : L .tim = true) (pcas : L .cas = true) (pacq : L .acq = true) (pmon : L .mon = true) (pdrc : L .drc = true) (pdma : L .dma = true) (phka : L .hka = true) (pbda : L .bda = true) (pthm : L .thm = true) (prnd : L .rnd = true) (K : Kept L s₀ s) : Kept L s₀ (thermalSample z raws s) := by
  unfold thermalSample; try dsimp only
  repeat' first | with_reducible assumption | with_reducible apply shutdown_keeps | with_reducible apply synZoneMoved_keeps | with_reducible apply surveyAbort_keeps | with_reducible apply sampleZone_keeps | split | intro

/-! ### Machine/Cas.lean -/

theorem foldRx_keeps {side : Nat} {b : List Byte} {take_ : State → State} (htake_ : ∀  t, Kept L s₀ t → Kept L s₀ (take_  t)) (pregs : L .regs = true) (pglb : L .glb = true) (ppstate : L .pstate = true) (prad : L .rad = true) (pfhp : L .fhp = true) (pcas : L .cas = true) (K : Kept L s₀ s) : Kept L s₀ (foldRx side b take_ s) := by
  unfold foldRx; try dsimp only
  repeat' first | with_reducible assumption | with_reducible apply htake_ | with_reducible apply casViol_keeps | with_reducible apply addReg_keeps | split | intro
theorem passOn_keeps {side : Nat} {b : List Byte} (pcas : L .cas = true) (K : Kept L s₀ s) : Kept L s₀ (passOn side b s) := by
  unfold passOn; try dsimp only
  repeat' first | with_reducible assumption | with_reducible apply foldOut_keeps | split | intro
theorem timeSend_keeps  (pcas : L .cas = true) (K : Kept L s₀ s) : Kept L s₀ (timeSend s) := by
  unfold timeSend; try dsimp only
  repeat' first | with_reducible assumption | with_reducible apply casSend_keeps | with_reducible apply modCas_keeps | split | intro
theorem tb2Lost_keeps  (pregs : L .regs = true) (pglb : L .glb = true) (ppstate : L .pstate = true) (prad : L .rad = true) (pfhp : L .fhp = true) (pcas : L .cas = true) (K : Kept L s₀ s) : Kept L s₀ (tb2Lost s) := by
  unfold tb2Lost; try dsimp only
  repeat' first | with_reducible assumption | with_reducible apply casViol_keeps | with_reducible apply detach_keeps | with_reducible apply watchLock_keeps | with_reducible apply raise_keeps | with_reducible apply modCas_keeps | split | intro
theorem tb2Offset_keeps {o : Int} (ptime : L .time = true) (pregs : L .regs = true) (pglb : L .glb = true) (pnvs : L .nvs = true) (ppstate : L .pstate = true) (ppaths : L .paths = true) (psyn : L .syn = true) (pskn : L .skn = true) (pfft : L .fft = true) (pdpd : L .dpd = true) (prad : L .rad = true) (pfhp : L .fhp = true) (ptim : L .tim = true) (pcas : L .cas = true) (pacq : L .acq = true) (prnd : L .rnd = true) (K : Kept L s₀ s) : Kept L s₀ (tb2Offset o s) := by
  unfold tb2Offset; try dsimp only
  repeat' first | with_reducible assumption | with_reducible apply tb2Lost_keeps | with_reducible apply correctRate_keeps | with_reducible apply stepTime_keeps | with_reducible apply watchLock_keeps | with_reducible apply modCas_keeps | split | intro
theorem tb2Exchange_keeps {t4 : Nat} (ptime : L .time = true) (pregs : L .regs = true) (pglb : L .glb = true) (pnvs : L .nvs = true) (ppstate : L .pstate = true) (ppaths : L .paths = true) (psyn : L .syn = true) (pskn : L .skn = true) (pfft : L .fft = true) (pdpd : L .dpd = true) (prad : L .rad = true) (pfhp : L .fhp = true) (ptim : L .tim = true) (pcas : L .cas = true) (pacq : L .acq = true) (prnd : L .rnd = true) (K : Kept L s₀ s) : Kept L s₀ (tb2Exchange t4 s) := by
  unfold tb2Exchange; try dsimp only
  repeat' first | with_reducible assumption | with_reducible apply tb2Offset_keeps | with_reducible apply setReg_keeps | split | intro
theorem tickMeasured_keeps {mis : Nat} (pregs : L .regs = true) (pcas : L .cas = true) (K : Kept L s₀ s) : Kept L s₀ (tickMeasured mis s) := by
  unfold tickMeasured; try dsimp only
  repeat' first | with_reducible assumption | with_reducible apply raise_keeps | with_reducible apply modCas_keeps | split | intro
theorem timeTake_keeps {fine : Nat} {mis : Nat} {b : List Byte} (ptime : L .time = true) (pregs : L .regs = true) (pglb : L .glb = true) (pnvs : L .nvs = true) (ppstate : L .pstate = true) (ppaths : L .paths = true) (psyn : L .syn = true) (pskn : L .skn = true) (pfft : L .fft = true) (pdpd : L .dpd = true) (prad : L .rad = true) (pfhp : L .fhp = true) (ptim : L .tim = true) (pcas : L .cas = true) (pacq : L .acq = true) (prnd : L .rnd = true) (K : Kept L s₀ s) : Kept L s₀ (timeTake fine mis b s) := by
  unfold timeTake; try dsimp only
  repeat' first | with_reducible assumption | with_reducible apply tickMeasured_keeps | with_reducible apply tb2Exchange_keeps | with_reducible apply formJudge_keeps | with_reducible apply exchange_keeps | with_reducible apply watchLock_keeps | with_reducible apply casSend_keeps | with_reducible apply modCas_keeps | with_reducible apply whenB_keeps | split | intro
theorem stackStep_keeps  (ptime : L .time = true) (pregs : L .regs = true) (pglb : L .glb = true) (pnvs : L .nvs = true) (ppstate : L .pstate = true) (ppaths : L .paths = true) (psyn : L .syn = true) (pskn : L .skn = true) (pfft : L .fft = true) (pdpd : L .dpd = true) (prad : L .rad = true) (pfhp : L .fhp = true) (ptim : L .tim = true) (pcas : L .cas = true) (pacq : L .acq = true) (K : Kept L s₀ s) : Kept L s₀ (stackStep s) := by
  unfold stackStep; try dsimp only
  repeat' first | with_reducible assumption | with_reducible apply stepTime_keeps | with_reducible apply raise_keeps | with_reducible apply modCas_keeps | with_reducible apply modTim_keeps | split | intro
theorem dlTake_keeps {b : List Byte} (pfhp : L .fhp = true) (pcas : L .cas = true) (K : Kept L s₀ s) : Kept L s₀ (dlTake b s) := by
  unfold dlTake; try dsimp only
  repeat' first | with_reducible assumption | with_reducible apply passOn_keeps | with_reducible apply enterFabric_keeps | with_reducible apply modFhp_keeps | with_reducible apply forAll_keeps | split | intro
theorem tailsOn_keeps {ls : List Nat} {start : Nat} {rx : List (List Cplx)} (pfhp : L .fhp = true) (K : Kept L s₀ s) : Kept L s₀ (tailsOn ls start rx s) := by
  unfold tailsOn; try dsimp only
  repeat' first | with_reducible assumption | with_reducible apply modFhp_keeps | split | intro
theorem takeSum_keeps {l : Nat} {start : Nat} {x : List Cplx} {m : UlMarks} (pregs : L .regs = true) (pfhp : L .fhp = true) (K : Kept L s₀ s) : Kept L s₀ (takeSum l start x m s) := by
  unfold takeSum; try dsimp only
  repeat' first | with_reducible assumption | with_reducible apply ulSatCount_keeps | with_reducible apply pushBlocks_keeps | split | intro
theorem ulPair_keeps {ci : Nat} {start : Nat} {below : List (Nat × List Cplx)} {flags : Nat} {fallback : Nat} {adc : List (List Cplx)} {m : UlMarks} (pregs : L .regs = true) (pfhp : L .fhp = true) (pcas : L .cas = true) (K : Kept L s₀ s) : Kept L s₀ (ulPair ci start below flags fallback adc m s) := by
  unfold ulPair; try dsimp only
  repeat' first | with_reducible assumption | with_reducible apply takeSum_keeps | with_reducible apply tailsOn_keeps | with_reducible apply casSend_keeps | with_reducible apply addReg_keeps | with_reducible apply raise_keeps | with_reducible apply forAll_keeps | with_reducible apply foldl_keeps | split | intro
theorem hopMissed_keeps {x : MissedPair} {dropped : Bool} (pregs : L .regs = true) (pglb : L .glb = true) (ppstate : L .pstate = true) (prad : L .rad = true) (pfhp : L .fhp = true) (pcas : L .cas = true) (K : Kept L s₀ s) : Kept L s₀ (hopMissed x dropped s) := by
  unfold hopMissed; try dsimp only
  repeat' first | with_reducible assumption | with_reducible apply ulPair_keeps | with_reducible apply casViol_keeps | with_reducible apply addLo_keeps | with_reducible apply addHi_keeps | with_reducible apply raise_keeps | with_reducible apply modFhp_keeps | split | intro
theorem controlRx_keeps {sub : Nat} {side : Nat} {b : List Byte} {take_ : Nat → List Byte → State → State} (htake_ : ∀ x0 x1 t, Kept L s₀ t → Kept L s₀ (take_ x0 x1 t)) (pregs : L .regs = true) (pglb : L .glb = true) (ppstate : L .pstate = true) (prad : L .rad = true) (pfhp : L .fhp = true) (pcas : L .cas = true) (K : Kept L s₀ s) : Kept L s₀ (controlRx sub side b take_ s) := by
  unfold controlRx; try dsimp only
  repeat' first | with_reducible assumption | with_reducible apply htake_ | with_reducible apply passOn_keeps | with_reducible apply foldRx_keeps | split | intro
theorem abandon_keeps {on : VoteOn} {d : Nat} {code : Nat} (pregs : L .regs = true) (pwrp : L .wrp = true) (pcas : L .cas = true) (K : Kept L s₀ s) : Kept L s₀ (abandon on d code s) := by
  unfold abandon; try dsimp only
  repeat' first | with_reducible assumption | with_reducible apply levelAbandoned_keeps | with_reducible apply warpAbandoned_keeps | with_reducible apply voteRefused_keeps | with_reducible apply groupResult_keeps | split | intro
theorem agreed_keeps {on : VoteOn} (pregs : L .regs = true) (pglb : L .glb = true) (pnvs : L .nvs = true) (ppwr : L .pwr = true) (ppstate : L .pstate = true) (pwrp : L .wrp = true) (prad : L .rad = true) (pfhp : L .fhp = true) (pcas : L .cas = true) (K : Kept L s₀ s) : Kept L s₀ (agreed on s) := by
  unfold agreed; try dsimp only
  repeat' first | with_reducible assumption | with_reducible apply levelAgreed_keeps | with_reducible apply warpAgreed_keeps | with_reducible apply groupResult_keeps | with_reducible apply groupCommand_keeps | with_reducible apply modCas_keeps | split | intro
theorem voteTake_keeps {x : List Byte} (pregs : L .regs = true) (pglb : L .glb = true) (pnvs : L .nvs = true) (ppwr : L .pwr = true) (ppstate : L .pstate = true) (pwrp : L .wrp = true) (prad : L .rad = true) (pfhp : L .fhp = true) (pcas : L .cas = true) (K : Kept L s₀ s) : Kept L s₀ (voteTake x s) := by
  unfold voteTake; try dsimp only
  repeat' first | with_reducible assumption | with_reducible apply agreed_keeps | with_reducible apply abandon_keeps | with_reducible apply modCas_keeps | split | intro
theorem voteTimeout_keeps  (pregs : L .regs = true) (pwrp : L .wrp = true) (pcas : L .cas = true) (K : Kept L s₀ s) : Kept L s₀ (voteTimeout s) := by
  unfold voteTimeout; try dsimp only
  repeat' first | with_reducible assumption | with_reducible apply abandon_keeps | split | intro
theorem reportTake_keeps {x : List Byte} (pregs : L .regs = true) (prad : L .rad = true) (pfhp : L .fhp = true) (K : Kept L s₀ s) : Kept L s₀ (reportTake x s) := by
  unfold reportTake; try dsimp only
  repeat' first | with_reducible assumption | with_reducible apply flockBurstReport_keeps | with_reducible apply hostBurstReport_keeps | split | intro
theorem isolateTake_keeps {x : List Byte} (pregs : L .regs = true) (pfhp : L .fhp = true) (pcas : L .cas = true) (K : Kept L s₀ s) : Kept L s₀ (isolateTake x s) := by
  unfold isolateTake; try dsimp only
  repeat' first | with_reducible assumption | with_reducible apply dropFrom_keeps | split | intro
theorem casCtrlWrite_keeps {w : Word} (pregs : L .regs = true) (pfhp : L .fhp = true) (pcas : L .cas = true) (K : Kept L s₀ s) : Kept L s₀ (casCtrlWrite w s) := by
  unfold casCtrlWrite; try dsimp only
  repeat' first | with_reducible assumption | with_reducible apply casRejoin_keeps | with_reducible apply isolateDown_keeps | split | intro

/-! ### Machine/Frames.lean -/

theorem frameSort_keeps {q : Nat} {fine : Fin 16} {b : List Byte} (ptime : L .time = true) (pregs : L .regs = true) (pglb : L .glb = true) (pnvs : L .nvs = true) (ppstate : L .pstate = true) (ppaths : L .paths = true) (psyn : L .syn = true) (pskn : L .skn = true) (pfft : L .fft = true) (pdpd : L .dpd = true) (prad : L .rad = true) (pfhp : L .fhp = true) (ptim : L .tim = true) (pcas : L .cas = true) (pacq : L .acq = true) (prnd : L .rnd = true) (K : Kept L s₀ s) : Kept L s₀ (frameSort q fine b s) := by
  unfold frameSort; try dsimp only
  repeat' first | with_reducible assumption | with_reducible apply ptpRx_keeps | with_reducible apply ecpriRx_keeps | with_reducible apply viol_keeps | with_reducible apply addReg_keeps | split | intro
theorem frameRx_keeps {q : Nat} {fine : Fin 16} {b : List Byte} {fcsOk : Bool} {uncorr : Bool} (ptime : L .time = true) (pregs : L .regs = true) (pglb : L .glb = true) (pnvs : L .nvs = true) (ppstate : L .pstate = true) (ppaths : L .paths = true) (psyn : L .syn = true) (pskn : L .skn = true) (pfft : L .fft = true) (pdpd : L .dpd = true) (prad : L .rad = true) (pfhp : L .fhp = true) (ptim : L .tim = true) (pcas : L .cas = true) (pacq : L .acq = true) (prnd : L .rnd = true) (K : Kept L s₀ s) : Kept L s₀ (frameRx q fine b fcsOk uncorr s) := by
  unfold frameRx; try dsimp only
  repeat' first | with_reducible assumption | with_reducible apply frameSort_keeps | with_reducible apply viol_keeps | with_reducible apply addLo_keeps | with_reducible apply addHi_keeps | split | intro

/-! ### Machine/Boundary.lean -/

theorem throttleCut_keeps {g : Nat} (pregs : L .regs = true) (pglb : L .glb = true) (ppstate : L .pstate = true) (prad : L .rad = true) (pfhp : L .fhp = true) (pcas : L .cas = true) (K : Kept L s₀ s) : Kept L s₀ (throttleCut g s) := by
  unfold throttleCut; try dsimp only
  repeat' first | with_reducible assumption | with_reducible apply burstsOut_keeps | split | intro
theorem stageCut_keeps {g : Nat} (pregs : L .regs = true) (pglb : L .glb = true) (ppstate : L .pstate = true) (prad : L .rad = true) (pfhp : L .fhp = true) (pcas : L .cas = true) (K : Kept L s₀ s) : Kept L s₀ (stageCut g s) := by
  unfold stageCut; try dsimp only
  repeat' first | with_reducible assumption | with_reducible apply burstsOut_keeps | with_reducible apply goTo_keeps | with_reducible apply modGroup_keeps | split | intro
theorem groupBoundary_keeps {g : Nat} (pregs : L .regs = true) (pglb : L .glb = true) (pnvs : L .nvs = true) (ppstate : L .pstate = true) (ppaths : L .paths = true) (psyn : L .syn = true) (pdpd : L .dpd = true) (prad : L .rad = true) (pfhp : L .fhp = true) (pcas : L .cas = true) (pacq : L .acq = true) (pdrc : L .drc = true) (pdma : L .dma = true) (prnd : L .rnd = true) (K : Kept L s₀ s) : Kept L s₀ (groupBoundary g s) := by
  unfold groupBoundary; try dsimp only
  repeat' first | with_reducible assumption | with_reducible apply stageCut_keeps | with_reducible apply throttleCut_keeps | with_reducible apply rotBoundary_keeps | with_reducible apply resumeAt_keeps | with_reducible apply lineBoundary_keeps | with_reducible apply pathBoundary_keeps | with_reducible apply convSwaps_keeps | with_reducible apply forAll_keeps | split | intro

end Sys2Proof.Machine
end

