-- ==== Sys2Proof/Laws/KeepHost.lean ====
section
/-!
SUPPORT. What the operations of the device keep, file by file: StoreDone, ReadReg, Glb, WriteReg, Spi, Tick.
-/

set_option linter.all false
set_option Elab.async false

namespace Sys2Proof.Machine

variable {L : Part → Bool} {s₀ s : State}

/-! ### Machine/StoreDone.lean -/

theorem storeWriteEnds_keeps {w : StoreWrite} {code : Nat} (pregs : L .regs = true) (pglb : L .glb = true) (pnvs : L .nvs = true) (ppaths : L .paths = true) (prad : L .rad = true) (pbda : L .bda = true) (K : Kept L s₀ s) : Kept L s₀ (storeWriteEnds w code s) := by
  unfold storeWriteEnds; try dsimp only
  repeat' first | with_reducible assumption | with_reducible apply pastEnd_keeps | with_reducible apply pastureForce_keeps | with_reducible apply recEnd_keeps | with_reducible apply copySentinel_keeps | with_reducible apply event_keeps | with_reducible apply logPut_keeps | with_reducible apply forAll_keeps | split | intro
theorem storeWriteDone_keeps {fails : List (Nat × Nat)} (pregs : L .regs = true) (pglb : L .glb = true) (pnvs : L .nvs = true) (ppaths : L .paths = true) (prad : L .rad = true) (pbda : L .bda = true) (K : Kept L s₀ s) : Kept L s₀ (storeWriteDone fails s) := by
  unfold storeWriteDone; try dsimp only
  repeat' first | with_reducible assumption | (with_reducible exact fun h => h) | exact fun _ => twf_nil | with_reducible apply storeWriteEnds_keeps | with_reducible apply commitWrite_keeps | with_reducible apply rowFails_keeps | with_reducible apply modNvs_keeps | split | intro

/-! ### Machine/ReadReg.lean -/

theorem logMark_keeps {a : Nat} (pglb : L .glb = true) (K : Kept L s₀ s) : Kept L s₀ (logMark a s) := by
  unfold logMark; try dsimp only
  repeat' first | with_reducible assumption | (with_reducible exact fun h => h) | exact fun _ => twf_nil | with_reducible apply modGlb_keeps | split | intro
theorem rcClear_keeps {a : Nat} (pregs : L .regs = true) (ppwr : L .pwr = true) (pacq : L .acq = true) (K : Kept L s₀ s) : Kept L s₀ (rcClear a s) := by
  unfold rcClear; try dsimp only
  repeat' first | with_reducible assumption | with_reducible apply setReg_keeps | with_reducible apply modStream_keeps | with_reducible apply modPwr_keeps | split | intro
theorem afterRead_keeps {a : Nat} (pregs : L .regs = true) (pglb : L .glb = true) (ppwr : L .pwr = true) (pacq : L .acq = true) (K : Kept L s₀ s) : Kept L s₀ (afterRead a s) := by
  unfold afterRead; try dsimp only
  repeat' first | with_reducible assumption | with_reducible apply rcClear_keeps | with_reducible apply logMark_keeps | with_reducible apply nvsAdvance_keeps | split | intro

/-! ### Machine/Glb.lean -/

theorem flashEffect_keeps {op : FlashOp} {a : Nat} (pglb : L .glb = true) (K : Kept L s₀ s) : Kept L s₀ (flashEffect op a s) := by
  unfold flashEffect; try dsimp only
  repeat' first | with_reducible assumption | (with_reducible exact fun h => h) | exact fun h => twf_mwrite _ _ h | exact fun h => twf_tset _ _ h | exact fun h => twfFrom_filter _ h | exact fun h => twf_windowWrite _ _ h | exact fun _ => twf_nil | with_reducible apply modGlb_keeps | split | intro
theorem flashGo_keeps {op : FlashOp} {slot : Nat} (pregs : L .regs = true) (pglb : L .glb = true) (K : Kept L s₀ s) : Kept L s₀ (flashGo op slot s) := by
  unfold flashGo; try dsimp only
  repeat' first | with_reducible assumption | (with_reducible exact fun h => h) | exact fun _ => twf_nil | with_reducible apply flashEffect_keeps | with_reducible apply setReg_keeps | with_reducible apply modGlb_keeps | split | intro
theorem flashOpDone_keeps  (pregs : L .regs = true) (pglb : L .glb = true) (K : Kept L s₀ s) : Kept L s₀ (flashOpDone s) := by
  unfold flashOpDone; try dsimp only
  repeat' first | with_reducible assumption | (with_reducible exact fun h => h) | exact fun _ => twf_nil | with_reducible apply raise_keeps | with_reducible apply setReg_keeps | with_reducible apply modGlb_keeps | split | intro
theorem flashCtrlWrite_keeps {w : Word} (pregs : L .regs = true) (pglb : L .glb = true) (K : Kept L s₀ s) : Kept L s₀ (flashCtrlWrite w s) := by
  unfold flashCtrlWrite; try dsimp only
  repeat' first | with_reducible assumption | with_reducible apply flashGo_keeps | split | intro
theorem unlock_keeps  (ppins : L .pins = true) (pregs : L .regs = true) (pglb : L .glb = true) (prnd : L .rnd = true) (K : Kept L s₀ s) : Kept L s₀ (unlock s) := by
  unfold unlock; try dsimp only
  repeat' first | with_reducible assumption | (with_reducible exact fun h => h) | exact fun _ => twf_nil | with_reducible apply dbgDraw_keeps | with_reducible apply setReg_keeps | with_reducible apply modGlb_keeps | with_reducible apply modPins_keeps | split | intro
theorem dbgClear_keeps  (pglb : L .glb = true) (K : Kept L s₀ s) : Kept L s₀ (dbgClear s) := by
  unfold dbgClear; try dsimp only
  repeat' first | with_reducible assumption | (with_reducible exact fun h => h) | exact fun _ => twf_nil | with_reducible apply modGlb_keeps | split | intro
theorem dbgCtrlWrite_keeps {w : Word} (ppins : L .pins = true) (pregs : L .regs = true) (pglb : L .glb = true) (prnd : L .rnd = true) (K : Kept L s₀ s) : Kept L s₀ (dbgCtrlWrite w s) := by
  unfold dbgCtrlWrite; try dsimp only
  repeat' first | with_reducible assumption | with_reducible apply dbgClear_keeps | with_reducible apply unlock_keeps | split | intro
theorem dbgData_keeps {w : Word} (pregs : L .regs = true) (pglb : L .glb = true) (K : Kept L s₀ s) : Kept L s₀ (dbgData w s) := by
  unfold dbgData; try dsimp only
  repeat' first | with_reducible assumption | (with_reducible exact fun h => h) | exact fun _ => twf_nil | with_reducible apply refusedWrite_keeps | with_reducible apply modGlb_keeps | split | intro
theorem watchdogExpiry_keeps  (pregs : L .regs = true) (pglb : L .glb = true) (ppwr : L .pwr = true) (ppstate : L .pstate = true) (prad : L .rad = true) (pfhp : L .fhp = true) (pcas : L .cas = true) (pbda : L .bda = true) (K : Kept L s₀ s) : Kept L s₀ (watchdogExpiry s) := by
  unfold watchdogExpiry; try dsimp only
  repeat' first | with_reducible assumption | with_reducible apply release_keeps | with_reducible apply globalSafe_keeps | with_reducible apply event_keeps | with_reducible apply addLo_keeps | split | intro

/-! ### Machine/WriteReg.lean -/

theorem onBit0_keeps {f : State → State} {w : Word} (hf : ∀  t, Kept L s₀ t → Kept L s₀ (f  t)) (K : Kept L s₀ s) : Kept L s₀ (onBit0 f w s) := by
  unfold onBit0; try dsimp only
  repeat' first | with_reducible assumption | with_reducible apply hf | with_reducible apply whenB_keeps | split | intro
theorem forceGrid_keeps  (prnd : L .rnd = true) (K : Kept L s₀ s) : Kept L s₀ (forceGrid s).2 := by
  unfold forceGrid; try dsimp only
  repeat' first | with_reducible assumption | with_reducible apply draw_keeps | split | (with_reducible refine Kept.pair1 (by assumption) ?_) | (with_reducible refine Kept.pair2 (by assumption) ?_) | intro
theorem streamCtrlWrite_keeps {st : Nat} {w : Word} (pregs : L .regs = true) (pdpd : L .dpd = true) (pacq : L .acq = true) (pdrc : L .drc = true) (pdma : L .dma = true) (prnd : L .rnd = true) (K : Kept L s₀ s) : Kept L s₀ (streamCtrlWrite st w s) := by
  unfold streamCtrlWrite; try dsimp only
  repeat' first | with_reducible assumption | with_reducible apply forceGrid_keeps | with_reducible apply disarm_keeps | with_reducible apply forceTrigger_keeps | with_reducible apply streamArm_keeps | with_reducible apply whenB_keeps | split | (with_reducible refine Kept.pair1 (by assumption) ?_) | (with_reducible refine Kept.pair2 (by assumption) ?_) | intro
theorem bdaCtrlWrite_keeps {w : Word} (pregs : L .regs = true) (pbda : L .bda = true) (K : Kept L s₀ s) : Kept L s₀ (bdaCtrlWrite w s) := by
  unfold bdaCtrlWrite; try dsimp only
  repeat' first | with_reducible assumption | with_reducible apply clearFault_keeps | with_reducible apply releaseSafe_keeps | with_reducible apply whenB_keeps | with_reducible apply forAll_keeps | split | intro
theorem trainLockWrite_keeps {w : Word} (pregs : L .regs = true) (pdrc : L .drc = true) (K : Kept L s₀ s) : Kept L s₀ (trainLockWrite w s) := by
  unfold trainLockWrite; try dsimp only
  repeat' first | with_reducible assumption | with_reducible apply retrainFailed_keeps | with_reducible apply hostLock_keeps | with_reducible apply whenB_keeps | split | intro
theorem wakeFailWrite_keeps {w : Word} (pregs : L .regs = true) (K : Kept L s₀ s) : Kept L s₀ (wakeFailWrite w s) := by
  unfold wakeFailWrite; try dsimp only
  repeat' first | with_reducible assumption | with_reducible apply wakeFailClear_keeps | with_reducible apply whenB_keeps | split | intro
theorem chEventsWrite_keeps {c : Nat} {w : Word} (pdma : L .dma = true) (K : Kept L s₀ s) : Kept L s₀ (chEventsWrite c w s) := by
  unfold chEventsWrite; try dsimp only
  repeat' first | with_reducible assumption | with_reducible apply modCh_keeps | split | intro
theorem timPortCfgWrite_keeps {q : Nat} {w : Word} (pregs : L .regs = true) (pglb : L .glb = true) (ppstate : L .pstate = true) (prad : L .rad = true) (pfhp : L .fhp = true) (ptim : L .tim = true) (pcas : L .cas = true) (K : Kept L s₀ s) : Kept L s₀ (timPortCfgWrite q w s) := by
  unfold timPortCfgWrite; try dsimp only
  repeat' first | with_reducible assumption | with_reducible apply bmca_keeps | with_reducible apply setReg_keeps | split | intro
/-- An action that keeps what is kept. -/
def Act.Keeps (L : Part → Bool) (v : Act) : Prop := ∀ s₀ i w s, Kept L s₀ s → Kept L s₀ (v.act i w s)

theorem act1_keeps {a : Nat} {f : Word → State → State} (hf : ∀ s₀ w s, Kept L s₀ s → Kept L s₀ (f w s)) : (act1 a f).Keeps L :=
  fun s₀ _ w s h => hf s₀ w s h
theorem streamAct_keeps {a : Nat} {mask : Word} (ppins : L .pins = true) (ptime : L .time = true) (pregs : L .regs = true) (pglb : L .glb = true) (pnvs : L .nvs = true) (ppwr : L .pwr = true) (ppstate : L .pstate = true) (pwrp : L .wrp = true) (ppaths : L .paths = true) (psyn : L .syn = true) (pskn : L .skn = true) (pfft : L .fft = true) (pdpd : L .dpd = true) (prad : L .rad = true) (plne : L .lne = true) (pfhp : L .fhp = true) (ptim : L .tim = true) (pcas : L .cas = true) (pacq : L .acq = true) (pmon : L .mon = true) (pdrc : L .drc = true) (pdma : L .dma = true) (phka : L .hka = true) (pbda : L .bda = true) (pthm : L .thm = true) (prnd : L .rnd = true) : (streamAct a mask).Keeps L := by
  intro s₀ i w s h
  unfold streamAct
  apply streamRegWrite_keeps <;> assumption

theorem actsGLB_keeps (ppins : L .pins = true) (ptime : L .time = true) (pregs : L .regs = true) (pglb : L .glb = true) (pnvs : L .nvs = true) (ppwr : L .pwr = true) (ppstate : L .pstate = true) (pwrp : L .wrp = true) (ppaths : L .paths = true) (psyn : L .syn = true) (pskn : L .skn = true) (pfft : L .fft = true) (pdpd : L .dpd = true) (prad : L .rad = true) (plne : L .lne = true) (pfhp : L .fhp = true) (ptim : L .tim = true) (pcas : L .cas = true) (pacq : L .acq = true) (pmon : L .mon = true) (pdrc : L .drc = true) (pdma : L .dma = true) (phka : L .hka = true) (pbda : L .bda = true) (pthm : L .thm = true) (prnd : L .rnd = true) : ∀ v ∈ actsGLB, v.Keeps L := by
  unfold actsGLB; simp only [List.forall_mem_cons, List.not_mem_nil, false_implies, implies_true, and_true]
  refine ⟨?_, ?_, ?_⟩ <;> first | exact streamAct_keeps ppins ptime pregs pglb pnvs ppwr ppstate pwrp ppaths psyn pskn pfft pdpd prad plne pfhp ptim pcas pacq pmon pdrc pdma phka pbda pthm prnd | (first | refine act1_keeps (L := L) ?_ | skip); intros; (try dsimp only); (repeat' first | with_reducible assumption | with_reducible apply flashCtrlWrite_keeps | with_reducible apply dbgCtrlWrite_keeps | with_reducible apply dbgData_keeps | (with_reducible exact fun h => h) | intro)
theorem actsPWR_keeps (ppins : L .pins = true) (ptime : L .time = true) (pregs : L .regs = true) (pglb : L .glb = true) (pnvs : L .nvs = true) (ppwr : L .pwr = true) (ppstate : L .pstate = true) (pwrp : L .wrp = true) (ppaths : L .paths = true) (psyn : L .syn = true) (pskn : L .skn = true) (pfft : L .fft = true) (pdpd : L .dpd = true) (prad : L .rad = true) (plne : L .lne = true) (pfhp : L .fhp = true) (ptim : L .tim = true) (pcas : L .cas = true) (pacq : L .acq = true) (pmon : L .mon = true) (pdrc : L .drc = true) (pdma : L .dma = true) (phka : L .hka = true) (pbda : L .bda = true) (pthm : L .thm = true) (prnd : L .rnd = true) : ∀ v ∈ actsPWR, v.Keeps L := by
  unfold actsPWR; simp only [List.forall_mem_cons, List.not_mem_nil, false_implies, implies_true, and_true]
  refine ⟨?_, ?_, ?_, ?_, ?_⟩ <;> first | exact streamAct_keeps ppins ptime pregs pglb pnvs ppwr ppstate pwrp ppaths psyn pskn pfft pdpd prad plne pfhp ptim pcas pacq pmon pdrc pdma phka pbda pthm prnd | (first | refine act1_keeps (L := L) ?_ | skip); intros; (try dsimp only); (repeat' first | with_reducible assumption | with_reducible apply levelReqWrite_keeps | with_reducible apply stateReqWrite_keeps | with_reducible apply stageCtrlWrite_keeps | with_reducible apply shlCfgWrite_keeps | with_reducible apply wakeFailWrite_keeps | (with_reducible exact fun h => h) | intro)
theorem actsWRP_keeps (ppins : L .pins = true) (ptime : L .time = true) (pregs : L .regs = true) (pglb : L .glb = true) (pnvs : L .nvs = true) (ppwr : L .pwr = true) (ppstate : L .pstate = true) (pwrp : L .wrp = true) (ppaths : L .paths = true) (psyn : L .syn = true) (pskn : L .skn = true) (pfft : L .fft = true) (pdpd : L .dpd = true) (prad : L .rad = true) (plne : L .lne = true) (pfhp : L .fhp = true) (ptim : L .tim = true) (pcas : L .cas = true) (pacq : L .acq = true) (pmon : L .mon = true) (pdrc : L .drc = true) (pdma : L .dma = true) (phka : L .hka = true) (pbda : L .bda = true) (pthm : L .thm = true) (prnd : L .rnd = true) : ∀ v ∈ actsWRP, v.Keeps L := by
  unfold actsWRP; simp only [List.forall_mem_cons, List.not_mem_nil, false_implies, implies_true, and_true]
  refine ⟨?_, ?_, ?_⟩ <;> first | exact streamAct_keeps ppins ptime pregs pglb pnvs ppwr ppstate pwrp ppaths psyn pskn pfft pdpd prad plne pfhp ptim pcas pacq pmon pdrc pdma phka pbda pthm prnd | (first | refine act1_keeps (L := L) ?_ | skip); intros; (try dsimp only); (repeat' first | with_reducible assumption | with_reducible apply wrpData_keeps | with_reducible apply wrpStageLenWrite_keeps | with_reducible apply wrpCtrlWrite_keeps | (with_reducible exact fun h => h) | intro)
theorem actsNVS_keeps (ppins : L .pins = true) (ptime : L .time = true) (pregs : L .regs = true) (pglb : L .glb = true) (pnvs : L .nvs = true) (ppwr : L .pwr = true) (ppstate : L .pstate = true) (pwrp : L .wrp = true) (ppaths : L .paths = true) (psyn : L .syn = true) (pskn : L .skn = true) (pfft : L .fft = true) (pdpd : L .dpd = true) (prad : L .rad = true) (plne : L .lne = true) (pfhp : L .fhp = true) (ptim : L .tim = true) (pcas : L .cas = true) (pacq : L .acq = true) (pmon : L .mon = true) (pdrc : L .drc = true) (pdma : L .dma = true) (phka : L .hka = true) (pbda : L .bda = true) (pthm : L .thm = true) (prnd : L .rnd = true) : ∀ v ∈ actsNVS, v.Keeps L := by
  unfold actsNVS; simp only [List.forall_mem_cons, List.not_mem_nil, false_implies, implies_true, and_true]
  refine ⟨?_, ?_, ?_, ?_, ?_, ?_⟩ <;> first | exact streamAct_keeps ppins ptime pregs pglb pnvs ppwr ppstate pwrp ppaths psyn pskn pfft pdpd prad plne pfhp ptim pcas pacq pmon pdrc pdma phka pbda pthm prnd | (first | refine act1_keeps (L := L) ?_ | skip); intros; (try dsimp only); (repeat' first | with_reducible assumption | with_reducible apply recData_keeps | with_reducible apply recCtrlWrite_keeps | with_reducible apply nvsDataWrite_keeps | with_reducible apply pastCtrlWrite_keeps | with_reducible apply pastData_keeps | with_reducible apply calReqWrite_keeps | (with_reducible exact fun h => h) | intro)
theorem actsHKA_keeps (ppins : L .pins = true) (ptime : L .time = true) (pregs : L .regs = true) (pglb : L .glb = true) (pnvs : L .nvs = true) (ppwr : L .pwr = true) (ppstate : L .pstate = true) (pwrp : L .wrp = true) (ppaths : L .paths = true) (psyn : L .syn = true) (pskn : L .skn = true) (pfft : L .fft = true) (pdpd : L .dpd = true) (prad : L .rad = true) (plne : L .lne = true) (pfhp : L .fhp = true) (ptim : L .tim = true) (pcas : L .cas = true) (pacq : L .acq = true) (pmon : L .mon = true) (pdrc : L .drc = true) (pdma : L .dma = true) (phka : L .hka = true) (pbda : L .bda = true) (pthm : L .thm = true) (prnd : L .rnd = true) : ∀ v ∈ actsHKA, v.Keeps L := by
  unfold actsHKA; simp only [List.forall_mem_cons, List.not_mem_nil, false_implies, implies_true, and_true]
  refine ⟨?_, ?_, ?_⟩ <;> first | exact streamAct_keeps ppins ptime pregs pglb pnvs ppwr ppstate pwrp ppaths psyn pskn pfft pdpd prad plne pfhp ptim pcas pacq pmon pdrc pdma phka pbda pthm prnd | (first | refine act1_keeps (L := L) ?_ | skip); intros; (try dsimp only); (repeat' first | with_reducible assumption | with_reducible apply modHka_keeps | with_reducible apply scanTrigger_keeps | with_reducible apply urgentRequest_keeps | with_reducible apply onBit0_keeps | (with_reducible exact fun h => h) | intro)
theorem actsBDA_keeps (ppins : L .pins = true) (ptime : L .time = true) (pregs : L .regs = true) (pglb : L .glb = true) (pnvs : L .nvs = true) (ppwr : L .pwr = true) (ppstate : L .pstate = true) (pwrp : L .wrp = true) (ppaths : L .paths = true) (psyn : L .syn = true) (pskn : L .skn = true) (pfft : L .fft = true) (pdpd : L .dpd = true) (prad : L .rad = true) (plne : L .lne = true) (pfhp : L .fhp = true) (ptim : L .tim = true) (pcas : L .cas = true) (pacq : L .acq = true) (pmon : L .mon = true) (pdrc : L .drc = true) (pdma : L .dma = true) (phka : L .hka = true) (pbda : L .bda = true) (pthm : L .thm = true) (prnd : L .rnd = true) : ∀ v ∈ actsBDA, v.Keeps L := by
  unfold actsBDA; simp only [List.forall_mem_cons, List.not_mem_nil, false_implies, implies_true, and_true]
  refine ⟨?_, ?_, ?_, ?_⟩ <;> first | exact streamAct_keeps ppins ptime pregs pglb pnvs ppwr ppstate pwrp ppaths psyn pskn pfft pdpd prad plne pfhp ptim pcas pacq pmon pdrc pdma phka pbda pthm prnd | (first | refine act1_keeps (L := L) ?_ | skip); intros; (try dsimp only); (repeat' first | with_reducible assumption | with_reducible apply bdaLoadWrite_keeps | with_reducible apply bdaCodeWrite_keeps | with_reducible apply clearFault_keeps | with_reducible apply onBit0_keeps | with_reducible apply bdaCtrlWrite_keeps | (with_reducible exact fun h => h) | intro)
theorem actsSYN_keeps (ppins : L .pins = true) (ptime : L .time = true) (pregs : L .regs = true) (pglb : L .glb = true) (pnvs : L .nvs = true) (ppwr : L .pwr = true) (ppstate : L .pstate = true) (pwrp : L .wrp = true) (ppaths : L .paths = true) (psyn : L .syn = true) (pskn : L .skn = true) (pfft : L .fft = true) (pdpd : L .dpd = true) (prad : L .rad = true) (plne : L .lne = true) (pfhp : L .fhp = true) (ptim : L .tim = true) (pcas : L .cas = true) (pacq : L .acq = true) (pmon : L .mon = true) (pdrc : L .drc = true) (pdma : L .dma = true) (phka : L .hka = true) (pbda : L .bda = true) (pthm : L .thm = true) (prnd : L .rnd = true) : ∀ v ∈ actsSYN, v.Keeps L := by
  unfold actsSYN; simp only [List.forall_mem_cons, List.not_mem_nil, false_implies, implies_true, and_true]
  refine ⟨?_, ?_, ?_⟩ <;> first | exact streamAct_keeps ppins ptime pregs pglb pnvs ppwr ppstate pwrp ppaths psyn pskn pfft pdpd prad plne pfhp ptim pcas pacq pmon pdrc pdma phka pbda pthm prnd | (first | refine act1_keeps (L := L) ?_ | skip); intros; (try dsimp only); (repeat' first | with_reducible assumption | with_reducible apply refCfgWrite_keeps | with_reducible apply synCtrlWrite_keeps | with_reducible apply phaseWrite_keeps | (with_reducible exact fun h => h) | intro)
theorem actsRAD_keeps (ppins : L .pins = true) (ptime : L .time = true) (pregs : L .regs = true) (pglb : L .glb = true) (pnvs : L .nvs = true) (ppwr : L .pwr = true) (ppstate : L .pstate = true) (pwrp : L .wrp = true) (ppaths : L .paths = true) (psyn : L .syn = true) (pskn : L .skn = true) (pfft : L .fft = true) (pdpd : L .dpd = true) (prad : L .rad = true) (plne : L .lne = true) (pfhp : L .fhp = true) (ptim : L .tim = true) (pcas : L .cas = true) (pacq : L .acq = true) (pmon : L .mon = true) (pdrc : L .drc = true) (pdma : L .dma = true) (phka : L .hka = true) (pbda : L .bda = true) (pthm : L .thm = true) (prnd : L .rnd = true) : ∀ v ∈ actsRAD, v.Keeps L := by
  unfold actsRAD; simp only [List.forall_mem_cons, List.not_mem_nil, false_implies, implies_true, and_true]
  refine ⟨?_, ?_, ?_, ?_⟩ <;> first | exact streamAct_keeps ppins ptime pregs pglb pnvs ppwr ppstate pwrp ppaths psyn pskn pfft pdpd prad plne pfhp ptim pcas pacq pmon pdrc pdma phka pbda pthm prnd | (first | refine act1_keeps (L := L) ?_ | skip); intros; (try dsimp only); (repeat' first | with_reducible assumption | with_reducible apply modRad_keeps | with_reducible apply groupCmdWrite_keeps | with_reducible apply burstCtrlWrite_keeps | with_reducible apply rffeCmdWrite_keeps | with_reducible apply onBit0_keeps | (with_reducible exact fun h => h) | intro)
theorem actsSKN_keeps (ppins : L .pins = true) (ptime : L .time = true) (pregs : L .regs = true) (pglb : L .glb = true) (pnvs : L .nvs = true) (ppwr : L .pwr = true) (ppstate : L .pstate = true) (pwrp : L .wrp = true) (ppaths : L .paths = true) (psyn : L .syn = true) (pskn : L .skn = true) (pfft : L .fft = true) (pdpd : L .dpd = true) (prad : L .rad = true) (plne : L .lne = true) (pfhp : L .fhp = true) (ptim : L .tim = true) (pcas : L .cas = true) (pacq : L .acq = true) (pmon : L .mon = true) (pdrc : L .drc = true) (pdma : L .dma = true) (phka : L .hka = true) (pbda : L .bda = true) (pthm : L .thm = true) (prnd : L .rnd = true) : ∀ v ∈ actsSKN, v.Keeps L := by
  unfold actsSKN; simp only [List.forall_mem_cons, List.not_mem_nil, false_implies, implies_true, and_true]
  refine ⟨?_, ?_⟩ <;> first | exact streamAct_keeps ppins ptime pregs pglb pnvs ppwr ppstate pwrp ppaths psyn pskn pfft pdpd prad plne pfhp ptim pcas pacq pmon pdrc pdma phka pbda pthm prnd | (first | refine act1_keeps (L := L) ?_ | skip); intros; (try dsimp only); (repeat' first | with_reducible assumption | with_reducible apply modSkn_keeps | with_reducible apply sknSwitchWrite_keeps | with_reducible apply onBit0_keeps | (with_reducible exact fun h => h) | intro)
theorem actsFFT_keeps (ppins : L .pins = true) (ptime : L .time = true) (pregs : L .regs = true) (pglb : L .glb = true) (pnvs : L .nvs = true) (ppwr : L .pwr = true) (ppstate : L .pstate = true) (pwrp : L .wrp = true) (ppaths : L .paths = true) (psyn : L .syn = true) (pskn : L .skn = true) (pfft : L .fft = true) (pdpd : L .dpd = true) (prad : L .rad = true) (plne : L .lne = true) (pfhp : L .fhp = true) (ptim : L .tim = true) (pcas : L .cas = true) (pacq : L .acq = true) (pmon : L .mon = true) (pdrc : L .drc = true) (pdma : L .dma = true) (phka : L .hka = true) (pbda : L .bda = true) (pthm : L .thm = true) (prnd : L .rnd = true) : ∀ v ∈ actsFFT, v.Keeps L := by
  unfold actsFFT; simp only [List.forall_mem_cons, List.not_mem_nil, false_implies, implies_true, and_true]
  refine ?_ <;> first | exact streamAct_keeps ppins ptime pregs pglb pnvs ppwr ppstate pwrp ppaths psyn pskn pfft pdpd prad plne pfhp ptim pcas pacq pmon pdrc pdma phka pbda pthm prnd | (first | refine act1_keeps (L := L) ?_ | skip); intros; (try dsimp only); (repeat' first | with_reducible assumption | with_reducible apply fftSubmit_keeps | with_reducible apply onBit0_keeps | (with_reducible exact fun h => h) | intro)
theorem actsDPD_keeps (ppins : L .pins = true) (ptime : L .time = true) (pregs : L .regs = true) (pglb : L .glb = true) (pnvs : L .nvs = true) (ppwr : L .pwr = true) (ppstate : L .pstate = true) (pwrp : L .wrp = true) (ppaths : L .paths = true) (psyn : L .syn = true) (pskn : L .skn = true) (pfft : L .fft = true) (pdpd : L .dpd = true) (prad : L .rad = true) (plne : L .lne = true) (pfhp : L .fhp = true) (ptim : L .tim = true) (pcas : L .cas = true) (pacq : L .acq = true) (pmon : L .mon = true) (pdrc : L .drc = true) (pdma : L .dma = true) (phka : L .hka = true) (pbda : L .bda = true) (pthm : L .thm = true) (prnd : L .rnd = true) : ∀ v ∈ actsDPD, v.Keeps L := by
  unfold actsDPD; simp only [List.forall_mem_cons, List.not_mem_nil, false_implies, implies_true, and_true]
  refine ⟨?_, ?_, ?_⟩ <;> first | exact streamAct_keeps ppins ptime pregs pglb pnvs ppwr ppstate pwrp ppaths psyn pskn pfft pdpd prad plne pfhp ptim pcas pacq pmon pdrc pdma phka pbda pthm prnd | (first | refine act1_keeps (L := L) ?_ | skip); intros; (try dsimp only); (repeat' first | with_reducible assumption | with_reducible apply dpdSwitchWrite_keeps | with_reducible apply dpdPathCfgWrite_keeps | with_reducible apply surveyGo_keeps | (with_reducible exact fun h => h) | intro)
theorem actsFHP_keeps (ppins : L .pins = true) (ptime : L .time = true) (pregs : L .regs = true) (pglb : L .glb = true) (pnvs : L .nvs = true) (ppwr : L .pwr = true) (ppstate : L .pstate = true) (pwrp : L .wrp = true) (ppaths : L .paths = true) (psyn : L .syn = true) (pskn : L .skn = true) (pfft : L .fft = true) (pdpd : L .dpd = true) (prad : L .rad = true) (plne : L .lne = true) (pfhp : L .fhp = true) (ptim : L .tim = true) (pcas : L .cas = true) (pacq : L .acq = true) (pmon : L .mon = true) (pdrc : L .drc = true) (pdma : L .dma = true) (phka : L .hka = true) (pbda : L .bda = true) (pthm : L .thm = true) (prnd : L .rnd = true) : ∀ v ∈ actsFHP, v.Keeps L := by
  unfold actsFHP; simp only [List.forall_mem_cons, List.not_mem_nil, false_implies, implies_true, and_true]
  refine ?_ <;> first | exact streamAct_keeps ppins ptime pregs pglb pnvs ppwr ppstate pwrp ppaths psyn pskn pfft pdpd prad plne pfhp ptim pcas pacq pmon pdrc pdma phka pbda pthm prnd | (first | refine act1_keeps (L := L) ?_ | skip); intros; (try dsimp only); (repeat' first | with_reducible assumption | with_reducible apply flockCtrlWrite_keeps | (with_reducible exact fun h => h) | intro)
theorem actsLNE_keeps (ppins : L .pins = true) (ptime : L .time = true) (pregs : L .regs = true) (pglb : L .glb = true) (pnvs : L .nvs = true) (ppwr : L .pwr = true) (ppstate : L .pstate = true) (pwrp : L .wrp = true) (ppaths : L .paths = true) (psyn : L .syn = true) (pskn : L .skn = true) (pfft : L .fft = true) (pdpd : L .dpd = true) (prad : L .rad = true) (plne : L .lne = true) (pfhp : L .fhp = true) (ptim : L .tim = true) (pcas : L .cas = true) (pacq : L .acq = true) (pmon : L .mon = true) (pdrc : L .drc = true) (pdma : L .dma = true) (phka : L .hka = true) (pbda : L .bda = true) (pthm : L .thm = true) (prnd : L .rnd = true) : ∀ v ∈ actsLNE, v.Keeps L := by
  unfold actsLNE; simp only [List.forall_mem_cons, List.not_mem_nil, false_implies, implies_true, and_true]
  refine ⟨?_, ?_, ?_, ?_⟩ <;> first | exact streamAct_keeps ppins ptime pregs pglb pnvs ppwr ppstate pwrp ppaths psyn pskn pfft pdpd prad plne pfhp ptim pcas pacq pmon pdrc pdma phka pbda pthm prnd | (first | refine act1_keeps (L := L) ?_ | skip); intros; (try dsimp only); (repeat' first | with_reducible assumption | with_reducible apply swapLane_keeps | with_reducible apply portCtrlWrite_keeps | with_reducible apply txEqWrite_keeps | with_reducible apply testWrite_keeps | with_reducible apply onBit0_keeps | (with_reducible exact fun h => h) | intro)
theorem actsTIM_keeps (ppins : L .pins = true) (ptime : L .time = true) (pregs : L .regs = true) (pglb : L .glb = true) (pnvs : L .nvs = true) (ppwr : L .pwr = true) (ppstate : L .pstate = true) (pwrp : L .wrp = true) (ppaths : L .paths = true) (psyn : L .syn = true) (pskn : L .skn = true) (pfft : L .fft = true) (pdpd : L .dpd = true) (prad : L .rad = true) (plne : L .lne = true) (pfhp : L .fhp = true) (ptim : L .tim = true) (pcas : L .cas = true) (pacq : L .acq = true) (pmon : L .mon = true) (pdrc : L .drc = true) (pdma : L .dma = true) (phka : L .hka = true) (pbda : L .bda = true) (pthm : L .thm = true) (prnd : L .rnd = true) : ∀ v ∈ actsTIM, v.Keeps L := by
  unfold actsTIM; simp only [List.forall_mem_cons, List.not_mem_nil, false_implies, implies_true, and_true]
  refine ⟨?_, ?_, ?_, ?_, ?_⟩ <;> first | exact streamAct_keeps ppins ptime pregs pglb pnvs ppwr ppstate pwrp ppaths psyn pskn pfft pdpd prad plne pfhp ptim pcas pacq pmon pdrc pdma phka pbda pthm prnd | (first | refine act1_keeps (L := L) ?_ | skip); intros; (try dsimp only); (repeat' first | with_reducible assumption | with_reducible apply timCtrlWrite_keeps | with_reducible apply txtsPopWrite_keeps | with_reducible apply timAsymWrite_keeps | with_reducible apply timPtpCfgWrite_keeps | with_reducible apply timPortCfgWrite_keeps | (with_reducible exact fun h => h) | intro)
theorem actsCAS_keeps (ppins : L .pins = true) (ptime : L .time = true) (pregs : L .regs = true) (pglb : L .glb = true) (pnvs : L .nvs = true) (ppwr : L .pwr = true) (ppstate : L .pstate = true) (pwrp : L .wrp = true) (ppaths : L .paths = true) (psyn : L .syn = true) (pskn : L .skn = true) (pfft : L .fft = true) (pdpd : L .dpd = true) (prad : L .rad = true) (plne : L .lne = true) (pfhp : L .fhp = true) (ptim : L .tim = true) (pcas : L .cas = true) (pacq : L .acq = true) (pmon : L .mon = true) (pdrc : L .drc = true) (pdma : L .dma = true) (phka : L .hka = true) (pbda : L .bda = true) (pthm : L .thm = true) (prnd : L .rnd = true) : ∀ v ∈ actsCAS, v.Keeps L := by
  unfold actsCAS; simp only [List.forall_mem_cons, List.not_mem_nil, false_implies, implies_true, and_true]
  refine ?_ <;> first | exact streamAct_keeps ppins ptime pregs pglb pnvs ppwr ppstate pwrp ppaths psyn pskn pfft pdpd prad plne pfhp ptim pcas pacq pmon pdrc pdma phka pbda pthm prnd | (first | refine act1_keeps (L := L) ?_ | skip); intros; (try dsimp only); (repeat' first | with_reducible assumption | with_reducible apply casCtrlWrite_keeps | (with_reducible exact fun h => h) | intro)
theorem actsACQ_keeps (ppins : L .pins = true) (ptime : L .time = true) (pregs : L .regs = true) (pglb : L .glb = true) (pnvs : L .nvs = true) (ppwr : L .pwr = true) (ppstate : L .pstate = true) (pwrp : L .wrp = true) (ppaths : L .paths = true) (psyn : L .syn = true) (pskn : L .skn = true) (pfft : L .fft = true) (pdpd : L .dpd = true) (prad : L .rad = true) (plne : L .lne = true) (pfhp : L .fhp = true) (ptim : L .tim = true) (pcas : L .cas = true) (pacq : L .acq = true) (pmon : L .mon = true) (pdrc : L .drc = true) (pdma : L .dma = true) (phka : L .hka = true) (pbda : L .bda = true) (pthm : L .thm = true) (prnd : L .rnd = true) : ∀ v ∈ actsACQ, v.Keeps L := by
  unfold actsACQ; simp only [List.forall_mem_cons, List.not_mem_nil, false_implies, implies_true, and_true]
  refine ⟨?_, ?_, ?_, ?_, ?_, ?_, ?_, ?_, ?_, ?_, ?_, ?_, ?_, ?_, ?_, ?_⟩ <;> first | exact streamAct_keeps ppins ptime pregs pglb pnvs ppwr ppstate pwrp ppaths psyn pskn pfft pdpd prad plne pfhp ptim pcas pacq pmon pdrc pdma phka pbda pthm prnd | (first | refine act1_keeps (L := L) ?_ | skip); intros; (try dsimp only); (repeat' first | with_reducible assumption | with_reducible apply monCfgWrite_keeps | with_reducible apply monShiftWrite_keeps | with_reducible apply streamCtrlWrite_keeps | (with_reducible exact fun h => h) | intro)
theorem actsDMA_keeps (ppins : L .pins = true) (ptime : L .time = true) (pregs : L .regs = true) (pglb : L .glb = true) (pnvs : L .nvs = true) (ppwr : L .pwr = true) (ppstate : L .pstate = true) (pwrp : L .wrp = true) (ppaths : L .paths = true) (psyn : L .syn = true) (pskn : L .skn = true) (pfft : L .fft = true) (pdpd : L .dpd = true) (prad : L .rad = true) (plne : L .lne = true) (pfhp : L .fhp = true) (ptim : L .tim = true) (pcas : L .cas = true) (pacq : L .acq = true) (pmon : L .mon = true) (pdrc : L .drc = true) (pdma : L .dma = true) (phka : L .hka = true) (pbda : L .bda = true) (pthm : L .thm = true) (prnd : L .rnd = true) : ∀ v ∈ actsDMA, v.Keeps L := by
  unfold actsDMA; simp only [List.forall_mem_cons, List.not_mem_nil, false_implies, implies_true, and_true]
  refine ⟨?_, ?_⟩ <;> first | exact streamAct_keeps ppins ptime pregs pglb pnvs ppwr ppstate pwrp ppaths psyn pskn pfft pdpd prad plne pfhp ptim pcas pacq pmon pdrc pdma phka pbda pthm prnd | (first | refine act1_keeps (L := L) ?_ | skip); intros; (try dsimp only); (repeat' first | with_reducible assumption | with_reducible apply chCtrlWrite_keeps | with_reducible apply chEventsWrite_keeps | (with_reducible exact fun h => h) | intro)
theorem actsDRC_keeps (ppins : L .pins = true) (ptime : L .time = true) (pregs : L .regs = true) (pglb : L .glb = true) (pnvs : L .nvs = true) (ppwr : L .pwr = true) (ppstate : L .pstate = true) (pwrp : L .wrp = true) (ppaths : L .paths = true) (psyn : L .syn = true) (pskn : L .skn = true) (pfft : L .fft = true) (pdpd : L .dpd = true) (prad : L .rad = true) (plne : L .lne = true) (pfhp : L .fhp = true) (ptim : L .tim = true) (pcas : L .cas = true) (pacq : L .acq = true) (pmon : L .mon = true) (pdrc : L .drc = true) (pdma : L .dma = true) (phka : L .hka = true) (pbda : L .bda = true) (pthm : L .thm = true) (prnd : L .rnd = true) : ∀ v ∈ actsDRC, v.Keeps L := by
  unfold actsDRC; simp only [List.forall_mem_cons, List.not_mem_nil, false_implies, implies_true, and_true]
  refine ⟨?_, ?_, ?_⟩ <;> first | exact streamAct_keeps ppins ptime pregs pglb pnvs ppwr ppstate pwrp ppaths psyn pskn pfft pdpd prad plne pfhp ptim pcas pacq pmon pdrc pdma phka pbda pthm prnd | (first | refine act1_keeps (L := L) ?_ | skip); intros; (try dsimp only); (repeat' first | with_reducible assumption | with_reducible apply freqReq_keeps | with_reducible apply patGo_keeps | with_reducible apply trainLockWrite_keeps | (with_reducible exact fun h => h) | intro)
theorem pathAct_keeps {p off : Nat} {f : Word → State → State} (ppins : L .pins = true) (ptime : L .time = true) (pregs : L .regs = true) (pglb : L .glb = true) (pnvs : L .nvs = true) (ppwr : L .pwr = true) (ppstate : L .pstate = true) (pwrp : L .wrp = true) (ppaths : L .paths = true) (psyn : L .syn = true) (pskn : L .skn = true) (pfft : L .fft = true) (pdpd : L .dpd = true) (prad : L .rad = true) (plne : L .lne = true) (pfhp : L .fhp = true) (ptim : L .tim = true) (pcas : L .cas = true) (pacq : L .acq = true) (pmon : L .mon = true) (pdrc : L .drc = true) (pdma : L .dma = true) (phka : L .hka = true) (pbda : L .bda = true) (pthm : L .thm = true) (prnd : L .rnd = true) (e : pathAct p off = some f) {w : Word} (K : Kept L s₀ s) : Kept L s₀ (f w s) := by
  unfold pathAct at e
  split at e <;> cases e
  · apply pthCtrlWrite_keeps <;> assumption
  · apply txAttenWrite_keeps <;> assumption
  · apply rxAttenWrite_keeps <;> assumption
  · apply trimUserWrite_keeps <;> assumption
  · apply trimUserWrite_keeps <;> assumption
theorem actsAt_keeps (ppins : L .pins = true) (ptime : L .time = true) (pregs : L .regs = true) (pglb : L .glb = true) (pnvs : L .nvs = true) (ppwr : L .pwr = true) (ppstate : L .pstate = true) (pwrp : L .wrp = true) (ppaths : L .paths = true) (psyn : L .syn = true) (pskn : L .skn = true) (pfft : L .fft = true) (pdpd : L .dpd = true) (prad : L .rad = true) (plne : L .lne = true) (pfhp : L .fhp = true) (ptim : L .tim = true) (pcas : L .cas = true) (pacq : L .acq = true) (pmon : L .mon = true) (pdrc : L .drc = true) (pdma : L .dma = true) (phka : L .hka = true) (pbda : L .bda = true) (pthm : L .thm = true) (prnd : L .rnd = true) (b : Nat) : ∀ v ∈ actsAt b, v.Keeps L := by
  unfold actsAt
  split
  · exact actsGLB_keeps ppins ptime pregs pglb pnvs ppwr ppstate pwrp ppaths psyn pskn pfft pdpd prad plne pfhp ptim pcas pacq pmon pdrc pdma phka pbda pthm prnd
  · exact actsPWR_keeps ppins ptime pregs pglb pnvs ppwr ppstate pwrp ppaths psyn pskn pfft pdpd prad plne pfhp ptim pcas pacq pmon pdrc pdma phka pbda pthm prnd
  · exact actsWRP_keeps ppins ptime pregs pglb pnvs ppwr ppstate pwrp ppaths psyn pskn pfft pdpd prad plne pfhp ptim pcas pacq pmon pdrc pdma phka pbda pthm prnd
  · exact actsNVS_keeps ppins ptime pregs pglb pnvs ppwr ppstate pwrp ppaths psyn pskn pfft pdpd prad plne pfhp ptim pcas pacq pmon pdrc pdma phka pbda pthm prnd
  · exact actsHKA_keeps ppins ptime pregs pglb pnvs ppwr ppstate pwrp ppaths psyn pskn pfft pdpd prad plne pfhp ptim pcas pacq pmon pdrc pdma phka pbda pthm prnd
  · exact actsBDA_keeps ppins ptime pregs pglb pnvs ppwr ppstate pwrp ppaths psyn pskn pfft pdpd prad plne pfhp ptim pcas pacq pmon pdrc pdma phka pbda pthm prnd
  · exact actsSYN_keeps ppins ptime pregs pglb pnvs ppwr ppstate pwrp ppaths psyn pskn pfft pdpd prad plne pfhp ptim pcas pacq pmon pdrc pdma phka pbda pthm prnd
  · exact actsRAD_keeps ppins ptime pregs pglb pnvs ppwr ppstate pwrp ppaths psyn pskn pfft pdpd prad plne pfhp ptim pcas pacq pmon pdrc pdma phka pbda pthm prnd
  · exact actsSKN_keeps ppins ptime pregs pglb pnvs ppwr ppstate pwrp ppaths psyn pskn pfft pdpd prad plne pfhp ptim pcas pacq pmon pdrc pdma phka pbda pthm prnd
  · exact actsFFT_keeps ppins ptime pregs pglb pnvs ppwr ppstate pwrp ppaths psyn pskn pfft pdpd prad plne pfhp ptim pcas pacq pmon pdrc pdma phka pbda pthm prnd
  · exact actsDPD_keeps ppins ptime pregs pglb pnvs ppwr ppstate pwrp ppaths psyn pskn pfft pdpd prad plne pfhp ptim pcas pacq pmon pdrc pdma phka pbda pthm prnd
  · exact actsFHP_keeps ppins ptime pregs pglb pnvs ppwr ppstate pwrp ppaths psyn pskn pfft pdpd prad plne pfhp ptim pcas pacq pmon pdrc pdma phka pbda pthm prnd
  · exact actsLNE_keeps ppins ptime pregs pglb pnvs ppwr ppstate pwrp ppaths psyn pskn pfft pdpd prad plne pfhp ptim pcas pacq pmon pdrc pdma phka pbda pthm prnd
  · exact actsTIM_keeps ppins ptime pregs pglb pnvs ppwr ppstate pwrp ppaths psyn pskn pfft pdpd prad plne pfhp ptim pcas pacq pmon pdrc pdma phka pbda pthm prnd
  · exact actsCAS_keeps ppins ptime pregs pglb pnvs ppwr ppstate pwrp ppaths psyn pskn pfft pdpd prad plne pfhp ptim pcas pacq pmon pdrc pdma phka pbda pthm prnd
  · exact actsACQ_keeps ppins ptime pregs pglb pnvs ppwr ppstate pwrp ppaths psyn pskn pfft pdpd prad plne pfhp ptim pcas pacq pmon pdrc pdma phka pbda pthm prnd
  · exact actsDMA_keeps ppins ptime pregs pglb pnvs ppwr ppstate pwrp ppaths psyn pskn pfft pdpd prad plne pfhp ptim pcas pacq pmon pdrc pdma phka pbda pthm prnd
  · exact actsDRC_keeps ppins ptime pregs pglb pnvs ppwr ppstate pwrp ppaths psyn pskn pfft pdpd prad plne pfhp ptim pcas pacq pmon pdrc pdma phka pbda pthm prnd
  · simp
theorem actOf_keeps {a : Nat} {f : Word → State → State} (ppins : L .pins = true) (ptime : L .time = true) (pregs : L .regs = true) (pglb : L .glb = true) (pnvs : L .nvs = true) (ppwr : L .pwr = true) (ppstate : L .pstate = true) (pwrp : L .wrp = true) (ppaths : L .paths = true) (psyn : L .syn = true) (pskn : L .skn = true) (pfft : L .fft = true) (pdpd : L .dpd = true) (prad : L .rad = true) (plne : L .lne = true) (pfhp : L .fhp = true) (ptim : L .tim = true) (pcas : L .cas = true) (pacq : L .acq = true) (pmon : L .mon = true) (pdrc : L .drc = true) (pdma : L .dma = true) (phka : L .hka = true) (pbda : L .bda = true) (pthm : L .thm = true) (prnd : L .rnd = true) (e : actOf a = some f) {w : Word} (K : Kept L s₀ s) : Kept L s₀ (f w s) := by
  unfold actOf at e; dsimp only at e
  split at e
  · exact pathAct_keeps ppins ptime pregs pglb pnvs ppwr ppstate pwrp ppaths psyn pskn pfft pdpd prad plne pfhp ptim pcas pacq pmon pdrc pdma phka pbda pthm prnd e K
  · obtain ⟨v, hv, he⟩ := List.exists_of_findSome?_eq_some e
    cases hi : v.index a with
    | none => simp [hi] at he
    | some i =>
      simp only [hi, Option.map_some, Option.some.injEq] at he
      subst he
      exact actsAt_keeps ppins ptime pregs pglb pnvs ppwr ppstate pwrp ppaths psyn pskn pfft pdpd prad plne pfhp ptim pcas pacq pmon pdrc pdma phka pbda pthm prnd _ v hv s₀ i w s K
theorem windowAct_keeps {a : Nat} {w : Word} {f : State → State} (pregs : L .regs = true) (pglb : L .glb = true) (pskn : L .skn = true) (pdpd : L .dpd = true) (pdma : L .dma = true) (e : windowAct a w = some f) (K : Kept L s₀ s) : Kept L s₀ (f s) := by
  unfold windowAct at e; dsimp only at e
  split at e
  · cases e; apply skeinWrite_keeps <;> assumption
  split at e
  · cases e; apply coefHostWrite_keeps <;> assumption
  split at e
  · cases e; apply dmaProgPut_keeps <;> assumption
  split at e
  · cases e; apply dmaWindowWrite_keeps <;> assumption
  split at e
  · cases e; exact modGlb_keeps pglb (fun h => h) (fun h => twf_mwrite _ _ h) K
  · cases e
theorem storeWrite_keeps {r : RegRow} {a : Nat} {w : Word} (pregs : L .regs = true) (K : Kept L s₀ s) : Kept L s₀ (storeWrite r a w s) := by
  unfold storeWrite; try dsimp only
  repeat' first | with_reducible assumption | with_reducible apply setReg_keeps | split | intro
theorem regWrite_keeps {a : Nat} {w : Word} (ppins : L .pins = true) (ptime : L .time = true) (pregs : L .regs = true) (pglb : L .glb = true) (pnvs : L .nvs = true) (ppwr : L .pwr = true) (ppstate : L .pstate = true) (pwrp : L .wrp = true) (ppaths : L .paths = true) (psyn : L .syn = true) (pskn : L .skn = true) (pfft : L .fft = true) (pdpd : L .dpd = true) (prad : L .rad = true) (plne : L .lne = true) (pfhp : L .fhp = true) (ptim : L .tim = true) (pcas : L .cas = true) (pacq : L .acq = true) (pmon : L .mon = true) (pdrc : L .drc = true) (pdma : L .dma = true) (phka : L .hka = true) (pbda : L .bda = true) (pthm : L .thm = true) (prnd : L .rnd = true) (K : Kept L s₀ s) : Kept L s₀ (regWrite a w s) := by
  unfold regWrite
  split
  · exact K
  · split
    · apply violSpi_keeps <;> assumption
    · split
      · rename_i e; exact actOf_keeps ppins ptime pregs pglb pnvs ppwr ppstate pwrp ppaths psyn pskn pfft pdpd prad plne pfhp ptim pcas pacq pmon pdrc pdma phka pbda pthm prnd e K
      · apply storeWrite_keeps <;> assumption
theorem hostWrite_keeps {a : Nat} {w : Word} (ppins : L .pins = true) (ptime : L .time = true) (pregs : L .regs = true) (pglb : L .glb = true) (pnvs : L .nvs = true) (ppwr : L .pwr = true) (ppstate : L .pstate = true) (pwrp : L .wrp = true) (ppaths : L .paths = true) (psyn : L .syn = true) (pskn : L .skn = true) (pfft : L .fft = true) (pdpd : L .dpd = true) (prad : L .rad = true) (plne : L .lne = true) (pfhp : L .fhp = true) (ptim : L .tim = true) (pcas : L .cas = true) (pacq : L .acq = true) (pmon : L .mon = true) (pdrc : L .drc = true) (pdma : L .dma = true) (phka : L .hka = true) (pbda : L .bda = true) (pthm : L .thm = true) (prnd : L .rnd = true) (K : Kept L s₀ s) : Kept L s₀ (hostWrite a w s) := by
  unfold hostWrite
  refine hosted_keeps ?_ K
  intro t h
  cases e : windowAct a w with
  | none => exact regWrite_keeps ppins ptime pregs pglb pnvs ppwr ppstate pwrp ppaths psyn pskn pfft pdpd prad plne pfhp ptim pcas pacq pmon pdrc pdma phka pbda pthm prnd h
  | some f => apply windowAct_keeps (e := e) <;> assumption

/-! ### Machine/Spi.lean -/

theorem spiViolation_keeps {cls : Nat} {addr : Word} (pregs : L .regs = true) (pglb : L .glb = true) (K : Kept L s₀ s) : Kept L s₀ (spiViolation cls addr s) := by
  unfold spiViolation; try dsimp only
  repeat' first | with_reducible assumption | with_reducible apply viol_keeps | with_reducible apply addLo_keeps | split | intro
theorem spiEnd_keeps {broke : Bool} {out : List Byte} (pglb : L .glb = true) (K : Kept L s₀ s) : Kept L s₀ (spiEnd broke out s) := by
  unfold spiEnd; try dsimp only
  repeat' first | with_reducible assumption | (with_reducible exact fun h => h) | exact fun _ => twf_nil | with_reducible apply modGlb_keeps | split | intro
theorem spiDiscard_keeps {cls : Nat} {addr : Word} {out : List Byte} (pregs : L .regs = true) (pglb : L .glb = true) (K : Kept L s₀ s) : Kept L s₀ (spiDiscard cls addr out s) := by
  unfold spiDiscard; try dsimp only
  repeat' first | with_reducible assumption | with_reducible apply spiEnd_keeps | with_reducible apply spiViolation_keeps | split | intro
theorem spiAddress_keeps {b : List Byte} (prnd : L .rnd = true) (K : Kept L s₀ s) : Kept L s₀ (spiAddress b s).2 := by
  unfold spiAddress; try dsimp only
  repeat' first | with_reducible assumption | with_reducible apply draw_keeps | split | (with_reducible refine Kept.pair1 (by assumption) ?_) | (with_reducible refine Kept.pair2 (by assumption) ?_) | intro
theorem spiFrame_keeps {badOp : Option Byte} {b : List Byte} {out : List Byte} {go : Nat → State → State} (hgo : ∀ x0 t, Kept L s₀ t → Kept L s₀ (go x0 t)) (pregs : L .regs = true) (pglb : L .glb = true) (prnd : L .rnd = true) (K : Kept L s₀ s) : Kept L s₀ (spiFrame badOp b out go s) := by
  unfold spiFrame; try dsimp only
  repeat' first | with_reducible assumption | with_reducible apply hgo | with_reducible apply spiAddress_keeps | with_reducible apply spiDiscard_keeps | split | (with_reducible refine Kept.pair1 (by assumption) ?_) | (with_reducible refine Kept.pair2 (by assumption) ?_) | intro
theorem spiWords_keeps {incr : Bool} {a i : Nat} {l : List Byte} (ppins : L .pins = true) (ptime : L .time = true) (pregs : L .regs = true) (pglb : L .glb = true) (pnvs : L .nvs = true) (ppwr : L .pwr = true) (ppstate : L .pstate = true) (pwrp : L .wrp = true) (ppaths : L .paths = true) (psyn : L .syn = true) (pskn : L .skn = true) (pfft : L .fft = true) (pdpd : L .dpd = true) (prad : L .rad = true) (plne : L .lne = true) (pfhp : L .fhp = true) (ptim : L .tim = true) (pcas : L .cas = true) (pacq : L .acq = true) (pmon : L .mon = true) (pdrc : L .drc = true) (pdma : L .dma = true) (phka : L .hka = true) (pbda : L .bda = true) (pthm : L .thm = true) (prnd : L .rnd = true) (K : Kept L s₀ s) : Kept L s₀ (spiWords incr a i l s) := by
  have key : ∀ (n : Nat) (l : List Byte) (i : Nat) (s : State), l.length ≤ n → Kept L s₀ s → Kept L s₀ (spiWords incr a i l s) := by
    intro n
    induction n with
    | zero =>
      intro l i s hl K
      cases l with
      | nil => exact K
      | cons x l => simp at hl
    | succ n ih =>
      intro l i s hl K
      unfold spiWords
      split
      · exact ih _ _ _ (by simp only [List.length_cons] at hl; omega) (hostWrite_keeps ppins ptime pregs pglb pnvs ppwr ppstate pwrp ppaths psyn pskn pfft pdpd prad plne pfhp ptim pcas pacq pmon pdrc pdma phka pbda pthm prnd K)
      · exact K
  exact key l.length l i s le_rfl K
theorem spiWrite_keeps {incr : Bool} {badOp : Option Byte} {b : List Byte} (ppins : L .pins = true) (ptime : L .time = true) (pregs : L .regs = true) (pglb : L .glb = true) (pnvs : L .nvs = true) (ppwr : L .pwr = true) (ppstate : L .pstate = true) (pwrp : L .wrp = true) (ppaths : L .paths = true) (psyn : L .syn = true) (pskn : L .skn = true) (pfft : L .fft = true) (pdpd : L .dpd = true) (prad : L .rad = true) (plne : L .lne = true) (pfhp : L .fhp = true) (ptim : L .tim = true) (pcas : L .cas = true) (pacq : L .acq = true) (pmon : L .mon = true) (pdrc : L .drc = true) (pdma : L .dma = true) (phka : L .hka = true) (pbda : L .bda = true) (pthm : L .thm = true) (prnd : L .rnd = true) (K : Kept L s₀ s) : Kept L s₀ (spiWrite incr badOp b s) := by
  unfold spiWrite; try dsimp only
  repeat' first | with_reducible assumption | with_reducible apply spiWords_keeps | with_reducible apply spiFrame_keeps | with_reducible apply spiEnd_keeps | with_reducible apply spiViolation_keeps | split | intro
theorem spiReadWords_keeps {incr : Bool} {a : Nat} {late : List Nat} {copy : State} {k i n : Nat} (pregs : L .regs = true) (pglb : L .glb = true) (ppwr : L .pwr = true) (pacq : L .acq = true) (K : Kept L s₀ s) :
    Kept L s₀ (spiReadWords incr a late copy k i n s).2 := by
  induction k generalizing i n s with
  | zero => exact K
  | succ k ih =>
    unfold spiReadWords; dsimp only
    repeat' first | with_reducible assumption | with_reducible apply ih | with_reducible apply addHi_keeps | with_reducible apply afterRead_keeps | split
theorem spiRead_keeps {incr : Bool} {b : List Byte} {n : Nat} {late : List Nat} (pregs : L .regs = true) (pglb : L .glb = true) (ppwr : L .pwr = true) (pacq : L .acq = true) (prnd : L .rnd = true) (K : Kept L s₀ s) : Kept L s₀ (spiRead incr b n late s) := by
  unfold spiRead; try dsimp only
  repeat' first | with_reducible assumption | with_reducible apply spiReadWords_keeps | with_reducible apply spiFrame_keeps | with_reducible apply spiEnd_keeps | split | (with_reducible refine Kept.pair1 (by assumption) ?_) | (with_reducible refine Kept.pair2 (by assumption) ?_) | intro

/-! ### Machine/Tick.lean -/

theorem timeTick_keeps  (ptime : L .time = true) (K : Kept L s₀ s) : Kept L s₀ (timeTick s) := by
  unfold timeTick; try dsimp only
  repeat' first | with_reducible assumption | with_reducible apply modTime_keeps | split | intro
theorem wiresTick_keeps  (pfhp : L .fhp = true) (pcas : L .cas = true) (K : Kept L s₀ s) : Kept L s₀ (wiresTick s) := by
  unfold wiresTick; try dsimp only
  repeat' first | with_reducible assumption | with_reducible apply modCas_keeps | with_reducible apply modFhp_keeps | split | intro
theorem tick_keeps  (ptime : L .time = true) (pregs : L .regs = true) (pnvs : L .nvs = true) (ppaths : L .paths = true) (psyn : L .syn = true) (pdpd : L .dpd = true) (prad : L .rad = true) (pfhp : L .fhp = true) (pcas : L .cas = true) (K : Kept L s₀ s) : Kept L s₀ (tick s) := by
  unfold tick; try dsimp only
  repeat' first | with_reducible assumption | with_reducible apply wiresTick_keeps | with_reducible apply timeTick_keeps | with_reducible apply rotTick_keeps | with_reducible apply flushTick_keeps | with_reducible apply mixTick_keeps | with_reducible apply calBookTick_keeps | with_reducible apply flushChanged_keeps | with_reducible apply lineTick_keeps | split | intro

end Sys2Proof.Machine
end

