-- ==== Sys2Proof/Laws/KeepExec.lean ====
section
/-!
SUPPORT. What each command can do: it answers a next state, in which what waits and what is fused is the same, every memory is in canonical
form if it was, and only the parts named changed.
-/

set_option linter.all false
set_option Elab.async false

namespace Sys2Proof.Machine

variable {L : Part → Bool} {s₀ s : State}

/-- The outcome is a next state that came from `s₀` by changes of the parts in `L` alone. -/
def OutKept (L : Part → Bool) (s₀ : State) (o : Host.Outcome State Fault Refusal) : Prop := ∃ t, o = .next t ∧ Kept L s₀ t

theorem next_keeps {t : State} (h : Kept L s₀ t) : OutKept L s₀ (.next t) := ⟨t, rfl, h⟩

/-- A command that keeps all but a list of parts completes and changes only those. -/
theorem OutKept.completes {l : List Part} {c : Instr} {s : State} (K : OutKept (fun p => decide (p ∈ l)) s (exec c s)) :
    completes c s (changedOnly l s) := by
  obtain ⟨t, h, k⟩ := K; exact ⟨t, h, k.changedOnly⟩

/-! ### Machine/Drc.lean -/

theorem execMr4Read_keeps {v : Option (Fin 8)} (pregs : L .regs = true) (pglb : L .glb = true) (pdrc : L .drc = true) (K : Kept L s₀ s) : OutKept L s₀ (execMr4Read v s) := by
  unfold execMr4Read; try dsimp only
  repeat' first | with_reducible assumption | with_reducible apply next_keeps | with_reducible apply readMr4_keeps | split | exact ‹Kept L s₀ _› | intro
theorem execRefreshDue_keeps {waiting : Bool} (pdrc : L .drc = true) (K : Kept L s₀ s) : OutKept L s₀ (execRefreshDue waiting s) := by
  unfold execRefreshDue; try dsimp only
  repeat' first | with_reducible assumption | with_reducible apply next_keeps | with_reducible apply refreshDue_keeps | split | exact ‹Kept L s₀ _› | intro
theorem execNeighbourRefresh_keeps {row : Fin 16 × Nat} (pregs : L .regs = true) (pdrc : L .drc = true) (K : Kept L s₀ s) : OutKept L s₀ (execNeighbourRefresh row s) := by
  unfold execNeighbourRefresh; try dsimp only
  repeat' first | with_reducible assumption | with_reducible apply next_keeps | with_reducible apply neighbourRefresh_keeps | split | exact ‹Kept L s₀ _› | intro
theorem execDramTrainingStart_keeps (pdrc : L .drc = true) (K : Kept L s₀ s) : OutKept L s₀ (execDramTrainingStart s) := by
  unfold execDramTrainingStart; try dsimp only
  repeat' first | with_reducible assumption | with_reducible apply next_keeps | with_reducible apply trainingStart_keeps | split | exact ‹Kept L s₀ _› | intro
theorem execDramTrainingStepDone_keeps {ok : Bool} (pregs : L .regs = true) (pglb : L .glb = true) (pdrc : L .drc = true) (K : Kept L s₀ s) : OutKept L s₀ (execDramTrainingStepDone ok s) := by
  unfold execDramTrainingStepDone; try dsimp only
  repeat' first | with_reducible assumption | with_reducible apply next_keeps | with_reducible apply trainingStepDone_keeps | split | exact ‹Kept L s₀ _› | intro
theorem execDqsCheck_keeps {drift : Int} (pregs : L .regs = true) (pglb : L .glb = true) (pdrc : L .drc = true) (K : Kept L s₀ s) : OutKept L s₀ (execDqsCheck drift s) := by
  unfold execDqsCheck; try dsimp only
  repeat' first | with_reducible assumption | with_reducible apply next_keeps | with_reducible apply dqsCheck_keeps | split | exact ‹Kept L s₀ _› | intro
theorem execHostTrainLock_keeps {on : Bool} (pregs : L .regs = true) (pdrc : L .drc = true) (K : Kept L s₀ s) : OutKept L s₀ (execHostTrainLock on s) := by
  unfold execHostTrainLock; try dsimp only
  repeat' first | with_reducible assumption | with_reducible apply next_keeps | with_reducible apply hostLock_keeps | with_reducible apply hosted_keeps | split | exact ‹Kept L s₀ _› | intro
theorem execDrcRetrain_keeps (pdrc : L .drc = true) (K : Kept L s₀ s) : OutKept L s₀ (execDrcRetrain s) := by
  unfold execDrcRetrain; try dsimp only
  repeat' first | with_reducible assumption | with_reducible apply next_keeps | with_reducible apply retrainFailed_keeps | with_reducible apply hosted_keeps | split | exact ‹Kept L s₀ _› | intro
theorem execDrcFreqReq_keeps {rate : Fin 8} (pregs : L .regs = true) (pdrc : L .drc = true) (K : Kept L s₀ s) : OutKept L s₀ (execDrcFreqReq rate s) := by
  unfold execDrcFreqReq; try dsimp only
  repeat' first | with_reducible assumption | with_reducible apply next_keeps | with_reducible apply freqReq_keeps | with_reducible apply hosted_keeps | split | exact ‹Kept L s₀ _› | intro
theorem execFreqChangeDone_keeps {mr4 : Option (Fin 8)} (pregs : L .regs = true) (pglb : L .glb = true) (pdrc : L .drc = true) (K : Kept L s₀ s) : OutKept L s₀ (execFreqChangeDone mr4 s) := by
  unfold execFreqChangeDone; try dsimp only
  repeat' first | with_reducible assumption | with_reducible apply next_keeps | with_reducible apply freqChangeDone_keeps | split | exact ‹Kept L s₀ _› | intro
theorem execFreqLockTimeout_keeps (pregs : L .regs = true) (pdrc : L .drc = true) (K : Kept L s₀ s) : OutKept L s₀ (execFreqLockTimeout s) := by
  unfold execFreqLockTimeout; try dsimp only
  repeat' first | with_reducible assumption | with_reducible apply next_keeps | with_reducible apply freqLockTimeout_keeps | split | exact ‹Kept L s₀ _› | intro
theorem execDrcPatGo_keeps {w : Word} (pregs : L .regs = true) (pglb : L .glb = true) (pdrc : L .drc = true) (K : Kept L s₀ s) : OutKept L s₀ (execDrcPatGo w s) := by
  unfold execDrcPatGo; try dsimp only
  repeat' first | with_reducible assumption | with_reducible apply next_keeps | with_reducible apply patGo_keeps | with_reducible apply hosted_keeps | split | exact ‹Kept L s₀ _› | intro
theorem execPatternDone_keeps {noise : List Byte} {from_ : Nat} (pregs : L .regs = true) (pdrc : L .drc = true) (K : Kept L s₀ s) : OutKept L s₀ (execPatternDone noise from_ s) := by
  unfold execPatternDone; try dsimp only
  repeat' first | with_reducible assumption | with_reducible apply next_keeps | with_reducible apply patternDone_keeps | split | exact ‹Kept L s₀ _› | intro

/-! ### Machine/Dma.lean -/

theorem execMove_keeps {c : Fin 16} (pregs : L .regs = true) (pskn : L .skn = true) (pdpd : L .dpd = true) (pdrc : L .drc = true) (pdma : L .dma = true) (K : Kept L s₀ s) : OutKept L s₀ (execMove c s) := by
  unfold execMove; try dsimp only
  repeat' first | with_reducible assumption | with_reducible apply next_keeps | with_reducible apply dmaMove_keeps | with_reducible apply dmaStep_keeps | split | exact ‹Kept L s₀ _› | intro
theorem execLoop_keeps {c : Fin 16} (pregs : L .regs = true) (pdma : L .dma = true) (K : Kept L s₀ s) : OutKept L s₀ (execLoop c s) := by
  unfold execLoop; try dsimp only
  repeat' first | with_reducible assumption | with_reducible apply next_keeps | with_reducible apply dmaLoop_keeps | with_reducible apply dmaStep_keeps | split | exact ‹Kept L s₀ _› | intro
theorem execWait_keeps {c : Fin 16} (pregs : L .regs = true) (pdma : L .dma = true) (K : Kept L s₀ s) : OutKept L s₀ (execWait c s) := by
  unfold execWait; try dsimp only
  repeat' first | with_reducible assumption | with_reducible apply next_keeps | with_reducible apply dmaWait_keeps | with_reducible apply dmaStep_keeps | split | exact ‹Kept L s₀ _› | intro
theorem execWaitTimeout_keeps {c : Fin 16} (pregs : L .regs = true) (pdma : L .dma = true) (K : Kept L s₀ s) : OutKept L s₀ (execWaitTimeout c s) := by
  unfold execWaitTimeout; try dsimp only
  repeat' first | with_reducible assumption | with_reducible apply next_keeps | with_reducible apply waitTimeout_keeps | split | exact ‹Kept L s₀ _› | intro
theorem execWaitDelayExpiry_keeps {c : Fin 16} (pdma : L .dma = true) (K : Kept L s₀ s) : OutKept L s₀ (execWaitDelayExpiry c s) := by
  unfold execWaitDelayExpiry; try dsimp only
  repeat' first | with_reducible assumption | with_reducible apply next_keeps | with_reducible apply waitDelayExpiry_keeps | split | exact ‹Kept L s₀ _› | intro
theorem execSignal_keeps {c : Fin 16} {noise : Word} (pregs : L .regs = true) (pglb : L .glb = true) (pdrc : L .drc = true) (pdma : L .dma = true) (K : Kept L s₀ s) : OutKept L s₀ (execSignal c noise s) := by
  unfold execSignal; try dsimp only
  repeat' first | with_reducible assumption | with_reducible apply next_keeps | with_reducible apply dmaSignal_keeps | with_reducible apply verified_keeps | with_reducible apply dmaStep_keeps | split | exact ‹Kept L s₀ _› | intro
theorem execEnd_keeps {c : Fin 16} {noise : Word} (pregs : L .regs = true) (pglb : L .glb = true) (pdrc : L .drc = true) (pdma : L .dma = true) (K : Kept L s₀ s) : OutKept L s₀ (execEnd c noise s) := by
  unfold execEnd; try dsimp only
  repeat' first | with_reducible assumption | with_reducible apply next_keeps | with_reducible apply dmaEnd_keeps | with_reducible apply verified_keeps | with_reducible apply dmaStep_keeps | split | exact ‹Kept L s₀ _› | intro
theorem execStart_keeps {c : Fin 16} (pregs : L .regs = true) (pglb : L .glb = true) (pdma : L .dma = true) (K : Kept L s₀ s) : OutKept L s₀ (execStart c s) := by
  unfold execStart; try dsimp only
  repeat' first | with_reducible assumption | with_reducible apply next_keeps | with_reducible apply chStart_keeps | with_reducible apply hosted_keeps | split | exact ‹Kept L s₀ _› | intro
theorem execAbort_keeps {c : Fin 16} (pdma : L .dma = true) (K : Kept L s₀ s) : OutKept L s₀ (execAbort c s) := by
  unfold execAbort; try dsimp only
  repeat' first | with_reducible assumption | with_reducible apply next_keeps | with_reducible apply chAbort_keeps | with_reducible apply hosted_keeps | split | exact ‹Kept L s₀ _› | intro
theorem execPause_keeps {c : Fin 16} {on : Bool} (pregs : L .regs = true) (pdma : L .dma = true) (K : Kept L s₀ s) : OutKept L s₀ (execPause c on s) := by
  unfold execPause; try dsimp only
  repeat' first | with_reducible assumption | with_reducible apply next_keeps | with_reducible apply pauseWrite_keeps | with_reducible apply hosted_keeps | split | exact ‹Kept L s₀ _› | intro
theorem execDoorbell_keeps {c : Fin 16} (pdma : L .dma = true) (K : Kept L s₀ s) : OutKept L s₀ (execDoorbell c s) := by
  unfold execDoorbell; try dsimp only
  repeat' first | with_reducible assumption | with_reducible apply next_keeps | with_reducible apply chDoorbell_keeps | with_reducible apply hosted_keeps | split | exact ‹Kept L s₀ _› | intro
theorem execDmaProgramWrite_keeps {n : Fin 512} {i : Fin 8} {w : Word} (pdma : L .dma = true) (K : Kept L s₀ s) : OutKept L s₀ (execDmaProgramWrite n i w s) := by
  unfold execDmaProgramWrite; try dsimp only
  repeat' first | with_reducible assumption | with_reducible apply next_keeps | with_reducible apply dmaProgPut_keeps | with_reducible apply hosted_keeps | split | exact ‹Kept L s₀ _› | intro

/-! ### Machine/Acq.lean -/

theorem execArm_keeps {st : Fin 4 × Bool} (pregs : L .regs = true) (pacq : L .acq = true) (K : Kept L s₀ s) : OutKept L s₀ (execArm st s) := by
  unfold execArm; try dsimp only
  repeat' first | with_reducible assumption | with_reducible apply next_keeps | with_reducible apply asked_keeps | with_reducible apply streamArm_keeps | split | exact ‹Kept L s₀ _› | intro
theorem execForce_keeps {st : Fin 4} {g : Grid} (pregs : L .regs = true) (pacq : L .acq = true) (K : Kept L s₀ s) : OutKept L s₀ (execForce st g s) := by
  unfold execForce; try dsimp only
  repeat' first | with_reducible assumption | with_reducible apply next_keeps | with_reducible apply forceTrigger_keeps | with_reducible apply hosted_keeps | split | exact ‹Kept L s₀ _› | intro
theorem execCaptureTrigger_keeps {st : Fin 4} {h : Grid × Watch} (pregs : L .regs = true) (pacq : L .acq = true) (K : Kept L s₀ s) : OutKept L s₀ (execCaptureTrigger st h s) := by
  unfold execCaptureTrigger; try dsimp only
  repeat' first | with_reducible assumption | with_reducible apply next_keeps | with_reducible apply captureTrigger_keeps | split | exact ‹Kept L s₀ _› | intro
theorem execTrigInEdge_keeps {rising : Bool} {e : Nat × List Grid} (pregs : L .regs = true) (pacq : L .acq = true) (K : Kept L s₀ s) : OutKept L s₀ (execTrigInEdge rising e s) := by
  unfold execTrigInEdge; try dsimp only
  repeat' first | with_reducible assumption | with_reducible apply next_keeps | with_reducible apply trigInEdge_keeps | split | exact ‹Kept L s₀ _› | intro
theorem execDisarm_keeps {st : Fin 4 × Bool} (pregs : L .regs = true) (pdpd : L .dpd = true) (pacq : L .acq = true) (pdrc : L .drc = true) (pdma : L .dma = true) (prnd : L .rnd = true) (K : Kept L s₀ s) : OutKept L s₀ (execDisarm st s) := by
  unfold execDisarm; try dsimp only
  repeat' first | with_reducible assumption | with_reducible apply next_keeps | with_reducible apply disarm_keeps | with_reducible apply asked_keeps | split | exact ‹Kept L s₀ _› | intro
theorem execSegmentEnd_keeps {st : Fin 4} {samples : List Cplx} {k : SegMarks} (pregs : L .regs = true) (pdpd : L .dpd = true) (pacq : L .acq = true) (pdrc : L .drc = true) (pdma : L .dma = true) (K : Kept L s₀ s) : OutKept L s₀ (execSegmentEnd st samples k s) := by
  unfold execSegmentEnd; try dsimp only
  repeat' first | with_reducible assumption | with_reducible apply next_keeps | with_reducible apply segmentEnd_keeps | split | exact ‹Kept L s₀ _› | intro
theorem execHoldoffEnd_keeps {st : Fin 4} (pacq : L .acq = true) (K : Kept L s₀ s) : OutKept L s₀ (execHoldoffEnd st s) := by
  unfold execHoldoffEnd; try dsimp only
  repeat' first | with_reducible assumption | with_reducible apply next_keeps | with_reducible apply holdoffEnd_keeps | split | exact ‹Kept L s₀ _› | intro
theorem execAcqMonCfgWrite_keeps {f : Fin 8} {w : Word} (pregs : L .regs = true) (pmon : L .mon = true) (K : Kept L s₀ s) : OutKept L s₀ (execAcqMonCfgWrite f w s) := by
  unfold execAcqMonCfgWrite; try dsimp only
  repeat' first | with_reducible assumption | with_reducible apply next_keeps | with_reducible apply monCfgWrite_keeps | with_reducible apply hosted_keeps | split | exact ‹Kept L s₀ _› | intro

/-! ### Machine/Bda.lean -/

theorem execBdaLoad_keeps {w : Word} (pregs : L .regs = true) (pbda : L .bda = true) (K : Kept L s₀ s) : OutKept L s₀ (execBdaLoad w s) := by
  unfold execBdaLoad; try dsimp only
  repeat' first | with_reducible assumption | with_reducible apply next_keeps | with_reducible apply bdaLoadWrite_keeps | with_reducible apply hosted_keeps | split | exact ‹Kept L s₀ _› | intro
theorem execTimedBiasLoad_keeps {g : Fin 9} (pregs : L .regs = true) (pbda : L .bda = true) (K : Kept L s₀ s) : OutKept L s₀ (execTimedBiasLoad g s) := by
  unfold execTimedBiasLoad; try dsimp only
  repeat' first | with_reducible assumption | with_reducible apply next_keeps | with_reducible apply timedBiasLoad_keeps | split | exact ‹Kept L s₀ _› | intro
theorem execBdaCodeWrite_keeps {n : Fin 72} {code : BitVec 16} (pregs : L .regs = true) (pbda : L .bda = true) (K : Kept L s₀ s) : OutKept L s₀ (execBdaCodeWrite n code s) := by
  unfold execBdaCodeWrite; try dsimp only
  repeat' first | with_reducible assumption | with_reducible apply next_keeps | with_reducible apply bdaCodeWrite_keeps | with_reducible apply hosted_keeps | split | exact ‹Kept L s₀ _› | intro
theorem execReleaseSafe_keeps (pregs : L .regs = true) (pbda : L .bda = true) (K : Kept L s₀ s) : OutKept L s₀ (execReleaseSafe s) := by
  unfold execReleaseSafe; try dsimp only
  repeat' first | with_reducible assumption | with_reducible apply next_keeps | with_reducible apply releaseSafe_keeps | with_reducible apply hosted_keeps | split | exact ‹Kept L s₀ _› | intro
theorem execClearAllFaults_keeps (pbda : L .bda = true) (K : Kept L s₀ s) : OutKept L s₀ (execClearAllFaults s) := by
  unfold execClearAllFaults; try dsimp only
  repeat' first | with_reducible assumption | with_reducible apply next_keeps | with_reducible apply clearFault_keeps | with_reducible apply hosted_keeps | with_reducible apply forAll_keeps | split | exact ‹Kept L s₀ _› | intro
theorem execBdaOutClear_keeps {n : Fin 72} (pbda : L .bda = true) (K : Kept L s₀ s) : OutKept L s₀ (execBdaOutClear n s) := by
  unfold execBdaOutClear; try dsimp only
  repeat' first | with_reducible assumption | with_reducible apply next_keeps | with_reducible apply clearFault_keeps | with_reducible apply hosted_keeps | split | exact ‹Kept L s₀ _› | intro

/-! ### Machine/Hka.lean -/

theorem execHkaConversionDone_keeps {code : BitVec 16} {past : Bool} (pregs : L .regs = true) (pglb : L .glb = true) (phka : L .hka = true) (pbda : L .bda = true) (K : Kept L s₀ s) : OutKept L s₀ (execHkaConversionDone code past s) := by
  unfold execHkaConversionDone; try dsimp only
  repeat' first | with_reducible assumption | with_reducible apply next_keeps | with_reducible apply conversionDone_keeps | split | exact ‹Kept L s₀ _› | intro
theorem execScan_keeps (pregs : L .regs = true) (phka : L .hka = true) (K : Kept L s₀ s) : OutKept L s₀ (execScan s) := by
  unfold execScan; try dsimp only
  repeat' first | with_reducible assumption | with_reducible apply next_keeps | with_reducible apply scanTrigger_keeps | with_reducible apply hosted_keeps | split | exact ‹Kept L s₀ _› | intro
theorem execHkaTimerTick_keeps (pregs : L .regs = true) (phka : L .hka = true) (K : Kept L s₀ s) : OutKept L s₀ (execHkaTimerTick s) := by
  unfold execHkaTimerTick; try dsimp only
  repeat' first | with_reducible assumption | with_reducible apply next_keeps | with_reducible apply scanTrigger_keeps | split | exact ‹Kept L s₀ _› | intro
theorem execHkaUrgent_keeps {w : Word} (pregs : L .regs = true) (pglb : L .glb = true) (phka : L .hka = true) (K : Kept L s₀ s) : OutKept L s₀ (execHkaUrgent w s) := by
  unfold execHkaUrgent; try dsimp only
  repeat' first | with_reducible assumption | with_reducible apply next_keeps | with_reducible apply urgentRequest_keeps | with_reducible apply hosted_keeps | split | exact ‹Kept L s₀ _› | intro
theorem execHkaQueuePop_keeps (phka : L .hka = true) (K : Kept L s₀ s) : OutKept L s₀ (execHkaQueuePop s) := by
  unfold execHkaQueuePop; try dsimp only
  repeat' first | with_reducible assumption | with_reducible apply next_keeps | with_reducible apply hosted_keeps | with_reducible apply modHka_keeps | split | exact ‹Kept L s₀ _› | intro

/-! ### Machine/Thm.lean -/

theorem execThrottleStageFall_keeps {z : Fin 12} (pregs : L .regs = true) (pthm : L .thm = true) (K : Kept L s₀ s) : OutKept L s₀ (execThrottleStageFall z s) := by
  unfold execThrottleStageFall; try dsimp only
  repeat' first | with_reducible assumption | with_reducible apply next_keeps | with_reducible apply stageFall_keeps | split | exact ‹Kept L s₀ _› | intro
theorem execTlUpdate_keeps (pregs : L .regs = true) (pfhp : L .fhp = true) (pthm : L .thm = true) (K : Kept L s₀ s) : OutKept L s₀ (execTlUpdate s) := by
  unfold execTlUpdate; try dsimp only
  repeat' first | with_reducible assumption | with_reducible apply next_keeps | with_reducible apply tlUpdate_keeps | split | exact ‹Kept L s₀ _› | intro

/-! ### Machine/Skn.lean -/

theorem execSknSwitchCtrlGo_keeps {w : Word} (pregs : L .regs = true) (pskn : L .skn = true) (pfhp : L .fhp = true) (pcas : L .cas = true) (K : Kept L s₀ s) : OutKept L s₀ (execSknSwitchCtrlGo w s) := by
  unfold execSknSwitchCtrlGo; try dsimp only
  repeat' first | with_reducible assumption | with_reducible apply next_keeps | with_reducible apply sknSwitchWrite_keeps | with_reducible apply hosted_keeps | split | exact ‹Kept L s₀ _› | intro
theorem execSknReportPop_keeps (pskn : L .skn = true) (K : Kept L s₀ s) : OutKept L s₀ (execSknReportPop s) := by
  unfold execSknReportPop; try dsimp only
  repeat' first | with_reducible assumption | with_reducible apply next_keeps | (with_reducible exact fun h => h) | exact fun _ => twf_nil | with_reducible apply hosted_keeps | with_reducible apply modSkn_keeps | split | exact ‹Kept L s₀ _› | intro
theorem execSkeinMemoryWrite_keeps {a : BitVec 22} {w : Word} (pskn : L .skn = true) (K : Kept L s₀ s) : OutKept L s₀ (execSkeinMemoryWrite a w s) := by
  unfold execSkeinMemoryWrite; try dsimp only
  repeat' first | with_reducible assumption | with_reducible apply next_keeps | with_reducible apply skeinWrite_keeps | with_reducible apply hosted_keeps | split | exact ‹Kept L s₀ _› | intro

/-! ### Machine/Fft.lean -/

theorem execFftJobSubmit_keeps {f : Fin 8 × Bool} (pregs : L .regs = true) (pfft : L .fft = true) (K : Kept L s₀ s) : OutKept L s₀ (execFftJobSubmit f s) := by
  unfold execFftJobSubmit; try dsimp only
  repeat' first | with_reducible assumption | with_reducible apply next_keeps | with_reducible apply fftSubmit_keeps | with_reducible apply asked_keeps | split | exact ‹Kept L s₀ _› | intro
theorem execFftJobStart_keeps {f : Fin 8} {samples : List Cplx} {first : Nat} (pregs : L .regs = true) (pfft : L .fft = true) (pmon : L .mon = true) (pdrc : L .drc = true) (K : Kept L s₀ s) : OutKept L s₀ (execFftJobStart f samples first s) := by
  unfold execFftJobStart; try dsimp only
  repeat' first | with_reducible assumption | with_reducible apply next_keeps | with_reducible apply fftStart_keeps | split | exact ‹Kept L s₀ _› | intro
theorem execFftJobDone_keeps {f : Fin 8} (pregs : L .regs = true) (pskn : L .skn = true) (pfft : L .fft = true) (pdrc : L .drc = true) (K : Kept L s₀ s) : OutKept L s₀ (execFftJobDone f s) := by
  unfold execFftJobDone; try dsimp only
  repeat' first | with_reducible assumption | with_reducible apply next_keeps | with_reducible apply fftDone_keeps | split | exact ‹Kept L s₀ _› | intro

/-! ### Machine/Dpd.lean -/

theorem execDpdSwitchCtrlGo_keeps {w : Word} (pregs : L .regs = true) (pglb : L .glb = true) (pdpd : L .dpd = true) (K : Kept L s₀ s) : OutKept L s₀ (execDpdSwitchCtrlGo w s) := by
  unfold execDpdSwitchCtrlGo; try dsimp only
  repeat' first | with_reducible assumption | with_reducible apply next_keeps | with_reducible apply dpdSwitchWrite_keeps | with_reducible apply hosted_keeps | split | exact ‹Kept L s₀ _› | intro
theorem execSwapStart_keeps {b : BankedSet} (pregs : L .regs = true) (pglb : L .glb = true) (pskn : L .skn = true) (pdpd : L .dpd = true) (pfhp : L .fhp = true) (K : Kept L s₀ s) : OutKept L s₀ (execSwapStart b s) := by
  unfold execSwapStart; try dsimp only
  repeat' first | with_reducible assumption | with_reducible apply next_keeps | with_reducible apply dpdSwapStart_keeps | with_reducible apply swapStart_keeps | split | exact ‹Kept L s₀ _› | intro
theorem execPlyEnd_keeps {b : BankedSet} (pskn : L .skn = true) (pdpd : L .dpd = true) (K : Kept L s₀ s) : OutKept L s₀ (execPlyEnd b s) := by
  unfold execPlyEnd; try dsimp only
  repeat' first | with_reducible assumption | with_reducible apply next_keeps | with_reducible apply dpdPlyEnd_keeps | with_reducible apply plyEnd_keeps | split | exact ‹Kept L s₀ _› | intro
theorem execDpdPathCfgWrite_keeps {p : Fin 64} {w : Word} (pregs : L .regs = true) (pglb : L .glb = true) (pdpd : L .dpd = true) (K : Kept L s₀ s) : OutKept L s₀ (execDpdPathCfgWrite p w s) := by
  unfold execDpdPathCfgWrite; try dsimp only
  repeat' first | with_reducible assumption | with_reducible apply next_keeps | with_reducible apply dpdPathCfgWrite_keeps | with_reducible apply hosted_keeps | split | exact ‹Kept L s₀ _› | intro
theorem execDpdCoeffMemoryWrite_keeps {a : BitVec 18} {w : Word} (pregs : L .regs = true) (pglb : L .glb = true) (pdpd : L .dpd = true) (K : Kept L s₀ s) : OutKept L s₀ (execDpdCoeffMemoryWrite a w s) := by
  unfold execDpdCoeffMemoryWrite; try dsimp only
  repeat' first | with_reducible assumption | with_reducible apply next_keeps | with_reducible apply coefHostWrite_keeps | with_reducible apply hosted_keeps | split | exact ‹Kept L s₀ _› | intro
theorem execDpdPathDue_keeps {p : Fin 64} (pdpd : L .dpd = true) (K : Kept L s₀ s) : OutKept L s₀ (execDpdPathDue p s) := by
  unfold execDpdPathDue; try dsimp only
  repeat' first | with_reducible assumption | with_reducible apply next_keeps | with_reducible apply pathDue_keeps | split | exact ‹Kept L s₀ _› | intro
theorem execObsVisitDone_keeps {o : Fin 8} {m : Fin 8} {k : ObsBlock} (pregs : L .regs = true) (pglb : L .glb = true) (pdpd : L .dpd = true) (K : Kept L s₀ s) : OutKept L s₀ (execObsVisitDone o m k s) := by
  unfold execObsVisitDone; try dsimp only
  repeat' first | with_reducible assumption | with_reducible apply next_keeps | with_reducible apply obsVisit_keeps | split | exact ‹Kept L s₀ _› | intro
theorem execSolveStart_keeps (pregs : L .regs = true) (pdpd : L .dpd = true) (K : Kept L s₀ s) : OutKept L s₀ (execSolveStart s) := by
  unfold execSolveStart; try dsimp only
  repeat' first | with_reducible assumption | with_reducible apply next_keeps | with_reducible apply solveStart_keeps | split | exact ‹Kept L s₀ _› | intro
theorem execSolveDone_keeps {p : Fin 64} {took : Nat} (pregs : L .regs = true) (pglb : L .glb = true) (pdpd : L .dpd = true) (K : Kept L s₀ s) : OutKept L s₀ (execSolveDone p took s) := by
  unfold execSolveDone; try dsimp only
  repeat' first | with_reducible assumption | with_reducible apply next_keeps | with_reducible apply solveDone_keeps | split | exact ‹Kept L s₀ _› | intro
theorem execDpdVerificationDone_keeps {p : Fin 64} {k : ObsBlock} (pregs : L .regs = true) (pglb : L .glb = true) (pdpd : L .dpd = true) (K : Kept L s₀ s) : OutKept L s₀ (execDpdVerificationDone p k s) := by
  unfold execDpdVerificationDone; try dsimp only
  repeat' first | with_reducible assumption | with_reducible apply next_keeps | with_reducible apply verificationDone_keeps | split | exact ‹Kept L s₀ _› | intro
theorem execDpdStale_keeps {p : Fin 64} (pregs : L .regs = true) (K : Kept L s₀ s) : OutKept L s₀ (execDpdStale p s) := by
  unfold execDpdStale; try dsimp only
  repeat' first | with_reducible assumption | with_reducible apply next_keeps | with_reducible apply dpdStale_keeps | split | exact ‹Kept L s₀ _› | intro
theorem execDpdSurveyCtrlGo_keeps {w : Word} (pregs : L .regs = true) (pdpd : L .dpd = true) (K : Kept L s₀ s) : OutKept L s₀ (execDpdSurveyCtrlGo w s) := by
  unfold execDpdSurveyCtrlGo; try dsimp only
  repeat' first | with_reducible assumption | with_reducible apply next_keeps | with_reducible apply surveyGo_keeps | with_reducible apply hosted_keeps | split | exact ‹Kept L s₀ _› | intro
theorem execSurveyAbort_keeps (pregs : L .regs = true) (psyn : L .syn = true) (pdpd : L .dpd = true) (K : Kept L s₀ s) : OutKept L s₀ (execSurveyAbort s) := by
  unfold execSurveyAbort; try dsimp only
  repeat' first | with_reducible assumption | with_reducible apply next_keeps | with_reducible apply surveyAbort_keeps | split | exact ‹Kept L s₀ _› | intro
theorem execSurveyDone_keeps {m : Fin 8 × List (Cplx × Cplx)} (pregs : L .regs = true) (psyn : L .syn = true) (pdpd : L .dpd = true) (K : Kept L s₀ s) : OutKept L s₀ (execSurveyDone m s) := by
  unfold execSurveyDone; try dsimp only
  repeat' first | with_reducible assumption | with_reducible apply next_keeps | with_reducible apply surveyDone_keeps | split | exact ‹Kept L s₀ _› | intro
theorem execObsHolderGrant_keeps {o : Fin 8} (pregs : L .regs = true) (pglb : L .glb = true) (ppaths : L .paths = true) (psyn : L .syn = true) (pdpd : L .dpd = true) (pfhp : L .fhp = true) (pacq : L .acq = true) (K : Kept L s₀ s) : OutKept L s₀ (execObsHolderGrant o s) := by
  unfold execObsHolderGrant; try dsimp only
  repeat' first | with_reducible assumption | with_reducible apply next_keeps | with_reducible apply obsHolderGrant_keeps | split | exact ‹Kept L s₀ _› | intro

/-! ### Machine/Paths.lean -/

theorem execPthTxAttenWrite_keeps {p : Fin 64} {w : Word} (pregs : L .regs = true) (ppaths : L .paths = true) (K : Kept L s₀ s) : OutKept L s₀ (execPthTxAttenWrite p w s) := by
  unfold execPthTxAttenWrite; try dsimp only
  repeat' first | with_reducible assumption | with_reducible apply next_keeps | with_reducible apply txAttenWrite_keeps | with_reducible apply hosted_keeps | split | exact ‹Kept L s₀ _› | intro
theorem execPthRxAttenWrite_keeps {p : Fin 64} {w : Word} (pregs : L .regs = true) (ppaths : L .paths = true) (K : Kept L s₀ s) : OutKept L s₀ (execPthRxAttenWrite p w s) := by
  unfold execPthRxAttenWrite; try dsimp only
  repeat' first | with_reducible assumption | with_reducible apply next_keeps | with_reducible apply rxAttenWrite_keeps | with_reducible apply hosted_keeps | split | exact ‹Kept L s₀ _› | intro
theorem execPthTrimUserWrite_keeps {p : Fin 64} {tx : Bool} {w : Word} (pregs : L .regs = true) (ppaths : L .paths = true) (K : Kept L s₀ s) : OutKept L s₀ (execPthTrimUserWrite p tx w s) := by
  unfold execPthTrimUserWrite; try dsimp only
  repeat' first | with_reducible assumption | with_reducible apply next_keeps | with_reducible apply trimUserWrite_keeps | with_reducible apply hosted_keeps | split | exact ‹Kept L s₀ _› | intro
theorem execTxMute_keeps {p : Fin 64} {mute : Bool} {now : Bool} (pregs : L .regs = true) (ppaths : L .paths = true) (K : Kept L s₀ s) : OutKept L s₀ (execTxMute p mute now s) := by
  unfold execTxMute; try dsimp only
  repeat' first | with_reducible assumption | with_reducible apply next_keeps | with_reducible apply txMuteWrite_keeps | with_reducible apply hosted_keeps | split | exact ‹Kept L s₀ _› | intro
theorem execRxZero_keeps {p : Fin 64} {zero : Bool} (pregs : L .regs = true) (K : Kept L s₀ s) : OutKept L s₀ (execRxZero p zero s) := by
  unfold execRxZero; try dsimp only
  repeat' first | with_reducible assumption | with_reducible apply next_keeps | with_reducible apply hosted_keeps | with_reducible apply setFld_keeps | split | exact ‹Kept L s₀ _› | intro
theorem execInvSincOff_keeps {p : Fin 64} {off : Bool} (pregs : L .regs = true) (K : Kept L s₀ s) : OutKept L s₀ (execInvSincOff p off s) := by
  unfold execInvSincOff; try dsimp only
  repeat' first | with_reducible assumption | with_reducible apply next_keeps | with_reducible apply hosted_keeps | with_reducible apply setFld_keeps | split | exact ‹Kept L s₀ _› | intro
theorem execClearOcp_keeps {p : Fin 64} (ppaths : L .paths = true) (K : Kept L s₀ s) : OutKept L s₀ (execClearOcp p s) := by
  unfold execClearOcp; try dsimp only
  repeat' first | with_reducible assumption | with_reducible apply next_keeps | with_reducible apply clearOcp_keeps | with_reducible apply hosted_keeps | split | exact ‹Kept L s₀ _› | intro
theorem execShadowBlockDone_keeps {p : Fin 64} {q : Bool} {rms : Nat} (pregs : L .regs = true) (pglb : L .glb = true) (pnvs : L .nvs = true) (ppaths : L .paths = true) (pdpd : L .dpd = true) (pfhp : L .fhp = true) (pacq : L .acq = true) (pdrc : L .drc = true) (pdma : L .dma = true) (prnd : L .rnd = true) (K : Kept L s₀ s) : OutKept L s₀ (execShadowBlockDone p q rms s) := by
  unfold execShadowBlockDone; try dsimp only
  repeat' first | with_reducible assumption | with_reducible apply next_keeps | with_reducible apply shadowBlock_keeps | split | exact ‹Kept L s₀ _› | intro
theorem execShadowPassDone_keeps {p : Fin 64} {q : Bool} (pregs : L .regs = true) (pglb : L .glb = true) (pnvs : L .nvs = true) (ppaths : L .paths = true) (pdpd : L .dpd = true) (pfhp : L .fhp = true) (pacq : L .acq = true) (pdrc : L .drc = true) (pdma : L .dma = true) (prnd : L .rnd = true) (K : Kept L s₀ s) : OutKept L s₀ (execShadowPassDone p q s) := by
  unfold execShadowPassDone; try dsimp only
  repeat' first | with_reducible assumption | with_reducible apply next_keeps | with_reducible apply shadowPass_keeps | split | exact ‹Kept L s₀ _› | intro
theorem execAdcStuckDetect_keeps {p : Fin 64} {q : Bool} {pos : Fin 8} (pregs : L .regs = true) (pglb : L .glb = true) (pnvs : L .nvs = true) (ppaths : L .paths = true) (pdpd : L .dpd = true) (pfhp : L .fhp = true) (pacq : L .acq = true) (pdrc : L .drc = true) (pdma : L .dma = true) (prnd : L .rnd = true) (K : Kept L s₀ s) : OutKept L s₀ (execAdcStuckDetect p q pos s) := by
  unfold execAdcStuckDetect; try dsimp only
  repeat' first | with_reducible assumption | with_reducible apply next_keeps | with_reducible apply adcFailed_keeps | with_reducible apply whenB_keeps | split | exact ‹Kept L s₀ _› | intro
theorem execAdcCorrectionEstimate_keeps {p : Fin 64} {q : Bool} {sub : Fin 9} {offset : Int} {gain : Int} {skew : Int} (pregs : L .regs = true) (pglb : L .glb = true) (pnvs : L .nvs = true) (ppaths : L .paths = true) (pdpd : L .dpd = true) (pfhp : L .fhp = true) (pacq : L .acq = true) (pdrc : L .drc = true) (pdma : L .dma = true) (prnd : L .rnd = true) (K : Kept L s₀ s) : OutKept L s₀ (execAdcCorrectionEstimate p q sub offset gain skew s) := by
  unfold execAdcCorrectionEstimate; try dsimp only
  repeat' first | with_reducible assumption | with_reducible apply next_keeps | with_reducible apply adcEstimate_keeps | with_reducible apply whenB_keeps | split | exact ‹Kept L s₀ _› | intro
theorem execDacSegmentMeasured_keeps {p : Fin 64} {q : Bool} {seg : Fin 63} {ok : Bool} (pregs : L .regs = true) (pglb : L .glb = true) (pnvs : L .nvs = true) (ppaths : L .paths = true) (pdpd : L .dpd = true) (pfhp : L .fhp = true) (pacq : L .acq = true) (pdrc : L .drc = true) (pdma : L .dma = true) (prnd : L .rnd = true) (K : Kept L s₀ s) : OutKept L s₀ (execDacSegmentMeasured p q seg ok s) := by
  unfold execDacSegmentMeasured; try dsimp only
  repeat' first | with_reducible assumption | with_reducible apply next_keeps | with_reducible apply segmentMeasured_keeps | split | exact ‹Kept L s₀ _› | intro
theorem execDacBinaryFail_keeps {p : Fin 64} (pregs : L .regs = true) (pglb : L .glb = true) (pnvs : L .nvs = true) (ppaths : L .paths = true) (pdpd : L .dpd = true) (pfhp : L .fhp = true) (pacq : L .acq = true) (pdrc : L .drc = true) (pdma : L .dma = true) (prnd : L .rnd = true) (K : Kept L s₀ s) : OutKept L s₀ (execDacBinaryFail p s) := by
  unfold execDacBinaryFail; try dsimp only
  repeat' first | with_reducible assumption | with_reducible apply next_keeps | with_reducible apply dacBinaryFail_keeps | split | exact ‹Kept L s₀ _› | intro
theorem execOcpTrip_keeps {p : Fin 64} (pregs : L .regs = true) (pglb : L .glb = true) (pnvs : L .nvs = true) (ppaths : L .paths = true) (pdpd : L .dpd = true) (pfhp : L .fhp = true) (pacq : L .acq = true) (pdrc : L .drc = true) (pdma : L .dma = true) (prnd : L .rnd = true) (K : Kept L s₀ s) : OutKept L s₀ (execOcpTrip p s) := by
  unfold execOcpTrip; try dsimp only
  repeat' first | with_reducible assumption | with_reducible apply next_keeps | with_reducible apply ocpTrip_keeps | split | exact ‹Kept L s₀ _› | intro
theorem execOverloadMs_keeps {p : Fin 64} {i : Nat} {q : Nat} {both : Nat} (pregs : L .regs = true) (ppaths : L .paths = true) (K : Kept L s₀ s) : OutKept L s₀ (execOverloadMs p i q both s) := by
  unfold execOverloadMs; try dsimp only
  repeat' first | with_reducible assumption | with_reducible apply next_keeps | with_reducible apply overloadMs_keeps | split | exact ‹Kept L s₀ _› | intro

/-! ### Machine/NvsRec.lean -/

theorem execNvsRecDataWrite_keeps {w : Word} (pregs : L .regs = true) (pglb : L .glb = true) (pnvs : L .nvs = true) (K : Kept L s₀ s) : OutKept L s₀ (execNvsRecDataWrite w s) := by
  unfold execNvsRecDataWrite; try dsimp only
  repeat' first | with_reducible assumption | with_reducible apply next_keeps | with_reducible apply recData_keeps | with_reducible apply hosted_keeps | split | exact ‹Kept L s₀ _› | intro
theorem execNvsRecWrite_keeps {type : Byte} (pregs : L .regs = true) (pnvs : L .nvs = true) (K : Kept L s₀ s) : OutKept L s₀ (execNvsRecWrite type s) := by
  unfold execNvsRecWrite; try dsimp only
  repeat' first | with_reducible assumption | with_reducible apply next_keeps | with_reducible apply recWrite_keeps | with_reducible apply hosted_keeps | split | exact ‹Kept L s₀ _› | intro
theorem execNvsRecClear_keeps (pnvs : L .nvs = true) (K : Kept L s₀ s) : OutKept L s₀ (execNvsRecClear s) := by
  unfold execNvsRecClear; try dsimp only
  repeat' first | with_reducible assumption | with_reducible apply next_keeps | with_reducible apply recClear_keeps | with_reducible apply hosted_keeps | split | exact ‹Kept L s₀ _› | intro
theorem execNvsDataAccess_keeps {write : Option Word} {fails : Option Nat} (pregs : L .regs = true) (pglb : L .glb = true) (pnvs : L .nvs = true) (K : Kept L s₀ s) : OutKept L s₀ (execNvsDataAccess write fails s) := by
  unfold execNvsDataAccess; try dsimp only
  repeat' first | with_reducible assumption | with_reducible apply next_keeps | with_reducible apply nvsDataWrite_keeps | with_reducible apply nvsAdvance_keeps | with_reducible apply hosted_keeps | split | exact ‹Kept L s₀ _› | intro
theorem execPowerFailWarning_keeps {vsen : Bool} {remaining : Nat} (pregs : L .regs = true) (pnvs : L .nvs = true) (K : Kept L s₀ s) : OutKept L s₀ (execPowerFailWarning vsen remaining s) := by
  unfold execPowerFailWarning; try dsimp only
  repeat' first | with_reducible assumption | with_reducible apply next_keeps | with_reducible apply powerFailWarning_keeps | split | exact ‹Kept L s₀ _› | intro

/-! ### Machine/Rad.lean -/

theorem execGroupTransitionDone_keeps {g : Fin 8} (ppstate : L .pstate = true) (prad : L .rad = true) (K : Kept L s₀ s) : OutKept L s₀ (execGroupTransitionDone g s) := by
  unfold execGroupTransitionDone; try dsimp only
  repeat' first | with_reducible assumption | with_reducible apply next_keeps | with_reducible apply transitionDone_keeps | split | exact ‹Kept L s₀ _› | intro
theorem execRadGroupCmd_keeps {w : Word} (pregs : L .regs = true) (pglb : L .glb = true) (ppstate : L .pstate = true) (prad : L .rad = true) (pfhp : L .fhp = true) (pcas : L .cas = true) (K : Kept L s₀ s) : OutKept L s₀ (execRadGroupCmd w s) := by
  unfold execRadGroupCmd; try dsimp only
  repeat' first | with_reducible assumption | with_reducible apply next_keeps | with_reducible apply groupCmdWrite_keeps | with_reducible apply hosted_keeps | split | exact ‹Kept L s₀ _› | intro
theorem execRadBurstCtrlGo_keeps {w : Word} (pregs : L .regs = true) (pglb : L .glb = true) (ppstate : L .pstate = true) (prad : L .rad = true) (pfhp : L .fhp = true) (pcas : L .cas = true) (K : Kept L s₀ s) : OutKept L s₀ (execRadBurstCtrlGo w s) := by
  unfold execRadBurstCtrlGo; try dsimp only
  repeat' first | with_reducible assumption | with_reducible apply next_keeps | with_reducible apply burstCtrlWrite_keeps | with_reducible apply hosted_keeps | split | exact ‹Kept L s₀ _› | intro
theorem execBurstPreparation_keeps {g : Fin 8} (ppstate : L .pstate = true) (prad : L .rad = true) (K : Kept L s₀ s) : OutKept L s₀ (execBurstPreparation g s) := by
  unfold execBurstPreparation; try dsimp only
  repeat' first | with_reducible assumption | with_reducible apply next_keeps | with_reducible apply burstPrepare_keeps | split | exact ‹Kept L s₀ _› | intro
theorem execBurstStart_keeps {g : Fin 8} (pregs : L .regs = true) (pglb : L .glb = true) (ppstate : L .pstate = true) (prad : L .rad = true) (pfhp : L .fhp = true) (pcas : L .cas = true) (pacq : L .acq = true) (K : Kept L s₀ s) : OutKept L s₀ (execBurstStart g s) := by
  unfold execBurstStart; try dsimp only
  repeat' first | with_reducible assumption | with_reducible apply next_keeps | with_reducible apply burstStart_keeps | split | exact ‹Kept L s₀ _› | intro
theorem execBurstEnd_keeps {g : Fin 8} (pregs : L .regs = true) (pglb : L .glb = true) (ppstate : L .pstate = true) (prad : L .rad = true) (pfhp : L .fhp = true) (pcas : L .cas = true) (K : Kept L s₀ s) : OutKept L s₀ (execBurstEnd g s) := by
  unfold execBurstEnd; try dsimp only
  repeat' first | with_reducible assumption | with_reducible apply next_keeps | with_reducible apply burstEnd_keeps | split | exact ‹Kept L s₀ _› | intro
theorem execRadReportPop_keeps (prad : L .rad = true) (K : Kept L s₀ s) : OutKept L s₀ (execRadReportPop s) := by
  unfold execRadReportPop; try dsimp only
  repeat' first | with_reducible assumption | with_reducible apply next_keeps | with_reducible apply hosted_keeps | with_reducible apply modRad_keeps | split | exact ‹Kept L s₀ _› | intro
theorem execRadLineCfgWrite_keeps {f : Fin 8} {n : Fin 4} {w : Word} (pregs : L .regs = true) (K : Kept L s₀ s) : OutKept L s₀ (execRadLineCfgWrite f n w s) := by
  unfold execRadLineCfgWrite; try dsimp only
  repeat' first | with_reducible assumption | with_reducible apply next_keeps | with_reducible apply lineCfgWrite_keeps | with_reducible apply hosted_keeps | split | exact ‹Kept L s₀ _› | intro

/-! ### Machine/Rffe.lean -/

theorem execRffeImmediateCmd_keeps {f : Fin 8} {w : Word} (pregs : L .regs = true) (prad : L .rad = true) (K : Kept L s₀ s) : OutKept L s₀ (execRffeImmediateCmd f w s) := by
  unfold execRffeImmediateCmd; try dsimp only
  repeat' first | with_reducible assumption | with_reducible apply next_keeps | with_reducible apply rffeImmediate_keeps | with_reducible apply hosted_keeps | split | exact ‹Kept L s₀ _› | intro
theorem execRffeTimedCmd_keeps {f : Fin 8} {w : Word} (pregs : L .regs = true) (prad : L .rad = true) (K : Kept L s₀ s) : OutKept L s₀ (execRffeTimedCmd f w s) := by
  unfold execRffeTimedCmd; try dsimp only
  repeat' first | with_reducible assumption | with_reducible apply next_keeps | with_reducible apply rffeTimed_keeps | with_reducible apply hosted_keeps | split | exact ‹Kept L s₀ _› | intro
theorem execRffeTimedFrameSend_keeps {f : Fin 8} (pregs : L .regs = true) (prad : L .rad = true) (K : Kept L s₀ s) : OutKept L s₀ (execRffeTimedFrameSend f s) := by
  unfold execRffeTimedFrameSend; try dsimp only
  repeat' first | with_reducible assumption | with_reducible apply next_keeps | with_reducible apply rffeDue_keeps | split | exact ‹Kept L s₀ _› | intro
theorem execRffeFrameDone_keeps {f : Fin 8} {data : Word} {parity : Bool} (pregs : L .regs = true) (prad : L .rad = true) (K : Kept L s₀ s) : OutKept L s₀ (execRffeFrameDone f data parity s) := by
  unfold execRffeFrameDone; try dsimp only
  repeat' first | with_reducible assumption | with_reducible apply next_keeps | with_reducible apply rffeDone_keeps | split | exact ‹Kept L s₀ _› | intro

/-! ### Machine/Licence.lean -/

theorem execPastureWrite_keeps (pregs : L .regs = true) (pnvs : L .nvs = true) (prnd : L .rnd = true) (K : Kept L s₀ s) : OutKept L s₀ (execPastureWrite s) := by
  unfold execPastureWrite; try dsimp only
  repeat' first | with_reducible assumption | with_reducible apply next_keeps | with_reducible apply pastWrite_keeps | with_reducible apply hosted_keeps | split | exact ‹Kept L s₀ _› | intro
theorem execPastureClear_keeps (pnvs : L .nvs = true) (K : Kept L s₀ s) : OutKept L s₀ (execPastureClear s) := by
  unfold execPastureClear; try dsimp only
  repeat' first | with_reducible assumption | with_reducible apply next_keeps | with_reducible apply pastClear_keeps | with_reducible apply hosted_keeps | split | exact ‹Kept L s₀ _› | intro
theorem execNvsPastDataWrite_keeps {w : Word} (pregs : L .regs = true) (pglb : L .glb = true) (pnvs : L .nvs = true) (K : Kept L s₀ s) : OutKept L s₀ (execNvsPastDataWrite w s) := by
  unfold execNvsPastDataWrite; try dsimp only
  repeat' first | with_reducible assumption | with_reducible apply next_keeps | with_reducible apply pastData_keeps | with_reducible apply hosted_keeps | split | exact ‹Kept L s₀ _› | intro
theorem execLicencePowerWindow_keeps {levels : List (Option Int)} (pregs : L .regs = true) (ppaths : L .paths = true) (prad : L .rad = true) (K : Kept L s₀ s) : OutKept L s₀ (execLicencePowerWindow levels s) := by
  unfold execLicencePowerWindow; try dsimp only
  repeat' first | with_reducible assumption | with_reducible apply next_keeps | with_reducible apply powerWindow_keeps | split | exact ‹Kept L s₀ _› | intro
theorem execLicenceAttenRelax_keeps {p : Option (Fin 64)} (ppaths : L .paths = true) (prad : L .rad = true) (K : Kept L s₀ s) : OutKept L s₀ (execLicenceAttenRelax p s) := by
  unfold execLicenceAttenRelax; try dsimp only
  repeat' first | with_reducible assumption | with_reducible apply next_keeps | with_reducible apply attenRelax_keeps | split | exact ‹Kept L s₀ _› | intro

/-! ### Machine/Cal.lean -/

theorem execCalIntervalStart_keeps (pregs : L .regs = true) (pglb : L .glb = true) (pnvs : L .nvs = true) (ppstate : L .pstate = true) (pdpd : L .dpd = true) (prad : L .rad = true) (pfhp : L .fhp = true) (pcas : L .cas = true) (K : Kept L s₀ s) : OutKept L s₀ (execCalIntervalStart s) := by
  unfold execCalIntervalStart; try dsimp only
  repeat' first | with_reducible assumption | with_reducible apply next_keeps | with_reducible apply calStart_keeps | split | exact ‹Kept L s₀ _› | intro
theorem execCalDone_keeps {ms : List CalMeas} (pregs : L .regs = true) (pglb : L .glb = true) (pnvs : L .nvs = true) (ppstate : L .pstate = true) (ppaths : L .paths = true) (pdpd : L .dpd = true) (prad : L .rad = true) (K : Kept L s₀ s) : OutKept L s₀ (execCalDone ms s) := by
  unfold execCalDone; try dsimp only
  repeat' first | with_reducible assumption | with_reducible apply next_keeps | with_reducible apply calDone_keeps | split | exact ‹Kept L s₀ _› | intro
theorem execNvsCalReq_keeps {w : Word} (pregs : L .regs = true) (pnvs : L .nvs = true) (K : Kept L s₀ s) : OutKept L s₀ (execNvsCalReq w s) := by
  unfold execNvsCalReq; try dsimp only
  repeat' first | with_reducible assumption | with_reducible apply next_keeps | with_reducible apply calReqWrite_keeps | with_reducible apply hosted_keeps | split | exact ‹Kept L s₀ _› | intro
theorem execNvsCalWaitLong_keeps (pregs : L .regs = true) (pnvs : L .nvs = true) (K : Kept L s₀ s) : OutKept L s₀ (execNvsCalWaitLong s) := by
  unfold execNvsCalWaitLong; try dsimp only
  repeat' first | with_reducible assumption | with_reducible apply next_keeps | with_reducible apply calWaitLong_keeps | split | exact ‹Kept L s₀ _› | intro
theorem execDroverCalRequest_keeps {why : CalWhy} (pnvs : L .nvs = true) (K : Kept L s₀ s) : OutKept L s₀ (execDroverCalRequest why s) := by
  unfold execDroverCalRequest; try dsimp only
  repeat' first | with_reducible assumption | with_reducible apply next_keeps | with_reducible apply droverRequest_keeps | split | exact ‹Kept L s₀ _› | intro
theorem execPowerupCalibration_keeps {fails : PowerUpFails} {ms : List (Nat × List CalMeas)} (pregs : L .regs = true) (pglb : L .glb = true) (pnvs : L .nvs = true) (ppstate : L .pstate = true) (ppaths : L .paths = true) (pdpd : L .dpd = true) (prad : L .rad = true) (pfhp : L .fhp = true) (pacq : L .acq = true) (pdrc : L .drc = true) (pdma : L .dma = true) (prnd : L .rnd = true) (K : Kept L s₀ s) : OutKept L s₀ (execPowerupCalibration fails ms s) := by
  unfold execPowerupCalibration; try dsimp only
  repeat' first | with_reducible assumption | with_reducible apply next_keeps | with_reducible apply powerUpCal_keeps | split | exact ‹Kept L s₀ _› | intro
theorem execDpdRecordWrite_keeps {p : Fin 64} (pnvs : L .nvs = true) (pdpd : L .dpd = true) (K : Kept L s₀ s) : OutKept L s₀ (execDpdRecordWrite p s) := by
  unfold execDpdRecordWrite; try dsimp only
  repeat' first | with_reducible assumption | with_reducible apply next_keeps | with_reducible apply dpdRecordWrite_keeps | split | exact ‹Kept L s₀ _› | intro

/-! ### Machine/Admit.lean -/

theorem execSlotEffectiveTime_keeps (pregs : L .regs = true) (pskn : L .skn = true) (pfhp : L .fhp = true) (K : Kept L s₀ s) : OutKept L s₀ (execSlotEffectiveTime s) := by
  unfold execSlotEffectiveTime; try dsimp only
  repeat' first | with_reducible assumption | with_reducible apply next_keeps | with_reducible apply slotEffective_keeps | split | exact ‹Kept L s₀ _› | intro
theorem execQueueLimitExpiry_keeps {q : LimitQueue} (pregs : L .regs = true) (pglb : L .glb = true) (pnvs : L .nvs = true) (ppstate : L .pstate = true) (ppaths : L .paths = true) (psyn : L .syn = true) (pdpd : L .dpd = true) (prad : L .rad = true) (pfhp : L .fhp = true) (pacq : L .acq = true) (K : Kept L s₀ s) : OutKept L s₀ (execQueueLimitExpiry q s) := by
  unfold execQueueLimitExpiry; try dsimp only
  repeat' first | with_reducible assumption | with_reducible apply next_keeps | with_reducible apply obsLimit_keeps | with_reducible apply limitPassed_keeps | with_reducible apply armLimit_keeps | split | exact ‹Kept L s₀ _› | intro
theorem execDeferWindowExpiry_keeps (pregs : L .regs = true) (pfhp : L .fhp = true) (K : Kept L s₀ s) : OutKept L s₀ (execDeferWindowExpiry s) := by
  unfold execDeferWindowExpiry; try dsimp only
  repeat' first | with_reducible assumption | with_reducible apply next_keeps | with_reducible apply limitPassed_keeps | split | exact ‹Kept L s₀ _› | intro
theorem execReleaseAll_keeps {w : Word} (pregs : L .regs = true) (pfhp : L .fhp = true) (pcas : L .cas = true) (K : Kept L s₀ s) : OutKept L s₀ (execReleaseAll w s) := by
  unfold execReleaseAll; try dsimp only
  repeat' first | with_reducible assumption | with_reducible apply next_keeps | with_reducible apply flockCtrlWrite_keeps | with_reducible apply hosted_keeps | split | exact ‹Kept L s₀ _› | intro

/-! ### Machine/Signal.lean -/

theorem execCadenceSlip_keeps (pregs : L .regs = true) (pglb : L .glb = true) (pfhp : L .fhp = true) (prnd : L .rnd = true) (K : Kept L s₀ s) : OutKept L s₀ (execCadenceSlip s) := by
  unfold execCadenceSlip; try dsimp only
  repeat' first | with_reducible assumption | with_reducible apply next_keeps | with_reducible apply cadenceSlip_keeps | with_reducible apply draw_keeps | split | (with_reducible refine Kept.pair1 (by assumption) ?_) | (with_reducible refine Kept.pair2 (by assumption) ?_) | exact ‹Kept L s₀ _› | intro

/-! ### Machine/Fhp.lean -/

theorem execIqSectionRx_keeps {k : Fin 8} {q : Fin 2} {pcid : BitVec 16} {body : List Byte} (pregs : L .regs = true) (pglb : L .glb = true) (pfhp : L .fhp = true) (pacq : L .acq = true) (K : Kept L s₀ s) : OutKept L s₀ (execIqSectionRx k q pcid body s) := by
  unfold execIqSectionRx; try dsimp only
  repeat' first | with_reducible assumption | with_reducible apply next_keeps | with_reducible apply iqSection_keeps | split | exact ‹Kept L s₀ _› | intro
theorem execLateSubstitution_keeps {l : Fin 32} (pregs : L .regs = true) (pglb : L .glb = true) (pfhp : L .fhp = true) (pacq : L .acq = true) (K : Kept L s₀ s) : OutKept L s₀ (execLateSubstitution l s) := by
  unfold execLateSubstitution; try dsimp only
  repeat' first | with_reducible assumption | with_reducible apply next_keeps | with_reducible apply lateSubst_keeps | split | exact ‹Kept L s₀ _› | intro
theorem execSectionRelease_keeps (pregs : L .regs = true) (pfhp : L .fhp = true) (pcas : L .cas = true) (K : Kept L s₀ s) : OutKept L s₀ (execSectionRelease s) := by
  unfold execSectionRelease; try dsimp only
  repeat' first | with_reducible assumption | with_reducible apply next_keeps | with_reducible apply sectionRelease_keeps | split | exact ‹Kept L s₀ _› | intro
theorem execUlSectionSend_keeps {l : Fin 32} {start : Nat} {count : Nat} {adc : List (List Cplx)} {m : UlMarks} (pregs : L .regs = true) (pfhp : L .fhp = true) (K : Kept L s₀ s) : OutKept L s₀ (execUlSectionSend l start count adc m s) := by
  unfold execUlSectionSend; try dsimp only
  repeat' first | with_reducible assumption | with_reducible apply next_keeps | with_reducible apply ulSectionSend_keeps | split | exact ‹Kept L s₀ _› | intro
theorem execEcpriDelayMeasurement_keeps {k : Fin 8} {q : Fin 2 × Fin 16} {body : List Byte} (pregs : L .regs = true) (pglb : L .glb = true) (pfhp : L .fhp = true) (ptim : L .tim = true) (pacq : L .acq = true) (K : Kept L s₀ s) : OutKept L s₀ (execEcpriDelayMeasurement k q body s) := by
  unfold execEcpriDelayMeasurement; try dsimp only
  repeat' first | with_reducible assumption | with_reducible apply next_keeps | with_reducible apply measurement_keeps | with_reducible apply flockViol_keeps | split | exact ‹Kept L s₀ _› | intro
theorem ctrlRow_keeps {msg : Nat} {k : Nat} {q : Nat} {tag : BitVec 16} {b : List Byte} (pregs : L .regs = true) (pglb : L .glb = true) (ppstate : L .pstate = true) (pskn : L .skn = true) (prad : L .rad = true) (pfhp : L .fhp = true) (pcas : L .cas = true) (pacq : L .acq = true) (K : Kept L s₀ s) : OutKept L s₀ (ctrlRow msg k q tag b s) := by
  unfold ctrlRow; try dsimp only
  repeat' first | with_reducible assumption | with_reducible apply next_keeps | with_reducible apply ctrlMsg_keeps | split | exact ‹Kept L s₀ _› | intro
theorem execAdmitReq_keeps {k : Fin 8} {q : Fin 2} {tag : BitVec 16} {body : List Byte} (pregs : L .regs = true) (pglb : L .glb = true) (ppstate : L .pstate = true) (pskn : L .skn = true) (prad : L .rad = true) (pfhp : L .fhp = true) (pcas : L .cas = true) (pacq : L .acq = true) (K : Kept L s₀ s) : OutKept L s₀ (execAdmitReq k q tag body s) := by
  unfold execAdmitReq; try dsimp only
  repeat' first | with_reducible assumption | with_reducible apply next_keeps | with_reducible apply ctrlRow_keeps | split | exact ‹Kept L s₀ _› | intro
theorem execReleaseSlots_keeps {k : Fin 8} {q : Fin 2} {tag : BitVec 16} {body : List Byte} (pregs : L .regs = true) (pglb : L .glb = true) (ppstate : L .pstate = true) (pskn : L .skn = true) (prad : L .rad = true) (pfhp : L .fhp = true) (pcas : L .cas = true) (pacq : L .acq = true) (K : Kept L s₀ s) : OutKept L s₀ (execReleaseSlots k q tag body s) := by
  unfold execReleaseSlots; try dsimp only
  repeat' first | with_reducible assumption | with_reducible apply next_keeps | with_reducible apply ctrlRow_keeps | split | exact ‹Kept L s₀ _› | intro
theorem execWithdraw_keeps {k : Fin 8} {q : Fin 2} {tag : BitVec 16} {body : List Byte} (pregs : L .regs = true) (pglb : L .glb = true) (ppstate : L .pstate = true) (pskn : L .skn = true) (prad : L .rad = true) (pfhp : L .fhp = true) (pcas : L .cas = true) (pacq : L .acq = true) (K : Kept L s₀ s) : OutKept L s₀ (execWithdraw k q tag body s) := by
  unfold execWithdraw; try dsimp only
  repeat' first | with_reducible assumption | with_reducible apply next_keeps | with_reducible apply ctrlRow_keeps | split | exact ‹Kept L s₀ _› | intro
theorem execSkeinWrite_keeps {k : Fin 8} {q : Fin 2} {tag : BitVec 16} {body : List Byte} (pregs : L .regs = true) (pglb : L .glb = true) (ppstate : L .pstate = true) (pskn : L .skn = true) (prad : L .rad = true) (pfhp : L .fhp = true) (pcas : L .cas = true) (pacq : L .acq = true) (K : Kept L s₀ s) : OutKept L s₀ (execSkeinWrite k q tag body s) := by
  unfold execSkeinWrite; try dsimp only
  repeat' first | with_reducible assumption | with_reducible apply next_keeps | with_reducible apply ctrlRow_keeps | split | exact ‹Kept L s₀ _› | intro
theorem execSwapReq_keeps {k : Fin 8} {q : Fin 2} {tag : BitVec 16} {body : List Byte} (pregs : L .regs = true) (pglb : L .glb = true) (ppstate : L .pstate = true) (pskn : L .skn = true) (prad : L .rad = true) (pfhp : L .fhp = true) (pcas : L .cas = true) (pacq : L .acq = true) (K : Kept L s₀ s) : OutKept L s₀ (execSwapReq k q tag body s) := by
  unfold execSwapReq; try dsimp only
  repeat' first | with_reducible assumption | with_reducible apply next_keeps | with_reducible apply ctrlRow_keeps | split | exact ‹Kept L s₀ _› | intro
theorem execBurstReq_keeps {k : Fin 8} {q : Fin 2} {tag : BitVec 16} {body : List Byte} (pregs : L .regs = true) (pglb : L .glb = true) (ppstate : L .pstate = true) (pskn : L .skn = true) (prad : L .rad = true) (pfhp : L .fhp = true) (pcas : L .cas = true) (pacq : L .acq = true) (K : Kept L s₀ s) : OutKept L s₀ (execBurstReq k q tag body s) := by
  unfold execBurstReq; try dsimp only
  repeat' first | with_reducible assumption | with_reducible apply next_keeps | with_reducible apply ctrlRow_keeps | split | exact ‹Kept L s₀ _› | intro
theorem execCapsReq_keeps {k : Fin 8} {q : Fin 2} {tag : BitVec 16} {body : List Byte} (pregs : L .regs = true) (pglb : L .glb = true) (ppstate : L .pstate = true) (pskn : L .skn = true) (prad : L .rad = true) (pfhp : L .fhp = true) (pcas : L .cas = true) (pacq : L .acq = true) (K : Kept L s₀ s) : OutKept L s₀ (execCapsReq k q tag body s) := by
  unfold execCapsReq; try dsimp only
  repeat' first | with_reducible assumption | with_reducible apply next_keeps | with_reducible apply ctrlRow_keeps | split | exact ‹Kept L s₀ _› | intro
theorem execFlockQuarantineOn_keeps {k : Fin 8} (pregs : L .regs = true) (pfhp : L .fhp = true) (pacq : L .acq = true) (K : Kept L s₀ s) : OutKept L s₀ (execFlockQuarantineOn k s) := by
  unfold execFlockQuarantineOn; try dsimp only
  repeat' first | with_reducible assumption | with_reducible apply next_keeps | with_reducible apply quarantineOn_keeps | split | exact ‹Kept L s₀ _› | intro
theorem execFlockQuarantineOff_keeps {k : Fin 8} (pregs : L .regs = true) (pfhp : L .fhp = true) (K : Kept L s₀ s) : OutKept L s₀ (execFlockQuarantineOff k s) := by
  unfold execFlockQuarantineOff; try dsimp only
  repeat' first | with_reducible assumption | with_reducible apply next_keeps | with_reducible apply quarantineOff_keeps | split | exact ‹Kept L s₀ _› | intro

/-! ### Machine/Tim.lean -/

theorem ptpRow_keeps {type : Nat} {q : Nat} {fine : Fin 16} {m : List Byte} (ptime : L .time = true) (pregs : L .regs = true) (pglb : L .glb = true) (pnvs : L .nvs = true) (ppstate : L .pstate = true) (ppaths : L .paths = true) (psyn : L .syn = true) (pskn : L .skn = true) (pfft : L .fft = true) (pdpd : L .dpd = true) (prad : L .rad = true) (pfhp : L .fhp = true) (ptim : L .tim = true) (pcas : L .cas = true) (pacq : L .acq = true) (prnd : L .rnd = true) (K : Kept L s₀ s) : OutKept L s₀ (ptpRow type q fine m s) := by
  unfold ptpRow; try dsimp only
  repeat' first | with_reducible assumption | with_reducible apply next_keeps | with_reducible apply ptpRx_keeps | split | exact ‹Kept L s₀ _› | intro
theorem execPtpAnnounceRx_keeps {q : Fin 2} {m : List Byte} (ptime : L .time = true) (pregs : L .regs = true) (pglb : L .glb = true) (pnvs : L .nvs = true) (ppstate : L .pstate = true) (ppaths : L .paths = true) (psyn : L .syn = true) (pskn : L .skn = true) (pfft : L .fft = true) (pdpd : L .dpd = true) (prad : L .rad = true) (pfhp : L .fhp = true) (ptim : L .tim = true) (pcas : L .cas = true) (pacq : L .acq = true) (prnd : L .rnd = true) (K : Kept L s₀ s) : OutKept L s₀ (execPtpAnnounceRx q m s) := by
  unfold execPtpAnnounceRx; try dsimp only
  repeat' first | with_reducible assumption | with_reducible apply next_keeps | with_reducible apply ptpRow_keeps | split | exact ‹Kept L s₀ _› | intro
theorem execPtpSyncRx_keeps {q : Fin 2} {fine : Fin 16} {m : List Byte} (ptime : L .time = true) (pregs : L .regs = true) (pglb : L .glb = true) (pnvs : L .nvs = true) (ppstate : L .pstate = true) (ppaths : L .paths = true) (psyn : L .syn = true) (pskn : L .skn = true) (pfft : L .fft = true) (pdpd : L .dpd = true) (prad : L .rad = true) (pfhp : L .fhp = true) (ptim : L .tim = true) (pcas : L .cas = true) (pacq : L .acq = true) (prnd : L .rnd = true) (K : Kept L s₀ s) : OutKept L s₀ (execPtpSyncRx q fine m s) := by
  unfold execPtpSyncRx; try dsimp only
  repeat' first | with_reducible assumption | with_reducible apply next_keeps | with_reducible apply ptpRow_keeps | split | exact ‹Kept L s₀ _› | intro
theorem execPtpFollowUpRx_keeps {q : Fin 2} {m : List Byte} (ptime : L .time = true) (pregs : L .regs = true) (pglb : L .glb = true) (pnvs : L .nvs = true) (ppstate : L .pstate = true) (ppaths : L .paths = true) (psyn : L .syn = true) (pskn : L .skn = true) (pfft : L .fft = true) (pdpd : L .dpd = true) (prad : L .rad = true) (pfhp : L .fhp = true) (ptim : L .tim = true) (pcas : L .cas = true) (pacq : L .acq = true) (prnd : L .rnd = true) (K : Kept L s₀ s) : OutKept L s₀ (execPtpFollowUpRx q m s) := by
  unfold execPtpFollowUpRx; try dsimp only
  repeat' first | with_reducible assumption | with_reducible apply next_keeps | with_reducible apply ptpRow_keeps | split | exact ‹Kept L s₀ _› | intro
theorem execDelayRespRx_keeps {q : Fin 2} {m : List Byte} (ptime : L .time = true) (pregs : L .regs = true) (pglb : L .glb = true) (pnvs : L .nvs = true) (ppstate : L .pstate = true) (ppaths : L .paths = true) (psyn : L .syn = true) (pskn : L .skn = true) (pfft : L .fft = true) (pdpd : L .dpd = true) (prad : L .rad = true) (pfhp : L .fhp = true) (ptim : L .tim = true) (pcas : L .cas = true) (pacq : L .acq = true) (prnd : L .rnd = true) (K : Kept L s₀ s) : OutKept L s₀ (execDelayRespRx q m s) := by
  unfold execDelayRespRx; try dsimp only
  repeat' first | with_reducible assumption | with_reducible apply next_keeps | with_reducible apply ptpRow_keeps | split | exact ‹Kept L s₀ _› | intro
theorem execDelayReqSend_keeps {q : Fin 2} {fine : Fin 16} (pregs : L .regs = true) (pfhp : L .fhp = true) (ptim : L .tim = true) (K : Kept L s₀ s) : OutKept L s₀ (execDelayReqSend q fine s) := by
  unfold execDelayReqSend; try dsimp only
  repeat' first | with_reducible assumption | with_reducible apply next_keeps | with_reducible apply delayReqSend_keeps | split | exact ‹Kept L s₀ _› | intro
theorem execSyncTimeout_keeps (pregs : L .regs = true) (pglb : L .glb = true) (ppstate : L .pstate = true) (prad : L .rad = true) (pfhp : L .fhp = true) (ptim : L .tim = true) (pcas : L .cas = true) (K : Kept L s₀ s) : OutKept L s₀ (execSyncTimeout s) := by
  unfold execSyncTimeout; try dsimp only
  repeat' first | with_reducible assumption | with_reducible apply next_keeps | with_reducible apply goTime_keeps | split | exact ‹Kept L s₀ _› | intro
theorem execAnnounceTimeout_keeps (pregs : L .regs = true) (pglb : L .glb = true) (ppstate : L .pstate = true) (prad : L .rad = true) (pfhp : L .fhp = true) (ptim : L .tim = true) (pcas : L .cas = true) (K : Kept L s₀ s) : OutKept L s₀ (execAnnounceTimeout s) := by
  unfold execAnnounceTimeout; try dsimp only
  repeat' first | with_reducible assumption | with_reducible apply next_keeps | with_reducible apply announceTimeout_keeps | split | exact ‹Kept L s₀ _› | intro
theorem execHoldSExpiry_keeps (pregs : L .regs = true) (pglb : L .glb = true) (ppstate : L .pstate = true) (prad : L .rad = true) (pfhp : L .fhp = true) (ptim : L .tim = true) (pcas : L .cas = true) (K : Kept L s₀ s) : OutKept L s₀ (execHoldSExpiry s) := by
  unfold execHoldSExpiry; try dsimp only
  repeat' first | with_reducible assumption | with_reducible apply next_keeps | with_reducible apply goTime_keeps | split | exact ‹Kept L s₀ _› | intro
theorem execFollowUpTimeout_keeps {q : Fin 2} {id : BitVec 64} {num : BitVec 16} (pregs : L .regs = true) (pglb : L .glb = true) (ppstate : L .pstate = true) (prad : L .rad = true) (pfhp : L .fhp = true) (ptim : L .tim = true) (pcas : L .cas = true) (K : Kept L s₀ s) : OutKept L s₀ (execFollowUpTimeout q id num s) := by
  unfold execFollowUpTimeout; try dsimp only
  repeat' first | with_reducible assumption | with_reducible apply next_keeps | with_reducible apply followUpTimeout_keeps | split | exact ‹Kept L s₀ _› | intro
theorem execPeerQuarRelease_keeps {q : Fin 2} {id : BitVec 64} {num : BitVec 16} (pregs : L .regs = true) (pglb : L .glb = true) (ppstate : L .pstate = true) (prad : L .rad = true) (pfhp : L .fhp = true) (ptim : L .tim = true) (pcas : L .cas = true) (K : Kept L s₀ s) : OutKept L s₀ (execPeerQuarRelease q id num s) := by
  unfold execPeerQuarRelease; try dsimp only
  repeat' first | with_reducible assumption | with_reducible apply next_keeps | with_reducible apply peerRelease_keeps | split | exact ‹Kept L s₀ _› | intro
theorem execRearm_keeps (pregs : L .regs = true) (pglb : L .glb = true) (ppstate : L .pstate = true) (prad : L .rad = true) (pfhp : L .fhp = true) (ptim : L .tim = true) (pcas : L .cas = true) (K : Kept L s₀ s) : OutKept L s₀ (execRearm s) := by
  unfold execRearm; try dsimp only
  repeat' first | with_reducible assumption | with_reducible apply next_keeps | with_reducible apply rearm_keeps | with_reducible apply hosted_keeps | split | exact ‹Kept L s₀ _› | intro
theorem execSnapshot_keeps (pregs : L .regs = true) (K : Kept L s₀ s) : OutKept L s₀ (execSnapshot s) := by
  unfold execSnapshot; try dsimp only
  repeat' first | with_reducible assumption | with_reducible apply next_keeps | with_reducible apply snapshot_keeps | with_reducible apply hosted_keeps | split | exact ‹Kept L s₀ _› | intro
theorem execTb3Decouple_keeps (ptime : L .time = true) (K : Kept L s₀ s) : OutKept L s₀ (execTb3Decouple s) := by
  unfold execTb3Decouple; try dsimp only
  repeat' first | with_reducible assumption | with_reducible apply next_keeps | with_reducible apply tb3Decouple_keeps | with_reducible apply hosted_keeps | split | exact ‹Kept L s₀ _› | intro
theorem execTb3Recouple_keeps (ptime : L .time = true) (pregs : L .regs = true) (pacq : L .acq = true) (K : Kept L s₀ s) : OutKept L s₀ (execTb3Recouple s) := by
  unfold execTb3Recouple; try dsimp only
  repeat' first | with_reducible assumption | with_reducible apply next_keeps | with_reducible apply tb3Recouple_keeps | with_reducible apply hosted_keeps | split | exact ‹Kept L s₀ _› | intro
theorem execTxtsPop_keeps {q : Fin 2} (ptim : L .tim = true) (K : Kept L s₀ s) : OutKept L s₀ (execTxtsPop q s) := by
  unfold execTxtsPop; try dsimp only
  repeat' first | with_reducible assumption | with_reducible apply next_keeps | with_reducible apply txtsPop_keeps | with_reducible apply hosted_keeps | split | exact ‹Kept L s₀ _› | intro
theorem execClearOvf_keeps {q : Fin 2} (ptim : L .tim = true) (K : Kept L s₀ s) : OutKept L s₀ (execClearOvf q s) := by
  unfold execClearOvf; try dsimp only
  repeat' first | with_reducible assumption | with_reducible apply next_keeps | with_reducible apply txtsClear_keeps | with_reducible apply hosted_keeps | split | exact ‹Kept L s₀ _› | intro
theorem execPpsInEdge_keeps {fine : Fin 16} (pregs : L .regs = true) (K : Kept L s₀ s) : OutKept L s₀ (execPpsInEdge fine s) := by
  unfold execPpsInEdge; try dsimp only
  repeat' first | with_reducible assumption | with_reducible apply next_keeps | with_reducible apply ppsInEdge_keeps | split | exact ‹Kept L s₀ _› | intro
theorem execPpsOut_keeps (ptim : L .tim = true) (K : Kept L s₀ s) : OutKept L s₀ (execPpsOut s) := by
  unfold execPpsOut; try dsimp only
  repeat' first | with_reducible assumption | with_reducible apply next_keeps | with_reducible apply modTim_keeps | split | exact ‹Kept L s₀ _› | intro
theorem execTickOut_keeps (ptim : L .tim = true) (K : Kept L s₀ s) : OutKept L s₀ (execTickOut s) := by
  unfold execTickOut; try dsimp only
  repeat' first | with_reducible assumption | with_reducible apply next_keeps | with_reducible apply modTim_keeps | split | exact ‹Kept L s₀ _› | intro

/-! ### Machine/Syn.lean -/

theorem execRefLost_keeps (pregs : L .regs = true) (pglb : L .glb = true) (ppaths : L .paths = true) (psyn : L .syn = true) (pdpd : L .dpd = true) (pfhp : L .fhp = true) (K : Kept L s₀ s) : OutKept L s₀ (execRefLost s) := by
  unfold execRefLost; try dsimp only
  repeat' first | with_reducible assumption | with_reducible apply next_keeps | with_reducible apply refLost_keeps | with_reducible apply watchRoles_keeps | split | exact ‹Kept L s₀ _› | intro
theorem execStandbyRefCheck_keeps {b : Bool} {ok : Bool} (pregs : L .regs = true) (pglb : L .glb = true) (ppaths : L .paths = true) (psyn : L .syn = true) (pdpd : L .dpd = true) (pfhp : L .fhp = true) (K : Kept L s₀ s) : OutKept L s₀ (execStandbyRefCheck b ok s) := by
  unfold execStandbyRefCheck; try dsimp only
  repeat' first | with_reducible assumption | with_reducible apply next_keeps | with_reducible apply refCheck_keeps | with_reducible apply watchRoles_keeps | split | exact ‹Kept L s₀ _› | intro
theorem execSynRefSelWrite_keeps {w : Word} (pregs : L .regs = true) (pglb : L .glb = true) (ppaths : L .paths = true) (psyn : L .syn = true) (pdpd : L .dpd = true) (pfhp : L .fhp = true) (K : Kept L s₀ s) : OutKept L s₀ (execSynRefSelWrite w s) := by
  unfold execSynRefSelWrite; try dsimp only
  repeat' first | with_reducible assumption | with_reducible apply next_keeps | with_reducible apply refCfgWrite_keeps | with_reducible apply hosted_keeps | split | exact ‹Kept L s₀ _› | intro
theorem execRfUnitFailed_keeps {u : Fin 3} (pregs : L .regs = true) (pglb : L .glb = true) (ppaths : L .paths = true) (psyn : L .syn = true) (pdpd : L .dpd = true) (pfhp : L .fhp = true) (K : Kept L s₀ s) : OutKept L s₀ (execRfUnitFailed u s) := by
  unfold execRfUnitFailed; try dsimp only
  repeat' first | with_reducible assumption | with_reducible apply next_keeps | with_reducible apply unitFailed_keeps | split | exact ‹Kept L s₀ _› | intro
theorem execLossOfLock_keeps {u : Fin 3} (pregs : L .regs = true) (pglb : L .glb = true) (pnvs : L .nvs = true) (ppstate : L .pstate = true) (ppaths : L .paths = true) (psyn : L .syn = true) (pdpd : L .dpd = true) (prad : L .rad = true) (pfhp : L .fhp = true) (pcas : L .cas = true) (K : Kept L s₀ s) : OutKept L s₀ (execLossOfLock u s) := by
  unfold execLossOfLock; try dsimp only
  repeat' first | with_reducible assumption | with_reducible apply next_keeps | with_reducible apply lossOfLock_keeps | split | exact ‹Kept L s₀ _› | intro
theorem execCnvLossOfLock_keeps (pregs : L .regs = true) (pglb : L .glb = true) (pnvs : L .nvs = true) (ppstate : L .pstate = true) (ppaths : L .paths = true) (psyn : L .syn = true) (pdpd : L .dpd = true) (prad : L .rad = true) (pfhp : L .fhp = true) (pcas : L .cas = true) (K : Kept L s₀ s) : OutKept L s₀ (execCnvLossOfLock s) := by
  unfold execCnvLossOfLock; try dsimp only
  repeat' first | with_reducible assumption | with_reducible apply next_keeps | with_reducible apply cnvLost_keeps | split | exact ‹Kept L s₀ _› | intro
theorem execHoldoverExpiry_keeps (pregs : L .regs = true) (pglb : L .glb = true) (pnvs : L .nvs = true) (ppstate : L .pstate = true) (ppaths : L .paths = true) (psyn : L .syn = true) (pdpd : L .dpd = true) (prad : L .rad = true) (pfhp : L .fhp = true) (pcas : L .cas = true) (K : Kept L s₀ s) : OutKept L s₀ (execHoldoverExpiry s) := by
  unfold execHoldoverExpiry; try dsimp only
  repeat' first | with_reducible assumption | with_reducible apply next_keeps | with_reducible apply cnvLost_keeps | split | exact ‹Kept L s₀ _› | intro
theorem execBandSearchStart_keeps {u : Fin 3} (psyn : L .syn = true) (K : Kept L s₀ s) : OutKept L s₀ (execBandSearchStart u s) := by
  unfold execBandSearchStart; try dsimp only
  repeat' first | with_reducible assumption | with_reducible apply next_keeps | with_reducible apply modUnit_keeps | split | exact ‹Kept L s₀ _› | intro
theorem execLoLatched_keeps {x : LatchOf} (pregs : L .regs = true) (pglb : L .glb = true) (ppaths : L .paths = true) (psyn : L .syn = true) (pdpd : L .dpd = true) (pfhp : L .fhp = true) (K : Kept L s₀ s) : OutKept L s₀ (execLoLatched x s) := by
  unfold execLoLatched; try dsimp only
  repeat' first | with_reducible assumption | with_reducible apply next_keeps | with_reducible apply latchLo_keeps | split | exact ‹Kept L s₀ _› | intro
theorem execLockDeclared_keeps {loop : LockLoop} (pregs : L .regs = true) (pglb : L .glb = true) (ppwr : L .pwr = true) (ppaths : L .paths = true) (psyn : L .syn = true) (pdpd : L .dpd = true) (prad : L .rad = true) (pfhp : L .fhp = true) (pcas : L .cas = true) (K : Kept L s₀ s) : OutKept L s₀ (execLockDeclared loop s) := by
  unfold execLockDeclared; try dsimp only
  repeat' first | with_reducible assumption | with_reducible apply next_keeps | with_reducible apply lockDeclared_keeps | split | exact ‹Kept L s₀ _› | intro
theorem execResume_keeps {b : Bool} (psyn : L .syn = true) (K : Kept L s₀ s) : OutKept L s₀ (execResume b s) := by
  unfold execResume; try dsimp only
  repeat' first | with_reducible assumption | with_reducible apply next_keeps | with_reducible apply resumeRole_keeps | with_reducible apply hosted_keeps | split | exact ‹Kept L s₀ _› | intro
theorem execResumeCnv_keeps (psyn : L .syn = true) (K : Kept L s₀ s) : OutKept L s₀ (execResumeCnv s) := by
  unfold execResumeCnv; try dsimp only
  repeat' first | with_reducible assumption | with_reducible apply next_keeps | with_reducible apply resumeCnv_keeps | with_reducible apply hosted_keeps | split | exact ‹Kept L s₀ _› | intro
theorem execVcocal_keeps {b : Bool} {force : Bool} (pregs : L .regs = true) (pglb : L .glb = true) (ppaths : L .paths = true) (psyn : L .syn = true) (pdpd : L .dpd = true) (prad : L .rad = true) (pfhp : L .fhp = true) (pcas : L .cas = true) (K : Kept L s₀ s) : OutKept L s₀ (execVcocal b force s) := by
  unfold execVcocal; try dsimp only
  repeat' first | with_reducible assumption | with_reducible apply next_keeps | with_reducible apply vcocal_keeps | with_reducible apply hosted_keeps | split | exact ‹Kept L s₀ _› | intro
theorem execSwap_keeps {b : Bool} {force : Bool} (pregs : L .regs = true) (pglb : L .glb = true) (ppaths : L .paths = true) (psyn : L .syn = true) (pdpd : L .dpd = true) (prad : L .rad = true) (pfhp : L .fhp = true) (pcas : L .cas = true) (K : Kept L s₀ s) : OutKept L s₀ (execSwap b force s) := by
  unfold execSwap; try dsimp only
  repeat' first | with_reducible assumption | with_reducible apply next_keeps | with_reducible apply swapRole_keeps | with_reducible apply hosted_keeps | split | exact ‹Kept L s₀ _› | intro
theorem execVcoCalGapStart_keeps {r : Fin 2} (pregs : L .regs = true) (pglb : L .glb = true) (ppaths : L .paths = true) (psyn : L .syn = true) (pdpd : L .dpd = true) (prad : L .rad = true) (pfhp : L .fhp = true) (pcas : L .cas = true) (K : Kept L s₀ s) : OutKept L s₀ (execVcoCalGapStart r s) := by
  unfold execVcoCalGapStart; try dsimp only
  repeat' first | with_reducible assumption | with_reducible apply next_keeps | with_reducible apply gapStart_keeps | split | exact ‹Kept L s₀ _› | intro
theorem execVcoCalDone_keeps {u : Fin 3} {band : Option (Fin 64)} (pregs : L .regs = true) (pglb : L .glb = true) (ppaths : L .paths = true) (psyn : L .syn = true) (pdpd : L .dpd = true) (pfhp : L .fhp = true) (K : Kept L s₀ s) : OutKept L s₀ (execVcoCalDone u band s) := by
  unfold execVcoCalDone; try dsimp only
  repeat' first | with_reducible assumption | with_reducible apply next_keeps | with_reducible apply vcoCalDone_keeps | split | exact ‹Kept L s₀ _› | intro
theorem execSynthSwapDone_keeps {r : Fin 2} (pregs : L .regs = true) (pglb : L .glb = true) (pnvs : L .nvs = true) (ppaths : L .paths = true) (psyn : L .syn = true) (pdpd : L .dpd = true) (pfhp : L .fhp = true) (K : Kept L s₀ s) : OutKept L s₀ (execSynthSwapDone r s) := by
  unfold execSynthSwapDone; try dsimp only
  repeat' first | with_reducible assumption | with_reducible apply next_keeps | with_reducible apply swapDone_keeps | split | exact ‹Kept L s₀ _› | intro
theorem execReserveProving_keeps {ok : Bool} {bandA : Fin 64} {bandB : Fin 64} (pregs : L .regs = true) (pnvs : L .nvs = true) (psyn : L .syn = true) (K : Kept L s₀ s) : OutKept L s₀ (execReserveProving ok bandA bandB s) := by
  unfold execReserveProving; try dsimp only
  repeat' first | with_reducible assumption | with_reducible apply next_keeps | with_reducible apply reserveProving_keeps | split | exact ‹Kept L s₀ _› | intro
theorem execSynCalWaitLong_keeps {r : Fin 2} (pregs : L .regs = true) (psyn : L .syn = true) (K : Kept L s₀ s) : OutKept L s₀ (execSynCalWaitLong r s) := by
  unfold execSynCalWaitLong; try dsimp only
  repeat' first | with_reducible assumption | with_reducible apply next_keeps | with_reducible apply raise_keeps | with_reducible apply modRole_keeps | split | exact ‹Kept L s₀ _› | intro
theorem execTuningVoltageLimit_keeps {u : Fin 3} {v : Int} {everyBand : Bool} (pregs : L .regs = true) (pglb : L .glb = true) (ppaths : L .paths = true) (psyn : L .syn = true) (pdpd : L .dpd = true) (prad : L .rad = true) (pfhp : L .fhp = true) (pcas : L .cas = true) (K : Kept L s₀ s) : OutKept L s₀ (execTuningVoltageLimit u v everyBand s) := by
  unfold execTuningVoltageLimit; try dsimp only
  repeat' first | with_reducible assumption | with_reducible apply next_keeps | with_reducible apply tuningLimit_keeps | split | exact ‹Kept L s₀ _› | intro
theorem execSynPhaseWrite_keeps {f : Fin 8} {w : Word} (pregs : L .regs = true) (psyn : L .syn = true) (K : Kept L s₀ s) : OutKept L s₀ (execSynPhaseWrite f w s) := by
  unfold execSynPhaseWrite; try dsimp only
  repeat' first | with_reducible assumption | with_reducible apply next_keeps | with_reducible apply phaseWrite_keeps | with_reducible apply hosted_keeps | split | exact ‹Kept L s₀ _› | intro

/-! ### Machine/Lne.lean -/

theorem execCdrLoss_keeps {n : Fin 29} {long : Bool} (pregs : L .regs = true) (pglb : L .glb = true) (plne : L .lne = true) (pcas : L .cas = true) (K : Kept L s₀ s) : OutKept L s₀ (execCdrLoss n long s) := by
  unfold execCdrLoss; try dsimp only
  repeat' first | with_reducible assumption | with_reducible apply next_keeps | with_reducible apply cdrLoss_keeps | split | exact ‹Kept L s₀ _› | intro
theorem execSwapLane_keeps {n : Fin 29} (pregs : L .regs = true) (pglb : L .glb = true) (plne : L .lne = true) (pcas : L .cas = true) (K : Kept L s₀ s) : OutKept L s₀ (execSwapLane n s) := by
  unfold execSwapLane; try dsimp only
  repeat' first | with_reducible assumption | with_reducible apply next_keeps | with_reducible apply swapLane_keeps | with_reducible apply hosted_keeps | split | exact ‹Kept L s₀ _› | intro
theorem execPortStepTimeout_keeps {q : Fin 5} {step : Fin 8 × Fin 8} (pregs : L .regs = true) (pglb : L .glb = true) (pnvs : L .nvs = true) (plne : L .lne = true) (pcas : L .cas = true) (K : Kept L s₀ s) : OutKept L s₀ (execPortStepTimeout q step s) := by
  unfold execPortStepTimeout; try dsimp only
  repeat' first | with_reducible assumption | with_reducible apply next_keeps | with_reducible apply stepTimeout_keeps | split | exact ‹Kept L s₀ _› | intro
theorem execPortL0_keeps {q : Fin 5} {found : List LaneFound} (pregs : L .regs = true) (pglb : L .glb = true) (pnvs : L .nvs = true) (plne : L .lne = true) (pfhp : L .fhp = true) (ptim : L .tim = true) (pcas : L .cas = true) (K : Kept L s₀ s) : OutKept L s₀ (execPortL0 q found s) := by
  unfold execPortL0; try dsimp only
  repeat' first | with_reducible assumption | with_reducible apply next_keeps | with_reducible apply portL0_keeps | split | exact ‹Kept L s₀ _› | intro
theorem execSuspectLane_keeps {n : Fin 29 × Bool} (pregs : L .regs = true) (pglb : L .glb = true) (pnvs : L .nvs = true) (plne : L .lne = true) (pcas : L .cas = true) (K : Kept L s₀ s) : OutKept L s₀ (execSuspectLane n s) := by
  unfold execSuspectLane; try dsimp only
  repeat' first | with_reducible assumption | with_reducible apply next_keeps | with_reducible apply suspectLane_keeps | split | exact ‹Kept L s₀ _› | intro
theorem execPortBringupRestart_keeps {q : Fin 5} (pregs : L .regs = true) (pglb : L .glb = true) (plne : L .lne = true) (pcas : L .cas = true) (K : Kept L s₀ s) : OutKept L s₀ (execPortBringupRestart q s) := by
  unfold execPortBringupRestart; try dsimp only
  repeat' first | with_reducible assumption | with_reducible apply next_keeps | with_reducible apply bringUpStart_keeps | split | exact ‹Kept L s₀ _› | intro
theorem execLaneSwapDone_keeps {q : Fin 5} {found : List LaneFound} (pregs : L .regs = true) (pglb : L .glb = true) (pnvs : L .nvs = true) (plne : L .lne = true) (pfhp : L .fhp = true) (ptim : L .tim = true) (pcas : L .cas = true) (K : Kept L s₀ s) : OutKept L s₀ (execLaneSwapDone q found s) := by
  unfold execLaneSwapDone; try dsimp only
  repeat' first | with_reducible assumption | with_reducible apply next_keeps | with_reducible apply laneSwapDone_keeps | split | exact ‹Kept L s₀ _› | intro
theorem execLaneLoopbackDone_keeps {q : Fin 5} {pass : Bool} (pnvs : L .nvs = true) (plne : L .lne = true) (K : Kept L s₀ s) : OutKept L s₀ (execLaneLoopbackDone q pass s) := by
  unfold execLaneLoopbackDone; try dsimp only
  repeat' first | with_reducible assumption | with_reducible apply next_keeps | with_reducible apply loopbackDone_keeps | split | exact ‹Kept L s₀ _› | intro
theorem execPortRetryTimer_keeps {q : Fin 5} (pregs : L .regs = true) (pglb : L .glb = true) (plne : L .lne = true) (pcas : L .cas = true) (K : Kept L s₀ s) : OutKept L s₀ (execPortRetryTimer q s) := by
  unfold execPortRetryTimer; try dsimp only
  repeat' first | with_reducible assumption | with_reducible apply next_keeps | with_reducible apply bringUp_keeps | split | exact ‹Kept L s₀ _› | intro
theorem execFoldReserveDiscovery_keeps {i : Fin 2} {w : WiredTo} (pregs : L .regs = true) (pglb : L .glb = true) (plne : L .lne = true) (pcas : L .cas = true) (K : Kept L s₀ s) : OutKept L s₀ (execFoldReserveDiscovery i w s) := by
  unfold execFoldReserveDiscovery; try dsimp only
  repeat' first | with_reducible assumption | with_reducible apply next_keeps | with_reducible apply discovery_keeps | split | exact ‹Kept L s₀ _› | intro
theorem execLaneErrorWindow_keeps {ls : List LaneErrors} {ps : List PortErrors} (pregs : L .regs = true) (pglb : L .glb = true) (plne : L .lne = true) (pcas : L .cas = true) (K : Kept L s₀ s) : OutKept L s₀ (execLaneErrorWindow ls ps s) := by
  unfold execLaneErrorWindow; try dsimp only
  repeat' first | with_reducible assumption | with_reducible apply next_keeps | with_reducible apply portSecond_keeps | with_reducible apply laneSecond_keeps | with_reducible apply forAll_keeps | split | exact ‹Kept L s₀ _› | intro
theorem execQuarRelease_keeps {q : Fin 5} (pregs : L .regs = true) (plne : L .lne = true) (pfhp : L .fhp = true) (K : Kept L s₀ s) : OutKept L s₀ (execQuarRelease q s) := by
  unfold execQuarRelease; try dsimp only
  repeat' first | with_reducible assumption | with_reducible apply next_keeps | with_reducible apply quarRelease_keeps | split | exact ‹Kept L s₀ _› | intro
theorem execLnePortState_keeps {q : Fin 5} {st : Fin 4} (pregs : L .regs = true) (pglb : L .glb = true) (plne : L .lne = true) (pcas : L .cas = true) (K : Kept L s₀ s) : OutKept L s₀ (execLnePortState q st s) := by
  unfold execLnePortState; try dsimp only
  repeat' first | with_reducible assumption | with_reducible apply next_keeps | with_reducible apply portState_keeps | with_reducible apply hosted_keeps | split | exact ‹Kept L s₀ _› | intro
theorem execHold_keeps {q : Fin 5} (pregs : L .regs = true) (plne : L .lne = true) (K : Kept L s₀ s) : OutKept L s₀ (execHold q s) := by
  unfold execHold; try dsimp only
  repeat' first | with_reducible assumption | with_reducible apply next_keeps | with_reducible apply holdPort_keeps | with_reducible apply hosted_keeps | split | exact ‹Kept L s₀ _› | intro
theorem execHoldClear_keeps {q : Fin 5} (pregs : L .regs = true) (plne : L .lne = true) (pfhp : L .fhp = true) (K : Kept L s₀ s) : OutKept L s₀ (execHoldClear q s) := by
  unfold execHoldClear; try dsimp only
  repeat' first | with_reducible assumption | with_reducible apply next_keeps | with_reducible apply holdClear_keeps | with_reducible apply hosted_keeps | split | exact ‹Kept L s₀ _› | intro
theorem execRetrain_keeps {q : Fin 5} (pregs : L .regs = true) (pglb : L .glb = true) (plne : L .lne = true) (pcas : L .cas = true) (K : Kept L s₀ s) : OutKept L s₀ (execRetrain q s) := by
  unfold execRetrain; try dsimp only
  repeat' first | with_reducible assumption | with_reducible apply next_keeps | with_reducible apply retrain_keeps | with_reducible apply hosted_keeps | split | exact ‹Kept L s₀ _› | intro
theorem execLneTxEqWrite_keeps {n : Fin 29} {w : Word} (pregs : L .regs = true) (plne : L .lne = true) (K : Kept L s₀ s) : OutKept L s₀ (execLneTxEqWrite n w s) := by
  unfold execLneTxEqWrite; try dsimp only
  repeat' first | with_reducible assumption | with_reducible apply next_keeps | with_reducible apply txEqWrite_keeps | with_reducible apply hosted_keeps | split | exact ‹Kept L s₀ _› | intro
theorem execLneTestCtrlWrite_keeps {n : Fin 29} {w : Word} (pregs : L .regs = true) (pglb : L .glb = true) (plne : L .lne = true) (K : Kept L s₀ s) : OutKept L s₀ (execLneTestCtrlWrite n w s) := by
  unfold execLneTestCtrlWrite; try dsimp only
  repeat' first | with_reducible assumption | with_reducible apply next_keeps | with_reducible apply testWrite_keeps | with_reducible apply hosted_keeps | split | exact ‹Kept L s₀ _› | intro

/-! ### Machine/Wrp.lean -/

theorem execWeaverJobStart_keeps (pregs : L .regs = true) (pnvs : L .nvs = true) (pwrp : L .wrp = true) (K : Kept L s₀ s) : OutKept L s₀ (execWeaverJobStart s) := by
  unfold execWeaverJobStart; try dsimp only
  repeat' first | with_reducible assumption | with_reducible apply next_keeps | with_reducible apply weaverStart_keeps | split | exact ‹Kept L s₀ _› | intro
theorem execSpindleSelfTestFail_keeps {i : Fin 576} (pregs : L .regs = true) (pnvs : L .nvs = true) (pwrp : L .wrp = true) (K : Kept L s₀ s) : OutKept L s₀ (execSpindleSelfTestFail i s) := by
  unfold execSpindleSelfTestFail; try dsimp only
  repeat' first | with_reducible assumption | with_reducible apply next_keeps | with_reducible apply spindleSelfTestFail_keeps | split | exact ‹Kept L s₀ _› | intro
theorem execTestVectorFail_keeps {i : Fin 576} {layers : List (Bool × Fin 32)} (pregs : L .regs = true) (pnvs : L .nvs = true) (pwrp : L .wrp = true) (K : Kept L s₀ s) : OutKept L s₀ (execTestVectorFail i layers s) := by
  unfold execTestVectorFail; try dsimp only
  repeat' first | with_reducible assumption | with_reducible apply next_keeps | with_reducible apply testVectorFail_keeps | split | exact ‹Kept L s₀ _› | intro
theorem execShadowCompareDone_keeps {matched : Bool} (pregs : L .regs = true) (pnvs : L .nvs = true) (pwrp : L .wrp = true) (K : Kept L s₀ s) : OutKept L s₀ (execShadowCompareDone matched s) := by
  unfold execShadowCompareDone; try dsimp only
  repeat' first | with_reducible assumption | with_reducible apply next_keeps | with_reducible apply shadowCompareDone_keeps | split | exact ‹Kept L s₀ _› | intro
theorem execReserveHandover_keeps (pregs : L .regs = true) (pglb : L .glb = true) (pnvs : L .nvs = true) (pwrp : L .wrp = true) (K : Kept L s₀ s) : OutKept L s₀ (execReserveHandover s) := by
  unfold execReserveHandover; try dsimp only
  repeat' first | with_reducible assumption | with_reducible apply next_keeps | with_reducible apply reserveHandover_keeps | split | exact ‹Kept L s₀ _› | intro
theorem execFallbackConversion_keeps (pregs : L .regs = true) (pwrp : L .wrp = true) (pskn : L .skn = true) (pfhp : L .fhp = true) (K : Kept L s₀ s) : OutKept L s₀ (execFallbackConversion s) := by
  unfold execFallbackConversion; try dsimp only
  repeat' first | with_reducible assumption | with_reducible apply next_keeps | with_reducible apply fallbackConversion_keeps | split | exact ‹Kept L s₀ _› | intro
theorem execWrpDataWrite_keeps {w : Word} (pregs : L .regs = true) (pglb : L .glb = true) (pwrp : L .wrp = true) (K : Kept L s₀ s) : OutKept L s₀ (execWrpDataWrite w s) := by
  unfold execWrpDataWrite; try dsimp only
  repeat' first | with_reducible assumption | with_reducible apply next_keeps | with_reducible apply wrpData_keeps | with_reducible apply hosted_keeps | split | exact ‹Kept L s₀ _› | intro
theorem execWrpLoad_keeps (pregs : L .regs = true) (pnvs : L .nvs = true) (pwrp : L .wrp = true) (pcas : L .cas = true) (K : Kept L s₀ s) : OutKept L s₀ (execWrpLoad s) := by
  unfold execWrpLoad; try dsimp only
  repeat' first | with_reducible assumption | with_reducible apply next_keeps | with_reducible apply wrpLoad_keeps | with_reducible apply hosted_keeps | split | exact ‹Kept L s₀ _› | intro
theorem execWrpAbort_keeps (pregs : L .regs = true) (pwrp : L .wrp = true) (pcas : L .cas = true) (K : Kept L s₀ s) : OutKept L s₀ (execWrpAbort s) := by
  unfold execWrpAbort; try dsimp only
  repeat' first | with_reducible assumption | with_reducible apply next_keeps | with_reducible apply wrpAbort_keeps | with_reducible apply hosted_keeps | split | exact ‹Kept L s₀ _› | intro
theorem execWrpClear_keeps (pwrp : L .wrp = true) (K : Kept L s₀ s) : OutKept L s₀ (execWrpClear s) := by
  unfold execWrpClear; try dsimp only
  repeat' first | with_reducible assumption | with_reducible apply next_keeps | with_reducible apply wrpClear_keeps | with_reducible apply hosted_keeps | split | exact ‹Kept L s₀ _› | intro
theorem execQspiWarpLoad_keeps (pregs : L .regs = true) (pnvs : L .nvs = true) (pwrp : L .wrp = true) (pcas : L .cas = true) (K : Kept L s₀ s) : OutKept L s₀ (execQspiWarpLoad s) := by
  unfold execQspiWarpLoad; try dsimp only
  repeat' first | with_reducible assumption | with_reducible apply next_keeps | with_reducible apply qspiWarpLoad_keeps | split | exact ‹Kept L s₀ _› | intro
theorem execSpindlesLoaded_keeps (pregs : L .regs = true) (pglb : L .glb = true) (pnvs : L .nvs = true) (ppstate : L .pstate = true) (pwrp : L .wrp = true) (ppaths : L .paths = true) (psyn : L .syn = true) (pskn : L .skn = true) (pdpd : L .dpd = true) (prad : L .rad = true) (plne : L .lne = true) (pfhp : L .fhp = true) (ptim : L .tim = true) (pcas : L .cas = true) (pacq : L .acq = true) (pmon : L .mon = true) (pdrc : L .drc = true) (pdma : L .dma = true) (pbda : L .bda = true) (prnd : L .rnd = true) (K : Kept L s₀ s) : OutKept L s₀ (execSpindlesLoaded s) := by
  unfold execSpindlesLoaded; try dsimp only
  repeat' first | with_reducible assumption | with_reducible apply next_keeps | with_reducible apply spindlesLoaded_keeps | split | exact ‹Kept L s₀ _› | intro
theorem execReweaveSwitch_keeps (pregs : L .regs = true) (pglb : L .glb = true) (ppstate : L .pstate = true) (pwrp : L .wrp = true) (ppaths : L .paths = true) (psyn : L .syn = true) (pskn : L .skn = true) (pdpd : L .dpd = true) (prad : L .rad = true) (pfhp : L .fhp = true) (pcas : L .cas = true) (K : Kept L s₀ s) : OutKept L s₀ (execReweaveSwitch s) := by
  unfold execReweaveSwitch; try dsimp only
  repeat' first | with_reducible assumption | with_reducible apply next_keeps | with_reducible apply reweaveSwitch_keeps | split | exact ‹Kept L s₀ _› | intro

/-! ### Machine/Level.lean -/

theorem execVtrimStepDown_keeps (pregs : L .regs = true) (ppwr : L .pwr = true) (K : Kept L s₀ s) : OutKept L s₀ (execVtrimStepDown s) := by
  unfold execVtrimStepDown; try dsimp only
  repeat' first | with_reducible assumption | with_reducible apply next_keeps | with_reducible apply trimDown_keeps | split | exact ‹Kept L s₀ _› | intro
theorem execLevelChangePoint_keeps (pregs : L .regs = true) (pglb : L .glb = true) (ppwr : L .pwr = true) (pskn : L .skn = true) (pdpd : L .dpd = true) (pfhp : L .fhp = true) (pacq : L .acq = true) (pdrc : L .drc = true) (pdma : L .dma = true) (prnd : L .rnd = true) (K : Kept L s₀ s) : OutKept L s₀ (execLevelChangePoint s) := by
  unfold execLevelChangePoint; try dsimp only
  repeat' first | with_reducible assumption | with_reducible apply next_keeps | with_reducible apply levelPoint_keeps | split | exact ‹Kept L s₀ _› | intro
theorem execPwrLevelReq_keeps {l : BitVec 2} (pregs : L .regs = true) (pglb : L .glb = true) (ppwr : L .pwr = true) (pcas : L .cas = true) (K : Kept L s₀ s) : OutKept L s₀ (execPwrLevelReq l s) := by
  unfold execPwrLevelReq; try dsimp only
  repeat' first | with_reducible assumption | with_reducible apply next_keeps | with_reducible apply levelReqWrite_keeps | with_reducible apply hosted_keeps | split | exact ‹Kept L s₀ _› | intro
theorem execCadenceReport_keeps {r : List (Bool × Option Int)} (pregs : L .regs = true) (pglb : L .glb = true) (ppwr : L .pwr = true) (K : Kept L s₀ s) : OutKept L s₀ (execCadenceReport r s) := by
  unfold execCadenceReport; try dsimp only
  repeat' first | with_reducible assumption | with_reducible apply next_keeps | with_reducible apply cadenceReport_keeps | split | exact ‹Kept L s₀ _› | intro

/-! ### Machine/Sleep.lean -/

theorem execSleepStepDone_keeps {late : Bool} (ppins : L .pins = true) (ptime : L .time = true) (pregs : L .regs = true) (pglb : L .glb = true) (pnvs : L .nvs = true) (ppwr : L .pwr = true) (ppstate : L .pstate = true) (pwrp : L .wrp = true) (ppaths : L .paths = true) (psyn : L .syn = true) (pskn : L .skn = true) (pfft : L .fft = true) (pdpd : L .dpd = true) (prad : L .rad = true) (plne : L .lne = true) (pfhp : L .fhp = true) (ptim : L .tim = true) (pcas : L .cas = true) (pacq : L .acq = true) (pmon : L .mon = true) (pdrc : L .drc = true) (pdma : L .dma = true) (phka : L .hka = true) (pbda : L .bda = true) (pthm : L .thm = true) (prnd : L .rnd = true) (K : Kept L s₀ s) : OutKept L s₀ (execSleepStepDone late s) := by
  unfold execSleepStepDone; try dsimp only
  repeat' first | with_reducible assumption | with_reducible apply next_keeps | with_reducible apply sleepStepDone_keeps | split | exact ‹Kept L s₀ _› | intro
theorem execPwrStateReqDoze_keeps (ppins : L .pins = true) (ptime : L .time = true) (pregs : L .regs = true) (pglb : L .glb = true) (pnvs : L .nvs = true) (ppwr : L .pwr = true) (ppstate : L .pstate = true) (pwrp : L .wrp = true) (ppaths : L .paths = true) (psyn : L .syn = true) (pskn : L .skn = true) (pfft : L .fft = true) (pdpd : L .dpd = true) (prad : L .rad = true) (plne : L .lne = true) (pfhp : L .fhp = true) (ptim : L .tim = true) (pcas : L .cas = true) (pacq : L .acq = true) (pmon : L .mon = true) (pdrc : L .drc = true) (pdma : L .dma = true) (phka : L .hka = true) (pbda : L .bda = true) (pthm : L .thm = true) (prnd : L .rnd = true) (K : Kept L s₀ s) : OutKept L s₀ (execPwrStateReqDoze s) := by
  unfold execPwrStateReqDoze; try dsimp only
  repeat' first | with_reducible assumption | with_reducible apply next_keeps | with_reducible apply stateRequest_keeps | with_reducible apply hosted_keeps | split | exact ‹Kept L s₀ _› | intro
theorem execPwrStateReqSentinel_keeps (ppins : L .pins = true) (ptime : L .time = true) (pregs : L .regs = true) (pglb : L .glb = true) (pnvs : L .nvs = true) (ppwr : L .pwr = true) (ppstate : L .pstate = true) (pwrp : L .wrp = true) (ppaths : L .paths = true) (psyn : L .syn = true) (pskn : L .skn = true) (pfft : L .fft = true) (pdpd : L .dpd = true) (prad : L .rad = true) (plne : L .lne = true) (pfhp : L .fhp = true) (ptim : L .tim = true) (pcas : L .cas = true) (pacq : L .acq = true) (pmon : L .mon = true) (pdrc : L .drc = true) (pdma : L .dma = true) (phka : L .hka = true) (pbda : L .bda = true) (pthm : L .thm = true) (prnd : L .rnd = true) (K : Kept L s₀ s) : OutKept L s₀ (execPwrStateReqSentinel s) := by
  unfold execPwrStateReqSentinel; try dsimp only
  repeat' first | with_reducible assumption | with_reducible apply next_keeps | with_reducible apply stateRequest_keeps | with_reducible apply hosted_keeps | split | exact ‹Kept L s₀ _› | intro
theorem execGotoSafe_keeps (ppins : L .pins = true) (ptime : L .time = true) (pregs : L .regs = true) (pglb : L .glb = true) (pnvs : L .nvs = true) (ppwr : L .pwr = true) (ppstate : L .pstate = true) (pwrp : L .wrp = true) (ppaths : L .paths = true) (psyn : L .syn = true) (pskn : L .skn = true) (pfft : L .fft = true) (pdpd : L .dpd = true) (prad : L .rad = true) (plne : L .lne = true) (pfhp : L .fhp = true) (ptim : L .tim = true) (pcas : L .cas = true) (pacq : L .acq = true) (pmon : L .mon = true) (pdrc : L .drc = true) (pdma : L .dma = true) (phka : L .hka = true) (pbda : L .bda = true) (pthm : L .thm = true) (prnd : L .rnd = true) (K : Kept L s₀ s) : OutKept L s₀ (execGotoSafe s) := by
  unfold execGotoSafe; try dsimp only
  repeat' first | with_reducible assumption | with_reducible apply next_keeps | with_reducible apply stateRequest_keeps | with_reducible apply hosted_keeps | split | exact ‹Kept L s₀ _› | intro
theorem execAutoDoze_keeps (ppins : L .pins = true) (ptime : L .time = true) (pregs : L .regs = true) (pglb : L .glb = true) (pnvs : L .nvs = true) (ppwr : L .pwr = true) (ppstate : L .pstate = true) (pwrp : L .wrp = true) (ppaths : L .paths = true) (psyn : L .syn = true) (pskn : L .skn = true) (pfft : L .fft = true) (pdpd : L .dpd = true) (prad : L .rad = true) (plne : L .lne = true) (pfhp : L .fhp = true) (ptim : L .tim = true) (pcas : L .cas = true) (pacq : L .acq = true) (pmon : L .mon = true) (pdrc : L .drc = true) (pdma : L .dma = true) (phka : L .hka = true) (pbda : L .bda = true) (pthm : L .thm = true) (prnd : L .rnd = true) (K : Kept L s₀ s) : OutKept L s₀ (execAutoDoze s) := by
  unfold execAutoDoze; try dsimp only
  repeat' first | with_reducible assumption | with_reducible apply next_keeps | with_reducible apply autoDoze_keeps | split | exact ‹Kept L s₀ _› | intro
theorem execDozeExitDone_keeps {mr4 : Option (Fin 8)} {drift : Int} (pregs : L .regs = true) (pglb : L .glb = true) (ppwr : L .pwr = true) (ppstate : L .pstate = true) (ppaths : L .paths = true) (psyn : L .syn = true) (pdpd : L .dpd = true) (prad : L .rad = true) (plne : L .lne = true) (pfhp : L .fhp = true) (ptim : L .tim = true) (pcas : L .cas = true) (pmon : L .mon = true) (pdrc : L .drc = true) (K : Kept L s₀ s) : OutKept L s₀ (execDozeExitDone mr4 drift s) := by
  unfold execDozeExitDone; try dsimp only
  repeat' first | with_reducible assumption | with_reducible apply next_keeps | with_reducible apply dozeExitDone_keeps | split | exact ‹Kept L s₀ _› | intro
theorem execShielingFrame_keeps {site : BitVec 24} {cmd : BitVec 8} {crc : BitVec 8} (ppins : L .pins = true) (ptime : L .time = true) (pregs : L .regs = true) (pglb : L .glb = true) (pnvs : L .nvs = true) (ppwr : L .pwr = true) (ppstate : L .pstate = true) (pwrp : L .wrp = true) (ppaths : L .paths = true) (psyn : L .syn = true) (pskn : L .skn = true) (pfft : L .fft = true) (pdpd : L .dpd = true) (prad : L .rad = true) (plne : L .lne = true) (pfhp : L .fhp = true) (ptim : L .tim = true) (pcas : L .cas = true) (pacq : L .acq = true) (pmon : L .mon = true) (pdrc : L .drc = true) (pdma : L .dma = true) (phka : L .hka = true) (pbda : L .bda = true) (pthm : L .thm = true) (prnd : L .rnd = true) (K : Kept L s₀ s) : OutKept L s₀ (execShielingFrame site cmd crc s) := by
  unfold execShielingFrame; try dsimp only
  repeat' first | with_reducible assumption | with_reducible apply next_keeps | with_reducible apply shieling_keeps | split | exact ‹Kept L s₀ _› | intro
theorem execWakeNLow_keeps (ppins : L .pins = true) (ptime : L .time = true) (pregs : L .regs = true) (pglb : L .glb = true) (pnvs : L .nvs = true) (ppwr : L .pwr = true) (ppstate : L .pstate = true) (pwrp : L .wrp = true) (ppaths : L .paths = true) (psyn : L .syn = true) (pskn : L .skn = true) (pfft : L .fft = true) (pdpd : L .dpd = true) (prad : L .rad = true) (plne : L .lne = true) (pfhp : L .fhp = true) (ptim : L .tim = true) (pcas : L .cas = true) (pacq : L .acq = true) (pmon : L .mon = true) (pdrc : L .drc = true) (pdma : L .dma = true) (phka : L .hka = true) (pbda : L .bda = true) (pthm : L .thm = true) (prnd : L .rnd = true) (K : Kept L s₀ s) : OutKept L s₀ (execWakeNLow s) := by
  unfold execWakeNLow; try dsimp only
  repeat' first | with_reducible assumption | with_reducible apply next_keeps | with_reducible apply wake_keeps | split | exact ‹Kept L s₀ _› | intro
theorem execAonTimerAlarm_keeps (ppins : L .pins = true) (ptime : L .time = true) (pregs : L .regs = true) (pglb : L .glb = true) (pnvs : L .nvs = true) (ppwr : L .pwr = true) (ppstate : L .pstate = true) (pwrp : L .wrp = true) (ppaths : L .paths = true) (psyn : L .syn = true) (pskn : L .skn = true) (pfft : L .fft = true) (pdpd : L .dpd = true) (prad : L .rad = true) (plne : L .lne = true) (pfhp : L .fhp = true) (ptim : L .tim = true) (pcas : L .cas = true) (pacq : L .acq = true) (pmon : L .mon = true) (pdrc : L .drc = true) (pdma : L .dma = true) (phka : L .hka = true) (pbda : L .bda = true) (pthm : L .thm = true) (prnd : L .rnd = true) (K : Kept L s₀ s) : OutKept L s₀ (execAonTimerAlarm s) := by
  unfold execAonTimerAlarm; try dsimp only
  repeat' first | with_reducible assumption | with_reducible apply next_keeps | with_reducible apply wake_keeps | split | exact ‹Kept L s₀ _› | intro
theorem execSpiChipSelectWake_keeps (ppins : L .pins = true) (ptime : L .time = true) (pregs : L .regs = true) (pglb : L .glb = true) (pnvs : L .nvs = true) (ppwr : L .pwr = true) (ppstate : L .pstate = true) (pwrp : L .wrp = true) (ppaths : L .paths = true) (psyn : L .syn = true) (pskn : L .skn = true) (pfft : L .fft = true) (pdpd : L .dpd = true) (prad : L .rad = true) (plne : L .lne = true) (pfhp : L .fhp = true) (ptim : L .tim = true) (pcas : L .cas = true) (pacq : L .acq = true) (pmon : L .mon = true) (pdrc : L .drc = true) (pdma : L .dma = true) (phka : L .hka = true) (pbda : L .bda = true) (pthm : L .thm = true) (prnd : L .rnd = true) (K : Kept L s₀ s) : OutKept L s₀ (execSpiChipSelectWake s) := by
  unfold execSpiChipSelectWake; try dsimp only
  repeat' first | with_reducible assumption | with_reducible apply next_keeps | with_reducible apply wake_keeps | split | exact ‹Kept L s₀ _› | intro
theorem execFronthaulSignalDetect_keeps {q : Fin 2} (ppins : L .pins = true) (ptime : L .time = true) (pregs : L .regs = true) (pglb : L .glb = true) (pnvs : L .nvs = true) (ppwr : L .pwr = true) (ppstate : L .pstate = true) (pwrp : L .wrp = true) (ppaths : L .paths = true) (psyn : L .syn = true) (pskn : L .skn = true) (pfft : L .fft = true) (pdpd : L .dpd = true) (prad : L .rad = true) (plne : L .lne = true) (pfhp : L .fhp = true) (ptim : L .tim = true) (pcas : L .cas = true) (pacq : L .acq = true) (pmon : L .mon = true) (pdrc : L .drc = true) (pdma : L .dma = true) (phka : L .hka = true) (pbda : L .bda = true) (pthm : L .thm = true) (prnd : L .rnd = true) (K : Kept L s₀ s) : OutKept L s₀ (execFronthaulSignalDetect q s) := by
  unfold execFronthaulSignalDetect; try dsimp only
  repeat' first | with_reducible assumption | with_reducible apply next_keeps | with_reducible apply wake_keeps | with_reducible apply modLane_keeps | split | exact ‹Kept L s₀ _› | intro
theorem execThermalWakeCrossing_keeps (ppins : L .pins = true) (ptime : L .time = true) (pregs : L .regs = true) (pglb : L .glb = true) (pnvs : L .nvs = true) (ppwr : L .pwr = true) (ppstate : L .pstate = true) (pwrp : L .wrp = true) (ppaths : L .paths = true) (psyn : L .syn = true) (pskn : L .skn = true) (pfft : L .fft = true) (pdpd : L .dpd = true) (prad : L .rad = true) (plne : L .lne = true) (pfhp : L .fhp = true) (ptim : L .tim = true) (pcas : L .cas = true) (pacq : L .acq = true) (pmon : L .mon = true) (pdrc : L .drc = true) (pdma : L .dma = true) (phka : L .hka = true) (pbda : L .bda = true) (pthm : L .thm = true) (prnd : L .rnd = true) (K : Kept L s₀ s) : OutKept L s₀ (execThermalWakeCrossing s) := by
  unfold execThermalWakeCrossing; try dsimp only
  repeat' first | with_reducible assumption | with_reducible apply next_keeps | with_reducible apply wake_keeps | split | exact ‹Kept L s₀ _› | intro

/-! ### Machine/Power.lean -/

theorem execVsenRise_keeps (ppins : L .pins = true) (ptime : L .time = true) (pregs : L .regs = true) (pglb : L .glb = true) (pnvs : L .nvs = true) (ppwr : L .pwr = true) (ppstate : L .pstate = true) (pwrp : L .wrp = true) (ppaths : L .paths = true) (psyn : L .syn = true) (pskn : L .skn = true) (pfft : L .fft = true) (pdpd : L .dpd = true) (prad : L .rad = true) (plne : L .lne = true) (pfhp : L .fhp = true) (ptim : L .tim = true) (pcas : L .cas = true) (pacq : L .acq = true) (pmon : L .mon = true) (pdrc : L .drc = true) (pdma : L .dma = true) (phka : L .hka = true) (pbda : L .bda = true) (pthm : L .thm = true) (prnd : L .rnd = true) (K : Kept L s₀ s) : OutKept L s₀ (execVsenRise s) := by
  unfold execVsenRise; try dsimp only
  repeat' first | with_reducible assumption | with_reducible apply next_keeps | with_reducible apply vsenRise_keeps | split | exact ‹Kept L s₀ _› | intro
theorem execVsenFall_keeps (ppins : L .pins = true) (ptime : L .time = true) (pregs : L .regs = true) (pglb : L .glb = true) (pnvs : L .nvs = true) (ppwr : L .pwr = true) (ppstate : L .pstate = true) (pwrp : L .wrp = true) (ppaths : L .paths = true) (psyn : L .syn = true) (pskn : L .skn = true) (pfft : L .fft = true) (pdpd : L .dpd = true) (prad : L .rad = true) (plne : L .lne = true) (pfhp : L .fhp = true) (ptim : L .tim = true) (pcas : L .cas = true) (pacq : L .acq = true) (pmon : L .mon = true) (pdrc : L .drc = true) (pdma : L .dma = true) (phka : L .hka = true) (pbda : L .bda = true) (pthm : L .thm = true) (prnd : L .rnd = true) (K : Kept L s₀ s) : OutKept L s₀ (execVsenFall s) := by
  unfold execVsenFall; try dsimp only
  repeat' first | with_reducible assumption | with_reducible apply next_keeps | with_reducible apply vsenFall_keeps | split | exact ‹Kept L s₀ _› | intro
theorem execXtalOk_keeps (pregs : L .regs = true) (K : Kept L s₀ s) : OutKept L s₀ (execXtalOk s) := by
  unfold execXtalOk; try dsimp only
  repeat' first | with_reducible assumption | with_reducible apply next_keeps | with_reducible apply setFld_keeps | split | exact ‹Kept L s₀ _› | intro
theorem execRstNAssert_keeps (ppins : L .pins = true) (ptime : L .time = true) (pregs : L .regs = true) (pglb : L .glb = true) (pnvs : L .nvs = true) (ppwr : L .pwr = true) (ppstate : L .pstate = true) (pwrp : L .wrp = true) (ppaths : L .paths = true) (psyn : L .syn = true) (pskn : L .skn = true) (pfft : L .fft = true) (pdpd : L .dpd = true) (prad : L .rad = true) (plne : L .lne = true) (pfhp : L .fhp = true) (ptim : L .tim = true) (pcas : L .cas = true) (pacq : L .acq = true) (pmon : L .mon = true) (pdrc : L .drc = true) (pdma : L .dma = true) (phka : L .hka = true) (pbda : L .bda = true) (pthm : L .thm = true) (prnd : L .rnd = true) (K : Kept L s₀ s) : OutKept L s₀ (execRstNAssert s) := by
  unfold execRstNAssert; try dsimp only
  repeat' first | with_reducible assumption | with_reducible apply next_keeps | with_reducible apply coreOff_keeps | with_reducible apply modPins_keeps | split | exact ‹Kept L s₀ _› | intro
theorem execRstNRelease_keeps (ppins : L .pins = true) (K : Kept L s₀ s) : OutKept L s₀ (execRstNRelease s) := by
  unfold execRstNRelease; try dsimp only
  repeat' first | with_reducible assumption | with_reducible apply next_keeps | with_reducible apply modPins_keeps | split | exact ‹Kept L s₀ _› | intro
theorem execPmbusTransactionDone_keeps {n : Fin 8} {mode : BitVec 8} (ppins : L .pins = true) (ptime : L .time = true) (pregs : L .regs = true) (pglb : L .glb = true) (pnvs : L .nvs = true) (ppwr : L .pwr = true) (ppstate : L .pstate = true) (pwrp : L .wrp = true) (ppaths : L .paths = true) (psyn : L .syn = true) (pskn : L .skn = true) (pfft : L .fft = true) (pdpd : L .dpd = true) (prad : L .rad = true) (plne : L .lne = true) (pfhp : L .fhp = true) (ptim : L .tim = true) (pcas : L .cas = true) (pacq : L .acq = true) (pmon : L .mon = true) (pdrc : L .drc = true) (pdma : L .dma = true) (phka : L .hka = true) (pbda : L .bda = true) (pthm : L .thm = true) (prnd : L .rnd = true) (K : Kept L s₀ s) : OutKept L s₀ (execPmbusTransactionDone n mode s) := by
  unfold execPmbusTransactionDone; try dsimp only
  repeat' first | with_reducible assumption | with_reducible apply next_keeps | with_reducible apply pmbusDone_keeps | split | exact ‹Kept L s₀ _› | intro
theorem execPmbusAttemptFailed_keeps {n : Fin 8} {why : PmbWhy} (ppins : L .pins = true) (ptime : L .time = true) (pregs : L .regs = true) (pglb : L .glb = true) (pnvs : L .nvs = true) (ppwr : L .pwr = true) (ppstate : L .pstate = true) (pwrp : L .wrp = true) (ppaths : L .paths = true) (psyn : L .syn = true) (pskn : L .skn = true) (pfft : L .fft = true) (pdpd : L .dpd = true) (prad : L .rad = true) (plne : L .lne = true) (pfhp : L .fhp = true) (ptim : L .tim = true) (pcas : L .cas = true) (pacq : L .acq = true) (pmon : L .mon = true) (pdrc : L .drc = true) (pdma : L .dma = true) (phka : L .hka = true) (pbda : L .bda = true) (pthm : L .thm = true) (prnd : L .rnd = true) (K : Kept L s₀ s) : OutKept L s₀ (execPmbusAttemptFailed n why s) := by
  unfold execPmbusAttemptFailed; try dsimp only
  repeat' first | with_reducible assumption | with_reducible apply next_keeps | with_reducible apply attemptFailed_keeps | split | exact ‹Kept L s₀ _› | intro
theorem execRailRetry_keeps {n : Fin 8} (pregs : L .regs = true) (ppwr : L .pwr = true) (K : Kept L s₀ s) : OutKept L s₀ (execRailRetry n s) := by
  unfold execRailRetry; try dsimp only
  repeat' first | with_reducible assumption | with_reducible apply next_keeps | with_reducible apply railRetry_keeps | split | exact ‹Kept L s₀ _› | intro
theorem execRailFault_keeps {n : Fin 8} (ppins : L .pins = true) (ptime : L .time = true) (pregs : L .regs = true) (pglb : L .glb = true) (pnvs : L .nvs = true) (ppwr : L .pwr = true) (ppstate : L .pstate = true) (pwrp : L .wrp = true) (ppaths : L .paths = true) (psyn : L .syn = true) (pskn : L .skn = true) (pfft : L .fft = true) (pdpd : L .dpd = true) (prad : L .rad = true) (plne : L .lne = true) (pfhp : L .fhp = true) (ptim : L .tim = true) (pcas : L .cas = true) (pacq : L .acq = true) (pmon : L .mon = true) (pdrc : L .drc = true) (pdma : L .dma = true) (phka : L .hka = true) (pbda : L .bda = true) (pthm : L .thm = true) (prnd : L .rnd = true) (K : Kept L s₀ s) : OutKept L s₀ (execRailFault n s) := by
  unfold execRailFault; try dsimp only
  repeat' first | with_reducible assumption | with_reducible apply next_keeps | with_reducible apply railBad_keeps | split | exact ‹Kept L s₀ _› | intro
theorem execSmbalert_keeps {words : List (BitVec 16)} (ppins : L .pins = true) (ptime : L .time = true) (pregs : L .regs = true) (pglb : L .glb = true) (pnvs : L .nvs = true) (ppwr : L .pwr = true) (ppstate : L .pstate = true) (pwrp : L .wrp = true) (ppaths : L .paths = true) (psyn : L .syn = true) (pskn : L .skn = true) (pfft : L .fft = true) (pdpd : L .dpd = true) (prad : L .rad = true) (plne : L .lne = true) (pfhp : L .fhp = true) (ptim : L .tim = true) (pcas : L .cas = true) (pacq : L .acq = true) (pmon : L .mon = true) (pdrc : L .drc = true) (pdma : L .dma = true) (phka : L .hka = true) (pbda : L .bda = true) (pthm : L .thm = true) (prnd : L .rnd = true) (K : Kept L s₀ s) : OutKept L s₀ (execSmbalert words s) := by
  unfold execSmbalert; try dsimp only
  repeat' first | with_reducible assumption | with_reducible apply next_keeps | with_reducible apply smbAlert_keeps | split | exact ‹Kept L s₀ _› | intro
theorem execPmbusTelemetryPoll_keeps {r : List (BitVec 16 × BitVec 16)} (pregs : L .regs = true) (ppwr : L .pwr = true) (K : Kept L s₀ s) : OutKept L s₀ (execPmbusTelemetryPoll r s) := by
  unfold execPmbusTelemetryPoll; try dsimp only
  repeat' first | with_reducible assumption | with_reducible apply next_keeps | with_reducible apply telemetry_keeps | split | exact ‹Kept L s₀ _› | intro
theorem execRefCheckWindowDone_keeps {edges : Nat} (ppwr : L .pwr = true) (K : Kept L s₀ s) : OutKept L s₀ (execRefCheckWindowDone edges s) := by
  unfold execRefCheckWindowDone; try dsimp only
  repeat' first | with_reducible assumption | with_reducible apply next_keeps | with_reducible apply refWindow_keeps | split | exact ‹Kept L s₀ _› | intro
theorem execRefCheckTimeout_keeps (ppins : L .pins = true) (ptime : L .time = true) (pregs : L .regs = true) (pglb : L .glb = true) (pnvs : L .nvs = true) (ppwr : L .pwr = true) (ppstate : L .pstate = true) (pwrp : L .wrp = true) (ppaths : L .paths = true) (psyn : L .syn = true) (pskn : L .skn = true) (pfft : L .fft = true) (pdpd : L .dpd = true) (prad : L .rad = true) (plne : L .lne = true) (pfhp : L .fhp = true) (ptim : L .tim = true) (pcas : L .cas = true) (pacq : L .acq = true) (pmon : L .mon = true) (pdrc : L .drc = true) (pdma : L .dma = true) (phka : L .hka = true) (pbda : L .bda = true) (pthm : L .thm = true) (prnd : L .rnd = true) (K : Kept L s₀ s) : OutKept L s₀ (execRefCheckTimeout s) := by
  unfold execRefCheckTimeout; try dsimp only
  repeat' first | with_reducible assumption | with_reducible apply next_keeps | with_reducible apply refTimeout_keeps | split | exact ‹Kept L s₀ _› | intro
theorem execFirmwareImageVerified_keeps (ppins : L .pins = true) (ptime : L .time = true) (pregs : L .regs = true) (pglb : L .glb = true) (pnvs : L .nvs = true) (ppwr : L .pwr = true) (ppstate : L .pstate = true) (pwrp : L .wrp = true) (ppaths : L .paths = true) (psyn : L .syn = true) (pskn : L .skn = true) (pfft : L .fft = true) (pdpd : L .dpd = true) (prad : L .rad = true) (plne : L .lne = true) (pfhp : L .fhp = true) (ptim : L .tim = true) (pcas : L .cas = true) (pacq : L .acq = true) (pmon : L .mon = true) (pdrc : L .drc = true) (pdma : L .dma = true) (phka : L .hka = true) (pbda : L .bda = true) (pthm : L .thm = true) (prnd : L .rnd = true) (K : Kept L s₀ s) : OutKept L s₀ (execFirmwareImageVerified s) := by
  unfold execFirmwareImageVerified; try dsimp only
  repeat' first | with_reducible assumption | with_reducible apply next_keeps | with_reducible apply firmware_keeps | split | exact ‹Kept L s₀ _› | intro
theorem execLinkWaitExpiry_keeps (ppins : L .pins = true) (ptime : L .time = true) (pregs : L .regs = true) (pglb : L .glb = true) (pnvs : L .nvs = true) (ppwr : L .pwr = true) (ppstate : L .pstate = true) (pwrp : L .wrp = true) (ppaths : L .paths = true) (psyn : L .syn = true) (pskn : L .skn = true) (pfft : L .fft = true) (pdpd : L .dpd = true) (prad : L .rad = true) (plne : L .lne = true) (pfhp : L .fhp = true) (ptim : L .tim = true) (pcas : L .cas = true) (pacq : L .acq = true) (pmon : L .mon = true) (pdrc : L .drc = true) (pdma : L .dma = true) (phka : L .hka = true) (pbda : L .bda = true) (pthm : L .thm = true) (prnd : L .rnd = true) (K : Kept L s₀ s) : OutKept L s₀ (execLinkWaitExpiry s) := by
  unfold execLinkWaitExpiry; try dsimp only
  repeat' first | with_reducible assumption | with_reducible apply next_keeps | with_reducible apply linkWait_keeps | split | exact ‹Kept L s₀ _› | intro
theorem execStageClimb_keeps (ppins : L .pins = true) (ptime : L .time = true) (pregs : L .regs = true) (pglb : L .glb = true) (pnvs : L .nvs = true) (ppwr : L .pwr = true) (ppstate : L .pstate = true) (pwrp : L .wrp = true) (ppaths : L .paths = true) (psyn : L .syn = true) (pskn : L .skn = true) (pfft : L .fft = true) (pdpd : L .dpd = true) (prad : L .rad = true) (plne : L .lne = true) (pfhp : L .fhp = true) (ptim : L .tim = true) (pcas : L .cas = true) (pacq : L .acq = true) (pmon : L .mon = true) (pdrc : L .drc = true) (pdma : L .dma = true) (phka : L .hka = true) (pbda : L .bda = true) (pthm : L .thm = true) (prnd : L .rnd = true) (K : Kept L s₀ s) : OutKept L s₀ (execStageClimb s) := by
  unfold execStageClimb; try dsimp only
  repeat' first | with_reducible assumption | with_reducible apply next_keeps | with_reducible apply stageClimb_keeps | split | exact ‹Kept L s₀ _› | intro
theorem execClimb_keeps (pregs : L .regs = true) (ppwr : L .pwr = true) (K : Kept L s₀ s) : OutKept L s₀ (execClimb s) := by
  unfold execClimb; try dsimp only
  repeat' first | with_reducible assumption | with_reducible apply next_keeps | with_reducible apply climbOn_keeps | with_reducible apply hosted_keeps | split | exact ‹Kept L s₀ _› | intro
theorem execRelease_keeps {on : Bool} (pregs : L .regs = true) (pglb : L .glb = true) (ppwr : L .pwr = true) (ppstate : L .pstate = true) (prad : L .rad = true) (pfhp : L .fhp = true) (pcas : L .cas = true) (K : Kept L s₀ s) : OutKept L s₀ (execRelease on s) := by
  unfold execRelease; try dsimp only
  repeat' first | with_reducible assumption | with_reducible apply next_keeps | with_reducible apply release_keeps | with_reducible apply hosted_keeps | split | exact ‹Kept L s₀ _› | intro
theorem execStage4Entry_keeps (pregs : L .regs = true) (ppwr : L .pwr = true) (ppstate : L .pstate = true) (ppaths : L .paths = true) (K : Kept L s₀ s) : OutKept L s₀ (execStage4Entry s) := by
  unfold execStage4Entry; try dsimp only
  repeat' first | with_reducible assumption | with_reducible apply next_keeps | with_reducible apply stage4Entry_keeps | split | exact ‹Kept L s₀ _› | intro
theorem execStage4ExitComplete_keeps (pregs : L .regs = true) (pglb : L .glb = true) (pnvs : L .nvs = true) (ppwr : L .pwr = true) (ppstate : L .pstate = true) (ppaths : L .paths = true) (psyn : L .syn = true) (pdpd : L .dpd = true) (prad : L .rad = true) (pfhp : L .fhp = true) (pcas : L .cas = true) (K : Kept L s₀ s) : OutKept L s₀ (execStage4ExitComplete s) := by
  unfold execStage4ExitComplete; try dsimp only
  repeat' first | with_reducible assumption | with_reducible apply next_keeps | with_reducible apply stage4Exit_keeps | split | exact ‹Kept L s₀ _› | intro
theorem execPwrAonWakeFailClear_keeps (pregs : L .regs = true) (K : Kept L s₀ s) : OutKept L s₀ (execPwrAonWakeFailClear s) := by
  unfold execPwrAonWakeFailClear; try dsimp only
  repeat' first | with_reducible assumption | with_reducible apply next_keeps | with_reducible apply wakeFailClear_keeps | with_reducible apply hosted_keeps | split | exact ‹Kept L s₀ _› | intro
theorem execPwrAonShlCfgWrite_keeps {w : Word} (pregs : L .regs = true) (pglb : L .glb = true) (K : Kept L s₀ s) : OutKept L s₀ (execPwrAonShlCfgWrite w s) := by
  unfold execPwrAonShlCfgWrite; try dsimp only
  repeat' first | with_reducible assumption | with_reducible apply next_keeps | with_reducible apply shlCfgWrite_keeps | with_reducible apply hosted_keeps | split | exact ‹Kept L s₀ _› | intro
theorem execThermalSample_keeps {z : Fin 12} {raws : List (Option Int)} (ppins : L .pins = true) (ptime : L .time = true) (pregs : L .regs = true) (pglb : L .glb = true) (pnvs : L .nvs = true) (ppwr : L .pwr = true) (ppstate : L .pstate = true) (pwrp : L .wrp = true) (ppaths : L .paths = true) (psyn : L .syn = true) (pskn : L .skn = true) (pfft : L .fft = true) (pdpd : L .dpd = true) (prad : L .rad = true) (plne : L .lne = true) (pfhp : L .fhp = true) (ptim : L .tim = true) (pcas : L .cas = true) (pacq : L .acq = true) (pmon : L .mon = true) (pdrc : L .drc = true) (pdma : L .dma = true) (phka : L .hka = true) (pbda : L .bda = true) (pthm : L .thm = true) (prnd : L .rnd = true) (K : Kept L s₀ s) : OutKept L s₀ (execThermalSample z raws s) := by
  unfold execThermalSample; try dsimp only
  repeat' first | with_reducible assumption | with_reducible apply next_keeps | with_reducible apply thermalSample_keeps | split | exact ‹Kept L s₀ _› | intro
theorem execCoarseComparator135_keeps (ppins : L .pins = true) (ptime : L .time = true) (pregs : L .regs = true) (pglb : L .glb = true) (pnvs : L .nvs = true) (ppwr : L .pwr = true) (ppstate : L .pstate = true) (pwrp : L .wrp = true) (ppaths : L .paths = true) (psyn : L .syn = true) (pskn : L .skn = true) (pfft : L .fft = true) (pdpd : L .dpd = true) (prad : L .rad = true) (plne : L .lne = true) (pfhp : L .fhp = true) (ptim : L .tim = true) (pcas : L .cas = true) (pacq : L .acq = true) (pmon : L .mon = true) (pdrc : L .drc = true) (pdma : L .dma = true) (phka : L .hka = true) (pbda : L .bda = true) (pthm : L .thm = true) (prnd : L .rnd = true) (K : Kept L s₀ s) : OutKept L s₀ (execCoarseComparator135 s) := by
  unfold execCoarseComparator135; try dsimp only
  repeat' first | with_reducible assumption | with_reducible apply next_keeps | with_reducible apply shutdown_keeps | split | exact ‹Kept L s₀ _› | intro

/-! ### Machine/Cas.lean -/

theorem execHello_keeps {side : Fin 2} {b : List Byte} (pregs : L .regs = true) (pglb : L .glb = true) (ppstate : L .pstate = true) (pskn : L .skn = true) (prad : L .rad = true) (pfhp : L .fhp = true) (pcas : L .cas = true) (K : Kept L s₀ s) : OutKept L s₀ (execHello side b s) := by
  unfold execHello; try dsimp only
  repeat' first | with_reducible assumption | with_reducible apply next_keeps | with_reducible apply foldRx_keeps | with_reducible apply helloTake_keeps | split | exact ‹Kept L s₀ _› | intro
theorem execHelloSend_keeps {side : Fin 2} (pcas : L .cas = true) (K : Kept L s₀ s) : OutKept L s₀ (execHelloSend side s) := by
  unfold execHelloSend; try dsimp only
  repeat' first | with_reducible assumption | with_reducible apply next_keeps | with_reducible apply helloSend_keeps | split | exact ‹Kept L s₀ _› | intro
theorem execLane_keeps {side : Fin 2} {b : List Byte} (pregs : L .regs = true) (pglb : L .glb = true) (ppstate : L .pstate = true) (prad : L .rad = true) (plne : L .lne = true) (pfhp : L .fhp = true) (pcas : L .cas = true) (K : Kept L s₀ s) : OutKept L s₀ (execLane side b s) := by
  unfold execLane; try dsimp only
  repeat' first | with_reducible assumption | with_reducible apply next_keeps | with_reducible apply foldRx_keeps | with_reducible apply laneEvent_keeps | split | exact ‹Kept L s₀ _› | intro
theorem execTimeSend_keeps (pcas : L .cas = true) (K : Kept L s₀ s) : OutKept L s₀ (execTimeSend s) := by
  unfold execTimeSend; try dsimp only
  repeat' first | with_reducible assumption | with_reducible apply next_keeps | with_reducible apply timeSend_keeps | split | exact ‹Kept L s₀ _› | intro
theorem execEcho_keeps {side : Fin 2} {fine : Fin 16} {b : List Byte} (pregs : L .regs = true) (pglb : L .glb = true) (ppstate : L .pstate = true) (prad : L .rad = true) (pfhp : L .fhp = true) (pcas : L .cas = true) (K : Kept L s₀ s) : OutKept L s₀ (execEcho side fine b s) := by
  unfold execEcho; try dsimp only
  repeat' first | with_reducible assumption | with_reducible apply next_keeps | with_reducible apply foldRx_keeps | with_reducible apply modCas_keeps | split | exact ‹Kept L s₀ _› | intro
theorem execTime_keeps {side : Fin 2} {fine : Fin 16} {mis : Fin 16} {b : List Byte} (ptime : L .time = true) (pregs : L .regs = true) (pglb : L .glb = true) (pnvs : L .nvs = true) (ppstate : L .pstate = true) (ppaths : L .paths = true) (psyn : L .syn = true) (pskn : L .skn = true) (pfft : L .fft = true) (pdpd : L .dpd = true) (prad : L .rad = true) (pfhp : L .fhp = true) (ptim : L .tim = true) (pcas : L .cas = true) (pacq : L .acq = true) (prnd : L .rnd = true) (K : Kept L s₀ s) : OutKept L s₀ (execTime side fine mis b s) := by
  unfold execTime; try dsimp only
  repeat' first | with_reducible assumption | with_reducible apply next_keeps | with_reducible apply timeTake_keeps | with_reducible apply foldRx_keeps | split | exact ‹Kept L s₀ _› | intro
theorem execTb2Timeout_keeps (pregs : L .regs = true) (pglb : L .glb = true) (ppstate : L .pstate = true) (prad : L .rad = true) (pfhp : L .fhp = true) (pcas : L .cas = true) (K : Kept L s₀ s) : OutKept L s₀ (execTb2Timeout s) := by
  unfold execTb2Timeout; try dsimp only
  repeat' first | with_reducible assumption | with_reducible apply next_keeps | with_reducible apply tb2Lost_keeps | split | exact ‹Kept L s₀ _› | intro
theorem execStackStep_keeps (ptime : L .time = true) (pregs : L .regs = true) (pglb : L .glb = true) (pnvs : L .nvs = true) (ppstate : L .pstate = true) (ppaths : L .paths = true) (psyn : L .syn = true) (pskn : L .skn = true) (pfft : L .fft = true) (pdpd : L .dpd = true) (prad : L .rad = true) (pfhp : L .fhp = true) (ptim : L .tim = true) (pcas : L .cas = true) (pacq : L .acq = true) (K : Kept L s₀ s) : OutKept L s₀ (execStackStep s) := by
  unfold execStackStep; try dsimp only
  repeat' first | with_reducible assumption | with_reducible apply next_keeps | with_reducible apply stackStep_keeps | split | exact ‹Kept L s₀ _› | intro
theorem execDlBlocks_keeps {side : Fin 2} {b : List Byte} (pregs : L .regs = true) (pglb : L .glb = true) (ppstate : L .pstate = true) (prad : L .rad = true) (pfhp : L .fhp = true) (pcas : L .cas = true) (K : Kept L s₀ s) : OutKept L s₀ (execDlBlocks side b s) := by
  unfold execDlBlocks; try dsimp only
  repeat' first | with_reducible assumption | with_reducible apply next_keeps | with_reducible apply dlTake_keeps | with_reducible apply foldRx_keeps | split | exact ‹Kept L s₀ _› | intro
theorem execUlSums_keeps {side : Fin 2} {b : List Byte} {adc : List (List Cplx)} {m : UlMarks} (pregs : L .regs = true) (pglb : L .glb = true) (ppstate : L .pstate = true) (prad : L .rad = true) (pfhp : L .fhp = true) (pcas : L .cas = true) (K : Kept L s₀ s) : OutKept L s₀ (execUlSums side b adc m s) := by
  unfold execUlSums; try dsimp only
  repeat' first | with_reducible assumption | with_reducible apply next_keeps | with_reducible apply ulPair_keeps | with_reducible apply foldRx_keeps | split | exact ‹Kept L s₀ _› | intro
theorem execUlPairSend_keeps {c : Fin 4} {start : Nat} {adc : List (List Cplx)} {m : UlMarks} (pregs : L .regs = true) (pfhp : L .fhp = true) (pcas : L .cas = true) (K : Kept L s₀ s) : OutKept L s₀ (execUlPairSend c start adc m s) := by
  unfold execUlPairSend; try dsimp only
  repeat' first | with_reducible assumption | with_reducible apply next_keeps | with_reducible apply ulPair_keeps | split | exact ‹Kept L s₀ _› | intro
theorem execHopTimeMissed_keeps {x : MissedPair} {dropped : Bool} (pregs : L .regs = true) (pglb : L .glb = true) (ppstate : L .pstate = true) (prad : L .rad = true) (pfhp : L .fhp = true) (pcas : L .cas = true) (K : Kept L s₀ s) : OutKept L s₀ (execHopTimeMissed x dropped s) := by
  unfold execHopTimeMissed; try dsimp only
  repeat' first | with_reducible assumption | with_reducible apply next_keeps | with_reducible apply hopMissed_keeps | split | exact ‹Kept L s₀ _› | intro
theorem execStatus_keeps {side : Fin 2} {b : List Byte} (pregs : L .regs = true) (pglb : L .glb = true) (ppstate : L .pstate = true) (prad : L .rad = true) (pfhp : L .fhp = true) (pcas : L .cas = true) (K : Kept L s₀ s) : OutKept L s₀ (execStatus side b s) := by
  unfold execStatus; try dsimp only
  repeat' first | with_reducible assumption | with_reducible apply next_keeps | with_reducible apply passOn_keeps | with_reducible apply foldRx_keeps | with_reducible apply statusTake_keeps | split | exact ‹Kept L s₀ _› | intro
theorem execControlSkein_keeps {side : Fin 2} {b : List Byte} (pregs : L .regs = true) (pglb : L .glb = true) (ppstate : L .pstate = true) (pskn : L .skn = true) (prad : L .rad = true) (pfhp : L .fhp = true) (pcas : L .cas = true) (K : Kept L s₀ s) : OutKept L s₀ (execControlSkein side b s) := by
  unfold execControlSkein; try dsimp only
  repeat' first | with_reducible assumption | with_reducible apply next_keeps | with_reducible apply controlRx_keeps | with_reducible apply foldRx_keeps | with_reducible apply skeinWriteBody_keeps | split | exact ‹Kept L s₀ _› | intro
theorem execControlSwap_keeps {side : Fin 2} {b : List Byte} (pregs : L .regs = true) (pglb : L .glb = true) (ppstate : L .pstate = true) (pskn : L .skn = true) (prad : L .rad = true) (pfhp : L .fhp = true) (pcas : L .cas = true) (K : Kept L s₀ s) : OutKept L s₀ (execControlSwap side b s) := by
  unfold execControlSwap; try dsimp only
  repeat' first | with_reducible assumption | with_reducible apply next_keeps | with_reducible apply controlRx_keeps | with_reducible apply controlSwap_keeps | split | exact ‹Kept L s₀ _› | intro
theorem execControlBurst_keeps {side : Fin 2} {b : List Byte} (pregs : L .regs = true) (pglb : L .glb = true) (ppstate : L .pstate = true) (prad : L .rad = true) (pfhp : L .fhp = true) (pcas : L .cas = true) (K : Kept L s₀ s) : OutKept L s₀ (execControlBurst side b s) := by
  unfold execControlBurst; try dsimp only
  repeat' first | with_reducible assumption | with_reducible apply next_keeps | with_reducible apply controlRx_keeps | with_reducible apply controlBurst_keeps | split | exact ‹Kept L s₀ _› | intro
theorem execControlSlot_keeps {side : Fin 2} {b : List Byte} (pregs : L .regs = true) (pglb : L .glb = true) (ppstate : L .pstate = true) (prad : L .rad = true) (pfhp : L .fhp = true) (pcas : L .cas = true) (K : Kept L s₀ s) : OutKept L s₀ (execControlSlot side b s) := by
  unfold execControlSlot; try dsimp only
  repeat' first | with_reducible assumption | with_reducible apply next_keeps | with_reducible apply controlRx_keeps | with_reducible apply planChange_keeps | split | exact ‹Kept L s₀ _› | intro
theorem execControlWarp_keeps {side : Fin 2} {b : List Byte} (pregs : L .regs = true) (pglb : L .glb = true) (ppstate : L .pstate = true) (prad : L .rad = true) (pfhp : L .fhp = true) (pcas : L .cas = true) (K : Kept L s₀ s) : OutKept L s₀ (execControlWarp side b s) := by
  unfold execControlWarp; try dsimp only
  repeat' first | with_reducible assumption | with_reducible apply next_keeps | with_reducible apply controlRx_keeps | with_reducible apply warpFrame_keeps | split | exact ‹Kept L s₀ _› | intro
theorem execControlCommit_keeps {side : Fin 2} {b : List Byte} (pregs : L .regs = true) (pglb : L .glb = true) (pnvs : L .nvs = true) (ppstate : L .pstate = true) (pwrp : L .wrp = true) (prad : L .rad = true) (pfhp : L .fhp = true) (pcas : L .cas = true) (K : Kept L s₀ s) : OutKept L s₀ (execControlCommit side b s) := by
  unfold execControlCommit; try dsimp only
  repeat' first | with_reducible assumption | with_reducible apply next_keeps | with_reducible apply controlRx_keeps | with_reducible apply warpCommit_keeps | split | exact ‹Kept L s₀ _› | intro
theorem execControlVote_keeps {side : Fin 2} {b : List Byte} (pregs : L .regs = true) (pglb : L .glb = true) (pnvs : L .nvs = true) (ppwr : L .pwr = true) (ppstate : L .pstate = true) (pwrp : L .wrp = true) (prad : L .rad = true) (pfhp : L .fhp = true) (pcas : L .cas = true) (K : Kept L s₀ s) : OutKept L s₀ (execControlVote side b s) := by
  unfold execControlVote; try dsimp only
  repeat' first | with_reducible assumption | with_reducible apply next_keeps | with_reducible apply voteTake_keeps | with_reducible apply controlRx_keeps | split | exact ‹Kept L s₀ _› | intro
theorem execVoteTimeout_keeps (pregs : L .regs = true) (pwrp : L .wrp = true) (pcas : L .cas = true) (K : Kept L s₀ s) : OutKept L s₀ (execVoteTimeout s) := by
  unfold execVoteTimeout; try dsimp only
  repeat' first | with_reducible assumption | with_reducible apply next_keeps | with_reducible apply voteTimeout_keeps | split | exact ‹Kept L s₀ _› | intro
theorem execControlReport_keeps {side : Fin 2} {b : List Byte} (pregs : L .regs = true) (pglb : L .glb = true) (ppstate : L .pstate = true) (prad : L .rad = true) (pfhp : L .fhp = true) (pcas : L .cas = true) (K : Kept L s₀ s) : OutKept L s₀ (execControlReport side b s) := by
  unfold execControlReport; try dsimp only
  repeat' first | with_reducible assumption | with_reducible apply next_keeps | with_reducible apply reportTake_keeps | with_reducible apply controlRx_keeps | split | exact ‹Kept L s₀ _› | intro
theorem execControlLevel_keeps {side : Fin 2} {b : List Byte} (pregs : L .regs = true) (pglb : L .glb = true) (ppwr : L .pwr = true) (ppstate : L .pstate = true) (prad : L .rad = true) (pfhp : L .fhp = true) (pcas : L .cas = true) (K : Kept L s₀ s) : OutKept L s₀ (execControlLevel side b s) := by
  unfold execControlLevel; try dsimp only
  repeat' first | with_reducible assumption | with_reducible apply next_keeps | with_reducible apply controlRx_keeps | with_reducible apply levelFrame_keeps | split | exact ‹Kept L s₀ _› | intro
theorem execControlIsolate_keeps {side : Fin 2} {b : List Byte} (pregs : L .regs = true) (pglb : L .glb = true) (ppstate : L .pstate = true) (prad : L .rad = true) (pfhp : L .fhp = true) (pcas : L .cas = true) (K : Kept L s₀ s) : OutKept L s₀ (execControlIsolate side b s) := by
  unfold execControlIsolate; try dsimp only
  repeat' first | with_reducible assumption | with_reducible apply next_keeps | with_reducible apply isolateTake_keeps | with_reducible apply controlRx_keeps | split | exact ‹Kept L s₀ _› | intro
theorem execIsolateDown_keeps (pregs : L .regs = true) (pfhp : L .fhp = true) (pcas : L .cas = true) (K : Kept L s₀ s) : OutKept L s₀ (execIsolateDown s) := by
  unfold execIsolateDown; try dsimp only
  repeat' first | with_reducible assumption | with_reducible apply next_keeps | with_reducible apply isolateDown_keeps | with_reducible apply hosted_keeps | split | exact ‹Kept L s₀ _› | intro
theorem execRejoin_keeps (pcas : L .cas = true) (K : Kept L s₀ s) : OutKept L s₀ (execRejoin s) := by
  unfold execRejoin; try dsimp only
  repeat' first | with_reducible assumption | with_reducible apply next_keeps | with_reducible apply casRejoin_keeps | with_reducible apply hosted_keeps | split | exact ‹Kept L s₀ _› | intro
theorem execArbitrationEpochEnd_keeps (pregs : L .regs = true) (pglb : L .glb = true) (pnvs : L .nvs = true) (ppstate : L .pstate = true) (ppaths : L .paths = true) (psyn : L .syn = true) (pfft : L .fft = true) (pdpd : L .dpd = true) (prad : L .rad = true) (pfhp : L .fhp = true) (pcas : L .cas = true) (pacq : L .acq = true) (K : Kept L s₀ s) : OutKept L s₀ (execArbitrationEpochEnd s) := by
  unfold execArbitrationEpochEnd; try dsimp only
  repeat' first | with_reducible assumption | with_reducible apply next_keeps | with_reducible apply casEpoch_keeps | with_reducible apply epochEnd_keeps | split | exact ‹Kept L s₀ _› | intro

/-! ### Machine/Frames.lean -/

theorem execEthernetFrameRx_keeps {q : Fin 3} {fine : Fin 16} {b : List Byte} {fcsOk : Bool} {uncorr : Bool} (ptime : L .time = true) (pregs : L .regs = true) (pglb : L .glb = true) (pnvs : L .nvs = true) (ppstate : L .pstate = true) (ppaths : L .paths = true) (psyn : L .syn = true) (pskn : L .skn = true) (pfft : L .fft = true) (pdpd : L .dpd = true) (prad : L .rad = true) (pfhp : L .fhp = true) (ptim : L .tim = true) (pcas : L .cas = true) (pacq : L .acq = true) (prnd : L .rnd = true) (K : Kept L s₀ s) : OutKept L s₀ (execEthernetFrameRx q fine b fcsOk uncorr s) := by
  unfold execEthernetFrameRx; try dsimp only
  repeat' first | with_reducible assumption | with_reducible apply next_keeps | with_reducible apply frameRx_keeps | split | exact ‹Kept L s₀ _› | intro

/-! ### Machine/Boundary.lean -/

theorem execGroupBoundary_keeps {g : Fin 8} (pregs : L .regs = true) (pglb : L .glb = true) (pnvs : L .nvs = true) (ppstate : L .pstate = true) (ppaths : L .paths = true) (psyn : L .syn = true) (pdpd : L .dpd = true) (prad : L .rad = true) (pfhp : L .fhp = true) (pcas : L .cas = true) (pacq : L .acq = true) (pdrc : L .drc = true) (pdma : L .dma = true) (prnd : L .rnd = true) (K : Kept L s₀ s) : OutKept L s₀ (execGroupBoundary g s) := by
  unfold execGroupBoundary; try dsimp only
  repeat' first | with_reducible assumption | with_reducible apply next_keeps | with_reducible apply groupBoundary_keeps | split | exact ‹Kept L s₀ _› | intro

/-! ### Machine/StoreDone.lean -/

theorem execStoreWriteDone_keeps {fails : List (Fin 4096 × Fin 65)} (pregs : L .regs = true) (pglb : L .glb = true) (pnvs : L .nvs = true) (ppaths : L .paths = true) (prad : L .rad = true) (pbda : L .bda = true) (K : Kept L s₀ s) : OutKept L s₀ (execStoreWriteDone fails s) := by
  unfold execStoreWriteDone; try dsimp only
  repeat' first | with_reducible assumption | with_reducible apply next_keeps | with_reducible apply storeWriteDone_keeps | split | exact ‹Kept L s₀ _› | intro

/-! ### Machine/ReadReg.lean -/

theorem execRcRegisterRead_keeps {a : BitVec 32} (pregs : L .regs = true) (pglb : L .glb = true) (ppwr : L .pwr = true) (pacq : L .acq = true) (K : Kept L s₀ s) : OutKept L s₀ (execRcRegisterRead a s) := by
  unfold execRcRegisterRead; try dsimp only
  repeat' first | with_reducible assumption | with_reducible apply next_keeps | with_reducible apply afterRead_keeps | split | exact ‹Kept L s₀ _› | intro

/-! ### Machine/Glb.lean -/

theorem execFlashRead_keeps (pregs : L .regs = true) (pglb : L .glb = true) (K : Kept L s₀ s) : OutKept L s₀ (execFlashRead s) := by
  unfold execFlashRead; try dsimp only
  repeat' first | with_reducible assumption | with_reducible apply next_keeps | with_reducible apply flashGo_keeps | with_reducible apply hosted_keeps | split | exact ‹Kept L s₀ _› | intro
theorem execFlashProgram_keeps (pregs : L .regs = true) (pglb : L .glb = true) (K : Kept L s₀ s) : OutKept L s₀ (execFlashProgram s) := by
  unfold execFlashProgram; try dsimp only
  repeat' first | with_reducible assumption | with_reducible apply next_keeps | with_reducible apply flashGo_keeps | with_reducible apply hosted_keeps | split | exact ‹Kept L s₀ _› | intro
theorem execFlashErase_keeps (pregs : L .regs = true) (pglb : L .glb = true) (K : Kept L s₀ s) : OutKept L s₀ (execFlashErase s) := by
  unfold execFlashErase; try dsimp only
  repeat' first | with_reducible assumption | with_reducible apply next_keeps | with_reducible apply flashGo_keeps | with_reducible apply hosted_keeps | split | exact ‹Kept L s₀ _› | intro
theorem execFlashVerify_keeps {slot : Fin 2} (pregs : L .regs = true) (pglb : L .glb = true) (K : Kept L s₀ s) : OutKept L s₀ (execFlashVerify slot s) := by
  unfold execFlashVerify; try dsimp only
  repeat' first | with_reducible assumption | with_reducible apply next_keeps | with_reducible apply flashGo_keeps | with_reducible apply hosted_keeps | split | exact ‹Kept L s₀ _› | intro
theorem execFlashOpDone_keeps (pregs : L .regs = true) (pglb : L .glb = true) (K : Kept L s₀ s) : OutKept L s₀ (execFlashOpDone s) := by
  unfold execFlashOpDone; try dsimp only
  repeat' first | with_reducible assumption | with_reducible apply next_keeps | with_reducible apply flashOpDone_keeps | split | exact ‹Kept L s₀ _› | intro
theorem execUnlock_keeps (ppins : L .pins = true) (pregs : L .regs = true) (pglb : L .glb = true) (prnd : L .rnd = true) (K : Kept L s₀ s) : OutKept L s₀ (execUnlock s) := by
  unfold execUnlock; try dsimp only
  repeat' first | with_reducible assumption | with_reducible apply next_keeps | with_reducible apply unlock_keeps | with_reducible apply hosted_keeps | split | exact ‹Kept L s₀ _› | intro
theorem execDbgClear_keeps (pglb : L .glb = true) (K : Kept L s₀ s) : OutKept L s₀ (execDbgClear s) := by
  unfold execDbgClear; try dsimp only
  repeat' first | with_reducible assumption | with_reducible apply next_keeps | with_reducible apply dbgClear_keeps | with_reducible apply hosted_keeps | split | exact ‹Kept L s₀ _› | intro
theorem execGlbDbgDataWrite_keeps {w : Word} (pregs : L .regs = true) (pglb : L .glb = true) (K : Kept L s₀ s) : OutKept L s₀ (execGlbDbgDataWrite w s) := by
  unfold execGlbDbgDataWrite; try dsimp only
  repeat' first | with_reducible assumption | with_reducible apply next_keeps | with_reducible apply dbgData_keeps | with_reducible apply hosted_keeps | split | exact ‹Kept L s₀ _› | intro
theorem execWatchdogExpiry_keeps (pregs : L .regs = true) (pglb : L .glb = true) (ppwr : L .pwr = true) (ppstate : L .pstate = true) (prad : L .rad = true) (pfhp : L .fhp = true) (pcas : L .cas = true) (pbda : L .bda = true) (K : Kept L s₀ s) : OutKept L s₀ (execWatchdogExpiry s) := by
  unfold execWatchdogExpiry; try dsimp only
  repeat' first | with_reducible assumption | with_reducible apply next_keeps | with_reducible apply watchdogExpiry_keeps | split | exact ‹Kept L s₀ _› | intro

/-! ### Machine/WriteReg.lean -/

theorem execRegisterWrite_keeps {a : BitVec 32} {w : Word} (ppins : L .pins = true) (ptime : L .time = true) (pregs : L .regs = true) (pglb : L .glb = true) (pnvs : L .nvs = true) (ppwr : L .pwr = true) (ppstate : L .pstate = true) (pwrp : L .wrp = true) (ppaths : L .paths = true) (psyn : L .syn = true) (pskn : L .skn = true) (pfft : L .fft = true) (pdpd : L .dpd = true) (prad : L .rad = true) (plne : L .lne = true) (pfhp : L .fhp = true) (ptim : L .tim = true) (pcas : L .cas = true) (pacq : L .acq = true) (pmon : L .mon = true) (pdrc : L .drc = true) (pdma : L .dma = true) (phka : L .hka = true) (pbda : L .bda = true) (pthm : L .thm = true) (prnd : L .rnd = true) (K : Kept L s₀ s) : OutKept L s₀ (execRegisterWrite a w s) := by
  unfold execRegisterWrite; try dsimp only
  repeat' first | with_reducible assumption | with_reducible apply next_keeps | with_reducible apply hostWrite_keeps | split | exact ‹Kept L s₀ _› | intro
theorem execWaitPollRead_keeps {c : Fin 16} (pregs : L .regs = true) (pglb : L .glb = true) (ppwr : L .pwr = true) (pacq : L .acq = true) (pdma : L .dma = true) (K : Kept L s₀ s) : OutKept L s₀ (execWaitPollRead c s) := by
  unfold execWaitPollRead; try dsimp only
  repeat' first | with_reducible assumption | with_reducible apply next_keeps | with_reducible apply afterRead_keeps | with_reducible apply pollRead_keeps | split | exact ‹Kept L s₀ _› | intro

/-! ### Machine/Spi.lean -/

theorem execWriteIncr_keeps {badOp : Option Byte} {b : List Byte} (ppins : L .pins = true) (ptime : L .time = true) (pregs : L .regs = true) (pglb : L .glb = true) (pnvs : L .nvs = true) (ppwr : L .pwr = true) (ppstate : L .pstate = true) (pwrp : L .wrp = true) (ppaths : L .paths = true) (psyn : L .syn = true) (pskn : L .skn = true) (pfft : L .fft = true) (pdpd : L .dpd = true) (prad : L .rad = true) (plne : L .lne = true) (pfhp : L .fhp = true) (ptim : L .tim = true) (pcas : L .cas = true) (pacq : L .acq = true) (pmon : L .mon = true) (pdrc : L .drc = true) (pdma : L .dma = true) (phka : L .hka = true) (pbda : L .bda = true) (pthm : L .thm = true) (prnd : L .rnd = true) (K : Kept L s₀ s) : OutKept L s₀ (execWriteIncr badOp b s) := by
  unfold execWriteIncr; try dsimp only
  repeat' first | with_reducible assumption | with_reducible apply next_keeps | with_reducible apply spiWrite_keeps | split | exact ‹Kept L s₀ _› | intro
theorem execWriteFixed_keeps {b : List Byte} (ppins : L .pins = true) (ptime : L .time = true) (pregs : L .regs = true) (pglb : L .glb = true) (pnvs : L .nvs = true) (ppwr : L .pwr = true) (ppstate : L .pstate = true) (pwrp : L .wrp = true) (ppaths : L .paths = true) (psyn : L .syn = true) (pskn : L .skn = true) (pfft : L .fft = true) (pdpd : L .dpd = true) (prad : L .rad = true) (plne : L .lne = true) (pfhp : L .fhp = true) (ptim : L .tim = true) (pcas : L .cas = true) (pacq : L .acq = true) (pmon : L .mon = true) (pdrc : L .drc = true) (pdma : L .dma = true) (phka : L .hka = true) (pbda : L .bda = true) (pthm : L .thm = true) (prnd : L .rnd = true) (K : Kept L s₀ s) : OutKept L s₀ (execWriteFixed b s) := by
  unfold execWriteFixed; try dsimp only
  repeat' first | with_reducible assumption | with_reducible apply next_keeps | with_reducible apply spiWrite_keeps | split | exact ‹Kept L s₀ _› | intro
theorem execReadIncr_keeps {b : List Byte} {n : Nat} {late : List Nat} (pregs : L .regs = true) (pglb : L .glb = true) (ppwr : L .pwr = true) (pacq : L .acq = true) (prnd : L .rnd = true) (K : Kept L s₀ s) : OutKept L s₀ (execReadIncr b n late s) := by
  unfold execReadIncr; try dsimp only
  repeat' first | with_reducible assumption | with_reducible apply next_keeps | with_reducible apply spiRead_keeps | split | exact ‹Kept L s₀ _› | intro
theorem execReadFixed_keeps {b : List Byte} {n : Nat} {late : List Nat} (pregs : L .regs = true) (pglb : L .glb = true) (ppwr : L .pwr = true) (pacq : L .acq = true) (prnd : L .rnd = true) (K : Kept L s₀ s) : OutKept L s₀ (execReadFixed b n late s) := by
  unfold execReadFixed; try dsimp only
  repeat' first | with_reducible assumption | with_reducible apply next_keeps | with_reducible apply spiRead_keeps | split | exact ‹Kept L s₀ _› | intro

end Sys2Proof.Machine
end

