-- ==== Sys2Proof/Laws/Look.lean ====
section
/-!
SUPPORT. What looking something up answers after a change: elements of rows of things, records of the store, rails.
-/

set_option Elab.async false

namespace Sys2Proof.Machine

variable {α : Type}

theorem vget_vmod [Inhabited α] {n : Nat} (v : Vector α n) (i : Nat) (f : α → α) (j : Nat) :
    vget (vmod v i f) j = if j = i ∧ i < n then f (vget v i) else vget v j := by
  unfold vmod vget
  by_cases hi : i < n
  · simp only [hi, dif_pos, and_true, Vector.toArray_set]
    by_cases hj : j = i
    · subst hj; simp [Array.getD_eq_getD_getElem?, hi]
    · have : ¬ i = j := fun h => hj h.symm
      simp [Array.getD_eq_getD_getElem?, hj, this]
  · simp [hi]

theorem vget_vmod_same [Inhabited α] {n : Nat} (v : Vector α n) {i : Nat} (f : α → α) (h : i < n) : vget (vmod v i f) i = f (vget v i) := by
  simp [vget_vmod, h]

theorem vget_vmod_ne [Inhabited α] {n : Nat} (v : Vector α n) {i j : Nat} (f : α → α) (h : j ≠ i) : vget (vmod v i f) j = vget v j := by
  simp [vget_vmod, h]

theorem vget_vset [Inhabited α] {n : Nat} (v : Vector α n) (i : Nat) (x : α) (j : Nat) :
    vget (vset v i x) j = if j = i ∧ i < n then x else vget v j := vget_vmod v i _ j

theorem vget_replicate [Inhabited α] (n : Nat) (x : α) (i : Nat) (h : i < n) : vget (Vector.replicate n x) i = x := by
  simp [vget, Array.getD_eq_getD_getElem?, h]

theorem vget_vall [Inhabited α] {n : Nat} (v : Vector α n) (f : Nat → α → α) (i : Nat) (h : i < n) : vget (vall v f) i = f i (vget v i) := by
  have key : ∀ (l : List Nat) (w : Vector α n), l.Nodup →
      vget (l.foldl (fun v i => vmod v i (f i)) w) i = if i ∈ l then f i (vget w i) else vget w i := by
    intro l
    induction l with
    | nil => intro w _; simp
    | cons a l ih =>
      intro w hl
      rw [List.nodup_cons] at hl
      rw [List.foldl_cons, ih _ hl.2, vget_vmod]
      by_cases ha : i = a
      · subst ha; simp [hl.1, h]
      · simp [ha]
  unfold vall
  rw [key _ _ List.nodup_range]; simp [h]

theorem lget_lmod [Inhabited α] (l : List α) (i : Nat) (f : α → α) (j : Nat) :
    lget (lmod l i f) j = if j = i ∧ i < l.length then f (lget l i) else lget l j := by
  induction l generalizing i j with
  | nil => simp [lmod]
  | cons x xs ih =>
    cases i with
    | zero => cases j with
      | zero => simp [lmod, lget]
      | succ j => simp [lmod, lget]
    | succ i => cases j with
      | zero => simp [lmod, lget]
      | succ j =>
        have := ih i j
        simp only [lget, List.getD_eq_getElem?_getD] at this
        simpa [lmod, lget] using this

/-! ### Records of the store depend on the store alone -/

theorem readSlot_congr {s t : State} (h : t.nvs = s.nvs) (a p ty : Nat) : readSlot t a p ty = readSlot s a p ty := by
  unfold readSlot State.storeAt; rw [h]

theorem inForce_congr {s t : State} (h : t.nvs = s.nvs) (a p ty : Nat) : inForce t a p ty = inForce s a p ty := by
  unfold inForce; rw [readSlot_congr h, readSlot_congr h]

theorem sysRec_congr {s t : State} (h : t.nvs = s.nvs) (ty : Nat) : sysRec t ty = sysRec s ty := by
  unfold sysRec; rw [inForce_congr h]

theorem supplyRecord_congr {s t : State} (h : t.nvs = s.nvs) : supplyRecord t = supplyRecord s := by
  unfold supplyRecord; rw [sysRec_congr h]

theorem supplyField_congr {s t : State} (h : t.nvs = s.nvs) (o n : Nat) : supplyField t o n = supplyField s o n := by
  unfold supplyField; rw [supplyRecord_congr h]

theorem supplyMv_congr {s t : State} (h : t.nvs = s.nvs) (n : Nat) : supplyMv t n = supplyMv s n := supplyField_congr h _ _

/-! ### Rails -/

@[simp] theorem railRequest_nvs (n mv : Nat) (why : RailWhy) (s : State) : (railRequest n mv why s).nvs = s.nvs := by simp [railRequest, pmbNote]

@[simp] theorem rail_setReg (a : Nat) (w : Word) (s : State) (n : Nat) : rail (s.setReg a w) n = rail s n := by simp [rail]

@[simp] theorem rail_setFld (a hi lo v : Nat) (s : State) (n : Nat) : rail (s.setFld a hi lo v) n = rail s n := by simp [rail]

@[simp] theorem rail_raise (a b : Nat) (s : State) (n : Nat) : rail (s.raise a b) n = rail s n := by simp [rail]

@[simp] theorem rail_pmbNote (k cmd : Nat) (s : State) (n : Nat) : rail (pmbNote k cmd s) n = rail s n := by simp [pmbNote]

theorem rail_modRail (n : Nat) (f : Rail → Rail) (s : State) (m : Nat) (h : m < 8) :
    rail (s.modRail n f) m = if m = n then f (rail s m) else rail s m := by
  simp only [rail, State.modRail_pwr, vget_vmod]
  by_cases hm : m = n
  · subst hm; simp [h]
  · simp [hm]

/-- The rail whose voltage is asked has the request and the mantissa of the voltage; the others stay (R49, R53). -/
theorem rail_railRequest (n mv : Nat) (why : RailWhy) (s : State) (m : Nat) (h : m < 8) :
    rail (railRequest n mv why s) m =
      if m = n then { rail s m with req := some { mv := mv, why := why }, mantissa := mantissaOf (rail s m).exp mv } else rail s m := by
  unfold railRequest; rw [rail_pmbNote, rail_modRail _ _ _ _ h]

end Sys2Proof.Machine
end

