-- ==== Sys2Proof/Laws/Power.lean ====
section
/-!
SUPPORT. What the shared operations of the PWR block do: the record of a wake, a climb that begins or fails, a wake source.
-/

set_option linter.all false
set_option Elab.async false

namespace Sys2Proof.Machine

/-- A wake that is the first of its tick is recorded whole (R66). -/
theorem recordWake_fresh (src cmd : Nat) (s : State) (h : s.pwr.wakeAt ≠ some s.time.aon) :
    (recordWake src cmd s).reg Reg.PWR_AON_LAST_WAKE = pk [(8, cmd), (0, src)] ∧
    (recordWake src cmd s).reg Reg.PWR_AON_LAST_WAKE_TIME = BitVec.ofNat 32 (secOf s.time.aon) := by
  unfold recordWake; rw [if_neg h]
  simp [show Reg.PWR_AON_LAST_WAKE ≠ Reg.PWR_AON_LAST_WAKE_TIME by decide]

/-- Recording a wake changes the PWR block and registers alone. -/
theorem recordWake_kept (src cmd : Nat) (s : State) : Kept (fun p => decide (p ∈ [Part.pwr, .regs])) s (recordWake src cmd s) := recordWake_keeps rfl rfl (Kept.refl _ _)

/-- Of the PWR block, recording a wake changes the tick of the last wake alone. -/
theorem recordWake_pwr (src cmd : Nat) (s : State) : ∃ w, (recordWake src cmd s).pwr = { s.pwr with wakeAt := w } := by
  unfold recordWake; split
  · exact ⟨s.pwr.wakeAt, by simp⟩
  · exact ⟨some s.time.aon, by simp⟩

/-- Recording a wake changes two registers alone. -/
theorem recordWake_reg_ne (src cmd : Nat) (s : State) (a : Nat) (h1 : a ≠ Reg.PWR_AON_LAST_WAKE) (h2 : a ≠ Reg.PWR_AON_LAST_WAKE_TIME) :
    (recordWake src cmd s).reg a = s.reg a := by
  unfold recordWake; split <;> simp [h1, h2]

/-- What a final failure leaves (R50, R52): stage 0, no climb, the always-on registers, and its record. -/
theorem finalFailure_spec (st c n : Nat) (s : State) (hc : c < 16) : (finalFailure st c n s).pwr.stage = 0 ∧ (finalFailure st c n s).pwr.climb = .none ∧
    (∀ a, isAlwaysOn a = true → a ≠ Reg.PWR_AON_WAKE_FAIL → (finalFailure st c n s).reg a = s.reg a) ∧
    (finalFailure st c n s).reg Reg.PWR_AON_WAKE_FAIL = pk [(31, 1), (12, min 15 (s.fld Reg.PWR_AON_WAKE_FAIL 15 12 + 1)), (8, n), (4, c), (0, st)] := by
  unfold finalFailure; dsimp only
  refine ⟨by simp [coreOff], by simp [coreOff], fun a h1 h2 => ?_, by simp⟩
  rw [State.reg_setReg_ne _ _ h2, State.modBda_reg]; simp [State.reg, h1, coreOff]

/-- VALID and CAUSE of the record of a start that fails at once. -/
theorem failureRecord_fields (c : Nat) (x : Nat) (h : x < 16) : fld (pk [(31, 1), (12, x), (8, 0), (4, 8), (0, 1)]) 31 31 = 1 ∧ fld (pk [(31, 1), (12, x), (8, 0), (4, 8), (0, 1)]) 7 4 = 8 ∧
   fld (pk [(31, 1), (12, x), (8, 0), (4, 3), (0, 1)]) 31 31 = 1 ∧ fld (pk [(31, 1), (12, x), (8, 0), (4, 3), (0, 1)]) 7 4 = 3 := by
  revert x; decide

/-- A climb that begins (R42): it fails on a latched shutdown or a bad supply record, or asks for the rail of group 1. -/
theorem climbBegin_spec (hold : Bool) (s : State) :
    (climbBegin hold s).pwr.stage = (if s.thm.shutdown = true ∨ supplyRecord s = none then 0 else s.pwr.stage) ∧
    (∀ a, isAlwaysOn a = true → a ≠ Reg.PWR_AON_WAKE_FAIL → (climbBegin hold s).reg a = s.reg a) ∧
    (if s.thm.shutdown = true then (climbBegin hold s).pwr.climb = .none ∧ (climbBegin hold s).fld Reg.PWR_AON_WAKE_FAIL 31 31 = 1 ∧ (climbBegin hold s).fld Reg.PWR_AON_WAKE_FAIL 7 4 = 8
     else if supplyRecord s = none then (climbBegin hold s).pwr.climb = .none ∧ (climbBegin hold s).fld Reg.PWR_AON_WAKE_FAIL 31 31 = 1 ∧ (climbBegin hold s).fld Reg.PWR_AON_WAKE_FAIL 7 4 = 3
     else (climbBegin hold s).pwr.climb = .rails 1 ∧ (rail (climbBegin hold s) 0).req = some { mv := supplyMv s 0, why := .climb } ∧ (climbBegin hold s).pwr.shlHold = hold) := by
  have hx : min 15 (s.fld Reg.PWR_AON_WAKE_FAIL 15 12 + 1) < 16 := by omega
  unfold climbBegin
  by_cases h1 : s.thm.shutdown = true
  · obtain ⟨a1, a2, a3, a4⟩ := finalFailure_spec 1 8 0 s (by decide)
    simp only [h1, if_true, true_or]
    refine ⟨a1, a3, a2, ?_, ?_⟩
    · rw [State.fld, a4]; exact (failureRecord_fields 0 _ hx).1
    · rw [State.fld, a4]; exact (failureRecord_fields 0 _ hx).2.1
  · by_cases h2 : supplyRecord s = none
    · obtain ⟨a1, a2, a3, a4⟩ := finalFailure_spec 1 3 0 s (by decide)
      simp only [h1, h2, if_true, or_true, if_false, Option.isNone_none, Bool.false_eq_true]
      refine ⟨a1, a3, a2, ?_, ?_⟩
      · rw [State.fld, a4]; exact (failureRecord_fields 0 _ hx).2.2.1
      · rw [State.fld, a4]; exact (failureRecord_fields 0 _ hx).2.2.2
    · simp only [h1, h2, or_self, if_false, Option.isNone_iff_eq_none, reduceIte, Bool.false_eq_true]
      have e : ∀ x : State, requestGroup 1 x = railRequest 0 (supplyMv (x.modPwr (fun p => { p with climb := .rails 1 })) 0) .climb (x.modPwr (fun p => { p with climb := .rails 1 })) := by
        intro x; simp [requestGroup, railGroup, forAll]
      rw [e]
      refine ⟨by simp [railRequest, pmbNote], ?_, by simp [railRequest, pmbNote], ?_, by simp [railRequest, pmbNote]⟩
      · intro a ha h3
        have : a ≠ Reg.PWR_PMB_STATUS := by rintro rfl; revert ha; decide
        simp [railRequest, pmbNote, this]
      · rw [rail_railRequest _ _ _ _ _ (by decide)]
        simp; exact supplyMv_congr (by simp) 0

/-- A wake source does nothing with RST_N low, in Off, or disabled. -/
theorem wake_nothing (src cmd : Nat) (s : State) (h : s.pins.rstLow = true ∨ s.pwr.off = true ∨ wakeEnabled s src = false) : wake src cmd s = s := by
  unfold wake; rw [if_pos]; rcases h with h | h | h <;> simp [h]

/-- A device that rests is powered. -/
theorem resting_on (s : State) (h : resting s ≠ .other) : s.pwr.off = false := by
  by_contra hc; simp at hc; exact h (by simp [resting, hc])

/-- A wake from Sentinel records itself and begins a climb. -/
theorem wake_sentinel_eq (src cmd : Nat) (s : State) (h1 : s.pins.rstLow = false) (h2 : wakeEnabled s src = true) (h3 : resting s = .sentinel) :
    wake src cmd s = climbBegin (cmd == 2) (recordWake src cmd s) := by
  unfold wake; simp [h1, h2, h3, resting_on s (by simp [h3])]

/-- A wake from Doze asks VCORE of the level in force (R60). -/
theorem wake_from_doze (src cmd : Nat) (s : State) (h1 : s.pins.rstLow = false) (h2 : wakeEnabled s src = true) (h3 : resting s = .doze) :
    (wake src cmd s).pwr.leavingDoze = true ∧ (wake src cmd s).pwr.stage = s.pwr.stage ∧
          (rail (wake src cmd s) 1).req = some { mv := vcoreNominal s.pwr.level, why := .dozeExit } ∧ changedOnly [.pwr, .regs, .syn] s (wake src cmd s) := by
  have e : wake src cmd s = railRequest 1 (vcoreNominal s.pwr.level) .dozeExit ((relockBegin (recordWake src cmd s)).modPwr (fun p => { p with leavingDoze := true })) := by
    unfold wake; simp [h1, h2, h3, resting_on s (by simp [h3])]
  obtain ⟨w, hw⟩ := recordWake_pwr src cmd s
  rw [e]
  refine ⟨by simp [railRequest, pmbNote], by simp [railRequest, pmbNote, relockBegin, hw], ?_, ?_⟩
  · rw [rail_railRequest _ _ _ _ _ (by decide)]; simp
  · exact (railRequest_keeps rfl rfl (modPwr_keeps rfl (relockBegin_keeps rfl (recordWake_keeps rfl rfl (Kept.refl _ _))))).changedOnly

/-- A device that rests in Sentinel stands at stage 0 with no climb. -/
theorem resting_sentinel (s : State) (h : resting s = .sentinel) : s.pwr.stage = 0 ∧ s.pwr.climb = .none := by
  unfold resting at h; split at h; · cases h
  split at h; · cases h
  split at h
  · split at h
    · exact ⟨‹_›, ‹_›⟩
    · cases h
  · split at h <;> cases h

/-- What a wake from Sentinel leaves (R65, R66, R42). -/
theorem wake_from_sentinel (src cmd : Nat) (s : State) (h1 : s.pins.rstLow = false) (h2 : wakeEnabled s src = true) (h3 : resting s = .sentinel) :
   let t := wake src cmd s
   t.pwr.stage = 0 ∧ (s.pwr.wakeAt ≠ some s.time.aon → t.reg Reg.PWR_AON_LAST_WAKE = pk [(8, cmd), (0, src)] ∧
          t.reg Reg.PWR_AON_LAST_WAKE_TIME = BitVec.ofNat 32 (secOf s.time.aon)) ∧
          (∀ a, isAlwaysOn a = true → a ≠ Reg.PWR_AON_WAKE_FAIL → a ≠ Reg.PWR_AON_LAST_WAKE → a ≠ Reg.PWR_AON_LAST_WAKE_TIME → t.reg a = s.reg a) ∧
          (if s.thm.shutdown = true then t.pwr.climb = .none ∧ t.fld Reg.PWR_AON_WAKE_FAIL 31 31 = 1 ∧ t.fld Reg.PWR_AON_WAKE_FAIL 7 4 = 8
           else if supplyRecord s = none then t.pwr.climb = .none ∧ t.fld Reg.PWR_AON_WAKE_FAIL 31 31 = 1 ∧ t.fld Reg.PWR_AON_WAKE_FAIL 7 4 = 3
           else t.pwr.climb = .rails 1 ∧ (rail t 0).req = some { mv := supplyMv s 0, why := .climb } ∧ t.pwr.shlHold = (cmd == 2)) := by
  intro t
  obtain ⟨c1, c2, c3⟩ := climbBegin_spec (cmd == 2) (recordWake src cmd s)
  have K := recordWake_kept src cmd s
  obtain ⟨w, hw⟩ := recordWake_pwr src cmd s
  have e : t = climbBegin (cmd == 2) (recordWake src cmd s) := wake_sentinel_eq src cmd s h1 h2 h3
  rw [supplyRecord_congr (K.nvs rfl), K.thm rfl, supplyMv_congr (K.nvs rfl)] at c3
  rw [e]
  refine ⟨?_, fun hf => ?_, ?_, c3⟩
  · rw [c1]; simp [hw, (resting_sentinel s h3).1]
  · obtain ⟨r1, r2⟩ := recordWake_fresh src cmd s hf
    rw [c2 _ (by decide) (by decide), c2 _ (by decide) (by decide)]; exact ⟨r1, r2⟩
  · intro a h4 h5 h6 h7
    rw [c2 a h4 h5, recordWake_reg_ne _ _ _ _ h6 h7]

end Sys2Proof.Machine
end

