-- ==== Sys2Proof/Tests/Slice0.lean ====
section
/-!
SUPPORT. The model's own tests: the well-formedness checks refuse ill-formed commands, the worked examples of the spec, and a witness for
each statement that has hypotheses.
-/

set_option linter.all false
set_option Elab.async false

open Sys2Proof Sys2Proof.Machine

/-! ### Well-formedness: each check refuses an ill-formed command -/

theorem test_wf_smbalert : (Instr.smbalert []).wf = false := by decide
theorem test_wf_telemetry : (Instr.pmbusTelemetryPoll [(0, 0)]).wf = false := by decide
theorem test_wf_cadence : (Instr.cadenceReport []).wf = false := by decide
theorem test_wf_licence : (Instr.licencePowerWindow [some 0]).wf = false := by decide
theorem test_wf_thermal : (Instr.thermalSample 0 (List.replicate 8 none)).wf = false := by decide
theorem test_wf_trig_in : (Instr.trigInEdge true (0, [])).wf = false := by decide
theorem test_wf_port : (Instr.portL0 4 []).wf = false := by decide
theorem test_wf_section_empty : (Instr.ulSectionSend 0 0 0 [] {}).wf = false := by decide
theorem test_wf_section_long : (Instr.ulSectionSend 0 0 256 [] {}).wf = false := by decide
theorem test_wf_power_fail : (Instr.powerFailWarning true 4097).wf = false := by decide
theorem test_wf_read_incr : (Instr.readIncr [0, 0, 0, 0, 0] 2 []).wf = false := by decide
theorem test_wf_read_fixed : (Instr.readFixed [0, 0, 0, 0, 0] 2 []).wf = false := by decide
theorem test_wf_write_incr : (Instr.writeIncr (some 0x30) []).wf = false := by decide
theorem test_wf_write_incr_ok : (Instr.writeIncr (some 0x40) []).wf = true := by decide
theorem test_wf_overload_i : (Instr.overloadMs 0 1 2 2).wf = false := by decide
theorem test_wf_overload_q : (Instr.overloadMs 0 2 1 2).wf = false := by decide
/-- The body of a control message is at most 65,535 bytes. -/
theorem test_wf_body : sized 0 2 [0, 0, 0] = false := by decide

/-! ### Reset (the Reset columns of Tables 2-9, 9-6, 11-7 and 17-6) -/

theorem test_reset_glb_id : State.reset.reg Reg.GLB_ID = 0x64720001 := by decide
theorem test_reset_ptp_cfg : State.reset.reg Reg.TIM_PTP_CFG = 0x18000003 := by decide
theorem test_reset_memory : Memory.wf State.reset = true := by decide

/-! ### The worked example of R444 -/

/-- A device in Service at PL0 with DUMMY at 2. -/
def Sys2Proof.Machine.inService : State :=
  { State.reset with pwr := { State.reset.pwr with stage := 4, fwOk := true }
                     pstate := .service
                     regs := [(Reg.GLB_SPI_CFG, 2), (Reg.PWR_STAGE_CTRL, 1)] }

set_option maxRecDepth 8000 in
theorem test_spi_read : (match exec (.readIncr [0, 0, 1, 0] 6 []) inService with
    | .next t => t.glb.spiOut
    | .fault _ | .refused _ => []) = [0x20, 0, 0, 0, 0, 0, 0, 0xE4, 0, 0, 0] := by decide

theorem test_step_front : ({ State.reset with pending := [.wakeNLow] } : State).pending = .wakeNLow :: [] := rfl
/-- A state that meets the hypotheses of the last clause of RadioGroups. -/
theorem test_radio_groups_witness : State.reset.pending = [] ∧ State.reset.pwr.off = false ∧ State.reset.pwr.stage ≠ 0 := by decide
/-- A device at stage 3 whose port 0 is up. -/
def Sys2Proof.Machine.spokenTo : State :=
  { State.reset with pwr := { State.reset.pwr with stage := 3 }
                     lne := { State.reset.lne with ports := Vector.replicate 5 { vget State.reset.lne.ports 0 with state := .l0 } } }

/-- A Delay_Resp of domain 24 to its port 1. -/
def Sys2Proof.Machine.strayDelayResp : List Byte :=
  [0x09, 0x02, 0, 54, 24] ++ List.replicate 39 0 ++ [0, 0, 0, 0xFF, 0xFE, 0, 0, 0, 0, 1]

set_option maxRecDepth 8000 in
/-- They meet the hypotheses of DelayRespSequence. -/
theorem test_delay_resp_witness : ptpType strayDelayResp = 9 ∧ ptpHears spokenTo 0 = true ∧ 34 ≤ strayDelayResp.length ∧
    ptpMalformed strayDelayResp = false ∧ byteAt strayDelayResp 4 = spokenTo.fld Reg.TIM_PTP_CFG 31 24 ∧
    be strayDelayResp 44 8 = ownIdentity spokenTo ∧ be strayDelayResp 52 2 = 1 ∧
    (vget spokenTo.tim.ports 0).req = none := by decide
/-- A register, a word and a state that meet the hypotheses of LockedRegisters. -/
theorem test_locked_witness : (findRow Reg.THM_CFG).map (·.access) = some .rwl ∧
    State.served { State.reset with pwr := { State.reset.pwr with stage := 3 } } Reg.THM_CFG = true := by decide
end

section
/-!
SUPPORT. What every command keeps: the parts of the state that its list leaves out.
-/

namespace Sys2Proof.Machine

/-- Every command answers a next state in which every part but those its list names is as it was. -/
theorem exec_keeps (c : Instr) (s : State) : OutKept (fun p => decide (p ∈ touched c)) s (exec c s) := by
  cases c with
  | vsenRise => exact execVsenRise_keeps rfl rfl rfl rfl rfl rfl rfl rfl rfl rfl rfl rfl rfl rfl rfl rfl rfl rfl rfl rfl rfl rfl rfl rfl rfl rfl (Kept.refl _ _)
  | vsenFall => exact execVsenFall_keeps rfl rfl rfl rfl rfl rfl rfl rfl rfl rfl rfl rfl rfl rfl rfl rfl rfl rfl rfl rfl rfl rfl rfl rfl rfl rfl (Kept.refl _ _)
  | powerFailWarning => exact execPowerFailWarning_keeps rfl rfl (Kept.refl _ _)
  | xtalOk => exact execXtalOk_keeps rfl (Kept.refl _ _)
  | rstNAssert => exact execRstNAssert_keeps rfl rfl rfl rfl rfl rfl rfl rfl rfl rfl rfl rfl rfl rfl rfl rfl rfl rfl rfl rfl rfl rfl rfl rfl rfl rfl (Kept.refl _ _)
  | rstNRelease => exact execRstNRelease_keeps rfl (Kept.refl _ _)
  | shielingFrame => exact execShielingFrame_keeps rfl rfl rfl rfl rfl rfl rfl rfl rfl rfl rfl rfl rfl rfl rfl rfl rfl rfl rfl rfl rfl rfl rfl rfl rfl rfl (Kept.refl _ _)
  | wakeNLow => exact execWakeNLow_keeps rfl rfl rfl rfl rfl rfl rfl rfl rfl rfl rfl rfl rfl rfl rfl rfl rfl rfl rfl rfl rfl rfl rfl rfl rfl rfl (Kept.refl _ _)
  | aonTimerAlarm => exact execAonTimerAlarm_keeps rfl rfl rfl rfl rfl rfl rfl rfl rfl rfl rfl rfl rfl rfl rfl rfl rfl rfl rfl rfl rfl rfl rfl rfl rfl rfl (Kept.refl _ _)
  | spiChipSelectWake => exact execSpiChipSelectWake_keeps rfl rfl rfl rfl rfl rfl rfl rfl rfl rfl rfl rfl rfl rfl rfl rfl rfl rfl rfl rfl rfl rfl rfl rfl rfl rfl (Kept.refl _ _)
  | fronthaulSignalDetect => exact execFronthaulSignalDetect_keeps rfl rfl rfl rfl rfl rfl rfl rfl rfl rfl rfl rfl rfl rfl rfl rfl rfl rfl rfl rfl rfl rfl rfl rfl rfl rfl (Kept.refl _ _)
  | thermalWakeCrossing => exact execThermalWakeCrossing_keeps rfl rfl rfl rfl rfl rfl rfl rfl rfl rfl rfl rfl rfl rfl rfl rfl rfl rfl rfl rfl rfl rfl rfl rfl rfl rfl (Kept.refl _ _)
  | pmbusTransactionDone => exact execPmbusTransactionDone_keeps rfl rfl rfl rfl rfl rfl rfl rfl rfl rfl rfl rfl rfl rfl rfl rfl rfl rfl rfl rfl rfl rfl rfl rfl rfl rfl (Kept.refl _ _)
  | pmbusAttemptFailed => exact execPmbusAttemptFailed_keeps rfl rfl rfl rfl rfl rfl rfl rfl rfl rfl rfl rfl rfl rfl rfl rfl rfl rfl rfl rfl rfl rfl rfl rfl rfl rfl (Kept.refl _ _)
  | railRetry => exact execRailRetry_keeps rfl rfl (Kept.refl _ _)
  | smbalert => exact execSmbalert_keeps rfl rfl rfl rfl rfl rfl rfl rfl rfl rfl rfl rfl rfl rfl rfl rfl rfl rfl rfl rfl rfl rfl rfl rfl rfl rfl (Kept.refl _ _)
  | railFault => exact execRailFault_keeps rfl rfl rfl rfl rfl rfl rfl rfl rfl rfl rfl rfl rfl rfl rfl rfl rfl rfl rfl rfl rfl rfl rfl rfl rfl rfl (Kept.refl _ _)
  | pmbusTelemetryPoll => exact execPmbusTelemetryPoll_keeps rfl rfl (Kept.refl _ _)
  | refCheckWindowDone => exact execRefCheckWindowDone_keeps rfl (Kept.refl _ _)
  | refCheckTimeout => exact execRefCheckTimeout_keeps rfl rfl rfl rfl rfl rfl rfl rfl rfl rfl rfl rfl rfl rfl rfl rfl rfl rfl rfl rfl rfl rfl rfl rfl rfl rfl (Kept.refl _ _)
  | firmwareImageVerified => exact execFirmwareImageVerified_keeps rfl rfl rfl rfl rfl rfl rfl rfl rfl rfl rfl rfl rfl rfl rfl rfl rfl rfl rfl rfl rfl rfl rfl rfl rfl rfl (Kept.refl _ _)
  | linkWaitExpiry => exact execLinkWaitExpiry_keeps rfl rfl rfl rfl rfl rfl rfl rfl rfl rfl rfl rfl rfl rfl rfl rfl rfl rfl rfl rfl rfl rfl rfl rfl rfl rfl (Kept.refl _ _)
  | stageClimb => exact execStageClimb_keeps rfl rfl rfl rfl rfl rfl rfl rfl rfl rfl rfl rfl rfl rfl rfl rfl rfl rfl rfl rfl rfl rfl rfl rfl rfl rfl (Kept.refl _ _)
  | stage4Entry => exact execStage4Entry_keeps rfl rfl rfl rfl (Kept.refl _ _)
  | release => exact execRelease_keeps rfl rfl rfl rfl rfl rfl rfl (Kept.refl _ _)
  | climb => exact execClimb_keeps rfl rfl (Kept.refl _ _)
  | gotoSafe => exact execGotoSafe_keeps rfl rfl rfl rfl rfl rfl rfl rfl rfl rfl rfl rfl rfl rfl rfl rfl rfl rfl rfl rfl rfl rfl rfl rfl rfl rfl (Kept.refl _ _)
  | stage4ExitComplete => exact execStage4ExitComplete_keeps rfl rfl rfl rfl rfl rfl rfl rfl rfl rfl rfl (Kept.refl _ _)
  | pwrLevelReq => exact execPwrLevelReq_keeps rfl rfl rfl rfl (Kept.refl _ _)
  | levelChangePoint => exact execLevelChangePoint_keeps rfl rfl rfl rfl rfl rfl rfl rfl rfl rfl (Kept.refl _ _)
  | cadenceReport => exact execCadenceReport_keeps rfl rfl rfl (Kept.refl _ _)
  | vtrimStepDown => exact execVtrimStepDown_keeps rfl rfl (Kept.refl _ _)
  | cadenceSlip => exact execCadenceSlip_keeps rfl rfl rfl rfl (Kept.refl _ _)
  | pwrStateReqDoze => exact execPwrStateReqDoze_keeps rfl rfl rfl rfl rfl rfl rfl rfl rfl rfl rfl rfl rfl rfl rfl rfl rfl rfl rfl rfl rfl rfl rfl rfl rfl rfl (Kept.refl _ _)
  | pwrStateReqSentinel => exact execPwrStateReqSentinel_keeps rfl rfl rfl rfl rfl rfl rfl rfl rfl rfl rfl rfl rfl rfl rfl rfl rfl rfl rfl rfl rfl rfl rfl rfl rfl rfl (Kept.refl _ _)
  | sleepStepDone => exact execSleepStepDone_keeps rfl rfl rfl rfl rfl rfl rfl rfl rfl rfl rfl rfl rfl rfl rfl rfl rfl rfl rfl rfl rfl rfl rfl rfl rfl rfl (Kept.refl _ _)
  | autoDoze => exact execAutoDoze_keeps rfl rfl rfl rfl rfl rfl rfl rfl rfl rfl rfl rfl rfl rfl rfl rfl rfl rfl rfl rfl rfl rfl rfl rfl rfl rfl (Kept.refl _ _)
  | dozeExitDone => exact execDozeExitDone_keeps rfl rfl rfl rfl rfl rfl rfl rfl rfl rfl rfl rfl rfl rfl (Kept.refl _ _)
  | pwrAonWakeFailClear => exact execPwrAonWakeFailClear_keeps rfl (Kept.refl _ _)
  | pwrAonShlCfgWrite => exact execPwrAonShlCfgWrite_keeps rfl rfl (Kept.refl _ _)
  | wrpDataWrite => exact execWrpDataWrite_keeps rfl rfl rfl (Kept.refl _ _)
  | wrpLoad => exact execWrpLoad_keeps rfl rfl rfl rfl (Kept.refl _ _)
  | wrpAbort => exact execWrpAbort_keeps rfl rfl rfl (Kept.refl _ _)
  | wrpClear => exact execWrpClear_keeps rfl (Kept.refl _ _)
  | qspiWarpLoad => exact execQspiWarpLoad_keeps rfl rfl rfl rfl (Kept.refl _ _)
  | spindlesLoaded => exact execSpindlesLoaded_keeps rfl rfl rfl rfl rfl rfl rfl rfl rfl rfl rfl rfl rfl rfl rfl rfl rfl rfl rfl rfl (Kept.refl _ _)
  | reweaveSwitch => exact execReweaveSwitch_keeps rfl rfl rfl rfl rfl rfl rfl rfl rfl rfl rfl (Kept.refl _ _)
  | spindleSelfTestFail => exact execSpindleSelfTestFail_keeps rfl rfl rfl (Kept.refl _ _)
  | testVectorFail => exact execTestVectorFail_keeps rfl rfl rfl (Kept.refl _ _)
  | weaverJobStart => exact execWeaverJobStart_keeps rfl rfl rfl (Kept.refl _ _)
  | shadowCompareDone => exact execShadowCompareDone_keeps rfl rfl rfl (Kept.refl _ _)
  | reserveHandover => exact execReserveHandover_keeps rfl rfl rfl rfl (Kept.refl _ _)
  | fallbackConversion => exact execFallbackConversion_keeps rfl rfl rfl rfl (Kept.refl _ _)
  | groupBoundary => exact execGroupBoundary_keeps rfl rfl rfl rfl rfl rfl rfl rfl rfl rfl rfl rfl rfl rfl (Kept.refl _ _)
  | pthTxAttenWrite => exact execPthTxAttenWrite_keeps rfl rfl (Kept.refl _ _)
  | pthRxAttenWrite => exact execPthRxAttenWrite_keeps rfl rfl (Kept.refl _ _)
  | pthTrimUserWrite => exact execPthTrimUserWrite_keeps rfl rfl (Kept.refl _ _)
  | txMute => exact execTxMute_keeps rfl rfl (Kept.refl _ _)
  | rxZero => exact execRxZero_keeps rfl (Kept.refl _ _)
  | invSincOff => exact execInvSincOff_keeps rfl (Kept.refl _ _)
  | clearOcp => exact execClearOcp_keeps rfl (Kept.refl _ _)
  | shadowBlockDone => exact execShadowBlockDone_keeps rfl rfl rfl rfl rfl rfl rfl rfl rfl rfl (Kept.refl _ _)
  | shadowPassDone => exact execShadowPassDone_keeps rfl rfl rfl rfl rfl rfl rfl rfl rfl rfl (Kept.refl _ _)
  | adcStuckDetect => exact execAdcStuckDetect_keeps rfl rfl rfl rfl rfl rfl rfl rfl rfl rfl (Kept.refl _ _)
  | dacSegmentMeasured => exact execDacSegmentMeasured_keeps rfl rfl rfl rfl rfl rfl rfl rfl rfl rfl (Kept.refl _ _)
  | dacBinaryFail => exact execDacBinaryFail_keeps rfl rfl rfl rfl rfl rfl rfl rfl rfl rfl (Kept.refl _ _)
  | ocpTrip => exact execOcpTrip_keeps rfl rfl rfl rfl rfl rfl rfl rfl rfl rfl (Kept.refl _ _)
  | overloadMs => exact execOverloadMs_keeps rfl rfl (Kept.refl _ _)
  | refLost => exact execRefLost_keeps rfl rfl rfl rfl rfl rfl (Kept.refl _ _)
  | standbyRefCheck => exact execStandbyRefCheck_keeps rfl rfl rfl rfl rfl rfl (Kept.refl _ _)
  | holdoverExpiry => exact execHoldoverExpiry_keeps rfl rfl rfl rfl rfl rfl rfl rfl rfl rfl (Kept.refl _ _)
  | synRefSelWrite => exact execSynRefSelWrite_keeps rfl rfl rfl rfl rfl rfl (Kept.refl _ _)
  | lockDeclared => exact execLockDeclared_keeps rfl rfl rfl rfl rfl rfl rfl rfl rfl (Kept.refl _ _)
  | lossOfLock => exact execLossOfLock_keeps rfl rfl rfl rfl rfl rfl rfl rfl rfl rfl (Kept.refl _ _)
  | cnvLossOfLock => exact execCnvLossOfLock_keeps rfl rfl rfl rfl rfl rfl rfl rfl rfl rfl (Kept.refl _ _)
  | bandSearchStart => exact execBandSearchStart_keeps rfl (Kept.refl _ _)
  | loLatched => exact execLoLatched_keeps rfl rfl rfl rfl rfl rfl (Kept.refl _ _)
  | rfUnitFailed => exact execRfUnitFailed_keeps rfl rfl rfl rfl rfl rfl (Kept.refl _ _)
  | synthSwapDone => exact execSynthSwapDone_keeps rfl rfl rfl rfl rfl rfl rfl (Kept.refl _ _)
  | reserveProving => exact execReserveProving_keeps rfl rfl rfl (Kept.refl _ _)
  | vcoCalGapStart => exact execVcoCalGapStart_keeps rfl rfl rfl rfl rfl rfl rfl rfl (Kept.refl _ _)
  | vcoCalDone => exact execVcoCalDone_keeps rfl rfl rfl rfl rfl rfl (Kept.refl _ _)
  | synCalWaitLong => exact execSynCalWaitLong_keeps rfl rfl (Kept.refl _ _)
  | resume => exact execResume_keeps rfl (Kept.refl _ _)
  | resumeCnv => exact execResumeCnv_keeps rfl (Kept.refl _ _)
  | vcocal => exact execVcocal_keeps rfl rfl rfl rfl rfl rfl rfl rfl (Kept.refl _ _)
  | swap => exact execSwap_keeps rfl rfl rfl rfl rfl rfl rfl rfl (Kept.refl _ _)
  | synPhaseWrite => exact execSynPhaseWrite_keeps rfl rfl (Kept.refl _ _)
  | skeinMemoryWrite => exact execSkeinMemoryWrite_keeps rfl (Kept.refl _ _)
  | sknSwitchCtrlGo => exact execSknSwitchCtrlGo_keeps rfl rfl rfl rfl (Kept.refl _ _)
  | swapStart => exact execSwapStart_keeps rfl rfl rfl rfl rfl (Kept.refl _ _)
  | plyEnd => exact execPlyEnd_keeps rfl rfl (Kept.refl _ _)
  | sknReportPop => exact execSknReportPop_keeps rfl (Kept.refl _ _)
  | fftJobSubmit => exact execFftJobSubmit_keeps rfl rfl (Kept.refl _ _)
  | fftJobStart => exact execFftJobStart_keeps rfl rfl rfl rfl (Kept.refl _ _)
  | fftJobDone => exact execFftJobDone_keeps rfl rfl rfl rfl (Kept.refl _ _)
  | dpdSwitchCtrlGo => exact execDpdSwitchCtrlGo_keeps rfl rfl rfl (Kept.refl _ _)
  | dpdPathCfgWrite => exact execDpdPathCfgWrite_keeps rfl rfl rfl (Kept.refl _ _)
  | dpdCoeffMemoryWrite => exact execDpdCoeffMemoryWrite_keeps rfl rfl rfl (Kept.refl _ _)
  | dpdPathDue => exact execDpdPathDue_keeps rfl (Kept.refl _ _)
  | obsVisitDone => exact execObsVisitDone_keeps rfl rfl rfl (Kept.refl _ _)
  | obsHolderGrant => exact execObsHolderGrant_keeps rfl rfl rfl rfl rfl rfl rfl (Kept.refl _ _)
  | solveStart => exact execSolveStart_keeps rfl rfl (Kept.refl _ _)
  | solveDone => exact execSolveDone_keeps rfl rfl rfl (Kept.refl _ _)
  | dpdVerificationDone => exact execDpdVerificationDone_keeps rfl rfl rfl (Kept.refl _ _)
  | dpdStale => exact execDpdStale_keeps rfl (Kept.refl _ _)
  | dpdSurveyCtrlGo => exact execDpdSurveyCtrlGo_keeps rfl rfl (Kept.refl _ _)
  | surveyDone => exact execSurveyDone_keeps rfl rfl rfl (Kept.refl _ _)
  | surveyAbort => exact execSurveyAbort_keeps rfl rfl rfl (Kept.refl _ _)
  | radGroupCmd => exact execRadGroupCmd_keeps rfl rfl rfl rfl rfl rfl (Kept.refl _ _)
  | radBurstCtrlGo => exact execRadBurstCtrlGo_keeps rfl rfl rfl rfl rfl rfl (Kept.refl _ _)
  | burstPreparation => exact execBurstPreparation_keeps rfl rfl (Kept.refl _ _)
  | groupTransitionDone => exact execGroupTransitionDone_keeps rfl rfl (Kept.refl _ _)
  | burstStart => exact execBurstStart_keeps rfl rfl rfl rfl rfl rfl rfl (Kept.refl _ _)
  | burstEnd => exact execBurstEnd_keeps rfl rfl rfl rfl rfl rfl (Kept.refl _ _)
  | radReportPop => exact execRadReportPop_keeps rfl (Kept.refl _ _)
  | radLineCfgWrite => exact execRadLineCfgWrite_keeps rfl (Kept.refl _ _)
  | rffeImmediateCmd => exact execRffeImmediateCmd_keeps rfl rfl (Kept.refl _ _)
  | rffeTimedCmd => exact execRffeTimedCmd_keeps rfl rfl (Kept.refl _ _)
  | rffeTimedFrameSend => exact execRffeTimedFrameSend_keeps rfl rfl (Kept.refl _ _)
  | rffeFrameDone => exact execRffeFrameDone_keeps rfl rfl (Kept.refl _ _)
  | nvsPastDataWrite => exact execNvsPastDataWrite_keeps rfl rfl rfl (Kept.refl _ _)
  | pastureWrite => exact execPastureWrite_keeps rfl rfl rfl (Kept.refl _ _)
  | pastureClear => exact execPastureClear_keeps rfl (Kept.refl _ _)
  | licencePowerWindow => exact execLicencePowerWindow_keeps rfl rfl rfl (Kept.refl _ _)
  | licenceAttenRelax => exact execLicenceAttenRelax_keeps rfl rfl (Kept.refl _ _)
  | portStepTimeout => exact execPortStepTimeout_keeps rfl rfl rfl rfl rfl (Kept.refl _ _)
  | portBringupRestart => exact execPortBringupRestart_keeps rfl rfl rfl rfl (Kept.refl _ _)
  | portL0 => exact execPortL0_keeps rfl rfl rfl rfl rfl rfl rfl (Kept.refl _ _)
  | suspectLane => exact execSuspectLane_keeps rfl rfl rfl rfl rfl (Kept.refl _ _)
  | lnePortState => exact execLnePortState_keeps rfl rfl rfl rfl (Kept.refl _ _)
  | hold => exact execHold_keeps rfl rfl (Kept.refl _ _)
  | holdClear => exact execHoldClear_keeps rfl rfl rfl (Kept.refl _ _)
  | retrain => exact execRetrain_keeps rfl rfl rfl rfl (Kept.refl _ _)
  | lneTxEqWrite => exact execLneTxEqWrite_keeps rfl rfl (Kept.refl _ _)
  | lneTestCtrlWrite => exact execLneTestCtrlWrite_keeps rfl rfl rfl (Kept.refl _ _)
  | laneErrorWindow => exact execLaneErrorWindow_keeps rfl rfl rfl rfl (Kept.refl _ _)
  | cdrLoss => exact execCdrLoss_keeps rfl rfl rfl rfl (Kept.refl _ _)
  | swapLane => exact execSwapLane_keeps rfl rfl rfl rfl (Kept.refl _ _)
  | laneSwapDone => exact execLaneSwapDone_keeps rfl rfl rfl rfl rfl rfl rfl (Kept.refl _ _)
  | laneLoopbackDone => exact execLaneLoopbackDone_keeps rfl rfl (Kept.refl _ _)
  | portRetryTimer => exact execPortRetryTimer_keeps rfl rfl rfl rfl (Kept.refl _ _)
  | foldReserveDiscovery => exact execFoldReserveDiscovery_keeps rfl rfl rfl rfl (Kept.refl _ _)
  | quarRelease => exact execQuarRelease_keeps rfl rfl rfl (Kept.refl _ _)
  | ethernetFrameRx => exact execEthernetFrameRx_keeps rfl rfl rfl rfl rfl rfl rfl rfl rfl rfl rfl rfl rfl rfl rfl rfl (Kept.refl _ _)
  | iqSectionRx => exact execIqSectionRx_keeps rfl rfl rfl rfl (Kept.refl _ _)
  | lateSubstitution => exact execLateSubstitution_keeps rfl rfl rfl rfl (Kept.refl _ _)
  | ulSectionSend => exact execUlSectionSend_keeps rfl rfl (Kept.refl _ _)
  | ecpriDelayMeasurement => exact execEcpriDelayMeasurement_keeps rfl rfl rfl rfl rfl (Kept.refl _ _)
  | admitReq => exact execAdmitReq_keeps rfl rfl rfl rfl rfl rfl rfl rfl (Kept.refl _ _)
  | releaseSlots => exact execReleaseSlots_keeps rfl rfl rfl rfl rfl rfl rfl rfl (Kept.refl _ _)
  | withdraw => exact execWithdraw_keeps rfl rfl rfl rfl rfl rfl rfl rfl (Kept.refl _ _)
  | skeinWrite => exact execSkeinWrite_keeps rfl rfl rfl rfl rfl rfl rfl rfl (Kept.refl _ _)
  | swapReq => exact execSwapReq_keeps rfl rfl rfl rfl rfl rfl rfl rfl (Kept.refl _ _)
  | burstReq => exact execBurstReq_keeps rfl rfl rfl rfl rfl rfl rfl rfl (Kept.refl _ _)
  | capsReq => exact execCapsReq_keeps rfl rfl rfl rfl rfl rfl rfl rfl (Kept.refl _ _)
  | arbitrationEpochEnd => exact execArbitrationEpochEnd_keeps rfl rfl rfl rfl rfl rfl rfl rfl rfl rfl rfl rfl (Kept.refl _ _)
  | slotEffectiveTime => exact execSlotEffectiveTime_keeps rfl rfl rfl (Kept.refl _ _)
  | queueLimitExpiry => exact execQueueLimitExpiry_keeps rfl rfl rfl rfl rfl rfl rfl rfl rfl rfl (Kept.refl _ _)
  | deferWindowExpiry => exact execDeferWindowExpiry_keeps rfl rfl (Kept.refl _ _)
  | flockQuarantineOn => exact execFlockQuarantineOn_keeps rfl rfl rfl (Kept.refl _ _)
  | flockQuarantineOff => exact execFlockQuarantineOff_keeps rfl rfl (Kept.refl _ _)
  | releaseAll => exact execReleaseAll_keeps rfl rfl rfl (Kept.refl _ _)
  | ptpAnnounceRx => exact execPtpAnnounceRx_keeps rfl rfl rfl rfl rfl rfl rfl rfl rfl rfl rfl rfl rfl rfl rfl rfl (Kept.refl _ _)
  | ptpSyncRx => exact execPtpSyncRx_keeps rfl rfl rfl rfl rfl rfl rfl rfl rfl rfl rfl rfl rfl rfl rfl rfl (Kept.refl _ _)
  | ptpFollowUpRx => exact execPtpFollowUpRx_keeps rfl rfl rfl rfl rfl rfl rfl rfl rfl rfl rfl rfl rfl rfl rfl rfl (Kept.refl _ _)
  | delayReqSend => exact execDelayReqSend_keeps rfl rfl rfl (Kept.refl _ _)
  | delayRespRx => exact execDelayRespRx_keeps rfl rfl rfl rfl rfl rfl rfl rfl rfl rfl rfl rfl rfl rfl rfl rfl (Kept.refl _ _)
  | syncTimeout => exact execSyncTimeout_keeps rfl rfl rfl rfl rfl rfl rfl (Kept.refl _ _)
  | announceTimeout => exact execAnnounceTimeout_keeps rfl rfl rfl rfl rfl rfl rfl (Kept.refl _ _)
  | holdSExpiry => exact execHoldSExpiry_keeps rfl rfl rfl rfl rfl rfl rfl (Kept.refl _ _)
  | followUpTimeout => exact execFollowUpTimeout_keeps rfl rfl rfl rfl rfl rfl rfl (Kept.refl _ _)
  | peerQuarRelease => exact execPeerQuarRelease_keeps rfl rfl rfl rfl rfl rfl rfl (Kept.refl _ _)
  | rearm => exact execRearm_keeps rfl rfl rfl rfl rfl rfl rfl (Kept.refl _ _)
  | snapshot => exact execSnapshot_keeps rfl (Kept.refl _ _)
  | tb3Decouple => exact execTb3Decouple_keeps rfl (Kept.refl _ _)
  | tb3Recouple => exact execTb3Recouple_keeps rfl rfl rfl (Kept.refl _ _)
  | txtsPop => exact execTxtsPop_keeps rfl (Kept.refl _ _)
  | clearOvf => exact execClearOvf_keeps rfl (Kept.refl _ _)
  | ppsInEdge => exact execPpsInEdge_keeps rfl (Kept.refl _ _)
  | hello => exact execHello_keeps rfl rfl rfl rfl rfl rfl rfl (Kept.refl _ _)
  | helloSend => exact execHelloSend_keeps rfl (Kept.refl _ _)
  | time => exact execTime_keeps rfl rfl rfl rfl rfl rfl rfl rfl rfl rfl rfl rfl rfl rfl rfl rfl (Kept.refl _ _)
  | timeSend => exact execTimeSend_keeps rfl (Kept.refl _ _)
  | echo => exact execEcho_keeps rfl rfl rfl rfl rfl rfl (Kept.refl _ _)
  | dlBlocks => exact execDlBlocks_keeps rfl rfl rfl rfl rfl rfl (Kept.refl _ _)
  | ulSums => exact execUlSums_keeps rfl rfl rfl rfl rfl rfl (Kept.refl _ _)
  | status => exact execStatus_keeps rfl rfl rfl rfl rfl rfl (Kept.refl _ _)
  | lane => exact execLane_keeps rfl rfl rfl rfl rfl rfl rfl (Kept.refl _ _)
  | controlSkein => exact execControlSkein_keeps rfl rfl rfl rfl rfl rfl rfl (Kept.refl _ _)
  | controlSwap => exact execControlSwap_keeps rfl rfl rfl rfl rfl rfl rfl (Kept.refl _ _)
  | controlBurst => exact execControlBurst_keeps rfl rfl rfl rfl rfl rfl (Kept.refl _ _)
  | controlSlot => exact execControlSlot_keeps rfl rfl rfl rfl rfl rfl (Kept.refl _ _)
  | controlWarp => exact execControlWarp_keeps rfl rfl rfl rfl rfl rfl (Kept.refl _ _)
  | controlCommit => exact execControlCommit_keeps rfl rfl rfl rfl rfl rfl rfl rfl (Kept.refl _ _)
  | controlVote => exact execControlVote_keeps rfl rfl rfl rfl rfl rfl rfl rfl rfl (Kept.refl _ _)
  | controlReport => exact execControlReport_keeps rfl rfl rfl rfl rfl rfl (Kept.refl _ _)
  | controlLevel => exact execControlLevel_keeps rfl rfl rfl rfl rfl rfl rfl (Kept.refl _ _)
  | controlIsolate => exact execControlIsolate_keeps rfl rfl rfl rfl rfl rfl (Kept.refl _ _)
  | voteTimeout => exact execVoteTimeout_keeps rfl rfl rfl (Kept.refl _ _)
  | tb2Timeout => exact execTb2Timeout_keeps rfl rfl rfl rfl rfl rfl (Kept.refl _ _)
  | stackStep => exact execStackStep_keeps rfl rfl rfl rfl rfl rfl rfl rfl rfl rfl rfl rfl rfl rfl rfl (Kept.refl _ _)
  | isolateDown => exact execIsolateDown_keeps rfl rfl rfl (Kept.refl _ _)
  | rejoin => exact execRejoin_keeps rfl (Kept.refl _ _)
  | arm => exact execArm_keeps rfl rfl (Kept.refl _ _)
  | disarm => exact execDisarm_keeps rfl rfl rfl rfl rfl rfl (Kept.refl _ _)
  | force => exact execForce_keeps rfl rfl (Kept.refl _ _)
  | trigInEdge => exact execTrigInEdge_keeps rfl rfl (Kept.refl _ _)
  | captureTrigger => exact execCaptureTrigger_keeps rfl rfl (Kept.refl _ _)
  | segmentEnd => exact execSegmentEnd_keeps rfl rfl rfl rfl rfl (Kept.refl _ _)
  | holdoffEnd => exact execHoldoffEnd_keeps rfl (Kept.refl _ _)
  | acqMonCfgWrite => exact execAcqMonCfgWrite_keeps rfl rfl (Kept.refl _ _)
  | dramTrainingStepDone => exact execDramTrainingStepDone_keeps rfl rfl rfl (Kept.refl _ _)
  | dramTrainingStart => exact execDramTrainingStart_keeps rfl (Kept.refl _ _)
  | dqsCheck => exact execDqsCheck_keeps rfl rfl rfl (Kept.refl _ _)
  | mr4Read => exact execMr4Read_keeps rfl rfl rfl (Kept.refl _ _)
  | refreshDue => exact execRefreshDue_keeps rfl (Kept.refl _ _)
  | neighbourRefresh => exact execNeighbourRefresh_keeps rfl rfl (Kept.refl _ _)
  | hostTrainLock => exact execHostTrainLock_keeps rfl rfl (Kept.refl _ _)
  | drcRetrain => exact execDrcRetrain_keeps rfl (Kept.refl _ _)
  | drcPatGo => exact execDrcPatGo_keeps rfl rfl rfl (Kept.refl _ _)
  | patternDone => exact execPatternDone_keeps rfl rfl (Kept.refl _ _)
  | drcFreqReq => exact execDrcFreqReq_keeps rfl rfl (Kept.refl _ _)
  | freqChangeDone => exact execFreqChangeDone_keeps rfl rfl rfl (Kept.refl _ _)
  | start => exact execStart_keeps rfl rfl rfl (Kept.refl _ _)
  | abort => exact execAbort_keeps rfl (Kept.refl _ _)
  | pause => exact execPause_keeps rfl rfl (Kept.refl _ _)
  | doorbell => exact execDoorbell_keeps rfl (Kept.refl _ _)
  | dmaProgramWrite => exact execDmaProgramWrite_keeps rfl (Kept.refl _ _)
  | move => exact execMove_keeps rfl rfl rfl rfl rfl (Kept.refl _ _)
  | loop => exact execLoop_keeps rfl rfl (Kept.refl _ _)
  | wait => exact execWait_keeps rfl rfl (Kept.refl _ _)
  | waitTimeout => exact execWaitTimeout_keeps rfl rfl (Kept.refl _ _)
  | signal => exact execSignal_keeps rfl rfl rfl rfl (Kept.refl _ _)
  | end_ => exact execEnd_keeps rfl rfl rfl rfl (Kept.refl _ _)
  | hkaConversionDone => exact execHkaConversionDone_keeps rfl rfl rfl rfl (Kept.refl _ _)
  | scan => exact execScan_keeps rfl rfl (Kept.refl _ _)
  | hkaTimerTick => exact execHkaTimerTick_keeps rfl rfl (Kept.refl _ _)
  | hkaUrgent => exact execHkaUrgent_keeps rfl rfl rfl (Kept.refl _ _)
  | hkaQueuePop => exact execHkaQueuePop_keeps rfl (Kept.refl _ _)
  | bdaLoad => exact execBdaLoad_keeps rfl rfl (Kept.refl _ _)
  | timedBiasLoad => exact execTimedBiasLoad_keeps rfl rfl (Kept.refl _ _)
  | bdaCodeWrite => exact execBdaCodeWrite_keeps rfl rfl (Kept.refl _ _)
  | releaseSafe => exact execReleaseSafe_keeps rfl rfl (Kept.refl _ _)
  | clearAllFaults => exact execClearAllFaults_keeps rfl (Kept.refl _ _)
  | bdaOutClear => exact execBdaOutClear_keeps rfl (Kept.refl _ _)
  | thermalSample => exact execThermalSample_keeps rfl rfl rfl rfl rfl rfl rfl rfl rfl rfl rfl rfl rfl rfl rfl rfl rfl rfl rfl rfl rfl rfl rfl rfl rfl rfl (Kept.refl _ _)
  | throttleStageFall => exact execThrottleStageFall_keeps rfl rfl (Kept.refl _ _)
  | tlUpdate => exact execTlUpdate_keeps rfl rfl rfl (Kept.refl _ _)
  | coarseComparator135 => exact execCoarseComparator135_keeps rfl rfl rfl rfl rfl rfl rfl rfl rfl rfl rfl rfl rfl rfl rfl rfl rfl rfl rfl rfl rfl rfl rfl rfl rfl rfl (Kept.refl _ _)
  | storeWriteDone => exact execStoreWriteDone_keeps rfl rfl rfl rfl rfl rfl (Kept.refl _ _)
  | nvsRecDataWrite => exact execNvsRecDataWrite_keeps rfl rfl rfl (Kept.refl _ _)
  | nvsRecWrite => exact execNvsRecWrite_keeps rfl rfl (Kept.refl _ _)
  | nvsRecClear => exact execNvsRecClear_keeps rfl (Kept.refl _ _)
  | nvsDataAccess => exact execNvsDataAccess_keeps rfl rfl rfl (Kept.refl _ _)
  | nvsCalReq => exact execNvsCalReq_keeps rfl rfl (Kept.refl _ _)
  | calIntervalStart => exact execCalIntervalStart_keeps rfl rfl rfl rfl rfl rfl rfl rfl (Kept.refl _ _)
  | calDone => exact execCalDone_keeps rfl rfl rfl rfl rfl rfl rfl (Kept.refl _ _)
  | nvsCalWaitLong => exact execNvsCalWaitLong_keeps rfl rfl (Kept.refl _ _)
  | droverCalRequest => exact execDroverCalRequest_keeps rfl (Kept.refl _ _)
  | dpdRecordWrite => exact execDpdRecordWrite_keeps rfl rfl (Kept.refl _ _)
  | powerupCalibration => exact execPowerupCalibration_keeps rfl rfl rfl rfl rfl rfl rfl rfl rfl rfl rfl rfl (Kept.refl _ _)
  | writeIncr => exact execWriteIncr_keeps rfl rfl rfl rfl rfl rfl rfl rfl rfl rfl rfl rfl rfl rfl rfl rfl rfl rfl rfl rfl rfl rfl rfl rfl rfl rfl (Kept.refl _ _)
  | writeFixed => exact execWriteFixed_keeps rfl rfl rfl rfl rfl rfl rfl rfl rfl rfl rfl rfl rfl rfl rfl rfl rfl rfl rfl rfl rfl rfl rfl rfl rfl rfl (Kept.refl _ _)
  | readIncr => exact execReadIncr_keeps rfl rfl rfl rfl rfl (Kept.refl _ _)
  | readFixed => exact execReadFixed_keeps rfl rfl rfl rfl rfl (Kept.refl _ _)
  | registerWrite => exact execRegisterWrite_keeps rfl rfl rfl rfl rfl rfl rfl rfl rfl rfl rfl rfl rfl rfl rfl rfl rfl rfl rfl rfl rfl rfl rfl rfl rfl rfl (Kept.refl _ _)
  | rcRegisterRead => exact execRcRegisterRead_keeps rfl rfl rfl rfl (Kept.refl _ _)
  | flashRead => exact execFlashRead_keeps rfl rfl (Kept.refl _ _)
  | flashProgram => exact execFlashProgram_keeps rfl rfl (Kept.refl _ _)
  | flashErase => exact execFlashErase_keeps rfl rfl (Kept.refl _ _)
  | flashVerify => exact execFlashVerify_keeps rfl rfl (Kept.refl _ _)
  | flashOpDone => exact execFlashOpDone_keeps rfl rfl (Kept.refl _ _)
  | glbDbgDataWrite => exact execGlbDbgDataWrite_keeps rfl rfl (Kept.refl _ _)
  | unlock => exact execUnlock_keeps rfl rfl rfl rfl (Kept.refl _ _)
  | dbgClear => exact execDbgClear_keeps rfl (Kept.refl _ _)
  | watchdogExpiry => exact execWatchdogExpiry_keeps rfl rfl rfl rfl rfl rfl rfl rfl (Kept.refl _ _)
  | adcCorrectionEstimate => exact execAdcCorrectionEstimate_keeps rfl rfl rfl rfl rfl rfl rfl rfl rfl rfl (Kept.refl _ _)
  | tuningVoltageLimit => exact execTuningVoltageLimit_keeps rfl rfl rfl rfl rfl rfl rfl rfl (Kept.refl _ _)
  | freqLockTimeout => exact execFreqLockTimeout_keeps rfl rfl (Kept.refl _ _)
  | waitDelayExpiry => exact execWaitDelayExpiry_keeps rfl (Kept.refl _ _)
  | waitPollRead => exact execWaitPollRead_keeps rfl rfl rfl rfl rfl (Kept.refl _ _)
  | ppsOut => exact execPpsOut_keeps rfl (Kept.refl _ _)
  | tickOut => exact execTickOut_keeps rfl (Kept.refl _ _)
  | sectionRelease => exact execSectionRelease_keeps rfl rfl rfl (Kept.refl _ _)
  | ulPairSend => exact execUlPairSend_keeps rfl rfl rfl (Kept.refl _ _)
  | hopTimeMissed => exact execHopTimeMissed_keeps rfl rfl rfl rfl rfl rfl (Kept.refl _ _)

end Sys2Proof.Machine
end

section
/-!
SUPPORT. The stage: which operations leave the PWR block or its stage alone, which lead to another stage, and that only the climb from stage
1 leads to stage 2.
-/

namespace Sys2Proof.Machine

/-! ### Operations that leave the PWR block -/

/-- Every part of the state but the PWR block. -/
def outsidePwr (p : Part) : Bool := decide (p ≠ .pwr)

@[simp] theorem abandon_pwr (on : VoteOn) (d code : Nat) (s : State) : (abandon on d code s).pwr = s.pwr :=
  (abandon_keeps rfl rfl rfl (Kept.refl outsidePwr s)).pwr rfl
@[simp] theorem abortAttempts_pwr (f : Nat → Bool) (s : State) : (abortAttempts f s).pwr = s.pwr :=
  (abortAttempts_keeps rfl rfl rfl (Kept.refl outsidePwr s)).pwr rfl
@[simp] theorem adaptEnd_pwr (s : State) : (adaptEnd s).pwr = s.pwr :=
  (adaptEnd_keeps rfl rfl rfl (Kept.refl outsidePwr s)).pwr rfl
@[simp] theorem allBurstsOut_pwr (code : Nat) (p : Burst → Bool) (s : State) : (allBurstsOut code p s).pwr = s.pwr :=
  (allBurstsOut_keeps rfl rfl rfl rfl rfl rfl (Kept.refl outsidePwr s)).pwr rfl
@[simp] theorem calAbort_pwr (code : Nat) (s : State) : (calAbort code s).pwr = s.pwr :=
  (calAbort_keeps rfl rfl rfl rfl rfl rfl rfl (Kept.refl outsidePwr s)).pwr rfl
@[simp] theorem castVote_pwr (block code : Nat) (s : State) : (castVote block code s).pwr = s.pwr :=
  (castVote_keeps rfl (Kept.refl outsidePwr s)).pwr rfl
@[simp] theorem chainFaultRx_pwr (p : Nat) (s : State) : (chainFaultRx p s).pwr = s.pwr :=
  (chainFaultRx_keeps rfl rfl rfl rfl rfl rfl rfl rfl rfl (Kept.refl outsidePwr s)).pwr rfl
@[simp] theorem chainFaultTx_pwr (p : Nat) (s : State) : (chainFaultTx p s).pwr = s.pwr :=
  (chainFaultTx_keeps rfl rfl rfl rfl rfl rfl rfl rfl rfl (Kept.refl outsidePwr s)).pwr rfl
@[simp] theorem clockBack_pwr (s : State) : (clockBack s).pwr = s.pwr :=
  (clockBack_keeps rfl rfl rfl rfl (Kept.refl outsidePwr s)).pwr rfl
@[simp] theorem commitWrite_pwr (w : StoreWrite) (s : State) : (commitWrite w s).pwr = s.pwr :=
  (commitWrite_keeps rfl (Kept.refl outsidePwr s)).pwr rfl
@[simp] theorem copySentinel_pwr (s : State) : (copySentinel s).pwr = s.pwr :=
  (copySentinel_keeps rfl (Kept.refl outsidePwr s)).pwr rfl
@[simp] theorem dbgDraw_pwr (s : State) : (dbgDraw s).pwr = s.pwr :=
  (dbgDraw_keeps rfl rfl (Kept.refl outsidePwr s)).pwr rfl
@[simp] theorem dpdStage3_pwr (s : State) : (dpdStage3 s).pwr = s.pwr :=
  (dpdStage3_keeps rfl rfl (Kept.refl outsidePwr s)).pwr rfl
@[simp] theorem dqsCheck_pwr (drift : Int) (s : State) : (dqsCheck drift s).pwr = s.pwr :=
  (dqsCheck_keeps rfl rfl rfl (Kept.refl outsidePwr s)).pwr rfl
@[simp] theorem drcSleep_pwr (s : State) : (drcSleep s).pwr = s.pwr :=
  (drcSleep_keeps rfl (Kept.refl outsidePwr s)).pwr rfl
@[simp] theorem drcWake_pwr (s : State) : (drcWake s).pwr = s.pwr :=
  (drcWake_keeps rfl (Kept.refl outsidePwr s)).pwr rfl
@[simp] theorem fhpStage3_pwr (s : State) : (fhpStage3 s).pwr = s.pwr :=
  (fhpStage3_keeps rfl (Kept.refl outsidePwr s)).pwr rfl
@[simp] theorem flushTick_pwr (s : State) : (flushTick s).pwr = s.pwr :=
  (flushTick_keeps rfl (Kept.refl outsidePwr s)).pwr rfl
@[simp] theorem globalSafe_pwr (cause : Nat) (s : State) : (globalSafe cause s).pwr = s.pwr :=
  (globalSafe_keeps rfl rfl (Kept.refl outsidePwr s)).pwr rfl
@[simp] theorem groupCommand_pwr (g : Nat) (st : GState) (s : State) : (groupCommand g st s).pwr = s.pwr :=
  (groupCommand_keeps rfl rfl rfl rfl rfl rfl (Kept.refl outsidePwr s)).pwr rfl
@[simp] theorem groupResult_pwr (code : Nat) (s : State) : (groupResult code s).pwr = s.pwr :=
  (groupResult_keeps rfl (Kept.refl outsidePwr s)).pwr rfl
@[simp] theorem jobsResume_pwr (s : State) : (jobsResume s).pwr = s.pwr :=
  (jobsResume_keeps rfl rfl rfl rfl rfl rfl rfl rfl (Kept.refl outsidePwr s)).pwr rfl
@[simp] theorem lanesBack_pwr (s : State) : (lanesBack s).pwr = s.pwr :=
  (lanesBack_keeps rfl rfl rfl rfl rfl (Kept.refl outsidePwr s)).pwr rfl
@[simp] theorem lanesPark_pwr (req : SleepReq) (s : State) : (lanesPark req s).pwr = s.pwr :=
  (lanesPark_keeps rfl rfl rfl rfl rfl rfl rfl (Kept.refl outsidePwr s)).pwr rfl
@[simp] theorem levelOutcome_pwr (outcome code : Nat) (s : State) : (levelOutcome outcome code s).pwr = s.pwr :=
  (levelOutcome_keeps rfl (Kept.refl outsidePwr s)).pwr rfl
@[simp] theorem logMark_pwr (a : Nat) (s : State) : (logMark a s).pwr = s.pwr :=
  (logMark_keeps rfl (Kept.refl outsidePwr s)).pwr rfl
@[simp] theorem loopsOff_pwr (s : State) : (loopsOff s).pwr = s.pwr :=
  (loopsOff_keeps rfl rfl (Kept.refl outsidePwr s)).pwr rfl
@[simp] theorem markResume_pwr (r : Nat) (s : State) : (markResume r s).pwr = s.pwr :=
  (markResume_keeps rfl (Kept.refl outsidePwr s)).pwr rfl
@[simp] theorem monRestart_pwr (f : Nat) (s : State) : (monRestart f s).pwr = s.pwr :=
  (monRestart_keeps rfl (Kept.refl outsidePwr s)).pwr rfl
@[simp] theorem monStop_pwr (s : State) : (monStop s).pwr = s.pwr :=
  (monStop_keeps rfl (Kept.refl outsidePwr s)).pwr rfl
@[simp] theorem nvsAdvance_pwr (s : State) : (nvsAdvance s).pwr = s.pwr :=
  (nvsAdvance_keeps rfl (Kept.refl outsidePwr s)).pwr rfl
@[simp] theorem openVote_pwr (on : VoteOn) (s : State) : (openVote on s).pwr = s.pwr :=
  (openVote_keeps rfl (Kept.refl outsidePwr s)).pwr rfl
@[simp] theorem pastDraw_pwr (s : State) : (pastDraw s).pwr = s.pwr :=
  (pastDraw_keeps rfl rfl (Kept.refl outsidePwr s)).pwr rfl
@[simp] theorem pmbNote_pwr (n cmd : Nat) (s : State) : (pmbNote n cmd s).pwr = s.pwr :=
  (pmbNote_keeps rfl (Kept.refl outsidePwr s)).pwr rfl
@[simp] theorem queueWrite_pwr (w : StoreWrite) (s : State) : (queueWrite w s).pwr = s.pwr :=
  (queueWrite_keeps rfl (Kept.refl outsidePwr s)).pwr rfl
@[simp] theorem readMr4_pwr (v : Option Nat) (s : State) : (readMr4 v s).pwr = s.pwr :=
  (readMr4_keeps rfl rfl rfl (Kept.refl outsidePwr s)).pwr rfl
@[simp] theorem rebasePlies_pwr (old new : Nat) (s : State) : (rebasePlies old new s).pwr = s.pwr :=
  (rebasePlies_keeps rfl rfl (Kept.refl outsidePwr s)).pwr rfl
@[simp] theorem recordsLoad_pwr (s : State) : (recordsLoad s).pwr = s.pwr :=
  (recordsLoad_keeps rfl rfl rfl rfl rfl rfl rfl rfl rfl rfl (Kept.refl outsidePwr s)).pwr rfl
@[simp] theorem refreshMutes_pwr (s : State) : (refreshMutes s).pwr = s.pwr :=
  (refreshMutes_keeps rfl (Kept.refl outsidePwr s)).pwr rfl
@[simp] theorem relayControl_pwr (sub tag : Nat) (body : List Byte) (s : State) : (relayControl sub tag body s).pwr = s.pwr :=
  (relayControl_keeps rfl (Kept.refl outsidePwr s)).pwr rfl
@[simp] theorem relockBegin_pwr (s : State) : (relockBegin s).pwr = s.pwr :=
  (relockBegin_keeps rfl (Kept.refl outsidePwr s)).pwr rfl
@[simp] theorem sampleZone_pwr (z : Nat) (raws : List (Option Int)) (s : State) : (sampleZone z raws s).pwr = s.pwr :=
  (sampleZone_keeps rfl rfl rfl rfl (Kept.refl outsidePwr s)).pwr rfl
@[simp] theorem setRefValid_pwr (b v : Bool) (s : State) : (setRefValid b v s).pwr = s.pwr :=
  (setRefValid_keeps rfl (Kept.refl outsidePwr s)).pwr rfl
@[simp] theorem stateResult_pwr (outcome : Nat) (req : SleepReq) (block code : Nat) (s : State) : (stateResult outcome req block code s).pwr = s.pwr :=
  (stateResult_keeps rfl (Kept.refl outsidePwr s)).pwr rfl
@[simp] theorem stepHold_pwr (step : Nat) (s : State) : (stepHold step s).pwr = s.pwr :=
  (stepHold_keeps rfl rfl rfl (Kept.refl outsidePwr s)).pwr rfl
@[simp] theorem stepSwaps_pwr (d : Int) (s : State) : (stepSwaps d s).pwr = s.pwr :=
  (stepSwaps_keeps rfl rfl (Kept.refl outsidePwr s)).pwr rfl
@[simp] theorem stepUndo_pwr (step : Nat) (s : State) : (stepUndo step s).pwr = s.pwr :=
  (stepUndo_keeps rfl rfl rfl rfl rfl rfl rfl rfl rfl (Kept.refl outsidePwr s)).pwr rfl
@[simp] theorem stopStreamsIf_pwr (f : Nat → Bool) (s : State) : (stopStreamsIf f s).pwr = s.pwr :=
  (stopStreamsIf_keeps rfl rfl rfl rfl rfl rfl (Kept.refl outsidePwr s)).pwr rfl
@[simp] theorem storeWrite_pwr (r : RegRow) (a : Nat) (w : Word) (s : State) : (storeWrite r a w s).pwr = s.pwr :=
  (storeWrite_keeps rfl (Kept.refl outsidePwr s)).pwr rfl
@[simp] theorem surveyAbort_pwr (s : State) : (surveyAbort s).pwr = s.pwr :=
  (surveyAbort_keeps rfl rfl rfl (Kept.refl outsidePwr s)).pwr rfl
@[simp] theorem synZoneMoved_pwr (s : State) : (synZoneMoved s).pwr = s.pwr :=
  (synZoneMoved_keeps rfl rfl rfl rfl rfl rfl rfl rfl (Kept.refl outsidePwr s)).pwr rfl
@[simp] theorem syncPState_pwr (s : State) : (syncPState s).pwr = s.pwr :=
  (syncPState_keeps rfl (Kept.refl outsidePwr s)).pwr rfl
@[simp] theorem timDoze_pwr (s : State) : (timDoze s).pwr = s.pwr :=
  (timDoze_keeps rfl rfl rfl rfl rfl rfl rfl (Kept.refl outsidePwr s)).pwr rfl
@[simp] theorem timStart_pwr (s : State) : (timStart s).pwr = s.pwr :=
  (timStart_keeps rfl rfl rfl rfl rfl rfl rfl (Kept.refl outsidePwr s)).pwr rfl
@[simp] theorem warpAgreed_pwr (s : State) : (warpAgreed s).pwr = s.pwr :=
  (warpAgreed_keeps rfl rfl rfl rfl (Kept.refl outsidePwr s)).pwr rfl
@[simp] theorem noticeRole_pwr (r : Nat) (valid : Bool) (s : State) : (noticeRole r valid s).pwr = s.pwr :=
  (noticeRole_keeps rfl rfl (Kept.refl outsidePwr s)).pwr rfl
@[simp] theorem dropBlocks_pwr (r : Nat) (s : State) : (dropBlocks r s).pwr = s.pwr :=
  (dropBlocks_keeps rfl rfl rfl (Kept.refl outsidePwr s)).pwr rfl
@[simp] theorem casViol_pwr (side cls : Nat) (s : State) : (casViol side cls s).pwr = s.pwr :=
  (casViol_keeps rfl rfl rfl rfl rfl rfl (Kept.refl outsidePwr s)).pwr rfl
@[simp] theorem passOn_pwr (side : Nat) (b : List Byte) (s : State) : (passOn side b s).pwr = s.pwr :=
  (passOn_keeps rfl (Kept.refl outsidePwr s)).pwr rfl
@[simp] theorem pollRead_pwr (c : Nat) (v : Word) (s : State) : (pollRead c v s).pwr = s.pwr :=
  (pollRead_keeps rfl (Kept.refl outsidePwr s)).pwr rfl
@[simp] theorem spiViolation_pwr (cls : Nat) (addr : Word) (s : State) : (spiViolation cls addr s).pwr = s.pwr :=
  (spiViolation_keeps rfl rfl (Kept.refl outsidePwr s)).pwr rfl
@[simp] theorem spiEnd_pwr (broke : Bool) (out : List Byte) (s : State) : (spiEnd broke out s).pwr = s.pwr :=
  (spiEnd_keeps rfl (Kept.refl outsidePwr s)).pwr rfl
@[simp] theorem tick_pwr (s : State) : (tick s).pwr = s.pwr :=
  (tick_keeps rfl rfl rfl rfl rfl rfl rfl rfl rfl (Kept.refl outsidePwr s)).pwr rfl

/-! ### Combinators -/

theorem forAll_pwr {α : Type} {f : α → State → State} (hf : ∀ x t, (f x t).pwr = t.pwr) (l : List α) (s : State) :
    (forAll l f s).pwr = s.pwr := by
  unfold forAll
  induction l generalizing s with
  | nil => rfl
  | cons x l ih => rw [List.foldl_cons, ih, hf]

theorem forAll_stage {α : Type} {f : α → State → State} (hf : ∀ x t, (f x t).pwr.stage = t.pwr.stage) (l : List α) (s : State) :
    (forAll l f s).pwr.stage = s.pwr.stage := by
  unfold forAll
  induction l generalizing s with
  | nil => rfl
  | cons x l ih => rw [List.foldl_cons, ih, hf]

theorem forAll_stage_ne_two {α : Type} {f : α → State → State} (hf : ∀ x t, t.pwr.stage ≠ 2 → (f x t).pwr.stage ≠ 2) (l : List α)
    {s : State} (h : s.pwr.stage ≠ 2) : (forAll l f s).pwr.stage ≠ 2 := by
  unfold forAll
  induction l generalizing s with
  | nil => exact h
  | cons x l ih => exact ih (hf x s h)

theorem hosted_stage_ne_two {f : State → State} (hf : ∀ t, t.pwr.stage ≠ 2 → (f t).pwr.stage ≠ 2) (a : Nat) {s : State}
    (h : s.pwr.stage ≠ 2) : (s.hosted a f).pwr.stage ≠ 2 := by
  unfold State.hosted; split
  · exact hf s h
  · exact h

theorem watchRoles_pwr {f : State → State} (hf : ∀ t, (f t).pwr = t.pwr) (s : State) : (watchRoles f s).pwr = s.pwr := by
  unfold watchRoles; dsimp only
  rw [forAll_pwr, refreshMutes_pwr, hf, forAll_pwr dropBlocks_pwr]
  intro r t; split
  · rfl
  · exact noticeRole_pwr ..

theorem foldRx_stage {f : State → State} (hf : ∀ t, (f t).pwr.stage = t.pwr.stage) (side : Nat) (b : List Byte) (s : State) :
    (foldRx side b f s).pwr.stage = s.pwr.stage := by
  unfold foldRx; dsimp only
  repeat' split
  all_goals simp [hf]

theorem controlRx_stage {f : Nat → List Byte → State → State} (hf : ∀ n x t, (f n x t).pwr.stage = t.pwr.stage) (sub side : Nat)
    (b : List Byte) (s : State) : (controlRx sub side b f s).pwr.stage = s.pwr.stage := by
  unfold controlRx; dsimp only
  split
  · rfl
  · refine foldRx_stage (fun t => ?_) side b s
    rw [hf]; split
    · rfl
    · rw [passOn_pwr]

/-! ### Rails and references -/

@[simp] theorem railRequest_stage (n mv : Nat) (why : RailWhy) (s : State) : (railRequest n mv why s).pwr.stage = s.pwr.stage := by
  simp [railRequest]

@[simp] theorem requestGroup_stage (g : Nat) (s : State) : (requestGroup g s).pwr.stage = s.pwr.stage := by
  unfold requestGroup; dsimp only
  rw [forAll_stage (fun n t => railRequest_stage n _ _ t)]; simp

@[simp] theorem pl0Request_stage (s : State) : (pl0Request s).pwr.stage = s.pwr.stage := by
  unfold pl0Request; split <;> simp

@[simp] theorem railRetry_stage (n : Nat) (s : State) : (railRetry n s).pwr.stage = s.pwr.stage := by
  unfold railRetry; split
  · rfl
  · split <;> simp

@[simp] theorem faultSeen_stage (n : Nat) (q : RailReq) (s : State) : (faultSeen n q s).pwr.stage = s.pwr.stage := by
  simp [faultSeen]

@[simp] theorem railUp_stage (n : Nat) (q : RailReq) (s : State) : (railUp n q s).pwr.stage = s.pwr.stage := by
  unfold railUp; dsimp only; split <;> simp

@[simp] theorem telemetry_stage (r : List (BitVec 16 × BitVec 16)) (s : State) : (telemetry r s).pwr.stage = s.pwr.stage := by
  unfold telemetry; rw [pmbNote_pwr]; exact forAll_stage (fun _ _ => by simp) _ _

@[simp] theorem refWindow_stage (edges : Nat) (s : State) : (refWindow edges s).pwr.stage = s.pwr.stage := by
  unfold refWindow; split
  · split <;> simp
  · rfl

@[simp] theorem lockDeclared_stage (loop : LockLoop) (s : State) : (lockDeclared loop s).pwr.stage = s.pwr.stage := by
  cases loop with
  | timeBase => rfl
  | unit u band =>
    unfold lockDeclared; dsimp only
    rw [watchRoles_pwr]
    intro t; split <;> simp
  | converter =>
    unfold lockDeclared; dsimp only
    split
    · split
      · simp
      · rw [jobsResume_pwr, watchRoles_pwr (fun t => by simp)]; simp
    · split
      · rfl
      · rw [jobsResume_pwr, watchRoles_pwr (fun t => by simp)]

/-! ### Levels -/

@[simp] theorem marginLow_stage (s : State) : (marginLow s).pwr.stage = s.pwr.stage := by
  unfold marginLow; split <;> simp

@[simp] theorem trimAfter_stage (s : State) : (trimAfter s).pwr.stage = s.pwr.stage := by
  unfold trimAfter; dsimp only
  repeat' split
  all_goals simp

@[simp] theorem trimDown_stage (s : State) : (trimDown s).pwr.stage = s.pwr.stage := by
  unfold trimDown; dsimp only
  repeat' split
  all_goals simp

@[simp] theorem levelRefuse_stage (code : Nat) (s : State) : (levelRefuse code s).pwr.stage = s.pwr.stage := by
  unfold levelRefuse; split <;> simp

@[simp] theorem levelEnd_stage (outcome code : Nat) (s : State) : (levelEnd outcome code s).pwr.stage = s.pwr.stage := by
  simp [levelEnd]

@[simp] theorem levelRaise_stage (s : State) : (levelRaise s).pwr.stage = s.pwr.stage := by
  unfold levelRaise
  repeat' split
  all_goals simp

@[simp] theorem setLevel_stage (l : Nat) (s : State) : (setLevel l s).pwr.stage = s.pwr.stage := by
  simp [setLevel]

@[simp] theorem levelPoint_stage (s : State) : (levelPoint s).pwr.stage = s.pwr.stage := by
  unfold levelPoint; dsimp only
  repeat' split
  all_goals simp

@[simp] theorem levelBegin_stage (l : Nat) (s : State) : (levelBegin l s).pwr.stage = s.pwr.stage := by
  unfold levelBegin; dsimp only; split <;> simp

@[simp] theorem levelReq_stage (l : Nat) (s : State) : (levelReq l s).pwr.stage = s.pwr.stage := by
  unfold levelReq; dsimp only
  repeat' split
  all_goals simp

@[simp] theorem levelReqWrite_stage (w : Word) (s : State) : (levelReqWrite w s).pwr.stage = s.pwr.stage := by
  simp [levelReqWrite]

@[simp] theorem levelFrame_stage (b : List Byte) (s : State) : (levelFrame b s).pwr.stage = s.pwr.stage := by
  unfold levelFrame; dsimp only
  repeat' split
  all_goals simp

@[simp] theorem cadenceReport_stage (r : List (Bool × Option Int)) (s : State) : (cadenceReport r s).pwr.stage = s.pwr.stage := by
  simp [cadenceReport]

@[simp] theorem agreed_stage (on : VoteOn) (s : State) : (agreed on s).pwr.stage = s.pwr.stage := by
  cases on with
  | level l => simp [agreed, levelAgreed]
  | warp => simp [agreed]
  | group w =>
    unfold agreed; dsimp only
    split <;> simp

@[simp] theorem voteTake_stage (x : List Byte) (s : State) : (voteTake x s).pwr.stage = s.pwr.stage := by
  unfold voteTake; dsimp only
  repeat' split
  all_goals simp

/-! ### The sleep sequence -/

@[simp] theorem stepAction_stage (req : SleepReq) (step : Nat) (s : State) : (stepAction req step s).pwr.stage = s.pwr.stage := by
  unfold stepAction; split <;> simp

@[simp] theorem sleepRollback_stage (block code : Nat) (s : State) : (sleepRollback block code s).pwr.stage = s.pwr.stage := by
  unfold sleepRollback; split
  · rfl
  · simp [forAll_pwr stepUndo_pwr]

@[simp] theorem sleepRefuse_stage (low : Bool) (block code : Nat) (s : State) : (sleepRefuse low block code s).pwr.stage = s.pwr.stage := by
  unfold sleepRefuse
  repeat' split
  all_goals simp

@[simp] theorem coreOff_stage (s : State) : (coreOff s).pwr.stage = 0 := rfl

@[simp] theorem finalFailure_stage (stage cause n : Nat) (s : State) : (finalFailure stage cause n s).pwr.stage = 0 := by
  simp [finalFailure]

@[simp] theorem shutdown_stage (z : Nat) (t : Int) (s : State) : (shutdown z t s).pwr.stage = 0 := by
  unfold shutdown; dsimp only; split <;> simp

@[simp] theorem enterStage1_stage (s : State) : (enterStage1 s).pwr.stage = 1 := by
  simp [enterStage1]

@[simp] theorem vsenRise_stage (s : State) : (vsenRise s).pwr.stage = 0 := by
  simp [vsenRise]

theorem sleepDone_stage_ne_two (req : SleepReq) {s : State} (h : s.pwr.stage ≠ 2) : (sleepDone req s).pwr.stage ≠ 2 := by
  cases req with
  | doze => simpa [sleepDone] using h
  | safe => simp [sleepDone]
  | sentinel => simp [sleepDone]

theorem sleepRun_stage_ne_two (n : Nat) (late : Bool) {s : State} (h : s.pwr.stage ≠ 2) : (sleepRun late n s).pwr.stage ≠ 2 := by
  induction n generalizing late s with
  | zero => exact h
  | succ n ih =>
    unfold sleepRun; dsimp only
    split
    · exact h
    next x _ =>
      have acted : (stepAction x.req x.step s).pwr.stage ≠ 2 := by simpa using h
      split
      · simpa using h
      · split
        · simpa using h
        · split
          · exact acted
          · split
            · exact sleepDone_stage_ne_two _ acted
            · exact ih _ (by simpa using h)

theorem sleepGoOn_stage_ne_two {s : State} (h : s.pwr.stage ≠ 2) : (sleepGoOn s).pwr.stage ≠ 2 := by
  unfold sleepGoOn; split
  · exact h
  · split
    · exact sleepDone_stage_ne_two _ h
    · exact sleepRun_stage_ne_two _ _ (by simpa using h)

theorem sleepStepDone_stage_ne_two (late : Bool) {s : State} (h : s.pwr.stage ≠ 2) : (sleepStepDone late s).pwr.stage ≠ 2 := by
  unfold sleepStepDone; dsimp only
  split
  · exact h
  · split
    · exact h
    · refine sleepRun_stage_ne_two _ _ ?_
      split
      · simpa using h
      · exact h

theorem sleepBegin_stage_ne_two (req : SleepReq) (first : Nat) {s : State} (h : s.pwr.stage ≠ 2) : (sleepBegin req first s).pwr.stage ≠ 2 :=
  sleepRun_stage_ne_two _ _ (by simpa using h)

theorem stateRequest_stage_ne_two (req : SleepReq) {s : State} (h : s.pwr.stage ≠ 2) : (stateRequest req s).pwr.stage ≠ 2 := by
  have answered : ∀ o r b c, (stateResult o r b c s).pwr.stage ≠ 2 := fun o r b c => by rwa [stateResult_pwr]
  unfold stateRequest; dsimp only
  split
  · exact answered _ _ _ _
  · cases req with
    | doze =>
      dsimp only
      split
      · exact answered _ _ _ _
      · split
        · exact answered _ _ _ _
        · split
          · exact answered _ _ _ _
          · exact sleepBegin_stage_ne_two _ _ h
    | sentinel => exact sleepBegin_stage_ne_two _ _ h
    | safe =>
      dsimp only
      split
      · exact answered _ _ _ _
      · split
        · exact answered _ _ _ _
        · exact sleepBegin_stage_ne_two _ _ h

theorem stateReqWrite_stage_ne_two (w : Word) {s : State} (h : s.pwr.stage ≠ 2) : (stateReqWrite w s).pwr.stage ≠ 2 := by
  unfold stateReqWrite; split
  · exact stateRequest_stage_ne_two _ h
  · exact stateRequest_stage_ne_two _ h
  · exact h

theorem autoDoze_stage_ne_two {s : State} (h : s.pwr.stage ≠ 2) : (autoDoze s).pwr.stage ≠ 2 := by
  unfold autoDoze; split
  · exact stateRequest_stage_ne_two _ h
  · exact h

/-- Leaving Doze ends at the stage at which the device dozed, or at stage 3. -/
theorem dozeExitDone_stage (mr4 : Option Nat) (drift : Int) (s : State) :
    (dozeExitDone mr4 drift s).pwr.stage = s.pwr.stage ∨ (dozeExitDone mr4 drift s).pwr.stage = 3 := by
  unfold dozeExitDone; dsimp only
  split
  · exact .inl rfl
  · split
    all_goals
      split
      · right; simp
      · left; simp [forAll_pwr monRestart_pwr]

/-! ### Wake sources -/

@[simp] theorem recordWake_stage (src cmd : Nat) (s : State) : (recordWake src cmd s).pwr.stage = s.pwr.stage := by
  obtain ⟨w, hw⟩ := recordWake_pwr src cmd s
  rw [hw]

theorem climbBegin_stage_ne_two (hold : Bool) {s : State} (h : s.pwr.stage ≠ 2) : (climbBegin hold s).pwr.stage ≠ 2 := by
  unfold climbBegin; split
  · simp
  · split
    · simp
    · simpa using h

theorem wake_stage_ne_two (src cmd : Nat) {s : State} (h : s.pwr.stage ≠ 2) : (wake src cmd s).pwr.stage ≠ 2 := by
  unfold wake; dsimp only
  split
  · exact h
  · split
    case h_1 => exact climbBegin_stage_ne_two _ (by simpa using h)
    case h_2 => simpa using h
    case h_3 => simpa using h
    case h_4 => split <;> simpa using h

theorem shieling_stage_ne_two (site cmd : Nat) (crcOk : Bool) {s : State} (h : s.pwr.stage ≠ 2) :
    (shieling site cmd crcOk s).pwr.stage ≠ 2 := by
  unfold shieling; dsimp only
  split
  · exact h
  · split
    · exact wake_stage_ne_two _ _ (by simpa using h)
    · simpa using h

/-! ### Answers of the regulator -/

theorem railAcked_stage_ne_two (n : Nat) (q : RailReq) {s : State} (h : s.pwr.stage ≠ 2) : (railAcked n q s).pwr.stage ≠ 2 := by
  unfold railAcked
  split
  case h_1 =>
    repeat' split
    all_goals simpa using h
  case h_5 => exact sleepGoOn_stage_ne_two h
  case h_6 => split <;> simpa using h
  all_goals simpa using h

theorem pmbusDone_stage_ne_two (n mode : Nat) {s : State} (h : s.pwr.stage ≠ 2) : (pmbusDone n mode s).pwr.stage ≠ 2 := by
  unfold pmbusDone; dsimp only
  split
  · exact h
  · split
    · exact h
    · split
      · simp
      · refine railAcked_stage_ne_two _ _ ?_
        split <;> simpa using h

theorem railGaveUp_stage_ne_two (n : Nat) (q : RailReq) {s : State} (h : s.pwr.stage ≠ 2) : (railGaveUp n q s).pwr.stage ≠ 2 := by
  unfold railGaveUp; dsimp only
  split <;> simp [h]

theorem attemptFailed_stage_ne_two (n : Nat) (why : PmbWhy) {s : State} (h : s.pwr.stage ≠ 2) : (attemptFailed n why s).pwr.stage ≠ 2 := by
  unfold attemptFailed; dsimp only
  split
  · exact h
  · split
    · exact h
    · split
      · refine railGaveUp_stage_ne_two _ _ ?_
        split <;> simpa using h
      · cases why <;> simpa using h

theorem railBad_stage_ne_two (n : Nat) {s : State} (h : s.pwr.stage ≠ 2) : (railBad n s).pwr.stage ≠ 2 := by
  unfold railBad; split
  · split
    · simpa using h
    · exact attemptFailed_stage_ne_two _ _ h
  · split
    · simp [railFault]
    · exact h

theorem smbAlert_stage_ne_two (words : List (BitVec 16)) {s : State} (h : s.pwr.stage ≠ 2) : (smbAlert words s).pwr.stage ≠ 2 :=
  forAll_stage_ne_two (fun n _ => railBad_stage_ne_two n) _ (by simpa using h)

/-! ### Start, stages and the thermal unit -/

theorem refTimeout_stage_ne_two {s : State} (h : s.pwr.stage ≠ 2) : (refTimeout s).pwr.stage ≠ 2 := by
  unfold refTimeout; split
  · simpa using h
  · simpa using h
  · simp
  · simp
  · exact h

theorem firmware_stage_ne_two {s : State} (h : s.pwr.stage ≠ 2) : (firmware s).pwr.stage ≠ 2 := by
  unfold firmware; dsimp only
  split
  · exact h
  · split
    · simpa using h
    · split
      · simpa using h
      · simp

theorem linkWait_stage_ne_two {s : State} (h : s.pwr.stage ≠ 2) : (linkWait s).pwr.stage ≠ 2 := by
  unfold linkWait; split
  · simp
  · exact h

/-- From stage 3 on there is no stage left to climb to (R35). -/
theorem stageClimb_eq_self {s : State} (h : 3 ≤ s.pwr.stage) : stageClimb s = s := by
  have h0 : s.pwr.stage ≠ 0 := by omega
  have h1 : s.pwr.stage ≠ 1 := by omega
  have h2 : s.pwr.stage ≠ 2 := by omega
  simp [stageClimb, h0, h1, h2]

@[simp] theorem climbOn_stage (s : State) : (climbOn s).pwr.stage = s.pwr.stage := by
  unfold climbOn; dsimp only
  repeat' split
  all_goals simp

@[simp] theorem release_stage (on : Bool) (s : State) : (release on s).pwr.stage = s.pwr.stage := by
  unfold release; dsimp only; split <;> simp

theorem stageCtrlWrite_stage_ne_two (w : Word) {s : State} (h : s.pwr.stage ≠ 2) : (stageCtrlWrite w s).pwr.stage ≠ 2 := by
  have climbed : (if bitOf w 1 then climbOn (release (bitOf w 0) s) else release (bitOf w 0) s).pwr.stage ≠ 2 := by
    split <;> simpa using h
  unfold stageCtrlWrite; dsimp only
  split
  · exact stateRequest_stage_ne_two _ climbed
  · exact climbed

theorem stage4Entry_stage_ne_two {s : State} (h : s.pwr.stage ≠ 2) : (stage4Entry s).pwr.stage ≠ 2 := by
  unfold stage4Entry; split
  · rw [syncPState_pwr, forAll_pwr (fun _ _ => by simp)]; simp
  · exact h

theorem stage4Exit_stage_ne_two {s : State} (h : s.pwr.stage ≠ 2) : (stage4Exit s).pwr.stage ≠ 2 := by
  unfold stage4Exit; split
  · rw [syncPState_pwr, refreshMutes_pwr, forAll_pwr (fun _ _ => by simp)]; simp
  · exact h

theorem thermalSample_stage_ne_two (z : Nat) (raws : List (Option Int)) {s : State} (h : s.pwr.stage ≠ 2) :
    (thermalSample z raws s).pwr.stage ≠ 2 := by
  unfold thermalSample; dsimp only
  split
  · exact h
  · simp only [apply_ite State.pwr, apply_ite Pwr.stage, shutdown_stage, synZoneMoved_pwr, surveyAbort_pwr, sampleZone_pwr, ite_self]
    exact iteInduction (motive := (· ≠ 2)) (fun _ => by decide) (fun _ => h)

@[simp] theorem watchdogExpiry_stage (s : State) : (watchdogExpiry s).pwr.stage = s.pwr.stage := by
  simp [watchdogExpiry]

/-! ### Host software's reads and writes -/

@[simp] theorem rcClear_stage (a : Nat) (s : State) : (rcClear a s).pwr.stage = s.pwr.stage := by
  unfold rcClear; dsimp only
  split
  · simp
  · split <;> simp

@[simp] theorem afterRead_stage (a : Nat) (s : State) : (afterRead a s).pwr.stage = s.pwr.stage := by
  unfold afterRead
  repeat' split
  all_goals simp

/-! ### Actions of registers -/

theorem actsGLB_keep_pwr : ∀ v ∈ actsGLB, v.Keeps outsidePwr := by
  simp only [actsGLB, List.forall_mem_cons, List.not_mem_nil, false_implies, implies_true, and_true]
  exact ⟨act1_keeps fun _ _ _ h => flashCtrlWrite_keeps rfl rfl h,
   act1_keeps fun _ _ _ h => dbgCtrlWrite_keeps rfl rfl rfl rfl h,
   act1_keeps fun _ _ _ h => dbgData_keeps rfl rfl h⟩

theorem actsWRP_keep_pwr : ∀ v ∈ actsWRP, v.Keeps outsidePwr := by
  simp only [actsWRP, List.forall_mem_cons, List.not_mem_nil, false_implies, implies_true, and_true]
  exact ⟨act1_keeps fun _ _ _ h => wrpCtrlWrite_keeps rfl rfl rfl rfl h,
   act1_keeps fun _ _ _ h => wrpStageLenWrite_keeps rfl rfl h,
   act1_keeps fun _ _ _ h => wrpData_keeps rfl rfl rfl h⟩

theorem actsNVS_keep_pwr : ∀ v ∈ actsNVS, v.Keeps outsidePwr := by
  simp only [actsNVS, List.forall_mem_cons, List.not_mem_nil, false_implies, implies_true, and_true]
  exact ⟨act1_keeps fun _ _ _ h => pastCtrlWrite_keeps rfl rfl rfl h,
   act1_keeps fun _ _ _ h => pastData_keeps rfl rfl rfl h,
   act1_keeps fun _ _ _ h => recCtrlWrite_keeps rfl rfl h,
   act1_keeps fun _ _ _ h => recData_keeps rfl rfl rfl h,
   act1_keeps fun _ _ _ h => nvsDataWrite_keeps rfl rfl rfl h,
   act1_keeps fun _ _ _ h => calReqWrite_keeps rfl rfl h⟩

theorem actsHKA_keep_pwr : ∀ v ∈ actsHKA, v.Keeps outsidePwr := by
  simp only [actsHKA, List.forall_mem_cons, List.not_mem_nil, false_implies, implies_true, and_true]
  exact ⟨act1_keeps fun _ _ _ h => onBit0_keeps (fun _ h => scanTrigger_keeps rfl rfl h) h,
   act1_keeps fun _ _ _ h => urgentRequest_keeps rfl rfl rfl h,
   act1_keeps fun _ _ _ h => onBit0_keeps (fun _ h => modHka_keeps rfl h) h⟩

theorem actsBDA_keep_pwr : ∀ v ∈ actsBDA, v.Keeps outsidePwr := by
  simp only [actsBDA, List.forall_mem_cons, List.not_mem_nil, false_implies, implies_true, and_true]
  exact ⟨act1_keeps fun _ _ _ h => bdaLoadWrite_keeps rfl rfl h,
   act1_keeps fun _ _ _ h => bdaCtrlWrite_keeps rfl rfl h,
   fun _ _ _ _ h => bdaCodeWrite_keeps rfl rfl h,
   fun _ _ _ _ h => onBit0_keeps (fun _ h => clearFault_keeps rfl h) h⟩

theorem actsSYN_keep_pwr : ∀ v ∈ actsSYN, v.Keeps outsidePwr := by
  simp only [actsSYN, List.forall_mem_cons, List.not_mem_nil, false_implies, implies_true, and_true]
  exact ⟨act1_keeps fun _ _ _ h => refCfgWrite_keeps rfl rfl rfl rfl rfl rfl h,
   act1_keeps fun _ _ _ h => synCtrlWrite_keeps rfl rfl rfl rfl rfl rfl rfl rfl h,
   fun _ _ _ _ h => phaseWrite_keeps rfl rfl h⟩

theorem actsRAD_keep_pwr : ∀ v ∈ actsRAD, v.Keeps outsidePwr := by
  simp only [actsRAD, List.forall_mem_cons, List.not_mem_nil, false_implies, implies_true, and_true]
  exact ⟨act1_keeps fun _ _ _ h => groupCmdWrite_keeps rfl rfl rfl rfl rfl rfl h,
   act1_keeps fun _ _ _ h => burstCtrlWrite_keeps rfl rfl rfl rfl rfl rfl h,
   act1_keeps fun _ _ _ h => onBit0_keeps (fun _ h => modRad_keeps rfl h) h,
   fun _ _ _ _ h => rffeCmdWrite_keeps rfl rfl h⟩

theorem actsSKN_keep_pwr : ∀ v ∈ actsSKN, v.Keeps outsidePwr := by
  simp only [actsSKN, List.forall_mem_cons, List.not_mem_nil, false_implies, implies_true, and_true]
  exact ⟨act1_keeps fun _ _ _ h => sknSwitchWrite_keeps rfl rfl rfl rfl h,
   act1_keeps fun _ _ _ h => onBit0_keeps (fun _ h => modSkn_keeps rfl (fun h => h) (fun h => h) h) h⟩

theorem actsFFT_keep_pwr : ∀ v ∈ actsFFT, v.Keeps outsidePwr := by
  simp only [actsFFT, List.forall_mem_cons, List.not_mem_nil, false_implies, implies_true, and_true]
  exact fun _ _ _ _ h => onBit0_keeps (fun _ h => fftSubmit_keeps rfl rfl h) h

theorem actsDPD_keep_pwr : ∀ v ∈ actsDPD, v.Keeps outsidePwr := by
  simp only [actsDPD, List.forall_mem_cons, List.not_mem_nil, false_implies, implies_true, and_true]
  exact ⟨act1_keeps fun _ _ _ h => dpdSwitchWrite_keeps rfl rfl rfl h,
   act1_keeps fun _ _ _ h => surveyGo_keeps rfl rfl h,
   fun _ _ _ _ h => dpdPathCfgWrite_keeps rfl rfl rfl h⟩

theorem actsFHP_keep_pwr : ∀ v ∈ actsFHP, v.Keeps outsidePwr := by
  simp only [actsFHP, List.forall_mem_cons, List.not_mem_nil, false_implies, implies_true, and_true]
  exact act1_keeps fun _ _ _ h => flockCtrlWrite_keeps rfl rfl rfl h

theorem actsLNE_keep_pwr : ∀ v ∈ actsLNE, v.Keeps outsidePwr := by
  simp only [actsLNE, List.forall_mem_cons, List.not_mem_nil, false_implies, implies_true, and_true]
  exact ⟨fun _ _ _ _ h => portCtrlWrite_keeps rfl rfl rfl rfl rfl h,
   fun _ _ _ _ h => txEqWrite_keeps rfl rfl h,
   fun _ _ _ _ h => testWrite_keeps rfl rfl rfl h,
   fun _ _ _ _ h => onBit0_keeps (fun _ h => swapLane_keeps rfl rfl rfl rfl h) h⟩

theorem actsTIM_keep_pwr : ∀ v ∈ actsTIM, v.Keeps outsidePwr := by
  simp only [actsTIM, List.forall_mem_cons, List.not_mem_nil, false_implies, implies_true, and_true]
  exact ⟨act1_keeps fun _ _ _ h => timCtrlWrite_keeps rfl rfl rfl rfl rfl rfl rfl rfl rfl h,
   act1_keeps fun _ _ _ h => timPtpCfgWrite_keeps rfl rfl rfl rfl rfl rfl rfl h,
   fun _ _ _ _ h => timPortCfgWrite_keeps rfl rfl rfl rfl rfl rfl rfl h,
   fun _ _ _ _ h => timAsymWrite_keeps rfl rfl h,
   fun _ _ _ _ h => txtsPopWrite_keeps rfl h⟩

theorem actsCAS_keep_pwr : ∀ v ∈ actsCAS, v.Keeps outsidePwr := by
  simp only [actsCAS, List.forall_mem_cons, List.not_mem_nil, false_implies, implies_true, and_true]
  exact act1_keeps fun _ _ _ h => casCtrlWrite_keeps rfl rfl rfl h

theorem actsACQ_keep_pwr : ∀ v ∈ actsACQ, v.Keeps outsidePwr := by
  simp only [actsACQ, List.forall_mem_cons, List.not_mem_nil, false_implies, implies_true, and_true]
  exact ⟨fun _ _ _ _ h => streamCtrlWrite_keeps rfl rfl rfl rfl rfl rfl h,
   fun _ _ _ _ h => streamRegWrite_keeps rfl rfl h,
   fun _ _ _ _ h => streamRegWrite_keeps rfl rfl h,
   fun _ _ _ _ h => streamRegWrite_keeps rfl rfl h,
   fun _ _ _ _ h => streamRegWrite_keeps rfl rfl h,
   fun _ _ _ _ h => streamRegWrite_keeps rfl rfl h,
   fun _ _ _ _ h => streamRegWrite_keeps rfl rfl h,
   fun _ _ _ _ h => streamRegWrite_keeps rfl rfl h,
   fun _ _ _ _ h => streamRegWrite_keeps rfl rfl h,
   fun _ _ _ _ h => streamRegWrite_keeps rfl rfl h,
   fun _ _ _ _ h => streamRegWrite_keeps rfl rfl h,
   fun _ _ _ _ h => streamRegWrite_keeps rfl rfl h,
   fun _ _ _ _ h => streamRegWrite_keeps rfl rfl h,
   fun _ _ _ _ h => streamRegWrite_keeps rfl rfl h,
   fun _ _ _ _ h => monCfgWrite_keeps rfl rfl h,
   fun _ _ _ _ h => monShiftWrite_keeps rfl rfl h⟩

theorem actsDMA_keep_pwr : ∀ v ∈ actsDMA, v.Keeps outsidePwr := by
  simp only [actsDMA, List.forall_mem_cons, List.not_mem_nil, false_implies, implies_true, and_true]
  exact ⟨fun _ _ _ _ h => chCtrlWrite_keeps rfl rfl rfl h,
   fun _ _ _ _ h => chEventsWrite_keeps rfl h⟩

theorem actsDRC_keep_pwr : ∀ v ∈ actsDRC, v.Keeps outsidePwr := by
  simp only [actsDRC, List.forall_mem_cons, List.not_mem_nil, false_implies, implies_true, and_true]
  exact ⟨act1_keeps fun _ _ _ h => freqReq_keeps rfl rfl h,
   act1_keeps fun _ _ _ h => trainLockWrite_keeps rfl rfl h,
   act1_keeps fun _ _ _ h => patGo_keeps rfl rfl rfl h⟩

/-- What an action does leaves a device that is not at stage 2 at another stage. -/
def Act.StaysOff2 (v : Act) : Prop := ∀ i w s, s.pwr.stage ≠ 2 → (v.act i w s).pwr.stage ≠ 2

theorem Act.Keeps.staysOff2 {v : Act} (hv : v.Keeps outsidePwr) : v.StaysOff2 := fun i w s h => by
  rwa [(hv s i w s (Kept.refl _ s)).pwr rfl]

theorem act1_staysOff2 {a : Nat} {f : Word → State → State} (hf : ∀ w s, s.pwr.stage ≠ 2 → (f w s).pwr.stage ≠ 2) :
    (act1 a f).StaysOff2 := fun _ => hf

theorem actsPWR_staysOff2 : ∀ v ∈ actsPWR, v.StaysOff2 := by
  simp only [actsPWR, List.forall_mem_cons, List.not_mem_nil, false_implies, implies_true, and_true]
  exact ⟨act1_staysOff2 fun w _ h => stageCtrlWrite_stage_ne_two w h, act1_staysOff2 fun w _ h => stateReqWrite_stage_ne_two w h,
    act1_staysOff2 fun w s h => by rwa [levelReqWrite_stage], (act1_keeps fun _ _ _ h => wakeFailWrite_keeps rfl h).staysOff2,
    (act1_keeps fun _ _ _ h => shlCfgWrite_keeps rfl rfl h).staysOff2⟩

theorem actsAt_staysOff2 (b : Nat) : ∀ v ∈ actsAt b, v.StaysOff2 := by
  unfold actsAt
  split
  case h_1 => exact fun v hv => (actsGLB_keep_pwr v hv).staysOff2
  case h_2 => exact actsPWR_staysOff2
  case h_3 => exact fun v hv => (actsWRP_keep_pwr v hv).staysOff2
  case h_4 => exact fun v hv => (actsNVS_keep_pwr v hv).staysOff2
  case h_5 => exact fun v hv => (actsHKA_keep_pwr v hv).staysOff2
  case h_6 => exact fun v hv => (actsBDA_keep_pwr v hv).staysOff2
  case h_7 => exact fun v hv => (actsSYN_keep_pwr v hv).staysOff2
  case h_8 => exact fun v hv => (actsRAD_keep_pwr v hv).staysOff2
  case h_9 => exact fun v hv => (actsSKN_keep_pwr v hv).staysOff2
  case h_10 => exact fun v hv => (actsFFT_keep_pwr v hv).staysOff2
  case h_11 => exact fun v hv => (actsDPD_keep_pwr v hv).staysOff2
  case h_12 => exact fun v hv => (actsFHP_keep_pwr v hv).staysOff2
  case h_13 => exact fun v hv => (actsLNE_keep_pwr v hv).staysOff2
  case h_14 => exact fun v hv => (actsTIM_keep_pwr v hv).staysOff2
  case h_15 => exact fun v hv => (actsCAS_keep_pwr v hv).staysOff2
  case h_16 => exact fun v hv => (actsACQ_keep_pwr v hv).staysOff2
  case h_17 => exact fun v hv => (actsDMA_keep_pwr v hv).staysOff2
  case h_18 => exact fun v hv => (actsDRC_keep_pwr v hv).staysOff2
  case h_19 => simp

theorem pathAct_keep_pwr {p off : Nat} {f : Word → State → State} (e : pathAct p off = some f) (w : Word) (s : State) :
    (f w s).pwr = s.pwr := by
  have K := Kept.refl outsidePwr s
  unfold pathAct at e
  split at e <;> cases e
  · exact (pthCtrlWrite_keeps rfl rfl K).pwr rfl
  · exact (txAttenWrite_keeps rfl rfl K).pwr rfl
  · exact (rxAttenWrite_keeps rfl rfl K).pwr rfl
  · exact (trimUserWrite_keeps rfl rfl K).pwr rfl
  · exact (trimUserWrite_keeps rfl rfl K).pwr rfl

theorem actOf_stage_ne_two {a : Nat} {f : Word → State → State} (e : actOf a = some f) (w : Word) {s : State} (h : s.pwr.stage ≠ 2) :
    (f w s).pwr.stage ≠ 2 := by
  unfold actOf at e; dsimp only at e
  split at e
  · rwa [pathAct_keep_pwr e]
  · obtain ⟨v, hv, he⟩ := List.exists_of_findSome?_eq_some e
    obtain ⟨i, -, rfl⟩ := Option.map_eq_some_iff.mp he
    exact actsAt_staysOff2 _ v hv i w s h

theorem regWrite_stage_ne_two (a : Nat) (w : Word) {s : State} (h : s.pwr.stage ≠ 2) : (regWrite a w s).pwr.stage ≠ 2 := by
  unfold regWrite
  split
  · exact h
  · split
    · simpa using h
    · split
      next e => exact actOf_stage_ne_two e w h
      · simpa using h

theorem windowAct_pwr {a : Nat} {w : Word} {f : State → State} (e : windowAct a w = some f) (s : State) : (f s).pwr = s.pwr :=
  (windowAct_keeps rfl rfl rfl rfl rfl e (Kept.refl outsidePwr s)).pwr rfl

theorem hostWrite_stage_ne_two (a : Nat) (w : Word) {s : State} (h : s.pwr.stage ≠ 2) : (hostWrite a w s).pwr.stage ≠ 2 := by
  refine hosted_stage_ne_two (fun t ht => ?_) a h
  cases e : windowAct a w with
  | none => exact regWrite_stage_ne_two a w ht
  | some f => exact (windowAct_pwr e t).symm ▸ ht

theorem spiWords_stage_ne_two (incr : Bool) (a i : Nat) (l : List Byte) {s : State} (h : s.pwr.stage ≠ 2) :
    (spiWords incr a i l s).pwr.stage ≠ 2 := by
  fun_induction spiWords incr a i l s with
  | case1 i b0 b1 b2 b3 rest s ih => exact ih (hostWrite_stage_ne_two _ _ h)
  | case2 => exact h

theorem spiFrame_stage_ne_two {go : Nat → State → State} (hgo : ∀ a t, t.pwr.stage ≠ 2 → (go a t).pwr.stage ≠ 2) (badOp : Option Byte)
    (b out : List Byte) {s : State} (h : s.pwr.stage ≠ 2) : (spiFrame badOp b out go s).pwr.stage ≠ 2 := by
  have addressed : (spiAddress b s).2.pwr.stage ≠ 2 := by
    rwa [(spiAddress_keeps rfl (Kept.refl outsidePwr s)).pwr rfl]
  have discarded : ∀ cls addr, (spiDiscard cls addr out (spiAddress b s).2).pwr.stage ≠ 2 := fun cls addr => by
    simpa [spiDiscard] using addressed
  unfold spiFrame; dsimp only
  split
  · exact h
  · split
    · exact discarded _ _
    · split
      · exact discarded _ _
      · split
        · exact discarded _ _
        · exact hgo _ _ addressed

theorem spiWrite_stage_ne_two (incr : Bool) (badOp : Option Byte) (b : List Byte) {s : State} (h : s.pwr.stage ≠ 2) :
    (spiWrite incr badOp b s).pwr.stage ≠ 2 := by
  refine spiFrame_stage_ne_two (fun a t ht => ?_) badOp b _ h
  have written := spiWords_stage_ne_two incr a 0 (b.drop 4) ht
  dsimp only
  split <;> simpa using written

theorem spiReadWords_stage (incr : Bool) (a : Nat) (late : List Nat) (copy : State) (k i n : Nat) (s : State) :
    (spiReadWords incr a late copy k i n s).2.pwr.stage = s.pwr.stage := by
  induction k generalizing i n s with
  | zero => rfl
  | succ k ih =>
    unfold spiReadWords; dsimp only
    split
    · rfl
    · rw [ih]
      repeat' split
      all_goals simp

theorem spiRead_stage_ne_two (incr : Bool) (b : List Byte) (n : Nat) (late : List Nat) {s : State} (h : s.pwr.stage ≠ 2) :
    (spiRead incr b n late s).pwr.stage ≠ 2 :=
  spiFrame_stage_ne_two (fun a t ht => by simpa [spiReadWords_stage] using ht) none _ _ h

/-! ### Every command -/

/-- A command whose list of parts leaves out the PWR block leaves the stage. -/
theorem exec_stage_of_untouched {c : Instr} {s : State} (h : s.pwr.stage ≠ 2) (hc : decide (Part.pwr ∈ touched c) = false) :
    ∃ t, exec c s = .next t ∧ t.pwr.stage ≠ 2 := by
  obtain ⟨t, e, K⟩ := exec_keeps c s
  exact ⟨t, e, by rwa [K.pwr hc]⟩

/-- No command takes a device from stage 3 or above to stage 2. -/
theorem exec_stage_ne_two (c : Instr) {s : State} (h3 : 3 ≤ s.pwr.stage) : ∃ t, exec c s = .next t ∧ t.pwr.stage ≠ 2 := by
  have h : s.pwr.stage ≠ 2 := by omega
  cases c with
  | vsenRise => exact ⟨_, rfl, by split <;> simp [h]⟩
  | vsenFall => exact ⟨_, rfl, by split <;> simp [h, vsenFall]⟩
  | rstNAssert => exact ⟨_, rfl, by split <;> simp [h]⟩
  | shielingFrame => exact ⟨_, rfl, shieling_stage_ne_two _ _ _ h⟩
  | wakeNLow => exact ⟨_, rfl, wake_stage_ne_two _ _ h⟩
  | aonTimerAlarm => exact ⟨_, rfl, wake_stage_ne_two _ _ h⟩
  | spiChipSelectWake => exact ⟨_, rfl, wake_stage_ne_two _ _ h⟩
  | fronthaulSignalDetect =>
    refine ⟨_, rfl, ?_⟩
    split
    · exact wake_stage_ne_two _ _ (by simpa using h)
    · exact h
  | thermalWakeCrossing => exact ⟨_, rfl, wake_stage_ne_two _ _ h⟩
  | pmbusTransactionDone => exact ⟨_, rfl, pmbusDone_stage_ne_two _ _ h⟩
  | pmbusAttemptFailed => exact ⟨_, rfl, attemptFailed_stage_ne_two _ _ h⟩
  | railRetry => exact ⟨_, rfl, by simpa using h⟩
  | smbalert =>
    refine ⟨_, rfl, ?_⟩
    split
    · exact smbAlert_stage_ne_two _ h
    · exact h
  | railFault => exact ⟨_, rfl, railBad_stage_ne_two _ h⟩
  | pmbusTelemetryPoll => exact ⟨_, rfl, by split <;> simpa using h⟩
  | refCheckWindowDone => exact ⟨_, rfl, by simpa using h⟩
  | refCheckTimeout => exact ⟨_, rfl, refTimeout_stage_ne_two h⟩
  | firmwareImageVerified => exact ⟨_, rfl, firmware_stage_ne_two h⟩
  | linkWaitExpiry => exact ⟨_, rfl, linkWait_stage_ne_two h⟩
  | stageClimb => exact ⟨_, rfl, (stageClimb_eq_self h3).symm ▸ h⟩
  | stage4Entry => exact ⟨_, rfl, stage4Entry_stage_ne_two h⟩
  | release => exact ⟨_, rfl, hosted_stage_ne_two (fun _ ht => by simpa using ht) _ h⟩
  | climb => exact ⟨_, rfl, hosted_stage_ne_two (fun _ ht => by simpa using ht) _ h⟩
  | gotoSafe => exact ⟨_, rfl, hosted_stage_ne_two (fun _ => stateRequest_stage_ne_two _) _ h⟩
  | stage4ExitComplete => exact ⟨_, rfl, stage4Exit_stage_ne_two h⟩
  | pwrLevelReq => exact ⟨_, rfl, hosted_stage_ne_two (fun _ ht => by simpa using ht) _ h⟩
  | levelChangePoint => exact ⟨_, rfl, by simpa using h⟩
  | cadenceReport => exact ⟨_, rfl, by split <;> simpa using h⟩
  | vtrimStepDown => exact ⟨_, rfl, by simpa using h⟩
  | pwrStateReqDoze => exact ⟨_, rfl, hosted_stage_ne_two (fun _ => stateRequest_stage_ne_two _) _ h⟩
  | pwrStateReqSentinel => exact ⟨_, rfl, hosted_stage_ne_two (fun _ => stateRequest_stage_ne_two _) _ h⟩
  | sleepStepDone => exact ⟨_, rfl, sleepStepDone_stage_ne_two _ h⟩
  | autoDoze => exact ⟨_, rfl, autoDoze_stage_ne_two h⟩
  | dozeExitDone mr4 drift =>
    refine ⟨_, rfl, ?_⟩
    rcases dozeExitDone_stage (mr4.map (·.val)) drift s with e | e <;> omega
  | lockDeclared => exact ⟨_, rfl, by simpa using h⟩
  | controlVote => exact ⟨_, rfl, by rwa [controlRx_stage fun _ _ _ => voteTake_stage ..]⟩
  | controlLevel => exact ⟨_, rfl, by rwa [controlRx_stage fun _ _ _ => levelFrame_stage ..]⟩
  | thermalSample => exact ⟨_, rfl, thermalSample_stage_ne_two _ _ h⟩
  | coarseComparator135 => exact ⟨_, rfl, by split <;> simp [h]⟩
  | watchdogExpiry => exact ⟨_, rfl, by split <;> simpa using h⟩
  | waitPollRead => exact ⟨_, rfl, by split <;> simpa using h⟩
  | rcRegisterRead =>
    refine ⟨_, rfl, ?_⟩
    repeat' split
    all_goals simpa using h
  | registerWrite => exact ⟨_, rfl, hostWrite_stage_ne_two _ _ h⟩
  | writeIncr => exact ⟨_, rfl, spiWrite_stage_ne_two _ _ _ h⟩
  | writeFixed => exact ⟨_, rfl, spiWrite_stage_ne_two _ _ _ h⟩
  | readIncr => exact ⟨_, rfl, spiRead_stage_ne_two _ _ _ _ h⟩
  | readFixed => exact ⟨_, rfl, spiRead_stage_ne_two _ _ _ _ h⟩
  | _ => exact exec_stage_of_untouched h rfl

/-- No step takes a device from stage 3 or above to stage 2. -/
theorem step_stage_ne_two {s : State} (h3 : 3 ≤ s.pwr.stage) : ∃ t, step s = .next t ∧ t.pwr.stage ≠ 2 := by
  unfold step; split
  · exact ⟨_, rfl, by rw [tick_pwr]; omega⟩
  · exact exec_stage_ne_two _ h3

end Sys2Proof.Machine
end

section
/-!
SUPPORT. Register rows, log entries, and the lock of the RWL registers (R11).
-/

namespace Sys2Proof.Machine

/-! ### Rows of the register tables -/

/-- The row found for an address is one of its block's, and holds it. -/
theorem findRow_spec {a : Nat} {r : RegRow} (h : findRow a = some r) : r ∈ regRowsAt a ∧ r.holds a = true :=
  ⟨List.mem_of_find?_eq_some h, List.find?_some (p := fun x : RegRow => x.holds a) h⟩

/-- An address of a row is at most the row's last. -/
theorem RegRow.holds_le {r : RegRow} {a : Nat} (h : r.holds a = true) :
    a ≤ r.base + (r.count1 - 1) * r.stride1 + (r.count2 - 1) * r.stride2 := by
  have index_le : ∀ c d : Nat, (if c ≤ 1 then 0 else min d (c - 1)) ≤ c - 1 := fun c d => by split <;> omega
  simp only [RegRow.holds, Bool.and_eq_true, decide_eq_true_eq] at h
  calc a = _ := h.2.symm
    _ ≤ _ := Nat.add_le_add (Nat.add_le_add_left (Nat.mul_le_mul_right _ (index_le ..)) _) (Nat.mul_le_mul_right _ (index_le ..))

/-- The blocks of the RWL registers: none is in GLB or DMA, in a path or in FLD. -/
theorem block_of_rwl {a : Nat} {r : RegRow} (hr : findRow a = some r) (hl : r.access = .rwl) :
    a / 0x10000 ≤ 0x12 ∧ a / 0x10000 ≠ 0 ∧ a / 0x10000 ≠ 0x11 := by
  have none_of : ∀ l : List RegRow, (l.all fun r => r.access != .rwl) = true → r ∉ l := fun l hall hm => by
    simpa [hl] using List.all_eq_true.mp hall r hm
  have hm := (findRow_spec hr).1
  unfold regRowsAt at hm
  split at hm
  case h_15 => exact absurd hm (none_of _ (by decide))
  case h_19 => exact absurd hm (none_of _ (by decide))
  case h_20 =>
    split at hm
    · exact absurd hm (none_of _ (by decide))
    · split at hm
      · exact absurd hm (none_of _ (by decide))
      · simp at hm
  all_goals omega

/-- No RWL register lies in a window. -/
theorem windowAct_eq_none_of_rwl {a : Nat} {r : RegRow} (hr : findRow a = some r) (hl : r.access = .rwl) (w : Word) :
    windowAct a w = none := by
  obtain ⟨hle, h0, h11⟩ := block_of_rwl hr hl
  have skein : isSkein a = false := by simp [isSkein]; unfold skeinDlBase; omega
  have coef : isCoef a = false := by simp [isCoef]; unfold coefBase; omega
  have prog : isDmaProg a = false := by simp [isDmaProg]; omega
  have window : isDmaWindow a = false := by simp [isDmaWindow]; omega
  have buf : isFlashBuf a = false := by simp [isFlashBuf]; omega
  simp [windowAct, skein, coef, prog, window, buf]

/-- What a violation of the SPI host counts and logs is in no RWL register. -/
theorem not_mem_violation_regs_of_rwl {a : Nat} {r : RegRow} (hr : findRow a = some r) (hl : r.access = .rwl) :
    a ∉ Reg.GLB_VIOL 7 2 :: logRegs := by
  have glb : ∀ b ∈ Reg.GLB_VIOL 7 2 :: logRegs, b / 0x10000 = 0 := by decide
  exact fun hm => (block_of_rwl hr hl).2.1 (glb a hm)

/-- An RC register is none of the words of the log, and not the port of the store. -/
theorem not_log_of_rc {a : Nat} {r : RegRow} (hr : findRow a = some r) (hc : r.access = .rc) : isLog a = false ∧ a ≠ Reg.NVS_DATA := by
  have below : ∀ x ∈ regRowsGLB, x.access = .rc → x.base + (x.count1 - 1) * x.stride1 + (x.count2 - 1) * x.stride2 < 0x1000 := by decide
  constructor
  · obtain ⟨hm, hh⟩ := findRow_spec hr
    by_contra hlog
    simp only [isLog, Bool.not_eq_false, Bool.and_eq_true, decide_eq_true_eq] at hlog
    have block : a / 0x10000 = 0 := by omega
    simp only [regRowsAt, block] at hm
    have := below r hm hc
    have := RegRow.holds_le hh
    omega
  · rintro rfl
    have port : (findRow Reg.NVS_DATA).all (fun x => x.access != .rc) = true := by decide
    simp [hr, hc] at port

/-! ### What a violation logs -/

theorem State.logEnter_newest (fresh : LogEntry) (s : State) : (s.logEnter fresh).newest = some fresh := by
  unfold State.logEnter State.newest; dsimp only
  generalize (decide (s.glb.log.length ≥ 128) && _) = lost
  cases lost <;> simp

/-- From stage 1 on an entry is the newest of the log, new or a repeat (R34, R39). -/
theorem State.logPut_newest {s : State} (h : s.pwr.stage ≠ 0) (kind index cls : Nat) (ev : Bool) (detail : Word) :
    ∃ e, (s.logPut kind index cls ev detail).newest = some e ∧ e.kind = kind ∧ e.index = index ∧ e.cls = cls ∧ e.event = ev := by
  unfold State.logPut; dsimp only
  rw [if_neg h]
  split
  · split
    next same =>
      obtain ⟨hk, hi, hc, he, -⟩ := same
      exact ⟨_, rfl, hk, hi, hc, he⟩
    · exact ⟨_, State.logEnter_newest _ _, rfl, rfl, rfl, rfl⟩
  · exact ⟨_, State.logEnter_newest _ _, rfl, rfl, rfl, rfl⟩

theorem State.viol_newest {s : State} (h : s.pwr.stage ≠ 0) (kind index cls : Nat) (detail : Word) :
    ∃ e, (s.viol kind index cls detail).newest = some e ∧ e.kind = kind ∧ e.index = index ∧ e.cls = cls ∧ e.event = false :=
  State.logPut_newest (by simpa using h) ..

/-- A violation of the SPI host changes its count and what the log changes. -/
theorem State.violSpi_changes (cls addr : Nat) (s : State) :
    changedOnly [.regs, .glb] s (s.violSpi cls addr) ∧ regsBut (Reg.GLB_VIOL 7 (cls / 2) :: logRegs) s (s.violSpi cls addr) := by
  refine ⟨(violSpi_keeps rfl rfl (Kept.refl _ s)).changedOnly, fun a ha => ?_⟩
  simp only [logRegs, List.mem_cons, List.not_mem_nil, or_false, not_or] at ha
  exact State.violSpi_reg s ha.2.1 ha.2.2 ha.1

/-! ### Locked registers (R11) -/

/-- A locked write is a violation of the SPI host alone. -/
theorem hostWrite_locked {s : State} {a : Nat} {r : RegRow} (hr : findRow a = some r) (hl : r.access = .rwl) (h3 : 3 ≤ s.pwr.stage)
    (hs : s.served a = true) (w : Word) : hostWrite a w s = s.violSpi 4 a := by
  simp [hostWrite, windowAct_eq_none_of_rwl hr hl, State.hosted, hs, regWrite, hr, hl, h3]

/-- What a locked write leaves. -/
theorem violSpi_locked {s : State} {a : Nat} {r : RegRow} (hr : findRow a = some r) (hl : r.access = .rwl) (h3 : 3 ≤ s.pwr.stage) :
    changedOnly [.regs, .glb] s (s.violSpi 4 a) ∧ regsBut (Reg.GLB_VIOL 7 2 :: logRegs) s (s.violSpi 4 a) ∧
      (s.violSpi 4 a).reg a = s.reg a ∧
      ∃ e, (s.violSpi 4 a).newest = some e ∧ e.kind = 7 ∧ e.index = 0 ∧ e.cls = 4 ∧ e.event = false := by
  obtain ⟨parts, regs⟩ := State.violSpi_changes 4 a s
  exact ⟨parts, regs, regs a (not_mem_violation_regs_of_rwl hr hl), State.viol_newest (by omega) ..⟩

/-- Settles O52: a locked write is a violation and nothing else, and no step leaves stage 3 for stage 2, since the only entry to stage 2
is the climb from stage 1. -/
theorem lockedRegisters : Obligations.LockedRegisters := by
  unfold Obligations.LockedRegisters
  refine ⟨fun s a w r hr hl h3 hs => ?_, fun s h3 => ?_⟩
  · obtain ⟨parts, regs, same, logged⟩ := violSpi_locked hr hl h3
    exact ⟨_, congrArg Host.Outcome.next (hostWrite_locked hr hl h3 hs w), same, by simp, parts, regs, logged⟩
  · obtain ⟨t, ht, h2⟩ := step_stage_ne_two h3
    exact ⟨t, ht, by omega⟩

end Sys2Proof.Machine
end

section
/-!
SUPPORT. What host software's write and read of a register leave (R10).
-/

namespace Sys2Proof.Machine

/-! ### Writes of registers without an action -/

/-- What a write to a register without an action stores, by its access code (R10). -/
theorem storeWrite_spec (r : RegRow) (a : Nat) (w : Word) (s : State) :
    changedOnly [.regs] s (storeWrite r a w s) ∧ regsBut [a] s (storeWrite r a w s) ∧
      (r.access = .rw ∨ r.access = .rwl → (storeWrite r a w s).reg a =
        storedForm a ((s.reg a &&& ~~~BitVec.ofNat 32 r.mask) ||| (w &&& BitVec.ofNat 32 r.mask))) ∧
      (r.access = .w1c → (storeWrite r a w s).reg a = s.reg a &&& ~~~w) ∧
      (r.access = .ro ∨ r.access = .wo ∨ r.access = .rc → storeWrite r a w s = s) := by
  refine ⟨(storeWrite_keeps rfl (Kept.refl _ s)).changedOnly, fun b hb => ?_, ?_, ?_, ?_⟩
  · rw [List.mem_singleton] at hb
    unfold storeWrite; dsimp only
    split <;> simp [hb]
  · rintro (h | h) <;> simp [storeWrite, h]
  · intro h; simp [storeWrite, h]
  · rintro (h | h | h) <;> simp [storeWrite, h]

theorem hostWrite_not_served {s : State} {a : Nat} (h : s.served a = false) (w : Word) : hostWrite a w s = s := by
  simp [hostWrite, State.hosted, h]

/-- A write of a reserved address outside the windows is nothing (R9). -/
theorem hostWrite_reserved {a : Nat} {w : Word} (hw : windowAct a w = none) (hr : findRow a = none) (s : State) : hostWrite a w s = s := by
  simp [hostWrite, State.hosted, hw, regWrite, hr]

/-- A write of a register that is not locked and has no action goes by its access code. -/
theorem hostWrite_stored {s : State} {a : Nat} {w : Word} {r : RegRow} (hs : s.served a = true) (hw : windowAct a w = none)
    (hr : findRow a = some r) (hl : r.access ≠ .rwl ∨ s.pwr.stage < 3) (ha : actOf a = none) : hostWrite a w s = storeWrite r a w s := by
  have unlocked : ¬ (r.access = .rwl ∧ s.pwr.stage ≥ 3) := by rintro ⟨h, h3⟩; exact hl.elim (· h) (by omega)
  simp [hostWrite, State.hosted, hs, hw, regWrite, hr, unlocked, ha]

/-! ### Reads of RC registers -/

/-- A completed read of an RC register leaves it at its reset value, and of the rest the least margin and the time of a missed trigger
alone (R10, R57, R341). -/
theorem rcClear_spec (a : Nat) (s : State) :
    changedOnly [.regs, .pwr, .acq] s (rcClear a s) ∧ regsBut [a] s (rcClear a s) ∧ (rcClear a s).reg a = regReset a := by
  have reg : ∀ b, (rcClear a s).reg b = (s.setReg a (regReset a)).reg b := fun b => by
    unfold rcClear; dsimp only
    split
    · simp
    · split <;> simp
  refine ⟨(rcClear_keeps rfl rfl rfl (Kept.refl _ s)).changedOnly, fun b hb => ?_, ?_⟩
  · rw [reg, State.reg_setReg_ne _ _ (by simpa using hb)]
  · rw [reg]; simp

theorem afterRead_not_served {s : State} {a : Nat} (h : s.served a = false) : afterRead a s = s := by
  simp [afterRead, h]

theorem afterRead_rc {s : State} {a : Nat} {r : RegRow} (hs : s.served a = true) (hr : findRow a = some r) (hc : r.access = .rc) :
    afterRead a s = rcClear a s := by
  obtain ⟨hlog, hport⟩ := not_log_of_rc hr hc
  simp [afterRead, hs, hr, hc, hlog, hport]

/-- Settles O49: a write goes by the row of its address (nothing, locked, or stored), and a read of an RC register by `rcClear`. -/
theorem registerAccess : Obligations.RegisterAccess := by
  unfold Obligations.RegisterAccess
  intro s a
  refine ⟨fun w => ⟨_, rfl, fun hs => hostWrite_not_served hs w, fun hw hr => hostWrite_reserved hw hr s, fun r hs hw hr => ⟨?_, ?_⟩⟩,
    _, rfl, ?_, fun r hr => ⟨fun hc => by simp [hr, hc], fun hc hs => ?_⟩⟩
  · intro hl h3
    rw [hostWrite_locked hr hl h3 hs]
    exact violSpi_locked hr hl h3
  · intro hl ha
    rw [hostWrite_stored hs hw hr hl (by simpa using ha)]
    exact storeWrite_spec r a.toNat w s
  · rintro (hs | hr)
    · split
      · simp [afterRead_not_served hs]
      · rfl
    · simp [hr]
  · simp only [hr, hc, if_true, afterRead_rc hs hr hc]
    exact rcClear_spec a.toNat s

end Sys2Proof.Machine
end

section
/-!
SUPPORT. The read frames of the management port (R439, R440, R441).
-/

namespace Sys2Proof.Machine

/-! ### Bytes -/

theorem leNat_lt (bs : List Byte) : leNat bs < 256 ^ bs.length := by
  induction bs with
  | nil => simp [leNat]
  | cons b bs ih =>
    have := b.isLt
    rw [leNat, List.length_cons, pow_succ]
    omega

/-- Four bytes make a word. -/
theorem leNat_take_four_lt (b : List Byte) : leNat (b.take 4) < 2 ^ 32 :=
  calc leNat (b.take 4) < 256 ^ (b.take 4).length := leNat_lt _
    _ ≤ 256 ^ 4 := Nat.pow_le_pow_right (by decide) (List.length_take_le 4 b)
    _ = 2 ^ 32 := by decide

@[simp] theorem leBytes_length (n x : Nat) : (leBytes n x).length = n := by
  induction n generalizing x with
  | zero => rfl
  | succ n ih => simp [leBytes, ih]

/-! ### A frame that is discarded (R440) -/

/-- What the port counts, logs and says of a frame discarded from a state with the address known. -/
theorem spiDiscard_effect {cls : Nat} (hne : Reg.GLB_SPI_STATUS ≠ Reg.GLB_VIOL 7 (cls / 2)) (addr : Word) (out : List Byte) (s : State) :
    (spiDiscard cls addr out s).glb.spiOut = out ∧ (spiDiscard cls addr out s).glb.spiBroke = decide (1 ≤ s.pwr.stage) ∧
      (s.pwr.stage = 0 → regsBut [] s (spiDiscard cls addr out s) ∧ (spiDiscard cls addr out s).glb.log = s.glb.log) ∧
      (1 ≤ s.pwr.stage → regsBut (Reg.GLB_SPI_STATUS :: Reg.GLB_VIOL 7 (cls / 2) :: logRegs) s (spiDiscard cls addr out s) ∧
        (spiDiscard cls addr out s).fld Reg.GLB_SPI_STATUS 15 0 = min 65535 (s.fld Reg.GLB_SPI_STATUS 15 0 + 1) ∧
        ∃ e, (spiDiscard cls addr out s).newest = some e ∧ e.kind = 7 ∧ e.index = 0 ∧ e.cls = cls ∧ e.event = false) := by
  refine ⟨rfl, by simp [spiDiscard, spiEnd], fun h0 => ?_, fun h1 => ?_⟩
  · have quiet : spiViolation cls addr s = s := by simp [spiViolation, h0]
    rw [spiDiscard, quiet]
    exact ⟨fun _ _ => rfl, rfl⟩
  · have stage : (s.addLo Reg.GLB_SPI_STATUS 1).pwr.stage ≠ 0 := by rw [State.addLo_pwr]; omega
    have counted : spiViolation cls addr s = (s.addLo Reg.GLB_SPI_STATUS 1).viol 7 0 cls addr := by
      simp [spiViolation, Nat.one_le_iff_ne_zero.mp h1]
    rw [spiDiscard, counted]
    refine ⟨fun a ha => ?_, ?_, State.viol_newest stage ..⟩
    · simp only [logRegs, List.mem_cons, List.not_mem_nil, or_false, not_or] at ha
      obtain ⟨hst, hviol, hint, hlost⟩ := ha
      exact (State.viol_reg _ hint hlost hviol).trans (State.addLo_reg_ne s hst)
    · calc fld (((s.addLo Reg.GLB_SPI_STATUS 1).viol 7 0 cls addr).reg Reg.GLB_SPI_STATUS) 15 0
          = (s.addLo Reg.GLB_SPI_STATUS 1).fld Reg.GLB_SPI_STATUS 15 0 :=
            congrArg (fld · 15 0) (State.viol_reg _ (by decide) (by decide) hne)
        _ = satAdd 0xFFFF (s.fld Reg.GLB_SPI_STATUS 15 0) 1 % 2 ^ 16 := State.fld_setFld s _ _ (by decide) (by decide)
        _ = min 65535 (s.fld Reg.GLB_SPI_STATUS 15 0 + 1) := by unfold satAdd; omega

/-- A frame discarded with its address on the wire. -/
theorem spiDiscard_discarded {cls : Nat} (hne : Reg.GLB_SPI_STATUS ≠ Reg.GLB_VIOL 7 (cls / 2)) (addr : Word) (out : List Byte) (s : State) :
    frameDiscarded s (spiDiscard cls addr out s) cls out :=
  ⟨(spiDiscard_keeps rfl rfl (Kept.refl _ s)).changedOnly, spiDiscard_effect hne addr out s⟩

/-- A frame discarded with an address that is not complete: the address logged is drawn. -/
theorem spiDiscard_draw_discarded {cls : Nat} (hne : Reg.GLB_SPI_STATUS ≠ Reg.GLB_VIOL 7 (cls / 2)) (addr : Word) (out : List Byte)
    (s : State) : frameDiscarded s (spiDiscard cls addr out s.draw.2) cls out :=
  ⟨(spiDiscard_keeps rfl rfl (draw_keeps rfl (Kept.refl _ s))).changedOnly, spiDiscard_effect hne addr out s.draw.2⟩

/-! ### Words of a read frame (R441) -/

theorem spiReadWords_nil (incr : Bool) (a : Nat) (late : List Nat) (copy : State) (i n : Nat) (s : State) :
    spiReadWords incr a late copy 0 i n s = ([], s) := rfl

/-- A word that is ready and leaves whole. -/
theorem spiReadWords_whole (incr : Bool) (a : Nat) (copy : State) (k i : Nat) {n : Nat} (hn : 4 ≤ n) (s : State) :
    spiReadWords incr a [] copy (k + 1) i n s =
      (leBytes 4 (readReg (if fromCopy (wordAddr incr a i) then copy else s) (wordAddr incr a i)).toNat ++
          (spiReadWords incr a [] copy k (i + 1) (n - 4) (afterRead (wordAddr incr a i) s)).1,
        (spiReadWords incr a [] copy k (i + 1) (n - 4) (afterRead (wordAddr incr a i) s)).2) := by
  have whole : ∀ w, (leBytes 4 w).take n = leBytes 4 w := fun w => List.take_of_length_le ((leBytes_length 4 w).trans_le hn)
  have some_left : n ≠ 0 := by omega
  simp [spiReadWords, some_left, hn, whole]

/-- A word that is ready and of which the frame takes a part. -/
theorem spiReadWords_part (incr : Bool) (a : Nat) (copy : State) (i : Nat) {n : Nat} (h0 : n ≠ 0) (hn : n < 4) (s : State) :
    spiReadWords incr a [] copy 1 i n s =
      ((leBytes 4 (readReg (if fromCopy (wordAddr incr a i) then copy else s) (wordAddr incr a i)).toNat).take n, s) := by
  simp [spiReadWords, h0, Nat.not_le.mpr hn]

/-- The only word of a frame is not ready: it reads as zero and is counted, from stage 1 on. -/
theorem spiReadWords_late (incr : Bool) (a : Nat) (copy s : State) :
    spiReadWords incr a [0] copy 1 0 4 s = ([0, 0, 0, 0], if s.pwr.stage = 0 then s else s.addHi Reg.GLB_SPI_STATUS 1) := by
  simp [spiReadWords, leBytes]

theorem wordAddr_zero (incr : Bool) {a : Nat} (ha : a < 2 ^ 32) : wordAddr incr a 0 = a := by
  cases incr
  · rfl
  · exact Nat.mod_eq_of_lt ha

theorem wordAddr_one (incr : Bool) (a : Nat) : wordAddr incr a 1 = if incr then (a + 4) % 2 ^ 32 else a := rfl

/-! ### Read frames (R439) -/

theorem spiRead_off {s : State} (h : s.pwr.off = true) (incr : Bool) (b : List Byte) (n : Nat) (late : List Nat) :
    spiRead incr b n late s = s := by
  simp [spiRead, spiFrame, h]

theorem spiRead_short {s : State} (h : s.pwr.off = false) {b : List Byte} (h4 : b.length < 4) (incr : Bool) (n : Nat) (late : List Nat) :
    frameDiscarded s (spiRead incr b n late s) 3 (spiStatus s :: List.replicate b.length 0) := by
  have e : spiRead incr b n late s =
      spiDiscard 3 (Config.partialAddress s.draw.1) (spiStatus s :: List.replicate b.length 0) s.draw.2 := by
    simp [spiRead, spiFrame, spiAddress, h, h4, Nat.not_le.mpr h4, Nat.min_eq_right h4.le]
  rw [e]
  exact spiDiscard_draw_discarded (by decide) ..

theorem spiRead_unaligned {s : State} (h : s.pwr.off = false) {b : List Byte} (h4 : 4 ≤ b.length) (ha : leNat (b.take 4) % 4 ≠ 0)
    (incr : Bool) (n : Nat) (late : List Nat) :
    frameDiscarded s (spiRead incr b n late s) 2 (spiStatus s :: List.replicate 4 0) := by
  have e : spiRead incr b n late s =
      spiDiscard 2 (BitVec.ofNat 32 (leNat (b.take 4))) (spiStatus s :: List.replicate 4 0) s := by
    simp [spiRead, spiFrame, spiAddress, h, h4, List.take_take, ha]
  rw [e]
  exact spiDiscard_discarded (by decide) ..

/-- A frame with a good address: the words, then what the port keeps of the frame. -/
theorem spiRead_words {s : State} (h : s.pwr.off = false) {b : List Byte} (h4 : 4 ≤ b.length) (ha : leNat (b.take 4) % 4 = 0)
    (incr : Bool) (n : Nat) (late : List Nat) :
    spiRead incr b n late s =
      spiEnd (late.any (fun i => decide (i < divUp (n - spiDummy s) 4)))
        (spiStatus s :: List.replicate (4 + min (spiDummy s) n) 0 ++
          (spiReadWords incr (leNat (b.take 4)) late s (divUp (n - spiDummy s) 4) 0 (n - spiDummy s) s).1)
        (spiReadWords incr (leNat (b.take 4)) late s (divUp (n - spiDummy s) 4) 0 (n - spiDummy s) s).2 := by
  have lt : leNat (b.take 4) < 4294967296 := leNat_take_four_lt b
  simp [spiRead, spiFrame, spiAddress, h, h4, List.take_take, Nat.mod_eq_of_lt lt, ha, List.replicate_add]

section
variable {s : State} (hon : s.pwr.off = false) {b : List Byte} (h4 : 4 ≤ b.length) (ha : leNat (b.take 4) % 4 = 0) (incr : Bool) {n : Nat}
include hon h4 ha

/-- Up to the dummy bytes the frame changes nothing but what the port keeps of it. -/
theorem spiRead_head (late : List Nat) (hn : n ≤ spiDummy s) :
    spiRead incr b n late s = spiEnd false (spiStatus s :: List.replicate (4 + min (spiDummy s) n) 0) s := by
  have no_word : (late.any fun i => decide (i < 0)) = false := List.any_eq_false.mpr fun _ _ => by simp
  rw [spiRead_words hon h4 ha, Nat.sub_eq_zero_of_le hn, show divUp 0 4 = 0 from rfl, spiReadWords_nil, no_word, List.append_nil]

/-- A frame that ends within its first word. -/
theorem spiRead_part (hlo : spiDummy s < n) (hhi : n < spiDummy s + 4) :
    spiRead incr b n [] s =
      spiEnd false (spiStatus s :: List.replicate (4 + min (spiDummy s) n) 0 ++
        (leBytes 4 (readReg s (leNat (b.take 4))).toNat).take (n - spiDummy s)) s := by
  have one : divUp (n - spiDummy s) 4 = 1 := by unfold divUp; omega
  have some_left : n - spiDummy s ≠ 0 := by omega
  have not_whole : n - spiDummy s < 4 := by omega
  rw [spiRead_words hon h4 ha, one, spiReadWords_part _ _ _ _ some_left not_whole, wordAddr_zero incr (leNat_take_four_lt b), ite_self]
  rfl

/-- A frame of one word. -/
theorem spiRead_one (hn : n = spiDummy s + 4) :
    spiRead incr b n [] s =
      spiEnd false (spiStatus s :: List.replicate (4 + min (spiDummy s) n) 0 ++ leBytes 4 (readReg s (leNat (b.take 4))).toNat)
        (afterRead (leNat (b.take 4)) s) := by
  have four : n - spiDummy s = 4 := by omega
  rw [spiRead_words hon h4 ha, four, show divUp 4 4 = 1 from rfl, spiReadWords_whole _ _ _ _ _ le_rfl, spiReadWords_nil,
    wordAddr_zero incr (leNat_take_four_lt b), ite_self, List.append_nil]
  rfl

/-- A frame of one word that is not ready. -/
theorem spiRead_late (hn : n = spiDummy s + 4) :
    spiRead incr b n [0] s =
      spiEnd true (spiStatus s :: List.replicate (4 + min (spiDummy s) n) 0 ++ [0, 0, 0, 0])
        (if s.pwr.stage = 0 then s else s.addHi Reg.GLB_SPI_STATUS 1) := by
  have four : n - spiDummy s = 4 := by omega
  rw [spiRead_words hon h4 ha, four, show divUp 4 4 = 1 from rfl, spiReadWords_late]
  rfl

/-- The bytes of a frame of two words. -/
theorem spiRead_two (hn : n = spiDummy s + 8) :
    (spiRead incr b n [] s).glb.spiOut =
      spiStatus s :: List.replicate (4 + min (spiDummy s) n) 0 ++ leBytes 4 (readReg s (leNat (b.take 4))).toNat ++
        leBytes 4 (readReg
          (if fromCopy (wordAddr incr (leNat (b.take 4)) 1) then s else afterRead (leNat (b.take 4)) s)
          (wordAddr incr (leNat (b.take 4)) 1)).toNat ∧
    (spiRead incr b n [] s).glb.spiBroke = false := by
  have eight : n - spiDummy s = 8 := by omega
  rw [spiRead_words hon h4 ha, eight, show divUp 8 4 = 2 from rfl, spiReadWords_whole _ _ _ _ _ (by decide),
    spiReadWords_whole _ _ _ _ _ (by decide), spiReadWords_nil, wordAddr_zero incr (leNat_take_four_lt b), ite_self, List.append_nil,
    List.append_assoc]
  exact ⟨rfl, rfl⟩

end

/-- What a frame of one late word counts (R441). -/
theorem spiEnd_late (out : List Byte) (s : State) :
    let t := spiEnd true out (if s.pwr.stage = 0 then s else s.addHi Reg.GLB_SPI_STATUS 1)
    changedOnly [.regs, .glb] s t ∧ t.glb.spiOut = out ∧ t.glb.spiBroke = decide (1 ≤ s.pwr.stage) ∧ regsBut [Reg.GLB_SPI_STATUS] s t ∧
      (1 ≤ s.pwr.stage → t.fld Reg.GLB_SPI_STATUS 31 16 = min 65535 (s.fld Reg.GLB_SPI_STATUS 31 16 + 1)) := by
  intro t
  have counted : Kept (fun p => decide (p ∈ [Part.regs, .glb])) s (if s.pwr.stage = 0 then s else s.addHi Reg.GLB_SPI_STATUS 1) :=
    iteInduction (fun _ => Kept.refl _ s) (fun _ => addHi_keeps rfl (Kept.refl _ s))
  refine ⟨(spiEnd_keeps rfl counted).changedOnly, rfl, ?_, fun a ha => ?_, fun h1 => ?_⟩
  · by_cases h0 : s.pwr.stage = 0 <;> simp [t, spiEnd, h0]
  · by_cases h0 : s.pwr.stage = 0
    · simp [t, spiEnd, h0]
    · simp only [t, spiEnd, h0, if_false]
      exact State.addHi_reg_ne s (by simpa using ha)
  · have h0 : s.pwr.stage ≠ 0 := by omega
    simp only [t, spiEnd, h0, if_false]
    calc (s.addHi Reg.GLB_SPI_STATUS 1).fld Reg.GLB_SPI_STATUS 31 16
        = satAdd 0xFFFF (s.fld Reg.GLB_SPI_STATUS 31 16) 1 % 2 ^ 16 := State.fld_setFld s _ _ (by decide) (by decide)
      _ = min 65535 (s.fld Reg.GLB_SPI_STATUS 31 16 + 1) := by unfold satAdd; omega

/-- A read frame of either kind. -/
theorem spiRead_frameRead (incr : Bool) (b : List Byte) (n : Nat) (late : List Nat) (s : State) :
    frameRead incr b n late s (spiRead incr b n late s) := by
  refine ⟨fun hoff => spiRead_off hoff .., fun hon => ⟨fun h4 => spiRead_short hon h4 .., fun h4 ha => spiRead_unaligned hon h4 ha ..,
    fun h4 ha => ⟨fun hn => spiRead_head hon h4 ha incr late hn, ?_, ?_, ?_, ?_⟩⟩⟩
  · rintro hlo hhi rfl
    exact spiRead_part hon h4 ha incr hlo hhi
  · rintro hn rfl
    exact spiRead_one hon h4 ha incr hn
  · rintro hn rfl
    rw [spiRead_late hon h4 ha incr hn]
    exact spiEnd_late ..
  · rintro hn rfl
    exact spiRead_two hon h4 ha incr hn

/-- Settles O51: READ_INCR and READ_FIXED are the two kinds of read frame. -/
theorem readFrames : Obligations.ReadFrames := by
  unfold Obligations.ReadFrames
  exact fun s b n late => ⟨⟨_, rfl, spiRead_frameRead true b n late s⟩, _, rfl, spiRead_frameRead false b n late s⟩

end Sys2Proof.Machine
end

section
/-!
SUPPORT. What reset leaves (R12).
-/

namespace Sys2Proof.Machine

/-- Before any register is stored each reads as the Reset column gives it. -/
theorem reset_reg (a : Nat) : State.reset.reg a = regReset a := by
  unfold State.reg
  split <;> rfl

theorem reset_wf : Memory.wf State.reset = true := by decide

/-- Settles O54: the fields of the state right after reset, its registers, and its tables, all of them empty. -/
theorem resetState : Obligations.ResetState := by
  unfold Obligations.ResetState
  exact ⟨rfl, rfl, rfl, reset_reg, rfl, rfl, rfl, reset_wf⟩

end Sys2Proof.Machine
end

section
/-!
SUPPORT. Registers, commands that host software or the drover gives, and interrupt flags of units that every device has.
-/

namespace Sys2Proof.Machine

/-! ### Registers of a state whose register tables are the same -/

theorem State.reg_congr {s t : State} (h : t.regs = s.regs ∧ t.aonRegs = s.aonRegs) (a : Nat) : t.reg a = s.reg a := by
  unfold State.reg; rw [h.1, h.2]

theorem Kept.reg {L : Part → Bool} {s t : State} (K : Kept L s t) (h : L .regs = false) (a : Nat) : t.reg a = s.reg a :=
  State.reg_congr (K.regs h) a

/-- A flag asserted by one update stays set by the assertion of another. -/
theorem State.bit_raise_of_bit (s : State) {a b c d : Nat} (hd : d < 32) (h : s.bit c d = true) : (s.raise a b).bit c d = true := by
  by_cases e : c = a ∧ d = b
  · obtain ⟨rfl, rfl⟩ := e
    cases ha : absentReg s.fuse.order c
    · exact State.bit_raise s ha hd
    · simpa [State.raise, ha] using h
  · rw [State.bit_raise_ne s hd (by tauto), h]

/-! ### Commands through a register, and those of the drover -/

theorem State.hosted_served {s : State} {a : Nat} (h : s.served a = true) (f : State → State) : s.hosted a f = f s := if_pos h

theorem State.hosted_not_served {s : State} {a : Nat} (h : s.served a = false) (f : State → State) : s.hosted a f = s := by
  simp [State.hosted, h]

theorem State.asked_heard {s : State} {a : Nat} {drover : Bool} (h : drover = true ∨ s.served a = true) (f : State → State) :
    s.asked drover a f = f s := by
  cases drover
  · exact State.hosted_served (h.resolve_left Bool.false_ne_true) f
  · rfl

theorem State.asked_not_served {s : State} {a : Nat} {drover : Bool} (hd : drover = false) (h : s.served a = false) (f : State → State) :
    s.asked drover a f = s := by
  subst hd; exact State.hosted_not_served h f

end Sys2Proof.Machine
end

section
/-!
SUPPORT. The FFT engines' jobs: what a submission, a start and an end of a job leave (R174 to R178).
-/

namespace Sys2Proof.Machine

/-! ### Submissions (R177, Table 6-12) -/

theorem present_fftInt (o : Order) : absentReg o Reg.FFT_INT_STATUS = false := by cases o <;> rfl

theorem fftCode_lt (s : State) (f : Nat) : fftCode s f < 256 := by
  unfold fftCode; dsimp only
  repeat' split
  all_goals decide

/-- FFT_STATUS and FFT_INT_STATUS are different registers. -/
theorem fftStatus_ne_int (f : Fin 8) : Reg.FFT_STATUS f ≠ Reg.FFT_INT_STATUS := by
  unfold Reg.FFT_STATUS Reg.FFT_INT_STATUS; omega

/-- A refused submission shows its code and asserts the refusal's flag alone. -/
theorem fftSubmit_refused {s : State} {f : Fin 8} (h : fftCode s f ≠ 0) (id : Nat) :
    let t := fftSubmit f id s
    t.fld (Reg.FFT_STATUS f) 27 26 = 2 ∧ t.fld (Reg.FFT_STATUS f) 23 16 = fftCode s f ∧ t.bit Reg.FFT_INT_STATUS (8 + f) = true ∧
      regsBut [Reg.FFT_STATUS f, Reg.FFT_INT_STATUS] s t ∧ changedOnly [.regs] s t := by
  intro t
  have e : t = (s.setReg (Reg.FFT_STATUS f) (put (put (s.reg (Reg.FFT_STATUS f)) 27 26 2) 23 16 (fftCode s f))).raise
      Reg.FFT_INT_STATUS (8 + f) := if_pos h
  have word : t.reg (Reg.FFT_STATUS f) = put (put (s.reg (Reg.FFT_STATUS f)) 27 26 2) 23 16 (fftCode s f) := by
    rw [e, State.raise_reg_ne _ (fftStatus_ne_int f), State.reg_setReg, if_pos rfl]
  refine ⟨?_, ?_, ?_, fun a ha => ?_, ?_⟩
  · rw [State.fld, word, fld_put_above _ _ (by decide) (by decide) (by decide), fld_put _ _ (by decide) (by decide)]; rfl
  · rw [State.fld, word, fld_put _ _ (by decide) (by decide)]
    exact Nat.mod_eq_of_lt (fftCode_lt s f)
  · rw [e]; exact State.bit_raise _ (present_fftInt _) (by omega)
  · simp only [List.mem_cons, List.not_mem_nil, or_false, not_or] at ha
    rw [e, State.raise_reg_ne _ ha.2, State.reg_setReg_ne _ _ ha.1]
  · rw [e]; exact (raise_keeps rfl (setReg_keeps rfl (Kept.refl _ s))).changedOnly

/-- OUTCOME of the status of an accepted submission. -/
theorem fld_acceptedStatus {tag : Nat} (h : tag < 65536) : fld (pk [(26, 1), (0, tag)]) 27 26 = 1 := by
  simp only [fld, pk, List.foldl_cons, List.foldl_nil, BitVec.toNat_ofNat]; omega

/-- An accepted submission is the last job of its engine's queue. -/
theorem fftSubmit_accepted {s : State} {f : Fin 8} (h : fftCode s f = 0) (id : Nat) :
    let t := fftSubmit f id s
    let tag := ((vget s.fft f).tag + 1) % 65536
    (vget t.fft f).queue = (vget s.fft f).queue ++ [(
        { cfg := s.reg (Reg.FFT_JOB_CFG f), src := s.reg (Reg.FFT_JOB_SRC f), dst := s.reg (Reg.FFT_JOB_DST f), tag := tag, id := id
          epoch := s.fhp.epoch } : FftJob)] ∧
      (vget t.fft f).tag = tag ∧ (vget t.fft f).run = (vget s.fft f).run ∧
      t.fld (Reg.FFT_STATUS f) 27 26 = 1 ∧ regsBut [Reg.FFT_STATUS f] s t ∧ changedOnly [.regs, .fft] s t := by
  intro t tag
  have e : t = (s.modFft f (fun x => { x with
      queue := x.queue ++ [{ cfg := s.reg (Reg.FFT_JOB_CFG f), src := s.reg (Reg.FFT_JOB_SRC f), dst := s.reg (Reg.FFT_JOB_DST f),
                             tag := tag, id := id, epoch := s.fhp.epoch }]
      tag := tag })).setReg (Reg.FFT_STATUS f) (pk [(26, 1), (0, tag)]) := if_neg (not_not_intro h)
  rw [e]
  simp only [State.setReg_fft, State.modFft_fft, vget_vmod_same _ _ f.isLt, true_and]
  refine ⟨?_, fun a ha => ?_, (setReg_keeps rfl (modFft_keeps rfl (Kept.refl _ s))).changedOnly⟩
  · rw [State.fld, State.reg_setReg, if_pos rfl]
    exact fld_acceptedStatus (Nat.mod_lt _ (by decide))
  · rw [State.reg_setReg_ne _ _ (by simpa using ha), State.modFft_reg]

/-! ### The start of a job (R174, R176) -/

theorem fftStart_empty {s : State} {f : Nat} (h : (vget s.fft f).queue = []) (xs : List Cplx) (first : Nat) : fftStart f xs first s = s := by
  simp [fftStart, h]

theorem fftStart_not_ready {s : State} {f : Nat} {j : FftJob} {rest : List FftJob} (h : (vget s.fft f).queue = j :: rest)
    (hr : jobReady s (vget s.fft f) j = false) (xs : List Cplx) (first : Nat) : fftStart f xs first s = s := by
  simp [fftStart, h, hr]

/-- Fetching a job's input leaves the engines. -/
theorem jobInput_fft (f : Nat) (j : FftJob) (xs : List Cplx) (s : State) : (jobInput f j xs s).2.fft = s.fft :=
  (jobInput_keeps (L := fun p => decide (p ∈ [Part.regs, .mon, .drc])) rfl rfl rfl (Kept.refl _ s)).fft rfl

/-- An engine takes its first job when that is ready; the other engines stay. -/
theorem fftStart_ready {s : State} {f : Fin 8} {j : FftJob} {rest : List FftJob} (h : (vget s.fft f).queue = j :: rest)
    (hr : jobReady s (vget s.fft f) j = true) (xs : List Cplx) (first : Nat) :
    let t := fftStart f xs first s
    (vget t.fft f).queue = rest ∧ (∃ k, (vget t.fft f).run = some k ∧ k.cfg = j.cfg ∧ k.src = j.src ∧ k.dst = j.dst ∧ k.tag = j.tag) ∧
      ∀ g : Fin 8, g ≠ f → vget t.fft g = vget s.fft g := by
  intro t
  let p := jobInput f j xs s
  let k : FftJob := { j with input := p.1, first := if jobSrc j.cfg = 0 then first else 0
                             dram := namesDram j.cfg && p.2.drc.state == .failed }
  have e : t = p.2.modFft f (fun x => { x with queue := rest, run := some k, began := p.2.time.tb1 }) := by
    simp [t, fftStart, h, hr, p, k]
  rw [e]
  refine ⟨?_, ⟨k, ?_, rfl, rfl, rfl, rfl⟩, fun g hg => ?_⟩
  · rw [State.modFft_fft, vget_vmod_same _ _ f.isLt]
  · rw [State.modFft_fft, vget_vmod_same _ _ f.isLt]
  · rw [State.modFft_fft, vget_vmod_ne _ _ (by simpa [Fin.ext_iff] using hg), jobInput_fft]

/-! ### The end of a job (R175, R178) -/

theorem fftDone_idle {s : State} {f : Nat} (h : (vget s.fft f).run = none) : fftDone f s = s := by
  simp [fftDone, h]

theorem fftDone_waits {s : State} {f : Nat} {j : FftJob} (h : (vget s.fft f).run = some j) (hw : jobWaits s j true = true) :
    fftDone f s = s := by
  simp [fftDone, h, hw]

/-- Writing a job's outputs leaves the engines. -/
theorem jobOutput_fft (j : FftJob) (out : List Cplx) (e : Nat) (failed : Bool) (s : State) : (jobOutput j out e failed s).fft = s.fft :=
  (jobOutput_keeps (L := fun p => decide (p ∈ [Part.skn, .drc])) rfl rfl (Kept.refl _ s)).fft rfl

/-- A job that ends leaves its engine idle, and its tag and exponent in FFT_RESULT. -/
theorem fftDone_ends {s : State} {f : Fin 8} {j : FftJob} (h : (vget s.fft f).run = some j) (hw : jobWaits s j true = false) :
    let t := fftDone f s
    (vget t.fft f).run = none ∧ (vget t.fft f).queue = (vget s.fft f).queue ∧ t.bit Reg.FFT_INT_STATUS f = true ∧
      t.reg (Reg.FFT_RESULT f) = pk [(16, j.tag), (15, b2n (j.dram || (namesDram j.cfg && s.drc.state == .failed))),
        (0, (fft (jobLog j.cfg) (bitOf j.cfg 31) (fld j.cfg 30 28) j.input).2)] := by
  intro t
  have int_ne : Reg.FFT_RESULT f ≠ Reg.FFT_INT_STATUS := by unfold Reg.FFT_RESULT Reg.FFT_INT_STATUS; omega
  have s_ne : Reg.FFT_RESULT f ≠ Reg.FFT_TIME_S f := by unfold Reg.FFT_RESULT Reg.FFT_TIME_S; omega
  have ns_ne : Reg.FFT_RESULT f ≠ Reg.FFT_TIME_NS f := by unfold Reg.FFT_RESULT Reg.FFT_TIME_NS; omega
  simp only [t, fftDone, h, hw, Bool.false_eq_true, if_false]
  refine ⟨?_, ?_, State.bit_raise _ (present_fftInt _) (by omega), ?_⟩
  · simp [vget_vmod_same, f.isLt]
  · simp [vget_vmod_same, f.isLt, jobOutput_fft]
  · rw [State.raise_reg_ne _ int_ne, State.modFft_reg, State.reg_setReg_ne _ _ ns_ne, State.reg_setReg_ne _ _ s_ne, State.reg_setReg,
      if_pos rfl]

/-- Settles O21: a submission by the code of Table 6-12, a start by whether the first job is ready, an end by whether a job runs and its
output can be written. -/
theorem fftJobs : Obligations.FftJobs := by
  unfold Obligations.FftJobs
  refine fun s f => ⟨fun drover => ⟨_, rfl, fun hd hs => State.asked_not_served hd hs _, fun heard => ?_⟩,
    fun xs first => ⟨_, rfl, fun h => fftStart_empty h xs first, fun j rest h hr => fftStart_not_ready h hr xs first,
      fun j rest h hr => fftStart_ready h hr xs first⟩,
    _, rfl, fftDone_idle, fun j h hw => fftDone_waits h hw, fun j h hw => fftDone_ends h hw⟩
  rw [State.asked_heard heard]
  split
  next refused => exact fftSubmit_refused refused _
  next accepted => exact fftSubmit_accepted (not_not.mp accepted) _

end Sys2Proof.Machine
end

section
/-!
SUPPORT. The weaver's jobs: loads that wait, failed spindles and their reserves, conversions to fall-back (R24, R25, R95 to R99).
-/

namespace Sys2Proof.Machine

/-! ### Refused loads (R86) -/

theorem present_wrpInt (o : Order) : absentReg o Reg.WRP_INT_STATUS = false := by cases o <;> rfl

@[simp] theorem wrpRefuse_wrp (e : LoadErr) (s : State) : (wrpRefuse e s).wrp = s.wrp :=
  (wrpRefuse_keeps (L := fun p => decide (p ∈ [Part.regs])) rfl (Kept.refl _ s)).wrp rfl

/-- OUTCOME and ERROR of a load's end. -/
theorem wrpStatus_fields {outcome : Nat} (ho : outcome < 4) (error : Nat) (s : State) :
    (wrpStatus outcome error s).fld Reg.WRP_STATUS 1 0 = outcome ∧ (wrpStatus outcome error s).fld Reg.WRP_STATUS 31 24 = error % 256 := by
  unfold wrpStatus
  refine ⟨?_, State.fld_setFld _ _ _ (by decide) (by decide)⟩
  rw [State.fld_setFld_below _ _ _ (by decide) (by decide) (by decide) (by decide), State.fld_setFld _ _ _ (by decide) (by decide)]
  exact Nat.mod_eq_of_lt ho

/-- A refusal shows its code and its place. -/
theorem wrpRefuse_refused (e : LoadErr) (s : State) : loadRefused (wrpRefuse e s) e := by
  have status : (wrpRefuse e s).reg Reg.WRP_STATUS = (wrpStatus 2 e.1 s).reg Reg.WRP_STATUS := by
    unfold wrpRefuse
    rw [State.raise_reg_ne _ (by decide), State.reg_setReg_ne _ _ (by decide)]
  obtain ⟨outcome, error⟩ := wrpStatus_fields (by decide : 2 < 4) e.1 s
  refine ⟨?_, ?_, ?_, State.bit_raise _ (present_wrpInt _) (by decide)⟩
  · rw [State.fld, status]; exact outcome
  · rw [State.fld, status]; exact error
  · unfold wrpRefuse
    rw [State.raise_reg_ne _ (by decide), State.reg_setReg, if_pos rfl]

/-- A load that fails is refused and gone, and the active structure stays. -/
theorem loadFail_spec (e : LoadErr) (s : State) :
    loadRefused (loadFail e s) e ∧ (loadFail e s).wrp.load = none ∧ (loadFail e s).wrp.active = s.wrp.active :=
  ⟨wrpRefuse_refused e _, by simp [loadFail, loadEnd], by simp [loadFail, loadEnd]⟩

/-! ### Retired spindles (R24, R96) -/

@[simp] theorem writeReserveMap_wrp (kinds : List Nat) (s : State) : (writeReserveMap kinds s).wrp = s.wrp :=
  (writeReserveMap_keeps (L := fun p => decide (p ∈ [Part.nvs])) rfl (Kept.refl _ s)).wrp rfl

@[simp] theorem engageReserve_wrp (r : Nat) (s : State) : (engageReserve r s).wrp = s.wrp :=
  (engageReserve_keeps (L := fun p => decide (p ∈ [Part.glb, .nvs])) rfl rfl (Kept.refl _ s)).wrp rfl

/-- Of the WRP block a retirement changes the retired spindles alone. -/
@[simp] theorem retireSpindle_wrp (i : Nat) (s : State) :
    (retireSpindle i s).wrp = { s.wrp with spRetired := if nbit s.wrp.spRetired i then s.wrp.spRetired else s.wrp.spRetired + 2 ^ i } := by
  unfold retireSpindle; dsimp only
  split <;> simp [State.reserveLow]

theorem spindleSelfTestFail_nothing {i : Nat} {s : State} (h : nbit s.wrp.spRetired i = true ∨ s.wrp.active.isSome ∨ s.pwr.stage < 2) :
    spindleSelfTestFail i s = s := if_pos h

theorem spindleSelfTestFail_retires {i : Nat} {s : State} (hn : nbit s.wrp.spRetired i = false) (ha : s.wrp.active = none)
    (h2 : 2 ≤ s.pwr.stage) : (spindleSelfTestFail i s).wrp = { s.wrp with spRetired := s.wrp.spRetired + 2 ^ i } := by
  have go : ¬ (nbit s.wrp.spRetired i = true ∨ s.wrp.active.isSome = true ∨ s.pwr.stage < 2) := by
    simp only [hn, ha, Option.isSome_none, Bool.false_eq_true, false_or, not_lt]; exact h2
  rw [spindleSelfTestFail, if_neg go, writeReserveMap_wrp, retireSpindle_wrp, hn, if_neg Bool.false_ne_true]

/-- The next reserve depends on what is retired alone. -/
theorem nextReserveSpindle_congr {s t : State} (h : t.wrp.spRetired = s.wrp.spRetired) : nextReserveSpindle t = nextReserveSpindle s := by
  unfold nextReserveSpindle goodSpindles; rw [h]

/-! ### The head of the queue (R95, R96) -/

theorem weaverStart_empty {s : State} (h : s.wrp.jobs = []) : weaverStart s = s := by
  simp [weaverStart, h]

/-- A failed spindle at the head of the queue takes the next reserve, and is shadowed. -/
theorem weaverStart_reserve {s : State} {i r : Nat} {layers : List (Bool × Nat)} {onto : Option Nat} {rest : List Job}
    (h : s.wrp.jobs = .handover i layers .queued onto :: rest) (hr : nextReserveSpindle s = some r) :
    weaverStart s = s.modWrp (fun w => { w with jobs := .handover i layers .shadow (some r) :: rest }) := by
  simp [weaverStart, h, hr]

/-- A load at the head of the queue that has not been placed is placed. -/
theorem weaverStart_load {s : State} {j : Job} {rest : List Job} {x : Load} (h : s.wrp.jobs = j :: rest) (hj : j = .load ∨ j = .reweave)
    (hx : s.wrp.load = some x) (h5 : x.phase < 5) : weaverStart s = placeLoad s := by
  rcases hj with rfl | rfl <;> simp [weaverStart, h, hx, h5]

theorem placeLoad_placed {s : State} {x : Load} {n : Nat} (hx : s.wrp.load = some x) (hn : placement s x.new x.partialLoad = some n) :
    placeLoad s = s.modWrp (fun w => { w with load := some { x with placed := n, phase := 5 } }) := by
  simp [placeLoad, hx, hn]

theorem placeLoad_capacity {s : State} {x : Load} (hx : s.wrp.load = some x) (hn : placement s x.new x.partialLoad = none) :
    placeLoad s = loadFail (0xA, 0xFFFF, 0) s := by
  simp [placeLoad, hx, hn]

/-- A change of the WRP block alone. -/
theorem modWrp_changedOnly (f : Wrp → Wrp) (s : State) : changedOnly [.wrp] s (s.modWrp f) :=
  (modWrp_keeps rfl (Kept.refl _ s)).changedOnly

/-- What a load that waits at the head of the queue becomes. -/
theorem weaverStart_load_spec {s : State} {j : Job} {rest : List Job} {x : Load} (h : s.wrp.jobs = j :: rest)
    (hj : j = .load ∨ j = .reweave) (hx : s.wrp.load = some x) (h5 : x.phase < 5) :
    match placement s x.new x.partialLoad with
    | some n => (weaverStart s).wrp = { s.wrp with load := some { x with placed := n, phase := 5 } } ∧ changedOnly [.wrp] s (weaverStart s)
    | none => loadRefused (weaverStart s) (0xA, 0xFFFF, 0) ∧ (weaverStart s).wrp.load = none ∧ (weaverStart s).wrp.active = s.wrp.active := by
  rw [weaverStart_load h hj hx h5]
  split
  next n hn => rw [placeLoad_placed hx hn]; exact ⟨rfl, modWrp_changedOnly _ s⟩
  next hn => rw [placeLoad_capacity hx hn]; exact loadFail_spec _ s

/-- Starting a job at the head of the queue leaves the count of miscompares where no load waits. -/
theorem weaverStart_handover_miscompares {s : State} {i : Nat} {layers : List (Bool × Nat)} {onto : Option Nat} {rest : List Job}
    (h : s.wrp.jobs = .handover i layers .queued onto :: rest) : (weaverStart s).wrp.miscompares = s.wrp.miscompares := by
  cases hr : nextReserveSpindle s with
  | some r => rw [weaverStart_reserve h hr]; rfl
  | none => simp [weaverStart, h, hr, exhaust]

/-! ### A failed test vector (R96) -/

theorem weaverQueue_behind {j : Job} {s : State} (h : s.wrp.jobs ≠ []) :
    weaverQueue j s = s.modWrp (fun w => { w with jobs := w.jobs ++ [j] }) := by
  simp [weaverQueue, h]

theorem weaverQueue_alone {j : Job} {s : State} (h : s.wrp.jobs = []) :
    weaverQueue j s = weaverStart (s.modWrp (fun w => { w with jobs := [j] })) := by
  simp only [weaverQueue, h, List.isEmpty_nil, if_true]
  exact congrArg weaverStart (by simp [State.modWrp, h])

/-- A failed spindle that finds the queue empty is shadowed at once. -/
theorem weaverQueue_shadows {s : State} {i r : Nat} {layers : List (Bool × Nat)} (h : s.wrp.jobs = []) (hr : nextReserveSpindle s = some r) :
    weaverQueue (.handover i layers .queued none) s = s.modWrp (fun w => { w with jobs := [.handover i layers .shadow (some r)] }) := by
  have started := weaverStart_reserve (s := s.modWrp (fun w => { w with jobs := [.handover i layers .queued none] })) rfl
    ((nextReserveSpindle_congr rfl).trans hr)
  rw [weaverQueue_alone h, started]; rfl

theorem testVectorFail_out_of_service {i : Nat} {layers : List (Bool × Nat)} {s : State}
    (h : s.wrp.active = none ∨ ((goodSpindles s).take 512).contains i = false) : testVectorFail i layers s = s := by
  refine if_pos (Or.inr (h.imp ?_ ?_))
  · intro hn; simp [hn]
  · intro hc; simp only [hc, Bool.false_eq_true, not_false_eq_true]

theorem testVectorFail_queued {i : Nat} {layers l : List (Bool × Nat)} {ph : HandPhase} {o : Option Nat} {s : State}
    (h : .handover i l ph o ∈ s.wrp.jobs) : testVectorFail i layers s = s :=
  if_pos (Or.inl (List.any_eq_true.mpr ⟨_, h, by simp⟩))

theorem testVectorFail_enters {i : Nat} {layers : List (Bool × Nat)} {s : State} (hq : ∀ l ph o, .handover i l ph o ∉ s.wrp.jobs)
    (ha : s.wrp.active.isSome) (hg : ((goodSpindles s).take 512).contains i = true) :
    testVectorFail i layers s = weaverQueue (.handover i layers .queued none) s := by
  have free : (s.wrp.jobs.any fun j => match j with
      | .handover k .. => k == i
      | _ => false) = false := by
    rw [List.any_eq_false]
    intro j hj
    cases j with
    | handover k l ph o =>
      have other : k ≠ i := by rintro rfl; exact hq l ph o hj
      simpa using other
    | load => simp
    | reweave => simp
  refine if_neg ?_
  simp only [hg, Option.isSome_iff_ne_none.mp ha, Option.isNone_iff_eq_none, not_true_eq_false, or_self, or_false, Bool.not_eq_true]
  exact free

/-! ### Shadow comparison and handover (R25, R96) -/

theorem shadowCompareDone_match {s : State} {i : Nat} {layers : List (Bool × Nat)} {onto : Option Nat} {rest : List Job}
    (h : s.wrp.jobs = .handover i layers .shadow onto :: rest) :
    shadowCompareDone true s = s.modWrp (fun w => { w with jobs := .handover i layers .moving onto :: rest }) := by
  simp [shadowCompareDone, h]

/-- A miscompare is counted, whatever comes after it. -/
theorem shadowCompareDone_miscompares {s : State} {i : Nat} {layers : List (Bool × Nat)} {onto : Option Nat} {rest : List Job}
    (h : s.wrp.jobs = .handover i layers .shadow onto :: rest) :
    (shadowCompareDone false s).wrp.miscompares = satAdd 0xFFFF s.wrp.miscompares 1 := by
  cases onto with
  | none => simp [shadowCompareDone, h]
  | some r =>
    simp only [shadowCompareDone, h, Bool.false_eq_true, if_false]
    rw [weaverStart_handover_miscompares (by rw [State.modWrp_wrp])]
    simp

/-- The job of a handover leaves the queue, and its failed spindle is retired. -/
theorem reserveHandover_spec {s : State} {i r : Nat} {layers : List (Bool × Nat)} {rest : List Job}
    (h : s.wrp.jobs = .handover i layers .moving (some r) :: rest) :
    (reserveHandover s).wrp = { s.wrp with
      jobs := rest, spRetired := if nbit s.wrp.spRetired i then s.wrp.spRetired else s.wrp.spRetired + 2 ^ i } ∧
      (reserveHandover s).bit Reg.WRP_INT_STATUS 3 = true := by
  simp only [reserveHandover, h]
  refine ⟨?_, State.bit_raise _ (present_wrpInt _) (by decide)⟩
  rw [State.raise_wrp, engageReserve_wrp, retireSpindle_wrp]; rfl

/-! ### Conversions (R97, R99) -/

/-- A layer in fall-back is marked in its direction, and nothing is withdrawn. -/
theorem toFallback_spec (x : Bool × Nat) (s : State) :
    (toFallback x s).bit Reg.WRP_INT_STATUS 4 = true ∧
      (toFallback x s).wrp = (if x.1 then { s.wrp with fallUl := s.wrp.fallUl + 2 ^ x.2 } else { s.wrp with fallDl := s.wrp.fallDl + 2 ^ x.2 }) := by
  refine ⟨State.bit_raise _ (present_wrpInt _) (by decide), ?_⟩
  unfold toFallback; dsimp only
  split <;> simp

/-- A withdrawn layer is marked in its direction. -/
theorem withdraw_spec (x : Bool × Nat) (s : State) :
    (withdraw x s).bit Reg.WRP_INT_STATUS 5 = true ∧
      (if x.1 then (withdraw x s).wrp.withdrawnUl = s.wrp.withdrawnUl + 2 ^ x.2
       else (withdraw x s).wrp.withdrawnDl = s.wrp.withdrawnDl + 2 ^ x.2) := by
  refine ⟨State.bit_raise _ (present_wrpInt _) (by decide), ?_⟩
  have same : (resetSlot 4 x.1 x.2 none (forgetSlots x.1 [x.2] (tellEnd x.1 [x.2] s.time.tb0 s))).wrp = s.wrp :=
    (resetSlot_keeps (L := fun p => decide (p ∈ [Part.regs, .skn, .fhp])) rfl rfl rfl
      (forgetSlots_keeps rfl (tellEnd_keeps rfl rfl (Kept.refl _ s)))).wrp rfl
  unfold withdraw; dsimp only
  rw [State.raise_wrp, State.modWrp_wrp, same]
  by_cases hx : x.1 = true <;> simp [hx]

/-- The step of one conversion (R97): the first live layer not in fall-back enters it, and with none the first live layer is withdrawn. -/
def conversionStep (layers : List (Bool × Nat)) (s : State) : State :=
  match ((convertOrder layers).filter (liveSlot s)).find? (fun x => !inFallback s x) with
  | some x => toFallback x s
  | none => match ((convertOrder layers).filter (liveSlot s)).head? with
    | some x => withdraw x s
    | none => s

/-- After the step the job stays at the head of the queue. -/
theorem fallbackConversion_eq {s : State} {i : Nat} {layers : List (Bool × Nat)} {onto : Option Nat} {rest : List Job}
    (h : s.wrp.jobs = .handover i layers .converting onto :: rest) :
    fallbackConversion s = (conversionStep layers s).modWrp (fun w => { w with
      jobs := .handover i layers (if workFits (conversionStep layers s) then .shadow else .converting) onto :: rest }) := by
  unfold fallbackConversion; rw [h]; rfl

theorem conversionStep_converts {s : State} {layers : List (Bool × Nat)} {x : Bool × Nat}
    (hf : ((convertOrder layers).filter (liveSlot s)).find? (fun x => !inFallback s x) = some x) :
    conversionStep layers s = toFallback x s := by
  unfold conversionStep; rw [hf]

theorem conversionStep_withdraws {s : State} {layers l : List (Bool × Nat)} {x : Bool × Nat}
    (hf : ((convertOrder layers).filter (liveSlot s)).find? (fun x => !inFallback s x) = none)
    (hl : (convertOrder layers).filter (liveSlot s) = x :: l) : conversionStep layers s = withdraw x s := by
  unfold conversionStep; rw [hf, hl]; rfl

/-- Settles O13: each job by what it finds at the head of the queue. -/
theorem weaverAndReserves : Obligations.WeaverAndReserves := by
  unfold Obligations.WeaverAndReserves
  refine fun s => ⟨⟨_, rfl, weaverStart_empty, fun i layers onto rest r h hr => ?_,
      fun j rest x h hj hx h5 => weaverStart_load_spec h hj hx h5⟩,
    fun i => ⟨_, rfl, spindleSelfTestFail_nothing, spindleSelfTestFail_retires⟩,
    fun i layers => ⟨_, rfl, testVectorFail_out_of_service, fun l ph o h => testVectorFail_queued h,
      fun hq ha hg => ⟨fun hj => ?_, fun r hj hr => ?_⟩⟩,
    fun matched => ⟨_, rfl, fun i layers onto rest h => ⟨fun hm => ?_, fun hm => ?_⟩⟩,
    ⟨_, rfl, fun i layers r rest h => reserveHandover_spec h⟩,
    _, rfl, fun i layers onto rest h => ⟨?_, fun x hf => ?_, fun x l hf hl => ?_⟩⟩
  · rw [weaverStart_reserve h hr]; exact ⟨rfl, modWrp_changedOnly _ s⟩
  · rw [testVectorFail_enters hq ha hg, weaverQueue_behind hj]; exact ⟨rfl, modWrp_changedOnly _ s⟩
  · rw [testVectorFail_enters hq ha hg, weaverQueue_shadows hj hr]; exact ⟨rfl, modWrp_changedOnly _ s⟩
  · rw [hm, shadowCompareDone_match h]; exact ⟨rfl, modWrp_changedOnly _ s⟩
  · rw [hm]; exact shadowCompareDone_miscompares h
  · rw [fallbackConversion_eq h]; rfl
  · rw [fallbackConversion_eq h, conversionStep_converts hf]
    obtain ⟨flag, wrp⟩ := toFallback_spec x s
    refine ⟨by simpa [State.bit] using flag, ?_⟩
    simp only [State.modWrp_wrp, wrp]
    split <;> simp_all
  · rw [fallbackConversion_eq h, conversionStep_withdraws hf hl]
    obtain ⟨flag, gone⟩ := withdraw_spec x s
    exact ⟨by simpa [State.bit] using flag, by simpa using gone⟩

end Sys2Proof.Machine
end

section
/-!
SUPPORT. Performance levels, the cadence margin, the trim of VCORE, cadence slips and power-fail warnings (R20, R57, R58, R69, R418).
-/

namespace Sys2Proof.Machine

/-! ### Requests of VCORE (R49) -/

/-- Of the PWR block a request of a rail changes the rails alone. -/
theorem railRequest_pwr (n mv : Nat) (why : RailWhy) (s : State) :
    (railRequest n mv why s).pwr = { s.pwr with rails := (railRequest n mv why s).pwr.rails } := by
  simp [railRequest]

theorem railRequest_reg (n mv : Nat) (why : RailWhy) {s : State} {a : Nat} (h : a ≠ Reg.PWR_PMB_STATUS) :
    (railRequest n mv why s).reg a = s.reg a := by
  simp [railRequest, pmbNote, h]

/-- The request that VCORE has after it was asked. -/
theorem vcore_railRequest (mv : Nat) (why : RailWhy) (s : State) :
    (rail (railRequest 1 mv why s) 1).req = some { mv := mv, why := why } := by
  rw [rail_railRequest _ _ _ _ _ (by decide), if_pos rfl]

/-! ### Outcomes of a level request (R69) -/

theorem present_pwrInt (o : Order) : absentReg o Reg.PWR_INT_STATUS = false := by cases o <;> rfl

/-- A refused request shows its code and asserts the refusal's flag; the register of the request keeps its level. -/
theorem levelOutcome_refused {code : Nat} (h : code < 256) (s : State) :
    let t := levelOutcome 2 code s
    t.reg Reg.PWR_LEVEL_REQ = s.reg Reg.PWR_LEVEL_REQ ∧ t.fld Reg.PWR_LEVEL_STATUS 5 4 = 2 ∧ t.fld Reg.PWR_LEVEL_STATUS 15 8 = code ∧
      t.bit Reg.PWR_INT_STATUS 3 = true := by
  intro t
  have e : t = ((s.setFld Reg.PWR_LEVEL_STATUS 5 4 2).setFld Reg.PWR_LEVEL_STATUS 15 8 code).raise Reg.PWR_INT_STATUS 3 := rfl
  have status : t.reg Reg.PWR_LEVEL_STATUS = put (put (s.reg Reg.PWR_LEVEL_STATUS) 5 4 2) 15 8 code := by
    rw [e, State.raise_reg_ne _ (by decide), State.reg_setFld, if_pos rfl, State.reg_setFld, if_pos rfl]
  refine ⟨?_, ?_, ?_, State.bit_raise _ (present_pwrInt _) (by decide)⟩
  · rw [e, State.raise_reg_ne _ (by decide), State.setFld_reg_ne _ (by decide), State.setFld_reg_ne _ (by decide)]
  · rw [State.fld, status, fld_put_below _ _ (by decide) (by decide) (by decide) (by decide), fld_put _ _ (by decide) (by decide)]; rfl
  · rw [State.fld, status, fld_put _ _ (by decide) (by decide)]
    exact Nat.mod_eq_of_lt h

/-- A request that is done at once shows it, with its flag. -/
theorem levelOutcome_done (s : State) :
    (levelOutcome 1 0 s).fld Reg.PWR_LEVEL_STATUS 5 4 = 1 ∧ (levelOutcome 1 0 s).bit Reg.PWR_INT_STATUS 2 = true := by
  have e : levelOutcome 1 0 s = (s.setFld Reg.PWR_LEVEL_STATUS 5 4 1).raise Reg.PWR_INT_STATUS 2 := rfl
  refine ⟨?_, State.bit_raise _ (present_pwrInt _) (by decide)⟩
  rw [e, State.fld, State.raise_reg_ne _ (by decide)]
  exact State.fld_setFld _ _ _ (by decide) (by decide)

/-! ### Level requests (R58) -/

theorem levelCode_lt (s : State) (l : Nat) : levelCode s l < 256 := by
  unfold levelCode
  repeat' split
  all_goals decide

/-- The code of a request depends on the PWR block, its state, the warp and the votes alone. -/
theorem levelCode_setReg (s : State) (a : Nat) (w : Word) (l : Nat) : levelCode (s.setReg a w) l = levelCode s l := by
  simp [levelCode, carrierTooWide, monitorMissing, loadQueued, levelVote, State.warp]

/-- The level that a word names is the one written. -/
theorem levelReqWrite_eq (l : BitVec 2) (s : State) :
    levelReqWrite (l.setWidth 32) s = levelReq l.toNat (s.setReg Reg.PWR_LEVEL_REQ (BitVec.ofNat 32 l.toNat)) := by
  have named : fld (l.setWidth 32) 1 0 = l.toNat := by simp only [fld, BitVec.toNat_setWidth]; omega
  rw [levelReqWrite, named]

/-- A change that begins is in progress, a faster one with the nominal VCORE of its level asked. -/
theorem levelBegin_spec (l : Nat) (s : State) :
    let t := levelBegin l s
    t.fld Reg.PWR_LEVEL_STATUS 5 4 = 3 ∧ t.pwr.level = s.pwr.level ∧
      t.pwr.change = some { new := l, old := s.pwr.level, oldMv := s.pwr.vcore, phase := if l < s.pwr.level then .raise else .point } ∧
      (l < s.pwr.level → (rail t 1).req = some { mv := vcoreNominal l, why := .levelUp }) := by
  intro t
  by_cases up : l < s.pwr.level
  · simp only [t, levelBegin, up, decide_true, if_true]
    refine ⟨?_, ?_, ?_, fun _ => vcore_railRequest ..⟩
    · rw [State.fld, railRequest_reg _ _ _ (by decide), State.modPwr_reg]
      exact State.fld_setFld _ _ _ (by decide) (by decide)
    · rw [railRequest_pwr]; simp
    · rw [railRequest_pwr]; simp
  · simp only [t, levelBegin, up, decide_false, Bool.false_eq_true, if_false]
    refine ⟨?_, by simp, by simp, fun h => h.elim⟩
    rw [State.fld, State.modPwr_reg]
    exact State.fld_setFld _ _ _ (by decide) (by decide)

/-- A change that begins changes registers and the PWR block alone. -/
theorem levelBegin_keepsPwr {l : Nat} {s₀ s : State} (h : Kept (fun p => decide (p ∈ [Part.regs, .pwr])) s₀ s) :
    Kept (fun p => decide (p ∈ [Part.regs, .pwr])) s₀ (levelBegin l s) := by
  unfold levelBegin; dsimp only
  split
  · exact railRequest_keeps rfl rfl (modPwr_keeps rfl (levelOutcome_keeps rfl h))
  · exact modPwr_keeps rfl (levelOutcome_keeps rfl h)

section request

variable {s : State} (l : BitVec 2)

/-- A stack member refuses a level. -/
theorem levelReqWrite_member (hm : isStackMember s = true) :
    let t := levelReqWrite (l.setWidth 32) s
    t.reg Reg.PWR_LEVEL_REQ = BitVec.ofNat 32 l.toNat ∧ t.fld Reg.PWR_LEVEL_STATUS 5 4 = 2 ∧ t.fld Reg.PWR_LEVEL_STATUS 15 8 = 8 ∧
      t.bit Reg.PWR_INT_STATUS 3 = true ∧ changedOnly [.regs] s t := by
  intro t
  let u := s.setReg Reg.PWR_LEVEL_REQ (BitVec.ofNat 32 l.toNat)
  have member : isStackMember u = true := by simpa [u, isStackMember] using hm
  have e : t = levelOutcome 2 8 u := (levelReqWrite_eq l s).trans (if_pos member)
  obtain ⟨request, outcome, code, flag⟩ := levelOutcome_refused (by decide : 8 < 256) u
  rw [e]
  exact ⟨request.trans (by simp [u]), outcome, code, flag, (levelOutcome_keeps rfl (setReg_keeps rfl (Kept.refl _ s))).changedOnly⟩

variable (hm : isStackMember s = false)
include hm

/-- Outside a stack's members a request goes by its code, the level in force, and the members that have joined. -/
theorem levelReqWrite_by_code :
    levelReqWrite (l.setWidth 32) s =
      let u := s.setReg Reg.PWR_LEVEL_REQ (BitVec.ofNat 32 l.toNat)
      if levelCode s l.toNat ≠ 0 then levelOutcome 2 (levelCode s l.toNat) u
      else if l.toNat = s.pwr.level then levelOutcome 1 0 u
      else if isBellwether u ∧ joinedOthers u ≠ [] then
        relayControl 0x09 0 (levelBody u l.toNat) (openVote (.level l.toNat) (levelOutcome 3 0 u))
      else levelBegin l.toNat u := by
  have member : isStackMember (s.setReg Reg.PWR_LEVEL_REQ (BitVec.ofNat 32 l.toNat)) = false := by simpa [isStackMember] using hm
  rw [levelReqWrite_eq, levelReq, member, if_neg Bool.false_ne_true, levelCode_setReg, State.setReg_pwr]

theorem levelReqWrite_refused (hc : levelCode s l.toNat ≠ 0) :
    let t := levelReqWrite (l.setWidth 32) s
    t.reg Reg.PWR_LEVEL_REQ = BitVec.ofNat 32 l.toNat ∧ t.fld Reg.PWR_LEVEL_STATUS 5 4 = 2 ∧
      t.fld Reg.PWR_LEVEL_STATUS 15 8 = levelCode s l.toNat ∧ t.bit Reg.PWR_INT_STATUS 3 = true ∧ changedOnly [.regs] s t := by
  intro t
  let u := s.setReg Reg.PWR_LEVEL_REQ (BitVec.ofNat 32 l.toNat)
  have e : t = levelOutcome 2 (levelCode s l.toNat) u := (levelReqWrite_by_code l hm).trans (if_pos hc)
  obtain ⟨request, outcome, code, flag⟩ := levelOutcome_refused (levelCode_lt s l.toNat) u
  rw [e]
  exact ⟨request.trans (by simp [u]), outcome, code, flag, (levelOutcome_keeps rfl (setReg_keeps rfl (Kept.refl _ s))).changedOnly⟩

theorem levelReqWrite_in_force (hc : levelCode s l.toNat = 0) (hl : l.toNat = s.pwr.level) :
    let t := levelReqWrite (l.setWidth 32) s
    t.fld Reg.PWR_LEVEL_STATUS 5 4 = 1 ∧ t.bit Reg.PWR_INT_STATUS 2 = true ∧ changedOnly [.regs] s t := by
  intro t
  let u := s.setReg Reg.PWR_LEVEL_REQ (BitVec.ofNat 32 l.toNat)
  have e : t = levelOutcome 1 0 u := (levelReqWrite_by_code l hm).trans ((if_neg (not_not_intro hc)).trans (if_pos hl))
  obtain ⟨outcome, flag⟩ := levelOutcome_done u
  rw [e]
  exact ⟨outcome, flag, (levelOutcome_keeps rfl (setReg_keeps rfl (Kept.refl _ s))).changedOnly⟩

theorem levelReqWrite_begins (hc : levelCode s l.toNat = 0) (hl : l.toNat ≠ s.pwr.level) (hb : isBellwether s = false) :
    let t := levelReqWrite (l.setWidth 32) s
    t.fld Reg.PWR_LEVEL_STATUS 5 4 = 3 ∧ t.pwr.level = s.pwr.level ∧ changedOnly [.regs, .pwr] s t ∧
      t.pwr.change = some { new := l.toNat, old := s.pwr.level, oldMv := s.pwr.vcore,
                            phase := if l.toNat < s.pwr.level then .raise else .point } ∧
      (l.toNat < s.pwr.level → (rail t 1).req = some { mv := vcoreNominal l.toNat, why := .levelUp }) := by
  intro t
  let u := s.setReg Reg.PWR_LEVEL_REQ (BitVec.ofNat 32 l.toNat)
  have alone : ¬ (isBellwether u = true ∧ joinedOthers u ≠ []) := by
    have : isBellwether u = false := by simpa [u, isBellwether] using hb
    simp [this]
  have e : t = levelBegin l.toNat u :=
    (levelReqWrite_by_code l hm).trans ((if_neg (not_not_intro hc)).trans ((if_neg hl).trans (if_neg alone)))
  have spec := levelBegin_spec l.toNat u
  rw [show u.pwr = s.pwr by simp [u]] at spec
  obtain ⟨outcome, level, change, asked⟩ := spec
  rw [e]
  exact ⟨outcome, level, (levelBegin_keepsPwr (setReg_keeps rfl (Kept.refl _ s))).changedOnly, change, asked⟩

end request

/-! ### The change point (R58) -/

/-- Of the PWR block a new cadence changes the level alone. -/
@[simp] theorem setLevel_pwr (l : Nat) (s : State) : (setLevel l s).pwr = { s.pwr with level := l } := by
  simp [setLevel]

theorem levelPoint_none {s : State} (h : s.pwr.change = none) : levelPoint s = s := by
  simp [levelPoint, h]

theorem levelPoint_waits {s : State} {c : LevelChange} (h : s.pwr.change = some c)
    (hc : c.phase = .raise ∨ c.phase = .lower ∨ c.phase = .back) : levelPoint s = s := by
  rcases hc with hc | hc | hc <;> simp [levelPoint, h, hc]

/-- A slower change point: the new level is in force and the change is done. -/
theorem levelPoint_slower {s : State} {c : LevelChange} (h : s.pwr.change = some c) (hc : c.phase = .point) (hn : c.new < c.old) :
    let t := levelPoint s
    t.pwr.level = c.new ∧ t.pwr.change = none ∧ t.fld Reg.PWR_LEVEL_STATUS 5 4 = 1 ∧ t.bit Reg.PWR_INT_STATUS 2 = true := by
  intro t
  have e : t = levelEnd 1 0 (setLevel c.new s) := by simp [t, levelPoint, h, hc, hn]
  rw [e]
  exact ⟨by simp [levelEnd], by simp [levelEnd], levelOutcome_done _⟩

/-- The other change point: the new level is in force and its nominal VCORE is asked. -/
theorem levelPoint_asks {s : State} {c : LevelChange} (h : s.pwr.change = some c) (hc : c.phase = .point) (hn : c.old ≤ c.new) :
    let t := levelPoint s
    t.pwr.level = c.new ∧ t.pwr.change = some { c with phase := .lower } ∧
      (rail t 1).req = some { mv := vcoreNominal c.new, why := .levelDown } := by
  intro t
  have e : t = railRequest 1 (vcoreNominal c.new) .levelDown
      ((setLevel c.new s).modPwr (fun p => { p with change := some { c with phase := .lower } })) := by
    simp [t, levelPoint, h, hc, Nat.not_lt.mpr hn]
  rw [e]
  refine ⟨?_, ?_, vcore_railRequest ..⟩ <;> (rw [railRequest_pwr]; simp)

/-- A change that is restored has its old level, and asks its old VCORE. -/
theorem levelPoint_restores {s : State} {c : LevelChange} (h : s.pwr.change = some c) (hc : c.phase = .restore) :
    (levelPoint s).pwr.level = c.old ∧ (rail (levelPoint s) 1).req = some { mv := c.oldMv, why := .levelBack } := by
  have e : levelPoint s = railRequest 1 c.oldMv .levelBack
      ((setLevel c.old s).modPwr (fun p => { p with change := some { c with phase := .back, code := c.code } })) := by
    simp [levelPoint, levelRefuse, h, hc]
  rw [e]
  refine ⟨?_, vcore_railRequest ..⟩
  rw [railRequest_pwr]; simp

/-! ### Reports and the trim (R57) -/

/-- A request of VCORE leaves the level and the margin. -/
theorem railRequest_cadence (n mv : Nat) (why : RailWhy) (s : State) :
    (railRequest n mv why s).pwr.level = s.pwr.level ∧ (railRequest n mv why s).pwr.margin = s.pwr.margin := by
  rw [railRequest_pwr]; simp

theorem levelRefuse_cadence (code : Nat) (s : State) :
    (levelRefuse code s).pwr.level = s.pwr.level ∧ (levelRefuse code s).pwr.margin = s.pwr.margin := by
  unfold levelRefuse
  split
  · exact ⟨rfl, rfl⟩
  · exact railRequest_cadence ..

theorem levelRaise_cadence (s : State) : (levelRaise s).pwr.level = s.pwr.level ∧ (levelRaise s).pwr.margin = s.pwr.margin := by
  unfold levelRaise
  split
  · exact ⟨rfl, rfl⟩
  · split
    · exact ⟨rfl, rfl⟩
    · split
      · exact ⟨rfl, rfl⟩
      · split
        · exact railRequest_cadence ..
        · exact levelRefuse_cadence ..

theorem marginLow_cadence (s : State) : (marginLow s).pwr.level = s.pwr.level ∧ (marginLow s).pwr.margin = s.pwr.margin := by
  unfold marginLow; split <;> simp

theorem trimAfter_cadence (s : State) : (trimAfter s).pwr.level = s.pwr.level ∧ (trimAfter s).pwr.margin = s.pwr.margin := by
  unfold trimAfter; dsimp only
  split
  · exact ⟨rfl, rfl⟩
  · split
    · exact ⟨rfl, rfl⟩
    · split
      · exact ⟨rfl, rfl⟩
      · split
        · exact marginLow_cadence _
        · split
          · exact ⟨rfl, rfl⟩
          · exact railRequest_cadence ..

/-- A report leaves the level, and its margin is the least of the regions in service. -/
theorem cadenceReport_spec (r : List (Bool × Option Int)) (s : State) :
    (cadenceReport r s).pwr.level = s.pwr.level ∧
      (cadenceReport r s).pwr.margin =
        (match (List.range 32).filterMap (fun i => if (r.getD i (false, none)).1 then (r.getD i (false, none)).2 else none) with
          | [] => none
          | x :: xs => some (xs.foldl min x)) := by
  unfold cadenceReport; dsimp only
  rw [(trimAfter_cadence _).1, (trimAfter_cadence _).2, (levelRaise_cadence _).1, (levelRaise_cadence _).2, State.setReg_pwr]
  exact ⟨rfl, rfl⟩

theorem trimDown_asks {s : State} {m : Int} (hm : s.pwr.margin = some m) (h12 : 120 ≤ m) (ht : vcoreTrim s ≠ 0) (hv : vcoreBusy s = false)
    (hc : s.pwr.change = none) (hs : s.pwr.sleep = none) (hd : s.pstate ≠ .doze) (h3 : 3 ≤ s.pwr.stage) :
    trimDown s = railRequest 1 (s.pwr.vcore - 10) .trim s := by
  simp [trimDown, hm, h12, ht, hv, hc, hs, hd, Nat.not_lt.mpr h3]

theorem trimDown_nothing {s : State} (h : s.pwr.margin = none ∨ vcoreTrim s = 0 ∨ vcoreBusy s = true ∨ s.pwr.change.isSome ∨
    s.pwr.sleep.isSome ∨ s.pstate = .doze ∨ s.pwr.stage < 3) : trimDown s = s := by
  refine if_pos (h.imp (fun hm => ?_) id)
  simp [hm]

/-! ### Cadence slips (R20) -/

/-- The register of slips and the registers beside it after a slip. -/
theorem cadenceSlip_regs (ul : Bool) (i : Nat) (s : State) :
    (cadenceSlip ul i s).reg Reg.GLB_CADENCE_SLIP = BitVec.ofNat 32 (satAdd 0xFFFFFFFF (s.reg Reg.GLB_CADENCE_SLIP).toNat 1) ∧
      regsBut (Reg.GLB_CADENCE_SLIP :: logRegs) s (cadenceSlip ul i s) := by
  have zero : ∀ a, (slipZero ul i s).reg a = s.reg a := fun a =>
    (slipZero_keeps (L := fun p => decide (p ∈ [Part.fhp])) rfl (Kept.refl _ s)).reg rfl a
  unfold cadenceSlip
  refine ⟨?_, fun a ha => ?_⟩
  · rw [State.event_reg _ (by decide) (by decide), State.raise_reg_ne _ (by decide), State.addReg, State.reg_setReg, if_pos rfl, zero]
  · simp only [logRegs, List.mem_cons, List.not_mem_nil, or_false, not_or] at ha
    rw [State.event_reg _ ha.2.1 ha.2.2, State.raise_reg_ne _ ha.2.1, State.addReg_reg_ne _ ha.1, zero]

theorem cadenceSlip_fhp (ul : Bool) (i : Nat) (s : State) : (cadenceSlip ul i s).fhp = (slipZero ul i s).fhp := by
  simp [cadenceSlip]

/-- On the receive side the slip is marked for its layer and sample. -/
theorem slipZero_uplink (i : Nat) (s : State) : (i % 32, releasedNow s) ∈ (slipZero true i s).fhp.ulSlips := by
  simp [slipZero]

/-- Path `i` of a row in which it was set to zero. -/
theorem getD_lmod_zero (row : List Cplx) (i : Nat) : (lmod row i (fun _ => (0, 0))).getD i (0, 0) = (0, 0) := by
  refine (lget_lmod row i (fun _ => (0, 0)) i).trans ?_
  by_cases hi : i < row.length
  · rw [if_pos ⟨rfl, hi⟩]
  · rw [if_neg (fun h => hi h.2)]
    exact List.getD_eq_default _ _ (Nat.not_lt.mp hi)

/-- On the transmit side the path's element of the sample's rows is zero. -/
theorem slipZero_downlink (i : Nat) (s : State) :
    ∀ x ∈ (slipZero false i s).fhp.e2, x.1 = releasedNow s → ∀ row ∈ x.2, row.getD i (0, 0) = (0, 0) := by
  intro x hx hn row hrow
  simp only [slipZero, Bool.false_eq_true, if_false, State.modFhp_fhp, List.mem_map] at hx
  obtain ⟨y, -, rfl⟩ := hx
  by_cases h : y.1 = releasedNow s
  · rw [if_pos h] at hrow
    obtain ⟨r, -, rfl⟩ := List.mem_map.mp hrow
    exact getD_lmod_zero r i
  · rw [if_neg h] at hn
    exact absurd hn h

/-! ### Power-fail warnings (R418) -/

theorem present_nvsInt (o : Order) : absentReg o Reg.NVS_INT_STATUS = false := by cases o <;> rfl

/-- The warning as it is taken: new writes are held, and the flag is asserted. -/
def warned (s : State) : State :=
  (s.modNvs (fun v => { v with running := v.running || (!v.powerFail && !v.writes.isEmpty), powerFail := true })).raise Reg.NVS_INT_STATUS 8

/-- The write that runs stops: what is left of it is not written, and it leaves the queue. -/
def writeStopped (w : StoreWrite) (rest : List StoreWrite) (remaining : Nat) (s : State) : State :=
  (tornWrite (writeSize w - remaining) w s).modNvs (fun v => { v with writes := rest, running := false })

@[simp] theorem warned_nvs (s : State) : (warned s).nvs =
    { s.nvs with running := s.nvs.running || (!s.nvs.powerFail && !s.nvs.writes.isEmpty), powerFail := true } := by
  simp [warned]

/-- The first write stops where it runs on VSEN with more left than 40 microseconds write. -/
theorem powerFailWarning_eq (vsen : Bool) (remaining : Nat) (s : State) :
    powerFailWarning vsen remaining s = match (warned s).nvs.writes with
      | [] => warned s
      | w :: rest => if (warned s).nvs.running ∧ vsen ∧ remaining > 1280 then writeStopped w rest remaining (warned s) else warned s := rfl

theorem powerFailWarning_runs_on {vsen : Bool} {remaining : Nat} {s : State} (h : vsen = false ∨ remaining ≤ 1280 ∨ s.nvs.writes = []) :
    powerFailWarning vsen remaining s = warned s := by
  rw [powerFailWarning_eq]
  split
  · rfl
  next w rest hw =>
    refine if_neg fun ⟨_, on_vsen, long⟩ => ?_
    rw [warned_nvs] at hw
    rcases h with h | h | h
    · exact absurd (on_vsen.symm.trans h) (by decide)
    · omega
    · exact List.cons_ne_nil _ _ (hw.symm.trans h)

theorem powerFailWarning_stops {remaining : Nat} {s : State} {w : StoreWrite} {rest : List StoreWrite} (hw : s.nvs.writes = w :: rest)
    (hr : 1280 < remaining) (hp : s.nvs.powerFail = false) : powerFailWarning true remaining s = writeStopped w rest remaining (warned s) := by
  have head : (warned s).nvs.writes = w :: rest := by rw [warned_nvs]; exact hw
  have runs : (warned s).nvs.running = true := by simp [hw, hp]
  rw [powerFailWarning_eq, head]
  exact if_pos ⟨runs, rfl, hr⟩

/-- Whatever becomes of the first write, new ones are held, and the registers are those of the warning. -/
theorem powerFailWarning_warns (vsen : Bool) (remaining : Nat) (s : State) :
    (powerFailWarning vsen remaining s).nvs.powerFail = true ∧
      ∀ a, (powerFailWarning vsen remaining s).reg a = (warned s).reg a := by
  rw [powerFailWarning_eq]
  split
  · simp
  next w rest _ =>
    split
    · refine ⟨by simp [writeStopped, tornWrite, State.storePut], fun a => ?_⟩
      exact (modNvs_keeps (L := fun p => decide (p ∈ [Part.nvs])) rfl id (tornWrite_keeps rfl (Kept.refl _ (warned s)))).reg rfl a
    · simp

/-- Settles O11: a request by its code, a change point by the phase of the change, a report by the least margin, a slip by the side on
which it falls, a warning by what the first write has left. -/
theorem performanceLevels : Obligations.PerformanceLevels := by
  unfold Obligations.PerformanceLevels
  refine fun s => ⟨fun l => ⟨_, rfl, fun hs => State.hosted_not_served hs _, ?_, ?_, ?_, ?_⟩,
    ⟨_, rfl, levelPoint_none, fun c => levelPoint_waits, ?_, fun c => levelPoint_restores⟩,
    fun r => ⟨_, rfl, fun h => if_neg (by omega), fun h3 => ?_⟩,
    ⟨_, rfl, ?_, trimDown_nothing⟩,
    ⟨_, rfl, fun h => if_neg (by omega), fun h3 => ?_⟩,
    fun vsen remaining => ⟨_, rfl, fun off => if_pos off, fun on => ?_⟩⟩
  · intro hs hm
    rw [State.hosted_served hs]
    exact levelReqWrite_member l hm
  · intro hs hm hc
    rw [State.hosted_served hs]
    exact levelReqWrite_refused l hm hc
  · intro hs hm hc hl
    rw [State.hosted_served hs]
    exact levelReqWrite_in_force l hm hc hl
  · intro hs hm hc hl hb
    rw [State.hosted_served hs]
    exact levelReqWrite_begins l hm hc hl hb
  · intro c h hc
    rcases Nat.lt_or_ge c.new c.old with hn | hn
    · obtain ⟨level, rest⟩ := levelPoint_slower h hc hn
      exact ⟨level, fun _ => rest, fun h' => by omega⟩
    · obtain ⟨level, rest⟩ := levelPoint_asks h hc hn
      exact ⟨level, fun h' => by omega, fun _ => rest⟩
  · rw [if_pos h3]
    exact cadenceReport_spec r s
  · intro m hm h12 ht hv hc hsl hd h3
    rw [trimDown_asks hm h12 ht hv hc hsl hd h3]
    exact ⟨vcore_railRequest .., (railRequest_keeps rfl rfl (Kept.refl _ s)).changedOnly⟩
  · rw [if_pos h3]
    obtain ⟨count, others⟩ := cadenceSlip_regs (Config.slipped s.rnd).1 (Config.slipped s.rnd).2 s.draw.2
    refine ⟨count, others, (cadenceSlip_keeps rfl rfl rfl (draw_keeps rfl (Kept.refl _ s))).changedOnly, fun ul => ?_, fun dl => ?_⟩
    · rw [cadenceSlip_fhp, show (Config.slipped s.draw.1).1 = true from ul]
      exact slipZero_uplink _ s.draw.2
    · rw [cadenceSlip_fhp, show (Config.slipped s.draw.1).1 = false from dl]
      exact slipZero_downlink _ s.draw.2
  · rw [if_neg (by simp [on])]
    obtain ⟨held, regs⟩ := powerFailWarning_warns vsen remaining s
    refine ⟨held, ?_, fun a ha => ?_, (powerFailWarning_keeps rfl rfl (Kept.refl _ s)).changedOnly, fun h => ?_, fun w rest hw hv hr hp => ?_⟩
    · rw [State.bit, regs]
      exact State.bit_raise _ (present_nvsInt _) (by decide)
    · rw [regs, warned, State.raise_reg_ne _ (by simpa using ha), State.modNvs_reg]
    · rw [powerFailWarning_runs_on h, warned_nvs]; exact ⟨rfl, rfl⟩
    · rw [hv, powerFailWarning_stops hw hr hp]; exact ⟨rfl, rfl⟩

end Sys2Proof.Machine
end

section
/-!
SUPPORT. Capture streams and monitor chains: arms, triggers, segments and their ends, and the settings of the chains (R334 to R348).
-/

namespace Sys2Proof.Machine

/-! ### Streams and the registers of the capture block -/

theorem present_acqInt (o : Order) : absentReg o Reg.ACQ_INT_STATUS = false := by cases o <;> rfl

theorem modStream_same (s : State) {st : Nat} (h : st < 4) (f : Stream → Stream) :
    vget (s.modStream st f).acq.streams st = f (vget s.acq.streams st) := vget_vmod_same _ f h

theorem modStream_other (s : State) {st j : Nat} (h : j ≠ st) (f : Stream → Stream) :
    vget (s.modStream st f).acq.streams j = vget s.acq.streams j := vget_vmod_ne _ f h

/-- A register below the counters of the capture block that is not its flags: no trigger and no segment changes it. -/
def settingReg (a : Nat) : Prop := a < Reg.ACQ_MISSED 0 ∧ a ≠ Reg.ACQ_INT_STATUS

/-- Every setting has the value it had. -/
def settingsKept (s t : State) : Prop := ∀ a, settingReg a → t.reg a = s.reg a

theorem settingsKept.trans {s t u : State} (h : settingsKept s t) (k : settingsKept t u) : settingsKept s u :=
  fun a ha => (k a ha).trans (h a ha)

theorem settingsKept_of_same {s t : State} (h : ∀ a, t.reg a = s.reg a) : settingsKept s t := fun a _ => h a

theorem settingsKept_raise (b : Nat) (s : State) : settingsKept s (s.raise Reg.ACQ_INT_STATUS b) :=
  fun _ ha => State.raise_reg_ne s ha.2

/-- A write from the counters on leaves the settings. -/
theorem settingsKept_setReg {a : Nat} (h : Reg.ACQ_MISSED 0 ≤ a) (w : Word) (s : State) : settingsKept s (s.setReg a w) :=
  fun b hb => State.reg_setReg_ne s w (by have := hb.1; omega)

theorem settingReg_src (st : Fin 4) : settingReg (Reg.ACQ_STREAM_SRC st) := by
  unfold settingReg Reg.ACQ_STREAM_SRC Reg.ACQ_MISSED Reg.ACQ_INT_STATUS; omega

theorem settingReg_trig (st : Fin 4) : settingReg (Reg.ACQ_STREAM_TRIG st) := by
  unfold settingReg Reg.ACQ_STREAM_TRIG Reg.ACQ_MISSED Reg.ACQ_INT_STATUS; omega

theorem settingReg_hold (st : Fin 4) : settingReg (Reg.ACQ_STREAM_HOLD st) := by
  unfold settingReg Reg.ACQ_STREAM_HOLD Reg.ACQ_MISSED Reg.ACQ_INT_STATUS; omega

theorem settingReg_count (st : Fin 4) : settingReg (Reg.ACQ_STREAM_COUNT st) := by
  unfold settingReg Reg.ACQ_STREAM_COUNT Reg.ACQ_MISSED Reg.ACQ_INT_STATUS; omega

theorem trigSrc_of_settings {s t : State} (h : settingsKept s t) (st : Fin 4) : trigSrc t st = trigSrc s st := by
  unfold trigSrc State.fld; rw [h _ (settingReg_trig st)]

theorem srcCode_of_settings {s t : State} (h : settingsKept s t) (st : Fin 4) : srcCode t st = srcCode s st := by
  unfold srcCode State.fld; rw [h _ (settingReg_src st)]

theorem srcIndex_of_settings {s t : State} (h : settingsKept s t) (st : Fin 4) : srcIndex t st = srcIndex s st := by
  unfold srcIndex State.fld; rw [h _ (settingReg_src st)]

theorem segCount_of_settings {s t : State} (h : settingsKept s t) (st : Fin 4) : segCount t st = segCount s st := by
  unfold segCount State.fld; rw [h _ (settingReg_count st)]

/-! ### Arms (R334, R335) -/

/-- A refused arm shows its code, and asserts the refusal's flag alone. -/
theorem streamArm_refused {s : State} {st : Fin 4} (h : armCode s st ≠ 0) (id : Nat) :
    let t := streamArm st id s
    t.bit Reg.ACQ_INT_STATUS 2 = true ∧ changedOnly [.regs, .acq] s t ∧
      vget t.acq.streams st = { vget s.acq.streams st with outcome := 2, code := armCode s st } := by
  intro t
  have e : t = armRefuse st (armCode s st) s := if_pos h
  rw [e]
  refine ⟨State.bit_raise _ (present_acqInt _) (by decide), (armRefuse_keeps rfl rfl (Kept.refl _ s)).changedOnly, ?_⟩
  rw [armRefuse, State.raise_acq, modStream_same _ st.isLt]

/-- Another arm waits behind those of its stream. -/
theorem streamArm_waits {s : State} {st : Fin 4} (h : armCode s st = 0) (id : Nat) :
    let t := streamArm st id s
    changedOnly [.acq] s t ∧ vget t.acq.streams st = { vget s.acq.streams st with
      asks := (vget s.acq.streams st).asks ++ [{ id := id, epoch := s.fhp.epoch }] } := by
  intro t
  have e : t = s.modStream st (fun x => { x with asks := x.asks ++ [{ id := id, epoch := s.fhp.epoch }] }) := if_neg (not_not_intro h)
  rw [e]
  exact ⟨(modStream_keeps rfl (Kept.refl _ s)).changedOnly, modStream_same _ st.isLt _⟩

/-! ### Missed triggers (R341) -/

/-- The registers of a missed trigger: the count, and the time of the first one since they were read. -/
def missNoted (st point : Nat) (s : State) : State :=
  if (vget s.acq.streams st).missRead then
    ((s.addReg (Reg.ACQ_MISSED st) 1).setReg (Reg.ACQ_MISS_S st) (BitVec.ofNat 32 (secOf point))).setReg (Reg.ACQ_MISS_NS st)
      (BitVec.ofNat 32 (nsOf point))
  else s.addReg (Reg.ACQ_MISSED st) 1

/-- The stream of a missed trigger: its count, and event hold-off, which the trigger may end. -/
def missedBy (st point : Nat) (s : State) (x : Stream) : Stream :=
  { x with
    missRead := false
    missAt := if x.missed = 0 then point else x.missAt
    missed := satAdd 0xFFFFFFFF x.missed 1
    skipped := x.skipped + 1
    state := if x.state = .holdoff ∧ bitOf (s.reg (Reg.ACQ_STREAM_HOLD st)) 31 ∧ x.skipped + 1 ≥ fld (s.reg (Reg.ACQ_STREAM_HOLD st)) 30 0 ∧
      x.rest ≤ s.time.tb1 then .rearm else x.state }

theorem triggerMissed_eq (st point : Nat) (s : State) : triggerMissed st point s =
    ((missNoted st point s).modStream st (missedBy st point (missNoted st point s))).raise Reg.ACQ_INT_STATUS 3 := rfl

theorem missNoted_acq (st point : Nat) (s : State) : (missNoted st point s).acq = s.acq := by
  unfold missNoted; split <;> simp

theorem missNoted_count (st : Fin 4) (point : Nat) (s : State) :
    (missNoted st point s).reg (Reg.ACQ_MISSED st) = BitVec.ofNat 32 (satAdd 0xFFFFFFFF (s.reg (Reg.ACQ_MISSED st)).toNat 1) := by
  have s_ne : Reg.ACQ_MISSED st ≠ Reg.ACQ_MISS_S st := by unfold Reg.ACQ_MISSED Reg.ACQ_MISS_S; omega
  have ns_ne : Reg.ACQ_MISSED st ≠ Reg.ACQ_MISS_NS st := by unfold Reg.ACQ_MISSED Reg.ACQ_MISS_NS; omega
  unfold missNoted
  split
  · rw [State.reg_setReg_ne _ _ ns_ne, State.reg_setReg_ne _ _ s_ne, State.addReg, State.reg_setReg, if_pos rfl]
  · rw [State.addReg, State.reg_setReg, if_pos rfl]

theorem missNoted_settings (st point : Nat) (s : State) : settingsKept s (missNoted st point s) := by
  have missed : Reg.ACQ_MISSED 0 ≤ Reg.ACQ_MISSED st := by unfold Reg.ACQ_MISSED; omega
  have sec : Reg.ACQ_MISSED 0 ≤ Reg.ACQ_MISS_S st := by unfold Reg.ACQ_MISSED Reg.ACQ_MISS_S; omega
  have ns : Reg.ACQ_MISSED 0 ≤ Reg.ACQ_MISS_NS st := by unfold Reg.ACQ_MISSED Reg.ACQ_MISS_NS; omega
  unfold missNoted
  split
  · exact (settingsKept_setReg missed _ _).trans ((settingsKept_setReg sec _ _).trans (settingsKept_setReg ns _ _))
  · exact settingsKept_setReg missed _ _

/-- A missed trigger leaves the other streams. -/
theorem triggerMissed_other {st j : Nat} (h : j ≠ st) (point : Nat) (s : State) :
    vget (triggerMissed st point s).acq.streams j = vget s.acq.streams j := by
  rw [triggerMissed_eq, State.raise_acq, modStream_other _ h, missNoted_acq]

theorem triggerMissed_settings (st point : Nat) (s : State) : settingsKept s (triggerMissed st point s) :=
  (missNoted_settings st point s).trans ((settingsKept_of_same fun _ => State.modStream_reg ..).trans (settingsKept_raise 3 _))

/-- A stream that misses a trigger does not begin to capture. -/
theorem missedBy_state {x : Stream} (h : x.state ≠ .capturing) (st point : Nat) (s : State) : (missedBy st point s x).state ≠ .capturing := by
  unfold missedBy; dsimp only
  split
  · decide
  · exact h

/-- A trigger that its stream misses is counted twice, in the stream and in its register, and flagged; the stream does not capture. -/
theorem triggerMissed_counts {s : State} {st : Fin 4} (h : (vget s.acq.streams st).state = .holdoff ∨ (vget s.acq.streams st).state = .rearm)
    (point : Nat) :
    let t := triggerMissed st point s
    (vget t.acq.streams st).missed = satAdd 0xFFFFFFFF (vget s.acq.streams st).missed 1 ∧
      (vget t.acq.streams st).state ≠ .capturing ∧ t.bit Reg.ACQ_INT_STATUS 3 = true ∧
      (t.reg (Reg.ACQ_MISSED st)).toNat = satAdd 0xFFFFFFFF (s.reg (Reg.ACQ_MISSED st)).toNat 1 := by
  intro t
  have int_ne : Reg.ACQ_MISSED st ≠ Reg.ACQ_INT_STATUS := by unfold Reg.ACQ_MISSED Reg.ACQ_INT_STATUS; omega
  have stream : vget t.acq.streams st = missedBy st point (missNoted st point s) (vget s.acq.streams st) := by
    simp only [t, triggerMissed_eq]
    rw [State.raise_acq, modStream_same _ st.isLt, missNoted_acq]
  refine ⟨by rw [stream]; rfl, ?_, State.bit_raise _ (present_acqInt _) (by decide), ?_⟩
  · rw [stream]
    have idle : (vget s.acq.streams st).state ≠ .capturing := by rcases h with h | h <;> simp [h]
    exact missedBy_state idle _ _ _
  · simp only [t, triggerMissed_eq]
    rw [State.raise_reg_ne _ int_ne, State.modStream_reg, missNoted_count, BitVec.toNat_ofNat]
    exact Nat.mod_eq_of_lt (by unfold satAdd; omega)

/-! ### Triggers (R336, R338) -/

theorem postPoint_other {st j : Nat} (h : j ≠ st) (point : Nat) (s : State) :
    vget (postPoint point st s).acq.streams j = vget s.acq.streams j := by
  unfold postPoint
  split
  · exact modStream_other s h _
  · exact triggerMissed_other h point s
  · exact triggerMissed_other h point s
  · rfl

theorem postPoint_settings (point st : Nat) (s : State) : settingsKept s (postPoint point st s) := by
  unfold postPoint
  split
  · exact settingsKept_of_same fun a => State.modStream_reg ..
  · exact triggerMissed_settings st point s
  · exact triggerMissed_settings st point s
  · exact fun _ _ => rfl

/-- A fold over streams leaves a stream that none of its steps changes. -/
theorem forAll_stream_kept {l : List Nat} {f : Nat → State → State} {st : Nat}
    (hf : ∀ j ∈ l, ∀ t : State, vget (f j t).acq.streams st = vget t.acq.streams st) (s : State) :
    vget (forAll l f s).acq.streams st = vget s.acq.streams st := by
  unfold forAll
  induction l generalizing s with
  | nil => rfl
  | cons j l ih => rw [List.foldl_cons, ih (fun k hk => hf k (List.mem_cons_of_mem _ hk)), hf j List.mem_cons_self]

theorem forAll_settings {l : List Nat} {f : Nat → State → State} (hf : ∀ j t, settingsKept t (f j t)) (s : State) :
    settingsKept s (forAll l f s) := by
  unfold forAll
  induction l generalizing s with
  | nil => exact fun _ _ => rfl
  | cons j l ih => exact (hf j s).trans (ih (f j s))

/-- A shared trigger leaves its own stream, and every stream that does not take another's trigger point. -/
theorem shareTrigger_kept {j st point : Nat} {s : State} (h : st = j ∨ trigSrc s st ≠ 6) :
    vget (shareTrigger j point s).acq.streams st = vget s.acq.streams st := by
  refine forAll_stream_kept (fun k hk t => postPoint_other ?_ point t) s
  rintro rfl
  simp only [List.mem_filter, Bool.and_eq_true, beq_iff_eq, bne_iff_ne] at hk
  obtain ⟨-, ⟨six, -⟩, ne⟩ := hk
  exact h.elim ne (· six)

theorem shareTrigger_settings (j point : Nat) (s : State) : settingsKept s (shareTrigger j point s) :=
  forAll_settings (postPoint_settings point) s

theorem triggerAccept_settings (st : Nat) (forced : Bool) (h : TrigHit) (s : State) : settingsKept s (triggerAccept st forced h s) :=
  settingsKept_of_same fun _ => State.modStream_reg ..

theorem trigger_settings (st : Nat) (forced : Bool) (h : TrigHit) (s : State) : settingsKept s (trigger st forced h s) := by
  unfold trigger
  split
  · exact (triggerAccept_settings st forced h s).trans (shareTrigger_settings st h.point _)
  · exact triggerMissed_settings st h.point s
  · exact triggerMissed_settings st h.point s
  · exact fun _ _ => rfl

/-- A trigger leaves another stream that does not take its trigger from a stream. -/
theorem trigger_other {st : Nat} {j : Fin 4} (hj : j.val ≠ st) {s : State} (h6 : trigSrc s j ≠ 6) (forced : Bool) (h : TrigHit) :
    vget (trigger st forced h s).acq.streams j = vget s.acq.streams j := by
  unfold trigger
  split
  · rw [shareTrigger_kept (Or.inr (by rwa [trigSrc_of_settings (triggerAccept_settings st forced h s)]))]
    exact modStream_other s hj _
  · exact triggerMissed_other hj h.point s
  · exact triggerMissed_other hj h.point s
  · rfl

theorem trigger_nothing {st : Nat} {s : State} (h : (vget s.acq.streams st).state ∉ [StreamState.armed, .holdoff, .rearm])
    (forced : Bool) (hit : TrigHit) : trigger st forced hit s = s := by
  unfold trigger
  split
  next e => exact absurd e fun e => h (by simp [e])
  next e => exact absurd e fun e => h (by simp [e])
  next e => exact absurd e fun e => h (by simp [e])
  · rfl

theorem trigger_missed {st : Nat} {s : State} (h : (vget s.acq.streams st).state = .holdoff ∨ (vget s.acq.streams st).state = .rearm)
    (forced : Bool) (hit : TrigHit) : trigger st forced hit s = triggerMissed st hit.point s := by
  rcases h with h | h <;> simp [trigger, h]

/-- What an ARMED stream shows of the trigger that it accepts. -/
theorem trigger_armed {s : State} {st : Fin 4} (ha : (vget s.acq.streams st).state = .armed) (forced : Bool) (h : TrigHit) :
    let x := vget (trigger st forced h s).acq.streams st
    x.state = .capturing ∧ x.forced = forced ∧ x.trigCode = (if forced then 0 else trigSrc s st) ∧ x.point = h.point ∧
      x.frac = (if h.frac ≥ 64 then 0 else h.frac) ∧
      x.preAct = min (preOf s st) ((if h.frac ≥ 64 then h.before - 1 else h.before) / reduceOf s st) ∧
      x.tbFired = ((vget s.acq.streams st).tbFired || (!forced && trigSrc s st == 3)) := by
  intro x
  have e : trigger st forced h s = shareTrigger st h.point (triggerAccept st forced h s) := by simp [trigger, ha]
  have accepted : x = vget (triggerAccept st forced h s).acq.streams st := by
    simp only [x, e]; exact shareTrigger_kept (Or.inl rfl)
  rw [accepted, triggerAccept, modStream_same _ st.isLt]
  exact ⟨rfl, rfl, rfl, rfl, rfl, rfl, rfl⟩

theorem takePoint_settings (st : Nat) (g : Grid) (s : State) : settingsKept s (takePoint st g s) := by
  unfold takePoint; dsimp only
  split
  · exact trigger_settings _ _ _ _
  · exact fun _ _ => rfl

theorem takePoint_other {st : Nat} {j : Fin 4} (hj : j.val ≠ st) {s : State} (h6 : trigSrc s j ≠ 6) (g : Grid) :
    vget (takePoint st g s).acq.streams j = vget s.acq.streams j := by
  unfold takePoint; dsimp only
  split
  · exact trigger_other hj h6 ..
  · rfl

theorem takePoint_takes {s : State} {st p : Nat} (ha : (vget s.acq.streams st).state = .armed)
    (hp : firstPoint (vget s.acq.streams st) = some p) (g : Grid) : takePoint st g s = trigger st false (placePoint s st g p) s := by
  simp [takePoint, ha, hp]

theorem firstPoint_none {x : Stream} (h : x.points = []) : firstPoint x = none := by
  simp [firstPoint, h]

theorem takePoint_nothing {s : State} {st : Nat} (h : (vget s.acq.streams st).state ≠ .armed ∨ (vget s.acq.streams st).points = [])
    (g : Grid) : takePoint st g s = s := by
  unfold takePoint; dsimp only
  split
  next p ha hp =>
    rcases h with h | h
    · exact absurd ha h
    · exact absurd (hp.symm.trans (firstPoint_none h)) (by simp)
  · rfl

/-! ### FORCE (R336) -/

theorem forceTrigger_nothing {s : State} {st : Nat} (h : (vget s.acq.streams st).state ∉ [StreamState.armed, .holdoff, .rearm]) (g : Grid) :
    forceTrigger st g s = s := by
  unfold forceTrigger
  split
  · split
    · exact takePoint_nothing (Or.inl fun e => h (by simp [e])) g
    · exact trigger_nothing h ..
  · exact trigger_nothing h ..

theorem forceTrigger_eq {s : State} {st : Nat} (h : (vget s.acq.streams st).points = []) (g : Grid) :
    forceTrigger st g s = trigger st true { point := g.time, before := g.before, frac := 0 } s := by
  simp [forceTrigger, firstPoint_none h]

/-- FORCE of an ARMED stream captures from the next source sample. -/
theorem forceTrigger_armed {s : State} {st : Fin 4} (ha : (vget s.acq.streams st).state = .armed) (hp : (vget s.acq.streams st).points = [])
    (g : Grid) :
    let t := forceTrigger st g s
    (vget t.acq.streams st).state = .capturing ∧ (vget t.acq.streams st).forced = true ∧ (vget t.acq.streams st).trigCode = 0 ∧
      (vget t.acq.streams st).point = g.time ∧ (vget t.acq.streams st).frac = 0 ∧
      (vget t.acq.streams st).preAct = min (preOf s st) (g.before / reduceOf s st) ∧ changedOnly [.regs, .acq] s t := by
  intro t
  obtain ⟨state, forced, code, point, frac, pre, -⟩ := trigger_armed ha true { point := g.time, before := g.before, frac := 0 }
  rw [← forceTrigger_eq hp] at state forced code point frac pre
  refine ⟨state, forced, code, point, frac, pre, ?_⟩
  simp only [t, forceTrigger_eq hp]
  exact (trigger_keeps rfl rfl (Kept.refl _ s)).changedOnly

/-! ### Triggers of a stream's samples (R337, R338) -/

theorem captureTrigger_nothing {s : State} {st : Nat} {g : Grid} {w : Watch}
    (h : trigSrc s st = 0 ∨ (trigSrc s st = 3 ∧ ((vget s.acq.streams st).tbFired = true ∨ s.time.tb0 < streamAim s st)) ∨
      (trigSrc s st ∈ [4, 5, 6] ∧ ((vget s.acq.streams st).state ≠ .armed ∨ (vget s.acq.streams st).points = []))) :
    captureTrigger st g w s = s := by
  rcases h with h | ⟨h, hs⟩ | ⟨h, hs⟩
  · simp [captureTrigger, h]
  · simp only [captureTrigger, h]
    exact if_pos hs
  · simp only [List.mem_cons, List.not_mem_nil, or_false] at h
    rcases h with h | h | h <;> (simp only [captureTrigger, h]; exact takePoint_nothing hs g)

/-- The triggers of events are those that wait. -/
theorem captureTrigger_event {s : State} {st : Nat} (h : trigSrc s st ∈ [4, 5, 6]) (g : Grid) (w : Watch) :
    captureTrigger st g w s = takePoint st g s := by
  simp only [List.mem_cons, List.not_mem_nil, or_false] at h
  rcases h with h | h | h <;> simp [captureTrigger, h]

/-- A waiting point is accepted under its source's code. -/
theorem captureTrigger_event_armed {s : State} {st : Fin 4} {p : Nat} (h : trigSrc s st ∈ [4, 5, 6])
    (ha : (vget s.acq.streams st).state = .armed) (hp : firstPoint (vget s.acq.streams st) = some p) (g : Grid) (w : Watch) :
    let t := captureTrigger st g w s
    (vget t.acq.streams st).state = .capturing ∧ (vget t.acq.streams st).forced = false ∧
      (vget t.acq.streams st).trigCode = trigSrc s st ∧ (vget t.acq.streams st).point = p ∧ changedOnly [.regs, .acq] s t := by
  intro t
  have e : t = trigger st false (placePoint s st g p) s := (captureTrigger_event h g w).trans (takePoint_takes ha hp g)
  obtain ⟨state, forced, code, point, -⟩ := trigger_armed ha false (placePoint s st g p)
  rw [e]
  exact ⟨state, forced, code, point, (trigger_keeps rfl rfl (Kept.refl _ s)).changedOnly⟩

/-- The aim of TB0 is accepted once it is reached. -/
theorem captureTrigger_aim {s : State} {st : Fin 4} (h : trigSrc s st = 3) (ha : (vget s.acq.streams st).state = .armed)
    (hf : (vget s.acq.streams st).tbFired = false) (hs : (vget s.acq.streams st).tbStepped = false) (hr : streamAim s st ≤ s.time.tb0)
    (g : Grid) (w : Watch) :
    let t := captureTrigger st g w s
    (vget t.acq.streams st).state = .capturing ∧ (vget t.acq.streams st).trigCode = 3 ∧
      (vget t.acq.streams st).point = toTb3 s (streamAim s st) ∧ (vget t.acq.streams st).tbFired = true := by
  intro t
  have e : t = trigger st false (placePoint s st g (toTb3 s (streamAim s st))) s := by
    simp [t, captureTrigger, h, aimTrigger, hf, hs, Nat.not_lt.mpr hr]
  obtain ⟨state, -, code, point, -, -, fired⟩ := trigger_armed ha false (placePoint s st g (toTb3 s (streamAim s st)))
  rw [e]
  exact ⟨state, code.trans h, point, fired.trans (by simp [h])⟩

/-- One watched sample that does not cross is kept in the stream. -/
theorem captureTrigger_watches {s : State} {st : Fin 4} {g : Grid} {w : Watch} {c : Cplx} (h : trigSrc s st = 1) (hw : w.samples = [c])
    (hc : crosses (slopeOf s st) (threshOf s st) (vget s.acq.streams st) (trigQty s st c) = false) :
    vget (captureTrigger st g w s).acq.streams st = watched (threshOf s st) (hystOf s st) (trigQty s st c) (vget s.acq.streams st) ∧
      changedOnly [.acq] s (captureTrigger st g w s) := by
  have e : captureTrigger st g w s = s.modStream st (watched (threshOf s st) (hystOf s st) (trigQty s st c)) := by
    simp [captureTrigger, h, hw, watchSamples, watchSample, hc]
  rw [e]
  exact ⟨modStream_same _ st.isLt _, (modStream_keeps rfl (Kept.refl _ s)).changedOnly⟩

/-- One watched sample that crosses is a trigger of the stream: accepted by an ARMED one, and missed in hold-off and re-arm. -/
theorem captureTrigger_crosses {s : State} {st : Fin 4} {g : Grid} {w : Watch} {c : Cplx} (h : trigSrc s st = 1) (hw : w.samples = [c])
    (hc : crosses (slopeOf s st) (threshOf s st) (vget s.acq.streams st) (trigQty s st c) = true) :
    let t := captureTrigger st g w s
    ((vget s.acq.streams st).state = .armed → (vget t.acq.streams st).state = .capturing ∧ (vget t.acq.streams st).forced = false ∧
        (vget t.acq.streams st).trigCode = 1) ∧
      ((vget s.acq.streams st).state = .holdoff ∨ (vget s.acq.streams st).state = .rearm →
        (vget t.acq.streams st).missed = satAdd 0xFFFFFFFF (vget s.acq.streams st).missed 1 ∧
        (vget t.acq.streams st).state ≠ .capturing ∧ t.bit Reg.ACQ_INT_STATUS 3 = true ∧
        (t.reg (Reg.ACQ_MISSED st)).toNat = satAdd 0xFFFFFFFF (s.reg (Reg.ACQ_MISSED st)).toNat 1) := by
  intro t
  let u := s.modStream st (watched (threshOf s st) (hystOf s st) (trigQty s st c))
  have same : vget u.acq.streams st = watched (threshOf s st) (hystOf s st) (trigQty s st c) (vget s.acq.streams st) :=
    modStream_same _ st.isLt _
  obtain ⟨hit, e⟩ : ∃ hit, t = trigger st false hit u := by
    simp only [t, captureTrigger, h, hw, watchSamples, watchSample, hc, if_true]
    exact ⟨_, rfl⟩
  have state : (vget u.acq.streams st).state = (vget s.acq.streams st).state := by rw [same]; rfl
  refine ⟨fun ha => ?_, fun hm => ?_⟩
  · obtain ⟨captures, forced, code, -⟩ := trigger_armed (state.trans ha) false hit
    rw [e]
    refine ⟨captures, forced, code.trans ?_⟩
    exact (trigSrc_of_settings (settingsKept_of_same fun _ => State.modStream_reg ..) st).trans h
  · have hu := hm.imp state.trans state.trans
    obtain ⟨missed, idle, flag, count⟩ := triggerMissed_counts hu hit.point
    rw [e, trigger_missed hu]
    exact ⟨missed.trans (by rw [same]; rfl), idle, flag, count⟩

/-! ### Edges of TRIG_IN (R336) -/

/-- What a selected edge does to one stream. -/
def edgeAt (at_ : Nat) (grids : List Grid) (st : Nat) (s : State) : State :=
  if trigSrc s st = 4 then takePoint st (grids.getD st default) (postPoint at_ st s) else s

theorem trigInEdge_selected {s : State} {rising : Bool} (h : edgeSelected s rising = true) (at_ : Nat) (grids : List Grid) :
    trigInEdge rising at_ grids s = forAll (List.range 4) (edgeAt at_ grids) s := if_neg (not_not_intro h)

theorem trigInEdge_not_selected {s : State} {rising : Bool} (h : edgeSelected s rising = false) (at_ : Nat) (grids : List Grid) :
    trigInEdge rising at_ grids s = s := if_pos (by simp [h])

theorem edgeAt_settings (at_ : Nat) (grids : List Grid) (st : Nat) (s : State) : settingsKept s (edgeAt at_ grids st s) := by
  unfold edgeAt
  split
  · exact (postPoint_settings at_ st s).trans (takePoint_settings st _ _)
  · exact fun _ _ => rfl

/-- One step leaves another stream that does not take its trigger from a stream, and its own where that does not follow TRIG_IN. -/
theorem edgeAt_kept {at_ : Nat} {grids : List Grid} {k : Nat} {st : Fin 4} {s : State} (h6 : trigSrc s st ≠ 6)
    (h : k ≠ st.val ∨ trigSrc s st ≠ 4) : vget (edgeAt at_ grids k s).acq.streams st = vget s.acq.streams st := by
  unfold edgeAt
  split
  next four =>
    have other : st.val ≠ k := by
      rintro rfl
      exact h.elim (· rfl) (· four)
    rw [takePoint_other other (by rwa [trigSrc_of_settings (postPoint_settings at_ k s)]), postPoint_other other]
  · rfl

theorem forAll_edgeAt_kept {at_ : Nat} {grids : List Grid} {l : List Nat} {st : Fin 4} {s : State} (h6 : trigSrc s st ≠ 6)
    (h : st.val ∉ l ∨ trigSrc s st ≠ 4) : vget (forAll l (edgeAt at_ grids) s).acq.streams st = vget s.acq.streams st := by
  unfold forAll
  induction l generalizing s with
  | nil => rfl
  | cons k l ih =>
    have src := trigSrc_of_settings (edgeAt_settings at_ grids k s) st
    rw [List.foldl_cons, ih (by rwa [src]) (h.imp (fun hm hl => hm (List.mem_cons_of_mem _ hl)) (by rw [src]; exact id))]
    exact edgeAt_kept h6 (h.imp (fun hm e => hm (e ▸ List.mem_cons_self)) id)

/-- The step of an ARMED stream that follows TRIG_IN captures. -/
theorem edgeAt_takes {at_ : Nat} {grids : List Grid} {st : Fin 4} {s : State} (h4 : trigSrc s st = 4)
    (ha : (vget s.acq.streams st).state = .armed) :
    (vget (edgeAt at_ grids st s).acq.streams st).state = .capturing ∧ (vget (edgeAt at_ grids st s).acq.streams st).trigCode = 4 := by
  let u := postPoint at_ st s
  have posted : u = s.modStream st (fun x => { x with points := x.points ++ [at_] }) := by simp [u, postPoint, ha]
  have same : vget u.acq.streams st = { vget s.acq.streams st with points := (vget s.acq.streams st).points ++ [at_] } := by
    rw [posted]; exact modStream_same _ st.isLt _
  have armed : (vget u.acq.streams st).state = .armed := by rw [same]; exact ha
  obtain ⟨p, hp⟩ : ∃ p, firstPoint (vget u.acq.streams st) = some p := by
    rw [same]; unfold firstPoint; dsimp only
    cases (vget s.acq.streams st).points <;> exact ⟨_, rfl⟩
  have e : edgeAt at_ grids st s = trigger st false (placePoint u st (grids.getD st default) p) u :=
    (if_pos h4).trans (takePoint_takes armed hp _)
  obtain ⟨state, -, code, -⟩ := trigger_armed armed false (placePoint u st (grids.getD st default) p)
  rw [e]
  exact ⟨state, code.trans ((trigSrc_of_settings (postPoint_settings at_ st s) st).trans h4)⟩

/-- Of a list without repetition, the step of a stream that follows TRIG_IN captures, and no other step touches it. -/
theorem forAll_edgeAt_takes {at_ : Nat} {grids : List Grid} {l : List Nat} {st : Fin 4} {s : State} (hl : l.Nodup) (hm : st.val ∈ l)
    (h4 : trigSrc s st = 4) (ha : (vget s.acq.streams st).state = .armed) :
    (vget (forAll l (edgeAt at_ grids) s).acq.streams st).state = .capturing ∧
      (vget (forAll l (edgeAt at_ grids) s).acq.streams st).trigCode = 4 := by
  induction l generalizing s with
  | nil => simp at hm
  | cons k l ih =>
    obtain ⟨fresh, nodup⟩ := List.nodup_cons.mp hl
    have src := trigSrc_of_settings (edgeAt_settings at_ grids k s) st
    have step : forAll (k :: l) (edgeAt at_ grids) s = forAll l (edgeAt at_ grids) (edgeAt at_ grids k s) := rfl
    rw [step]
    by_cases hk : k = st.val
    · subst hk
      rw [forAll_edgeAt_kept (by rw [src, h4]; decide) (Or.inl fresh)]
      exact edgeAt_takes h4 ha
    · refine ih nodup ((List.mem_cons.mp hm).resolve_left (Ne.symm hk)) (src.trans h4) ?_
      rw [edgeAt_kept (by rw [h4]; decide) (Or.inl hk)]
      exact ha

/-! ### Segments (R333, R340) -/

/-- Of the streams a stored segment changes its own alone. -/
theorem storeSegment_acq (st : Nat) (xs : List Cplx) (k : SegMarks) (aborted : Bool) (s : State) :
    (storeSegment st xs k aborted s).acq = (s.modStream st (fun x => { x with
      seq := satAdd 0xFFFFFFFF x.seq 1, missed := 0, missAt := 0, tbStepped := false, skipped := 0 })).acq := by
  have event : ∀ t : State, (dmaEvent st t).acq = t.acq := fun t =>
    (dmaEvent_keeps (L := fun p => decide (p ∈ [Part.dma])) rfl (Kept.refl _ t)).acq rfl
  have put : ∀ (a first : Nat) (es : List (List Byte)) (header : List Byte), (segPut st a first es header s).acq = s.acq :=
    fun a first es header => (segPut_keeps (L := fun p => decide (p ∈ [Part.drc])) rfl (Kept.refl _ s)).acq rfl
  unfold storeSegment; dsimp only
  rw [event, State.raise_acq]
  split <;> simp [put]

/-- A stored segment is flagged, and leaves the settings. -/
theorem storeSegment_regs (st : Nat) (xs : List Cplx) (k : SegMarks) (aborted : Bool) (s : State) :
    (storeSegment st xs k aborted s).bit Reg.ACQ_INT_STATUS 0 = true ∧ settingsKept s (storeSegment st xs k aborted s) := by
  have event : ∀ (t : State) (a : Nat), (dmaEvent st t).reg a = t.reg a := fun t =>
    (dmaEvent_keeps (L := fun p => decide (p ∈ [Part.dma])) rfl (Kept.refl _ t)).reg rfl
  have put : ∀ (a first : Nat) (es : List (List Byte)) (header : List Byte) (b : Nat), (segPut st a first es header s).reg b = s.reg b :=
    fun a first es header => (segPut_keeps (L := fun p => decide (p ∈ [Part.drc])) rfl (Kept.refl _ s)).reg rfl
  have done : Reg.ACQ_MISSED 0 ≤ Reg.ACQ_SEG_DONE st := by unfold Reg.ACQ_MISSED Reg.ACQ_SEG_DONE; omega
  unfold storeSegment; dsimp only
  refine ⟨?_, settingsKept.trans (settingsKept.trans ?_ (settingsKept_raise 0 _)) (settingsKept_of_same (event _))⟩
  · rw [State.bit, event]
    exact State.bit_raise _ (present_acqInt _) (by decide)
  · have counted : ∀ (u : State) (f : Stream → Stream), (∀ b, u.reg b = s.reg b) →
        settingsKept s ((u.modStream st f).addReg (Reg.ACQ_SEG_DONE st) 1) := fun u f hu =>
      settingsKept.trans (settingsKept_of_same hu)
        (settingsKept.trans (settingsKept_of_same fun b => State.modStream_reg ..) (settingsKept_setReg done _ _))
    split
    · exact (counted _ _ (put _ _ _ _)).trans (settingsKept_raise 4 _)
    · exact counted _ _ (put _ _ _ _)

theorem segmentEnd_nothing {s : State} {st : Nat} (h : (vget s.acq.streams st).state ≠ .capturing) (xs : List Cplx) (k : SegMarks) :
    segmentEnd st xs k s = s := if_pos h

/-- Of its own stream a stored segment changes neither the state nor the segment. -/
theorem storeSegment_stream (st : Fin 4) (xs : List Cplx) (k : SegMarks) (aborted : Bool) (s : State) :
    vget (storeSegment st xs k aborted s).acq.streams st = { vget s.acq.streams st with
      seq := satAdd 0xFFFFFFFF (vget s.acq.streams st).seq 1, missed := 0, missAt := 0, tbStepped := false, skipped := 0 } := by
  rw [storeSegment_acq, modStream_same _ st.isLt]

/-- The registers and the streams are the same in two states. -/
def capturesSame (s t : State) : Prop := (∀ a, t.reg a = s.reg a) ∧ t.acq = s.acq

theorem Kept.capturesSame {L : Part → Bool} {s t : State} (K : Kept L s t) (hr : L .regs = false) (ha : L .acq = false) : capturesSame s t :=
  ⟨K.reg hr, K.acq ha⟩

/-- The last segment of a stream is stored, and the stream is DONE, with the flags of both. -/
theorem segmentEnd_last {s : State} {st : Fin 4} (hc : (vget s.acq.streams st).state = .capturing)
    (hl : segCount s st ≤ (vget s.acq.streams st).seg + 1) (hr : s.bit (Reg.ACQ_STREAM_SRC st) 15 = false) (xs : List Cplx) (k : SegMarks) :
    let t := segmentEnd st xs k s
    (vget t.acq.streams st).seq = satAdd 0xFFFFFFFF (vget s.acq.streams st).seq 1 ∧ t.bit Reg.ACQ_INT_STATUS 0 = true ∧
      (vget t.acq.streams st).state = .done ∧ t.bit Reg.ACQ_INT_STATUS 1 = true := by
  intro t
  let u := storeSegment st xs k false s
  obtain ⟨flag, settings⟩ := storeSegment_regs st xs k false s
  have stream := storeSegment_stream st xs k false s
  have last : (vget u.acq.streams st).seg + 1 ≥ segCount u st ∧ ¬ u.bit (Reg.ACQ_STREAM_SRC st) 15 = true := by
    rw [segCount_of_settings settings, State.bit, settings _ (settingReg_src st), stream]
    exact ⟨hl, by simpa [State.bit] using hr⟩
  let v := if srcCode u st = 2 then obsRelease (srcIndex u st) (.capture st) u else u
  have released : capturesSame u v :=
    Kept.capturesSame (L := fun p => decide (p ∈ [Part.dpd]))
      (iteInduction (fun _ => obsRelease_keeps rfl (Kept.refl _ u)) (fun _ => Kept.refl _ u)) rfl rfl
  have e : t = dmaEvent (4 + st) ((v.modStream st (fun x => { x with state := .done })).raise Reg.ACQ_INT_STATUS 1) :=
    (if_neg (not_not_intro hc)).trans (if_pos last)
  obtain ⟨regs, acq⟩ : capturesSame ((v.modStream st (fun x => { x with state := .done })).raise Reg.ACQ_INT_STATUS 1) t := by
    rw [e]; exact Kept.capturesSame (L := fun p => decide (p ∈ [Part.dma])) (dmaEvent_keeps rfl (Kept.refl _ _)) rfl rfl
  rw [acq, State.bit, State.bit, regs, State.raise_acq, modStream_same _ st.isLt, released.2, stream]
  refine ⟨rfl, ?_, rfl, State.bit_raise _ (present_acqInt _) (by decide)⟩
  refine State.bit_raise_of_bit _ (by decide) ?_
  rw [State.bit, State.modStream_reg, released.1]
  exact flag

/-- Another segment is stored, and the stream goes on with the next one, in hold-off or re-arm. -/
theorem segmentEnd_next {s : State} {st : Fin 4} (hc : (vget s.acq.streams st).state = .capturing)
    (hn : (vget s.acq.streams st).seg + 1 < segCount s st ∨ s.bit (Reg.ACQ_STREAM_SRC st) 15 = true) (xs : List Cplx) (k : SegMarks) :
    let t := segmentEnd st xs k s
    (vget t.acq.streams st).seq = satAdd 0xFFFFFFFF (vget s.acq.streams st).seq 1 ∧ t.bit Reg.ACQ_INT_STATUS 0 = true ∧
      (vget t.acq.streams st).seg = ((vget s.acq.streams st).seg + 1) % segCount s st ∧
      (vget t.acq.streams st).rest = restAfter s (segmentTu s st) ∧
      (vget t.acq.streams st).state =
        (if fld (s.reg (Reg.ACQ_STREAM_HOLD st)) 30 0 = 0 ∧ restAfter s (segmentTu s st) = 0 then .rearm else .holdoff) := by
  intro t
  let u := storeSegment st xs k false s
  obtain ⟨flag, settings⟩ := storeSegment_regs st xs k false s
  have stream := storeSegment_stream st xs k false s
  have count : segCount u st = segCount s st := segCount_of_settings settings st
  have hold : u.reg (Reg.ACQ_STREAM_HOLD st) = s.reg (Reg.ACQ_STREAM_HOLD st) := settings _ (settingReg_hold st)
  have more : ¬ ((vget u.acq.streams st).seg + 1 ≥ segCount u st ∧ ¬ u.bit (Reg.ACQ_STREAM_SRC st) 15 = true) := by
    rw [count, State.bit, settings _ (settingReg_src st), stream]
    rintro ⟨last, once⟩
    exact hn.elim (fun h => Nat.lt_irrefl _ (Nat.lt_of_lt_of_le h last)) once
  let next := segAddr u st (((vget u.acq.streams st).seg + 1) % segCount u st)
  let v := if (vget u.acq.streams st).seq ≥ segCount u st then dramStore next (List.replicate 64 0) (dramTouch next 64 u) else u
  have cleared : capturesSame u v :=
    Kept.capturesSame (L := fun p => decide (p ∈ [Part.drc]))
      (iteInduction (fun _ => dramStore_keeps rfl (dramTouch_keeps rfl (Kept.refl _ u))) (fun _ => Kept.refl _ u)) rfl rfl
  have e : t = v.modStream st (fun x => { x with
      seg := ((vget u.acq.streams st).seg + 1) % segCount u st, rest := restAfter s (segmentTu s st)
      holdEnd := holdEndOf s st (vget s.acq.streams st)
      state := if fld (u.reg (Reg.ACQ_STREAM_HOLD st)) 30 0 = 0 ∧ restAfter s (segmentTu s st) = 0 then .rearm else .holdoff }) :=
    (if_neg (not_not_intro hc)).trans (if_neg more)
  rw [e, modStream_same _ st.isLt, cleared.2, count, hold, stream]
  refine ⟨rfl, ?_, rfl, rfl, rfl⟩
  rw [State.bit, State.modStream_reg, cleared.1]
  exact flag

/-! ### Hold-off (R340) -/

theorem holdoffEnd_spec (st : Fin 4) (s : State) :
    let t := holdoffEnd st s
    (vget t.acq.streams st).state = (if (vget s.acq.streams st).state = .rearm ∨
      ((vget s.acq.streams st).state = .holdoff ∧ holdoffOver s st (vget s.acq.streams st) = true) then .armed
      else (vget s.acq.streams st).state) ∧
    (∀ j : Fin 4, j ≠ st → vget t.acq.streams j = vget s.acq.streams j) ∧ changedOnly [.acq] s t := by
  refine ⟨?_, fun j hj => modStream_other s (by simpa [Fin.ext_iff] using hj) _, (modStream_keeps rfl (Kept.refl _ s)).changedOnly⟩
  rw [holdoffEnd, modStream_same _ st.isLt]
  split <;> rfl

/-! ### Ends of streams (R343) -/

/-- The segment that is open when its stream ends is stored, cut off. -/
def openSegmentStored (st : Nat) (s : State) : State :=
  if (vget s.acq.streams st).state = .capturing then
    (storeSegment st (Config.abortedSamples s.draw.1) { loInvalid := false, gap := false, dcFrozen := false, stored := none } true
      s.draw.2).raise Reg.ACQ_INT_STATUS 5
  else s

/-- The receiver of an observation stream is let go. -/
def receiverFreed (st : Nat) (s : State) : State :=
  if srcCode s st = 2 then obsRelease (srcIndex s st) (.capture st) (obsWithdraw (srcIndex s st) (.capture st) s) else s

theorem streamStop_idle {s : State} {st : Nat} (h : streamActive s st = false) : streamStop st s = s := if_pos (by simp [h])

theorem streamStop_active {s : State} {st : Nat} (h : streamActive s st = true) :
    streamStop st s = (receiverFreed st (openSegmentStored st s)).modStream st (fun x => { x with state := .idle }) :=
  if_neg (by simp [h])

/-- Storing the open segment leaves the other streams. -/
theorem openSegmentStored_other {st j : Nat} (h : j ≠ st) (s : State) :
    vget (openSegmentStored st s).acq.streams j = vget s.acq.streams j := by
  unfold openSegmentStored
  split
  · rw [State.raise_acq, storeSegment_acq]; exact modStream_other _ h _
  · rfl

/-- Storing the open segment leaves the arms that wait. -/
theorem openSegmentStored_asks (st : Fin 4) (s : State) :
    (vget (openSegmentStored st s).acq.streams st).asks = (vget s.acq.streams st).asks := by
  unfold openSegmentStored
  split
  · rw [State.raise_acq, storeSegment_stream]; rfl
  · rfl

theorem openSegmentStored_settings (st : Nat) (s : State) : settingsKept s (openSegmentStored st s) := by
  unfold openSegmentStored
  split
  · exact settingsKept.trans (s := s) (t := s.draw.2) (fun _ _ => rfl)
      ((storeSegment_regs st _ _ true s.draw.2).2.trans (settingsKept_raise 5 _))
  · exact fun _ _ => rfl

theorem openSegmentStored_dpd (st : Nat) (s : State) : (openSegmentStored st s).dpd = s.dpd := by
  unfold openSegmentStored
  split
  · exact (raise_keeps rfl (storeSegment_keeps rfl rfl rfl rfl (draw_keeps (L := fun p => decide (p ∈ [Part.regs, .acq, .drc, .dma, .rnd])) rfl
      (Kept.refl _ s)))).dpd rfl
  · rfl

theorem receiverFreed_acq (st : Nat) (s : State) : (receiverFreed st s).acq = s.acq :=
  (iteInduction (fun _ => obsRelease_keeps rfl (obsWithdraw_keeps rfl (Kept.refl _ s))) (fun _ => Kept.refl _ s) :
    Kept (fun p => decide (p ∈ [Part.dpd])) s (receiverFreed st s)).acq rfl

/-- A stream that ends leaves the other streams. -/
theorem streamStop_other {st j : Nat} (h : j ≠ st) (s : State) : vget (streamStop st s).acq.streams j = vget s.acq.streams j := by
  cases ha : streamActive s st
  · rw [streamStop_idle ha]
  · rw [streamStop_active ha, modStream_other _ h, receiverFreed_acq, openSegmentStored_other h]

/-- An active stream that ends is IDLE. -/
theorem streamStop_state {st : Fin 4} {s : State} (h : streamActive s st = true) : (vget (streamStop st s).acq.streams st).state = .idle := by
  rw [streamStop_active h, modStream_same _ st.isLt]

/-- A stream that ends keeps the arms that wait for it. -/
theorem streamStop_asks (k : Nat) (st : Fin 4) (s : State) :
    (vget (streamStop k s).acq.streams st).asks = (vget s.acq.streams st).asks := by
  by_cases hk : st.val = k
  · subst hk
    cases ha : streamActive s st
    · rw [streamStop_idle ha]
    · rw [streamStop_active ha, modStream_same _ st.isLt, receiverFreed_acq]
      exact openSegmentStored_asks st s
  · rw [streamStop_other hk]

/-- A holder of a receiver after one lets it go or withdraws its requests. -/
theorem obs_holder_freed (o : Nat) (h : ObsHolder) (s : State) (i : Nat) :
    (vget (obsRelease o h (obsWithdraw o h s)).dpd.obs i).holder =
      if i = o ∧ o < 8 ∧ (vget s.dpd.obs i).holder = some h then none else (vget s.dpd.obs i).holder := by
  have withdrawn : (vget (obsWithdraw o h s).dpd.obs i).holder = (vget s.dpd.obs i).holder := by
    simp only [obsWithdraw, State.modObs_dpd, vget_vmod]
    split
    next e => rw [e.1]
    · rfl
  simp only [obsRelease, State.modObs_dpd, vget_vmod]
  by_cases hi : i = o ∧ o < 8
  · obtain ⟨rfl, h8⟩ := hi
    rw [if_pos ⟨rfl, h8⟩]
    simp only [true_and, h8]
    rw [apply_ite Obs.holder, withdrawn]
  · rw [if_neg hi, if_neg (fun ⟨a, b, _⟩ => hi ⟨a, b⟩), withdrawn]

/-- No stream's end gives a receiver to a holder. -/
theorem streamStop_holder {h : ObsHolder} {i : Nat} {s : State} (hs : (vget s.dpd.obs i).holder ≠ some h) (k : Nat) :
    (vget (streamStop k s).dpd.obs i).holder ≠ some h := by
  cases ha : streamActive s k
  · rwa [streamStop_idle ha]
  · rw [streamStop_active ha, State.modStream_dpd, receiverFreed]
    split
    · rw [obs_holder_freed, openSegmentStored_dpd]
      split
      · simp
      · exact hs
    · rwa [openSegmentStored_dpd]

/-- An observation stream that ends does not hold its receiver. -/
theorem streamStop_frees {st : Fin 4} {s : State} (ha : streamActive s st = true) (h2 : srcCode s st = 2) (h8 : srcIndex s st < 8) :
    (vget (streamStop st s).dpd.obs (srcIndex s st)).holder ≠ some (.capture st) := by
  have settings := openSegmentStored_settings st s
  rw [streamStop_active ha, State.modStream_dpd, receiverFreed, if_pos ((srcCode_of_settings settings st).trans h2), obs_holder_freed,
    srcIndex_of_settings settings, openSegmentStored_dpd]
  split
  · simp
  next other => exact fun e => other ⟨rfl, h8, e⟩

/-- What every stream's end keeps, the ends of several streams and their followers keep. -/
theorem stopStreams_induct {P : State → Prop} (step : ∀ k t, P t → P (streamStop k t)) (n : Nat) {l : List Nat} {s : State} (h : P s) :
    P (stopStreams n l s) := by
  have all : ∀ (l : List Nat) (t : State), P t → P (forAll l streamStop t) := by
    intro l
    induction l with
    | nil => exact fun _ ht => ht
    | cons k l ih => exact fun t ht => ih (streamStop k t) (step k t ht)
  induction n generalizing l s with
  | zero => exact h
  | succ n ih =>
    unfold stopStreams; dsimp only
    split
    · exact h
    · exact ih (all _ s h)

/-- Stopping a stream that is not active stops none. -/
theorem stopStreams_not_active {s : State} {st : Nat} (h : streamActive s st = false) (n : Nat) : stopStreams n [st] s = s := by
  cases n <;> simp [stopStreams, h]

/-- Stopping an active stream ends it, then its followers. -/
theorem stopStreams_active {s : State} {st : Nat} (h : streamActive s st = true) (n : Nat) :
    ∃ l, stopStreams (n + 1) [st] s = stopStreams n l (streamStop st s) := by
  simp only [stopStreams, List.filter_cons, h, if_true, List.filter_nil, List.isEmpty_cons, Bool.false_eq_true, if_false]
  exact ⟨_, rfl⟩

/-! ### DISARM (R343) -/

theorem armWithdraw_stream (st : Fin 4) (id : Nat) (s : State) :
    vget (armWithdraw st id s).acq.streams st = { vget s.acq.streams st with asks := (vget s.acq.streams st).asks.filter (fun a => a.id != id) } :=
  modStream_same s st.isLt _

theorem armWithdraw_active (st : Fin 4) (id : Nat) (s : State) : streamActive (armWithdraw st id s) st = streamActive s st := by
  unfold streamActive; rw [armWithdraw_stream]

/-- The requester's arms are withdrawn. -/
theorem disarm_asks (st : Fin 4) (id : Nat) (s : State) : ∀ a ∈ (vget (disarm st id s).acq.streams st).asks, a.id ≠ id := by
  refine stopStreams_induct (P := fun t => ∀ a ∈ (vget t.acq.streams st).asks, a.id ≠ id) (fun k t ht => ?_) 5 ?_
  · rwa [streamStop_asks]
  · rw [armWithdraw_stream]
    intro a ha
    simpa using (List.mem_filter.mp ha).2

/-- DISARM of a stream that is not active withdraws arms alone. -/
theorem disarm_not_active {st : Fin 4} {s : State} (h : streamActive s st = false) (id : Nat) :
    (vget (disarm st id s).acq.streams st).state = (vget s.acq.streams st).state ∧ changedOnly [.acq] s (disarm st id s) := by
  rw [disarm, stopStreams_not_active ((armWithdraw_active st id s).trans h), armWithdraw_stream]
  exact ⟨rfl, (armWithdraw_keeps rfl (Kept.refl _ s)).changedOnly⟩

/-- DISARM makes an active stream IDLE, and lets its receiver go. -/
theorem disarm_active {st : Fin 4} {s : State} (h : streamActive s st = true) (id : Nat) :
    (vget (disarm st id s).acq.streams st).state = .idle ∧
      (srcCode s st = 2 → srcIndex s st < 8 → (vget (disarm st id s).dpd.obs (srcIndex s st)).holder ≠ some (.capture st)) := by
  have active := (armWithdraw_active st id s).trans h
  have settings : settingsKept s (armWithdraw st id s) := settingsKept_of_same fun _ => State.modStream_reg ..
  obtain ⟨l, e⟩ := stopStreams_active active 4
  rw [disarm, e]
  refine ⟨?_, fun h2 h8 => ?_⟩
  · refine stopStreams_induct (P := fun t => (vget t.acq.streams st).state = .idle) (fun k t ht => ?_) 4 (streamStop_state active)
    by_cases hk : st.val = k
    · subst hk
      rwa [streamStop_idle (by simp [streamActive, ht])]
    · rwa [streamStop_other hk]
  · refine stopStreams_induct (P := fun t => (vget t.dpd.obs (srcIndex s st)).holder ≠ some (.capture st))
      (fun k t ht => streamStop_holder ht k) 4 ?_
    rw [← srcIndex_of_settings settings]
    exact streamStop_frees active ((srcCode_of_settings settings st).trans h2) (by rwa [srcIndex_of_settings settings])

/-! ### Monitor chains (R347) -/

theorem fld_lt (w : Word) (hi lo : Nat) : fld w hi lo < 2 ^ (hi + 1 - lo) := Nat.mod_lt _ (by positivity)

theorem clampN_le {lo hi : Nat} (h : lo ≤ hi) (x : Nat) : clampN lo hi x ≤ hi := by
  unfold clampN; split
  · exact h
  · split <;> omega

/-- A word of ACQ_MON_CFG as it is stored: N in its range, and the reserved bits zero. -/
def monCfgWord (w : Word) : Word := put (put w 31 28 (clampN 1 10 (fld w 31 28))) 20 3 0

theorem monCfgWord_fields (w : Word) :
    fld (monCfgWord w) 31 28 = clampN 1 10 (fld w 31 28) ∧ fld (monCfgWord w) 27 21 = fld w 27 21 ∧ fld (monCfgWord w) 20 3 = 0 ∧
      fld (monCfgWord w) 2 0 = fld w 2 0 := by
  unfold monCfgWord
  refine ⟨?_, ?_, ?_, ?_⟩
  · rw [fld_put_above _ _ (by decide) (by decide) (by decide), fld_put _ _ (by decide) (by decide)]
    exact Nat.mod_eq_of_lt (Nat.lt_of_le_of_lt (clampN_le (by decide) _) (by decide))
  · rw [fld_put_above _ _ (by decide) (by decide) (by decide), fld_put_below _ _ (by decide) (by decide) (by decide) (by decide)]
  · rw [fld_put _ _ (by decide) (by decide)]; rfl
  · rw [fld_put_below _ _ (by decide) (by decide) (by decide) (by decide), fld_put_below _ _ (by decide) (by decide) (by decide) (by decide)]

theorem monInt_ne (f : Fin 8) : Reg.ACQ_MON_CFG f ≠ Reg.ACQ_INT_STATUS := by
  unfold Reg.ACQ_MON_CFG Reg.ACQ_INT_STATUS; omega

/-- A write that moves N of a chain in use keeps N and the member, and is flagged. -/
theorem monCfgWrite_in_use {s : State} {f : Fin 8} {w : Word} (hu : monInUse s f = true)
    (hn : fld (s.reg (Reg.ACQ_MON_CFG f)) 31 28 ≠ clampN 1 10 (fld w 31 28)) :
    let t := monCfgWrite f w s
    t.mon = s.mon ∧ t.bit Reg.ACQ_INT_STATUS 6 = true ∧ monN t f = monN s f ∧
      t.fld (Reg.ACQ_MON_CFG f) 2 0 = s.fld (Reg.ACQ_MON_CFG f) 2 0 ∧ t.fld (Reg.ACQ_MON_CFG f) 27 21 = fld w 27 21 := by
  intro t
  let old := s.reg (Reg.ACQ_MON_CFG f)
  have e : t = (s.setReg (Reg.ACQ_MON_CFG f) (put (put (monCfgWord w) 31 28 (fld old 31 28)) 2 0 (fld old 2 0))).raise Reg.ACQ_INT_STATUS 6 :=
    if_pos ⟨Or.inl hn, hu⟩
  have word : t.reg (Reg.ACQ_MON_CFG f) = put (put (monCfgWord w) 31 28 (fld old 31 28)) 2 0 (fld old 2 0) := by
    rw [e, State.raise_reg_ne _ (monInt_ne f), State.reg_setReg, if_pos rfl]
  refine ⟨by simp [e], by rw [e]; exact State.bit_raise _ (present_acqInt _) (by decide), ?_, ?_, ?_⟩
  · rw [monN, State.fld, word, fld_put_above _ _ (by decide) (by decide) (by decide), fld_put _ _ (by decide) (by decide)]
    exact Nat.mod_eq_of_lt (fld_lt ..)
  · rw [State.fld, word, fld_put _ _ (by decide) (by decide)]
    exact Nat.mod_eq_of_lt (fld_lt ..)
  · rw [State.fld, word, fld_put_above _ _ (by decide) (by decide) (by decide),
      fld_put_below _ _ (by decide) (by decide) (by decide) (by decide)]
    exact (monCfgWord_fields w).2.1

/-- A chain that starts anew keeps its estimates, and waits for its filters to fill. -/
theorem monRestart_chain (f : Fin 8) (s : State) :
    vget (monRestart f s).mon f = { vget s.mon f with running := true, gap := monFill (monN s f) } := vget_vmod_same _ _ f.isLt

/-- A write for a chain not in use is stored with N in its range, and restarts the chain where it moves N. -/
theorem monCfgWrite_stored {s : State} {f : Fin 8} {w : Word} (hu : monInUse s f = false) :
    let t := monCfgWrite f w s
    monN t f = clampN 1 10 (fld w 31 28) ∧ t.fld (Reg.ACQ_MON_CFG f) 2 0 = fld w 2 0 ∧
      t.fld (Reg.ACQ_MON_CFG f) 27 21 = fld w 27 21 ∧ t.fld (Reg.ACQ_MON_CFG f) 20 3 = 0 ∧
      (fld (s.reg (Reg.ACQ_MON_CFG f)) 31 28 ≠ clampN 1 10 (fld w 31 28) →
        (vget t.mon f).running = true ∧ (vget t.mon f).gap = monFill (clampN 1 10 (fld w 31 28)) ∧
        (vget t.mon f).muI = (vget s.mon f).muI) := by
  intro t
  let u := s.setReg (Reg.ACQ_MON_CFG f) (monCfgWord w)
  obtain ⟨n, kept, reserved, member⟩ := monCfgWord_fields w
  have e : t = if fld (s.reg (Reg.ACQ_MON_CFG f)) 31 28 ≠ clampN 1 10 (fld w 31 28) ∨
      fld (s.reg (Reg.ACQ_MON_CFG f)) 2 0 ≠ fld (monCfgWord w) 2 0 then monRestart f u else u := if_neg (by simp [hu])
  have stored : u.reg (Reg.ACQ_MON_CFG f) = monCfgWord w := by simp [u]
  have word : t.reg (Reg.ACQ_MON_CFG f) = monCfgWord w := by
    rw [e]; split
    · exact (State.modMon_reg ..).trans stored
    · exact stored
  refine ⟨by rw [monN, State.fld, word, n], by rw [State.fld, word, member], by rw [State.fld, word, kept],
    by rw [State.fld, word, reserved], fun moved => ?_⟩
  rw [e, if_pos (Or.inl moved), monRestart_chain, monN, State.fld, stored, n]
  exact ⟨rfl, rfl, by simp [u]⟩

/-- Settles O39: an arm by its code, a trigger by its source and the state of its stream, a segment by what is left of the sequence, an end
by what its stream holds, and a setting of a chain by whether the chain is in use. -/
theorem captureStreams : Obligations.CaptureStreams := by
  unfold Obligations.CaptureStreams
  refine fun s => ⟨fun st drover => ⟨_, rfl, fun hd hs => State.asked_not_served hd hs _, ?_, ?_⟩,
    fun st g => ⟨_, rfl, fun hs => State.hosted_not_served hs _, fun h => ?_, ?_⟩,
    fun st g w => ⟨_, rfl, captureTrigger_nothing, fun p h ha hp => captureTrigger_event_armed h ha hp g w,
      fun h ha hf hs hr => captureTrigger_aim h ha hf hs hr g w,
      fun c h hw => ⟨captureTrigger_watches h hw, captureTrigger_crosses h hw⟩⟩,
    fun rising at_ grids => ⟨_, rfl, fun h => trigInEdge_not_selected h at_ grids, fun st h4 h6 => ?_, fun st h h4 ha => ?_⟩,
    fun st xs k => ⟨_, rfl, fun h => segmentEnd_nothing h xs k, fun hc => ?_⟩,
    fun st => ⟨_, rfl, holdoffEnd_spec st s⟩,
    fun st drover => ⟨_, rfl, fun hd hs => State.asked_not_served hd hs _, fun heard => ?_⟩,
    fun f w => ⟨_, rfl, fun hs => State.hosted_not_served hs _, fun hs => ?_⟩⟩
  · intro heard hc
    rw [State.asked_heard heard]
    exact streamArm_refused hc _
  · intro heard hc
    rw [State.asked_heard heard]
    exact streamArm_waits hc _
  · unfold State.hosted
    split
    · exact forceTrigger_nothing h g
    · rfl
  · intro hs ha hp
    rw [State.hosted_served hs]
    exact forceTrigger_armed ha hp g
  · cases h : edgeSelected s rising
    · rw [trigInEdge_not_selected h]
    · rw [trigInEdge_selected h]
      exact forAll_edgeAt_kept h6 (Or.inr h4)
  · rw [trigInEdge_selected h]
    exact forAll_edgeAt_takes List.nodup_range (List.mem_range.mpr st.isLt) h4 ha
  · by_cases hl : segCount s st ≤ (vget s.acq.streams st).seg + 1 ∧ s.bit (Reg.ACQ_STREAM_SRC st) 15 = false
    · obtain ⟨seq, flag, last⟩ := segmentEnd_last hc hl.1 hl.2 xs k
      exact ⟨seq, flag, fun hn => absurd hn (by simp [hl.1, hl.2]), fun _ _ => last⟩
    · have hn : (vget s.acq.streams st).seg + 1 < segCount s st ∨ s.bit (Reg.ACQ_STREAM_SRC st) 15 = true := by
        rw [not_and_or, Nat.not_le, Bool.not_eq_false] at hl; exact hl
      obtain ⟨seq, flag, next⟩ := segmentEnd_next hc hn xs k
      exact ⟨seq, flag, fun _ => next, fun h1 h2 => absurd ⟨h1, h2⟩ hl⟩
  · rw [State.asked_heard heard]
    exact ⟨disarm_asks st _ s, fun h => disarm_not_active h _, fun h => disarm_active h _⟩
  · rw [State.hosted_served hs]
    exact ⟨(monCfgWrite_keeps rfl rfl (Kept.refl _ s)).changedOnly, monCfgWrite_in_use, monCfgWrite_stored⟩

end Sys2Proof.Machine
end

section
/-!
SUPPORT. The supply, the crystal and RST_N: what each of their edges leaves (R12, R35, R40, R41).
-/

namespace Sys2Proof.Machine

/-! ### The supply (R35, R40) -/

/-- A device whose register tables hold nothing reads every register at its reset value. -/
theorem reg_of_empty {s : State} (hr : s.regs = []) (ha : s.aonRegs = []) (a : Nat) : s.reg a = regReset a := by
  unfold State.reg
  split
  · rw [ha]; rfl
  · rw [hr]; rfl

/-- What VSEN rising leaves of each part that a statement names: Sentinel with everything at reset but the store and the flash. -/
theorem vsenRise_spec (s : State) :
    let t := vsenRise s
    t.pwr = { stage := 0, rails := Vector.replicate 8 { acked := false, modeRead := false } } ∧ (∀ a, t.reg a = regReset a) ∧
      t.time = {} ∧ t.glb = { flash := s.glb.flash } ∧ t.nvs.store = s.nvs.store ∧ t.nvs.rows = s.nvs.rows ∧ t.thm = {} ∧ t.wrp = {} := by
  intro t
  have K := copySentinel_keeps (L := fun p => decide (p ∈ [Part.bda])) rfl (Kept.refl _
    ({ pending := s.pending, fuse := s.fuse, pins := s.pins, glb := { flash := s.glb.flash }
       nvs := { store := s.nvs.store, rows := s.nvs.rows, rowRetired := s.nvs.rowRetired }
       pwr := { stage := 0, rails := Vector.replicate 8 { acked := false, modeRead := false } }
       syn := { active := 2 }, rnd := s.rnd } : State))
  exact ⟨K.pwr rfl, fun a => (K.reg rfl a).trans (reg_of_empty rfl rfl a), K.time rfl, K.glb rfl, (congrArg Nvs.store (K.nvs rfl) :),
    (congrArg Nvs.rows (K.nvs rfl) :), K.thm rfl, K.wrp rfl⟩

/-- VSEN falling is the reset of VSEN rising without power, after the end of a store write that ran. -/
theorem vsenFall_eq (s : State) : ∃ u : State, u.glb = s.glb ∧ (s.nvs.running = false → u = s) ∧
    vsenFall s = ((vsenRise u).modPwr (fun p => { p with off := true })).modBda (fun b => { b with sentinel := [] }) := by
  unfold vsenFall; dsimp only
  split
  next w _ _ =>
    split
    next running =>
      exact ⟨_, (commitWrite_keeps (L := fun p => decide (p ∈ [Part.nvs])) rfl (Kept.refl _ s)).glb rfl,
        fun idle => absurd (running.symm.trans idle) (by decide), rfl⟩
    · exact ⟨s, rfl, fun _ => rfl, rfl⟩
  · exact ⟨s, rfl, fun _ => rfl, rfl⟩

/-- What VSEN falling leaves: Off, with the flash, and the store where no write ran. -/
theorem vsenFall_spec (s : State) :
    let t := vsenFall s
    t.pwr.off = true ∧ t.pwr.stage = 0 ∧ (∀ a, t.reg a = regReset a) ∧ t.time = {} ∧ t.glb.flash = s.glb.flash ∧
      t.thm.shutdown = false ∧ t.bda.sentinel = [] ∧ (s.nvs.running = false → t.nvs.store = s.nvs.store) := by
  intro t
  obtain ⟨u, flash, idle, e⟩ := vsenFall_eq s
  obtain ⟨pwr, regs, time, glb, store, -, thm, -⟩ := vsenRise_spec u
  rw [show t = _ from e]
  refine ⟨rfl, (congrArg Pwr.stage pwr :), regs, time, ?_, (congrArg Thm.shutdown thm :), rfl, fun h => ?_⟩
  · exact (congrArg Glb.flash glb :).trans (congrArg Glb.flash flash :)
  · rw [← idle h]; exact store

/-! ### The crystal and RST_N (R40, R41) -/

theorem xtalOk_spec (s : State) :
    let t := s.setFld Reg.PWR_AON_START_CFG 31 31 1
    t.bit Reg.PWR_AON_START_CFG 31 = true ∧ regsBut [Reg.PWR_AON_START_CFG] s t ∧ changedOnly [.regs] s t :=
  ⟨State.bit_setFld s _ true (by decide), fun _ ha => State.setFld_reg_ne s (by simpa using ha), (setFld_keeps rfl (Kept.refl _ s)).changedOnly⟩

/-- Settles O5: VSEN and RST_N by what their resets build, the crystal by the bit it sets. -/
theorem supplyPinsAndReset : Obligations.SupplyPinsAndReset := by
  unfold Obligations.SupplyPinsAndReset
  refine fun s => ⟨⟨_, rfl, ?_⟩, ⟨_, rfl, ?_⟩, ⟨_, rfl, ?_⟩, ⟨_, rfl, ?_⟩, _, rfl, rfl, rfl, rfl, (modPins_keeps rfl (Kept.refl _ s)).changedOnly⟩
  · cases off : s.pwr.off <;> simp only [if_true, if_false, Bool.false_eq_true]
    obtain ⟨pwr, regs, time, glb, store, rows, thm, wrp⟩ := vsenRise_spec s
    exact ⟨(congrArg Pwr.off pwr :), (congrArg Pwr.stage pwr :), (congrArg Pwr.climb pwr :), regs, time, (congrArg Glb.log glb :),
      (congrArg Glb.flash glb :), store, rows, (congrArg Thm.shutdown thm :), (congrArg Wrp.active wrp :)⟩
  · cases off : s.pwr.off <;> simp only [if_true, if_false, Bool.false_eq_true]
    exact vsenFall_spec s
  · cases off : s.pwr.off <;> simp only [if_true, if_false, Bool.false_eq_true]
    exact xtalOk_spec s
  · cases off : s.pwr.off <;> simp only [if_true, if_false, Bool.false_eq_true]
    · exact ⟨rfl, fun h => absurd h (by decide), fun _ => ⟨rfl, rfl, rfl, rfl, rfl, rfl, rfl, rfl, rfl, rfl, rfl, rfl, rfl⟩⟩
    · exact ⟨rfl, fun _ => (modPins_keeps rfl (Kept.refl _ s)).changedOnly, fun h => absurd h (by decide)⟩

end Sys2Proof.Machine
end

section
/-!
SUPPORT. Counters in the halves of a register, and changes one after another.
-/

namespace Sys2Proof.Machine

/-! ### Counters (R7) -/

theorem satAdd_mod (x n : Nat) : satAdd 0xFFFF x n % 2 ^ 16 = satAdd 0xFFFF x n := by
  unfold satAdd; omega

theorem State.fld_addHi (s : State) (a n : Nat) : (s.addHi a n).fld a 31 16 = satAdd 0xFFFF (s.fld a 31 16) n :=
  (State.fld_setFld s a _ (by decide) (by decide)).trans (satAdd_mod _ _)

theorem State.fld_addLo (s : State) (a n : Nat) : (s.addLo a n).fld a 15 0 = satAdd 0xFFFF (s.fld a 15 0) n :=
  (State.fld_setFld s a _ (by decide) (by decide)).trans (satAdd_mod _ _)

/-- A count in the upper half of a register leaves the lower half. -/
theorem State.fld_addHi_low (s : State) (a n : Nat) : (s.addHi a n).fld a 15 0 = s.fld a 15 0 :=
  State.fld_setFld_below s a _ (by decide) (by decide) (by decide) (by decide)

/-- At a stage above 0 a violation of an odd class counts in the upper half of its register. -/
theorem State.fld_viol_odd (s : State) (kind index : Nat) {cls : Nat} (detail : Word) (h0 : s.pwr.stage ≠ 0) (hc : cls % 2 = 1)
    (hi : Reg.GLB_VIOL kind (cls / 2) ≠ Reg.GLB_INT_STATUS) (hl : Reg.GLB_VIOL kind (cls / 2) ≠ Reg.GLB_LOG_LOST) :
    (s.viol kind index cls detail).fld (Reg.GLB_VIOL kind (cls / 2)) 31 16 =
      satAdd 0xFFFF (s.fld (Reg.GLB_VIOL kind (cls / 2)) 31 16) 1 := by
  have counted : s.countViol kind cls = s.addHi (Reg.GLB_VIOL kind (cls / 2)) 1 := by simp [State.countViol, h0, hc]
  rw [State.viol, State.fld, State.logPut_reg _ hi hl, counted]
  exact State.fld_addHi s _ 1

/-- At stage 0 no violation is counted or logged. -/
theorem State.viol_stage0 {s : State} (h : s.pwr.stage = 0) (kind index cls : Nat) (detail : Word) : s.viol kind index cls detail = s := by
  simp [State.viol, State.countViol, State.logPut, h]

/-! ### Changes one after another -/

theorem Part.same_trans {p : Part} {s t u : State} (h : p.same s t) (h' : p.same t u) : p.same s u := by
  cases p
  case regs => exact ⟨h'.1.trans h.1, h'.2.trans h.2⟩
  all_goals exact Eq.trans h' h

/-- What changes only some parts, and then only others, changes only the parts of both. -/
theorem changedOnly_trans {l m n : List Part} {s t u : State} (hl : l ⊆ n) (hm : m ⊆ n) (h : changedOnly l s t) (h' : changedOnly m t u) :
    changedOnly n s u := by
  obtain ⟨pending, fuse, parts⟩ := h
  obtain ⟨pending', fuse', parts'⟩ := h'
  exact ⟨pending'.trans pending, fuse'.trans fuse, fun p hp =>
    Part.same_trans (parts p fun hi => hp (hl hi)) (parts' p fun hi => hp (hm hi))⟩

end Sys2Proof.Machine
end

section
/-!
SUPPORT. Wake sources (R52, R65 to R67): signals of the front haul and frames of the Shieling receiver, as they reach the wake that all sources share.
-/

namespace Sys2Proof.Machine

/-! ### Where a device rests -/

theorem resting_doze {s : State} (h : resting s = .doze) : 3 ≤ s.pwr.stage ∧ s.pstate = .doze := by
  unfold resting at h
  split at h; · cases h
  split at h; · cases h
  split at h
  · split at h <;> cases h
  · split at h
    next dozes => exact ⟨dozes.2.1, dozes.1⟩
    · cases h

/-- Where a device rests depends on the PWR block and its state alone. -/
theorem resting_congr {s t : State} (hp : t.pwr = s.pwr) (hs : t.pstate = s.pstate) : resting t = resting s := by
  unfold resting; rw [hp, hs]

/-- Whether a source is enabled depends on two registers alone. -/
theorem wakeEnabled_congr {s t : State} (he : t.reg Reg.PWR_AON_WAKE_EN = s.reg Reg.PWR_AON_WAKE_EN)
    (hf : t.reg Reg.PWR_AON_WAKE_FAIL = s.reg Reg.PWR_AON_WAKE_FAIL) (src : Nat) : wakeEnabled t src = wakeEnabled s src := by
  unfold wakeEnabled State.bit State.fld; rw [he, hf]

/-! ### Signals of the front haul (R65, R245) -/

/-- The lane that serves a port's first position as it sees a signal. -/
def signalled (q : Nat) (s : State) : State := s.modLane (servingLane s q 0) (fun l => { l with sig := l.sig || l.state == .l2 })

theorem execFronthaulSignalDetect_awake {s : State} (h : s.pwr.stage < 3 ∨ s.pstate ≠ .doze) (q : Fin 2) :
    execFronthaulSignalDetect q s = .next s := by
  unfold execFronthaulSignalDetect
  rw [if_neg fun ⟨h3, hd⟩ => h.elim (Nat.not_lt.mpr h3) (absurd hd)]

theorem execFronthaulSignalDetect_doze {s : State} (h : resting s = .doze) (q : Fin 2) :
    execFronthaulSignalDetect q s = .next (wake 4 0 (signalled q s)) := by
  unfold execFronthaulSignalDetect
  rw [if_pos (resting_doze h)]; rfl

/-- A signal of the front haul ends Doze as the other sources do, and its lane shows it. -/
theorem wake_signalled {s : State} (hr : s.pins.rstLow = false) (he : wakeEnabled s 4 = true) (hd : resting s = .doze) (q : Nat) :
    let t := wake 4 0 (signalled q s)
    t.pwr.leavingDoze = true ∧ (rail t 1).req = some { mv := vcoreNominal s.pwr.level, why := .dozeExit } ∧
      changedOnly [.pwr, .regs, .syn, .lne] s t := by
  intro t
  obtain ⟨leaving, -, vcore, parts⟩ := wake_from_doze 4 0 (signalled q s) hr he hd
  have lane : changedOnly [.lne] s (signalled q s) := (modLane_keeps rfl (Kept.refl _ s)).changedOnly
  exact ⟨leaving, vcore, changedOnly_trans (by decide) (by decide) lane parts⟩

/-! ### Shieling frames (R67) -/

section
variable {s : State} {site cmd : Nat} {crcOk : Bool}

theorem shieling_deaf (h : s.bit Reg.PWR_AON_SHL_CFG 31 = false ∨ s.pins.rstLow = true ∨ s.pwr.off = true) : shieling site cmd crcOk s = s :=
  if_pos (h.imp_left (fun hb => by simp [hb]))

variable (hb : s.bit Reg.PWR_AON_SHL_CFG 31 = true) (hr : s.pins.rstLow = false)
include hb hr

/-- A frame that is heard: counted as a wake with the wake, or as another frame. -/
theorem shieling_heard (ho : s.pwr.off = false) :
    shieling site cmd crcOk s =
      if (crcOk && site == s.fld Reg.PWR_AON_SHL_CFG 23 0 && (cmd == 1 || cmd == 2)) = true ∧ wakeEnabled s 0 = true ∧ wakesNow s = true then
        wake 0 cmd (s.addLo Reg.PWR_AON_SHL_COUNT 1)
      else s.addHi Reg.PWR_AON_SHL_COUNT 1 :=
  if_neg (by simp [hb, hr, ho])

/-- A frame that wakes nothing counts in the upper half. -/
theorem shieling_wakes_nothing (ho : s.pwr.off = false)
    (h : crcOk = false ∨ site ≠ s.fld Reg.PWR_AON_SHL_CFG 23 0 ∨ (cmd ≠ 1 ∧ cmd ≠ 2) ∨ wakeEnabled s 0 = false ∨
      (resting s = .other ∧ s.pwr.wakeAt ≠ some s.time.aon)) :
    shieling site cmd crcOk s = s.addHi Reg.PWR_AON_SHL_COUNT 1 := by
  refine (shieling_heard hb hr ho).trans (if_neg fun ⟨good, enabled, now⟩ => ?_)
  simp only [Bool.and_eq_true, Bool.or_eq_true, beq_iff_eq] at good
  obtain ⟨⟨crc, named⟩, command⟩ := good
  rcases h with h | h | h | h | ⟨h, h'⟩
  · exact absurd (crc.symm.trans h) (by decide)
  · exact h named
  · exact command.elim h.1 h.2
  · exact absurd (enabled.symm.trans h) (by decide)
  · simp [wakesNow, h, h'] at now

/-- A recognised frame in Sentinel counts in the lower half and wakes; command 2 holds the climb at stage 1. -/
theorem shieling_wakes (hd : resting s = .sentinel) (hc : crcOk = true) (hs : site = s.fld Reg.PWR_AON_SHL_CFG 23 0) (hm : cmd = 1 ∨ cmd = 2)
    (he : wakeEnabled s 0 = true) (hsd : s.thm.shutdown = false) (hrec : supplyRecord s ≠ none) :
    let t := shieling site cmd crcOk s
    t.fld Reg.PWR_AON_SHL_COUNT 15 0 = satAdd 0xFFFF (s.fld Reg.PWR_AON_SHL_COUNT 15 0) 1 ∧ t.pwr.climb = .rails 1 ∧
      t.pwr.shlHold = (cmd == 2) := by
  intro t
  let u := s.addLo Reg.PWR_AON_SHL_COUNT 1
  have ho : s.pwr.off = false := resting_on s (by simp [hd])
  have e : t = wake 0 cmd u := by
    refine (shieling_heard hb hr ho).trans (if_pos ⟨?_, he, ?_⟩)
    · simpa [hc, hs] using hm
    · simp [wakesNow, ho, hd]
  have enabled : wakeEnabled u 0 = true :=
    (wakeEnabled_congr (State.addLo_reg_ne s (by decide)) (State.addLo_reg_ne s (by decide)) 0).trans he
  have rests : resting u = .sentinel := (resting_congr (by simp [u]) (by simp [u])).trans hd
  obtain ⟨-, -, regs, climb⟩ := wake_from_sentinel 0 cmd u (by simpa [u] using hr) enabled rests
  have no_shutdown : ¬ u.thm.shutdown = true := by simp [u, hsd]
  have record : supplyRecord u ≠ none := by rwa [supplyRecord_congr (s := s) (by simp [u])]
  rw [if_neg no_shutdown, if_neg record] at climb
  obtain ⟨rails, -, hold⟩ := climb
  rw [e]
  refine ⟨?_, rails, hold⟩
  rw [State.fld, regs _ (by decide) (by decide) (by decide) (by decide)]
  exact State.fld_addLo s _ 1

end

/-- Settles O6: the sources that wake from Sentinel and from Doze by the wake they share, a front-haul signal by the same from Doze, and a
Shieling frame by whether it is heard and wakes. -/
theorem wakeSources : Obligations.WakeSources := by
  unfold Obligations.WakeSources
  refine fun s => ⟨fun x hx => ?_, fun q => ?_, fun site cmd crc => ?_⟩
  · have answers : exec x.1 s = .next (wake x.2 0 s) := by
      simp only [List.mem_cons, List.not_mem_nil, or_false] at hx
      rcases hx with rfl | rfl | rfl | rfl <;> rfl
    refine ⟨_, answers, wake_nothing x.2 0 s, fun hr he hd hf => ?_, wake_from_doze x.2 0 s⟩
    obtain ⟨stage, record, -, climb⟩ := wake_from_sentinel x.2 0 s hr he hd
    obtain ⟨source, second⟩ := record hf
    refine ⟨stage, source, second, ?_⟩
    revert climb
    split
    · exact id
    · split
      · exact id
      · exact fun ⟨rails, asked, _⟩ => ⟨rails, asked⟩
  · by_cases h : s.pwr.stage < 3 ∨ s.pstate ≠ .doze
    · refine ⟨s, execFronthaulSignalDetect_awake h q, fun _ => rfl, fun _ _ hd => ?_⟩
      obtain ⟨h3, hd⟩ := resting_doze hd
      exact (h.elim (Nat.not_lt.mpr h3) (absurd hd)).elim
    · by_cases hd : resting s = .doze
      · exact ⟨_, execFronthaulSignalDetect_doze hd q, fun h' => absurd h' h, fun hr he _ => wake_signalled hr he hd q⟩
      · exact ⟨_, rfl, fun h' => absurd h' h, fun _ _ hd' => absurd hd' hd⟩
  · refine ⟨_, rfl, shieling_deaf, fun hb hr ho h => ?_, fun hb hr hd hc hs hm he hsd hrec => ?_⟩
    · have ignored := shieling_wakes_nothing (site := site.toNat) (cmd := cmd.toNat)
        (crcOk := crc.toNat == crc8 (beBytes 3 site.toNat ++ beBytes 1 cmd.toNat)) hb hr ho ?_
      · rw [ignored]
        exact ⟨State.fld_addHi s _ 1, State.fld_addHi_low s _ 1, fun a ha => State.addHi_reg_ne s (by simpa using ha),
          (addHi_keeps rfl (Kept.refl _ s)).changedOnly⟩
      · refine h.imp (fun hc => by simpa using hc) (Or.imp id (Or.imp (fun hm => ?_) id))
        exact ⟨fun h1 => hm.1 (BitVec.eq_of_toNat_eq h1), fun h2 => hm.2 (BitVec.eq_of_toNat_eq h2)⟩
    · have command : cmd.toNat = 1 ∨ cmd.toNat = 2 := hm.imp (congrArg BitVec.toNat) (congrArg BitVec.toNat)
      obtain ⟨counted, rails, hold⟩ := shieling_wakes hb hr hd (beq_iff_eq.mpr hc) hs command he hsd hrec
      refine ⟨counted, rails, hold.trans ?_⟩
      rw [Bool.eq_iff_iff, beq_iff_eq, decide_eq_true_iff, ← BitVec.toNat_inj]; rfl

end Sys2Proof.Machine
end

section
/-!
SUPPORT. Answers of the regulator: requests that are acknowledged, fail and are sent again, faults of rails, alerts and telemetry (R42, R49 to R55).
-/

namespace Sys2Proof.Machine

/-! ### Folds over a list -/

/-- What every change of a list keeps, all of them keep. -/
theorem forAll_induct {α : Type} {f : α → State → State} {P : State → Prop} (step : ∀ x t, P t → P (f x t)) (l : List α) {s : State}
    (h : P s) : P (forAll l f s) := by
  unfold forAll
  induction l generalizing s with
  | nil => exact h
  | cons x l ih => exact ih (step x s h)

/-- Changes of rails one by one are one change of the row of rails. -/
theorem forAll_modRail (f : Nat → Rail → Rail) (l : List Nat) (s : State) :
    forAll l (fun n s => s.modRail n (f n)) s = s.modPwr (fun p => { p with rails := l.foldl (fun v i => vmod v i (f i)) p.rails }) := by
  unfold forAll
  induction l generalizing s with
  | nil => rfl
  | cons n l ih => rw [List.foldl_cons, ih]; rfl

/-! ### Rails -/

theorem heldStage_congr {s t : State} (h : t.pwr = s.pwr) : heldStage t = heldStage s := by
  unfold heldStage; rw [h]

theorem railRequest_climb (n mv : Nat) (why : RailWhy) (s : State) : (railRequest n mv why s).pwr.climb = s.pwr.climb := by
  simp [railRequest]

/-- Asking for a group's rails starts their group of the climb. -/
theorem requestGroup_climb (g : Nat) (s : State) : (requestGroup g s).pwr.climb = .rails g :=
  forAll_induct (P := fun t => t.pwr.climb = .rails g) (fun n t h => (railRequest_climb n _ .climb t).trans h) _ rfl

/-- A rail that is asked again stays acknowledged until its answer. -/
theorem acked_railRequest (n mv : Nat) (why : RailWhy) (s : State) {m : Nat} (hm : m < 8) :
    (rail (railRequest n mv why s) m).acked = (rail s m).acked := by
  rw [rail_railRequest _ _ _ _ _ hm]; split <;> rfl

theorem acked_requestGroup (g : Nat) (s : State) {m : Nat} (hm : m < 8) : (rail (requestGroup g s) m).acked = (rail s m).acked :=
  forAll_induct (P := fun t => (rail t m).acked = (rail s m).acked) (fun _ _ h => (acked_railRequest _ _ _ _ hm).trans h) _ rfl

/-! ### Requests that succeed (R54) -/

/-- The rail that answers is acknowledged and asked no more; the others stay. -/
theorem rail_railUp (n : Nat) (q : RailReq) (s : State) {m : Nat} (hm : m < 8) :
    rail (railUp n q s) m = if m = n then { rail s m with req := none, acked := true } else rail s m := by
  have e : (railUp n q s).pwr.rails = (pmbNote n 0x79 (s.modRail n (fun r => { r with req := none, acked := true }))).pwr.rails := by
    unfold railUp; dsimp only; split <;> simp
  rw [rail, e, ← rail, rail_pmbNote, rail_modRail _ _ _ _ hm]

theorem railUp_climb (n : Nat) (q : RailReq) (s : State) : (railUp n q s).pwr.climb = s.pwr.climb := by
  unfold railUp; dsimp only; split <;> simp

/-- VCORE that answers has its new voltage. -/
theorem railUp_vcore (q : RailReq) (s : State) : (railUp 1 q s).pwr.vcore = q.mv := rfl

theorem railUp_nvs (n : Nat) (q : RailReq) (s : State) : (railUp n q s).nvs = s.nvs :=
  (railUp_keeps (L := fun p => decide (p ∈ [Part.pwr, .regs])) rfl rfl (Kept.refl _ s)).nvs rfl

section
variable {s : State} {n : Nat} {q : RailReq} (hq : (rail s n).req = some q)
include hq

theorem pmbusDone_waits (hw : q.waiting = true) (mode : Nat) : pmbusDone n mode s = s := by
  simp [pmbusDone, hq, hw]

theorem pmbusDone_not_linear (hw : q.waiting = false) (hr : (rail s n).modeRead = false) {mode : Nat} (hm : mode / 32 ≠ 0) :
    pmbusDone n mode s = finalFailure (heldStage s) 4 n s := by
  simp [pmbusDone, hq, hw, hr, hm]

theorem pmbusDone_succeeds (hw : q.waiting = false) (hr : (rail s n).modeRead = true) (mode : Nat) :
    pmbusDone n mode s = railAcked n q (railUp n q s) := by
  simp [pmbusDone, hq, hw, hr, railDone]

end

theorem railAcked_trim {q : RailReq} (h : q.why = .trim) (n : Nat) (s : State) : railAcked n q s = s.raise Reg.PWR_INT_STATUS 5 := by
  simp [railAcked, h]

/-- What goes on in a climb after a rail's answer: VDDQ after VDD2, and otherwise the next group, or the references, once the group is
acknowledged. -/
theorem railAcked_climb {s : State} {q : RailReq} {g : Nat} (h : q.why = .climb) (hg : s.pwr.climb = .rails g) (n : Nat) :
    railAcked n q s = if n = 6 then railRequest 7 (supplyMv s 7) .climb s else if ¬ groupAcked s g then s
      else if g < 4 then requestGroup (g + 1) s else s.modPwr (fun p => { p with climb := .refCount false }) := by
  simp [railAcked, h, hg]

/-- A request of the trim that succeeds. -/
theorem pmbusDone_trim {s : State} {n : Fin 8} {q : RailReq} (hq : (rail s n).req = some q) (hw : q.waiting = false)
    (hr : (rail s n).modeRead = true) (ht : q.why = .trim) (mode : Nat) :
    let t := pmbusDone n mode s
    (rail t n).req = none ∧ (rail t n).acked = true ∧ t.bit Reg.PWR_INT_STATUS 5 = true ∧ (n = 1 → t.pwr.vcore = q.mv) := by
  intro t
  have e : t = (railUp n q s).raise Reg.PWR_INT_STATUS 5 := (pmbusDone_succeeds hq hw hr mode).trans (railAcked_trim ht _ _)
  have up : rail t n = { rail s n with req := none, acked := true } := by
    rw [e, rail_raise, rail_railUp n q s n.isLt, if_pos rfl]
  refine ⟨congrArg Rail.req up, congrArg Rail.acked up, ?_, fun h1 => ?_⟩
  · rw [e]; exact State.bit_raise _ (present_pwrInt _) (by decide)
  · subst h1; rw [e, State.raise_pwr]; exact railUp_vcore q s

/-- The rails of the groups of Table 2-3 are rails. -/
theorem railGroup_lt {g m : Nat} (h : m ∈ railGroup g) : m < 8 := by
  unfold railGroup at h
  split_ifs at h <;> simp only [List.mem_cons, List.not_mem_nil, or_false] at h <;> omega

/-- A request of the climb that succeeds. -/
theorem pmbusDone_climb {s : State} {n : Fin 8} {q : RailReq} {g : Nat} (hq : (rail s n).req = some q) (hw : q.waiting = false)
    (hr : (rail s n).modeRead = true) (hc : q.why = .climb) (hg : s.pwr.climb = .rails g) (mode : Nat) :
    let t := pmbusDone n mode s
    (rail t n).acked = true ∧
      (n = 6 → (rail t 7).req = some { mv := supplyMv s 7, why := .climb }) ∧
      (n ≠ 6 → g = 4 → (∀ m ∈ railGroup 4, m ≠ n.val → (rail s m).acked = true) → t.pwr.climb = .refCount false) ∧
      (n ≠ 6 → g < 4 → (∀ m ∈ railGroup g, m ≠ n.val → (rail s m).acked = true) → t.pwr.climb = .rails (g + 1)) := by
  intro t
  let u := railUp n q s
  have e : t = _ := (pmbusDone_succeeds hq hw hr mode).trans (railAcked_climb (s := u) hc ((railUp_climb ..).trans hg) n)
  have acked : (rail u n).acked = true := by rw [rail_railUp n q s n.isLt, if_pos rfl]
  have group : ∀ g, (∀ m ∈ railGroup g, m ≠ n.val → (rail s m).acked = true) → ¬ ¬ groupAcked u g = true := by
    refine fun g h => not_not_intro (List.all_eq_true.mpr fun m hm => ?_)
    by_cases hn : m = n.val
    · rw [hn]; exact acked
    · rw [rail_railUp n q s (railGroup_lt hm), if_neg hn]; exact h m hm hn
  have not6 : n ≠ 6 → ¬ n.val = 6 := fun h h' => h (Fin.ext h')
  refine ⟨?_, fun h6 => ?_, fun h6 h4 h => ?_, fun h6 h4 h => ?_⟩
  · rw [e]
    split
    · rw [acked_railRequest _ _ _ _ n.isLt]; exact acked
    · split
      · exact acked
      · split
        · rw [acked_requestGroup _ _ n.isLt]; exact acked
        · exact acked
  · rw [e, if_pos (show n.val = 6 from congrArg Fin.val h6), rail_railRequest _ _ _ _ _ (by decide), if_pos rfl]
    exact congrArg (fun mv => some ({ mv := mv, why := .climb } : RailReq)) (supplyMv_congr (railUp_nvs n q s) 7)
  · subst h4
    rw [e, if_neg (not6 h6), if_neg (group 4 h), if_neg (by decide)]; rfl
  · rw [e, if_neg (not6 h6), if_neg (group g h), if_pos h4]
    exact requestGroup_climb _ _

/-! ### Attempts that fail, and retries (R49, R51, R52) -/

/-- A failed attempt as it is counted and logged. -/
def attemptNoted (n : Nat) (why : PmbWhy) (s : State) : State :=
  let s := s.raise Reg.PWR_INT_STATUS 6
  match why with
  | .nak => (s.addHi Reg.PWR_PMB_ERR_COUNT 1).viol 5 n 1 0
  | .pec => (s.addHi Reg.PWR_PMB_ERR_COUNT 1).viol 5 n 2 0
  | .timeout => (s.addLo Reg.PWR_PMB_ERR_COUNT 1).viol 5 n 3 0
  | .fault => s.viol 5 n 4 0

theorem attemptNoted_keeps {L : Part → Bool} {s₀ s : State} (hregs : L .regs = true) (hglb : L .glb = true) (n : Nat) (why : PmbWhy)
    (K : Kept L s₀ s) : Kept L s₀ (attemptNoted n why s) := by
  cases why
  case nak => exact viol_keeps hregs hglb (addHi_keeps hregs (raise_keeps hregs K))
  case pec => exact viol_keeps hregs hglb (addHi_keeps hregs (raise_keeps hregs K))
  case timeout => exact viol_keeps hregs hglb (addLo_keeps hregs (raise_keeps hregs K))
  case fault => exact viol_keeps hregs hglb (raise_keeps hregs K)

@[simp] theorem attemptNoted_pwr (n : Nat) (why : PmbWhy) (s : State) : (attemptNoted n why s).pwr = s.pwr :=
  (attemptNoted_keeps (L := fun p => decide (p ∈ [Part.regs, .glb])) rfl rfl n why (Kept.refl _ s)).pwr rfl

/-- Of the PWR block's registers a failed attempt changes its flag and its count alone. -/
theorem attemptNoted_reg {a : Nat} (h0 : 0x10000 ≤ a) (h : a ≠ Reg.PWR_PMB_ERR_COUNT) (n : Nat) (why : PmbWhy) (s : State) :
    (attemptNoted n why s).reg a = (s.raise Reg.PWR_INT_STATUS 6).reg a := by
  have glb : ∀ b < 0x10000, a ≠ b := fun b hb => by omega
  have log : ∀ cls < 5, ∀ t : State, (t.viol 5 n cls 0).reg a = t.reg a := fun cls hc t =>
    State.viol_reg t (glb _ (by decide)) (glb _ (by decide)) (glb _ (by unfold Reg.GLB_VIOL; omega))
  cases why
  case nak => exact (log 1 (by decide) _).trans (State.addHi_reg_ne _ h)
  case pec => exact (log 2 (by decide) _).trans (State.addHi_reg_ne _ h)
  case timeout => exact (log 3 (by decide) _).trans (State.addLo_reg_ne _ h)
  case fault => exact log 4 (by decide) _

section
variable {s : State} {n : Nat} {q : RailReq} (hq : (rail s n).req = some q)
include hq

theorem attemptFailed_waits (hw : q.waiting = true) (why : PmbWhy) : attemptFailed n why s = s := by
  simp [attemptFailed, hq, hw]

/-- A failed attempt waits for its retry, or is given up after the fourth. -/
theorem attemptFailed_eq (hw : q.waiting = false) (why : PmbWhy) :
    attemptFailed n why s =
      if q.attempts ≥ 4 then railGaveUp n { q with sawFault := q.sawFault || why == .fault } (attemptNoted n why s)
      else (attemptNoted n why s).modRail n (fun r =>
        { r with req := some { q with sawFault := q.sawFault || why == .fault, waiting := true } }) := by
  unfold attemptFailed
  rw [hq]; dsimp only
  rw [hw, if_neg Bool.false_ne_true]
  cases why <;> rfl

theorem railRetry_retries (hw : q.waiting = true) :
    railRetry n s = pmbNote n 0x21 (s.modRail n (fun r => { r with req := some { q with waiting := false, attempts := q.attempts + 1 } })) := by
  simp [railRetry, hq, hw]

theorem railRetry_not_waiting (hw : q.waiting = false) : railRetry n s = s := by
  simp [railRetry, hq, hw]

end

/-- An attempt before the fourth that fails. -/
theorem attemptFailed_again {s : State} {n : Fin 8} {q : RailReq} (hq : (rail s n).req = some q) (hw : q.waiting = false)
    (h4 : q.attempts < 4) (why : PmbWhy) :
    let t := attemptFailed n why s
    (rail t n).req = some { q with sawFault := q.sawFault || why == .fault, waiting := true } ∧ t.bit Reg.PWR_INT_STATUS 6 = true ∧
      t.pwr.stage = s.pwr.stage ∧ changedOnly [.pwr, .regs, .glb] s t := by
  intro t
  have e : t = _ := (attemptFailed_eq hq hw why).trans (if_neg (Nat.not_le.mpr h4))
  rw [e]
  refine ⟨?_, ?_, by simp, (modRail_keeps rfl (attemptNoted_keeps rfl rfl n why (Kept.refl _ s))).changedOnly⟩
  · rw [rail_modRail _ _ _ _ n.isLt, if_pos rfl]
  · rw [State.modRail_bit, State.bit, attemptNoted_reg (by decide) (by decide)]
    exact State.bit_raise s (present_pwrInt _) (by decide)

/-- The fourth failure of a request of the climb. -/
theorem attemptFailed_gives_up {s : State} {n : Fin 8} {q : RailReq} (hq : (rail s n).req = some q) (hw : q.waiting = false)
    (h4 : 4 ≤ q.attempts) (hc : q.why = .climb) (why : PmbWhy) :
    let t := attemptFailed n why s
    t.pwr.stage = 0 ∧ t.reg Reg.PWR_AON_WAKE_FAIL = pk [(31, 1), (12, min 15 (s.fld Reg.PWR_AON_WAKE_FAIL 15 12 + 1)), (8, n),
      (4, if q.sawFault || why == .fault then 2 else 1), (0, s.pwr.stage + 1)] := by
  intro t
  let cause := if q.sawFault || why == .fault then 2 else 1
  let u := ((attemptNoted n why s).modRail n (fun r => { r with req := none })).setFld Reg.PWR_PMB_STATUS 7 0 cause
  have gone : t = railGaveUp n { q with sawFault := q.sawFault || why == .fault } (attemptNoted n why s) :=
    (attemptFailed_eq hq hw why).trans (if_pos h4)
  have e : t = finalFailure (s.pwr.stage + 1) cause n u := by
    rw [gone]; unfold railGaveUp; rw [hc]; dsimp only
    rw [State.setFld_pwr, State.modRail_pwr, attemptNoted_pwr]
  have small : cause < 16 := by unfold cause; split <;> decide
  have fail : u.reg Reg.PWR_AON_WAKE_FAIL = s.reg Reg.PWR_AON_WAKE_FAIL := by
    rw [State.setFld_reg_ne _ (by decide), State.modRail_reg, attemptNoted_reg (by decide) (by decide), State.raise_reg_ne _ (by decide)]
  obtain ⟨stage, -, -, record⟩ := finalFailure_spec (s.pwr.stage + 1) cause n u small
  rw [e]
  exact ⟨stage, record.trans (by rw [State.fld, fail]; rfl)⟩

/-- A retry that is due. -/
theorem railRetry_spec {s : State} {n : Fin 8} {q : RailReq} (hq : (rail s n).req = some q) (hw : q.waiting = true) :
    (rail (railRetry n s) n).req = some { q with waiting := false, attempts := q.attempts + 1 } ∧ changedOnly [.pwr, .regs] s (railRetry n s) := by
  refine ⟨?_, (railRetry_keeps rfl rfl (Kept.refl _ s)).changedOnly⟩
  rw [railRetry_retries hq hw, rail_pmbNote, rail_modRail _ _ _ _ n.isLt, if_pos rfl]

/-! ### Faults, alerts and telemetry (R51, R53, R55) -/

theorem railBad_not_acked {s : State} {n : Nat} (hq : (rail s n).req = none) (ha : (rail s n).acked = false) : railBad n s = s := by
  simp [railBad, hq, ha]

/-- A fault of an acknowledged rail rolls the device back and names the rail. -/
theorem railBad_acked {s : State} {n : Nat} (hq : (rail s n).req = none) (ha : (rail s n).acked = true) :
    (railBad n s).pwr.stage = 0 ∧ (railBad n s).reg Reg.PWR_AON_WAKE_FAIL =
      pk [(31, 1), (12, min 15 (s.fld Reg.PWR_AON_WAKE_FAIL 15 12 + 1)), (8, n), (4, 2), (0, heldStage s)] := by
  have e : railBad n s = finalFailure (heldStage s) 2 n (s.viol 5 n 4 0) := by
    rw [← heldStage_congr (State.viol_pwr s 5 n 4 0)]
    simp [railBad, hq, ha, railFault]
  have fail : (s.viol 5 n 4 0).reg Reg.PWR_AON_WAKE_FAIL = s.reg Reg.PWR_AON_WAKE_FAIL :=
    State.viol_reg s (by decide) (by decide) (by decide)
  obtain ⟨stage, -, -, record⟩ := finalFailure_spec (heldStage s) 2 n (s.viol 5 n 4 0) (by decide)
  rw [e]
  exact ⟨stage, record.trans (by rw [State.fld, fail]; rfl)⟩

/-- An alert without a fault is counted and touches no rail. -/
theorem smbAlert_no_fault {words : List (BitVec 16)} (h : ∀ m < 8, statusFault (words.getD m 0) = false) (s : State) :
    let t := smbAlert words s
    t.pwr = s.pwr ∧ changedOnly [.regs, .glb] s t ∧
      (s.pwr.stage ≠ 0 → t.fld (Reg.GLB_VIOL 5 2) 31 16 = satAdd 0xFFFF (s.fld (Reg.GLB_VIOL 5 2) 31 16) 1) := by
  intro t
  have clean : (List.range 8).filter (fun n => statusFault (words.getD n 0)) = [] :=
    List.filter_eq_nil_iff.mpr fun n hn => by simpa using h n (List.mem_range.mp hn)
  have e : t = pmbNote 7 0x79 (s.viol 5 0 5 0) := by simp only [t, smbAlert, clean]; rfl
  rw [e]
  refine ⟨by simp, (pmbNote_keeps rfl (viol_keeps rfl rfl (Kept.refl _ s))).changedOnly, fun h0 => ?_⟩
  rw [pmbNote, State.fld_setFld_ne _ _ _ _ _ _ (by decide), State.fld_setFld_ne _ _ _ _ _ _ (by decide)]
  exact State.fld_viol_odd s 5 0 0 h0 (by decide) (by decide) (by decide)

/-- The telemetry of every rail is kept. -/
theorem rail_telemetry (r : List (BitVec 16 × BitVec 16)) (s : State) {m : Nat} (hm : m < 8) :
    rail (telemetry r s) m = { rail s m with vout := (r.getD m (0, 0)).1.toNat, iout := (r.getD m (0, 0)).2.toNat } := by
  unfold telemetry
  rw [rail_pmbNote, forAll_modRail (fun n x => { x with vout := (r.getD n (0, 0)).1.toNat, iout := (r.getD n (0, 0)).2.toNat })]
  exact vget_vall s.pwr.rails (fun n x => { x with vout := (r.getD n (0, 0)).1.toNat, iout := (r.getD n (0, 0)).2.toNat }) m hm

/-- Settles O7: each answer by the request that the rail has. -/
theorem railRequestsAndFaults : Obligations.RailRequestsAndFaults := by
  unfold Obligations.RailRequestsAndFaults
  refine fun s n => ⟨fun mode => ⟨_, rfl, fun hn => ?_, fun q hq hw => pmbusDone_waits hq hw _, fun q hq hw hr hm => ?_,
      fun q hq hw hr ht => pmbusDone_trim hq hw hr ht _, fun q g hq hw hr hc hg => pmbusDone_climb hq hw hr hc hg _⟩,
    fun why => ⟨_, rfl, fun hn => ?_, fun q hq hw => attemptFailed_waits hq hw why, fun q hq hw h4 => attemptFailed_again hq hw h4 why,
      fun q hq hw h4 hc => attemptFailed_gives_up hq hw h4 hc why⟩,
    ⟨_, rfl, fun q hq hw => railRetry_spec hq hw, fun q hq hw => railRetry_not_waiting hq hw, fun hn => ?_⟩,
    ⟨_, rfl, railBad_acked, railBad_not_acked⟩,
    fun words => ⟨_, rfl, fun hb => if_neg (by simp [hb]), fun hb h => ?_⟩,
    fun r => ⟨_, rfl, fun h => if_pos h, fun on h0 => ?_⟩⟩
  · simp [pmbusDone, hn]
  · rw [pmbusDone_not_linear hq hw hr hm]
    obtain ⟨stage, -, -, record⟩ := finalFailure_spec (heldStage s) 4 n s (by decide)
    exact ⟨stage, record⟩
  · simp [attemptFailed, hn]
  · simp [railRetry, hn]
  · rw [if_pos hb]
    exact smbAlert_no_fault h s
  · rw [if_neg (by simp [on, h0])]
    exact ⟨(telemetry_keeps rfl rfl (Kept.refl _ s)).changedOnly, fun m hm => rail_telemetry r s hm⟩

end Sys2Proof.Machine
end

section
/-!
SUPPORT. References, the firmware image and the climb to stages 1 and 2 (R35, R43, R44, R46, R447).
-/

namespace Sys2Proof.Machine

/-! ### The image (R44, R447) -/

/-- What the boot ROM does with the slot it has read, at stage 1 below the goal of the climb. -/
theorem firmware_spec {s : State} (h : ¬ (s.pwr.stage ≠ 1 ∨ s.pwr.fwOk ∨ climbGoal s ≤ 1)) :
    let t := firmware s
    match imageVersion s (min 1 (s.fld Reg.GLB_BOOT 3 0)) with
    | some v => t.pwr.fwOk = true ∧ t.reg Reg.GLB_FW_VERSION = BitVec.ofNat 32 v ∧
        t.reg Reg.GLB_BOOT = pk [(31, 1), (8, min 1 (s.fld Reg.GLB_BOOT 3 0)), (0, min 1 (s.fld Reg.GLB_BOOT 3 0))] ∧
        regsBut [Reg.GLB_FW_VERSION, Reg.GLB_BOOT] s t ∧ changedOnly [.pwr, .regs] s t
    | none => if s.fld Reg.GLB_BOOT 3 0 = 0 then t.fld Reg.GLB_BOOT 3 0 = 1 ∧ regsBut [Reg.GLB_BOOT] s t ∧ changedOnly [.regs] s t
        else t.pwr.stage = 0 ∧ t.reg Reg.PWR_AON_WAKE_FAIL =
          pk [(31, 1), (12, min 15 (s.fld Reg.PWR_AON_WAKE_FAIL 15 12 + 1)), (8, 0), (4, 6), (0, 2)] := by
  intro t
  have e : t = _ := if_neg h
  dsimp only at e
  rw [e]
  cases imageVersion s (min 1 (s.fld Reg.GLB_BOOT 3 0)) with
  | some v =>
    refine ⟨rfl, ?_, ?_, fun a ha => ?_, (modPwr_keeps rfl (setReg_keeps rfl (setReg_keeps rfl (Kept.refl _ s)))).changedOnly⟩
    · rw [State.modPwr_reg, State.reg_setReg_ne _ _ (by decide), State.reg_setReg, if_pos rfl]
    · rw [State.modPwr_reg, State.reg_setReg, if_pos rfl]
    · simp only [List.mem_cons, List.not_mem_nil, or_false, not_or] at ha
      rw [State.modPwr_reg, State.reg_setReg_ne _ _ ha.2, State.reg_setReg_ne _ _ ha.1]
  | none =>
    dsimp only
    by_cases h0 : s.fld Reg.GLB_BOOT 3 0 = 0
    · rw [if_pos h0, if_pos (by simp [h0])]
      exact ⟨State.fld_setFld s _ 1 (by decide) (by decide), fun a ha => State.setFld_reg_ne s (by simpa using ha),
        (setFld_keeps rfl (Kept.refl _ s)).changedOnly⟩
    · rw [if_neg h0, if_neg (by omega)]
      obtain ⟨stage, -, -, record⟩ := finalFailure_spec 2 6 0 s (by decide)
      exact ⟨stage, record⟩

/-! ### Stage 1 -/

/-- The core at stage 1 before its records are read. -/
def coreOn (s : State) : State :=
  (((coreOff s).modPins (fun x => { x with jtagUnlocked := false })).modSyn (fun _ => { active := s.syn.active })).modPwr (fun _ =>
    { stage := 1, shlHold := s.pwr.shlHold, vcore := s.pwr.vcore
      rails := vall s.pwr.rails (fun _ r => { r with req := none }), wakeAt := s.pwr.wakeAt })

theorem enterStage1_eq (s : State) : enterStage1 s = dbgDraw (pastDraw (recordsLoad (coreOn s))) := by
  simp only [enterStage1, coreOn]

/-- A new challenge of the debug unlock leaves the log and the flash. -/
theorem dbgDraw_log (s : State) : (dbgDraw s).glb.log = s.glb.log ∧ (dbgDraw s).glb.flash = s.glb.flash := ⟨rfl, rfl⟩

/-- What the device is at stage 1 once its records are read: the PWR block, the shared log, the pins and the time bases. -/
theorem enterStage1_spec (s : State) :
    let t := enterStage1 s
    t.pwr.stage = 1 ∧ t.pwr.shlHold = s.pwr.shlHold ∧ t.pwr.fwOk = false ∧ t.glb.log = [] ∧ t.glb.flash = s.glb.flash ∧
      t.pins.jtagUnlocked = false ∧ t.time = { aon := s.time.aon } := by
  intro t
  rw [show t = _ from enterStage1_eq s]
  generalize hu : pastDraw (recordsLoad (coreOn s)) = u
  have K : Kept (fun p => decide (p ∈ [Part.regs, .nvs, .wrp, .paths, .syn, .rad, .lne, .drc, .bda, .thm, .rnd])) (coreOn s) u :=
    hu ▸ pastDraw_keeps rfl rfl (recordsLoad_keeps rfl rfl rfl rfl rfl rfl rfl rfl rfl rfl (Kept.refl _ _))
  have D : Kept (fun p => decide (p ∈ [Part.glb, .rnd])) u (dbgDraw u) := dbgDraw_keeps rfl rfl (Kept.refl _ _)
  rw [(D.pwr rfl).trans (K.pwr rfl), (D.pins rfl).trans (K.pins rfl), (D.time rfl).trans (K.time rfl), (dbgDraw_log u).1, (dbgDraw_log u).2,
    K.glb rfl]
  exact ⟨rfl, rfl, rfl, rfl, rfl, rfl, rfl⟩

/-! ### Stage 2 -/

/-- TB0 that has no lock yet starts to acquire without an interrupt. -/
theorem timStart_reg (s : State) (a : Nat) : (timStart s).reg a = s.reg a := by
  unfold timStart
  split
  · rfl
  next member =>
    split
    next unset =>
      have unlocked : (dropStep s).locked = false := by
        simp only [State.locked, State.isMember, dropStep, State.modCas] at member ⊢
        simp [member, unset]
      have idle : (dropStep s).tim.state = .unset := unset
      unfold acquire goTime watchLock
      simp [unlocked, idle]
      rfl
    · rfl

theorem pl0Request_reg {a : Nat} (h : a ≠ Reg.PWR_PMB_STATUS) (s : State) : (pl0Request s).reg a = s.reg a := by
  unfold pl0Request
  split
  · exact railRequest_reg _ _ _ h
  · rfl

/-- The entry to stage 2 and its interrupt. -/
theorem enterStage2_spec (s : State) : (enterStage2 s).pwr.stage = 2 ∧ (enterStage2 s).bit Reg.PWR_INT_STATUS 8 = true := by
  refine ⟨?_, ?_⟩
  · simp [enterStage2]
  · rw [State.bit, enterStage2, pl0Request_reg (by decide), timStart_reg]
    exact State.bit_raise _ (present_pwrInt _) (by decide)

/-! ### The climb (R35) -/

section
variable {s : State} (ho : s.pwr.off = false) (hs : s.pwr.sleep = none)
include ho hs

theorem stageClimb_waits_reference (h0 : s.pwr.stage = 0) (hc : s.pwr.climb ≠ .refOk) : stageClimb s = s := by
  simp [stageClimb, ho, hs, h0, hc]

theorem stageClimb_to_1 (h0 : s.pwr.stage = 0) (hc : s.pwr.climb = .refOk) : stageClimb s = enterStage1 s := by
  simp [stageClimb, ho, hs, h0, hc]

theorem stageClimb_to_2 (h1 : s.pwr.stage = 1) (hg : 1 < climbGoal s) (hf : s.pwr.fwOk = true) (hl : fronthaulUp s = true) :
    stageClimb s = enterStage2 s := by
  simp [stageClimb, ho, hs, h1, hg, hf, hl]

theorem stageClimb_waits_image (h1 : s.pwr.stage = 1) (h : climbGoal s ≤ 1 ∨ s.pwr.fwOk = false ∨ fronthaulUp s = false) :
    stageClimb s = s := by
  have stays : ¬ (1 < climbGoal s ∧ s.pwr.fwOk = true ∧ fronthaulUp s = true) := by
    rintro ⟨hg, hf, hl⟩
    rcases h with h | h | h
    · omega
    · exact absurd (hf.symm.trans h) (by decide)
    · exact absurd (hl.symm.trans h) (by decide)
  simp [stageClimb, ho, hs, h1, stays]

end

/-- Settles O8: the references by the present step of the climb, the image and the link wait by their conditions, and the climb by the stage. -/
theorem referencesImageAndClimb : Obligations.ReferencesImageAndClimb := by
  unfold Obligations.ReferencesImageAndClimb
  refine fun s => ⟨fun edges => ⟨_, rfl, fun b hb => ?_, fun h => ?_⟩, ⟨_, rfl, fun h => ?_, fun h => ?_, fun h => ?_⟩, ⟨_, rfl, ?_⟩,
    ⟨_, rfl, ?_⟩, ⟨_, rfl, fun h => if_pos h, stageClimb_waits_reference, fun ho hs h0 hc => ?_, fun ho hs h1 hg hf hl => ?_,
      stageClimb_waits_image⟩⟩
  · have e : refWindow edges s = if edgesAgree s b edges then s.modPwr (fun p => { p with climb := .refLock b }) else s := by
      simp [refWindow, hb]
    rw [e]
    split
    · exact ⟨rfl, (modPwr_keeps rfl (Kept.refl _ s)).changedOnly⟩
    · rfl
  · unfold refWindow
    split
    next b hb => exact absurd hb (h b)
    · rfl
  · have e : refTimeout s = s.modPwr (fun p => { p with climb := .refCount true }) := by
      rcases h with h | h <;> simp [refTimeout, h]
    rw [e]
    exact ⟨rfl, (modPwr_keeps rfl (Kept.refl _ s)).changedOnly⟩
  · have e : refTimeout s = finalFailure 1 5 0 s := by
      rcases h with h | h <;> simp [refTimeout, h]
    obtain ⟨stage, climb, -, record⟩ := finalFailure_spec 1 5 0 s (by decide)
    rw [e]
    exact ⟨stage, climb, record⟩
  · simp [refTimeout, h]
  · split
    next h => exact if_pos h
    next h => exact firmware_spec h
  · split
    next h =>
      obtain ⟨stage, -, -, record⟩ := finalFailure_spec 2 7 0 s (by decide)
      rw [linkWait, if_pos h]
      exact ⟨stage, record⟩
    next h => exact if_neg h
  · rw [stageClimb_to_1 ho hs h0 hc]
    exact enterStage1_spec s
  · rw [stageClimb_to_2 ho hs h1 hg hf hl]
    exact enterStage2_spec s

end Sys2Proof.Machine
end

section
/-!
SUPPORT. Stage 4 and its exit, RELEASE, CLIMB, and the always-on registers that host software writes (R38, R46, R47, R52, R70).
-/

namespace Sys2Proof.Machine

/-! ### Stage 4 (R47) -/

/-- Changes of paths one by one are one change of the row of paths. -/
theorem forAll_modPath (f : Nat → PathSt → PathSt) (l : List Nat) (s : State) :
    (forAll l (fun p s => s.modPath p (f p)) s).paths = l.foldl (fun v p => vmod v p (f p)) s.paths :=
  (List.foldl_hom State.paths (fun _ _ => rfl)).symm

theorem stage4Entry_enters {s : State} (h : s.pwr.stage = 3 ∧ s.pstate = .idle ∧ ¬ s.pwr.leavingDoze ∧ s.pwr.sleep = none ∧ s.locked ∧
      s.bit Reg.PWR_STAGE_CTRL 0 ∧ fullLoad s = false ∧ s.pins.jtagUnlocked = false) :
    let t := stage4Entry s
    t.pwr.stage = 4 ∧ t.bit Reg.PWR_INT_STATUS 8 = true ∧ regsBut [Reg.PWR_INT_STATUS] s t ∧
      (∀ p < 64, (vget t.paths p).stageMute = false) ∧ changedOnly [.pwr, .pstate, .regs, .paths] s t := by
  intro t
  let a := s.modPwr (fun p => { p with stage := 4, leaving4 := false })
  let u := a.raise Reg.PWR_INT_STATUS 8
  let v := forAll (List.range 64) (fun p s => s.modPath p (fun x => { x with stageMute := false })) u
  have e : t = syncPState v := if_pos (by simpa using h)
  have K : Kept (fun p => decide (p ∈ [Part.paths, .pstate])) u t :=
    e ▸ syncPState_keeps rfl (forAll_keeps (fun _ _ K => modPath_keeps rfl K) (Kept.refl _ u))
  have unmuted : t.paths = vall u.paths (fun _ x => { x with stageMute := false }) := by
    rw [e, (syncPState_keeps (L := fun p => decide (p ∈ [Part.pstate])) rfl (Kept.refl _ v)).paths rfl]
    exact forAll_modPath (fun _ x => { x with stageMute := false }) _ u
  refine ⟨?_, ?_, fun r hr => ?_, fun p hp => ?_, ?_⟩
  · rw [K.pwr rfl, State.raise_pwr]; rfl
  · rw [State.bit, K.reg rfl]; exact State.bit_raise _ (present_pwrInt _) (by decide)
  · rw [K.reg rfl, State.raise_reg_ne _ (by simpa using hr)]; exact State.modPwr_reg ..
  · rw [unmuted, vget_vall _ _ _ hp]
  · exact changedOnly_trans (by decide) (by decide)
      (raise_keeps rfl (modPwr_keeps rfl (Kept.refl _ s)) : Kept (fun p => decide (p ∈ [Part.pwr, .regs])) s u).changedOnly K.changedOnly

theorem stage4Entry_stays {s : State} (h : ¬ (s.pwr.stage = 3 ∧ s.pstate = .idle ∧ ¬ s.pwr.leavingDoze ∧ s.pwr.sleep = none ∧ s.locked ∧
      s.bit Reg.PWR_STAGE_CTRL 0 ∧ fullLoad s = false ∧ s.pins.jtagUnlocked = false)) : stage4Entry s = s :=
  if_neg (by simpa using h)

/-- Stage 4 is left once every TX chain is muted. -/
theorem stage4Exit_leaves {s : State} (hl : s.pwr.leaving4 = true) (hm : ∀ p < 64, (s.pathCfg p).txEn → (pathOf s p).stageMute) :
    (stage4Exit s).pwr.stage = 3 ∧ (stage4Exit s).pwr.leaving4 = false := by
  have muted : (List.range 64).all (fun p => !(s.pathCfg p).txEn || (pathOf s p).stageMute) = true :=
    List.all_eq_true.mpr fun p hp => by
      cases en : (s.pathCfg p).txEn
      · rfl
      · exact hm p (List.mem_range.mp hp) en
  have groups : ∀ t : State, (forAll (List.range 8) (fun g s => s.modGroup g (fun x => { x with toOff := x.state != .off })) t).pwr = t.pwr :=
    fun t => forAll_pwr (fun _ _ => State.modGroup_pwr ..) _ t
  have e : (stage4Exit s).pwr = { s.pwr with stage := 3, leaving4 := false } := by
    rw [stage4Exit, if_pos ⟨hl, muted⟩]
    simp [groups]
  rw [e]
  exact ⟨rfl, rfl⟩

theorem stage4Exit_waits {s : State}
    (h : s.pwr.leaving4 = false ∨ ∃ p < 64, (s.pathCfg p).txEn = true ∧ (pathOf s p).stageMute = false) : stage4Exit s = s := by
  refine if_neg fun ⟨leaving, muted⟩ => ?_
  rcases h with h | ⟨p, hp, en, loud⟩
  · exact absurd (leaving.symm.trans h) (by decide)
  · have := List.all_eq_true.mp muted p (List.mem_range.mpr hp)
    simp [en, loud] at this

/-! ### RELEASE and CLIMB (R46, R47) -/

theorem release_stays {s : State} {on : Bool} (h : on = true ∨ s.pwr.stage ≠ 4) : release on s = s.setFld Reg.PWR_STAGE_CTRL 0 0 (b2n on) :=
  if_pos (h.imp_right fun h4 => .inl (by simpa using h4))

/-- RELEASE = 0 at stage 4 begins the exit. -/
theorem release_leaves {s : State} (h4 : s.pwr.stage = 4) : (release false s).pwr.leaving4 = true ∧ (release false s).pwr.stage = 4 := by
  unfold release; dsimp only
  split
  next h =>
    have leaving : s.pwr.leaving4 = true := by simpa [h4] using h
    simp [leaving, h4]
  · simp [h4]

theorem pl0Request_resumed (s : State) : (pl0Request s).pwr.resumed = s.pwr.resumed := by
  unfold pl0Request railRequest
  split <;> simp

theorem climbOn_resumes {s : State} (h : s.pwr.stage ≥ 1 ∧ s.pwr.stage < 3 ∧ s.pwr.sleep = none) :
    let t := climbOn s
    t.pwr.resumed = s.pwr.stage ∧ t.pwr.stage = s.pwr.stage ∧ changedOnly [.pwr, .regs] s t := by
  obtain ⟨resumed, stage⟩ : (climbOn s).pwr.resumed = s.pwr.stage ∧ (climbOn s).pwr.stage = s.pwr.stage := by
    rw [climbOn, if_pos (by simpa using h)]; dsimp only
    split
    · exact ⟨pl0Request_resumed _, pl0Request_stage _⟩
    · exact ⟨rfl, rfl⟩
  exact ⟨resumed, stage, (climbOn_keeps rfl rfl (Kept.refl _ s)).changedOnly⟩

/-! ### Always-on registers (R38, R39, R52, R70) -/

/-- No Order lacks an always-on register. -/
theorem present_aon {a : Nat} (h : isAlwaysOn a = true) (o : Order) : absentReg o a = false := by
  simp only [isAlwaysOn, Bool.and_eq_true, decide_eq_true_eq] at h
  have block : a / 0x10000 = 1 := by omega
  cases o <;> simp [absentReg, block]

/-- The port serves an always-on register unless the device is off. -/
theorem served_aon {a : Nat} (h : isAlwaysOn a = true) (s : State) : s.served a = !s.pwr.off := by
  simp [State.served, h, present_aon h]

theorem wakeFailClear_spec (s : State) :
    let t := wakeFailClear s
    t.reg Reg.PWR_AON_WAKE_FAIL = 0 ∧ regsBut [Reg.PWR_AON_WAKE_FAIL] s t ∧ changedOnly [.regs] s t :=
  ⟨by simp [wakeFailClear], fun _ ha => State.reg_setReg_ne s _ (by simpa using ha), (setReg_keeps rfl (Kept.refl _ s)).changedOnly⟩

/-- A write that would move SITE while EN = 1 is counted and logged as refused, from stage 1 on. -/
theorem shlCfgWrite_refused {w : Word} {s : State} (hb : s.bit Reg.PWR_AON_SHL_CFG 31 = true)
    (hw : fld w 23 0 ≠ s.fld Reg.PWR_AON_SHL_CFG 23 0) :
    let t := shlCfgWrite w s
    t.reg Reg.PWR_AON_SHL_CFG = s.reg Reg.PWR_AON_SHL_CFG ∧ changedOnly [.regs, .glb] s t ∧ (s.pwr.stage = 0 → t.glb.log = s.glb.log) ∧
      (s.pwr.stage ≠ 0 → t.fld (Reg.GLB_VIOL 7 2) 31 16 = satAdd 0xFFFF (s.fld (Reg.GLB_VIOL 7 2) 31 16) 1) := by
  intro t
  have e : t = s.refusedWrite Reg.PWR_AON_SHL_CFG := if_pos ⟨hb, hw⟩
  rw [e]
  exact ⟨State.refusedWrite_reg s (by decide) (by decide) (by decide), (refusedWrite_keeps rfl rfl (Kept.refl _ s)).changedOnly,
    fun h0 => congrArg (fun t : State => t.glb.log) (State.viol_stage0 h0 ..),
    fun h0 => State.fld_viol_odd s 7 0 _ h0 (by decide) (by decide) (by decide)⟩

theorem shlCfgWrite_taken {w : Word} {s : State}
    (h : s.bit Reg.PWR_AON_SHL_CFG 31 = false ∨ fld w 23 0 = s.fld Reg.PWR_AON_SHL_CFG 23 0) :
    let t := shlCfgWrite w s
    t.reg Reg.PWR_AON_SHL_CFG = w &&& 0x80FFFFFF ∧ regsBut [Reg.PWR_AON_SHL_CFG] s t ∧ changedOnly [.regs] s t := by
  intro t
  have e : t = s.setReg Reg.PWR_AON_SHL_CFG (w &&& 0x80FFFFFF) :=
    if_neg fun ⟨enabled, moves⟩ => h.elim (fun off => absurd (enabled.symm.trans off) (by decide)) moves
  rw [e]
  exact ⟨by simp, fun _ ha => State.reg_setReg_ne s _ (by simpa using ha), (setReg_keeps rfl (Kept.refl _ s)).changedOnly⟩

/-- Settles O9: stage 4 by its conditions, and each register by whether the port serves it. -/
theorem stageFourAndHeldClimb : Obligations.StageFourAndHeldClimb := by
  unfold Obligations.StageFourAndHeldClimb
  refine fun s => ⟨⟨_, rfl, ?_⟩, ⟨_, rfl, stage4Exit_leaves, stage4Exit_waits⟩,
    fun on => ⟨_, rfl, fun hn => State.hosted_not_served hn _, fun hs h => ?_, fun hs hon h4 => ?_⟩, ⟨_, rfl, ?_⟩, ⟨_, rfl, ?_⟩,
    fun w => ⟨_, rfl, fun off => ?_, fun on hb hw => ?_, fun on h => ?_⟩⟩
  · split
    next h => exact stage4Entry_enters h
    next h => exact stage4Entry_stays h
  · rw [State.hosted_served hs, release_stays h]
    exact ⟨State.bit_setFld s _ on (by decide), fun _ ha => State.setFld_reg_ne s (by simpa using ha),
      (setFld_keeps rfl (Kept.refl _ s)).changedOnly⟩
  · subst hon
    rw [State.hosted_served hs]
    exact release_leaves h4
  · by_cases hs : s.served Reg.PWR_STAGE_CTRL = true
    · rw [State.hosted_served hs]
      split
      next h => exact climbOn_resumes h.2
      next h => exact if_neg fun h' => h ⟨hs, by simpa using h'⟩
    · split
      next h => exact absurd h.1 hs
      · exact State.hosted_not_served (by simpa using hs) _
  · have served := served_aon (a := Reg.PWR_AON_WAKE_FAIL) (by decide) s
    split
    next off => exact State.hosted_not_served (by rw [served, off]; rfl) _
    next on =>
      rw [State.hosted_served (by simpa [served] using on)]
      exact wakeFailClear_spec s
  · exact State.hosted_not_served (by rw [served_aon (by decide), off]; rfl) _
  · rw [State.hosted_served (by rw [served_aon (by decide), on]; rfl)]
    exact shlCfgWrite_refused hb hw
  · rw [State.hosted_served (by rw [served_aon (by decide), on]; rfl)]
    exact shlCfgWrite_taken h

end Sys2Proof.Machine
end

section
/-!
SUPPORT. Requests of Doze, Sentinel and Safe: the result they post, the steps of the sleep sequence, and the way out of Doze (R48, R60 to R64, R482).
-/

namespace Sys2Proof.Machine

/-! ### Results (R62) -/

/-- A refused request shows its block and code in the result and in the record of the last refusal. -/
theorem stateResult_refused (req : SleepReq) (block code : Nat) (s : State) : refusedRequest s (stateResult 2 req block code s) req block code := by
  have e : stateResult 2 req block code s =
      (((s.setReg Reg.PWR_STATE_RESULT (pk [(24, block), (16, code), (8, reqCode req), (0, 2)])).setReg Reg.PWR_LAST_REFUSAL
        (pk [(24, block), (16, code), (8, reqCode req), (0, 2)])).setReg Reg.PWR_LAST_REFUSAL_TIME
        (BitVec.ofNat 32 (s.time.tb1 / usTu))).raise Reg.PWR_INT_STATUS 1 := by simp [stateResult]
  refine ⟨?_, ?_, ?_, fun a ha => ?_, (stateResult_keeps rfl (Kept.refl _ s)).changedOnly⟩
  · rw [e, State.raise_reg_ne _ (by decide), State.reg_setReg_ne _ _ (by decide), State.reg_setReg_ne _ _ (by decide), State.reg_setReg, if_pos rfl]
  · rw [e, State.raise_reg_ne _ (by decide), State.reg_setReg_ne _ _ (by decide), State.reg_setReg, if_pos rfl]
  · rw [e]; exact State.bit_raise _ (present_pwrInt _) (by decide)
  · simp only [List.mem_cons, List.not_mem_nil, or_false, not_or] at ha
    obtain ⟨result, refusal, time, int⟩ := ha
    rw [e, State.raise_reg_ne _ int, State.reg_setReg_ne _ _ time, State.reg_setReg_ne _ _ refusal, State.reg_setReg_ne _ _ result]

/-! ### Steps 1 to 9 (R61) -/

/-- The parts that the steps before step `k` change in a stand-alone device, beside the result that the request posts. -/
def sleepParts (k : Nat) (p : Part) : Bool :=
  decide (p ∈ [Part.regs, .glb, .pwr, .mon]) || decide (4 < k ∧ p = .dpd) || decide (6 < k ∧ p = .fhp) ||
    decide (7 < k ∧ p ∈ [Part.paths, .syn]) || decide (8 < k ∧ p = .drc) || decide (9 < k ∧ p ∈ [Part.lne, .cas])

theorem sleepParts_succ {k : Nat} {p : Part} (h : sleepParts k p = true) : sleepParts (k + 1) p = true := by
  simp only [sleepParts, Bool.or_eq_true, decide_eq_true_eq] at h ⊢
  have later {j : Nat} {P : Prop} : j < k ∧ P → j < k + 1 ∧ P := And.imp_left Nat.lt_succ_of_lt
  exact h.imp (Or.imp (Or.imp (Or.imp (Or.imp_right later) later) later) later) later

theorem streamsQuiet_congr {s t : State} (h : t.acq = s.acq) : streamsQuiet t = streamsQuiet s := by
  unfold streamsQuiet streamActive; rw [h]

theorem dmaActive_congr {s t : State} (h : t.dma = s.dma) : dmaActive t = dmaActive s := by
  unfold dmaActive; rw [h]

theorem laneRetraining_congr {s t : State} (h : t.lne = s.lne) : laneRetraining t = laneRetraining s := by
  unfold laneRetraining; rw [h]

theorem fftIdle_congr {s t : State} (h : t.fft = s.fft) : fftIdle t = fftIdle s := by
  unfold fftIdle; rw [h]

theorem drcMaySleep_congr {s t : State} (h : t.drc = s.drc) : drcMaySleep t = drcMaySleep s := by
  unfold drcMaySleep; rw [h]

theorem storeWriting_congr {s t : State} (h : t.nvs = s.nvs) : storeWriting t = storeWriting s := by
  unfold storeWriting; rw [h]

/-- A device that neither refuses nor waits at a step does not do so when the steps before it have acted. -/
theorem stepRefusal_kept {s t : State} {k : Nat} (hk : k < 11) (K : Kept (sleepParts k) s t) : stepRefusal t k false = stepRefusal s k false := by
  interval_cases k <;> simp only [stepRefusal]
  · rw [streamsQuiet_congr (K.acq rfl)]
  · rw [dmaActive_congr (K.dma rfl)]
  · rw [K.fft rfl]
  · rw [K.dpd rfl]
  · rw [K.rad rfl]
  · rw [K.fhp rfl]
  · rfl
  · rw [laneRetraining_congr (K.lne rfl)]
  · rw [K.wrp rfl]

theorem stepWaits_kept {s t : State} {k : Nat} (hk : k < 11) (K : Kept (sleepParts k) s t) (hc : t.pwr.change = s.pwr.change) :
    stepWaits t k = stepWaits s k := by
  interval_cases k <;> simp only [stepWaits]
  · rw [fftIdle_congr (K.fft rfl)]
  · rw [K.dpd rfl]
  · rw [drcMaySleep_congr (K.drc rfl)]
  · rw [hc]

/-- A device without neighbours parks its lanes and tells no one. -/
theorem lanesPark_alone {L : Part → Bool} {s t : State} {req : SleepReq} (hs : req ≠ .sentinel) (hr : t.cas.role = 0) (hregs : L .regs = true)
    (hlne : L .lne = true) (hcas : L .cas = true) (K : Kept L s t) : Kept L s (lanesPark req t) := by
  cases req with
  | doze =>
    have e : lanesPark .doze t = lanesToL2 (t.modCas (fun c => { c with dozing := true })) := by simp [lanesPark, hr]
    exact e ▸ lanesToL2_keeps hregs hlne (modCas_keeps hcas K)
  | safe => exact lanesToL2_keeps hregs hlne K
  | sentinel => exact absurd rfl hs

/-- The actions of steps 1 to 9 in a stand-alone device. -/
theorem stepAction_kept {s t : State} {req : SleepReq} {k : Nat} (hk : k < 10) (hs : req ≠ .sentinel) (hr : s.cas.role = 0)
    (K : Kept (sleepParts k) s t) : Kept (sleepParts (k + 1)) s (stepAction req k t) := by
  have M : Kept (sleepParts (k + 1)) s t := K.mono fun _ => sleepParts_succ
  interval_cases k
  · exact M
  · exact monStop_keeps rfl M
  · exact M
  · exact M
  · exact adaptEnd_keeps rfl rfl rfl M
  · exact M
  · exact flushTick_keeps rfl (noticeAll_keeps rfl rfl M)
  · exact loopsOff_keeps rfl rfl M
  · exact drcSleep_keeps rfl M
  · exact lanesPark_alone hs ((congrArg Cas.role (K.cas rfl)).trans hr) rfl rfl rfl M

/-- Before step 10 no step touches the supplies. -/
theorem stepAction_pwr {k : Nat} (hk : k < 10) (req : SleepReq) (s : State) : (stepAction req k s).pwr = s.pwr := by
  interval_cases k <;> simp [stepAction]

/-- The sequence of a request is at step `k`, begun in `s` at step 1, and no step has refused or waited. -/
structure AtStep (req : SleepReq) (s : State) (k : Nat) (t : State) : Prop where
  pwr : t.pwr = { s.pwr with sleep := some { req := req, first := 1, step := k, mv := s.pwr.vcore }, climb := .none }
  kept : Kept (sleepParts k) s t

/-- The same sequence one step on. -/
def nextStep (req : SleepReq) (k : Nat) (t : State) : State :=
  (stepAction req k t).modPwr (fun p => { p with sleep := some { req := req, first := 1, step := k + 1, mv := p.vcore } })

section
variable {s t : State} {req : SleepReq} (hs : req ≠ .sentinel) (hq : quiet s)
include hs hq

theorem AtStep.next {k : Nat} (hk : k < 10) (A : AtStep req s k t) : AtStep req s (k + 1) (nextStep req k t) where
  pwr := by simp only [nextStep, State.modPwr, stepAction_pwr hk, A.pwr]
  kept := modPwr_keeps (by simp [sleepParts]) (stepAction_kept hk hs hq.1 A.kept)

/-- A step before step 10 acts, and the sequence is at the next one. -/
theorem sleepRun_goes_on {k : Nat} (hk : k < 10) (A : AtStep req s k t) (n : Nat) :
    sleepRun false (n + 1) t = sleepRun false n (nextStep req k t) := by
  obtain ⟨refuses, waits⟩ := hq.2 k (by omega)
  have sleep : t.pwr.sleep = some { req := req, first := 1, step := k, mv := s.pwr.vcore } := by rw [A.pwr]
  have vcore : (stepAction req k t).pwr.vcore = s.pwr.vcore := by rw [stepAction_pwr hk, A.pwr]
  have last : k ≠ lastStep req := by cases req <;> simp only [lastStep] <;> omega
  rw [← stepRefusal_kept (by omega) A.kept] at refuses
  rw [← stepWaits_kept (by omega) A.kept (by rw [A.pwr])] at waits
  rw [sleepRun, sleep]; dsimp only
  rw [refuses]; dsimp only
  rw [waits, if_neg (by decide), if_neg (by omega), if_neg last, nextStep]
  simp only [State.modPwr, vcore]

/-- The steps from step `k` on lead to step 10. -/
theorem sleepRun_reaches_10 (n : Nat) {k d : Nat} (hk : k + d = 10) (A : AtStep req s k t) :
    ∃ u, AtStep req s 10 u ∧ sleepRun false (n + d) t = sleepRun false n u := by
  induction d generalizing k t with
  | zero => exact ⟨t, hk ▸ A, rfl⟩
  | succ d ih =>
    obtain ⟨u, B, e⟩ := ih (by omega) (A.next hs hq (by omega))
    exact ⟨u, B, (sleepRun_goes_on hs hq (by omega) A (n + d)).trans e⟩

omit hs in
/-- At step 10 the sequence asks VCORE down and waits for it. -/
theorem sleepRun_at_10 (A : AtStep req s 10 t) (n : Nat) : sleepRun false (n + 1) t = railRequest 1 620 .sleepVcore t := by
  obtain ⟨refuses, waits⟩ := hq.2 10 (by decide)
  have sleep : t.pwr.sleep = some { req := req, first := 1, step := 10, mv := s.pwr.vcore } := by rw [A.pwr]
  rw [← stepRefusal_kept (by decide) A.kept] at refuses
  rw [← stepWaits_kept (by decide) A.kept (by rw [A.pwr])] at waits
  rw [sleepRun, sleep]; dsimp only
  rw [refuses]; dsimp only
  rw [waits, if_neg (by decide)]
  rfl

/-- A request of a quiet stand-alone device waits at step 10 for VCORE at 620 mV. -/
theorem sleepBegin_waits :
    let t := sleepBegin req 1 s
    t.pwr.sleep = some { req := req, first := 1, step := 10, mv := s.pwr.vcore } ∧ t.pwr.stage = s.pwr.stage ∧
      (rail t 1).req = some { mv := 620, why := .sleepVcore } := by
  intro t
  have begun : AtStep req s 1 ((stateResult 3 req 0 0 s).modPwr (fun p => { p with
      sleep := some { req := req, first := 1, step := 1, mv := p.vcore }, climb := .none })) :=
    ⟨by simp only [State.modPwr, stateResult_pwr], modPwr_keeps rfl (stateResult_keeps rfl (Kept.refl _ s))⟩
  obtain ⟨u, A, e⟩ := sleepRun_reaches_10 hs hq 5 (d := 9) (by decide) begun
  rw [show t = railRequest 1 620 .sleepVcore u from e.trans (sleepRun_at_10 hq A 4)]
  refine ⟨?_, ?_, ?_⟩
  · rw [railRequest_pwr, A.pwr]
  · rw [railRequest_stage, A.pwr]
  · rw [rail_railRequest _ _ _ _ _ (by decide), if_pos rfl]

end

/-- A device without neighbours has none awake. -/
theorem stackAwake_alone {s : State} (h : s.cas.role = 0) : stackAwake s = false := by
  simp [stackAwake, State.stacked, h]

/-! ### The end of the Sentinel sequence (R61, R63) -/

/-- The Sentinel sequence at step 11, with the store at rest, ends at stage 0 with the store as it is. -/
theorem sleepRun_sentinel {s : State} {x : Sleep} (hx : s.pwr.sleep = some x) (hr : x.req = .sentinel) (h11 : x.step = 11)
    (hw : storeWriting s = false) (late : Bool) (n : Nat) : ∃ u, u.nvs = s.nvs ∧ sleepRun late (n + 3) s = coreOff u := by
  let a := s.modPwr (fun p => { p with sleep := some { x with step := 12 } })
  let b := (globalSafe 1 a).modPwr (fun p => { p with sleep := some { x with step := 13 } })
  have first : sleepRun late (n + 3) s = sleepRun false (n + 2) a := by
    rw [sleepRun, hx]
    simp [h11, hr, stepRefusal, stepWaits, hw, stepAction, lastStep, a]
  have second : sleepRun false (n + 2) a = sleepRun false (n + 1) b := by
    rw [sleepRun, show a.pwr.sleep = some { x with step := 12 } from rfl]
    simp [hr, stepRefusal, stepWaits, stepAction, lastStep, b]
  have third : sleepRun false (n + 1) b = coreOff (b.modPwr (fun p => { p with sleep := none })) := by
    rw [sleepRun, show b.pwr.sleep = some { x with step := 13 } from rfl]
    simp [hr, stepRefusal, stepWaits, stepAction, lastStep, sleepDone]
  have K : Kept (fun p => decide (p ∈ [Part.pwr, .regs, .bda])) s (b.modPwr (fun p => { p with sleep := none })) :=
    modPwr_keeps rfl (modPwr_keeps rfl (globalSafe_keeps rfl rfl (modPwr_keeps rfl (Kept.refl _ s))))
  exact ⟨_, K.nvs rfl, first.trans (second.trans third)⟩

/-- Stage 0 as it is reached with a store at rest. -/
theorem coreOff_rest {s t : State} (h : ∃ u, u.nvs = s.nvs ∧ t = coreOff u) :
    t.pwr.stage = 0 ∧ t.pwr.off = false ∧ t.regs = [] ∧ t.nvs.store = s.nvs.store := by
  obtain ⟨u, nvs, rfl⟩ := h
  exact ⟨rfl, rfl, rfl, (congrArg Nvs.store nvs :)⟩

/-- A request of Sentinel whose sequence begins at step 11. -/
theorem sleepBegin_sentinel {s : State} (hw : storeWriting s = false) : ∃ u, u.nvs = s.nvs ∧ sleepBegin .sentinel 11 s = coreOff u := by
  let a := (stateResult 3 .sentinel 0 0 s).modPwr (fun p => { p with
    sleep := some { req := .sentinel, first := 11, step := 11, mv := p.vcore }, climb := .none })
  have K : Kept (fun p => decide (p ∈ [Part.pwr, .regs])) s a := modPwr_keeps rfl (stateResult_keeps rfl (Kept.refl _ s))
  obtain ⟨u, nvs, e⟩ := sleepRun_sentinel (s := a) rfl rfl rfl ((storeWriting_congr (K.nvs rfl)).trans hw) false 11
  exact ⟨u, nvs.trans (K.nvs rfl), e⟩

/-! ### Requests -/

section
variable {s : State}

theorem stateRequest_busy (h : s.pwr.sleep.isSome ∨ s.pwr.leavingDoze) (req : SleepReq) : stateRequest req s = stateResult 2 req 1 0x1A s :=
  if_pos h

variable (hn : s.pwr.sleep = none) (hl : s.pwr.leavingDoze = false)
include hn hl

theorem stateRequest_doze : stateRequest .doze s =
    if s.pwr.stage < 3 then stateResult 2 .doze 1 0x1E s else if s.pstate = .doze then stateResult 1 .doze 0 0 s
    else if stackAwake s then stateResult 2 .doze 0x0F 0x1C s else sleepBegin .doze 1 s := by
  simp [stateRequest, hn, hl]

theorem stateRequest_safe : stateRequest .safe s =
    if s.pwr.stage < 3 ∨ s.pstate = .doze then stateResult 2 .safe 1 0x1E s
    else if s.pstate = .service then stateResult 2 .safe 8 0x15 s else sleepBegin .safe 1 s := by
  simp [stateRequest, hn, hl]

theorem stateRequest_sentinel : stateRequest .sentinel s = sleepBegin .sentinel (if s.pwr.stage < 3 ∨ s.pstate = .doze then 11 else 1) s := by
  simp [stateRequest, hn, hl]

/-- A Doze request of a quiet device. -/
theorem stateRequest_dozing (h3 : s.pwr.stage ≥ 3) (hd : s.pstate ≠ .doze) (hq : quiet s) : dozing s (stateRequest .doze s) := by
  rw [stateRequest_doze hn hl, if_neg (by omega), if_neg hd, stackAwake_alone hq.1, if_neg (by decide)]
  exact sleepBegin_waits (by decide) hq

/-- A GOTO_SAFE of a quiet device outside Service. -/
theorem stateRequest_safe_begins (h3 : s.pwr.stage ≥ 3) (hd : s.pstate ≠ .doze) (hv : s.pstate ≠ .service) :
    stateRequest .safe s = sleepBegin .safe 1 s := by
  rw [stateRequest_safe hn hl, if_neg (by rintro (h | h); exacts [by omega, hd h]), if_neg hv]

end

theorem autoDoze_nothing {s : State} (h : s.bit Reg.PWR_AUTO_DOZE 31 = false ∨ s.pwr.stage < 3 ∨ s.pstate ≠ .idle ∨ s.pwr.sleep.isSome ∨
    noAllocation s = false) : autoDoze s = s := by
  refine if_neg fun ⟨enabled, stage, idle, awake, free⟩ => ?_
  rcases h with h | h | h | h | h
  · exact absurd (enabled.symm.trans h) (by decide)
  · omega
  · exact h idle
  · rw [Option.isNone_iff_eq_none] at awake; rw [awake] at h; exact absurd h (by decide)
  · exact absurd (free.symm.trans h) (by decide)

theorem autoDoze_asks {s : State} (hb : s.bit Reg.PWR_AUTO_DOZE 31 = true) (h3 : s.pwr.stage ≥ 3) (hi : s.pstate = .idle)
    (hn : s.pwr.sleep = none) (ha : noAllocation s = true) : autoDoze s = stateRequest .doze s :=
  if_pos ⟨hb, h3, hi, by simp [hn], ha⟩

/-! ### Steps that end -/

theorem sleepStepDone_no_sequence {s : State} (h : s.pwr.sleep = none) (late : Bool) : sleepStepDone late s = s := by
  simp [sleepStepDone, h]

theorem sleepStepDone_waits {s : State} {x : Sleep} (hx : s.pwr.sleep = some x) (h : x.refusing.isSome ∨ (sleepLow s ∧ x.step = 10))
    (late : Bool) : sleepStepDone late s = s := by
  rw [sleepStepDone, hx]; dsimp only
  rw [if_pos h]

/-- At step 11 nothing but the steps themselves is left to do. -/
theorem sleepStepDone_11 {s : State} {x : Sleep} (hx : s.pwr.sleep = some x) (hr : x.refusing = none) (h11 : x.step = 11) (late : Bool) :
    sleepStepDone late s = sleepRun late 14 s := by
  rw [sleepStepDone, hx]
  simp [hr, h11]

theorem sleepStepDone_store_writes {s : State} {x : Sleep} (hx : s.pwr.sleep = some x) (hr : x.refusing = none) (h11 : x.step = 11)
    (hw : storeWriting s = true) (late : Bool) : sleepStepDone late s = s := by
  rw [sleepStepDone_11 hx hr h11, sleepRun, hx]
  simp [h11, stepRefusal, stepWaits, hw, stepHold]

/-! ### Leaving Doze (R60) -/

theorem dozeExitDone_waits {s : State} (h : s.pwr.leavingDoze = false ∨ vcoreBusy s = true ∨ relocking s = true) (mr4 : Option Nat)
    (drift : Int) : dozeExitDone mr4 drift s = s :=
  if_pos (h.imp_left (by simp [·]))

/-- Doze ends in Idle, at stage 3 at most. -/
theorem dozeExitDone_ends {s : State} (hl : s.pwr.leavingDoze = true) (hv : vcoreBusy s = false) (hr : relocking s = false)
    (mr4 : Option Nat) (drift : Int) :
    let t := dozeExitDone mr4 drift s
    t.pwr.leavingDoze = false ∧ t.pstate = .idle ∧ t.pwr.stage = (if s.pwr.stage = 4 then 3 else s.pwr.stage) := by
  intro t
  have restarts (l : List Nat) (u : State) : (forAll l monRestart u).pwr = u.pwr := forAll_pwr (fun _ _ => monRestart_pwr ..) l u
  have e : t = _ := if_neg (by simp [hl, hv, hr])
  dsimp only at e
  rw [e]
  generalize hu : timStart (State.noticeAll 2 0 0 _) = u
  have pwr : u.pwr = s.pwr := by
    rw [← hu, timStart_pwr, State.noticeAll_pwr, restarts]
    split <;> simp
  split
  next h4 => rw [pwr] at h4; simp [h4]
  next h4 => rw [pwr] at h4; simp [h4, pwr]

/-- Settles O10: each request by what the device does at the time, a quiet one by its steps up to step 10, the Sentinel sequence by its last
steps, and the way out of Doze by what it waits for. -/
theorem sleepRequests : Obligations.SleepRequests := by
  unfold Obligations.SleepRequests
  refine fun s => ⟨fun x hx => ?_, ⟨_, rfl, fun hs hn hl => ?_⟩, ⟨_, rfl, fun hs hn hl => ?_⟩, ⟨_, rfl, fun hs hn hl h3 hw => ?_⟩,
    ⟨_, rfl, autoDoze_nothing, fun hb h3 hi hn ha hl hq => ?_⟩, fun late => ⟨_, rfl, fun hn => sleepStepDone_no_sequence hn late,
      fun x hx h => sleepStepDone_waits hx h late, fun x hx hr _ h11 hw => sleepStepDone_store_writes hx hr h11 hw late,
      fun x hx hr hq h11 hw => ?_⟩,
    fun mr4 drift => ⟨_, rfl, fun h => dozeExitDone_waits h _ drift, fun hl hv hr => dozeExitDone_ends hl hv hr _ drift⟩⟩
  · have answers : exec x.1 s = .next (s.hosted x.2.2 (stateRequest x.2.1)) := by
      simp only [List.mem_cons, List.not_mem_nil, or_false] at hx
      rcases hx with rfl | rfl | rfl <;> rfl
    refine ⟨_, answers, fun hn => State.hosted_not_served hn _, fun hs h => ?_⟩
    rw [State.hosted_served hs, stateRequest_busy h]
    exact stateResult_refused ..
  · rw [State.hosted_served hs]
    refine ⟨fun h => ?_, fun h3 hd ha => ?_, stateRequest_dozing hn hl⟩
    · rw [stateRequest_doze hn hl, if_pos h]; exact stateResult_refused ..
    · rw [stateRequest_doze hn hl, if_neg (by omega), if_neg hd, if_pos ha]; exact stateResult_refused ..
  · rw [State.hosted_served hs, stateRequest_safe hn hl]
    refine ⟨fun h => ?_, fun h3 hv => ?_⟩
    · rw [if_pos h]; exact stateResult_refused ..
    · rw [if_neg (by rw [hv]; simp; omega), if_pos hv]; exact stateResult_refused ..
  · rw [State.hosted_served hs, stateRequest_sentinel hn hl, if_pos (.inl h3)]
    exact coreOff_rest (sleepBegin_sentinel hw)
  · rw [autoDoze_asks hb h3 hi hn ha]
    exact stateRequest_dozing hn hl h3 (by rw [hi]; decide) hq
  · rw [sleepStepDone_11 hx hr h11]
    exact coreOff_rest (sleepRun_sentinel hx hq h11 hw late 11)

end Sys2Proof.Machine
end

section
/-!
SUPPORT. Loads of warps: staging, LOAD and ABORT, the commit of a full warp and the switch of a partial one (R45, R86 to R95, R443).
-/

namespace Sys2Proof.Machine

/-! ### Staging (R443) -/

section
variable {s : State} {w : Word}

theorem wrpData_staged (hl : s.wrp.load = none) (hn : s.wrp.stage.words.length < 4096) :
    wrpData w s = s.modWrp (fun x => { x with stage := x.stage.push 4096 w }) := by
  simp [wrpData, hl, hn]

theorem wrpData_overflow (hl : s.wrp.load = none) (hn : 4096 ≤ s.wrp.stage.words.length) :
    wrpData w s = (s.modWrp (fun x => { x with stage := x.stage.push 4096 w })).refusedWrite Reg.WRP_DATA := by
  simp [wrpData, hl, hn]

theorem wrpData_loading (hl : s.wrp.load.isSome) : wrpData w s = s.refusedWrite Reg.WRP_DATA := by
  simp [wrpData, hl]

end

theorem Staging.push_room {cap : Nat} {b : Staging} (h : b.words.length < cap) (w : Word) :
    b.push cap w = { b with words := b.words ++ [w] } := if_neg (Nat.not_le.mpr h)

theorem Staging.push_full {cap : Nat} {b : Staging} (h : cap ≤ b.words.length) (w : Word) : b.push cap w = { b with overflow := true } :=
  if_pos h

/-! ### Loads that fail (R86, R88) -/

theorem loadFail_stage (e : LoadErr) (s : State) : (loadFail e s).wrp.stage = {} := by
  simp [loadFail, loadEnd]

/-- A refusal leaves the flag of a partial warp. -/
theorem wrpRefuse_partial (e : LoadErr) (s : State) : (wrpRefuse e s).fld Reg.WRP_STATUS 4 4 = s.fld Reg.WRP_STATUS 4 4 := by
  unfold wrpRefuse wrpStatus
  rw [State.fld, State.raise_reg_ne _ (by decide), State.reg_setReg_ne _ _ (by decide), ← State.fld,
    State.fld_setFld_below _ _ _ (by decide) (by decide) (by decide) (by decide), State.fld_setFld_above _ _ _ (by decide) (by decide) (by decide)]

/-- A refusal is shown by registers alone. -/
theorem loadRefused_modWrp {e : LoadErr} {s : State} {f : Wrp → Wrp} (h : loadRefused s e) : loadRefused (s.modWrp f) e := by
  unfold loadRefused State.bit State.fld at h ⊢
  simpa only [State.modWrp_reg] using h

/-- What a load whose status says whether it is partial fails with. -/
theorem loadFail_setFld (e : LoadErr) (v : Nat) (s : State) :
    let t := loadFail e (s.setFld Reg.WRP_STATUS 4 4 v)
    loadRefused t e ∧ t.wrp.load = none ∧ t.wrp.stage = {} ∧ t.wrp.active = s.wrp.active ∧ changedOnly [.wrp, .regs] s t := by
  intro t
  obtain ⟨refused, load, active⟩ := loadFail_spec e (s.setFld Reg.WRP_STATUS 4 4 v)
  refine ⟨refused, load, loadFail_stage e _, active, (loadFail_keeps rfl rfl (setFld_keeps rfl (Kept.refl _ s))).changedOnly⟩

/-! ### LOAD (R88, R443) -/

section
variable {s : State}

theorem wrpLoad_busy (hl : s.wrp.load.isSome) : wrpLoad s = wrpRefuse (0xD, 0xFFFF, 0) s := if_pos hl

theorem wrpLoad_format (hl : s.wrp.load = none) (hc : s.pwr.change = none)
    (h : s.fld Reg.WRP_STAGE_LEN 14 0 % 4 ≠ 0 ∨ s.wrp.stage.fits (s.fld Reg.WRP_STAGE_LEN 14 0 / 4) = false) :
    wrpLoad s = loadFail (1, 0xFFFF, 0) (s.setFld Reg.WRP_STATUS 4 4 (b2n (stagedPartial s))) := by
  simp only [wrpLoad, hl, hc, Option.isSome_none, Bool.false_eq_true, and_false, if_false]
  exact if_pos (h.imp_right (by simp [·]))

theorem wrpLoad_checked (hl : s.wrp.load = none) (hc : s.pwr.change = none) (h4 : s.fld Reg.WRP_STAGE_LEN 14 0 % 4 = 0)
    (hf : s.wrp.stage.fits (s.fld Reg.WRP_STAGE_LEN 14 0 / 4) = true) : wrpLoad s = loadBytes s.wrp.stage.bytes s := by
  simp [wrpLoad, hl, hc, h4, hf]

variable {b : List Byte} (hb : nbit (byteAt b 0xE) 1 = false)
include hb

theorem loadBytes_bad_stage (h : badStage s false = true) : loadBytes b s = loadFail (0xB, 0xFFFF, 0) (s.setFld Reg.WRP_STATUS 4 4 0) := by
  have stage : badStage (s.setFld Reg.WRP_STATUS 4 4 0) false = true := by simpa [badStage] using h
  simp [loadBytes, hb, b2n, stage]

variable (h : badStage s false = false)
include h

theorem loadBytes_fails {e : LoadErr} (he : verifyWarp (s.setFld Reg.WRP_STATUS 4 4 0) b = .inl e) :
    loadBytes b s = loadFail e (s.setFld Reg.WRP_STATUS 4 4 0) := by
  have stage : badStage (s.setFld Reg.WRP_STATUS 4 4 0) false = false := by simpa [badStage] using h
  simp [loadBytes, hb, b2n, stage, he]

theorem loadBytes_passes {w : Structure} (hw : verifyWarp (s.setFld Reg.WRP_STATUS 4 4 0) b = .inr w) :
    loadBytes b s = loadAccept b false w (s.setFld Reg.WRP_STATUS 4 4 0) := by
  have stage : badStage (s.setFld Reg.WRP_STATUS 4 4 0) false = false := by simpa [badStage] using h
  simp [loadBytes, hb, b2n, stage, hw]

end

/-- The load of a full warp that passes, as it enters the queue. -/
def fullLoading (w : Structure) (s : State) : State :=
  wrpStatus 3 0 (s.modWrp (fun x => { x with load := some { new := w, partialLoad := false, placed := 0, phase := 4 } }))

theorem loadAccept_full (b : List Byte) (w : Structure) (s : State) : loadAccept b false w s = weaverQueue .load (fullLoading w s) := by
  simp [loadAccept, fullLoading]

theorem fullLoading_wrp (w : Structure) (s : State) :
    (fullLoading w s).wrp = { s.wrp with load := some { new := w, partialLoad := false, placed := 0, phase := 4 } } := by
  simp [fullLoading, wrpStatus]

/-- The spindles in service are those that the WRP block has not retired. -/
theorem spindlesIn_congr {s t : State} (h : t.wrp.spRetired = s.wrp.spRetired) : spindlesIn t = spindlesIn s := by
  simp [spindlesIn, reserveCounts, h]

theorem fullLoading_status (w : Structure) (s : State) : (fullLoading w s).fld Reg.WRP_STATUS 1 0 = 3 :=
  (wrpStatus_fields (by decide : 3 < 4) 0 _).1

/-- A full warp at the head of the queue is placed on the `n` fibres in service, or is refused for want of them. -/
theorem weaverStart_full {s : State} {x : Load} {n : Nat} (hj : s.wrp.jobs = [.load]) (hx : s.wrp.load = some x) (h5 : x.phase < 5)
    (hp : x.partialLoad = false) (hn : 16 * spindlesIn s = n) :
    let t := weaverStart s
    if structFibres x.new ≤ n then
      t.wrp.load = some { x with placed := structFibres x.new, phase := 5 } ∧ t.wrp.active = s.wrp.active ∧
        t.fld Reg.WRP_STATUS 1 0 = s.fld Reg.WRP_STATUS 1 0
    else loadRefused t (0xA, 0xFFFF, 0) ∧ t.wrp.load = none ∧ t.wrp.active = s.wrp.active := by
  have started := weaverStart_load_spec hj (.inl rfl) hx h5
  have places : placement s x.new x.partialLoad = if structFibres x.new > n then none else some (structFibres x.new) := by
    simp only [placement, hp, Bool.false_eq_true, if_false, hn]
  rw [places] at started
  by_cases fits : structFibres x.new ≤ n
  · rw [if_neg (Nat.not_lt.mpr fits)] at started
    obtain ⟨wrp, -, -, parts⟩ := started
    have regs : (weaverStart s).regs = s.regs ∧ (weaverStart s).aonRegs = s.aonRegs := parts .regs (by decide)
    simp only [if_pos fits, wrp, State.fld, State.reg_congr regs, and_self]
  · rw [if_pos (Nat.lt_of_not_le fits)] at started
    simp only [if_neg fits]
    exact started

/-- A full warp that passes with no job before it. -/
theorem loadAccept_alone (b : List Byte) (w : Structure) {s : State} {n : Nat} (h : s.wrp.jobs = []) (hn : 16 * spindlesIn s = n) :
    let t := loadAccept b false w s
    if structFibres w ≤ n then
      t.wrp.load = some { new := w, partialLoad := false, placed := structFibres w, phase := 5 } ∧ t.wrp.active = s.wrp.active ∧
        t.fld Reg.WRP_STATUS 1 0 = 3
    else loadRefused t (0xA, 0xFFFF, 0) ∧ t.wrp.load = none ∧ t.wrp.active = s.wrp.active := by
  let u := (fullLoading w s).modWrp (fun x => { x with jobs := [.load] })
  have wrp : u.wrp = { s.wrp with load := some { new := w, partialLoad := false, placed := 0, phase := 4 }, jobs := [.load] } := by
    simp only [u, State.modWrp_wrp, fullLoading_wrp]
  have status : u.fld Reg.WRP_STATUS 1 0 = 3 := by
    rw [State.fld, State.modWrp_reg, ← State.fld, fullLoading_status]
  have spindles : spindlesIn u = spindlesIn s := spindlesIn_congr (by rw [wrp])
  have loading : u.wrp.load = some { new := w, partialLoad := false, placed := 0, phase := 4 } := by rw [wrp]
  have started := weaverStart_full (by rw [wrp]) loading (Nat.lt_succ_self 4) rfl (by rw [spindles, hn])
  rw [status, show u.wrp.active = s.wrp.active by rw [wrp]] at started
  have e : loadAccept b false w s = weaverStart u := by
    rw [loadAccept_full, weaverQueue_alone (by rw [fullLoading_wrp]; exact h)]
  rw [e]
  exact started

/-! ### ABORT (R91) -/

/-- An abandoned vote frees the members before the load of a bellwether is aborted. -/
def voteFreed (s : State) : State :=
  match s.cas.vote with
  | some (.warp, _) => relayControl 0x06 0 (beBytes 1 2) (s.modCas (fun c => { c with vote := none }))
  | _ => s

theorem voteFreed_wrp (s : State) : (voteFreed s).wrp = s.wrp := by
  unfold voteFreed
  split
  · exact (relayControl_keeps (L := fun p => decide (p ∈ [Part.cas])) rfl (modCas_keeps rfl (Kept.refl _ s))).wrp rfl
  · rfl

theorem wrpAbort_aborts {s : State} {x : Load} (hx : s.wrp.load = some x) (h6 : x.phase < 6) :
    wrpAbort s = loadFail (0xE, 0xFFFF, 0) (voteFreed s) := by
  rw [wrpAbort, hx]; dsimp only
  rw [if_neg (by omega)]; rfl

theorem wrpAbort_late {s : State} {x : Load} (hx : s.wrp.load = some x) (h6 : 6 ≤ x.phase) : wrpAbort s = s := by
  simp [wrpAbort, hx, h6]

theorem wrpAbort_nothing {s : State} (hx : s.wrp.load = none) : wrpAbort s = s := by
  simp [wrpAbort, hx]

/-! ### The warp of the flash (R45) -/

theorem qspiWarpLoad_loads {s : State} (h2 : s.pwr.stage = 2) (hb : s.bit Reg.PWR_AON_START_CFG 20 = false) (hl : s.wrp.load = none)
    (ha : s.wrp.active = none) :
    qspiWarpLoad s = (loadBytes (qspiWarp s) s).modWrp (fun w => { w with stage := s.wrp.stage }) := by
  simp [qspiWarpLoad, h2, hb, hl, ha]

/-! ### The commit and the switch (R91, R94) -/

/-- Every part of the state but the WRP block. -/
def outsideWrp (p : Part) : Bool := decide (p ≠ .wrp)

theorem Kept.ite {L : Part → Bool} {s t u : State} {c : Prop} [Decidable c] (h : Kept L s t) (h' : Kept L s u) : Kept L s (if c then t else u) := by
  split
  · exact h
  · exact h'

/-- A load that ends DONE shows it with its interrupt, and the WRP block is as it was. -/
theorem loadDone_spec (s : State) {b : Nat} (hb : b < 32) :
    let t := (wrpStatus 1 0 (stampSwitch s)).raise Reg.WRP_INT_STATUS b
    t.wrp = s.wrp ∧ t.fld Reg.WRP_STATUS 1 0 = 1 ∧ t.fld Reg.WRP_STATUS 31 24 = 0 ∧ t.bit Reg.WRP_INT_STATUS b = true := by
  intro t
  obtain ⟨outcome, error⟩ := wrpStatus_fields (by decide : 1 < 4) 0 (stampSwitch s)
  have status : t.reg Reg.WRP_STATUS = (wrpStatus 1 0 (stampSwitch s)).reg Reg.WRP_STATUS := State.raise_reg_ne _ (by decide)
  refine ⟨by simp [t, wrpStatus, stampSwitch], ?_, ?_, State.bit_raise _ (present_wrpInt _) hb⟩
  · rw [State.fld, status]; exact outcome
  · rw [State.fld, status]; exact error

/-- The WRP block as a full warp replaces the whole structure. -/
def warpReplaced (new : Structure) (s : State) : State :=
  (loadEnd (fhpRestart (sknCommit (fhpCommit s)))).modWrp (fun w => { w with
    active := some new, fallDl := 0, fallUl := 0, withdrawnDl := 0, withdrawnUl := 0 })

/-- The other blocks follow a full warp before its end is shown. -/
theorem fullCommit_eq (new : Structure) (s : State) :
    ∃ t, fullCommit new s = (wrpStatus 1 0 (stampSwitch t)).raise Reg.WRP_INT_STATUS 0 ∧ Kept outsideWrp (warpReplaced new s) t := by
  unfold fullCommit; dsimp only
  have roles : Kept outsideWrp (warpReplaced new s) (watchRoles (fun s => recheckRange (setFdd (synTuneAll new s)))
      (((warpReplaced new s).setReg Reg.WRP_ACTIVE_ID (BitVec.ofNat 32 new.id)).setReg Reg.WRP_ACTIVE_REV (BitVec.ofNat 32 new.rev))) :=
    watchRoles_keeps (fun _ K => recheckRange_keeps rfl rfl (setFdd_keeps rfl (synTuneAll_keeps rfl K))) rfl rfl rfl rfl rfl
      (setReg_keeps rfl (setReg_keeps rfl (Kept.refl _ _)))
  have init := dpdInitAll_keeps rfl rfl roles
  have bias := bdaCommit_keeps rfl rfl init
  have blocks := monCommit_keeps rfl rfl (acqCommit_keeps rfl rfl rfl rfl rfl rfl bias)
  have powerUp := modNvs_keeps (f := fun v => { v with powerUpDone := false }) rfl id blocks
  exact ⟨_, rfl, casCommit_keeps rfl rfl rfl rfl rfl rfl rfl rfl (liftMasks_keeps rfl (Kept.ite powerUp blocks))⟩

/-- The commit of a full warp. -/
theorem fullCommit_spec (new : Structure) (s : State) :
    let t := fullCommit new s
    t.wrp.active = some new ∧ t.wrp.load = none ∧ t.wrp.stage = {} ∧ t.wrp.fallDl = 0 ∧ t.wrp.fallUl = 0 ∧ t.fld Reg.WRP_STATUS 1 0 = 1 ∧
      t.fld Reg.WRP_STATUS 31 24 = 0 ∧ t.bit Reg.WRP_INT_STATUS 0 = true := by
  intro t
  obtain ⟨u, e, K⟩ := fullCommit_eq new s
  obtain ⟨wrp, outcome, error, int⟩ := loadDone_spec u (b := 0) (by decide)
  rw [show t = _ from e, wrp.trans (K.wrp rfl)]
  exact ⟨rfl, rfl, rfl, rfl, rfl, outcome, error, int⟩

/-- A partial warp waits for its switch. -/
theorem spindlesLoaded_partial {s : State} {x : Load} {j : Job} {rest : List Job} (hx : s.wrp.load = some x) (hj : s.wrp.jobs = j :: rest)
    (hjob : j = .load ∨ j = .reweave) (h5 : x.phase = 5) (hp : x.partialLoad = true) :
    (spindlesLoaded s).wrp = { s.wrp with load := some { x with phase := 6 } } := by
  have K : ∀ ul ls air t, (tellEnd ul ls air t).wrp = t.wrp := fun ul ls air t =>
    (tellEnd_keeps (L := fun p => decide (p ∈ [Part.regs, .fhp])) rfl rfl (Kept.refl _ t)).wrp rfl
  rcases hjob with rfl | rfl <;> simp [spindlesLoaded, hx, hj, h5, hp, K]

theorem spindlesLoaded_full {s : State} {x : Load} {j : Job} {rest : List Job} (hx : s.wrp.load = some x) (hj : s.wrp.jobs = j :: rest)
    (hjob : j = .load ∨ j = .reweave) (h5 : x.phase = 5) (hp : x.partialLoad = false) : spindlesLoaded s = fullCommit x.new s := by
  rcases hjob with rfl | rfl <;> simp [spindlesLoaded, hx, hj, h5, hp]

theorem spindlesLoaded_early {s : State} {x : Load} (hx : s.wrp.load = some x) (h5 : x.phase ≠ 5) : spindlesLoaded s = s := by
  cases hj : s.wrp.jobs <;> simp [spindlesLoaded, hx, hj, h5]

/-- The other blocks follow a partial warp before its end is shown. -/
theorem reweave_kept (new : Structure) (a : Nat) (w : Word) (l : List Nat) (s : State) :
    Kept outsideWrp s (fhpSwitch (uncarriedOut (forAll l reloadBanks
      (watchRoles (fun s => recheckRange (setFdd (synTuneAll new s))) (s.setReg a w))))) :=
  fhpSwitch_keeps rfl rfl (uncarriedOut_keeps rfl rfl rfl rfl rfl rfl (forAll_keeps (fun _ _ K => reloadBanks_keeps rfl K)
    (watchRoles_keeps (fun _ K => recheckRange_keeps rfl rfl (setFdd_keeps rfl (synTuneAll_keeps rfl K))) rfl rfl rfl rfl rfl
      (setReg_keeps rfl (Kept.refl _ s)))))

/-- The switch of a partial warp: it is the active structure under the identity of the old one. -/
theorem reweaveSwitch_spec {s : State} {x : Load} (hx : s.wrp.load = some x) (h6 : x.phase = 6) :
    let t := reweaveSwitch s
    t.wrp.active = some { x.new with id := s.warp.id } ∧ t.wrp.load = none ∧ t.fld Reg.WRP_STATUS 1 0 = 1 ∧
      t.fld Reg.WRP_STATUS 31 24 = 0 ∧ t.bit Reg.WRP_INT_STATUS 2 = true := by
  obtain ⟨t, e, active, load⟩ : ∃ t, reweaveSwitch s = (wrpStatus 1 0 (stampSwitch t)).raise Reg.WRP_INT_STATUS 2 ∧
      t.wrp.active = some { x.new with id := s.warp.id } ∧ t.wrp.load = none := by
    rw [reweaveSwitch, hx]; dsimp only
    rw [if_neg (not_not_intro h6)]
    refine ⟨_, rfl, ?_⟩
    rw [(reweave_kept ..).wrp rfl]
    exact ⟨rfl, rfl⟩
  obtain ⟨wrp, outcome, error, int⟩ := loadDone_spec t (b := 2) (by decide)
  simp only [e, wrp]
  exact ⟨active, load, outcome, error, int⟩

theorem reweaveSwitch_early {s : State} {x : Load} (hx : s.wrp.load = some x) (h6 : x.phase ≠ 6) : reweaveSwitch s = s := by
  rw [reweaveSwitch, hx]
  exact if_pos h6

theorem reweaveSwitch_nothing {s : State} (hx : s.wrp.load = none) : reweaveSwitch s = s := by
  rw [reweaveSwitch, hx]

/-- Settles O12: staging by the room in the buffer, LOAD by its checks in order, and the commit and the switch by what the other blocks leave
of the WRP block. -/
theorem warpLoads : Obligations.WarpLoads := by
  unfold Obligations.WarpLoads
  refine fun s => ⟨fun w => ⟨_, rfl, fun hn => State.hosted_not_served hn _, fun hs hl hn => ?_, fun hs hl hn => ?_, fun hs hl => ?_⟩,
    ⟨_, rfl, ?_⟩,
    ⟨_, rfl, fun hn => State.hosted_not_served hn _, fun hs hl => ?_, fun hs hl hc h => ?_, fun hs hl hc h4 hf hp => ?_⟩,
    ⟨_, rfl, fun h => ?_, fun x hx h6 => ?_, fun x hs hx h6 => ?_⟩,
    ⟨_, rfl, fun h => if_pos h, fun h2 hb hl ha => ⟨?_, fun hp e he => ?_⟩⟩,
    ⟨_, rfl, fun x j rest hx hj hjob => ⟨spindlesLoaded_early hx, fun h5 hp => ?_, fun h5 hp => ?_⟩⟩,
    ⟨_, rfl, reweaveSwitch_nothing, fun x hx => reweaveSwitch_early hx, fun x hx => reweaveSwitch_spec hx⟩⟩
  · rw [State.hosted_served hs, wrpData_staged hl hn, State.modWrp_wrp, Staging.push_room hn]
    exact ⟨rfl, rfl, modWrp_changedOnly _ s⟩
  · rw [State.hosted_served hs, wrpData_overflow hl hn, State.refusedWrite_wrp, State.modWrp_wrp, Staging.push_full hn]
    exact ⟨rfl, rfl⟩
  · rw [State.hosted_served hs, wrpData_loading hl]
    exact ⟨State.refusedWrite_wrp .., (refusedWrite_keeps rfl rfl (Kept.refl _ s)).changedOnly⟩
  · split
    next hs => rw [State.hosted_served hs]; exact ⟨rfl, modWrp_changedOnly _ s⟩
    next hs => exact State.hosted_not_served (by simpa using hs) _
  · rw [State.hosted_served hs, wrpLoad_busy hl]
    exact ⟨wrpRefuse_wrp .., wrpRefuse_refused .., (wrpRefuse_keeps rfl (Kept.refl _ s)).changedOnly⟩
  · rw [State.hosted_served hs, wrpLoad_format hl hc h]
    obtain ⟨refused, load, stage, active, parts⟩ := loadFail_setFld (1, 0xFFFF, 0) (b2n (stagedPartial s)) s
    refine ⟨load, stage, active, refused, ?_, parts⟩
    rw [loadFail, wrpRefuse_partial, loadEnd, State.fld, State.modWrp_reg]
    exact (State.fld_setFld s _ _ (by decide) (by decide)).trans (by cases stagedPartial s <;> rfl)
  · rw [State.hosted_served hs, wrpLoad_checked hl hc h4 hf]
    have failed (e : LoadErr) := loadFail_setFld e 0 s
    split
    next bad =>
      obtain ⟨refused, load, -, active, -⟩ := failed (0xB, 0xFFFF, 0)
      rw [loadBytes_bad_stage hp bad]
      exact ⟨refused, load, active⟩
    next fit =>
      split
      next e he => rw [loadBytes_fails hp (by simpa using fit) he]; exact failed e
      next w hw =>
        rw [loadBytes_passes hp (by simpa using fit) hw]
        have spindles : spindlesIn (s.setFld Reg.WRP_STATUS 4 4 0) = spindlesIn s := spindlesIn_congr (by rw [State.setFld_wrp])
        intro hj
        generalize hn : 16 * spindlesIn s = n
        exact loadAccept_alone _ w hj (by rw [spindles, hn])
  · rcases h with hn | hx
    · exact State.hosted_not_served hn _
    · rw [State.hosted, wrpAbort_nothing hx, ite_self]
  · rw [State.hosted, wrpAbort_late hx h6, ite_self]
  · rw [State.hosted_served hs, wrpAbort_aborts hx h6]
    obtain ⟨refused, load, active⟩ := loadFail_spec (0xE, 0xFFFF, 0) (voteFreed s)
    exact ⟨load, loadFail_stage .., active.trans (congrArg Wrp.active (voteFreed_wrp s)), refused⟩
  · rw [qspiWarpLoad_loads h2 hb hl ha, State.modWrp_wrp]
  · have fit : badStage s false = false := by simp [badStage, h2]
    obtain ⟨refused, load, -, -, -⟩ := loadFail_setFld e 0 s
    rw [qspiWarpLoad_loads h2 hb hl ha, loadBytes_fails hp fit he]
    exact ⟨loadRefused_modWrp refused, load⟩
  · rw [spindlesLoaded_full hx hj hjob h5 hp]
    exact fullCommit_spec x.new s
  · rw [spindlesLoaded_partial hx hj hjob h5 hp]
    exact ⟨rfl, rfl⟩

end Sys2Proof.Machine
end

section
/-!
SUPPORT. Write frames of the SPI port: the bytes of words, the words written, and the frames discarded (R439, R440, R442).
-/

namespace Sys2Proof.Machine

/-! ### Bytes of a number -/

theorem leNat_leBytes (n x : Nat) : leNat (leBytes n x) = x % 256 ^ n := by
  induction n generalizing x with
  | zero => rw [pow_zero, Nat.mod_one]; rfl
  | succ n ih =>
    rw [leBytes, leNat, ih, BitVec.toNat_ofNat, pow_succ' 256 n]
    exact Nat.mod_mul.symm

theorem leNat_leBytes_word (w : Word) : leNat (leBytes 4 w.toNat) = w.toNat :=
  (leNat_leBytes 4 w.toNat).trans (Nat.mod_eq_of_lt w.isLt)

theorem wordBytes_cons (w : Word) (ws : List Word) : wordBytes (w :: ws) = leBytes 4 w.toNat ++ wordBytes ws := List.flatMap_cons

theorem wordBytes_length (ws : List Word) : (wordBytes ws).length = 4 * ws.length := by
  induction ws with
  | nil => rfl
  | cons w ws ih => rw [wordBytes_cons, List.length_append, leBytes_length, ih, List.length_cons]; ring

/-! ### The words of a frame (R439) -/

/-- A whole word is written to its address. -/
theorem spiWords_word (incr : Bool) (a i : Nat) (w : Word) (l : List Byte) (s : State) :
    spiWords incr a i (leBytes 4 w.toNat ++ l) s = spiWords incr a (i + 1) l (hostWrite (wordAddr incr a i) w s) := by
  have value : BitVec.ofNat 32 (leNat (leBytes 4 w.toNat)) = w := by rw [leNat_leBytes_word, BitVec.ofNat_toNat, BitVec.setWidth_eq]
  simp only [leBytes] at value ⊢
  simp only [List.cons_append, List.nil_append, spiWords, value]

/-- Fewer than four bytes are no word. -/
theorem spiWords_rest (incr : Bool) (a i : Nat) {rest : List Byte} (h : rest.length < 4) (s : State) : spiWords incr a i rest s = s := by
  rcases rest with _ | ⟨b0, _ | ⟨b1, _ | ⟨b2, _ | ⟨b3, rest⟩⟩⟩⟩
  · rfl
  · rfl
  · rfl
  · rfl
  · simp only [List.length_cons] at h; omega

theorem spiWords_written (incr : Bool) (a : Nat) (ws : List Word) {rest : List Byte} (h : rest.length < 4) (i : Nat) (s : State) :
    spiWords incr a i (wordBytes ws ++ rest) s = wordsWritten incr a i ws s := by
  induction ws generalizing i s with
  | nil => exact spiWords_rest incr a i h s
  | cons w ws ih => rw [wordBytes_cons, List.append_assoc, spiWords_word, ih]; rfl

/-! ### Write frames (R440) -/

section
variable {s : State} {b : List Byte}

theorem spiWrite_off (h : s.pwr.off = true) (incr : Bool) (badOp : Option Byte) : spiWrite incr badOp b s = s := by
  simp [spiWrite, spiFrame, h]

variable (hon : s.pwr.off = false) (incr : Bool)
include hon

/-- A faulty OPCODE discards the frame, also one whose address is not complete. -/
theorem spiWrite_bad_opcode {o : Byte} (ho : o ∉ spiOpcodes) :
    frameDiscarded s (spiWrite incr (some o) b s) 1 (spiStatus s :: List.replicate b.length 0) := by
  by_cases h4 : 4 ≤ b.length
  · have e : spiWrite incr (some o) b s =
        spiDiscard 1 (BitVec.ofNat 32 (leNat (b.take 4))) (spiStatus s :: List.replicate b.length 0) s := by
      simp [spiWrite, spiFrame, spiAddress, hon, h4, ho]
    rw [e]
    exact spiDiscard_discarded (by decide) ..
  · have e : spiWrite incr (some o) b s =
        spiDiscard 1 (Config.partialAddress s.draw.1) (spiStatus s :: List.replicate b.length 0) s.draw.2 := by
      simp [spiWrite, spiFrame, spiAddress, hon, h4, ho]
    rw [e]
    exact spiDiscard_draw_discarded (by decide) ..

theorem spiWrite_short (h4 : b.length < 4) :
    frameDiscarded s (spiWrite incr none b s) 3 (spiStatus s :: List.replicate b.length 0) := by
  have e : spiWrite incr none b s =
      spiDiscard 3 (Config.partialAddress s.draw.1) (spiStatus s :: List.replicate b.length 0) s.draw.2 := by
    simp [spiWrite, spiFrame, spiAddress, hon, h4, Nat.not_le.mpr h4]
  rw [e]
  exact spiDiscard_draw_discarded (by decide) ..

theorem spiWrite_unaligned (h4 : 4 ≤ b.length) (ha : leNat (b.take 4) % 4 ≠ 0) :
    frameDiscarded s (spiWrite incr none b s) 2 (spiStatus s :: List.replicate b.length 0) := by
  have e : spiWrite incr none b s =
      spiDiscard 2 (BitVec.ofNat 32 (leNat (b.take 4))) (spiStatus s :: List.replicate b.length 0) s := by
    simp [spiWrite, spiFrame, spiAddress, hon, h4, ha]
  rw [e]
  exact spiDiscard_discarded (by decide) ..

/-- A frame with a good address writes its whole words; what is left of a last one is a violation. -/
theorem spiWrite_words {a : Word} {ws : List Word} {rest : List Byte} (ha : a.toNat % 4 = 0) (hr : rest.length < 4)
    (hb : b = leBytes 4 a.toNat ++ wordBytes ws ++ rest) :
    spiWrite incr none b s =
      if rest = [] then spiEnd false (spiStatus s :: List.replicate b.length 0) (wordsWritten incr a.toNat 0 ws s)
      else spiDiscard 3 (BitVec.ofNat 32 (wordAddr incr a.toNat ws.length)) (spiStatus s :: List.replicate b.length 0)
        (wordsWritten incr a.toNat 0 ws s) := by
  have address : b.take 4 = leBytes 4 a.toNat := by rw [hb, List.append_assoc, List.take_left' (leBytes_length 4 _)]
  have data : b.drop 4 = wordBytes ws ++ rest := by rw [hb, List.append_assoc, List.drop_left' (leBytes_length 4 _)]
  have complete : 4 ≤ b.length := by rw [hb]; simp only [List.length_append, leBytes_length]; omega
  have bytes : (wordBytes ws ++ rest).length = 4 * ws.length + rest.length := by rw [List.length_append, wordBytes_length]
  have left : (4 * ws.length + rest.length) % 4 = rest.length := by omega
  have whole : (4 * ws.length + rest.length) / 4 = ws.length := by omega
  simp only [spiWrite, spiFrame, spiAddress, hon, Bool.false_eq_true, if_false, ge_iff_le, if_pos complete, Option.any_none,
    if_neg (Nat.not_lt.mpr complete), address, leNat_leBytes_word, BitVec.ofNat_toNat, BitVec.setWidth_eq, ha, ne_eq, not_true_eq_false, data,
    spiWords_written _ _ _ hr, bytes, left, whole, List.length_eq_zero_iff]
  by_cases h : rest = []
  · simp [h]
  · simp [h, spiDiscard]

end

/-- What a write frame does, by its OPCODE, its address and its words. -/
theorem spiWrite_written (incr : Bool) (badOp : Option Byte) (b : List Byte) (s : State) :
    frameWritten incr badOp b s (spiWrite incr badOp b s) := by
  refine ⟨fun off => spiWrite_off off incr badOp, fun on => ⟨?_, ?_, ?_, fun a ws rest hop ha hr hb => ⟨fun h => ?_, fun h => ?_⟩⟩⟩
  · rintro o rfl ho; exact spiWrite_bad_opcode on incr ho
  · rintro rfl h4; exact spiWrite_short on incr h4
  · rintro rfl h4 ha; exact spiWrite_unaligned on incr h4 ha
  · rw [hop, spiWrite_words on incr ha hr hb, if_pos h]; rfl
  · rw [hop, spiWrite_words on incr ha hr hb, if_neg h]
    exact spiDiscard_discarded (by decide) ..

/-- Settles O50: both frames are the one write of words, at addresses that rise or stay. -/
theorem writeFrames : Obligations.WriteFrames := by
  unfold Obligations.WriteFrames
  exact fun s b => ⟨fun badOp => ⟨_, rfl, spiWrite_written true badOp b s⟩, _, rfl, spiWrite_written false none b s⟩

end Sys2Proof.Machine
end

section
/-!
SUPPORT. Every command of supplies, rails, stages, levels and sleep completes with its own effect.
-/

namespace Sys2Proof.Machine

/-- A command that completes with an effect completes with all that follows from it. -/
theorem completes.imp {c : Instr} {s : State} {p q : State → Prop} (h : completes c s p) (f : ∀ t, p t → q t) :
    ∃ t, exec c s = .next t ∧ q t :=
  Exists.imp (fun t => And.imp_right (f t)) h

/-- The image that the boot ROM starts. -/
theorem firmware_starts {s : State} {v : Nat} (h1 : s.pwr.stage = 1) (hf : s.pwr.fwOk = false) (hg : 1 < climbGoal s)
    (hv : imageVersion s (min 1 (s.fld Reg.GLB_BOOT 3 0)) = some v) :
    (firmware s).pwr.fwOk = true ∧ (firmware s).reg Reg.GLB_FW_VERSION = BitVec.ofNat 32 v := by
  have started := firmware_spec (s := s) (by simp [h1, hf, hg])
  simp only [hv] at started
  obtain ⟨running, version, -⟩ := started
  exact ⟨running, version⟩

/-- A GOTO_SAFE of a quiet device in Idle waits at step 10 for VCORE at 620 mV. -/
theorem stateRequest_safe_waits {s : State} (hn : s.pwr.sleep = none) (hl : s.pwr.leavingDoze = false) (h3 : 3 ≤ s.pwr.stage)
    (hi : s.pstate = .idle) (hq : quiet s) :
    let t := stateRequest .safe s
    t.pwr.sleep = some { req := .safe, first := 1, step := 10, mv := s.pwr.vcore } ∧ (rail t 1).req = some { mv := 620, why := .sleepVcore } := by
  rw [stateRequest_safe_begins hn hl h3 (by rw [hi]; decide) (by rw [hi]; decide)]
  obtain ⟨sleep, -, vcore⟩ := sleepBegin_waits (req := .safe) (by decide) hq
  exact ⟨sleep, vcore⟩

/-- Settles O55: each command by what the obligations on supplies, wake sources, rails, references, stages, sleep and levels say of it. -/
theorem supplyStageAndLevelCommandsComplete : Obligations.SupplyStageAndLevelCommandsComplete := by
  unfold Obligations.SupplyStageAndLevelCommandsComplete
  intro s
  obtain ⟨rise, fall, xtal, low, high⟩ := supplyPinsAndReset s
  obtain ⟨wakes, signal, frame⟩ := wakeSources s
  obtain ⟨window, timeout, -, link, climbs⟩ := referencesImageAndClimb s
  obtain ⟨enter, leave, releases, resume, clear, config⟩ := stageFourAndHeldClimb s
  obtain ⟨-, dozes, -, rests, auto, steps, wakesUp⟩ := sleepRequests s
  obtain ⟨level, point, report, trim, slip, warning⟩ := performanceLevels s
  have rails := railRequestsAndFaults s
  refine ⟨fun off => rise.imp fun t h => ?_, fun on => fall.imp fun t h => ?_,
    fun vsen n on => (warning vsen n).imp fun t ⟨_, warned⟩ => ?_, fun on => xtal.imp fun t h => ?_,
    fun on => low.imp fun t ⟨pin, _, reset⟩ => ?_, high.imp fun t ⟨pin, _, _, parts⟩ => ⟨pin, parts⟩,
    fun site cmd crc hb hr hd hc hs hm he hsd hrec => (frame site cmd crc).imp fun t ⟨_, _, woken⟩ => ?_,
    fun x hx hr he => ⟨fun hd hf hsd hrec => (wakes x hx).imp fun t ⟨_, sentinel, _⟩ => ?_,
      fun hd => (wakes x hx).imp fun t ⟨_, _, doze⟩ => ?_⟩,
    fun q hr he hd => (signal q).imp fun t ⟨_, doze⟩ => ?_,
    fun n q hq => ⟨fun hw hr ht mode => ?_, fun hw hr hc g mode hg => ?_, fun hw h4 why => ?_, fun hw => ?_⟩,
    fun n hq ha => ?_, fun words hb h0 h => ?_, fun r on h0 => ?_,
    fun edges b hb ha => (window edges).imp fun t ⟨counted, _⟩ => ?_, fun hc => timeout.imp fun t ⟨other, _⟩ => ?_,
    fun v h1 hf hg hv => ⟨_, rfl, firmware_starts h1 hf hg hv⟩, fun h1 hf hu hw hg => link.imp fun t h => ?_,
    fun on hs => ⟨fun h0 hc => climbs.imp fun t ⟨_, _, first, _⟩ => ?_, fun h1 hg hf hu => climbs.imp fun t ⟨_, _, _, second, _⟩ => ?_⟩,
    fun h3 hi hl hs hk hb hf hj => enter.imp fun t h => ?_, fun hl hm => leave.imp fun t ⟨left, _⟩ => left hl hm,
    fun on hs h => (releases on).imp fun t ⟨_, set, _⟩ => ?_, fun hs h1 h3 hn => resume.imp fun t h => ?_,
    fun hs hn hl h3 hi hq => ⟨_, rfl, ?_⟩,
    fun l hs hm hc hl hb => (level l).imp fun t ⟨_, _, _, _, begins⟩ => ?_,
    fun c hc hp => point.imp fun t ⟨_, _, changes, _⟩ => (changes c hc hp).1, fun r h3 => (report r).imp fun t ⟨_, h⟩ => (h h3).2,
    fun m hm h12 ht hv hc hs hd h3 => trim.imp fun t ⟨asks, _⟩ => (asks m hm h12 ht hv hc hs hd h3).1,
    fun h3 => slip.imp fun t ⟨_, h⟩ => (h h3).1,
    fun hs hn hl => ⟨fun h3 hd hq => dozes.imp fun t h => ?_, fun h3 hw => rests.imp fun t h => ?_⟩,
    fun hb h3 hi hn ha hl hq => auto.imp fun t ⟨_, h⟩ => h hb h3 hi hn ha hl hq,
    fun late x hx hr hq h11 hw => (steps late).imp fun t ⟨_, _, _, h⟩ => ?_,
    fun mr4 drift hl hv hr => (wakesUp mr4 drift).imp fun t ⟨_, h⟩ => ?_,
    fun on => clear.imp fun t h => ?_, fun w on h => (config w).imp fun t ⟨_, _, taken⟩ => (taken on h).1⟩
  · obtain ⟨on, stage, -, regs, -⟩ := (if_pos off).mp h
    exact ⟨on, stage, regs⟩
  · obtain ⟨off, stage, -, -, flash, -⟩ := (if_neg (by simp [on])).mp h
    exact ⟨off, stage, flash⟩
  · obtain ⟨held, flag, -⟩ := warned on
    exact ⟨held, flag⟩
  · exact ((if_neg (by simp [on])).mp h).1
  · obtain ⟨-, stage, -, aon, -⟩ := reset on
    exact ⟨pin, stage, aon⟩
  · obtain ⟨-, rails, hold⟩ := woken hb hr hd hc hs hm he hsd hrec
    exact ⟨rails, hold⟩
  · obtain ⟨-, source, -, climb⟩ := sentinel hr he hd hf
    rw [if_neg (by simp [hsd]), if_neg hrec] at climb
    exact ⟨climb.1, source⟩
  · exact (doze hr he hd).1
  · exact (doze hr he hd).1
  · obtain ⟨answers, -⟩ := rails n
    refine (answers mode).imp fun t ⟨_, _, _, trims, _⟩ => ?_
    obtain ⟨req, acked, -, vcore⟩ := trims q hq hw hr ht
    exact ⟨req, acked, vcore⟩
  · obtain ⟨answers, -⟩ := rails n
    exact (answers mode).imp fun t ⟨_, _, _, _, climbs⟩ => (climbs q g hq hw hr hc hg).1
  · obtain ⟨-, fails, -⟩ := rails n
    refine (fails why).imp fun t ⟨_, _, again, _⟩ => ?_
    obtain ⟨req, flag, -⟩ := again q hq hw h4
    exact ⟨req, flag⟩
  · obtain ⟨-, -, retry, -⟩ := rails n
    exact retry.imp fun t ⟨again, _⟩ => (again q hq hw).1
  · obtain ⟨-, -, -, fault, -⟩ := rails n
    exact fault.imp fun t ⟨acked, _⟩ => acked hq ha
  · obtain ⟨-, -, -, -, alert, -⟩ := rails 0
    refine (alert words).imp fun t ⟨_, clean⟩ => ?_
    obtain ⟨pwr, -, counted⟩ := clean hb h
    exact ⟨pwr, counted h0⟩
  · obtain ⟨-, -, -, -, -, telemetry⟩ := rails 0
    exact (telemetry r).imp fun t ⟨_, kept⟩ => (kept on h0).2
  · exact ((if_pos ha).mp (counted b hb)).1
  · exact (other (.inl hc)).1
  · exact ((if_pos ⟨h1, hf, by simp [hu], hw, hg⟩).mp h).1
  · exact (first on hs h0 hc).1
  · exact (second on hs h1 hg hf hu).1
  · obtain ⟨stage, flag, -⟩ := (if_pos ⟨h3, hi, by simp [hl], hs, hk, hb, hf, hj⟩).mp h
    exact ⟨stage, flag⟩
  · exact (set hs h).1
  · obtain ⟨resumed, stage, -⟩ := (if_pos ⟨hs, h1, h3, hn⟩).mp h
    exact ⟨resumed, stage⟩
  · rw [State.hosted_served hs]
    exact stateRequest_safe_waits hn hl h3 hi hq
  · obtain ⟨status, -, -, -, faster⟩ := begins hs hm hc hl.ne hb
    exact ⟨status, faster hl⟩
  · obtain ⟨-, -, quietly⟩ := h hs hn hl
    exact quietly h3 hd hq
  · obtain ⟨stage, on, -, store⟩ := h hs hn hl h3 hw
    exact ⟨stage, on, store⟩
  · obtain ⟨stage, -, -, store⟩ := h x hx hr hq h11 hw
    exact ⟨stage, store⟩
  · obtain ⟨left, idle, -⟩ := h hl hv hr
    exact ⟨left, idle⟩
  · exact ((if_neg (by simp [on])).mp h).1

end Sys2Proof.Machine
end

section
/-!
SUPPORT. The registers of a path that other blocks' operations leave: PTH_CTRL, and the interrupt flags of PTH_INT_STATUS once asserted (R124 to R127).
-/

namespace Sys2Proof.Machine

/-- The PTH_CTRL registers are as they were, and no flag of a PTH_INT_STATUS register has gone. -/
structure PathRegsKept (s t : State) : Prop where
  ctrl : ∀ p, t.reg (Reg.PTH_CTRL p) = s.reg (Reg.PTH_CTRL p)
  flag : ∀ p i, i < 32 → s.bit (Reg.PTH_INT_STATUS p) i = true → t.bit (Reg.PTH_INT_STATUS p) i = true

variable {s₀ s t : State}

theorem PathRegsKept.refl (s : State) : PathRegsKept s s := ⟨fun _ => rfl, fun _ _ _ h => h⟩

theorem PathRegsKept.trans {u : State} (h : PathRegsKept s t) (k : PathRegsKept t u) : PathRegsKept s u :=
  ⟨fun p => (k.ctrl p).trans (h.ctrl p), fun p i hi b => k.flag p i hi (h.flag p i hi b)⟩

/-- Operations that leave every register leave those of the paths. -/
theorem PathRegsKept.of_regs (h : PathRegsKept s₀ s) (e : ∀ a, t.reg a = s.reg a) : PathRegsKept s₀ t :=
  ⟨fun p => (e _).trans (h.ctrl p), fun p i hi b => by rw [State.bit, e]; exact h.flag p i hi b⟩

theorem PathRegsKept.of_kept {L : Part → Bool} (h : PathRegsKept s₀ s) (K : Kept L s t) (hL : L .regs = false) : PathRegsKept s₀ t :=
  h.of_regs (K.reg hL)

theorem PathRegsKept.ite {c : Prop} [Decidable c] {u : State} (h : PathRegsKept s₀ t) (h' : PathRegsKept s₀ u) :
    PathRegsKept s₀ (if c then t else u) := by
  split
  · exact h
  · exact h'

/-- An address that is none of a path's control or interrupt flags: it is below the PTH blocks, or at another place in its block. -/
def noPathReg (a : Nat) : Prop := a < 0x02000000 ∨ a % 16 ≠ 4

theorem noPathReg.ne_ctrl {a : Nat} (h : noPathReg a) (p : Nat) : Reg.PTH_CTRL p ≠ a := by
  unfold noPathReg at h; unfold Reg.PTH_CTRL; omega

theorem noPathReg.ne_flags {a : Nat} (h : noPathReg a) (p : Nat) : Reg.PTH_INT_STATUS p ≠ a := by
  unfold noPathReg at h; unfold Reg.PTH_INT_STATUS; omega

theorem setReg_pathRegs {a : Nat} (ha : noPathReg a) (w : Word) (h : PathRegsKept s₀ s) : PathRegsKept s₀ (s.setReg a w) :=
  h.trans ⟨fun p => State.reg_setReg_ne s w (ha.ne_ctrl p), fun p i _ b => by
    rw [State.bit, State.reg_setReg_ne s w (ha.ne_flags p)]; exact b⟩

/-- A flag of any block but PTH_CTRL can be asserted. -/
theorem raise_pathRegs {a b : Nat} (ha : ∀ p, Reg.PTH_CTRL p ≠ a) (h : PathRegsKept s₀ s) : PathRegsKept s₀ (s.raise a b) :=
  h.trans ⟨fun p => State.raise_reg_ne s (ha p), fun _ _ hi f => State.bit_raise_of_bit s hi f⟩

theorem logPut_pathRegs {kind index cls : Nat} {ev : Bool} {detail : Word} (h : PathRegsKept s₀ s) :
    PathRegsKept s₀ (s.logPut kind index cls ev detail) := by
  have low : noPathReg Reg.GLB_INT_STATUS ∧ noPathReg Reg.GLB_LOG_LOST := ⟨.inl (by decide), .inl (by decide)⟩
  refine h.trans ⟨fun p => State.logPut_reg s (low.1.ne_ctrl p) (low.2.ne_ctrl p), fun p i _ b => ?_⟩
  rw [State.bit, State.logPut_reg s (low.1.ne_flags p) (low.2.ne_flags p)]
  exact b

theorem event_pathRegs {a b index : Nat} {detail : Word} (ha : noPathReg a) (h : PathRegsKept s₀ s) :
    PathRegsKept s₀ (s.event a b index detail) := logPut_pathRegs (raise_pathRegs ha.ne_ctrl h)

theorem pathEvent_pathRegs {q b : Nat} {detail : Word} (h : PathRegsKept s₀ s) : PathRegsKept s₀ (s.pathEvent q b detail) :=
  logPut_pathRegs (raise_pathRegs (fun p => by unfold Reg.PTH_CTRL Reg.PTH_INT_STATUS; omega) h)

theorem forAll_pathRegs {α : Type} {f : α → State → State} (l : List α) (hf : ∀ x t, PathRegsKept s₀ t → PathRegsKept s₀ (f x t))
    (h : PathRegsKept s₀ s) : PathRegsKept s₀ (forAll l f s) := forAll_induct hf l h

/-! ### Messages and reports -/

theorem post_pathRegs {k port msg tag : Nat} {body : List Byte} (h : PathRegsKept s₀ s) : PathRegsKept s₀ (s.post k port msg tag body) := by
  have lost : noPathReg (Reg.FHP_FLOCK_CTRL_LOST k) := .inr (by unfold Reg.FHP_FLOCK_CTRL_LOST; omega)
  have int : noPathReg Reg.FHP_INT_STATUS := .inl (by decide)
  refine h.trans ⟨fun p => State.post_reg s (lost.ne_ctrl p) (int.ne_ctrl p), fun p i _ b => ?_⟩
  rw [State.bit, State.post_reg s (lost.ne_flags p) (int.ne_flags p)]
  exact b

theorem notice_pathRegs {k ev detail param : Nat} (h : PathRegsKept s₀ s) : PathRegsKept s₀ (s.notice k ev detail param) := by
  unfold State.notice
  split
  · exact h
  · split
    · exact h
    · exact post_pathRegs (h.of_regs fun _ => rfl)

theorem hostBurstReport_pathRegs {r : BurstReport} (h : PathRegsKept s₀ s) : PathRegsKept s₀ (hostBurstReport r s) := by
  have int : noPathReg Reg.RAD_INT_STATUS := .inl (by decide)
  have dropped : noPathReg Reg.RAD_REPORT_DROPPED := .inl (by decide)
  exact .ite (raise_pathRegs int.ne_ctrl (setReg_pathRegs dropped _ h)) (raise_pathRegs int.ne_ctrl (h.of_regs fun _ => rfl))

theorem reportUp_pathRegs {sub tag : Nat} {body : List Byte} (h : PathRegsKept s₀ s) : PathRegsKept s₀ (reportUp sub tag body s) :=
  h.of_kept (reportUp_keeps (L := fun p => decide (p ∈ [Part.cas])) rfl (Kept.refl _ s)) rfl

theorem burstReport_pathRegs {g : Nat} {b : Burst} {outcome code : Nat} (h : PathRegsKept s₀ s) :
    PathRegsKept s₀ (burstReport g b outcome code s) := by
  have int : noPathReg Reg.RAD_INT_STATUS := .inl (by decide)
  have throttle : noPathReg Reg.THM_THROTTLE := .inl (by decide)
  have logged (detail : Word) : PathRegsKept s₀ (if outcome ≥ 3 then s.event Reg.RAD_INT_STATUS 0 g detail else s) :=
    .ite (event_pathRegs int h) h
  have counted {u : State} (hu : PathRegsKept s₀ u) : PathRegsKept s₀
      (if code = 0x22 then (if outcome = 3 then u.addHi Reg.THM_THROTTLE 1 else u.addLo Reg.THM_THROTTLE 1) else u) :=
    .ite (.ite (setReg_pathRegs throttle _ hu) (setReg_pathRegs throttle _ hu)) hu
  unfold burstReport; dsimp only
  split
  · exact hostBurstReport_pathRegs (counted (logged _))
  · exact post_pathRegs (counted (logged _))
  · exact .ite (reportUp_pathRegs (counted (logged _))) (counted (logged _))

/-! ### Bursts and groups -/

theorem afterBurst_pathRegs {g : Nat} {b : Burst} (h : PathRegsKept s₀ s) : PathRegsKept s₀ (afterBurst g b s) :=
  h.of_kept (afterBurst_keeps (L := fun p => decide (p ∈ [Part.pstate, .rad])) rfl rfl (Kept.refl _ s)) rfl

theorem settle_pathRegs {g : Nat} (h : PathRegsKept s₀ s) : PathRegsKept s₀ (settle g s) :=
  h.of_kept (settle_keeps (L := fun p => decide (p ∈ [Part.pstate, .rad])) rfl rfl (Kept.refl _ s)) rfl

theorem burstOut_pathRegs {g : Nat} {b : Burst} {code : Nat} (h : PathRegsKept s₀ s) : PathRegsKept s₀ (burstOut g b code s) := by
  have removed : PathRegsKept s₀ (removeBurst g b.seq s) := h.of_regs fun _ => rfl
  have reported (outcome : Nat) : PathRegsKept s₀ (burstReport g b outcome code (removeBurst g b.seq s)) := burstReport_pathRegs removed
  unfold burstOut; dsimp only
  split
  · exact afterBurst_pathRegs (.ite removed (reported _))
  · exact settle_pathRegs (.ite ((reported 3).of_regs fun _ => rfl) (reported 3))

theorem burstsOut_pathRegs {g code : Nat} {p : Burst → Bool} (h : PathRegsKept s₀ s) : PathRegsKept s₀ (burstsOut g code p s) :=
  forAll_pathRegs _ (fun _ _ => burstOut_pathRegs) h

theorem throttleCut_pathRegs {g : Nat} (h : PathRegsKept s₀ s) : PathRegsKept s₀ (throttleCut g s) := .ite (burstsOut_pathRegs h) h

theorem goTo_pathRegs {g : Nat} {st : GState} (h : PathRegsKept s₀ s) : PathRegsKept s₀ (goTo g st s) :=
  h.of_kept (goTo_keeps (L := fun p => decide (p ∈ [Part.pstate, .rad])) rfl rfl (Kept.refl _ s)) rfl

theorem stageCut_pathRegs {g : Nat} (h : PathRegsKept s₀ s) : PathRegsKept s₀ (stageCut g s) := by
  have cut : PathRegsKept s₀ (if s.pwr.leaving4 then burstsOut g 0x25 (fun b => b.started && b.tx) s else s) :=
    .ite (burstsOut_pathRegs h) h
  exact .ite (goTo_pathRegs (burstsOut_pathRegs (cut.of_regs fun _ => rfl))) cut

theorem cutLost_pathRegs {r : Nat} (h : PathRegsKept s₀ s) : PathRegsKept s₀ (cutLost r s) :=
  forAll_pathRegs _ (fun g t ht => by
    split
    · exact forAll_pathRegs _ (fun b u hu => burstReport_pathRegs (hu.of_regs fun _ => rfl)) ht
    · exact ht) h

/-! ### Roles that become valid or invalid -/

theorem attemptStatus_pathRegs {p result code : Nat} (h : PathRegsKept s₀ s) : PathRegsKept s₀ (attemptStatus p result code s) := by
  have status : noPathReg (Reg.DPD_STATUS p) := .inr (by unfold Reg.DPD_STATUS; omega)
  exact setReg_pathRegs status _ (setReg_pathRegs status _ h)

theorem attemptReject_pathRegs {p code : Nat} (h : PathRegsKept s₀ s) : PathRegsKept s₀ (attemptReject p code s) := by
  have int : noPathReg Reg.DPD_INT_STATUS := .inl (by decide)
  exact logPut_pathRegs (raise_pathRegs int.ne_ctrl (attemptStatus_pathRegs (h.of_regs fun _ => rfl)))

theorem discardBlock_pathRegs {p code : Nat} (h : PathRegsKept s₀ s) : PathRegsKept s₀ (discardBlock p code s) := by
  have status : noPathReg (Reg.DPD_STATUS p) := .inr (by unfold Reg.DPD_STATUS; omega)
  have noted := setReg_pathRegs status (put (s.reg (Reg.DPD_STATUS p)) 23 16 code) h
  unfold discardBlock
  split
  · split
    · exact attemptReject_pathRegs h
    · exact noted.of_regs fun _ => rfl
  · split
    · exact attemptReject_pathRegs h
    · exact noted.of_regs fun _ => rfl
  · exact h

theorem dropBlocks_pathRegs {r : Nat} (h : PathRegsKept s₀ s) : PathRegsKept s₀ (dropBlocks r s) :=
  forAll_pathRegs _ (fun o t ht => by
    unfold dropBlock
    split
    · exact discardBlock_pathRegs (ht.of_regs fun _ => rfl)
    · exact ht) h

theorem noticeRole_pathRegs {r : Nat} {valid : Bool} (h : PathRegsKept s₀ s) : PathRegsKept s₀ (noticeRole r valid s) :=
  forAll_pathRegs _ (fun _ _ => notice_pathRegs) h

theorem refreshMutes_pathRegs (h : PathRegsKept s₀ s) : PathRegsKept s₀ (refreshMutes s) :=
  h.of_kept (refreshMutes_keeps (L := fun p => decide (p ∈ [Part.paths])) rfl (Kept.refl _ s)) rfl

theorem watchRoles_pathRegs {f : State → State} (hf : ∀ t, PathRegsKept s₀ t → PathRegsKept s₀ (f t)) (h : PathRegsKept s₀ s) :
    PathRegsKept s₀ (watchRoles f s) := by
  unfold watchRoles; dsimp only
  refine forAll_pathRegs _ (fun r t ht => ?_) (refreshMutes_pathRegs (hf _ (forAll_pathRegs _ (fun _ _ => dropBlocks_pathRegs) h)))
  split
  · exact ht
  · exact noticeRole_pathRegs ht

theorem beginSwap_pathRegs {r : Nat} (h : PathRegsKept s₀ s) : PathRegsKept s₀ (beginSwap r s) :=
  h.of_kept (beginSwap_keeps (L := fun p => decide (p ∈ [Part.syn])) rfl (Kept.refl _ s)) rfl

theorem gapStart_pathRegs {r : Nat} (h : PathRegsKept s₀ s) : PathRegsKept s₀ (gapStart r s) := by
  unfold gapStart; dsimp only
  split
  · exact h
  · split
    · exact cutLost_pathRegs (watchRoles_pathRegs (fun t ht => (beginSwap_pathRegs ht).of_regs fun _ => rfl) h)
    · split
      · exact cutLost_pathRegs (watchRoles_pathRegs (fun t ht => ht.of_regs fun _ => rfl) h)
      · exact h

theorem jobsResume_pathRegs (h : PathRegsKept s₀ s) : PathRegsKept s₀ (jobsResume s) := by
  unfold jobsResume
  split
  · exact gapStart_pathRegs (gapStart_pathRegs h)
  · exact h

/-- Groups of a role, or those of the converter clock, that resume note it. -/
theorem resumed_pathRegs {c : Prop} [Decidable c] {i : Nat} (e : ∀ a, t.reg a = s.reg a) (h : PathRegsKept s₀ s) :
    PathRegsKept s₀ (if c then t.event Reg.SYN_INT_STATUS 1 i 0 else s) :=
  .ite (event_pathRegs (.inl (by decide)) (h.of_regs e)) h

/-- A change of the SYN block that moves the validity of the roles. -/
theorem watched_pathRegs {f : State → State} (hf : ∀ t a, (f t).reg a = t.reg a) (h : PathRegsKept s₀ s) :
    PathRegsKept s₀ (watchRoles f s) := watchRoles_pathRegs (fun t ht => ht.of_regs (hf t)) h

theorem resumeAt_pathRegs {g : Nat} (h : PathRegsKept s₀ s) : PathRegsKept s₀ (resumeAt g s) := by
  unfold resumeAt
  refine resumed_pathRegs (fun _ => rfl) ?_
  refine forAll_pathRegs _ (fun _ _ ht => resumed_pathRegs (fun _ => rfl) ht) ?_
  refine forAll_pathRegs _ (fun _ _ ht => .ite (watched_pathRegs (fun _ _ => rfl) ht) ht) ?_
  exact .ite (jobsResume_pathRegs (watched_pathRegs (fun _ _ => rfl) h)) h

/-! ### Streams that stop -/

theorem segPut_pathRegs {st a first : Nat} {es : List (List Byte)} {header : List Byte} (h : PathRegsKept s₀ s) :
    PathRegsKept s₀ (segPut st a first es header s) :=
  h.of_kept (segPut_keeps (L := fun p => decide (p ∈ [Part.drc])) rfl (Kept.refl _ s)) rfl

theorem dmaEvent_pathRegs {n : Nat} (h : PathRegsKept s₀ s) : PathRegsKept s₀ (dmaEvent n s) :=
  h.of_kept (dmaEvent_keeps (L := fun p => decide (p ∈ [Part.dma])) rfl (Kept.refl _ s)) rfl

theorem modStream_pathRegs {st : Nat} {f : Stream → Stream} (h : PathRegsKept s₀ s) : PathRegsKept s₀ (s.modStream st f) :=
  h.of_regs fun _ => rfl

theorem storeSegment_pathRegs {st : Nat} {samples : List Cplx} {k : SegMarks} {aborted : Bool} (h : PathRegsKept s₀ s) :
    PathRegsKept s₀ (storeSegment st samples k aborted s) := by
  have int : noPathReg Reg.ACQ_INT_STATUS := .inl (by decide)
  have counted {u : State} (hu : PathRegsKept s₀ u) : PathRegsKept s₀ (u.addReg (Reg.ACQ_SEG_DONE st) 1) :=
    setReg_pathRegs (.inr (by unfold Reg.ACQ_SEG_DONE; omega)) _ hu
  have flagged {c : Prop} [Decidable c] {u : State} (hu : PathRegsKept s₀ u) :
      PathRegsKept s₀ (if c then u.raise Reg.ACQ_INT_STATUS 4 else u) := .ite (raise_pathRegs int.ne_ctrl hu) hu
  unfold storeSegment
  exact dmaEvent_pathRegs (raise_pathRegs int.ne_ctrl (flagged (counted (modStream_pathRegs (segPut_pathRegs h)))))

theorem streamStop_pathRegs {st : Nat} (h : PathRegsKept s₀ s) : PathRegsKept s₀ (streamStop st s) := by
  have int : noPathReg Reg.ACQ_INT_STATUS := .inl (by decide)
  have released {c : Prop} [Decidable c] {i j : Nat} {x y : ObsHolder} {u : State} (hu : PathRegsKept s₀ u) :
      PathRegsKept s₀ (if c then obsRelease i x (obsWithdraw j y u) else u) := .ite (hu.of_regs fun _ => rfl) hu
  have stored := storeSegment_pathRegs (st := st) (samples := Config.abortedSamples s.draw.1) (aborted := true)
    (k := { loInvalid := false, gap := false, dcFrozen := false, stored := none }) (h.of_regs (t := s.draw.2) fun _ => rfl)
  unfold streamStop
  exact .ite h (modStream_pathRegs (released (.ite (raise_pathRegs int.ne_ctrl stored) h)))

theorem stopStreams_pathRegs {n : Nat} {l : List Nat} (h : PathRegsKept s₀ s) : PathRegsKept s₀ (stopStreams n l s) := by
  induction n generalizing s l with
  | zero => exact h
  | succ n ih => exact .ite h (ih (forAll_pathRegs _ (fun _ _ => streamStop_pathRegs) h))

/-! ### Faults and reserves of paths -/

theorem writeReserveMap_pathRegs {kinds : List Nat} (h : PathRegsKept s₀ s) : PathRegsKept s₀ (writeReserveMap kinds s) :=
  h.of_kept (writeReserveMap_keeps (L := fun p => decide (p ∈ [Part.nvs])) rfl (Kept.refl _ s)) rfl

theorem engageReserve_pathRegs {r : Nat} (h : PathRegsKept s₀ s) : PathRegsKept s₀ (engageReserve r s) :=
  h.of_kept (engageReserve_keeps (L := fun p => decide (p ∈ [Part.glb, .nvs])) rfl rfl (Kept.refl _ s)) rfl

theorem reserveLow_pathRegs (h : PathRegsKept s₀ s) : PathRegsKept s₀ s.reserveLow :=
  raise_pathRegs (noPathReg.ne_ctrl (.inl (by decide))) h

theorem attemptEnd_pathRegs {p code : Nat} (h : PathRegsKept s₀ s) : PathRegsKept s₀ (attemptEnd p code s) := by
  unfold attemptEnd
  split
  · exact h
  · exact logPut_pathRegs (attemptStatus_pathRegs (h.of_regs fun _ => rfl))

theorem noticePathFault_pathRegs {tx : Bool} {p : Nat} (h : PathRegsKept s₀ s) : PathRegsKept s₀ (noticePathFault tx p s) :=
  forAll_pathRegs _ (fun _ _ => notice_pathRegs) h

theorem chainFaultTx_pathRegs {p : Nat} (h : PathRegsKept s₀ s) : PathRegsKept s₀ (chainFaultTx p s) := by
  unfold chainFaultTx; dsimp only
  split
  · exact h
  · exact stopStreams_pathRegs (noticePathFault_pathRegs (attemptEnd_pathRegs (pathEvent_pathRegs (h.of_regs fun _ => rfl))))

theorem chainFaultRx_pathRegs {p : Nat} (h : PathRegsKept s₀ s) : PathRegsKept s₀ (chainFaultRx p s) := by
  unfold chainFaultRx; dsimp only
  split
  · exact h
  · exact stopStreams_pathRegs (noticePathFault_pathRegs (pathEvent_pathRegs (h.of_regs fun _ => rfl)))

theorem faultTx_pathRegs {p : Nat} (h : PathRegsKept s₀ s) : PathRegsKept s₀ (faultTx p s) := by
  unfold faultTx; dsimp only
  split
  · exact h
  · split
    · exact chainFaultTx_pathRegs h
    · exact writeReserveMap_pathRegs (chainFaultTx_pathRegs h)

theorem faultRx_pathRegs {p : Nat} (h : PathRegsKept s₀ s) : PathRegsKept s₀ (faultRx p s) := by
  unfold faultRx; dsimp only
  split
  · exact h
  · exact writeReserveMap_pathRegs (chainFaultRx_pathRegs h)

theorem faultSoon_pathRegs {p : Nat} (h : PathRegsKept s₀ s) : PathRegsKept s₀ (faultSoon p s) := by
  unfold faultSoon
  split
  · exact h
  · exact faultRx_pathRegs (faultTx_pathRegs h)

theorem adcExhausted_pathRegs {p pos : Nat} {q : Bool} (h : PathRegsKept s₀ s) : PathRegsKept s₀ (adcExhausted p q pos s) :=
  h.of_kept (adcExhausted_keeps (L := fun p => decide (p ∈ [Part.nvs, .paths])) rfl rfl (Kept.refl _ s)) rfl

theorem adcSwap_pathRegs {p : Nat} {q : Bool} (h : PathRegsKept s₀ s) : PathRegsKept s₀ (adcSwap p q s) := by
  unfold adcSwap; dsimp only
  split
  · exact h
  · split
    · exact h
    · exact forAll_pathRegs _ (fun _ _ => adcExhausted_pathRegs)
        (reserveLow_pathRegs (engageReserve_pathRegs (pathEvent_pathRegs (h.of_regs fun _ => rfl))))

theorem modDac_pathRegs {p : Nat} {q : Bool} {f : Dac → Dac} (h : PathRegsKept s₀ s) : PathRegsKept s₀ (modDac p q f s) :=
  h.of_regs fun _ => rfl

theorem dacExhausted_pathRegs {p : Nat} {q : Bool} (h : PathRegsKept s₀ s) : PathRegsKept s₀ (dacExhausted p q s) :=
  h.of_regs fun _ => rfl

theorem dacReplace_pathRegs {p seg : Nat} {q : Bool} (h : PathRegsKept s₀ s) : PathRegsKept s₀ (dacReplace p q seg s) := by
  have low {c : Prop} [Decidable c] {u : State} (hu : PathRegsKept s₀ u) : PathRegsKept s₀ (if c then u.reserveLow else u) :=
    .ite (reserveLow_pathRegs hu) hu
  unfold dacReplace
  exact .ite (dacExhausted_pathRegs (modDac_pathRegs h))
    (low (engageReserve_pathRegs (pathEvent_pathRegs (modDac_pathRegs (modDac_pathRegs h)))))

theorem convSwaps_pathRegs {ps : List Nat} (h : PathRegsKept s₀ s) : PathRegsKept s₀ (convSwaps ps s) :=
  forAll_pathRegs _ (fun x t ht => by
    split
    · exact dacReplace_pathRegs ht
    · exact adcSwap_pathRegs ht) h

theorem applyTrim_pathRegs {tx : Bool} {p : Nat} (h : PathRegsKept s₀ s) : PathRegsKept s₀ (applyTrim tx p s) := by
  have flags : ∀ q, Reg.PTH_CTRL q ≠ Reg.PTH_INT_STATUS p := fun q => by unfold Reg.PTH_CTRL Reg.PTH_INT_STATUS; omega
  unfold applyTrim; dsimp only
  split
  · exact raise_pathRegs flags (h.of_regs fun _ => rfl)
  · exact h.of_regs fun _ => rfl

end Sys2Proof.Machine
end

section
/-!
SUPPORT. A boundary of a group on its paths: what the faults, swaps and trims of one path leave of the others, and the host settings that a
path takes (R104, R126).
-/

namespace Sys2Proof.Machine

/-! ### The row of paths -/

theorem pathOf_modPath_same {p : Nat} (hp : p < 64) (f : PathSt → PathSt) (s : State) : pathOf (s.modPath p f) p = f (pathOf s p) :=
  vget_vmod_same _ _ hp

theorem pathOf_modPath_ne {p j : Nat} (hj : j ≠ p) (f : PathSt → PathSt) (s : State) : pathOf (s.modPath p f) j = pathOf s j :=
  vget_vmod_ne _ _ hj

theorem pathOf_congr {s t : State} (h : t.paths = s.paths) (p : Nat) : pathOf t p = pathOf s p := by
  unfold pathOf; rw [h]

/-- Every part of the state but the paths. -/
def outsidePaths (p : Part) : Bool := decide (p ≠ .paths)

@[simp] theorem stopStreamsIf_paths (f : Nat → Bool) (s : State) : (stopStreamsIf f s).paths = s.paths :=
  (stopStreamsIf_keeps rfl rfl rfl rfl rfl rfl (Kept.refl outsidePaths s)).paths rfl

@[simp] theorem noticePathFault_paths (tx : Bool) (p : Nat) (s : State) : (noticePathFault tx p s).paths = s.paths :=
  (noticePathFault_keeps rfl rfl (Kept.refl outsidePaths s)).paths rfl

@[simp] theorem attemptEnd_paths (p code : Nat) (s : State) : (attemptEnd p code s).paths = s.paths :=
  (attemptEnd_keeps rfl rfl rfl (Kept.refl outsidePaths s)).paths rfl

@[simp] theorem writeReserveMap_paths (kinds : List Nat) (s : State) : (writeReserveMap kinds s).paths = s.paths :=
  (writeReserveMap_keeps rfl (Kept.refl outsidePaths s)).paths rfl

/-! ### What a path's boundary leaves of another path -/

section

variable {p j : Nat} (hj : j ≠ p) (s : State)
include hj

theorem pathOf_refreshPath_ne : pathOf (refreshPath p s) j = pathOf s j := pathOf_modPath_ne hj _ s

theorem pathOf_chainFaultTx_ne : pathOf (chainFaultTx p s) j = pathOf s j := by
  unfold chainFaultTx; dsimp only
  split
  · rfl
  · rw [pathOf_congr (stopStreamsIf_paths ..), pathOf_congr (noticePathFault_paths ..), pathOf_congr (attemptEnd_paths ..),
      pathOf_congr (State.pathEvent_paths ..), pathOf_refreshPath_ne hj, pathOf_modPath_ne hj]

theorem pathOf_chainFaultRx_ne : pathOf (chainFaultRx p s) j = pathOf s j := by
  unfold chainFaultRx; dsimp only
  split
  · rfl
  · rw [pathOf_congr (stopStreamsIf_paths ..), pathOf_congr (noticePathFault_paths ..), pathOf_congr (State.pathEvent_paths ..),
      pathOf_modPath_ne hj]

theorem pathOf_faultTx_ne : pathOf (faultTx p s) j = pathOf s j := by
  unfold faultTx; dsimp only
  split
  · rfl
  · split
    · exact pathOf_chainFaultTx_ne hj s
    · rw [pathOf_congr (writeReserveMap_paths ..), pathOf_chainFaultTx_ne hj]

theorem pathOf_faultRx_ne : pathOf (faultRx p s) j = pathOf s j := by
  unfold faultRx; dsimp only
  split
  · rfl
  · rw [pathOf_congr (writeReserveMap_paths ..), pathOf_chainFaultRx_ne hj]

theorem pathOf_applyTrim_ne (tx : Bool) : pathOf (applyTrim tx p s) j = pathOf s j := by
  unfold applyTrim; dsimp only
  split
  · rw [pathOf_congr (State.raise_paths ..), pathOf_modPath_ne hj]
  · exact pathOf_modPath_ne hj _ s

theorem pathOf_pathBoundary_ne : pathOf (pathBoundary p s) j = pathOf s j := by
  unfold pathBoundary applyRxAtten applyTxAtten clearOcpDue; dsimp only
  rw [pathOf_modPath_ne hj, pathOf_modPath_ne hj, pathOf_applyTrim_ne hj, pathOf_applyTrim_ne hj, pathOf_modPath_ne hj, pathOf_modPath_ne hj,
    pathOf_faultRx_ne hj, pathOf_faultTx_ne hj, pathOf_modPath_ne hj]

end

/-! ### The settings that a path takes at its boundary (R104, R126, R127) -/

/-- Over-current recovery is over, and the host's mute is the one of PTH_CTRL. -/
def settingsTaken (p : Nat) (t : State) : Prop := (pathOf t p).ocp = false ∧ (pathOf t p).hostMute = t.bit (Reg.PTH_CTRL p) 0

theorem pathBoundary_takes (p : Fin 64) (s : State) : settingsTaken p (pathBoundary p s) := by
  unfold pathBoundary settingsTaken State.bit; dsimp only
  simp only [pathOf_modPath_same p.isLt, State.modPath_reg, true_and]

theorem pathBoundary_pathRegs {p : Nat} {s₀ s : State} (h : PathRegsKept s₀ s) : PathRegsKept s₀ (pathBoundary p s) := by
  have atten {u : State} (hu : PathRegsKept s₀ u) : PathRegsKept s₀ (applyRxAtten p (applyTxAtten p u)) := hu.of_regs fun _ => rfl
  have faults := faultRx_pathRegs (p := p) (faultTx_pathRegs (p := p) (h.of_regs (t := clearOcpDue p s) fun _ => rfl))
  exact (applyTrim_pathRegs (applyTrim_pathRegs (atten faults))).of_regs fun _ => rfl

/-- The boundary of one path leaves the settings taken by another. -/
theorem pathBoundary_settingsTaken (p : Fin 64) (j : Nat) {t : State} (h : settingsTaken p t) : settingsTaken p (pathBoundary j t) := by
  by_cases hj : p.val = j
  · exact hj ▸ pathBoundary_takes p t
  · have regs := pathBoundary_pathRegs (p := j) (PathRegsKept.refl t)
    unfold settingsTaken State.bit at h ⊢
    rw [pathOf_pathBoundary_ne hj, regs.ctrl]
    exact h

/-- What every change of a list keeps and the change of one element reaches, all of them reach. -/
theorem forAll_reaches {α : Type} {f : α → State → State} {P : State → Prop} {x : α} {l : List α} (hx : x ∈ l) (reach : ∀ t, P (f x t))
    (keep : ∀ y t, P t → P (f y t)) (s : State) : P (forAll l f s) := by
  induction l generalizing s with
  | nil => cases hx
  | cons y l ih =>
    rcases List.mem_cons.mp hx with rfl | hx
    · exact forAll_induct keep l (reach s)
    · exact ih hx (f y s)

/-- What a boundary of a group applies before it comes to the paths. -/
def boundaryBegun (g : Nat) (s : State) : State := resumeAt g (rotBoundary g (lineBoundary g (stageCut g (throttleCut g s))))

theorem groupBoundary_eq (g : Nat) (s : State) :
    groupBoundary g s = forAll (pathsOfGroup (boundaryBegun g s) g) pathBoundary (convSwaps (pathsOfGroup (boundaryBegun g s) g) (boundaryBegun g s)) :=
  rfl

theorem boundaryBegun_wrp (g : Nat) (s : State) : (boundaryBegun g s).wrp = s.wrp :=
  (resumeAt_keeps rfl rfl rfl rfl rfl rfl rfl rfl (rotBoundary_keeps rfl (lineBoundary_keeps rfl (stageCut_keeps rfl rfl rfl rfl rfl rfl
    (throttleCut_keeps rfl rfl rfl rfl rfl rfl (Kept.refl outsideWrp s)))))).wrp rfl

theorem boundaryBegun_pathRegs (g : Nat) (s : State) : PathRegsKept s (boundaryBegun g s) := by
  have cut : PathRegsKept s (stageCut g (throttleCut g s)) := stageCut_pathRegs (throttleCut_pathRegs (PathRegsKept.refl s))
  have lines := cut.of_kept (lineBoundary_keeps (g := g) (L := fun p => decide (p ∈ [Part.rad])) rfl (Kept.refl _ _)) rfl
  exact resumeAt_pathRegs (lines.of_kept (rotBoundary_keeps (L := fun p => decide (p ∈ [Part.syn])) rfl (Kept.refl _ _)) rfl)

/-- At a boundary of its group a path takes its settings of PTH_CTRL. -/
theorem groupBoundary_takes {s : State} {p : Fin 64} {g : Nat} (h : s.groupOf p = g) :
    (pathOf (groupBoundary g s) p).ocp = false ∧ (pathOf (groupBoundary g s) p).hostMute = s.bit (Reg.PTH_CTRL p) 0 := by
  have group : (boundaryBegun g s).groupOf p = g := by
    rw [← h, State.groupOf, State.pathCfg, State.warp, boundaryBegun_wrp]; rfl
  have member : p.val ∈ pathsOfGroup (boundaryBegun g s) g :=
    List.mem_filter.mpr ⟨List.mem_range.mpr p.isLt, by simpa using group⟩
  have regs : PathRegsKept s (groupBoundary g s) :=
    forAll_pathRegs _ (fun _ _ => pathBoundary_pathRegs) (convSwaps_pathRegs (boundaryBegun_pathRegs g s))
  have taken : settingsTaken p (groupBoundary g s) :=
    forAll_reaches member (pathBoundary_takes p) (fun j _ => pathBoundary_settingsTaken p j) _
  obtain ⟨ocp, mute⟩ := taken
  exact ⟨ocp, mute.trans (congrArg (bitOf · 0) (regs.ctrl p))⟩

end Sys2Proof.Machine
end

section
/-!
SUPPORT. Paths while their group runs: host settings, the blocks and failures of ADCs, the segments of DACs, over-current and overload (R105 to
R128).
-/

namespace Sys2Proof.Machine

/-! ### Group states and converters -/

theorem pathInRx_congr {s t : State} (hw : t.wrp = s.wrp) (hr : t.rad = s.rad) (p : Nat) : pathInRx t p = pathInRx s p := by
  unfold pathInRx groupRx State.groupOf State.pathCfg State.warp; rw [hw, hr]

theorem pathInTx_congr {s t : State} (hw : t.wrp = s.wrp) (hr : t.rad = s.rad) (p : Nat) : pathInTx t p = pathInTx s p := by
  unfold pathInTx groupTx State.groupOf State.pathCfg State.warp; rw [hw, hr]

theorem convertersOn_of {s : State} (h : s.pwr.level ≠ 3) : convertersOn s = true := by simpa [convertersOn] using h

/-- A fault waits for the boundary while the group is in TX or in RX. -/
theorem faultSoon_waits {p : Nat} {s : State} (h : pathInTx s p = true ∨ pathInRx s p = true) : faultSoon p s = s := if_pos h

theorem adcSwapSoon_waits {p : Nat} {s : State} (h : pathInRx s p = true) (q : Bool) : adcSwapSoon p q s = s := if_pos h

theorem present_pathInt (o : Order) (p : Fin 64) : absentReg o (Reg.PTH_INT_STATUS p) = false := by
  have block : Reg.PTH_INT_STATUS p / 0x10000 = 512 + p.val := by unfold Reg.PTH_INT_STATUS; omega
  have other {b : Nat} (hb : b < 512) : (Reg.PTH_INT_STATUS p / 0x10000 == b) = false := by
    rw [block, beq_eq_false_iff_ne]; omega
  have units := And.intro (other (by decide : 0x12 < 512)) (And.intro (other (by decide : 0x10 < 512))
    (And.intro (other (by decide : 0xF < 512)) (other (by decide : 0xD < 512))))
  cases o <;> simp only [absentReg, units, Bool.false_and, Bool.or_self]

/-! ### Host settings (R105, R112, R126, R127) -/

theorem txAttenWrite_stores (p : Nat) (w : Word) (s : State) : (txAttenWrite p w s).fld (Reg.PTH_TX_ATTEN p) 6 0 = fld w 6 0 := by
  have stored := (State.fld_setFld s (Reg.PTH_TX_ATTEN p) (fld w 6 0) (by decide : 0 ≤ 6) (by decide)).trans
    (Nat.mod_eq_of_lt (fld_lt w 6 0))
  unfold txAttenWrite; dsimp only
  split
  · exact stored
  · exact stored

theorem rxAttenWrite_stores (p : Nat) (w : Word) (s : State) : (rxAttenWrite p w s).fld (Reg.PTH_RX_ATTEN p) 4 0 = min 30 (fld w 4 0) := by
  have stored := (State.fld_setFld s (Reg.PTH_RX_ATTEN p) (min 30 (fld w 4 0)) (by decide : 0 ≤ 4) (by decide)).trans
    (Nat.mod_eq_of_lt (by omega))
  unfold rxAttenWrite; dsimp only
  split
  · exact stored
  · exact stored

/-- With its chain running a user trim is stored and nothing else. -/
theorem trimUserWrite_waits {tx : Bool} {p : Nat} {s : State} (h : (if tx then pathInTx s p else pathInRx s p) = true) (w : Word) :
    trimUserWrite tx p w s = s.setFld (trimUserReg tx p) 17 0 (fld w 17 0) := by
  refine if_pos ?_
  rw [pathInTx_congr (State.setFld_wrp ..) (State.setFld_rad ..), pathInRx_congr (State.setFld_wrp ..) (State.setFld_rad ..)]
  exact h

theorem trimUserWrite_stores {tx : Bool} {p : Nat} {s : State} (h : (if tx then pathInTx s p else pathInRx s p) = true) (w : Word) :
    (trimUserWrite tx p w s).fld (trimUserReg tx p) 17 0 = fld w 17 0 := by
  rw [trimUserWrite_waits h]
  exact (State.fld_setFld s _ _ (by decide) (by decide)).trans (Nat.mod_eq_of_lt (fld_lt w 17 0))

/-- The host's mute as PTH_CTRL shows it, whenever it takes effect. -/
theorem txMuteWrite_stores (p : Nat) (mute now : Bool) (s : State) : (txMuteWrite p mute now s).bit (Reg.PTH_CTRL p) 0 = mute := by
  have kept : ((s.setFld (Reg.PTH_CTRL p) 0 0 (b2n mute)).setFld (Reg.PTH_CTRL p) 1 1 (b2n now)).bit (Reg.PTH_CTRL p) 0 = mute := by
    rw [State.bit, bitOf_eq, ← State.fld, State.fld_setFld_below _ _ _ (by decide) (by decide) (by decide) (by decide), State.fld, ← bitOf_eq]
    exact State.bit_setFld s _ mute (by decide)
  exact kept

theorem clearOcp_asked {p : Fin 64} {s : State} (hf : (pathOf s p).txFault = 3) (ht : pathInTx s p = false) :
    (pathOf (clearOcp p s) p).clearOcp = true := by
  rw [clearOcp, if_pos ⟨hf, by simp [ht]⟩, pathOf_modPath_same p.isLt]

/-! ### One ADC of a path (R113 to R118) -/

theorem adcOf_modAdc (p : Fin 64) (q : Bool) (f : Adc → Adc) (s : State) : adcOf (modAdc p q f s) p q = f (adcOf s p q) := by
  unfold adcOf modAdc
  rw [pathOf_modPath_same p.isLt]
  cases q <;> rfl

/-- A change of a path beside its ADCs. -/
theorem adcOf_modPath {p : Fin 64} {f : PathSt → PathSt} (hi : ∀ x, (f x).adcI = x.adcI) (hq : ∀ x, (f x).adcQ = x.adcQ) (q : Bool) (s : State) :
    adcOf (s.modPath p f) p q = adcOf s p q := by
  unfold adcOf
  rw [pathOf_modPath_same p.isLt, hi, hq]

theorem adcOf_congr {s t : State} (h : t.paths = s.paths) (p : Nat) (q : Bool) : adcOf t p q = adcOf s p q := by
  unfold adcOf; rw [pathOf_congr h]

theorem modAdc_rxFault (p : Fin 64) (q : Bool) (f : Adc → Adc) (s : State) : (pathOf (modAdc p q f s) p).rxFault = (pathOf s p).rxFault := by
  unfold modAdc
  rw [pathOf_modPath_same p.isLt]
  cases q <;> rfl

/-- A block with a difference of at most 4 LSB ends a run of bad ones. -/
theorem shadowBlock_good {p : Fin 64} {q : Bool} {rms : Nat} {s : State} (hs : (adcOf s p q).spare < 9) (hl : s.pwr.level ≠ 3)
    (hr : rms ≤ 64) : (adcOf (shadowBlock p q rms s) p q).bad = 0 := by
  have idle : ¬ ((adcOf s p q).spare ≥ 9 ∨ ¬ convertersOn s = true) := by simp [convertersOn_of hl]; omega
  have good : ¬ rms > 4 * 16 := by omega
  unfold shadowBlock; dsimp only
  rw [if_neg idle, if_neg good, if_neg (by decide), adcOf_modAdc]

/-- In RX a pass of the spare moves it to the next position, and nothing is swapped. -/
theorem shadowPass_moves {p : Fin 64} {q : Bool} {s : State} (hs : (adcOf s p q).spare < 9) (hl : s.pwr.level ≠ 3)
    (hr : pathInRx s p = true) : (adcOf (shadowPass p q s) p q).shadow = ((adcOf s p q).shadow + 1) % 8 := by
  have idle : ¬ ((adcOf s p q).spare ≥ 9 ∨ ¬ convertersOn s = true) := by simp [convertersOn_of hl]; omega
  have rx (f : Adc → Adc) : pathInRx (modAdc p q f s) p = true := hr
  unfold shadowPass; dsimp only
  rw [if_neg idle, adcSwapSoon_waits (rx _), faultSoon_waits (.inr (rx _)), adcOf_modAdc]

theorem nbit_withBit (n i : Nat) : nbit (withBit n i) i = true := by
  unfold withBit
  split
  next h => exact h
  next h =>
    have clear : n / 2 ^ i % 2 ≠ 1 := by simpa [nbit] using h
    have set : (n + 2 ^ i) / 2 ^ i = n / 2 ^ i + 1 := Nat.add_div_right n (by positivity)
    simp only [nbit, set, beq_iff_eq]
    omega

/-- Filling of a position of a path without RX fault begins, or goes on. -/
theorem fillBegin_fills {p : Fin 64} {q : Bool} {pos : Nat} {s : State} (hf : (pathOf s p).rxFault = 0) :
    nbit (adcOf (fillBegin p q pos s) p q).filling pos = true ∧ (pathOf (fillBegin p q pos s) p).rxFault = 0 := by
  unfold fillBegin
  split
  next h => exact ⟨h.resolve_right (by simp [hf]), hf⟩
  next h =>
    rw [adcOf_congr (State.pathEvent_paths ..), pathOf_congr (State.pathEvent_paths ..), adcOf_modAdc, modAdc_rxFault]
    exact ⟨nbit_withBit .., hf⟩

theorem fillBegin_inRx {p : Nat} {q : Bool} {pos : Nat} {s : State} : pathInRx (fillBegin p q pos s) p = pathInRx s p := by
  have K := fillBegin_keeps (p := p) (q := q) (pos := pos) (L := fun p => decide (p ∈ [Part.regs, .glb, .paths])) rfl rfl rfl (Kept.refl _ s)
  exact pathInRx_congr (K.wrp rfl) (K.rad rfl) p

/-- A failure that no spare replaces leaves what is being filled. -/
theorem adcExhausted_filling (p : Fin 64) (q : Bool) (pos : Nat) (s : State) :
    (adcOf (adcExhausted p q pos s) p q).filling = (adcOf s p q).filling := by
  unfold adcExhausted; dsimp only
  split
  · rw [adcOf_congr (writeReserveMap_paths ..), adcOf_modAdc]
  · rw [adcOf_modPath, adcOf_modAdc]
    · exact fun _ => rfl
    · exact fun _ => rfl

theorem adcExhausted_inRx {p pos : Nat} {q : Bool} {s : State} : pathInRx (adcExhausted p q pos s) p = pathInRx s p := by
  have K := adcExhausted_keeps (p := p) (q := q) (pos := pos) (L := fun p => decide (p ∈ [Part.nvs, .paths])) rfl rfl (Kept.refl _ s)
  exact pathInRx_congr (K.wrp rfl) (K.rad rfl) p

/-- A failure that waits for the spare leaves what is being filled. -/
theorem adcWaits_filling (p : Fin 64) (q gross : Bool) (pos : Nat) (s : State) :
    (adcOf (adcWaits p q gross pos s) p q).filling = (adcOf s p q).filling := by
  unfold adcWaits; dsimp only
  rw [adcOf_modAdc]
  rfl

/-- A gross failure in RX: its position is filled, and the swap or the fault waits for the boundary. -/
theorem adcFailed_gross_fills {p : Fin 64} {q : Bool} {pos : Nat} {s : State} (hr : pathInRx s p = true) (hf : (pathOf s p).rxFault = 0) :
    nbit (adcOf (adcFailed p q true pos s) p q).filling pos = true := by
  obtain ⟨fills, -⟩ := fillBegin_fills (q := q) (pos := pos) hf
  have rx : pathInRx (fillBegin p q pos s) p = true := fillBegin_inRx.trans hr
  unfold adcFailed; simp only [if_true]
  split
  · exact fills
  · split
    · rw [faultSoon_waits (.inr (adcExhausted_inRx.trans rx)), adcExhausted_filling]
      exact fills
    · have waits : pathInRx (adcWaits p q true pos (fillBegin p q pos s)) p = true := rx
      rw [adcSwapSoon_waits waits, faultSoon_waits (.inr waits), adcWaits_filling]
      exact fills

theorem clampI_of_mem {lo hi x : Int} (h1 : lo ≤ x) (h2 : x ≤ hi) : clampI lo hi x = x := by
  rw [clampI, if_neg (not_lt.mpr h1), if_neg (not_lt.mpr h2)]

/-- Corrections within their limits are stored, and no sub-converter fails. -/
theorem adcEstimate_stores {p : Fin 64} {o g k : Int} (ho : -96 ≤ o ∧ o ≤ 96) (hg : -400 ≤ g ∧ g ≤ 400) (hk : -70 ≤ k ∧ k ≤ 70)
    (q : Bool) (sub : Nat) (s : State) : tget noCorr (adcOf (adcEstimate p q sub o g k s) p q).corr sub = (o, g, k) := by
  unfold adcEstimate
  simp only [clampI_of_mem ho.1 ho.2, clampI_of_mem hg.1 hg.2, clampI_of_mem hk.1 hk.2, ne_eq, not_true_eq_false, if_false]
  have stored (f : Adc → Tab (Int × Int × Int)) : tget noCorr (adcOf (modAdc p q (fun a => { a with
      corr := tset noCorr a.corr sub (o, g, k), learned := f a }) s) p q).corr sub = (o, g, k) := by
    rw [adcOf_modAdc, tget_tset, if_pos rfl]
  split
  · exact stored _
  · exact stored _

/-! ### One DAC of a path (R120 to R123) -/

theorem dacOf_modDac (p : Fin 64) (q : Bool) (f : Dac → Dac) (s : State) : dacOf (modDac p q f s) p q = f (dacOf s p q) := by
  unfold dacOf modDac
  rw [pathOf_modPath_same p.isLt]
  cases q <;> rfl

/-- In TX a segment that cannot be trimmed waits for the boundary, with its number in the order of the failures. -/
theorem segmentMeasured_waits {p : Fin 64} {q : Bool} {seg : Nat} {s : State} (hl : s.pwr.level ≠ 3) (hf : (pathOf s p).txFault = 0)
    (hn : (dacOf s p q).failed.any (·.pos == seg) = false) (h0 : (dacOf s p q).left ≠ 0) (ht : pathInTx s p = true) :
    (dacOf (segmentMeasured p q seg false s) p q).failed = (dacOf s p q).failed ++ [{ pos := seg, seq := s.glb.detected }] := by
  have measured : ¬ (false = true ∨ (pathOf s p).txFault ≠ 0 ∨ ((dacOf s p q).left = 0 ∧ pathInTx s p = true) ∨
      (dacOf s p q).failed.any (·.pos == seg) = true ∨ ¬ convertersOn s = true) := by
    simp [hf, hn, h0, convertersOn_of hl]
  have tx (f : Dac → Dac) : pathInTx (modDac p q f (failNumber s).2) p = true := ht
  unfold segmentMeasured; dsimp only
  rw [if_neg measured, if_pos (tx _), dacOf_modDac]
  rfl

/-- In TX the fault of a binary cell waits for the boundary. -/
theorem dacBinaryFail_waits {p : Fin 64} {s : State} (hf : (pathOf s p).txFaultNext = 0) (ht : pathInTx s p = true) :
    (pathOf (dacBinaryFail p s) p).txFaultNext = 2 := by
  have waits : pathInTx (txPartFails 2 p s) p = true := ht
  rw [dacBinaryFail, faultSoon_waits (.inl waits), txPartFails, pathOf_modPath_same p.isLt]
  simp [hf]

/-! ### Over-current and overload (R127, R128) -/

/-- A trip of a chain that is not FAULTED asserts its flag, also where the fault of a third trip takes effect at once. -/
theorem ocpTrip_flags {p : Fin 64} {s : State} (hf : (pathOf s p).txFault = 0) : (ocpTrip p s).bit (Reg.PTH_INT_STATUS p) 5 = true := by
  have raised (u : State) : (u.raise (Reg.PTH_INT_STATUS p) 5).bit (Reg.PTH_INT_STATUS p) 5 = true :=
    State.bit_raise u (present_pathInt _ p) (by decide)
  have soon (u : State) : PathRegsKept u (faultSoon p (refreshPath p u)) :=
    faultSoon_pathRegs ((PathRegsKept.refl u).of_regs fun _ => rfl)
  rw [ocpTrip, if_neg (not_not_intro hf)]
  exact (soon _).flag p 5 (by decide) (raised _)

/-- The samples clipped at the I ADC are counted in the upper half of the register, whatever the Q ADC clips. -/
theorem overloadMs_counts (p : Fin 64) (i q both : Nat) (s : State) :
    (overloadMs p i q both s).fld (Reg.PTH_OVLD_COUNT p) 31 16 = satAdd 0xFFFF (s.fld (Reg.PTH_OVLD_COUNT p) 31 16) i := by
  have counted : ((s.addHi (Reg.PTH_OVLD_COUNT p) i).addLo (Reg.PTH_OVLD_COUNT p) q).fld (Reg.PTH_OVLD_COUNT p) 31 16 =
      satAdd 0xFFFF (s.fld (Reg.PTH_OVLD_COUNT p) 31 16) i :=
    (State.fld_setFld_above _ _ _ (by decide) (by decide) (by decide)).trans (State.fld_addHi s _ i)
  have int : Reg.PTH_OVLD_COUNT p ≠ Reg.PTH_INT_STATUS p := by unfold Reg.PTH_OVLD_COUNT Reg.PTH_INT_STATUS; omega
  unfold overloadMs; dsimp only
  split
  · rw [State.fld, State.raise_reg_ne _ int]
    exact counted
  · exact counted

end Sys2Proof.Machine
end

section
/-!
SUPPORT. References, loops and LO roles: what a change of the roles' validity leaves of the SYN block, losses, calibrations and swaps (R132 to
R149).
-/

namespace Sys2Proof.Machine

/-! ### Changes that are watched (R138, R139) -/

/-- The parts that the news of a role's validity may change. -/
def watchParts (p : Part) : Bool := decide (p ∈ [Part.regs, .glb, .paths, .dpd, .fhp])

/-- A watched change acts on a state that differs from the present one by discarded blocks alone; mutes and notices follow it. -/
theorem watchRoles_around (f : State → State) (s : State) : ∃ u, Kept watchParts s u ∧ Kept watchParts (f u) (watchRoles f s) := by
  refine ⟨forAll ((List.range 2).filter (fun r => roleValid s r && !roleValid (f s) r)) dropBlocks s,
    forAll_keeps (fun _ _ K => dropBlocks_keeps rfl rfl rfl K) (Kept.refl _ s), ?_⟩
  refine forAll_keeps (fun r t K => ?_) (refreshMutes_keeps rfl (Kept.refl _ _))
  exact Kept.ite K (noticeRole_keeps rfl rfl K)

/-- Of the SYN block a watched change leaves what it leaves in every state with that block. -/
theorem watchRoles_syn (P : Syn → Prop) {f : State → State} {s : State} (h : ∀ u, u.syn = s.syn → P (f u).syn) : P (watchRoles f s).syn := by
  obtain ⟨u, before, after⟩ := watchRoles_around f s
  rw [after.syn rfl]
  exact h u (before.syn rfl)

/-! ### References (R133, R134) -/

/-- What the SYN block says of a reference. -/
def Syn.refOk (y : Syn) (b : Bool) : Bool := if b then y.bValid else y.aValid

theorem refValid_eq (s : State) (b : Bool) : refValid s b = s.syn.refOk b := rfl

theorem refOk_setRefValid (b v : Bool) (s : State) : (setRefValid b v s).syn.refOk b = v := by
  cases b <;> rfl

theorem refSwitch_syn (b : Bool) (s : State) :
    (refSwitch b s).syn = { s.syn with active := b2n b, holdover := false, cnvLock := true, refGone := false } := by
  simp [refSwitch]

/-- Following another reference leaves what is known of both. -/
theorem refOk_refSwitch (b c : Bool) (s : State) : (refSwitch b s).syn.refOk c = s.syn.refOk c := by
  rw [refSwitch_syn]; rfl

theorem refOk_watched_refSwitch (b c : Bool) (s : State) : (watchRoles (refSwitch b) s).syn.refOk c = s.syn.refOk c :=
  watchRoles_syn (fun y => y.refOk c = s.syn.refOk c) fun u hu => by rw [refOk_refSwitch, hu]

theorem active_watched_refSwitch (b : Bool) (s : State) : (watchRoles (refSwitch b) s).syn.active = b2n b :=
  watchRoles_syn (fun y => y.active = b2n b) fun u _ => by rw [refSwitch_syn]

/-- The reference that is lost is not valid, also where the converter clock follows the other one at once. -/
theorem refLost_refOk {s : State} (ha : s.syn.active < 2) (hg : s.syn.refGone = false) : (refLost s).syn.refOk (s.syn.active == 1) = false := by
  have followed : ¬ (s.syn.active ≥ 2 ∨ s.syn.refGone = true) := by simp [hg, ha]
  unfold refLost; dsimp only
  rw [if_neg followed]
  split
  · rw [refOk_refSwitch, State.raise_syn, refOk_setRefValid]
  · rw [State.raise_syn, refOk_setRefValid]

theorem refCheck_refOk (b ok : Bool) (s : State) : (refCheck b ok s).syn.refOk b = ok := by
  have measured := refOk_setRefValid b ok s
  unfold refCheck; dsimp only
  split
  · exact measured
  · split
    · exact measured
    · split
      · rw [refOk_refSwitch]; exact measured
      · exact measured

/-- A SEL that names a valid reference is followed. -/
theorem refCfgWrite_follows {w : Word} {s : State} (h : refValid s (bitOf w 0) = true) : (refCfgWrite w s).syn.active = b2n (bitOf w 0) := by
  have valid {u : State} (hu : u.syn.refOk (bitOf w 0) = s.syn.refOk (bitOf w 0)) : ¬ ¬ refValid u (bitOf w 0) = true := by
    rw [not_not, refValid_eq, hu]; exact h
  have selects (u : State) : (if u.syn.active = b2n (bitOf w 0) then u else watchRoles (refSwitch (bitOf w 0)) u).syn.active = b2n (bitOf w 0) := by
    split
    · assumption
    · exact active_watched_refSwitch ..
  unfold refCfgWrite; dsimp only
  rw [if_neg]
  · exact selects _
  · refine valid ?_
    split
    · rw [refOk_watched_refSwitch, State.setFld_syn, State.setFld_syn]
    · rw [State.setFld_syn, State.setFld_syn]

/-! ### The converter clock (R134, R142) -/

/-- What the SYN block says of the converter clock. -/
def Syn.converter (y : Syn) : Bool × Bool × Bool := (y.cnvLock, y.holdover, y.cnvInvalid)

theorem surveyRelease_converter (v : Survey) (s : State) : (surveyRelease v s).syn.converter = s.syn.converter := by
  unfold surveyRelease; dsimp only
  split
  · rfl
  · rfl

theorem surveyAbortIf_converter (f : Survey → Bool) (s : State) : (surveyAbortIf f s).syn.converter = s.syn.converter := by
  refine forAll_induct (P := fun t => t.syn.converter = s.syn.converter) (fun v t h => ?_) _ rfl
  have refused : (surveyRefuse 0x06 v.path (surveyRelease v t)).syn = (surveyRelease v t).syn := by simp [surveyRefuse, surveyStatus]
  rw [refused, surveyRelease_converter, h]

@[simp] theorem cutLost_syn (r : Nat) (s : State) : (cutLost r s).syn = s.syn :=
  (cutLost_keeps (L := fun p => decide (p ≠ .syn)) rfl rfl rfl rfl rfl (Kept.refl _ s)).syn rfl

@[simp] theorem calLoseRole_syn (r : Nat) (s : State) : (calLoseRole r s).syn = s.syn :=
  (calLoseRole_keeps (L := fun p => decide (p ≠ .syn)) rfl rfl rfl rfl rfl rfl rfl (Kept.refl _ s)).syn rfl

/-- The loss of a role leaves the converter clock. -/
theorem roleLost_converter (r : Nat) (s : State) : (roleLost r s).syn.converter = s.syn.converter := by
  rw [roleLost, surveyAbortIf_converter, calLoseRole_syn, cutLost_syn]

theorem cnvLost_converter (s : State) : (cnvLost s).syn.converter = (false, false, true) := by
  unfold cnvLost; dsimp only
  rw [roleLost_converter, roleLost_converter, State.event_syn, State.addByte_syn]
  exact watchRoles_syn (fun y => y.converter = (false, false, true)) fun _ _ => rfl

theorem cnvLost_syn (s : State) : (cnvLost s).syn.cnvLock = false ∧ (cnvLost s).syn.holdover = false ∧ (cnvLost s).syn.cnvInvalid = true := by
  have lost := cnvLost_converter s
  simp only [Syn.converter, Prod.mk.injEq] at lost
  exact lost

/-! ### Units (R137 to R146) -/

section

variable {u : Fin 3} {s : State}

theorem unit_modUnit (u : Fin 3) (f : SynUnit → SynUnit) (s : State) : vget (s.modUnit u f).syn.units u = f (vget s.syn.units u) :=
  vget_vmod_same _ _ u.isLt

/-- A unit that holds no role loses its lock alone. -/
theorem lossOfLock_reserve (hl : (vget s.syn.units u).locked = true) (hr : unitRole s u = none) :
    (vget (lossOfLock u s).syn.units u).locked = false := by
  unfold lossOfLock; dsimp only
  rw [if_neg (not_not_intro hl), hr]
  dsimp only
  rw [unit_modUnit]

theorem beginSwap_failedFirst (r : Nat) (s : State) : (beginSwap r s).syn.failedFirst = s.syn.failedFirst := by
  unfold beginSwap; dsimp only
  split
  · rfl
  · rfl

theorem failedSwap_failedFirst (r v : Nat) (s : State) : (failedSwap r v s).syn.failedFirst = s.syn.failedFirst := by
  unfold failedSwap; dsimp only
  split
  · rfl
  · split
    · exact watchRoles_syn (fun y => y.failedFirst = s.syn.failedFirst) fun t ht => by rw [beginSwap_failedFirst, ht]; rfl
    · rfl

/-- The first failure of a unit in service claims the reserve. -/
theorem unitFailed_claims {r v : Nat} (hr : unitRole s v = some r) (hs : (vget s.syn.roles r).swapRun = false) (h3 : s.syn.reserve < 3)
    (hf : s.syn.failedFirst = []) : (unitFailed v s).syn.failedFirst = [v] := by
  have free : ¬ (s.syn.reserve ≥ 3 ∨ ¬ s.syn.failedFirst.isEmpty = true) := by simp [hf, h3]
  have new : s.syn.failedFirst.contains v = false := by simp [hf]
  unfold unitFailed
  rw [hr]; dsimp only
  rw [hs, new, if_neg Bool.false_ne_true, if_neg Bool.false_ne_true, if_neg free, failedSwap_failedFirst, State.modSyn_syn, hf]
  rfl

theorem markResume_units (r : Nat) (s : State) : (markResume r s).syn.units = s.syn.units := by
  unfold markResume
  split
  · rfl
  · rfl

/-- A unit that locks, or does not, keeps its band and its calibration. -/
theorem lockIf_unit (b : Bool) (s : State) :
    (vget (whenB b (fun s => s.modUnit u (fun y => { y with locked := true })) s).syn.units u).cal = (vget s.syn.units u).cal ∧
    (vget (whenB b (fun s => s.modUnit u (fun y => { y with locked := true })) s).syn.units u).band = (vget s.syn.units u).band := by
  cases b with
  | false => exact ⟨rfl, rfl⟩
  | true => rw [whenB, if_pos rfl, unit_modUnit]; exact ⟨rfl, rfl⟩

/-- A calibration that found a band ends with the unit in it. -/
theorem vcoCalDone_found (hc : (vget s.syn.units u).cal = true) (n : Nat) :
    (vget (vcoCalDone u (some n) s).syn.units u).cal = false ∧ (vget (vcoCalDone u (some n) s).syn.units u).band = n := by
  unfold vcoCalDone
  rw [if_neg (not_not_intro hc)]; dsimp only
  refine watchRoles_syn (fun y => (vget y.units u).cal = false ∧ (vget y.units u).band = n) fun t _ => ?_
  have found (b : Bool) : (vget (whenB b (fun s => s.modUnit u (fun y => { y with locked := true }))
        (t.modUnit u (fun y => { storeBand n y with cal := false, needCal := false }))).syn.units u).cal = false ∧
      (vget (whenB b (fun s => s.modUnit u (fun y => { y with locked := true }))
        (t.modUnit u (fun y => { storeBand n y with cal := false, needCal := false }))).syn.units u).band = n := by
    rw [(lockIf_unit b _).1, (lockIf_unit b _).2, unit_modUnit]
    exact ⟨rfl, rfl⟩
  split
  · rw [markResume_units]
    exact found _
  · exact found _

/-- A tuning voltage of at most 80 % is kept and asks nothing. -/
theorem tuningLimit_keeps_voltage {v : Int} (h : v.natAbs ≤ 80) (e : Bool) : (vget (tuningLimit u v e s).syn.units u).vtune = v := by
  unfold tuningLimit; dsimp only
  rw [if_neg (by omega), if_neg (by omega), unit_modUnit]

end

/-! ### Roles (R138 to R147) -/

section

variable {r : Fin 2} {s : State}

theorem role_modRole (r : Fin 2) (f : SynRole → SynRole) (s : State) : vget (s.modRole r f).syn.roles r = f (vget s.syn.roles r) :=
  vget_vmod_same _ _ r.isLt

theorem latchLo_role (hl : (vget s.syn.roles r).lost = true) (hr : roleReady s r = false) (hn : (vget s.syn.roles r).latched = false) :
    (vget (latchLo (.role r) s).syn.roles r).latched = true := by
  unfold latchLo; dsimp only
  rw [if_pos ⟨hl, by simp [hr], by simp [hn]⟩, State.event_syn]
  exact watchRoles_syn (fun y => (vget y.roles r).latched = true) fun t _ => by rw [role_modRole]

/-- A role that has its lock back keeps its unit and its swap. -/
theorem markResume_role (r : Fin 2) (s : State) : (vget (markResume r s).syn.roles r).unit = (vget s.syn.roles r).unit ∧
    (vget (markResume r s).syn.roles r).swapRun = (vget s.syn.roles r).swapRun := by
  unfold markResume
  split
  · rw [role_modRole]; exact ⟨rfl, rfl⟩
  · exact ⟨rfl, rfl⟩

theorem engageReserve_syn (k : Nat) (s : State) : (engageReserve k s).syn = s.syn :=
  (engageReserve_keeps (L := fun p => decide (p ≠ .syn)) rfl rfl (Kept.refl _ s)).syn rfl

/-- A swap that runs ends with the role on its new unit. -/
theorem swapDone_moves (h : (vget s.syn.roles r).swapRun = true) :
    (vget (swapDone r s).syn.roles r).unit = (vget s.syn.roles r).swapUnit ∧ (vget (swapDone r s).syn.roles r).swapRun = false := by
  have low {c : Prop} [Decidable c] (t : State) : (if c then t.reserveLow else t).syn = t.syn := by
    split
    · exact State.raise_syn ..
    · rfl
  unfold swapDone; dsimp only
  rw [if_neg (not_not_intro h), low, engageReserve_syn, State.event_syn]
  refine watchRoles_syn (fun y => (vget y.roles r).unit = (vget s.syn.roles r).swapUnit ∧ (vget y.roles r).swapRun = false) fun t ht => ?_
  have target : (vget t.syn.roles r).swapUnit = (vget s.syn.roles r).swapUnit := by rw [ht]
  rw [(markResume_role r _).1, (markResume_role r _).2, role_modRole]
  exact ⟨target, rfl⟩

theorem calBegin_starts (hu : (vget s.syn.roles r).unit < 3) (force : Bool) :
    (vget (calBegin r force s).syn.units (vget s.syn.roles r).unit).cal = true := by
  rw [calBegin, cutLost_syn]
  refine watchRoles_syn (fun y => (vget y.units (vget s.syn.roles r).unit).cal = true) fun t ht => ?_
  rw [State.modUnit_syn, ht]
  exact congrArg SynUnit.cal (vget_vmod_same _ _ hu)

/-- A forced calibration that waits starts as soon as a job may. -/
theorem gapStart_calibrates (hj : jobMayStart s r = true) (hr : (vget s.syn.roles r).swapRun = false)
    (hw : (vget s.syn.roles r).swapWait = false) (hc : (roleUnit s r).cal = false) (hcw : (vget s.syn.roles r).calWait = true)
    (hf : (vget s.syn.roles r).calForce = true) : gapStart r s = calBegin r true s := by
  simp [gapStart, hj, hr, hw, hc, hcw, hf]

theorem present_synInt (o : Order) : absentReg o Reg.SYN_INT_STATUS = false := by cases o <;> rfl

theorem calWaitLong_notes (h : (vget s.syn.roles r).calWait = true) (hl : (vget s.syn.roles r).waitLong = false) :
    ∃ t, exec (.synCalWaitLong r) s = .next t ∧ (vget t.syn.roles r).waitLong = true ∧ t.bit Reg.SYN_INT_STATUS 4 = true := by
  have waits : ((vget s.syn.roles r).calWait = true ∨ (vget s.syn.roles r).swapWait = true) ∧ ¬ (vget s.syn.roles r).waitLong = true :=
    ⟨.inl h, by simp [hl]⟩
  refine ⟨_, congrArg Host.Outcome.next (if_pos waits), ?_, State.bit_raise _ (present_synInt _) (by decide)⟩
  rw [State.raise_syn, role_modRole]

/-! ### Host commands (R141, R142, R147, R149) -/

theorem resumeRole_arms (h : (vget s.syn.roles r).latched = true) : (vget (resumeRole r s).syn.roles r).arm = true := by
  rw [resumeRole, if_pos h, role_modRole]

theorem vcocal_waits (hu : (vget s.syn.roles r).used = true) (hw : (vget s.syn.roles r).swapWait = false) (hc : (roleUnit s r).cal = false) :
    (vget (vcocal r false s).syn.roles r).calWait = true := by
  have free : ¬ (¬ (vget s.syn.roles r).used = true ∨ (roleUnit s r).cal = true ∨ (vget s.syn.roles r).swapWait = true ∧ ¬ false = true) := by
    simp [hu, hw, hc]
  unfold vcocal; dsimp only
  rw [if_neg free, if_neg (fun h => Bool.false_ne_true h.1), role_modRole]

theorem swapRole_waits (hu : (vget s.syn.roles r).used = true) (hr : (vget s.syn.roles r).swapRun = false) (h3 : s.syn.reserve < 3) :
    (vget (swapRole r false s).syn.roles r).swapWait = true := by
  have free : ¬ (¬ (vget s.syn.roles r).used = true ∨ (vget s.syn.roles r).swapRun = true ∨ s.syn.reserve ≥ 3) := by simp [hu, hr, h3]
  unfold swapRole; dsimp only
  rw [if_neg free, if_neg (fun h => Bool.false_ne_true h.1), role_modRole]

end

/-- A reserve that does not prove itself is retired. -/
theorem reserveProving_retires {s : State} (h : s.syn.reserve < 3) (a b : Nat) : (reserveProving false a b s).syn.reserve = 3 := by
  have mapped (t : State) : (writeReserveMap [] t.reserveLow).syn = t.syn :=
    ((writeReserveMap_keeps (L := fun p => decide (p ≠ .syn)) rfl (Kept.refl _ t.reserveLow)).syn rfl).trans (State.raise_syn ..)
  unfold reserveProving; dsimp only
  rw [if_neg (by omega), if_neg Bool.false_ne_true, mapped]
  refine forAll_induct (P := fun t => t.syn.reserve = 3) (fun r t ht => ?_) _ ?_
  · rw [State.modRole_syn]; exact ht
  · rw [State.modSyn_syn]

theorem phaseWrite_stores (f : Nat) (w : Word) (s : State) : (phaseWrite f w s).reg (Reg.SYN_PHASE f) = w &&& 0x03FF03FF := by
  have taken {c : Prop} [Decidable c] (tx : Bool) (t : State) (a : Nat) : (if c then t else rotTake tx f t).reg a = t.reg a := by
    split
    · rfl
    · rfl
  unfold phaseWrite; dsimp only
  rw [taken, taken, State.reg_setReg, if_pos rfl]

end Sys2Proof.Machine
end

section
/-!
SUPPORT. The commands of the weaver, the paths and the synthesisers, each with its own effect.
-/

namespace Sys2Proof.Machine

/-! ### Loads (R88, R45) -/

section

variable {s : State} {w : Structure} (hl : s.wrp.load = none) (hj : s.wrp.jobs = []) (hw : structFibres w ≤ 16 * spindlesIn s)
include hj hw

/-- Bytes that pass every check are placed at once where no job waits and the fibres suffice. -/
theorem loadBytes_places {b : List Byte} (hp : nbit (byteAt b 0xE) 1 = false) (hb : badStage s false = false)
    (hv : verifyWarp (s.setFld Reg.WRP_STATUS 4 4 0) b = .inr w) :
    (loadBytes b s).wrp.load = some { new := w, partialLoad := false, placed := structFibres w, phase := 5 } := by
  have spindles : spindlesIn (s.setFld Reg.WRP_STATUS 4 4 0) = spindlesIn s := spindlesIn_congr (by rw [State.setFld_wrp])
  generalize hn : 16 * spindlesIn s = n at hw
  have placed := loadAccept_alone b w (s := s.setFld Reg.WRP_STATUS 4 4 0) hj (by rw [spindles, hn])
  rw [loadBytes_passes hp hb hv]
  exact ((if_pos hw).mp placed).1

include hl

theorem qspiWarpLoad_places (h2 : s.pwr.stage = 2) (hc : s.bit Reg.PWR_AON_START_CFG 20 = false) (ha : s.wrp.active = none)
    (hp : nbit (byteAt (qspiWarp s) 0xE) 1 = false) (hv : verifyWarp (s.setFld Reg.WRP_STATUS 4 4 0) (qspiWarp s) = .inr w) :
    (qspiWarpLoad s).wrp.load = some { new := w, partialLoad := false, placed := structFibres w, phase := 5 } := by
  have fit : badStage s false = false := by simp [badStage, h2]
  rw [qspiWarpLoad_loads h2 hc hl ha, State.modWrp_wrp]
  exact loadBytes_places hj hw hp fit hv

end

theorem b2n_lt_two (b : Bool) : b2n b < 2 := by cases b <;> decide

/-- Settles O56: the weaver's commands by what the obligations on loads and reserves say of them; the others by the rule of each operation. -/
theorem warpPathAndSynthesisCommandsComplete : Obligations.WarpPathAndSynthesisCommandsComplete := by
  unfold Obligations.WarpPathAndSynthesisCommandsComplete
  intro s
  obtain ⟨data, clear, -, abort, flash, loaded, switched⟩ := warpLoads s
  obtain ⟨starts, selfTest, vector, compare, handover, convert⟩ := weaverAndReserves s
  refine ⟨fun w hs hl hn => (data w).imp fun t ⟨_, staged, _⟩ => (staged hs hl hn).1,
    fun hs => clear.imp fun t h => ((if_pos hs).mp h).1,
    fun w hs hl hc h4 hf hp hb hv hj hw => ⟨_, rfl, ?_⟩,
    fun x hx => ⟨fun hs h6 => abort.imp fun t ⟨_, _, aborts⟩ => ?_,
      fun rest hj h5 hp => loaded.imp fun t h => ?_,
      fun h6 => switched.imp fun t ⟨_, _, h⟩ => ?_⟩,
    fun e h2 hc hl ha hp he => flash.imp fun t ⟨_, h⟩ => (h h2 hc hl ha).2 hp e he,
    fun w h2 hc hl ha hp hv hj hw => ⟨_, rfl, qspiWarpLoad_places hl hj hw h2 hc ha hp hv⟩,
    fun i hr ha h2 => (selfTest i).imp fun t ⟨_, retires⟩ => retires hr ha h2,
    fun i layers ha hg hj hq => (vector i layers).imp fun t ⟨_, _, enters⟩ => ((enters hq ha hg).1 hj).1,
    fun i layers onto rest => ⟨fun r hj hr => starts.imp fun t ⟨_, shadows, _⟩ => (shadows i layers onto rest r hj hr).1,
      fun hj => (compare true).imp fun t h => ((h i layers onto rest hj).1 rfl).1,
      fun r hj => handover.imp fun t h => ?_,
      fun x hj hf => convert.imp fun t h => ?_⟩,
    fun p => ⟨fun g hg => ⟨_, rfl, groupBoundary_takes hg⟩, fun w hs => ⟨_, rfl, ?_⟩, fun w hs => ⟨_, rfl, ?_⟩,
      fun tx w hs ht => ⟨_, rfl, ?_⟩,
      fun hs => ⟨fun mute now => ⟨_, rfl, ?_⟩, fun zero => ⟨_, rfl, ?_⟩, fun off => ⟨_, rfl, ?_⟩, fun hf ht => ⟨_, rfl, ?_⟩⟩,
      fun hl q => ⟨fun h9 hr => ⟨fun rms h64 => ⟨_, rfl, shadowBlock_good h9 hl h64⟩, _, rfl, shadowPass_moves h9 hl hr⟩,
        fun pos hr hf => ⟨_, rfl, ?_⟩, fun sub o g k ho ho' hg hg' hk hk' => ⟨_, rfl, ?_⟩,
        fun seg hf hn h0 ht => ⟨_, rfl, segmentMeasured_waits hl hf hn h0 ht⟩⟩,
      fun _ hf ht => ⟨_, rfl, dacBinaryFail_waits hf ht⟩, fun hf => ⟨_, rfl, ocpTrip_flags hf⟩,
      fun i q both => ⟨_, rfl, overloadMs_counts p i q both s⟩⟩,
    fun ha hg => ⟨_, rfl, ?_⟩,
    fun b ok => ⟨_, rfl, watchRoles_syn (fun y => y.refOk b = ok) fun u _ => refCheck_refOk b ok u⟩,
    fun h => ⟨_, rfl, ?_⟩, fun w hs hv => ⟨_, rfl, ?_⟩, ⟨_, rfl, rfl⟩, fun h => ⟨_, rfl, ?_⟩,
    fun u => ⟨fun hl hr => ⟨_, rfl, lossOfLock_reserve hl hr⟩, fun ho hl => ⟨_, rfl, ?_⟩,
      fun r hr hs h3 hf => ⟨_, rfl, unitFailed_claims hr hs h3 hf⟩, fun n hc => ⟨_, rfl, vcoCalDone_found hc n⟩,
      fun v e hv => ⟨_, rfl, tuningLimit_keeps_voltage hv e⟩⟩,
    fun r => ⟨fun hl hr hn => ⟨_, rfl, latchLo_role hl hr hn⟩, fun h => ⟨_, rfl, swapDone_moves h⟩,
      fun hj hr hw hc hcw hf hu => ⟨_, rfl, ?_⟩, calWaitLong_notes⟩,
    fun a b h => ⟨_, rfl, reserveProving_retires h a b⟩,
    fun hs => ⟨fun h => ⟨_, rfl, ?_⟩, fun b => ⟨fun h => ⟨_, rfl, ?_⟩, fun hu hw hc => ⟨_, rfl, ?_⟩, fun hu hr h3 => ⟨_, rfl, ?_⟩⟩⟩,
    fun f w hs => ⟨_, rfl, ?_⟩⟩
  · rw [State.hosted_served hs, wrpLoad_checked hl hc h4 hf]
    exact loadBytes_places hj hw hp hb hv
  · obtain ⟨load, -, -, refused⟩ := aborts x hs hx h6
    exact ⟨load, refused⟩
  · obtain ⟨active, load, -⟩ := (h x .load rest hx hj (.inl rfl)).2.1 h5 hp
    exact ⟨active, load⟩
  · obtain ⟨active, load, -⟩ := h x hx h6
    exact ⟨active, load⟩
  · obtain ⟨wrp, flag⟩ := h i layers r rest hj
    exact ⟨congrArg Wrp.jobs wrp, flag⟩
  · obtain ⟨-, converts, -⟩ := h i layers onto rest hj
    exact (converts x hf).1
  · rw [State.hosted_served hs]; exact txAttenWrite_stores p w s
  · rw [State.hosted_served hs]; exact rxAttenWrite_stores p w s
  · rw [State.hosted_served hs]; exact trimUserWrite_stores ht w
  · rw [State.hosted_served hs]; exact txMuteWrite_stores p mute now s
  · rw [State.hosted_served hs]; exact State.bit_setFld s _ zero (by decide)
  · rw [State.hosted_served hs]; exact State.bit_setFld s _ off (by decide)
  · rw [State.hosted_served hs]; exact clearOcp_asked hf ht
  · rw [whenB, convertersOn_of hl, if_pos rfl]
    exact adcFailed_gross_fills hr hf
  · rw [whenB, convertersOn_of hl, if_pos rfl]
    exact adcEstimate_stores ⟨ho, ho'⟩ ⟨hg, hg'⟩ ⟨hk, hk'⟩ q sub s
  · refine watchRoles_syn (fun y => y.refOk (s.syn.active == 1) = false) fun u hu => ?_
    rw [← hu]
    exact refLost_refOk (by rw [hu]; exact ha) (by rw [hu]; exact hg)
  · obtain ⟨-, holdover, invalid⟩ := cnvLost_syn s
    rw [if_pos h]; exact ⟨holdover, invalid⟩
  · rw [State.hosted_served hs]; exact refCfgWrite_follows hv
  · obtain ⟨lock, -, invalid⟩ := cnvLost_syn s
    rw [if_pos h]; exact ⟨lock, invalid⟩
  · rw [if_pos ⟨ho, by simp [hl]⟩, unit_modUnit]
  · rw [gapStart_calibrates hj hr hw hc hcw hf]; exact calBegin_starts hu true
  · rw [State.hosted_served hs, resumeCnv, if_pos h]; rfl
  · rw [State.hosted_served hs]; exact resumeRole_arms (r := ⟨b2n b, b2n_lt_two b⟩) h
  · rw [State.hosted_served hs]; exact vcocal_waits (r := ⟨b2n b, b2n_lt_two b⟩) hu hw hc
  · rw [State.hosted_served hs]; exact swapRole_waits (r := ⟨b2n b, b2n_lt_two b⟩) hu hr h3
  · rw [State.hosted_served hs]; exact phaseWrite_stores f w s

end Sys2Proof.Machine
end

section
/-!
SUPPORT. Settings of paths: attenuations, trims, mutes and the clearing of an over-current fault, as the port serves them and the group's state
lets them act (R105, R108, R112, R124 to R128).
-/

namespace Sys2Proof.Machine

/-! ### Writes of host software -/

/-- A command that is a write of host software is nothing where the port does not serve its register, and does its work where it does. -/
theorem hosted_completes {c : Instr} {s : State} {a : Nat} {f : State → State} {P : State → Prop}
    (e : exec c s = .next (s.hosted a f)) (h : s.served a = true → P (f s)) :
    completes c s (fun t => (s.served a = false → t = s) ∧ (s.served a = true → P t)) :=
  ⟨_, e, fun hs => State.hosted_not_served hs f, fun hs => by rw [State.hosted_served hs]; exact h hs⟩

theorem regsBut_setFld (s : State) (a hi lo v : Nat) : regsBut [a] s (s.setFld a hi lo v) :=
  fun _ hb => State.setFld_reg_ne s (by simpa using hb)

theorem changedOnly_setFld (s : State) (a hi lo v : Nat) : changedOnly [.regs] s (s.setFld a hi lo v) :=
  (setFld_keeps rfl (Kept.refl _ s)).changedOnly

theorem changedOnly_modPath (p : Nat) (f : PathSt → PathSt) (s : State) : changedOnly [.paths] s (s.modPath p f) :=
  (modPath_keeps rfl (Kept.refl _ s)).changedOnly

theorem pathInTx_setFld (s : State) (a hi lo v p : Nat) : pathInTx (s.setFld a hi lo v) p = pathInTx s p :=
  pathInTx_congr (State.setFld_wrp ..) (State.setFld_rad ..) p

theorem pathInRx_setFld (s : State) (a hi lo v p : Nat) : pathInRx (s.setFld a hi lo v) p = pathInRx s p :=
  pathInRx_congr (State.setFld_wrp ..) (State.setFld_rad ..) p

/-- A flag that may be asserted leaves the paths. -/
theorem pathOf_ite_raise (c : Prop) [Decidable c] (s : State) (a b p : Nat) : pathOf (if c then s.raise a b else s) p = pathOf s p := by
  split
  · exact pathOf_congr (State.raise_paths ..) p
  · rfl

/-! ### Attenuation (R105) -/

theorem txAttenWrite_regs (p : Nat) (w : Word) (s : State) : regsBut [Reg.PTH_TX_ATTEN p] s (txAttenWrite p w s) := by
  unfold txAttenWrite; dsimp only
  split
  · exact regsBut_setFld _ _ _ _ _
  · exact regsBut_setFld _ _ _ _ _

theorem txAttenWrite_waits {p : Nat} {s : State} (h : pathInTx s p = true) (w : Word) :
    txAttenWrite p w s = s.setFld (Reg.PTH_TX_ATTEN p) 6 0 (fld w 6 0) := if_pos ((pathInTx_setFld ..).trans h)

theorem txAttenWrite_applies {p : Fin 64} {s : State} (h : pathInTx s p = false) (w : Word) :
    (pathOf (txAttenWrite p w s) p).txAtten = fld w 6 0 := by
  have idle : ¬ pathInTx (s.setFld (Reg.PTH_TX_ATTEN p) 6 0 (fld w 6 0)) p = true := by rw [pathInTx_setFld, h]; decide
  rw [txAttenWrite, if_neg idle, refreshPath, pathOf_modPath_same p.isLt, applyTxAtten, pathOf_modPath_same p.isLt]
  exact (State.fld_setFld s _ _ (by decide) (by decide)).trans (Nat.mod_eq_of_lt (fld_lt w 6 0))

theorem rxAttenWrite_regs (p : Nat) (w : Word) (s : State) : regsBut [Reg.PTH_RX_ATTEN p] s (rxAttenWrite p w s) := by
  unfold rxAttenWrite; dsimp only
  split
  · exact regsBut_setFld _ _ _ _ _
  · exact regsBut_setFld _ _ _ _ _

theorem rxAttenWrite_waits {p : Nat} {s : State} (h : pathInRx s p = true) (w : Word) :
    rxAttenWrite p w s = s.setFld (Reg.PTH_RX_ATTEN p) 4 0 (min 30 (fld w 4 0)) := if_pos ((pathInRx_setFld ..).trans h)

theorem rxAttenWrite_applies {p : Fin 64} {s : State} (h : pathInRx s p = false) (w : Word) :
    (pathOf (rxAttenWrite p w s) p).rxAtten = min 30 (fld w 4 0) := by
  have idle : ¬ pathInRx (s.setFld (Reg.PTH_RX_ATTEN p) 4 0 (min 30 (fld w 4 0))) p = true := by rw [pathInRx_setFld, h]; decide
  rw [rxAttenWrite, if_neg idle, applyRxAtten, pathOf_modPath_same p.isLt]
  exact (State.fld_setFld s _ _ (by decide) (by decide)).trans (Nat.mod_eq_of_lt (by omega))

/-! ### Trim (R109, R112) -/

/-- The trim in force of a chain is the sum of its registers, saturated. -/
theorem trimOf_applyTrim (tx : Bool) (p : Fin 64) (s : State) :
    trimOf (applyTrim tx p s) tx p = clampI (-65536) 65535 (trimSum s tx p) := by
  unfold applyTrim trimOf; dsimp only
  rw [pathOf_ite_raise, pathOf_modPath_same p.isLt]
  cases tx <;> rfl

/-- With its chain at rest a user trim is in force at once. -/
theorem trimUserWrite_applies {tx : Bool} {p : Fin 64} {s : State} (h : (if tx then pathInTx s p else pathInRx s p) = false) (w : Word) :
    trimOf (trimUserWrite tx p w s) tx p =
      clampI (-65536) 65535 (trimSum (s.setFld (trimUserReg tx p) 17 0 (fld w 17 0)) tx p) := by
  rw [trimUserWrite, trimChanged, pathInTx_setFld, pathInRx_setFld, h]
  exact trimOf_applyTrim tx p _

/-! ### Mute, and the clearing of an over-current fault (R126, R127) -/

theorem txMuteWrite_regs (p : Nat) (mute now : Bool) (s : State) : regsBut [Reg.PTH_CTRL p] s (txMuteWrite p mute now s) := fun a ha =>
  (regsBut_setFld (s.setFld (Reg.PTH_CTRL p) 0 0 (b2n mute)) _ 1 1 (b2n now) a ha).trans (regsBut_setFld s _ 0 0 (b2n mute) a ha)

/-- The host source is on with MUTE_NOW or where it was on, and a mute that is cleared ends it. -/
theorem txMuteWrite_hostMute (p : Fin 64) (mute now : Bool) (s : State) :
    (pathOf (txMuteWrite p mute now s) p).hostMute = (mute && ((pathOf s p).hostMute || now)) := by
  unfold txMuteWrite refreshPath; dsimp only
  rw [pathOf_modPath_same p.isLt, pathOf_modPath_same p.isLt, pathOf_congr ((State.setFld_paths ..).trans (State.setFld_paths ..))]
  cases mute <;> rfl

theorem clearOcp_asks {p : Fin 64} {s : State} (hf : (pathOf s p).txFault = 3) (ht : pathInTx s p = false) :
    pathOf (clearOcp p s) p = { pathOf s p with clearOcp := true } ∧ changedOnly [.paths] s (clearOcp p s) := by
  rw [clearOcp, if_pos ⟨hf, by simp [ht]⟩, pathOf_modPath_same p.isLt]
  exact ⟨rfl, changedOnly_modPath ..⟩

theorem clearOcp_ignored {p : Fin 64} {s : State} (h : ¬ ((pathOf s p).txFault = 3 ∧ pathInTx s p = false)) : clearOcp p s = s :=
  if_neg fun ⟨hf, ht⟩ => h ⟨hf, by simpa using ht⟩

/-! ### Overload (R128) -/

/-- The state after a millisecond's clipped samples of I and Q have been counted. -/
def clipsCounted (p i q : Nat) (s : State) : State := (s.addHi (Reg.PTH_OVLD_COUNT p) i).addLo (Reg.PTH_OVLD_COUNT p) q

theorem clipsCounted_low (p i q : Nat) (s : State) :
    (clipsCounted p i q s).fld (Reg.PTH_OVLD_COUNT p) 15 0 = satAdd 0xFFFF (s.fld (Reg.PTH_OVLD_COUNT p) 15 0) q := by
  rw [clipsCounted, State.fld_addLo, State.fld_addHi_low]

theorem clipsCounted_reg_ne (p i q : Nat) (s : State) {a : Nat} (ha : a ≠ Reg.PTH_OVLD_COUNT p) : (clipsCounted p i q s).reg a = s.reg a :=
  (State.addLo_reg_ne _ ha).trans (State.addHi_reg_ne s ha)

theorem overloadMs_reg_ne (p i q both : Nat) (s : State) {a : Nat} (ha : a ≠ Reg.PTH_INT_STATUS p) :
    (overloadMs p i q both s).reg a = (clipsCounted p i q s).reg a := by
  unfold overloadMs; dsimp only
  split
  · exact State.raise_reg_ne _ ha
  · rfl

theorem overloadMs_regs (p i q both : Nat) (s : State) :
    regsBut [Reg.PTH_OVLD_COUNT p, Reg.PTH_INT_STATUS p] s (overloadMs p i q both s) := fun a ha => by
  obtain ⟨count, int⟩ : a ≠ Reg.PTH_OVLD_COUNT p ∧ a ≠ Reg.PTH_INT_STATUS p := by simpa using ha
  rw [overloadMs_reg_ne p i q both s int, clipsCounted_reg_ne p i q s count]

/-- OVERLOAD follows the threshold, a sample clipped at both ADCs counted once. -/
theorem overloadMs_path (p : Fin 64) (i q both : Nat) (s : State) : pathOf (overloadMs p i q both s) p =
    { pathOf s p with overload := decide (i + q - both > s.fld (Reg.PTH_OVLD_CFG p) 15 0) } := by
  have cfg : (clipsCounted p i q s).fld (Reg.PTH_OVLD_CFG p) 15 0 = s.fld (Reg.PTH_OVLD_CFG p) 15 0 := by
    rw [State.fld, clipsCounted_reg_ne _ _ _ _ (by unfold Reg.PTH_OVLD_CFG Reg.PTH_OVLD_COUNT; omega)]; rfl
  have path : pathOf (clipsCounted p i q s) p = pathOf s p := pathOf_congr ((State.addLo_paths ..).trans (State.addHi_paths ..)) p
  rw [← cfg, ← path]
  exact (pathOf_ite_raise ..).trans (pathOf_modPath_same p.isLt _ _)

/-- Settles O14: each write by whether the port serves its register and whether its group runs, the overload by its two counts. -/
theorem pathSettings : Obligations.PathSettings := by
  unfold Obligations.PathSettings
  refine fun s p => ⟨fun w => hosted_completes rfl fun _ => ?_, fun w => hosted_completes rfl fun _ => ?_,
    fun tx w => ⟨_, rfl, fun hs => State.hosted_not_served hs _, fun hs run => ?_, fun hs rest => ?_⟩,
    fun mute now => hosted_completes rfl fun _ => ?_, fun zero => hosted_completes rfl fun _ => ?_,
    fun off => hosted_completes rfl fun _ => ?_, ⟨_, rfl, ?_⟩, fun i q both => ⟨_, rfl, ?_⟩⟩
  · refine ⟨txAttenWrite_stores p w s, txAttenWrite_regs p w s, fun run => ?_, fun rest => ?_⟩
    · rw [txAttenWrite_waits run]; exact changedOnly_setFld ..
    · exact ⟨txAttenWrite_applies rest w, (txAttenWrite_keeps rfl rfl (Kept.refl _ s)).changedOnly⟩
  · refine ⟨rxAttenWrite_stores p w s, rxAttenWrite_regs p w s, fun run => ?_, fun rest => ?_⟩
    · rw [rxAttenWrite_waits run]; exact changedOnly_setFld ..
    · exact ⟨rxAttenWrite_applies rest w, (rxAttenWrite_keeps rfl rfl (Kept.refl _ s)).changedOnly⟩
  · rw [State.hosted_served hs]
    refine ⟨trimUserWrite_stores run w, ?_⟩
    rw [trimUserWrite_waits run]
    exact ⟨regsBut_setFld _ _ _ _ _, changedOnly_setFld ..⟩
  · rw [State.hosted_served hs]; exact trimUserWrite_applies rest w
  · exact ⟨txMuteWrite_stores p mute now s, txMuteWrite_regs p mute now s, txMuteWrite_hostMute p mute now s⟩
  · exact ⟨State.bit_setFld s _ zero (by decide), regsBut_setFld _ _ _ _ _, changedOnly_setFld ..⟩
  · exact ⟨State.bit_setFld s _ off (by decide), regsBut_setFld _ _ _ _ _, changedOnly_setFld ..⟩
  · split
    next h =>
      obtain ⟨hs, hf, ht⟩ := h
      rw [State.hosted_served hs]; exact clearOcp_asks hf ht
    next h =>
      by_cases hs : s.served (Reg.PTH_CTRL p) = true
      · rw [State.hosted_served hs]; exact clearOcp_ignored fun hc => h ⟨hs, hc⟩
      · exact State.hosted_not_served (by simpa using hs) _
  · refine ⟨overloadMs_counts p i q both s, ?_, overloadMs_path p i q both s, overloadMs_regs p i q both s⟩
    rw [State.fld, overloadMs_reg_ne p i q both s (by unfold Reg.PTH_OVLD_COUNT Reg.PTH_INT_STATUS; omega)]
    exact clipsCounted_low p i q s

end Sys2Proof.Machine
end

section
/-!
SUPPORT. Faults of a path (R125): what each chain's fault leaves of its path, the fault of a binary cell (R123), and over-current trips (R127).
-/

namespace Sys2Proof.Machine

/-! ### Faults that take effect (R125) -/

/-- A path whose TX chain becomes FAULTED with the cause that waits. -/
def faultedTx (x : PathSt) : PathSt :=
  { x with
    txFault := x.txFaultNext, txFaultNext := 0, maskTx := true, ocp := false, clearOcp := false
    dacBinary := x.dacBinary || x.txFaultNext == 2 }

/-- A path whose RX chain becomes FAULTED with the cause that waits. -/
def faultedRx (x : PathSt) : PathSt :=
  { x with rxFault := x.rxFaultNext, rxFaultNext := 0, maskRx := true, adcI := { x.adcI with filling := 0 }, adcQ := { x.adcQ with filling := 0 } }

/-- Mutes and zeros that take effect change those two alone. -/
theorem pathOf_refreshPath (p : Fin 64) (s : State) :
    ∃ m z, pathOf (refreshPath p s) p = { pathOf s p with muted := m, zeroed := z } := ⟨_, _, pathOf_modPath_same p.isLt _ s⟩

theorem pathOf_faultTx (p : Fin 64) (s : State) : ∃ m z, pathOf (faultTx p s) p =
    if (pathOf s p).txFaultNext = 0 ∨ ((pathOf s p).txFault ≠ 0 ∧ (pathOf s p).txFault ≠ 3) then pathOf s p
    else { faultedTx (pathOf s p) with muted := m, zeroed := z } := by
  by_cases idle : (pathOf s p).txFaultNext = 0 ∨ ((pathOf s p).txFault ≠ 0 ∧ (pathOf s p).txFault ≠ 3)
  · refine ⟨false, false, ?_⟩
    rw [faultTx, if_pos idle, if_pos idle]
  · have chain : ∃ m z, pathOf (chainFaultTx p s) p = { faultedTx (pathOf s p) with muted := m, zeroed := z } := by
      rw [chainFaultTx, if_neg idle, pathOf_congr (stopStreamsIf_paths ..), pathOf_congr (noticePathFault_paths ..),
        pathOf_congr (attemptEnd_paths ..), pathOf_congr (State.pathEvent_paths ..)]
      obtain ⟨m, z, refreshed⟩ := pathOf_refreshPath p _
      exact ⟨m, z, refreshed.trans (by rw [pathOf_modPath_same p.isLt]; rfl)⟩
    obtain ⟨m, z, chain⟩ := chain
    refine ⟨m, z, ?_⟩
    rw [if_neg idle, ← chain, faultTx, if_neg idle]
    split
    · rfl
    · exact pathOf_congr (writeReserveMap_paths ..) p

theorem pathOf_faultRx (p : Fin 64) (s : State) : pathOf (faultRx p s) p =
    if (pathOf s p).rxFaultNext = 0 ∨ (pathOf s p).rxFault ≠ 0 then pathOf s p else faultedRx (pathOf s p) := by
  unfold faultRx chainFaultRx; dsimp only
  split
  · rfl
  · rw [pathOf_congr (writeReserveMap_paths ..), pathOf_congr (stopStreamsIf_paths ..), pathOf_congr (noticePathFault_paths ..),
      pathOf_congr (State.pathEvent_paths ..)]
    exact pathOf_modPath_same p.isLt _ s

/-! ### Binary cells (R123) -/

/-- The fault of a part stands before an over-current fault that waits. -/
theorem pathOf_txPartFails {p : Fin 64} {s : State} (h : (pathOf s p).txFaultNext = 0 ∨ (pathOf s p).txFaultNext = 3) (cause : Nat) :
    pathOf (txPartFails cause p s) p = { pathOf s p with txFaultNext := cause } := by
  rw [txPartFails, pathOf_modPath_same p.isLt, if_pos h]

theorem dacBinaryFail_running {p : Fin 64} {s : State} (h : (pathOf s p).txFaultNext = 0 ∨ (pathOf s p).txFaultNext = 3)
    (run : pathInTx s p = true ∨ pathInRx s p = true) :
    pathOf (dacBinaryFail p s) p = { pathOf s p with txFaultNext := 2 } ∧ changedOnly [.paths] s (dacBinaryFail p s) := by
  have waits : dacBinaryFail p s = txPartFails 2 p s := faultSoon_waits (s := txPartFails 2 p s) run
  rw [waits]
  exact ⟨pathOf_txPartFails h 2, changedOnly_modPath ..⟩

theorem dacBinaryFail_at_rest {p : Fin 64} {s : State} (hf : (pathOf s p).txFault = 0)
    (h : (pathOf s p).txFaultNext = 0 ∨ (pathOf s p).txFaultNext = 3) (rest : ¬ (pathInTx s p = true ∨ pathInRx s p = true)) :
    let x := pathOf (dacBinaryFail p s) p
    x.txFault = 2 ∧ x.txFaultNext = 0 ∧ x.dacBinary = true ∧ x.maskTx = true ∧ x.dacI = (pathOf s p).dacI ∧ x.dacQ = (pathOf s p).dacQ := by
  have soon : dacBinaryFail p s = faultRx p (faultTx p (txPartFails 2 p s)) := if_neg rest
  obtain ⟨m, z, faulted⟩ := pathOf_faultTx p (txPartFails 2 p s)
  rw [pathOf_txPartFails h 2, if_neg (by simp [hf])] at faulted
  rw [soon, pathOf_faultRx, faulted]
  split
  · simp [faultedTx]
  · simp [faultedRx, faultedTx]

/-- Settles O15: the fault waits while the group runs, and takes effect at once where it does not. -/
theorem binaryCellFault : Obligations.BinaryCellFault := by
  unfold Obligations.BinaryCellFault
  refine fun s p => ⟨_, rfl, fun hf hn => ?_⟩
  split
  next run => exact dacBinaryFail_running hn (by simpa using run)
  next rest => exact dacBinaryFail_at_rest hf hn (by simpa using rest)

end Sys2Proof.Machine
end

section
/-!
SUPPORT. Self-checks of the converters: shadow blocks and passes, sub-converters that are stuck or drift, and segments of the DACs (R106, R113 to
R121).
-/

namespace Sys2Proof.Machine

/-! ### Converters that are powered down (R106) -/

theorem convertersOff_of {s : State} (h : s.pwr.level = 3) : convertersOn s = false := by simp [convertersOn, h]

theorem whenB_convertersOn {s : State} (h : s.pwr.level ≠ 3) (f : State → State) : whenB (convertersOn s) f s = f s := by
  rw [whenB, convertersOn_of h, if_pos rfl]

theorem whenB_convertersOff {s : State} (h : s.pwr.level = 3) (f : State → State) : whenB (convertersOn s) f s = s := by
  rw [whenB, convertersOff_of h]; rfl

/-! ### A path whose ADC changes -/

theorem modAdc_rxFaultNext (p : Fin 64) (q : Bool) (f : Adc → Adc) (s : State) :
    (pathOf (modAdc p q f s) p).rxFaultNext = (pathOf s p).rxFaultNext := by
  unfold modAdc
  rw [pathOf_modPath_same p.isLt]
  cases q <;> rfl

theorem adcOf_modAdc_other (p : Fin 64) (q : Bool) (f : Adc → Adc) (s : State) : adcOf (modAdc p q f s) p (!q) = adcOf s p (!q) := by
  unfold adcOf modAdc
  rw [pathOf_modPath_same p.isLt]
  cases q <;> rfl

theorem changedOnly_modAdc (p : Nat) (q : Bool) (f : Adc → Adc) (s : State) : changedOnly [.paths] s (modAdc p q f s) :=
  changedOnly_modPath ..

/-! ### Filling (R117) -/

/-- The log leaves the number of failures detected. -/
theorem State.logPut_glb_detected (s : State) (kind index cls : Nat) (ev : Bool) (detail : Word) :
    (s.logPut kind index cls ev detail).glb.detected = s.glb.detected := by
  have entered (fresh : LogEntry) : (s.logEnter fresh).glb.detected = s.glb.detected := by
    unfold State.logEnter; dsimp only
    generalize (decide (s.glb.log.length ≥ 128) && _) = lost
    cases lost
    · simp
    · simp
  unfold State.logPut; dsimp only
  split
  · rfl
  · split
    · split
      · rfl
      · exact entered _
    · exact entered _

theorem fillBegin_detected (p : Nat) (q : Bool) (pos : Nat) (s : State) : (fillBegin p q pos s).glb.detected = s.glb.detected := by
  unfold fillBegin
  split
  · rfl
  · rw [State.pathEvent, State.logPut_glb_detected, State.raise_glb]; rfl

/-- Of its path, filling changes the positions that its ADC fills alone. -/
theorem fillBegin_path (p : Fin 64) (q : Bool) (pos : Nat) (s : State) :
    (∃ n, adcOf (fillBegin p q pos s) p q = { adcOf s p q with filling := n }) ∧
      (pathOf (fillBegin p q pos s) p).rxFaultNext = (pathOf s p).rxFaultNext := by
  unfold fillBegin
  split
  · exact ⟨⟨_, rfl⟩, rfl⟩
  · rw [adcOf_congr (State.pathEvent_paths ..), pathOf_congr (State.pathEvent_paths ..), adcOf_modAdc, modAdc_rxFaultNext]
    exact ⟨⟨_, rfl⟩, rfl⟩

theorem fillBegin_nothing {p : Nat} {q : Bool} {pos : Nat} {s : State}
    (h : (pathOf s p).rxFault ≠ 0 ∨ nbit (adcOf s p q).filling pos = true) : fillBegin p q pos s = s := if_pos h.symm

/-! ### Failures of sub-converters (R115 to R118) -/

theorem adcKnown_iff (a : Adc) (pos : Nat) :
    adcKnown a pos = true ↔ nbit a.retired (subAt a pos) = true ∨ a.failed.any (fun f => f.pos == pos) = true := by
  rw [adcKnown, Bool.or_eq_true]

theorem not_adcKnown_iff {a : Adc} {pos : Nat} :
    adcKnown a pos = false ↔ ¬ (nbit a.retired (subAt a pos) = true ∨ a.failed.any (fun f => f.pos == pos) = true) := by
  rw [← adcKnown_iff, Bool.not_eq_true]

/-- The state in which a failure of a position is met: a gross one is filled from then on. -/
def failureMet (p : Nat) (q gross : Bool) (pos : Nat) (s : State) : State := if gross then fillBegin p q pos s else s

theorem failureMet_inRx (p : Nat) (q gross : Bool) (pos : Nat) (s : State) : pathInRx (failureMet p q gross pos s) p = pathInRx s p := by
  cases gross
  · rfl
  · exact fillBegin_inRx

theorem failureMet_detected (p : Nat) (q gross : Bool) (pos : Nat) (s : State) :
    (failureMet p q gross pos s).glb.detected = s.glb.detected := by
  cases gross
  · rfl
  · exact fillBegin_detected ..

theorem failureMet_path (p : Fin 64) (q gross : Bool) (pos : Nat) (s : State) :
    (∃ n, adcOf (failureMet p q gross pos s) p q = { adcOf s p q with filling := n }) ∧
      (pathOf (failureMet p q gross pos s) p).rxFaultNext = (pathOf s p).rxFaultNext := by
  cases gross
  · exact ⟨⟨_, rfl⟩, rfl⟩
  · exact fillBegin_path ..

/-- A known failure is filled where it is gross, and is nothing more. -/
theorem adcFailed_known {p : Nat} {q : Bool} {pos : Nat} {s : State} (hk : adcKnown (adcOf s p q) pos = true) (gross : Bool) :
    adcFailed p q gross pos s = failureMet p q gross pos s := if_pos ((adcKnown_iff _ _).mp hk)

/-- In RX a new failure waits for the spare. -/
theorem adcFailed_waits {p : Nat} {q : Bool} {pos : Nat} {s : State} (hr : pathInRx s p = true) (hk : adcKnown (adcOf s p q) pos = false)
    (hs : (adcOf s p q).spare < 9) (gross : Bool) : adcFailed p q gross pos s = adcWaits p q gross pos (failureMet p q gross pos s) := by
  have rx : pathInRx (adcWaits p q gross pos (failureMet p q gross pos s)) p = true := (failureMet_inRx ..).trans hr
  rw [adcFailed, if_neg (not_adcKnown_iff.mp hk), if_neg (by omega)]
  exact (congrArg (faultSoon p) (adcSwapSoon_waits rx q)).trans (faultSoon_waits (.inr rx))

/-- In RX a new failure that no spare replaces waits for the boundary. -/
theorem adcFailed_exhausts {p : Nat} {q : Bool} {pos : Nat} {s : State} (hr : pathInRx s p = true) (hk : adcKnown (adcOf s p q) pos = false)
    (h9 : 9 ≤ (adcOf s p q).spare) (gross : Bool) :
    adcFailed p q gross pos s = adcExhausted p q pos (failureMet p q gross pos s) := by
  rw [adcFailed, if_neg (not_adcKnown_iff.mp hk), if_pos h9]
  exact faultSoon_waits (.inr ((adcExhausted_inRx.trans (failureMet_inRx ..)).trans hr))

/-- A failure that waits stands last of those of its ADC, with its number; what waits for the boundary is as it was. -/
theorem adcFailed_queued {p : Fin 64} {q : Bool} {pos : Nat} {s : State} (hr : pathInRx s p = true)
    (hk : adcKnown (adcOf s p q) pos = false) (hs : (adcOf s p q).spare < 9) (gross : Bool) :
    (adcOf (adcFailed p q gross pos s) p q).failed = (adcOf s p q).failed ++ [{ pos := pos, gross := gross, seq := s.glb.detected }] ∧
      (pathOf (adcFailed p q gross pos s) p).rxFaultNext = (pathOf s p).rxFaultNext := by
  obtain ⟨⟨n, adc⟩, next⟩ := failureMet_path p q gross pos s
  rw [adcFailed_waits hr hk hs, adcWaits, ← failureMet_detected p q gross pos s, ← next]
  refine ⟨?_, modAdc_rxFaultNext ..⟩
  rw [adcOf_modAdc]
  exact congrArg (fun a => a.failed ++ _) adc

/-- A failure that no spare replaces: its sub-converter is retired, and RX is to fault with the cause of its ADC. -/
theorem adcExhausted_retires {p : Fin 64} {q : Bool} {s : State} (hf : (pathOf s p).rxFault = 0) (pos : Nat) :
    (adcOf (adcExhausted p q pos s) p q).retired = withBit (adcOf s p q).retired (subAt (adcOf s p q) pos) ∧
      (pathOf (adcExhausted p q pos s) p).rxFaultNext =
        if (pathOf s p).rxFaultNext = 0 then (if q then 2 else 1) else (pathOf s p).rxFaultNext := by
  unfold adcExhausted; dsimp only
  rw [if_neg (by rw [modAdc_rxFault]; exact not_not_intro hf)]
  refine ⟨?_, ?_⟩
  · rw [adcOf_modPath, adcOf_modAdc]
    · exact fun _ => rfl
    · exact fun _ => rfl
  · rw [pathOf_modPath_same p.isLt, modAdc_rxFaultNext]

theorem adcFailed_gross_retires {p : Fin 64} {q : Bool} {pos : Nat} {s : State} (hr : pathInRx s p = true)
    (hk : adcKnown (adcOf s p q) pos = false) (h9 : 9 ≤ (adcOf s p q).spare) (hf : (pathOf s p).rxFault = 0) :
    (adcOf (adcFailed p q true pos s) p q).retired = withBit (adcOf s p q).retired (subAt (adcOf s p q) pos) ∧
      (pathOf (adcFailed p q true pos s) p).rxFaultNext =
        if (pathOf s p).rxFaultNext = 0 then (if q then 2 else 1) else (pathOf s p).rxFaultNext := by
  obtain ⟨⟨n, adc⟩, next⟩ := fillBegin_path p q pos s
  obtain ⟨-, fault⟩ := fillBegin_fills (q := q) (pos := pos) hf
  obtain ⟨retired, fails⟩ := adcExhausted_retires (q := q) fault pos
  rw [adcFailed_exhausts hr hk h9, failureMet, if_pos rfl, retired, fails, next, adc]
  exact ⟨rfl, rfl⟩

/-! ### Shadow blocks and passes (R114 to R116) -/

theorem shadowBlock_nothing {p : Nat} {q : Bool} {s : State} (h : 9 ≤ (adcOf s p q).spare ∨ s.pwr.level = 3) (rms : Nat) :
    shadowBlock p q rms s = s := if_pos (h.imp_right fun off => by simp [convertersOff_of off])

theorem shadowPass_nothing {p : Nat} {q : Bool} {s : State} (h : 9 ≤ (adcOf s p q).spare ∨ s.pwr.level = 3) : shadowPass p q s = s :=
  if_pos (h.imp_right fun off => by simp [convertersOff_of off])

/-- The state after a block has been counted among `n` bad ones in a row. -/
def badCounted (p : Nat) (q : Bool) (n : Nat) (s : State) : State := modAdc p q (fun a => { a with bad := n }) s

/-- A block of an ADC that has its spare is counted, and the third bad one in a row is a failure. -/
theorem shadowBlock_runs {p : Nat} {q : Bool} {rms n : Nat} {s : State} (hs : (adcOf s p q).spare < 9) (hl : s.pwr.level ≠ 3)
    (hn : (if rms > 64 then (adcOf s p q).bad + 1 else 0) = n) : shadowBlock p q rms s =
      if 3 ≤ n then adcFailed p q (decide (1024 < rms)) (adcOf s p q).shadow (badCounted p q n s) else badCounted p q n s := by
  subst hn
  exact if_neg (not_or_intro (Nat.not_le.mpr hs) (by simp [convertersOn_of hl]))

theorem shadowBlock_counts {p : Fin 64} {q : Bool} {rms n : Nat} {s : State} (hs : (adcOf s p q).spare < 9) (hl : s.pwr.level ≠ 3)
    (hn : (if rms > 64 then (adcOf s p q).bad + 1 else 0) = n) (h3 : n < 3) :
    adcOf (shadowBlock p q rms s) p q = { adcOf s p q with bad := n } ∧ changedOnly [.paths] s (shadowBlock p q rms s) := by
  rw [shadowBlock_runs hs hl hn, if_neg (Nat.not_le.mpr h3)]
  exact ⟨adcOf_modAdc .., changedOnly_modAdc ..⟩

/-- In RX the third bad block in a row is a failure of the position being shadowed. -/
theorem shadowBlock_fails {p : Fin 64} {q : Bool} {rms : Nat} {s : State} (hs : (adcOf s p q).spare < 9) (hl : s.pwr.level ≠ 3)
    (hr : 64 < rms) (h3 : 3 ≤ (adcOf s p q).bad + 1) (rx : pathInRx s p = true) (hk : adcKnown (adcOf s p q) (adcOf s p q).shadow = false) :
    (adcOf (shadowBlock p q rms s) p q).failed =
      (adcOf s p q).failed ++ [{ pos := (adcOf s p q).shadow, gross := decide (1024 < rms), seq := s.glb.detected }] := by
  have adc : adcOf (badCounted p q ((adcOf s p q).bad + 1) s) p q = { adcOf s p q with bad := (adcOf s p q).bad + 1 } := adcOf_modAdc ..
  have queued := (adcFailed_queued (p := p) (q := q) (pos := (adcOf s p q).shadow) (s := badCounted p q ((adcOf s p q).bad + 1) s) rx
    (by rw [adc]; exact hk) (by rw [adc]; exact hs) (decide (1024 < rms))).1
  rw [shadowBlock_runs hs hl (if_pos hr), if_pos h3, queued, adc]
  rfl

/-- In RX a pass moves the spare to the next position, and after the eighth it is ready; nothing is swapped. -/
theorem shadowPass_passes {p : Fin 64} {q : Bool} {s : State} (hs : (adcOf s p q).spare < 9) (hl : s.pwr.level ≠ 3)
    (hr : pathInRx s p = true) : adcOf (shadowPass p q s) p q = { adcOf s p q with
        shadow := ((adcOf s p q).shadow + 1) % 8
        passes := min 8 ((adcOf s p q).passes + 1)
        bad := 0
        ready := (adcOf s p q).ready || decide (8 ≤ (adcOf s p q).passes + 1) } ∧ changedOnly [.paths] s (shadowPass p q s) := by
  have rx (f : Adc → Adc) : pathInRx (modAdc p q f s) p = true := hr
  unfold shadowPass; dsimp only
  rw [if_neg (not_or_intro (Nat.not_le.mpr hs) (by simp [convertersOn_of hl])), adcSwapSoon_waits (rx _), faultSoon_waits (.inr (rx _))]
  exact ⟨adcOf_modAdc .., changedOnly_modAdc ..⟩

/-! ### Corrections (R113, R115) -/

/-- An ADC with the corrections of a sub-converter, which the spare learns as those of the position it shadows. -/
def corrected (sub : Nat) (c : Int × Int × Int) (a : Adc) : Adc :=
  { a with corr := tset noCorr a.corr sub c, learned := if sub = a.spare then tset noCorr a.learned a.shadow c else a.learned }

/-- A correction within its limits is stored and nothing else. -/
theorem adcEstimate_within {o g k : Int} (ho : -96 ≤ o ∧ o ≤ 96) (hg : -400 ≤ g ∧ g ≤ 400) (hk : -70 ≤ k ∧ k ≤ 70)
    (p : Nat) (q : Bool) (sub : Nat) (s : State) : adcEstimate p q sub o g k s = modAdc p q (corrected sub (o, g, k)) s := by
  unfold adcEstimate
  simp only [clampI_of_mem ho.1 ho.2, clampI_of_mem hg.1 hg.2, clampI_of_mem hk.1 hk.2, ne_eq, not_true_eq_false, if_false]
  split
  · rfl
  · rfl

/-- An offset past its limit, of a sub-converter that stands in a position, is a failure of the position. -/
theorem adcEstimate_past {p : Fin 64} {q : Bool} {sub pos : Nat} {o : Int} {s : State} (ho : 96 < o)
    (hp : positionOf (adcOf s p q) sub = some pos) (g k : Int) : adcEstimate p q sub o g k s =
      adcFailed p q false pos (modAdc p q (corrected sub (clampI (-96) 96 o, clampI (-400) 400 g, clampI (-70) 70 k)) s) := by
  have limit : clampI (-96) 96 o = 96 := by rw [clampI, if_neg (by omega), if_pos ho]
  have past : (clampI (-96) 96 o, clampI (-400) 400 g, clampI (-70) 70 k) ≠ (o, g, k) := fun e => by
    have := congrArg Prod.fst e; dsimp only at this; omega
  have stands : positionOf (adcOf (modAdc p q (corrected sub (clampI (-96) 96 o, clampI (-400) 400 g, clampI (-70) 70 k)) s) p q) sub = some pos := by
    rw [adcOf_modAdc]; exact hp
  unfold corrected at stands ⊢
  unfold adcEstimate; dsimp only
  rw [stands]
  exact if_pos past

theorem adcEstimate_fails {p : Fin 64} {q : Bool} {sub pos : Nat} {o : Int} {s : State} (ho : 96 < o) (hr : pathInRx s p = true)
    (hs : (adcOf s p q).spare < 9) (hp : positionOf (adcOf s p q) sub = some pos) (hk : adcKnown (adcOf s p q) pos = false) (g k : Int) :
    (adcOf (adcEstimate p q sub o g k s) p q).failed =
      (adcOf s p q).failed ++ [{ pos := pos, gross := false, seq := s.glb.detected }] := by
  rw [adcEstimate_past ho hp]
  generalize (clampI (-96) 96 o, clampI (-400) 400 g, clampI (-70) 70 k) = c
  have adc : adcOf (modAdc p q (corrected sub c) s) p q = corrected sub c (adcOf s p q) := adcOf_modAdc ..
  have queued := (adcFailed_queued (p := p) (q := q) (pos := pos) (s := modAdc p q (corrected sub c) s) hr
    (by rw [adc]; exact hk) (by rw [adc]; exact hs) false).1
  rw [queued, adc]
  rfl

/-! ### Segments of a DAC (R120 to R122) -/

/-- A segment that trims or failed already, one of a FAULTED chain, and in TX one without a reserve left. -/
theorem segmentMeasured_nothing {p : Nat} {q : Bool} {seg : Nat} {ok : Bool} {s : State}
    (h : ok = true ∨ (pathOf s p).txFault ≠ 0 ∨ (dacOf s p q).failed.any (·.pos == seg) = true ∨
      ((dacOf s p q).left = 0 ∧ pathInTx s p = true) ∨ s.pwr.level = 3) : segmentMeasured p q seg ok s = s := by
  refine if_pos ?_
  rcases h with trims | faulted | known | spent | off
  · exact .inl trims
  · exact .inr (.inl faulted)
  · exact .inr (.inr (.inr (.inl known)))
  · exact .inr (.inr (.inl spent))
  · exact .inr (.inr (.inr (.inr (by simp [convertersOff_of off]))))

/-- A segment in TX that cannot be trimmed waits for the boundary: beside its DAC only the number of failures changes. -/
theorem segmentMeasured_queued {p : Fin 64} {q : Bool} {seg : Nat} {s : State} (hl : s.pwr.level ≠ 3) (hf : (pathOf s p).txFault = 0)
    (hn : (dacOf s p q).failed.any (·.pos == seg) = false) (h0 : (dacOf s p q).left ≠ 0) (ht : pathInTx s p = true) :
    dacOf (segmentMeasured p q seg false s) p q =
        { dacOf s p q with failed := (dacOf s p q).failed ++ [{ pos := seg, seq := s.glb.detected }] } ∧
      changedOnly [.paths, .glb] s (segmentMeasured p q seg false s) := by
  have measured : ¬ (false = true ∨ (pathOf s p).txFault ≠ 0 ∨ ((dacOf s p q).left = 0 ∧ pathInTx s p = true) ∨
      (dacOf s p q).failed.any (·.pos == seg) = true ∨ ¬ convertersOn s = true) := by
    simp [hf, hn, h0, convertersOn_of hl]
  have tx (f : Dac → Dac) : pathInTx (modDac p q f (failNumber s).2) p = true := ht
  unfold segmentMeasured; dsimp only
  rw [if_neg measured, if_pos (tx _)]
  exact ⟨dacOf_modDac .., (modDac_keeps rfl (failNumber_keeps rfl (Kept.refl _ s))).changedOnly⟩

/-! ### Over-current (R127) -/

/-- The times of the trips of a path within the last second of TB1. -/
def recentTrips (s : State) (p : Nat) : List Nat := (pathOf s p).ocpTimes.filter (fun u => decide (s.time.tb1 < u + secTu))

theorem ocpTrip_nothing {p : Nat} {s : State} (h : (pathOf s p).txFault ≠ 0) : ocpTrip p s = s := if_pos h

/-- A path after a trip: muted up to the boundary, and with its third trip within a second waiting for the over-current fault. -/
def tripped (s : State) (p : Nat) (x : PathSt) : PathSt :=
  { x with
    ocp := true, ocpTimes := s.time.tb1 :: recentTrips s p
    txFaultNext := if (s.time.tb1 :: recentTrips s p).length ≥ 3 ∧ x.txFaultNext = 0 then 3 else x.txFaultNext }

/-- The state after a trip has been counted and its flag asserted. -/
def tripCounted (p : Nat) (s : State) : State :=
  ((s.modPath p (tripped s p)).addByte (Reg.PTH_OCP_COUNT p) 0 1).raise (Reg.PTH_INT_STATUS p) 5

theorem ocpTrip_eq {p : Nat} {s : State} (hf : (pathOf s p).txFault = 0) :
    ocpTrip p s = faultSoon p (refreshPath p (tripCounted p s)) := if_neg (not_not_intro hf)

theorem pathOf_tripCounted (p : Fin 64) (s : State) : pathOf (tripCounted p s) p = tripped s p (pathOf s p) :=
  (pathOf_congr ((State.raise_paths ..).trans (State.addByte_paths ..)) p).trans (pathOf_modPath_same p.isLt _ s)

theorem tripCounted_kept (p : Nat) (s : State) :
    Kept (fun x => decide (x ∈ [Part.regs, .paths])) s (refreshPath p (tripCounted p s)) :=
  refreshPath_keeps rfl (raise_keeps rfl (addByte_keeps rfl (modPath_keeps rfl (Kept.refl _ s))))

/-- While the group runs a fault that a trip brings waits for the boundary. -/
theorem ocpTrip_running {p : Fin 64} {s : State} (hf : (pathOf s p).txFault = 0) (run : pathInTx s p = true ∨ pathInRx s p = true) :
    (∃ m z, pathOf (ocpTrip p s) p = { tripped s p (pathOf s p) with muted := m, zeroed := z }) ∧
      changedOnly [.regs, .paths] s (ocpTrip p s) := by
  have K := tripCounted_kept p s
  have runs : pathInTx (refreshPath p (tripCounted p s)) p = true ∨ pathInRx (refreshPath p (tripCounted p s)) p = true := by
    rw [pathInTx_congr (K.wrp rfl) (K.rad rfl), pathInRx_congr (K.wrp rfl) (K.rad rfl)]
    exact run
  rw [ocpTrip_eq hf, faultSoon_waits runs, ← pathOf_tripCounted]
  exact ⟨pathOf_refreshPath p _, K.changedOnly⟩

end Sys2Proof.Machine
end

section
/-!
SUPPORT. A boundary of a group on one of its paths (R104, R125 to R127), and the self-checks of the converters together.
-/

namespace Sys2Proof.Machine

/-! ### What a path takes up at its boundary -/

/-- No clearing of a fault is asked for, zeroing is the one of PTH_CTRL, and the stage's mute is that of the stage. -/
def controlsTaken (p : Nat) (t : State) : Prop :=
  (pathOf t p).clearOcp = false ∧ (pathOf t p).rxZero = t.bit (Reg.PTH_CTRL p) 2 ∧
    (pathOf t p).stageMute = (t.pwr.leaving4 || decide (t.pwr.stage < 4))

theorem faultTx_clearOcp {p : Fin 64} {s : State} (h : (pathOf s p).clearOcp = false) : (pathOf (faultTx p s) p).clearOcp = false := by
  obtain ⟨m, z, path⟩ := pathOf_faultTx p s
  rw [path]
  split
  · exact h
  · rfl

theorem faultRx_clearOcp {p : Fin 64} {s : State} (h : (pathOf s p).clearOcp = false) : (pathOf (faultRx p s) p).clearOcp = false := by
  rw [pathOf_faultRx]
  split
  · exact h
  · exact h

theorem clearOcpDue_clearOcp (p : Fin 64) (s : State) : (pathOf (clearOcpDue p s) p).clearOcp = false := by
  rw [clearOcpDue, pathOf_modPath_same p.isLt]
  split
  next => rfl
  next h => simpa using h

theorem applyTrim_clearOcp (tx : Bool) (p : Fin 64) (s : State) : (pathOf (applyTrim tx p s) p).clearOcp = (pathOf s p).clearOcp := by
  unfold applyTrim; dsimp only
  rw [pathOf_ite_raise, pathOf_modPath_same p.isLt]
  cases tx <;> rfl

theorem pathBoundary_controls (p : Fin 64) (s : State) : controlsTaken p (pathBoundary p s) := by
  have cleared : (pathOf (faultRx p (faultTx p (clearOcpDue p s))) p).clearOcp = false :=
    faultRx_clearOcp (faultTx_clearOcp (clearOcpDue_clearOcp p s))
  unfold pathBoundary controlsTaken State.bit applyRxAtten applyTxAtten; dsimp only
  simp only [pathOf_modPath_same p.isLt, State.modPath_reg, State.modPath_pwr, applyTrim_clearOcp, cleared, true_and]
  rfl

theorem pathBoundary_pwr (j : Nat) (s : State) : (pathBoundary j s).pwr = s.pwr :=
  (pathBoundary_keeps rfl rfl rfl rfl rfl rfl rfl rfl rfl rfl (Kept.refl outsidePwr s)).pwr rfl

theorem groupBoundary_pwr (g : Nat) (s : State) : (groupBoundary g s).pwr = s.pwr :=
  (groupBoundary_keeps rfl rfl rfl rfl rfl rfl rfl rfl rfl rfl rfl rfl rfl rfl (Kept.refl outsidePwr s)).pwr rfl

/-- The boundary of one path leaves what another took up. -/
theorem pathBoundary_controlsTaken (p : Fin 64) (j : Nat) {t : State} (h : controlsTaken p t) : controlsTaken p (pathBoundary j t) := by
  by_cases hj : p.val = j
  · exact hj ▸ pathBoundary_controls p t
  · have regs := pathBoundary_pathRegs (p := j) (PathRegsKept.refl t)
    unfold controlsTaken State.bit at h ⊢
    rw [pathOf_pathBoundary_ne hj, regs.ctrl, pathBoundary_pwr]
    exact h

/-- A boundary of a group reaches each of its paths. -/
theorem groupBoundary_reaches {P : State → Prop} {s : State} {p : Fin 64} {g : Nat} (h : s.groupOf p = g)
    (reach : ∀ t, P (pathBoundary p t)) (keep : ∀ j t, P t → P (pathBoundary j t)) : P (groupBoundary g s) := by
  have group : (boundaryBegun g s).groupOf p = g := by
    rw [← h, State.groupOf, State.pathCfg, State.warp, boundaryBegun_wrp]; rfl
  have member : p.val ∈ pathsOfGroup (boundaryBegun g s) g :=
    List.mem_filter.mpr ⟨List.mem_range.mpr p.isLt, by simpa using group⟩
  exact forAll_reaches member reach keep _

theorem groupBoundary_ctrl (g : Nat) (s : State) (p : Nat) : (groupBoundary g s).reg (Reg.PTH_CTRL p) = s.reg (Reg.PTH_CTRL p) :=
  (forAll_pathRegs _ (fun _ _ => pathBoundary_pathRegs) (convSwaps_pathRegs (boundaryBegun_pathRegs g s))).ctrl p

/-- At a boundary of its group a path zeroes as PTH_CTRL says, mutes as the stage does, and has its over-current fault cleared. -/
theorem groupBoundary_controls {s : State} {p : Fin 64} {g : Nat} (h : s.groupOf p = g) :
    (pathOf (groupBoundary g s) p).clearOcp = false ∧ (pathOf (groupBoundary g s) p).rxZero = s.bit (Reg.PTH_CTRL p) 2 ∧
      (pathOf (groupBoundary g s) p).stageMute = (s.pwr.leaving4 || decide (s.pwr.stage < 4)) := by
  have taken : controlsTaken p (groupBoundary g s) :=
    groupBoundary_reaches h (pathBoundary_controls p) fun j _ => pathBoundary_controlsTaken p j
  unfold controlsTaken State.bit at taken
  rw [groupBoundary_ctrl, groupBoundary_pwr] at taken
  exact taken

/-- Settles O16: each self-check by whether the converters run, whether the failure is known, and whether its group runs; the boundary by what
each of its paths takes up. -/
theorem converterFaults : Obligations.ConverterFaults := by
  unfold Obligations.ConverterFaults
  refine fun s p => ⟨fun q rms => ⟨_, rfl, fun h => shadowBlock_nothing h rms, fun hs hl hr => ?_, fun hs hl hr h3 => ?_,
      fun hs hl hr h3 rx hk => shadowBlock_fails hs hl hr h3 rx hk⟩,
    fun q => ⟨_, rfl, shadowPass_nothing, shadowPass_passes⟩,
    fun q pos => ⟨_, rfl, fun h => ?_, fun hl hr hf => ?_, fun hl hr hk hs => ?_, fun hl hr hk h9 hf => ?_⟩,
    fun q sub o g k => ⟨_, rfl, fun h => whenB_convertersOff h _, fun hl o1 o2 g1 g2 k1 k2 => ?_, fun hl ho hr hs pos hp hk => ?_⟩,
    fun q seg ok => ⟨_, rfl, fun h => ?_, fun hok hf hn h0 ht hl => ?_⟩,
    ⟨_, rfl, ocpTrip_nothing, fun hf => ⟨ocpTrip_flags hf, fun run => ?_⟩⟩,
    fun g => ⟨_, rfl, fun hg => ?_⟩⟩
  · exact shadowBlock_counts hs hl (if_neg (by omega)) (by decide)
  · exact shadowBlock_counts hs hl (if_pos hr) h3
  · rcases h with h | ⟨hk, h⟩
    · exact whenB_convertersOff h _
    · by_cases hl : s.pwr.level = 3
      · exact whenB_convertersOff hl _
      · rw [whenB_convertersOn hl, adcFailed_known hk]
        exact fillBegin_nothing h
  · rw [whenB_convertersOn hl]; exact adcFailed_gross_fills hr hf
  · rw [whenB_convertersOn hl]; exact adcFailed_queued hr hk hs true
  · rw [whenB_convertersOn hl]; exact adcFailed_gross_retires hr hk h9 hf
  · have stored := adcEstimate_stores ⟨o1, o2⟩ ⟨g1, g2⟩ ⟨k1, k2⟩ q sub s (p := p)
    have within := adcEstimate_within ⟨o1, o2⟩ ⟨g1, g2⟩ ⟨k1, k2⟩ p q sub s
    rw [whenB_convertersOn hl]
    rw [within] at stored ⊢
    exact ⟨changedOnly_modAdc .., stored, by rw [adcOf_modAdc]; rfl, adcOf_modAdc_other ..⟩
  · rw [whenB_convertersOn hl]; exact adcEstimate_fails ho hr hs hp hk g k
  · exact segmentMeasured_nothing h
  · rw [hok]; exact segmentMeasured_queued hl hf hn h0 ht
  · obtain ⟨⟨m, z, path⟩, only⟩ := ocpTrip_running hf run
    rw [path]
    exact ⟨rfl, only, fun h2 h0 => if_pos ⟨Nat.succ_le_succ h2, h0⟩,
      fun h2 => if_neg fun h => absurd (Nat.le_of_succ_le_succ h.1) (Nat.not_le.mpr h2)⟩
  · obtain ⟨ocp, mute⟩ := groupBoundary_takes hg
    obtain ⟨cleared, zero, stage⟩ := groupBoundary_controls hg
    exact ⟨ocp, cleared, mute, zero, stage⟩

end Sys2Proof.Machine
end

section
/-!
SUPPORT. The registers of the SYN block: what the news of a role's validity, bursts and calibrations cut short, and surveys that end leave of them
(R133 to R147).
-/

namespace Sys2Proof.Machine

/-- An address of the SYN block. -/
abbrev synReg (a : Nat) : Prop := a / 0x10000 = 7

theorem synReg.ne {a b : Nat} (ha : synReg a) (hb : ¬ synReg b) : a ≠ b := fun e => hb (e ▸ ha)

/-- Changes of a list that each leave a register leave it together. -/
theorem forAll_reg {α : Type} {f : α → State → State} {l : List α} {a : Nat} (hf : ∀ x ∈ l, ∀ t, (f x t).reg a = t.reg a) (s : State) :
    (forAll l f s).reg a = s.reg a := by
  unfold forAll
  induction l generalizing s with
  | nil => rfl
  | cons x l ih =>
    rw [List.foldl_cons, ih fun y hy => hf y (List.mem_cons_of_mem x hy), hf x List.mem_cons_self]

theorem reportUp_reg (sub tag : Nat) (body : List Byte) (s : State) (a : Nat) : (reportUp sub tag body s).reg a = s.reg a :=
  (reportUp_keeps (L := fun p => decide (p ∈ [Part.cas])) rfl (Kept.refl _ s)).reg rfl a

section

variable {a : Nat} (ha : synReg a)
include ha

/-! ### The log and the messages to flocks -/

theorem logPut_synReg (s : State) (kind index cls : Nat) (ev : Bool) (detail : Word) : (s.logPut kind index cls ev detail).reg a = s.reg a :=
  State.logPut_reg s (ha.ne (by decide)) (ha.ne (by decide))

/-- An event of another block. -/
theorem event_synReg {b : Nat} (hb : ¬ synReg b) (s : State) (bit index : Nat) (detail : Word) : (s.event b bit index detail).reg a = s.reg a :=
  (logPut_synReg ha ..).trans (State.raise_reg_ne s (ha.ne hb))

/-- The register of lost messages of a flock, and the flags of the fronthaul, are none of the SYN block. -/
theorem synReg.ne_flockRegs (k : Nat) : a ≠ Reg.FHP_FLOCK_CTRL_LOST k ∧ a ≠ Reg.FHP_INT_STATUS :=
  ⟨ha.ne (by unfold Reg.FHP_FLOCK_CTRL_LOST; omega), ha.ne (by decide)⟩

theorem noticeRole_synReg (r : Nat) (valid : Bool) (s : State) : (noticeRole r valid s).reg a = s.reg a :=
  forAll_reg (fun k _ t => State.notice_reg t (ha.ne_flockRegs k).1 (ha.ne_flockRegs k).2) s

/-! ### Blocks that are discarded (R193, R195) -/

theorem synReg.ne_dpdStatus (p : Nat) : a ≠ Reg.DPD_STATUS p := ha.ne (by unfold Reg.DPD_STATUS; omega)

theorem attemptReject_synReg (p code : Nat) (s : State) : (attemptReject p code s).reg a = s.reg a := by
  rw [attemptReject, attemptLog, logPut_synReg ha, State.raise_reg_ne _ (ha.ne (by decide)), attemptStatus,
    State.setFld_reg_ne _ (ha.ne_dpdStatus p), State.setFld_reg_ne _ (ha.ne_dpdStatus p)]
  rfl

theorem discardBlock_synReg (p code : Nat) (s : State) : (discardBlock p code s).reg a = s.reg a := by
  have noted (f : DpdPath → DpdPath) : ((s.setFld (Reg.DPD_STATUS p) 23 16 code).modDpdPath p f).reg a = s.reg a :=
    State.setFld_reg_ne s (ha.ne_dpdStatus p)
  unfold discardBlock
  split
  · split
    · exact attemptReject_synReg ha p code s
    · exact noted _
  · split
    · exact attemptReject_synReg ha p code s
    · exact noted _
  · rfl

theorem dropBlocks_synReg (r : Nat) (s : State) : (dropBlocks r s).reg a = s.reg a :=
  forAll_reg (fun o _ t => by
    unfold dropBlock
    split
    · exact discardBlock_synReg ha ..
    · rfl) s

/-! ### Bursts that are cut (R140, R213) -/

theorem hostBurstReport_synReg (r : BurstReport) (s : State) : (hostBurstReport r s).reg a = s.reg a := by
  have int : a ≠ Reg.RAD_INT_STATUS := ha.ne (by decide)
  unfold hostBurstReport
  split
  · rw [State.raise_reg_ne _ int, State.addLo_reg_ne _ (ha.ne (by decide))]
  · rw [State.raise_reg_ne _ int]; rfl

theorem burstReport_synReg (g : Nat) (b : Burst) (outcome code : Nat) (s : State) : (burstReport g b outcome code s).reg a = s.reg a := by
  have throttle : a ≠ Reg.THM_THROTTLE := ha.ne (by decide)
  have logged (detail : Word) : (if outcome ≥ 3 then s.event Reg.RAD_INT_STATUS 0 g detail else s).reg a = s.reg a := by
    split
    · exact event_synReg ha (by decide) ..
    · rfl
  have counted (u : State) : (if code = 0x22 then (if outcome = 3 then u.addHi Reg.THM_THROTTLE 1 else u.addLo Reg.THM_THROTTLE 1)
      else u).reg a = u.reg a := by
    split
    · split
      · exact State.addHi_reg_ne u throttle
      · exact State.addLo_reg_ne u throttle
    · rfl
  unfold burstReport; dsimp only
  split
  · rw [hostBurstReport_synReg ha, counted, logged]
  next k _ => rw [flockBurstReport, State.post_reg _ (ha.ne_flockRegs k).1 (ha.ne_flockRegs k).2, counted, logged]
  · split
    · rw [reportUp_reg, counted, event_synReg ha (by decide)]
    · exact counted s

theorem cutLost_synReg (r : Nat) (s : State) : (cutLost r s).reg a = s.reg a := by
  unfold cutLost
  refine forAll_reg (fun g _ t => ?_) s
  split
  · refine forAll_reg (fun b _ u => ?_) t
    rw [burstReport_synReg ha]
    rfl
  · rfl

/-! ### Calibrations and surveys that a lost role ends (R200, R428) -/

theorem synReg.ne_calStatus {p : Nat} (hp : p < 64) : a ≠ Reg.NVS_CAL_STATUS p := ha.ne (by unfold Reg.NVS_CAL_STATUS; omega)

theorem calOutcome_synReg {p : Nat} (hp : p < 64) (id : Nat) (tx : Bool) (outcome code : Nat) (s : State) :
    (calOutcome id tx p outcome code s).reg a = s.reg a := by
  have shown : (match calSlot id tx with
      | some i => s.setFld (Reg.NVS_CAL_STATUS p) (2 * i + 1) (2 * i) outcome
      | none => s).reg a = s.reg a := by
    split
    · exact State.setFld_reg_ne s (ha.ne_calStatus hp)
    · rfl
  unfold calOutcome; dsimp only
  split
  · exact shown
  · rw [event_synReg ha (by decide), State.setFld_reg_ne _ (ha.ne_calStatus hp)]
    exact shown

theorem calAbort_synReg (code : Nat) (s : State) : (calAbort code s).reg a = s.reg a := by
  have left (t : State) : (calLeave t).reg a = t.reg a :=
    (calLeave_keeps (L := fun p => decide (p ≠ .regs)) rfl rfl rfl rfl (Kept.refl _ t)).reg rfl a
  have flushed (t : State) : (flushChanged t).reg a = t.reg a :=
    (flushChanged_keeps (L := fun p => decide (p ≠ .regs)) rfl rfl (Kept.refl _ t)).reg rfl a
  have below {f : Nat → Bool} {p : Nat} (hp : p ∈ (List.range 64).filter f) : p < 64 := List.mem_range.mp (List.mem_of_mem_filter hp)
  unfold calAbort
  split
  · rfl
  · split
    · exact left s
    · rw [flushed, State.raise_reg_ne _ (ha.ne (by decide)), left]
      split
      · rw [forAll_reg fun p hp t => State.setFld_reg_ne t (ha.ne_calStatus (below hp)),
          forAll_reg fun p hp t => calOutcome_synReg ha (below hp) ..]
      · rw [forAll_reg fun p hp t => calOutcome_synReg ha (below hp) ..]

theorem calLoseRole_synReg (r : Nat) (s : State) : (calLoseRole r s).reg a = s.reg a := by
  unfold calLoseRole
  split
  · split
    · exact calAbort_synReg ha ..
    · rfl
  · rfl

theorem surveyAbortIf_synReg (f : Survey → Bool) (s : State) : (surveyAbortIf f s).reg a = s.reg a :=
  forAll_reg (fun v _ t => by
    rw [surveyRefuse, State.raise_reg_ne _ (ha.ne (by decide)), surveyStatus, State.reg_setReg_ne _ _ (ha.ne (by decide))]
    exact (surveyRelease_keeps (L := fun p => decide (p ≠ .regs)) rfl rfl (Kept.refl _ t)).reg rfl a) s

theorem roleLost_synReg (r : Nat) (s : State) : (roleLost r s).reg a = s.reg a := by
  rw [roleLost, surveyAbortIf_synReg ha, calLoseRole_synReg ha, cutLost_synReg ha]

end

/-! ### Changes that are watched (R138, R139) -/

/-- The SYN block, and its registers, are the same in two states. -/
structure SynSame (s t : State) : Prop where
  syn : t.syn = s.syn
  reg : ∀ a, synReg a → t.reg a = s.reg a

theorem SynSame.bit {s t : State} (h : SynSame s t) {a : Nat} (ha : synReg a) (i : Nat) : t.bit a i = s.bit a i := by
  rw [State.bit, h.reg a ha]; rfl

/-- A watched change acts on a state with the present SYN block, and what follows it leaves that block and its registers. -/
theorem watchRoles_synSame (f : State → State) (s : State) : ∃ u, SynSame s u ∧ SynSame (f u) (watchRoles f s) := by
  refine ⟨forAll ((List.range 2).filter (fun r => roleValid s r && !roleValid (f s) r)) dropBlocks s,
    ⟨(forAll_keeps (L := watchParts) (fun _ _ K => dropBlocks_keeps rfl rfl rfl K) (Kept.refl _ s)).syn rfl,
      fun a ha => forAll_reg (fun r _ => dropBlocks_synReg ha r) s⟩, ?_, fun a ha => ?_⟩
  · refine (forAll_keeps (L := watchParts) (fun r t K => ?_) (refreshMutes_keeps rfl (Kept.refl _ _))).syn rfl
    exact Kept.ite K (noticeRole_keeps rfl rfl K)
  · refine (forAll_reg (fun r _ t => ?_) _).trans
      ((refreshMutes_keeps (L := fun p => decide (p ≠ .regs)) rfl (Kept.refl _ _)).reg rfl a)
    dsimp only
    split
    · rfl
    · exact noticeRole_synReg ha ..

/-- Where a change does its work on the SYN block by a function of the block, so does the watched change. -/
theorem watchRoles_syn_eq {f : State → State} {g : Syn → Syn} (hf : ∀ u, (f u).syn = g u.syn) (s : State) :
    (watchRoles f s).syn = g s.syn := watchRoles_syn (fun y => y = g s.syn) fun u hu => by rw [hf, hu]

/-- A watched change leaves each register of the SYN block that the change leaves. -/
theorem watchRoles_synReg {f : State → State} {a : Nat} (ha : synReg a) (hf : ∀ u, (f u).reg a = u.reg a) (s : State) :
    (watchRoles f s).reg a = s.reg a := by
  obtain ⟨u, before, after⟩ := watchRoles_synSame f s
  rw [after.reg a ha, hf, before.reg a ha]

/-- Whether a role is valid is told by the SYN block. -/
theorem roleValid_congr {s t : State} (h : t.syn = s.syn) (r : Nat) : roleValid t r = roleValid s r := by
  unfold roleValid roleReady roleUnit cnvValid
  rw [h]

/-- A watched change that changes nothing refreshes the mutes at most. -/
theorem watchRoles_idle {f : State → State} {s : State} (h : f s = s) : (watchRoles f s).syn = s.syn ∧ (watchRoles f s).regs = s.regs := by
  have none_lost : (List.range 2).filter (fun r => roleValid s r && !roleValid (f s) r) = [] := by simp [h]
  have muted := refreshMutes_keeps (L := fun p => decide (p = .paths)) rfl (Kept.refl _ s)
  unfold watchRoles; dsimp only
  rw [none_lost, show forAll [] dropBlocks s = s from rfl, h]
  refine forAll_induct (P := fun t => t.syn = s.syn ∧ t.regs = s.regs) (fun r t ht => ?_) _ ⟨muted.syn rfl, (muted.regs rfl).1⟩
  rw [if_pos (by rw [roleValid_congr ht.1]; exact beq_self_eq_true _)]
  exact ht

/-! ### Flags of SYN_INT_STATUS -/

theorem synFlag_raise (s : State) {b : Nat} (hb : b < 32) : (s.raise Reg.SYN_INT_STATUS b).bit Reg.SYN_INT_STATUS b = true :=
  State.bit_raise s (present_synInt _) hb

theorem synFlag_event (s : State) {b : Nat} (hb : b < 32) (index : Nat) (detail : Word) :
    (s.event Reg.SYN_INT_STATUS b index detail).bit Reg.SYN_INT_STATUS b = true := by
  rw [State.bit, State.event, logPut_synReg (by decide)]
  exact synFlag_raise s hb

end Sys2Proof.Machine
end

section
/-!
SUPPORT. References and the converter clock: which reference is followed after a loss, a check, a write of SYN_REF_CFG or a lock, and what a loss
of the clock shows (R133, R134, R136, R142).
-/

namespace Sys2Proof.Machine

/-! ### References that are followed (R133, R134) -/

/-- The SYN block from when a reference is followed. -/
def Syn.followed (b : Bool) (y : Syn) : Syn := { y with active := b2n b, holdover := false, cnvLock := true, refGone := false }

/-- The SYN block with what is known of a reference. -/
def Syn.measured (b v : Bool) (y : Syn) : Syn := if b then { y with bValid := v } else { y with aValid := v }

theorem setRefValid_syn (b v : Bool) (s : State) : (setRefValid b v s).syn = s.syn.measured b v := rfl

theorem Syn.refOk_measured (b v : Bool) (y : Syn) : (y.measured b v).refOk b = v := by cases b <;> rfl

theorem Syn.refOk_measured_other (b v : Bool) (y : Syn) : (y.measured b v).refOk (!b) = y.refOk (!b) := by cases b <;> rfl

/-- What is known of a reference says nothing of the one followed. -/
theorem Syn.clock_measured (b v : Bool) (y : Syn) : (y.measured b v).active = y.active ∧ (y.measured b v).holdover = y.holdover ∧
    (y.measured b v).cnvLock = y.cnvLock ∧ (y.measured b v).refGone = y.refGone := by
  cases b <;> exact ⟨rfl, rfl, rfl, rfl⟩

theorem watchRoles_refSwitch_syn (b : Bool) (s : State) : (watchRoles (refSwitch b) s).syn = s.syn.followed b :=
  watchRoles_syn_eq (refSwitch_syn b) s

/-- Following another reference writes SYN_EVENT_COUNT and SYN_INT_STATUS alone. -/
theorem refSwitch_reg (b : Bool) (s : State) {a : Nat} (hc : a ≠ Reg.SYN_EVENT_COUNT) (hi : a ≠ Reg.SYN_INT_STATUS) :
    (refSwitch b s).reg a = s.reg a := by
  rw [refSwitch, State.raise_reg_ne _ hi, State.addByte_reg_ne _ hc]
  rfl

/-! ### Loss of the active reference (R134) -/

/-- The SYN block when the reference followed has gone. -/
def Syn.refDropped (y : Syn) : Syn :=
  Syn.measured (y.active == 1) false { y with refGone := true, holdover := y.cnvLock, cnvLock := false }

theorem refLost_nothing {s : State} (h : 2 ≤ s.syn.active ∨ s.syn.refGone = true) : refLost s = s := if_pos h

/-- The state in which a loss has been noted. -/
def refLossNoted (s : State) : State := (s.modSyn Syn.refDropped).raise Reg.SYN_INT_STATUS 6

theorem refLossNoted_syn (s : State) : (refLossNoted s).syn = s.syn.refDropped := by rw [refLossNoted, State.raise_syn]; rfl

/-- A loss is followed by the switch to the other reference where AUTO is set, that one is valid, and the clock was locked. -/
theorem refLost_eq {s : State} (ha : s.syn.active < 2) (hg : s.syn.refGone = false) : refLost s =
    if s.bit Reg.SYN_REF_CFG 1 = true ∧ refValid s (!(s.syn.active == 1)) = true ∧ s.syn.cnvLock = true then
      refSwitch (!(s.syn.active == 1)) (refLossNoted s)
    else refLossNoted s := by
  have followed : ¬ (s.syn.active ≥ 2 ∨ s.syn.refGone = true) := by simp [hg, ha]
  have auto : (refLossNoted s).bit Reg.SYN_REF_CFG 1 = s.bit Reg.SYN_REF_CFG 1 := State.bit_raise_ne _ (by decide) (.inl (by decide))
  have other : refValid (refLossNoted s) (!(s.syn.active == 1)) = refValid s (!(s.syn.active == 1)) := by
    rw [refValid_eq, refLossNoted_syn, Syn.refDropped, Syn.refOk_measured_other]; rfl
  have locked : (refLossNoted s).syn.holdover = s.syn.cnvLock := by
    rw [refLossNoted_syn]; exact (Syn.clock_measured _ _ _).2.1
  rw [← auto, ← other, ← locked, refLost, if_neg followed]
  rfl

theorem refLost_flags {s : State} (ha : s.syn.active < 2) (hg : s.syn.refGone = false) :
    (refLost s).bit Reg.SYN_INT_STATUS 6 = true := by
  have noted : (refLossNoted s).bit Reg.SYN_INT_STATUS 6 = true := synFlag_raise _ (by decide)
  rw [refLost_eq ha hg]
  split
  · refine State.bit_raise_of_bit _ (by decide) ?_
    rw [State.bit, State.addByte_reg_ne _ (by decide)]
    exact noted
  · exact noted

/-- The number of the reference that is not followed. -/
theorem b2n_other {n : Nat} (h : n < 2) : b2n (!(n == 1)) = 1 - n := by
  obtain rfl | rfl : n = 0 ∨ n = 1 := by omega
  · rfl
  · rfl

theorem refLost_moves {s : State} (ha : s.syn.active < 2) (hg : s.syn.refGone = false) :
    if s.bit Reg.SYN_REF_CFG 1 = true ∧ refValid s (!(s.syn.active == 1)) = true ∧ s.syn.cnvLock = true then
      (refLost s).syn.active = 1 - s.syn.active ∧ (refLost s).syn.cnvLock = true ∧ (refLost s).syn.holdover = false ∧
        (refLost s).bit Reg.SYN_INT_STATUS 7 = true
    else (refLost s).syn.active = s.syn.active ∧ (refLost s).syn.refGone = true ∧ (refLost s).syn.holdover = s.syn.cnvLock ∧
      (refLost s).syn.cnvLock = false := by
  rw [refLost_eq ha hg]
  split
  · rw [refSwitch_syn]
    exact ⟨b2n_other ha, rfl, rfl, synFlag_raise _ (by decide)⟩
  · obtain ⟨active, holdover, lock, gone⟩ :=
      Syn.clock_measured (s.syn.active == 1) false { s.syn with refGone := true, holdover := s.syn.cnvLock, cnvLock := false }
    rw [refLossNoted_syn]
    exact ⟨active, gone, holdover, lock⟩

/-- A loss acts under the watch as it does on the state. -/
theorem watched_refLost {s : State} (ha : s.syn.active < 2) (hg : s.syn.refGone = false) :
    (watchRoles refLost s).bit Reg.SYN_INT_STATUS 6 = true ∧ refValid (watchRoles refLost s) (s.syn.active == 1) = false ∧
    if s.bit Reg.SYN_REF_CFG 1 = true ∧ refValid s (!(s.syn.active == 1)) = true ∧ s.syn.cnvLock = true then
      (watchRoles refLost s).syn.active = 1 - s.syn.active ∧ (watchRoles refLost s).syn.cnvLock = true ∧
        (watchRoles refLost s).syn.holdover = false ∧ (watchRoles refLost s).bit Reg.SYN_INT_STATUS 7 = true
    else (watchRoles refLost s).syn.active = s.syn.active ∧ (watchRoles refLost s).syn.refGone = true ∧
      (watchRoles refLost s).syn.holdover = s.syn.cnvLock ∧ (watchRoles refLost s).syn.cnvLock = false := by
  obtain ⟨u, before, after⟩ := watchRoles_synSame refLost s
  simp only [after.bit (show synReg Reg.SYN_INT_STATUS by decide), ← before.bit (show synReg Reg.SYN_REF_CFG by decide), refValid_eq, after.syn,
    ← before.syn] at ha hg ⊢
  exact ⟨refLost_flags ha hg, refLost_refOk ha hg, refLost_moves ha hg⟩

/-! ### Checks of a reference (R133, R134) -/

/-- The SYN block after a check of a reference: in holdover one that passes is followed, if it is the one that was lost or AUTO is set. -/
def Syn.checked (auto b ok : Bool) (y : Syn) : Syn :=
  if ok = true ∧ y.holdover = true ∧ (b2n b = y.active ∨ auto = true) then (y.measured b ok).followed b else y.measured b ok

theorem refCheck_syn (b ok : Bool) (s : State) : (refCheck b ok s).syn = s.syn.checked (s.bit Reg.SYN_REF_CFG 1) b ok := by
  obtain ⟨active, holdover, -, -⟩ := Syn.clock_measured b ok s.syn
  unfold refCheck Syn.checked; dsimp only
  rw [setRefValid_syn, active, holdover]
  split
  next h => rw [if_neg fun ⟨passes, held, _⟩ => h.elim (· passes) (· held)]; rfl
  next h =>
    obtain ⟨passes, held⟩ : ok = true ∧ s.syn.holdover = true := by simpa using h
    split
    next returned =>
      rw [if_pos ⟨passes, held, .inl returned⟩, Syn.followed, returned, ← active]; rfl
    next other =>
      split
      next auto => rw [if_pos ⟨passes, held, .inr auto⟩, refSwitch_syn]; rfl
      next manual => rw [if_neg fun ⟨_, _, h⟩ => h.elim other manual]; rfl

theorem watched_refCheck_syn (b ok : Bool) (s : State) :
    (watchRoles (refCheck b ok) s).syn = s.syn.checked (s.bit Reg.SYN_REF_CFG 1) b ok := by
  obtain ⟨u, before, after⟩ := watchRoles_synSame (refCheck b ok) s
  rw [after.syn, refCheck_syn, before.syn, before.bit (by decide)]

theorem Syn.refOk_checked (auto b ok : Bool) (y : Syn) :
    (y.checked auto b ok).refOk b = ok ∧ (y.checked auto b ok).refOk (!b) = y.refOk (!b) := by
  unfold Syn.checked
  split
  · exact ⟨Syn.refOk_measured .., Syn.refOk_measured_other ..⟩
  · exact ⟨Syn.refOk_measured .., Syn.refOk_measured_other ..⟩

/-! ### SYN_REF_CFG (R134) -/

/-- SYN_REF_CFG has its timeout and AUTO. -/
def refCfgStored (w : Word) (s : State) : State :=
  (s.setFld Reg.SYN_REF_CFG 31 16 (max 1 (fld w 31 16))).setFld Reg.SYN_REF_CFG 1 1 (fld w 1 1)

theorem refCfgStored_syn (w : Word) (s : State) : (refCfgStored w s).syn = s.syn := by
  rw [refCfgStored, State.setFld_syn, State.setFld_syn]

theorem refCfgStored_reg_ne (w : Word) (s : State) {a : Nat} (h : a ≠ Reg.SYN_REF_CFG) : (refCfgStored w s).reg a = s.reg a :=
  (State.setFld_reg_ne _ h).trans (State.setFld_reg_ne _ h)

theorem refCfgStored_timeout (w : Word) (s : State) : (refCfgStored w s).fld Reg.SYN_REF_CFG 31 16 = max 1 (fld w 31 16) := by
  have := fld_lt w 31 16
  rw [refCfgStored, State.fld_setFld_above _ _ _ (by decide) (by decide) (by decide), State.fld_setFld _ _ _ (by decide) (by decide)]
  exact Nat.mod_eq_of_lt (by omega)

theorem fld_bit (w : Word) (i : Nat) : fld w i i = b2n (bitOf w i) := by
  have lt : fld w i i < 2 := by simpa using fld_lt w i i
  rw [bitOf_eq, b2n]
  split
  next h => exact of_decide_eq_true h
  next h => have : fld w i i ≠ 1 := by simpa using h
            omega

theorem refCfgStored_auto (w : Word) (s : State) : (refCfgStored w s).bit Reg.SYN_REF_CFG 1 = bitOf w 1 := by
  rw [refCfgStored, fld_bit]
  exact State.bit_setFld _ _ _ (by decide)

theorem State.bit_eq_fld (s : State) (a i : Nat) : s.bit a i = decide (s.fld a i i = 1) := bitOf_eq ..

theorem refCfgStored_sel (w : Word) (s : State) : (refCfgStored w s).bit Reg.SYN_REF_CFG 0 = s.bit Reg.SYN_REF_CFG 0 := by
  rw [State.bit_eq_fld, State.bit_eq_fld, refCfgStored, State.fld_setFld_below _ _ _ (by decide) (by decide) (by decide) (by decide),
    State.fld_setFld_below _ _ _ (by decide) (by decide) (by decide) (by decide)]

/-- The state in which AUTO has acted: set in holdover, it takes the other reference where that one is valid. -/
def autoApplied (w : Word) (s : State) : State :=
  if bitOf w 1 = true ∧ s.syn.holdover = true ∧ s.syn.active < 2 ∧ refValid s (s.syn.active != 1) = true then
    watchRoles (refSwitch (s.syn.active != 1)) s
  else s

theorem autoApplied_refValid (w : Word) (s : State) (b : Bool) : refValid (autoApplied w s) b = refValid s b := by
  unfold autoApplied
  split
  · exact refOk_watched_refSwitch ..
  · rfl

theorem watchRoles_refSwitch_refCfg (b : Bool) (s : State) : (watchRoles (refSwitch b) s).reg Reg.SYN_REF_CFG = s.reg Reg.SYN_REF_CFG :=
  watchRoles_synReg (by decide) (fun u => refSwitch_reg b u (by decide) (by decide)) s

theorem autoApplied_refCfg (w : Word) (s : State) : (autoApplied w s).reg Reg.SYN_REF_CFG = s.reg Reg.SYN_REF_CFG := by
  unfold autoApplied
  split
  · exact watchRoles_refSwitch_refCfg ..
  · rfl

theorem refCfgStored_refValid (w : Word) (s : State) (b : Bool) : refValid (refCfgStored w s) b = refValid s b := by
  rw [refValid_eq, refCfgStored_syn]; rfl

/-- A SEL that names a reference that is not valid keeps its value, with the interrupt. -/
theorem refCfgWrite_refused {w : Word} {s : State} (h : refValid s (bitOf w 0) = false) :
    refCfgWrite w s = (autoApplied w (refCfgStored w s)).raise Reg.SYN_INT_STATUS 9 := by
  have refused : ¬ refValid (autoApplied w (refCfgStored w s)) (bitOf w 0) = true := by
    rw [autoApplied_refValid, refCfgStored_refValid, h]; exact Bool.false_ne_true
  exact if_pos refused

/-- The state in which SEL names a reference. -/
def refSelected (w : Word) (s : State) : State := (autoApplied w (refCfgStored w s)).setFld Reg.SYN_REF_CFG 0 0 (b2n (bitOf w 0))

theorem refCfgWrite_selects {w : Word} {s : State} (h : refValid s (bitOf w 0) = true) : refCfgWrite w s =
    if (refSelected w s).syn.active = b2n (bitOf w 0) then refSelected w s else watchRoles (refSwitch (bitOf w 0)) (refSelected w s) := by
  have valid : refValid (autoApplied w (refCfgStored w s)) (bitOf w 0) = true := by
    rw [autoApplied_refValid, refCfgStored_refValid, h]
  exact if_neg (not_not_intro valid)

/-- The register holds what was stored; SEL names the reference where that one is valid. -/
theorem refCfgWrite_refCfg (w : Word) (s : State) : (refCfgWrite w s).reg Reg.SYN_REF_CFG =
    if refValid s (bitOf w 0) = true then put ((refCfgStored w s).reg Reg.SYN_REF_CFG) 0 0 (b2n (bitOf w 0))
    else (refCfgStored w s).reg Reg.SYN_REF_CFG := by
  by_cases h : refValid s (bitOf w 0) = true
  · have selected : (refSelected w s).reg Reg.SYN_REF_CFG = put ((refCfgStored w s).reg Reg.SYN_REF_CFG) 0 0 (b2n (bitOf w 0)) := by
      rw [refSelected, State.reg_setFld, if_pos rfl, autoApplied_refCfg]
    rw [if_pos h, ← selected, refCfgWrite_selects h]
    split
    · rfl
    · exact watchRoles_refSwitch_refCfg ..
  · rw [if_neg h, refCfgWrite_refused (by simpa using h), State.raise_reg_ne _ (by decide), autoApplied_refCfg]

/-- A field above SEL is as it was stored. -/
theorem refCfgWrite_fld (w : Word) (s : State) (hi : Nat) {lo : Nat} (h : 0 < lo) :
    (refCfgWrite w s).fld Reg.SYN_REF_CFG hi lo = (refCfgStored w s).fld Reg.SYN_REF_CFG hi lo := by
  rw [State.fld, refCfgWrite_refCfg]
  split
  · exact fld_put_above _ _ (by decide) (by decide) h
  · rfl

theorem refCfgWrite_stores (w : Word) (s : State) : (refCfgWrite w s).fld Reg.SYN_REF_CFG 31 16 = max 1 (fld w 31 16) ∧
    (refCfgWrite w s).bit Reg.SYN_REF_CFG 1 = bitOf w 1 := by
  rw [State.bit_eq_fld, refCfgWrite_fld w s 31 (by decide), refCfgWrite_fld w s 1 (by decide), ← State.bit_eq_fld]
  exact ⟨refCfgStored_timeout w s, refCfgStored_auto w s⟩

/-- AUTO takes the other reference, also where SEL is refused. -/
theorem refCfgWrite_auto {w : Word} {s : State} (h : refValid s (bitOf w 0) = false) (auto : bitOf w 1 = true)
    (held : s.syn.holdover = true) (ha : s.syn.active < 2) (ho : refValid s (s.syn.active != 1) = true) :
    (refCfgWrite w s).syn = s.syn.followed (s.syn.active != 1) := by
  have takes : bitOf w 1 = true ∧ (refCfgStored w s).syn.holdover = true ∧ (refCfgStored w s).syn.active < 2 ∧
      refValid (refCfgStored w s) ((refCfgStored w s).syn.active != 1) = true := by
    rw [refCfgStored_refValid, refCfgStored_syn]; exact ⟨auto, held, ha, ho⟩
  rw [refCfgWrite_refused h, State.raise_syn, autoApplied, if_pos takes, watchRoles_refSwitch_syn, refCfgStored_syn]

/-- A SEL that is refused while AUTO takes nothing stores the other fields and asserts the interrupt. -/
theorem refCfgWrite_refused_alone {w : Word} {s : State} (h : refValid s (bitOf w 0) = false)
    (idle : bitOf w 1 = false ∨ s.syn.holdover = false ∨ refValid s (s.syn.active != 1) = false) :
    refCfgWrite w s = (refCfgStored w s).raise Reg.SYN_INT_STATUS 9 := by
  have quiet : ¬ (bitOf w 1 = true ∧ (refCfgStored w s).syn.holdover = true ∧ (refCfgStored w s).syn.active < 2 ∧
      refValid (refCfgStored w s) ((refCfgStored w s).syn.active != 1) = true) := by
    rw [refCfgStored_refValid, refCfgStored_syn]
    rintro ⟨auto, held, -, other⟩
    simp [auto, held, other] at idle
  rw [refCfgWrite_refused h, autoApplied, if_neg quiet]

/-! ### The converter clock (R136, R142) -/

/-- What the SYN block says of the converter clock and the reference it follows. -/
def Syn.clock (y : Syn) : Bool × Bool × Bool × Bool × Nat × Bool × Bool :=
  (y.cnvLock, y.holdover, y.cnvInvalid, y.refGone, y.active, y.aValid, y.bValid)

theorem beginSwap_clock (r : Nat) (s : State) : (beginSwap r s).syn.clock = s.syn.clock := by
  unfold beginSwap; dsimp only
  split
  · rfl
  · rfl

/-- A job that starts leaves the converter clock. -/
theorem gapStart_clock (r : Nat) (s : State) : (gapStart r s).syn.clock = s.syn.clock := by
  unfold gapStart; dsimp only
  split
  · rfl
  · split
    · rw [swapBegin, cutLost_syn]
      exact watchRoles_syn (fun y => y.clock = s.syn.clock) fun u hu => by rw [← hu]; exact beginSwap_clock r u
    · split
      · rw [calBegin, cutLost_syn]
        exact watchRoles_syn (fun y => y.clock = s.syn.clock) fun u hu => by rw [← hu]; rfl
      · rfl

theorem jobsResume_clock (s : State) : (jobsResume s).syn.clock = s.syn.clock := by
  unfold jobsResume
  split
  · rw [gapStart_clock, gapStart_clock]
  · rfl

/-- The converter clock's loop has lock on the reference that is followed. -/
def cnvLocked (s : State) : State :=
  (setRefValid (s.syn.active == 1) true s).modSyn (fun y => { y with
    cnvLock := true, holdover := false, cnvInvalid := false, refGone := false
    cnvResume := if y.cnvInvalid ∧ ¬ y.cnvLatched then 0xFF else y.cnvResume })

theorem lockDeclared_converter {s : State} (h : ∀ b, s.pwr.climb ≠ .refLock b) :
    lockDeclared .converter s = if s.syn.active ≥ 2 then s else jobsResume (watchRoles cnvLocked s) := by
  unfold lockDeclared; dsimp only
  split
  next b e => exact absurd e (h b)
  next => rfl

theorem cnvLocked_clock (s : State) : (cnvLocked s).syn.clock =
    (true, false, false, false, s.syn.active, s.syn.aValid || s.syn.active != 1, s.syn.bValid || s.syn.active == 1) := by
  unfold cnvLocked setRefValid
  cases h : s.syn.active == 1
  · simp [Syn.clock, bne, h]
  · simp [Syn.clock, bne, h]

theorem lockDeclared_converter_clock {s : State} (ha : s.syn.active < 2) (h : ∀ b, s.pwr.climb ≠ .refLock b) :
    (lockDeclared .converter s).syn.clock =
      (true, false, false, false, s.syn.active, s.syn.aValid || s.syn.active != 1, s.syn.bValid || s.syn.active == 1) := by
  rw [lockDeclared_converter h, if_neg (Nat.not_le.mpr ha), jobsResume_clock]
  exact watchRoles_syn (fun y => y.clock = _) fun u hu => by rw [cnvLocked_clock, hu]

theorem cnvLost_flags (s : State) : (cnvLost s).bit Reg.SYN_INT_STATUS 8 = true := by
  have int : synReg Reg.SYN_INT_STATUS := by decide
  unfold cnvLost; dsimp only
  rw [State.bit, roleLost_synReg int, roleLost_synReg int]
  exact synFlag_event _ (by decide) ..

theorem cnvLost_spec (s : State) : (cnvLost s).syn.cnvLock = false ∧ (cnvLost s).syn.holdover = false ∧
    (cnvLost s).syn.cnvInvalid = true ∧ (cnvLost s).bit Reg.SYN_INT_STATUS 8 = true := by
  obtain ⟨lock, holdover, invalid⟩ := cnvLost_syn s
  exact ⟨lock, holdover, invalid, cnvLost_flags s⟩

/-- A unit with lock in a band it found. -/
def SynUnit.lockedIn (band : Nat) (y : SynUnit) : SynUnit := { storeBand band y with locked := true, search := false }

/-- A unit that is on has lock in a band, and its role resumes. -/
def unitLocks (u band : Nat) (s : State) : State :=
  let s := s.modUnit u (fun y => if y.on then y.lockedIn band else y)
  match unitRole s u with
  | some r => markResume r s
  | none => s

theorem unitLocks_unit (u : Fin 3) (band : Nat) (s : State) : vget (unitLocks u band s).syn.units u =
    if (vget s.syn.units u).on = true then (vget s.syn.units u).lockedIn band else vget s.syn.units u := by
  unfold unitLocks; dsimp only
  split
  · rw [markResume_units, unit_modUnit]
  · rw [unit_modUnit]

/-- An RF unit that is on has lock in the band it found. -/
theorem lockDeclared_unit (u : Fin 3) (band : Fin 64) (s : State) :
    (vget (lockDeclared (.unit u band) s).syn.units u).locked = ((vget s.syn.units u).locked || (vget s.syn.units u).on) ∧
    ((vget s.syn.units u).on = true → (vget (lockDeclared (.unit u band) s).syn.units u).band = band) := by
  have watched : lockDeclared (.unit u band) s = watchRoles (unitLocks u band) s := rfl
  rw [watched]
  refine watchRoles_syn (fun y => (vget y.units u).locked = ((vget s.syn.units u).locked || (vget s.syn.units u).on) ∧
    ((vget s.syn.units u).on = true → (vget y.units u).band = band)) fun v hv => ?_
  rw [unitLocks_unit, hv]
  split
  next on => exact ⟨by rw [on, Bool.or_true]; rfl, fun _ => rfl⟩
  next off => exact ⟨by simp [off], fun on => absurd on off⟩

/-- Settles O17: a loss by whether it is followed by a switch, a check by what it lets follow, a write of SYN_REF_CFG by whether its SEL is
valid, a lock by its loop, and the loss of the converter clock by what it had. -/
theorem references : Obligations.References := by
  unfold Obligations.References
  refine fun s => ⟨⟨_, rfl, fun h => ?_, watched_refLost⟩,
    fun b ok => ⟨_, rfl, ?_⟩,
    fun w => hosted_completes rfl fun _ => ?_,
    ⟨_, rfl, rfl, (modSyn_keeps rfl (Kept.refl _ s)).changedOnly⟩,
    fun u band => ⟨_, rfl, lockDeclared_unit u band s⟩,
    ⟨_, rfl, fun ha hc => ?_, fun ha hc => ?_⟩,
    ⟨_, rfl, fun h => ?_, fun h => ?_⟩,
    ⟨_, rfl, fun h => ?_, fun h => ?_⟩⟩
  · exact watchRoles_idle (refLost_nothing h)
  · obtain ⟨measured, other⟩ := Syn.refOk_checked (s.bit Reg.SYN_REF_CFG 1) b ok s.syn
    obtain ⟨active, holdover, lock, -⟩ := Syn.clock_measured b ok s.syn
    simp only [refValid_eq, watched_refCheck_syn]
    refine ⟨measured, other, fun stays => ?_, fun passes held takes => ?_⟩
    · rw [Syn.checked, if_neg fun ⟨passes, held, _⟩ => by simp [passes, held] at stays]
      exact ⟨active, holdover, lock⟩
    · rw [Syn.checked, if_pos ⟨passes, held, takes⟩]
      exact ⟨rfl, rfl, rfl, rfl⟩
  · obtain ⟨timeout, auto⟩ := refCfgWrite_stores w s
    refine ⟨timeout, auto, fun hv set held ha ho => ?_, fun hv idle => ?_, fun hv => ⟨?_, refCfgWrite_follows hv⟩⟩
    · rw [refCfgWrite_auto hv set held ha ho]
      exact ⟨rfl, rfl, rfl⟩
    · rw [refCfgWrite_refused_alone hv idle]
      refine ⟨by rw [State.raise_syn, refCfgStored_syn], synFlag_raise _ (by decide), ?_, fun a ha => ?_, ?_⟩
      · rw [State.bit_raise_ne _ (by decide) (.inl (by decide)), refCfgStored_sel]
      · obtain ⟨cfg, int⟩ : a ≠ Reg.SYN_REF_CFG ∧ a ≠ Reg.SYN_INT_STATUS := by simpa using ha
        rw [State.raise_reg_ne _ int, refCfgStored_reg_ne w s cfg]
      · exact (raise_keeps rfl (setFld_keeps rfl (setFld_keeps rfl (Kept.refl _ s)))).changedOnly
    · rw [State.bit, refCfgWrite_refCfg, if_pos hv]
      exact bitOf_put _ _ (by decide)
  · rw [lockDeclared_converter hc, if_pos ha]
  · have clock := lockDeclared_converter_clock ha hc
    simp only [Syn.clock, Prod.mk.injEq] at clock
    obtain ⟨lock, holdover, invalid, gone, active, validA, validB⟩ := clock
    refine ⟨lock, holdover, invalid, gone, active, ?_⟩
    rw [refValid_eq, Syn.refOk]
    cases e : s.syn.active == 1
    · simp [validA, bne, e]
    · simp [validB, e]
  · rw [h]; rfl
  · rw [if_pos h]; exact cnvLost_spec s
  · rw [h]; rfl
  · rw [if_pos h]; exact cnvLost_spec s

end Sys2Proof.Machine
end

section
/-!
SUPPORT. Losses of lock of RF units, their latching and resumption, and units that fail (R139, R141 to R144).
-/

namespace Sys2Proof.Machine

/-! ### Units that fail (R143, R144) -/

theorem unitFailed_unassigned {u : Nat} {s : State} (h : unitRole s u = none) : unitFailed u s = s := by
  rw [unitFailed, h]

section

variable {u r : Nat} {s : State} (hr : unitRole s u = some r)
include hr

theorem unitFailed_swapping (h : (vget s.syn.roles r).swapRun = true) : unitFailed u s = s := by
  rw [unitFailed, hr]
  exact if_pos h

variable (hs : (vget s.syn.roles r).swapRun = false) (hc : s.syn.failedFirst.contains u = false)
include hs hc

/-- A failure for which no reserve is left, or which another claims, is logged alone. -/
theorem unitFailed_logged (h : 3 ≤ s.syn.reserve ∨ s.syn.failedFirst.isEmpty = false) : unitFailed u s = s.logPut 0x87 r 0 true 0 := by
  rw [unitFailed, hr]; dsimp only
  rw [hs, hc, if_neg Bool.false_ne_true, if_neg Bool.false_ne_true, if_pos (h.imp_right fun e => by simp [e])]

/-- A failure that claims the reserve is the failed unit, and its role waits for the swap. -/
theorem unitFailed_swaps (h3 : s.syn.reserve < 3) (he : s.syn.failedFirst = []) :
    unitFailed u s = failedSwap r u (s.modSyn (fun y => { y with failedFirst := y.failedFirst ++ [u] })) := by
  have free : ¬ (s.syn.reserve ≥ 3 ∨ ¬ s.syn.failedFirst.isEmpty = true) := by simp [he, h3]
  rw [unitFailed, hr]; dsimp only
  rw [hs, hc, if_neg Bool.false_ne_true, if_neg Bool.false_ne_true, if_neg free]

end

/-- A failed unit that has lock goes on while its role waits: the reserve stays. -/
theorem failedSwap_locked_reserve {r u : Nat} {s : State} (h : (vget s.syn.units u).locked = true) :
    (failedSwap r u s).syn.reserve = s.syn.reserve := by
  have waits : failedSwap r u s = s.modRole r (fun x => { x with swapWait := true, calWait := false }) := if_pos h
  rw [waits, State.modRole_syn]

/-- Jobs may start by the converter clock and the surveys alone. -/
theorem jobMayStart_congr {s t : State} {r : Nat} (hc : cnvValid t = cnvValid s)
    (hs : (vget t.syn.roles r).survey = (vget s.syn.roles r).survey) : jobMayStart t r = jobMayStart s r := by
  rw [jobMayStart, jobMayStart, hc, hs]

/-- The state in which a role waits for the swap of its unit, which is retired. -/
def unitRetired (r u : Nat) (s : State) : State :=
  (s.modRole r (fun x => { x with swapWait := true, calWait := false })).modUnit u (fun y => { y with retired := true })

theorem jobMayStart_unitRetired (r u : Nat) (s : State) : jobMayStart (unitRetired r u s) r = jobMayStart s r := by
  refine jobMayStart_congr rfl ?_
  rw [unitRetired, State.modUnit_syn, State.modRole_syn]; dsimp only
  rw [vget_vmod]
  split
  · rfl
  · rfl

/-- A failed unit without lock is retired, and its swap starts where a job may. -/
theorem failedSwap_unlocked {r u : Nat} {s : State} (h : (vget s.syn.units u).locked = false) : failedSwap r u s =
    if jobMayStart s r = true then watchRoles (beginSwap r) (unitRetired r u s) else unitRetired r u s := by
  have unlocked : ¬ (vget (s.modRole r (fun x => { x with swapWait := true, calWait := false })).syn.units u).locked = true := by
    rw [State.modRole_syn, h]; exact Bool.false_ne_true
  rw [← jobMayStart_unitRetired r u s]
  exact if_neg unlocked

/-- A swap that starts takes the reserve. -/
theorem beginSwap_reserve {r : Nat} {s : State} (h : s.syn.reserve < 3) : (beginSwap r s).syn.reserve = 3 := by
  unfold beginSwap; dsimp only
  rw [if_neg (Nat.not_le.mpr h)]
  rfl

theorem failedSwap_reserve {r u : Nat} {s : State} (h : (vget s.syn.units u).locked = false) (hj : jobMayStart s r = true)
    (h3 : s.syn.reserve < 3) : (failedSwap r u s).syn.reserve = 3 := by
  rw [failedSwap_unlocked h, if_pos hj]
  exact watchRoles_syn (fun y => y.reserve = 3) fun v hv => beginSwap_reserve (by rw [hv]; exact h3)

theorem beginSwap_reg (r : Nat) (s : State) (a : Nat) : (beginSwap r s).reg a = s.reg a :=
  (beginSwap_keeps (L := fun p => decide (p = .syn)) rfl (Kept.refl _ s)).reg rfl a

theorem failedSwap_synReg {a : Nat} (ha : synReg a) (r u : Nat) (s : State) : (failedSwap r u s).reg a = s.reg a := by
  unfold failedSwap; dsimp only
  split
  · rfl
  · split
    · exact watchRoles_synReg ha (fun v => beginSwap_reg r v a) _
    · rfl

theorem unitFailed_synReg {a : Nat} (ha : synReg a) (u : Nat) (s : State) : (unitFailed u s).reg a = s.reg a := by
  unfold unitFailed
  split
  · rfl
  · split
    · rfl
    · split
      · exact failedSwap_synReg ha ..
      · split
        · exact logPut_synReg ha ..
        · exact failedSwap_synReg ha ..

/-! ### Loss of lock (R139) -/

section

variable {u : Nat} {s : State}

theorem lossOfLock_unlocked (h : (vget s.syn.units u).locked = false) : lossOfLock u s = s := if_pos (by simp [h])

/-- A unit that holds no role loses its lock, and nothing else changes. -/
theorem lossOfLock_unassigned (hl : (vget s.syn.units u).locked = true) (hr : unitRole s u = none) :
    changedOnly [.syn] s (lossOfLock u s) := by
  unfold lossOfLock; dsimp only
  rw [if_neg (not_not_intro hl), hr]
  exact (modUnit_keeps rfl (Kept.refl _ s)).changedOnly

/-- The loss of a role is reported. -/
theorem lossOfLock_flags {r : Nat} (hl : (vget s.syn.units u).locked = true) (hr : unitRole s u = some r) :
    (lossOfLock u s).bit Reg.SYN_INT_STATUS 0 = true := by
  have int : synReg Reg.SYN_INT_STATUS := by decide
  have reported (t : State) : (roleLost r (t.event Reg.SYN_INT_STATUS 0 r 0)).bit Reg.SYN_INT_STATUS 0 = true := by
    rw [State.bit, roleLost_synReg int]; exact synFlag_event t (by decide) ..
  unfold lossOfLock; dsimp only
  rw [if_neg (not_not_intro hl), hr]; dsimp only
  split
  · rw [State.bit, unitFailed_synReg int]; exact reported _
  · exact reported _

end

/-! ### Latching and RESUME (R141, R142) -/

theorem latchLo_role_eq (r : Fin 2) (s : State) : latchLo (.role r) s =
    if (vget s.syn.roles r).lost = true ∧ roleReady s r = false ∧ (vget s.syn.roles r).latched = false then
      (watchRoles (·.modRole r (fun y => { y with latched := true, lost := false })) s).event Reg.SYN_INT_STATUS 2 r 0
    else s := by
  unfold latchLo; dsimp only
  simp only [Bool.not_eq_true]

theorem latchLo_converter_eq (s : State) : latchLo .converter s =
    if s.syn.cnvInvalid = true ∧ s.syn.cnvLatched = false then
      (watchRoles (·.modSyn (fun y => { y with cnvLatched := true })) s).event Reg.SYN_INT_STATUS 2 2 0
    else s := by
  unfold latchLo; dsimp only
  simp only [Bool.not_eq_true]

theorem changedOnly_modRole (r : Nat) (f : SynRole → SynRole) (s : State) : changedOnly [.syn] s (s.modRole r f) :=
  (modRole_keeps rfl (Kept.refl _ s)).changedOnly

theorem changedOnly_modUnit (u : Nat) (f : SynUnit → SynUnit) (s : State) : changedOnly [.syn] s (s.modUnit u f) :=
  (modUnit_keeps rfl (Kept.refl _ s)).changedOnly

/-- A command of host software that has nothing to act on. -/
theorem State.hosted_nothing {a : Nat} {f : State → State} {s : State} (h : s.served a = true → f s = s) : s.hosted a f = s := by
  unfold State.hosted
  split
  next hs => exact h hs
  next => rfl

theorem role_modRole_named (b : Bool) (f : SynRole → SynRole) (s : State) :
    vget (s.modRole (b2n b) f).syn.roles (b2n b) = f (vget s.syn.roles (b2n b)) := role_modRole ⟨b2n b, b2n_lt_two b⟩ f s

theorem resumeRole_nothing {r : Nat} {s : State} (h : (vget s.syn.roles r).latched = false) : resumeRole r s = s := if_neg (by simp [h])

theorem resumeCnv_nothing {s : State} (h : s.syn.cnvLatched = false) : resumeCnv s = s := if_neg (by simp [h])

/-- Settles O18: a loss by whether the unit has lock and a role, the latches by what is lost, RESUME by what is latched, and a failure by the
reserve. -/
theorem lossAndResume : Obligations.LossAndResume := by
  unfold Obligations.LossAndResume
  refine fun s => ⟨fun u => ⟨_, rfl, lossOfLock_unlocked, fun hl hr => ⟨lossOfLock_reserve hl hr, lossOfLock_unassigned hl hr⟩,
      fun r hl hr => lossOfLock_flags hl hr⟩,
    fun u => ⟨_, rfl, ?_⟩, fun r => ⟨_, congrArg Host.Outcome.next (latchLo_role_eq r s), ?_⟩,
    ⟨_, congrArg Host.Outcome.next (latchLo_converter_eq s), ?_⟩,
    fun b => ⟨_, rfl, ?_⟩, ⟨_, rfl, ?_⟩,
    fun u => ⟨_, rfl, unitFailed_unassigned, fun r => unitFailed_swapping, fun r hr hs hc => ⟨fun h => ?_, fun h3 he => ?_⟩⟩⟩
  · simp only [Bool.not_eq_true]
    split
    · exact ⟨unit_modUnit .., changedOnly_modUnit ..⟩
    · rfl
  · split
    · rw [State.event_syn]
      refine ⟨?_, synFlag_event _ (by decide) ..⟩
      exact watchRoles_syn (fun y => vget y.roles r = { vget s.syn.roles r with latched := true, lost := false }) fun v hv => by
        rw [role_modRole, hv]
    · rfl
  · split
    · rw [State.event_syn]
      refine ⟨?_, synFlag_event _ (by decide) ..⟩
      exact watchRoles_syn (fun y => y = { s.syn with cnvLatched := true }) fun v hv => by rw [State.modSyn_syn, hv]
    · rfl
  · split
    next h =>
      rw [State.hosted_served h.1, resumeRole, if_pos h.2]
      exact ⟨role_modRole_named .., changedOnly_modRole ..⟩
    next h => exact State.hosted_nothing fun hs => resumeRole_nothing (by simpa [hs] using h)
  · split
    next h =>
      rw [State.hosted_served h.1, resumeCnv, if_pos h.2]
      exact ⟨rfl, (modSyn_keeps rfl (Kept.refl _ s)).changedOnly⟩
    next h => exact State.hosted_nothing fun hs => resumeCnv_nothing (by simpa [hs] using h)
  · rw [unitFailed_logged hr hs hc h]
    exact ⟨State.logPut_syn .., rfl⟩
  · refine ⟨unitFailed_claims hr hs h3 he, fun hl => ?_, fun hl hj => ?_⟩
    · rw [unitFailed_swaps hr hs hc h3 he]
      exact failedSwap_locked_reserve (s := s.modSyn _) hl
    · rw [unitFailed_swaps hr hs hc h3 he]
      exact failedSwap_reserve hl hj h3

end Sys2Proof.Machine
end

section
/-!
SUPPORT. VCO calibrations, synthesiser swaps, the proving of the reserve, and the fold rotators (R144 to R149).
-/

namespace Sys2Proof.Machine

/-! ### Requests (R146, R147) -/

section

variable {r : Nat} {s : State}

theorem vcocal_nothing {force : Bool} (h : (vget s.syn.roles r).used = false ∨ ((vget s.syn.roles r).swapWait = true ∧ force = false) ∨
    (roleUnit s r).cal = true) : vcocal r force s = s := by
  refine if_pos ?_
  rcases h with unused | ⟨swap, unforced⟩ | runs
  · exact .inl (by simp [unused])
  · exact .inr (.inr ⟨swap, by simp [unforced]⟩)
  · exact .inr (.inl runs)

/-- A calibration that is not forced waits for a gap. -/
theorem vcocal_unforced (hu : (vget s.syn.roles r).used = true) (hw : (vget s.syn.roles r).swapWait = false)
    (hc : (roleUnit s r).cal = false) :
    vcocal r false s = s.modRole r (fun x => { x with calWait := true, calForce := x.calForce || false }) := by
  have free : ¬ (¬ (vget s.syn.roles r).used = true ∨ (roleUnit s r).cal = true ∨ (vget s.syn.roles r).swapWait = true ∧ ¬ false = true) := by
    simp [hu, hw, hc]
  unfold vcocal; dsimp only
  rw [if_neg free, if_neg (fun h => Bool.false_ne_true h.1)]

theorem swapRole_nothing {force : Bool} (h : (vget s.syn.roles r).used = false ∨ (vget s.syn.roles r).swapRun = true ∨ 3 ≤ s.syn.reserve) :
    swapRole r force s = s := if_pos (h.imp_left fun unused => by simp [unused])

/-- A swap that is not forced waits for a gap, in place of a calibration. -/
theorem swapRole_unforced (hu : (vget s.syn.roles r).used = true) (hr : (vget s.syn.roles r).swapRun = false) (h3 : s.syn.reserve < 3) :
    swapRole r false s = (s.modRole r (fun x => { x with calWait := false, calForce := false })).modRole r
      (fun x => { x with swapWait := true, swapForce := x.swapForce || false }) := by
  have free : ¬ (¬ (vget s.syn.roles r).used = true ∨ (vget s.syn.roles r).swapRun = true ∨ s.syn.reserve ≥ 3) := by simp [hu, hr, h3]
  unfold swapRole; dsimp only
  rw [if_neg free, if_neg (fun h => Bool.false_ne_true h.1)]

theorem gapStart_nothing (h : jobMayStart s r = false ∨ (vget s.syn.roles r).swapRun = true ∨ (roleUnit s r).cal = true ∨
    ((vget s.syn.roles r).swapWait = false ∧ (vget s.syn.roles r).calWait = false)) : gapStart r s = s := by
  unfold gapStart; dsimp only
  rcases h with held | swaps | calibrates | ⟨swap, cal⟩
  · rw [if_pos (.inl (by simp [held]))]
  · rw [if_pos (.inr (.inl swaps))]
  · rw [if_pos (.inr (.inr calibrates))]
  · split
    · rfl
    · rw [if_neg (by simp [swap]), if_neg (by simp [cal])]

end

/-! ### Calibrations and swaps that end (R144, R146) -/

theorem vcoCalDone_nothing {u : Nat} {s : State} (h : (vget s.syn.units u).cal = false) (band : Option Nat) : vcoCalDone u band s = s :=
  if_pos (by simp [h])

/-- At the end of Doze a unit that is calibrated has lock. -/
theorem unit_lockIf (u : Fin 3) (b : Bool) (s : State) :
    vget (whenB b (fun s => s.modUnit u (fun y => { y with locked := true })) s).syn.units u =
      { vget s.syn.units u with locked := b || (vget s.syn.units u).locked } := by
  cases b with
  | false => rfl
  | true => rw [whenB, if_pos rfl, unit_modUnit]; rfl

/-- A calibration that found a band leaves its unit in that band, with no need of another. -/
theorem vcoCalDone_unit {u : Fin 3} {s : State} (hc : (vget s.syn.units u).cal = true) (n : Nat) :
    ∃ l, vget (vcoCalDone u (some n) s).syn.units u =
      { storeBand n (vget s.syn.units u) with cal := false, needCal := false, locked := l } := by
  unfold vcoCalDone
  rw [if_neg (not_not_intro hc)]; dsimp only
  refine watchRoles_syn (fun y => ∃ l, vget y.units u =
    { storeBand n (vget s.syn.units u) with cal := false, needCal := false, locked := l }) fun t ht => ?_
  rw [← ht]
  split
  · rw [markResume_units, State.modRole_syn, unit_lockIf, unit_modUnit]
    exact ⟨_, rfl⟩
  · rw [unit_lockIf, unit_modUnit]
    exact ⟨_, rfl⟩

theorem swapDone_nothing {r : Nat} {s : State} (h : (vget s.syn.roles r).swapRun = false) : swapDone r s = s := if_pos (by simp [h])

theorem markResume_reserve (r : Nat) (s : State) : (markResume r s).syn.reserve = s.syn.reserve := by
  unfold markResume
  split
  · rfl
  · rfl

/-- After the swap of a failed unit there is no reserve; after a planned one it is the old unit. -/
theorem swapDone_reserve {r : Nat} {s : State} (h : (vget s.syn.roles r).swapRun = true) : (swapDone r s).syn.reserve =
    if s.syn.failedFirst.contains (vget s.syn.roles r).unit then 3 else (vget s.syn.roles r).unit := by
  have low {c : Prop} [Decidable c] (t : State) : (if c then t.reserveLow else t).syn = t.syn := by
    split
    · exact State.raise_syn ..
    · rfl
  unfold swapDone; dsimp only
  rw [if_neg (not_not_intro h), low, engageReserve_syn, State.event_syn]
  exact watchRoles_syn (fun y => y.reserve = _) fun t _ => by rw [markResume_reserve]; rfl

/-! ### The reserve (R145) -/

theorem reserveProving_nothing {s : State} (h : 3 ≤ s.syn.reserve) (ok : Bool) (a b : Nat) : reserveProving ok a b s = s := if_pos h

/-- The reserve that proves itself stays, with its bands. -/
theorem reserveProving_proves {s : State} (h : s.syn.reserve < 3) (a b : Nat) : (reserveProving true a b s).syn.reserve = s.syn.reserve ∧
    changedOnly [.syn] s (reserveProving true a b s) := by
  unfold reserveProving; dsimp only
  rw [if_neg (Nat.not_le.mpr h), if_pos rfl]
  refine ⟨forAll_induct (P := fun t => t.syn.reserve = s.syn.reserve) (fun r t ht => ?_) _ rfl,
    (forAll_keeps (fun r t K => Kept.ite (modUnit_keeps rfl K) K) (Kept.refl _ s)).changedOnly⟩
  split
  · exact ht
  · exact ht

theorem reserveProving_unit {s : State} (h : s.syn.reserve < 3) (a b : Nat) :
    (vget (reserveProving false a b s).syn.units s.syn.reserve).retired = true := by
  have mapped (t : State) : (writeReserveMap [] t.reserveLow).syn = t.syn :=
    ((writeReserveMap_keeps (L := fun p => decide (p ≠ .syn)) rfl (Kept.refl _ t.reserveLow)).syn rfl).trans (State.raise_syn ..)
  unfold reserveProving; dsimp only
  rw [if_neg (Nat.not_le.mpr h), if_neg Bool.false_ne_true, mapped]
  refine forAll_induct (P := fun t => (vget t.syn.units s.syn.reserve).retired = true) (fun r t ht => ?_) _ ?_
  · rw [State.modRole_syn]; exact ht
  rw [State.modSyn_syn, State.modUnit_syn]
  exact congrArg SynUnit.retired (vget_vmod_same _ _ h)

/-! ### Tuning voltages (R146) -/

/-- A tuning voltage of at most 80 % is kept, and nothing else changes. -/
theorem tuningLimit_within {v : Int} (h : v.natAbs ≤ 80) (u : Fin 3) (e : Bool) (s : State) :
    vget (tuningLimit u v e s).syn.units u = { vget s.syn.units u with vtune := v } ∧ changedOnly [.syn] s (tuningLimit u v e s) := by
  have within : decide (v.natAbs > 80) = false := by simpa using h
  unfold tuningLimit; dsimp only
  rw [if_neg (by omega), if_neg (by omega), within, unit_modUnit, Bool.or_false]
  exact ⟨rfl, changedOnly_modUnit ..⟩

/-! ### Fold rotators (R149) -/

/-- A field of a word that is cut to a mask with every bit of the field. -/
theorem fld_and (w m : Word) (hi lo : Nat) (h : m.extractLsb' lo (hi + 1 - lo) = BitVec.allOnes (hi + 1 - lo)) :
    fld (w &&& m) hi lo = fld w hi lo := by
  have cut (x : Word) : fld x hi lo = (x.extractLsb' lo (hi + 1 - lo)).toNat := by
    rw [BitVec.extractLsb'_toNat, Nat.shiftRight_eq_div_pow]; rfl
  rw [cut, cut, BitVec.extractLsb'_and, h, BitVec.and_allOnes]

/-- The target of a fold's rotator of a direction. -/
def Syn.target (tx : Bool) (f : Nat) (y : Syn) : Nat := if tx then vget y.tgtTx f else vget y.tgtRx f

/-- The target that a word of SYN_PHASE names for a direction. -/
def phaseTarget (tx : Bool) (w : Word) : Nat := if tx then fld w 9 0 else fld w 25 16

theorem phaseTarget_mask (tx : Bool) (w : Word) : phaseTarget tx (w &&& 0x03FF03FF) = phaseTarget tx w := by
  cases tx
  · exact fld_and w _ 25 16 (by decide)
  · exact fld_and w _ 9 0 (by decide)

theorem rotTake_target (tx : Bool) (f : Fin 8) (s : State) :
    (rotTake tx f s).syn.target tx f = phaseTarget tx (s.reg (Reg.SYN_PHASE f)) := by
  cases tx
  · exact (vget_vset ..).trans (if_pos ⟨rfl, f.isLt⟩)
  · exact (vget_vset ..).trans (if_pos ⟨rfl, f.isLt⟩)

/-- A rotator that takes its target leaves that of the other direction. -/
theorem rotTake_target_ne {tx d : Bool} (h : d ≠ tx) (f g : Nat) (s : State) : (rotTake tx f s).syn.target d g = s.syn.target d g := by
  rw [Bool.eq_not.mpr h]
  cases tx <;> rfl

theorem lineGroup_congr {s t : State} (h : t.wrp = s.wrp) (f : Nat) : lineGroup t f = lineGroup s f := by
  unfold lineGroup State.groupOf State.pathCfg State.warp
  rw [h]

/-- The group of a fold's line is in the direction's state, so a target waits for its boundary. -/
def phaseHeld (s : State) (f : Nat) (tx : Bool) : Bool :=
  match lineGroup s f with
  | some g => if tx then groupTx s g else groupRx s g
  | none => false

/-- A target is taken at once unless it is held. -/
def rotTakeUnless (held tx : Bool) (f : Nat) (s : State) : State := if held then s else rotTake tx f s

theorem phaseWrite_eq (f : Nat) (w : Word) (s : State) : phaseWrite f w s =
    rotTakeUnless (phaseHeld s f false) false f
      (rotTakeUnless (phaseHeld s f true) true f (s.setReg (Reg.SYN_PHASE f) (w &&& 0x03FF03FF))) := by
  have held (tx : Bool) : phaseHeld (s.setReg (Reg.SYN_PHASE f) (w &&& 0x03FF03FF)) f tx = phaseHeld s f tx := by
    rw [phaseHeld, lineGroup_congr (State.setReg_wrp ..)]
    unfold groupTx groupRx
    rw [State.setReg_rad]; rfl
  rw [← held true, ← held false]
  rfl

theorem rotTakeUnless_reg (held tx : Bool) (f : Nat) (s : State) (a : Nat) : (rotTakeUnless held tx f s).reg a = s.reg a := by
  cases held <;> rfl

theorem phaseWrite_regs (f : Nat) (w : Word) (s : State) : regsBut [Reg.SYN_PHASE f] s (phaseWrite f w s) := fun a ha => by
  rw [phaseWrite_eq, rotTakeUnless_reg, rotTakeUnless_reg]
  exact State.reg_setReg_ne s _ (by simpa using ha)

theorem rotTakeUnless_target (held tx : Bool) (f : Fin 8) (s : State) : (rotTakeUnless held tx f s).syn.target tx f =
    if held then s.syn.target tx f else phaseTarget tx (s.reg (Reg.SYN_PHASE f)) := by
  cases held
  · exact rotTake_target tx f s
  · rfl

theorem rotTakeUnless_target_ne {tx d : Bool} (h : d ≠ tx) (held : Bool) (f g : Nat) (s : State) :
    (rotTakeUnless held tx f s).syn.target d g = s.syn.target d g := by
  cases held
  · exact rotTake_target_ne h f g s
  · rfl

/-- A target of SYN_PHASE is taken where it is not held. -/
theorem phaseWrite_target (tx : Bool) (f : Fin 8) (w : Word) (s : State) : (phaseWrite f w s).syn.target tx f =
    if phaseHeld s f tx then s.syn.target tx f else phaseTarget tx w := by
  have stored : phaseTarget tx ((s.setReg (Reg.SYN_PHASE f) (w &&& 0x03FF03FF)).reg (Reg.SYN_PHASE f)) = phaseTarget tx w := by
    rw [State.reg_setReg, if_pos rfl, phaseTarget_mask]
  rw [phaseWrite_eq, ← stored]
  cases tx with
  | false => rw [rotTakeUnless_target, rotTakeUnless_reg, rotTakeUnless_target_ne (by decide), State.setReg_syn]
  | true => rw [rotTakeUnless_target_ne (by decide), rotTakeUnless_target, State.setReg_syn]

theorem phaseHeld_of {s : State} {f g : Nat} (h : lineGroup s f = some g) (tx : Bool) :
    phaseHeld s f tx = if tx then groupTx s g else groupRx s g := by
  rw [phaseHeld, h]

/-- At once where the group's direction is at rest, and at its boundary where it runs. -/
theorem phaseWrite_target_of {s : State} {f : Fin 8} {g : Nat} (h : lineGroup s f = some g) (tx : Bool) (w : Word) :
    (phaseWrite f w s).syn.target tx f =
      if (if tx then groupTx s g else groupRx s g) then s.syn.target tx f else phaseTarget tx w := by
  rw [phaseWrite_target, phaseHeld_of h]

/-- Settles O19: each request by the job that runs or waits, each end by what ran, the reserve by its proving, a voltage by its limit, and
SYN_PHASE by the state of the fold's group. -/
theorem calibrationsAndSwaps : Obligations.CalibrationsAndSwaps := by
  unfold Obligations.CalibrationsAndSwaps
  refine fun s => ⟨fun b force => ⟨_, rfl, fun h => ?_, fun hs hu hw hc hf => ?_⟩,
    fun b force => ⟨_, rfl, fun h => ?_, fun hs hu hr h3 hf => ?_⟩,
    fun r => ⟨_, rfl, gapStart_nothing⟩,
    fun u band => ⟨_, rfl, fun h => vcoCalDone_nothing h _, fun n hc hb => ?_⟩,
    fun r => ⟨_, rfl, swapDone_nothing, fun h => ?_⟩,
    fun ok a b => ⟨_, rfl, fun h => reserveProving_nothing h .., fun h hok => ?_, fun h hok => ?_⟩,
    fun r => ⟨_, rfl, ?_⟩,
    fun u v e => ⟨_, rfl, fun h => tuningLimit_within h u e s⟩,
    fun f w => hosted_completes rfl fun _ => ⟨phaseWrite_stores f w s, phaseWrite_regs f w s, fun g hg rest => ?_, fun g hg run => ?_,
      fun g hg rest => ?_, fun g hg run => ?_⟩⟩
  · refine State.hosted_nothing fun hs => vcocal_nothing ?_
    rcases h with unserved | unused | waits | runs
    · exact absurd (hs.symm.trans unserved) (by decide)
    · exact .inl unused
    · exact .inr (.inl waits)
    · exact .inr (.inr runs)
  · subst hf
    rw [State.hosted_served hs, vcocal_unforced hu hw hc, role_modRole_named, Bool.or_false]
    exact ⟨rfl, changedOnly_modRole ..⟩
  · refine State.hosted_nothing fun hs => swapRole_nothing (h.resolve_left ?_)
    simp [hs]
  · subst hf
    rw [State.hosted_served hs, swapRole_unforced hu hr h3, role_modRole_named, role_modRole_named, Bool.or_false]
    exact ⟨rfl, (modRole_keeps rfl (modRole_keeps rfl (Kept.refl _ s))).changedOnly⟩
  · subst hb
    obtain ⟨l, unit⟩ := vcoCalDone_unit hc n.val
    rw [Option.map_some, unit]
    exact ⟨rfl, rfl, rfl⟩
  · obtain ⟨unit, done⟩ := swapDone_moves h
    exact ⟨unit, done, swapDone_reserve h⟩
  · subst hok
    exact reserveProving_proves h ..
  · subst hok
    exact ⟨reserveProving_retires h .., reserveProving_unit h ..⟩
  · simp only [Bool.not_eq_true]
    split
    · refine ⟨?_, synFlag_raise _ (by decide), fun a ha => ?_⟩
      · rw [State.raise_syn, role_modRole]
      · rw [State.raise_reg_ne _ (by simpa using ha)]; rfl
    · rfl
  · exact (phaseWrite_target_of hg true w).trans (if_neg (by simp [rest]))
  · exact (phaseWrite_target_of hg true w).trans (if_pos run)
  · exact (phaseWrite_target_of hg false w).trans (if_neg (by simp [rest]))
  · exact (phaseWrite_target_of hg false w).trans (if_pos run)

end Sys2Proof.Machine
end

section
/-!
SUPPORT. Swaps of layers: what a slot holds after a request, its start and the end of its ply, and what the reports leave (R153 to R173).
-/

namespace Sys2Proof.Machine

/-! ### Slots, and what reports leave of the SKN block (R173) -/

theorem slot_modSlot (ul : Bool) (l : Fin 32) (f : Slot → Slot) (s : State) : (s.modSlot ul l f).slot ul l = f (s.slot ul l) := by
  cases ul with
  | false => exact vget_vmod_same _ _ l.isLt
  | true => exact vget_vmod_same _ _ l.isLt

/-- The skein memories and the tag of the last accepted request. -/
def Skn.memories (k : Skn) : Tab Byte × Tab Byte × Nat := (k.dl, k.ul, k.tag)

theorem modSlot_memories (ul : Bool) (l : Nat) (f : Slot → Slot) (s : State) : (s.modSlot ul l f).skn.memories = s.skn.memories := by
  cases ul with
  | false => rfl
  | true => rfl

/-- Of the SKN block, the queue of reports alone may differ. -/
def reportsOnly (s t : State) : Prop := ∃ x, t.skn = { s.skn with reports := x }

theorem reportsOnly.of_eq {s t : State} (h : t.skn = s.skn) : reportsOnly s t := ⟨s.skn.reports, h⟩

theorem reportsOnly.trans {s t u : State} (h : reportsOnly s t) (k : reportsOnly t u) : reportsOnly s u := by
  obtain ⟨x, hx⟩ := h
  obtain ⟨y, hy⟩ := k
  exact ⟨y, by rw [hy, hx]⟩

theorem reportsOnly.slot {s t : State} (h : reportsOnly s t) (ul : Bool) (l : Nat) : t.slot ul l = s.slot ul l := by
  obtain ⟨x, hx⟩ := h
  rw [State.slot, hx]; rfl

theorem reportsOnly.memories {s t : State} (h : reportsOnly s t) : t.skn.memories = s.skn.memories := by
  obtain ⟨x, hx⟩ := h
  rw [hx]; rfl

theorem hostSwapReport_reportsOnly (r : SwapReport) (s : State) : reportsOnly s (hostSwapReport r s) := by
  unfold hostSwapReport
  split
  · exact .of_eq (by rw [State.raise_skn, State.addLo_skn])
  · exact ⟨_, State.raise_skn ..⟩

theorem swapReport_reportsOnly (ul : Bool) (l : Nat) (r : SwapReq) (outcome : Nat) (start : Int) (late byTag : Nat) (s : State) :
    reportsOnly s (swapReport ul l r outcome start late byTag s) := by
  unfold swapReport; dsimp only
  split
  · exact hostSwapReport_reportsOnly ..
  next k _ =>
    have told : reportsOnly s (flockSwapReport k r.port r.tag outcome 0 ul l start late byTag s) := .of_eq (State.post_skn ..)
    split
    · exact told.trans (hostSwapReport_reportsOnly ..)
    · exact told
  · exact .of_eq rfl

theorem superseded_reportsOnly (ul : Bool) (l : Nat) (r : SwapReq) (byTag : Nat) (s : State) : reportsOnly s (superseded ul l r byTag s) := by
  have counted : (if ul then s.addHi Reg.SKN_SUPERSEDED 1 else s.addLo Reg.SKN_SUPERSEDED 1).skn = s.skn := by
    split
    · exact State.addHi_skn ..
    · exact State.addLo_skn ..
  exact .trans (.of_eq ((State.raise_skn ..).trans counted)) (swapReport_reportsOnly ..)

/-! ### The result of a request (R163, R164) -/

theorem hostSwapReport_result (r : SwapReport) (s : State) :
    (hostSwapReport r s).reg Reg.SKN_SWITCH_RESULT = s.reg Reg.SKN_SWITCH_RESULT := by
  unfold hostSwapReport
  split
  · rw [State.raise_reg_ne _ (by decide), State.addLo_reg_ne _ (by decide)]
  · rw [State.raise_reg_ne _ (by decide)]; rfl

theorem swapReport_result (ul : Bool) (l : Nat) (r : SwapReq) (outcome : Nat) (start : Int) (late byTag : Nat) (s : State) :
    (swapReport ul l r outcome start late byTag s).reg Reg.SKN_SWITCH_RESULT = s.reg Reg.SKN_SWITCH_RESULT := by
  unfold swapReport; dsimp only
  split
  · exact hostSwapReport_result ..
  next k _ =>
    have lost : Reg.SKN_SWITCH_RESULT ≠ Reg.FHP_FLOCK_CTRL_LOST k := by unfold Reg.SKN_SWITCH_RESULT Reg.FHP_FLOCK_CTRL_LOST; omega
    have told : (flockSwapReport k r.port r.tag outcome 0 ul l start late byTag s).reg Reg.SKN_SWITCH_RESULT =
        s.reg Reg.SKN_SWITCH_RESULT := State.post_reg s lost (by decide)
    split
    · exact (hostSwapReport_result ..).trans told
    · exact told
  · rfl

theorem superseded_result (ul : Bool) (l : Nat) (r : SwapReq) (byTag : Nat) (s : State) :
    (superseded ul l r byTag s).reg Reg.SKN_SWITCH_RESULT = s.reg Reg.SKN_SWITCH_RESULT := by
  rw [superseded, swapReport_result, State.raise_reg_ne _ (by decide)]
  split
  · exact State.addHi_reg_ne s (by decide)
  · exact State.addLo_reg_ne s (by decide)

/-- An accepted request leaves the skein memories, the tag and the result that the host reads. -/
theorem swapAccept_leaves (ul : Bool) (l : Nat) (r : SwapReq) (s : State) : (swapAccept ul l r s).skn.memories = s.skn.memories ∧
    (swapAccept ul l r s).reg Reg.SKN_SWITCH_RESULT = s.reg Reg.SKN_SWITCH_RESULT := by
  have taken : (s.modSlot ul l (fun x => { x with pend := some r })).reg Reg.SKN_SWITCH_RESULT = s.reg Reg.SKN_SWITCH_RESULT := by
    cases ul with
    | false => rfl
    | true => rfl
  unfold swapAccept; dsimp only
  split
  · exact ⟨modSlot_memories .., taken⟩
  · split
    · exact ⟨(superseded_reportsOnly ..).memories, superseded_result ..⟩
    · exact ⟨(superseded_reportsOnly ..).memories.trans (modSlot_memories ..), (superseded_result ..).trans taken⟩

theorem swapAccept_free {ul : Bool} {l : Nat} {s : State} (h : (s.slot ul l).pend = none) (r : SwapReq) :
    swapAccept ul l r s = s.modSlot ul l (fun x => { x with pend := some r }) := by
  rw [swapAccept, h]

theorem relaySwap_skn (ul : Bool) (l : Nat) (r : SwapReq) (s : State) : (relaySwap ul l r s).skn = s.skn :=
  (relaySwap_keeps (L := fun p => decide (p ∈ [Part.cas])) rfl (Kept.refl _ s)).skn rfl

theorem relaySwap_reg (ul : Bool) (l : Nat) (r : SwapReq) (s : State) (a : Nat) : (relaySwap ul l r s).reg a = s.reg a :=
  (relaySwap_keeps (L := fun p => decide (p ∈ [Part.cas])) rfl (Kept.refl _ s)).reg rfl a

/-! ### SKN_SWITCH_CTRL (R163, R164) -/

/-- The time that the host's swap request names. -/
def skeinSwitchTime (s : State) : Nat := timeNear s.time.tb0 (s.reg Reg.SKN_SWITCH_TIME_S).toNat (s.reg Reg.SKN_SWITCH_TIME_NS).toNat

/-- The code that refuses the host's swap request; 0 when it is accepted. -/
def switchCode (s : State) (w : Word) : Nat :=
  swapCode s (bitOf w 30) (fld w 20 16) (fld w 9 0) (fld w 26 23) (bitOf w 29) (bitOf w 28) .host (skeinSwitchTime s)

/-- The host's swap request, accepted now. -/
def switchReq (s : State) (w : Word) : SwapReq :=
  swapMake s (bitOf w 30) (fld w 20 16) .host 0 ((s.skn.tag + 1) % 65536) (fld w 9 0) (fld w 26 23) (bitOf w 27) (bitOf w 29) (bitOf w 28)
    (skeinSwitchTime s)

/-- The state in which an accepted request of the host takes its slot: its tag is shown. -/
def switchTagged (s : State) : State :=
  (s.modSkn (fun k => { k with tag := (s.skn.tag + 1) % 65536 })).setReg Reg.SKN_SWITCH_RESULT (pk [(30, 1), (0, (s.skn.tag + 1) % 65536)])

section

variable {s : State} {w : Word}

theorem sknSwitchWrite_nothing (h : bitOf w 31 = false) : sknSwitchWrite w s = s := by
  simp [sknSwitchWrite, h]

theorem sknSwitchWrite_refused (go : bitOf w 31 = true) (h : switchCode s w ≠ 0) : sknSwitchWrite w s =
    s.setReg Reg.SKN_SWITCH_RESULT (put (put (s.reg Reg.SKN_SWITCH_RESULT) 31 30 2) 23 16 (switchCode s w)) := by
  unfold sknSwitchWrite
  rw [if_neg (not_not_intro go)]
  exact if_pos h

theorem sknSwitchWrite_accepted (go : bitOf w 31 = true) (h : switchCode s w = 0) : sknSwitchWrite w s =
    relaySwap (bitOf w 30) (fld w 20 16) (switchReq s w) (swapAccept (bitOf w 30) (fld w 20 16) (switchReq s w) (switchTagged s)) := by
  unfold sknSwitchWrite
  rw [if_neg (not_not_intro go)]
  exact if_neg (not_not_intro h)

/-- A refused request shows its code. -/
theorem sknSwitchWrite_shows (go : bitOf w 31 = true) (h : switchCode s w ≠ 0) :
    let t := sknSwitchWrite w s
    t.fld Reg.SKN_SWITCH_RESULT 31 30 = 2 ∧ t.fld Reg.SKN_SWITCH_RESULT 23 16 = switchCode s w % 256 ∧
      regsBut [Reg.SKN_SWITCH_RESULT] s t ∧ changedOnly [.regs] s t := by
  rw [sknSwitchWrite_refused go h]
  refine ⟨?_, ?_, fun a ha => State.reg_setReg_ne _ _ (by simpa using ha), (setReg_keeps rfl (Kept.refl _ s)).changedOnly⟩
  · rw [State.fld, State.reg_setReg, if_pos rfl, fld_put_above _ _ (by decide) (by decide) (by decide), fld_put _ _ (by decide) (by decide)]
    rfl
  · rw [State.fld, State.reg_setReg, if_pos rfl, fld_put _ _ (by decide) (by decide)]
    rfl

/-- OUTCOME of the result of an accepted request. -/
theorem fld_acceptedResult {tag : Nat} (h : tag < 65536) : fld (pk [(30, 1), (0, tag)]) 31 30 = 1 := by
  simp only [fld, pk, List.foldl_cons, List.foldl_nil, BitVec.toNat_ofNat]; omega

/-- An accepted request is tagged, and pending where its slot was free. -/
theorem sknSwitchWrite_takes (go : bitOf w 31 = true) (h : switchCode s w = 0) :
    let t := sknSwitchWrite w s
    t.fld Reg.SKN_SWITCH_RESULT 31 30 = 1 ∧ t.skn.tag = (s.skn.tag + 1) % 65536 ∧ t.skn.dl = s.skn.dl ∧ t.skn.ul = s.skn.ul ∧
      ((s.slot (bitOf w 30) (fld w 20 16)).pend = none → (t.slot (bitOf w 30) (fld w 20 16)).pend = some (switchReq s w)) := by
  obtain ⟨memories, result⟩ := swapAccept_leaves (bitOf w 30) (fld w 20 16) (switchReq s w) (switchTagged s)
  have tagged : (switchTagged s).skn = { s.skn with tag := (s.skn.tag + 1) % 65536 } := State.setReg_skn ..
  rw [tagged] at memories
  simp only [Skn.memories, Prod.mk.injEq] at memories
  obtain ⟨dl, ul, tag⟩ := memories
  rw [sknSwitchWrite_accepted go h]
  refine ⟨?_, ?_, ?_, ?_, fun free => ?_⟩
  · rw [State.fld, relaySwap_reg, result, switchTagged, State.reg_setReg, if_pos rfl]
    exact fld_acceptedResult (Nat.mod_lt _ (by decide))
  · rw [relaySwap_skn, tag]
  · rw [relaySwap_skn, dl]
  · rw [relaySwap_skn, ul]
  · have same : (switchTagged s).slot (bitOf w 30) (fld w 20 16) = s.slot (bitOf w 30) (fld w 20 16) := by rw [State.slot, tagged]; rfl
    rw [(reportsOnly.of_eq (relaySwap_skn ..)).slot, swapAccept_free (by rw [same]; exact free)]
    exact congrArg Slot.pend (slot_modSlot _ ⟨fld w 20 16, fld_lt w 20 16⟩ _ _)

end

/-! ### Starts and ends of swaps (R155, R169, R170) -/

/-- A slot that enters its other bank, loaded for a request, with the ply of the request. -/
def Slot.entered (bank : Bank) (y : Option PlyRun) (x : Slot) : Slot :=
  { x with a := if x.activeB then bank else x.a, b := if x.activeB then x.b else bank, activeB := !x.activeB, ply := y, pend := none }

theorem Slot.act_entered (bank : Bank) (y : Option PlyRun) (x : Slot) : (x.entered bank y).act = bank ∧ (x.entered bank y).inact = x.act := by
  cases h : x.activeB <;> simp [Slot.entered, Slot.act, Slot.inact, h]

/-- A hard swap runs no ply, and a ply has the length, profile and start of its request. -/
theorem swapRun_ply (r : SwapReq) (offs : List Int) : (r.ply = 0 → plyRuns (swapRun r offs) = false) ∧
    (r.ply ≠ 0 → swapRun r offs = some { len := 2 ^ r.ply, raised := r.raised, start := r.start, offs := offs }) := by
  refine ⟨fun hard => ?_, fun soft => ?_⟩
  · unfold swapRun
    split
    · rfl
    · simp [plyRuns]
  · simp [swapRun, soft]

section

variable {s : State} {ul : Bool} {l : Fin 32}

theorem swapStart_nothing (h : (s.slot ul l).pend = none ∨ plyRuns (s.slot ul l).ply = true) : swapStart ul l s = s := by
  unfold swapStart; dsimp only
  split
  next r hp hr => simp [hp, hr] at h
  next => rfl

/-- A start enters the bank loaded for the request; what follows it leaves the slot and the memories. -/
theorem swapStart_enters {r : SwapReq} (hp : (s.slot ul l).pend = some r) (hr : plyRuns (s.slot ul l).ply = false) :
    let t := swapStart ul l s
    t.slot ul l = (s.slot ul l).entered (loadBank s (skeinSnapshot s ul r.start) ul l r.source)
      (swapRun r (startOffs s ul (pathPeriod s.pwr.level) r)) ∧ t.skn.memories = s.skn.memories := by
  intro t
  obtain ⟨u, hu, after⟩ : ∃ u, u = s.modSlot ul l (Slot.entered (loadBank s (skeinSnapshot s ul r.start) ul l r.source)
      (swapRun r (startOffs s ul (pathPeriod s.pwr.level) r))) ∧ reportsOnly u t := by
    refine ⟨_, rfl, ?_⟩
    simp only [t, swapStart, hp, hr]
    refine .trans (.of_eq ?_) (swapReport_reportsOnly ..)
    split
    · rfl
    · exact State.raise_skn ..
  rw [after.slot, after.memories, hu, slot_modSlot, modSlot_memories]
  exact ⟨rfl, rfl⟩

theorem plyEnd_nothing (h : (s.slot ul l).ply = none) : plyEnd ul l s = s := by
  simp [plyEnd, h]

/-- The end of a ply leaves the banks and the holder of its slot. -/
theorem plyEnd_ends (h : (s.slot ul l).ply.isSome) :
    let t := plyEnd ul l s
    (t.slot ul l).ply = none ∧ (t.slot ul l).a = (s.slot ul l).a ∧ (t.slot ul l).b = (s.slot ul l).b ∧
      (t.slot ul l).activeB = (s.slot ul l).activeB ∧ (t.slot ul l).holder = (s.slot ul l).holder ∧ changedOnly [.skn] s t := by
  obtain ⟨y, hy⟩ := Option.isSome_iff_exists.mp h
  simp only [plyEnd, hy, slot_modSlot, true_and]
  exact (modSlot_keeps rfl (Kept.refl _ s)).changedOnly

end

/-- Settles O20: a request by its code, a start by the request and the ply of its slot, an end by whether a ply runs. -/
theorem skeinsAndSwaps : Obligations.SkeinsAndSwaps := by
  unfold Obligations.SkeinsAndSwaps
  refine fun s => ⟨fun a w => hosted_completes rfl fun _ => rfl, fun w => ⟨_, rfl, fun h => ?_, fun hs go => ?_⟩,
    fun ul l => ⟨_, rfl, swapStart_nothing, fun r hp hr => ?_⟩, fun ul l => ⟨_, rfl, plyEnd_nothing, plyEnd_ends⟩,
    hosted_completes rfl fun _ => ⟨rfl, (modSkn_keeps rfl id id (Kept.refl _ s)).changedOnly⟩⟩
  · refine State.hosted_nothing fun hs => sknSwitchWrite_nothing (h.resolve_left ?_)
    simp [hs]
  · rw [State.hosted_served hs]
    dsimp only
    split
    next refused => exact sknSwitchWrite_shows go refused
    next accepted => exact sknSwitchWrite_takes go (not_not.mp accepted)
  · obtain ⟨slot, memories⟩ := swapStart_enters hp hr
    obtain ⟨act, inact⟩ := Slot.act_entered (loadBank s (skeinSnapshot s ul r.start) ul l r.source)
      (swapRun r (startOffs s ul (pathPeriod s.pwr.level) r)) (s.slot ul l)
    obtain ⟨hard, soft⟩ := swapRun_ply r (startOffs s ul (pathPeriod s.pwr.level) r)
    simp only [Skn.memories, Prod.mk.injEq] at memories
    obtain ⟨dl, up, -⟩ := memories
    rw [slot, act, inact]
    exact ⟨rfl, rfl, rfl, rfl, rfl, hard, fun ply => ⟨_, soft ply, rfl, rfl, rfl⟩, dl, up⟩

end Sys2Proof.Machine
end

section
/-!
SUPPORT. Swaps of predistorters: what a request, the end of an attempt and a start leave of the banks, the coefficients and the result that
the host reads, and the settings of a path (R184 to R188).
-/

namespace Sys2Proof.Machine

/-! ### Predistorters by path -/

theorem dpdOf_modDpdPath (p q : Nat) (f : DpdPath → DpdPath) (s : State) :
    dpdOf (s.modDpdPath p f) q = if q = p ∧ p < 64 then f (dpdOf s p) else dpdOf s q := vget_vmod ..

theorem dpdOf_modDpdPath_same (p : Fin 64) (f : DpdPath → DpdPath) (s : State) : dpdOf (s.modDpdPath p f) p = f (dpdOf s p) :=
  vget_vmod_same _ _ p.isLt

theorem dpdOf_congr {s t : State} (h : t.dpd = s.dpd) (p : Nat) : dpdOf t p = dpdOf s p := by
  rw [dpdOf, h]; rfl

/-- A property that a change of any one predistorter keeps. -/
theorem dpdOf_modDpdPath_keeps {P : DpdPath → DpdPath → Prop} (refl : ∀ x, P x x) {f : DpdPath → DpdPath} (hf : ∀ x, P x (f x)) (p q : Nat)
    (s : State) : P (dpdOf s q) (dpdOf (s.modDpdPath p f) q) := by
  rw [dpdOf_modDpdPath]
  split
  next h => rw [h.1]; exact hf _
  next => exact refl _

/-- The banks of a predistorter, the one active, its ply and its pending request. -/
def DpdPath.banks (x : DpdPath) : DBank × DBank × Bool × Option PlyRun × Option SwapReq := (x.a, x.b, x.activeB, x.ply, x.pend)

theorem modDpdPath_banks {f : DpdPath → DpdPath} (hf : ∀ x, (f x).banks = x.banks) (p q : Nat) (s : State) :
    (dpdOf (s.modDpdPath p f) q).banks = (dpdOf s q).banks :=
  dpdOf_modDpdPath_keeps (P := fun x y => y.banks = x.banks) (fun _ => rfl) hf p q s

/-! ### Attempts that end, and requests (R170, R187, R198) -/

/-- What a request for a bank, and an attempt that it ends, leave: the coefficients, the tag, the receivers, a free solver, an attempt that is
over, and the result that the host reads. -/
structure RequestLeaves (s t : State) : Prop where
  coef : t.dpd.coef = s.dpd.coef
  tag : t.dpd.tag = s.dpd.tag
  obs : t.dpd.obs = s.dpd.obs
  free : s.dpd.solver = none → t.dpd.solver = none
  idle : ∀ p, (dpdOf s p).adapt = .idle → (dpdOf t p).adapt = .idle
  result : t.reg Reg.DPD_SWITCH_RESULT = s.reg Reg.DPD_SWITCH_RESULT

theorem RequestLeaves.refl (s : State) : RequestLeaves s s := ⟨rfl, rfl, rfl, id, fun _ => id, rfl⟩

theorem RequestLeaves.trans {s t u : State} (h : RequestLeaves s t) (k : RequestLeaves t u) : RequestLeaves s u :=
  ⟨k.coef.trans h.coef, k.tag.trans h.tag, k.obs.trans h.obs, fun e => k.free (h.free e), fun p e => k.idle p (h.idle p e),
    k.result.trans h.result⟩

theorem RequestLeaves.of_dpd {s t : State} (h : t.dpd = s.dpd) (result : t.reg Reg.DPD_SWITCH_RESULT = s.reg Reg.DPD_SWITCH_RESULT) :
    RequestLeaves s t :=
  ⟨by rw [h], by rw [h], by rw [h], fun e => by rw [h, e], fun p e => by rw [dpdOf_congr h, e], result⟩

theorem modDpdPath_leaves {f : DpdPath → DpdPath} (hf : ∀ x, x.adapt = .idle → (f x).adapt = .idle) (p : Nat) (s : State) :
    RequestLeaves s (s.modDpdPath p f) :=
  ⟨rfl, rfl, rfl, id, fun q => dpdOf_modDpdPath_keeps (P := fun x y => x.adapt = .idle → y.adapt = .idle) (fun _ => id) hf p q s, rfl⟩

theorem leaveSolver_leaves (p : Nat) (s : State) : RequestLeaves s (leaveSolver p s) :=
  ⟨rfl, rfl, rfl, fun e => by simp [leaveSolver, e], fun _ => id, rfl⟩

theorem switchResult_ne_status (p : Nat) : Reg.DPD_SWITCH_RESULT ≠ Reg.DPD_STATUS p := by
  unfold Reg.DPD_SWITCH_RESULT Reg.DPD_STATUS; omega

theorem attemptNoted_dpd (p q bit result code : Nat) (s : State) : (attemptLog p bit code (attemptStatus q result code s)).dpd = s.dpd := by
  rw [attemptLog, State.logPut_dpd, attemptStatus, State.setFld_dpd, State.setFld_dpd]

theorem attemptNoted_leaves (p q bit result code : Nat) (s : State) : RequestLeaves s (attemptLog p bit code (attemptStatus q result code s)) := by
  refine .of_dpd (attemptNoted_dpd ..) ?_
  rw [attemptLog, State.logPut_reg _ (by decide) (by decide), attemptStatus, State.setFld_reg_ne _ (switchResult_ne_status q),
    State.setFld_reg_ne _ (switchResult_ne_status q)]

theorem attemptEnd_leaves (p code : Nat) (s : State) : RequestLeaves s (attemptEnd p code s) := by
  unfold attemptEnd
  split
  · exact .refl s
  · exact ((modDpdPath_leaves (fun _ _ => rfl) p s).trans (leaveSolver_leaves p _)).trans (attemptNoted_leaves ..)

/-- The end of an attempt leaves the banks of every predistorter. -/
theorem attemptEnd_banks (p code q : Nat) (s : State) : (dpdOf (attemptEnd p code s) q).banks = (dpdOf s q).banks := by
  unfold attemptEnd
  split
  · rfl
  · rw [dpdOf_congr (attemptNoted_dpd ..)]
    exact modDpdPath_banks (f := fun x => { x with adapt := .idle, blocks := [] }) (fun _ => rfl) p q s

theorem dpdAccept_leaves (p : Nat) (r : SwapReq) (s : State) : RequestLeaves s (dpdAccept p r s) := by
  have taken := modDpdPath_leaves (f := fun x => { x with pend := some r }) (fun _ h => h) p s
  have flagged (t : State) : RequestLeaves t (t.raise Reg.DPD_INT_STATUS 7) := .of_dpd (State.raise_dpd ..) (State.raise_reg_ne t (by decide))
  have counted (t : State) : RequestLeaves t (t.addLo Reg.DPD_SUPERSEDED 1) := .of_dpd (State.addLo_dpd ..) (State.addLo_reg_ne t (by decide))
  have past (t : State) : RequestLeaves t (attemptEnd p 0x0D ((t.addLo Reg.DPD_SUPERSEDED 1).raise Reg.DPD_INT_STATUS 7)) :=
    ((counted t).trans (flagged _)).trans (attemptEnd_leaves ..)
  unfold dpdAccept; dsimp only
  split
  · exact taken
  · split
    · exact past s
    · split
      · exact taken.trans (past _)
      · exact taken.trans (flagged _)

theorem dpdAccept_free {p : Nat} {s : State} (h : (dpdOf s p).pend = none) (r : SwapReq) :
    dpdAccept p r s = s.modDpdPath p (fun x => { x with pend := some r }) := by
  rw [dpdAccept, h]

/-! ### DPD_SWITCH_CTRL (R187) -/

/-- The code that refuses the host's request of a bank; 0 when it is accepted. -/
def dpdSwitchCode (s : State) (w : Word) : Nat :=
  if s.wrp.active.isNone then 1 else if s.pwr.level = 3 then 2 else if ¬ dpdEnabled s (fld w 21 16) then 3
    else if fld w 26 23 = 1 ∨ fld w 26 23 > 8 then 7 else 0

theorem dpdSwitchCode_lt (s : State) (w : Word) : dpdSwitchCode s w < 256 := by
  unfold dpdSwitchCode
  repeat' split
  all_goals decide

/-- The host's request of a bank, accepted now. -/
def dpdSwitchReq (s : State) (w : Word) : SwapReq :=
  dpdMake s (fld w 21 16) .host ((s.dpd.tag + 1) % 65536) (fld w 0 0) (fld w 26 23) (bitOf w 27)
    (if bitOf w 29 then none else some (boundaryAim s (fld w 21 16)))

/-- The state in which an accepted request of the host takes its predistorter: its tag is shown. -/
def dpdTagged (s : State) : State :=
  (s.modDpd (fun d => { d with tag := (s.dpd.tag + 1) % 65536 })).setReg Reg.DPD_SWITCH_RESULT (pk [(30, 1), (0, (s.dpd.tag + 1) % 65536)])

section

variable {s : State} {w : Word}

theorem dpdSwitchWrite_nothing (h : bitOf w 31 = false) : dpdSwitchWrite w s = s := by
  simp [dpdSwitchWrite, h]

theorem dpdSwitchWrite_refused (go : bitOf w 31 = true) (h : dpdSwitchCode s w ≠ 0) : dpdSwitchWrite w s =
    s.setReg Reg.DPD_SWITCH_RESULT (put (put (s.reg Reg.DPD_SWITCH_RESULT) 31 30 2) 23 16 (dpdSwitchCode s w)) := by
  unfold dpdSwitchWrite
  rw [if_neg (not_not_intro go)]
  exact if_pos h

theorem dpdSwitchWrite_accepted (go : bitOf w 31 = true) (h : dpdSwitchCode s w = 0) : dpdSwitchWrite w s =
    dpdAccept (fld w 21 16) (dpdSwitchReq s w) (dpdTagged s) := by
  unfold dpdSwitchWrite
  rw [if_neg (not_not_intro go)]
  exact if_neg (not_not_intro h)

/-- A refused request shows its code. -/
theorem dpdSwitchWrite_shows (go : bitOf w 31 = true) (h : dpdSwitchCode s w ≠ 0) :
    let t := dpdSwitchWrite w s
    t.fld Reg.DPD_SWITCH_RESULT 31 30 = 2 ∧ t.fld Reg.DPD_SWITCH_RESULT 23 16 = dpdSwitchCode s w ∧
      regsBut [Reg.DPD_SWITCH_RESULT] s t ∧ changedOnly [.regs] s t := by
  rw [dpdSwitchWrite_refused go h]
  refine ⟨?_, ?_, fun a ha => State.reg_setReg_ne _ _ (by simpa using ha), (setReg_keeps rfl (Kept.refl _ s)).changedOnly⟩
  · rw [State.fld, State.reg_setReg, if_pos rfl, fld_put_above _ _ (by decide) (by decide) (by decide), fld_put _ _ (by decide) (by decide)]
    rfl
  · rw [State.fld, State.reg_setReg, if_pos rfl, fld_put _ _ (by decide) (by decide)]
    exact Nat.mod_eq_of_lt (dpdSwitchCode_lt s w)

/-- An accepted request is tagged, and pending where no other one was. -/
theorem dpdSwitchWrite_takes (go : bitOf w 31 = true) (h : dpdSwitchCode s w = 0) :
    let t := dpdSwitchWrite w s
    t.fld Reg.DPD_SWITCH_RESULT 31 30 = 1 ∧ t.dpd.tag = (s.dpd.tag + 1) % 65536 ∧ t.dpd.coef = s.dpd.coef ∧
      ((dpdOf s (fld w 21 16)).pend = none → (dpdOf t (fld w 21 16)).pend = some (dpdSwitchReq s w)) := by
  have left := dpdAccept_leaves (fld w 21 16) (dpdSwitchReq s w) (dpdTagged s)
  have tagged : (dpdTagged s).dpd = { s.dpd with tag := (s.dpd.tag + 1) % 65536 } := State.setReg_dpd ..
  rw [dpdSwitchWrite_accepted go h]
  refine ⟨?_, ?_, ?_, fun free => ?_⟩
  · rw [State.fld, left.result, dpdTagged, State.reg_setReg, if_pos rfl]
    exact fld_acceptedResult (Nat.mod_lt _ (by decide))
  · rw [left.tag, tagged]
  · rw [left.coef, tagged]
  · have same : dpdOf (dpdTagged s) (fld w 21 16) = dpdOf s (fld w 21 16) := by rw [dpdOf, tagged]; rfl
    rw [dpdAccept_free (by rw [same]; exact free)]
    exact congrArg DpdPath.pend (dpdOf_modDpdPath_same ⟨fld w 21 16, fld_lt w 21 16⟩ _ _)

end

/-! ### Starts and ends of swaps (R155, R169, R187) -/

/-- A predistorter that enters its other bank, with the ply of a request. -/
def DpdPath.entered (bank : DBank) (y : Option PlyRun) (x : DpdPath) : DpdPath :=
  { x with a := if x.activeB then bank else x.a, b := if x.activeB then x.b else bank, activeB := !x.activeB, ply := y, pend := none }

theorem DpdPath.entered_banks {bank : DBank} {y : Option PlyRun} {x z : DpdPath} (h : z.banks = (x.entered bank y).banks) :
    z.pend = none ∧ z.activeB = !x.activeB ∧ z.act = bank ∧ z.ply = y := by
  simp only [banks, entered, Prod.mk.injEq] at h
  obtain ⟨a, b, active, ply, pend⟩ := h
  refine ⟨pend, active, ?_, ply⟩
  rw [act, active, a, b]
  cases x.activeB <;> rfl

theorem DpdPath.banks_entered {x z : DpdPath} (h : z.banks = x.banks) (bank : DBank) (y : Option PlyRun) :
    (z.entered bank y).banks = (x.entered bank y).banks := by
  simp only [banks, Prod.mk.injEq] at h
  obtain ⟨a, b, active, -, -⟩ := h
  simp only [banks, entered, a, b, active]

theorem verifyDue_banks (p q : Nat) (s : State) : (dpdOf (verifyDue p s) q).banks = (dpdOf s q).banks :=
  modDpdPath_banks (fun x => by split <;> rfl) p q s

/-- The coefficients of a request's page, as they stood before its start. -/
def loadedPage (p : Nat) (r : SwapReq) (s : State) : DBank :=
  { page := r.source
    coef := some (pageEntries (snapshotMem coefByte false ((s.time.tb1 : Int) - ((s.time.tb0 : Int) - (r.start - (64 * nsTu : Nat))))
      s.dpd.recent s.dpd.coef) p r.source) }

/-- The host's swap ends the verification of its predistorter. -/
def verifyEnded (p : Nat) (r : SwapReq) (s : State) : State :=
  if r.who = .host then
    (match (dpdOf s p).adapt with
      | .verifying _ => attemptEnd p 0x0D s
      | _ => s)
  else s

theorem verifyEnded_coef (p : Nat) (r : SwapReq) (s : State) : (verifyEnded p r s).dpd.coef = s.dpd.coef := by
  unfold verifyEnded
  split
  · split
    · exact (attemptEnd_leaves ..).coef
    · rfl
  · rfl

theorem verifyEnded_banks (p : Nat) (r : SwapReq) (s : State) : (dpdOf (verifyEnded p r s) p).banks = (dpdOf s p).banks := by
  unfold verifyEnded
  split
  · split
    · exact attemptEnd_banks ..
    · rfl
  · rfl

/-- The predistorter enters the bank of its request, and the ball shows when. -/
def bankEntered (p : Nat) (r : SwapReq) (s : State) : State :=
  let u := (verifyEnded p r s).modDpdPath p (DpdPath.entered (loadedPage p r s) (swapRun r []))
  (u.setReg (Reg.DPD_LAST_S p) (BitVec.ofNat 32 (secOf (dpdBall u p r.start)))).setReg (Reg.DPD_LAST_NS p)
    (BitVec.ofNat 32 (nsOf (dpdBall u p r.start)))

theorem bankEntered_dpd (p : Nat) (r : SwapReq) (s : State) :
    (bankEntered p r s).dpd = ((verifyEnded p r s).modDpdPath p (DpdPath.entered (loadedPage p r s) (swapRun r []))).dpd := by
  rw [bankEntered, State.setReg_dpd, State.setReg_dpd]

section

variable {s : State} {p : Fin 64}

theorem bankEntered_banks (r : SwapReq) : (dpdOf (bankEntered p r s) p).banks =
    ((dpdOf s p).entered (loadedPage p r s) (swapRun r [])).banks := by
  rw [dpdOf_congr (bankEntered_dpd ..), dpdOf_modDpdPath_same, DpdPath.banks_entered (verifyEnded_banks ..)]

theorem bankEntered_coef (r : SwapReq) : (bankEntered p r s).dpd.coef = s.dpd.coef := by
  rw [bankEntered_dpd]
  exact verifyEnded_coef ..

theorem dpdSwapStart_nothing (h : (dpdOf s p).pend = none ∨ plyRuns (dpdOf s p).ply = true) : dpdSwapStart p s = s := by
  unfold dpdSwapStart; dsimp only
  split
  next r hp hr => simp [hp, hr] at h
  next => rfl

theorem dpdSwapStart_pending {r : SwapReq} (hp : (dpdOf s p).pend = some r) (hr : plyRuns (dpdOf s p).ply = false) :
    dpdSwapStart p s = if r.who = .solver ∧ r.ply = 0 then verifyDue p (bankEntered p r s) else bankEntered p r s := by
  rw [dpdSwapStart, hp, hr]
  rfl

/-- A start enters the bank loaded for the request, and leaves the coefficients. -/
theorem dpdSwapStart_enters {r : SwapReq} (hp : (dpdOf s p).pend = some r) (hr : plyRuns (dpdOf s p).ply = false) :
    (dpdOf (dpdSwapStart p s) p).banks = ((dpdOf s p).entered (loadedPage p r s) (swapRun r [])).banks ∧
      (dpdSwapStart p s).dpd.coef = s.dpd.coef := by
  rw [dpdSwapStart_pending hp hr]
  split
  · exact ⟨(verifyDue_banks ..).trans (bankEntered_banks r), bankEntered_coef r⟩
  · exact ⟨bankEntered_banks r, bankEntered_coef r⟩

theorem verifyDueUnless_banks (solver : Bool) (p : Nat) (u : State) :
    (dpdOf (if solver then u else verifyDue p u) p).banks = (dpdOf u p).banks := by
  split
  · rfl
  · exact verifyDue_banks ..

theorem dpdPlyEnd_nothing (h : (dpdOf s p).ply = none) : dpdPlyEnd p s = s := by
  simp [dpdPlyEnd, h]

/-- The end of a ply leaves the banks. -/
theorem dpdPlyEnd_ends (h : (dpdOf s p).ply.isSome) :
    let t := dpdPlyEnd p s
    (dpdOf t p).ply = none ∧ (dpdOf t p).a = (dpdOf s p).a ∧ (dpdOf t p).b = (dpdOf s p).b ∧
      (dpdOf t p).activeB = (dpdOf s p).activeB ∧ changedOnly [.dpd] s t := by
  intro t
  obtain ⟨y, hy⟩ := Option.isSome_iff_exists.mp h
  have after : (dpdOf t p).banks = (dpdOf (s.modDpdPath p (fun x => { x with
      ply := none, pend := x.pend.map (waitFor (halfPeriod s) y []) })) p).banks := by
    simp only [t, dpdPlyEnd, hy]
    exact verifyDueUnless_banks ..
  rw [dpdOf_modDpdPath_same] at after
  simp only [DpdPath.banks, Prod.mk.injEq] at after
  obtain ⟨a, b, active, ply, -⟩ := after
  exact ⟨ply, a, b, active, (dpdPlyEnd_keeps rfl (Kept.refl _ s)).changedOnly⟩

/-! ### Settings of the host (R185, R188) -/

/-- Settings of a path that is not LIVE and does not adapt are stored in their form. -/
theorem dpdPathCfgWrite_stores {w : Word} (live : txLive s p = false) (adapt : adaptOn s p = false) :
    dpdPathCfgWrite p w s = s.setReg (Reg.DPD_PATH_CFG p) (pathCfgForm w) := by
  simp [dpdPathCfgWrite, live, adapt]

end

/-- Settles O22: a request by its code, a start by the request and the ply of its predistorter, an end by whether a ply runs, and a write of
coefficients by ADAPT of the path. -/
theorem predistorterSwaps : Obligations.PredistorterSwaps := by
  unfold Obligations.PredistorterSwaps
  refine fun s => ⟨fun w => ⟨_, rfl, fun h => ?_, fun hs go => ?_⟩,
    fun p => ⟨_, rfl, dpdSwapStart_nothing, fun r hp hr => ?_⟩, fun p => ⟨_, rfl, dpdPlyEnd_nothing, dpdPlyEnd_ends⟩,
    fun a w => ⟨_, rfl, fun hs => State.hosted_not_served hs _, fun hs adapts => ?_, fun hs free => ?_⟩,
    fun p w => ⟨_, rfl, fun hs => State.hosted_not_served hs _, fun hs live adapt => ?_⟩⟩
  · refine State.hosted_nothing fun hs => dpdSwitchWrite_nothing (h.resolve_left ?_)
    simp [hs]
  · have code : (if s.wrp.active.isNone then 1 else if s.pwr.level = 3 then 2 else if dpdEnabled s (fld w 21 16) = false then 3
        else if fld w 26 23 = 1 ∨ fld w 26 23 > 8 then 7 else 0) = dpdSwitchCode s w := by simp [dpdSwitchCode]
    rw [State.hosted_served hs]
    dsimp only
    rw [code]
    split
    next refused => exact dpdSwitchWrite_shows go refused
    next accepted =>
      obtain ⟨outcome, tag, coef, takes⟩ := dpdSwitchWrite_takes go (not_not.mp accepted)
      exact ⟨outcome, tag, coef, fun free => ⟨_, takes free, rfl, rfl, rfl, rfl, rfl⟩⟩
  · obtain ⟨entered, coef⟩ := dpdSwapStart_enters hp hr
    obtain ⟨pend, active, act, ply⟩ := DpdPath.entered_banks entered
    refine ⟨pend, active, by rw [act]; rfl, coef, fun hard => ?_, fun soft => ?_⟩
    · rw [ply]; simp [swapRun, hard]
    · rw [ply]; exact (swapRun_ply r []).2 soft
  · rw [State.hosted_served hs, coefHostWrite, if_pos adapts]
    exact ⟨State.viol_dpd .., rfl⟩
  · rw [State.hosted_served hs, coefHostWrite, if_neg (by simp [free])]
    exact ⟨rfl, (coefWrite_keeps rfl (Kept.refl _ s)).changedOnly⟩
  · rw [State.hosted_served hs, dpdPathCfgWrite_stores live adapt]
    exact ⟨by rw [State.reg_setReg, if_pos rfl]; rfl, fun a ha => State.reg_setReg_ne _ _ (by simpa using ha),
      (setReg_keeps rfl (Kept.refl _ s)).changedOnly⟩

end Sys2Proof.Machine
end

section
/-!
SUPPORT. Control messages of flocks: what policing counts, what a taken message changes before its body is acted on, and what a release
plans for a slot (R269 to R282).
-/

namespace Sys2Proof.Machine

/-! ### Violations, posts and events of a flock -/

theorem postPoint_reg {a : Nat} (h : a / 0x10000 ≠ 0x10) (point st : Nat) (hst : st < 4) (s : State) : (postPoint point st s).reg a = s.reg a := by
  have count : a ≠ Reg.ACQ_MISSED st := by unfold Reg.ACQ_MISSED; omega
  have seconds : a ≠ Reg.ACQ_MISS_S st := by unfold Reg.ACQ_MISS_S; omega
  have nanos : a ≠ Reg.ACQ_MISS_NS st := by unfold Reg.ACQ_MISS_NS; omega
  have flags : a ≠ Reg.ACQ_INT_STATUS := by unfold Reg.ACQ_INT_STATUS; omega
  have missed : (triggerMissed st point s).reg a = s.reg a := by
    unfold triggerMissed; dsimp only
    rw [State.raise_reg_ne _ flags, State.modStream_reg]
    split
    · rw [State.reg_setReg_ne _ _ nanos, State.reg_setReg_ne _ _ seconds]
      exact State.reg_setReg_ne _ _ count
    · exact State.reg_setReg_ne _ _ count
  unfold postPoint
  split
  · rfl
  · exact missed
  · exact missed
  · rfl

/-- An event of a flock changes no register outside the captures. -/
theorem flockEvent_reg {a : Nat} (h : a / 0x10000 ≠ 0x10) (k event point : Nat) (s : State) : (flockEvent k event point s).reg a = s.reg a :=
  forAll_reg (fun st hst t => postPoint_reg h point st (List.mem_range.mp (List.mem_of_mem_filter hst)) t) s

theorem flockEvent_fhp (k event point : Nat) (s : State) : (flockEvent k event point s).fhp = s.fhp :=
  (flockEvent_keeps (L := fun p => decide (p ∈ [Part.regs, .acq])) rfl rfl (Kept.refl _ s)).fhp rfl

section

variable {k : Fin 8}

theorem flockMsg_block (k : Fin 8) : Reg.FHP_FLOCK_MSG k / 0x10000 = 0xC := by
  unfold Reg.FHP_FLOCK_MSG; omega

/-- A violation leaves the counts of messages. -/
theorem flockViol_flockMsg (cls : Fin 16) (s : State) :
    (flockViol k cls s).reg (Reg.FHP_FLOCK_MSG k) = s.reg (Reg.FHP_FLOCK_MSG k) := by
  rw [flockViol, flockEvent_reg (by rw [flockMsg_block]; decide), State.modFlock_reg, State.viol_reg]
  · unfold Reg.FHP_FLOCK_MSG Reg.GLB_INT_STATUS; omega
  · unfold Reg.FHP_FLOCK_MSG Reg.GLB_LOG_LOST; omega
  · unfold Reg.FHP_FLOCK_MSG Reg.GLB_VIOL; omega

/-- Of the fronthaul, a violation changes its flock alone, and not the messages to it or whether it was policed. -/
theorem flockViol_flock (cls : Nat) (s : State) : ∃ g : FlockSt → FlockSt, (∀ f, (g f).out = f.out ∧ (g f).policed = f.policed) ∧
    (flockViol k cls s).fhp = { s.fhp with flocks := vmod s.fhp.flocks k g } := by
  unfold flockViol; dsimp only
  rw [flockEvent_fhp, State.modFlock_fhp, State.viol_fhp]
  refine ⟨_, ?_, rfl⟩
  exact fun _ => ⟨rfl, rfl⟩

/-- A flock to which a message is sent: the oldest of 32 that wait is lost. -/
def FlockSt.posted (m : Nat × List Byte) (f : FlockSt) : FlockSt :=
  { f with
    out := (if f.out.length ≥ 32 then f.out.drop 1 else f.out) ++ [m]
    lost := if f.out.length ≥ 32 then f.lost + 1 else f.lost }

theorem post_flock (port msg tag : Nat) (body : List Byte) (s : State) :
    vget (s.post k port msg tag body).fhp.flocks k = (vget s.fhp.flocks k).posted (port, flockMsg msg tag body) := by
  unfold State.post; dsimp only
  split
  next full => rw [State.raise_fhp, State.addLo_fhp, State.modFlock_fhp, vget_vmod_same _ _ k.isLt, FlockSt.posted, if_pos full, if_pos full]
  next room => rw [State.modFlock_fhp, vget_vmod_same _ _ k.isLt, FlockSt.posted, if_neg room, if_neg room]

theorem post_out (port msg tag : Nat) (body : List Byte) (s : State) :
    (vget (s.post k port msg tag body).fhp.flocks k).out.getLast? = some (port, flockMsg msg tag body) := by
  rw [post_flock]
  exact List.getLast?_concat

theorem holding_post (k port msg tag : Nat) (body : List Byte) (s : State) (ul : Bool) (l : Nat) :
    holding (s.post k port msg tag body) ul l = holding s ul l := by
  unfold State.post; dsimp only
  split
  · rw [holding, State.raise_fhp, State.addLo_fhp]; rfl
  · rfl

/-! ### Policing (R269) -/

theorem counted_ctrlRate (s : State) : (s.addHi (Reg.FHP_FLOCK_MSG k) 1).fld Reg.FHP_CFG 23 16 = s.fld Reg.FHP_CFG 23 16 := by
  have other : Reg.FHP_CFG ≠ Reg.FHP_FLOCK_MSG k := by unfold Reg.FHP_FLOCK_MSG Reg.FHP_CFG; omega
  rw [State.fld, State.addHi_reg_ne _ other, State.fld]

/-- A message within CTRL_RATE is counted in its register and in its epoch, and taken. -/
theorem police_taken {s : State} (h : (vget s.fhp.flocks k).msgs < s.fld Reg.FHP_CFG 23 16) :
    police k s = ((s.addHi (Reg.FHP_FLOCK_MSG k) 1).modFlock k (fun f => { f with msgs := f.msgs + 1 }), true) := by
  unfold police; dsimp only
  rw [counted_ctrlRate, State.addHi_fhp, if_pos h]

theorem messageCounted_taken {s : State} (h : (vget s.fhp.flocks k).msgs < s.fld Reg.FHP_CFG 23 16) :
    messageCounted k s = (s.addHi (Reg.FHP_FLOCK_MSG k) 1).modFlock k (fun f => { f with msgs := f.msgs + 1 }) :=
  congrArg Prod.fst (police_taken h)

/-- A message past CTRL_RATE is counted as received and as policed, and not taken. -/
theorem police_policed {s : State} (h : s.fld Reg.FHP_CFG 23 16 ≤ (vget s.fhp.flocks k).msgs) :
    (police k s).2 = false ∧ (police k s).1.fld (Reg.FHP_FLOCK_MSG k) 31 16 = satAdd 0xFFFF (s.fld (Reg.FHP_FLOCK_MSG k) 31 16) 1 ∧
      (police k s).1.fld (Reg.FHP_FLOCK_MSG k) 15 0 = satAdd 0xFFFF (s.fld (Reg.FHP_FLOCK_MSG k) 15 0) 1 ∧
      (vget (police k s).1.fhp.flocks k).policed = true ∧ (police k s).1.fhp.reqs = s.fhp.reqs ∧
      (police k s).1.fhp.changes = s.fhp.changes := by
  have counted : ((s.addHi (Reg.FHP_FLOCK_MSG k) 1).addLo (Reg.FHP_FLOCK_MSG k) 1).fld (Reg.FHP_FLOCK_MSG k) 31 16 =
      satAdd 0xFFFF (s.fld (Reg.FHP_FLOCK_MSG k) 31 16) 1 := by
    rw [← State.fld_addHi]
    exact State.fld_setFld_above _ _ _ (by decide) (by decide) (by decide)
  have policed : ((s.addHi (Reg.FHP_FLOCK_MSG k) 1).addLo (Reg.FHP_FLOCK_MSG k) 1).fld (Reg.FHP_FLOCK_MSG k) 15 0 =
      satAdd 0xFFFF (s.fld (Reg.FHP_FLOCK_MSG k) 15 0) 1 := by
    rw [State.fld_addLo, State.fld_addHi_low]
  unfold police; dsimp only
  rw [counted_ctrlRate, State.addHi_fhp, if_neg (Nat.not_lt.mpr h)]
  split
  next already => exact ⟨rfl, counted, policed, by rw [State.addLo_fhp, State.addHi_fhp, already],
    by rw [State.addLo_fhp, State.addHi_fhp], by rw [State.addLo_fhp, State.addHi_fhp]⟩
  next =>
    obtain ⟨g, keeps, fhp⟩ := flockViol_flock (k := k) 0x0B
      (((s.addHi (Reg.FHP_FLOCK_MSG k) 1).addLo (Reg.FHP_FLOCK_MSG k) 1).modFlock k (fun f => { f with policed := true }))
    have same : (flockViol k 0x0B (((s.addHi (Reg.FHP_FLOCK_MSG k) 1).addLo (Reg.FHP_FLOCK_MSG k) 1).modFlock k
        (fun f => { f with policed := true }))).reg (Reg.FHP_FLOCK_MSG k) = _ := flockViol_flockMsg 0x0B _
    dsimp only
    refine ⟨rfl, ?_, ?_, ?_, ?_, ?_⟩
    · rw [State.fld, same]; exact counted
    · rw [State.fld, same]; exact policed
    · rw [fhp, vget_vmod_same _ _ k.isLt, (keeps _).2, State.modFlock_fhp, vget_vmod_same _ _ k.isLt]
    · rw [fhp, State.modFlock_fhp, State.addLo_fhp, State.addHi_fhp]
    · rw [fhp, State.modFlock_fhp, State.addLo_fhp, State.addHi_fhp]

/-! ### Messages (R268 to R270) -/

section

variable {msg q tag : Nat} {b : List Byte} {s : State}

theorem ctrlMsg_policed (h : s.fld Reg.FHP_CFG 23 16 ≤ (vget s.fhp.flocks k).msgs) :
    ctrlMsg true msg k q tag b s = (police k s).1 := by
  unfold ctrlMsg
  have refused := (police_policed h).1
  split
  next t e => rw [e]
  next t e => rw [e] at refused; exact Bool.noConfusion refused

theorem ctrlMsg_counted (h : (vget s.fhp.flocks k).msgs < s.fld Reg.FHP_CFG 23 16) :
    ctrlMsg true msg k q tag b s =
      if bodyOk msg b then ctrlBody msg k q tag b (messageCounted k s) else nakViol k q tag 0xA msg 0 (messageCounted k s) := by
  rw [ctrlMsg, police_taken h, messageCounted_taken h]
  cases bodyOk msg b <;> rfl

end

/-- What a control message leaves: nothing changes for a flock that is not served. -/
def messageDone (msg k q : Nat) (tag : BitVec 16) (b : List Byte) (s : State) : State :=
  if flockServed s k then ctrlMsg true msg k q tag.toNat b s else s

section

variable {msg : Nat} {q : Fin 2} {tag : BitVec 16} {b : List Byte} {s : State}

theorem flockCommands_done {c : Nat × Instr} (h : c ∈ flockCommands k q tag b) : exec c.2 s = .next (messageDone c.1 k q tag b s) := by
  simp only [flockCommands, List.mem_cons, List.not_mem_nil, or_false] at h
  rcases h with rfl | rfl | rfl | rfl | rfl | rfl | rfl <;> rfl

theorem messageDone_unserved (h : flockServed s k = false) : messageDone msg k q tag b s = s := by
  simp [messageDone, h]

theorem messageDone_taken (h : messageTaken s k msg b) :
    messageDone msg k q tag b s = ctrlBody msg k q tag.toNat b (messageCounted k s) := by
  obtain ⟨served, rate, body⟩ := h
  rw [messageDone, if_pos served, ctrlMsg_counted rate, if_pos body]

/-- What a message changes before its body is acted on: its two counts. -/
theorem messageTaken.counted (h : messageTaken s k msg b) :
    messageCounted k s = (s.addHi (Reg.FHP_FLOCK_MSG k) 1).modFlock k (fun f => { f with msgs := f.msgs + 1 }) :=
  messageCounted_taken h.2.1

theorem messageTaken.flock (h : messageTaken s k msg b) :
    vget (messageCounted k s).fhp.flocks k = { vget s.fhp.flocks k with msgs := (vget s.fhp.flocks k).msgs + 1 } := by
  rw [h.counted, State.modFlock_fhp, vget_vmod_same _ _ k.isLt, State.addHi_fhp]

theorem messageTaken.changed (h : messageTaken s k msg b) : Kept (fun p => decide (p ∈ [Part.regs, .fhp])) s (messageCounted k s) := by
  rw [h.counted]
  exact modFlock_keeps rfl (addHi_keeps rfl (Kept.refl _ s))

theorem messageTaken.holder (h : messageTaken s k msg b) (ul : Bool) (l : Nat) : (messageCounted k s).holder ul l = s.holder ul l := by
  rw [State.holder, State.slot, h.changed.skn rfl]; rfl

theorem messageTaken.holding (h : messageTaken s k msg b) (ul : Bool) (l : Nat) : holding (messageCounted k s) ul l = holding s ul l := by
  rw [h.counted, Machine.holding, State.modFlock_fhp, State.addHi_fhp]; rfl

theorem messageTaken.stackSize (h : messageTaken s k msg b) : stackSize (messageCounted k s) = stackSize s := by
  rw [Machine.stackSize, isBellwether, h.changed.cas rfl]; rfl

theorem messageTaken.inPartition (h : messageTaken s k msg b) (ul : Bool) (n : Nat) :
    inPartition (messageCounted k s) ul k n = inPartition s ul k n := by
  rw [Machine.inPartition, State.warp, h.changed.wrp rfl]; rfl

theorem messageTaken.flockCfg (h : messageTaken s k msg b) : (messageCounted k s).flockCfg k = s.flockCfg k := by
  rw [State.flockCfg, State.warp, h.changed.wrp rfl]; rfl

theorem messageTaken.waitingReqs (h : messageTaken s k msg b) : waitingReqs (messageCounted k s) = waitingReqs s := by
  have deferred (j : Nat) : (vget (messageCounted k s).fhp.flocks j).deferred = (vget s.fhp.flocks j).deferred := by
    rw [h.counted, State.modFlock_fhp, State.addHi_fhp, vget_vmod]
    split
    next same => rw [same.1]
    next => rfl
  have tie : (messageCounted k s).fhp.tie = s.fhp.tie := by rw [h.counted, State.modFlock_fhp, State.addHi_fhp]
  simp only [Machine.waitingReqs, tie, deferred]

theorem messageTaken.quar (h : messageTaken s k msg b) : (vget (messageCounted k s).fhp.flocks k).quar = (vget s.fhp.flocks k).quar := by
  rw [h.flock]

/-! ### Requests and releases of slots (R272, R277) -/

theorem admitReq_done (h : messageTaken s k 0x01 b) :
    let t := messageDone 0x01 k q tag b s
    t.fhp.reqs = s.fhp.reqs ++ [{
        k := k, tag := tag.toNat, ul := nbit (byteAt b 0) 7, c := byteAt b 0 % 4, count := byteAt b 1
        slot := if byteAt b 2 = 0xFF then none else some (byteAt b 2), epoch := s.fhp.epoch, port := q }] ∧
      t.fld (Reg.FHP_FLOCK_MSG k) 31 16 = satAdd 0xFFFF (s.fld (Reg.FHP_FLOCK_MSG k) 31 16) 1 ∧
      (vget t.fhp.flocks k).msgs = (vget s.fhp.flocks k).msgs + 1 ∧ changedOnly [.regs, .fhp] s t := by
  intro t
  have done : t = admitReq k q tag.toNat b (messageCounted k s) := messageDone_taken h
  have fhp : (messageCounted k s).fhp.reqs = s.fhp.reqs ∧ (messageCounted k s).fhp.epoch = s.fhp.epoch := by
    rw [h.counted, State.modFlock_fhp, State.addHi_fhp]; exact ⟨rfl, rfl⟩
  rw [done]
  refine ⟨?_, ?_, ?_, ?_⟩
  · rw [admitReq, ← fhp.1, ← fhp.2]; rfl
  · rw [admitReq, State.modFhp_fld, h.counted, State.modFlock_fld, State.fld_addHi]
  · exact congrArg FlockSt.msgs h.flock
  · exact Kept.changedOnly (modFhp_keeps rfl h.changed)

end

end

theorem relayControl_fhp (sub tag : Nat) (body : List Byte) (s : State) : (relayControl sub tag body s).fhp = s.fhp :=
  (relayControl_keeps (L := fun p => decide (p ∈ [Part.cas])) rfl (Kept.refl _ s)).fhp rfl

theorem holding_setHolding (ul : Bool) (l : Fin 32) (x : Option Holding) (j : Nat) (s : State) :
    holding (setHolding ul l x s) ul j = if j = l then x else holding s ul j := by
  cases ul
  · exact (vget_vset ..).trans (by simp [holding])
  · exact (vget_vset ..).trans (by simp [holding])

theorem setHolding_flocks (ul : Bool) (l : Nat) (x : Option Holding) (s : State) : (setHolding ul l x s).fhp.flocks = s.fhp.flocks := by
  cases ul <;> rfl

theorem holding_planChange (ul : Bool) (l at_ : Nat) (to_ : Option Nat) (j : Nat) (s : State) :
    holding (planChange ul l at_ to_ s) ul j = holding s ul j := by
  rw [planChange, holding, relayControl_fhp]; rfl

theorem planChange_flocks (ul : Bool) (l at_ : Nat) (to_ : Option Nat) (s : State) :
    (planChange ul l at_ to_ s).fhp.flocks = s.fhp.flocks := by
  rw [planChange, relayControl_fhp]; rfl

/-- The end of a slot is set, and its change planned. -/
def endPlanned (ul : Bool) (l : Nat) (h : Holding) (e : Nat) (s : State) : State :=
  planChange ul l e none (setHolding ul l (some { h with ending := some e }) s)

/-- A planned end: nothing of a slot that is free or already ends, and else the end is set and its change planned. -/
theorem planEnd_cases (ul : Bool) (l at_ : Nat) (s : State) :
    (planEnd ul l at_ s = s ∧ ∀ h, holding s ul l = some h → h.ending.isSome = true) ∨
      ∃ h e, holding s ul l = some h ∧ planEnd ul l at_ s = endPlanned ul l h e s := by
  unfold planEnd
  split
  next free => exact .inl ⟨rfl, fun h held => by rw [free] at held; cases held⟩
  next h held =>
    dsimp only
    split
    next old ends =>
      have later (e : Nat) : ((if old ≤ e then s else endPlanned ul l h e s) = s ∧ ∀ x, holding s ul l = some x → x.ending.isSome = true) ∨
          ∃ x d, holding s ul l = some x ∧ (if old ≤ e then s else endPlanned ul l h e s) = endPlanned ul l x d s := by
        by_cases sooner : old ≤ e
        · refine .inl ⟨if_pos sooner, fun x hx => ?_⟩
          rw [held, Option.some.injEq] at hx
          rw [← hx, ends]; rfl
        · exact .inr ⟨h, e, held, if_neg sooner⟩
      exact later _
    next => exact .inr ⟨h, _, held, rfl⟩

theorem planEnd_flocks (ul : Bool) (l at_ : Nat) (s : State) : (planEnd ul l at_ s).fhp.flocks = s.fhp.flocks := by
  rcases planEnd_cases ul l at_ s with ⟨same, -⟩ | ⟨h, e, -, planned⟩
  · rw [same]
  · rw [planned, endPlanned, planChange_flocks, setHolding_flocks]

/-- A planned end of a slot leaves what the other slots hold. -/
theorem holding_planEnd_ne {ul : Bool} {l : Fin 32} {j : Nat} (hj : j ≠ l) (at_ : Nat) (s : State) :
    holding (planEnd ul l at_ s) ul j = holding s ul j := by
  rcases planEnd_cases ul l at_ s with ⟨same, -⟩ | ⟨h, e, -, planned⟩
  · rw [same]
  · rw [planned, endPlanned, holding_planChange, holding_setHolding, if_neg hj]

/-- A planned end of a slot ends what the slot holds. -/
theorem holding_planEnd_same {ul : Bool} {l : Fin 32} {s : State} {h : Holding} (held : holding s ul l = some h) (at_ : Nat) :
    ∃ x, holding (planEnd ul l at_ s) ul l = some x ∧ x.k = h.k ∧ x.ending.isSome = true := by
  rcases planEnd_cases ul l at_ s with ⟨same, ends⟩ | ⟨x, e, is, planned⟩
  · exact ⟨h, by rw [same, held], rfl, ends h held⟩
  · rw [held, Option.some.injEq] at is
    rw [planned, endPlanned, holding_planChange, holding_setHolding, if_pos rfl]
    exact ⟨_, rfl, by rw [is], rfl⟩

/-- A slot is held by a flock. -/
def heldBy (k : Nat) (ul : Bool) (l : Nat) (s : State) : Prop := ∃ h, holding s ul l = some h ∧ h.k = k

/-- A slot is held by a flock, and its end is planned. -/
def endsFor (k : Nat) (ul : Bool) (l : Nat) (s : State) : Prop := ∃ h, holding s ul l = some h ∧ h.k = k ∧ h.ending.isSome = true

/-- What a release does for one slot: the end of the slot is planned, if the flock holds it. -/
def releaseSlot (ul atAsked : Bool) (k asked l : Nat) (s : State) : State :=
  if holding s ul l |>.any (fun h => h.k == k) then
    planEnd ul l (if atAsked then max (effective s ul (slotCarrier s ul l) (epochNext s)) (boundaryFrom (carrierSlot s ul (slotCarrier s ul l)) asked)
      else effective s ul (slotCarrier s ul l) (epochNext s)) s
  else s

theorem releaseSlot_flocks (ul atAsked : Bool) (k asked l : Nat) (s : State) :
    (releaseSlot ul atAsked k asked l s).fhp.flocks = s.fhp.flocks := by
  unfold releaseSlot
  split
  · exact planEnd_flocks ..
  · rfl

section

variable {ul atAsked : Bool} {k asked : Nat} {l : Fin 32} {s : State}

theorem holding_releaseSlot_ne {j : Fin 32} (h : l ≠ j) : holding (releaseSlot ul atAsked k asked j s) ul l = holding s ul l := by
  unfold releaseSlot
  split
  · exact holding_planEnd_ne (Fin.val_ne_of_ne h) ..
  · rfl

/-- A release plans the end of a slot that its flock holds. -/
theorem releaseSlot_ends (h : heldBy k ul l s) : endsFor k ul l (releaseSlot ul atAsked k asked l s) := by
  obtain ⟨h, held, own⟩ := h
  obtain ⟨x, ending, same, ends⟩ := holding_planEnd_same held (if atAsked then max (effective s ul (slotCarrier s ul l) (epochNext s))
    (boundaryFrom (carrierSlot s ul (slotCarrier s ul l)) asked) else effective s ul (slotCarrier s ul l) (epochNext s))
  rw [releaseSlot, if_pos (by simp [held, own])]
  exact ⟨x, ending, same.trans own, ends⟩

theorem endsFor.held (h : endsFor k ul l s) : heldBy k ul l s := by
  obtain ⟨x, held, own, -⟩ := h
  exact ⟨x, held, own⟩

theorem releaseSlot_held (j : Fin 32) (h : heldBy k ul l s) : heldBy k ul l (releaseSlot ul atAsked k asked j s) := by
  by_cases same : l = j
  · exact same ▸ (releaseSlot_ends h).held
  · rw [heldBy, holding_releaseSlot_ne same]
    exact h

theorem releaseSlot_keepsEnd (j : Fin 32) (h : endsFor k ul l s) : endsFor k ul l (releaseSlot ul atAsked k asked j s) := by
  by_cases same : l = j
  · exact same ▸ releaseSlot_ends h.held
  · rw [endsFor, holding_releaseSlot_ne same]
    exact h

/-- A release of slots plans the end of each of them that its flock holds. -/
theorem releaseSlots_ends {ls : List Nat} (inside : ∀ j ∈ ls, j < 32) (hl : l.val ∈ ls) (h : heldBy k ul l s) :
    endsFor k ul l (forAll ls (releaseSlot ul atAsked k asked) s) := by
  have ended {js : List Nat} (inside : ∀ j ∈ js, j < 32) {t : State} (h : endsFor k ul l t) :
      endsFor k ul l (forAll js (releaseSlot ul atAsked k asked) t) := by
    unfold forAll
    induction js generalizing t with
    | nil => exact h
    | cons j js ih =>
      exact ih (fun i hi => inside i (List.mem_cons_of_mem j hi)) (releaseSlot_keepsEnd ⟨j, inside j List.mem_cons_self⟩ h)
  induction ls generalizing s with
  | nil => cases hl
  | cons j js ih =>
    have rest : ∀ i ∈ js, i < 32 := fun i hi => inside i (List.mem_cons_of_mem j hi)
    rcases List.mem_cons.mp hl with rfl | hl
    · exact ended rest (releaseSlot_ends h)
    · exact ih rest hl (releaseSlot_held ⟨j, inside j List.mem_cons_self⟩ h)

end

/-- The slots that a RELEASE names. -/
def namedSlots (b : List Byte) : List Nat := (List.range 32).filter (nbit (be b 4 4))

theorem mem_namedSlots {b : List Byte} {l : Nat} : l ∈ namedSlots b ↔ l < 32 ∧ nbit (be b 4 4) l = true := by
  simp [namedSlots]

/-- The time asked of a RELEASE. -/
def releaseAsked (b : List Byte) (s : State) : Nat :=
  ((timeNear s.time.tb0 (be b 8 4) (be b 12 4) : Int) - s.time.tb0 + s.base).toNat

theorem releaseReq_foreign {k : Nat} {b : List Byte} {s : State} {l : Fin 32} (named : nbit (be b 4 4) l = true)
    (foreign : s.holder (nbit (byteAt b 0) 7) l ≠ some k) (q tag : Nat) : releaseReq k q tag b s = nakViol k q tag 3 0x02 0 s :=
  if_pos (c := (namedSlots b).any (fun l => s.holder (nbit (byteAt b 0) 7) l != some k) = true)
    (List.any_eq_true.mpr ⟨l, mem_namedSlots.mpr ⟨l.isLt, named⟩, by simp [foreign]⟩)

theorem releaseReq_own {k : Nat} {b : List Byte} {s : State}
    (own : ∀ l : Fin 32, nbit (be b 4 4) l = true → s.holder (nbit (byteAt b 0) 7) l = some k) (q tag : Nat) :
    releaseReq k q tag b s = forAll (namedSlots b) (releaseSlot (nbit (byteAt b 0) 7) (nbit (byteAt b 0) 6) k (releaseAsked b s))
      (flockAck k q tag 1 0 s) := by
  refine if_neg fun foreign => ?_
  obtain ⟨l, named, other⟩ := List.any_eq_true.mp foreign
  obtain ⟨inside, named⟩ := mem_namedSlots.mp named
  simp [own ⟨l, inside⟩ named] at other

section

variable {k : Fin 8} {q : Fin 2} {tag : BitVec 16} {b : List Byte} {s : State}

theorem releaseSlots_done (h : messageTaken s k 0x02 b) :
    let t := messageDone 0x02 k q tag b s
    (∀ l : Fin 32, nbit (be b 4 4) l = true → s.holder (nbit (byteAt b 0) 7) l ≠ some k.val →
        t = nakViol k q tag.toNat 3 0x02 0 (messageCounted k s)) ∧
      ((∀ l : Fin 32, nbit (be b 4 4) l = true → s.holder (nbit (byteAt b 0) 7) l = some k.val) →
        (vget t.fhp.flocks k).out.getLast? = some (q.val, flockMsg 0x83 tag.toNat [1, 0, 0, 0]) ∧
        ∀ (l : Fin 32) (h : Holding), nbit (be b 4 4) l = true → holding s (nbit (byteAt b 0) 7) l = some h → h.k = k.val →
          (holding t (nbit (byteAt b 0) 7) l).any (·.ending.isSome) = true) := by
  intro t
  have done : t = releaseReq k q tag.toNat b (messageCounted k s) := messageDone_taken h
  refine ⟨fun l named foreign => ?_, fun own => ?_⟩
  · rw [done]
    exact releaseReq_foreign named (by rw [h.holder]; exact foreign) ..
  · have released := releaseReq_own (k := k) (b := b) (s := messageCounted k s) (fun l named => (h.holder ..).trans (own l named)) q tag.toNat
    rw [done, released]
    refine ⟨?_, fun l x named held mine => ?_⟩
    · have flocks := forAll_induct (f := releaseSlot (nbit (byteAt b 0) 7) (nbit (byteAt b 0) 6) k (releaseAsked b (messageCounted k s)))
        (P := fun t => t.fhp.flocks = (flockAck k q tag.toNat 1 0 (messageCounted k s)).fhp.flocks)
        (fun l t ht => (releaseSlot_flocks ..).trans ht) (namedSlots b) rfl
      rw [flocks]
      exact post_out ..
    · have acked : holding (flockAck k q tag.toNat 1 0 (messageCounted k s)) (nbit (byteAt b 0) 7) l = some x := by
        rw [flockAck, holding_post, h.holding, held]
      obtain ⟨y, ending, -, ends⟩ := releaseSlots_ends (atAsked := nbit (byteAt b 0) 6) (asked := releaseAsked b (messageCounted k s))
        (fun j hj => (mem_namedSlots.mp hj).1) (mem_namedSlots.mpr ⟨l.isLt, named⟩) ⟨x, acked, mine⟩
      rw [ending]
      exact ends

theorem withdraw_done (h : messageTaken s k 0x03 b) :
    let t := messageDone 0x03 k q tag b s
    ((∀ r ∈ waitingReqs s, r.k = k.val → r.tag ≠ be b 0 2) → t = flockAck k q tag.toNat 2 1 (messageCounted k s)) ∧
      (∀ r, (waitingReqs s).find? (fun r => r.k == k.val && r.tag == be b 0 2) = some r →
        t = admitReply r 6 0 0 0 (dropReq r (messageCounted k s))) := by
  intro t
  have done : t = withdrawReq k q tag.toNat b (messageCounted k s) := messageDone_taken h
  rw [done, withdrawReq, h.waitingReqs]
  refine ⟨fun absent => ?_, fun r found => ?_⟩
  · have missing : (waitingReqs s).find? (fun r => r.k == k.val && r.tag == be b 0 2) = none := by
      simpa using absent
    rw [missing]
  · rw [found]

/-! ### Skeins, swaps, bursts and capabilities (R154, R271, R280, R282) -/

theorem skeinWrite_done (h : messageTaken s k 0x10 b) :
    let t := messageDone 0x10 k q tag b s
    (stackSize s ≤ byteAt b 1 → t = nakViol k q tag.toNat 0xA 0x10 0 (messageCounted k s)) ∧
      (byteAt b 1 < stackSize s → nbit (byteAt b 0) 7 = false → (vget s.fhp.flocks k).quar = true →
        t = flockNak k q tag.toNat 0xC 0x10 0 (messageCounted k s)) ∧
      (byteAt b 1 < stackSize s → nbit (byteAt b 0) 7 = true ∨ (vget s.fhp.flocks k).quar = false →
        (inPartition s (nbit (byteAt b 0) 7) k (be b 2 2) = false → t = nakViol k q tag.toNat 9 0x10 0 (messageCounted k s)) ∧
        (inPartition s (nbit (byteAt b 0) 7) k (be b 2 2) = true → byteAt b 1 = 0 →
          t = skeinWriteBody (nbit (byteAt b 0) 7) b (messageCounted k s))) := by
  intro t
  have done : t = skeinWriteReq k q tag.toNat b (messageCounted k s) := messageDone_taken h
  rw [done]; unfold skeinWriteReq; dsimp only
  rw [h.stackSize, h.quar, h.inPartition]
  refine ⟨fun past => if_pos past, fun inside dl quar => ?_, fun inside free => ?_⟩
  · rw [if_neg (Nat.not_le.mpr inside), if_pos ⟨by simp [dl], quar⟩]
  · have served : ¬ (¬ nbit (byteAt b 0) 7 = true ∧ (vget s.fhp.flocks k).quar = true) := by
      rcases free with ul | quar
      · simp [ul]
      · simp [quar]
    rw [if_neg (Nat.not_le.mpr inside), if_neg served]
    exact ⟨fun out => if_pos (by simp [out]), fun partition own => by rw [if_neg (by simp [partition]), if_pos own]⟩

theorem swapReq_done (h : messageTaken s k 0x11 b) :
    let t := messageDone 0x11 k q tag b s
    (nbit (byteAt b 0) 7 = false → (vget s.fhp.flocks k).quar = true → t = flockNak k q tag.toNat 0xC 0x11 0 (messageCounted k s)) ∧
      (nbit (byteAt b 0) 7 = true ∨ (vget s.fhp.flocks k).quar = false → ∀ code, flockSwapCode (messageCounted k s) k b = code → code ≠ 0 →
        t = (if code = 5 then flockViol k 3 else if code = 6 then flockViol k 9 else fun x => x)
          (flockSwapReport k q tag.toNat 7 code (nbit (byteAt b 0) 7) (byteAt b 0 % 32) 0 0 0 (messageCounted k s))) := by
  intro t
  have done : t = swapReq k q tag.toNat b (messageCounted k s) := messageDone_taken h
  rw [done]; unfold swapReq; dsimp only
  rw [h.quar]
  refine ⟨fun dl quar => if_pos ⟨by simp [dl], quar⟩, fun free code is refused => ?_⟩
  have served : ¬ (¬ nbit (byteAt b 0) 7 = true ∧ (vget s.fhp.flocks k).quar = true) := by
    rcases free with ul | quar
    · simp [ul]
    · simp [quar]
  have reported : flockSwap k q tag.toNat b (messageCounted k s) =
      flockSwapReport k q tag.toNat 7 code (nbit (byteAt b 0) 7) (byteAt b 0 % 32) 0 0 0 (messageCounted k s) := by
    unfold flockSwap; dsimp only
    rw [is, if_pos refused]
  rw [if_neg served, is, reported]
  split
  · rfl
  · split <;> rfl

/-- The refusal of a burst leaves the fronthaul and the groups. -/
theorem burstRefused_leaves (u : State) (g start ticks code : Nat) (s : State) :
    (burstRefused u g start ticks code s).fhp = s.fhp ∧ (burstRefused u g start ticks code s).rad.groups = s.rad.groups := by
  refine ⟨(burstRefused_keeps (L := fun p => decide (p ∈ [Part.regs, .rad])) rfl rfl (Kept.refl _ s)).fhp rfl, ?_⟩
  have duty : (if code = 0x0E ∧ u.rad.pasture.isSome ∧ ¬ groupOutOfRange u g ∧ ¬ dutyOk u start (start + ticks * tickTu) then dutyHit s
      else s).rad.groups = s.rad.groups := by
    split
    · rw [dutyHit, State.raise_rad]; rfl
    · rfl
  unfold burstRefused; dsimp only
  split
  · rw [State.addHi_rad]; exact duty
  · exact duty

theorem flockBurst_refused {k port tag code : Nat} {b : List Byte} {s : State} (is : flockBurstCode s k b = code) (refused : code ≠ 0) :
    flockBurst k port tag b s = burstRefused s (byteAt b 0 % 8) (timeNear s.time.tb0 (be b 8 4) (be b 12 4)) (be b 4 4) code
      (flockBurstReport k port tag 7 code (nbit (byteAt b 0) 7) (byteAt b 0 % 8) (timeNear s.time.tb0 (be b 8 4) (be b 12 4)) s) := by
  unfold flockBurst; dsimp only
  split
  next accepted _ => exact absurd (is.symm.trans accepted) refused
  next => rw [is]

theorem burstReq_done (h : messageTaken s k 0x20 b) :
    let t := messageDone 0x20 k q tag b s
    (nbit (byteAt b 0) 7 = true → (vget s.fhp.flocks k).quar = true → t = flockNak k q tag.toNat 0xC 0x20 0 (messageCounted k s)) ∧
      (nbit (byteAt b 0) 7 = false ∨ (vget s.fhp.flocks k).quar = false → ∀ code, flockBurstCode (messageCounted k s) k b = code → code ≠ 0 →
        (vget t.fhp.flocks k).out.getLast? = some (q.val, flockMsg 0xA1 tag.toNat
          (beBytes 1 7 ++ beBytes 1 code ++ beBytes 1 (b2n (nbit (byteAt b 0) 7) * 128 + byteAt b 0 % 8) ++ beBytes 1 0 ++
            time8 (timeNear s.time.tb0 (be b 8 4) (be b 12 4)))) ∧
        t.rad.groups = s.rad.groups) := by
  intro t
  have done : t = burstReq k q tag.toNat b (messageCounted k s) := messageDone_taken h
  rw [done]; unfold burstReq; dsimp only
  rw [h.quar]
  refine ⟨fun tx quar => if_pos ⟨tx, quar⟩, fun free code is refused => ?_⟩
  have served : ¬ (nbit (byteAt b 0) 7 = true ∧ (vget s.fhp.flocks k).quar = true) := by
    rcases free with rx | quar
    · simp [rx]
    · simp [quar]
  obtain ⟨fhp, groups⟩ := burstRefused_leaves (messageCounted k s) (byteAt b 0 % 8)
    (timeNear (messageCounted k s).time.tb0 (be b 8 4) (be b 12 4)) (be b 4 4) code (flockBurstReport k q tag.toNat 7 code
      (nbit (byteAt b 0) 7) (byteAt b 0 % 8) (timeNear (messageCounted k s).time.tb0 (be b 8 4) (be b 12 4)) (messageCounted k s))
  have groups : (flockBurst k q tag.toNat b (messageCounted k s)).rad.groups = s.rad.groups := by
    rw [flockBurst_refused is refused, groups, flockBurstReport, State.post_rad, h.changed.rad rfl]
  have answered : (vget (flockBurst k q tag.toNat b (messageCounted k s)).fhp.flocks k).out.getLast? =
      some (q.val, flockMsg 0xA1 tag.toNat
        (beBytes 1 7 ++ beBytes 1 code ++ beBytes 1 (b2n (nbit (byteAt b 0) 7) * 128 + byteAt b 0 % 8) ++ beBytes 1 0 ++
          time8 (timeNear s.time.tb0 (be b 8 4) (be b 12 4)))) := by
    rw [flockBurst_refused is refused, fhp, h.changed.time rfl]
    exact post_out ..
  rw [if_neg served, is]
  split
  · obtain ⟨g, keeps, fhp⟩ := flockViol_flock (k := k) 3 (flockBurst k q tag.toNat b (messageCounted k s))
    refine ⟨?_, ?_⟩
    · rw [fhp, vget_vmod_same _ _ k.isLt, (keeps _).1]; exact answered
    · rw [(flockViol_keeps (L := fun p => decide (p ∈ [Part.regs, .glb, .fhp, .acq])) rfl rfl rfl rfl (Kept.refl _ _)).rad rfl]
      exact groups
  · exact ⟨answered, groups⟩

theorem capsReq_done (h : messageTaken s k 0x30 b) {f : FlockCfg} (hf : s.flockCfg k = some f) :
    let t := messageDone 0x30 k q tag b s
    (vget t.fhp.flocks k).formats = byteAt b 0 % 8 ∧ (vget t.fhp.flocks k).ulBlocks = byteAt b 1 ∧
      (vget t.fhp.flocks k).capsDone = true ∧
      (vget t.fhp.flocks k).out.getLast? = some (q.val, flockMsg 0xB0 tag.toNat (capsBody (messageCounted k s) k f)) ∧
      changedOnly [.regs, .fhp] s t := by
  intro t
  have done : t = capsReq k q tag.toNat b (messageCounted k s) := messageDone_taken h
  rw [done, capsReq, h.flockCfg, hf]; dsimp only
  refine ⟨?_, ?_, ?_, post_out .., Kept.changedOnly (post_keeps rfl rfl (modFlock_keeps rfl h.changed))⟩
  all_goals rw [post_flock, State.modFlock_fhp, vget_vmod_same _ _ k.isLt]; rfl

end

/-- Settles O31: a message of a flock that is not served is nothing, one past CTRL_RATE is policed, a body outside its layout is answered with
a NAK, and every other one acts on the state in which it is counted. -/
theorem flockMessages : Obligations.FlockMessages := by
  unfold Obligations.FlockMessages
  refine fun s k q tag b => ⟨fun c hc => ⟨_, flockCommands_done hc, messageDone_unserved, fun served past => ?_, fun served rate bad => ?_⟩,
    ⟨_, rfl, admitReq_done⟩, ⟨_, rfl, releaseSlots_done⟩, ⟨_, rfl, withdraw_done⟩, ⟨_, rfl, skeinWrite_done⟩, ⟨_, rfl, swapReq_done⟩,
    ⟨_, rfl, burstReq_done⟩, ⟨_, rfl, fun taken f hf => capsReq_done taken hf⟩⟩
  · obtain ⟨-, counted, policed, flag, reqs, changes⟩ := police_policed (k := k) past
    rw [messageDone, if_pos served, ctrlMsg_policed past]
    exact ⟨counted, policed, flag, reqs, changes, (police_keeps rfl rfl rfl rfl (Kept.refl _ s)).changedOnly⟩
  · rw [messageDone, if_pos served, ctrlMsg_counted rate, if_neg (by simp [bad])]

end Sys2Proof.Machine
end

section
/-!
SUPPORT. Attempts of the predistorters and surveys: a due path, a block that is judged, the solver, and the surveys that join, run and leave
(R191 to R201).
-/

namespace Sys2Proof.Machine

/-! ### Attempts (R194 to R198) -/

theorem attemptReject_dpd (p code : Nat) (s : State) :
    (attemptReject p code s).dpd = (s.modDpdPath p (fun x => { x with adapt := .idle, dueFrom := s.time.tb1 })).dpd := by
  rw [attemptReject, attemptLog, State.logPut_dpd, State.raise_dpd, attemptStatus, State.setFld_dpd, State.setFld_dpd]

theorem attemptStatus_dpd (p result code : Nat) (s : State) : (attemptStatus p result code s).dpd = s.dpd := by
  rw [attemptStatus, State.setFld_dpd, State.setFld_dpd]

theorem attemptLog_dpd (p bit code : Nat) (s : State) : (attemptLog p bit code s).dpd = s.dpd := State.logPut_dpd ..

/-- A block that is discarded leaves the surveys. -/
theorem discardBlock_surveys (p code : Nat) (s : State) : (discardBlock p code s).dpd.surveys = s.dpd.surveys := by
  have noted (f : DpdPath → DpdPath) : ((s.setFld (Reg.DPD_STATUS p) 23 16 code).modDpdPath p f).dpd.surveys = s.dpd.surveys := by
    rw [State.modDpdPath_dpd, State.setFld_dpd]
  unfold discardBlock
  split
  · split
    · rw [attemptReject_dpd]; rfl
    · exact noted _
  · split
    · rw [attemptReject_dpd]; rfl
    · exact noted _
  · rfl

theorem solverSwap_leaves (p page : Nat) (s : State) : RequestLeaves s (solverSwap p page s) := dpdAccept_leaves ..

section

variable {s : State} {p : Fin 64}

/-- A due path collects. -/
theorem pathDue_collects (enabled : dpdEnabled s p = true) (adapt : adaptOn s p = true) (level : s.pwr.level ≠ 3) (stage : 3 ≤ s.pwr.stage)
    (idle : (dpdOf s p).adapt = .idle) (due : (dpdOf s p).dueFrom + dpdPeriod s p ≤ s.time.tb1) :
    (dpdOf (pathDue p s) p).adapt = .collecting 0 0 := by
  rw [pathDue, if_pos ⟨enabled, adapt, level, stage, idle, due⟩, dpdOf_modDpdPath_same]

/-- A path whose last solve is two periods old shows STALE. -/
theorem dpdStale_shows (enabled : dpdEnabled s p = true) (adapt : adaptOn s p = true)
    (late : (dpdOf s p).doneAt + 2 * dpdPeriod s p ≤ s.time.tb1) : (dpdStale p s).fld (Reg.DPD_STATUS p) 29 29 = 1 := by
  have other : Reg.DPD_STATUS p ≠ Reg.DPD_INT_STATUS := by unfold Reg.DPD_STATUS Reg.DPD_INT_STATUS; omega
  rw [dpdStale, if_pos ⟨enabled, adapt, late⟩, State.fld, State.raise_reg_ne _ other]
  exact State.fld_setFld s _ 1 (by decide) (by decide)

/-- The free solver, past its pause, takes the first path of its queue. -/
theorem solveStart_takes {rest : List Nat} (free : s.dpd.solver = none) (queue : s.dpd.queue = p.val :: rest)
    (paused : s.dpd.rest ≤ s.time.tb1) : (solveStart s).dpd.solver = some p.val ∧ (dpdOf (solveStart s) p).adapt = .solving := by
  unfold solveStart
  rw [free, queue]; dsimp only
  rw [if_neg (Nat.not_lt.mpr paused)]
  refine ⟨?_, by rw [dpdOf_modDpdPath_same]⟩
  rw [State.modDpdPath_dpd, State.setFld_dpd]; rfl

/-- The end of a solve frees the solver. -/
theorem solveDone_frees (took : Nat) (runs : s.dpd.solver = some p.val) : (solveDone p took s).dpd.solver = none := by
  unfold solveDone; dsimp only
  rw [if_neg (not_not_intro runs)]
  split
  · rw [attemptReject_dpd, State.modDpdPath_dpd, State.modDpdPath_dpd, State.setFld_dpd]; rfl
  · refine (solverSwap_leaves ..).free ?_
    rw [State.modDpdPath_dpd, writePage, coefWrite, State.modDpd_dpd, State.modDpdPath_dpd, State.setFld_dpd]; rfl

/-! ### Blocks that are judged (R195, R197) -/

theorem noteGain_dpd (p : Nat) (k : ObsBlock) (s : State) : (noteGain p k s).dpd = s.dpd := State.setReg_dpd ..

/-- A verdict ends the attempt. -/
theorem verdict_idle (new : Int) : (dpdOf (verdict p new s) p).adapt = .idle := by
  have ended : (dpdOf (s.modDpdPath p (fun x => { x with adapt := .idle, blocks := [] })) p).adapt = .idle := by rw [dpdOf_modDpdPath_same]
  unfold verdict; dsimp only
  split
  · refine (solverSwap_leaves ..).idle p ?_
    rw [dpdOf, attemptLog_dpd, State.raise_dpd, attemptStatus_dpd]
    exact ended
  · rw [dpdOf, State.raise_dpd, State.setReg_dpd, attemptStatus_dpd]
    exact (congrArg DpdPath.adapt (dpdOf_modDpdPath_same p _ _)).trans ended

/-- A block of a path in verification that passes decides it. -/
theorem judgeBlock_decides {k : ObsBlock} {b : Nat} (verifies : (dpdOf s p).adapt = .verifying b)
    (passes : blockCode s p (blockOf (dpdOf s p).cfg k) = 0) : (dpdOf (judgeBlock p k s) p).adapt = .idle := by
  unfold judgeBlock; dsimp only
  rw [verifies]; dsimp only
  rw [if_neg (not_not_intro passes)]
  exact verdict_idle _

theorem enqueueSolve_obs (p : Nat) (s : State) : (enqueueSolve p s).dpd.obs = s.dpd.obs := rfl

/-- A block of a path that collects, and that passes, leaves the receivers. -/
theorem judgeBlock_obs {p : Nat} {k : ObsBlock} {good bad : Nat} (collects : (dpdOf s p).adapt = .collecting good bad)
    (passes : blockCode s p (blockOf (dpdOf s p).cfg k) = 0) : (judgeBlock p k s).dpd.obs = s.dpd.obs := by
  unfold judgeBlock; dsimp only
  rw [collects]; dsimp only
  rw [if_neg (not_not_intro passes)]
  split
  · rw [enqueueSolve_obs, State.modDpdPath_dpd, State.modDpdPath_dpd, noteGain_dpd]
  · rw [State.modDpdPath_dpd, State.modDpdPath_dpd, noteGain_dpd]

theorem obsVisit_visits {o m : Nat} (h : visitMember s o = some m) (k : ObsBlock) :
    obsVisit o m k s = judgeBlock (8 * o + m) k (s.modObs o (fun x => { x with last := m })) := if_pos h

/-- A verification block of the member visited ends the attempt. -/
theorem verificationDone_idle {k : ObsBlock} {b : Nat} (verifies : (dpdOf s p).adapt = .verifying b)
    (visit : visitMember s (p / 8) = some (p % 8)) (passes : blockCode s p (blockOf (dpdOf s p).cfg k) = 0) :
    (dpdOf (verificationDone p k s) p).adapt = .idle := by
  unfold verificationDone
  rw [verifies]; dsimp only
  have member : visitMember s (p / 8) = some (p.val % 8) := visit
  rw [obsVisit_visits member, Nat.div_add_mod]
  exact judgeBlock_decides verifies passes

/-- A visit that ends leaves its member as the last one. -/
theorem obsVisit_last {o m : Fin 8} {k : ObsBlock} {good bad : Nat} (visit : visitMember s o = some m.val)
    (collects : (dpdOf s (8 * o.val + m.val)).adapt = .collecting good bad)
    (passes : blockCode s (8 * o.val + m.val) (blockOf (dpdOf s (8 * o.val + m.val)).cfg k) = 0) :
    (vget (obsVisit o m k s).dpd.obs o).last = m := by
  have kept := judgeBlock_obs (s := s.modObs o (fun x => { x with last := m.val })) (good := good) (bad := bad) collects passes
  rw [obsVisit_visits visit, kept]
  exact congrArg Obs.last (vget_vmod_same _ _ o.isLt)

end

/-! ### Surveys (R199 to R201) -/

theorem present_dpdInt (o : Order) : absentReg o Reg.DPD_INT_STATUS = false := by
  cases o <;> rfl

/-- An accepted survey joins those that wait. -/
theorem surveyGo_joins {s : State} {w : Word} (go : bitOf w 31 = true) (h : surveyCode s (surveyOf s (fld w 5 0)) = 0) :
    (surveyGo w s).dpd.surveys = s.dpd.surveys ++ [surveyOf s (fld w 5 0)] := by
  unfold surveyGo
  rw [if_neg (not_not_intro go)]; dsimp only
  rw [if_neg (not_not_intro h), surveyStatus, State.setReg_dpd]
  rfl

theorem dropBlock_surveys (o : Nat) (s : State) : (dropBlock o s).dpd.surveys = s.dpd.surveys := by
  unfold dropBlock
  split
  · exact discardBlock_surveys ..
  · rfl

/-- A watched change acts on a state with the present surveys, and what follows it leaves the predistorters. -/
theorem watchRoles_dpd (f : State → State) (s : State) : ∃ u, u.dpd.surveys = s.dpd.surveys ∧ (watchRoles f s).dpd = (f u).dpd := by
  refine ⟨forAll ((List.range 2).filter (fun r => roleValid s r && !roleValid (f s) r)) dropBlocks s,
    forAll_induct (P := fun t => t.dpd.surveys = s.dpd.surveys) (fun _ _ ht => forAll_induct (fun o t ht => (dropBlock_surveys o t).trans ht) _ ht)
      _ rfl, ?_⟩
  refine (forAll_keeps (L := fun p => decide (p ∈ [Part.regs, .paths, .fhp])) (fun r t K => ?_) (refreshMutes_keeps rfl (Kept.refl _ _))).dpd rfl
  exact Kept.ite K (noticeRole_keeps rfl rfl K)

/-- A survey that gets its receiver is granted, the first of all. -/
theorem surveyGranted_first {s : State} {p : Nat} {v : Survey} (h : surveyFor s p = some v) :
    (surveyGranted p s).dpd.surveys.head? = some { v with granted := true } := by
  unfold surveyGranted
  rw [h]; dsimp only
  obtain ⟨u, surveys, dpd⟩ := watchRoles_dpd (·.modRole v.role (fun r => { r with survey := true }))
    (s.modDpd (fun d => { d with surveys := { v with granted := true } :: d.surveys.erase v }))
  rw [dpd, State.modRole_dpd, surveys]; rfl

theorem obsGrant_surveys (o : Nat) (s : State) : (obsGrant o s).1.dpd.surveys = s.dpd.surveys := by
  unfold obsGrant; dsimp only
  split <;> rfl

theorem obsHolderGrant_survey {s : State} {o : Nat} {v : Survey} (won : (obsGrant o s).2 = some (.survey v.path))
    (h : surveyFor s v.path = some v) : (obsHolderGrant o s).dpd.surveys.head? = some { v with granted := true } := by
  have same : surveyFor (obsGrant o s).1 v.path = some v := by rw [surveyFor, obsGrant_surveys]; exact h
  have granted : obsGrant o s = ((obsGrant o s).1, some (.survey v.path)) := by rw [← won]
  rw [obsHolderGrant, granted]
  exact surveyGranted_first same

theorem surveyRelease_surveys (v : Survey) (s : State) : (surveyRelease v s).dpd.surveys = s.dpd.surveys.erase v := by
  unfold surveyRelease; dsimp only
  split <;> rfl

theorem surveyReport_dpd (old : State) (v : Survey) (g : Nat → Cplx × Cplx) (s : State) : (surveyReport old v g s).dpd = s.dpd :=
  (surveyReport_keeps (L := fun p => decide (p = .regs)) rfl (Kept.refl _ s)).dpd rfl

/-- The end of a survey takes it out and raises its flag. -/
theorem surveyDone_ends {s : State} {o : Nat} {v : Survey} (h : s.dpd.surveys.find? (fun v => v.path / 8 == o && v.granted) = some v)
    (steps : List (Cplx × Cplx)) :
    (surveyDone o steps s).dpd.surveys = s.dpd.surveys.erase v ∧ (surveyDone o steps s).bit Reg.DPD_INT_STATUS 5 = true := by
  unfold surveyDone
  rw [h]; dsimp only
  refine ⟨?_, State.bit_raise _ (present_dpdInt _) (by decide)⟩
  rw [State.raise_dpd, surveyStatus, State.setReg_dpd, surveyReport_dpd, surveyRelease_surveys]

theorem surveyRefuse_surveys (code p : Nat) (s : State) : (surveyRefuse code p s).dpd.surveys = s.dpd.surveys := by
  rw [surveyRefuse, State.raise_dpd, surveyStatus, State.setReg_dpd]

/-- One survey is aborted. -/
def surveyAborted (v : Survey) (s : State) : State := surveyRefuse 0x06 v.path (surveyRelease v s)

theorem surveyAborted_surveys (v : Survey) (s : State) : (surveyAborted v s).dpd.surveys = s.dpd.surveys.erase v := by
  rw [surveyAborted, surveyRefuse_surveys, surveyRelease_surveys]

theorem surveyAborted_flag (v : Survey) (s : State) : (surveyAborted v s).bit Reg.DPD_INT_STATUS 6 = true := by
  rw [surveyAborted, surveyRefuse]
  exact State.bit_raise _ (present_dpdInt _) (by decide)

theorem surveysAborted_surveys (l : List Survey) : ∀ s : State, s.dpd.surveys = l → (forAll l surveyAborted s).dpd.surveys = [] := by
  unfold forAll
  induction l with
  | nil => exact fun s h => h
  | cons v l ih =>
    intro s h
    rw [List.foldl_cons]
    exact ih _ (by rw [surveyAborted_surveys, h, List.erase_cons_head])

theorem surveyAbort_eq (s : State) : surveyAbort s = forAll s.dpd.surveys surveyAborted s := by
  rw [surveyAbort, surveyAbortIf, List.filter_true]
  rfl

/-- An abort takes out every survey and raises its flag. -/
theorem surveyAbort_ends {s : State} (h : s.dpd.surveys ≠ []) :
    (surveyAbort s).dpd.surveys = [] ∧ (surveyAbort s).bit Reg.DPD_INT_STATUS 6 = true := by
  obtain ⟨v, hv⟩ := List.exists_mem_of_ne_nil _ h
  rw [surveyAbort_eq]
  exact ⟨surveysAborted_surveys _ s rfl,
    forAll_reaches (P := fun t => t.bit Reg.DPD_INT_STATUS 6 = true) hv (surveyAborted_flag v) (fun v t _ => surveyAborted_flag v t) s⟩

end Sys2Proof.Machine
end

section
/-!
SUPPORT. Groups and bursts: what a change of a group's state, a report and a burst that leaves keep of the bursts, and what a burst's acceptance,
start and end change (R205 to R214).
-/

namespace Sys2Proof.Machine

/-! ### Groups by number -/

theorem grp_modGroup (g j : Nat) (f : Group → Group) (s : State) : grp (s.modGroup g f) j = if j = g ∧ g < 8 then f (grp s g) else grp s j :=
  vget_vmod ..

theorem grp_modGroup_same {g : Nat} (hg : g < 8) (f : Group → Group) (s : State) : grp (s.modGroup g f) g = f (grp s g) :=
  vget_vmod_same _ _ hg

theorem grp_congr {s t : State} (h : t.rad.groups = s.rad.groups) (g : Nat) : grp t g = grp s g := by
  rw [grp, h]; rfl

/-- A change of a group that leaves its bursts leaves those of every group. -/
theorem modGroup_bursts (g j : Nat) (f : Group → Group) (s : State) (hf : ∀ x, (f x).bursts = x.bursts := by intro x; rfl) :
    (grp (s.modGroup g f) j).bursts = (grp s j).bursts := by
  rw [grp_modGroup]
  split
  next h => rw [h.1]; exact hf _
  next => rfl

theorem syncPState_rad (s : State) : (syncPState s).rad = s.rad :=
  (syncPState_keeps (L := fun p => decide (p = .pstate)) rfl (Kept.refl _ s)).rad rfl

/-! ### The state of a group (R204 to R207) -/

/-- What a group keeps of a transmission that it leaves. -/
def txLeft (g : Nat) (st : GState) (s : State) : State :=
  if decide ((grp s g).state = .tx ∧ st ≠ .tx) then
    match (grp s g).txSince with
    | some t => s.modRad (fun r => { r with txDone := keepTx s.time.tb1 (r.txDone ++ [(t, s.time.tb1)]) })
    | none => s
  else s

theorem txLeft_groups (g : Nat) (st : GState) (s : State) : (txLeft g st s).rad.groups = s.rad.groups := by
  unfold txLeft
  split
  · split <;> rfl
  · rfl

/-- A group in its new state. -/
def Group.entering (st : GState) (leaves : Bool) (s : State) (y : Group) : Group :=
  { y with
    state := st
    txSince := if st = .tx then (if y.state = .tx then y.txSince else some s.time.tb1) else none
    txEnd := if leaves then some s.time.tb0 else y.txEnd
    calEnd := if y.state = .cal ∧ st ≠ .cal then some s.time.tb0 else y.calEnd }

/-- What a group keeps of a reception that it begins or leaves. -/
def rxMoved (g : Nat) (was : Bool) (now : Nat) (s : State) : State :=
  if was ∧ ¬ groupRx s g then
    s.modGroup g (fun y => { y with
      rxEnd := some now, rxSince := none
      rxSpans := y.rxSpans.filter (fun x => decide (now < x.2 + 10 * msTu)) ++ [(y.rxSince.getD now, now)] })
  else if ¬ was ∧ groupRx s g then s.modGroup g (fun y => { y with rxSince := some now })
  else s

theorem enterGroup_eq (g : Nat) (st : GState) (s : State) : enterGroup g st s =
    syncPState (rxMoved g (groupRx s g) (txLeft g st s).time.tb0 ((txLeft g st s).modGroup g
      (Group.entering st (decide ((grp s g).state = .tx ∧ st ≠ .tx)) (txLeft g st s)))) := rfl

theorem rxMoved_keeps {P : Group → Group → Prop} (refl : ∀ x, P x x)
    (begins : ∀ x now, P x { x with rxSince := some now })
    (ends : ∀ x now spans, P x { x with rxEnd := some now, rxSince := none, rxSpans := spans }) (g j : Nat) (was : Bool) (now : Nat) (s : State) :
    P (grp s j) (grp (rxMoved g was now s) j) := by
  have moved {f : Group → Group} (hf : ∀ x, P x (f x)) : P (grp s j) (grp (s.modGroup g f) j) := by
    rw [grp_modGroup]
    split
    next h => rw [h.1]; exact hf _
    next => exact refl _
  unfold rxMoved
  split
  · exact moved fun x => ends x now _
  · split
    · exact moved fun x => begins x now
    · exact refl _

theorem enterGroup_bursts (g : Nat) (st : GState) (j : Nat) (s : State) : (grp (enterGroup g st s) j).bursts = (grp s j).bursts := by
  rw [enterGroup_eq, grp, syncPState_rad]
  refine (rxMoved_keeps (P := fun x y => y.bursts = x.bursts) (fun _ => rfl) (fun _ _ => rfl) (fun _ _ _ => rfl) g j _ _ _).trans ?_
  refine (modGroup_bursts ..).trans ?_
  rw [grp_congr (txLeft_groups ..)]

/-- A group that enters a state is in it. -/
theorem enterGroup_state {g : Nat} (hg : g < 8) (st : GState) (s : State) : (grp (enterGroup g st s) g).state = st := by
  rw [enterGroup_eq, grp, syncPState_rad]
  refine (rxMoved_keeps (P := fun x y => y.state = x.state) (fun _ => rfl) (fun _ _ => rfl) (fun _ _ _ => rfl) g g _ _ _).trans ?_
  rw [grp_modGroup_same hg]
  rfl

theorem leaveOff_bursts (g : Nat) (st : GState) (now j : Nat) (s : State) : (grp (leaveOff g st now s) j).bursts = (grp s j).bursts :=
  modGroup_bursts ..

theorem ite_bursts {c : Prop} [Decidable c] {t u : State} {g : Nat} {l : List Burst} (h : (grp t g).bursts = l) (h' : (grp u g).bursts = l) :
    (grp (if c then t else u) g).bursts = l := by
  split
  · exact h
  · exact h'

theorem goTo_bursts (g : Nat) (st : GState) (j : Nat) (s : State) : (grp (goTo g st s) j).bursts = (grp s j).bursts := by
  have aimed : (grp (s.modGroup g (fun y => { y with ret := if st = .cal ∨ st = .tx then y.ret else st })) j).bursts = (grp s j).bursts :=
    modGroup_bursts ..
  unfold goTo; dsimp only
  refine ite_bursts ?_ (ite_bursts ?_ (ite_bursts ?_ (ite_bursts ?_ ?_)))
  · exact (modGroup_bursts ..).trans aimed
  · exact (leaveOff_bursts ..).trans aimed
  all_goals
    refine (modGroup_bursts ..).trans ?_
    exact ite_bursts ((enterGroup_bursts ..).trans aimed) aimed

theorem settle_bursts (g j : Nat) (s : State) : (grp (settle g s) j).bursts = (grp s j).bursts :=
  ite_bursts rfl (ite_bursts rfl (ite_bursts rfl (goTo_bursts ..)))

theorem afterBurst_bursts (g : Nat) (b : Burst) (j : Nat) (s : State) : (grp (afterBurst g b s) j).bursts = (grp s j).bursts := by
  have returned (u : State) : (grp (u.modGroup g (fun x => { x with ret := b.ret })) j).bursts = (grp u j).bursts :=
    modGroup_bursts ..
  unfold afterBurst; dsimp only
  split
  · rfl
  · split
    · split
      · exact enterGroup_bursts ..
      · rfl
    · split
      · split
        · exact returned s
        · exact (returned _).trans ((goTo_bursts ..).trans (returned s))
      · exact (settle_bursts ..).trans (returned s)

section

variable {g : Fin 8} {s : State}

/-- A transition that ends, to anything but TX and to RX only without bursts, enters its state. -/
theorem transitionDone_enters {st : GState} (trans : (grp s g).trans = some st) (tx : st ≠ .tx) (rx : st ≠ .rx ∨ (grp s g).bursts = []) :
    (grp (transitionDone g s) g).state = st := by
  have free : ¬ (st = .tx ∨ st = .rx ∧ (grp s g).bursts.any (fun b => b.prep && !b.started) = true) := by
    rcases rx with rx | rx
    · simp [tx, rx]
    · simp [tx, rx]
  unfold transitionDone
  rw [trans]; dsimp only
  rw [if_neg free]
  exact enterGroup_state g.isLt ..

/-! ### Bursts that are reported, and that leave (R210 to R213) -/

theorem ite_rad {c : Prop} [Decidable c] {t u : State} (h : t.rad = u.rad) : (if c then t else u).rad = u.rad := by
  split
  · exact h
  · rfl

theorem hostBurstReport_groups (r : BurstReport) (s : State) : (hostBurstReport r s).rad.groups = s.rad.groups := by
  unfold hostBurstReport
  split
  · rw [State.raise_rad, State.addLo_rad]
  · rw [State.raise_rad]; rfl

theorem burstReport_groups (g : Nat) (b : Burst) (outcome code : Nat) (s : State) :
    (burstReport g b outcome code s).rad.groups = s.rad.groups := by
  have logged (detail : Word) : (if outcome ≥ 3 then s.event Reg.RAD_INT_STATUS 0 g detail else s).rad = s.rad := ite_rad (State.event_rad ..)
  have counted (u : State) : (if code = 0x22 then (if outcome = 3 then u.addHi Reg.THM_THROTTLE 1 else u.addLo Reg.THM_THROTTLE 1)
      else u).rad = u.rad := by
    split
    · split
      · exact State.addHi_rad ..
      · exact State.addLo_rad ..
    · rfl
  have sent (sub tag : Nat) (body : List Byte) (u : State) : (if outcome ≥ 3 then reportUp sub tag body u else u).rad = u.rad :=
    ite_rad ((reportUp_keeps (L := fun p => decide (p = .cas)) rfl (Kept.refl _ u)).rad rfl)
  unfold burstReport; dsimp only
  split
  · rw [hostBurstReport_groups, counted, logged]
  · rw [flockBurstReport, State.post_rad, counted, logged]
  · rw [sent, counted, logged]

/-- A burst that leaves its group leaves the others there. -/
theorem burstOut_bursts (b : Burst) (code : Nat) (s : State) :
    (grp (burstOut g b code s) g).bursts = (grp s g).bursts.filter (fun x => x.seq != b.seq) := by
  have removed : (grp (removeBurst g b.seq s) g).bursts = (grp s g).bursts.filter (fun x => x.seq != b.seq) :=
    congrArg Group.bursts (grp_modGroup_same g.isLt _ s)
  have reported (outcome : Nat) : (grp (burstReport g b outcome code (removeBurst g b.seq s)) g).bursts =
      (grp s g).bursts.filter (fun x => x.seq != b.seq) := by
    rw [grp_congr (burstReport_groups ..)]; exact removed
  unfold burstOut; dsimp only
  split
  · rw [afterBurst_bursts]
    split
    · exact removed
    · exact reported _
  · rw [settle_bursts]
    split
    · exact (modGroup_bursts ..).trans (reported 3)
    · exact reported 3

theorem burstEnd_leaves {b : Burst} (h : firstBurst burstStop ((grp s g).bursts.filter (·.started)) = some b) :
    (grp (burstEnd g s) g).bursts = (grp s g).bursts.filter (fun x => x.seq != b.seq) := by
  rw [burstEnd, h]
  exact burstOut_bursts ..

/-! ### Bursts that are prepared and that start (R211, R212) -/

theorem modBurst_bursts (seq : Nat) (f : Burst → Burst) (s : State) :
    (grp (modBurst g seq f s) g).bursts = (grp s g).bursts.map (fun b => if b.seq = seq then f b else b) :=
  congrArg Group.bursts (grp_modGroup_same g.isLt _ s)

theorem burstPrepare_prepares {b : Burst} (h : firstBurst (·.start) ((grp s g).bursts.filter (fun b => !b.prep && !b.started)) = some b) :
    (grp (burstPrepare g s) g).bursts = (grp s g).bursts.map (fun x => if x.seq = b.seq then { x with prep := true } else x) := by
  have prepared := modBurst_bursts (g := g) b.seq (fun b => { b with prep := true }) s
  unfold burstPrepare
  rw [h]; dsimp only
  refine ite_bursts prepared ((modGroup_bursts ..).trans ?_)
  exact ite_bursts ((enterGroup_bursts ..).trans prepared) prepared

theorem flockStarted_rad (b : Burst) (s : State) : (flockStarted b s).rad = s.rad := by
  unfold flockStarted
  split
  · exact (flockEvent_keeps (L := fun p => decide (p ∈ [Part.regs, .acq])) rfl rfl (Kept.refl _ s)).rad rfl
  · rfl

/-- A TX burst that starts puts its group into TX. -/
theorem burstStart_tx {b : Burst} (h : firstBurst (·.start) ((grp s g).bursts.filter (fun b => !b.started)) = some b)
    (starts : startCode s g b = 0) (tx : b.tx = true) : (grp (burstStart g s) g).state = .tx := by
  unfold burstStart
  rw [h]; dsimp only
  rw [if_neg (not_not_intro starts), if_pos tx, grp, flockStarted_rad]
  exact (congrArg Group.state (grp_congr (burstReport_groups ..) g)).trans (enterGroup_state g.isLt ..)

end

/-! ### Requests of the host (R205, R208, R209) -/

theorem gstateOf_of_groupCmdCode {s : State} {g st : Nat} (h : groupCmdCode s g st = 0) : ∃ x, gstateOf st = some x := by
  rw [← Option.isSome_iff_exists]
  by_contra undefined
  have refused : groupCmdCode s g st ≠ 0 := by
    unfold groupCmdCode
    simp only [Option.not_isSome_iff_eq_none.mp undefined, Option.isNone_none, if_true]
    repeat' split
    all_goals decide
  exact refused h

/-- An accepted command of a group shows that it is. -/
theorem groupCmdWrite_accepts {s : State} {w : Word} (go : bitOf w 31 = true) (h : groupCmdCode s (fld w 18 16) (fld w 2 0) = 0)
    (alone : isBellwether s = false) : (groupCmdWrite w s).fld Reg.RAD_GROUP_RESULT 31 30 = 1 := by
  obtain ⟨st, defined⟩ := gstateOf_of_groupCmdCode h
  unfold groupCmdWrite
  rw [if_neg (not_not_intro go)]; dsimp only
  rw [cmdState, if_neg (not_not_intro h), if_neg (by simp [alone]), defined]; dsimp only
  rw [groupResult, State.fld, State.reg_setReg, if_pos rfl]
  decide

theorem flockBurstReport_result (k port tag outcome code : Nat) (tx : Bool) (g start : Nat) (s : State) :
    (flockBurstReport k port tag outcome code tx g start s).reg Reg.RAD_BURST_RESULT = s.reg Reg.RAD_BURST_RESULT := by
  have lost : Reg.RAD_BURST_RESULT ≠ Reg.FHP_FLOCK_CTRL_LOST k := by unfold Reg.RAD_BURST_RESULT Reg.FHP_FLOCK_CTRL_LOST; omega
  exact State.post_reg s lost (by decide)

theorem burstReport_result (g : Nat) (b : Burst) (outcome code : Nat) (s : State) :
    (burstReport g b outcome code s).reg Reg.RAD_BURST_RESULT = s.reg Reg.RAD_BURST_RESULT := by
  have logged (detail : Word) : (if outcome ≥ 3 then s.event Reg.RAD_INT_STATUS 0 g detail else s).reg Reg.RAD_BURST_RESULT =
      s.reg Reg.RAD_BURST_RESULT := by
    split
    · rw [State.event_reg s (by decide) (by decide), State.raise_reg_ne s (by decide)]
    · rfl
  have sent (sub tag : Nat) (body : List Byte) (u : State) :
      (if outcome ≥ 3 then reportUp sub tag body u else u).reg Reg.RAD_BURST_RESULT = u.reg Reg.RAD_BURST_RESULT := by
    split
    · exact reportUp_reg ..
    · rfl
  have counted (u : State) : (if code = 0x22 then (if outcome = 3 then u.addHi Reg.THM_THROTTLE 1 else u.addLo Reg.THM_THROTTLE 1)
      else u).reg Reg.RAD_BURST_RESULT = u.reg Reg.RAD_BURST_RESULT := by
    split
    · split
      · exact State.addHi_reg_ne u (by decide)
      · exact State.addLo_reg_ne u (by decide)
    · rfl
  have queued (r : BurstReport) (u : State) : (hostBurstReport r u).reg Reg.RAD_BURST_RESULT = u.reg Reg.RAD_BURST_RESULT := by
    unfold hostBurstReport
    split
    · rw [State.raise_reg_ne _ (by decide), State.addLo_reg_ne _ (by decide)]
    · exact State.raise_reg_ne _ (by decide)
  unfold burstReport; dsimp only
  split
  · rw [queued, counted, logged]
  · rw [flockBurstReport_result, counted, logged]
  · rw [sent, counted, logged]

/-- A burst that leaves its group leaves the result that the host reads. -/
theorem burstOut_result (g : Nat) (b : Burst) (code : Nat) (s : State) :
    (burstOut g b code s).reg Reg.RAD_BURST_RESULT = s.reg Reg.RAD_BURST_RESULT := by
  have after (u : State) : (afterBurst g b u).reg Reg.RAD_BURST_RESULT = u.reg Reg.RAD_BURST_RESULT :=
    (afterBurst_keeps (L := fun p => decide (p ∈ [Part.pstate, .rad])) rfl rfl (Kept.refl _ u)).reg rfl _
  have settled (u : State) : (settle g u).reg Reg.RAD_BURST_RESULT = u.reg Reg.RAD_BURST_RESULT :=
    (settle_keeps (L := fun p => decide (p ∈ [Part.pstate, .rad])) rfl rfl (Kept.refl _ u)).reg rfl _
  have reported (outcome : Nat) : (burstReport g b outcome code (removeBurst g b.seq s)).reg Reg.RAD_BURST_RESULT = s.reg Reg.RAD_BURST_RESULT :=
    burstReport_result ..
  unfold burstOut; dsimp only
  split
  · rw [after]
    split
    · rfl
    · exact reported _
  · rw [settled]
    split
    · exact reported 3
    · exact reported 3

theorem hostClears_result (g start : Nat) (b : Burst) (s : State) :
    (hostClears g start b s).reg Reg.RAD_BURST_RESULT = s.reg Reg.RAD_BURST_RESULT := by
  unfold hostClears; dsimp only
  split
  · rfl
  · split
    · split
      · exact flockBurstReport_result ..
      · exact burstOut_result ..
    · exact burstOut_result ..

theorem relayBurst_leaves (tag g : Nat) (tx : Bool) (start ticks ret : Nat) (s : State) :
    (relayBurst tag g tx start ticks ret s).rad = s.rad ∧
      (relayBurst tag g tx start ticks ret s).reg Reg.RAD_BURST_RESULT = s.reg Reg.RAD_BURST_RESULT := by
  have kept : Kept (fun p => decide (p = .cas)) s (relayBurst tag g tx start ticks ret s) := relayControl_keeps rfl (Kept.refl _ s)
  exact ⟨kept.rad rfl, kept.reg rfl _⟩

theorem burstAccept_result (who : Requester) (port tag g : Nat) (tx : Bool) (start ticks : Nat) (ret : GState) (s : State) :
    (burstAccept who port tag g tx start ticks ret s).reg Reg.RAD_BURST_RESULT = s.reg Reg.RAD_BURST_RESULT :=
  forAll_reg (fun b _ t => hostClears_result g start b t) s

/-- An accepted burst is the last of its group. -/
theorem burstAccept_last (who : Requester) (port tag : Nat) (g : Fin 8) (tx : Bool) (start ticks : Nat) (ret : GState) (s : State) :
    (grp (burstAccept who port tag g tx start ticks ret s) g).bursts.getLast?.map (·.tag) = some tag := by
  obtain ⟨u, b, named, added⟩ : ∃ (u : State) (b : Burst), b.tag = tag ∧
      burstAccept who port tag g tx start ticks ret s = u.modGroup g (fun x => { x with bursts := x.bursts ++ [b] }) := by
    refine ⟨_, _, ?_, rfl⟩
    rfl
  rw [added, grp_modGroup_same g.isLt, List.getLast?_concat, ← named]
  rfl

theorem gstateOf_of_burstCode {s : State} {who : Requester} {g start ticks ret : Nat} {tx : Bool}
    (h : burstCode s who g tx start ticks ret = 0) : ∃ x, gstateOf ret = some x := by
  rw [← Option.isSome_iff_exists]
  by_contra undefined
  have refused : burstCode s who g tx start ticks ret ≠ 0 := by
    unfold burstCode; dsimp only
    simp only [Option.not_isSome_iff_eq_none.mp undefined, Option.isNone_none, or_true, if_true]
    repeat' split
    all_goals decide
  exact refused h

/-- The time that the host asks of a burst. -/
def burstAsked (s : State) : Nat := timeNear s.time.tb0 (s.reg Reg.RAD_BURST_TIME_S).toNat (s.reg Reg.RAD_BURST_TIME_NS).toNat

/-- The code of the host's burst; 0 when it is accepted. -/
def hostBurstCode (s : State) (w : Word) : Nat :=
  burstCode s .host (fld w 18 16) (bitOf w 30) (burstAsked s) (s.fld Reg.RAD_BURST_LEN 22 0) (fld w 29 27)

/-- The state in which the host's burst is accepted: its tag is shown. -/
def burstTagged (s : State) : State :=
  (s.modRad (fun r => { r with hostTag := (s.rad.hostTag + 1) % 65536 })).setReg Reg.RAD_BURST_RESULT
    (pk [(30, 1), (0, (s.rad.hostTag + 1) % 65536)])

theorem burstCtrlWrite_accepted {s : State} {w : Word} (go : bitOf w 31 = true) (h : hostBurstCode s w = 0) : ∃ st, burstCtrlWrite w s =
    relayBurst ((s.rad.hostTag + 1) % 65536) (fld w 18 16) (bitOf w 30) (burstAsked s) (s.fld Reg.RAD_BURST_LEN 22 0) (fld w 29 27)
      (burstAccept .host 0 ((s.rad.hostTag + 1) % 65536) (fld w 18 16) (bitOf w 30) (burstAsked s) (s.fld Reg.RAD_BURST_LEN 22 0) st
        (burstTagged s)) := by
  obtain ⟨st, defined⟩ := gstateOf_of_burstCode h
  unfold burstCtrlWrite
  rw [if_neg (not_not_intro go)]; dsimp only
  split
  next => exact ⟨_, rfl⟩
  next other => exact absurd defined (other st h)

/-- An accepted burst of the host shows its tag, and is the last of its group. -/
theorem burstCtrlWrite_accepts {s : State} {w : Word} (go : bitOf w 31 = true) (h : hostBurstCode s w = 0) :
    (burstCtrlWrite w s).reg Reg.RAD_BURST_RESULT = pk [(30, 1), (0, (s.rad.hostTag + 1) % 65536)] ∧
      ((grp (burstCtrlWrite w s) (fld w 18 16)).bursts.getLast?.map (·.tag)) = some ((s.rad.hostTag + 1) % 65536) := by
  obtain ⟨st, accepted⟩ := burstCtrlWrite_accepted go h
  obtain ⟨rad, result⟩ := relayBurst_leaves ((s.rad.hostTag + 1) % 65536) (fld w 18 16) (bitOf w 30) (burstAsked s)
    (s.fld Reg.RAD_BURST_LEN 22 0) (fld w 29 27) (burstAccept .host 0 ((s.rad.hostTag + 1) % 65536) (fld w 18 16) (bitOf w 30) (burstAsked s)
      (s.fld Reg.RAD_BURST_LEN 22 0) st (burstTagged s))
  rw [accepted]
  refine ⟨?_, ?_⟩
  · rw [result, burstAccept_result, burstTagged, State.reg_setReg, if_pos rfl]
  · rw [grp, rad]
    exact burstAccept_last .host 0 _ ⟨fld w 18 16, fld_lt w 18 16⟩ ..

end Sys2Proof.Machine
end

section
/-!
SUPPORT. The control lines, the RFFE buses and the licence: frames that are sent, queued and ended, the record that is staged and written, and
the windows of the power limits (R218 to R227).
-/

namespace Sys2Proof.Machine

/-! ### RFFE buses (R218, R219) -/

theorem rffe_modRffe {s : State} (f : Fin 8) (g : Rffe → Rffe) : rffe (modRffe f g s) f = g (rffe s f) := vget_vmod_same _ _ f.isLt

theorem rffe_congr {s t : State} (h : t.rad = s.rad) (f : Nat) : rffe t f = rffe s f := by
  rw [rffe, h]; rfl

theorem rffeOutcome_rad (f code : Nat) (s : State) : (rffeOutcome f code s).rad = s.rad := State.setReg_rad ..

theorem insertBy_length {α : Type} (le : α → α → Bool) (x : α) (l : List α) : (insertBy le x l).length = l.length + 1 := by
  induction l with
  | nil => rfl
  | cons y l ih =>
    unfold insertBy
    split
    · rw [List.length_cons, ih, List.length_cons]
    · rfl

/-- A frame that is sent runs, and leaves the queue. -/
theorem rffeSend_runs (f : Fin 8) (c : RffeCmd) (s : State) : rffe (rffeSend f c s) f = { rffe s f with run := some c } := by
  unfold rffeSend; dsimp only
  rw [rffe_modRffe]
  split
  · rw [rffe_congr (State.setFld_rad ..)]
  · rfl

section

variable {s : State} {f : Fin 8} {w : Word}

/-- While a frame runs, an immediate command waits for it. -/
theorem rffeImmediate_waits (go : bitOf w 31 = true) (type : rffeBadType w = false) (on : s.bit (Reg.RAD_RFFE_CFG f) 31 = true)
    (runs : (rffe s f).run.isSome) : (rffe (rffeImmediate f w s) f).imm =
      (rffe s f).imm ++ [{ cmd := w, wdata := s.reg (Reg.RAD_RFFE_WDATA f), air := none }] := by
  have waits (u : State) (hu : (rffe u f).run.isSome = true) : rffeNext f u = u := by
    unfold rffeNext; dsimp only
    exact if_pos hu
  unfold rffeImmediate; dsimp only
  rw [if_neg (not_not_intro go), if_neg (by simp [type]), if_neg (not_not_intro on), waits]
  · rw [rffe_modRffe, rffe_congr (rffeOutcome_rad ..)]
  · rw [rffe_modRffe, rffe_congr (rffeOutcome_rad ..)]
    exact runs

/-- The time that the host asks of a frame. -/
def rffeAsked (s : State) (f : Nat) : Nat := timeNear s.time.tb0 (s.reg (Reg.RAD_RFFE_TIME_S f)).toNat (s.reg (Reg.RAD_RFFE_TIME_NS f)).toNat

/-- The code that refuses a timed command; 0 when it is accepted. -/
def rffeTimedCode (s : State) (f : Nat) (w : Word) : Nat :=
  if (rffe s f).queue.length ≥ 16 then 1
  else if ¬ s.locked then 3
  else if rffeBadType w then 2
  else if ¬ s.bit (Reg.RAD_RFFE_CFG f) 31 then 4
  else if rffeAsked s f < s.time.tb0 + rffeTu (s.reg (Reg.RAD_RFFE_CFG f)) w + usTu then 5
  else 0

theorem rffeTimed_accepted (go : bitOf w 31 = true) (h : rffeTimedCode s f w = 0) : ∃ c : RffeCmd, rffeTimed f w s =
    modRffe f (fun b => { b with queue := insertBy (fun a b => decide (a.air.getD 0 ≤ b.air.getD 0)) c b.queue })
      (rffeOutcome f (rffeTimedCode s f w) s) := by
  unfold rffeTimed
  rw [if_neg (not_not_intro go)]
  exact ⟨_, if_neg (not_not_intro h)⟩

/-- A timed command in time, with room in the queue, is queued. -/
theorem rffeTimed_queues (go : bitOf w 31 = true) (type : rffeBadType w = false) (on : s.bit (Reg.RAD_RFFE_CFG f) 31 = true)
    (room : (rffe s f).queue.length < 16) (locked : s.locked = true)
    (inTime : s.time.tb0 + rffeTu (s.reg (Reg.RAD_RFFE_CFG f)) w + usTu ≤ rffeAsked s f) :
    (rffeTimed f w s).fld (Reg.RAD_RFFE_STATUS f) 30 29 = 1 ∧ (rffe (rffeTimed f w s) f).queue.length = (rffe s f).queue.length + 1 := by
  have good : ¬ rffeBadType w = true := by simp [type]
  have accepted : rffeTimedCode s f w = 0 := by
    rw [rffeTimedCode, if_neg (Nat.not_le.mpr room), if_neg (not_not_intro locked), if_neg good, if_neg (not_not_intro on),
      if_neg (Nat.not_lt.mpr inTime)]
  obtain ⟨c, queued⟩ := rffeTimed_accepted go accepted
  rw [queued, accepted]
  refine ⟨?_, ?_⟩
  · rw [modRffe, State.modRad_fld, rffeOutcome, State.fld, State.reg_setReg, if_pos rfl,
      fld_put_above _ _ (by decide) (by decide) (by decide), fld_put _ _ (by decide) (by decide)]
    rfl
  · rw [rffe_modRffe, rffe_congr (rffeOutcome_rad ..)]
    exact insertBy_length ..

/-- The first frame of the queue goes on an idle bus when it is due. -/
theorem rffeDue_sends {c : RffeCmd} {rest : List RffeCmd} (queue : (rffe s f).queue = c :: rest) (idle : (rffe s f).run = none) :
    (rffe (rffeDue f s) f).run = some c ∧ (rffe (rffeDue f s) f).queue = rest := by
  unfold rffeDue; dsimp only
  rw [queue]; dsimp only
  rw [idle, if_pos (by rfl), rffeSend_runs, rffe_modRffe]
  exact ⟨rfl, rfl⟩

/-- The end of a frame, with none that waits, leaves the bus idle. -/
theorem rffeDone_idles (data : Word) (parity : Bool) (runs : (rffe s f).run.isSome) (queue : (rffe s f).queue = [])
    (imm : (rffe s f).imm = []) : (rffe (rffeDone f data parity s) f).run = none := by
  have rests (u : State) (hq : (rffe u f).queue = []) (hi : (rffe u f).imm = []) : rffeNext f u = u := by
    unfold rffeNext; dsimp only
    split
    · rfl
    · rw [hq, hi]
      cases (rffe u f).late <;> rfl
  obtain ⟨c, run⟩ := Option.isSome_iff_exists.mp runs
  have read (u : State) (hu : u.rad = (modRffe f (fun b => { b with run := none }) s).rad) : (rffe (rffeNext f u) f).run = none := by
    have ended : rffe u f = { rffe s f with run := none } := by rw [rffe_congr hu, rffe_modRffe]
    rw [rests u (by rw [ended]; exact queue) (by rw [ended]; exact imm), ended]
  unfold rffeDone
  rw [run]; dsimp only
  refine read _ ?_
  split
  · rfl
  · split
    · rw [State.raise_rad, State.addLo_rad]
    · rw [State.setFld_rad, State.setReg_rad]

end

/-! ### The licence record (R222) -/

theorem pastData_stages {s : State} (room : s.nvs.pastStage.words.length < 75) (w : Word) :
    (pastData w s).nvs.pastStage.words = s.nvs.pastStage.words ++ [w] := by
  unfold pastData; dsimp only
  rw [if_neg (Nat.not_le.mpr room)]
  exact congrArg Staging.words (if_neg (Nat.not_le.mpr room))

/-- A write of the record that passes its tests is under way. -/
theorem pastWrite_begins {s : State} (h : pastCode s = 0) :
    (pastWrite s).reg Reg.NVS_PAST_STATUS = pk [(30, 3), (16, 0)] ∧ (pastWrite s).nvs.pastBusy = true := by
  unfold pastWrite; dsimp only
  rw [h, if_neg (by decide), if_neg (not_not_intro rfl), pastStatus, if_pos rfl]
  refine ⟨?_, ?_⟩
  · exact (State.reg_setReg ..).trans (if_pos rfl)
  · have stored (u : State) : (pastDraw u).nvs.pastBusy = u.nvs.pastBusy := rfl
    rw [stored, State.setReg_nvs]
    rfl

/-! ### Power limits (R225 to R227) -/

section

variable {r : Pasture} {p q : Nat} {x : Int} {s : State}

theorem pathWindow_regs (r : Pasture) (q : Nat) (x : Int) (s : State) (p : Nat) :
    (pathWindow r q x s).reg (Reg.RAD_GEXT p) = s.reg (Reg.RAD_GEXT p) := by
  have other : Reg.RAD_GEXT p ≠ Reg.RAD_INT_STATUS := by unfold Reg.RAD_GEXT Reg.RAD_INT_STATUS; omega
  unfold pathWindow; dsimp only
  split
  · exact State.raise_reg_ne _ other
  · rfl

theorem pathWindow_rad (r : Pasture) (q : Nat) (x : Int) (s : State) : (pathWindow r q x s).rad = s.rad := by
  unfold pathWindow; dsimp only
  split
  · exact State.raise_rad ..
  · rfl

/-- The window of a path leaves the other paths. -/
theorem pathWindow_other (h : p ≠ q) (r : Pasture) (x : Int) (s : State) : pathOf (pathWindow r q x s) p = pathOf s p := by
  unfold pathWindow; dsimp only
  split
  · rw [pathOf_refreshPath_ne h, pathOf_congr (State.raise_paths ..), pathOf_modPath_ne h]
  · exact pathOf_modPath_ne h ..

/-- The window of a path leaves the power of the other paths. -/
theorem pathPower_window (h : p ≠ q) (level y : Int) : pathPower (pathWindow r q y s) r p level = pathPower s r p level := by
  rw [pathPower, appliedTx, attenSum, pathWindow_other h, pathWindow_rad, extGain, pathWindow_regs]
  rfl

theorem pathWindow_est (p : Fin 64) (r : Pasture) (x : Int) (s : State) : (pathOf (pathWindow r p x s) p).licEst = pathPower s r p x := by
  unfold pathWindow; dsimp only
  split
  · obtain ⟨m, z, refreshed⟩ := pathOf_refreshPath p ((s.modPath p _).raise Reg.RAD_INT_STATUS 4)
    rw [refreshed, pathOf_congr (State.raise_paths ..), pathOf_modPath_same p.isLt]
  · rw [pathOf_modPath_same p.isLt]

/-- The windows of several paths, each of them once, give the power of each. -/
theorem pathWindows_est {p : Fin 64} {live : List (Nat × Int)} (once : (live.map (·.1)).Nodup) (h : (p.val, x) ∈ live) (s : State) :
    (pathOf (forAll live (fun q s => pathWindow r q.1 q.2 s) s) p).licEst = pathPower s r p x := by
  have rest (l : List (Nat × Int)) (away : p.val ∉ l.map (·.1)) (t : State) :
      pathOf (forAll l (fun q s => pathWindow r q.1 q.2 s) t) p = pathOf t p := by
    unfold forAll
    induction l generalizing t with
    | nil => rfl
    | cons q l ih =>
      rw [List.map_cons, List.mem_cons, not_or] at away
      rw [List.foldl_cons, ih away.2, pathWindow_other away.1]
  unfold forAll at rest ⊢
  induction live generalizing s with
  | nil => cases h
  | cons q live ih =>
    rw [List.map_cons, List.nodup_cons] at once
    rw [List.foldl_cons]
    rcases List.mem_cons.mp h with rfl | h
    · rw [rest live once.1]
      exact pathWindow_est ..
    · have other : p.val ≠ q.1 := fun e => once.1 (e ▸ List.mem_map_of_mem (f := Prod.fst) h)
      rw [ih once.2 h, pathPower_window other]

/-- The paths that were LIVE in a window, with their levels. -/
def liveLevels (levels : List (Option Int)) : List (Nat × Int) :=
  (List.range 64).filterMap (fun p => (levels.getD p none).map (fun x => (p, x)))

theorem liveLevels_once (levels : List (Option Int)) : ((liveLevels levels).map (·.1)).Nodup := by
  have some_of (l : List Nat) :
      ((l.filterMap (fun p => (levels.getD p none).map (fun x => (p, x)))).map (·.1)).Sublist l := by
    induction l with
    | nil => exact .slnil
    | cons p l ih =>
      rw [List.filterMap_cons]
      split
      next => exact ih.cons p
      next q hq =>
        obtain ⟨x, -, rfl⟩ := Option.map_eq_some_iff.mp hq
        exact ih.cons_cons p
  exact List.nodup_range.sublist (some_of _)

theorem mem_liveLevels {levels : List (Option Int)} {p : Fin 64} (h : levels.getD p none = some x) : (p.val, x) ∈ liveLevels levels :=
  List.mem_filterMap.mpr ⟨p, List.mem_range.mpr p.isLt, by rw [h]; rfl⟩

theorem refreshMutes_est (p : Fin 64) (s : State) : (pathOf (refreshMutes s) p).licEst = (pathOf s p).licEst := by
  rw [refreshMutes]
  refine forAll_induct (P := fun t => (pathOf t p).licEst = (pathOf s p).licEst) (fun j t ht => ?_) (List.range 64) rfl
  by_cases same : p.val = j
  · obtain ⟨m, z, refreshed⟩ := pathOf_refreshPath p t
    rw [← same, refreshed]
    exact ht
  · rw [pathOf_refreshPath_ne same]
    exact ht

/-- A window gives the estimate of every path that was LIVE in it. -/
theorem powerWindow_est {levels : List (Option Int)} {p : Fin 64} (record : s.rad.pasture = some r) (live : levels.getD p none = some x) :
    (pathOf (powerWindow levels s) p).licEst = pathPower s r p x := by
  have windows := pathWindows_est (r := r) (liveLevels_once levels) (mem_liveLevels live) s
  unfold powerWindow
  rw [record]; dsimp only
  split
  · exact windows
  · split
    · rw [refreshMutes_est, pathOf_congr (State.raise_paths ..), pathOf_congr (State.modRad_paths ..)]
      exact windows
    · rw [pathOf_congr (State.modRad_paths ..)]
      exact windows

theorem attenRelax_falls {p : Fin 64} (atten : 0 < (pathOf s p).licAtten) (quiet : (pathOf s p).licQuietSince + secTu ≤ s.time.tb1) :
    (pathOf (attenRelax (some p.val) s) p).licAtten = (pathOf s p).licAtten - 1 := by
  unfold attenRelax; dsimp only
  rw [if_pos ⟨atten, quiet⟩, pathOf_modPath_same p.isLt]

end

end Sys2Proof.Machine
end

section
/-!
SUPPORT. Every command of the skeins, the FFT engines, the predistorters, the groups, RFFE and the licence completes with its own effect.
-/

namespace Sys2Proof.Machine

/-- Settles O57: the swaps, the FFT jobs and the predistorters' settings by what the obligations on them say; the others by the rule of each
operation. -/
theorem beamPredistortionAndRadioCommandsComplete : Obligations.BeamPredistortionAndRadioCommandsComplete := by
  unfold Obligations.BeamPredistortionAndRadioCommandsComplete
  intro s
  obtain ⟨skein, skeinSwitch, skeinStart, skeinPly, pop⟩ := skeinsAndSwaps s
  obtain ⟨dpdSwitch, -, -, coef, pathCfg⟩ := predistorterSwaps s
  refine ⟨fun a w hs => (skein a w).imp fun t ⟨_, written⟩ => written hs,
    fun w hs go h => (skeinSwitch w).imp fun t ⟨_, done⟩ => ?_,
    fun ul l r hp hr => (skeinStart ul l).imp fun t ⟨_, starts⟩ => ?_,
    fun ul l h => (skeinPly ul l).imp fun t ⟨_, ends⟩ => (ends h).1,
    fun hs => pop.imp fun t ⟨_, pops⟩ => (pops hs).1,
    fun f => ?_,
    fun w hs go hw hl hp h1 h8 => (dpdSwitch w).imp fun t ⟨_, done⟩ => ?_,
    fun a w hs free => (coef a w).imp fun t ⟨_, _, written⟩ => (written hs free).1,
    fun p => ⟨fun w hs live adapt => (pathCfg p w).imp fun t ⟨_, stored⟩ => (stored hs live adapt).1,
      fun enabled adapt => ⟨fun level stage idle due => ⟨_, rfl, pathDue_collects enabled adapt level stage idle due⟩,
        fun late => ⟨_, rfl, dpdStale_shows enabled adapt late⟩⟩,
      fun rest free queue paused => ⟨_, rfl, solveStart_takes free queue paused⟩,
      fun took runs => ⟨_, rfl, solveDone_frees took runs⟩,
      fun k b verifies visit passes => ⟨_, rfl, verificationDone_idle verifies visit passes⟩⟩,
    fun o m k good bad visit collects passes => ⟨_, rfl, obsVisit_last visit collects passes⟩,
    fun w hs go h => ⟨_, rfl, ?_⟩,
    fun o v => ⟨fun won h => ⟨_, rfl, obsHolderGrant_survey won h⟩, fun steps h => ⟨_, rfl, surveyDone_ends h steps⟩⟩,
    fun h => ⟨_, rfl, surveyAbort_ends h⟩,
    fun w hs go h alone => ⟨_, rfl, ?_⟩,
    fun w hs go h => ⟨_, rfl, ?_⟩,
    fun g => ⟨fun st trans tx rx => ⟨_, rfl, transitionDone_enters trans tx rx⟩, fun b h => ⟨_, rfl, burstPrepare_prepares h⟩,
      fun b h starts tx => ⟨_, rfl, burstStart_tx h starts tx⟩, fun b h => ⟨_, rfl, burstEnd_leaves h⟩⟩,
    fun hs => ⟨_, rfl, ?_⟩,
    fun f n w hs => ⟨_, rfl, ?_⟩,
    fun f w hs go type on => ⟨fun runs => ⟨_, rfl, ?_⟩, fun room locked inTime => ⟨_, rfl, ?_⟩⟩,
    fun f => ⟨fun c rest queue idle => ⟨_, rfl, rffeDue_sends queue idle⟩,
      fun d e runs queue imm => ⟨_, rfl, rffeDone_idles d e runs queue imm⟩⟩,
    fun w hs room => ⟨_, rfl, ?_⟩,
    fun hs => ⟨⟨_, rfl, ?_⟩, fun h => ⟨_, rfl, ?_⟩⟩,
    fun l r p x record live => ⟨_, rfl, powerWindow_est record live⟩,
    fun p atten quiet => ⟨_, rfl, attenRelax_falls atten quiet⟩⟩
  · have accepted := done hs go
    dsimp only at accepted
    rw [if_neg (not_not_intro h)] at accepted
    exact ⟨accepted.1, accepted.2.1⟩
  · obtain ⟨pend, active, -⟩ := starts r hp hr
    exact ⟨pend, active⟩
  · obtain ⟨submit, start, ends⟩ := fftJobs s f
    refine ⟨fun hs h => (submit false).imp fun t ⟨_, done⟩ => ?_, fun x first j rest hq ready => (start x first).imp fun t ⟨_, _, takes⟩ => ?_,
      fun j run waits => ends.imp fun t ⟨_, _, done⟩ => ?_⟩
    · have accepted := done (.inr hs)
      rw [if_neg (not_not_intro h)] at accepted
      obtain ⟨queue, -, -, outcome, -⟩ := accepted
      exact ⟨by rw [queue, List.length_append, List.length_singleton], outcome⟩
    · obtain ⟨queue, ⟨k, run, -, -, -, tag⟩, -⟩ := takes j rest hq ready
      exact ⟨queue, by rw [run, ← tag]; rfl⟩
    · obtain ⟨run, -, flag, -⟩ := done j run waits
      exact ⟨run, flag⟩
  · have accepted := done hs go
    dsimp only at accepted
    rw [if_neg (by simp [Option.isSome_iff_ne_none.mp hw, hl, hp, h1, Nat.not_lt.mpr h8])] at accepted
    exact ⟨accepted.1, accepted.2.1⟩
  · rw [State.hosted_served hs]; exact surveyGo_joins go h
  · rw [State.hosted_served hs]; exact groupCmdWrite_accepts go h alone
  · rw [State.hosted_served hs]; exact burstCtrlWrite_accepts go h
  · rw [State.hosted_served hs]; rfl
  · rw [State.hosted_served hs, lineCfgWrite, State.reg_setReg, if_pos rfl]
  · rw [State.hosted_served hs]; exact rffeImmediate_waits go type on runs
  · rw [State.hosted_served hs]; exact rffeTimed_queues go type on room locked inTime
  · rw [State.hosted_served hs]; exact pastData_stages room w
  · rw [State.hosted_served hs]; rfl
  · rw [State.hosted_served hs]; exact pastWrite_begins h

end Sys2Proof.Machine
end

section
/-!
SUPPORT. Adaptation of the predistorters: what an attempt that ends shows, what a counted block, a solve and a verdict leave, and which of
their registers they change (R194 to R197).
-/

namespace Sys2Proof.Machine

/-! ### What an attempt shows (R195 to R197) -/

theorem dpdStatus_ne_int (p : Nat) : Reg.DPD_STATUS p ≠ Reg.DPD_INT_STATUS := by
  unfold Reg.DPD_STATUS Reg.DPD_INT_STATUS; omega

theorem attemptLog_status (p q bit code : Nat) (s : State) : (attemptLog p bit code s).reg (Reg.DPD_STATUS q) = s.reg (Reg.DPD_STATUS q) :=
  State.logPut_reg s (by unfold Reg.DPD_STATUS Reg.GLB_INT_STATUS; omega) (by unfold Reg.DPD_STATUS Reg.GLB_LOG_LOST; omega)

theorem attemptLog_int (p bit code i : Nat) (s : State) : (attemptLog p bit code s).bit Reg.DPD_INT_STATUS i = s.bit Reg.DPD_INT_STATUS i :=
  congrArg (bitOf · i) (State.logPut_reg s (by decide) (by decide))

/-- DPD_STATUS of a path shows a result and a code. -/
def ShowsAttempt (p result code : Nat) (s : State) : Prop :=
  s.fld (Reg.DPD_STATUS p) 31 30 = result ∧ s.fld (Reg.DPD_STATUS p) 23 16 = code

theorem ShowsAttempt.of_reg {p result code : Nat} {s t : State} (h : ShowsAttempt p result code s)
    (same : t.reg (Reg.DPD_STATUS p) = s.reg (Reg.DPD_STATUS p)) : ShowsAttempt p result code t := by
  unfold ShowsAttempt State.fld
  rw [same]
  exact h

theorem attemptStatus_shows (p : Nat) {result code : Nat} (hr : result < 4) (hc : code < 256) (s : State) :
    ShowsAttempt p result code (attemptStatus p result code s) := by
  refine ⟨?_, ?_⟩
  · rw [attemptStatus, State.fld_setFld_above _ _ _ (by decide) (by decide) (by decide), State.fld_setFld _ _ _ (by decide) (by decide)]
    exact Nat.mod_eq_of_lt hr
  · rw [attemptStatus, State.fld_setFld _ _ _ (by decide) (by decide)]
    exact Nat.mod_eq_of_lt hc

/-- A shown result stays through the interrupt and the log entry of its attempt, and the interrupt is set. -/
theorem attempt_noted {p result code : Nat} {s : State} (h : ShowsAttempt p result code s) (q bit logged : Nat) {i : Nat} (hi : i < 32) :
    let t := attemptLog q bit logged (s.raise Reg.DPD_INT_STATUS i)
    ShowsAttempt p result code t ∧ t.bit Reg.DPD_INT_STATUS i = true :=
  ⟨h.of_reg ((attemptLog_status ..).trans (State.raise_reg_ne s (dpdStatus_ne_int p))),
    (attemptLog_int ..).trans (State.bit_raise s (present_dpdInt _) hi)⟩

/-- A rejected attempt shows its code, with its interrupt. -/
theorem attemptReject_shows (p : Nat) {code : Nat} (hc : code < 256) (s : State) :
    ShowsAttempt p 2 code (attemptReject p code s) ∧ (attemptReject p code s).bit Reg.DPD_INT_STATUS 1 = true :=
  attempt_noted (attemptStatus_shows p (by decide) hc _) p 1 code (by decide)

/-! ### Requests of the solver (R170, R187, R197) -/

/-- What a request for a bank does, step by step: it takes the path's room, it supersedes, or it is flagged. A property that these keep, the
request keeps. -/
theorem dpdAccept_induct {P : State → Prop} {p : Nat} {r : SwapReq} {s : State} (start : P s)
    (take : ∀ t, P t → P (t.modDpdPath p (fun x => { x with pend := some r }))) (count : ∀ t, P t → P (t.addLo Reg.DPD_SUPERSEDED 1))
    (flag : ∀ t, P t → P (t.raise Reg.DPD_INT_STATUS 7)) (ends : ∀ t, P t → P (attemptEnd p 0x0D t)) : P (dpdAccept p r s) := by
  have past (t : State) (h : P t) := ends _ (flag _ (count t h))
  unfold dpdAccept; dsimp only
  split
  · exact take s start
  · split
    · exact past s start
    · split
      · exact past _ (take s start)
      · exact flag _ (take s start)

theorem attemptEnd_solves (p code : Nat) (s : State) : (attemptEnd p code s).dpd.solves = s.dpd.solves := by
  unfold attemptEnd
  split
  · rfl
  · rw [attemptNoted_dpd]; rfl

theorem solverSwap_solves (p page : Nat) (s : State) : (solverSwap p page s).dpd.solves = s.dpd.solves :=
  dpdAccept_induct (P := fun t => t.dpd.solves = s.dpd.solves) rfl (fun _ h => h) (fun t h => by rw [State.addLo_dpd, h])
    (fun t h => by rw [State.raise_dpd, h]) (fun t h => by rw [attemptEnd_solves, h])

/-- A swap that the solver requests for a path with no attempt leaves what the path shows, and the interrupts that are set. -/
theorem solverSwap_shown {p : Fin 64} {result code i : Nat} {s : State} (idle : (dpdOf s p).adapt = .idle) (shown : ShowsAttempt p result code s)
    (hi : i < 32) (flagged : s.bit Reg.DPD_INT_STATUS i = true) (page : Nat) :
    ShowsAttempt p result code (solverSwap p page s) ∧ (solverSwap p page s).bit Reg.DPD_INT_STATUS i = true := by
  have other : Reg.DPD_STATUS p ≠ Reg.DPD_SUPERSEDED := by unfold Reg.DPD_STATUS Reg.DPD_SUPERSEDED; omega
  refine (dpdAccept_induct (P := fun t => (dpdOf t p).adapt = .idle ∧ ShowsAttempt p result code t ∧ t.bit Reg.DPD_INT_STATUS i = true)
    ⟨idle, shown, flagged⟩ ?take ?count ?flag ?ends).2
  case take =>
    rintro t ⟨idle, shown, flagged⟩
    exact ⟨by rw [dpdOf_modDpdPath_same]; exact idle, shown, flagged⟩
  case count =>
    rintro t ⟨idle, shown, flagged⟩
    refine ⟨by rw [dpdOf_congr (State.addLo_dpd ..)]; exact idle, shown.of_reg (State.addLo_reg_ne t other), ?_⟩
    rw [State.bit, State.addLo_reg_ne t (by decide)]
    exact flagged
  case flag =>
    rintro t ⟨idle, shown, flagged⟩
    exact ⟨by rw [dpdOf_congr (State.raise_dpd ..)]; exact idle, shown.of_reg (State.raise_reg_ne t (dpdStatus_ne_int p)),
      State.bit_raise_of_bit t hi flagged⟩
  case ends =>
    rintro t ⟨idle, shown, flagged⟩
    rw [attemptEnd, if_pos idle]
    exact ⟨idle, shown, flagged⟩

section

variable {s : State} {p : Fin 64} {k : ObsBlock} {good bad : Nat}

/-! ### Verdicts (R197) -/

/-- The attempt of a path, ended for its verdict. -/
theorem dpdOf_attemptOver : dpdOf (s.modDpdPath p (fun x => { x with adapt := .idle, blocks := [] })) p =
    { dpdOf s p with adapt := .idle, blocks := [] } := dpdOf_modDpdPath_same ..

/-- A verification that is worse by more than the limit is reverted, with its interrupt. -/
theorem verdict_reverts {new : Int} (worse : new - (dpdOf s p).lastNmse > 25 * (fld (dpdOf s p).cfg 27 24 : Nat)) :
    ShowsAttempt p 3 0x0C (verdict p new s) ∧ (verdict p new s).bit Reg.DPD_INT_STATUS 2 = true := by
  obtain ⟨shown, flag⟩ := attempt_noted (attemptStatus_shows p (result := 3) (code := 0x0C) (by decide) (by decide)
    (s.modDpdPath p (fun x => { x with adapt := .idle, blocks := [] }))) p 2 0x0C (i := 2) (by decide)
  unfold verdict; dsimp only
  rw [dpdOf_attemptOver, if_pos worse]
  refine solverSwap_shown ?_ shown (by decide) flag _
  rw [dpdOf_congr (attemptLog_dpd ..), dpdOf_congr (State.raise_dpd ..), dpdOf_congr (attemptStatus_dpd ..), dpdOf_attemptOver]

/-- A verification within the limit is an update, which waits for its record, with its interrupt. -/
theorem verdict_updates {new : Int} (within : ¬ new - (dpdOf s p).lastNmse > 25 * (fld (dpdOf s p).cfg 27 24 : Nat)) :
    (dpdOf (verdict p new s) p).fresh = true ∧ (verdict p new s).fld (Reg.DPD_STATUS p) 31 30 = 1 ∧
      (verdict p new s).bit Reg.DPD_INT_STATUS 0 = true := by
  have other : Reg.DPD_STATUS p ≠ Reg.DPD_NMSE p := by unfold Reg.DPD_STATUS Reg.DPD_NMSE; omega
  unfold verdict; dsimp only
  rw [dpdOf_attemptOver, if_neg within]
  refine ⟨?_, ?_, State.bit_raise _ (present_dpdInt _) (by decide)⟩
  · rw [dpdOf_congr (State.raise_dpd ..), dpdOf_congr (State.setReg_dpd ..), dpdOf_congr (attemptStatus_dpd ..), dpdOf_modDpdPath_same]
  · rw [State.fld, State.raise_reg_ne _ (dpdStatus_ne_int p), State.reg_setReg_ne _ _ other]
    exact (attemptStatus_shows p (by decide) (by decide) _).1

theorem verificationDone_nothing (h : (∀ b, (dpdOf s p).adapt ≠ .verifying b) ∨ visitMember s (p / 8) ≠ some (p.val % 8)) :
    verificationDone p k s = s := by
  unfold verificationDone
  split
  next b verifies => exact if_neg (h.resolve_left fun other => other b verifies)
  next => rfl

/-- A verification block of the member visited that passes gives the verdict by its NMSE. -/
theorem verificationDone_judges {b : Nat} (verifies : (dpdOf s p).adapt = .verifying b) (visit : visitMember s (p / 8) = some (p.val % 8))
    (passes : blockCode s p (blockOf (dpdOf s p).cfg k) = 0) :
    ∃ u, verificationDone p k s = verdict p (blockNmse (blockOf (dpdOf s p).cfg k)) u ∧ dpdOf u p = dpdOf s p := by
  refine ⟨noteGain p (blockOf (dpdOf s p).cfg k) (s.modObs (p / 8) (fun x => { x with last := p.val % 8 })), ?_,
    dpdOf_congr (noteGain_dpd ..) p⟩
  unfold verificationDone
  rw [verifies]; dsimp only
  rw [obsVisit_visits visit, Nat.div_add_mod]
  unfold judgeBlock
  have same : dpdOf (s.modObs (p / 8) (fun x => { x with last := p.val % 8 })) p = dpdOf s p := rfl
  rw [same, verifies]
  exact if_neg (not_not_intro passes)

/-! ### Blocks that count (R191, R195) -/

/-- The state in which a block that passes is kept, its gain noted. -/
def blockKept (p : Nat) (k : ObsBlock) (s : State) : State :=
  (noteGain p k s).modDpdPath p (fun x => { x with lastNmse := blockNmse k, blocks := x.blocks ++ [k] })

theorem dpdOf_blockKept : dpdOf (blockKept p k s) p =
    { dpdOf s p with lastNmse := blockNmse k, blocks := (dpdOf s p).blocks ++ [k] } := by
  rw [blockKept, dpdOf_modDpdPath_same, dpdOf_congr (noteGain_dpd ..)]

theorem mem_enqueueSolve (p : Nat) (s : State) : p ∈ (enqueueSolve p s).dpd.queue := by
  simp [enqueueSolve]

/-- A block that passes is kept, and the path waits for the solver with the last one. -/
theorem judgeBlock_keeps_block (collects : (dpdOf s p).adapt = .collecting good bad) (passes : blockCode s p (blockOf (dpdOf s p).cfg k) = 0) :
    judgeBlock p k s = if blocksPerSolve (dpdOf s p).cfg ≤ good + 1 then
        enqueueSolve p ((blockKept p (blockOf (dpdOf s p).cfg k) s).modDpdPath p (fun x => { x with adapt := .queued }))
      else (blockKept p (blockOf (dpdOf s p).cfg k) s).modDpdPath p (fun x => { x with adapt := .collecting (good + 1) 0 }) := by
  have cfg := congrArg DpdPath.cfg (dpdOf_blockKept (s := s) (p := p) (k := blockOf (dpdOf s p).cfg k))
  unfold judgeBlock; dsimp only
  rw [collects]; dsimp only
  rw [if_neg (not_not_intro passes)]
  unfold blockKept at cfg ⊢
  rw [cfg]

theorem blockKept_regs (p : Nat) (k : ObsBlock) (s : State) : regsBut [Reg.RAD_GEXT p] s (blockKept p k s) := by
  intro a ha
  rw [blockKept, State.modDpdPath_reg, noteGain, State.reg_setReg_ne _ _ (by simpa using ha)]

/-- What a block that passes leaves of its path, and the registers and the parts that it leaves. -/
theorem judgeBlock_counts (collects : (dpdOf s p).adapt = .collecting good bad) (passes : blockCode s p (blockOf (dpdOf s p).cfg k) = 0) :
    (dpdOf (judgeBlock p k s) p).lastNmse = blockNmse (blockOf (dpdOf s p).cfg k) ∧
      (dpdOf (judgeBlock p k s) p).adapt =
        (if blocksPerSolve (dpdOf s p).cfg ≤ good + 1 then .queued else .collecting (good + 1) 0) ∧
      (blocksPerSolve (dpdOf s p).cfg ≤ good + 1 → p.val ∈ (judgeBlock p k s).dpd.queue) ∧
      regsBut [Reg.RAD_GEXT p] s (judgeBlock p k s) ∧ changedOnly [.dpd, .regs] s (judgeBlock p k s) := by
  have noted := blockKept_regs p (blockOf (dpdOf s p).cfg k) s
  have kept : Kept (fun q => decide (q ∈ [Part.dpd, .regs])) s (blockKept p (blockOf (dpdOf s p).cfg k) s) :=
    modDpdPath_keeps rfl (noteGain_keeps rfl (Kept.refl _ s))
  rw [judgeBlock_keeps_block collects passes]
  by_cases full : blocksPerSolve (dpdOf s p).cfg ≤ good + 1
  · have path (u : State) : dpdOf (enqueueSolve p u) p = dpdOf u p := rfl
    rw [if_pos full, if_pos full, path, dpdOf_modDpdPath_same, dpdOf_blockKept]
    refine ⟨rfl, rfl, fun _ => mem_enqueueSolve .., fun a ha => ?_, (enqueueSolve_keeps rfl (modDpdPath_keeps rfl kept)).changedOnly⟩
    rw [enqueueSolve, State.modDpd_reg, State.modDpdPath_reg, noted a ha]
  · rw [if_neg full, if_neg full, dpdOf_modDpdPath_same, dpdOf_blockKept]
    refine ⟨rfl, rfl, fun reached => absurd reached full, fun a ha => ?_, (modDpdPath_keeps rfl kept).changedOnly⟩
    rw [State.modDpdPath_reg, noted a ha]

theorem obsVisit_nothing {o m : Nat} (h : visitMember s o ≠ some m) : obsVisit o m k s = s := if_neg h

/-! ### Paths that become due, and STALE (R194) -/

/-- A path whose last solve is two periods old shows STALE, with its interrupt, and nothing else changes. -/
theorem dpdStale_flags (enabled : dpdEnabled s p = true) (adapt : adaptOn s p = true)
    (late : (dpdOf s p).doneAt + 2 * dpdPeriod s p ≤ s.time.tb1) :
    (dpdStale p s).bit Reg.DPD_INT_STATUS 3 = true ∧ regsBut [Reg.DPD_STATUS p, Reg.DPD_INT_STATUS] s (dpdStale p s) ∧
      changedOnly [.regs] s (dpdStale p s) := by
  refine ⟨?_, fun a ha => ?_, (dpdStale_keeps rfl (Kept.refl _ s)).changedOnly⟩
  · rw [dpdStale, if_pos ⟨enabled, adapt, late⟩]
    exact State.bit_raise _ (present_dpdInt _) (by decide)
  · obtain ⟨status, int⟩ : a ≠ Reg.DPD_STATUS p ∧ a ≠ Reg.DPD_INT_STATUS := by simpa using ha
    rw [dpdStale, if_pos ⟨enabled, adapt, late⟩, State.raise_reg_ne _ int, State.setFld_reg_ne _ status]

end

/-! ### The solver (R194, R196) -/

section

variable {s : State}

theorem solveStart_nothing (h : s.dpd.solver.isSome ∨ s.dpd.queue = [] ∨ s.time.tb1 < s.dpd.rest) : solveStart s = s := by
  unfold solveStart
  split
  next free queue => exact if_pos (by simpa [free, queue] using h)
  next => rfl

/-- What the free solver, past its pause, changes with the path that it takes. -/
theorem solveStart_eq {p : Nat} {rest : List Nat} (free : s.dpd.solver = none) (queue : s.dpd.queue = p :: rest)
    (paused : s.dpd.rest ≤ s.time.tb1) : solveStart s =
      ((s.modDpd (fun d => { d with solver := some p, queue := rest })).setFld (Reg.DPD_STATUS p) 15 0
        (min 0xFFFF ((s.time.tb1 - (dpdOf s p).solveAt) / msTu))).modDpdPath p
          (fun x => { x with adapt := .solving, solveAt := s.time.tb1, dueFrom := s.time.tb1 }) := by
  unfold solveStart
  rw [free, queue]; dsimp only
  rw [if_neg (Nat.not_lt.mpr paused), State.setFld_time, State.modDpd_time]

/-- The solver has its path, and the others of the queue wait. -/
theorem solveStart_serves {p : Nat} {rest : List Nat} (free : s.dpd.solver = none) (queue : s.dpd.queue = p :: rest)
    (paused : s.dpd.rest ≤ s.time.tb1) :
    (solveStart s).dpd.solver = some p ∧ (solveStart s).dpd.queue = rest ∧ regsBut [Reg.DPD_STATUS p] s (solveStart s) ∧
      changedOnly [.dpd, .regs] s (solveStart s) := by
  have changed : changedOnly [.dpd, .regs] s (solveStart s) := (solveStart_keeps rfl rfl (Kept.refl _ s)).changedOnly
  rw [solveStart_eq free queue paused] at changed ⊢
  rw [State.modDpdPath_dpd, State.setFld_dpd]
  refine ⟨rfl, rfl, fun a ha => ?_, changed⟩
  have status : a ≠ Reg.DPD_STATUS p := by simpa using ha
  exact State.setFld_reg_ne (s.modDpd _) status

/-- The state in which the solution of a path is checked: the solver is free, and the time of the solve is kept. -/
def solveEnded (p took : Nat) (s : State) : State :=
  ((s.modDpd (fun d => { d with
      solver := none, solves := s.time.tb1 :: d.solves.filter (fun t => decide (s.time.tb1 < t + secTu))
      rest := restAfter s took })).setFld (Reg.DPD_STATUS p) 29 29 0).modDpdPath p (fun x => { x with doneAt := s.time.tb1 })

theorem solveEnded_dpd (p took : Nat) (s : State) : (solveEnded p took s).dpd = { s.dpd with
    solver := none, solves := s.time.tb1 :: s.dpd.solves.filter (fun t => decide (s.time.tb1 < t + secTu)), rest := restAfter s took
    paths := vmod s.dpd.paths p (fun x => { x with doneAt := s.time.tb1 }) } := by
  rw [solveEnded, State.modDpdPath_dpd, State.setFld_dpd]; rfl

variable {p : Fin 64} {took : Nat}

theorem solveDone_nothing (h : s.dpd.solver ≠ some p.val) : solveDone p took s = s := if_pos h

/-- A solution is rejected, or written with its swap requested. -/
theorem solveDone_cases (runs : s.dpd.solver = some p.val) :
    (∃ code, solveDone p took s = attemptReject p code (solveEnded p took s)) ∨
    ∃ page c, solveDone p took s =
      solverSwap p page ((writePage p page c (solveEnded p took s)).modDpdPath p (fun x => { x with adapt := .swapping })) := by
  unfold solveDone; dsimp only
  rw [if_neg (not_not_intro runs)]
  split
  · exact .inl ⟨_, rfl⟩
  · exact .inr ⟨_, _, rfl⟩

/-- The time of a solve that ends is the first of those kept. -/
theorem solveDone_time (runs : s.dpd.solver = some p.val) : (solveDone p took s).dpd.solves.head? = some s.time.tb1 := by
  rcases solveDone_cases (took := took) runs with ⟨code, rejected⟩ | ⟨page, c, passed⟩
  · rw [rejected, attemptReject_dpd, State.modDpdPath_dpd, solveEnded_dpd]; rfl
  · rw [passed, solverSwap_solves, State.modDpdPath_dpd, writePage, coefWrite, State.modDpd_dpd, solveEnded_dpd]; rfl

/-- An ill-conditioned solution is rejected. -/
theorem solveDone_ill (runs : s.dpd.solver = some p.val) (ill : (solution s p).2.1 * 2 ^ 20 < (solution s p).2.2) :
    solveDone p took s = attemptReject p 8 (solveEnded p took s) := by
  have code (c : List Cplx) : solutionCode (decide ((solution s p).2.1 * 2 ^ 20 < (solution s p).2.2)) c = 8 := by
    rw [decide_eq_true ill]; rfl
  unfold solveDone; dsimp only
  rw [if_neg (not_not_intro runs), code]
  rfl

/-- A rejected solution leaves the path without an attempt, its banks and the coefficients as they are. -/
theorem solveRejected_leaves (code : Nat) :
    let t := attemptReject p code (solveEnded p took s)
    (dpdOf t p).adapt = .idle ∧ (dpdOf t p).a = (dpdOf s p).a ∧ (dpdOf t p).b = (dpdOf s p).b ∧ t.dpd.coef = s.dpd.coef := by
  have path : dpdOf (solveEnded p took s) p = { dpdOf s p with doneAt := s.time.tb1 } := by
    rw [dpdOf, solveEnded_dpd]; exact vget_vmod_same _ _ p.isLt
  dsimp only
  rw [dpdOf_congr (attemptReject_dpd ..), attemptReject_dpd, dpdOf_modDpdPath_same, path, State.modDpdPath_dpd, solveEnded_dpd]
  exact ⟨rfl, rfl, rfl, rfl⟩

end

/-- Settles O23: a period by its conditions, a block by whether its member is visited and its path collects, the solver by what is free and
waits, a solve by whether it runs and its solution is ill-conditioned, and a verification by how its NMSE compares. -/
theorem adaptation : Obligations.Adaptation := by
  unfold Obligations.Adaptation
  refine fun s => ⟨fun p => ⟨_, rfl, ?_⟩, fun o m k => ⟨_, rfl, obsVisit_nothing, fun good bad visit collects passes => ?_⟩,
    ⟨_, rfl, solveStart_nothing, fun p rest free queue paused => ?_⟩,
    fun p took => ⟨_, rfl, solveDone_nothing, fun runs => ⟨solveDone_frees took runs, solveDone_time runs⟩, fun runs ill => ?_⟩,
    fun p k => ⟨_, rfl, verificationDone_nothing, fun b verifies visit passes => ⟨verificationDone_idle verifies visit passes, ?_⟩⟩,
    fun p => ⟨_, rfl, ?_⟩⟩
  · split
    next due =>
      have changed : changedOnly [.dpd] s (pathDue p s) := (pathDue_keeps rfl (Kept.refl _ s)).changedOnly
      refine ⟨?_, changed⟩
      rw [pathDue, if_pos due, dpdOf_modDpdPath_same]
    next early => exact if_neg early
  · have hp : 8 * o.val + m.val < 64 := by omega
    have last := obsVisit_last visit collects passes
    obtain ⟨nmse, adapt, queue, regs, changed⟩ := judgeBlock_counts (s := s.modObs o (fun x => { x with last := m.val }))
      (p := ⟨8 * o.val + m.val, hp⟩) (k := k) collects passes
    have visited : changedOnly [.dpd, .regs] s (s.modObs o (fun x => { x with last := m.val })) := (modObs_keeps rfl (Kept.refl _ s)).changedOnly
    rw [obsVisit_visits visit] at last ⊢
    exact ⟨last, nmse, adapt, queue, regs, changedOnly_trans (List.Subset.refl _) (List.Subset.refl _) visited changed⟩
  · obtain ⟨solver, waits, regs, changed⟩ := solveStart_serves free queue paused
    exact ⟨solver, waits, fun hp => (solveStart_takes (p := ⟨p, hp⟩) free queue paused).2, regs, changed⟩
  · obtain ⟨idle, a, b, coef⟩ := solveRejected_leaves (s := s) (p := p) (took := took) 8
    obtain ⟨⟨result, code⟩, flag⟩ := attemptReject_shows p (code := 8) (by decide) (solveEnded p took s)
    rw [solveDone_ill runs ill]
    exact ⟨idle, a, b, coef, result, code, flag⟩
  · obtain ⟨u, judged, same⟩ := verificationDone_judges verifies visit passes
    rw [judged, ← same]
    split
    next worse =>
      obtain ⟨⟨result, code⟩, flag⟩ := verdict_reverts worse
      exact ⟨result, code, flag⟩
    next within => exact verdict_updates within
  · split
    next stale =>
      obtain ⟨enabled, adapt, late⟩ := stale
      exact ⟨dpdStale_shows enabled adapt late, dpdStale_flags enabled adapt late⟩
    next fresh => exact if_neg fresh

end Sys2Proof.Machine
end

section
/-!
SUPPORT. Feeder surveys: what DPD_SURVEY_STATUS shows of them, and which registers a refused, an accepted and an ended survey leave (R199 to
R201).
-/

namespace Sys2Proof.Machine

/-! ### What a survey shows (R199 to R201, Table 7-7) -/

/-- DPD_SURVEY_STATUS shows an outcome, a code and a path. -/
def ShowsSurvey (outcome code p : Nat) (s : State) : Prop :=
  s.fld Reg.DPD_SURVEY_STATUS 31 30 = outcome ∧ s.fld Reg.DPD_SURVEY_STATUS 23 16 = code ∧ s.fld Reg.DPD_SURVEY_STATUS 13 8 = p

theorem surveyStatus_shows {outcome code p : Nat} (ho : outcome < 4) (hc : code < 256) (hp : p < 64) (skipped : Nat) (s : State) :
    ShowsSurvey outcome code p (surveyStatus outcome code p skipped s) := by
  have steps : min 255 skipped < 256 := by omega
  unfold ShowsSurvey
  simp only [State.fld, surveyStatus, State.reg_setReg, if_true, fld, pk, List.foldl_cons, List.foldl_nil, BitVec.toNat_ofNat]
  omega

/-- An interrupt leaves what is shown of a survey. -/
theorem ShowsSurvey.raise {outcome code p : Nat} {s : State} (h : ShowsSurvey outcome code p s) (b : Nat) :
    ShowsSurvey outcome code p (s.raise Reg.DPD_INT_STATUS b) := by
  unfold ShowsSurvey State.fld
  rw [State.raise_reg_ne s (by decide)]
  exact h

theorem surveyCode_lt (s : State) (v : Survey) : surveyCode s v < 256 := by
  unfold surveyCode
  repeat' split
  all_goals decide

theorem surveyRefuse_flag (code p : Nat) (s : State) : (surveyRefuse code p s).bit Reg.DPD_INT_STATUS 6 = true :=
  State.bit_raise _ (present_dpdInt _) (by decide)

theorem surveyRefuse_shows {code p : Nat} (hc : code < 256) (hp : p < 64) (s : State) : ShowsSurvey 2 code p (surveyRefuse code p s) :=
  (surveyStatus_shows (by decide) hc hp 0 s).raise 6

theorem surveyRefuse_dpd (code p : Nat) (s : State) : (surveyRefuse code p s).dpd = s.dpd := by
  rw [surveyRefuse, State.raise_dpd, surveyStatus, State.setReg_dpd]

theorem surveyRefuse_regs (code p : Nat) (s : State) :
    regsBut [Reg.DPD_SURVEY_STATUS, Reg.DPD_INT_STATUS] s (surveyRefuse code p s) := by
  intro a ha
  obtain ⟨status, int⟩ : a ≠ Reg.DPD_SURVEY_STATUS ∧ a ≠ Reg.DPD_INT_STATUS := by simpa using ha
  rw [surveyRefuse, State.raise_reg_ne _ int, surveyStatus, State.reg_setReg_ne _ _ status]

/-! ### DPD_SURVEY_CTRL (R199) -/

section

variable {s : State} {w : Word}

theorem surveyGo_nothing (h : bitOf w 31 = false) : surveyGo w s = s := by
  simp [surveyGo, h]

theorem surveyGo_refused (go : bitOf w 31 = true) (h : surveyCode s (surveyOf s (fld w 5 0)) ≠ 0) :
    surveyGo w s = surveyRefuse (surveyCode s (surveyOf s (fld w 5 0))) (fld w 5 0) s := by
  unfold surveyGo
  rw [if_neg (not_not_intro go)]
  exact if_pos h

/-- A survey that is accepted: its request waits for the receiver, and it is the last of those in progress. -/
def surveyAsked (v : Survey) (s : State) : State :=
  (obsRequest (v.path / 8) 8 (.survey v.path) s).modDpd (fun d => { d with surveys := d.surveys ++ [v] })

theorem surveyGo_accepted (go : bitOf w 31 = true) (h : surveyCode s (surveyOf s (fld w 5 0)) = 0) :
    surveyGo w s = surveyStatus 3 0 (fld w 5 0) 0 (surveyAsked (surveyOf s (fld w 5 0)) s) := by
  unfold surveyGo
  rw [if_neg (not_not_intro go)]
  exact if_neg (not_not_intro h)

/-- A request for a receiver is the last of those that wait. -/
theorem obsRequest_wait (o : Fin 8) (id : Nat) (who : ObsHolder) (s : State) : (vget (obsRequest o id who s).dpd.obs o).wait =
    (vget s.dpd.obs o).wait ++ [{ id := id, epoch := s.fhp.epoch, who := who }] :=
  congrArg Obs.wait (vget_vmod_same _ _ o.isLt)

/-- An accepted survey asks for its receiver and is shown as one that runs. -/
theorem surveyGo_asks (go : bitOf w 31 = true) (h : surveyCode s (surveyOf s (fld w 5 0)) = 0) :
    (vget (surveyGo w s).dpd.obs (fld w 5 0 / 8)).wait = (vget s.dpd.obs (fld w 5 0 / 8)).wait ++
        [{ id := 8, epoch := s.fhp.epoch, who := .survey (fld w 5 0) }] ∧
      ShowsSurvey 3 0 (fld w 5 0) (surveyGo w s) ∧ regsBut [Reg.DPD_SURVEY_STATUS] s (surveyGo w s) := by
  have path : fld w 5 0 < 64 := fld_lt w 5 0
  rw [surveyGo_accepted go h]
  refine ⟨?_, surveyStatus_shows (by decide) (by decide) path 0 _, fun a ha => ?_⟩
  · rw [surveyStatus, State.setReg_dpd]
    exact obsRequest_wait ⟨fld w 5 0 / 8, by omega⟩ 8 (.survey (fld w 5 0)) s
  · rw [surveyStatus, State.reg_setReg_ne _ _ (by simpa using ha)]
    rfl

end

/-! ### Ends, abortions and grants (R190, R200, R201) -/

section

variable {s : State}

theorem surveyDone_nothing {o : Nat} (h : s.dpd.surveys.find? (fun v => v.path / 8 == o && v.granted) = none) (steps : List (Cplx × Cplx)) :
    surveyDone o steps s = s := by
  rw [surveyDone, h]

/-- A survey that ends shows that it is done. -/
theorem surveyDone_shows {o : Nat} {v : Survey} (h : s.dpd.surveys.find? (fun v => v.path / 8 == o && v.granted) = some v)
    (path : v.path < 64) (steps : List (Cplx × Cplx)) : ShowsSurvey 1 0 v.path (surveyDone o steps s) := by
  rw [surveyDone, h]
  exact (surveyStatus_shows (by decide) (by decide) path _ _).raise 5

theorem surveyAbort_nothing (h : s.dpd.surveys = []) : surveyAbort s = s := by
  rw [surveyAbort_eq, h]
  rfl

/-- The abortion of a single survey shows its code. -/
theorem surveyAbort_single {v : Survey} (h : s.dpd.surveys = [v]) (path : v.path < 64) : ShowsSurvey 2 6 v.path (surveyAbort s) := by
  rw [surveyAbort_eq, h]
  exact surveyRefuse_shows (by decide) path _

/-- A receiver that goes to nobody leaves the state. -/
theorem obsGrant_nobody {o : Nat} (h : (obsGrant o s).2 = none) : obsGrant o s = (s, none) := by
  unfold obsGrant at h ⊢
  dsimp only at h ⊢
  split
  next holder won => simp [holder, won] at h
  next => rfl

theorem obsHolderGrant_nobody {o : Nat} (h : (obsGrant o s).2 = none) : obsHolderGrant o s = s := by
  rw [obsHolderGrant, obsGrant_nobody h]

end

/-- Settles O24: GO by whether the register is served and by its code, an end by whether a granted survey is in progress, an abortion by the
surveys that are, and a grant by who wins the receiver. -/
theorem feederSurvey : Obligations.FeederSurvey := by
  unfold Obligations.FeederSurvey
  refine fun s => ⟨fun w => ⟨_, rfl, fun h => ?_, fun hs go => ?_⟩,
    fun o steps => ⟨_, rfl, fun absent => surveyDone_nothing absent steps, fun v found => ?_⟩,
    ⟨_, rfl, surveyAbort_nothing, surveyAbort_ends, fun v single path => ?_⟩,
    fun o => ⟨_, rfl, obsHolderGrant_nobody, fun v won first => obsHolderGrant_survey won first⟩⟩
  · refine State.hosted_nothing fun hs => surveyGo_nothing (h.resolve_left ?_)
    simp [hs]
  · rw [State.hosted_served hs]
    split
    next refused =>
      obtain ⟨outcome, code, -⟩ := surveyRefuse_shows (surveyCode_lt s _) (fld_lt w 5 0) s
      rw [surveyGo_refused go refused]
      exact ⟨surveyRefuse_dpd .., surveyRefuse_flag .., outcome, code, surveyRefuse_regs _ _ s,
        (surveyRefuse_keeps rfl (Kept.refl _ s)).changedOnly⟩
    next accepted =>
      obtain ⟨asks, ⟨outcome, -, path⟩, regs⟩ := surveyGo_asks go (not_not.mp accepted)
      exact ⟨surveyGo_joins go (not_not.mp accepted), asks, outcome, path, regs, (surveyGo_keeps rfl rfl (Kept.refl _ s)).changedOnly⟩
  · obtain ⟨surveys, flag⟩ := surveyDone_ends found steps
    exact ⟨surveys, flag, fun path => (surveyDone_shows found path steps).imp_right And.left⟩
  · exact (surveyAbort_single single path).imp_right And.left

end Sys2Proof.Machine
end

section
/-!
SUPPORT. Groups on command: what an accepted command and the end of a transition leave of a group, and the lines of a fold after a tick (R205,
R206, R215, R216).
-/

namespace Sys2Proof.Machine

/-! ### Transitions of a group (R205) -/

section

variable {g : Fin 8} {s : State}

/-- A group that enters a state keeps the transition that it is in, and what follows it. -/
theorem enterGroup_transition (g : Nat) (st : GState) (j : Nat) (s : State) :
    (grp (enterGroup g st s) j).trans = (grp s j).trans ∧ (grp (enterGroup g st s) j).then_ = (grp s j).then_ := by
  have entered (leaves : Bool) (u : State) (hu : u.rad.groups = s.rad.groups) :
      (grp (u.modGroup g (Group.entering st leaves u)) j).trans = (grp s j).trans ∧
        (grp (u.modGroup g (Group.entering st leaves u)) j).then_ = (grp s j).then_ := by
    rw [grp_modGroup, grp_congr hu, grp_congr hu]
    split
    next h => rw [h.1]; exact ⟨rfl, rfl⟩
    next => exact ⟨rfl, rfl⟩
  obtain ⟨trans, follows⟩ := entered (decide ((grp s g).state = .tx ∧ st ≠ .tx)) (txLeft g st s) (txLeft_groups g st s)
  rw [enterGroup_eq, grp_congr (congrArg Rad.groups (syncPState_rad _)), ← trans, ← follows]
  exact rxMoved_keeps (P := fun x y => y.trans = x.trans ∧ y.then_ = x.then_) (fun _ => ⟨rfl, rfl⟩) (fun _ _ => ⟨rfl, rfl⟩)
    (fun _ _ _ => ⟨rfl, rfl⟩) ..

theorem transitionDone_nothing (h : (grp s g).trans = none ∨ (grp s g).trans = some .tx) : transitionDone g s = s := by
  unfold transitionDone
  rcases h with h | h <;> rw [h]
  exact if_pos (.inl rfl)

/-- A transition to RX waits for the start of a burst that is prepared. -/
theorem transitionDone_waits {b : Burst} (h : b ∈ (grp s g).bursts) (trans : (grp s g).trans = some .rx) (prep : b.prep = true)
    (waits : b.started = false) : transitionDone g s = s := by
  have prepared : (grp s g).bursts.any (fun b => b.prep && !b.started) = true := List.any_eq_true.mpr ⟨b, h, by rw [prep, waits]; rfl⟩
  unfold transitionDone
  rw [trans]
  exact if_pos (.inr ⟨rfl, prepared⟩)

/-- A transition that ends, to anything but TX and to RX only without bursts, goes on to what follows it, with the bursts as they are. -/
theorem transitionDone_goesOn {st : GState} (trans : (grp s g).trans = some st) (tx : st ≠ .tx) (rx : st ≠ .rx ∨ (grp s g).bursts = []) :
    (grp (transitionDone g s) g).trans = (grp s g).then_ ∧ (grp (transitionDone g s) g).then_ = none ∧
      (grp (transitionDone g s) g).bursts = (grp s g).bursts := by
  have free : ¬ (st = .tx ∨ st = .rx ∧ (grp s g).bursts.any (fun b => b.prep && !b.started) = true) := by
    rcases rx with rx | rx <;> simp [tx, rx]
  unfold transitionDone
  rw [trans]; dsimp only
  rw [if_neg free, (enterGroup_transition ..).1, (enterGroup_transition ..).2, enterGroup_bursts, grp_modGroup_same g.isLt]
  exact ⟨rfl, rfl, rfl⟩

/-! ### Group commands (R206) -/

/-- A command names neither CAL nor TX. -/
theorem gstateOf_named {n : Nat} {st : GState} (h : gstateOf n = some st) : st ≠ .cal ∧ st ≠ .tx := by
  unfold gstateOf at h
  split at h <;> cases h <;> decide

/-- The return state that a transition sets first. -/
def returnTo (g : Nat) (st : GState) (s : State) : State :=
  s.modGroup g (fun y => { y with ret := if st = .cal ∨ st = .tx then y.ret else st })

theorem grp_returnTo {st : GState} (toCal : st ≠ .cal) (toTx : st ≠ .tx) : grp (returnTo g st s) g = { grp s g with ret := st } := by
  rw [returnTo, grp_modGroup_same g.isLt, if_neg (by simp [toCal, toTx])]

theorem goTo_there {st : GState} (h : (grp s g).state = st) :
    goTo g st s = (returnTo g st s).modGroup g (fun y => { y with trans := none, then_ := none }) := if_pos h

theorem goTo_fromOff {st : GState} (off : (grp s g).state = .off) (h : (grp s g).state ≠ st) :
    goTo g st s = leaveOff g st s.time.tb0 (returnTo g st s) :=
  (if_neg h).trans (if_pos off)

/-- A group in STANDBY or GUARD starts the transition itself. -/
theorem goTo_direct {st : GState} (off : (grp s g).state ≠ .off) (cal : (grp s g).state ≠ .cal) (rx : (grp s g).state ≠ .rx)
    (tx : (grp s g).state ≠ .tx) (toCal : st ≠ .cal) (h : (grp s g).state ≠ st) : goTo g st s = (returnTo g st s).modGroup g
      (fun y => { y with trans := some st, transAt := s.time.tb0 + transTu (grp s g).state st, then_ := none }) := by
  have stays : (grp (returnTo g st s) g).state = (grp s g).state := by rw [returnTo, grp_modGroup_same g.isLt]
  have rests : ¬ ((grp s g).state = .rx ∨ (grp s g).state = .tx) := by simp [rx, tx]
  have direct : ¬ throughStandby (grp s g).state st = true := by simp [throughStandby, toCal, cal]
  unfold goTo; dsimp only
  rw [if_neg h, if_neg off, if_neg rests, ← returnTo, stays, if_neg h, if_neg direct]

/-- The group that a command starts on its way: its return state is the command's, and its transition leads there, through STANDBY from OFF. -/
def Group.Starts (st : GState) (x y : Group) : Prop :=
  y.ret = st ∧ y.state = x.state ∧
    (if x.state = st then y.trans = none
     else if x.state = .off then y.trans = some .standby ∧ y.then_ = (if st = .standby then none else some st)
     else y.trans = some st ∧ y.then_ = none)

theorem goTo_starts {n : Nat} {st : GState} (named : gstateOf n = some st) (cal : (grp s g).calNow = false) (rx : (grp s g).state ≠ .rx)
    (tx : (grp s g).state ≠ .tx) : (grp s g).Starts st (grp (goTo g st s) g) := by
  obtain ⟨toCal, toTx⟩ := gstateOf_named named
  have outside : (grp s g).state ≠ .cal := fun e => by simp [Group.calNow, e] at cal
  have aimed := grp_returnTo (g := g) (s := s) toCal toTx
  unfold Group.Starts
  split
  next there =>
    rw [goTo_there there, grp_modGroup_same g.isLt, aimed]
    exact ⟨rfl, rfl, rfl⟩
  next away =>
    split
    next off =>
      rw [goTo_fromOff off away, leaveOff, grp_modGroup_same g.isLt, aimed]
      exact ⟨rfl, rfl, rfl, rfl⟩
    next on =>
      rw [goTo_direct on outside rx tx toCal away, grp_modGroup_same g.isLt, aimed]
      exact ⟨rfl, rfl, rfl, rfl⟩

/-- A command to a group without bursts, outside CAL, acts at once. -/
theorem groupCommand_acts (st : GState) (bursts : (grp s g).bursts = []) (cal : (grp s g).calNow = false) : groupCommand g st s = goTo g st s := by
  have discarded : (if st = .off then burstsOut g 0x25 (fun b => !b.started && !b.prep) s else s) = s := by
    rw [burstsOut, bursts]
    exact ite_self s
  unfold groupCommand; dsimp only
  rw [discarded, if_neg (by simp [bursts]), if_neg (by simp [cal])]

end

section

variable {s : State} {w : Word}

theorem groupCmdWrite_nothing (h : bitOf w 31 = false) : groupCmdWrite w s = s := if_pos (by simp [h])

theorem groupCmdWrite_refused (go : bitOf w 31 = true) (h : groupCmdCode s (fld w 18 16) (fld w 2 0) ≠ 0) : groupCmdWrite w s =
    s.setReg Reg.RAD_GROUP_RESULT (pk [(30, 2), (16, groupCmdCode s (fld w 18 16) (fld w 2 0))]) := by
  unfold groupCmdWrite
  rw [if_neg (not_not_intro go)]; dsimp only
  rw [cmdState, if_pos h, groupResult, if_neg h]

/-- On a bellwether with joined devices an accepted command waits for their votes. -/
theorem groupCmdWrite_votes (go : bitOf w 31 = true) (h : groupCmdCode s (fld w 18 16) (fld w 2 0) = 0) (leads : isBellwether s = true)
    (joined : joinedOthers s ≠ []) : groupCmdWrite w s = s.modCas (fun c => { c with vote := some (.group w, joinedOthers s) }) := by
  unfold groupCmdWrite
  rw [if_neg (not_not_intro go)]; dsimp only
  rw [cmdState, if_neg (not_not_intro h), if_pos ⟨leads, by simpa using joined⟩]

theorem groupCmdWrite_commands {st : GState} (go : bitOf w 31 = true) (h : groupCmdCode s (fld w 18 16) (fld w 2 0) = 0)
    (alone : isBellwether s = false) (named : gstateOf (fld w 2 0) = some st) :
    groupCmdWrite w s = groupResult 0 (groupCommand (fld w 18 16) st s) := by
  unfold groupCmdWrite
  rw [if_neg (not_not_intro go)]; dsimp only
  rw [cmdState, if_neg (not_not_intro h), if_neg (by simp [alone]), named]

/-- An accepted command starts its group on the way to the state it names. -/
theorem groupCmdWrite_starts {st : GState} (go : bitOf w 31 = true) (h : groupCmdCode s (fld w 18 16) (fld w 2 0) = 0)
    (alone : isBellwether s = false) (named : gstateOf (fld w 2 0) = some st) (bursts : (grp s (fld w 18 16)).bursts = [])
    (cal : (grp s (fld w 18 16)).calNow = false) (rx : (grp s (fld w 18 16)).state ≠ .rx) (tx : (grp s (fld w 18 16)).state ≠ .tx) :
    (grp s (fld w 18 16)).Starts st (grp (groupCmdWrite w s) (fld w 18 16)) := by
  rw [groupCmdWrite_commands go h alone named, groupResult, grp_congr (congrArg Rad.groups (State.setReg_rad ..)),
    groupCommand_acts (g := ⟨fld w 18 16, fld_lt w 18 16⟩) st bursts cal]
  exact goTo_starts (g := ⟨fld w 18 16, fld_lt w 18 16⟩) named cal rx tx

end

/-! ### Lines of a fold (R215, R216) -/

/-- PA_EN and LNA_EN of a fold are not both active. -/
def LinesApart (s : State) (f : Nat) : Prop := ¬ (nbit (vget s.rad.lineOn f) 1 = true ∧ nbit (vget s.rad.lineOn f) 2 = true)

/-- The lines of a fold whose line group is TDD are apart. -/
def TddApart (f : Nat) (s : State) : Prop := ∀ g, lineGroup s f = some g → (grp s g).fdd = false → LinesApart s f

theorem nbit_eq_testBit (n i : Nat) : nbit n i = n.testBit i := by
  rw [nbit, Nat.testBit_eq_decide_div_mod_eq]; rfl

theorem bitsOf_lt (n : Nat) (f : Nat → Bool) : bitsOf n f < 2 ^ n := by
  induction n with
  | zero => exact Nat.one_pos
  | succ n ih =>
    unfold bitsOf
    split <;> omega

theorem nbit_bitsOf {n i : Nat} (h : i < n) (f : Nat → Bool) : nbit (bitsOf n f) i = f i := by
  induction n with
  | zero => cases h
  | succ n ih =>
    rw [nbit_eq_testBit, bitsOf, Nat.add_comm]
    rcases Nat.lt_succ_iff_lt_or_eq.mp h with below | rfl
    · rw [← ih below, nbit_eq_testBit]
      split
      · exact Nat.testBit_two_pow_add_gt below _
      · rw [Nat.zero_add]
    · have clear := Nat.testBit_lt_two_pow (bitsOf_lt i f)
      split
      next set => rw [Nat.testBit_two_pow_add_eq, clear, set]; rfl
      next unset => rw [Nat.zero_add, clear]; simpa using unset

theorem lineTickFold_wrp (f : Nat) (s : State) : (lineTickFold f s).wrp = s.wrp :=
  (lineTickFold_keeps (L := fun p => decide (p ∈ [Part.regs, .rad])) rfl rfl (Kept.refl _ s)).wrp rfl

/-- What a tick changes of the lines: those of one fold, and that one of them is held. -/
theorem lineTickFold_rad (f : Nat) (s : State) : ∃ on held, (lineTickFold f s).rad =
    { s.rad with lineOn := vset s.rad.lineOn f on, lineHeld := vset s.rad.lineHeld f held } := by
  have clipped (c : Prop) [Decidable c] : (if c then (s.addLo Reg.RAD_LINE_CLIP 1).raise Reg.RAD_INT_STATUS 9 else s).rad = s.rad :=
    ite_rad ((State.raise_rad ..).trans (State.addLo_rad ..))
  unfold lineTickFold; dsimp only
  split
  · exact ⟨_, _, rfl⟩
  · rw [State.modRad_rad, clipped]
    exact ⟨_, _, rfl⟩

theorem lineTickFold_groups (f : Nat) (s : State) : (lineTickFold f s).rad.groups = s.rad.groups := by
  obtain ⟨on, held, rad⟩ := lineTickFold_rad f s
  rw [rad]

/-- PA_EN at a tick: in a TDD group it does not assert while LNA_EN is active. -/
def paNext (s : State) (g f : Nat) : Bool :=
  lineWants s g f 1 .tx &&
    !(!(grp s g).fdd && lineWants s g f 1 .tx && !nbit (vget s.rad.lineOn f) 1 && nbit (vget s.rad.lineOn f) 2)

/-- LNA_EN at a tick: in a TDD group it does not assert while PA_EN is active or asserts, and ends as PA_EN goes on. -/
def lnaNext (s : State) (g f : Nat) : Bool :=
  lineWants s g f 2 .rx &&
    !(!(grp s g).fdd && lineWants s g f 2 .rx && !nbit (vget s.rad.lineOn f) 2 && (nbit (vget s.rad.lineOn f) 1 || paNext s g f)) &&
    !(!(grp s g).fdd && nbit (vget s.rad.lineOn f) 2 && paNext s g f)

theorem lineTickFold_lines {f : Fin 8} {g : Nat} {s : State} (group : lineGroup s f = some g) :
    nbit (vget (lineTickFold f s).rad.lineOn f) 1 = paNext s g f ∧ nbit (vget (lineTickFold f s).rad.lineOn f) 2 = lnaNext s g f := by
  have shown (u : State) (on : Nat) (held : Bool) :
      vget (u.modRad (fun r => { r with lineOn := vset r.lineOn f on, lineHeld := vset r.lineHeld f held })).rad.lineOn f = on :=
    (vget_vset ..).trans (if_pos ⟨rfl, f.isLt⟩)
  unfold lineTickFold
  rw [group]; dsimp only
  rw [shown, nbit_bitsOf (by decide), nbit_bitsOf (by decide)]
  exact ⟨rfl, rfl⟩

/-- In a TDD group LNA_EN is not active in a tick in which PA_EN is, whether it was active before or not. -/
theorem lnaNext_of_paNext {s : State} {g f : Nat} (tdd : (grp s g).fdd = false) (pa : paNext s g f = true) : lnaNext s g f = false := by
  rw [lnaNext, tdd, pa]
  cases nbit (vget s.rad.lineOn f) 2 <;> simp

theorem lineTickFold_apart (f : Fin 8) (s : State) : TddApart f (lineTickFold f s) := by
  intro g group tdd
  rw [lineGroup_congr (lineTickFold_wrp f s)] at group
  rw [grp_congr (lineTickFold_groups f s)] at tdd
  obtain ⟨pa, lna⟩ := lineTickFold_lines group
  rw [LinesApart, pa, lna]
  rintro ⟨on, both⟩
  simp [lnaNext_of_paNext tdd on] at both

theorem lineTickFold_keeps_apart (f : Fin 8) (j : Nat) (s : State) (h : TddApart f s) : TddApart f (lineTickFold j s) := by
  by_cases same : f.val = j
  · rw [← same]; exact lineTickFold_apart f s
  · obtain ⟨on, held, rad⟩ := lineTickFold_rad j s
    have lines : vget (lineTickFold j s).rad.lineOn f = vget s.rad.lineOn f := by
      rw [rad]; exact vget_vmod_ne _ _ same
    intro g group tdd
    rw [lineGroup_congr (lineTickFold_wrp j s)] at group
    rw [grp_congr (lineTickFold_groups j s)] at tdd
    rw [LinesApart, lines]
    exact h g group tdd

theorem lineTick_apart (f : Fin 8) (s : State) : TddApart f (lineTick s) :=
  forAll_reaches (List.mem_range.mpr f.isLt) (lineTickFold_apart f) (lineTickFold_keeps_apart f) s

theorem TddApart.of_same {f : Nat} {s t : State} (h : TddApart f s) (wrp : t.wrp = s.wrp) (groups : t.rad.groups = s.rad.groups)
    (lines : t.rad.lineOn = s.rad.lineOn) : TddApart f t := by
  intro g group tdd
  rw [lineGroup_congr wrp] at group
  rw [grp_congr groups] at tdd
  rw [LinesApart, lines]
  exact h g group tdd

/-- The drover's bookings change no more of the RAD block than the intervals booked. -/
theorem calBookTick_rad (s : State) : ∃ book, (calBookTick s).rad = { s.rad with calBook := book } := by
  unfold calBookTick
  split
  · exact ⟨_, rfl⟩
  · split
    next r _ =>
      have asked : (calBook (s.time.tb0 + 4 * usTu) r s).rad = (calBookAt (s.time.tb0 + 4 * usTu) r s).rad :=
        (forAll_keeps (L := fun p => decide (p = .dpd)) (fun _ _ k => obsRequest_keeps rfl k) (Kept.refl _ _)).rad rfl
      exact ⟨_, asked⟩
    · exact ⟨_, rfl⟩

/-- What a tick does from its lines on. -/
theorem tick_lines {s : State} (on : s.pwr.off = false) (stage : s.pwr.stage ≠ 0) : tick s =
    flushTick (mixTick (flushChanged (calBookTick (rotTick (lineTick (wiresTick (timeTick s))))))) := by
  have kept : (timeTick s).pwr = s.pwr := (timeTick_keeps (L := fun p => decide (p = .time)) rfl (Kept.refl _ s)).pwr rfl
  have runs : (timeTick s).pwr.stage ≠ 0 := by rw [kept]; exact stage
  unfold tick
  rw [if_neg (by simp [on])]
  exact if_neg runs

/-- After a tick the lines of every fold whose line group is TDD are apart. -/
theorem tick_apart {s : State} (on : s.pwr.off = false) (stage : s.pwr.stage ≠ 0) (f : Fin 8) : TddApart f (tick s) := by
  have rotated (u : State) : Kept (fun p => decide (p = .syn)) u (rotTick u) := rotTick_keeps rfl (Kept.refl _ u)
  have booked (u : State) : (calBookTick u).wrp = u.wrp :=
    (calBookTick_keeps (L := fun p => decide (p ∈ [Part.nvs, .dpd, .rad])) rfl rfl rfl (Kept.refl _ u)).wrp rfl
  have flushed (u : State) : Kept (fun p => decide (p ∈ [Part.regs, .nvs, .paths, .fhp])) u (flushTick (mixTick (flushChanged u))) :=
    flushTick_keeps rfl (mixTick_keeps rfl rfl (flushChanged_keeps rfl rfl (Kept.refl _ u)))
  have lines := lineTick_apart f (wiresTick (timeTick s))
  rw [tick_lines on stage]
  generalize lineTick (wiresTick (timeTick s)) = u at lines ⊢
  obtain ⟨book, rad⟩ := calBookTick_rad (rotTick u)
  have turned := lines.of_same ((rotated u).wrp rfl) (congrArg Rad.groups ((rotated u).rad rfl)) (congrArg Rad.lineOn ((rotated u).rad rfl))
  have later := turned.of_same (t := calBookTick (rotTick u)) (booked _) (by rw [rad]) (by rw [rad])
  exact later.of_same ((flushed _).wrp rfl) (congrArg Rad.groups ((flushed _).rad rfl)) (congrArg Rad.lineOn ((flushed _).rad rfl))

/-- A setting of a line is stored in its fields, and no other register changes. -/
theorem lineCfgWrite_stores (f n : Nat) (w : Word) (s : State) : (lineCfgWrite f n w s).reg (Reg.RAD_LINE_CFG f n) = w &&& 0x73FF03FF ∧
    regsBut [Reg.RAD_LINE_CFG f n] s (lineCfgWrite f n w s) :=
  ⟨(State.reg_setReg ..).trans (if_pos rfl), fun _ ha => State.reg_setReg_ne s _ (by simpa using ha)⟩

/-- Settles O25: a command by its GO bit, its code and whether it waits for votes, a transition by where it leads, and the lines after a tick by
the interlock of each fold. -/
theorem radioGroups : Obligations.RadioGroups := by
  unfold Obligations.RadioGroups
  refine fun s => ⟨fun w => ⟨_, rfl, fun h => ?_, fun hs go refused => ?_, fun hs go accepted =>
      ⟨fun leads joined => ?_, fun alone => ⟨?_, fun st named bursts cal rx tx => ?_⟩⟩⟩,
    fun g => ⟨_, rfl, transitionDone_nothing, fun b hb trans prep waits => transitionDone_waits hb trans prep waits,
      fun st trans tx rx => ⟨transitionDone_enters trans tx rx, transitionDone_goesOn trans tx rx⟩⟩,
    ⟨_, rfl, fun hs => State.hosted_not_served hs _, fun hs => ?_⟩,
    fun f n w => ⟨_, rfl, fun hs => State.hosted_not_served hs _, fun hs => ?_⟩,
    fun empty on stage => ⟨tick s, by rw [step, empty], fun f => tick_apart on stage f⟩⟩
  · exact State.hosted_nothing fun hs => groupCmdWrite_nothing (h.resolve_left (by simp [hs]))
  · rw [State.hosted_served hs]
    exact groupCmdWrite_refused go refused
  · rw [State.hosted_served hs, groupCmdWrite_votes go accepted leads joined]
    exact ⟨rfl, (modCas_keeps rfl (Kept.refl _ s)).changedOnly⟩
  · rw [State.hosted_served hs]
    exact groupCmdWrite_accepts go accepted alone
  · rw [State.hosted_served hs]
    exact groupCmdWrite_starts go accepted alone named bursts cal rx tx
  · rw [State.hosted_served hs]
    exact ⟨rfl, (modRad_keeps rfl (Kept.refl _ s)).changedOnly⟩
  · rw [State.hosted_served hs]
    obtain ⟨stored, others⟩ := lineCfgWrite_stores f n w s
    exact ⟨stored, others, (lineCfgWrite_keeps rfl (Kept.refl _ s)).changedOnly⟩

end Sys2Proof.Machine
end

section
/-!
SUPPORT. Bursts: what a refused and an accepted request of the host leave, and what the start of a burst leaves of its group (R208, R209, R211,
R212).
-/

namespace Sys2Proof.Machine

theorem present_radInt (o : Order) : absentReg o Reg.RAD_INT_STATUS = false := by cases o <;> rfl

/-! ### Requests of the host (R208, R209) -/

section

variable {s : State} {w : Word}

theorem burstCtrlWrite_nothing (h : bitOf w 31 = false) : burstCtrlWrite w s = s := if_pos (by simp [h])

/-- The state in which the host's burst is refused: the code is shown, with its interrupt. -/
def burstShown (code : Nat) (s : State) : State :=
  (s.setReg Reg.RAD_BURST_RESULT (pk [(30, 2), (16, code)])).raise Reg.RAD_INT_STATUS 1

theorem burstCtrlWrite_refused (go : bitOf w 31 = true) (h : hostBurstCode s w ≠ 0) : burstCtrlWrite w s =
    burstRefused s (fld w 18 16) (burstAsked s) (s.fld Reg.RAD_BURST_LEN 22 0) (hostBurstCode s w) (burstShown (hostBurstCode s w) s) := by
  unfold burstCtrlWrite
  rw [if_neg (not_not_intro go)]; dsimp only
  split
  next accepted _ => exact absurd accepted h
  next => rfl

/-- What a refusal counts beside its report leaves the report shown. -/
theorem burstRefused_shown (u : State) (g start ticks code : Nat) (s : State) :
    (burstRefused u g start ticks code s).reg Reg.RAD_BURST_RESULT = s.reg Reg.RAD_BURST_RESULT ∧
      (s.bit Reg.RAD_INT_STATUS 1 = true → (burstRefused u g start ticks code s).bit Reg.RAD_INT_STATUS 1 = true) := by
  have duty (c : Prop) [Decidable c] : (if c then dutyHit s else s).reg Reg.RAD_BURST_RESULT = s.reg Reg.RAD_BURST_RESULT ∧
      (s.bit Reg.RAD_INT_STATUS 1 = true → (if c then dutyHit s else s).bit Reg.RAD_INT_STATUS 1 = true) := by
    split
    · exact ⟨State.raise_reg_ne _ (by decide), fun flag => State.bit_raise_of_bit _ (by decide) flag⟩
    · exact ⟨rfl, id⟩
  unfold burstRefused; dsimp only
  split
  · obtain ⟨result, flag⟩ :=
      duty (code = 0x0E ∧ u.rad.pasture.isSome ∧ ¬ groupOutOfRange u g ∧ ¬ dutyOk u start (start + ticks * tickTu))
    exact ⟨(State.addHi_reg_ne _ (by decide)).trans result,
      fun h => (congrArg (bitOf · 1) (State.addHi_reg_ne _ (by decide))).trans (flag h)⟩
  · exact duty _

/-- A refused request of the host shows its code, with the interrupt, and leaves the groups. -/
theorem burstCtrlWrite_refuses (go : bitOf w 31 = true) (h : hostBurstCode s w ≠ 0) :
    (burstCtrlWrite w s).reg Reg.RAD_BURST_RESULT = pk [(30, 2), (16, hostBurstCode s w)] ∧
      (burstCtrlWrite w s).bit Reg.RAD_INT_STATUS 1 = true ∧ (burstCtrlWrite w s).rad.groups = s.rad.groups := by
  have shown : (burstShown (hostBurstCode s w) s).reg Reg.RAD_BURST_RESULT = pk [(30, 2), (16, hostBurstCode s w)] :=
    (State.raise_reg_ne _ (by decide)).trans ((State.reg_setReg ..).trans (if_pos rfl))
  have groups : (burstShown (hostBurstCode s w) s).rad = s.rad := (State.raise_rad ..).trans (State.setReg_rad ..)
  obtain ⟨result, flag⟩ := burstRefused_shown s (fld w 18 16) (burstAsked s) (s.fld Reg.RAD_BURST_LEN 22 0) (hostBurstCode s w)
    (burstShown (hostBurstCode s w) s)
  rw [burstCtrlWrite_refused go h]
  exact ⟨result.trans shown, flag (State.bit_raise _ (present_radInt _) (by decide)), by rw [(burstRefused_leaves ..).2, groups]⟩

theorem burstCtrlWrite_enters {st : GState} (go : bitOf w 31 = true) (h : hostBurstCode s w = 0) (named : gstateOf (fld w 29 27) = some st) :
    burstCtrlWrite w s = relayBurst ((s.rad.hostTag + 1) % 65536) (fld w 18 16) (bitOf w 30) (burstAsked s) (s.fld Reg.RAD_BURST_LEN 22 0)
      (fld w 29 27) (burstAccept .host 0 ((s.rad.hostTag + 1) % 65536) (fld w 18 16) (bitOf w 30) (burstAsked s)
        (s.fld Reg.RAD_BURST_LEN 22 0) st (burstTagged s)) := by
  unfold burstCtrlWrite
  rw [if_neg (not_not_intro go)]; dsimp only
  split
  next st' _ named' => cases named.symm.trans named'; rfl
  next other => exact absurd named (other st h)

/-- An accepted burst joins its group as the last of its bursts, as it was asked for. -/
theorem burstAccept_joins (who : Requester) (port tag : Nat) (g : Fin 8) (tx : Bool) (start ticks : Nat) (ret : GState) (s : State) :
    ∃ b, (grp (burstAccept who port tag g tx start ticks ret s) g).bursts.getLast? = some b ∧ b.who = who ∧ b.tag = tag ∧ b.tx = tx ∧
      b.start = start ∧ b.len = ticks * tickTu ∧ b.ret = ret ∧ b.started = false := by
  unfold burstAccept; dsimp only
  rw [grp_modGroup_same g.isLt, List.getLast?_concat]
  exact ⟨_, rfl, rfl, rfl, rfl, rfl, rfl, rfl, rfl⟩

/-- An accepted request of the host is the last burst of its group. -/
theorem burstCtrlWrite_joins (go : bitOf w 31 = true) (h : hostBurstCode s w = 0) :
    ∃ b, (grp (burstCtrlWrite w s) (fld w 18 16)).bursts.getLast? = some b ∧ b.who = .host ∧ b.tag = (s.rad.hostTag + 1) % 65536 ∧
      b.tx = bitOf w 30 ∧ b.start = burstAsked s ∧ b.len = s.fld Reg.RAD_BURST_LEN 22 0 * tickTu ∧ some b.ret = gstateOf (fld w 29 27) ∧
      b.started = false := by
  obtain ⟨st, named⟩ := gstateOf_of_burstCode h
  obtain ⟨b, last, who, tag, tx, start, len, ret, waits⟩ := burstAccept_joins .host 0 ((s.rad.hostTag + 1) % 65536)
    ⟨fld w 18 16, fld_lt w 18 16⟩ (bitOf w 30) (burstAsked s) (s.fld Reg.RAD_BURST_LEN 22 0) st (burstTagged s)
  rw [burstCtrlWrite_enters go h named, grp, (relayBurst_leaves ..).1]
  exact ⟨b, last, who, tag, tx, start, len, by rw [ret, named], waits⟩

end

/-! ### Starts (R211, R212) -/

section

variable {g : Fin 8} {b : Burst} {s : State}

theorem burstPrepare_nothing (h : firstBurst (·.start) ((grp s g).bursts.filter (fun b => !b.prep && !b.started)) = none) :
    burstPrepare g s = s := by
  rw [burstPrepare, h]

theorem burstStart_nothing (h : firstBurst (·.start) ((grp s g).bursts.filter (fun b => !b.started)) = none) : burstStart g s = s := by
  rw [burstStart, h]

theorem burstEnd_nothing (h : firstBurst burstStop ((grp s g).bursts.filter (·.started)) = none) : burstEnd g s = s := by
  rw [burstEnd, h]

/-- A burst that a rule drops at its start leaves its group. -/
theorem burstStart_drops (h : firstBurst (·.start) ((grp s g).bursts.filter (fun b => !b.started)) = some b) (drops : startCode s g b ≠ 0) :
    (grp (burstStart g s) g).bursts = (grp s g).bursts.filter (fun x => x.seq != b.seq) := by
  have limited (c : Prop) [Decidable c] : (if c then dutyHit s else s).rad.groups = s.rad.groups := by
    split
    · rw [dutyHit, State.raise_rad]; rfl
    · rfl
  have forced (c : Prop) [Decidable c] (u : State) : (if c then u.raise Reg.SYN_INT_STATUS 5 else u).rad = u.rad := ite_rad (State.raise_rad ..)
  unfold burstStart
  rw [h]; dsimp only
  rw [if_pos drops, burstOut_bursts, grp_congr ((congrArg Rad.groups (forced ..)).trans (limited _))]

/-- The state in which a burst runs, and its group is in no transition. -/
def burstRunning (g : Nat) (b : Burst) (s : State) : State :=
  (modBurst g b.seq (fun b => { b with prep := true, started := true }) s).modGroup g (fun x => { x with trans := none, then_ := none })

/-- The state that the group of a burst enters at its start. -/
def burstEntered (g : Nat) (b : Burst) (s : State) : State :=
  if b.tx then enterGroup g .tx (burstRunning g b s)
  else if (grp (burstRunning g b s) g).fdd ∧ (grp (burstRunning g b s) g).state = .tx then burstRunning g b s
  else enterGroup g .rx (burstRunning g b s)

theorem burstStart_groups (h : firstBurst (·.start) ((grp s g).bursts.filter (fun b => !b.started)) = some b) (starts : startCode s g b = 0) :
    (burstStart g s).rad.groups = (burstEntered g b s).rad.groups := by
  unfold burstStart
  rw [h]; dsimp only
  rw [if_neg (not_not_intro starts), flockStarted_rad, burstReport_groups]
  rfl

theorem grp_burstRunning (g : Fin 8) (b : Burst) (s : State) : grp (burstRunning g b s) g = { grp s g with
    trans := none, then_ := none
    bursts := (grp s g).bursts.map (fun x => if x.seq = b.seq then { x with prep := true, started := true } else x) } := by
  rw [burstRunning, grp_modGroup_same g.isLt, modBurst, grp_modGroup_same g.isLt]

/-- What a group keeps as it enters a state, it keeps at the start of a burst. -/
theorem burstEntered_induct {P : State → Prop} (run : P (burstRunning g b s)) (enter : ∀ st, P (enterGroup g st (burstRunning g b s))) :
    P (burstEntered g b s) := by
  unfold burstEntered
  split
  · exact enter _
  · split
    · exact run
    · exact enter _

/-- A burst that starts runs in its group, which is in no transition. -/
theorem burstStart_runs (h : firstBurst (·.start) ((grp s g).bursts.filter (fun b => !b.started)) = some b) (starts : startCode s g b = 0) :
    (grp (burstStart g s) g).bursts =
        (grp s g).bursts.map (fun x => if x.seq = b.seq then { x with prep := true, started := true } else x) ∧
      (grp (burstStart g s) g).trans = none := by
  rw [grp_congr (burstStart_groups h starts)]
  have running := grp_burstRunning g b s
  refine burstEntered_induct (P := fun t => (grp t g).bursts = _ ∧ (grp t g).trans = none) ?_ fun st => ?_
  · rw [running]; exact ⟨rfl, rfl⟩
  · rw [enterGroup_bursts, (enterGroup_transition ..).1, running]; exact ⟨rfl, rfl⟩

/-- An RX burst that starts puts its TDD group into RX. -/
theorem burstStart_rx (h : firstBurst (·.start) ((grp s g).bursts.filter (fun b => !b.started)) = some b) (starts : startCode s g b = 0)
    (rx : b.tx = false) (tdd : (grp s g).fdd = false) : (grp (burstStart g s) g).state = .rx := by
  have alone : ¬ ((grp (burstRunning g b s) g).fdd = true ∧ (grp (burstRunning g b s) g).state = .tx) := by
    simp [grp_burstRunning, tdd]
  rw [grp_congr (burstStart_groups h starts), burstEntered, if_neg (by simp [rx]), if_neg alone]
  exact enterGroup_state g.isLt ..

end

/-- Settles O26: a request by its GO bit and its code, and preparation, start and end by whether there is a burst for them and, at a start,
whether a rule drops it. -/
theorem bursts : Obligations.Bursts := by
  unfold Obligations.Bursts
  refine fun s => ⟨fun w => ⟨_, rfl, fun h => ?_, fun hs go => ?_⟩,
    fun g => ⟨_, rfl, burstPrepare_nothing, fun b first => burstPrepare_prepares first⟩,
    fun g => ⟨_, rfl, burstStart_nothing, fun b first => ?_⟩,
    fun g => ⟨_, rfl, burstEnd_nothing, fun b first => burstEnd_leaves first⟩⟩
  · exact State.hosted_nothing fun hs => burstCtrlWrite_nothing (h.resolve_left (by simp [hs]))
  · rw [State.hosted_served hs]
    exact ⟨burstCtrlWrite_refuses go, fun accepted => ⟨(burstCtrlWrite_accepts go accepted).1, burstCtrlWrite_joins go accepted⟩⟩
  · split
    next drops => exact burstStart_drops first drops
    next starts =>
      have starts := not_not.mp starts
      obtain ⟨runs, trans⟩ := burstStart_runs first starts
      exact ⟨runs, trans, burstStart_tx first starts, burstStart_rx first starts⟩

end Sys2Proof.Machine
end

section
/-!
SUPPORT. RFFE buses: immediate and timed commands that are refused and accepted, timed frames that are due, and frames that end (R218, R219).
-/

namespace Sys2Proof.Machine

/-! ### Frames on a bus (R218, R219) -/

section

variable {f : Fin 8} {s : State}

theorem rffeOutcome_accepted (f : Nat) (s : State) : (rffeOutcome f 0 s).fld (Reg.RAD_RFFE_STATUS f) 30 29 = 1 := by
  rw [rffeOutcome, State.fld, State.reg_setReg, if_pos rfl, fld_put_above _ _ (by decide) (by decide) (by decide),
    fld_put _ _ (by decide) (by decide)]
  rfl

/-- A frame that is sent leaves the outcome that the host reads. -/
theorem rffeSend_outcome (f : Nat) (c : RffeCmd) (s : State) :
    (rffeSend f c s).fld (Reg.RAD_RFFE_STATUS f) 30 29 = s.fld (Reg.RAD_RFFE_STATUS f) 30 29 := by
  unfold rffeSend; dsimp only
  rw [modRffe, State.modRad_fld]
  split
  · exact State.fld_setFld_above _ _ _ (by decide) (by decide) (by decide)
  · rfl

theorem rffeNext_outcome (f : Nat) (s : State) :
    (rffeNext f s).fld (Reg.RAD_RFFE_STATUS f) 30 29 = s.fld (Reg.RAD_RFFE_STATUS f) 30 29 := by
  unfold rffeNext; dsimp only
  split
  · rfl
  · split
    · exact rffeSend_outcome ..
    · split
      · rfl
      · exact rffeSend_outcome ..
    · rfl

/-- A bus that runs a frame takes no other. -/
theorem rffeNext_waits (runs : (rffe s f).run.isSome) : rffeNext f s = s := if_pos runs

/-- A bus with nothing that waits takes no frame. -/
theorem rffeNext_rests (queue : (rffe s f).queue = []) (imm : (rffe s f).imm = []) : rffeNext f s = s := by
  unfold rffeNext; dsimp only
  split
  · rfl
  · rw [queue, imm]
    cases (rffe s f).late <;> rfl

/-- An idle bus without timed frames takes the first immediate command that waits. -/
theorem rffeNext_takes {c : RffeCmd} {rest : List RffeCmd} (idle : (rffe s f).run = none) (queue : (rffe s f).queue = [])
    (imm : (rffe s f).imm = c :: rest) : rffeNext f s = rffeSend f c (modRffe f (fun b => { b with imm := rest }) s) := by
  have free : ¬ rffeOverlaps s f c.cmd = true := by simp [rffeOverlaps, queue]
  unfold rffeNext; dsimp only
  rw [idle, if_neg (by decide), queue, imm]
  cases (rffe s f).late <;> exact if_neg free

end

/-! ### Immediate commands (R219) -/

section

variable {f : Fin 8} {w : Word} {s : State}

theorem rffeImmediate_nothing (h : bitOf w 31 = false) : rffeImmediate f w s = s := if_pos (by simp [h])

theorem rffeImmediate_badType (go : bitOf w 31 = true) (type : rffeBadType w = true) : rffeImmediate f w s = rffeOutcome f 2 s :=
  (if_neg (not_not_intro go)).trans (if_pos type)

theorem rffeImmediate_off (go : bitOf w 31 = true) (type : rffeBadType w = false) (off : s.bit (Reg.RAD_RFFE_CFG f) 31 = false) :
    rffeImmediate f w s = rffeOutcome f 4 s :=
  (if_neg (not_not_intro go)).trans ((if_neg (by simp [type])).trans (if_pos (by simp [off])))

/-- The immediate command that the host gives, with its write bytes. -/
def rffeGiven (s : State) (f : Nat) (w : Word) (air : Option Nat) : RffeCmd := { cmd := w, wdata := s.reg (Reg.RAD_RFFE_WDATA f), air := air }

/-- The state in which an accepted immediate command waits. -/
def rffeWaiting (f : Nat) (w : Word) (s : State) : State :=
  modRffe f (fun b => { b with imm := b.imm ++ [rffeGiven s f w none] }) (rffeOutcome f 0 s)

theorem rffe_rffeWaiting (f : Fin 8) (w : Word) (s : State) :
    rffe (rffeWaiting f w s) f = { rffe s f with imm := (rffe s f).imm ++ [rffeGiven s f w none] } := by
  rw [rffeWaiting, rffe_modRffe, rffe_congr (rffeOutcome_rad ..)]

theorem rffeImmediate_accepted (go : bitOf w 31 = true) (type : rffeBadType w = false) (on : s.bit (Reg.RAD_RFFE_CFG f) 31 = true) :
    rffeImmediate f w s = rffeNext f (rffeWaiting f w s) :=
  (if_neg (not_not_intro go)).trans ((if_neg (by simp [type])).trans (if_neg (not_not_intro on)))

theorem rffeImmediate_shows (go : bitOf w 31 = true) (type : rffeBadType w = false) (on : s.bit (Reg.RAD_RFFE_CFG f) 31 = true) :
    (rffeImmediate f w s).fld (Reg.RAD_RFFE_STATUS f) 30 29 = 1 := by
  rw [rffeImmediate_accepted go type on, rffeNext_outcome, rffeWaiting, modRffe, State.modRad_fld]
  exact rffeOutcome_accepted ..

/-- An idle bus with nothing that waits takes the command. -/
theorem rffeImmediate_sends (go : bitOf w 31 = true) (type : rffeBadType w = false) (on : s.bit (Reg.RAD_RFFE_CFG f) 31 = true)
    (idle : (rffe s f).run = none) (queue : (rffe s f).queue = []) (imm : (rffe s f).imm = []) :
    rffe (rffeImmediate f w s) f = { rffe s f with run := some (rffeGiven s f w none) } := by
  have waits := rffe_rffeWaiting f w s
  rw [rffeImmediate_accepted go type on,
    rffeNext_takes (rest := []) (by rw [waits]; exact idle) (by rw [waits]; exact queue) (by rw [waits, imm]; rfl), rffeSend_runs,
    rffe_modRffe, waits, ← imm]

/-- A bus that runs a frame goes on with it. -/
theorem rffeImmediate_runs (go : bitOf w 31 = true) (type : rffeBadType w = false) (on : s.bit (Reg.RAD_RFFE_CFG f) 31 = true)
    (runs : (rffe s f).run.isSome) : rffe (rffeImmediate f w s) f = rffe (rffeWaiting f w s) f := by
  rw [rffeImmediate_accepted go type on, rffeNext_waits (by rw [rffe_rffeWaiting]; exact runs)]

end

/-! ### Timed commands (R219) -/

theorem mem_insertBy {α : Type} (le : α → α → Bool) (x : α) (l : List α) : x ∈ insertBy le x l := by
  induction l with
  | nil => exact List.mem_singleton_self x
  | cons y l ih =>
    unfold insertBy
    split
    · exact List.mem_cons_of_mem y ih
    · exact List.mem_cons_self

section

variable {f : Fin 8} {w : Word} {s : State}

theorem rffeTimed_nothing (h : bitOf w 31 = false) : rffeTimed f w s = s := if_pos (by simp [h])

theorem rffeTimed_refused (go : bitOf w 31 = true) (h : rffeTimedCode s f w ≠ 0) : rffeTimed f w s = rffeOutcome f (rffeTimedCode s f w) s :=
  (if_neg (not_not_intro go)).trans (if_pos h)

/-- An accepted timed command joins the queue. -/
def rffeQueued (f : Nat) (w : Word) (s : State) : State :=
  modRffe f (fun b => { b with
      queue := insertBy (fun a b => decide (a.air.getD 0 ≤ b.air.getD 0)) (rffeGiven s f w (some (rffeAsked s f))) b.queue })
    (rffeOutcome f 0 s)

theorem rffeTimed_enters (go : bitOf w 31 = true) (h : rffeTimedCode s f w = 0) : rffeTimed f w s = rffeQueued f w s := by
  have entered : rffeTimed f w s = modRffe f (fun b => { b with
      queue := insertBy (fun a b => decide (a.air.getD 0 ≤ b.air.getD 0))
        (rffeGiven (rffeOutcome f (rffeTimedCode s f w) s) f w (some (rffeAsked s f))) b.queue }) (rffeOutcome f (rffeTimedCode s f w) s) :=
    (if_neg (not_not_intro go)).trans (if_neg (not_not_intro h))
  have wdata : Reg.RAD_RFFE_WDATA f ≠ Reg.RAD_RFFE_STATUS f := by unfold Reg.RAD_RFFE_WDATA Reg.RAD_RFFE_STATUS; omega
  rw [entered, h, rffeQueued, rffeGiven, rffeGiven, rffeOutcome, State.reg_setReg_ne _ _ wdata]

theorem rffeQueued_queues (f : Fin 8) (w : Word) (s : State) :
    (rffeQueued f w s).fld (Reg.RAD_RFFE_STATUS f) 30 29 = 1 ∧ (rffe (rffeQueued f w s) f).run = (rffe s f).run ∧
      (rffe (rffeQueued f w s) f).queue.length = (rffe s f).queue.length + 1 ∧
      rffeGiven s f w (some (rffeAsked s f)) ∈ (rffe (rffeQueued f w s) f).queue := by
  refine ⟨?_, ?_⟩
  · rw [rffeQueued, modRffe, State.modRad_fld]
    exact rffeOutcome_accepted ..
  · rw [rffeQueued, rffe_modRffe, rffe_congr (rffeOutcome_rad ..)]
    exact ⟨rfl, insertBy_length .., mem_insertBy ..⟩

end

/-! ### Timed frames that are due, and frames that end (R218, R219) -/

section

variable {f : Fin 8} {s : State}

theorem rffeDue_nothing (h : (rffe s f).queue = []) : rffeDue f s = s := by
  unfold rffeDue; dsimp only
  rw [h]

/-- A frame that is sent when it is due, or after it, is late no longer. -/
theorem rffeDue_clears {c : RffeCmd} {rest : List RffeCmd} (queue : (rffe s f).queue = c :: rest) (idle : (rffe s f).run = none) :
    (rffe (rffeDue f s) f).late = false := by
  unfold rffeDue; dsimp only
  rw [queue]; dsimp only
  rw [idle, if_pos (by rfl), rffeSend_runs, rffe_modRffe]

/-- A frame that waits and is late already is not marked again. -/
theorem rffeDue_waits (runs : (rffe s f).run.isSome) (late : (rffe s f).late = true) : rffeDue f s = s := by
  unfold rffeDue; dsimp only
  split
  · rfl
  · rw [if_neg (by simpa [Option.isSome_iff_ne_none] using runs), if_pos late]

theorem rffeDue_late {c : RffeCmd} {rest : List RffeCmd} (queue : (rffe s f).queue = c :: rest) (runs : (rffe s f).run.isSome)
    (late : (rffe s f).late = false) : rffeDue f s =
      ((modRffe f (fun b => { b with late := true }) s).addHi (Reg.RAD_RFFE_COUNT f) 1).raise Reg.RAD_INT_STATUS 10 := by
  unfold rffeDue; dsimp only
  rw [queue]; dsimp only
  rw [if_neg (by simpa [Option.isSome_iff_ne_none] using runs), if_neg (by simp [late])]

/-- A frame that is due behind another is marked late, counted and reported. -/
theorem rffeDue_marks {c : RffeCmd} {rest : List RffeCmd} (queue : (rffe s f).queue = c :: rest) (runs : (rffe s f).run.isSome)
    (late : (rffe s f).late = false) : (rffe (rffeDue f s) f).late = true ∧ (rffe (rffeDue f s) f).queue = c :: rest ∧
      (rffeDue f s).bit Reg.RAD_INT_STATUS 10 = true ∧
      (rffeDue f s).fld (Reg.RAD_RFFE_COUNT f) 31 16 = satAdd 0xFFFF (s.fld (Reg.RAD_RFFE_COUNT f) 31 16) 1 := by
  have other : Reg.RAD_RFFE_COUNT f ≠ Reg.RAD_INT_STATUS := by unfold Reg.RAD_RFFE_COUNT Reg.RAD_INT_STATUS; omega
  rw [rffeDue_late queue runs late, rffe_congr ((State.raise_rad ..).trans (State.addHi_rad ..)), rffe_modRffe]
  refine ⟨rfl, queue, State.bit_raise _ (present_radInt _) (by decide), ?_⟩
  rw [State.fld, State.raise_reg_ne _ other]
  exact State.fld_addHi ..

theorem rffeDone_nothing {data : Word} {parity : Bool} (h : (rffe s f).run = none) : rffeDone f data parity s = s := by
  rw [rffeDone, h]

/-- What a frame that ends leaves in the registers: a read's bytes, or its parity error. -/
def rffeRead (f : Nat) (c : RffeCmd) (data : Word) (parity : Bool) (s : State) : State :=
  if ¬ rffeIsRead c.cmd then s
  else if parity then (s.addLo (Reg.RAD_RFFE_COUNT f) 1).raise Reg.RAD_INT_STATUS 11
  else (s.setReg (Reg.RAD_RFFE_RDATA f) (BitVec.ofNat 32 (data.toNat % 2 ^ (8 * rffeCount c.cmd)))).setFld (Reg.RAD_RFFE_STATUS f) 0 0 1

theorem rffeRead_rad (f : Nat) (c : RffeCmd) (data : Word) (parity : Bool) (s : State) : (rffeRead f c data parity s).rad = s.rad := by
  unfold rffeRead
  split
  · rfl
  · split
    · rw [State.raise_rad, State.addLo_rad]
    · rw [State.setFld_rad, State.setReg_rad]

/-- The end of a frame with none that waits. -/
theorem rffeDone_rests {c : RffeCmd} {data : Word} {parity : Bool} (run : (rffe s f).run = some c) (queue : (rffe s f).queue = [])
    (imm : (rffe s f).imm = []) : rffeDone f data parity s = rffeRead f c data parity (modRffe f (fun b => { b with run := none }) s) := by
  have ended : rffe (rffeRead f c data parity (modRffe f (fun b => { b with run := none }) s)) f = { rffe s f with run := none } := by
    rw [rffe_congr (rffeRead_rad ..), rffe_modRffe]
  have stays := rffeNext_rests (s := rffeRead f c data parity (modRffe f (fun b => { b with run := none }) s)) (f := f)
    (by rw [ended]; exact queue) (by rw [ended]; exact imm)
  rw [rffeDone, run]
  exact stays

/-- A read without a parity error gives its bytes. -/
theorem rffeRead_gives (f : Nat) {c : RffeCmd} (data : Word) (s : State) (read : rffeIsRead c.cmd = true) :
    (rffeRead f c data false s).reg (Reg.RAD_RFFE_RDATA f) = BitVec.ofNat 32 (data.toNat % 2 ^ (8 * rffeCount c.cmd)) ∧
      (rffeRead f c data false s).fld (Reg.RAD_RFFE_STATUS f) 0 0 = 1 := by
  have other : Reg.RAD_RFFE_RDATA f ≠ Reg.RAD_RFFE_STATUS f := by unfold Reg.RAD_RFFE_RDATA Reg.RAD_RFFE_STATUS; omega
  rw [rffeRead, if_neg (not_not_intro read), if_neg Bool.false_ne_true]
  refine ⟨?_, State.fld_setFld _ _ _ (by decide) (by decide)⟩
  rw [State.setFld_reg_ne _ other, State.reg_setReg, if_pos rfl]

theorem rffeRead_reports (f : Nat) {c : RffeCmd} (data : Word) (s : State) (read : rffeIsRead c.cmd = true) :
    (rffeRead f c data true s).bit Reg.RAD_INT_STATUS 11 = true := by
  rw [rffeRead, if_neg (not_not_intro read), if_pos rfl]
  exact State.bit_raise _ (present_radInt _) (by decide)

end

/-- Settles O27: a command by its GO bit and by what refuses it, a frame that is due by what the bus runs, and the end of one by what it
read. -/
theorem rffeBuses : Obligations.RffeBuses := by
  unfold Obligations.RffeBuses
  refine fun s f => ⟨fun w => ⟨_, rfl, fun h => ?_, fun hs go => ?_⟩, fun w => ⟨_, rfl, fun h => ?_, fun hs go => ?_⟩,
    ⟨_, rfl, rffeDue_nothing, fun c rest queue => ⟨fun idle => ?_, rffeDue_waits, rffeDue_marks queue⟩⟩,
    fun data parity => ⟨_, rfl, rffeDone_nothing, fun c run queue imm => ⟨?_, fun read good => ?_, fun read bad => ?_⟩⟩⟩
  · exact State.hosted_nothing fun hs => rffeImmediate_nothing (h.resolve_left (by simp [hs]))
  · rw [State.hosted_served hs]
    refine ⟨rffeImmediate_badType go, rffeImmediate_off go,
      fun type on => ⟨rffeImmediate_shows go type on, fun idle queue imm => ?_, fun runs => ?_⟩⟩
    · rw [rffeImmediate_sends go type on idle queue imm]
      exact ⟨rfl, imm, queue⟩
    · rw [rffeImmediate_runs go type on runs, rffe_rffeWaiting]
      exact ⟨rfl, rfl⟩
  · exact State.hosted_nothing fun hs => rffeTimed_nothing (h.resolve_left (by simp [hs]))
  · rw [State.hosted_served hs]
    simp only [← Bool.not_eq_true]
    refine ⟨rffeTimed_refused go, fun accepted => ?_⟩
    rw [rffeTimed_enters go accepted]
    exact rffeQueued_queues f w s
  · obtain ⟨run, rests⟩ := rffeDue_sends queue idle
    exact ⟨run, rests, rffeDue_clears queue idle⟩
  · exact rffeDone_idles data parity (by rw [run]; rfl) queue imm
  · rw [rffeDone_rests run queue imm, good]
    exact rffeRead_gives f data _ read
  · rw [rffeDone_rests run queue imm, bad]
    exact rffeRead_reports f data _ read

end Sys2Proof.Machine
end

section
/-!
SUPPORT. The licence: what each word of the record and each attempt to write it leave of its staging buffer, and the power limits as they fall
(R222, R225, R227, R443).
-/

namespace Sys2Proof.Machine

/-! ### Staging (R443) -/

section

variable {s : State}

/-- A word is staged behind those before it. -/
theorem pastData_stages_last (room : s.nvs.pastStage.words.length < 75) (w : Word) :
    (pastData w s).nvs = { s.nvs with pastStage := { s.nvs.pastStage with words := s.nvs.pastStage.words ++ [w] } } ∧
      changedOnly [.nvs] s (pastData w s) := by
  have staged : pastData w s = s.modNvs (fun v => { v with pastStage := v.pastStage.push 75 w }) := if_neg (Nat.not_le.mpr room)
  rw [staged]
  refine ⟨?_, (modNvs_keeps rfl id (Kept.refl _ s)).changedOnly⟩
  rw [State.modNvs_nvs, Staging.push_room room]

/-- A word for the full buffer is remembered as an overflow. -/
theorem pastData_overflows (full : 75 ≤ s.nvs.pastStage.words.length) (w : Word) :
    (pastData w s).nvs = { s.nvs with pastStage := { s.nvs.pastStage with overflow := true } } := by
  have refused : pastData w s = (s.modNvs (fun v => { v with pastStage := v.pastStage.push 75 w })).refusedWrite Reg.NVS_PAST_DATA :=
    if_pos full
  rw [refused, State.refusedWrite_nvs, State.modNvs_nvs, Staging.push_full full]

/-! ### WRITE (R222) -/

/-- What an attempt to write the record leaves before it draws a new challenge. -/
def pastTried (s : State) : State :=
  if pastCode s = 9 then pastStatus 2 9 s
  else if pastCode s ≠ 0 then pastEnd 2 (pastCode s) s
  else pastStatus 3 0 ((queueWrite { origin := .pastPort, base := sysBase 5, pitch := 0x800, type := 5, body := s.nvs.pastStage.bytes } s).modNvs
    (fun v => { v with pastBusy := true }))

theorem pastWrite_eq (s : State) : pastWrite s = pastDraw (pastTried s) := rfl

theorem pastTried_keeps (s : State) : Kept (fun p => decide (p ∈ [Part.regs, .nvs])) s (pastTried s) := by
  unfold pastTried
  split
  · exact pastStatus_keeps rfl (Kept.refl _ s)
  · split
    · exact pastEnd_keeps rfl rfl (Kept.refl _ s)
    · exact pastStatus_keeps rfl (modNvs_keeps rfl id (queueWrite_keeps rfl (Kept.refl _ s)))

/-- Every attempt draws a new challenge, and leaves the RAD block. -/
theorem pastWrite_draws (s : State) : (pastWrite s).nvs.pastNonce = (Config.challenge s.rnd).toNat ∧ (pastWrite s).rad = s.rad := by
  refine ⟨?_, (pastTried_keeps s).rad rfl⟩
  rw [pastWrite_eq, ← (pastTried_keeps s).rnd rfl]
  rfl

/-- A new challenge leaves the registers, the staging buffer and whether a write is in progress. -/
theorem pastDraw_leaves (s : State) (a : Nat) : (pastDraw s).reg a = s.reg a ∧ (pastDraw s).nvs.pastStage = s.nvs.pastStage ∧
    (pastDraw s).nvs.pastBusy = s.nvs.pastBusy := ⟨rfl, rfl, rfl⟩

theorem pastStatus_nvs (outcome code : Nat) (s : State) : (pastStatus outcome code s).nvs = s.nvs :=
  (pastStatus_keeps (L := fun p => decide (p = .regs)) rfl (Kept.refl _ s)).nvs rfl

/-- An attempt that ends is shown, with its interrupt. -/
theorem pastStatus_shows {outcome : Nat} (ends : outcome ≠ 3) (code : Nat) (s : State) :
    (pastStatus outcome code s).reg Reg.NVS_PAST_STATUS = pk [(30, outcome), (16, code)] ∧
      (pastStatus outcome code s).bit Reg.RAD_INT_STATUS 8 = true := by
  unfold pastStatus; dsimp only
  rw [if_neg ends, State.raise_reg_ne _ (by decide), State.reg_setReg, if_pos rfl]
  exact ⟨rfl, State.bit_raise _ (present_radInt _) (by decide)⟩

/-- Code 9 refuses an attempt during a write alone. -/
theorem pastBusy_of_pastCode (h : pastCode s = 9) : s.nvs.pastBusy = true := by
  by_contra free
  have other : pastCode s ≠ 9 := by
    unfold pastCode; dsimp only
    rw [if_neg free]
    repeat' split
    all_goals decide
  exact other h

/-- A refused attempt shows its code, with the interrupt, and empties the buffer unless a write is in progress. -/
theorem pastWrite_refuses (h : pastCode s ≠ 0) :
    (pastWrite s).reg Reg.NVS_PAST_STATUS = pk [(30, 2), (16, pastCode s)] ∧ (pastWrite s).bit Reg.RAD_INT_STATUS 8 = true ∧
      (pastWrite s).nvs.pastBusy = decide (pastCode s = 9) ∧
      (pastWrite s).nvs.pastStage = if pastCode s = 9 then s.nvs.pastStage else {} := by
  have ends : (2 : Nat) ≠ 3 := by decide
  rw [pastWrite_eq, State.bit, (pastDraw_leaves _ _).1, (pastDraw_leaves _ _).1, (pastDraw_leaves _ 0).2.1, (pastDraw_leaves _ 0).2.2, pastTried]
  split
  next busy =>
    obtain ⟨shown, flag⟩ := pastStatus_shows ends 9 s
    rw [pastStatus_nvs, pastBusy_of_pastCode busy, busy]
    exact ⟨shown, flag, rfl, rfl⟩
  next free =>
    obtain ⟨shown, flag⟩ := pastStatus_shows ends (pastCode s) (s.modNvs (fun v => { v with pastStage := {}, pastBusy := false }))
    rw [pastEnd, pastStatus_nvs, decide_eq_false free]
    exact ⟨shown, flag, rfl, rfl⟩

end

/-! ### Power limits (R225, R227) -/

theorem powerWindow_nothing {levels : List (Option Int)} {s : State} (h : s.rad.pasture = none) : powerWindow levels s = s := by
  rw [powerWindow, h]

/-- After a full quiet second the attenuation of a path falls by one step. -/
theorem attenRelax_path {p : Fin 64} {s : State} (quiet : 0 < (pathOf s p).licAtten ∧ (pathOf s p).licQuietSince + secTu ≤ s.time.tb1) :
    pathOf (attenRelax (some p.val) s) p = { pathOf s p with licAtten := (pathOf s p).licAtten - 1, licQuietSince := s.time.tb1 } ∧
      changedOnly [.paths] s (attenRelax (some p.val) s) := by
  have falls : attenRelax (some p.val) s = s.modPath p (fun x => { x with licAtten := x.licAtten - 1, licQuietSince := s.time.tb1 }) :=
    if_pos quiet
  rw [falls]
  exact ⟨pathOf_modPath_same p.isLt .., changedOnly_modPath ..⟩

/-- So does that of the aggregate. -/
theorem attenRelax_aggregate {s : State} (quiet : 0 < s.rad.aggAtten ∧ s.rad.aggQuietSince + secTu ≤ s.time.tb1) :
    (attenRelax none s).rad = { s.rad with aggAtten := s.rad.aggAtten - 1, aggQuietSince := s.time.tb1 } ∧
      changedOnly [.rad] s (attenRelax none s) := by
  have falls : attenRelax none s = s.modRad (fun r => { r with aggAtten := r.aggAtten - 1, aggQuietSince := s.time.tb1 }) := if_pos quiet
  rw [falls]
  exact ⟨rfl, (modRad_keeps rfl (Kept.refl _ s)).changedOnly⟩

/-- Settles O28: a word by the room for it, an attempt by its code, a window by whether there is a record, and a limit by its quiet second. -/
theorem licenceEnforcement : Obligations.LicenceEnforcement := by
  unfold Obligations.LicenceEnforcement
  refine fun s => ⟨fun w => ⟨_, rfl, fun hs => State.hosted_not_served hs _, fun hs room => ?_, fun hs full => ?_⟩,
    ⟨_, rfl, fun hs => State.hosted_not_served hs _, fun hs => ?_⟩,
    ⟨_, rfl, fun hs => State.hosted_not_served hs _, fun hs => ?_⟩,
    fun levels => ⟨_, rfl, powerWindow_nothing, fun r p x record live => powerWindow_est record live⟩,
    fun p => ⟨_, rfl, ?_⟩, ⟨_, rfl, ?_⟩⟩
  · rw [State.hosted_served hs]
    exact pastData_stages_last room w
  · rw [State.hosted_served hs]
    exact pastData_overflows full w
  · rw [State.hosted_served hs]
    exact ⟨rfl, (pastClear_keeps rfl (Kept.refl _ s)).changedOnly⟩
  · rw [State.hosted_served hs]
    obtain ⟨nonce, rad⟩ := pastWrite_draws s
    refine ⟨nonce, fun refused => ?_, fun accepted => ?_⟩
    · obtain ⟨shown, flag, busy, stage⟩ := pastWrite_refuses refused
      exact ⟨shown, flag, busy, rad, fun free => stage.trans (if_neg free), fun writing => stage.trans (if_pos writing)⟩
    · obtain ⟨shown, busy⟩ := pastWrite_begins accepted
      exact ⟨shown, busy, rad⟩
  · split
    next quiet => exact attenRelax_path quiet
    next loud => exact if_neg loud
  · split
    next quiet => exact attenRelax_aggregate quiet
    next loud => exact if_neg loud

end Sys2Proof.Machine
end

section
/-!
SUPPORT. Ports, lanes and reserves of the LNE block by number; what a port keeps when it leaves L0, when bring-up begins and when a lane
fails (R239, R248 to R254).
-/

namespace Sys2Proof.Machine

/-! ### Ports, lanes and reserves by number -/

theorem present_lneInt (o : Order) : absentReg o Reg.LNE_INT_STATUS = false := by cases o <;> rfl

section

variable {s t : State}

theorem port_congr (h : t.lne.ports = s.lne.ports) (q : Nat) : port t q = port s q := by rw [port, port, h]

theorem lane_congr (h : t.lne.lanes = s.lne.lanes) (n : Nat) : lane t n = lane s n := by rw [lane, lane, h]

theorem reserveLane_congr (h : t.lne.reserves = s.lne.reserves) (i : Nat) : reserveLane t i = reserveLane s i := by
  rw [reserveLane, reserveLane, h]

theorem port_modPort (q : Nat) (f : Port → Port) (s : State) (j : Nat) :
    port (s.modPort q f) j = if j = q ∧ q < 5 then f (port s q) else port s j := vget_vmod ..

theorem port_modPort_same {q : Nat} (h : q < 5) (f : Port → Port) (s : State) : port (s.modPort q f) q = f (port s q) :=
  vget_vmod_same _ _ h

theorem lane_modLane (n : Nat) (f : Lane → Lane) (s : State) (m : Nat) :
    lane (s.modLane n f) m = if m = n ∧ n < 29 then f (lane s n) else lane s m := vget_vmod ..

theorem lane_modLane_same {n : Nat} (h : n < 29) (f : Lane → Lane) (s : State) : lane (s.modLane n f) n = f (lane s n) :=
  vget_vmod_same _ _ h

theorem lane_modLane_ne {n m : Nat} (h : m ≠ n) (f : Lane → Lane) (s : State) : lane (s.modLane n f) m = lane s m :=
  vget_vmod_ne _ _ h

theorem reserveLane_modReserve (i : Nat) (f : ReserveLane → ReserveLane) (s : State) (j : Nat) :
    reserveLane (modReserve i f s) j = if j = i ∧ i < 4 then f (reserveLane s i) else reserveLane s j := vget_vmod ..

/-- A change of a lane keeps what it keeps of every lane. -/
theorem lane_modLane_of {P : Lane → Lane → Prop} (refl : ∀ x, P x x) {f : Lane → Lane} {n : Nat} (hf : P (lane s n) (f (lane s n)))
    (m : Nat) : P (lane s m) (lane (s.modLane n f) m) := by
  rw [lane_modLane]
  split
  next h => rw [h.1]; exact hf
  next => exact refl _

theorem lane_laneTo (n : Nat) (st : LaneState) (s : State) (m : Nat) :
    lane (laneTo n st s) m = if m = n ∧ n < 29 then (lane s n).goes st else lane s m := lane_modLane ..

/-- Lanes 8, 9, 26 and 27 are the reserves, in order (R232). -/
theorem reserveOf_eq_some {n i : Nat} : reserveOf n = some i ↔ i < 4 ∧ reserveNumber i = n := by
  unfold reserveOf reserveNumber
  constructor
  · split_ifs <;> rintro ⟨⟩ <;> omega
  · rintro ⟨hi, rfl⟩
    interval_cases i <;> rfl

theorem reserveNumber_lt (i : Nat) : reserveNumber i < 29 := by unfold reserveNumber; split_ifs <;> omega

end

/-! ### Which lanes serve a port -/

/-- The same lanes serve the same positions, the same swaps run, and the same failures wait. -/
structure LanesKept (s t : State) : Prop where
  lanes : ∀ n, (lane t n).port = (lane s n).port ∧ (lane t n).pos = (lane s n).pos ∧
    ((lane t n).state = .retired ↔ (lane s n).state = .retired)
  swap : ∀ q, (port t q).swap = (port s q).swap
  waiting : t.lne.waiting = s.lne.waiting

section

variable {s t u : State}

theorem LanesKept.refl (s : State) : LanesKept s s := ⟨fun _ => ⟨rfl, rfl, .rfl⟩, fun _ => rfl, rfl⟩

theorem LanesKept.trans (h : LanesKept s t) (k : LanesKept t u) : LanesKept s u :=
  ⟨fun n => ⟨(k.lanes n).1.trans (h.lanes n).1, (k.lanes n).2.1.trans (h.lanes n).2.1, (k.lanes n).2.2.trans (h.lanes n).2.2⟩,
    fun q => (k.swap q).trans (h.swap q), k.waiting.trans h.waiting⟩

/-- The same lanes, ports and failures. -/
theorem LanesKept.of_rows (lanes : t.lne.lanes = s.lne.lanes) (ports : t.lne.ports = s.lne.ports) (waiting : t.lne.waiting = s.lne.waiting) :
    LanesKept s t :=
  ⟨fun n => by rw [lane_congr lanes]; exact ⟨rfl, rfl, .rfl⟩, fun q => by rw [port_congr ports], waiting⟩

theorem LanesKept.of_lne (h : t.lne = s.lne) : LanesKept s t :=
  .of_rows (congrArg Lne.lanes h) (congrArg Lne.ports h) (congrArg Lne.waiting h)

/-- A port changes without its swap. -/
theorem lanesKept_modPort {f : Port → Port} (q : Nat) (hf : ∀ p, (f p).swap = p.swap) (s : State) : LanesKept s (s.modPort q f) :=
  ⟨fun _ => ⟨rfl, rfl, .rfl⟩, fun j => by
    rw [port_modPort]
    split
    next h => rw [hf, h.1]
    next => rfl, rfl⟩

/-- A lane that is in service takes another state. -/
theorem lanesKept_laneTo {n : Nat} {st : LaneState} (h : (lane s n).state ≠ .retired) (hst : st ≠ .retired) :
    LanesKept s (laneTo n st s) :=
  ⟨lane_modLane_of (P := fun x y => y.port = x.port ∧ y.pos = x.pos ∧ (y.state = .retired ↔ x.state = .retired))
    (fun _ => ⟨rfl, rfl, .rfl⟩) ⟨rfl, rfl, by simp [Lane.goes, h, hst]⟩, fun _ => rfl, rfl⟩

theorem LanesKept.newcomer (h : LanesKept s t) (q : Nat) : (port t q).newcomer = (port s q).newcomer := by
  rw [Port.newcomer, Port.newcomer, h.swap]

theorem LanesKept.portLanes (h : LanesKept s t) (q : Nat) : portLanes t q = portLanes s q := by
  refine List.filter_congr fun n _ => ?_
  obtain ⟨hport, -, retired⟩ := h.lanes n
  rw [lanesOf, lanesOf, hport, h.newcomer]
  have same : ((lane t n).state != .retired) = ((lane s n).state != .retired) := by
    rw [Bool.eq_iff_iff, bne_iff_ne, bne_iff_ne, ne_eq, ne_eq, retired]
  rw [same]

theorem LanesKept.servingLane (h : LanesKept s t) (q i : Nat) : servingLane t q i = servingLane s q i := by
  have same : (fun n => (lane t n).pos == i) = (fun n => (lane s n).pos == i) := funext fun n => by rw [(h.lanes n).2.1]
  rw [Machine.servingLane, Machine.servingLane, h.portLanes, same]

theorem LanesKept.deadPositions (h : LanesKept s t) (q : Nat) : deadPositions t q = deadPositions s q :=
  List.filter_congr fun i _ => by rw [h.servingLane]

theorem LanesKept.plainBringUp (h : LanesKept s t) {q : Nat} (hp : plainBringUp s q) : plainBringUp t q :=
  ⟨(h.deadPositions q).trans hp.1, h.waiting.trans hp.2⟩

/-- A lane of a port is in service. -/
theorem mem_portLanes {q n : Nat} : n ∈ portLanes s q ↔
    n < 29 ∧ (lane s n).port = q ∧ (lane s n).state ≠ .retired ∧ n ≠ (port s q).newcomer := by
  simp [Machine.portLanes, lanesOf, and_assoc]

end

/-! ### A test that ends, and a port that leaves L0 (R245, R246, R254) -/

theorem lanesIn_ne_retired (st : PortState) : lanesIn st ≠ .retired := by cases st <;> decide

/-- A test ends on a lane that tests: its reserve may be free again, and the lane takes a state other than retired. -/
theorem abortTest_cases (n : Nat) (s : State) : abortTest n s = s ∨ (lane s n).state = .test ∧ ∃ (u : State) (st : LaneState),
    st ≠ .retired ∧ abortTest n s = laneTo n st u ∧
      (u.lne = s.lne ∨ ∃ i, reserveOf n = some i ∧ u.lne = (modReserve i (fun r => { r with state := 0 }) s).lne) := by
  unfold abortTest; dsimp only
  split
  next h =>
    refine .inr ⟨h, ?_⟩
    have noted : ((s.setFld (Reg.LNE_TEST_CTRL n) 31 31 0).raise Reg.LNE_INT_STATUS 7).lne = s.lne := by simp
    split
    next i hi =>
      split
      · exact ⟨_, _, by decide, rfl, .inr ⟨i, hi, by rw [modReserve, State.modLne_lne, noted]; rfl⟩⟩
      · exact ⟨_, _, lanesIn_ne_retired _, rfl, .inl noted⟩
    next => exact ⟨_, _, lanesIn_ne_retired _, rfl, .inl noted⟩
  next => exact .inl rfl

theorem abortTest_lanesKept (n : Nat) (s : State) : LanesKept s (abortTest n s) := by
  obtain h | ⟨test, u, st, hst, h, hu⟩ := abortTest_cases n s
  · rw [h]; exact .refl s
  · have kept : LanesKept s u := by
      obtain e | ⟨i, -, e⟩ := hu
      · exact .of_lne e
      · exact .of_rows (by rw [e]; rfl) (by rw [e]; rfl) (by rw [e]; rfl)
    rw [h]
    exact kept.trans (lanesKept_laneTo (by rw [ne_eq, (kept.lanes n).2.2, test]; decide) hst)

theorem abortTest_ports (n : Nat) (s : State) : (abortTest n s).lne.ports = s.lne.ports := by
  obtain h | ⟨-, u, st, -, h, hu⟩ := abortTest_cases n s
  · rw [h]
  · rw [h]
    have same (e : u.lne.ports = s.lne.ports) : (laneTo n st u).lne.ports = s.lne.ports := e
    obtain e | ⟨i, -, e⟩ := hu
    · exact same (by rw [e])
    · exact same (by rw [e]; rfl)

theorem endTests_lanesKept (q : Nat) (s : State) : LanesKept s (endTests q s) :=
  forAll_induct (P := LanesKept s) (fun n t h => h.trans (abortTest_lanesKept n t)) _ (.refl s)

theorem endTests_ports (q : Nat) (s : State) : (endTests q s).lne.ports = s.lne.ports :=
  forAll_induct (P := fun t => t.lne.ports = s.lne.ports) (fun n t h => (abortTest_ports n t).trans h) _ rfl

/-- Of the ports, one that leaves L0 has the start of its gap alone. -/
theorem leaveL0_port (q : Nat) (s : State) (j : Nat) : ∃ d, port (leaveL0 q s) j = { port s j with downAt := d } := by
  unfold leaveL0; dsimp only
  split
  · rw [port_congr (congrArg Lne.ports ((State.raise_lne ..).trans (State.addHi_lne ..))), port_modPort,
      port_congr (endTests_ports q s), port_congr (endTests_ports q s)]
    split
    next h => rw [h.1]; exact ⟨_, rfl⟩
    next => exact ⟨_, rfl⟩
  · exact ⟨_, rfl⟩

theorem leaveL0_lanesKept (q : Nat) (s : State) : LanesKept s (leaveL0 q s) := by
  unfold leaveL0; dsimp only
  split
  · exact ((endTests_lanesKept q s).trans (lanesKept_modPort q (by intro; rfl) _)).trans
      (.of_lne ((State.raise_lne ..).trans (State.addHi_lne ..)))
  · exact .refl s

/-! ### Bring-up of a port whose positions all have their lanes (R239) -/

theorem lanesTo_ports (q : Nat) (st : LaneState) (s : State) : (lanesTo q st s).lne.ports = s.lne.ports :=
  forAll_induct (f := fun n => laneTo n st) (P := fun t => t.lne.ports = s.lne.ports) (fun _ _ h => h) _ rfl

theorem lanesTo_lanesKept (q : Nat) {st : LaneState} (hst : st ≠ .retired) (s : State) : LanesKept s (lanesTo q st s) := by
  have key : ∀ l : List Nat, (∀ n ∈ l, (lane s n).state ≠ .retired) → ∀ t, LanesKept s t → LanesKept s (l.foldl (fun t n => laneTo n st t) t) := by
    intro l
    induction l with
    | nil => exact fun _ _ h => h
    | cons n l ih =>
      intro hl t h
      rw [List.forall_mem_cons] at hl
      exact ih hl.2 _ (h.trans (lanesKept_laneTo (by rw [ne_eq, (h.lanes n).2.2]; exact hl.1) hst))
  exact key _ (fun n hn => (mem_portLanes.mp hn).2.2.1) s (.refl s)

/-- Bring-up has put a port and its lanes in training. -/
def trainingBegun (q : Nat) (s : State) : State :=
  (lanesTo q .train (leaveL0 q s)).modPort q (fun p => { p with
    state := .training, step := 1, paused := false, trainAt := (leaveL0 q s).time.tb1, page := basePage (leaveL0 q s) q })

theorem bringUp_eq (q : Nat) (s : State) : bringUp q s = match deadPositions (trainingBegun q s) q with
    | pos :: _ => fillDead q pos (trainingBegun q s)
    | [] => runFailures (trainingBegun q s) := rfl

theorem trainingBegun_lanesKept (q : Nat) (s : State) : LanesKept s (trainingBegun q s) :=
  ((leaveL0_lanesKept q s).trans (lanesTo_lanesKept q (by decide) _)).trans (lanesKept_modPort q (by intro; rfl) _)

theorem runFailures_nothing {s : State} (h : s.lne.waiting = []) : runFailures s = s := by
  rw [runFailures, h]
  rfl

/-- Bring-up that needs no reserve leaves the port in training. -/
theorem bringUp_plain {s : State} {q : Nat} (plain : plainBringUp s q) : bringUp q s = trainingBegun q s := by
  obtain ⟨whole, none⟩ := (trainingBegun_lanesKept q s).plainBringUp plain
  rw [bringUp_eq, whole]
  exact runFailures_nothing none

/-- The port trains from step 1 on. -/
theorem trainingBegun_port {q : Nat} (hq : q < 5) (s : State) :
    let p := port (trainingBegun q s) q
    p.state = .training ∧ p.step = 1 ∧ p.paused = false ∧ p.trainAt = s.time.tb1 := by
  have time : (leaveL0 q s).time = s.time :=
    (leaveL0_keeps (L := fun p => decide (p ∈ [Part.regs, .lne])) rfl rfl (Kept.refl _ s)).time rfl
  rw [trainingBegun, port_modPort_same hq, time]
  exact ⟨rfl, rfl, rfl, rfl⟩

/-! ### A lane that has failed (R248 to R251) -/

theorem laneFrame_lne (q event position reserve : Nat) (s : State) : (laneFrame q event position reserve s).lne = s.lne :=
  (laneFrame_keeps (L := fun p => decide (p ∈ [Part.cas])) rfl (Kept.refl _ s)).lne rfl

theorem steer_ports (i code : Nat) (s : State) : (steer i code s).lne.ports = s.lne.ports := by
  unfold steer
  split <;> rfl

/-- The port of a swap that starts is in training, with the swap. -/
theorem startSwap_port {q : Nat} (hq : q < 5) (n pos i : Nat) (ask : Bool) (s : State) :
    (port (startSwap q n pos i ask s) q).state = .training ∧ (port (startSwap q n pos i ask s) q).swap = some (n, reserveNumber i) := by
  have last (v : State) (f : Nbr → Nbr) (c : Prop) [Decidable c] : (if c then v.modNbr (q - 2) f else v).lne.ports = v.lne.ports := by
    split <;> rfl
  have engaged (v : State) (f : Port → Port) (g : ReserveLane → ReserveLane) (h : Lane → Lane) :
      port ((modReserve i g (v.modPort q f)).modLane (reserveNumber i) h) q = f (port v q) := port_modPort_same hq f v
  unfold startSwap; dsimp only
  rw [port_congr (last ..), port_congr (steer_ports ..), engaged]
  exact ⟨rfl, rfl⟩

theorem event_ports (a b index : Nat) (detail : Word) (s : State) : (s.event a b index detail).lne.ports = s.lne.ports := by rw [State.event_lne]

/-- A port without a reserve is down, and its failed lane is looped back. -/
theorem portFault_port {q : Nat} (hq : q < 5) (n : Nat) (s : State) :
    (port (portFault q n s) q).state = .downFault ∧ (port (portFault q n s) q).loopback = some n := by
  have down (u : State) : (port (portDown q u) q).state = .downFault := by
    unfold portDown; dsimp only
    rw [port_congr (event_ports ..), port_modPort_same hq]
  unfold portFault; dsimp only
  rw [port_modPort_same hq]
  dsimp only
  exact ⟨down _, rfl⟩

/-- What decides about a failed lane is the same in two states. -/
structure FaultViewKept (s u : State) (n : Nat) : Prop where
  port : (lane u n).port = (lane s n).port
  live : (lane u n).state ≠ .retired
  ports : ∀ q, (Machine.port u q).state = (Machine.port s q).state ∧ (Machine.port u q).swap = (Machine.port s q).swap ∧
    (Machine.port u q).refused = (Machine.port s q).refused
  reserves : u.lne.reserves = s.lne.reserves
  cfg : u.reg Reg.LNE_CFG = s.reg Reg.LNE_CFG

section

variable {s u : State} {n : Nat}

theorem FaultViewKept.eligible (h : FaultViewKept s u n) (q i : Nat) : eligible u q i = eligible s q i := by
  unfold Machine.eligible; dsimp only
  rw [reserveLane_congr h.reserves, (h.ports q).2.2, State.bit, State.bit, State.bit, State.bit, h.cfg]

theorem FaultViewKept.firstReserve (h : FaultViewKept s u n) (q : Nat) : firstReserve u q = firstReserve s q := by
  rw [Machine.firstReserve, Machine.firstReserve, funext (h.eligible q)]

theorem FaultViewKept.swapRuns (h : FaultViewKept s u n) (fh : Bool) : swapRuns u fh = swapRuns s fh := by
  simp only [Machine.swapRuns, (h.ports _).2.1]

/-- A failure that waits for nothing is acted on: a reserve trains for the lane, or the port is down and the lane is looped back. -/
theorem tryFailure_taken (view : FaultViewKept s u n) (now : failsNow s n) : laneTaken s (tryFailure n u) n := by
  obtain ⟨small, -, -, idle, alone, up⟩ := now
  have state : (Machine.port u (lane s n).port).state ≠ .l0 ∧ (Machine.port u (lane s n).port).state ≠ .training ∧
      (Machine.port u (lane s n).port).state ≠ .quarantined ↔ False := by
    rw [(view.ports _).1]
    tauto
  have swap : (Machine.port u (lane s n).port).swap.isSome = false := by rw [(view.ports _).2.1, idle]; rfl
  unfold tryFailure laneTaken; dsimp only
  rw [view.port, if_neg (by simp [view.live, small]), if_neg (by rw [swap]; simpa using state.mp), view.firstReserve]
  cases hr : Machine.firstReserve s (lane s n).port with
  | none => exact portFault_port (by omega) n _
  | some i =>
    dsimp only
    rw [view.swapRuns, alone, if_neg (by decide)]
    exact startSwap_port (by omega) n _ i true _

/-- So is a failure that is noted now. -/
theorem laneFail_taken (view : FaultViewKept s u n) (waits : u.lne.waiting = []) (now : failsNow s n) : laneTaken s (laneFail n u) n := by
  have small : (lane s n).port < 4 := now.1
  have up := now.2.2.2.2.2
  unfold laneFail; dsimp only
  rw [view.port, (view.ports _).1, if_neg (by obtain h | h | h := up <;> simp [h] <;> omega), if_neg (by omega)]
  simp only [runFailures, State.modLne_lne, State.modPort_lne, waits]
  refine tryFailure_taken ⟨view.port, view.live, fun q => ?_, view.reserves, view.cfg⟩ now
  rw [show Machine.port (State.modLne _ (u.modPort _ _)) q = Machine.port (u.modPort _ _) q from rfl, port_modPort]
  split
  next h => rw [h.1]; exact view.ports _
  next => exact view.ports q

end

end Sys2Proof.Machine
end

section
/-!
SUPPORT. What a port shows when it reaches L0 or returns to service (R239, R244, R253, R267), and the statement on ports.
-/

namespace Sys2Proof.Machine

/-! ### Gaps that end (R267) -/

/-- An address of the LNE block. -/
def laneReg (a : Nat) : Prop := a / 0x10000 = 0xD

theorem laneReg_int : laneReg Reg.LNE_INT_STATUS := rfl

theorem laneReg_portStatus (q : Fin 5) : laneReg (Reg.LNE_PORT_STATUS q) := by
  unfold laneReg Reg.LNE_PORT_STATUS; omega

theorem laneReg.ne_post {a : Nat} (h : laneReg a) (k : Nat) : a ≠ Reg.FHP_FLOCK_CTRL_LOST k ∨ 8 ≤ k := by
  unfold laneReg at h; unfold Reg.FHP_FLOCK_CTRL_LOST; omega

theorem laneReg.ne_fhpInt {a : Nat} (h : laneReg a) : a ≠ Reg.FHP_INT_STATUS := by
  rintro rfl
  exact absurd h (show ¬ Reg.FHP_INT_STATUS / 0x10000 = 0xD by decide)

/-- The notices of a gap that ends leave the registers of the LNE block. -/
theorem endGap_reg {a : Nat} (ha : laneReg a) (q : Nat) (s : State) : (endGap q s).reg a = s.reg a := by
  unfold endGap
  split
  · rfl
  · split
    · rfl
    · refine (forAll_reg (fun k hk t => ?_) _).trans (State.raise_reg_ne _ ha.ne_fhpInt)
      have small : k < 8 := List.mem_range.mp (List.mem_of_mem_filter hk)
      exact State.post_reg _ ((ha.ne_post k).resolve_right (by omega)) ha.ne_fhpInt

theorem backInService_reg {a : Nat} (ha : laneReg a) (q : Nat) (s : State) : (backInService q s).reg a = s.reg a := by
  unfold backInService
  split
  · exact endGap_reg ha q s
  · rfl

/-- Of the LNE block, a gap that ends leaves all but its start. -/
theorem backInService_lne (q : Nat) (s : State) : (backInService q s).lne = s.lne ∨
    (backInService q s).lne = (s.modPort q (fun p => { p with downAt := none })).lne := by
  unfold backInService endGap
  split
  · split
    · exact .inl rfl
    · refine .inr ?_
      dsimp only
      split
      · rfl
      · exact (forAll_keeps (fun k t K => post_keeps rfl rfl (modFlock_keeps rfl K))
          (raise_keeps (L := fun p => decide (p ∈ [Part.regs, .fhp])) rfl (Kept.refl _ _))).lne rfl
  · exact .inl rfl

theorem backInService_port (q : Nat) (s : State) (j : Nat) : ∃ d, port (backInService q s) j = { port s j with downAt := d } := by
  obtain h | h := backInService_lne q s
  · exact ⟨_, port_congr (congrArg Lne.ports h) j⟩
  · rw [port_congr (congrArg Lne.ports h), port_modPort]
    split
    next e => rw [e.1]; exact ⟨_, rfl⟩
    next => exact ⟨_, rfl⟩

theorem backInService_lanesKept (q : Nat) (s : State) : LanesKept s (backInService q s) := by
  obtain h | h := backInService_lne q s
  · exact .of_lne h
  · exact (lanesKept_modPort q (by intro; rfl) s).trans (.of_lne h)

/-! ### L0 (R239) -/

/-- A port has reached L0, before the failures that waited for it are acted on. -/
def l0Reached (q : Nat) (s : State) : State :=
  let us := min 0x3FFF ((s.time.tb1 - (port s q).trainAt) / usTu)
  let s := s.modPort q (fun p => { p with
    state := l0State p, step := 5, external := false, loopback := none, dirty := false, refused := [] })
  let s := (s.setFld (Reg.LNE_PORT_STATUS q) 13 0 us).raise Reg.LNE_INT_STATUS 0
  let s := if q = 2 ∨ q = 3 then s.modNbr (q - 2) (fun b => { b with l0Since := s.time.tb1 })
    else if q < 2 then s.modTim (fun t => { t with ports := vmod t.ports q (fun p => { p with listening := true }) })
    else s
  backInService q s

theorem reachL0_eq (q : Nat) (s : State) : reachL0 q s = runFailures (l0Reached q s) := rfl

/-- The port is in L0, held or quarantined, with the interrupt, and its lanes are as they were. -/
theorem l0Reached_shows {q : Nat} (hq : q < 5) (s : State) :
    let t := l0Reached q s
    (port t q).state = l0State (port s q) ∧ (port t q).step = 5 ∧ t.bit Reg.LNE_INT_STATUS 0 = true ∧ LanesKept s t := by
  have noted (u : State) : (if q = 2 ∨ q = 3 then u.modNbr (q - 2) (fun b => { b with l0Since := u.time.tb1 })
      else if q < 2 then u.modTim (fun t => { t with ports := vmod t.ports q (fun p => { p with listening := true }) }) else u).lne = u.lne ∧
      ∀ a, (if q = 2 ∨ q = 3 then u.modNbr (q - 2) (fun b => { b with l0Since := u.time.tb1 })
      else if q < 2 then u.modTim (fun t => { t with ports := vmod t.ports q (fun p => { p with listening := true }) }) else u).reg a = u.reg a := by
    split_ifs <;> exact ⟨rfl, fun _ => rfl⟩
  have risen (u : State) : ((u.setFld (Reg.LNE_PORT_STATUS q) 13 0 (min 0x3FFF ((s.time.tb1 - (port s q).trainAt) / usTu))).raise
      Reg.LNE_INT_STATUS 0).lne = u.lne := (State.raise_lne ..).trans (State.setFld_lne ..)
  intro t
  obtain ⟨d, shown⟩ : ∃ d, port t q = { port s q with
      state := l0State (port s q), step := 5, external := false, loopback := none, dirty := false, refused := [], downAt := d } := by
    obtain ⟨d, h⟩ := backInService_port q _ q
    refine ⟨d, h.trans ?_⟩
    rw [port_congr (congrArg Lne.ports ((noted _).1.trans (risen _))), port_modPort_same hq]
  refine ⟨by rw [shown], by rw [shown], ?_, ?_⟩
  · rw [State.bit]
    refine (congrArg (bitOf · 0) ((backInService_reg laneReg_int q _).trans ((noted _).2 _))).trans ?_
    exact State.bit_raise _ (present_lneInt _) (by decide)
  · exact ((lanesKept_modPort q (by intro; rfl) s).trans (.of_lne ((noted _).1.trans (risen _)))).trans (backInService_lanesKept q _)

/-- A port that reaches L0 with no failure waiting. -/
theorem reachL0_quiet {q : Nat} {s : State} (none : s.lne.waiting = []) (hq : q < 5) : reachL0 q s = l0Reached q s := by
  obtain ⟨-, -, -, kept⟩ := l0Reached_shows hq s
  rw [reachL0_eq, runFailures_nothing (kept.waiting.trans none)]

/-! ### Lanes that bring-up has found (R239) -/

theorem laneUp_lne (q i : Nat) (k : LaneFound) (s : State) : (laneUp q i k s).lne =
    (s.modLane k.lane.val (fun l => { l.goes .l0 with port := q, pos := i, rxInv := k.rxInv, suspect := false })).lne :=
  (whenB_keeps (fun _ K => setFld_keeps rfl K) (setReg_keeps rfl (setReg_keeps rfl
    (Kept.refl (fun p => decide (p ∈ [Part.regs])) _)))).lne rfl

theorem lanesUp_waiting (q : Nat) (found : List (Nat × LaneFound)) (s : State) : (lanesUp q found s).lne.waiting = s.lne.waiting := by
  have waiting : (forAll found (fun x => laneUp q x.1 x.2) s).lne.waiting = s.lne.waiting :=
    forAll_induct (P := fun t => t.lne.waiting = s.lne.waiting) (fun x t h => by rw [laneUp_lne]; exact h) _ rfl
  exact waiting

/-- Of its port, lanes that are up change the map alone. -/
theorem lanesUp_port {q : Nat} (hq : q < 5) (found : List (Nat × LaneFound)) (s : State) :
    ∃ m r, port (lanesUp q found s) q = { port s q with map := m, reversed := r } := by
  have ports : (forAll found (fun x => laneUp q x.1 x.2) s).lne.ports = s.lne.ports :=
    forAll_induct (P := fun t => t.lne.ports = s.lne.ports) (fun x t h => by rw [laneUp_lne]; exact h) _ rfl
  unfold lanesUp; dsimp only
  rw [port_modPort_same hq, port_congr ports]
  exact ⟨_, _, rfl⟩

/-! ### Bring-up steps that fail (R239) -/

theorem lanesReached_ports (q reached : Nat) (s : State) : (lanesReached q reached s).lne.ports = s.lne.ports :=
  forAll_induct (f := fun n s => s.modLane n _) (P := fun t => t.lne.ports = s.lne.ports) (fun _ _ h => h) _ rfl

section

variable {s : State} {q : Fin 5}

theorem stepTimeout_nothing {step : Nat} (reached : Nat)
    (h : (port s q).state ≠ .training ∨ (port s q).paused = true ∨ step < 2 ∨ 5 < step) : stepTimeout q step reached s = s := if_pos h

/-- A failed limit pauses bring-up, or puts the port down where the fault lies outside. -/
theorem stepTimeout_fails {step : Nat} (reached : Nat) (training : (port s q).state = .training) (runs : (port s q).paused = false)
    (low : 2 ≤ step) (high : step ≤ 5) (alone : (port s q).swap = none) :
    let t := stepTimeout q step reached s
    (port t q).step = min reached step ∧ (port t q).paused = !(port s q).external ∧
      (port t q).state = (if (port s q).external then .downFault else .training) ∧ changedOnly [.lne] s t := by
  have fails : stepTimeout q step reached s = (lanesReached q (min reached step) s).modPort q (fun p => { p with
      step := min reached step, paused := !p.external, state := if p.external then .downFault else .training }) := by
    unfold stepTimeout
    rw [if_neg (by simp [training, runs]; omega), if_neg (by simp [alone])]
  intro t
  have shown : port t q = { port s q with
      step := min reached step, paused := !(port s q).external, state := if (port s q).external then .downFault else .training } := by
    rw [show t = _ from fails, port_modPort_same q.isLt, port_congr (lanesReached_ports ..)]
  refine ⟨by rw [shown], by rw [shown], by rw [shown], ?_⟩
  rw [show t = _ from fails]
  exact (modPort_keeps rfl (lanesReached_keeps rfl (Kept.refl _ s))).changedOnly

/-! ### PORT_L0 (R239, R242) -/

theorem portL0_nothing {found : List LaneFound} (h : ((port s q).swap.isSome ∨ (port s q).paused = true ∨ found.length ≠ positions q ∨
    foundAll (portLanes s q) found = false) ∨ (port s q).state ≠ .training ∧ (port s q).state ≠ .off) : portL0 q found s = s := by
  refine if_pos ?_
  rcases h with (h | h | h | h) | ⟨h, h'⟩
  · exact .inr (.inl h)
  · exact .inr (.inr (.inl h))
  · exact .inr (.inr (.inr (.inr h)))
  · exact .inr (.inr (.inr (.inl (by simp [h]))))
  · exact .inl (by simp [h, h'])

/-- The lanes of a training port are all found. -/
theorem portL0_found {found : List LaneFound} (training : (port s q).state = .training) (alone : (port s q).swap = none)
    (runs : (port s q).paused = false) (whole : found.length = positions q) (all : foundAll (portLanes s q) found = true) :
    portL0 q found s = if skewBad q found then stepTimeout q 5 5 s else reachL0 q (lanesUp q ((List.range (positions q)).zip found) s) :=
  if_neg (by simp [training, alone, runs, whole, all])

/-- Within the skew tolerated, the port is in L0. -/
theorem portL0_reaches {found : List LaneFound} (training : (port s q).state = .training) (alone : (port s q).swap = none)
    (runs : (port s q).paused = false) (whole : found.length = positions q) (all : foundAll (portLanes s q) found = true)
    (close : skewBad q found = false) (none : s.lne.waiting = []) :
    let t := portL0 q found s
    (port t q).state = l0State (port s q) ∧ (port t q).step = 5 ∧ t.bit Reg.LNE_INT_STATUS 0 = true := by
  intro t
  have reached : t = l0Reached q (lanesUp q ((List.range (positions q)).zip found) s) := by
    rw [← reachL0_quiet ((lanesUp_waiting ..).trans none) q.isLt]
    exact (portL0_found training alone runs whole all).trans (if_neg (by simp [close]))
  obtain ⟨state, step, flag, -⟩ := l0Reached_shows q.isLt (lanesUp q ((List.range (positions q)).zip found) s)
  obtain ⟨m, r, up⟩ := lanesUp_port q.isLt ((List.range (positions q)).zip found) s
  rw [reached]
  exact ⟨by rw [state, up]; rfl, step, flag⟩

/-! ### Commands of the host (R244) -/

theorem portOutcome_lne (code : Nat) (s : State) : (portOutcome q code s).lne = s.lne :=
  (portOutcome_keeps (L := fun p => decide (p ∈ [Part.regs])) rfl (Kept.refl _ s)).lne rfl

theorem portOutcome_port (code : Nat) (s : State) (j : Nat) : port (portOutcome q code s) j = port s j :=
  port_congr (congrArg Lne.ports (portOutcome_lne code s)) j

theorem portOutcome_done (s : State) : (portOutcome q 0 s).fld (Reg.LNE_PORT_STATUS q) 15 14 = 1 :=
  State.fld_setFld s _ 1 (by decide) (by decide)

theorem portOutcome_plain (code : Nat) (plain : plainBringUp s q) : plainBringUp (portOutcome q code s) q :=
  (LanesKept.of_lne (portOutcome_lne code s)).plainBringUp plain

theorem portState_foldLink (st : Nat) (h : st < 3) (fold : q.val = 2 ∨ q.val = 3) : portState q st s = portOutcome q 2 s := by
  unfold portState; dsimp only
  rw [if_neg (by omega), if_pos fold]

theorem portState_inUse {st : Nat} (h : st = 1 ∨ st = 2) (fh : q.val < 2) (used : portInUse s q = true) : portState q st s = portOutcome q 1 s := by
  unfold portState; dsimp only
  rw [if_neg (by omega), if_neg (by omega), if_pos ⟨by omega, fh, used⟩]

theorem portState_trains (own : q.val < 2 ∨ q.val = 4) (low : (port s q).state = .l1 ∨ (port s q).state = .l2) (plain : plainBringUp s q) :
    (port (portState q 0 s) q).state = .training := by
  have begins : portState q 0 s = bringUp q (portOutcome q 0 s) := by
    unfold portState; dsimp only
    rw [if_neg (by omega), if_neg (by omega), if_neg (by simp), if_pos rfl, if_pos low]
  rw [begins, bringUp_plain (portOutcome_plain 0 plain)]
  exact (trainingBegun_port q.isLt _).1

theorem portState_rests {st : Nat} (h : st = 1 ∨ st = 2) (own : q.val < 2 ∨ q.val = 4) (free : portInUse s q = false)
    (on : (port s q).state ≠ .off) (well : (port s q).state ≠ .downFault) :
    (port (portState q st s) q).state = if st = 1 then .l1 else .l2 := by
  unfold portState; dsimp only
  rw [if_neg (by omega), if_neg (by omega), if_neg (by simp [free]), if_neg (by omega), if_neg (by simp [on, well]), port_modPort_same q.isLt]

theorem holdPort_done (s : State) : (holdPort q s).fld (Reg.LNE_PORT_STATUS q) 15 14 = 1 ∧ (port (holdPort q s) q).held = true ∧
    (port (holdPort q s) q).state = (if (port s q).state = .l0 then .held else (port s q).state) ∧ changedOnly [.lne, .regs] s (holdPort q s) := by
  have shown := (portOutcome_port (q := q) 0 (s.modPort q (fun p => { p with
    held := true, state := if p.state = .l0 then .held else p.state
    downAt := if p.state = .l0 then p.downAt.or (some s.time.tb0) else p.downAt })) q).trans (port_modPort_same q.isLt _ _)
  exact ⟨portOutcome_done _, (congrArg Port.held shown).trans rfl, (congrArg Port.state shown).trans rfl,
    (holdPort_keeps rfl rfl (Kept.refl _ s)).changedOnly⟩

theorem holdClear_done (s : State) : (holdClear q s).fld (Reg.LNE_PORT_STATUS q) 15 14 = 1 ∧ (port (holdClear q s) q).held = false ∧
    (port (holdClear q s) q).state = if (port s q).state = .held then .l0 else (port s q).state := by
  have shown : port (portOutcome q 0 ((endTests q s).modPort q (fun p => { p with held := false }))) q = { port s q with held := false } := by
    rw [portOutcome_port, port_modPort_same q.isLt, port_congr (endTests_ports ..)]
  unfold holdClear; dsimp only
  rw [shown]
  dsimp only
  split
  next held =>
    obtain ⟨d, back⟩ := backInService_port q ((portOutcome q 0 ((endTests q s).modPort q (fun p => { p with held := false }))).modPort q
      (fun p => { p with state := .l0 })) q
    rw [port_modPort_same q.isLt, shown] at back
    rw [back, State.fld, backInService_reg (laneReg_portStatus q)]
    exact ⟨portOutcome_done _, rfl, rfl⟩
  next => rw [shown]; exact ⟨portOutcome_done _, rfl, rfl⟩

theorem retrain_done (s : State) :
    if (port s q).state = .off ∨ (port s q).swap.isSome ∨ (q.val < 4 ∧ (port s q).state = .downFault ∧ (port s q).external = false) then
      port (retrain q s) q = port s q
    else plainBringUp s q → (port (retrain q s) q).state = .training := by
  unfold retrain; dsimp only
  simp only [Bool.not_eq_true]
  split
  · exact portOutcome_port 0 s q
  · intro plain
    rw [bringUp_plain (portOutcome_plain 0 plain)]
    exact (trainingBegun_port q.isLt _).1

/-! ### Quarantine that ends (R253) -/

theorem quarRelease_done (dirty : ¬ ((port s q).state ≠ .quarantined ∨ (port s q).dirty = true ∨ (port s q).swap.isSome)) :
    let t := quarRelease q s
    (port t q).quar = false ∧ (port t q).state = (if (port s q).held then .held else .l0) ∧ t.bit Reg.LNE_INT_STATUS 6 = true := by
  intro t
  have ends : t = backInService q ((s.modPort q (fun p => { p with
      quar := false, state := if p.held then .held else .l0 })).raise Reg.LNE_INT_STATUS 6) := if_neg dirty
  obtain ⟨d, shown⟩ := backInService_port q ((s.modPort q (fun p => { p with
      quar := false, state := if p.held then .held else .l0 })).raise Reg.LNE_INT_STATUS 6) q
  rw [port_congr (congrArg Lne.ports (State.raise_lne ..)), port_modPort_same q.isLt] at shown
  rw [ends]
  refine ⟨by rw [shown], by rw [shown], ?_⟩
  rw [State.bit, backInService_reg laneReg_int]
  exact State.bit_raise _ (present_lneInt _) (by decide)

end

/-- Settles O29: a failed step by the state of its port, a command of the host by whether the port serves its register, and each bring-up
by what it begins with. -/
theorem portsAndBringUp : Obligations.PortsAndBringUp := by
  unfold Obligations.PortsAndBringUp
  refine fun s q => ⟨fun step reached => ⟨_, rfl, stepTimeout_nothing reached, stepTimeout_fails reached⟩, ⟨_, rfl, ?_⟩,
    fun found => ⟨_, rfl, fun h => portL0_nothing (.inl h), fun h h' => portL0_nothing (.inr ⟨h, h'⟩),
      fun training alone runs whole all => ⟨fun close none => portL0_reaches training alone runs whole all close none, fun wide own => ?_⟩⟩,
    fun st => ⟨_, rfl, fun h => ?_, fun hs h fold => ?_, fun hs h fh used => ?_, fun hs own h low plain => ?_,
      fun hs own h free on well => ?_⟩,
    ⟨_, rfl, fun hs => State.hosted_not_served hs _, fun hs => ?_⟩, ⟨_, rfl, fun hs => State.hosted_not_served hs _, fun hs => ?_⟩,
    ⟨_, rfl, fun hs => State.hosted_not_served hs _, fun hs => ?_⟩, ⟨_, rfl, ?_⟩, ⟨_, rfl, ?_⟩⟩
  · unfold bringUpStart
    split
    next => intro plain; rw [bringUp_plain plain]; exact trainingBegun_port q.isLt s
    next => rfl
  · rw [portL0_found training alone runs whole all, if_pos wide]
    obtain ⟨step, paused, -, -⟩ := stepTimeout_fails (step := 5) 5 training runs (by decide) (by decide) alone
    exact ⟨step, by rw [paused, own]; rfl⟩
  · refine State.hosted_nothing fun hs => ?_
    have past : st.val = 3 := h.resolve_left (by simp [hs])
    unfold portState; dsimp only
    rw [if_pos (by omega)]
  · rw [State.hosted_served hs]; exact portState_foldLink _ h fold
  · rw [State.hosted_served hs]; exact portState_inUse h fh used
  · rw [State.hosted_served hs, h]; exact portState_trains own low plain
  · rw [State.hosted_served hs]; exact portState_rests h own free on well
  · rw [State.hosted_served hs]; exact holdPort_done s
  · rw [State.hosted_served hs]; exact holdClear_done s
  · rw [State.hosted_served hs]; exact retrain_done s
  · split
    next =>
      intro plain
      rw [bringUp_plain plain]
      obtain ⟨state, step, -, -⟩ := trainingBegun_port q.isLt s
      exact ⟨state, step⟩
    next => rfl
  · split
    next h => exact if_pos h
    next h => exact quarRelease_done h

end Sys2Proof.Machine
end

section
/-!
SUPPORT. What the failure of a lane leaves as it was: the registers beside its own, the lanes that are retired, and where the reserves are
wired (R248 to R251).
-/

namespace Sys2Proof.Machine

/-! ### What every failure keeps -/

/-- A property of the state that each operation on a failed lane keeps; `may` holds of the reserves that can be engaged under it. -/
structure FaultClosed (may : Nat → Prop) (P : State → Prop) : Prop where
  outside {s t : State} : Kept (fun p => decide (p ∈ [Part.cas])) s t → P s → P t
  port {q : Nat} {f : Port → Port} {s : State} : P s → P (s.modPort q f)
  rest {f : Lne → Lne} {s : State} : (∀ l, (f l).lanes = l.lanes ∧ (f l).reserves = l.reserves) → P s → P (s.modLne f)
  abort {n : Nat} {s : State} : P s → P (abortTest n s)
  count {q : Nat} {s : State} : P s → P (s.addHi (Reg.LNE_PORT_EVENT q) 1)
  flag {b : Nat} {s : State} : P s → P (s.raise Reg.LNE_INT_STATUS b)
  log {kind index cls : Nat} {ev : Bool} {detail : Word} {s : State} : P s → P (s.logPut kind index cls ev detail)
  can {q i : Nat} {s : State} : P s → eligible s q i = true → i < 4 → may i
  engage {i : Nat} {g : ReserveLane → ReserveLane} {f : Lane → Lane} {s : State} :
    may i → (∀ r, (g r).wired = r.wired) → P s → P ((modReserve i g s).modLane (reserveNumber i) f)

section

variable {may : Nat → Prop} {P : State → Prop} {s : State}

theorem FaultClosed.endTests (C : FaultClosed may P) (q : Nat) (h : P s) : P (endTests q s) := forAll_induct (P := P) (fun _ _ k => C.abort k) _ h

theorem FaultClosed.leaveL0 (C : FaultClosed may P) (q : Nat) (h : P s) : P (leaveL0 q s) := by
  unfold Machine.leaveL0; dsimp only
  split
  · exact C.flag (C.count (C.port (C.endTests q h)))
  · exact h

theorem FaultClosed.laneFrame (C : FaultClosed may P) (q event position reserve : Nat) (h : P s) : P (laneFrame q event position reserve s) :=
  C.outside (laneFrame_keeps rfl (Kept.refl _ s)) h

theorem FaultClosed.portDown (C : FaultClosed may P) (q : Nat) (h : P s) : P (portDown q s) := C.log (C.flag (C.port (C.leaveL0 q h)))

theorem FaultClosed.portFault (C : FaultClosed may P) (q n : Nat) (h : P s) : P (portFault q n s) := by
  have told : P (if q = 2 ∨ q = 3 then Machine.laneFrame q 1 (lane s n).pos 0 s else s) := by
    split
    · exact C.laneFrame _ _ _ _ h
    · exact h
  exact C.port (C.portDown q told)

theorem FaultClosed.steer (C : FaultClosed may P) (i code : Nat) (h : P s) : P (steer i code s) := by
  unfold Machine.steer
  split
  · exact C.rest (by exact fun _ => ⟨rfl, rfl⟩) h
  · exact h

theorem FaultClosed.startSwap (C : FaultClosed may P) {i : Nat} (hi : may i) (q n pos : Nat) (ask : Bool) (h : P s) :
    P (startSwap q n pos i ask s) := by
  have asked : P (if decide (q = 2 ∨ q = 3) = true ∧ ask = true then Machine.laneFrame q 2 pos (i - 2) s else s) := by
    split
    · exact C.laneFrame _ _ _ _ h
    · exact h
  have last (u : State) (hu : P u) : P (if decide (q = 2 ∨ q = 3) = true then u.modNbr (q - 2) (fun b => { b with swap := true }) else u) := by
    split
    · exact C.outside (modNbr_keeps rfl (Kept.refl _ u)) hu
    · exact hu
  exact last _ (C.steer _ _ (C.engage hi (by exact fun _ => rfl) (C.port (C.leaveL0 _ (C.abort asked)))))

theorem FaultClosed.failureDone (C : FaultClosed may P) (n : Nat) (h : P s) : P (failureDone n s) := C.rest (by exact fun _ => ⟨rfl, rfl⟩) h

theorem firstReserve_spec {q i : Nat} (h : firstReserve s q = some i) : eligible s q i = true ∧ i < 4 := by
  unfold firstReserve at h
  split at h
  · cases h
  · exact ⟨List.find?_some h, List.mem_range.mp (List.mem_of_find?_eq_some h)⟩

theorem FaultClosed.may_firstReserve (C : FaultClosed may P) {q i : Nat} (hr : firstReserve s q = some i) (h : P s) : may i :=
  C.can h (firstReserve_spec hr).1 (firstReserve_spec hr).2

theorem FaultClosed.tryFailure (C : FaultClosed may P) (n : Nat) (h : P s) : P (tryFailure n s) := by
  unfold Machine.tryFailure; dsimp only
  split
  · exact C.failureDone n h
  · split
    · exact h
    · split
      next => exact C.portFault _ _ (C.failureDone n h)
      next i hr =>
        split
        · exact h
        · exact C.startSwap (C.may_firstReserve hr h) _ _ _ _ (C.failureDone n h)

theorem FaultClosed.runFailures (C : FaultClosed may P) (h : P s) : P (runFailures s) := forAll_induct (P := P) (fun n _ k => C.tryFailure n k) _ h

theorem FaultClosed.fillDead (C : FaultClosed may P) (q pos : Nat) (h : P s) : P (fillDead q pos s) := by
  unfold Machine.fillDead
  split
  next => exact C.portDown q h
  next i hr =>
    split
    · exact h
    · exact C.startSwap (C.may_firstReserve hr h) _ _ _ _ h

theorem FaultClosed.laneFail (C : FaultClosed may P) (n : Nat) (h : P s) : P (laneFail n s) := by
  unfold Machine.laneFail; dsimp only
  split
  · exact h
  · split
    · exact C.port (C.leaveL0 4 h)
    · exact C.runFailures (C.rest (by exact fun _ => ⟨rfl, rfl⟩) (C.port h))

end

/-! ### Registers -/

/-- A register that the failure of a lane may change. -/
def faultReg (a : Nat) : Prop :=
  a = Reg.LNE_INT_STATUS ∨ a = Reg.GLB_INT_STATUS ∨ a = Reg.GLB_LOG_LOST ∨ (∃ n, a = Reg.LNE_TEST_CTRL n) ∨ ∃ q, a = Reg.LNE_PORT_EVENT q

/-- The other registers are as they were, and the flags of the LNE block stay asserted. -/
structure FaultRegsKept (s t : State) : Prop where
  reg : ∀ a, ¬ faultReg a → t.reg a = s.reg a
  flag : ∀ b < 32, s.bit Reg.LNE_INT_STATUS b = true → t.bit Reg.LNE_INT_STATUS b = true

section

variable {s₀ s t : State}

theorem FaultRegsKept.refl (s : State) : FaultRegsKept s s := ⟨fun _ _ => rfl, fun _ _ h => h⟩

theorem FaultRegsKept.trans {u : State} (h : FaultRegsKept s t) (k : FaultRegsKept t u) : FaultRegsKept s u :=
  ⟨fun a ha => (k.reg a ha).trans (h.reg a ha), fun b hb e => k.flag b hb (h.flag b hb e)⟩

theorem FaultRegsKept.of_regs (h : ∀ a, t.reg a = s.reg a) : FaultRegsKept s t :=
  ⟨fun a _ => h a, fun b _ e => by rw [State.bit, h]; exact e⟩

theorem faultRegs_setReg {a : Nat} (ha : faultReg a) (hi : a ≠ Reg.LNE_INT_STATUS) (w : Word) (s : State) : FaultRegsKept s (s.setReg a w) :=
  ⟨fun c hc => State.reg_setReg_ne s w (fun e => hc (e ▸ ha)), fun b _ e => by rw [State.bit, State.reg_setReg_ne s w hi.symm]; exact e⟩

theorem faultRegs_raise (b : Nat) (s : State) : FaultRegsKept s (s.raise Reg.LNE_INT_STATUS b) :=
  ⟨fun _ hc => State.raise_reg_ne s (fun e => hc (.inl e)), fun _ hc e => State.bit_raise_of_bit s hc e⟩

theorem faultRegs_abortTest (n : Nat) (s : State) : FaultRegsKept s (abortTest n s) := by
  have noted : FaultRegsKept s ((s.setFld (Reg.LNE_TEST_CTRL n) 31 31 0).raise Reg.LNE_INT_STATUS 7) :=
    (faultRegs_setReg (.inr (.inr (.inr (.inl ⟨n, rfl⟩)))) (by unfold Reg.LNE_TEST_CTRL Reg.LNE_INT_STATUS; omega) _ s).trans
      (faultRegs_raise 7 _)
  have rest {u v : State} (K : Kept (fun p => decide (p ∈ [Part.lne])) u v) : FaultRegsKept u v := .of_regs (K.reg rfl)
  unfold abortTest; dsimp only
  split
  · split
    · split
      · exact noted.trans (rest (laneTo_keeps rfl (modReserve_keeps rfl (Kept.refl _ _))))
      · exact noted.trans (rest (laneTo_keeps rfl (Kept.refl _ _)))
    · exact noted.trans (rest (laneTo_keeps rfl (Kept.refl _ _)))
  · exact .refl s

theorem faultRegs_logPut (kind index cls : Nat) (ev : Bool) (detail : Word) (s : State) : FaultRegsKept s (s.logPut kind index cls ev detail) :=
  ⟨fun _ hc => State.logPut_reg s (fun e => hc (.inr (.inl e))) (fun e => hc (.inr (.inr (.inl e)))), fun b _ e => by
    rw [State.bit, State.logPut_reg s (by decide) (by decide)]; exact e⟩

/-- Every operation on a failed lane changes these registers alone. -/
theorem faultRegs_closed (s₀ : State) : FaultClosed (fun _ => True) (FaultRegsKept s₀) where
  outside K h := h.trans (.of_regs (K.reg rfl))
  port h := h.trans (.of_regs fun _ => rfl)
  rest _ h := h.trans (.of_regs fun _ => rfl)
  abort h := h.trans (faultRegs_abortTest _ _)
  count h := h.trans (faultRegs_setReg (.inr (.inr (.inr (.inr ⟨_, rfl⟩)))) (by unfold Reg.LNE_PORT_EVENT Reg.LNE_INT_STATUS; omega) _ _)
  flag h := h.trans (faultRegs_raise _ _)
  log h := h.trans (faultRegs_logPut ..)
  can _ _ _ := trivial
  engage _ _ h := h.trans (.of_regs fun _ => rfl)

theorem bringUp_faultRegs (q : Nat) (s : State) : FaultRegsKept s (bringUp q s) := by
  have C := faultRegs_closed s
  have begun : FaultRegsKept s (trainingBegun q s) :=
    (C.leaveL0 q (.refl s)).trans (.of_regs ((modPort_keeps rfl (lanesTo_keeps rfl (Kept.refl (fun p => decide (p ∈ [Part.lne])) _))).reg rfl))
  rw [bringUp_eq]
  split
  · exact C.fillDead q _ begun
  · exact C.runFailures begun

end

/-! ### Retired lanes -/

/-- A lane is retired, and is no reserve that can be engaged. -/
def retiredLane (n : Nat) (s : State) : Prop :=
  (lane s n).state = .retired ∧ ∀ i < 4, reserveNumber i = n → (reserveLane s i).spare = false

theorem retiredLane_congr {n : Nat} {s t : State} (lanes : t.lne.lanes = s.lne.lanes) (reserves : t.lne.reserves = s.lne.reserves)
    (h : retiredLane n s) : retiredLane n t :=
  ⟨by rw [lane_congr lanes]; exact h.1, fun i hi e => by rw [reserveLane_congr reserves]; exact h.2 i hi e⟩

/-- Another lane or reserve may change. -/
theorem retiredLane_engage {n i : Nat} (hi : i < 4) (other : reserveNumber i ≠ n) (g : ReserveLane → ReserveLane) (f : Lane → Lane) {s : State}
    (h : retiredLane n s) : retiredLane n ((modReserve i g s).modLane (reserveNumber i) f) :=
  ⟨(congrArg Lane.state (lane_modLane_ne other.symm f _)).trans h.1, fun j hj e => by
    rw [show reserveLane ((modReserve i g s).modLane (reserveNumber i) f) j = reserveLane (modReserve i g s) j from rfl,
      reserveLane_modReserve, if_neg (by rintro ⟨rfl, -⟩; exact other e)]
    exact h.2 j hj e⟩

theorem retiredLane_abortTest {n : Nat} (m : Nat) {s : State} (h : retiredLane n s) : retiredLane n (abortTest m s) := by
  obtain e | ⟨test, u, st, -, e, hu⟩ := abortTest_cases m s
  · rw [e]; exact h
  · have other : n ≠ m := by rintro rfl; rw [h.1] at test; cases test
    have kept : retiredLane n u := by
      obtain hl | ⟨i, hi, hl⟩ := hu
      · exact retiredLane_congr (congrArg Lne.lanes hl) (congrArg Lne.reserves hl) h
      · obtain ⟨lt, rfl⟩ := reserveOf_eq_some.mp hi
        have engaged := retiredLane_engage lt other.symm (fun r => { r with state := 0 }) id h
        refine ⟨by rw [lane_congr (s := s) (by rw [hl]; rfl)]; exact h.1, fun j hj hn => ?_⟩
        rw [reserveLane_congr (s := modReserve i (fun r => { r with state := 0 }) s) (by rw [hl])]
        exact engaged.2 j hj hn
    rw [e]
    exact ⟨(congrArg Lane.state (lane_modLane_ne other _ u)).trans kept.1, kept.2⟩

/-- No operation on another failed lane takes up a retired one. -/
theorem retiredLane_closed (n : Nat) : FaultClosed (fun i => i < 4 ∧ reserveNumber i ≠ n) (retiredLane n) where
  outside K h := retiredLane_congr (congrArg Lne.lanes (K.lne rfl)) (congrArg Lne.reserves (K.lne rfl)) h
  port h := h
  rest hf h := retiredLane_congr (hf _).1 (hf _).2 h
  abort h := retiredLane_abortTest _ h
  count h := retiredLane_congr (by rw [State.addHi_lne]) (by rw [State.addHi_lne]) h
  flag h := retiredLane_congr (by rw [State.raise_lne]) (by rw [State.raise_lne]) h
  log h := retiredLane_congr (by rw [State.logPut_lne]) (by rw [State.logPut_lne]) h
  can {q i s} h e hi := ⟨hi, fun hn => by
    have spare : (reserveLane s i).spare = true := by
      unfold eligible at e; dsimp only at e
      simp only [Bool.and_eq_true, and_assoc] at e
      exact e.1
    rw [h.2 _ hi hn] at spare
    cases spare⟩
  engage hi _ h := retiredLane_engage hi.1 hi.2 _ _ h

/-! ### Where the reserves are wired -/

/-- Every reserve is wired as it was. -/
def wiredKept (s t : State) : Prop := ∀ i, (reserveLane t i).wired = (reserveLane s i).wired

theorem wiredKept_modReserve {g : ReserveLane → ReserveLane} (hg : ∀ r, (g r).wired = r.wired) (i : Nat) (s : State) :
    wiredKept s (modReserve i g s) := fun j => by
  rw [reserveLane_modReserve]
  split
  next h => rw [hg, h.1]
  next => rfl

theorem wiredKept_of_reserves {s t u : State} (e : u.lne.reserves = t.lne.reserves) (h : wiredKept s t) : wiredKept s u :=
  fun i => (congrArg ReserveLane.wired (reserveLane_congr e i)).trans (h i)

theorem wiredKept_abortTest {s t : State} (n : Nat) (h : wiredKept s t) : wiredKept s (abortTest n t) := by
  obtain e | ⟨-, u, st, -, e, hu⟩ := abortTest_cases n t
  · rw [e]; exact h
  · have kept : wiredKept s u := by
      obtain hl | ⟨i, -, hl⟩ := hu
      · exact wiredKept_of_reserves (congrArg Lne.reserves hl) h
      · refine wiredKept_of_reserves (t := modReserve i (fun r => { r with state := 0 }) t) (by rw [hl]) fun j => ?_
        exact (wiredKept_modReserve (by exact fun _ => rfl) i t j).trans (h j)
    rw [e]
    exact kept

theorem wiredKept_closed (s : State) : FaultClosed (fun _ => True) (wiredKept s) where
  outside K := wiredKept_of_reserves (congrArg Lne.reserves (K.lne rfl))
  port h := h
  rest hf := wiredKept_of_reserves (hf _).2
  abort h := wiredKept_abortTest _ h
  count := wiredKept_of_reserves (by rw [State.addHi_lne])
  flag := wiredKept_of_reserves (by rw [State.raise_lne])
  log := wiredKept_of_reserves (by rw [State.logPut_lne])
  can _ _ _ := trivial
  engage _ hg h := fun j => (wiredKept_modReserve hg _ _ j).trans (h j)

end Sys2Proof.Machine
end

section
/-!
SUPPORT. Lane swaps and loopbacks that end, suspect and failed lanes, the counts of a second, the fold reserves, taps and tests (R238, R241,
R246 to R252), and the statement on lanes.
-/

namespace Sys2Proof.Machine

/-! ### Retired lanes -/

section

variable {s : State} {n q : Nat}

theorem retireLane_rows (n : Nat) (s : State) : (retireLane n s).lne.ports = s.lne.ports ∧ (retireLane n s).lne.waiting = s.lne.waiting := by
  unfold retireLane; dsimp only
  split
  · unfold steer
    split <;> exact ⟨rfl, rfl⟩
  · exact ⟨rfl, rfl⟩

theorem steer_lane (i code m : Nat) (s : State) : lane (steer i code s) m = lane s m := by
  unfold steer
  split <;> rfl

theorem steer_reserveLane (i code j : Nat) (s : State) : reserveLane (steer i code s) j = reserveLane s j := by
  unfold steer
  split <;> rfl

/-- A lane that is powered down is retired, and a reserve with it. -/
theorem retireLane_retired (h : n < 29) (s : State) : retiredLane n (retireLane n s) := by
  have off (u : State) (hu : u.lne.lanes = (s.modLane n (fun l => { l.goes .retired with
      port := if (reserveOf n).isSome then 7 else l.port })).lne.lanes) : (lane u n).state = .retired := by
    rw [lane_congr hu, lane_modLane_same h]
    rfl
  unfold retireLane; dsimp only
  cases hr : reserveOf n with
  | none => exact ⟨off _ (by rw [hr]), fun i hi e => by rw [reserveOf_eq_some.mpr ⟨hi, e⟩] at hr; cases hr⟩
  | some i =>
    dsimp only
    obtain ⟨hi, e⟩ := reserveOf_eq_some.mp hr
    refine ⟨?_, fun j hj ej => ?_⟩
    · rw [steer_lane]
      exact off _ (by rw [hr]; rfl)
    · have same : j = i := by
        have := reserveOf_eq_some.mpr ⟨hj, ej⟩
        rw [hr] at this
        exact (Option.some.inj this).symm
      rw [same, steer_reserveLane, reserveLane_modReserve, if_pos ⟨rfl, hi⟩]
      rfl

theorem retiredLane_modPort (q : Nat) (f : Port → Port) (h : retiredLane n s) : retiredLane n (s.modPort q f) := h

/-- A reserve shows another position. -/
theorem retiredLane_of_position {i p : Nat} {t : State} (rows : t.lne = (modReserve i (fun r => { r with pos := p }) s).lne)
    (h : retiredLane n s) : retiredLane n t := by
  refine ⟨by rw [lane_congr (congrArg Lne.lanes rows)]; exact h.1, fun j hj e => ?_⟩
  rw [reserveLane_congr (congrArg Lne.reserves rows), reserveLane_modReserve]
  split
  next same => rw [← same.1]; exact h.2 j hj e
  next => exact h.2 j hj e

/-- A retired lane is not among those that bring-up finds. -/
theorem retiredLane_lanesUp (q : Nat) {found : List (Nat × LaneFound)} (h : ∀ x ∈ found, n ≠ x.2.lane.val) (hn : retiredLane n s) :
    retiredLane n (lanesUp q found s) := by
  have kept : ∀ (l : List (Nat × LaneFound)) (t : State), (∀ x ∈ l, n ≠ x.2.lane.val) → retiredLane n t →
      retiredLane n (forAll l (fun x => laneUp q x.1 x.2) t) := by
    intro l
    induction l with
    | nil => exact fun _ _ h => h
    | cons x l ih =>
      intro t hl ht
      refine ih _ (fun y hy => hl y (List.mem_cons_of_mem x hy)) ⟨?_, fun i hi e => ?_⟩
      · rw [lane_congr (congrArg Lne.lanes (laneUp_lne q x.1 x.2 t)), lane_modLane_ne (hl x List.mem_cons_self)]
        exact ht.1
      · rw [reserveLane_congr (congrArg Lne.reserves (laneUp_lne q x.1 x.2 t))]
        exact ht.2 i hi e
  exact retiredLane_modPort q _ (kept found s h hn)

/-! ### Lanes on their positions -/

/-- A lane of a port is up on a position. -/
def upOn (q i n : Nat) (s : State) : Prop := (lane s n).port = q ∧ (lane s n).pos = i ∧ (lane s n).state = .l0

theorem upOn_congr {i n : Nat} {s t : State} (h : t.lne.lanes = s.lne.lanes) (up : upOn q i n s) : upOn q i n t := by
  unfold upOn
  rw [lane_congr h]
  exact up

theorem modReserve_lanes (i : Nat) (f : ReserveLane → ReserveLane) (s : State) : (modReserve i f s).lne.lanes = s.lne.lanes := rfl

/-- Distinct lanes that bring-up finds are each up on their positions. -/
theorem lanesUp_upOn (q : Nat) {found : List (Nat × LaneFound)} (distinct : (found.map (fun x => x.2.lane.val)).Nodup) {x : Nat × LaneFound}
    (hx : x ∈ found) (s : State) : upOn q x.1 x.2.lane.val (lanesUp q found s) := by
  have kept : ∀ (l : List (Nat × LaneFound)) (t : State), (∀ y ∈ l, x.2.lane.val ≠ y.2.lane.val) → upOn q x.1 x.2.lane.val t →
      upOn q x.1 x.2.lane.val (forAll l (fun y => laneUp q y.1 y.2) t) := by
    intro l
    induction l with
    | nil => exact fun _ _ h => h
    | cons y l ih =>
      intro t hl ht
      refine ih _ (fun z hz => hl z (List.mem_cons_of_mem y hz)) ?_
      unfold upOn at ht ⊢
      rw [lane_congr (congrArg Lne.lanes (laneUp_lne q y.1 y.2 t)), lane_modLane_ne (hl y List.mem_cons_self)]
      exact ht
  have placed : ∀ (l : List (Nat × LaneFound)) (t : State), (l.map (fun y => y.2.lane.val)).Nodup → x ∈ l →
      upOn q x.1 x.2.lane.val (forAll l (fun y => laneUp q y.1 y.2) t) := by
    intro l
    induction l with
    | nil => exact fun _ _ h => absurd h List.not_mem_nil
    | cons y l ih =>
      intro t hd hm
      obtain ⟨fresh, hd⟩ := List.nodup_cons.mp hd
      obtain rfl | hm := List.mem_cons.mp hm
      · refine kept l _ (fun z hz e => fresh (List.mem_map.mpr ⟨z, hz, e.symm⟩)) ?_
        unfold upOn
        rw [lane_congr (congrArg Lne.lanes (laneUp_lne q x.1 x.2 t)), lane_modLane_same x.2.lane.isLt]
        exact ⟨rfl, rfl, rfl⟩
      · exact ih _ hd hm
  exact placed found s distinct hx

/-- A position is served when a lane in service is on it. -/
theorem servingLane_ne {i : Nat} (h : ∃ n ∈ portLanes s q, (lane s n).pos = i) : servingLane s q i ≠ 0x1F := by
  obtain ⟨n, hn, hp⟩ := h
  unfold servingLane
  obtain ⟨m, hm⟩ := Option.isSome_iff_exists.mp (List.find?_isSome.mpr ⟨n, hn, beq_iff_eq.mpr hp⟩ :
    ((portLanes s q).find? (fun n => (lane s n).pos == i)).isSome)
  have lt : m < 29 := (mem_portLanes.mp (List.mem_of_find?_eq_some hm)).1
  rw [hm, Option.getD_some]
  omega

theorem deadPositions_nil (h : ∀ i < positions q, ∃ n ∈ portLanes s q, (lane s n).pos = i) : deadPositions s q = [] :=
  List.filter_eq_nil_iff.mpr fun i hi => by
    rw [beq_iff_eq]
    exact servingLane_ne (h i (List.mem_range.mp hi))

/-- Lanes found that are all those wanted, and no more. -/
theorem foundAll_perm {want : List Nat} {found : List LaneFound} (distinct : want.Nodup) (h : foundAll want found = true) :
    (found.map (·.lane.val)).Perm want := by
  unfold foundAll at h
  obtain ⟨len, all⟩ := Bool.and_eq_true_iff.mp h
  have sub : want ⊆ found.map (·.lane.val) := fun n hn => by simpa using List.all_eq_true.mp all n hn
  exact ((distinct.subperm sub).perm_of_length_le (by simpa using (beq_iff_eq.mp len).le)).symm

/-! ### Lane swaps that end (R249) -/

theorem l0Reached_rows (q : Nat) (s : State) :
    (l0Reached q s).lne.lanes = s.lne.lanes ∧ (l0Reached q s).lne.reserves = s.lne.reserves := by
  have noted (u : State) : (if q = 2 ∨ q = 3 then u.modNbr (q - 2) (fun b => { b with l0Since := u.time.tb1 })
      else if q < 2 then u.modTim (fun t => { t with ports := vmod t.ports q (fun p => { p with listening := true }) }) else u).lne = u.lne := by
    split_ifs <;> rfl
  have risen (u : State) (us : Nat) : ((u.setFld (Reg.LNE_PORT_STATUS q) 13 0 us).raise Reg.LNE_INT_STATUS 0).lne = u.lne :=
    (State.raise_lne ..).trans (State.setFld_lne ..)
  unfold l0Reached; dsimp only
  obtain h | h := backInService_lne q _
  · rw [h, noted, risen]
    exact ⟨rfl, rfl⟩
  · rw [h]
    refine ⟨(congrArg Lne.lanes ((noted _).trans (risen ..))).trans ?_, (congrArg Lne.reserves ((noted _).trans (risen ..))).trans ?_⟩ <;> rfl

theorem l0Reached_flag {b : Nat} (hb : b < 32) (q : Nat) {s : State} (h : s.bit Reg.LNE_INT_STATUS b = true) :
    (l0Reached q s).bit Reg.LNE_INT_STATUS b = true := by
  have noted (u : State) : (if q = 2 ∨ q = 3 then u.modNbr (q - 2) (fun b => { b with l0Since := u.time.tb1 })
      else if q < 2 then u.modTim (fun t => { t with ports := vmod t.ports q (fun p => { p with listening := true }) }) else u).reg
        Reg.LNE_INT_STATUS = u.reg Reg.LNE_INT_STATUS := by
    split_ifs <;> rfl
  have other : Reg.LNE_INT_STATUS ≠ Reg.LNE_PORT_STATUS q := by unfold Reg.LNE_INT_STATUS Reg.LNE_PORT_STATUS; omega
  unfold l0Reached; dsimp only
  rw [State.bit, backInService_reg laneReg_int, noted]
  refine State.bit_raise_of_bit _ hb ?_
  rw [State.bit, State.setFld_reg_ne _ other]
  exact h

section

variable {s : State} {q n rn : Nat} {found : List LaneFound}

/-- The lanes on which a swap that ends leaves the port. -/
def swapLanes (q : Nat) (found : List LaneFound) (n rn : Nat) (s : State) : State :=
  lanesUp q ((livePositions s q (lane s rn).pos).zip found) (retireLane n s)

/-- A lane swap has ended, before the port is in L0. -/
def swapEnded (q : Nat) (found : List LaneFound) (n rn : Nat) (s : State) : State :=
  let s := (swapLanes q found n rn s).modPort q (fun p => { p with swap := none })
  let s := modReserve ((reserveOf rn).getD 0) (fun r => { r with pos := (lane s rn).pos }) s
  let s := s.raise Reg.LNE_INT_STATUS 3
  let s := if (if q < 2 then [0, 1] else [2, 3]).any (fun i => (reserveLane s i).spare) then s else s.reserveLow
  let s := engageReserve (if q < 2 then 3 else 4) s
  if q = 2 ∨ q = 3 then s.modNbr (q - 2) (fun b => { b with swap := false }) else s

theorem laneSwapDone_eq (runs : (port s q).swap = some (n, rn)) (all : foundAll (rn :: (portLanes s q).filter (· != n)) found = true)
    (close : skewBad q found = false) : laneSwapDone q found s = match deadPositions (swapEnded q found n rn s) q with
      | [] => reachL0 q (swapEnded q found n rn s)
      | pos :: _ => fillDead q pos (swapEnded q found n rn s) := by
  unfold laneSwapDone
  rw [runs]
  dsimp only
  rw [if_neg (by simp [all]), if_neg (by simp [close])]
  rfl

/-- The reserve is counted, recorded and raised, beside the rows of the port and of the reserve. -/
theorem swapEnded_shows (q : Nat) (found : List LaneFound) (n rn : Nat) (s : State) :
    let u := (swapLanes q found n rn s).modPort q (fun p => { p with swap := none })
    (swapEnded q found n rn s).lne = (modReserve ((reserveOf rn).getD 0) (fun r => { r with pos := (lane u rn).pos }) u).lne ∧
    (swapEnded q found n rn s).bit Reg.LNE_INT_STATUS 3 = true := by
  intro u
  have last (v : State) : (if q = 2 ∨ q = 3 then v.modNbr (q - 2) (fun b => { b with swap := false }) else v).lne = v.lne ∧
      (if q = 2 ∨ q = 3 then v.modNbr (q - 2) (fun b => { b with swap := false }) else v).reg Reg.LNE_INT_STATUS = v.reg Reg.LNE_INT_STATUS := by
    split <;> exact ⟨rfl, rfl⟩
  have low (v : State) (c : Bool) : (if c then v else v.reserveLow).lne = v.lne ∧
      (v.bit Reg.LNE_INT_STATUS 3 = true → (if c then v else v.reserveLow).bit Reg.LNE_INT_STATUS 3 = true) := by
    split
    · exact ⟨rfl, id⟩
    · exact ⟨State.raise_lne .., State.bit_raise_of_bit v (by decide)⟩
  have counted (v : State) (r : Nat) : (engageReserve r v).lne = v.lne ∧ (engageReserve r v).reg Reg.LNE_INT_STATUS = v.reg Reg.LNE_INT_STATUS :=
    have K := engageReserve_keeps (r := r) (L := fun p => decide (p ∈ [Part.glb, .nvs])) rfl rfl (Kept.refl _ v)
    ⟨K.lne rfl, K.reg rfl _⟩
  unfold swapEnded; dsimp only
  refine ⟨(last _).1.trans ((counted _ _).1.trans ((low _ _).1.trans (State.raise_lne ..))), ?_⟩
  rw [State.bit, (last _).2, (counted _ _).2]
  exact (low _ _).2 (State.bit_raise _ (present_lneInt _) (by decide))

theorem laneSwapDone_flag (runs : (port s q).swap = some (n, rn)) (all : foundAll (rn :: (portLanes s q).filter (· != n)) found = true)
    (close : skewBad q found = false) : (laneSwapDone q found s).bit Reg.LNE_INT_STATUS 3 = true := by
  have ended := (swapEnded_shows q found n rn s).2
  rw [laneSwapDone_eq runs all close]
  split
  · rw [reachL0_eq]
    exact ((faultRegs_closed _).runFailures (.refl _)).flag 3 (by decide) (l0Reached_flag (by decide) q ended)
  · exact ((faultRegs_closed _).fillDead q _ (.refl _)).flag 3 (by decide) ended

theorem wanted_nodup (runs : (port s q).swap = some (n, rn)) : (rn :: (portLanes s q).filter (· != n)).Nodup := by
  refine List.nodup_cons.mpr ⟨fun h => ?_, (List.nodup_range.filter _).filter _⟩
  have own := (mem_portLanes.mp (List.mem_filter.mp h).1).2.2.2
  rw [Port.newcomer, runs] at own
  exact own rfl

/-- The lanes found at the end of a swap are those in service without the failed one, and the reserve. -/
theorem swapFound_perm (runs : (port s q).swap = some (n, rn)) (all : foundAll (rn :: (portLanes s q).filter (· != n)) found = true) :
    (found.map (·.lane.val)).Perm (rn :: (portLanes s q).filter (· != n)) :=
  foundAll_perm (wanted_nodup runs) all

theorem laneSwapDone_retired (runs : (port s q).swap = some (n, rn)) (all : foundAll (rn :: (portLanes s q).filter (· != n)) found = true)
    (close : skewBad q found = false) (hn : n < 29) (other : n ≠ rn) : (lane (laneSwapDone q found s) n).state = .retired := by
  have missing : ∀ x ∈ (livePositions s q (lane s rn).pos).zip found, n ≠ x.2.lane.val := by
    rintro ⟨i, k⟩ hx e
    have mem : n ∈ found.map (·.lane.val) := List.mem_map.mpr ⟨k, (List.of_mem_zip hx).2, e.symm⟩
    obtain h | h := List.mem_cons.mp ((swapFound_perm runs all).mem_iff.mp mem)
    · exact other h
    · simpa using (List.mem_filter.mp h).2
  have lanes : retiredLane n (swapLanes q found n rn s) := retiredLane_lanesUp q missing (retireLane_retired hn s)
  have ended : retiredLane n (swapEnded q found n rn s) :=
    retiredLane_of_position (swapEnded_shows q found n rn s).1 (retiredLane_modPort q _ lanes)
  rw [laneSwapDone_eq runs all close]
  split
  · rw [reachL0_eq]
    obtain ⟨lanes, reserves⟩ := l0Reached_rows q (swapEnded q found n rn s)
    exact ((retiredLane_closed n).runFailures (retiredLane_congr lanes reserves ended)).1
  · exact ((retiredLane_closed n).fillDead q _ ended).1

/-- With every position live, each lane found is up on its own. -/
theorem swapEnded_whole (runs : (port s q).swap = some (n, rn)) (all : foundAll (rn :: (portLanes s q).filter (· != n)) found = true)
    (hq : q < 5) (whole : found.length = positions q) (live : (livePositions s q (lane s rn).pos).length = positions q) :
    deadPositions (swapEnded q found n rn s) q = [] := by
  have every : livePositions s q (lane s rn).pos = List.range (positions q) := by
    unfold livePositions at live ⊢
    exact List.filter_eq_self.mpr (List.length_filter_eq_length_iff.mp (live.trans List.length_range.symm))
  have rows := (swapEnded_shows q found n rn s).1
  have distinct : (((List.range (positions q)).zip found).map (fun x => x.2.lane.val)).Nodup := by
    have second : ((List.range (positions q)).zip found).map Prod.snd = found :=
      List.map_snd_zip (by rw [whole, List.length_range])
    rw [show (fun x : Nat × LaneFound => x.2.lane.val) = (·.lane.val) ∘ Prod.snd from rfl, ← List.map_map, second]
    exact (swapFound_perm runs all).nodup_iff.mpr (wanted_nodup runs)
  have free : (port (swapEnded q found n rn s) q).swap = none := by
    rw [port_congr (congrArg Lne.ports rows)]
    exact congrArg Port.swap (port_modPort_same hq _ _)
  refine deadPositions_nil fun i hi => ?_
  have inZip : (i, found[i]'(by omega)) ∈ (List.range (positions q)).zip found :=
    List.mem_iff_getElem.mpr ⟨i, by simp [whole, hi], by simp⟩
  have up : upOn q i (found[i]'(by omega)).lane.val (swapLanes q found n rn s) := by
    rw [swapLanes, every]
    exact lanesUp_upOn q distinct inZip (retireLane n s)
  have shown : upOn q i (found[i]'(by omega)).lane.val (swapEnded q found n rn s) :=
    upOn_congr ((congrArg Lne.lanes rows).trans (modReserve_lanes ..)) up
  obtain ⟨hport, hpos, hstate⟩ := shown
  refine ⟨_, mem_portLanes.mpr ⟨(found[i]'(by omega)).lane.isLt, hport, by rw [hstate]; decide, ?_⟩, hpos⟩
  rw [Port.newcomer, free]
  exact Nat.ne_of_lt ((found[i]'(by omega)).lane.isLt.trans (by decide))

end

end

end Sys2Proof.Machine
end

section
/-!
SUPPORT. Suspect and failed lanes, loopbacks that end, the counts of a second, the fold reserves, taps and tests (R238, R241, R246 to R252),
and the statement on lanes.
-/

namespace Sys2Proof.Machine

/-! ### Lane swaps that end (R249) -/

section

variable {s : State} {q n rn : Nat} {found : List LaneFound}

theorem swapEnded_waiting (q : Nat) (found : List LaneFound) (n rn : Nat) (s : State) :
    (swapEnded q found n rn s).lne.waiting = s.lne.waiting := by
  have modified (i : Nat) (g : ReserveLane → ReserveLane) (f : Port → Port) (u : State) :
      (modReserve i g (u.modPort q f)).lne.waiting = u.lne.waiting := rfl
  rw [(swapEnded_shows q found n rn s).1, modified, swapLanes, lanesUp_waiting, (retireLane_rows n s).2]

/-- The swap is over, and of the rest of the port the map of its lanes changes alone. -/
theorem swapEnded_port (hq : q < 5) (found : List LaneFound) (n rn : Nat) (s : State) :
    ∃ m r, port (swapEnded q found n rn s) q = { port s q with map := m, reversed := r, swap := none } := by
  obtain ⟨m, r, h⟩ := lanesUp_port hq ((livePositions s q (lane s rn).pos).zip found) (retireLane n s)
  have modified (i : Nat) (g : ReserveLane → ReserveLane) (u : State) : port (modReserve i g u) q = port u q := rfl
  refine ⟨m, r, ?_⟩
  rw [port_congr (congrArg Lne.ports (swapEnded_shows q found n rn s).1), modified, port_modPort_same hq, swapLanes, h,
    port_congr (retireLane_rows n s).1]

/-- With every position live and no failure waiting, the port is in L0. -/
theorem laneSwapDone_whole (runs : (port s q).swap = some (n, rn)) (all : foundAll (rn :: (portLanes s q).filter (· != n)) found = true)
    (close : skewBad q found = false) (hq : q < 5) (whole : found.length = positions q)
    (live : (livePositions s q (lane s rn).pos).length = positions q) (none : s.lne.waiting = []) :
    (port (laneSwapDone q found s) q).swap = .none ∧ (port (laneSwapDone q found s) q).state = l0State (port s q) := by
  obtain ⟨m, r, shown⟩ := swapEnded_port hq found n rn s
  obtain ⟨state, -, -, kept⟩ := l0Reached_shows hq (swapEnded q found n rn s)
  rw [laneSwapDone_eq runs all close, swapEnded_whole runs all hq whole live]
  dsimp only
  rw [reachL0_quiet ((swapEnded_waiting ..).trans none) hq, kept.swap, state, shown]
  exact ⟨rfl, rfl⟩

/-! ### Lanes that fail (R241, R248) -/

/-- Lanes have shown signal and lock, or their loss, and no more. -/
structure LanesMarked (s t : State) : Prop where
  rows : t.lne = { s.lne with lanes := t.lne.lanes }
  reg : ∀ a, t.reg a = s.reg a
  lanes : ∀ m, (lane t m).port = (lane s m).port ∧ (lane t m).state = (lane s m).state

theorem LanesMarked.refl (s : State) : LanesMarked s s := ⟨rfl, fun _ => rfl, fun _ => ⟨rfl, rfl⟩⟩

theorem LanesMarked.modLane {s t : State} (h : LanesMarked s t) (n : Nat) {f : Lane → Lane} (hf : ∀ l, (f l).port = l.port ∧ (f l).state = l.state) :
    LanesMarked s (t.modLane n f) :=
  ⟨by rw [State.modLane_lne, h.rows], h.reg, fun m => by
    obtain ⟨hp, hs⟩ := lane_modLane_of (P := fun x y => y.port = x.port ∧ y.state = x.state) (fun _ => ⟨rfl, rfl⟩) (hf (lane t n)) m
    exact ⟨hp.trans (h.lanes m).1, hs.trans (h.lanes m).2⟩⟩

theorem LanesMarked.port {s t : State} (h : LanesMarked s t) (q : Nat) : port t q = port s q := port_congr (by rw [h.rows]) q

theorem LanesMarked.fails {s t : State} (h : LanesMarked s t) (now : failsNow s n) : laneTaken s (laneFail n t) n := by
  obtain ⟨-, live, quiet, -⟩ := id now
  exact laneFail_taken ⟨(h.lanes n).1, by rw [(h.lanes n).2]; exact live, fun q => by rw [h.port]; exact ⟨rfl, rfl, rfl⟩, by rw [h.rows], h.reg _⟩
    (by rw [h.rows]; exact quiet) now

theorem suspectLane_taken {step : Nat} (hn : n < 29) (train : (lane s n).state = .train) (training : (port s (lane s n).port).state = .training)
    (runs : (port s (lane s n).port).paused = false) (now : failsNow s n) : laneTaken s (suspectLane n step s) n := by
  obtain ⟨small, -, -, alone, -⟩ := id now
  have old : (port s (lane s n).port).newcomer ≠ n := by
    rw [Port.newcomer, alone]
    exact Nat.ne_of_gt (hn.trans (by decide))
  unfold suspectLane; dsimp only
  rw [if_neg (by simp [train, training, runs, small]), if_neg old]
  have marked : LanesMarked s (forAll ((portLanes s (lane s n).port).filter (· != n)) (fun k s => s.modLane k (fun l => { l with
      sig := true, cdr := l.cdr || decide (step ≥ 2) })) s) :=
    forAll_induct (P := LanesMarked s) (fun k _ h => h.modLane k (by intro; exact ⟨rfl, rfl⟩)) _ (.refl s)
  exact (marked.modLane n (by intro; exact ⟨rfl, rfl⟩)).fails now

/-- The loss of lock is noted with its time. -/
theorem cdrLoss_noted (n : Fin 29) (long : Bool) (off : (lane s n).state ≠ .l0) : (lane (cdrLoss n long s) n).cdr = ((lane s n).cdr && !long) ∧
    (lane (cdrLoss n long s) n).losses.getLast? = some s.time.tb1 ∧ changedOnly [.lne] s (cdrLoss n long s) := by
  unfold cdrLoss; dsimp only
  rw [if_neg (by simp [off]), lane_modLane_same n.isLt]
  exact ⟨rfl, by simp, (modLane_keeps rfl (Kept.refl _ s)).changedOnly⟩

theorem cdrLoss_taken (up : (lane s n).state = .l0) (now : failsNow s n) : laneTaken s (cdrLoss n true s) n := by
  unfold cdrLoss; dsimp only
  rw [if_pos ⟨up, .inl rfl⟩]
  exact ((LanesMarked.refl s).modLane n (by intro; exact ⟨rfl, rfl⟩)).fails now

theorem swapLane_refused (h : (lane s n).state ≠ .l0 ∨ 4 ≤ (lane s n).port ∨ firstReserve s (lane s n).port = none) :
    swapLane n s = s.refusedWrite (Reg.LNE_LANE_CTRL n) := by
  refine if_neg ?_
  rintro ⟨up, small, free⟩
  obtain h | h | h := h
  · exact h up
  · omega
  · rw [h] at free; cases free

theorem swapLane_taken (up : (lane s n).state = .l0) (free : (firstReserve s (lane s n).port).isSome) (now : failsNow s n) :
    laneTaken s (swapLane n s) n := by
  rw [swapLane, if_pos ⟨up, now.1, free⟩]
  exact (LanesMarked.refl s).fails now

/-! ### Loopbacks that end (R251) -/

theorem loopbackDone_shows {q : Fin 5} (pass : Bool) (looped : (port s q).loopback = some n) :
    port (loopbackDone q pass s) q = { port s q with loopback := none, external := pass } ∧
      (pass = true → changedOnly [.lne] s (loopbackDone q pass s)) ∧
      (pass = false → n < 29 → (lane (loopbackDone q pass s) n).state = .retired) := by
  have recorded (u : State) : (writeReserveMap [] u).lne = u.lne :=
    (writeReserveMap_keeps (L := fun p => decide (p ∈ [Part.nvs])) rfl (Kept.refl _ u)).lne rfl
  unfold loopbackDone
  rw [looped]
  dsimp only
  cases pass with
  | true => exact ⟨port_modPort_same q.isLt _ _, fun _ => (modPort_keeps rfl (Kept.refl _ s)).changedOnly, nofun⟩
  | false =>
    rw [if_neg (by decide)]
    refine ⟨?_, nofun, fun _ hn => ?_⟩
    · rw [port_congr (congrArg Lne.ports (recorded _)), port_congr (retireLane_rows ..).1, port_modPort_same q.isLt]
    · rw [lane_congr (congrArg Lne.lanes (recorded _))]
      exact (retireLane_retired hn _).1

/-! ### Seconds (R248, R252) -/

theorem State.addReg_reg (a n : Nat) (s : State) : (s.addReg a n).reg a = BitVec.ofNat 32 (satAdd 0xFFFFFFFF (s.reg a).toNat n) := by
  rw [State.addReg, State.reg_setReg, if_pos rfl]

/-- A test counts its errors and shows its lock; another lane counts its symbol errors. -/
theorem laneSecond_counts (k : LaneErrors) (s : State) : if (lane s k.lane).state = .test then
      (laneSecond k s).reg (Reg.LNE_PRBS_ERR k.lane) = BitVec.ofNat 32 (satAdd 0xFFFFFFFF (s.reg (Reg.LNE_PRBS_ERR k.lane)).toNat k.errors) ∧
        (lane (laneSecond k s) k.lane).prbsLock = k.prbsLock
    else (laneSecond k s).reg (Reg.LNE_SYM_ERR k.lane) =
      BitVec.ofNat 32 (satAdd 0xFFFFFFFF (s.reg (Reg.LNE_SYM_ERR k.lane)).toNat k.errors) := by
  unfold laneSecond; dsimp only
  split
  · exact ⟨State.addReg_reg .., by rw [lane_modLane_same k.lane.isLt]⟩
  · have other : ¬ faultReg (Reg.LNE_SYM_ERR k.lane) := by
      unfold faultReg Reg.LNE_SYM_ERR Reg.LNE_INT_STATUS Reg.GLB_INT_STATUS Reg.GLB_LOG_LOST Reg.LNE_TEST_CTRL Reg.LNE_PORT_EVENT
      rintro (h | h | h | ⟨_, h⟩ | ⟨_, h⟩) <;> omega
    split
    · rw [((faultRegs_closed _).laneFail _ (.refl _)).reg _ other]
      exact State.addReg_reg ..
    · exact State.addReg_reg ..

/-- A port counts its corrected and its uncorrectable codewords, whatever it does about them. -/
theorem portSecond_counts (k : PortErrors) (s : State) (own : k.port.val < 4) :
    (portSecond k s).reg (Reg.LNE_CW_CORR k.port) =
      BitVec.ofNat 32 (satAdd 0xFFFFFFFF (s.reg (Reg.LNE_CW_CORR k.port)).toNat k.corrected) ∧
    (portSecond k s).reg (Reg.LNE_CW_UNCORR k.port) =
      BitVec.ofNat 32 (satAdd 0xFFFFFFFF (s.reg (Reg.LNE_CW_UNCORR k.port)).toNat k.uncorrectable) := by
  have apart : Reg.LNE_CW_CORR k.port ≠ Reg.LNE_CW_UNCORR k.port := by unfold Reg.LNE_CW_CORR Reg.LNE_CW_UNCORR; omega
  have counted : ((s.addReg (Reg.LNE_CW_CORR k.port) k.corrected).addReg (Reg.LNE_CW_UNCORR k.port) k.uncorrectable).reg (Reg.LNE_CW_CORR k.port) =
        BitVec.ofNat 32 (satAdd 0xFFFFFFFF (s.reg (Reg.LNE_CW_CORR k.port)).toNat k.corrected) ∧
      ((s.addReg (Reg.LNE_CW_CORR k.port) k.corrected).addReg (Reg.LNE_CW_UNCORR k.port) k.uncorrectable).reg (Reg.LNE_CW_UNCORR k.port) =
        BitVec.ofNat 32 (satAdd 0xFFFFFFFF (s.reg (Reg.LNE_CW_UNCORR k.port)).toNat k.uncorrectable) := by
    rw [State.addReg_reg_ne _ apart, State.addReg_reg, State.addReg_reg, State.addReg_reg_ne _ apart.symm]
    exact ⟨rfl, rfl⟩
  have notFault : ¬ faultReg (Reg.LNE_CW_CORR k.port) ∧ ¬ faultReg (Reg.LNE_CW_UNCORR k.port) := by
    unfold faultReg Reg.LNE_CW_CORR Reg.LNE_CW_UNCORR Reg.LNE_INT_STATUS Reg.GLB_INT_STATUS Reg.GLB_LOG_LOST Reg.LNE_TEST_CTRL Reg.LNE_PORT_EVENT
    constructor <;> rintro (h | h | h | ⟨_, h⟩ | ⟨_, h⟩) <;> omega
  have noted (u : State) : ∀ a, a = Reg.LNE_CW_CORR k.port ∨ a = Reg.LNE_CW_UNCORR k.port →
      ((u.viol 3 k.port 5 0).raise Reg.LNE_INT_STATUS 5).reg a = u.reg a := by
    intro a ha
    have far : a ≠ Reg.LNE_INT_STATUS ∧ a ≠ Reg.GLB_INT_STATUS ∧ a ≠ Reg.GLB_LOG_LOST ∧ a ≠ Reg.GLB_VIOL 3 (5 / 2) := by
      unfold Reg.LNE_CW_CORR Reg.LNE_CW_UNCORR at ha
      unfold Reg.LNE_INT_STATUS Reg.GLB_INT_STATUS Reg.GLB_LOG_LOST Reg.GLB_VIOL
      omega
    obtain ⟨h1, h2, h3, h4⟩ := far
    rw [State.raise_reg_ne _ h1]
    exact State.viol_reg u h2 h3 h4
  unfold portSecond; dsimp only
  rw [if_neg (by omega)]
  split
  · rw [(bringUp_faultRegs _ _).reg _ notFault.1, (bringUp_faultRegs _ _).reg _ notFault.2]
    exact counted
  · split
    · rw [(bringUp_faultRegs _ _).reg _ notFault.1, (bringUp_faultRegs _ _).reg _ notFault.2]
      rw [State.modPort_reg, State.modPort_reg, noted _ _ (.inl rfl), noted _ _ (.inr rfl)]
      exact counted
    · exact counted

/-! ### Fold reserves (R247) -/

/-- A reserve that has trained shows where it is wired, and a port that takes it leaves that so. -/
theorem discovery_wired (i : Fin 2) (w : WiredTo)
    (h : ¬ (¬ s.bit Reg.LNE_CFG 1 = true ∨ s.cas.role = 0 ∨ s.pwr.stage < 2 ∨ (reserveLane s (i.val + 2)).state ≠ 0)) :
    (reserveLane (discovery (i.val + 2) w s) (i.val + 2)).wired = (match w with | .fl0 _ => 1 | .fl1 _ => 2 | .nothing => 3) := by
  have found (f : ReserveLane → ReserveLane) : reserveLane (laneTo (reserveNumber (i.val + 2)) .l2 (modReserve (i.val + 2) f s)) (i.val + 2) =
      f (reserveLane s (i.val + 2)) :=
    (reserveLane_modReserve ..).trans (if_pos ⟨rfl, by omega⟩)
  have filled (q pos : Nat) (u : State) (j : Nat) : (reserveLane (fillDead q pos u) j).wired = (reserveLane u j).wired :=
    (wiredKept_closed u).fillDead q pos (fun _ => rfl) j
  unfold discovery
  rw [if_neg h]
  cases w <;> dsimp only <;> split
  case fl0.isTrue | fl1.isTrue | nothing.isTrue => rw [found]
  case nothing.isFalse out => exact absurd (.inl rfl) out
  case fl0.isFalse | fl1.isFalse =>
    split
    · rw [filled, found]
    · rw [found]

/-! ### Taps (R238) -/

/-- Whether a lane's mode has link training does not depend on its taps. -/
theorem lineTrains_setFld (s : State) (n hi lo v : Nat) (m : Nat) : lineTrains (s.setFld (Reg.LNE_TX_EQ n) hi lo v) m = lineTrains s m := by
  have lanes : lane (s.setFld (Reg.LNE_TX_EQ n) hi lo v) m = lane s m := lane_congr (by rw [State.setFld_lne]) m
  have cfg (q : Nat) (hq : q ≤ 4) : (s.setFld (Reg.LNE_TX_EQ n) hi lo v).fld (Reg.LNE_PORT_CFG q) 1 0 = s.fld (Reg.LNE_PORT_CFG q) 1 0 :=
    State.fld_setFld_ne s _ _ _ _ _ (by unfold Reg.LNE_PORT_CFG Reg.LNE_TX_EQ; omega)
  unfold lineTrains; dsimp only
  rw [lanes, cfg 4 (by decide)]
  split
  · rw [cfg _ (by omega)]
  · rfl

theorem txEqWrite_refused {w : Word} (high : tapSum w > 63) :
    let t := txEqWrite n w s
    t.fld (Reg.LNE_TX_EQ n) 31 31 = 1 ∧ t.fld (Reg.LNE_TX_EQ n) 23 4 = s.fld (Reg.LNE_TX_EQ n) 23 4 ∧
      t.bit Reg.LNE_INT_STATUS 8 = true ∧ t.lne = s.lne := by
  intro t
  have marked : t = (s.setFld (Reg.LNE_TX_EQ n) 31 31 1).raise Reg.LNE_INT_STATUS 8 := if_pos high
  have other : Reg.LNE_TX_EQ n ≠ Reg.LNE_INT_STATUS := by unfold Reg.LNE_TX_EQ Reg.LNE_INT_STATUS; omega
  have row (hi lo : Nat) : t.fld (Reg.LNE_TX_EQ n) hi lo = (s.setFld (Reg.LNE_TX_EQ n) 31 31 1).fld (Reg.LNE_TX_EQ n) hi lo := by
    rw [marked, State.fld, State.raise_reg_ne _ other]
    rfl
  refine ⟨?_, ?_, ?_, ?_⟩
  · rw [row]; exact State.fld_setFld s _ 1 (by decide) (by decide)
  · rw [row]; exact State.fld_setFld_below s _ 1 (by decide) (by decide) (by decide) (by decide)
  · rw [marked]; exact State.bit_raise _ (present_lneInt _) (by decide)
  · rw [marked, State.raise_lne, State.setFld_lne]

theorem txEqWrite_stores {w : Word} (hn : n < 29) (fits : tapSum w ≤ 63) :
    let t := txEqWrite n w s
    t.fld (Reg.LNE_TX_EQ n) 31 31 = 0 ∧
      (if lineTrains s n then (lane t n).preset = fld w 23 4 else t.fld (Reg.LNE_TX_EQ n) 23 4 = fld w 23 4) := by
  have clear : (s.setFld (Reg.LNE_TX_EQ n) 31 31 0).fld (Reg.LNE_TX_EQ n) 31 31 = 0 := State.fld_setFld s _ 0 (by decide) (by decide)
  intro t
  have stored : t = if lineTrains s n then (s.setFld (Reg.LNE_TX_EQ n) 31 31 0).modLane n (fun l => { l with preset := fld w 23 4 })
      else (s.setFld (Reg.LNE_TX_EQ n) 31 31 0).setFld (Reg.LNE_TX_EQ n) 23 4 (fld w 23 4) := by
    rw [← lineTrains_setFld s n 31 31 0]
    exact if_neg (by omega)
  rw [stored]
  split
  · exact ⟨clear, congrArg Lane.preset (lane_modLane_same hn _ _)⟩
  · exact ⟨(State.fld_setFld_above _ _ _ (by decide) (by decide) (by decide)).trans clear,
      (State.fld_setFld _ _ _ (by decide) (by decide)).trans (Nat.mod_eq_of_lt (fld_lt w 23 4))⟩

/-! ### Tests (R246) -/

theorem lanesIn_ne_test (st : PortState) : lanesIn st ≠ .test := by cases st <;> decide

theorem testOn_shows (hn : n < 29) (s : State) : (lane (testOn n s) n).prbsLock = false ∧ (lane (testOn n s) n).state = .test := by
  have begun : lane (s.modLane n (fun l => { l with state := .test, prbsLock := false })) n = { lane s n with state := .test, prbsLock := false } :=
    lane_modLane_same hn _ s
  have shown : lane (testOn n s) n = { lane s n with state := .test, prbsLock := false } := by
    unfold testOn; dsimp only
    split
    · split <;> exact begun
    · exact begun
  rw [shown]
  exact ⟨rfl, rfl⟩

theorem testOff_shows (hn : n < 29) (s : State) : (lane (testOff n s) n).prbsLock = false ∧ (lane (testOff n s) n).state ≠ .test := by
  have ended : lane (s.modLane n (fun l => { l with prbsLock := false })) n = { lane s n with prbsLock := false } := lane_modLane_same hn _ s
  have left (u : State) (hu : lane u n = { lane s n with prbsLock := false }) (st : LaneState) (hst : st ≠ .test) :
      (lane (laneTo n st u) n).prbsLock = false ∧ (lane (laneTo n st u) n).state ≠ .test := by
    rw [lane_laneTo, if_pos ⟨rfl, hn⟩, hu]
    exact ⟨rfl, hst⟩
  unfold testOff; dsimp only
  split
  next off => exact ⟨by rw [ended], off⟩
  next =>
    split
    · split
      · exact left _ ended _ (by decide)
      · exact left _ ended _ (lanesIn_ne_test _)
    · exact left _ ended _ (lanesIn_ne_test _)

theorem testWrite_refused {w : Word} (on : bitOf w 31 = true) (no : testable s n = false) :
    testWrite n w s = s.refusedWrite (Reg.LNE_TEST_CTRL n) := if_pos ⟨on, by simp [no]⟩

theorem testWrite_stores {w : Word} (hn : n < 29) (may : bitOf w 31 = false ∨ testable s n = true) :
    let t := testWrite n w s
    t.reg (Reg.LNE_TEST_CTRL n) = w &&& 0x80000003 ∧ (lane t n).prbsLock = false ∧ ((lane t n).state = .test ↔ bitOf w 31 = true) ∧
      regsBut [Reg.LNE_TEST_CTRL n] s t ∧ changedOnly [.regs, .lne] s t := by
  intro t
  have stored : t = if bitOf w 31 then testOn n (s.setReg (Reg.LNE_TEST_CTRL n) (w &&& 0x80000003))
      else testOff n (s.setReg (Reg.LNE_TEST_CTRL n) (w &&& 0x80000003)) :=
    if_neg (by rintro ⟨on, no⟩; obtain h | h := may <;> simp_all)
  have kept : Kept (fun p => decide (p ∈ [Part.lne])) (s.setReg (Reg.LNE_TEST_CTRL n) (w &&& 0x80000003)) t := by
    rw [stored]
    split
    · exact testOn_keeps rfl (Kept.refl _ _)
    · exact testOff_keeps rfl (Kept.refl _ _)
  refine ⟨?_, ?_, ?_, fun a ha => ?_, ?_⟩
  · rw [kept.reg rfl, State.reg_setReg, if_pos rfl]
  · rw [stored]
    split
    · exact (testOn_shows hn _).1
    · exact (testOff_shows hn _).1
  · rw [stored]
    split
    next on => exact ⟨fun _ => on, fun _ => (testOn_shows hn _).2⟩
    next off => exact ⟨fun h => absurd h (testOff_shows hn _).2, fun h => absurd h off⟩
  · rw [kept.reg rfl]
    exact State.reg_setReg_ne s _ (by simpa using ha)
  · rw [stored]
    split
    · exact (testOn_keeps rfl (setReg_keeps rfl (Kept.refl _ s))).changedOnly
    · exact (testOff_keeps rfl (setReg_keeps rfl (Kept.refl _ s))).changedOnly

end

/-- Settles O30: each command of the lanes, the reserves, their counts and their tests does what its lemma says. -/
theorem lanesAndReserves : Obligations.LanesAndReserves := by
  unfold Obligations.LanesAndReserves
  refine fun s => ⟨fun n step2 => ⟨_, rfl, ?_, fun train training runs now => suspectLane_taken n.isLt train training runs now⟩,
    fun n long => ⟨_, rfl, cdrLoss_noted n long, fun up hl now => hl ▸ cdrLoss_taken up now⟩,
    fun n => ⟨_, rfl, fun h => State.hosted_not_served h _, fun h => ?_, fun h => ?_⟩,
    fun q found => ⟨_, rfl, fun none => ?_, fun n rn runs => ⟨fun missing => ?_, fun all close =>
      ⟨laneSwapDone_flag runs all close, laneSwapDone_retired runs all close, fun whole live quiet _ =>
        laneSwapDone_whole runs all close q.isLt whole live quiet⟩⟩⟩,
    fun q pass => ⟨_, rfl, fun none => ?_, fun n looped => loopbackDone_shows pass looped⟩,
    fun k => ⟨_, rfl, laneSecond_counts k s⟩, fun k => ⟨_, rfl, portSecond_counts k s⟩, fun i w => ⟨_, rfl, ?_⟩,
    fun n w => ⟨_, rfl, fun h => State.hosted_not_served h _, fun h => ?_, fun h => ?_⟩,
    fun n w => ⟨_, rfl, fun h => State.hosted_not_served h _, fun h => ?_, fun h => ?_⟩⟩
  · rintro (h | h | h | h)
    all_goals exact if_pos (by tauto)
  · rw [State.hosted_served h]; exact swapLane_refused
  · rw [State.hosted_served h]; exact swapLane_taken
  · unfold laneSwapDone; rw [none]
  · unfold laneSwapDone
    rw [runs]
    exact if_pos (by simp [missing])
  · unfold loopbackDone; rw [none]
  · split
    next shut => exact if_pos (by simpa using shut)
    next free => exact discovery_wired i w (by simpa using free)
  · rw [State.hosted_served h]; exact txEqWrite_refused
  · rw [State.hosted_served h]; exact txEqWrite_stores n.isLt
  · rw [State.hosted_served h]; exact testWrite_refused
  · rw [State.hosted_served h]; exact testWrite_stores n.isLt

end Sys2Proof.Machine
end

section
/-!
SUPPORT. Frames and their checks, sections of the downlink and the uplink, substitution, and delay measurement (R252, R258, R260, R264 to
R267), and the statement on sections.
-/

namespace Sys2Proof.Machine

/-! ### What messages to a flock leave of the fronthaul -/

/-- Of the fronthaul, the rows of the flocks change alone. -/
def FlocksOnly (s t : State) : Prop := ∃ fl, t.fhp = { s.fhp with flocks := fl }

section

variable {s t u : State}

theorem FlocksOnly.refl (s : State) : FlocksOnly s s := ⟨_, rfl⟩

theorem FlocksOnly.of_fhp (h : t.fhp = s.fhp) : FlocksOnly s t := ⟨_, h⟩

theorem FlocksOnly.trans (h : FlocksOnly s t) (k : FlocksOnly t u) : FlocksOnly s u := by
  obtain ⟨fl, h⟩ := h
  obtain ⟨fl', k⟩ := k
  exact ⟨fl', by rw [k, h]⟩

theorem flocksOnly_modFlock (k : Nat) (f : FlockSt → FlockSt) (s : State) : FlocksOnly s (s.modFlock k f) := ⟨_, rfl⟩

theorem flocksOnly_post (k port msg tag : Nat) (body : List Byte) (s : State) : FlocksOnly s (s.post k port msg tag body) := by
  unfold State.post; dsimp only
  split
  · exact (flocksOnly_modFlock k _ s).trans (.of_fhp (by rw [State.raise_fhp, State.addLo_fhp]))
  · exact flocksOnly_modFlock k _ s

theorem flocksOnly_flockViol (k cls : Nat) (s : State) : FlocksOnly s (flockViol k cls s) := by
  unfold flockViol; dsimp only
  exact (FlocksOnly.of_fhp (State.viol_fhp ..)).trans ((flocksOnly_modFlock k _ _).trans (.of_fhp (flockEvent_fhp ..)))

theorem flocksOnly_nakViol (k q tag cls msg pcid : Nat) (s : State) : FlocksOnly s (nakViol k q tag cls msg pcid s) :=
  (flocksOnly_post k q 0xFF tag _ s).trans (flocksOnly_flockViol k cls _)

theorem flocksOnly_police (k : Nat) (s : State) : FlocksOnly s (police k s).1 := by
  have counted : FlocksOnly s (s.addHi (Reg.FHP_FLOCK_MSG k) 1) := .of_fhp (State.addHi_fhp ..)
  have twice : FlocksOnly s ((s.addHi (Reg.FHP_FLOCK_MSG k) 1).addLo (Reg.FHP_FLOCK_MSG k) 1) := counted.trans (.of_fhp (State.addLo_fhp ..))
  unfold police; dsimp only
  split
  · exact counted.trans (flocksOnly_modFlock k _ _)
  · split
    · exact twice
    · exact twice.trans ((flocksOnly_modFlock k _ _).trans (flocksOnly_flockViol k _ _))

/-- A violation of a flock changes its count, the log, and registers of the captures alone. -/
theorem flockViol_reg {a k cls : Nat} (int : a ≠ Reg.GLB_INT_STATUS) (lost : a ≠ Reg.GLB_LOG_LOST) (count : a ≠ Reg.GLB_VIOL 1 (cls / 2))
    (captures : a / 0x10000 ≠ 0x10) (s : State) : (flockViol k cls s).reg a = s.reg a := by
  rw [flockViol, flockEvent_reg captures, State.modFlock_reg, State.viol_reg s int lost count]

end

/-! ### Frames (R252, R255) -/

section

variable {s : State} {q : Nat} {fine : Fin 16} {b : List Byte}

/-- A frame that passes the checks is sorted. -/
theorem frameRx_sorted (up : (port s (framePort q)).state = .l0) (low : 60 ≤ b.length) (high : b.length ≤ 9212) (go : etherType b ≠ 0x8808) :
    frameRx q fine b true false s = frameSort q fine b s := by
  unfold frameRx; dsimp only
  rw [if_neg (by simp [up]), if_neg (by decide), if_neg (by decide), if_neg (by omega), if_neg go]

theorem framePort_fronthaul (h : q < 2) : framePort q = q := if_neg (by omega)

theorem frameSort_unknown (own : q < 2) (noPtp : etherType b ≠ 0x88F7) (nobody : etherType b ≠ 0xAEFE ∨ frameFlock s q b = none) :
    frameSort q fine b s = (s.addReg (Reg.FHP_PORT_UNKNOWN q) 1).viol 3 q 6 0 := by
  unfold frameSort; dsimp only
  rw [if_neg (by omega), if_neg noPtp]
  split
  next ecpri =>
    obtain other | nobody := nobody
    · exact absurd ecpri.1 other
    · rw [nobody]
  next => rfl

/-! ### Downlink sections (R260, R265, R266) -/

/-- A section outside its header is answered with class 4, and one of no slot the flock holds with class 3. -/
theorem iqSection_nak {k q pcid : Nat} :
    (badSection b = true → iqSection k q pcid b s = nakViol k q 0 4 0 pcid s) ∧
    (badSection b = false → sectionLayer s k pcid = none → iqSection k q pcid b s = nakViol k q 0 3 0 pcid s) := by
  refine ⟨fun bad => ?_, fun good none => ?_⟩ <;> unfold iqSection <;> dsimp only
  · rw [if_pos bad]
  · rw [if_neg (by simp [good]), none]

theorem enterFabric_ingress (l start : Nat) (c : Carrier) (x : List Cplx) (s : State) :
    (enterFabric l start c x s).fhp.ingress = s.fhp.ingress := rfl

theorem releaseOne_ingress (x : Section) (s : State) : (releaseOne x s).fhp.ingress = s.fhp.ingress := by
  unfold releaseOne
  split
  · split
    · exact enterFabric_ingress ..
    · rfl
  · rfl

theorem sendSections_ingress (xs : List Section) (s : State) : (sendSections xs s).fhp.ingress = s.fhp.ingress := by
  unfold sendSections
  split
  · rfl
  · rw [State.modFhp_fhp]
    dsimp only
    refine congrArg Fhp.ingress ((forAll_keeps (L := fun p => decide (p ∈ [Part.cas])) (fun ci t K => ?_) (Kept.refl _ s)).fhp rfl)
    split
    · exact sendPairs_keeps rfl K
    · exact K

/-- The sections of the earliest deadline leave the ingress store. -/
theorem sectionRelease_ingress {d : Nat} {ds : List Nat} (h : s.fhp.ingress.map (·.deadline) = d :: ds) :
    (sectionRelease s).fhp.ingress = s.fhp.ingress.filter (fun x => x.deadline != ds.foldl min d) := by
  have released (xs : List Section) (u : State) : (forAll xs releaseOne u).fhp.ingress = u.fhp.ingress :=
    forAll_induct (P := fun t => t.fhp.ingress = u.fhp.ingress) (fun x t e => (releaseOne_ingress x t).trans e) xs rfl
  have counted (n : Nat) (u : State) : (if n = 0 then u else (u.addReg Reg.CAS_SUM_SAT n).raise Reg.CAS_INT_STATUS 7).fhp = u.fhp := by
    split
    · rfl
    · rw [State.raise_fhp, State.addReg_fhp]
  unfold sectionRelease
  rw [h]
  dsimp only
  rw [sendSections_ingress, released, counted, State.modFhp_fhp]

/-- The least of a list that is not empty is in it, and not above the rest. -/
theorem foldl_min_spec (d : Nat) (ds : List Nat) : ds.foldl min d ∈ d :: ds ∧ ∀ x ∈ d :: ds, ds.foldl min d ≤ x :=
  List.min?_eq_some_iff.mp (rfl : (d :: ds).min? = some (ds.foldl min d))

theorem sectionRelease_nothing (h : s.fhp.ingress = []) : sectionRelease s = s := by
  unfold sectionRelease
  rw [h]
  rfl

/-- A section stays where one with an earlier deadline is held. -/
theorem mem_sectionRelease {x : Section} : x ∈ (sectionRelease s).fhp.ingress ↔ x ∈ s.fhp.ingress ∧ ∃ y ∈ s.fhp.ingress, y.deadline < x.deadline := by
  cases hd : s.fhp.ingress.map (·.deadline) with
  | nil =>
    have empty := List.map_eq_nil_iff.mp hd
    rw [sectionRelease_nothing empty, empty]
    simp
  | cons d ds =>
    obtain ⟨mem, least⟩ := foldl_min_spec d ds
    rw [← hd] at mem least
    obtain ⟨z, hz, ez⟩ := List.mem_map.mp mem
    have below (hx : x ∈ s.fhp.ingress) : ds.foldl min d ≤ x.deadline := least _ (List.mem_map_of_mem hx)
    rw [sectionRelease_ingress hd, List.mem_filter, bne_iff_ne]
    refine and_congr_right fun hx => ⟨fun other => ⟨z, hz, ?_⟩, ?_⟩
    · have := below hx
      omega
    · rintro ⟨y, hy, lt⟩
      have := least _ (List.mem_map_of_mem hy)
      omega

/-! ### Substitution (R266, R267) -/

/-- A layer's substitution has been counted and raised, before the violation. -/
def substituted (k l air : Nat) (c : Carrier) (s : State) : State :=
  flockEvent k 1 (toTb3 s air) (((s.modFhp (fun f => { f with subst := addSpan s.time.tb0 l air (symbolAfter c air) f.subst })).addLo
    (Reg.FHP_FLOCK_LATE k) 1).raise Reg.FHP_INT_STATUS 5)

section

variable {k l air : Nat} {c : Carrier} {y : LayerCfg}

theorem lateSubst_nothing (held : s.holder false l = none) : lateSubst l s = s := by
  unfold lateSubst; dsimp only
  rw [held]

/-- What substitution of a held layer does. -/
theorem lateSubst_held (held : s.holder false l = some k) (hc : layerCarrier s false l = some c) (hy : s.layer false l = some y)
    (hair : air = s.time.tb0 + downlinkLead * pathPeriod s.pwr.level + stackDelay s) :
    (neededAt s c air = false ∨ insideOf s.fhp.covered l air (air + 1) = true ∨ insideOf s.fhp.subst l air (air + 1) = true →
      lateSubst l s = s) ∧
    (neededAt s c air = true → insideOf s.fhp.covered l air (air + 1) = false → insideOf s.fhp.subst l air (air + 1) = false →
      lateSubst l s = if portUp (substituted k l air c s) y.port then flockViol k 6 (substituted k l air c s) else substituted k l air c s) := by
  unfold lateSubst; dsimp only
  rw [held, hc, hy, ← hair]
  dsimp only
  exact ⟨fun h => if_pos (by simpa using h), fun needed covered subst => if_neg (by simp [needed, covered, subst])⟩

theorem substituted_fhp (k l air : Nat) (c : Carrier) (s : State) :
    (substituted k l air c s).fhp = { s.fhp with subst := addSpan s.time.tb0 l air (symbolAfter c air) s.fhp.subst } := by
  rw [substituted, flockEvent_fhp, State.raise_fhp, State.addLo_fhp, State.modFhp_fhp]

theorem substituted_keeps (k l air : Nat) (c : Carrier) (s : State) :
    Kept (fun p => decide (p ∈ [Part.regs, .fhp, .acq])) s (substituted k l air c s) :=
  flockEvent_keeps rfl rfl (raise_keeps rfl (addLo_keeps rfl (modFhp_keeps rfl (Kept.refl _ s))))

theorem present_fhpInt (o : Order) : absentReg o Reg.FHP_INT_STATUS = false := by cases o <;> rfl

theorem substituted_int (k l air : Nat) (c : Carrier) (s : State) : (substituted k l air c s).bit Reg.FHP_INT_STATUS 5 = true := by
  rw [State.bit, substituted, flockEvent_reg (by decide)]
  exact State.bit_raise _ (present_fhpInt _) (by decide)

theorem substituted_late (hk : k < 8) (l air : Nat) (c : Carrier) (s : State) :
    (substituted k l air c s).fld (Reg.FHP_FLOCK_LATE k) 15 0 = satAdd 0xFFFF (s.fld (Reg.FHP_FLOCK_LATE k) 15 0) 1 := by
  have block : Reg.FHP_FLOCK_LATE k / 0x10000 ≠ 0x10 := by unfold Reg.FHP_FLOCK_LATE; omega
  have other : Reg.FHP_FLOCK_LATE k ≠ Reg.FHP_INT_STATUS := by unfold Reg.FHP_FLOCK_LATE Reg.FHP_INT_STATUS; omega
  rw [State.fld, substituted, flockEvent_reg block, State.raise_reg_ne _ other]
  exact State.fld_addLo ..

/-- A needed sample that nothing covers is substituted: counted and raised, with a violation while its port is up. -/
theorem lateSubst_substitutes (held : s.holder false l = some k) (hc : layerCarrier s false l = some c) (hy : s.layer false l = some y)
    (hair : air = s.time.tb0 + downlinkLead * pathPeriod s.pwr.level + stackDelay s) (needed : neededAt s c air = true)
    (covered : insideOf s.fhp.covered l air (air + 1) = false) (fresh : insideOf s.fhp.subst l air (air + 1) = false) :
    let t := lateSubst l s
    t.bit Reg.FHP_INT_STATUS 5 = true ∧
      (k < 8 → t.fld (Reg.FHP_FLOCK_LATE k) 15 0 = satAdd 0xFFFF (s.fld (Reg.FHP_FLOCK_LATE k) 15 0) 1) ∧
      t.fhp.subst = addSpan s.time.tb0 l air (symbolAfter c air) s.fhp.subst ∧
      (portUp s y.port = false → changedOnly [.regs, .fhp, .acq] s t ∧ t.fhp.flocks = s.fhp.flocks) := by
  intro t
  have kept := substituted_keeps k l air c s
  have port : portUp (substituted k l air c s) y.port = portUp s y.port := by rw [portUp, kept.lne rfl, portUp]
  have done : t = if portUp s y.port then flockViol k 6 (substituted k l air c s) else substituted k l air c s := by
    rw [← port]
    exact (lateSubst_held held hc hy hair).2 needed covered fresh
  have fhp := substituted_fhp k l air c s
  have same (a : Nat) (ha : a / 0x10000 = 0xC) : t.reg a = (substituted k l air c s).reg a := by
    rw [done]
    split
    · refine flockViol_reg ?_ ?_ ?_ (by omega) _ <;> rintro rfl <;> exact absurd ha (by decide)
    · rfl
  refine ⟨?_, fun hk => ?_, ?_, fun down => ?_⟩
  · rw [State.bit, same _ (by decide)]
    exact substituted_int k l air c s
  · rw [State.fld, same _ (by unfold Reg.FHP_FLOCK_LATE; omega)]
    exact substituted_late hk l air c s
  · obtain ⟨fl, viol⟩ := flocksOnly_flockViol k 6 (substituted k l air c s)
    rw [done]
    split
    · rw [viol, fhp]
    · rw [fhp]
  · rw [done, if_neg (by simp [down])]
    exact ⟨kept.changedOnly, by rw [fhp]⟩

end

/-! ### Uplink sections (R264) -/

section

variable {k l : Nat} {f : FlockCfg} {y : LayerCfg} {c : Carrier}

theorem sendSection_down (down : portUp s y.port = false) (start n : Nat) (x : List Cplx) (m : UlMarks) :
    sendSection k f y c start n x m s = s := if_pos (by simp [down])

/-- The ports as they were, and no frame sent. -/
def SentKept (s t : State) : Prop := t.lne = s.lne ∧ t.fhp.sent = s.fhp.sent

theorem sentKept_modFhp {s t : State} {g : Fhp → Fhp} (hg : ∀ h, (g h).sent = h.sent) (h : SentKept s t) : SentKept s (t.modFhp g) :=
  ⟨h.1, (hg t.fhp).trans h.2⟩

theorem sendBlocks_down {t : State} (down : portUp s y.port = false) (h : SentKept s t) (n : Nat) : SentKept s (sendBlocks k l f y c n t) := by
  unfold sendBlocks; dsimp only
  rw [sendSection_down (by rw [portUp, State.modFhp_lne, h.1]; exact down)]
  exact sentKept_modFhp (by exact fun _ => rfl) h

/-- Nothing leaves a port out of L0. -/
theorem sectionsOut_down {t : State} (down : portUp s y.port = false) (last : Bool) (fuel : Nat) (h : SentKept s t) :
    SentKept s (sectionsOut k l f y c last fuel t) := by
  induction fuel generalizing t with
  | zero => exact h
  | succ fuel ih =>
    unfold sectionsOut; dsimp only
    split
    · exact h
    · split
      · exact ih (sentKept_modFhp (by exact fun _ => rfl) h)
      · split
        · exact ih (sendBlocks_down down h _)
        · split
          · exact ih (sendBlocks_down down h _)
          · exact h

theorem pushBlocks_down {t : State} (down : portUp s y.port = false) (start : Nat) (bs : List (List Cplx × UlMarks)) (h : SentKept s t) :
    SentKept s (pushBlocks k l start f y c bs t) := by
  unfold pushBlocks; dsimp only
  refine sentKept_modFhp (by exact fun _ => rfl) ?_
  split
  · exact h
  · exact sectionsOut_down down true _ h

theorem ulSatCount_sentKept {t : State} (l sat : Nat) (h : SentKept s t) : SentKept s (ulSatCount l sat t) := by
  unfold ulSatCount
  split
  · exact h
  · exact ⟨(by rw [State.raise_lne, State.addReg_lne]; exact h.1), by rw [State.raise_fhp, State.addReg_fhp]; exact h.2⟩

/-- A slot without a holder or a layer has no section. -/
theorem ulSectionSend_nothing (h : s.holder true l = none ∨ s.layer true l = none) (start count : Nat) (rx : List (List Cplx)) (m : UlMarks) :
    ulSectionSend l start count rx m s = s := by
  unfold ulSectionSend
  split
  next held layer _ => obtain h | h := h <;> simp_all
  next => rfl

theorem ulSectionSend_down (hy : s.layer true l = some y) (down : portUp s y.port = false) (start count : Nat) (rx : List (List Cplx))
    (m : UlMarks) : (ulSectionSend l start count rx m s).fhp.sent = s.fhp.sent := by
  unfold ulSectionSend
  split
  next k y' c held layer carrier =>
    obtain rfl : y' = y := Option.some.inj (layer.symm.trans hy)
    split
    · rfl
    · refine (sectionsOut_down (s := s) down false _ ?_).2
      split
      · exact ⟨rfl, rfl⟩
      · exact pushBlocks_down down _ _ (sentKept_modFhp (by exact fun _ => rfl) (ulSatCount_sentKept l _ ⟨rfl, rfl⟩))
  next => rfl

end

/-! ### Delay measurement (R258) -/

theorem measurement_nothing {k q at_ : Nat} (h : asksMeasurement (byteAt b 1) = false) : measurement k q at_ b s = s := by
  unfold measurement
  split
  · rfl
  · exact if_pos (by simp [h])

/-- Nothing leaves a port out of L0. -/
theorem measurement_down {k q at_ : Nat} (down : portUp s q = false) :
    (measurement k q at_ b s).fhp.sent = s.fhp.sent ∧ (measurement k q at_ b s).tim = s.tim := by
  have policed : (police k s).1.fhp.sent = s.fhp.sent ∧ (police k s).1.tim = s.tim ∧ portUp (police k s).1 q = false := by
    have kept : Kept (fun p => decide (p ∈ [Part.regs, .glb, .fhp, .acq])) s (police k s).1 := police_keeps rfl rfl rfl rfl (Kept.refl _ s)
    obtain ⟨fl, h⟩ := flocksOnly_police k s
    exact ⟨by rw [h], kept.tim rfl, by rw [portUp, kept.lne rfl]; exact down⟩
  obtain ⟨sent, tim, down'⟩ := policed
  unfold measurement
  split
  · exact ⟨rfl, rfl⟩
  · dsimp only
    split
    · exact ⟨rfl, rfl⟩
    · cases hp : police k s with
      | mk u taken =>
        rw [hp] at sent tim down'
        dsimp only at sent tim down'
        cases taken <;> dsimp only
        case false => exact ⟨sent, tim⟩
        case true => split <;> simp only [down', Bool.false_eq_true, if_false] <;> exact ⟨sent, tim⟩

end

section

variable {s : State}

/-- The checks of a received frame, in order, and the frames that nobody takes. -/
theorem frameRx_checks (q : Fin 3) (fine : Fin 16) (b : List Byte) (fcsOk uncorr : Bool) :
    let t := frameRx q fine b fcsOk uncorr s
    ((port s (framePort q)).state ≠ .l0 → t = s) ∧
    ((port s (framePort q)).state = .l0 → uncorr = true → t = s.viol 3 (framePort q) 4 0) ∧
    ((port s (framePort q)).state = .l0 → uncorr = false → fcsOk = false →
      t = (s.addHi (Reg.LNE_FRAME_ERR (framePort q)) 1).viol 3 (framePort q) 1 0) ∧
    ((port s (framePort q)).state = .l0 → uncorr = false → fcsOk = true → b.length < 60 ∨ 9212 < b.length →
      t = (s.addLo (Reg.LNE_FRAME_ERR (framePort q)) 1).viol 3 (framePort q) 2 0) ∧
    ((port s (framePort q)).state = .l0 → uncorr = false → fcsOk = true → 60 ≤ b.length → b.length ≤ 9212 → etherType b = 0x8808 →
      t = (s.addLo (Reg.LNE_PORT_EVENT (framePort q)) 1).viol 3 (framePort q) 3 0) ∧
    (q.val = 2 → (port s 4).state = .l0 → uncorr = false → fcsOk = true → 60 ≤ b.length → b.length ≤ 9212 → etherType b ≠ 0x8808 →
      t = s) ∧
    (q.val < 2 → (port s q).state = .l0 → uncorr = false → fcsOk = true → 60 ≤ b.length → b.length ≤ 9212 → etherType b ≠ 0x8808 →
      etherType b ≠ 0x88F7 → etherType b ≠ 0xAEFE ∨ frameFlock s q b = none →
      t = (s.addReg (Reg.FHP_PORT_UNKNOWN q) 1).viol 3 q 6 0) := by
  refine ⟨fun down => if_pos down, fun up bad => ?_, fun up good fcs => ?_, fun up good fcs size => ?_, fun up good fcs low high pause => ?_,
    fun mg up good fcs low high go => ?_, fun fh up good fcs low high go noPtp nobody => ?_⟩
  · unfold frameRx; dsimp only
    rw [if_neg (by simp [up]), if_pos bad]
  · unfold frameRx; dsimp only
    rw [if_neg (by simp [up]), if_neg (by simp [good]), if_pos (by simp [fcs])]
  · unfold frameRx; dsimp only
    rw [if_neg (by simp [up]), if_neg (by simp [good]), if_neg (by simp [fcs]), if_pos (by omega)]
  · unfold frameRx; dsimp only
    rw [if_neg (by simp [up]), if_neg (by simp [good]), if_neg (by simp [fcs]), if_neg (by omega), if_pos pause]
  · subst good fcs
    rw [← show framePort q = 4 from if_pos mg] at up
    rw [frameRx_sorted up low high go]
    exact if_pos mg.ge
  · subst good fcs
    rw [← framePort_fronthaul fh] at up
    rw [frameRx_sorted up low high go]
    exact frameSort_unknown fh noPtp nobody

end

/-- Settles O32: each command of the sections does what its lemma says. -/
theorem flockSections : Obligations.FlockSections := by
  unfold Obligations.FlockSections
  refine fun s => ⟨fun q fine b fcsOk uncorr => ⟨_, rfl, frameRx_checks q fine b fcsOk uncorr⟩,
    fun k q id b => ⟨_, rfl, fun off => ?_, fun on bad => ?_, fun on good free => ?_, fun h => ?_⟩,
    ⟨_, rfl, sectionRelease_nothing, fun x hx => ?_, fun x hx => (mem_sectionRelease.mp hx).1⟩,
    fun l => ⟨_, rfl, fun h => ?_, fun k c y air held hc hy hair => ⟨fun h => ?_, fun own needed covered fresh hk => ?_⟩⟩,
    fun l start count rx m => ⟨_, rfl, fun h => ?_, fun y hy down => ?_, ?_⟩,
    fun k q fine b => ⟨_, rfl, fun off => ?_, fun on short => ?_, fun long no => ?_, fun down => ?_⟩⟩
  · simp [off]
  · rw [if_pos on]; exact iqSection_nak.1 bad
  · rw [if_pos on]; exact iqSection_nak.2 good free
  · split
    · have nak : ∃ cls, iqSection k q id.toNat b s = nakViol k q 0 cls 0 id.toNat s := by
        cases hb : badSection b with
        | true => exact ⟨4, iqSection_nak.1 hb⟩
        | false => exact ⟨3, iqSection_nak.2 hb (by simpa [hb] using h)⟩
      obtain ⟨cls, nak⟩ := nak
      obtain ⟨fl, kept⟩ := flocksOnly_nakViol k q 0 cls 0 id.toNat s
      rw [nak, kept]
      exact ⟨rfl, rfl⟩
    · exact ⟨rfl, rfl⟩
  · rw [mem_sectionRelease]; exact and_iff_right hx
  · split
    · rfl
    next own => exact lateSubst_nothing (h.resolve_left own)
  · split
    · rfl
    · exact (lateSubst_held held hc hy hair).1 h
  · rw [if_neg (by simp [own])]
    obtain ⟨int, late, rest⟩ := lateSubst_substitutes held hc hy hair needed covered fresh
    exact ⟨int, late hk, rest⟩
  · split
    · rfl
    next own => exact ulSectionSend_nothing (h.resolve_left own) ..
  · split
    · rfl
    · exact ulSectionSend_down hy down ..
  · split
    · exact (Kept.refl (fun p => decide (p ∈ [Part.regs, .fhp])) s).changedOnly
    · exact (ulSectionSend_keeps rfl rfl (Kept.refl _ s)).changedOnly
  · simp [off]
  · rw [if_pos on, if_pos short]
  · split
    · rw [if_neg (by omega)]; exact measurement_nothing no
    · rfl
  · split
    · split
      · have kept : Kept (fun p => decide (p ∈ [Part.regs, .glb, .fhp, .acq])) s (flockViol k 1 s) :=
          flockViol_keeps rfl rfl rfl rfl (Kept.refl _ s)
        obtain ⟨fl, viol⟩ := flocksOnly_flockViol k 1 s
        exact ⟨by rw [viol], kept.tim rfl⟩
      · exact measurement_down down
    · exact ⟨rfl, rfl⟩

end Sys2Proof.Machine
end

section
/-!
SUPPORT. The checks of a received fold-link frame (R312, R325), and what violations, isolations and the loss of time leave of the stack's state
(R290, R325 to R327).
-/

namespace Sys2Proof.Machine

/-! ### The checks of a frame -/

section

variable {s : State} {side : Fin 2} {b : List Byte} {take_ : State → State}

theorem sideUp_foldCounted (side j : Nat) (s : State) : sideUp (foldCounted side s) j = sideUp s j := by
  rw [sideUp, hasSide, foldCounted, State.addReg_cas, State.addReg_lne]
  rfl

theorem sideIsolated_foldCounted (side j : Nat) (s : State) : sideIsolated (foldCounted side s) j = sideIsolated s j := by
  rw [sideIsolated, foldCounted, State.addReg_cas, sideIsolated]

theorem foldForeign_foldCounted (side : Nat) (b : List Byte) (s : State) : foldForeign (foldCounted side s) side b = foldForeign s side b := by
  simp only [foldForeign, typeFits, sourceFits, foldCounted, State.addReg_cas]

theorem payloadOk_foldCounted (side : Nat) (b : List Byte) (s : State) : payloadOk (foldCounted side s) side b = payloadOk s side b := by
  simp only [payloadOk, dataOk, State.carrier, State.warp, foldCounted, State.addReg_wrp]

theorem not_foldWhole : (b.length ≠ foldLen b + 16 ∨ be b (b.length - 4) 4 ≠ crc32c (b.take (b.length - 4))) ↔ ¬ foldWhole b := by
  unfold foldWhole; tauto

theorem foldRx_down (down : sideUp s side = false) (stays : foldType b ≠ 8 ∨ laneCrosses s side = false) : foldRx side b take_ s = s := by
  refine if_pos ⟨by simp [down], ?_⟩
  rintro ⟨lane, crosses⟩
  obtain h | h := stays
  · exact h lane
  · rw [h] at crosses; cases crosses

/-- A frame that comes in is counted, and then checked. -/
theorem foldRx_up (up : sideUp s side = true ∨ (foldType b = 8 ∧ laneCrosses s side = true)) : foldRx side b take_ s =
    if sideIsolated s side = true ∧ foldType b ≠ 1 ∧ foldType b ≠ 8 then foldCounted side s
    else if b.length ≠ foldLen b + 16 ∨ be b (b.length - 4) 4 ≠ crc32c (b.take (b.length - 4)) then casViol side 1 (foldCounted side s)
    else if foldForeign s side b = true then casViol side 2 (foldCounted side s)
    else if payloadOk s side b = false then casViol side 3 (foldCounted side s)
    else take_ (foldCounted side s) := by
  unfold foldRx
  rw [if_neg (by tauto)]
  change (if sideIsolated (foldCounted side s) side = true ∧ foldType b ≠ 1 ∧ foldType b ≠ 8 then foldCounted side s
    else if _ then casViol side 1 (foldCounted side s)
    else if foldForeign (foldCounted side s) side b = true then casViol side 2 (foldCounted side s)
    else if ¬ payloadOk (foldCounted side s) side b = true then casViol side 3 (foldCounted side s)
    else take_ (foldCounted side s)) = _
  rw [sideIsolated_foldCounted, foldForeign_foldCounted, payloadOk_foldCounted]
  simp only [Bool.not_eq_true]

theorem foldRx_passes {type : Nat} (h : foldPasses s side type b) : foldRx side b take_ s = take_ (foldCounted side s) := by
  obtain ⟨kind, up, free, whole, foreign, ok⟩ := h
  subst kind
  rw [foldRx_up up, if_neg (by rcases free with h | h | h <;> simp [h]), if_neg (by rw [not_foldWhole]; exact not_not.mpr whole), if_neg (by simp [foreign]),
    if_neg (by simp [ok])]

end

/-! ### Violations, isolations and lost time -/

/-- Of the fronthaul the rows of the flocks change alone, and the flags of the CAS block stay asserted. -/
structure FoldQuiet (s t : State) : Prop where
  flocks : FlocksOnly s t
  flag : ∀ b < 32, s.bit Reg.CAS_INT_STATUS b = true → t.bit Reg.CAS_INT_STATUS b = true

section

variable {s₀ s t u : State}

theorem FoldQuiet.refl (s : State) : FoldQuiet s s := ⟨.refl s, fun _ _ h => h⟩

theorem FoldQuiet.trans (h : FoldQuiet s t) (k : FoldQuiet t u) : FoldQuiet s u :=
  ⟨h.flocks.trans k.flocks, fun b hb e => k.flag b hb (h.flag b hb e)⟩

theorem FoldQuiet.of_reg (fhp : FlocksOnly s t) (reg : t.reg Reg.CAS_INT_STATUS = s.reg Reg.CAS_INT_STATUS) : FoldQuiet s t :=
  ⟨fhp, fun b _ e => by rw [State.bit, reg]; exact e⟩

theorem FoldQuiet.of_kept {L : Part → Bool} (K : Kept L s t) (regs : L .regs = false) (fhp : L .fhp = false) : FoldQuiet s t :=
  .of_reg (.of_fhp (K.fhp fhp)) (K.reg regs _)

theorem FoldQuiet.ite {c : Prop} [Decidable c] (h : FoldQuiet s t) (k : FoldQuiet s u) : FoldQuiet s (if c then t else u) := by
  split
  · exact h
  · exact k

theorem foldQuiet_forAll {α : Type} {f : α → State → State} (l : List α) (hf : ∀ x t, FoldQuiet t (f x t)) (s : State) :
    FoldQuiet s (forAll l f s) := forAll_induct (P := FoldQuiet s) (fun x t h => h.trans (hf x t)) l (.refl s)

theorem foldQuiet_raise (a b : Nat) (s : State) : FoldQuiet s (s.raise a b) :=
  ⟨.of_fhp (State.raise_fhp ..), fun _ hb e => State.bit_raise_of_bit s hb e⟩

theorem foldQuiet_setReg {a : Nat} (h : Reg.CAS_INT_STATUS ≠ a) (w : Word) (s : State) : FoldQuiet s (s.setReg a w) :=
  .of_reg (.of_fhp (State.setReg_fhp ..)) (State.reg_setReg_ne s w h)

theorem foldQuiet_logPut (kind index cls : Nat) (ev : Bool) (detail : Word) (s : State) : FoldQuiet s (s.logPut kind index cls ev detail) :=
  .of_reg (.of_fhp (State.logPut_fhp ..)) (State.logPut_reg s (by decide) (by decide))

theorem foldQuiet_viol (side : Nat) (cls : Fin 8) (s : State) : FoldQuiet s (s.viol 4 side cls 0) :=
  .of_reg (.of_fhp (State.viol_fhp ..)) (State.viol_reg s (by decide) (by decide) (by unfold Reg.CAS_INT_STATUS Reg.GLB_VIOL; omega))

theorem foldQuiet_post (k port msg tag : Nat) (body : List Byte) (s : State) : FoldQuiet s (s.post k port msg tag body) :=
  .of_reg (flocksOnly_post ..) (State.post_reg s (by unfold Reg.CAS_INT_STATUS Reg.FHP_FLOCK_CTRL_LOST; omega) (by decide))

theorem foldQuiet_notice (k ev detail param : Nat) (s : State) : FoldQuiet s (s.notice k ev detail param) := by
  unfold State.notice
  split
  · exact .refl s
  · split
    · exact .refl s
    · exact (FoldQuiet.of_reg (flocksOnly_modFlock k _ s) rfl).trans (foldQuiet_post ..)

/-- Of the stack's state, the frames that wait on the fold links and their sequence numbers change alone. -/
def FoldSent (s t : State) : Prop := ∃ seqs out, t.cas = { s.cas with seqs := seqs, out := out }

theorem FoldSent.refl (s : State) : FoldSent s s := ⟨_, _, rfl⟩

theorem FoldSent.of_cas (h : t.cas = s.cas) : FoldSent s t := ⟨_, _, h⟩

theorem FoldSent.trans (h : FoldSent s t) (k : FoldSent t u) : FoldSent s u := by
  obtain ⟨a, b, h⟩ := h
  obtain ⟨c, d, k⟩ := k
  exact ⟨c, d, by rw [k, h]⟩

theorem foldSent_forAll {α : Type} {f : α → State → State} (l : List α) (hf : ∀ x t, FoldSent t (f x t)) (s : State) :
    FoldSent s (forAll l f s) := forAll_induct (P := FoldSent s) (fun x t h => h.trans (hf x t)) l (.refl s)

theorem casSend_foldSent (type side dst : Nat) (bcast : Bool) (payload : List Byte) (s : State) :
    FoldSent s (casSend type side dst bcast payload s) := by
  unfold casSend
  split
  · exact .refl s
  · exact ⟨_, _, rfl⟩

theorem casSend_foldQuiet (type side dst : Nat) (bcast : Bool) (payload : List Byte) (s : State) :
    FoldQuiet s (casSend type side dst bcast payload s) :=
  .of_kept (casSend_keeps (L := fun p => decide (p ∈ [Part.cas])) rfl (Kept.refl _ s)) rfl rfl

theorem reportUp_foldSent (sub tag : Nat) (body : List Byte) (s : State) : FoldSent s (reportUp sub tag body s) := by
  unfold reportUp
  split
  · exact casSend_foldSent ..
  · exact .refl s

theorem reportUp_foldQuiet (sub tag : Nat) (body : List Byte) (s : State) : FoldQuiet s (reportUp sub tag body s) :=
  .of_kept (reportUp_keeps (L := fun p => decide (p ∈ [Part.cas])) rfl (Kept.refl _ s)) rfl rfl

/-- Nothing beyond the messages, the reports and the frames that wait. -/
def FoldNews (s t : State) : Prop := FoldSent s t ∧ FoldQuiet s t

theorem FoldNews.refl (s : State) : FoldNews s s := ⟨.refl s, .refl s⟩

theorem FoldNews.trans (h : FoldNews s t) (k : FoldNews t u) : FoldNews s u := ⟨h.1.trans k.1, h.2.trans k.2⟩

theorem FoldNews.of_kept {L : Part → Bool} (K : Kept L s t) (regs : L .regs = false) (fhp : L .fhp = false) (cas : L .cas = false) :
    FoldNews s t := ⟨.of_cas (K.cas cas), .of_kept K regs fhp⟩

theorem FoldNews.ite {c : Prop} [Decidable c] (h : FoldNews s t) (k : FoldNews s u) : FoldNews s (if c then t else u) := by
  split
  · exact h
  · exact k

theorem foldNews_forAll {α : Type} {f : α → State → State} (l : List α) (hf : ∀ x t, FoldNews t (f x t)) (s : State) :
    FoldNews s (forAll l f s) := forAll_induct (P := FoldNews s) (fun x t h => h.trans (hf x t)) l (.refl s)

theorem foldNews_raise (a b : Nat) (s : State) : FoldNews s (s.raise a b) := ⟨.of_cas (State.raise_cas ..), foldQuiet_raise ..⟩

theorem foldNews_setReg {a : Nat} (h : Reg.CAS_INT_STATUS ≠ a) (w : Word) (s : State) : FoldNews s (s.setReg a w) :=
  ⟨.of_cas (State.setReg_cas ..), foldQuiet_setReg h w s⟩

theorem foldNews_event (a b index : Nat) (detail : Word) (s : State) : FoldNews s (s.event a b index detail) :=
  (foldNews_raise a b s).trans ⟨.of_cas (State.logPut_cas ..), foldQuiet_logPut ..⟩

theorem foldNews_hostBurstReport (r : BurstReport) (s : State) : FoldNews s (hostBurstReport r s) :=
  .ite ((foldNews_setReg (by decide) _ s).trans (foldNews_raise ..))
    ((FoldNews.of_kept (modRad_keeps (L := fun p => decide (p ∈ [Part.rad])) rfl (Kept.refl _ s)) rfl rfl rfl).trans (foldNews_raise ..))

theorem foldNews_flockBurstReport (k port tag outcome code : Nat) (tx : Bool) (g start : Nat) (s : State) :
    FoldNews s (flockBurstReport k port tag outcome code tx g start s) :=
  ⟨.of_cas ((post_keeps (L := fun p => decide (p ∈ [Part.regs, .fhp])) rfl rfl (Kept.refl _ s)).cas rfl), foldQuiet_post ..⟩

theorem foldNews_burstReport (g : Nat) (b : Burst) (outcome code : Nat) (s : State) : FoldNews s (burstReport g b outcome code s) := by
  have logged (detail : Word) : FoldNews s (if outcome ≥ 3 then s.event Reg.RAD_INT_STATUS 0 g detail else s) :=
    .ite (foldNews_event ..) (.refl s)
  have counted (v : State) : FoldNews v (if code = 0x22 then (if outcome = 3 then v.addHi Reg.THM_THROTTLE 1 else v.addLo Reg.THM_THROTTLE 1) else v) :=
    .ite (.ite (foldNews_setReg (by decide) _ v) (foldNews_setReg (by decide) _ v)) (.refl v)
  unfold burstReport; dsimp only
  split
  · exact ((logged _).trans (counted _)).trans (foldNews_hostBurstReport ..)
  · exact ((logged _).trans (counted _)).trans (foldNews_flockBurstReport ..)
  · exact .ite (((logged _).trans (counted _)).trans ⟨reportUp_foldSent .., reportUp_foldQuiet ..⟩) ((logged _).trans (counted _))

theorem foldNews_burstOut (g : Nat) (b : Burst) (code : Nat) (s : State) : FoldNews s (burstOut g b code s) := by
  have group (v : State) (f : Group → Group) : FoldNews v (v.modGroup g f) :=
    .of_kept (modGroup_keeps (L := fun p => decide (p ∈ [Part.rad])) rfl (Kept.refl _ v)) rfl rfl rfl
  have after (v : State) : FoldNews v (afterBurst g b v) :=
    .of_kept (afterBurst_keeps (L := fun p => decide (p ∈ [Part.pstate, .rad])) rfl rfl (Kept.refl _ v)) rfl rfl rfl
  have settled (v : State) : FoldNews v (settle g v) :=
    .of_kept (settle_keeps (L := fun p => decide (p ∈ [Part.pstate, .rad])) rfl rfl (Kept.refl _ v)) rfl rfl rfl
  have reported (outcome : Nat) : FoldNews s (burstReport g b outcome code (removeBurst g b.seq s)) :=
    (group s _).trans (foldNews_burstReport ..)
  unfold burstOut; dsimp only
  split
  · exact (FoldNews.ite (group s _) (reported _)).trans (after _)
  · exact (FoldNews.ite ((reported 3).trans (group _ _)) (reported 3)).trans (settled _)

/-- Time that is lost sends reports alone. -/
theorem foldNews_timeLost (s : State) : FoldNews s (timeLost s) :=
  .ite (foldNews_forAll _ (fun g _ => foldNews_forAll _ (fun b t => foldNews_burstOut g b _ t) _) s) (.refl s)

/-- A change that can end the lock of TB0, with what its end brings about. -/
theorem foldNews_watchLock (f : State → State) (s : State) : FoldNews (f s) (watchLock f s) :=
  .ite (foldNews_timeLost _) (.refl _)

/-! ### The joined set, and neighbours that are isolated -/

theorem foldQuiet_modCas (f : Cas → Cas) (s : State) : FoldQuiet s (s.modCas f) := .of_reg (.refl s) rfl

theorem foldQuiet_modNbr (side : Nat) (f : Nbr → Nbr) (s : State) : FoldQuiet s (s.modNbr side f) := .of_reg (.refl s) rfl

theorem foldQuiet_setJoined (m : Nat) (s : State) : FoldQuiet s (setJoined m s) := by
  unfold setJoined
  split
  · exact .refl s
  · have told (v : State) : FoldQuiet v (v.noticeAll 0x0C ((List.range 8).filter (nbit m)).length m) :=
      foldQuiet_forAll _ (fun _ _ => foldQuiet_notice ..) v
    have changed : FoldQuiet s ((s.modCas (fun c => { c with joined := m, statuses := c.statuses.filter (fun x => nbit m x.1) })).raise
        Reg.CAS_INT_STATUS 4) := (foldQuiet_modCas _ s).trans (foldQuiet_raise ..)
    exact .ite (changed.trans (told _)) changed

theorem foldQuiet_tellIsolate (cls kind : Nat) (s : State) : FoldQuiet s (tellIsolate cls kind s) :=
  .ite (foldQuiet_setJoined ..) (reportUp_foldQuiet ..)

theorem foldQuiet_unjoin (form : Nat) (s : State) : FoldQuiet s (unjoin form s) :=
  (foldQuiet_modCas _ s).trans (foldNews_watchLock _ s).2

theorem foldQuiet_detach (cls : Nat) (s : State) : FoldQuiet s (detach cls s) :=
  .ite (.refl s) (((((foldQuiet_tellIsolate cls 2 s).trans (foldQuiet_modNbr ..)).trans (foldQuiet_modCas ..)).trans
    (foldQuiet_unjoin ..)).trans (foldQuiet_raise ..))

theorem foldQuiet_isolateDown (cls : Nat) (s : State) : FoldQuiet s (isolateDown cls s) :=
  .ite (.refl s) (((foldQuiet_modNbr 1 _ s).trans (foldQuiet_raise ..)).trans (foldQuiet_tellIsolate ..))

theorem foldQuiet_quarCounted (side cls : Nat) (s : State) : FoldQuiet s (quarCounted side cls s) :=
  .ite (.refl s) ((foldQuiet_viol side 7 s).trans (.ite (foldQuiet_detach ..) (foldQuiet_isolateDown ..)))

/-- A violation of a neighbour leaves the sections of the fronthaul, and takes no flag of the stack back. -/
theorem foldQuiet_casViol (side : Nat) (cls : Fin 8) (s : State) : FoldQuiet s (casViol side cls s) := by
  have other : Reg.CAS_INT_STATUS ≠ Reg.CAS_NBR_VIOL side := by unfold Reg.CAS_INT_STATUS Reg.CAS_NBR_VIOL; omega
  have counted : FoldQuiet s (if cls.val = 1 then s.addHi (Reg.CAS_NBR_VIOL side) 1 else s.addLo (Reg.CAS_NBR_VIOL side) 1) :=
    .ite (foldQuiet_setReg other _ s) (foldQuiet_setReg other _ s)
  have noted (f : Nbr → Nbr) := (counted.trans (foldQuiet_viol side cls _)).trans (foldQuiet_modNbr side f _)
  exact .ite ((noted _).trans (foldQuiet_quarCounted ..)) (noted _)

end

end Sys2Proof.Machine
end

section
/-!
SUPPORT. The frames of the fold links: the commands that take them, what a neighbour has said, stack time, layer data and pairs (R248, R310,
R312, R317 to R326), and the statement on frames.
-/

namespace Sys2Proof.Machine

/-! ### The commands of received frames -/

section

variable {s t : State} {side : Fin 2} {b : List Byte}

/-- A received frame comes in with the command of a TYPE and, of CONTROL, a SUB; an undefined TYPE comes in with HELLO, and an undefined SUB
with CONTROL_SKEIN. -/
def foldCame (type sub : Nat) (b : List Byte) : Prop :=
  if type = 1 then ¬ (2 ≤ foldType b ∧ foldType b ≤ 8)
  else foldType b = type ∧ (type = 6 → byteAt (foldPayload b) 0 = sub ∨ (sub = 1 ∧ knownSub (byteAt (foldPayload b) 0) = false))

/-- What such a command does: it takes the frame that has come in, and does nothing for another. -/
def foldDone (type sub : Nat) (side : Fin 2) (b : List Byte) (s t : State) : Prop :=
  (¬ foldCame type sub b → t = s) ∧ (foldCame type sub b → ∃ take_, t = foldRx side b take_ s)

theorem foldDone_hello (take_ : State → State) :
    foldDone 1 0 side b s (if 2 ≤ foldType b ∧ foldType b ≤ 8 then s else foldRx side b take_ s) :=
  ⟨fun h => if_pos (not_not.mp h), fun h => ⟨take_, if_neg h⟩⟩

theorem foldDone_data {type : Nat} (other : type ≠ 1) (noControl : type ≠ 6) (take_ : State → State) :
    foldDone type 0 side b s (if foldType b ≠ type then s else foldRx side b take_ s) := by
  have came : foldCame type 0 b ↔ foldType b = type := by
    unfold foldCame
    rw [if_neg other]
    exact and_iff_left fun h => absurd h noControl
  exact ⟨fun h => if_pos fun e => h (came.mpr e), fun h => ⟨take_, if_neg (not_not.mpr (came.mp h))⟩⟩

theorem foldCame_control {sub : Nat} (known : sub ≠ 1) : foldCame 6 sub b ↔ foldType b = 6 ∧ byteAt (foldPayload b) 0 = sub := by
  unfold foldCame
  rw [if_neg (by decide)]
  simp [known]

theorem foldDone_control {sub : Nat} (known : sub ≠ 1) (take_ : Nat → List Byte → State → State) :
    foldDone 6 sub side b s (controlRx sub side b take_ s) := by
  rw [foldDone, foldCame_control known]
  exact ⟨fun h => if_pos (by tauto), fun h => ⟨_, if_neg (by tauto)⟩⟩

theorem foldDone_skein (take_ : Nat → List Byte → State → State) : foldDone 6 1 side b s
    (if foldType b = 6 ∧ ¬ knownSub (byteAt (foldPayload b) 0) = true then foldRx side b id s else controlRx 1 side b take_ s) := by
  have came : foldCame 6 1 b ↔ foldType b = 6 ∧ (byteAt (foldPayload b) 0 = 1 ∨ knownSub (byteAt (foldPayload b) 0) = false) := by
    unfold foldCame
    rw [if_neg (by decide)]
    simp
  rw [foldDone, came]
  split
  next unknown => exact ⟨fun h => absurd ⟨unknown.1, .inr (by simpa using unknown.2)⟩ h, fun _ => ⟨id, rfl⟩⟩
  next known =>
    have known' : foldType b = 6 → knownSub (byteAt (foldPayload b) 0) = true := by simpa using known
    refine ⟨fun h => if_pos (not_and_or.mp fun c => h ⟨c.1, .inl c.2⟩), fun h => ⟨_, if_neg ?_⟩⟩
    obtain ⟨kind, h | h⟩ := h
    · exact not_or.mpr ⟨not_not.mpr kind, not_not.mpr h⟩
    · rw [known' kind] at h; cases h

/-- Each command of a received frame does that. -/
theorem foldCommands_done {fine mis : Fin 16} {rx : List (List Cplx)} {m : UlMarks} {c : Nat × Nat × Instr}
    (h : c ∈ foldCommands side fine mis b rx m) : completes c.2.2 s (foldDone c.1 c.2.1 side b s) := by
  simp only [foldCommands, List.mem_cons, List.not_mem_nil, or_false] at h
  rcases h with rfl | rfl | rfl | rfl | rfl | rfl | rfl | rfl | rfl | rfl | rfl | rfl | rfl | rfl | rfl | rfl | rfl
  · exact ⟨_, rfl, foldDone_hello _⟩
  iterate 6 exact ⟨_, rfl, foldDone_data (by dsimp only; decide) (by dsimp only; decide) _⟩
  · exact ⟨_, rfl, foldDone_skein _⟩
  iterate 9 exact ⟨_, rfl, foldDone_control (by dsimp only; decide) _⟩

theorem foldCame_of_type {type sub : Nat} (kind : foldType b = type) (named : type = 6 → byteAt (foldPayload b) 0 = sub) :
    foldCame type sub b := by
  unfold foldCame
  split
  · omega
  · exact ⟨kind, fun h => .inl (named h)⟩

/-- The checks of a received frame are those of its command. -/
theorem foldDone.checks {type sub : Nat} (h : foldDone type sub side b s t) :
    (type ≠ 1 → foldType b ≠ type → t = s) ∧
    (type = 1 → 2 ≤ foldType b → foldType b ≤ 8 → t = s) ∧
    (type = 6 → sub ≠ 1 → byteAt (foldPayload b) 0 ≠ sub → t = s) ∧
    (sideUp s side = false → type ≠ 8 ∨ laneCrosses s side = false → t = s) ∧
    (foldType b = type → (type = 6 → byteAt (foldPayload b) 0 = sub) → sideUp s side = true → sideIsolated s side = true →
      type ≠ 1 → type ≠ 8 → t = foldCounted side s) ∧
    (foldType b = type → (type = 6 → byteAt (foldPayload b) 0 = sub) → sideUp s side = true →
      sideIsolated s side = false ∨ type = 1 ∨ type = 8 →
      (¬ foldWhole b → t = casViol side 1 (foldCounted side s)) ∧
      (foldWhole b → foldForeign s side b = true → t = casViol side 2 (foldCounted side s)) ∧
      (foldWhole b → foldForeign s side b = false → payloadOk s side b = false → t = casViol side 3 (foldCounted side s))) := by
  obtain ⟨stays, comes⟩ := h
  refine ⟨fun other kind => stays ?_, fun hello low high => stays ?_, fun control known named => stays ?_, fun down lane => ?_,
    fun kind named up alone h1 h8 => ?_, fun kind named up free => ?_⟩
  · unfold foldCame
    rw [if_neg other]
    exact fun h => kind h.1
  · unfold foldCame
    rw [if_pos hello]
    exact fun h => h ⟨low, high⟩
  · subst control
    rw [foldCame_control known]
    exact fun h => named h.2
  · by_cases came : foldCame type sub b
    · obtain ⟨take_, rfl⟩ := comes came
      refine foldRx_down down (lane.imp_left fun other eight => ?_)
      unfold foldCame at came
      split at came
      · omega
      · exact other (came.1.symm.trans eight)
    · exact stays came
  · obtain ⟨take_, rfl⟩ := comes (foldCame_of_type kind named)
    rw [foldRx_up (.inl up), if_pos ⟨alone, by omega, by omega⟩]
  · obtain ⟨take_, rfl⟩ := comes (foldCame_of_type kind named)
    have open_ : ¬ (sideIsolated s side = true ∧ foldType b ≠ 1 ∧ foldType b ≠ 8) := by
      rcases free with h | h | h <;> simp [h, kind]
    rw [foldRx_up (.inl up), if_neg open_]
    refine ⟨fun part => if_pos (not_foldWhole.mpr part), fun whole foreign => ?_, fun whole own bad => ?_⟩ <;>
      rw [if_neg (by rw [not_foldWhole]; exact not_not.mpr whole)]
    · rw [if_pos foreign]
    · rw [if_neg (by simp [own]), if_pos bad]

end

/-! ### What a neighbour has said -/

/-- The HELLO of each neighbour, the lock and the times of the last TIME frame, and the step it announced are as they were. -/
structure SaidKept (s t : State) : Prop where
  hello : ∀ j, (vget t.cas.nbrs j).hello = (vget s.cas.nbrs j).hello ∧ (vget t.cas.nbrs j).d = (vget s.cas.nbrs j).d
  time : t.cas.upLocked = s.cas.upLocked ∧ t.cas.timeRx = s.cas.timeRx ∧ t.cas.stepAt = s.cas.stepAt

section

variable {s t u : State}

theorem SaidKept.refl (s : State) : SaidKept s s := ⟨fun _ => ⟨rfl, rfl⟩, rfl, rfl, rfl⟩

theorem SaidKept.trans (h : SaidKept s t) (k : SaidKept t u) : SaidKept s u :=
  ⟨fun j => ⟨(k.hello j).1.trans (h.hello j).1, (k.hello j).2.trans (h.hello j).2⟩,
    k.time.1.trans h.time.1, k.time.2.1.trans h.time.2.1, k.time.2.2.trans h.time.2.2⟩

theorem SaidKept.ite {c : Prop} [Decidable c] (h : SaidKept s t) (k : SaidKept s u) : SaidKept s (if c then t else u) := by
  split
  · exact h
  · exact k

theorem SaidKept.of_cas (h : t.cas = s.cas) : SaidKept s t := ⟨fun j => by rw [h]; exact ⟨rfl, rfl⟩, by rw [h]; exact ⟨rfl, rfl, rfl⟩⟩

theorem SaidKept.of_sent (h : FoldSent s t) : SaidKept s t := by
  obtain ⟨seqs, out, h⟩ := h
  exact ⟨fun j => by rw [h]; exact ⟨rfl, rfl⟩, by rw [h]; exact ⟨rfl, rfl, rfl⟩⟩

theorem saidKept_modCas {f : Cas → Cas} (hf : ∀ c, (f c).nbrs = c.nbrs ∧ (f c).upLocked = c.upLocked ∧ (f c).timeRx = c.timeRx ∧
    (f c).stepAt = c.stepAt) (s : State) : SaidKept s (s.modCas f) :=
  ⟨fun j => by rw [State.modCas_cas, (hf s.cas).1]; exact ⟨rfl, rfl⟩, (hf s.cas).2⟩

theorem saidKept_modNbr (side : Nat) {f : Nbr → Nbr} (hf : ∀ n, (f n).hello = n.hello ∧ (f n).d = n.d) (s : State) :
    SaidKept s (s.modNbr side f) :=
  ⟨fun j => by
    rw [State.modNbr_cas, vget_vmod]
    split
    next h => rw [h.1]; exact hf _
    next => exact ⟨rfl, rfl⟩, rfl, rfl, rfl⟩

theorem saidKept_raise (a b : Nat) (s : State) : SaidKept s (s.raise a b) := .of_cas (State.raise_cas ..)

theorem saidKept_unjoin (form : Nat) (s : State) : SaidKept s (unjoin form s) :=
  (saidKept_modCas (by exact fun _ => ⟨rfl, rfl, rfl, rfl⟩) s).trans (.of_sent (foldNews_watchLock _ s).1)

theorem saidKept_setJoined (m : Nat) (s : State) : SaidKept s (setJoined m s) := by
  have told (v : State) : SaidKept v (v.noticeAll 0x0C ((List.range 8).filter (nbit m)).length m) :=
    .of_cas ((forAll_keeps (L := fun p => decide (p ∈ [Part.regs, .fhp])) (fun _ _ K => notice_keeps rfl rfl K) (Kept.refl _ v)).cas rfl)
  have changed : SaidKept s ((s.modCas (fun c => { c with joined := m, statuses := c.statuses.filter (fun x => nbit m x.1) })).raise
      Reg.CAS_INT_STATUS 4) := (saidKept_modCas (by exact fun _ => ⟨rfl, rfl, rfl, rfl⟩) s).trans (saidKept_raise ..)
  exact .ite (.refl s) (.ite (changed.trans (told _)) changed)

theorem saidKept_tellIsolate (cls kind : Nat) (s : State) : SaidKept s (tellIsolate cls kind s) :=
  .ite (saidKept_setJoined ..) (.of_sent (reportUp_foldSent ..))

theorem saidKept_zeroServed (s : State) : SaidKept s (zeroServed s) :=
  .of_cas ((zeroServed_keeps (L := fun p => decide (p ∈ [Part.regs, .skn, .fhp])) rfl rfl rfl (Kept.refl _ s)).cas rfl)

/-- A member that judges its place keeps what the neighbours said. -/
theorem saidKept_formJudge (s : State) : SaidKept s (formJudge s) := by
  have refused : SaidKept s ((unjoin 5 s).modCas (fun c => { c with code := formCode s })) :=
    (saidKept_unjoin 5 s).trans (saidKept_modCas (by exact fun _ => ⟨rfl, rfl, rfl, rfl⟩) _)
  have joins : SaidKept s ((zeroServed ((s.modCas (fun c => { c with
      selfJoined := true, form := 3, code := 0, detached := false, mayRejoin := false })).modNbr 0
      (fun n => { n with isolated := false, state := 2 }))).raise Reg.CAS_INT_STATUS 0) :=
    (((saidKept_modCas (by exact fun _ => ⟨rfl, rfl, rfl, rfl⟩) s).trans (saidKept_modNbr 0 (by exact fun _ => ⟨rfl, rfl⟩) _)).trans
      (saidKept_zeroServed _)).trans (saidKept_raise ..)
  exact .ite (.refl s) (.ite (.refl s) (.ite (.ite (refused.trans (saidKept_raise ..)) refused) (.ite (.refl s)
    (.ite joins (saidKept_modCas (by exact fun _ => ⟨rfl, rfl, rfl, rfl⟩) s)))))

/-! ### HELLO and TIME (R310, R317) -/

/-- A HELLO is kept as the neighbour's. -/
def helloKept (side stackId : Nat) (p : List Byte) (s : State) : State :=
  s.modNbr side (fun n => { n with
    hello := some [byteAt p 0, byteAt p 1, byteAt p 2, byteAt p 3, be p 4 4, byteAt p 8, byteAt p 9, byteAt p 10 % 16, stackId]
    d := byteAt p 1 % 8 })

/-- What follows from a neighbour's HELLO leaves what it said. -/
theorem helloTake_saidKept (side stackId : Nat) (p : List Byte) (s : State) : SaidKept (helloKept side stackId p s) (helloTake side stackId p s) := by
  have formed (v : State) : SaidKept v (if v.cas.role = 2 ∧ v.cas.form = 0 then v.modCas (fun c => { c with form := 1 }) else v) :=
    .ite (saidKept_modCas (by exact fun _ => ⟨rfl, rfl, rfl, rfl⟩) v) (.refl v)
  have judged (v : State) (st : Nat) (c : Prop) [Decidable c] : SaidKept v
      (if side = 0 then formJudge (if v.cas.role = 2 ∧ v.cas.form = 0 then v.modCas (fun c => { c with form := 1 }) else v)
      else if v.cas.role = 1 then (if st = 2 then setJoined (v.cas.joined ||| 2) v else dropFrom 1 v)
      else if c then tellIsolate 0 1 v else v) :=
    .ite ((formed v).trans (saidKept_formJudge _)) (.ite (.ite (saidKept_setJoined ..) (saidKept_setJoined ..))
      (.ite (saidKept_tellIsolate ..) (.refl v)))
  unfold helloTake; dsimp only
  exact (saidKept_modNbr side (by exact fun _ => ⟨rfl, rfl⟩) _).trans (judged _ _ _)

theorem helloTake_said (side : Fin 2) (stackId : Nat) (p : List Byte) (s : State) :
    let t := helloTake side stackId p s
    (vget t.cas.nbrs side).hello = some [byteAt p 0, byteAt p 1, byteAt p 2, byteAt p 3, be p 4 4, byteAt p 8, byteAt p 9, byteAt p 10 % 16, stackId] ∧
      (vget t.cas.nbrs side).d = byteAt p 1 % 8 := by
  intro t
  obtain ⟨hello, d⟩ := (helloTake_saidKept side stackId p s).hello side
  rw [hello, d, helloKept, State.modNbr_cas, vget_vmod_same _ _ side.isLt]
  exact ⟨rfl, rfl⟩

theorem timeTake_said (fine mis : Nat) (b : List Byte) (s : State) :
    let t := timeTake fine mis b s
    t.cas.upLocked = nbit (byteAt (foldPayload b) 48) 7 ∧ t.cas.timeRx.isSome = true ∧
      (nbit (byteAt (foldPayload b) 48) 6 = false → t.cas.stepAt = none) := by
  intro t
  have measured (c : Bool) (v : State) : SaidKept v (whenB c (tickMeasured mis) v) :=
    .ite (.ite (saidKept_modCas (by exact fun _ => ⟨rfl, rfl, rfl, rfl⟩) v) (.ite (saidKept_raise ..) (.refl v))) (.refl v)
  have after (v : State) (g : Cas → Cas) (c : State → Bool) (x : List Byte) : SaidKept (v.modCas g)
      (formJudge (casSend 0x03 0 0 false x (whenB (c (watchLock (fun s => s.modCas g) v)) (tickMeasured mis) (watchLock (fun s => s.modCas g) v)))) :=
    (((SaidKept.of_sent (foldNews_watchLock _ v).1).trans (measured _ _)).trans (.of_sent (casSend_foldSent ..))).trans (saidKept_formJudge _)
  obtain ⟨lock, rx, step⟩ := (after _ _ (fun v => nbit (byteAt (foldPayload b) 48) 5 && v.cas.tb2Lock) _ : SaidKept _ t).time
  refine ⟨lock, (congrArg Option.isSome rx).trans rfl, fun none => ?_⟩
  exact step.trans (if_neg (by simp [none]))

/-! ### A frame that passes -/

section

variable {side : Fin 2} {b : List Byte}

theorem foldHello_passes (h : foldPasses s side 1 b) (take_ : State → State) :
    (if 2 ≤ foldType b ∧ foldType b ≤ 8 then s else foldRx side b take_ s) = take_ (foldCounted side s) := by
  have kind := h.1
  exact (if_neg (by omega)).trans (foldRx_passes h)

theorem foldData_passes {type : Nat} (h : foldPasses s side type b) (take_ : State → State) :
    (if foldType b ≠ type then s else foldRx side b take_ s) = take_ (foldCounted side s) :=
  (if_neg (not_not.mpr h.1)).trans (foldRx_passes h)

end

end

end Sys2Proof.Machine
end

section
/-!
SUPPORT. Layer data, sums and STATUS on the fold links (R320 to R326), and the statement on frames.
-/

namespace Sys2Proof.Machine

section

variable {s t : State}

theorem foldCounted_keeps (side : Nat) (s : State) : Kept (fun p => decide (p ∈ [Part.regs])) s (foldCounted side s) :=
  addReg_keeps rfl (Kept.refl _ s)

/-! ### DL_BLOCKS (R320) -/

theorem passOn_up {side : Nat} (b : List Byte) (up : sideUp s (1 - side) = true) (free : sideIsolated s (1 - side) = false) :
    passOn side b s = foldOut (1 - side) b s := if_pos ⟨up, by simp [free]⟩

theorem passOn_fhp (side : Nat) (b : List Byte) (s : State) : (passOn side b s).fhp = s.fhp := by
  unfold passOn
  split <;> rfl

/-- What the blocks do at the device leaves the fold links. -/
theorem dlTake_cas (b : List Byte) (s : State) : (dlTake b s).cas = (passOn 0 b s).cas := by
  unfold dlTake; dsimp only
  split
  · rfl
  · refine (forAll_keeps (L := fun p => decide (p ∈ [Part.fhp])) (fun x t K => ?_) (Kept.refl _ (passOn 0 b s))).cas rfl
    split
    · exact K
    · exact enterFabric_keeps rfl (modFhp_keeps rfl K)

theorem pairsOf_lt (p : List Byte) {x : Nat × List Cplx} (h : x ∈ pairsOf p) : x.1 < 32 := by
  unfold pairsOf at h
  obtain ⟨i, hi, rfl⟩ := List.mem_map.mp h
  rw [List.mem_range] at hi
  dsimp only
  rw [List.getD_eq_getElem _ _ hi]
  exact List.mem_range.mp (List.mem_filter.mp (List.getElem_mem hi)).1

/-- Layers that nobody holds are left. -/
theorem dlTake_unheld {b : List Byte} (unheld : ∀ l : Fin 32, s.holder false l = none) : (dlTake b s).fhp = s.fhp := by
  have passed : Kept (fun p => decide (p ∈ [Part.cas])) s (passOn 0 b s) := passOn_keeps rfl (Kept.refl _ s)
  unfold dlTake; dsimp only
  split
  · exact passOn_fhp ..
  · have left : ∀ (l : List (Nat × List Cplx)) (f : Nat × List Cplx → State → State), (∀ x ∈ l, f x (passOn 0 b s) = passOn 0 b s) →
        forAll l f (passOn 0 b s) = passOn 0 b s := by
      intro l f
      induction l with
      | nil => exact fun _ => rfl
      | cons x l ih =>
        intro h
        rw [show forAll (x :: l) f (passOn 0 b s) = forAll l f (f x (passOn 0 b s)) from rfl, h x List.mem_cons_self]
        exact ih fun y hy => h y (List.mem_cons_of_mem x hy)
    rw [left]
    · exact passOn_fhp ..
    · intro x hx
      have none := unheld ⟨x.1, pairsOf_lt _ hx⟩
      refine if_pos ?_
      rw [State.holder, State.slot, passed.skn rfl]
      simpa [State.holder, State.slot] using none

/-! ### Sums (R321) -/

/-- The blocks that wait for other layers are as they were. -/
structure PartsBut (l : Nat) (s t : State) : Prop where
  others : ∀ j, j ≠ l → vget t.fhp.ulPart j = vget s.fhp.ulPart j

theorem PartsBut.refl (l : Nat) (s : State) : PartsBut l s s := ⟨fun _ _ => rfl⟩

theorem PartsBut.trans {l : Nat} {u : State} (h : PartsBut l s t) (k : PartsBut l t u) : PartsBut l s u :=
  ⟨fun j hj => (k.others j hj).trans (h.others j hj)⟩

theorem PartsBut.of_parts {l : Nat} (h : t.fhp.ulPart = s.fhp.ulPart) : PartsBut l s t := ⟨fun j _ => by rw [h]⟩

theorem partsBut_set (l : Nat) (v : Fhp → UlPart) (s : State) :
    PartsBut l s (s.modFhp (fun h => { h with ulPart := vset h.ulPart l (v h) })) := ⟨fun j hj => vget_vmod_ne _ _ hj⟩

theorem sendSection_parts (k : Nat) (f : FlockCfg) (y : LayerCfg) (c : Carrier) (start n : Nat) (x : List Cplx) (m : UlMarks) (s : State) :
    (sendSection k f y c start n x m s).fhp.ulPart = s.fhp.ulPart := by
  unfold sendSection
  split
  · rfl
  · rw [show ∀ (q : Nat) (w : List Byte) (u : State), (wireOut q w u).fhp.ulPart = u.fhp.ulPart from fun _ _ _ => rfl, State.addReg_fhp]
    rfl

theorem sendBlocks_parts (k l : Nat) (f : FlockCfg) (y : LayerCfg) (c : Carrier) (n : Nat) (s : State) : PartsBut l s (sendBlocks k l f y c n s) := by
  unfold sendBlocks; dsimp only
  exact (partsBut_set l _ s).trans (.of_parts (sendSection_parts ..))

theorem sectionsOut_parts (k l : Nat) (f : FlockCfg) (y : LayerCfg) (c : Carrier) (last : Bool) (fuel : Nat) (s : State) :
    PartsBut l s (sectionsOut k l f y c last fuel s) := by
  induction fuel generalizing s with
  | zero => exact .refl l s
  | succ fuel ih =>
    unfold sectionsOut; dsimp only
    split
    · exact .refl l s
    · split
      · exact (partsBut_set l _ s).trans (ih _)
      · split
        · exact (sendBlocks_parts ..).trans (ih _)
        · split
          · exact (sendBlocks_parts ..).trans (ih _)
          · exact .refl l s

theorem pushBlocks_parts (k l start : Nat) (f : FlockCfg) (y : LayerCfg) (c : Carrier) (bs : List (List Cplx × UlMarks)) (s : State) :
    PartsBut l s (pushBlocks k l start f y c bs s) := by
  have sent : PartsBut l s (if (vget s.fhp.ulPart l).blocks.isEmpty = true ∨
      (vget s.fhp.ulPart l).start + (vget s.fhp.ulPart l).blocks.length * blockTu c = start then s
      else sectionsOut k l f y c true ((vget s.fhp.ulPart l).blocks.length + 1) s) := by
    split
    · exact .refl l s
    · exact sectionsOut_parts ..
  have joined (v : State) (g : UlPart → UlPart) : PartsBut l v (v.modFhp (fun h => { h with ulPart := vmod h.ulPart l g })) :=
    ⟨fun j hj => vget_vmod_ne _ _ hj⟩
  exact sent.trans (joined _ _)

/-- Blocks that wait for nothing before them begin a section. -/
theorem pushBlocks_begins {l : Nat} (hl : l < 32) (empty : (vget s.fhp.ulPart l).blocks = []) (k start : Nat) (f : FlockCfg) (y : LayerCfg)
    (c : Carrier) (bs : List (List Cplx × UlMarks)) :
    (pushBlocks k l start f y c bs s) = s.modFhp (fun h => { h with ulPart := vmod h.ulPart l (fun u =>
      if u.blocks.isEmpty then { start := start, blocks := bs } else { u with blocks := u.blocks ++ bs }) }) ∧
    vget (pushBlocks k l start f y c bs s).fhp.ulPart l = { start := start, blocks := bs } := by
  have done : pushBlocks k l start f y c bs s = s.modFhp (fun h => { h with ulPart := vmod h.ulPart l (fun u =>
      if u.blocks.isEmpty then { start := start, blocks := bs } else { u with blocks := u.blocks ++ bs }) }) := by
    unfold pushBlocks; dsimp only
    rw [if_pos (.inl (by simp [empty]))]
  refine ⟨done, ?_⟩
  rw [done, State.modFhp_fhp]
  exact (vget_vmod_same _ _ hl).trans (if_pos (by simp [empty]))

theorem ulSatCount_fhp (l sat : Nat) (s : State) : (ulSatCount l sat s).fhp = s.fhp := by
  unfold ulSatCount
  split
  · rfl
  · rw [State.raise_fhp, State.addReg_fhp]

theorem takeSum_parts (l start : Nat) (x : List Cplx) (m : UlMarks) (s : State) : PartsBut l s (takeSum l start x m s) := by
  unfold takeSum; dsimp only
  have counted : PartsBut l s (ulSatCount l (x.filter overQ23).length s) := .of_parts (congrArg Fhp.ulPart (ulSatCount_fhp ..))
  split
  · exact counted.trans (pushBlocks_parts ..)
  · exact counted

/-- The slot of a layer is served for a flock on its carrier, and no block of it waits. -/
structure SumReady (s : State) (l k : Nat) (f : FlockCfg) (y : LayerCfg) (c : Carrier) : Prop where
  holder : s.holder true l = some k
  flock : s.flockCfg k = some f
  layer : s.layer true l = some y
  carrier : layerCarrier s true l = some c
  empty : (vget s.fhp.ulPart l).blocks = []

section

variable {l k : Nat} {f : FlockCfg} {y : LayerCfg} {c : Carrier}

theorem SumReady.kept {L : Part → Bool} (h : SumReady s l k f y c) (K : Kept L s t) (skn : L .skn = false) (wrp : L .wrp = false)
    (parts : vget t.fhp.ulPart l = vget s.fhp.ulPart l) : SumReady t l k f y c := by
  obtain ⟨holder, flock, layer, carrier, empty⟩ := h
  have sameHolder : t.holder true l = s.holder true l := by rw [State.holder, State.slot, K.skn skn, State.holder, State.slot]
  have sameWarp : t.warp = s.warp := by rw [State.warp, K.wrp wrp, State.warp]
  refine ⟨sameHolder.trans holder, ?_, ?_, ?_, by rw [parts]; exact empty⟩
  · rw [State.flockCfg, sameWarp]; exact flock
  · rw [State.layer, sameWarp]; exact layer
  · rw [layerCarrier, State.layer, sameWarp]
    simp only [State.carrier, sameWarp]
    exact carrier

/-- The sum of a pair is two blocks that wait. -/
theorem takeSum_fills (hl : l < 32) (h : SumReady s l k f y c) (start : Nat) (x : List Cplx) (m : UlMarks) :
    (vget (takeSum l start x m s).fhp.ulPart l).blocks.length = 2 ∧ (vget (takeSum l start x m s).fhp.ulPart l).start = start := by
  unfold takeSum; dsimp only
  rw [h.holder, Option.bind_some, h.flock, h.layer, h.carrier]
  dsimp only [Option.map_some]
  rw [(pushBlocks_begins hl (by rw [ulSatCount_fhp]; exact h.empty) k start f y c _).2]
  exact ⟨by simp [markedBlocks], rfl⟩

theorem takeSums_others {ls : List Nat} (out : l ∉ ls) (start : Nat) (sum : Nat → List Cplx) (mark : Nat → UlMarks) (s : State) :
    vget (forAll ls (fun j s => takeSum j start (sum j) (mark j) s) s).fhp.ulPart l = vget s.fhp.ulPart l := by
  induction ls generalizing s with
  | nil => rfl
  | cons j ls ih =>
    obtain ⟨other, out⟩ := not_or.mp (mt List.mem_cons.mpr out)
    exact (ih out _).trans ((takeSum_parts j start _ _ s).others l other)

/-- Each layer of a carrier gets its pair, and keeps it. -/
theorem takeSums_fill (hl : l < 32) {ls : List Nat} (nodup : ls.Nodup) (mem : l ∈ ls) (h : SumReady s l k f y c) (start : Nat)
    (sum : Nat → List Cplx) (mark : Nat → UlMarks) :
    let t := forAll ls (fun j s => takeSum j start (sum j) (mark j) s) s
    (vget t.fhp.ulPart l).blocks.length = 2 ∧ (vget t.fhp.ulPart l).start = start := by
  induction ls generalizing s with
  | nil => cases mem
  | cons j ls ih =>
    obtain ⟨fresh, nodup⟩ := List.nodup_cons.mp nodup
    intro t
    have rest : t = forAll ls (fun j s => takeSum j start (sum j) (mark j) s) (takeSum j start (sum j) (mark j) s) := rfl
    obtain rfl | mem := List.mem_cons.mp mem
    · rw [rest, takeSums_others fresh]
      exact takeSum_fills hl h start _ _
    · have other : l ≠ j := fun e => fresh (e ▸ mem)
      have kept : Kept (fun p => decide (p ∈ [Part.regs, .fhp])) s (takeSum j start (sum j) (mark j) s) := takeSum_keeps rfl rfl (Kept.refl _ s)
      exact ih nodup mem (h.kept kept rfl rfl ((takeSum_parts j start _ _ s).others l other))

end

theorem tailsOn_part (ls : List Nat) (start : Nat) (rx : List (List Cplx)) (s : State) (l : Nat) :
    vget (tailsOn ls start rx s).fhp.ulPart l = vget s.fhp.ulPart l := by
  rw [tailsOn, State.modFhp_fhp]

theorem layersUp_nodup (s : State) (ci : Nat) : (layersUp s ci).Nodup := List.nodup_range.filter _

theorem layersUp_lt {ci l : Nat} (h : l ∈ layersUp s ci) : l < 32 := List.mem_range.mp (List.mem_filter.mp h).1

section

variable {ci start flags fallback : Nat} {below : List (Nat × List Cplx)} {adc : List (List Cplx)} {m : UlMarks}

/-- At a bellwether the sums of a pair are taken, layer by layer. -/
theorem ulPair_bellwether (served : s.carrier true ci ≠ none) (bell : isBellwether s = true) :
    ∃ (sum : Nat → List Cplx) (mark : Nat → UlMarks), ulPair ci start below flags fallback adc m s =
      forAll (layersUp s ci) (fun l s => takeSum l start (sum l) (mark l) s) (tailsOn (layersUp s ci) start (rxRows s start adc) s) := by
  cases hc : s.carrier true ci with
  | none => exact absurd hc served
  | some c =>
    unfold ulPair
    rw [hc]
    dsimp only
    rw [if_pos bell]
    exact ⟨_, _, rfl⟩

theorem ulPair_idle (plain : isBellwether s = false) (idle : isStackMember s = false ∨ s.cas.selfJoined = false ∨ layersUp s ci = []) :
    ulPair ci start below flags fallback adc m s = s := by
  unfold ulPair
  split
  · rfl
  · dsimp only
    rw [if_neg (by simp [plain]), if_pos (by simpa using idle)]

theorem member_not_bellwether (h : isStackMember s = true) : isBellwether s = false := by
  unfold isStackMember at h
  unfold isBellwether
  simp only [Bool.and_eq_true, beq_iff_eq] at h
  simp [h.1]

/-- A joined member sends one frame upstream. -/
theorem ulPair_sends (served : s.carrier true ci ≠ none) (member : isStackMember s = true) (joined : s.cas.selfJoined = true)
    (some_ : layersUp s ci ≠ []) (up : sideUp s 0 = true) (free : sideIsolated s 0 = false) :
    (ulPair ci start below flags fallback adc m s).cas.out.length = s.cas.out.length + 1 := by
  have sends (v : State) (x : List Byte) (K : Kept (fun p => decide (p ∈ [Part.regs, .fhp])) s v) :
      (casSend 0x05 0 0 false x v).cas.out.length = s.cas.out.length + 1 := by
    have cas := K.cas rfl
    have up' : sideUp v 0 = true := by rw [sideUp, hasSide, cas, K.lne rfl]; exact up
    have free' : sideIsolated v 0 = false := by rw [sideIsolated, cas]; exact free
    unfold casSend
    rw [if_neg (by simp [up', free'])]
    simp [foldOut, cas]
  cases hc : s.carrier true ci with
  | none => exact absurd hc served
  | some c =>
    have counted (n : Nat) : Kept (fun p => decide (p ∈ [Part.regs, .fhp])) s
        (if n = 0 then s else (s.addReg Reg.CAS_SUM_SAT n).raise Reg.CAS_INT_STATUS 7) := by
      split
      · exact Kept.refl _ s
      · exact raise_keeps rfl (addReg_keeps rfl (Kept.refl _ s))
    unfold ulPair
    rw [hc]
    dsimp only
    rw [if_neg (by simp [member_not_bellwether member]), if_neg (by simp [member, joined, some_])]
    exact sends _ _ (tailsOn_keeps rfl (counted _))

end

/-! ### Pairs that missed their hop time (R320, R325, R326) -/

section

variable {l : Fin 32} {air : Nat} {c : Carrier} {dropped : Bool}

theorem hopMissed_alone (x : MissedPair) (alone : s.cas.role = 0) : hopMissed x dropped s = s := by
  have member : isStackMember s = false := by simp [isStackMember, alone]
  cases x with
  | dl l air =>
    unfold hopMissed; dsimp only
    split
    · rfl
    · exact if_pos (.inl (by simp [member]))
  | ul c start adc m => exact if_pos (.inl alone)

theorem hopMissed_covered (hc : layerCarrier s false l = some c) (h : isStackMember s = false ∨ s.cas.selfJoined = false ∨ neededAt s c air = false ∨
    insideOf s.fhp.covered l air (air + 1) = true ∨ insideOf s.fhp.subst l air (air + 1) = true) : hopMissed (.dl l air) dropped s = s := by
  unfold hopMissed; dsimp only
  rw [hc]
  exact if_pos (by simpa using h)

/-- A needed pair that nothing covers is substituted, and the miss is raised, whatever becomes of the neighbour. -/
theorem hopMissed_substitutes (hc : layerCarrier s false l = some c) (member : isStackMember s = true) (joined : s.cas.selfJoined = true)
    (needed : neededAt s c air = true) (covered : insideOf s.fhp.covered l air (air + 1) = false)
    (fresh : insideOf s.fhp.subst l air (air + 1) = false) :
    let t := hopMissed (.dl l air) dropped s
    t.fhp.subst = addSpan s.time.tb0 l air (symbolAfter c air) s.fhp.subst ∧
      (absentReg s.fuse.order Reg.CAS_INT_STATUS = false → t.bit Reg.CAS_INT_STATUS 9 = true) := by
  have counted (u : State) (p : Prop) [Decidable p] : FoldQuiet u (if p then u else u.addLo (Reg.CAS_LATE 0) 1) ∧
      (if p then u else u.addLo (Reg.CAS_LATE 0) 1).fuse = u.fuse := by
    split
    · exact ⟨.refl u, rfl⟩
    · exact ⟨foldQuiet_setReg (a := Reg.CAS_LATE 0) (by decide) _ u, State.addLo_fuse ..⟩
  have judged (u : State) (p : Prop) [Decidable p] : FoldQuiet u (if p then u else casViol 0 4 u) := .ite (.refl u) (foldQuiet_casViol 0 4 u)
  intro t
  obtain ⟨v, quiet, late, fuse⟩ : ∃ v, FoldQuiet (s.modFhp (fun f => { f with subst := addSpan s.time.tb0 l air (symbolAfter c air) f.subst })) v ∧
      FoldQuiet (v.raise Reg.CAS_INT_STATUS 9) t ∧ v.fuse = s.fuse := by
    subst t
    unfold hopMissed; dsimp only
    rw [hc]
    dsimp only
    rw [if_neg (by simp [member, joined, needed, covered, fresh])]
    exact ⟨_, (counted _ _).1, judged _ _, (counted _ _).2⟩
  obtain ⟨fl, fhp⟩ := quiet.flocks.trans ((FlocksOnly.of_fhp (State.raise_fhp ..)).trans late.flocks)
  refine ⟨by rw [fhp, State.modFhp_fhp], fun present => late.flag 9 (by decide) (State.bit_raise v ?_ (by decide))⟩
  rw [fuse]
  exact present

end

/-! ### STATUS (R324) -/

theorem joined_again {m d : Nat} (h : nbit m d = true) : m ||| 2 ^ d = m := by
  refine Nat.eq_of_testBit_eq fun i => ?_
  rw [Nat.testBit_or, Nat.testBit_two_pow]
  by_cases e : d = i
  · subst e
    have : m.testBit d = true := (nbit_eq_testBit m d).symm.trans h
    simp [this]
  · simp [e]

/-- The STATUS of a joined device is kept, and the joined set is as it was. -/
theorem statusTake_joined {d : Nat} {p : List Byte} (h : nbit s.cas.joined d = true) :
    (statusTake d p s).cas.joined = s.cas.joined ∧ (statusTake d p s).cas.statuses.head? = some (d, p) := by
  have same : (if nbit s.cas.joined (d - 1) then setJoined (s.cas.joined ||| 2 ^ d) s else s) = s := by
    split
    · exact if_pos (joined_again h)
    · rfl
  have told (l : List Nat) (f : Nat → State → State) (hf : ∀ q t, (f q t).cas = t.cas) (u : State) : (forAll l f u).cas = u.cas :=
    forAll_induct (P := fun t => t.cas = u.cas) (fun q t e => (hf q t).trans e) l rfl
  have noticed (k ev detail param : Nat) (t : State) : (t.notice k ev detail param).cas = t.cas :=
    (notice_keeps (L := fun p => decide (p ∈ [Part.regs, .fhp])) rfl rfl (Kept.refl _ t)).cas rfl
  unfold statusTake; dsimp only
  rw [same, if_neg (by simp [h])]
  split
  · exact ⟨rfl, rfl⟩
  · rw [told _ _ fun q t => told _ _ (fun k t => noticed ..) t, told _ _ fun q t => told _ _ (fun k t => noticed ..) t]
    exact ⟨rfl, rfl⟩

/-! ### Frames that pass -/

/-- What a command does under a condition, of one that always completes. -/
theorem completes_if {c : Instr} {p : Prop} {P : State → Prop} (total : ∃ t, exec c s = .next t) (h : p → completes c s P) :
    completes c s (fun t => p → P t) := by
  obtain ⟨t, e⟩ := total
  refine ⟨t, e, fun hp => ?_⟩
  obtain ⟨u, e', hu⟩ := h hp
  obtain rfl : t = u := by
    rw [e] at e'
    exact Host.Outcome.next.inj e'
  exact hu

section

variable {side : Fin 2} {b : List Byte} {fine : Fin 16} {rx : List (List Cplx)} {m : UlMarks}

theorem carrier_foldCounted (side : Nat) (s : State) (ul : Bool) (c : Nat) : (foldCounted side s).carrier ul c = s.carrier ul c := by
  rw [State.carrier, State.warp, (foldCounted_keeps side s).wrp rfl]
  rfl

/-- An ECHO of the last TIME frame keeps its receive time; another is counted alone. -/
theorem echo_passes (h : foldPasses s side 3 b) : completes (.echo side fine b) s (fun t =>
    (lastTimeSeq s = some (be (foldPayload b) 0 2) →
      t = (foldCounted side s).modCas (fun c => { c with echoT4 := s.time.tb0 + fine.val * 25000 })) ∧
    (lastTimeSeq s ≠ some (be (foldPayload b) 0 2) → t = foldCounted side s)) := by
  have counted := foldCounted_keeps side s
  have last : lastTimeSeq (foldCounted side s) = lastTimeSeq s := by rw [lastTimeSeq, counted.cas rfl, lastTimeSeq]
  have now : (arrival (foldCounted side s) fine).toNat = s.time.tb0 + fine.val * 25000 := by
    rw [arrival, counted.time rfl, Int.toNat_natCast]
  refine ⟨_, rfl, fun answers => ?_, fun other => ?_⟩ <;> rw [foldData_passes h]
  · rw [last, if_pos answers, now]
  · rw [last, if_neg other]

theorem dlBlocks_passes (h : foldPasses s side 4 b) : completes (.dlBlocks side b) s (fun t =>
    (sideUp s 1 = true → sideIsolated s 1 = false → t.cas.out = s.cas.out ++ [(1, b)]) ∧
    ((∀ l : Fin 32, s.holder false l = none) → t.fhp = s.fhp)) := by
  have counted := foldCounted_keeps side s
  refine ⟨_, rfl, fun up free => ?_, fun unheld => ?_⟩ <;> rw [foldData_passes h]
  · rw [dlTake_cas, passOn_up b (by rw [sideUp_foldCounted]; exact up) (by rw [sideIsolated_foldCounted]; exact free)]
    exact congrArg (· ++ [(1, b)]) (congrArg Cas.out (counted.cas rfl))
  · rw [dlTake_unheld fun l => ?_]
    · exact counted.fhp rfl
    · rw [State.holder, State.slot, counted.skn rfl]
      exact unheld l

theorem ulSums_passes {c : Carrier} (h : foldPasses s side 5 b) (hc : s.carrier true (byteAt (foldPayload b) 0 % 4) = some c) :
    exec (.ulSums side b rx m) s = .next (ulPair (byteAt (foldPayload b) 0 % 4) (pairStart s c (foldPayload b)) (pairsOf (foldPayload b))
      (byteAt (foldPayload b) 7) (be (foldPayload b) 12 4) rx m (foldCounted side s)) := by
  refine congrArg Host.Outcome.next ((foldData_passes h _).trans ?_)
  dsimp only
  rw [carrier_foldCounted, hc]
  dsimp only
  rw [pairStart, (foldCounted_keeps side s).time rfl, pairStart]

theorem status_passes (h : foldPasses s side 7 b) : completes (.status side b) s (fun t =>
    (s.cas.role ≠ 1 → t = passOn 1 b (foldCounted side s)) ∧
    (s.cas.role = 1 → nbit s.cas.joined (foldSrc b) = true → 
      t.cas.joined = s.cas.joined ∧ t.cas.statuses.head? = some (foldSrc b, foldPayload b))) := by
  have cas : (foldCounted side s).cas = s.cas := (foldCounted_keeps side s).cas rfl
  refine ⟨_, rfl, fun member => ?_, fun bell joined => ?_⟩ <;> rw [foldData_passes h]
  · rw [cas, if_neg member]
  · rw [cas, if_pos bell, ← cas]
    exact statusTake_joined (by rw [cas]; exact joined)

end

theorem ulPair_unserved {ci start flags fallback : Nat} {below : List (Nat × List Cplx)} {adc : List (List Cplx)} {m : UlMarks}
    (h : s.carrier true ci = none) : ulPair ci start below flags fallback adc m s = s := by
  unfold ulPair
  rw [h]

/-- At the last joined device a pair interval is the device's own part. -/
theorem ulPairSend_last {c : Fin 4} {start : Nat} {adc : List (List Cplx)} {m : UlMarks} (last : lastJoined s = true) :
    exec (.ulPairSend c start adc m) s = .next (ulPair c start [] 0 0 adc m s) := congrArg Host.Outcome.next (if_pos last)

theorem ulPairSend_done (ci : Fin 4) (start : Nat) (rx : List (List Cplx)) (m : UlMarks) : completes (.ulPairSend ci start rx m) s (fun t =>
    (lastJoined s = false ∨ s.carrier true ci = none → t = s) ∧
    (isBellwether s = false → isStackMember s = false ∨ s.cas.selfJoined = false ∨ layersUp s ci = [] → t = s) ∧
    (lastJoined s = true → s.carrier true ci ≠ none → isBellwether s = true → t.cas = s.cas ∧
      ∀ l : Fin 32, (l.val ∉ layersUp s ci → vget t.fhp.ulPart l = vget s.fhp.ulPart l) ∧
        ∀ k f y c, l.val ∈ layersUp s ci → s.holder true l = some k → s.flockCfg k = some f → s.layer true l = some y →
          layerCarrier s true l = some c → (vget s.fhp.ulPart l).blocks = [] →
          (vget t.fhp.ulPart l).blocks.length = 2 ∧ (vget t.fhp.ulPart l).start = start) ∧
    (lastJoined s = true → s.carrier true ci ≠ none → isStackMember s = true → s.cas.selfJoined = true → layersUp s ci ≠ [] →
      sideUp s 0 = true → sideIsolated s 0 = false → t.cas.out.length = s.cas.out.length + 1 ∧ changedOnly [.regs, .fhp, .cas] s t)) := by
  refine ⟨_, rfl, fun h => ?_, fun plain idle => ?_, fun last served bell => ?_, fun last served member joined some_ up free => ?_⟩
  · split
    next last => exact ulPair_unserved (h.resolve_left (by simp [last]))
    next => rfl
  · split
    · exact ulPair_idle plain idle
    · rfl
  · rw [if_pos last]
    obtain ⟨sum, mark, taken⟩ := ulPair_bellwether (start := start) (flags := 0) (fallback := 0) (below := []) (adc := rx) (m := m) served bell
    have tails : Kept (fun p => decide (p ∈ [Part.fhp])) s (tailsOn (layersUp s ci) start (rxRows s start rx) s) := tailsOn_keeps rfl (Kept.refl _ s)
    rw [taken]
    refine ⟨?_, fun l => ⟨fun out => (takeSums_others out start sum mark _).trans (tailsOn_part ..), fun k f y c mem holder flock layer carrier empty => ?_⟩⟩
    · exact ((forAll_keeps (L := fun p => decide (p ∈ [Part.regs, .fhp])) (fun _ _ K => takeSum_keeps rfl rfl K)
        (tailsOn_keeps rfl (Kept.refl _ s))).cas rfl)
    · exact takeSums_fill l.isLt (layersUp_nodup s ci) mem ((SumReady.mk holder flock layer carrier empty).kept tails rfl rfl (tailsOn_part ..)) start sum mark
  · rw [if_pos last]
    exact ⟨ulPair_sends served member joined some_ up free, (ulPair_keeps rfl rfl rfl (Kept.refl _ s)).changedOnly⟩

theorem hopTimeMissed_done (x : MissedPair) (dropped : Bool) : completes (.hopTimeMissed x dropped) s (fun t =>
    (s.cas.role = 0 → t = s) ∧
    (∀ (l : Fin 32) (air : Nat) (c : Carrier), x = .dl l air → layerCarrier s false l = some c →
      (isStackMember s = false ∨ s.cas.selfJoined = false ∨ neededAt s c air = false ∨ insideOf s.fhp.covered l air (air + 1) = true ∨
        insideOf s.fhp.subst l air (air + 1) = true → t = s) ∧
      (isStackMember s = true → s.cas.selfJoined = true → neededAt s c air = true → insideOf s.fhp.covered l air (air + 1) = false →
        insideOf s.fhp.subst l air (air + 1) = false →
        t.fhp.subst = addSpan s.time.tb0 l air (symbolAfter c air) s.fhp.subst ∧
        (absentReg s.fuse.order Reg.CAS_INT_STATUS = false → t.bit Reg.CAS_INT_STATUS 9 = true)))) := by
  refine ⟨_, rfl, hopMissed_alone x, fun l air c hx hc => ?_⟩
  subst hx
  exact ⟨hopMissed_covered hc, hopMissed_substitutes hc⟩

end

/-- Settles O37: each command of the fold links checks its frame, and does what its lemma says. -/
theorem stackFrames : Obligations.StackFrames := by
  unfold Obligations.StackFrames
  refine fun s side fine mis b rx m => ⟨fun c hc => ?_, ⟨_, rfl, fun h => ?_⟩, ⟨_, rfl, fun h => foldData_passes h _⟩, ⟨_, rfl, fun h => ?_⟩,
    completes_if ⟨_, rfl⟩ echo_passes, completes_if ⟨_, rfl⟩ fun h => ?_, completes_if ⟨_, rfl⟩ fun h => ⟨_, rfl, fun c hc => ?_⟩,
    completes_if ⟨_, rfl⟩ fun h => ?_, fun ci start => ulPairSend_done ci start rx m, hopTimeMissed_done⟩
  · obtain ⟨t, e, done⟩ := foldCommands_done hc
    exact ⟨t, e, done.checks⟩
  · rw [foldHello_passes h]
    exact helloTake_said ..
  · rw [foldData_passes h]
    exact timeTake_said ..
  · obtain ⟨t, e, passed, unheld⟩ := dlBlocks_passes h
    exact ⟨t, e, fun up free _ => passed up free, unheld⟩
  · exact Host.Outcome.next.inj (ulSums_passes h hc)
  · obtain ⟨t, e, member, bell⟩ := status_passes h
    exact ⟨t, e, member, fun role joined _ => bell role joined⟩

end Sys2Proof.Machine
end

section
/-!
SUPPORT. Sections that are taken, sent and answered, and messages that are accepted (R209, R258, R264, R265), with what they leave.
-/

namespace Sys2Proof.Machine

/-! ### A section that is on time (R265) -/

section

variable {s : State}

theorem flocksOnly_forAll {α : Type} {f : α → State → State} (l : List α) (hf : ∀ x t, FlocksOnly t (f x t)) (s : State) :
    FlocksOnly s (forAll l f s) := forAll_induct (P := FlocksOnly s) (fun x t h => h.trans (hf x t)) l (.refl s)

theorem mem_addSpan (now n a b : Nat) (l : List (Nat × Nat × Nat)) : (n, a, b) ∈ addSpan now n a b l :=
  List.mem_append_right _ (List.mem_singleton.mpr rfl)

/-- A section that nothing was substituted for is covered, and held unless its flock is quarantined. -/
theorem sectionAccept_holds {k q l first stop fmt n : Nat} {b : List Byte} (fresh : insideOf s.fhp.subst l first stop = false) :
    let t := sectionAccept k q l first stop fmt n b s
    (l, first, stop) ∈ t.fhp.covered ∧ ((vget s.fhp.flocks k).quar = false → t.fhp.ingress.length = s.fhp.ingress.length + 1) := by
  intro t
  have flocks (u : State) : FlocksOnly u (forAll ((sectionBlocks fmt n b).filter (badExponent fmt)) (fun _ s => flockViol k 8 s) u) :=
    flocksOnly_forAll _ (fun _ _ => flocksOnly_flockViol ..) u
  have counted (g : Fhp → Fhp) : ((s.addReg (Reg.FHP_PORT_IQ_RX q) 1).modFhp g).fhp = g s.fhp := by rw [State.modFhp_fhp, State.addReg_fhp]
  subst t
  unfold sectionAccept; dsimp only
  rw [if_neg (by simp [fresh]), counted]
  dsimp only
  obtain ⟨fl, kept⟩ := flocks (if (vget s.fhp.flocks k).quar = true
    then (s.addReg (Reg.FHP_PORT_IQ_RX q) 1).modFhp (fun f => { f with covered := addSpan s.time.tb0 l first stop f.covered })
    else ((s.addReg (Reg.FHP_PORT_IQ_RX q) 1).modFhp (fun f => { f with covered := addSpan s.time.tb0 l first stop f.covered })).modFhp
      (fun f => { f with ingress := f.ingress ++ [{ k := k, l := l, q := q, start := first, deadline := (deadlineOf s first).toNat
                                                    blocks := (sectionBlocks fmt n b).map (decodeBlock fmt) }] }))
  rw [kept]
  dsimp only
  split
  next quar =>
    rw [counted]
    exact ⟨mem_addSpan .., fun free => by rw [free] at quar; cases quar⟩
  next =>
    rw [State.modFhp_fhp, counted]
    exact ⟨mem_addSpan .., fun _ => by simp⟩

/-- A section on time for a slot its flock holds is accepted. -/
theorem iqSection_onTime {k q pcid l first : Nat} {b : List Byte} {c : Carrier} (good : badSection b = false)
    (held : sectionLayer s k pcid = some l) (hc : layerCarrier s false l = some c) (format : byteAt b 6 % 4 = c.format)
    (frame : be b 2 3 + byteAt b 5 ≤ frameBlocks c)
    (starts : first = nearSec s.time.tb0 (byteAt b 0) * secTu + byteAt b 1 * frameTu + be b 2 3 * blockTu c)
    (early : deadlineOf s first - (s.fld Reg.FHP_CFG 15 8 * usTu : Nat) ≤ (s.time.tb0 : Nat)) (late : ((s.time.tb0 : Nat) : Int) ≤ deadlineOf s first)
    (uncovered : meets s.fhp.covered l first (first + byteAt b 5 * blockTu c) = false) :
    iqSection k q pcid b s = sectionAccept k q l first (first + byteAt b 5 * blockTu c) (byteAt b 6 % 4) (byteAt b 5) b s := by
  unfold iqSection; dsimp only
  rw [if_neg (by simp [good]), held]
  dsimp only
  rw [hc]
  dsimp only
  rw [← starts, if_neg (by rw [not_or, not_not]; exact ⟨format, by omega⟩), if_neg (by omega), if_neg (by omega), if_neg (by simp [uncovered])]

/-! ### A section that is sent (R264) -/

theorem takeSeq_sent (k n : Nat) (s : State) : (takeSeq k n s).2.fhp.sent = s.fhp.sent := by
  unfold takeSeq; dsimp only
  rw [State.modFlock_fhp]

theorem sendSection_up {k start n : Nat} {f : FlockCfg} {y : LayerCfg} {c : Carrier} {x : List Cplx} {m : UlMarks} (up : portUp s y.port = true) :
    (sendSection k f y c start n x m s).fhp.sent.length = s.fhp.sent.length + 1 := by
  have wired (q : Nat) (w : List Byte) (u : State) : (wireOut q w u).fhp.sent.length = u.fhp.sent.length + 1 := by
    simp [wireOut]
  unfold sendSection; dsimp only
  rw [if_neg (by simp [up]), wired, State.addReg_fhp, takeSeq_sent]

/-- Blocks that wait leave as a section, and no block waits after them. -/
theorem sendBlocks_up {k l n : Nat} {f : FlockCfg} {y : LayerCfg} {c : Carrier} (hl : l < 32) (up : portUp s y.port = true)
    (all : (vget s.fhp.ulPart l).blocks.length ≤ n) :
    (sendBlocks k l f y c n s).fhp.sent.length = s.fhp.sent.length + 1 ∧ (vget (sendBlocks k l f y c n s).fhp.ulPart l).blocks = [] := by
  unfold sendBlocks; dsimp only
  refine ⟨(sendSection_up (by rw [portUp, State.modFhp_lne]; exact up)).trans (by rw [State.modFhp_fhp]), ?_⟩
  rw [sendSection_parts, State.modFhp_fhp]
  dsimp only
  rw [vget_vset, if_pos ⟨rfl, hl⟩, if_pos all]

theorem sectionsOut_empty {k l fuel : Nat} {f : FlockCfg} {y : LayerCfg} {c : Carrier} {last : Bool} (none : (vget s.fhp.ulPart l).blocks = []) :
    sectionsOut k l f y c last fuel s = s := by
  cases fuel with
  | zero => rfl
  | succ fuel =>
    unfold sectionsOut; dsimp only
    rw [if_pos (by rw [none]; rfl)]

/-- The blocks of a whole section, all in RX, leave as one. -/
theorem sectionsOut_whole {k l fuel count : Nat} {f : FlockCfg} {y : LayerCfg} {c : Carrier} {last : Bool} (hl : l < 32) (up : portUp s y.port = true)
    (some_ : 1 ≤ count) (waits : (vget s.fhp.ulPart l).blocks.length = count)
    (size : count = min (sectionLimit s k c.format) (frameBlocks c - blockNo c (vget s.fhp.ulPart l).start))
    (rx : ∀ i < count, blockInRx s c ((vget s.fhp.ulPart l).start + i * blockTu c) = true) :
    (sectionsOut k l f y c last (fuel + 1) s).fhp.sent.length = s.fhp.sent.length + 1 := by
  have open_ : (List.range count).takeWhile (fun i => blockInRx s c ((vget s.fhp.ulPart l).start + i * blockTu c)) = List.range count :=
    List.takeWhile_eq_self_iff.mpr fun i hi => rx i (List.mem_range.mp hi)
  obtain ⟨sent, none⟩ := sendBlocks_up (k := k) (n := max 1 count) (f := f) (c := c) hl up (by omega)
  unfold sectionsOut; dsimp only
  rw [waits, open_, List.length_range, ← size, if_neg (by omega), if_neg (by omega), if_pos le_rfl, sectionsOut_empty none]
  exact sent

theorem ulSatCount_keeps' (l sat : Nat) (s : State) : Kept (fun p => decide (p ∈ [Part.regs])) s (ulSatCount l sat s) :=
  ulSatCount_keeps rfl (Kept.refl _ s)

theorem ulSatCount_blocks (l : Fin 32) (sat : Nat) (s : State) : (ulSatCount l sat s).reg Reg.FHP_UL_BLOCKS = s.reg Reg.FHP_UL_BLOCKS := by
  unfold ulSatCount
  split
  · rfl
  · rw [State.raise_reg_ne _ (by decide), State.addReg_reg_ne _ (by unfold Reg.FHP_UL_BLOCKS Reg.SKN_UL_SAT; omega)]

/-- What the sending of a layer's uplink blocks reads of the state is as it was: the ports, the groups, and the blocks of a section. -/
structure SendsAs (s t : State) : Prop where
  lne : t.lne = s.lne
  rad : t.rad = s.rad
  limit : t.reg Reg.FHP_UL_BLOCKS = s.reg Reg.FHP_UL_BLOCKS
  flocks : t.fhp.flocks = s.fhp.flocks
  sent : t.fhp.sent = s.fhp.sent

theorem SendsAs.trans {t u : State} (h : SendsAs s t) (g : SendsAs t u) : SendsAs s u :=
  ⟨g.lne.trans h.lne, g.rad.trans h.rad, g.limit.trans h.limit, g.flocks.trans h.flocks, g.sent.trans h.sent⟩

theorem SendsAs.portUp {t : State} (h : SendsAs s t) (q : Nat) : portUp t q = portUp s q := by
  unfold Machine.portUp
  rw [h.lne]

theorem SendsAs.inRx {t : State} (h : SendsAs s t) (c : Carrier) (start : Nat) : blockInRx t c start = blockInRx s c start := by
  have group (g a b : Nat) : groupRxIn t g a b = groupRxIn s g a b := by
    unfold groupRxIn grp
    rw [h.rad]
  unfold blockInRx
  simp only [group]

theorem SendsAs.sectionLimit {t : State} (h : SendsAs s t) (k n : Nat) : sectionLimit t k n = sectionLimit s k n := by
  unfold Machine.sectionLimit State.fld
  rw [h.limit, h.flocks]

/-- Blocks with none before them that fill a section leave at once. -/
theorem pushBlocks_sends {k l start count : Nat} {f : FlockCfg} {y : LayerCfg} {c : Carrier} {bs : List (List Cplx × UlMarks)} (hl : l < 32)
    (none : (vget s.fhp.ulPart l).blocks = []) (up : portUp s y.port = true) (some_ : 1 ≤ count) (length : bs.length = count)
    (size : count = min (sectionLimit s k c.format) (frameBlocks c - blockNo c start))
    (rx : ∀ i < count, blockInRx s c (start + i * blockTu c) = true) (fuel : Nat) :
    (sectionsOut k l f y c false (fuel + 1) (pushBlocks k l start f y c bs s)).fhp.sent.length = s.fhp.sent.length + 1 := by
  obtain ⟨pushed, part⟩ := pushBlocks_begins hl none k start f y c bs
  have as : SendsAs s (pushBlocks k l start f y c bs s) := by
    rw [pushed]
    exact ⟨rfl, rfl, rfl, by rw [State.modFhp_fhp], by rw [State.modFhp_fhp]⟩
  rw [sectionsOut_whole hl (by rw [as.portUp]; exact up) some_ (by rw [part]; exact length) (by rw [part, as.sectionLimit]; exact size)
    (by rw [part]; intro i hi; rw [as.inRx]; exact rx i hi), as.sent]

/-- Blocks that fill a section leave at once. -/
theorem ulSectionSend_sends {l : Fin 32} {start count k : Nat} {rx : List (List Cplx)} {m : UlMarks} {y : LayerCfg} {c : Carrier} {f : FlockCfg}
    (alone : isBellwether s = false) (held : s.holder true l = some k) (hy : s.layer true l = some y) (hc : layerCarrier s true l = some c)
    (hf : s.flockCfg k = some f) (up : portUp s y.port = true) (none : (vget s.fhp.ulPart l).blocks = []) (some_ : 1 ≤ count)
    (size : count = min (sectionLimit s k c.format) (frameBlocks c - blockNo c start))
    (inRx : ∀ i, i < count → blockInRx s c (start + i * blockTu c) = true) :
    (ulSectionSend l start count rx m s).fhp.sent.length = s.fhp.sent.length + 1 := by
  have as (sat : Nat) (next : List Cplx) :
      SendsAs s ((ulSatCount l sat s).modFhp (fun h => { h with ulTail := vset h.ulTail l next })) := by
    have kept := ulSatCount_keeps' l sat s
    have fhp := ulSatCount_fhp l sat s
    exact ⟨kept.lne rfl, kept.rad rfl, ulSatCount_blocks l sat s, by rw [State.modFhp_fhp, fhp], by rw [State.modFhp_fhp, fhp]⟩
  unfold ulSectionSend
  rw [held, hy, hc]
  dsimp only
  rw [hf]
  dsimp only
  rw [if_neg (by simp [alone])]
  have now := as (uplinkSamples s l c start (rxRows s start rx)).2.1 (uplinkSamples s l c start (rxRows s start rx)).2.2
  rw [pushBlocks_sends l.isLt (by rw [State.modFhp_fhp, ulSatCount_fhp]; exact none) (by rw [now.portUp]; exact up) some_
    (by simp [markedBlocks]) (by rw [now.sectionLimit]; exact size) (by intro i hi; rw [now.inRx]; exact inRx i hi), now.sent]

end

end Sys2Proof.Machine
end

section
/-!
SUPPORT. Admission at its times: the end of an epoch, the changes of slots, the limits and windows, the release of all slots of a flock, and
its quarantine (R26, R29, R276, R278, R281, R282).
-/

namespace Sys2Proof.Machine

section

variable {s t u : State}

/-! ### What messages and plans leave of the epoch -/

theorem FlocksOnly.holding (h : FlocksOnly s t) (ul : Bool) (l : Nat) : holding t ul l = holding s ul l := by
  obtain ⟨fl, h⟩ := h
  unfold Machine.holding
  rw [h]

/-- The epoch goes on: its number and the requests entered in it stay. -/
structure SameEpoch (s t : State) : Prop where
  epoch : t.fhp.epoch = s.fhp.epoch
  reqs : t.fhp.reqs = s.fhp.reqs

theorem SameEpoch.refl (s : State) : SameEpoch s s := ⟨rfl, rfl⟩

theorem SameEpoch.trans (h : SameEpoch s t) (g : SameEpoch t u) : SameEpoch s u := ⟨g.epoch.trans h.epoch, g.reqs.trans h.reqs⟩

theorem FlocksOnly.sameEpoch (h : FlocksOnly s t) : SameEpoch s t := by
  obtain ⟨fl, h⟩ := h
  exact ⟨by rw [h], by rw [h]⟩

theorem SameEpoch.of_fhp (h : t.fhp = s.fhp) : SameEpoch s t := (FlocksOnly.of_fhp h).sameEpoch

theorem SameEpoch.of_kept {L : Part → Bool} (h : Kept L s t) (fhp : L .fhp = false) : SameEpoch s t := .of_fhp (h.fhp fhp)

/-- A change of the fronthaul that leaves the epoch and its requests. -/
theorem SameEpoch.modFhp {f : Fhp → Fhp} (epoch : ∀ x, (f x).epoch = x.epoch) (reqs : ∀ x, (f x).reqs = x.reqs) (s : State) :
    SameEpoch s (s.modFhp f) :=
  ⟨(congrArg Fhp.epoch (State.modFhp_fhp ..)).trans (epoch _), (congrArg Fhp.reqs (State.modFhp_fhp ..)).trans (reqs _)⟩

theorem SameEpoch.forAll {α : Type} {f : α → State → State} (l : List α) (hf : ∀ x t, SameEpoch t (f x t)) (s : State) :
    SameEpoch s (forAll l f s) := forAll_induct (P := SameEpoch s) (fun x t h => h.trans (hf x t)) l (.refl s)

theorem admitReply_flocksOnly (r : AdmReq) (outcome reason slots air : Nat) (s : State) : FlocksOnly s (admitReply r outcome reason slots air s) := by
  have raised (b : Nat) (v : State) : FlocksOnly v (v.raise Reg.FHP_INT_STATUS b) := .of_fhp (State.raise_fhp ..)
  unfold admitReply; dsimp only
  split
  · exact (flocksOnly_post ..).trans (raised 0 _)
  · split
    · exact (flocksOnly_post ..).trans (raised 1 _)
    · exact flocksOnly_post ..

theorem preempted_flocksOnly (k reason : Nat) (ul : Bool) (slots air : Nat) (s : State) : FlocksOnly s (preempted k reason ul slots air s) := by
  unfold preempted; dsimp only
  split
  · exact .refl s
  · exact (flocksOnly_modFlock k _ s).trans ((flocksOnly_post ..).trans (.of_fhp (State.raise_fhp ..)))

theorem setHolding_sameEpoch (ul : Bool) (l : Nat) (h : Option Holding) (s : State) : SameEpoch s (setHolding ul l h s) := by
  unfold setHolding
  cases ul
  · exact .modFhp (by exact fun _ => rfl) (by exact fun _ => rfl) s
  · exact .modFhp (by exact fun _ => rfl) (by exact fun _ => rfl) s

theorem planChange_sameEpoch (ul : Bool) (l at_ : Nat) (to_ : Option Nat) (s : State) : SameEpoch s (planChange ul l at_ to_ s) := by
  unfold planChange; dsimp only
  exact (SameEpoch.modFhp (by exact fun _ => rfl) (by exact fun _ => rfl) s).trans (.of_fhp (relayControl_fhp ..))

theorem dropReq_sameEpoch (r : AdmReq) (s : State) : SameEpoch s (dropReq r s) :=
  (SameEpoch.modFhp (by exact fun _ => rfl) (by exact fun _ => rfl) s).trans (flocksOnly_modFlock ..).sameEpoch

theorem serveReq_sameEpoch (r : AdmReq) (te : Nat) (s : State) : SameEpoch s (serveReq r te s) := by
  unfold serveReq planServe; dsimp only
  refine ((SameEpoch.forAll _ ?_ s).trans ((dropReq_sameEpoch r _).trans (SameEpoch.forAll _ ?_ _))).trans (admitReply_flocksOnly ..).sameEpoch
  · exact fun k t => (preempted_flocksOnly ..).sameEpoch
  · exact fun l t => (setHolding_sameEpoch ..).trans (planChange_sameEpoch ..)

theorem tieQueue_sameEpoch (r : AdmReq) (te : Nat) (s : State) : SameEpoch s (tieQueue r te s) := by
  unfold tieQueue; dsimp only
  exact (SameEpoch.modFhp (by exact fun _ => rfl) (by exact fun _ => rfl) s).trans (admitReply_flocksOnly ..).sameEpoch

theorem decideReq_sameEpoch (te : Nat) (x : Cand) (a : State × List AdmReq) : SameEpoch a.1 (decideReq te x a).1 := by
  obtain ⟨s, ahead⟩ := a
  have told (outcome reason air : Nat) (v : State) : SameEpoch v (admitReply x.r outcome reason 0 air v) := (admitReply_flocksOnly ..).sameEpoch
  unfold decideReq; dsimp only
  split
  · exact .refl s
  · split
    · exact serveReq_sameEpoch ..
    · split
      · exact .refl s
      · split
        · dsimp only
          exact told ..
        · split
          · exact tieQueue_sameEpoch ..
          · split
            · dsimp only
              exact (flocksOnly_modFlock ..).sameEpoch.trans (told ..)
            · dsimp only
              exact told ..

theorem arbMove_sameEpoch (x : Resource) (w : Nat) (s : State) : SameEpoch s (arbMove x w s) := .modFhp (by exact fun _ => rfl) (by exact fun _ => rfl) s

theorem arbTied_sameEpoch (x : Resource) (l : List Ask) (s : State) : SameEpoch s (arbTied x l s) := by
  unfold arbTied
  split
  · exact arbMove_sameEpoch ..
  · exact .refl s

theorem scanTie_sameEpoch (g : List Cand) (a : State × List Cand) : SameEpoch a.1 (scanTie g a).1 := by
  unfold scanTie
  split
  · split
    · exact arbMove_sameEpoch ..
    · exact .refl a.1
  · exact .refl a.1

theorem foldl_sameEpoch {α β : Type} {f : State × β → α → State × β} (hf : ∀ a x, SameEpoch a.1 (f a x).1) (l : List α) (a : State × β) :
    SameEpoch a.1 (l.foldl f a).1 := by
  induction l generalizing a with
  | nil => exact .refl a.1
  | cons x l ih => exact (hf a x).trans (ih _)

theorem rankAll_sameEpoch (fresh : List AdmReq) (s : State) : SameEpoch s (rankAll fresh s).1 := by
  unfold rankAll; dsimp only
  exact foldl_sameEpoch (fun a g => scanTie_sameEpoch g a) _ (s, [])

/-! ### The end of an epoch (R26) -/

theorem decideEpoch_requests (te : Nat) (s : State) : (decideEpoch te s).fhp.epoch = s.fhp.epoch ∧ (decideEpoch te s).fhp.reqs = [] := by
  have taken : SameEpoch (s.modFhp (fun f => { f with reqs := [] })) (decideEpoch te s) := by
    unfold decideEpoch; dsimp only
    refine ((SameEpoch.forAll _ ?_ _).trans (rankAll_sameEpoch _ _)).trans (foldl_sameEpoch (fun a x => decideReq_sameEpoch te x a) _ (_, []))
    exact fun r t => (admitReply_flocksOnly ..).sameEpoch
  exact ⟨taken.epoch.trans (by rw [State.modFhp_fhp]), taken.reqs.trans (by rw [State.modFhp_fhp])⟩

theorem armRefuse_sameEpoch (st code : Nat) (s : State) : SameEpoch s (armRefuse st code s) :=
  .of_kept (armRefuse_keeps (L := fun p => decide (p ∈ [Part.regs, .acq])) rfl rfl (Kept.refl _ s)) rfl

theorem modStream_sameEpoch (st : Nat) (f : Stream → Stream) (s : State) : SameEpoch s (s.modStream st f) :=
  .of_kept (modStream_keeps (L := fun p => decide (p ∈ [Part.acq])) rfl (Kept.refl _ s)) rfl

theorem armStream_sameEpoch (st : Nat) (s : State) : SameEpoch s (armStream st s) :=
  .of_kept (armStream_keeps (L := fun p => decide (p ∈ [Part.regs, .dpd, .acq])) rfl rfl rfl (Kept.refl _ s)) rfl

theorem refuseArms_sameEpoch (st : Nat) (s : State) : SameEpoch s (refuseArms st s) :=
  .of_kept (refuseArms_keeps (L := fun p => decide (p ∈ [Part.regs, .acq])) rfl rfl (Kept.refl _ s)) rfl

theorem SameEpoch.ite {c : Prop} [Decidable c] (h : SameEpoch s t) (g : SameEpoch s u) : SameEpoch s (if c then t else u) := by
  split
  · exact h
  · exact g

theorem streamEpoch_sameEpoch (st : Nat) (s : State) : SameEpoch s (streamEpoch st s) := by
  unfold streamEpoch; dsimp only
  split
  · exact refuseArms_sameEpoch ..
  · refine SameEpoch.trans ?_ (SameEpoch.forAll _ (fun _ t => armRefuse_sameEpoch st 1 t) _)
    have left (v : State) (p : Prop) [Decidable p] : SameEpoch v (if p then v.modStream st (fun x => { x with outcome := 3 }) else v) :=
      .ite (modStream_sameEpoch ..) (.refl v)
    have won (v : State) (p : Prop) [Decidable p] : SameEpoch v (if p then armStream st v else v) := .ite (armStream_sameEpoch ..) (.refl v)
    exact ((arbTied_sameEpoch ..).trans (modStream_sameEpoch ..)).trans ((won _ _).trans (left _ _))

theorem obsEpoch_sameEpoch (o : Nat) (s : State) : SameEpoch s (obsEpoch o s) := by
  have decided : SameEpoch s (obsDecide o s).1 := by
    unfold obsDecide; dsimp only
    split
    · exact .refl s
    · exact (arbTied_sameEpoch ..).trans (.of_fhp rfl)
  have refused (h : ObsHolder) (v : State) : SameEpoch v (obsRefuse o h v) :=
    .of_kept (obsRefuse_keeps (L := fun p => decide (p ∈ [Part.regs, .glb, .nvs, .pstate, .paths, .syn, .dpd, .rad, .acq]))
      rfl rfl rfl rfl rfl rfl rfl rfl rfl (Kept.refl _ v)) rfl
  exact decided.trans (SameEpoch.forAll _ (fun (a : Ask) t => refused a.who t) _)

theorem fftEpoch_sameEpoch (f : Nat) (s : State) : SameEpoch s (fftEpoch f s) := by
  unfold fftEpoch; dsimp only
  exact (SameEpoch.modFhp (by exact fun _ => rfl) (by exact fun _ => rfl) s).trans (.of_fhp (State.modFft_fhp ..))

/-- The end of an epoch counts it, and every request of it is decided. -/
theorem epochEnd_requests (s : State) : (epochEnd s).fhp.epoch = s.fhp.epoch + 1 ∧ (epochEnd s).fhp.reqs = [] := by
  obtain ⟨epoch, reqs⟩ := decideEpoch_requests (epochNow s) s
  have others := ((SameEpoch.forAll (List.range 4) streamEpoch_sameEpoch (decideEpoch (epochNow s) s)).trans
    (SameEpoch.forAll (List.range 8) obsEpoch_sameEpoch _)).trans (SameEpoch.forAll (List.range 8) fftEpoch_sameEpoch _)
  unfold epochEnd epochEndAt; dsimp only
  rw [State.modFhp_fhp]
  dsimp only
  exact ⟨congrArg (· + 1) (others.epoch.trans epoch), others.reqs.trans reqs⟩

theorem casEpoch_sameEpoch (s : State) : SameEpoch s (casEpoch s) := by
  have gone (side : Nat) {v w : State} (h : FoldQuiet v w) : SameEpoch v (w.modNbr side (fun n => { n with state := 0, hello := none })) :=
    h.flocks.sameEpoch.trans (.of_fhp (State.modNbr_fhp ..))
  have up (v : State) (p : Prop) [Decidable p] :
      SameEpoch v (if p then (isolateDown 0 v).modNbr 1 (fun n => { n with state := 0, hello := none }) else v) :=
    .ite (gone 1 (foldQuiet_isolateDown 0 v)) (.refl v)
  have down (v : State) (p : Prop) [Decidable p] :
      SameEpoch v (if p then (detach 0 v).modNbr 0 (fun n => { n with state := 0, hello := none }) else v) :=
    .ite (gone 0 (foldQuiet_detach 0 v)) (.refl v)
  have told (v : State) (p : Prop) [Decidable p] : SameEpoch v (if p then casSend 0x07 0 0 false (statusPayload v) v else v) :=
    .ite (.of_kept (casSend_keeps (L := fun p => decide (p ∈ [Part.cas])) rfl (Kept.refl _ v)) rfl) (.refl v)
  unfold casEpoch; dsimp only
  exact .ite (.refl s) ((up _ _).trans ((down _ _).trans (told _ _)))

/-! ### The changes of the earliest time (R276) -/

theorem swapReport_flocksOnly (ul : Bool) (l : Nat) (r : SwapReq) (outcome : Nat) (start : Int) (late byTag : Nat) (s : State) :
    FlocksOnly s (swapReport ul l r outcome start late byTag s) := by
  have host (x : SwapReport) (v : State) : FlocksOnly v (hostSwapReport x v) :=
    .of_fhp ((hostSwapReport_keeps (L := fun p => decide (p ∈ [Part.regs, .skn])) rfl rfl (Kept.refl _ v)).fhp rfl)
  unfold swapReport; dsimp only
  split
  · exact host ..
  · split
    · exact (flocksOnly_post ..).trans (host ..)
    · exact flocksOnly_post ..
  · exact .refl s

theorem resetSlot_flocksOnly (outcome : Nat) (ul : Bool) (l : Nat) (holder : Option Nat) (s : State) :
    FlocksOnly s (resetSlot outcome ul l holder s) := by
  unfold resetSlot discardPend
  refine FlocksOnly.trans ?_ (.of_fhp (State.modSlot_fhp ..))
  split
  · exact .refl s
  · exact (FlocksOnly.of_fhp ((State.raise_fhp ..).trans (State.modSlot_fhp ..))).trans (swapReport_flocksOnly ..)

/-- A change of a slot leaves the changes that are planned. -/
theorem applyChange_changes (x : SlotChange) (s : State) : (applyChange x s).fhp.changes = s.fhp.changes := by
  have reset : (resetSlot 5 x.ul x.l x.to_ s).fhp.changes = s.fhp.changes := by
    obtain ⟨fl, h⟩ := resetSlot_flocksOnly 5 x.ul x.l x.to_ s
    rw [h]
  have freed (v : State) : (setHolding x.ul x.l none v).fhp.changes = v.fhp.changes := by
    unfold setHolding
    rw [State.modFhp_fhp]
    split
    · rfl
    · rfl
  have covered (v : State) (p : Prop) [Decidable p] :
      (if p then v else v.modFhp (fun f => { f with covered := f.covered.filter (fun c => c.1 != x.l) })).fhp.changes = v.fhp.changes := by
    split
    · rfl
    · rw [State.modFhp_fhp]
  unfold applyChange; dsimp only
  split
  · rw [covered, reset]
  · rw [freed, covered, reset]

/-- The changes of the earliest time leave. -/
theorem slotEffective_takes {x : SlotChange} (mem : x ∈ s.fhp.changes) (least : ∀ y ∈ s.fhp.changes, x.at_ ≤ y.at_) :
    x ∉ (slotEffective s).fhp.changes := by
  unfold slotEffective
  split
  next empty => rw [List.map_eq_nil_iff.mp empty] at mem; cases mem
  next d ds times =>
    obtain ⟨isOne, below⟩ := foldl_min_spec d ds
    rw [← times] at isOne below
    obtain ⟨y, hy, first⟩ := List.mem_map.mp isOne
    have same : x.at_ = ds.foldl min d := Nat.le_antisymm (first ▸ least y hy) (below _ (List.mem_map_of_mem mem))
    have kept := forAll_induct (f := applyChange)
      (P := fun t => t.fhp.changes = (s.modFhp (fun f => { f with changes := f.changes.filter (fun x => x.at_ != ds.foldl min d) })).fhp.changes)
      (fun x t h => (applyChange_changes x t).trans h) (s.fhp.changes.filter (fun x => x.at_ == ds.foldl min d)) rfl
    dsimp only
    rw [kept, State.modFhp_fhp, List.mem_filter, same]
    simp

/-! ### The release of all slots of a flock (R278) -/

theorem holding_setHolding_dir {ul d : Bool} (other : d ≠ ul) (l j : Nat) (x : Option Holding) (s : State) :
    holding (setHolding d l x s) ul j = holding s ul j := by
  unfold setHolding holding
  rw [State.modFhp_fhp]
  cases Bool.eq_not_of_ne other
  cases ul with
  | false => rfl
  | true => rfl

/-- A planned end of a slot of one direction leaves what the slots of the other hold. -/
theorem holding_planEnd_dir {ul d : Bool} (other : d ≠ ul) (l at_ j : Nat) (s : State) : holding (planEnd d l at_ s) ul j = holding s ul j := by
  rcases planEnd_cases d l at_ s with ⟨same, -⟩ | ⟨h, e, -, planned⟩
  · rw [same]
  · have planChange_holding (v : State) : holding (planChange d l e none v) ul j = holding v ul j := by
      rw [planChange, holding, relayControl_fhp, State.modFhp_fhp, holding]
    rw [planned, endPlanned, planChange_holding, holding_setHolding_dir other]

variable {k : Nat} {ul : Bool} {l : Fin 32}

theorem planEnd_heldBy (d : Bool) (j : Fin 32) (at_ : Nat) (h : heldBy k ul l s) : heldBy k ul l (planEnd d j at_ s) := by
  obtain ⟨x, held, own⟩ := h
  by_cases other : d = ul
  · subst other
    by_cases same : l = j
    · obtain ⟨y, now, as, -⟩ := holding_planEnd_same (l := j) (same ▸ held) at_
      exact ⟨y, same ▸ now, as.trans own⟩
    · exact ⟨x, (holding_planEnd_ne (Fin.val_ne_of_ne same) ..).trans held, own⟩
  · exact ⟨x, (holding_planEnd_dir other ..).trans held, own⟩

theorem planEnd_endsFor (d : Bool) (j : Fin 32) (at_ : Nat) (h : endsFor k ul l s) : endsFor k ul l (planEnd d j at_ s) := by
  obtain ⟨x, held, own, ends⟩ := h
  by_cases other : d = ul
  · subst other
    by_cases same : l = j
    · obtain ⟨y, now, as, ended⟩ := holding_planEnd_same (l := j) (same ▸ held) at_
      exact ⟨y, same ▸ now, as.trans own, ended⟩
    · exact ⟨x, (holding_planEnd_ne (Fin.val_ne_of_ne same) ..).trans held, own, ends⟩
  · exact ⟨x, (holding_planEnd_dir other ..).trans held, own, ends⟩

/-- A planned end of a slot that a flock holds ends it. -/
theorem planEnd_ends (at_ : Nat) (h : heldBy k ul l s) : endsFor k ul l (planEnd ul l at_ s) := by
  obtain ⟨x, held, own⟩ := h
  obtain ⟨y, now, as, ended⟩ := holding_planEnd_same held at_
  exact ⟨y, now, as.trans own, ended⟩

/-- What every element's change keeps, and the change of one element brings about where something holds that all keep, all bring about. -/
theorem forAll_brings {α : Type} {f : α → State → State} {P Q : State → Prop} {x : α} {ls : List α} (hx : x ∈ ls)
    (stays : ∀ y ∈ ls, ∀ t, Q t → Q (f y t)) (keeps : ∀ y ∈ ls, ∀ t, P t → P (f y t)) (brings : ∀ t, Q t → P (f x t)) (h : Q s) :
    P (forAll ls f s) := by
  have after {js : List α} (keeps : ∀ y ∈ js, ∀ t, P t → P (f y t)) {t : State} (h : P t) : P (forAll js f t) := by
    induction js generalizing t with
    | nil => exact h
    | cons y js ih => exact ih (fun z hz => keeps z (List.mem_cons_of_mem y hz)) (keeps y List.mem_cons_self t h)
  induction ls generalizing s with
  | nil => cases hx
  | cons y ls ih =>
    have rest : ∀ z ∈ ls, ∀ t, P t → P (f z t) := fun z hz => keeps z (List.mem_cons_of_mem y hz)
    rcases List.mem_cons.mp hx with rfl | hx
    · exact after rest (brings s h)
    · exact ih hx (fun z hz => stays z (List.mem_cons_of_mem y hz)) rest (stays y List.mem_cons_self s h)

/-- The release of the slots of a flock on one carrier, in one direction. -/
def releaseCarrier (k : Nat) (d : Bool) (c : Nat) (s : State) : State :=
  let ls := (heldSlots s k d).filter (fun l => slotCarrier s d l == c)
  let eff := effective s d c (epochNext s)
  preempted k 7 d (maskOf ls) (toAir s eff) (forAll ls (planEnd d · eff) s)

theorem releaseAll_eq (k : Nat) (s : State) :
    releaseAll k s = forAll [false, true] (fun d s => forAll (List.range 4) (releaseCarrier k d) s) s := rfl

/-- A slot is held by a flock, and the warp is as it was. -/
structure HeldIn (w : Wrp) (k : Nat) (ul : Bool) (l : Nat) (s : State) : Prop where
  wrp : s.wrp = w
  held : heldBy k ul l s

theorem inside_of_held {d : Bool} {c j : Nat} (hj : j ∈ (heldSlots s k d).filter (fun l => slotCarrier s d l == c)) : j < 32 :=
  List.mem_range.mp (List.mem_filter.mp (List.mem_filter.mp hj).1).1

theorem preempted_endsFor (reason : Nat) (d : Bool) (slots air : Nat) (h : endsFor k ul l s) : endsFor k ul l (preempted k reason d slots air s) := by
  obtain ⟨x, held, own, ends⟩ := h
  exact ⟨x, ((preempted_flocksOnly ..).holding ..).trans held, own, ends⟩

/-- What every planned end keeps, the planned ends of a carrier's slots keep. -/
theorem planEnds_keep {P : State → Prop} {d : Bool} {eff : Nat} (keeps : ∀ (j : Fin 32) t, P t → P (planEnd d j eff t)) (c : Nat) (u : State)
    (h : P s) : P (forAll ((heldSlots u k d).filter (fun l => slotCarrier u d l == c)) (planEnd d · eff) s) := by
  generalize hls : (heldSlots u k d).filter (fun l => slotCarrier u d l == c) = ls
  have inside : ∀ j ∈ ls, j < 32 := fun j hj => inside_of_held (by rw [hls]; exact hj)
  clear hls
  induction ls generalizing s with
  | nil => exact h
  | cons j ls ih => exact ih (keeps ⟨j, inside j List.mem_cons_self⟩ s h) (fun i hi => inside i (List.mem_cons_of_mem j hi))

theorem releaseCarrier_endsFor (d : Bool) (c : Nat) (h : endsFor k ul l s) : endsFor k ul l (releaseCarrier k d c s) :=
  preempted_endsFor _ _ _ _ (planEnds_keep (P := endsFor k ul l) (fun j _ => planEnd_endsFor d j _) c s h)

theorem releaseCarrier_held {w : Wrp} (d : Bool) (c : Nat) (h : HeldIn w k ul l s) : HeldIn w k ul l (releaseCarrier k d c s) := by
  obtain ⟨wrp, held⟩ := h
  have kept : Kept (fun p => decide (p ∈ [Part.regs, .fhp, .cas])) s (releaseCarrier k d c s) :=
    preempted_keeps rfl rfl (forAll_keeps (fun x t h => planEnd_keeps rfl rfl h) (Kept.refl _ s))
  obtain ⟨x, now, own⟩ := planEnds_keep (P := heldBy k ul l) (fun j _ => planEnd_heldBy d j _) c s held
  exact ⟨(kept.wrp rfl).trans wrp, x, ((preempted_flocksOnly ..).holding ..).trans now, own⟩

theorem slotCarrier_wrp (h : t.wrp = s.wrp) (d : Bool) (l : Nat) : slotCarrier t d l = slotCarrier s d l := by
  unfold slotCarrier State.layer State.warp
  rw [h]

/-- The release of the carrier of a slot that a flock holds plans the end of the slot. -/
theorem releaseCarrier_ends (h : heldBy k ul l s) : endsFor k ul l (releaseCarrier k ul (slotCarrier s ul l) s) := by
  refine preempted_endsFor _ _ _ _ ?_
  have mem : l.val ∈ (heldSlots s k ul).filter (fun j => slotCarrier s ul j == slotCarrier s ul l) := by
    obtain ⟨x, held, own⟩ := h
    exact List.mem_filter.mpr ⟨List.mem_filter.mpr ⟨List.mem_range.mpr l.isLt, by rw [held]; simpa using own⟩, by simp⟩
  exact forAll_brings (P := endsFor k ul l) (Q := heldBy k ul l) mem (fun j hj t => planEnd_heldBy ul ⟨j, inside_of_held hj⟩ _)
    (fun j hj t => planEnd_endsFor ul ⟨j, inside_of_held hj⟩ _) (fun t => planEnd_ends _) h

/-- RELEASE_ALL plans the end of every slot that the flock holds on one of the four carriers. -/
theorem releaseAll_ends (carrier : slotCarrier s ul l < 4) (h : heldBy k ul l s) : endsFor k ul l (releaseAll k s) := by
  have all (d : Bool) (t : State) (h : HeldIn s.wrp k ul l t) : HeldIn s.wrp k ul l (forAll (List.range 4) (releaseCarrier k d) t) :=
    forAll_induct (fun c v hv => releaseCarrier_held d c hv) _ h
  rw [releaseAll_eq]
  refine forAll_brings (P := endsFor k ul l) (Q := HeldIn s.wrp k ul l) (x := ul) (by cases ul <;> simp) (fun d _ t => all d t)
    (fun d _ t h => forAll_induct (fun c v hv => releaseCarrier_endsFor d c hv) _ h) (fun t ht => ?_) ⟨rfl, h⟩
  refine forAll_brings (P := endsFor k ul l) (Q := HeldIn s.wrp k ul l) (List.mem_range.mpr carrier) (fun c _ v => releaseCarrier_held ul c)
    (fun c _ v => releaseCarrier_endsFor ul c) (fun v hv => ?_) ht
  rw [← slotCarrier_wrp hv.wrp]
  exact releaseCarrier_ends hv.held

end

/-! ### Quarantine of a flock (R281, R282) -/

section

variable {k : Fin 8} {s : State}

theorem notice_quar (k : Fin 8) (ev detail param : Nat) (s : State) :
    (vget (s.notice k ev detail param).fhp.flocks k).quar = (vget s.fhp.flocks k).quar := by
  unfold State.notice; dsimp only
  split
  · rfl
  · split
    · rfl
    · rw [post_flock, State.modFlock_fhp, vget_vmod_same _ _ k.isLt]
      rfl

theorem quarantineOn_begins (free : (vget s.fhp.flocks k).quar = false) (next : (vget s.fhp.flocks k).quarNext = true) :
    (vget (quarantineOn k s).fhp.flocks k).quar = true ∧ (quarantineOn k s).bit Reg.FHP_INT_STATUS 3 = true := by
  unfold quarantineOn; dsimp only
  rw [if_neg (by simp [free, next])]
  refine ⟨?_, ?_⟩
  · rw [flockEvent_fhp, State.raise_fhp, notice_quar, State.modFlock_fhp, vget_vmod_same _ _ k.isLt]
  · rw [State.bit, flockEvent_reg (by decide)]
    exact State.bit_raise _ (present_fhpInt _) (by decide)

theorem quarantineOff_ends (quar : (vget s.fhp.flocks k).quar = true) (clean : ∀ v ∈ (vget s.fhp.flocks k).viols, v + secTu ≤ s.time.tb1) :
    (vget (quarantineOff k s).fhp.flocks k).quar = false ∧ (quarantineOff k s).bit Reg.FHP_INT_STATUS 4 = true := by
  unfold quarantineOff; dsimp only
  rw [if_neg (by simpa [quar] using clean)]
  refine ⟨?_, State.bit_raise _ (present_fhpInt _) (by decide)⟩
  rw [State.raise_fhp, notice_quar, State.modFlock_fhp, vget_vmod_same _ _ k.isLt]

end

/-! ### Limits and windows (R29, R275) -/

theorem admitReply_refused (r : AdmReq) (reason slots air : Nat) (s : State) :
    (admitReply r 3 reason slots air s).bit Reg.FHP_INT_STATUS 1 = true := by
  unfold admitReply; dsimp only
  rw [if_neg (by decide), if_pos (.inl rfl)]
  exact State.bit_raise _ (present_fhpInt _) (by decide)

end Sys2Proof.Machine
end

section
/-!
SUPPORT. Messages of a flock that are accepted: a delay request, a swap and a burst (R171, R209, R258); and each command of the lanes, the
ports and the flocks, with what it completes.
-/

namespace Sys2Proof.Machine

section

variable {k : Fin 8} {q : Fin 2} {tag : BitVec 16} {b : List Byte} {s : State}

theorem flockCfg_of_served (h : flockServed s k = true) : ∃ f, s.flockCfg k = some f :=
  Option.isSome_iff_exists.mp (Bool.and_eq_true_iff.mp h).1

/-- A delay request of a served flock within its rate is answered on its port (R258). -/
theorem measurement_answers (served : flockServed s k = true) (up : portUp s q = true) (asks : byteAt b 1 = 0)
    (rate : (vget s.fhp.flocks k).msgs < s.fld Reg.FHP_CFG 23 16) (at_ : Nat) :
    (measurement k q at_ b s).fhp.sent.length = s.fhp.sent.length + 1 := by
  obtain ⟨f, cfg⟩ := flockCfg_of_served served
  have stamped (id at_ : Nat) (v : State) : (txtsPush q 1 id at_ v).fhp = v.fhp :=
    (txtsPush_keeps (L := fun p => decide (p ∈ [Part.regs, .tim])) rfl rfl (Kept.refl _ v)).fhp rfl
  have wired (w : List Byte) (v : State) : (wireOut q w v).fhp.sent.length = v.fhp.sent.length + 1 := by simp [wireOut]
  have counted : ((s.addHi (Reg.FHP_FLOCK_MSG k) 1).modFlock k (fun f => { f with msgs := f.msgs + 1 })).fhp.sent = s.fhp.sent := by
    rw [State.modFlock_fhp, State.addHi_fhp]
  have still : portUp ((s.addHi (Reg.FHP_FLOCK_MSG k) 1).modFlock k (fun f => { f with msgs := f.msgs + 1 })) q = true := by
    rw [portUp, State.modFlock_lne, State.addHi_lne]
    exact up
  unfold measurement; dsimp only
  rw [cfg]; dsimp only
  rw [asks, if_neg (by decide), police_taken rate]
  simp only
  rw [if_pos still, stamped, wired, counted]

/-- A request of the uplink that the rules allow takes the slot that waits for none (R171). -/
theorem swapReq_enters (h : messageTaken s k 0x11 b) (ul : nbit (byteAt b 0) 7 = true) (allowed : flockSwapCode (messageCounted k s) k b = 0)
    (free : (s.slot true (byteAt b 0 % 32)).pend = none) :
    ((messageDone 0x11 k q tag b s).slot true (byteAt b 0 % 32)).pend.any (fun r => decide (r.who = .flock k) && r.tag == tag.toNat) = true := by
  have told (v : State) (n : Nat) : (flockSwapReport k q tag.toNat 6 0 true n 0 0 0 v).skn = v.skn := State.post_skn ..
  have counted : (messageCounted k s).skn = s.skn := h.changed.skn rfl
  have inside : byteAt b 0 % 32 < 32 := Nat.mod_lt _ (by decide)
  generalize hl : byteAt b 0 % 32 = l at *
  have room : ((flockSwapReport k q tag.toNat 6 0 true l 0 0 0 (messageCounted k s)).slot true l).pend = none := by
    rw [State.slot, told, counted]
    exact free
  have done : messageDone 0x11 k q tag b s = swapReq k q tag.toNat b (messageCounted k s) := messageDone_taken h
  rw [done]; unfold swapReq flockSwap; dsimp only
  rw [if_neg (by simp [ul]), allowed, if_neg (by decide), if_neg (by decide), if_neg (by decide), ul, hl,
    (reportsOnly.of_eq (relaySwap_skn ..)).slot, swapAccept_free room, slot_modSlot true ⟨l, inside⟩]
  simp [swapMake]

/-- An accepted burst of a flock leaves the groups as its acceptance does. -/
theorem flockBurst_groups {j port n : Nat} {u : State} {st : GState} (allowed : flockBurstCode u j b = 0)
    (ret : gstateOf (byteAt b 0 / 16 % 8) = some st) : ∃ v, (flockBurst j port n b u).rad =
      (burstAccept (.flock j) port n (byteAt b 0 % 8) (nbit (byteAt b 0) 7) (timeNear u.time.tb0 (be b 8 4) (be b 12 4)) (be b 4 4) st v).rad := by
  unfold flockBurst; dsimp only
  rw [allowed, ret]
  exact ⟨_, (relayBurst_leaves ..).1⟩

/-- A receive burst that the rules allow joins its group (R209). -/
theorem burstReq_enters {st : GState} (h : messageTaken s k 0x20 b) (rx : nbit (byteAt b 0) 7 = false)
    (allowed : flockBurstCode (messageCounted k s) k b = 0) (ret : gstateOf (byteAt b 0 / 16 % 8) = some st) :
    (grp (messageDone 0x20 k q tag b s) (byteAt b 0 % 8)).bursts.any (fun x => decide (x.who = .flock k) && x.tag == tag.toNat && !x.tx) = true := by
  have done : messageDone 0x20 k q tag b s = burstReq k q tag.toNat b (messageCounted k s) := messageDone_taken h
  have entered : burstReq k q tag.toNat b (messageCounted k s) = flockBurst k q tag.toNat b (messageCounted k s) := by
    unfold burstReq; dsimp only
    rw [if_neg (by simp [rx]), allowed, if_neg (by decide)]
  obtain ⟨v, rad⟩ := flockBurst_groups (port := q) (n := tag.toNat) allowed ret
  obtain ⟨x, last, who, same, tx, -⟩ := burstAccept_joins (.flock k) q tag.toNat ⟨byteAt b 0 % 8, Nat.mod_lt _ (by decide)⟩
    (nbit (byteAt b 0) 7) (timeNear (messageCounted k s).time.tb0 (be b 8 4) (be b 12 4)) (be b 4 4) st v
  rw [done, entered, grp, rad]
  exact List.any_eq_true.mpr ⟨x, List.mem_of_getLast? last, by simp [who, same, tx, rx]⟩

end

/-! ### Frames of the two fronthaul protocols (R255) -/

section

variable {s : State} {q : Nat} {fine : Fin 16} {b : List Byte}

theorem frameSort_ptp (own : q < 2) (ptp : etherType b = 0x88F7) : frameSort q fine b s = ptpRx q fine (etherBody b) s := by
  unfold frameSort; dsimp only
  rw [if_neg (by omega), if_pos ptp]

theorem frameSort_flock {k : Nat} (own : q < 2) (ecpri : etherType b = 0xAEFE) (alone : isStackMember s = false)
    (flock : frameFlock s q b = some k) : frameSort q fine b s = ecpriRx q k (ingressAt s fine) (etherBody b) s := by
  unfold frameSort; dsimp only
  rw [if_neg (by omega), if_neg (by rw [ecpri]; decide), if_pos ⟨ecpri, by simp [alone]⟩, flock]

end

/-- Settles O58: each command's answer is its operation by definition, and the lemma of the operation gives its effect. -/
theorem laneAndFronthaulCommandsComplete : Obligations.LaneAndFronthaulCommandsComplete := by
  unfold Obligations.LaneAndFronthaulCommandsComplete
  refine fun s => ⟨fun q => ⟨fun step reached training runs low high alone => ⟨_, rfl, ?_⟩, fun paused plain => ⟨_, rfl, ?_⟩,
    fun found training alone runs whole all close none => ⟨_, rfl, ?_⟩, fun hs => ⟨fun st own rest free on well => ⟨_, rfl, ?_⟩,
    ⟨_, rfl, ?_⟩, ⟨_, rfl, ?_⟩, fun up alone plain => ⟨_, rfl, ?_⟩⟩, fun down may plain => ⟨_, rfl, ?_⟩,
    fun quar clean alone => ⟨_, rfl, ?_⟩, fun found n rn runs all close whole live none _ => ⟨_, rfl, ?_⟩,
    fun pass n looped => ⟨_, rfl, ?_⟩⟩,
    fun n now => ⟨fun step2 train training runs => ⟨_, rfl, suspectLane_taken n.isLt train training runs now⟩,
      fun up => ⟨_, rfl, cdrLoss_taken up now⟩, fun hs up free => ⟨_, rfl, ?_⟩⟩,
    fun k idle => ⟨_, rfl, ?_⟩, fun i w fitted stack stage free => ⟨_, rfl, ?_⟩,
    fun n w => ⟨fun hs fits plain => ⟨_, rfl, ?_⟩, fun hs may go => ⟨_, rfl, ?_⟩⟩,
    fun q fine b own up low high => ⟨fun ptp => ⟨_, rfl, ?_⟩, fun k ecpri alone flock => ⟨_, rfl, ?_⟩⟩,
    fun k q id b l c first served good held hc format frame starts early late uncovered fresh => ⟨_, rfl, ?_⟩,
    fun x mem least => ⟨_, rfl, ?_⟩,
    fun l k c y air held hc hy hair alone needed covered fresh => ⟨_, rfl, ?_⟩,
    fun l start count rx m k y c f alone bell held hy hc hf up none some_ size inRx => ⟨_, rfl, ?_⟩,
    fun k q fine b served up long asks rate => ⟨_, rfl, ?_⟩,
    fun k q tag b => ⟨fun h => ⟨_, rfl, ?_⟩, fun l x h own named held mine => ⟨_, rfl, ?_⟩, fun r h found => ⟨_, rfl, ?_⟩,
      fun h zero ul inside stack => ⟨_, rfl, ?_⟩, fun h ul allowed free => ⟨_, rfl, ?_⟩, fun st h rx allowed ret => ⟨_, rfl, ?_⟩,
      fun h => ⟨_, rfl, ?_⟩⟩,
    ⟨_, rfl, ?_⟩, fun x mem least => ⟨_, rfl, slotEffective_takes mem least⟩, fun n r tie => ⟨_, rfl, ?_⟩, fun r found => ⟨_, rfl, ?_⟩,
    fun k => ⟨fun free next => ⟨_, rfl, quarantineOn_begins free next⟩, fun quar clean => ⟨_, rfl, quarantineOff_ends quar clean⟩⟩,
    fun w ul l x hs go all held mine carrier => ⟨_, rfl, ?_⟩⟩
  · obtain ⟨step, paused, -⟩ := stepTimeout_fails reached training runs low high alone
    exact ⟨step, paused⟩
  · have begun : bringUpStart q s = bringUp q s := if_pos (.inl paused)
    obtain ⟨state, step, runs, -⟩ := trainingBegun_port q.isLt s
    rw [begun, bringUp_plain plain]
    exact ⟨state, step, runs⟩
  · obtain ⟨state, -, int⟩ := portL0_reaches training alone runs whole all close none
    exact ⟨state, int⟩
  · rw [State.hosted_served hs]
    exact portState_rests rest own free on well
  · rw [State.hosted_served hs]
    exact (holdPort_done s).2.1
  · rw [State.hosted_served hs]
    exact (holdClear_done s).2.1
  · have trains := retrain_done (q := q) s
    rw [if_neg (by simp [up, alone])] at trains
    rw [State.hosted_served hs]
    exact trains plain
  · rw [if_pos ⟨down, may⟩, bringUp_plain plain]
    exact (trainingBegun_port q.isLt s).1
  · obtain ⟨quarantine, state, -⟩ := quarRelease_done (q := q) (s := s) (by simp [quar, clean, alone])
    refine ⟨quarantine, ?_⟩
    rw [state]
    split
    · decide
    · decide
  · exact laneSwapDone_whole runs all close q.isLt whole live none
  · rw [(loopbackDone_shows pass looped).1]
    exact ⟨rfl, rfl⟩
  · rw [State.hosted_served hs]
    exact swapLane_taken up free now
  · exact (if_neg idle ▸ laneSecond_counts k s :)
  · exact discovery_wired i w (by simp [fitted, stack, free]; omega)
  · have stored := (txEqWrite_stores n.isLt fits (s := s)).2
    rw [if_neg (by simp [plain])] at stored
    rw [State.hosted_served hs]
    exact stored
  · obtain ⟨reg, -, tests, -⟩ := testWrite_stores (s := s) n.isLt (.inr may) (w := w)
    rw [State.hosted_served hs]
    exact ⟨tests.mpr go, reg⟩
  · rw [frameRx_sorted (by rw [framePort_fronthaul own]; exact up) low high (by rw [ptp]; decide), frameSort_ptp own ptp]
  · rw [frameRx_sorted (by rw [framePort_fronthaul own]; exact up) low high (by rw [ecpri]; decide), frameSort_flock own ecpri alone flock]
  · rw [if_pos served, iqSection_onTime good held hc format frame starts early late uncovered]
    exact sectionAccept_holds fresh
  · rw [mem_sectionRelease]
    rintro ⟨-, y, hy, before⟩
    have := least y hy
    omega
  · rw [if_neg (by simp [alone])]
    obtain ⟨int, -, subst, -⟩ := lateSubst_substitutes held hc hy hair needed covered fresh
    exact ⟨subst, int⟩
  · rw [if_neg (by simp [alone])]
    exact ulSectionSend_sends bell held hy hc hf up none some_ size inRx
  · rw [if_pos served, if_neg (by omega)]
    exact measurement_answers served up asks rate _
  · refine (congrArg List.length (admitReq_done h).1).trans ?_
    rw [List.length_append, List.length_singleton]
  · exact ((releaseSlots_done h).2 own).2 l x named held mine
  · exact (withdraw_done h).2 r found
  · obtain ⟨-, taken⟩ := (skeinWrite_done (q := q) (tag := tag) h).2.2 (by omega) (.inl ul)
    have done := taken (by rw [ul]; exact inside) zero
    rw [ul] at done
    exact done
  · exact swapReq_enters h ul allowed free
  · exact burstReq_enters h rx allowed ret
  · obtain ⟨f, cfg⟩ := flockCfg_of_served h.1
    obtain ⟨formats, -, done, -⟩ := capsReq_done (q := q) (tag := tag) h cfg
    exact ⟨formats, done⟩
  · obtain ⟨epoch, reqs⟩ := epochEnd_requests s
    have kept := casEpoch_sameEpoch (epochEnd s)
    exact ⟨kept.epoch.trans epoch, kept.reqs.trans reqs⟩
  · rw [tie]
    rfl
  · rw [found]
    exact ⟨rfl, admitReply_refused ..⟩
  · obtain ⟨y, now, -, ends⟩ := releaseAll_ends carrier ⟨x, held, mine⟩
    have done : flockCtrlWrite w s = releaseAll (fld w 2 0) s := if_pos ⟨go, all⟩
    rw [State.hosted_served hs, done, now]
    exact ends

end Sys2Proof.Machine
end
